-- ==== Sys2Proof/Word.lean ====
section
/-! DEFINITION. The word types of the Nabiry model (spec 00_scope.md, R3, R4, R7). -/

namespace Sys2Proof

/-- One byte of a memory, a command, a completion or a frame. -/
abbrev Byte := BitVec 8

/-- One register (R422: every register is 32 bits wide). -/
abbrev Word := BitVec 32

/-- A Stamp: [63:32] seconds, [31:0] fraction (R7). -/
abbrev Stamp := BitVec 64

/-- A calendar time: [63:24] seconds, [23:0] fraction (R8). -/
abbrev CalTime := BitVec 64

end Sys2Proof
end

