-- ==== Sys2Proof/Machine/Table.lean ====
section
/-! DEFINITION. Sparse tables: the one form in which the model holds memories, arrays of slots and arrays of
registers. A table lists the entries that differ from what an unlisted key reads as, keys strictly rising, so that
equal contents are equal data. -/

namespace Sys2Proof.Machine

/-- A table from numbers to values: key and value pairs, keys strictly rising. -/
abbrev Tbl (α : Type) := List (Nat × α)

/-- The entry of a key. -/
def tblFind {α : Type} (k : Nat) : Tbl α → Option α
  | [] => none
  | (j, v) :: t => if j = k then some v else tblFind k t

/-- The value of a key, `d` when the table does not list it. -/
def tblGet {α : Type} (d : α) (t : Tbl α) (k : Nat) : α := (tblFind k t).getD d

/-- The table without a key. -/
def tblDel {α : Type} (k : Nat) : Tbl α → Tbl α
  | [] => []
  | (j, v) :: t => if j = k then tblDel k t else (j, v) :: tblDel k t

/-- The table with a key listed as `v`, at its place in the rising order. -/
def tblPut {α : Type} (k : Nat) (v : α) : Tbl α → Tbl α
  | [] => [(k, v)]
  | (j, w) :: t =>
    if k < j then (k, v) :: (j, w) :: t
    else if k = j then (k, v) :: t
    else (j, w) :: tblPut k v t

/-- The table with key `k` reading `v`: an entry equal to the default `d` is not listed. -/
def tblSet {α : Type} [DecidableEq α] (d : α) (k : Nat) (v : α) (t : Tbl α) : Tbl α :=
  if v = d then tblDel k t else tblPut k v t

/-- Every key of the table is at or above `lo`, and the keys strictly rise. -/
def tblFrom {α : Type} (lo : Nat) : Tbl α → Bool
  | [] => true
  | (j, _) :: t => decide (lo ≤ j) && tblFrom (j + 1) t

/-- The canonical form: keys strictly rising. -/
def tblSorted {α : Type} (t : Tbl α) : Bool := tblFrom 0 t

/-- The canonical form of a table with default `d`: keys strictly rising and no entry equal to the default. -/
def tblWf {α : Type} [DecidableEq α] (d : α) (t : Tbl α) : Bool :=
  tblSorted t && t.all (fun e => decide (e.2 ≠ d))

/-- The listed keys whose entry passes a test, in rising order. -/
def tblKeys {α : Type} (p : α → Bool) (t : Tbl α) : List Nat := (t.filter (fun e => p e.2)).map (·.1)

/-- How many listed entries pass a test. -/
def tblCount {α : Type} (p : α → Bool) (t : Tbl α) : Nat := (t.filter (fun e => p e.2)).length

/-- A new value for every listed entry. -/
def tblMap {α β : Type} (f : α → β) (t : Tbl α) : Tbl β := t.map (fun e => (e.1, f e.2))

/-- The entries that pass a test. -/
def tblKeep {α : Type} (p : Nat → α → Bool) (t : Tbl α) : Tbl α := t.filter (fun e => p e.1 e.2)

/-- The first key at or above `lo`, below `lo + n`, that the table does not list. -/
def tblFree {α : Type} (t : Tbl α) (lo : Nat) : Nat → Option Nat
  | 0 => none
  | n + 1 => if (tblFind lo t).isNone then some lo else tblFree t (lo + 1) n

/-- A byte memory: an unlisted address reads zero. -/
abbrev ByteMem := Tbl Byte

/-- The byte at an address. -/
def memByte (m : ByteMem) (a : Nat) : Byte := tblGet 0 m a

/-- `n` bytes from address `a`. -/
def memRead (m : ByteMem) (a : Nat) : Nat → List Byte
  | 0 => []
  | n + 1 => memByte m a :: memRead m (a + 1) n

/-- The memory with a byte string written from address `a`. -/
def memWrite (m : ByteMem) (a : Nat) : List Byte → ByteMem
  | [] => m
  | b :: bs => memWrite (tblSet 0 a b m) (a + 1) bs

/-- The canonical form of a byte memory. -/
def memWf (m : ByteMem) : Bool := tblWf (0 : Byte) m

end Sys2Proof.Machine
end

