-- ==== Sys2Proof/Machine/StLinks.lean ====
section
/-! DEFINITION. Parts of the state: field ports, queues, Care Cards and classification (spec 09 R242 to R248, spec 10). -/

namespace Sys2Proof.Machine

/-- `LNK_STAT.STATE` (Table 10-14). -/
inductive PortMode where
  | disabled | down | training | up | idleForced
  deriving DecidableEq, Repr

/-- The coding of `LNK_STAT.STATE`. -/
def PortMode.code : PortMode → Nat
  | .disabled => 0
  | .down => 1
  | .training => 2
  | .up => 3
  | .idleForced => 4

/-- A frame in a hold ring: its hold header and its bytes (R46). -/
structure HoldFrame where
  stamp : Stamp
  flags : Nat
  bytes : List Byte
  fcsOk : Bool
  deriving DecidableEq, Repr

/-- An entry of a port's timestamp FIFO (R298). -/
structure PtpEntry where
  stamp  : Stamp
  seq    : Nat
  kind   : Nat
  domain : Nat
  sent   : Bool
  deriving DecidableEq, Repr

/-- A field port beside its registers. -/
structure PortState where
  mode    : PortMode := .disabled
  anDone  : Bool := false
  remote  : Bool := false
  localF  : Bool := false
  /-- clock at which IDLE_FORCED began -/
  idleAt  : Nat := 0
  /-- the receive path is on the hold ring, and its frames, oldest first (R47) -/
  hold    : Bool := false
  ring    : List HoldFrame := []
  /-- IP addresses of members 0 to 2 (R300) -/
  ips     : List (List Byte) := [[], [], []]
  ptp     : List PtpEntry := []
  /-- clocks of the last Sync and Announce sent as a master (R299) -/
  syncAt  : Nat := 0
  annAt   : Nat := 0
  /-- the queues served last at the three levels of the scheduler (R244) -/
  lastA   : Nat := 0
  lastV   : Nat := 0
  lastD   : Nat := 0
  deriving DecidableEq, Repr

/-- The peer record of a member (Table 10-9). -/
structure Peer where
  mac : List Byte := []
  ip  : List Byte := []
  udp : Nat := 0
  deriving DecidableEq, Repr

/-- A frame in a queue's transmit list: the frame as first built, which every repetition and retransmission sends again
(R274). -/
structure TxFrame where
  ctr     : Nat
  kind    : Nat
  /-- FFP header, ciphertext and tag -/
  bytes   : List Byte
  /-- first buffer of its chain; none for frames that Tortin builds itself -/
  chain   : Option Nat := none
  /-- clock at which it was enqueued, and at which it first left; how often it has left -/
  enqAt   : Nat
  firstAt : Option Nat := none
  sent    : Nat := 0
  /-- a retransmission is due now (R284) -/
  again   : Bool := false
  acked   : Bool := false
  gaveUp  : Bool := false
  /-- the `LINK.SEND` that built it -/
  cmd     : Option Nat := none
  /-- scheduled retransmissions that have fallen due (R284) -/
  fired   : Nat := 0
  /-- the journal entry that must be acknowledged before it leaves (R313) -/
  jseq    : Nat := 0
  deriving DecidableEq, Repr

/-- A frame in a queue's receive list (R247). -/
structure RxFrame where
  ctr     : Nat
  app     : Nat
  chain   : Nat
  payload : List Byte
  stamp   : Stamp
  /-- the journal entry that must be acknowledged before it is delivered (R316) -/
  jseq    : Nat := 0
  deriving DecidableEq, Repr

/-- A received FFP frame: its header fields, its source address, and the bytes of the whole frame with the FCS. -/
structure FfpHdr where
  kind  : Nat
  flags : Nat
  queue : Nat
  epoch : Nat
  ctr   : Nat
  len   : Nat
  app   : Nat
  raw   : List Byte
  body  : List Byte
  tag   : List Byte
  src   : List Byte
  whole : Nat
  deriving DecidableEq, Repr

/-- A received frame that waits in its buffers for a place in a pipeline's job list (R157): its port, the queue it goes to (0xFFFF in an enrolment),
the frame, its chain and its arrival. -/
structure RxWait where
  port  : Nat
  queue : Nat
  frame : FfpHdr
  chain : Option Nat
  stamp : Stamp
  deriving DecidableEq, Repr

/-- A replay window: the highest sequence accepted and one bit for each of the last 1,024 (R277); the highest
heartbeat-class sequence beside it. -/
structure Replay where
  high : Nat := 0
  bits : Nat := 0
  hb   : Nat := 0
  deriving DecidableEq, Repr

/-- A key register of a queue's link cache entry (R160, R278). -/
structure KeyReg where
  epoch : Nat
  key   : List Byte
  win   : Replay := {}
  deriving DecidableEq, Repr

/-- State of a queue context (Table 9-6). -/
inductive QueueMode where
  | active | paused | draining
  deriving DecidableEq, Repr

/-- The coding of a queue's state; a FREE queue is not listed. -/
def QueueMode.code : QueueMode → Nat
  | .active => 1
  | .paused => 2
  | .draining => 3

/-- A queue that is not FREE: its context (Table 9-6), its description (Table 10-9), its lists and its counters. -/
structure Queue where
  mode     : QueueMode := .paused
  cls      : Nat
  dup      : Bool := false
  cont     : Bool := false
  rx       : Bool := false
  tx       : Bool := false
  air      : Bool := false
  held     : Bool := false
  bulkAck  : Bool := false
  repeats  : Nat := 1
  port     : Nat
  owner    : Nat
  slice    : Nat
  card     : BitVec 64
  /-- the handle and the usage flags that its link cache entry carries (R115) -/
  key      : Nat
  flags    : Nat := 0
  epoch    : Nat := 0
  deadline : Nat
  txCtr    : Nat := 1
  leaseEnd : Nat := 1
  /-- counters below this are covered by acknowledged leases; the entry of the newest lease (R313) -/
  ctrSafe  : Nat := 1
  ctrSeq   : Nat := 0
  rxCtr    : Nat := 0
  weight   : Nat := 0
  rate     : Nat := 0
  hbPeriod : Nat := 0
  dest     : Nat := 0
  core     : Nat := 0
  fwd      : Nat := 0
  limit    : Nat := 1024
  drops    : Word := 0
  peers    : List Peer := []
  /-- receive ring: completion ring, log2 slots, log2 slot size, base, next slot -/
  rxCq     : Nat := 0
  rxSlots  : Nat := 4
  rxSize   : Nat := 9
  rxBase   : Nat := 0
  rxNext   : Nat := 0
  /-- completion-ring entries of slots the host has not returned (R287) -/
  rxOut    : List Nat := []
  txList   : List TxFrame := []
  rxList   : List RxFrame := []
  deficit  : Nat := 0
  /-- `VOICE` token bucket in bytes, and the clock to which it is filled -/
  tokens   : Nat := 0
  tokensAt : Nat := 0
  /-- key registers of its link cache entry: present and adjacent epoch -/
  present  : Option KeyReg := none
  adjacent : Option KeyReg := none
  /-- accepted counters still to be acknowledged, and the clock of the first of them (R283) -/
  ackDue   : List Nat := []
  ackAt    : Nat := 0
  /-- the sequences that the receive window misses and that have not been asked for, each with the clock since which it has been open (R284) -/
  gaps     : Tbl Nat := []
  /-- clock of the last accepted node heartbeat, a loss declared, sequence of the device's heartbeats (R288, R290) -/
  hbLast   : Option Nat := none
  /-- arrival Stamp of that heartbeat (R290) -/
  hbStamp  : Stamp := 0
  hbLost   : Bool := false
  hbSeq    : Nat := 1
  /-- ends of the heartbeat leases of members 0 to 2; sequences of this member below `hbSafe` are covered by acknowledged leases, `hbJseq` is the
  entry of its newest (R313, Table 11-7) -/
  hbEnds   : List Nat := [1, 1, 1]
  hbSafe   : Nat := 1
  hbJseq   : Nat := 0
  /-- last heard mask of the node (R289) -/
  heard    : Nat := 0
  /-- `LINK.STATS` counters (Table 10-12) -/
  sent     : Nat := 0
  accepted : Nat := 0
  retrans  : Nat := 0
  givenUp  : Nat := 0
  authFail : Nat := 0
  replays  : Nat := 0
  epochDr  : Nat := 0
  stale    : Nat := 0
  hbLosses : Nat := 0
  ackedN   : Nat := 0
  lastRx   : Stamp := 0
  deriving DecidableEq, Repr

/-- An epoch change of a card in progress (R279). -/
structure EpochChange where
  epoch   : Nat
  queue   : Nat
  frame   : List Byte
  begun   : Nat
  lastTx  : Nat
  /-- the frame has not left yet, for the entry of the epoch's lease is not acknowledged (R313) -/
  due     : Bool := false
  jseq    : Nat := 0
  listed  : List Nat
  /-- the `LINK.REKEY` that started it, if a command did -/
  cmd     : Option Nat
  deriving DecidableEq, Repr

/-- A card record (R297, Table 10-11). -/
structure CardRec where
  owner    : Nat
  port     : Nat
  key      : Nat
  conf     : Nat := 1
  offered  : Nat := 1
  total    : Nat
  left     : Nat
  flags    : Nat := 0
  low      : Bool := false
  report   : Stamp := 0
  enrolCt  : CalTime := 0
  fwVer    : Nat := 0
  cont     : Bool := false
  change   : Option EpochChange := none
  /-- clock of the last confirmation, while the adjacent registers still hold the old epoch -/
  confAt   : Option Nat := none
  deriving DecidableEq, Repr

/-- A `CARD.ENROL` in progress (R294, R296). -/
structure Enrolment where
  tag    : Nat
  card   : BitVec 64
  port   : Nat
  peers  : List Peer
  owner  : Nat
  total  : Nat
  cont   : Bool
  /-- the card key and the key of queue 0xFFFF in epoch 1, as its device-internal slots hold them -/
  master : List Byte
  key    : List Byte
  offer  : List Byte
  begun  : Nat
  lastTx : Nat
  /-- the accepted report: epochs left, flags, firmware version, arrival (R294 step 5) -/
  report : Option (Nat × Nat × Nat × Stamp) := none
  /-- Thimble has been asked to make the card key an object -/
  asked  : Bool := false
  deriving DecidableEq, Repr

/-- An explicit classification rule (R270, R300). -/
structure ClassRule where
  port   : Nat
  kind   : Nat
  bits   : Nat
  header : Nat
  target : Nat
  addr   : List Byte
  deriving DecidableEq, Repr

/-- Field links: ports, queues, cards, enrolments and rules. -/
structure LinkState where
  ports  : Tbl PortState := []
  queues : Tbl Queue := []
  cards  : Tbl CardRec := []
  enrols : List Enrolment := []
  rules  : Tbl ClassRule := []
  /-- received frames that wait for Press, oldest first (R157) -/
  waits  : List RxWait := []
  /-- fused base MAC address of the ports (R268) -/
  macBase : Nat := 0
  /-- UTC offset last announced by a PTP source (R299) -/
  utcOffset : Nat := 37
  deriving DecidableEq, Repr

end Sys2Proof.Machine
end

