-- ==== Sys2Proof/Machine/StBoot.lean ====
section
/-! DEFINITION. Parts of the state: boot control, firmware slots, the flash chips, the settings store, the life-cycle
fuses and the debug certificate (spec 16, 17). -/

namespace Sys2Proof.Machine

/-- State of an entry of the generation table (R452). -/
inductive GenMode where
  | running | trial | pending | retired | abandoned
  deriving DecidableEq, Repr

/-- An entry of the generation table: a key-store generation and the measurements it is bound to (R452). -/
structure GenEntry where
  gen  : Nat
  bm0  : List Byte
  bm1  : List Byte
  mode : GenMode
  deriving DecidableEq, Repr

/-- The boot control record of the root vault (R452). -/
structure BootCtl where
  slot     : Nat := 0
  trial    : Bool := false
  count    : Nat := 0
  confirm  : Bool := false
  high     : Nat := 0
  /-- SHA-384 of owner 0's credentials and quorums; empty when cleared -/
  own0     : List Byte := []
  gens     : List GenEntry := []
  deriving DecidableEq, Repr

/-- A vendor key slot of the fuses (R445). -/
structure VendorSlot where
  digest  : List Byte := []
  revoked : Bool := false
  deriving DecidableEq, Repr

/-- State byte of a slot record (Table 16-8). -/
inductive SlotMode where
  | empty | staged | verified | running | trial | previous | invalid
  deriving DecidableEq, Repr

/-- The coding of a slot record's state. -/
def SlotMode.code : SlotMode → Nat
  | .empty => 0
  | .staged => 1
  | .verified => 2
  | .running => 3
  | .trial => 4
  | .previous => 5
  | .invalid => 6

/-- A firmware slot: its state in the directory and the package as it stands on each chip (R451, R464). -/
structure FwSlot where
  mode : SlotMode := .empty
  pkg0 : List Byte := []
  pkg1 : List Byte := []
  deriving DecidableEq, Repr

/-- A settings area (R454). -/
structure SettingsArea where
  valid  : Bool := false
  schema : Nat := 0
  count  : Nat := 0
  ksGen  : Nat := 0
  deriving DecidableEq, Repr

/-- State of a flash chip, as `FW.STATUS` codes it (Table 16-7). -/
inductive ChipMode where
  | good | faulty | copying | absent
  deriving DecidableEq, Repr

/-- The coding of a chip's state. -/
def ChipMode.code : ChipMode → Nat
  | .good => 0
  | .faulty => 1
  | .copying => 2
  | .absent => 3

/-- Progress of the start sequence (R441). -/
inductive StartStep where
  /-- no start is in progress: the device runs -/
  | done
  /-- steps 1 to 3 are next -/
  | fuses
  /-- a resumed life-cycle transition runs first (R478) -/
  | resume
  /-- the Thimble image is being copied from a chip -/
  | copyThm (slot chip : Nat)
  /-- the Tortin image is being copied from a chip -/
  | copyTor (slot chip : Nat)
  /-- the package is to be checked -/
  | check (slot chip : Nat)
  /-- the Thimble firmware opens the key store -/
  | open_ (slot : Nat)
  /-- Tortin reads the settings and programs the Hem controllers -/
  | tortin (slot : Nat)
  deriving DecidableEq, Repr

/-- What the settings store keeps: the registers of mirrored settings and of this device alone, and the settings that
stand in other blocks. -/
structure Settings where
  regs      : Tbl Word := []
  own       : Tbl Word := []
  quorum    : Nat := 0
  solo      : Nat := 0
  source    : Nat := 0
  ptpPort   : Nat := 0
  ptpDomain : Nat := 0
  ppsWidth  : Nat := 100
  rngCfg    : Word := 0xFF
  pers      : List Byte := []
  rules     : Tbl ClassRule := []
  ips       : Tbl (List (List Byte)) := []
  deriving DecidableEq, Repr

/-- Boot, flash and firmware. -/
structure BootState where
  /-- capacity of the flash chips in MiB (R450: the smaller one governs) -/
  flashMib : Nat := 64
  chip0    : ChipMode := .good
  chip1    : ChipMode := .good
  /-- clock of the last probe of a failed chip (R451) -/
  probeAt  : Nat := 0
  ctl      : Option BootCtl := none
  vendor   : List VendorSlot := [{}, {}, {}, {}]
  /-- security-version bits burned (R446) -/
  secMin   : Nat := 0
  slotA    : FwSlot := {}
  slotB    : FwSlot := {}
  area0    : SettingsArea := {}
  area1    : SettingsArea := {}
  inUse    : Nat := 0
  /-- `FW.STATUS` byte 3 -/
  lastStart : Nat := 0
  bm0      : List Byte := []
  bm1      : List Byte := []
  /-- the staging register of the measured-copy unit (R442) -/
  staged0  : List Byte := []
  staged1  : List Byte := []
  step     : StartStep := .fuses
  /-- device resets in a row before READY (R462) -/
  early    : Nat := 0
  mend     : Bool := false
  /-- `BOOT_MODE` as sampled (R447) -/
  strap    : Nat := 0
  confirmCt : CalTime := 0
  /-- key store: 0 open, else the cause of Table 16-4 -/
  ksCause  : Nat := 1
  /-- running key-store generation; 0 when closed -/
  ksGen    : Nat := 0
  /-- Mend ends at the next device reset (R462) -/
  leave    : Bool := false
  /-- the next reset starts the predecessor with its own settings area (R460) -/
  revert   : Bool := false
  /-- the settings store's contents while they are not in force, and those of the predecessor's area during a trial
  (R456) -/
  saved    : Settings := {}
  before   : Settings := {}
  deriving DecidableEq, Repr

/-- The summary of the installed debug certificate (R481). -/
structure DebugCert where
  rights    : Nat
  serial    : BitVec 64
  notBefore : CalTime
  notAfter  : CalTime
  bootLimit : Nat
  states    : Nat
  ident     : BitVec 64
  digest    : List Byte
  deriving DecidableEq, Repr

/-- A life-cycle transition in progress (R474): its target, its fuse slot, and whether the areas are being erased. -/
structure Transition where
  target  : Nat
  slot    : Nat
  deriving DecidableEq, Repr

/-- Life cycle and debug (spec 17). -/
structure LcState where
  /-- the 16 life-cycle fuse slots (R476); a device leaves the factory in Integrator -/
  fuses   : List Nat := [0x3A, 0, 0, 0, 0, 0, 0, 0, 0, 0, 0, 0, 0, 0, 0, 0]
  trans   : Option Transition := none
  cert    : Option DebugCert := none
  bootCnt : Word := 1
  /-- a transition ended at the reset that this start follows (R474) -/
  from_   : Option Nat := none
  /-- the factory memory test runs (R467) -/
  memTest : Bool := false
  /-- the JTAG port halts the CP, and Needle cores (R479) -/
  cpHalt  : Bool := false
  /-- the rights of the installed certificate have been put in force (R481, R482) -/
  certOn  : Bool := false
  /-- the JTAG port holds the device in ACTIVE (Table 17-5, `PWR_HOLD`) -/
  pwrHold : Bool := false
  deriving DecidableEq, Repr

end Sys2Proof.Machine
end

