-- ==== Sys2Proof/Machine/StCore.lean ====
section
/-! DEFINITION. Parts of the state: requesters, the device clock, PCIe functions, slices and rings, the
command tracker and the front mailbox (spec 02, 03, 12, 15, 20). -/

namespace Sys2Proof.Machine

/-- Who makes a register or memory access (R25, R394, R432: the internal agents share one latch and one window). -/
inductive Requester where
  | fn (p : Nat)      -- PCIe function 0 or 1
  | cp                -- the control processor
  | thm               -- Thimble
  | core (n : Nat)    -- a Needle core
  | dma (c : Nat)     -- a DMA channel
  deriving DecidableEq, Repr

/-- `DEV_GUARD_INFO.REQ` coding: 0 function 0, 1 function 1, 2 internal agent; also the index of latches and windows. -/
def Requester.cls : Requester → Nat
  | .fn p => if p = 0 then 0 else 1
  | _ => 2

/-- Host software is the only requester that is not an internal agent. -/
def Requester.isHost : Requester → Bool
  | .fn _ => true
  | _ => false

/-- What the host answers to a read by the device: the bytes, or a failure that remains after the DMA retries. -/
inductive HostRead where
  | data (bs : List Byte)
  | fault
  deriving DecidableEq, Repr

/-- What a started command meets in host memory: the input bytes and whether its output write is taken. -/
structure HostIO where
  input : HostRead := .data []
  outOk : Bool := true
  deriving DecidableEq, Repr

/-- Where a register access goes: an internal address (a BAR0 block lies at 0x8000_0000 plus its BAR0 offset), or an
offset of a slice page in BAR2 (R15). -/
inductive RegPlace where
  | reg (addr : Nat)
  | page (slice off : Nat)
  deriving DecidableEq, Repr

/-- The forms of a read of `RNG_DATA` (R221): one word, the two words of a 2-DW read, or partial byte enables. -/
inductive DataForm where
  | one
  | two
  | partial_
  deriving DecidableEq, Repr

/-- A read of `RNG_DATA`: who makes it and in which form. -/
structure DataRead where
  r : Requester
  form : DataForm
  deriving DecidableEq, Repr

/-- A request through the JTAG port (Table 17-5). The port's own encoding is not described; a core's registers are numbered 0 to 15
A, 16 to 31 M, 32 to 47 L, 48 to 63 B, 64 the program counter, 65 the predicates (assumption 17). -/
inductive DebugReq where
  | cpHalt
  | cpResume
  | cpStep
  | coreHalt (n : Nat)
  | coreResume (n : Nat)
  | coreStep (n : Nat)
  | regRead (n i : Nat)
  | regWrite (n i v : Nat)
  | memRead (n off : Nat) (work : Bool)
  | memWrite (n off : Nat) (work : Bool) (v : Word)
  | busRead (addr : Nat)
  | busWrite (addr : Nat) (v : Word)
  | powerHold (on : Bool)
  deriving DecidableEq, Repr

/-- A field of a function's configuration space that the device acts on (R564, R252). -/
inductive CfgItem where
  | busMaster (on : Bool)
  | pasidEn (on : Bool)
  | msixEn (on : Bool)
  | fnMask (on : Bool)
  | aspmL1 (on : Bool)
  | cplTo (v : Nat)
  deriving DecidableEq, Repr

/-- What an operation of the flash controller is for. -/
inductive FlashJob where
  | tally | stage | program | settings
  deriving DecidableEq, Repr

/-- The correction of the Stamp in progress (R29, Table 2-4). -/
inductive Correction where
  | none
  | slew (fast : Bool)      -- nominal rate plus or minus 500 ppm
  | backward                -- half of the nominal rate
  deriving DecidableEq, Repr

/-- The device clock and time synchronisation (spec 02). The registers of `TIME` and `PWR` stand in the register file. -/
structure TimeState where
  /-- the Stamp and its 32 hidden bits (R23) -/
  acc      : BitVec 96 := 0
  /-- Airing cycles of 4 ns since power-on reset: the model's measure of elapsed time (assumption 2) -/
  clk      : Nat := 0
  /-- the root vault's epoch counter (R24) -/
  epoch    : BitVec 16 := 0
  /-- the real-time clock of the VBAT domain (R38) -/
  rtc      : CalTime := 0
  corr     : Correction := .none
  /-- what the correction still has to take up, in 2^-32 Stamp LSBs, and the offset in nanoseconds at which it ends (R29) -/
  corrLeft : Nat := 0
  corrEnd  : Int := 0
  /-- the servo's increment, which a correction's rate replaces in `TIME_INC` (R23, R29) -/
  incHeld  : Nat := 0
  /-- `TIME_CTRL.STEP` was written and waits for the next Airing cycle -/
  stepAsked : Bool := false
  /-- calendar time crossed a whole second in the present cycle; the RTC's own part of a tick (R38) -/
  rtcDue   : Bool := false
  rtcPart  : Nat := 0
  /-- offset measurements since the servo's last action, in nanoseconds, and the clock of that action (R31) -/
  meas     : List Int := []
  servoAt  : Nat := 0
  /-- measurements with |o| at most 100 ns in a row (R34) -/
  lockRun  : Nat := 0
  /-- clock of the last accepted `PPS_IN` edge (R33) -/
  lastPps  : Option Nat := none
  /-- clock of the last accepted PTP Sync (R34) -/
  lastSync : Option Nat := none
  /-- clock at which the source was selected: the times of R33 and R34 run from it until an edge or a Sync comes -/
  srcAt    : Nat := 0
  /-- mean path delay that the slave clock has found, in nanoseconds (R34) -/
  ptpDelay : Nat := 0
  ptpPort  : Nat := 0
  ptpDomain : Nat := 0
  /-- level of `PPS_OUT`, its width in ms and the clock at which it rose (R36) -/
  ppsOut   : Bool := false
  ppsWidth : Nat := 100
  ppsRise  : Nat := 0
  /-- the clock that `TIME_CTRL.PPSOUT` selects crossed a whole second in the present cycle (R36) -/
  ppsDue   : Bool := false
  /-- the source setting that the group mirrors (R32) -/
  groupSrc : Nat := 0
  /-- whether calendar time from PTP has been refused under R35 and waits for `TIME.SET_CT` -/
  ctBack   : Bool := false
  /-- the first PTP lock since the source was selected has set `TIME_CT_BASE` (R34) -/
  ptpSet   : Bool := false
  /-- sequence numbers of the PTP master messages, Sync and Announce (R299) -/
  syncSeq  : BitVec 16 := 0
  annSeq   : BitVec 16 := 0
  /-- whether a wake timer match has been raised for the present `TIME_WAKE_AT` (R45) -/
  wakeSeen : Bool := false
  deriving DecidableEq, Repr

/-- An access of host software through a BAR, as the PCIe endpoint holds it while the device sleeps or wakes (R45). -/
inductive HostReq where
  | write (fn : Nat) (pasid : Option Nat) (place : RegPlace) (value : Word)
  | narrow (fn : Nat) (pasid : Option Nat) (place : RegPlace)
  | lcsReq (value : Word)
  | long (fn : Nat) (isWrite : Bool)
  | atomic (fn : Nat)
  | loRead (fn addr : Nat)
  | rngRead (fn : Nat) (form : DataForm)
  deriving DecidableEq, Repr

/-- A read waits for ACTIVE; a posted write, and an AtomicOp with it, does not (R45). -/
def HostReq.isRead : HostReq → Bool
  | .loRead _ _ | .rngRead _ _ | .long _ false => true
  | _ => false

/-- A held access and the Stamp of its arrival (R45). -/
structure HeldReq where
  req : HostReq
  at_ : Stamp
  deriving DecidableEq, Repr

/-- The power controller (spec 02, R42 to R48): the state and causes stand in `PWR_STATE` and `PWR_WAKE_SRC`. -/
structure PwrState where
  /-- main supplies off: VAULT, only the VBAT domain runs (R48) -/
  vault    : Bool := false
  /-- clock of the last request to a fast-domain block (Table 2-5) -/
  fastLast : Nat := 0
  /-- clock since which the AIRING idle conditions have held (Table 2-5) -/
  idleLast : Nat := 0
  /-- the `TIME.STANDBY` command whose completion is still to be written -/
  standby  : Option Nat := none
  /-- Stamp of the last wake, as its source was captured (R45) -/
  wakeAt   : Stamp := 0
  /-- clock at which STANDBY began: the processor clock stands since then (Table 1-8) -/
  sleptAt  : Nat := 0
  /-- steps of an entry into AIRING that are done (R43); 0: none is in progress -/
  entering : Nat := 0
  /-- the clock at which the source of the wake in progress was captured (Table 2-6) -/
  leaving  : Option Nat := none
  /-- host accesses that the PCIe endpoint holds, oldest first (R45) -/
  held     : List HeldReq := []
  /-- the Stamp of arrival of the held access that is being applied -/
  arrived  : Option Stamp := none
  deriving DecidableEq, Repr

/-- One PCIe function and its port (R17, R438, R548, R549, R564). -/
structure FnState where
  linkUp    : Bool := true
  busMaster : Bool := false
  pasidEn   : Bool := false
  msixEn    : Bool := false
  fnMask    : Bool := false
  aspmL1    : Bool := false
  /-- the link is in L1 (R43) -/
  l1        : Bool := false
  /-- Completion Timeout value of the function -/
  cplTo     : Nat := 0
  /-- MSI-X table entries the host has unmasked -/
  unmasked  : Tbl Bool := []
  /-- Pending Bits of the MSI-X table (R77) -/
  pba       : Tbl Bool := []
  deriving DecidableEq, Repr

/-- A submission ring of a slice (R51 to R55, Table 3-7). -/
structure SqRing where
  baseLo : Word := 0
  baseHi : Word := 0
  cfg    : Word := 4
  head   : Nat := 0
  tail   : Nat := 0
  /-- the tail at which fetching waits for the continuation entries of an `INLINE` command (R55) -/
  stall  : Option Nat := none
  /-- Stamp of the last doorbell write (R25) -/
  bell   : Stamp := 0
  deriving DecidableEq, Repr

/-- A completion ring of a slice (R56, R57, R77, Table 3-7). -/
structure CqRing where
  baseLo : Word := 0
  baseHi : Word := 0
  cfg    : Word := 4
  coal   : Word := 1
  /-- the host's head -/
  head   : Nat := 0
  /-- the next entry the device writes -/
  tail   : Nat := 0
  phase  : Bool := true
  /-- Stamp of the last doorbell write (R25) -/
  bell   : Stamp := 0
  /-- completions written since the last interrupt, and the clock of the first of them (R77 mode 2) -/
  since  : Nat := 0
  firstAt : Nat := 0
  deriving DecidableEq, Repr

/-- A completion as the tracker and the duplicate table record it (R63, R67). -/
structure Comp where
  status : Nat := 0
  dup    : Bool := false
  len    : Nat := 0
  stamp  : Stamp := 0
  extra  : BitVec 64 := 0
  deriving DecidableEq, Repr

/-- An entry of a duplicate table (R67): the command in flight, or its recorded completion. -/
structure DupEntry where
  token  : BitVec 64
  digest : List Byte
  done   : Option Comp := none
  deriving DecidableEq, Repr

/-- `SLC_STATE.STATE` (Table 3-7). -/
inductive SliceMode where
  | unbound | active | quiescing | resetting | migrating
  deriving DecidableEq, Repr

/-- The coding of `SLC_STATE.STATE`. -/
def SliceMode.code : SliceMode → Nat
  | .unbound => 0
  | .active => 1
  | .quiescing => 2
  | .resetting => 3
  | .migrating => 4

/-- A dirty-page log (R349 to R351): a window of whole GiB and the pages written, rising. -/
structure DirtyLog where
  base     : Nat
  len      : Nat
  outside  : Bool := false
  allDirty : Bool := false
  /-- what a page that is not listed reads as: dirty after a promotion (R355) -/
  full     : Bool := false
  pages    : Tbl Bool := []
  deriving DecidableEq, Repr

/-- A slice: its binding, its resources, its rings and its duplicate table (spec 12, Table 12-2). -/
structure Slice where
  mode     : SliceMode := .unbound
  owner    : Nat := 0
  port     : Nat := 0
  pasid    : Nat := 0
  alarmOk  : Bool := false
  bound    : Nat := 256
  quota    : Nat := 4096
  reserve  : Nat := 64
  retry    : Nat := 3
  pressW   : Nat := 16
  mangleW  : Nat := 16
  vecBase  : Nat := 0
  vecCount : Nat := 0
  ignWr    : Word := 0
  sqErr    : Word := 0
  cqErr    : Word := 0
  parking  : Bool := false
  parked   : Nat := 0
  /-- a reset in progress: the command that runs it, or a reset of the function (R345, R347) -/
  resetBy  : Option Nat := none
  /-- the ring state that a save froze (R352, R355) -/
  frozen   : Option (Tbl SqRing × Tbl CqRing) := none
  /-- the normal ring fetched last (R55) -/
  lastRing : Nat := 15
  log      : Option DirtyLog := none
  saveSeq  : Nat := 0
  boundAt  : Stamp := 0
  sq       : Tbl SqRing := []
  cq       : Tbl CqRing := []
  dup      : List DupEntry := []
  /-- deficits of the round-robin service (R341) -/
  pressDef : Nat := 0
  mangleDef : Nat := 0
  deriving DecidableEq, Repr

/-- Where a command came from: an entry of a submission ring, or the front mailbox through a function (R75, R79). -/
inductive Origin where
  | ring (slice ring index : Nat)
  | mailbox (fn : Nat)
  deriving DecidableEq, Repr

/-- The progress of a command in the tracker (R64, R67, R68): its input part is being read before execution start; it
is a held repeat; it waits at check 11; it has started; its completion waits to be written. -/
inductive Stage where
  | preread | held | waiting | started | ended
  deriving DecidableEq, Repr

/-- The working data of a started command that takes several steps: the step reached, and what it carries on. Each
family says what its commands keep here. -/
structure Work where
  step  : Nat := 0
  nums  : List Nat := []
  bytes : List Byte := []
  /-- public results of the halves of a signature -/
  parts : Tbl (List Byte) := []
  /-- the device-internal slots of an enrolment: its shared secrets, until it ends (R294) -/
  slots : List Byte := []
  deriving DecidableEq, Repr

/-- A place of the command tracker (R75). -/
structure Cmd where
  origin   : Origin
  body     : List Byte
  inlined  : List Byte := []
  /-- the reserved rest of the last continuation entry is zero (R61) -/
  restZero : Bool := true
  /-- order of acceptance -/
  order    : Nat := 0
  accepted : Stamp := 0
  started  : Stamp := 0
  stage    : Stage := .waiting
  /-- the copy of the input part read once before execution start, or at it (R561, R140) -/
  copy     : Option (List Byte) := none
  /-- offsets of the 16 B headers of a batch, where the copy holds only them (Table 3-11) -/
  heads    : List Nat := []
  /-- the pending approval entry reserved at check 9 (R139) -/
  approval : Option Nat := none
  /-- the digest that the input of an approved command must have, with its entry, until it is compared (R140) -/
  expect   : Option (Nat × List Byte) := none
  /-- checks 2 to 7 have passed: a later `KEY.DESTROY` does not refuse it (R96) -/
  seven    : Bool := false
  /-- checks 2 to 10 have passed: the command waits at check 11 (R64) -/
  passed   : Bool := false
  /-- fetched from an alarm ring above the slice's bound (R75) -/
  kept     : Bool := false
  /-- some effect of the command cannot be undone (R72) -/
  effect   : Bool := false
  /-- handles whose cache entries the command pins (R161, R501) -/
  pinned   : List Nat := []
  /-- handles of counted keys of which the command holds one use, reserved until it starts (R112) -/
  uses     : List Nat := []
  work     : Work := {}
  /-- the key slots taken at check 11: first slot and count (R88, R118) -/
  placed   : Option (Nat × Nat) := none
  /-- the last journal entry that carries the command, for its release (R313) -/
  jseq     : Nat := 0
  /-- a primary's output, held until its entries are acknowledged (R313) -/
  out      : List Byte := []
  /-- it holds its token's entry of the duplicate table: no repeat, and no token conflict (R68) -/
  own      : Bool := true
  /-- a `SLICE.RESET` accepted while the slice was already resetting (R346) -/
  joined   : Bool := false
  /-- a follower's copy of a command of the primary (R309) -/
  mirror   : Bool := false
  /-- the primary has completed it, and this member has still to execute it (R311) -/
  closed   : Bool := false
  /-- the Hamper chains that stage its input and its output, by their first buffers (R236) -/
  stageIn  : Option Nat := none
  stageOut : Option Nat := none
  /-- it waits at check 11 with both halves of its hybrid operation in Mangle's waiting queue (R181) -/
  queued   : Bool := false
  /-- its start has been decided, by the primary's OUTCOME or by a promotion, and waits for its engines alone (R206, R324) -/
  due      : Bool := false
  /-- the completion, once the command has ended, and whether its token is freed with it (R67) -/
  comp     : Comp := {}
  freeTok  : Bool := false
  deriving DecidableEq, Repr

/-- What a pending or failed host access is for (R58, R252). -/
inductive HostAccess where
  | sqFetch (slice ring : Nat)
  | cqWrite (slice ring : Nat)
  | dmaDesc (c : Nat)
  | dmaData (c : Nat)
  deriving DecidableEq, Repr

/-- A host access that failed and waits to be retried: how often it has failed, and when it last did (R252). -/
structure Retry where
  what  : HostAccess
  fails : Nat
  at_   : Nat
  deriving DecidableEq, Repr

/-- The front mailbox (R78, R79, R83): its state and its own table of the last 16 tokens. Its request and response
words stand in the register file. -/
structure MbxState where
  busy    : Bool := false
  done    : Bool := false
  refused : Bool := false
  /-- the function of the request was reset: no interrupt follows it (R549) -/
  mute    : Bool := false
  /-- function that received the `GO` -/
  fn      : Nat := 0
  dup     : List DupEntry := []
  deriving DecidableEq, Repr

/-- The command tracker and what stands around it. -/
structure TortinState where
  /-- code that serves the mailbox: 0 none, 1 boot ROM, 2 Mend, 3 Tortin (`MBX_STAT.SERVER`) -/
  server  : Nat := 0
  /-- `DEV_STATUS.READY` -/
  ready   : Bool := false
  /-- tracker places 0 to 16,383; place 16,384 is the mailbox's own (R75) -/
  tracker : Tbl Cmd := []
  order   : Nat := 0
  mbx     : MbxState := {}
  retries : List Retry := []
  /-- the fetch visit in progress: slice, ring, entries taken; and the slice visited last (R55) -/
  visit   : Option (Nat × Nat × Nat) := none
  lastSlice : Nat := 1023
  /-- interrupts of the front mailbox and of device-level events use vector 0 of each function (R77) -/
  saveCnt : Nat := 0
  /-- the command after whose completion the device resets (R455, R460, R508) -/
  resetTag : Option Nat := none
  /-- commands that a CP firmware restart ended: their completions are written before their slices are fetched from again (R72) -/
  drain   : List Nat := []
  deriving DecidableEq, Repr

/-- A complement pair that is pending in a block (R432). -/
structure Pair where
  req   : Nat
  addr  : Nat
  value : Word
  at_   : Nat
  deriving DecidableEq, Repr

/-- A wide window of a requester (R435): the selection, `VALID`, and the captured words. -/
structure WideWin where
  sel   : Word := 0
  valid : Bool := false
  data  : List Word := []
  deriving DecidableEq, Repr

/-- The register file: the registers that hold a value of their own, the `_HI` latches, the pending complement pairs and
the wide windows (spec 15). -/
structure RegState where
  /-- registers by listed address; an unlisted one holds its reset value -/
  file    : Tbl Word := []
  /-- `_HI` latches: requester class times 2^40 plus the address of the `_HI` register (R28, R425) -/
  latch   : Tbl Word := []
  /-- pending pair of each block, by the block's base address (R432) -/
  pairs   : Tbl (Option Pair) := []
  /-- clock of the last host write to a `CPW` register of each block, by the block's base address (R18) -/
  hostCpw : Tbl (Option Nat) := []
  /-- wide windows: requester class, and 0 for `HMP` or 1 for `QUE` -/
  wide    : Tbl WideWin := []
  deriving DecidableEq, Repr

end Sys2Proof.Machine
end

