-- ==== Sys2Proof/Machine/StKeys.lean ====
section
/-! DEFINITION. Parts of the state: key objects, the flash key journal, owners, officers and pending approvals (spec 04,
05). -/

namespace Sys2Proof.Machine

/-- A key object (R90 to R96, R106, R113): listed by its first slot. -/
structure KeyObj where
  owner     : Nat
  gen       : Nat
  ktype     : Nat
  size      : Nat
  slots     : Nat
  attrs     : Nat
  limit     : Nat
  /-- persisted remaining uses, and the unused uses of the present lease -/
  remaining : Nat
  lease     : Nat := 0
  leaseSize : Nat := 64
  /-- charged slice; 0xFFFF unattached -/
  slice     : Nat
  notAfter  : CalTime := 0
  created   : CalTime := 0
  revision  : Nat := 1
  origin    : Nat
  material  : List Byte
  /-- the `KEY.DESTROY` that has passed its check 7: later uses of the handle are refused (R96) -/
  destroying : Option Nat := none
  deriving DecidableEq, Repr

/-- An entry of an engine key cache (R115, R160, R185): handle, flags as bound, material, and its use order; `lines` counts
the lines of a Mangle entry, and `expanded` is what the key port's seed expander wrote for an ML-KEM or ML-DSA seed (R184). -/
structure CacheEnt where
  handle   : Nat
  ktype    : Nat
  flags    : Nat
  material : List Byte
  expanded : List Byte := []
  lines    : Nat := 1
  used     : Nat := 0
  deriving DecidableEq, Repr

/-- What a journal record holds (Table 4-10). -/
inductive JKind where
  | object (h : Nat) (o : KeyObj)
  | commit (seqs : List Nat)
  | destroy (h rev : Nat)
  | lease (h rev left : Nat)
  | osk (gen : Nat) (osk : List Byte)
  /-- card ID, highest offered epoch, last confirmed epoch and epochs left (R282) -/
  | counter (cards : List (Nat × Nat × Nat × Nat))
  | group (id : BitVec 64) (key : List Byte)
  | pad (n : Nat)
  deriving DecidableEq, Repr

/-- A journal record: its owner, its sequence, the key under which its tag and its secrets stand, what it holds, and its checksum and trailer as
they stand in flash (Table 4-9). A record opens only under an equal key (assumption 7). -/
structure JRec where
  owner : Nat
  seq   : Nat
  key   : List Byte
  kind  : JKind
  sum     : BitVec 32
  trailer : List Byte
  deriving DecidableEq, Repr

/-- A sealed bundle of objects and store keys (R399): the key that seals it, its nonce, and what it holds. -/
structure Bundle where
  key       : List Byte
  instance_ : Nat
  count     : Nat
  objs      : List (Nat × KeyObj)
  osks      : List (Nat × List Byte)
  deriving DecidableEq, Repr

/-- An officer of an owner (Table 5-1, Table 5-8). -/
structure Officer where
  kind   : Nat
  label  : List Byte
  pub    : List Byte
  given  : Nat := 0
  added  : CalTime := 0
  deriving DecidableEq, Repr

/-- An active owner's record (R124): M and the member mask of the classes 1 to 4. -/
structure OwnerRec where
  label    : List Byte
  validity : Nat
  quorum   : List (Nat × Nat)
  officers : Tbl Officer
  created  : CalTime
  deriving DecidableEq, Repr

/-- An entry of the pending table (R133, R134, R144). -/
structure PendEntry where
  owner    : Nat
  cls      : Nat
  kind     : Nat
  body     : List Byte
  digest   : List Byte
  inDigest : List Byte
  msg      : List Byte
  mask     : Nat := 0
  /-- the tracker place of the command that reserves it -/
  reserved : Option Nat := none
  stamp    : Stamp
  expiry   : Nat
  epoch    : BitVec 16
  domain   : BitVec 64
  /-- the copy of the first owner description (R144) -/
  copy     : Option (List Byte) := none
  deriving DecidableEq, Repr

/-- The key store, the root vault's keys, the journal on the two chips, and the owner set. -/
structure KeyState where
  objs     : Tbl KeyObj := []
  /-- generation of each owner-region slot; 1 where not listed (R87) -/
  gens     : Tbl Nat := []
  osks     : Tbl (List Byte) := []
  /-- life-cycle roots in the root vault, by state (R99) -/
  roots    : Tbl (List Byte) := []
  highMark : Nat := 0
  nextSeq  : Nat := 1
  jrn0     : List JRec := []
  jrn1     : List JRec := []
  owners   : Tbl OwnerRec := []
  /-- after a Rinse only owner 0's record is used until `SCORCH.UNLOCK` (R124, R508) -/
  held     : Bool := false
  pend     : Tbl PendEntry := []
  /-- the general cache of Press and the key cache of Mangle, and the count that orders their uses -/
  pressKeys : List CacheEnt := []
  mangleKeys : List CacheEnt := []
  useCount : Nat := 0
  /-- the first not-after refusal of this epoch has been recorded (R95) -/
  unsetTold : Bool := false
  /-- fused device instance number (R105) -/
  instance_ : Nat := 0
  deriving DecidableEq, Repr

end Sys2Proof.Machine
end

