-- ==== Sys2Proof/Machine/StNeedle.lean ====
section
/-! DEFINITION. Parts of the state: the Needle cores, their programs and coprocessor ports (spec 13). -/

namespace Sys2Proof.Machine

/-- State of a core (Table 13-20). -/
inductive CoreMode where
  | free | reserved | running | halted | faulted
  deriving DecidableEq, Repr

/-- The coding of a core's state. -/
def CoreMode.code : CoreMode → Nat
  | .free => 0
  | .reserved => 1
  | .running => 2
  | .halted => 3
  | .faulted => 4

/-- An event input of a core (R258, R376). -/
structure EvIn where
  count   : Nat := 0
  ovf     : Bool := false
  pending : Bool := false
  deriving DecidableEq, Repr

/-- A job at a coprocessor port: its number, its descriptor (Tables 13-14, 13-15), and its status word once it is done
(R381). -/
structure PortJob where
  id   : Nat
  desc : List Byte := []
  /-- the handles of its keys, each of which it debits when it ends (R384) -/
  keys : List Nat := []
  /-- their material and types as the cache held them at its start (R96, R116) -/
  mats : List (List Byte × Nat) := []
  /-- the halves of a signature that are done, with the attempts they took -/
  parts : Tbl (List Byte × Nat) := []
  done : Option (BitVec 64) := none
  deriving DecidableEq, Repr

/-- A request to stop that waits (R389): the command, when the timeout passes, and whether the core is released. -/
structure StopWait where
  cmd     : Nat
  until_  : Nat
  release : Bool
  deriving DecidableEq, Repr

/-- An entry of a branch predictor: the context tag it was written with, the branch's outcome and its target (R415). -/
structure PredEntry where
  tag    : Nat
  taken  : Bool
  target : Nat
  deriving DecidableEq, Repr

/-- A Needle core: its register file (Table 13-3), its control registers (Table 13-4), its memories and its program. -/
structure Core where
  mode    : CoreMode := .free
  owner   : Nat := 0
  slice   : Nat := 0
  program : Nat := 0xFFFF
  keys    : List Nat := []
  args    : List Byte := []
  pc      : Nat := 0
  /-- delay slots still to execute, and the branch target that follows them, if the branch is taken (R370) -/
  slots   : Nat := 0
  target  : Option Nat := none
  a       : List Nat := List.replicate 16 0
  m       : List Nat := List.replicate 16 0
  l       : List Nat := List.replicate 16 0
  b       : List Nat := List.replicate 16 0
  preds   : Nat := 1
  cnt     : Nat := 0
  flags   : Word := 0
  ctx     : Word := 0
  epc     : Nat := 0
  etgt    : Nat := 0
  ecause  : Word := 0
  eaddr   : Nat := 0
  eflags  : Word := 0
  epred   : Nat := 0
  ivec    : Nat := 0
  imask   : Word := 0
  /-- sources 17 to 20 pending; 0 to 15 stand in the event inputs, 16 follows the channels -/
  pend    : Nat := 0
  tcmp    : BitVec 64 := 0
  /-- latched `CYCLE_HI` -/
  cycHi   : Word := 0
  inputs  : Tbl EvIn := []
  /-- a DMA channel of the core has raised its interrupt (source 16): the channels -/
  dmaIrq  : List Nat := []
  startAt : Nat := 0
  /-- clocks run since start, once stopped -/
  ran     : Nat := 0
  commits : Nat := 0
  cause   : Nat := 0
  reason  : Nat := 0
  changed : Stamp := 0
  pressN  : Nat := 0
  mangleN : Nat := 0
  press   : List PortJob := []
  mangle  : List PortJob := []
  stop    : Option StopWait := none
  /-- a `MGL.COLLECT` has begun and waits: no interrupt is taken before it completes (R196) -/
  collect : Bool := false
  /-- the JTAG port halts the core (R479) -/
  jtag    : Bool := false
  /-- the JTAG port lets the halted core execute one instruction -/
  jtagStep : Bool := false
  /-- the branch predictor, by place (R415, R416) -/
  pred    : Tbl PredEntry := []
  instr   : ByteMem := []
  work    : ByteMem := []
  deriving DecidableEq, Repr

/-- A program of the store's index (R387): its owner, the SHA-384 of its image, and the image as it stands on each
chip. -/
structure Program where
  owner  : Nat
  digest : List Byte
  img0   : List Byte
  img1   : List Byte
  deriving DecidableEq, Repr

/-- What a group's members hold of a core: its state, its assignment, and what a start of its program needs (R391). -/
structure CoreRow where
  mode    : CoreMode
  owner   : Nat
  slice   : Nat
  program : Nat
  keys    : List Nat
  args    : List Byte
  deriving DecidableEq, Repr

/-- The Needle cores and the program store. -/
structure NeedleState where
  cores : Tbl Core := []
  progs : Tbl Program := []
  deriving DecidableEq, Repr

end Sys2Proof.Machine
end

