-- ==== Sys2Proof/Machine/StSeam.lean ====
section
/-! DEFINITION. Parts of the state: the Seam group interface: links, packets, journal entries and membership (spec 11).
Packets and entries are held as typed data; the key under which a packet is sealed stands beside it, and a packet
authenticates only under an equal key (assumption 7). -/

namespace Sys2Proof.Machine

/-- `SEAM_STAT.ROLE` (Table 11-12). -/
inductive SeamRole where
  | alone | primary | follower | fenced | forming
  deriving DecidableEq, Repr

/-- The coding of `SEAM_STAT.ROLE`. -/
def SeamRole.code : SeamRole → Nat
  | .alone => 0
  | .primary => 1
  | .follower => 2
  | .fenced => 3
  | .forming => 4

/-- Body of a journal entry (Table 11-5). -/
inductive JBody where
  | accept (token : BitVec 64) (origin : Origin) (body inlined : List Byte)
  | input (token : BitVec 64) (off : Nat) (data : List Byte)
  | outcome (token : BitVec 64) (status : Option Nat) (start : Stamp) (slots : List Nat) (entry : Option Nat)
  | result (token : BitVec 64) (status len : Nat) (extra : BitVec 64) (out : List Byte)
  | done (token : BitVec 64) (status len : Nat) (extra : BitVec 64)
  | complete (tokens : List (BitVec 64))
  | key (slot : Nat) (o : Option KeyObj)
  | osk (owner : Nat) (k : Option (List Byte))
  | lease (kind obj stop : Nat)
  | send (token : BitVec 64) (stamp : Stamp) (ctrs : List (Nat × Nat))
  /-- a payload longer than one body takes is carried in several entries: `more` says that another part follows -/
  | stream (q ctr app : Nat) (stamp : Stamp) (more : Bool) (payload : List Byte)
  /-- frames delivered, as (queue, epoch, counter), and frames ended, as (queue, counter, 1 acknowledged or 2 given up) -/
  | mark (delivered ended : List (Nat × Nat × Nat))
  | slice (n : Nat) (x : Slice)
  | queue (q : Nat) (x : Option Queue)
  | card (id : Nat) (x : Option CardRec)
  | owner (n : Nat) (x : Option OwnerRec)
  | pend (n : Nat) (x : Option PendEntry)
  | source (src port domain : Nat)
  | program (n : Nat) (x : Option Program)
  | core (n : Nat) (x : CoreRow)
  | checkpoint (seq : Nat) (d : List Byte)
  | role (kind member : Nat)
  deriving DecidableEq, Repr

/-- Journal entry types (Table 11-5). -/
def JBody.code : JBody → Nat
  | .accept .. => 0x01
  | .input .. => 0x02
  | .outcome .. => 0x03
  | .result .. => 0x04
  | .done .. => 0x05
  | .complete .. => 0x06
  | .key .. | .osk .. => 0x07
  | .lease .. => 0x08
  | .send .. => 0x09
  | .stream .. => 0x0A
  | .mark .. => 0x0B
  | .slice .. | .queue .. | .card .. | .owner .. | .pend .. | .source .. | .program .. | .core .. => 0x0C
  | .checkpoint .. => 0x0D
  | .role .. => 0x0E

/-- A journal entry (Table 11-4). -/
structure JEntry where
  term    : Nat
  seq     : Nat
  release : Bool
  slice   : Nat
  stamp   : Stamp
  body    : JBody
  deriving DecidableEq, Repr

/-- Why a member leaves service (R321). -/
inductive FarewellCause where
  | reset | powerFail | rinse | watchdog | standby | leave
  deriving DecidableEq, Repr

/-- What members compare before a group forms (Table 11-3); `committed` is the committed key-journal sequence by which a
primary is chosen (R330). -/
structure SeamChecks where
  committed : Nat
  part     : Nat
  lc       : Nat
  ksGen    : Nat
  bm0      : List Byte
  bm1      : List Byte
  version  : Nat
  settings : List Byte
  owners   : List Byte
  empty    : Bool
  locked   : Bool
  deriving DecidableEq, Repr

/-- The outcome that a member computed for an entry, as R325 names it: the status and the result length, the placed slots, the object records
before encryption, and the new table entries. -/
structure SeamOutcome where
  status : Option Nat := none
  len    : Nat := 0
  slots  : List Nat := []
  objs   : List KeyObj := []
  owners : List OwnerRec := []
  pend   : List PendEntry := []
  deriving DecidableEq, Repr

/-- What resynchronisation sends (R329). -/
structure SeamSnap where
  objs   : Tbl KeyObj
  gens   : Tbl Nat
  osks   : Tbl (List Byte)
  owners : Tbl OwnerRec
  pend   : Tbl PendEntry
  slices : Tbl Slice
  links  : LinkState
  progs  : Tbl Program
  cores  : Tbl CoreRow
  /-- the device-wide count of saves (R353) -/
  saves  : Nat
  settings : Settings
  source : Nat
  seq    : Nat
  term   : Nat
  stamp  : Stamp
  epoch  : Word
  ctBase : CalTime
  digest : List Byte
  deriving DecidableEq, Repr

/-- Payload of a Seam packet (Table 11-2). -/
inductive SeamLoad where
  /-- `tx` and `rx`: the fixed transmit and receive latencies of the sender, ns (R304) -/
  | hello (serial : BitVec 64) (index : Nat) (version tx rx : Nat) (nonce : List Byte)
  /-- the ciphertext of the formation exchange, and later the group key under the pair secret (R307) -/
  | formCt (ct : List Byte)
  | formKey (pair : List Byte) (group : BitVec 64) (key : List Byte)
  /-- `reach`: one bit for each member that the sender reaches (R322, assumption 38) -/
  | heartbeat (role term applied reach : Nat) (t2 t3 : Stamp)
  | journal (es : List JEntry)
  | ack (term seq : Nat)
  | nak (term first last : Nat)
  | upFrame (q epoch ctr flags app : Nat) (stamp : Stamp) (payload : List Byte)
  /-- the follower has accepted a frame of a card under the epoch offered to it (R279, assumption 61) -/
  | upConfirm (card epoch : Nat)
  | upReport (card : Nat) (left flags fw : Nat) (stamp : Stamp)
  /-- the end of the lease that the member asks for (Table 11-7) -/
  | upLease (q stop : Nat)
  | checks (c : SeamChecks)
  | resyncAsk
  /-- part `part` of the `total` packets that carry a snapshot -/
  | snapshot (part total : Nat) (x : SeamSnap)
  /-- the member has applied the snapshot and the entries up to a sequence -/
  | inSync (seq : Nat)
  /-- a member's formation or rejoin has ended with a status, so every member's ends (R308, assumption 37) -/
  | verdict (status failed : Nat)
  /-- a follower's own digest at a checkpoint, which it sends to the others where it differs from the primary's (R325, assumption 38) -/
  | doubt (seq : Nat) (d : List Byte)
  | farewell (cause : FarewellCause)
  deriving DecidableEq, Repr

/-- `SEAM_PACKET` types (Table 11-2). -/
def SeamLoad.code : SeamLoad → Nat
  | .hello .. => 1
  | .formCt .. | .formKey .. => 2
  | .heartbeat .. => 3
  | .journal .. => 4
  | .ack .. => 5
  | .nak .. => 6
  | .upFrame .. | .upConfirm .. | .upReport .. | .upLease .. => 7
  | .checks .. | .resyncAsk | .snapshot .. | .inSync .. | .verdict .. | .doubt .. => 8
  | .farewell .. => 9

/-- A Seam packet (Table 11-1): `key` is the session key that seals it, empty for HELLO and FORM. -/
structure SeamPacket where
  source : Nat
  dest   : Nat
  link   : Nat
  seq    : Nat
  stamp  : Stamp
  key    : List Byte
  load   : SeamLoad
  deriving DecidableEq, Repr

/-- `SEAM_LINK_STATn.STATE`. -/
inductive SeamLinkMode where
  | down | training | aligned | hello | up | fault
  deriving DecidableEq, Repr

/-- The coding of `SEAM_LINK_STATn.STATE`. -/
def SeamLinkMode.code : SeamLinkMode → Nat
  | .down => 0
  | .training => 1
  | .aligned => 2
  | .hello => 3
  | .up => 4
  | .fault => 5

/-- A Seam link (R304, R306, R320). -/
structure SeamLink where
  mode    : SeamLinkMode := .down
  peer    : Nat := 0xFF
  /-- this end's fixed transmit and receive latencies, and those that the peer's HELLO reports, ns (R304) -/
  tx      : Nat := 0
  rx      : Nat := 0
  farTx   : Nat := 0
  farRx   : Nat := 0
  nonce   : List Byte := []
  theirs  : List Byte := []
  /-- the own nonce, and the peer's, have opened no session yet (R306) -/
  fresh   : Bool := false
  farNew  : Bool := false
  key     : List Byte := []
  txSeq   : Nat := 1
  rxSeq   : Nat := 0
  /-- clock of the last heartbeat received, and of the last sent -/
  heard   : Nat := 0
  sentAt  : Nat := 0
  /-- the last time exchange (R31): the transmit Stamp of the peer's last heartbeat and the Stamp at which it came, and the Stamp at which this
  member's own last one left -/
  t1      : Stamp := 0
  t2      : Stamp := 0
  t3      : Stamp := 0
  missed  : Nat := 0
  deriving DecidableEq, Repr

/-- A member as this device sees it. -/
structure SeamPeer where
  serial  : BitVec 64 := 0
  formX   : List Byte := []
  formK   : List Byte := []
  lost    : Bool := true
  inSync  : Bool := false
  acked   : Nat := 0
  role    : Nat := 0
  term    : Nat := 0
  applied : Nat := 0
  ctMine  : List Byte := []
  ctTheirs : List Byte := []
  shared  : List Byte := []
  checked : Bool := false
  /-- the values of Table 11-3 that it sent, which are compared between every pair (R308) -/
  vals    : Option SeamChecks := none
  /-- the members that it reaches, from its heartbeats (R322) -/
  reach   : Nat := 0
  /-- a snapshot has been sent to it, and it has not yet reported itself in sync (R329) -/
  joining : Bool := false
  /-- the digest that it reported for a checkpoint that differs (R325) -/
  doubt   : Option (Nat × List Byte) := none
  version : Nat := 0
  /-- its committed key-journal sequence (R330) -/
  committed : Nat := 0
  /-- it left with FAREWELL (R321) -/
  farewell : Bool := false
  deriving DecidableEq, Repr

/-- The Seam interface (spec 11). -/
structure SeamState where
  role     : SeamRole := .alone
  isolated : Bool := false
  index    : Nat := 0
  size     : Nat := 0
  term     : Nat := 0
  /-- group identifier, and the group key held in the root vault -/
  group    : BitVec 64 := 0
  key      : List Byte := []
  /-- formation key pair: private halves, and public halves -/
  formXs   : List Byte := []
  formKs   : List Byte := []
  formX    : List Byte := []
  formK    : List Byte := []
  links    : List SeamLink := [{}, {}, {}, {}]
  peers    : List SeamPeer := [{}, {}, {}]
  applied  : Nat := 0
  /-- sequence of the next entry the primary writes -/
  nextSeq  : Nat := 1
  /-- entries not yet acknowledged by every follower in service, oldest first (R312) -/
  buffer   : List JEntry := []
  /-- entries that wait for the budgets, oldest first; what was sent, as (clock, stream bytes, journal bytes), in the last 1 ms; and whether the
  shortage has been recorded (R318, R319) -/
  unsent   : List JEntry := []
  sent     : List (Nat × Nat × Nat) := []
  short    : Bool := false
  /-- the parts of a payload whose STREAM entries are not all there (R311) -/
  part     : List Byte := []
  /-- the parts of a snapshot that have come (R329) -/
  snapGot  : Nat := 0
  /-- the last checkpoint applied: its sequence, this member's digest there, and the primary's (R325) -/
  checkD   : Nat × List Byte × List Byte := (0, [], [])
  /-- entries that wait behind a gap -/
  waiting  : List JEntry := []
  digest   : List Byte := []
  /-- acknowledgement owed, and the clock since which (R313) -/
  ackOwed  : Bool := false
  ackAt    : Nat := 0
  version  : Nat := 7
  failed   : Nat := 0
  inSync   : Bool := false
  /-- `SEAM.FORM` in progress: the tracker place and its clock; a rejoin's clock (R330) -/
  forming  : Option Nat := none
  formAt   : Nat := 0
  checkAt  : Nat := 0
  /-- witness quorum and solo-start time in seconds (R323, R330) -/
  quorum   : Nat := 0
  solo     : Nat := 0
  probeAt  : Option Nat := none
  probed   : Nat := 0
  heardYes : Nat := 0
  heardNo  : Nat := 0
  /-- clocks of the resynchronisation requests of the last 10 minutes (R327) -/
  asks     : List Nat := []
  /-- clock since which the offset has been above 1 µs (R326) -/
  driftAt  : Option Nat := none
  switch   : Option (Nat × Nat) := none
  deriving DecidableEq, Repr

end Sys2Proof.Machine
end

