-- ==== Sys2Proof/Syntax.lean ====
section
/-! DEFINITION. The commands of the Nabiry: one constructor per row of spec/opcode_table.json, with the row's operands.
An operand that a rule takes from outside the device (host memory, a pin, a measurement, a packet) is an argument; the
row's rule says what each does. `tag` is the place of a command in the tracker (R75). -/

namespace Sys2Proof

open Sys2Proof.Machine

/-- The commands: one constructor per row of the opcode table. -/
inductive Instr where
  /-- Returns the 64 B device information record: part, stepping, firmware versions, serial, and the caller's slice and owner. (R440) -/
  | devInfo (tag : Nat) (io : HostIO)
  /-- Returns the 64 B device status: power wake cause, lock, life-cycle state, group role, Thimble state and reset counts. (R440) -/
  | devStatus (tag : Nat) (io : HostIO)
  /-- Completes with no effect, to exercise the ring path. (R440) -/
  | devNop (tag : Nat)
  /-- Returns the slice's bounds and present use of tracker, key slots, Hamper and vectors. (R440) -/
  | devLimits (tag : Nat) (io : HostIO)
  /-- Returns the device counters and, with CLEAR, clears the DEV counters in the same step. (R440) -/
  | devCounters (tag : Nat) (io : HostIO)
  /-- Binds a slice to an owner, a PASID, a port and a vector range, with its resources. (R335) -/
  | sliceCreate (tag : Nat) (io : HostIO)
  /-- Runs the slice reset, then unbinds the slice and releases its reserve, vectors and duplicate table. (R348) -/
  | sliceDestroy (tag : Nat)
  /-- Changes a slice's in-flight bound, key-slot quota, Hamper reserve and retry count. (R340) -/
  | sliceResize (tag : Nat) (io : HostIO)
  /-- Changes a slice's Press and Mangle weights and its ALARM_OK right. (R340) -/
  | sliceSetQos (tag : Nat)
  /-- Moves a slice's MSI-X vector range while its interrupts are parked. (R343) -/
  | sliceSetVectors (tag : Nat)
  /-- Returns a slice to the state of a fresh binding, aborting commands that have not started. (R345) -/
  | sliceReset (tag : Nat)
  /-- Starts a dirty-page log over a window of the slice's IOVA space. (R349) -/
  | sliceSaveLogStart (tag : Nat)
  /-- Drains and freezes a slice and writes its encrypted save blob. (R352) -/
  | sliceSaveStop (tag : Nat) (io : HostIO)
  /-- Stops a dirty-page log without a stop, for a migration abandoned in pre-copy. (R354) -/
  | sliceSaveLogEnd (tag : Nat)
  /-- Checks a save blob and binds the migrating slice again at its new PASID, port and vectors. (R354) -/
  | sliceRestore (tag : Nat) (io : HostIO)
  /-- Reads and clears the dirty-page log bits in aligned 64-bit words. (R351) -/
  | sliceHarvest (tag : Nat) (io : HostIO)
  /-- Returns the 128 B slice record. (R357) -/
  | sliceInfo (tag : Nat) (io : HostIO)
  /-- Makes a free owner number active with its officers and quorums and draws its OSK. (R123) -/
  | ownerCreate (tag : Nat) (io : HostIO)
  /-- Destroys every key object, pending entry and OSK record of an owner and frees its number. (R123) -/
  | ownerRetire (tag : Nat)
  /-- Returns the 864 B owner record with its officers and quorum classes. (R146) -/
  | ownerInfo (tag : Nat) (io : HostIO)
  /-- Adds a validated officer credential at a free index. (R130) -/
  | officerAdd (tag : Nat) (io : HostIO)
  /-- Removes an officer unless that would leave fewer than 2 officers or a class below its M. (R130) -/
  | officerRemove (tag : Nat)
  /-- Sets the M and member mask of a quorum class, or the default validity. (R131) -/
  | ownerSetQuorum (tag : Nat)
  /-- Enters a target command body in the pending table and returns the approval message to sign. (R134) -/
  | approvalRequest (tag : Nat) (io : HostIO)
  /-- Verifies an officer's signature over a pending entry's message and sets the officer's bit. (R138) -/
  | approvalSubmit (tag : Nat) (io : HostIO)
  /-- Returns the owner's pending approval entries. (R146) -/
  | approvalList (tag : Nat) (io : HostIO)
  /-- Withdraws a pending entry that is not reserved. (R141) -/
  | approvalCancel (tag : Nat)
  /-- Generates a private or secret key object from Bobbin and places it in key SRAM. (R121) -/
  | keyCreate (tag : Nat)
  /-- Unwraps a key under an UNWRAP key with KW or KWP and stores it as a new object. (R121) -/
  | keyImport (tag : Nat) (io : HostIO)
  /-- Validates and stores a public key as a new object. (R121) -/
  | keyImportPublic (tag : Nat) (io : HostIO)
  /-- Derives a child key object from a parent with KMAC256. (R102) -/
  | keyDerive (tag : Nat) (io : HostIO)
  /-- Refuses further use of a handle and destroys the object once its started uses have completed. (R96) -/
  | keyDestroy (tag : Nat)
  /-- Returns the 64 B attribute record of a key object, with no value derived from its material. (R122) -/
  | keyInfo (tag : Nat) (io : HostIO)
  /-- Clears usage flags or moves the not-after time earlier and updates every cache entry. (R116) -/
  | keyRestrict (tag : Nat)
  /-- Returns the owner's handles in ascending slot order from a first slot. (R121) -/
  | keyList (tag : Nat) (io : HostIO)
  /-- Sets the lease size of a counted key from the next lease. (R113) -/
  | keySetLease (tag : Nat)
  /-- Encrypts an input in one shot in a Press mode. (R176) -/
  | symEncrypt (tag : Nat) (io : HostIO)
  /-- Decrypts an input in one shot, ending with OK_UNTRUSTED and tainted output when the tag fails. (R153) -/
  | symDecrypt (tag : Nat) (io : HostIO)
  /-- Computes a MAC or GMAC tag. (R176) -/
  | symMac (tag : Nat) (io : HostIO)
  /-- Checks a MAC tag and ends with MAC_MISMATCH when it differs. (R156) -/
  | symMacVerify (tag : Nat) (io : HostIO)
  /-- Computes a hash or XOF output in one shot. (R176) -/
  | symHash (tag : Nat) (io : HostIO)
  /-- Opens a streaming context with a key, mode and prefix. (R166) -/
  | symCtxOpen (tag : Nat) (io : HostIO)
  /-- Feeds a text part to a streaming context. (R168) -/
  | symCtxUpdate (tag : Nat) (io : HostIO)
  /-- Ends a streaming context with its last part and its tag, digest or verification. (R169) -/
  | symCtxFinish (tag : Nat) (io : HostIO)
  /-- Aborts the context's unstarted commands, waits for the started ones and closes the context. (R167) -/
  | symCtxClose (tag : Nat)
  /-- Makes a classical, ML-DSA or hybrid signature. (R201) -/
  | pkSign (tag : Nat) (io : HostIO)
  /-- Verifies a classical, ML-DSA or hybrid signature. (R201) -/
  | pkVerify (tag : Nat) (io : HostIO)
  /-- Performs ECDH, X25519 or X448 into a new generic-secret object. (R203) -/
  | pkAgree (tag : Nat) (io : HostIO)
  /-- Performs ML-KEM encapsulation, returning the ciphertext and storing the secret as a new object. (R203) -/
  | pkEncapsulate (tag : Nat) (io : HostIO)
  /-- Performs ML-KEM decapsulation into a new object, with implicit rejection. (R203) -/
  | pkDecapsulate (tag : Nat) (io : HostIO)
  /-- Returns the public key of a key pair. (R205) -/
  | pkGetPublic (tag : Nat) (io : HostIO)
  /-- Runs up to 64 verifications of one scheme and returns a bitmap of results. (R204) -/
  | pkVerifyBatch (tag : Nat) (io : HostIO)
  /-- Returns random bytes from Bobbin. (R225) -/
  | rngGet (tag : Nat) (io : HostIO)
  /-- Reseeds Bobbin with optional additional input and optionally sets source configuration and personalisation. (R225) -/
  | rngReseed (tag : Nat) (io : HostIO)
  /-- Returns the 104 B source and health-test status. (R226) -/
  | rngStatus (tag : Nat) (io : HostIO)
  /-- Sets a port's quad rate, encapsulation, EtherType, maximum length, addresses and flags. (R300) -/
  | portConfig (tag : Nat) (io : HostIO)
  /-- Returns the port's LNK registers captured together. (R300) -/
  | portStatus (tag : Nat) (io : HostIO)
  /-- Creates a PAUSED queue with its class, key and description. (R300) -/
  | queueCreate (tag : Nat) (io : HostIO)
  /-- Changes the masked fields of a queue's description. (R300) -/
  | queueModify (tag : Nat) (io : HostIO)
  /-- Puts a queue into DRAINING and frees every chain it holds. (R248) -/
  | queueDestroy (tag : Nat)
  /-- Builds and encrypts one FFP frame for each queue of a range and enqueues them. (R286) -/
  | linkSend (tag : Nat) (io : HostIO)
  /-- Starts the epoch change of a card. (R279) -/
  | linkRekey (tag : Nat)
  /-- Sets or removes an explicit receive classification rule. (R270) -/
  | linkClassify (tag : Nat) (io : HostIO)
  /-- Enrols a Care Card by a signed enrolment offer and creates its card key. (R294) -/
  | cardEnrol (tag : Nat) (io : HostIO)
  /-- Destroys a card's key and removes its record. `ok0`, `ok1`: the chips take the journal write. (R300) -/
  | cardRetire (tag : Nat) (ok0 ok1 : Bool)
  /-- Returns the card record with its life left and last report. (R300) -/
  | cardStatus (tag : Nat) (io : HostIO)
  /-- Returns a queue's counters, optionally clearing them. (R300) -/
  | linkStats (tag : Nat) (io : HostIO)
  /-- Forms or joins a Seam group with the approved partners. (R307) -/
  | seamForm (tag : Nat) (io : HostIO)
  /-- Removes a member from its group, destroying its owner objects and group key. (R332) -/
  | seamLeave (tag : Nat)
  /-- Returns roles, links, digests, offsets and formation keys. (R332) -/
  | seamStatus (tag : Nat) (io : HostIO)
  /-- Hands the primary role to a named in-sync follower. (R332) -/
  | seamSwitchover (tag : Nat)
  /-- Resynchronises a fenced or isolated member and resets its attempt count. (R332) -/
  | seamResync (tag : Nat)
  /-- Sets the witness quorum and the solo-start time. (R323) -/
  | seamSetWitness (tag : Nat)
  /-- Returns Tally records from the store or the flash copies. (R536) -/
  | tallyRead (tag : Nat) (io : HostIO)
  /-- Flushes and then removes records at or below a severity and sequence limit, and records the clear. (R534) -/
  | tallyClear (tag : Nat)
  /-- Stores a host record. (R535) -/
  | tallyWrite (tag : Nat) (io : HostIO)
  /-- Returns the Tally fill, drop and flush state. (R538) -/
  | tallyStatus (tag : Nat) (io : HostIO)
  /-- Forces a flush and completes when every record unflushed at start is in flash. (R532) -/
  | tallyFlush (tag : Nat)
  /-- Returns the Stamp, calendar time, epoch and time status. (R49) -/
  | timeGet (tag : Nat) (io : HostIO)
  /-- Sets TIME_CT_BASE so that calendar time equals a new value. (R49) -/
  | timeSetCt (tag : Nat)
  /-- Selects the time source, PTP port and domain. `present`: the pin or port shows a valid signal within 3 s. (R49) -/
  | timeSetSource (tag : Nat) (present : Bool)
  /-- Sets the alignment and width of PPS_OUT. (R36) -/
  | timeSetPpsOut (tag : Nat)
  /-- Sets which lower power states are allowed and their idle times. (R49) -/
  | timeSleepPolicy (tag : Nat)
  /-- Puts a device that stands alone into STANDBY with an optional wake Stamp. (R42) -/
  | timeStandby (tag : Nat)
  /-- Writes a package to the inactive slot on both chips. (R464) -/
  | fwStage (tag : Nat) (io : HostIO)
  /-- Verifies a staged package's signatures, digests, key slot and security version. (R444) -/
  | fwVerify (tag : Nat) (io : HostIO)
  /-- Hands the key store over to a verified slot's measurements and restarts into it on trial. (R455) -/
  | fwActivate (tag : Nat)
  /-- Confirms the trial firmware, burns fuses and retires the predecessor. (R459) -/
  | fwConfirm (tag : Nat)
  /-- Abandons the trial and restarts into the predecessor. (R460) -/
  | fwFallback (tag : Nat)
  /-- Returns slots, versions, generations and chip states. (R464) -/
  | fwStatus (tag : Nat) (io : HostIO)
  /-- Returns the life-cycle state, transition progress and debug rights. (R485) -/
  | lcStatus (tag : Nat) (io : HostIO)
  /-- Checks and installs a debug certificate, putting its rights in force. (R481) -/
  | debugInstall (tag : Nat) (io : HostIO)
  /-- Withdraws the installed debug certificate and its rights. (R482) -/
  | debugRevoke (tag : Nat)
  /-- Returns sources, lock state, sticky flags, digests and log chain values. (R518) -/
  | scorchStatus (tag : Nat) (io : HostIO)
  /-- Ends a Scorch lock when no event came since execution start, clearing chosen sticky flags. (R507) -/
  | scorchUnlock (tag : Nat) (io : HostIO)
  /-- Returns Scorch log records from a first sequence. (R518) -/
  | scorchLogRead (tag : Nat) (io : HostIO)
  /-- Burns the disable fuse of one Scorch source. (R509) -/
  | scorchDisable (tag : Nat)
  /-- Verifies a signed service program image and stores it in the program store. (R387) -/
  | progLoad (tag : Nat) (io : HostIO)
  /-- Binds a program's keys, copies and checks its image and starts it on a Needle core, or reserves the core. (R388) -/
  | progStart (tag : Nat)
  /-- Halts a core at once or requests it to halt, then cleans up its ports, channels and chains. (R389) -/
  | progStop (tag : Nat)
  /-- Removes a program from the program store. (R392) -/
  | progUnload (tag : Nat)
  /-- Returns a core's state and counters. (R392) -/
  | progStatus (tag : Nat) (io : HostIO)
  /-- Grants DMA channels to a core on behalf of a slice. (R260) -/
  | dmaGrant (tag : Nat)
  /-- Aborts channels, waits until they are IDLE and clears their grant. (R260) -/
  | dmaRevoke (tag : Nat)
  /-- Sets the source, sinks and timer period of an event-matrix line. (R260) -/
  | evtRoute (tag : Nat)
  /-- The front end fetches a pending submission-ring entry, and the CP accepts it into the tracker. `entry`: what the host answers to the read of the entry and its continuation entries. (R55) -/
  | commandFetch (slice ring : Nat) (entry : HostRead)
  /-- The one-time read of the input part needed before execution start arrives and its checks proceed. `io`: what the host answers to the read. (R561) -/
  | inputPrereadDone (tag : Nat) (io : HostRead)
  /-- A command waiting at check 11 finds its fence released and engine free, its deadline is checked, and it starts execution. (R64) -/
  | commandStart (tag : Nat)
  /-- A waiting completion is written to its completion ring once the ring is enabled and has a free entry. `ok`: the write is taken. (R56) -/
  | completionWrite (tag : Nat) (ok : Bool)
  /-- The coalescing time after the first unsignalled completion passes and the ring's vector is raised. (R77) -/
  | cqCoalTimeout (slice ring : Nat)
  /-- Host unmasking of a vector with its Pending Bit set raises the held interrupt. (R77) -/
  | msixVectorUnmask (fn vec : Nat)
  /-- 1 µs after a failed host access, the access is retried, or the ring or channel halts when retries are used up. `what`: the access; `data`: what the host answers; `translation`: a failure is one of translation. (R252) -/
  | hostAccessRetry (what : HostAccess) (data : HostRead) (translation : Bool)
  /-- The command tracker is discarded, commands end by their state, and Tortin resumes fetching. `imageOk`: the Tortin image in CP SRAM hashes to BM1. (R72) -/
  | cpFirmwareRestart (imageOk : Bool)
  /-- Once every command that passed check 7 with the handle has completed, the object is zeroed, purged and its generation advanced. (R96) -/
  | keyDestroyProceed (tag : Nat)
  /-- When journal free space falls below 25 %, live records of the oldest block are copied and the block erased. `ok0`, `ok1`: the chip programs and verifies. (R110) -/
  | journalCompaction (ok0 ok1 : Bool)
  /-- An expired pending entry is removed within 10 ms of its expiry Stamp and recorded. `entry`: its index. (R137) -/
  | approvalExpiry (entry : Nat)
  /-- A DRAINING queue whose buffers held reach 0 is freed and its QUEUE.DESTROY completes. (R248) -/
  | queueDrained (queue : Nat)
  /-- A read of TIME_NOW_LO captures the Stamp, returns its low half and latches the high half for the requester. (R28) -/
  | timeNowLoRead (r : Requester)
  /-- A read of TIME_CT_LO captures calendar time and latches its high half for the requester. (R28) -/
  | timeCtLoRead (r : Requester)
  /-- A read of any other hardware-changed _LO register latches its _HI half for the requester. `addr`: the internal address of the `_LO` register. (R425) -/
  | loHalfRead (r : Requester) (addr : Nat)
  /-- A submission-ring tail doorbell is accepted or refused by position. through function `fn`, with the PASID of a prefix. (R53) -/
  | sqTailWrite (fn slice ring : Nat) (pasid : Option Nat) (value : Word)
  /-- A completion-ring head doorbell returns completion entries to the device. through function `fn`, with the PASID of a prefix. (R57) -/
  | cqHeadWrite (fn slice ring : Nat) (pasid : Option Nat) (value : Word)
  /-- A write of SQk_CFG configures, enables or disables a submission ring. through function `fn`, with the PASID of a prefix. (R52) -/
  | sqCfgWrite (fn slice ring : Nat) (pasid : Option Nat) (value : Word)
  /-- A write of CQk_CFG configures, enables or disables a completion ring. through function `fn`, with the PASID of a prefix. (R52) -/
  | cqCfgWrite (fn slice ring : Nat) (pasid : Option Nat) (value : Word)
  /-- A write of MBX_CTRL.GO copies the staged request and performs the mailbox command, or is refused while BUSY. `value`: what is written to `MBX_CTRL`. (R78) -/
  | mbxGo (fn : Nat) (value : Word)
  /-- A read of RNG_DATA takes the next word from the requester's FIFO and records the outcome. (R220) -/
  | rngDataRead (rd : DataRead)
  /-- A write to a sequence-clear register clears the masked bits only if its SEQ matches. `addr`: the internal address of the clear register. (R434) -/
  | sqcClearWrite (r : Requester) (addr : Nat) (value : Word)
  /-- A value write to a complement-pair register begins a pending pair in its block. (R432) -/
  | cpwValueWrite (r : Requester) (addr : Nat) (value : Word)
  /-- A guard-port write completes the pending pair with its complement or fails it. `addr`: the internal address of the guard port. (R432) -/
  | cpwGuardWrite (r : Requester) (addr : Nat) (value : Word)
  /-- A pending pair with no guard write within 10 µs is discarded with cause 2. `block`: the internal base address of the block. (R433) -/
  | cpwPairTimeout (block : Nat)
  /-- A write to a wide-window selector clears VALID and cancels a capture in progress. `queue`: the window of `QUE` rather than of `HMP`. (R435) -/
  | wideSelWrite (r : Requester) (queue : Bool) (value : Word)
  /-- A CAPTURE write snapshots the selected wide value into the requester's data registers. `value`: what is written to the control register. (R435) -/
  | wideCapture (r : Requester) (queue : Bool) (value : Word)
  /-- A register write DW without all byte enables is discarded and counted. (R428) -/
  | narrowWrite (r : Requester) (pas : Option Nat) (place : RegPlace)
  /-- A BAR request longer than 2 DW has no effect and is answered or reported as a Completer Abort. (R430) -/
  | longTlp (fn : Nat) (isWrite : Bool)
  /-- An AtomicOp request to a BAR is answered with Unsupported Request and has no effect. (R430) -/
  | atomicOpRequest (fn : Nat)
  /-- A write to a register with no row of its own is applied or ignored and counted under its access code. (R424) -/
  | registerWrite (r : Requester) (pas : Option Nat) (place : RegPlace) (value : Word)
  /-- A transition request write is checked against Table 17-4 and refused or accepted. (R472) -/
  | lcsReqWrite (value : Word)
  /-- The erase of the key-journal, settings and program-store areas ends, and the transition burns its marks and resets. (R474) -/
  | lcEraseDone
  /-- The operation port allocates a linked chain charged to the requester's account. `as_`: the owner tag for which the CP acts. (R238) -/
  | hmpAlloc (r : Requester) (as_ n : Nat)
  /-- The operation port frees a whole chain, or reports a double or foreign free. (R239) -/
  | hmpFree (r : Requester) (as_ buf : Nat)
  /-- The operation port enqueues a chain on a queue for transmission. (R246) -/
  | hmpEnq (r : Requester) (as_ buf queue : Nat)
  /-- The operation port takes the oldest received chain from a queue delivering to the requesting core. (R238) -/
  | hmpDeq (r : Requester) (as_ queue : Nat)
  /-- The operation port sets the length of a chain. (R238) -/
  | hmpSetlen (r : Requester) (as_ buf length : Nat)
  /-- START makes a channel fetch its first descriptor. (R253) -/
  | dmaStart (r : Requester) (chan : Nat)
  /-- PAUSE stops a channel issuing reads and pauses it after its outstanding reads. (R254) -/
  | dmaPause (r : Requester) (chan : Nat)
  /-- CONT continues a paused channel where it stopped. (R254) -/
  | dmaCont (r : Requester) (chan : Nat)
  /-- ABORT stops a channel and leaves it IDLE with error 6. (R254) -/
  | dmaAbort (r : Requester) (chan : Nat)
  /-- A write of DMA_RESUME_HI makes a stopped channel read its last link word again. `hi`: the value written. (R257) -/
  | dmaResume (r : Requester) (chan : Nat) (hi : Word)
  /-- A descriptor read completes and the channel checks and starts or queues it. `data`: what the host, or the CP's own memory, answers. (R256) -/
  | dmaDescriptorRead (chan : Nat) (data : HostRead) (translation : Bool)
  /-- Data of a channel read arrives and is written in order, raising HALF, FULL or END events. `data`: what the host, or the CP's own memory, answers. (R250) -/
  | dmaReadCompletion (chan : Nat) (data : HostRead) (translation : Bool)
  /-- A pulse on a channel's trigger line starts a channel waiting in WAIT_TRIG, or is counted as missed. (R258) -/
  | dmaTriggerPulse (chan : Nat)
  /-- A CP write of EVT_FIRE pulses a line whose source is the CP. (R258) -/
  | evtFire (line : Nat)
  /-- An event-matrix timer period elapses and pulses its source. (R258) -/
  | eventTimer (timer : Nat)
  /-- A configured edge on a GPIO pin fires its event source or wake source. (R418) -/
  | gpioEdge (pin : Nat) (rising : Bool)
  /-- The CP returns Thimble response entries by writing the response head. (R397) -/
  | thmRspHeadWrite (value : Word)
  /-- Thimble answers a PING request at once. (R397) -/
  | thmPing
  /-- Thimble copies a key into an engine cache entry or Airing slot. (R115) -/
  | thmBind
  /-- Thimble removes a handle from every cache. `h`: the handle. (R398) -/
  | thmPurge (h : Nat)
  /-- Thimble allocates owner-region slots for a type and size. (R88) -/
  | thmPlace
  /-- Thimble fills placed slots from Bobbin or with a Mangle key pair. `ok0`, `ok1`: the chip programs and verifies. (R121) -/
  | thmCreate (ok0 ok1 : Bool)
  /-- Thimble unwraps data-area bytes into placed slots. `ok0`, `ok1`: the chip programs and verifies. (R121) -/
  | thmImport (ok0 ok1 : Bool)
  /-- Thimble performs a KEY.DERIVE into placed slots. `ok0`, `ok1`: the chip programs and verifies. (R102) -/
  | thmDerive (ok0 ok1 : Bool)
  /-- Thimble takes a Mangle secret write-back into placed slots. `ok0`, `ok1`: each flash chip takes the change. (R184) -/
  | thmAccept (ok0 ok1 : Bool)
  /-- Thimble destroys an object, purging caches and advancing its generation. `ok0`, `ok1`: the chip programs and verifies. (R96) -/
  | thmDestroy (ok0 ok1 : Bool)
  /-- Thimble narrows an object's flags and updates its cache entries. `ok0`, `ok1`: the chip programs and verifies. (R116) -/
  | thmRestrict (ok0 ok1 : Bool)
  /-- Thimble takes a lease of uses for a counted key with a LEASE record. `ok0`, `ok1`: the chip programs and verifies. (R113) -/
  | thmLease (ok0 ok1 : Bool)
  /-- Thimble draws or erases an owner store key. `ok0`, `ok1`: the chip programs and verifies. (R100) -/
  | thmOwner (ok0 ok1 : Bool)
  /-- Thimble derives the queue keys of an epoch into link registers. `ok0`, `ok1`: the chips take the journal write. (R278) -/
  | thmEpoch (ok0 ok1 : Bool)
  /-- Thimble writes a sealed bundle of objects or OSKs to the data area. `slots`, `owners`: what the bundle holds. (R399) -/
  | thmSeal (slots owners : List Nat)
  /-- Thimble applies a sealed bundle from the data area. `b`: the bundle. (R399) -/
  | thmOpen (b : Bundle)
  /-- Thimble writes OSK records for the successor's measurements. `ok0`, `ok1`: the chip programs and verifies. (R101) -/
  | thmHandover (ok0 ok1 : Bool)
  /-- After a restart, Thimble reports the outcome of requests taken before it. (R403) -/
  | thmRecover
  /-- Thimble performs a life-cycle, root or debug-certificate operation. `cut`: main power fails while the target bits burn. (R474) -/
  | thmLc (cut : Bool)
  /-- Thimble writes a response entry and advances its tail, and the CP finishes the command that waited on it. (R397) -/
  | thimbleResponse
  /-- THM_CTRL.RESTART resets the Thimble core, zeroes its SRAM and begins the restart. (R402) -/
  | thimbleRestart
  /-- A restarted Thimble has checked its image, rebuilt its table and reconciled caches, and becomes READY. `imageOk`: the image region hashes to BM0. (R402) -/
  | thimbleReady (imageOk : Bool)
  /-- THM_ALIVE unchanged or a fast request unanswered for 50 ms makes the CP declare Thimble DOWN and restart it. `silent`: `THM_ALIVE` has not changed for 50 ms; otherwise a fast request is late. (R400) -/
  | thimbleHang (silent : Bool)
  /-- A restart that does not reach READY within 200 ms counts as a further hang. (R403) -/
  | thimbleRestartTimeout
  /-- TIME_CTRL.STEP adds TIME_ADJ to the Stamp at the next Airing cycle, or runs a backward step. (R29) -/
  | timeStep
  /-- A port reset idles the port's transmitter for at least 1 ms and then trains it again. (R267) -/
  | portReset (port : Nat)
  /-- Once per millisecond the servo acts on the mean offset, adjusting the increment, slewing or stepping. (R31) -/
  | servoUpdate
  /-- A rising edge on PPS_IN is accepted as a UTC second and measured, or ignored as a glitch. (R33) -/
  | ppsInEdge
  /-- No PPS edge accepted for 2 s sets SOURCE_LOST and HOLDOVER. (R33) -/
  | ppsSourceTimeout
  /-- No Sync accepted for 3 s puts the device into holdover. (R34) -/
  | ptpSyncTimeout
  /-- A received IEEE 1588 message is stamped and passed to Tortin's PTP engine. `frame`: without its FCS; `delay`: the mean path delay in ns. (R298) -/
  | ptpMessageReceived (port : Nat) (frame : List Byte) (fcsOk : Bool) (delay : Nat)
  /-- Every 1 s a master port sends Sync and Follow_Up. (R299) -/
  | ptpMasterSync (port : Nat)
  /-- Every 1 s a master port sends Announce with its clockClass. (R299) -/
  | ptpAnnounce (port : Nat)
  /-- The selected clock crosses a whole second and PPS_OUT rises. (R36) -/
  | ppsOutSecond
  /-- The PPS_OUT width elapses and the pin falls. (R36) -/
  | ppsOutPulseEnd
  /-- At each whole CT second the power controller copies calendar time into the RTC. (R38) -/
  | rtcCopy
  /-- The 32.768 kHz crystal stopping for more than 1 s sets TIME_UNSET and RTC_STOPPED. (R39) -/
  | rtcCrystalStop
  /-- No edge from the Airing reference for 1 µs switches to the next enabled reference or the internal oscillator. `alive`: the references that give edges. (R40) -/
  | airingRefLoss (alive : Nat)
  /-- The fast-domain blocks idle for PWR_WARM_IDLE and the device enters WARM. (R42) -/
  | warmEntry
  /-- A request to a fast-domain block returns the device from WARM to ACTIVE within 200 ns. (R42) -/
  | warmExit
  /-- The idle conditions hold for PWR_AIR_IDLE and the device enters AIRING in order. (R43) -/
  | airingEntry
  /-- A permitted wake source is captured and the device returns from AIRING to ACTIVE. (R45) -/
  | airingWake (cause : Nat)
  /-- The Stamp reaches TIME_WAKE_AT and raises the wake-timer source. (R45) -/
  | wakeTimerExpiry
  /-- After wake, held frames enter the normal receive path in order until each ring is drained. (R47) -/
  | holdRingRelease
  /-- A wake source returns the device from STANDBY within 5 ms, link training included. (R48) -/
  | standbyWake (cause : Nat)
  /-- A Press pipeline issues the next job from its list by priority group. (R158) -/
  | pressJobIssue (pipe : Nat)
  /-- A Press job writes its last output and its result or status, in queue or context order. `job`: the order in which it started. (R153) -/
  | pressJobDone (pipe job : Nat)
  /-- A free Mangle slot is filled from the waiting queue by priority group. (R180) -/
  | mangleSlotFill (unit : Nat)
  /-- A Mangle micro-program ends after its unit time and writes its result or status. `wrong`: the self-check of an RSA private operation fails. (R186) -/
  | mangleOpDone (unit : Nat) (wrong : Bool)
  /-- A source's 1,024-bit start-up test passes or fails and begins again. `raw`: the raw bits of the attempt, the first in bit 0 of byte 0. (R213) -/
  | lintStartupTestEnd (source : Nat) (raw : List Byte)
  /-- A 1,024-bit window ends and its conditioned bits enter the pool or are discarded. `raw`: the 1,024 raw bits, the first in bit 0 of byte 0. (R211) -/
  | lintWindowEnd (source : Nat) (raw : List Byte)
  /-- The pool reaches 512 credited bits and Bobbin is instantiated. (R214) -/
  | bobbinInstantiate
  /-- After 2^20 calls or 100 ms Bobbin reseeds from the pool, or sets RESEED_LATE. (R217) -/
  | bobbinAutoReseed
  /-- Every 10 µs a late reseed is tried again. (R217) -/
  | bobbinReseedRetry
  /-- 2^24 calls without reseed set LIMIT and restrict Bobbin to blinding. (R217) -/
  | bobbinLimitReached
  /-- Bobbin runs its known-answer test before its first instantiation. `ok`: its outcome. (R218) -/
  | bobbinKat (ok : Bool)
  /-- After a failed known-answer test, the test is repeated every 1 s. `ok`: its outcome. (R218) -/
  | bobbinKatRetry (ok : Bool)
  /-- A generate call completes and its blocks reach the consumer. (R216) -/
  | bobbinCallDone
  /-- A FIFO at 32 words or fewer is refilled with one 128 B call. `cls`: the requester class, 0 to 2. (R220) -/
  | rngFifoRefill (cls : Nat)
  /-- A received DATA frame passes or fails the ordered checks and is accepted into its queue's receive list. `frame`: without its FCS. (R276) -/
  | ffpDataReceived (port : Nat) (frame : List Byte) (fcsOk : Bool)
  /-- A node ACK marks frames acknowledged and releases retained CONTROL frames. `frame`: without its FCS. (R283) -/
  | ffpAckReceived (port : Nat) (frame : List Byte) (fcsOk : Bool)
  /-- The Airing domain checks a node HEARTBEAT and answers it within 10 µs. `frame`: without its FCS. (R288) -/
  | ffpHeartbeatReceived (port : Nat) (frame : List Byte) (fcsOk : Bool)
  /-- A CARD_REPORT is checked, compared with the card record and may confirm an epoch change. `frame`: without its FCS. (R291) -/
  | ffpCardReportReceived (port : Nat) (frame : List Byte) (fcsOk : Bool)
  /-- A node RETRANSMIT_REQ retransmits the named CONTROL frames at once. `frame`: without its FCS. (R284) -/
  | ffpRetransmitReqReceived (port : Nat) (frame : List Byte) (fcsOk : Bool)
  /-- A frame on queue 0xFFFF matching an enrolment match is decrypted and may complete CARD.ENROL. `frame`: without its FCS. (R296) -/
  | enrolmentReportReceived (port : Nat) (frame : List Byte) (fcsOk : Bool)
  /-- A port finishes a frame and its scheduler chooses the next frame. (R244) -/
  | frameTransmitted (port : Nat)
  /-- An accepted frame is written to the host receive ring with a receive completion when a slot and ring entry are free. `ok`: the host takes the write. (R287) -/
  | receiveDelivery (queue : Nat) (ok : Bool)
  /-- Within 100 µs of accepting an unacknowledged frame the device sends an ACK covering the frames accepted. (R283) -/
  | ackSendTimer (queue : Nat)
  /-- An unacknowledged CONTROL frame is retransmitted at D/16, 2D/16 and 3D/16. (R284) -/
  | controlRetransmitTimer (queue : Nat)
  /-- At D/4 after first transmission an unacknowledged CONTROL frame is freed and counted. (R284) -/
  | controlGiveUp (queue : Nat)
  /-- A receive-window gap open for D/16 makes the device send a RETRANSMIT_REQ. (R284) -/
  | gapRetransmitReq (queue : Nat)
  /-- A transmit frame that has waited longer than its queue's deadline is freed and counted. (R285) -/
  | staleFrameFree (queue : Nat)
  /-- An unconfirmed REKEY frame is resent unchanged every 100 ms. (R279) -/
  | rekeyResend (card : Nat)
  /-- No confirmation within 1 s fails the epoch change and spends the offered epoch. (R280) -/
  | rekeyTimeout (card : Nat)
  /-- 1 s after confirmation the adjacent key register holding the old epoch is cleared. (R279) -/
  | adjacentEpochClear (card : Nat)
  /-- An unanswered enrolment offer is resent every 1 s. (R294) -/
  | enrolOfferResend (card : Nat)
  /-- No report within 5 s ends CARD.ENROL with CARD_NO_ANSWER. (R294) -/
  | enrolTimeout (card : Nat)
  /-- No node heartbeat within 3 p of the last declares a heartbeat loss and wakes the device. (R290) -/
  | heartbeatLoss (queue : Nat)
  /-- Once Tortin is ready after a reset, it runs an epoch change for every card with a queue. (R281) -/
  | postResetRekey
  /-- A port's PCS reaches link up. `remote`: the partner signals a remote fault. (R265) -/
  | portLinkUp (port : Nat) (remote : Bool)
  /-- A port's link goes down. `localF`, `remote`: what the link reports. (R265) -/
  | portLinkDown (port : Nat) (localF remote : Bool)
  /-- After a quad rate change the 1 ms of IDLE_FORCED ends and the ports train again. (R264) -/
  | portIdleForcedEnd (port : Nat)
  /-- A Seam link trains, aligns its lanes and reaches HELLO. `latency`: one-way latency measured, ns. (R304) -/
  | seamLinkTrained (link latency : Nat)
  /-- A HELLO packet gives the peer's identity and session nonce, and the link opens its session. (R306) -/
  | seamHelloReceived (link : Nat) (p : SeamPacket)
  /-- A FORM packet carries the formation exchange and yields the pair secret. (R307) -/
  | seamFormReceived (link : Nat) (p : SeamPacket)
  /-- Every 50 µs a member sends a Seam heartbeat with its transmit Stamp. (R31) -/
  | seamHeartbeatSend (link : Nat)
  /-- A Seam heartbeat gives a time exchange and liveness of the peer. `arrived`: Stamp of arrival; `asym`: the link's asymmetry constant in ns. (R31) -/
  | seamHeartbeatReceived (link : Nat) (p : SeamPacket) (arrived : Stamp) (asym : Int)
  /-- A follower applies journal entries strictly in sequence, holding those after a gap. (R312) -/
  | seamJournalReceived (link : Nat) (p : SeamPacket)
  /-- A follower's ACK lets the primary release the effects that waited for it. (R313) -/
  | seamAckReceived (link : Nat) (p : SeamPacket)
  /-- A NAK makes the primary resend the missing entries within 5 µs. (R312) -/
  | seamNakReceived (link : Nat) (p : SeamPacket)
  /-- The primary takes frames, card reports and lease requests forwarded by a follower. (R316) -/
  | seamUplinkReceived (link : Nat) (p : SeamPacket)
  /-- A joining member applies snapshot data and replaces its state. (R329) -/
  | seamResyncReceived (link : Nat) (p : SeamPacket)
  /-- A FAREWELL makes the receiver treat its sender as lost at once. (R321) -/
  | seamFarewellReceived (link : Nat) (p : SeamPacket)
  /-- Loss of signal held for 20 µs declares a Seam link lost. (R320) -/
  | seamLinkLoss (link : Nat)
  /-- Four missed Seam heartbeats declare a link lost. (R320) -/
  | seamHeartbeatMiss (link : Nat)
  /-- 100 µs after a probe the answers are counted and the member promotes, continues, fences or stays isolated. (R323) -/
  | witnessProbeTimeout
  /-- An isolated follower repeats the witness probe every 10 ms. (R323) -/
  | witnessReprobe
  /-- Every 10 ms the primary journals a CHECKPOINT with its rolling digest. (R325) -/
  | checkpointTimer
  /-- A follower sends a coalesced ACK at least every 20 µs. (R313) -/
  | seamAckCoalesce
  /-- An offset above 1 µs for 10 s or above 100 ms fences a follower with cause TIME. (R326) -/
  | timeDivergenceFence
  /-- A fenced member repeats its resynchronisation request, at most 3 times in 10 minutes. (R327) -/
  | resyncRequestRetry
  /-- A link renews its session before its packet sequence reaches 2^48. (R306) -/
  | seamSessionRenew (link : Nat)
  /-- No named partner within 60 s ends SEAM.FORM with SEAM_NO_PARTNER. (R307) -/
  | seamFormTimeout
  /-- After 5 s of waiting for partners at a common start, the members choose a primary. (R330) -/
  | rejoinWaitTimeout
  /-- A duplex member with no partner starts as a primary alone when the solo-start time passes. (R330) -/
  | soloStartTimeout
  /-- A core takes an enabled pending interrupt at stage 8 and enters its handler. (R379) -/
  | takeInterrupt (core : Nat)
  /-- CYCLE reaches TCMP and the core's timer source becomes pending. (R379) -/
  | coreTimerMatch (core : Nat)
  /-- A requested stop whose timeout passes halts the core. (R389) -/
  | progStopTimeout (core : Nat)
  /-- Does nothing. (R373) -/
  | nop (core : Nat)
  /-- Branches to the effective address after two delay slots. (R370) -/
  | br (core : Nat)
  /-- Pushes the return address on A15 and branches. (R372) -/
  | call (core : Nat)
  /-- Pops the return address from A15 and branches. (R372) -/
  | ret (core : Nat)
  /-- Restores flags and predicates and resumes at EPC, finishing branch slots. (R379) -/
  | rfi (core : Nat)
  /-- Halts the core. (R373) -/
  | halt (core : Nat)
  /-- Stops issue until an IMASK-enabled source is pending. (R373) -/
  | wait (core : Nat)
  /-- Raises the TRAP exception with its immediate in EADDR. (R373) -/
  | trap (core : Nat)
  /-- Waits at stage 4 until every older write is complete. (R373) -/
  | fence (core : Nat)
  /-- Pulses the core's event source at stage 8. (R373) -/
  | signal (core : Nat)
  /-- Copies the source operand to the destination. (R373) -/
  | mov (core : Nat)
  /-- Writes the source sign-extended to 64 bits. (R373) -/
  | movsx (core : Nat)
  /-- Writes the source zero-extended to 64 bits. (R373) -/
  | movzx (core : Nat)
  /-- Writes the effective address of the source. (R373) -/
  | lea (core : Nat)
  /-- Adds two sources and sets Z, N, C and V. (R374) -/
  | add (core : Nat)
  /-- Subtracts and sets Z, N, C and V. (R374) -/
  | sub (core : Nat)
  /-- Adds with signed saturation. (R373) -/
  | adds (core : Nat)
  /-- Subtracts with signed saturation. (R373) -/
  | subs (core : Nat)
  /-- Negates and sets Z, N, C and V. (R374) -/
  | neg (core : Nat)
  /-- Writes the absolute value. (R373) -/
  | abs (core : Nat)
  /-- Writes the low half of a product. (R373) -/
  | mul (core : Nat)
  /-- Writes the signed high half of a product. (R373) -/
  | mulhs (core : Nat)
  /-- Writes the unsigned high half of a product. (R373) -/
  | mulhu (core : Nat)
  /-- Adds a product's low half to the destination. (R373) -/
  | mac (core : Nat)
  /-- Writes the signed minimum. (R373) -/
  | min (core : Nat)
  /-- Writes the signed maximum. (R373) -/
  | max (core : Nat)
  /-- Writes the unsigned minimum. (R373) -/
  | minu (core : Nat)
  /-- Writes the unsigned maximum. (R373) -/
  | maxu (core : Nat)
  /-- Bitwise AND. (R373) -/
  | and (core : Nat)
  /-- Bitwise OR. (R373) -/
  | or (core : Nat)
  /-- Bitwise exclusive-or. (R373) -/
  | xor (core : Nat)
  /-- Bitwise complement. (R373) -/
  | not (core : Nat)
  /-- Shifts left. (R373) -/
  | shl (core : Nat)
  /-- Shifts right logically. (R373) -/
  | shr (core : Nat)
  /-- Shifts right arithmetically. (R373) -/
  | sar (core : Nat)
  /-- Rotates left. (R373) -/
  | rol (core : Nat)
  /-- Reverses the bits of the element. (R373) -/
  | brev (core : Nat)
  /-- Counts leading zeros. (R373) -/
  | clz (core : Nat)
  /-- Counts set bits. (R373) -/
  | popc (core : Nat)
  /-- Sets a predicate when the sources are equal. (R374) -/
  | cmpeq (core : Nat)
  /-- Sets a predicate when the sources differ. (R374) -/
  | cmpne (core : Nat)
  /-- Sets a predicate on signed less-than. (R374) -/
  | cmplt (core : Nat)
  /-- Sets a predicate on signed less-or-equal. (R374) -/
  | cmple (core : Nat)
  /-- Sets a predicate on unsigned less-than. (R374) -/
  | cmpltu (core : Nat)
  /-- Sets a predicate on unsigned less-or-equal. (R374) -/
  | cmpleu (core : Nat)
  /-- Sets a predicate when the AND of the sources is zero. (R374) -/
  | tstz (core : Nat)
  /-- Sets a predicate when the AND of the sources is non-zero. (R374) -/
  | tstnz (core : Nat)
  /-- ANDs two predicates. (R374) -/
  | pand (core : Nat)
  /-- ORs two predicates. (R374) -/
  | por (core : Nat)
  /-- Exclusive-ORs two predicates. (R374) -/
  | pxor (core : Nat)
  /-- Inverts a predicate. (R374) -/
  | pnot (core : Nat)
  /-- Sets a predicate to a constant. (R374) -/
  | pset (core : Nat)
  /-- Fixed-point rounded and saturated multiply. (R375) -/
  | mulq (core : Nat)
  /-- Fixed-point rounded multiply-accumulate with saturation. (R375) -/
  | macq (core : Nat)
  /-- Saturates a 64-bit value to the size. (R375) -/
  | satq (core : Nat)
  /-- Loads a register, including CTX which switches the rule set and predictor tag. (R374) -/
  | ldr (core : Nat)
  /-- Stores a register to memory. (R374) -/
  | str (core : Nat)
  /-- Adds an operand to a register. (R373) -/
  | addr (core : Nat)
  /-- Reads and clears an event input's count, overflow and pending bit. (R376) -/
  | evtake (core : Nat)
  /-- Block copy of CNT elements. (R377) -/
  | bmov (core : Nat)
  /-- Block fill of CNT elements. (R377) -/
  | bfill (core : Nat)
  /-- Block saturating add. (R377) -/
  | badds (core : Nat)
  /-- Block fixed-point multiply. (R377) -/
  | bmulq (core : Nat)
  /-- Block fixed-point multiply-accumulate. (R377) -/
  | bmacq (core : Nat)
  /-- Block dot product into one 64-bit destination. (R377) -/
  | bdot (core : Nat)
  /-- Block peak of absolute values. (R377) -/
  | bpeak (core : Nat)
  /-- Sends a Press descriptor to the core's Press port. (R384) -/
  | prsIssue (core : Nat)
  /-- Waits for the oldest committed Press job and writes its status word. (R381) -/
  | prsWait (core : Nat)
  /-- Writes the oldest Press job's status word, or not-yet-done. (R381) -/
  | prsPoll (core : Nat)
  /-- Sends a Mangle descriptor to the core's Mangle port. (R384) -/
  | mglIssue (core : Nat)
  /-- Waits uninterruptibly for the Mangle operation and writes its status word. (R196) -/
  | mglCollect (core : Nat)
  /-- Writes the Mangle operation's status word, or not-yet-done. (R381) -/
  | mglPoll (core : Nat)
  /-- PORST_N low or a main rail below its reset threshold holds a power-on reset, which ends 2 ms after release. `BOOT_MODE` and `PCIE_SPLIT` as the pins give them when the reset ends. (R543) -/
  | powerOnReset (strap : Nat) (bifur : Bool)
  /-- A device reset clears volatile device state and begins the start sequence. (R540) -/
  | deviceReset
  /-- After a reset the device reads fuses, chooses a slot, copies and checks the images and enters the firmware. (R441) -/
  | startSequence
  /-- The measured-copy unit finishes copying an image and delivers its SHA-384 digest. (R442) -/
  | measuredCopyDone
  /-- Tortin finishes its start and sets DEV_STATUS.READY. (R448) -/
  | tortinReady
  /-- RESET_N low for 20 µs begins a device reset held while the pin stays low. The filter's verdict: the pin has been low for 20 µs, or it has risen. (R544) -/
  | resetNAssert (low : Bool)
  /-- RESET_N low for 8 s is declared stuck, the reset released and FAULT_N asserted. (R545) -/
  | resetNStuck
  /-- A stuck RESET_N seen high for 100 ms is re-armed. (R546) -/
  | resetNRearm
  /-- The CP watchdog expires and causes a CP firmware restart, or a device reset within 10 s of the last. `imageOk`: the Tortin image in CP SRAM hashes to BM1. (R547) -/
  | watchdogExpiry (imageOk : Bool)
  /-- An FLR resets one PCIe function and the slices bound through it. (R549) -/
  | functionLevelReset (fn : Nat)
  /-- A Hot Reset on a port resets its function and slices. (R549) -/
  | hotReset (fn : Nat)
  /-- A link-down of a port resets its function and slices. (R549) -/
  | dlDown (fn : Nat)
  /-- PCIE_PERST_N low for a port resets its function and slices. (R549) -/
  | pciePerst (fn : Nat)
  /-- Every 60 s a failed flash chip is probed, and after a pass every area is copied to it. `ok`: the probe, or the copy that follows it, passes. (R451) -/
  | flashChipProbe (chip : Nat) (ok : Bool)
  /-- Once per second Tortin reads the PMIC status over SMBus. (R553) -/
  | pmicStatusPoll
  /-- The JTAG right MEM_TEST erases secrets and runs the factory memory self-test. The failing addresses, which the port reports. (R467) -/
  | memTestStart (fails : List Nat)
  /-- Calendar time passing the certificate's not-after withdraws its rights within 1 s. (R482) -/
  | debugCertExpiry
  /-- A rail's analogue detector sees a glitch or slow excursion and fires a Scorch event. `glitch`: beyond the glitch band, else the slow band; `low`: the low side; `ns`: for how long; `mv`: measured value. (R489) -/
  | supplyDetectorAFire (rail : Nat) (glitch low : Bool) (ns mv : Nat)
  /-- A rail's timing-margin detector fires after its margin condition holds for 8 ns. (R489) -/
  | supplyDetectorDFire (rail : Nat) (low : Bool) (mv : Nat)
  /-- A temperature sensor out of range for 1 ms, or the sensors disagreeing for 10 ms, fires. Readings in 0.125 °C, and for how long they have held. (R491) -/
  | temperatureFire (t0 t1 : BitVec 16) (ms : Nat)
  /-- A reading above 105 °C for 1 ms raises the temperature warning. (R491) -/
  | tempWarn (t0 t1 : BitVec 16) (ms : Nat)
  /-- Both sensors at 100 °C or below for 1 ms clear the temperature warning. (R491) -/
  | tempWarnClear (t0 t1 : BitVec 16) (ms : Nat)
  /-- The Airing reference departing by more than 5 % or a short period fires the source. The frequency measured over 100 µs, and the shortest period in it. (R492) -/
  | referenceFrequencyFire (khz ps : Nat)
  /-- A shield mesh mismatch fires an intrusion event. (R493) -/
  | meshFire
  /-- Two consecutive enclosure-loop samples differing from the driven bit fire an intrusion event. (R494) -/
  | loopFire (loop : Nat) (sample : Word)
  /-- VBAT out of range, a fast change, or a fresh VBAT domain fires an intrusion event. `kind`: 0 above 3.9 V, 1 a fast change, 2 below 2.2 V without main power, 3 the domain loses its state. (R495) -/
  | vbatFire (kind mv : Nat)
  /-- VBAT below 2.3 V with main power on sets a warning. (R495) -/
  | vbatLow (mv : Nat)
  /-- The root vault's integrity codes are checked once per second and at each write. (R496) -/
  | vaultIntegrityCheck (bad : Bool)
  /-- VDD_CORE or VDD_IO below its warning threshold for 1 µs raises the supply warning and begins a Tally flush. The voltages of `VDD_CORE` and `VDD_IO` in mV. (R514) -/
  | supplyWarning (core_ io_ : Nat)
  /-- Both rails 10 mV above their warning thresholds for 1 ms end the warning. (R514) -/
  | supplyWarningEnd (core_ io_ : Nat)
  /-- PFW_N low for 1 µs begins the power-fail sequence. (R515) -/
  | powerFail
  /-- PFW_N high for 10 ms without a reset ends the power-fail sequence. (R515) -/
  | powerFailEnd
  /-- VDD_CORE or VDD_IO below its reset threshold for 1 µs puts the device into VAULT. (R516) -/
  | vaultEntry (rail mv : Nat)
  /-- Each Scorch log record is copied to both flash chips within 1 s. (R512) -/
  | scorchLogMirror
  /-- The Tally controller takes an append and folds, stores or drops the record. `cut`: a reset stops the writer before the mark. (R529) -/
  | tallyAppend (cut : Bool)
  /-- A slot whose mark is still 0x00 10 µs after it was taken becomes free. (R531) -/
  | tallySlotAbandon (place : Nat)
  /-- A flush begins on its count, age, severity or supply trigger and copies unflushed records to flash. (R532) -/
  | tallyFlushBegin
  /-- A flush that failed on both chips is retried every 1 s. (R533) -/
  | tallyFlushRetry
  /-- A device read whose Completion Timeout runs out is marked failed, counted in PCI_CPL_TO_CNT and set up for retry. `what`: the read. (R252) -/
  | completionTimeout (what : HostAccess)
  /-- A host write to PCIe configuration space sets Bus Master Enable, PASID Enable, MSI-X Enable, the Function Mask, ASPM L1 or the Completion Timeout value of a function. (R564) -/
  | configurationWrite (fn : Nat) (item : CfgItem)
  /-- A PCIe link that was down trains and comes up again on its port. What the link negotiated. (R548) -/
  | pcieLinkUp (fn : Nat) (width speed : Nat) (flit : Bool)
  /-- A program, read-back or erase by the flash controller for a Tally flush, package staging, program store or settings write ends on the chips. `ok0`, `ok1`: each chip programs and verifies. (R532) -/
  | flashOperationDone (job : FlashJob) (ok0 ok1 : Bool)
  /-- A request through the JTAG port under a debug right halts, steps or resumes the CP or a Needle core, or makes an internal bus access. (R479) -/
  | jtagDebugRequest (req : DebugReq)
  /-- A Scorch source's condition has been absent for 1 ms, so the source may fire again and no longer blocks SCORCH.UNLOCK. (R488) -/
  | sourceConditionAbsent (source : Nat)
  deriving DecidableEq, Repr

end Sys2Proof
end

