-- ==== Sys2Proof/Config.lean ====
section
/-! DEFINITION. What an implementation fixes and what the spec leaves open: constants without a body, so that no proof
can see a value of them. -/

namespace Sys2Proof.Config

/-- The n-th free 64-bit value the machine draws (assumption 3). -/
opaque freeWord : Nat → BitVec 64

/-- Whether an ECC error of buffer memory is found in an Airing cycle, and where: remainder 1 modulo 4 a corrected one, 2 an uncorrectable one of the
buffer that the rest names, else none (R228, assumption 3). -/
opaque eccEvent : Nat → BitVec 64

/-- The n-th free byte string of a length the machine draws (assumption 3). -/
opaque freeBytes : Nat → Nat → List (BitVec 8)

/-- SHA-256 of a byte string (32 B), an uninterpreted function (assumption 5). -/
opaque sha256 : List (BitVec 8) → List (BitVec 8)

/-- SHA-384 of a byte string (48 B), an uninterpreted function (assumption 5). -/
opaque sha384 : List (BitVec 8) → List (BitVec 8)

/-- CRC-32C of a byte string, an uninterpreted function (assumption 5). -/
opaque crc32c : List (BitVec 8) → BitVec 32

/-- KMAC256 of SP 800-185: key, input, output bytes, customisation string; an uninterpreted function (assumption 5). -/
opaque kmac256 : List (BitVec 8) → List (BitVec 8) → Nat → List (BitVec 8) → List (BitVec 8)

/-- The tag of AES-GCM: key, nonce, additional data, ciphertext (assumption 5). -/
opaque gcmTag : List (BitVec 8) → List (BitVec 8) → List (BitVec 8) → List (BitVec 8) → List (BitVec 8)

/-- AES key unwrapping: mode 1 KW or 2 KWP, wrapping key, wrapped bytes; none when the integrity check fails
(assumption 5). -/
opaque kwUnwrap : Nat → List (BitVec 8) → List (BitVec 8) → Option (List (BitVec 8))

/-- AES key wrapping: mode 1 KW or 2 KWP, wrapping key, plaintext (assumption 5). -/
opaque kwWrap : Nat → List (BitVec 8) → List (BitVec 8) → List (BitVec 8)

/-- The public part of a private key of a type (assumption 5). -/
opaque publicOf : Nat → List (BitVec 8) → List (BitVec 8)

/-- The two primes of an RSA key of a modulus length, which fixed-time tests find among random candidates (assumption 5). -/
opaque rsaPrimes : Nat → List (BitVec 8) → Nat × Nat

/-- What the consistency check of an imported RSA key asks of e, p and q beside n = p × q and their inverses (assumption 5). -/
opaque rsaCheck : Nat → Nat → Nat → Bool

/-- The private key that an ML-KEM or ML-DSA seed of a type expands to (assumption 5). -/
opaque expandSeed : Nat → List (BitVec 8) → List (BitVec 8)

/-- The scheme's own check of a signature: scheme, public key, message, context, signature (assumption 5). -/
opaque verifies : Nat → List (BitVec 8) → List (BitVec 8) → List (BitVec 8) → List (BitVec 8) → Bool

/-- A signature: scheme, private key, message, context, random value (nonce, salt or rnd); the number of ML-DSA attempts it
takes; and the repetitions of an ECDSA signature (assumption 5). -/
opaque sign : Nat → List (BitVec 8) → List (BitVec 8) → List (BitVec 8) → List (BitVec 8) → List (BitVec 8)
opaque signAttempts : Nat → List (BitVec 8) → List (BitVec 8) → List (BitVec 8) → List (BitVec 8) → Nat
opaque signRepeats : Nat → List (BitVec 8) → List (BitVec 8) → List (BitVec 8) → List (BitVec 8) → Nat

/-- The shared secret of a private key of a type with a peer's public key (assumption 5). -/
opaque agree : Nat → List (BitVec 8) → List (BitVec 8) → List (BitVec 8)

/-- ML-KEM of a type: the ciphertext and the secret of an encapsulation from a random value; the secret that an expanded private key gives for
a ciphertext (assumption 5). -/
opaque encapsCt : Nat → List (BitVec 8) → List (BitVec 8) → List (BitVec 8)
opaque encapsKey : Nat → List (BitVec 8) → List (BitVec 8) → List (BitVec 8)
opaque decaps : Nat → List (BitVec 8) → List (BitVec 8) → List (BitVec 8)

/-- CTR_DRBG with AES-256 and the derivation function: the working state that instantiation gives for an entropy input, a
nonce and a personalisation string (assumption 5). -/
opaque drbgSeed : List (BitVec 8) → List (BitVec 8) → List (BitVec 8) → List (BitVec 8)

/-- The working state after a reseed with an entropy input and additional input (assumption 5). -/
opaque drbgReseed : List (BitVec 8) → List (BitVec 8) → List (BitVec 8) → List (BitVec 8)

/-- The bytes of one generate call of a length, and the working state after it (assumption 5). -/
opaque drbgBytes : List (BitVec 8) → Nat → List (BitVec 8)
opaque drbgNext : List (BitVec 8) → Nat → List (BitVec 8)

/-- AES on one block of 16 B, and its inverse, under a key of 16 or 32 B (assumption 5). -/
opaque aesEnc : List (BitVec 8) → List (BitVec 8) → List (BitVec 8)
opaque aesDec : List (BitVec 8) → List (BitVec 8) → List (BitVec 8)

/-- AES-CCM: the tag of a length over key, nonce, AAD and plaintext (assumption 5). -/
opaque ccmTag : List (BitVec 8) → List (BitVec 8) → List (BitVec 8) → List (BitVec 8) → Nat → List (BitVec 8)

/-- ChaCha20-Poly1305: a 64 B block of the key stream by its counter, and the tag over key, nonce, AAD and ciphertext
(assumption 5). -/
opaque chachaBlock : List (BitVec 8) → List (BitVec 8) → Nat → List (BitVec 8)
opaque chachaTag : List (BitVec 8) → List (BitVec 8) → List (BitVec 8) → List (BitVec 8) → List (BitVec 8)

/-- One data unit of AES-XTS: data key, tweak key, tweak, data; encrypted and decrypted (assumption 5). -/
opaque xtsEnc : List (BitVec 8) → List (BitVec 8) → List (BitVec 8) → List (BitVec 8) → List (BitVec 8)
opaque xtsDec : List (BitVec 8) → List (BitVec 8) → List (BitVec 8) → List (BitVec 8) → List (BitVec 8)

/-- AES-CMAC over key and message (16 B) (assumption 5). -/
opaque cmac : List (BitVec 8) → List (BitVec 8) → List (BitVec 8)

/-- HMAC with SHA-256 (3) or SHA-384 (4) over key and message (assumption 5). -/
opaque hmac : Nat → List (BitVec 8) → List (BitVec 8) → List (BitVec 8)

/-- KMAC128: key, input, output bytes, customisation string (assumption 5). -/
opaque kmac128 : List (BitVec 8) → List (BitVec 8) → Nat → List (BitVec 8) → List (BitVec 8)

/-- The hashes of Table 6-1 by mode code, and the extendable outputs of a length (assumption 5). -/
opaque hashOf : Nat → List (BitVec 8) → Nat → List (BitVec 8)

/-- SHA-384 over the canonical form of the mirrored settings, given by the values of those settings: record bodies are
internal to each schema (R563), so the digest is an uninterpreted function of them (assumption 5). -/
opaque settingsDigest : List Nat → List (BitVec 8)

/-- Where in the 512 entries of a branch predictor a branch at an address is held: the manual does not say (R415,
assumption 19). -/
opaque predPlace : Nat → Nat

end Sys2Proof.Config
end

