-- ==== Sys2Proof/Machine/Bits.lean ====
section
/-! DEFINITION. Bit fields, byte strings and saturating counters: the small helpers every meaning uses
(spec 00_scope.md R3, R4). -/

namespace Sys2Proof.Machine

/-- The number a little-endian byte string stands for (R4). -/
def leNat : List Byte → Nat
  | [] => 0
  | b :: bs => b.toNat + 256 * leNat bs

/-- The number a big-endian byte string stands for (R4: FFP and Seam headers). -/
def beNat (bs : List Byte) : Nat := bs.foldl (fun n b => n * 256 + b.toNat) 0

/-- `n` bytes of `v`, the least significant first. -/
def leBytes : Nat → Nat → List Byte
  | 0, _ => []
  | n + 1, v => BitVec.ofNat 8 v :: leBytes n (v / 256)

/-- `n` bytes of `v`, the most significant first. -/
def beBytes (n v : Nat) : List Byte := (leBytes n v).reverse

/-- `n` zero bytes. -/
def zeros (n : Nat) : List Byte := List.replicate n 0

/-- Bytes `off` to `off + n - 1` of a byte string, zero past its end. -/
def bytesAt (bs : List Byte) (off n : Nat) : List Byte :=
  let part := (bs.drop off).take n
  part ++ zeros (n - part.length)

/-- The little-endian number in bytes `off` to `off + n - 1`. -/
def leAt (bs : List Byte) (off n : Nat) : Nat := leNat (bytesAt bs off n)

/-- The big-endian number in bytes `off` to `off + n - 1`. -/
def beAt (bs : List Byte) (off n : Nat) : Nat := beNat (bytesAt bs off n)

/-- The byte at `off`, as a number. -/
def byteAt (bs : List Byte) (off : Nat) : Nat := leAt bs off 1

/-- Bits `hi` to `lo` of a number. -/
def bitsN (n hi lo : Nat) : Nat := n / 2 ^ lo % 2 ^ (hi - lo + 1)

/-- Bit `i` of a number. -/
def bitN (n i : Nat) : Bool := n / 2 ^ i % 2 == 1

/-- Bits `hi` to `lo` of a register. -/
def fieldOf (w : Word) (hi lo : Nat) : Nat := bitsN w.toNat hi lo

/-- Bit `i` of a register. -/
def bitOf (w : Word) (i : Nat) : Bool := w.getLsbD i

/-- A mask of the bits `hi` to `lo`. -/
def maskOf (hi lo : Nat) : Word := BitVec.ofNat 32 ((2 ^ (hi - lo + 1) - 1) * 2 ^ lo)

/-- A register with bits `hi` to `lo` set to `v`. -/
def putField (w : Word) (hi lo v : Nat) : Word :=
  (w &&& ~~~ (maskOf hi lo)) ||| (BitVec.ofNat 32 (v * 2 ^ lo) &&& maskOf hi lo)

/-- A register with bit `i` set to `b`. -/
def putBit (w : Word) (i : Nat) (b : Bool) : Word := putField w i i (if b then 1 else 0)

/-- 1 for true, 0 for false. -/
def b2n (b : Bool) : Nat := if b then 1 else 0

/-- A counter that saturates at `2 ^ 32 - 1` (R436). -/
def satAdd32 (w : Word) (n : Nat) : Word := BitVec.ofNat 32 (min (w.toNat + n) 0xFFFFFFFF)

/-- A 16-bit counter that saturates. -/
def satAdd16 (w : BitVec 16) (n : Nat) : BitVec 16 := BitVec.ofNat 16 (min (w.toNat + n) 0xFFFF)

/-- Rounds `n` up to a multiple of `m`. -/
def roundUp (n m : Nat) : Nat := (n + m - 1) / m * m

/-- The least power of two that is not below `n`, looked for up to `2 ^ fuel`. -/
def pow2Up (n : Nat) (fuel : Nat) : Nat :=
  match fuel with
  | 0 => 1
  | f + 1 => let p := pow2Up n f; if p < n then 2 * p else p

/-- Splits a byte string into pieces of `k` bytes, at most `fuel` of them. -/
def chunks (k : Nat) (bs : List Byte) : Nat → List (List Byte)
  | 0 => []
  | f + 1 => if bs.isEmpty then [] else bs.take k :: chunks k (bs.drop k) f

/-- A signed number of `w` bits read from its two's complement. -/
def toSigned (w n : Nat) : Int := if n < 2 ^ (w - 1) then (n : Int) else (n : Int) - (2 ^ w : Nat)

/-- A number of `w` bits holding the two's complement of an integer. -/
def ofSigned (w : Nat) (i : Int) : Nat := (i % ((2 ^ w : Nat) : Int)).toNat

/-- The lowest index at which a test holds. -/
def firstIndex {α : Type} (p : α → Bool) : List α → Nat → Option Nat
  | [], _ => none
  | x :: xs, i => if p x then some i else firstIndex p xs (i + 1)

/-- The lowest number below `n` at which a test holds, counting up from `i`. -/
def firstNat (p : Nat → Bool) (i : Nat) : Nat → Option Nat
  | 0 => none
  | n + 1 => if p i then some i else firstNat p (i + 1) n

/-- Sets place `i` of a list to `v`; unchanged when the list is shorter. -/
def setAt {α : Type} (xs : List α) (i : Nat) (v : α) : List α := xs.set i v

/-- The bits of a mask that are set, as numbers, `n` bits looked at. -/
def maskBits (m n : Nat) : List Nat := (List.range n).filter (fun i => bitN m i)

/-- How many of the lowest `n` bits of `m` are set. -/
def popCount (m n : Nat) : Nat := (maskBits m n).length

end Sys2Proof.Machine
end

