-- ==== Sys2Proof/Machine/StEng.lean ====
section
/-! DEFINITION. Parts of the state: the engines Press and Mangle (spec 06, 07) and the random sources Lint and Bobbin
(spec 08). -/

namespace Sys2Proof.Machine

/-- Where the result of an engine's job goes: a command of the tracker, with its half of a hybrid signature (0 or 1) or its entry of a batch; the
job of a Needle core's port; an operation of Mangle, by its number, for which Press hashes (R186); nowhere: its source has ended. -/
inductive JobSrc where
  | cmd (tag half : Nat)
  | port (core job : Nat)
  | mangle (order : Nat)
  | gone
  deriving DecidableEq, Repr

/-- A job in the list of a Press pipeline (R157, R158). -/
structure PressJob where
  src     : JobSrc
  /-- order of starting, and priority group 1 to 5 -/
  order   : Nat
  group   : Nat
  slice   : Nat := 0
  /-- bytes of input, for the round-robin service among slices (R341) -/
  size    : Nat := 0
  /-- its input is in the Hamper; it has been issued -/
  ready   : Bool := false
  running : Bool := false
  deriving DecidableEq, Repr

/-- The parameters of a Press operation (Table 6-5), with the usage flags that it took. -/
structure SymPar where
  mode   : Nat
  plen   : Nat := 0
  tlen   : Nat := 0
  opts   : Nat := 0
  aadLen : Nat := 0
  value  : Nat := 0
  /-- false: encrypt or generate; true: decrypt or verify -/
  rev    : Bool := false
  deriving DecidableEq, Repr

/-- An open streaming context (R165, R166): its parameters, its key as it stood at the open, its prefix, the AAD and the
text fed so far, and how much output has been written. -/
structure SymCtx where
  gen    : Nat
  slice  : Nat
  handle : Nat
  par    : SymPar
  prefix_ : List Byte
  aad    : List Byte
  text   : List Byte := []
  done   : Nat := 0
  /-- a `SYM.CTX_CLOSE` has begun -/
  closing : Bool := false
  /-- type of its key (R168) -/
  ktype   : Nat := 0
  deriving DecidableEq, Repr

/-- The Press pipelines and the streaming contexts. -/
structure PressState where
  /-- job lists by pipeline, oldest first -/
  pipes  : Tbl (List PressJob) := []
  order  : Nat := 0
  /-- the slice that group 5 of each pipeline served last -/
  last   : Tbl Nat := []
  ctxs   : Tbl SymCtx := []
  /-- generation last given to each context index -/
  gens   : Tbl Nat := []
  /-- jobs whose source waits while every list is full, oldest first (R157) -/
  waits  : List PressJob := []
  deriving DecidableEq, Repr

/-- An operation of Mangle, in a slot or in the waiting queue (R179, R180). -/
structure MangleOp where
  src   : JobSrc
  order : Nat
  group : Nat
  slice : Nat := 0
  /-- unit time in fast clocks, where the operation's kind fixes it (Table 7-2); for the service among slices -/
  time  : Nat := 0
  /-- RSA key generation (R182) -/
  rsa   : Bool := false
  ready : Bool := false
  /-- the handles of its keys (R193), and the Press passes over its message that are still to come (R186) -/
  keys   : List Nat := []
  hashes : Nat := 0
  /-- the random values drawn for it, such as its nonce, its salt or its rnd, which leave the unit with it (R183, R190) -/
  rnd    : List Byte := []
  /-- its micro-program has started: it runs to its end (R178) -/
  running : Bool := false
  deriving DecidableEq, Repr

/-- An entry of the waiting queue: an operation, or both halves of a hybrid one (R180, R181). -/
structure MangleWait where
  op   : MangleOp
  mate : Option MangleOp := none
  deriving DecidableEq, Repr

/-- The Mangle units: slots of each unit and the waiting queue, oldest first. -/
structure MangleState where
  units   : Tbl (List MangleOp) := []
  waiting : List MangleWait := []
  /-- the secret register bank of each unit, which no bus can read: private parts by handle (R183) -/
  banks   : Tbl (List (Nat × List Byte)) := []
  order   : Nat := 0
  last    : Nat := 0
  deriving DecidableEq, Repr

/-- A Lint source beside its registers (R208 to R213): past its start-up test, the clock at which its test or window
began, the run of identical raw bits, and the test pattern's register (R224). -/
structure LintSrc where
  ok     : Bool := false
  since  : Nat := 0
  runBit : Bool := false
  runLen : Nat := 0
  lfsr   : Word := 0
  deriving DecidableEq, Repr

/-- Who waits for a call of Bobbin (R219): the start of a command that draws, by its order of acceptance; an `RNG.GET`; or the FIFO of a requester
class. -/
inductive RngWant where
  | start (order : Nat)
  | cmd (tag : Nat)
  | fifo (cls : Nat)
  deriving DecidableEq, Repr

/-- A request that waits at Bobbin's arbiter: its group (R219), and the bytes still to be served. -/
structure RngReq where
  what  : RngWant
  group : Nat
  alarm : Bool := false
  left  : Nat
  deriving DecidableEq, Repr

/-- Lint and Bobbin beside the `RNG` registers (spec 08). -/
structure RngState where
  srcs    : Tbl LintSrc := []
  /-- credited bits, oldest first (R212) -/
  pool    : List Bool := []
  inst    : Bool := false
  limit   : Bool := false
  /-- the known-answer test has passed, or failed at a clock (R218) -/
  katOk   : Bool := false
  katFail : Option Nat := none
  /-- Bobbin's working state (R215), of which only its own functions know the contents -/
  work    : List Byte := []
  reseeds : Nat := 0
  calls   : Nat := 0
  /-- Stamp of the last reseed as `RNG.STATUS` gives it, and Stamp of the last reseed or instantiation (R217) -/
  stamp   : Stamp := 0
  at_     : Stamp := 0
  /-- clock of the last late try (R217) -/
  late    : Option Nat := none
  /-- woken from AIRING or STANDBY: reseeds at the first 384 credited bits (R222) -/
  woken   : Bool := false
  /-- personalisation string and `RNG_CFG` as the settings store keeps them (R215, R225) -/
  pers    : List Byte := []
  cfg     : Word := 0xFF
  /-- FIFO and last read outcome of each requester class (R220) -/
  fifos   : Tbl (List Word) := []
  outcome : Tbl Word := []
  reqs    : List RngReq := []
  deriving DecidableEq, Repr

end Sys2Proof.Machine
end

