-- ==== Sys2Proof/Machine/Cipher.lean ====
section
/-! DEFINITION. The modes of Press over the uninterpreted primitives of Config: key streams, chaining, padding, tags and
digests (spec 06, R147 to R151, Table 6-1). -/

namespace Sys2Proof.Machine

/-- Exclusive-or of two byte strings, as long as the first. -/
def xorBytes (a b : List Byte) : List Byte := (List.range a.length).map (fun i => a.getD i 0 ^^^ b.getD i 0)

/-- `n` bytes of a key stream made of blocks of `k` bytes. -/
def streamOf (k : Nat) (block : Nat → List Byte) (n : Nat) : List Byte :=
  ((List.range ((n + k - 1) / k)).flatMap (fun i => bytesAt (block i) 0 k)).take n

/-- One AES block. -/
def aesBlock (key b : List Byte) : List Byte := bytesAt (Config.aesEnc key (bytesAt b 0 16)) 0 16

/-- The key stream of AES-GCM with a nonce of 12 B: the counter of the first block of text is 2 (SP 800-38D). -/
def gcmStream (key nonce : List Byte) (n : Nat) : List Byte :=
  streamOf 16 (fun i => aesBlock key (bytesAt nonce 0 12 ++ beBytes 4 (i + 2))) n

/-- The key stream of AES-CCM: counter blocks of q - 1, the nonce and the counter from 1 (SP 800-38C). -/
def ccmStream (key nonce : List Byte) (n : Nat) : List Byte :=
  let q := 15 - nonce.length
  streamOf 16 (fun i => aesBlock key (beBytes 1 (q - 1) ++ nonce ++ beBytes q (i + 1))) n

/-- The key stream of ChaCha20-Poly1305: the counter of the first block of text is 1 (RFC 8439). -/
def chachaStream (key nonce : List Byte) (n : Nat) : List Byte := streamOf 64 (fun i => Config.chachaBlock key nonce (i + 1)) n

/-- A counter block of CTR after `i` blocks: the low `w` bits advance modulo 2^w, the high bits never change (R150). -/
def ctrBlock (w : Nat) (first : List Byte) (i : Nat) : List Byte :=
  let c := beNat (bytesAt first 0 16)
  beBytes 16 (c - c % 2 ^ w + (c % 2 ^ w + i) % 2 ^ w)

/-- The key stream of CTR. -/
def ctrStream (key first : List Byte) (w n : Nat) : List Byte := streamOf 16 (fun i => aesBlock key (ctrBlock w first i)) n

/-- The counter would wrap within a text of `n` bytes (R150). -/
def ctrWraps (w : Nat) (first : List Byte) (n : Nat) : Bool :=
  decide (2 ^ w - beNat (bytesAt first 0 16) % 2 ^ w < (n + 15) / 16)

/-- CBC encryption of whole blocks. -/
def cbcEnc (key : List Byte) : List Byte → List (List Byte) → List Byte
  | _, [] => []
  | iv, b :: bs => let c := aesBlock key (xorBytes b iv); c ++ cbcEnc key c bs

/-- CBC decryption of whole blocks. -/
def cbcDec (key : List Byte) : List Byte → List (List Byte) → List Byte
  | _, [] => []
  | iv, c :: cs => xorBytes (bytesAt (Config.aesDec key c) 0 16) iv ++ cbcDec key c cs

/-- Blocks of `k` bytes. -/
def blocks (k : Nat) (bs : List Byte) : List (List Byte) := chunks k bs (bs.length / k + 1)

/-- The padding of CBC with `PAD` (R149). -/
def cbcPad (text : List Byte) : List Byte :=
  let p := 16 - text.length % 16
  text ++ List.replicate p (BitVec.ofNat 8 p)

/-- The padding of a decrypted text passes: the last byte is 1 to 16 and as many bytes equal it (R149). -/
def cbcUnpad (text : List Byte) : Option (List Byte) :=
  let p := byteAt text (text.length - 1)
  if 1 ≤ p ∧ p ≤ 16 ∧ text.drop (text.length - p) = List.replicate p (BitVec.ofNat 8 p) then some (text.take (text.length - p))
  else none

/-- XTS over data units of `u` bytes: the tweak of unit i is the first plus i, a 128-bit little-endian integer (R148). -/
def xtsRun (rev : Bool) (ka kb tweak : List Byte) (u : Nat) (text : List Byte) : List Byte :=
  let units := blocks u text
  (List.range units.length).flatMap (fun i =>
    let t := leBytes 16 ((leNat tweak + i) % 2 ^ 128)
    let d := units.getD i []
    bytesAt (if rev then Config.xtsDec ka kb t d else Config.xtsEnc ka kb t d) 0 d.length)

/-! ### The modes (Table 6-1) -/

def mGcm := 0x01
def mCcm := 0x02
def mCtr := 0x03
def mCbc := 0x04
def mXts := 0x05
def mChacha := 0x06
def mCmac := 0x10
def mGmac := 0x11
def mHmac := 0x12

/-- Modes that authenticate and encrypt; that only encrypt; MACs; digests. -/
def isAead (m : Nat) : Bool := m == 1 || m == 2 || m == 6
def isPlainCipher (m : Nat) : Bool := m == 3 || m == 4 || m == 5
def isCipher (m : Nat) : Bool := isAead m || isPlainCipher m
def isMac (m : Nat) : Bool := decide (0x10 ≤ m ∧ m ≤ 0x14)
def isHash (m : Nat) : Bool := decide (0x20 ≤ m ∧ m ≤ 0x26)

/-- Key types that a mode accepts; none for a digest. -/
def modeTypes (m : Nat) : List Nat :=
  match m with
  | 0x01 | 0x02 | 0x03 | 0x04 | 0x05 | 0x10 | 0x11 => [1, 2]
  | 0x06 => [5]
  | 0x12 | 0x13 | 0x14 => [3, 4]
  | _ => []

/-- Prefix lengths that a mode allows. -/
def prefixOk (m n : Nat) : Bool :=
  match m with
  | 0x01 | 0x06 | 0x11 => n == 12
  | 0x02 => decide (7 ≤ n ∧ n ≤ 13)
  | 0x03 | 0x04 | 0x05 => n == 16
  | 0x13 | 0x14 => decide (n ≤ 255)
  | _ => n == 0

/-- Tag lengths that a mode allows, whatever the key. -/
def tagLenOk (m n : Nat) : Bool :=
  match m with
  | 0x01 | 0x11 => decide (12 ≤ n ∧ n ≤ 16)
  | 0x02 => decide (4 ≤ n ∧ n ≤ 16 ∧ n % 2 = 0)
  | 0x06 => n == 16
  | 0x10 => decide (4 ≤ n ∧ n ≤ 16)
  | 0x12 => decide (16 ≤ n ∧ n ≤ 48)
  | 0x13 | 0x14 => decide (16 ≤ n ∧ n ≤ 64)
  | _ => n == 0

/-- The tag length that a key type allows: HMAC with SHA-256 gives at most 32 B. -/
def tagFits (m t n : Nat) : Bool := !(m == mHmac && t == 3) || decide (n ≤ 32)

/-- Modes with AAD. -/
def hasAad (m : Nat) : Bool := isAead m || m == mGmac

/-- Bytes of a digest; of an extendable output, what the command asks for. -/
def digestLen (m value : Nat) : Nat :=
  match m with
  | 0x20 | 0x23 => 32
  | 0x21 => 48
  | 0x22 | 0x24 => 64
  | _ => value

/-- A digest. -/
def digestOf (m value : Nat) (msg : List Byte) : List Byte :=
  let n := digestLen m value
  if m = 0x20 then bytesAt (Config.sha256 msg) 0 n
  else if m = 0x21 then bytesAt (Config.sha384 msg) 0 n
  else bytesAt (Config.hashOf m msg n) 0 n

def pPad (p : SymPar) : Bool := bitN p.opts 0 && p.mode == mCbc
def pGenIv (p : SymPar) : Bool := bitN p.opts 4

/-- Bits of the counter (R150). -/
def pWidth (p : SymPar) : Nat :=
  match bitsN p.opts 2 1 with
  | 0 => 32
  | 1 => 64
  | _ => 128

/-- The key stream of a mode that has one. -/
def modeStream (p : SymPar) (key pre : List Byte) (n : Nat) : List Byte :=
  match p.mode with
  | 0x01 => gcmStream key pre n
  | 0x02 => ccmStream key pre n
  | 0x06 => chachaStream key pre n
  | _ => ctrStream key pre (pWidth p) n

/-- The tag of an AEAD mode. -/
def aeadTag (p : SymPar) (key pre aad plain ct : List Byte) : List Byte :=
  match p.mode with
  | 0x01 => bytesAt (Config.gcmTag key pre aad ct) 0 p.tlen
  | 0x02 => bytesAt (Config.ccmTag key pre aad plain p.tlen) 0 p.tlen
  | _ => bytesAt (Config.chachaTag key pre aad ct) 0 p.tlen

/-- The tag of a MAC mode, with the type of its key. -/
def macTag (p : SymPar) (kt : Nat) (key pre aad text : List Byte) : List Byte :=
  match p.mode with
  | 0x10 => bytesAt (Config.cmac key text) 0 p.tlen
  | 0x11 => bytesAt (Config.gcmTag key pre aad []) 0 p.tlen
  | 0x12 => bytesAt (Config.hmac kt key text) 0 p.tlen
  | 0x13 => bytesAt (Config.kmac128 key text p.tlen pre) 0 p.tlen
  | _ => bytesAt (Config.kmac256 key text p.tlen pre) 0 p.tlen

/-- The text that a cipher mode gives, without padding steps. -/
def cipherText (p : SymPar) (ka kb pre text : List Byte) : List Byte :=
  if p.mode = mCbc then
    if p.rev then cbcDec ka pre (blocks 16 text) else cbcEnc ka pre (blocks 16 text)
  else if p.mode = mXts then xtsRun p.rev ka kb pre p.value text
  else xorBytes text (modeStream p ka pre text.length)

/-- What a whole operation writes, and the status that it ends with: 0 OK, 2 OK_UNTRUSTED, 0x0501 PAD_INVALID, 0x0502
MAC_MISMATCH (R149, R151, R153, R156, Table 6-6). -/
def symRun (p : SymPar) (kt : Nat) (ka kb pre aad text tag : List Byte) : List Byte × Nat :=
  if isAead p.mode then
    let out := cipherText p ka kb pre text
    if p.rev then (out, if aeadTag p ka pre aad out text = tag then 0 else 2)
    else (out ++ aeadTag p ka pre aad text out, 0)
  else if isPlainCipher p.mode then
    if pPad p && !p.rev then (cipherText p ka kb pre (cbcPad text), 0)
    else
      let out := cipherText p ka kb pre text
      if pPad p then match cbcUnpad out with
        | some bs => (bs, 0)
        | none => (out, 0x0501)
      else (out, 0)
  else if isMac p.mode then
    let t := macTag p kt ka pre aad text
    if p.rev then ([], if t = tag then 0 else 0x0502) else (t, 0)
  else (digestOf p.mode p.value text, 0)

end Sys2Proof.Machine
end

