-- ==== Sys2Proof/Machine/RegMap.lean ====
section
/-! DEFINITION. The register map: every register block of the device, its decode span, and the access code, reset
value and writable bits of every register (spec 15_registers.md R422 to R439; Tables 2-9, 2-10, 3-9, 8-6, 9-16 to 9-19,
10-14, 11-12, 13-21, 14-12 to 14-14, 15-4 to 15-7). Registers are named by their listed internal address: a BAR0 block
lies at 0x8000_0000 plus its BAR0 offset (Table 1-2). -/

namespace Sys2Proof.Machine

/-- The access code that governs a whole register (Table 15-1); `clr` is the clear register of an `SQC` register. -/
inductive Acc where
  | ro | rw | wo | cpw | sqc | clr | win
  deriving DecidableEq, Repr

/-- One register of a block: its offset, code, reset value, the bits a write takes, the reserved `RWP` bits, and whether
host software may write it (R424, Table 15-4). -/
structure RegDesc where
  off   : Nat
  acc   : Acc
  reset : Word := 0
  wmask : Word := 0
  rwp   : Word := 0
  host  : Bool := false
  deriving DecidableEq, Repr

/-- The register blocks. `lnk n` is the window of field port n. Of `PRS`, `MGL`, `FLC`, `AIR` and `SJN` the manual gives the windows and no register: every
offset reads zero and ignores writes (assumption 58). -/
inductive Blk where
  | dev | time | mbx | pwr | scr | tly | lcs | rng | hmp | que | seam | lnk (n : Nat) | pci
  | dma | evt | aru | hem | prs | mgl | ndl | thm | flc | air | sjn
  deriving DecidableEq, Repr

/-- Internal address of a block's window (Table 1-2, Table 15-4). -/
def blkBase : Blk → Nat
  | .dev => 0x80000000
  | .time => 0x80010000
  | .mbx => 0x80020000
  | .pwr => 0x80030000
  | .scr => 0x80040000
  | .tly => 0x80050000
  | .lcs => 0x80060000
  | .rng => 0x80070000
  | .hmp => 0x80080000
  | .que => 0x80090000
  | .seam => 0x800C0000
  | .lnk n => 0x80100000 + 0x1000 * n
  | .pci => 0x80200000
  | .dma => 0x81000000
  | .evt => 0x81010000
  | .aru => 0x81020000
  | .hem => 0x81030000
  | .prs => 0x81040000
  | .mgl => 0x81050000
  | .ndl => 0x81060000
  | .thm => 0x81070000
  | .flc => 0x81080000
  | .air => 0x81090000
  | .sjn => 0x810A0000

/-- Bytes of a block's window (R426). -/
def blkWindow : Blk → Nat
  | .lnk _ => 0x1000
  | _ => 0x10000

/-- Decode span of a block's lower half (R426, Table 15-4, R262, R263, R393, R419 to R421). -/
def blkSpan : Blk → Nat
  | .dev => 0x80
  | .time => 0x80
  | .mbx => 0x100
  | .pwr => 0x20
  | .scr => 0x40
  | .tly => 0x40
  | .lcs => 0x20
  | .rng => 0x80
  | .hmp => 0x100
  | .que => 0x40
  | .seam => 0x80
  | .lnk _ => 0x200
  | .pci => 0x80
  | .dma => 0x4000
  | .evt => 0x2000
  | .aru => 0x8000
  | .hem => 0x8000
  | .ndl => 0x1000
  | .thm => 0x8000
  | .prs | .mgl | .flc | .air | .sjn => 0x8000

/-- The internal-only blocks (Table 1-2). -/
def blkInternal : Blk → Bool
  | .dma | .evt | .aru | .hem | .prs | .mgl | .ndl | .thm | .flc | .air | .sjn => true
  | _ => false

/-- `DEV_GUARD_INFO.BLOCK` of a block: BAR0 offset [23:16], or the index of an internal-only block. -/
def blkCode (b : Blk) : Nat :=
  if blkInternal b then (blkBase b - 0x81000000) / 0x10000 else (blkBase b - 0x80000000) / 0x10000

/-- The block whose window holds an internal address. -/
def blkOf (a : Nat) : Option Blk :=
  if 0x80100000 ≤ a ∧ a < 0x80200000 then some (.lnk (a % 0x100000 / 0x1000))
  else [Blk.dev, .time, .mbx, .pwr, .scr, .tly, .lcs, .rng, .hmp, .que, .seam, .pci, .dma, .evt, .aru, .hem, .prs, .mgl,
    .ndl, .thm, .flc, .air, .sjn].find? (fun b => decide (blkBase b ≤ a ∧ a < blkBase b + 0x10000))

/-- A read-only register. -/
def rRo (off : Nat) (reset : Nat := 0) : RegDesc :=
  { off := off, acc := .ro, reset := BitVec.ofNat 32 reset }

/-- A read-write register: the bits outside `wmask` are reserved `RWP`. -/
def rRw (off reset wmask : Nat) (host : Bool := false) : RegDesc :=
  { off := off, acc := .rw, reset := BitVec.ofNat 32 reset, wmask := BitVec.ofNat 32 wmask,
    rwp := ~~~ (BitVec.ofNat 32 wmask), host := host }

/-- A write-only register. -/
def rWo (off : Nat) (host : Bool := false) : RegDesc := { off := off, acc := .wo, host := host }

/-- A complement-pair register; `ro` are bits of it that no write changes. -/
def rCpw (off reset wmask : Nat) (ro : Nat := 0) (host : Bool := false) : RegDesc :=
  { off := off, acc := .cpw, reset := BitVec.ofNat 32 reset, wmask := BitVec.ofNat 32 wmask,
    rwp := ~~~ (BitVec.ofNat 32 (wmask + ro)), host := host }

/-- A sequence-clear status register and its clear register at +4. -/
def rSqc (off : Nat) (host : Bool := true) : List RegDesc :=
  [{ off := off, acc := .sqc }, { off := off + 4, acc := .clr, host := host }]

/-- A wide-window selector or control register. -/
def rWin (off : Nat) : RegDesc := { off := off, acc := .win, host := true }

/-- Read-only registers at every fourth offset, `n` of them. -/
def rRun (off n : Nat) : List RegDesc := (List.range n).map (fun i => rRo (off + 4 * i))

/-- `DEV` (Table 15-5). -/
def regsDev : List RegDesc :=
  [rRo 0x000 0x4E62B100, rRo 0x004, rRo 0x008, rRo 0x00C, rRo 0x010, rRo 0x014, rRo 0x018] ++ rSqc 0x01C ++
  rRun 0x024 6 ++ [rRw 0x03C 0 0xFFFFFFFF true, rCpw 0x040 0 0xFFFFFFFF 0 true, rRo 0x044]

/-- `TIME` (Table 2-9). -/
def regsTime : List RegDesc :=
  rRun 0x000 4 ++ [rCpw 0x010 0x2E0BE827 0xFFFFFFFF, rRw 0x014 0x11 0xFF, rCpw 0x018 0 0x2C7 0x100] ++
  rSqc 0x01C ++ [rRw 0x024 0 0xFFFFFFFF, rRw 0x028 0 0xFFFFFFFF, rRo 0x030, rRo 0x034,
  rRw 0x040 0 0xFFFFFFFF, rRw 0x044 0 0xFFFFFFFF, rRw 0x048 0 0xFFFFFFFF, rRw 0x050 0 0xFFFFFFFF,
  rRw 0x054 0 0xFFFFFFFF, rRo 0x058, rRo 0x060, rRo 0x064 0x80]

/-- `MBX` (Table 3-9). -/
def regsMbx : List RegDesc :=
  (List.range 16).map (fun i => rRw (4 * i) 0 0xFFFFFFFF true) ++ rRun 0x040 16 ++
  [{ off := 0x080, acc := .rw, wmask := 0x2, rwp := 0xFFFFFFFC, host := true }, rRo 0x084, rRo 0x088]

/-- `PWR` (Table 2-10). -/
def regsPwr : List RegDesc :=
  [rRo 0x000, rCpw 0x004 1 0x3, rRw 0x008 0x64 0xFFFF, rRw 0x00C 0x1388 0xFFFFFF] ++ rSqc 0x010 ++
  [rRw 0x018 0xFFF 0xFFFFFF, rRw 0x01C 0x00010000 0xFFFF0000]

/-- `SCR` (Table 15-7, R520). -/
def regsScr : List RegDesc :=
  [rRo 0x000] ++ rSqc 0x004 ++ [rRo 0x00C, rRo 0x010, rRo 0x014, rRo 0x018, rRo 0x01C,
  rCpw 0x020 3 0x7, rCpw 0x024 2 0x7, rRo 0x028, rRo 0x02C]

/-- `TLY` (Table 15-7). -/
def regsTly : List RegDesc := [rRo 0x000] ++ rSqc 0x004 ++ rRun 0x00C 6

/-- `LCS` (Table 15-7). -/
def regsLcs : List RegDesc := [rRo 0x000, rWo 0x004 true] ++ rSqc 0x008 ++ rRun 0x010 3

/-- `RNG` (Table 8-6). -/
def regsRng : List RegDesc :=
  [rRo 0x000, rRo 0x004, rRo 0x008] ++ rSqc 0x00C ++ [rCpw 0x014 0xFF 0x00FF00FF, rRo 0x018 0x031A0029, rRo 0x01C] ++
  rRun 0x020 16 ++ [rCpw 0x060 0 0x703, rRw 0x064 0 0xFFFFFFFF]

/-- `HMP` (Table 9-16). -/
def regsHmp : List RegDesc :=
  [rRo 0x000 0x40000] ++ rRun 0x004 6 ++ rSqc 0x01C ++ rRun 0x030 6 ++ [rWin 0x050, rWin 0x054, rRo 0x058] ++
  rRun 0x060 8 ++ [rRw 0x080 0 0xF003FFFF, rWo 0x084, rRo 0x088]

/-- `QUE` (Table 9-17). -/
def regsQue : List RegDesc :=
  [rRo 0x000] ++ rSqc 0x004 ++ [rRo 0x00C, rWin 0x010, rWin 0x014, rRo 0x018] ++ rRun 0x020 8

/-- `SEAM` (Table 11-12). -/
def regsSeam : List RegDesc :=
  [rRo 0x000] ++ rSqc 0x004 ++ rRun 0x00C 9 ++ (List.range 4).map (fun i => rRo (0x030 + 4 * i) 0xFF00) ++ rRun 0x040 9

/-- `LNK` (Table 10-14). -/
def regsLnk : List RegDesc :=
  [rRo 0x000, rCpw 0x004 0x08000000 0xBF800000 0x40000000] ++ rSqc 0x008 ++
  [rRw 0x010 0x88B5 0xFFFF, rRw 0x014 0 0xFFF, rRw 0x018 0x377 0xFFF, rRw 0x01C 0x5EE 0x3FFF, rRo 0x020, rRo 0x024] ++
  (List.range 4).map (fun i => rRw (0x030 + 4 * i) 0 0xFFFFFFFF) ++
  [rRw 0x040 0xB8B5 0xFFFF, rRw 0x044 0 0xFFFFFFFF, rRo 0x048, rRo 0x050, rWo 0x054] ++ rRun 0x058 4 ++ rRun 0x100 27

/-- `PCI`, one port (Table 15-6). -/
def regsPci : List RegDesc :=
  let one := [rRo 0x000] ++ rSqc 0x004 ++ rRun 0x00C 7
  one ++ one.map (fun d => { d with off := d.off + 0x40, host := false })

/-- A `DMA` channel (Table 9-18). -/
def regsDma (c : Nat) : List RegDesc :=
  [rRw 0x00 (if c < 32 then 0x86000001 else 0x06000000) 0xFFFFFFC1, rWo 0x04, rRo 0x08] ++ rSqc 0x0C false ++
  [rRw 0x14 0 0xFFFFFFE0, rRw 0x18 0 0xFF, rRo 0x1C, rRo 0x20, rRo 0x24, rWo 0x28, rWo 0x2C, rRo 0x30, rRo 0x34,
   rRo 0x38, rRo 0x3C]

/-- The register of the `EVT` block at an offset (Table 9-19). -/
def regEvt (off : Nat) : Option RegDesc :=
  if off < 0x800 then some (rRw off 0 0x8000FFFF)
  else if off < 0xC00 then some (rRw off 0 0x800001FF)
  else if off < 0x1000 then some (rRw off 0 0x800001FF)
  else if off < 0x1040 then some (rRw off 0 0x80FFFFFF)
  else if off = 0x1040 then some (rWo off)
  else none

/-- The register of an `ARU` unit at an offset within the unit (Table 14-14). -/
def regAruUnit (o : Nat) : Option RegDesc :=
  if o = 0 then some (rRw o 0 1)
  else if o = 4 then some (rRw o 0 0xF00)
  else if o < 0x18 then some (rRo o)
  else if 0x100 ≤ o ∧ o < 0x300 then
    (if o % 16 = 0 ∨ o % 16 = 4 then some (rRw o 0 0xFFFFFFFF)
     else if o % 16 = 8 then some (rRw o 0 0x80000F07) else none)
  else none

/-- Reset value of a Hem region register: controller, region and the register's place in the region (Table 14-8). -/
def hemReset (c n place : Nat) : Nat :=
  if n ≠ 0 then 0
  else if c = 0 then (if place = 0 then 0 else if place = 4 then 0x7FF else 0x80000005)
  else if c = 1 then (if place = 0 then 0x100000 else if place = 4 then 0x103FFF else 0x80000007)
  else if c = 3 then (if place = 0 then 0x800000 else if place = 4 then 0x810AFF else 0x80000003)
  else 0

/-- The register of the `HEM` block at an offset (Table 14-13). -/
def regHem (off : Nat) : Option RegDesc :=
  if off < 0x5000 then
    let c := off / 0x400
    let o := off % 0x400
    if o = 0 then some (rCpw off 0x10 0x80000000 0x1F)
    else if o < 0x14 then some (rRo off)
    else if o = 0x14 then some { off := off, acc := .sqc }
    else if o = 0x18 then some { off := off, acc := .clr }
    else if o = 0x1C then some (rRo off)
    else if 0x100 ≤ o ∧ o < 0x200 then
      let n := (o - 0x100) / 16
      if o % 16 = 0 then some (rRw off (hemReset c n 0) 0xFFFFFFFF)
      else if o % 16 = 4 then some (rRw off (hemReset c n 4) 0xFFFFFFFF)
      else if o % 16 = 8 then some (rCpw off (hemReset c n 8) 0xC3FF0077)
      else none
    else none
  else if off = 0x6000 then some (rRo off)
  else if 0x6004 ≤ off ∧ off ≤ 0x6014 then some (rRw off 0 0xFFFFFFFF)
  else if off = 0x6018 then some (rCpw off 0 0xFFFFFFFF)
  else none

/-- A Needle core's registers in the `NDL` block (Table 13-21). -/
def regsNdl : List RegDesc := [rRw 0x00 0 0x7, rRo 0x04] ++ rRun 0x08 8 ++ [rRw 0x28 0 0xFFFFFFFF]

/-- The register of the `THM` block at an offset (Table 14-12). -/
def regThm (off : Nat) : Option RegDesc :=
  if off = 0x00C then some (rRw off 0 0x1F)
  else if off = 0x018 then some (rRw off 0 0x1F)
  else if off = 0x008 then some (rCpw off 0 0x1 0x2)
  else if off = 0x01C then some { off := off, acc := .sqc }
  else if off = 0x020 then some { off := off, acc := .clr }
  else if off < 0x018 then some (rRo off)
  else if 0x1000 ≤ off ∧ off < 0x2000 then some (rRw off 0 0xFFFFFFFF)
  else if 0x2000 ≤ off ∧ off < 0x2800 then some (rRo off)
  else if 0x4000 ≤ off ∧ off < 0x8000 then some (rRw off 0 0xFFFFFFFF)
  else none

/-- The register that a block lists at an offset below its decode span; `none` where its table lists nothing. -/
def regDesc (b : Blk) (off : Nat) : Option RegDesc :=
  let pick (l : List RegDesc) : Option RegDesc := l.find? (fun d => d.off == off)
  match b with
  | .dev => pick regsDev
  | .time => pick regsTime
  | .mbx => pick regsMbx
  | .pwr => pick regsPwr
  | .scr => pick regsScr
  | .tly => pick regsTly
  | .lcs => pick regsLcs
  | .rng => pick regsRng
  | .hmp => pick regsHmp
  | .que => pick regsQue
  | .seam => pick regsSeam
  | .lnk _ => pick regsLnk
  | .pci => pick regsPci
  | .dma => ((regsDma (off / 0x40)).find? (fun d => d.off == off % 0x40)).map (fun d => { d with off := off })
  | .evt => regEvt off
  | .aru => if off / 0x400 < 17 then (regAruUnit (off % 0x400)).map (fun d => { d with off := off }) else none
  | .hem => regHem off
  | .ndl => (regsNdl.find? (fun d => d.off == off % 0x100)).map (fun d => { d with off := off })
  | .thm => regThm off
  | .prs | .mgl | .flc | .air | .sjn => none

/-- The value a listed register holds at reset: its table's, zero at an address that lists none. -/
def regReset (a : Nat) : Word :=
  match blkOf a with
  | none => 0
  | some b => match regDesc b (a - blkBase b) with
    | none => 0
    | some d => d.reset

/-- Where an access to a block's window lands (R426, R427): a listed offset of the lower half, or an offset of the
fully decoded upper half. -/
inductive Landing where
  | lower (off : Nat)
  | upper (off : Nat)
  deriving DecidableEq, Repr

/-- Decoding of an offset within a block's window: the lower half aliases modulo the decode span (R426); the upper half
is fully decoded and given relative to its start (R427). -/
def land (b : Blk) (o : Nat) : Landing :=
  if o < blkWindow b / 2 then .lower (o % blkSpan b) else .upper (o - blkWindow b / 2)

/-! Listed addresses of the registers that meanings name. -/

def aDevVersion := 0x80000004
def aDevSerialLo := 0x80000008
def aDevSerialHi := 0x8000000C
def aDevResetCnt := 0x80000018
def aDevEvt := 0x8000001C
def aDevNarrowWr := 0x80000024
def aDevIgnWr := 0x80000028
def aDevSqcMiss := 0x8000002C
def aDevGuardFail := 0x80000030
def aDevGuardInfo := 0x80000034
def aDevLongTlp := 0x80000038
def aDevScratch := 0x8000003C
def aDevPairTest := 0x80000040
def aDevFault := 0x80000044
def aTimeNowLo := 0x80010000
def aTimeNowHi := 0x80010004
def aTimeCtLo := 0x80010008
def aTimeCtHi := 0x8001000C
def aTimeIncFrac := 0x80010010
def aTimeIncInt := 0x80010014
def aTimeCtrl := 0x80010018
def aTimeStat := 0x8001001C
def aTimeAdjLo := 0x80010024
def aTimeAdjHi := 0x80010028
def aTimePpsLo := 0x80010030
def aTimePpsHi := 0x80010034
def aTimeCtBaseLo := 0x80010040
def aTimeCtBaseHi := 0x80010044
def aTimeRtcTrim := 0x80010048
def aTimeWakeLo := 0x80010050
def aTimeWakeHi := 0x80010054
def aTimeEpoch := 0x80010058
def aTimeOffset := 0x80010060
def aTimeSrcStat := 0x80010064
def aMbxReq := 0x80020000
def aMbxRsp := 0x80020040
def aMbxCtrl := 0x80020080
def aMbxStat := 0x80020084
def aMbxRefused := 0x80020088
def aPwrState := 0x80030000
def aPwrCtrl := 0x80030004
def aPwrWarmIdle := 0x80030008
def aPwrAirIdle := 0x8003000C
def aPwrWakeSrc := 0x80030010
def aPwrWakeMask := 0x80030018
def aPwrAirRef := 0x8003001C
def aScrEvt := 0x80040004
def aScrVcoreWarn := 0x80040020
def aScrVcoreRst := 0x80040024
def aScrTemp := 0x80040028
def aScrEvtCnt := 0x8004002C
def aTlyEvt := 0x80050004
def aTlyDropped := 0x8005000C
def aTlyFlushed := 0x80050020
def aLcsReq := 0x80060004
def aLcsEvt := 0x80060008
def aLcsResult := 0x80060010
def aRngData := 0x80070000
def aRngDataStat := 0x80070004
def aRngStat := 0x80070008
def aRngEvt := 0x8007000C
def aRngCfg := 0x80070014
def aRngPool := 0x8007001C
def aRngSrcFail := 0x80070020
def aRngSrcWin := 0x80070040
def aRngTestCtrl := 0x80070060
def aRngTestSeed := 0x80070064
def aHmpDfree := 0x8008000C
def aHmpFfree := 0x80080010
def aHmpDrop := 0x80080014
def aHmpEcc := 0x80080018
def aHmpEvt := 0x8008001C
def aHmpWideSel := 0x80080050
def aHmpWideCtrl := 0x80080054
def aHmpOpArg := 0x80080080
def aHmpOp := 0x80080084
def aHmpOpRes := 0x80080088
def aQueEvt := 0x80090004
def aQueTaintRef := 0x8009000C
def aQueWideSel := 0x80090010
def aQueWideCtrl := 0x80090014
def aSeamEvt := 0x800C0004
def aSeamOffset := 0x800C0028
def aSeamHbMiss := 0x800C0040
def aSeamNakCnt := 0x800C0044
def aSeamAuthFail := 0x800C0048
def aSeamUndup := 0x800C004C
def aSeamFenceCnt := 0x800C0050
def aSeamBudget := 0x800C0054
def aSeamLoad := 0x800C0058
def aSeamCause := 0x800C005C
def aSeamWitness := 0x800C0060

/-- A register of field port `n` at an offset of its window (Table 10-14). -/
def aLnk (n off : Nat) : Nat := 0x80100000 + 0x1000 * n + off

/-- A register of PCIe port `p` (R438). -/
def aPci (p off : Nat) : Nat := 0x80200000 + p * 0x40 + off

/-- A register of DMA channel `c` (R262). -/
def aDma (c off : Nat) : Nat := 0x81000000 + c * 0x40 + off

/-- A register of the `EVT` block (R263). -/
def aEvt (off : Nat) : Nat := 0x81010000 + off

/-- A register of ARU unit `u` (R421). -/
def aAru (u off : Nat) : Nat := 0x81020000 + 0x400 * u + off

/-- A register of Hem controller `c` (R420). -/
def aHem (c off : Nat) : Nat := 0x81030000 + 0x400 * c + off

/-- A register of the GPIO bank (R420). -/
def aGpio (off : Nat) : Nat := 0x81036000 + off

/-- A register of Needle core `n` in the `NDL` block (R393). -/
def aNdl (n off : Nat) : Nat := 0x81060000 + 0x100 * n + off

/-- A register of the `THM` block (R419). -/
def aThm (off : Nat) : Nat := 0x81070000 + off

end Sys2Proof.Machine
end

