-- ==== Sys2Proof/Machine/StDev.lean ====
section
/-! DEFINITION. Parts of the state: the device as a whole (straps, fuses read as registers, resets) and the two PCIe
ports' static facts (spec 15, 20). -/

namespace Sys2Proof.Machine

/-- Facts of the device that stand outside every block. -/
structure DevState where
  /-- `DEV_SERIAL` fuses (Table 15-5) -/
  serial    : BitVec 64 := 0
  /-- bifurcation strap (R17) -/
  bifur     : Bool := false
  /-- `RESET_N` declared stuck (R543, `DEV_FAULT.RESET_STUCK`) -/
  stuck     : Bool := false
  /-- clock at which `RESET_N` was seen low, while it is low -/
  resetLow  : Option Nat := none
  /-- clock at which `RESET_N` was last seen to rise (R546) -/
  resetHigh : Nat := 0
  /-- clock of the CP watchdog's last expiry (R547) -/
  dogAt     : Option Nat := none
  /-- Thimble has failed since the last device or power-on reset (`DEV_FAULT.THM_FAILED`) -/
  thmFailed : Bool := false
  /-- Stamps of the last device reset and CP firmware restart of this epoch; 0 none (Table 15-10) -/
  resetAt   : Stamp := 0
  restartAt : Stamp := 0
  /-- negotiated width, speed code and FLIT mode of the two ports (`PCI_STAT`) -/
  width     : List Nat := [16, 8]
  speed     : List Nat := [6, 6]
  flit      : List Bool := [true, true]
  /-- level of the GPIO inputs and which of the device's control pins are asserted (spec 20) -/
  faultN    : Bool := false
  /-- CP SRAM, 4 MiB; a byte that nothing has written reads zero (Table 1-2, assumption 58) -/
  sram      : ByteMem := []
  /-- data-access exceptions that the CP has taken since it last started (R13) -/
  cpExc     : Nat := 0
  /-- a Hem controller has denied the CP an access: Tortin performs a CP firmware restart (R408) -/
  restartDue : Bool := false
  deriving DecidableEq, Repr

end Sys2Proof.Machine
end

