-- ==== Sys2Proof/Machine/StHamper.lean ====
section
/-! DEFINITION. Parts of the state: the Hamper's buffers, the internal memories, the DMA channels and the event matrix
(spec 09, 14). -/

namespace Sys2Proof.Machine

/-- Buffer metadata (Table 9-1). -/
structure BufMeta where
  held   : Bool := false
  taint  : Bool := false
  first  : Bool := false
  last   : Bool := false
  owner  : Nat := 0
  next   : Nat := 0
  count  : Nat := 0
  length : Nat := 0
  wv     : Nat := 0
  stamp  : Stamp := 0
  deriving DecidableEq, Repr

/-- The Hamper: metadata and contents by buffer, the bank that served last, the high-water mark of each account, the
operation ports of the requesters (core n, or 16 for the CP), and whether hold rings keep banks 0 to 7 out (R237). -/
structure HamperState where
  metas  : Tbl BufMeta := []
  data   : ByteMem := []
  bank   : Nat := 63
  high   : Tbl Nat := []
  opArg  : Tbl Word := []
  opRes  : Tbl Word := []
  rings  : Bool := false
  /-- accounts whose reserve was lowered below what they held, and that have not been below it since (R233) -/
  excess : List Nat := []
  deriving DecidableEq, Repr

/-- Channel states (Table 9-10). -/
inductive DmaMode where
  | idle | running | paused | stopped | halted | waitTrig
  deriving DecidableEq, Repr

/-- The coding of `DMA_STAT.STATE`. -/
def DmaMode.code : DmaMode → Nat
  | .idle => 0
  | .running => 1
  | .paused => 2
  | .stopped => 3
  | .halted => 4
  | .waitTrig => 5

/-- A descriptor as read: its own address, its fields, its link word and its control (Tables 9-8, 9-9). -/
structure DmaDesc where
  at_   : Nat
  src   : Nat
  dst   : Nat
  len   : Nat
  ctl   : Nat
  link  : Nat
  deriving DecidableEq, Repr

/-- The descriptor read a channel waits for: the first or next descriptor at an address, or the last link word again. -/
inductive DmaWant where
  | none
  | fetch (addr : Nat)
  | relink (addr : Nat)
  deriving DecidableEq, Repr

/-- A DMA channel beside its registers (R249 to R257). -/
structure DmaChan where
  mode   : DmaMode := .idle
  err    : Nat := 0
  miss   : Bool := false
  taint  : Bool := false
  want   : DmaWant := .none
  /-- descriptor in progress, and the one read ahead -/
  desc   : Option DmaDesc := none
  ahead  : Option DmaDesc := none
  /-- bytes of the descriptor or lap written -/
  done   : Nat := 0
  /-- present addresses, or buffers, of the two sides -/
  src    : Nat := 0
  dst    : Nat := 0
  /-- the mode to which `CONT` returns -/
  resume : DmaMode := .running
  /-- a `PAUSE` (false) or an `ABORT` (true) that waits for reads still outstanding, with their number (R254) -/
  stop   : Option (Nat × Bool) := none
  /-- migration holds the channel paused (R352) -/
  frozen : Bool := false
  deriving DecidableEq, Repr

/-- The DMA engine and the event matrix beside their registers: channels by number, and when each event timer last
fired. -/
structure DmaState where
  chans  : Tbl DmaChan := []
  timers : Tbl Nat := []
  deriving DecidableEq, Repr

/-- `THM_STAT.STATE` (Table 14-12). -/
inductive ThmMode where
  | boot | ready | down | restarting | failed
  deriving DecidableEq, Repr

/-- The coding of `THM_STAT.STATE`. -/
def ThmMode.code : ThmMode → Nat
  | .boot => 0
  | .ready => 1
  | .down => 2
  | .restarting => 3
  | .failed => 4

/-- A mailbox request (Table 14-3): operation, `ALARM`, tag, handles, bulk bytes and parameters, and the command that
waits on it. -/
structure ThmReq where
  op    : Nat
  alarm : Bool := false
  tag   : Nat
  a     : Nat := 0
  b     : Nat := 0
  nums  : List Nat := []
  data  : List Byte := []
  /-- a secret on Mangle's write-back path (R184) -/
  secret : List Byte := []
  /-- the tracker place of the command that waits, if any -/
  cmd   : Option Nat := none
  /-- clock at which Thimble took it -/
  taken : Nat := 0
  deriving DecidableEq, Repr

/-- A mailbox response (Table 14-3). -/
structure ThmRsp where
  op     : Nat
  tag    : Nat
  status : Nat
  a      : Nat := 0
  nums   : List Nat := []
  data   : List Byte := []
  cmd    : Option Nat := none
  deriving DecidableEq, Repr

/-- The Thimble mailbox and Thimble's own state beside the `THM` registers (R397 to R404). -/
structure ThmState where
  mode     : ThmMode := .boot
  restarts : Nat := 0
  alive    : Word := 0
  /-- requests posted and not yet answered, oldest first -/
  reqs     : List ThmReq := []
  /-- answers that Thimble has made and not yet written as responses, oldest first -/
  answers  : List ThmRsp := []
  /-- tags given so far -/
  nextTag  : Nat := 1
  /-- clocks of the hangs of the last 10 minutes (R404) -/
  hangs    : List Nat := []
  /-- clock of the present restart (R402) -/
  restartAt : Nat := 0
  /-- requests taken before the restart, for `RECOVER`, each with whether its change had committed (R403) -/
  lost     : List (ThmReq × Bool) := []
  /-- the root vault's count of sealed bundles, and the device instance number (R399) -/
  bundles  : Nat := 0
  /-- the bundle that stands in the data area -/
  bundle   : Option Bundle := none
  deriving DecidableEq, Repr

end Sys2Proof.Machine
end

