-- ==== Sys2Proof/Machine/StOut.lean ====
section
/-! DEFINITION. What leaves the device, as its partners see it: the model's own record (assumption 4). -/

namespace Sys2Proof.Machine

/-- One thing that left the device. -/
inductive Output where
  /-- a posted write to host memory; no PASID for the front mailbox (R79) -/
  | hostWrite (fn : Nat) (pasid : Option Nat) (addr : Nat) (data : List Byte)
  /-- an MSI-X message of a table entry of a function (R77) -/
  | msix (fn vec : Nat)
  /-- the value a register read returned -/
  | reply (r : Requester) (addr : Nat) (value : Word)
  /-- a Completer Abort sent or reported on a port (R430) -/
  | completerAbort (fn : Nat)
  /-- an Unsupported Request answered on a port (R430) -/
  | unsupported (fn : Nat)
  /-- a frame transmitted on a field port, without its FCS -/
  | frame (port : Nat) (bytes : List Byte)
  /-- an IEEE 1588 message sent on a field port (R299): its message type and its contents -/
  | ptp (port kind : Nat) (bytes : List Byte)
  /-- a packet sent on a Seam link: its 32 B header (Table 11-1), the packet, and its 16 B tag (R305) -/
  | seam (header : List Byte) (p : SeamPacket) (tag : List Byte)
  /-- a debug answer through the JTAG port (R479) -/
  | jtag (value : BitVec 64)
  deriving DecidableEq, Repr

end Sys2Proof.Machine
end

