-- ==== Sys2Proof/Machine/StTally.lean ====
section
/-! DEFINITION. Parts of the state: the Tally event recorder and the Scorch monitors (spec 18, 19). -/

namespace Sys2Proof.Machine

/-- One 16 B item of a device record: kind and value (Table 19-2). -/
structure TallyItem where
  kind  : Nat
  value : BitVec 64
  deriving DecidableEq, Repr

/-- The body of a record: items, or a host record (R524). -/
inductive TallyBody where
  | items (xs : List TallyItem)
  | host (slice owner app : Nat) (text : List Byte)
  deriving DecidableEq, Repr

/-- An append at an agent's port: the event as captured (R521, R529). -/
structure TallyApp where
  code     : Nat
  sev      : Nat
  agent    : Nat
  stamp    : Stamp
  agentSeq : BitVec 16
  body     : TallyBody
  deriving DecidableEq, Repr

/-- A stored record (Table 19-1). -/
structure TallyRec where
  app    : TallyApp
  drops  : Bool
  unset  : Bool
  member : Nat
  group  : Bool
  seq    : Nat
  ct     : CalTime
  epoch  : BitVec 16
  rep    : Nat
  last   : Stamp
  deriving DecidableEq, Repr

/-- A slot of the Tally store: its record, whether its mark reads 0x5A, when it was taken and whether it is in flash. -/
structure TallySlot where
  rcd     : TallyRec
  valid   : Bool
  taken   : Nat
  flushed : Bool
  deriving DecidableEq, Repr

/-- A flush in progress (R532): the sequences still to be copied, in the order of writing, the count written, and
whether either chip has taken every page so far. -/
structure FlushRun where
  todo    : List Nat
  written : Nat := 0
  ok0     : Bool := true
  ok1     : Bool := true
  deriving DecidableEq, Repr

/-- The Tally (spec 19). -/
structure TallyState where
  slots      : Tbl TallySlot := []
  /-- appends waiting at the agents' ports, by agent ID, oldest first (R529) -/
  ports      : Tbl (List TallyApp) := []
  /-- records staged in AIRING and STANDBY, oldest first, at most 16 (R522) -/
  staging    : List TallyApp := []
  nextSeq    : Nat := 1
  /-- a record was dropped since the last one stored (R528) -/
  dropped    : Bool := false
  overwritten : Word := 0
  abandoned  : Word := 0
  flushFails : Word := 0
  /-- the 4 KiB pages of the Tally area of each chip, oldest first (R532, R533) -/
  flash0     : List (List TallyRec) := []
  flash1     : List (List TallyRec) := []
  flush      : Option FlushRun := none
  /-- one chip, or neither, takes the flush (R533) -/
  degraded   : Bool := false
  flashFail  : Bool := false
  /-- which chip flushes leave out after a failure (R533) -/
  skip0      : Bool := false
  skip1      : Bool := false
  failAt     : Nat := 0
  /-- a flush was asked for by a supply warning, the power-fail sequence or a command -/
  want       : Bool := false
  deriving DecidableEq, Repr

/-- A record of the Scorch log (Table 18-6). A record written in VAULT is not chained until the next start (R511). -/
structure ScorchRec where
  seq    : Nat
  kind   : Nat
  src    : Nat
  sev    : Nat
  flags  : Nat
  ct     : CalTime
  stamp  : Stamp
  epoch  : BitVec 16
  dur    : Nat
  detail : Nat
  chain  : List Byte
  deriving DecidableEq, Repr

/-- A provisional lock of `VDD_CORE` or `VDD_IO` (R490): the rail (0 or 3), and the clock of the firing. -/
structure Provisional where
  rail : Nat
  at_  : Nat
  deriving DecidableEq, Repr

/-- The Scorch monitors and the VBAT domain's record of them (spec 18). -/
structure ScorchState where
  locked    : Bool := false
  lockSrc   : Nat := 0
  lockStamp : Stamp := 0
  lockCt    : CalTime := 0
  lockCount : Nat := 0
  /-- provisional firings since the lock began, and the sequence of its first record (R490) -/
  prov      : List Provisional := []
  lockRec   : Nat := 0
  /-- a source other than the low-side detectors has fired since the lock began (R490) -/
  others    : Bool := false
  rootsLost : Bool := false
  lastSrc   : Nat := 0
  /-- sources fused off, bit n = source n (R509) -/
  disabled  : Nat := 0
  /-- sources whose condition is present (R488, R506) -/
  present   : Nat := 0
  pfw       : Bool := false
  supplyWarn : Bool := false
  /-- a rail was below its warning threshold, and has not been above it since for the time that ends the warning (R514) -/
  railLow   : Bool := false
  tempWarn  : Bool := false
  vbatLow   : Bool := false
  /-- sticky flags: the loops that fired, the mesh, the loss of VBAT, a Rinse (R513) -/
  stLoops   : Nat := 0
  stLoop    : Bool := false
  stMesh    : Bool := false
  stVbat    : Bool := false
  stRinse   : Bool := false
  /-- the log, oldest record held first, and the chain value that precedes it (R510 to R512) -/
  log       : List ScorchRec := []
  logSeq    : Nat := 0
  prevChain : List Byte := []
  /-- records mirrored to flash, counted by the highest sequence mirrored (R512) -/
  mirrored  : Nat := 0
  /-- the vault's integrity codes: a mismatch was found, whose erasure of the roots waits for Thimble (R496) -/
  vaultBad  : Bool := false
  /-- the VBAT domain was powered up afresh: the next start fires source 0x28 (R495) -/
  fresh     : Bool := false
  /-- the digests of owner set and settings that an unlock approved, in the root vault (R508) -/
  approve     : Option (List Byte × List Byte) := none
  deriving DecidableEq, Repr

end Sys2Proof.Machine
end

