-- ==== Sys2Proof/Machine/State.lean ====
section
/-! DEFINITION. The state of the Nabiry as a block: everything the spec gives it, the queue of commands that wait, and
the state right after power-on reset. -/

namespace Sys2Proof.Machine

/-- Where the machine stops because the spec says that its behaviour is not described: nowhere. Every command has an effect, so the type has no
constructor, and no step ends in a fault. -/
inductive Fault where
  deriving DecidableEq, Repr

/-- Why the model turns a command away. -/
inductive Refusal where
  /-- The command has no meaning yet; raised by `exec` only. Safe: no claim about it can be proved. -/
  | notModelled (mnemonic : String)
  deriving DecidableEq, Repr

/-- The whole machine. -/
structure State where
  /-- the model's queue of waiting commands, first in first out -/
  pending : List Instr := []
  /-- the model's record of what left the device, newest first (assumption 4) -/
  out     : List Output := []
  /-- the model's count of free values drawn (assumption 3) -/
  draws   : Nat := 0
  time    : TimeState := {}
  pwr     : PwrState := {}
  regs    : RegState := {}
  dev     : DevState := {}
  /-- agent sequences by agent ID (R25, R27); an unlisted agent has stamped nothing -/
  agentSeq : Tbl (BitVec 16) := []
  fn0     : FnState := {}
  fn1     : FnState := {}
  slices  : Tbl Slice := []
  tortin  : TortinState := {}
  tally   : TallyState := {}
  scorch  : ScorchState := {}
  keys    : KeyState := {}
  seam    : SeamState := {}
  hamper  : HamperState := {}
  needle  : NeedleState := {}
  links   : LinkState := {}
  press   : PressState := {}
  mangle  : MangleState := {}
  rng     : RngState := {}
  dma     : DmaState := {}
  thm     : ThmState := {}
  boot    : BootState := {}
  lc      : LcState := {}
  deriving DecidableEq, Repr

/-- The machine right after power-on reset, with nothing waiting. -/
def State.reset : State := {}

end Sys2Proof.Machine
end

