-- ==== Sys2Proof/Machine/Ops.lean ====
section
/-! DEFINITION. The shared operations on registers, time, event registers, the Tally's append ports and what leaves the
device (spec 02, 15, 19). -/

namespace Sys2Proof.Machine

/-! ### Time -/

/-- The Stamp: bits [95:32] of the accumulator (R23). -/
def nowStamp (s : State) : Stamp := s.time.acc.extractLsb' 32 64

/-- Airing cycles in a microsecond, a millisecond and a second (R23: 250 MHz). -/
def cycUs := 250
def cycMs := 250000
def cycS := 250000000

/-- The device is a member of a Seam group. -/
def inGroup (s : State) : Bool := s.seam.role != .alone && s.seam.role != .forming

/-- The device writes nothing to host memory and fetches nothing: a follower or a fenced member (R310, R327). -/
def hostSilent (s : State) : Bool := s.seam.role == .follower || s.seam.role == .fenced

/-! ### The register file -/

/-- The stored value of the register at a listed address. -/
def regGet (s : State) (a : Nat) : Word := tblGet (regReset a) s.regs.file a

/-- The state with the register at a listed address holding `v`. -/
def regPut (s : State) (a : Nat) (v : Word) : State :=
  { s with regs := { s.regs with file := tblSet (regReset a) a v s.regs.file } }

/-- A counter register advances by `n` and saturates (R436). -/
def regAdd (s : State) (a n : Nat) : State := regPut s a (satAdd32 (regGet s a) n)

/-- A field of a stored register. -/
def regField (s : State) (a hi lo : Nat) : Nat := fieldOf (regGet s a) hi lo

/-- The increment in `TIME_INC_INT` and `TIME_INC_FRAC` (R23). -/
def timeInc (s : State) : Nat := regField s aTimeIncInt 7 0 * 2 ^ 32 + (regGet s aTimeIncFrac).toNat

/-- The Stamp that a capture point takes now (R25, Table 2-1): in AIRING and STANDBY, where `COARSE` is set, the Stamp at the latest edge of the
156.25 MHz reference, which shares an edge with the Airing clock every 32 ns; otherwise the Stamp, for every event of the model stands at an
Airing cycle (assumption 2). -/
def capStamp (s : State) : Stamp :=
  if bitOf (regGet s aTimeSrcStat) 8 then
    (s.time.acc - BitVec.ofNat 96 (timeInc s * (40 * s.time.clk % 64) / 40)).extractLsb' 32 64
  else nowStamp s

/-- A field of a stored register set. -/
def regSetField (s : State) (a hi lo v : Nat) : State := regPut s a (putField (regGet s a) hi lo v)

/-- A bit of a stored register set. -/
def regSetBit (s : State) (a i : Nat) (b : Bool) : State := regPut s a (putBit (regGet s a) i b)

/-- An event in a sequence-clear word: its bit is set and `SEQ` advances by one modulo 256 (R434). -/
def sqcWord (w : Word) (bit : Nat) : Word := putField (putBit w bit true) 31 24 (fieldOf w 31 24 + 1)

/-- An event in the sequence-clear register at `a` (R434). -/
def sqcSet (s : State) (a bit : Nat) : State := regPut s a (sqcWord (regGet s a) bit)

/-- A 64-bit value in a pair of stored registers. -/
def regGet64 (s : State) (lo hi : Nat) : BitVec 64 := (regGet s hi) ++ (regGet s lo)

/-- A pair of stored registers set to a 64-bit value. -/
def regPut64 (s : State) (lo hi : Nat) (v : BitVec 64) : State :=
  regPut (regPut s lo (v.extractLsb' 0 32)) hi (v.extractLsb' 32 32)

/-- Calendar time at a Stamp; zero while `TIME_UNSET` is set (R37). -/
def ctAt (s : State) (t : Stamp) : CalTime :=
  if bitOf (regGet s aTimeSrcStat) 7 then 0 else regGet64 s aTimeCtBaseLo aTimeCtBaseHi + (t >>> 8)

/-- Calendar time now. -/
def nowCt (s : State) : CalTime := ctAt s (nowStamp s)

/-- `TIME_EPOCH_ID`. -/
def epochId (s : State) : BitVec 16 := BitVec.ofNat 16 (regGet s aTimeEpoch).toNat

/-! ### Free values (assumption 3) -/

/-- A free 64-bit value, and the state that has drawn it. -/
def freeWord (s : State) : BitVec 64 × State := (Config.freeWord s.draws, { s with draws := s.draws + 1 })

/-- A free byte string of `n` bytes, and the state that has drawn it. -/
def freeBytes (s : State) (n : Nat) : List Byte × State :=
  (bytesAt (Config.freeBytes s.draws n) 0 n, { s with draws := s.draws + 1 })

/-! ### What leaves the device -/

/-- Something leaves the device. -/
def emit (s : State) (o : Output) : State := { s with out := o :: s.out }

/-- The state of PCIe function `p`. -/
def fnGet (s : State) (p : Nat) : FnState := if p = 0 then s.fn0 else s.fn1

/-- PCIe function `p` set. -/
def fnPut (s : State) (p : Nat) (f : FnState) : State := if p = 0 then { s with fn0 := f } else { s with fn1 := f }

/-- The device has port `p`: port 1 exists in bifurcated mode only (R17). -/
def portThere (s : State) (p : Nat) : Bool := p == 0 || (p == 1 && s.dev.bifur)

/-- Entries of a function's MSI-X table: 2,048 in x16 mode, 1,024 in bifurcated mode (spec 12). -/
def msixEntries (s : State) : Nat := if s.dev.bifur then 1024 else 2048

/-- The device may issue memory requests through function `p`: its link is up, and the host has set Bus Master Enable and
PASID Enable (R252, R564). -/
def fnLive (s : State) (p : Nat) : Bool :=
  let f := fnGet s p
  f.linkUp && f.busMaster && f.pasidEn

/-- A table entry of a function raises its interrupt: one that cannot leave now sets its Pending Bit (R77, R564). -/
def raiseMsix (s : State) (p vec : Nat) : State :=
  let f := fnGet s p
  if hostSilent s then s
  else if fnLive s p && f.msixEn && !f.fnMask && tblGet false f.unmasked vec then emit s (.msix p vec)
  else fnPut s p { f with pba := tblSet false vec true f.pba }

/-! ### Agents and the Tally's append ports -/

/-- Agent IDs (Table 2-2). -/
def agCp := 0
def agThm := 1
def agAiring := 2
def agScorch := 3
def agPower := 4
def agHamper := 5
def agQue := 6
def agTally := 7
def agFlash := 0xA
def agSeamJ := 0x44
def agFront (p : Nat) : Nat := 8 + p
def agCore (n : Nat) : Nat := 0x10 + n
def agPress (n : Nat) : Nat := 0x20 + n
def agMangle (n : Nat) : Nat := 0x30 + n
def agSeam (n : Nat) : Nat := 0x40 + n
def agHem (n : Nat) : Nat := 0x50 + n
def agDma (n : Nat) : Nat := 0x100 + n
def agPort (n : Nat) : Nat := 0x200 + n

/-- An agent stamps an event: its sequence advances by one (R25, R27). -/
def agentNext (s : State) (agent : Nat) : BitVec 16 × State :=
  let q := tblGet 0 s.agentSeq agent
  (q, { s with agentSeq := tblSet 0 agent (q + 1) s.agentSeq })

/-- What orders two events (R27): Stamp, agent ID, agent sequence, and between members the member index. -/
structure EventKey where
  stamp  : Stamp
  agent  : Nat
  seq    : BitVec 16
  member : Nat
  deriving DecidableEq, Repr

/-- An event comes before another (R27): sequences of one agent are compared by their difference modulo 2^16 as a signed value. -/
def eventBefore (a b : EventKey) : Bool :=
  if a.stamp ≠ b.stamp then decide (a.stamp.toNat < b.stamp.toNat)
  else if a.agent ≠ b.agent then decide (a.agent < b.agent)
  else if a.seq ≠ b.seq then decide ((a.seq - b.seq).toInt < 0)
  else decide (a.member < b.member)

/-- Power states in `PWR_STATE.STATE` (Table 2-10). -/
def pwrMode (s : State) : Nat := regField s aPwrState 2 0

/-- Airing cycles from the capture of a wake source: to the lock of the core PLL, to the restart of the processor clocks, to ACTIVE (Table 2-6);
from STANDBY to ACTIVE (R48, assumption 6). -/
def wakeLock := 10 * cycUs
def wakeProc := 15 * cycUs
def wakeDone := 20 * cycUs
def wakeStandby := 5 * cycMs

/-- A wake has been in progress for `n` cycles. -/
def wakePast (s : State) (n : Nat) : Bool := s.pwr.leaving.any (fun t => decide (t + n ≤ s.time.clk))

/-- The processor and secure clocks run: in ACTIVE and WARM until an entry stops them, and again from 15 µs of a wake from AIRING on (Table 1-8,
Table 2-6, R43). -/
def procRuns (s : State) : Bool :=
  !s.pwr.vault && if pwrMode s < 2 then decide (s.pwr.entering < 2) else pwrMode s == 2 && wakePast s wakeProc

/-- The Tally store runs in ACTIVE and WARM; in AIRING and STANDBY appends are staged (R522), and in VAULT nothing is stored. -/
def tallyAwake (s : State) : Bool := decide (pwrMode s < 2) && !s.pwr.vault

/-- A record is dropped: counted, and the next record stored carries `DROPS` (R528). -/
def tallyDrop (s : State) : State :=
  let s1 := sqcSet (regAdd s aTlyDropped 1) aTlyEvt 1
  { s1 with tally := { s1.tally with dropped := true } }

/-- The append port an agent writes to (R521): Hem controllers, DMA channels, field ports and Seam links have one port
each kind; other firmware of the CP writes through the CP's. -/
def tallyPort (agent : Nat) : Nat :=
  if agent = agThm ∨ agent = agAiring ∨ agent = agScorch ∨ agent = agHamper ∨ agent = agQue then agent
  else if 0x40 ≤ agent ∧ agent ≤ 0x44 then 0x40
  else if 0x50 ≤ agent ∧ agent < 0x70 then agent
  else if 0x100 ≤ agent ∧ agent < 0x200 then 0x100
  else if 0x200 ≤ agent then 0x200
  else agCp

/-- An append reaches an agent's port (R521, R522, R529): a port of the CP or Thimble never drops; another port holds
four. In AIRING and STANDBY up to 16 records of the Airing domain and the Scorch monitors are staged. -/
def tallyAppend (s : State) (a : TallyApp) : State :=
  let p := tallyPort a.agent
  if !tallyAwake s && (p == agAiring || p == agScorch) then
    if s.tally.staging.length < 16 then
      { s with tally := { s.tally with staging := s.tally.staging ++ [a] } }
    else tallyDrop s
  else
    let q := tblGet [] s.tally.ports p
    if p = agCp ∨ p = agThm ∨ q.length < 4 then
      { s with tally := { s.tally with ports := tblSet [] p (q ++ [a]) s.tally.ports } }
    else tallyDrop s

/-- Severity of a device record, by code (Table 19-3). -/
def tallySev (code : Nat) : Nat :=
  if code ∈ [0x0780, 0xFFFF] then 1
  else if code ∈ [0x0380, 0x0381, 0x0881, 0x0A80, 0x0A81, 0x0B80, 0x0B81, 0x0D80, 0x0D95, 0x0D96] then 2
  else if code ∈ [0x0183, 0x0482, 0x0781, 0x0882, 0x0B82, 0x0D92, 0x0D93, 0x0D94, 0x0E80, 0x0982, 0x0985, 0x0989,
    0x098A] then 3
  else if code ∈ [0x0180, 0x0181, 0x0182, 0x0480, 0x0483, 0x0880, 0x0883, 0x0885, 0x0B83, 0x0C01, 0x0C80, 0x0E82,
    0x0E83, 0x0981, 0x0983, 0x0987, 0x0988, 0x098B] then 4
  else if code ∈ [0x0186, 0x0887] then 5
  else if code ∈ [0x0184, 0x0302, 0x0305, 0x0481, 0x0680, 0x0884, 0x0886, 0x0B84, 0x0D81, 0x0D82, 0x0D83, 0x0D90,
    0x0E81] then 6
  else if code ∈ [0x0185, 0x0484, 0x0782, 0x0D91] then 7
  else 2

/-- An agent stamps an event and appends its record with the items of its code (R524, R527). -/
def tallyPut (s : State) (agent code : Nat) (items : List (Nat × Nat)) : State :=
  let (q, s1) := agentNext s agent
  tallyAppend s1 { code := code, sev := tallySev code, agent := agent, stamp := capStamp s, agentSeq := q,
                   body := .items (items.map (fun i => { kind := i.1, value := BitVec.ofNat 64 i.2 })) }

/-! ### Life cycle (R476, R479, R483) -/

/-- The highest fuse slot that passes a test. -/
def topSlot (s : State) (p : Nat → Bool) : Option Nat :=
  (List.range 16).reverse.find? (fun k => p (s.lc.fuses.getD k 0))

/-- The present life-cycle state: the target of the highest slot marked `DONE`, else Maker (R476). -/
def lcState (s : State) : Nat :=
  match topSlot s (fun f => bitN f 5) with
  | some k => bitsN (s.lc.fuses.getD k 0) 2 0 - 1
  | none => 0

/-- Every debug right is in force in Maker and Returned (R479). -/
def lcOpen (s : State) : Bool := lcState s == 0 || lcState s == 3

/-- The debug rights in force, `LCS_DEBUG.RIGHTS` (R479, R482, R483). -/
def debugRights (s : State) : Nat :=
  if lcOpen s then 0x3FF
  else match s.lc.cert with
    | none => 0
    | some k => if s.scorch.locked || bitOf (regGet s aTimeSrcStat) 7 || !s.lc.certOn then 0 else k.rights

/-- The JTAG port halts the CP, while the right is in force (R479). -/
def cpHalted (s : State) : Bool := s.lc.cpHalt && bitN (debugRights s) 0

/-- The JTAG port holds the device in ACTIVE, while the right is in force (Table 17-5). -/
def pwrHeld (s : State) : Bool := s.lc.pwrHold && bitN (debugRights s) 7

/-! ### The `DEV` counters and `FAULT_N` -/

/-- A write that a register ignores is counted (R424). -/
def ignWrite (s : State) : State := sqcSet (regAdd s aDevIgnWr 1) aDevEvt 2

/-- A narrow write is discarded and counted (R428, R431). -/
def narrowWrite (s : State) : State := sqcSet (regAdd s aDevNarrowWr 1) aDevEvt 1

/-- A sequence clear is refused (R434). -/
def sqcMiss (s : State) : State := sqcSet (regAdd s aDevSqcMiss 1) aDevEvt 4

/-- `DEV_FAULT` (Table 15-5): each bit follows its cause. -/
def devFault (s : State) : Nat := b2n s.dev.stuck + 2 * b2n s.dev.thmFailed + 4 * b2n s.scorch.locked

/-- `FAULT_N` follows `DEV_FAULT`; becoming asserted is an event (Table 15-5). -/
def faultPin (s : State) : State :=
  let f := decide (devFault s ≠ 0)
  let s1 := { s with dev := { s.dev with faultN := f } }
  if f && !s.dev.faultN then sqcSet s1 aDevEvt 8 else s1

/-! ### Slices -/

/-- Slice `n`; an unlisted one is unbound. -/
def sliceGet (s : State) (n : Nat) : Slice := tblGet {} s.slices n

/-- Slice `n` set. -/
def slicePut (s : State) (n : Nat) (x : Slice) : State := { s with slices := tblSet {} n x s.slices }

/-- The pages of a dirty-page log that a write covers are marked (R349, R350). -/
def logWrite (l : DirtyLog) (addr len : Nat) : DirtyLog :=
  if len = 0 then l
  else
    let lo := addr / 4096
    let hi := (addr + len - 1) / 4096
    let first := 0x40000 * l.base
    let stop := first + 0x40000 * l.len
    let pages := (List.range (hi - lo + 1)).map (· + lo)
    { l with
      outside := l.outside || pages.any (fun p => decide (p < first ∨ stop ≤ p))
      pages := (pages.filter (fun p => decide (first ≤ p ∧ p < stop))).foldl (fun t p => tblSet l.full p true t) l.pages }

/-- A posted write to host memory made for a slice: it carries the slice's PASID and marks its dirty-page log (R335,
R349). Nothing leaves through a function that is not live (R564). -/
def hostWrite (s : State) (slice addr : Nat) (data : List Byte) : State :=
  let x := sliceGet s slice
  if hostSilent s || !fnLive s x.port then s else
  let s1 := emit s (.hostWrite x.port (some x.pasid) addr data)
  match x.log with
  | none => s1
  | some l => slicePut s1 slice { x with log := some (logWrite l addr data.length) }

/-- A vector of a slice is raised: parked while parking is in force (R344), an MSI-X message otherwise (R342). -/
def raiseVector (s : State) (slice vec : Nat) : State :=
  let x := sliceGet s slice
  if x.parking then
    slicePut s slice { x with parked := if bitN x.parked vec then x.parked else x.parked + 2 ^ vec }
  else raiseMsix s x.port (x.vecBase + vec)

/-- An ignored or discarded write to a slice page is counted (R82). -/
def slcIgn (s : State) (n : Nat) : State :=
  let x := sliceGet s n
  slicePut s n { x with ignWr := satAdd32 x.ignWr 1 }

end Sys2Proof.Machine
end

