-- ==== Sys2Proof/Machine/Journal.lean ====
section
/-! DEFINITION. The Seam journal as every block uses it: writing an entry, sending a packet, and the release of an effect
(spec 11, R305, R311 to R313); an entry of the pending table changed, which a primary journals (spec 05, R142). -/

namespace Sys2Proof.Machine

/-! ### Bytes of packets and entries (R305, R306, R311) -/

/-- The bytes of a packet's payload, of a snapshot and of an entry's body: their layouts are not given, so they are uninterpreted functions of what
they carry (assumption 7). -/
opaque payloadBytes : SeamLoad → List Byte
opaque snapBytes : SeamSnap → List Byte
opaque bodyBytes : JBody → List Byte

/-- The 48 B digest of the outcome that a member computed for an entry: an uninterpreted function of that outcome (R325, assumption 5). -/
opaque outcomeDigest : SeamOutcome → List Byte

/-- The largest payload of a packet (Table 11-1), the largest body of an entry (R311), and the data that the body of an INPUT, a STREAM and a RESULT
entry carries beside its other fields (DESIGN CHOICE, assumption 7). -/
def packetMax := 9216
def bodyMax := 8960
def inputMax := bodyMax - 16
def streamMax := bodyMax - 24
def resultMax := bodyMax - 32

/-- The packets that carry a snapshot. -/
def snapParts (x : SeamSnap) : Nat := max 1 (((snapBytes x).length + packetMax - 1) / packetMax)

/-- A packet's payload: a snapshot's packets share its bytes out (R329). -/
def loadBytes : SeamLoad → List Byte
  | .snapshot k _ x => ((snapBytes x).drop (packetMax * k)).take packetMax
  | l => (payloadBytes l).take packetMax

/-- A packet's header, big-endian (Table 11-1, R4); it is the additional data of a protected packet (R306). -/
def seamHeader (p : SeamPacket) : List Byte :=
  beBytes 1 (16 + p.load.code) ++ beBytes 1 0 ++ beBytes 1 p.source ++ beBytes 1 p.dest ++ beBytes 1 p.link ++ beBytes 1 0 ++
  beBytes 2 (loadBytes p.load).length ++ beBytes 8 p.seq ++ beBytes 8 p.stamp.toNat ++ zeros 8

/-- The nonce of a protected packet (R306). -/
def seamNonce (p : SeamPacket) : List Byte := beBytes 1 p.source ++ beBytes 1 p.link ++ zeros 2 ++ beBytes 8 p.seq

/-- HELLO and FORM have no protection (Table 11-2). -/
def seamOpen (l : SeamLoad) : Bool := decide (l.code ≤ 2)

/-- A packet's tag: AES-256-GCM under the session key, with the header as additional data; zero for HELLO and FORM (R305, R306). -/
def seamTag (p : SeamPacket) : List Byte :=
  if seamOpen p.load then zeros 16
  else
    let plain := loadBytes p.load
    bytesAt (Config.gcmTag p.key (seamNonce p) (seamHeader p) (xorBytes plain (gcmStream p.key (seamNonce p) plain.length))) 0 16

/-- The bytes of an entry's body. The bodies that carry data have its length beside their fields, and the others are taken as 96 B, for their layouts
are not given (DESIGN CHOICE, assumption 7). -/
def bodySize (b : JBody) : Nat :=
  match b with
  | .accept _ _ _ inl => 72 + inl.length
  | .input _ _ d => 16 + d.length
  | .result _ _ _ _ o => 32 + o.length
  | .complete ts => 8 * ts.length
  | .send _ _ ctrs => 16 + 10 * ctrs.length
  | .stream _ _ _ _ _ p => 24 + p.length
  | .mark a b => 16 * (a.length + b.length)
  | _ => 96

/-- The bytes of an entry: its header, and its body padded to a multiple of 8 B (R311). -/
def entrySize (b : JBody) : Nat := 32 + roundUp (bodySize b) 8

/-- An entry's header, big-endian (Table 11-4, R4). -/
def entryHeader (e : JEntry) : List Byte :=
  beBytes 4 e.term ++ beBytes 8 e.seq ++ beBytes 1 e.body.code ++ beBytes 1 (b2n e.release) ++ beBytes 2 e.slice ++ beBytes 8 e.stamp.toNat ++
  beBytes 4 (bodySize e.body) ++ zeros 4

/-- An entry: its header, and its body padded (R311). -/
def entryBytes (e : JEntry) : List Byte :=
  entryHeader e ++ bytesAt (bodyBytes e.body) 0 (bodySize e.body) ++ zeros (roundUp (bodySize e.body) 8 - bodySize e.body)

/-- The outcome of an entry on a member whose tables hold its effect (R325). -/
def entryOutcome (s : State) (e : JEntry) : SeamOutcome :=
  match e.body with
  | .outcome _ st _ slots _ => { status := st, slots := slots }
  | .result _ st len _ _ | .done _ st len _ => { status := some st, len := len }
  | .key slot _ => { slots := [slot], objs := (tblFind slot s.keys.objs).toList }
  | .owner n _ => { owners := (tblFind n s.keys.owners).toList }
  | .pend n _ => { pend := (tblFind n s.keys.pend).toList }
  | _ => {}

/-- The rolling digest after an entry: SHA-384 of the digest, the entry and the outcome (R325). -/
def entryDigest (s : State) (d : List Byte) (e : JEntry) : List Byte :=
  bytesAt (Config.sha384 (d ++ entryBytes e ++ bytesAt (outcomeDigest (entryOutcome s e)) 0 48)) 0 48

/-! ### Members and packets -/

/-- The device is the primary of a group. -/
def isPrimary (s : State) : Bool := s.seam.role == .primary

/-- Link `l` of the Seam. -/
def seamLink (s : State) (l : Nat) : SeamLink := s.seam.links.getD l {}

/-- Link `l` set. -/
def seamLinkPut (s : State) (l : Nat) (x : SeamLink) : State :=
  { s with seam := { s.seam with links := setAt s.seam.links l x } }

/-- Member `m` as this device sees it. -/
def seamPeer (s : State) (m : Nat) : SeamPeer := s.seam.peers.getD m {}

/-- Member `m` set. -/
def seamPeerPut (s : State) (m : Nat) (x : SeamPeer) : State :=
  { s with seam := { s.seam with peers := setAt s.seam.peers m x } }

/-- The other members of the group. -/
def seamOthers (s : State) : List Nat := (List.range s.seam.size).filter (· != s.seam.index)

/-- The next packet of a link, sealed under the link's session key unless it is HELLO or FORM (R305, R306). -/
def seamPacket (s : State) (l : Nat) (load : SeamLoad) : SeamPacket :=
  let x := seamLink s l
  { source := if s.seam.size = 0 then 0xFF else s.seam.index
    dest := x.peer, link := l, seq := x.txSeq, stamp := nowStamp s, key := if seamOpen load then [] else x.key, load := load }

/-- A packet leaves on a link. A protected packet whose sequence would reach 2^48 does not: its link renews its session first (R306). -/
def seamSend (s : State) (l : Nat) (load : SeamLoad) : State :=
  let x := seamLink s l
  let p := seamPacket s l load
  if !seamOpen load && decide (2 ^ 48 ≤ x.txSeq) then s
  else emit (seamLinkPut s l { x with txSeq := x.txSeq + 1 }) (.seam (seamHeader p) p (seamTag p))

/-- The lowest link in state UP to a member. -/
def seamLinkTo (s : State) (m : Nat) : Option Nat :=
  (List.range 4).find? (fun l => (seamLink s l).mode == .up && (seamLink s l).peer == m)

/-- A packet leaves to a member, on the lowest of its links that is up. -/
def seamTo (s : State) (m : Nat) (load : SeamLoad) : State :=
  match seamLinkTo s m with
  | none => s
  | some l => seamSend s l load

/-- A follower is in service: in sync and not lost (R313). -/
def inService (s : State) (m : Nat) : Bool := (seamPeer s m).inSync && !(seamPeer s m).lost

/-- The followers that count for a release. -/
def releaseSet (s : State) : List Nat := (seamOthers s).filter (inService s)

/-- Every follower in service has acknowledged the entries up to a sequence (R313). A primary whose witnesses are asked releases nothing until they
have answered (R323). -/
def seamReleased (s : State) (seq : Nat) : Bool :=
  !isPrimary s || (s.seam.probeAt.isNone && (releaseSet s).all (fun m => decide (seq ≤ (seamPeer s m).acked)))

/-- The sequence acknowledged by every follower in service. -/
def seamAcked (s : State) : Nat :=
  ((releaseSet s).map (fun m => (seamPeer s m).acked)).foldl min s.seam.applied

/-- The members for which the primary keeps its entries: those in service, and those that it resynchronises (R312, R329). -/
def keepSet (s : State) : List Nat := (seamOthers s).filter (fun m => inService s m || ((seamPeer s m).joining && !(seamPeer s m).lost))

/-- The sequence up to which no member needs an entry again. -/
def seamKept (s : State) : Nat := ((keepSet s).map (fun m => (seamPeer s m).acked)).foldl min s.seam.applied

/-- The journal buffer of 8 MiB is full (R312). -/
def journalFull (s : State) : Bool :=
  isPrimary s && decide (8388608 ≤ (s.seam.buffer.map (fun e => entrySize e.body)).foldl (· + ·) 0)

/-! ### Budgets (R318, R319) -/

/-- The links that are up. -/
def seamUp (s : State) : List Nat := (List.range 4).filter (fun l => (seamLink s l).mode == .up)

/-- Links up to the follower with fewer of them. -/
def seamMinLinks (s : State) : Nat :=
  let n (m : Nat) : Nat := ((seamUp s).filter (fun l => (seamLink s l).peer == m)).length
  match (seamOthers s).map n with
  | [] => 0
  | x :: t => t.foldl min x

/-- Budgets in Gb/s: streams, and other journal traffic (R318). -/
def seamBudgets (s : State) : Nat × Nat := (75 * seamMinLinks s, 10 * seamMinLinks s)

/-- What an entry counts as, in bytes: the payload of SEND entries for duplicated queues and of STREAM entries is stream traffic, and everything else
journal traffic (R318). -/
def entryLoad (s : State) (b : JBody) : Nat × Nat :=
  let split := (bodySize b, entrySize b - bodySize b)
  match b with
  | .stream .. => split
  | .send _ _ ctrs => if ctrs.any (fun x => (tblFind x.1 s.links.queues).any (·.dup)) then split else (0, entrySize b)
  | _ => (0, entrySize b)

/-- What was sent in the current interval of 10 µs, in bytes. -/
def windowUse (s : State) : Nat × Nat :=
  let w := s.seam.sent.filter (fun e => e.1 / (10 * cycUs) == s.time.clk / (10 * cycUs))
  ((w.map (·.2.1)).sum, (w.map (·.2.2)).sum)

/-- Traffic fits the budgets of the current interval; what is larger than a whole budget takes an interval by itself. One Gb/s is 1,250 B in 10 µs. -/
def budgetFits (s : State) (n : Nat × Nat) : Bool :=
  let u := windowUse s
  let fits (used more budget : Nat) : Bool := decide (more = 0 ∨ used = 0 ∨ used + more ≤ 1250 * budget)
  decide (seamMinLinks s = 0) || (fits u.1 n.1 (seamBudgets s).1 && fits u.2 n.2 (seamBudgets s).2)

/-- The load of the last 1 ms in Gb/s: `SEAM_LOAD` (Table 11-12). -/
def seamLoad (s : State) : Nat × Nat :=
  let w := s.seam.sent.filter (fun e => decide (s.time.clk < e.1 + cycMs))
  ((w.map (·.2.1)).sum / 125000, (w.map (·.2.2)).sum / 125000)

/-- An entry counts against the budgets. -/
def meterEntry (s : State) (b : JBody) : State :=
  let n := entryLoad s b
  { s with seam := { s.seam with sent := s.seam.sent.filter (fun e => decide (s.time.clk < e.1 + cycMs)) ++ [(s.time.clk, n.1, n.2)] } }

/-- An entry leaves to every other member that holds a session, in a packet of its own. -/
def serveEntry (s : State) (e : JEntry) : State := (seamOthers s).foldl (fun s m => seamTo s m (.journal [e])) (meterEntry s e.body)

/-- The entries that wait leave in order, as far as the budgets let them (R319). -/
def seamServe : Nat → State → State
  | 0, s => s
  | n + 1, s => match s.seam.unsent with
    | [] => s
    | e :: rest =>
      if budgetFits s (entryLoad s e.body) then seamServe n (serveEntry { s with seam := { s.seam with unsent := rest } } e) else s

/-- The primary writes an entry and sends it to every other member that holds a session, once the budgets let it (R311, R319, R325). -/
def jot (s : State) (slice : Nat) (release : Bool) (body : JBody) : State :=
  if !isPrimary s then s
  else
    let e : JEntry := { term := s.seam.term, seq := s.seam.nextSeq, release := release, slice := slice
                        stamp := nowStamp s, body := body }
    let reached := (seamOthers s).any (fun m => (seamLinkTo s m).isSome)
    let s1 := { s with seam := { s.seam with
      nextSeq := e.seq + 1, applied := e.seq, digest := entryDigest s s.seam.digest e
      buffer := if (keepSet s).isEmpty then s.seam.buffer else s.seam.buffer ++ [e]
      unsent := if reached then s.seam.unsent ++ [e] else s.seam.unsent } }
    seamServe s1.seam.unsent.length s1

/-- A list cut into parts of a length, each with its offset; at least one. -/
def partsOf (n : Nat) (bs : List Byte) : List (Nat × List Byte) :=
  (List.range (max 1 ((bs.length + n - 1) / n))).map (fun i => (i * n, (bs.drop (i * n)).take n))

/-- Input, or a payload, larger than a body is carried in several entries (R311). -/
def jotInput (s : State) (slice : Nat) (token : BitVec 64) (off : Nat) (bs : List Byte) : State :=
  (partsOf inputMax bs).foldl (fun s e => jot s slice false (.input token (off + e.1) e.2)) s

/-- The STREAM entries of a frame: the release waits for the last (R311, R313). -/
def jotStream (s : State) (slice q ctr app : Nat) (bs : List Byte) : State :=
  (partsOf streamMax bs).foldl (fun s e =>
    jot s slice true (.stream q ctr app (nowStamp s) (decide (e.1 + streamMax < bs.length)) e.2)) s

/-- The offset from which an INPUT entry carries output of its command: output larger than the body of a RESULT entry (DESIGN CHOICE, assumption 7). -/
def outputOff := 2 ^ 32

/-- The RESULT of a command that the primary alone executes, behind the INPUT entries that carry the output which its body does not take. -/
def jotResult (s : State) (slice : Nat) (token : BitVec 64) (status len : Nat) (extra : BitVec 64) (out : List Byte) : State :=
  let n := if out.length ≤ resultMax then 0 else out.length - resultMax
  jot (if n = 0 then s else jotInput s slice token outputOff (out.take n)) slice true (.result token status len extra (out.drop n))

/-- A pending entry set or removed; a primary journals it (R142). -/
def pendPut (s : State) (n : Nat) (x : Option PendEntry) : State :=
  let t := match x with
    | some e => tblPut n e s.keys.pend
    | none => tblDel n s.keys.pend
  jot { s with keys := { s.keys with pend := t } } 0xFFFF false (.pend n x)

end Sys2Proof.Machine
end

