-- ==== Sys2Proof/Machine/Operands.lean ====
section
/-! DEFINITION. The operand forms of the Tortin commands: the fields of the 64 B layout (Table 3-1, Table 3-2), who
issued a command, its input and its output, and how a command ends (spec 03). -/

namespace Sys2Proof.Machine

/-! ### Fields of a command (Table 3-1) -/

def bodyOp (b : List Byte) : Nat := leAt b 0 2
def bodyFlags (b : List Byte) : Nat := leAt b 2 2
def bodyToken (b : List Byte) : BitVec 64 := BitVec.ofNat 64 (leAt b 8 8)
def bodyInLen (b : List Byte) : Nat := leAt b 32 4
def bodyInline (b : List Byte) : Bool := bitN (bodyFlags b) 3

def cOp (c : Cmd) : Nat := bodyOp c.body
def cFlags (c : Cmd) : Nat := bodyFlags c.body
def cFence (c : Cmd) : Bool := bitN (cFlags c) 0
def cAlarm (c : Cmd) : Bool := bitN (cFlags c) 1
def cIrq (c : Cmd) : Bool := bitN (cFlags c) 2
def cInline (c : Cmd) : Bool := bitN (cFlags c) 3
def cKeyA (c : Cmd) : Nat := leAt c.body 4 4
def cToken (c : Cmd) : BitVec 64 := bodyToken c.body
def cDeadline (c : Cmd) : Nat := leAt c.body 16 8
def cInAddr (c : Cmd) : Nat := leAt c.body 24 8
def cInLen (c : Cmd) : Nat := bodyInLen c.body
def cKeyB (c : Cmd) : Nat := leAt c.body 36 4
def cOutAddr (c : Cmd) : Nat := leAt c.body 40 8
def cOutCap (c : Cmd) : Nat := leAt c.body 48 4

/-- `n` bytes of the parameters, by command byte (52 to 63). -/
def par (c : Cmd) (off n : Nat) : Nat := leAt c.body off n

/-- The listed byte ranges of the parameters are zero: the fields a family does not name are reserved (R5). -/
def parZero (c : Cmd) (rs : List (Nat × Nat)) : Bool := rs.all (fun r => decide (par c r.1 r.2 = 0))

/-- Neither key handle is given. -/
def noKeys (c : Cmd) : Bool := decide (cKeyA c = 0 ∧ cKeyB c = 0)

/-! ### Issuer -/

/-- The slice that issued a command; none for the front mailbox. -/
def cSlice (c : Cmd) : Option Nat :=
  match c.origin with
  | .ring n _ _ => some n
  | .mailbox _ => none

/-- The command came through the front mailbox. -/
def cMbx (c : Cmd) : Bool := (cSlice c).isNone

/-- The issuing owner: a mailbox command acts with the rights of owner 0 (R79). -/
def cOwner (s : State) (c : Cmd) : Nat :=
  match cSlice c with
  | some n => (sliceGet s n).owner
  | none => 0

/-- The PCIe function through which the command arrived. -/
def cFn (s : State) (c : Cmd) : Nat :=
  match c.origin with
  | .ring n _ _ => (sliceGet s n).port
  | .mailbox p => p

/-- A slice field of a parameter: 0xFFFF means the issuing slice (R356). -/
def sliceField (c : Cmd) (v : Nat) : Nat := if v = 0xFFFF then (cSlice c).getD 0xFFFF else v

/-- Common status codes (Table 3-5). -/
def stOk := 0x0000
def stOkDup := 0x0001
def stUntrusted := 0x0002
def stBusy := 0x0010
def stDeadline := 0x0011
def stAborted := 0x0012
def stDenied := 0x0020
def stQuorum := 0x0021
def stLocked := 0x0022
def stExhausted := 0x0023
def stExpired := 0x0024
def stBadCommand := 0x0030
def stBadHandle := 0x0031
def stBadLength := 0x0032
def stBadPoint := 0x0033
def stTokenConflict := 0x0034
def stNoEntropy := 0x0040
def stSecDown := 0x0041
def stSeamDiverged := 0x0050
def stHostFault := 0x0060
def stInternal := 0x00FF

/-! ### The tracker -/

/-- The place that holds the mailbox's command (R75). -/
def mbxTag := 16384

/-- The command at a place of the tracker. -/
def cmdAt (s : State) (tag : Nat) : Option Cmd := tblFind tag s.tortin.tracker

/-- A place of the tracker set. -/
def cmdPut (s : State) (tag : Nat) (c : Cmd) : State :=
  { s with tortin := { s.tortin with tracker := tblPut tag c s.tortin.tracker } }

/-- A command that leaves check 11 takes its hybrid operation out of Mangle's waiting queue (R181). -/
def queueDrop (s : State) (tag : Nat) : State :=
  if (cmdAt s tag).any (·.queued) then
    { s with mangle := { s.mangle with waiting := s.mangle.waiting.filter (fun w => w.op.src != .cmd tag 0) } }
  else s

/-- A place of the tracker freed. -/
def cmdDel (s0 : State) (tag : Nat) : State :=
  let s := queueDrop s0 tag
  { s with tortin := { s.tortin with tracker := tblDel tag s.tortin.tracker, drain := s.tortin.drain.filter (· != tag) } }

/-- Commands of a slice in the tracker, held repeats included (`SLC_STATE.INFLIGHT`). -/
def inFlight (s : State) (n : Nat) : Nat := tblCount (fun c => cSlice c == some n) s.tortin.tracker

/-- A command ends; a command that ends before execution start returns its approval (R64, R139). Its status, its result length and its extra result wait for the completion write. An alarm-class
command that ends with another status than `OK` or `OK_DUPLICATE` is recorded (R526). -/
def endCmd (s00 : State) (tag : Nat) (status : Nat) (before : Bool) (len : Nat := 0) (extra : BitVec 64 := 0) : State :=
  let s := if before then queueDrop s00 tag else s00
  match cmdAt s tag with
  | none => s
  | some c =>
    let s0 := if before then
        match c.approval with
        | none => s
        | some n => match tblFind n s.keys.pend with
          | none => s
          | some e => pendPut s n (some { e with reserved := none })
      else s
    let s1 := cmdPut s0 tag { c with
      stage := .ended, freeTok := before, placed := none, queued := false
      comp := { status := status, dup := false, len := len, stamp := nowStamp s, extra := extra } }
    if cAlarm c && status != stOk && status != stOkDup then
      tallyPut s1 agCp 0x0186 [(2, (cSlice c).getD 0xFFFF), (0x0A, status)]
    else s1

/-- A command ends before execution start: no effect, its token is freed (R64, R67). -/
def endBefore (s : State) (tag status : Nat) (len : Nat := 0) : State := endCmd s tag status true len

/-- A started command ends with a status after execution start: its token is recorded (R67). -/
def endAfter (s : State) (tag status : Nat) (len : Nat := 0) (extra : BitVec 64 := 0) : State :=
  endCmd s tag status false len extra

/-- A started command ends with `OK`. -/
def endOk (s : State) (tag : Nat) (len : Nat := 0) (extra : BitVec 64 := 0) : State := endAfter s tag stOk len extra

/-- A started command ends with `INTERNAL`: a record of severity FAULT names the error (R80). -/
def endFault (s : State) (tag : Nat) : State := tallyPut (endAfter s tag stInternal) agCp 0x0181 [(0x0A, stInternal), (0x12, agCp)]

/-- A 64-bit extra result from bytes 24–27 and 28–31. -/
def extra2 (lo hi : Nat) : BitVec 64 := BitVec.ofNat 64 (lo % 2 ^ 32 + 2 ^ 32 * (hi % 2 ^ 32))

/-- The mailbox's short output, `MBX_RSP8` to `MBX_RSP15` (R78). -/
def putShort (s : State) (bs : List Byte) : State :=
  (List.range 8).foldl (fun s i => regPut s (aMbxRsp + 0x20 + 4 * i) (BitVec.ofNat 32 (leAt bs (4 * i) 4))) s

/-- A command writes its output: to host memory, or to the mailbox's response words (R78). A follower's copy of a
command writes nothing (R310). -/
def putOutput (s : State) (c : Cmd) (bs : List Byte) : State :=
  if c.mirror then s else
  match c.origin with
  | .ring n _ _ => if bs.isEmpty then s else hostWrite s n (cOutAddr c) bs
  | .mailbox p =>
    if bs.isEmpty then s
    else if cOutAddr c = 0 ∧ 1 ≤ cOutCap c ∧ cOutCap c ≤ 32 then putShort s bs
    else if hostSilent s || !fnLive s p then s else emit s (.hostWrite p none (cOutAddr c) bs)

/-- The output goes to the mailbox's response words (R78). -/
def shortOut (c : Cmd) : Bool := cMbx c && decide (cOutAddr c = 0 ∧ 1 ≤ cOutCap c ∧ cOutCap c ≤ 32)

/-- The output of a command is taken: it needs no host memory, or its function is live and the host takes it (R80, R564). -/
def outTaken (s : State) (c : Cmd) (io : HostIO) (bs : List Byte) : Bool :=
  bs.isEmpty || c.mirror || shortOut c || hostSilent s || (io.outOk && fnLive s (cFn s c))

/-- A started command writes its output and ends: `HOST_FAULT` when the output write fails after the retries, with the
command's effect in place (R80). A primary holds the output back until its journal entries are acknowledged (R313). -/
def endOut (s : State) (tag : Nat) (io : HostIO) (bs : List Byte) (status : Nat := stOk) (extra : BitVec 64 := 0) :
    State :=
  match cmdAt s tag with
  | none => s
  | some c =>
    if (s.seam.role = .primary || c.mirror) && outTaken s c io bs then
      endAfter (cmdPut s tag { c with out := bs }) tag status bs.length extra
    else if outTaken s c io bs then endAfter (putOutput s c bs) tag status bs.length extra
    else endAfter s tag stHostFault

/-- The input of a started command: inline, the copy read before execution start, or what the host answers now; none
when the read fails after the retries. -/
def inputOf (c : Cmd) (io : HostIO) : Option (List Byte) :=
  if cInLen c = 0 then some []
  else if cInline c then some (bytesAt c.inlined 0 (cInLen c))
  else match c.copy with
    | some bs =>
      if !c.heads.isEmpty then
        match io.input with
        | .data ds => some ((bytesAt ds 0 (cInLen c)).mapIdx (fun i b =>
            if c.heads.any (fun h => decide (h ≤ i ∧ i < h + 16)) then bs.getD i 0 else b))
        | .fault => none
      else if cInLen c ≤ bs.length then some (bytesAt bs 0 (cInLen c))
      else match io.input with
        | .data ds => some (bs ++ (bytesAt ds 0 (cInLen c)).drop bs.length)
        | .fault => none
    | none => match io.input with
      | .data bs => some (bytesAt bs 0 (cInLen c))
      | .fault => none

/-- What a command's read of its input meets: nothing is read through a function that is not live (R564), and a follower
reads nothing (R310). -/
def liveIO (s : State) (c : Cmd) (io : HostIO) : HostIO :=
  if fnLive s (cFn s c) && !hostSilent s then io else { input := .fault, outOk := io.outOk }

/-- The slice field of the journal entries of a command (Table 11-4). -/
def jslice (c : Cmd) : Nat := (cSlice c).getD 0xFFFF

/-- The input of an approved command has the digest that was approved (R140). -/
def inputApproved (c : Cmd) (bs : List Byte) : Bool := c.expect.all (fun e => bytesAt (Config.sha384 bs) 0 48 == e.2)

/-- An approved command whose input differs from the approved one ends with `APPROVAL_INPUT_MISMATCH` and no effect (R140). -/
def inputMismatch (s : State) (tag : Nat) (c : Cmd) : State :=
  tallyPut (endAfter s tag 0x0305) agCp 0x0305 [(1, cOwner s c), (0x0C, (c.expect.map (·.1)).getD 0), (2, jslice c)]

/-- Runs a command that has started and carries the opcode `op`; a command row whose place holds no such command
changes nothing. A command without an input is compared with its approval here (R140). -/
def runCmd (s : State) (tag op : Nat) (f : Cmd → State → State) : Host.Outcome State Fault Refusal :=
  match cmdAt s tag with
  | some c =>
    if c.stage = .started ∧ cOp c = op ∧ c.due = false ∧ procRuns s = true then .next (if cInLen c = 0 && !inputApproved c [] then inputMismatch s tag c else f c s)
    else .next s
  | none => .next s

/-- The working data of a command in several steps set. -/
def setWork (s : State) (tag : Nat) (w : Work) : State :=
  match cmdAt s tag with
  | none => s
  | some c => cmdPut s tag { c with work := w }

/-! ### What Tortin checks before a command starts (Table 3-4) -/

/-- What a command's row of the catalogue and its family say of the checks 2 to 11. -/
structure CmdSpec where
  /-- check 2: the fields that must be zero are zero; the other fields are well formed; and what the part of the input
  read before execution start must satisfy (R5, R561) -/
  zero     : Bool := true
  form     : Bool := true
  formIn   : Bool := true
  /-- check 3: the limits of the input length, the other length parameters, and the largest output -/
  inMin    : Nat := 0
  inMax    : Nat := 0
  lens     : Bool := true
  outMax   : Nat := 0
  /-- the largest output depends on a key object: its test is among those of check 7 (R64) -/
  out7     : Bool := false
  /-- check 6 -/
  issuer   : Bool := true
  /-- check 7: it names key handles or needs a key object; what the check finds: `OK`, or the status that ends it -/
  needsKeys : Bool := false
  at7      : Nat := 0
  /-- handles of counted keys of which it reserves a use (R112) -/
  uses     : List Nat := []
  /-- check 8: keys it needs in an engine cache: engine 1 Press, 2 Mangle, and the handle; a mailbox operation -/
  binds    : List (Nat × Nat) := []
  thm      : Bool := false
  /-- the flags that the entries of these keys need, tested again at the start (R162) -/
  usage    : Nat := 0
  /-- check 9: owner and class of the quorum it needs on a ring -/
  quorum   : Option (Nat × Nat) := none
  /-- check 10: it consumes randomness from Bobbin -/
  entropy  : Bool := false
  /-- a status of the family that ends it before execution start -/
  early    : Nat := 0
  /-- a status that is tested in the command's turn, at check 11 (R168) -/
  late     : Nat := 0
  /-- check 11: slots of the object it creates; nothing else makes it wait -/
  place    : Option Nat := none
  free     : Bool := true
  /-- bytes of the input part read before check 2 (Table 3-11), or the least that such a part takes -/
  preread  : Nat := 0
  deriving DecidableEq, Repr

/-- Quorum classes (spec 05). -/
def qOwnerAdmin := 1
def qKeyMgmt := 2
def qProgram := 3
def qCustodian := 4

end Sys2Proof.Machine
end

