-- ==== Sys2Proof/Machine/Flags.lean ====
section
/-! DEFINITION. The status words computed from the state: event registers, and the words that a read of a status register
builds from what the blocks hold (spec 03, 15, 18, 19). -/

namespace Sys2Proof.Machine

/-- A write of (S, mask) to a clear register: the new status word, or none when `SEQ` differs (R434). -/
def sqcClear (w v : Word) : Option Word :=
  if fieldOf w 31 24 = fieldOf v 31 24 then some (w &&& ~~~ (v &&& maskOf 23 0)) else none

/-- `SLC_INFO` (Table 3-7). -/
def slcInfo (x : Slice) : Word :=
  BitVec.ofNat 32 (x.owner * 2 ^ 22 + b2n (x.mode != .unbound) * 2 ^ 21 + x.port * 2 ^ 20 + x.pasid)

/-- `SLC_STATE` (Table 3-7). -/
def slcState (s : State) (n : Nat) : Word :=
  let x := sliceGet s n
  BitVec.ofNat 32 (inFlight s n * 2 ^ 16 + b2n x.alarmOk * 8 + x.mode.code)

end Sys2Proof.Machine
end

