-- ==== Sys2Proof/Machine/Registers.lean ====
section
/-! DEFINITION. The shared operations of register accesses: decoding, complement pairs, sequence clears and the stored
value that a write leaves (spec 15, R422 to R435). -/

namespace Sys2Proof.Machine

/-- Where an access of a requester to an internal address lands. -/
inductive Site where
  /-- no register there, for this requester (R13, R16) -/
  | nowhere
  /-- an unassigned range of BAR0: it reads zero, and a write there has no effect and is counted (R16, R424) -/
  | empty
  /-- an offset that the block does not list, or an upper offset that is no guard port (R426, R427) -/
  | hole (b : Blk)
  /-- a listed register: its listed address and its description -/
  | reg (b : Blk) (addr : Nat) (d : RegDesc)
  /-- the guard port of the `CPW` register at a listed address -/
  | guard (b : Blk) (addr : Nat) (d : RegDesc)
  deriving DecidableEq, Repr

/-- Offset within the `PCI` block that a requester reaches: a PCIe function reaches its own port's registers only, at
0x000 to 0x027 (R438). -/
def pciOffset (r : Requester) (off : Nat) : Option Nat :=
  match r with
  | .fn p => if off < 0x40 then some (off + 0x40 * p) else none
  | _ => some off

/-- Decoding of an access (R15, R16, R426, R427, R438). -/
def resolve (r : Requester) (a : Nat) : Site :=
  match blkOf a with
  | none => if 0x80000000 ≤ a ∧ a < 0x81000000 then .empty else .nowhere
  | some b =>
    if r.isHost && blkInternal b then .nowhere
    else match land b (a - blkBase b) with
      | .lower o =>
        match (if b = .pci then pciOffset r o else some o) with
        | none => .hole b
        | some o1 => match regDesc b o1 with
          | none => .hole b
          | some d => .reg b (blkBase b + o1) d
      | .upper o =>
        match regDesc b o with
        | none => .hole b
        | some d => if d.acc = .cpw then .guard b (blkBase b + o) d else .hole b

/-- An access of an internal agent to an unmapped address gives it a bus error: for the CP a data-access
exception (R13), of which the block keeps that it was taken. A Needle core's exception and a DMA channel's halt are taken where their accesses
are made. -/
def busErr (s : State) (r : Requester) : State :=
  if r = .cp then { s with dev := { s.dev with cpExc := s.dev.cpExc + 1 } } else s

/-- The pair pending in a block (R432). -/
def pairOf (s : State) (b : Blk) : Option Pair := tblGet none s.regs.pairs (blkBase b)

/-- The pair pending in a block set. -/
def setPair (s : State) (b : Blk) (p : Option Pair) : State :=
  { s with regs := { s.regs with pairs := tblSet none (blkBase b) p s.regs.pairs } }

/-- A pair fails: event, count and capture (R433, Table 15-3). -/
def guardFail (s : State) (req : Nat) (b : Blk) (addr cause : Nat) : State :=
  let s1 := sqcSet (regAdd s aDevGuardFail 1) aDevEvt 0
  regPut s1 aDevGuardInfo (BitVec.ofNat 32 (cause * 2 ^ 28 + req * 2 ^ 26 + b2n (blkInternal b) * 2 ^ 24 +
    blkCode b % 256 * 2 ^ 16 + (addr - blkBase b) % 2 ^ 16))

/-- Airing cycles in the 10 µs of a complement pair (R432). -/
def pairCycles := 10 * cycUs

/-- A host write to a `CPW` register of a block arrives, and keeps Tortin out of the block for 10 µs (R18). -/
def noteHostCpw (s : State) (r : Requester) (b : Blk) : State :=
  if r.isHost then { s with regs := { s.regs with hostCpw := tblSet none (blkBase b) (some s.time.clk) s.regs.hostCpw } } else s

/-- Tortin writes nothing to a block: a host wrote to a `CPW` register of it within the last 10 µs (R18). -/
def hostPair (s : State) (b : Blk) : Bool :=
  (tblGet none s.regs.hostCpw (blkBase b)).any (fun t => decide (s.time.clk < t + pairCycles))

/-- A pair whose 10 µs have passed is discarded (R433, cause 2). -/
def expirePair (s : State) (b : Blk) : State :=
  match pairOf s b with
  | none => s
  | some p => if pairCycles < s.time.clk - p.at_ then guardFail (setPair s b none) p.req b p.addr 2 else s

/-- A write arrives at a block and is not the guard write that ends its pair: a pair pending there fails (R433,
cause 3). -/
def arrive (s : State) (b : Blk) : State :=
  let s1 := expirePair s b
  match pairOf s1 b with
  | none => s1
  | some p => guardFail (setPair s1 b none) p.req b p.addr 3

/-- A value write to a `CPW` register begins a pair (R432). -/
def beginPair (s : State) (r : Requester) (b : Blk) (addr : Nat) (v : Word) : State :=
  setPair (arrive s b) b (some { req := r.cls, addr := addr, value := v, at_ := s.time.clk })

/-- A guard write of `v` for the register at `addr`: the value that the pair commits, or none, and the state with the
pair ended (R432, R433). -/
def guardWrite (s : State) (r : Requester) (b : Blk) (addr : Nat) (v : Word) : Option Word × State :=
  let s1 := expirePair s b
  match pairOf s1 b with
  | some p =>
    if p.addr = addr then
      if v = p.value ^^^ 0xFFFFFFFF#32 then (some p.value, setPair s1 b none)
      else (none, guardFail (setPair s1 b none) r.cls b addr 1)
    else (none, guardFail (arrive s1 b) r.cls b addr 4)
  | none => (none, guardFail s1 r.cls b addr 4)

/-- The bits of a register that a write takes: in the Maker state its reserved `RWP` bits are among them (R422, R423). -/
def writeMask (s : State) (d : RegDesc) : Word := if lcState s = 0 then d.wmask ||| d.rwp else d.wmask

/-- The value that a register holds after a write of `v`: only the bits that a write takes change. Reserved `RWP` bits keep their value, but in the
Maker state, where the written value takes effect: it is stored, and changes nothing else (R422, R423, assumption 15). -/
def mergeWrite (s : State) (old v : Word) (d : RegDesc) : Word :=
  (old &&& ~~~ (writeMask s d)) ||| (v &&& writeMask s d)

/-- What a read shows of a register's reserved `RWP` bits: zero, except in the Maker state (Table 15-1). -/
def rwpShown (s : State) (w : Word) (d : RegDesc) : Word := if lcState s = 0 then w else w &&& ~~~ d.rwp

/-- A sequence clear at the status register `a` (R434). -/
def sqcClearAt (s : State) (a : Nat) (v : Word) : State :=
  match sqcClear (regGet s a) v with
  | some w => regPut s a w
  | none => sqcMiss s

/-- A latched high half for a requester's class (R28, R425). -/
def latchPut (s : State) (r : Requester) (hi : Nat) (v : Word) : State :=
  { s with regs := { s.regs with latch := tblSet 0 (2 ^ 40 * r.cls + hi) v s.regs.latch } }

/-- The latched high half of a requester's class. -/
def latchGet (s : State) (r : Requester) (hi : Nat) : Word := tblGet 0 s.regs.latch (2 ^ 40 * r.cls + hi)

/-- A wide window of a requester's class: `k` is 0 for `HMP` and 1 for `QUE` (R435). -/
def wideGet (s : State) (r : Requester) (k : Nat) : WideWin := tblGet {} s.regs.wide (2 * r.cls + k)

/-- A wide window set. -/
def widePut (s : State) (r : Requester) (k : Nat) (w : WideWin) : State :=
  { s with regs := { s.regs with wide := tblSet {} (2 * r.cls + k) w s.regs.wide } }

end Sys2Proof.Machine
end

