-- ==== Sys2Proof/Machine/SeamBase.lean ====
section
/-! DEFINITION. A command's journal entries and the reading of its input (spec 03, R62, R561; spec 05, R140; spec 11, R311). -/

namespace Sys2Proof.Machine

/-- A command's copy of its input is kept, and a primary journals it (R62, R140, R311). -/
def keepInput (s : State) (tag : Nat) (c : Cmd) (bs : List Byte) : State :=
  match c.copy with
  | some old => if bs.length ≤ old.length && c.heads.isEmpty then s else
    jotInput (cmdPut s tag { c with copy := some bs, heads := [] }) (jslice c) (cToken c) 0 bs
  | none => if bs.isEmpty then s else
    jotInput (cmdPut s tag { c with copy := some bs }) (jslice c) (cToken c) 0 bs

/-- Runs a started command that reads its input: a failed read ends it with `HOST_FAULT`; an approved command whose input
differs from the approved one ends with `APPROVAL_INPUT_MISMATCH` and no effect (R140). -/
def runIn (s : State) (tag op : Nat) (io : HostIO) (f : Cmd → List Byte → State → State) :
    Host.Outcome State Fault Refusal :=
  runCmd s tag op (fun c s =>
    match inputOf c (liveIO s c io) with
    | none => endAfter s tag stHostFault
    | some bs =>
      if inputApproved c bs then
        let c1 := { c with expect := none }
        f c1 bs (keepInput (cmdPut s tag c1) tag c1 bs)
      else inputMismatch s tag c)

end Sys2Proof.Machine
end

