-- ==== Sys2Proof/Machine/Keys.lean ====
section
/-! DEFINITION. The key store: key types and attributes, handles, placement, use counters, engine caches, the root
derivation (spec 04). -/

namespace Sys2Proof.Machine

/-- An ASCII string as bytes. -/
def ascii (t : String) : List Byte := t.toList.map (fun c => BitVec.ofNat 8 c.toNat)

/-! ### Types and attributes (R90 to R93) -/

/-- Stored bytes of a key of a type and size; none for a type or size that Table 4-2 does not list. -/
def keyBytes (t size : Nat) : Option Nat :=
  let fixed (n : Nat) : Option Nat := if size = 0 then some n else none
  let rsa (n : Nat) : Option Nat := if 2048 ≤ size ∧ size ≤ 8192 ∧ size % 64 = 0 then some n else none
  match t with
  | 0x01 => fixed 16
  | 0x02 => fixed 32
  | 0x03 => if size = 0 then some 32 else if 32 ≤ size ∧ size ≤ 64 then some size else none
  | 0x04 => if size = 0 then some 48 else if 48 ≤ size ∧ size ≤ 128 then some size else none
  | 0x05 => fixed 32
  | 0x10 => fixed 96
  | 0x11 => fixed 144
  | 0x12 => fixed 198
  | 0x13 => fixed 64
  | 0x14 => fixed 64
  | 0x15 => fixed 112
  | 0x16 => fixed 114
  | 0x20 => rsa (size / 8 * 7 / 2 + 8)
  | 0x30 => fixed 64
  | 0x31 => fixed 64
  | 0x38 => fixed 32
  | 0x39 => fixed 32
  | 0x40 => if 16 ≤ size ∧ size ≤ 4032 then some size else none
  | 0x41 => fixed 32
  | 0x90 => fixed 65
  | 0x91 => fixed 97
  | 0x92 => fixed 133
  | 0x93 => fixed 32
  | 0x94 => fixed 32
  | 0x95 => fixed 56
  | 0x96 => fixed 57
  | 0xA0 => rsa (size / 8 + 8)
  | 0xB0 => fixed 1184
  | 0xB1 => fixed 1568
  | 0xB8 => fixed 1952
  | 0xB9 => fixed 2592
  | _ => none

/-- The number of a signature scheme for the uninterpreted signature functions: key pair type, classical scheme of Table 7-6
(5 for ML-DSA), hash, whether the input is the digest, salt length. -/
def sigScheme (t cls hash : Nat) (pre : Bool) (salt : Nat) : Nat :=
  t + 2 ^ 8 * cls + 2 ^ 16 * hash + 2 ^ 24 * b2n pre + 2 ^ 32 * salt

/-- Slots of an object: its stored bytes and a 64 B header, in slots of 128 B (R90). -/
def keySlots (t size : Nat) : Nat := ((keyBytes t size).getD 0 + 64 + 127) / 128

/-- A public type code (R90). -/
def isPublicType (t : Nat) : Bool := decide (0x90 ≤ t ∧ t ≤ 0xB9)

def kEnc := 0x001
def kDec := 0x002
def kSign := 0x004
def kVerify := 0x008
def kMac := 0x010
def kDerive := 0x020
def kAgree := 0x040
def kUnwrap := 0x080
def kLink := 0x100
def kContinuity := 9
def kExpire := 10
def kPersist := 11
def kCounted := 12
def kQuorumUse := 13

/-- Usage flags permitted per type (Table 4-4). -/
def keyUsage (t : Nat) : Nat :=
  match t with
  | 0x01 => kEnc + kDec + kMac + kUnwrap
  | 0x02 => kEnc + kDec + kMac + kDerive + kUnwrap + kLink
  | 0x03 | 0x04 => kMac + kDerive
  | 0x05 => kEnc + kDec
  | 0x10 | 0x11 | 0x12 => kSign + kVerify + kAgree
  | 0x13 | 0x15 => kAgree
  | 0x14 | 0x16 | 0x20 | 0x38 | 0x39 => kSign + kVerify
  | 0x30 | 0x31 => kDec
  | 0x40 => kDerive
  | 0x41 => kDerive + kLink
  | 0x90 | 0x91 | 0x92 => kVerify + kAgree
  | 0x93 | 0x95 => kAgree
  | 0x94 | 0x96 | 0xA0 | 0xB8 | 0xB9 => kVerify
  | 0xB0 | 0xB1 => kEnc
  | _ => 0

/-- Every set bit of `a` is set in `b`, over 32 bits. -/
def subMask (a b : Nat) : Bool := (List.range 32).all (fun i => !bitN a i || bitN b i)

/-- Attributes and use limit that R91 to R93 permit for a type. -/
def attrsOk (t attrs limit : Nat) : Bool :=
  let usage := attrs % 512
  decide (attrs < 2 ^ 14) && decide (usage ≠ 0) && subMask usage (keyUsage t) &&
  !(isPublicType t && (bitN attrs kCounted || bitN attrs kQuorumUse)) &&
  !(bitN attrs kPersist && bitN attrs kExpire) && !(bitN attrs kContinuity && bitN attrs kQuorumUse) &&
  !(bitN attrs 8 && bitN attrs kExpire) && !(bitN attrs 7 && decide (usage ≠ kUnwrap)) &&
  (bitN attrs kCounted == decide (limit ≠ 0))

/-! ### Handles and objects (R87, R96, R119) -/

/-- The first owner-region slot, and the slot past the last (R86). -/
def slotFirst := 0x0500
def slotEnd := 0x10000

/-- The handle of an object at a slot. -/
def keyHandle (slot : Nat) (o : KeyObj) : Nat := 2 ^ 22 * o.owner + 2 ^ 6 * slot + o.gen

/-- First slot that a handle names. -/
def handleSlot (h : Nat) : Nat := h / 2 ^ 6 % 2 ^ 16

/-- The live object that a handle names. -/
def keyOf (s : State) (h : Nat) : Option KeyObj :=
  match tblFind (handleSlot h) s.keys.objs with
  | none => none
  | some o => if keyHandle (handleSlot h) o = h then some o else none

/-- Type of a live object. -/
def typeOf (s : State) (h : Nat) : Nat := ((keyOf s h).map (·.ktype)).getD 0

/-- The object that a handle names for a command of an owner: live, of that owner, and not refused by an accepted
`KEY.DESTROY` (R87, R96, R119). -/
def keyFor (s : State) (owner h : Nat) : Option KeyObj :=
  match keyOf s h with
  | none => none
  | some o => if o.owner = owner ∧ o.destroying.isNone then some o else none

/-- An object set at its slot; a primary journals it (R111). -/
def keyPut (s : State) (slot : Nat) (o : KeyObj) : State :=
  jot { s with keys := { s.keys with objs := tblPut slot o s.keys.objs } } 0xFFFF false (.key slot (some o))

/-- Generation of a slot (R87). -/
def slotGen (s : State) (slot : Nat) : Nat := tblGet 1 s.keys.gens slot

/-- The generation after the present one: from 63 to 1, never 0. -/
def genNext (g : Nat) : Nat := if 63 ≤ g then 1 else g + 1

/-- A handle leaves every engine cache (R116, R398). -/
def cachePurge (s : State) (h : Nat) : State :=
  { s with keys := { s.keys with
    pressKeys := s.keys.pressKeys.filter (fun e => e.handle != h)
    mangleKeys := s.keys.mangleKeys.filter (fun e => e.handle != h) } }

/-- Every cache entry of a handle takes new flags: in the general cache, in Mangle's, and in the link entries of the queues that the key is given to
(R116). -/
def cacheFlags (s : State) (h flags : Nat) : State :=
  let f (e : CacheEnt) : CacheEnt := if e.handle = h then { e with flags := flags } else e
  let g (q : Queue) : Queue := if q.key = h then { q with flags := flags, cont := bitN flags kContinuity } else q
  { s with
    keys := { s.keys with pressKeys := s.keys.pressKeys.map f, mangleKeys := s.keys.mangleKeys.map f }
    links := { s.links with queues := tblMap g s.links.queues } }

/-- An entry of a handle that is used. -/
def entTouch (n h : Nat) (e : CacheEnt) : CacheEnt := if e.handle = h then { e with used := n } else e

/-- A use of a handle's entries makes them the most recently used of their caches (R161, R185). -/
def cacheUse (s : State) (h : Nat) : State :=
  let n := s.keys.useCount + 1
  { s with keys := { s.keys with
    useCount := n, pressKeys := s.keys.pressKeys.map (entTouch n h), mangleKeys := s.keys.mangleKeys.map (entTouch n h) } }

/-- The entry of a handle in an engine's cache: 1 Press, 2 Mangle. -/
def cacheEnt (s : State) (engine h : Nat) : Option CacheEnt :=
  (if engine = 1 then s.keys.pressKeys else s.keys.mangleKeys).find? (fun e => e.handle == h)

/-- The engine's own entry has the flags that an operation needs (R162). -/
def cacheAllows (s : State) (engine h usage : Nat) : Bool := (cacheEnt s engine h).any (fun e => subMask usage e.flags)

/-- Stored bytes of the private part of a pair; 0 where only a seed or the CRT form is stored. -/
def privLen (t : Nat) : Nat :=
  match t with
  | 0x10 => 32
  | 0x11 => 48
  | 0x12 => 66
  | 0x13 | 0x14 => 32
  | 0x15 => 56
  | 0x16 => 57
  | _ => 0

/-- The private part of the held form of a key. -/
def privPart (t : Nat) (m : List Byte) : List Byte := if privLen t = 0 then m else bytesAt m 0 (privLen t)

/-- What the key port's seed expander writes beside a seed (R184); nothing for another key. -/
def seedForm (t : Nat) (m : List Byte) : List Byte :=
  if [0x30, 0x31, 0x38, 0x39].contains t then Config.expandSeed t m else []

/-- The secret operand that the key port gives for a handle (R183): the private part of the entry bound in Mangle's cache, for a seed what it was
expanded to; nothing for a key that no entry holds. -/
def privAt (s : State) (h : Nat) : List Byte :=
  match cacheEnt s 2 h with
  | some e => if e.expanded.isEmpty then privPart e.ktype e.material else e.expanded
  | none => []

/-- An object ends: slots zeroed, caches purged, generation advanced (R87, R94, R96). -/
def keyErase (s : State) (slot : Nat) : State :=
  match tblFind slot s.keys.objs with
  | none => s
  | some o =>
    let s1 := cachePurge s (keyHandle slot o)
    jot { s1 with keys := { s1.keys with
      objs := tblDel slot s1.keys.objs, gens := tblSet 1 slot (genNext o.gen) s1.keys.gens } } 0xFFFF false (.key slot none)

/-! ### Placement and quotas (R88, R89, R118) -/

/-- Slots in use, as first slot and count: objects, and slots taken at check 11 by commands in the tracker. -/
def slotRuns (s : State) : Tbl Nat :=
  let objs := s.keys.objs.map (fun e => (e.1, e.2.slots))
  s.tortin.tracker.foldl (fun t e => match e.2.placed with
    | some (a, n) => tblPut a n t
    | none => t) objs

/-- The free runs of the owner region, as first slot and length, rising. -/
def freeRuns : Tbl Nat → Nat → List (Nat × Nat)
  | [], at_ => if at_ < slotEnd then [(at_, slotEnd - at_)] else []
  | (a, n) :: t, at_ => (if at_ < a then [(at_, a - at_)] else []) ++ freeRuns t (a + n)

/-- The smallest free run that fits, the lowest among equals (R88). -/
def placeSlots (s : State) (n : Nat) : Option Nat :=
  ((freeRuns (slotRuns s) slotFirst).foldl (fun (b : Option (Nat × Nat)) r =>
    if r.2 < n then b
    else match b with
      | none => some r
      | some x => if r.2 < x.2 then some r else b) none).map (·.1)

/-- Key slots charged to a slice: its objects, and what its commands have taken at check 11 (R89). -/
def slotsCharged (s : State) (slice : Nat) : Nat :=
  (s.keys.objs.map (fun e => if e.2.slice = slice then e.2.slots else 0)).foldl (· + ·) 0 +
  (s.tortin.tracker.map (fun e => match e.2.placed with
    | some (a, n) => if cSlice e.2 = some slice ∧ (tblFind a s.keys.objs).isNone then n else 0
    | none => 0)).foldl (· + ·) 0

/-- The status that placing `n` slots for a command gives: the quota is tested first (R118). -/
def placeStatus (s : State) (c : Cmd) (n : Nat) : Nat :=
  let tooMany := match cSlice c with
    | some x => decide ((sliceGet s x).quota < slotsCharged s x + n)
    | none => false
  if tooMany then 0x0402 else if (placeSlots s n).isNone then 0x0401 else stOk

/-! ### Use counters (R112, R113) -/

/-- The key's uses are drawn from leases: persistent, or in a Seam group (R113). -/
def leased (s : State) (o : KeyObj) : Bool := bitN o.attrs kPersist || s.seam.role != .alone

/-- Uses of a handle that the running jobs of a core's ports hold (R384). -/
def portsHeld (k : Core) (h : Nat) : Nat :=
  ((k.press ++ k.mangle).map (fun j => if j.done.isNone then (j.keys.filter (· == h)).length else 0)).foldl (· + ·) 0

/-- Uses of a handle that waiting commands and running port jobs hold reserved. -/
def usesHeld (s : State) (h : Nat) : Nat :=
  (s.tortin.tracker.map (fun e => if e.2.stage = .waiting then (e.2.uses.filter (· == h)).length else 0)).foldl (· + ·) 0 +
    (s.needle.cores.map (fun e => portsHeld e.2 h)).foldl (· + ·) 0

/-- What a reservation of one use finds: a use is there; the lease is empty and a new one must be taken; none remains. -/
inductive UseFound where
  | free | needLease | none
  deriving DecidableEq, Repr

/-- Reserving `n` more uses of an object (R112, R113). -/
def useFind (s : State) (h : Nat) (o : KeyObj) (n : Nat) : UseFound :=
  if !bitN o.attrs kCounted then .free
  else
    let have_ := if leased s o then o.lease else o.remaining
    if usesHeld s h + n ≤ have_ then .free
    else if leased s o && o.remaining != 0 then .needLease
    else .none

/-- One use is consumed (R112). -/
def useTake (s : State) (h : Nat) : State :=
  match keyOf s h with
  | none => s
  | some o =>
    if !bitN o.attrs kCounted then s
    else
      let o1 := if leased s o then { o with lease := o.lease - 1 } else { o with remaining := o.remaining - 1 }
      { s with keys := { s.keys with objs := tblPut (handleSlot h) o1 s.keys.objs } }

/-! ### Checks of a handle at check 7 -/

/-- An object is past its not-after time (R95). -/
def keyExpired (s : State) (o : KeyObj) : Bool :=
  if o.notAfter = 0 then false
  else if bitOf (regGet s aTimeSrcStat) 7 then !bitN o.attrs kContinuity
  else decide (o.notAfter.toNat < (nowCt s).toNat)

/-- The key store is open. -/
def storeOpen (s : State) : Bool := s.boot.ksCause == 0

/-- What check 7 finds for one handle of a command (R64): a live object of the owner and of a fitting type, then the
cases that depend on the object (`own`), then usage, expiry where the command uses the material, and the counter.
`types` empty admits every type; `usage` lists the flags it needs. -/
def keyCheck (s : State) (c : Cmd) (h : Nat) (types : List Nat) (usage : Nat) (material : Bool) (own : KeyObj → Nat) :
    Nat :=
  match keyFor s (cOwner s c) h with
  | none => stBadHandle
  | some o =>
    if !types.isEmpty && !types.contains o.ktype then stBadHandle
    else if own o ≠ stOk then own o
    else if !subMask usage o.attrs then stDenied
    else if material && keyExpired s o then stExpired
    else if material && useFind s h o 1 == .none then stExhausted
    else stOk

/-- The first status of several that is not `OK`. -/
def firstBad : List Nat → Nat
  | [] => stOk
  | x :: xs => if x = stOk then firstBad xs else x

/-- A handle's object has an attribute bit. -/
def keyHas (s : State) (h bit : Nat) : Bool := match keyOf s h with
  | some o => bitN o.attrs bit
  | none => false

/-- The quorum that a key object with `QUORUM_USE` asks of the command that uses it (R120). -/
def quorumUse (s : State) (c : Cmd) (hs : List Nat) : Option (Nat × Nat) :=
  if hs.any (fun h => keyHas s h kQuorumUse) then some (cOwner s c, qKeyMgmt) else none

/-! ### The root derivation (R97, R98) -/

/-- root[s] of the present life-cycle state; none when it is missing (R99). -/
def rootNow (s : State) : Option (List Byte) := tblFind (lcState s) s.keys.roots

/-- KDF(purpose, owner, context) under given measurements; none without a root. -/
def kdfWith (s : State) (bm0 bm1 : List Byte) (purpose owner : Nat) (context : List Byte) : Option (List Byte) :=
  (rootNow s).map (fun r => bytesAt (Config.kmac256 r
    (bytesAt bm0 0 48 ++ bytesAt bm1 0 48 ++ beBytes 2 owner ++ beBytes 1 purpose ++ context) 32 (ascii "ILASKUST-NB-KDF")) 0 32)

/-- KDF under the running measurements. -/
def kdf (s : State) (purpose owner : Nat) (context : List Byte) : Option (List Byte) :=
  kdfWith s s.boot.bm0 s.boot.bm1 purpose owner context

/-- KDF(STORE) of an owner at a key-store generation (R98, R100). -/
def storeKey (s : State) (bm0 bm1 : List Byte) (owner g : Nat) : List Byte :=
  (kdfWith s bm0 bm1 1 owner (beBytes 4 g)).getD []

/-- KDF(SEAM), which authenticates device-wide commits (R98, Table 4-10). -/
def seamStoreKey (s : State) : List Byte := (kdf s 3 0xFFFF []).getD []

/-- KDF(LINK) of an owner, which authenticates its COUNTER records (R98, Table 4-10). -/
def linkStoreKey (s : State) (owner : Nat) : List Byte := (kdf s 2 owner []).getD []

/-- The owner's store key working copy. -/
def oskOf (s : State) (owner : Nat) : List Byte := tblGet [] s.keys.osks owner

end Sys2Proof.Machine
end

