-- ==== Sys2Proof/Machine/Caches.lean ====
section
/-! DEFINITION. The key caches of Press and Mangle: their bounds, what pins an entry, and how a key enters (spec 06, R160, R161; spec 07, R185). -/

namespace Sys2Proof.Machine

/-- Lines of a Mangle cache entry (Table 7-1). -/
def mangleLines (t size : Nat) : Nat :=
  match t with
  | 0x20 => (size / 8 * 7 / 2 + 8 + 255) / 256
  | 0xA0 => (size / 8 + 8 + 255) / 256
  | 0x30 => 10
  | 0x31 => 13
  | 0x38 => 16
  | 0x39 => 20
  | 0xB0 => 5
  | 0xB1 => 7
  | 0xB8 => 8
  | 0xB9 => 11
  | _ => 1

/-- What a key cache holds at most: entries and lines, and of them with `CONTINUITY`. -/
structure CacheCap where
  ents  : Nat
  lines : Nat
  cEnts : Nat
  cLines : Nat
  deriving DecidableEq, Repr

/-- The general cache of Press and the key cache of Mangle. -/
def pressCap : CacheCap := { ents := 1024, lines := 1024, cEnts := 512, cLines := 512 }
def mangleCap : CacheCap := { ents := 1024, lines := 8192, cEnts := 512, cLines := 4096 }

/-- An entry whose key has `CONTINUITY`. -/
def entCont (e : CacheEnt) : Bool := bitN e.flags kContinuity

/-- Lines of entries. -/
def entLines (es : List CacheEnt) : Nat := (es.map (·.lines)).foldl (· + ·) 0

/-- The least recently used entry that passes a test. -/
def entLru (p : CacheEnt → Bool) (es : List CacheEnt) : Option CacheEnt :=
  (es.filter p).foldl (fun b e => match b with
    | none => some e
    | some x => if e.used < x.used then some e else some x) none

/-- Room for an entry: unpinned entries are replaced, the least recently used first; beyond a bound on `CONTINUITY` only such
entries; none when no entry can be replaced. -/
def entRoom (cap : CacheCap) (pinned : Nat → Bool) (n : CacheEnt) : Nat → List CacheEnt → Option (List CacheEnt)
  | 0, _ => none
  | f + 1, es =>
    let cs := es.filter entCont
    let tooMany := entCont n && !(decide (cs.length < cap.cEnts) && decide (entLines cs + n.lines ≤ cap.cLines))
    let full := !(decide (es.length < cap.ents) && decide (entLines es + n.lines ≤ cap.lines))
    if !tooMany && !full then some es
    else match entLru (fun e => !pinned e.handle && (!tooMany || entCont e)) es with
      | none => none
      | some v => entRoom cap pinned n f (es.filter (fun e => e.handle != v.handle))

/-- A job of a core's port that has not ended. -/
def jobOpen (j : PortJob) : Bool := j.done.isNone

/-- The device's own name for the key of an enrolment's queue 0xFFFF in the general cache: no handle has it (R296). -/
def enrolHandle (tag : Nat) : Nat := 2 ^ 32 + tag

/-- Handles that a command, an open context, a running program or a job of a port pins (R161): a job that waits or runs keeps its keys, whatever its
core does meanwhile. The key of an enrolment stays bound for the duration of its command (R296). -/
def handlePinned (s : State) (h : Nat) : Bool :=
  decide (2 ^ 32 ≤ h) ||
  s.tortin.tracker.any (fun e => e.2.stage != .ended && e.2.pinned.contains h) ||
  s.press.ctxs.any (fun e => e.2.handle == h) ||
  s.needle.cores.any (fun e => (e.2.mode == .running && e.2.keys.contains h) ||
    (e.2.press ++ e.2.mangle).any (fun j => jobOpen j && j.keys.contains h))

/-- A key enters a cache; none when no entry can be replaced. -/
def entBind (s : State) (cap : CacheCap) (es : List CacheEnt) (h lines : Nat) (o : KeyObj) : Option (List CacheEnt) :=
  if es.any (fun e => e.handle == h) then some (es.map (entTouch s.keys.useCount h))
  else
    let n : CacheEnt := { handle := h, ktype := o.ktype, flags := o.attrs, material := o.material, expanded := seedForm o.ktype o.material
                          lines := lines, used := s.keys.useCount }
    (entRoom cap (handlePinned s) n 2048 es).map (· ++ [n])

/-- Thimble copies a key into the cache of Press or Mangle. -/
def keyBind (s : State) (engine h : Nat) (o : KeyObj) : Option State :=
  let k := { s.keys with useCount := s.keys.useCount + 1 }
  if engine = 1 then
    (entBind s pressCap s.keys.pressKeys h 1 o).map (fun es => { s with keys := { k with pressKeys := es } })
  else
    (entBind s mangleCap s.keys.mangleKeys h (mangleLines o.ktype o.size) o).map
      (fun es => { s with keys := { k with mangleKeys := es } })

end Sys2Proof.Machine
end

