-- ==== Sys2Proof/Machine/Curves.lean ====
section
/-! DEFINITION. The validation of public keys and signatures (spec 07, Table 7-3), of imported private keys (R121, R192), and the stored form of
an RSA key (Table 4-2). The constants of the curves and of ML-DSA are those of the standards that the spec names (assumption 60). -/

namespace Sys2Proof.Machine

/-! ### Modular arithmetic -/

/-- Powers modulo p, by the bits of the exponent from the least. -/
def powMod (p : Nat) : Nat → Nat → Nat → Nat → Nat
  | 0, _, _, acc => acc % p
  | f + 1, a, e, acc => powMod p f (a * a % p) (e / 2) (if e % 2 = 1 then acc * a % p else acc)

/-- The extended algorithm of Euclid: the factor that belongs to the greatest common divisor, where that is 1. -/
def invLoop : Nat → Nat → Nat → Int → Int → Option Int
  | 0, _, _, _, _ => none
  | f + 1, r0, r1, t0, t1 =>
    if r1 = 0 then (if r0 = 1 then some t0 else none)
    else invLoop f r1 (r0 % r1) t1 (t0 - (r0 / r1 : Nat) * t1)

/-- The inverse of a number modulo `m`; none where they share a factor. -/
def invMod (m a : Nat) : Option Nat := (invLoop 16384 m (a % m) 0 1).map (fun t => (t % (m : Int)).toNat)

/-! ### The curves over prime fields (FIPS 186-5) -/

/-- A curve y² = x³ − 3x + b: the bytes of a coordinate, the field, b, and the order of its base point. -/
structure Curve where
  len : Nat
  p   : Nat
  b   : Nat
  n   : Nat
  deriving DecidableEq, Repr

/-- The curve of a key pair type (Table 4-2). -/
def curveOf (t : Nat) : Option Curve :=
  match t with
  | 0x10 => some {
      len := 32, p := 2 ^ 256 - 2 ^ 224 + 2 ^ 192 + 2 ^ 96 - 1
      b := 0x5AC635D8AA3A93E7B3EBBD55769886BC651D06B0CC53B0F63BCE3C3E27D2604B
      n := 0xFFFFFFFF00000000FFFFFFFFFFFFFFFFBCE6FAADA7179E84F3B9CAC2FC632551 }
  | 0x11 => some {
      len := 48, p := 2 ^ 384 - 2 ^ 128 - 2 ^ 96 + 2 ^ 32 - 1
      b := 0xB3312FA7E23EE7E4988E056BE3F82D19181D9C6EFE8141120314088F5013875AC656398D8A2ED19D2A85C8EDD3EC2AEF
      n := 2 ^ 384 - 2 ^ 192 + 0xC7634D81F4372DDF581A0DB248B0A77AECEC196ACCC52973 }
  | 0x12 => some {
      len := 66, p := 2 ^ 521 - 1
      b := 0x51953EB9618E1C9A1F929A21A0B68540EEA2DA725B99B315F3B8B489918EF109E156193951EC7E937B1652C0BD3BB1BF073573DF883D2C34F1EF451FD46B503F00
      n := 2 ^ 521 - 2 ^ 260 + 0xA51868783BF2F966B7FCC0148F709A5D03BB5C9B8899C47AEBB6FB71E91386409 }
  | _ => none

/-- An uncompressed point passes: first byte 0x04, X and Y below p, on the curve (Table 7-3). -/
def pointOk (c : Curve) (bs : List Byte) : Bool :=
  let x := beNat (bytesAt bs 1 c.len)
  let y := beNat (bytesAt bs (1 + c.len) c.len)
  byteAt bs 0 == 4 && decide (x < c.p ∧ y < c.p ∧ y * y % c.p = (x * x * x + (c.p - 3) * x + c.b) % c.p)

/-! ### The Edwards curves (RFC 8032) -/

/-- An Edwards curve a x² + y² = 1 + d x² y²: the bytes of a key, the field, a, d, the doublings that take a point of small order to the neutral
point, and the order of its base point. -/
structure Edwards where
  len : Nat
  p   : Nat
  a   : Nat
  d   : Nat
  dbl : Nat
  l   : Nat
  deriving DecidableEq, Repr

/-- The Edwards curve of a key pair type. -/
def edwardsOf (t : Nat) : Option Edwards :=
  match t with
  | 0x14 => some {
      len := 32, p := 2 ^ 255 - 19, a := 2 ^ 255 - 20, d := 0x52036CEE2B6FFE738CC740797779E89800700A4D4141D8AB75EB4DCA135978A3
      dbl := 3, l := 2 ^ 252 + 27742317777372353535851937790883648493 }
  | 0x16 => some {
      len := 57, p := 2 ^ 448 - 2 ^ 224 - 1, a := 1, d := 2 ^ 448 - 2 ^ 224 - 1 - 39081
      dbl := 2, l := 2 ^ 446 - 13818066809895115352007386748515426880336692474882178609894547503885 }
  | _ => none

/-- `x²` of the point with a given y: (1 − y²) / (a − d y²). -/
def edSquare (c : Edwards) (y : Nat) : Nat :=
  let yy := y * y % c.p
  (1 + c.p - yy) % c.p * powMod c.p 512 ((c.a + c.p - c.d * yy % c.p) % c.p) (c.p - 2) (1 % c.p) % c.p

/-- The y-coordinate of the double of the point with a given y. -/
def edDouble (c : Edwards) (y : Nat) : Nat :=
  let yy := y * y % c.p
  let xx := edSquare c y
  (yy + c.p - c.a * xx % c.p) % c.p * powMod c.p 512 ((1 + c.p - c.d * xx % c.p * yy % c.p) % c.p) (c.p - 2) (1 % c.p) % c.p

/-- The y-coordinate after `n` doublings. -/
def edTimes (c : Edwards) : Nat → Nat → Nat
  | 0, y => y
  | n + 1, y => edTimes c n (edDouble c y)

/-- An encoded point: its y-coordinate and the sign of x. -/
def edRead (c : Edwards) (bs : List Byte) : Nat × Bool :=
  let v := leNat (bytesAt bs 0 c.len)
  (v % 2 ^ (8 * c.len - 1), decide (2 ^ (8 * c.len - 1) ≤ v))

/-- An encoding is canonical and decodes to a point of the curve (Table 7-3). -/
def edOnCurve (c : Edwards) (bs : List Byte) : Bool :=
  let (y, sign) := edRead c bs
  let xx := edSquare c y
  decide (y < c.p) && (if xx = 0 then !sign else powMod c.p 512 xx ((c.p - 1) / 2) (1 % c.p) == 1)

/-- An Edwards public key passes: on the curve, and not of small order (Table 7-3). -/
def edKeyOk (c : Edwards) (bs : List Byte) : Bool := edOnCurve c bs && edTimes c c.dbl (edRead c bs).1 != 1

/-! ### RSA (Tables 4-2, 7-3) -/

/-- An RSA public key passes: n odd with its top bit at the declared length, no prime factor below 1,000, e odd with 2^16 < e < 2^64. -/
def rsaPublicOk (bits n e : Nat) : Bool :=
  decide (n % 2 = 1 ∧ 2 ^ (bits - 1) ≤ n ∧ n < 2 ^ bits ∧ e % 2 = 1 ∧ 2 ^ 16 < e ∧ e < 2 ^ 64) &&
  (List.range 1000).all (fun q => decide (q < 2 ∨ n % q ≠ 0))

/-- The stored form of an RSA private key: n, e, p, q, dp, dq, qinv; none where e or q has no inverse. -/
def rsaMaterial (bits e p q : Nat) : Option (List Byte) :=
  let h := bits / 16
  match invMod (p - 1) e, invMod (q - 1) e, invMod p q with
  | some dp, some dq, some qi => some (beBytes (bits / 8) (p * q) ++ beBytes 8 e ++ beBytes h p ++ beBytes h q ++ beBytes h dp ++
      beBytes h dq ++ beBytes h qi)
  | _, _, _ => none

/-- An imported RSA key, n ‖ e ‖ p ‖ q, in its stored form: none unless n = p × q, the public part passes and the key is consistent (R121). -/
def rsaImport (bits : Nat) (bs : List Byte) : Option (List Byte) :=
  let l := bits / 8
  let n := beNat (bytesAt bs 0 l)
  let e := beNat (bytesAt bs l 8)
  let p := beNat (bytesAt bs (l + 8) (l / 2))
  let q := beNat (bytesAt bs (l + 8 + l / 2) (l / 2))
  if n = p * q && rsaPublicOk bits n e && Config.rsaCheck e p q then rsaMaterial bits e p q else none

/-! ### ML-KEM and ML-DSA -/

/-- The coefficients of an ML-KEM encapsulation key of `k` polynomials are below q (FIPS 203). -/
def kemKeyOk (k : Nat) (bs : List Byte) : Bool :=
  (List.range (128 * k)).all (fun i =>
    let v := leNat (bytesAt bs (3 * i) 3)
    decide (v % 4096 < 3329 ∧ v / 4096 < 3329))

/-- The parameters of an ML-DSA set that a signature's form depends on (FIPS 204): bytes of the challenge, l, k, ω and β. -/
def dsaPar (t : Nat) : Nat × Nat × Nat × Nat × Nat := if t = 0x39 then (64, 7, 8, 75, 120) else (48, 5, 6, 55, 196)

/-- The hint of an ML-DSA signature is well formed: each polynomial's positions rise, and the unused places are zero. -/
def dsaHintOk (w k : Nat) (h : List Byte) : Bool :=
  let stop (i : Nat) : Nat := if i = 0 then 0 else byteAt h (w + i - 1)
  (List.range k).all (fun i => decide (stop i ≤ stop (i + 1) ∧ stop (i + 1) ≤ w) &&
    (List.range (stop (i + 1) - stop i - 1)).all (fun j => decide (byteAt h (stop i + j) < byteAt h (stop i + j + 1)))) &&
  (List.range (w - stop k)).all (fun j => byteAt h (stop k + j) == 0)

/-- The coefficients of z are within their bound: 20 bits each, below γ1 − β in size. -/
def dsaZOk (beta n : Nat) (z : List Byte) : Bool :=
  (List.range n).all (fun i =>
    let v : Nat := leNat (bytesAt z (5 * (i / 2)) 5) / 2 ^ (20 * (i % 2)) % 2 ^ 20
    decide ((2 ^ 19 - (v : Int)).natAbs < 2 ^ 19 - beta))

/-- An ML-DSA signature passes what Table 7-3 asks before the FIPS 204 check. -/
def dsaSigOk (t : Nat) (sig : List Byte) : Bool :=
  let (c, l, k, w, beta) := dsaPar t
  dsaZOk beta (256 * l) (bytesAt sig c (640 * l)) && dsaHintOk w k (bytesAt sig (c + 640 * l) (w + k))

/-! ### What is accepted (Table 7-3, R191) -/

/-- Validation of a public key of a type and size. -/
def publicValid (t size : Nat) (bs : List Byte) : Bool :=
  match t with
  | 0x90 | 0x91 | 0x92 => (curveOf (t - 0x80)).any (fun c => pointOk c bs)
  | 0x94 | 0x96 => (edwardsOf (t - 0x80)).any (fun c => edKeyOk c bs)
  | 0xA0 => rsaPublicOk size (beNat (bytesAt bs 0 (size / 8))) (beNat (bytesAt bs (size / 8) 8))
  | 0xB0 => kemKeyOk 3 bs
  | 0xB1 => kemKeyOk 4 bs
  | _ => true

/-- A signature by a key pair of a type, with its public key, passes what Table 7-3 asks before the scheme's own check. -/
def sigForm (t : Nat) (pub sig : List Byte) : Bool :=
  match t with
  | 0x10 | 0x11 | 0x12 => (curveOf t).any (fun c =>
      let r := beNat (bytesAt sig 0 c.len)
      let v := beNat (bytesAt sig c.len c.len)
      decide (1 ≤ r ∧ r < c.n ∧ 1 ≤ v ∧ v < c.n))
  | 0x14 | 0x16 => (edwardsOf t).any (fun c =>
      edOnCurve c (bytesAt sig 0 c.len) && decide (leNat (bytesAt sig c.len c.len) < c.l))
  | 0x20 => decide (beNat sig < beNat (bytesAt pub 0 sig.length))
  | 0x38 | 0x39 => dsaSigOk t sig
  | _ => true

/-- A signature verifies: its form, then the scheme's check (R191). `scheme` is its number, whose lowest byte is the key pair type. -/
def sigVerifies (scheme : Nat) (pub msg ctx sig : List Byte) : Bool :=
  sigForm (scheme % 256) pub sig && Config.verifies scheme pub msg ctx sig

/-- The stored form of an imported private key: none where it is out of range or inconsistent (R121, R192). -/
def importMaterial (t size : Nat) (p : List Byte) : Option (List Byte) :=
  match t with
  | 0x10 | 0x11 | 0x12 => (curveOf t).bind (fun c =>
      if 1 ≤ beNat p ∧ beNat p < c.n then some (p ++ bytesAt (Config.publicOf t p) 0 (2 * c.len)) else none)
  | 0x13 | 0x14 => some (p ++ bytesAt (Config.publicOf t p) 0 32)
  | 0x15 => some (p ++ bytesAt (Config.publicOf t p) 0 56)
  | 0x16 => some (p ++ bytesAt (Config.publicOf t p) 0 57)
  | 0x20 => rsaImport size p
  | _ => some p

end Sys2Proof.Machine
end

