-- ==== Sys2Proof/Machine/Hamper.lean ====
section
/-! DEFINITION. The Hamper: buffers, accounts, chains and the operations that allocate, free, transfer, read and write them
(spec 09, R228 to R241). -/

namespace Sys2Proof.Machine

/-- The place in buffer memory of an address of the buffer window, which starts at `0x4000_0000` (Table 1-2). -/
def bufOffset (a : Nat) : Nat := a % 0x4000000

/-! ### Owner tags and accounts (R229, R232, Tables 9-2 and 9-3) -/

/-- An owner tag: kind [15:13], index [12:0]. -/
def ownerTag (kind index : Nat) : Nat := 8192 * kind + index

def tagQueue (q : Nat) : Nat := ownerTag 0 q
def tagSlice (n : Nat) : Nat := ownerTag 1 n
def tagCore (n : Nat) : Nat := ownerTag 2 n
def tagPort (n : Nat) : Nat := ownerTag 3 n
def tagCp : Nat := ownerTag 4 0

/-- Buffers of the pool (R228). -/
def hmpBuffers := 262144

/-- Buffers of banks 0 to 7, kept out while hold rings are undrained (R237). -/
def hmpRingBuffers := 32768

/-- Core `n`; an unlisted one is free. -/
def coreGet (s : State) (n : Nat) : Core := tblGet {} s.needle.cores n

/-- Core `n` set. -/
def corePut (s : State) (n : Nat) (c : Core) : State :=
  { s with needle := { s.needle with cores := tblSet {} n c s.needle.cores } }

/-- Queue `q`, if it is not FREE. -/
def queueGet (s : State) (q : Nat) : Option Queue := tblFind q s.links.queues

/-- Queue `q` set. -/
def queuePut (s : State) (q : Nat) (x : Queue) : State :=
  { s with links := { s.links with queues := tblPut q x s.links.queues } }

/-- Account of an owner tag: 0 internal, 1 to 4 the classes `ALARM` to `BULK`, 5 + n slice n (Table 9-2). -/
def acctOf (s : State) (tag : Nat) : Nat :=
  let i := tag % 8192
  match tag / 8192 with
  | 0 => match queueGet s i with
    | some q => 1 + q.cls
    | none => 0
  | 1 => 5 + i
  | 2 => 5 + (coreGet s i).slice
  | _ => 0

/-- Reserve of an account (Table 9-3); a slice's is held only while the slice is bound. -/
def acctReserve (s : State) (a : Nat) : Nat :=
  match a with
  | 0 => 8192
  | 1 => 16384
  | 2 => 32768
  | 3 => 16384
  | 4 => 8192
  | n + 5 => if (sliceGet s n).mode = .unbound then 0 else (sliceGet s n).reserve

/-- Borrow floor of an account (Table 9-3). -/
def acctFloor (a : Nat) : Nat :=
  match a with
  | 0 => 0
  | 1 => 0
  | 2 => 8192
  | 3 => 16384
  | 4 => 32768
  | _ => 24576

/-- Buffers held by an account. -/
def acctHeld (s : State) (a : Nat) : Nat := tblCount (fun m => m.held && acctOf s m.owner == a) s.hamper.metas

/-- Accounts that hold a buffer or have a reserve of their own. -/
def acctLive (s : State) : List Nat :=
  [0, 1, 2, 3, 4] ++ ((List.range 1024).filter (fun n => s.hamper.metas.any (fun e => e.2.held && acctOf s e.2.owner == n + 5))).map
    (· + 5)

/-- Buffers that an account has borrowed: what it holds beyond its reserve (R233). -/
def acctBorrowed (s : State) (a : Nat) : Nat := acctHeld s a - acctReserve s a

/-- `HMP_SLICE_RES_SUM`: reserves of bound slices. -/
def sliceResSum (s : State) : Nat :=
  (s.slices.map (fun e => if e.2.mode = .unbound then 0 else e.2.reserve)).foldl (· + ·) 0

/-- Free buffers of the shared part: the pool less all reserves, less what is borrowed, less the buffers of undrained
hold rings (R232, R233, R237). -/
def sharedFree (s : State) : Nat :=
  hmpBuffers - (8192 + 73728) - sliceResSum s - ((acctLive s).map (acctBorrowed s)).foldl (· + ·) 0 -
    (if s.hamper.rings then hmpRingBuffers else 0)

/-- A charge of n buffers, one at a time (R233): the account holds `held`, the shared part has `shared` free. -/
def chargeOk (reserve floor : Nat) : Nat → Nat → Nat → Bool
  | 0, _, _ => true
  | n + 1, held, shared =>
    if held < reserve then chargeOk reserve floor n (held + 1) shared
    else if floor < shared then chargeOk reserve floor n (held + 1) (shared - 1)
    else false

/-- An account can take a charge of n buffers. One whose reserve was lowered below what it held borrows nothing until it is below it again. -/
def acctTakes (s : State) (a n : Nat) : Bool :=
  !(s.hamper.excess.contains a && decide (acctReserve s a ≤ acctHeld s a) && n != 0) &&
    chargeOk (acctReserve s a) (acctFloor a) n (acctHeld s a) (sharedFree s)

/-! ### The free set and chains -/

/-- Metadata of a buffer. -/
def bufGet (s : State) (b : Nat) : BufMeta := tblGet {} s.hamper.metas b

/-- Metadata of a buffer set. -/
def bufPut (s : State) (b : Nat) (m : BufMeta) : State :=
  { s with hamper := { s.hamper with metas := tblSet {} b m s.hamper.metas } }

/-- A buffer is in the free set (R230, R237). -/
def bufFree (s : State) (b : Nat) : Bool :=
  !(bufGet s b).held && !(s.hamper.rings && decide (b < hmpRingBuffers)) && decide (b < hmpBuffers)

/-- A bank has a free buffer. -/
def bankFree (s : State) (k : Nat) : Bool :=
  !(s.hamper.rings && decide (k < 8)) &&
  decide ((s.hamper.metas.filter (fun e => e.2.held && e.1 / 4096 == k)).length < 4096)

/-- The next free buffer: banks in rotation (R228); which of a bank's free buffers serves is left open: the first at or
after a free value (assumption 3). -/
def nextFree (s : State) : Option (Nat × State) :=
  match ((List.range 64).map (fun i => (s.hamper.bank + 1 + i) % 64)).find? (bankFree s) with
  | none => none
  | some k =>
    let (v, s1) := freeWord s
    let at_ (i : Nat) : Nat := 4096 * k + (v.toNat + i) % 4096
    (firstNat (fun i => bufFree s (at_ i)) 0 4096).map
      (fun i => (at_ i, { s1 with hamper := { s1.hamper with bank := k } }))

/-- The buffers of a chain in order, from its first: `NEXT` is followed up to `LAST`. -/
def chainFrom (s : State) : Nat → Nat → List Nat
  | 0, _ => []
  | n + 1, b => if (bufGet s b).last then [b] else b :: chainFrom s n (bufGet s b).next

/-- The buffers of the chain whose first buffer is `b`. -/
def chainOf (s : State) (b : Nat) : List Nat := chainFrom s 36 b

/-- `b` is the first buffer of a held chain. -/
def isChain (s : State) (b : Nat) : Bool := (bufGet s b).held && (bufGet s b).first

/-- The pool's events as the shared part shrinks (R261). -/
def poolNote (before s : State) : State :=
  let f := sharedFree s
  let f0 := sharedFree before
  let s1 := if f < 32768 ∧ 32768 ≤ f0 then sqcSet s aHmpEvt 0 else s
  if f = 0 ∧ f0 ≠ 0 then sqcSet s1 aHmpEvt 1 else s1

/-- What a charge leaves: the account's high-water mark, and the pool's events (R261). An account that was below its reserve may borrow again (R233). -/
def chargeNote (before : State) (a : Nat) (s : State) : State :=
  let h := acctHeld s a
  poolNote before { s with hamper := { s.hamper with
    high := if tblGet 0 s.hamper.high a < h then tblSet 0 a h s.hamper.high else s.hamper.high
    excess := if acctHeld before a < acctReserve before a then s.hamper.excess.filter (· != a) else s.hamper.excess } }

/-- The reserve of a slice has a new value: what the account holds beyond a lowered one counts as borrowed, and the account borrows no more until it
is below it (R233). -/
def reserveNote (before : State) (n : Nat) (s : State) : State :=
  let a := n + 5
  let more := decide (acctReserve s a < acctHeld s a) &&
    (decide (acctReserve s a < acctReserve before a) || s.hamper.excess.contains a)
  poolNote before { s with hamper := { s.hamper with excess := s.hamper.excess.filter (· != a) ++ (if more then [a] else []) } }

/-- Takes `n` buffers out of the free set, in order. -/
def takeBufs : Nat → State → List Nat → Option (List Nat × State)
  | 0, s, acc => some (acc.reverse, s)
  | n + 1, s, acc =>
    match nextFree s with
    | none => none
    | some (b, s1) => takeBufs n (bufPut s1 b { held := true }) (b :: acc)

/-- Links buffers into a chain owned by `tag` (R230). -/
def linkChain (s : State) (tag : Nat) (bs : List Nat) : State :=
  let n := bs.length
  (List.range n).foldl (fun s i =>
    bufPut s (bs.getD i 0) {
      held := true, first := i == 0, last := i + 1 == n, owner := tag
      next := if i + 1 < n then bs.getD (i + 1) 0 else 0
      count := if i = 0 then n else 0
      stamp := if i = 0 then nowStamp s else 0 }) s

/-- Allocates a chain of `n` buffers charged to an owner tag's account; none when the charge fails (R230, R233). -/
def hmpAlloc (s : State) (tag n : Nat) : Option (Nat × State) :=
  let a := acctOf s tag
  if !acctTakes s a n then none
  else match takeBufs n s [] with
    | none => none
    | some (bs, s1) => some (bs.headD 0, chargeNote s a (linkChain s1 tag bs))

/-- Frees a whole chain: its buffers return to the free set (R230, R233). -/
def hmpRelease (s : State) (b : Nat) : State :=
  (chainOf s b).foldl (fun s x => bufPut s x { bufGet s x with held := false }) s

/-- Passes a whole chain to another owner tag, with its charge; none when the new account cannot take it (R234). -/
def hmpTransfer (s : State) (b tag : Nat) : Option State :=
  let bs := chainOf s b
  let a := acctOf s tag
  if a = acctOf s (bufGet s b).owner || acctTakes (hmpRelease s b) a bs.length then
    some (chargeNote s a (bs.foldl (fun s x => bufPut s x { bufGet s x with owner := tag }) s))
  else none

/-- Some buffer of the chain is tainted (R241). -/
def chainTainted (s : State) (b : Nat) : Bool := (chainOf s b).any (fun x => (bufGet s x).taint)

/-- The first `n` buffers of a chain are tainted (R153). -/
def chainTaint (s : State) (b n : Nat) : State :=
  ((chainOf s b).take n).foldl (fun s x => bufPut s x { bufGet s x with taint := true }) s

/-- Every chain whose owner tag is `tag`, by its first buffer. -/
def chainsOf (s : State) (tag : Nat) : List Nat :=
  (s.hamper.metas.filter (fun e => e.2.held && e.2.first && e.2.owner == tag)).map (·.1)

/-- Frees every chain of an owner tag (R248). -/
def hmpReleaseAll (s : State) (tag : Nat) : State := (chainsOf s tag).foldl hmpRelease s

/-! ### Contents (R231) -/

/-- The byte of a buffer: zero in a 64 B word not written since allocation. -/
def bufByte (s : State) (b off : Nat) : Byte :=
  if bitN (bufGet s b).wv (off / 64) then memByte s.hamper.data (256 * b + off) else 0

/-- `n` bytes of a buffer from `off`. -/
def bufRead (s : State) (b off n : Nat) : List Byte := (List.range n).map (fun i => bufByte s b (off + i))

/-- One byte written to a buffer: the first write to a word merges into zeros. -/
def bufWriteByte (s : State) (b off : Nat) (v : Byte) : State :=
  let m := bufGet s b
  let w := off / 64
  let d := if bitN m.wv w then s.hamper.data else memWrite s.hamper.data (256 * b + 64 * w) (zeros 64)
  let m1 := if bitN m.wv w then m else { m with wv := m.wv + 2 ^ w }
  bufPut { s with hamper := { s.hamper with data := tblSet 0 (256 * b + off) v d } } b m1

/-- Bytes written to a buffer from `off`. -/
def bufWrite (s : State) (b off : Nat) : List Byte → State
  | [] => s
  | v :: vs => bufWrite (bufWriteByte s b off v) b (off + 1) vs

/-- `n` bytes of a chain from byte `off` (byte 256 k begins buffer k). -/
def chainRead (s : State) (b off n : Nat) : List Byte :=
  let bs := chainOf s b
  (List.range n).map (fun i => bufByte s (bs.getD ((off + i) / 256) 0) ((off + i) % 256))

/-- Bytes written to a chain from byte `off`; bytes beyond the chain are not written. -/
def chainWrite (s : State) (b off : Nat) (vs : List Byte) : State :=
  let bs := chainOf s b
  (List.range vs.length).foldl (fun s i =>
    match bs[(off + i) / 256]? with
    | none => s
    | some x => bufWriteByte s x ((off + i) % 256) (vs.getD i 0)) s

/-- The bytes of a chain's frame: `LENGTH` bytes. -/
def chainBytes (s : State) (b : Nat) : List Byte := chainRead s b 0 (bufGet s b).length

/-- Sets the length of a chain. -/
def chainSetLen (s : State) (b n : Nat) : State := bufPut s b { bufGet s b with length := n }

/-- A chain allocated for an owner tag and filled with bytes. -/
def hmpFill (s : State) (tag : Nat) (vs : List Byte) : Option (Nat × State) :=
  match hmpAlloc s tag (max 1 ((vs.length + 255) / 256)) with
  | none => none
  | some (b, s1) => some (b, chainSetLen (chainWrite s1 b 0 vs) b vs.length)

/-- A frame dropped for lack of buffers is counted (R235). -/
def hmpDrop (s : State) : State := sqcSet (regAdd s aHmpDrop 1) aHmpEvt 4

/-! ### The operation port (R238, Tables 9-4 and 9-5) -/

/-- Index of a requester's operation port and the owner tag that it acts for; none for a requester without one. -/
def opPort (r : Requester) (as_ : Nat) : Option (Nat × Nat) :=
  match r with
  | .core n => some (n, tagCore n)
  | .cp => some (16, as_)
  | _ => none

/-- A result of the operation port. -/
def opResult (s : State) (p status b : Nat) : State :=
  { s with hamper := { s.hamper with opRes := tblSet 0 p (BitVec.ofNat 32 (2 ^ 28 * status + b % 2 ^ 18)) s.hamper.opRes } }

/-- The slice that a double free names: a core's slice, or the slice for which the CP acts. -/
def tagSliceOf (s : State) (tag : Nat) : Nat :=
  match tag / 8192 with
  | 1 => tag % 8192
  | 2 => (coreGet s (tag % 8192)).slice
  | _ => 0xFFFF

/-- `ALLOC` for an owner tag. -/
def opAlloc (s : State) (p tag n : Nat) : State :=
  if n = 0 ∨ 36 < n then opResult s p 7 0
  else match hmpAlloc s tag n with
    | none => opResult s p 4 0
    | some (b, s1) => opResult s1 p 0 b

/-- `FREE` for an owner tag (R239, R241). -/
def opFree (s : State) (p tag b : Nat) : State :=
  let m := bufGet s b
  if !m.held then
    let s1 := sqcSet (regAdd s aHmpDfree 1) aHmpEvt 2
    opResult (tallyPut s1 agHamper 0x0E80 [(8, tag), (9, b), (2, tagSliceOf s tag)]) p 1 b
  else if !m.first then opResult s p 7 b
  else if m.owner ≠ tag then
    let s1 := sqcSet (regAdd s aHmpFfree 1) aHmpEvt 3
    opResult (tallyPut s1 agHamper 0x0E81 [(8, tag), (9, b), (0x0E, m.owner)]) p 2 b
  else opResult (hmpRelease s b) p 0 b

/-- `SETLEN` for an owner tag. -/
def opSetlen (s : State) (p tag b n : Nat) : State :=
  if !isChain s b then opResult s p 7 b
  else if (bufGet s b).owner ≠ tag then opResult s p 2 b
  else if 9216 < n ∨ 256 * (bufGet s b).count < n then opResult s p 7 b
  else opResult (chainSetLen s b n) p 0 b

end Sys2Proof.Machine
end

