-- ==== Sys2Proof/Machine/Events.lean ====
section
/-! DEFINITION. The event matrix and the state of the DMA channels (spec 09, R253, R258). -/

namespace Sys2Proof.Machine

/-- DMA channel `c`; an unlisted one is idle. -/
def chanGet (s : State) (c : Nat) : DmaChan := tblGet {} s.dma.chans c

/-- DMA channel `c` set. -/
def chanPut (s : State) (c : Nat) (x : DmaChan) : State :=
  { s with dma := { s.dma with chans := tblSet {} c x s.dma.chans } }

/-- A trigger pulse reaches a channel: it starts one that waits in WAIT_TRIG; any other counts the pulse as missed
(R258). -/
def trigPulse (s : State) (c : Nat) : State :=
  let x := chanGet s c
  if x.mode = .waitTrig then chanPut s c { x with mode := .running } else regAdd s (aDma c 0x3C) 1

/-- A pulse reaches a core's event input: it is pending and counted, saturating at 255 (R258). -/
def inputPulse (s : State) (k i : Nat) : State :=
  let c := coreGet s k
  let e := tblGet {} c.inputs i
  let e1 : EvIn := { count := min 255 (e.count + 1), ovf := e.ovf || e.count == 255, pending := true }
  corePut s k { c with inputs := tblSet {} i e1 c.inputs }

/-- The listed registers of the `EVT` block in a range that are enabled. -/
def evtOn (s : State) (lo hi : Nat) : List (Nat × Word) :=
  (s.regs.file.filter (fun e => decide (aEvt lo ≤ e.1 ∧ e.1 < aEvt hi) && bitOf e.2 31)).map
    (fun e => ((e.1 - aEvt lo) / 4, e.2))

/-- A line carries a pulse to every sink that names it (R258). -/
def linePulse (s : State) (n : Nat) : State :=
  let ins := (evtOn s 0x800 0xC00).filter (fun e => fieldOf e.2 8 0 == n)
  let trs := (evtOn s 0xC00 0x1000).filter (fun e => fieldOf e.2 8 0 == n)
  let s1 := ins.foldl (fun s e => inputPulse s (e.1 / 16) (e.1 % 16)) s
  trs.foldl (fun s e => trigPulse s e.1) s1

/-- An event source fires: every enabled line that takes it carries a pulse (R258, Table 9-12). -/
def evPulse (s : State) (src : Nat) : State :=
  ((evtOn s 0 0x800).filter (fun e => fieldOf e.2 15 0 == src)).foldl (fun s e => linePulse s e.1) s

/-- The event source of the accepted `PPS_IN` edge, of a whole Stamp second, of a core's signal, a GPIO edge, an event
timer, a queue's receive list and the CP (Table 9-12). -/
def srcPpsIn := 0x0530
def srcSecond := 0x0531
def srcSignal (n : Nat) : Nat := 0x0500 + n
def srcGpio (g : Nat) : Nat := 0x0510 + g
def srcTimer (t : Nat) : Nat := 0x0540 + t
def srcQueue (q : Nat) : Nat := 0x2000 + q
def srcCp := 0xFFFF

end Sys2Proof.Machine
end

