-- ==== Sys2Proof/Machine/Share.lean ====
section
/-! DEFINITION. The deficit round-robin by which the engines share their last group among slices (spec 12, R341). -/

namespace Sys2Proof.Machine

/-- Waiting work as the sharing sees it: its number, its slice and its size. -/
structure Share where
  order : Nat
  slice : Nat
  size  : Nat
  deriving DecidableEq, Repr

/-- A value put into a list that rises by a rank, after its equals. -/
def insertBy {α : Type} (rank : α → Nat) (x : α) : List α → List α
  | [] => [x]
  | y :: t => if rank x < rank y then x :: y :: t else y :: insertBy rank x t

/-- A list in rising order of a rank, equals in their order. -/
def sortBy {α : Type} (rank : α → Nat) (xs : List α) : List α := xs.foldl (fun t x => insertBy rank x t) []

/-- Visits that a slice needs before its deficit covers its work; each adds its quantum. -/
def shareVisits (quantum deficit : Nat → Nat) (j : Share) : Nat :=
  let w := max 1 (quantum j.slice)
  (j.size - deficit j.slice + w - 1) / w

/-- The oldest waiting work of each slice, in rotation that begins after the slice served last. -/
def shareFirsts (last : Nat) (js : List Share) : List Share :=
  let firsts := js.foldl (fun acc j => if acc.any (fun x => x.slice == j.slice) then acc else acc ++ [j]) []
  let rank (n : Nat) : Nat := if last < n then n else n + 65536
  sortBy (fun j => rank j.slice) firsts

/-- The work that is served next, with the visits made. -/
def shareNext (quantum deficit : Nat → Nat) (last : Nat) (js : List Share) : Option (Share × Nat) :=
  let fs := shareFirsts last js
  match fs.find? (fun j => j.slice == last && shareVisits quantum deficit j == 0) with
  | some j => some (j, 0)
  | none => fs.foldl (fun (b : Option (Share × Nat)) j =>
      let n := max 1 (shareVisits quantum deficit j)
      match b with
      | none => some (j, n)
      | some (_, m) => if n < m then some (j, n) else b) none

/-- Deficits after a choice: slices up to the chosen one were visited `n` times, later ones `n - 1` times; the chosen one
pays for its work, and a slice left without waiting work loses its deficit. -/
def shareCharge (quantum deficit : Nat → Nat) (j : Share) (n last : Nat) (js : List Share) : List (Nat × Nat) :=
  let order := (shareFirsts last js).map (·.slice)
  let upto := order.takeWhile (· != j.slice) ++ [j.slice]
  order.map (fun k =>
    let d := deficit k + (if upto.contains k then n else n - 1) * quantum k
    let left := (js.filter (fun y => y.slice == k && y.order != j.order)).isEmpty
    (k, if left then 0 else if k = j.slice then d - j.size else d))

end Sys2Proof.Machine
end

