-- ==== Sys2Proof/Machine/KeyLog.lean ====
section
/-! DEFINITION. The flash key journal: the layout of its records, writing a change, what a restart finds effective, and compaction (spec 04,
R104 to R110; spec 16, R450, R453); the requests to Thimble (spec 14, R397, R398). -/

namespace Sys2Proof.Machine

/-! ### The layout of a record (Tables 4-9, 4-10) -/

/-- Record types (Table 4-10). -/
def JKind.code : JKind → Nat
  | .object .. => 1
  | .commit .. => 2
  | .destroy .. => 3
  | .lease .. => 4
  | .osk .. => 5
  | .counter .. => 6
  | .group .. => 7
  | .pad .. => 8

/-- Bytes of a record's body with its tag (Table 4-10). The GROUPKEY body is taken as identifier and wrapped key (assumption 7). -/
def jrnBody : JKind → Nat
  | .object _ o => 60 + o.material.length + 16
  | .commit seqs => 8 + 8 * seqs.length + 16
  | .destroy _ _ => 24
  | .lease _ _ _ => 28
  | .osk _ _ => 76
  | .counter cs => 8 + 16 * cs.length + 16
  | .group _ _ => 64
  | .pad n => n

/-- Flash bytes of a record of a kind: header, body padded to 16 B, trailer (R104). -/
def jrnKindSize (k : JKind) : Nat := roundUp (24 + jrnBody k) 16 + 16

/-- Flash bytes of a record. -/
def jrnSize (r : JRec) : Nat := jrnKindSize r.kind

/-- The nonce of a record: the fused instance number and the sequence (R105). -/
def jrnNonce (inst seq : Nat) : List Byte := beBytes 4 inst ++ beBytes 8 seq

/-- Bytes 0 to 59 of an OBJECT record's body (Table 4-10). -/
def objFields (inst seq h : Nat) (o : KeyObj) : List Byte :=
  leBytes 4 h ++ leBytes 4 o.attrs ++ leBytes 1 o.gen ++ leBytes 1 o.ktype ++ leBytes 2 o.size ++ leBytes 4 o.limit ++ leBytes 4 o.remaining ++
  leBytes 2 o.leaseSize ++ leBytes 2 o.slice ++ leBytes 8 o.notAfter.toNat ++ leBytes 8 o.created.toNat ++ leBytes 4 o.revision ++
  leBytes 4 o.material.length ++ jrnNonce inst seq

/-- A record's body up to its tag: the material of an object is encrypted under the tag key, a store key and the group key are wrapped with
AES-256-KWP (R100, R105, R282). -/
def jrnFields (inst : Nat) (r : JRec) : List Byte :=
  match r.kind with
  | .object h o =>
    objFields inst r.seq h o ++ xorBytes o.material (gcmStream r.key (jrnNonce inst r.seq) o.material.length)
  | .commit seqs => leBytes 4 seqs.length ++ zeros 4 ++ seqs.flatMap (leBytes 8)
  | .destroy h rev => leBytes 4 h ++ leBytes 4 rev
  | .lease h rev left => leBytes 4 h ++ leBytes 4 rev ++ leBytes 4 left
  | .osk g k => leBytes 4 g ++ bytesAt (Config.kwWrap 2 r.key k) 0 40 ++ zeros 16
  | .counter cs => leBytes 4 cs.length ++ zeros 4 ++
      cs.flatMap (fun c => leBytes 8 c.1 ++ leBytes 2 c.2.1 ++ leBytes 2 c.2.2.1 ++ leBytes 4 c.2.2.2)
  | .group id k => leBytes 8 id.toNat ++ bytesAt (Config.kwWrap 2 r.key k) 0 40
  | .pad n => zeros n

/-- A record's tag: AES-256-GCM over an object's fields and material, a GMAC over every other body; `PAD` has none (R105). -/
def jrnTag (inst : Nat) (r : JRec) : List Byte :=
  let b := jrnFields inst r
  let n := jrnNonce inst r.seq
  match r.kind with
  | .object _ _ => bytesAt (Config.gcmTag r.key n (b.take 60) (b.drop 60)) 0 16
  | .pad _ => []
  | _ => bytesAt (Config.gcmTag r.key n b []) 0 16

/-- Bytes 0 to 19 of a record (Table 4-9). -/
def jrnHead (r : JRec) : List Byte :=
  leBytes 4 0x4E424B4A ++ leBytes 1 r.kind.code ++ zeros 1 ++ leBytes 2 r.owner ++ leBytes 8 r.seq ++ leBytes 4 (jrnBody r.kind)

/-- The checksum of a record: CRC-32C over bytes 0 to 19 and the body (Table 4-9). -/
def jrnSum (inst : Nat) (r : JRec) : BitVec 32 := Config.crc32c (jrnHead r ++ jrnFields inst r ++ jrnTag inst r)

/-- The trailer that completes a record: the complement of its sequence (Table 4-9). -/
def jrnTrailer (seq : Nat) : List Byte := leBytes 8 (2 ^ 64 - 1 - seq) ++ zeros 8

/-- The trailer's place before it is programmed: erased flash (R104). -/
def jrnErased : List Byte := List.replicate 16 0xFF

/-- A record as it stands in flash (Table 4-9). -/
def jrnBytes (inst : Nat) (r : JRec) : List Byte :=
  let b := jrnHead r ++ leBytes 4 r.sum.toNat ++ jrnFields inst r ++ jrnTag inst r
  b ++ zeros (roundUp b.length 16 - b.length) ++ r.trailer

/-- A record programmed except its trailer (R107 step 2). -/
def jrnProgram (s : State) (owner seq : Nat) (key : List Byte) (k : JKind) : JRec :=
  let r : JRec := { owner := owner, seq := seq, key := key, kind := k, sum := 0, trailer := jrnErased }
  { r with sum := jrnSum s.keys.instance_ r }

/-- The trailer of a record programmed (R107 steps 4 and 5). -/
def jrnClose (r : JRec) : JRec := { r with trailer := jrnTrailer r.seq }

/-- The checksum of a record is correct. -/
def jrnSumOk (s : State) (r : JRec) : Bool := r.sum == jrnSum s.keys.instance_ r

/-- A record is complete: its trailer matches its own sequence, and its checksum is correct (R104, R108). -/
def jrnWhole (s : State) (r : JRec) : Bool := r.trailer == jrnTrailer r.seq && jrnSumOk s r

/-! ### The area (R450) -/

/-- Size of the journal area (R450). -/
def jrnArea (s : State) : Nat := (16 + (s.boot.flashMib - 64) / 2) * 1048576

/-- Bytes of an erase block (R450). -/
def eraseBlock := 65536

/-- Flash bytes that records take: no record crosses the end of an erase block. -/
def jrnUsed (rs : List JRec) : Nat :=
  rs.foldl (fun n r => let k := jrnSize r
    if n % eraseBlock + k ≤ eraseBlock then n + k else roundUp n eraseBlock + k) 0

/-- Bytes left in the last erase block of a log that the next record, of `k` bytes, does not fit. -/
def jrnGap (rs : List JRec) (k : Nat) : Nat :=
  let n := jrnUsed rs % eraseBlock
  if n + k ≤ eraseBlock then 0 else eraseBlock - n

/-- Free bytes of the journal area. -/
def jrnFree (s : State) : Nat := jrnArea s - max (jrnUsed s.keys.jrn0) (jrnUsed s.keys.jrn1)

/-- The area has room for a change of `n` bytes beside the two erase blocks that compaction needs (R110, assumption 59). -/
def jrnRoom (s : State) (n : Nat) : Bool := decide (n + 2 * eraseBlock ≤ jrnFree s)

/-! ### The chips (R107) -/

/-- A chip takes writes: it is not faulty or absent. -/
def chipUp (m : ChipMode) : Bool := m == .good || m == .copying

/-- A chip's mode by number. -/
def chipMode (s : State) (k : Nat) : ChipMode := if k = 0 then s.boot.chip0 else s.boot.chip1

/-- A chip fails to program or verify a record: later changes go to the other chip only (R107). -/
def chipFail (s : State) (k : Nat) : State :=
  let s1 := tallyPut s agThm 0x0480 [(0x0F, k)]
  if k = 0 then { s1 with boot := { s1.boot with chip0 := .faulty, probeAt := s.time.clk } }
  else { s1 with boot := { s1.boot with chip1 := .faulty, probeAt := s.time.clk } }

/-! ### Writing a change (R107) -/

/-- Where a change stands while its records are placed: the next sequence, the two logs, and the sequences of its records. -/
structure JrnPos where
  seq  : Nat
  log0 : List JRec
  log1 : List JRec
  seqs : List Nat := []
  deriving DecidableEq, Repr

/-- A record enters the logs of the chips that take it. Where it does not fit the rest of an erase block, `PAD` fills that rest; a rest too short
for a record's header and trailer stays erased (assumption 59). -/
def jrnPlace (s : State) (w0 w1 : Bool) (p : JrnPos) (owner : Nat) (key : List Byte) (k : JKind) : JrnPos :=
  let g0 := if w0 then jrnGap p.log0 (jrnKindSize k) else 0
  let g1 := if w1 then jrnGap p.log1 (jrnKindSize k) else 0
  let pads (g : Nat) (rs : List JRec) : List JRec :=
    if 48 ≤ g then rs ++ [jrnClose (jrnProgram s 0xFFFF p.seq [] (.pad (g - 40)))] else rs
  let seq := if 48 ≤ g0 ∨ 48 ≤ g1 then p.seq + 1 else p.seq
  let r := jrnClose (jrnProgram s owner seq key k)
  { seq := seq + 1, log0 := if w0 then pads g0 p.log0 ++ [r] else p.log0, log1 := if w1 then pads g1 p.log1 ++ [r] else p.log1
    seqs := p.seqs ++ [seq] }

/-- A change of records with one commit (R107): none when neither chip takes it. `ok0` and `ok1`: the chip programs and
verifies. -/
def jrnWrite (s : State) (ok0 ok1 : Bool) (owner : Nat) (key : List Byte) (rs : List (Nat × List Byte × JKind)) :
    Option State :=
  let w0 := chipUp s.boot.chip0 && ok0
  let w1 := chipUp s.boot.chip1 && ok1
  let p := rs.foldl (fun p r => jrnPlace s w0 w1 p r.1 r.2.1 r.2.2) { seq := s.keys.nextSeq, log0 := s.keys.jrn0, log1 := s.keys.jrn1 }
  let q := jrnPlace s w0 w1 p owner key (.commit p.seqs)
  let s1 := if chipUp s.boot.chip0 && !ok0 then chipFail s 0 else s
  let s2 := if chipUp s.boot.chip1 && !ok1 then chipFail s1 1 else s1
  if !w0 && !w1 then none
  else some { s2 with keys := { s2.keys with jrn0 := q.log0, jrn1 := q.log1, nextSeq := q.seq, highMark := q.seq - 1 } }

/-- The state after a change that neither chip took: the failed chips are noted (R107). -/
def jrnFailed (s : State) (ok0 ok1 : Bool) : State :=
  let s1 := if chipUp s.boot.chip0 && !ok0 then chipFail s 0 else s
  if chipUp s.boot.chip1 && !ok1 then chipFail s1 1 else s1

/-- One record of an owner under its store key, with its commit. -/
def jrnOne (s : State) (ok0 ok1 : Bool) (owner : Nat) (k : JKind) : Option State :=
  jrnWrite s ok0 ok1 owner (oskOf s owner) [(owner, oskOf s owner, k)]

/-- Records in changes of at most 8 (Table 4-10). -/
def jrnMany (s : State) (ok0 ok1 : Bool) (owner : Nat) (key : List Byte) (rs : List (Nat × List Byte × JKind)) :
    Nat → Option State
  | 0 => some s
  | f + 1 =>
    if rs.isEmpty then some s
    else match jrnWrite s ok0 ok1 owner key (rs.take 8) with
      | none => none
      | some s1 => jrnMany s1 ok0 ok1 owner key (rs.drop 8) f

/-- One device-wide record under KDF(SEAM), with its commit (Table 4-10). -/
def jrnGroup (s : State) (ok0 ok1 : Bool) (k : JKind) : Option State :=
  jrnWrite s ok0 ok1 0xFFFF (seamStoreKey s) [(0xFFFF, seamStoreKey s, k)]

/-- One COUNTER record of an owner under KDF(LINK), with its commit under the owner's store key (Table 4-10). -/
def jrnCounter (s : State) (ok0 ok1 : Bool) (owner : Nat) (k : JKind) : Option State :=
  jrnWrite s ok0 ok1 owner (oskOf s owner) [(owner, linkStoreKey s owner, k)]

/-- One store key of an owner, wrapped under KDF(STORE) of a generation and its measurements, with its commit (R100). -/
def jrnOsk (s : State) (ok0 ok1 : Bool) (owner : Nat) (key k : List Byte) : Option State :=
  jrnWrite s ok0 ok1 owner key [(owner, storeKey s s.boot.bm0 s.boot.bm1 owner s.boot.ksGen, .osk s.boot.ksGen k)]

/-- Whether each chip programs and verifies in a change that no row of Thimble's carries: a free value (assumption 63). -/
def chipsFree (s : State) : (Bool × Bool) × State :=
  let (v, s1) := freeWord s
  ((bitN v.toNat 0, bitN v.toNat 1), s1)

/-- A change outside Thimble's rows: what it leaves, and whether a chip took it; where neither did it is abandoned (R107). -/
def jrnTry (s : State) (w : State → Bool → Bool → Option State) : State × Bool :=
  let k := chipsFree s
  match w k.2 k.1.1 k.1.2 with
  | some t => (t, true)
  | none => (jrnFailed k.2 k.1.1 k.1.2, false)

/-! ### What is effective (R108, R109, R453) -/

/-- The complete records of both chips. -/
def jrnComplete (s : State) : List JRec := (s.keys.jrn0 ++ s.keys.jrn1).filter (jrnWhole s)

/-- The store keys of an owner that the journal holds. -/
def jrnOsks (rs : List JRec) (owner : Nat) : List (List Byte) :=
  rs.filterMap (fun r => match r.kind with
    | .osk _ k => if r.owner = owner then some k else none
    | _ => none)

/-- The tag of a record is correct: under the keys of some entry of the generation table where the root derivation gives its key, under the
owner's store key otherwise (R453). A record of an owner without a store key is ignored (R125). Tags are compared by their keys (assumption 7). -/
def jrnVerifies (s : State) (rs : List JRec) (r : JRec) : Bool :=
  let gens := (s.boot.ctl.map (·.gens)).getD []
  let derived (p : Nat) : Bool := gens.any (fun g => kdfWith s g.bm0 g.bm1 p r.owner [] == some r.key)
  let own := jrnOsks rs r.owner
  match r.kind with
  | .osk _ _ => gens.any (fun g => storeKey s g.bm0 g.bm1 r.owner g.gen == r.key)
  | .counter _ => derived 2
  | .group _ _ => derived 3
  | .commit _ => if r.owner = 0xFFFF then derived 3 else own.isEmpty || own.contains r.key
  | .pad _ => true
  | _ => own.isEmpty || own.contains r.key

/-- The complete records, rising by sequence, each once: of two copies one whose tag is correct. -/
def jrnAll (s : State) : List JRec :=
  let rs := jrnComplete s
  (rs.foldl (fun (t : Tbl JRec) r =>
    if (tblFind r.seq t).isNone || jrnVerifies s rs r then tblPut r.seq r t else t) []).map (·.2)

/-- A COMMIT record is effective: its tag is correct, and every record that it names is complete (R108). -/
def commitCounts (s : State) (all : List JRec) (r : JRec) : Bool :=
  match r.kind with
  | .commit seqs => jrnVerifies s all r && seqs.all (fun n => all.any (fun x => x.seq == n))
  | _ => false

/-- The effective records: the effective commits, and what they name (R108). -/
def jrnEffective (s : State) : List JRec :=
  let all := jrnAll s
  let commits := all.filter (commitCounts s all)
  let named := commits.flatMap (fun r => match r.kind with
    | .commit seqs => r.seq :: seqs
    | _ => [])
  all.filter (fun r => named.contains r.seq)

/-- The highest effective sequence. -/
def jrnTop (s : State) : Nat := (jrnEffective s).foldl (fun n r => max n r.seq) 0

/-- The copies of a record on the chips that serve fail their tags, each with a correct checksum (R109). -/
def tagFails (s : State) (rs : List JRec) (seq : Nat) : Bool :=
  let bad (log : List JRec) : Bool := log.any (fun r => r.seq == seq && jrnWhole s r && !jrnVerifies s rs r)
  let c0 := chipUp s.boot.chip0
  let c1 := chipUp s.boot.chip1
  (c0 || c1) && (!c0 || bad s.keys.jrn0) && (!c1 || bad s.keys.jrn1)

/-- The journal shows tampering (R109): a record whose tag fails on both chips, or a highest effective sequence below the vault's mark. -/
def jrnTampered (s : State) : Bool :=
  let rs := jrnComplete s
  rs.any (fun r => tagFails s rs r.seq) || decide (jrnTop s < s.keys.highMark)

/-- A chip's log with every effective record that it lacked, in the order of the sequences (R108). -/
def jrnMend (eff log : List JRec) : List JRec :=
  sortBy JRec.seq (log ++ eff.filter (fun r => !log.any (fun x => x.seq == r.seq)))

/-- The latest effective record that passes a test. -/
def jrnLatest (s : State) (p : JRec → Bool) : Option JRec := ((jrnEffective s).filter p).getLast?

/-! ### Compaction (R110) -/

/-- The generations whose OSK records are kept: those of the boot control record's table (R101, R452). -/
def gensKept (s : State) : List Nat :=
  match s.boot.ctl with
  | none => [s.boot.ksGen]
  | some b => s.boot.ksGen ::
    (b.gens.filter (fun g => g.mode == .running || g.mode == .trial || g.mode == .pending)).map (·.gen)

/-- The latest LEASE record of a handle's object: none once the object is destroyed. -/
def leaseLatest (s : State) (h : Nat) : Option JRec :=
  jrnLatest s (fun x => match x.kind with
    | .lease g _ _ => g == h
    | .destroy g _ => g == h
    | _ => false)

/-- A record is live (R110). Of an owner's OSK records of one generation it is the latest, and only while it holds the owner's present key: the
record of a former owner of the number is none (R123). -/
def jrnLive (s : State) (r : JRec) : Bool :=
  match r.kind with
  | .object h _ =>
    (jrnLatest s (fun x => match x.kind with
      | .object g _ => g == h
      | .destroy g _ => g == h
      | _ => false)).any (fun x => x.seq == r.seq)
  | .lease h _ _ => (leaseLatest s h).any (fun x => x.seq == r.seq)
  | .osk g k =>
    (gensKept s).contains g && (r.owner == 0xFFFF || (tblFind r.owner s.keys.owners).isSome) && (tblFind r.owner s.keys.osks).all (· == k) &&
    (jrnLatest s (fun x => x.owner == r.owner && (match x.kind with
      | .osk h _ => h == g
      | _ => false))).any (fun x => x.seq == r.seq)
  | .counter _ =>
    (jrnLatest s (fun x => x.owner == r.owner && (match x.kind with
      | .counter _ => true
      | _ => false))).any (fun x => x.seq == r.seq)
  | .group _ _ =>
    (jrnLatest s (fun x => match x.kind with
      | .group _ _ => true
      | _ => false)).any (fun x => x.seq == r.seq)
  | _ => false

/-- The records of the oldest erase block of a log, and the rest. -/
def oldestBlock (rs : List JRec) : List JRec × List JRec :=
  let n := (rs.foldl (fun (a : Nat × Nat) r => let k := jrnSize r
    if a.2 + k ≤ eraseBlock ∧ a.1 ≠ 0 ∨ a.1 = 0 then (a.1 + 1, a.2 + k) else (a.1, eraseBlock + 1)) (0, 0)).1
  (rs.take n, rs.drop n)

/-- The sequences that leave with some records: their own, and those that an effective COMMIT names beside one of them, for that COMMIT counts
no longer once a record that it names is gone (R108, assumption 59). -/
def jrnLeaving (s : State) (gone : List JRec) : List Nat :=
  let own := gone.map (·.seq)
  own ++ (jrnEffective s).flatMap (fun r => match r.kind with
    | .commit seqs => if own.contains r.seq || seqs.any own.contains then seqs else []
    | _ => [])

/-- The live records to copy when some records leave, in the order of their sequences: behind an object its latest LEASE record, so that no
count rises (R110, R114). -/
def jrnCopies (s : State) (gone : List JRec) : List JRec :=
  let seqs := jrnLeaving s gone
  ((jrnEffective s).filter (fun r => seqs.contains r.seq && jrnLive s r)).flatMap (fun r => match r.kind with
    | .object h _ => r :: ((leaseLatest s h).filter (fun x => decide (r.seq < x.seq) && jrnLive s x)).toList
    | .lease .. => if seqs.contains r.seq then [r] else []
    | _ => [r])

/-- The key under which compaction writes a record again: the running generation's where the root derivation gives it (R453). -/
def jrnRekey (s : State) (r : JRec) : List Byte :=
  match r.kind with
  | .osk g _ => if g = s.boot.ksGen then storeKey s s.boot.bm0 s.boot.bm1 r.owner g else r.key
  | .counter _ => linkStoreKey s r.owner
  | .group _ _ => seamStoreKey s
  | _ => r.key

/-- The live ones of some records stand again at the head, in new changes; `rest0` and `rest1` are what stays of the logs in front of them. -/
def jrnMove (s : State) (ok0 ok1 : Bool) (gone rest0 rest1 : List JRec) : State :=
  let live := jrnCopies s gone
  match jrnMany s ok0 ok1 0xFFFF (seamStoreKey s) (live.map (fun r => (r.owner, jrnRekey s r, r.kind))) (live.length + 1) with
  | none => jrnFailed s ok0 ok1
  | some s1 =>
    let cut0 := if chipUp s1.boot.chip0 then rest0 ++ s1.keys.jrn0.drop s.keys.jrn0.length else s1.keys.jrn0
    let cut1 := if chipUp s1.boot.chip1 then rest1 ++ s1.keys.jrn1.drop s.keys.jrn1.length else s1.keys.jrn1
    { s1 with keys := { s1.keys with jrn0 := cut0, jrn1 := cut1 } }

/-! ### Requests to Thimble (R397, R398) -/

/-- Thimble answers. -/
def thmUp (s : State) : Bool := s.thm.mode == .ready

/-- The request ring has a place (R397). -/
def thmRoom (s : State) : Bool := decide (s.thm.reqs.length < 32)

/-- The CP posts a request and moves `THM_REQ_TAIL`. -/
def thmPost (s : State) (r : ThmReq) : State :=
  if !thmRoom s then s
  else { s with thm := { s.thm with
    reqs := s.thm.reqs ++ [{ r with tag := s.thm.nextTag, taken := s.time.clk }], nextTag := s.thm.nextTag + 1 } }

/-- A command posts its request once: it waits for the answer at step 1. -/
def thmAsk (s : State) (tag : Nat) (c : Cmd) (r : ThmReq) : State :=
  if c.work.step ≠ 0 ∨ !thmRoom s then s
  else thmPost (cmdPut s tag { c with work := { c.work with step := 1 } }) { r with alarm := cAlarm c, cmd := some tag }

/-- Fast-class operations (Table 14-4). -/
def thmFast (op : Nat) : Bool := op == 1 || op == 2 || op == 3 || op == 0xD || op == 0x11

/-- A request must wait for an earlier one that names the same handle (R398). -/
def thmHeld (earlier : List ThmReq) (r : ThmReq) : Bool :=
  (r.op == 3 || r.op == 9 || r.op == 0xA) && earlier.any (fun x => x.a == r.a || x.b == r.a)

/-- The requests that may be served now, each with what comes before it. -/
def thmReady : List ThmReq → List ThmReq → List ThmReq
  | _, [] => []
  | earlier, r :: t => (if thmHeld earlier r then [] else [r]) ++ thmReady (earlier ++ [r]) t

/-- The request that Thimble serves next: fast before ordered, alarm first, then the oldest (R398). -/
def thmNext (s : State) : Option ThmReq :=
  if !thmUp s || !procRuns s then none
  else
    let rs := thmReady [] s.thm.reqs
    let pick (p : ThmReq → Bool) : Option ThmReq := rs.find? p
    (pick (fun r => thmFast r.op && r.alarm)).or ((pick (fun r => thmFast r.op)).or
      ((pick (fun r => r.alarm)).or (pick (fun _ => true))))

/-- Thimble answers a request (R397). -/
def thmAnswer (s : State) (r : ThmReq) (status : Nat) (a : Nat := 0) (nums : List Nat := []) (data : List Byte := []) :
    State :=
  { s with thm := { s.thm with
    reqs := s.thm.reqs.filter (fun x => x.tag != r.tag)
    answers := s.thm.answers ++ [{ op := r.op, tag := r.tag, status := status, a := a, nums := nums, data := data
                                   cmd := r.cmd }] } }

/-- The flash bytes that a request's change takes at most, for the requests that make several changes; none where it changes nothing persistent. -/
def reqChange (s : State) (r : ThmReq) : Option Nat :=
  if 5 ≤ r.op ∧ r.op ≤ 8 then (if bitN (r.nums.getD 4 0) kPersist then some 8192 else none)
  else if 9 ≤ r.op ∧ r.op ≤ 0xB then (if keyHas s r.a kPersist then some 8192 else none)
  else if r.op = 0xC then some (8192 + 160 * s.keys.objs.length)
  else if r.op = 0xD then some (8192 + 16 * s.links.cards.length)
  else if r.op = 0x10 then some (8192 + 512 * s.keys.osks.length + 16 * s.links.cards.length)
  else none

/-- A request whose change the journal area has no room for waits (R110). -/
def reqRoom (s : State) (r : ThmReq) : Bool := (reqChange s r).all (jrnRoom s)

/-- Serves the next request if its operation is `op`. -/
def thmServe (s : State) (op : Nat) (f : ThmReq → State → State) : Host.Outcome State Fault Refusal :=
  match thmNext s with
  | some r => if r.op = op ∧ reqRoom s r = true then .next (f r s) else .next s
  | none => .next s

end Sys2Proof.Machine
end

