-- ==== Sys2Proof/Machine/Random.lean ====
section
/-! DEFINITION. Lint and Bobbin as the other blocks meet them: draws, and what power states, resets and a Rinse do to them
(spec 08, R208 to R223). -/

namespace Sys2Proof.Machine

/-- Lint source `n`. -/
def lintGet (s : State) (n : Nat) : LintSrc := tblGet {} s.rng.srcs n

/-- Lint source `n` set. -/
def lintPut (s : State) (n : Nat) (x : LintSrc) : State :=
  { s with rng := { s.rng with srcs := tblSet {} n x s.rng.srcs } }

/-- A source is enabled (`RNG_CFG.EN`). -/
def lintOn (s : State) (n : Nat) : Bool := bitOf (regGet s aRngCfg) n

/-- A source conditions its bits in von Neumann mode (`RNG_CFG.VN`). -/
def lintVn (s : State) (n : Nat) : Bool := bitOf (regGet s aRngCfg) (16 + n)

/-- Sources begin sampling, each with its start-up test (R213). -/
def lintBegin (s : State) (p : Nat → Bool) : State :=
  ((List.range 8).filter p).foldl (fun s n => lintPut s n { since := s.time.clk, lfsr := (lintGet s n).lfsr }) s

/-- The windows in progress are discarded, uncounted, and the repetition runs restart (R222). Table 8-3 says so of WARM; at a Rinse and at the end of
a test mode the runs restart too, and a start-up test in progress is timed anew (DESIGN CHOICE, assumption 28). -/
def lintDiscard (s : State) : State :=
  (List.range 8).foldl (fun s n => lintPut s n { lintGet s n with since := s.time.clk, runLen := 0 }) s

/-- `PWR_STATE.STATE` set. -/
def setPwrMode (s : State) (m : Nat) : State := regSetField s aPwrState 2 0 m

/-- A request reaches Press, Mangle, Bobbin or the Hamper switch: the idle time of WARM restarts, and WARM ends (Table 2-5). -/
def touchFast (s : State) : State :=
  let s1 := { s with pwr := { s.pwr with fastLast := s.time.clk } }
  if pwrMode s = 1 then lintDiscard (setPwrMode s1 0) else s1

/-- A test mode of the Maker state is in force (R224). -/
def rngTest (s : State) : Bool := lcState s == 0 && decide (regField s aRngTestCtrl 1 0 ≠ 0)

/-- Randomness is available, in the sense of check 10 (R217). -/
def rngAvailable (s : State) : Bool := s.rng.inst && !s.rng.limit && !rngTest s

/-- The fast domain has power: in AIRING and STANDBY Bobbin issues no call, and in WARM a call first ends WARM (R222, Table 2-5). -/
def fastPowered (s : State) : Bool := decide (pwrMode s < 2) && !s.pwr.vault

/-- Bobbin serves an internal consumer that draws now; otherwise the consumer waits (R214, R217, R222, R224). -/
def bobbinServes (s : State) : Bool := rngAvailable s && fastPowered s

/-- Bobbin serves blinding now: past the reseed limit too, but not in a test mode (R217, R224). -/
def blindServes (s : State) : Bool := s.rng.inst && !rngTest s && fastPowered s

/-- The command of an order of acceptance still waits for its start. -/
def startLive (s : State) (o : Nat) : Bool := s.tortin.tracker.any (fun e => e.2.order == o && e.2.stage == .waiting)

/-- A start that stands at the arbiter: its command still waits at check 11, and Bobbin serves what it draws (R217, R219). -/
def startStands (s : State) (r : RngReq) : Bool :=
  match r.what with
  | .start o => startLive s o && (if r.group = 1 then blindServes s else bobbinServes s)
  | _ => false

/-- Some command whose draws stand in an earlier group waits at the arbiter (R219). -/
def rngBehind (s : State) (g : Nat) : Bool := s.rng.reqs.any (fun r => decide (r.group < g) && startStands s r)

/-- Bobbin serves an internal consumer of an arbiter group now (R214, R219). -/
def bobbinFor (s : State) (g : Nat) : Bool := bobbinServes s && !rngBehind s g

/-- The arbiter turns to the start of a command of a group next: no other start stands in an earlier group, nor of its group one of the alarm class
or an older one (R219). -/
def startTurn (s : State) (c : Cmd) (g : Nat) (alarm : Bool) : Bool :=
  !rngBehind s g && !s.rng.reqs.any (fun r => r.group == g && r.what != .start c.order && startStands s r &&
    (match r.what with
      | .start o => (r.alarm && !alarm) || (r.alarm == alarm && decide (o < c.order))
      | _ => false))

/-- The start of a command no longer stands at the arbiter, nor do those of commands that have gone. -/
def startGone (s : State) (order : Nat) : State :=
  { s with rng := { s.rng with reqs := s.rng.reqs.filter (fun r => match r.what with
    | .start o => o != order && startLive s o
    | _ => true) } }

/-- Calls that a request of `n` bytes takes (R215). -/
def rngCalls (n : Nat) : Nat := (n + 4095) / 4096

/-- `n` bytes drawn from Bobbin in whole blocks, the surplus discarded (R215). -/
def draw (s0 : State) (n : Nat) : List Byte × State :=
  let s := touchFast s0
  let k := roundUp n 16
  (bytesAt (Config.drbgBytes s.rng.work k) 0 n,
   { s with rng := { s.rng with work := Config.drbgNext s.rng.work k, calls := s.rng.calls + rngCalls k } })

/-- Blinding values are drawn for a private operation (R187); the spec gives no number of calls: a free value
(assumption 3). -/
def drawBlinding (s : State) : State :=
  let (v, s1) := freeWord (touchFast s)
  { s1 with rng := { s1.rng with
    work := Config.drbgNext s1.rng.work (v.toNat % 4096), calls := s1.rng.calls + v.toNat % 256 } }

/-- The formation key pair of a device that stands alone is drawn, once Bobbin serves, where none is held: after a power-on reset and after a
group has been left (11_seam_groups.md before R307; R214). -/
def formationNeed (s : State) : State :=
  if s.seam.role ≠ .alone ∨ !s.seam.key.isEmpty ∨ !s.seam.formXs.isEmpty ∨ !bobbinServes s then s
  else
    let (a, s1) := draw s 32
    let (b, s2) := draw s1 64
    { s2 with seam := { s2.seam with
      formXs := a, formKs := b, formX := bytesAt (Config.publicOf 0x13 a) 0 32, formK := bytesAt (Config.publicOf 0x31 b) 0 1568 } }

/-- Entry into AIRING or STANDBY: Lint is powered down, the pool and the FIFOs are lost; Bobbin's state is retained
(R222). -/
def rngSleep (s : State) : State :=
  (List.range 8).foldl (fun s n => lintPut s n { lfsr := (lintGet s n).lfsr })
    { s with rng := { s.rng with pool := [], fifos := [] } }

/-- Wake from AIRING or STANDBY: start-up tests, and a reseed at the first 384 credited bits (R213, R222). -/
def rngWake (s : State) : State := lintBegin { s with rng := { s.rng with woken := s.rng.inst } } (lintOn s)

/-- Bobbin is uninstantiated, the pool and the FIFOs cleared (R222, R224). -/
def rngClear (s : State) : State :=
  { s with rng := { s.rng with
    inst := false, limit := false, work := [], pool := [], fifos := [], reseeds := 0, calls := 0, stamp := 0, late := none
    woken := false } }

/-- A Rinse: Bobbin and the pool are zeroed, and the windows in progress are discarded (R222). -/
def rngRinse (s : State) : State := lintDiscard (rngClear s)

/-- `RNG_CFG` takes a new value: a newly enabled source begins its start-up test; a disabled one powers down; a source whose
mode changes discards its window (R213, R222). -/
def rngConfig (s : State) (v : Word) : State :=
  let old := regGet s aRngCfg
  let s1 := regPut s aRngCfg v
  (List.range 8).foldl (fun s n =>
    if bitOf v n ≠ bitOf old n then lintPut s n { since := s.time.clk, lfsr := (lintGet s n).lfsr }
    else if bitOf v (16 + n) ≠ bitOf old (16 + n) then lintPut s n { lintGet s n with since := s.time.clk }
    else s) s1

/-- `RNG_TEST_CTRL` takes a new value in the Maker state: the pattern is loaded from the seed when it begins; when both modes
clear, Bobbin is instantiated again from real windows (R224). -/
def rngTestWrite (s : State) (v : Word) : State :=
  if lcState s ≠ 0 then s
  else
    let old := regField s aRngTestCtrl 1 0
    let s1 := regPut s aRngTestCtrl v
    let s2 := if bitOf v 0 && !bitN old 0 then
        (List.range 8).foldl (fun s n => lintPut s n { lintGet s n with lfsr := regGet s aRngTestSeed }) s1
      else s1
    if old ≠ 0 ∧ fieldOf v 1 0 = 0 then lintDiscard (rngClear s2) else s2

end Sys2Proof.Machine
end

