-- ==== Sys2Proof/Machine/Tally.lean ====
section
/-! DEFINITION. The Tally event recorder: the controller, the flush to flash and the 0x0Axx commands (spec 19). -/

namespace Sys2Proof.Machine

/-! ### Records -/

/-- Bytes of a record's body (R524). -/
def tallyBody : TallyBody → List Byte
  | .items xs => xs.flatMap (fun i => leBytes 2 i.kind ++ zeros 6 ++ leBytes 8 i.value.toNat)
  | .host n o app text => leBytes 2 n ++ leBytes 2 o ++ leBytes 2 app ++ leBytes 2 text.length ++ text

/-- A body written by `TALLY.WRITE`. -/
def isHostBody : TallyBody → Bool
  | .host _ _ _ _ => true
  | .items _ => false

/-- The exact length of a record (R523). -/
def tallyLen (r : TallyRec) : Nat := 56 + (tallyBody r.app.body).length

/-- The bytes of a record (Table 19-1), with its mark. -/
def tallyBytes (r : TallyRec) (mark : Nat) : List Byte :=
  let body := tallyBody r.app.body
  let head := leBytes 2 (tallyLen r) ++
    leBytes 1 (r.app.sev + 8 * b2n (isHostBody r.app.body) + 16 * b2n r.drops + 32 * b2n r.unset)
  let mid := leBytes 2 r.app.code ++ leBytes 2 (r.app.agent % 1024 + r.member * 1024 + b2n r.group * 4096) ++
    leBytes 8 r.seq ++ leBytes 8 r.app.stamp.toNat ++ leBytes 8 r.ct.toNat ++ leBytes 2 r.epoch.toNat ++
    leBytes 2 r.app.agentSeq.toNat
  head ++ leBytes 1 mark ++ mid ++ leBytes 4 r.rep ++ leBytes 4 (Config.crc32c (head ++ mid ++ body)).toNat ++
    zeros 4 ++ leBytes 8 r.last.toNat ++ body

/-- The length of a record padded to 8 B. -/
def tallyPad (r : TallyRec) : Nat := roundUp (tallyLen r) 8

/-- The slots that hold a valid record. -/
def tallyValid (s : State) : List (Nat × TallySlot) := s.tally.slots.filter (fun e => e.2.valid)

/-- The place and slot of the newest valid record. -/
def tallyNewest (s : State) : Option (Nat × TallySlot) :=
  (tallyValid s).foldl (fun b e => match b with
    | none => some e
    | some x => if x.2.rcd.seq < e.2.rcd.seq then some e else some x) none

/-- The place of the oldest valid record that a severity may overwrite (R529). -/
def tallyVictim (s : State) (sev : Nat) : Option (Nat × TallySlot) :=
  ((tallyValid s).filter (fun e => decide (e.2.rcd.app.sev ≤ sev))).foldl (fun b e => match b with
    | none => some e
    | some x => if e.2.rcd.seq < x.2.rcd.seq then some e else some x) none

/-- Valid records that are not yet in flash. -/
def tallyUnflushed (s : State) : List TallyRec := (tallyValid s).filterMap (fun e => if e.2.flushed then none else some e.2.rcd)

/-- Slots of the store (R521). -/
def tallySlots := 4096

/-- Step 2 and 3 of R529: takes a slot and writes the record there; `cut` leaves its mark at 0x00, as when a reset stops
the writer. -/
def tallyStore (s : State) (place : Nat) (a : TallyApp) (cut : Bool) : State :=
  let r : TallyRec := {
    app := a, drops := s.tally.dropped, unset := bitOf (regGet s aTimeSrcStat) 7, member := s.seam.index,
    group := inGroup s, seq := s.tally.nextSeq, ct := ctAt s a.stamp, epoch := epochId s, rep := 0, last := a.stamp }
  let s1 := { s with tally := { s.tally with
    slots := tblPut place { rcd := r, valid := !cut, taken := s.time.clk, flushed := false } s.tally.slots
    nextSeq := s.tally.nextSeq + 1, dropped := false } }
  if !cut && decide (4 ≤ a.sev) then sqcSet s1 aTlyEvt 0 else s1

/-- The controller acts on one append (R529): fold, take a slot, or drop. -/
def tallyRecord (s : State) (a : TallyApp) (cut : Bool) : State :=
  let fold := match tallyNewest s with
    | some (p, x) =>
      if x.rcd.app.code = a.code ∧ x.rcd.app.sev = a.sev ∧ x.rcd.app.agent = a.agent ∧ x.rcd.member = s.seam.index ∧
        x.rcd.app.body = a.body then some (p, x) else none
    | none => none
  match fold with
  | some (p, x) =>
    { s with tally := { s.tally with slots := tblPut p { x with
        rcd := { x.rcd with rep := min (x.rcd.rep + 1) 0xFFFFFFFF, last := a.stamp }, flushed := false } s.tally.slots } }
  | none =>
    match tblFree s.tally.slots 0 tallySlots with
    | some p => tallyStore s p a cut
    | none =>
      match tallyVictim s a.sev with
      | none => tallyDrop s
      | some (p, x) =>
        let s1 := if x.flushed then s else
          sqcSet { s with tally := { s.tally with overwritten := satAdd32 s.tally.overwritten 1 } } aTlyEvt 2
        tallyStore s1 p a cut

/-- What orders an append among those that wait (R27). -/
def appKey (a : TallyApp) : EventKey := { stamp := a.stamp, agent := a.agent, seq := a.agentSeq, member := 0 }

/-- The append that the controller takes next: the first in the order of R27 (R529). -/
def tallyHead (s : State) : Option (Nat × TallyApp) :=
  s.tally.ports.foldl (fun b e => match e.2 with
    | [] => b
    | a :: _ => match b with
      | none => some (e.1, a)
      | some (p, x) =>
        if eventBefore (appKey a) (appKey x) then some (e.1, a) else some (p, x)) none

/-- Records of severity DEBUG are stored only while the right `TALLY_DEBUG` is in force (R528, `LCS_DEBUG`). -/
def tallyDebugOn (s : State) : Bool := bitN (debugRights s) 8

/-- The controller takes one append from the ports. -/
def tallyTake (s : State) (cut : Bool) : State :=
  match tallyHead s with
  | none => s
  | some (p, a) =>
    let q := (tblGet [] s.tally.ports p).drop 1
    let s1 := { s with tally := { s.tally with ports := tblSet [] p q s.tally.ports } }
    if a.sev = 0 && !tallyDebugOn s then s1 else tallyRecord s1 a cut

/-- Appends waiting at all ports. -/
def tallyWaiting (s : State) : Nat := (s.tally.ports.map (fun e => e.2.length)).foldl (· + ·) 0

/-- The controller takes every waiting append. -/
def tallyDrain (s : State) : State := (List.range (tallyWaiting s)).foldl (fun s _ => tallyTake s false) s

/-- Records staged in AIRING and STANDBY are stored in order at the return to ACTIVE (R522). -/
def tallyUnstage (s : State) : State :=
  s.tally.staging.foldl (fun s a => tallyRecord s a false) { s with tally := { s.tally with staging := [] } }

/-- `TALLY_APPEND`: the controller takes an append; `cut` when a reset stops it before the mark is written. -/
def execTallyAppend (cut : Bool) (s : State) : Host.Outcome State Fault Refusal :=
  .next (if tallyAwake s then tallyTake s cut else s)

/-- `TALLY_SLOT_ABANDON`: a slot whose mark is still 0x00 10 µs after it was taken becomes free (R531). -/
def execTallySlotAbandon (place : Nat) (s : State) : Host.Outcome State Fault Refusal :=
  match tblFind place s.tally.slots with
  | none => .next s
  | some x =>
    if !x.valid && tallyAwake s && decide (x.taken + 10 * cycUs ≤ s.time.clk) then
      .next { s with tally := { s.tally with
        slots := tblDel place s.tally.slots, abandoned := satAdd32 s.tally.abandoned 1 } }
    else .next s

/-! ### Flushing (R532, R533) -/

/-- Sequences in rising order. -/
def insertSeq (n : Nat) : List Nat → List Nat
  | [] => [n]
  | m :: t => if n ≤ m then n :: m :: t else m :: insertSeq n t

/-- Sorts sequences. -/
def sortSeqs (xs : List Nat) : List Nat := xs.foldl (fun t n => insertSeq n t) []

/-- The order in which a flush writes: sequence order, severities FAULT and above first under a supply warning or the
power-fail sequence. -/
def flushOrder (s : State) : List Nat :=
  let rs := tallyUnflushed s
  let seqs (p : TallyRec → Bool) := sortSeqs ((rs.filter p).map (·.seq))
  if s.scorch.supplyWarn || s.scorch.pfw then
    seqs (fun r => decide (4 ≤ r.app.sev)) ++ seqs (fun r => decide (r.app.sev < 4))
  else seqs (fun _ => true)

/-- A flush is due (R532). -/
def flushDue (s : State) : Bool :=
  let rs := tallyUnflushed s
  decide (64 ≤ rs.length) || s.tally.want || s.scorch.supplyWarn || s.scorch.pfw ||
  rs.any (fun r => decide (6 ≤ r.app.sev)) ||
  s.tally.slots.any (fun e => e.2.valid && !e.2.flushed && decide (e.2.taken + cycS ≤ s.time.clk))

/-- A flush begins; one with nothing to write ends at once. -/
def flushBegin (s : State) : State :=
  match s.tally.flush with
  | some _ => s
  | none =>
    let todo := flushOrder s
    if todo.isEmpty then
      { s with tally := { s.tally with want := false } }
    else { s with tally := { s.tally with flush := some { todo := todo }, want := false } }

/-- `TALLY_FLUSH_BEGIN`: a flush begins on its count, age, severity or supply trigger. -/
def execTallyFlushBegin (s : State) : Host.Outcome State Fault Refusal :=
  .next (if flushDue s && tallyAwake s && !s.tally.flashFail then flushBegin s else s)

/-- `TALLY_FLUSH_RETRY`: a flush that failed on both chips is retried every 1 s (R533). -/
def execTallyFlushRetry (s : State) : Host.Outcome State Fault Refusal :=
  .next (if s.tally.flashFail && tallyAwake s && decide (s.tally.failAt + cycS ≤ s.time.clk) then flushBegin s else s)

/-- The record of a sequence in the store. -/
def tallyBySeq (s : State) (q : Nat) : Option (Nat × TallySlot) :=
  (tallyValid s).find? (fun e => e.2.rcd.seq == q)

/-- The records that fill one 4 KiB page, and how many sequences they take. -/
def pageFill (s : State) : List Nat → Nat → List TallyRec → List TallyRec × List Nat
  | [], _, acc => (acc.reverse, [])
  | q :: t, room, acc =>
    match tallyBySeq s q with
    | none => pageFill s t room acc
    | some (_, x) =>
      if tallyPad x.rcd ≤ room then pageFill s t (room - tallyPad x.rcd) (x.rcd :: acc) else (acc.reverse, q :: t)

/-- 4 KiB pages of the Tally area of a chip of 64 MiB, 25.5 MiB (Table 16-3), and of one 64 KiB block. -/
def areaPages (mib : Nat) : Nat := (mib * 1024 - 22 * 1024 - 512 - (16 * 1024 + (mib * 1024 - 65536) / 2)) / 4

/-- A page added to a Tally area: a full area loses its oldest 64 KiB block first; says whether it did. -/
def areaAdd (cap : Nat) (area : List (List TallyRec)) (page : List TallyRec) : List (List TallyRec) × Bool :=
  if area.length < cap then (area ++ [page], false) else (area.drop 16 ++ [page], true)

/-- A page of a flush ends on the chips (R532, R533). -/
def flushPage (s : State) (ok0 ok1 : Bool) : State :=
  match s.tally.flush with
  | none => s
  | some f =>
    let (page, rest) := pageFill s f.todo 4096 []
    let w0 := ok0 && !s.tally.skip0 && (s.boot.chip0 == .good || s.boot.chip0 == .copying)
    let w1 := ok1 && !s.tally.skip1 && (s.boot.chip1 == .good || s.boot.chip1 == .copying)
    if !w0 && !w1 then
      sqcSet { s with tally := { s.tally with
        flush := none, flashFail := true, skip0 := false, skip1 := false, failAt := s.time.clk
        flushFails := satAdd32 s.tally.flushFails 1 } } aTlyEvt 5
    else
      let cap := areaPages s.boot.flashMib
      let (a0, z0) := if w0 then areaAdd cap s.tally.flash0 page else (s.tally.flash0, false)
      let (a1, z1) := if w1 then areaAdd cap s.tally.flash1 page else (s.tally.flash1, false)
      let done (x : TallySlot) : TallySlot :=
        if page.any (fun r => r.seq == x.rcd.seq && r.rep == x.rcd.rep) then { x with flushed := true } else x
      let s1 := { s with tally := { s.tally with
        flash0 := a0, flash1 := a1, slots := tblMap done s.tally.slots
        skip0 := !w0, skip1 := !w1, degraded := s.tally.degraded || !w0 || !w1
        flush := if rest.isEmpty then none else some { f with todo := rest, written := f.written + page.length }
        flashFail := if rest.isEmpty then false else s.tally.flashFail } }
      let s2 := regAdd s1 aTlyFlushed page.length
      let s3 := if z0 || z1 then sqcSet s2 aTlyEvt 6 else s2
      if rest.isEmpty then sqcSet s3 aTlyEvt 4 else s3

/-- The copies of a Tally area under the selection rule of R533: for each sequence the copy with the highest repeat
count, in rising order of sequence. -/
def areaSelect (a0 a1 : List (List TallyRec)) : List TallyRec :=
  let all := a0.flatten ++ a1.flatten
  let best := all.foldl (fun (t : Tbl TallyRec) r => match tblFind r.seq t with
    | none => tblPut r.seq r t
    | some x => if x.rep < r.rep then tblPut r.seq r t else t) []
  best.map (·.2)

/-- At a power-on reset the 2,048 records of the highest sequences are loaded as flushed records, and the sequence
resumes above the highest (R525, R533). -/
def tallyReload (s : State) : State :=
  let rs := areaSelect s.tally.flash0 s.tally.flash1
  let keep := rs.drop (rs.length - 2048)
  let slots := keep.foldl (fun (t : Tbl TallySlot × Nat) r =>
    (tblPut t.2 { rcd := r, valid := true, taken := 0, flushed := true } t.1, t.2 + 1)) ([], 0)
  let top := rs.foldl (fun n r => max n r.seq) 0
  { s with tally := { flash0 := s.tally.flash0, flash1 := s.tally.flash1, slots := slots.1, nextSeq := top + 1 } }

/-! ### Status words (R539, Table 19-6) -/

/-- `TLY_USED`: the sum of the lengths of the stored records. -/
def tallyUsed (s : State) : Nat := ((tallyValid s).map (fun e => tallyLen e.2.rcd)).foldl (· + ·) 0

/-- `TLY_STAT`. -/
def tallyStat (s : State) : Nat :=
  b2n s.tally.flush.isSome * 2 ^ 31 + b2n (decide (tallySlots ≤ s.tally.slots.length)) * 2 ^ 30 +
  b2n (tallyDebugOn s) * 2 ^ 29 + b2n s.tally.degraded * 2 ^ 28 + b2n s.tally.flashFail * 2 ^ 27 +
  (tallyUnflushed s).length

/-- Sequences held in the store, rising. -/
def tallySeqs (s : State) : List Nat := sortSeqs ((tallyValid s).map (fun e => e.2.rcd.seq))

/-- `TALLY.STATUS` result (Table 19-6). -/
def tallyStatus (s : State) : List Byte :=
  let qs := tallySeqs s
  let fs := (areaSelect s.tally.flash0 s.tally.flash1).map (·.seq)
  leBytes 4 (tallyStat s) ++ leBytes 4 (tallyValid s).length ++ leBytes 4 (tallyUsed s) ++
  leBytes 4 (regGet s aTlyDropped).toNat ++ leBytes 4 s.tally.overwritten.toNat ++
  leBytes 4 s.tally.abandoned.toNat ++ leBytes 8 (qs.headD 0) ++ leBytes 8 (qs.getLastD 0) ++
  leBytes 8 (fs.headD 0) ++ leBytes 8 (fs.getLastD 0) ++
  leBytes 4 (4 * max s.tally.flash0.length s.tally.flash1.length) ++ leBytes 4 s.tally.flushFails.toNat

/-! ### Commands (R534 to R538) -/

/-- The catalogue's entries of the 0x0Axx commands (Table 3-6, Table 19-4). -/
def specTally (s : State) (c : Cmd) : Option CmdSpec :=
  match cOp c with
  | 0x0A01 => some { zero := noKeys c && parZero c [(54, 2)], form := decide (par c 52 1 ≤ 1 ∧ par c 53 1 ≤ 7)
                     outMax := 128 }
  | 0x0A02 => some { zero := noKeys c && parZero c [(53, 3)], form := decide (par c 52 1 ≤ 7) }
  | 0x0A03 => some { zero := noKeys c && parZero c [(53, 1), (56, 8)], form := decide (par c 52 1 ≤ 4), inMax := 64
                     issuer := decide (par c 52 1 ≠ 0) || tallyDebugOn s }
  | 0x0A04 => some { zero := noKeys c && parZero c [(52, 12)], outMax := 64 }
  | 0x0A05 => some { zero := noKeys c && parZero c [(52, 12)]
                     issuer := decide (cOwner s c = 0) }
  | _ => none

/-- The records that fit an output, from the records in order. -/
def readFit : List TallyRec → Nat → List Byte × Option Nat
  | [], _ => ([], none)
  | r :: t, room =>
    if tallyPad r ≤ room then
      let (bs, nx) := readFit t (room - tallyPad r)
      (bytesAt (tallyBytes r 0x5A) 0 (tallyPad r) ++ bs, nx)
    else ([], some r.seq)

/-- Records of the store from a first sequence up to the first whose mark is 0x00 (R536). -/
def readStore (s : State) (first : Nat) : List TallyRec × Option Nat :=
  let stop := (s.tally.slots.filter (fun e => !e.2.valid && decide (first ≤ e.2.rcd.seq))).map (fun e => e.2.rcd.seq)
  let lim := (sortSeqs stop).head?
  let rs := (sortSeqs ((tallyValid s).map (fun e => e.2.rcd.seq))).filterMap
    (fun q => (tallyBySeq s q).map (fun e => e.2.rcd))
  (rs.filter (fun r => decide (first ≤ r.seq) && (match lim with | none => true | some l => decide (r.seq < l))), lim)

/-- `TALLY.READ` (R536). -/
def execTallyRead (tag : Nat) (io : HostIO) (s : State) : Host.Outcome State Fault Refusal :=
  runCmd s tag 0x0A01 (fun c s =>
    let first := par c 56 8
    let (rs, lim) := if par c 52 1 = 0 then readStore s first
      else ((areaSelect s.tally.flash0 s.tally.flash1).filter (fun r => decide (first ≤ r.seq)), none)
    let (bs, nx) := readFit (rs.filter (fun r => decide (par c 53 1 ≤ r.app.sev))) (cOutCap c)
    endOut s tag io bs stOk (BitVec.ofNat 64 (nx.getD (lim.getD 0))))

/-- The sequences that `TALLY.CLEAR` removes: severity and sequence at or below the limits (R534). -/
def clearSet (s : State) (sev top : Nat) : List Nat :=
  ((tallyValid s).filter (fun e => decide (e.2.rcd.app.sev ≤ sev ∧ e.2.rcd.seq ≤ top))).map (fun e => e.2.rcd.seq)

/-- Some of the listed sequences are still to be flushed. -/
def anyUnflushed (s : State) (qs : List Nat) : Bool := (tallyUnflushed s).any (fun r => qs.contains r.seq)

/-- An append that firmware of the CP makes and waits for: the sequence under which it stands, 0 if it was dropped. -/
def tallyNow (s : State) (a : TallyApp) : Nat × State :=
  let s1 := tallyDrain s
  let s2 := tallyRecord s1 a false
  match tallyNewest s2 with
  | some (_, x) => (if x.rcd.app.code = a.code ∧ x.rcd.last = a.stamp ∧ x.rcd.app.body = a.body then x.rcd.seq else 0, s2)
  | none => (0, s2)

/-- `TALLY.CLEAR` (R534). Its first run takes the limits and asks for the flush; a later run, once the flush has ended,
frees the slots and records the clear. -/
def execTallyClear (tag : Nat) (s : State) : Host.Outcome State Fault Refusal :=
  runCmd s tag 0x0A02 (fun c s =>
    let remove (qs : List Nat) (top : Nat) (s : State) : State :=
      let n := (s.tally.slots.filter (fun e => e.2.valid && qs.contains e.2.rcd.seq)).length
      let s1 := { s with tally := { s.tally with
        slots := tblKeep (fun _ x => !(x.valid && qs.contains x.rcd.seq)) s.tally.slots } }
      let (q, s2) := agentNext (sqcSet s1 aTlyEvt 3) agCp
      let (sq, s3) := tallyNow s2 { code := 0x0A80, sev := 2, agent := agCp, stamp := nowStamp s, agentSeq := q
                                    body := .items ([(2, (cSlice c).getD 0xFFFF), (1, cOwner s c), (0x0F, top), (0x0E, n)].map
                                      (fun i => { kind := i.1, value := BitVec.ofNat 64 i.2 })) }
      endOk s3 tag 0 (extra2 n sq)
    if c.work.step = 0 then
      let top := if par c 56 8 = 0 then s.tally.nextSeq - 1 else par c 56 8
      let qs := clearSet s (par c 52 1) top
      if anyUnflushed s qs then
        setWork { s with tally := { s.tally with want := true, flashFail := false } } tag
          { step := 1, nums := qs, bytes := leBytes 4 s.tally.flushFails.toNat, parts := [(0, leBytes 8 top)] }
      else remove qs top s
    else if !anyUnflushed s c.work.nums then remove c.work.nums (leNat (tblGet [] c.work.parts 0)) s
    else if leNat c.work.bytes < s.tally.flushFails.toNat then endAfter s tag 0x0A01
    else s)

/-- `TALLY.WRITE` (R535). -/
def execTallyWrite (tag : Nat) (io : HostIO) (s : State) : Host.Outcome State Fault Refusal :=
  runIn s tag 0x0A03 io (fun c bs s =>
    let (q, s1) := agentNext s agCp
    let (sq, s2) := tallyNow s1 { code := 0x0A82, sev := par c 52 1, agent := agCp, stamp := nowStamp s, agentSeq := q
                                  body := .host ((cSlice c).getD 0xFFFF) (cOwner s c) (par c 54 2) bs }
    endOk s2 tag 0 (BitVec.ofNat 64 sq))

/-- `TALLY.STATUS` (R538). -/
def execTallyStatus (tag : Nat) (io : HostIO) (s : State) : Host.Outcome State Fault Refusal :=
  runCmd s tag 0x0A04 (fun _ s => endOut s tag io (tallyStatus s))

/-- `TALLY.FLUSH` (R532, R538). Its first run asks for the flush; a later run ends it once every record that was
unflushed at its start is in flash. -/
def execTallyFlush (tag : Nat) (s : State) : Host.Outcome State Fault Refusal :=
  runCmd s tag 0x0A05 (fun c s =>
    if c.work.step = 0 then
      let qs := (tallyUnflushed s).map (·.seq)
      if qs.isEmpty then endOk s tag
      else setWork { s with tally := { s.tally with want := true, flashFail := false } } tag
        { step := 1, nums := qs, bytes := leBytes 4 s.tally.flushFails.toNat }
    else if !anyUnflushed s c.work.nums then endOk s tag 0 (extra2 c.work.nums.length 0)
    else if leNat c.work.bytes < s.tally.flushFails.toNat then endAfter s tag 0x0A01
    else s)

end Sys2Proof.Machine
end

