-- ==== Sys2Proof/Machine/Power.lean ====
section
/-! DEFINITION. The power controller: WARM, AIRING, STANDBY and their wake sources (spec 02, R42 to R48). An entry into AIRING and a wake
are steps that follow one another as the clock runs (assumption 6). -/

namespace Sys2Proof.Machine

/-- A port's record; an unlisted port is disabled. -/
def portGet (s : State) (p : Nat) : PortState := tblGet {} s.links.ports p

/-- A port's record set. -/
def portPut (s : State) (p : Nat) (x : PortState) : State :=
  { s with links := { s.links with ports := tblSet {} p x s.links.ports } }

/-- A port switches its receive path to its hold ring. -/
def holdOn (x : PortState) : PortState := { x with hold := true }

/-- Every port's record changed by a function: the listed ports, and the unlisted ones with the default's image. -/
def portsMap (s : State) (f : PortState → PortState) : State :=
  (List.range 256).foldl (fun s p => portPut s p (f (portGet s p))) s

/-- A port whose hold ring is empty switches to the normal path (R47). -/
def holdOff (x : PortState) : PortState := if x.ring.isEmpty then { x with hold := false } else x

/-- Some hold ring is undrained (R237). -/
def ringsLeft (s : State) : Bool := s.links.ports.any (fun e => !e.2.ring.isEmpty)

/-- The PCIe link of a function goes to L1 when the host has enabled ASPM L1, and back to L0 (R43 step 4). -/
def linkL1 (s : State) (on : Bool) : State :=
  { s with fn0 := { s.fn0 with l1 := on && s.fn0.aspmL1 && s.fn0.linkUp }, fn1 := { s.fn1 with l1 := on && s.fn1.aspmL1 && s.fn1.linkUp } }

/-- The buffers that a port has prefetched: chains of one buffer that carry its owner tag (R235). -/
def portPre (s : State) (p : Nat) : List Nat := chainsOf s (tagPort p)

/-- A port draws its prefetch of 4 buffers, charged to the internal account (R235). -/
def portRefill (s : State) (p : Nat) : State :=
  (List.range 4).foldl (fun s _ => if 4 ≤ (portPre s p).length then s
    else match hmpAlloc s (tagPort p) 1 with
      | some (_, t) => t
      | none => s) s

/-- A port that is UP and off its hold ring holds its prefetch (R235). -/
def portReady (s : State) (p : Nat) : State :=
  if (portGet s p).mode = .up ∧ (portGet s p).hold = false then portRefill s p else s

/-- A port comes back after STANDBY: an enabled port trains (R48). -/
def portRetrain (s : State) (p : Nat) : State :=
  let x := portGet s p
  if bitOf (regGet s (aLnk p 4)) 31 then portPut s p { x with mode := .training } else s

/-- The steps of an entry or of a wake in `PWR_STATE`: `ENTERING` and `EXITING` (R43, R45). -/
def pwrSteps (s : State) (entering exiting : Bool) : State := regSetBit (regSetBit s aPwrState 3 entering) aPwrState 4 exiting

/-- The processor clock goes on after STANDBY: a running core's count of cycles continues from where it stood (Table 1-8). -/
def coresGoOn (s : State) : State :=
  { s with needle := { s.needle with cores := tblMap (fun (k : Core) =>
    if k.mode = .running then { k with startAt := k.startAt + (s.time.clk - s.pwr.sleptAt) } else k) s.needle.cores } }

/-- The device returns to ACTIVE: retained staging is stored, empty rings switch over, their ports prefetch, and after STANDBY the enabled ports
train (R47, R48, R235, R237, R522). An entry that was in progress is reversed (R43). -/
def comeActive (s : State) : State :=
  let s0 := linkL1 (if 2 ≤ pwrMode s then rngWake s else s) false
  let s1 := portsMap (regSetBit (pwrSteps (setPwrMode s0 0) false false) aTimeSrcStat 8 false) holdOff
  let s2 := tallyUnstage { s1 with
    hamper := { s1.hamper with rings := ringsLeft s1 }
    pwr := { s1.pwr with fastLast := s.time.clk, idleLast := s.time.clk, entering := 0, leaving := none } }
  let s3 := (s2.links.ports.map (·.1)).foldl portReady s2
  if pwrMode s = 3 then coresGoOn ((List.range 256).foldl portRetrain s3) else s3

/-- A wake source is captured, stamped by the Airing domain, and its cause set (R45). -/
def wakeNote (s : State) (cause : Nat) : State :=
  let s1 := { s with pwr := { s.pwr with wakeAt := capStamp s } }
  sqcSet (regSetField (agentNext s1 agAiring).2 aPwrState 15 8 cause) aPwrWakeSrc cause

/-- The device is in AIRING, or on its way there: a wake source brings it back (R42, R43). -/
def sleepy (s : State) : Bool := pwrMode s == 2 || s.pwr.entering != 0

/-- A wake source may wake the device from its state: the mask permits it, no wake is in progress, and in STANDBY it is no field frame and no
Seam traffic (Table 2-5, R42). -/
def wakeMay (s : State) (cause : Nat) : Bool :=
  decide (cause < 12) && bitOf (regGet s aPwrWakeMask) cause && s.pwr.leaving.isNone &&
  (sleepy s || (pwrMode s == 3 && !(cause == 2 || cause == 3)))

/-- A wake source with its cause: in AIRING or STANDBY a wake begins, and `EXITING` is set (R45); during an entry the steps done are reversed
(R43). -/
def wakeUp (s : State) (cause : Nat) : State :=
  if s.pwr.vault || !wakeMay s cause then s
  else
    let s1 := wakeNote s cause
    if pwrMode s < 2 then comeActive s1
    else pwrSteps { s1 with pwr := { s1.pwr with leaving := some s.time.clk } } false true

/-! ### Accesses of the host while the device sleeps or wakes (R45) -/

/-- An access of the host is served now: in ACTIVE and WARM every one, during a wake a posted write once the processors run (R45). -/
def hostServed (s : State) (read : Bool) : Bool := decide (pwrMode s < 2) || (!read && procRuns s)

/-- The endpoint holds an access until the device has woken (R45). -/
def hostHold (s : State) (q : HostReq) : State :=
  { s with pwr := { s.pwr with held := s.pwr.held ++ [{ req := q, at_ := capStamp s }] } }

/-- An access of the host arrives: the device wakes for it, with its cause; it is served, or held (R45). -/
def hostMeets (s : State) (cause : Nat) (q : HostReq) (f : State → State) : State :=
  let s1 := wakeUp s cause
  if hostServed s1 q.isRead then f s1 else hostHold s1 q

/-- The Stamp of a doorbell write: that of its arrival, also where the endpoint held it (R25, R45). -/
def bellAt (s : State) : Stamp := s.pwr.arrived.getD (capStamp s)

/-- The idle conditions of AIRING (Table 2-5); the ports' prefetch, which they give up at the entry, does not count (assumption 57). -/
def airingIdle (s : State) : Bool :=
  s.tortin.tracker.isEmpty &&
  s.slices.all (fun e => e.2.sq.all (fun r => r.2.head == r.2.tail)) &&
  s.dma.chans.all (fun e => e.2.mode != .running && e.2.mode != .waitTrig) &&
  s.needle.cores.all (fun e => e.2.mode != .running) &&
  s.links.queues.all (fun e => e.2.txList.isEmpty && e.2.rxList.isEmpty) &&
  s.hamper.metas.all (fun e => !e.2.held || e.2.owner / 8192 == 3)

/-- What Table 1-8 turns off in STANDBY loses its contents: the Hamper's banks with the frames that stood there, and the Seam links (R22). -/
def standbyLose (s : State) : State :=
  { s with
    hamper := { s.hamper with metas := [], data := [], rings := false }
    links := { s.links with queues := tblMap (fun (q : Queue) => { q with txList := [], rxList := [], rxOut := [] }) s.links.queues }
    seam := { s.seam with links := s.seam.links.map (fun _ => {}) } }

/-- The ports that are up go down, each with its count and its event (R302). -/
def portsDrop (s : State) : State :=
  (List.range 256).foldl (fun s p => if (portGet s p).mode = .up then sqcSet (regAdd s (aLnk p 0x168) 1) (aLnk p 8) 1 else s) s

/-- Press and Mangle hold no work: neither a job or an operation in progress, nor one that waits. -/
def enginesIdle (s : State) : Bool :=
  s.press.pipes.isEmpty && s.press.waits.isEmpty && s.mangle.units.all (fun e => e.2.isEmpty) && s.mangle.waiting.isEmpty

/-- STANDBY begins once the completion of `TIME.STANDBY` is written, unless a group or a Scorch lock forbids it by then: the field SerDes are off
(R42, R267). It waits for the work of Press and Mangle, which the fast logic would lose (R22; DESIGN CHOICE, assumption 6). -/
def enterStandby (s : State) : State :=
  let s0 := { s with pwr := { s.pwr with standby := none, sleptAt := s.time.clk } }
  if s.seam.role ≠ .alone ∨ s.scorch.locked then s0
  else if !enginesIdle s then s
  else
    portsMap (portsDrop (standbyLose (linkL1 (regSetBit (setPwrMode (rngSleep s0) 3) aTimeSrcStat 8 true) true)))
      (fun x => if x.mode = .disabled then { x with ring := [] } else { x with mode := .down, anDone := false, ring := [] })

/-- `WARM_ENTRY`: no request to a fast-domain block for `PWR_WARM_IDLE`, in units of 10 ns. -/
def execWarmEntry (s : State) : Host.Outcome State Fault Refusal :=
  let idle := regField s aPwrWarmIdle 15 0 * 5 / 2
  .next (if pwrMode s = 0 ∧ bitOf (regGet s aPwrCtrl) 0 ∧ s.pwr.fastLast + idle ≤ s.time.clk ∧ !s.pwr.vault ∧ !pwrHeld s then
    setPwrMode (lintDiscard s) 1 else s)

/-- `WARM_EXIT`: a request to a fast-domain block. -/
def execWarmExit (s : State) : Host.Outcome State Fault Refusal := .next (if pwrMode s = 1 then touchFast s else s)

/-- Step 1 of an entry into AIRING: every port's receive path goes to its hold ring, and `ENTERING` is set (R43). The banks that the rings take
are given up by the ports (R237). -/
def enterBegin (s : State) : State :=
  let s1 := pwrSteps s true false
  portsMap { s1 with
    hamper := { s1.hamper with metas := [], data := [] }, pwr := { s1.pwr with entering := 1 } } holdOn

/-- Steps 3 and 4: the fast domain and Hamper banks 8 to 63 are off, and the PCIe link is in L1 where the host has enabled it (R43). -/
def enterAiring (s : State) : State :=
  let s1 := linkL1 (regSetBit (pwrSteps (setPwrMode (rngSleep s) 2) false false) aTimeSrcStat 8 true) true
  { s1 with pwr := { s1.pwr with entering := 0 } }

/-- The next steps of an entry in progress: the processors stop, then the fast domain (R43). One Airing cycle passes between them, so that the wake
sources are checked there (assumption 6). -/
def enterStep (s : State) : State :=
  match s.pwr.entering with
  | 0 => s
  | 1 => { s with pwr := { s.pwr with entering := 2 } }
  | _ => enterAiring s

/-- `AIRING_ENTRY`: the idle conditions have held for `PWR_AIR_IDLE` (R43); never under a Scorch lock (R42). The entry begins with its first
step. -/
def execAiringEntry (s : State) : Host.Outcome State Fault Refusal :=
  let idle := regField s aPwrAirIdle 23 0 * cycUs
  .next (if pwrMode s < 2 ∧ bitOf (regGet s aPwrCtrl) 1 ∧ airingIdle s ∧ !s.scorch.locked ∧ !s.pwr.vault ∧ !pwrHeld s ∧
      s.pwr.entering = 0 ∧ s.pwr.idleLast + idle ≤ s.time.clk then
    enterBegin s
  else s)

/-- `AIRING_WAKE`: a permitted wake source is captured in AIRING. -/
def execAiringWake (cause : Nat) (s : State) : Host.Outcome State Fault Refusal :=
  .next (if sleepy s then wakeUp s cause else s)

/-- `STANDBY_WAKE`: a permitted wake source is captured in STANDBY (R48). -/
def execStandbyWake (cause : Nat) (s : State) : Host.Outcome State Fault Refusal :=
  .next (if pwrMode s = 3 then wakeUp s cause else s)

/-- `WAKE_TIMER_EXPIRY`: the Stamp reaches `TIME_WAKE_AT`, once for each value of it. -/
def execWakeTimerExpiry (s : State) : Host.Outcome State Fault Refusal :=
  let at_ := (regGet64 s aTimeWakeLo aTimeWakeHi).toNat
  .next (if at_ = 0 ∨ s.time.wakeSeen ∨ s.pwr.vault ∨ (nowStamp s).toNat < at_ then s
    else wakeUp { s with time := { s.time with wakeSeen := true } } 4)

end Sys2Proof.Machine
end

