-- ==== Sys2Proof/Machine/Units.lean ====
section
/-! DEFINITION. The lists of the Press pipelines, and the Mangle units: slots, the waiting queue, and how jobs and operations enter and leave them
(spec 06, R157; spec 07, R178 to R183, R193). -/

namespace Sys2Proof.Machine

/-! ### Pipelines of Press (R157) -/

/-- Jobs of a pipeline. -/
def pipeJobs (s : State) (p : Nat) : List PressJob := tblGet [] s.press.pipes p

/-- The pipeline that a new job goes to: the fewest jobs, then the lowest number; none when all are full (R157). -/
def pipeFor (s : State) : Option Nat :=
  let best := (List.range 16).foldl (fun b p => if (pipeJobs s p).length < (pipeJobs s b).length then p else b) 0
  if (pipeJobs s best).length < 48 then some best else none

/-- A job of a source outside the lists, a frame's or an internal one, finds a place: it enters, runs and leaves inside its row (R157, assumption 26). -/
def pressFree (s : State) : Bool := (pipeFor s).isSome

/-- Every job of every pipeline and every job that waits for one changed by a function. -/
def pipesMap (s : State) (f : PressJob → PressJob) : State :=
  { s with press := { s.press with pipes := tblMap (fun js => js.map f) s.press.pipes, waits := s.press.waits.map f } }

/-- A job enters the list of a pipeline: it starts. -/
def pipePut (s : State) (p : Nat) (j : PressJob) : State :=
  { s with press := { s.press with
    pipes := tblPut p (pipeJobs s p ++ [{ j with order := s.press.order }]) s.press.pipes, order := s.press.order + 1 } }

/-- A job enters a list; while all are full its source waits and nothing is lost (R157). -/
def pressEnter (s : State) (j : PressJob) : State :=
  match pipeFor s with
  | none => { s with press := { s.press with waits := s.press.waits ++ [j] } }
  | some p => pipePut s p j

/-- The jobs that wait enter the places that have become free, the longest waiting first. -/
def pressRefill (s : State) : State :=
  s.press.waits.foldl (fun s j => match pipeFor s with
    | none => s
    | some p => pipePut { s with press := { s.press with waits := s.press.waits.drop 1 } } p j) s

/-- A job leaves its list. -/
def pressOut (s : State) (order : Nat) : State :=
  let js := (tblMap (fun (js : List PressJob) => js.filter (fun j => j.order != order)) s.press.pipes).filter (fun e => !e.2.isEmpty)
  pressRefill { s with press := { s.press with pipes := js } }

/-- The jobs of some sources are given up: one that has begun to move data runs to its end with nowhere to go, the others leave (R158, R172). -/
def pressDrop (s : State) (p : JobSrc → Bool) : State :=
  let f (j : PressJob) : Option PressJob := if !p j.src then some j else if j.running then some { j with src := .gone } else none
  let js := (tblMap (fun (js : List PressJob) => js.filterMap f) s.press.pipes).filter (fun e => !e.2.isEmpty)
  pressRefill { s with press := { s.press with pipes := js, waits := s.press.waits.filterMap f } }

/-- The job of a source is given up. -/
def pressLeave (s : State) (src : JobSrc) : State := pressDrop s (fun j => j == src)

/-- A source is an operation of a command. -/
def JobSrc.ofCmd (j : JobSrc) (tag : Nat) : Bool :=
  match j with
  | .cmd t _ => t == tag
  | _ => false

/-! ### Slots and units of Mangle -/

/-- Operations in the slots of a unit, in the order of entry. -/
def unitOps (s : State) (u : Nat) : List MangleOp := tblGet [] s.mangle.units u

/-- The unit that an operation goes to: the fewest occupied slots, then the lowest number; none without a free slot
(R180). -/
def unitFor (s : State) (but : Option Nat) : Option Nat :=
  let us := (List.range 8).filter (fun u => but != some u)
  match us with
  | [] => none
  | u :: t =>
    let b := t.foldl (fun b v => if (unitOps s v).length < (unitOps s b).length then v else b) u
    if (unitOps s b).length < 4 then some b else none

/-- Units that run an RSA key generation. -/
def rsaUnits (s : State) : Nat := tblCount (fun (os : List MangleOp) => os.any (·.rsa)) s.mangle.units

/-- Under a lock only operations start whose keys all have `CONTINUITY` in the cache, or which use none (R193). -/
def mangleLock (s : State) (o : MangleOp) : Bool :=
  !s.scorch.locked || o.keys.all (fun h => (cacheEnt s 2 h).any (fun e => bitN e.flags kContinuity))

/-- An operation may enter a slot now: an RSA generation only while fewer than 2 units run one (R182). -/
def mangleMay (s : State) (o : MangleOp) : Bool := (!o.rsa || decide (rsaUnits s < 2)) && mangleLock s o

/-- The unit's operations set. -/
def unitPut (s : State) (u : Nat) (os : List MangleOp) : State :=
  { s with mangle := { s.mangle with units := tblSet [] u os s.mangle.units } }

/-- The secret register bank of a unit set (R183). -/
def bankPut (s : State) (u : Nat) (b : List (Nat × List Byte)) : State :=
  { s with mangle := { s.mangle with banks := tblSet [] u b s.mangle.banks } }

/-- What the bank of a unit holds of a handle. -/
def bankGet (s : State) (u h : Nat) : List Byte := (((tblGet [] s.mangle.banks u).find? (fun e => e.1 == h)).map (·.2)).getD []

/-- A unit that executes nothing begins with its first operation whose operands are there: the micro-program then runs to its end, and its secret
operands stand in the bank (R178, R183). Loaded slots begin in the order of their entry, whatever their groups, for R180 orders only the filling
of slots (DESIGN CHOICE, assumption 29). -/
def unitStep (s : State) (u : Nat) : State :=
  let os := unitOps s u
  if os.any (·.running) then s
  else match os.find? (fun o => o.ready && o.hashes == 0 && mangleLock s o) with
    | none => s
    | some o =>
      bankPut (unitPut s u (os.map (fun x => if x.order = o.order then { x with running := true } else x))) u
        ((o.keys.filter (fun h => !isPublicType (typeOf s h))).map (fun h => (h, privAt s h)))

/-- Every unit that executes nothing begins with what it can. -/
def unitsStep (s : State) : State := (List.range 8).foldl unitStep s

/-- An operation enters a slot of a unit. -/
def unitEnter (s : State) (u : Nat) (o : MangleOp) : State := unitStep (unitPut s u (unitOps s u ++ [o])) u

/-- Free slots of all units. -/
def slotsFree (s : State) : Nat := (List.range 8).foldl (fun n u => n + (4 - (unitOps s u).length)) 0

/-- The operations of an entry of the waiting queue. -/
def waitOps (w : MangleWait) : List MangleOp := w.op :: w.mate.toList

/-- An entry of the waiting queue may go to its units. -/
def waitMay (s : State) (w : MangleWait) : Bool := (waitOps w).all (mangleMay s)

/-- Some entry of the waiting queue may go to its units: a new operation stands behind it. -/
def mangleAhead (s : State) : Bool := s.mangle.waiting.any (waitMay s)

/-- Free places of the waiting queue: 256 in all, a hybrid operation taking two (R179). -/
def queueRoom (s : State) : Nat := 256 - (s.mangle.waiting.flatMap waitOps).length

/-- `n` separate operations find places (R179): in slots, unless they must wait behind others or are RSA generations beyond two, or in the waiting
queue. -/
def mangleRoom (s : State) (n : Nat) (rsa : Bool := false) : Bool :=
  let slots := if mangleAhead s || (rsa && decide (2 ≤ rsaUnits s)) then 0 else slotsFree s
  decide (n ≤ slots + queueRoom s)

/-- Two different units with a free slot (R181). -/
def twoUnits (s : State) : Option (Nat × Nat) := (unitFor s none).bind (fun u => (unitFor s (some u)).map (fun v => (u, v)))

/-- Both halves of a hybrid operation enter slots now: two units have one, and nothing goes ahead (R180, R181). -/
def pairNow (s : State) : Bool := (twoUnits s).isSome && !mangleAhead s

/-- A hybrid operation finds places: in slots, or in the waiting queue. -/
def mangleRoom2 (s : State) : Bool := pairNow s || decide (2 ≤ queueRoom s)

/-- An entry joins the waiting queue. -/
def waitAdd (s : State) (w : MangleWait) : State := { s with mangle := { s.mangle with waiting := s.mangle.waiting ++ [w] } }

/-- A separate operation enters a slot, or else the waiting queue. -/
def mangleEnter (s : State) (o : MangleOp) : State :=
  let o1 := { o with order := s.mangle.order }
  let s1 := { s with mangle := { s.mangle with order := s.mangle.order + 1 } }
  match unitFor s none with
  | some u => if mangleMay s o && !mangleAhead s then unitEnter s1 u o1 else waitAdd s1 { op := o1 }
  | none => waitAdd s1 { op := o1 }

/-- Both halves of a hybrid operation enter slots of two different units (R181). -/
def pairEnter (s : State) (u v : Nat) (a b : MangleOp) : State := unitEnter (unitEnter s u a) v b

/-- Both halves of a hybrid operation enter slots, or the waiting queue, which they leave together. -/
def mangleEnter2 (s : State) (a b : MangleOp) : State :=
  let n := s.mangle.order
  let a1 := { a with order := n }
  let b1 := { b with order := n + 1 }
  let s1 := { s with mangle := { s.mangle with order := n + 2 } }
  match twoUnits s with
  | some (u, v) => if mangleMay s a && mangleMay s b && !mangleAhead s then pairEnter s1 u v a1 b1 else waitAdd s1 { op := a1, mate := some b1 }
  | none => waitAdd s1 { op := a1, mate := some b1 }

/-- Every operation, in slots and waiting. -/
def mangleAll (s : State) : List MangleOp :=
  s.mangle.units.flatMap (·.2) ++ s.mangle.waiting.flatMap waitOps

/-- An operation of a command is in Mangle. -/
def mangleHas (s : State) (tag : Nat) : Bool := (mangleAll s).any (fun o => o.src.ofCmd tag)

/-- Every operation changed by a function. -/
def mangleMap (s : State) (f : MangleOp → MangleOp) : State :=
  { s with mangle := { s.mangle with
    units := tblMap (fun os => os.map f) s.mangle.units
    waiting := s.mangle.waiting.map (fun w => { op := f w.op, mate := w.mate.map f }) } }

/-- The Press jobs that an operation issues over its message enter (R186): one now; the second of two follows it. -/
def hashEnter (s : State) (o : MangleOp) : State :=
  if o.hashes = 0 then s else pressEnter s { src := .mangle o.order, order := 0, group := 3, slice := o.slice, ready := true }

/-- The operands of a command's operations are there: their hashing begins, or their micro-programs. -/
def mangleSet (s : State) (tag : Nat) : State :=
  let new := (mangleAll s).filter (fun o => o.src.ofCmd tag && !o.ready)
  let s1 := mangleMap s (fun o => if o.src.ofCmd tag then { o with ready := true } else o)
  unitsStep (new.foldl hashEnter s1)

/-- A Press job of an operation has ended: the next pass, or the micro-program. -/
def hashDone (s : State) (order : Nat) : State :=
  let s1 := mangleMap s (fun o => if o.order = order then { o with hashes := o.hashes - 1 } else o)
  match (mangleAll s1).find? (fun o => o.order == order) with
  | none => s1
  | some o => unitsStep (hashEnter s1 o)

/-- The operations of some sources are given up: a micro-program that has started runs to its end with nowhere to go, the others leave (R178,
R197). -/
def mangleDrop (s : State) (p : JobSrc → Bool) : State :=
  let f (o : MangleOp) : Option MangleOp := if !p o.src then some o else if o.running then some { o with src := .gone } else none
  { s with mangle := { s.mangle with
    units := (tblMap (fun (os : List MangleOp) => os.filterMap f) s.mangle.units).filter (fun e => !e.2.isEmpty)
    waiting := s.mangle.waiting.filter (fun w => !(waitOps w).any (fun o => p o.src)) } }

/-- The operations of a command are given up. -/
def mangleLeave (s : State) (tag : Nat) : State := mangleDrop s (fun j => j.ofCmd tag)

/-- The internal jobs of the CP and Thimble: checks of approvals, credentials, public keys, images and certificates, enrolment, and the public part
of a key that is imported or derived (R128, R180, R187, R191, R444, R481; DESIGN CHOICE for those that R180 does not name, assumption 29). -/
def mangleInternal (op : Nat) : Bool := [0x0301, 0x0304, 0x0307, 0x0308, 0x0402, 0x0403, 0x0404, 0x0809, 0x0C02, 0x0D02, 0x0E01].contains op

/-- The group of an operation of a command (R180): 1 for the alarm class, 3 for an internal job, 4 otherwise. -/
def mangleGroup (c : Cmd) : Nat := if cAlarm c then 1 else if mangleInternal (cOp c) then 3 else 4

/-- The Mangle deficit that each visit adds: weight times 10 µs, in fast clocks of 3 GHz (R341). -/
def mangleQuantum (s : State) (n : Nat) : Nat := (sliceGet s n).mangleW * 30000

/-- An entry of the waiting queue as the sharing among slices sees it: a hybrid operation takes the unit time of both halves. -/
def mangleItem (w : MangleWait) : Share :=
  { order := w.op.order, slice := w.op.slice, size := (waitOps w).foldl (fun n o => n + o.time) 0 }

/-- An entry leaves the waiting queue. -/
def waitOut (s : State) (w : MangleWait) : State :=
  { s with mangle := { s.mangle with waiting := s.mangle.waiting.filter (fun x => x.op.order != w.op.order) } }

/-- A waiting operation goes to a unit, or both halves of one to two. -/
def mangleTake (s : State) (w : MangleWait) : State :=
  match w.mate, unitFor s none, twoUnits s with
  | none, some u, _ => unitEnter (waitOut s w) u w.op
  | some b, _, some (u, v) => pairEnter (waitOut s w) u v w.op b
  | _, _, _ => s

/-- The entry of the waiting queue that goes next, and the deficits that the choice leaves (R180): by group, oldest first; group 4 is shared among
slices (R341). A hybrid one that is next waits for its second unit, and nothing passes it (DESIGN CHOICE, assumption 29). -/
def mangleNext (s : State) : Option (MangleWait × List (Nat × Nat)) :=
  let ws := s.mangle.waiting.filter (waitMay s)
  match [1, 2, 3].findSome? (fun g => ws.find? (fun w => w.op.group == g)) with
  | some w => some (w, [])
  | none =>
    let q := mangleQuantum s
    let d (n : Nat) : Nat := (sliceGet s n).mangleDef
    let items := ws.map mangleItem
    (shareNext q d s.mangle.last items).bind (fun i =>
      (ws.find? (fun w => w.op.order == i.1.order)).map (fun w => (w, shareCharge q d i.1 i.2 s.mangle.last items)))

/-- A slot has room for an entry: on two units for a hybrid one. -/
def waitFits (s : State) (w : MangleWait) : Bool := if w.mate.isNone then (unitFor s none).isSome else (twoUnits s).isSome

/-- The deficits after an entry has been chosen, and the slice that group 4 served last. -/
def mangleCharge (s : State) (w : MangleWait) (ds : List (Nat × Nat)) : State :=
  let s1 := ds.foldl (fun s e => if e.1 = 0xFFFF then s else slicePut s e.1 { sliceGet s e.1 with mangleDef := e.2 }) s
  if w.op.group = 4 then { s1 with mangle := { s1.mangle with last := w.op.slice } } else s1

end Sys2Proof.Machine
end

