-- ==== Sys2Proof/Machine/LinkOps.lean ====
section
/-! DEFINITION. Frames of the field ports: AES-GCM, the FFP header, the three encapsulations, counters, replay windows and
the building of frames (spec 10, R264 to R278, R317). -/

namespace Sys2Proof.Machine

/-! ### AES-256-GCM (R271, R273): the key stream and the tag are uninterpreted (assumption 5) -/

/-- Ciphertext and the 16 B tag of a plaintext. -/
def gcmSeal (key nonce aad plain : List Byte) : List Byte :=
  let ct := xorBytes plain (gcmStream key nonce plain.length)
  ct ++ bytesAt (Config.gcmTag key nonce aad ct) 0 16

/-- The plaintext of a ciphertext whose tag verifies. -/
def gcmOpen (key nonce aad ct tag : List Byte) : Option (List Byte) :=
  if bytesAt (Config.gcmTag key nonce aad ct) 0 16 = tag then some (xorBytes ct (gcmStream key nonce ct.length))
  else none

/-! ### The FFP header (Table 10-2) and the nonce (R273) -/

def ffData := 1
def ffAck := 2
def ffHeartbeat := 3
def ffRekey := 4
def ffReport := 5
def ffRetransmit := 6

/-- An FFP header. -/
def ffpHeader (kind flags q epoch ctr : Nat) (stamp : Stamp) (len app : Nat) : List Byte :=
  beBytes 1 (16 + kind) ++ beBytes 1 flags ++ beBytes 2 q ++ beBytes 2 epoch ++ beBytes 8 ctr ++ beBytes 8 stamp.toNat ++
    beBytes 2 len ++ beBytes 2 app ++ zeros 6

/-- The nonce of a frame: queue, key epoch, frame counter. -/
def ffpNonce (q epoch ctr : Nat) : List Byte := beBytes 2 q ++ beBytes 2 epoch ++ beBytes 8 ctr

/-- A frame sealed under a queue key: header, ciphertext and tag (R271). -/
def ffpSeal (key : List Byte) (kind flags q epoch ctr : Nat) (stamp : Stamp) (app : Nat) (plain : List Byte) : List Byte :=
  let h := ffpHeader kind flags q epoch ctr stamp plain.length app
  h ++ gcmSeal key (ffpNonce q epoch ctr) h plain

/-- The key of a queue in an epoch of a card (R278). -/
def queueKey (cardKey : List Byte) (card q epoch : Nat) : List Byte :=
  bytesAt (Config.kmac256 cardKey (beBytes 8 card ++ beBytes 2 q ++ beBytes 2 epoch) 32 (ascii "ILASKUST-FFP-EPOCH")) 0 32

/-- Reads an FFP frame. -/
def ffpRead (src bs : List Byte) (whole : Nat) : FfpHdr :=
  { kind := byteAt bs 0 % 16, flags := byteAt bs 1, queue := beAt bs 2 2, epoch := beAt bs 4 2, ctr := beAt bs 6 8
    len := beAt bs 22 2, app := beAt bs 24 2, raw := bytesAt bs 0 32, body := bytesAt bs 32 (beAt bs 22 2)
    tag := bytesAt bs (32 + beAt bs 22 2) 16, src := src, whole := whole }

/-- A heartbeat-class frame (Table 10-4). -/
def ffHbClass (kind : Nat) : Bool := kind == ffHeartbeat || kind == ffReport

/-- The sequence of a counter (Table 10-4). -/
def ffSeq (h : FfpHdr) : Nat := if ffHbClass h.kind then h.ctr % 2 ^ 60 else h.ctr % 2 ^ 62

/-- Payload length of a type; none where it varies (Table 10-3). -/
def ffLen (kind : Nat) : Option Nat :=
  if kind = ffAck ∨ kind = ffHeartbeat ∨ kind = ffRetransmit then some 16 else if kind = ffReport then some 32 else none

/-! ### Ports: registers, addresses, encapsulation (R264 to R269) -/

/-- `LNK_CFG.ENCAP` of a port. -/
def portEncap (s : State) (p : Nat) : Nat := regField s (aLnk p 4) 29 28

/-- `LNK_CFG.VLAN_EN` of a port. -/
def portVlan (s : State) (p : Nat) : Bool := bitOf (regGet s (aLnk p 4)) 26

/-- `LNK_CFG.PTP` of a port. -/
def portPtp (s : State) (p : Nat) : Nat := regField s (aLnk p 4) 24 23

/-- `LNK_MAXLEN` of a port. -/
def portMax (s : State) (p : Nat) : Nat := regField s (aLnk p 0x1C) 13 0

/-- The port's MAC address (R268). -/
def portMac (s : State) (p : Nat) : List Byte := beBytes 6 (s.links.macBase + p)

/-- The first `n` bytes of the port's IP address for this member. -/
def portIp (s : State) (p n : Nat) : List Byte :=
  ((List.range 4).flatMap (fun i => leBytes 4 (regGet s (aLnk p (0x30 + 4 * i))).toNat)).take n

/-- `PCP` of a class (R268). -/
def portPcp (s : State) (p cls : Nat) : Nat := fieldOf (regGet s (aLnk p 0x18)) (3 * cls + 2) (3 * cls)

/-- The port's overhead (Table 10-1). -/
def portOverhead (s : State) (p : Nat) : Nat :=
  (match portEncap s p with | 1 => 94 | 2 => 114 | _ => 66) + (if portVlan s p then 4 else 0)

/-- The port is UP and its receiver runs. -/
def portUp (s : State) (p : Nat) : Bool := (portGet s p).mode == .up && !s.pwr.vault && decide (pwrMode s ≠ 3)

/-- A port counter advances. -/
def lnkCount (s : State) (p off : Nat) : State := regAdd s (aLnk p off) 1

/-- A port event. -/
def lnkEvent (s : State) (p bit : Nat) : State := sqcSet s (aLnk p 8) bit

/-- A 64-bit port counter advances and saturates (R302). -/
def lnkAdd64 (s : State) (p off n : Nat) : State :=
  regPut64 s (aLnk p off) (aLnk p (off + 4))
    (BitVec.ofNat 64 (min (2 ^ 64 - 1) ((regGet64 s (aLnk p off) (aLnk p (off + 4))).toNat + n)))

/-- The sum of the big-endian 16-bit words of a byte string. -/
def sum16 : List Byte → Nat
  | [] => 0
  | [a] => a.toNat * 256
  | a :: b :: t => a.toNat * 256 + b.toNat + sum16 t

/-- The Internet checksum: the ones' complement of the ones' complement sum. -/
def inetSum (bs : List Byte) : Nat :=
  let n := sum16 bs
  let a := n % 65536 + n / 65536
  let b := a % 65536 + a / 65536
  65535 - b % 65536 - b / 65536

/-- The Ethernet header of a frame the device sends (R268). -/
def ethHeader (s : State) (p pcp : Nat) (dst : List Byte) (etype : Nat) : List Byte :=
  bytesAt dst 0 6 ++ portMac s p ++
    (if portVlan s p then beBytes 2 0x8100 ++ beBytes 2 (pcp * 8192 + regField s (aLnk p 0x14) 11 0) else []) ++ beBytes 2 etype

/-- A UDP datagram with its checksum over a pseudo header (R269). -/
def udpData (pseudo : List Byte) (sport dport : Nat) (body : List Byte) : List Byte :=
  let n := 8 + body.length
  let c := inetSum (pseudo ++ beBytes 2 n ++ beBytes 2 sport ++ beBytes 2 dport ++ beBytes 2 n ++ zeros 2 ++ body)
  beBytes 2 sport ++ beBytes 2 dport ++ beBytes 2 n ++ beBytes 2 (if c = 0 then 65535 else c) ++ body

/-- A packet body carried by a port in UDP over IPv4 or IPv6, or none under Ethernet (R269). -/
def ipWrap (s : State) (p pcp : Nat) (peer : Peer) (sport dport : Nat) (body : List Byte) : Option (Nat × List Byte) :=
  match portEncap s p with
  | 1 =>
    let src := portIp s p 4
    let dst := bytesAt peer.ip 0 4
    let u := udpData (src ++ dst ++ zeros 1 ++ [17]) sport dport body
    let h (c : Nat) : List Byte := beBytes 1 0x45 ++ beBytes 1 (pcp * 32) ++ beBytes 2 (20 + u.length) ++ zeros 2 ++
      beBytes 2 0x4000 ++ [64, 17] ++ beBytes 2 c ++ src ++ dst
    some (0x0800, h (inetSum (h 0)) ++ u)
  | 2 =>
    let src := portIp s p 16
    let dst := bytesAt peer.ip 0 16
    let u := udpData (src ++ dst ++ zeros 2 ++ zeros 1 ++ [17]) sport dport body
    some (0x86DD, beBytes 4 (6 * 2 ^ 28 + pcp * 32 * 2 ^ 20) ++ beBytes 2 u.length ++ [17, 64] ++ src ++ dst ++ u)
  | _ => none

/-- An FFP frame as a port sends it to a peer, without the FCS. -/
def encapFrame (s : State) (p cls : Nat) (peer : Peer) (body : List Byte) : List Byte :=
  let pcp := portPcp s p cls
  match ipWrap s p pcp peer (regField s (aLnk p 0x40) 15 0) peer.udp body with
  | some (et, bs) => ethHeader s p pcp peer.mac et ++ bs
  | none => ethHeader s p pcp peer.mac (regField s (aLnk p 0x10) 15 0) ++ body

/-- What a received frame carries (R265, R268, R269, R298). -/
inductive RxEncap where
  | bad
  | macControl
  | ptp (body : List Byte)
  | ffp (src body : List Byte)
  deriving DecidableEq, Repr

/-- Source address, EtherType and rest of a frame with no tag or one; a frame with two tags, or with a TPID of 0x88A8, is never accepted, a PTP
message neither (R268, DEDUCED: assumption 61). -/
def ethRead (f : List Byte) : Option (List Byte × Nat × List Byte) :=
  let t := beAt f 12 2
  let tagged (n : Nat) : Bool := n == 0x8100 || n == 0x88A8
  if t = 0x8100 then (if tagged (beAt f 16 2) then none else some (bytesAt f 6 6, beAt f 16 2, f.drop 18))
  else if tagged t then none
  else some (bytesAt f 6 6, t, f.drop 14)

/-- The tags of a frame fit the port: one 802.1Q tag with its VID, or none (R268). -/
def ethFits (s : State) (p : Nat) (f : List Byte) : Bool :=
  if portVlan s p then beAt f 12 2 == 0x8100 && beAt f 14 2 % 4096 == regField s (aLnk p 0x14) 11 0 else beAt f 12 2 != 0x8100

/-- The UDP part of a packet to the port's address (R269, R298); `pseudo` begins its checksum. -/
def udpRead (s : State) (p : Nat) (src pseudo u : List Byte) (zeroOk : Bool) : RxEncap :=
  let n := beAt u 4 2
  let d := beAt u 2 2
  let part := bytesAt u 0 n
  if n < 8 ∨ u.length < n then .bad
  else if !(zeroOk && decide (beAt u 6 2 = 0)) && inetSum (pseudo ++ beBytes 2 n ++ part) != 0 then .bad
  else if d = regField s (aLnk p 0x40) 15 0 then .ffp src (part.drop 8)
  else if d = 319 ∨ d = 320 then .ptp (part.drop 8)
  else .bad

/-- What a frame carries behind its Ethernet header, under the port's encapsulation (R268, R269). -/
def encapRead (s : State) (p : Nat) (mac : List Byte) (et : Nat) (r : List Byte) : RxEncap :=
  match portEncap s p with
  | 1 =>
    let n := beAt r 2 2
    if et ≠ 0x0800 ∨ r.length < 20 ∨ byteAt r 0 ≠ 0x45 ∨ beAt r 6 2 % 0x4000 ≠ 0 ∨ inetSum (bytesAt r 0 20) ≠ 0 ∨
        byteAt r 9 ≠ 17 ∨ n < 20 ∨ r.length < n ∨ bytesAt r 16 4 ≠ portIp s p 4 then .bad
    else udpRead s p (bytesAt r 12 4) (bytesAt r 12 8 ++ zeros 1 ++ [17]) (bytesAt r 20 (n - 20)) true
  | 2 =>
    let n := beAt r 4 2
    if et ≠ 0x86DD ∨ r.length < 40 + n ∨ byteAt r 0 / 16 ≠ 6 ∨ byteAt r 6 ≠ 17 ∨ bytesAt r 24 16 ≠ portIp s p 16 then
      .bad
    else udpRead s p (bytesAt r 8 16) (bytesAt r 8 32 ++ zeros 2 ++ zeros 1 ++ [17]) (bytesAt r 40 n) false
  | _ =>
    if et = 0x88F7 then .ptp r
    else if et = regField s (aLnk p 0x10) 15 0 then .ffp mac r
    else .bad

/-- Check 2 of R276: a PTP message passes whatever its tag, an FFP frame only with the port's (R268, R298). -/
def rxEncap (s : State) (p : Nat) (f : List Byte) : RxEncap :=
  if f.length < 14 then .bad
  else if beAt f 12 2 = 0x8808 then .macControl
  else match ethRead f with
    | none => .bad
    | some (mac, et, r) => match encapRead s p mac et r with
      | .ptp m => .ptp m
      | e => if ethFits s p f then e else .bad

/-- Check 3 of R276: version, type, reserved bits, direction, class of the counter, epoch and lengths. -/
def ffpHdrOk (s : State) (p : Nat) (h : FfpHdr) : Bool :=
  decide (byteAt h.raw 0 / 16 = 1) && [1, 2, 3, 5, 6].contains h.kind &&
  decide (h.flags < 4) && h.raw.drop 26 == zeros 6 &&
  bitN h.flags 1 && bitN h.ctr 63 && (bitN h.ctr 62 == ffHbClass h.kind) &&
  (!ffHbClass h.kind || decide (bitsN h.ctr 61 60 = 0)) &&
  decide (h.epoch ≠ 0) && decide (h.whole = portOverhead s p + h.len) && (ffLen h.kind).all (· == h.len)

/-! ### Classification (R270) -/

/-- This member's peer record of a queue. -/
def queuePeer (s : State) (x : Queue) : Peer := x.peers.getD s.seam.index {}

/-- A peer's address under a port's encapsulation. -/
def peerAddr (s : State) (p : Nat) (r : Peer) : List Byte :=
  match portEncap s p with
  | 1 => bytesAt r.ip 0 4
  | 2 => bytesAt r.ip 0 16
  | _ => bytesAt r.mac 0 6

/-- The first `bits` bits of two addresses are equal. -/
def prefixEq (bits : Nat) (a b : List Byte) : Bool :=
  let k := 8 * a.length - bits
  beNat a / 2 ^ k == beNat b / 2 ^ k

/-- An explicit rule matches a frame. -/
def ruleMatches (s : State) (p : Nat) (h : FfpHdr) (r : ClassRule) : Bool :=
  let n := match portEncap s p with | 1 => 4 | 2 => 16 | _ => 6
  let kind := match portEncap s p with | 1 => 2 | 2 => 3 | _ => 1
  (r.port == 0xFFFF || r.port == p) && r.kind == kind && r.header == h.queue && prefixEq r.bits (bytesAt r.addr 0 n) h.src

/-- The queues that the rules matching a frame name, rising. -/
def classify (s : State) (p : Nat) (h : FfpHdr) : List Nat :=
  let own := match queueGet s h.queue with
    | some x => if x.port = p ∧ peerAddr s p (queuePeer s x) = h.src then [h.queue] else []
    | none => []
  let more := (s.links.rules.filter (fun e => ruleMatches s p h e.2)).map (fun e => e.2.target)
  ((own ++ more).foldl (fun t q => tblSet false q true t) []).map (·.1)

/-! ### Replay windows (R277) -/

/-- A sequence is new in a window: bit i of the window stands for the sequence H − i. -/
def replayNew (w : Replay) (hb : Bool) (seq : Nat) : Bool :=
  if hb then decide (w.hb < seq)
  else decide (w.high < seq) || (decide (w.high < seq + 1024) && !bitN w.bits (w.high - seq))

/-- A sequence marked in a window. -/
def replayMark (w : Replay) (hb : Bool) (seq : Nat) : Replay :=
  if hb then { w with hb := max w.hb seq }
  else if w.high < seq then
    { w with high := seq, bits := (w.bits * 2 ^ (min 1024 (seq - w.high)) + 1) % 2 ^ 1024 }
  else if bitN w.bits (w.high - seq) then w
  else { w with bits := w.bits + 2 ^ (w.high - seq) }

/-! ### Leased counters (R317, Table 11-7) -/

def leaseQueue := 1
def leaseHeartbeat := 3
def leaseCard := 4

/-- A lease of 4,096 transmit counters is taken when 3,072 of the last are used. -/
def leaseCtr (s : State) (q : Nat) (x : Queue) : Queue × State :=
  if x.leaseEnd < x.txCtr + 1024 + 1 then
    let e := max x.leaseEnd x.txCtr + 4096
    let s1 := jot s 0xFFFF false (.lease leaseQueue q e)
    ({ x with leaseEnd := e, ctrSafe := if seamReleased s x.ctrSeq then x.leaseEnd else x.ctrSafe, ctrSeq := s1.seam.applied }, s1)
  else (x, s)

/-- The LEASE entry that covers a transmit counter is acknowledged (R313). -/
def ctrCovered (s : State) (x : Queue) (n : Nat) : Bool := decide (n < x.ctrSafe) || seamReleased s x.ctrSeq

/-- The next transmit counter of a queue. -/
def takeCtr (s : State) (q : Nat) (x : Queue) : Nat × Queue × State :=
  let (x1, s1) := leaseCtr s q x
  (x1.txCtr, { x1 with txCtr := x1.txCtr + 1 }, s1)

/-- The end of this member's heartbeat lease of a queue. -/
def hbEnd (s : State) (x : Queue) : Nat := x.hbEnds.getD s.seam.index 1

/-- The heartbeat leases of a queue with a member's end set. -/
def hbEndPut (m stop : Nat) (x : Queue) : Queue := { x with hbEnds := setAt x.hbEnds m stop }

/-- A lease of 65,536 heartbeat sequences is taken when 49,152 are used; a follower asks the primary for it (Table 11-7). -/
def leaseHb (s : State) (q : Nat) (x : Queue) : Queue × State :=
  if hbEnd s x < x.hbSeq + 16384 + 1 then
    let e := max (hbEnd s x) x.hbSeq + 65536
    if s.seam.role = .follower then
      (x, match (seamOthers s).find? (fun m => (seamPeer s m).role == 1) with
        | some m => seamTo s m (.upLease q e)
        | none => s)
    else
      let s1 := jot s 0xFFFF false (.lease leaseHeartbeat (q * 4 + s.seam.index) e)
      (hbEndPut s.seam.index e { x with
        hbSafe := if seamReleased s x.hbJseq then hbEnd s x else x.hbSafe, hbJseq := s1.seam.applied }, s1)
  else (x, s)

/-- The next heartbeat sequence of this member on a queue; none while the LEASE entry that covers it is not acknowledged (R313). -/
def takeHb (s : State) (q : Nat) (x : Queue) : Option Nat × Queue × State :=
  let (x1, s1) := leaseHb s q x
  let n := x1.hbSeq
  if n < hbEnd s1 x1 ∧ (n < x1.hbSafe ∨ seamReleased s1 x1.hbJseq) then (some n, { x1 with hbSeq := n + 1 }, s1) else (none, x1, s1)

/-! ### Frames the device builds -/

/-- A frame leaves on a port, whose transmitter stays at electrical idle while it is not UP (R267). -/
def sendFrame (s : State) (p cls : Nat) (peer : Peer) (body : List Byte) : State :=
  if portUp s p then
    let f := encapFrame s p cls peer body
    emit (lnkAdd64 (lnkAdd64 s p 0x110 1) p 0x118 (f.length + 4)) (.frame p f)
  else s

/-- `ACK_REQ` of a DATA frame of a queue (R283). -/
def ackReq (x : Queue) : Bool := x.cls == 0 || x.cls == 2 || (x.cls == 3 && x.bulkAck)

/-- Buffers held by a queue, transmit and receive together (Table 9-6). -/
def queueHeld (s : State) (q : Nat) : Nat := tblCount (fun m => m.held && m.owner == tagQueue q) s.hamper.metas

/-- A queue record changed. -/
def queueMod (s : State) (q : Nat) (f : Queue → Queue) : State :=
  match queueGet s q with
  | none => s
  | some x => queuePut s q (f x)

/-- A frame that the device builds itself for a queue leaves to the queue's node, and counts as sent there (R300). -/
def queueSend (s : State) (q : Nat) (frame : List Byte) : State :=
  match queueGet s q with
  | none => s
  | some x =>
    if portUp s x.port then
      queueMod (sendFrame s x.port x.cls (queuePeer s x) frame) q (fun y => { y with sent := y.sent + 1 })
    else s

/-- A DATA frame of a queue enters its transmit list with a counter and a Stamp, sealed under the present key
(R274, R275). -/
def txData (s : State) (q : Nat) (x : Queue) (ctr app : Nat) (stamp : Stamp) (chain : Option Nat) (cmd : Option Nat)
    (jseq : Nat) (plain : List Byte) : State :=
  match x.present with
  | none => s
  | some k =>
    let f : TxFrame := {
      ctr := ctr, kind := ffData
      bytes := ffpSeal k.key ffData (b2n (ackReq x)) q x.epoch ctr stamp app plain
      chain := chain, enqAt := s.time.clk, cmd := cmd, jseq := jseq }
    queuePut s q { x with txList := x.txList ++ [f] }

/-- Why a chain does not enter a queue (R246): the code of Table 9-5. -/
def enqCode (s : State) (q owner b : Nat) : Nat :=
  match queueGet s q with
  | none => 2
  | some x =>
    if x.mode ≠ .active ∨ !x.tx ∨ x.owner ≠ owner then 2
    else if chainTainted s b then 5
    else if x.limit < queueHeld s q + (chainOf s b).length then 6
    else if (hmpTransfer s b (tagQueue q)).isNone then 4
    else 0

/-- An event of `SEAM_EVT` about a member, with its Tally record (R334). -/
def seamEvent (s : State) (bit member : Nat) : State :=
  tallyPut (sqcSet s aSeamEvt bit) agCp (0x0980 + bit) [(0x11, member)]

/-- A frame of a `VOICE` queue does not fit the stream budget, so it is not journalled: the primary transmits it alone, and counts it (R319). -/
def streamAlone (s : State) (x : Queue) (b : JBody) : Bool := x.cls == 1 && (!s.seam.unsent.isEmpty || !budgetFits s (entryLoad s b))

/-- A chain that R246 admits enters a queue: the charge moves, the frame is built; on a duplicated queue the primary first
journals it, and it leaves once that is acknowledged (R313). -/
def enqChain (s : State) (q b app : Nat) : State :=
  match hmpTransfer s b (tagQueue q) with
  | none => s
  | some s1 => match queueGet s1 q with
    | none => s1
    | some x =>
      let plain := chainBytes s1 b
      let (n, x1, s2) := takeCtr s1 q x
      if x.dup && isPrimary s2 then
        if streamAlone s2 x (.stream q n app (nowStamp s) false plain) then
          txData (seamEvent (regAdd s2 aSeamUndup 1) 9 s.seam.index) q x1 n app (nowStamp s) (some b) none 0 plain
        else
          let s3 := jotStream s2 x.slice q n app plain
          txData s3 q x1 n app (nowStamp s) (some b) none s3.seam.applied plain
      else txData s2 q x1 n app (nowStamp s) (some b) none 0 plain

/-- A frame that Tortin builds for a queue leaves under the present key: ACK and RETRANSMIT_REQ (R283, R284); `done` is the record with what
the frame answers taken off it. It waits, with nothing done, until the LEASE entry that covers its counter is acknowledged (R313), and
while every list of Press is full (R157). -/
def txControl (s : State) (q kind : Nat) (plain : List Byte) (done : Queue) : State :=
  let (x, s1) := leaseCtr s q done
  match x.present with
  | none => queuePut s q done
  | some k =>
    if ctrCovered s1 x x.txCtr ∧ pressFree s then
      queueSend (queuePut s1 q { x with txCtr := x.txCtr + 1 }) q (ffpSeal k.key kind 0 q x.epoch x.txCtr (nowStamp s) 0 plain)
    else queueMod s1 q (fun y => { y with leaseEnd := x.leaseEnd, ctrSafe := x.ctrSafe, ctrSeq := x.ctrSeq })

/-- Tortin serves the field links: it is ready, and the member is not fenced (Table 10-6). -/
def linkReady (s : State) : Bool := s.tortin.ready && s.seam.role != .fenced

/-- Tortin sends on the field links: in AIRING sending resumes at the wake (Table 10-6). -/
def linkServes (s : State) : Bool := linkReady s && decide (pwrMode s < 2)

/-- A member decides on the field links by its own clock: a follower acts as the journal says (R309). -/
def linkDecides (s : State) : Bool := linkServes s && s.seam.role != .follower

/-- The queues that a `LINK.SEND` names (Table 10-8). -/
def sendQueues (c : Cmd) : List Nat := (List.range (par c 54 2)).map (par c 52 2 + ·)

/-- A `LINK.SEND` names an `ALARM` queue. -/
def sendAlarm (s : State) (c : Cmd) : Bool := (sendQueues c).any (fun q => (queueGet s q).any (fun x => x.cls == 0))

/-- The journal entries of a `LINK.SEND` fit the budgets, and none of an `ALARM` queue waits for them (R319). -/
def seamFits (s : State) (c : Cmd) : Bool :=
  !isPrimary s || cOp c != 0x0806 ||
    (s.seam.unsent.isEmpty &&
      budgetFits s ((entryLoad s (.send 0 0 ((sendQueues c).map (fun q => (q, 0))))).1, if cInline c then 0 else cInLen c) &&
      (sendAlarm s c || !s.tortin.tracker.any (fun e =>
        e.2.stage == .waiting && e.2.passed && !e.2.mirror && cOp e.2 == 0x0806 && e.2.order != c.order && sendAlarm s e.2)))

/-- A frame of a `LINK.SEND` is acknowledged, or given up: the command's record of the queue (R286). The working numbers of
the command are its queues, plus 2^16 once acknowledged and 2^17 once given up. -/
def sendNote (s : State) (tag q code : Nat) : State :=
  match cmdAt s tag with
  | none => s
  | some c => if cOp c ≠ 0x0806 then s
    else setWork s tag { c.work with nums := c.work.nums.map (fun n => if n = q then q + code * 2 ^ 16 else n) }

/-- A transmit frame ends: its chain is freed. -/
def txFree (s : State) (f : TxFrame) : State :=
  match f.chain with
  | none => s
  | some b => hmpRelease s b

/-- A frame of an `ALARM` queue that was stale or not acknowledged is recorded (Table 19-3). -/
def alarmNote (s : State) (q : Nat) (x : Queue) : State :=
  if x.cls = 0 then tallyPut s agCp 0x0887 [(3, q), (4, x.port), (5, x.card.toNat)] else s

end Sys2Proof.Machine
end

