-- ==== Sys2Proof/Machine/KeyCmds.lean ====
section
/-! DEFINITION. The 0x04xx commands and Thimble's operations on key objects (spec 04, R94 to R122; spec 14, Table 14-4). -/

namespace Sys2Proof.Machine

/-! ### Fields of the creating commands (Table 4-12) -/

def kcType (c : Cmd) : Nat := par c 52 1
def kcSize (c : Cmd) : Nat := par c 54 2
def kcAttrs (c : Cmd) : Nat := par c 56 4
def kcLimit (c : Cmd) : Nat := par c 60 4

/-- Type, size, attributes and limit of a creating command are well formed. -/
def kcForm (c : Cmd) : Bool := (keyBytes (kcType c) (kcSize c)).isSome && attrsOk (kcType c) (kcAttrs c) (kcLimit c)

/-- `KEY_MGMT` of the issuing owner when the new object has `PERSIST` (Table 5-3). -/
def kcQuorum (s : State) (c : Cmd) (attrs : Nat) : Option (Nat × Nat) :=
  if bitN attrs kPersist then some (cOwner s c, qKeyMgmt) else none

/-- Types that a Mangle operation generates (R182, Table 7-2). -/
def isPairMade (t : Nat) : Bool := [0x10, 0x11, 0x12, 0x13, 0x14, 0x15, 0x16, 0x20].contains t

/-- An elliptic-curve pair type: the public part of an imported or derived key is computed (R187, R192). -/
def ecPair (t : Nat) : Bool := decide (0x10 ≤ t ∧ t ≤ 0x16)

/-- Plaintext bytes of an imported key (R121). -/
def importLen (t size : Nat) : Nat :=
  match t with
  | 0x10 => 32
  | 0x11 => 48
  | 0x12 => 66
  | 0x13 | 0x14 => 32
  | 0x15 => 56
  | 0x16 => 57
  | 0x20 => size / 4 + 8
  | _ => (keyBytes t size).getD 0

/-- Wrapped bytes of a plaintext: KW needs a multiple of 8 B of at least 16 B, KWP pads; none where the mode cannot wrap
it. -/
def wrapLen (mode n : Nat) : Option Nat :=
  if mode = 1 then (if n % 8 = 0 ∧ 16 ≤ n then some (n + 8) else none) else some (roundUp n 8 + 8)

/-- Child types of `KEY.DERIVE` and their bytes (Table 4-8). -/
def deriveLen (t size : Nat) : Option Nat :=
  match t with
  | 0x01 => some 16
  | 0x02 | 0x05 | 0x41 | 0x13 | 0x14 | 0x38 | 0x39 => some 32
  | 0x15 => some 56
  | 0x16 => some 57
  | 0x30 | 0x31 => some 64
  | 0x03 | 0x04 | 0x40 => keyBytes t size
  | _ => none

/-- The normalised size of R102. -/
def deriveSize (t size : Nat) : Nat :=
  if t = 0x03 ∧ size = 0 then 32 else if t = 0x04 ∧ size = 0 then 48 else size

/-- A key is given to a queue, or is the card key of an enrolled card (R121, R300). -/
def keyGiven (s : State) (h : Nat) : Bool :=
  s.links.queues.any (fun e => e.2.key == h) || s.links.cards.any (fun e => e.2.key == h)

/-- The key store's own statuses of `KEY.RESTRICT` for an object (R121). -/
def restrictOwn (s : State) (c : Cmd) (o : KeyObj) : Nat :=
  let mask := par c 60 4
  let na := par c 52 8
  let left := (List.range 9).filter (fun i => bitN o.attrs i && !bitN mask i)
  if left.isEmpty then stBadCommand
  else if bitN mask 8 && bitN o.attrs 8 && keyGiven s (cKeyA c) then 0x0403
  else if na ≠ 0 ∧ o.notAfter ≠ 0 ∧ o.notAfter.toNat < na then stDenied
  else stOk

/-- The catalogue's entries of the 0x04xx commands. -/
def specKeys (s : State) (c : Cmd) : Option CmdSpec :=
  let a := cKeyA c
  let b0 := decide (cKeyB c = 0)
  let attrZero := decide (kcAttrs c < 2 ^ 14)
  let persist := kcQuorum s c (kcAttrs c)
  let slots := some (keySlots (kcType c) (kcSize c))
  match cOp c with
  | 0x0401 => some { zero := noKeys c && parZero c [(53, 1)] && attrZero, form := kcForm c && !isPublicType (kcType c)
                     needsKeys := true, thm := true, quorum := persist, entropy := true, place := slots }
  | 0x0402 =>
    let w := wrapLen (par c 53 1) (importLen (kcType c) (kcSize c))
    some { zero := b0 && attrZero, form := kcForm c && !isPublicType (kcType c) && (par c 53 1 == 1 || par c 53 1 == 2)
           inMin := 24, inMax := 4040, lens := w == some (cInLen c), needsKeys := true, thm := true
           at7 := keyCheck s c a [1, 2] kUnwrap true (fun _ => stOk), uses := [a]
           quorum := persist.or (quorumUse s c [a]), place := slots }
  | 0x0403 => some { zero := noKeys c && parZero c [(53, 1), (60, 4)] && attrZero, form := isPublicType (kcType c) && kcForm c
                     inMax := 2592, lens := keyBytes (kcType c) (kcSize c) == some (cInLen c)
                     needsKeys := true, thm := true, place := slots }
  | 0x0404 => some { zero := b0 && parZero c [(53, 1)] && attrZero, form := kcForm c && (deriveLen (kcType c) (kcSize c)).isSome
                     inMax := 256, needsKeys := true, thm := true
                     at7 := keyCheck s c a [2, 3, 4, 0x40, 0x41] kDerive true (fun o =>
                       if bitN o.attrs kExpire && !bitN (kcAttrs c) kExpire then stBadCommand
                       else if !bitN o.attrs kPersist && bitN (kcAttrs c) kPersist then stBadCommand else stOk)
                     uses := [a], quorum := persist.or (quorumUse s c [a]), place := slots }
  | 0x0405 => some { zero := b0 && parZero c [(52, 12)], needsKeys := true, thm := true
                     at7 := keyCheck s c a [] 0 false (fun _ => if keyGiven s a then 0x0403 else stOk)
                     quorum := if keyHas s a kPersist then some (cOwner s c, qKeyMgmt) else none }
  | 0x0406 => some { zero := b0 && parZero c [(52, 12)], outMax := 64, needsKeys := true
                     at7 := keyCheck s c a [] 0 false (fun _ => stOk) }
  | 0x0407 => some { zero := b0, form := decide (par c 60 4 < 2 ^ 10), needsKeys := true, thm := true
                     at7 := keyCheck s c a [] 0 false (restrictOwn s c) }
  | 0x0408 => some { zero := noKeys c && parZero c [(54, 10)], outMax := 4, needsKeys := true }
  | 0x0409 => some { zero := b0 && parZero c [(54, 10)], form := decide (1 ≤ par c 52 2 ∧ par c 52 2 ≤ 4096)
                     needsKeys := true, thm := true
                     at7 := keyCheck s c a [] 0 false (fun o => if bitN o.attrs kCounted then stOk else stBadCommand)
                     quorum := some (cOwner s c, qKeyMgmt) }
  | _ => none

/-! ### Objects -/

/-- What a request to fill placed slots carries: owner, slot, type, size, attributes, limit, charged slice, origin. -/
def fillNums (s : State) (c : Cmd) (t size attrs limit origin : Nat) : List Nat :=
  [cOwner s c, (c.placed.getD (0, 0)).1, t, size, attrs, limit, (cSlice c).getD 0xFFFF, origin]

/-- The object that a filling request makes. -/
def fillObj (s : State) (r : ThmReq) (material : List Byte) : KeyObj :=
  let g (i : Nat) : Nat := r.nums.getD i 0
  { owner := g 0, gen := slotGen s (g 1), ktype := g 2, size := g 3, slots := keySlots (g 2) (g 3), attrs := g 4
    limit := g 5, remaining := g 5, slice := g 6, created := nowCt s, origin := g 7, material := material }

/-- A new object enters its slots; a persistent one first enters the journal (R107). A follower that has the object from the primary keeps it
(R111). -/
def storeObj (s : State) (r : ThmReq) (ok0 ok1 : Bool) (o : KeyObj) : State :=
  let slot := r.nums.getD 1 0
  let h := keyHandle slot o
  if s.seam.role = .follower ∧ (tblFind slot s.keys.objs).isSome then thmAnswer s r stOk h
  else if bitN o.attrs kPersist then
    match jrnOne s ok0 ok1 o.owner (.object h o) with
    | none => thmAnswer (jrnFailed s ok0 ok1) r 0x0406
    | some s1 => thmAnswer (keyPut s1 slot o) r stOk h
  else thmAnswer (keyPut s slot o) r stOk h

/-- An object's change of attributes, not-after time or lease size: a revision one higher (R106). -/
def changeObj (s : State) (r : ThmReq) (ok0 ok1 : Bool) (slot : Nat) (o : KeyObj) : State :=
  let o1 := { o with revision := o.revision + 1 }
  let h := keyHandle slot o
  if bitN o.attrs kPersist then
    match jrnOne s ok0 ok1 o.owner (.object h o1) with
    | none => thmAnswer (jrnFailed s ok0 ok1) r 0x0406
    | some s1 => thmAnswer (cacheFlags (keyPut s1 slot o1) h o1.attrs) r stOk h
  else thmAnswer (cacheFlags (keyPut s slot o1) h o1.attrs) r stOk h

/-! ### Thimble's operations -/

/-- The private part that a Mangle unit draws for a pair (R182, R187): a scalar from 1 to n − 1 out of 8 B more than its own length, a seed, or
the primes of an RSA key with e = 65,537 (assumption 60). -/
def pairPrivate (s : State) (t size : Nat) : Option (List Byte) × State :=
  match curveOf t with
  | some c =>
    let (bs, s1) := draw s (c.len + 8)
    (some (beBytes c.len (beNat bs % (c.n - 1) + 1)), s1)
  | none =>
    if t = 0x20 then
      let (bs, s1) := draw s 64
      let (p, q) := Config.rsaPrimes size bs
      (if rsaPublicOk size (p * q) 65537 then rsaMaterial size 65537 p q else none, s1)
    else
      let (bs, s1) := draw s (privLen t)
      (some bs, s1)

/-- The public part stored behind a private part is the one that belongs to it (R192); an RSA key holds n = p × q. -/
def pairOk (t size : Nat) (m : List Byte) : Bool :=
  if t = 0x20 then
    let l := size / 8
    beNat (bytesAt m 0 l) == beNat (bytesAt m (l + 8) (l / 2)) * beNat (bytesAt m (l + 8 + l / 2) (l / 2))
  else m.drop (privLen t) == bytesAt (Config.publicOf t (m.take (privLen t))) 0 ((keyBytes t size).getD 0 - privLen t)

/-- A key pair as a Mangle unit makes it: private part, public part, and the check that they match (R192). None where the candidates of an RSA key
are rejected, and others are drawn. -/
def pairMaterial (s : State) (t size : Nat) : Option (List Byte) × State :=
  let (priv, s1) := pairPrivate s t size
  let whole := if t = 0x20 then priv
    else priv.map (fun p => p ++ bytesAt (Config.publicOf t p) 0 ((keyBytes t size).getD 0 - p.length))
  (whole.filter (pairOk t size), s1)

/-- `THM_PLACE`: slots for a new object (R88); the quota and the free runs are tested as they stand now (R89, R118). -/
def execThmPlace (s : State) : Host.Outcome State Fault Refusal :=
  thmServe s 4 (fun r s =>
    let n := r.nums.getD 0 0
    match r.cmd with
    | none => thmAnswer s r 0x0401
    | some tag => match cmdAt s tag, placeSlots s n with
      | some c, some a =>
        if placeStatus s c n = stOk then thmAnswer (cmdPut s tag { c with placed := some (a, n) }) r stOk a
        else thmAnswer s r (placeStatus s c n)
      | some c, none => thmAnswer s r (placeStatus s c n)
      | none, _ => thmAnswer s r 0x0401)

/-- `THM_CREATE` (R121, Table 14-4): the pair that Mangle wrote back, or key bytes that Thimble draws once Bobbin serves. -/
def execThmCreate (ok0 ok1 : Bool) (s : State) : Host.Outcome State Fault Refusal :=
  thmServe s 5 (fun r s =>
    if !r.secret.isEmpty then storeObj s r ok0 ok1 (fillObj s r r.secret)
    else if !bobbinFor s 3 then s
    else
      let (m, s1) := draw s ((keyBytes (r.nums.getD 2 0) (r.nums.getD 3 0)).getD 0)
      storeObj s1 r ok0 ok1 (fillObj s1 r m))

/-- `THM_IMPORT` (R121): a wrapped key under handle B, whose mode the request names; mode 0 is a validated public key. -/
def execThmImport (ok0 ok1 : Bool) (s : State) : Host.Outcome State Fault Refusal :=
  thmServe s 6 (fun r s =>
    let t := r.nums.getD 2 0
    let size := r.nums.getD 3 0
    let mode := r.nums.getD 8 0
    if mode = 0 then storeObj s r ok0 ok1 (fillObj s r r.data)
    else
      let kek := ((keyOf s r.b).map (·.material)).getD []
      match Config.kwUnwrap mode kek r.data with
      | none => thmAnswer s r 0x0404
      | some p =>
        if p.length ≠ importLen t size then thmAnswer s r 0x0405
        else match importMaterial t size p with
          | none => thmAnswer s r 0x0405
          | some m => storeObj s r ok0 ok1 (fillObj s r m))

/-- The material of a derived key (R102). -/
def deriveMaterial (parent : List Byte) (owner t size attrs : Nat) (context : List Byte) : List Byte :=
  let n := (deriveLen t size).getD 0
  let x := beBytes 2 owner ++ beBytes 1 t ++ beBytes 2 (deriveSize t size) ++ beBytes 4 attrs ++ context
  let p := bytesAt (Config.kmac256 parent x n (ascii "ILASKUST-NB-DERIVE")) 0 n
  let full := (keyBytes t size).getD 0
  if full = n then p else p ++ bytesAt (Config.publicOf t p) 0 (full - n)

/-- `THM_DERIVE` (R102); its KMAC is an internal job of Press, which waits while every list is full (R157). -/
def execThmDerive (ok0 ok1 : Bool) (s : State) : Host.Outcome State Fault Refusal :=
  thmServe s 7 (fun r s =>
    match keyOf s r.a with
    | none => thmAnswer s r stBadHandle
    | some p => if !pressFree s then s else storeObj s r ok0 ok1
        (fillObj s r (deriveMaterial p.material (r.nums.getD 0 0) (r.nums.getD 2 0) (r.nums.getD 3 0) (r.nums.getD 4 0) r.data)))

/-- `THM_DESTROY` (R96). -/
def execThmDestroy (ok0 ok1 : Bool) (s : State) : Host.Outcome State Fault Refusal :=
  thmServe s 9 (fun r s =>
    match keyOf s r.a with
    | none => thmAnswer s r stBadHandle
    | some o =>
      if bitN o.attrs kPersist then
        match jrnOne s ok0 ok1 o.owner (.destroy r.a o.revision) with
        | none => thmAnswer (jrnFailed s ok0 ok1) r 0x0406
        | some s1 => thmAnswer (keyErase s1 (handleSlot r.a)) r stOk r.a
      else thmAnswer (keyErase s (handleSlot r.a)) r stOk r.a)

/-- `THM_RESTRICT` (R116, R121): the not-after time and the flags to clear. -/
def execThmRestrict (ok0 ok1 : Bool) (s : State) : Host.Outcome State Fault Refusal :=
  thmServe s 0xA (fun r s =>
    match keyOf s r.a with
    | none => thmAnswer s r stBadHandle
    | some o =>
      let na := r.nums.getD 0 0
      let mask := r.nums.getD 1 0
      let attrs := (List.range 14).foldl (fun n i => n + (if bitN o.attrs i && !bitN mask i then 2 ^ i else 0)) 0
      changeObj s r ok0 ok1 (handleSlot r.a)
        { o with attrs := attrs, notAfter := if na = 0 then o.notAfter else BitVec.ofNat 64 na })

/-- A lease of a key taken out of its persisted uses; the store of a persistent key is written first (R113). None where no chip takes the write. -/
def leaseTake (s : State) (ok0 ok1 : Bool) (h : Nat) (o : KeyObj) : Option State :=
  let n := min o.leaseSize o.remaining
  let o1 := { o with remaining := o.remaining - n, lease := o.lease + n }
  let put (s : State) : State :=
    jot { s with keys := { s.keys with objs := tblPut (handleSlot h) o1 s.keys.objs } } 0xFFFF false (.lease 2 h o1.remaining)
  if bitN o.attrs kPersist then (jrnOne s ok0 ok1 o.owner (.lease h o.revision o1.remaining)).map put else some (put s)

/-- A new lease for a key of a port job whose lease is used up, and whether a chip took it (R113); none while Thimble does not serve. -/
def portLease (s : State) (h : Nat) : Option (State × Bool) :=
  match keyOf s h with
  | none => some (s, true)
  | some o =>
    if useFind s h o 1 != .needLease then some (s, true)
    else if !thmUp s then none else some (jrnTry s (fun s a b => leaseTake s a b h o))

/-- `THM_LEASE` (R113): takes a lease, where one is needed still, or sets the lease size. `nums` holds that size, or 0 and the uses to be reserved. -/
def execThmLease (ok0 ok1 : Bool) (s : State) : Host.Outcome State Fault Refusal :=
  thmServe s 0xB (fun r s =>
    match keyOf s r.a with
    | none => thmAnswer s r stBadHandle
    | some o =>
      if r.nums.getD 0 0 ≠ 0 then changeObj s r ok0 ok1 (handleSlot r.a) { o with leaseSize := r.nums.getD 0 0 }
      else if useFind s r.a o (r.nums.getD 1 1) != .needLease then thmAnswer s r stOk r.a
      else match leaseTake s ok0 ok1 r.a o with
        | none => thmAnswer (jrnFailed s ok0 ok1) r 0x0406
        | some s1 => thmAnswer s1 r stOk r.a)

/-- The latest COUNTER record of each owner and the latest GROUPKEY record. -/
def countersLive (s : State) : List JRec :=
  (jrnEffective s).filter (fun r => jrnLive s r && (match r.kind with
    | .counter _ => true
    | .group _ _ => true
    | _ => false))

/-- An owner's working store key set; a primary journals it (R100). -/
def oskPut (s : State) (owner : Nat) (k : List Byte) : State :=
  jot { s with keys := { s.keys with osks := tblPut owner k s.keys.osks } } 0xFFFF false (.osk owner (some k))

/-- `THM_OWNER`: draws an owner's store key and writes its record, or destroys the owner's objects and erases the key
(R100, R123, R125). -/
def execThmOwner (ok0 ok1 : Bool) (s : State) : Host.Outcome State Fault Refusal :=
  thmServe s 0xC (fun r s =>
    let n := r.nums.getD 0 0
    if r.nums.getD 1 0 = 1 then
      if !bobbinFor s 3 then s else
      let (k, s1) := draw s 32
      match jrnOsk s1 ok0 ok1 n k k with
      | none => thmAnswer (jrnFailed s1 ok0 ok1) r 0x0406
      | some s2 => thmAnswer (oskPut s2 n k) r stOk
    else
      let mine := s.keys.objs.filter (fun e => e.2.owner == n)
      let gone := (mine.filter (fun e => bitN e.2.attrs kPersist)).map
        (fun e => (n, oskOf s n, JKind.destroy (keyHandle e.1 e.2) e.2.revision))
      match jrnMany s ok0 ok1 n (oskOf s n) gone (gone.length + 1) with
      | none => thmAnswer (jrnFailed s ok0 ok1) r 0x0406
      | some s1 =>
        let s2 := (mine.map (·.1)).foldl keyErase s1
        thmAnswer (jot { s2 with keys := { s2.keys with osks := tblDel n s2.keys.osks } } 0xFFFF false (.osk n none)) r stOk)

/-- `THM_HANDOVER`: store-key records of every owner under a generation and the successor's measurements, and the latest COUNTER
and GROUPKEY records under the successor's keys (R101, R455). -/
def execThmHandover (ok0 ok1 : Bool) (s : State) : Host.Outcome State Fault Refusal :=
  thmServe s 0x10 (fun r s =>
    let g := r.nums.getD 0 0
    let bm0 := bytesAt r.data 0 48
    let bm1 := bytesAt r.data 48 48
    let osks := s.keys.osks.map (fun e => (e.1, storeKey s bm0 bm1 e.1 g, JKind.osk g e.2))
    let link (r : JRec) : List Byte := (kdfWith s bm0 bm1 (if r.owner = 0xFFFF then 3 else 2) r.owner []).getD []
    let rs := osks ++ (countersLive s).map (fun r => (r.owner, link r, r.kind))
    match jrnMany s ok0 ok1 0xFFFF (seamStoreKey s) rs (rs.length + 1) with
    | none => thmAnswer (jrnFailed s ok0 ok1) r 0x0406
    | some s1 => thmAnswer s1 r stOk)

/-- `THM_PING`: answered at once. -/
def execThmPing (s : State) : Host.Outcome State Fault Refusal :=
  .next (if thmUp s then
    { s with thm := { s.thm with answers := s.thm.answers ++ [{ op := 1, tag := s.thm.nextTag, status := stOk }]
                                 nextTag := s.thm.nextTag + 1 } }
  else s)

/-- `THM_PURGE`: the CP asks for a handle to leave every cache; Thimble first completes every earlier request that names
it (R398). -/
def execThmPurge (h : Nat) (s : State) : Host.Outcome State Fault Refusal :=
  .next (if thmUp s && !s.thm.reqs.any (fun x => x.a == h || x.b == h) then
    let s1 := cachePurge s h
    { s1 with thm := { s1.thm with answers := s1.thm.answers ++ [{ op := 3, tag := s1.thm.nextTag, status := stOk, a := h }]
                                   nextTag := s1.thm.nextTag + 1 } }
  else s)

/-- The key of sealed bundles (R399). -/
def bundleKey (s : State) : List Byte :=
  bytesAt (Config.kmac256 s.seam.key (beBytes 8 s.seam.group.toNat ++ beBytes 4 s.seam.term) 32 (ascii "ILASKUST-SEAM-SEAL"))
    0 32

/-- `THM_SEAL`: a sealed bundle of the objects at some slots and of the store keys of some owners (R399). -/
def execThmSeal (slots owners : List Nat) (s : State) : Host.Outcome State Fault Refusal :=
  .next (if thmUp s && !s.seam.key.isEmpty then
    let b : Bundle := {
      key := bundleKey s, instance_ := s.keys.instance_, count := s.thm.bundles
      objs := slots.filterMap (fun n => (tblFind n s.keys.objs).map (fun o => (n, o)))
      osks := owners.filterMap (fun n => (tblFind n s.keys.osks).map (fun k => (n, k))) }
    { s with thm := { s.thm with bundles := s.thm.bundles + 1, bundle := some b } }
  else s)

/-- `THM_OPEN`: the sealed bundle of another member is applied; one that this member's key does not open changes
nothing (R399). -/
def execThmOpen (b : Bundle) (s : State) : Host.Outcome State Fault Refusal :=
  .next (if thmUp s && !s.seam.key.isEmpty && b.key == bundleKey s then
    let s1 := b.objs.foldl (fun s e => { s with keys := { s.keys with objs := tblPut e.1 e.2 s.keys.objs } }) s
    b.osks.foldl (fun s e => { s with keys := { s.keys with osks := tblPut e.1 e.2 s.keys.osks } }) s1
  else s)

/-! ### Commands -/

/-- A creating command asks Thimble to fill its placed slots; `secret`: what a Mangle unit writes back (R184). -/
def askFill (s : State) (tag : Nat) (c : Cmd) (op a b : Nat) (origin : Nat) (more : List Nat) (data : List Byte) (secret : List Byte := []) :
    State :=
  thmAsk s tag c { op := op, tag := 0, a := a, b := b, data := data, secret := secret
                   nums := fillNums s c (kcType c) (kcSize c) (kcAttrs c) (kcLimit c) origin ++ more }

/-- `KEY.CREATE`: a key pair comes from a Mangle operation, which ends first (R121, R184, Table 14-4). -/
def execKeyCreate (tag : Nat) (s : State) : Host.Outcome State Fault Refusal :=
  runCmd s tag 0x0401 (fun c s =>
    if mangleHas s tag then mangleSet s tag else askFill s tag c 5 0 0 1 [] [])

/-- `KEY.IMPORT`: the public part of an EC key comes from a Mangle operation, which ends first (R187, R192). -/
def execKeyImport (tag : Nat) (io : HostIO) (s : State) : Host.Outcome State Fault Refusal :=
  runIn s tag 0x0402 io (fun c bs s =>
    if mangleHas s tag then mangleSet s tag else askFill s tag c 6 0 (cKeyA c) 2 [par c 53 1] bs)

/-- `KEY.IMPORT_PUBLIC`: a key that Mangle's validation rejects creates nothing (R191). -/
def execKeyImportPublic (tag : Nat) (io : HostIO) (s : State) : Host.Outcome State Fault Refusal :=
  runIn s tag 0x0403 io (fun c bs s =>
    if mangleHas s tag then mangleSet s tag
    else if publicValid (kcType c) (kcSize c) bs then askFill s tag c 6 0 0 4 [0] bs
    else endAfter s tag stBadPoint)

/-- `KEY.DERIVE`: the public part of an EC key comes from a Mangle operation, which ends first. -/
def execKeyDerive (tag : Nat) (io : HostIO) (s : State) : Host.Outcome State Fault Refusal :=
  runIn s tag 0x0404 io (fun c bs s => if mangleHas s tag then mangleSet s tag else askFill s tag c 7 (cKeyA c) 0 3 [] bs)

/-- Another command that passed check 7 with a handle has not completed (R96). -/
def handleBusy (s : State) (tag h : Nat) : Bool :=
  s.tortin.tracker.any (fun e => e.1 != tag && (e.2.seven || e.2.stage == .started || e.2.stage == .ended) &&
    (cKeyA e.2 == h || cKeyB e.2 == h || e.2.pinned.contains h))

/-- A command of a streaming context that holds a handle runs: the context counts as a started operation (R169). -/
def ctxRuns (s : State) (h : Nat) : Bool :=
  s.tortin.tracker.any (fun e => e.2.stage == .started && [0x0507, 0x0508, 0x0509].contains (cOp e.2) &&
    (tblFind (par e.2 52 4 / 2 ^ 20) s.press.ctxs).any (fun x => x.handle == h))

/-- The streaming contexts that hold a handle end (R169). -/
def ctxsOfKeyEnd (s : State) (h : Nat) : State :=
  { s with press := { s.press with ctxs := s.press.ctxs.filter (fun e => e.2.handle != h) } }

/-- `KEY.DESTROY`: the destruction starts only after every command that passed check 7 with the handle has completed, and after
the running command of a context that holds the key; the contexts then end (R96, R169). -/
def execKeyDestroy (tag : Nat) (s : State) : Host.Outcome State Fault Refusal :=
  runCmd s tag 0x0405 (fun c s =>
    if handleBusy s tag (cKeyA c) || ctxRuns s (cKeyA c) then s
    else thmAsk (ctxsOfKeyEnd s (cKeyA c)) tag c { op := 9, tag := 0, a := cKeyA c })

/-- `KEY_DESTROY_PROCEED`: a `KEY.DESTROY` that waited goes on. -/
def execKeyDestroyProceed (tag : Nat) (s : State) : Host.Outcome State Fault Refusal := execKeyDestroy tag s

/-- `KEY.INFO` result (Table 4-14). -/
def keyInfo (s : State) (h : Nat) (o : KeyObj) : List Byte :=
  let counted := bitN o.attrs kCounted
  let cached := s.keys.pressKeys.any (fun e => e.handle == h) || s.keys.mangleKeys.any (fun e => e.handle == h) ||
    s.links.queues.any (fun e => e.2.key == h && e.2.present.isSome)
  leBytes 4 h ++ leBytes 1 o.ktype ++ leBytes 1 o.slots ++ leBytes 2 o.size ++ leBytes 4 o.attrs ++
  leBytes 4 (if counted then o.remaining + o.lease else 0) ++ leBytes 4 o.limit ++
  leBytes 2 (if counted && leased s o then o.leaseSize else 0) ++ leBytes 2 o.slice ++ leBytes 8 o.notAfter.toNat ++
  leBytes 8 o.created.toNat ++ leBytes 4 o.revision ++ leBytes 1 o.origin ++
  leBytes 1 (b2n cached + 2 * b2n (keyGiven s h) + 4 * b2n o.destroying.isSome) ++ zeros 18

/-- `KEY.INFO` (R122). -/
def execKeyInfo (tag : Nat) (io : HostIO) (s : State) : Host.Outcome State Fault Refusal :=
  runCmd s tag 0x0406 (fun c s => match keyOf s (cKeyA c) with
    | none => endFault s tag
    | some o => endOut s tag io (keyInfo s (cKeyA c) o))

/-- `KEY.RESTRICT` (R116). -/
def execKeyRestrict (tag : Nat) (s : State) : Host.Outcome State Fault Refusal :=
  runCmd s tag 0x0407 (fun c s => thmAsk s tag c { op := 0xA, tag := 0, a := cKeyA c, nums := [par c 52 8, par c 60 4] })

/-- `KEY.LIST`: the owner's handles in ascending order of slot, as many as fit. -/
def execKeyList (tag : Nat) (io : HostIO) (s : State) : Host.Outcome State Fault Refusal :=
  runCmd s tag 0x0408 (fun c s =>
    let first := max slotFirst (par c 52 2)
    let mine := s.keys.objs.filter (fun e => decide (first ≤ e.1) && e.2.owner == cOwner s c)
    let n := cOutCap c / 4
    endOut s tag io ((mine.take n).flatMap (fun e => leBytes 4 (keyHandle e.1 e.2))) stOk
      (BitVec.ofNat 64 (((mine.drop n).map (·.1)).headD 0)))

/-- `KEY.SET_LEASE` (R113). -/
def execKeySetLease (tag : Nat) (s : State) : Host.Outcome State Fault Refusal :=
  runCmd s tag 0x0409 (fun c s => thmAsk s tag c { op := 0xB, tag := 0, a := cKeyA c, nums := [par c 52 2] })

/-- `JOURNAL_COMPACTION` (R110): below 25 % of free space the live records of the oldest block of each chip move to the
head with a new commit, and the block is erased. -/
def execJournalCompaction (ok0 ok1 : Bool) (s : State) : Host.Outcome State Fault Refusal :=
  .next (if 4 * jrnFree s < jrnArea s ∧ thmUp s then
    let b0 := oldestBlock s.keys.jrn0
    let b1 := oldestBlock s.keys.jrn1
    jrnMove s ok0 ok1 (b0.1 ++ b1.1) b0.2 b1.2
  else s)

end Sys2Proof.Machine
end

