-- ==== Sys2Proof/Machine/Owners.lean ====
section
/-! DEFINITION. Owners, officers, quorums and the pending approval table, with the 0x03xx commands (spec 05). -/

namespace Sys2Proof.Machine

/-! ### Owners and quorums (R123, R124, R131) -/

/-- A canonical owner record (Table 5-11). -/
def canonOwner (n : Nat) (r : OwnerRec) : List Byte :=
  leBytes 2 n ++ leBytes 1 r.officers.length ++ zeros 1 ++ leBytes 4 r.validity ++ bytesAt r.label 0 32 ++
  ([1, 2, 3, 4].flatMap (fun c => let q := r.quorum.getD (c - 1) (0, 0); leBytes 1 q.1 ++ zeros 1 ++ leBytes 2 q.2)) ++
  zeros 8 ++
  r.officers.flatMap (fun e =>
    let m := [1, 2, 3, 4].foldl (fun m c => if bitN (r.quorum.getD (c - 1) (0, 0)).2 e.1 then m + 2 ^ (c - 1) else m) 0
    leBytes 1 e.2.kind ++ leBytes 1 e.1 ++ leBytes 1 m ++ zeros 1 ++ bytesAt e.2.label 0 32 ++ e.2.pub)

/-- The digest of owner 0's credentials and quorums that the boot control record holds (R452). -/
def owner0Digest (s : State) : List Byte :=
  match tblFind 0 s.keys.owners with
  | none => []
  | some r => bytesAt (Config.sha384 (canonOwner 0 r)) 0 48

/-- Tortin cannot authenticate the settings store: after a Rinse until the owner set is admitted again, while the key store is
closed and with it the settings key, and under Mend (R453, R463, R470). -/
def settingsShut (s : State) : Bool := s.keys.held || s.boot.ksCause != 0

/-- The record of an active owner. While the settings store cannot be authenticated only owner 0's is used, and only where its
digest is that of the boot control record (R124, R463, R470). -/
def ownerGet (s : State) (n : Nat) : Option OwnerRec :=
  if settingsShut s then
    if n = 0 ∧ (s.boot.ctl.map (·.own0)) = some (owner0Digest s) ∧ owner0Digest s ≠ [] then tblFind 0 s.keys.owners else none
  else tblFind n s.keys.owners

/-- An owner's record set or removed; a primary journals it. -/
def ownerPut (s : State) (n : Nat) (x : Option OwnerRec) : State :=
  let t := match x with
    | some r => tblPut n r s.keys.owners
    | none => tblDel n s.keys.owners
  jot { s with keys := { s.keys with owners := t } } 0xFFFF false (.owner n x)

/-- M and the member mask of a class of an owner; zero for a class that it lacks. -/
def quorumOf (s : State) (owner cls : Nat) : Nat × Nat :=
  match ownerGet s owner with
  | none => (0, 0)
  | some r => if cls = 0 then (0, 0) else r.quorum.getD (cls - 1) (0, 0)

/-- Classes that an owner holds (Table 5-2). -/
def classesOf (owner : Nat) : List Nat := if owner = 0 then [1, 2, 3, 4] else [1, 2, 3]

/-- The owner that an owner field names: 0xFFFF is the issuing owner (R146). -/
def ownerField (s : State) (c : Cmd) (v : Nat) : Nat := if v = 0xFFFF then cOwner s c else v

/-- The mask of an owner's present officers. -/
def officerMask (r : OwnerRec) : Nat := (r.officers.map (fun e => 2 ^ e.1)).foldl (· + ·) 0

/-- A mask without a bit. -/
def maskDrop (m i : Nat) : Nat := if bitN m i then m - 2 ^ i else m

/-! ### Credentials and owner descriptions (Tables 5-1, 5-7) -/

/-- Bytes of a credential of a kind; 0 for a kind that does not exist. -/
def credLen (kind : Nat) : Nat := match kind with
  | 1 => 133
  | 2 => 1988
  | 3 => 2085
  | _ => 0

/-- A credential as parsed: kind, index, class mask, reserved byte, label, public keys. -/
structure Cred where
  kind  : Nat
  index : Nat
  mask  : Nat
  zero  : Nat
  label : List Byte
  pub   : List Byte
  deriving DecidableEq, Repr

/-- The credential at an offset. -/
def credAt (bs : List Byte) (off : Nat) : Cred :=
  let kind := byteAt bs off
  { kind := kind, index := byteAt bs (off + 1), mask := byteAt bs (off + 2), zero := byteAt bs (off + 3)
    label := bytesAt bs (off + 4) 32, pub := bytesAt bs (off + 36) (credLen kind - 36) }

/-- A credential's fields are well formed for an owner (R128). -/
def credForm (owner : Nat) (k : Cred) : Bool :=
  decide (credLen k.kind ≠ 0 ∧ k.index < 16 ∧ k.zero = 0 ∧ k.mask < 16) && (owner == 0 || !bitN k.mask 3)

/-- The k credentials that begin at an offset, and the offset past the last. -/
def credsAt (bs : List Byte) : Nat → Nat → List Cred × Nat
  | 0, off => ([], off)
  | n + 1, off =>
    let k := credAt bs off
    let (ks, e) := credsAt bs n (off + credLen k.kind)
    (k :: ks, e)

/-- The single public keys that a credential holds: the P-384 point, the ML-DSA-65 key. -/
def credKeys (kind : Nat) (pub : List Byte) : List (List Byte) :=
  match kind with
  | 1 => [bytesAt pub 0 97]
  | 2 => [bytesAt pub 0 1952]
  | 3 => [bytesAt pub 0 97, bytesAt pub 97 1952]
  | _ => []

/-- Two credentials share a public key (R130). -/
def sharesKey (a b : Nat × List Byte) : Bool := (credKeys a.1 a.2).any (fun k => (credKeys b.1 b.2).contains k)

/-- Some public key occurs twice in a list of credentials. -/
def anyShared : List Cred → Bool
  | [] => false
  | k :: ks => ks.any (fun x => sharesKey (k.kind, k.pub) (x.kind, x.pub)) || anyShared ks

/-- Indices strictly rise. -/
def indicesRise : List Cred → Bool
  | a :: b :: t => decide (a.index < b.index) && indicesRise (b :: t)
  | _ => true

/-- Members of a class among credentials, as a mask of officer indices. -/
def classMask (ks : List Cred) (cls : Nat) : Nat :=
  ks.foldl (fun m k => if bitN k.mask (cls - 1) then m + 2 ^ k.index else m) 0

def descOwner (d : List Byte) : Nat := leAt d 0 2
def descCreds (d : List Byte) : List Cred := (credsAt d (byteAt d 2) 48).1
def descM (d : List Byte) (cls : Nat) : Nat := byteAt d (39 + cls)
def descValidity (d : List Byte) : Nat := leAt d 4 4

/-- The least bytes of an owner description: its 48 B and two credentials of kind 1 (Tables 5-1, 5-7). -/
def descMin := 314

/-- The credentials that lie whole in the bytes, from an offset; one of a kind that does not exist ends them. -/
def credsIn (bs : List Byte) : Nat → Nat → List Cred
  | 0, _ => []
  | n + 1, off =>
    if bs.length ≤ off then []
    else
      let k := credAt bs off
      if credLen k.kind = 0 then [k]
      else if bs.length < off + credLen k.kind then [] else k :: credsIn bs n (off + credLen k.kind)

/-- An owner description has the length of its credentials. -/
def descLens (d : List Byte) : Bool := decide (descMin ≤ d.length) && (credsAt d (byteAt d 2) 48).2 == d.length

/-- An owner description is well formed (R128, R131, Table 5-7); one that is cut short is found at check 3 (R561). -/
def descForm (d : List Byte) : Bool :=
  let o := descOwner d
  let k := byteAt d 2
  let ks := descCreds d
  decide (d.length < descMin) ||
  (decide (o ≤ 1023 ∧ 2 ≤ k ∧ k ≤ 16 ∧ byteAt d 3 = 0 ∧ leAt d 44 4 = 0 ∧ 1 ≤ descValidity d ∧ descValidity d ≤ 86400) &&
  (o == 0 || byteAt d 43 == 0) && (credsIn d k 48).all (credForm o) && (!descLens d || (indicesRise ks &&
  (classesOf o).all (fun c => decide (2 ≤ descM d c ∧ descM d c ≤ popCount (classMask ks c) 16)))))

/-- The record that a description makes. -/
def descRec (s : State) (d : List Byte) : OwnerRec :=
  let ks := descCreds d
  { label := bytesAt d 8 32, validity := descValidity d, created := nowCt s
    quorum := [1, 2, 3, 4].map (fun c => if (classesOf (descOwner d)).contains c then (descM d c, classMask ks c) else (0, 0))
    officers := ks.foldl (fun t k => tblPut k.index { kind := k.kind, label := k.label, pub := k.pub, added := nowCt s } t) [] }

/-- Mangle accepts every public key of a credential (R191). -/
def credValid (k : Nat × List Byte) : Bool :=
  (k.1 == 2 || publicValid 0x91 0 (bytesAt k.2 0 97)) &&
  (k.1 == 1 || publicValid 0xB8 0 (bytesAt k.2 (if k.1 = 3 then 97 else 0) 1952))

/-! ### The owner-set digest (R562) -/

/-- The owner-set digest. -/
def ownerSetDigest (s : State) : List Byte :=
  bytesAt (Config.sha384 (ascii "NBOWNSET" ++ leBytes 1 1 ++ zeros 3 ++ leBytes 4 s.keys.owners.length ++
    s.keys.owners.flatMap (fun e => canonOwner e.1 e.2))) 0 48

/-- Tortin rewrites the owner-0 digest when owner 0's officers or quorums change (R452). -/
def owner0Note (s : State) (n : Nat) : State :=
  if n ≠ 0 then s
  else match s.boot.ctl with
    | none => s
    | some b => { s with boot := { s.boot with ctl := some { b with own0 := owner0Digest s } } }

/-! ### The pending table (R133 to R143) -/

/-- An entry is in time for an event captured at a Stamp (R136). -/
def pendInTime (s : State) (e : PendEntry) (t : Stamp) : Bool :=
  decide (t.toNat ≤ e.expiry) && e.epoch == epochId s

/-- M, and the mask of present members, that an entry is counted against: for the initialisation of owner 0 those of the
copied description (R139, R144). -/
def pendQuorum (s : State) (e : PendEntry) : Nat × Nat :=
  match e.copy with
  | some d => (descM d 4, classMask (descCreds d) 4)
  | none =>
    let q := quorumOf s e.owner e.cls
    (q.1, match ownerGet s e.owner with
      | some r => (List.range 16).foldl (fun m i => if bitN q.2 i && bitN (officerMask r) i then m + 2 ^ i else m) 0
      | none => 0)

/-- The count of R139: approvals of officers who are present members of the entry's class. -/
def pendCount (s : State) (e : PendEntry) : Nat :=
  ((List.range 16).filter (fun i => bitN e.mask i && bitN (pendQuorum s e).2 i)).length

/-- Enough officers have approved. -/
def pendEnough (s : State) (e : PendEntry) : Bool :=
  let m := (pendQuorum s e).1
  decide (2 ≤ m ∧ m ≤ pendCount s e)

/-- State of an entry as `APPROVAL.LIST` and `APPROVAL.SUBMIT` give it. -/
def pendState (s : State) (e : PendEntry) : Nat :=
  if e.reserved.isSome then 3 else if pendEnough s e then 2 else 1

/-- The body digest of a target: SHA-384 with bytes 16 to 23 zero (Table 5-4). -/
def bodyDigest (b : List Byte) : List Byte :=
  bytesAt (Config.sha384 (bytesAt b 0 16 ++ zeros 8 ++ bytesAt b 24 40)) 0 48

/-- A started `APPROVAL.CANCEL` withdraws a pending entry: nothing reserves it any more (R141, assumption 57). -/
def cancelRuns (s : State) (n : Nat) : Bool :=
  s.tortin.tracker.any (fun e => e.2.stage == .started && cOp e.2 == 0x030A && par e.2 52 2 == n)

/-- What check 9 finds for a command: an entry to reserve, or the status that ends it (R139). -/
def approvalFind (s : State) (owner cls : Nat) (kind : Nat) (body : List Byte) (at_ : Stamp) : Nat ⊕ Nat :=
  let d := bodyDigest body
  let ms := s.keys.pend.filter (fun e => e.2.owner == owner && e.2.cls == cls && e.2.kind == kind && e.2.digest == d && !cancelRuns s e.1)
  match ms.find? (fun e => pendInTime s e.2 at_ && pendEnough s e.2 && e.2.reserved.isNone) with
  | some e => .inl e.1
  | none => .inr (if !ms.isEmpty && ms.all (fun e => !pendInTime s e.2 at_) then stExpired else stQuorum)

/-- Approval commands (R132). -/
def isApprovalOp (op : Nat) : Bool := decide (0x0307 ≤ op ∧ op ≤ 0x030A)

/-- Opcodes that the front mailbox accepts (Table 3-6, column Mbx). -/
def mbxAccepts (op : Nat) : Bool :=
  [0x0101, 0x0102, 0x0103, 0x0104, 0x0105, 0x0201, 0x0202, 0x0206, 0x020A, 0x0301, 0x0302, 0x0303, 0x0307, 0x0308, 0x0309,
   0x030A, 0x0505, 0x0602, 0x0701, 0x0703, 0x0901, 0x0902, 0x0903, 0x0905, 0x0A01, 0x0A02, 0x0A04, 0x0A05, 0x0B01, 0x0C01,
   0x0C02, 0x0C03, 0x0C04, 0x0C05, 0x0C06, 0x0D01, 0x0D02, 0x0D03, 0x0D04, 0x0D05, 0x0D06, 0x0D07].contains op

/-- A command changes no state (R79): by opcode, and for `DEV.COUNTERS` by its `CLEAR` bit. -/
def noChange (b : List Byte) : Bool :=
  let op := bodyOp b
  [0x0101, 0x0102, 0x0103, 0x0104, 0x020A, 0x0303, 0x0309, 0x0505, 0x0602, 0x0701, 0x0703, 0x0903, 0x0A01, 0x0A04, 0x0B01,
   0x0C06, 0x0C02, 0x0D01, 0x0D04, 0x0D06].contains op || (op == 0x0105 && !bitN (byteAt b 52) 0)

/-- Commands that perform an operation with a key that they name by handle: uses of the key (R95, R120). -/
def usesKey (op : Nat) : Bool :=
  decide (0x0501 ≤ op ∧ op ≤ 0x0506) || [0x0402, 0x0404, 0x0601, 0x0602, 0x0603, 0x0604, 0x0605, 0x0607, 0x0803, 0x0809].contains op

/-- Class that Table 5-3 names for an opcode sent from a slice; `key` says that a handle it names has `QUORUM_USE`. The handles of a
`PK.VERIFY_BATCH` stand in its input, which a request does not read before its start (R561): it is named whatever they are (assumption 57). -/
def opClass (op : Nat) (key : Bool) : Option Nat :=
  if [0x0304, 0x0305, 0x0306].contains op then some qOwnerAdmin
  else if [0x0401, 0x0402, 0x0404, 0x0405, 0x0603, 0x0604, 0x0605, 0x0409, 0x0803, 0x0809, 0x080A].contains op then
    some qKeyMgmt
  else if [0x0E01, 0x0E04].contains op then some qProgram
  else if [0x0301, 0x0302, 0x0901, 0x0902, 0x0906, 0x0C01, 0x0C03, 0x0C04, 0x0C05, 0x0D02, 0x0D05, 0x0D07, 0x0B02].contains op
    then some qCustodian
  else if (key && usesKey op) || op == 0x0607 then some qKeyMgmt else none

/-- The target of an `APPROVAL.REQUEST`: as a command of the same route. -/
def targetCmd (c : Cmd) (b : List Byte) : Cmd := { origin := c.origin, body := bytesAt b 0 64 }

/-- The class that a target needs on the route of the request (R132, R135). -/
def targetClass (s : State) (c : Cmd) (b : List Byte) : Option Nat :=
  let op := bodyOp b
  if cMbx c then (if mbxAccepts op && !isApprovalOp op && !noChange b then some qCustodian else none)
  else opClass op (keyHas s (leAt b 4 4) kQuorumUse || keyHas s (leAt b 36 4) kQuorumUse)

/-- The fields of a transition body that must be zero, its token and its opcode (R471). -/
def transForm (b : List Byte) : Bool :=
  decide (bodyOp b = 0x0D00 ∧ leAt b 2 6 = 0 ∧ leAt b 8 8 ≠ 0 ∧ leAt b 16 8 = 0 ∧ leAt b 27 5 = 0 ∧ leAt b 40 24 = 0)

/-- Targets that a Scorch lock lets owner 0 approve (R143): `SCORCH.UNLOCK`, and a transition to Returned or Scrapped. -/
def lockTarget (owner kind : Nat) (b : List Byte) : Bool :=
  owner == 0 && ((kind == 0 && bodyOp b == 0x0D05) || (kind == 1 && (byteAt b 25 == 3 || byteAt b 25 == 4)))

/-- The entry that a request finds already there (R134). -/
def pendSame (s : State) (owner kind cls : Nat) (b : List Byte) : Option (Nat × PendEntry) :=
  s.keys.pend.find? (fun e => e.2.owner == owner && e.2.kind == kind && e.2.cls == cls && e.2.digest == bodyDigest b &&
    pendInTime s e.2 (nowStamp s))

/-- The whole input that a command carries in its copy or inline. -/
def heldInput (c : Cmd) : List Byte :=
  if cInline c then bytesAt c.inlined 0 (cInLen c) else c.copy.getD []

/-- An `APPROVAL.REQUEST` needs a new place: no entry of its owner, kind, class and body digest is there (R134). -/
def reqNew (s : State) (c : Cmd) : Bool :=
  let b := bytesAt (heldInput c) 0 64
  (pendSame s (cOwner s c) (par c 52 1) (if par c 52 1 = 1 then qCustodian else (targetClass s c b).getD 0) b).isNone

/-- `APPROVAL.REQUEST` commands of an owner, or of all, that have passed check 9 and need a new place: each has it in the table (R134). -/
def pendAsked (s : State) (p : Nat → Bool) : Nat :=
  tblCount (fun (c : Cmd) => cOp c == 0x0307 && c.passed && !c.mirror && c.stage != .ended && p (cOwner s c) && reqNew s c) s.tortin.tracker

/-- Entries that the table holds: 1,024; under Mend 4 (R134, R463). -/
def pendCap (s : State) : Nat := if s.tortin.server = 2 then 4 else 1024

/-- The whole table is full; an owner's share is full (R134). -/
def pendTableFull (s : State) : Bool := decide (pendCap s ≤ s.keys.pend.length + pendAsked s (fun _ => true))
def pendFull (s : State) (owner : Nat) : Bool :=
  pendTableFull s || decide (64 ≤ (s.keys.pend.filter (fun e => e.2.owner == owner)).length + pendAsked s (· == owner))

/-- An expired entry is removed, with its record (R137). -/
def pendExpire (s : State) (n : Nat) (e : PendEntry) : State :=
  tallyPut (pendPut s n none) agCp 0x0381 [(1, e.owner), (0x0C, n)]

/-- Expired entries whose place an allocation needs are removed; a reserved one stands (R134, R137, R141). -/
def pendPurge (s : State) (owner : Nat) : State :=
  if !pendFull s owner then s
  else (s.keys.pend.filter (fun e => !pendInTime s e.2 (nowStamp s) && e.2.reserved.isNone &&
    (pendTableFull s || e.2.owner == owner))).foldl (fun s e => pendExpire s e.1 e.2) s

/-- The request initialises owner 0: `b` is the target's body, `desc` its input (R144). -/
def isInit (s : State) (c : Cmd) (b desc : List Byte) : Bool :=
  cMbx c && bodyOp b == 0x0301 && (tblFind 0 s.keys.owners).isNone && descOwner desc == 0

/-! ### What the 0x03xx commands check (R138, R141, R146) -/

/-- An owner is in use: a slice, a queue or a program of it exists (R127). -/
def ownerInUse (s : State) (n : Nat) : Bool :=
  s.slices.any (fun e => e.2.mode != .unbound && e.2.owner == n) || s.links.queues.any (fun e => e.2.owner == n) ||
  s.needle.progs.any (fun e => e.2.owner == n)

/-- The owner whose record a command changes. -/
def ownerChanged (s : State) (c : Cmd) : Option Nat :=
  match cOp c with
  | 0x0301 => some (descOwner (if cInline c then c.inlined else c.copy.getD []))
  | 0x0302 => some (par c 52 2)
  | 0x0304 => some (cOwner s c)
  | 0x0305 => some (cOwner s c)
  | 0x0306 => some (cOwner s c)
  | _ => none

/-- A started command changes the record of an owner: others that would change it wait, and are checked again in their turn, so that the rules
R130 and R131 hold whichever runs first (assumption 57). -/
def ownerBusy (s : State) (n : Nat) : Bool :=
  s.tortin.tracker.any (fun e => e.2.stage == .started && ownerChanged s e.2 == some n)

/-- A started `APPROVAL.SUBMIT` or `APPROVAL.CANCEL` acts on a pending entry: another one waits for its turn (assumption 57). -/
def pendBusy (s : State) (n : Nat) : Bool :=
  s.tortin.tracker.any (fun e => e.2.stage == .started && (cOp e.2 == 0x0308 || cOp e.2 == 0x030A) && par e.2 52 2 == n)

/-- The place of a new entry: the first that is free and that no started `APPROVAL.SUBMIT` or `APPROVAL.CANCEL` names (assumption 51). -/
def pendSpot (s : State) : Option Nat :=
  let busy := s.tortin.tracker.filter (fun e => e.2.stage == .started && (cOp e.2 == 0x0308 || cOp e.2 == 0x030A))
  tblFree (busy.foldl (fun t e => tblPut (par e.2 52 2) () t) (s.keys.pend.map (fun e => (e.1, ())))) 0 1024

/-- Removing an officer leaves fewer than 2 officers, or a class with fewer members than its M (R130). -/
def removeBreaks (r : OwnerRec) (i : Nat) : Bool :=
  decide (r.officers.length ≤ 2) ||
  r.quorum.any (fun q => decide (popCount (maskDrop q.2 i) 16 < q.1))

/-- Signature bytes of an officer's kind (R129). -/
def sigLen (kind : Nat) : Nat := match kind with
  | 1 => 96
  | 2 => 3309
  | _ => 3405

/-- The officer of an entry: present, with its kind and public keys; for the initialisation of owner 0 from the copy. -/
def pendOfficer (s : State) (e : PendEntry) (i : Nat) : Option (Nat × List Byte) :=
  match e.copy with
  | some d => ((descCreds d).find? (fun k => k.index == i)).map (fun k => (k.kind, k.pub))
  | none => match ownerGet s e.owner with
    | none => none
    | some r => (tblFind i r.officers).map (fun o => (o.kind, o.pub))

/-- The steps that `APPROVAL.SUBMIT` and `APPROVAL.CANCEL` share (R138). -/
def pendFirst (s : State) (c : Cmd) : Nat :=
  match tblFind (par c 52 2) s.keys.pend with
  | none => 0x0301
  | some e =>
    if e.owner ≠ cOwner s c then 0x0301
    else if s.scorch.locked && !lockTarget e.owner e.kind e.body then stLocked
    else if e.reserved.isSome then 0x0304
    else stOk

/-- The checks of `APPROVAL.SUBMIT` before execution start (R138). -/
def submitChecks (s : State) (c : Cmd) : Nat :=
  if pendFirst s c ≠ stOk then pendFirst s c
  else match tblFind (par c 52 2) s.keys.pend with
    | none => 0x0301
    | some e =>
      let i := par c 54 1
      if !pendInTime s e c.accepted then stExpired
      else if !bitN (pendQuorum s e).2 i then stDenied
      else if bitN e.mask i then 0x0303
      else match pendOfficer s e i with
        | none => stDenied
        | some k => if cInLen c = sigLen k.1 then stOk else stBadLength

/-- The catalogue's entries of the 0x03xx commands; `specOf` is that of every other command, for the fields that an
approval target must leave zero (R135). -/
def specOwners (specOf : Cmd → Option CmdSpec) (s : State) (c : Cmd) : Option CmdSpec :=
  let d := heldInput c
  let own := cOwner s c
  match cOp c with
  | 0x0301 =>
    let there := (tblFind (descOwner d) s.keys.owners).isSome
    let st := if anyShared (descCreds d) then 0x0307 else if there then 0x030A else stOk
    some { zero := noKeys c && parZero c [(52, 12)], formIn := descForm d, inMin := descMin, inMax := 48 + 16 * 2085
           lens := descLens d, preread := descMin, thm := true, issuer := own == 0 && (cMbx c || descOwner d != 0 || there)
           quorum := some (0, qCustodian), entropy := true, early := st, late := st, free := !ownerBusy s (descOwner d) }
  | 0x0302 =>
    let n := par c 52 2
    let st := if (tblFind n s.keys.owners).isNone then 0x030A else if ownerInUse s n then 0x0309 else stOk
    some { zero := noKeys c && parZero c [(54, 10)], form := decide (1 ≤ n ∧ n ≤ 1023), issuer := own == 0, thm := true
           quorum := some (0, qCustodian), early := st, late := st, free := !ownerBusy s n }
  | 0x0303 =>
    let n := ownerField s c (par c 52 2)
    some { zero := noKeys c && parZero c [(54, 10)], form := decide (n ≤ 1023), outMax := 864, issuer := own == 0 || n == own }
  | 0x0304 =>
    let k := credAt d 0
    let st := match ownerGet s own with
      | none => 0x030A
      | some r => if r.officers.any (fun e => sharesKey (e.2.kind, e.2.pub) (k.kind, k.pub)) then 0x0307
        else if (tblFind k.index r.officers).isSome then 0x0306 else stOk
    some { zero := noKeys c && parZero c [(52, 12)], formIn := credForm own k, inMin := 133, inMax := 2085
           lens := credLen k.kind == cInLen c, preread := 133, quorum := some (own, qOwnerAdmin), early := st, late := st
           free := !ownerBusy s own }
  | 0x0305 =>
    let i := par c 52 1
    let there := (ownerGet s own).any (fun r => (tblFind i r.officers).isSome)
    let st := match ownerGet s own with
      | none => 0x030A
      | some r => if removeBreaks r i then 0x0308 else stOk
    some { zero := noKeys c && parZero c [(53, 11)], form := there, quorum := some (own, qOwnerAdmin), early := st
           late := if there then st else stBadCommand, free := !ownerBusy s own }
  | 0x0306 =>
    let cls := par c 52 1
    let m := par c 53 1
    let mask := par c 54 2
    let fits := if cls = 0 then decide (1 ≤ par c 56 4 ∧ par c 56 4 ≤ 86400)
      else (classesOf own).contains cls && decide (2 ≤ m ∧ m ≤ popCount mask 16) &&
        (ownerGet s own).any (fun r => subMask mask (officerMask r))
    some { zero := noKeys c && (if cls = 0 then parZero c [(53, 3), (60, 4)] else parZero c [(56, 8)]), form := fits
           quorum := some (own, qOwnerAdmin), late := if fits then stOk else stBadCommand, free := !ownerBusy s own }
  | 0x0307 =>
    let kind := par c 52 1
    let b := bytesAt d 0 64
    let cls := if kind = 1 then some qCustodian else targetClass s c b
    let desc := d.drop 64
    let init := isInit s c b desc
    let zeroOk := if kind = 1 then transForm b
      else decide (bodyFlags b < 16 ∧ leAt b 8 8 ≠ 0) && (!bodyInline b || decide (leAt b 24 8 = 0)) && cls.isSome &&
        ((specOf (targetCmd c b)).all (fun x => x.zero))
    some { zero := noKeys c && parZero c [(53, 3), (60, 4)], form := decide (kind ≤ 1 ∧ par c 56 4 ≤ 86400)
           formIn := zeroOk && (!init || descForm desc)
           inMin := 64, inMax := if kind = 1 then 64 else 64 + 16 * 1048576, lens := (!init || descLens desc), outMax := 160
           preread := 64, issuer := decide (kind = 0) || own == 0, entropy := true
           early := if init && anyShared (descCreds desc) then 0x0307 else stOk }
  | 0x0308 => some { zero := noKeys c && parZero c [(55, 9)], inMax := 3405, early := submitChecks s c, late := submitChecks s c
                     free := !pendBusy s (par c 52 2) }
  | 0x0309 => some { zero := noKeys c && parZero c [(54, 10)], outMax := 32 }
  | 0x030A => some { zero := noKeys c && parZero c [(54, 10)], early := pendFirst s c, late := pendFirst s c
                     free := !pendBusy s (par c 52 2) }
  | _ => none

/-! ### Commands -/

/-- `OWNER.CREATE`: Mangle validates the credentials, then Thimble is asked for the owner's store key (R123, R125, R128). -/
def execOwnerCreate (tag : Nat) (io : HostIO) (s : State) : Host.Outcome State Fault Refusal :=
  runIn s tag 0x0301 io (fun c d s =>
    if mangleHas s tag then mangleSet s tag
    else if !(descCreds d).all (fun k => credValid (k.kind, k.pub)) then endAfter s tag stBadPoint
    else thmAsk s tag c { op := 0xC, tag := 0, nums := [descOwner d, 1] })

/-- `OWNER.RETIRE` (R123). -/
def execOwnerRetire (tag : Nat) (s : State) : Host.Outcome State Fault Refusal :=
  runCmd s tag 0x0302 (fun c s => thmAsk s tag c { op := 0xC, tag := 0, nums := [par c 52 2, 0] })

/-- Ends `OWNER.CREATE` or `OWNER.RETIRE` when Thimble has answered. -/
def ownerDone (s : State) (tag : Nat) (c : Cmd) (r : ThmRsp) : State :=
  if r.status ≠ stOk then endAfter s tag r.status
  else if cOp c = 0x0301 then
    let d := heldInput c
    let n := descOwner d
    endOk (owner0Note (ownerPut s n (some (descRec s d))) n) tag 0 (BitVec.ofNat 64 n)
  else
    let n := par c 52 2
    let s1 := (s.keys.pend.filter (fun e => e.2.owner == n)).foldl (fun s e => pendPut s e.1 none) s
    endOk (ownerPut s1 n none) tag

/-- Key slots charged to an owner's objects. -/
def ownerSlots (s : State) (n : Nat) : Nat :=
  (s.keys.objs.map (fun e => if e.2.owner = n then e.2.slots else 0)).foldl (· + ·) 0

/-- `OWNER.INFO` result (Table 5-8). -/
def ownerInfo (s : State) (n : Nat) : List Byte :=
  let slices := (s.slices.filter (fun e => e.2.mode != .unbound && e.2.owner == n)).length
  let pend := (s.keys.pend.filter (fun e => e.2.owner == n)).length
  match ownerGet s n with
  | none => leBytes 2 n ++ zeros 4 ++ leBytes 2 pend ++ zeros 12 ++ leBytes 4 slices ++ leBytes 4 (ownerSlots s n) ++ zeros 68 ++
      (List.range 16).flatMap (fun i => leBytes 1 i ++ zeros 47)
  | some r =>
    let q (c : Nat) : List Byte :=
      let x := r.quorum.getD (c - 1) (0, 0)
      leBytes 1 x.1 ++ leBytes 1 (popCount x.2 16) ++ leBytes 2 x.2
    let officer (i : Nat) : List Byte := match tblFind i r.officers with
      | none => leBytes 1 i ++ zeros 47
      | some o =>
        let m := [1, 2, 3, 4].foldl (fun m c => if bitN (r.quorum.getD (c - 1) (0, 0)).2 i then m + 2 ^ (c - 1) else m) 0
        leBytes 1 i ++ leBytes 1 o.kind ++ leBytes 1 m ++ zeros 1 ++ leBytes 4 o.given ++ leBytes 8 o.added.toNat ++
          bytesAt o.label 0 32
    leBytes 2 n ++ leBytes 1 1 ++ leBytes 1 r.officers.length ++ leBytes 2 (officerMask r) ++ leBytes 2 pend ++
    leBytes 8 r.created.toNat ++ leBytes 4 r.validity ++ leBytes 4 slices ++ leBytes 4 (ownerSlots s n) ++ zeros 4 ++
    bytesAt r.label 0 32 ++ [1, 2, 3, 4].flatMap q ++ zeros 16 ++ (List.range 16).flatMap officer

/-- `OWNER.INFO`. -/
def execOwnerInfo (tag : Nat) (io : HostIO) (s : State) : Host.Outcome State Fault Refusal :=
  runCmd s tag 0x0303 (fun c s => endOut s tag io (ownerInfo s (ownerField s c (par c 52 2))))

/-- `OFFICER.ADD`: Mangle validates the credential, whose classes become memberships (R128). On a follower the primary's journalled owner record may be there
already: the officer and its memberships stand then as it gave them (R142). -/
def execOfficerAdd (tag : Nat) (io : HostIO) (s : State) : Host.Outcome State Fault Refusal :=
  runIn s tag 0x0304 io (fun c d s =>
    let k := credAt d 0
    if mangleHas s tag then mangleSet s tag else
    match ownerGet s (cOwner s c) with
    | none => endFault s tag
    | some r =>
      if !credValid (k.kind, k.pub) then endAfter s tag stBadPoint
      else
        let q := (List.range 4).map (fun i => let x := r.quorum.getD i (0, 0)
          (x.1, if bitN k.mask i && !bitN x.2 k.index then x.2 + 2 ^ k.index else x.2))
        let f := (tblFind k.index r.officers).getD { kind := k.kind, label := k.label, pub := k.pub, added := nowCt s }
        let r1 := { r with quorum := q, officers := tblPut k.index f r.officers }
        endOk (owner0Note (ownerPut s (cOwner s c) (some r1)) (cOwner s c)) tag 0 (BitVec.ofNat 64 k.index))

/-- `OFFICER.REMOVE`: the officer leaves every class, and its bit every pending entry of the owner (R130, R141). -/
def execOfficerRemove (tag : Nat) (s : State) : Host.Outcome State Fault Refusal :=
  runCmd s tag 0x0305 (fun c s =>
    let i := par c 52 1
    let o := cOwner s c
    match ownerGet s o with
    | none => endFault s tag
    | some r =>
      let r1 := { r with quorum := r.quorum.map (fun q => (q.1, maskDrop q.2 i)), officers := tblDel i r.officers }
      let s1 := (s.keys.pend.filter (fun e => e.2.owner == o)).foldl
        (fun s e => pendPut s e.1 (some { e.2 with mask := maskDrop e.2.mask i })) s
      endOk (owner0Note (ownerPut s1 o (some r1)) o) tag)

/-- `OWNER.SET_QUORUM` (R131, R146). -/
def execOwnerSetQuorum (tag : Nat) (s : State) : Host.Outcome State Fault Refusal :=
  runCmd s tag 0x0306 (fun c s =>
    let o := cOwner s c
    match ownerGet s o with
    | none => endFault s tag
    | some r =>
      let r1 := if par c 52 1 = 0 then { r with validity := par c 56 4 }
        else { r with quorum := setAt r.quorum (par c 52 1 - 1) (par c 53 1, par c 54 2) }
      endOk (owner0Note (ownerPut s o (some r1)) o) tag)

/-- The domain of approval messages: the serial when alone, and while the settings store cannot be authenticated; the group
identifier in a group (Table 5-4, R463, R470). -/
def approvalDomain (s : State) : BitVec 64 := if inGroup s && !settingsShut s then s.seam.group else s.dev.serial

/-- The approval message (Table 5-4). -/
def approvalMsg (s : State) (cls owner op : Nat) (token : List Byte) (at_ : Stamp) (expiry : Nat)
    (challenge digest inDigest : List Byte) : List Byte :=
  ascii "NBAPPRV1" ++ leBytes 1 1 ++ leBytes 1 cls ++ leBytes 2 owner ++ leBytes 2 op ++ leBytes 2 (epochId s).toNat ++
  leBytes 8 (approvalDomain s).toNat ++ bytesAt token 0 8 ++ leBytes 8 at_.toNat ++ leBytes 8 expiry ++
  bytesAt challenge 0 16 ++ bytesAt digest 0 48 ++ bytesAt inDigest 0 48

/-- `APPROVAL.REQUEST` (R133 to R136, R144): an entry already there is returned; otherwise one is made with a challenge from
Bobbin, once Bobbin serves (R214). The credentials of a request that initialises owner 0 are validated first (R128). -/
def execApprovalRequest (tag : Nat) (io : HostIO) (s : State) : Host.Outcome State Fault Refusal :=
  runIn s tag 0x0307 io (fun c d s =>
    let kind := par c 52 1
    let b := bytesAt d 0 64
    let own := cOwner s c
    let cls := if kind = 1 then qCustodian else (targetClass s c b).getD 0
    let init := isInit s c b (d.drop 64)
    let reply (n : Nat) (e : PendEntry) (s : State) : State :=
      endOut s tag io e.msg stOk (BitVec.ofNat 64 (n + cls * 2 ^ 16 + (pendQuorum s e).1 * 2 ^ 24))
    if mangleHas s tag then mangleSet s tag else
    match pendSame s own kind cls b with
    | some (n, e) => reply n e s
    | none =>
      if init && !(descCreds (d.drop 64)).all (fun k => credValid (k.kind, k.pub)) then endAfter s tag stBadPoint
      else
        match pendSpot s with
        | none => s
        | some n =>
          if !bobbinFor s 5 || !pressFree s then s else
          let (ch, s2) := draw s 16
          let secs := if par c 56 4 ≠ 0 then par c 56 4
            else if init then descValidity (d.drop 64) else ((ownerGet s own).map (·.validity)).getD 900
          let expiry := c.accepted.toNat + 2 ^ 32 * secs
          let ind := bytesAt (Config.sha384 (d.drop 64)) 0 48
          let e : PendEntry := {
            owner := own, cls := cls, kind := kind, body := b, digest := bodyDigest b, inDigest := ind
            msg := approvalMsg s cls own (bodyOp b) (bytesAt b 8 8) c.accepted expiry ch (bodyDigest b) ind
            stamp := c.accepted, expiry := expiry, epoch := epochId s, domain := approvalDomain s
            copy := if init then some (d.drop 64) else none }
          reply n e (pendPut s2 n (some e)))

/-- An officer's signature verifies with every scheme of its credential (R129). -/
def officerSigned (k : Nat × List Byte) (msg sig : List Byte) : Bool :=
  let ec := sigVerifies (sigScheme 0x11 1 2 false 0) (bytesAt k.2 0 97) msg [] (bytesAt sig 0 96)
  let ml (off : Nat) (at_ : Nat) : Bool :=
    sigVerifies (sigScheme 0x38 5 0 false 0) (bytesAt k.2 off 1952) msg (ascii "ILASKUST-NB-APPROVAL") (bytesAt sig at_ 3309)
  match k.1 with
  | 1 => ec
  | 2 => ml 0 0
  | _ => ec && ml 97 96

/-- `APPROVAL.SUBMIT` (R138): an approval counts once, also on a follower that holds the primary's journalled entry already. Mangle's check of the signature first (R180). An entry or an officer that has gone since the start leaves it without effect, and it ends as it would have before its
start (assumption 57). -/
def execApprovalSubmit (tag : Nat) (io : HostIO) (s : State) : Host.Outcome State Fault Refusal :=
  runIn s tag 0x0308 io (fun c sig s =>
    let n := par c 52 2
    let i := par c 54 1
    if mangleHas s tag then mangleSet s tag else
    match tblFind n s.keys.pend with
    | none => endBefore s tag 0x0301
    | some e =>
      match pendOfficer s e i with
      | none => endBefore s tag stDenied
      | some k =>
        if officerSigned k e.msg sig then
          let e1 := { e with mask := if bitN e.mask i then e.mask else e.mask + 2 ^ i }
          let s1 := tallyPut (pendPut s n (some e1)) agCp 0x0380 [(1, e.owner), (0x0C, n), (0x0B, i)]
          let s2 := match ownerGet s1 e.owner with
            | none => s1
            | some r => match tblFind i r.officers with
              | none => s1
              | some o =>
                let o1 := { o with given := if bitN e.mask i then o.given else o.given + 1 }
                ownerPut s1 e.owner (some { r with officers := tblPut i o1 r.officers })
          endOk s2 tag 0 (BitVec.ofNat 64 (n + pendCount s2 e1 * 2 ^ 16 + (pendQuorum s2 e1).1 * 2 ^ 24 +
            (if pendEnough s2 e1 then 2 else 1) * 2 ^ 32))
        else tallyPut (endAfter s tag 0x0302) agCp 0x0302 [(1, e.owner), (0x0C, n), (0x0B, i)])

/-- An entry of `APPROVAL.LIST` (Table 5-9). -/
def listEntry (s : State) (n : Nat) (e : PendEntry) : List Byte :=
  leBytes 2 n ++ leBytes 1 e.cls ++ leBytes 1 (pendState s e) ++ leBytes 2 (bodyOp e.body) ++ leBytes 1 (pendCount s e) ++
  leBytes 1 (pendQuorum s e).1 ++ bytesAt e.body 8 8 ++ leBytes 8 e.stamp.toNat ++ leBytes 8 e.expiry

/-- `APPROVAL.LIST`: under a lock only entries with a target that R143 permits. -/
def execApprovalList (tag : Nat) (io : HostIO) (s : State) : Host.Outcome State Fault Refusal :=
  runCmd s tag 0x0309 (fun c s =>
    let mine := s.keys.pend.filter (fun e => decide (par c 52 2 ≤ e.1) && e.2.owner == cOwner s c &&
      (!s.scorch.locked || lockTarget e.2.owner e.2.kind e.2.body))
    let n := cOutCap c / 32
    endOut s tag io ((mine.take n).flatMap (fun e => listEntry s e.1 e.2)) stOk
      (BitVec.ofNat 64 (((mine.drop n).map (·.1)).headD 0xFFFF)))

/-- `APPROVAL.CANCEL` (R141). -/
def execApprovalCancel (tag : Nat) (s : State) : Host.Outcome State Fault Refusal :=
  runCmd s tag 0x030A (fun c s => endOk (pendPut s (par c 52 2) none) tag)

/-- `APPROVAL_EXPIRY`: an expired entry is removed and recorded (R137); a reserved one stands (R141). -/
def execApprovalExpiry (entry : Nat) (s : State) : Host.Outcome State Fault Refusal :=
  .next (match tblFind entry s.keys.pend with
    | none => s
    | some e =>
      if pendInTime s e (nowStamp s) || e.reserved.isSome then s
      else pendExpire s entry e)

/-- Entries whose domain differs from the device's are removed when a group forms or ends (R142). -/
def pendDomain (s : State) : State :=
  { s with keys := { s.keys with pend := s.keys.pend.filter (fun e => e.2.domain == approvalDomain s) } }

end Sys2Proof.Machine
end

