-- ==== Sys2Proof/Machine/Press.lean ====
section
/-! DEFINITION. Press: the catalogue's entries of the 0x05xx commands, pipelines, streaming contexts and the jobs of the
Needle ports (spec 06; spec 13, R381 to R384). -/

namespace Sys2Proof.Machine

/-! ### Issue (R158, R341) -/

/-- A job as the sharing among slices sees it (R341). -/
def pressItem (j : PressJob) : Share := { order := j.order, slice := j.slice, size := j.size }

/-- Each visit adds weight times 4 KiB of job input (R341). -/
def pressQuantum (s : State) (n : Nat) : Nat := (sliceGet s n).pressW * 4096

/-- The Press deficits that a choice leaves. -/
def pressCharge (s : State) (ds : List (Nat × Nat)) : State :=
  ds.foldl (fun s d => if d.1 = 0xFFFF then s else slicePut s d.1 { sliceGet s d.1 with pressDef := d.2 }) s

/-- `PRESS_JOB_ISSUE`: the pipeline issues its next job by group, oldest first within a group (R158). The jobs of frames and of internal hashing run
whole inside the rows that ask for them once a list has a place (assumption 26). -/
def execPressJobIssue (pipe : Nat) (s : State) : Host.Outcome State Fault Refusal :=
  let js := (pipeJobs s pipe).filter (fun j => j.ready && !j.running)
  let go (j : PressJob) (s : State) : State := pipesMap s (fun x => if x.order = j.order then { x with running := true } else x)
  .next (if pwrMode s ≠ 0 ∨ s.pwr.vault then s
    else match [1, 2, 3, 4].findSome? (fun g => js.find? (fun j => j.group == g)) with
    | some j => go j s
    | none =>
      let last := tblGet 0 s.press.last pipe
      let q := pressQuantum s
      let d (n : Nat) : Nat := (sliceGet s n).pressDef
      let items := js.map pressItem
      match shareNext q d last items with
      | none => s
      | some (i, n) => match js.find? (fun j => j.order == i.order) with
        | none => s
        | some j => go j (pressCharge { s with press := { s.press with last := tblSet 0 pipe j.slice s.press.last } }
            (shareCharge q d i n last items)))

/-! ### Contexts (R165 to R169) -/

/-- The identifier of a context. -/
def ctxId (i : Nat) (x : SymCtx) : Nat := 2 ^ 20 * i + 2 ^ 10 * x.slice + x.gen

/-- The context that a command names, with its index: one of its own slice (R165). -/
def ctxFind (s : State) (c : Cmd) : Option (Nat × SymCtx) :=
  let id := par c 52 4
  match tblFind (id / 2 ^ 20) s.press.ctxs with
  | none => none
  | some x => if ctxId (id / 2 ^ 20) x = id ∧ cSlice c = some x.slice then some (id / 2 ^ 20, x) else none

/-- The context that a command names, unless its `SYM.CTX_CLOSE` has begun (R167). -/
def ctxOf (s : State) (c : Cmd) : Option (Nat × SymCtx) := (ctxFind s c).filter (fun e => !e.2.closing)

/-- A context set. -/
def ctxPut (s : State) (i : Nat) (x : SymCtx) : State := { s with press := { s.press with ctxs := tblPut i x s.press.ctxs } }

/-- A context ends. -/
def ctxEnd (s : State) (i : Nat) : State := { s with press := { s.press with ctxs := tblDel i s.press.ctxs } }

/-- The contexts that pass a test end. -/
def ctxEndAll (s : State) (p : SymCtx → Bool) : State :=
  { s with press := { s.press with ctxs := s.press.ctxs.filter (fun e => !p e.2) } }

/-- Open contexts of a slice. -/
def ctxCount (s : State) (n : Nat) : Nat := tblCount (fun x => x.slice == n) s.press.ctxs

/-- `SYM.CTX_OPEN` commands that have started, which will take a context. -/
def ctxOpening (s : State) (p : Nat → Bool) : Nat :=
  tblCount (fun c => cOp c == 0x0506 && c.stage == .started && (cSlice c).any p) s.tortin.tracker

/-- The device or the slice holds as many contexts as it may, with those that are being opened (R165). -/
def ctxFull (s : State) (n : Nat) : Bool :=
  decide (4096 ≤ s.press.ctxs.length + ctxOpening s (fun _ => true) ∨ 256 ≤ ctxCount s n + ctxOpening s (· == n))

/-- A command of the tracker names a context. -/
def namesCtx (c : Cmd) (id : Nat) : Bool := (cOp c == 0x0507 || cOp c == 0x0508 || cOp c == 0x0509) && par c 52 4 == id

/-- An earlier command of the same context has not completed (R167). -/
def ctxBusy (s : State) (c : Cmd) : Bool :=
  s.tortin.tracker.any (fun e => namesCtx e.2 (par c 52 4) && cSlice e.2 == cSlice c && decide (e.2.order < c.order) &&
    e.2.stage != .held)

/-! ### Parameters (Tables 6-5 and 6-6) -/

/-- The parameters of a one-shot command or a `SYM.CTX_OPEN`. -/
def symPar (c : Cmd) : SymPar :=
  { mode := par c 52 1, plen := par c 53 1, tlen := par c 54 1, opts := par c 55 1, aadLen := par c 56 4, value := par c 60 4
    rev := cOp c == 0x0502 || cOp c == 0x0504 || (cOp c == 0x0506 && bitN (par c 55 1) 3) }

/-- The parameters of a command: those of its context, if it feeds one. -/
def symParOf (s : State) (c : Cmd) : SymPar :=
  if cOp c = 0x0507 ∨ cOp c = 0x0508 then ((ctxFind s c).map (·.2.par)).getD { mode := 0 } else symPar c

/-- The mode fits the command (R147, R166). -/
def symKind (op : Nat) (p : SymPar) : Bool :=
  match op with
  | 0x0501 | 0x0502 => isCipher p.mode
  | 0x0503 | 0x0504 => isMac p.mode
  | 0x0505 => isHash p.mode
  | _ => (isCipher p.mode && p.mode != mXts) || isMac p.mode || isHash p.mode

/-- Fields that the mode does not take are zero (R174, R5). -/
def symZero (op : Nat) (p : SymPar) : Bool :=
  let gen := (p.mode == 1 || p.mode == 2 || p.mode == 4 || p.mode == 6) && !p.rev && (op == 0x0501 || op == 0x0506)
  let width := bitsN p.opts 2 1
  decide (p.opts < 32) && (!bitN p.opts 0 || p.mode == mCbc) && (width == 0 || p.mode == mCtr) &&
  (!bitN p.opts 3 || op == 0x0506) && (!bitN p.opts 4 || gen) && (decide (p.aadLen = 0) || hasAad p.mode) &&
  (decide (p.value = 0) || p.mode == mXts || p.mode == 0x25 || p.mode == 0x26 || (p.mode == mCcm && op == 0x0506))

/-- Bytes of tag in the input of a command. -/
def symTagIn (op : Nat) (p : SymPar) : Nat :=
  if op = 0x0502 ∨ op = 0x0504 ∨ (op = 0x0508 ∧ p.rev) then p.tlen else 0

/-- Bytes of the input before the text. -/
def symHead (p : SymPar) : Nat := (if pGenIv p then 0 else p.plen) + p.aadLen

/-- Bytes of text of a one-shot command or an open. -/
def symText (op n : Nat) (p : SymPar) : Nat := n - symHead p - symTagIn op p

/-- The lengths of a one-shot operation or an open fit the mode (R148, R149, R176, Table 6-1). An open takes no text, so input that is left over behind
its prefix and AAD is `BAD_LENGTH` (DESIGN CHOICE: the spec does not say, assumption 57). -/
def symLens (op n : Nat) (p : SymPar) : Bool :=
  let t := symText op n p
  let ccmMax := 2 ^ (8 * (15 - p.plen))
  prefixOk p.mode p.plen && tagLenOk p.mode p.tlen && decide (symHead p + symTagIn op p ≤ n) &&
  (p.mode != mXts || decide (16 ≤ p.value ∧ p.value ≤ 16777216)) &&
  (!(p.mode == 0x25 || p.mode == 0x26) || decide (1 ≤ p.value ∧ p.value ≤ 65536)) &&
  (if op = 0x0506 then decide (t = 0) && (p.mode != mCcm || decide (p.value < ccmMax))
   else match p.mode with
     | 0x02 => decide (t < ccmMax)
     | 0x04 => (pPad p && !p.rev) || decide (t ≠ 0 ∧ t % 16 = 0)
     | 0x05 => decide (t % p.value = 0)
     | 0x11 => decide (t = 0)
     | _ => true)

/-- The largest output of a command (Table 6-6). -/
def symOut (s : State) (c : Cmd) (p : SymPar) : Nat :=
  let n := cInLen c
  let pre := if pGenIv p then p.plen else 0
  let padded (t : Nat) : Nat := if pPad p && !p.rev then 16 * (t / 16 + 1) else t
  match cOp c with
  | 0x0501 => pre + padded (symText 0x0501 n p) + (if isAead p.mode then p.tlen else 0)
  | 0x0502 => symText 0x0502 n p
  | 0x0503 => p.tlen
  | 0x0505 => digestLen p.mode p.value
  | 0x0506 => pre
  | 0x0507 => if isCipher p.mode then n else 0
  | 0x0508 =>
    let t := n - symTagIn 0x0508 p
    if isHash p.mode then digestLen p.mode p.value
    else if isMac p.mode then (if p.rev then 0 else p.tlen)
    else if p.rev then t + (if pPad p && (ctxOf s c).any (fun e => !e.2.text.isEmpty) then 16 else 0)
    else padded t + (if isAead p.mode then p.tlen else 0)
  | _ => 0

/-- Usage flag that an operation needs (R147). -/
def symUsage (p : SymPar) : Nat := if isMac p.mode then kMac else if p.rev then kDec else kEnc

/-- The text of a context would pass its mode's limit, or a finish does not fit it (R168, R149). -/
def ctxOver (c : Cmd) (x : SymCtx) : Bool :=
  let p := x.par
  let fin := cOp c == 0x0508
  let total := x.text.length + (cInLen c - symTagIn (cOp c) p)
  match p.mode with
  | 0x01 => decide (2 ^ 36 - 32 < total)
  | 0x06 => decide (2 ^ 38 - 64 < total)
  | 0x11 => decide (2 ^ 61 - 1 < x.aad.length + (cInLen c - symTagIn (cOp c) p))
  | 0x02 => decide (p.value < total) || (fin && decide (total ≠ p.value))
  | 0x03 => ctrWraps (pWidth p) x.prefix_ total
  | 0x04 => fin && !(pPad p && !p.rev) && decide (total = 0 ∨ total % 16 ≠ 0)
  | 0x12 => if x.ktype = 0x03 then decide (2 ^ 61 ≤ total + 64) else decide (2 ^ 125 ≤ total + 128)
  | 0x20 => decide (2 ^ 61 ≤ total)
  | 0x21 | 0x22 => decide (2 ^ 125 ≤ total)
  | _ => false

/-- The catalogue's entries of the 0x05xx commands (R147, R148, R165 to R168, R174, R176). -/
def specSym (s : State) (c : Cmd) : Option CmdSpec :=
  let op := cOp c
  let a := cKeyA c
  let room := (pipeFor s).isSome
  if op = 0x0507 ∨ op = 0x0508 then
    let p := symParOf s c
    let n := cInLen c
    let unit := if p.mode = mChacha then 64 else if isCipher p.mode then 16 else 1
    some {
      zero := noKeys c && parZero c [(56, 8)], inMax := 2 ^ 32 - 1
      lens := if op = 0x0507 then decide (n % unit = 0) else decide (symTagIn op p ≤ n)
      outMax := if (ctxOf s c).isNone then 0 else symOut s c p
      issuer := !cMbx c, at7 := if (ctxOf s c).isNone then 0x0503 else stOk
      late := match ctxOf s c with
        | none => 0x0503
        | some (_, x) => if cOutCap c < symOut s c p ∨ ctxOver c x then stBadLength else stOk
      binds := match ctxOf s c with
        | some (_, x) => if x.handle = 0 then [] else [(1, x.handle)]
        | none => []
      free := room && !ctxBusy s c }
  else if op = 0x0509 then
    let first := !s.tortin.tracker.any (fun e => cOp e.2 == 0x0509 && par e.2 52 4 == par c 52 4 && cSlice e.2 == cSlice c &&
      decide (e.2.order < c.order) && e.2.stage != .held && e.2.stage != .ended)
    some { free := first, zero := noKeys c && parZero c [(56, 8)], issuer := !cMbx c, at7 := if (ctxOf s c).isNone then 0x0503 else stOk
           late := if (ctxOf s c).isNone then 0x0503 else stOk }
  else if 0x0501 ≤ op ∧ op ≤ 0x0506 then
    let p := symPar c
    let keyed := !(modeTypes p.mode).isEmpty
    let fits (o : KeyObj) : Nat := if tagFits p.mode o.ktype p.tlen then stOk else stBadLength
    let typeA := match keyOf s a with
      | some o => [o.ktype]
      | none => []
    some {
      zero := symZero op p && (keyed || decide (a = 0)) && (p.mode == mXts || decide (cKeyB c = 0))
      form := symKind op p && decide (bitsN p.opts 2 1 ≠ 3) && !(p.mode == mXts && a == cKeyB c)
      inMax := 2 ^ 32 - 1, lens := symLens op (cInLen c) p, outMax := symOut s c p, needsKeys := keyed
      at7 := if !keyed then stOk
        else firstBad [keyCheck s c a (modeTypes p.mode) (symUsage p) true fits,
          if p.mode = mXts then keyCheck s c (cKeyB c) typeA (symUsage p) true (fun _ => stOk) else stOk]
      uses := if !keyed then [] else if p.mode = mXts then [a, cKeyB c] else [a]
      binds := if !keyed then [] else if p.mode = mXts then [(1, a), (1, cKeyB c)] else [(1, a)]
      usage := symUsage p
      quorum := if keyed then quorumUse s c (if p.mode = mXts then [a, cKeyB c] else [a]) else none
      entropy := pGenIv p
      late := if op = 0x0506 ∧ ctxFull s ((cSlice c).getD 0xFFFF) then 0x0504 else stOk
      early := if op = 0x0506 ∧ (4096 ≤ s.press.ctxs.length ∨ 256 ≤ ctxCount s ((cSlice c).getD 0xFFFF)) then 0x0504
        else if p.mode == mCtr && (op == 0x0501 || op == 0x0502) &&
          ctrWraps (pWidth p) (heldInput c) (symText op (cInLen c) p) then 0x0505 else stOk
      free := room, preread := if p.mode = mCtr then 16 else 0 }
  else none

/-! ### Commands: the job enters a list at execution start, waits for its input, runs, and ends (R157, R176) -/

/-- Execution start of a command that is a Press job: its place in a list, and the prefix drawn under `GEN_IV` (R174). -/
def pressStart (s0 : State) (tag : Nat) (c : Cmd) : State :=
  let s := touchFast s0
  let p := symPar c
  let gen := (cOp c == 0x0501 || cOp c == 0x0506) && pGenIv p
  let (pre, s1) := if gen then draw s p.plen else ([], s)
  let s2 := match ctxFind s1 c with
    | some (_, x) => if cOp c = 0x0507 ∨ cOp c = 0x0508 then cacheUse s1 x.handle else s1
    | none => s1
  pressEnter (setWork s2 tag { bytes := pre })
    { src := .cmd tag 0, order := 0, group := if cAlarm c then 1 else 5, slice := (cSlice c).getD 0xFFFF, size := cInLen c }

/-- A command's input arrives: its job may be issued. A failed read ends the command and frees its place (R80); it ends the
context of a `SYM.CTX_FINISH` (R169). -/
def symInput (s : State) (tag op : Nat) (io : HostIO) : Host.Outcome State Fault Refusal :=
  match runIn s tag op io (fun c bs s =>
    if c.work.step ≠ 0 then s
    else pipesMap (setWork s tag { step := 1, nums := [b2n io.outOk], bytes := c.work.bytes ++ bs })
      (fun j => if j.src = .cmd tag 0 then { j with ready := true } else j)) with
  | .next t => match cmdAt s tag, cmdAt t tag with
    | some c, some d =>
      if c.stage = .started ∧ cOp c = op ∧ d.stage = .ended then
        let t1 := pressLeave t (.cmd tag 0)
        .next (if op = 0x0508 then match ctxFind s c with
          | some (i, _) => ctxEnd t1 i
          | none => t1 else t1)
      else .next t
    | _, _ => .next t
  | o => o

/-- Material and type of a key as the general cache holds it (R160). -/
def keyBits (s : State) (h : Nat) : List Byte × Nat :=
  match cacheEnt s 1 h with
  | some e => (e.material, e.ktype)
  | none => ([], 0)

/-- The generation that a context index takes next: 1 to 1,023 (R165). -/
def ctxGen (s : State) (i : Nat) : Nat := let g := tblGet 0 s.press.gens i; if 1023 ≤ g then 1 else g + 1

/-- A `SYM.CTX_OPEN` opens its context, whose place its start has reserved (R165), at the lowest free index (DESIGN CHOICE: the spec names no
order, assumption 57). -/
def ctxOpen (s : State) (tag : Nat) (c : Cmd) (p : SymPar) (io : HostIO) (data : List Byte) : State :=
  match tblFree s.press.ctxs 0 4096 with
  | none => endFault s tag
  | some i =>
    let x : SymCtx := {
      gen := ctxGen s i, slice := (cSlice c).getD 0xFFFF, handle := cKeyA c, par := p, ktype := (keyBits s (cKeyA c)).2
      prefix_ := bytesAt data 0 p.plen, aad := bytesAt data p.plen p.aadLen }
    let s1 := ctxPut { s with press := { s.press with gens := tblPut i x.gen s.press.gens } } i x
    endOut s1 tag io (if pGenIv p then x.prefix_ else []) stOk (extra2 (ctxId i x) 0)

/-- A follower opens the context of a `SYM.CTX_OPEN` with `GEN_IV`, whose IV travels in the journal (R169). -/
def ctxAdopt (s : State) (c : Cmd) (id : Nat) (iv : List Byte) : State :=
  let p := symPar c
  let i := id / 2 ^ 20
  let x : SymCtx := {
    gen := id % 2 ^ 10, slice := id / 2 ^ 10 % 2 ^ 10, handle := cKeyA c, par := p, ktype := typeOf s (cKeyA c)
    prefix_ := iv, aad := bytesAt (heldInput c) 0 p.aadLen }
  ctxPut { s with press := { s.press with gens := tblPut i x.gen s.press.gens } } i x

/-- A job's output is staged and the command ends; a failed tag taints every staging buffer that held some of it (R153, R241). -/
def symEnd (s : State) (tag : Nat) (c : Cmd) (io : HostIO) (out : List Byte) (st : Nat) : State :=
  let s1 := if st = stUntrusted then
      match c.stageOut with
      | some b => chainTaint s b ((out.length + 255) / 256)
      | none => s
    else s
  endOut s1 tag io out st

/-- Text fed to a context, and what it gives (R168): a CBC decryption with `PAD` holds back its last 16 B. -/
def ctxFeed (s : State) (tag i : Nat) (x : SymCtx) (fin : Bool) (io : HostIO) (data : List Byte) : State :=
  let p := x.par
  let tin := if fin then symTagIn 0x0508 p else 0
  let part := bytesAt data 0 (data.length - tin)
  let tag_ := data.drop (data.length - tin)
  let y := if p.mode = mGmac then { x with aad := x.aad ++ part } else { x with text := x.text ++ part }
  let (k, kt) := keyBits s x.handle
  if fin then
    let (out, st) := symRun p kt k [] y.prefix_ y.aad y.text tag_
    symEnd (ctxEnd s i) tag ((cmdAt s tag).getD { origin := .mailbox 0, body := [] }) io
      (if isCipher p.mode then out.drop x.done else out) st
  else
    let whole := if isCipher p.mode then cipherText p k [] y.prefix_ y.text else []
    let hold := if pPad p && p.rev then 16 else 0
    let out := (bytesAt whole 0 (whole.length - hold)).drop x.done
    endOut (ctxPut s i { y with done := x.done + out.length }) tag io out

/-- The job of a command ends: its output and its status (R153, R159). -/
def symDone (s : State) (tag : Nat) : State :=
  match cmdAt s tag with
  | none => s
  | some c =>
    let io : HostIO := { outOk := c.work.nums.headD 1 == 1 }
    let data := c.work.bytes
    let p := symPar c
    match cOp c with
    | 0x0506 => ctxOpen s tag c p io data
    | 0x0507 | 0x0508 => match ctxFind s c with
      | none => endFault s tag
      | some (i, x) => ctxFeed s tag i x (cOp c == 0x0508) io data
    | _ =>
      let (ka, kt) := keyBits s (cKeyA c)
      let (kb, _) := keyBits s (cKeyB c)
      let tin := symTagIn (cOp c) p
      let body := data.drop (p.plen + p.aadLen)
      let (out, st) := symRun p kt ka kb (bytesAt data 0 p.plen) (bytesAt data p.plen p.aadLen)
        (bytesAt body 0 (body.length - tin)) (body.drop (body.length - tin))
      symEnd s tag c io ((if pGenIv p then bytesAt data 0 p.plen else []) ++ out) st

/-- `SYM_ENCRYPT`: its input arrives. -/
def execSymEncrypt (tag : Nat) (io : HostIO) (s : State) : Host.Outcome State Fault Refusal := symInput s tag 0x0501 io

/-- `SYM_DECRYPT`: its input arrives. -/
def execSymDecrypt (tag : Nat) (io : HostIO) (s : State) : Host.Outcome State Fault Refusal := symInput s tag 0x0502 io

/-- `SYM_MAC`: its input arrives. -/
def execSymMac (tag : Nat) (io : HostIO) (s : State) : Host.Outcome State Fault Refusal := symInput s tag 0x0503 io

/-- `SYM_MAC_VERIFY`: its input arrives. -/
def execSymMacVerify (tag : Nat) (io : HostIO) (s : State) : Host.Outcome State Fault Refusal := symInput s tag 0x0504 io

/-- `SYM_HASH`: its input arrives. -/
def execSymHash (tag : Nat) (io : HostIO) (s : State) : Host.Outcome State Fault Refusal := symInput s tag 0x0505 io

/-- `SYM_CTX_OPEN`: its input arrives. -/
def execSymCtxOpen (tag : Nat) (io : HostIO) (s : State) : Host.Outcome State Fault Refusal := symInput s tag 0x0506 io

/-- `SYM_CTX_UPDATE`: its input arrives. -/
def execSymCtxUpdate (tag : Nat) (io : HostIO) (s : State) : Host.Outcome State Fault Refusal := symInput s tag 0x0507 io

/-- `SYM_CTX_FINISH`: its input arrives. -/
def execSymCtxFinish (tag : Nat) (io : HostIO) (s : State) : Host.Outcome State Fault Refusal := symInput s tag 0x0508 io

/-- `SYM_CTX_CLOSE` (R167): commands of the context that have not started end with `ABORTED`; it waits for the started one,
and then the context ends, unless a `SYM.CTX_FINISH` has ended it. -/
def execSymCtxClose (tag : Nat) (s : State) : Host.Outcome State Fault Refusal :=
  runCmd s tag 0x0509 (fun c s =>
    let id := par c 52 4
    let i := id / 2 ^ 20
    match tblFind i s.press.ctxs with
    | none => endOk s tag
    | some x =>
      if ctxId i x ≠ id then endOk s tag
      else
        let others := (s.tortin.tracker.filter (fun e => e.1 != tag && namesCtx e.2 id && cSlice e.2 == cSlice c)).map (·.1)
        let wait (t : Nat) : Bool := (cmdAt s t).any (fun d => d.stage == .waiting || d.stage == .preread)
        let run (t : Nat) : Bool := (cmdAt s t).any (fun d => d.stage == .started)
        let s1 := (others.filter wait).foldl (fun s t => endBefore s t stAborted) (ctxPut s i { x with closing := true })
        if others.any run then s1 else endOk (ctxEnd s1 i) tag)

/-! ### Jobs of the Needle ports (R170, R381, R382, R384) -/

/-- Offset in a core's work memory of an address of the core, local or global form (Table 13-2). -/
def workOff (n a : Nat) : Option Nat :=
  if 0x30080000 ≤ a ∧ a < 0x300C0000 then some (a % 0x40000)
  else if 0x20080000 + 0x100000 * n ≤ a ∧ a < 0x200C0000 + 0x100000 * n then some (a % 0x40000)
  else none

/-- The first buffer that a chain address names. -/
def chainAddr (a : Nat) : Nat := bufOffset a / 256

/-- A region of a port job lies wholly in work memory, or in a chain that the core holds (R384). -/
def regionOk (s : State) (n a len : Nat) (chain : Bool) : Bool :=
  if chain then
    let b := chainAddr a
    decide (0x40000000 ≤ a ∧ a < 0x44000000 ∧ a % 256 = 0) && isChain s b && (bufGet s b).owner == tagCore n &&
      decide (len ≤ 256 * (bufGet s b).count)
  else (workOff n a).any (fun o => decide (o + len ≤ 0x40000))

/-- Bytes of a region. -/
def regionRead (s : State) (n a len : Nat) (chain : Bool) : List Byte :=
  if chain then chainRead s (chainAddr a) 0 len else memRead (coreGet s n).work ((workOff n a).getD 0) len

/-- Bytes written to a region. -/
def regionWrite (s : State) (n a : Nat) (chain : Bool) (bs : List Byte) : State :=
  if chain then chainWrite s (chainAddr a) 0 bs
  else
    let k := coreGet s n
    corePut s n { k with work := memWrite k.work ((workOff n a).getD 0) bs }

/-- Parameters of a Press descriptor (Table 13-14). -/
def descPar (d : List Byte) : SymPar :=
  { mode := byteAt d 0, plen := byteAt d 2, tlen := byteAt d 3, opts := byteAt d 4, aadLen := leAt d 16 4, value := leAt d 24 4
    rev := bitN (byteAt d 4) 3 }

/-- The command that a descriptor's operation resembles, for the tables of lengths. -/
def descOp (p : SymPar) : Nat :=
  if isMac p.mode then (if p.rev then 0x0504 else 0x0503)
  else if isHash p.mode then 0x0505
  else if p.rev then 0x0502 else 0x0501

/-- Bytes that a descriptor's operation may write. -/
def descOut (d : List Byte) : Nat :=
  let p := descPar d
  let t := symText (descOp p) (leAt d 12 4) p
  match descOp p with
  | 0x0501 => (if pPad p then 16 * (t / 16 + 1) else t) + (if isAead p.mode then p.tlen else 0)
  | 0x0502 => t
  | 0x0503 => p.tlen
  | 0x0505 => digestLen p.mode p.value
  | _ => 0

/-- The handle that a key index names in a core's key list. -/
def coreKey (s : State) (n i : Nat) : Nat := (coreGet s n).keys.getD i 0

/-- Some use of a counted key is left beyond those that waiting commands and running port jobs hold, in its lease or to be leased (R113, R384). -/
def portUse (s : State) (h : Nat) : Bool :=
  match keyOf s h with
  | none => false
  | some o => useFind s h o 1 != .none

/-- What stands against one key of a Press job: 4 for a key that the cache does not hold, as for a missing flag, and 7 for a type that does not fit, as
for a length (DESIGN CHOICE: Table 6-3 names neither case, assumption 57). -/
def pressPortKey (s : State) (h : Nat) (p : SymPar) : Nat :=
  match keyOf s h, cacheEnt s 1 h with
  | some o, some e =>
    if !(modeTypes p.mode).contains o.ktype || !tagFits p.mode o.ktype p.tlen then 7
    else if !subMask (symUsage p) e.flags then 4
    else if s.scorch.locked && !bitN e.flags kContinuity then 5
    else if !portUse s h then 6
    else 0
  | _, _ => 4

/-- The handles of a Press job: the key at the descriptor's index, and for XTS the tweak key at the next index (DESIGN CHOICE: a descriptor names one
index, assumption 57). -/
def pressHandles (s : State) (n : Nat) (d : List Byte) : List Nat :=
  let i := byteAt d 1
  if (modeTypes (byteAt d 0)).isEmpty then []
  else if byteAt d 0 = mXts then [coreKey s n i, coreKey s n (i + 1)] else [coreKey s n i]

/-- The port status that stops a Press job before it runs; 0 when it runs (Table 6-3, R163, R382). -/
def pressPortCheck (s : State) (n : Nat) (d : List Byte) : Nat :=
  let p := descPar d
  let op := descOp p
  let i := byteAt d 1
  let len := leAt d 12 4
  let keyed := !(modeTypes p.mode).isEmpty
  let hs := pressHandles s n d
  let fits := keyed || isHash p.mode
  let zeroOk := leAt d 6 2 == 0 && leAt d 28 4 == 0 && byteAt d 5 < 4 && symZero 0x0506 { p with opts := p.opts } &&
    !pGenIv p && bitsN p.opts 2 1 != 3 && !(p.mode == mCcm && p.value != 0)
  if !fits || !zeroOk || !symLens op len p || decide (65536 < symText op len p ∨ 65536 < descOut d) ||
      (if keyed then decide (32 ≤ i) else i != 0xFF) then 7
  else if !keyed then 0
  else
    let r := ((hs.map (fun h => pressPortKey s h p)).find? (· != 0)).getD 0
    if r ≠ 0 then r
    else if p.mode = mXts ∧ (hs.headD 0 = hs.getD 1 0 ∨ typeOf s (hs.headD 0) ≠ typeOf s (hs.getD 1 0)) then 7
    else if p.mode = mCtr ∧ ctrWraps (pWidth p) (regionRead s n (leAt d 8 4) 16 (bitN (byteAt d 5) 0)) (symText op len p) then 9
    else 0

/-- A status word (R381). -/
def statusWord (status attempts out : Nat) : BitVec 64 := BitVec.ofNat 64 (status + attempts * 2 ^ 16 + out * 2 ^ 32)

/-- A job of a core's Press port takes its status word. -/
def pressPortSet (s : State) (n job : Nat) (w : BitVec 64) : State :=
  let k := coreGet s n
  corePut s n { k with
    press := k.press.map (fun j => if j.id = job then { j with done := some w } else j), pressN := k.pressN + 1 }

/-- The job of a Press port ends: output, taint, use and status (R153, R170, R384). It uses its keys as they stood at its start, whatever has
become of them (R96, R116). -/
def pressPortDone (s : State) (n job : Nat) : State :=
  match (coreGet s n).press.find? (fun j => j.id == job) with
  | none => s
  | some j =>
    let d := j.desc
    let p := descPar d
    let op := descOp p
    let data := regionRead s n (leAt d 8 4) (leAt d 12 4) (bitN (byteAt d 5) 0)
    let (k, kt) := j.mats.headD ([], 0)
    let (kb, _) := j.mats.getD 1 ([], 0)
    let tin := symTagIn op p
    let body := data.drop (p.plen + p.aadLen)
    let (out, st) := symRun p kt k kb (bytesAt data 0 p.plen) (bytesAt data p.plen p.aadLen)
      (bytesAt body 0 (body.length - tin)) (body.drop (body.length - tin))
    let chain := bitN (byteAt d 5) 1
    let s1 := regionWrite s n (leAt d 20 4) chain out
    let s2 := if st = 2 && chain then chainTaint s1 (chainAddr (leAt d 20 4)) ((out.length + 255) / 256) else s1
    let code := match st with | 2 => 1 | 0x0502 => 2 | 0x0501 => 3 | _ => 0
    pressPortSet (j.keys.foldl useTake s2) n job (statusWord code 0 out.length)

/-- The running job that started as number `job` in a pipeline writes its last output and leaves its list. -/
def pressJobDone (s : State) (pipe job : Nat) : State :=
  match (pipeJobs s pipe).find? (fun j => j.order == job && j.running) with
  | none => s
  | some j =>
    let s1 := pressOut s j.order
    match j.src with
    | .cmd tag _ => symDone s1 tag
    | .port n k => pressPortDone s1 n k
    | .mangle o => hashDone s1 o
    | .gone => s1

/-- A Rinse: every job is stopped, with `KEY_ERASED` or ERASED, and every context ends (R164, R169). -/
def pressRinse (s : State) : State :=
  let js := s.press.pipes.flatMap (·.2) ++ s.press.waits
  let s1 := { s with press := { s.press with pipes := [], waits := [], ctxs := [] } }
  js.foldl (fun s j => match j.src with
    | .cmd tag _ => endAfter s tag 0x0506
    | .port n k => pressPortSet s n k (statusWord 8 0 0)
    | _ => s) s1

end Sys2Proof.Machine
end

