-- ==== Sys2Proof/Machine/Mangle.lean ====
section
/-! DEFINITION. Mangle: the catalogue's entries of the 0x06xx commands, its operations, and those of the Needle ports (spec
07; spec 13, R383, R384). -/

namespace Sys2Proof.Machine

/-! ### Keys and schemes (Tables 4-13, 7-6, 7-7) -/

/-- The pair type of a public type, and of itself. -/
def pairType (t : Nat) : Nat := if isPublicType t then t - 0x80 else t

/-- Bytes of the public part of a pair type (Table 4-13). -/
def pubLen (t size : Nat) : Nat := (keyBytes (t + 0x80) size).getD 0

/-- The public key of an object, as Table 4-13 encodes it (R205): held with an EC key, computed for the others. -/
def pubOf (o : KeyObj) : List Byte :=
  if isPublicType o.ktype then o.material
  else
    let n := pubLen o.ktype o.size
    if privLen o.ktype = 0 then bytesAt (Config.publicOf o.ktype o.material) 0 n
    else
      let held := o.material.drop (privLen o.ktype)
      let point := if o.ktype = 0x10 ∨ o.ktype = 0x11 ∨ o.ktype = 0x12 then (4 : Byte) :: held else held
      bytesAt point 0 n

/-- Pair types of a classical scheme (5: ML-DSA). -/
def schemeTypes (cls : Nat) : List Nat :=
  match cls with
  | 1 => [0x10, 0x11, 0x12]
  | 2 => [0x14, 0x16]
  | 3 | 4 => [0x20]
  | 5 => [0x38, 0x39]
  | _ => []

/-- Bytes of a signature by a pair type and a modulus length in bits (Table 7-7). -/
def pkSigLen (t size : Nat) : Nat :=
  match t with
  | 0x10 => 64
  | 0x11 => 96
  | 0x12 => 132
  | 0x14 => 64
  | 0x16 => 114
  | 0x20 => size / 8
  | 0x38 => 3309
  | 0x39 => 4627
  | _ => 0

/-- Bytes of a digest (Table 7-6, byte 54). -/
def pkHashLen (h : Nat) : Nat :=
  match h with
  | 1 | 4 => 32
  | 2 => 48
  | 3 | 5 => 64
  | _ => 0

/-- The scheme of a signature: classical and PQ scheme, hash, options, context and salt length. -/
structure PkPar where
  cls  : Nat
  pq   : Nat
  hash : Nat
  opts : Nat
  ctx  : Nat := 0
  salt : Nat := 0
  deriving DecidableEq, Repr

def pkPre (p : PkPar) : Bool := bitN p.opts 0
def pkDet (p : PkPar) : Bool := bitN p.opts 1
def pkHybrid (p : PkPar) : Bool := decide (p.cls ≠ 0 ∧ p.pq ≠ 0)

/-- The scheme that key A serves: the classical one, or ML-DSA alone. -/
def pkClsA (p : PkPar) : Nat := if p.cls = 0 then 5 else p.cls

/-- The bits and fields of a scheme that must be zero are zero: the reserved options, and each field that the scheme does not use. -/
def pkZero (p : PkPar) : Bool :=
  decide (p.opts < 4) && (p.cls == 1 || p.cls == 3 || p.cls == 4 || decide (p.hash = 0)) && (decide (p.ctx = 0) || p.pq == 1) &&
  (p.cls == 3 || decide (p.salt = 0))

/-- The scheme fields are well formed (R201, Table 7-6); the salt length is a length parameter and is tested apart (R62). -/
def pkForm (p : PkPar) : Bool :=
  let hashed := p.cls == 1 || p.cls == 3 || p.cls == 4
  decide (p.cls ≤ 4 ∧ p.pq ≤ 1 ∧ p.cls + p.pq ≠ 0 ∧ p.opts < 4) &&
  (if hashed then decide (1 ≤ p.hash ∧ p.hash ≤ 5) else decide (p.hash = 0)) &&
  (!pkPre p || hashed) && (decide (p.ctx = 0) || p.pq == 1) && (p.cls == 3 || decide (p.salt = 0))

/-- The salt of RSA-PSS is no longer than the hash (Table 7-6). -/
def pkSaltOk (p : PkPar) : Bool := p.cls != 3 || decide (p.salt ≤ pkHashLen p.hash)

/-- The message length is in its limits (R202). -/
def pkMsgOk (p : PkPar) (n : Nat) : Bool := decide (n ≤ 16777216) && (!pkPre p || decide (n = pkHashLen p.hash))

/-- Fields of a signing or verifying command. -/
def pkPar (c : Cmd) : PkPar :=
  { cls := par c 52 1, pq := par c 53 1, hash := par c 54 1, opts := par c 55 1
    ctx := if cOp c = 0x0607 then 0 else par c 56 1, salt := par c 57 1 }

/-- Bytes of an inline key: public type and modulus bits; 0 for none. -/
def inlineLen (t bits : Nat) : Nat := if t = 0 then 0 else (keyBytes t bits).getD 0

/-- A public type code fits a scheme, and modulus bits go with an RSA key only. -/
def inlineOk (t bits : Nat) (cls : Nat) : Bool :=
  isPublicType t && (schemeTypes cls).contains (t - 0x80) && (t == 0xA0 || decide (bits = 0))

/-- The modulus bits of an inline RSA key are a length that Table 4-2 has (R191). -/
def inlineLenOk (t bits : Nat) : Bool := t == 0 || (keyBytes t bits).isSome

/-- Signature bytes that belong to key A, by handle or inline. -/
def sigLenOf (s : State) (h inl bits : Nat) : Nat :=
  if inl ≠ 0 then pkSigLen (inl - 0x80) bits
  else match keyOf s h with
    | some o => pkSigLen (pairType o.ktype) o.size
    | none => 0

/-! ### Entries of a batch (R204) -/

/-- An entry of `PK.VERIFY_BATCH`: its header and where its parts lie. -/
structure BatchEnt where
  handle : Nat
  inl    : Nat
  ctx    : Nat
  bits   : Nat
  msg    : Nat
  zero   : Nat
  at_    : Nat
  deriving DecidableEq, Repr

/-- The entry whose header lies at an offset. -/
def batchEnt (bs : List Byte) (off : Nat) : BatchEnt :=
  { handle := leAt bs off 4, inl := byteAt bs (off + 4), ctx := byteAt bs (off + 5), bits := leAt bs (off + 6) 2
    msg := leAt bs (off + 8) 4, zero := leAt bs (off + 12) 4, at_ := off }

/-- Bytes of an entry. -/
def batchLen (s : State) (e : BatchEnt) : Nat :=
  16 + inlineLen e.inl e.bits + sigLenOf s e.handle e.inl e.bits + e.ctx + e.msg

/-- The entries that can be located: from an offset, up to a count, until a handle names no object or a header lies past the
end. Their end follows. -/
def batchWalk (s : State) (bs : List Byte) : Nat → Nat → List BatchEnt × Nat
  | 0, off => ([], off)
  | n + 1, off =>
    if bs.length < off + 16 then ([], off)
    else
      let e := batchEnt bs off
      if e.inl = 0 ∧ (keyOf s e.handle).isNone then ([e], off)
      else
        let (es, z) := batchWalk s bs n (if n = 0 then off + batchLen s e else roundUp (off + batchLen s e) 8)
        (e :: es, z)

/-- A batch entry's header is well formed. -/
def batchForm (p : PkPar) (e : BatchEnt) : Bool :=
  decide (e.zero = 0) && (decide (e.ctx = 0) || p.cls == 0) && pkMsgOk p e.msg &&
  (if e.handle ≠ 0 then decide (e.inl = 0 ∧ e.bits = 0) else inlineOk e.inl e.bits (pkClsA p) && inlineLenOk e.inl e.bits)

/-- The entries of a batch command. -/
def batchOf (s : State) (c : Cmd) : List BatchEnt × Nat := batchWalk s (heldInput c) (par c 56 1) 0

/-! ### What a command checks -/

/-- A handle's object is live, of the owner, and of a fitting type. -/
def keyTyped (s : State) (c : Cmd) (h : Nat) (types : List Nat) : Nat := keyCheck s c h types 0 false (fun _ => stOk)

/-- Check 7 for the keys that a command names by handle: live and fitting, then what depends on the objects, then usage,
expiry and counters (R64, R199). -/
def pkCheck (s : State) (c : Cmd) (hs : List (Nat × List Nat)) (usage : Nat) (own : Nat) : Nat :=
  firstBad (hs.map (fun k => keyTyped s c k.1 k.2) ++ [own] ++
    hs.map (fun k => keyCheck s c k.1 k.2 usage true (fun _ => stOk)))

/-- A list without repeats. -/
def dedup : List Nat → List Nat
  | [] => []
  | x :: t => x :: (dedup t).filter (· != x)

/-- Bytes of the shared secret by pair type (R203). -/
def secretLen (t : Nat) : Nat :=
  match t with
  | 0x11 => 48
  | 0x12 => 66
  | 0x15 => 56
  | _ => 32

/-- Bytes of an ML-KEM ciphertext by pair type. -/
def ctLen (t : Nat) : Nat := if t = 0x31 then 1568 else 1088

/-- The catalogue's entry of a command that creates a secret object. -/
def specSecret (s : State) (c : Cmd) (t : Nat) (x : CmdSpec) (hs : List (Nat × List Nat)) : CmdSpec :=
  { x with
    zero := x.zero && parZero c [(53, 3)] && decide (kcAttrs c < 2 ^ 14), form := x.form && attrsOk 0x40 (kcAttrs c) (kcLimit c), needsKeys := true
    thm := true, uses := hs.map (·.1), binds := hs.map (fun k => (2, k.1))
    quorum := (kcQuorum s c (kcAttrs c)).or (quorumUse s c (hs.map (·.1)))
    place := some (keySlots 0x40 (secretLen t)) }

/-- The catalogue's entries of the 0x06xx commands (R199 to R205). -/
def specPk (s : State) (c : Cmd) : Option CmdSpec :=
  let op := cOp c
  let a := cKeyA c
  let b := cKeyB c
  let p := pkPar c
  let n := cInLen c
  let ringOnly := !cMbx c
  let pubs (ts : List Nat) : List Nat := ts ++ ts.map (· + 0x80)
  match op with
  | 0x0601 =>
    let hs := (a, schemeTypes (pkClsA p)) :: (if pkHybrid p then [(b, schemeTypes 5)] else [])
    let out := (hs.map (fun k => sigLenOf s k.1 0 0)).foldl (· + ·) 0
    some {
      zero := pkZero p && parZero c [(58, 6)] && (pkHybrid p || decide (b = 0)), form := pkForm p
      inMin := p.ctx, inMax := p.ctx + 16777216, lens := pkMsgOk p (n - p.ctx) && pkSaltOk p, outMax := out, out7 := true
      issuer := ringOnly, needsKeys := true
      at7 := pkCheck s c hs kSign (if cOutCap c < out then stBadLength else stOk)
      uses := hs.map (·.1), binds := hs.map (fun k => (2, k.1)), usage := kSign, quorum := quorumUse s c (hs.map (·.1))
      entropy := (p.cls == 1 && !pkDet p) || (p.pq == 1 && !pkDet p) || (p.cls == 3 && decide (p.salt ≠ 0)) }
  | 0x0602 =>
    let ia := par c 60 1
    let ib := par c 61 1
    let bits := par c 58 2
    let hs := (if ia = 0 then [(a, pubs (schemeTypes (pkClsA p)))] else []) ++
      (if pkHybrid p && ib == 0 then [(b, pubs (schemeTypes 5))] else [])
    let head := inlineLen ia bits + (if pkHybrid p then inlineLen ib 0 else 0) + sigLenOf s a ia bits +
      (if pkHybrid p then sigLenOf s b ib 0 else 0) + p.ctx
    let fits := decide (head ≤ n) && pkMsgOk p (n - head)
    let lens := pkSaltOk p && inlineLenOk ia bits
    some {
      zero := pkZero p && parZero c [(62, 2)] && (decide (ia = 0) || decide (a = 0)) && (decide (ib = 0) || decide (b = 0)) &&
        (pkHybrid p || decide (b = 0 ∧ ib = 0)) && (ia == 0xA0 || decide (bits = 0))
      form := pkForm p && (decide (ia = 0) || inlineOk ia bits (pkClsA p)) && (decide (ib = 0) || inlineOk ib 0 5)
      inMax := 2 ^ 32 - 1, lens := lens && (!hs.isEmpty || fits), issuer := ringOnly || hs.isEmpty, needsKeys := !hs.isEmpty
      at7 := pkCheck s c hs kVerify (if fits then stOk else stBadLength)
      uses := hs.map (·.1), binds := hs.map (fun k => (2, k.1)), usage := kVerify
      quorum := quorumUse s c (hs.map (·.1)) }
  | 0x0603 =>
    let ia := par c 52 1
    let t := typeOf s a
    let priv := [0x10, 0x11, 0x12, 0x13, 0x15]
    let hs := (a, priv) :: (if ia = 0 then [(b, [t + 0x80])] else [])
    some (specSecret s c t {
      zero := decide (ia = 0) || decide (b = 0)
      form := decide (ia = 0) || (isPublicType ia && priv.contains (ia - 0x80))
      inMin := inlineLen ia 0, inMax := inlineLen ia 0, issuer := ringOnly, usage := kAgree
      at7 := pkCheck s c hs kAgree (if ia ≠ 0 ∧ ia ≠ t + 0x80 then stBadCommand else stOk) } hs)
  | 0x0604 =>
    let ia := par c 52 1
    let t := pairType (if ia = 0 then typeOf s a else ia)
    let hs := if ia = 0 then [(a, [0xB0, 0xB1])] else []
    some (specSecret s c t {
      zero := decide (b = 0) && (decide (ia = 0) || decide (a = 0)), form := ia == 0 || ia == 0xB0 || ia == 0xB1
      inMin := inlineLen ia 0, inMax := inlineLen ia 0, outMax := ctLen t, out7 := decide (ia = 0), issuer := ringOnly
      entropy := true, usage := kEnc, at7 := pkCheck s c hs kEnc (if cOutCap c < ctLen t then stBadLength else stOk) } hs)
  | 0x0605 =>
    let t := typeOf s a
    some (specSecret s c t {
      zero := decide (b = 0) && parZero c [(52, 1)], inMax := 1568, issuer := ringOnly, usage := kDec
      at7 := pkCheck s c [(a, [0x30, 0x31])] kDec (if n = ctLen t then stOk else stBadLength) } [(a, [0x30, 0x31])])
  | 0x0606 =>
    let ts := [0x10, 0x11, 0x12, 0x13, 0x14, 0x15, 0x16, 0x20, 0x30, 0x31, 0x38, 0x39]
    let out := match keyOf s a with
      | some o => pubLen o.ktype o.size
      | none => 0
    some {
      zero := decide (b = 0) && parZero c [(52, 12)], outMax := out, out7 := true, issuer := ringOnly, needsKeys := true
      at7 := keyCheck s c a ts 0 false (fun _ => if cOutCap c < out then stBadLength else stOk), binds := [(2, a)] }
  | 0x0607 =>
    let k := par c 56 1
    let (es, z) := batchOf s c
    let every := (es.filter (fun e => e.handle != 0)).map (·.handle)
    let hs := dedup every
    let types := pubs (schemeTypes (pkClsA p))
    let whole := es.length == k && es.all (fun e => e.handle == 0 || (keyOf s e.handle).isSome)
    let fits := decide (z ≤ n ∧ n ≤ roundUp z 8)
    some {
      zero := pkZero p && noKeys c && parZero c [(58, 6)], form := pkForm p && !pkHybrid p && decide (1 ≤ k ∧ k ≤ 64)
      formIn := es.all (batchForm p), inMin := 16, inMax := 2 ^ 32 - 1
      lens := pkSaltOk p && (if whole then (!hs.isEmpty || fits) else decide (es.length ≠ 0) && es.any (fun e => e.handle != 0))
      outMax := 16, issuer := ringOnly, needsKeys := !hs.isEmpty
      at7 := if hs.isEmpty then stOk else pkCheck s c (hs.map (fun h => (h, types))) kVerify (if whole && fits then stOk else stBadLength)
      uses := every, binds := hs.map (fun h => (2, h)), usage := kVerify, quorum := quorumUse s c hs, preread := 16 }
  | _ => none

/-! ### Execution start: the operations enter (R179 to R181, R186, R187) -/

/-- Unit times of Table 7-2 in fast clocks of 3 GHz by pair type and modulus length: key pair, sign, verify, agreement or
encapsulation, decapsulation. For ML-DSA signing the mean; for RSA key pairs one candidate; a modulus length between two of
the table counts as the larger. They order the service among slices only (R341). -/
def unitTime (kind t size : Nat) : Nat :=
  let pick (xs : List Nat) : Nat := xs.getD kind 0
  match t with
  | 0x10 => pick [13800, 15900, 26400, 14400]
  | 0x11 => pick [45000, 51000, 84000, 48000]
  | 0x12 => pick [114000, 126000, 210000, 120000]
  | 0x13 => pick [13200, 0, 0, 13200]
  | 0x14 => pick [13200, 15000, 24000]
  | 0x15 => pick [39000, 0, 0, 39000]
  | 0x16 => pick [39000, 45000, 72000]
  | 0x20 =>
    if size ≤ 2048 then pick [900000, 210000, 6000]
    else if size ≤ 3072 then pick [2700000, 570000, 11700]
    else if size ≤ 4096 then pick [6000000, 1500000, 19800]
    else pick [42000000, 9000000, 75600]
  | 0x30 => pick [16500, 0, 0, 19500, 24000]
  | 0x31 => pick [24000, 0, 0, 30000, 36000]
  | 0x38 => pick [27000, 157800, 39900]
  | 0x39 => pick [42000, 168900, 60000]
  | _ => 0

/-- Pair type and modulus length of a command's key A. -/
def sideType (s : State) (h inl bits : Nat) : Nat × Nat :=
  if inl ≠ 0 then (inl - 0x80, bits)
  else match keyOf s h with
    | some o => (pairType o.ktype, o.size)
    | none => (0, 0)

/-- The operations that validate the public keys of a credential: two for a credential of both kinds (R128). -/
def credOps (kind : Nat) : List Nat := if kind = 3 then [0, 0] else [0]

/-- The kind of the officer whose approval a command submits (R129). -/
def submitKind (s : State) (c : Cmd) : Nat :=
  (((tblFind (par c 52 2) s.keys.pend).bind (fun e => pendOfficer s e (par c 54 1))).map (·.1)).getD 1

/-- Unit times of a command's separate operations, or of its two halves; none for a command that needs no unit. The times of internal jobs order
nothing and stand as 0. An enrolment begins with the ephemeral pair, the agreement and the encapsulation; its signature follows (R294). -/
def mangleTimes (s : State) (c : Cmd) : List Nat :=
  let p := pkPar c
  let time (kind : Nat) (x : Nat × Nat) : Nat := unitTime kind x.1 x.2
  let a := sideType s (cKeyA c) 0 0
  match cOp c with
  | 0x0301 => (descCreds (heldInput c)).flatMap (fun k => credOps k.kind)
  | 0x0304 => credOps (byteAt (heldInput c) 0)
  | 0x0307 => let d := heldInput c
    if isInit s c (bytesAt d 0 64) (d.drop 64) then (descCreds (d.drop 64)).flatMap (fun k => credOps k.kind) else []
  | 0x0308 => credOps (submitKind s c)
  | 0x0403 => [0]
  | 0x0809 => [0, 0, 0]
  | 0x0C02 | 0x0D02 => [0, 0]
  | 0x0401 => if isPairMade (kcType c) then [time 0 (kcType c, kcSize c)] else []
  | 0x0402 | 0x0404 => if ecPair (kcType c) then [0] else []
  | 0x0601 => time 1 a :: (if pkHybrid p then [time 1 (sideType s (cKeyB c) 0 0)] else [])
  | 0x0602 => time 2 (sideType s (cKeyA c) (par c 60 1) (par c 58 2)) ::
      (if pkHybrid p then [time 2 (sideType s (cKeyB c) (par c 61 1) 0)] else [])
  | 0x0603 => [time 3 a]
  | 0x0604 => [time 3 (sideType s (cKeyA c) (par c 52 1) 0)]
  | 0x0605 => [time 4 a]
  | 0x0606 => if [0x30, 0x31, 0x38, 0x39].contains a.1 then [time 0 a] else []
  | 0x0607 => (batchOf s c).1.map (fun e => time 2 (sideType s e.handle e.inl e.bits))
  | 0x0E01 => if pkHybrid p then [0, 0] else [0]
  | _ => []

/-- The operations of a command are the two halves of a hybrid one: a signature or a verification of both schemes, or the two signatures of a package or
a certificate (R181, R201, R444, R481). -/
def isPair (s : State) (c : Cmd) : Bool :=
  match cOp c with
  | 0x0601 | 0x0602 | 0x0E01 => pkHybrid (pkPar c)
  | 0x0308 => submitKind s c == 3
  | 0x0C02 | 0x0D02 => true
  | _ => false

/-- The handles whose keys the operation at an index of a command uses. -/
def opHandles (s : State) (c : Cmd) (i : Nat) : List Nat :=
  let hs : List Nat := match cOp c with
    | 0x0601 | 0x0602 => if i = 0 then [cKeyA c] else [cKeyB c]
    | 0x0603 | 0x0604 | 0x0605 | 0x0606 => [cKeyA c]
    | 0x0607 => [((batchOf s c).1.map (fun e => e.handle)).getD i 0]
    | 0x0E01 => if i = 0 ∧ (pkPar c).cls ≠ 0 then [cKeyA c] else [cKeyB c]
    | _ => []
  hs.filter (· != 0)

/-- Press passes over the message before a half's micro-program (R186): both passes of an EdDSA signature, otherwise the digest, μ, or the one
pass of a verification; none for a digest that the command carries (assumption 60). -/
def hashPasses (p : PkPar) (half : Nat) (sign : Bool) : Nat :=
  if half = 0 ∧ p.cls ≠ 0 then (if pkPre p then 0 else if p.cls = 2 && sign then 2 else 1) else 1

/-- The Press passes of the operation at an index of a command. -/
def opHashes (c : Cmd) (i : Nat) : Nat :=
  match cOp c with
  | 0x0601 => hashPasses (pkPar c) i true
  | 0x0602 => hashPasses (pkPar c) i false
  | 0x0607 => hashPasses (pkPar c) 0 false
  | 0x0E01 => hashPasses (pkPar c) i false
  | 0x0308 | 0x0C02 | 0x0D02 => 1
  | _ => 0

/-- A command's operations find places now (R179, R181); one whose hybrid operation stands in the waiting queue already goes when a slot is filled. -/
def mangleFree (s : State) (c : Cmd) : Bool :=
  if isPair s c then !c.queued && mangleRoom2 s
  else match mangleTimes s c with
    | [] => true
    | ts => mangleRoom s ts.length (cOp c == 0x0401 && kcType c == 0x20)

/-- A command with a private operation that is blinded: elliptic curves and RSA (R187). -/
def needsBlind (c : Cmd) : Bool :=
  match cOp c with
  | 0x0601 => par c 52 1 != 0
  | 0x0603 | 0x0809 => true
  | 0x0401 => ecPair (kcType c) || kcType c == 0x20
  | 0x0402 | 0x0404 => ecPair (kcType c)
  | _ => false

/-- Bytes of random values of the classical half of a signature: the ECDSA nonce's source, or the PSS salt. -/
def randLen (p : PkPar) : Nat :=
  if p.cls = 1 then (if pkDet p then 0 else 66) else if p.cls = 3 then p.salt else 0

/-- The random values of a half of a signature: the ECDSA nonce's source or the PSS salt; the rnd of ML-DSA, zero bytes under `DETERM` (R190). -/
def halfRandom (s : State) (p : PkPar) (half : Nat) : List Byte × State :=
  if half = 0 ∧ p.cls ≠ 0 then (if randLen p ≠ 0 then draw s (randLen p) else ([], s))
  else if pkDet p then (zeros 32, s) else draw s 32

/-- The random values of the operation at an index of a command, drawn at its start (R190). -/
def opRandom (s : State) (c : Cmd) (i : Nat) : List Byte × State :=
  match cOp c with
  | 0x0601 => halfRandom s (pkPar c) i
  | 0x0604 => draw s 32
  | _ => ([], s)

/-- The operation at an index of a command, before its random values are drawn. -/
def opOf (s : State) (tag : Nat) (c : Cmd) (i : Nat) : MangleOp :=
  { src := .cmd tag i, order := 0, group := mangleGroup c, slice := (cSlice c).getD 0xFFFF, time := (mangleTimes s c).getD i 0
    rsa := cOp c == 0x0401 && kcType c == 0x20, keys := opHandles s c i, hashes := opHashes c i }

/-- The hybrid operation of a command that waits at check 11 joins the waiting queue (R181). -/
def pairQueue (s : State) (tag : Nat) (c : Cmd) : State :=
  let n := s.mangle.order
  let s1 := waitAdd { s with mangle := { s.mangle with order := n + 2 } }
    { op := { opOf s tag c 0 with order := n }, mate := some { opOf s tag c 1 with order := n + 1 } }
  cmdPut s1 tag { c with queued := true }

/-- The hybrid operation of a command leaves the waiting queue for two units, with its random values: its command starts (R181). -/
def pairLeave (s : State) (tag : Nat) (c : Cmd) (ra rb : List Byte) : State :=
  match s.mangle.waiting.find? (fun w => w.op.src == .cmd tag 0), cmdAt s tag with
  | some w, some d => mangleTake (cmdPut { s with mangle := { s.mangle with
      waiting := s.mangle.waiting.map (fun x => if x.op.order = w.op.order then
        { op := { x.op with rnd := ra }, mate := x.mate.map (fun b => { b with rnd := rb }) } else x) } } tag { d with queued := false })
      { op := { w.op with rnd := ra }, mate := w.mate.map (fun b => { b with rnd := rb }) }
  | _, _ => mangleEnter2 s { opOf s tag c 0 with rnd := ra } { opOf s tag c 1 with rnd := rb }

/-- A separate operation of a command enters, with its random values. -/
def opEnter (s : State) (tag : Nat) (c : Cmd) (i : Nat) : State :=
  let (r, s1) := opRandom s c i
  mangleEnter s1 { opOf s tag c i with rnd := r }

/-- Execution start of a command with Mangle operations, for which Bobbin serves what they draw: their random and blinding values are drawn (R187,
R190), and they enter slots or the waiting queue. -/
def mangleStart (s0 : State) (tag : Nat) (c : Cmd) : State :=
  let n := (mangleTimes s0 c).length
  if n = 0 then s0
  else
    let s := touchFast s0
    let s1 := if needsBlind c then drawBlinding s else s
    if isPair s0 c then
      let (ra, s2) := opRandom s1 c 0
      let (rb, s3) := opRandom s2 c 1
      pairLeave s3 tag c ra rb
    else (List.range n).foldl (fun s i => opEnter s tag c i) s1

/-! ### A command's input arrives -/

/-- A command's input arrives: its operations can run. A failed read ends the command and frees its places (R80). -/
def pkInput (s : State) (tag op : Nat) (io : HostIO) : Host.Outcome State Fault Refusal :=
  match runIn s tag op io (fun c bs s =>
    if !c.work.nums.isEmpty then s
    else mangleSet (setWork s tag { nums := [b2n io.outOk, 0], bytes := c.work.bytes ++ bs }) tag) with
  | .next t => match cmdAt s tag, cmdAt t tag with
    | some c, some d => if c.stage = .started ∧ cOp c = op ∧ d.stage = .ended then .next (mangleLeave t tag) else .next t
    | _, _ => .next t
  | o => o

/-- `PK.SIGN`: its input arrives. -/
def execPkSign (tag : Nat) (io : HostIO) (s : State) : Host.Outcome State Fault Refusal := pkInput s tag 0x0601 io

/-- `PK.VERIFY`: its input arrives. -/
def execPkVerify (tag : Nat) (io : HostIO) (s : State) : Host.Outcome State Fault Refusal := pkInput s tag 0x0602 io

/-- `PK.AGREE`: its input arrives. -/
def execPkAgree (tag : Nat) (io : HostIO) (s : State) : Host.Outcome State Fault Refusal := pkInput s tag 0x0603 io

/-- `PK.ENCAPSULATE`: its input arrives. -/
def execPkEncapsulate (tag : Nat) (io : HostIO) (s : State) : Host.Outcome State Fault Refusal := pkInput s tag 0x0604 io

/-- `PK.DECAPSULATE`: its input arrives. -/
def execPkDecapsulate (tag : Nat) (io : HostIO) (s : State) : Host.Outcome State Fault Refusal := pkInput s tag 0x0605 io

/-- `PK.VERIFY_BATCH`: its input arrives. -/
def execPkVerifyBatch (tag : Nat) (io : HostIO) (s : State) : Host.Outcome State Fault Refusal := pkInput s tag 0x0607 io

/-- Writes the public key of `PK.GET_PUBLIC`. -/
def pkPublic (s : State) (tag : Nat) (c : Cmd) (io : HostIO) : State :=
  match keyOf s (cKeyA c) with
  | none => endAfter s tag stBadHandle
  | some o => endOut s tag io (pubOf o)

/-- `PK.GET_PUBLIC` (R205): a seed's public key comes from an operation; the others are held. -/
def execPkGetPublic (tag : Nat) (io : HostIO) (s : State) : Host.Outcome State Fault Refusal :=
  if mangleHas s tag then pkInput s tag 0x0606 io else runCmd s tag 0x0606 (fun c s => pkPublic s tag c io)

/-! ### Results -/

/-- A verification's key: its public bytes, and whether validation rejects it (R191). A stored key has been validated. -/
def verifyKey (s : State) (h inl bits : Nat) (inKey : List Byte) : List Byte × Bool :=
  if inl ≠ 0 then (inKey, !publicValid inl bits inKey) else (((keyOf s h).map pubOf).getD [], false)

/-- One half of a signature, 0 the classical one where there is one: the signature, ML-DSA attempts, ECDSA repetitions. `r` holds its random
values. -/
def signHalf (p : PkPar) (half : Nat) (t : Nat × Nat) (priv r ctx msg : List Byte) : List Byte × Nat × Nat :=
  let n := pkSigLen t.1 t.2
  if half = 0 ∧ p.cls ≠ 0 then
    let x := sigScheme t.1 p.cls p.hash (pkPre p) p.salt
    (bytesAt (Config.sign x priv msg [] r) 0 n, 0, if p.cls = 1 then Config.signRepeats x priv msg [] r else 0)
  else
    let x := sigScheme t.1 5 0 false 0
    (bytesAt (Config.sign x priv msg ctx r) 0 n, Config.signAttempts x priv msg ctx r, 0)

/-- A wrong RSA result is found: no output, and the record of R188. -/
def rsaWrong (s : State) (owner h : Nat) : State := tallyPut s agCp 0x0680 [(1, owner), (6, h)]

/-- The scheme of the signature that a command makes: that of its fields, or the one of an enrolment's offer, Ed25519 with ML-DSA where key B is
given (R294). -/
def signPar (c : Cmd) : PkPar := if cOp c = 0x0809 then { cls := 2, pq := b2n (decide (cKeyB c ≠ 0)), hash := 0, opts := 0 } else pkPar c

/-- A half of `PK.SIGN`, or of the signature of an enrolment's offer, ends: its public result stands until the other half has ended. -/
def signHalfDone (s : State) (tag : Nat) (c : Cmd) (half : Nat) (priv r : List Byte) (wrong : Bool) : State :=
  let p := signPar c
  let data := c.work.bytes
  let t := sideType s (if half = 0 then cKeyA c else cKeyB c) 0 0
  let (sig, tries, reps) := signHalf p half t priv r (bytesAt data 0 p.ctx) (data.drop p.ctx)
  let g (i : Nat) : Nat := c.work.nums.getD i 0
  setWork s tag { c.work with
    parts := tblPut half sig c.work.parts
    nums := [g 0, max (g 1) (b2n (wrong && t.1 == 0x20)), g 2 + tries, g 3 + reps] }

/-- `PK.SIGN` ends (R188, R189, R202). -/
def signDone (s : State) (tag : Nat) (c : Cmd) (io : HostIO) : State :=
  let g (i : Nat) : Nat := c.work.nums.getD i 0
  if g 1 = 1 then rsaWrong (endAfter s tag stInternal) (cOwner s c) (cKeyA c)
  else if 1000 < g 2 then endAfter s tag 0x0602
  else endOut s tag io (c.work.parts.flatMap (·.2)) stOk (BitVec.ofNat 64 (g 2 % 65536 + 65536 * (g 3 % 256)))

/-- What a verification finds: classical half failed, ML-DSA half failed, classical key rejected, ML-DSA key rejected. -/
def verifyJob (p : PkPar) (ta tb : Nat × Nat) (ka kb : List Byte × Bool) (sigA sigB ctx msg : List Byte) : Nat :=
  let okA := sigVerifies (sigScheme ta.1 (pkClsA p) p.hash (pkPre p) p.salt) ka.1 msg (if p.cls = 0 then ctx else []) sigA
  let okB := sigVerifies (sigScheme tb.1 5 0 false 0) kb.1 msg ctx sigB
  let a := if ka.2 then 4 else if okA then 0 else 1
  let b := if kb.2 then 4 else if okB then 0 else 1
  if p.cls = 0 then 2 * a else if pkHybrid p then a + 2 * b else a

/-- The status of a verification's result: a rejected key takes precedence (R207). -/
def verifyStatus (r : Nat) : Nat := if 4 ≤ r then stBadPoint else if r ≠ 0 then 0x0601 else stOk

/-- A verification over input in the layout of Table 7-8. -/
def verifyInput (s : State) (p : PkPar) (a ia bits b ib : Nat) (d : List Byte) : Nat :=
  let ta := sideType s a ia bits
  let tb := if pkHybrid p then sideType s b ib 0 else (0, 0)
  let la := inlineLen ia bits
  let lb := if pkHybrid p then inlineLen ib 0 else 0
  let na := pkSigLen ta.1 ta.2
  let nb := pkSigLen tb.1 tb.2
  let rest := d.drop (la + lb + na + nb)
  verifyJob p ta tb (verifyKey s a ia bits (bytesAt d 0 la)) (verifyKey s b ib 0 (bytesAt d la lb))
    (bytesAt d (la + lb) na) (bytesAt d (la + lb + na) nb) (bytesAt rest 0 p.ctx) (rest.drop p.ctx)

/-- `PK.VERIFY` ends. -/
def verifyDone (s : State) (tag : Nat) (c : Cmd) : State :=
  let r := verifyInput s (pkPar c) (cKeyA c) (par c 60 1) (par c 58 2) (cKeyB c) (par c 61 1) c.work.bytes
  endAfter s tag (verifyStatus r) 0 (BitVec.ofNat 64 r)

/-- `PK.VERIFY_BATCH` ends once every entry has run (R204). -/
def batchDone (s : State) (tag : Nat) (c : Cmd) (io : HostIO) : State :=
  let p := pkPar c
  let d := c.work.bytes
  let es := (batchWalk s d (par c 56 1) 0).1
  let rs := es.map (fun e => verifyInput s { p with ctx := e.ctx } e.handle e.inl e.bits 0 0
    (bytesAt d (e.at_ + 16) (batchLen s e - 16)))
  let mask (f : Nat → Bool) : Nat := (List.range rs.length).foldl (fun m i => if f (rs.getD i 0) then m + 2 ^ i else m) 0
  endOut s tag io (leBytes 8 (mask (· == 0)) ++ leBytes 8 (mask (fun r => decide (4 ≤ r))))

/-- A secret leaves a unit through the write-back path to Thimble (R184). -/
def giveSecret (s : State) (tag : Nat) (c : Cmd) (t : Nat) (secret more : List Byte) : State :=
  let s1 := setWork s tag { c.work with bytes := more }
  match cmdAt s1 tag with
  | none => s1
  | some d => thmAsk s1 tag d { op := 8, tag := 0, secret := secret
                                nums := fillNums s1 d 0x40 (secretLen t) (kcAttrs d) (kcLimit d) 5 }

/-- An agreement's result is refused: all zero under X25519 or X448 (Table 7-3). -/
def agreeZero (t : Nat) (z : List Byte) : Bool := (t == 0x13 || t == 0x15) && z.all (· == 0)

/-- `PK.AGREE` ends its operation (R191, R203). -/
def agreeDone (s : State) (tag : Nat) (c : Cmd) (priv : List Byte) : State :=
  let t := typeOf s (cKeyA c)
  let (peer, bad) := verifyKey s (cKeyB c) (par c 52 1) 0 c.work.bytes
  let z := bytesAt (Config.agree t priv peer) 0 (secretLen t)
  if bad || agreeZero t z then endAfter s tag stBadPoint else giveSecret s tag c t z []

/-- `PK.ENCAPSULATE` ends its operation; `m`: the value that it drew. -/
def encapsDone (s : State) (tag : Nat) (c : Cmd) (m : List Byte) : State :=
  let (ek, bad) := verifyKey s (cKeyA c) (par c 52 1) 0 c.work.bytes
  let t := (sideType s (cKeyA c) (par c 52 1) 0).1
  if bad then endAfter s tag stBadPoint
  else giveSecret s tag c t (bytesAt (Config.encapsKey t ek m) 0 32) (bytesAt (Config.encapsCt t ek m) 0 (ctLen t))

/-- `PK.DECAPSULATE` ends its operation: every ciphertext gives a key. -/
def decapsDone (s : State) (tag : Nat) (c : Cmd) (priv : List Byte) : State :=
  let t := typeOf s (cKeyA c)
  giveSecret s tag c t (bytesAt (Config.decaps t priv c.work.bytes) 0 32) []

/-- The last operation of a command ends: its result and its status; `priv`: what the unit's bank held, `r`: what the operation drew. The row of an
internal job goes on by itself. -/
def pkDone (s : State) (tag : Nat) (priv : Nat → List Byte) (r : List Byte) : State :=
  match cmdAt s tag with
  | none => s
  | some c =>
    let io : HostIO := { outOk := c.work.nums.headD 1 == 1 }
    match cOp c with
    | 0x0601 => signDone s tag c io
    | 0x0602 => verifyDone s tag c
    | 0x0603 => agreeDone s tag c (priv (cKeyA c))
    | 0x0604 => encapsDone s tag c r
    | 0x0605 => decapsDone s tag c (priv (cKeyA c))
    | 0x0606 => pkPublic s tag c io
    | 0x0607 => batchDone s tag c io
    | _ => s

/-- A command whose secret Thimble has placed ends: an encapsulation writes its ciphertext. -/
def pkCreated (s : State) (tag : Nat) (c : Cmd) (r : ThmRsp) : State :=
  if r.status ≠ stOk then endAfter s tag r.status
  else if cOp c = 0x0604 then
    endOut s tag { outOk := c.work.nums.headD 1 == 1 } c.work.bytes stOk (BitVec.ofNat 64 r.a)
  else endOk s tag 0 (BitVec.ofNat 64 r.a)

/-! ### Operations of the Needle ports (R195, R198, R383) -/

/-- The scheme fields of a descriptor (Table 13-15). -/
def descPk (d : List Byte) : PkPar :=
  { cls := byteAt d 3, pq := byteAt d 4, hash := byteAt d 5, opts := byteAt d 6, ctx := byteAt d 7 }

/-- The result of a modular primitive (Table 7-5); a zero input to MOD_INV gives zero. -/
def modOp (op p a c : Nat) : Nat :=
  match op with
  | 3 => (a + c) % p
  | 4 => (a + (p - c % p)) % p
  | 5 => a * c % p
  | 6 => powMod p 8192 (a % p) c (1 % p)
  | _ => if a % p = 0 then 0 else powMod p 8192 (a % p) (p - 2) (1 % p)

/-- Bytes of a primitive's second operand. -/
def modSecond (op l b : Nat) : Nat := if op = 7 then 0 else if op = 6 then b / 8 else l / 8

/-- Bytes of output of a descriptor's operation. -/
def mangleOut (s : State) (n : Nat) (d : List Byte) : Nat :=
  let op := byteAt d 0
  if op = 1 then
    sigLenOf s (coreKey s n (byteAt d 1)) 0 0 +
      (if pkHybrid (descPk d) then sigLenOf s (coreKey s n (byteAt d 2)) 0 0 else 0)
  else if 3 ≤ op ∧ op ≤ 7 then leAt d 8 2 / 8 else 0

/-- The port status that a key of the list gives; 0 when it may be used (R193, R384). A key whose type does not fit, whose index lies past the list, or
that the cache does not hold gives 3, as one that lacks the usage flag does (DESIGN CHOICE: Table 7-4 names none of these cases, assumption 57). -/
def portKey (s : State) (n i : Nat) (types : List Nat) (usage : Nat) : Nat :=
  let h := coreKey s n i
  match keyOf s h, cacheEnt s 2 h with
  | some o, some e =>
    if !types.contains o.ktype || !subMask usage e.flags then 3
    else if s.scorch.locked && !bitN e.flags kContinuity then 4
    else if !portUse s h then 5 else 0
  | _, _ => 3

/-- The port status that stops an operation before it runs; 0 when it runs (Table 7-4). An operation number outside 1 to 7, or scheme fields that are
not well formed, give 9 (DESIGN CHOICE: Table 7-4 names `BAD_OP` for the four operations that a port never makes, assumption 57). The modulus bits of
an inline RSA key stand in bytes 8 and 9, which Table 13-15 gives for operations 3 to 7 (DESIGN CHOICE: it names no place for them, assumption 57). -/
def manglePortCheck (s : State) (n : Nat) (d : List Byte) : Nat :=
  let op := byteAt d 0
  let p := descPk d
  let l := leAt d 8 2
  let b := leAt d 10 2
  let len := leAt d 20 4
  let i := byteAt d 1
  let j := byteAt d 2
  let inl := byteAt d 12
  let step (x lo : Nat) : Bool := decide (lo ≤ x ∧ x ≤ 8192 ∧ x % 64 = 0)
  if op = 0 ∨ 8 ≤ op then 9
  else if 3 ≤ op then
    if step l 192 && (op != 6 || step b 64) && decide (len = 2 * (l / 8) + modSecond op l b) then 0 else 6
  else
    let shape := pkForm p && (if pkHybrid p then decide (j < 32) else j == 0xFF) &&
      (if i = 0xFF then decide (op = 2) && inlineOk inl (if inl = 0xA0 then l else 0) (pkClsA p)
       else decide (i < 32 ∧ inl = 0))
    let usage := if op = 1 then kSign else kVerify
    let ts (cls : Nat) : List Nat := schemeTypes cls ++ (if op = 2 then (schemeTypes cls).map (· + 0x80) else [])
    if !shape then 9
    else
      let ka := if i = 0xFF then 0 else portKey s n i (ts (pkClsA p)) usage
      let kb := if pkHybrid p then portKey s n j (ts 5) usage else 0
      let bits := if inl = 0xA0 then l else 0
      let head := if op = 1 then p.ctx
        else inlineLen inl bits + sigLenOf s (coreKey s n i) inl bits +
          (if pkHybrid p then sigLenOf s (coreKey s n j) 0 0 else 0) + p.ctx
      if ka ≠ 0 then ka
      else if kb ≠ 0 then kb
      else if inlineLenOk inl bits && head ≤ len && pkMsgOk p (len - head) then 0 else 6

/-- A job of a core's Mangle port takes its status word. -/
def manglePortSet (s : State) (n job : Nat) (w : BitVec 64) : State :=
  let k := coreGet s n
  corePut s n { k with
    mangle := k.mangle.map (fun j => if j.id = job then { j with done := some w } else j), mangleN := k.mangleN + 1 }

/-- The unit times of a port operation: two for a hybrid. -/
def portTimes (s : State) (n : Nat) (d : List Byte) : List Nat :=
  let kind := byteAt d 0
  let inl := byteAt d 12
  let time (x : Nat × Nat) : Nat := unitTime kind x.1 x.2
  if 3 ≤ kind then [0]
  else time (sideType s (coreKey s n (byteAt d 1)) inl (leAt d 8 2)) ::
    (if pkHybrid (descPk d) then [time (sideType s (coreKey s n (byteAt d 2)) 0 0)] else [])

/-- The handles of a Mangle job's keys, the classical half's first. -/
def mangleHandles (s : State) (n : Nat) (d : List Byte) : List Nat :=
  if 3 ≤ byteAt d 0 then []
  else (if byteAt d 1 = 0xFF then [] else [coreKey s n (byteAt d 1)]) ++
    (if pkHybrid (descPk d) then [coreKey s n (byteAt d 2)] else [])

/-- A half of a port job's signature waits for Bobbin (R187, R190). -/
def portDraws (s : State) (p : PkPar) (half : Nat) : Bool :=
  if half = 0 ∧ p.cls ≠ 0 then blindServes s && (decide (randLen p = 0) || bobbinServes s) else pkDet p || bobbinServes s

/-- A half of a port job's signature is done: its result, empty where the self-check of an RSA private operation finds a mismatch (R188). -/
def portHalfDone (s : State) (n : Nat) (j : PortJob) (half : Nat) (priv input : List Byte) (wrong : Bool) : State :=
  let p := descPk j.desc
  let t := sideType s (j.keys.getD half 0) 0 0
  let (r, s1) := halfRandom s p half
  let s2 := if half = 0 ∧ p.cls ≠ 0 then drawBlinding s1 else s1
  let (sig, tries, _) := signHalf p half t priv r (bytesAt input 0 p.ctx) (input.drop p.ctx)
  let k := coreGet s2 n
  let x := (if wrong && half == 0 && t.1 == 0x20 then [] else sig, tries)
  corePut s2 n { k with mangle := k.mangle.map (fun y => if y.id = j.id then { y with parts := tblPut half x y.parts } else y) }

/-- A signature of a port job is done: its output and its status word. A wrong RSA result has no stated status: a free value (assumption 3). -/
def portSignDone (s : State) (n : Nat) (j : PortJob) : State :=
  let sig := j.parts.flatMap (·.2.1)
  let tries := (j.parts.map (·.2.2)).foldl (· + ·) 0
  let s1 := j.keys.foldl useTake s
  if j.parts.any (fun e => e.2.1.isEmpty) then
    let (v, s2) := freeWord s1
    manglePortSet (rsaWrong s2 (coreGet s n).owner (j.keys.headD 0)) n j.id (statusWord (v.toNat % 256) 0 0)
  else if 1000 < tries then manglePortSet s1 n j.id (statusWord 8 (tries % 65536) 0)
  else manglePortSet (regionWrite s1 n (leAt j.desc 24 4) false sig) n j.id (statusWord 0 tries sig.length)

/-- A modular operation of a port job is done. A modulus of zero has no stated result: a free value (assumption 3). -/
def portModDone (s : State) (n job : Nat) (d input : List Byte) : State :=
  let w := leAt d 8 2 / 8
  let m := leAt input 0 w
  let r := modOp (byteAt d 0) m (leAt input w w) (leAt input (2 * w) (modSecond (byteAt d 0) (8 * w) (leAt d 10 2)))
  let (bs, s1) := if m = 0 then freeBytes s w else (leBytes w r, s)
  manglePortSet (regionWrite s1 n (leAt d 24 4) false bs) n job (statusWord 0 0 w)

/-- A verification of a port job is done. -/
def portVerifyDone (s : State) (n : Nat) (j : PortJob) (input : List Byte) : State :=
  let d := j.desc
  let p := descPk d
  let bits := if byteAt d 12 = 0xA0 then leAt d 8 2 else 0
  let ha := if byteAt d 1 = 0xFF then 0 else coreKey s n (byteAt d 1)
  let hb := if pkHybrid p then coreKey s n (byteAt d 2) else 0
  let r := verifyInput s p ha (byteAt d 12) bits hb 0 input
  manglePortSet (j.keys.foldl useTake s) n j.id (statusWord (if 4 ≤ r then 2 else if r ≠ 0 then 1 else 0) 0 0)

/-- The last operation of a Mangle port's job ends: output, use, and status word. -/
def manglePortDone (s : State) (n : Nat) (j : PortJob) (input : List Byte) : State :=
  if 3 ≤ byteAt j.desc 0 then portModDone s n j.id j.desc input
  else if byteAt j.desc 0 = 2 then portVerifyDone s n j input
  else portSignDone s n j

/-! ### The end of a micro-program -/

/-- The operation that executes in a unit. -/
def unitRuns (s : State) (u : Nat) : Option MangleOp := (unitOps s u).find? (·.running)

/-- An operation leaves its unit, whose secret register bank is erased (R183). -/
def opEnd (s : State) (u : Nat) (o : MangleOp) : State :=
  bankPut (unitPut s u ((unitOps s u).filter (fun x => x.order != o.order))) u []

/-- What a unit turns to after an operation: the next one in its slots. -/
def unitNext (s : State) (u : Nat) : State := unitStep s u

/-- The secret of a command's operation waits for a place in Thimble's ring (R184, R397). -/
def secretWaits (s : State) (c : Cmd) : Bool := !thmRoom s && [0x0401, 0x0603, 0x0604, 0x0605].contains (cOp c)

/-- The unit of a key pair ends with the pair that it has drawn, which goes to Thimble (R184); while the candidates of an RSA key are rejected it
goes on, and without Bobbin it waits. -/
def pairDone (s : State) (u : Nat) (o : MangleOp) (tag : Nat) (c : Cmd) : State :=
  if !bobbinFor s 3 then s
  else
    let (m, s1) := pairMaterial s (kcType c) (kcSize c)
    match m with
    | none => s1
    | some k => unitNext (askFill (opEnd s1 u o) tag c 5 0 0 1 [] [] k) u

/-- A command's operation ends. -/
def opDoneCmd (s : State) (u : Nat) (o : MangleOp) (tag half : Nat) (wrong : Bool) : State :=
  match cmdAt s tag with
  | none => unitNext (opEnd s u o) u
  | some c =>
    if secretWaits s c then s
    else if cOp c = 0x0401 then pairDone s u o tag c
    else
      let priv := bankGet s u
      let s1 := opEnd s u o
      let s2 := if cOp c = 0x0601 ∨ (cOp c = 0x0809 ∧ c.work.step = 2) then signHalfDone s1 tag c half (priv (o.keys.headD 0)) o.rnd wrong
        else s1
      unitNext (if mangleHas s2 tag then s2 else pkDone s2 tag priv o.rnd) u

/-- An operation of a port's job ends. -/
def opDonePort (s : State) (u : Nat) (o : MangleOp) (n job : Nat) (wrong : Bool) : State :=
  match (coreGet s n).mangle.find? (fun j => j.id == job) with
  | none => unitNext (opEnd s u o) u
  | some j =>
    let input := regionRead s n (leAt j.desc 16 4) (leAt j.desc 20 4) false
    let half := if pkHybrid (descPk j.desc) && o.keys == j.keys.drop 1 then 1 else 0
    let sign := byteAt j.desc 0 == 1
    if sign && !portDraws s (descPk j.desc) half then s
    else
      let priv := bankGet s u (o.keys.headD 0)
      let s1 := opEnd s u o
      let s2 := if sign then portHalfDone s1 n j half priv input wrong else s1
      unitNext (if (mangleAll s2).any (fun x => x.src == o.src) then s2
        else match (coreGet s2 n).mangle.find? (fun j => j.id == job) with
          | none => s2
          | some j2 => manglePortDone s2 n j2 input) u

/-- `MANGLE_OP_DONE`: the executing micro-program of a unit ends. `wrong`: the self-check of an RSA private operation finds a
mismatch (R188). -/
def execMangleOpDone (unit : Nat) (wrong : Bool) (s : State) : Host.Outcome State Fault Refusal :=
  .next (
    let t := unitStep s unit
    match unitRuns t unit with
    | none => t
    | some o => match o.src with
      | .cmd tag half => opDoneCmd t unit o tag half wrong
      | .port n k => opDonePort t unit o n k wrong
      | _ => unitNext (opEnd t unit o) unit)

/-- A Rinse: every operation is stopped, with `KEY_ERASED` or ERASED, and the banks are erased (R194). -/
def mangleRinse (s : State) : State :=
  let os := mangleAll s
  let s1 := { s with mangle := { s.mangle with units := [], waiting := [], banks := [] } }
  os.foldl (fun s o => match o.src with
    | .cmd tag _ => match cmdAt s tag with
      | none => s
      | some c => if c.stage = .started then endAfter s tag 0x0506 else cmdPut s tag { c with queued := false }
    | .port n k => manglePortSet s n k (statusWord 7 0 0)
    | _ => s) s1

end Sys2Proof.Machine
end

