-- ==== Sys2Proof/Machine/Cards.lean ====
section
/-! DEFINITION. Care Cards and key epochs: life tracking, the epoch change, and Thimble's derivation of queue keys (spec 10,
R278 to R282, R291, R297). -/

namespace Sys2Proof.Machine

/-- The record of a card. -/
def cardGet (s : State) (id : Nat) : Option CardRec := tblFind id s.links.cards

/-- A card record set; a primary journals it. -/
def cardPut (s : State) (id : Nat) (x : CardRec) : State :=
  jot { s with links := { s.links with cards := tblPut id x s.links.cards } } 0xFFFF false (.card id (some x))

/-- The queues of a card, rising. -/
def cardQueues (s : State) (id : Nat) : List (Nat × Queue) := s.links.queues.filter (fun e => e.2.card.toNat == id)

/-- The REKEY queue of a card: its lowest-numbered queue with `TX` (R279). -/
def rekeyQueue (s : State) (id : Nat) : Option (Nat × Queue) := (cardQueues s id).find? (fun e => e.2.tx)

/-- The `AIR` queue of a card. -/
def airQueue (s : State) (id : Nat) : Option (Nat × Queue) := (cardQueues s id).find? (fun e => e.2.air)

/-- The material of a card key. -/
def cardKey (s : State) (x : CardRec) : List Byte := ((keyOf s x.key).map (·.material)).getD []

/-- Every queue of a card changed. -/
def cardQueuesMap (s : State) (id : Nat) (f : Nat → Queue → Queue) : State :=
  (cardQueues s id).foldl (fun s e => queuePut s e.1 (f e.1 e.2)) s

/-- A card's epochs left takes a new value: the life events (R297). -/
def setLeft (s : State) (id : Nat) (x : CardRec) (left : Nat) : CardRec × State :=
  let x1 := { x with left := left }
  let s1 := if left ≤ x.total / 10 && !x.low then
    lnkEvent (tallyPut s agCp 0x0882 [(1, x.owner), (5, id), (0x0F, left)]) x.port 5 else s
  let s2 := if left = 0 ∧ x.left ≠ 0 then
    lnkEvent (tallyPut s1 agCp 0x0883 [(1, x.owner), (5, id), (0x0F, 0)]) x.port 6 else s1
  ({ x1 with low := x.low || decide (left ≤ x.total / 10) }, s2)

/-- The counter record of an owner's cards, with one card's record replaced or removed (R282). -/
def counterRec (s : State) (owner id : Nat) (x : Option CardRec) : JKind :=
  let t := match x with
    | some r => tblPut id r s.links.cards
    | none => tblDel id s.links.cards
  .counter ((t.filter (fun e => e.2.owner == owner)).map (fun e => (e.1, e.2.offered, e.2.conf, e.2.left)))

/-- A `LINK.REKEY` of a card that has started and not ended. -/
def rekeyCmd (id : Nat) (c : Cmd) : Bool := c.stage == .started && cOp c == 0x0807 && par c 52 8 == id

/-- What refuses an epoch change of a card (R279, R280, R297): `OK` where it may begin. Under a Scorch lock none starts (R293). -/
def rekeyRefusal (s : State) (id : Nat) (x : CardRec) : Nat :=
  if s.scorch.locked then stLocked
  else if x.change.isSome || s.thm.reqs.any (fun r => r.op == 0xD && r.nums.getD 0 0 == id) ||
      s.thm.answers.any (fun r => r.op == 0xD && r.nums.getD 0 0 == id) then 0x0808
  else if x.left = 0 then stExhausted
  else if 65535 ≤ x.offered then 0x080A
  else if x.conf + 64 < x.offered + 1 then 0x0809
  else stOk

/-- Thimble is asked for the keys of a card's next epoch (R278, R279). -/
def rekeyAsk (s : State) (id : Nat) (x : CardRec) (cmd : Option Nat) : State :=
  thmPost s { op := 0xD, tag := 0, nums := [id, x.offered + 1], cmd := cmd }

/-- The keys of an epoch enter the adjacent registers of a card's queues (R278, R279 step 2). -/
def epochBind (s : State) (id e : Nat) : State :=
  cardQueuesMap s id (fun q y =>
    { y with adjacent := some { epoch := e, key := queueKey (((keyOf s y.key).map (·.material)).getD []) id q e } })

/-- The adjacent registers of a card's queues are cleared. -/
def adjacentClear (s : State) (id : Nat) : State := cardQueuesMap s id (fun _ y => { y with adjacent := none })

/-- `THM_EPOCH`: the offered epoch enters the journal, and the keys of the new epoch the adjacent registers (R278, R279
steps 1 and 2). Under a Scorch lock Thimble binds nothing (R163, R293); while every list of Press is full the derivation waits (R157). -/
def execThmEpoch (ok0 ok1 : Bool) (s : State) : Host.Outcome State Fault Refusal :=
  thmServe s 0xD (fun r s =>
    let id := r.nums.getD 0 0
    let e := r.nums.getD 1 0
    if s.scorch.locked then thmAnswer s r stLocked 0 r.nums
    else match cardGet s id with
    | none => thmAnswer s r 0x0803 0 r.nums
    | some x => if !pressFree s then s else
      let x1 := { x with offered := e, confAt := none }
      match jrnCounter s ok0 ok1 x.owner (counterRec s x.owner id (some x1)) with
      | none => thmAnswer (jrnFailed s ok0 ok1) r 0x0406 0 r.nums
      | some s1 =>
        let s2 := jot (cardPut s1 id x1) 0xFFFF false (.lease leaseCard id e)
        thmAnswer (epochBind s2 id e) r stOk 0 r.nums)

/-- The payload of a REKEY frame (R279 step 3). -/
def rekeyLoad (id e : Nat) (qs : List Nat) : List Byte :=
  beBytes 8 id ++ beBytes 2 e ++ beBytes 2 qs.length ++ zeros 4 ++ qs.flatMap (beBytes 2)

/-- A REKEY frame leaves on the card's REKEY queue, unless a lock holds the queue; it is the first traffic frame of the new epoch and counts as sent
once. A follower transmits it where the queue is duplicated, as the frame stands in the journal (R274, R275, R315). -/
def rekeySend (s : State) (q : Nat) (frame : List Byte) (first : Bool) : State :=
  match queueGet s q with
  | none => s
  | some x =>
    if !linkServes s || x.held || (s.seam.role == .follower && !x.dup) then s
    else if first then queueSend s q frame
    else sendFrame s x.port x.cls (queuePeer s x) frame

/-- The command that started an epoch change ends. -/
def rekeyEnd (s : State) (cmd : Option Nat) (status : Nat) (extra : Nat) : State :=
  match cmd with
  | none => s
  | some tag => endAfter s tag status 0 (BitVec.ofNat 64 extra)

/-- The change begins once the keys stand in the adjacent registers: the REKEY frame is built, and sent once the entry that carries it is
acknowledged (R279 step 3, R313). Under a Scorch lock that has come meanwhile no change starts, and the offered epoch is spent (R293). -/
def rekeyBegin (s : State) (id e : Nat) (cmd : Option Nat) : State :=
  match cardGet s id with
  | none => s
  | some x => if s.scorch.locked then rekeyEnd (adjacentClear s id) cmd stLocked 0 else
    let qs := ((cardQueues s id).filter (fun y => y.2.mode != .draining)).map (·.1)
    let (q, frame) := match rekeyQueue s id with
      | none => (0xFFFF, [])
      | some (q, y) => (q, match y.adjacent with
        | none => []
        | some k => ffpSeal k.key ffRekey 0 q e 1 (nowStamp s) 0 (rekeyLoad id e qs))
    let go := seamReleased s s.seam.nextSeq && pressFree s
    let ch : EpochChange := {
      epoch := e, queue := q, frame := frame, begun := s.time.clk, lastTx := s.time.clk, due := !go, jseq := s.seam.nextSeq, listed := qs
      cmd := cmd }
    let s1 := cardPut s id { x with change := some ch }
    if go then rekeySend s1 q frame true else s1

/-- The registers of a card's queues at a confirmation (R279 step 5): the new epoch becomes the present one and the old one stays adjacent; the
counters of the device begin again (R273), and what the old epoch's frames still asked for is dropped. -/
def epochRotate (s : State) (id : Nat) (ch : EpochChange) : State :=
  cardQueuesMap s id (fun q y =>
    { y with present := y.adjacent, adjacent := y.present, epoch := ch.epoch
             txCtr := if q = ch.queue then 2 else 1, leaseEnd := 1, ctrSafe := 1, hbSeq := 1, hbEnds := [1, 1, 1]
             hbSafe := 1, rxCtr := 0, ackDue := [], gaps := []
             mode := if y.mode = .paused ∧ ch.listed.contains q then .active else y.mode })

/-- The change is confirmed (R279 step 5): the new registers become the present ones, the old epoch stays adjacent for 1 s,
the listed PAUSED queues become ACTIVE, and the card has one epoch less (R297). -/
def rekeyConfirm (s : State) (id : Nat) : State :=
  match cardGet s id with
  | none => s
  | some x => match x.change with
    | none => s
    | some ch =>
      let (x1, s2) := setLeft (epochRotate s id ch) id { x with conf := ch.epoch, change := none, confAt := some s.time.clk } (x.left - 1)
      let s3 := cardPut s2 id x1
      let s4 := match queueGet s ch.queue with
        | some y => lnkEvent s3 y.port 7
        | none => lnkEvent s3 x.port 7
      rekeyEnd s4 ch.cmd stOk ch.epoch

/-- A CARD_REPORT changes what the record holds (R291). -/
def reportChanges (x : CardRec) (left flags : Nat) : Bool := decide (left < x.left) || decide (flags ≠ x.flags)

/-- The effect of a CARD_REPORT on the card record (R291, R297). -/
def cardReport (s : State) (id left flags fw : Nat) (stamp : Stamp) : State :=
  match cardGet s id with
  | none => s
  | some x =>
    let (x1, s1) := setLeft s id x (min x.left left)
    let s2 := if bitN flags 0 then tallyPut s1 agCp 0x0884 [(1, x.owner), (5, id)] else s1
    let s3 := if bitN flags 1 then tallyPut s2 agCp 0x0885 [(1, x.owner), (5, id)] else s2
    let x2 := { x1 with flags := flags, fwVer := fw, report := stamp }
    if reportChanges x left flags then cardPut s3 id x2
    else { s3 with links := { s3.links with cards := tblPut id x2 s3.links.cards } }

/-- `REKEY_RESEND`: the frame is resent unchanged every 100 ms (R279); one that has waited for the entry that carries it leaves once that is
acknowledged (R313), and its second counts from then. -/
def execRekeyResend (card : Nat) (s : State) : Host.Outcome State Fault Refusal :=
  .next (match cardGet s card with
    | none => s
    | some x => match x.change with
      | none => s
      | some ch =>
        if !linkServes s || (if ch.due then !(seamReleased s ch.jseq && pressFree s) else decide (s.time.clk < ch.lastTx + 100 * cycMs)) then s
        else rekeySend { s with links := { s.links with
          cards := tblPut card { x with change := some { ch with
            lastTx := s.time.clk, begun := if ch.due then s.time.clk else ch.begun, due := false } } s.links.cards } } ch.queue ch.frame ch.due)

/-- An epoch change fails: the adjacent registers are cleared, and the offered epoch is spent (R280). -/
def rekeyFail (s : State) (id : Nat) : State :=
  match cardGet s id with
  | none => s
  | some x => match x.change with
    | none => s
    | some ch =>
      let s1 := cardPut (adjacentClear s id) id { x with change := none }
      let p := ((queueGet s ch.queue).map (·.port)).getD x.port
      rekeyEnd (lnkEvent s1 p 8) ch.cmd 0x0807 0

/-- `REKEY_TIMEOUT`: no confirmation within 1 s of the first REKEY frame, once that has left (R280); a follower does as the journal says (R309). -/
def execRekeyTimeout (card : Nat) (s : State) : Host.Outcome State Fault Refusal :=
  .next (match (cardGet s card).bind (·.change) with
    | none => s
    | some ch => if s.seam.role = .follower ∨ ch.due ∨ s.time.clk < ch.begun + cycS then s else rekeyFail s card)

/-- A card record of the primary as this member keeps it: times count by its own clock, and the command is found by its token. -/
def cardMirror (s : State) (x : CardRec) : CardRec :=
  { x with confAt := x.confAt.map (fun _ => s.time.clk)
           change := x.change.map (fun ch => { ch with begun := s.time.clk, lastTx := s.time.clk, due := false, cmd := none }) }

/-- The `LINK.REKEY` of a card that a follower holds ends as the change did. -/
def rekeyMirrorEnd (s : State) (id status extra : Nat) : State :=
  match s.tortin.tracker.find? (fun e => e.2.mirror && rekeyCmd id e.2) with
  | some e => endAfter s e.1 status 0 (BitVec.ofNat 64 extra)
  | none => s

/-- A follower takes a card record of the primary (R111, R279, R315): where a change begins, the keys of its epoch enter the adjacent registers, and
the REKEY frame leaves on a duplicated queue; where it is confirmed, the registers move on; where it failed, or the second of the old epoch is over,
the adjacent ones are cleared. -/
def cardTake (s : State) (id : Nat) (y : CardRec) : State :=
  let own := cardGet s id
  let was := own.bind (·.change)
  let put (s : State) : State := { s with links := { s.links with cards := tblPut id (cardMirror s y) s.links.cards } }
  match was, y.change with
  | _, some ch =>
    if was.map (·.epoch) = some ch.epoch then
      { s with links := { s.links with cards := tblPut id { cardMirror s y with change := was } s.links.cards } }
    else rekeySend (put (epochBind s id ch.epoch)) ch.queue ch.frame true
  | some ch, none =>
    if y.conf = ch.epoch then rekeyMirrorEnd (put (epochRotate s id ch)) id stOk ch.epoch
    else rekeyMirrorEnd (put (adjacentClear s id)) id 0x0807 0
  | none, none => if (own.bind (·.confAt)).isSome && y.confAt.isNone then put (adjacentClear s id) else
      { s with links := { s.links with
        cards := tblPut id { y with confAt := if y.confAt.isSome then (own.bind (·.confAt)).or (some s.time.clk) else none } s.links.cards } }

/-- `ADJACENT_EPOCH_CLEAR`: 1 s after confirmation the old epoch's register is cleared (R279); a follower does as the journal says (R309). -/
def execAdjacentEpochClear (card : Nat) (s : State) : Host.Outcome State Fault Refusal :=
  .next (match cardGet s card with
    | none => s
    | some x => match x.confAt with
      | none => s
      | some t =>
        if s.seam.role = .follower ∨ s.time.clk < t + cycS ∨ x.change.isSome then s
        else cardPut (adjacentClear s card) card { x with confAt := none })

/-- `POST_RESET_REKEY`: once Tortin is ready, every card that has queues with no confirmed epoch changes its epoch (R281);
a member that has a group, or forms one again, takes its epochs from the primary. -/
def execPostResetRekey (s : State) : Host.Outcome State Fault Refusal :=
  .next (if !s.tortin.ready || [SeamRole.follower, .fenced, .forming].contains s.seam.role || s.scorch.locked then s
    else s.links.cards.foldl (fun s e =>
      let idle := (cardQueues s e.1).any (fun y => y.2.present.isNone) && (cardQueues s e.1).all (fun y => y.2.present.isNone)
      if idle && rekeyRefusal s e.1 e.2 == stOk && e.2.conf != 0 then rekeyAsk s e.1 e.2 none else s) s)

end Sys2Proof.Machine
end

