-- ==== Sys2Proof/Machine/Links.lean ====
section
/-! DEFINITION. Receiving frames: the checks of R276, acknowledgement, heartbeats, card reports, and delivery into receive
lists; hold rings (spec 10, R276 to R291; spec 02, R46, R47; spec 09, R235, R247). -/

namespace Sys2Proof.Machine

/-! ### Buffers of a received frame (R235) -/

/-- A received frame is dropped for lack of buffers or over the queue's limit. -/
def rxNoBuf (s : State) (q : Nat) : State :=
  queueMod (hmpDrop (sqcSet s aQueEvt 2)) q (fun x => { x with drops := satAdd32 x.drops 1 })

/-- A receive list that has reached the buffer limit drops the frame (R247). -/
def rxOverLimit (s : State) (q b : Nat) : State :=
  queueMod (hmpRelease (sqcSet s aQueEvt 1) b) q (fun x => { x with drops := satAdd32 x.drops 1 })

/-- The chain of a received frame: the port's prefetch passes to the queue, which is charged for every buffer of the frame, and the further ones are
drawn for it; none when the charge fails (R235). It holds the frame `f` from its first byte, without the FCS, and the Stamp of its arrival (R228,
assumption 35). -/
def rxChain (s : State) (p q : Nat) (f : List Byte) (stamp : Stamp) : Option (Nat × State) :=
  let n := min 36 ((f.length + 255) / 256)
  let pre := (portPre s p).take n
  let a := acctOf s (tagQueue q)
  if !acctTakes (pre.foldl (fun s b => bufPut s b { bufGet s b with held := false }) s) a n then none
  else match takeBufs (n - pre.length) s [] with
    | none => none
    | some (bs, s1) =>
      let b := (pre ++ bs).headD 0
      let s2 := chainWrite (chargeNote s a (linkChain s1 (tagQueue q) (pre ++ bs))) b 0 f
      some (b, bufPut s2 b { bufGet s2 b with length := f.length, stamp := stamp })

/-! ### Accepted frames -/

/-- The oldest frame of a queue whose destination is another queue goes on into that queue, once the entry that marks it is acknowledged: its payload,
from the chain's first byte (assumption 35). One that the other queue does not take is dropped, and a tainted one counted (R241, R246, R247, R316). -/
def rxForward (s : State) (q : Nat) : State :=
  match queueGet s q with
  | none => s
  | some x => match x.rxList with
    | [] => s
    | f :: more =>
      if x.dest ≠ 2 ∨ !seamReleased s f.jseq then s
      else
        let s1 := chainSetLen (chainWrite (queuePut s q { x with rxList := more }) f.chain 0 f.payload) f.chain f.payload.length
        let code := enqCode s1 x.fwd x.owner f.chain
        if code = 0 then enqChain s1 x.fwd f.chain f.app
        else
          let s2 := if code = 5 then sqcSet (regAdd s1 aQueTaintRef 1) aQueEvt 0 else s1
          queueMod (hmpRelease s2 f.chain) q (fun x => { x with drops := satAdd32 x.drops 1 })

/-- Every frame of a queue that may go on into another queue does so, oldest first. -/
def rxDrain (s : State) (q : Nat) : State :=
  (((queueGet s q).map (·.rxList)).getD []).foldl (fun s _ => rxForward s q) s

/-- The payload of an accepted DATA frame takes its way (R247, R287, R316): a follower forwards it to the primary where its queue delivers to the
host or a program, and frees it otherwise; elsewhere it enters the receive list, whose frames go on at once where the destination is a queue. Press
has decrypted it in place, where the ciphertext stood. -/
def rxDeliver (s : State) (q : Nat) (x : Queue) (h : FfpHdr) (b : Nat) (stamp : Stamp) (pl : List Byte) : State :=
  if s.seam.role = .follower then
    (if x.dest = 2 then hmpRelease s b
     else seamTo (hmpRelease s b) ((seamOthers s).find? (fun m => (seamPeer s m).role == 1) |>.getD 0)
      (.upFrame q h.epoch h.ctr h.flags h.app stamp pl))
  else if x.limit < queueHeld s q then rxOverLimit s q b
  else
    let s1 := chainWrite s b (h.whole - 20 - pl.length) pl
    let s2 := jot s1 0xFFFF true (.mark [(q, h.epoch, h.ctr)] [])
    let f : RxFrame := { ctr := h.ctr, app := h.app, chain := b, payload := pl, stamp := stamp, jseq := s2.seam.applied }
    rxDrain (evPulse (queueMod s2 q (fun x => { x with rxList := x.rxList ++ [f] })) (srcQueue q)) q

/-- The gaps that a queue of class `CONTROL` knows after a sequence has passed: those that it opens, without the one it closes and those that have
left the window (R277, R284). -/
def gapsAfter (x : Queue) (old : Replay) (seq now : Nat) : Tbl Nat :=
  let new := ((List.range (min 1023 (seq - old.high - 1))).map (fun i => seq - 1 - i)).reverse.map (fun n => (n, now))
  (x.gaps ++ new).filter (fun e => decide (e.1 ≠ seq ∧ max old.high seq < e.1 + 1024))

/-- An accepted DATA frame: acknowledgement owed, gaps noted, then delivery (R283, R284). A follower forwards it, and the primary, which holds the
counters, acknowledges and asks (Table 11-7). A frame of the replaced epoch is delivered, and neither acknowledged nor counted among gaps, for every
frame that answers it would name a counter of the new epoch (DEDUCED, assumption 61). -/
def rxData (s : State) (q : Nat) (h : FfpHdr) (b : Nat) (old : Replay) (stamp : Stamp) (pl : List Byte) : State :=
  let ack (x : Queue) : Queue :=
    if bitN h.flags 0 then
      { x with ackDue := x.ackDue ++ [ffSeq h], ackAt := if x.ackDue.isEmpty then s.time.clk else x.ackAt }
    else x
  let gap (x : Queue) : Queue := if x.cls ≠ 2 then x else { x with gaps := gapsAfter x old (ffSeq h) s.time.clk }
  let s1 := if s.seam.role = .follower then s else queueMod s q (fun x => if h.epoch = x.epoch then gap (ack x) else x)
  match queueGet s1 q with
  | none => s1
  | some x => rxDeliver s1 q x h b stamp pl

/-- The counters that an ACK or a RETRANSMIT_REQ names: base, and a bit for each of 64 (Table 10-3). -/
def ackNames (pl : List Byte) (ctr : Nat) : Bool :=
  let base := beAt pl 0 8
  decide (base ≤ ctr ∧ ctr < base + 64) && bitN (beAt pl 8 8) (ctr - base)

/-- The epoch under which a frame was built. -/
def txEpoch (f : TxFrame) : Nat := beAt f.bytes 4 2

/-- An ACK: the named frames of its epoch are acknowledged; retained `CONTROL` frames are released (R283, R284, R286). -/
def rxAck (s : State) (q epoch : Nat) (pl : List Byte) : State :=
  match queueGet s q with
  | none => s
  | some x =>
    let hit (f : TxFrame) : Bool := decide (f.sent ≠ 0 ∧ txEpoch f = epoch) && ackNames pl f.ctr
    let gone := x.txList.filter hit
    let s1 := queuePut s q { x with txList := x.txList.filter (fun f => !hit f), ackedN := x.ackedN + gone.length }
    let s2 := gone.foldl (fun s f => match f.cmd with
      | some tag => sendNote (txFree s f) tag q 1
      | none => txFree s f) s1
    if gone.isEmpty then s2 else jot s2 0xFFFF false (.mark [] (gone.map (fun f => (q, f.ctr, 1))))

/-- Airing cycles of `num / 16` of a queue's deadline (R284). -/
def deadlinePart (x : Queue) (num : Nat) : Nat := x.deadline * cycUs * num / 16

/-- A RETRANSMIT_REQ: the named `CONTROL` frames of its epoch are sent again, still only before D / 4 (R284). -/
def rxRetransmit (s : State) (q epoch : Nat) (pl : List Byte) : State :=
  queueMod s q (fun x => if x.cls ≠ 2 then x else
    { x with txList := x.txList.map (fun f =>
        if f.sent ≠ 0 && txEpoch f == epoch && ackNames pl f.ctr && decide (s.time.clk < f.firstAt.getD 0 + deadlinePart x 4) then
          { f with again := true } else f) })

/-- The role byte of a HEARTBEAT (Table 10-5). -/
def hbRole (s : State) : Nat := match s.seam.role with
  | .alone | .forming => 0
  | .primary => 1
  | .follower => 2
  | .fenced => 3

/-- The payload of a HEARTBEAT of the device (Table 10-5); `ctr`: the counter of the node HEARTBEAT being answered. -/
def hbPayload (s : State) (ctr : Nat) : List Byte :=
  let flags := b2n s.scorch.locked + 2 * b2n (pwrMode s == 2) + 4 * b2n (bitOf (regGet s aTimeSrcStat) 7)
  beBytes 1 s.seam.index ++ beBytes 1 (hbRole s) ++ beBytes 1 flags ++ zeros 5 ++ beBytes 8 ctr

/-- A HEARTBEAT of this member leaves on a queue with its next sequence (R288, R289); none while no sequence or no key is there. -/
def hbSend (s : State) (q : Nat) (x : Queue) (ctr : Nat) : State :=
  let (n, x1, s1) := takeHb s q x
  let s2 := queuePut s1 q x1
  match n, x1.present with
  | some n, some k =>
    queueSend s2 q (ffpSeal k.key ffHeartbeat 0 q x1.epoch (2 ^ 62 + 2 ^ 60 * s.seam.index + n) (nowStamp s) 0 (hbPayload s ctr))
  | _, _ => s2

/-- An accepted node HEARTBEAT: a loss ends, the heard mask is taken, and the device answers (R288 to R290). -/
def rxHeartbeat (s : State) (q : Nat) (h : FfpHdr) (pl : List Byte) (stamp : Stamp) : State :=
  match queueGet s q with
  | none => s
  | some x =>
    let s1 := if x.hbLost then tallyPut s agCp 0x0881 [(5, x.card.toNat), (4, x.port), (3, q)] else s
    hbSend s1 q { x with hbLast := some s.time.clk, hbStamp := stamp, hbLost := false, heard := byteAt pl 0 % 8 } h.ctr

/-- An accepted CARD_REPORT (R291): one with a foreign card ID is dropped; a follower forwards one that changes the record;
in AIRING one that changes it wakes the member. One on an `AIR` queue that changes nothing leaves its Stamp alone; Tortin takes every report on
another queue. -/
def rxReport (s : State) (q : Nat) (pl : List Byte) (stamp : Stamp) : State :=
  match queueGet s q with
  | none => s
  | some x =>
    let id := beAt pl 0 8
    if id ≠ x.card.toNat then
      tallyPut (lnkCount s x.port 0x144) agCp 0x0886 [(4, x.port), (3, q), (5, id)]
    else match cardGet s id with
      | none => s
      | some r =>
        let left := beAt pl 12 4
        let flags := beAt pl 18 2
        if !reportChanges r left flags && (x.air || s.seam.role == .follower) then
          { s with links := { s.links with cards := tblPut id { r with report := stamp } s.links.cards } }
        else if s.seam.role = .follower then
          seamTo (if sleepy s then wakeUp s 9 else s) ((seamOthers s).find? (fun m => (seamPeer s m).role == 1) |>.getD 0)
            (.upReport id left flags (beAt pl 20 4) stamp)
        else cardReport (if sleepy s then wakeUp s 9 else s) id left flags (beAt pl 20 4) stamp

/-- The first frame of a card that passes under the new epoch confirms its change (R279 step 4); a follower that accepts it tells the primary, which
decides (R309, assumption 61). -/
def rxConfirm (s : State) (card epoch : Nat) : State :=
  match (cardGet s card).bind (·.change) with
  | none => s
  | some ch =>
    if ch.epoch ≠ epoch then s
    else if s.seam.role = .follower then seamTo s ((seamOthers s).find? (fun m => (seamPeer s m).role == 1) |>.getD 0) (.upConfirm card epoch)
    else rekeyConfirm s card

/-! ### The checks (R276) -/

/-- Check 5: the queue takes a frame of this type. -/
def queueTakes (x : Queue) (kind : Nat) : Bool :=
  if kind = ffReport then x.mode == .active || x.mode == .paused
  else x.mode == .active && x.rx && (kind != ffHeartbeat || x.air)

/-- Check 6: the key register that an epoch names, and whether it is the adjacent one. -/
def keyReg (x : Queue) (epoch : Nat) : Option (Bool × KeyReg) :=
  match x.present, x.adjacent with
  | some k, a => if k.epoch = epoch then some (false, k) else match a with
    | some k => if k.epoch = epoch then some (true, k) else none
    | none => none
  | none, some k => if k.epoch = epoch then some (true, k) else none
  | none, none => none

/-- A key register of a queue changed. -/
def keyRegPut (x : Queue) (adj : Bool) (k : KeyReg) : Queue :=
  if adj then { x with adjacent := some k } else { x with present := some k }

/-- A frame that has passed every check counts as accepted (Tables 9-6, 10-12). -/
def rxCounted (x : Queue) (h : FfpHdr) (stamp : Stamp) : Queue :=
  { x with accepted := x.accepted + 1, lastRx := stamp, rxCtr := if ffHbClass h.kind then x.rxCtr else max x.rxCtr h.ctr }

/-- A frame leaves at one of the checks 5 to 9: its chain is freed and its counter advances. -/
def rxDrop (s : State) (p : Nat) (chain : Option Nat) (off : Nat) : State :=
  let s1 := match chain with
    | some b => hmpRelease s b
    | none => s
  lnkCount s1 p off

/-- The Airing domain checks the frame itself, without Press: the heartbeats and the reports on an `AIR` queue (R288, R291). -/
def rxOnAir (x : Queue) (kind : Nat) : Bool := kind == ffHeartbeat || (kind == ffReport && x.air)

/-- Checks 5 to 9 of a frame classified to a queue, and what an accepted one does. The answer says whether it was
accepted, or waits. A frame for which no pipeline has a place waits in its buffers, and meets these checks again when its turn comes (R157). -/
def rxQueue (s : State) (p q : Nat) (x : Queue) (h : FfpHdr) (chain : Option Nat) (stamp : Stamp) : Bool × State :=
  let no (off : Nat) : Bool × State := (false, rxDrop s p chain off)
  if x.held then no 0x138
  else if !queueTakes x h.kind then no 0x130
  else match keyReg x h.epoch with
    | none => (false, queueMod (rxDrop s p chain 0x13C) q (fun x => { x with epochDr := x.epochDr + 1 }))
    | some (adj, k) =>
      if !replayNew k.win (ffHbClass h.kind) (ffSeq h) then
        (false, queueMod (rxDrop s p chain 0x140) q (fun x => { x with replays := x.replays + 1 }))
      else if !rxOnAir x h.kind && !pressFree s then
        (true, { s with links := { s.links with waits := s.links.waits ++ [{ port := p, queue := q, frame := h, chain := chain, stamp := stamp }] } })
      else match gcmOpen k.key (ffpNonce h.queue h.epoch h.ctr) h.raw h.body h.tag with
        | none =>
          let s0 := match chain with
            | some b => chainTaint s b 36
            | none => s
          (false, queueMod (lnkEvent (rxDrop s0 p chain 0x144) p 3) q (fun x => { x with authFail := x.authFail + 1 }))
        | some pl =>
          let s1 := queuePut s q (rxCounted (keyRegPut x adj { k with win := replayMark k.win (ffHbClass h.kind) (ffSeq h) }) h stamp)
          let s2 := if adj then rxConfirm s1 x.card.toNat h.epoch else s1
          let free (s : State) : State := match chain with
            | some b => hmpRelease s b
            | none => s
          (true, if h.kind = ffData then (match chain with
              | some b => rxData s2 q h b k.win stamp pl
              | none => s2)
            else if h.kind = ffAck then free (rxAck s2 q h.epoch pl)
            else if h.kind = ffRetransmit then free (rxRetransmit s2 q h.epoch pl)
            else if h.kind = ffHeartbeat then rxHeartbeat s2 q h pl stamp
            else free (rxReport s2 q pl stamp))

/-- Check 4 and the buffers of the frame: heartbeats and reports stay in the Airing domain and take none. -/
def rxClassify (s : State) (p : Nat) (f : List Byte) (h : FfpHdr) (stamp : Stamp) : Bool × State :=
  match classify s p h with
  | [] => (false, lnkCount s p 0x130)
  | q :: more =>
    let s1 := if more.isEmpty then s else lnkEvent (lnkCount s p 0x134) p 4
    match queueGet s1 q with
    | none => (false, lnkCount s1 p 0x130)
    | some x =>
      if ffHbClass h.kind then rxQueue s1 p q x h none stamp
      else match rxChain s1 p q f stamp with
        | none => (false, rxNoBuf s1 q)
        | some (b, s2) => rxQueue (portReady s2 p) p q x h (some b) stamp

/-- Received frames and octets are counted (Table 10-14). -/
def rxCount (s : State) (p : Nat) (f : List Byte) : State := lnkAdd64 (lnkAdd64 s p 0x100 1) p 0x108 (f.length + 4)

/-- The frame reached the port whole and short enough (check 1): the failing frame's counter otherwise. -/
def rxWhole (s : State) (p : Nat) (f : List Byte) (fcsOk : Bool) : Option State :=
  if !fcsOk then some (lnkCount s p 0x120)
  else if portMax s p < f.length + 4 then some (lnkCount s p 0x124)
  else none

/-- The normal receive path (R276) for frames of the types that a row handles; a frame of another type that passes the
checks 1 to 3 is left to that type's row. -/
def rxNormal (s : State) (p : Nat) (f : List Byte) (fcsOk : Bool) (stamp : Stamp) (kinds : List Nat) : Bool × State :=
  let s1 := rxCount s p f
  match rxWhole s1 p f fcsOk with
  | some s2 => (false, s2)
  | none => match rxEncap s1 p f with
    | .macControl => (false, lnkEvent (lnkCount s1 p 0x160) p 10)
    | .bad => (false, lnkCount s1 p 0x128)
    | .ptp _ => (false, s)
    | .ffp src body =>
      let h := ffpRead src body (f.length + 4)
      if !ffpHdrOk s1 p h then (false, lnkCount s1 p 0x12C)
      else if h.queue = 0xFFFF ∨ !kinds.contains h.kind then (false, s)
      else rxClassify s1 p f h stamp

/-- The frame that Press takes next of those that wait: of `ALARM` queues, then of `VOICE` queues, then the others, the oldest first (R158). -/
def waitNext (s : State) : Option RxWait :=
  let cls (w : RxWait) : Nat := min 2 (((queueGet s w.queue).map (·.cls)).getD 2)
  [0, 1, 2].findSome? (fun g => s.links.waits.find? (fun w => w.queue != 0xFFFF && cls w == g))

/-- The next frame that waits takes a place in Press. -/
def waitStep (s : State) : State :=
  match waitNext s with
  | none => s
  | some w =>
    if !pressFree s then s
    else
      let s1 := { s with links := { s.links with waits := s.links.waits.erase w } }
      match queueGet s1 w.queue with
      | none => s1
      | some x => (rxQueue s1 w.port w.queue x w.frame w.chain w.stamp).2

/-- Every frame that waits takes its turn while Press has places. -/
def waitsDrain (s : State) : State := s.links.waits.foldl (fun s _ => waitStep s) s

/-! ### Hold rings (R46, R47) -/

/-- The hold header of a frame (R46). Its length is that of the frame as the port hands it on, without its FCS (assumption 56). -/
def holdHeader (f : HoldFrame) : List Byte :=
  leBytes 8 f.stamp.toNat ++ leBytes 2 f.bytes.length ++ leBytes 2 f.flags ++ zeros 4

/-- A held frame as it stands in its ring: its header and its bytes, padded to a multiple of 16 B (R46). -/
def holdBytes (f : HoldFrame) : List Byte := holdHeader f ++ f.bytes ++ zeros (roundUp f.bytes.length 16 - f.bytes.length)

/-- Bytes that a held frame takes of its ring. -/
def holdSize (f : HoldFrame) : Nat := (holdBytes f).length

/-- A frame enters the hold ring of its port, or is dropped for lack of room; in AIRING it wakes the device (R46). -/
def holdWrite (s : State) (p : Nat) (f : List Byte) (fcsOk : Bool) (hbFail : Bool) : State :=
  let x := portGet s p
  let h : HoldFrame := { stamp := capStamp s, flags := b2n (!fcsOk) + 2 * b2n hbFail, bytes := f, fcsOk := fcsOk }
  if 0x8000 < (x.ring.map holdSize).foldl (· + ·) 0 + holdSize h then lnkCount s p 0x148
  else
    let s1 := portPut s p { x with ring := x.ring ++ [h] }
    if sleepy s then wakeUp s1 2 else s1

/-- The FFP type of a frame as it arrives, where its encapsulation fits. -/
def rxKind (s : State) (p : Nat) (f : List Byte) : Nat :=
  match rxEncap s p f with
  | .ffp _ body => byteAt body 0 % 16
  | _ => 0

/-- A frame names an `AIR` queue, whose key registers the Airing domain holds (R291). -/
def onAir (s : State) (p : Nat) (f : List Byte) : Bool :=
  match rxEncap s p f with
  | .ffp src body => ((classify s p (ffpRead src body (f.length + 4))).head?.bind (queueGet s)).any (·.air)
  | _ => false

/-- A frame arrives at a port for the row of one type. While the port is on its hold ring the frame is held, but for the heartbeats and the reports
on an `AIR` queue that the Airing domain checks successfully (R46, R288, R291). A HEARTBEAT that fails any check, one whose bytes arrived whole, is held
with flag bit 1 and counted (R288). -/
def rxArrive (s : State) (p : Nat) (f : List Byte) (fcsOk : Bool) (kind : Nat) : State :=
  if !portUp s p then s
  else if (portGet s p).hold then
    let beat := decide (kind = ffHeartbeat) && fcsOk && decide (f.length + 4 ≤ portMax s p)
    if rxKind s p f = kind ∧ (beat ∨ (kind = ffReport ∧ onAir s p f)) then
      match rxNormal s p f fcsOk (capStamp s) [kind] with
      | (true, s1) => s1
      | (false, _) => if beat then holdWrite (lnkCount s p 0x14C) p f fcsOk true else holdWrite s p f fcsOk false
    else holdWrite s p f fcsOk false
  else (rxNormal (waitsDrain (touchFast s)) p f fcsOk (if ffHbClass kind then capStamp s else nowStamp s) [kind]).2

/-- `FFP_DATA_RECEIVED`. -/
def execFfpDataReceived (port : Nat) (frame : List Byte) (fcsOk : Bool) (s : State) : Host.Outcome State Fault Refusal :=
  .next (rxArrive s port frame fcsOk ffData)

/-- `FFP_ACK_RECEIVED`. -/
def execFfpAckReceived (port : Nat) (frame : List Byte) (fcsOk : Bool) (s : State) : Host.Outcome State Fault Refusal :=
  .next (rxArrive s port frame fcsOk ffAck)

/-- `FFP_HEARTBEAT_RECEIVED`. -/
def execFfpHeartbeatReceived (port : Nat) (frame : List Byte) (fcsOk : Bool) (s : State) :
    Host.Outcome State Fault Refusal :=
  .next (rxArrive s port frame fcsOk ffHeartbeat)

/-- `FFP_CARD_REPORT_RECEIVED`. -/
def execFfpCardReportReceived (port : Nat) (frame : List Byte) (fcsOk : Bool) (s : State) :
    Host.Outcome State Fault Refusal :=
  .next (rxArrive s port frame fcsOk ffReport)

/-- `FFP_RETRANSMIT_REQ_RECEIVED`. -/
def execFfpRetransmitReqReceived (port : Nat) (frame : List Byte) (fcsOk : Bool) (s : State) :
    Host.Outcome State Fault Refusal :=
  .next (rxArrive s port frame fcsOk ffRetransmit)

/-! ### Timers of the queues -/

/-- `ACK_SEND_TIMER`: 100 µs after the first unacknowledged acceptance the device sends one ACK for at most 64 consecutive
counters (R283); the rest of the counters, which are due too, go in the next. A follower sends none, for the counters are the primary's (Table 11-7), and
a held queue sends nothing (R293). -/
def execAckSendTimer (queue : Nat) (s : State) : Host.Outcome State Fault Refusal :=
  .next (match queueGet s queue with
    | none => s
    | some x =>
      if x.ackDue.isEmpty ∨ s.time.clk < x.ackAt + 100 * cycUs ∨ x.mode ≠ .active ∨ x.held ∨ !linkDecides s ∨ !portUp s x.port then s
      else
        let base := x.ackDue.foldl min (x.ackDue.headD 0)
        let hit := x.ackDue.filter (fun c => decide (c < base + 64))
        let map := hit.foldl (fun n c => if bitN n (c - base) then n else n + 2 ^ (c - base)) 0
        txControl s queue ffAck (beBytes 8 (2 ^ 63 + base) ++ beBytes 8 map)
          { x with ackDue := x.ackDue.filter (fun c => decide (base + 64 ≤ c)) })

/-- `GAP_RETRANSMIT_REQ`: gaps in a `CONTROL` queue's window that have stayed open for D / 16 are asked for, each once, at most 64 consecutive
sequences in one frame (R284). -/
def execGapRetransmitReq (queue : Nat) (s : State) : Host.Outcome State Fault Refusal :=
  .next (match queueGet s queue with
    | none => s
    | some x =>
      match (x.gaps.filter (fun e => decide (e.2 + deadlinePart x 1 ≤ s.time.clk))).map (·.1) with
      | [] => s
      | base :: more =>
        if !linkDecides s ∨ !portUp s x.port ∨ x.mode ≠ .active ∨ x.held then s
        else
          let hit := base :: more.filter (fun c => decide (c < base + 64))
          let map := hit.foldl (fun n c => n + 2 ^ (c - base)) 0
          txControl s queue ffRetransmit (beBytes 8 (2 ^ 63 + base) ++ beBytes 8 map)
            { x with gaps := x.gaps.filter (fun e => !hit.contains e.1) })

/-- The least interval of a `CONTROL` queue's retransmissions: D / 16, at least 100 µs (R284). -/
def retransInterval (x : Queue) : Nat := max (deadlinePart x 1) (100 * cycUs)

/-- `CONTROL_RETRANSMIT_TIMER`: at D/16, 2 D/16 and 3 D/16 after its first transmission an unacknowledged frame is sent
again, before D/4 (R284). -/
def execControlRetransmitTimer (queue : Nat) (s : State) : Host.Outcome State Fault Refusal :=
  .next (queueMod s queue (fun x => if x.cls ≠ 2 then x else
    { x with txList := x.txList.map (fun f => match f.firstAt with
        | some t =>
          if f.fired < 3 ∧ t + (f.fired + 1) * retransInterval x ≤ s.time.clk ∧ s.time.clk < t + deadlinePart x 4 then
            { f with fired := f.fired + 1, again := true } else f
        | none => f) }))

/-- A frame is given up (R284, R286). -/
def giveUpFrame (q : Nat) (x : Queue) (s : State) (f : TxFrame) : State :=
  let s1 := alarmNote (lnkCount (txFree s f) x.port 0x158) q x
  match f.cmd with
  | some tag => sendNote s1 tag q 2
  | none => s1

/-- `CONTROL_GIVE_UP`: at D/4 after the first transmission an unacknowledged frame is freed and counted; so is a frame of
another class for which a `LINK.SEND` still waits (R284, R286). -/
def execControlGiveUp (queue : Nat) (s : State) : Host.Outcome State Fault Refusal :=
  .next (match queueGet s queue with
    | none => s
    | some x =>
      let late (f : TxFrame) : Bool := match f.firstAt with
        | some t => decide (t + deadlinePart x 4 ≤ s.time.clk)
        | none => false
      let gone := x.txList.filter late
      if gone.isEmpty then s
      else
        let s1 := queuePut s queue { x with txList := x.txList.filter (fun f => !late f), givenUp := x.givenUp + gone.length }
        jot (gone.foldl (giveUpFrame queue x) s1) 0xFFFF false (.mark [] (gone.map (fun f => (queue, f.ctr, 2)))))

/-- The epoch of a frame is present, or was replaced less than 1 s ago (R285). -/
def epochFresh (x : Queue) (f : TxFrame) : Bool :=
  txEpoch f == x.epoch || (x.adjacent.map (·.epoch)) == some (txEpoch f)

/-- A transmit frame is stale (R285): it waits, for its first transmission or for a retransmission, and is older than the queue's deadline, or its epoch
was replaced more than 1 s ago. -/
def txStale (s : State) (x : Queue) (f : TxFrame) : Bool :=
  ((decide (f.sent = 0) || f.again) && decide (f.enqAt + x.deadline * cycUs < s.time.clk)) || !epochFresh x f

/-- `STALE_FRAME_FREE` (R285). A follower frees by its own clock only what it transmits itself, the frames of a duplicated queue; those that it keeps
go when a MARK entry says so (R315, DEDUCED: assumption 61). -/
def execStaleFrameFree (queue : Nat) (s : State) : Host.Outcome State Fault Refusal :=
  .next (match queueGet s queue with
    | none => s
    | some x => if s.seam.role = .follower ∧ !x.dup then s else
      let gone := x.txList.filter (txStale s x)
      let s1 := queuePut s queue { x with txList := x.txList.filter (fun f => !txStale s x f), stale := x.stale + gone.length }
      let s2 := gone.foldl (fun s f =>
        let s1 := alarmNote (lnkCount (txFree s f) x.port 0x15C) queue x
        match f.cmd with
        | some tag => sendNote s1 tag queue 2
        | none => s1) s1
      if gone.isEmpty then s2 else jot s2 0xFFFF false (.mark [] (gone.map (fun f => (queue, f.ctr, 2)))))

/-- `HEARTBEAT_LOSS`: no node HEARTBEAT has passed by the last one's arrival Stamp plus 3 p (R290). -/
def execHeartbeatLoss (queue : Nat) (s : State) : Host.Outcome State Fault Refusal :=
  .next (match queueGet s queue with
    | none => s
    | some x => match x.hbLast with
      | none => s
      | some _ =>
        if !x.air || x.hbLost || decide ((nowStamp s).toNat ≤ x.hbStamp.toNat + 2 ^ 32 * 3 * x.hbPeriod / 1000) then s
        else
          let s1 := queuePut s queue { x with hbLost := true, hbLosses := x.hbLosses + 1 }
          let s2 := tallyPut (lnkEvent (lnkCount s1 x.port 0x150) x.port 2) agCp 0x0880
            [(5, x.card.toNat), (4, x.port), (3, queue)]
          if sleepy s then wakeUp s2 8 else s2)

end Sys2Proof.Machine
end

