-- ==== Sys2Proof/Machine/Rings.lean ====
section
/-! DEFINITION. Submission and completion rings: doorbells, configuration, completion entries and interrupts, halts (spec
03, R51 to R58, R77, R82). -/

namespace Sys2Proof.Machine

/-- Submission ring `k` of a slice. -/
def sqGet (x : Slice) (k : Nat) : SqRing := tblGet {} x.sq k

/-- Completion ring `k` of a slice. -/
def cqGet (x : Slice) (k : Nat) : CqRing := tblGet {} x.cq k

/-- Submission ring `k` of slice `n` set. -/
def sqPut (s : State) (n k : Nat) (r : SqRing) : State :=
  let x := sliceGet s n
  slicePut s n { x with sq := tblSet {} k r x.sq }

/-- Completion ring `k` of slice `n` set. -/
def cqPut (s : State) (n k : Nat) (r : CqRing) : State :=
  let x := sliceGet s n
  slicePut s n { x with cq := tblSet {} k r x.cq }

/-- Entries of a ring by its configuration register (R51). -/
def ringSize (cfg : Word) : Nat := 2 ^ fieldOf cfg 3 0

/-- `EN` and `HALTED` of a configuration register. -/
def ringOn (cfg : Word) : Bool := bitOf cfg 31
def ringHalted (cfg : Word) : Bool := bitOf cfg 29

/-- Base IOVA of a ring. -/
def ringBase (lo hi : Word) : Nat := fieldOf lo 31 12 * 4096 + fieldOf hi 7 0 * 2 ^ 32

/-- Pending entries of a submission ring: head up to tail, modulo the ring size. -/
def sqPending (r : SqRing) : Nat := (r.tail + ringSize r.cfg - r.head) % ringSize r.cfg

/-- A doorbell value `v` moves an index `now`, counted from `from_`, forward within a ring of `size` (R53). -/
def bellOk (size from_ now v : Nat) : Bool :=
  decide (v < size) && decide ((now + size - from_) % size ≤ (v + size - from_) % size)

/-- An error of a submission ring: its bit in `SLC_SQ_ERR` (R53, R58). -/
def sqErrBit (s : State) (n k : Nat) : State :=
  let x := sliceGet s n
  slicePut s n { x with sqErr := sqcWord x.sqErr k }

/-- An error of a completion ring: its bit in `SLC_CQ_ERR` (R57, R58). -/
def cqErrBit (s : State) (n k : Nat) : State :=
  let x := sliceGet s n
  slicePut s n { x with cqErr := sqcWord x.cqErr k }

/-! ### Access to a slice page (R17, R336) -/

/-- The page answers through this function. -/
def pageSeen (s : State) (n fn : Nat) : Bool :=
  let x := sliceGet s n
  x.mode != .unbound && x.port == fn

/-- A write to a page that is served: accepted through the slice's port, with no PASID or its own, while the
slice is active (R336, R345, R352) and no life-cycle transition runs (R475). A discarded one is counted. -/
def pageServed (s : State) (n fn : Nat) (pasid : Option Nat) (f : State → State) : State :=
  if !pageSeen s n fn then (if (sliceGet s n).mode = .unbound then slcIgn s n else s)
  else if (sliceGet s n).mode != .active || s.lc.trans.isSome then slcIgn s n
  else match pasid with
    | some p => if p = (sliceGet s n).pasid then f s else slcIgn s n
    | none => f s

/-- A write to a slice page arrives through a function; `q` is the access, which the endpoint holds while the device sleeps or wakes (R45). -/
def pageWrite (s : State) (n fn : Nat) (pasid : Option Nat) (q : HostReq) (f : State → State) : State :=
  if s.pwr.vault || !portThere s fn then s else hostMeets s 0 q (fun s => pageServed s n fn pasid f)

/-- A write of a word to a slice page. -/
def pageReq (fn n off : Nat) (pasid : Option Nat) (v : Word) : HostReq := .write fn pasid (.page n off) v

/-- A doorbell write is stamped by the front end of its function (R25, Table 2-2). -/
def bellStamp (s : State) (n : Nat) : State := (agentNext s (agFront (sliceGet s n).port)).2

/-- A write of `SQk_TAIL` (R53), which arrived at the Stamp `at_` (R25, R45). -/
def sqBell (s : State) (n k v : Nat) (at_ : Stamp) : State :=
  let r := sqGet (sliceGet s n) k
  let s1 := bellStamp s n
  if bellOk (ringSize r.cfg) r.head r.tail v then sqPut s1 n k { r with tail := v, bell := at_ }
  else sqErrBit (slcIgn s1 n) n k

/-- A receive queue gets its slots back when the host's head passes their completions (R287): the entries from the old
head up to the new one. -/
def rxReturn (s : State) (n k size lo hi : Nat) : State :=
  let gone (i : Nat) : Bool := decide ((i + size - lo) % size < (hi + size - lo) % size)
  (s.links.queues.filter (fun e => e.2.slice == n && e.2.rxCq == k && !e.2.rxOut.isEmpty)).foldl
    (fun s e => { s with links := { s.links with
      queues := tblPut e.1 { e.2 with rxOut := e.2.rxOut.filter (fun i => !gone i) } s.links.queues } }) s

/-- A write of `CQk_HEAD` (R57), which arrived at the Stamp `at_` (R25, R45). The host may give back every entry written: a head is accepted from the present
one up to the device's tail, that tail included (assumption 57). -/
def cqBell (s0 : State) (n k v : Nat) (at_ : Stamp) : State :=
  let s := bellStamp s0 n
  let r := { cqGet (sliceGet s n) k with bell := at_ }
  let size := ringSize r.cfg
  if decide (v < size) && decide ((v + size - r.head) % size ≤ (r.tail + size - r.head) % size) then
    rxReturn (cqPut s n k { r with head := v }) n k size r.head v
  else cqErrBit (slcIgn s n) n k

/-- A write of a configuration register to a ring: nothing is stored where `LOG2SIZE` is outside 4 to 12; while `EN` is 1
only a clear of `EN` acts (R51, R52). The answer is the new word, or none. -/
def cfgWrite (old v keep : Word) : Option Word :=
  if fieldOf v 3 0 < 4 ∨ 12 < fieldOf v 3 0 then none
  else if ringOn old then (if ringOn v then none else some (putBit old 31 false))
  else some ((v &&& ~~~ keep) ||| (old &&& keep))

/-- The bits that no write of `SQk_CFG` changes: `HALTED` and the reserved ones. -/
def sqKeep : Word := 0x3FF0FFF0#32

/-- The bits that no write of `CQk_CFG` changes. -/
def cqKeep : Word := 0x7CE0FFF0#32

/-- The bits of a ring's configuration that a write leaves: in the Maker state the reserved ones take the written value (R423, assumption 15). -/
def keepOf (s : State) (keep : Word) : Word := if lcState s = 0 then keep &&& 0x20000000#32 else keep

/-- A write of `SQk_CFG` (R52): enabling clears the ring's indices, or resumes a halted ring. -/
def sqCfg (s : State) (n k : Nat) (v : Word) : State :=
  let x := sliceGet s n
  let r := sqGet x k
  match cfgWrite r.cfg v (keepOf s sqKeep) with
  | none => slcIgn s n
  | some w0 =>
    let w := if x.alarmOk then w0 else putBit w0 30 false
    if ringOn w && !ringOn r.cfg then
      if ringHalted r.cfg then sqPut s n k { r with cfg := putBit w 29 false }
      else sqPut s n k { r with cfg := w, head := 0, tail := 0, stall := none }
    else sqPut s n k { r with cfg := w }

/-- A write of `CQk_CFG` (R52, R77). -/
def cqCfg (s : State) (n k : Nat) (v : Word) : State :=
  let x := sliceGet s n
  let r := cqGet x k
  match cfgWrite r.cfg v (keepOf s cqKeep) with
  | none => slcIgn s n
  | some w =>
    if x.vecCount ≤ fieldOf v 20 16 then slcIgn s n
    else if ringOn w && !ringOn r.cfg then
      if ringHalted r.cfg then cqPut s n k { r with cfg := putBit w 29 false }
      else cqPut s n k { r with cfg := w, head := 0, tail := 0, phase := true, since := 0 }
    else cqPut s n k { r with cfg := w }

/-- A write of a ring base register; one that would take the ring to 0xFF_0000_0000 or above, or sets address bits below
4 KiB, is discarded (R51). -/
def baseOk (lo hi cfg : Word) (unit : Nat) : Bool :=
  decide (fieldOf lo 11 0 = 0) && decide (ringBase lo hi + unit * ringSize cfg ≤ 0xFF00000000)

/-- A write of `SQk_BASE_LO` or `_HI`. -/
def sqBaseWrite (s : State) (n k : Nat) (hi : Bool) (v : Word) : State :=
  let r := sqGet (sliceGet s n) k
  let r1 := if hi then { r with baseHi := v &&& 0xFF#32 } else { r with baseLo := v &&& 0xFFFFF000#32 }
  if ringOn r.cfg || (!hi && fieldOf v 11 0 != 0) || !baseOk r1.baseLo r1.baseHi r.cfg 64 then slcIgn s n else sqPut s n k r1

/-- A write of `CQk_BASE_LO` or `_HI`. -/
def cqBaseWrite (s : State) (n k : Nat) (hi : Bool) (v : Word) : State :=
  let r := cqGet (sliceGet s n) k
  let r1 := if hi then { r with baseHi := v &&& 0xFF#32 } else { r with baseLo := v &&& 0xFFFFF000#32 }
  if ringOn r.cfg || (!hi && fieldOf v 11 0 != 0) || !baseOk r1.baseLo r1.baseHi r.cfg 32 then slcIgn s n else cqPut s n k r1

/-- A write of `CQk_COAL`: a count of 0 stores 1. While `EN` is 1 it is ignored and counted, as a configuration register of the ring (DESIGN CHOICE:
R52 speaks of the ring's configuration and Table 3-7 gives that name to `CQk_CFG` alone, assumption 57). -/
def cqCoalWrite (s : State) (n k : Nat) (v : Word) : State :=
  let r := cqGet (sliceGet s n) k
  if ringOn r.cfg then slcIgn s n
  else
    let w := v &&& 0xFFFF00FF#32
    cqPut s n k { r with coal := if fieldOf w 7 0 = 0 then putField w 7 0 1 else w }

/-! ### Completions -/

/-- A completion can be written now: the ring is enabled and has a free entry (R57). -/
def cqRoom (s : State) (n k : Nat) : Bool :=
  let r := cqGet (sliceGet s n) k
  ringOn r.cfg && decide ((r.tail + 1) % ringSize r.cfg ≠ r.head) && !hostSilent s

/-- A completion ring's vector is raised: its coalescing starts again. -/
def cqRaise (s : State) (n k : Nat) : State :=
  let r := cqGet (sliceGet s n) k
  raiseVector (cqPut s n k { r with since := 0 }) n (fieldOf r.cfg 20 16)

/-- The interrupt of a completion just written (R77); `urgent`: its command has `IRQ` or `ALARM_CLASS` set. -/
def cqSignal (s : State) (n k : Nat) (urgent : Bool) : State :=
  let r := cqGet (sliceGet s n) k
  match fieldOf r.cfg 25 24 with
  | 1 => cqRaise s n k
  | 2 =>
    if urgent || decide (fieldOf r.coal 7 0 ≤ r.since + 1) then cqRaise s n k
    else cqPut s n k { r with since := r.since + 1, firstAt := if r.since = 0 then s.time.clk else r.firstAt }
  | 3 => if urgent then cqRaise s n k else s
  | _ => s

/-- A completion of 32 B (Table 3-3). -/
def compBytes (token : BitVec 64) (phase : Bool) (index : Nat) (c : Comp) : List Byte :=
  leBytes 8 token.toNat ++ leBytes 2 c.status ++ leBytes 2 (b2n phase * 2 ^ 15 + b2n c.dup * 2 ^ 14 + index % 4096) ++
    leBytes 4 c.len ++ leBytes 8 c.stamp.toNat ++ leBytes 8 c.extra.toNat

/-- A completion is written to a ring that has room: three posted writes, bytes 12–31, 0–7 and 8–11 (R56); the index
advances and the phase inverts on a wrap. -/
def cqWrite (s : State) (n k : Nat) (token : BitVec 64) (index : Nat) (c : Comp) (urgent : Bool) : State :=
  let r := cqGet (sliceGet s n) k
  let bs := compBytes token r.phase index c
  let at_ := ringBase r.baseLo r.baseHi + 32 * r.tail
  let s1 := hostWrite (hostWrite (hostWrite s n (at_ + 12) (bs.drop 12)) n at_ (bs.take 8)) n (at_ + 8) (bytesAt bs 8 4)
  let t := (r.tail + 1) % ringSize r.cfg
  cqSignal (cqPut s1 n k { r with tail := t, phase := if t = 0 then !r.phase else r.phase }) n k urgent

/-! ### Halts and retries (R58, R252) -/

/-- A submission ring halts: `HALTED` set and `EN` cleared, its error bit, a Tally record, and its completion ring's
interrupt, whatever that ring's `IRQ_MODE` (assumption 57). -/
def sqHalt (s : State) (n k : Nat) : State :=
  let r := sqGet (sliceGet s n) k
  let s1 := sqErrBit (sqPut s n k { r with cfg := putBit (putBit r.cfg 29 true) 31 false }) n k
  let s2 := tallyPut s1 agCp 0x0180 [(2, n), (0x0A, stHostFault), (7, ringBase r.baseLo r.baseHi + 64 * r.head)]
  cqRaise s2 n (fieldOf r.cfg 19 16)

/-- A completion ring halts; the completion it could not write stays in the tracker. -/
def cqHalt (s : State) (n k : Nat) : State :=
  let r := cqGet (sliceGet s n) k
  let s1 := cqErrBit (cqPut s n k { r with cfg := putBit (putBit r.cfg 29 true) 31 false }) n k
  cqRaise (tallyPut s1 agCp 0x0180 [(2, n), (0x0A, stHostFault), (7, ringBase r.baseLo r.baseHi + 32 * r.tail)]) n k

/-- The pending retry of an access. -/
def retryOf (s : State) (w : HostAccess) : Option Retry := s.tortin.retries.find? (fun r => r.what == w)

/-- The retry of an access forgotten. -/
def retryDel (s : State) (w : HostAccess) : State :=
  { s with tortin := { s.tortin with retries := s.tortin.retries.filter (fun r => r.what != w) } }

/-- A failed access is set up for its retry 1 µs later. -/
def retryPut (s : State) (w : HostAccess) (fails : Nat) : State :=
  let s1 := retryDel s w
  { s1 with tortin := { s1.tortin with retries := s1.tortin.retries ++ [{ what := w, fails := fails, at_ := s.time.clk }] } }

/-- Failures of an access so far. -/
def retryFails (s : State) (w : HostAccess) : Nat := ((retryOf s w).map (·.fails)).getD 0

/-- A ring access fails: it is retried up to the slice's count, and then the ring halts. -/
def ringFail (s : State) (w : HostAccess) (n : Nat) (halt : State → State) : State :=
  if (sliceGet s n).retry < retryFails s w + 1 then halt (retryDel s w) else retryPut s w (retryFails s w + 1)

/-! ### Rows -/

/-- `SQ_TAIL_WRITE`. -/
def execSqTailWrite (fn slice ring : Nat) (pasid : Option Nat) (value : Word) (s : State) :
    Host.Outcome State Fault Refusal :=
  .next (pageWrite s slice fn pasid (pageReq fn slice (0x10C + 0x20 * ring) pasid value)
    (fun t => sqBell t slice ring (fieldOf value 11 0) (bellAt t)))

/-- `CQ_HEAD_WRITE`. -/
def execCqHeadWrite (fn slice ring : Nat) (pasid : Option Nat) (value : Word) (s : State) :
    Host.Outcome State Fault Refusal :=
  .next (pageWrite s slice fn pasid (pageReq fn slice (0x30C + 0x20 * ring) pasid value)
    (fun t => cqBell t slice ring (fieldOf value 11 0) (bellAt t)))

/-- `SQ_CFG_WRITE`. -/
def execSqCfgWrite (fn slice ring : Nat) (pasid : Option Nat) (value : Word) (s : State) :
    Host.Outcome State Fault Refusal :=
  .next (pageWrite s slice fn pasid (pageReq fn slice (0x108 + 0x20 * ring) pasid value) (fun s => sqCfg s slice ring value))

/-- `CQ_CFG_WRITE`. -/
def execCqCfgWrite (fn slice ring : Nat) (pasid : Option Nat) (value : Word) (s : State) :
    Host.Outcome State Fault Refusal :=
  .next (pageWrite s slice fn pasid (pageReq fn slice (0x308 + 0x20 * ring) pasid value) (fun s => cqCfg s slice ring value))

/-- `CQ_COAL_TIMEOUT`: the coalescing time after the first unsignalled completion has passed (R77). -/
def execCqCoalTimeout (slice ring : Nat) (s : State) : Host.Outcome State Fault Refusal :=
  let r := cqGet (sliceGet s slice) ring
  .next (if r.since ≠ 0 ∧ fieldOf r.cfg 25 24 = 2 ∧ r.firstAt + fieldOf r.coal 31 16 * cycUs ≤ s.time.clk then cqRaise s slice ring
    else s)

/-- `MSIX_VECTOR_UNMASK`: the host unmasks a table entry; a Pending Bit raises the held interrupt (R77). -/
def execMsixVectorUnmask (fn vec : Nat) (s : State) : Host.Outcome State Fault Refusal :=
  .next (if msixEntries s ≤ vec ∨ s.pwr.vault ∨ !portThere s fn then s
    else
      let f := fnGet s fn
      let g := { f with unmasked := tblSet false vec true f.unmasked }
      if tblGet false f.pba vec && !hostSilent s then raiseMsix (fnPut s fn { g with pba := tblSet false vec false f.pba }) fn vec
      else fnPut s fn g)

end Sys2Proof.Machine
end

