-- ==== Sys2Proof/Machine/LinkCmds.lean ====
section
/-! DEFINITION. The 0x08xx commands, the transmit schedulers, delivery to the host, and the states of the ports (spec 10,
R264 to R268, R279, R284 to R287, R300, R301; spec 09, R244, R248). -/

namespace Sys2Proof.Machine

/-! ### Port registers as they read (Table 10-14) -/

/-- Port 4q of a port's quad (R264). -/
def quadPort (p : Nat) : Nat := p / 4 * 4

/-- `RATE_10G` of the port's quad. -/
def quadRate (s : State) (p : Nat) : Bool := bitOf (regGet s (aLnk (quadPort p) 4)) 25

/-- `LNK_STAT`. -/
def lnkStat (s : State) (p : Nat) : Word :=
  let x := portGet s p
  let held := s.links.queues.any (fun e => e.2.port == p && e.2.held)
  BitVec.ofNat 32 (b2n held * 256 + b2n x.hold * 128 + b2n x.localF * 64 + b2n x.remote * 32 + b2n x.anDone * 16 +
    b2n (quadRate s p) * 8 + x.mode.code)

/-- Queues that serve a port. -/
def portQueues (s : State) (p : Nat) : Nat := tblCount (fun x => x.port == p) s.links.queues

/-- The value of a port register at an offset: the computed ones, and the stored ones. -/
def lnkWord (s : State) (p off : Nat) : Word :=
  let top := (portGet s p).ptp.head?
  match off with
  | 0x000 => lnkStat s p
  | 0x004 => putBit (regGet s (aLnk p 4)) 25 (quadRate s p)
  | 0x020 => BitVec.ofNat 32 (s.links.macBase + p)
  | 0x024 => BitVec.ofNat 32 ((s.links.macBase + p) / 2 ^ 32)
  | 0x048 => BitVec.ofNat 32 (portQueues s p)
  | 0x050 => BitVec.ofNat 32 (portGet s p).ptp.length
  | 0x058 => ((top.map (fun e => e.stamp.extractLsb' 0 32)).getD 0)
  | 0x05C => ((top.map (fun e => e.stamp.extractLsb' 32 32)).getD 0)
  | 0x060 => BitVec.ofNat 32 ((top.map (fun e => e.seq % 65536 + e.kind % 16 * 2 ^ 16 + b2n e.sent * 2 ^ 20 +
      e.domain % 256 * 2 ^ 24)).getD 0)
  | 0x064 => 0
  | _ => if (regDesc (.lnk p) off).isSome then regGet s (aLnk p off) else 0

/-! ### Port states (R264, R265, R267) -/

/-- A port is forced idle for at least 1 ms; a disabled port stays disabled. -/
def portIdle (s : State) (p : Nat) : State :=
  let x := portGet s p
  if x.mode = .disabled then s
  else
    let s1 := if x.mode = .up then lnkEvent (lnkCount s p 0x168) p 1 else s
    portPut s1 p { x with mode := .idleForced, anDone := false, idleAt := s.time.clk }

/-- A port's configuration takes a new value: a change of the quad's rate idles all four ports, a port reset the port;
clearing `EN` disables it, and setting it starts training (R264, R267). -/
def portSetCfg (s : State) (p : Nat) (v : Word) : State :=
  let old := regGet s (aLnk p 4)
  let w := if p % 4 = 0 then putBit v 30 false else putBit (putBit v 30 false) 25 false
  let s1 := regPut s (aLnk p 4) w
  let x := portGet s1 p
  let s2 :=
    if !bitOf w 31 then
      (if x.mode = .up then lnkEvent (lnkCount (portPut s1 p { x with mode := .disabled, anDone := false }) p 0x168) p 1
       else portPut s1 p { x with mode := .disabled, anDone := false })
    else if x.mode = .disabled then
      portPut s1 p (if bitOf v 30 then { x with mode := .idleForced, idleAt := s.time.clk } else { x with mode := .training })
    else if bitOf v 30 then portIdle s1 p
    else s1
  if p % 4 = 0 && bitOf old 25 != bitOf w 25 then [p, p + 1, p + 2, p + 3].foldl portIdle s2 else s2

/-- `PORT_RESET` (R267). -/
def execPortReset (port : Nat) (s : State) : Host.Outcome State Fault Refusal := .next (if s.pwr.vault then s else portIdle s port)

/-- `PORT_LINK_UP`: the PCS of an enabled port reaches link up; `remote`: the partner reports a fault. -/
def execPortLinkUp (port : Nat) (remote : Bool) (s : State) : Host.Outcome State Fault Refusal :=
  let x := portGet s port
  .next (if (x.mode = .training ∨ x.mode = .down) ∧ bitOf (regGet s (aLnk port 4)) 31 ∧ pwrMode s ≠ 3 ∧ !s.pwr.vault then
    portReady (lnkEvent (portPut s port { x with
      mode := .up, anDone := bitOf (regGet s (aLnk port 4)) 27 && !quadRate s port, remote := remote, localF := false }) port 0) port
  else s)

/-- `PORT_LINK_DOWN`; `localF`, `remote`: the faults that the port sees. -/
def execPortLinkDown (port : Nat) (localF remote : Bool) (s : State) : Host.Outcome State Fault Refusal :=
  let x := portGet s port
  .next (if x.mode = .up then
    lnkEvent (lnkCount (portPut s port { x with mode := .down, anDone := false, localF := localF, remote := remote }) port
      0x168) port 1
  else s)

/-- `PORT_IDLE_FORCED_END`: after 1 ms the port trains again (R264). -/
def execPortIdleForcedEnd (port : Nat) (s : State) : Host.Outcome State Fault Refusal :=
  let x := portGet s port
  .next (if x.mode = .idleForced ∧ x.idleAt + cycMs ≤ s.time.clk then portPut s port { x with mode := .training } else s)

/-! ### Transmit scheduling (R244, R245) -/

/-- A frame of a queue may leave now; a retransmission, which sends what is stored, only before D / 4 (R284), and another
only while Press has a place for it (R157). -/
def txReady (s : State) (x : Queue) (f : TxFrame) : Bool :=
  (decide (f.sent = 0) || f.again) && epochFresh x f && seamReleased s f.jseq && ctrCovered s x f.ctr && !txStale s x f &&
    (!f.again || decide (s.time.clk < f.firstAt.getD 0 + deadlinePart x 4)) && (f.again || pressFree s)

/-- The next frame of a queue: a retransmission ahead of the new frames, else the oldest (R244, R245). -/
def txNext (s : State) (x : Queue) : Option TxFrame :=
  ((x.txList.filter (fun f => f.again)).find? (txReady s x)).or
    (match x.txList.find? (fun f => decide (f.sent = 0)) with
     | some f => if txReady s x f then some f else none
     | none => none)

/-- A queue of a port that has a frame to send. A follower sends the duplicated queues alone; a fenced member none (R315,
Table 10-6). -/
def txQueueReady (s : State) (p : Nat) (x : Queue) : Bool :=
  x.port == p && x.mode == .active && !x.held && linkServes s && (s.seam.role != .follower || x.dup) && (txNext s x).isSome

/-- Bytes of a frame on the wire, with its encapsulation and FCS. -/
def txLen (s : State) (p : Nat) (f : TxFrame) : Nat := portOverhead s p - 48 + f.bytes.length

/-- Queue numbers in the order of rotation that begins after `last`. -/
def rotate (last : Nat) (qs : List Nat) : List Nat := qs.filter (fun q => decide (last < q)) ++ qs.filter (fun q => decide (q ≤ last))

/-- The token bucket of a `VOICE` queue as it stands now: it fills at the rate cap, 64 kb/s a unit, and holds two frames of
1,536 B (R244). -/
def voiceTokens (s : State) (x : Queue) : Nat := min 3072 (x.tokens + (s.time.clk - x.tokensAt) * x.rate * 8000 / cycS)

/-- Visits that a queue of level 3 needs before its deficit covers its next frame. -/
def drrVisits (s : State) (p : Nat) (x : Queue) : Nat :=
  match txNext s x with
  | none => 0
  | some f => (txLen s p f - x.deficit + x.weight * 256 - 1) / max 1 (x.weight * 256)

/-- Level 3: the queue that deficit round-robin serves next, with the visits made, in rotation after the last one served
unless its deficit still covers its frame. -/
def drrPick (s : State) (p last : Nat) (qs : List Nat) : Option (Nat × Nat) :=
  let need (q : Nat) : Nat := match queueGet s q with
    | some x => drrVisits s p x
    | none => 0
  if qs.contains last && need last == 0 then some (last, 0)
  else (rotate last qs).foldl (fun (b : Option (Nat × Nat)) q =>
    let n := max 1 (need q)
    match b with
    | none => some (q, n)
    | some (_, m) => if n < m then some (q, n) else b) none

/-- Deficits after the visits of a choice: every queue up to the chosen one in rotation was visited `n` times, the later
ones `n - 1` times. -/
def drrCharge (s : State) (last q n : Nat) (qs : List Nat) : State :=
  if n = 0 then s
  else
    let order := rotate last qs
    let upto := (order.takeWhile (· != q)) ++ [q]
    order.foldl (fun s i => queueMod s i (fun x =>
      { x with deficit := x.deficit + (if upto.contains i then n else n - 1) * x.weight * 256 })) s

/-- What a frame leaves behind once it has been sent: the chains of `CONTROL` frames stay until they are acknowledged; the
record of a frame for which a `LINK.SEND` waits stays until then too (R284, R286). -/
def txSent (s : State) (q : Nat) (f : TxFrame) (times : Nat) : State :=
  match queueGet s q with
  | none => s
  | some x =>
    let keep := x.cls == 2 || f.cmd.isSome
    let s1 := if x.cls = 2 then s else txFree s f
    let f1 := { f with sent := f.sent + times, again := false, firstAt := some (f.firstAt.getD s.time.clk)
                       chain := if x.cls = 2 then f.chain else none }
    let list := if keep then x.txList.map (fun g => if g.ctr = f.ctr ∧ txEpoch g = txEpoch f then f1 else g)
      else x.txList.filter (fun g => !(g.ctr == f.ctr && txEpoch g == txEpoch f))
    let first := decide (f.sent = 0)
    let s2 := if first then s1 else lnkCount s1 x.port 0x154
    queuePut s2 q { x with txList := list, sent := x.sent + b2n first, retrans := x.retrans + b2n (!first) }

/-- A queue sends its next frame, `times` in a row. -/
def txServe (s : State) (p q times : Nat) : State :=
  match queueGet s q with
  | none => s
  | some x => match txNext s x with
    | none => s
    | some f =>
      let s1 := (List.range times).foldl (fun s _ => sendFrame s p x.cls (queuePeer s x) f.bytes) s
      txSent s1 q f times

/-- `FRAME_TRANSMITTED`: the port's scheduler chooses the next frame at a frame boundary and sends it. -/
def execFrameTransmitted (port : Nat) (s : State) : Host.Outcome State Fault Refusal :=
  .next (if !portUp s port then s
    else
      let x := portGet s port
      let of_ (p : Queue → Bool) : List Nat := tblKeys (fun y => txQueueReady s port y && p y) s.links.queues
      match (rotate x.lastA (of_ (fun y => y.cls == 0))).head? with
      | some q =>
        let r := ((queueGet s q).map (·.repeats)).getD 1
        txServe (portPut s port { x with lastA := q }) port q r
      | none =>
        let voice := of_ (fun y => y.cls == 1 && (txNext s y).any (fun f => decide (txLen s port f ≤ voiceTokens s y)))
        match (rotate x.lastV voice).head? with
        | some q =>
          let s1 := queueMod (portPut s port { x with lastV := q }) q (fun y =>
            { y with tokens := voiceTokens s y - ((txNext s y).map (txLen s port)).getD 0, tokensAt := s.time.clk })
          txServe s1 port q 1
        | none =>
          let rest := of_ (fun y => y.cls == 2 || y.cls == 3)
          match drrPick s port x.lastD rest with
          | none => s
          | some (q, n) =>
            let s1 := queueMod (drrCharge (portPut s port { x with lastD := q }) x.lastD q n rest) q (fun y =>
              { y with deficit := y.deficit - ((txNext s y).map (txLen s port)).getD 0 })
            txServe s1 port q 1)

/-! ### Delivery to the host (R287) -/

/-- The oldest frame of a queue that delivers to the host is written to its receive ring, with its completion; `ok`: the host takes
it. One that delivers to another queue passes it on. -/
def deliverTry (s : State) (queue : Nat) (ok : Bool) : State :=
  match queueGet s queue with
  | none => s
  | some x => match x.rxList with
    | [] => s
    | f :: more =>
      let ring := HostAccess.cqWrite x.slice x.rxCq
      if x.dest = 2 then rxForward s queue
      else if x.dest ≠ 0 ∨ hostSilent s ∨ !seamReleased s f.jseq ∨ (sliceGet s x.slice).mode ≠ .active then s
      else if 2 ^ x.rxSize < f.payload.length then
        queuePut (hmpRelease s f.chain) queue { x with rxList := more, drops := satAdd32 x.drops 1 }
      else if !cqRoom s x.slice x.rxCq ∨ 2 ^ x.rxSlots ≤ x.rxOut.length then s
      else if !(ok && fnLive s (sliceGet s x.slice).port) then ringFail s ring x.slice (fun s => cqHalt s x.slice x.rxCq)
      else
        let at_ := (cqGet (sliceGet s x.slice) x.rxCq).tail
        let s1 := hostWrite (hmpRelease (retryDel s ring) f.chain) x.slice (x.rxBase + x.rxNext * 2 ^ x.rxSize) f.payload
        let s2 := queuePut s1 queue { x with
          rxList := more, rxNext := (x.rxNext + 1) % 2 ^ x.rxSlots, rxOut := x.rxOut ++ [at_] }
        cqWrite s2 x.slice x.rxCq 0 x.rxNext
          { status := stOk, len := f.payload.length, stamp := f.stamp
            extra := extra2 (queue + f.app % 65536 * 65536) f.ctr } (x.cls == 0)

/-- `RECEIVE_DELIVERY`: while a failed write of the completion ring waits for its retry, nothing is delivered through it. -/
def execReceiveDelivery (queue : Nat) (ok : Bool) (s : State) : Host.Outcome State Fault Refusal :=
  .next (if (queueGet s queue).any (fun x => (retryOf s (.cqWrite x.slice x.rxCq)).isSome) then s else deliverTry s queue ok)

/-! ### The catalogue's entries of the 0x08xx commands (Table 10-8) -/

/-- The bytes of a range are zero. -/
def zeroAt (bs : List Byte) (off n : Nat) : Bool := bytesAt bs off n == zeros n

/-- The peer records of a description are well formed. -/
def peersForm (d : List Byte) (off : Nat) : Bool :=
  [0, 1, 2].all (fun i => zeroAt d (off + 32 * i + 6) 2 && zeroAt d (off + 32 * i + 26) 6)

/-- The three peer records at an offset. -/
def peersAt (d : List Byte) (off : Nat) : List Peer :=
  [0, 1, 2].map (fun i =>
    { mac := bytesAt d (off + 32 * i) 6, ip := bytesAt d (off + 32 * i + 8) 16, udp := leAt d (off + 32 * i + 24) 2 })

/-- The receive ring of a description is well formed. -/
def rxRingForm (d : List Byte) : Bool :=
  decide (byteAt d 28 < 16 ∧ 4 ≤ byteAt d 29 ∧ byteAt d 29 ≤ 12 ∧ 9 ≤ byteAt d 30 ∧ byteAt d 30 ≤ 14 ∧
    leAt d 32 8 % 4096 = 0 ∧ leAt d 32 8 + 2 ^ (byteAt d 29 + byteAt d 30) ≤ 0xFF00000000)

/-- Buffer limit, deadline, weight, rate cap and heartbeat period of a description fit its class and flags. -/
def limitForm (d : List Byte) : Bool := decide (leAt d 22 2 = 0 ∨ 36 ≤ leAt d 22 2)
def deadlineForm (d : List Byte) : Bool := decide (1 ≤ leAt d 24 4 ∧ leAt d 24 4 ≤ 10000000)
def weightForm (cls : Nat) (d : List Byte) : Bool :=
  if cls = 2 ∨ cls = 3 then decide (1 ≤ leAt d 14 2 ∧ leAt d 14 2 ≤ 255) else decide (leAt d 14 2 = 0)
def rateForm (cls : Nat) (d : List Byte) : Bool :=
  if cls = 1 then decide (1 ≤ leAt d 16 2) else decide (leAt d 16 2 = 0)
def periodForm (air : Bool) (d : List Byte) : Bool :=
  if air then decide (1 ≤ byteAt d 11 ∧ byteAt d 11 ≤ 100) else decide (byteAt d 11 = 0)
def destForm (d : List Byte) : Bool :=
  decide (byteAt d 18 ≤ 2 ∧ byteAt d 19 < 16 ∧ leAt d 20 2 < 8192) && (byteAt d 18 != 0 || !bitN (byteAt d 9) 2 || rxRingForm d)

/-- The reserved flags and bytes of a queue description are zero (R5, Table 10-9). -/
def descZero (d : List Byte) : Bool :=
  (List.range 8).all (fun i => [1, 2, 3, 7].contains i || !bitN (byteAt d 9) i) && decide (byteAt d 31 = 0) && zeroAt d 40 24 && peersForm d 64

/-- A queue description is well formed (Table 10-9). -/
def queueForm (d : List Byte) : Bool :=
  let cls := byteAt d 8
  let fl := byteAt d 9
  decide (cls < 4) &&
  (if cls = 0 then decide (1 ≤ byteAt d 10 ∧ byteAt d 10 ≤ 3) else decide (byteAt d 10 = 1)) &&
  periodForm (bitN fl 1) d && decide (leAt d 12 2 < 256) && weightForm cls d && rateForm cls d && destForm d && limitForm d &&
  deadlineForm d && descZero d

/-- A second `AIR` queue of the card, or a 1,025th of the device. -/
def airTaken (s : State) (d : List Byte) : Bool :=
  bitN (byteAt d 9) 1 && ((airQueue s (leAt d 0 8)).isSome || decide (1024 ≤ tblCount (fun x => x.air) s.links.queues))

/-- The sum of the `VOICE` rate caps in kb/s, with one queue's cap replaced. -/
def voiceSum (s : State) (q cap : Nat) : Nat :=
  ((s.links.queues.map (fun e => if e.2.cls = 1 ∧ e.1 ≠ q then e.2.rate else 0)).foldl (· + ·) 0 + cap) * 64

/-- The rate caps exceed 90 % of the stream budget (R319). -/
def voiceOver (s : State) (q cap : Nat) : Bool :=
  inGroup s && decide ((if s.seam.size = 2 then 270000000 else 135000000) < voiceSum s q cap)

/-- A card that a command names: of the issuing owner, or the status (R300, R301). -/
def cardCheck (s : State) (c : Cmd) (id : Nat) : Nat :=
  match cardGet s id with
  | none => 0x0803
  | some x => if x.owner = cOwner s c then stOk else stBadHandle

/-- A queue that a command names, of the issuing owner. -/
def queueCheck (s : State) (c : Cmd) (q : Nat) : Nat :=
  match queueGet s q with
  | none => stBadHandle
  | some x => if x.owner = cOwner s c then stOk else stBadHandle

/-- The queue number that `QUEUE.CREATE` takes. -/
def queueNumber (s : State) (c : Cmd) : Option Nat :=
  if par c 52 2 = 0xFFFF then tblFree s.links.queues 0 8192 else some (par c 52 2)

/-- The family's statuses of `QUEUE.CREATE`. -/
def createEarly (s : State) (c : Cmd) (d : List Byte) : Nat :=
  let q := par c 52 2
  if q ≠ 0xFFFF ∧ (queueGet s q).isSome then 0x0802
  else if (queueNumber s c).isNone ∨ 512 ≤ portQueues s (leAt d 12 2) then 0x0801
  else if byteAt d 8 = 1 && voiceOver s 0x10000 (leAt d 16 2) then 0x0905
  else stOk

/-- Check 7 of a `LINK.SEND`: every queue exists, belongs to the owner and has `TX`. -/
def sendCheck (s : State) (c : Cmd) : Nat :=
  firstBad ((sendQueues c).map (fun q => match queueGet s q with
    | none => stBadHandle
    | some x => if x.owner = cOwner s c ∧ x.tx then stOk else stDenied))

/-- The payload fits the port of every queue (Table 10-1). -/
def sendFits (s : State) (c : Cmd) : Bool :=
  (sendQueues c).all (fun q => match queueGet s q with
    | none => true
    | some x => decide (cInLen c + portOverhead s x.port ≤ portMax s x.port))

/-- The charges of a `LINK.SEND`'s frames, one chain in each queue (R236, R246); none when a queue cannot take its frame
yet. -/
def sendChains (s : State) (payload : List Byte) : List Nat → Option (List Nat × State)
  | [] => some ([], s)
  | q :: qs =>
    match queueGet s q with
    | none => none
    | some x =>
      let n := max 1 ((payload.length + 255) / 256)
      if x.mode ≠ .active ∨ !x.tx ∨ x.limit < queueHeld s q + n then none
      else match hmpFill s (tagQueue q) payload with
        | none => none
        | some (b, s1) => (sendChains s1 payload qs).map (fun r => (b :: r.1, r.2))

/-- What refuses a `LINK.REKEY` of a card: another one that has started is a change of the card that is running, too (R300). -/
def rekeyEarly (s : State) (id : Nat) : Nat :=
  match cardGet s id with
  | some x => if s.tortin.tracker.any (fun e => rekeyCmd id e.2) then 0x0808 else rekeyRefusal s id x
  | none => stOk

/-- The catalogue's entries of the 0x08xx commands; `CARD.ENROL` stands with its family's file. -/
def specLinks (s : State) (c : Cmd) : Option CmdSpec :=
  let d := heldInput c
  let own0 := cOwner s c == 0
  match cOp c with
  | 0x0801 => some {
      zero := noKeys c && parZero c [(61, 1)] && decide (par c 60 1 < 64)
      form := decide (par c 52 2 < 256 ∧ par c 54 1 ≤ 2 ∧ (par c 55 1 ≤ 2 ∨ par c 55 1 = 0xFF) ∧
        (par c 58 2 = 0 ∨ (1518 ≤ par c 58 2 ∧ par c 58 2 ≤ 9216)) ∧ bitsN (par c 60 1) 5 4 ≠ 3 ∧ par c 62 2 < 4096)
      formIn := d.isEmpty || (zeroAt d 56 8 && decide (leAt d 50 2 < 4096))
      inMax := 64, lens := cInLen c == 0 || cInLen c == 64, issuer := own0, preread := if cInLen c = 0 then 0 else 64 }
  | 0x0802 => some { zero := noKeys c && parZero c [(54, 10)], form := decide (par c 52 2 < 256), outMax := 512 }
  | 0x0803 => some {
      zero := decide (cKeyB c = 0) && parZero c [(54, 10)], form := decide (par c 52 2 < 8192 ∨ par c 52 2 = 0xFFFF)
      formIn := queueForm d && !airTaken s d, inMin := 160, inMax := 160, needsKeys := true
      at7 := firstBad [keyCheck s c (cKeyA c) [0x41, 2] kLink true (fun _ => stOk), cardCheck s c (leAt d 0 8)]
      uses := [cKeyA c], thm := true, quorum := some (cOwner s c, qKeyMgmt), early := createEarly s c d, preread := 160
      late := createEarly s c d, free := !s.tortin.tracker.any (fun e => e.2.stage == .started && cOp e.2 == 0x0803 && e.2.work.step == 0) }
  | 0x0804 =>
    let m := par c 54 2
    let q := par c 52 2
    let x := (queueGet s q).getD { cls := 0, port := 0, owner := 0, slice := 0, card := 0, key := 0, deadline := 1 }
    some {
      zero := noKeys c && parZero c [(56, 8)] && decide (m < 256), form := decide (q < 8192)
      formIn := (!bitN m 0 || deadlineForm d) && (!bitN m 1 || weightForm x.cls d) && (!bitN m 2 || rateForm x.cls d) &&
        (!bitN m 3 || periodForm x.air d) && (!bitN m 4 || limitForm d) &&
        (!bitN m 5 || (decide (byteAt d 18 ≤ 2 ∧ byteAt d 19 < 16 ∧ leAt d 20 2 < 8192) &&
          (byteAt d 18 != 0 || !x.rx || rxRingForm d))) && descZero d
      inMin := 160, inMax := 160, at7 := queueCheck s c q
      early := if x.mode = .draining then 0x0802
        else if bitN m 2 && x.cls == 1 && voiceOver s q (leAt d 16 2) then 0x0905 else stOk
      preread := 160 }
  | 0x0805 => some { zero := noKeys c && parZero c [(54, 10)], form := decide (par c 52 2 < 8192)
                     at7 := queueCheck s c (par c 52 2)
                     early := if (queueGet s (par c 52 2)).any (fun x => x.mode == .draining) then 0x0802 else stOk }
  | 0x0806 => some {
      zero := noKeys c && parZero c [(59, 5)] && decide (par c 58 1 < 2)
      form := decide (par c 52 2 + par c 54 2 ≤ 8192), inMax := 9150
      lens := decide (1 ≤ par c 54 2 ∧ par c 54 2 ≤ 512) && sendFits s c
      outMax := if par c 58 1 = 1 then (par c 54 2 + 7) / 8 else 0, at7 := sendCheck s c
      early := if (sendQueues c).any (fun q => (queueGet s q).any (fun x => x.mode == .draining)) then 0x0802 else stOk
      free := (sendChains s (zeros (cInLen c)) (sendQueues c)).isSome }
  | 0x0807 => some { zero := noKeys c && parZero c [(60, 4)], needsKeys := true, at7 := cardCheck s c (par c 52 8), thm := true
                     early := rekeyEarly s (par c 52 8), late := rekeyEarly s (par c 52 8) }
  | 0x0808 => some {
      zero := noKeys c && parZero c [(55, 9)], form := decide (par c 52 2 < 1024 ∧ par c 54 1 < 2)
      formIn := zeroAt d 24 8 && (par c 54 1 == 0 || (decide ((leAt d 0 2 < 256 ∨ leAt d 0 2 = 0xFFFF) ∧ leAt d 6 2 < 8192) &&
        match byteAt d 2 with
        | 1 => decide (byteAt d 3 ≤ 48)
        | 2 => decide (byteAt d 3 ≤ 32)
        | 3 => decide (byteAt d 3 ≤ 128)
        | _ => false))
      inMax := 32, lens := cInLen c == 32 || (cInLen c == 0 && par c 54 1 == 0), issuer := own0, preread := if cInLen c = 0 then 0 else 32
      at7 := if par c 54 1 = 0 then stOk else queueCheck s c (leAt d 6 2) }
  | 0x080A => some { zero := noKeys c && parZero c [(60, 4)], needsKeys := true, at7 := cardCheck s c (par c 52 8), thm := true
                     quorum := some (cOwner s c, qKeyMgmt)
                     early := if (cardQueues s (par c 52 8)).isEmpty then stOk else 0x0805 }
  | 0x080B => some { zero := noKeys c && parZero c [(60, 4)], outMax := 64
                     at7 := if s.links.enrols.any (fun e => e.card.toNat == par c 52 8 && e.owner == cOwner s c) then stOk
                       else cardCheck s c (par c 52 8) }
  | 0x080C => some { zero := noKeys c && parZero c [(55, 9)] && decide (par c 54 1 < 2), form := decide (par c 52 2 < 8192)
                     outMax := 64, at7 := queueCheck s c (par c 52 2) }
  | _ => none

/-! ### Commands -/

/-- A port's IP address registers take an address. -/
def putIp (s : State) (p : Nat) (ip : List Byte) : State :=
  (List.range 4).foldl (fun s i => regPut s (aLnk p (0x30 + 4 * i)) (BitVec.ofNat 32 (leAt ip (4 * i) 4))) s

/-- `PORT.CONFIG` (R264, R268). -/
def execPortConfig (tag : Nat) (io : HostIO) (s : State) : Host.Outcome State Fault Refusal :=
  runIn s tag 0x0801 io (fun c d s =>
    let p := par c 52 2
    let fl := par c 60 1
    let s1 := if d.isEmpty then s
      else
        let ips := [0, 1, 2].map (fun i => bytesAt d (16 * i) 16)
        let s1 := putIp (portPut s p { portGet s p with ips := ips }) p (ips.getD s.seam.index [])
        let s2 := regPut (regPut s1 (aLnk p 0x40) (BitVec.ofNat 32 (leAt d 48 2))) (aLnk p 0x18) (BitVec.ofNat 32 (leAt d 50 2))
        regPut s2 (aLnk p 0x44) (BitVec.ofNat 32 (leAt d 54 2 * 65536 + leAt d 52 2))
    let s2 := if par c 56 2 = 0 then s1 else regPut s1 (aLnk p 0x10) (BitVec.ofNat 32 (par c 56 2))
    let s3 := if par c 58 2 = 0 then s2 else regPut s2 (aLnk p 0x1C) (BitVec.ofNat 32 (par c 58 2))
    let s4 := regPut s3 (aLnk p 0x14) (BitVec.ofNat 32 (par c 62 2))
    let q := quadPort p
    let s5 := if par c 54 1 = 0 ∨ q = p then s4 else portSetCfg s4 q (putBit (regGet s4 (aLnk q 4)) 25 (par c 54 1 == 2))
    let w0 := regGet s5 (aLnk p 4)
    let w1 := if par c 54 1 ≠ 0 ∧ q = p then putBit w0 25 (par c 54 1 == 2) else w0
    let w2 := if par c 55 1 = 0xFF then w1 else putField w1 29 28 (par c 55 1)
    let w3 := putField (putBit (putBit (putBit (putBit w2 31 (bitN fl 0)) 27 (bitN fl 1)) 30 (bitN fl 2)) 26 (bitN fl 3)) 24 23
      (bitsN fl 5 4)
    endOk (portSetCfg s5 p w3) tag)

/-- `PORT.STATUS`: the registers 0x000 to 0x1FC, captured together. -/
def execPortStatus (tag : Nat) (io : HostIO) (s : State) : Host.Outcome State Fault Refusal :=
  runCmd s tag 0x0802 (fun c s =>
    endOut s tag io ((List.range 128).flatMap (fun i => leBytes 4 (lnkWord s (par c 52 2) (4 * i)).toNat)))

/-- A queue's record of a description (Table 10-9). -/
def queueOfDesc (s : State) (c : Cmd) (d : List Byte) : Queue :=
  let fl := byteAt d 9
  let card := leAt d 0 8
  { cls := byteAt d 8, dup := inGroup s && decide (byteAt d 8 ≤ 1), cont := keyHas s (cKeyA c) kContinuity
    flags := ((keyOf s (cKeyA c)).map (·.attrs)).getD 0, rx := bitN fl 2, tx := bitN fl 3, air := bitN fl 1, bulkAck := bitN fl 7, repeats := byteAt d 10, port := leAt d 12 2
    owner := cOwner s c, slice := (cSlice c).getD 0xFFFF, card := BitVec.ofNat 64 card, key := cKeyA c
    epoch := ((cardGet s card).map (·.conf)).getD 0, deadline := leAt d 24 4, weight := leAt d 14 2, rate := leAt d 16 2
    hbPeriod := byteAt d 11, dest := byteAt d 18, core := byteAt d 19, fwd := leAt d 20 2
    limit := if leAt d 22 2 = 0 then 1024 else leAt d 22 2, peers := peersAt d 64, rxCq := byteAt d 28
    rxSlots := byteAt d 29, rxSize := byteAt d 30, rxBase := leAt d 32 8
    held := s.scorch.locked && !keyHas s (cKeyA c) kContinuity }

/-- A queue's configuration as the primary journals it. -/
def queueNote (s : State) (q : Nat) : State := jot s 0xFFFF false (.queue q (queueGet s q))

/-- `QUEUE.CREATE`: the queue is PAUSED at the card's present epoch, and Thimble is asked to bind its link register. -/
def execQueueCreate (tag : Nat) (io : HostIO) (s : State) : Host.Outcome State Fault Refusal :=
  runIn s tag 0x0803 io (fun c d s =>
    if c.work.step ≠ 0 ∨ !thmRoom s then s
    else match queueNumber s c with
      | none => endFault s tag
      | some q =>
        let s1 := queueNote (queuePut s q (queueOfDesc s c d)) q
        match cmdAt s1 tag with
        | none => s1
        | some c1 => thmAsk s1 tag c1 { op := 2, tag := 0, a := cKeyA c, nums := [3, q] })

/-- A queue with the fields that the mask `m` of `QUEUE.MODIFY` names taken from the descriptor. -/
def queueChange (m : Nat) (d : List Byte) (x : Queue) : Queue :=
  let on (i : Nat) : Bool := bitN m i
  let x1 := if on 5 then { x with
      dest := byteAt d 18, core := byteAt d 19, fwd := leAt d 20 2, rxCq := byteAt d 28, rxSlots := byteAt d 29
      rxSize := byteAt d 30, rxBase := leAt d 32 8, rxNext := 0, rxOut := [] } else x
  { x1 with
    deadline := if on 0 then leAt d 24 4 else x1.deadline
    weight := if on 1 then leAt d 14 2 else x1.weight
    rate := if on 2 then leAt d 16 2 else x1.rate
    hbPeriod := if on 3 then byteAt d 11 else x1.hbPeriod
    limit := if on 4 then (if leAt d 22 2 = 0 then 1024 else leAt d 22 2) else x1.limit
    peers := if on 6 then peersAt d 64 else x1.peers
    bulkAck := if on 7 then bitN (byteAt d 9) 7 else x1.bulkAck }

/-- `QUEUE.MODIFY`: the fields that the mask names; frames that wait go where the queue now delivers, in order (R247). -/
def execQueueModify (tag : Nat) (io : HostIO) (s : State) : Host.Outcome State Fault Refusal :=
  runIn s tag 0x0804 io (fun c d s =>
    endOk (queueNote (rxDrain (queueMod s (par c 52 2) (queueChange (par c 54 2) d)) (par c 52 2)) (par c 52 2)) tag)

/-- A queue is put into DRAINING: it accepts nothing more, frees every chain it holds, and its link cache entry is purged
(R160, R248). Waiting `LINK.SEND` frames count as given up. -/
def queueDrain (s : State) (q : Nat) : State :=
  match queueGet s q with
  | none => s
  | some x =>
    let s1 := x.txList.foldl (fun s f => match f.cmd with
      | some t => sendNote s t q 2
      | none => s) s
    let s2 := hmpReleaseAll s1 (tagQueue q)
    queuePut { s2 with links := { s2.links with waits := s2.links.waits.filter (fun w => w.queue != q) } } q { x with
      mode := .draining, txList := [], rxList := [], present := none, adjacent := none, ackDue := [], gaps := [] }

/-- `QUEUE.DESTROY` (R248). -/
def execQueueDestroy (tag : Nat) (s : State) : Host.Outcome State Fault Refusal :=
  runCmd s tag 0x0805 (fun c s =>
    if (queueGet s (par c 52 2)).any (fun x => x.mode != .draining) then queueNote (queueDrain s (par c 52 2)) (par c 52 2) else s)

/-- `QUEUE_DRAINED`: a DRAINING queue that holds no buffer is FREE, and its `QUEUE.DESTROY` completes. -/
def execQueueDrained (queue : Nat) (s : State) : Host.Outcome State Fault Refusal :=
  .next (match queueGet s queue with
    | none => s
    | some x =>
      if x.mode ≠ .draining ∨ queueHeld s queue ≠ 0 then s
      else
        let s1 := queueNote { s with links := { s.links with queues := tblDel queue s.links.queues } } queue
        match s.tortin.tracker.find? (fun e => e.2.stage == .started && cOp e.2 == 0x0805 && par e.2 52 2 == queue) with
        | some e => endOk s1 e.1
        | none => s1)

/-- The next transmit counter of each queue, and the queues with it taken. -/
def takeCtrs (s : State) (qs : List Nat) : List Nat × State :=
  qs.foldl (fun (a : List Nat × State) q => match queueGet a.2 q with
    | none => a
    | some x =>
      let (n, x1, s') := takeCtr a.2 q x
      (a.1 ++ [n], queuePut s' q x1)) ([], s)

/-- `LINK.SEND` puts its frames, whose chains are filled, into the queues' transmit lists (R286, R313). -/
def sendFrames (s : State) (tag : Nat) (c : Cmd) (d : List Byte) (qs : List Nat) (chains : List Nat) (at_ : Stamp) : State :=
  let (ctrs, s2) := takeCtrs s qs
  let s3 := jot s2 (jslice c) true (.send (cToken c) at_ (qs.zip ctrs))
  let wait := par c 58 1 == 1
  let s4 := (List.range qs.length).foldl (fun s i => match queueGet s (qs.getD i 0) with
    | none => s
    | some x => txData s (qs.getD i 0) x (ctrs.getD i 0) (par c 56 2) (nowStamp s) (chains[i]?) (if wait then some tag else none)
        s3.seam.applied d) s3
  let s5 := match cmdAt s4 tag with
    | some c1 => cmdPut s4 tag { c1 with effect := true, work := { step := 1, nums := qs } }
    | none => s4
  if wait then s5 else endOk s5 tag 0 (extra2 qs.length 0)

/-- `LINK.SEND`: one frame for each queue, all with one Stamp; in a group they leave once the SEND entry is acknowledged
(R286, R313). With `WAIT_ACK` the command ends when every frame is acknowledged or given up. -/
def execLinkSend (tag : Nat) (io : HostIO) (s : State) : Host.Outcome State Fault Refusal :=
  runIn s tag 0x0806 io (fun c d s =>
    if c.mirror then s
    else if c.work.step = 0 then
      match sendChains s d (sendQueues c) with
      | none => s
      | some (chains, s1) => sendFrames s1 tag c d (sendQueues c) chains (nowStamp s)
    else if c.work.nums.any (fun n => decide (n < 2 ^ 16)) then s
    else
      let acked := c.work.nums.map (fun n => n / 2 ^ 16 == 1)
      let n := (acked.filter (·)).length
      let map := (List.range acked.length).foldl (fun m i => if acked.getD i false then m + 2 ^ i else m) 0
      endOut s tag io (leBytes ((acked.length + 7) / 8) map) (if n = acked.length then stOk else 0x080B)
        (extra2 acked.length n))

/-- `LINK.REKEY` (R279): Thimble is asked for the keys of the next epoch. The primary alone runs the change (R309); one that has been promoted takes
a change that runs already for its own (R324). -/
def execLinkRekey (tag : Nat) (s : State) : Host.Outcome State Fault Refusal :=
  runCmd s tag 0x0807 (fun c s =>
    match cardGet s (par c 52 8) with
    | none => endFault s tag
    | some x =>
      if c.mirror then s
      else match x.change with
        | some ch => if ch.cmd.isSome then s else
          { s with links := { s.links with cards := tblPut (par c 52 8) { x with change := some { ch with cmd := some tag } } s.links.cards } }
        | none => thmAsk s tag c { op := 0xD, tag := 0, nums := [par c 52 8, x.offered + 1] })

/-- `LINK.CLASSIFY` (R270). -/
def execLinkClassify (tag : Nat) (io : HostIO) (s : State) : Host.Outcome State Fault Refusal :=
  runIn s tag 0x0808 io (fun c d s =>
    let r : ClassRule := { port := leAt d 0 2, kind := byteAt d 2, bits := byteAt d 3, header := leAt d 4 2
                           target := leAt d 6 2, addr := bytesAt d 8 16 }
    let t := if par c 54 1 = 1 then tblPut (par c 52 2) r s.links.rules else tblDel (par c 52 2) s.links.rules
    endOk { s with links := { s.links with rules := t } } tag)

/-- `CARD.RETIRE`: the COUNTER record without the card, then the end of its key, then of its record. -/
def execCardRetire (tag : Nat) (ok0 ok1 : Bool) (s : State) : Host.Outcome State Fault Refusal :=
  runCmd s tag 0x080A (fun c s =>
    let id := par c 52 8
    match cardGet s id with
    | none => endFault s tag
    | some x =>
      if c.work.step ≠ 0 ∨ !thmRoom s then s
      else match jrnCounter s ok0 ok1 x.owner (counterRec s x.owner id none) with
        | none => endAfter (jrnFailed s ok0 ok1) tag 0x0406
        | some s1 => thmAsk s1 tag c { op := 9, tag := 0, a := x.key })

/-- The record of a retired card is removed. -/
def cardDrop (s : State) (id : Nat) : State :=
  jot { s with links := { s.links with cards := tblDel id s.links.cards } } 0xFFFF false (.card id none)

/-- State of a card (Table 10-11). -/
def cardState (x : CardRec) : Nat := if x.left = 0 then 4 else if x.left ≤ x.total / 10 then 3 else 2

/-- `CARD.STATUS` (Table 10-11). -/
def execCardStatus (tag : Nat) (io : HostIO) (s : State) : Host.Outcome State Fault Refusal :=
  runCmd s tag 0x080B (fun c s =>
    let id := par c 52 8
    match cardGet s id with
    | some x => endOut s tag io (leBytes 8 id ++ leBytes 4 x.key ++ leBytes 2 x.owner ++ leBytes 2 x.port ++ leBytes 2 x.conf ++
        leBytes 2 x.offered ++ leBytes 4 x.total ++ leBytes 4 x.left ++ leBytes 2 x.flags ++ leBytes 1 (cardState x) ++
        leBytes 1 (cardQueues s id).length ++ leBytes 8 x.report.toNat ++ leBytes 8 x.enrolCt.toNat ++ leBytes 4 x.fwVer ++
        zeros 12)
    | none => match s.links.enrols.find? (fun e => e.card.toNat == id) with
      | some e => endOut s tag io (leBytes 8 id ++ zeros 4 ++ leBytes 2 e.owner ++ leBytes 2 e.port ++ zeros 4 ++
          leBytes 4 e.total ++ leBytes 4 e.total ++ zeros 2 ++ [1] ++ zeros 33)
      | none => endFault s tag)

/-- `LINK.STATS` (Table 10-12). -/
def execLinkStats (tag : Nat) (io : HostIO) (s : State) : Host.Outcome State Fault Refusal :=
  runCmd s tag 0x080C (fun c s =>
    let q := par c 52 2
    match queueGet s q with
    | none => endFault s tag
    | some x =>
      let s1 := endOut s tag io (leBytes 8 x.sent ++ leBytes 8 x.accepted ++ leBytes 4 x.retrans ++ leBytes 4 x.givenUp ++
        leBytes 4 x.authFail ++ leBytes 4 x.replays ++ leBytes 4 x.epochDr ++ leBytes 4 x.stale ++ leBytes 4 x.hbLosses ++
        leBytes 4 x.ackedN ++ leBytes 8 x.lastRx.toNat ++ leBytes 2 x.epoch ++ zeros 6)
      if par c 54 1 = 1 then queueMod s1 q (fun x => { x with
        sent := 0, accepted := 0, retrans := 0, givenUp := 0, authFail := 0, replays := 0, epochDr := 0, stale := 0
        hbLosses := 0, ackedN := 0 }) else s1)

end Sys2Proof.Machine
end

