-- ==== Sys2Proof/Machine/Time.lean ====
section
/-! DEFINITION. The Stamp counter, its correction, calendar time, the RTC, `PPS_IN` and `PPS_OUT`, and the 0x0Bxx
commands that set them (spec 02). -/

namespace Sys2Proof.Machine

/-! ### The increment (R23, R29) -/

/-- The nominal increment, with 32 fraction bits: 17.179 869 184 LSB (R23). -/
def nominalInc := 0x112E0BE827

/-- The increment registers take a value with 32 fraction bits (R23). -/
def incPut (s : State) (n : Nat) : State :=
  regPut (regSetField s aTimeIncInt 7 0 (n / 2 ^ 32)) aTimeIncFrac (BitVec.ofNat 32 n)

/-- The rate of a correction (Table 2-4). -/
def corrRate : Correction → Nat
  | .none => nominalInc
  | .slew true => 10005 * nominalInc / 10000
  | .slew false => 9995 * nominalInc / 10000
  | .backward => nominalInc / 2

/-- What a correction takes off the offset in one Airing cycle. -/
def corrTake : Correction → Nat
  | .none => 0
  | .slew _ => 5 * nominalInc / 10000
  | .backward => nominalInc - nominalInc / 2

/-- `TIME_CTRL.HOLD`: the servo is frozen and corrections are suspended. -/
def timeHeld (s : State) : Bool := bitOf (regGet s aTimeCtrl) 9

/-- `TIME_CTRL.SRC` as it reads: 3 while the device is a follower (R32). -/
def timeSrc (s : State) : Nat := if s.seam.role = .follower then 3 else regField s aTimeCtrl 2 0

/-- A correction begins: `TIME_INC` takes its rate and the servo's increment is kept (R23, R29). Under `HOLD` it stands suspended (assumption
46). `left` is what it takes up, in 2^-32 Stamp LSBs, and `stop` the offset at which it ends. -/
def corrBegin (s : State) (c : Correction) (left : Nat) (stop : Int) : State :=
  let s1 := { s with time := { s.time with
    corr := c, corrLeft := left, corrEnd := stop, incHeld := if s.time.corr = .none then timeInc s else s.time.incHeld } }
  if timeHeld s then s1 else incPut s1 (corrRate c)

/-- A write of `TIME_CTRL` changed `HOLD` while a correction stands: it is suspended at the servo's increment, or goes on (assumption 46). -/
def corrHold (s : State) (was : Bool) : State :=
  if s.time.corr = .none ∨ timeHeld s = was then s
  else incPut s (if timeHeld s then s.time.incHeld else corrRate s.time.corr)

/-- One RTC step of an Airing cycle: the RTC adds 512 LSBs at each 32.768 kHz tick, as `TIME_RTC_TRIM` corrects it
(R38). The crystal is counted by Airing cycles (assumption 2). -/
def rtcCycle (s : State) : State :=
  let trim := toSigned 32 (regGet s aTimeRtcTrim).toNat
  let n := s.time.rtcPart + ((1000000000 + trim) * 32768).toNat
  if n < cycS * 1000000000 then { s with time := { s.time with rtcPart := n } }
  else { s with time := { s.time with rtcPart := n - cycS * 1000000000, rtc := s.time.rtc + 512 } }

/-- A correction ends at an offset: the servo takes over again, from the increment it had (R29). -/
def endCorrection (s : State) (o : Int) : State :=
  match s.time.corr with
  | .none => s
  | _ =>
    let s1 := incPut { s with time := { s.time with corr := .none, corrLeft := 0 } } s.time.incHeld
    tallyPut (sqcSet (regSetBit s1 aTimeSrcStat 5 false) aTimeStat 2) agAiring 0x0B81 [(0x0E, ofSigned 64 o)]

/-- A correction in progress takes up one cycle's share, and ends once nothing is left (R29). -/
def corrCycle (s : State) : State :=
  if s.time.corr = .none ∨ timeHeld s then s
  else if s.time.corrLeft ≤ corrTake s.time.corr then endCorrection s s.time.corrEnd
  else { s with time := { s.time with corrLeft := s.time.corrLeft - corrTake s.time.corr } }

/-- The whole second of the clock that `TIME_CTRL.PPSOUT` selects; none when it selects none (R36). -/
def ppsClock (s : State) : Option Nat :=
  match regField s aTimeCtrl 7 6 with
  | 1 => some ((nowStamp s).toNat / 2 ^ 32)
  | 2 => if bitOf (regGet s aTimeSrcStat) 7 then none else some ((nowCt s).toNat / 2 ^ 24)
  | _ => none

/-- Which whole seconds the step from `s` to `t` crossed: of the clock of `PPS_OUT`, and of calendar time (R36, R38). -/
def secondsMark (s t : State) : State :=
  { t with time := { t.time with
    ppsDue := (ppsClock t).isSome && (ppsClock s).isSome && ppsClock t != ppsClock s
    rtcDue := !bitOf (regGet t aTimeSrcStat) 7 && (nowCt t).toNat / 2 ^ 24 != (nowCt s).toNat / 2 ^ 24 } }

/-- One Airing cycle of 4 ns: the accumulator takes the increment, a correction its share, the RTC runs (R23, R29, R38). In VAULT only the
RTC runs (R48). -/
def timeCycle (s : State) : State :=
  if s.pwr.vault then
    let s1 := rtcCycle s
    { s1 with time := { s1.time with clk := s.time.clk + 1 } }
  else
    let s1 := { s with time := { s.time with acc := s.time.acc + BitVec.ofNat 96 (timeInc s), clk := s.time.clk + 1 } }
    secondsMark s (rtcCycle (corrCycle s1))

/-! ### Correction of offsets (Table 2-4) -/

/-- Nanoseconds as 2^-32 Stamp LSBs. -/
def nsToAcc (n : Nat) : Nat := 2 ^ 64 * n / 1000000000

/-- A forward step: the Stamp takes the amount in one cycle (R29). -/
def stepForward (s : State) (amount : Nat) : State :=
  let s1 := secondsMark s { s with time := { s.time with acc := s.time.acc + BitVec.ofNat 96 amount } }
  tallyPut (sqcSet s1 aTimeStat 0) agAiring 0x0B82 [(0x0E, (nowStamp s).toNat), (0x0F, (nowStamp s1).toNat)]

/-- A backward step: half of the nominal rate (R29). -/
def stepBackward (s : State) (o : Int) (left : Nat) (stop : Int) : State :=
  tallyPut (sqcSet (regSetBit (corrBegin s .backward left stop) aTimeSrcStat 5 true) aTimeStat 0) agAiring 0x0B82
    [(0x0E, (nowStamp s).toNat), (0x0F, ofSigned 64 o)]

/-- What a correction of a measured offset takes up: down to 1 µs (R29). -/
def corrSpan (o : Int) : Nat := nsToAcc (o.natAbs - 1000)

/-- The offset of 1 µs on the side of a measured offset. -/
def corrStop (o : Int) : Int := if o < 0 then -1000 else 1000

/-- A slew begins toward zero offset (R29). -/
def slewBegin (s : State) (o : Int) : State :=
  tallyPut (sqcSet (regSetBit (corrBegin s (.slew (decide (o < 0))) (corrSpan o) (corrStop o)) aTimeSrcStat 5 true) aTimeStat 1)
    agAiring 0x0B80 [(0x0E, ofSigned 64 o)]

/-- A correction in progress goes on with a new measurement of what is left. -/
def corrMore (s : State) (o : Int) : State :=
  { s with time := { s.time with corrLeft := corrSpan o, corrEnd := corrStop o } }

/-- The servo's choice of an increment, within 100 ppm of nominal (R23); the law is open: a free value (assumption 3). -/
def servoAdjust (s : State) : State :=
  let (v, s1) := freeWord s
  let span := nominalInc / 10000
  incPut s1 (nominalInc - span + v.toNat % (2 * span + 1))

/-- The action on an offset of `o` nanoseconds (Table 2-4). A measurement during a correction says anew what is left; one on the other side ends
it. -/
def correct (s : State) (o : Int) : State :=
  if timeHeld s then s
  else if o.natAbs ≤ 1000 then servoAdjust (endCorrection s o)
  else if o < -1000000 then stepForward (endCorrection s o) (nsToAcc o.natAbs)
  else if s.time.corr = .backward ∧ 0 < o then corrMore s o
  else if 1000000 < o then stepBackward (endCorrection s o) o (corrSpan o) (corrStop o)
  else if s.time.corr = .slew (decide (o < 0)) then corrMore s o
  else slewBegin (endCorrection s o) o

/-- `TIME_OFFSET`: nanoseconds, signed, saturating. -/
def putOffset (s : State) (a : Nat) (o : Int) : State :=
  regPut s a (BitVec.ofNat 32 (ofSigned 32 (max (-(2 ^ 31 : Int)) (min o (2 ^ 31 - 1)))))

/-- A measurement of the offset: kept for the servo, counted for the lock (R31, R34). -/
def measure (s : State) (o : Int) : State :=
  let run := if o.natAbs ≤ 100 then s.time.lockRun + 1 else 0
  let s1 := { s with time := { s.time with meas := s.time.meas ++ [o], lockRun := run } }
  let s2 := regSetField (regSetBit (putOffset s1 aTimeOffset o) aTimeSrcStat 4 false) aTimeSrcStat 2 0
    (timeSrc s)
  let locked := bitOf (regGet s2 aTimeSrcStat) 3
  if 1000 < o.natAbs then regSetBit s2 aTimeSrcStat 3 false
  else if decide (16 ≤ run) && !locked then sqcSet (regSetBit s2 aTimeSrcStat 3 true) aTimeStat 4
  else s2

/-- The mean of measurements, rounded toward negative infinity. -/
def meanOf (xs : List Int) : Int := xs.foldl (· + ·) 0 / (max xs.length 1 : Nat)

/-- The device steers by its own source: it is no follower (R32). -/
def ownSource (s : State) : Bool := s.seam.role != .follower

/-- The measurements on whose mean the servo acts: the last 20 of a follower (R31); a source of the device's own gives one a second, and the servo acts
on those since its last action. -/
def servoTake (s : State) : List Int :=
  if ownSource s then s.time.meas else if s.time.meas.length < 20 then [] else s.time.meas.drop (s.time.meas.length - 20)

/-- The servo acts: once per millisecond, when it has its measurements (R31). -/
def servoReady (s : State) : Bool :=
  !s.pwr.vault && decide (s.time.servoAt + cycMs ≤ s.time.clk) && !(servoTake s).isEmpty

/-- `SERVO_UPDATE`: the servo acts on the mean of the measurements (R31). -/
def execServoUpdate (s : State) : Host.Outcome State Fault Refusal :=
  .next (if servoReady s then
    correct { s with time := { s.time with meas := [], servoAt := s.time.clk } } (meanOf (servoTake s))
  else s)

/-- `TIME_STEP`: `TIME_ADJ` is added at the next Airing cycle; a negative value runs as a backward step, which takes back the whole value (Table
2-9). -/
def execTimeStep (s : State) : Host.Outcome State Fault Refusal :=
  .next (if !s.time.stepAsked || s.pwr.vault then s
    else
      let s1 := { s with time := { s.time with stepAsked := false } }
      let adj := toSigned 64 (regGet64 s aTimeAdjLo aTimeAdjHi).toNat
      if 0 ≤ adj then stepForward s1 (adj.toNat * 2 ^ 32)
      else stepBackward s1 ((adj.natAbs : Int) * 1000000000 / 2 ^ 32) (adj.natAbs * 2 ^ 32) 0)

/-! ### Sources (R33, R34) -/

/-- Loss of the time source: holdover, at the servo's last increment; in AIRING it wakes the device (R33, R34, R42). `SRC_ACTIVE` reads 0 while no
source is in use (assumption 56). -/
def sourceLost (s : State) : State :=
  if bitOf (regGet s aTimeSrcStat) 4 then s
  else
    let s1 := regSetBit (regSetBit (endCorrection s s.time.corrEnd) aTimeSrcStat 4 true) aTimeSrcStat 3 false
    wakeUp (sqcSet (regSetField { s1 with time := { s1.time with lockRun := 0 } } aTimeSrcStat 2 0 0) aTimeStat 3) 10

/-- The fraction of calendar time as an offset in nanoseconds, from −0.5 s to +0.5 s (R33). -/
def ctFraction (s : State) : Int :=
  let f : Nat := ((regGet64 s aTimeCtBaseLo aTimeCtBaseHi + (nowStamp s >>> 8)).toNat) % 2 ^ 24
  let g : Int := if f < 2 ^ 23 then (f : Int) else (f : Int) - 2 ^ 24
  g * 1000000000 / 2 ^ 24

/-- `PPS_IN_EDGE` (R33). While calendar time from PTP stands refused the device stays in holdover and takes no measurement (R35). -/
def execPpsInEdge (s : State) : Host.Outcome State Fault Refusal :=
  let near := match s.time.lastPps with
    | some t => decide (s.time.clk - t < 225000000)
    | none => false
  .next (if s.pwr.vault then s
    else if near then sqcSet s aTimeStat 7
    else
      let (_, s1) := agentNext s agAiring
      let s2 := evPulse (regPut64 { s1 with time := { s1.time with lastPps := some s.time.clk } } aTimePpsLo aTimePpsHi
        (capStamp s)) srcPpsIn
      if timeSrc s = 1 ∧ !s.time.ctBack then measure s2 (ctFraction s) else s2)

/-- The source has given nothing for so many seconds, since its last sign and since it was selected (R33, R34). -/
def sourceSilent (s : State) (last : Option Nat) (secs : Nat) : Bool :=
  !s.pwr.vault && decide (max (last.getD 0) s.time.srcAt + secs * cycS ≤ s.time.clk)

/-- `PPS_SOURCE_TIMEOUT`: no edge accepted for 2 s (R33). -/
def execPpsSourceTimeout (s : State) : Host.Outcome State Fault Refusal :=
  .next (if timeSrc s = 1 ∧ sourceSilent s s.time.lastPps 2 then sourceLost s else s)

/-- `PTP_SYNC_TIMEOUT`: no Sync accepted for 3 s (R34). -/
def execPtpSyncTimeout (s : State) : Host.Outcome State Fault Refusal :=
  .next (if timeSrc s = 2 ∧ sourceSilent s s.time.lastSync 3 then sourceLost s else s)

/-- `PPS_OUT_SECOND`: the selected clock crossed a whole second in this cycle and the pin rises (R36). -/
def execPpsOutSecond (s : State) : Host.Outcome State Fault Refusal :=
  .next (if s.pwr.vault || !s.time.ppsDue then s
    else { s with time := { s.time with ppsDue := false, ppsOut := true, ppsRise := s.time.clk } })

/-- `PPS_OUT_PULSE_END`: the width elapses and the pin falls (R36). -/
def execPpsOutPulseEnd (s : State) : Host.Outcome State Fault Refusal :=
  .next (if s.time.ppsOut && decide (s.time.ppsRise + s.time.ppsWidth * cycMs ≤ s.time.clk) then
    { s with time := { s.time with ppsOut := false } } else s)

/-- `RTC_COPY`: calendar time crossed a whole second in this cycle, and the RTC takes that second with a fraction of zero (R38). While
`TIME_UNSET` is set no copy is made (assumption 56). -/
def execRtcCopy (s : State) : Host.Outcome State Fault Refusal :=
  .next (if s.pwr.vault || !s.time.rtcDue then s
    else { s with time := { s.time with
      rtcDue := false, rtc := BitVec.ofNat 64 (2 ^ 24 * ((nowCt s).toNat / 2 ^ 24)), rtcPart := 0 } })

/-- `RTC_CRYSTAL_STOP` (R39). -/
def execRtcCrystalStop (s : State) : Host.Outcome State Fault Refusal :=
  .next (sqcSet (regSetBit s aTimeSrcStat 7 true) aTimeStat 10)

/-- The next reference in ascending order after the present one, wrapping, that is enabled and gives edges (R40). -/
def nextRef (s : State) (alive : Nat) : Option Nat :=
  let cur := regField s aTimeSrcStat 15 12
  let en := regField s aPwrAirRef 31 16
  ((List.range 15).map (fun i => (cur + 1 + i) % 16)).find? (fun r => bitN en r && bitN alive r)

/-- `AIRING_REF_LOSS`: no edge from the present reference for 1 µs; `alive` are the references that give edges (R40,
R41). `DEGRADED` stays set once it is (assumption 56). -/
def execAiringRefLoss (alive : Nat) (s : State) : Host.Outcome State Fault Refusal :=
  let cur := regField s aTimeSrcStat 15 12
  .next (if s.pwr.vault then s
    else match nextRef s alive with
    | some r => tallyPut (sqcSet (regSetField s aTimeSrcStat 15 12 r) aTimeStat 5) agAiring 0x0B83 [(0x0E, cur), (0x0F, r)]
    | none => sqcSet (regSetBit s aTimeSrcStat 6 true) aTimeStat 6)

/-! ### Commands (R49, Table 2-7) -/

/-- A new calendar time moves the present one back by more than 1 s. -/
def ctBackwards (s : State) (ct : Nat) : Bool := decide (ct + 2 ^ 24 < (nowCt s).toNat)

/-- `TIME.STANDBY` may not begin: in a Seam group or under a Scorch lock (Table 2-7). -/
def standbyBarred (s : State) : Bool := s.seam.role != .alone || s.scorch.locked

/-- The catalogue's entries of the 0x0Bxx commands. `TIME.SET_CT` needs a `CUSTODIAN` quorum to move calendar time back by more than 1 s, and to
resolve a refusal of R35. -/
def specTime (s : State) (c : Cmd) : Option CmdSpec :=
  let own0 := decide (cOwner s c = 0)
  match cOp c with
  | 0x0B01 => some { zero := noKeys c && parZero c [(52, 12)], outMax := 32 }
  | 0x0B02 => some { zero := noKeys c && parZero c [(60, 4)], issuer := own0
                     quorum := if ctBackwards s (par c 52 8) || s.time.ctBack then some (0, qCustodian) else none
                     late := if timeSrc s = 2 ∧ !s.time.ctBack then 0x0B02 else stOk }
  | 0x0B03 => some { zero := noKeys c && parZero c [(53, 1), (57, 7)], form := decide (par c 52 1 ≤ 2 ∧ par c 54 2 ≤ 255)
                     issuer := own0 }
  | 0x0B04 => some { zero := noKeys c && parZero c [(54, 10)], form := decide (par c 52 1 ≤ 2 ∧ 1 ≤ par c 53 1 ∧ par c 53 1 ≤ 200), issuer := own0 }
  | 0x0B05 => some { zero := noKeys c && parZero c [(53, 3), (62, 2)], form := decide (par c 52 1 ≤ 3 ∧ 1 ≤ par c 56 4 ∧ par c 56 4 ≤ 16000000 ∧ 1 ≤ par c 60 2), issuer := own0 }
  | 0x0B06 => some { zero := noKeys c && parZero c [(60, 4)], issuer := own0
                     late := if standbyBarred s then 0x0B02 else stOk }
  | _ => none

/-- `TIME.GET`. -/
def execTimeGet (tag : Nat) (io : HostIO) (s : State) : Host.Outcome State Fault Refusal :=
  runCmd s tag 0x0B01 (fun c s =>
    endOut s tag io (leBytes 8 (nowStamp s).toNat ++ leBytes 8 (nowCt s).toNat ++ leBytes 2 (epochId s).toNat ++
      leBytes 2 (regGet s aTimeStat).toNat ++ leBytes 4 (regGet s aTimeSrcStat).toNat ++
      leBytes 4 (regGet s aTimeOffset).toNat ++ zeros 4) stOk c.started)

/-- Calendar time takes a new value at a Stamp: `TIME_CT_BASE` and `TIME_UNSET`; a refusal of R35 is resolved (R37, R39). -/
def setCt (s : State) (ct : CalTime) (at_ : Stamp) : State :=
  let s1 := regPut64 s aTimeCtBaseLo aTimeCtBaseHi (ct - (at_ >>> 8))
  regSetBit { s1 with time := { s1.time with ctBack := false } } aTimeSrcStat 7 false

/-- `TIME.SET_CT`. -/
def execTimeSetCt (tag : Nat) (s : State) : Host.Outcome State Fault Refusal :=
  runCmd s tag 0x0B02 (fun c s => endOk (setCt s (BitVec.ofNat 64 (par c 52 8)) c.started) tag)

/-- A time source is selected: what was measured of the former one is dropped (R33, R34). A refusal of R35 leaves the device in holdover. -/
def sourceSelect (s : State) (src port domain : Nat) : State :=
  let s1 := { s with time := { s.time with
    groupSrc := src, ptpPort := port, ptpDomain := domain, meas := [], lockRun := 0, ptpSet := false, srcAt := s.time.clk } }
  let s2 := if ownSource s then regSetField s1 aTimeCtrl 2 0 src else s1
  regSetField (regSetBit (if s.time.ctBack then s2 else regSetBit s2 aTimeSrcStat 4 false) aTimeSrcStat 3 false) aTimeSrcStat 2 0
    (if s.time.ctBack then 0 else timeSrc s2)

/-- `TIME.SET_SOURCE`; `present`: the selected pin or port shows a valid signal within 3 s. -/
def execTimeSetSource (tag : Nat) (present : Bool) (s : State) : Host.Outcome State Fault Refusal :=
  runCmd s tag 0x0B03 (fun c s =>
    if !present && par c 52 1 != 0 then endAfter s tag 0x0B01
    else endOk (sourceSelect s (par c 52 1) (par c 54 2) (par c 56 1)) tag)

/-- `TIME.SET_PPS_OUT`. -/
def execTimeSetPpsOut (tag : Nat) (s : State) : Host.Outcome State Fault Refusal :=
  runCmd s tag 0x0B04 (fun c s =>
    let s1 := regSetField s aTimeCtrl 7 6 (par c 52 1)
    endOk { s1 with time := { s1.time with ppsWidth := par c 53 1 } } tag)

/-- `TIME.SLEEP_POLICY`. -/
def execTimeSleepPolicy (tag : Nat) (s : State) : Host.Outcome State Fault Refusal :=
  runCmd s tag 0x0B05 (fun c s =>
    endOk (regPut (regPut (regSetField s aPwrCtrl 1 0 (par c 52 1)) aPwrAirIdle (BitVec.ofNat 32 (par c 56 4)))
      aPwrWarmIdle (BitVec.ofNat 32 (par c 60 2))) tag)

/-- `TIME.STANDBY`: the device enters STANDBY when the completion has been written (R42, R49). -/
def execTimeStandby (tag : Nat) (s : State) : Host.Outcome State Fault Refusal :=
  runCmd s tag 0x0B06 (fun c s =>
    let s1 := regPut64 s aTimeWakeLo aTimeWakeHi (BitVec.ofNat 64 (par c 52 8))
    endOk { s1 with pwr := { s1.pwr with standby := some tag }, time := { s1.time with wakeSeen := false } } tag)

end Sys2Proof.Machine
end

