-- ==== Sys2Proof/Machine/Ptp.lean ====
section
/-! DEFINITION. Precision time on the ports: stamping of IEEE 1588 messages, the slave-only clock, and the two-step master
(spec 10, R298, R299; spec 02, R34, R35). The message layouts, and the fields of the default profile that the spec does not
give, are those of IEEE 1588-2019 (assumption 8). -/

namespace Sys2Proof.Machine

/-- Nanoseconds as Stamp LSBs. -/
def nsToStamp (n : Nat) : Nat := 2 ^ 32 * n / 1000000000

/-- A port's FIFO takes an entry; a full one loses the newest (R298). -/
def ptpPush (s : State) (p : Nat) (e : PtpEntry) : State :=
  let x := portGet s p
  if 64 ≤ x.ptp.length then lnkEvent (lnkCount s p 0x164) p 9 else portPut s p { x with ptp := x.ptp ++ [e] }

/-- Tortin takes an entry out of a port's FIFO. -/
def ptpDrop (s : State) (p : Nat) (e : PtpEntry) : State :=
  let x := portGet s p
  portPut s p { x with ptp := x.ptp.erase e }

/-- Calendar time of a Stamp in nanoseconds, from `TIME_CT_BASE` as it stands. -/
def ctNs (s : State) (t : Stamp) : Nat :=
  (regGet64 s aTimeCtBaseLo aTimeCtBaseHi + (t >>> 8)).toNat * 1000000000 / 2 ^ 24

/-- An offset of whole nanoseconds taken to the range from −0.5 s to +0.5 s. -/
def wrapSecond (d : Int) : Int := let m := d % 1000000000; if m < 500000000 then m else m - 1000000000

/-- Calendar time from PTP lies more than 1 s behind, by `d` nanoseconds: it is refused (R35). -/
def ptpRefuse (s : State) (d : Int) : State :=
  let s1 := sqcSet (sourceLost { s with time := { s.time with ctBack := true } }) aTimeStat 8
  tallyPut s1 agCp 0x0B84 [(0x0E, (nowCt s).toNat), (0x0F, ofSigned 64 ((nowCt s).toNat - d * 2 ^ 24 / 1000000000))]

/-- The first lock: calendar time takes the PTP seconds, `whole` nanoseconds of which it stands ahead, but never backwards by more than 1 s (R34,
R35). -/
def ptpSeconds (s : State) (whole : Int) : State :=
  if !bitOf (regGet s aTimeSrcStat) 7 && decide (1000000000 < whole) then ptpRefuse s whole
  else
    let base := (regGet64 s aTimeCtBaseLo aTimeCtBaseHi).toInt - whole / 1000000000 * 2 ^ 24
    let s1 := regPut64 s aTimeCtBaseLo aTimeCtBaseHi (BitVec.ofInt 64 base)
    regSetBit { s1 with time := { s1.time with ptpSet := true } } aTimeSrcStat 7 false

/-- The slave clock measures with a Sync's Stamp and its Follow_Up (R34). Up to the first lock the offset is taken within the second, for the
seconds come with that lock; after it the whole offset counts, and one that would take calendar time back by more than 1 s is refused (R35). -/
def ptpMeasure (s : State) (t2 : Stamp) (sec ns : Nat) : State :=
  if s.time.ctBack then s
  else
    let utc : Int := ((sec : Int) - s.links.utcOffset) * 1000000000 + ns + s.time.ptpDelay
    let d : Int := (ctNs s t2 : Int) - utc
    let s0 := { s with time := { s.time with lastSync := some s.time.clk } }
    if s.time.ptpSet then (if 1000000000 < d then ptpRefuse s0 d else measure s0 d)
    else
      let s1 := measure s0 (wrapSecond d)
      if bitOf (regGet s1 aTimeSrcStat) 3 then ptpSeconds s1 (d - wrapSecond d) else s1

/-- The port is the one that the slave clock runs on. -/
def ptpSlave (s : State) (p domain : Nat) : Bool :=
  portPtp s p == 2 && s.time.ptpPort == p && s.time.ptpDomain == domain && timeSrc s == 2

/-- The port is a master that may send: it is up, Tortin serves, and calendar time is valid. -/
def ptpMaster (s : State) (p : Nat) : Bool :=
  portPtp s p == 1 && portUp s p && linkReady s && !bitOf (regGet s aTimeSrcStat) 7

/-- A PTP message of the device: header, then the body. -/
def ptpMessage (s : State) (p kind flags seq control : Nat) (body : List Byte) : List Byte :=
  let m := portMac s p
  beBytes 1 kind ++ [2] ++ beBytes 2 (34 + body.length) ++ beBytes 1 s.time.ptpDomain ++ zeros 1 ++ beBytes 2 flags ++
    zeros 12 ++ m.take 3 ++ [0xFF, 0xFE] ++ m.drop 3 ++ beBytes 2 (p + 1) ++ beBytes 2 seq ++ beBytes 1 control ++ [0] ++ body

/-- A TAI timestamp of a Stamp: calendar time plus the UTC offset (R299). -/
def ptpTime (s : State) (t : Stamp) : List Byte :=
  let n := ctNs s t + s.links.utcOffset * 1000000000
  beBytes 6 (n / 1000000000) ++ beBytes 4 (n % 1000000000)

/-- The frame of a PTP message in the port's encapsulation: the group addresses, EtherType and ports of IEEE 1588-2019 (R298, assumption 8). A frame
below the least length of Ethernet is padded to it; it carries the PCP of `ALARM`. -/
def ptpFrame (s : State) (p kind : Nat) (m : List Byte) : List Byte :=
  let pcp := portPcp s p 0
  let ud := if kind < 8 then 319 else 320
  let f := match portEncap s p with
    | 1 => (ipWrap s p pcp { ip := [224, 0, 1, 129] } ud ud m).map (fun (x : Nat × List Byte) => ethHeader s p pcp [1, 0, 0x5E, 0, 1, 0x81] x.1 ++ x.2)
    | 2 => (ipWrap s p pcp { ip := [0xFF, 0x0E] ++ zeros 12 ++ [1, 0x81] } ud ud m).map (fun (x : Nat × List Byte) =>
        ethHeader s p pcp [0x33, 0x33, 0, 0, 1, 0x81] x.1 ++ x.2)
    | _ => some (ethHeader s p pcp [1, 0x1B, 0x19, 0, 0, 0] 0x88F7 ++ m)
  let g := f.getD []
  g ++ zeros (60 - g.length)

/-- A PTP message leaves, and counts as a frame of the port. -/
def ptpSend (s : State) (p kind : Nat) (m : List Byte) : State :=
  let f := ptpFrame s p kind m
  emit (lnkAdd64 (lnkAdd64 s p 0x110 1) p 0x118 (f.length + 4)) (.ptp p kind f)

/-- The transmit Stamp of an event message that leaves now (R298). -/
def ptpTxStamp (s : State) (p : Nat) : Stamp := nowStamp s + BitVec.ofNat 64 (nsToStamp (regField s (aLnk p 0x44) 31 16))

/-- A port's FIFO has no place left, so that an event message's Stamp is lost (R298). -/
def ptpFull (s : State) (p : Nat) : Bool := decide (64 ≤ (portGet s p).ptp.length)

/-- The slave clock asks for the path delay after a measurement: its Delay_Req leaves and is stamped (R298, R299). The entry of an earlier request
that was not answered goes. -/
def ptpDelayReq (s : State) (p : Nat) : State :=
  let x := portGet s p
  let s1 := portPut s p { x with ptp := x.ptp.filter (fun e => !(e.sent && e.kind == 1)) }
  let seq := s.time.syncSeq.toNat
  let e : PtpEntry := { stamp := ptpTxStamp s p, seq := seq, kind := 1, domain := s.time.ptpDomain, sent := true }
  if !portUp s p || !linkServes s then s1
  else ptpSend (ptpPush { s1 with time := { s1.time with syncSeq := s.time.syncSeq + 1 } } p e) p 1 (ptpMessage s p 1 0 seq 1 (zeros 10))

/-- A received PTP message: event messages are stamped, less the receive latency; a Follow_Up gives the slave a
measurement, an Announce the UTC offset, and a master answers a Delay_Req of its domain. A message whose Stamp the full FIFO lost is not used. -/
def ptpReceive (s : State) (p : Nat) (stamp : Stamp) (m : List Byte) : State :=
  let kind := byteAt m 0 % 16
  let domain := byteAt m 4
  let seq := beAt m 30 2
  let t := stamp - BitVec.ofNat 64 (nsToStamp (regField s (aLnk p 0x44) 15 0))
  let e : PtpEntry := { stamp := t, seq := seq, kind := kind, domain := domain, sent := false }
  let s1 := if kind ≤ 1 then ptpPush s p e else s
  if !s.tortin.ready ∨ (kind ≤ 1 ∧ ptpFull s p) then s1
  else if kind = 0 then (if ptpSlave s p domain then s1 else ptpDrop s1 p e)
  else if kind = 1 then
    if ptpMaster s p && domain == s.time.ptpDomain && linkServes s then
      ptpSend (ptpDrop s1 p e) p 9 (ptpMessage s p 9 0 seq 3 (ptpTime s t ++ bytesAt m 20 10))
    else ptpDrop s1 p e
  else if kind = 8 then
    if !ptpSlave s p domain then s1
    else match (portGet s p).ptp.find? (fun x => x.kind == 0 && x.seq == seq && x.domain == domain && !x.sent) with
      | some x => ptpDelayReq (ptpMeasure (ptpDrop s1 p x) x.stamp (beAt m 34 6) (beAt m 40 4)) p
      | none => s1
  else if kind = 9 then
    if !ptpSlave s p domain then s1
    else match (portGet s p).ptp.find? (fun x => x.kind == 1 && x.seq == seq && x.domain == domain && x.sent) with
      | some x => ptpDrop s1 p x
      | none => s1
  else if kind = 0xB ∧ ptpSlave s p domain then { s1 with links := { s1.links with utcOffset := beAt m 44 2 } }
  else s1

/-- A frame that carries a PTP message takes the receive path. -/
def ptpArrive (s : State) (p : Nat) (f : List Byte) (fcsOk : Bool) (stamp : Stamp) : State :=
  let s1 := rxCount s p f
  match rxWhole s1 p f fcsOk with
  | some s2 => s2
  | none => match rxEncap s1 p f with
    | .ptp m => ptpReceive s1 p stamp m
    | .macControl => lnkEvent (lnkCount s1 p 0x160) p 10
    | .bad => lnkCount s1 p 0x128
    | .ffp _ _ => s

/-- `PTP_MESSAGE_RECEIVED`; `delay`: the mean path delay that the slave clock has found, in nanoseconds, from its Delay_Req and the answers. -/
def execPtpMessageReceived (port : Nat) (frame : List Byte) (fcsOk : Bool) (delay : Nat) (s : State) :
    Host.Outcome State Fault Refusal :=
  let s0 := { s with time := { s.time with ptpDelay := delay } }
  .next (if !portUp s port then s
    else if (portGet s port).hold then holdWrite s0 port frame fcsOk false
    else ptpArrive (touchFast s0) port frame fcsOk (nowStamp s))

/-- The device is awake for a master's timer: in AIRING the timer wakes it (R299). -/
def ptpWake (s : State) : State := if pwrMode s = 2 then wakeUp s 4 else s

/-- `PTP_MASTER_SYNC`: Sync and Follow_Up every 1 s; the Follow_Up carries the time at which the Sync left, and does not go out where the full FIFO has
lost that time. -/
def execPtpMasterSync (port : Nat) (s : State) : Host.Outcome State Fault Refusal :=
  .next (let x := portGet s port
    if !ptpMaster s port ∨ s.time.clk < x.syncAt + cycS then s
    else
      let s0 := ptpWake s
      let seq := s.time.syncSeq.toNat
      let t := ptpTxStamp s port
      let e : PtpEntry := { stamp := t, seq := seq, kind := 0, domain := s.time.ptpDomain, sent := true }
      let s1 := portPut { s0 with time := { s0.time with syncSeq := s.time.syncSeq + 1 } } port
        { portGet s0 port with syncAt := s.time.clk }
      let s2 := ptpSend (ptpPush s1 port e) port 0 (ptpMessage s port 0 0x0200 seq 0 (zeros 10))
      if ptpFull s0 port then s2 else ptpSend (ptpDrop s2 port e) port 8 (ptpMessage s port 8 0 seq 2 (ptpTime s t)))

/-- `PTP_ANNOUNCE`: every 1 s, with the clockClass of the time source (R299). -/
def execPtpAnnounce (port : Nat) (s : State) : Host.Outcome State Fault Refusal :=
  .next (let x := portGet s port
    if !ptpMaster s port ∨ s.time.clk < x.annAt + cycS then s
    else
      let s0 := ptpWake s
      let w := regGet s aTimeSrcStat
      let cls := if bitOf w 3 then 6 else if bitOf w 4 then 7 else 248
      let m := portMac s port
      let body := zeros 10 ++ beBytes 2 s.links.utcOffset ++ zeros 1 ++ [128] ++ beBytes 1 cls ++ [0xFE, 0xFF, 0xFF, 128] ++
        m.take 3 ++ [0xFF, 0xFE] ++ m.drop 3 ++ zeros 2 ++ [0xA0]
      let s1 := portPut { s0 with time := { s0.time with annSeq := s.time.annSeq + 1 } } port
        { portGet s0 port with annAt := s.time.clk }
      ptpSend s1 port 0xB (ptpMessage s port 0xB 8 s.time.annSeq.toNat 5 body))

end Sys2Proof.Machine
end

