-- ==== Sys2Proof/Machine/Enrol.lean ====
section
/-! DEFINITION. The enrolment of Care Cards, Thimble's acceptance of written-back secrets, and the release of hold rings (spec
10, R294 to R296; spec 02, R47). -/

namespace Sys2Proof.Machine

/-- Bytes of the signatures of an enrolment offer. -/
def offerSigs (s : State) (c : Cmd) : Nat := 64 + (if cKeyB c = 0 then 0 else pkSigLen (typeOf s (cKeyB c)) 0)

/-- The catalogue's entry of `CARD.ENROL` (Tables 10-8, 10-10; R294). -/
def specEnrol (s : State) (c : Cmd) : Option CmdSpec :=
  if cOp c ≠ 0x0809 then none
  else
    let d := heldInput c
    let id := leAt d 0 8
    let port := leAt d 12 2
    let hs := (cKeyA c, [0x14]) :: (if cKeyB c = 0 then [] else [(cKeyB c, [0x38, 0x39])])
    let long := decide (portMax s port < portOverhead s port + 1608 + offerSigs s c)
    some {
      zero := parZero c [(53, 11)] && decide (par c 52 1 < 2)
      formIn := decide (1 ≤ leAt d 8 4 ∧ leAt d 8 4 ≤ 20000 ∧ port < 256) && zeroAt d 14 10 && (List.range 3).all (fun m => zeroAt d (30 + 32 * m) 2 && zeroAt d (50 + 32 * m) 6)
      inMin := 1720, inMax := 1720, issuer := !cMbx c, needsKeys := true, thm := true
      at7 := pkCheck s c hs kSign (if long then stBadLength else stOk)
      uses := hs.map (·.1), binds := hs.map (fun k => (2, k.1)), quorum := some (cOwner s c, qKeyMgmt), entropy := true
      usage := kSign
      early := if (cardGet s id).isSome || s.links.enrols.any (fun e => e.card.toNat == id) then 0x0804 else stOk
      place := some (keySlots 0x41 0), free := decide (s.links.cards.length < 4096), preread := 24 }

/-- The offer leaves on its port (R294). -/
def offerSend (s : State) (e : Enrolment) : State :=
  if linkServes s && portUp s e.port then sendFrame s e.port 2 (e.peers.getD s.seam.index {}) e.offer else s

/-- The keys that sign an offer: Ed25519 first, then ML-DSA where key B is given. -/
def offerKeys (c : Cmd) : List Nat := cKeyA c :: (if cKeyB c = 0 then [] else [cKeyB c])

/-- The signature of an offer enters Mangle, under Ed25519 alone or as a hybrid one (R201, R294); `rnd`: the value drawn for its ML-DSA half. -/
def offerSign (s : State) (tag : Nat) (c : Cmd) (rnd : List Byte) : State :=
  let a : MangleOp := { opOf s tag c 0 with keys := [cKeyA c], hashes := hashPasses (signPar c) 0 true }
  let b : MangleOp := { opOf s tag c 1 with keys := [cKeyB c], hashes := hashPasses (signPar c) 1 true, rnd := rnd }
  mangleSet (if cKeyB c = 0 then mangleEnter s a else mangleEnter2 s a b) tag

/-- The signature of an offer finds its places now. -/
def offerFree (s : State) (c : Cmd) : Bool := if cKeyB c = 0 then mangleRoom s 1 else mangleRoom2 s

/-- The ephemeral pair, the agreement and the encapsulation of an enrolment have run: the frame to be signed stands, the shared secrets lie in
device-internal slots, and the signature begins with its blinding values (R187, R294 step 1). -/
def offerBegin (s : State) (tag : Nat) (c : Cmd) (d : List Byte) : State :=
  let x := bytesAt d 120 32
  let ek := bytesAt d 152 1568
  if !(publicValid 0x93 0 x && publicValid 0xB1 0 ek) then endAfter s tag stBadPoint
  else if !bobbinFor s 3 || !offerFree s c then s
  else
    let (eph, s1) := draw s 32
    let (m, s2) := draw s1 32
    let ssx := bytesAt (Config.agree 0x13 eph x) 0 32
    if agreeZero 0x13 ssx then endAfter s2 tag stBadPoint
    else
      let (rnd, s3) := if cKeyB c = 0 then ([], s2) else draw s2 32
      let head := ffpHeader ffRekey 0 0xFFFF 0 1 (nowStamp s) (1608 + offerSigs s c) 0
      let part := beBytes 8 (leAt d 0 8) ++ bytesAt (Config.publicOf 0x13 eph) 0 32 ++ bytesAt (Config.encapsCt 0x31 ek m) 0 1568
      let s4 := drawBlinding (setWork s3 tag { step := 2, bytes := head ++ part, slots := bytesAt (Config.encapsKey 0x31 ek m) 0 32 ++ ssx })
      offerSign s4 tag c rnd

/-- The key of queue 0xFFFF as Thimble binds it into the general cache: it opens frames of the link and nothing else (R296). -/
def enrolKey (e : Enrolment) : KeyObj :=
  { owner := e.owner, gen := 0, ktype := 0x02, size := 256, slots := 0, attrs := kLink + (if e.cont then 2 ^ kContinuity else 0), limit := 0
    remaining := 0, slice := 0xFFFF, origin := 1, material := e.key }

/-- The signature of an offer has been made: the card's master secret is derived, the key of queue 0xFFFF enters the general cache, and the offer
leaves (R294 steps 2 and 3, R296). The binding waits while Thimble does not serve, under a Scorch lock, and while no entry is free (R161, R163). -/
def offerMake (s : State) (tag : Nat) (c : Cmd) (d : List Byte) : State :=
  if 1000 < c.work.nums.getD 2 0 then endAfter s tag 0x0602
  else
    let id := leAt d 0 8
    let whole := c.work.bytes ++ c.work.parts.flatMap (·.2)
    let master := bytesAt (Config.kmac256 c.work.slots
      (beBytes 8 id ++ bytesAt (Config.sha384 whole) 0 48) 32 (ascii "ILASKUST-FFP-ENROL")) 0 32
    let e : Enrolment := {
      tag := tag, card := BitVec.ofNat 64 id, port := leAt d 12 2, peers := peersAt d 24, owner := cOwner s c
      total := leAt d 8 4, cont := bitN (par c 52 1) 0, master := master, key := queueKey master id 0xFFFF 1
      offer := whole ++ bytesAt (Config.sha256 whole) 0 16, begun := s.time.clk, lastTx := s.time.clk }
    if !thmUp s || s.scorch.locked then s
    else match keyBind s 1 (enrolHandle tag) (enrolKey e) with
      | none => s
      | some s0 =>
        let s1 := setWork s0 tag { step := 1 }
        offerSend { s1 with links := { s1.links with enrols := s1.links.enrols ++ [e] } } e

/-- The command asks Thimble, once, to make the card key an object, when a report has been accepted and the request ring has a place. -/
def enrolAsk (s : State) (tag : Nat) (c : Cmd) : State :=
  match s.links.enrols.find? (fun e => e.tag == tag) with
  | none => s
  | some e =>
    if e.report.isNone || e.asked || !thmRoom s then s
    else
      let attrs := kDerive + kLink + 2 ^ kPersist + (if e.cont then 2 ^ kContinuity else 0)
      thmPost { s with links := { s.links with
          enrols := s.links.enrols.map (fun x => if x.tag = tag then { x with asked := true } else x) } }
        { op := 8, alarm := cAlarm c, tag := 0, secret := e.master, cmd := some tag, nums := fillNums s c 0x41 0 attrs 0 1 ++ [e.card.toNat] }

/-- `CARD_ENROL` (R294 steps 1 to 3): the operations over the card's public keys first, then the signature of the offer under key A, and key B, each in
a unit of Mangle; then the offer. -/
def execCardEnrol (tag : Nat) (io : HostIO) (s : State) : Host.Outcome State Fault Refusal :=
  runIn s tag 0x0809 io (fun c d s =>
    if c.work.step = 1 then enrolAsk s tag c
    else if mangleHas s tag then mangleSet s tag
    else if c.work.step = 0 then offerBegin s tag c d
    else offerMake s tag c d)

/-- The enrolment of a card. -/
def enrolOf (s : State) (id : Nat) : Option Enrolment := s.links.enrols.find? (fun e => e.card.toNat == id)

/-- An enrolment changed. -/
def enrolPut (s : State) (id : Nat) (x : Enrolment) : State :=
  { s with links := { s.links with enrols := s.links.enrols.map (fun e => if e.card.toNat = id then x else e) } }

/-- The enrolment of a command ends: its match goes, its key leaves the general cache, and its slots are erased (R296). -/
def enrolDrop (s : State) (tag : Nat) : State :=
  let s1 := cachePurge s (enrolHandle tag)
  { s1 with links := { s1.links with enrols := s1.links.enrols.filter (fun e => e.tag != tag) } }

/-- Every enrolment ends. -/
def enrolsDrop (s : State) : State := (s.links.enrols.map (·.tag)).foldl enrolDrop s

/-- `ENROL_OFFER_RESEND`: the offer is resent unchanged every 1 s. -/
def execEnrolOfferResend (card : Nat) (s : State) : Host.Outcome State Fault Refusal :=
  .next (match enrolOf s card with
    | none => s
    | some e =>
      if s.time.clk < e.lastTx + cycS ∨ e.report.isSome then s
      else offerSend (enrolPut s card { e with lastTx := s.time.clk }) e)

/-- `ENROL_TIMEOUT`: no report within 5 s of the first sending. -/
def execEnrolTimeout (card : Nat) (s : State) : Host.Outcome State Fault Refusal :=
  .next (match enrolOf s card with
    | none => s
    | some e => if s.time.clk < e.begun + 5 * cycS ∨ e.report.isSome then s
      else endAfter (enrolDrop s e.tag) e.tag 0x0806)

/-- A frame of header queue 0xFFFF that has passed the checks 1 to 3 meets the enrolment matches of its port (R296). The card key that a report
completes has origin 1, created (DESIGN CHOICE: Table 4-14 names no origin for it, assumption 57). Press opens it with the key that the general cache
holds, and under a Scorch lock only for a card with `CONTINUITY`; others are counted in `LNK_RX_LOCKED` (DESIGN CHOICE, assumption 61). -/
def enrolFrame (s : State) (p : Nat) (h : FfpHdr) (stamp : Stamp) : State :=
  match s.links.enrols.filter (fun e => e.port == p && peerAddr s p (e.peers.getD s.seam.index {}) == h.src) with
  | [] => lnkCount s p 0x130
  | es => if !pressFree s then
      { s with links := { s.links with waits := s.links.waits ++ [{ port := p, queue := 0xFFFF, frame := h, chain := none, stamp := stamp }] } } else
    let opens (e : Enrolment) : Option (List Byte) :=
      (cacheEnt s 1 (enrolHandle e.tag)).bind (fun k => gcmOpen k.material (ffpNonce 0xFFFF h.epoch h.ctr) h.raw h.body h.tag)
    if es.all (fun e => s.scorch.locked && !e.cont) then lnkCount s p 0x138
    else match es.findSome? (fun e => (opens e).map (fun pl => (e, pl))) with
    | none => lnkEvent (lnkCount s p 0x144) p 3
    | some (e, pl) =>
      match cmdAt s e.tag with
      | none => s
      | some c =>
        if h.kind ≠ ffReport ∨ beAt pl 0 8 ≠ e.card.toNat ∨ e.report.isSome then s
        else enrolAsk (enrolPut s e.card.toNat { e with report := some (beAt pl 12 4, beAt pl 18 2, beAt pl 20 4, stamp) }) e.tag c

/-- `PRESS_JOB_DONE`: the running job that started as number `job` writes its last output; received frames that wait for a place in Press take
theirs, and then the answers to enrolments (R157, R158). -/
def execPressJobDone (pipe job : Nat) (s : State) : Host.Outcome State Fault Refusal :=
  let s1 := waitsDrain (pressJobDone s pipe job)
  .next ((s1.links.waits.filter (fun w => w.queue == 0xFFFF)).foldl (fun s w =>
    if pressFree s then enrolFrame { s with links := { s.links with waits := s.links.waits.erase w } } w.port w.frame w.stamp else s) s1)

/-- A frame that may answer an enrolment enters the normal receive path. -/
def enrolReceive (s : State) (p : Nat) (f : List Byte) (fcsOk : Bool) (stamp : Stamp) : State :=
  let s1 := rxCount s p f
  match rxWhole s1 p f fcsOk with
  | some s2 => s2
  | none => match rxEncap s1 p f with
    | .macControl => lnkEvent (lnkCount s1 p 0x160) p 10
    | .bad => lnkCount s1 p 0x128
    | .ptp _ => s
    | .ffp src body =>
      let h := ffpRead src body (f.length + 4)
      if !ffpHdrOk s1 p h then lnkCount s1 p 0x12C
      else if h.queue = 0xFFFF then enrolFrame s1 p h stamp else s

/-- `ENROLMENT_REPORT_RECEIVED`. -/
def execEnrolmentReportReceived (port : Nat) (frame : List Byte) (fcsOk : Bool) (s : State) :
    Host.Outcome State Fault Refusal :=
  .next (if !portUp s port then s
    else if (portGet s port).hold then holdWrite s port frame fcsOk false
    else enrolReceive (touchFast s) port frame fcsOk (nowStamp s))

/-- The record that a completed enrolment makes (R294 step 5, R297). -/
def enrolRec (s : State) (e : Enrolment) (h : Nat) : CardRec :=
  { owner := e.owner, port := e.port, key := h, total := e.total, left := e.total, enrolCt := nowCt s, cont := e.cont }

/-- The placed object of a card key enters the journal with its owner's COUNTER record, in one change (R294 step 5). -/
def storeCard (s : State) (r : ThmReq) (ok0 ok1 : Bool) (e : Enrolment) : State :=
  let o := fillObj s r r.secret
  let slot := r.nums.getD 1 0
  let h := keyHandle slot o
  let k := oskOf s o.owner
  let counter := counterRec s o.owner e.card.toNat (some (enrolRec s e h))
  match jrnWrite s ok0 ok1 o.owner k [(o.owner, k, .object h o), (o.owner, linkStoreKey s o.owner, counter)] with
  | none => thmAnswer (jrnFailed s ok0 ok1) r 0x0406
  | some s1 => thmAnswer (keyPut s1 slot o) r stOk h

/-- `THM_ACCEPT`: Thimble takes a secret into the placed slots (R184, R294). -/
def execThmAccept (ok0 ok1 : Bool) (s : State) : Host.Outcome State Fault Refusal :=
  thmServe s 8 (fun r s =>
    match r.nums.drop 8 with
    | [] => storeObj s r ok0 ok1 (fillObj s r r.secret)
    | id :: _ => match enrolOf s id with
      | some e => storeCard s r ok0 ok1 e
      | none => thmAnswer s r stAborted)

/-- `CARD.ENROL` ends when Thimble has answered: the record is written, and the report takes its effect. -/
def enrolDone (s : State) (tag : Nat) (r : ThmRsp) : State :=
  match s.links.enrols.find? (fun e => e.tag == tag) with
  | none => endAfter s tag r.status
  | some e =>
    let id := e.card.toNat
    let s1 := enrolDrop s tag
    if r.status ≠ stOk then endAfter s1 tag r.status
    else
      let s2 := cardPut s1 id (enrolRec s e r.a)
      let s3 := match e.report with
        | some (left, flags, fw, stamp) => cardReport s2 id left flags fw stamp
        | none => s2
      endOk s3 tag 0 (BitVec.ofNat 64 r.a)

/-! ### Release of the hold rings (R47) -/

/-- What orders a port's oldest held frame among the ports (R27, R47). -/
def holdKey (p : Nat) (f : HoldFrame) : EventKey := { stamp := f.stamp, agent := agPort p, seq := 0, member := 0 }

/-- The port whose oldest held frame enters next (R47). -/
def holdNext (s : State) : Option (Nat × HoldFrame) :=
  (s.links.ports.filterMap (fun e => e.2.ring.head?.map (fun f => (e.1, f)))).foldl
    (fun (b : Option (Nat × HoldFrame)) x => match b with
      | none => some x
      | some y => if eventBefore (holdKey x.1 x.2) (holdKey y.1 y.2) then some x else b) none

/-- A held frame enters the normal receive path with its own Stamp. -/
def holdEnter (s : State) (p : Nat) (f : HoldFrame) : State :=
  match rxEncap s p f.bytes with
  | .ptp _ => ptpArrive s p f.bytes f.fcsOk f.stamp
  | .ffp src body =>
    if (ffpRead src body 0).queue = 0xFFFF then enrolReceive s p f.bytes f.fcsOk f.stamp
    else (rxNormal s p f.bytes f.fcsOk f.stamp [ffData, ffAck, ffHeartbeat, ffReport, ffRetransmit]).2
  | _ => (rxNormal s p f.bytes f.fcsOk f.stamp []).2

/-- `HOLD_RING_RELEASE`: the oldest held frame leaves its ring; a port whose ring is empty switches to the normal path. -/
def execHoldRingRelease (s : State) : Host.Outcome State Fault Refusal :=
  .next (if 2 ≤ pwrMode s ∨ s.pwr.vault then s
    else match holdNext s with
      | none => s
      | some (p, f) =>
        let x := portGet s p
        let s1 := holdEnter (portPut s p { x with ring := x.ring.drop 1 }) p f
        let s2 := portReady (portPut s1 p (holdOff (portGet s1 p))) p
        { s2 with hamper := { s2.hamper with rings := ringsLeft s2 } })

end Sys2Proof.Machine
end

