-- ==== Sys2Proof/Machine/Gulos.lean ====
section
/-! DEFINITION. The Gulos instruction set: instruction words, addressing modes and the arithmetic of the operations
(spec 13, R365 to R377). -/

namespace Sys2Proof.Machine

/-! ### Operations (Table 13-9) -/

/-- The operations of the Needle cores. -/
inductive GOp where
  | nop | br | call | ret | rfi | halt | wait | trap | fence | signal
  | mov | movsx | movzx | lea
  | add | sub | adds | subs | neg | abs | mul | mulhs | mulhu | mac | min | max | minu | maxu
  | and | or | xor | not | shl | shr | sar | rol | brev | clz | popc
  | cmpeq | cmpne | cmplt | cmple | cmpltu | cmpleu | tstz | tstnz
  | pand | por | pxor | pnot | pset
  | mulq | macq | satq
  | ldr | str | addr | evtake
  | bmov | bfill | badds | bmulq | bmacq | bdot | bpeak
  | prsIssue | prsWait | prsPoll | mglIssue | mglCollect | mglPoll
  deriving DecidableEq, Repr

/-- The operation of a group and operation code; none for a reserved one (R373). -/
def gopOf (group op : Nat) : Option GOp :=
  match group with
  | 0 => [GOp.nop, .br, .call, .ret, .rfi, .halt, .wait, .trap, .fence, .signal][op]?
  | 1 => [GOp.mov, .movsx, .movzx, .lea][op]?
  | 2 => [GOp.add, .sub, .adds, .subs, .neg, .abs, .mul, .mulhs, .mulhu, .mac, .min, .max, .minu, .maxu][op]?
  | 3 => [GOp.and, .or, .xor, .not, .shl, .shr, .sar, .rol, .brev, .clz, .popc][op]?
  | 4 =>
    if op < 0x10 then [GOp.cmpeq, .cmpne, .cmplt, .cmple, .cmpltu, .cmpleu, .tstz, .tstnz][op]?
    else [GOp.pand, .por, .pxor, .pnot, .pset][op - 0x10]?
  | 5 => [GOp.mulq, .macq, .satq][op]?
  | 6 => [GOp.ldr, .str, .addr, .evtake][op]?
  | 7 => [GOp.bmov, .bfill, .badds, .bmulq, .bmacq, .bdot, .bpeak][op]?
  | 8 =>
    match op with
    | 0 => some .prsIssue
    | 1 => some .prsWait
    | 2 => some .prsPoll
    | 4 => some .mglIssue
    | 5 => some .mglCollect
    | 6 => some .mglPoll
    | _ => none
  | _ => none

/-- What an operation does with a specifier field. -/
inductive Role where
  /-- result, source, result that is also a source, effective address only, register selector, predicate field, or an
  immediate that the operation takes itself -/
  | dst | src | both | ea | sel | pred | imm
  deriving DecidableEq, Repr

/-- The specifier fields of an operation, in field order (Table 13-9, Table 13-10, Table 13-13). -/
def rolesOf : GOp → List Role
  | .nop | .ret | .rfi | .halt | .wait | .fence | .signal => []
  | .br | .call => [.ea]
  | .trap => [.imm]
  | .mov | .movsx | .movzx => [.dst, .src]
  | .lea => [.dst, .ea]
  | .neg | .abs | .not | .brev | .clz | .popc | .satq => [.dst, .src]
  | .mac | .macq => [.both, .src, .src]
  | .add | .sub | .adds | .subs | .mul | .mulhs | .mulhu | .min | .max | .minu | .maxu => [.dst, .src, .src]
  | .and | .or | .xor | .shl | .shr | .sar | .rol | .mulq => [.dst, .src, .src]
  | .cmpeq | .cmpne | .cmplt | .cmple | .cmpltu | .cmpleu | .tstz | .tstnz => [.src, .src, .pred]
  | .pand | .por | .pxor | .pnot | .pset => []
  | .ldr | .addr => [.sel, .src]
  | .str => [.sel, .dst]
  | .evtake => [.imm, .dst]
  | .bmov | .bfill => [.dst, .src]
  | .badds | .bmulq => [.dst, .src, .src]
  | .bmacq | .bdot => [.both, .src, .src]
  | .bpeak => [.both, .src]
  | .prsIssue | .mglIssue => [.ea]
  | .prsWait | .prsPoll | .mglCollect | .mglPoll => [.dst]

/-- A group-7 operation. -/
def isBlock : GOp → Bool
  | .bmov | .bfill | .badds | .bmulq | .bmacq | .bdot | .bpeak => true
  | _ => false

/-- A group-8 operation. -/
def isCop : GOp → Bool
  | .prsIssue | .prsWait | .prsPoll | .mglIssue | .mglCollect | .mglPoll => true
  | _ => false

/-- An operation that no delay slot may hold, whatever its operands (R371). -/
def slotForbidden (g : GOp) : Bool :=
  isBlock g || isCop g || [GOp.br, .call, .ret, .rfi, .halt, .wait, .trap].contains g

/-! ### Decoding (R365, R367) -/

/-- An operand specifier with its extension word. -/
structure Spec where
  mode : Nat
  an   : Nat
  mn   : Nat
  opts : Nat
  raw  : Nat
  ext  : Nat := 0
  deriving DecidableEq, Repr

/-- A decoded instruction: guard, operation, size in bytes, specifiers and length in bytes. -/
structure GInstr where
  sense : Bool
  pred  : Nat
  op    : GOp
  size  : Nat
  specs : List Spec
  word0 : Nat
  len   : Nat
  /-- the words keep every rule of R365, R375 and R377 -/
  legal : Bool
  deriving DecidableEq, Repr

/-- A specifier's fields. -/
def specOf (raw : Nat) : Spec :=
  { mode := bitsN raw 15 12, an := bitsN raw 11 8, mn := bitsN raw 7 4, opts := bitsN raw 3 0, raw := raw }

/-- A field that names an operand carries an addressing mode. -/
def hasMode : Role → Bool
  | .sel | .pred => false
  | _ => true

/-- A specifier that takes an extension word (Table 13-6). -/
def needsExt (r : Role) (p : Spec) : Bool :=
  hasMode r && (p.mode == 0 || p.mode == 5 || p.mode == 10 || (p.mode == 8 && p.opts < 8))

/-- The options field keeps Table 13-6, and the mode fits the field's role. -/
def specLegal (g : GOp) (r : Role) (p : Spec) : Bool :=
  match r with
  | .sel =>
    let c := bitsN p.raw 7 4
    let i := bitsN p.raw 3 0
    decide (p.raw < 256 ∧ c ≤ 5) && (c != 4 || decide (i ≤ 3)) &&
      (g != .addr || (decide (c ≤ 4) && !(c == 4 && (i == 1 || i == 3))))
  | .pred => decide (p.raw < 16)
  | _ =>
    decide (p.mode ≤ 10) &&
    (match p.mode with
     | 8 => p.opts == 0 || p.opts == 8
     | 9 => decide (p.opts < 4)
     | _ => p.opts == 0) &&
    (match r with
     | .dst | .both => p.mode != 8 && p.mode != 10
     | .ea => p.mode != 8 || g == .call
     | .imm => p.mode == 8
     | _ => true)

/-- Extension words handed out in specifier order, from the byte offset where they begin. -/
def takeExts (bs : List Byte) : List (Role × Spec) → Nat → List Spec × Nat
  | [], off => ([], off)
  | (r, p) :: t, off =>
    if needsExt r p then
      let (ps, e) := takeExts bs t (off + 4)
      ({ p with ext := leAt bs off 4 } :: ps, e)
    else
      let (ps, e) := takeExts bs t off
      (p :: ps, e)

/-- The size field is one that the operation allows (R374 to R376). -/
def sizeLegal (g : GOp) (sz : Nat) : Bool :=
  match g with
  | .nop | .ret | .rfi | .halt | .wait | .fence | .signal => sz == 0
  | .pand | .por | .pxor | .pnot | .pset => sz == 0
  | .ldr | .str | .addr => sz == 0
  | .evtake => sz == 1
  | .mulq | .macq | .bmulq | .bmacq => sz == 1 || sz == 2
  | _ => true

/-- The further rules of block instructions (R377, Table 13-10). -/
def blockLegal (g : GOp) (ps : List Spec) : Bool :=
  match g with
  | .bdot | .bpeak => ps.head?.any (fun p => [0, 1, 5, 9].contains p.mode)
  | .bfill => (ps[1]?).any (fun p => [1, 8, 0, 5, 9, 10].contains p.mode)
  | _ => true

/-- The instruction in a byte string (up to five words); none for a reserved group or operation. -/
def gDecode (bs : List Byte) : Option GInstr :=
  let w0 := leAt bs 0 4
  match gopOf (bitsN w0 27 24) (bitsN w0 23 18) with
  | none => none
  | some g =>
    let roles := rolesOf g
    let two := decide (2 ≤ roles.length)
    let w1 := if two then leAt bs 4 4 else 0
    let raws := [bitsN w0 15 0, bitsN w1 31 16, bitsN w1 15 0]
    let pairs := (roles.zip raws).map (fun rp => (rp.1, specOf rp.2))
    let (ps, len) := takeExts bs pairs (if two then 8 else 4)
    let unused := match roles.length with
      | 0 => [GOp.pand, .por, .pxor, .pnot, .pset].contains g || bitsN w0 15 0 == 0
      | 2 => bitsN w1 15 0 == 0
      | _ => true
    let predsOk := match g with
      | .pand | .por | .pxor => bitsN w0 15 0 == bitsN w0 10 8 * 256 + bitsN w0 6 4 * 16 + bitsN w0 2 0
      | .pnot => bitsN w0 15 0 == bitsN w0 10 8 * 256 + bitsN w0 6 4 * 16
      | .pset => bitsN w0 15 0 == bitsN w0 10 8 * 256 + bitsN w0 0 0
      | _ => true
    some { sense := bitN w0 31, pred := bitsN w0 30 28, op := g, size := 2 ^ bitsN w0 17 16, specs := ps, word0 := w0
           len := len
           legal := unused && predsOk && sizeLegal g (bitsN w0 17 16) && blockLegal g ps &&
             (roles.zip ps).all (fun rp => specLegal g rp.1 rp.2) }

/-! ### Encoding (Table 13-5, Table 13-9) -/

/-- The group and the operation code of an operation. -/
def gopCode : GOp → Nat × Nat
  | .nop => (0, 0x00)
  | .br => (0, 0x01)
  | .call => (0, 0x02)
  | .ret => (0, 0x03)
  | .rfi => (0, 0x04)
  | .halt => (0, 0x05)
  | .wait => (0, 0x06)
  | .trap => (0, 0x07)
  | .fence => (0, 0x08)
  | .signal => (0, 0x09)
  | .mov => (1, 0x00)
  | .movsx => (1, 0x01)
  | .movzx => (1, 0x02)
  | .lea => (1, 0x03)
  | .add => (2, 0x00)
  | .sub => (2, 0x01)
  | .adds => (2, 0x02)
  | .subs => (2, 0x03)
  | .neg => (2, 0x04)
  | .abs => (2, 0x05)
  | .mul => (2, 0x06)
  | .mulhs => (2, 0x07)
  | .mulhu => (2, 0x08)
  | .mac => (2, 0x09)
  | .min => (2, 0x0A)
  | .max => (2, 0x0B)
  | .minu => (2, 0x0C)
  | .maxu => (2, 0x0D)
  | .and => (3, 0x00)
  | .or => (3, 0x01)
  | .xor => (3, 0x02)
  | .not => (3, 0x03)
  | .shl => (3, 0x04)
  | .shr => (3, 0x05)
  | .sar => (3, 0x06)
  | .rol => (3, 0x07)
  | .brev => (3, 0x08)
  | .clz => (3, 0x09)
  | .popc => (3, 0x0A)
  | .cmpeq => (4, 0x00)
  | .cmpne => (4, 0x01)
  | .cmplt => (4, 0x02)
  | .cmple => (4, 0x03)
  | .cmpltu => (4, 0x04)
  | .cmpleu => (4, 0x05)
  | .tstz => (4, 0x06)
  | .tstnz => (4, 0x07)
  | .pand => (4, 0x10)
  | .por => (4, 0x11)
  | .pxor => (4, 0x12)
  | .pnot => (4, 0x13)
  | .pset => (4, 0x14)
  | .mulq => (5, 0x00)
  | .macq => (5, 0x01)
  | .satq => (5, 0x02)
  | .ldr => (6, 0x00)
  | .str => (6, 0x01)
  | .addr => (6, 0x02)
  | .evtake => (6, 0x03)
  | .bmov => (7, 0x00)
  | .bfill => (7, 0x01)
  | .badds => (7, 0x02)
  | .bmulq => (7, 0x03)
  | .bmacq => (7, 0x04)
  | .bdot => (7, 0x05)
  | .bpeak => (7, 0x06)
  | .prsIssue => (8, 0x00)
  | .prsWait => (8, 0x01)
  | .prsPoll => (8, 0x02)
  | .mglIssue => (8, 0x04)
  | .mglCollect => (8, 0x05)
  | .mglPoll => (8, 0x06)

/-- A specifier's 16 bits. -/
def specRaw (p : Spec) : Nat := 4096 * p.mode + 256 * p.an + 16 * p.mn + p.opts

/-- The 16 bits of word 0 below the size field: field 1, or what the operation without a specifier keeps there. -/
def gLow (i : GInstr) : Nat := match i.specs with
  | [] => i.word0 % 65536
  | p :: _ => p.raw

/-- Word 0 of an instruction. -/
def gWord0 (i : GInstr) : Nat :=
  2 ^ 31 * b2n i.sense + 2 ^ 28 * i.pred + 2 ^ 24 * (gopCode i.op).1 + 2 ^ 18 * (gopCode i.op).2 +
    65536 * (if i.size = 1 then 0 else if i.size = 2 then 1 else if i.size = 4 then 2 else 3) + gLow i

/-- Word 1, of an instruction with two fields or three. -/
def gWord1 (i : GInstr) : List Nat := match i.specs with
  | [_, q] => [65536 * q.raw]
  | [_, q, r] => [65536 * q.raw + r.raw]
  | _ => []

/-- The extension words, in field order. -/
def gExts (i : GInstr) : List Nat :=
  (((rolesOf i.op).zip i.specs).filter (fun rp => needsExt rp.1 rp.2)).map (fun rp => rp.2.ext)

/-- The words of an instruction. -/
def gWords (i : GInstr) : List Nat := gWord0 i :: (gWord1 i ++ gExts i)

/-- The bytes of an instruction. -/
def gEncode (i : GInstr) : List Byte := (gWords i).flatMap (leBytes 4)

/-- The fields of a specifier fit, and one without an extension word has none. -/
def specWf (r : Role) (p : Spec) : Bool :=
  decide (p.mode < 16 ∧ p.an < 16 ∧ p.mn < 16 ∧ p.opts < 16 ∧ p.raw = specRaw p ∧ p.ext < 2 ^ 32) && (needsExt r p || p.ext == 0)

/-- The low half of word 0 of a predicate operation (R374); the other operations without a specifier keep zero there. -/
def gLowLegal (i : GInstr) : Bool :=
  let w := i.word0 % 65536
  let d := bitsN w 10 8
  let a := bitsN w 6 4
  match i.op with
  | .pand | .por | .pxor => w == 256 * d + 16 * a + w % 8
  | .pnot => w == 256 * d + 16 * a
  | .pset => w == 256 * d + w % 2
  | _ => w == 0

/-- A well-formed instruction: its fields fit, and it keeps every rule of R365, R374, R375 and R377. -/
def gWf (i : GInstr) : Bool :=
  decide (i.pred < 8) && [1, 2, 4, 8].contains i.size && decide (i.specs.length = (rolesOf i.op).length) &&
    ((rolesOf i.op).zip i.specs).all (fun rp => specWf rp.1 rp.2 && specLegal i.op rp.1 rp.2) &&
    (!i.specs.isEmpty || gLowLegal i) && sizeLegal i.op (bitsN (gWord0 i) 17 16) && blockLegal i.op i.specs &&
    decide (i.word0 = gWord0 i ∧ i.len = 4 * (gWords i).length) && i.legal

/-- A guard lets its instruction execute (Table 13-5). -/
def guardHolds (preds : Nat) (i : GInstr) : Bool :=
  let p := if i.pred = 0 then true else bitN preds i.pred
  p != i.sense

/-! ### Addressing (R367 to R369) -/

/-- Register-file reads. -/
def rA (c : Core) (i : Nat) : Nat := c.a.getD i 0
def rM (c : Core) (i : Nat) : Nat := c.m.getD i 0
def rL (c : Core) (i : Nat) : Nat := c.l.getD i 0
def rB (c : Core) (i : Nat) : Nat := c.b.getD i 0

/-- An address register written, modulo 2^40 (R362). -/
def setA (c : Core) (i : Nat) (v : Int) : Core := { c with a := c.a.set i (ofSigned 40 v) }

/-- The reversal of the low `w` bits of a number. -/
def revBits (w n : Nat) : Nat := ((List.range w).map (fun i => if bitN n i then 2 ^ (w - 1 - i) else 0)).foldl (· + ·) 0

/-- The exponent of a power of two from 1 to 16. -/
def log2Of (n : Nat) : Option Nat := ((List.range 16).map (· + 1)).find? (fun w => 2 ^ w == n)

/-- What an operand specifier gives: an address, an immediate value, or the exception MODULO. -/
inductive EaRes where
  | addr (ea : Nat)
  | value (v : Int)
  | modulo
  deriving DecidableEq, Repr

/-- The effective address of a specifier for an operand of `s` bytes, and the core with its address register updated. -/
def effAddr (c : Core) (pc s : Nat) (p : Spec) : EaRes × Core :=
  let an := rA c p.an
  let mn := toSigned 32 (rM c p.mn)
  let ext := toSigned 32 p.ext
  match p.mode with
  | 0 => (.addr p.ext, c)
  | 1 => (.addr an, c)
  | 2 => (.addr an, setA c p.an (an + s))
  | 3 => (.addr (ofSigned 40 (an - s)), setA c p.an (an - s))
  | 4 => (.addr an, setA c p.an (an + mn))
  | 5 => (.addr (ofSigned 40 (an + ext)), c)
  | 6 =>
    let base := rB c p.an
    let len := rL c p.an
    if len = 0 ∨ len % s ≠ 0 ∨ an < base ∨ base + len ≤ an ∨ len < mn.natAbs then (.modulo, c)
    else (.addr an, setA c p.an (base + ((an : Int) - base + mn) % len))
  | 7 =>
    let base := rB c p.an
    let len := rL c p.an
    match log2Of (len / s) with
    | none => (.modulo, c)
    | some w =>
      if len ≠ s * 2 ^ w ∨ mn % s ≠ 0 ∨ an < base ∨ (an - base) % s ≠ 0 ∨ base + len ≤ an then (.modulo, c)
      else
        let i := (an - base) / s
        let m := ofSigned w (mn / s)
        (.addr an, setA c p.an (base + s * revBits w ((revBits w i + revBits w m) % 2 ^ w)))
  | 8 => (.value (if p.opts = 8 then toSigned 8 (bitsN p.raw 11 4) else ext), c)
  | 9 => (.addr (ofSigned 40 (an + mn * 2 ^ p.opts)), c)
  | _ => (.addr (ofSigned 40 (pc + ext)), c)

/-! ### Arithmetic (R373 to R375, R377) -/

/-- Saturation of an exact value to `b` bits, signed: the value and whether it clipped. -/
def satTo (b : Nat) (v : Int) : Int × Bool :=
  let lo : Int := -(2 ^ (b - 1) : Nat)
  let hi : Int := (2 ^ (b - 1) : Nat) - 1
  if v < lo then (lo, true) else if hi < v then (hi, true) else (v, false)

/-- Rounding of an exact product of two fixed-point numbers of `b` bits (R375). -/
def rndQ (b : Nat) (x : Int) : Int := (x + (2 ^ (b - 2) : Nat)) / (2 ^ (b - 1) : Nat)

/-- The flags `Z` and `N` of a result of `b` bits. -/
def flagsZN (f : Word) (b r : Nat) : Word := putBit (putBit f 0 (r == 0)) 1 (bitN r (b - 1))

/-- The flags `Z`, `N`, `C` and `V`. -/
def flagsAll (f : Word) (b r : Nat) (carry ovf : Bool) : Word := putBit (putBit (flagsZN f b r) 2 carry) 3 ovf

/-- The sticky flag `SAT` (R375). -/
def flagsSat (f : Word) (clip : Bool) : Word := if clip then putBit f 8 true else f

/-- A signed value lies in the range of `b` bits. -/
def inRange (b : Nat) (v : Int) : Bool := (satTo b v).2 == false

/-- The result of a group-2, group-3 or group-5 operation on unsigned operands of `b` bits, and the new flags. `old` is
the destination's value; `free` stands for a result that the spec does not state (the absolute value of the most
negative number, assumption 3). -/
def aluOp (g : GOp) (b : Nat) (f : Word) (old x y free : Nat) : Nat × Word :=
  let m := 2 ^ b
  let sx := toSigned b x
  let sy := toSigned b y
  let so := toSigned b old
  let zn (r : Nat) : Nat × Word := (r % m, flagsZN f b (r % m))
  let sat (v : Int) (fl : Word) : Nat × Word := (ofSigned b (satTo b v).1, flagsSat fl (satTo b v).2)
  match g with
  | .add => ((x + y) % m, flagsAll f b ((x + y) % m) (decide (m ≤ x + y)) (!inRange b (sx + sy)))
  | .sub => let r := ofSigned b (sx - sy); (r, flagsAll f b r (decide (y ≤ x)) (!inRange b (sx - sy)))
  | .neg => let r := ofSigned b (-sx); (r, flagsAll f b r (x == 0) (!inRange b (-sx)))
  | .adds => let r := sat (sx + sy) f; (r.1, flagsZN r.2 b r.1)
  | .subs => let r := sat (sx - sy) f; (r.1, flagsZN r.2 b r.1)
  | .abs => if x = m / 2 then zn free else zn sx.natAbs
  | .mul => zn (x * y)
  | .mulhs => zn (ofSigned b (sx * sy / (m : Nat)))
  | .mulhu => zn (x * y / m)
  | .mac => zn (old + x * y)
  | .min => zn (if sx ≤ sy then x else y)
  | .max => zn (if sx ≤ sy then y else x)
  | .minu => zn (min x y)
  | .maxu => zn (max x y)
  | .and => zn (Nat.land x y)
  | .or => zn (Nat.lor x y)
  | .xor => zn (Nat.xor x y)
  | .not => zn (m - 1 - x)
  | .shl => zn (x * 2 ^ (y % b))
  | .shr => zn (x / 2 ^ (y % b))
  | .sar => zn (ofSigned b (sx / (2 ^ (y % b) : Nat)))
  | .rol => zn (x * 2 ^ (y % b) % m + x / 2 ^ (b - y % b))
  | .brev => zn (revBits b x)
  | .clz => zn (match ((List.range b).find? (fun i => bitN x (b - 1 - i))) with | some i => i | none => b)
  | .popc => zn (popCount x b)
  | .mulq | .bmulq => sat (rndQ b (sx * sy)) f
  | .macq | .bmacq => sat (so + rndQ b (sx * sy)) f
  | .badds => sat (sx + sy) f
  | .bmov | .bfill | .mov => (x, f)
  | .bdot => (ofSigned 64 (toSigned 64 old + sx * sy), f)
  | .bpeak =>
    let v : Int := if x = m / 2 then toSigned b (free % m) else (sx.natAbs : Int)
    (if so ≤ v then ofSigned b v else old, f)
  | _ => (x, f)

/-- The result of a compare (R374). -/
def cmpOp (g : GOp) (b x y : Nat) : Bool :=
  let sx := toSigned b x
  let sy := toSigned b y
  match g with
  | .cmpeq => x == y
  | .cmpne => x != y
  | .cmplt => decide (sx < sy)
  | .cmple => decide (sx ≤ sy)
  | .cmpltu => decide (x < y)
  | .cmpleu => decide (x ≤ y)
  | .tstz => Nat.land x y == 0
  | .tstnz => Nat.land x y != 0
  | _ => false

/-- A predicate written: writes to `P0` are ignored (Table 13-3). -/
def setPred (preds d : Nat) (v : Bool) : Nat :=
  if d = 0 then preds else if bitN preds d = v then preds else if v then preds + 2 ^ d else preds - 2 ^ d

/-- A predicate read: `P0` reads 1. -/
def getPred (preds d : Nat) : Bool := d == 0 || bitN preds d

/-- The predicate operations `PAND` to `PSET` (R374). -/
def predOp (g : GOp) (preds w0 : Nat) : Nat :=
  let d := bitsN w0 10 8
  let a := getPred preds (bitsN w0 6 4)
  let b := getPred preds (bitsN w0 2 0)
  match g with
  | .pand => setPred preds d (a && b)
  | .por => setPred preds d (a || b)
  | .pxor => setPred preds d (a != b)
  | .pnot => setPred preds d (!a)
  | .pset => setPred preds d (bitN w0 0)
  | _ => preds

/-! ### Registers of group 6 (R374) -/

/-- Bytes that `LDR` and `STR` move for a register selector. -/
def selSize (raw : Nat) : Nat :=
  match bitsN raw 7 4 with
  | 0 | 3 => 8
  | 4 => match bitsN raw 3 0 with
    | 0 => 2
    | 2 => 1
    | _ => 4
  | _ => 4

/-- Control registers that a write makes ILLEGAL (R364). -/
def crReadOnly (i : Nat) : Bool := [8, 9, 10, 13, 14, 15].contains i

end Sys2Proof.Machine
end

