-- ==== Sys2Proof/Machine/Isolation.lean ====
section
/-! DEFINITION. Worlds and owners, Hem controllers and access-rule units (spec 14, R394, R406 to R413). -/

namespace Sys2Proof.Machine

/-- The kind of an internal access. -/
inductive AccKind where
  | read | write | fetch
  deriving DecidableEq, Repr

/-- Who makes an internal access: its agent ID, its world and the owner a normal access carries (Table 14-1). -/
structure Accessor where
  agent  : Nat
  secure : Bool
  owner  : Nat := 0
  deriving DecidableEq, Repr

/-- The Hem controller in front of an address (Table 14-7). -/
def hemOf (a : Nat) : Option Nat :=
  if a < 0x80000 then some 0
  else if 0x10000000 ≤ a ∧ a < 0x10400000 then some 1
  else if 0x40000000 ≤ a ∧ a < 0x44000000 then some 2
  else if 0x80000000 ≤ a ∧ a < 0x810B0000 then some 3
  else if 0x20000000 ≤ a ∧ a < 0x21000000 then some (4 + a % 0x1000000 / 0x100000)
  else none

/-- A region register of a controller: place 0 base, 4 limit, 8 attributes (Table 14-13). -/
def hemReg (s : State) (c n place : Nat) : Word := regGet s (aHem c (0x100 + 16 * n + place))

/-- An enabled region contains a block of 256 B (R407). -/
def hemHolds (s : State) (c n block : Nat) : Bool :=
  bitOf (hemReg s c n 8) 31 && decide ((hemReg s c n 0).toNat ≤ block ∧ block ≤ (hemReg s c n 4).toNat)

/-- The permission bit of an access in `HEM_REGn_ATTR`. -/
def hemBit (secure : Bool) (k : AccKind) : Nat :=
  (if secure then 0 else 4) + (match k with | .read => 0 | .write => 1 | .fetch => 2)

/-- A region admits an access that lies in it (R407). -/
def hemAdmits (s : State) (c n : Nat) (w : Accessor) (k : AccKind) : Bool :=
  let t := hemReg s c n 8
  bitOf t (hemBit w.secure k) && (w.secure || bitOf t 30 || fieldOf t 25 16 == w.owner)

/-- A controller allows an access to a block: some enabled region contains it, and every one that does admits it. -/
def hemAllows (s : State) (c block : Nat) (w : Accessor) (k : AccKind) : Bool :=
  let ns := (List.range 16).filter (fun n => hemHolds s c n block)
  !ns.isEmpty && ns.all (fun n => hemAdmits s c n w k)

/-- A denial is counted, and captured when the capture is armed; Tortin records each capture (R408). -/
def hemDeny (s : State) (c a : Nat) (w : Accessor) (k : AccKind) : State :=
  let s1 := regAdd s (aHem c 4) 1
  if bitOf (regGet s (aHem c 0x14)) 0 then sqcSet s1 (aHem c 0x14) 1
  else
    let info := b2n w.secure * 2 ^ 31 + b2n (k == .write) * 2 ^ 30 + b2n (k == .fetch) * 2 ^ 29 + w.owner % 1024 * 2 ^ 16 +
      w.agent % 1024
    let s2 := regPut (regPut64 s1 (aHem c 8) (aHem c 0xC) (BitVec.ofNat 64 a)) (aHem c 0x10) (BitVec.ofNat 32 info)
    let s3 := sqcSet s2 (aHem c 0x14) 0
    tallyPut s3 (agHem c) 0x0184 [(0x12, w.agent), (1, w.owner), (7, a)]

/-- An access of `n` bytes is checked: allowed, or denied with the state that records it. -/
def hemCheck (s : State) (w : Accessor) (a n : Nat) (k : AccKind) : Bool × State :=
  match hemOf a with
  | none => (true, s)
  | some c =>
    if hemAllows s c (a / 256) w k && hemAllows s c ((a + n - 1) / 256) w k then (true, s)
    else (false, hemDeny s c a w k)

/-- A controller has denied the CP an access: a data-access exception, a Tally record, and a CP firmware restart that Tortin then performs
(R408). Tortin runs no more until the row `CP_FIRMWARE_RESTART` performs it (assumption 58). -/
def cpDenied (s : State) (a : Nat) : State :=
  tallyPut { s with dev := { s.dev with cpExc := s.dev.cpExc + 1, restartDue := s.dev.restartDue || s.tortin.server == 3 } }
    agCp 0x0185 [(7, a)]

/-- An access of the CP, which is secure, to a register word passes the Hem controller in front of it; other requesters are not checked
here (R394). -/
def cpCheck (s : State) (r : Requester) (a : Nat) (k : AccKind) : Bool × State :=
  if r = .cp then
    match hemCheck s { agent := agCp, secure := true } a 4 k with
    | (true, s1) => (true, s1)
    | (false, s1) => (false, cpDenied s1 a)
  else (true, s)

/-- Enabling a region that overlaps another enabled one is an event (R407). -/
def hemOverlap (s : State) (c n : Nat) : State :=
  if !bitOf (hemReg s c n 8) 31 then s
  else
    let lo := (hemReg s c n 0).toNat
    let hi := (hemReg s c n 4).toNat
    let hit := (List.range 16).any (fun m => m != n && bitOf (hemReg s c m 8) 31 &&
      decide ((hemReg s c m 0).toNat ≤ hi ∧ lo ≤ (hemReg s c m 4).toNat))
    if hit then sqcSet s (aHem c 0x14) 2 else s

/-! ### Access-rule units (R411) -/

/-- A rule register of a unit: set 0 A or 1 B, rule n, place 0 base, 4 limit, 8 attributes (Table 14-14). -/
def aruReg (s : State) (u set_ n place : Nat) : Word := regGet s (aAru u (0x100 + 0x100 * set_ + 16 * n + place))

/-- The enabled rules of a set that contain a block, in rising order. -/
def aruRules (s : State) (u set_ block : Nat) : List Nat :=
  (List.range 16).filter (fun n => bitOf (aruReg s u set_ n 8) 31 &&
    decide ((aruReg s u set_ n 0).toNat ≤ block ∧ block ≤ (aruReg s u set_ n 4).toNat))

/-- The rule that applies to a block: the lowest or the highest of them, by `ARU_CFG.MODE` (R411). -/
def aruRule (s : State) (u set_ block : Nat) : Option Nat :=
  let ns := aruRules s u set_ block
  if bitOf (regGet s (aAru u 0)) 0 then ns.getLast? else ns.head?

/-- An access through a unit: allowed, or refused with the state that captures it (R411). -/
def aruCheck (s : State) (u set_ a : Nat) (k : AccKind) : Bool × State :=
  match aruRule s u set_ (a / 256) with
  | none => (true, s)
  | some n =>
    let bit := match k with | .read => 0 | .write => 1 | .fetch => 2
    if bitOf (aruReg s u set_ n 8) bit then (true, s)
    else
      let s1 := regPut64 s (aAru u 8) (aAru u 0xC) (BitVec.ofNat 64 a)
      (false, regPut s1 (aAru u 0x10) (BitVec.ofNat 32 (2 ^ 31 + set_ * 256 + n * 16 + 2 ^ bit)))

end Sys2Proof.Machine
end

