-- ==== Sys2Proof/Machine/Dma.lean ====
section
/-! DEFINITION. The operation port of the Hamper, the DMA channels and the event-matrix commands (spec 09, R238, R249 to
R263; spec 14, R417, R418). -/

namespace Sys2Proof.Machine

/-! ### The operation port (R238) -/

/-- An operation port is used: the requester's argument register holds the operation, which is then performed. A requester
without a port has its write ignored and counted (R261). No requester reaches the port while the fast domain has no power (Table 1-8). -/
def opRun (s0 : State) (r : Requester) (as_ arg : Nat) (f : Nat → Nat → State → State) : State :=
  let s := touchFast s0
  if !fastPowered s0 then s0
  else match opPort r as_ with
  | none => ignWrite s
  | some (p, tag) => f p tag { s with hamper := { s.hamper with
      opArg := tblSet 0 p (BitVec.ofNat 32 arg &&& 0xF003FFFF#32) s.hamper.opArg } }

/-- The owner for whom an owner tag acts: a core's program's owner, a slice's owner, else owner 0. -/
def tagOwner (s : State) (tag : Nat) : Nat :=
  match tag / 8192 with
  | 1 => (sliceGet s (tag % 8192)).owner
  | 2 => (coreGet s (tag % 8192)).owner
  | _ => 0

/-- `ENQ` for an owner tag (R241, R246). -/
def opEnq (s : State) (p tag b q : Nat) : State :=
  if !isChain s b || decide (8191 < q) then opResult s p 7 b
  else if (bufGet s b).owner ≠ tag then opResult s p 2 b
  else
    let code := if tag / 8192 = 4 then 2 else enqCode s q (tagOwner s tag) b
    if code = 0 then opResult (enqChain s q b 0) p 0 b
    else if code = 5 then opResult (sqcSet (regAdd s aQueTaintRef 1) aQueEvt 0) p 5 b
    else opResult s p code b

/-- `DEQ` by a core (R247): only the oldest received chain of a queue that delivers to it. -/
def opDeq (s : State) (r : Requester) (p tag q : Nat) : State :=
  match queueGet s q with
  | none => opResult s p (if 8191 < q then 7 else 2) 0
  | some x =>
    if x.dest ≠ 1 ∨ r ≠ .core x.core then opResult s p 2 0
    else match x.rxList with
      | [] => opResult s p 3 0
      | f :: more =>
        if !seamReleased s f.jseq then opResult s p 3 0
        else match hmpTransfer s f.chain tag with
          | none => opResult s p 4 f.chain
          | some s1 => opResult (queuePut s1 q { x with rxList := more }) p 0 f.chain

/-- The operation that `HMP_OP_ARG` holds, with the `VAL` and `AS` of the write of `HMP_OP`. -/
def opWrite (s : State) (r : Requester) (v : Word) : State :=
  match opPort r (fieldOf v 31 16) with
  | none => ignWrite s
  | some (p, tag) =>
    let arg := tblGet 0 s.hamper.opArg p
    let b := fieldOf arg 17 0
    let val := fieldOf v 13 0
    match fieldOf arg 31 28 with
    | 1 => opAlloc s p tag b
    | 2 => opFree s p tag b
    | 3 => opEnq s p tag b val
    | 4 => opDeq s r p tag val
    | 5 => opSetlen s p tag b val
    | _ => opResult s p 7 b

/-- `HMP_ALLOC`: `as_` is the owner tag that the CP names, `n` the count. -/
def execHmpAlloc (r : Requester) (as_ n : Nat) (s : State) : Host.Outcome State Fault Refusal :=
  .next (opRun s r as_ (2 ^ 28 + n) (fun p tag s => opAlloc s p tag n))

/-- `HMP_FREE`: `buf` is the first buffer of a chain. -/
def execHmpFree (r : Requester) (as_ buf : Nat) (s : State) : Host.Outcome State Fault Refusal :=
  .next (opRun s r as_ (2 * 2 ^ 28 + buf) (fun p tag s => opFree s p tag buf))

/-- `HMP_ENQ`. -/
def execHmpEnq (r : Requester) (as_ buf queue : Nat) (s : State) : Host.Outcome State Fault Refusal :=
  .next (opRun s r as_ (3 * 2 ^ 28 + buf) (fun p tag s => opEnq s p tag buf queue))

/-- `HMP_DEQ`. -/
def execHmpDeq (r : Requester) (as_ queue : Nat) (s : State) : Host.Outcome State Fault Refusal :=
  .next (opRun s r as_ (4 * 2 ^ 28) (fun p tag s => opDeq s r p tag queue))

/-- `HMP_SETLEN`. -/
def execHmpSetlen (r : Requester) (as_ buf length : Nat) (s : State) : Host.Outcome State Fault Refusal :=
  .next (opRun s r as_ (5 * 2 ^ 28 + buf) (fun p tag s => opSetlen s p tag buf length))

/-! ### DMA channels: grants and drivers (R251, R253, R417) -/

def dmaCfg (s : State) (c : Nat) : Word := regGet s (aDma c 0)
def dmaSec (s : State) (c : Nat) : Bool := decide (c < 32) || bitOf (dmaCfg s c) 31
def dmaGranted (s : State) (c : Nat) : Bool := decide (c < 32) || bitOf (dmaCfg s c) 0
def dmaSlice (s : State) (c : Nat) : Nat := fieldOf (dmaCfg s c) 15 6
def dmaCore (s : State) (c : Nat) : Nat := fieldOf (dmaCfg s c) 19 16
def dmaFn (s : State) (c : Nat) : Nat := (sliceGet s (dmaSlice s c)).port

/-- The requester drives the channel: the CP, or the driving core of a granted channel without `SEC`. -/
def dmaDrives (s : State) (r : Requester) (c : Nat) : Bool :=
  match r with
  | .cp => true
  | .core n => dmaGranted s c && !dmaSec s c && dmaCore s c == n
  | _ => false

/-- The world and owner of a channel's accesses (R417, Table 14-1). -/
def dmaWho (s : State) (c : Nat) : Accessor :=
  { agent := agDma c, secure := dmaSec s c, owner := (sliceGet s (dmaSlice s c)).owner }

/-- Migration holds the channel: `START` and `CONT` are ignored (R352). -/
def dmaFrozen (s : State) (c : Nat) : Bool :=
  dmaGranted s c && decide (32 ≤ c) && ((sliceGet s (dmaSlice s c)).mode == .migrating || (chanGet s c).frozen)

/-! ### Events, stops and descriptors (R249, R254 to R256) -/

/-- The event of a channel: the bit of `DMA_EVT` and the interrupt in native mode; a pulse on the source's lines (R255). -/
def dmaEvent (s : State) (c bit : Nat) : State :=
  let s1 := evPulse s ((bit + 1) * 0x100 + c)
  if bitOf (dmaCfg s c) 30 then s1
  else
    let s2 := sqcSet s1 (aDma c 0x0C) bit
    let tgt := fieldOf (dmaCfg s c) 29 28
    let s3 := if bitN tgt 0 && !dmaSec s c then
        let k := coreGet s2 (dmaCore s c)
        if k.dmaIrq.contains c then s2 else corePut s2 (dmaCore s c) { k with dmaIrq := k.dmaIrq ++ [c] }
      else s2
    if bitN tgt 1 then raiseVector s3 (dmaSlice s c) (fieldOf (dmaCfg s c) 24 20) else s3

/-- A channel halts with an error at an address: END and ERR (Table 9-10, R252). One that is being aborted ends IDLE with error 6 (R254). -/
def dmaHalt (s : State) (c err addr : Nat) : State :=
  let x := chanGet s c
  let ab := x.stop.any (·.2)
  let s1 := chanPut s c { x with
    mode := if ab then .idle else .halted, err := if ab then 6 else err, want := .none, desc := none, ahead := none, stop := none }
  let s2 := regPut64 s1 (aDma c 0x30) (aDma c 0x34) (BitVec.ofNat 64 addr)
  dmaEvent (dmaEvent (retryDel (retryDel s2 (.dmaDesc c)) (.dmaData c)) c 2) c 3

/-- A channel without outstanding reads is stopped and left IDLE with error 6 (R254); one that is IDLE stays as it is. -/
def dmaAbort (s : State) (c : Nat) : State :=
  let x := chanGet s c
  if x.mode = .idle then s
  else retryDel (retryDel
    (chanPut s c { x with mode := .idle, err := 6, want := .none, desc := none, ahead := none, stop := none, frozen := false })
    (.dmaDesc c)) (.dmaData c)

/-- A channel without outstanding reads is paused (R254). -/
def dmaPause (s : State) (c : Nat) : State :=
  let x := chanGet s c
  if x.mode = .running ∨ x.mode = .waitTrig then chanPut s c { x with mode := .paused, resume := x.mode, stop := none } else s

/-- A paused channel continues where it stopped (R254). -/
def dmaCont (s : State) (c : Nat) : State :=
  let x := chanGet s c
  if x.mode = .paused then chanPut s c { x with mode := x.resume } else s

/-- A descriptor's control bits (Table 9-9). -/
def dIH (d : DmaDesc) : Bool := bitN d.ctl 0
def dIF (d : DmaDesc) : Bool := bitN d.ctl 1
def dCirc (d : DmaDesc) : Bool := bitN d.ctl 2
def dSrcChain (d : DmaDesc) : Bool := bitN d.ctl 3
def dDstChain (d : DmaDesc) : Bool := bitN d.ctl 4
def dSwrap (d : DmaDesc) : Nat := bitsN d.ctl 9 5
def dDwrap (d : DmaDesc) : Nat := bitsN d.ctl 14 10
def dTrig (d : DmaDesc) : Bool := bitN d.ctl 15
def dEnd (d : DmaDesc) : Bool := bitN d.link 0

/-- A link word is well formed: [63:40] and [4:1] are zero (Table 9-8). -/
def linkWordOk (w : Nat) : Bool := decide (w < 2 ^ 40 ∧ bitsN w 4 1 = 0)

/-- A descriptor as it was read (Table 9-8); none when R249 halts the channel with error 5. -/
def descOf (at_ : Nat) (bs : List Byte) : Option DmaDesc :=
  let d : DmaDesc := { at_ := at_, src := leAt bs 0 8, dst := leAt bs 8 8, len := leAt bs 16 4, ctl := leAt bs 20 2
                       link := leAt bs 24 8 }
  let wrapOk (k : Nat) : Bool := decide (k = 0 ∨ (8 ≤ k ∧ k ≤ 24))
  let lapOk (k : Nat) : Bool := decide (k = 0 ∨ d.len ≤ 2 ^ k)
  if d.src < 2 ^ 40 ∧ d.dst < 2 ^ 40 ∧ leAt bs 22 2 = 0 ∧ 1 ≤ d.len ∧ d.len ≤ 16777216 ∧ linkWordOk d.link ∧
      wrapOk (dSwrap d) ∧ wrapOk (dDwrap d) ∧ !(dCirc d && (dSrcChain d || dDstChain d)) ∧
      (!dCirc d || (lapOk (dSwrap d) && lapOk (dDwrap d))) then some d else none

/-- A channel turns to a descriptor: `DMA_POS` names it; it waits for its trigger if it asks for one (Table 9-9); the next
one is to be read ahead (R256). -/
def dmaBegin (s : State) (c : Nat) (d : DmaDesc) : State :=
  let x := chanGet s c
  let s1 := chanPut s c { x with
    desc := some d, ahead := none, done := 0, src := d.src, dst := d.dst
    mode := if dTrig d then .waitTrig else .running
    want := if dCirc d || dEnd d then .none else .fetch d.link }
  regPut (regPut64 s1 (aDma c 0x1C) (aDma c 0x20) (BitVec.ofNat 64 d.at_)) (aDma c 0x24) 0

/-! ### Where a channel reads and writes (R249, R251) -/

/-- What an internal address names for a DMA channel. -/
inductive DmaPlace where
  | host (iova : Nat)
  | buf (b off : Nat)
  | work (core off : Nat)
  | instr (core off : Nat)
  | sram (off : Nat)
  | rom
  | reg
  | nowhere
  deriving DecidableEq, Repr

/-- Decoding of an internal address (Table 1-2): the register blocks are listed with their unassigned offsets, which read zero and take no write
(R16). -/
def dmaPlace (a : Nat) : DmaPlace :=
  if 2 ^ 40 ≤ a then .nowhere
  else if 2 ^ 32 ≤ a then .host (a - 2 ^ 32)
  else if 0x40000000 ≤ a ∧ a < 0x44000000 then .buf (bufOffset a / 256) (a % 256)
  else if 0x20000000 ≤ a ∧ a < 0x21000000 ∧ 0x80000 ≤ a % 0x100000 ∧ a % 0x100000 < 0xC0000 then
    .work (a % 0x1000000 / 0x100000) (a % 0x40000)
  else if 0x20000000 ≤ a ∧ a < 0x21000000 ∧ a % 0x100000 < 0x10000 then .instr (a % 0x1000000 / 0x100000) (a % 0x10000)
  else if 0x10000000 ≤ a ∧ a < 0x10400000 then .sram (a % 0x400000)
  else if a < 0x80000 then .rom
  else if 0x80000000 ≤ a ∧ a < 0x810B0000 then .reg
  else .nowhere

/-- An access of `n` bytes within one block of 256 B: error 0 when it may be made, 3 a bus error or a Hem denial, 4 an
ownership failure (R251, R252). A core's channel reaches its core's work memory, not its instruction memory, and no register block; the Hem
controller checks those accesses too. A register block is reached only with aligned 4 B accesses (R431). -/
def dmaMay (s : State) (c a n : Nat) (k : AccKind) : Nat × State :=
  let own := dmaSec s c
  let hem : Nat × State := let (ok, s1) := hemCheck s (dmaWho s c) a n k; (if ok then 0 else 3, s1)
  match dmaPlace a with
  | .host _ => (0, s)
  | .buf b _ => if !own && (!(bufGet s b).held || (bufGet s b).owner ≠ tagCore (dmaCore s c)) then (4, s) else hem
  | .work m _ => if !own && m ≠ dmaCore s c then (3, hem.2) else hem
  | .instr _ _ | .sram _ => if own then hem else (3, hem.2)
  | .rom => if own && k == .read then hem else (3, hem.2)
  | .reg => if own && n == 4 && a % 4 == 0 then hem else (3, hem.2)
  | .nowhere => (3, s)

/-- What a read of `n` bytes finds: bytes that the state holds, or what the host, or the boot ROM, answers; none when the host read fails. -/
def dmaFetch (s : State) (c a n : Nat) (data : HostRead) : Option (List Byte) :=
  match dmaPlace a with
  | .buf b off => some (bufRead s b off n)
  | .work m off => some (memRead (coreGet s m).work off n)
  | .instr m off => some (memRead (coreGet s m).instr off n)
  | .sram off => some (memRead s.dev.sram off n)
  | .host _ => if !fnLive s (dmaFn s c) || hostSilent s then none else match data with
    | .data bs => some (bytesAt bs 0 n)
    | .fault => none
  | _ => match data with
    | .data bs => some (bytesAt bs 0 n)
    | .fault => none

/-- Bytes arrive at an internal address. -/
def dmaStore (s : State) (c a : Nat) (bs : List Byte) (tainted : Bool) : State :=
  let note (s : State) : State :=
    if tainted then
      let s1 := chanPut s c { chanGet s c with taint := true }
      if bitOf (dmaCfg s c) 30 then s1 else sqcSet s1 (aDma c 0x0C) 4
    else s
  match dmaPlace a with
  | .buf b off =>
    let s1 := bufWrite s b off bs
    if tainted then bufPut s1 b { bufGet s1 b with taint := true } else s1
  | .work m off =>
    let k := coreGet s m
    note (corePut s m { k with work := memWrite k.work off bs })
  | .instr m off =>
    let k := coreGet s m
    note (corePut s m { k with instr := memWrite k.instr off bs })
  | .sram off => note { s with dev := { s.dev with sram := memWrite s.dev.sram off bs } }
  | .host iova => note (hostWrite s (dmaSlice s c) iova bs)
  | _ => note s

/-! ### One read of a channel -/

/-- Retries of a host access of a channel: Tortin's channels take those of the slice that they serve (R252). -/
def dmaRetries (s : State) (c : Nat) : Nat :=
  if c < 32 then (sliceGet s (dmaSlice s c)).retry else fieldOf (dmaCfg s c) 27 25

/-- A host access of a channel fails: it is set up for its retry, or the channel halts with error 1, or 2 when translation
failed (R252). -/
def dmaFail (s : State) (c : Nat) (w : HostAccess) (translation : Bool) (addr : Nat) : State :=
  if dmaRetries s c < retryFails s w + 1 then dmaHalt s c (if translation then 2 else 1) addr
  else retryPut s w (retryFails s w + 1)

/-- A descriptor, or the last link word again, is read (R256, R257). A read-ahead descriptor that is malformed or cannot be read halts the
channel at once, with the one in progress (DESIGN CHOICE, assumption 30). -/
def dmaDescRead (s : State) (c : Nat) (data : HostRead) (translation : Bool) : State :=
  let x := chanGet s c
  let read (a n : Nat) (f : State → List Byte → State) : State :=
    match dmaMay s c a n .read with
    | (0, s1) => match dmaFetch s1 c a n data with
      | none => dmaFail s1 c (.dmaDesc c) translation a
      | some bs => f (retryDel s1 (.dmaDesc c)) bs
    | (e, s1) => dmaHalt s1 c e a
  match x.want with
  | .none => s
  | .fetch a =>
    if x.mode ≠ .running ∧ x.mode ≠ .waitTrig then s
    else read a 32 (fun s bs => match descOf a bs with
      | none => dmaHalt s c 5 a
      | some d => if x.desc.isNone then dmaBegin s c d else chanPut s c { x with ahead := some d, want := .none })
  | .relink a =>
    if x.mode ≠ .stopped then s
    else read (a + 24) 8 (fun s bs =>
      let w := leAt bs 0 8
      if !linkWordOk w then dmaHalt s c 5 a
      else if bitN w 0 then chanPut s c { x with want := .none }
      else chanPut s c { x with mode := .running, desc := none, want := .fetch w })

/-- The descriptor in progress, or its lap, has ended: LAPS, FULL, and what follows (R250, R255, R256). -/
def dmaEnd (s : State) (c : Nat) (d : DmaDesc) : State :=
  let s1 := regPut s (aDma c 0x38) (regGet s (aDma c 0x38) + 1)
  let s2 := if dIF d then dmaEvent s1 c 1 else s1
  let x := chanGet s2 c
  if dCirc d then
    regPut (chanPut s2 c { x with
      done := 0
      src := if dSwrap d = 0 then d.src else x.src
      dst := if dDwrap d = 0 then d.dst else x.dst }) (aDma c 0x24) 0
  else if dEnd d then dmaEvent (chanPut s2 c { x with mode := .stopped, desc := none, want := .none }) c 2
  else match x.ahead with
    | some d1 => dmaBegin s2 c d1
    | none => chanPut s2 c { x with desc := none }

/-- The address that a side reaches: in a chain, byte `done` of it; none beyond the chain's end, which is that of its buffers, COUNT times 256 B,
and not its LENGTH (R250; DESIGN CHOICE, assumption 30). -/
def sideAddr (s : State) (chain : Bool) (start now done : Nat) : Option Nat :=
  if !chain then some now
  else match (chainOf s (bufOffset start / 256))[done / 256]? with
    | none => none
    | some b => some (0x40000000 + 256 * b + done % 256)

/-- The side of a chain descriptor names the first buffer of a held chain (Table 9-9). -/
def sideFirst (s : State) (chain : Bool) (start : Nat) : Bool :=
  !chain || (decide (0x40000000 ≤ start ∧ start < 0x44000000 ∧ start % 256 = 0) && isChain s (bufOffset start / 256))

/-- An address after `n` bytes: within its aligned region when a wrap code is given (R250). -/
def wrapNext (k a n : Nat) : Nat := if k = 0 then a + n else a / 2 ^ k * 2 ^ k + (a % 2 ^ k + n) % 2 ^ k

/-- Bytes up to the next boundary that one read may not cross: a wrap, a block of 256 B of an internal address, or the end of the host memory
window, beyond which every address is unmapped (R12, R13). -/
def sideRun (k a : Nat) : Nat :=
  min (if 2 ^ 32 ≤ a then (if a < 2 ^ 40 then min 512 (2 ^ 40 - a) else 512) else 256 - a % 256) (if k = 0 then 512 else 2 ^ k - a % 2 ^ k)

/-- Reads of a channel that the descriptor in progress, or its lap, still needs, from `done` bytes on: at most `fuel`. -/
def readsLeft (s : State) (d : DmaDesc) : Nat → Nat → Nat → Nat → Nat
  | 0, _, _, _ => 0
  | fuel + 1, done, src, dst =>
    if d.len ≤ done then 0
    else match sideAddr s (dSrcChain d) d.src src done, sideAddr s (dDstChain d) d.dst dst done with
      | some sa, some da =>
        let n := min (min 512 (d.len - done)) (min (sideRun (dSwrap d) sa) (sideRun (dDwrap d) da))
        1 + readsLeft s d fuel (done + n) (wrapNext (dSwrap d) src n) (wrapNext (dDwrap d) dst n)
      | _, _ => 0

/-- The outstanding reads of a channel: a running one issues them as early as its bound of 8 allows, within the descriptor or lap in progress
(DESIGN CHOICE, assumption 30); once it is to stop, those that are left. With 256 channels the engine's bound of 2,048 then always holds
(Table 9-13). -/
def dmaReads (s : State) (c : Nat) : Nat :=
  let x := chanGet s c
  match x.stop, x.mode, x.desc with
  | some k, _, _ => k.1
  | none, .running, some d => readsLeft s d 8 x.done x.src x.dst
  | _, _, _ => 0

/-- A `PAUSE`: no new read is issued, and the channel is PAUSED after its outstanding reads (R254). -/
def dmaPauseSoon (s : State) (c : Nat) : State :=
  let x := chanGet s c
  if x.mode = .running ∧ dmaReads s c ≠ 0 then chanPut s c { x with stop := x.stop.or (some (dmaReads s c, false)) } else dmaPause s c

/-- An `ABORT`: the channel stops in the same way, and is IDLE with error 6 then (R254). -/
def dmaAbortSoon (s : State) (c : Nat) : State :=
  if (chanGet s c).mode = .running ∧ dmaReads s c ≠ 0 then chanPut s c { chanGet s c with stop := some (dmaReads s c, true) }
  else dmaAbort s c

/-- A read of a channel has completed: one that is to stop does so after its last one (R254). -/
def dmaSettle (s : State) (c : Nat) : State :=
  let x := chanGet s c
  match x.stop with
  | none => s
  | some (k, ab) =>
    if (x.mode = .running ∨ x.mode = .waitTrig) ∧ 1 < k then chanPut s c { x with stop := some (k - 1, ab) }
    else if ab then dmaAbort s c
    else dmaPause (chanPut s c { x with stop := none }) c

/-- A register access of the channels, as `dmaDataRead` makes it: a read and a write. -/
structure RegPath where
  read  : State → Nat → Word × State
  write : State → Nat → Word → State

/-- The bytes of the next read of a channel, from a register, or from memory. -/
def dmaTake (path : RegPath) (s : State) (c sa n : Nat) (data : HostRead) : Option (List Byte) × State :=
  if dmaPlace sa = .reg then
    let (w, t) := path.read s sa
    (some (leBytes 4 w.toNat), t)
  else (dmaFetch s c sa n data, s)

/-- An address lies in a buffer, which the Hamper switch serves. -/
def inBuf (a : Nat) : Bool := match dmaPlace a with
  | .buf _ _ => true
  | _ => false

/-- `n` bytes that a channel read go to their destination, and the channel moves on (R250, R252). -/
def dmaMove (path : RegPath) (s : State) (c : Nat) (d : DmaDesc) (sa da n : Nat) (bs : List Byte) : State :=
  let x := chanGet s c
  let taint := match dmaPlace sa with | .buf b _ => (bufGet s b).taint | _ => false
  let s0 := retryDel (if inBuf sa || inBuf da then touchFast s else s) (.dmaData c)
  let s1 := if dmaPlace da = .reg then path.write s0 da (BitVec.ofNat 32 (leAt bs 0 4)) else dmaStore s0 c da bs taint
  let y := chanGet s1 c
  let done := x.done + n
  let s2 := regPut (chanPut s1 c { y with done := done, src := wrapNext (dSwrap d) x.src n, dst := wrapNext (dDwrap d) x.dst n })
    (aDma c 0x24) (BitVec.ofNat 32 done)
  let half := (d.len + 1) / 2
  let s3 := if dIH d && decide (x.done < half ∧ half ≤ done) then dmaEvent s2 c 0 else s2
  dmaSettle (if done = d.len then dmaEnd s3 c d else s3) c

/-- The accesses of the next move are allowed: the data moves, or the access to the host fails. Where a read succeeds or needs no host,
`translation` says that the translation of a destination in host memory fails (R252). -/
def dmaGo (path : RegPath) (s : State) (c : Nat) (d : DmaDesc) (sa da n : Nat) (data : HostRead) (translation : Bool) : State :=
  let toHost := match dmaPlace da with | .host _ => true | _ => false
  let fromHost := match dmaPlace sa with | .host _ => true | _ => false
  let live := !toHost || (fnLive s (dmaFn s c) && !hostSilent s)
  if !live || (toHost && translation && !(fromHost && data == .fault)) then dmaFail s c (.dmaData c) translation da
  else match dmaTake path s c sa n data with
    | (none, t) => dmaFail t c (.dmaData c) translation sa
    | (some bs, t) => dmaMove path t c d sa da n bs

/-- Data of the next read of a channel arrives: at most 512 B, up to a boundary of either side (R250, R252). -/
def dmaDataRead (path : RegPath) (s : State) (c : Nat) (data : HostRead) (translation : Bool) : State :=
  let x := chanGet s c
  match x.mode, x.desc with
  | .running, some d =>
    if !sideFirst s (dSrcChain d) d.src || !sideFirst s (dDstChain d) d.dst then
      let a := if sideFirst s (dSrcChain d) d.src then d.dst else d.src
      let free := decide (0x40000000 ≤ a ∧ a < 0x44000000) && !(bufGet s (bufOffset a / 256)).held
      dmaHalt s c (if free && !dmaSec s c then 4 else 5) a
    else match sideAddr s (dSrcChain d) d.src x.src x.done, sideAddr s (dDstChain d) d.dst x.dst x.done with
    | some sa, some da =>
      let n := min (min 512 (d.len - x.done)) (min (sideRun (dSwrap d) sa) (sideRun (dDwrap d) da))
      match dmaMay s c sa n .read with
      | (0, s1) => match dmaMay s1 c da n .write with
        | (0, s2) => dmaGo path s2 c d sa da n data translation
        | (e, s2) => dmaHalt s2 c e da
      | (e, s1) => dmaHalt s1 c e sa
    | some _, none => dmaHalt s c 5 d.dst
    | none, _ => dmaHalt s c 5 d.src
  | _, _ => s

/-! ### Rows of the channels -/

/-- A `DMA_CTRL` write takes effect: from the channel's driver only (R253), while the channels have power (Table 1-8). -/
def dmaBy (s : State) (r : Requester) (c : Nat) (f : State → State) : State := if dmaDrives s r c && fastPowered s then f s else s

/-- `START` (Table 9-10): the descriptor at `DMA_HEAD` is fetched. -/
def dmaStart (s : State) (c : Nat) : State :=
  let x := chanGet s c
  if dmaFrozen s c || !(x.mode == .idle || x.mode == .stopped || x.mode == .halted) then s
  else chanPut s c { x with
    mode := .running, err := 0, taint := false, desc := none, ahead := none, done := 0
    want := .fetch (regGet64 s (aDma c 0x14) (aDma c 0x18)).toNat }

/-- A write of `DMA_RESUME_HI` (R257). -/
def dmaResume (s : State) (c : Nat) (hi : Word) : State :=
  let x := chanGet s c
  let v := (hi ++ regGet s (aDma c 0x28) : BitVec 64)
  if x.mode = .stopped ∧ v = regGet64 s (aDma c 0x1C) (aDma c 0x20) then
    chanPut s c { x with miss := false, want := .relink v.toNat }
  else chanPut s c { x with miss := true }

/-- `DMA_START`. -/
def execDmaStart (r : Requester) (chan : Nat) (s : State) : Host.Outcome State Fault Refusal :=
  .next (dmaBy s r chan (fun s => dmaStart s chan))

/-- `DMA_PAUSE`. -/
def execDmaPause (r : Requester) (chan : Nat) (s : State) : Host.Outcome State Fault Refusal :=
  .next (dmaBy s r chan (fun s => dmaPauseSoon s chan))

/-- `DMA_CONT`. -/
def execDmaCont (r : Requester) (chan : Nat) (s : State) : Host.Outcome State Fault Refusal :=
  .next (dmaBy s r chan (fun s => if dmaFrozen s chan then s else dmaCont s chan))

/-- `DMA_ABORT`. -/
def execDmaAbort (r : Requester) (chan : Nat) (s : State) : Host.Outcome State Fault Refusal :=
  .next (dmaBy s r chan (fun s => dmaAbortSoon s chan))

/-- `DMA_RESUME`: `hi` is written to `DMA_RESUME_HI`. -/
def execDmaResume (r : Requester) (chan : Nat) (hi : Word) (s : State) : Host.Outcome State Fault Refusal :=
  .next (dmaBy s r chan (fun s => dmaResume s chan hi))

/-- `DMA_DESCRIPTOR_READ`: a read that waits for its retry completes only then (R252). -/
def execDmaDescriptorRead (chan : Nat) (data : HostRead) (translation : Bool) (s : State) :
    Host.Outcome State Fault Refusal :=
  .next (if (retryOf s (.dmaDesc chan)).isSome || !fastPowered s then s else dmaDescRead s chan data translation)

/-- `DMA_TRIGGER_PULSE`. -/
def execDmaTriggerPulse (chan : Nat) (s : State) : Host.Outcome State Fault Refusal := .next (if fastPowered s then trigPulse s chan else s)

/-! ### The event matrix (R258, R260, R263) -/

/-- A write of `EVT_FIRE`. -/
def evtFire (s : State) (line : Nat) : State :=
  let e := regGet s (aEvt (4 * line))
  if bitOf e 31 ∧ fieldOf e 15 0 = srcCp then linePulse s line else s

/-- `EVT_FIRE`. -/
def execEvtFire (line : Nat) (s : State) : Host.Outcome State Fault Refusal :=
  .next (if line < 512 ∧ fastPowered s then evtFire s line else s)

/-- `EVENT_TIMER`: the period of an enabled timer has passed since it last fired or was set; the event matrix runs in ACTIVE and WARM (Table 1-8). -/
def execEventTimer (timer : Nat) (s : State) : Host.Outcome State Fault Refusal :=
  let w := regGet s (aEvt (0x1000 + 4 * timer))
  let period := fieldOf w 23 0 * cycUs
  let last := tblGet 0 s.dma.timers timer
  .next (if timer < 16 ∧ fastPowered s ∧ bitOf w 31 ∧ period ≠ 0 ∧ last + period ≤ s.time.clk then
      evPulse { s with dma := { s.dma with timers := tblSet 0 timer (last + period) s.dma.timers } } (srcTimer timer)
    else s)

/-- An event timer is set: its period is counted from now. -/
def timerSet (s : State) (t : Nat) (w : Word) : State :=
  regPut { s with dma := { s.dma with timers := tblSet 0 t s.time.clk s.dma.timers } } (aEvt (0x1000 + 4 * t)) w

/-- The sinks that follow a line: sink kind 1 or 2, and the input or channel. -/
def lineSinks (s : State) (n : Nat) : List (Nat × Nat) :=
  ((evtOn s 0x800 0xC00).filter (fun e => fieldOf e.2 8 0 == n)).map (fun e => (1, e.1)) ++
  ((evtOn s 0xC00 0x1000).filter (fun e => fieldOf e.2 8 0 == n)).map (fun e => (2, e.1))

/-- The register of a sink. -/
def sinkReg (kind sink : Nat) : Nat := aEvt ((if kind = 1 then 0x800 else 0xC00) + 4 * sink)

/-- A source may drive a sink: a core's signal drives no secure channel (R417), a secure pin only a secure channel (R418). -/
def sinkMay (s : State) (src : Nat) (k : Nat × Nat) : Bool :=
  let secure := k.1 == 2 && dmaSec s k.2
  if 0x500 ≤ src ∧ src < 0x510 then !secure
  else if 0x510 ≤ src ∧ src < 0x530 ∧ bitOf (regGet s (aGpio 0x18)) (src - 0x510) then secure
  else true

/-- Pins become secure: every route from their sources to a core input, or to a channel without `SEC`, is removed (R418). -/
def gpioSecure (s : State) (v : Word) : State :=
  let s1 := regPut s (aGpio 0x18) (regGet s (aGpio 0x18) ||| v)
  (evtOn s1 0 0x800).foldl (fun s e =>
    ((lineSinks s e.1).filter (fun k => !sinkMay s (fieldOf e.2 15 0) k)).foldl (fun s k => regPut s (sinkReg k.1 k.2) 0) s) s1

/-- Event sources that are not reserved (Table 9-12). -/
def srcOk (src : Nat) : Bool :=
  decide (src = 0 ∨ (0x100 ≤ src ∧ src < 0x510) ∨ (0x510 ≤ src ∧ src ≤ 0x531) ∨ (0x540 ≤ src ∧ src < 0x550) ∨
    (0x2000 ≤ src ∧ src < 0x4000) ∨ src = 0xFFFF)

/-- The source of a command is an event timer. -/
def srcIsTimer (src : Nat) : Bool := decide (0x540 ≤ src ∧ src < 0x550)

/-- The channels that a `DMA.GRANT` or `DMA.REVOKE` names. -/
def grantChans (c : Cmd) : List Nat := (List.range (par c 54 1)).map (par c 52 2 + ·)

/-- Channels 32 to 255, at most 32 of them (Table 9-14). -/
def chansForm (c : Cmd) : Bool := decide (32 ≤ par c 52 2 ∧ 1 ≤ par c 54 1 ∧ par c 54 1 ≤ 32 ∧ par c 52 2 + par c 54 1 ≤ 256)

/-- The catalogue's entries of `DMA.GRANT`, `DMA.REVOKE` and `EVT.ROUTE` (R260). -/
def specDma (s : State) (c : Cmd) : Option CmdSpec :=
  let own0 := cOwner s c == 0
  match cOp c with
  | 0x0E06 =>
    let n := sliceField c (par c 56 2)
    let x := sliceGet s n
    let k := coreGet s (par c 55 1)
    let flags := par c 58 1
    some {
      zero := noKeys c && parZero c [(61, 3)] && decide (flags < 16)
      form := chansForm c && decide (par c 55 1 < 16 ∧ n < 1024 ∧ par c 59 1 < 8 ∧ par c 60 1 < 32), issuer := own0
      early := if !(k.mode == .running || k.mode == .reserved) || k.owner != x.owner || x.mode == .unbound ||
          decide (x.vecCount ≤ par c 60 1) || (bitN flags 3 && x.owner != 0) then stDenied
        else if (grantChans c).any (dmaGranted s) then 0x0E80 else stOk }
  | 0x0E07 => some {
      zero := noKeys c && parZero c [(55, 9)], form := chansForm c, issuer := own0
      early := if (grantChans c).all (dmaGranted s) then stOk else 0x0E81 }
  | 0x0E08 =>
    let kind := par c 56 1
    let sink := par c 57 2
    let src := par c 54 2
    let line := par c 52 2
    let sinks := if kind = 0xFF then [] else lineSinks s line ++ (if kind = 0 then [] else [(kind, sink)])
    some {
      zero := noKeys c && parZero c [(59, 1)] && (srcIsTimer src || parZero c [(60, 4)])
      form := decide (line < 512 ∧ (kind ≤ 2 ∨ kind = 0xFF) ∧ (kind = 0 ∨ kind = 0xFF ∨ sink < 256)) && srcOk src &&
        (!srcIsTimer src || decide (1 ≤ par c 60 4 ∧ par c 60 4 ≤ 16000000))
      issuer := own0
      early := if !sinks.all (sinkMay s src) then stDenied
        else if (kind == 1 || kind == 2) && bitOf (regGet s (sinkReg kind sink)) 31 &&
          decide (fieldOf (regGet s (sinkReg kind sink)) 8 0 ≠ line) then 0x0E82 else stOk }
  | _ => none

/-- `DMA_GRANT` (R260). -/
def execDmaGrant (tag : Nat) (s : State) : Host.Outcome State Fault Refusal :=
  runCmd s tag 0x0E06 (fun c s =>
    let flags := par c 58 1
    let cfg := b2n (bitN flags 3) * 2 ^ 31 + b2n (bitN flags 0) * 2 ^ 30 + bitsN flags 2 1 * 2 ^ 28 + par c 59 1 * 2 ^ 25 +
      par c 60 1 * 2 ^ 20 + par c 55 1 * 2 ^ 16 + sliceField c (par c 56 2) * 2 ^ 6 + 1
    endOk ((grantChans c).foldl (fun s ch => regPut s (aDma ch 0) (putField (BitVec.ofNat 32 cfg) 5 1 (regField s (aDma ch 0) 5 1)))
      s) tag)

/-- `DMA_REVOKE` (R260): the channels are aborted, and the grants end once all of them are IDLE. -/
def execDmaRevoke (tag : Nat) (s : State) : Host.Outcome State Fault Refusal :=
  runCmd s tag 0x0E07 (fun c s =>
    let s1 := (grantChans c).foldl dmaAbortSoon s
    if (grantChans c).all (fun ch => (chanGet s1 ch).mode == .idle) then
      endOk ((grantChans c).foldl (fun s ch => regSetBit s (aDma ch 0) 0 false) s1) tag
    else s1)

/-- `EVT_ROUTE` (R260). -/
def execEvtRoute (tag : Nat) (s : State) : Host.Outcome State Fault Refusal :=
  runCmd s tag 0x0E08 (fun c s =>
    let line := par c 52 2
    let src := par c 54 2
    let kind := par c 56 1
    let s1 := regPut s (aEvt (4 * line)) (BitVec.ofNat 32 (2 ^ 31 + src))
    let s2 := if srcIsTimer src then timerSet s1 (src - 0x540) (BitVec.ofNat 32 (2 ^ 31 + par c 60 4)) else s1
    let s3 := if kind = 0xFF then (lineSinks s2 line).foldl (fun s k => regPut s (sinkReg k.1 k.2) 0) s2
      else if kind = 0 then s2
      else regPut s2 (sinkReg kind (par c 57 2)) (BitVec.ofNat 32 (2 ^ 31 + line))
    endOk s3 tag)

end Sys2Proof.Machine
end

