-- ==== Sys2Proof/Machine/NeedleBase.lean ====
section
/-! DEFINITION. Needle cores as the rest of the device acts on them: their cycle counters and interrupt sources, halting,
clearing and releasing a core, and the registers of the DMA channels that they drive (spec 13, R379, R389, R390; spec 09,
R253, R262; spec 14, R410, R414). -/

namespace Sys2Proof.Machine

/-! ### Registers of a DMA channel (Table 9-18) -/

/-- `DMA_CFG` as it reads: channels 0 to 31 always read `SEC` and `GRANTED` as 1. -/
def dmaCfgRead (s : State) (c : Nat) : Word :=
  if c < 32 then putBit (putBit (dmaCfg s c) 31 true) 0 true else dmaCfg s c

/-- `DMA_STAT` as it reads; its field `OUTSTANDING` counts the channel's outstanding reads (Table 9-18). -/
def dmaStatRead (s : State) (c : Nat) : Word × State :=
  let x := chanGet s c
  let base := x.err * 2 ^ 16 + b2n x.miss * 2 ^ 12 + b2n x.taint * 2 ^ 11 + x.mode.code
  (BitVec.ofNat 32 (dmaReads s c * 2 ^ 20 + base), s)

/-- A read of a channel's register (R262, R425). -/
def dmaRegRead (s : State) (r : Requester) (c off : Nat) : Word × State :=
  match off with
  | 0x00 => (dmaCfgRead s c, s)
  | 0x08 => dmaStatRead s c
  | 0x1C => (regGet s (aDma c 0x1C), latchPut s r (aDma c 0x20) (regGet s (aDma c 0x20)))
  | 0x20 => (latchGet s r (aDma c 0x20), s)
  | 0x30 => (regGet s (aDma c 0x30), latchPut s r (aDma c 0x34) (regGet s (aDma c 0x34)))
  | 0x34 => (latchGet s r (aDma c 0x34), s)
  | _ => if [0x0C, 0x14, 0x18, 0x24, 0x38, 0x3C].contains off then (regGet s (aDma c off), s) else (0, s)

/-- The bits of a `DMA_CTRL` write act in the order `ABORT`, `PAUSE`, `CONT`, `START`; one that the state does not allow is
ignored (R253). -/
def dmaCtrl (s : State) (c : Nat) (v : Word) : State :=
  let s1 := if bitOf v 3 then dmaAbortSoon s c else s
  let s2 := if bitOf v 1 then dmaPauseSoon s1 c else s1
  let s3 := if bitOf v 2 && !dmaFrozen s2 c then dmaCont s2 c else s2
  if bitOf v 0 then dmaStart s3 c else s3

/-- A write of `DMA_EVT_CLR`: it also clears the channel's part of its core's source 16 (R379). -/
def dmaEvtClear (s : State) (c : Nat) (v : Word) : State :=
  let k := dmaCore s c
  let x := coreGet s k
  sqcClearAt (corePut s k { x with dmaIrq := x.dmaIrq.filter (· != c) }) (aDma c 0x0C) v

/-- A write of a channel's register by its driver (R253, R262); `DMA_CFG` is the CP's. -/
def dmaRegWrite (s : State) (r : Requester) (c off : Nat) (v : Word) : State :=
  match off with
  | 0x00 => if r = .cp then regPut s (aDma c 0) ((dmaCfg s c &&& 0x3E#32) ||| (v &&& 0xFFFFFFC1#32)) else ignWrite s
  | 0x04 => dmaCtrl s c v
  | 0x10 => dmaEvtClear s c v
  | 0x14 => regPut s (aDma c 0x14) (v &&& 0xFFFFFFE0#32)
  | 0x18 => regPut s (aDma c 0x18) (v &&& 0xFF#32)
  | 0x28 => regPut s (aDma c 0x28) v
  | 0x2C => dmaResume s c v
  | _ => ignWrite s

/-! ### Cycles and interrupt sources (Table 13-4, Table 13-11) -/

/-- Processor clocks since `PROG.START`: 1.5 GHz, six in each Airing cycle; in STANDBY the processor clock stands (Table 1-8). -/
def coreCycles (s : State) (k : Core) : Nat :=
  if k.mode = .running then 6 * ((if pwrMode s = 3 then s.pwr.sleptAt else s.time.clk) - k.startAt) else k.ran

/-- `IPEND`. -/
def coreIpend (k : Core) : Nat :=
  ((List.range 16).map (fun i => b2n (tblGet {} k.inputs i).pending * 2 ^ i)).foldl (· + ·) 0 +
    b2n (!k.dmaIrq.isEmpty) * 2 ^ 16 + b2n (k.press.any (·.done.isSome)) * 2 ^ 17 +
    b2n (k.mangle.any (·.done.isSome)) * 2 ^ 18 + b2n (bitN k.pend 19) * 2 ^ 19 + b2n (bitN k.pend 20) * 2 ^ 20

/-- A bit of the pending word of a core set to a value. -/
def pendBit (m i : Nat) (b : Bool) : Nat := if bitN m i = b then m else if b then m + 2 ^ i else m - 2 ^ i

/-- A new `TCMP`: source 19 clears, and the comparison is armed when the value is still to come (bit 21; R379, Table 13-4). -/
def coreTcmp (s : State) (k : Core) (v : BitVec 64) : Core :=
  { k with tcmp := v, pend := pendBit (pendBit k.pend 19 false) 21 (v != 0 && decide (coreCycles s k ≤ v.toNat)) }

/-! ### Ports -/

/-- Jobs outstanding at a core's ports are taken to their end, which debits their keys, and their results are discarded
(R389). -/
def portsDrain (s : State) (n : Nat) : State :=
  let k := coreGet s n
  let open_ (js : List PortJob) : List PortJob := js.filter (fun j => j.done.isNone)
  let s1 := (open_ k.press).foldl (fun s j =>
    j.keys.foldl useTake (pressLeave s (.port n j.id))) s
  let s2 := (open_ k.mangle).foldl (fun s j =>
    j.keys.foldl useTake (mangleDrop s (fun x => x == .port n j.id))) s1
  let k2 := coreGet s2 n
  corePut s2 n { k2 with
    press := [], mangle := []
    pressN := k2.pressN + (open_ k.press).length, mangleN := k2.mangleN + (open_ k.mangle).length }

/-- Channels that a core drives. -/
def coreChans (s : State) (n : Nat) : List Nat := (List.range 256).filter (fun c => dmaDrives s (.core n) c)

/-! ### Halting, clearing, releasing (R389, R390) -/

/-- What the other members of a group hold of a core. -/
def coreRow (k : Core) : CoreRow :=
  { mode := k.mode, owner := k.owner, slice := k.slice, program := k.program, keys := k.keys, args := k.args }

/-- A core's state has changed: a primary journals it (R391). -/
def coreNote (s : State) (n : Nat) : State := jot s 0xFFFF false (.core n (coreRow (coreGet s n)))

/-- A core stops running. -/
def coreStopped (s : State) (n : Nat) (m : CoreMode) (reason : Nat) : State :=
  let k := coreGet s n
  coreNote (corePut s n { k with
    mode := m, ran := coreCycles s k, changed := nowStamp s, reason := reason, stop := none, pred := [], collect := false }) n

/-- What the CP does once a core that it stopped has halted: the ports, the channels and the chains (R389). -/
def coreCleanup (s : State) (n : Nat) : State :=
  let s1 := (coreChans s n).foldl dmaAbort (portsDrain s n)
  hmpReleaseAll s1 (tagCore n)

/-- The regions of a core's window at its Hem controller: normal permissions while the core is assigned (Table 14-9). -/
def hemWindow (s : State) (n : Nat) (owner : Option Nat) : State :=
  let o := owner.getD 0
  let base := 0x200000 + 0x1000 * n
  let put (s : State) (r lo hi attr : Nat) : State :=
    regPut (regPut (regPut s (aHem (4 + n) (0x100 + 16 * r)) (BitVec.ofNat 32 lo))
      (aHem (4 + n) (0x104 + 16 * r)) (BitVec.ofNat 32 hi)) (aHem (4 + n) (0x108 + 16 * r)) (BitVec.ofNat 32 attr)
  let some_ := owner.isSome
  put (put s 0 base (base + 0xFF) (0x80000003 + o % 1024 * 2 ^ 16 + (if some_ then 0x50 else 0)))
    1 (base + 0x800) (base + 0xBFF) (0x80000003 + o % 1024 * 2 ^ 16 + (if some_ then 0x30 else 0))

/-- A core becomes FREE: its grants are revoked, its event routes removed and its window closed (R389, R410). -/
def coreRelease (s : State) (n : Nat) : State :=
  let mine := (List.range 256).filter (fun c => decide (32 ≤ c) && dmaGranted s c && dmaCore s c == n)
  let s1 := mine.foldl (fun s c => regSetBit (dmaAbort s c) (aDma c 0) 0 false) s
  let s2 := (List.range 16).foldl (fun s i => regPut s (aEvt (0x800 + 4 * (16 * n + i))) 0) s1
  let s3 := ((evtOn s2 0 0x800).filter (fun e => fieldOf e.2 15 0 == srcSignal n)).foldl (fun s e => regPut s (aEvt (4 * e.1)) 0) s2
  coreNote (corePut (hemWindow s3 n none) n { changed := nowStamp s }) n

/-- A core is halted and its memories cleared; it is FREE (Table 13-17). -/
def coreClear (s : State) (n reason : Nat) : State :=
  let s1 := hmpReleaseAll ((coreChans s n).foldl dmaAbort s) (tagCore n)
  let s2 := coreRelease s1 n
  corePut s2 n { coreGet s2 n with reason := reason }

/-- Every core is halted and cleared, and the program store emptied, by a Rinse (R390). -/
def needleRinse (s : State) : State :=
  let s1 := (s.needle.cores.map (·.1)).foldl (fun s n => coreClear s n 4) s
  { s1 with needle := { s1.needle with progs := [] } }

/-! ### Start values (R362, R414) -/

/-- The rules that `PROG.START` loads into a core's unit: range in blocks, and the attributes in sets A and B (Table
14-11); `d` is the image's data length. -/
def aruRows (d : Nat) : List (Nat × Nat × Nat × Nat) :=
  [(0x810000, 0x81003F, 0x80000803, 0x80000800), (0x800800, 0x800800, 0x80000803, 0x80000800),
   (0x800000, 0x80FFFF, 0x80000803, 0x80000803),
   (0x300800, 0x300800 + (d - 1) / 256, if d = 0 then 0 else 0x80000003, if d = 0 then 0 else 0x80000001),
   (0x300800, 0x300BFF, 0x80000003, 0x80000003), (0x300000, 0x3000FF, 0x80000105, 0x80000105)]

end Sys2Proof.Machine
end

