-- ==== Sys2Proof/Machine/Prog.lean ====
section
/-! DEFINITION. Service programs: the catalogue's entries and the meanings of `PROG.LOAD` to `PROG.STATUS`, and the end of a
requested stop (spec 13, R386 to R392). -/

namespace Sys2Proof.Machine

/-! ### The image (Table 13-16) -/

def imgEntry (b : List Byte) : Nat := leAt b 20 4
def imgCode (b : List Byte) : Nat := leAt b 24 4
def imgData (b : List Byte) : Nat := leAt b 28 4
def imgBss (b : List Byte) : Nat := leAt b 32 4
def imgKeys (b : List Byte) : Nat := byteAt b 36

/-- Bytes of an image before its signature. -/
def imgBody (b : List Byte) : Nat := 64 + 4 * imgKeys b + imgCode b + imgData b

/-- Usage flags that an image requires of a key-list entry. -/
def imgFlags (b : List Byte) (i : Nat) : Nat := leAt b (64 + 4 * i) 4

/-- An image keeps Table 13-16, with a signature of `sig` bytes. -/
def imgOk (b : List Byte) (sig : Nat) : Bool :=
  decide (bytesAt b 0 8 = ascii "NBNEEDL1" ∧ byteAt b 8 = 1 ∧ byteAt b 9 < 4 ∧ leAt b 10 2 = 0) &&
  decide (imgEntry b % 4 = 0 ∧ imgEntry b < imgCode b ∧ 4 ≤ imgCode b ∧ imgCode b ≤ 65536 ∧ imgCode b % 4 = 0) &&
  decide (imgData b + imgBss b ≤ 262112 ∧ imgKeys b ≤ 32 ∧ byteAt b 37 ≤ 32 ∧ leAt b 38 2 = 0 ∧ leAt b 48 16 = 0) &&
  decide (b.length = imgBody b + sig)

/-! ### The program store (R387) -/

/-- Program `n` of the store. -/
def progGet (s : State) (n : Nat) : Option Program := tblFind n s.needle.progs

/-- The store's index set. -/
def progsSet (s : State) (t : Tbl Program) : State := { s with needle := { s.needle with progs := t } }

/-- A program enters the store or leaves it; a primary journals it (R391). -/
def progPut (s : State) (n : Nat) (x : Option Program) : State :=
  jot (progsSet s (match x with
    | some p => tblPut n p s.needle.progs
    | none => tblDel n s.needle.progs)) 0xFFFF false (.program n x)

/-- Bytes that the store's images take. -/
def progBytes (s : State) : Nat := (s.needle.progs.map (fun e => e.2.img0.length)).foldl (· + ·) 0

/-- The image as the first good chip holds it. -/
def progImage (p : Program) : List Byte := p.img0

/-- The status of a named program (R392): none of that number, or another owner's. -/
def progNamed (s : State) (c : Cmd) (n : Nat) : Nat :=
  match progGet s n with
  | none => 0x0E03
  | some p => if p.owner = cOwner s c then stOk else stBadHandle

/-- Schemes of a `PROG.LOAD` (Table 7-6 coding). -/
def progPar (c : Cmd) : PkPar := { cls := par c 52 1, pq := par c 53 1, hash := par c 54 1, opts := 0 }

/-- The keys of a `PROG.LOAD`, each with the types that its scheme takes. -/
def progSigners (c : Cmd) : List (Nat × List Nat) :=
  let p := progPar c
  let pubs (cls : Nat) : List Nat := (schemeTypes cls).map (· + 0x80)
  if pkHybrid p then [(cKeyA c, pubs (pkClsA p)), (cKeyB c, pubs 5)]
  else if p.cls = 0 then [(cKeyB c, pubs 5)] else [(cKeyA c, pubs p.cls)]

/-- Signature bytes of an image under the keys of a `PROG.LOAD`, in the order of R201. -/
def progSigLens (s : State) (c : Cmd) : List Nat := (progSigners c).map (fun k => sigLenOf s k.1 0 0)

/-! ### Cores for a program (R388) -/

/-- The engine that a key of a program's list is bound into: 1 Press, 2 Mangle. -/
def progEngine (t : Nat) : Nat := if t < 0x10 then 1 else 2

/-- The core that a `PROG.START` takes: the one it names, or the lowest FREE core. -/
def progCore (s : State) (c : Cmd) : Option Nat :=
  let n := par c 54 1
  if n = 0xFF then (List.range 16).find? (fun k => (coreGet s k).mode == .free)
  else
    let k := coreGet s n
    if k.mode = .free ∨ (k.mode ≠ .running ∧ k.owner = cOwner s c) then some n else none

/-- The handles of a `PROG.START`. -/
def progHandles (c : Cmd) (k : Nat) : List Nat := (List.range k).map (fun i => leAt (heldInput c) (4 * i) 4)

/-- Handles and lengths fit the image (R388 step 1): count, owner, flags and no `QUORUM_USE`. -/
def progKeys (s : State) (c : Cmd) (b : List Byte) : Nat :=
  let k := imgKeys b
  let hs := progHandles c k
  if cInLen c < 4 * k ∨ 4 * k + 32 < cInLen c then 0x0E06
  else
    let each (i : Nat) : Nat :=
      let h := hs.getD i 0
      match keyFor s (cOwner s c) h with
      | none => stBadHandle
      | some o =>
        if !subMask (imgFlags b i) o.attrs || bitN o.attrs kQuorumUse then 0x0E06
        else if keyExpired s o then stExpired
        else stOk
    firstBad ((List.range k).map each)

/-- Check 7 of a `PROG.START`: the program, the core, and the keys. -/
def progStartCheck (s : State) (c : Cmd) : Nat :=
  if par c 55 1 = 1 then (if (progCore s c).isNone then 0x0E05 else stOk)
  else
    let n := par c 52 2
    firstBad [progNamed s c n, if (progCore s c).isNone then 0x0E05 else stOk,
      match progGet s n with
      | none => stOk
      | some p => progKeys s c (progImage p)]

/-- A core that a command names belongs to its owner; owner 0 may stop any core (R392). -/
def coreNamed (s : State) (c : Cmd) (any : Bool) : Nat :=
  let k := coreGet s (par c 52 1)
  if (k.mode ≠ .free ∧ k.owner = cOwner s c) ∨ (any ∧ cOwner s c = 0) then stOk else stBadHandle

/-- The catalogue's entries of the program commands (Table 13-18). -/
def specProg (s : State) (c : Cmd) : Option CmdSpec :=
  let ring := !cMbx c
  match cOp c with
  | 0x0E01 =>
    let p := progPar c
    let hs := progSigners c
    let pres (h : Nat) : Bool := hs.any (fun k => k.1 == h) || decide (h = 0)
    some {
      zero := pkZero p && parZero c [(55, 9)] && pres (cKeyA c) && pres (cKeyB c) && (p.cls ≠ 0 || cKeyA c == 0) && (p.pq ≠ 0 || cKeyB c == 0)
      form := pkForm p, inMin := 1, lens := pkSaltOk p, inMax := 2097152, issuer := ring, needsKeys := true
      at7 := pkCheck s c hs kVerify stOk, uses := hs.map (·.1), binds := hs.map (fun k => (2, k.1))
      quorum := some (cOwner s c, qProgram)
      usage := kVerify
      late := if 64 ≤ s.needle.progs.length ∨ 2097152 < progBytes s + cInLen c then 0x0E01 else stOk }
  | 0x0E02 =>
    let res := par c 55 1 == 1
    let img := match progGet s (par c 52 2) with
      | some p => progImage p
      | none => []
    let hs := if res then [] else progHandles c (imgKeys img)
    let ok := progStartCheck s c == stOk
    some {
      zero := noKeys c && parZero c [(56, 8)] && decide (par c 55 1 < 2)
      form := (!res || decide (par c 52 2 = 0xFFFF)) && decide (par c 54 1 < 16 ∨ par c 54 1 = 0xFF)
      inMax := if res then 0 else 160, issuer := ring, needsKeys := !hs.isEmpty, at7 := progStartCheck s c
      binds := if ok then hs.map (fun h => (progEngine (typeOf s h), h)) else [], preread := cInLen c }
  | 0x0E03 => some {
      zero := noKeys c && parZero c [(55, 1), (60, 4)] && decide (par c 54 1 < 2) && (par c 53 1 == 1 || parZero c [(56, 4)])
      form := decide (par c 52 1 < 16 ∧ par c 53 1 < 2) &&
        (par c 53 1 == 0 || decide (1 ≤ par c 56 4 ∧ par c 56 4 ≤ 1000000))
      issuer := ring, at7 := coreNamed s c true }
  | 0x0E04 =>
    let n := par c 52 2
    some {
      zero := noKeys c && parZero c [(54, 10)], issuer := ring, at7 := progNamed s c n, quorum := some (cOwner s c, qProgram)
      late := if s.needle.cores.any (fun e => e.2.mode == .running && e.2.program == n) then 0x0E04 else stOk }
  | 0x0E05 => some {
      zero := noKeys c && parZero c [(53, 11)], form := decide (par c 52 1 < 16), issuer := ring, outMax := 64
      at7 := coreNamed s c false }
  | _ => none

/-! ### Meanings -/

/-- `PROG_LOAD` (R387): the signature, which Mangle checks, then the image, then the store on both chips. -/
def execProgLoad (tag : Nat) (io : HostIO) (s : State) : Host.Outcome State Fault Refusal :=
  runIn s tag 0x0E01 io (fun c b s =>
    if mangleHas s tag then mangleSet s tag else
    let p := progPar c
    let hs := progSigners c
    let ls := progSigLens s c
    let sig := ls.foldl (· + ·) 0
    let n := b.length - sig
    let msg := bytesAt b 0 n
    let key (i : Nat) : List Byte × Bool := verifyKey s ((hs.getD i (0, [])).1) 0 0 []
    let ty (i : Nat) : Nat × Nat := sideType s ((hs.getD i (0, [])).1) 0 0
    let r := verifyJob p (ty 0) (ty 1) (key 0) (key 1) (bytesAt b n (ls.getD 0 0)) (bytesAt b (n + ls.getD 0 0) (ls.getD 1 0))
      [] msg
    if b.length < sig then endAfter s tag 0x0601
    else if r ≠ 0 then endAfter s tag (verifyStatus r)
    else if !imgOk b sig then endAfter s tag 0x0E02
    else if c.work.step ≠ 0 then s
    else setWork s tag { step := 1, bytes := b })

/-- The write of a verified image to the program store ends: on the chips `w0`, `w1` it stands as written (R387). -/
def progStored (s : State) (tag : Nat) (c : Cmd) (w0 w1 : Bool) : State :=
  let b := c.work.bytes
  if !w0 && !w1 then tallyPut (endAfter s tag stInternal) agCp 0x0181 [(0x0A, stInternal), (0x12, agFlash)]
  else match tblFree s.needle.progs 0 64 with
    | none => endAfter s tag 0x0E01
    | some k =>
      let x : Program := {
        owner := cOwner s c, digest := Config.sha384 b, img0 := if w0 then b else [], img1 := if w1 then b else [] }
      endOk (progPut s k (some x)) tag 0 (BitVec.ofNat 64 k)

/-- The copy of a program whose digest agrees with the index: from the first chip, and then from the other (R388 step 3). -/
def progCopy (s : State) (p : Program) : Option (List Byte) :=
  if chipUp (chipMode s 0) && Config.sha384 p.img0 == p.digest then some p.img0
  else if chipUp (chipMode s 1) && Config.sha384 p.img1 == p.digest then some p.img1
  else none

/-- A core's access-rule unit at `PROG.START` (R414). -/
def aruLoad (s : State) (n d : Nat) : State :=
  let put (s : State) (set_ i lo hi attr : Nat) : State :=
    let at_ := 0x100 + 0x100 * set_ + 16 * i
    regPut (regPut (regPut s (aAru n at_) (BitVec.ofNat 32 lo)) (aAru n (at_ + 4)) (BitVec.ofNat 32 hi))
      (aAru n (at_ + 8)) (BitVec.ofNat 32 attr)
  let rows := aruRows d
  let s1 := regPut (regPut s (aAru n 0) 0) (aAru n 4) 0
  (List.range 16).foldl (fun s i =>
    let (lo, hi, a, b) := rows.getD i (0, 0, 0, 0)
    put (put s 0 i lo hi a) 1 i lo hi b) s1

/-- A core begins a program at its entry point: memories, registers, inputs and rules at their start values (R362, R388,
R414). -/
def coreBegin (s : State) (n owner slice prog : Nat) (keys : List Nat) (args b : List Byte) : State :=
  let off := 64 + 4 * imgKeys b
  let work := memWrite (memWrite [] 0 (bytesAt b (off + imgCode b) (imgData b))) 0x3FFE0 (bytesAt args 0 32)
  let s1 := aruLoad (hemWindow (portsDrain s n) n (some owner)) n (imgData b)
  coreNote (corePut s1 n {
    mode := .running, owner := owner, slice := slice, program := prog, keys := keys, args := args
    pc := 0x30000000 + imgEntry b, a := setAt (List.replicate 16 0) 15 0x00300BFFE0, startAt := s.time.clk
    changed := nowStamp s, instr := memWrite [] 0 (bytesAt b off (imgCode b)), work := work }) n

/-- `PROG_START` (R388): a core reserved, or a program started. -/
def execProgStart (tag : Nat) (s : State) : Host.Outcome State Fault Refusal :=
  runCmd s tag 0x0E02 (fun c s =>
    match progCore s c with
    | none => endAfter s tag 0x0E05
    | some n =>
      let own := cOwner s c
      let slice := (cSlice c).getD 0xFFFF
      let x := BitVec.ofNat 64 n
      if par c 55 1 = 1 then
        let k := coreGet s n
        endOk (coreNote (corePut (hemWindow s n (some own)) n
          { k with mode := .reserved, owner := own, slice := slice, changed := nowStamp s }) n) tag 0 x
      else
        let pn := par c 52 2
        match progGet s pn with
        | none => endAfter s tag 0x0E03
        | some p =>
          match progCopy s p with
          | some b =>
            let hs := progHandles c (imgKeys b)
            let d := heldInput c
            endOk (coreBegin s n own slice pn hs (bytesAt (d.drop (4 * imgKeys b)) 0 32) b) tag 0 x
          | none =>
            let k := coreGet s n
            let (v, s1) := freeWord (progPut (corePut s n { k with instr := [], work := [] }) pn none)
            let (q, s2) := agentNext s1 agCp
            let app : TallyApp := {
              code := v.toNat % 65536, sev := 4, agent := agCp, stamp := nowStamp s, agentSeq := q
              body := .items [{ kind := 0x0F, value := BitVec.ofNat 64 pn }, { kind := 1, value := BitVec.ofNat 64 own }] }
            endAfter (tallyAppend s2 app) tag 0x0E02)

/-! ### Stops (R389) -/

/-- A `MGL.COLLECT` of the core has begun and waits: it completes before an interrupt is taken and before the core halts (R196, R389). -/
def collecting (s : State) (n : Nat) : Bool := (coreGet s n).collect

/-- The core has halted under a `PROG.STOP`: the ports, channels and chains are cleaned up, the core is released where
asked, and the command ends with the state that results. -/
def stopEnd (s : State) (n tag : Nat) (release : Bool) : State :=
  let s1 := coreCleanup s n
  let s2 := if release then coreRelease s1 n else s1
  endOk s2 tag 0 (BitVec.ofNat 64 (coreGet s2 n).mode.code)

/-- A core has stopped: a stop request that waited for it ends. -/
def stopCheck (s : State) (n : Nat) (w : Option StopWait) : State :=
  match w with
  | none => s
  | some w => stopEnd s n w.cmd w.release

/-- A running core halts for a reason, and a waiting stop request ends with it. -/
def coreHalt (s : State) (n reason : Nat) : State :=
  let w := (coreGet s n).stop
  stopCheck (coreStopped s n .halted reason) n w

/-- `PROG_STOP`: mode 0 halts the core at its next boundary; mode 1 raises source 20 and waits. -/
def execProgStop (tag : Nat) (s : State) : Host.Outcome State Fault Refusal :=
  runCmd s tag 0x0E03 (fun c s =>
    let n := par c 52 1
    let k := coreGet s n
    let release := par c 54 1 == 1
    if k.mode = .running then
      if par c 53 1 = 0 then
        if collecting s n then s else stopEnd (coreHalt s n 2) n tag release
      else if k.stop.isSome then s
      else corePut s n { k with
        pend := pendBit k.pend 20 true
        stop := some { cmd := tag, until_ := s.time.clk + par c 56 4 * cycUs, release := release } }
    else if k.mode = .faulted then
      stopEnd (coreNote (corePut s n { k with mode := .halted, changed := nowStamp s }) n) n tag release
    else stopEnd s n tag release)

/-- `PROG_STOP_TIMEOUT`: a requested stop whose timeout has passed halts the core. -/
def execProgStopTimeout (core : Nat) (s : State) : Host.Outcome State Fault Refusal :=
  let k := coreGet s core
  .next (match k.stop with
    | some w => if k.mode = .running ∧ w.until_ ≤ s.time.clk ∧ !collecting s core then coreHalt s core 2 else s
    | none => s)

/-- `PROG_UNLOAD`. -/
def execProgUnload (tag : Nat) (s : State) : Host.Outcome State Fault Refusal :=
  runCmd s tag 0x0E04 (fun c s => endOk (progPut s (par c 52 2) none) tag)

/-- An address of a core's own memories in global form (Table 13-2). -/
def coreGlobal (n a : Nat) : Nat :=
  if 0x30000000 ≤ a ∧ a < 0x30100000 then 0x20000000 + 0x100000 * n + a % 0x100000 else a

/-- `PROG_STATUS` (Table 13-20). -/
def execProgStatus (tag : Nat) (io : HostIO) (s : State) : Host.Outcome State Fault Refusal :=
  runCmd s tag 0x0E05 (fun c s =>
    let n := par c 52 1
    let k := coreGet s n
    endOut s tag io (leBytes 1 n ++ leBytes 1 k.mode.code ++ leBytes 2 k.program ++ leBytes 2 k.owner ++ leBytes 2 k.slice ++
      leBytes 8 (coreGlobal n (if k.mode = .faulted then k.epc else k.pc)) ++ leBytes 1 k.cause ++ leBytes 1 k.reason ++
      zeros 6 ++ leBytes 8 k.eaddr ++ leBytes 8 (coreCycles s k) ++ leBytes 8 k.commits ++ leBytes 4 k.pressN ++
      leBytes 4 k.mangleN ++ leBytes 8 k.changed.toNat))

/-- `CORE_TIMER_MATCH`: `CYCLE` reaches an armed `TCMP`. -/
def execCoreTimerMatch (core : Nat) (s : State) : Host.Outcome State Fault Refusal :=
  let k := coreGet s core
  .next (if k.mode = .running ∧ bitN k.pend 21 ∧ k.tcmp.toNat ≤ coreCycles s k then
      corePut s core { k with pend := pendBit (pendBit k.pend 19 true) 21 false }
    else s)

end Sys2Proof.Machine
end

