-- ==== Sys2Proof/Machine/ScorchLog.lean ====
section
/-! DEFINITION. The Scorch log: records, their chain, and what a reader gets of them (spec 18, R510 to R512). -/

namespace Sys2Proof.Machine

/-- The chain value before sequence 1 (R511). -/
def chainSeed (s : State) : List Byte := bytesAt (Config.sha256 (leBytes 8 s.dev.serial.toNat ++ zeros 24)) 0 32

/-- The chain value that precedes the oldest record held. -/
def chainFirst (s : State) : List Byte := if s.scorch.prevChain.isEmpty then chainSeed s else s.scorch.prevChain

/-- The chain value of the newest record. -/
def chainLast (s : State) : List Byte := match s.scorch.log.getLast? with
  | some r => r.chain
  | none => chainFirst s

/-- Bytes 0 to 31 of a record (Table 18-6). -/
def logHead (r : ScorchRec) : List Byte :=
  leBytes 4 r.seq ++ leBytes 1 r.kind ++ leBytes 1 r.src ++ leBytes 1 r.sev ++ leBytes 1 r.flags ++ leBytes 8 r.ct.toNat ++
  leBytes 8 r.stamp.toNat ++ leBytes 2 r.epoch.toNat ++ leBytes 2 r.dur ++ leBytes 4 r.detail

/-- The 64 bytes of a record. -/
def logBytes64 (r : ScorchRec) : List Byte := logHead r ++ bytesAt r.chain 0 32

/-- The chain value of a record after another's. -/
def chainOfRec (prev : List Byte) (r : ScorchRec) : List Byte := bytesAt (Config.sha256 (prev ++ logHead r)) 0 32

/-- Records written in VAULT carry no chain value: Thimble chains them in order of sequence (R511). -/
def chainUpFrom (prev : List Byte) : List ScorchRec → List ScorchRec
  | [] => []
  | r :: t =>
    let r1 := if r.chain = zeros 32 then { r with chain := chainOfRec prev r } else r
    r1 :: chainUpFrom r1.chain t

/-- The log with every record chained. -/
def chainUp (s : State) : State := { s with scorch := { s.scorch with log := chainUpFrom (chainFirst s) s.scorch.log } }

/-- Record types (Table 18-7). -/
def logEvent := 0x01
def logRinse := 0x02
def logUnlock := 0x03
def logDisable := 0x04
def logEpoch := 0x05
def logStuck := 0x06
def logTamper := 0x07
def logTransition := 0x08
def logThmFailed := 0x09
def logWrap := 0x0A
def logVaultLost := 0x0B

/-- A record is written (R510): in VAULT with Stamp 0, flag [2] and no chain value; otherwise chained to the one before. -/
def scorchLog (s : State) (kind src sev flags dur detail : Nat) : State :=
  let v := s.pwr.vault
  let s0 := if v then s else chainUp s
  let unset := bitOf (regGet s aTimeSrcStat) 7
  let r : ScorchRec := {
    seq := s0.scorch.logSeq + 1, kind := kind, src := src, sev := sev
    flags := flags + 4 * b2n v + 8 * b2n unset
    ct := if v then (if unset then 0 else s.time.rtc) else nowCt s
    stamp := if v then 0 else capStamp s, epoch := epochId s, dur := dur, detail := detail % 2 ^ 32, chain := zeros 32 }
  let r1 := if v then r else { r with chain := chainOfRec (chainLast s0) r }
  { s0 with scorch := { s0.scorch with log := s0.scorch.log ++ [r1], logSeq := r.seq } }

/-- A severity that the spec states for no such record: a free value of 0 to 7 (assumption 3). -/
def freeSev (s : State) : Nat × State :=
  let (v, s1) := freeWord s
  (v.toNat % 8, s1)

/-- The epoch of the device changes: the Tally and the Scorch log record it (R24, R30). -/
def epochNote (s : State) (old new : Nat) : State :=
  scorchLog (tallyPut s agCp 0x0A81 [(0x0E, old), (0x0F, new)]) logEpoch 0 2 0 0 new

/-- The load of R30 is recorded once it has been made. The Tally takes one record of the epochs and one of the Stamps; the Scorch log takes this record
under the new epoch and Stamp, after the one that the load wrote under the old ones (assumption 38). -/
def loadNote (s : State) (old new : Nat) (was now : Stamp) : State :=
  epochNote (tallyPut s agCp 0x0A81 [(0x0E, was.toNat), (0x0F, now.toNat)]) old new

/-- Oldest sequence held; 0 when none is. -/
def logOldest (s : State) : Nat := match s.scorch.log with
  | [] => 0
  | r :: _ => r.seq

/-- Records of the mirror area of 256 KiB, and of the block that is erased when it is full (R512). -/
def logCap := 4096
def logBlock := 1024

/-- `SCORCH_LOG_MIRROR`: the records not yet mirrored are copied to both chips; a full mirror first loses its oldest block
(R512). -/
def execScorchLogMirror (s : State) : Host.Outcome State Fault Refusal :=
  .next (if s.pwr.vault || s.scorch.mirrored == s.scorch.logSeq then s
    else
      let s1 := chainUp s
      let s2 := { s1 with scorch := { s1.scorch with mirrored := s1.scorch.logSeq } }
      if s2.scorch.log.length ≤ logCap then s2
      else
        let rest := s2.scorch.log.drop logBlock
        let prev := ((s2.scorch.log.take logBlock).getLast?.map (·.chain)).getD []
        let (sev, s3) := freeSev { s2 with scorch := { s2.scorch with log := rest, prevChain := prev } }
        sqcSet (scorchLog s3 logWrap 0 sev 0 0 ((rest.head?.map (·.seq)).getD 0)) aScrEvt 8)

end Sys2Proof.Machine
end

