-- ==== Sys2Proof/Machine/Settings.lean ====
section
/-! DEFINITION. The settings store: which values it keeps, and how a start takes them up (spec 16, R454, R563). The model
holds the store's contents as the values themselves: record bodies are internal to each schema. -/

namespace Sys2Proof.Machine

/-- Offsets of a port's window that `PORT.CONFIG` sets and the store keeps. -/
def lnkKept : List Nat := [0x04, 0x10, 0x14, 0x18, 0x1C, 0x30, 0x34, 0x38, 0x3C, 0x40, 0x44]

/-- A register whose value is a mirrored setting: power settings, supply thresholds, secure pins and port
configurations. -/
def keptMirrored (a : Nat) : Bool :=
  [aPwrCtrl, aPwrWarmIdle, aPwrAirIdle, aPwrWakeMask, aScrVcoreWarn, aScrVcoreRst, aGpio 0x18].contains a ||
  (decide (0x80100000 ≤ a ∧ a < 0x80200000) && lnkKept.contains (a % 0x1000))

/-- A register whose value is a setting of this device alone (R563): Airing reference enables and RTC trim. -/
def keptLocal (a : Nat) : Bool := [aPwrAirRef, aTimeRtcTrim].contains a

/-- The settings as they stand. -/
def settingsTake (s : State) : Settings :=
  { regs := tblKeep (fun a _ => keptMirrored a) s.regs.file
    own := tblKeep (fun a _ => keptLocal a) s.regs.file
    quorum := s.seam.quorum, solo := s.seam.solo, source := s.time.groupSrc, ptpPort := s.time.ptpPort
    ptpDomain := s.time.ptpDomain, ppsWidth := s.time.ppsWidth, rngCfg := s.rng.cfg, pers := s.rng.pers
    rules := s.links.rules, ips := tblMap (fun (x : PortState) => x.ips) s.links.ports }

/-- Settings are taken up: registers, and the fields of the blocks. -/
def settingsPut (s : State) (x : Settings) : State :=
  let s1 := (x.regs ++ x.own).foldl (fun s e => regPut s e.1 e.2) s
  let ports := x.ips.foldl (fun (t : Tbl PortState) e => tblSet {} e.1 { tblGet {} t e.1 with ips := e.2 } t) s1.links.ports
  { s1 with
    seam := { s1.seam with quorum := x.quorum, solo := x.solo }
    time := { s1.time with groupSrc := x.source, ptpPort := x.ptpPort, ptpDomain := x.ptpDomain, ppsWidth := x.ppsWidth }
    rng := { s1.rng with cfg := x.rngCfg, pers := x.pers }
    links := { s1.links with rules := x.rules, ports := ports } }

/-- The settings in force are those of the store: Tortin has read it in this start, and it is admitted (R470, R508). -/
def settingsLive (s : State) : Bool := s.tortin.ready && !s.keys.held && s.boot.ksCause == 0

/-- What the store holds. -/
def settingsNow (s : State) : Settings := if settingsLive s then settingsTake s else s.boot.saved

/-- The store keeps the present settings before a reset changes the registers. -/
def settingsSave (s : State) : State := { s with boot := { s.boot with saved := settingsNow s } }

/-- The values of the mirrored settings. -/
def settingsForm (x : Settings) : List Nat :=
  [x.quorum, x.solo, x.source, x.ptpPort, x.ptpDomain, x.ppsWidth, x.rngCfg.toNat, leNat x.pers, x.pers.length] ++
  x.regs.flatMap (fun e => [e.1, e.2.toNat]) ++
  x.rules.flatMap (fun e => [e.1, e.2.port, e.2.kind, e.2.bits, e.2.header, e.2.target, leNat e.2.addr]) ++
  x.ips.flatMap (fun e => e.1 :: e.2.map leNat)

/-- The settings digest (R563). -/
def settingsDigestOf (s : State) : List Byte := bytesAt (Config.settingsDigest (settingsForm (settingsNow s))) 0 48

end Sys2Proof.Machine
end

