-- ==== Sys2Proof/Machine/Tracker.lean ====
section
/-! DEFINITION. The duplicate tables and the end of a command's stay in the tracker (spec 03, R67 to R69). -/

namespace Sys2Proof.Machine

/-- The duplicate table of a command's origin: its slice's, or the mailbox's own. -/
def dupOf (s : State) (c : Cmd) : List DupEntry :=
  match c.origin with
  | .ring n _ _ => (sliceGet s n).dup
  | .mailbox _ => s.tortin.mbx.dup

/-- The duplicate table of a command's origin set. -/
def dupSet (s : State) (c : Cmd) (d : List DupEntry) : State :=
  match c.origin with
  | .ring n _ _ => slicePut s n { sliceGet s n with dup := d }
  | .mailbox _ => { s with tortin := { s.tortin with mbx := { s.tortin.mbx with dup := d } } }

/-- Entries that a table holds (R69, R79). -/
def dupCap (c : Cmd) : Nat := if cMbx c then 16 else 4096

/-- The body digest of a command: SHA-256 over its 64 B without the deadline, and its inline input. -/
def cmdDigest (c : Cmd) : List Byte :=
  Config.sha256 (bytesAt c.body 0 16 ++ zeros 8 ++ bytesAt c.body 24 40 ++ c.inlined)

/-- A table without its first completed entry. -/
def dupEvict : List DupEntry → List DupEntry
  | [] => []
  | e :: t => if e.done.isSome then t else e :: dupEvict t

/-- A new token enters a table; a full table loses the completed entry accepted earliest (R69). -/
def dupEnter (s : State) (c : Cmd) : State :=
  let d := dupOf s c
  let d1 := if d.length < dupCap c then d else dupEvict d
  dupSet s c (d1 ++ [{ token := cToken c, digest := cmdDigest c }])

/-- A command of the same slice, or the mailbox. -/
def sameOrigin (a b : Cmd) : Bool := cSlice a == cSlice b

/-- The refusal of a handle by a `KEY.DESTROY` that ended before its start is withdrawn (R96). -/
def destroyDrop (s : State) (tag : Nat) : State :=
  { s with keys := { s.keys with
    objs := tblMap (fun (o : KeyObj) => if o.destroying = some tag then { o with destroying := none } else o) s.keys.objs } }

/-- The owner tag of a command's staging chains (R236). -/
def stageOwner (c : Cmd) : Nat := match cSlice c with
  | some n => tagSlice n
  | none => tagCp

/-- Buffers of a chain that stages `n` bytes (R236). -/
def stageBufs (n : Nat) : Nat := min 16 ((n + 255) / 256)

/-- A staging chain for `n` bytes, charged to the issuing slice. -/
def stageTake (s : State) (c : Cmd) (n : Nat) : Option Nat × State :=
  if n = 0 then (none, s)
  else match hmpAlloc s (stageOwner c) (stageBufs n) with
    | none => (none, s)
    | some (b, s1) => (some b, s1)

/-- A staging chain is freed. -/
def stageFree (s : State) (c : Cmd) (b : Option Nat) : State :=
  match b with
  | none => s
  | some x => if isChain s x && (bufGet s x).owner == stageOwner c then hmpRelease s x else s

/-- Both staging chains of a command are freed. -/
def stageDrop (s : State) (c : Cmd) : State := stageFree (stageFree s c c.stageIn) c c.stageOut

/-- A command leaves the tracker, its completion written or dropped: its token is freed, or its completion recorded
(R67). -/
def cmdRelease (s : State) (tag : Nat) : State :=
  match cmdAt s tag with
  | none => s
  | some c =>
    let s1 := cmdDel (stageDrop (if c.freeTok && cOp c == 0x0405 then destroyDrop s tag else s) c) tag
    if !c.own then s1
    else if c.freeTok then dupSet s1 c ((dupOf s1 c).filter (fun e => e.token != cToken c))
    else dupSet s1 c ((dupOf s1 c).map (fun e => if e.token = cToken c then { e with done := some c.comp } else e))

/-- What a repeat of a completed command is answered (R68). -/
def dupComp (c : Comp) : Comp := { c with status := if c.status = stOk then stOkDup else c.status, dup := true }

/-- A repeat ends with the completion of its original. -/
def endRepeat (s : State) (tag : Nat) (k : Comp) : State :=
  match cmdAt s tag with
  | none => s
  | some c => cmdPut s tag { c with stage := .ended, own := false, comp := dupComp k }

/-- Places of the tracker in which the commands pass a test. -/
def tagsOf (s : State) (p : Cmd → Bool) : List Nat := tblKeys p s.tortin.tracker

/-- The completion ring of a command: the one that its submission ring names. -/
def cmdCq (s : State) (c : Cmd) : Nat :=
  match c.origin with
  | .ring n k _ => fieldOf (sqGet (sliceGet s n) k).cfg 19 16
  | .mailbox _ => 0

/-- The index of a command's entry in its ring. -/
def cmdIndex (c : Cmd) : Nat :=
  match c.origin with
  | .ring _ _ i => i
  | .mailbox _ => 0

/-- The completion of an ended command goes to its ring, after the output that a primary held back (R56, R313). -/
def writeComp (s : State) (n : Nat) (c : Cmd) : State :=
  cqWrite (putOutput s c c.out) n (cmdCq s c) (cToken c) (cmdIndex c) c.comp (cIrq c || cAlarm c)

end Sys2Proof.Machine
end

