-- ==== Sys2Proof/Machine/Slices.lean ====
section
/-! DEFINITION. Slices: binding, resources, the slice reset, migration, and the 0x02xx commands (spec 12). -/

namespace Sys2Proof.Machine

/-! ### Parameters, serialisation and checks (R338, R342, R356) -/

/-- The slice that a 0x02xx command names. -/
def slTarget (c : Cmd) : Nat := sliceField c (par c 52 2)

/-- A slice's change is journalled (R338). -/
def sliceNote (s : State) (n : Nat) : State := jot s 0xFFFF false (.slice n (sliceGet s n))

/-- A 0x02xx command that executes in turn: every one but `SLICE.INFO`. -/
def slSerial (c : Cmd) : Bool := decide (0x0201 ≤ cOp c ∧ cOp c ≤ 0x0209)

/-- It is a command's turn among those that name its slice. -/
def slTurn (s : State) (c : Cmd) : Bool :=
  !s.tortin.tracker.any (fun e => slSerial e.2 && slTarget e.2 == slTarget c && decide (e.2.order < c.order) &&
    e.2.stage != .held && e.2.stage != .ended)

/-- A vector range lies in the table of a port's function from entry 1, clear of every other slice (R342). -/
def vecOk (s : State) (n port base count : Nat) : Bool :=
  decide (1 ≤ base ∧ base + count ≤ msixEntries s) &&
  s.slices.all (fun e => e.1 == n || e.2.mode == .unbound || e.2.port != port ||
    decide (base + count ≤ e.2.vecBase ∨ e.2.vecBase + e.2.vecCount ≤ base))

/-- A PASID is bound on a port to another slice (R335). -/
def pasidUsed (s : State) (n port pasid : Nat) : Bool :=
  s.slices.any (fun e => e.1 != n && e.2.mode != .unbound && e.2.port == port && e.2.pasid == pasid)

/-- Ports that slices can use (R17). -/
def portOk (s : State) (p : Nat) : Bool := decide (p = 0 ∨ (p = 1 ∧ s.dev.bifur = true))

/-- A resource block is well formed (Table 12-7). -/
def resForm (d : List Byte) : Bool :=
  let m := leAt d 0 4
  let on (i lo hi v : Nat) : Bool := !bitN m i || decide (lo ≤ v ∧ v ≤ hi)
  decide (m < 16) && bytesAt d 17 15 == zeros 15 && on 0 16 4096 (leAt d 4 4) && on 1 0 64256 (leAt d 8 4) &&
    on 2 32 4096 (leAt d 12 4) && on 3 0 7 (byteAt d 16)

/-- A slice with the resources of a block; a field whose mask bit is 0 stays. -/
def resApply (x : Slice) (d : List Byte) : Slice :=
  let m := leAt d 0 4
  { x with
    bound := if bitN m 0 then leAt d 4 4 else x.bound, quota := if bitN m 1 then leAt d 8 4 else x.quota
    reserve := if bitN m 2 then leAt d 12 4 else x.reserve, retry := if bitN m 3 then byteAt d 16 else x.retry }

/-- The reserves of bound slices with slice `n` holding `r` would pass 65,536 buffers (R232). -/
def reserveOver (s : State) (n r : Nat) : Bool :=
  let now := if (sliceGet s n).mode = .unbound then 0 else (sliceGet s n).reserve
  decide (65536 < sliceResSum s - now + r)

/-- The shared part can give what a raised reserve takes (Table 12-3). -/
def reserveReady (s : State) (n r : Nat) : Bool :=
  let now := if (sliceGet s n).mode = .unbound then 0 else (sliceGet s n).reserve
  decide (r ≤ now ∨ r - now < sharedFree s)

/-- Channels granted for a slice. -/
def grantedTo (s : State) (n : Nat) : List Nat :=
  ((List.range 256).filter (fun c => decide (32 ≤ c))).filter (fun c => dmaGranted s c && dmaSlice s c == n)

/-- Queues that deliver to a slice's host. -/
def hostQueues (s : State) (n : Nat) : List Nat := tblKeys (fun (x : Queue) => x.rx && x.dest == 0 && x.slice == n) s.links.queues

/-- Something ties a slice: a queue, a grant or a program (R348). -/
def sliceTied (s : State) (n : Nat) : Bool :=
  !(hostQueues s n).isEmpty || !(grantedTo s n).isEmpty ||
    s.needle.cores.any (fun e => e.2.mode != .free && e.2.slice == n)

/-- A vector at or above a count is named by a completion ring or a granted channel (R343). -/
def vecInUse (s : State) (n count : Nat) : Bool :=
  (List.range 16).any (fun k => decide (count ≤ fieldOf (cqGet (sliceGet s n) k).cfg 20 16)) ||
    (grantedTo s n).any (fun c => decide (count ≤ fieldOf (dmaCfg s c) 24 20))

/-- Windows of the dirty-page logs of other slices, in GiB: the 2 MiB log memory holds 64 (R349). -/
def logsUsed (s : State) (n : Nat) : Nat :=
  (s.slices.map (fun e => if e.1 = n then 0 else (e.2.log.map (·.len)).getD 0)).foldl (· + ·) 0

/-! ### The slice record and the blob (Tables 12-4, 12-5, 12-8) -/

/-- The slice record (R357). -/
def sliceRecord (s : State) (n : Nat) : List Byte :=
  let x := sliceGet s n
  let on := x.log.isSome
  leBytes 2 n ++ leBytes 1 x.mode.code ++
  leBytes 1 (b2n x.alarmOk + 2 * b2n on + 4 * b2n (x.log.any (·.outside)) + 8 * x.port) ++
  leBytes 2 x.owner ++ zeros 2 ++ leBytes 4 x.pasid ++ leBytes 2 x.bound ++ leBytes 2 (inFlight s n) ++
  leBytes 4 x.quota ++ leBytes 4 (slotsCharged s n) ++ leBytes 4 x.reserve ++ leBytes 4 (acctHeld s (5 + n)) ++
  leBytes 4 (acctBorrowed s (5 + n)) ++ leBytes 1 x.pressW ++ leBytes 1 x.mangleW ++ leBytes 1 x.retry ++
  leBytes 1 x.vecCount ++ leBytes 2 x.vecBase ++ zeros 2 ++ leBytes 4 x.parked ++ leBytes 2 (ctxCount s n) ++
  leBytes 2 x.dup.length ++ leBytes 2 (grantedTo s n).length ++ leBytes 2 (hostQueues s n).length ++
  leBytes 8 x.saveSeq ++ leBytes 2 ((x.log.map (·.base)).getD 0) ++ leBytes 1 ((x.log.map (·.len)).getD 0) ++ zeros 1 ++
  leBytes 4 x.ignWr.toNat ++ leBytes 8 x.boundAt.toNat ++ zeros 48

/-- A submission ring's state in a blob. -/
def sqBytes (r : SqRing) : List Byte :=
  leBytes 4 r.baseLo.toNat ++ leBytes 4 r.baseHi.toNat ++ leBytes 4 r.cfg.toNat ++ leBytes 2 r.head ++ leBytes 2 r.tail ++
    zeros 16

/-- A completion ring's state in a blob. -/
def cqBytes (r : CqRing) : List Byte :=
  leBytes 4 r.baseLo.toNat ++ leBytes 4 r.baseHi.toNat ++ leBytes 4 r.cfg.toNat ++
    leBytes 2 (b2n r.phase * 2 ^ 15 + r.tail) ++ leBytes 2 r.head ++ leBytes 4 r.coal.toNat ++ leBytes 2 r.since ++ zeros 10

/-- A submission ring from a blob. -/
def sqFrom (bs : List Byte) : SqRing :=
  { baseLo := BitVec.ofNat 32 (leAt bs 0 4), baseHi := BitVec.ofNat 32 (leAt bs 4 4), cfg := BitVec.ofNat 32 (leAt bs 8 4)
    head := leAt bs 12 2, tail := leAt bs 14 2 }

/-- A completion ring from a blob; its coalescing time starts again. -/
def cqFrom (bs : List Byte) (clk : Nat) : CqRing :=
  { baseLo := BitVec.ofNat 32 (leAt bs 0 4), baseHi := BitVec.ofNat 32 (leAt bs 4 4), cfg := BitVec.ofNat 32 (leAt bs 8 4)
    tail := leAt bs 12 2 % 4096, phase := bitN (leAt bs 12 2) 15, head := leAt bs 14 2
    coal := BitVec.ofNat 32 (leAt bs 16 4), since := leAt bs 20 2, firstAt := clk }

/-- Bytes 0 to 63 of a blob. -/
def blobHead (s : State) (n seq : Nat) : List Byte :=
  ascii "NBSLICE1" ++ leBytes 1 1 ++ zeros 1 ++ leBytes 2 n ++ leBytes 2 (sliceGet s n).owner ++ zeros 2 ++ leBytes 8 seq ++
    leBytes 8 s.dev.serial.toNat ++ zeros 32

/-- KDF(MIGRATE) of a slice's save (R353). -/
def blobKey (s : State) (n seq : Nat) : List Byte :=
  (kdf s 4 (sliceGet s n).owner (beBytes 2 n ++ beBytes 8 seq)).getD []

/-- A save blob over given rings. -/
def blobOf (s : State) (n seq : Nat) (sq : Tbl SqRing) (cq : Tbl CqRing) : List Byte :=
  let body := bytesAt (sliceRecord s n) 0 128 ++ (List.range 16).flatMap (fun k => sqBytes (tblGet {} sq k)) ++
    (List.range 16).flatMap (fun k => cqBytes (tblGet {} cq k))
  let head := blobHead s n seq
  head ++ gcmSeal (blobKey s n seq) (zeros 4 ++ beBytes 8 seq) head body

/-- The body of a blob that its slice accepts (R354). -/
def blobOpen (s : State) (n : Nat) (b : List Byte) : Option (List Byte) :=
  let seq := (sliceGet s n).saveSeq
  if bytesAt b 0 64 = blobHead s n seq ∧ seq ≠ 0 then
    gcmOpen (blobKey s n seq) (zeros 4 ++ beBytes 8 seq) (bytesAt b 0 64) (bytesAt b 64 1152) (bytesAt b 1216 16)
  else none

/-! ### What a command checks -/

/-- The status of a slice command in its turn (R335, R342, R343, R348, R356, R358). -/
def slLate (s : State) (c : Cmd) : Nat :=
  let n := slTarget c
  let x := sliceGet s n
  let d := heldInput c
  let live := x.mode != .unbound
  match cOp c with
  | 0x0201 =>
    let port := par c 60 1
    if live then 0x0201
    else if (ownerGet s (par c 54 2)).isNone then 0x030A
    else if !(fnGet s port).pasidEn then 0x0209
    else if pasidUsed s n port (par c 56 4) then 0x0202
    else if !vecOk s n port (par c 62 2) (par c 61 1) then 0x0203
    else if reserveOver s n (resApply {} d).reserve then 0x0205 else stOk
  | 0x0202 => if x.mode ≠ .active then 0x0201 else if sliceTied s n then 0x0206 else stOk
  | 0x0203 => if !live then 0x0201 else if reserveOver s n (resApply x d).reserve then 0x0205 else stOk
  | 0x0204 => if !live then 0x0201 else stOk
  | 0x0205 =>
    if !live then 0x0201
    else if vecInUse s n (par c 56 1) then 0x0204
    else if !vecOk s n x.port (par c 54 2) (par c 56 1) then 0x0203 else stOk
  | 0x0206 => if x.mode = .active then stOk else 0x0201
  | 0x0207 =>
    if x.mode ≠ .active ∧ x.mode ≠ .migrating then 0x0201
    else if par c 54 1 = 1 ∧ 64 < logsUsed s n + par c 58 1 then 0x0208 else stOk
  | 0x0208 =>
    let port := par c 54 1
    if x.mode ≠ .migrating then 0x0201
    else if (blobOpen s n d).isNone then 0x0207
    else if (ownerGet s x.owner).isNone then 0x030A
    else if !(fnGet s port).pasidEn then 0x0209
    else if pasidUsed s n port (par c 56 4) then 0x0202
    else if !vecOk s n port (par c 60 2) x.vecCount then 0x0203 else stOk
  | 0x0209 => if x.log.isNone then 0x0201 else stOk
  | _ => if live then stOk else 0x0201

/-- The catalogue's entries of the 0x02xx commands (Table 12-6, R356). -/
def specSlices (s : State) (c : Cmd) : Option CmdSpec :=
  let n := slTarget c
  let x := sliceGet s n
  let d := heldInput c
  let own0 := cOwner s c == 0
  let late := slLate s c
  let base (used : List (Nat × Nat)) : CmdSpec := {
    zero := noKeys c && parZero c used, form := decide (n < 1024), issuer := own0
    late := late, free := slTurn s c && x.mode != .resetting }
  match cOp c with
  | 0x0201 =>
    let b := base []
    some { b with
      zero := b.zero && decide (par c 56 4 < 2 ^ 20)
      form := b.form && portOk s (par c 60 1) && decide (1 ≤ par c 61 1 ∧ par c 61 1 ≤ 32)
      formIn := cInLen c == 0 || resForm d, inMax := 32, lens := cInLen c == 0 || cInLen c == 32
      preread := if cInLen c = 0 then 0 else 32, quorum := none
      free := b.free && (late != stOk || reserveReady s n (resApply {} d).reserve) }
  | 0x0202 => some (base [(54, 10)])
  | 0x0203 =>
    let b := base [(54, 10)]
    some { b with formIn := resForm d, inMin := 32, inMax := 32, preread := 32
                  free := b.free && (late != stOk || reserveReady s n (resApply x d).reserve) }
  | 0x0204 => let b := base [(57, 7)]; some { b with zero := b.zero && decide (par c 56 1 < 4) }
  | 0x0205 => let b := base [(57, 7)]; some { b with form := b.form && decide (1 ≤ par c 56 1 ∧ par c 56 1 ≤ 32) }
  | 0x0206 =>
    let b := base [(54, 10)]
    some { b with issuer := own0 || cSlice c == some n }
  | 0x0207 =>
    let ph := par c 54 1
    let b := base (if ph = 1 then [(55, 1), (59, 5)] else [(55, 9)])
    some { b with
      form := b.form && decide (1 ≤ ph ∧ ph ≤ 3) && (ph != 1 || decide (1 ≤ par c 58 1 ∧ par c 58 1 ≤ 32 ∧
        2 ^ 30 * (par c 56 2 + par c 58 1) ≤ 0xFF00000000))
      outMax := if ph = 2 then 1232 else 0 }
  | 0x0208 =>
    let b := base [(55, 1), (62, 2)]
    some { b with form := b.form && portOk s (par c 54 1) && decide (par c 56 4 < 2 ^ 20), inMin := 1232, inMax := 1232
                  preread := 1232 }
  | 0x0209 =>
    let b := base [(54, 2), (60, 4)]
    some { b with form := b.form && decide (par c 56 4 % 64 = 0)
                  lens := decide (cOutCap c % 8 = 0 ∧ cOutCap c ≤ 1048576), outMax := 8 }
  | 0x020A =>
    let b := base [(54, 10)]
    some { b with issuer := own0 || cSlice c == some n, outMax := 128, free := true }
  | _ => none

/-! ### Parked interrupts (R344) -/

/-- The Pending Bits of a slice's entries cleared. -/
def clearPba (s : State) (n : Nat) : State :=
  let x := sliceGet s n
  let f := fnGet s x.port
  fnPut s x.port { f with pba := (List.range x.vecCount).foldl (fun t v => tblSet false (x.vecBase + v) false t) f.pba }

/-- Parking ends by unparking: each parked vector is raised once, in ascending order. -/
def unpark (s : State) (n : Nat) : State :=
  let x := sliceGet s n
  (maskBits x.parked 32).foldl (fun s v => raiseMsix s x.port (x.vecBase + v))
    (slicePut s n { x with parking := false, parked := 0 })

/-! ### The slice reset (R345 to R347) -/

/-- Steps 1 and 2: fetching stops, interrupts are parked, and every command that has not started ends with `ABORTED`. -/
def resetBegin (s : State) (n : Nat) (by_ : Option Nat) : State :=
  let s1 := slicePut s n { sliceGet s n with mode := .resetting, parking := true, resetBy := by_ }
  let s2 := { s1 with tortin := { s1.tortin with retries := s1.tortin.retries.filter (fun r => match r.what with
    | .sqFetch m _ => m != n
    | _ => true) } }
  (tagsOf s2 (fun c => cSlice c == some n && c.stage != .started && c.stage != .ended)).foldl
    (fun s t => if by_ = some t then s else endBefore s t stAborted) s2

/-- The completion of an ended command can be written: its ring is enabled and has a free entry. -/
def compOpen (s : State) (n : Nat) (c : Cmd) : Bool := cqRoom s n (cmdCq s c)

/-- Step 3 is over: no command of the slice runs, and no completion is left that can still be written. -/
def resetDrained (s : State) (n : Nat) (by_ : Option Nat) : Bool :=
  s.tortin.tracker.all (fun e => by_ == some e.1 || cSlice e.2 != some n ||
    (e.2.stage == .ended && !compOpen s n e.2))

/-- Steps 4 to 7: contexts end, channels are aborted, chains are freed, receive rings return to slot 0. -/
def resetFree (s : State) (n : Nat) : State :=
  let s1 := (grantedTo s n).foldl dmaAbort (ctxEndAll s (fun x => x.slice == n))
  (hostQueues s1 n).foldl (fun s q => queueMod s q (fun x => { x with rxNext := 0, rxOut := [] }))
    (hmpReleaseAll s1 (tagSlice n))

/-- Step 8: completions that cannot be written are dropped, parked interrupts too; every ring is disabled. -/
def resetEnd (s : State) (n : Nat) : State :=
  let s1 := (tagsOf s (fun c => cSlice c == some n && c.stage == .ended)).foldl cmdRelease s
  let s2 := clearPba s1 n
  let x := sliceGet s2 n
  let off (w : Word) : Word := putBit (putBit w 31 false) 29 false
  slicePut s2 n { x with
    mode := .active, parking := false, parked := 0, resetBy := none, frozen := none
    sq := tblMap (fun r => { r with cfg := off r.cfg }) x.sq, cq := tblMap (fun r => { r with cfg := off r.cfg }) x.cq }

/-- A slice no longer bound: its table is discarded, its resources are released, and its key objects are charged to
their owner only (R348). -/
def unbind (s : State) (n : Nat) : State :=
  let s1 := slicePut s n { ignWr := (sliceGet s n).ignWr }
  { s1 with keys := { s1.keys with
    objs := tblMap (fun (o : KeyObj) => if o.slice = n then { o with slice := 0xFFFF } else o) s1.keys.objs } }

/-- The command that runs a reset or a destruction ends; on its own slice its completion is written now, if a free entry
is there, and discarded otherwise. -/
def resetAnswer (s : State) (n tag : Nat) : State :=
  let s1 := endOk s tag
  match cmdAt s1 tag with
  | none => s1
  | some c =>
    if cSlice c = some n then cmdRelease (if compOpen s1 n c then writeComp s1 n c else s1) tag else s1

/-- A reset goes on: once the slice has drained, it ends, with the command that runs it. -/
def resetStep (s : State) (n : Nat) : State :=
  let x := sliceGet s n
  if x.mode ≠ .resetting ∨ !resetDrained s n x.resetBy then s
  else match x.resetBy with
    | none => resetEnd (resetFree s n) n
    | some tag =>
      let destroy := (cmdAt s tag).any (fun c => cOp c == 0x0202)
      let own := (cmdAt s tag).any (fun c => cSlice c == some n)
      let s1 := resetFree s n
      if own then
        let s2 := resetEnd (resetAnswer s1 n tag) n
        sliceNote (if destroy then unbind s2 n else s2) n
      else
        let s2 := resetEnd s1 n
        endOk (sliceNote (if destroy then unbind s2 n else s2) n) tag

/-- A slice reset of every slice bound through a function begins (R347). -/
def resetSlices (s : State) (p : Nat) : State :=
  let ns := tblKeys (fun (x : Slice) => x.port == p && (x.mode == .active || x.mode == .quiescing || x.mode == .migrating)) s.slices
  ns.foldl (fun s n => resetStep (resetBegin s n none) n) s

/-- `SLICE_RESET` (R345, R346). -/
def execSliceReset (tag : Nat) (s : State) : Host.Outcome State Fault Refusal :=
  runCmd s tag 0x0206 (fun c s =>
    let n := slTarget c
    if c.joined then endOk s tag
    else if (sliceGet s n).resetBy = some tag then resetStep s n
    else if (sliceGet s n).mode = .active then resetStep (resetBegin s n (some tag)) n
    else s)

/-- `SLICE_DESTROY` (R348). -/
def execSliceDestroy (tag : Nat) (s : State) : Host.Outcome State Fault Refusal :=
  runCmd s tag 0x0202 (fun c s =>
    let n := slTarget c
    if (sliceGet s n).resetBy = some tag then resetStep s n
    else if (sliceGet s n).mode = .active then resetStep (resetBegin s n (some tag)) n
    else if (sliceGet s n).mode = .unbound then endOk s tag
    else s)

/-! ### Binding and resources -/

/-- `SLICE_CREATE` (R335, R339). -/
def execSliceCreate (tag : Nat) (io : HostIO) (s : State) : Host.Outcome State Fault Refusal :=
  runIn s tag 0x0201 io (fun c d s =>
    let n := slTarget c
    let x : Slice := {
      mode := .active, owner := par c 54 2, port := par c 60 1, pasid := par c 56 4, vecBase := par c 62 2
      vecCount := par c 61 1, boundAt := nowStamp s, ignWr := (sliceGet s n).ignWr }
    endOk (sliceNote (reserveNote s n (slicePut s n (if d.isEmpty then x else resApply x d))) n) tag)

/-- `SLICE_RESIZE` (R340). -/
def execSliceResize (tag : Nat) (io : HostIO) (s : State) : Host.Outcome State Fault Refusal :=
  runIn s tag 0x0203 io (fun c d s =>
    let n := slTarget c
    endOk (sliceNote (reserveNote s n (slicePut s n (resApply (sliceGet s n) d))) n) tag)

/-- `SLICE_SET_QOS` (R340): clearing `ALARM_OK` clears `SQ_CFG.ALARM` on every ring. -/
def execSliceSetQos (tag : Nat) (s : State) : Host.Outcome State Fault Refusal :=
  runCmd s tag 0x0204 (fun c s =>
    let n := slTarget c
    let x := sliceGet s n
    let f := par c 56 1
    let x1 := { x with
      pressW := if par c 54 1 = 0 then x.pressW else par c 54 1
      mangleW := if par c 55 1 = 0 then x.mangleW else par c 55 1
      alarmOk := if bitN f 1 then bitN f 0 else x.alarmOk }
    let x2 := if x1.alarmOk then x1 else { x1 with sq := tblMap (fun r => { r with cfg := putBit r.cfg 30 false }) x1.sq }
    endOk (sliceNote (slicePut s n x2) n) tag)

/-- `SLICE_SET_VECTORS` (R343): the interrupts of a migrating slice stay parked. -/
def execSliceSetVectors (tag : Nat) (s : State) : Host.Outcome State Fault Refusal :=
  runCmd s tag 0x0205 (fun c s =>
    let n := slTarget c
    let s1 := clearPba s n
    let s2 := slicePut s1 n { sliceGet s1 n with vecBase := par c 54 2, vecCount := par c 56 1 }
    let s3 := if (sliceGet s2 n).mode = .active then unpark s2 n else s2
    endOk (sliceNote s3 n) tag)

/-- `SLICE_INFO` (R357). -/
def execSliceInfo (tag : Nat) (io : HostIO) (s : State) : Host.Outcome State Fault Refusal :=
  runCmd s tag 0x020A (fun c s => endOut s tag io (sliceRecord s (slTarget c)))

/-! ### Migration (R349 to R355) -/

/-- `SLICE_SAVE_LOG_START` (R349). -/
def execSliceSaveLogStart (tag : Nat) (s : State) : Host.Outcome State Fault Refusal :=
  runCmd s tag 0x0207 (fun c s =>
    if par c 54 1 ≠ 1 then s
    else
      let n := slTarget c
      let l : DirtyLog := { base := par c 56 2, len := par c 58 1 }
      endOk (sliceNote (slicePut s n { sliceGet s n with log := some l }) n) tag)

/-- `SLICE_SAVE_LOG_END`. -/
def execSliceSaveLogEnd (tag : Nat) (s : State) : Host.Outcome State Fault Refusal :=
  runCmd s tag 0x0207 (fun c s =>
    if par c 54 1 ≠ 3 then s
    else endOk (sliceNote (slicePut s (slTarget c) { sliceGet s (slTarget c) with log := none }) (slTarget c)) tag)

/-- Channels of a slice are paused for the migration, and noted. -/
def freezeChans (s : State) (n : Nat) : State :=
  (grantedTo s n).foldl (fun s c =>
    let x := chanGet s c
    if x.mode = .running ∨ x.mode = .waitTrig then
      let s1 := dmaPause s c
      chanPut s1 c { chanGet s1 c with frozen := true }
    else s) s

/-- Channels that the migration paused continue. -/
def thawChans (s : State) (n : Nat) : State :=
  (grantedTo s n).foldl (fun s c =>
    if (chanGet s c).frozen then dmaCont (chanPut s c { chanGet s c with frozen := false }) c else s) s

/-- No command of the slice is left but the save itself. -/
def saveDrained (s : State) (n tag : Nat) : Bool := s.tortin.tracker.all (fun e => e.1 == tag || cSlice e.2 != some n)

/-- Steps 3 to 5 of a stop: channels paused, a new save sequence, the blob, the ring state cleared (R352, R353). -/
def saveFreeze (s : State) (n tag : Nat) (io : HostIO) : State :=
  let s1 := freezeChans s n
  let x := sliceGet s1 n
  let count := s1.tortin.saveCnt + 1
  let seq := (epochId s1).toNat * 2 ^ 48 + count
  let rings := x.frozen.getD (x.sq, x.cq)
  let blob := blobOf s1 n seq rings.1 rings.2
  let s2 := slicePut { s1 with tortin := { s1.tortin with saveCnt := count } } n
    { x with saveSeq := seq, frozen := some rings, sq := [], cq := [], mode := .migrating }
  endOut (sliceNote s2 n) tag io blob stOk (BitVec.ofNat 64 seq)

/-- `SLICE_SAVE_STOP` (R352). -/
def execSliceSaveStop (tag : Nat) (io : HostIO) (s : State) : Host.Outcome State Fault Refusal :=
  runCmd s tag 0x0207 (fun c s =>
    if par c 54 1 ≠ 2 then s
    else
      let n := slTarget c
      let s1 := if (sliceGet s n).mode = .active then slicePut s n { sliceGet s n with mode := .quiescing, parking := true } else s
      let stops := (sliceGet s1 n).mode == .quiescing || (sliceGet s1 n).mode == .migrating
      if stops && saveDrained s1 n tag then saveFreeze s1 n tag io else s1)

/-- `SLICE_RESTORE` (R354). -/
def execSliceRestore (tag : Nat) (io : HostIO) (s : State) : Host.Outcome State Fault Refusal :=
  runIn s tag 0x0208 io (fun c b s =>
    let n := slTarget c
    match blobOpen s n b with
    | none => endFault s tag
    | some d =>
      let ks := List.range 16
      let sq := ks.foldl (fun t k => tblSet {} k (sqFrom (bytesAt d (128 + 32 * k) 32)) t) []
      let cq := ks.foldl (fun t k => tblSet {} k (cqFrom (bytesAt d (640 + 32 * k) 32) s.time.clk) t) []
      let s1 := slicePut s n { sliceGet s n with
        port := par c 54 1, pasid := par c 56 4, vecBase := par c 60 2, sq := sq, cq := cq, frozen := none, log := none
        mode := .active }
      endOk (sliceNote (unpark (thawChans s1 n) n) n) tag)

/-- Bits of a log from a page of its window, as bytes. -/
def logBytes (l : DirtyLog) (first : Nat) : Nat → List Byte
  | 0 => []
  | n + 1 =>
    let page := 0x40000 * l.base + first
    let byte := (List.range 8).foldl (fun b i => if tblGet l.full l.pages (page + i) then b + 2 ^ i else b) 0
    BitVec.ofNat 8 byte :: logBytes l (first + 8) n

/-- Pages of a log read and cleared. -/
def logClear (l : DirtyLog) (first n : Nat) : DirtyLog :=
  { l with allDirty := false
           pages := (List.range (8 * n)).foldl (fun t i => tblSet l.full (0x40000 * l.base + first + i) false t) l.pages }

/-- `SLICE_HARVEST` (R351): pages are counted from the start of the window. -/
def execSliceHarvest (tag : Nat) (io : HostIO) (s : State) : Host.Outcome State Fault Refusal :=
  runCmd s tag 0x0209 (fun c s =>
    let n := slTarget c
    match (sliceGet s n).log with
    | none => endFault s tag
    | some l =>
      let first := par c 56 4
      let count := min (cOutCap c) ((0x40000 * l.len - first) / 8)
      let bs := logBytes l first count
      let ones := (bs.map (fun b => popCount b.toNat 8)).foldl (· + ·) 0
      endOut (slicePut s n { sliceGet s n with log := some (logClear l first count) }) tag io bs stOk
        (extra2 ones (b2n l.outside + 2 * b2n l.allDirty)))

end Sys2Proof.Machine
end

