-- ==== Sys2Proof/Machine/SeamGroup.lean ====
section
/-! DEFINITION. The Seam group as the rest of the device acts on it: events, FAREWELL, fencing, handing the primary role
over, leaving, sessions, the values that members compare, and the snapshot (spec 11, R303 to R331). -/

namespace Sys2Proof.Machine

/-! ### Events, links and members -/

/-- FAREWELL on every link that is up (R321). -/
def seamFarewell (s : State) (cause : FarewellCause) : State :=
  (seamUp s).foldl (fun s l => seamSend s l (.farewell cause)) s

/-- The primary as this member knows it. -/
def seamPrimary (s : State) : Option Nat := (seamOthers s).find? (fun m => (seamPeer s m).role == 1)

/-- The member that the cabling puts at the other end of a link (R303). -/
def cablePeer (size index link : Nat) : Nat :=
  if size = 2 then 1 - index else if link < 2 then (index + 1) % 3 else (index + 2) % 3

/-! ### Fencing (R327) -/

/-- A member that stops serving drops its hosts' commands: no effect of them is released here. -/
def seamDiscard (s : State) : State :=
  let tags := tagsOf s (fun c => !cMbx c)
  let drop (t : Nat) (s : State) : State :=
    let s := match cmdAt s t with
      | some c => stageDrop s c
      | none => s
    cmdDel (mangleLeave (pressDrop s (fun j => j.ofCmd t)) t) t
  let s := enrolsDrop s
  tags.foldl (fun s t => drop t s) { s with tortin := { s.tortin with visit := none, retries := [] } }

/-- Clocks of 10 minutes. -/
def askWindow := 600 * cycS

/-- A fenced member asks the primary for resynchronisation: once, and at most 3 times more in 10 minutes. After that it waits for `SEAM.RESYNC`,
whose snapshot clears the count (R327, R332). A request that has no link to leave on is none. -/
def seamAsk (s : State) : State :=
  match seamPrimary s with
  | none => s
  | some m =>
    if 4 ≤ s.seam.asks.length ∨ (seamLinkTo s m).isNone then s
    else seamTo { s with seam := { s.seam with
      asks := s.seam.asks.filter (fun t => decide (s.time.clk < t + askWindow)) ++ [s.time.clk] } } m .resyncAsk

/-- This member is fenced with a cause (Table 11-12); it asks for resynchronisation at once, except under a Scorch lock and
while Thimble is down. -/
def seamFence (s : State) (cause : Nat) : State :=
  if !(s.seam.role == .primary || s.seam.role == .follower) then s
  else
    let s1 := seamDiscard { s with seam := { s.seam with
      role := .fenced, isolated := false, inSync := false, switch := none, waiting := [], unsent := [], probeAt := none, driftAt := none } }
    let s2 := regPut (regAdd s1 aSeamFenceCnt 1) aSeamCause (BitVec.ofNat 32 cause)
    let s3 := seamEvent s2 3 s.seam.index
    if cause = 5 ∨ cause = 9 then s3 else seamAsk s3

/-! ### Handing the primary role over (R328, R332, R405) -/

/-- Every entry is acknowledged by the followers in service. -/
def seamSettled (s : State) : Bool := seamReleased s s.seam.applied

/-- Every command of the tracker changed by a function. -/
def tracksMap (s : State) (f : Cmd → Cmd) : State :=
  { s with tortin := { s.tortin with tracker := tblMap f s.tortin.tracker } }

/-- A handover that has begun goes on: once every entry is acknowledged ROLE is journalled, and the primary becomes a
follower; its commands are the new primary's. A lock, or Thimble's failure, fences it then. -/
def switchStep (s : State) : State :=
  match s.seam.switch with
  | none => s
  | some (m, _) =>
    if !isPrimary s || !seamSettled s || !s.seam.unsent.isEmpty || !budgetFits s (0, entrySize (.role 1 m)) then s
    else
      let s1 := jot s 0xFFFF true (.role 1 m)
      let x := seamPeer s1 m
      let seam1 := { s1.seam with role := SeamRole.follower, switch := none, buffer := [], driftAt := none }
      let s2 := seamPeerPut { s1 with seam := seam1 } m { x with role := 1 }
      let s3 := tracksMap s2 (fun c => { c with mirror := true })
      if s3.scorch.locked then seamFence s3 5
      else if s3.thm.mode ≠ .ready then seamFence s3 9
      else s3

/-- The primary begins to hand over to a member. -/
def handOver (s : State) (m : Nat) : State :=
  if !isPrimary s || s.seam.switch.isSome then s
  else switchStep { s with seam := { s.seam with switch := some (m, s.time.clk) } }

/-- What a member does that can no longer serve: a primary hands over to the lowest follower in service, if there is one; a
follower is fenced. -/
def seamYield (s : State) (cause : Nat) : State :=
  match s.seam.role with
  | .primary => match (releaseSet s).head? with
    | some m => handOver s m
    | none => s
  | .follower => seamFence s cause
  | _ => s

/-- A Scorch lock begins (R328). -/
def seamLock (s : State) : State := seamYield s 5

/-! ### Standing alone -/

/-- The formation key pair is drawn anew, as soon as Bobbin serves. -/
def formationDraw (s : State) : State :=
  formationNeed { s with seam := { s.seam with formXs := [], formKs := [], formX := [], formK := [] } }

/-- No queue is duplicated, for the device stands alone. -/
def queuesSolo (s : State) : State :=
  { s with links := { s.links with queues := tblMap (fun q => { q with dup := false }) s.links.queues } }

/-- A link whose session has ended: it is in HELLO, and takes a new nonce (R306). -/
def linkHello (x : SeamLink) (peer : Nat := 0xFF) : SeamLink := { mode := .hello, peer := peer, tx := x.tx, rx := x.rx }

/-- The device stands alone, without a group key (R307, R332). -/
def seamAlone (s : State) : State :=
  let s1 := queuesSolo { s with seam := { s.seam with
    role := .alone, isolated := false, index := 0, size := 0, group := 0, key := [], peers := [{}, {}, {}], buffer := []
    waiting := [], ackOwed := false, inSync := false, forming := none, switch := none, probeAt := none, asks := [], unsent := [], sent := []
    short := false, part := [], snapGot := 0, checkD := (0, [], []), driftAt := none
    links := s.seam.links.map (fun l => if l.mode = .up then linkHello l else l) } }
  pendDomain s1

/-- Owner objects, queues, cards and programs are destroyed, and the owners that stay get new store keys (R332). -/
def seamStrip (s : State) : State :=
  let s1 := s.keys.objs.foldl (fun s e => keyErase s e.1) (enrolsDrop s)
  let s2 := { s1 with
    links := { s1.links with queues := [], cards := [], enrols := [], rules := [], waits := [] }
    needle := { s1.needle with progs := [] } }
  let s3 := (s2.needle.cores.map (·.1)).foldl (fun s n => coreClear s n 2) s2
  let s4 := { s3 with keys := { s3.keys with osks := [], jrn0 := [], jrn1 := [] } }
  (0xFFFF :: s4.keys.owners.map (·.1)).foldl (fun s n =>
    let (k, s1) := draw s 32
    let t := jrnTry s1 (fun s a b => jrnOsk s a b n k k)
    if t.2 then { t.1 with keys := { t.1.keys with osks := tblPut n k t.1.keys.osks } } else t.1) s4

/-- A member leaves its group: it strips itself, erases the group key and draws a new formation key pair (R332). -/
def seamLeaveSelf (s : State) : State := formationDraw (seamStrip (seamAlone (seamFarewell s .leave)))

/-! ### Checks (Table 11-3) -/

/-- The device holds no owner object, queue, card record or loaded program. -/
def seamEmpty (s : State) : Bool :=
  s.keys.objs.isEmpty && s.links.queues.isEmpty && s.links.cards.isEmpty && s.needle.progs.isEmpty

/-- What this device reports for the checks. -/
def seamChecks (s : State) : SeamChecks :=
  { committed := s.keys.nextSeq - 1, part := 0x4E62B100, lc := lcState s, ksGen := s.boot.ksGen, bm0 := s.boot.bm0, bm1 := s.boot.bm1, version := 7
    settings := settingsDigestOf s, owners := ownerSetDigest s, empty := seamEmpty s, locked := s.scorch.locked }

/-- The failed checks between two members' values, as `SEAM.STATUS` byte 43 codes them. -/
def seamFailed (a b : SeamChecks) : Nat :=
  b2n (a.part != b.part) + 2 * b2n (a.lc != b.lc || a.lc == 4) + 4 * b2n (a.ksGen != b.ksGen) +
  8 * b2n ((a.bm0 != b.bm0 || a.bm1 != b.bm1) && decide (min a.version b.version < 6)) +
  16 * b2n (a.settings != b.settings) + 32 * b2n (a.owners != b.owners)

/-- The values that this member knows of every member, its own among them. -/
def checksAll (s : State) : List (Nat × SeamChecks) :=
  (s.seam.index, seamChecks s) :: (seamOthers s).filterMap (fun m => (seamPeer s m).vals.map (fun c => (m, c)))

/-- The failed checks between every pair of the members whose values are known, and of the followers that hold something at a formation (R308). -/
def checksBad (s : State) : Nat :=
  let all := checksAll s
  let pairs := all.flatMap (fun a => (all.filter (fun b => decide (a.1 < b.1))).map (fun b => seamFailed a.2 b.2))
  let full := s.seam.forming.isSome && all.any (fun a => a.1 != 0 && !a.2.empty)
  pairs.foldl (· ||| ·) (64 * b2n full)

/-! ### Sessions (R306) -/

/-- The session key of a link between this member and a peer. -/
def sessionKey (s : State) (l : Nat) : List Byte :=
  let x := seamLink s l
  let m := x.peer
  let low := decide (s.seam.index < m)
  let lo := if low then s.seam.index else m
  let hi := if low then m else s.seam.index
  let far := if s.seam.size = 2 then l else (l + 2) % 4
  Config.kmac256 s.seam.key (beBytes 8 s.seam.group.toNat ++ beBytes 1 lo ++ beBytes 1 hi ++ beBytes 1 (if low then l else far) ++
    (if low then x.nonce ++ x.theirs else x.theirs ++ x.nonce)) 32 (ascii "ILASKUST-SEAM-LINK")

/-- A link opens a session once both ends have a new nonce and the group key is there: it is UP, and its peer is reached again. -/
def sessionOpen (s : State) (l : Nat) : State :=
  let x := seamLink s l
  if s.seam.key.isEmpty || !x.fresh || !x.farNew || decide (3 ≤ x.peer) then s
  else
    let s1 := seamLinkPut s l { x with
      mode := .up, key := sessionKey s l, fresh := false, farNew := false, txSeq := 1, rxSeq := 0, heard := s.time.clk, sentAt := s.time.clk, missed := 0 }
    let p := seamPeer s1 x.peer
    let s2 := seamPeerPut s1 x.peer { p with lost := false, farewell := false }
    let s3 := if x.mode = .up then s2 else seamEvent s2 6 x.peer
    if p.checked then s3 else seamSend s3 l (.checks (seamChecks s3))

/-- HELLO on a link, with its nonce. -/
def sendHello (s : State) (l : Nat) : State :=
  let x := seamLink s l
  seamSend s l (.hello s.dev.serial (if s.seam.size = 0 then 0xFF else s.seam.index) s.seam.version x.tx x.rx x.nonce)

/-- A link draws the nonce of its next session, unless it has one; it waits for Bobbin (R214, R306). -/
def linkNonce (s : State) (l : Nat) : State :=
  if (seamLink s l).fresh || !bobbinFor s 4 then s
  else
    let (n, s1) := draw s 32
    seamLinkPut s1 l { seamLink s1 l with nonce := n, fresh := true }

/-- HELLO goes out on a link with the nonce of its next session. -/
def helloOn (s : State) (l : Nat) : State :=
  let s1 := linkNonce s l
  if (seamLink s1 l).fresh then sendHello s1 l else s1

/-! ### Snapshot (R329) -/

/-- What the primary sends to a joining member. -/
def seamSnap (s : State) : SeamSnap :=
  { objs := s.keys.objs, gens := s.keys.gens, osks := s.keys.osks, owners := s.keys.owners, pend := s.keys.pend
    slices := s.slices, links := s.links, progs := s.needle.progs, cores := tblMap coreRow s.needle.cores
    saves := s.tortin.saveCnt, settings := settingsTake s, source := s.time.groupSrc
    seq := s.seam.applied, term := s.seam.term, stamp := nowStamp s, epoch := regGet s aTimeEpoch
    ctBase := regGet64 s aTimeCtBaseLo aTimeCtBaseHi, digest := s.seam.digest }

/-- A snapshot goes to a member, in as many packets as it takes; the member joins, and the entries from here on are kept for it (R312, R329). -/
def snapSend (s : State) (m : Nat) : State :=
  match seamLinkTo s m with
  | none => s
  | some l =>
    let x := seamSnap s
    let n := snapParts x
    let k := seamLink s l
    let ps := (List.range n).map (fun i => { seamPacket s l (.snapshot i n x) with seq := k.txSeq + i })
    if 2 ^ 48 ≤ k.txSeq + n then s
    else
      let s1 := seamPeerPut (seamLinkPut s l { k with txSeq := k.txSeq + n }) m { seamPeer s m with joining := true, acked := s.seam.applied }
      { s1 with out := (ps.map (fun p => Output.seam (seamHeader p) p (seamTag p))).reverse ++ s1.out }

/-- A slice as another member describes it (R338, R355). The rings, the duplicate table and the error words are each member's own, but a slice
that migrates, or has just been restored, has the ring state that was mirrored (R310, assumption 38). A reset that this member still makes goes on. -/
def sliceMirror (own x : Slice) : Slice :=
  let moves := own.mode == .migrating || x.mode == .migrating
  let sq := if x.alarmOk then own.sq else tblMap (fun r => { r with cfg := putBit r.cfg 30 false }) own.sq
  let y := { x with
    dup := own.dup, ignWr := own.ignWr, sqErr := own.sqErr, cqErr := own.cqErr, lastRing := own.lastRing, pressDef := own.pressDef
    mangleDef := own.mangleDef, sq := if moves then x.sq else sq, cq := if moves then x.cq else own.cq }
  if own.mode = .resetting then { y with mode := .resetting, parking := own.parking, parked := own.parked, resetBy := own.resetBy } else y

/-- A slice's STATE entry is applied; the count of saves is the primary's (R353). -/
def sliceTake (s : State) (n : Nat) (x : Slice) : State :=
  let own := sliceGet s n
  if x.mode = .unbound then (if own.mode = .unbound then s else unbind (resetFree s n) n)
  else
    let count := if x.saveSeq / 2 ^ 48 = (epochId s).toNat then max s.tortin.saveCnt (x.saveSeq % 2 ^ 48) else s.tortin.saveCnt
    reserveNote s n (slicePut { s with tortin := { s.tortin with saveCnt := count } } n (sliceMirror own x))

/-- A core's STATE entry is applied: the core is assigned or FREE as the primary says, and runs nothing here (R391). -/
def coreTake (s : State) (n : Nat) (x : CoreRow) : State :=
  if x.mode = .free then coreRelease s n
  else corePut (hemWindow s n (some x.owner)) n {
    mode := x.mode, owner := x.owner, slice := x.slice, program := x.program, keys := x.keys, args := x.args, changed := nowStamp s }

/-- The member's own cores are cleared, and the group's taken (R329). -/
def coresTake (s : State) (t : Tbl CoreRow) : State :=
  t.foldl (fun s e => coreTake s e.1 e.2) ((s.needle.cores.map (·.1)).foldl (fun s n => coreClear s n 2) s)

/-- The settings of the group; those of this device alone stay (R329, R563). -/
def settingsShared (s : State) (x : Settings) : State :=
  settingsPut { s with regs := { s.regs with file := tblKeep (fun a _ => !keptMirrored a) s.regs.file } } { x with own := [] }

/-- The slices of a snapshot as this member takes them; the duplicate tables come with it (R329). -/
def slicesMirror (s : State) (t : Tbl Slice) : Tbl Slice :=
  t.foldl (fun t e => tblSet {} e.1 { sliceMirror (sliceGet s e.1) e.2 with dup := e.2.dup } t) []

/-- The member replaces its own state with the snapshot; its flash holds the snapshot's persistent objects afterwards, under
its own keys (R329), and its time is the primary's (R30). It says too whether a flash chip has taken every record. -/
def snapApply (s : State) (x : SeamSnap) : State × Bool :=
  let heart (q : Queue) : Queue := { q with txList := [], rxList := [], hbSeq := hbEnd s q, hbSafe := 1, hbJseq := 0 }
  let own := s.links.ports
  let s0 := coresTake s x.cores
  let s1 := settingsShared { s0 with
    slices := slicesMirror s x.slices
    tortin := { s0.tortin with saveCnt := x.saves }
    keys := { s0.keys with objs := x.objs, gens := x.gens, osks := x.osks, owners := x.owners, pend := x.pend, pressKeys := [], mangleKeys := [] }
    links := { x.links with ports := own, macBase := s.links.macBase, queues := tblMap heart x.links.queues, cards := tblMap (cardMirror s) x.links.cards, waits := [] }
    needle := { s0.needle with progs := x.progs }
    time := { s0.time with groupSrc := x.source }
    seam := { s0.seam with
      applied := x.seq, term := x.term, digest := x.digest, nextSeq := x.seq + 1, waiting := [], ackOwed := false, part := [], snapGot := 0
      checkD := (0, [], []), driftAt := none } } x.settings
  let g := s1.boot.ksGen
  let recs := s1.keys.osks.map (fun e => (e.1, storeKey s1 s1.boot.bm0 s1.boot.bm1 e.1 g, JKind.osk g e.2)) ++
    (s1.keys.objs.filter (fun o => bitN o.2.attrs kPersist)).map (fun o =>
      (o.2.owner, oskOf s1 o.2.owner, JKind.object (keyHandle o.1 o.2) o.2))
  let s2 := { s1 with keys := { s1.keys with jrn0 := [], jrn1 := [] } }
  let owners := dedup (s2.links.cards.map (fun e => e.2.owner))
  let cards (o : Nat) : JKind := .counter ((s2.links.cards.filter (fun e => e.2.owner == o)).map (fun e =>
    (e.1, e.2.offered, e.2.conf, e.2.left)))
  let all := recs ++ owners.map (fun o => (o, linkStoreKey s2 o, cards o)) ++
    [(0xFFFF, seamStoreKey s2, JKind.group s2.seam.group s2.seam.key)]
  jrnTry s2 (fun s a b => jrnMany s a b 0xFFFF (seamStoreKey s2) all (all.length + 1))

/-- A follower is in sync: it reports so to the primary (R313, R329). -/
def seamInSync (s : State) : State :=
  let s1 := seamEvent { s with seam := { s.seam with inSync := true, role := .follower, isolated := false } } 4 s.seam.index
  match seamPrimary s1 with
  | some m => seamTo s1 m (.inSync s1.seam.applied)
  | none => s1

/-- A follower loads the primary's Stamp, epoch and calendar time base in one Airing cycle; the old and the new epoch and
Stamp are recorded (R30, assumption 38). -/
def epochLoad (s : State) (x : SeamSnap) : State :=
  let old := regGet s aTimeEpoch
  let s1 := scorchLog s logEpoch 0 2 0 0 old.toNat
  let s2 := regPut64 (regPut { s1 with time := { s1.time with acc := (x.stamp ++ 0#32) } } aTimeEpoch x.epoch) aTimeCtBaseLo
    aTimeCtBaseHi x.ctBase
  loadNote (sqcSet { s2 with keys := { s2.keys with unsetTold := false } } aTimeStat 9) old.toNat x.epoch.toNat (nowStamp s) x.stamp

/-- A member stops serving its group after FAREWELL: its peers treat it as lost, and it serves no host until it has
resynchronised (R321, R515). -/
def seamBye (s : State) (cause : FarewellCause) : State :=
  let s1 := seamFarewell s cause
  if !(s.seam.role == .primary || s.seam.role == .follower) then s1
  else
    let s2 := seamDiscard { s1 with seam := { s1.seam with
      role := .fenced, isolated := false, inSync := false, switch := none, waiting := [], unsent := [], probeAt := none, driftAt := none } }
    seamEvent (regPut (regAdd s2 aSeamFenceCnt 1) aSeamCause 8) 3 s.seam.index

/-! ### Queues under a lock and a Rinse (R501, R504) -/

/-- A lock holds every queue whose key lacks `CONTINUITY`. -/
def lockQueues (s : State) : State :=
  { s with links := { s.links with queues := tblMap (fun q => if q.cont then q else { q with held := true }) s.links.queues } }

/-- The lock ends: no queue is held. -/
def unlockQueues (s : State) : State :=
  { s with links := { s.links with queues := tblMap (fun q => { q with held := false }) s.links.queues } }

/-- Every queue is destroyed with its lists and chains. -/
def queuesDestroy (s : State) : State :=
  let s1 := (s.links.queues.map (·.1)).foldl (fun s q => hmpReleaseAll s (tagQueue q)) s
  { s1 with links := { s1.links with queues := [], waits := [] } }

end Sys2Proof.Machine
end

