-- ==== Sys2Proof/Machine/SeamCmds.lean ====
section
/-! DEFINITION. The Seam commands: their catalogue entries and meanings; forming, promotion and the loss of members (spec 11,
R307, R308, R320 to R324, R330, R332). -/

namespace Sys2Proof.Machine

/-! ### Division of work (Table 11-6) -/

/-- Commands whose whole effect travels in STATE entries: those that bind a slice or change, save or restore it, and those of programs (R338, R391). -/
def isCarried (op : Nat) : Bool :=
  [0x0201, 0x0203, 0x0204, 0x0205, 0x0207, 0x0208, 0x0E01, 0x0E02, 0x0E03, 0x0E04].contains op

/-- A command that the serving member alone executes: it changes nothing but its output and the use of a counted key, it acts on
that member only (R440, R537), or what it changes travels in STATE entries. RSA-PSS with a salt of length 0, which draws nothing, is one (DESIGN
CHOICE: neither list of R206 names it, assumption 29). -/
def isStateless (c : Cmd) : Bool :=
  let op := cOp c
  let p := pkPar c
  if decide (0x0501 ≤ op ∧ op ≤ 0x0504) then !bitN (par c 55 1) 4
  else if op = 0x0601 then (pkDet p || p.cls != 1) && (p.cls != 3 || p.salt == 0) && (pkDet p || p.pq == 0)
  else (noChange c.body && (cMbx c || op != 0x0701)) || isCarried op ||
    [0x0105, 0x0209, 0x0406, 0x0408, 0x0505, 0x0602, 0x0606, 0x0607, 0x0802, 0x080B, 0x080C, 0x0A02, 0x0A03, 0x0A05, 0x0E05].contains op

/-- A command that consumes randomness: the primary alone executes it. -/
def isRandom (c : Cmd) : Bool :=
  let op := cOp c
  !isStateless c && ([0x0301, 0x0307, 0x0401, 0x0601, 0x0604, 0x0701, 0x0809].contains op ||
    ([0x0501, 0x0506].contains op && bitN (par c 55 1) 4))

/-- Every member executes the command. -/
def isShared (c : Cmd) : Bool := !isStateless c && !isRandom c

/-! ### The catalogue -/

/-- A member record of `SEAM.FORM` (Table 11-9): serial, and the two formation keys. -/
def formSerial (d : List Byte) (m : Nat) : BitVec 64 := BitVec.ofNat 64 (leAt d (8 + 1608 * m) 8)
def formKeyX (d : List Byte) (m : Nat) : List Byte := bytesAt d (16 + 1608 * m) 32
def formKeyK (d : List Byte) (m : Nat) : List Byte := bytesAt d (48 + 1608 * m) 1568

/-- The catalogue's entries of the 0x09xx commands (Table 11-9). -/
def specSeam (s : State) (c : Cmd) : Option CmdSpec :=
  let own0 := cOwner s c == 0
  let m := par c 52 1
  let quorum := some (0, qCustodian)
  match cOp c with
  | 0x0901 => some {
      zero := noKeys c && parZero c [(52, 12)], formIn := zeroAt (heldInput c) 2 6, inMin := 4832, inMax := 4832, preread := 8, issuer := own0, quorum := quorum
      early := if s.seam.role = .alone then stOk else 0x0904 }
  | 0x0902 => some {
      zero := noKeys c && parZero c [(53, 11)], form := decide (m < 3 ∨ m = 0xFF), issuer := own0, quorum := quorum
      early := if s.seam.role = .alone ∨ (m ≠ 0xFF ∧ s.seam.size ≤ m) then 0x0904 else stOk }
  | 0x0903 => some { zero := noKeys c && parZero c [(52, 12)], outMax := 1856 }
  | 0x0904 => some {
      zero := noKeys c && parZero c [(53, 11)], form := decide (m < 3), issuer := own0
      early := if isPrimary s && (releaseSet s).contains m then stOk else 0x0904 }
  | 0x0905 => some {
      zero := noKeys c && parZero c [(53, 11)], form := decide (m < 3), issuer := own0
      early := if isPrimary s && (seamOthers s).contains m && !(seamPeer s m).inSync then stOk else 0x0904 }
  | 0x0906 => some {
      zero := noKeys c && parZero c [(54, 2), (60, 4)]
      form := decide (par c 56 4 = 0 ∨ (10 ≤ par c 56 4 ∧ par c 56 4 ≤ 3600)), issuer := own0, quorum := quorum }
  | _ => none

/-! ### Forming (R307, R308) -/

/-- The own record of a `SEAM.FORM` input matches the device, and its shape is that of Table 11-9. -/
def formInputOk (s : State) (d : List Byte) : Bool :=
  let n := byteAt d 0
  let i := byteAt d 1
  decide ((n = 2 ∨ n = 3) ∧ i < n) && formSerial d i == s.dev.serial && formKeyX d i == s.seam.formX &&
    formKeyK d i == s.seam.formK && (n == 3 || bytesAt d (8 + 3216) 1608 == zeros 1608)

/-- A `SEAM.FORM`, or a rejoin, ends with a status: the device stands alone with no group key, and its formation key pair is
unchanged. -/
def formEnd (s : State) (status failed : Nat) : State :=
  let tag := s.seam.forming
  let alone := seamAlone s
  let s1 := { alone with seam := { alone.seam with failed := failed } }
  match tag with
  | some t => endAfter s1 t status
  | none => s1

/-- `SEAM_FORM`: the partners' keys are validated (R191), the partners noted, and HELLO goes out on every link that has reached its peer. -/
def execSeamForm (tag : Nat) (io : HostIO) (s : State) : Host.Outcome State Fault Refusal :=
  runIn s tag 0x0901 io (fun _ d s =>
    if s.seam.forming.isSome then s
    else if !formInputOk s d then endAfter s tag 0x0906
    else if (List.range (byteAt d 0)).any (fun m => m != byteAt d 1 && !publicValid 0xB1 0 (formKeyK d m)) then endAfter s tag stBadPoint
    else
      let n := byteAt d 0
      let i := byteAt d 1
      let peers := (List.range 3).map (fun m =>
        if m < n ∧ m ≠ i then ({ serial := formSerial d m, formX := formKeyX d m, formK := formKeyK d m } : SeamPeer) else {})
      let s1 := { s with seam := { s.seam with
        role := .forming, forming := some tag, formAt := s.time.clk, size := n, index := i, peers := peers, failed := 0 } }
      ((List.range 4).filter (fun l => (seamLink s1 l).mode == .hello)).foldl helloOn s1)

/-- A formation that fails a check ends on every member: those that this one reaches are told the status (R308). -/
def formFail (s : State) (status failed : Nat) : State :=
  formEnd ((seamOthers s).foldl (fun s m => seamTo s m (.verdict status failed)) s) status failed

/-- HELLO of a partner has come on a link of its. -/
def partnerFound (s : State) (m : Nat) : Bool :=
  s.seam.links.any (fun x => (x.mode == .hello || x.mode == .up) && x.peer == m)

/-- `SEAM_FORM_TIMEOUT`: 60 s after its start a device that has not found every partner ends with `SEAM_NO_PARTNER`; one that has, and has no session
with one of them, has no working pair secret with it (R307, assumption 37). -/
def execSeamFormTimeout (s : State) : Host.Outcome State Fault Refusal :=
  .next (if s.seam.forming.isSome ∧ s.seam.role = .forming ∧ s.seam.formAt + 60 * cycS ≤ s.time.clk then
      (if !(seamOthers s).all (partnerFound s) then formEnd s 0x0901 s.seam.failed
       else if !(seamOthers s).all (fun m => (seamLinkTo s m).isSome) then formEnd s 0x0906 128
       else s)
    else s)

/-! ### Members that leave, and promotion (R320 to R324) -/

/-- What a promoted member does with a command of the former primary (R324 step 3). -/
def promoteCmd (s : State) (tag : Nat) (c : Cmd) : State :=
  if !c.mirror then s
  else if cMbx c ∨ c.stage = .waiting ∨ c.stage = .held ∨ c.stage = .preread then
    cmdRelease (cmdPut s tag { c with freeTok := true }) tag
  else if c.stage = .started then
    if c.copy.isNone && decide (cInLen c ≠ 0) && !cInline c && decide (c.work.step = 0) then
      cmdRelease (cmdPut s tag { c with freeTok := true }) tag
    else if cOp c = 0x0806 ∧ c.work.step = 1 then
      let kept (q : Nat) : Bool := (queueGet s q).any (fun x => x.txList.any (fun f => f.cmd == some tag))
      cmdPut s tag { c with mirror := false, work := { c.work with
        nums := c.work.nums.map (fun q => if q < 2 ^ 16 ∧ kept q = false then q + 2 * 2 ^ 16 else q) } }
    else if cOp c = 0x0904 then
      let (v, s1) := freeWord (cmdPut s tag { c with mirror := false })
      endOk s1 tag 0 (BitVec.ofNat 64 (v.toNat % 101))
    else if cOp c = 0x0902 then endOk (cmdPut s tag { c with mirror := false }) tag
    else cmdPut s tag { c with mirror := false }
  else if isStateless c && decide (c.comp.len ≠ 0) then
    cmdPut s tag { c with mirror := false, stage := .started, uses := [], copy := none, heads := [], work := {}, due := true }
  else cmdPut s tag { c with mirror := false }

/-- A key that a member needs for work that it takes over enters its engine's cache: the binding is whole in the row that takes the work over
(DESIGN CHOICE, assumption 26). -/
def bindOwn (s : State) (b : Nat × Nat) : State := ((keyOf s b.2).bind (keyBind s b.1 b.2)).getD s

/-- A service program that ran starts again from its entry point, with the same keys and arguments (R391). -/
def promoteCore (s : State) (n : Nat) (k : Core) : State :=
  if k.mode ≠ .running then s
  else match (progGet s k.program).bind (progCopy s) with
    | some b =>
      let s1 := k.keys.foldl (fun s h => bindOwn s (progEngine (typeOf s h), h)) s
      coreBegin s1 n k.owner k.slice k.program k.keys k.args b
    | none => coreClear s n 2

/-- Unused leases are forfeited: counters continue at the end of the last mirrored lease (R317). -/
def forfeit (s : State) : State :=
  { s with
    links := { s.links with queues := tblMap (fun (q : Queue) => { q with txCtr := max q.txCtr q.leaseEnd }) s.links.queues }
    keys := { s.keys with objs := tblMap (fun (o : KeyObj) => { o with lease := 0 }) s.keys.objs } }

/-- Every page of every dirty-page log counts as written, and the next harvest says so (R355). -/
def logsFull (s : State) : State :=
  { s with slices := tblMap (fun (x : Slice) => { x with
      log := x.log.map (fun l => { l with full := true, allDirty := true, pages := [] }) }) s.slices }

/-- New leases of the transmit counters are taken (R324 step 4). -/
def takeLeases (s : State) : State :=
  (s.links.queues.map (·.1)).foldl (fun s q => match queueGet s q with
    | none => s
    | some x =>
      let (y, s1) := leaseCtr s q x
      queuePut s1 q y) s

/-- The member becomes primary (R324). The followers that it reaches count for its releases from what they have applied. -/
def promote (s0 : State) : State :=
  let s := logsFull s0
  let s1 := forfeit { s with seam := { s.seam with
    role := .primary, isolated := false, waiting := [], term := s.seam.term + 1, nextSeq := s.seam.applied + 1, buffer := []
    ackOwed := false, probeAt := none, inSync := true, checkAt := s.time.clk, unsent := [], part := [], driftAt := none } }
  let peer (s : State) (m : Nat) : State :=
    let x := seamPeer s m
    seamPeerPut s m { x with
      inSync := !x.lost && (x.role == 1 || x.role == 2), role := if x.role = 1 then 2 else x.role
      acked := if x.role = 1 then s.seam.applied else min x.applied s.seam.applied }
  let s2 := (seamOthers s1).foldl peer s1
  let s3 := takeLeases (s2.tortin.tracker.foldl (fun s e => promoteCmd s e.1 e.2) s2)
  let s4 := if s.seam.size = 3 then jot s3 0xFFFF false (.role 2 s.seam.index) else s3
  let s5 := s4.needle.cores.foldl (fun s e => promoteCore s e.1 e.2) s4
  regSetField (seamEvent s5 2 s.seam.index) aTimeCtrl 2 0 s.time.groupSrc

/-- `AIR` queues, the witnesses of a duplex (R323). -/
def airQueues (s : State) : List (Nat × Queue) := s.links.queues.filter (fun e => e.2.air && e.2.mode == .active)

/-- The number of cards with an `AIR` queue. -/
def witnesses (s : State) : Nat := (dedup ((airQueues s).map (fun e => e.2.card.toNat))).length

/-- The effective witness quorum. -/
def witnessQuorum (s : State) : Nat := max s.seam.quorum (witnesses s / 2 + 1)

/-- A probe on every `AIR` queue: a device HEARTBEAT whose bytes 8–15 are zero. -/
def probeSend (s : State) : State :=
  let one (s : State) (e : Nat × Queue) : State :=
    match queueGet s e.1 with
    | none => s
    | some x => hbSend s e.1 x 0
  (airQueues s).foldl one { s with seam := { s.seam with probeAt := some s.time.clk, probed := s.time.clk } }

/-- The followers of a triplex that have lost the primary, and reach each other, promote the lower member index; what the other reaches is in its
heartbeats (R322). `sure`: the primary has said FAREWELL, to all. -/
def electStep (s : State) (sure : Bool) : State :=
  match seamPrimary s with
  | none => s
  | some p =>
    let meets (k : Nat) : Bool := !(seamPeer s k).lost && decide (s.seam.index < k) && (sure || !bitN (seamPeer s k).reach p)
    if s.seam.role = .follower ∧ s.seam.inSync ∧ s.seam.size = 3 ∧ (seamPeer s p).lost ∧ (seamOthers s).any meets then promote s else s

/-- A member is lost: it leaves the release set, and this member acts by its role (R320, R322, R323); `bye`: it sent FAREWELL. A primary of a duplex
releases nothing while its witnesses are asked. -/
def memberLost (s : State) (m : Nat) (bye : Bool) : State :=
  let x := seamPeer s m
  if x.lost then s
  else
    let s1 := seamEvent (seamPeerPut s m { x with
      lost := true, inSync := false, checked := false, vals := none, joining := false, reach := 0, doubt := none, farewell := bye }) 1 m
    let alone := (seamOthers s1).all (fun k => (seamPeer s1 k).lost)
    match s.seam.role with
    | .primary =>
      if !alone then s1
      else if s.seam.size = 3 then seamFence s1 3
      else if bye then s1
      else probeSend s1
    | .follower =>
      let s2 := { s1 with seam := { s1.seam with isolated := alone } }
      if s.seam.size = 3 then
        (if alone then seamFence s2 3
         else if s.seam.checkD.2.1 ≠ s.seam.checkD.2.2 ∧ x.role ≠ 1 then seamFence s2 1
         else electStep s2 bye)
      else if !s.seam.inSync then s2
      else if bye then promote s2
      else probeSend s2
    | _ => s1

/-- Entries are sent again on a link, in packets of their own. -/
def entriesAgain (s : State) (l : Nat) (es : List JEntry) : State :=
  es.foldl (fun s e => seamSend (meterEntry s e.body) l (.journal [e])) s

/-- A link is lost: DOWN and its event; entries go on over the remaining links; with the last link to a peer the peer is
lost (R320). -/
def linkLost (s : State) (l : Nat) (mode : SeamLinkMode) : State :=
  let x := seamLink s l
  let s1 := seamLinkPut s l { linkHello x x.peer with mode := mode }
  if x.mode ≠ .up then s1
  else
    let s2 := seamEvent s1 5 x.peer
    match seamLinkTo s2 x.peer with
    | some k =>
      if isPrimary s2 then entriesAgain s2 k (s2.seam.buffer.filter (fun e => decide ((seamPeer s2 x.peer).acked < e.seq))) else s2
    | none => memberLost s2 x.peer false

/-! ### Commands -/

/-- `SEAM_LEAVE`. A primary that leaves first hands its role to a follower in service, if there is one; the new store keys of a member that leaves
wait for Bobbin (R214). A member that the
primary removes is told by a ROLE entry; a group of one ends. -/
def execSeamLeave (tag : Nat) (s : State) : Host.Outcome State Fault Refusal :=
  runCmd s tag 0x0902 (fun c s =>
    let m := par c 52 1
    if c.mirror && c.work.step == 0 then s
    else if m = 0xFF ∨ m = s.seam.index then
      if isPrimary s && !(releaseSet s).isEmpty then
        (if s.seam.switch.isSome then s else handOver (setWork s tag { step := 1 }) ((releaseSet s).headD 0))
      else if !bobbinServes s then s
      else endOk (seamLeaveSelf s) tag
    else
      let s1 := jot s 0xFFFF false (.role 3 m)
      let s2 := (List.range 4).foldl (fun s l => if (seamLink s l).peer = m then
        seamLinkPut s l (linkHello (seamLink s l)) else s) s1
      let s3 := seamPeerPut s2 m {}
      let rest := (seamOthers s3).filter (fun k => (seamPeer s3 k).serial != 0)
      endOk (if rest.isEmpty then formationDraw (seamAlone s3) else s3) tag)

/-- Members in sync, one bit each. -/
def seamSyncMask (s : State) : Nat :=
  (List.range 3).foldl (fun n m =>
    if (m = s.seam.index ∧ inGroup s ∧ s.seam.inSync) ∨ (seamPeer s m).inSync then n + 2 ^ m else n) 0

/-- `SEAM_STATUS` (Table 11-10). -/
def execSeamStatus (tag : Nat) (io : HostIO) (s : State) : Host.Outcome State Fault Refusal :=
  runCmd s tag 0x0903 (fun _ s =>
    let g := inGroup s
    let mask := (seamUp s).foldl (fun n l => n + 2 ^ l) 0
    let forms := if g then zeros 1600 else bytesAt s.seam.formX 0 32 ++ bytesAt s.seam.formK 0 1568
    endOut s tag io (leBytes 1 (if s.seam.isolated then 5 else s.seam.role.code) ++ leBytes 1 s.seam.index ++ leBytes 1 s.seam.size ++
      leBytes 1 (seamSyncMask s) ++ leBytes 4 s.seam.term ++ leBytes 8 s.seam.group.toNat ++ leBytes 8 s.dev.serial.toNat ++
      leBytes 8 s.seam.applied ++ leBytes 8 (seamAcked s) ++ leBytes 2 s.seam.version ++ leBytes 1 mask ++
      leBytes 1 s.seam.failed ++ leBytes 4 (regGet s aSeamOffset).toNat ++ leBytes 2 (witnesses s) ++ leBytes 2 s.seam.heardYes ++
      leBytes 2 s.seam.heardNo ++ leBytes 2 (witnessQuorum s) ++ leBytes 4 ((seamBudgets s).1 * 1000) ++
      leBytes 4 ((seamBudgets s).2 * 1000) ++ leBytes 4 s.seam.solo ++ leBytes 1 (regField s aSeamCause 7 0) ++ zeros 59 ++
      settingsDigestOf s ++ ownerSetDigest s ++ forms ++ zeros 32))

/-- `SEAM_SWITCHOVER`: the handover begins; the command ends on the new primary. -/
def execSeamSwitchover (tag : Nat) (s : State) : Host.Outcome State Fault Refusal :=
  runCmd s tag 0x0904 (fun c s => if c.mirror ∨ s.seam.switch.isSome then s else handOver s (par c 52 1))

/-- `SEAM_RESYNC`: the snapshot goes to the named member. -/
def execSeamResync (tag : Nat) (s : State) : Host.Outcome State Fault Refusal :=
  runCmd s tag 0x0905 (fun c s =>
    endOk (if isPrimary s then snapSend s (par c 52 1) else s) tag)

/-- `SEAM_SET_WITNESS`. -/
def execSeamSetWitness (tag : Nat) (s : State) : Host.Outcome State Fault Refusal :=
  runCmd s tag 0x0906 (fun c s =>
    endOk { s with seam := { s.seam with quorum := par c 52 2, solo := par c 56 4 } } tag)

end Sys2Proof.Machine
end

