-- ==== Sys2Proof/Machine/SeamRows.lean ====
section
/-! DEFINITION. What happens on the Seam: links, sessions, the formation exchange, heartbeats, the journal on a follower,
acknowledgements, resynchronisation, witnesses and rejoining (spec 11, R303 to R331; spec 02, R31). -/

namespace Sys2Proof.Machine

/-! ### Packets -/

/-- A protected packet passes: its link is up, its key is the session's, and its sequence is new (R305, R306). -/
def seamPass (s : State) (l : Nat) (p : SeamPacket) : Bool :=
  let x := seamLink s l
  x.mode == .up && !x.key.isEmpty && p.key == x.key && decide (x.rxSeq < p.seq)

/-- A packet of a kind is taken from a link; one whose tag fails is dropped and counted, and a sequence that has passed is only dropped (R306). -/
def seamTake (s : State) (l : Nat) (p : SeamPacket) (f : Nat → State → State) : State :=
  let x := seamLink s l
  if seamPass s l p then f x.peer (seamLinkPut s l { x with rxSeq := p.seq })
  else if x.mode = .up ∧ p.key ≠ x.key then regAdd s aSeamAuthFail 1 else s

/-! ### Links and sessions -/

/-- `SEAM_LINK_TRAINED`: the link reaches HELLO with the fixed latencies of its end, transmit in the upper and receive in the lower 16 bits of
`latency`; it draws its session nonce and sends HELLO (R304, R306). While Bobbin does not serve it stays ALIGNED, and the row completes it later
(R214). A link that has lost its session trains anew. -/
def execSeamLinkTrained (link latency : Nat) (s : State) : Host.Outcome State Fault Refusal :=
  let old := seamLink s link
  let x : SeamLink := { mode := .aligned, tx := latency / 2 ^ 16, rx := latency % 2 ^ 16 }
  .next (if !([SeamLinkMode.down, .training, .aligned, .fault].contains old.mode || (old.mode == .hello && !old.fresh)) || s.pwr.vault then s
    else if !bobbinFor s 4 then seamLinkPut s link x
    else helloOn (seamLinkPut s link { x with mode := .hello }) link)

/-- The other member's HELLO starts the exchange of formation secrets: this member encapsulates to its key, once (R307
step 2), once Bobbin serves and a Mangle slot is free; until then a later HELLO finds it still to be done (R179, R214). The blinding values of its
agreement are drawn here; the operations themselves are whole in their rows (R187, assumption 26). -/
def formStart (s : State) (l m : Nat) : State :=
  let x := seamPeer s m
  if s.seam.role ≠ .forming ∨ !s.seam.key.isEmpty ∨ !x.ctMine.isEmpty ∨ !bobbinFor s 3 ∨ !mangleRoom s 1 then s
  else
    let (r, s1) := draw (drawBlinding s) 32
    seamSend (seamPeerPut s1 m { x with ctMine := Config.encapsCt 0x31 x.formK r, shared := Config.encapsKey 0x31 x.formK r }) l
      (.formCt (Config.encapsCt 0x31 x.formK r))

/-! ### The formation exchange (R307) -/

/-- The pair secret of this member and another. -/
def pairSecret (s : State) (m : Nat) : List Byte :=
  let x := seamPeer s m
  let ssx := bytesAt (Config.agree 0x13 s.seam.formXs x.formX) 0 32
  let mine := x.shared
  let theirs := Config.decaps 0x31 (Config.expandSeed 0x31 s.seam.formKs) x.ctTheirs
  let low := decide (s.seam.index < m)
  let ser (k : Nat) : List Byte := beBytes 8 (if k = s.seam.index then s.dev.serial else (seamPeer s k).serial).toNat
  let (a, b) := if low then (s.seam.index, m) else (m, s.seam.index)
  Config.kmac256 (ssx ++ (if low then mine ++ theirs else theirs ++ mine))
    (ser a ++ ser b ++ (if low then x.ctMine ++ x.ctTheirs else x.ctTheirs ++ x.ctMine)) 32 (ascii "ILASKUST-SEAM-FORM")

/-- The agreement with a member gives all zero, which is refused (R191). -/
def pairZero (s : State) (m : Nat) : Bool :=
  agreeZero 0x13 (bytesAt (Config.agree 0x13 s.seam.formXs (seamPeer s m).formX) 0 32)

/-- Every pair of this member has both ciphertexts. -/
def pairsDone (s : State) : Bool :=
  (seamOthers s).all (fun m => !(seamPeer s m).ctMine.isEmpty && !(seamPeer s m).ctTheirs.isEmpty)

/-- The links that lead to a partner open their sessions. -/
def openAll (s : State) : State :=
  ((List.range 4).filter (fun l => (seamLink s l).mode == .hello && decide ((seamLink s l).peer < 3))).foldl sessionOpen s

/-- Member 0 draws the group key and identifier and sends them to each follower under their pair secret (R307 step 3). -/
def formShare (s : State) : State :=
  if s.seam.index ≠ 0 ∨ !s.seam.key.isEmpty ∨ !pairsDone s ∨ !bobbinFor s 4 then s
  else if (seamOthers s).any (pairZero s) then formEnd s stBadPoint 0
  else
    let (k, s1) := draw s 32
    let (g, s2) := draw s1 8
    let id := BitVec.ofNat 64 (leNat g)
    let s3 := (seamOthers s2).foldl (fun s m =>
      match (List.range 4).find? (fun l => (seamLink s l).peer == m) with
      | some l => seamSend s l (.formKey (pairSecret s2 m) id k)
      | none => s) s2
    openAll { s3 with seam := { s3.seam with key := k, group := id } }

/-- `SEAM_HELLO_RECEIVED`: a link that reaches another device than its cabling names is a peer mismatch and ignored (R303,
R307 step 1); otherwise the peer's latencies and nonce are taken, a new nonce is answered once with HELLO under a nonce of this end that has opened no
session, and the session opens or the formation exchange begins. -/
def execSeamHelloReceived (link : Nat) (p : SeamPacket) (s : State) : Host.Outcome State Fault Refusal :=
  let x := seamLink s link
  .next (match p.load with
    | .hello serial index version tx rx nonce =>
      let y := { x with farTx := tx, farRx := rx, theirs := nonce, farNew := x.farNew || x.theirs != nonce }
      if !(x.mode == .hello || x.mode == .up) then s
      else if s.seam.size = 0 then seamLinkPut s link y
      else
        let m := cablePeer s.seam.size s.seam.index link
        if index ≠ m ∨ serial ≠ (seamPeer s m).serial then seamLinkPut s link { x with peer := 0xFE }
        else
          let new := x.peer != m || x.theirs != nonce
          let s1 := seamPeerPut (seamLinkPut s link { y with peer := m }) m { seamPeer s m with version := version }
          let s2 := if new then helloOn s1 link else s1
          if s2.seam.key.isEmpty then formShare (formStart s2 link m) else sessionOpen s2 link
    | _ => s)

/-- `SEAM_SESSION_RENEW`: a link begins its session again, with a new nonce of each end, before its sequence runs out; HELLO carries this end's, and
the peer answers with its own (R306). It waits for Bobbin (R214, R222). It completes too what waited for Bobbin when a HELLO came. -/
def execSeamSessionRenew (link : Nat) (s : State) : Host.Outcome State Fault Refusal :=
  .next (if (seamLink s link).mode ≠ .up ∧ (seamLink s link).mode ≠ .hello then s else sessionOpen (helloOn s link) link)

/-- `SEAM_FORM_RECEIVED`: a ciphertext of the exchange, or the group key under the pair secret; a key that does not open
under it ends `SEAM.FORM` with `SEAM_FORM_AUTH`. -/
def execSeamFormReceived (link : Nat) (p : SeamPacket) (s : State) : Host.Outcome State Fault Refusal :=
  let m := (seamLink s link).peer
  .next (if s.seam.role ≠ .forming ∨ s.seam.forming.isNone ∨ 3 ≤ m then s
    else match p.load with
    | .formCt ct => formShare (seamPeerPut (formStart s link m) m { seamPeer (formStart s link m) m with ctTheirs := ct })
    | .formKey pair id k =>
      if s.seam.index = 0 ∨ !s.seam.key.isEmpty ∨ m ≠ 0 then s
      else if pairZero s m then formEnd s stBadPoint 0
      else if pair ≠ pairSecret s m then formEnd s 0x0906 128
      else openAll { s with seam := { s.seam with key := k, group := id } }
    | _ => s)

/-! ### Checks, snapshots and being in sync (R308, R329, R330) -/

/-- The group key is recorded in the key journal (Table 4-10); it says too whether a flash chip has taken it. -/
def groupRecord (s : State) : State × Bool := jrnTry s (fun s a b => jrnGroup s a b (.group s.seam.group s.seam.key))

/-- A member becomes the group's primary: its `ALARM` and `VOICE` queues are duplicated from now on (R243), and it sends the snapshot to every member
that it reaches. A formation whose GROUPKEY record no chip takes ends with `JOURNAL_FAULT` (R107). -/
def groupStart (s0 : State) : State :=
  let (s, ok) := if s0.seam.forming.isSome then groupRecord s0 else (s0, true)
  if !ok then formFail s 0x0406 0
  else
    let s1 := pendDomain { s with
      links := { s.links with queues := tblMap (fun (q : Queue) => { q with dup := decide (q.cls ≤ 1) }) s.links.queues }
      seam := { s.seam with
        role := .primary, term := s.seam.term + 1, inSync := true, checkAt := s.time.clk, nextSeq := s.seam.applied + 1, driftAt := none } }
    let s2 := seamEvent s1 0 s.seam.index
    let s3 := (seamOthers s2).foldl (fun s m => snapSend (seamPeerPut s m { seamPeer s m with role := 2 }) m) s2
    match s3.seam.forming with
    | some t => endOk { s3 with seam := { s3.seam with forming := none } } t 0 s3.seam.group
    | none => s3

/-- The values of a member arrive, and it is given this member's. A mismatch between any pair of members ends the formation or the rejoin with the
failed checks, on every member; when every partner has passed, member 0 starts the group it forms. A primary in service resynchronises a member that
passes (R308, R330). -/
def checksTake (s : State) (m : Nat) (c : SeamChecks) : State :=
  let old := seamPeer s m
  let s1 := seamPeerPut s m { old with
    checked := true, vals := some c, version := c.version, committed := c.committed, lost := false }
  let s2 := if old.checked then s1 else seamTo s1 m (.checks (seamChecks s1))
  let first := s.seam.forming.isSome
  let bad := checksBad s2
  let status := if bad = 64 then 0x0902 else stSeamDiverged
  if isPrimary s then (if seamFailed (seamChecks s) c = 0 && !c.locked then snapSend s2 m else s2)
  else if s.seam.role ≠ .forming then s2
  else if bad ≠ 0 then (if first then formFail (seamEvent s2 11 m) status bad else formEnd (seamEvent s2 11 m) status bad)
  else if first && (checksAll s2).any (fun e => e.2.locked) then formFail s2 stLocked 0
  else
    let s3 := { s2 with seam := { s2.seam with version := (checksAll s2).foldl (fun n e => min n e.2.version) 7 } }
    if first && decide (s.seam.index = 0) && (seamOthers s3).all (fun k => (seamPeer s3 k).checked) then groupStart s3 else s3

/-- The last part of a snapshot has come: the member drops the primary's commands that it held, takes it, and is in sync once its flash holds it (R329). -/
def snapTake (s : State) (m : Nat) (x : SeamSnap) : State :=
  let (s1, ok) := snapApply (seamPeerPut ((tagsOf s (·.mirror)).foldl cmdRelease s) m { seamPeer s m with role := 1 }) x
  if !ok then (if s.seam.forming.isSome then formEnd s1 0x0406 0 else s1)
  else
    let s2 := if s.seam.role = .forming then epochLoad s1 x else s1
    let s3 := pendDomain (seamInSync { s2 with seam := { s2.seam with role := .follower, asks := [] } })
    match s3.seam.forming with
    | some t => endOk (seamEvent { s3 with seam := { s3.seam with forming := none } } 0 s3.seam.index) t 0 s3.seam.group
    | none => s3

/-! ### Digests that differ (R325) -/

/-- The other follower of a triplex, if this follower reaches it. -/
def otherFollower (s : State) : Option Nat :=
  if s.seam.size ≠ 3 then none
  else (seamOthers s).find? (fun k => some k != seamPrimary s && !(seamPeer s k).lost && (seamPeer s k).role == 2)

/-- What another follower reports of a checkpoint is held against this one's digest: two followers that agree with each other and not with the primary
promote the lower member index, for the primary fences itself; one that stands alone fences itself; one that agrees with the primary says so. -/
def doubtJudge (s : State) (k : Nat) : State :=
  match (seamPeer s k).doubt with
  | none => s
  | some (q, d) =>
    let (n, own, prim) := s.seam.checkD
    if q ≠ n then s
    else if own = prim then (if d = own then s else seamTo s k (.doubt n own))
    else if d ≠ own then seamFence s 1
    else
      let p := (seamPrimary s).getD s.seam.index
      let s1 := seamPeerPut { s with seam := { s.seam with checkD := (0, [], []) } } p { seamPeer s p with role := 3, inSync := false }
      if s.seam.index < k then promote s1 else s1

/-- A checkpoint of the primary: the member compares the primary's digest with its own. -/
def checkpointTake (s : State) (n : Nat) (d : List Byte) : State :=
  let own := s.seam.digest
  let s1 := { s with seam := { s.seam with checkD := (n, own, d) } }
  let others := otherFollower s1
  if own = d then (match others with
    | some k => doubtJudge s1 k
    | none => s1)
  else
    let s2 := seamEvent s1 7 s.seam.index
    match others with
    | none => seamFence s2 1
    | some k => doubtJudge ((seamOthers s2).foldl (fun s m => seamTo s m (.doubt n own)) s2) k

/-- A member's report of its digest: the primary fences itself where both followers report the same one, which is not its own (R325). -/
def doubtTake (s : State) (m n : Nat) (d : List Byte) : State :=
  let s1 := seamPeerPut s m { seamPeer s m with doubt := some (n, d) }
  if isPrimary s then
    (if s.seam.size = 3 ∧ n = s.seam.checkD.1 ∧ d ≠ s.seam.checkD.2.1 ∧ (seamOthers s1).all (fun k => (seamPeer s1 k).doubt == some (n, d))
     then seamFence (seamEvent s1 7 s.seam.index) 1 else s1)
  else if s.seam.role = .follower then doubtJudge s1 m
  else s1

/-- `SEAM_RESYNC_RECEIVED`: checks, the verdict of a formation, a request, a part of a snapshot, the report that a member is in sync, or a digest that
differs. -/
def execSeamResyncReceived (link : Nat) (p : SeamPacket) (s : State) : Host.Outcome State Fault Refusal :=
  .next (seamTake s link p (fun m s => match p.load with
    | .checks c => checksTake s m c
    | .verdict status failed => if s.seam.role = .forming ∧ s.seam.forming.isSome then formEnd s status failed else s
    | .resyncAsk => if isPrimary s then snapSend s m else s
    | .snapshot k n x =>
      if s.seam.role = .alone ∨ isPrimary s ∨ s.scorch.locked ∨ (k ≠ 0 ∧ k ≠ s.seam.snapGot) then s
      else if k + 1 < n then { s with seam := { s.seam with snapGot := k + 1 } }
      else snapTake s m x
    | .inSync seq => if isPrimary s then
        seamPeerPut s m { seamPeer s m with inSync := true, joining := false, lost := false, acked := min seq s.seam.applied, role := 2 } else s
    | .doubt n d => doubtTake s m n d
    | _ => s))

/-- `RESYNC_REQUEST_RETRY` (R327). -/
def execResyncRequestRetry (s : State) : Host.Outcome State Fault Refusal :=
  .next (if s.seam.role = .fenced ∧ !s.scorch.locked ∧ !s.scorch.pfw ∧ s.thm.mode = .ready then seamAsk s else s)

/-- `REJOIN_WAIT_TIMEOUT`: 5 s after a common start, the member with the highest committed key-journal sequence becomes
primary, among equals the lowest index; a member that has found no partner stays in the forming role (R330). -/
def execRejoinWaitTimeout (s : State) : Host.Outcome State Fault Refusal :=
  let found := (seamOthers s).filter (fun m => (seamPeer s m).checked && !(seamPeer s m).lost)
  let own := s.keys.nextSeq - 1
  .next (if s.seam.role = .forming ∧ s.seam.forming.isNone ∧ !s.seam.key.isEmpty ∧ s.seam.formAt + 5 * cycS ≤ s.time.clk ∧
      !found.isEmpty ∧ found.all (fun m => decide ((seamPeer s m).committed < own ∨
        ((seamPeer s m).committed = own ∧ s.seam.index < m))) then groupStart s
    else s)

/-- `SOLO_START_TIMEOUT`: a duplex member without a partner starts as a primary alone (R330). -/
def execSoloStartTimeout (s : State) : Host.Outcome State Fault Refusal :=
  .next (if s.seam.role = .forming ∧ s.seam.forming.isNone ∧ s.seam.size = 2 ∧ s.seam.solo ≠ 0 ∧
      s.seam.formAt + s.seam.solo * cycS ≤ s.time.clk ∧ (seamOthers s).all (fun m => (seamPeer s m).lost) then groupStart s
    else s)

/-! ### Heartbeats (R31, R320, R326) -/

/-- The members that this one reaches, one bit each. -/
def reachMask (s : State) : Nat := (seamOthers s).foldl (fun n m => if (seamPeer s m).lost then n else n + 2 ^ m) 0

/-- Commands that the primary has completed leave once this member has executed them too. -/
def closedSweep (s : State) : State :=
  (tagsOf s (fun c => c.mirror && c.closed && c.stage == .ended)).foldl cmdRelease s

/-- What a member does at each heartbeat beside it: entries that wait for the budgets leave, a shortage is recorded once while it lasts (R319), and a
handover goes on. -/
def seamKeep (s : State) : State :=
  let s1 := closedSweep (seamServe s.seam.unsent.length s)
  let s2 :=
    if s1.seam.unsent.isEmpty then { s1 with seam := { s1.seam with short := false } }
    else if s1.seam.short then s1
    else seamEvent { s1 with seam := { s1.seam with short := true } } 9 s1.seam.index
  switchStep s2

/-- `SEAM_HEARTBEAT_SEND`: 50 µs after the last one on the link. -/
def execSeamHeartbeatSend (link : Nat) (s : State) : Host.Outcome State Fault Refusal :=
  let x := seamLink s link
  .next (if x.mode ≠ .up ∨ s.pwr.vault ∨ cpHalted s ∨ s.time.clk < x.sentAt + 50 * cycUs then s
    else seamKeep (seamSend (seamLinkPut s link { x with sentAt := s.time.clk, t3 := nowStamp s }) link
      (.heartbeat s.seam.role.code s.seam.term s.seam.applied (reachMask s) x.t2 x.t3)))

/-- The offset that one exchange gives, in nanoseconds, this member's time minus the peer's (R31): the peer's heartbeat left at t1 of the peer's
time and came at t2, this member's own left at t3 and came at t4 of the peer's time; `asym` is the link's asymmetry constant. -/
def exchangeOffset (t1 t2 t3 t4 : Stamp) (asym : Int) : Int :=
  let d (a b : Stamp) : Int := (a - b).toInt
  ((d t2 t1 - d t4 t3) / 2 * 1000000000) / 4294967296 - asym

/-- A follower's measurement: the servo's input, and the clock since which it has been above 1 µs (R31, R326). -/
def driftNote (s : State) (o : Int) : State :=
  let s1 := putOffset (measure s o) aSeamOffset o
  let bad := decide (1000 < o.natAbs)
  let s2 := { s1 with seam := { s1.seam with driftAt := if !bad then none else if s.seam.driftAt.isSome then s.seam.driftAt else some s.time.clk } }
  if 100000000 < o.natAbs then seamFence (seamEvent s2 8 s.seam.index) 2 else s2

/-- A link's asymmetry constant in ns: half of what the inward path's fixed latencies exceed the outward path's by, from both ends' HELLO, and the
part `deskew` that the lanes give (R31, R304). -/
def linkAsym (x : SeamLink) (deskew : Int) : Int :=
  (((x.farTx + x.rx : Nat) : Int) - ((x.tx + x.farRx : Nat) : Int)) / 2 + deskew

/-- `SEAM_HEARTBEAT_RECEIVED`: the peer is alive; its role, term, applied sequence and reach are taken; a follower measures its
offset on the lowest link that is up, from the heartbeat's transmit Stamp and from the Stamp at which the peer says that this member's last heartbeat
came. `arrived` is the Stamp of arrival, `asym` the part of the link's asymmetry constant that lane deskew gives, in ns. -/
def execSeamHeartbeatReceived (link : Nat) (p : SeamPacket) (arrived : Stamp) (asym : Int) (s : State) :
    Host.Outcome State Fault Refusal :=
  .next (seamTake s link p (fun m s => match p.load with
    | .heartbeat role term applied reach theirT2 _ =>
      let x := seamLink s link
      let y := seamPeer s m
      let s1 := seamLinkPut s link { x with heard := s.time.clk, missed := 0, t1 := p.stamp, t2 := arrived }
      let s2 := seamPeerPut s1 m { y with role := role, term := term, applied := applied, reach := reach, inSync := y.inSync && role != 3 }
      let s3 :=
        if s.seam.role = .follower ∧ role = 1 ∧ ((seamUp s).filter (fun l => (seamLink s l).peer == m)).head? = some link ∧ theirT2 ≠ 0 ∧
            x.t3 ≠ 0 then
          driftNote s2 (exchangeOffset p.stamp arrived x.t3 theirT2 (linkAsym x asym))
        else s2
      electStep s3 false
    | _ => s))

/-- `TIME_DIVERGENCE_FENCE` (R326). -/
def execTimeDivergenceFence (s : State) : Host.Outcome State Fault Refusal :=
  .next (match s.seam.driftAt with
    | some t => if s.seam.role = .follower ∧ t + 10 * cycS ≤ s.time.clk then seamFence (seamEvent s 8 s.seam.index) 2 else s
    | none => s)

/-- `SEAM_LINK_LOSS`: the signal has been lost for 20 µs. -/
def execSeamLinkLoss (link : Nat) (s : State) : Host.Outcome State Fault Refusal :=
  .next (if (seamLink s link).mode = .down then s else linkLost s link .down)

/-- `SEAM_HEARTBEAT_MISS`: a heartbeat interval has passed without one; the fourth in a row declares the link lost. -/
def execSeamHeartbeatMiss (link : Nat) (s : State) : Host.Outcome State Fault Refusal :=
  let x := seamLink s link
  .next (if x.mode ≠ .up ∨ s.time.clk < x.heard + (x.missed + 1) * 50 * cycUs then s
    else
      let s1 := regAdd (seamLinkPut s link { x with missed := x.missed + 1 }) aSeamHbMiss 1
      if 4 ≤ x.missed + 1 then linkLost s1 link .hello else s1)

/-- `SEAM_FAREWELL_RECEIVED`: the sender is lost at once, with no witness (R321). -/
def execSeamFarewellReceived (link : Nat) (p : SeamPacket) (s : State) : Host.Outcome State Fault Refusal :=
  .next (seamTake s link p (fun m s => match p.load with
    | .farewell _ =>
      let s1 := (List.range 4).foldl (fun s l => if (seamLink s l).peer = m ∧ (seamLink s l).mode = .up then
        seamLinkPut s l (linkHello (seamLink s l) m) else s) s
      memberLost s1 m true
    | _ => s))

/-! ### The journal on a follower (R312, R315, R325) -/

/-- The place of the command of a token. -/
def placeOf (s : State) (slice : Nat) (t : BitVec 64) : Option Nat :=
  (s.tortin.tracker.find? (fun e => e.2.mirror && !e.2.closed && jslice e.2 == slice && cToken e.2 == t)).map (·.1)

/-- The command of a token changed. -/
def onToken (s : State) (slice : Nat) (t : BitVec 64) (f : Nat → Cmd → State → State) : State :=
  match placeOf s slice t with
  | none => s
  | some tag => match cmdAt s tag with
    | none => s
    | some c => f tag c s

/-- ACCEPT: a follower holds the command. -/
def applyAccept (s : State) (e : JEntry) (origin : Origin) (body inlined : List Byte) : State :=
  match tblFree s.tortin.tracker 0 16384 with
  | none => s
  | some tag =>
    let c : Cmd := {
      origin := origin, body := body, inlined := inlined, order := s.tortin.order, accepted := e.stamp, passed := true, mirror := true }
    let own := !cMbx c
    let s1 := cmdPut s tag { c with own := own }
    let s2 := { s1 with tortin := { s1.tortin with order := s.tortin.order + 1 } }
    if own then dupEnter s2 c else s2

/-- A command has work for Press or Mangle. -/
def engineOp (s : State) (c : Cmd) : Bool := decide (0x0501 ≤ cOp c ∧ cOp c ≤ 0x0508) || !(mangleTimes s c).isEmpty

/-- OUTCOME: the command has ended before its start, or it starts with the primary's decisions; the follower executes it when
every member does: its input and output are staged as the primary stages them (R236), and its work enters an engine once there is a place for it. -/
def applyOutcome (s : State) (tag : Nat) (c : Cmd) (status : Option Nat) (start : Stamp) (slots : List Nat)
    (entry : Option Nat) : State :=
  match status with
  | some st => endBefore s tag st
  | none =>
    let expect := match entry.bind (fun n => (tblFind n s.keys.pend).map (fun e => (n, e))) with
      | some (n, e) => some (n, e.inDigest)
      | none => none
    let s1 := match entry with
      | some n => { s with keys := { s.keys with pend := tblDel n s.keys.pend } }
      | none => s
    let c1 := { c with
      started := start, expect := expect, stage := if isShared c then .started else .waiting, due := isShared c && engineOp s1 c
      placed := match slots with
        | [] => none
        | x :: _ => some (x, slots.length) }
    if isShared c then
      let (i, s2) := stageTake s1 c (cInLen c)
      let (o, s3) := stageTake s2 c (cOutCap c)
      cmdPut s3 tag { c1 with stageIn := i, stageOut := o }
    else cmdPut s1 tag c1

/-- A frame that a follower builds from an entry (R315), for a `LINK.SEND` that waits for acknowledgements where `cmd` names it: it holds a chain
charged to its queue's class, as the primary's does (R236), unless the account has no buffer for it here; those of `BULK` queues are discarded. -/
def mirrorFrame (s : State) (q ctr app : Nat) (stamp : Stamp) (data : List Byte) (cmd : Option Nat := none) : State :=
  match queueGet s q with
  | none => s
  | some x =>
    let x1 := { x with txCtr := max x.txCtr (ctr + 1) }
    let s1 := queuePut s q x1
    if x.dup ∨ x.cls = 2 then
      match hmpFill s1 (tagQueue q) data with
      | some (b, s2) => txData s2 q x1 ctr app stamp (some b) cmd 0 data
      | none => txData s1 q x1 ctr app stamp none cmd 0 data
    else s1

/-- A frame of a transmit list that the primary reports ended goes, with its chain, and its command notes how it ended (R315). -/
def markEnded (s : State) (q ctr code : Nat) : State :=
  match queueGet s q with
  | none => s
  | some x => (x.txList.filter (fun f => f.ctr == ctr)).foldl (fun s f => match f.cmd with
        | some tag => sendNote (txFree s f) tag q code
        | none => txFree s f)
      (queuePut s q { x with txList := x.txList.filter (fun f => f.ctr != ctr) })

/-- SEND: the follower builds the frames with the primary's Stamp and counters; those of duplicated queues it transmits,
those of `CONTROL` queues it keeps, those of `BULK` queues it discards (R315). -/
def applySend (s : State) (tag : Option (Nat × Cmd)) (data : List Byte) (stamp : Stamp) (ctrs : List (Nat × Nat)) : State :=
  match tag with
  | some (t, c) =>
    let wait := par c 58 1 == 1
    let s1 := ctrs.foldl (fun s e => mirrorFrame s e.1 e.2 (par c 56 2) stamp data (if wait then some t else none)) s
    if wait then setWork s1 t { step := 1, nums := ctrs.map (·.1) } else endOk s1 t 0 (extra2 ctrs.length 0)
  | none => ctrs.foldl (fun s e => mirrorFrame s e.1 e.2 0 stamp data) s

/-- A received frame is marked in its queue's window. -/
def markFrame (s : State) (q epoch ctr : Nat) : State :=
  queueMod s q (fun x =>
    let f (k : KeyReg) : KeyReg := if k.epoch = epoch then { k with win := replayMark k.win false (ctr % 2 ^ 62) } else k
    { x with present := x.present.map f, adjacent := x.adjacent.map f })

/-- A follower writes a change of the key store to its own flash before it applies the entry, and so before it acknowledges it (R107, R111, assumption
59); the answer says whether a chip took what there was to write. -/
def entryFlash (s : State) (b : JBody) : State × Bool :=
  let one (owner : Nat) (k : JKind) : State × Bool := jrnTry s (fun s a b => jrnOne s a b owner k)
  let kept (o : KeyObj) : Bool := bitN o.attrs kPersist
  match b with
  | .key slot (some x) => if tblFind slot s.keys.objs = some x || !kept x then (s, true) else one x.owner (.object (keyHandle slot x) x)
  | .key slot none => (match tblFind slot s.keys.objs with
    | some x => if kept x then one x.owner (.destroy (keyHandle slot x) x.revision) else (s, true)
    | none => (s, true))
  | .osk n (some v) => jrnTry s (fun s a b => jrnOsk s a b n v v)
  | .lease 4 id stop => (match tblFind id s.links.cards with
    | some r => jrnTry s (fun s a b => jrnCounter s a b r.owner (counterRec s r.owner id (some { r with offered := stop })))
    | none => (s, true))
  | .lease 2 h left => (match keyOf s h with
    | some o => if kept o then one o.owner (.lease h o.revision left) else (s, true)
    | none => (s, true))
  | _ => (s, true)

/-- An object of the primary (R111). -/
def applyKey (s : State) (slot : Nat) (o : Option KeyObj) : State :=
  match o with
  | some x => if tblFind slot s.keys.objs = some x then s else keyPut s slot x
  | none => keyErase s slot

/-- A store key of the primary (R100, R111). -/
def applyOsk (s : State) (n : Nat) (k : Option (List Byte)) : State :=
  { s with keys := { s.keys with osks := match k with
    | some v => tblPut n v s.keys.osks
    | none => tblDel n s.keys.osks } }

/-- A card epoch of the primary (R111, R282). -/
def applyEpoch (s : State) (id stop : Nat) : State :=
  match tblFind id s.links.cards with
  | none => s
  | some r => { s with links := { s.links with cards := tblPut id { r with offered := stop } s.links.cards } }

/-- A lease of a counted key of the primary (R111, R113). -/
def applyUses (s : State) (h left : Nat) : State :=
  match keyOf s h with
  | none => s
  | some o => { s with keys := { s.keys with objs := tblPut (handleSlot h) { o with remaining := left } s.keys.objs } }

/-- A lease of the primary (Table 11-7). -/
def applyLease (s : State) (kind obj stop : Nat) : State :=
  match kind with
  | 1 => queueMod s obj (fun x => { x with leaseEnd := stop })
  | 3 => queueMod s (obj / 4) (hbEndPut (obj % 4) stop)
  | 4 => applyEpoch s obj stop
  | 2 => applyUses s obj stop
  | _ => s

/-- A command that this member executes for itself, and has not executed yet. -/
def ownWork (c : Cmd) : Bool := c.stage == .started && isShared c && !([0x0806, 0x0807, 0x0902, 0x0904].contains (cOp c))

/-- A queue that the primary drains lets its frames go (R248). -/
def mirrorDrain (s : State) (q : Nat) : State :=
  match queueGet s q with
  | none => s
  | some x => x.txList.foldl (fun s f => markEnded s q f.ctr 2) s

/-- One entry applied, but for its digest. -/
def applyBody (s : State) (e : JEntry) : State :=
  match e.body with
  | .accept _ origin body inlined => applyAccept s e origin body inlined
  | .input t off data => onToken s e.slice t (fun tag c s =>
      cmdPut s tag (if outputOff ≤ off then { c with out := c.out.take (off - outputOff) ++ data }
        else { c with copy := some ((c.copy.getD []).take off ++ data) }))
  | .outcome t status start slots entry => onToken s e.slice t (fun tag c s => applyOutcome s tag c status start slots entry)
  | .result t status len extra out => onToken s e.slice t (fun tag c s =>
      cmdPut (if cOp c = 0x0506 ∧ status = stOk then ctxAdopt s c (extra.toNat % 2 ^ 32) (c.out ++ out) else s) tag { c with
        stage := .ended, out := c.out ++ out, comp := { status := status, len := len, stamp := e.stamp, extra := extra } })
  | .done t status len extra => onToken s e.slice t (fun tag c s =>
      cmdPut s tag { c with stage := .ended, comp := { status := status, len := len, stamp := e.stamp, extra := extra } })
  | .complete ts => ts.foldl (fun s t => onToken s e.slice t (fun tag c s =>
      if ownWork c then cmdPut s tag { c with closed := true } else cmdRelease s tag)) s
  | .key slot o => applyKey s slot o
  | .osk n k => applyOsk s n k
  | .lease kind obj stop => applyLease s kind obj stop
  | .send t stamp ctrs =>
    match (placeOf s e.slice t).bind (fun g => (cmdAt s g).map (fun c => (g, c))) with
    | some (g, c) => applySend s (some (g, c)) (if cInline c then bytesAt c.inlined 0 (cInLen c) else c.copy.getD []) stamp ctrs
    | none => s
  | .stream q ctr app stamp more payload =>
    if more then { s with seam := { s.seam with part := s.seam.part ++ payload } }
    else mirrorFrame { s with seam := { s.seam with part := [] } } q ctr app stamp (s.seam.part ++ payload)
  | .mark delivered ended =>
    let s1 := delivered.foldl (fun s d => markFrame s d.1 d.2.1 d.2.2) s
    ended.foldl (fun s d => markEnded s d.1 d.2.1 d.2.2) s1
  | .slice n x => sliceTake s n x
  | .program n x => progPut s n x
  | .core n x => coreTake s n x
  | .queue q x => (match x with
    | some y =>
      let own := if y.mode = .draining then (queueGet s q).map (fun x => { x with txList := [] }) else queueGet s q
      queuePut (if y.mode = .draining then mirrorDrain s q else s) q { y with
        hbSeq := (own.map (·.hbSeq)).getD y.hbSeq, hbEnds := (own.map (·.hbEnds)).getD y.hbEnds
        txList := (own.map (·.txList)).getD [], rxList := [] }
    | none => { s with links := { s.links with queues := tblDel q s.links.queues } })
  | .card id x => (match x with
      | some y => cardTake s id y
      | none => { s with links := { s.links with cards := tblDel id s.links.cards } })
  | .owner n x => { s with keys := { s.keys with owners := match x with
      | some y => tblPut n y s.keys.owners
      | none => tblDel n s.keys.owners } }
  | .pend n x => { s with keys := { s.keys with pend := match x with
      | some y => tblPut n y s.keys.pend
      | none => tblDel n s.keys.pend } }
  | .source src port domain => { s with time := { s.time with groupSrc := src, ptpPort := port, ptpDomain := domain } }
  | .checkpoint _ _ => s
  | .role kind m =>
    if kind = 1 then
      (if m = s.seam.index then promote s
       else (seamOthers s).foldl (fun s k => seamPeerPut s k { seamPeer s k with role := if k = m then 1 else 2 }) s)
    else if kind = 2 then (seamOthers s).foldl (fun s k => seamPeerPut s k { seamPeer s k with role := if k = m then 1 else 2 }) s
    else if m = s.seam.index then seamFence s 8
    else seamPeerPut s m {}

/-- Entries that a member under a Scorch lock still applies: SEND and STREAM of queues with `CONTINUITY` (R328). -/
def lockApplies (s : State) (e : JEntry) : Bool :=
  let cont (q : Nat) : Bool := (queueGet s q).any (·.cont)
  match e.body with
  | .send _ _ ctrs => ctrs.all (fun x => cont x.1)
  | .stream q .. => cont q
  | _ => false

/-- The next entry in sequence is applied. -/
def applyEntry (s0 : State) (e : JEntry) : State :=
  let s := match e.body with
    | .checkpoint n d => checkpointTake s0 n d
    | _ => s0
  if s.seam.role ≠ .follower then s
  else
    let s1 := applyBody { s with seam := { s.seam with applied := e.seq, term := e.term, digest := entryDigest s s.seam.digest e } } e
    if s1.seam.role ≠ .follower then s1
    else { s1 with seam := { s1.seam with
      digest := entryDigest s1 s.seam.digest e, ackOwed := true, ackAt := if s.seam.ackOwed then s.seam.ackAt else s.time.clk } }

/-- A fenced member under a Scorch lock applies the SEND and STREAM entries that R328 names, and no other. The command and the input of a `LINK.SEND`,
whose payload the SEND entry needs, it holds until the primary has completed it, with no other effect (DEDUCED, assumption 38). -/
def applyLocked (s : State) (e : JEntry) : State :=
  if !(s.seam.role == .fenced && s.scorch.locked) then s
  else match e.body with
    | .accept _ origin body inlined =>
      let c : Cmd := { origin := origin, body := body, inlined := inlined, order := s.tortin.order, accepted := e.stamp, passed := true
                       mirror := true, own := false }
      (match tblFree s.tortin.tracker 0 16384 with
      | some tag => if cOp c = 0x0806 then cmdPut s tag c else s
      | none => s)
    | .input t .. => onToken s e.slice t (fun _ _ s => applyBody s e)
    | .outcome t (some _) .. => onToken s e.slice t (fun tag _ s => cmdRelease s tag)
    | .complete ts => ts.foldl (fun s t => onToken s e.slice t (fun tag _ s => cmdRelease s tag)) s
    | _ => if lockApplies s e then applyBody s e else s

/-- Entries of lower terms and entries already applied are ignored; those behind a gap are held, one for each sequence, of the highest term. -/
def queueEntries (s : State) (es : List JEntry) : State :=
  let new := es.filter (fun e => decide (s.seam.applied < e.seq ∧ s.seam.term ≤ e.term) &&
    !s.seam.waiting.any (fun w => w.seq == e.seq && decide (e.term ≤ w.term)))
  let old := s.seam.waiting.filter (fun w => !new.any (fun e => e.seq == w.seq))
  { s with seam := { s.seam with waiting := sortBy JEntry.seq (old ++ new) } }

/-- The held entries are applied as far as they follow without a gap; one of a lower term than the last applied is dropped. Where no flash chip takes
what an entry changes, it and those after it wait (R111). -/
def applyHeld : Nat → State → State
  | 0, s => s
  | n + 1, s =>
    match s.seam.waiting with
    | [] => s
    | e :: rest =>
      let less := { s with seam := { s.seam with waiting := rest } }
      if e.term < s.seam.term ∨ e.seq ≤ s.seam.applied then applyHeld n less
      else if e.seq = s.seam.applied + 1 then
        match entryFlash s e.body with
        | (t, true) => applyHeld n (applyEntry { t with seam := { t.seam with waiting := rest } } e)
        | (t, false) => t
      else s

/-- An acknowledgement goes to the primary. -/
def sendAck (s : State) : State :=
  match seamPrimary s with
  | some m => seamTo { s with seam := { s.seam with ackOwed := false } } m (.ack s.seam.term s.seam.applied)
  | none => s

/-- `SEAM_JOURNAL_RECEIVED`: the entries in order; a gap is answered with NAK, and an entry with `RELEASE` with ACK, at once when it is applied. -/
def execSeamJournalReceived (link : Nat) (p : SeamPacket) (s : State) : Host.Outcome State Fault Refusal :=
  .next (seamTake s link p (fun m s => match p.load with
    | .journal es =>
      if s.seam.role = .fenced then es.foldl applyLocked s
      else if s.seam.role ≠ .follower then s
      else
        let s1 := queueEntries s es
        let s2 := closedSweep (applyHeld s1.seam.waiting.length s1)
        if s2.seam.role ≠ .follower then s2
        else
          let s3 := match s2.seam.waiting with
            | [] => s2
            | e :: _ =>
              if e.seq ≤ s2.seam.applied + 1 then s2
              else seamTo (regAdd s2 aSeamNakCnt 1) m (.nak s2.seam.term (s2.seam.applied + 1) (e.seq - 1))
          if (es ++ s1.seam.waiting).any (fun e => e.release && decide (e.seq ≤ s3.seam.applied)) then sendAck s3 else s3
    | _ => s))

/-- `SEAM_ACK_COALESCE`: an acknowledgement owed for 20 µs is sent. -/
def execSeamAckCoalesce (s : State) : Host.Outcome State Fault Refusal :=
  .next (if s.seam.role = .follower ∧ s.seam.ackOwed ∧ s.seam.ackAt + 20 * cycUs ≤ s.time.clk then sendAck s else s)

/-! ### The primary's side (R312, R313, R316) -/

/-- `SEAM_ACK_RECEIVED`: entries that no member needs again leave the buffer; those that wait for the budgets may leave; a handover goes on. -/
def execSeamAckReceived (link : Nat) (p : SeamPacket) (s : State) : Host.Outcome State Fault Refusal :=
  .next (seamTake s link p (fun m s => match p.load with
    | .ack term seq =>
      if !isPrimary s ∨ term > s.seam.term then s
      else
        let x := seamPeer s m
        let s1 := seamPeerPut s m { x with acked := max x.acked (min seq s.seam.applied) }
        let low := seamKept s1
        switchStep { s1 with seam := { s1.seam with buffer := s1.seam.buffer.filter (fun e => decide (low < e.seq)) } }
    | _ => s))

/-- `SEAM_NAK_RECEIVED`: the missing entries are sent again; a member that misses an entry which the primary no longer holds, or never had, is
resynchronised (DESIGN CHOICE, assumption 38). -/
def execSeamNakReceived (link : Nat) (p : SeamPacket) (s : State) : Host.Outcome State Fault Refusal :=
  .next (seamTake s link p (fun m s => match p.load with
    | .nak _ first last =>
      if !isPrimary s then s
      else
        let s1 := regAdd s aSeamNakCnt 1
        if first ≤ s.seam.applied ∧ !s.seam.buffer.any (fun e => e.seq == first) then
          snapSend (seamPeerPut s1 m { seamPeer s1 m with inSync := false }) m
        else match seamLinkTo s1 m with
          | some l => entriesAgain s1 l (s.seam.buffer.filter (fun e => decide (first ≤ e.seq ∧ e.seq ≤ last)))
          | none => s1
    | _ => s))

/-- A frame that a follower accepted is delivered when its counter is new in the primary's own window (R316). -/
def upFrame (s : State) (q epoch ctr flags app : Nat) (stamp : Stamp) (pl : List Byte) : State :=
  match queueGet s q with
  | none => s
  | some x =>
    let adj := x.present.all (fun k => k.epoch != epoch)
    match (if adj then x.adjacent else x.present) with
    | none => s
    | some k =>
      if k.epoch ≠ epoch ∨ !replayNew k.win false (ctr % 2 ^ 62) then s
      else match hmpFill s (tagQueue q) pl with
        | none => hmpDrop s
        | some (b, s1) =>
          let x1 := keyRegPut x adj { k with win := replayMark k.win false (ctr % 2 ^ 62) }
          let h : FfpHdr := {
            kind := ffData, flags := flags, queue := q, epoch := epoch, ctr := ctr, len := pl.length, app := app, raw := []
            body := [], tag := [], src := [], whole := 0 }
          let s2 := queuePut s1 q x1
          rxData (if adj then rxConfirm s2 x.card.toNat epoch else s2) q h b k.win stamp pl

/-- `SEAM_UPLINK_RECEIVED`: a follower's frame, card report or heartbeat lease request. -/
def execSeamUplinkReceived (link : Nat) (p : SeamPacket) (s : State) : Host.Outcome State Fault Refusal :=
  .next (seamTake s link p (fun m s =>
    if !isPrimary s then s
    else match p.load with
    | .upFrame q epoch ctr flags app stamp pl => upFrame s q epoch ctr flags app stamp pl
    | .upConfirm card epoch => rxConfirm s card epoch
    | .upReport id left flags fw stamp => if (tblFind id s.links.cards).isSome then cardReport s id left flags fw stamp else s
    | .upLease q stop => (match queueGet s q with
      | some x => jot (queuePut s q (hbEndPut m stop x)) 0xFFFF true (.lease leaseHeartbeat (q * 4 + m) stop)
      | none => s)
    | _ => s))

/-- `CHECKPOINT_TIMER`: every 10 ms the primary journals its digest. -/
def execCheckpointTimer (s : State) : Host.Outcome State Fault Refusal :=
  .next (if isPrimary s ∧ s.seam.checkAt + 10 * cycMs ≤ s.time.clk then
      jot { s with seam := { s.seam with checkAt := s.time.clk, checkD := (s.seam.applied, s.seam.digest, s.seam.digest) } } 0xFFFF false
        (.checkpoint s.seam.applied s.seam.digest)
    else s)

/-! ### Witnesses (R323) -/

/-- Answers of the field nodes to the last probe: those that hear a member, and those that do not. -/
def witnessAnswers (s : State) (at_ m : Nat) : Nat × Nat :=
  let as := (airQueues s).filter (fun e => match e.2.hbLast with
    | some t => decide (at_ ≤ t ∧ t ≤ at_ + 100 * cycUs)
    | none => false)
  ((as.filter (fun e => bitN e.2.heard m)).length, (as.filter (fun e => !bitN e.2.heard m)).length)

/-- `WITNESS_PROBE_TIMEOUT`: the primary continues alone or fences itself; a follower is promoted or stays isolated. -/
def execWitnessProbeTimeout (s : State) : Host.Outcome State Fault Refusal :=
  .next (match s.seam.probeAt with
    | none => s
    | some t =>
      if s.time.clk < t + 100 * cycUs then s
      else
        let m := if isPrimary s then s.seam.index else (seamPrimary s).getD 0
        let (yes, no) := witnessAnswers s t m
        let s1 := regPut { s with seam := { s.seam with probeAt := none, heardYes := yes, heardNo := no } } aSeamWitness
          (BitVec.ofNat 32 (yes * 65536 + no % 65536))
        let q := witnessQuorum s
        if isPrimary s then (if q ≤ yes then s1 else seamFence (seamEvent s1 10 s.seam.index) 4)
        else if s.seam.role ≠ .follower then s1
        else if q ≤ no ∧ yes < no then promote s1
        else seamEvent s1 10 s.seam.index)

/-- `WITNESS_REPROBE`: an isolated follower of a duplex repeats the probe every 10 ms. -/
def execWitnessReprobe (s : State) : Host.Outcome State Fault Refusal :=
  .next (if s.seam.role = .follower ∧ s.seam.isolated ∧ s.seam.size = 2 ∧ s.seam.inSync ∧ s.seam.probeAt.isNone ∧
      s.seam.probed + 10 * cycMs ≤ s.time.clk then probeSend s
    else s)

end Sys2Proof.Machine
end

