-- ==== Sys2Proof/Machine/Scorch.lean ====
section
/-! DEFINITION. Scorch: sources, the lock, the Rinse, supply warning and power failure, and the 0x0D04 to 0x0D07 commands
(spec 18). -/

namespace Sys2Proof.Machine

/-! ### Sources (Table 18-1) -/

/-- A listed source ID. -/
def srcListed (n : Nat) : Bool :=
  decide ((1 ≤ n ∧ n ≤ 0xE) ∨ n = 0x10 ∨ n = 0x11 ∨ n = 0x12 ∨ n = 0x18 ∨ (0x20 ≤ n ∧ n ≤ 0x28) ∨ n = 0x30)

/-- A source of intrusion class. -/
def srcIntrusion (n : Nat) : Bool := n == 0x18 || decide (0x20 ≤ n ∧ n ≤ 0x28)

/-- The other source of a pair of which only one can be fused off. -/
def srcPartner (n : Nat) : Option Nat :=
  if 1 ≤ n ∧ n ≤ 0xE then some (if n % 2 = 1 then n + 1 else n - 1)
  else if n = 0x10 then some 0x11
  else if n = 0x11 then some 0x10
  else none

/-- Sources of detector A and detector D of a rail, 0 `VDD_CORE` to 6 `VDD_PLL` (Table 18-2). -/
def srcRailA (rail : Nat) : Nat := 2 * rail + 1
def srcRailD (rail : Nat) : Nat := 2 * rail + 2

/-- A rail whose low-side firings are provisional: `VDD_CORE` and `VDD_IO` (R490). -/
def railProv (rail : Nat) : Bool := rail == 0 || rail == 3

/-! ### The debug certificate's end (R482) -/

/-- The installed certificate is withdrawn and its summary erased. -/
def certDrop (s : State) (cause : Nat) : State :=
  if s.lc.cert.isNone then s
  else tallyPut (sqcSet { s with lc := { s.lc with cert := none, certOn := false } } aLcsEvt 5) agThm 0x0D83 [(0x0F, cause)]

/-- A withdrawal whose cause the spec gives no code: a free value (assumption 3). -/
def certWithdraw (s : State) : State :=
  if s.lc.cert.isNone then s
  else
    let (v, s1) := freeWord s
    certDrop s1 v.toNat

/-! ### Rinse (R117, R503) -/

/-- The key store closes: no object can be used (R496, R504). -/
def storeClose (s0 : State) (cause : Nat) : State :=
  let s := settingsSave s0
  { s with boot := { s.boot with ksCause := cause, ksGen := 0 } }

/-- Key SRAM and every key cache are erased. -/
def keysErase (s : State) : State :=
  { s with
    keys := { s.keys with objs := [], osks := [], pressKeys := [], mangleKeys := [] }
    links := { s.links with queues := tblMap (fun q => { q with present := none, adjacent := none }) s.links.queues } }

/-- The four roots are erased (R496, R503): the settings key is lost with them, and only owner 0's record is used until an unlock
(R124). -/
def rootsErase (s0 : State) : State :=
  let s := settingsSave s0
  { s with keys := { s.keys with roots := [], held := true }, scorch := { s.scorch with rootsLost := true } }

/-- The whole Rinse (Table 18-5). In VAULT only the root-vault step takes place. -/
def rinse (s : State) : State :=
  if s.pwr.vault then
    let s1 := rootsErase { s with seam := { s.seam with key := [] } }
    { s1 with scorch := { s1.scorch with stRinse := true } }
  else
    let s1 := mangleRinse (pressRinse (seamFarewell s .rinse))
    let s2 := rootsErase (storeClose (keysErase (rngRinse s1)) 3)
    let s3 := seamAlone s2
    let s4 := certWithdraw (needleRinse (queuesDestroy s3))
    sqcSet { s4 with scorch := { s4.scorch with stRinse := true } } aScrEvt 2

/-! ### Events and the lock (R498 to R505) -/

/-- The lock's record of a new lock, or its count. -/
def lockNote (s : State) (src : Nat) : State :=
  if s.scorch.locked then { s with scorch := { s.scorch with lockCount := min 255 (s.scorch.lockCount + 1) } }
  else
    let unset := bitOf (regGet s aTimeSrcStat) 7
    { s with scorch := { s.scorch with
      locked := true, lockSrc := src, lockCount := 1, prov := [], others := false, lockRec := s.scorch.logSeq + 1
      lockStamp := if s.pwr.vault then 0 else capStamp s
      lockCt := if s.pwr.vault then (if unset then 0 else s.time.rtc) else nowCt s } }

/-- The sticky flag of a source (R513). -/
def stickySet (s : State) (src : Nat) : State :=
  let x := s.scorch
  if src = 0x18 then { s with scorch := { x with stMesh := true } }
  else if 0x20 ≤ src ∧ src < 0x28 then
    { s with scorch := { x with
      stLoop := true, stLoops := if bitN x.stLoops (src - 0x20) then x.stLoops else x.stLoops + 2 ^ (src - 0x20) } }
  else s

/-- What the device does when a lock has begun (Table 18-4): `FAULT_N`, held queues, suspended rights, the hand-over. -/
def lockBegin (s : State) (src : Nat) : State :=
  if s.pwr.vault then s
  else
    let s1 := seamLock (lockQueues (faultPin (sqcSet s aScrEvt 1)))
    let s2 := if s.lc.cert.isSome && !lcOpen s then sqcSet s1 aLcsEvt 6 else s1
    tallyPut s2 agScorch 0x0D90 [(0x0D, src)]

/-- What a source reports with its firing: log flags, glitch duration, detail, and a provisional firing's rail. -/
structure FireInfo where
  flags  : Nat := 0
  dur    : Nat := 0
  detail : Nat := 0
  prov   : Option Nat := none
  deriving DecidableEq, Repr

/-- A source that fires is present, and counts, raises its interrupt, and sets its sticky flag and the place of the lock's provisional record. -/
def fireMark (s : State) (src : Nat) (i : FireInfo) : State :=
  let s0 := if s.pwr.vault then s else (agentNext s agScorch).2
  let s1 := { s0 with scorch := { s0.scorch with present := s0.scorch.present + 2 ^ src, lastSrc := src } }
  let s2 := sqcSet (regAdd s1 aScrEvtCnt 1) aScrEvt 0
  let s4 := stickySet (lockNote s2 src) src
  { s4 with scorch := { s4.scorch with
    prov := (match i.prov with
      | some r => s4.scorch.prov ++ [{ rail := r, at_ := s.time.clk }]
      | none => s4.scorch.prov)
    others := s4.scorch.others || i.prov.isNone } }

/-- An intrusion source erases by the Rinse; source `0x30` erases the roots, in the vault when it starts. -/
def fireErase (s : State) (src : Nat) (vault : Bool) : State :=
  let s6 := if srcIntrusion src then rinse s else s
  if src = 0x30 then
    (if vault then { s6 with scorch := { s6.scorch with vaultBad := true } }
     else rootsErase (storeClose s6 3))
  else s6

/-- A source fires (R488, R498): never a disabled source, and once for each occurrence of its condition. In AIRING and STANDBY it then wakes the
device: its records carry the Stamp at which it was captured there (R25, R45). -/
def fire (s : State) (src : Nat) (i : FireInfo) : State :=
  if bitN s.scorch.disabled src || bitN s.scorch.present src then s
  else
    let began := !s.scorch.locked
    let deep := srcIntrusion src
    let s6 := fireErase (fireMark s src i) src s.pwr.vault
    let s8 := scorchLog s6 logEvent src (if deep then 7 else 6) (b2n began + 2 * b2n deep + i.flags) i.dur i.detail
    let s9 := if deep then scorchLog s8 logRinse src 7 2 0 src else s8
    let s10 := if began then lockBegin s9 src else s9
    wakeUp (if deep && !s.pwr.vault then tallyPut s10 agScorch 0x0D91 [(0x0D, src)] else s10) 6

/-- A source fires with a measured value that the spec does not define for it: a free value (assumption 3). -/
def fireFree (s : State) (src : Nat) : State :=
  let (v, s1) := freeWord s
  fire s1 src { detail := v.toNat % 2 ^ 32 }

/-- Log flags of a glitch and of a slow excursion. -/
def flGlitch := 16
def flSlow := 32
def flWithdrawn := 64

/-- `SUPPLY_DETECTOR_A_FIRE` (R489): a rail went beyond its glitch band for `ns`, or (`glitch` false) beyond its slow band;
`low`: the low side; `mv`: what was measured. -/
def execSupplyDetectorAFire (rail : Nat) (glitch low : Bool) (ns mv : Nat) (s : State) : Host.Outcome State Fault Refusal :=
  .next (if s.pwr.vault then s
    else if glitch then
      if ns < 2 then s
      else fire s (srcRailA rail) {
        flags := if ns ≤ 1000 then flGlitch else flSlow, dur := if ns ≤ 1000 then ns else 0, detail := mv
        prov := if low && railProv rail then some rail else none }
    else if ns ≤ 10000 || (low && railProv rail) then s
    else fire s (srcRailA rail) { flags := flSlow, detail := mv })

/-- `SUPPLY_DETECTOR_D_FIRE` (R489): the margin condition of a rail's detector D has held for 8 ns. -/
def execSupplyDetectorDFire (rail : Nat) (low : Bool) (mv : Nat) (s : State) : Host.Outcome State Fault Refusal :=
  .next (if s.pwr.vault then s
    else fire s (srcRailD rail) { detail := mv, prov := if low && railProv rail then some rail else none })

/-- Both temperature sensors are read in `SCR_TEMP`, in 0.125 °C. -/
def tempRead (s : State) (t0 t1 : BitVec 16) : State := regPut s aScrTemp (t1 ++ t0)

/-- A reading out of range, and two readings more than 20 °C apart. -/
def tempOut (t : BitVec 16) : Bool := decide (1000 < t.toInt ∨ t.toInt < -440)
def tempApart (t0 t1 : BitVec 16) : Bool := decide (160 < t0.toInt - t1.toInt ∨ 160 < t1.toInt - t0.toInt)

/-- `TEMPERATURE_FIRE` (R491): the readings have held for `ms`. -/
def execTemperatureFire (t0 t1 : BitVec 16) (ms : Nat) (s : State) : Host.Outcome State Fault Refusal :=
  .next (if s.pwr.vault then s
    else
      let apart := tempApart t0 t1 && decide (10 ≤ ms)
      let s1 := tempRead s t0 t1
      let s2 := if apart || (tempOut t0 && decide (1 ≤ ms)) then fire s1 0x10 { detail := t0.toNat } else s1
      if apart || (tempOut t1 && decide (1 ≤ ms)) then fire s2 0x11 { detail := t1.toNat } else s2)

/-- `TEMP_WARN` (R491): a reading above 105 °C for 1 ms. -/
def execTempWarn (t0 t1 : BitVec 16) (ms : Nat) (s : State) : Host.Outcome State Fault Refusal :=
  .next (if s.pwr.vault then s
    else
      let s1 := tempRead s t0 t1
      let top := if t0.toInt < t1.toInt then t1 else t0
      if s.scorch.tempWarn || decide (top.toInt ≤ 840) || ms == 0 then s1
      else tallyPut (sqcSet { s1 with scorch := { s1.scorch with tempWarn := true } } aScrEvt 6) agScorch 0x0D92
        [(0x0F, top.toNat)])

/-- `TEMP_WARN_CLEAR` (R491): both sensors at 100 °C or below for 1 ms. -/
def execTempWarnClear (t0 t1 : BitVec 16) (ms : Nat) (s : State) : Host.Outcome State Fault Refusal :=
  .next (if s.pwr.vault then s
    else
      let s1 := tempRead s t0 t1
      if decide (t0.toInt ≤ 800 ∧ t1.toInt ≤ 800 ∧ 1 ≤ ms) then { s1 with scorch := { s1.scorch with tempWarn := false } } else s1)

/-- `REFERENCE_FREQUENCY_FIRE` (R492): the frequency measured over a window of 100 µs in kHz, of 156,250 nominal, and the
shortest reference period in it in ps. -/
def execReferenceFrequencyFire (khz ps : Nat) (s : State) : Host.Outcome State Fault Refusal :=
  .next (if s.pwr.vault then s
    else if 20 * khz < 19 * 156250 ∨ 21 * 156250 < 20 * khz ∨ ps < 5000 then fireFree s 0x12 else s)

/-- `MESH_FIRE` (R493). -/
def execMeshFire (s : State) : Host.Outcome State Fault Refusal := .next (fireFree s 0x18)

/-- `LOOP_FIRE` (R494): two samples of a loop that differ from the driven bit; the last is `sample`. -/
def execLoopFire (loop : Nat) (sample : Word) (s : State) : Host.Outcome State Fault Refusal :=
  .next (fire s (0x20 + loop) { detail := sample.toNat })

/-- The VBAT domain loses its state (R495): the lock, the flags, the RTC, the root vault and the log's head. -/
def vbatLost (s : State) : State :=
  let keep := s.scorch.log.filter (fun r => decide (r.seq ≤ s.scorch.mirrored))
  let sc : ScorchState := {
    disabled := s.scorch.disabled, stVbat := true, fresh := true, log := keep, logSeq := s.scorch.mirrored
    mirrored := s.scorch.mirrored, prevChain := s.scorch.prevChain }
  { s with
    scorch := sc
    time := { s.time with rtc := 0, rtcPart := 0, epoch := 0 }
    keys := { s.keys with roots := [], highMark := 0 }
    seam := { s.seam with key := [], group := 0 }
    thm := { s.thm with bundles := 0 }
    boot := { s.boot with ctl := none }
    lc := { s.lc with certOn := false, bootCnt := 0 } }

/-- `VBAT_FIRE` (R495): kind 0 `VBAT` above 3.9 V; 1 a change by more than 0.5 V within 1 µs; 2 below 2.2 V while main power
is off; 3 the VBAT domain loses its state with main power off, for which the source fires at the next start. -/
def execVbatFire (kind mv : Nat) (s : State) : Host.Outcome State Fault Refusal :=
  .next (match kind with
    | 0 => if 3900 < mv then fire s 0x28 { detail := mv } else s
    | 1 => fire s 0x28 { detail := mv }
    | 2 => if s.pwr.vault && decide (mv < 2200) then fire s 0x28 { detail := mv } else s
    | _ => if s.pwr.vault && decide (mv < 1800) then vbatLost s else s)

/-- `VBAT_LOW` (R495): below 2.3 V while main power is on. -/
def execVbatLow (mv : Nat) (s : State) : Host.Outcome State Fault Refusal :=
  .next (if s.pwr.vault then s
    else if 2300 ≤ mv then { s with scorch := { s.scorch with vbatLow := false } }
    else if s.scorch.vbatLow then s
    else tallyPut (sqcSet { s with scorch := { s.scorch with vbatLow := true } } aScrEvt 7) agScorch 0x0D93 [(0x0F, mv)])

/-- `VAULT_INTEGRITY_CHECK` (R496): `bad`: some integrity code of the root vault does not match. -/
def execVaultIntegrityCheck (bad : Bool) (s : State) : Host.Outcome State Fault Refusal :=
  .next (if bad then fireFree s 0x30 else s)

/-- `SOURCE_CONDITION_ABSENT` (R488, R506): the condition of a source has been absent for 1 ms. -/
def execSourceConditionAbsent (source : Nat) (s : State) : Host.Outcome State Fault Refusal :=
  .next (if bitN s.scorch.present source then
    { s with scorch := { s.scorch with present := s.scorch.present - 2 ^ source } } else s)

/-! ### Supply (R514 to R516) -/

/-- Thresholds in mV: `VDD_CORE` by code, `VDD_IO` fixed (R514, R516, R520). -/
def vcoreWarn (s : State) : Nat := 700 + 5 * regField s aScrVcoreWarn 2 0
def vcoreRst (s : State) : Nat := 680 + 5 * regField s aScrVcoreRst 2 0

/-- What the supply warning begins (R514). -/
def supplyWarn (s : State) (reading : Nat) : State :=
  let s1 := sqcSet { s with
    scorch := { s.scorch with supplyWarn := true }
    tally := { s.tally with want := true } } aScrEvt 4
  tallyPut s1 agScorch 0x0D94 [(0x0F, reading)]

/-- A rail falls below its warning threshold. -/
def railFalls (s : State) (mv : Nat) : State := supplyWarn { s with scorch := { s.scorch with railLow := true } } mv

/-- `SUPPLY_WARNING` (R514): the two rails' voltages, one of them below its warning threshold for 1 µs. -/
def execSupplyWarning (core_ io_ : Nat) (s : State) : Host.Outcome State Fault Refusal :=
  .next (if s.pwr.vault ∨ s.scorch.railLow then s
    else if core_ < vcoreWarn s then railFalls s core_
    else if io_ < 1710 then railFalls s io_
    else s)

/-- `SUPPLY_WARNING_END` (R514): both rails 10 mV above their thresholds for 1 ms; a power-fail sequence in progress keeps the warning (R515). -/
def execSupplyWarningEnd (core_ io_ : Nat) (s : State) : Host.Outcome State Fault Refusal :=
  .next (if s.scorch.railLow && decide (vcoreWarn s + 10 ≤ core_ ∧ 1720 ≤ io_) then
    { s with scorch := { s.scorch with railLow := false, supplyWarn := s.scorch.pfw } } else s)

/-- `POWER_FAIL` (R515): `PFW_N` low for 1 µs. The record's reading is not defined for it: a free value. -/
def execPowerFail (s : State) : Host.Outcome State Fault Refusal :=
  .next (if s.pwr.vault ∨ s.scorch.pfw then s
    else
      let (v, s0) := freeWord s
      let s1 := if s0.scorch.supplyWarn then s0 else supplyWarn s0 v.toNat
      let s2 := sqcSet { s1 with scorch := { s1.scorch with pfw := true } } aScrEvt 5
      wakeUp (seamBye s2 .powerFail) 7)

/-- `POWER_FAIL_END` (R515): `PFW_N` high for 10 ms without a reset; the warning of a rail that is still low stays (R514). -/
def execPowerFailEnd (s : State) : Host.Outcome State Fault Refusal :=
  .next (if s.scorch.pfw && !s.pwr.vault then
    let s1 := tallyPut { s with scorch := { s.scorch with pfw := false, supplyWarn := s.scorch.railLow } } agScorch 0x0D95 []
    if s1.seam.role = .fenced then seamAsk s1 else s1
  else s)

/-- A provisional lock is withdrawn as the device enters VAULT (R490): its records, which the VBAT domain writes in VAULT, carry
flag [6]. -/
def lockWithdraw (s : State) : State :=
  let f (r : ScorchRec) : ScorchRec :=
    if s.scorch.lockRec ≤ r.seq then
      { r with flags := r.flags + flWithdrawn + (if bitN r.flags 2 then 0 else 4), stamp := 0, chain := zeros 32 } else r
  unlockQueues { s with scorch := { s.scorch with
    locked := false, lockSrc := 0, lockCount := 0, lockStamp := 0, lockCt := 0, prov := [], others := false
    log := s.scorch.log.map f } }

/-- A queue after a reset: its description, PAUSED, with no key bound and nothing waiting (R281). -/
def queueAfter (x : Queue) : Queue :=
  { mode := .paused, cls := x.cls, cont := x.cont, flags := x.flags, rx := x.rx, tx := x.tx, air := x.air, held := x.held, bulkAck := x.bulkAck
    repeats := x.repeats, port := x.port, owner := x.owner, slice := x.slice, card := x.card, key := x.key, epoch := x.epoch
    deadline := x.deadline, weight := x.weight, rate := x.rate, hbPeriod := x.hbPeriod, dest := x.dest, core := x.core
    fwd := x.fwd, limit := x.limit, peers := x.peers, rxCq := x.rxCq, rxSlots := x.rxSlots, rxSize := x.rxSize
    rxBase := x.rxBase, dup := x.dup }

/-- The field links after a reset: transmitters idle, queues PAUSED, no epoch change or enrolment in progress. -/
def linksAfter (x : LinkState) : LinkState :=
  { ports := tblMap (fun p => { ips := p.ips }) x.ports
    queues := tblMap queueAfter x.queues
    cards := tblMap (fun c => { c with change := none, confAt := none }) x.cards
    rules := x.rules, macBase := x.macBase, utcOffset := x.utcOffset }

/-- What has no power in VAULT is lost (R48, Table 1-8): every volatile memory, and with it everything in progress. What the flash chips, the fuses and
the root vault hold stays. -/
def volatileLost (s : State) : State :=
  let down : FnState := { linkUp := false }
  { s with
    time := { s.time with
      ppsOut := false, ppsDue := false, rtcDue := false, stepAsked := false, corr := .none, corrLeft := 0, meas := [], lockRun := 0 }
    pwr := { vault := true, fastLast := s.time.clk, idleLast := s.time.clk }
    regs := { file := s.regs.file }
    dev := { s.dev with sram := [] }
    fn0 := down, fn1 := down, slices := []
    tortin := { saveCnt := s.tortin.saveCnt }
    keys := { s.keys with objs := [], gens := [], osks := [], pend := [], pressKeys := [], mangleKeys := [] }
    seam := { s.seam with
      role := .alone, isolated := false, inSync := false, forming := none, switch := none, probeAt := none, buffer := [], waiting := []
      unsent := [], sent := [], short := false, part := [], snapGot := 0, driftAt := none
      links := s.seam.links.map (fun _ => {}) }
    hamper := {}, needle := {}, press := {}, mangle := {}, dma := {}
    links := linksAfter s.links
    rng := { cfg := s.rng.cfg, pers := s.rng.pers }
    thm := { bundles := s.thm.bundles }
    scorch := { s.scorch with supplyWarn := false, railLow := false, pfw := false, tempWarn := false } }

/-- The device is in VAULT (Table 2-5, R516): only the VBAT domain runs; every port's transmitter is idle and `PPS_OUT` is low. -/
def enterVault (s : State) : State := volatileLost (settingsSave s)

/-- `VAULT_ENTRY` (R516): a rail, 0 `VDD_CORE` or 3 `VDD_IO`, below its reset threshold for 1 µs. -/
def execVaultEntry (rail mv : Nat) (s : State) : Host.Outcome State Fault Refusal :=
  let low := (rail == 0 && decide (mv < vcoreRst s)) || (rail == 3 && decide (mv < 1650))
  .next (if s.pwr.vault || !low then s
    else
      let back := s.scorch.locked && !s.scorch.others &&
        s.scorch.prov.any (fun p => p.rail == rail && decide (s.time.clk ≤ p.at_ + 2 * cycUs))
      enterVault (if back then lockWithdraw s else s))

/-! ### Registers (R520) -/

/-- `SCR_STAT`. -/
def scrStat (s : State) : Nat :=
  let x := s.scorch
  b2n x.locked * 2 ^ 31 + b2n x.rootsLost * 2 ^ 30 + b2n x.pfw * 2 ^ 29 + b2n x.supplyWarn * 2 ^ 28 +
  b2n x.tempWarn * 2 ^ 27 + b2n x.vbatLow * 2 ^ 26 + x.lastSrc

/-- `SCR_LOCK_SRC`. -/
def scrLockSrc (s : State) : Nat := s.scorch.lockCount * 256 + s.scorch.lockSrc

/-- `SCR_STICKY`. -/
def scrSticky (s : State) : Nat :=
  let x := s.scorch
  x.stLoops * 256 + 8 * b2n x.stRinse + 4 * b2n x.stVbat + 2 * b2n x.stLoop + b2n x.stMesh

/-! ### Commands (R506 to R509, R518, R519) -/

/-- The status that `SCORCH.DISABLE` ends with before execution start (R509, R518). -/
def disableEarly (s : State) (c : Cmd) : Nat :=
  let n := par c 52 1
  let m := par c 53 1
  let off (k : Nat) : Bool := bitN s.scorch.disabled k
  if inGroup s && decide (m ≠ 0xFF ∧ s.seam.size ≤ m) then 0x0904
  else if !srcListed n || n == 0x18 || n == 0x30 || (srcPartner n).any off then 0x0D0B
  else if off n then 0x0D0C
  else stOk

/-- A source that is not fused off has its condition present (R506). -/
def srcActive (s : State) : Bool :=
  (List.range 0x31).any (fun n => bitN s.scorch.present n && !bitN s.scorch.disabled n)

/-- The two digests that an unlock with lost roots compares (R508). -/
def unlockDigests (s : State) : List Byte := ownerSetDigest s ++ settingsDigestOf s

/-- The catalogue's entries of the 0x0D04 to 0x0D07 commands. -/
def specScorch (s : State) (c : Cmd) : Option CmdSpec :=
  let own0 := cOwner s c == 0
  let n := if s.scorch.rootsLost then 96 else 0
  match cOp c with
  | 0x0D04 => some { zero := noKeys c && parZero c [(52, 12)], outMax := 224 }
  | 0x0D05 => some {
      zero := noKeys c && parZero c [(54, 10)] && decide (bitsN (par c 52 2) 7 4 = 0), inMin := n, inMax := n
      preread := n, issuer := own0, quorum := some (0, qCustodian)
      early := if !s.scorch.locked then 0x0D07 else if srcActive s then 0x0D08 else stOk
      late := if s.scorch.rootsLost && heldInput c != unlockDigests s then 0x0D0A else stOk }
  | 0x0D06 => some {
      zero := noKeys c && parZero c [(56, 8)], outMax := max 64 (roundUp (cOutCap c) 64) }
  | 0x0D07 => some {
      zero := noKeys c && parZero c [(54, 10)]
      form := if inGroup s then decide (par c 53 1 ≤ 2 ∨ par c 53 1 = 0xFF) else decide (par c 53 1 = 0 ∨ par c 53 1 = 0xFF)
      issuer := own0, quorum := some (0, qCustodian), early := disableEarly s c }
  | _ => none

/-- `SCORCH.STATUS` result (Table 18-9). -/
def scorchStatus (s : State) : List Byte :=
  let x := s.scorch
  leBytes 4 (scrStat s) ++ leBytes 4 (scrLockSrc s) ++ leBytes 8 x.lockStamp.toNat ++ leBytes 8 x.lockCt.toNat ++
  leBytes 8 x.disabled ++ leBytes 8 x.present ++ leBytes 4 (scrSticky s) ++ leBytes 4 (regGet s aScrEvtCnt).toNat ++
  leBytes 4 x.logSeq ++ leBytes 4 (logOldest s) ++ leBytes 4 (regGet s aScrTemp).toNat ++
  leBytes 1 (regField s aScrVcoreWarn 2 0) ++ leBytes 1 (regField s aScrVcoreRst 2 0) ++ zeros 2 ++
  bytesAt (ownerSetDigest s) 0 48 ++ settingsDigestOf s ++ bytesAt (chainLast s) 0 32 ++ bytesAt (chainFirst s) 0 32

/-- `SCORCH.STATUS`. -/
def execScorchStatus (tag : Nat) (io : HostIO) (s : State) : Host.Outcome State Fault Refusal :=
  runCmd s tag 0x0D04 (fun _ s => endOut s tag io (scorchStatus s))

/-- What execution start notes for an unlock: the snapshot of `SCR_EVT_CNT`, and the officers who approved (R507). -/
def unlockStart (s : State) (tag : Nat) (mask : Nat) : State :=
  setWork s tag { nums := [(regGet s aScrEvtCnt).toNat, mask] }

/-- The lock is cleared, with everything that follows (R507). -/
def unlock (s : State) (clear officers : Nat) : State :=
  let x := s.scorch
  let keepN (m i : Nat) : Bool := !bitN clear i && bitN m i
  let loops := ((List.range 8).filter (fun i => bitN x.stLoops i && !bitN clear (8 + i))).map (2 ^ ·)
  let cleared := (List.range 16).filter (fun i => bitN (scrSticky s) i && bitN clear i)
  let s1 := { s with scorch := { x with
    locked := false, lockSrc := 0, lockCount := 0, lockStamp := 0, lockCt := 0, prov := [], others := false
    stLoops := loops.foldl (· + ·) 0
    stMesh := keepN (b2n x.stMesh) 0, stLoop := x.stLoop && !bitN clear 1, stVbat := x.stVbat && !bitN clear 2
    stRinse := x.stRinse && !bitN clear 3 } }
  let s2 := unlockQueues (faultPin (sqcSet s1 aScrEvt 3))
  let s3 := tallyPut s2 agCp 0x0D96 [(0x0E, officers)]
  let s4 := scorchLog s3 logUnlock 0 2 0 0 (officers % 2 ^ 16 + 2 ^ 16 * (cleared.map (2 ^ ·)).foldl (· + ·) 0)
  if s4.seam.role = .fenced then seamAsk s4 else s4

/-- `SCORCH.UNLOCK`: the lock ends only if no event has come since execution start (R507). -/
def execScorchUnlock (tag : Nat) (io : HostIO) (s : State) : Host.Outcome State Fault Refusal :=
  runIn s tag 0x0D05 io (fun c bs s =>
    if (regGet s aScrEvtCnt).toNat ≠ c.work.nums.headD (regGet s aScrEvtCnt).toNat then endAfter s tag 0x0D09
    else
      let s1 := unlock s (par c 52 2) (c.work.nums.getD 1 0)
      if s.scorch.rootsLost then
        let s2 := { s1 with
          scorch := { s1.scorch with rootsLost := false, approve := some (bytesAt bs 0 48, bytesAt bs 48 48) }
          tortin := { s1.tortin with resetTag := some tag } }
        endOk s2 tag 0 1
      else endOk s1 tag)

/-- `SCORCH.LOG_READ`: records from a first sequence, as many as fit. -/
def execScorchLogRead (tag : Nat) (io : HostIO) (s : State) : Host.Outcome State Fault Refusal :=
  runCmd s tag 0x0D06 (fun c s =>
    let rs := s.scorch.log.filter (fun r => decide (par c 52 4 ≤ r.seq))
    let n := cOutCap c / 64
    let out := rs.take n
    endOut s tag io (out.flatMap logBytes64) stOk (extra2 (((rs.drop n).map (·.seq)).headD 0) out.length))

/-- `SCORCH.DISABLE` (R509): in a group it acts on the member that it names. -/
def execScorchDisable (tag : Nat) (s : State) : Host.Outcome State Fault Refusal :=
  runCmd s tag 0x0D07 (fun c s =>
    let n := par c 52 1
    if inGroup s && decide (par c 53 1 ≠ 0xFF ∧ par c 53 1 ≠ s.seam.index) then endOk s tag
    else if bitN s.scorch.disabled n then endOk s tag
    else
      let (sev, s1) := freeSev { s with scorch := { s.scorch with disabled := s.scorch.disabled + 2 ^ n } }
      endOk (scorchLog s1 logDisable n sev 0 0 n) tag)

end Sys2Proof.Machine
end

