-- ==== Sys2Proof/Machine/Thimble.lean ====
section
/-! DEFINITION. Thimble as the CP meets it: binding keys, restarts, hangs and recovery; GPIO edges (spec 04, R115; spec 06, R161;
spec 07, R185; spec 14, R397 to R405, R418). -/

namespace Sys2Proof.Machine

/-! ### Binding (R115, R161, R185) -/

/-- A queue's key of its present epoch enters its key register (R160, R278). -/
def queueBind (s : State) (q : Nat) : State :=
  match queueGet s q with
  | none => s
  | some x => match keyOf s x.key with
    | none => s
    | some o => queuePut s q { x with
        present := some { epoch := x.epoch, key := queueKey o.material x.card.toNat q x.epoch } }

/-- `THM_BIND`: engine 1 Press, 2 Mangle, 3 a queue's link entry, 4 an Airing slot. Nothing is bound under a lock (R499); where no
entry can be replaced the command is told to wait. -/
def execThmBind (s : State) : Host.Outcome State Fault Refusal :=
  thmServe s 2 (fun r s =>
    let engine := r.nums.getD 0 0
    if s.scorch.locked then thmAnswer s r stLocked r.a r.nums
    else match keyOf s r.a with
      | none => thmAnswer s r stBadHandle r.a r.nums
      | some o =>
        if engine = 1 ∨ engine = 2 then
          match keyBind s engine r.a o with
          | none => thmAnswer s r stBusy r.a r.nums
          | some s1 => thmAnswer s1 r stOk r.a r.nums
        else thmAnswer (queueBind s (r.nums.getD 1 0)) r stOk r.a r.nums)

/-- `THM_RSP_HEAD_WRITE`: the CP returns response entries: the head moves forward, not past the tail (R53, R397). -/
def thmRspHead (s : State) (v : Word) : State :=
  let head := regField s (aThm 0x18) 4 0
  let tail := regField s (aThm 0x14) 4 0
  let n := fieldOf v 4 0
  if (n + 32 - head) % 32 ≤ (tail + 32 - head) % 32 then regPut s (aThm 0x18) (BitVec.ofNat 32 n) else ignWrite s

/-- `THM_RSP_HEAD_WRITE`. -/
def execThmRspHeadWrite (value : Word) (s : State) : Host.Outcome State Fault Refusal := .next (thmRspHead s value)

/-! ### Restart, hang and recovery (R400 to R405) -/

/-- Thimble's state set. -/
def thmMode (s : State) (m : ThmMode) : State := { s with thm := { s.thm with mode := m } }

/-- An event of `THM_EVT`. -/
def thmEvent (s : State) (bit : Nat) : State := sqcSet s (aThm 0x1C) bit

/-- A command that waited on Thimble ends without effect; its token is freed (R403). -/
def thmGiveUp (s : State) (cmd : Option Nat) : State :=
  match cmd with
  | none => s
  | some tag => match cmdAt s tag with
    | none => s
    | some c => if c.stage = .ended then s else endBefore s tag stSecDown

/-- The mailbox SRAM and the requests in it are zeroed; what had been taken is kept for `RECOVER` (R402, R403): a request with
an ordered change that has been answered keeps its answer. -/
def mailboxZero (s : State) : State :=
  let sram (a : Nat) : Bool := decide ((aThm 0x1000 ≤ a ∧ a < aThm 0x2800) ∨ (aThm 0x4000 ≤ a ∧ a < aThm 0x8000))
  let fast := s.thm.answers.filter (fun x => thmFast x.op)
  let back (x : ThmRsp) : ThmReq × Bool := ({ op := x.op, tag := x.tag, a := x.a, nums := x.nums, cmd := x.cmd }, true)
  { s with
    regs := { s.regs with file := tblKeep (fun a _ => !sram a) s.regs.file }
    thm := { s.thm with
      reqs := [], answers := s.thm.answers.filter (fun x => !thmFast x.op)
      lost := s.thm.lost ++ s.thm.reqs.map (fun r => (r, false)) ++ fast.map back } }

/-- A restart of Thimble begins (R402). It is ignored in FAILED, and before Thimble has started. -/
def thmRestart (s : State) : State :=
  if s.thm.mode = .failed ∨ s.thm.mode = .boot then s
  else
    let s1 := mailboxZero { s with thm := { s.thm with mode := .restarting, restartAt := s.time.clk } }
    let s2 := (s1.links.cards.map (·.1)).foldl rekeyFail s1
    if s.thm.mode = .ready then seamYield s2 9 else s2

/-- `THIMBLE_RESTART`. Thimble and the CP act while their clocks run (Table 1-8). -/
def execThimbleRestart (s : State) : Host.Outcome State Fault Refusal := .next (if procRuns s then thmRestart s else s)

/-- Every request that Thimble had taken ends without effect. -/
def thmLost (s : State) : State :=
  let cmds := s.thm.lost.map (fun e => e.1.cmd)
  cmds.foldl thmGiveUp { s with thm := { s.thm with lost := [] } }

/-- Thimble has failed (R404): it serves no more until a reset. -/
def thmFail (s : State) : State :=
  let s1 := thmEvent (thmMode (mailboxZero s) .failed) 3
  let s2 := { s1 with dev := { s1.dev with thmFailed := true } }
  let s3 := scorchLog (tallyPut (faultPin s2) agCp 0x0484 []) logThmFailed 0 7 0 0 0
  let s4 := (s3.thm.answers.map (·.cmd)).foldl thmGiveUp { s3 with thm := { s3.thm with answers := [] } }
  let s5 := (s4.links.cards.map (·.1)).foldl rekeyFail (thmLost s4)
  if s.thm.mode = .ready then seamYield s5 9 else s5

/-- A hang (R400, R404): Thimble is declared DOWN and restarted, and the third within 10 minutes makes it FAILED. -/
def thmHang (s : State) : State :=
  let recent := s.thm.hangs.filter (fun t => decide (s.time.clk < t + 600 * cycS)) ++ [s.time.clk]
  let s1 := tallyPut { s with thm := { s.thm with hangs := recent } } agCp 0x0483 []
  if 3 ≤ recent.length then thmFail s1
  else
    let s2 := thmRestart (thmEvent (thmMode s1 .down) 1)
    if s.thm.mode = .ready then seamYield s2 9 else s2

/-- A fast request has been left unanswered for 50 ms. -/
def thmLate (s : State) : Bool := s.thm.reqs.any (fun r => thmFast r.op && decide (r.taken + 50 * cycMs ≤ s.time.clk))

/-- `THIMBLE_HANG`: `silent`: `THM_ALIVE` has not changed for 50 ms; otherwise a fast request is late. -/
def execThimbleHang (silent : Bool) (s : State) : Host.Outcome State Fault Refusal :=
  .next (if s.thm.mode = .ready ∧ s.tortin.ready ∧ procRuns s ∧ (silent || thmLate s) then thmHang s else s)

/-- `THIMBLE_RESTART_TIMEOUT`: a restart has not reached READY within 200 ms (R403). -/
def execThimbleRestartTimeout (s : State) : Host.Outcome State Fault Refusal :=
  .next (if s.thm.mode = .restarting ∧ procRuns s ∧ s.thm.restartAt + 200 * cycMs ≤ s.time.clk then thmHang s else s)

/-- The caches follow the objects: entries whose object is gone are purged, the flags of the others updated (R402). -/
def cachesReconcile (s : State) : State :=
  let f (e : CacheEnt) : Option CacheEnt := if 2 ^ 32 ≤ e.handle then some e else (keyOf s e.handle).map (fun o => { e with flags := o.attrs })
  let g (q : Queue) : Queue := match keyOf s q.key with
    | some o => { q with flags := o.attrs, cont := bitN o.attrs kContinuity }
    | none => q
  { s with
    keys := { s.keys with pressKeys := s.keys.pressKeys.filterMap f, mangleKeys := s.keys.mangleKeys.filterMap f }
    links := { s.links with queues := tblMap g s.links.queues } }

/-- `THIMBLE_READY` (R402): `imageOk`: the image region hashes to BM0. -/
def execThimbleReady (imageOk : Bool) (s : State) : Host.Outcome State Fault Refusal :=
  .next (if s.thm.mode ≠ .restarting ∨ !procRuns s ∨ s.thm.restartAt + 200 * cycMs < s.time.clk then s
    else if !imageOk then thmFail s
    else
      let s1 := cachesReconcile s
      let s2 := thmEvent (sqcSet { s1 with thm := { s1.thm with mode := .ready, restarts := (s1.thm.restarts + 1) % 256 } }
        aDevEvt 7) 2
      thmPost s2 { op := 0x11, tag := 0 })

/-- `THM_RECOVER` (R403): the CP finishes what Thimble had taken before the restart. -/
def execThmRecover (s : State) : Host.Outcome State Fault Refusal :=
  thmServe s 0x11 (fun r s =>
    let s1 := thmLost (thmAnswer s r stOk)
    if s1.lc.trans.isSome then thmPost s1 { op := 0x12, tag := 0, nums := [1] } else s1)

/-! ### Pins (R418, R420) -/

/-- `GPIO_EDGE`: a pin's level changes; an edge that is configured fires the pin's event source, while the event matrix runs (Table 1-8), and wakes
where the pin is a wake source. -/
def execGpioEdge (pin : Nat) (rising : Bool) (s : State) : Host.Outcome State Fault Refusal :=
  .next (if s.pwr.vault then s
    else
      let s1 := regSetBit s (aGpio 0) pin rising
      if !bitOf (regGet s (aGpio (if rising then 0xC else 0x10))) pin then s1
      else
        let s2 := if procRuns s then evPulse s1 (srcGpio pin) else s1
        if bitOf (regGet s (aGpio 0x14)) pin then wakeUp s2 5 else s2)

end Sys2Proof.Machine
end

