-- ==== Sys2Proof/Machine/LifeCycle.lean ====
section
/-! DEFINITION. The life cycle: transition requests, Thimble's part of a transition, debug certificates, and the 0x0D01 to 0x0D03
commands (spec 17). The end of a transition is a device reset and stands in `Resets`. -/

namespace Sys2Proof.Machine

/-! ### Fuse slots (R476) -/

/-- The fuse slot `k`. -/
def lcSlot (s : State) (k : Nat) : Nat := s.lc.fuses.getD k 0

/-- The fuse slot `k` with the bits of `m` burned. -/
def lcBurn (s : State) (k m : Nat) : State :=
  { s with lc := { s.lc with fuses := setAt s.lc.fuses k (Nat.lor (lcSlot s k) m) } }

/-- Slots used. -/
def lcUsed (s : State) : Nat := ((List.range 16).filter (fun k => decide (lcSlot s k ≠ 0))).length

/-- The next free slot: the lowest that is not used. -/
def lcNext (s : State) : Option Nat := (List.range 16).find? (fun k => decide (lcSlot s k = 0))

/-- The slot that a transition to a target would take: slot 15 is kept for Scrapped. -/
def lcFree (s : State) (target : Nat) : Option Nat :=
  match lcNext s with
  | some k => if k < 15 ∨ target = 4 then some k else none
  | none => none

/-- The highest used slot's word. -/
def lcTop (s : State) : Nat :=
  match topSlot s (fun f => decide (f ≠ 0)) with
  | some k => lcSlot s k
  | none => 0

/-- The marks of the highest used slot: `BEGUN`, `STORE_ERASED`, `DONE`. -/
def lcMarks (s : State) : Nat := bitsN (lcTop s) 5 3

/-- The transitions of Table 17-2. -/
def lcPermits (from_ to_ : Nat) : Bool :=
  match from_ with
  | 0 => to_ == 1 || to_ == 4
  | 1 => to_ == 2 || to_ == 4
  | 2 => to_ == 3 || to_ == 4
  | 3 => to_ == 1 || to_ == 4
  | _ => false

/-- The transition that the fuses say is to be resumed (R478): the highest used slot has `BEGUN` without `DONE`. -/
def lcResume (s : State) : Option Transition :=
  match topSlot s (fun f => decide (f ≠ 0)) with
  | some k =>
    if bitN (lcSlot s k) 3 && !bitN (lcSlot s k) 5 then some { target := bitsN (lcSlot s k) 2 0 - 1, slot := k } else none
  | none => none

/-! ### Registers (R487) -/

/-- `LCS_STATE`; the checks of a request end within the write's command, so `CHECKING` reads 0 (assumption 6). -/
def lcsState (s : State) : Nat :=
  b2n s.lc.trans.isSome * 2 ^ 31 + ((s.lc.trans.map (·.target)).getD 0) * 2 ^ 24 + lcUsed s * 2 ^ 16 + lcMarks s * 2 ^ 8 +
  lcState s

/-- The rights of the installed certificate are suspended (R483). -/
def lcSuspended (s : State) : Bool := s.lc.cert.isSome && s.scorch.locked && !lcOpen s

/-- `LCS_DEBUG`. -/
def lcsDebug (s : State) : Nat :=
  b2n s.lc.cert.isSome * 2 ^ 31 + b2n (lcSuspended s) * 2 ^ 30 + debugRights s

/-! ### The request (R469, R472, R473) -/

/-- A firmware trial is in force (R456). -/
def trialOn (s : State) : Bool := (s.boot.ctl.map (·.trial)).getD false

/-- The checks of Table 17-4 in their order; the status, `OK` when all pass. -/
def lcCheck (s : State) (target entry : Nat) : Nat :=
  if !s.tortin.ready || s.tortin.server != 3 || s.boot.mend then 0x0D05
  else if s.lc.trans.isSome then 0x0D03
  else if !lcPermits (lcState s) target then 0x0D01
  else match lcFree s target with
    | none => 0x0D02
    | some k =>
      if s.seam.role != .alone then 0x0D04
      else if s.scorch.locked && decide (target < 3) then stLocked
      else if trialOn s then 0x0C05
      else match tblFind entry s.keys.pend with
        | none => 0x0301
        | some e =>
          if e.owner ≠ 0 ∨ e.cls ≠ qCustodian ∨ e.kind ≠ 1 then 0x0301
          else if !pendInTime s e (nowStamp s) then stExpired
          else if byteAt e.body 24 ≠ lcState s ∨ byteAt e.body 25 ≠ target ∨ byteAt e.body 26 ≠ k ∨
              leAt e.body 32 8 ≠ s.dev.serial.toNat then 0x0305
          else if !pendEnough s e || e.reserved.isSome then stQuorum
          else stOk

/-- Every port is disabled (R474 step 1). -/
def portsOff (s : State) : State :=
  (List.range 256).foldl (fun s p =>
    if bitOf (regGet s (aLnk p 4)) 31 then portSetCfg s p (putBit (regGet s (aLnk p 4)) 31 false) else s) s

/-- A write of `LCS_REQ`: the checks, the outcome in `LCS_RESULT`, and the start of an accepted transition. -/
def lcsReq (s : State) (v : Word) : State :=
  let target := fieldOf v 2 0
  let entry := fieldOf v 31 16
  let st := lcCheck s target entry
  let s1 := sqcSet (regPut s aLcsResult (BitVec.ofNat 32 st)) aLcsEvt 0
  if st ≠ stOk then tallyPut s1 agThm 0x0D80 [(0x0A, st)]
  else
    let old := lcState s
    let s2 := sqcSet (pendPut s1 entry none) aLcsEvt 1
    let s3 := { s2 with lc := { s2.lc with trans := some { target := target, slot := (lcFree s target).getD 0 } } }
    let s4 := scorchLog (tallyPut s3 agThm 0x0D81 [(0x13, old), (0x13, target)]) logTransition 0 6 0 0 (old + 256 * target)
    thmPost (portsOff s4) { op := 0x12, tag := 0, nums := [1] }

/-- `LCS_REQ_WRITE`. While a transition runs the request is checked like any other, and ends with `LC_IN_PROGRESS` (Table 17-4). -/
def execLcsReqWrite (value : Word) (s : State) : Host.Outcome State Fault Refusal :=
  .next (if s.pwr.vault then s
    else hostMeets s 0 (.lcsReq value) (fun s => lcsReq s value))

/-! ### Debug certificates (R480 to R484) -/

/-- The key digest of a vendor key pair (R445). -/
def vendorDigest (ec ml : List Byte) : List Byte := bytesAt (Config.sha384 (ec ++ ml)) 0 48

/-- The keys are those of a vendor slot that is not revoked (R445). -/
def vendorOk (s : State) (slot : Nat) (ec ml : List Byte) : Bool :=
  match s.boot.vendor[slot]? with
  | some v => v.digest == vendorDigest ec ml && !v.revoked
  | none => false

/-- Both vendor signatures verify over a message, ML-DSA-87 under a context string (R444, R480). -/
def vendorSigned (ec ml msg sigs : List Byte) (context : String) : Bool :=
  publicValid 0x91 0 ec && sigVerifies (sigScheme 0x11 1 2 false 0) ec msg [] (bytesAt sigs 0 96) &&
  sigVerifies (sigScheme 0x39 5 0 false 0) ml msg (ascii context) (bytesAt sigs 96 4627)

/-- The layout of Table 17-6, with rights that a certificate can give (R481). -/
def certForm (b : List Byte) : Bool :=
  bytesAt b 0 8 == ascii "NBDBGCR1" && byteAt b 8 == 1 && decide (byteAt b 9 < 4 ∧ leAt b 10 2 = 0 ∧ leAt b 12 4 < 0x200) &&
  decide (leAt b 45 3 = 0 ∧ leAt b 56 8 = 0 ∧ leAt b 161 31 = 0 ∧ leAt b 2784 32 = 0) &&
  [0, 2, 4, 6].contains (byteAt b 44)

/-- The certificate's signatures and its vendor keys. -/
def certSigned (s : State) (b : List Byte) : Bool :=
  let ec := bytesAt b 64 97
  let ml := bytesAt b 192 2592
  vendorSigned ec ml (bytesAt b 0 2816) (bytesAt b 2816 4723) "ILASKUST-NB-DEBUG" && vendorOk s (byteAt b 9) ec ml

/-- The summary that Thimble keeps (R481). -/
def certOf (b : List Byte) : DebugCert :=
  { rights := leAt b 12 4, serial := BitVec.ofNat 64 (leAt b 16 8), notBefore := BitVec.ofNat 64 (leAt b 24 8)
    notAfter := BitVec.ofNat 64 (leAt b 32 8), bootLimit := leAt b 40 4, states := byteAt b 44
    ident := BitVec.ofNat 64 (leAt b 48 8), digest := bytesAt (Config.sha384 b) 0 48 }

/-- The calendar window and the boot count of a certificate (R481). -/
def certInTime (s : State) (k : DebugCert) : Bool :=
  !bitOf (regGet s aTimeSrcStat) 7 && decide (k.notBefore.toNat ≤ (nowCt s).toNat ∧ (nowCt s).toNat ≤ k.notAfter.toNat) &&
  decide (s.lc.bootCnt.toNat ≤ k.bootLimit)

/-- The certificate names this device, or another member of its group (R481, R484). -/
def certNamed (s : State) (k : DebugCert) : Bool :=
  k.serial == s.dev.serial || (inGroup s && (seamOthers s).any (fun m => (seamPeer s m).serial == k.serial))

/-- The status of a certificate's checks, in the order of R481. -/
def certCheck (s : State) (b : List Byte) : Nat :=
  let k := certOf b
  if !certForm b || !certSigned s b || !certNamed s k || !bitN k.states (lcState s) then 0x0D06
  else if k.serial = s.dev.serial ∧ !certInTime s k then stExpired
  else stOk

/-- The rights of the summary come into force (R481, R482). -/
def certStart (s : State) : State :=
  if s.lc.cert.isSome && !s.lc.certOn then sqcSet { s with lc := { s.lc with certOn := true } } aLcsEvt 4 else s

/-- Thimble rechecks the summary at a start (R482): it goes into force, or it is withdrawn. While `TIME_UNSET` is set the window
cannot be checked, and no right is in force. -/
def certRecheck (s : State) : State :=
  match s.lc.cert with
  | none => s
  | some k =>
    let unset := bitOf (regGet s aTimeSrcStat) 7
    if k.serial ≠ s.dev.serial ∨ !bitN k.states (lcState s) ∨ (!unset && !certInTime s k) ∨
        k.bootLimit < s.lc.bootCnt.toNat then certWithdraw s
    else certStart { s with lc := { s.lc with certOn := false } }

/-- `DEBUG_CERT_EXPIRY`: CT has passed not-after (R482). -/
def execDebugCertExpiry (s : State) : Host.Outcome State Fault Refusal :=
  match s.lc.cert with
  | none => .next s
  | some k =>
    .next (if !bitOf (regGet s aTimeSrcStat) 7 && decide (k.notAfter.toNat < (nowCt s).toNat) && !s.pwr.vault then
      certWithdraw s else s)

/-! ### Thimble's operation `LC` (R474) -/

/-- Steps 2 and 3 of an accepted transition: the target code and `BEGUN` burned, the roots, the group key and the certificate
erased. -/
def lcBegin (s : State) (t : Transition) : State :=
  let s1 := lcBurn (lcBurn s t.slot (t.target + 1)) t.slot 8
  certWithdraw { s1 with keys := { s1.keys with roots := [] }, seam := { s1.seam with key := [] } }

/-- Main power fails while the target bits burn: the slot is void (R477). -/
def lcCut (s : State) (t : Transition) : State :=
  let s1 := lcBurn s t.slot (t.target + 1)
  enterVault { s1 with lc := { s1.lc with trans := none } }

/-- `THM_LC`: kind 1 a transition, 2 the installation of a certificate, 3 its withdrawal. -/
def execThmLc (cut : Bool) (s : State) : Host.Outcome State Fault Refusal :=
  thmServe s 0x12 (fun r s =>
    match r.nums.headD 0 with
    | 1 =>
      match s.lc.trans with
      | none => thmAnswer s r stOk
      | some t =>
        if bitN (lcSlot s t.slot) 3 then thmAnswer s r stOk
        else if cut then lcCut s t
        else thmAnswer (lcBegin s t) r stOk 0 [1]
    | 2 => thmAnswer { s with lc := { s.lc with cert := some (certOf r.data), certOn := false } } r stOk 0 [2]
    | _ => thmAnswer (certWithdraw s) r stOk 0 [3])

/-- The answer to `LC` ends the command that waits for it; a new certificate's rights come into force (R481). -/
def lcDone (s : State) (tag : Nat) (r : ThmRsp) : State :=
  if r.status ≠ stOk then endAfter s tag r.status
  else if r.nums.headD 0 = 2 then
    let s1 := certStart s
    endOk s1 tag 0 (BitVec.ofNat 64 (debugRights s1))
  else endOk s tag

/-! ### Commands (R485) -/

/-- The member that `DEBUG.REVOKE` names exists: alone 0 or 0xFF. -/
def revokeForm (s : State) (m : Nat) : Bool := if inGroup s then decide (m ≤ 2 ∨ m = 0xFF) else decide (m = 0 ∨ m = 0xFF)

/-- The catalogue's entries of the 0x0D01 to 0x0D03 commands. -/
def specLc (s : State) (c : Cmd) : Option CmdSpec :=
  let own0 := cOwner s c == 0
  match cOp c with
  | 0x0D01 => some { zero := noKeys c && parZero c [(52, 12)], outMax := 64 }
  | 0x0D02 => some {
      zero := noKeys c && parZero c [(52, 12)], inMin := 7539, inMax := 7539, issuer := own0, quorum := some (0, qCustodian)
      thm := true }
  | 0x0D03 => some {
      zero := noKeys c && parZero c [(53, 11)], form := revokeForm s (par c 52 1), issuer := own0, thm := true
      early := if inGroup s && decide (par c 52 1 ≠ 0xFF ∧ s.seam.size ≤ par c 52 1) then 0x0904 else stOk }
  | _ => none

/-- `LC.STATUS` result (Table 17-8). -/
def lcStatus (s : State) : List Byte :=
  let k := s.lc.cert
  leBytes 1 (lcState s) ++ leBytes 1 ((s.lc.trans.map (·.target)).getD 0xFF) ++ leBytes 1 (lcUsed s) ++
  leBytes 1 ((lcNext s).getD 0xFF) ++ leBytes 1 (lcMarks s) ++ zeros 3 ++ leBytes 8 s.dev.serial.toNat ++
  leBytes 4 s.lc.bootCnt.toNat ++ leBytes 2 (debugRights s) ++ leBytes 1 (b2n k.isSome + 2 * b2n (lcSuspended s)) ++ zeros 1 ++
  leBytes 8 ((k.map (·.ident.toNat)).getD 0) ++ leBytes 8 ((k.map (·.notAfter.toNat)).getD 0) ++
  leBytes 4 ((k.map (·.bootLimit)).getD 0) ++ leBytes 2 (regField s aLcsResult 15 0) ++ zeros 18

/-- `LC.STATUS`. -/
def execLcStatus (tag : Nat) (io : HostIO) (s : State) : Host.Outcome State Fault Refusal :=
  runCmd s tag 0x0D01 (fun _ s => endOut s tag io (lcStatus s))

/-- `DEBUG.INSTALL`: Mangle checks the certificate's signatures, and the device that it names installs it (R481, R484). -/
def execDebugInstall (tag : Nat) (io : HostIO) (s : State) : Host.Outcome State Fault Refusal :=
  runIn s tag 0x0D02 io (fun c bs s =>
    if c.work.step ≠ 0 then s
    else if mangleHas s tag then mangleSet s tag
    else if certCheck s bs ≠ stOk then endAfter s tag (certCheck s bs)
    else if (certOf bs).serial ≠ s.dev.serial then endOk s tag 0 (BitVec.ofNat 64 (debugRights s))
    else thmAsk s tag c { op := 0x12, tag := 0, nums := [2], data := bs })

/-- `DEBUG.REVOKE`. -/
def execDebugRevoke (tag : Nat) (s : State) : Host.Outcome State Fault Refusal :=
  runCmd s tag 0x0D03 (fun c s =>
    if c.work.step ≠ 0 then s
    else if inGroup s && decide (par c 52 1 ≠ 0xFF ∧ par c 52 1 ≠ s.seam.index) then endOk s tag
    else thmAsk s tag c { op := 0x12, tag := 0, nums := [3] })

/-! ### The factory memory test (R467) -/

/-- `MEM_TEST_START`: secrets are erased before the first pattern; the port reports the failing addresses. The device runs nothing
more until its next reset. -/
def execMemTestStart (fails : List Nat) (s : State) : Host.Outcome State Fault Refusal :=
  .next (if s.pwr.vault || s.lc.memTest || !bitN (debugRights s) 9 then s
    else
      let s1 := keysErase s
      let s2 := { s1 with
        lc := { s1.lc with memTest := true }
        tortin := { s1.tortin with ready := false, server := 0 }
        thm := { s1.thm with mode := .boot, reqs := [], answers := [] } }
      fails.foldl (fun s a => emit s (.jtag (BitVec.ofNat 64 a))) (emit s2 (.jtag (BitVec.ofNat 64 (b2n fails.isEmpty)))))

end Sys2Proof.Machine
end

