-- ==== Sys2Proof/Machine/Firmware.lean ====
section
/-! DEFINITION. Firmware packages, slots, the generation table, the 0x0Cxx commands, and the flash chips (spec 16, R443 to R446,
R450 to R461, R464). The start sequence stands in `Boot`. -/

namespace Sys2Proof.Machine

/-! ### Packages (Table 16-1) -/

def fpVendor (b : List Byte) : Nat := byteAt b 9
def fpSec (b : List Byte) : Nat := byteAt b 10
def fpThmLen (b : List Byte) : Nat := leAt b 24 4
def fpTorLen (b : List Byte) : Nat := leAt b 28 4
def fpBm0 (b : List Byte) : List Byte := bytesAt b 48 48
def fpBm1 (b : List Byte) : List Byte := bytesAt b 96 48
def fpSchema (b : List Byte) : Nat := leAt b 144 4
def fpLowest (b : List Byte) : Nat := leAt b 148 4
def fpThm (b : List Byte) : List Byte := bytesAt b 4096 (fpThmLen b)
def fpTor (b : List Byte) : List Byte := bytesAt b (4096 + fpThmLen b) (fpTorLen b)

/-- An image's length: its bounds, and a multiple of 256. -/
def imgLenOk (n top : Nat) : Bool := decide (4096 ≤ n ∧ n ≤ top ∧ n % 256 = 0)

/-- The header of a package, and its length, keep Table 16-1. -/
def fpForm (b : List Byte) : Bool :=
  bytesAt b 0 8 == ascii "NBFWPKG1" && byteAt b 8 == 1 &&
  decide (fpVendor b < 4 ∧ fpSec b < 64 ∧ byteAt b 11 < 2 ∧ byteAt b 12 < 16) &&
  imgLenOk (fpThmLen b) 786432 && imgLenOk (fpTorLen b) 3145728 &&
  decide (leAt b 152 104 = 0 ∧ leAt b 353 31 = 0 ∧ leAt b 2976 1120 = 0 ∧ b.length = 8819 + fpThmLen b + fpTorLen b)

/-- The vendor slots that a package's revocation request names. -/
def fpRevokes (b : List Byte) (i : Nat) : Bool := bitN (byteAt b 11) 0 && bitN (byteAt b 12) i

/-- A revocation request spares the package's own slot and leaves one slot unrevoked (R445). -/
def fpRevokeOk (s : State) (b : List Byte) : Bool :=
  !fpRevokes b (fpVendor b) &&
  (List.range 4).any (fun i => (s.boot.vendor[i]?).any (fun v => !v.revoked) && !fpRevokes b i)

/-- Both vendor signatures over the header (R444). -/
def fpSigned (b : List Byte) : Bool :=
  vendorSigned (bytesAt b 256 97) (bytesAt b 384 2592) (bytesAt b 0 4096)
    (bytesAt b (4096 + fpThmLen b + fpTorLen b) 4723) "ILASKUST-NB-FIRMWARE"

/-- The status of a package's checks against the digests of its images (R444 to R446). -/
def fpCheck (s : State) (b d0 d1 : List Byte) : Nat :=
  if !fpForm b || !fpSigned b || fpBm0 b != d0 || fpBm1 b != d1 then 0x0C02
  else if !vendorOk s (fpVendor b) (bytesAt b 256 97) (bytesAt b 384 2592) then 0x0C04
  else if !fpRevokeOk s b then 0x0C02
  else if fpSec b < s.boot.secMin then 0x0C03
  else stOk

/-- The digest of an image. -/
def imgDigest (b : List Byte) : List Byte := bytesAt (Config.sha384 b) 0 48

/-! ### Slots and the directory (R451) -/

/-- Slot 0 A, 1 B. -/
def fwSlot (s : State) (k : Nat) : FwSlot := if k = 0 then s.boot.slotA else s.boot.slotB

/-- A slot set. -/
def fwPut (s : State) (k : Nat) (x : FwSlot) : State :=
  if k = 0 then { s with boot := { s.boot with slotA := x } } else { s with boot := { s.boot with slotB := x } }

/-- The state of a slot in the directory. -/
def fwMark (s : State) (k : Nat) (m : SlotMode) : State := fwPut s k { fwSlot s k with mode := m }

/-- The package of a slot as it stands on a chip. -/
def fwCopy (s : State) (k chip : Nat) : List Byte := if chip = 0 then (fwSlot s k).pkg0 else (fwSlot s k).pkg1

/-- The package of a slot, from the first chip that serves. -/
def fwPkg (s : State) (k : Nat) : List Byte := if chipUp s.boot.chip0 then fwCopy s k 0 else fwCopy s k 1

/-- The running slot (R452), and the other one. -/
def fwRunning (s : State) : Nat := (s.boot.ctl.map (·.slot)).getD 0
def fwOther (s : State) : Nat := 1 - fwRunning s

/-- The boot control record changed. -/
def ctlMap (s : State) (f : BootCtl → BootCtl) : State := { s with boot := { s.boot with ctl := s.boot.ctl.map f } }

/-- Entries of a mode get another one. -/
def genMode (a b : GenMode) (gs : List GenEntry) : List GenEntry :=
  gs.map (fun g => if g.mode = a then { g with mode := b } else g)

/-- The entry of a mode. -/
def genOf (s : State) (m : GenMode) : Option GenEntry := ((s.boot.ctl.map (·.gens)).getD []).find? (fun g => g.mode == m)

/-- Every live record is written again under the running generation, so that no record remains that only a retired or abandoned generation's
keys verify, and those entries leave the table (R110, R453); where no chip takes the records, both stay. -/
def gensTidy (s : State) : State :=
  let k := chipsFree s
  let t := jrnMove k.2 k.1.1 k.1.2 (s.keys.jrn0 ++ s.keys.jrn1) [] []
  if (chipUp s.boot.chip0 && k.1.1) || (chipUp s.boot.chip1 && k.1.2) then
    ctlMap t (fun b => { b with gens := b.gens.filter (fun g => g.mode != .retired && g.mode != .abandoned) })
  else t

/-! ### The hand-over (R455 to R460) -/

/-- Commands that end with `FW_UNCONFIRMED` while a trial is in force (R456). -/
def trialBlocks (op : Nat) : Bool :=
  [0x0C01, 0x0C03, 0x0301, 0x0302, 0x0304, 0x0305, 0x0306, 0x0901, 0x0906].contains op

/-- Step 1: the entry of the next generation, PENDING. -/
def handPending (s : State) (k : Nat) : State :=
  let full := decide (4 ≤ ((s.boot.ctl.map (·.gens)).getD []).length)
  let s1 := if full then gensTidy s else s
  let p := fwPkg s k
  ctlMap s1 (fun b => { b with
    high := b.high + 1, gens := b.gens ++ [{ gen := b.high + 1, bm0 := fpBm0 p, bm1 := fpBm1 p, mode := .pending }] })

/-- Step 3: the vault write that names the slot as running, on trial. -/
def handTrial (s : State) (k : Nat) : State :=
  let s1 := ctlMap s (fun b => { b with gens := genMode .pending .trial b.gens, slot := k, trial := true, count := 0 })
  let s2 := fwMark (fwMark s1 (1 - k) .previous) k .trial
  { s2 with boot := { s2.boot with before := settingsNow s } }

/-- The answer to `HANDOVER` ends `FW.ACTIVATE`: the device resets after the completion. -/
def handDone (s : State) (tag : Nat) (c : Cmd) (r : ThmRsp) : State :=
  if r.status ≠ stOk then
    endAfter (ctlMap s (fun b => { b with gens := genMode .pending .abandoned b.gens })) tag r.status
  else
    let s1 := handTrial s (par c 52 1)
    endOk { s1 with tortin := { s1.tortin with resetTag := some tag } } tag 0
      (BitVec.ofNat 64 ((s1.boot.ctl.map (·.high)).getD 0))

/-- The vault write of a fallback (R460): the predecessor runs again, with its own settings area. -/
def fallback (s : State) : State :=
  let k := fwRunning s
  let pred := ((genOf s .running).map (·.gen)).getD 0
  let s1 := ctlMap s (fun b => { b with gens := genMode .trial .abandoned b.gens, slot := 1 - k, trial := false, count := 0 })
  let s2 := fwMark (fwMark s1 k .staged) (1 - k) .running
  let use := if s2.boot.area0.valid && s2.boot.area0.ksGen == pred then 0
    else if s2.boot.area1.valid && s2.boot.area1.ksGen == pred then 1 else s2.boot.inUse
  { s2 with boot := { s2.boot with inUse := use, revert := true } }

/-- Steps 2 to 4 of a confirmation (R459); a start that finds the mark repeats them. -/
def confirm (s : State) : State :=
  let k := fwRunning s
  let p := fwPkg s k
  let burn (i : Nat) (v : VendorSlot) : VendorSlot := if fpRevokes p i then { v with revoked := true } else v
  let vendor := (List.range s.boot.vendor.length).map (fun i => burn i (s.boot.vendor.getD i {}))
  let s1 := { s with boot := { s.boot with secMin := max s.boot.secMin (fpSec p), vendor := vendor } }
  let s2 := ctlMap s1 (fun b => { b with
    gens := genMode .trial .running (genMode .running .retired b.gens), trial := false, confirm := false })
  let s3 := fwMark (fwMark s2 (1 - k) .previous) k .running
  let none_ : SettingsArea := {}
  { s3 with boot := { s3.boot with
    area0 := if s3.boot.inUse = 0 then s3.boot.area0 else none_
    area1 := if s3.boot.inUse = 0 then none_ else s3.boot.area1
    before := {}, confirmCt := nowCt s } }

/-! ### Commands (R464) -/

/-- The catalogue's entries of the 0x0Cxx commands. -/
def specFw (s : State) (c : Cmd) : Option CmdSpec :=
  let own0 := cOwner s c == 0
  let k := par c 52 1
  let cust := some (0, qCustodian)
  let up := !s.boot.mend
  match cOp c with
  | 0x0C01 => some {
      zero := noKeys c && parZero c [(52, 12)], inMin := 17011, inMax := 8388608, issuer := own0, quorum := cust }
  | 0x0C02 => some {
      zero := noKeys c && parZero c [(53, 11)], form := decide (k < 2), outMax := 128, issuer := own0 }
  | 0x0C03 => some {
      zero := noKeys c && parZero c [(53, 11)], form := decide (k < 2 ∧ k ≠ fwRunning s), issuer := own0, quorum := cust
      thm := up, early := if (fwSlot s k).mode = .verified then stOk else 0x0C07 }
  | 0x0C04 => some {
      zero := noKeys c && parZero c [(52, 12)], issuer := own0, quorum := cust, thm := up
      early := if trialOn s then stOk else 0x0C06 }
  | 0x0C05 => some {
      zero := noKeys c && parZero c [(52, 12)], issuer := own0, quorum := cust, thm := up
      early := if trialOn s then stOk else 0x0C06 }
  | 0x0C06 => some { zero := noKeys c && parZero c [(52, 12)], outMax := 288 }
  | _ => none

/-- A slot record (Table 16-8): zeros from byte 1 on where the slot is empty. -/
def slotRecord (s : State) (k : Nat) : List Byte :=
  let x := fwSlot s k
  let b := fwPkg s k
  if x.mode = .empty then zeros 128
  else
    leBytes 1 x.mode.code ++ bytesAt b 9 3 ++ bytesAt b 16 8 ++ leBytes 4 b.length ++ bytesAt b 13 1 ++ zeros 1 ++
    bytesAt b 14 2 ++ bytesAt b 144 8 ++ zeros 4 ++ bytesAt b 48 96

/-- `FW.STAGE`: the package is read once, its header checked, and its writing begins. -/
def execFwStage (tag : Nat) (io : HostIO) (s : State) : Host.Outcome State Fault Refusal :=
  runIn s tag 0x0C01 io (fun c b s =>
    if c.work.step ≠ 0 then s
    else if !fpForm b then endAfter s tag 0x0C02
    else setWork s tag { step := 1, bytes := b })

/-- The package stands on the chips `w0`, `w1`: the slot is staged, or invalid where neither took it. -/
def stageDone (s : State) (tag : Nat) (c : Cmd) (w0 w1 : Bool) : State :=
  let b := c.work.bytes
  let k := fwOther s
  if !w0 && !w1 then endAfter (fwPut s k { mode := .invalid }) tag 0x0C08
  else
    let x : FwSlot := { mode := .staged, pkg0 := if w0 then b else [], pkg1 := if w1 then b else [] }
    endOk (fwPut s k x) tag 0 (BitVec.ofNat 64 k)

/-- `FW.VERIFY`: R444 to R446 on the slot as stored on each chip that serves, once Mangle's two operations over the package's signatures have run. -/
def execFwVerify (tag : Nat) (io : HostIO) (s : State) : Host.Outcome State Fault Refusal :=
  runCmd s tag 0x0C02 (fun c s =>
    let k := par c 52 1
    if mangleHas s tag then mangleSet s tag else
    let check (chip : Nat) : Nat :=
      let b := fwCopy s k chip
      if chipUp (chipMode s chip) then fpCheck s b (imgDigest (fpThm b)) (imgDigest (fpTor b)) else stOk
    let st := if !chipUp s.boot.chip0 && !chipUp s.boot.chip1 then 0x0C02
      else if check 0 ≠ stOk then check 0 else check 1
    let m := (fwSlot s k).mode
    let free := m == .staged || m == .verified || m == .invalid || m == .empty
    let s1 := if !free then s else fwMark s k (if st = stOk then .verified else .invalid)
    if st = stOk then endOut s1 tag io (slotRecord s1 k) else endAfter s1 tag st)

/-- `FW.ACTIVATE`: the hand-over, or under Mend the naming of the slot alone (R455, R463). -/
def execFwActivate (tag : Nat) (s : State) : Host.Outcome State Fault Refusal :=
  runCmd s tag 0x0C03 (fun c s =>
    let k := par c 52 1
    if c.work.step ≠ 0 then s
    else if s.boot.mend then
      let (v, s1) := freeWord (fwMark (fwMark (ctlMap s (fun b => { b with slot := k })) (1 - k) .previous) k .running)
      endOk { s1 with tortin := { s1.tortin with resetTag := some tag }, boot := { s1.boot with leave := true } } tag 0
        (BitVec.ofNat 64 (v.toNat % 2 ^ 32))
    else if !thmRoom s then s
    else
      let s1 := handPending s k
      thmAsk s1 tag c { op := 0x10, tag := 0, nums := [(s1.boot.ctl.map (·.high)).getD 0]
                        data := fpBm0 (fwPkg s k) ++ fpBm1 (fwPkg s k) })

/-- `FW.CONFIRM` (R459). -/
def execFwConfirm (tag : Nat) (s : State) : Host.Outcome State Fault Refusal :=
  runCmd s tag 0x0C04 (fun _ s =>
    let s1 := confirm (ctlMap s (fun b => { b with confirm := true }))
    endOk s1 tag 0 (BitVec.ofNat 64 s1.boot.secMin))

/-- `FW.FALLBACK` (R460): the device resets after the completion. -/
def execFwFallback (tag : Nat) (s : State) : Host.Outcome State Fault Refusal :=
  runCmd s tag 0x0C05 (fun _ s =>
    let s1 := fallback s
    endOk { s1 with tortin := { s1.tortin with resetTag := some tag } } tag)

/-- `FW.STATUS` result (Table 16-7). -/
def fwStatus (s : State) : List Byte :=
  let b : BootCtl := s.boot.ctl.getD {}
  let rev := ((List.range 4).map (fun i => b2n ((s.boot.vendor.getD i {}).revoked) * 2 ^ i)).foldl (· + ·) 0
  let area := if s.boot.inUse = 0 then s.boot.area0 else s.boot.area1
  leBytes 1 b.slot ++ leBytes 1 (b2n b.trial) ++ leBytes 1 b.count ++ leBytes 1 s.boot.lastStart ++ leBytes 1 s.boot.secMin ++
  leBytes 1 rev ++ leBytes 1 s.boot.chip0.code ++ leBytes 1 s.boot.chip1.code ++ leBytes 4 s.boot.ksGen ++ leBytes 4 b.high ++
  leBytes 4 area.schema ++ leBytes 1 s.boot.inUse ++ leBytes 1 s.boot.ksCause ++ zeros 2 ++ leBytes 8 s.boot.confirmCt.toNat ++
  slotRecord s 0 ++ slotRecord s 1

/-- `FW.STATUS`. -/
def execFwStatus (tag : Nat) (io : HostIO) (s : State) : Host.Outcome State Fault Refusal :=
  runCmd s tag 0x0C06 (fun _ s => endOut s tag io (fwStatus s))

/-! ### Flash chips (R107, R451, R532, R533) -/

/-- The chips that take an operation; one that fails is noted (R107). -/
def chipsNote (s : State) (ok0 ok1 : Bool) : State := jrnFailed s ok0 ok1

/-- The started command that waits for a flash operation. -/
def flashTag (s : State) (op : Nat) : Option (Nat × Cmd) :=
  s.tortin.tracker.find? (fun e => e.2.stage == .started && cOp e.2 == op && e.2.work.step == 1)

/-- `FLASH_OPERATION_DONE`: a page of a Tally flush, a staged package, a program image or a settings record. -/
def execFlashOperationDone (job : FlashJob) (ok0 ok1 : Bool) (s : State) : Host.Outcome State Fault Refusal :=
  let w0 := ok0 && chipUp s.boot.chip0
  let w1 := ok1 && chipUp s.boot.chip1
  .next (if s.pwr.vault then s
    else match job with
    | .tally =>
      if s.tally.flush.isNone then s
      else if w0 != w1 then chipsNote (flushPage s ok0 ok1) ok0 ok1
      else flushPage s ok0 ok1
    | .stage => match flashTag s 0x0C01 with
      | some (tag, c) => stageDone (chipsNote s ok0 ok1) tag c w0 w1
      | none => s
    | .program => match flashTag s 0x0E01 with
      | some (tag, c) => progStored (chipsNote s ok0 ok1) tag c w0 w1
      | none => s
    | .settings => chipsNote s ok0 ok1)

/-- Every area of the other chip is copied to a chip. -/
def chipCopy (s : State) (chip : Nat) : State :=
  let sl (x : FwSlot) : FwSlot := if chip = 0 then { x with pkg0 := x.pkg1 } else { x with pkg1 := x.pkg0 }
  let pr (p : Program) : Program := if chip = 0 then { p with img0 := p.img1 } else { p with img1 := p.img0 }
  { s with
    boot := { s.boot with slotA := sl s.boot.slotA, slotB := sl s.boot.slotB }
    keys := if chip = 0 then { s.keys with jrn0 := s.keys.jrn1 } else { s.keys with jrn1 := s.keys.jrn0 }
    tally := if chip = 0 then { s.tally with flash0 := s.tally.flash1, skip0 := false }
      else { s.tally with flash1 := s.tally.flash0, skip1 := false }
    needle := { s.needle with progs := tblMap pr s.needle.progs } }

/-- A chip's mode set. -/
def chipSet (s : State) (chip : Nat) (m : ChipMode) : State :=
  let s1 := { s with boot := { s.boot with probeAt := s.time.clk } }
  if chip = 0 then { s1 with boot := { s1.boot with chip0 := m } } else { s1 with boot := { s1.boot with chip1 := m } }

/-- `FLASH_CHIP_PROBE` (R451): 60 s after the last one a failed chip is probed; a pass begins the copy of every area from the good
chip, and the same row then ends the copy. -/
def execFlashChipProbe (chip : Nat) (ok : Bool) (s : State) : Host.Outcome State Fault Refusal :=
  let other := chipMode s (1 - chip % 2)
  .next (if s.pwr.vault then s
    else match chipMode s chip with
    | .faulty =>
      if s.time.clk < s.boot.probeAt + 60 * cycS ∨ other ≠ .good then s
      else if ok then chipCopy (chipSet s chip .copying) chip else chipSet s chip .faulty
    | .copying =>
      if !ok then chipFail s chip
      else
        let s1 := chipSet s chip .good
        { s1 with tally := { s1.tally with degraded := false } }
    | _ => s)

end Sys2Proof.Machine
end

