-- ==== Sys2Proof/Machine/Boot.lean ====
section
/-! DEFINITION. What a power-on reset and a device reset leave, and the start sequence (spec 16, R441, R442, R447, R448, R453, R457
to R459, R462; spec 20, R540 to R543, R548). -/

namespace Sys2Proof.Machine

/-! ### What a reset leaves (Table 20-2) -/

/-- The counters of the host-visible blocks, which a device reset clears; `DEV` keeps its own, and `SCR_EVT_CNT` and `TLY_FLUSHED` count since
power-on reset (15_registers.md before R437; R227, R437, R439, R539). -/
def regCounts (a : Nat) : Bool :=
  [aMbxRefused, aTlyDropped, aHmpDfree, aHmpFfree, aHmpDrop, aHmpEcc, aQueTaintRef, aSeamHbMiss, aSeamNakCnt, aSeamAuthFail, aSeamUndup,
    aSeamFenceCnt].contains a ||
  decide (aRngPool ≤ a ∧ a < aRngTestCtrl) ||
  decide (aLnk 0 0 ≤ a ∧ a < aPci 0 0 ∧ 0x100 ≤ a % 0x1000) ||
  decide (aPci 0 0 ≤ a ∧ a < aPci 2 0 ∧ 0xC ≤ a % 0x40 ∧ a % 0x40 < 0x28)

/-- The registers that a device reset returns to their reset values because their own chapters say so: the Hem regions and `HEM_CTL` (R409, R410),
the secure pins (R418), the core registers (Table 13-17), and Thimble's registers and mailbox (R404, R441). -/
def regRestarts (a : Nat) : Bool :=
  decide (aHem 0 0 ≤ a ∧ a < aHem 20 0 ∧ (a % 0x400 = 0 ∨ 0x100 ≤ a % 0x400)) || a == aGpio 0x18 ||
  decide (aNdl 0 0 ≤ a ∧ a < aThm 0x8000 ∧ a ≠ aThm 0x1C ∧ a ≠ aThm 8)

/-- A device reset clears the enable of every field port, which stays idle until Tortin enables it again (R267). -/
def portsStop (s : State) : State :=
  (s.regs.file.filter (fun e => decide (aLnk 0 0 ≤ e.1 ∧ e.1 < aPci 0 0 ∧ e.1 % 0x1000 = 4))).foldl (fun s e => regSetBit s e.1 31 false) s

/-- Registers that a reset leaves as they stand. A device reset leaves every register that no chapter says otherwise of (R6, R437, R542); a power-on
reset leaves the GPIO levels, which the pins give. -/
def regStays (power : Bool) (a : Nat) : Bool := if power then a == aGpio 0 else !regCounts a && !regRestarts a

/-- The Seam after a reset: a member whose root vault holds a group key tries to rejoin (R330). -/
def seamAfter (s : State) : SeamState :=
  let x := s.seam
  if x.key.isEmpty then
    { quorum := x.quorum, solo := x.solo, formXs := x.formXs, formKs := x.formKs, formX := x.formX, formK := x.formK }
  else
    { role := .forming, index := x.index, size := x.size, term := x.term, group := x.group, key := x.key, quorum := x.quorum
      solo := x.solo, formAt := s.time.clk, peers := x.peers.map (fun p => { serial := p.serial }) }

/-- The Tally after a device reset (R522, R531): appends that wait are dropped, and slots without a valid mark freed, each an abandoned one; what was
staged while the domain slept is stored. -/
def tallyAfter (s : State) : State :=
  let n := tallyWaiting s
  let left := tblCount (fun (x : TallySlot) => !x.valid) s.tally.slots
  let s1 := { s with tally := { s.tally with
    ports := [], flush := none, dropped := s.tally.dropped || decide (n ≠ 0), abandoned := satAdd32 s.tally.abandoned left
    slots := s.tally.slots.filter (fun e => e.2.valid) } }
  tallyUnstage (if n = 0 then s1 else regAdd s1 aTlyDropped n)

/-- The state that both kinds of reset leave, before what each adds. -/
def resetBase (s : State) (power : Bool) : State :=
  let down : FnState := { linkUp := false }
  { pending := s.pending, out := s.out, draws := s.draws
    time := s.time
    pwr := { fastLast := s.time.clk, idleLast := s.time.clk, wakeAt := if power then 0 else s.pwr.wakeAt }
    regs := { (if power then {} else s.regs) with file := tblKeep (fun a _ => regStays power a) s.regs.file }
    hamper := if power then {} else { opArg := s.hamper.opArg, opRes := s.hamper.opRes }
    dma := if power then {} else { s.dma with chans := tblMap (fun x => { x with frozen := false }) s.dma.chans }
    dev := { s.dev with thmFailed := false, sram := if power then [] else s.dev.sram, cpExc := 0, restartDue := false }
    agentSeq := if power then [] else s.agentSeq
    fn0 := down, fn1 := down
    tortin := { saveCnt := if power then 0 else s.tortin.saveCnt, mbx := if power then {} else { s.tortin.mbx with busy := false, dup := [] } }
    tally := s.tally
    scorch := s.scorch
    keys := {
      roots := s.keys.roots, highMark := s.keys.highMark, nextSeq := s.keys.nextSeq, jrn0 := s.keys.jrn0, jrn1 := s.keys.jrn1
      owners := s.keys.owners, held := s.keys.held, instance_ := s.keys.instance_
      unsetTold := if power then false else s.keys.unsetTold }
    seam := seamAfter s
    links := linksAfter s.links
    rng := { cfg := s.rng.cfg, pers := s.rng.pers }
    thm := { bundles := s.thm.bundles }
    boot := { s.boot with
      step := .fuses, staged0 := [], staged1 := [], bm0 := [], bm1 := [], ksCause := 1, ksGen := 0, leave := false, revert := false
      saved := if s.boot.revert then s.boot.before else settingsNow s
      before := if s.boot.revert then {} else s.boot.before }
    lc := { s.lc with
      bootCnt := satAdd32 s.lc.bootCnt 1, memTest := false, cpHalt := false, pwrHold := false, certOn := false, trans := none } }

/-- A device reset (R541, R542, R548): FAREWELL first; then everything that Table 20-2 says is lost is lost. `Mend` stays, and three
resets in a row before READY lead to it (R462). -/
def deviceReset (s0 : State) : State :=
  let s := seamFarewell s0 .reset
  let s1 := tallyAfter (portsStop (resetBase s false))
  let early := if s.boot.step ≠ .done && !trialOn s then s.boot.early + 1 else s.boot.early
  let mend := s.boot.mend && !s.boot.leave
  let s2 := { s1 with
    dev := { s1.dev with resetAt := nowStamp s }
    boot := { s1.boot with mend := mend, early := if mend then 0 else early, lastStart := if mend then s.boot.lastStart else 0 } }
  let n := regField s2 aDevResetCnt 15 0
  let s3 := regSetField (regSetField s2 aDevResetCnt 15 0 (min 0xFFFF (n + 1))) aPwrState 4 0 0
  faultPin (sqcSet (regSetBit s3 aTimeSrcStat 8 false) aDevEvt 5)

/-- A power-on reset ends (R24, R38, R543): a new epoch, the Stamp at zero, calendar time from the RTC, the straps sampled. -/
def powerOnReset (s : State) (strap : Nat) (bifur : Bool) : State :=
  let unset := bitOf (regGet s aTimeSrcStat) 7 || s.scorch.fresh
  let old := s.time.epoch.toNat
  let e : BitVec 16 := s.time.epoch + 1
  let s1 := resetBase s true
  let s2 := { s1 with
    time := { clk := s1.time.clk, epoch := e, rtc := s.time.rtc, rtcPart := s.time.rtcPart
              ptpPort := s.time.ptpPort, ptpDomain := s.time.ptpDomain, ppsWidth := s.time.ppsWidth, groupSrc := s.time.groupSrc }
    dev := { s1.dev with bifur := bifur, stuck := false, resetLow := none, resetHigh := 0, dogAt := none, resetAt := 0, restartAt := 0 }
    scorch := { s1.scorch with supplyWarn := false, railLow := false, pfw := false, tempWarn := false }
    boot := { s1.boot with strap := strap, mend := strap == 1, early := 0, lastStart := if strap = 1 then 4 else 0 } }
  let s3 := tallyReload (regSetBit (regPut s2 aTimeEpoch (BitVec.ofNat 32 e.toNat)) aTimeSrcStat 7 unset)
  let s4 := regPut64 s3 aTimeCtBaseLo aTimeCtBaseHi s.time.rtc
  let s5 := if s4.seam.key.isEmpty then formationDraw s4 else s4
  let s6 := epochNote s5 old e.toNat
  faultPin (if strap = 2 ∨ strap = 3 then tallyPut s6 agThm 0x0183 [(0x0F, strap)] else s6)

/-! ### Steps 1 to 3 (R441, R447, R458, R459, R462, R478) -/

/-- Mend takes over (R462, R463), with the cause that `FW.STATUS` reports. -/
def enterMend (s : State) (cause : Nat) : State :=
  { s with
    tortin := { s.tortin with server := 2, ready := false }
    boot := { s.boot with mend := true, step := .done, lastStart := cause, ksCause := 4, ksGen := 0, bm0 := [], bm1 := [] } }

/-- An automatic fallback (R458): the vault write, and a device reset. -/
def autoFallback (s : State) (cause : Nat) : State :=
  let s1 := tallyDrain (tallyPut (fallback s) agThm 0x0C80 [(0x0F, cause)])
  let s2 := deviceReset s1
  { s2 with boot := { s2.boot with lastStart := cause, early := 0 } }

/-- The chip from which a copy begins. -/
def bootChip (s : State) : Nat := if chipUp s.boot.chip0 then 0 else 1

/-- A slot verifies as it stands on either chip (R447). -/
def slotVerifies (s : State) (k : Nat) : Bool :=
  [0, 1].any (fun chip => let b := fwCopy s k chip
    chipUp (chipMode s chip) && fpCheck s b (imgDigest (fpThm b)) (imgDigest (fpTor b)) == stOk)

/-- The slot that a normal start takes: the boot control record's, the one that the directory marks running, or the lowest that
verifies. -/
def chooseSlot (s : State) : Option Nat :=
  match s.boot.ctl with
  | some b => some b.slot
  | none =>
    ([0, 1].find? (fun k => (fwSlot s k).mode == .running)).or ([0, 1].find? (slotVerifies s))

/-- Step 3, and the count of trial starts. -/
def startChoose (s : State) : State :=
  if s.boot.mend then enterMend s s.boot.lastStart
  else if !trialOn s && decide (3 ≤ s.boot.early) then enterMend s 6
  else
    let s1 := if trialOn s then ctlMap s (fun b => { b with count := b.count + 1 }) else s
    if trialOn s1 && decide (4 ≤ (s1.boot.ctl.map (·.count)).getD 0) then autoFallback s1 2
    else match chooseSlot s1 with
      | none => enterMend s1 5
      | some k => { s1 with boot := { s1.boot with
          step := .copyThm k (bootChip s1), ctl := s1.boot.ctl.or (some { slot := k }) } }

/-- What the VBAT domain's loss leaves to this start (R482, R495): its record, source 0x28, and the certificate's end. -/
def vaultFresh (s : State) : State :=
  if !s.scorch.fresh then s
  else
    let (sev, s1) := freeSev { s with scorch := { s.scorch with fresh := false } }
    certWithdraw (fireFree (scorchLog s1 logVaultLost 0 sev 0 0 0) 0x28)

/-- Steps 1 and 2: the fuses and the boot control record are read; Lint starts, and the boot ROM serves the mailbox. A transition
that has begun resumes before step 3: the roots, the group key and the certificate are erased again. -/
def startFuses (s : State) : State :=
  let s1 := vaultFresh (chainUp s)
  let s2 := ctlMap s1 (fun b => { b with gens := genMode .pending .abandoned b.gens })
  let s3 := if (s2.boot.ctl.map (·.confirm)).getD false then confirm s2 else s2
  let s4 := lintBegin { s3 with tortin := { s3.tortin with server := 1 } } (lintOn s3)
  match lcResume s4 with
  | none => startChoose s4
  | some t =>
    let s5 := sqcSet { s4 with lc := { s4.lc with trans := some t } } aLcsEvt 3
    let s6 := lcBegin s5 t
    { s6 with boot := { s6.boot with step := .resume } }

/-! ### Steps 4 and 5 (R442, R444 to R447) -/

/-- `MEASURED_COPY_DONE`: an image has been copied, and its digest stands in the staging register. -/
def execMeasuredCopyDone (s : State) : Host.Outcome State Fault Refusal :=
  .next (if s.pwr.vault then s
    else match s.boot.step with
    | .copyThm k chip => { s with boot := { s.boot with
        staged0 := imgDigest (fpThm (fwCopy s k chip)), step := .copyTor k chip } }
    | .copyTor k chip => { s with boot := { s.boot with
        staged1 := imgDigest (fpTor (fwCopy s k chip)), step := .check k chip } }
    | _ => s)

/-- The package is checked; a failure leads to the other chip, to a fallback or to Mend. -/
def startCheck (s : State) (k chip : Nat) : State :=
  if fpCheck s (fwCopy s k chip) s.boot.staged0 s.boot.staged1 = stOk then
    { s with boot := { s.boot with bm0 := s.boot.staged0, bm1 := s.boot.staged1, step := .open_ k } }
  else if chip = 0 && chipUp s.boot.chip1 then { s with boot := { s.boot with step := .copyThm k 1 } }
  else if trialOn s then autoFallback s 3
  else enterMend s 5

/-! ### Step 6: the key store (R85, R99, R106 to R109, R114, R117, R453) -/

/-- An effective record applied to the objects, in rising order of sequence (R106, R108). -/
def jrnApply (t : Tbl KeyObj) (r : JRec) : Tbl KeyObj :=
  match r.kind with
  | .object h o =>
    tblPut (handleSlot h) { o with lease := 0, slice := 0xFFFF, destroying := none } t
  | .lease h rev left => match tblFind (handleSlot h) t with
    | some o => if keyHandle (handleSlot h) o = h ∧ o.revision = rev then tblPut (handleSlot h) { o with remaining := left } t else t
    | none => t
  | .destroy h _ => match tblFind (handleSlot h) t with
    | some o => if keyHandle (handleSlot h) o = h then tblDel (handleSlot h) t else t
    | none => t
  | _ => t

/-- The key store opens under a generation: the store keys of the active owners are unwrapped, and the persistent objects are placed at
their handles. -/
def storeLoad (s : State) (g : GenEntry) : State :=
  let rs := jrnEffective s
  let osks := rs.foldl (fun (t : Tbl (List Byte)) r => match r.kind with
    | .osk n k => if n = g.gen ∧ r.key = storeKey s g.bm0 g.bm1 r.owner g.gen ∧
        (r.owner = 0xFFFF ∨ (tblFind r.owner s.keys.owners).isSome) then tblPut r.owner k t else t
    | _ => t) []
  let objs := (rs.foldl jrnApply []).filter (fun e =>
    (tblFind e.2.owner osks).isSome && !bitN e.2.attrs kExpire)
  let top := (s.keys.jrn0 ++ s.keys.jrn1).foldl (fun n r => max n r.seq) 0
  { s with
    keys := { s.keys with
      osks := osks, objs := objs, gens := objs.map (fun e => (e.1, e.2.gen)), nextSeq := top + 1, highMark := max s.keys.highMark (jrnTop s)
      jrn0 := if chipUp s.boot.chip0 then jrnMend rs s.keys.jrn0 else s.keys.jrn0
      jrn1 := if chipUp s.boot.chip1 then jrnMend rs s.keys.jrn1 else s.keys.jrn1 }
    boot := { s.boot with ksCause := 0, ksGen := g.gen } }

/-- A missing root is generated, and the store starts empty (R117). The first generation of a life-cycle state is 1 (R100). -/
def rootMake (s : State) : State :=
  let (r, s1) := draw s 32
  let s2 := { s1 with
    keys := { s1.keys with roots := tblPut (lcState s) r s1.keys.roots, jrn0 := [], jrn1 := [], nextSeq := 1, highMark := 0 }
    scorch := { s1.scorch with vaultBad := false } }
  ctlMap s2 (fun b => if b.gens.isEmpty then
    { b with gens := [{ gen := 1, bm0 := s2.boot.bm0, bm1 := s2.boot.bm1, mode := .running }], high := max 1 b.high } else b)

/-- A store key that the journal does not hold is drawn and recorded (R100, R124, R453); where no chip takes its record there is none (R107). -/
def oskMake (s : State) (owner : Nat) : State :=
  if (tblFind owner s.keys.osks).isSome then s
  else
    let (k, s1) := draw s 32
    let s2 := { s1 with keys := { s1.keys with osks := tblPut owner k s1.keys.osks } }
    let key := if owner = 0xFFFF then seamStoreKey s2 else k
    match jrnTry s2 (fun s a b => jrnOsk s a b owner key k) with
    | (t, true) => t
    | (t, false) => { t with keys := { t.keys with osks := tblDel owner t.keys.osks } }

/-- The Thimble firmware opens the key store (R453, Table 16-4), rechecks the debug certificate, and answers the mailbox. -/
def startOpen (s0 : State) (k : Nat) : State :=
  let s := if s0.scorch.vaultBad then rootsErase s0 else s0
  let up (t : State) : State :=
    let t1 := certRecheck (thmMode t .ready)
    { t1 with boot := { t1.boot with step := .tortin k } }
  if lcState s = 4 then up (storeClose s 3)
  else
    let made := (rootNow s).isNone
    if made && !bobbinServes s then s0
    else
      let s1 := if made then rootMake s else s
      match ((s1.boot.ctl.map (·.gens)).getD []).find? (fun g =>
          g.bm0 == s1.boot.bm0 && g.bm1 == s1.boot.bm1 && (g.mode == .running || g.mode == .trial)) with
      | none => up (storeClose s1 1)
      | some g =>
        if jrnTampered s1 then
          up (scorchLog (tallyPut (storeClose s1 2) agThm 0x0481 [(0x0F, 2)]) logTamper 0 6 0 0 2)
        else up (storeLoad s1 g)

/-- `START_SEQUENCE`: the next step of the start, when nothing holds the reset (R441, R544). -/
def execStartSequence (s : State) : Host.Outcome State Fault Refusal :=
  .next (if s.pwr.vault || s.lc.memTest || (s.dev.resetLow.isSome && !s.dev.stuck) then s
    else match s.boot.step with
    | .fuses => startFuses s
    | .check k chip => startCheck s k chip
    | .open_ k => startOpen s k
    | _ => s)

/-! ### Step 7: Tortin (R409, R410, R418, R454, R457, R508) -/

/-- A Hem region: its first and last block and its attributes. -/
def hemSet (s : State) (c n lo hi attr : Nat) : State :=
  regPut (regPut (regPut s (aHem c (0x100 + 16 * n)) (BitVec.ofNat 32 lo)) (aHem c (0x104 + 16 * n)) (BitVec.ofNat 32 hi))
    (aHem c (0x108 + 16 * n)) (BitVec.ofNat 32 attr)

/-- Blocks of the Tortin code in CP SRAM: the image's length (R442). -/
def codeBlocks (s : State) (k : Nat) : Nat := fpTorLen (fwPkg s k) / 256

/-- The Hem regions that Tortin programs and locks (Table 14-9). -/
def hemProgram (s : State) (k : Nat) : State :=
  let rw := 0x80000003
  let n := codeBlocks s k
  let s1 := hemSet s 1 0 0x100000 (0x100000 + n - 1) 0x80000005
  let s2 := hemSet s1 1 1 (0x100000 + n) 0x103FFF rw
  let s3 := hemSet s2 2 0 0x400000 0x43FFFF (rw + 0x30 + 2 ^ 30)
  let any (p : Nat) : Nat := rw + p + 2 ^ 30
  let rows : List (Nat × Nat × Nat) := [
    (0x800000, 0x8000FF, rw), (0x800100, 0x800100, any 0x10), (0x800101, 0x8006FF, rw), (0x800700, 0x800700, any 0x10)
    , (0x800701, 0x8007FF, rw), (0x800800, 0x800800, any 0x30), (0x800801, 0x80FFFF, rw), (0x810000, 0x81003F, any 0x30)
    , (0x810040, 0x810AFF, rw)]
  let s4 := (List.range 9).foldl (fun s i => let r := rows.getD i (0, 0, 0); hemSet s 3 i r.1 r.2.1 r.2.2) s3
  let s5 := (List.range 16).foldl (fun s i => hemWindow s i none) s4
  [0, 1, 3].foldl (fun s c => regSetBit s (aHem c 0) 31 true) s5

/-- The owner set and the settings that an unlock approved are compared (R508): equal, they are admitted; otherwise owner 0's record
alone is, where the vault's digest confirms it. -/
def admitOwners (s : State) : State :=
  match s.scorch.approve with
  | none => s
  | some (a, b) =>
    let s1 := { s with scorch := { s.scorch with approve := none } }
    if a = ownerSetDigest s ∧ b = settingsDigestOf s then
      let s2 := { s1 with keys := { s1.keys with held := false }, boot := { s1.boot with saved := { s1.boot.saved with own := [] } } }
      s2.keys.owners.foldl (fun s e => oskMake s e.1) s2
    else
      let keep := match ownerGet s 0 with
        | some r => [(0, r)]
        | none => []
      let s2 := { s1 with keys := { s1.keys with held := false, owners := keep }, boot := { s1.boot with saved := {} } }
      keep.foldl (fun s e => oskMake s e.1) s2

/-- A store key is still to be drawn before Tortin serves: the device's own, or those of owners that an unlock approved. -/
def osksWait (s : State) : Bool :=
  (tblFind 0xFFFF s.keys.osks).isNone ||
    (s.scorch.approve.isSome && s.keys.owners.any (fun e => (tblFind e.1 s.keys.osks).isNone))

/-- The settings area in use. -/
def areaNow (s : State) : SettingsArea := if s.boot.inUse = 0 then s.boot.area0 else s.boot.area1

/-- An area set. -/
def areaPut (s : State) (k : Nat) (a : SettingsArea) : State :=
  if k = 0 then { s with boot := { s.boot with area0 := a } } else { s with boot := { s.boot with area1 := a } }

/-- The successor's first start: it has no settings area of its own yet (R457). -/
def firstStart (s : State) : Bool := trialOn s && (areaNow s).valid && (areaNow s).ksGen != s.boot.ksGen

/-- The settings are read: a store without an area gets one; a successor migrates its predecessor's to the other area. -/
def settingsRead (s : State) (k : Nat) : State :=
  let b := fwPkg s k
  let a := areaNow s
  if !a.valid then
    areaPut s s.boot.inUse { valid := true, schema := fpSchema b, count := a.count + 1, ksGen := s.boot.ksGen }
  else if firstStart s then
    let s1 := areaPut s (1 - s.boot.inUse) { valid := true, schema := fpSchema b, count := a.count + 1, ksGen := s.boot.ksGen }
    { s1 with boot := { s1.boot with inUse := 1 - s.boot.inUse } }
  else s

/-- The settings come into force: registers, the source of time, the random source, and the ports that are enabled. -/
def settingsStart (s : State) : State :=
  if settingsShut s then s
  else
    let s1 := settingsPut s s.boot.saved
    let s2 := rngConfig (regSetField s1 aTimeCtrl 2 0 s1.time.groupSrc) s1.rng.cfg
    (List.range 256).foldl portRetrain s2

/-- Every card that has a queue gets a new epoch (R281). -/
def rekeyAll (s : State) : State :=
  if s.seam.role != .alone then s
  else (s.links.cards.filter (fun e => !(cardQueues s e.1).isEmpty)).foldl (fun s e =>
    if rekeyRefusal s e.1 e.2 = stOk then rekeyAsk s e.1 e.2 none else s) s

/-- Tortin serves: READY, and what the first READY settles (R448, R458, R474). -/
def tortinServe (s : State) : State :=
  let s1 := { s with
    tortin := { s.tortin with ready := true, server := 3 }
    boot := { s.boot with step := .done, early := 0 } }
  let s2 := ctlMap s1 (fun b => { b with count := 0 })
  match s2.lc.from_ with
  | none => s2
  | some old =>
    tallyPut (sqcSet { s2 with lc := { s2.lc with from_ := none } } aLcsEvt 2) agThm 0x0D82 [(0x13, old), (0x13, lcState s2)]

/-- `TORTIN_READY`, which waits for Bobbin where store keys are still to be drawn (R214), and until a flash chip has taken the device's own (R107). A member of a group whose store opened takes its settings from the same store. -/
def execTortinReady (s : State) : Host.Outcome State Fault Refusal :=
  .next (if s.pwr.vault then s
    else match s.boot.step with
    | .tortin k =>
      let bad := firstStart s && !(decide (fpLowest (fwPkg s k) ≤ (areaNow s).schema ∧ (areaNow s).schema ≤ fpSchema (fwPkg s k)))
      if bad then autoFallback (tallyPut s agCp 0x0C01 [(0x0E, (areaNow s).schema)]) 1
      else
        if storeOpen s && osksWait s && !bobbinServes s then s else
        let s0 := if storeOpen s then oskMake s 0xFFFF else s
        if storeOpen s && (tblFind 0xFFFF s0.keys.osks).isNone then s0 else
        let s1 := if storeOpen s then admitOwners s0 else s0
        rekeyAll (tortinServe (settingsStart (hemProgram (settingsRead s1 k) k)))
    | _ => s)

end Sys2Proof.Machine
end

