-- ==== Sys2Proof/Machine/Resets.lean ====
section
/-! DEFINITION. The reset rows, the resets of one PCIe function, and the end of a life-cycle transition (spec 17, R474, R478; spec 20,
R540 to R549, R564). -/

namespace Sys2Proof.Machine

/-! ### The device's own resets -/

/-- `POWER_ON_RESET`: it ends with the straps sampled (R543, R552). While main supplies are present a fall of `PORST_N` acts first as
the entry into a device reset. -/
def execPowerOnReset (strap : Nat) (bifur : Bool) (s : State) : Host.Outcome State Fault Refusal :=
  .next (powerOnReset (if s.pwr.vault then s else seamFarewell s .reset) (strap % 4) bifur)

/-- `RESET_N` holds the device in device reset (R544). -/
def resetHeld (s : State) : Bool := s.dev.resetLow.isSome && !s.dev.stuck

/-- `DEVICE_RESET`. One that arrives while `RESET_N` holds the reset is discarded (R541); in VAULT nothing can be reset. -/
def execDeviceReset (s : State) : Host.Outcome State Fault Refusal :=
  .next (if s.pwr.vault || resetHeld s then s else deviceReset s)

/-- `RESET_N_ASSERT` (R544): after 20 µs low a device reset begins; the start sequence waits until the pin rises. -/
def execResetNAssert (low : Bool) (s : State) : Host.Outcome State Fault Refusal :=
  .next (if s.pwr.vault then s
    else if low then
      if s.dev.resetLow.isSome then s
      else
        let s1 := if s.dev.stuck then s else deviceReset s
        { s1 with dev := { s1.dev with resetLow := some s.time.clk } }
    else if s.dev.resetLow.isNone then s
    else { s with dev := { s.dev with resetLow := none, resetHigh := s.time.clk } })

/-- `RESET_N_STUCK` (R545): after 8 s low. -/
def execResetNStuck (s : State) : Host.Outcome State Fault Refusal :=
  .next (match s.dev.resetLow with
    | none => s
    | some t =>
      if s.pwr.vault || s.dev.stuck || decide (s.time.clk < t + 8 * cycS) then s
      else
        let s1 := faultPin { s with dev := { s.dev with stuck := true } }
        let (sev, s2) := freeSev (sqcSet s1 aScrEvt 9)
        scorchLog (tallyPut s2 agAiring 0x0182 []) logStuck 0 sev 0 0 0)

/-- `RESET_N_REARM` (R546): a stuck pin has been high for 100 ms. -/
def execResetNRearm (s : State) : Host.Outcome State Fault Refusal :=
  .next (if s.dev.stuck && s.dev.resetLow.isNone && decide (s.dev.resetHigh + 100 * cycMs ≤ s.time.clk) && !s.pwr.vault then
      faultPin { s with dev := { s.dev with stuck := false } }
    else s)

/-! ### PCIe (R547 to R549, R564) -/

/-- What the function's reset clears: its `RNG_DATA` FIFO, its latches and its wide captures (R549 step 3). -/
def fnForget (s : State) (p : Nat) : State :=
  { s with
    rng := { s.rng with fifos := tblDel p s.rng.fifos }
    regs := { s.regs with
      latch := tblKeep (fun k _ => k / 2 ^ 40 != p) s.regs.latch
      wide := tblKeep (fun k _ => k / 2 != p) s.regs.wide } }

/-- A reset of function `p` (R549): its slices reset, its configuration space at its defaults, its link down unless the reset is a
Function Level Reset. A mailbox request of the function runs to its end, without an interrupt. -/
def fnReset (s : State) (p : Nat) (flr : Bool) : State :=
  if !portThere s p || s.pwr.vault then s
  else
    let s1 := resetSlices s p
    let s2 := fnForget (fnPut s1 p { linkUp := flr && (fnGet s1 p).linkUp }) p
    let m := s2.tortin.mbx
    let s3 := { s2 with tortin := { s2.tortin with mbx := { m with mute := m.mute || (m.busy && m.fn == p) } } }
    regAdd (sqcSet s3 (aPci p 4) (if flr then 0 else 1)) (aPci p 0x20) 1

/-- `FUNCTION_LEVEL_RESET`. -/
def execFunctionLevelReset (fn : Nat) (s : State) : Host.Outcome State Fault Refusal := .next (fnReset s fn true)

/-- `HOT_RESET`. -/
def execHotReset (fn : Nat) (s : State) : Host.Outcome State Fault Refusal := .next (fnReset s fn false)

/-- `DL_DOWN`. -/
def execDlDown (fn : Nat) (s : State) : Host.Outcome State Fault Refusal := .next (fnReset s fn false)

/-- `PCIE_PERST`. -/
def execPciePerst (fn : Nat) (s : State) : Host.Outcome State Fault Refusal := .next (fnReset s fn false)

/-- `PCIE_LINK_UP`: a link that was down has trained. -/
def execPcieLinkUp (fn width speed : Nat) (flit : Bool) (s : State) : Host.Outcome State Fault Refusal :=
  .next (if !portThere s fn || s.pwr.vault || (fnGet s fn).linkUp then s
    else
      let s1 := fnPut s fn { fnGet s fn with linkUp := true }
      { s1 with dev := { s1.dev with
        width := setAt s.dev.width fn width, speed := setAt s.dev.speed fn speed, flit := setAt s.dev.flit fn flit } })

/-- The held interrupts of a function that can leave now do so (R77, R564). -/
def pbaRaise (s : State) (p : Nat) : State :=
  let f := fnGet s p
  if fnLive s p && f.msixEn && !f.fnMask && !hostSilent s then
    (tblKeys (fun b => b) f.pba).foldl (fun s v =>
      let g := fnGet s p
      if tblGet false g.unmasked v then
        raiseMsix (fnPut s p { g with pba := tblSet false v false g.pba }) p v
      else s) s
  else s

/-- A field of the configuration space written. -/
def cfgItem (f : FnState) (i : CfgItem) : FnState :=
  match i with
  | .busMaster on => { f with busMaster := on }
  | .pasidEn on => { f with pasidEn := on }
  | .msixEn on => { f with msixEn := on }
  | .fnMask on => { f with fnMask := on }
  | .aspmL1 on => { f with aspmL1 := on }
  | .cplTo v => { f with cplTo := v }

/-- `CONFIGURATION_WRITE`: it reaches the function while its link is up. -/
def execConfigurationWrite (fn : Nat) (item : CfgItem) (s : State) : Host.Outcome State Fault Refusal :=
  .next (if !portThere s fn || s.pwr.vault || !(fnGet s fn).linkUp then s
    else pbaRaise (fnPut s fn (cfgItem (fnGet s fn) item)) fn)

/-- `PMIC_STATUS_POLL`: no reset, lock or power decision depends on what is read (spec 20, after R553). -/
def execPmicStatusPoll (s : State) : Host.Outcome State Fault Refusal := .next s

/-! ### The end of a life-cycle transition (R474, R478) -/

/-- What a transition's last entry of the generation table is bound to: the running measurements, or the running entry's own where a
resumed start has measured nothing yet. -/
def lcGen (s : State) : GenEntry :=
  let old := (((s.boot.ctl.map (·.gens)).getD []).find? (fun g => g.mode == .running)).getD
    { gen := 1, bm0 := [], bm1 := [], mode := .running }
  { gen := 1, bm0 := if s.boot.bm0.isEmpty then old.bm0 else s.boot.bm0
    bm1 := if s.boot.bm0.isEmpty then old.bm1 else s.boot.bm1, mode := .running }

/-- Steps 4 and 5: the areas erased, the boot control record rewritten, the high-water mark at 0. -/
def lcErase (s : State) (t : Transition) : State :=
  let s1 := lcBurn { s with
    keys := { s.keys with jrn0 := [], jrn1 := [], owners := [], held := false, highMark := 0, nextSeq := 1 }
    needle := { s.needle with progs := [] }
    boot := { s.boot with area0 := {}, area1 := {}, inUse := 0, saved := {}, before := {} } } t.slot 16
  ctlMap s1 (fun b => { b with
    trial := false, count := 0, confirm := false, own0 := [], high := 1
    gens := if t.target = 4 then [] else [lcGen s] })

/-- `LC_ERASE_DONE`: the erasure of a transition that has begun is over; `DONE` is burned and the device resets. The next start runs in
the new state. -/
def execLcEraseDone (s : State) : Host.Outcome State Fault Refusal :=
  .next (match s.lc.trans with
    | none => s
    | some t =>
      if s.pwr.vault || resetHeld s || !bitN (lcSlot s t.slot) 3 then s
      else
        let old := lcState s
        let s1 := lcBurn (lcErase s t) t.slot 32
        let s2 := deviceReset { s1 with boot := { s1.boot with saved := {}, revert := false } }
        { s2 with
          lc := { s2.lc with from_ := some old }
          boot := { s2.boot with saved := {}, before := {} } })

end Sys2Proof.Machine
end

