-- ==== Sys2Proof/Machine/Device.lean ====
section
/-! DEFINITION. The device commands 0x0101 to 0x0105, and the `DEV` words that are built from the state (spec 15, R437, R440). -/

namespace Sys2Proof.Machine

/-- Tortin's version as the running package gives it (Table 16-1). -/
def torVersion (s : State) : Nat := if s.tortin.server = 3 then leAt (fwPkg s (fwRunning s)) 16 4 else 0

/-- The Thimble firmware's version; 0 when it has not run. -/
def thmVersion (s : State) : Nat := if s.boot.bm0.isEmpty then 0 else leAt (fwPkg s (fwRunning s)) 20 4

/-- `DEV_VERSION`. -/
def devVersion (s : State) : Nat :=
  torVersion s / 2 ^ 16 * 2 ^ 16 + (if s.tortin.server = 3 then s.seam.version % 256 * 256 else 0) + s.tortin.server

/-- `DEV_CAPS` as function `p` reads it. -/
def devCaps (s : State) (p : Nat) : Nat := (if s.dev.bifur then 8 else 16) * 256 + p * 2 + b2n s.dev.bifur

/-- `SEAM_STAT.ROLE`. -/
def seamRoleCode (s : State) : Nat := if s.seam.isolated then 5 else s.seam.role.code

/-- `DEV_STATUS`. -/
def devStatus (s : State) : Nat :=
  b2n s.tortin.ready * 2 ^ 31 + b2n s.scorch.locked * 2 ^ 30 + b2n s.dev.faultN * 2 ^ 29 + lcState s * 2 ^ 24 +
  s.thm.mode.code * 2 ^ 16 + seamRoleCode s * 2 ^ 8

/-- Result of `DEV.INFO` (Table 15-9). -/
def devInfo (s : State) (c : Cmd) : List Byte :=
  let rev := ((List.range 4).map (fun i => b2n ((s.boot.vendor.getD i {}).revoked) * 2 ^ i)).foldl (· + ·) 0
  leBytes 2 0x4E62 ++ leBytes 1 0xB1 ++ zeros 1 ++ leBytes 4 (devVersion s) ++ leBytes 4 (torVersion s) ++ leBytes 4 (thmVersion s) ++
  leBytes 8 s.dev.serial.toNat ++ leBytes 2 ((cSlice c).getD 0xFFFF) ++ leBytes 2 (if cMbx c then 0 else cOwner s c) ++
  leBytes 1 (b2n s.dev.bifur) ++ leBytes 1 (cFn s c) ++ leBytes 1 (lcState s) ++ leBytes 1 s.tortin.server ++
  leBytes 4 s.boot.ksGen ++ leBytes 1 s.boot.secMin ++ leBytes 1 rev ++ zeros 26

/-- Result of `DEV.STATUS` (Table 15-10). -/
def devStat (s : State) : List Byte :=
  leBytes 4 (devStatus s) ++ leBytes 4 (devFault s) ++ leBytes 4 (regGet s aDevResetCnt).toNat ++ leBytes 2 (epochId s).toNat ++
  leBytes 1 (regField s aPwrState 15 8) ++ leBytes 1 s.thm.mode.code ++ leBytes 8 s.dev.resetAt.toNat ++
  leBytes 8 s.dev.restartAt.toNat ++ leBytes 1 (seamRoleCode s) ++ leBytes 1 s.boot.ksCause ++
  leBytes 1 (b2n s.scorch.locked + 2 * b2n s.scorch.rootsLost + 4 * b2n (trialOn s)) ++ leBytes 1 (lcState s) ++
  leBytes 4 (scrLockSrc s) ++ zeros 24

/-- Free places of the command tracker; the mailbox's own place is none of them (R75). -/
def trackFree (s : State) : Nat := 16384 - (s.tortin.tracker.filter (fun e => e.1 != mbxTag)).length

/-- Free key slots of the owner region. -/
def slotsLeft (s : State) : Nat := slotEnd - slotFirst - ((slotRuns s).map (·.2)).foldl (· + ·) 0

/-- Commands by which a slice exceeds its bound (R75). -/
def alarmExcess (s : State) (n : Nat) : Nat := inFlight s n - (sliceGet s n).bound

/-- Result of `DEV.LIMITS` (Table 15-11). -/
def devLimits (s : State) (c : Cmd) : List Byte :=
  let wide := leBytes 4 (slotsLeft s) ++ leBytes 4 (sharedFree s)
  match cSlice c with
  | none => leBytes 2 0xFFFF ++ zeros 34 ++ leBytes 2 (trackFree s) ++ zeros 2 ++ wide ++ zeros 16
  | some n =>
    let x := sliceGet s n
    leBytes 2 n ++ leBytes 2 x.owner ++ leBytes 2 x.bound ++ leBytes 2 (inFlight s n) ++ leBytes 2 (alarmExcess s n) ++
    leBytes 2 x.dup.length ++ leBytes 4 x.quota ++ leBytes 4 (slotsCharged s n) ++ leBytes 4 x.reserve ++
    leBytes 4 (acctHeld s (5 + n)) ++ leBytes 4 (acctBorrowed s (5 + n)) ++ leBytes 2 (ctxCount s n) ++
    leBytes 2 (s.keys.pend.filter (fun e => e.2.owner == x.owner)).length ++ leBytes 2 (trackFree s) ++ zeros 2 ++ wide ++
    leBytes 1 x.vecCount ++ zeros 1 ++ leBytes 2 x.vecBase ++ zeros 12

/-- The counters that `DEV.COUNTERS` clears. -/
def devCounterRegs : List Nat := [aDevNarrowWr, aDevIgnWr, aDevSqcMiss, aDevGuardFail, aDevLongTlp, aDevGuardInfo]

/-- Result of `DEV.COUNTERS` (Table 15-12). -/
def devCounters (s : State) : List Byte :=
  (devCounterRegs ++ [aHmpDfree, aHmpFfree, aHmpDrop, aHmpEcc, aQueTaintRef, aScrEvtCnt]).flatMap
    (fun a => leBytes 4 (regGet s a).toNat) ++ zeros 16

/-- The largest output of a command that gives 64 B, or the first 32 B as short output of the mailbox. -/
def out64 (c : Cmd) : Nat := if cMbx c && cOutAddr c == 0 && cOutCap c == 32 then 32 else 64

/-- The catalogue's entries of the 0x01xx commands (Table 15-8). -/
def specDev (s : State) (c : Cmd) : Option CmdSpec :=
  match cOp c with
  | 0x0101 => some { zero := noKeys c && parZero c [(52, 12)], outMax := out64 c }
  | 0x0102 => some { zero := noKeys c && parZero c [(52, 12)], outMax := out64 c }
  | 0x0103 => some { zero := noKeys c && parZero c [(52, 12)], lens := cOutCap c == 0 }
  | 0x0104 => some { zero := noKeys c && parZero c [(52, 12)], outMax := 64 }
  | 0x0105 => some { zero := noKeys c && parZero c [(53, 11)] && decide (par c 52 1 < 2), outMax := 64, issuer := cOwner s c == 0 }
  | _ => none

/-- `DEV.INFO`. -/
def execDevInfo (tag : Nat) (io : HostIO) (s : State) : Host.Outcome State Fault Refusal :=
  runCmd s tag 0x0101 (fun c s => endOut s tag io (bytesAt (devInfo s c) 0 (out64 c)))

/-- `DEV.STATUS`. -/
def execDevStatus (tag : Nat) (io : HostIO) (s : State) : Host.Outcome State Fault Refusal :=
  runCmd s tag 0x0102 (fun c s => endOut s tag io (bytesAt (devStat s) 0 (out64 c)))

/-- `DEV.NOP`. -/
def execDevNop (tag : Nat) (s : State) : Host.Outcome State Fault Refusal :=
  runCmd s tag 0x0103 (fun _ s => endOk s tag)

/-- `DEV.LIMITS`. -/
def execDevLimits (tag : Nat) (io : HostIO) (s : State) : Host.Outcome State Fault Refusal :=
  runCmd s tag 0x0104 (fun c s => endOut s tag io (devLimits s c))

/-- `DEV.COUNTERS`: with `CLEAR` the `DEV` counters are cleared in the same step. -/
def execDevCounters (tag : Nat) (io : HostIO) (s : State) : Host.Outcome State Fault Refusal :=
  runCmd s tag 0x0105 (fun c s =>
    endOut (if bitN (par c 52 1) 0 then devCounterRegs.foldl (fun s a => regPut s a 0) s else s) tag io (devCounters s))

end Sys2Proof.Machine
end

