-- ==== Sys2Proof/Machine/Rng.lean ====
section
/-! DEFINITION. The random-number commands, Lint's windows and Bobbin's calls (spec 08). -/

namespace Sys2Proof.Machine

/-! ### Lint: health tests and conditioning (R209 to R213, R224) -/

/-- The raw bits of an operand: bit i of byte j is raw bit 8 j + i. -/
def rawBits (bs : List Byte) : List Bool := bs.flatMap (fun b => (List.range 8).map (fun i => b.getLsbD i))

/-- Bits as bytes, the first bit the most significant. -/
def packBits (bits : List Bool) : List Byte :=
  beBytes ((bits.length + 7) / 8) (bits.foldl (fun n b => 2 * n + b2n b) 0)

/-- The output of the test pattern: x^32 + x^22 + x^2 + x + 1 (R224). Each source has a register of its own, loaded with the same seed, and the top
bit is shifted out first (DESIGN CHOICE: R224 names one register and no end of it, assumption 28). -/
def lfsrBits : Nat → Word → List Bool × Word
  | 0, w => ([], w)
  | n + 1, w =>
    let fb := (bitOf w 31).xor ((bitOf w 21).xor ((bitOf w 1).xor (bitOf w 0)))
    let (bs, w1) := lfsrBits n ((w <<< 1) ||| BitVec.ofNat 32 (b2n fb))
    (bitOf w 31 :: bs, w1)

/-- The health tests over raw bits (Table 8-1): run so far, the first bit of the window and its count; the answer is the
place of the first failure, and the run after the last bit. -/
def healthScan (first : Bool) : List Bool → Nat → Bool → Nat → Nat → Option Nat × Bool × Nat
  | [], _, rb, rl, _ => (none, rb, rl)
  | b :: bs, i, rb, rl, cnt =>
    let rl1 := if rl ≠ 0 ∧ b = rb then rl + 1 else 1
    let cnt1 := if b = first then cnt + 1 else cnt
    let fail := decide (41 ≤ rl1 ∨ (b = first ∧ cnt1 = 794))
    let rest := healthScan first bs (i + 1) b (if 41 ≤ rl1 then 0 else rl1) cnt1
    if fail then (some i, rest.2) else rest

/-- Conditioning of a window in pairs (R209). -/
def condition (vn : Bool) : List Bool → List Bool
  | a :: b :: t => (if vn then (if a = b then [] else [a]) else [a.xor b]) ++ condition vn t
  | _ => []

/-- The fast domain runs: Lint samples and Bobbin issues calls only in ACTIVE, from the second step of the start sequence on (R208, R222, R441). -/
def rngRuns (s : State) : Bool := pwrMode s == 0 && !s.pwr.vault && s.boot.step != .fuses

/-- The test pattern's register of a source has moved on by `n` bits only: a start-up test stops at its failing bit (R213, R224). -/
def patternAt (s : State) (source n : Nat) (w : Word) : State :=
  if rngTest s && bitOf (regGet s aRngTestCtrl) 0 then lintPut s source { lintGet s source with lfsr := (lfsrBits n w).2 } else s

/-- The raw bits of a source: the noise, or the test pattern in the Maker state (R224). -/
def sourceBits (s : State) (n : Nat) (raw : List Bool) : List Bool × State :=
  if rngTest s && bitOf (regGet s aRngTestCtrl) 0 then
    let x := lintGet s n
    let (bs, w) := lfsrBits raw.length x.lfsr
    (bs, lintPut s n { x with lfsr := w })
  else (raw, s)

/-- In `RAW` mode the raw bits of the selected source fill every FIFO, 32 at a time (R224); the first bit of a word is its most significant (DESIGN
CHOICE: R224 gives no order, assumption 28). -/
def rawFill (s : State) (n : Nat) (bits : List Bool) : State :=
  if rngTest s && bitOf (regGet s aRngTestCtrl) 1 && regField s aRngTestCtrl 10 8 == n then
    let words := (List.range (bits.length / 32)).map (fun i => BitVec.ofNat 32 (beNat (packBits ((bits.drop (32 * i)).take 32))))
    (List.range 3).foldl (fun s k => { s with rng := { s.rng with
      fifos := tblSet [] k ((tblGet [] s.rng.fifos k ++ words).take 64) s.rng.fifos } }) s
  else s

/-- A failed start-up test or window of a source is counted (R211, R213). -/
def lintCount (s : State) (n : Nat) : State := regAdd s (aRngSrcFail + 4 * n) 1

/-- A failed window of a source (R211). -/
def lintFail (s : State) (n : Nat) : State := sqcSet (lintCount s n) aRngEvt 5

/-- `LINT_STARTUP_TEST_END`: the raw bits of the attempt; it ends at the first failure, or passes after 1,024 bits. -/
def execLintStartupTestEnd (source : Nat) (raw : List Byte) (s : State) : Host.Outcome State Fault Refusal :=
  let x := lintGet s source
  .next (if !rngRuns s || !lintOn s source || x.ok || decide (8 ≤ source ∨ raw.isEmpty) then s
    else
      let (bits, s1) := sourceBits s source ((rawBits raw).take 1024)
      let y := lintGet s1 source
      let (fail, rb, rl) := healthScan (bits.headD false) bits 0 false 0 0
      match fail with
      | some i =>
        if s.time.clk < x.since + (i + 1) * 25 / 4 then s
        else
          let s2 := patternAt (lintPut s1 source { y with since := x.since + (i + 1) * 25 / 4, runLen := 0 }) source (i + 1) x.lfsr
          lintCount (rawFill s2 source (bits.take (i + 1))) source
      | none =>
        if bits.length < 1024 ∨ s.time.clk < x.since + 6400 then s
        else rawFill (lintPut s1 source { y with ok := true, since := x.since + 6400, runBit := rb, runLen := rl }) source bits)

/-- No other source has a window that ends before a source's, or in the same cycle with a lower number: windows enter in the order in which they
end (R212). -/
def windowTurn (s : State) (source : Nat) : Bool :=
  let at_ (n : Nat) : Nat := (lintGet s n).since
  (List.range 8).all (fun n => n == source || !lintOn s n || !(lintGet s n).ok ||
    decide (at_ source < at_ n ∨ (at_ source = at_ n ∧ source < n)))

/-- `LINT_WINDOW_END`: a window of 1,024 raw bits, 25.6 µs (R211). A window that passes and does not fit the pool is discarded, uncounted
(R212). -/
def execLintWindowEnd (source : Nat) (raw : List Byte) (s : State) : Host.Outcome State Fault Refusal :=
  let x := lintGet s source
  .next (if !rngRuns s || !lintOn s source || !x.ok || decide (8 ≤ source ∨ raw.length ≠ 128 ∨ s.time.clk < x.since + 6400) || !windowTurn s source
    then s
    else
      let (bits, s1) := sourceBits s source (rawBits raw)
      let (fail, rb, rl) := healthScan (bits.headD false) bits 0 x.runBit x.runLen 0
      let y := lintGet s1 source
      let s2 := lintPut s1 source { y with since := x.since + 6400, runBit := rb, runLen := rl }
      let s3 := rawFill s2 source bits
      let counted := regAdd s3 (aRngSrcWin + 4 * source) 1
      match fail with
      | some _ => lintFail counted source
      | none =>
        let out := condition (lintVn s source) bits
        if 8192 < s.rng.pool.length + out.length then s3
        else { counted with rng := { counted.rng with pool := counted.rng.pool ++ out } })

/-! ### Bobbin (R214 to R218) -/

/-- The personalisation string of an instantiation (R215). -/
def rngPers (s : State) : List Byte :=
  beBytes 8 s.dev.serial.toNat ++ beBytes 4 s.keys.instance_ ++ beBytes 2 (epochId s).toNat ++ beBytes 8 (nowStamp s).toNat ++
    s.rng.pers

/-- `n` bits leave the pool, oldest first (R212). -/
def poolTake (s : State) (n : Nat) : List Byte × State :=
  (packBits (s.rng.pool.take n), { s with rng := { s.rng with pool := s.rng.pool.drop n } })

/-- `BOBBIN_INSTANTIATE` (R214, R215). -/
def execBobbinInstantiate (s : State) : Host.Outcome State Fault Refusal :=
  .next (if !rngRuns s || s.rng.inst || !s.rng.katOk || decide (s.rng.pool.length < 512) then s
    else
      let (e, s1) := poolTake s 384
      let (n, s2) := poolTake s1 128
      let s3 := { s2 with rng := { s2.rng with
        inst := true, limit := false, work := Config.drbgSeed e n (rngPers s), reseeds := 0, calls := 0, stamp := 0
        at_ := nowStamp s, late := none, woken := false } }
      formationNeed (tallyPut (sqcSet s3 aRngEvt 0) agCp 0x0780 []))

/-- A reseed from the pool with additional input (R215, R217). -/
def rngReseed (s : State) (add : List Byte) : State :=
  let (e, s1) := poolTake s 384
  formationNeed (sqcSet { s1 with rng := { s1.rng with
    limit := false, work := Config.drbgReseed s1.rng.work e add, reseeds := s1.rng.reseeds + 1, calls := 0
    stamp := nowStamp s, at_ := nowStamp s, late := none, woken := false } } aRngEvt 1)

/-- `BOBBIN_AUTO_RESEED`: after 2^20 calls or 100 ms of Stamp time, or at the first 384 bits after a wake (R217, R222). -/
def execBobbinAutoReseed (s : State) : Host.Outcome State Fault Refusal :=
  let due := decide (2 ^ 20 ≤ s.rng.calls ∨ 2 ^ 32 ≤ 10 * ((nowStamp s).toNat - s.rng.at_.toNat))
  .next (if !rngRuns s || !s.rng.inst || s.rng.late.isSome then s
    else if 384 ≤ s.rng.pool.length then (if due || s.rng.woken then rngReseed s [] else s)
    else if due then sqcSet { s with rng := { s.rng with late := some s.time.clk } } aRngEvt 2
    else s)

/-- `BOBBIN_RESEED_RETRY`: 10 µs after the last late try (R217). -/
def execBobbinReseedRetry (s : State) : Host.Outcome State Fault Refusal :=
  .next (match s.rng.late with
    | none => s
    | some at_ =>
      if !rngRuns s || !s.rng.inst || decide (s.time.clk < at_ + 10 * cycUs) then s
      else if 384 ≤ s.rng.pool.length then rngReseed s []
      else { s with rng := { s.rng with late := some s.time.clk } })

/-- `BOBBIN_LIMIT_REACHED`: 2^24 calls without a reseed (R217). -/
def execBobbinLimitReached (s : State) : Host.Outcome State Fault Refusal :=
  .next (if s.rng.inst && !s.rng.limit && decide (2 ^ 24 ≤ s.rng.calls) then
      tallyPut (sqcSet { s with rng := { s.rng with limit := true } } aRngEvt 3) agCp 0x0781 []
    else s)

/-- The known-answer test ends (R218). -/
def katEnd (s : State) (ok : Bool) : State :=
  if ok then { s with rng := { s.rng with katOk := true, katFail := none } }
  else tallyPut (sqcSet { s with rng := { s.rng with katFail := some s.time.clk } } aRngEvt 4) agCp 0x0782 []

/-- `BOBBIN_KAT`: `ok` is its outcome. -/
def execBobbinKat (ok : Bool) (s : State) : Host.Outcome State Fault Refusal :=
  .next (if rngRuns s && !s.rng.katOk && s.rng.katFail.isNone then katEnd s ok else s)

/-- `BOBBIN_KAT_RETRY`: 1 s after a failed test. -/
def execBobbinKatRetry (ok : Bool) (s : State) : Host.Outcome State Fault Refusal :=
  .next (match s.rng.katFail with
    | none => s
    | some at_ => if rngRuns s && decide (at_ + cycS ≤ s.time.clk) then katEnd s ok else s)

/-! ### Calls and FIFOs (R216, R219 to R221) -/

/-- A request waits at the arbiter. -/
def rngAsk (s : State) (r : RngReq) : State := { s with rng := { s.rng with reqs := s.rng.reqs ++ [r] } }

/-- The request that Bobbin serves next: `RNG.GET` before FIFOs, alarm first, then the oldest; none while the start of a command stands, for
groups 1 to 5 go before (R219). -/
def rngNext (s : State) : Option RngReq :=
  if rngBehind s 6 then none
  else [6, 7].findSome? (fun g =>
    (s.rng.reqs.find? (fun r => r.group == g && r.alarm)).or (s.rng.reqs.find? (fun r => r.group == g)))

/-- The words of a byte string, little-endian (R4). -/
def wordsOf (bs : List Byte) : List Word := (List.range (bs.length / 4)).map (fun i => BitVec.ofNat 32 (leAt bs (4 * i) 4))

/-- `RNG_FIFO_REFILL`: the FIFO of a requester class holds 32 words or fewer (R220). -/
def execRngFifoRefill (cls : Nat) (s : State) : Host.Outcome State Fault Refusal :=
  let raw := rngTest s && bitOf (regGet s aRngTestCtrl) 1
  .next (if raw || !s.rng.inst || s.rng.limit || decide (2 < cls ∨ 32 < (tblGet [] s.rng.fifos cls).length) ||
      s.rng.reqs.any (fun r => r.what == .fifo cls) then s
    else rngAsk s { what := .fifo cls, group := 7, left := 128 })

/-- `BOBBIN_CALL_DONE`: one call of at most 4,096 B reaches its consumer. In `RAW` mode no Bobbin output reaches a FIFO (R224). -/
def execBobbinCallDone (s : State) : Host.Outcome State Fault Refusal :=
  .next (if !rngRuns s || !s.rng.inst || s.rng.limit then s
    else match rngNext s with
    | none => s
    | some r =>
      let n := min 4096 r.left
      let raw := rngTest s && bitOf (regGet s aRngTestCtrl) 1
      let (bs, s1) := draw s n
      let rest := s1.rng.reqs.filter (fun x => x.what != r.what)
      match r.what with
      | .start _ => s
      | .fifo k => { s1 with rng := { s1.rng with
          reqs := rest, fifos := if raw then s1.rng.fifos else tblSet [] k ((tblGet [] s1.rng.fifos k ++ wordsOf bs).take 64) s1.rng.fifos } }
      | .cmd tag => match cmdAt s1 tag with
        | none => { s1 with rng := { s1.rng with reqs := rest } }
        | some c =>
          let got := c.work.bytes ++ bs
          if n = r.left then
            endOut { s1 with rng := { s1.rng with reqs := rest } } tag { outOk := c.work.nums.headD 1 == 1 } got
          else
            setWork { s1 with rng := { s1.rng with
              reqs := s1.rng.reqs.map (fun x => if x.what = r.what then { x with left := x.left - n } else x) } } tag
              { c.work with bytes := got })

/-- A read of `RNG_DATA`: the next word of the requester's FIFO, and the outcome of the read (R220). -/
def rngRead (s : State) (r : Requester) : Word × State :=
  let k := r.cls
  let put (f : List Word) (o : Word) : State := { s with rng := { s.rng with
    fifos := tblSet [] k f s.rng.fifos, outcome := tblSet 0 k o s.rng.outcome } }
  match tblGet [] s.rng.fifos k with
  | w :: f => (w, put f (BitVec.ofNat 32 (f.length * 256)))
  | [] => (0, sqcSet (put [] 1) aRngEvt 6)

/-- The outcome of the requester's last read of `RNG_DATA`. -/
def rngOutcome (s : State) (r : Requester) : Word := tblGet 0 s.rng.outcome r.cls

/-- A read of `RNG_DATA` that is served, in each form that R221 gives it: one word; both words of a 2-DW read, the word and its status; a read with
partial byte enables, which returns zero and takes no word. A read of the CP passes the Hem controller (R394). -/
def rngServed (s : State) (rd : DataRead) : State :=
  let r := rd.r
  match cpCheck (touchFast s) r aRngData .read with
  | (false, s0) => emit s0 (.reply r aRngData 0)
  | (true, s0) =>
    match rd.form with
    | .partial_ => emit s0 (.reply r aRngData 0)
    | .one =>
      let (w, s1) := rngRead s0 r
      emit s1 (.reply r aRngData w)
    | .two =>
      let (w, s1) := rngRead s0 r
      emit (emit s1 (.reply r aRngData w)) (.reply r aRngDataStat (rngOutcome s1 r))

/-- `RNG_DATA_READ`: a host's read wakes the device and waits for it (R45); an internal agent reads while its clock runs (Table 1-8). -/
def execRngDataRead (rd : DataRead) (s : State) : Host.Outcome State Fault Refusal :=
  .next (match rd.r with
    | .fn p => if s.pwr.vault || !portThere s p then s else hostMeets s 1 (.rngRead p rd.form) (fun s => rngServed s rd)
    | _ => if fastPowered s then rngServed s rd else s)

/-- `RNG_STAT` (Table 8-6). `STARTING` reads 1 from the release of the fast domain until a source has passed its test; before, it has its reset
value (R441). -/
def rngStat (s : State) : Word :=
  let ok := (List.range 8).filter (fun n => (lintGet s n).ok && lintOn s n)
  BitVec.ofNat 32 ((ok.map (fun n => 2 ^ (8 + n))).foldl (· + ·) 0 + b2n s.rng.katFail.isSome * 16 + b2n (rngTest s) * 8 +
    b2n s.rng.limit * 4 + b2n s.rng.inst * 2 + b2n (ok.isEmpty && s.boot.step != .fuses))

/-! ### Commands (R225, R226) -/

/-- The catalogue's entries of the 0x07xx commands. -/
def specRng (s : State) (c : Cmd) : Option CmdSpec :=
  let own0 := cOwner s c == 0
  match cOp c with
  | 0x0701 => some { zero := noKeys c && parZero c [(56, 8)], lens := decide (1 ≤ par c 52 4 ∧ par c 52 4 ≤ 65536)
                     outMax := par c 52 4, entropy := true }
  | 0x0702 =>
    let flags := par c 52 1
    some { zero := noKeys c && parZero c [(53, 1), (56, 8)] && decide (flags < 4)
           form := !bitN flags 0 || decide (2 ≤ popCount (par c 54 1) 8)
           inMax := if bitN flags 1 then 32 else 64, issuer := own0, free := decide (384 ≤ s.rng.pool.length) && s.rng.inst }
  | 0x0703 => some { zero := noKeys c && parZero c [(52, 12)], outMax := 104 }
  | _ => none

/-- `RNG_GET`: its calls wait at the arbiter. -/
def execRngGet (tag : Nat) (io : HostIO) (s : State) : Host.Outcome State Fault Refusal :=
  runCmd s tag 0x0701 (fun c s =>
    if c.work.step ≠ 0 then s
    else rngAsk (setWork s tag { step := 1, nums := [b2n io.outOk] }) { what := .cmd tag, group := 6, alarm := cAlarm c, left := par c 52 4 })

/-- `RNG_RESEED`. -/
def execRngReseed (tag : Nat) (io : HostIO) (s : State) : Host.Outcome State Fault Refusal :=
  runIn s tag 0x0702 io (fun c bs s =>
    if s.rng.pool.length < 384 ∨ !s.rng.inst then s
    else
      let flags := par c 52 1
      let v := putField (putField (regGet s aRngCfg) 7 0 (par c 54 1)) 23 16 (par c 55 1)
      let s1 := if bitN flags 0 then rngConfig { s with rng := { s.rng with cfg := v } } v else s
      let s2 := if bitN flags 1 then { s1 with rng := { s1.rng with pers := bs } } else s1
      endOk (rngReseed s2 bs) tag)

/-- `RNG_STATUS` (Table 8-5). -/
def execRngStatus (tag : Nat) (io : HostIO) (s : State) : Host.Outcome State Fault Refusal :=
  runCmd s tag 0x0703 (fun _ s =>
    let cfg := regGet s aRngCfg
    endOut s tag io (leBytes 4 (rngStat s).toNat ++ leBytes 4 s.rng.pool.length ++ leBytes 8 s.rng.reseeds ++
      leBytes 4 s.rng.calls ++ zeros 4 ++ leBytes 8 s.rng.stamp.toNat ++
      [BitVec.ofNat 8 (fieldOf cfg 7 0), BitVec.ofNat 8 (fieldOf (rngStat s) 15 8), BitVec.ofNat 8 (fieldOf cfg 23 16)] ++ zeros 5 ++
      (List.range 8).flatMap (fun n => leBytes 4 (regGet s (aRngSrcFail + 4 * n)).toNat) ++
      (List.range 8).flatMap (fun n => leBytes 4 (regGet s (aRngSrcWin + 4 * n)).toNat)))

end Sys2Proof.Machine
end

