-- ==== Sys2Proof/Machine/Tortin.lean ====
section
/-! DEFINITION. Tortin: fetching, acceptance, the checks between acceptance and execution start, execution start, and completions
(spec 03; spec 18, R501, R502). -/

namespace Sys2Proof.Machine

/-! ### The catalogue (Table 3-6) -/

/-- The catalogue's entry of a command outside the 0x03xx family. -/
def specRest (s : State) (c : Cmd) : Option CmdSpec :=
  match cOp c / 256 with
  | 1 => specDev s c
  | 2 => specSlices s c
  | 4 => specKeys s c
  | 5 => specSym s c
  | 6 => specPk s c
  | 7 => specRng s c
  | 8 => (specLinks s c).or (specEnrol s c)
  | 9 => specSeam s c
  | 10 => specTally s c
  | 11 => specTime s c
  | 12 => specFw s c
  | 13 => (specLc s c).or (specScorch s c)
  | 14 => (specProg s c).or (specDma s c)
  | _ => none

/-- The catalogue's entry of a command; none for an opcode that Table 3-6 does not list. -/
def specAll (s : State) (c : Cmd) : Option CmdSpec :=
  let target (t : Cmd) : Option CmdSpec := if cOp t / 256 = 3 then specOwners (fun _ => none) s t else specRest s t
  if cOp c / 256 = 3 then specOwners target s c else specRest s c

/-- The quorum that a command needs on its route: on the mailbox `CUSTODIAN` for every command that changes state, except the approval
commands (R79). -/
def quorumNow (c : Cmd) (x : CmdSpec) : Option (Nat × Nat) :=
  if cMbx c then (if isApprovalOp (cOp c) || noChange c.body then none else some (0, qCustodian)) else x.quorum

/-- The front end and the CP's firmware run; after a denied access of the CP, Tortin performs its restart before anything else (R408). -/
def tortinRuns (s : State) : Bool :=
  procRuns s && !cpHalted s && !s.lc.memTest && s.lc.trans.isNone && !s.dev.restartDue

/-- Rings are served: by Tortin, in a device alone or the primary, outside a handover of the role (R309, R310, R330). -/
def ringsServed (s : State) : Bool :=
  tortinRuns s && s.tortin.ready && (s.seam.role == .alone || s.seam.role == .primary) && s.seam.switch.isNone

/-! ### Check 2 -/

/-- Opcodes that the boot ROM serves, and those of Mend (R463, R485). -/
def romAccepts (op : Nat) : Bool := [0x0101, 0x0102, 0x0103, 0x0D01].contains op
def mendAccepts (op : Nat) : Bool :=
  [0x0101, 0x0102, 0x0103, 0x0C06, 0x0C02, 0x0D01, 0x0A01, 0x0D04, 0x0D06, 0x0701, 0x0C01, 0x0C03, 0x0C05].contains op

/-- The code that serves the mailbox takes the command (R79, R463). -/
def serverTakes (s : State) (c : Cmd) : Bool :=
  if !cMbx c then true
  else if s.tortin.server = 1 then romAccepts (cOp c)
  else if s.tortin.server = 2 then
    mendAccepts (cOp c) || (isApprovalOp (cOp c) &&
      (cOp c != 0x0307 || (par c 52 1 == 0 && [0x0C01, 0x0C03, 0x0C05].contains (bodyOp (heldInput c)))))
  else mbxAccepts (cOp c)

/-- The rules of `INLINE` (R61, R79). -/
def inlineOkFor (c : Cmd) (x : CmdSpec) : Bool :=
  !cInline c || (!cMbx c && c.restZero && decide (x.inMax ≠ 0 ∧ 1 ≤ cInLen c ∧ cInLen c ≤ 1024 ∧ cInAddr c = 0))

/-- Input and output lie below 0xFF_0000_0000 (R14). -/
def rangesOk (c : Cmd) : Bool :=
  (cInline c || cInLen c == 0 || decide (cInAddr c + cInLen c ≤ 0xFF00000000)) &&
  (cOutCap c == 0 || shortOut c || decide (cOutAddr c + cOutCap c ≤ 0xFF00000000))

/-- The input is too short to hold the part read before execution start (R561). -/
def inShort (c : Cmd) (x : CmdSpec) : Bool := decide (cInLen c < x.preread)

/-- Check 2. -/
def check2 (s : State) (c : Cmd) (x : CmdSpec) : Bool :=
  decide (cFlags c < 16) && serverTakes s c && x.zero && x.form && (x.preread == 0 || inShort c x || x.formIn) && inlineOkFor c x &&
  rangesOk c

/-- The input length and the other length parameters are within the command's limits (R62, R561). -/
def lensFit (c : Cmd) (x : CmdSpec) : Bool := decide (x.inMin ≤ cInLen c ∧ cInLen c ≤ x.inMax) && !inShort c x && x.lens

/-- Check 3 (R62). -/
def check3 (c : Cmd) (x : CmdSpec) : Bool := lensFit c x && (x.out7 || decide (x.outMax ≤ cOutCap c))

/-- The result length of a command that ends with `BAD_LENGTH`: the capacity required, where it is the capacity that is too
small (R62); 0 for an input length or a length parameter. -/
def capNeeded (c : Cmd) (x : CmdSpec) (st : Nat) : Nat :=
  if st = stBadLength ∧ lensFit c x = true ∧ cOutCap c < x.outMax then x.outMax else 0

/-- Check 4 (R310, R327). -/
def check4 (s : State) (c : Cmd) : Bool := !hostSilent s || (cMbx c && noChange c.body)

/-! ### Check 5 (R143, R501) -/

/-- Commands that a lock permits whatever they name. -/
def lockFree (op : Nat) : Bool :=
  [0x0101, 0x0102, 0x0103, 0x0104, 0x020A, 0x0303, 0x0308, 0x0309, 0x030A, 0x0406, 0x0408, 0x0505, 0x0509, 0x0701, 0x0703, 0x0802,
   0x080B, 0x080C, 0x0903, 0x0A01, 0x0A03, 0x0A04, 0x0A05, 0x0B01, 0x0C06, 0x0D01, 0x0D04, 0x0D05, 0x0D06, 0x0E05].contains op

/-- The handles that a command of the 0x05xx or 0x06xx family names. -/
def namedKeys (s : State) (c : Cmd) : List Nat :=
  if cOp c = 0x0607 then (((batchOf s c).1.map (·.handle)).filter (· != 0))
  else [cKeyA c, cKeyB c].filter (· != 0)

/-- An engine's cache holds a handle. -/
def cacheHolds (s : State) (engine h : Nat) : Bool :=
  (if engine = 1 then s.keys.pressKeys else s.keys.mangleKeys).any (fun e => e.handle == h)

/-- A key that remains usable under a lock: `CONTINUITY`, and held by the engine's cache. -/
def lockKey (s : State) (engine h : Nat) : Bool := keyHas s h kContinuity && cacheHolds s engine h

/-- Check 5 under a lock. `TIME.STANDBY` passes it, for Table 2-7 gives it `STATE_REFUSED` under a lock (assumption 56). -/
def lockPermits (s : State) (c : Cmd) : Bool :=
  let op := cOp c
  if lockFree op then true
  else if op = 0x0307 then lockTarget (cOwner s c) (par c 52 1) (bytesAt (heldInput c) 0 64)
  else if op = 0x0206 then cSlice c == some (slTarget c)
  else if op = 0x0B06 then true
  else if op = 0x0507 ∨ op = 0x0508 then
    match ctxOf s c with
    | none => true
    | some (_, x) => x.handle == 0 || keyHas s x.handle kContinuity
  else if 0x0501 ≤ op ∧ op ≤ 0x0506 then (namedKeys s c).all (lockKey s 1)
  else if op = 0x0601 ∨ op = 0x0602 ∨ op = 0x0607 then (namedKeys s c).all (lockKey s 2)
  else if op = 0x0806 then
    (sendQueues c).all (fun q => match queueGet s q with
      | none => true
      | some x => x.owner != cOwner s c || !x.held)
  else false

/-! ### Checks 6 and 7 -/

/-- Check 6: the issuer, and `ALARM_CLASS` (R74). -/
def check6 (s : State) (c : Cmd) (x : CmdSpec) : Bool :=
  x.issuer && (!cAlarm c || (match cSlice c with
    | some n => (sliceGet s n).alarmOk
    | none => false))

/-- Some key has fewer uses left than the command names it (R112). -/
def usesGone (s : State) (hs : List Nat) : Bool :=
  hs.any (fun h => (keyOf s h).any (fun o => useFind s h o (hs.filter (· == h)).length == .none))

/-- A key whose lease must be renewed first (R113). -/
def leaseNeed (s : State) (hs : List Nat) : Option Nat :=
  hs.find? (fun h => (keyOf s h).any (fun o => useFind s h o (hs.filter (· == h)).length == .needLease))

/-- A lease for a key has been asked of Thimble and is not answered yet (R113). -/
def leaseAsked (s : State) (h : Nat) : Bool :=
  s.thm.reqs.any (fun r => r.op == 0xB && r.a == h && r.nums.getD 0 0 == 0) || s.thm.answers.any (fun r => r.op == 0xB && r.a == h)

/-- Check 7, with the statuses of a family that stand before execution start. -/
def check7 (s : State) (c : Cmd) (x : CmdSpec) : Nat :=
  if x.needsKeys && !storeOpen s then 0x0407
  else if x.at7 ≠ stOk then x.at7
  else if usesGone s x.uses then stExhausted
  else if trialBlocks (cOp c) && trialOn s then 0x0C05
  else x.early

/-- Checks 2 to 7 in their order: the status that ends the command, or `OK` (Table 3-4). -/
def checks (s : State) (c : Cmd) (x : CmdSpec) : Nat :=
  if !check2 s c x then stBadCommand
  else if !check3 c x then stBadLength
  else if !check4 s c then stSeamDiverged
  else if s.scorch.locked && !lockPermits s c then stLocked
  else if !check6 s c x then stDenied
  else check7 s c x

/-! ### The steps of a waiting command -/

/-- A request or an answer of Thimble for the command is outstanding. -/
def thmWaits (s : State) (tag : Nat) : Bool :=
  s.thm.reqs.any (fun r => r.cmd == some tag) || s.thm.answers.any (fun r => r.cmd == some tag)

/-- The first refusal for a not-after time while `TIME_UNSET` is set leaves a record (R95). -/
def expiryTell (s : State) (c : Cmd) (st : Nat) : State :=
  if st = stExpired ∧ bitOf (regGet s aTimeSrcStat) 7 ∧ !s.keys.unsetTold then
    let h := ([cKeyA c, cKeyB c].find? (fun h => (keyOf s h).any (keyExpired s))).getD (cKeyA c)
    tallyPut { s with keys := { s.keys with unsetTold := true } } agCp 0x0482 [(1, cOwner s c), (6, h)]
  else s

/-- The approvals that can be used while the settings store cannot be authenticated (R470, R508). -/
def approvable (s : State) (c : Cmd) : Bool :=
  s.tortin.server == 2 || !settingsShut s || cOp c == 0x0D05 || (cOp c == 0x0C05 && s.boot.ksCause == 1)

/-- The `OWNER.CREATE` of owner 0 through the front mailbox (R144). -/
def makesOwner0 (c : Cmd) : Bool := cOp c == 0x0301 && cMbx c && descOwner (heldInput c) == 0

/-- Check 9: the entry to reserve, or the status. Until owner 0 exists, every command but the one that creates it ends with `QUORUM_NEEDED`,
whatever stands in the table: R144 is taken over the `EXPIRED` of R139 (assumption 57). -/
def check9 (s : State) (c : Cmd) (x : CmdSpec) : Option Nat ⊕ Nat :=
  match quorumNow c x with
  | none => .inl none
  | some (owner, cls) =>
    if !approvable s c || ((tblFind 0 s.keys.owners).isNone && !makesOwner0 c) then .inr stQuorum
    else match approvalFind s owner cls 0 c.body c.accepted with
      | .inl n => .inl (some n)
      | .inr st => .inr st

/-- An entry reserved for a command (R139, R142). -/
def pendReserve (s : State) (n tag : Nat) : State :=
  match tblFind n s.keys.pend with
  | none => s
  | some e => pendPut s n (some { e with reserved := some tag })

/-- What stands against a new entry of `APPROVAL.REQUEST` at check 9: the table after the expired entries have been removed where their place is
needed, and whether a place is left. An entry already there needs none (R134). -/
def pendPlace (s : State) (c : Cmd) : State × Bool :=
  if cOp c ≠ 0x0307 || !reqNew s c then (s, true)
  else
    let s1 := pendPurge s (cOwner s c)
    (s1, !pendFull s1 (cOwner s c))

/-- The digest that the input of an approved command must have, with its entry: it stands with the reservation (R140, R141). -/
def expectOf (s : State) (e : Option Nat) : Option (Nat × List Byte) :=
  e.bind (fun n => (tblFind n s.keys.pend).map (fun e => (n, e.inDigest)))

/-- Checks 8 to 10: keys are bound, an approval is reserved, randomness is there; then the command waits at check 11. -/
def advanceLate (s : State) (tag : Nat) (c : Cmd) (x : CmdSpec) : State :=
  let missing := x.binds.filter (fun b => !cacheHolds s b.1 b.2)
  if (x.thm || !missing.isEmpty) && !thmUp s then endBefore s tag stSecDown
  else if !missing.isEmpty then
    missing.foldl (fun s b => thmPost s { op := 2, alarm := cAlarm c, tag := 0, a := b.2, nums := [b.1], cmd := some tag }) s
  else
    let r := pendPlace s c
    match check9 s c x with
    | .inr st => endBefore s tag st
    | .inl e =>
      if !r.2 then endBefore r.1 tag stBusy
      else if x.entropy && !rngAvailable s then endBefore r.1 tag stNoEntropy
      else
        let s1 := match e with
          | some n => pendReserve r.1 n tag
          | none => r.1
        cmdPut s1 tag { c with approval := e, expect := expectOf s e, passed := true }

/-- An earlier command that has not passed check 7 names a counted key that this one names: uses are reserved in the order of acceptance, an
alarm-class command going ahead of the others (R74, R112). -/
def useBehind (s : State) (tag : Nat) (c : Cmd) (hs : List Nat) : Bool :=
  let counted := hs.filter (fun h => keyHas s h kCounted)
  !counted.isEmpty && s.tortin.tracker.any (fun e => e.1 != tag && decide (e.2.order < c.order) && (!cAlarm c || cAlarm e.2) && e.2.own &&
    !e.2.mirror && !e.2.seven && (e.2.stage == .waiting || e.2.stage == .preread) &&
    (specAll s e.2).any (fun x => x.uses.any counted.contains))

/-- Checks 2 to 10 as far as they go now. -/
def advance (s : State) (tag : Nat) : State :=
  match cmdAt s tag with
  | none => s
  | some c0 =>
    if c0.stage ≠ .waiting || c0.passed || c0.mirror || thmWaits s tag then s
    else if c0.seven then
      match specAll s c0 with
      | none => s
      | some x => advanceLate s tag c0 x
    else
      let c := { c0 with uses := [] }
      let s1 := cmdPut s tag c
      match specAll s1 c with
      | none => endBefore s1 tag stBadCommand
      | some x =>
        let st := checks s1 c x
        if (st = stOk ∨ st = stExhausted) ∧ useBehind s1 tag c x.uses then s1
        else if st ≠ stOk then endBefore (expiryTell s1 c st) tag st (capNeeded c x st)
        else match leaseNeed s1 x.uses with
          | some h =>
            if !thmUp s1 then endBefore s1 tag stSecDown
            else if leaseAsked s1 h then s1
            else thmPost s1 { op := 0xB, alarm := cAlarm c, tag := 0, a := h, nums := [0, (x.uses.filter (· == h)).length], cmd := some tag }
          | none =>
            let pins := (x.binds.map (·.2)) ++ (if s.scorch.locked then namedKeys s1 c else [])
            let c1 := { c with uses := x.uses, seven := true, pinned := pins }
            let s2 := if cOp c = 0x0405 then (match keyOf s1 (cKeyA c) with
                | some o => { s1 with keys := { s1.keys with
                    objs := tblPut (handleSlot (cKeyA c)) { o with destroying := some tag } s1.keys.objs } }
                | none => s1)
              else s1
            advanceLate (cmdPut s2 tag c1) tag c1 x

/-! ### Acceptance (R67, R68, R561) -/

/-- The entry of a command's token. -/
def dupFind (s : State) (c : Cmd) : Option DupEntry := (dupOf s c).find? (fun e => e.token == cToken c)

/-- Commands that a primary journals: the commands that act on the serving member, and those of the mailbox that change no state, are not
(R79, R338, R440, R464). -/
def journalled (c : Cmd) : Bool :=
  decide (cOp c / 256 ≠ 1) && !([0x020A, 0x0209, 0x0C06].contains (cOp c)) && !(cMbx c && noChange c.body)

/-- An `APPROVAL.REQUEST` whose target, as read, initialises owner 0 (R144). -/
def initRequest (s : State) (c : Cmd) : Bool :=
  cOp c == 0x0307 && cMbx c && (tblFind 0 s.keys.owners).isNone && bodyOp (heldInput c) == 0x0301

/-- The part that Table 3-11 names is the whole input, or reaches through it: an owner description, a credential, handles and arguments, the headers
of a batch, and the owner description behind the body of the request that initialises owner 0. -/
def partWhole (s : State) (c : Cmd) : Bool :=
  [0x0301, 0x0304, 0x0607, 0x0E02].contains (cOp c) || initRequest s c

/-- Bytes of the input that are read before check 2: the part that Table 3-11 names, or the whole input of a command that needs an approval
(R561). -/
def prereadLen (s : State) (c : Cmd) : Nat :=
  match specAll s c with
  | none => 0
  | some x =>
    if x.preread = 0 ∨ cInline c ∨ inShort c x then 0
    else if (quorumNow c x).isSome || partWhole s c then cInLen c else x.preread

/-- Check 1 for a command in its place of the tracker, and what follows it. -/
def enterCmd (s : State) (tag : Nat) : State :=
  match cmdAt s tag with
  | none => s
  | some c =>
    let alone := cmdPut s tag { c with own := false }
    if cToken c = 0 then endBefore alone tag stBadCommand
    else match dupFind s c with
      | some e =>
        if e.digest ≠ cmdDigest c then endBefore alone tag stTokenConflict
        else match e.done with
          | some k => endRepeat s tag k
          | none => cmdPut s tag { c with own := false, stage := .held }
      | none =>
        let s1 := dupEnter s c
        let s2 := if journalled c then jot s1 (jslice c) false (.accept (cToken c) c.origin c.body c.inlined) else s1
        let joins := cOp c == 0x0206 && (sliceGet s (slTarget c)).mode == .resetting
        let wait := prereadLen s c ≠ 0
        let s3 := cmdPut s2 tag { c with joined := joins, stage := if wait then .preread else .waiting }
        if wait then s3 else advance s3 tag

/-- The headers of a batch's entries, where only they are read (Table 3-11): no key of the batch asks for an approval. -/
def batchHeads (s : State) (c : Cmd) : List Nat :=
  if cOp c ≠ 0x0607 ∨ (specAll s c).any (fun x => (quorumNow c x).isSome) then [] else (batchOf s c).1.map (·.at_)

/-- The bytes of the headers at some offsets; the others are not read. -/
def headBytes (hs : List Nat) (bs : List Byte) : List Byte :=
  if hs.isEmpty then bs else bs.mapIdx (fun i b => if hs.any (fun h => decide (h ≤ i ∧ i < h + 16)) then b else 0)

/-- The input of a command that a member takes over has still to be read from host memory (R324). -/
def dueInput (c : Cmd) : Bool := c.due && c.stage == .started && c.copy.isNone && !cInline c && decide (cInLen c ≠ 0)

/-- `INPUT_PREREAD_DONE` (R561): also the second reading of the input of a command that a promoted member executes again (R324). Where the target's body turns out to initialise owner 0, a second read brings the owner description that
follows it. -/
def execInputPrereadDone (tag : Nat) (io : HostRead) (s : State) : Host.Outcome State Fault Refusal :=
  .next (match cmdAt s tag with
    | none => s
    | some c =>
      if dueInput c && tortinRuns s then
        (match (liveIO s c { input := io }).input with
        | .fault => endAfter s tag stHostFault
        | .data bs => cmdPut s tag { c with copy := some (bytesAt bs 0 (cInLen c)) })
      else if c.stage ≠ .preread || !tortinRuns s then s
      else
        let s1 := cmdPut s tag { c with stage := .waiting }
        match (liveIO s c { input := io }).input with
        | .fault => endBefore s1 tag stHostFault
        | .data bs =>
          let held := heldInput c
          let part := held ++ bytesAt (bs.drop held.length) 0 (prereadLen s c - held.length)
          let more := initRequest s { c with copy := some part } && decide (part.length < cInLen c)
          if more then cmdPut s tag { c with copy := some part } else
          let hs := batchHeads s { c with copy := some part }
          advance (keepInput s1 tag { c with stage := .waiting, heads := hs } (headBytes hs part)) tag)

/-! ### Fetching (R55, R75) -/

/-- Places outside the 1,024 kept ones that are taken. -/
def normalUsed (s : State) : Nat := (s.tortin.tracker.filter (fun e => e.1 != mbxTag && !e.2.kept)).length

/-- Where a further command of a slice finds its place: `false` an ordinary one, `true` one of those kept for alarm rings (R69, R75). -/
def placeKind (s : State) (n : Nat) (alarm : Bool) : Option Bool :=
  let x := sliceGet s n
  let k := inFlight s n
  if 4096 ≤ (x.dup.filter (fun e => e.done.isNone)).length then none
  else if k < x.bound ∧ normalUsed s < 15360 then some false
  else if alarm ∧ k < x.bound + min 64 (4096 - x.bound) ∧ tblCount (fun (c : Cmd) => c.kept) s.tortin.tracker < 1024 then some true
  else none

/-- An entry of a ring can be fetched now. -/
def ringReady (s : State) (n k : Nat) : Bool :=
  let x := sliceGet s n
  let r := sqGet x k
  x.mode == .active && ringOn r.cfg && decide (sqPending r ≠ 0) && r.stall != some r.tail && (retryOf s (.sqFetch n k)).isNone &&
  s.tortin.drain.all (fun t => !(cmdAt s t).any (fun c => cSlice c == some n)) && (placeKind s n (bitOf r.cfg 30)).isSome

/-- A ring marked for alarm service. -/
def alarmRing (s : State) (n k : Nat) : Bool := bitOf (sqGet (sliceGet s n) k).cfg 30

/-- The ring of a slice that is served next: alarm rings in ascending order, then the ring being visited, then the next in rotation. -/
def ringNext (s : State) (n : Nat) : Option Nat :=
  let ready := (List.range 16).filter (ringReady s n)
  let normal := ready.filter (fun k => !alarmRing s n k)
  let stay := match s.tortin.visit with
    | some (m, k, t) => if m = n ∧ t < 16 ∧ normal.contains k then some k else none
    | none => none
  (ready.find? (alarmRing s n)).or (stay.or ((normal.find? (fun k => decide ((sliceGet s n).lastRing < k))).or normal.head?))

/-- The visit in progress goes on: fewer than 16 entries were taken, and the slice's next ring is the one visited or an alarm ring. -/
def visitStays (s : State) : Option Nat :=
  match s.tortin.visit with
  | some (n, k, t) =>
    if t < 16 ∧ (ringNext s n).any (fun j => j == k || alarmRing s n j) then some n else none
  | none => none

/-- The ring whose entry the front end fetches next. -/
def fetchTurn (s : State) : Option (Nat × Nat) :=
  let ns := (s.slices.map (·.1)).filter (fun n => (ringNext s n).isSome)
  let n := (visitStays s).or ((ns.find? (fun n => decide (s.tortin.lastSlice < n))).or ns.head?)
  n.bind (fun n => (ringNext s n).map (fun k => (n, k)))

/-- The visit after an entry of a ring was taken. -/
def visitNote (s : State) (n k : Nat) : State :=
  let t := match s.tortin.visit with
    | some (m, _, t) => if m = n ∧ t < 16 then t + 1 else 1
    | none => 1
  let s1 := { s with tortin := { s.tortin with visit := some (n, k, t), lastSlice := n } }
  if alarmRing s n k then s1 else slicePut s1 n { sliceGet s1 n with lastRing := k }

/-- Continuation entries of a command, which the front end skips whatever its length (R61). -/
def contEntries (body : List Byte) : Nat := if bodyInline body then (bodyInLen body + 63) / 64 else 0

/-- An entry that has been read is accepted, with its continuation entries once the tail covers them. -/
def fetchEntry (s : State) (n k : Nat) (bs : List Byte) : State :=
  let r := sqGet (sliceGet s n) k
  let body := bytesAt bs 0 64
  let more := contEntries body
  if sqPending r < 1 + more then sqPut (retryDel s (.sqFetch n k)) n k { r with stall := some r.tail }
  else match placeKind s n (bitOf r.cfg 30), tblFree s.tortin.tracker 0 16384 with
    | some kept, some tag =>
      let s1 := visitNote (retryDel s (.sqFetch n k)) n k
      let s2 := sqPut (agentNext s1 agCp).2 n k { r with head := (r.head + 1 + more) % ringSize r.cfg, stall := none }
      let len := if more = 0 then 0 else min (bodyInLen body) 1024
      let c : Cmd := {
        origin := .ring n k r.head, body := body, inlined := bytesAt bs 64 len
        restZero := bytesAt bs (64 + len) (roundUp len 64 - len) == zeros (roundUp len 64 - len)
        order := s.tortin.order, accepted := nowStamp s, kept := kept }
      let s3 := cmdPut s2 tag c
      enterCmd { s3 with tortin := { s3.tortin with order := s.tortin.order + 1 } } tag
    | _, _ => s

/-- `COMMAND_FETCH`. -/
def execCommandFetch (slice ring : Nat) (entry : HostRead) (s : State) : Host.Outcome State Fault Refusal :=
  .next (if !ringsServed s || fetchTurn s != some (slice, ring) then s
    else if !fnLive s (sliceGet s slice).port then ringFail s (.sqFetch slice ring) slice (fun s => sqHalt s slice ring)
    else match entry with
      | .fault => ringFail s (.sqFetch slice ring) slice (fun s => sqHalt s slice ring)
      | .data bs => fetchEntry s slice ring bs)

/-! ### Checks 11 and 12, and execution start (R64, R65, R73, R74) -/

/-- Every command fetched earlier from the same ring has its completion written (R73). -/
def fenceOpen (s : State) (c : Cmd) : Bool :=
  !cFence c || (match c.origin with
    | .mailbox _ => true
    | .ring n k _ => s.tortin.tracker.all (fun e => match e.2.origin with
      | .ring m j _ => m != n || j != k || decide (c.order ≤ e.2.order)
      | .mailbox _ => true))

/-- The staging of a command's input and output can be charged (R236). -/
def stageOk (s : State) (c : Cmd) (x : CmdSpec) : Bool :=
  let n := stageBufs (cInLen c) + stageBufs x.outMax
  n == 0 || acctTakes s (match cSlice c with
    | some k => 5 + k
    | none => 0) n

/-- The command would begin a change of the persistent key store (R514). -/
def persistChange (s : State) (c : Cmd) : Bool :=
  let op := cOp c
  [0x0301, 0x0302, 0x0C03].contains op || ([0x0401, 0x0402, 0x0403, 0x0404].contains op && bitN (kcAttrs c) kPersist) ||
  ([0x0405, 0x0407, 0x0409].contains op && keyHas s (cKeyA c) kPersist) ||
  ([0x0603, 0x0604, 0x0605].contains op && bitN (par c 56 4) kPersist) || [0x0807, 0x0809, 0x080A, 0x0901].contains op

/-- The register blocks of the host's area that a command's effect writes: a command is Tortin's own writer there (R18). -/
def cpwBlocks (c : Cmd) : List Blk :=
  let op := cOp c
  if op = 0x0105 then [.dev] else if op = 0x0702 then [.rng] else if op = 0x0801 then [.lnk (par c 52 1)]
  else if op = 0x0B02 ∨ op = 0x0B03 ∨ op = 0x0B04 then [.time] else if op = 0x0B05 then [.pwr, .time] else if op = 0x0B06 then [.pwr, .time]
  else if op = 0x0D05 ∨ op = 0x0D07 then [.scr] else []

/-- Nothing but Mangle and Bobbin holds a command at check 11: its engine's place and its staging; a change of the persistent key store waits under
a supply warning and while the journal area has no room (R110, R514); a command that writes the registers of a block waits until 10 µs after the
host's last write to a `CPW` register there (R18). -/
def startRest (s : State) (c : Cmd) (x : CmdSpec) : Bool :=
  c.stage == .waiting && c.passed && !c.mirror && fenceOpen s c && x.free && stageOk s c x && s.seam.switch.isNone && !journalFull s && seamFits s c &&
  !(persistChange s c && (s.scorch.supplyWarn || s.scorch.pfw || !jrnRoom s 8192)) && !(cpwBlocks c).any (hostPair s)

/-- The arbiter's group of what a command draws (R219): blinding, the random values of a signature, key generation and encapsulation, and the other
draws; the calls of `RNG.GET` stand at the arbiter by themselves. A command's draws are whole in its start and stand in one group, that of its random
values where it draws both (DESIGN CHOICE, assumption 28). -/
def drawGroup (c : Cmd) (x : CmdSpec) : Option Nat :=
  let op := cOp c
  if op = 0x0701 then none
  else if x.entropy then some (if op = 0x0601 then 2 else if [0x0301, 0x0401, 0x0604, 0x0809].contains op then 3 else 5)
  else if needsBlind c then some 1 else none

/-- Bobbin serves a command's random and blinding values, and its turn at the arbiter has come (R187, R214, R219). -/
def bobbinReady (s : State) (c : Cmd) (x : CmdSpec) : Bool :=
  (!x.entropy || bobbinServes s) && (!needsBlind c || blindServes s) && (drawGroup c x).all (fun g => startTurn s c g (cAlarm c))

/-- Nothing holds a command at check 11. -/
def startReady (s : State) (c : Cmd) (x : CmdSpec) : Bool := startRest s c x && mangleFree s c && bobbinReady s c x

/-- An alarm-class command that goes ahead is ready (R74). -/
def alarmAhead (s : State) (tag : Nat) (c : Cmd) : Bool :=
  s.tortin.tracker.any (fun e => e.1 != tag && cAlarm e.2 && (!cAlarm c || decide (e.2.order < c.order)) &&
    (specAll s e.2).any (startReady s e.2))

/-- The slots taken at check 11. -/
def placedSlots (c : Cmd) : List Nat :=
  match c.placed with
  | some (a, n) => (List.range n).map (a + ·)
  | none => []

/-- A save STOP that begins: an active slice quiesces and its interrupts are parked (R344, R352; DESIGN CHOICE, assumption 34: the acceptance of the
STOP is its execution start). -/
def stopBegin (s : State) (c : Cmd) : State :=
  if par c 54 1 = 2 ∧ (sliceGet s (slTarget c)).mode = .active then
    slicePut s (slTarget c) { sliceGet s (slTarget c) with mode := .quiescing, parking := true }
  else s

/-- What a command's engine does at its start. -/
def startHook (s : State) (tag : Nat) (c : Cmd) (mask : Nat) : State :=
  if 0x0501 ≤ cOp c ∧ cOp c ≤ 0x0508 then pressStart s tag c
  else if cOp c = 0x0D05 then unlockStart s tag mask
  else if cOp c = 0x0207 then stopBegin s c
  else mangleStart s tag c

/-- Execution start: the input and the largest output `out` are staged, the reserved uses and the approval are consumed, and the primary journals its
decisions. A use consumed cannot be undone (R72). -/
def startCmd (s0 : State) (tag : Nat) (c : Cmd) (out : Nat) : State :=
  let (si, s1) := stageTake s0 c (cInLen c)
  let (so, s2) := stageTake s1 c out
  let s := c.pinned.foldl cacheUse (startGone s2 c.order)
  let mask := ((c.approval.bind (fun n => tblFind n s.keys.pend)).map (·.mask)).getD 0
  let c1 := { c with
    stage := .started, started := nowStamp s, uses := [], approval := none, work := {}, stageIn := si, stageOut := so
    effect := c.effect || c.uses.any (fun h => keyHas s h kCounted) }
  let s1 := cmdPut (c.uses.foldl useTake s) tag c1
  let s2 := if journalled c then
      jot s1 (jslice c) true (.outcome (cToken c) none (nowStamp s) (placedSlots c) c.approval)
    else s1
  let s3 := match c.approval with
    | some n => pendPut s2 n none
    | none => s2
  startHook s3 tag c1 mask

/-- Check 12 and the start, once nothing is left to wait for. -/
def startOrLate (s : State) (tag : Nat) (c : Cmd) (out : Nat) : State :=
  if cDeadline c ≠ 0 ∧ cDeadline c < (nowStamp s).toNat then endBefore s tag stDeadline else startCmd s tag c out

/-- Check 11 passes: statuses of the command's turn, the usage check again (R162), the lock again (R502), the placement of key slots,
then the deadline. -/
def startStep (s : State) (tag : Nat) (c : Cmd) (x : CmdSpec) : State :=
  if x.late ≠ stOk ∧ !c.joined then endBefore s tag x.late (capNeeded c x x.late)
  else if x.binds.any (fun b => !cacheAllows s b.1 b.2 x.usage) then endBefore s tag stDenied
  else if s.scorch.locked && !lockPermits s c then endBefore s tag stLocked
  else match x.place, c.placed with
    | some n, none =>
      if thmWaits s tag then s
      else if placeStatus s c n ≠ stOk then endBefore s tag (placeStatus s c n)
      else thmPost s { op := 4, alarm := cAlarm c, tag := 0, nums := [n], cmd := some tag }
    | _, _ => startOrLate s tag c x.outMax

/-- A command that only Bobbin holds stands at the arbiter, once. -/
def startAsk (s : State) (c : Cmd) (g : Nat) : State :=
  rngAsk (startGone s c.order) { what := .start c.order, group := g, alarm := cAlarm c, left := 0 }

/-- A command at check 11: it starts, or its hybrid operation joins Mangle's waiting queue (R181), or it stands at Bobbin's arbiter (R219), or
waits. -/
def startTry (s : State) (tag : Nat) (c : Cmd) (x : CmdSpec) : State :=
  if !startRest s c x || !mangleFree s c then startGone s c.order
  else if !bobbinReady s c x then (match drawGroup c x with
    | some g => startAsk s c g
    | none => s)
  else if alarmAhead s tag c then s
  else if isPair s c && !pairNow s then pairQueue s tag c
  else startStep s tag c x

/-- A command that a member executes by the journal, or again after a promotion, begins its engine's work: its keys are bound, it finds its places, and
Bobbin serves its blinding values (R115, R179, R187, R324). -/
def dueStart (s : State) (tag : Nat) (c : Cmd) : State :=
  match specAll s c with
  | none => cmdPut s tag { c with due := false }
  | some x =>
    let d := { c with due := false, pinned := x.binds.map (·.2) }
    let s1 := (x.binds.filter (fun b => !cacheHolds s b.1 b.2)).foldl bindOwn (cmdPut s tag d)
    if (x.binds.any (fun b => !cacheHolds s b.1 b.2) && (!thmUp s || s.scorch.locked)) || !mangleFree s d ||
        (needsBlind d && !blindServes s) || x.binds.any (fun b => !cacheHolds s1 b.1 b.2) then s
    else
      let s2 := d.pinned.foldl cacheUse s1
      if 0x0501 ≤ cOp d ∧ cOp d ≤ 0x0508 then pressStart s2 tag d else mangleStart s2 tag d

/-- `COMMAND_START`. A command that still waits before check 11 goes on as far as it can. -/
def execCommandStart (tag : Nat) (s : State) : Host.Outcome State Fault Refusal :=
  .next (match cmdAt s tag with
    | none => s
    | some c =>
      if tortinRuns s && c.due && c.stage == .started then (if dueInput c then s else dueStart s tag c)
      else if !tortinRuns s || c.mirror || c.stage ≠ .waiting then s
      else if !c.passed then advance s tag
      else match specAll s c with
        | none => s
        | some x => startTry s tag c x)

/-- The hybrid operation of a command that waits at check 11 is next: its command starts, or, where something else holds it by now, leaves the queue
and waits as before. -/
def pairTurn (s : State) (tag : Nat) (c : Cmd) (w : MangleWait) (ds : List (Nat × Nat)) : State :=
  let d := { c with queued := false }
  let out := cmdPut (waitOut s w) tag d
  match specAll s d with
  | none => out
  | some x =>
    if !tortinRuns s then s
    else if startRest s d x && bobbinReady s d x then
      let t := startStep s tag d x
      if (cmdAt t tag).any (fun e => e.stage == .started) then mangleCharge t w ds else t
    else out

/-- `MANGLE_SLOT_FILL`: a slot of the unit that R180 names has become free and takes the operation that is next; a hybrid one goes when two units have
room. -/
def execMangleSlotFill (unit : Nat) (s : State) : Host.Outcome State Fault Refusal :=
  .next (if pwrMode s ≠ 0 ∨ s.pwr.vault ∨ unitFor s none ≠ some unit then s
    else match mangleNext s with
    | none => s
    | some (w, ds) =>
      if !waitFits s w then s
      else match w.op.src with
        | .cmd tag _ => match cmdAt s tag with
          | some c => if c.queued then pairTurn s tag c w ds else mangleTake (mangleCharge s w ds) w
          | none => mangleTake (mangleCharge s w ds) w
        | _ => mangleTake (mangleCharge s w ds) w)

/-! ### Completions (R56, R66 to R68, R71) -/

/-- A primary's entry for the end of a command, once: its outcome, its result or that it is done. Nothing of the command is released before
that entry is acknowledged. -/
def endNote (s : State) (tag : Nat) (c : Cmd) : State :=
  if !isPrimary s || !c.own || !journalled c || decide (c.jseq ≠ 0) then s
  else
    let k := c.comp
    let s1 :=
      if c.freeTok then jot s (jslice c) true (.outcome (cToken c) (some k.status) 0 [] none)
      else if isRandom c then jotResult s (jslice c) (cToken c) k.status k.len k.extra c.out
      else if isStateless c then jot s (jslice c) true (.done (cToken c) k.status k.len k.extra)
      else s
    cmdPut s1 tag { c with jseq := s1.seam.nextSeq - 1 }

/-- The held repeats of a command that has left the tracker (R68): they are answered with its completion, or the first of them becomes
the command. -/
def heldRelease (s : State) (c : Cmd) : State :=
  let hs := tagsOf s (fun h => h.stage == .held && sameOrigin h c && cToken h == cToken c)
  if !c.own then s
  else if !c.freeTok then hs.foldl (fun s t => endRepeat s t c.comp) s
  else match (sortBy (fun t => ((cmdAt s t).map (·.order)).getD 0) hs).head? with
    | none => s
    | some t => match cmdAt s t with
      | none => s
      | some h => enterCmd (cmdPut s t { h with own := true, stage := .waiting, accepted := nowStamp s }) t

/-- The completion of the mailbox's command (R78, R549). -/
def mbxWrite (s : State) (p : Nat) (c : Cmd) : State :=
  let bs := compBytes (cToken c) false 0 c.comp
  let s1 := (List.range 8).foldl (fun s i => regPut s (aMbxRsp + 4 * i) (BitVec.ofNat 32 (leAt bs (4 * i) 4))) (putOutput s c c.out)
  let m := s1.tortin.mbx
  let s2 := { s1 with tortin := { s1.tortin with mbx := { m with busy := false, done := true } } }
  if bitOf (regGet s aMbxCtrl) 1 && !m.mute then raiseMsix s2 p 0 else s2

/-- What follows a completion that has been written: the entry COMPLETE, held repeats, a reset of the slice, STANDBY, or the device reset
that the command asked for. -/
def afterComp (s : State) (tag : Nat) (c : Cmd) : State :=
  let s1 := cmdRelease s tag
  let s2 := if c.own && journalled c then jot s1 (jslice c) false (.complete [cToken c]) else s1
  let s3 := heldRelease s2 c
  let s4 := match cSlice c with
    | some n => resetStep s3 n
    | none => s3
  if s.tortin.resetTag = some tag then deviceReset s4
  else if s.pwr.standby = some tag then
    (if pwrHeld s then { s4 with pwr := { s4.pwr with standby := none } } else enterStandby s4)
  else s4

/-- An ended command's completion is written where it can be. -/
def compTry (s0 : State) (tag : Nat) (ok : Bool) : State :=
  match cmdAt s0 tag with
  | none => s0
  | some c0 =>
    let s := endNote s0 tag c0
    match cmdAt s tag with
    | none => s
    | some c =>
      if !seamReleased s c.jseq then s
      else match c.origin with
        | .mailbox p => afterComp (mbxWrite s p c) tag c
        | .ring n _ _ =>
          let q := cmdCq s c
          if !cqRoom s n q then s
          else if ok && fnLive s (sliceGet s n).port then afterComp (writeComp (retryDel s (.cqWrite n q)) n c) tag c
          else ringFail s (.cqWrite n q) n (fun s => cqHalt s n q)

/-- `COMPLETION_WRITE`: while a failed write of the ring waits for its retry, no other completion is written there. -/
def execCompletionWrite (tag : Nat) (ok : Bool) (s : State) : Host.Outcome State Fault Refusal :=
  .next (match cmdAt s tag with
    | none => s
    | some c =>
      let held := match cSlice c with
        | some n => (retryOf s (.cqWrite n (cmdCq s c))).isSome
        | none => false
      if !tortinRuns s || c.mirror || c.stage ≠ .ended || held then s else compTry s tag ok)

/-! ### The front mailbox (R78, R79, R83) -/

/-- The request words as a command. -/
def mbxBody (s : State) : List Byte := (List.range 16).flatMap (fun i => leBytes 4 (regGet s (aMbxReq + 4 * i)).toNat)

/-- A `GO` through a function: performed, or refused while a request is in progress. -/
def mbxGo (s : State) (fn : Nat) : State :=
  let m := s.tortin.mbx
  if m.busy then
    regAdd { s with tortin := { s.tortin with mbx := { m with refused := true } } } aMbxRefused 1
  else
    let s1 := { s with tortin := { s.tortin with
      mbx := { m with busy := true, done := false, refused := false, mute := false, fn := fn }, order := s.tortin.order + 1 } }
    let c : Cmd := { origin := .mailbox fn, body := mbxBody s, order := s.tortin.order, accepted := nowStamp s }
    enterCmd (cmdPut (agentNext s1 agCp).2 mbxTag c) mbxTag

/-- A host's write of `MBX_CTRL` that is served (R475). Before any code serves the mailbox there is nothing to start. -/
def mbxCtrl (s : State) (fn : Nat) (value : Word) : State :=
  if s.lc.trans.isSome then ignWrite s
  else
    let s1 := regPut s aMbxCtrl (value &&& 2#32)
    if bitOf value 0 && decide (s.tortin.server ≠ 0) && !cpHalted s then mbxGo s1 fn else s1

/-- `MBX_GO`: a host's write of `MBX_CTRL`, for which the device wakes (R45). -/
def execMbxGo (fn : Nat) (value : Word) (s : State) : Host.Outcome State Fault Refusal :=
  .next (if s.pwr.vault || !portThere s fn then s
    else hostMeets s 11 (.write fn none (.reg aMbxCtrl) value) (fun s => mbxCtrl s fn value))

end Sys2Proof.Machine
end

