-- ==== Sys2Proof/Machine/ThmAnswers.lean ====
section
/-! DEFINITION. Thimble's responses: the response ring, and what the CP finishes with each answer (spec 14, R397, R398; spec 04,
R121). -/

namespace Sys2Proof.Machine

/-- The response ring has a free entry: 32 entries, one of them kept free (R397). -/
def rspRoom (s : State) : Bool := procRuns s && decide ((regField s (aThm 0x14) 4 0 + 1) % 32 ≠ regField s (aThm 0x18) 4 0)

/-- The bytes of a response (Table 14-3). The layout of the public result values is not described: a free value. -/
def rspBytes (r : ThmRsp) (free : List Byte) : List Byte :=
  leBytes 2 r.status ++ zeros 2 ++ leBytes 4 r.tag ++ leBytes 4 r.a ++ leBytes 4 r.data.length ++ zeros 8 ++ bytesAt free 0 40

/-- A response entry is written and the tail advances; `RSP` is an event (R397). -/
def rspWrite (s : State) (r : ThmRsp) : State :=
  let t := regField s (aThm 0x14) 4 0
  let (free, s1) := freeBytes s 40
  let bs := rspBytes r free
  let s2 := (List.range 16).foldl (fun s i =>
    regPut s (aThm (0x2000 + 64 * t + 4 * i)) (BitVec.ofNat 32 (leAt bs (4 * i) 4))) s1
  thmEvent (regPut s2 (aThm 0x14) (BitVec.ofNat 32 ((t + 1) % 32))) 0

/-- A command that still waits before its start gets its answer: a binding, a placement or a lease lets it go on, or ends it. -/
def answerWaiting (s : State) (tag : Nat) (r : ThmRsp) : State :=
  if r.op = 2 then (if r.status = stOk ∨ r.status = stBusy then advance s tag else endBefore s tag r.status)
  else if r.status ≠ stOk then endBefore s tag r.status
  else if r.op = 0xB then advance s tag
  else s

/-- A queue whose binding failed is removed again, and its command ends. -/
def queueUndo (s : State) (tag : Nat) (r : ThmRsp) : State :=
  let q := r.nums.getD 1 0
  endAfter (queueNote { s with links := { s.links with queues := tblDel q s.links.queues } } q) tag r.status

/-- A started command gets its answer (R121): a creating command returns the handle; the others do what their family says. -/
def answerStarted (s : State) (tag : Nat) (c : Cmd) (r : ThmRsp) : State :=
  let op := cOp c
  if [0x0401, 0x0402, 0x0403, 0x0404].contains op then
    (if r.status = stOk then endOk s tag 0 (BitVec.ofNat 64 r.a) else endAfter s tag r.status)
  else if op = 0x0405 then (if r.status = stOk then endOk s tag else endAfter (destroyDrop s tag) tag r.status)
  else if op = 0x0407 ∨ op = 0x0409 then (if r.status = stOk then endOk s tag else endAfter s tag r.status)
  else if [0x0603, 0x0604, 0x0605].contains op then pkCreated s tag c r
  else if op = 0x0809 then enrolDone s tag r
  else if op = 0x0301 ∨ op = 0x0302 then ownerDone s tag c r
  else if op = 0x0803 then
    (if r.status = stOk then endOk s tag 0 (BitVec.ofNat 64 (r.nums.getD 1 0)) else queueUndo s tag r)
  else if op = 0x080A then (if r.status = stOk then endOk (cardDrop s (par c 52 8)) tag else endAfter s tag r.status)
  else if op = 0x0C03 then handDone s tag c r
  else if op = 0x0D02 ∨ op = 0x0D03 then lcDone s tag r
  else s

/-- The keys of an epoch stand in the link registers: the change begins, or the command that asked for it ends (R279). -/
def answerEpoch (s : State) (r : ThmRsp) : State :=
  let cmd := r.cmd.filter (fun t => (cmdAt s t).any (fun c => c.stage == .started))
  if r.status = stOk then rekeyBegin s (r.nums.getD 0 0) (r.nums.getD 1 0) cmd
  else match cmd with
    | some tag => endAfter s tag r.status
    | none => s

/-- The CP finishes what waited on an answer. -/
def answerTake (s : State) (r : ThmRsp) : State :=
  if r.op = 0xD then answerEpoch s r
  else match r.cmd with
    | none => s
    | some tag => match cmdAt s tag with
      | none => s
      | some c => match c.stage with
        | .waiting => answerWaiting s tag r
        | .started => answerStarted s tag c r
        | _ => s

/-- `THIMBLE_RESPONSE`: the oldest answer becomes a response. -/
def execThimbleResponse (s : State) : Host.Outcome State Fault Refusal :=
  .next (match s.thm.answers with
    | [] => s
    | r :: more =>
      if !thmUp s || !rspRoom s then s
      else answerTake (rspWrite { s with thm := { s.thm with answers := more } } r) r)

end Sys2Proof.Machine
end

