-- ==== Sys2Proof/Machine/CpRestart.lean ====
section
/-! DEFINITION. CP firmware restarts and the CP watchdog (spec 03, R72; spec 16, R442; spec 20, R542, R547). -/

namespace Sys2Proof.Machine

/-- What Thimble has answered to started commands is finished first: their effects were complete before the restart. An answer that waits for
a command that is discarded finds none. -/
def finishAnswers (s : State) : State :=
  let done (r : ThmRsp) : Bool := r.op != 0xD && r.cmd.any (fun t => (cmdAt s t).any (fun c => c.stage == .started))
  let s1 := (s.thm.answers.filter done).foldl answerTake s
  { s1 with thm := { s1.thm with
    answers := s1.thm.answers.map (fun r => { r with cmd := none }), reqs := s1.thm.reqs.filter (fun r => r.cmd.isNone) } }

/-- Part of a started command's effect cannot be undone (R72): a use consumed, frames sent, a reset or a stop begun, a role given away, a
record written. -/
def partDone (s : State) (tag : Nat) (c : Cmd) : Bool :=
  c.effect || [0x0202, 0x0206].contains (cOp c) || s.needle.cores.any (fun e => e.2.stop.any (fun w => w.cmd == tag)) ||
  s.links.enrols.any (fun e => e.tag == tag) || s.links.cards.any (fun e => e.2.change.any (fun x => x.cmd == some tag)) ||
  ([0x0902, 0x080A].contains (cOp c) && decide (c.work.step ≠ 0)) ||
  (cOp c == 0x0805 && (queueGet s (par c 52 2)).any (fun x => x.mode == .draining)) ||
  (cOp c == 0x0207 && (sliceGet s (slTarget c)).mode == .quiescing)

/-- The frames of a `LINK.SEND` that have not been transmitted are freed (R72). -/
def sendDrop (s : State) (tag : Nat) : State :=
  let mine (f : TxFrame) : Bool := f.cmd == some tag && f.sent == 0
  s.links.queues.foldl (fun s e =>
    let s1 := (e.2.txList.filter mine).foldl txFree s
    queueMod s1 e.1 (fun x => { x with
      txList := (x.txList.filter (fun f => !mine f)).map (fun f => if f.cmd = some tag then { f with cmd := none } else f) })) s

/-- A queue that a `QUEUE.CREATE` left unbound is removed again; the pending generation of an `FW.ACTIVATE` is abandoned. -/
def startUndo (s : State) (c : Cmd) : State :=
  if cOp c = 0x0803 ∧ c.work.step ≠ 0 then
    let qs := tblKeys (fun (x : Queue) => x.key == cKeyA c && x.present.isNone && x.mode == .paused) s.links.queues
    match qs.getLast? with
    | some q => queueNote { s with links := { s.links with queues := tblDel q s.links.queues } } q
    | none => s
  else if cOp c = 0x0C03 then ctlMap s (fun b => { b with gens := genMode .pending .abandoned b.gens })
  else s

/-- Everything that works for a command lets go of it. -/
def cmdLeave (s : State) (tag : Nat) : State :=
  let s1 := enrolDrop (mangleLeave (pressLeave (sendDrop s tag) (.cmd tag 0)) tag) tag
  { s1 with
    rng := { s1.rng with reqs := s1.rng.reqs.filter (fun r => r.what != .cmd tag) }
    needle := { s1.needle with
      cores := tblMap (fun (k : Core) => if k.stop.any (fun w => w.cmd == tag) then { k with stop := none } else k) s1.needle.cores }
    slices := tblMap (fun (x : Slice) => if x.resetBy = some tag then { x with resetBy := none } else x) s1.slices
    links := { s1.links with
      cards := tblMap (fun (x : CardRec) => { x with
        change := x.change.map (fun y => if y.cmd = some tag then { y with cmd := none } else y) }) s1.links.cards } }

/-- A command of the tracker meets a CP firmware restart (R72). -/
def cmdAbort (s : State) (tag : Nat) : State :=
  match cmdAt s tag with
  | none => s
  | some c =>
    if c.mirror || c.stage == .ended then s
    else if c.stage ≠ .started then endBefore s tag stAborted
    else
      let kept := partDone s tag c
      let s1 := cmdLeave s tag
      if kept then endAfter s1 tag stAborted else endBefore (startUndo s1 c) tag stAborted

/-- Leases end, and objects with `EXPIRE_AT_RESET` become invalid (R94, R114). -/
def restartKeys (s : State) : State :=
  let s1 := { s with keys := { s.keys with objs := tblMap (fun (o : KeyObj) => { o with lease := 0 }) s.keys.objs } }
  (tblKeys (fun (o : KeyObj) => bitN o.attrs kExpire) s1.keys.objs).foldl keyErase s1

/-- A CP firmware restart. -/
def cpRestart (s : State) : State :=
  let s0 := if s.seam.forming.isSome then formEnd s stAborted s.seam.failed else s
  let s1 := finishAnswers s0
  let tags := tagsOf s1 (fun c => !c.mirror)
  let s2 := restartKeys (tags.foldl cmdAbort s1)
  let standby := s2.pwr.standby.filter (fun t => (cmdAt s2 t).any (fun c => c.stage == .ended))
  let s3 := { s2 with
    press := { s2.press with ctxs := [] }
    pwr := { s2.pwr with standby := standby }
    tortin := { s2.tortin with retries := [], visit := none, drain := tags.filter (· != mbxTag) }
    dev := { s2.dev with restartAt := nowStamp s, cpExc := 0, restartDue := false } }
  let n := regField s3 aDevResetCnt 31 16
  sqcSet (regSetField s3 aDevResetCnt 31 16 (min 0xFFFF (n + 1))) aDevEvt 6

/-- Tortin runs and can be restarted. -/
def restartable (s : State) : Bool := s.tortin.server == 3 && !s.pwr.vault && !resetHeld s

/-- `CP_FIRMWARE_RESTART`: `imageOk`: the boot ROM finds that the Tortin image in CP SRAM hashes to BM1 (R442). -/
def execCpFirmwareRestart (imageOk : Bool) (s : State) : Host.Outcome State Fault Refusal :=
  .next (if !restartable s then s else if imageOk then cpRestart s else deviceReset s)

/-- `WATCHDOG_EXPIRY` (R547): it is paused while the JTAG port halts the CP. A member of a group leaves with FAREWELL, and asks for
resynchronisation once Tortin runs again (R321). -/
def execWatchdogExpiry (imageOk : Bool) (s : State) : Host.Outcome State Fault Refusal :=
  .next (if !restartable s || cpHalted s then s
    else
      let again := s.dev.dogAt.any (fun t => decide (s.time.clk < t + 10 * cycS))
      let s1 := { s with dev := { s.dev with dogAt := some s.time.clk } }
      if again || !imageOk then deviceReset s1
      else
        let s2 := cpRestart (seamBye s1 .watchdog)
        if s2.seam.role = .fenced then seamAsk s2 else s2)

end Sys2Proof.Machine
end

