-- ==== Sys2Proof/Machine/NeedleMem.lean ====
section
/-! DEFINITION. What a Needle core reaches: fetches, reads and writes with their checks, operands, and how an instruction
ends (spec 13, R360, R361, R365 to R372, R379, R380; spec 14, R406, R411). -/

namespace Sys2Proof.Machine

/-! ### Accesses (Table 13-2) -/

/-- Where an access of core n lands. -/
inductive CorePlace where
  | instr (off : Nat)
  | work (off : Nat)
  | buf (a : Nat)
  | clock (lo : Nat)
  | reg (a : Nat)
  | outside
  deriving DecidableEq, Repr

/-- An address of the local alias in global form (R406). -/
def globalAddr (n a : Nat) : Nat := coreGlobal n a

/-- A register of the core's view, and whether it may be written there. -/
def coreRegSeen (s : State) (n a : Nat) (write : Bool) : Bool :=
  (!write && decide (0x80070000 ≤ a ∧ a < 0x80070008)) || decide (0x80080080 ≤ a ∧ a < 0x8008008C) ||
    (decide (0x81000000 ≤ a ∧ a < 0x81004000) && dmaDrives s (.core n) (a % 0x4000 / 0x40))

/-- The core's own address filter (R360, R361). -/
def corePlace (s : State) (n a size : Nat) (k : AccKind) : CorePlace :=
  let g := globalAddr n a
  let win := 0x20000000 + 0x100000 * n
  if win ≤ g ∧ g < win + 0x10000 then (if k = .write then .outside else .instr (g % 0x100000))
  else if win + 0x80000 ≤ g ∧ g < win + 0xC0000 then (if k = .fetch then .outside else .work (g % 0x40000))
  else if k = .fetch then .outside
  else if 0x40000000 ≤ a ∧ a < 0x44000000 then
    let b := bufOffset a / 256
    if (bufGet s b).held ∧ (bufGet s b).owner = tagCore n then .buf a else .outside
  else if (a = aTimeNowLo ∨ a = aTimeCtLo) ∧ size = 8 ∧ k = .read then .clock a
  else if coreRegSeen s n a (k == .write) && coreRegSeen s n (a + size - 1) (k == .write) then .reg a
  else .outside

/-- World and owner of a core's accesses (Table 14-1). -/
def coreWho (s : State) (n : Nat) : Accessor := { agent := agCore n, secure := false, owner := (coreGet s n).owner }

/-- The rule set in force (R363). -/
def coreSet (k : Core) : Nat := b2n (bitOf k.ctx 8)

/-- An access of `size` bytes is checked: no exception, or its cause, with the state that records a refusal. The order is
alignment, the access-rule unit, the address filter and the Hem controller. -/
def accCheck (s : State) (n a size : Nat) (k : AccKind) : Option Nat × State :=
  if a % size ≠ 0 then (some 3, s)
  else match aruCheck s n (coreSet (coreGet s n)) a k with
    | (false, s1) => (some 4, s1)
    | (true, _) =>
      if corePlace s n a size k = .outside then (some 4, s)
      else match hemCheck s (coreWho s n) (globalAddr n a) size k with
        | (false, s1) => (some 4, s1)
        | (true, _) => (none, s)

/-- One register of the core's view read whole; `RNG_DATA` takes a word. -/
def coreRegRead (s : State) (n a : Nat) : Word × State :=
  if a = aRngData then rngRead (touchFast s) (.core n)
  else if a = aRngDataStat then (tblGet 0 s.rng.outcome 2, s)
  else if a = aHmpOpArg then (tblGet 0 s.hamper.opArg n, s)
  else if a = aHmpOpRes then (tblGet 0 s.hamper.opRes n, s)
  else if 0x81000000 ≤ a then dmaRegRead s (.core n) (a % 0x4000 / 0x40) (a % 0x40)
  else (0, s)

/-- A read of registers: words with their effects; a narrow read returns the bytes and has none (R428, R431). -/
def coreRegBytes (s : State) (n a size : Nat) : List Byte × State :=
  if size < 4 then
    let at_ := a / 4 * 4
    let w := if at_ = aRngData then 0 else (coreRegRead s n at_).1
    (bytesAt (leBytes 4 w.toNat) (a % 4) size, s)
  else
    let (w, s1) := coreRegRead s n a
    if size = 4 then (leBytes 4 w.toNat, s1)
    else
      let (v, s2) := coreRegRead s1 n (a + 4)
      (leBytes 4 w.toNat ++ leBytes 4 v.toNat, s2)

/-- A checked read. -/
def coreRead (s : State) (n a size : Nat) : List Byte × State :=
  let k := coreGet s n
  match corePlace s n a size .read with
  | .instr o => (memRead k.instr o size, s)
  | .work o => (memRead k.work o size, s)
  | .buf x => (bufRead s (bufOffset x / 256) (x % 256) size, s)
  | .clock lo =>
    let v := if lo = aTimeNowLo then nowStamp s else nowCt s
    (leBytes 8 v.toNat, latchPut s (.core n) (lo + 4) (v.extractLsb' 32 32))
  | .reg x => coreRegBytes s n x size
  | .outside => (zeros size, s)

/-- One register of the core's view written whole. -/
def coreRegWrite (s : State) (n a : Nat) (v : Word) : State :=
  if a = aHmpOpArg then
    { s with hamper := { s.hamper with opArg := tblSet 0 n (v &&& 0xF003FFFF#32) s.hamper.opArg } }
  else if a = aHmpOp then opWrite s (.core n) v
  else if 0x81000000 ≤ a then dmaRegWrite s (.core n) (a % 0x4000 / 0x40) (a % 0x40) v
  else ignWrite s

/-- A checked write. -/
def coreWrite (s : State) (n a : Nat) (bs : List Byte) : State :=
  match corePlace s n a bs.length .write with
  | .work o =>
    let k := coreGet s n
    corePut s n { k with work := memWrite k.work o bs }
  | .buf x => bufWrite s (bufOffset x / 256) (x % 256) bs
  | .reg x =>
    if bs.length < 4 then narrowWrite s
    else
      let s1 := coreRegWrite s n x (BitVec.ofNat 32 (leAt bs 0 4))
      if bs.length = 8 then coreRegWrite s1 n (x + 4) (BitVec.ofNat 32 (leAt bs 4 4)) else s1
  | _ => s

/-! ### Exceptions and interrupts (R379, R380) -/

/-- The address after `n` instructions from `pc`; none when one of them does not decode. -/
def afterInstrs (k : Core) (pc : Nat) : Nat → Option Nat
  | 0 => some pc
  | n + 1 => match gDecode (memRead k.instr (pc % 0x100000) 20) with
    | none => none
    | some i => afterInstrs k (pc + i.len) n

/-- A free 40-bit address (assumption 3). -/
def freeAddr (s : State) : Nat × State :=
  let (v, s1) := freeWord s
  (v.toNat % 2 ^ 40, s1)

/-- The target that `ETGT` takes at an entry: the pending branch's, the address after its slots when it was not taken, and
a free value where no branch is pending. -/
def entryTarget (s : State) (k : Core) : Nat × State :=
  if k.slots = 0 then freeAddr s
  else match k.target with
    | some t => (t, s)
    | none => match afterInstrs k k.pc k.slots with
      | some t => (t, s)
      | none => freeAddr s

/-- Entry to a handler at an offset of `IVEC`. -/
def coreEnter (s : State) (n : Nat) (ecause : Nat) (eaddr : Option Nat) (off : Nat) : State :=
  let k0 := coreGet s n
  let (t, s1) := entryTarget s k0
  let k := coreGet s1 n
  corePut s1 n { k with
    epc := k.pc, etgt := t, ecause := BitVec.ofNat 32 ecause, eflags := k.flags, epred := k.preds
    eaddr := eaddr.getD k.eaddr, flags := putBit (putBit k.flags 16 false) 17 true
    pc := k.ivec + off, slots := 0, target := none }

/-- An exception (R380, Table 13-12): a handler entry, or the core halts in FAULTED. The causes without an address leave a
free value in `EADDR`. -/
def coreExc (s : State) (n cause : Nat) (addr : Option Nat) : State :=
  let (a, s1) := match addr with
    | some a => (a, s)
    | none => freeAddr s
  let k := coreGet s1 n
  if bitOf k.flags 17 ∨ k.ivec = 0 then
    let w := k.stop
    let s2 := coreStopped (corePut s1 n { k with epc := k.pc, eaddr := a, cause := cause }) n .faulted 3
    stopCheck (tallyPut s2 (agCore n) 0x0E83 [(0x10, n), (1, k.owner), (7, a)]) n w
  else coreEnter (corePut s1 n { k with cause := cause }) n (k.slots * 256 + cause) (some a) 0

/-- The core executes instructions now: it runs, nothing holds it, and the device is no follower or fenced member (R391). -/
def coreRuns (s : State) (n : Nat) : Bool :=
  let k := coreGet s n
  k.mode == .running && (!(k.jtag && bitN (debugRights s) 2) || k.jtagStep) && !hostSilent s && decide (pwrMode s < 2) && !s.pwr.vault

/-- Sources that are pending and enabled. -/
def corePending (k : Core) : Nat := Nat.land (coreIpend k) k.imask.toNat

/-- An interrupt can be taken at the present boundary (R379). -/
def intReady (s : State) (n : Nat) : Bool :=
  let k := coreGet s n
  bitOf k.flags 16 && decide (k.ivec ≠ 0 ∧ k.slots = 0 ∧ corePending k ≠ 0) && !collecting s n

/-- `TAKE_INTERRUPT`: the lowest source among those pending and enabled. -/
def execTakeInterrupt (core : Nat) (s : State) : Host.Outcome State Fault Refusal :=
  .next (if coreRuns s core && intReady s core then
      match (List.range 21).find? (fun i => bitN (corePending (coreGet s core)) i) with
      | some i => coreEnter s core (i * 2 ^ 24 + 2 ^ 16) none 0x40
      | none => s
    else s)

/-! ### Operands -/

/-- Bytes of the operand of a field (Table 13-9, R374, R376, R381). -/
def fieldSize (i : GInstr) (r : Role) : Nat :=
  let sel := selSize (((i.specs.head?).map (·.raw)).getD 0)
  match i.op with
  | .movsx | .movzx | .lea => if r = .dst then 8 else i.size
  | .satq => if r = .dst then i.size else 8
  | .bdot => if r = .both then 8 else i.size
  | .evtake => 2
  | .prsWait | .prsPoll | .mglCollect | .mglPoll => 8
  | .ldr | .str | .addr => sel
  | _ => i.size

/-- An operand with its effective address or value. -/
structure Opnd where
  role : Role
  size : Nat
  ea   : EaRes
  deriving DecidableEq, Repr

/-- The operands of an instruction in field order, and the core with its address registers updated (R367). -/
def eaOperands (c : Core) (pc : Nat) (i : GInstr) : List (Role × Spec) → List Opnd × Core
  | [] => ([], c)
  | (r, p) :: t =>
    if hasMode r then
      let sz := fieldSize i r
      let (e, c1) := effAddr c pc sz p
      let (os, c2) := eaOperands c1 pc i t
      ({ role := r, size := sz, ea := e } :: os, c2)
    else eaOperands c pc i t

/-- The access kinds of an operand. -/
def opndKinds : Role → List AccKind
  | .dst => [.write]
  | .src => [.read]
  | .both => [.read, .write]
  | _ => []

/-- The first access of an instruction that a check refuses: its cause, its address and the state that records it. -/
def opndsFail (s : State) (n : Nat) : List Opnd → Option (Nat × Nat × State)
  | [] => none
  | o :: t =>
    match o.ea with
    | .addr a =>
      match (opndKinds o.role).findSome? (fun k => match accCheck s n a o.size k with
        | (some c, s1) => some (c, a, s1)
        | (none, _) => none) with
      | some x => some x
      | none => opndsFail s n t
    | _ => opndsFail s n t

/-- How an instruction ends. -/
inductive GRes where
  /-- its effect is made, and execution goes on after it; a taken branch goes on at its target after two slots; a block
  instruction stays for its next element; a return has set the program counter; a halt -/
  | done (s : State)
  | branch (s : State) (target : Nat)
  | stay (s : State)
  | jump (s : State)
  | halt (s : State) (reason : Nat)
  /-- an exception with its cause and, where it has one, its address -/
  | exc (s : State) (cause : Nat) (addr : Option Nat)
  /-- it waits at its place without effect -/
  | wait

/-- The operands of an instruction, addressed and checked; then what it does with them, on the state whose address
registers are updated. -/
def withOpnds (s : State) (n : Nat) (i : GInstr) (f : State → List Opnd → GRes) : GRes :=
  let k := coreGet s n
  let (os, k1) := eaOperands k k.pc i ((rolesOf i.op).zip i.specs)
  if os.any (fun o => o.ea == .modulo) then .exc s 5 none
  else match opndsFail s n os with
    | some (c, a, s1) => .exc s1 c (some a)
    | none => f (corePut s n k1) os

/-- The value of one operand. -/
def opndRead (s : State) (n : Nat) (o : Opnd) : Nat × State :=
  match o.ea with
  | .addr a => let (bs, s1) := coreRead s n a o.size; (leNat bs, s1)
  | .value v => (ofSigned (8 * o.size) v, s)
  | .modulo => (0, s)

/-- The values of the operands that are read, in field order. -/
def opndsRead (s : State) (n : Nat) : List Opnd → List Nat × State
  | [] => ([], s)
  | o :: t =>
    if o.role = .src ∨ o.role = .both then
      let (v, s1) := opndRead s n o
      let (vs, s2) := opndsRead s1 n t
      (v :: vs, s2)
    else opndsRead s n t

/-- A value written to the operand that takes the result. -/
def opndWrite (s : State) (n : Nat) (os : List Opnd) (v : Nat) : State :=
  match os.find? (fun o => o.role == .dst || o.role == .both) with
  | some o => match o.ea with
    | .addr a => coreWrite s n a (leBytes o.size v)
    | _ => s
  | none => s

/-- The address of the first operand. -/
def firstEa (os : List Opnd) : Nat :=
  match os with
  | [] => 0
  | o :: _ => match o.ea with
    | .addr a => a
    | .value v => ofSigned 40 v
    | .modulo => 0

/-! ### One instruction -/

/-- The instruction at the program counter: decoded, a fetch that fails with its cause, or words that decode to none. -/
inductive Fetch where
  | instr (i : GInstr)
  | fail (s : State) (cause : Nat)
  | reserved

/-- The fetch (R360, R411): the first word, and the last one. -/
def coreFetch (s : State) (n : Nat) : Fetch :=
  let k := coreGet s n
  match accCheck s n k.pc 4 .fetch with
  | (some c, s1) => .fail s1 c
  | (none, _) =>
    match gDecode (memRead k.instr (k.pc % 0x100000) 20) with
    | none => .reserved
    | some i => match accCheck s n (k.pc + i.len - 4) 4 .fetch with
      | (some c, s1) => .fail s1 c
      | (none, _) => .instr i

/-- An instruction is complete: the count, and the program counter with the slots of a pending branch (R370). -/
def coreAdvance (s : State) (n len : Nat) : State :=
  let k := coreGet s n
  let pc := k.pc + len
  let last := k.slots = 1
  corePut s n { k with
    commits := k.commits + 1, slots := k.slots - 1, pc := if last then k.target.getD pc else pc
    target := if last then none else k.target }

/-- What a guarded branch leaves in the predictor: its outcome and target under the tag in force (R415, assumption 19). -/
def predNote (k : Core) (i : GInstr) (target : Option Nat) : Tbl PredEntry :=
  if i.pred = 0 then k.pred
  else tblPut (Config.predPlace k.pc % 512) { tag := bitsN k.ctx.toNat 5 0, taken := target.isSome, target := target.getD 0 } k.pred

/-- A branch is complete: its two slots follow, then its target, or what stands after them (R370). -/
def coreBranch (s : State) (n : Nat) (i : GInstr) (target : Option Nat) : State :=
  let k := coreGet s n
  corePut s n { k with commits := k.commits + 1, slots := 2, pc := k.pc + i.len, target := target, pred := predNote k i target }

/-- A branch by its operation. -/
def isBranch (g : GOp) : Bool := g == .br || g == .call || g == .ret

/-- An instruction that no delay slot may hold (R371). -/
def slotBad (i : GInstr) : Bool :=
  slotForbidden i.op || (i.op == .ldr && (i.specs.head?).any (fun p => bitsN p.raw 7 4 == 5 || bitsN p.raw 7 0 == 0x43))

/-- The result of an instruction taken over into the state. -/
def coreFinish (s : State) (n : Nat) (i : GInstr) : GRes → State
  | .done t => coreAdvance t n i.len
  | .branch t a => coreBranch t n i (some a)
  | .stay t => t
  | .jump t => let k := coreGet t n; corePut t n { k with commits := k.commits + 1 }
  | .halt t reason => coreHalt (coreAdvance t n i.len) n reason
  | .exc t c a => coreExc t n c a
  | .wait => s

/-- The row of an operation: it acts when the core executes instructions, no interrupt is to be taken first, and the
instruction at the program counter is of this operation (R359, R365, R366, R371). -/
def gulosRun (s : State) (n : Nat) (g : GOp) (f : State → Nat → GInstr → GRes) : State :=
  if !coreRuns s n || intReady s n then s
  else match coreFetch s n with
    | .instr i =>
      if i.op ≠ g then s
      else if !guardHolds (coreGet s n).preds i then
        if isBranch g && (coreGet s n).slots == 0 then coreBranch s n i none else coreAdvance s n i.len
      else if !i.legal then coreExc s n 1 none
      else if slotBad i && (coreGet s n).slots != 0 then coreExc s n 2 none
      else coreFinish s n i (f s n i)
    | .fail s1 c => if g = .trap then coreExc s1 n c (some (coreGet s n).pc) else s
    | .reserved => if g = .trap then coreExc s n 1 none else s

/-- A core that the JTAG port steps has executed its instruction (R479). -/
def stepDone (s t : State) (n : Nat) : State :=
  let k := coreGet t n
  if k.jtagStep && decide ({ coreGet s n with collect := k.collect } ≠ k) then corePut t n { k with jtagStep := false } else t

/-- The row of an operation, for a core that runs or is stepped. -/
def gulos (s : State) (n : Nat) (g : GOp) (f : State → Nat → GInstr → GRes) : State := stepDone s (gulosRun s n g f) n

end Sys2Proof.Machine
end

