-- ==== Sys2Proof/Machine/RegRead.lean ====
section
/-! DEFINITION. What a read of a register returns: the status words that are computed from the state, the latching pairs, and the stored
registers (spec 15, R422 to R438; Tables 2-9, 2-10, 3-7, 3-9, 8-6, 9-16 to 9-19, 10-14, 11-12, 13-21, 14-12 to 14-14, 15-5 to 15-7). -/

namespace Sys2Proof.Machine

/-- A number as a register. -/
def w32 (n : Nat) : Word := BitVec.ofNat 32 n

/-! ### The blocks whose status is computed -/

/-- The function through which a read arrives; the internal agents read as function 0 does (assumption 18). -/
def readFn (r : Requester) : Nat :=
  match r with
  | .fn p => p
  | _ => 0

/-- `DEV` (Table 15-5). -/
def devReg (s : State) (r : Requester) (off : Nat) : Word :=
  match off with
  | 0x004 => w32 (devVersion s)
  | 0x008 => s.dev.serial.extractLsb' 0 32
  | 0x00C => s.dev.serial.extractLsb' 32 32
  | 0x010 => w32 (devCaps s (readFn r))
  | 0x014 => w32 (devStatus s)
  | 0x044 => w32 (devFault s)
  | _ => regGet s (0x80000000 + off)

/-- `MBX_STAT` (Table 3-9). -/
def mbxStat (s : State) : Word :=
  let m := s.tortin.mbx
  w32 ((if m.refused then stBusy * 2 ^ 16 else 0) + s.tortin.server * 256 + b2n m.refused * 4 + (if m.busy then 1 else if m.done then 2 else 0))

/-- `SCR` (Table 15-7, R520). -/
def scrReg (s : State) (off : Nat) : Word :=
  match off with
  | 0x000 => w32 (scrStat s)
  | 0x00C => w32 (scrLockSrc s)
  | 0x010 => w32 (scrSticky s)
  | 0x014 => w32 s.scorch.disabled
  | 0x018 => w32 (s.scorch.disabled / 2 ^ 32)
  | 0x01C => w32 s.scorch.logSeq
  | _ => regGet s (0x80040000 + off)

/-- `TLY` (Table 15-7, R539). -/
def tlyReg (s : State) (off : Nat) : Word :=
  match off with
  | 0x000 => w32 (tallyStat s)
  | 0x010 => w32 (tallyUsed s)
  | 0x014 => w32 (tallyValid s).length
  | _ => regGet s (0x80050000 + off)

/-- `LCS` (Table 15-7, R487). -/
def lcsReg (s : State) (off : Nat) : Word :=
  match off with
  | 0x000 => w32 (lcsState s)
  | 0x014 => w32 (lcsDebug s)
  | 0x018 => s.lc.bootCnt
  | _ => regGet s (0x80060000 + off)

/-- `RNG` (Table 8-6), but for `RNG_DATA`. -/
def rngReg (s : State) (r : Requester) (off : Nat) : Word :=
  match off with
  | 0x004 => tblGet 0 s.rng.outcome r.cls
  | 0x008 => rngStat s
  | 0x060 => if lcState s = 0 then regGet s aRngTestCtrl else 0
  | 0x01C => w32 s.rng.pool.length
  | _ => regGet s (0x80070000 + off)

/-- A word of a captured wide value: zero while `VALID` is 0 (R435). -/
def wideWord (w : WideWin) (i : Nat) : Word := if w.valid then w.data.getD i 0 else 0

/-- `HMP` (Table 9-16); the operation registers answer internal requesters only. -/
def hmpReg (s : State) (r : Requester) (off : Nat) : Word :=
  let w := wideGet s r 0
  match off with
  | 0x000 => w32 ((List.range 64).map (fun k =>
      if s.hamper.rings && decide (k < 8) then 0 else 4096 - (s.hamper.metas.filter (fun e => e.2.held && e.1 / 4096 == k)).length)).sum
  | 0x004 => w32 (sharedFree s)
  | 0x008 => w32 (tblCount (fun m => m.held && m.taint) s.hamper.metas)
  | 0x030 | 0x034 | 0x038 | 0x03C => w32 (acctHeld s (1 + (off - 0x030) / 4))
  | 0x040 => w32 (acctHeld s 0)
  | 0x044 => w32 (sliceResSum s)
  | 0x050 => w.sel
  | 0x058 => w32 (b2n w.valid)
  | 0x080 => (opPort r 0).elim 0 (fun p => tblGet 0 s.hamper.opArg p.1)
  | 0x088 => (opPort r 0).elim 0 (fun p => tblGet 0 s.hamper.opRes p.1)
  | _ => if 0x060 ≤ off ∧ off < 0x080 then wideWord w ((off - 0x060) / 4) else regGet s (0x80080000 + off)

/-- `QUE` (Table 9-17). -/
def queReg (s : State) (r : Requester) (off : Nat) : Word :=
  let w := wideGet s r 1
  match off with
  | 0x000 => w32 s.links.queues.length
  | 0x010 => w.sel
  | 0x018 => w32 (b2n w.valid)
  | _ => if 0x020 ≤ off ∧ off < 0x040 then wideWord w ((off - 0x020) / 4) else regGet s (0x80090000 + off)

/-- `SEAM_STAT` (Table 11-12). -/
def seamStat (s : State) : Word :=
  let up := ((List.range 4).filter (fun l => (seamLink s l).mode == .up)).map (fun l => 2 ^ (20 + l))
  w32 (up.sum + seamSyncMask s * 2 ^ 17 + b2n s.seam.isolated * 2 ^ 16 + s.seam.size * 2 ^ 10 + s.seam.index * 2 ^ 8 + s.seam.role.code)

/-- `SEAM_LINK_STATn` with a count of aligned lanes. Its latency is this end's for transmission and the peer's for reception (DESIGN CHOICE,
assumption 37). -/
def seamLinkStat (x : SeamLink) (lanes : Nat) : Word := w32 (min 65535 (x.tx + x.farRx) * 2 ^ 16 + x.peer % 256 * 256 + lanes * 16 + x.mode.code)

/-- A link in one of the states from ALIGNED to UP has its 4 lanes aligned (R304); one that is down has none. -/
def seamLanes (x : SeamLink) : Option Nat :=
  match x.mode with
  | .down => some 0
  | .aligned | .hello | .up => some 4
  | .training | .fault => none

/-- `SEAM` (Table 11-12). How many lanes of a training or faulty link are aligned is a measurement that the
model does not make: a free value (assumption 3). -/
def seamReg (s : State) (off : Nat) : Word × State :=
  match off with
  | 0x000 => (seamStat s, s)
  | 0x00C => (w32 s.seam.term, s)
  | 0x054 => (w32 ((seamBudgets s).1 * 2 ^ 16 + (seamBudgets s).2), s)
  | 0x058 => (w32 (min 65535 (seamLoad s).1 * 2 ^ 16 + min 65535 (seamLoad s).2), s)
  | 0x030 | 0x034 | 0x038 | 0x03C =>
    let x := seamLink s ((off - 0x030) / 4)
    match seamLanes x with
    | some n => (seamLinkStat x n, s)
    | none =>
      let (v, s1) := freeWord s
      (seamLinkStat x (v.toNat % 5), s1)
  | _ => (regGet s (0x800C0000 + off), s)

/-- `PCI_STAT` of a port. -/
def pciStat (s : State) (p : Nat) : Word :=
  let f := fnGet s p
  w32 (s.dev.width.getD p 0 * 2 ^ 16 + s.dev.speed.getD p 0 * 256 + b2n (s.dev.flit.getD p false) * 16 + b2n f.l1 * 4 + b2n f.pasidEn * 2 + p)

/-- A Needle core's registers of `NDL` (Table 13-21). -/
def ndlReg (s : State) (n o : Nat) : Word :=
  let k := coreGet s n
  if o = 0x04 then w32 (k.reason * 2 ^ 16 + k.cause * 256 + k.mode.code) else regGet s (aNdl n o)

/-- `THM` (Table 14-12). -/
def thmReg (s : State) (off : Nat) : Word :=
  match off with
  | 0x000 => w32 (s.thm.restarts * 256 + s.thm.mode.code)
  | 0x004 => s.thm.alive
  | 0x00C => w32 ((s.thm.nextTag - 1) % 32)
  | 0x010 => w32 ((s.thm.nextTag - 1 - s.thm.reqs.length) % 32)
  | _ => regGet s (aThm off)

/-! ### Latching pairs (R28, R425) -/

/-- The 64-bit value of the pair whose `_LO` half stands at an offset of a block; none where no such pair stands. -/
def pairValue (s : State) (b : Blk) (off : Nat) : Option (BitVec 64) :=
  let a := blkBase b + off
  let stored : Option (BitVec 64) := some (regGet64 s a (a + 4))
  match b with
  | .time => if off = 0 then some (nowStamp s) else if off = 8 then some (nowCt s) else if off = 0x30 then stored else none
  | .tly => if off = 0x18 then some (((tallyValid s).map (fun e => e.2.rcd)).foldl (fun (t : BitVec 64 × Nat) x =>
      if t.2 ≤ x.seq then (x.app.stamp, x.seq) else t) (0, 0)).1 else none
  | .seam =>
    if off = 0x10 then some s.seam.group
    else if off = 0x18 then some (BitVec.ofNat 64 s.seam.applied)
    else if off = 0x20 then some (BitVec.ofNat 64 (seamAcked s)) else none
  | .lnk _ => if 0x100 ≤ off ∧ off < 0x120 ∧ off % 8 = 0 then stored else none
  | .dma => if off % 0x40 = 0x1C ∨ off % 0x40 = 0x30 then stored else none
  | .hem => if off < 0x5000 ∧ off % 0x400 = 8 then stored else none
  | .aru => if off % 0x400 = 8 then stored else none
  | .ndl =>
    let k := coreGet s (off / 0x100)
    if off % 0x100 = 0x08 then some (BitVec.ofNat 64 k.pc)
    else if off % 0x100 = 0x10 then some (BitVec.ofNat 64 k.epc)
    else if off % 0x100 = 0x18 then some (BitVec.ofNat 64 k.eaddr)
    else if off % 0x100 = 0x20 then some (BitVec.ofNat 64 (coreCycles s k)) else none
  | _ => none

/-! ### Reads -/

/-- A read of a listed register that is no half of a latching pair. -/
def blockReg (s : State) (r : Requester) (b : Blk) (off : Nat) : Word × State :=
  match b with
  | .dev => (devReg s r off, s)
  | .time => (if off = 0x018 then putField (regGet s aTimeCtrl) 2 0 (timeSrc s) else regGet s (0x80010000 + off), s)
  | .mbx => (if off = 0x084 then mbxStat s else regGet s (0x80020000 + off), s)
  | .scr => (scrReg s off, s)
  | .tly => (tlyReg s off, s)
  | .lcs => (lcsReg s off, s)
  | .rng => if off = 0 then rngRead (touchFast s) r else (rngReg s r off, s)
  | .hmp => (hmpReg s r off, s)
  | .que => (queReg s r off, s)
  | .seam => seamReg s off
  | .lnk p => (if r.isHost && decide (0x050 ≤ off ∧ off < 0x068) then 0 else lnkWord s p off, s)
  | .pci => if off % 0x40 = 0 then (pciStat s (off / 0x40), s) else (regGet s (0x80200000 + off), s)
  | .dma => dmaRegRead s r (off / 0x40) (off % 0x40)
  | .ndl => (ndlReg s (off / 0x100) (off % 0x100), s)
  | .thm => (thmReg s off, s)
  | _ => (regGet s (blkBase b + off), s)

/-- A read of a listed register: a `_LO` half latches the other, a `_HI` half returns the latch, a write-only register reads zero. -/
def listedRead (s : State) (r : Requester) (b : Blk) (addr : Nat) (d : RegDesc) : Word × State :=
  let off := addr - blkBase b
  match pairValue s b off with
  | some v => (v.extractLsb' 0 32, latchPut s r (addr + 4) (v.extractLsb' 32 32))
  | none =>
    if 4 ≤ off ∧ (pairValue s b (off - 4)).isSome then (latchGet s r addr, s)
    else if d.acc = .wo ∨ d.acc = .clr then (0, s)
    else
      let (w, s1) := blockReg s r b off
      (rwpShown s w d, s1)

/-- The blocks that a requester reaches (R393, R419 to R421): `THM` the CP and Thimble; `HEM`, `ARU` and `NDL` the CP. -/
def blkReach (r : Requester) (b : Blk) : Bool :=
  match b with
  | .thm => r == .cp || r == .thm
  | .hem | .aru | .ndl | .prs | .mgl | .flc | .air | .sjn => r == .cp
  | _ => true

/-- An access of an internal agent finds no register: to an unmapped address it is a bus error (R13). -/
def noReg (s : State) (r : Requester) (a : Nat) : State := if !r.isHost && dmaPlace a = .nowhere then busErr s r else s

/-- A read of an address in the register blocks. -/
def regRead (s : State) (r : Requester) (a : Nat) : Word × State :=
  match resolve r a with
  | .reg b addr d => if blkReach r b then listedRead s r b addr d else (0, s)
  | .nowhere => (0, noReg s r a)
  | _ => (0, s)

/-! ### Slice pages (Table 3-7) -/

/-- A register of a slice page as function `p` reads it: zero through the other function, and while the slice is unbound (R17). -/
def pageWord (s : State) (p n off : Nat) : Word :=
  if !pageSeen s n p || !portThere s p then 0 else
  let x := sliceGet s n
  let q := sqGet x ((off - 0x100) / 0x20)
  let k := cqGet x ((off - 0x300) / 0x20)
  if off < 0x100 then
    match off with
    | 0x000 => slcInfo x
    | 0x004 => slcState s n
    | 0x008 => w32 x.bound
    | 0x00C => x.sqErr
    | 0x014 => x.cqErr
    | 0x01C => x.ignWr
    | _ => 0
  else if off < 0x300 then
    match off % 0x20 with
    | 0x00 => q.baseLo
    | 0x04 => q.baseHi
    | 0x08 => if lcState s = 0 then q.cfg else q.cfg &&& 0xE00F000F#32
    | 0x0C => w32 q.tail
    | 0x10 => w32 q.head
    | _ => 0
  else if off < 0x500 then
    match off % 0x20 with
    | 0x00 => k.baseLo
    | 0x04 => k.baseHi
    | 0x08 => if lcState s = 0 then k.cfg else k.cfg &&& 0xA31F000F#32
    | 0x0C => w32 k.head
    | 0x10 => w32 (b2n k.phase * 2 ^ 31 + k.tail)
    | 0x14 => k.coal
    | _ => 0
  else 0

end Sys2Proof.Machine
end

