-- ==== Sys2Proof/Machine/RegRows.lean ====
section
/-! DEFINITION. Register writes: what each register does when it is written, complement pairs, sequence clears, wide windows and refused
accesses; and the JTAG port's accesses (spec 15, R422 to R438; spec 17, R479). -/

namespace Sys2Proof.Machine

/-! ### Wide windows (R435) -/

/-- A buffer's metadata as one value (Table 9-1). -/
def metaNat (m : BufMeta) : Nat :=
  m.stamp.toNat * 2 ^ 64 + b2n m.held * 2 ^ 63 + b2n m.taint * 2 ^ 62 + b2n m.first * 2 ^ 61 + b2n m.last * 2 ^ 60 + m.owner % 2 ^ 16 * 2 ^ 44 +
  m.next * 2 ^ 26 + m.count * 2 ^ 20 + m.length * 2 ^ 6 + m.wv * 4

/-- An account as four words: reserve, held, borrowed, high-water (Table 9-16). -/
def acctWords (s : State) (a : Nat) : List Word :=
  [w32 (acctReserve s a), w32 (acctHeld s a), w32 (acctBorrowed s a), w32 (tblGet 0 s.hamper.high a)]

/-- The value selected in `HMP_WIDE_SEL`; zeros beyond the selected kind's range. -/
def hmpSelected (s : State) (sel : Word) : List Word :=
  let i := fieldOf sel 17 0
  match fieldOf sel 31 30 with
  | 0 => (List.range 4).map (fun k => w32 (metaNat (bufGet s i) / 2 ^ (32 * k)))
  | 1 => if i < 1024 then acctWords s (5 + i) else []
  | 2 => if i < 4 then acctWords s (1 + i) else []
  | _ => []

/-- A queue context (Table 9-6); a FREE queue reads zero. -/
def queueBytes (s : State) (q : Nat) : List Byte :=
  match queueGet s q with
  | none => zeros 64
  | some x =>
    leBytes 1 x.mode.code ++ leBytes 1 x.cls ++
    leBytes 1 (b2n x.dup + 2 * b2n x.cont + 4 * b2n x.rx + 8 * b2n x.tx + 16 * b2n x.air + 32 * b2n x.held) ++ leBytes 1 x.repeats ++
    leBytes 2 x.port ++ leBytes 2 x.owner ++ leBytes 2 x.slice ++ leBytes 2 x.epoch ++ leBytes 4 x.deadline ++ leBytes 8 x.txCtr ++
    leBytes 8 x.leaseEnd ++ leBytes 8 x.rxCtr ++ leBytes 2 x.weight ++ leBytes 2 x.rate ++ leBytes 2 x.hbPeriod ++ leBytes 1 x.dest ++
    leBytes 1 x.core ++ leBytes 2 x.fwd ++ leBytes 2 x.limit ++ leBytes 4 (queueHeld s q) ++
    leBytes 4 (x.txList.filter (fun f => f.sent == 0 || f.again)).length ++ leBytes 4 x.drops.toNat

/-- The half of a queue context selected in `QUE_WIDE_SEL`. -/
def queSelected (s : State) (sel : Word) : List Word :=
  let bs := (queueBytes s (fieldOf sel 12 0)).drop (if bitOf sel 13 then 32 else 0)
  (List.range 8).map (fun i => w32 (leAt bs (4 * i) 4))

/-- A write of `*_WIDE_SEL`: `VALID` clears; `queue`: the window of `QUE`. -/
def wideSel (s : State) (r : Requester) (queue : Bool) (v : Word) : State :=
  widePut s r (b2n queue) { sel := v &&& (if queue then 0x3FFF#32 else 0xC003FFFF#32), valid := false, data := [] }

/-- A write of `*_WIDE_CTRL`. -/
def wideCapture (s : State) (r : Requester) (queue : Bool) (v : Word) : State :=
  if !bitOf v 0 then s
  else
    let w := wideGet s r (b2n queue)
    widePut s r (b2n queue) { w with valid := true, data := if queue then queSelected s w.sel else hmpSelected s w.sel }

/-! ### What a committed complement pair does -/

/-- Hem controllers: a locked controller's registers do not change (R409). -/
def hemLocked (s : State) (c : Nat) : Bool := bitOf (regGet s (aHem c 0)) 31

/-- A write to a locked controller is counted in `HEM_IGN_WR`. -/
def hemIgn (s : State) (c : Nat) : State := regAdd s (aHem c 0x1C) 1

/-- A `CPW` register takes a value, with the effects of its fields (R432). -/
def cpwTake (s : State) (b : Blk) (addr : Nat) (d : RegDesc) (v : Word) : State :=
  let off := addr - blkBase b
  let w := mergeWrite s (regGet s addr) v d
  match b with
  | .time =>
    if off = 0x018 then
      let w1 := if s.seam.role = .follower then putField w 2 0 (regField s aTimeCtrl 2 0) else w
      let s1 := corrHold (regPut s addr w1) (timeHeld s)
      if bitOf v 8 then { s1 with time := { s1.time with stepAsked := true } } else s1
    else regPut s addr w
  | .scr => if off = 0x024 ∧ 4 < fieldOf v 2 0 then s else regPut s addr w
  | .rng => if off = 0x014 then rngConfig s w else rngTestWrite s w
  | .lnk p => portSetCfg s p (putBit w 30 (bitOf v 30))
  | .hem =>
    let c := off / 0x400
    if off = 0x6018 then gpioSecure s v
    else if hemLocked s c then hemIgn s c
    else if off % 0x400 = 0 then regPut s addr (regGet s addr ||| (v &&& 0x80000000#32))
    else hemOverlap (regPut s addr w) c ((off % 0x400 - 0x100) / 16)
  | .thm =>
    let s1 := regPut s addr w
    if bitOf v 1 then thmRestart s1 else s1
  | _ => regPut s addr w

/-! ### What a plain write does -/

/-- The core takes `RUN`, `HALT_NOW` and `STOP_REQ` (Table 13-21). A `HALT_NOW` that meets a waiting `MGL.COLLECT` is kept until that completes
(bit 22; R389). -/
def ndlCtrl (s : State) (n : Nat) (v : Word) : State :=
  let k := coreGet s n
  let s1 := if bitOf v 2 then corePut s n { k with pend := pendBit k.pend 20 true } else s
  if k.mode = .running then
    (if !bitOf v 1 then s1
     else if collecting s n then corePut s1 n { coreGet s1 n with pend := pendBit (coreGet s1 n).pend 22 true }
     else coreHalt s1 n 2)
  else if bitOf v 0 then
    let x := coreGet s1 n
    coreNote (corePut s1 n { x with
      mode := .running, pc := 0x30000000 + (regGet s1 (aNdl n 0x28)).toNat, startAt := s.time.clk, changed := nowStamp s }) n
  else s1

/-- The rule of an access-rule unit may not be written: its set is in force on a running core, or the unit is the CP's (R413). -/
def aruHeld (s : State) (u set_ : Nat) : Bool := u == 16 || ((coreGet s u).mode == .running && coreSet (coreGet s u) == set_)

/-- A write of the `ARU` block. -/
def aruWrite (s : State) (addr : Nat) (w : Word) : State :=
  let u := addr % 0x10000 / 0x400
  let o := addr % 0x400
  if 0x100 ≤ o && aruHeld s u (if o < 0x200 then 0 else 1) then regAdd s (aAru u 0x14) 1 else regPut s addr w

/-- A register takes a plain write that its requester may make. `TIME_RTC_TRIM` takes a value outside ±250,000 ppb as it is written (assumption
56). -/
def plainTake (s : State) (r : Requester) (b : Blk) (addr : Nat) (d : RegDesc) (v : Word) : State :=
  let off := addr - blkBase b
  let w := mergeWrite s (regGet s addr) v d
  match b with
  | .mbx =>
    if off = 0x080 then
      let s1 := regPut s addr w
      match r with
      | .fn p => if bitOf v 0 && decide (s.tortin.server ≠ 0) && !cpHalted s then mbxGo s1 p else s1
      | _ => s1
    else regPut s addr w
  | .time =>
    if off = 0x050 ∨ off = 0x054 then
      let s1 := regPut s addr w
      { s1 with time := { s1.time with wakeSeen := false } }
    else regPut s addr w
  | .pwr => if off = 0x018 then regPut s addr (w ||| 0xCC#32) else regPut s addr w
  | .lcs => if off = 0x004 then lcsReq s v else regPut s addr w
  | .rng => if lcState s = 0 then regPut s addr w else ignWrite s
  | .hmp =>
    if off = 0x050 then wideSel s r false v
    else if off = 0x054 then wideCapture s r false v
    else if off = 0x084 then opWrite s r v
    else if off = 0x080 then
      match opPort r 0 with
      | none => ignWrite s
      | some (p, _) => { s with hamper := { s.hamper with opArg := tblSet 0 p (v &&& 0xF003FFFF#32) s.hamper.opArg } }
    else regPut s addr w
  | .que => if off = 0x010 then wideSel s r true v else if off = 0x014 then wideCapture s r true v else regPut s addr w
  | .lnk p =>
    if off = 0x054 then
      (if bitOf v 0 then portPut s p { portGet s p with ptp := (portGet s p).ptp.tail } else s)
    else regPut s addr w
  | .dma => dmaRegWrite s r (off / 0x40) (off % 0x40) v
  | .evt =>
    if off = 0x1040 then evtFire s (fieldOf v 8 0)
    else if 0x1000 ≤ off then timerSet s ((off - 0x1000) / 4) w
    else regPut s addr w
  | .aru => aruWrite s addr w
  | .hem => if off < 0x5000 ∧ hemLocked s (off / 0x400) then hemIgn s (off / 0x400) else regPut s addr w
  | .ndl => if off % 0x100 = 0 then ndlCtrl (regPut s addr w) (off / 0x100) v else regPut s addr w
  | .thm => if off = 0x00C then s else if off = 0x018 then thmRspHead s v else regPut s addr w
  | _ => regPut s addr w

/-! ### Writes -/

/-- A requester may write a register (R424, Table 15-4; Tables 9-18, 9-19, 13-21, 14-12 to 14-14): host software what the block's table
names; the CP everything that takes writes; Thimble its mailbox; a DMA channel what host software may write; a core reaches registers
through its own view (R361). -/
def mayWrite (r : Requester) (b : Blk) (d : RegDesc) : Bool :=
  match r with
  | .fn _ => d.host
  | .cp => true
  | .thm => b == .thm
  | .dma _ => d.host
  | .core _ => false

/-- A sequence clear; the clear register of a DMA channel also clears the channel's part of its core's source 16 (R379). -/
def clearTake (s : State) (b : Blk) (addr : Nat) (v : Word) : State :=
  if b = .dma then dmaEvtClear s ((addr - blkBase b) / 0x40) v else sqcClearAt s (addr - 4) v

/-- A word written to memory at an internal address; boot ROM takes none. Host memory is not part of the state: the write goes out without a PASID,
for it is made on behalf of no slice (R14, assumption 62). -/
def memPut (s : State) (a : Nat) (v : Word) : State :=
  let bs := leBytes 4 v.toNat
  match dmaPlace a with
  | .buf b off => bufWrite s b off bs
  | .work n off =>
    let k := coreGet s n
    corePut s n { k with work := memWrite k.work off bs }
  | .instr n off =>
    let k := coreGet s n
    corePut s n { k with instr := memWrite k.instr off bs }
  | .sram off => { s with dev := { s.dev with sram := memWrite s.dev.sram off bs } }
  | .host iova => if hostSilent s || !fnLive s 0 then s else emit s (.hostWrite 0 none iova bs)
  | _ => s

/-- A write finds no register: one of the host is ignored and counted; one of the CP reaches the memory there; one to an unmapped address is a bus
error (R12, R13, R424). -/
def noRegPut (s : State) (r : Requester) (a : Nat) (v : Word) : State :=
  if r.isHost then ignWrite s else if r = .cp then noReg (memPut s a v) r a else noReg s r a

/-- A write that has reached its block: it breaks a pair pending there, and then acts as the register says. A DMA channel's registers take no write
of an agent that does not drive it: a bus error (R253). -/
def siteWrite (s : State) (r : Requester) (a : Nat) (site : Site) (v : Word) : State :=
  match site with
  | .nowhere => noRegPut s r a v
  | .empty => ignWrite s
  | .hole b => ignWrite (arrive s b)
  | .guard b addr d =>
    if !(mayWrite r b d && blkReach r b) then ignWrite (arrive s b)
    else match guardWrite (noteHostCpw s r b) r b addr v with
      | (none, s1) => s1
      | (some w, s1) => cpwTake s1 b addr d w
  | .reg b addr d =>
    if b = .dma ∧ !dmaDrives s r ((addr - blkBase b) / 0x40) then busErr (arrive s b) r
    else if !(mayWrite r b d && blkReach r b) then ignWrite (arrive s b)
    else match d.acc with
      | .ro | .sqc => ignWrite (arrive s b)
      | .cpw => beginPair (noteHostCpw s r b) r b addr v
      | .clr => clearTake (arrive s b) b addr v
      | .wo | .win | .rw => plainTake (arrive s b) r b addr d v

/-- Tortin keeps its own writes out of a block for 10 µs after a host write to a `CPW` register of it (R18). -/
def cpWaits (s : State) (r : Requester) (a : Nat) : Bool := r == .cp && (blkOf a).any (hostPair s)

/-- A register write. -/
def regWriteS (s : State) (r : Requester) (a : Nat) (v : Word) : State :=
  match r with
  | .core n => if corePlace s n a 4 .write = .reg a then coreRegWrite s n a v else s
  | _ => siteWrite s r a (resolve r a) v

/-- The BAR0 or internal address lies in a block of the fast domain (Table 1-7). -/
def fastBlk (a : Nat) : Bool :=
  match blkOf a with
  | some .rng | some .hmp | some .prs | some .mgl => true
  | _ => false

/-- The wake cause of an access of the host: a read, a write of the front mailbox, or another write (R45). -/
def hostCause (a : Nat) (write : Bool) : Nat := if !write then 1 else if blkOf a = some .mbx then 11 else 0

/-- An access reaches its block: a host's while its function is there, once the device has woken for it as far as the access needs (R17, R45); an
internal agent's while the processors run (Table 1-8). An access to a block of the fast domain ends WARM (Table 2-5). -/
def hostArrives (s : State) (r : Requester) (a : Nat) (write : Bool) : Option State :=
  match r with
  | .fn p =>
    if s.pwr.vault || !portThere s p then none
    else
      let s1 := wakeUp s (hostCause a write)
      if !hostServed s1 (!write) then none else some (if fastBlk a then touchFast s1 else s1)
  | _ => if !procRuns s then none else some (if fastBlk a then touchFast s else s)

/-- An access that does not reach its block: the endpoint holds a host's until the device has woken (R45); no other is made. -/
def hostKept (s : State) (r : Requester) (a : Nat) (write : Bool) (q : HostReq) : State :=
  match r with
  | .fn p =>
    if s.pwr.vault || !portThere s p then s
    else hostHold (wakeUp s (hostCause a write)) q
  | _ => s

/-- The function of a host's access; the model numbers no other requester. -/
def reqFn (r : Requester) : Nat := match r with
  | .fn p => p
  | _ => 0

/-- The address is that of `LCS_REQ`. -/
def isLcsReq (r : Requester) (a : Nat) : Bool :=
  match resolve r a with
  | .reg _ addr _ => addr == aLcsReq
  | _ => false

/-- A 32-bit write to an internal or BAR0 address. While a life-cycle transition runs, host writes but those of `LCS_REQ` are ignored and
counted (R475, Table 17-4). A CP access is checked by the Hem controller (R394); one that Tortin keeps back is made later (R18). -/
def regWrite (s : State) (r : Requester) (a : Nat) (v : Word) : State :=
  match hostArrives s r a true with
  | none => hostKept s r a true (.write (reqFn r) none (.reg a) v)
  | some s0 =>
    if r.isHost && s0.lc.trans.isSome && !isLcsReq r a then ignWrite s0
    else if cpWaits s r a then s
    else match r with
      | .core _ => regWriteS s0 r a v
      | .cp => match cpCheck s0 r a .write with
        | (false, s1) => s1
        | (true, s1) => siteWrite s1 r a (resolve r a) v
      | _ => siteWrite s0 r a (resolve r a) v

/-! ### Slice pages (R82, R336) -/

/-- A write to a slice page that is accepted there; it arrived at the Stamp `at_`. -/
def pageTake (s : State) (n off : Nat) (v : Word) (at_ : Stamp) : State :=
  let x := sliceGet s n
  if off = 0x010 then
    match sqcClear x.sqErr v with
    | some w => slicePut s n { x with sqErr := w }
    | none => sqcMiss s
  else if off = 0x018 then
    match sqcClear x.cqErr v with
    | some w => slicePut s n { x with cqErr := w }
    | none => sqcMiss s
  else if 0x100 ≤ off ∧ off < 0x300 then
    let k := (off - 0x100) / 0x20
    match off % 0x20 with
    | 0x00 => sqBaseWrite s n k false v
    | 0x04 => sqBaseWrite s n k true v
    | 0x08 => sqCfg s n k v
    | 0x0C => sqBell s n k (fieldOf v 11 0) at_
    | _ => slcIgn s n
  else if 0x300 ≤ off ∧ off < 0x500 then
    let k := (off - 0x300) / 0x20
    match off % 0x20 with
    | 0x00 => cqBaseWrite s n k false v
    | 0x04 => cqBaseWrite s n k true v
    | 0x08 => cqCfg s n k v
    | 0x0C => cqBell s n k (fieldOf v 11 0) at_
    | 0x14 => cqCoalWrite s n k v
    | _ => slcIgn s n
  else slcIgn s n

/-- A 32-bit write to a slice page: only the host reaches it (Table 1-2). -/
def pageWriteAny (s : State) (r : Requester) (pas : Option Nat) (n off : Nat) (v : Word) : State :=
  match r with
  | .fn p => pageWrite s n p pas (pageReq p n off pas v) (fun t => pageTake t n (off % 0x1000) v (bellAt t))
  | _ => s

/-! ### Rows -/

/-- `REGISTER_WRITE`. -/
def execRegisterWrite (r : Requester) (pas : Option Nat) (place : RegPlace) (value : Word) (s : State) : Host.Outcome State Fault Refusal :=
  .next (match place with
    | .reg a => regWrite s r a value
    | .page n off => pageWriteAny s r pas n off value)

/-- A narrow write that has arrived: discarded and counted in a register block, where it breaks a pending pair like every write; it is a bus error
for an internal agent where nothing is mapped, and of a write of the CP to memory, which is no register access, the model keeps nothing (R13, R428,
R431, assumption 62). -/
def narrowArrived (s : State) (r : Requester) (a : Nat) : State :=
  if !r.isHost && dmaPlace a ≠ .reg then noReg s r a
  else narrowWrite (match blkOf a with
    | some b => arrive s b
    | none => s)

/-- A narrow write to a register. -/
def narrowReg (s : State) (r : Requester) (a : Nat) : State :=
  match hostArrives s r a true with
  | none => hostKept s r a true (.narrow (reqFn r) none (.reg a))
  | some s0 =>
    if cpWaits s r a then s
    else match cpCheck s0 r a .write with
      | (false, s1) => s1
      | (true, s1) => narrowArrived s1 r a

/-- A narrow write to a slice page. -/
def narrowPage (s : State) (r : Requester) (pas : Option Nat) (n off : Nat) : State :=
  match r with
  | .fn p => pageWrite s n p pas (.narrow p pas (.page n off)) narrowWrite
  | _ => s

/-- `NARROW_WRITE` (R428, R431): discarded and counted; it breaks a pair pending in the block like every write that arrives there. -/
def execNarrowWrite (r : Requester) (pas : Option Nat) (place : RegPlace) (s : State) : Host.Outcome State Fault Refusal :=
  .next (match place with
    | .reg a => narrowReg s r a
    | .page n off => narrowPage s r pas n off)

/-- `SQC_CLEAR_WRITE` (R434): a write to a clear register. -/
def execSqcClearWrite (r : Requester) (addr : Nat) (value : Word) (s : State) : Host.Outcome State Fault Refusal :=
  .next (match resolve r addr with
    | .reg _ _ d => if d.acc = .clr then regWrite s r addr value else s
    | _ => s)

/-- `CPW_VALUE_WRITE` (R432). -/
def execCpwValueWrite (r : Requester) (addr : Nat) (value : Word) (s : State) : Host.Outcome State Fault Refusal :=
  .next (match resolve r addr with
    | .reg _ _ d => if d.acc = .cpw then regWrite s r addr value else s
    | _ => s)

/-- `CPW_GUARD_WRITE` (R432, R433). -/
def execCpwGuardWrite (r : Requester) (addr : Nat) (value : Word) (s : State) : Host.Outcome State Fault Refusal :=
  .next (match resolve r addr with
    | .guard _ _ _ => regWrite s r addr value
    | _ => s)

/-- `CPW_PAIR_TIMEOUT` (R433, cause 2). -/
def execCpwPairTimeout (block : Nat) (s : State) : Host.Outcome State Fault Refusal :=
  .next (match blkOf block with
    | some b => expirePair s b
    | none => s)

/-- The address of a register of a wide window. -/
def aWide (queue sel : Bool) : Nat :=
  if queue then (if sel then aQueWideSel else aQueWideCtrl) else if sel then aHmpWideSel else aHmpWideCtrl

/-- `WIDE_SEL_WRITE` (R435). -/
def execWideSelWrite (r : Requester) (queue : Bool) (value : Word) (s : State) : Host.Outcome State Fault Refusal :=
  .next (regWrite s r (aWide queue true) value)

/-- `WIDE_CAPTURE` (R435). -/
def execWideCapture (r : Requester) (queue : Bool) (value : Word) (s : State) : Host.Outcome State Fault Refusal :=
  .next (regWrite s r (aWide queue false) value)

/-- A read of the `_LO` half of a latching pair, which answers; the device wakes for a host's read (R28, R45, R425). -/
def loHalfRead (s : State) (r : Requester) (addr : Nat) : State :=
  match hostArrives s r addr false with
  | none => hostKept s r addr false (.loRead (reqFn r) addr)
  | some s0 => match cpCheck s0 r addr .read with
    | (false, s1) => emit s1 (.reply r addr 0)
    | (true, s0) => match resolve r addr with
      | .reg b a d =>
        if (pairValue s0 b (a - blkBase b)).isSome && blkReach r b then
          let (w, s1) := listedRead s0 r b a d
          emit s1 (.reply r addr w)
        else s0
      | .nowhere => if dmaPlace addr = .nowhere then emit (noReg s0 r addr) (.reply r addr 0) else s0
      | _ => s0

/-- `LO_HALF_READ` (R28, R425). -/
def execLoHalfRead (r : Requester) (addr : Nat) (s : State) : Host.Outcome State Fault Refusal := .next (loHalfRead s r addr)

/-- `TIME_NOW_LO_READ` (R28). -/
def execTimeNowLoRead (r : Requester) (s : State) : Host.Outcome State Fault Refusal := .next (loHalfRead s r aTimeNowLo)

/-- `TIME_CT_LO_READ` (R28). -/
def execTimeCtLoRead (r : Requester) (s : State) : Host.Outcome State Fault Refusal := .next (loHalfRead s r aTimeCtLo)

/-- A request longer than 2 DW (R430): no effect at any address; a Completer Abort is sent, or reported as an advisory non-fatal error, which is
correctable. -/
def longTlp (s : State) (fn : Nat) (isWrite : Bool) : State :=
  match hostArrives s (.fn fn) 0 isWrite with
  | none => hostKept s (.fn fn) 0 isWrite (.long fn isWrite)
  | some s0 =>
    let s1 := sqcSet (regAdd s0 aDevLongTlp 1) aDevEvt 3
    let s2 := sqcSet (regAdd s1 (aPci fn 0x18) 1) (aPci fn 4) 2
    emit (if isWrite then regAdd s2 (aPci fn 0x0C) 1 else s2) (.completerAbort fn)

/-- An AtomicOp request, which arrives as a write does (R430). -/
def atomicOp (s : State) (fn : Nat) : State :=
  match hostArrives s (.fn fn) 0 true with
  | none => hostKept s (.fn fn) 0 true (.atomic fn)
  | some s0 => emit (sqcSet (regAdd s0 (aPci fn 0x1C) 1) (aPci fn 4) 3) (.unsupported fn)

/-- `LONG_TLP`. -/
def execLongTlp (fn : Nat) (isWrite : Bool) (s : State) : Host.Outcome State Fault Refusal := .next (longTlp s fn isWrite)

/-- `ATOMIC_OP_REQUEST`. -/
def execAtomicOpRequest (fn : Nat) (s : State) : Host.Outcome State Fault Refusal := .next (atomicOp s fn)

/-! ### Held accesses (R45) -/

/-- A held access is made. -/
def heldMake (s : State) (q : HostReq) : State :=
  match q with
  | .write p pas place v => match place with
    | .reg a => regWrite s (.fn p) a v
    | .page n off => pageWriteAny s (.fn p) pas n off v
  | .narrow p pas place => match place with
    | .reg a => narrowReg s (.fn p) a
    | .page n off => narrowPage s (.fn p) pas n off
  | .lcsReq v => lcsReq s v
  | .long p w => longTlp s p w
  | .atomic p => atomicOp s p
  | .loRead p a => loHalfRead s (.fn p) a
  | .rngRead p form => rngServed s { r := .fn p, form := form }

/-- A held access is made with the Stamp of its arrival. -/
def heldOne (s : State) (h : HeldReq) : State :=
  let t := heldMake { s with pwr := { s.pwr with arrived := some h.at_ } } h.req
  { t with pwr := { t.pwr with arrived := none } }

/-- The held accesses that are due are made in order: posted writes, or at ACTIVE all that are left. -/
def heldServe (s : State) (all : Bool) : State :=
  let due (h : HeldReq) : Bool := all || !h.req.isRead
  (s.pwr.held.filter due).foldl heldOne { s with pwr := { s.pwr with held := s.pwr.held.filter (fun h => !due h) } }

/-- A wake in progress moves on with the clock (Table 2-6, R48): the core PLL locks, the processors resume and the posted writes are applied, and the
device is ACTIVE and serves the reads. -/
def exitStep (s : State) : State :=
  match s.pwr.leaving with
  | none => s
  | some _ =>
    if pwrMode s = 2 then
      let s1 := if wakePast s wakeLock then regSetBit s aTimeSrcStat 8 false else s
      let s2 := if wakePast s wakeProc then heldServe s1 false else s1
      if wakePast s wakeDone then heldServe (comeActive s2) true else s2
    else if wakePast s wakeStandby then heldServe (heldServe (comeActive s) false) true
    else s

/-! ### The JTAG port (R479, Table 17-5) -/

/-- Who makes the JTAG port's internal accesses: world S, checked by the Hem controllers; the model gives them the CP's agent number
(assumption 17). -/
def jtagWho : Accessor := { agent := agCp, secure := true }

/-- A word at an internal address. The contents of the boot ROM and of host memory are not part of the state: free values (assumption 3). -/
def busWord (s : State) (a : Nat) : Word × State :=
  match dmaPlace a with
  | .buf b off => (w32 (leNat (bufRead s b off 4)), s)
  | .work n off => (w32 (leNat (memRead (coreGet s n).work off 4)), s)
  | .instr n off => (w32 (leNat (memRead (coreGet s n).instr off 4)), s)
  | .sram off => (w32 (leNat (memRead s.dev.sram off 4)), s)
  | .reg => regRead s .cp a
  | .rom | .host _ => ((freeWord s).1.extractLsb' 0 32, (freeWord s).2)
  | .nowhere => (0, s)

/-- A word written at an internal address. -/
def busPut (s : State) (a : Nat) (v : Word) : State := if dmaPlace a = .reg then regWriteS s .cp a v else memPut s a v

/-- A register of a core by the port's numbering (assumption 17). -/
def jtagReg (k : Core) (i : Nat) : Nat :=
  if i < 16 then k.a.getD i 0
  else if i < 32 then k.m.getD (i - 16) 0
  else if i < 48 then k.l.getD (i - 32) 0
  else if i < 64 then k.b.getD (i - 48) 0
  else if i = 64 then k.pc
  else if i = 65 then k.preds else 0

/-- A register of a core set through the port. -/
def jtagSet (k : Core) (i v : Nat) : Core :=
  if i < 16 then { k with a := setAt k.a i (v % 2 ^ 40) }
  else if i < 32 then { k with m := setAt k.m (i - 16) (v % 2 ^ 32) }
  else if i < 48 then { k with l := setAt k.l (i - 32) (v % 2 ^ 32) }
  else if i < 64 then { k with b := setAt k.b (i - 48) (v % 2 ^ 40) }
  else if i = 64 then { k with pc := v % 2 ^ 40, collect := false }
  else if i = 65 then { k with preds := Nat.lor (v % 256) 1 } else k

/-- The right that a request needs (Table 17-5). -/
def jtagRight : DebugReq → Nat
  | .cpHalt | .cpResume | .cpStep => 0
  | .busRead _ => 4
  | .busWrite _ _ => 5
  | .powerHold _ => 7
  | _ => 2

/-- An answer through the port. -/
def jtagSay (s : State) (v : Nat) : State := emit s (.jtag (BitVec.ofNat 64 v))

/-- The offset within a core's memory: 64 KiB of instruction memory, 256 KiB of work memory. -/
def jtagOff (off : Nat) (work : Bool) : Nat := off / 4 * 4 % (if work then 0x40000 else 0x10000)

/-- A request that its right permits. -/
def jtagDo (s : State) (q : DebugReq) : State :=
  match q with
  | .cpHalt => { s with lc := { s.lc with cpHalt := true } }
  | .cpResume => { s with lc := { s.lc with cpHalt := false } }
  | .cpStep => s
  | .coreHalt n => corePut s n { coreGet s n with jtag := true }
  | .coreResume n => corePut s n { coreGet s n with jtag := false, jtagStep := false }
  | .coreStep n => corePut s n { coreGet s n with jtagStep := true }
  | .regRead n i => jtagSay s (jtagReg (coreGet s n) i)
  | .regWrite n i v => corePut s n (jtagSet (coreGet s n) i v)
  | .memRead n off work =>
    let k := coreGet s n
    jtagSay s (leNat (memRead (if work then k.work else k.instr) (jtagOff off work) 4))
  | .memWrite n off work v =>
    let k := coreGet s n
    let bs := leBytes 4 v.toNat
    corePut s n (if work then { k with work := memWrite k.work (jtagOff off work) bs }
      else { k with instr := memWrite k.instr (jtagOff off work) bs })
  | .busRead a => match hemCheck s jtagWho (a / 4 * 4) 4 .read with
    | (false, s1) => jtagSay s1 0
    | (true, s1) =>
      let (w, s2) := busWord s1 (a / 4 * 4)
      jtagSay s2 w.toNat
  | .busWrite a v => match hemCheck s jtagWho (a / 4 * 4) 4 .write with
    | (false, s1) => s1
    | (true, s1) => busPut s1 (a / 4 * 4) v
  | .powerHold on =>
    let s1 := { s with lc := { s.lc with pwrHold := on } }
    if on ∧ pwrMode s ≠ 0 then comeActive s1 else s1

/-- `JTAG_DEBUG_REQUEST`: a right that is not in force grants nothing. -/
def execJtagDebugRequest (req : DebugReq) (s : State) : Host.Outcome State Fault Refusal :=
  .next (if s.pwr.vault || !bitN (debugRights s) (jtagRight req) then s else jtagDo s req)

end Sys2Proof.Machine
end

