-- ==== Sys2Proof/Machine/HostRetry.lean ====
section
/-! DEFINITION. Failed host accesses: retries and Completion Timeouts (spec 03, R58; spec 09, R252; spec 20, R564). -/

namespace Sys2Proof.Machine

/-- The port through which a host access goes. -/
def accessPort (s : State) (w : HostAccess) : Nat :=
  match w with
  | .sqFetch n _ | .cqWrite n _ => (sliceGet s n).port
  | .dmaDesc c | .dmaData c => dmaFn s c

/-- The register accesses of a channel. -/
def dmaPath (c : Nat) : RegPath := { read := fun s a => regRead s (.dma c) a, write := fun s a v => regWriteS s (.dma c) a v }

/-- `DMA_READ_COMPLETION`. -/
def execDmaReadCompletion (chan : Nat) (data : HostRead) (translation : Bool) (s : State) : Host.Outcome State Fault Refusal :=
  .next (if (retryOf s (.dmaData chan)).isSome || !fastPowered s then s else dmaDataRead (dmaPath chan) s chan data translation)

/-- A fetch that failed is made again: a ring that is no longer enabled or served fetches nothing. -/
def fetchAgain (s : State) (n k : Nat) (data : HostRead) : State :=
  let w := HostAccess.sqFetch n k
  if !ringOn (sqGet (sliceGet s n) k).cfg || (sliceGet s n).mode != .active then retryDel s w
  else if !ringsServed s || (placeKind s n (alarmRing s n k)).isNone then s
  else if !fnLive s (sliceGet s n).port then ringFail s w n (fun s => sqHalt s n k)
  else match data with
    | .fault => ringFail s w n (fun s => sqHalt s n k)
    | .data bs => fetchEntry s n k bs

/-- The write of a completion ring that failed is made again: the first completion that waits for the ring, or else the first delivery. -/
def writeAgain (s : State) (n k : Nat) (ok : Bool) : State :=
  let ended := tagsOf s (fun c => c.stage == .ended && !c.mirror && cSlice c == some n && cmdCq s c == k)
  let queues := tblKeys (fun (x : Queue) => x.dest == 0 && x.slice == n && x.rxCq == k && !x.rxList.isEmpty) s.links.queues
  match (sortBy (fun t => ((cmdAt s t).map (·.order)).getD 0) ended).head?, queues.head? with
  | some t, _ => compTry s t ok
  | none, some q => deliverTry s q ok
  | none, none => retryDel s (.cqWrite n k)

/-- A host access meets an answer. -/
def accessMeets (s : State) (w : HostAccess) (data : HostRead) (translation : Bool) : State :=
  match w with
  | .sqFetch n k => fetchAgain s n k data
  | .cqWrite n k => writeAgain s n k (data != .fault)
  | .dmaDesc c => dmaDescRead s c data translation
  | .dmaData c => dmaDataRead (dmaPath c) s c data translation

/-- A failed access is due for its retry: 1 µs has passed. -/
def retryDue (s : State) (w : HostAccess) : Bool := (retryOf s w).any (fun r => decide (r.at_ + cycUs ≤ s.time.clk))

/-- `HOST_ACCESS_RETRY`: the retry is counted on its port. -/
def execHostAccessRetry (what : HostAccess) (data : HostRead) (translation : Bool) (s : State) : Host.Outcome State Fault Refusal :=
  .next (if retryDue s what && procRuns s then accessMeets (regAdd s (aPci (accessPort s what) 0x24) 1) what data translation else s)

/-- A read of host memory is outstanding. -/
def readOut (s : State) (w : HostAccess) : Bool :=
  let host (a : Nat) : Bool := match dmaPlace a with
    | .host _ => true
    | _ => false
  match w with
  | .sqFetch n k => retryDue s w || (ringsServed s && fetchTurn s == some (n, k))
  | .cqWrite _ _ => false
  | .dmaDesc c => match (chanGet s c).want with
    | .none => false
    | .fetch a | .relink a => host a && (retryDue s w || (retryOf s w).isNone)
  | .dmaData c =>
    let x := chanGet s c
    x.mode == .running && x.desc.any (fun d => !dSrcChain d) && host x.src && (retryDue s w || (retryOf s w).isNone)

/-- A fetch that is outstanding fails for the first time. -/
def fetchFails (s : State) (n k : Nat) : State := ringFail s (.sqFetch n k) n (fun s => sqHalt s n k)

/-- `COMPLETION_TIMEOUT`: the read is counted and fails as R252 says; when it was itself a retry, that retry is counted too. -/
def execCompletionTimeout (what : HostAccess) (s : State) : Host.Outcome State Fault Refusal :=
  .next (if !readOut s what || !fnLive s (accessPort s what) then s
    else
      let p := accessPort s what
      let s1 := sqcSet (regAdd s (aPci p 0x14) 1) (aPci p 4) 4
      let s2 := if (retryOf s what).isSome then regAdd s1 (aPci p 0x24) 1 else s1
      match what with
      | .sqFetch n k => fetchFails s2 n k
      | _ => accessMeets s2 what .fault false)

end Sys2Proof.Machine
end

