-- ==== Sys2Proof/Machine/Needle.lean ====
section
/-! DEFINITION. The Gulos instructions as the Needle cores execute them (spec 13, R359 to R385). Each row executes one
instruction of a core, or one element of a block instruction, when the instruction at the program counter is the row's. -/

namespace Sys2Proof.Machine

/-! ### Results, compares and predicates (R373 to R375) -/

/-- The result of a group-1, 2, 3 or 5 operation, written with the flags. The two results that the spec does not state, the
absolute value of the most negative number, are free values (assumption 3). -/
def runAlu (s : State) (n : Nat) (i : GInstr) : GRes :=
  withOpnds s n i (fun s os =>
    let (vs, s1) := opndsRead s n os
    let both := os.any (fun o => o.role == .both)
    let old := if both then vs.getD 0 0 else 0
    let x := vs.getD (b2n both) 0
    let y := vs.getD (b2n both + 1) 0
    let b := 8 * i.size
    let open_ := (i.op == .abs || i.op == .bpeak) && x == 2 ^ (b - 1)
    let (v, s2) := if open_ then freeWord s1 else (0, s1)
    let k := coreGet s2 n
    let (r, fl) := aluOp i.op b k.flags old x y (v.toNat % 2 ^ b)
    .done (opndWrite (corePut s2 n { k with flags := fl }) n os r))

/-- `MOVSX` and `MOVZX`: a source of the size of the instruction to 64 bits. -/
def runExtend (s : State) (n : Nat) (i : GInstr) : GRes :=
  withOpnds s n i (fun s os =>
    let (vs, s1) := opndsRead s n os
    let x := vs.getD 0 0
    .done (opndWrite s1 n os (if i.op = .movsx then ofSigned 64 (toSigned (8 * i.size) x) else x)))

/-- `LEA`: the effective address of field 2. -/
def runLea (s : State) (n : Nat) (i : GInstr) : GRes :=
  withOpnds s n i (fun s os => .done (opndWrite s n os (firstEa (os.drop 1))))

/-- `SATQ`: a 64-bit value saturated to the size. -/
def runSatq (s : State) (n : Nat) (i : GInstr) : GRes :=
  withOpnds s n i (fun s os =>
    let (vs, s1) := opndsRead s n os
    let b := 8 * i.size
    let (v, clip) := satTo b (toSigned 64 (vs.getD 0 0))
    let k := coreGet s1 n
    .done (opndWrite (corePut s1 n { k with flags := flagsSat k.flags clip }) n os (ofSigned b v)))

/-- A compare (R374). -/
def runCmp (s : State) (n : Nat) (i : GInstr) : GRes :=
  withOpnds s n i (fun s os =>
    let (vs, s1) := opndsRead s n os
    let f := ((i.specs.getLast?).map (·.raw)).getD 0
    let d := bitsN f 2 0
    let r := cmpOp i.op (8 * i.size) (vs.getD 0 0) (vs.getD 1 0)
    let k := coreGet s1 n
    .done (corePut s1 n { k with preds := setPred k.preds d (if bitN f 3 then getPred k.preds d && r else r) }))

/-- A predicate operation (R374). -/
def runPred (s : State) (n : Nat) (i : GInstr) : GRes :=
  let k := coreGet s n
  .done (corePut s n { k with preds := predOp i.op k.preds i.word0 })

/-! ### Control (R370 to R372, R379) -/

/-- A branch target lies in the core's own instruction memory, aligned to 4 B (R370). -/
def targetOk (s : State) (n a : Nat) : Bool :=
  a % 4 == 0 && (match corePlace s n a 4 .fetch with
    | .instr _ => true
    | _ => false)

/-- `NOP` and `FENCE`: in program order nothing is left to wait for. -/
def runNop (s : State) (_ : Nat) (_ : GInstr) : GRes := .done s

/-- `BR`. -/
def runBr (s : State) (n : Nat) (i : GInstr) : GRes :=
  withOpnds s n i (fun t os => if targetOk t n (firstEa os) then .branch t (firstEa os) else .exc s 4 (some (firstEa os)))

/-- `CALL` (R372): the return address goes to the 8 B below `A15`; behind a slot that does not decode it is a free value. -/
def runCall (s : State) (n : Nat) (i : GInstr) : GRes :=
  withOpnds s n i (fun t os =>
    let a := firstEa os
    let k := coreGet t n
    let sp := ofSigned 40 ((rA k 15 : Int) - 8)
    if !targetOk t n a then .exc s 4 (some a)
    else match accCheck s n sp 8 .write with
      | (some c, s1) => .exc s1 c (some sp)
      | (none, _) =>
        let (r, t1) := match afterInstrs k (k.pc + i.len) 2 with
          | some r => (r, t)
          | none => freeAddr t
        .branch (coreWrite (corePut t1 n (setA k 15 sp)) n sp (leBytes 8 r)) a)

/-- `RET` (R372). -/
def runRet (s : State) (n : Nat) (_ : GInstr) : GRes :=
  let k := coreGet s n
  let sp := rA k 15
  match accCheck s n sp 8 .read with
  | (some c, s1) => .exc s1 c (some sp)
  | (none, _) =>
    let (bs, s1) := coreRead s n sp 8
    let a := leNat bs
    if targetOk s n a then .branch (corePut s1 n (setA (coreGet s1 n) 15 (sp + 8))) a else .exc s 4 (some (a % 2 ^ 40))

/-- The bits that `FLAGS` has; the others read 0 (Table 13-3). -/
def flagsHeld : Word := 0x0003010F#32

/-- `RFI` (R379): the flags, the predicates, and the slots that `ESLOT` counts, after which execution goes on at `ETGT`. -/
def runRfi (s : State) (n : Nat) (_ : GInstr) : GRes :=
  let k := coreGet s n
  let e := fieldOf k.ecause 9 8
  let slots := if e = 1 ∨ e = 2 then e else 0
  .jump (corePut s n { k with
    flags := k.eflags &&& flagsHeld, preds := k.epred % 256 / 2 * 2 + 1, pc := k.epc, slots := slots
    target := if slots = 0 then none else some k.etgt })

/-- `HALT`. -/
def runHalt (s : State) (_ : Nat) (_ : GInstr) : GRes := .halt s 1

/-- `WAIT`: until a source enabled in `IMASK` is pending, whether or not `IE` is set. -/
def runWait (s : State) (n : Nat) (_ : GInstr) : GRes := if corePending (coreGet s n) = 0 then .wait else .done s

/-- `TRAP`: the immediate goes to `EADDR`. -/
def runTrap (s : State) (n : Nat) (i : GInstr) : GRes :=
  withOpnds s n i (fun _ os => .exc s 6 (some (firstEa os)))

/-- `SIGNAL`: the core's event source fires. -/
def runSignal (s : State) (n : Nat) (_ : GInstr) : GRes := .done (evPulse s (srcSignal n))

/-! ### Registers and events (R374, R376) -/

/-- A control register read; `CYCLE_LO` latches `CYCLE_HI` (Table 13-4). -/
def crRead (s : State) (n i : Nat) : Nat × State :=
  let k := coreGet s n
  let cyc := coreCycles s k
  match i with
  | 0 => (k.epc, s)
  | 1 => (k.etgt, s)
  | 2 => (k.ecause.toNat, s)
  | 3 => (k.eaddr, s)
  | 4 => (k.eflags.toNat, s)
  | 5 => (k.epred, s)
  | 6 => (k.ivec, s)
  | 7 => (k.imask.toNat, s)
  | 8 => (coreIpend k, s)
  | 9 => (cyc, corePut s n { k with cycHi := BitVec.ofNat 32 (cyc / 2 ^ 32) })
  | 10 => (k.cycHi.toNat, s)
  | 11 => (k.tcmp.toNat, s)
  | 12 => (k.tcmp.toNat / 2 ^ 32, s)
  | 13 => (n, s)
  | _ => (0, s)

/-- A control register written (Table 13-4). -/
def crWrite (s : State) (n i v : Nat) : State :=
  let k := coreGet s n
  match i with
  | 0 => corePut s n { k with epc := v }
  | 1 => corePut s n { k with etgt := v }
  | 2 => corePut s n { k with ecause := BitVec.ofNat 32 v }
  | 3 => corePut s n { k with eaddr := v }
  | 4 => corePut s n { k with eflags := BitVec.ofNat 32 v }
  | 5 => corePut s n { k with epred := v % 256 }
  | 6 => corePut s n { k with ivec := v / 64 * 64 }
  | 7 => corePut s n { k with imask := BitVec.ofNat 32 v }
  | 11 => corePut s n (coreTcmp s k (BitVec.ofNat 64 (k.tcmp.toNat / 2 ^ 32 * 2 ^ 32 + v)))
  | 12 => corePut s n (coreTcmp s k (BitVec.ofNat 64 (2 ^ 32 * v + k.tcmp.toNat % 2 ^ 32)))
  | _ => s

/-- A register by its selector: class and index. -/
def selRead (s : State) (n raw : Nat) : Nat × State :=
  let k := coreGet s n
  let i := bitsN raw 3 0
  match bitsN raw 7 4 with
  | 0 => (rA k i, s)
  | 1 => (rM k i, s)
  | 2 => (rL k i, s)
  | 3 => (rB k i, s)
  | 4 => (match i with
    | 0 => k.cnt
    | 1 => k.flags.toNat
    | 2 => k.preds
    | _ => k.ctx.toNat, s)
  | _ => crRead s n i

/-- The bits of `FLAGS` and of `CTX` that `LDR` writes (R362). -/
def flagsMask : Word := 0x0001010F#32
def ctxMask : Word := 0x0000013F#32

/-- A register written by its selector, modulo its width. -/
def selWrite (s : State) (n raw v : Nat) : State :=
  let k := coreGet s n
  let i := bitsN raw 3 0
  let w := BitVec.ofNat 32 v
  match bitsN raw 7 4 with
  | 0 => corePut s n (setA k i v)
  | 1 => corePut s n { k with m := setAt k.m i (v % 2 ^ 32) }
  | 2 => corePut s n { k with l := setAt k.l i (v % 2 ^ 32) }
  | 3 => corePut s n { k with b := setAt k.b i (v % 2 ^ 40) }
  | 4 => match i with
    | 0 => corePut s n { k with cnt := v % 65536 }
    | 1 => corePut s n { k with flags := (k.flags &&& ~~~ flagsMask) ||| (w &&& flagsMask) }
    | 2 => corePut s n { k with preds := v % 256 / 2 * 2 + 1 }
    | _ =>
      let c := (k.ctx &&& ~~~ ctxMask) ||| (w &&& ctxMask)
      corePut s n { k with ctx := c, pred := if bitsN c.toNat 5 0 = 0 then [] else k.pred }
  | _ => crWrite s n i v

/-- The register selector of a group-6 instruction. -/
def selOf (i : GInstr) : Nat := ((i.specs.head?).map (·.raw)).getD 0

/-- `LDR`: a write to a read-only control register is ILLEGAL (R364). -/
def runLdr (s : State) (n : Nat) (i : GInstr) : GRes :=
  let r := selOf i
  if bitsN r 7 4 = 5 ∧ crReadOnly (bitsN r 3 0) then .exc s 1 none
  else withOpnds s n i (fun s os =>
    let (vs, s1) := opndsRead s n os
    .done (selWrite s1 n r (vs.getD 0 0)))

/-- `STR`. -/
def runStr (s : State) (n : Nat) (i : GInstr) : GRes :=
  withOpnds s n i (fun t os =>
    let (v, _) := selRead s n (selOf i)
    let t1 := if bitsN (selOf i) 7 0 = 0x59 then
        let k := coreGet t n
        corePut t n { k with cycHi := BitVec.ofNat 32 (coreCycles s k / 2 ^ 32) }
      else t
    .done (opndWrite t1 n os v))

/-- `ADDR`: the operand is added to the register. -/
def runAddr (s : State) (n : Nat) (i : GInstr) : GRes :=
  withOpnds s n i (fun s os =>
    let (vs, s1) := opndsRead s n os
    let (v, _) := selRead s1 n (selOf i)
    .done (selWrite s1 n (selOf i) (v + vs.getD 0 0)))

/-- `EVTAKE` (R376): count, overflow and pending of an event input, which it clears. -/
def runEvtake (s : State) (n : Nat) (i : GInstr) : GRes :=
  withOpnds s n i (fun t os =>
    let j := firstEa os
    if 16 ≤ j then .exc s 1 none
    else
      let k := coreGet t n
      let e := tblGet {} k.inputs j
      .done (opndWrite (corePut t n { k with inputs := tblSet {} j {} k.inputs }) n os
        (e.count + b2n e.ovf * 256 + b2n e.pending * 512)))

/-! ### Block instructions (R377, R378) -/

/-- One element; a block instruction that starts with `CNT` = 0 runs none. The instruction is complete when `CNT` is 0. -/
def runBlock (s : State) (n : Nat) (i : GInstr) : GRes :=
  if (coreGet s n).cnt = 0 then .done s
  else match runAlu s n i with
    | .done t =>
      let k := coreGet t n
      let t1 := corePut t n { k with cnt := k.cnt - 1 }
      if k.cnt = 1 then .done t1 else .stay t1
    | r => r

/-! ### Coprocessor ports (R381, R384) -/

/-- A region that a job names: empty, or wholly in the core's memory or chain. -/
def jobRegion (s : State) (n a len : Nat) (chain : Bool) : Bool := decide (len = 0) || regionOk s n a len chain

/-- The descriptor of a job at the address `a` of a core. -/
def jobDesc (s : State) (n a : Nat) : List Byte := memRead (coreGet s n).work ((workOff n a).getD 0) 32

/-- A new job of a port: done at once where the port refuses it with the status `st`. -/
def portJob (s : State) (n st : Nat) (d : List Byte) : PortJob :=
  { id := (coreGet s n).commits, desc := d, done := if st = 0 then none else some (statusWord st 0 0) }

/-- The keys of a job that a port takes: their uses stand reserved, out of a new lease where the present one is used up, and their cache entries
are used (R113, R161, R384). None while a lease is needed and Thimble does not serve; false where neither chip takes a lease. -/
def portTake (s : State) (hs : List Nat) : Option (State × Bool) :=
  hs.foldl (fun (b : Option (State × Bool)) h => b.bind (fun x =>
    if !x.2 then some x else (portLease x.1 h).map (fun y => if y.2 then (cacheUse y.1 h, true) else y))) (some (s, true))

/-- A job whose lease neither chip took is done with EXHAUSTED, the status of a use that cannot be had: the ports have none for it
(DESIGN CHOICE, assumption 63). -/
def leaseless (js : List PortJob) : List PortJob :=
  js.dropLast ++ (js.getLast?.map (fun j => { j with keys := [], mats := [], done := some (statusWord 6 0 0) })).toList

/-- The accesses of a Press job are allowed: the port takes it, or holds the core while no pipeline has room. -/
def pressIssue (s : State) (n st : Nat) (d : List Byte) : GRes :=
  let k := coreGet s n
  let hs := if st = 0 then pressHandles s n d else []
  let t := touchFast (corePut s n { k with
    press := k.press ++ [{ portJob s n st d with keys := hs, mats := hs.map (keyBits s) }], pressN := k.pressN + b2n (st != 0) })
  if st ≠ 0 then .done t
  else match portTake t hs with
    | none => .wait
    | some (t1, ok) =>
      if (pipeFor s).isNone then .wait
      else if !ok then .done (corePut t1 n { coreGet t1 n with press := leaseless (coreGet t1 n).press, pressN := (coreGet t1 n).pressN + 1 })
      else .done (pressEnter t1 {
        src := .port n k.commits, order := 0, group := 3, slice := k.slice, size := leAt d 12 4, ready := true })

/-- `PRS.ISSUE`: it stalls at a full port or while no pipeline has room; a region outside raises ACCESS; a job that the port
refuses is done at once with its status. -/
def runPrsIssue (s : State) (n : Nat) (i : GInstr) : GRes :=
  withOpnds s n i (fun t os =>
    let a := firstEa os
    let d := jobDesc t n a
    if !regionOk t n a 32 false then .exc s 4 (some a)
    else if 2 ≤ (coreGet t n).press.length then .wait
    else if !jobRegion t n (leAt d 8 4) (leAt d 12 4) (bitN (byteAt d 5) 0) then .exc s 4 (some (leAt d 8 4))
    else if !jobRegion t n (leAt d 20 4) (descOut d) (bitN (byteAt d 5) 1) then .exc s 4 (some (leAt d 20 4))
    else pressIssue t n (pressPortCheck t n d) d)

/-- The operation of a port's Mangle job that takes the time `x` and uses the keys `hs`. -/
def portOp (s : State) (n x : Nat) (hs : List Nat) (passes : Nat) : MangleOp :=
  { src := .port n (coreGet s n).commits, order := 0, group := 2, slice := (coreGet s n).slice, time := x, ready := true
    keys := hs, hashes := passes }

/-- A port's operation enters, with its hashing. -/
def portEnter (s : State) (a : MangleOp) : State := hashEnter (mangleEnter s a) { a with order := s.mangle.order }

/-- Both halves of a port's operation enter, with their hashing. -/
def portEnter2 (s : State) (a b : MangleOp) : State :=
  let n := s.mangle.order
  hashEnter (hashEnter (mangleEnter2 s a b) { a with order := n }) { b with order := n + 1 }

/-- The accesses of a Mangle job are allowed: the port takes it, or holds the core while no unit has room. -/
def mangleIssue (s : State) (n st : Nat) (d : List Byte) : GRes :=
  let k := coreGet s n
  let p := descPk d
  let hs := if st = 0 then mangleHandles s n d else []
  let t := touchFast (corePut s n { k with
    mangle := k.mangle ++ [{ portJob s n st d with keys := hs }], mangleN := k.mangleN + b2n (st != 0) })
  let passes (half : Nat) : Nat := if 3 ≤ byteAt d 0 then 0 else hashPasses p half (byteAt d 0 == 1)
  if st ≠ 0 then .done t
  else match portTake t hs, portTimes s n d with
    | none, _ => .wait
    | some (t1, false), _ =>
      .done (corePut t1 n { coreGet t1 n with mangle := leaseless (coreGet t1 n).mangle, mangleN := (coreGet t1 n).mangleN + 1 })
    | some (t1, true), [x, y] =>
      let b := hs.drop (hs.length - 1)
      if mangleRoom2 s then
        .done (portEnter2 t1 (portOp s n x (hs.take (hs.length - 1)) (passes 0)) (portOp s n y b (passes 1)))
      else .wait
    | some (t1, true), ts => if mangleRoom s 1 then .done (portEnter t1 (portOp s n (ts.headD 0) hs (passes 0))) else .wait

/-- `MGL.ISSUE`: as `PRS.ISSUE`, with one place at the port; a hybrid takes a slot on each of two units. -/
def runMglIssue (s : State) (n : Nat) (i : GInstr) : GRes :=
  withOpnds s n i (fun t os =>
    let a := firstEa os
    let d := jobDesc t n a
    if !regionOk t n a 32 false then .exc s 4 (some a)
    else if 1 ≤ (coreGet t n).mangle.length then .wait
    else if !jobRegion t n (leAt d 16 4) (leAt d 20 4) false then .exc s 4 (some (leAt d 16 4))
    else if !jobRegion t n (leAt d 24 4) (mangleOut t n d) false then .exc s 4 (some (leAt d 24 4))
    else mangleIssue t n (manglePortCheck t n d) d)

/-- The status word of the oldest job is taken: 0xFF with no job outstanding; while the job runs, 0xFE for a poll, and
otherwise the instruction waits (R381). `put` sets the port's jobs, and `fin` ends the instruction. -/
def takeStatus (s : State) (n : Nat) (i : GInstr) (poll : Bool) (jobs : Core → List PortJob)
    (put : Core → List PortJob → Core) (held : GRes) (fin : State → GRes) : GRes :=
  withOpnds s n i (fun t os =>
    match jobs (coreGet t n) with
    | [] => fin (opndWrite t n os 0xFF)
    | j :: rest => match j.done with
      | some w => fin (opndWrite (corePut t n (put (coreGet t n) rest)) n os w.toNat)
      | none => if poll then fin (opndWrite t n os 0xFE) else held)

/-- The Press port's instructions. -/
def runPrsTake (poll : Bool) (s : State) (n : Nat) (i : GInstr) : GRes :=
  takeStatus s n i poll (·.press) (fun k js => { k with press := js }) .wait .done

/-- An instruction that completes while a `HALT_NOW` waits for it halts the core (R389). -/
def haltKept (n : Nat) (t : State) : GRes :=
  if bitN (coreGet t n).pend 22 then .halt (corePut t n { coreGet t n with pend := pendBit (coreGet t n).pend 22 false }) 2 else .done t

/-- The Mangle port's instructions. A `MGL.COLLECT` that waits has begun: an interrupt is taken after it completes (R196). -/
def runMglTake (poll : Bool) (s : State) (n : Nat) (i : GInstr) : GRes :=
  takeStatus s n i poll (·.mangle) (fun k js => { k with mangle := js, collect := false })
    (.stay (corePut s n { coreGet s n with collect := true })) (haltKept n)

/-! ### Rows -/

/-- `NOP`. -/
def execNop (core : Nat) (s : State) : Host.Outcome State Fault Refusal := .next (gulos s core .nop runNop)

/-- `BR` (R370). -/
def execBr (core : Nat) (s : State) : Host.Outcome State Fault Refusal := .next (gulos s core .br runBr)

/-- `CALL` (R372). -/
def execCall (core : Nat) (s : State) : Host.Outcome State Fault Refusal := .next (gulos s core .call runCall)

/-- `RET` (R372). -/
def execRet (core : Nat) (s : State) : Host.Outcome State Fault Refusal := .next (gulos s core .ret runRet)

/-- `RFI` (R379). -/
def execRfi (core : Nat) (s : State) : Host.Outcome State Fault Refusal := .next (gulos s core .rfi runRfi)

/-- `HALT`. -/
def execHalt (core : Nat) (s : State) : Host.Outcome State Fault Refusal := .next (gulos s core .halt runHalt)

/-- `WAIT`. -/
def execWait (core : Nat) (s : State) : Host.Outcome State Fault Refusal := .next (gulos s core .wait runWait)

/-- `TRAP`; its row also takes the exceptions of words that no operation has, and of fetches that fail (R365). -/
def execTrap (core : Nat) (s : State) : Host.Outcome State Fault Refusal := .next (gulos s core .trap runTrap)

/-- `FENCE`. -/
def execFence (core : Nat) (s : State) : Host.Outcome State Fault Refusal := .next (gulos s core .fence runNop)

/-- `SIGNAL`. -/
def execSignal (core : Nat) (s : State) : Host.Outcome State Fault Refusal := .next (gulos s core .signal runSignal)

/-- `MOVSX`. -/
def execMovsx (core : Nat) (s : State) : Host.Outcome State Fault Refusal := .next (gulos s core .movsx runExtend)

/-- `MOVZX`. -/
def execMovzx (core : Nat) (s : State) : Host.Outcome State Fault Refusal := .next (gulos s core .movzx runExtend)

/-- `LEA`. -/
def execLea (core : Nat) (s : State) : Host.Outcome State Fault Refusal := .next (gulos s core .lea runLea)

/-- `MOV`. -/
def execMov (core : Nat) (s : State) : Host.Outcome State Fault Refusal := .next (gulos s core .mov runAlu)

/-- `ADD`. -/
def execAdd (core : Nat) (s : State) : Host.Outcome State Fault Refusal := .next (gulos s core .add runAlu)

/-- `SUB`. -/
def execSub (core : Nat) (s : State) : Host.Outcome State Fault Refusal := .next (gulos s core .sub runAlu)

/-- `ADDS`. -/
def execAdds (core : Nat) (s : State) : Host.Outcome State Fault Refusal := .next (gulos s core .adds runAlu)

/-- `SUBS`. -/
def execSubs (core : Nat) (s : State) : Host.Outcome State Fault Refusal := .next (gulos s core .subs runAlu)

/-- `NEG`. -/
def execNeg (core : Nat) (s : State) : Host.Outcome State Fault Refusal := .next (gulos s core .neg runAlu)

/-- `ABS`. -/
def execAbs (core : Nat) (s : State) : Host.Outcome State Fault Refusal := .next (gulos s core .abs runAlu)

/-- `MUL`. -/
def execMul (core : Nat) (s : State) : Host.Outcome State Fault Refusal := .next (gulos s core .mul runAlu)

/-- `MULHS`. -/
def execMulhs (core : Nat) (s : State) : Host.Outcome State Fault Refusal := .next (gulos s core .mulhs runAlu)

/-- `MULHU`. -/
def execMulhu (core : Nat) (s : State) : Host.Outcome State Fault Refusal := .next (gulos s core .mulhu runAlu)

/-- `MAC`. -/
def execMac (core : Nat) (s : State) : Host.Outcome State Fault Refusal := .next (gulos s core .mac runAlu)

/-- `MIN`. -/
def execMin (core : Nat) (s : State) : Host.Outcome State Fault Refusal := .next (gulos s core .min runAlu)

/-- `MAX`. -/
def execMax (core : Nat) (s : State) : Host.Outcome State Fault Refusal := .next (gulos s core .max runAlu)

/-- `MINU`. -/
def execMinu (core : Nat) (s : State) : Host.Outcome State Fault Refusal := .next (gulos s core .minu runAlu)

/-- `MAXU`. -/
def execMaxu (core : Nat) (s : State) : Host.Outcome State Fault Refusal := .next (gulos s core .maxu runAlu)

/-- `AND`. -/
def execAnd (core : Nat) (s : State) : Host.Outcome State Fault Refusal := .next (gulos s core .and runAlu)

/-- `OR`. -/
def execOr (core : Nat) (s : State) : Host.Outcome State Fault Refusal := .next (gulos s core .or runAlu)

/-- `XOR`. -/
def execXor (core : Nat) (s : State) : Host.Outcome State Fault Refusal := .next (gulos s core .xor runAlu)

/-- `NOT`. -/
def execNot (core : Nat) (s : State) : Host.Outcome State Fault Refusal := .next (gulos s core .not runAlu)

/-- `SHL`. -/
def execShl (core : Nat) (s : State) : Host.Outcome State Fault Refusal := .next (gulos s core .shl runAlu)

/-- `SHR`. -/
def execShr (core : Nat) (s : State) : Host.Outcome State Fault Refusal := .next (gulos s core .shr runAlu)

/-- `SAR`. -/
def execSar (core : Nat) (s : State) : Host.Outcome State Fault Refusal := .next (gulos s core .sar runAlu)

/-- `ROL`. -/
def execRol (core : Nat) (s : State) : Host.Outcome State Fault Refusal := .next (gulos s core .rol runAlu)

/-- `BREV`. -/
def execBrev (core : Nat) (s : State) : Host.Outcome State Fault Refusal := .next (gulos s core .brev runAlu)

/-- `CLZ`. -/
def execClz (core : Nat) (s : State) : Host.Outcome State Fault Refusal := .next (gulos s core .clz runAlu)

/-- `POPC`. -/
def execPopc (core : Nat) (s : State) : Host.Outcome State Fault Refusal := .next (gulos s core .popc runAlu)

/-- `MULQ` (R375). -/
def execMulq (core : Nat) (s : State) : Host.Outcome State Fault Refusal := .next (gulos s core .mulq runAlu)

/-- `MACQ` (R375). -/
def execMacq (core : Nat) (s : State) : Host.Outcome State Fault Refusal := .next (gulos s core .macq runAlu)

/-- `CMPEQ` (R374). -/
def execCmpeq (core : Nat) (s : State) : Host.Outcome State Fault Refusal := .next (gulos s core .cmpeq runCmp)

/-- `CMPNE` (R374). -/
def execCmpne (core : Nat) (s : State) : Host.Outcome State Fault Refusal := .next (gulos s core .cmpne runCmp)

/-- `CMPLT` (R374). -/
def execCmplt (core : Nat) (s : State) : Host.Outcome State Fault Refusal := .next (gulos s core .cmplt runCmp)

/-- `CMPLE` (R374). -/
def execCmple (core : Nat) (s : State) : Host.Outcome State Fault Refusal := .next (gulos s core .cmple runCmp)

/-- `CMPLTU` (R374). -/
def execCmpltu (core : Nat) (s : State) : Host.Outcome State Fault Refusal := .next (gulos s core .cmpltu runCmp)

/-- `CMPLEU` (R374). -/
def execCmpleu (core : Nat) (s : State) : Host.Outcome State Fault Refusal := .next (gulos s core .cmpleu runCmp)

/-- `TSTZ` (R374). -/
def execTstz (core : Nat) (s : State) : Host.Outcome State Fault Refusal := .next (gulos s core .tstz runCmp)

/-- `TSTNZ` (R374). -/
def execTstnz (core : Nat) (s : State) : Host.Outcome State Fault Refusal := .next (gulos s core .tstnz runCmp)

/-- `PAND` (R374). -/
def execPand (core : Nat) (s : State) : Host.Outcome State Fault Refusal := .next (gulos s core .pand runPred)

/-- `POR` (R374). -/
def execPor (core : Nat) (s : State) : Host.Outcome State Fault Refusal := .next (gulos s core .por runPred)

/-- `PXOR` (R374). -/
def execPxor (core : Nat) (s : State) : Host.Outcome State Fault Refusal := .next (gulos s core .pxor runPred)

/-- `PNOT` (R374). -/
def execPnot (core : Nat) (s : State) : Host.Outcome State Fault Refusal := .next (gulos s core .pnot runPred)

/-- `PSET` (R374). -/
def execPset (core : Nat) (s : State) : Host.Outcome State Fault Refusal := .next (gulos s core .pset runPred)

/-- `SATQ`. -/
def execSatq (core : Nat) (s : State) : Host.Outcome State Fault Refusal := .next (gulos s core .satq runSatq)

/-- `LDR`. -/
def execLdr (core : Nat) (s : State) : Host.Outcome State Fault Refusal := .next (gulos s core .ldr runLdr)

/-- `STR`. -/
def execStr (core : Nat) (s : State) : Host.Outcome State Fault Refusal := .next (gulos s core .str runStr)

/-- `ADDR`. -/
def execAddr (core : Nat) (s : State) : Host.Outcome State Fault Refusal := .next (gulos s core .addr runAddr)

/-- `EVTAKE`. -/
def execEvtake (core : Nat) (s : State) : Host.Outcome State Fault Refusal := .next (gulos s core .evtake runEvtake)

/-- `BMOV` (R377). -/
def execBmov (core : Nat) (s : State) : Host.Outcome State Fault Refusal := .next (gulos s core .bmov runBlock)

/-- `BFILL` (R377). -/
def execBfill (core : Nat) (s : State) : Host.Outcome State Fault Refusal := .next (gulos s core .bfill runBlock)

/-- `BADDS` (R377). -/
def execBadds (core : Nat) (s : State) : Host.Outcome State Fault Refusal := .next (gulos s core .badds runBlock)

/-- `BMULQ` (R377). -/
def execBmulq (core : Nat) (s : State) : Host.Outcome State Fault Refusal := .next (gulos s core .bmulq runBlock)

/-- `BMACQ` (R377). -/
def execBmacq (core : Nat) (s : State) : Host.Outcome State Fault Refusal := .next (gulos s core .bmacq runBlock)

/-- `BDOT` (R377). -/
def execBdot (core : Nat) (s : State) : Host.Outcome State Fault Refusal := .next (gulos s core .bdot runBlock)

/-- `BPEAK` (R377). -/
def execBpeak (core : Nat) (s : State) : Host.Outcome State Fault Refusal := .next (gulos s core .bpeak runBlock)

/-- `PRS.ISSUE`. -/
def execPrsIssue (core : Nat) (s : State) : Host.Outcome State Fault Refusal := .next (gulos s core .prsIssue runPrsIssue)

/-- `PRS.WAIT`. -/
def execPrsWait (core : Nat) (s : State) : Host.Outcome State Fault Refusal := .next (gulos s core .prsWait (runPrsTake false))

/-- `PRS.POLL`. -/
def execPrsPoll (core : Nat) (s : State) : Host.Outcome State Fault Refusal := .next (gulos s core .prsPoll (runPrsTake true))

/-- `MGL.ISSUE`. -/
def execMglIssue (core : Nat) (s : State) : Host.Outcome State Fault Refusal := .next (gulos s core .mglIssue runMglIssue)

/-- `MGL.COLLECT` (R196). -/
def execMglCollect (core : Nat) (s : State) : Host.Outcome State Fault Refusal := .next (gulos s core .mglCollect (runMglTake false))

/-- `MGL.POLL`. -/
def execMglPoll (core : Nat) (s : State) : Host.Outcome State Fault Refusal := .next (gulos s core .mglPoll (runMglTake true))

end Sys2Proof.Machine
end

