-- ==== Sys2Proof/Machine/Dispatch.lean ====
section
/-! DEFINITION. One arm per command: the meaning that exec gives it. -/

namespace Sys2Proof.Machine

def exec (i : Instr) (s : State) : Host.Outcome State Fault Refusal :=
  match i with
  | .devInfo tag io => Sys2Proof.Machine.execDevInfo tag io s
  | .devStatus tag io => Sys2Proof.Machine.execDevStatus tag io s
  | .devNop tag => Sys2Proof.Machine.execDevNop tag s
  | .devLimits tag io => Sys2Proof.Machine.execDevLimits tag io s
  | .devCounters tag io => Sys2Proof.Machine.execDevCounters tag io s
  | .sliceCreate tag io => Sys2Proof.Machine.execSliceCreate tag io s
  | .sliceDestroy tag => Sys2Proof.Machine.execSliceDestroy tag s
  | .sliceResize tag io => Sys2Proof.Machine.execSliceResize tag io s
  | .sliceSetQos tag => Sys2Proof.Machine.execSliceSetQos tag s
  | .sliceSetVectors tag => Sys2Proof.Machine.execSliceSetVectors tag s
  | .sliceReset tag => Sys2Proof.Machine.execSliceReset tag s
  | .sliceSaveLogStart tag => Sys2Proof.Machine.execSliceSaveLogStart tag s
  | .sliceSaveStop tag io => Sys2Proof.Machine.execSliceSaveStop tag io s
  | .sliceSaveLogEnd tag => Sys2Proof.Machine.execSliceSaveLogEnd tag s
  | .sliceRestore tag io => Sys2Proof.Machine.execSliceRestore tag io s
  | .sliceHarvest tag io => Sys2Proof.Machine.execSliceHarvest tag io s
  | .sliceInfo tag io => Sys2Proof.Machine.execSliceInfo tag io s
  | .ownerCreate tag io => Sys2Proof.Machine.execOwnerCreate tag io s
  | .ownerRetire tag => Sys2Proof.Machine.execOwnerRetire tag s
  | .ownerInfo tag io => Sys2Proof.Machine.execOwnerInfo tag io s
  | .officerAdd tag io => Sys2Proof.Machine.execOfficerAdd tag io s
  | .officerRemove tag => Sys2Proof.Machine.execOfficerRemove tag s
  | .ownerSetQuorum tag => Sys2Proof.Machine.execOwnerSetQuorum tag s
  | .approvalRequest tag io => Sys2Proof.Machine.execApprovalRequest tag io s
  | .approvalSubmit tag io => Sys2Proof.Machine.execApprovalSubmit tag io s
  | .approvalList tag io => Sys2Proof.Machine.execApprovalList tag io s
  | .approvalCancel tag => Sys2Proof.Machine.execApprovalCancel tag s
  | .keyCreate tag => Sys2Proof.Machine.execKeyCreate tag s
  | .keyImport tag io => Sys2Proof.Machine.execKeyImport tag io s
  | .keyImportPublic tag io => Sys2Proof.Machine.execKeyImportPublic tag io s
  | .keyDerive tag io => Sys2Proof.Machine.execKeyDerive tag io s
  | .keyDestroy tag => Sys2Proof.Machine.execKeyDestroy tag s
  | .keyInfo tag io => Sys2Proof.Machine.execKeyInfo tag io s
  | .keyRestrict tag => Sys2Proof.Machine.execKeyRestrict tag s
  | .keyList tag io => Sys2Proof.Machine.execKeyList tag io s
  | .keySetLease tag => Sys2Proof.Machine.execKeySetLease tag s
  | .symEncrypt tag io => Sys2Proof.Machine.execSymEncrypt tag io s
  | .symDecrypt tag io => Sys2Proof.Machine.execSymDecrypt tag io s
  | .symMac tag io => Sys2Proof.Machine.execSymMac tag io s
  | .symMacVerify tag io => Sys2Proof.Machine.execSymMacVerify tag io s
  | .symHash tag io => Sys2Proof.Machine.execSymHash tag io s
  | .symCtxOpen tag io => Sys2Proof.Machine.execSymCtxOpen tag io s
  | .symCtxUpdate tag io => Sys2Proof.Machine.execSymCtxUpdate tag io s
  | .symCtxFinish tag io => Sys2Proof.Machine.execSymCtxFinish tag io s
  | .symCtxClose tag => Sys2Proof.Machine.execSymCtxClose tag s
  | .pkSign tag io => Sys2Proof.Machine.execPkSign tag io s
  | .pkVerify tag io => Sys2Proof.Machine.execPkVerify tag io s
  | .pkAgree tag io => Sys2Proof.Machine.execPkAgree tag io s
  | .pkEncapsulate tag io => Sys2Proof.Machine.execPkEncapsulate tag io s
  | .pkDecapsulate tag io => Sys2Proof.Machine.execPkDecapsulate tag io s
  | .pkGetPublic tag io => Sys2Proof.Machine.execPkGetPublic tag io s
  | .pkVerifyBatch tag io => Sys2Proof.Machine.execPkVerifyBatch tag io s
  | .rngGet tag io => Sys2Proof.Machine.execRngGet tag io s
  | .rngReseed tag io => Sys2Proof.Machine.execRngReseed tag io s
  | .rngStatus tag io => Sys2Proof.Machine.execRngStatus tag io s
  | .portConfig tag io => Sys2Proof.Machine.execPortConfig tag io s
  | .portStatus tag io => Sys2Proof.Machine.execPortStatus tag io s
  | .queueCreate tag io => Sys2Proof.Machine.execQueueCreate tag io s
  | .queueModify tag io => Sys2Proof.Machine.execQueueModify tag io s
  | .queueDestroy tag => Sys2Proof.Machine.execQueueDestroy tag s
  | .linkSend tag io => Sys2Proof.Machine.execLinkSend tag io s
  | .linkRekey tag => Sys2Proof.Machine.execLinkRekey tag s
  | .linkClassify tag io => Sys2Proof.Machine.execLinkClassify tag io s
  | .cardEnrol tag io => Sys2Proof.Machine.execCardEnrol tag io s
  | .cardRetire tag ok0 ok1 => Sys2Proof.Machine.execCardRetire tag ok0 ok1 s
  | .cardStatus tag io => Sys2Proof.Machine.execCardStatus tag io s
  | .linkStats tag io => Sys2Proof.Machine.execLinkStats tag io s
  | .seamForm tag io => Sys2Proof.Machine.execSeamForm tag io s
  | .seamLeave tag => Sys2Proof.Machine.execSeamLeave tag s
  | .seamStatus tag io => Sys2Proof.Machine.execSeamStatus tag io s
  | .seamSwitchover tag => Sys2Proof.Machine.execSeamSwitchover tag s
  | .seamResync tag => Sys2Proof.Machine.execSeamResync tag s
  | .seamSetWitness tag => Sys2Proof.Machine.execSeamSetWitness tag s
  | .tallyRead tag io => Sys2Proof.Machine.execTallyRead tag io s
  | .tallyClear tag => Sys2Proof.Machine.execTallyClear tag s
  | .tallyWrite tag io => Sys2Proof.Machine.execTallyWrite tag io s
  | .tallyStatus tag io => Sys2Proof.Machine.execTallyStatus tag io s
  | .tallyFlush tag => Sys2Proof.Machine.execTallyFlush tag s
  | .timeGet tag io => Sys2Proof.Machine.execTimeGet tag io s
  | .timeSetCt tag => Sys2Proof.Machine.execTimeSetCt tag s
  | .timeSetSource tag present => Sys2Proof.Machine.execTimeSetSource tag present s
  | .timeSetPpsOut tag => Sys2Proof.Machine.execTimeSetPpsOut tag s
  | .timeSleepPolicy tag => Sys2Proof.Machine.execTimeSleepPolicy tag s
  | .timeStandby tag => Sys2Proof.Machine.execTimeStandby tag s
  | .fwStage tag io => Sys2Proof.Machine.execFwStage tag io s
  | .fwVerify tag io => Sys2Proof.Machine.execFwVerify tag io s
  | .fwActivate tag => Sys2Proof.Machine.execFwActivate tag s
  | .fwConfirm tag => Sys2Proof.Machine.execFwConfirm tag s
  | .fwFallback tag => Sys2Proof.Machine.execFwFallback tag s
  | .fwStatus tag io => Sys2Proof.Machine.execFwStatus tag io s
  | .lcStatus tag io => Sys2Proof.Machine.execLcStatus tag io s
  | .debugInstall tag io => Sys2Proof.Machine.execDebugInstall tag io s
  | .debugRevoke tag => Sys2Proof.Machine.execDebugRevoke tag s
  | .scorchStatus tag io => Sys2Proof.Machine.execScorchStatus tag io s
  | .scorchUnlock tag io => Sys2Proof.Machine.execScorchUnlock tag io s
  | .scorchLogRead tag io => Sys2Proof.Machine.execScorchLogRead tag io s
  | .scorchDisable tag => Sys2Proof.Machine.execScorchDisable tag s
  | .progLoad tag io => Sys2Proof.Machine.execProgLoad tag io s
  | .progStart tag => Sys2Proof.Machine.execProgStart tag s
  | .progStop tag => Sys2Proof.Machine.execProgStop tag s
  | .progUnload tag => Sys2Proof.Machine.execProgUnload tag s
  | .progStatus tag io => Sys2Proof.Machine.execProgStatus tag io s
  | .dmaGrant tag => Sys2Proof.Machine.execDmaGrant tag s
  | .dmaRevoke tag => Sys2Proof.Machine.execDmaRevoke tag s
  | .evtRoute tag => Sys2Proof.Machine.execEvtRoute tag s
  | .commandFetch slice ring entry => Sys2Proof.Machine.execCommandFetch slice ring entry s
  | .inputPrereadDone tag io => Sys2Proof.Machine.execInputPrereadDone tag io s
  | .commandStart tag => Sys2Proof.Machine.execCommandStart tag s
  | .completionWrite tag ok => Sys2Proof.Machine.execCompletionWrite tag ok s
  | .cqCoalTimeout slice ring => Sys2Proof.Machine.execCqCoalTimeout slice ring s
  | .msixVectorUnmask fn vec => Sys2Proof.Machine.execMsixVectorUnmask fn vec s
  | .hostAccessRetry what data translation => Sys2Proof.Machine.execHostAccessRetry what data translation s
  | .cpFirmwareRestart imageOk => Sys2Proof.Machine.execCpFirmwareRestart imageOk s
  | .keyDestroyProceed tag => Sys2Proof.Machine.execKeyDestroyProceed tag s
  | .journalCompaction ok0 ok1 => Sys2Proof.Machine.execJournalCompaction ok0 ok1 s
  | .approvalExpiry entry => Sys2Proof.Machine.execApprovalExpiry entry s
  | .queueDrained queue => Sys2Proof.Machine.execQueueDrained queue s
  | .timeNowLoRead r => Sys2Proof.Machine.execTimeNowLoRead r s
  | .timeCtLoRead r => Sys2Proof.Machine.execTimeCtLoRead r s
  | .loHalfRead r addr => Sys2Proof.Machine.execLoHalfRead r addr s
  | .sqTailWrite fn slice ring pasid value => Sys2Proof.Machine.execSqTailWrite fn slice ring pasid value s
  | .cqHeadWrite fn slice ring pasid value => Sys2Proof.Machine.execCqHeadWrite fn slice ring pasid value s
  | .sqCfgWrite fn slice ring pasid value => Sys2Proof.Machine.execSqCfgWrite fn slice ring pasid value s
  | .cqCfgWrite fn slice ring pasid value => Sys2Proof.Machine.execCqCfgWrite fn slice ring pasid value s
  | .mbxGo fn value => Sys2Proof.Machine.execMbxGo fn value s
  | .rngDataRead rd => Sys2Proof.Machine.execRngDataRead rd s
  | .sqcClearWrite r addr value => Sys2Proof.Machine.execSqcClearWrite r addr value s
  | .cpwValueWrite r addr value => Sys2Proof.Machine.execCpwValueWrite r addr value s
  | .cpwGuardWrite r addr value => Sys2Proof.Machine.execCpwGuardWrite r addr value s
  | .cpwPairTimeout block => Sys2Proof.Machine.execCpwPairTimeout block s
  | .wideSelWrite r queue value => Sys2Proof.Machine.execWideSelWrite r queue value s
  | .wideCapture r queue value => Sys2Proof.Machine.execWideCapture r queue value s
  | .narrowWrite r pas place => Sys2Proof.Machine.execNarrowWrite r pas place s
  | .longTlp fn isWrite => Sys2Proof.Machine.execLongTlp fn isWrite s
  | .atomicOpRequest fn => Sys2Proof.Machine.execAtomicOpRequest fn s
  | .registerWrite r pas place value => Sys2Proof.Machine.execRegisterWrite r pas place value s
  | .lcsReqWrite value => Sys2Proof.Machine.execLcsReqWrite value s
  | .lcEraseDone => Sys2Proof.Machine.execLcEraseDone s
  | .hmpAlloc r as_ n => Sys2Proof.Machine.execHmpAlloc r as_ n s
  | .hmpFree r as_ buf => Sys2Proof.Machine.execHmpFree r as_ buf s
  | .hmpEnq r as_ buf queue => Sys2Proof.Machine.execHmpEnq r as_ buf queue s
  | .hmpDeq r as_ queue => Sys2Proof.Machine.execHmpDeq r as_ queue s
  | .hmpSetlen r as_ buf length => Sys2Proof.Machine.execHmpSetlen r as_ buf length s
  | .dmaStart r chan => Sys2Proof.Machine.execDmaStart r chan s
  | .dmaPause r chan => Sys2Proof.Machine.execDmaPause r chan s
  | .dmaCont r chan => Sys2Proof.Machine.execDmaCont r chan s
  | .dmaAbort r chan => Sys2Proof.Machine.execDmaAbort r chan s
  | .dmaResume r chan hi => Sys2Proof.Machine.execDmaResume r chan hi s
  | .dmaDescriptorRead chan data translation => Sys2Proof.Machine.execDmaDescriptorRead chan data translation s
  | .dmaReadCompletion chan data translation => Sys2Proof.Machine.execDmaReadCompletion chan data translation s
  | .dmaTriggerPulse chan => Sys2Proof.Machine.execDmaTriggerPulse chan s
  | .evtFire line => Sys2Proof.Machine.execEvtFire line s
  | .eventTimer timer => Sys2Proof.Machine.execEventTimer timer s
  | .gpioEdge pin rising => Sys2Proof.Machine.execGpioEdge pin rising s
  | .thmRspHeadWrite value => Sys2Proof.Machine.execThmRspHeadWrite value s
  | .thmPing => Sys2Proof.Machine.execThmPing s
  | .thmBind => Sys2Proof.Machine.execThmBind s
  | .thmPurge h => Sys2Proof.Machine.execThmPurge h s
  | .thmPlace => Sys2Proof.Machine.execThmPlace s
  | .thmCreate ok0 ok1 => Sys2Proof.Machine.execThmCreate ok0 ok1 s
  | .thmImport ok0 ok1 => Sys2Proof.Machine.execThmImport ok0 ok1 s
  | .thmDerive ok0 ok1 => Sys2Proof.Machine.execThmDerive ok0 ok1 s
  | .thmAccept ok0 ok1 => Sys2Proof.Machine.execThmAccept ok0 ok1 s
  | .thmDestroy ok0 ok1 => Sys2Proof.Machine.execThmDestroy ok0 ok1 s
  | .thmRestrict ok0 ok1 => Sys2Proof.Machine.execThmRestrict ok0 ok1 s
  | .thmLease ok0 ok1 => Sys2Proof.Machine.execThmLease ok0 ok1 s
  | .thmOwner ok0 ok1 => Sys2Proof.Machine.execThmOwner ok0 ok1 s
  | .thmEpoch ok0 ok1 => Sys2Proof.Machine.execThmEpoch ok0 ok1 s
  | .thmSeal slots owners => Sys2Proof.Machine.execThmSeal slots owners s
  | .thmOpen b => Sys2Proof.Machine.execThmOpen b s
  | .thmHandover ok0 ok1 => Sys2Proof.Machine.execThmHandover ok0 ok1 s
  | .thmRecover => Sys2Proof.Machine.execThmRecover s
  | .thmLc cut => Sys2Proof.Machine.execThmLc cut s
  | .thimbleResponse => Sys2Proof.Machine.execThimbleResponse s
  | .thimbleRestart => Sys2Proof.Machine.execThimbleRestart s
  | .thimbleReady imageOk => Sys2Proof.Machine.execThimbleReady imageOk s
  | .thimbleHang silent => Sys2Proof.Machine.execThimbleHang silent s
  | .thimbleRestartTimeout => Sys2Proof.Machine.execThimbleRestartTimeout s
  | .timeStep => Sys2Proof.Machine.execTimeStep s
  | .portReset port => Sys2Proof.Machine.execPortReset port s
  | .servoUpdate => Sys2Proof.Machine.execServoUpdate s
  | .ppsInEdge => Sys2Proof.Machine.execPpsInEdge s
  | .ppsSourceTimeout => Sys2Proof.Machine.execPpsSourceTimeout s
  | .ptpSyncTimeout => Sys2Proof.Machine.execPtpSyncTimeout s
  | .ptpMessageReceived port frame fcsOk delay => Sys2Proof.Machine.execPtpMessageReceived port frame fcsOk delay s
  | .ptpMasterSync port => Sys2Proof.Machine.execPtpMasterSync port s
  | .ptpAnnounce port => Sys2Proof.Machine.execPtpAnnounce port s
  | .ppsOutSecond => Sys2Proof.Machine.execPpsOutSecond s
  | .ppsOutPulseEnd => Sys2Proof.Machine.execPpsOutPulseEnd s
  | .rtcCopy => Sys2Proof.Machine.execRtcCopy s
  | .rtcCrystalStop => Sys2Proof.Machine.execRtcCrystalStop s
  | .airingRefLoss alive => Sys2Proof.Machine.execAiringRefLoss alive s
  | .warmEntry => Sys2Proof.Machine.execWarmEntry s
  | .warmExit => Sys2Proof.Machine.execWarmExit s
  | .airingEntry => Sys2Proof.Machine.execAiringEntry s
  | .airingWake cause => Sys2Proof.Machine.execAiringWake cause s
  | .wakeTimerExpiry => Sys2Proof.Machine.execWakeTimerExpiry s
  | .holdRingRelease => Sys2Proof.Machine.execHoldRingRelease s
  | .standbyWake cause => Sys2Proof.Machine.execStandbyWake cause s
  | .pressJobIssue pipe => Sys2Proof.Machine.execPressJobIssue pipe s
  | .pressJobDone pipe job => Sys2Proof.Machine.execPressJobDone pipe job s
  | .mangleSlotFill unit => Sys2Proof.Machine.execMangleSlotFill unit s
  | .mangleOpDone unit wrong => Sys2Proof.Machine.execMangleOpDone unit wrong s
  | .lintStartupTestEnd source raw => Sys2Proof.Machine.execLintStartupTestEnd source raw s
  | .lintWindowEnd source raw => Sys2Proof.Machine.execLintWindowEnd source raw s
  | .bobbinInstantiate => Sys2Proof.Machine.execBobbinInstantiate s
  | .bobbinAutoReseed => Sys2Proof.Machine.execBobbinAutoReseed s
  | .bobbinReseedRetry => Sys2Proof.Machine.execBobbinReseedRetry s
  | .bobbinLimitReached => Sys2Proof.Machine.execBobbinLimitReached s
  | .bobbinKat ok => Sys2Proof.Machine.execBobbinKat ok s
  | .bobbinKatRetry ok => Sys2Proof.Machine.execBobbinKatRetry ok s
  | .bobbinCallDone => Sys2Proof.Machine.execBobbinCallDone s
  | .rngFifoRefill cls => Sys2Proof.Machine.execRngFifoRefill cls s
  | .ffpDataReceived port frame fcsOk => Sys2Proof.Machine.execFfpDataReceived port frame fcsOk s
  | .ffpAckReceived port frame fcsOk => Sys2Proof.Machine.execFfpAckReceived port frame fcsOk s
  | .ffpHeartbeatReceived port frame fcsOk => Sys2Proof.Machine.execFfpHeartbeatReceived port frame fcsOk s
  | .ffpCardReportReceived port frame fcsOk => Sys2Proof.Machine.execFfpCardReportReceived port frame fcsOk s
  | .ffpRetransmitReqReceived port frame fcsOk => Sys2Proof.Machine.execFfpRetransmitReqReceived port frame fcsOk s
  | .enrolmentReportReceived port frame fcsOk => Sys2Proof.Machine.execEnrolmentReportReceived port frame fcsOk s
  | .frameTransmitted port => Sys2Proof.Machine.execFrameTransmitted port s
  | .receiveDelivery queue ok => Sys2Proof.Machine.execReceiveDelivery queue ok s
  | .ackSendTimer queue => Sys2Proof.Machine.execAckSendTimer queue s
  | .controlRetransmitTimer queue => Sys2Proof.Machine.execControlRetransmitTimer queue s
  | .controlGiveUp queue => Sys2Proof.Machine.execControlGiveUp queue s
  | .gapRetransmitReq queue => Sys2Proof.Machine.execGapRetransmitReq queue s
  | .staleFrameFree queue => Sys2Proof.Machine.execStaleFrameFree queue s
  | .rekeyResend card => Sys2Proof.Machine.execRekeyResend card s
  | .rekeyTimeout card => Sys2Proof.Machine.execRekeyTimeout card s
  | .adjacentEpochClear card => Sys2Proof.Machine.execAdjacentEpochClear card s
  | .enrolOfferResend card => Sys2Proof.Machine.execEnrolOfferResend card s
  | .enrolTimeout card => Sys2Proof.Machine.execEnrolTimeout card s
  | .heartbeatLoss queue => Sys2Proof.Machine.execHeartbeatLoss queue s
  | .postResetRekey => Sys2Proof.Machine.execPostResetRekey s
  | .portLinkUp port remote => Sys2Proof.Machine.execPortLinkUp port remote s
  | .portLinkDown port localF remote => Sys2Proof.Machine.execPortLinkDown port localF remote s
  | .portIdleForcedEnd port => Sys2Proof.Machine.execPortIdleForcedEnd port s
  | .seamLinkTrained link latency => Sys2Proof.Machine.execSeamLinkTrained link latency s
  | .seamHelloReceived link p => Sys2Proof.Machine.execSeamHelloReceived link p s
  | .seamFormReceived link p => Sys2Proof.Machine.execSeamFormReceived link p s
  | .seamHeartbeatSend link => Sys2Proof.Machine.execSeamHeartbeatSend link s
  | .seamHeartbeatReceived link p arrived asym => Sys2Proof.Machine.execSeamHeartbeatReceived link p arrived asym s
  | .seamJournalReceived link p => Sys2Proof.Machine.execSeamJournalReceived link p s
  | .seamAckReceived link p => Sys2Proof.Machine.execSeamAckReceived link p s
  | .seamNakReceived link p => Sys2Proof.Machine.execSeamNakReceived link p s
  | .seamUplinkReceived link p => Sys2Proof.Machine.execSeamUplinkReceived link p s
  | .seamResyncReceived link p => Sys2Proof.Machine.execSeamResyncReceived link p s
  | .seamFarewellReceived link p => Sys2Proof.Machine.execSeamFarewellReceived link p s
  | .seamLinkLoss link => Sys2Proof.Machine.execSeamLinkLoss link s
  | .seamHeartbeatMiss link => Sys2Proof.Machine.execSeamHeartbeatMiss link s
  | .witnessProbeTimeout => Sys2Proof.Machine.execWitnessProbeTimeout s
  | .witnessReprobe => Sys2Proof.Machine.execWitnessReprobe s
  | .checkpointTimer => Sys2Proof.Machine.execCheckpointTimer s
  | .seamAckCoalesce => Sys2Proof.Machine.execSeamAckCoalesce s
  | .timeDivergenceFence => Sys2Proof.Machine.execTimeDivergenceFence s
  | .resyncRequestRetry => Sys2Proof.Machine.execResyncRequestRetry s
  | .seamSessionRenew link => Sys2Proof.Machine.execSeamSessionRenew link s
  | .seamFormTimeout => Sys2Proof.Machine.execSeamFormTimeout s
  | .rejoinWaitTimeout => Sys2Proof.Machine.execRejoinWaitTimeout s
  | .soloStartTimeout => Sys2Proof.Machine.execSoloStartTimeout s
  | .takeInterrupt core => Sys2Proof.Machine.execTakeInterrupt core s
  | .coreTimerMatch core => Sys2Proof.Machine.execCoreTimerMatch core s
  | .progStopTimeout core => Sys2Proof.Machine.execProgStopTimeout core s
  | .nop core => Sys2Proof.Machine.execNop core s
  | .br core => Sys2Proof.Machine.execBr core s
  | .call core => Sys2Proof.Machine.execCall core s
  | .ret core => Sys2Proof.Machine.execRet core s
  | .rfi core => Sys2Proof.Machine.execRfi core s
  | .halt core => Sys2Proof.Machine.execHalt core s
  | .wait core => Sys2Proof.Machine.execWait core s
  | .trap core => Sys2Proof.Machine.execTrap core s
  | .fence core => Sys2Proof.Machine.execFence core s
  | .signal core => Sys2Proof.Machine.execSignal core s
  | .mov core => Sys2Proof.Machine.execMov core s
  | .movsx core => Sys2Proof.Machine.execMovsx core s
  | .movzx core => Sys2Proof.Machine.execMovzx core s
  | .lea core => Sys2Proof.Machine.execLea core s
  | .add core => Sys2Proof.Machine.execAdd core s
  | .sub core => Sys2Proof.Machine.execSub core s
  | .adds core => Sys2Proof.Machine.execAdds core s
  | .subs core => Sys2Proof.Machine.execSubs core s
  | .neg core => Sys2Proof.Machine.execNeg core s
  | .abs core => Sys2Proof.Machine.execAbs core s
  | .mul core => Sys2Proof.Machine.execMul core s
  | .mulhs core => Sys2Proof.Machine.execMulhs core s
  | .mulhu core => Sys2Proof.Machine.execMulhu core s
  | .mac core => Sys2Proof.Machine.execMac core s
  | .min core => Sys2Proof.Machine.execMin core s
  | .max core => Sys2Proof.Machine.execMax core s
  | .minu core => Sys2Proof.Machine.execMinu core s
  | .maxu core => Sys2Proof.Machine.execMaxu core s
  | .and core => Sys2Proof.Machine.execAnd core s
  | .or core => Sys2Proof.Machine.execOr core s
  | .xor core => Sys2Proof.Machine.execXor core s
  | .not core => Sys2Proof.Machine.execNot core s
  | .shl core => Sys2Proof.Machine.execShl core s
  | .shr core => Sys2Proof.Machine.execShr core s
  | .sar core => Sys2Proof.Machine.execSar core s
  | .rol core => Sys2Proof.Machine.execRol core s
  | .brev core => Sys2Proof.Machine.execBrev core s
  | .clz core => Sys2Proof.Machine.execClz core s
  | .popc core => Sys2Proof.Machine.execPopc core s
  | .cmpeq core => Sys2Proof.Machine.execCmpeq core s
  | .cmpne core => Sys2Proof.Machine.execCmpne core s
  | .cmplt core => Sys2Proof.Machine.execCmplt core s
  | .cmple core => Sys2Proof.Machine.execCmple core s
  | .cmpltu core => Sys2Proof.Machine.execCmpltu core s
  | .cmpleu core => Sys2Proof.Machine.execCmpleu core s
  | .tstz core => Sys2Proof.Machine.execTstz core s
  | .tstnz core => Sys2Proof.Machine.execTstnz core s
  | .pand core => Sys2Proof.Machine.execPand core s
  | .por core => Sys2Proof.Machine.execPor core s
  | .pxor core => Sys2Proof.Machine.execPxor core s
  | .pnot core => Sys2Proof.Machine.execPnot core s
  | .pset core => Sys2Proof.Machine.execPset core s
  | .mulq core => Sys2Proof.Machine.execMulq core s
  | .macq core => Sys2Proof.Machine.execMacq core s
  | .satq core => Sys2Proof.Machine.execSatq core s
  | .ldr core => Sys2Proof.Machine.execLdr core s
  | .str core => Sys2Proof.Machine.execStr core s
  | .addr core => Sys2Proof.Machine.execAddr core s
  | .evtake core => Sys2Proof.Machine.execEvtake core s
  | .bmov core => Sys2Proof.Machine.execBmov core s
  | .bfill core => Sys2Proof.Machine.execBfill core s
  | .badds core => Sys2Proof.Machine.execBadds core s
  | .bmulq core => Sys2Proof.Machine.execBmulq core s
  | .bmacq core => Sys2Proof.Machine.execBmacq core s
  | .bdot core => Sys2Proof.Machine.execBdot core s
  | .bpeak core => Sys2Proof.Machine.execBpeak core s
  | .prsIssue core => Sys2Proof.Machine.execPrsIssue core s
  | .prsWait core => Sys2Proof.Machine.execPrsWait core s
  | .prsPoll core => Sys2Proof.Machine.execPrsPoll core s
  | .mglIssue core => Sys2Proof.Machine.execMglIssue core s
  | .mglCollect core => Sys2Proof.Machine.execMglCollect core s
  | .mglPoll core => Sys2Proof.Machine.execMglPoll core s
  | .powerOnReset strap bifur => Sys2Proof.Machine.execPowerOnReset strap bifur s
  | .deviceReset => Sys2Proof.Machine.execDeviceReset s
  | .startSequence => Sys2Proof.Machine.execStartSequence s
  | .measuredCopyDone => Sys2Proof.Machine.execMeasuredCopyDone s
  | .tortinReady => Sys2Proof.Machine.execTortinReady s
  | .resetNAssert low => Sys2Proof.Machine.execResetNAssert low s
  | .resetNStuck => Sys2Proof.Machine.execResetNStuck s
  | .resetNRearm => Sys2Proof.Machine.execResetNRearm s
  | .watchdogExpiry imageOk => Sys2Proof.Machine.execWatchdogExpiry imageOk s
  | .functionLevelReset fn => Sys2Proof.Machine.execFunctionLevelReset fn s
  | .hotReset fn => Sys2Proof.Machine.execHotReset fn s
  | .dlDown fn => Sys2Proof.Machine.execDlDown fn s
  | .pciePerst fn => Sys2Proof.Machine.execPciePerst fn s
  | .flashChipProbe chip ok => Sys2Proof.Machine.execFlashChipProbe chip ok s
  | .pmicStatusPoll => Sys2Proof.Machine.execPmicStatusPoll s
  | .memTestStart fails => Sys2Proof.Machine.execMemTestStart fails s
  | .debugCertExpiry => Sys2Proof.Machine.execDebugCertExpiry s
  | .supplyDetectorAFire rail glitch low ns mv => Sys2Proof.Machine.execSupplyDetectorAFire rail glitch low ns mv s
  | .supplyDetectorDFire rail low mv => Sys2Proof.Machine.execSupplyDetectorDFire rail low mv s
  | .temperatureFire t0 t1 ms => Sys2Proof.Machine.execTemperatureFire t0 t1 ms s
  | .tempWarn t0 t1 ms => Sys2Proof.Machine.execTempWarn t0 t1 ms s
  | .tempWarnClear t0 t1 ms => Sys2Proof.Machine.execTempWarnClear t0 t1 ms s
  | .referenceFrequencyFire khz ps => Sys2Proof.Machine.execReferenceFrequencyFire khz ps s
  | .meshFire => Sys2Proof.Machine.execMeshFire s
  | .loopFire loop sample => Sys2Proof.Machine.execLoopFire loop sample s
  | .vbatFire kind mv => Sys2Proof.Machine.execVbatFire kind mv s
  | .vbatLow mv => Sys2Proof.Machine.execVbatLow mv s
  | .vaultIntegrityCheck bad => Sys2Proof.Machine.execVaultIntegrityCheck bad s
  | .supplyWarning core_ io_ => Sys2Proof.Machine.execSupplyWarning core_ io_ s
  | .supplyWarningEnd core_ io_ => Sys2Proof.Machine.execSupplyWarningEnd core_ io_ s
  | .powerFail => Sys2Proof.Machine.execPowerFail s
  | .powerFailEnd => Sys2Proof.Machine.execPowerFailEnd s
  | .vaultEntry rail mv => Sys2Proof.Machine.execVaultEntry rail mv s
  | .scorchLogMirror => Sys2Proof.Machine.execScorchLogMirror s
  | .tallyAppend cut => Sys2Proof.Machine.execTallyAppend cut s
  | .tallySlotAbandon place => Sys2Proof.Machine.execTallySlotAbandon place s
  | .tallyFlushBegin => Sys2Proof.Machine.execTallyFlushBegin s
  | .tallyFlushRetry => Sys2Proof.Machine.execTallyFlushRetry s
  | .completionTimeout what => Sys2Proof.Machine.execCompletionTimeout what s
  | .configurationWrite fn item => Sys2Proof.Machine.execConfigurationWrite fn item s
  | .pcieLinkUp fn width speed flit => Sys2Proof.Machine.execPcieLinkUp fn width speed flit s
  | .flashOperationDone job ok0 ok1 => Sys2Proof.Machine.execFlashOperationDone job ok0 ok1 s
  | .jtagDebugRequest req => Sys2Proof.Machine.execJtagDebugRequest req s
  | .sourceConditionAbsent source => Sys2Proof.Machine.execSourceConditionAbsent source s

end Sys2Proof.Machine
end

