-- ==== Sys2Proof/Machine/Tick.lean ====
section
/-! DEFINITION. One Airing cycle, which passes when no command waits (assumption 2). -/

namespace Sys2Proof.Machine

/-- Thimble advances `THM_ALIVE` once in every millisecond while it is READY (spec 14) and its clock runs (Table 1-8). -/
def thmBeat (s : State) : State :=
  if s.thm.mode = .ready ∧ s.time.clk % cycMs = 0 ∧ procRuns s then { s with thm := { s.thm with alive := s.thm.alive + 1 } } else s

/-- A STANDBY that waits for the engines begins once they are idle (R42). -/
def standbyStep (s : State) : State :=
  match s.pwr.standby with
  | none => s
  | some tag => if (cmdAt s tag).isNone && enginesIdle s then enterStandby s else s

/-- One half of `HMP_ECC_CNT` counts and saturates: the corrected errors, or the uncorrectable ones (R228, R261). -/
def eccCount (s : State) (bad : Bool) : State :=
  let n := regField s aHmpEcc (if bad then 31 else 15) (if bad then 16 else 0)
  regSetField s aHmpEcc (if bad then 31 else 15) (if bad then 16 else 0) (min 65535 (n + 1))

/-- The SECDED code of buffer memory: an error of one bit is corrected and counted; an uncorrectable one taints its buffer, which is held, is counted
and recorded (R228). Whether one is found in this cycle is a free value (assumption 3). -/
def eccStep (s : State) : State :=
  let v := (Config.eccEvent s.time.clk).toNat
  let b := v / 4 % hmpBuffers
  if !procRuns s ∨ s.pwr.vault then s
  else if v % 4 = 1 then eccCount s false
  else if v % 4 = 2 ∧ (bufGet s b).held then
    tallyPut (sqcSet (eccCount (bufPut s b { bufGet s b with taint := true }) true) aHmpEvt 5) agHamper 0x0E82 [(9, b)]
  else s

/-- One Airing cycle of 4 ns: the clocks advance, an entry into AIRING or a wake in progress moves on (R43, Table 2-6), a whole Stamp second is an
event source (Table 9-12), buffer memory may show an ECC error, journal entries that wait for their budgets leave (R319), and the AIRING idle time
restarts while its conditions fail. -/
def airingTick (s : State) : State :=
  let s0 := standbyStep (exitStep (enterStep (eccStep (thmBeat (timeCycle s)))))
  let s2 := if (nowStamp s0).toNat / 2 ^ 32 = (nowStamp s).toNat / 2 ^ 32 ∨ !fastPowered s then s0 else evPulse s0 srcSecond
  let s1 := seamServe s2.seam.unsent.length s2
  if airingIdle s then s1 else { s1 with pwr := { s1.pwr with idleLast := s1.time.clk } }

end Sys2Proof.Machine
end

