-- ==== Sys2Proof/Machine/Step.lean ====
section
/-! DEFINITION. One step of the block: the command at the front of the queue, or one Airing cycle when nothing waits. -/

namespace Sys2Proof.Machine

/-- One step (assumptions 1 and 2): the command at the front runs on the queue's rest; on an empty queue the Stamp
advances by one Airing cycle. -/
def step (s : State) : Host.Outcome State Fault Refusal :=
  match s.pending with
  | [] => .next (airingTick s)
  | c :: rest => exec c { s with pending := rest }

/-- `s` with the command that a word spells by the table's bits at the front of its queue. The table gives no row any
bits, so no word spells a command and `s` is unchanged. -/
def State.withFetchWord (s : State) (nbits w : Nat) : State :=
  match Sys2Proof.decodeTableWord nbits w with
  | none => s
  | some c => { s with pending := c :: s.pending }

end Sys2Proof.Machine
end

