-- ==== Sys2Proof/Safety.lean ====
section
/-! DEFINITION. What a run of the block keeps, and what the statements speak of. -/

namespace Sys2Proof.Machine

/-! What a step may change: the parts of the state, and `Only`. -/

/-- The parts of the state, and four changes inside a part that few rows can make. -/
inductive Part where
  /-- The trace of what the block sends. -/
  | out
  /-- The counter of the free values. -/
  | draws
  /-- The clocks. -/
  | time
  /-- The power states. -/
  | pwr
  /-- The register file and its side tables. -/
  | regs
  /-- The device-wide state. -/
  | dev
  /-- The sequence numbers of the agents. -/
  | agentSeq
  /-- Function 0. -/
  | fn0
  /-- Function 1. -/
  | fn1
  /-- The slices. -/
  | slices
  /-- The command processor. -/
  | tortin
  /-- The Tally. -/
  | tally
  /-- Scorch. -/
  | scorch
  /-- Keys, owners and roots. -/
  | keys
  /-- The group. -/
  | seam
  /-- The buffers. -/
  | hamper
  /-- The Needle cores and events. -/
  | needle
  /-- The links, queues and cards. -/
  | links
  /-- The Press. -/
  | press
  /-- The Mangle. -/
  | mangle
  /-- The random numbers. -/
  | rng
  /-- The DMA channels. -/
  | dma
  /-- Thimble. -/
  | thm
  /-- Firmware and boot. -/
  | boot
  /-- The life cycle. -/
  | lc
  /-- A lock that holds may be lifted. -/
  | locked
  /-- A disabled source may be enabled again. -/
  | fuses
  /-- The lowest security version may fall. -/
  | secMin
  /-- A burned life-cycle fuse may read unburned. -/
  | lcFuses
  deriving DecidableEq, Repr

/-- The bit of a part in a mask. -/
def Part.bit : Part → Nat
  | .out => 0
  | .draws => 1
  | .time => 2
  | .pwr => 3
  | .regs => 4
  | .dev => 5
  | .agentSeq => 6
  | .fn0 => 7
  | .fn1 => 8
  | .slices => 9
  | .tortin => 10
  | .tally => 11
  | .scorch => 12
  | .keys => 13
  | .seam => 14
  | .hamper => 15
  | .needle => 16
  | .links => 17
  | .press => 18
  | .mangle => 19
  | .rng => 20
  | .dma => 21
  | .thm => 22
  | .boot => 23
  | .lc => 24
  | .locked => 25
  | .fuses => 26
  | .secMin => 27
  | .lcFuses => 28

/-- The mask of some parts. -/
def partsMask (ps : List Part) : Nat := ps.foldl (fun m p => m ||| 2 ^ p.bit) 0

/-- From `a` to `b` at most the parts of the mask `m` change. The queue of waiting commands and the Airing clock never do, and
the counter of the free values never falls. -/
structure Only (m : Nat) (a b : State) : Prop where
  /-- The queue of the commands that wait is the same. -/
  pending : b.pending = a.pending
  /-- No time passes. -/
  clk : b.time.clk = a.time.clk
  /-- A free value is not taken twice. -/
  drawn : a.draws ≤ b.draws
  /-- Buffer memory keeps its canonical form. -/
  bufs : memWf a.hamper.data = true → memWf b.hamper.data = true
  /-- The register file keeps its canonical order. -/
  file : tblSorted a.regs.file = true → tblSorted b.regs.file = true
  /-- The table of the cores keeps its canonical order. -/
  cores : tblSorted a.needle.cores = true → tblSorted b.needle.cores = true
  /-- The trace of what the block sends. -/
  out : m.testBit 0 = true ∨ b.out = a.out
  /-- The counter of the free values. -/
  draws : m.testBit 1 = true ∨ b.draws = a.draws
  /-- The clocks. -/
  time : m.testBit 2 = true ∨ b.time = a.time
  /-- The power states. -/
  pwr : m.testBit 3 = true ∨ b.pwr = a.pwr
  /-- The register file and its side tables. -/
  regs : m.testBit 4 = true ∨ b.regs = a.regs
  /-- The device-wide state. -/
  dev : m.testBit 5 = true ∨ b.dev = a.dev
  /-- The sequence numbers of the agents. -/
  agentSeq : m.testBit 6 = true ∨ b.agentSeq = a.agentSeq
  /-- Function 0. -/
  fn0 : m.testBit 7 = true ∨ b.fn0 = a.fn0
  /-- Function 1. -/
  fn1 : m.testBit 8 = true ∨ b.fn1 = a.fn1
  /-- The slices. -/
  slices : m.testBit 9 = true ∨ b.slices = a.slices
  /-- The command processor. -/
  tortin : m.testBit 10 = true ∨ b.tortin = a.tortin
  /-- The Tally. -/
  tally : m.testBit 11 = true ∨ b.tally = a.tally
  /-- Scorch. -/
  scorch : m.testBit 12 = true ∨ b.scorch = a.scorch
  /-- Keys, owners and roots. -/
  keys : m.testBit 13 = true ∨ b.keys = a.keys
  /-- The group. -/
  seam : m.testBit 14 = true ∨ b.seam = a.seam
  /-- The buffers. -/
  hamper : m.testBit 15 = true ∨ b.hamper = a.hamper
  /-- The Needle cores and events. -/
  needle : m.testBit 16 = true ∨ b.needle = a.needle
  /-- The links, queues and cards. -/
  links : m.testBit 17 = true ∨ b.links = a.links
  /-- The Press. -/
  press : m.testBit 18 = true ∨ b.press = a.press
  /-- The Mangle. -/
  mangle : m.testBit 19 = true ∨ b.mangle = a.mangle
  /-- The random numbers. -/
  rng : m.testBit 20 = true ∨ b.rng = a.rng
  /-- The DMA channels. -/
  dma : m.testBit 21 = true ∨ b.dma = a.dma
  /-- Thimble. -/
  thm : m.testBit 22 = true ∨ b.thm = a.thm
  /-- Firmware and boot. -/
  boot : m.testBit 23 = true ∨ b.boot = a.boot
  /-- The life cycle. -/
  lc : m.testBit 24 = true ∨ b.lc = a.lc
  /-- A lock that holds stays (R499). -/
  locked : m.testBit 25 = true ∨ (a.scorch.locked = true → b.scorch.locked = true)
  /-- A disabled source stays disabled (R509). -/
  fuses : m.testBit 26 = true ∨ (∀ i, bitN a.scorch.disabled i = true → bitN b.scorch.disabled i = true)
  /-- The lowest security version does not fall. -/
  secMin : m.testBit 27 = true ∨ (a.boot.secMin ≤ b.boot.secMin)
  /-- A burned life-cycle fuse stays burned. -/
  lcFuses : m.testBit 28 = true ∨ (∀ k i, bitN (a.lc.fuses.getD k 0) i = true → bitN (b.lc.fuses.getD k 0) i = true)

/-- The parts that each row may change. -/
def mayChange : Instr → List Part
  | .devInfo _ _ | .devStatus _ _ | .devLimits _ _ | .devCounters _ _ | .sliceSetQos _ | .sliceSaveLogStart _ | .sliceSaveLogEnd _
  | .sliceHarvest _ _ | .sliceInfo _ _ | .ownerInfo _ _ | .approvalList _ _ | .keyInfo _ _ | .keyList _ _ | .rngStatus _ _
  | .portStatus _ _ | .cardStatus _ _ | .seamStatus _ _ | .tallyRead _ _ | .tallyStatus _ _ | .timeGet _ _ | .fwStatus _ _
  | .lcStatus _ _ | .scorchStatus _ _ | .scorchLogRead _ _ | .progStatus _ _ =>
    [.out, .regs, .agentSeq, .slices, .tortin, .tally, .keys, .seam, .mangle]
  | .devNop _ | .approvalCancel _ | .seamResync _ | .seamSetWitness _ | .tallyClear _ | .tallyWrite _ _ | .tallyFlush _
  | .timeSleepPolicy _ | .fwStage _ _ | .dmaGrant _ =>
    [.out, .regs, .agentSeq, .tortin, .tally, .keys, .seam, .mangle]
  | .sliceCreate _ _ | .sliceResize _ _ =>
    [.out, .regs, .agentSeq, .slices, .tortin, .tally, .keys, .seam, .hamper, .mangle]
  | .sliceDestroy _ | .sliceReset _ =>
    [.out, .regs, .agentSeq, .fn0, .fn1, .slices, .tortin, .tally, .keys, .seam, .hamper, .links, .press, .mangle, .dma]
  | .sliceSetVectors _ =>
    [.out, .regs, .agentSeq, .fn0, .fn1, .slices, .tortin, .tally, .keys, .seam, .mangle]
  | .sliceSaveStop _ _ =>
    [.out, .regs, .agentSeq, .slices, .tortin, .tally, .keys, .seam, .mangle, .dma]
  | .sliceRestore _ _ =>
    [.out, .regs, .agentSeq, .fn0, .fn1, .slices, .tortin, .tally, .keys, .seam, .mangle, .dma]
  | .ownerCreate _ _ | .keyCreate _ | .keyImport _ _ | .keyImportPublic _ _ | .keyDerive _ _ | .keyDestroy _ | .debugInstall _ _
  | .keyDestroyProceed _ =>
    [.out, .regs, .agentSeq, .tortin, .tally, .keys, .seam, .press, .mangle, .thm]
  | .ownerRetire _ | .keyRestrict _ | .keySetLease _ | .debugRevoke _ | .inputPrereadDone _ _ | .thmRecover =>
    [.out, .regs, .agentSeq, .tortin, .tally, .keys, .seam, .mangle, .thm]
  | .officerAdd _ _ =>
    [.out, .regs, .agentSeq, .tortin, .tally, .keys, .seam, .press, .mangle, .boot]
  | .officerRemove _ | .ownerSetQuorum _ | .fwConfirm _ | .fwFallback _ =>
    [.out, .regs, .agentSeq, .tortin, .tally, .keys, .seam, .mangle, .boot]
  | .approvalRequest _ _ =>
    [.out, .pwr, .regs, .agentSeq, .slices, .tortin, .tally, .keys, .seam, .press, .mangle, .rng]
  | .approvalSubmit _ _ | .symEncrypt _ _ | .symDecrypt _ _ | .symMac _ _ | .symMacVerify _ _ | .symHash _ _ | .symCtxOpen _ _
  | .symCtxUpdate _ _ | .symCtxFinish _ _ | .symCtxClose _ | .pkSign _ _ | .pkVerify _ _ | .pkAgree _ _ | .pkEncapsulate _ _
  | .pkDecapsulate _ _ | .pkVerifyBatch _ _ | .progLoad _ _ =>
    [.out, .regs, .agentSeq, .tortin, .tally, .keys, .seam, .press, .mangle]
  | .pkGetPublic _ _ =>
    [.out, .regs, .agentSeq, .slices, .tortin, .tally, .keys, .seam, .press, .mangle]
  | .rngGet _ _ =>
    [.out, .regs, .agentSeq, .tortin, .tally, .keys, .seam, .mangle, .rng]
  | .rngReseed _ _ | .seamForm _ _ =>
    [.out, .pwr, .regs, .agentSeq, .tortin, .tally, .keys, .seam, .mangle, .rng]
  | .portConfig _ _ | .linkClassify _ _ | .queueDrained _ | .rekeyTimeout _ | .enrolTimeout _ | .seamFormTimeout =>
    [.out, .regs, .agentSeq, .tortin, .tally, .keys, .seam, .links, .mangle]
  | .queueCreate _ _ | .linkRekey _ =>
    [.out, .regs, .agentSeq, .tortin, .tally, .keys, .seam, .links, .mangle, .thm]
  | .queueModify _ _ | .queueDestroy _ =>
    [.out, .regs, .agentSeq, .tortin, .tally, .keys, .seam, .hamper, .links, .mangle]
  | .linkSend _ _ =>
    [.out, .draws, .regs, .agentSeq, .slices, .tortin, .tally, .keys, .seam, .hamper, .links, .mangle]
  | .cardEnrol _ _ =>
    [.out, .draws, .pwr, .regs, .agentSeq, .tortin, .tally, .keys, .seam, .links, .press, .mangle, .rng, .thm]
  | .cardRetire _ _ _ =>
    [.out, .regs, .agentSeq, .tortin, .tally, .keys, .seam, .mangle, .thm, .boot]
  | .linkStats _ _ =>
    [.out, .regs, .agentSeq, .slices, .tortin, .tally, .keys, .seam, .links, .mangle]
  | .seamLeave _ =>
    [.out, .draws, .pwr, .regs, .agentSeq, .tortin, .tally, .keys, .seam, .hamper, .needle, .links, .press, .mangle, .rng,
     .dma, .boot]
  | .seamSwitchover _ | .seamAckReceived _ _ | .timeDivergenceFence =>
    [.out, .regs, .agentSeq, .tortin, .tally, .keys, .seam, .hamper, .links, .press, .mangle]
  | .timeSetCt _ | .timeSetSource _ _ | .timeSetPpsOut _ =>
    [.out, .time, .regs, .agentSeq, .tortin, .tally, .keys, .seam, .mangle]
  | .timeStandby _ =>
    [.out, .time, .pwr, .regs, .agentSeq, .tortin, .tally, .keys, .seam, .mangle]
  | .fwVerify _ _ =>
    [.out, .regs, .agentSeq, .slices, .tortin, .tally, .keys, .seam, .press, .mangle, .boot]
  | .fwActivate _ =>
    [.out, .draws, .regs, .agentSeq, .tortin, .tally, .keys, .seam, .mangle, .thm, .boot]
  | .scorchUnlock _ _ =>
    [.out, .regs, .dev, .agentSeq, .tortin, .tally, .scorch, .keys, .seam, .links, .mangle, .locked]
  | .scorchDisable _ =>
    [.out, .draws, .regs, .agentSeq, .tortin, .tally, .scorch, .keys, .seam, .mangle]
  | .progStart _ =>
    [.out, .draws, .regs, .agentSeq, .tortin, .tally, .keys, .seam, .needle, .press, .mangle]
  | .progStop _ | .progStopTimeout _ =>
    [.out, .regs, .agentSeq, .tortin, .tally, .keys, .seam, .hamper, .needle, .press, .mangle, .dma]
  | .progUnload _ =>
    [.out, .regs, .agentSeq, .tortin, .tally, .keys, .seam, .needle, .mangle]
  | .dmaRevoke _ | .evtRoute _ =>
    [.out, .regs, .agentSeq, .tortin, .tally, .keys, .seam, .mangle, .dma]
  | .commandFetch _ _ _ =>
    [.out, .regs, .agentSeq, .fn0, .fn1, .slices, .tortin, .tally, .keys, .seam, .mangle, .thm]
  | .commandStart _ | .mangleSlotFill _ =>
    [.out, .draws, .pwr, .regs, .agentSeq, .slices, .tortin, .tally, .keys, .seam, .hamper, .press, .mangle, .rng, .thm]
  | .completionWrite _ _ | .cpFirmwareRestart _ | .lcEraseDone | .deviceReset | .resetNAssert _ | .watchdogExpiry _ =>
    [.out, .pwr, .regs, .dev, .agentSeq, .fn0, .fn1, .slices, .tortin, .tally, .keys, .seam, .hamper, .needle, .links,
     .press, .mangle, .rng, .dma, .thm, .boot, .lc]
  | .cqCoalTimeout _ _ =>
    [.out, .fn0, .fn1, .slices]
  | .msixVectorUnmask _ _ | .configurationWrite _ _ =>
    [.out, .fn0, .fn1]
  | .hostAccessRetry _ _ _ | .tortinReady | .completionTimeout _ =>
    [.out, .draws, .time, .pwr, .regs, .dev, .agentSeq, .fn0, .fn1, .slices, .tortin, .tally, .scorch, .keys, .seam, .hamper,
     .needle, .links, .press, .mangle, .rng, .dma, .thm, .boot, .lc]
  | .journalCompaction _ _ =>
    [.regs, .agentSeq, .tally, .keys, .boot]
  | .approvalExpiry _ =>
    [.out, .regs, .agentSeq, .tally, .keys, .seam]
  | .timeNowLoRead _ | .timeCtLoRead _ | .loHalfRead _ _ | .rngDataRead _ =>
    [.out, .draws, .pwr, .regs, .dev, .agentSeq, .fn0, .fn1, .tally, .hamper, .needle, .links, .rng]
  | .sqTailWrite _ _ _ _ _ | .cqHeadWrite _ _ _ _ _ | .sqCfgWrite _ _ _ _ _ | .cqCfgWrite _ _ _ _ _ =>
    [.draws, .pwr, .regs, .agentSeq, .fn0, .fn1, .slices, .tally, .hamper, .needle, .links, .rng]
  | .mbxGo _ _ =>
    [.out, .draws, .pwr, .regs, .agentSeq, .fn0, .fn1, .slices, .tortin, .tally, .keys, .seam, .hamper, .needle, .links,
     .mangle, .rng, .thm]
  | .sqcClearWrite _ _ _ | .cpwValueWrite _ _ _ | .cpwGuardWrite _ _ _ | .wideSelWrite _ _ _ | .wideCapture _ _ _
  | .registerWrite _ _ _ _ | .dmaReadCompletion _ _ _ | .jtagDebugRequest _ =>
    [.out, .draws, .time, .pwr, .regs, .dev, .agentSeq, .fn0, .fn1, .slices, .tortin, .tally, .scorch, .keys, .seam, .hamper,
     .needle, .links, .press, .mangle, .rng, .dma, .thm, .lc]
  | .cpwPairTimeout _ | .thmRspHeadWrite _ | .rtcCrystalStop =>
    [.regs]
  | .narrowWrite _ _ _ =>
    [.draws, .pwr, .regs, .dev, .agentSeq, .fn0, .fn1, .slices, .tally, .hamper, .needle, .links, .rng]
  | .longTlp _ _ | .atomicOpRequest _ =>
    [.out, .draws, .pwr, .regs, .agentSeq, .fn0, .fn1, .tally, .hamper, .needle, .links, .rng]
  | .lcsReqWrite _ =>
    [.out, .draws, .pwr, .regs, .agentSeq, .fn0, .fn1, .tally, .scorch, .keys, .seam, .hamper, .needle, .links, .rng, .thm,
     .lc]
  | .hmpAlloc _ _ _ =>
    [.draws, .pwr, .regs, .hamper, .rng]
  | .hmpFree _ _ _ =>
    [.pwr, .regs, .agentSeq, .tally, .hamper, .rng]
  | .hmpEnq _ _ _ _ =>
    [.out, .pwr, .regs, .agentSeq, .tally, .seam, .hamper, .links, .rng]
  | .hmpDeq _ _ _ =>
    [.pwr, .regs, .hamper, .links, .rng]
  | .hmpSetlen _ _ _ _ =>
    [.pwr, .regs, .hamper, .rng]
  | .dmaStart _ _ | .dmaPause _ _ | .dmaCont _ _ | .dmaResume _ _ _ =>
    [.dma]
  | .dmaAbort _ _ =>
    [.tortin, .dma]
  | .dmaDescriptorRead _ _ _ =>
    [.out, .regs, .agentSeq, .fn0, .fn1, .slices, .tortin, .tally, .needle, .dma]
  | .dmaTriggerPulse _ =>
    [.regs, .dma]
  | .evtFire _ | .eventTimer _ =>
    [.regs, .needle, .dma]
  | .gpioEdge _ _ =>
    [.draws, .pwr, .regs, .agentSeq, .fn0, .fn1, .tally, .hamper, .needle, .links, .rng, .dma]
  | .thmPing | .thmSeal _ _ | .postResetRekey =>
    [.thm]
  | .thmBind =>
    [.keys, .links, .thm]
  | .thmPurge _ =>
    [.keys, .thm]
  | .thmPlace =>
    [.tortin, .thm]
  | .thmCreate _ _ | .thmOwner _ _ =>
    [.out, .pwr, .regs, .agentSeq, .tally, .keys, .seam, .rng, .thm, .boot]
  | .thmImport _ _ | .thmDerive _ _ | .thmAccept _ _ | .thmDestroy _ _ =>
    [.out, .regs, .agentSeq, .tally, .keys, .seam, .thm, .boot]
  | .thmRestrict _ _ | .thmLease _ _ | .thmEpoch _ _ =>
    [.out, .regs, .agentSeq, .tally, .keys, .seam, .links, .thm, .boot]
  | .thmOpen _ =>
    [.keys]
  | .thmHandover _ _ =>
    [.regs, .agentSeq, .tally, .keys, .thm, .boot]
  | .thmLc _ =>
    [.draws, .time, .pwr, .regs, .dev, .agentSeq, .fn0, .fn1, .slices, .tortin, .tally, .scorch, .keys, .seam, .hamper,
     .needle, .links, .press, .mangle, .rng, .dma, .thm, .boot, .lc]
  | .thimbleResponse =>
    [.out, .draws, .regs, .agentSeq, .slices, .tortin, .tally, .keys, .seam, .links, .mangle, .thm, .boot, .lc]
  | .thimbleRestart =>
    [.out, .regs, .agentSeq, .tortin, .tally, .keys, .seam, .hamper, .links, .press, .mangle, .thm]
  | .thimbleReady _ | .thimbleHang _ | .thimbleRestartTimeout =>
    [.out, .regs, .dev, .agentSeq, .tortin, .tally, .scorch, .keys, .seam, .hamper, .links, .press, .mangle, .thm]
  | .timeStep =>
    [.time, .regs, .agentSeq, .tally]
  | .portReset _ | .portLinkDown _ _ _ =>
    [.regs, .links]
  | .servoUpdate =>
    [.draws, .time, .regs, .agentSeq, .tally]
  | .ppsInEdge =>
    [.time, .regs, .agentSeq, .needle, .dma]
  | .ppsSourceTimeout | .ptpSyncTimeout | .wakeTimerExpiry =>
    [.draws, .time, .pwr, .regs, .agentSeq, .fn0, .fn1, .tally, .hamper, .needle, .links, .rng]
  | .ptpMessageReceived _ _ _ _ | .ptpMasterSync _ | .ptpAnnounce _ =>
    [.out, .draws, .time, .pwr, .regs, .agentSeq, .fn0, .fn1, .tally, .hamper, .needle, .links, .rng]
  | .ppsOutSecond | .ppsOutPulseEnd | .rtcCopy =>
    [.time]
  | .airingRefLoss _ =>
    [.regs, .agentSeq, .tally]
  | .warmEntry | .lintStartupTestEnd _ _ | .lintWindowEnd _ _ =>
    [.regs, .rng]
  | .warmExit =>
    [.pwr, .regs, .rng]
  | .airingEntry =>
    [.pwr, .regs, .hamper, .links]
  | .airingWake _ | .standbyWake _ | .heartbeatLoss _ =>
    [.draws, .pwr, .regs, .agentSeq, .fn0, .fn1, .tally, .hamper, .needle, .links, .rng]
  | .holdRingRelease =>
    [.out, .draws, .time, .pwr, .regs, .agentSeq, .fn0, .fn1, .tortin, .tally, .keys, .seam, .hamper, .needle, .links,
     .mangle, .rng, .dma, .thm]
  | .pressJobIssue _ =>
    [.slices, .press]
  | .pressJobDone _ _ =>
    [.out, .draws, .pwr, .regs, .agentSeq, .fn0, .fn1, .slices, .tortin, .tally, .keys, .seam, .hamper, .needle, .links,
     .press, .mangle, .rng, .dma, .thm]
  | .mangleOpDone _ _ =>
    [.out, .draws, .pwr, .regs, .agentSeq, .slices, .tortin, .tally, .keys, .seam, .hamper, .needle, .mangle, .rng, .thm]
  | .bobbinInstantiate =>
    [.pwr, .regs, .agentSeq, .tally, .seam, .rng]
  | .bobbinAutoReseed | .bobbinReseedRetry =>
    [.pwr, .regs, .seam, .rng]
  | .bobbinLimitReached | .bobbinKat _ | .bobbinKatRetry _ =>
    [.regs, .agentSeq, .tally, .rng]
  | .bobbinCallDone =>
    [.out, .pwr, .regs, .agentSeq, .slices, .tortin, .tally, .keys, .seam, .mangle, .rng]
  | .rngFifoRefill _ =>
    [.rng]
  | .ffpDataReceived _ _ _ | .ffpAckReceived _ _ _ | .ffpHeartbeatReceived _ _ _ | .ffpCardReportReceived _ _ _
  | .ffpRetransmitReqReceived _ _ _ =>
    [.out, .draws, .pwr, .regs, .agentSeq, .fn0, .fn1, .tortin, .tally, .keys, .seam, .hamper, .needle, .links, .mangle,
     .rng, .dma]
  | .enrolmentReportReceived _ _ _ =>
    [.draws, .pwr, .regs, .agentSeq, .fn0, .fn1, .tally, .hamper, .needle, .links, .rng, .thm]
  | .frameTransmitted _ =>
    [.out, .regs, .hamper, .links]
  | .receiveDelivery _ _ =>
    [.out, .regs, .agentSeq, .fn0, .fn1, .slices, .tortin, .tally, .seam, .hamper, .links]
  | .ackSendTimer _ | .gapRetransmitReq _ | .witnessReprobe =>
    [.out, .regs, .seam, .links]
  | .controlRetransmitTimer _ | .portIdleForcedEnd _ =>
    [.links]
  | .controlGiveUp _ | .staleFrameFree _ =>
    [.out, .regs, .agentSeq, .tortin, .tally, .seam, .hamper, .links]
  | .rekeyResend _ | .enrolOfferResend _ =>
    [.out, .regs, .links]
  | .adjacentEpochClear _ =>
    [.out, .seam, .links]
  | .portLinkUp _ _ =>
    [.draws, .regs, .hamper, .links]
  | .seamLinkTrained _ _ =>
    [.out, .pwr, .regs, .seam, .rng]
  | .seamHelloReceived _ _ | .seamFormReceived _ _ =>
    [.out, .draws, .pwr, .regs, .agentSeq, .tortin, .tally, .keys, .seam, .links, .mangle, .rng]
  | .seamHeartbeatSend _ =>
    [.out, .regs, .agentSeq, .slices, .tortin, .tally, .keys, .seam, .hamper, .links, .press, .mangle]
  | .seamHeartbeatReceived _ _ _ _ =>
    [.out, .draws, .time, .regs, .agentSeq, .slices, .tortin, .tally, .keys, .seam, .hamper, .needle, .links, .press,
     .mangle, .dma]
  | .seamJournalReceived _ _ =>
    [.out, .draws, .time, .regs, .agentSeq, .slices, .tortin, .tally, .keys, .seam, .hamper, .needle, .links, .press,
     .mangle, .dma, .boot]
  | .seamNakReceived _ _ =>
    [.out, .regs, .seam]
  | .seamUplinkReceived _ _ =>
    [.out, .draws, .regs, .agentSeq, .tortin, .tally, .keys, .seam, .hamper, .needle, .links, .mangle, .dma]
  | .seamResyncReceived _ _ =>
    [.out, .draws, .time, .regs, .agentSeq, .slices, .tortin, .tally, .scorch, .keys, .seam, .hamper, .needle, .links,
     .press, .mangle, .rng, .dma, .boot]
  | .seamFarewellReceived _ _ | .seamLinkLoss _ | .seamHeartbeatMiss _ | .witnessProbeTimeout =>
    [.out, .draws, .regs, .agentSeq, .slices, .tortin, .tally, .keys, .seam, .hamper, .needle, .links, .press, .mangle, .dma]
  | .checkpointTimer | .seamAckCoalesce | .resyncRequestRetry =>
    [.out, .seam]
  | .seamSessionRenew _ =>
    [.out, .pwr, .regs, .agentSeq, .tally, .seam, .rng]
  | .rejoinWaitTimeout | .soloStartTimeout =>
    [.out, .draws, .regs, .agentSeq, .tortin, .tally, .keys, .seam, .links, .mangle, .boot]
  | .takeInterrupt _ =>
    [.draws, .needle]
  | .coreTimerMatch _ =>
    [.needle]
  | .nop _ | .br _ | .rfi _ | .halt _ | .wait _ | .trap _ | .fence _ | .signal _ | .pand _ | .por _ | .pxor _ | .pnot _ | .pset _ =>
    [.out, .draws, .regs, .agentSeq, .tortin, .tally, .keys, .seam, .hamper, .needle, .press, .mangle, .dma]
  | .call _ | .lea _ | .str _ | .evtake _ | .prsWait _ | .prsPoll _ | .mglCollect _ | .mglPoll _ =>
    [.out, .draws, .regs, .agentSeq, .tortin, .tally, .keys, .seam, .hamper, .needle, .links, .press, .mangle, .dma]
  | .ret _ | .cmpeq _ | .cmpne _ | .cmplt _ | .cmple _ | .cmpltu _ | .cmpleu _ | .tstz _ | .tstnz _ | .ldr _ | .addr _ =>
    [.out, .draws, .pwr, .regs, .agentSeq, .tortin, .tally, .keys, .seam, .hamper, .needle, .press, .mangle, .rng, .dma]
  | .mov _ | .movsx _ | .movzx _ | .add _ | .sub _ | .adds _ | .subs _ | .neg _ | .abs _ | .mul _ | .mulhs _ | .mulhu _ | .mac _
  | .min _ | .max _ | .minu _ | .maxu _ | .and _ | .or _ | .xor _ | .not _ | .shl _ | .shr _ | .sar _ | .rol _ | .brev _ | .clz _
  | .popc _ | .mulq _ | .macq _ | .satq _ | .bmov _ | .bfill _ | .badds _ | .bmulq _ | .bmacq _ | .bdot _ | .bpeak _ =>
    [.out, .draws, .pwr, .regs, .agentSeq, .tortin, .tally, .keys, .seam, .hamper, .needle, .links, .press, .mangle, .rng,
     .dma]
  | .prsIssue _ | .mglIssue _ =>
    [.out, .draws, .pwr, .regs, .agentSeq, .tortin, .tally, .keys, .seam, .hamper, .needle, .press, .mangle, .rng, .dma,
     .boot]
  | .powerOnReset _ _ =>
    [.out, .time, .pwr, .regs, .dev, .agentSeq, .fn0, .fn1, .slices, .tortin, .tally, .scorch, .keys, .seam, .hamper,
     .needle, .links, .press, .mangle, .rng, .dma, .thm, .boot, .lc]
  | .startSequence =>
    [.out, .draws, .pwr, .regs, .dev, .agentSeq, .fn0, .fn1, .slices, .tortin, .tally, .scorch, .keys, .seam, .hamper,
     .needle, .links, .press, .mangle, .rng, .dma, .thm, .boot, .lc]
  | .measuredCopyDone =>
    [.boot]
  | .resetNStuck =>
    [.draws, .regs, .dev, .agentSeq, .tally, .scorch]
  | .resetNRearm =>
    [.regs, .dev]
  | .functionLevelReset _ | .hotReset _ | .dlDown _ | .pciePerst _ =>
    [.out, .regs, .agentSeq, .fn0, .fn1, .slices, .tortin, .tally, .keys, .seam, .hamper, .links, .press, .mangle, .rng,
     .dma]
  | .flashChipProbe _ _ =>
    [.regs, .agentSeq, .tally, .keys, .needle, .boot]
  | .pmicStatusPoll =>
    []
  | .memTestStart _ =>
    [.out, .tortin, .keys, .links, .thm, .lc]
  | .debugCertExpiry =>
    [.draws, .regs, .agentSeq, .tally, .lc]
  | .supplyDetectorAFire _ _ _ _ _ | .supplyDetectorDFire _ _ _ | .temperatureFire _ _ _ | .referenceFrequencyFire _ _ | .meshFire
  | .loopFire _ _ | .vaultIntegrityCheck _ =>
    [.out, .draws, .pwr, .regs, .dev, .agentSeq, .fn0, .fn1, .tortin, .tally, .scorch, .keys, .seam, .hamper, .needle,
     .links, .press, .mangle, .rng, .dma, .boot, .lc]
  | .tempWarn _ _ _ | .vbatLow _ | .supplyWarning _ _ =>
    [.regs, .agentSeq, .tally, .scorch]
  | .tempWarnClear _ _ _ =>
    [.regs, .scorch]
  | .vbatFire _ _ =>
    [.out, .draws, .time, .pwr, .regs, .dev, .agentSeq, .fn0, .fn1, .tortin, .tally, .scorch, .keys, .seam, .hamper, .needle,
     .links, .press, .mangle, .rng, .dma, .thm, .boot, .lc, .locked]
  | .supplyWarningEnd _ _ | .sourceConditionAbsent _ =>
    [.scorch]
  | .powerFail =>
    [.out, .draws, .pwr, .regs, .agentSeq, .fn0, .fn1, .tortin, .tally, .scorch, .keys, .seam, .hamper, .needle, .links,
     .press, .mangle, .rng]
  | .powerFailEnd =>
    [.out, .regs, .agentSeq, .tally, .scorch, .seam]
  | .vaultEntry _ _ =>
    [.time, .pwr, .regs, .dev, .fn0, .fn1, .slices, .tortin, .scorch, .keys, .seam, .hamper, .needle, .links, .press,
     .mangle, .rng, .dma, .thm, .boot, .locked]
  | .scorchLogMirror =>
    [.draws, .regs, .scorch]
  | .tallyAppend _ =>
    [.regs, .tally]
  | .tallySlotAbandon _ | .tallyFlushBegin | .tallyFlushRetry =>
    [.tally]
  | .pcieLinkUp _ _ _ _ =>
    [.dev, .fn0, .fn1]
  | .flashOperationDone _ _ _ =>
    [.out, .regs, .agentSeq, .tortin, .tally, .keys, .seam, .needle, .mangle, .boot]

/-- The row answers a next state, and `P` holds of it. -/
def Next (i : Instr) (s : State) (P : State → Prop) : Prop := ∃ t, exec i s = .next t ∧ P t

/-- The processors run, and place `tag` of the tracker holds the command `c`, which has started and carries the opcode `op`; where it has no
input, that is what its approval names (R22, R140). -/
def Started (s : State) (tag op : Nat) (c : Cmd) : Prop :=
  procRuns s = true ∧ cmdAt s tag = some c ∧ c.stage = .started ∧ c.due = false ∧ cOp c = op ∧ (cInLen c = 0 → inputApproved c [] = true)

/-- The command `c` reads the input `bs`, which is what its approval names, if it has one (R62, R140). -/
def Reads (s : State) (c : Cmd) (io : HostIO) (bs : List Byte) : Prop :=
  inputOf c (liveIO s c io) = some bs ∧ inputApproved c bs = true

/-- The host takes the output of the command `c` at once: the device is no primary, which holds outputs back, and no silent
member, and the function is live (R80, R313). -/
def Delivers (s : State) (c : Cmd) (io : HostIO) : Prop :=
  hostSilent s = false ∧ s.seam.role ≠ .primary ∧ c.mirror = false ∧ fnLive s (cFn s c) = true ∧ io.outOk = true

/-- From `s` to `t` the command `c` has ended after its start, with this completion, which waits to be written (R64, R67). -/
def Ended (s t : State) (tag : Nat) (c : Cmd) (status : Nat) (len : Nat := 0) (extra : BitVec 64 := 0) : Prop :=
  ∃ d, cmdAt t tag = some d ∧ d.stage = .ended ∧ d.body = c.body ∧ d.freeTok = false ∧
    d.comp = { status := status, dup := false, len := len, stamp := nowStamp s, extra := extra }

/-- The command at `tag` waits for Thimble's answer, at step 1 of its work. -/
def Waits (t : State) (tag : Nat) (c : Cmd) : Prop :=
  ∃ d, cmdAt t tag = some d ∧ d.stage = .started ∧ d.body = c.body ∧ d.work.step = 1
/-- The canonical form of the tables that the statements read single entries of: buffer memory, the register file and the table of
the cores. -/
def Canonical (s : State) : Prop :=
  memWf s.hamper.data = true ∧ tblSorted s.regs.file = true ∧ tblSorted s.needle.cores = true

/-- A row that reports: once its command has started and where `ok` holds, it writes `bs` and ends with `OK`; a primary keeps the output
back (R313); where the function is not live or the host does not take the output, it writes nothing and ends with `HOST_FAULT` (R80). -/
def Reports (i : Instr) (tag op : Nat) (io : HostIO) (ok : State → Cmd → Prop) (bs : State → Cmd → List Byte)
    (extra : State → Cmd → BitVec 64 := fun _ _ => 0) : Prop :=
  ∀ (s : State) (c : Cmd), Started s tag op c → ok s c →
    (Delivers s c io → Next i s (fun t => Ended s t tag c stOk (bs s c).length (extra s c) ∧
      t.out = (putOutput s c (bs s c)).out)) ∧
    (s.seam.role = .primary → c.mirror = false → fnLive s (cFn s c) = true → io.outOk = true → Next i s (fun t =>
      Ended s t tag c stOk (bs s c).length (extra s c) ∧ (cmdAt t tag).map (·.out) = some (bs s c) ∧ t.out = s.out)) ∧
    (bs s c ≠ [] → c.mirror = false → shortOut c = false → hostSilent s = false →
      fnLive s (cFn s c) = false ∨ io.outOk = false → Next i s (fun t => Ended s t tag c stHostFault ∧ t.out = s.out))

/-- The pending approvals that `APPROVAL.LIST` lists from byte 52: those of the issuing owner, under a lock only the ones that a locked
device may use. -/
def approvalsListed (s : State) (c : Cmd) : Tbl PendEntry :=
  s.keys.pend.filter (fun e => decide (par c 52 2 ≤ e.1) && e.2.owner == cOwner s c &&
    (!s.scorch.locked || lockTarget e.2.owner e.2.kind e.2.body))

/-- The key objects that `KEY.LIST` lists from byte 52: those of the issuing owner. -/
def keysListed (s : State) (c : Cmd) : Tbl KeyObj :=
  s.keys.objs.filter (fun e => decide (max slotFirst (par c 52 2) ≤ e.1) && e.2.owner == cOwner s c)

/-- Every slice but `n` stands as before. -/
def OtherSlices (s t : State) (n : Nat) : Prop := ∀ m, m ≠ n → sliceGet t m = sliceGet s m

/-- A row of a command with input that has ended with `OK`: the hypotheses are that the command has started and reads `bs`. -/
def NextIn (i : Instr) (s : State) (tag op : Nat) (c : Cmd) (io : HostIO) (bs : List Byte) (P : State → Prop) : Prop :=
  Started s tag op c → Reads s c io bs → Next i s P

/-- From `s` to `t` the command `c` has posted a request to Thimble with this operation, these numbers, handles and data, and waits for
the answer (R397). -/
def Asks (s t : State) (tag : Nat) (c : Cmd) (op : Nat) (nums : List Nat := []) (a b : Nat := 0) (data : List Byte := []) : Prop :=
  Waits t tag c ∧ t.thm.nextTag = s.thm.nextTag + 1 ∧
  t.thm.reqs = s.thm.reqs ++ [{ op := op, tag := s.thm.nextTag, a := a, b := b, nums := nums, data := data, alarm := cAlarm c
                                cmd := some tag, taken := s.time.clk }]

/-- From `s` to `t` Thimble has answered the request `r` (R397). -/
def Answered (s t : State) (r : ThmReq) (status : Nat) (a : Nat := 0) (nums : List Nat := []) : Prop :=
  t.thm.reqs = s.thm.reqs.filter (fun x => x.tag != r.tag) ∧
  t.thm.answers = s.thm.answers ++ [{ op := r.op, tag := r.tag, status := status, a := a, nums := nums, cmd := r.cmd }]

/-- Thimble is READY and serves `r`, a request of operation `op`, next; the journal area has room for its change (R110). -/
def Serves (s : State) (op : Nat) (r : ThmReq) : Prop := thmNext s = some r ∧ r.op = op ∧ reqRoom s r = true

/-- The flash takes a record: a chip that takes writes programs and verifies it (R107). -/
def flashTakes (s : State) (ok0 ok1 : Bool) : Bool := (chipUp s.boot.chip0 && ok0) || (chipUp s.boot.chip1 && ok1)

/-- From `s` to `t` the object `o` stands in a slot and the request is answered with its handle; where `o` is persistent and no chip takes
its record, nothing is stored and the answer is `JOURNAL_FAULT` (R107). A follower keeps the object that the primary has sent (R111). -/
def Stored (s t : State) (r : ThmReq) (ok0 ok1 : Bool) (slot : Nat) (o : KeyObj) : Prop :=
  if s.seam.role = .follower ∧ (tblFind slot s.keys.objs).isSome then t.keys = s.keys ∧ Answered s t r stOk (keyHandle slot o)
  else if bitN o.attrs kPersist && !flashTakes s ok0 ok1 then
    tblFind slot t.keys.objs = tblFind slot s.keys.objs ∧ Answered s t r 0x0406
  else tblFind slot t.keys.objs = some o ∧ Answered s t r stOk (keyHandle slot o)

/-- Every key slot but one stands as before. -/
def OtherKeys (s t : State) (slot : Nat) : Prop := ∀ n, n ≠ slot → tblFind n t.keys.objs = tblFind n s.keys.objs

/-- Every owner but `n` stands as before. -/
def OtherOwners (s t : State) (n : Nat) : Prop := ∀ m, m ≠ n → tblFind m t.keys.owners = tblFind m s.keys.owners

/-- Every pending approval but one stands as before. -/
def OtherPending (s t : State) (n : Nat) : Prop := ∀ m, m ≠ n → tblFind m t.keys.pend = tblFind m s.keys.pend

/-- The jobs of a pipeline that may be issued: their input is there, and they do not run. -/
def pressWaiting (s : State) (p : Nat) : List PressJob := (pipeJobs s p).filter (fun j => j.ready && !j.running)

/-- The input of the started command at `tag` arrives (R80): its job may be issued; a failed read ends it with `HOST_FAULT` and takes its
job from the list. -/
def PressInput (i : Instr) (tag op : Nat) (io : HostIO) : Prop :=
  ∀ (s : State) (c : Cmd), Started s tag op c →
    (∀ bs, c.work.step = 0 → Reads s c io bs → Next i s (fun t =>
      (∃ d, cmdAt t tag = some d ∧ d.stage = .started ∧ d.body = c.body ∧ d.work.step = 1 ∧ d.work.bytes = c.work.bytes ++ bs) ∧
      (∀ p, pipeJobs t p = (pipeJobs s p).map (fun j => if j.src = .cmd tag 0 then { j with ready := true } else j)) ∧
      t.press.ctxs = s.press.ctxs)) ∧
    (inputOf c (liveIO s c io) = none → Next i s (fun t => Ended s t tag c stHostFault ∧
      (∀ p j, j ∈ pipeJobs t p → j.src ≠ .cmd tag 0)))

/-- What a one-shot command of Press writes, and its status: the prefix that it drew under `GEN_IV`, and the text, tag or digest. -/
def symAnswer (s : State) (c : Cmd) : List Byte × Nat :=
  let p := symPar c
  let body := c.work.bytes.drop (p.plen + p.aadLen)
  let n := body.length - symTagIn (cOp c) p
  let r := symRun p (keyBits s (cKeyA c)).2 (keyBits s (cKeyA c)).1 (keyBits s (cKeyB c)).1 (bytesAt c.work.bytes 0 p.plen)
    (bytesAt c.work.bytes p.plen p.aadLen) (bytesAt body 0 n) (body.drop n)
  ((if pGenIv p then bytesAt c.work.bytes 0 p.plen else []) ++ r.1, r.2)

/-- The running job of a pipeline with this number is that of the started command at `tag`, whose host takes outputs; no frame waits for Press. -/
def PressEnds (s : State) (pipe job tag op : Nat) (c : Cmd) : Prop :=
  Started s tag op c ∧ c.work.nums = [1] ∧ Delivers s c {} ∧ s.links.waits = [] ∧
  ∃ j, (pipeJobs s pipe).find? (fun j => j.order == job && j.running) = some j ∧ j.src = .cmd tag 0

/-- The input of the started command at `tag` arrives (R80): its operations can run; a failed read ends it with `HOST_FAULT` and frees its
places. -/
def MangleInput (i : Instr) (tag op : Nat) (io : HostIO) : Prop :=
  ∀ (s : State) (c : Cmd), Started s tag op c →
    (∀ bs, c.work.nums = [] → Reads s c io bs → Next i s (fun t =>
      ∃ d, cmdAt t tag = some d ∧ d.stage = .started ∧ d.body = c.body ∧ d.work.bytes = c.work.bytes ++ bs ∧
        ∀ o h, o ∈ mangleAll t → o.src = .cmd tag h → o.ready = true)) ∧
    (inputOf c (liveIO s c io) = none → Next i s (fun t => Ended s t tag c stHostFault ∧ mangleHas t tag = false))

/-- From `s` to `t` the started command `c` only lets Mangle go on with its operations. -/
def LetsMangle (t : State) (tag : Nat) (c : Cmd) : Prop :=
  (∃ d, cmdAt t tag = some d ∧ d.stage = .started ∧ d.work = c.work) ∧ ∀ o h, o ∈ mangleAll t → o.src = .cmd tag h → o.ready = true

/-- While Mangle still holds an operation of the command, the row of its input lets that go on and does no more (R179, R184). -/
def MangleFirst (i : Instr) (s : State) (tag op : Nat) (c : Cmd) (io : HostIO) : Prop :=
  mangleHas s tag = true → ∀ bs, NextIn i s tag op c io bs (fun t => LetsMangle t tag c)

/-- The operation `o` that executes in a unit is the last one of the started command at `tag`, its half `half`; the command's host takes outputs,
and no half has found a mismatch. -/
def MangleEnds (s : State) (unit tag half op : Nat) (c : Cmd) (o : MangleOp) : Prop :=
  Started s tag op c ∧ c.work.nums.headD 0 = 1 ∧ c.work.nums.getD 1 0 = 0 ∧ c.work.step = 0 ∧ Delivers s c {} ∧ thmRoom s = true ∧
  unitRuns s unit = some o ∧ o.src = .cmd tag half ∧
  mangleHas (unitPut s unit ((unitOps s unit).filter (fun x => x.order != o.order))) tag = false

/-- The signature of a started `PK.SIGN` once the half `half` has run under the private key in the unit's bank and the random values that the operation
drew, behind what the other half gave, with the attempts and the repetitions that both took (R183, R189, R202). -/
def pkSignature (s : State) (unit half : Nat) (o : MangleOp) (c : Cmd) : List Byte × Nat × Nat :=
  let p := pkPar c
  let d := c.work.bytes
  let a := signHalf p half (sideType s (if half = 0 then cKeyA c else cKeyB c) 0 0) (bankGet s unit (o.keys.headD 0))
    o.rnd (bytesAt d 0 p.ctx) (d.drop p.ctx)
  ((tblPut half a.1 c.work.parts).flatMap (·.2), c.work.nums.getD 2 0 + a.2.1, c.work.nums.getD 3 0 + a.2.2)

/-- What the verification of a started `PK.VERIFY` finds. -/
def pkVerdict (s : State) (c : Cmd) : Nat :=
  verifyInput s (pkPar c) (cKeyA c) (par c 60 1) (par c 58 2) (cKeyB c) (par c 61 1) c.work.bytes

/-- The general cache of Press takes one more key without replacing one (R161). -/
def PressKeyRoom (s : State) : Prop :=
  s.keys.pressKeys.length < 1024 ∧ entLines s.keys.pressKeys < 1024 ∧
  (s.keys.pressKeys.filter entCont).length < 512 ∧ entLines (s.keys.pressKeys.filter entCont) < 512

/-- From `s` to `t` the command `c` has given a secret to Thimble and waits for the handle of its object (R184). -/
def Gives (s t : State) (tag : Nat) (c : Cmd) (secret : List Byte) (op : Nat := 8) : Prop :=
  Waits t tag c ∧ ∃ r, t.thm.reqs = s.thm.reqs ++ [r] ∧ r.op = op ∧ r.cmd = some tag ∧ r.secret = secret

/-- What the health tests find in the raw bits of a window of source `n` outside the test modes: the place of the first failure (R210). -/
def windowFails (s : State) (n : Nat) (raw : List Byte) : Option Nat :=
  (healthScan ((rawBits raw).headD false) (rawBits raw) 0 (lintGet s n).runBit (lintGet s n).runLen 0).1

/-- In `t` Bobbin counts its calls anew; a device that stands alone and lacks its formation key pair draws it at once, in two calls (R214). -/
def CallsAnew (s t : State) : Prop :=
  t.rng.calls ≤ 2 ∧ (s.seam.role ≠ .alone ∨ s.seam.key ≠ [] ∨ s.seam.formXs ≠ [] → t.rng.calls = 0)

/-- From `s` to `t` Bobbin is reseeded with the oldest 384 bits of the pool (R215, R217). -/
def Reseeded (s t : State) : Prop :=
  t.rng.reseeds = s.rng.reseeds + 1 ∧ CallsAnew s t ∧ t.rng.pool = s.rng.pool.drop 384 ∧ t.rng.at_ = nowStamp s ∧
  t.rng.late = none ∧ t.rng.limit = false ∧ bitOf (regGet t aRngEvt) 1 = true

/-- A reseed is due: 2^20 calls, or 100 ms of Stamp time since the last (R217). -/
def reseedDue (s : State) : Bool := decide (2 ^ 20 ≤ s.rng.calls ∨ 2 ^ 32 ≤ 10 * ((nowStamp s).toNat - s.rng.at_.toNat))

/-- Every queue but one stands as before. -/
def OtherQueues (s t : State) (q : Nat) : Prop := ∀ r, r ≠ q → queueGet t r = queueGet s r

/-- A frame of type `kind`, with the header `h`, arrives at a port that is up and off its hold ring, while no other waits for Press, and passes the
checks 1 to 4 of R276 for the queue `q` alone. -/
def FrameFor (s : State) (p : Nat) (f : List Byte) (kind q : Nat) (x : Queue) (h : FfpHdr) : Prop :=
  portUp s p = true ∧ (portGet s p).hold = false ∧ s.links.waits = [] ∧ rxWhole s p f true = none ∧
  (∃ src body, rxEncap s p f = .ffp src body ∧ h = ffpRead src body (f.length + 4)) ∧
  ffpHdrOk s p h = true ∧ h.queue ≠ 0xFFFF ∧ h.kind = kind ∧ classify s p h = [q] ∧ queueGet s q = some x

/-- The frame passes the checks 5 to 9 as well: the queue takes its type, its epoch is the present one with the key register `k`, its
counter is new, and its payload authenticates. -/
def FrameOpens (x : Queue) (h : FfpHdr) (k : KeyReg) (pl : List Byte) : Prop :=
  x.held = false ∧ queueTakes x h.kind = true ∧ keyReg x h.epoch = some (false, k) ∧
  replayNew k.win (ffHbClass h.kind) (ffSeq h) = true ∧ gcmOpen k.key (ffpNonce h.queue h.epoch h.ctr) h.raw h.body h.tag = some pl

/-- The key register after an accepted frame: its window holds the frame's counter. -/
def regMarked (k : KeyReg) (h : FfpHdr) : KeyReg := { k with win := replayMark k.win (ffHbClass h.kind) (ffSeq h) }

/-- The rows that receive a frame of an FFP type. -/
def receiveRow : Nat → Nat → List Byte → Bool → Instr
  | 1, p, f, ok => .ffpDataReceived p f ok
  | 2, p, f, ok => .ffpAckReceived p f ok
  | 3, p, f, ok => .ffpHeartbeatReceived p f ok
  | 5, p, f, ok => .ffpCardReportReceived p f ok
  | _, p, f, ok => .ffpRetransmitReqReceived p f ok

/-- The FFP types that have a row of their own. -/
def receiveKinds : List Nat := [1, 2, 3, 5, 6]

/-- A packet that passes on link `l` from member `m` (R309). -/
def From (s : State) (l m : Nat) (p : SeamPacket) : Prop :=
  seamPass s l p = true ∧ l < 4 ∧ l < s.seam.links.length ∧ (seamLink s l).peer = m ∧ m < s.seam.peers.length

/-- The rows that take a sealed packet. -/
def PacketRow (i : Instr) (l : Nat) (p : SeamPacket) : Prop :=
  (∃ arr asym, i = .seamHeartbeatReceived l p arr asym) ∨ i = .seamJournalReceived l p ∨ i = .seamAckReceived l p ∨
  i = .seamNakReceived l p ∨ i = .seamUplinkReceived l p ∨ i = .seamResyncReceived l p ∨ i = .seamFarewellReceived l p

/-- Bobbin's next `n` bytes. -/
def drawn (s : State) (n : Nat) : List Byte := (draw s n).1

/-- The command at `tag` has ended with `st` and without effect; its token will be free (R67). -/
def EndedBefore (t : State) (tag st : Nat) : Prop :=
  ∃ d, cmdAt t tag = some d ∧ d.stage = .ended ∧ d.freeTok = true ∧ d.comp.status = st

/-- An append repeats the newest valid record `x`, and folds into it (R529). -/
def foldsInto (s : State) (x : TallySlot) (a : TallyApp) : Prop :=
  x.rcd.app.code = a.code ∧ x.rcd.app.sev = a.sev ∧ x.rcd.app.agent = a.agent ∧ x.rcd.member = s.seam.index ∧ x.rcd.app.body = a.body

/-- From `s` to `t` a wake has begun for a cause, which is noted: `EXITING` is set, and the state is still what it was (R45, Table 2-6). -/
def WokeFor (s t : State) (cause : Nat) : Prop :=
  pwrMode t = pwrMode s ∧ bitOf (regGet t aPwrState) 4 = true ∧ t.pwr.leaving = some s.time.clk ∧
  regField t aPwrState 15 8 = cause ∧ bitOf (regGet t aPwrWakeSrc) cause = true

/-- From `s` to `t` the endpoint has kept an access of the host, which the device has not yet made (R45). -/
def HeldIn (s t : State) (q : HostReq) : Prop :=
  (∃ at_, t.pwr.held = s.pwr.held ++ [{ req := q, at_ := at_ }]) ∧ t.out = s.out ∧ t.slices = s.slices ∧ t.tortin = s.tortin ∧ t.lc = s.lc

/-- The operation port `p` shows this status and buffer (Table 9-5). -/
def OpGave (t : State) (p status b : Nat) : Prop := tblGet 0 t.hamper.opRes p = BitVec.ofNat 32 (2 ^ 28 * status + b % 2 ^ 18)

/-- Every buffer's metadata stand as before. -/
def SameBufs (s t : State) : Prop := ∀ x, bufGet t x = bufGet s x

/-- The rows of the Needle cores, with the operation that each executes (Table 13-9). -/
inductive GulosRow (n : Nat) : Instr → GOp → Prop where
  | nop : GulosRow n (.nop n) .nop
  | br : GulosRow n (.br n) .br
  | call : GulosRow n (.call n) .call
  | ret : GulosRow n (.ret n) .ret
  | rfi : GulosRow n (.rfi n) .rfi
  | halt : GulosRow n (.halt n) .halt
  | wait : GulosRow n (.wait n) .wait
  | trap : GulosRow n (.trap n) .trap
  | fence : GulosRow n (.fence n) .fence
  | signal : GulosRow n (.signal n) .signal
  | mov : GulosRow n (.mov n) .mov
  | movsx : GulosRow n (.movsx n) .movsx
  | movzx : GulosRow n (.movzx n) .movzx
  | lea : GulosRow n (.lea n) .lea
  | add : GulosRow n (.add n) .add
  | sub : GulosRow n (.sub n) .sub
  | adds : GulosRow n (.adds n) .adds
  | subs : GulosRow n (.subs n) .subs
  | neg : GulosRow n (.neg n) .neg
  | abs : GulosRow n (.abs n) .abs
  | mul : GulosRow n (.mul n) .mul
  | mulhs : GulosRow n (.mulhs n) .mulhs
  | mulhu : GulosRow n (.mulhu n) .mulhu
  | mac : GulosRow n (.mac n) .mac
  | min : GulosRow n (.min n) .min
  | max : GulosRow n (.max n) .max
  | minu : GulosRow n (.minu n) .minu
  | maxu : GulosRow n (.maxu n) .maxu
  | and : GulosRow n (.and n) .and
  | or : GulosRow n (.or n) .or
  | xor : GulosRow n (.xor n) .xor
  | not : GulosRow n (.not n) .not
  | shl : GulosRow n (.shl n) .shl
  | shr : GulosRow n (.shr n) .shr
  | sar : GulosRow n (.sar n) .sar
  | rol : GulosRow n (.rol n) .rol
  | brev : GulosRow n (.brev n) .brev
  | clz : GulosRow n (.clz n) .clz
  | popc : GulosRow n (.popc n) .popc
  | cmpeq : GulosRow n (.cmpeq n) .cmpeq
  | cmpne : GulosRow n (.cmpne n) .cmpne
  | cmplt : GulosRow n (.cmplt n) .cmplt
  | cmple : GulosRow n (.cmple n) .cmple
  | cmpltu : GulosRow n (.cmpltu n) .cmpltu
  | cmpleu : GulosRow n (.cmpleu n) .cmpleu
  | tstz : GulosRow n (.tstz n) .tstz
  | tstnz : GulosRow n (.tstnz n) .tstnz
  | pand : GulosRow n (.pand n) .pand
  | por : GulosRow n (.por n) .por
  | pxor : GulosRow n (.pxor n) .pxor
  | pnot : GulosRow n (.pnot n) .pnot
  | pset : GulosRow n (.pset n) .pset
  | mulq : GulosRow n (.mulq n) .mulq
  | macq : GulosRow n (.macq n) .macq
  | satq : GulosRow n (.satq n) .satq
  | ldr : GulosRow n (.ldr n) .ldr
  | str : GulosRow n (.str n) .str
  | addr : GulosRow n (.addr n) .addr
  | evtake : GulosRow n (.evtake n) .evtake
  | bmov : GulosRow n (.bmov n) .bmov
  | bfill : GulosRow n (.bfill n) .bfill
  | badds : GulosRow n (.badds n) .badds
  | bmulq : GulosRow n (.bmulq n) .bmulq
  | bmacq : GulosRow n (.bmacq n) .bmacq
  | bdot : GulosRow n (.bdot n) .bdot
  | bpeak : GulosRow n (.bpeak n) .bpeak
  | prsIssue : GulosRow n (.prsIssue n) .prsIssue
  | prsWait : GulosRow n (.prsWait n) .prsWait
  | prsPoll : GulosRow n (.prsPoll n) .prsPoll
  | mglIssue : GulosRow n (.mglIssue n) .mglIssue
  | mglCollect : GulosRow n (.mglCollect n) .mglCollect
  | mglPoll : GulosRow n (.mglPoll n) .mglPoll

/-- Core `n` comes to the instruction `i` of operation `g`: it runs, no interrupt is to be taken first, and `i` stands at its program
counter. -/
def ComesTo (s : State) (n : Nat) (g : GOp) (i : GInstr) : Prop :=
  coreRuns s n = true ∧ intReady s n = false ∧ coreFetch s n = .instr i ∧ i.op = g

/-- Core `n` executes `i`: its guard holds, its words are legal, and no delay slot holds it that may not (R365, R366, R371). -/
def Executes (s : State) (n : Nat) (g : GOp) (i : GInstr) : Prop :=
  ComesTo s n g i ∧ guardHolds (coreGet s n).preds i = true ∧ i.legal = true ∧
  (slotBad i = true → (coreGet s n).slots = 0)

/-- The operands of `i` are `os`, every access to them is allowed, and reading them gives the values `vs` and the state `v`, whose address
registers are updated (R367). -/
def Operates (s : State) (n : Nat) (i : GInstr) (os : List Opnd) (vs : List Nat) (v : State) : Prop :=
  (eaOperands (coreGet s n) (coreGet s n).pc i ((rolesOf i.op).zip i.specs)).1 = os ∧
  os.any (fun o => o.ea == .modulo) = false ∧ opndsFail s n os = none ∧
  opndsRead (corePut s n (eaOperands (coreGet s n) (coreGet s n).pc i ((rolesOf i.op).zip i.specs)).2) n os = (vs, v)

/-- The row `r` completes `i` on core `n` with the effect `w`: the instruction counts, and execution goes on after it, or behind the last
slot at the branch's target; the JTAG port's single step is then done. -/
def Completes (r : Instr) (s : State) (n : Nat) (i : GInstr) (w : State) : Prop :=
  Next r s (fun t => t = stepDone s (coreAdvance w n i.len) n)

/-- The row `r` raises an exception at core `n`. -/
def Raises (r : Instr) (s : State) (n cause : Nat) (a : Option Nat) (w : State) : Prop :=
  Next r s (fun t => t = stepDone s (coreExc w n cause a) n)

/-- The core `n` of a state with other flags. -/
def withFlags (v : State) (n : Nat) (f : Word) : State := corePut v n { coreGet v n with flags := f }

/-- The operations whose result and flags `aluOp` gives from two sources or one. -/
def aluOps : List GOp :=
  [.mov, .add, .sub, .adds, .subs, .neg, .abs, .mul, .mulhs, .mulhu, .min, .max, .minu, .maxu, .and, .or, .xor, .not, .shl, .shr, .sar,
   .rol, .brev, .clz, .popc, .mulq]

/-- The compares. -/
def cmpOps : List GOp := [.cmpeq, .cmpne, .cmplt, .cmple, .cmpltu, .cmpleu, .tstz, .tstnz]

/-- The predicate operations. -/
def predOps : List GOp := [.pand, .por, .pxor, .pnot, .pset]

/-- The block operations that write one element of the instruction's size from two sources or one, with no accumulator. -/
def plainBlockOps : List GOp := [.bmov, .bfill, .badds, .bmulq]

/-- The largest and the smallest signed number of `b` bits bound an exact value. -/
def clampTo (b : Nat) (v : Int) : Int := max (-(2 ^ (b - 1) : Nat)) (min ((2 ^ (b - 1) : Nat) - 1) v)

/-- The operand is an immediate, only an address, or lies in the core's own memories, which reading and writing touch without further effect. -/
def ownMemory (s : State) (n : Nat) (o : Opnd) : Prop :=
  match o.ea with
  | .addr a => o.role = .ea ∨ (∃ x, corePlace s n a o.size .read = .work x) ∨ (o.role = .src ∧ ∃ x, corePlace s n a o.size .read = .instr x)
  | _ => True

/-- Execution of core `n` stands at `pc`, with so many delay slots to execute and the target behind them (R370). -/
def StandsAt (t : State) (n pc slots : Nat) (target : Option Nat) : Prop :=
  (coreGet t n).pc = pc ∧ (coreGet t n).slots = slots ∧ (coreGet t n).target = target

/-- From `s` to `t` at most the core `n` changes. -/
def OnlyCore (s t : State) (n : Nat) : Prop :=
  t = { s with needle := { s.needle with cores := t.needle.cores } } ∧ ∀ m, m ≠ n → coreGet t m = coreGet s m

/-- From `s` to `t` at most the core `n` changes, and a primary has journalled its new state (R391). -/
def CoreNoted (s t : State) (n : Nat) : Prop := ∃ u, OnlyCore s u n ∧ t = coreNote u n

/-- From `s` to `t` the core `n` has entered its handler at an offset of `IVEC` (R379): what it executed before is saved, `IE` clears and
`EXC` sets. -/
def Entered (s t : State) (n ecause off : Nat) : Prop :=
  let k := coreGet s n
  StandsAt t n (k.ivec + off) 0 none ∧ (coreGet t n).epc = k.pc ∧ (coreGet t n).ecause = BitVec.ofNat 32 ecause ∧
  (coreGet t n).eflags = k.flags ∧ (coreGet t n).epred = k.preds ∧
  (coreGet t n).flags.getLsbD 16 = false ∧ (coreGet t n).flags.getLsbD 17 = true ∧
  (∀ a, k.slots ≠ 0 → k.target = some a → (coreGet t n).etgt = a) ∧
  (coreGet t n).mode = k.mode ∧ (coreGet t n).a = k.a ∧ (coreGet t n).work = k.work ∧ (coreGet t n).cnt = k.cnt ∧
  (coreGet t n).commits = k.commits

/-- What the checks of a `PROG.LOAD` find in its input: the signature, then the image (R387). -/
def progVerdict (s : State) (c : Cmd) (b : List Byte) : Nat :=
  let hs := progSigners c
  let ls := progSigLens s c
  let n := b.length - (ls.foldl (· + ·) 0)
  let h (i : Nat) : Nat := (hs.getD i (0, [])).1
  let r := verifyJob (progPar c) (sideType s (h 0) 0 0) (sideType s (h 1) 0 0) (verifyKey s (h 0) 0 0 []) (verifyKey s (h 1) 0 0 [])
    (bytesAt b n (ls.getD 0 0)) (bytesAt b (n + ls.getD 0 0) (ls.getD 1 0)) [] (bytesAt b 0 n)
  if b.length < ls.foldl (· + ·) 0 then 0x0601
  else if r ≠ 0 then verifyStatus r
  else if imgOk b (ls.foldl (· + ·) 0) then stOk else 0x0E02

/-- Every core but one stands as before. -/
def OtherCores (s t : State) (n : Nat) : Prop := ∀ m, m ≠ n → coreGet t m = coreGet s m

/-- The command at `tag` has read its input, which its flash operation writes next (R107). -/
def Writing (s : State) (tag op : Nat) (c : Cmd) : Prop :=
  flashTag s op = some (tag, c) ∧ Started s tag op c ∧ c.work.step = 1

/-- The status of a package as a chip holds it (R444 to R446). -/
def copyCheck (s : State) (k chip : Nat) : Nat :=
  if chipUp (chipMode s chip) then fpCheck s (fwCopy s k chip) (imgDigest (fpThm (fwCopy s k chip))) (imgDigest (fpTor (fwCopy s k chip)))
  else stOk

/-- The package of a slot verifies on every chip that serves, and one serves. -/
def packageVerifies (s : State) (k : Nat) : Bool :=
  (chipUp s.boot.chip0 || chipUp s.boot.chip1) && copyCheck s k 0 == stOk && copyCheck s k 1 == stOk

/-- From `s` to `t` the source `src` has fired: the device is locked, by the first source that fired since it was not; the event is
recorded; a source of intrusion class Rinses first, and source 0x30 erases the roots (R488, R498, R499, R503). -/
def Fired (s t : State) (src : Nat) : Prop :=
  t.scorch.locked = true ∧ bitN t.scorch.present src = true ∧ t.scorch.lastSrc = src ∧ t.scorch.disabled = s.scorch.disabled ∧
  (s.scorch.locked = false → t.scorch.lockSrc = src ∧ t.scorch.lockCount = 1 ∧
    t.scorch.lockStamp = (if s.pwr.vault then 0 else capStamp s)) ∧
  (s.scorch.locked = true → t.scorch.lockSrc = s.scorch.lockSrc ∧ t.scorch.lockStamp = s.scorch.lockStamp ∧
    t.scorch.lockCount = min 255 (s.scorch.lockCount + 1)) ∧
  t.scorch.logSeq = s.scorch.logSeq + (if srcIntrusion src then 2 else 1) ∧
  (srcIntrusion src = false → src ≠ 0x30 → t.keys.roots = s.keys.roots ∧ t.keys.objs = s.keys.objs ∧ t.scorch.stRinse = s.scorch.stRinse) ∧
  (srcIntrusion src = true → t.keys.roots = [] ∧ t.scorch.rootsLost = true ∧ t.scorch.stRinse = true ∧ t.seam.key = [] ∧
    (s.pwr.vault = false → t.keys.objs = [] ∧ t.keys.osks = [] ∧ t.links.queues = [] ∧ t.press.pipes = [] ∧ t.press.ctxs = [] ∧
      t.needle.progs = [] ∧ t.lc.cert = none ∧ t.seam.role = .alone)) ∧
  (src = 0x30 → s.pwr.vault = false → t.keys.roots = [] ∧ t.scorch.rootsLost = true)

/-- The source can fire: it is not fused off, and its condition was absent (R488, R509). -/
def mayFire (s : State) (src : Nat) : Prop := bitN s.scorch.disabled src = false ∧ bitN s.scorch.present src = false

/-- The row fires the source where it can, and otherwise changes nothing. -/
def FiresOrNot (i : Instr) (s : State) (src : Nat) : Prop :=
  (mayFire s src → Next i s (fun t => Fired s t src)) ∧
  (¬ mayFire s src → Next i s (fun t => t.scorch = s.scorch ∧ t.keys = s.keys ∧ t.links = s.links))

/-- The page of slice `n` takes an accepted write through its function `fn`: the device is awake, the slice is active, no transition runs, and the write carries
no PASID or the slice's own (R336, R345, R475). -/
def PageTakes (s : State) (n fn : Nat) (pasid : Option Nat) : Prop :=
  s.pwr.vault = false ∧ pwrMode s ≤ 1 ∧ portThere s fn = true ∧ (sliceGet s n).mode = .active ∧ (sliceGet s n).port = fn ∧ s.lc.trans = none ∧
  (pasid = none ∨ pasid = some (sliceGet s n).pasid)

/-- A write of the host's function `p` arrives at the device, which wakes for it, and no life-cycle transition runs (R45, R475). -/
def HostWrites (s s0 : State) (p a : Nat) : Prop := hostArrives s (.fn p) a true = some s0 ∧ s0.lc.trans = none

/-- The device can raise MSI-X vector `vec` of function `p` now (R77, R564). -/
def canRaise (s : State) (p vec : Nat) : Prop :=
  hostSilent s = false ∧ fnLive s p = true ∧ (fnGet s p).msixEn = true ∧ (fnGet s p).fnMask = false ∧
  tblGet false (fnGet s p).unmasked vec = true

end Sys2Proof.Machine
end

