-- ==== Sys2Proof/Certificates/Slice0/Obligations.lean ====
section
/-! DEFINITION. What is claimed of the model, for the provers: one proposition for each claim that `OBLIGATIONS.json` lists. The words
that they share (`Next`, `Started`, `Ended`, `Asks`, `Completes` and the like) are in `Safety.lean`. -/

open Sys2Proof Sys2Proof.Machine

/-! ### The step, the frame and the invariants -/

/-- A step takes the command at the front of the queue and runs `exec` of it on the state with the queue's rest. -/
def Obligations.StepRunsTheFrontCommand : Prop :=
  ∀ (c : Instr) (rest : List Instr) (s : State), s.pending = c :: rest → step s = exec c { s with pending := rest }

/-- On an empty queue a step is one Airing cycle of 4 ns (log entry 2): while the device neither enters nor leaves AIRING or STANDBY and no journal
entry waits to leave, the accumulator takes the increment register, 0 in VAULT; only the clocks, the registers, the Tally with its agents' counts, in
which the end of a correction and an ECC error are recorded, the taint of a held buffer, the event matrix with the DMA channels, the cores' event
inputs, Thimble's alive counter and the idle time may change. That the empty queue is such a cycle is the model's choice (log entry 1). -/
def Obligations.EmptyQueueIsOneAiringCycle : Prop :=
  ∀ s : State, s.pending = [] → ∃ t, step s = .next t ∧ t.pending = [] ∧ (s.pwr.entering = 0 → s.pwr.leaving = none → s.pwr.standby = none →
      s.seam.unsent = [] → t.time.clk = s.time.clk + 1 ∧
    t.time.acc = s.time.acc + (if s.pwr.vault then 0 else BitVec.ofNat 96 (timeInc s)) ∧
    t.out = s.out ∧ t.draws = s.draws ∧ t.dev = s.dev ∧ t.fn0 = s.fn0 ∧ t.fn1 = s.fn1 ∧ t.slices = s.slices ∧
    t.tortin = s.tortin ∧ t.scorch = s.scorch ∧ t.keys = s.keys ∧ t.seam = s.seam ∧ t.links = s.links ∧
    (∃ ms, t.hamper = { s.hamper with metas := ms }) ∧
    (∀ b, bufGet t b = bufGet s b ∨ ((bufGet s b).held = true ∧ bufGet t b = { bufGet s b with taint := true })) ∧
    t.press = s.press ∧ t.mangle = s.mangle ∧ t.rng = s.rng ∧ t.boot = s.boot ∧ t.lc = s.lc ∧
    t.pwr.vault = s.pwr.vault ∧ t.thm.mode = s.thm.mode ∧ t.thm.reqs = s.thm.reqs ∧ t.thm.answers = s.thm.answers)

/-- The state right after power-on reset, where the spec gives it: the Stamp is 0 and its increment nominal, `TIME_UNSET` is set, the power
state is ACTIVE, every slice is unbound, no command is in the tracker, no key object or queue stands, the Tally is empty, buffer memory
and the cores' memories are zero, the start sequence begins and the device is not READY. -/
def Obligations.ResetGivesTheSpecsValues : Prop :=
  State.reset.pending = [] ∧ State.reset.time.acc = 0 ∧ timeInc State.reset = 0x112E0BE827 ∧
  regGet State.reset aTimeSrcStat = 0x80 ∧ regGet State.reset aPwrState = 0 ∧
  State.reset.slices = [] ∧ State.reset.tortin.tracker = [] ∧ State.reset.keys.objs = [] ∧
  State.reset.links.queues = [] ∧ State.reset.tally.slots = [] ∧ State.reset.hamper.data = [] ∧
  State.reset.needle.cores = [] ∧ State.reset.boot.step = .fuses ∧ State.reset.tortin.ready = false

/-- The tables whose canonical form the statements about single entries use hold it right after power-on reset. -/
def Obligations.ResetIsCanonical : Prop :=
  Canonical State.reset

/-- Every step keeps the canonical form of buffer memory, of the register file and of the table of the cores. -/
def Obligations.EveryStepKeepsCanonicalForm : Prop :=
  ∀ s t : State, Canonical s → step s = .next t → Canonical t

/-- The frame of every row of the table: a row that answers a next state changes no part of the state but those that `mayChange` lists for it. -/
def Obligations.EveryRowChangesOnlyItsParts : Prop :=
  ∀ (c : Instr) (s t : State), exec c s = .next t → Only (partsMask (mayChange c)) s t

/-- A Scorch lock in force survives every step, but for `SCORCH.UNLOCK`, for the withdrawal of a provisional supply event as the device enters
VAULT (R490), and for the loss of the VBAT domain, which holds the lock (R495). -/
def Obligations.OnlyUnlockOrVbatEndsALock : Prop :=
  ∀ s t : State, s.scorch.locked = true → step s = .next t → t.scorch.locked = true ∨
    (∃ tag io rest, s.pending = .scorchUnlock tag io :: rest) ∨
    (∃ rail mv rest, s.pending = .vaultEntry rail mv :: rest ∧ s.scorch.others = false ∧ t.pwr.vault = true ∧
      s.scorch.prov.any (fun p => p.rail == rail && decide (s.time.clk ≤ p.at_ + 2 * cycUs)) = true) ∨
    (∃ kind mv rest, s.pending = .vbatFire kind mv :: rest ∧ 3 ≤ kind ∧ s.pwr.vault = true ∧ mv < 1800)

/-- A source whose disable fuse is burned stays disabled in every later state. The lowest security version that may start never falls, and a
burned life-cycle fuse never reads unburned. No step lets the Stamp's clock run back or takes a free value twice. -/
def Obligations.NothingBurnedOrCountedFallsBack : Prop :=
  (∀ (s t : State) (i : Nat), bitN s.scorch.disabled i = true → step s = .next t → bitN t.scorch.disabled i = true) ∧
  (∀ s t : State, step s = .next t → s.boot.secMin ≤ t.boot.secMin ∧
     (∀ k i, bitN (s.lc.fuses.getD k 0) i = true → bitN (t.lc.fuses.getD k 0) i = true)) ∧
  (∀ s t : State, step s = .next t → s.time.clk ≤ t.time.clk ∧ s.draws ≤ t.draws)

/-! ### Commands that report -/

/-- The commands of the device, the slices, the owners and the keys that only report; `DEV.NOP` does nothing. `DEV.COUNTERS` with flag [0]
clears the counters that it reports; without it no register changes but the mailbox's words. -/
def Obligations.DeviceOwnerAndKeyReports : Prop :=
  (∀ (tag : Nat) (io : HostIO),
     Reports (.devInfo tag io) tag 0x0101 io (fun _ _ => True) (fun s c => bytesAt (devInfo s c) 0 (out64 c)) ∧
     Reports (.devStatus tag io) tag 0x0102 io (fun _ _ => True) (fun s c => bytesAt (devStat s) 0 (out64 c)) ∧
     Reports (.devLimits tag io) tag 0x0104 io (fun _ _ => True) (fun s c => devLimits s c) ∧
     Reports (.devCounters tag io) tag 0x0105 io (fun _ _ => True) (fun s _ => devCounters s) ∧
     Reports (.sliceInfo tag io) tag 0x020A io (fun _ _ => True) (fun s c => sliceRecord s (slTarget c)) ∧
     Reports (.ownerInfo tag io) tag 0x0303 io (fun _ _ => True) (fun s c => ownerInfo s (ownerField s c (par c 52 2))) ∧
     Reports (.approvalList tag io) tag 0x0309 io (fun _ _ => True)
       (fun s c => ((approvalsListed s c).take (cOutCap c / 32)).flatMap (fun e => listEntry s e.1 e.2))
       (fun s c => BitVec.ofNat 64 ((((approvalsListed s c).drop (cOutCap c / 32)).map (·.1)).headD 0xFFFF)) ∧
     Reports (.keyList tag io) tag 0x0408 io (fun _ _ => True)
       (fun s c => ((keysListed s c).take (cOutCap c / 4)).flatMap (fun e => leBytes 4 (keyHandle e.1 e.2)))
       (fun s c => BitVec.ofNat 64 ((((keysListed s c).drop (cOutCap c / 4)).map (·.1)).headD 0)) ∧
     (∀ o, Reports (.keyInfo tag io) tag 0x0406 io (fun s c => keyOf s (cKeyA c) = some o) (fun s c => keyInfo s (cKeyA c) o)) ∧
     (∀ s c, Started s tag 0x0103 c → Next (.devNop tag) s (fun t => Ended s t tag c stOk ∧ t.out = s.out)) ∧
     (∀ s c, Started s tag 0x0406 c → keyOf s (cKeyA c) = none →
       Next (.keyInfo tag io) s (fun t => ∃ d, cmdAt t tag = some d ∧ d.stage = .ended ∧ d.comp.status = stInternal ∧ t.out = s.out))) ∧
  (∀ (tag : Nat) (io : HostIO) (s : State) (c : Cmd), Canonical s → Started s tag 0x0105 c →
     Next (.devCounters tag io) s (fun t =>
       (∀ a, a ∈ devCounterRegs → regGet t a = if bitN (par c 52 1) 0 then 0 else regGet s a) ∧
       (∀ a, a ∉ devCounterRegs → (a < aMbxRsp ∨ aMbxRsp + 0x40 ≤ a) → cAlarm c = false → regGet t a = regGet s a)))

/-- The commands of the engines, the time, the firmware and the life cycle that only report. -/
def Obligations.EngineTimeAndFirmwareReports : Prop :=
  ∀ (tag : Nat) (io : HostIO),
    Reports (.rngStatus tag io) tag 0x0703 io (fun _ _ => True) (fun s _ =>
      leBytes 4 (rngStat s).toNat ++ leBytes 4 s.rng.pool.length ++ leBytes 8 s.rng.reseeds ++ leBytes 4 s.rng.calls ++ zeros 4 ++
      leBytes 8 s.rng.stamp.toNat ++ [BitVec.ofNat 8 (fieldOf (regGet s aRngCfg) 7 0), BitVec.ofNat 8 (fieldOf (rngStat s) 15 8),
        BitVec.ofNat 8 (fieldOf (regGet s aRngCfg) 23 16)] ++ zeros 5 ++
      (List.range 8).flatMap (fun n => leBytes 4 (regGet s (aRngSrcFail + 4 * n)).toNat) ++
      (List.range 8).flatMap (fun n => leBytes 4 (regGet s (aRngSrcWin + 4 * n)).toNat)) ∧
    Reports (.tallyStatus tag io) tag 0x0A04 io (fun _ _ => True) (fun s _ => tallyStatus s) ∧
    Reports (.timeGet tag io) tag 0x0B01 io (fun _ _ => True) (fun s _ =>
      leBytes 8 (nowStamp s).toNat ++ leBytes 8 (nowCt s).toNat ++ leBytes 2 (epochId s).toNat ++ leBytes 2 (regGet s aTimeStat).toNat ++
      leBytes 4 (regGet s aTimeSrcStat).toNat ++ leBytes 4 (regGet s aTimeOffset).toNat ++ zeros 4) (fun _ c => c.started) ∧
    Reports (.fwStatus tag io) tag 0x0C06 io (fun _ _ => True) (fun s _ => fwStatus s) ∧
    Reports (.lcStatus tag io) tag 0x0D01 io (fun _ _ => True) (fun s _ => lcStatus s) ∧
    Reports (.scorchStatus tag io) tag 0x0D04 io (fun _ _ => True) (fun s _ => scorchStatus s) ∧
    Reports (.scorchLogRead tag io) tag 0x0D06 io (fun _ _ => True)
      (fun s c => ((s.scorch.log.filter (fun r => decide (par c 52 4 ≤ r.seq))).take (cOutCap c / 64)).flatMap logBytes64)
      (fun s c => extra2 ((((s.scorch.log.filter (fun r => decide (par c 52 4 ≤ r.seq))).drop (cOutCap c / 64)).map (·.seq)).headD 0)
        ((s.scorch.log.filter (fun r => decide (par c 52 4 ≤ r.seq))).take (cOutCap c / 64)).length) ∧
    Reports (.progStatus tag io) tag 0x0E05 io (fun _ _ => True) (fun s c =>
      let n := par c 52 1
      let k := coreGet s n
      leBytes 1 n ++ leBytes 1 k.mode.code ++ leBytes 2 k.program ++ leBytes 2 k.owner ++ leBytes 2 k.slice ++
      leBytes 8 (coreGlobal n (if k.mode = .faulted then k.epc else k.pc)) ++ leBytes 1 k.cause ++ leBytes 1 k.reason ++ zeros 6 ++
      leBytes 8 k.eaddr ++ leBytes 8 (coreCycles s k) ++ leBytes 8 k.commits ++ leBytes 4 k.pressN ++ leBytes 4 k.mangleN ++
      leBytes 8 k.changed.toNat)

/-- The commands of the links, the cards, the group and the Tally that only report; `LINK.STATS` with byte 54 of 1 then clears the queue's
counts. -/
def Obligations.LinkGroupAndTallyReports : Prop :=
  ∀ (tag : Nat) (io : HostIO),
    Reports (.portStatus tag io) tag 0x0802 io (fun _ _ => True)
      (fun s c => (List.range 128).flatMap (fun i => leBytes 4 (lnkWord s (par c 52 2) (4 * i)).toNat)) ∧
    (∀ x, Reports (.cardStatus tag io) tag 0x080B io (fun s c => cardGet s (par c 52 8) = some x) (fun s c =>
      leBytes 8 (par c 52 8) ++ leBytes 4 x.key ++ leBytes 2 x.owner ++ leBytes 2 x.port ++ leBytes 2 x.conf ++ leBytes 2 x.offered ++
      leBytes 4 x.total ++ leBytes 4 x.left ++ leBytes 2 x.flags ++ leBytes 1 (cardState x) ++
      leBytes 1 (cardQueues s (par c 52 8)).length ++ leBytes 8 x.report.toNat ++ leBytes 8 x.enrolCt.toNat ++ leBytes 4 x.fwVer ++
      zeros 12)) ∧
    (∀ x, Reports (.linkStats tag io) tag 0x080C io (fun s c => queueGet s (par c 52 2) = some x ∧ par c 54 1 ≠ 1) (fun _ _ =>
      leBytes 8 x.sent ++ leBytes 8 x.accepted ++ leBytes 4 x.retrans ++ leBytes 4 x.givenUp ++ leBytes 4 x.authFail ++
      leBytes 4 x.replays ++ leBytes 4 x.epochDr ++ leBytes 4 x.stale ++ leBytes 4 x.hbLosses ++ leBytes 4 x.ackedN ++
      leBytes 8 x.lastRx.toNat ++ leBytes 2 x.epoch ++ zeros 6)) ∧
    (∀ s c x, Started s tag 0x080C c → queueGet s (par c 52 2) = some x → par c 54 1 = 1 →
      Next (.linkStats tag io) s (fun t => queueGet t (par c 52 2) = some { x with
        sent := 0, accepted := 0, retrans := 0, givenUp := 0, authFail := 0, replays := 0, epochDr := 0, stale := 0
        hbLosses := 0, ackedN := 0 })) ∧
    Reports (.seamStatus tag io) tag 0x0903 io (fun _ _ => True) (fun s _ =>
      leBytes 1 (if s.seam.isolated then 5 else s.seam.role.code) ++ leBytes 1 s.seam.index ++ leBytes 1 s.seam.size ++
      leBytes 1 (seamSyncMask s) ++ leBytes 4 s.seam.term ++ leBytes 8 s.seam.group.toNat ++ leBytes 8 s.dev.serial.toNat ++
      leBytes 8 s.seam.applied ++ leBytes 8 (seamAcked s) ++ leBytes 2 s.seam.version ++
      leBytes 1 ((seamUp s).foldl (fun n l => n + 2 ^ l) 0) ++ leBytes 1 s.seam.failed ++ leBytes 4 (regGet s aSeamOffset).toNat ++
      leBytes 2 (witnesses s) ++ leBytes 2 s.seam.heardYes ++ leBytes 2 s.seam.heardNo ++ leBytes 2 (witnessQuorum s) ++
      leBytes 4 ((seamBudgets s).1 * 1000) ++ leBytes 4 ((seamBudgets s).2 * 1000) ++ leBytes 4 s.seam.solo ++
      leBytes 1 (regField s aSeamCause 7 0) ++ zeros 59 ++ settingsDigestOf s ++ ownerSetDigest s ++
      (if inGroup s then zeros 1600 else bytesAt s.seam.formX 0 32 ++ bytesAt s.seam.formK 0 1568) ++ zeros 32) ∧
    Reports (.tallyRead tag io) tag 0x0A01 io (fun _ c => par c 52 1 = 0)
      (fun s c => (readFit ((readStore s (par c 56 8)).1.filter (fun r => decide (par c 53 1 ≤ r.app.sev))) (cOutCap c)).1)
      (fun s c => BitVec.ofNat 64 ((readFit ((readStore s (par c 56 8)).1.filter (fun r => decide (par c 53 1 ≤ r.app.sev)))
        (cOutCap c)).2.getD ((readStore s (par c 56 8)).2.getD 0))) ∧
    Reports (.tallyRead tag io) tag 0x0A01 io (fun _ c => par c 52 1 ≠ 0)
      (fun s c => (readFit (((areaSelect s.tally.flash0 s.tally.flash1).filter (fun r => decide (par c 56 8 ≤ r.seq))).filter
        (fun r => decide (par c 53 1 ≤ r.app.sev))) (cOutCap c)).1)
      (fun s c => BitVec.ofNat 64 ((readFit (((areaSelect s.tally.flash0 s.tally.flash1).filter
        (fun r => decide (par c 56 8 ≤ r.seq))).filter (fun r => decide (par c 53 1 ≤ r.app.sev))) (cOutCap c)).2.getD 0))

/-! ### Slices, owners and approvals -/

/-- What the commands that bind and set a slice leave in it; every other slice stands as before. A slice reset, and a destruction, of an
active slice by a command of another slice: while started commands of the slice run the slice resets and parks its interrupts; with none
it ends at once, with every ring disabled, or unbound. A `SLICE.RESET` accepted while the slice was already resetting ends with `OK` and
changes no slice. -/
def Obligations.SliceCommandsSetAndResetSlices : Prop :=
  (∀ (tag : Nat) (io : HostIO) (s : State) (c : Cmd) (bs : List Byte),
     NextIn (.sliceCreate tag io) s tag 0x0201 c io bs (fun t => Ended s t tag c stOk ∧ OtherSlices s t (slTarget c) ∧
       sliceGet t (slTarget c) =
         (let x : Slice := { mode := .active, owner := par c 54 2, port := par c 60 1, pasid := par c 56 4, vecBase := par c 62 2
                             vecCount := par c 61 1, boundAt := nowStamp s, ignWr := (sliceGet s (slTarget c)).ignWr }
          if bs = [] then x else resApply x bs)) ∧
     (NextIn (.sliceResize tag io) s tag 0x0203 c io bs (fun t => Ended s t tag c stOk ∧
       OtherSlices s t (slTarget c) ∧ sliceGet t (slTarget c) = resApply (sliceGet s (slTarget c)) bs)) ∧
     (Started s tag 0x0204 c → Next (.sliceSetQos tag) s (fun t => Ended s t tag c stOk ∧
       OtherSlices s t (slTarget c) ∧
       (sliceGet t (slTarget c)).pressW = (if par c 54 1 = 0 then (sliceGet s (slTarget c)).pressW else par c 54 1) ∧
       (sliceGet t (slTarget c)).mangleW = (if par c 55 1 = 0 then (sliceGet s (slTarget c)).mangleW else par c 55 1) ∧
       (sliceGet t (slTarget c)).alarmOk =
         (if bitN (par c 56 1) 1 then bitN (par c 56 1) 0 else (sliceGet s (slTarget c)).alarmOk) ∧
       ((sliceGet t (slTarget c)).alarmOk = false → ∀ k, bitOf (sqGet (sliceGet t (slTarget c)) k).cfg 30 = false))) ∧
     (Started s tag 0x0205 c → Next (.sliceSetVectors tag) s (fun t =>
       Ended s t tag c stOk ∧ OtherSlices s t (slTarget c) ∧ (sliceGet t (slTarget c)).vecBase = par c 54 2 ∧
       (sliceGet t (slTarget c)).vecCount = par c 56 1 ∧
       ((sliceGet s (slTarget c)).mode = .active → (sliceGet t (slTarget c)).parking = false ∧ (sliceGet t (slTarget c)).parked = 0)))) ∧
  (∀ (tag : Nat) (s : State) (c : Cmd), c.joined = false → (sliceGet s (slTarget c)).mode = .active →
     (sliceGet s (slTarget c)).resetBy = none → cSlice c ≠ some (slTarget c) →
     (Started s tag 0x0206 c → s.tortin.tracker.all (fun e => cSlice e.2 != some (slTarget c)) = true →
       Next (.sliceReset tag) s (fun t => Ended s t tag c stOk ∧ OtherSlices s t (slTarget c) ∧
         (sliceGet t (slTarget c)).mode = .active ∧ (sliceGet t (slTarget c)).parking = false ∧
         (sliceGet t (slTarget c)).parked = 0 ∧
         (∀ k, bitOf (sqGet (sliceGet t (slTarget c)) k).cfg 31 = false ∧ bitOf (cqGet (sliceGet t (slTarget c)) k).cfg 31 = false))) ∧
     (Started s tag 0x0202 c → s.tortin.tracker.all (fun e => cSlice e.2 != some (slTarget c)) = true →
       Next (.sliceDestroy tag) s (fun t => Ended s t tag c stOk ∧ OtherSlices s t (slTarget c) ∧
         (sliceGet t (slTarget c)).mode = .unbound ∧ (sliceGet t (slTarget c)).ignWr = (sliceGet s (slTarget c)).ignWr)) ∧
     (Started s tag 0x0206 c → s.tortin.tracker.any (fun e => cSlice e.2 == some (slTarget c)) = true →
       s.tortin.tracker.all (fun e => cSlice e.2 != some (slTarget c) || e.2.stage == .started) = true →
       Next (.sliceReset tag) s (fun t => (sliceGet t (slTarget c)).mode = .resetting ∧ (sliceGet t (slTarget c)).parking = true ∧
         (sliceGet t (slTarget c)).resetBy = some tag))) ∧
  (∀ (tag : Nat) (s : State) (c : Cmd), Started s tag 0x0206 c → c.joined = true →
     Next (.sliceReset tag) s (fun t => Ended s t tag c stOk ∧ t.slices = s.slices))

/-- The phases of a save, the restore and the harvest of the dirty-page log. -/
def Obligations.SliceMigrationCommands : Prop :=
  ∀ (tag : Nat) (io : HostIO) (s : State) (c : Cmd),
    (Started s tag 0x0207 c → par c 54 1 = 1 →
      Next (.sliceSaveLogStart tag) s (fun t => Ended s t tag c stOk ∧ OtherSlices s t (slTarget c) ∧
        sliceGet t (slTarget c) = { sliceGet s (slTarget c) with log := some { base := par c 56 2, len := par c 58 1 } })) ∧
    (Started s tag 0x0207 c → par c 54 1 = 3 →
      Next (.sliceSaveLogEnd tag) s (fun t => Ended s t tag c stOk ∧ OtherSlices s t (slTarget c) ∧
        sliceGet t (slTarget c) = { sliceGet s (slTarget c) with log := none })) ∧
    (Started s tag 0x0207 c → par c 54 1 = 2 → (sliceGet s (slTarget c)).mode = .active ∨
        ((sliceGet s (slTarget c)).mode = .quiescing ∧ (sliceGet s (slTarget c)).parking = true) →
      saveDrained s (slTarget c) tag = true → Delivers s c io → Next (.sliceSaveStop tag io) s (fun t =>
        Ended s t tag c stOk 1232 (BitVec.ofNat 64 ((epochId s).toNat * 2 ^ 48 + (s.tortin.saveCnt + 1))) ∧
        (sliceGet t (slTarget c)).mode = .migrating ∧ (sliceGet t (slTarget c)).parking = true ∧
        (sliceGet t (slTarget c)).saveSeq = (epochId s).toNat * 2 ^ 48 + (s.tortin.saveCnt + 1) ∧
        (sliceGet t (slTarget c)).sq = [] ∧ (sliceGet t (slTarget c)).cq = [] ∧
        ((sliceGet s (slTarget c)).frozen = none →
          (sliceGet t (slTarget c)).frozen = some ((sliceGet s (slTarget c)).sq, (sliceGet s (slTarget c)).cq)))) ∧
    (Started s tag 0x0207 c → par c 54 1 = 2 → (sliceGet s (slTarget c)).mode = .active → saveDrained s (slTarget c) tag = false →
      Next (.sliceSaveStop tag io) s (fun t => (sliceGet t (slTarget c)).mode = .quiescing ∧
        (sliceGet t (slTarget c)).parking = true ∧ OtherSlices s t (slTarget c) ∧ cmdAt t tag = some c)) ∧
    (Started s tag 0x0207 c → par c 54 1 = 2 → (sliceGet s (slTarget c)).mode = .quiescing → saveDrained s (slTarget c) tag = false →
      Next (.sliceSaveStop tag io) s (fun t => t = s)) ∧
    (∀ b d, blobOpen s (slTarget c) b = some d → NextIn (.sliceRestore tag io) s tag 0x0208 c io b (fun t => Ended s t tag c stOk ∧ OtherSlices s t (slTarget c) ∧
        (sliceGet t (slTarget c)).mode = .active ∧ (sliceGet t (slTarget c)).port = par c 54 1 ∧
        (sliceGet t (slTarget c)).pasid = par c 56 4 ∧ (sliceGet t (slTarget c)).vecBase = par c 60 2 ∧
        (sliceGet t (slTarget c)).parking = false ∧ (sliceGet t (slTarget c)).log = none ∧
        (∀ k, k < 16 → sqGet (sliceGet t (slTarget c)) k = sqFrom (bytesAt d (128 + 32 * k) 32)))) ∧
    (∀ l, Started s tag 0x0209 c → Delivers s c io → (sliceGet s (slTarget c)).log = some l → Next (.sliceHarvest tag io) s (fun t =>
        ∃ bs, bs = logBytes l (par c 56 4) (min (cOutCap c) ((0x40000 * l.len - par c 56 4) / 8)) ∧
          Ended s t tag c stOk bs.length (extra2 ((bs.map (fun b => popCount b.toNat 8)).foldl (· + ·) 0)
            (b2n l.outside + 2 * b2n l.allDirty)) ∧
          (sliceGet t (slTarget c)).log = some (if cSlice c = some (slTarget c) then
              logWrite (logClear l (par c 56 4) bs.length) (cOutAddr c) bs.length else logClear l (par c 56 4) bs.length)))

/-- What `OFFICER.ADD`, `OFFICER.REMOVE` and `OWNER.SET_QUORUM` leave of the issuing owner's record. While Mangle still works for an `OFFICER.ADD`, its
row only lets it go on. An officer that stands at the index
already, as on a follower that holds the primary's record, stays, with its memberships. -/
def Obligations.OfficersAndQuorums : Prop :=
  ∀ (tag : Nat) (io : HostIO) (s : State) (c : Cmd) (r : OwnerRec), ownerGet s (cOwner s c) = some r →
    MangleFirst (.officerAdd tag io) s tag 0x0304 c io ∧
    (∀ d, mangleHas s tag = false → credValid ((credAt d 0).kind, (credAt d 0).pub) = true → NextIn (.officerAdd tag io) s tag 0x0304 c io d (fun t =>
      Ended s t tag c stOk 0 (BitVec.ofNat 64 (credAt d 0).index) ∧ OtherOwners s t (cOwner s c) ∧
      ∃ r', tblFind (cOwner s c) t.keys.owners = some r' ∧ r'.validity = r.validity ∧ r'.label = r.label ∧
        tblFind (credAt d 0).index r'.officers =
          some ((tblFind (credAt d 0).index r.officers).getD
            { kind := (credAt d 0).kind, label := (credAt d 0).label, pub := (credAt d 0).pub, added := nowCt s }) ∧
        (∀ i, i ≠ (credAt d 0).index → tblFind i r'.officers = tblFind i r.officers) ∧
        (∀ k, k < 4 → r'.quorum.getD k (0, 0) = ((r.quorum.getD k (0, 0)).1,
          if bitN (credAt d 0).mask k && !bitN (r.quorum.getD k (0, 0)).2 (credAt d 0).index then (r.quorum.getD k (0, 0)).2 + 2 ^ (credAt d 0).index else (r.quorum.getD k (0, 0)).2)))) ∧
    (∀ d, mangleHas s tag = false → credValid ((credAt d 0).kind, (credAt d 0).pub) = false → NextIn (.officerAdd tag io) s tag 0x0304 c io d (fun t =>
      Ended s t tag c stBadPoint ∧ t.keys.owners = s.keys.owners)) ∧
    (Started s tag 0x0305 c → Next (.officerRemove tag) s (fun t => Ended s t tag c stOk ∧ OtherOwners s t (cOwner s c) ∧
      (∃ r', tblFind (cOwner s c) t.keys.owners = some r' ∧ r'.validity = r.validity ∧
        tblFind (par c 52 1) r'.officers = none ∧
        (∀ i, i ≠ par c 52 1 → tblFind i r'.officers = tblFind i r.officers) ∧
        r'.quorum = r.quorum.map (fun q => (q.1, maskDrop q.2 (par c 52 1)))) ∧
      (∀ n e, tblFind n s.keys.pend = some e → e.owner = cOwner s c →
        ∃ e', tblFind n t.keys.pend = some e' ∧ bitN e'.mask (par c 52 1) = false))) ∧
    (Started s tag 0x0306 c → Next (.ownerSetQuorum tag) s (fun t => Ended s t tag c stOk ∧ OtherOwners s t (cOwner s c) ∧
      tblFind (cOwner s c) t.keys.owners = some (if par c 52 1 = 0 then { r with validity := par c 56 4 }
        else { r with quorum := setAt r.quorum (par c 52 1 - 1) (par c 53 1, par c 54 2) })))

/-- A request for an approval that finds no pending entry of the same owner, kind, class and body digest makes one, in the first place that is free and that
no running submission or withdrawal names
(log entry 51), with no approval yet and its validity counted from acceptance; one that finds it changes no entry. Both answer with the
message to sign. A request to initialise owner 0 with a public key that is not valid ends with `BAD_POINT`, and a request that must make an
entry waits while Bobbin does not serve it or every list of Press is full. An officer's signature that verifies marks the officer in the entry; one that does not ends the
command and changes no entry. A cancelled approval and one past its time leave the table; an entry in time, or reserved by a command, does not. -/
def Obligations.ApprovalsAreMadeCountedAndEnded : Prop :=
  (∀ (tag : Nat) (io : HostIO) (s : State) (c : Cmd),
     MangleFirst (.approvalRequest tag io) s tag 0x0307 c io ∧ MangleFirst (.approvalSubmit tag io) s tag 0x0308 c io) ∧
  (∀ (tag : Nat) (io : HostIO) (s : State) (c : Cmd) (d : List Byte), Delivers s c io → mangleHas s tag = false →
     (∀ n e, pendSame s (cOwner s c) (par c 52 1)
         (if par c 52 1 = 1 then qCustodian else (targetClass s c (bytesAt d 0 64)).getD 0) (bytesAt d 0 64) = some (n, e) →
       NextIn (.approvalRequest tag io) s tag 0x0307 c io d (fun t => t.keys.pend = s.keys.pend ∧
         ∃ x, Ended s t tag c stOk e.msg.length x)) ∧
     (∀ n r, pendSame s (cOwner s c) (par c 52 1)
         (if par c 52 1 = 1 then qCustodian else (targetClass s c (bytesAt d 0 64)).getD 0) (bytesAt d 0 64) = none →
       (isInit s c (bytesAt d 0 64) (d.drop 64) = true → (descCreds (d.drop 64)).all (fun k => credValid (k.kind, k.pub)) = true) →
       bobbinFor s 5 = true → pressFree s = true → pendSpot s = some n → ownerGet s (cOwner s c) = r →
       NextIn (.approvalRequest tag io) s tag 0x0307 c io d (fun t => ∃ e, tblFind n t.keys.pend = some e ∧
         e.owner = cOwner s c ∧ e.kind = par c 52 1 ∧ e.body = bytesAt d 0 64 ∧ e.digest = bodyDigest (bytesAt d 0 64) ∧
         e.inDigest = bytesAt (Config.sha384 (d.drop 64)) 0 48 ∧ e.mask = 0 ∧ e.reserved = none ∧ e.stamp = c.accepted ∧
         e.expiry = c.accepted.toNat + (if par c 56 4 ≠ 0 then par c 56 4
           else if isInit s c (bytesAt d 0 64) (d.drop 64) then descValidity (d.drop 64) else (r.map (·.validity)).getD 900) * 2 ^ 32 ∧
         e.copy = (if isInit s c (bytesAt d 0 64) (d.drop 64) then some (d.drop 64) else none) ∧ e.epoch = epochId s ∧
         OtherPending s t n ∧ ∃ x, Ended s t tag c stOk e.msg.length x)) ∧
     (pendSame s (cOwner s c) (par c 52 1)
         (if par c 52 1 = 1 then qCustodian else (targetClass s c (bytesAt d 0 64)).getD 0) (bytesAt d 0 64) = none →
       (isInit s c (bytesAt d 0 64) (d.drop 64) = true → (descCreds (d.drop 64)).all (fun k => credValid (k.kind, k.pub)) = false →
         NextIn (.approvalRequest tag io) s tag 0x0307 c io d (fun t => Ended s t tag c stBadPoint ∧ t.keys.pend = s.keys.pend)) ∧
       (isInit s c (bytesAt d 0 64) (d.drop 64) = false → bobbinFor s 5 = false ∨ pressFree s = false →
         NextIn (.approvalRequest tag io) s tag 0x0307 c io d (fun t => t.keys.pend = s.keys.pend ∧
           ∃ x, cmdAt t tag = some x ∧ x.stage = .started ∧ x.body = c.body)))) ∧
  (∀ (tag : Nat) (io : HostIO) (s : State) (c : Cmd) (sig : List Byte) (e : PendEntry) (k : Nat × List Byte),
     mangleHas s tag = false → tblFind (par c 52 2) s.keys.pend = some e → pendOfficer s e (par c 54 1) = some k →
     (officerSigned k e.msg sig = true → NextIn (.approvalSubmit tag io) s tag 0x0308 c io sig (fun t =>
       OtherPending s t (par c 52 2) ∧ ∃ e', tblFind (par c 52 2) t.keys.pend = some e' ∧
         e' = { e with mask := if bitN e.mask (par c 54 1) then e.mask else e.mask + 2 ^ par c 54 1 } ∧
         Ended s t tag c stOk 0 (BitVec.ofNat 64 (par c 52 2 + pendCount t e' * 2 ^ 16 + (pendQuorum t e').1 * 2 ^ 24 +
           (if pendEnough t e' then 2 else 1) * 2 ^ 32)))) ∧
     (officerSigned k e.msg sig = false → NextIn (.approvalSubmit tag io) s tag 0x0308 c io sig (fun t =>
       Ended s t tag c 0x0302 ∧ t.keys.pend = s.keys.pend ∧ t.keys.owners = s.keys.owners))) ∧
  (∀ (s : State),
     (∀ tag c, Started s tag 0x030A c → Next (.approvalCancel tag) s (fun t => Ended s t tag c stOk ∧
       tblFind (par c 52 2) t.keys.pend = none ∧ OtherPending s t (par c 52 2))) ∧
     (∀ n e, tblFind n s.keys.pend = some e → pendInTime s e (nowStamp s) = false → e.reserved = none →
       Next (.approvalExpiry n) s (fun t => tblFind n t.keys.pend = none ∧ OtherPending s t n)) ∧
     (∀ n e, tblFind n s.keys.pend = some e → (pendInTime s e (nowStamp s) = true ∨ e.reserved.isSome = true) →
       Next (.approvalExpiry n) s (fun t => t = s)))

/-! ### Keys and Thimble -/

/-- The commands of owners and keys that ask Thimble post one request, with what their rule gives it, and wait. A `KEY.DESTROY` waits, with no
effect, while another command that passed check 7 with the handle is in the tracker or a context of the key runs a command; otherwise the
contexts of the key end and Thimble is asked to destroy it. Both rows of the command do the same (log entry 27). The commands that make a
key pair, or the public part of an EC key, ask Thimble once their Mangle operation has ended (R184). -/
def Obligations.OwnerAndKeyCommandsAskThimble : Prop :=
  (∀ (tag : Nat) (io : HostIO) (s : State) (c : Cmd), MangleFirst (.ownerCreate tag io) s tag 0x0301 c io ∧
     (mangleHas s tag = true → Started s tag 0x0401 c → Next (.keyCreate tag) s (fun t => LetsMangle t tag c)) ∧
     MangleFirst (.keyImport tag io) s tag 0x0402 c io ∧ MangleFirst (.keyImportPublic tag io) s tag 0x0403 c io ∧
     MangleFirst (.keyDerive tag io) s tag 0x0404 c io) ∧
  (∀ (tag : Nat) (io : HostIO) (s : State) (c : Cmd) (bs : List Byte), c.work.step = 0 → thmRoom s = true →
     (mangleHas s tag = false → (descCreds bs).all (fun k => credValid (k.kind, k.pub)) = true → NextIn (.ownerCreate tag io) s tag 0x0301 c io bs (fun t =>
       Asks s t tag c 0xC [descOwner bs, 1])) ∧
     (mangleHas s tag = false → (descCreds bs).all (fun k => credValid (k.kind, k.pub)) = false → NextIn (.ownerCreate tag io) s tag 0x0301 c io bs (fun t =>
       Ended s t tag c stBadPoint ∧ t.thm = s.thm)) ∧
     (Started s tag 0x0302 c → Next (.ownerRetire tag) s (fun t => Asks s t tag c 0xC [par c 52 2, 0])) ∧
     (Started s tag 0x0401 c → mangleHas s tag = false → Next (.keyCreate tag) s (fun t =>
       Asks s t tag c 5 (fillNums s c (kcType c) (kcSize c) (kcAttrs c) (kcLimit c) 1))) ∧
     (mangleHas s tag = false → NextIn (.keyImport tag io) s tag 0x0402 c io bs (fun t =>
       Asks s t tag c 6 (fillNums s c (kcType c) (kcSize c) (kcAttrs c) (kcLimit c) 2 ++ [par c 53 1]) 0 (cKeyA c) bs)) ∧
     (mangleHas s tag = false → publicValid (kcType c) (kcSize c) bs = true → NextIn (.keyImportPublic tag io) s tag 0x0403 c io bs (fun t =>
       Asks s t tag c 6 (fillNums s c (kcType c) (kcSize c) (kcAttrs c) (kcLimit c) 4 ++ [0]) 0 0 bs)) ∧
     (mangleHas s tag = false → publicValid (kcType c) (kcSize c) bs = false → NextIn (.keyImportPublic tag io) s tag 0x0403 c io bs (fun t =>
       Ended s t tag c stBadPoint ∧ t.thm = s.thm)) ∧
     (mangleHas s tag = false → NextIn (.keyDerive tag io) s tag 0x0404 c io bs (fun t =>
       Asks s t tag c 7 (fillNums s c (kcType c) (kcSize c) (kcAttrs c) (kcLimit c) 3) (cKeyA c) 0 bs)) ∧
     (Started s tag 0x0407 c → Next (.keyRestrict tag) s (fun t => Asks s t tag c 0xA [par c 52 8, par c 60 4] (cKeyA c))) ∧
     (Started s tag 0x0409 c → Next (.keySetLease tag) s (fun t => Asks s t tag c 0xB [par c 52 2] (cKeyA c)))) ∧
  (∀ (tag : Nat) (s : State) (c : Cmd), Started s tag 0x0405 c →
     (handleBusy s tag (cKeyA c) = true ∨ ctxRuns s (cKeyA c) = true →
       Next (.keyDestroy tag) s (fun t => t = s) ∧ Next (.keyDestroyProceed tag) s (fun t => t = s)) ∧
     (handleBusy s tag (cKeyA c) = false → ctxRuns s (cKeyA c) = false → c.work.step = 0 → thmRoom s = true →
       Next (.keyDestroy tag) s (fun t => Asks s t tag c 9 [] (cKeyA c) ∧
         t.press.ctxs = s.press.ctxs.filter (fun e => e.2.handle != cKeyA c)) ∧
       Next (.keyDestroyProceed tag) s (fun t => Asks s t tag c 9 [] (cKeyA c) ∧
         t.press.ctxs = s.press.ctxs.filter (fun e => e.2.handle != cKeyA c))))

/-- The commands of queues, cards, firmware and debug that ask Thimble post one request and wait. -/
def Obligations.OtherCommandsAskThimble : Prop :=
  ∀ (tag : Nat) (io : HostIO) (s : State) (c : Cmd), c.work.step = 0 → thmRoom s = true →
    (∀ x, cardGet s (par c 52 8) = some x → Started s tag 0x0807 c →
      (c.mirror = false → x.change = none → Next (.linkRekey tag) s (fun t => Asks s t tag c 0xD [par c 52 8, x.offered + 1])) ∧
      (∀ ch, c.mirror = false → x.change = some ch → ch.cmd = none → Next (.linkRekey tag) s (fun t =>
        cardGet t (par c 52 8) = some { x with change := some { ch with cmd := some tag } } ∧ t.thm = s.thm)) ∧
      (c.mirror = true → Next (.linkRekey tag) s (fun t => t = s))) ∧
    (∀ bs q, queueNumber s c = some q → NextIn (.queueCreate tag io) s tag 0x0803 c io bs (fun t =>
      queueGet t q = some (queueOfDesc s c bs) ∧ (∀ r, r ≠ q → queueGet t r = queueGet s r) ∧
      ∃ d, cmdAt t tag = some d ∧ d.work.step = 1 ∧ t.thm.reqs.getLast? = some
        { op := 2, tag := s.thm.nextTag, a := cKeyA c, nums := [3, q], alarm := cAlarm c, cmd := some tag, taken := s.time.clk })) ∧
    MangleFirst (.debugInstall tag io) s tag 0x0D02 c io ∧
    (∀ bs, mangleHas s tag = false → certCheck s bs = stOk → (certOf bs).serial = s.dev.serial →
      NextIn (.debugInstall tag io) s tag 0x0D02 c io bs (fun t => Asks s t tag c 0x12 [2] 0 0 bs)) ∧
    (∀ bs, mangleHas s tag = false → certCheck s bs ≠ stOk → NextIn (.debugInstall tag io) s tag 0x0D02 c io bs (fun t =>
      Ended s t tag c (certCheck s bs) ∧ t.lc = s.lc ∧ t.thm = s.thm)) ∧
    (Started s tag 0x0D03 c → (inGroup s = false ∨ par c 52 1 = 0xFF ∨ par c 52 1 = s.seam.index) →
      Next (.debugRevoke tag) s (fun t => Asks s t tag c 0x12 [3])) ∧
    (Started s tag 0x0D03 c → inGroup s = true → par c 52 1 ≠ 0xFF → par c 52 1 ≠ s.seam.index →
      Next (.debugRevoke tag) s (fun t => Ended s t tag c stOk ∧ t.lc = s.lc ∧ t.thm = s.thm)) ∧
    (Started s tag 0x0C03 c → s.boot.mend = false → Next (.fwActivate tag) s (fun t => Waits t tag c ∧
      ∃ g, t.thm.reqs.getLast? = some {
        op := 0x10, tag := s.thm.nextTag, nums := [g], alarm := cAlarm c, cmd := some tag, taken := s.time.clk
        data := fpBm0 (fwPkg s (par c 52 1)) ++ fpBm1 (fwPkg s (par c 52 1)) })) ∧
    (Started s tag 0x0C03 c → s.boot.mend = true → Next (.fwActivate tag) s (fun t => t.tortin.resetTag = some tag ∧
      t.boot.leave = true ∧ ∃ x, Ended s t tag c stOk 0 x)) ∧
    (∀ x, cardGet s (par c 52 8) = some x → Started s tag 0x080A c → (∀ ok0 ok1, flashTakes s ok0 ok1 = true →
      Next (.cardRetire tag ok0 ok1) s (fun t => Waits t tag c ∧ t.thm.reqs.getLast? = some
        { op := 9, tag := s.thm.nextTag, a := x.key, alarm := cAlarm c, cmd := some tag, taken := s.time.clk })) ∧
      (∀ ok0 ok1, flashTakes s ok0 ok1 = false → Next (.cardRetire tag ok0 ok1) s (fun t => Ended s t tag c 0x0406)))

/-- `PLACE` gives a command the first run of free slots, if the slice's quota still allows it; where it does not, or none fits, the answer is the
status that R118 gives, and no place; a command that is gone gets `KEY_STORE_FULL`. `CREATE`, `IMPORT` and `DERIVE` fill the placed slots with
an object of the owner, type, size, attributes, limit, slice and origin that the request names: `CREATE` with the pair that Mangle made, or with
Bobbin's bytes once Bobbin serves it; `DERIVE` once Press has room. A wrapped key that does not unwrap, or whose form is wrong, stores nothing. A request whose change the
journal area has no room for waits (R110). -/
def Obligations.ThimblePlacesAndFillsSlots : Prop :=
  (∀ (s : State) (r : ThmReq), Serves s 4 r →
     (∀ tag c a, r.cmd = some tag → cmdAt s tag = some c → placeSlots s (r.nums.getD 0 0) = some a →
       placeStatus s c (r.nums.getD 0 0) = stOk →
       Next .thmPlace s (fun t => Answered s t r stOk a ∧ cmdAt t tag = some { c with placed := some (a, r.nums.getD 0 0) })) ∧
     (∀ tag c, r.cmd = some tag → cmdAt s tag = some c →
       placeSlots s (r.nums.getD 0 0) = none ∨ placeStatus s c (r.nums.getD 0 0) ≠ stOk →
       Next .thmPlace s (fun t => Answered s t r (placeStatus s c (r.nums.getD 0 0)) ∧ t.tortin = s.tortin)) ∧
     (r.cmd = none → Next .thmPlace s (fun t => Answered s t r 0x0401 ∧ t.tortin = s.tortin)) ∧
     (∀ tag, r.cmd = some tag → cmdAt s tag = none → Next .thmPlace s (fun t => Answered s t r 0x0401 ∧ t.tortin = s.tortin))) ∧
  (∀ (ok0 ok1 : Bool) (s : State) (r : ThmReq),
     (Serves s 5 r → r.secret ≠ [] → Next (.thmCreate ok0 ok1) s (fun t =>
       Stored s t r ok0 ok1 (r.nums.getD 1 0) (fillObj s r r.secret))) ∧
     (Serves s 5 r → r.secret = [] → bobbinFor s 3 = true → Next (.thmCreate ok0 ok1) s (fun t =>
       Stored s t r ok0 ok1 (r.nums.getD 1 0) (fillObj s r (drawn s ((keyBytes (r.nums.getD 2 0) (r.nums.getD 3 0)).getD 0))))) ∧
     (Serves s 5 r → r.secret = [] → bobbinFor s 3 = false → Next (.thmCreate ok0 ok1) s (fun t => t = s)) ∧
     (thmNext s = some r → reqRoom s r = false →
       Next (.thmCreate ok0 ok1) s (fun t => t = s) ∧ Next (.thmImport ok0 ok1) s (fun t => t = s) ∧
       Next (.thmDerive ok0 ok1) s (fun t => t = s)) ∧
     (Serves s 6 r → r.nums.getD 8 0 = 0 → Next (.thmImport ok0 ok1) s (fun t =>
       Stored s t r ok0 ok1 (r.nums.getD 1 0) (fillObj s r r.data))) ∧
     (∀ p m, Serves s 6 r → r.nums.getD 8 0 ≠ 0 →
       Config.kwUnwrap (r.nums.getD 8 0) (((keyOf s r.b).map (·.material)).getD []) r.data = some p →
       p.length = importLen (r.nums.getD 2 0) (r.nums.getD 3 0) → importMaterial (r.nums.getD 2 0) (r.nums.getD 3 0) p = some m →
       Next (.thmImport ok0 ok1) s (fun t => Stored s t r ok0 ok1 (r.nums.getD 1 0) (fillObj s r m))) ∧
     (∀ p, Serves s 6 r → r.nums.getD 8 0 ≠ 0 →
       Config.kwUnwrap (r.nums.getD 8 0) (((keyOf s r.b).map (·.material)).getD []) r.data = some p →
       p.length ≠ importLen (r.nums.getD 2 0) (r.nums.getD 3 0) ∨ importMaterial (r.nums.getD 2 0) (r.nums.getD 3 0) p = none →
       Next (.thmImport ok0 ok1) s (fun t => Answered s t r 0x0405 ∧ t.keys = s.keys)) ∧
     (Serves s 6 r → r.nums.getD 8 0 ≠ 0 →
       Config.kwUnwrap (r.nums.getD 8 0) (((keyOf s r.b).map (·.material)).getD []) r.data = none →
       Next (.thmImport ok0 ok1) s (fun t => Answered s t r 0x0404 ∧ t.keys = s.keys)) ∧
     (∀ p, Serves s 7 r → keyOf s r.a = some p → pressFree s = false → Next (.thmDerive ok0 ok1) s (fun t => t = s)) ∧
     (∀ p, Serves s 7 r → keyOf s r.a = some p → pressFree s = true → Next (.thmDerive ok0 ok1) s (fun t =>
       Stored s t r ok0 ok1 (r.nums.getD 1 0) (fillObj s r (deriveMaterial p.material (r.nums.getD 0 0) (r.nums.getD 2 0)
         (r.nums.getD 3 0) (r.nums.getD 4 0) r.data)))) ∧
     (Serves s 7 r → keyOf s r.a = none → Next (.thmDerive ok0 ok1) s (fun t => Answered s t r stBadHandle ∧ t.keys = s.keys)))

/-- `DESTROY` leaves the handle naming no object; `RESTRICT` clears the attribute bits of its mask and sets the not-after time; `LEASE` sets
the lease size, or, where a use needs it, moves uses from the persisted count into the lease. A persistent object that no chip takes a record of stays. `PING` is
answered at once; `PURGE` removes a handle from every cache once no earlier request names it, and waits before. A sealed bundle carries
the objects of the slots and the store keys of the owners that are named, under the group's bundle key; a member that holds the key
applies every object of it, and one that does not hold it changes nothing. -/
def Obligations.ThimbleChangesAndCarriesObjects : Prop :=
  (∀ (ok0 ok1 : Bool) (s : State) (r : ThmReq) (o : KeyObj), keyOf s r.a = some o →
     (Serves s 9 r → bitN o.attrs kPersist = false ∨ flashTakes s ok0 ok1 = true → Next (.thmDestroy ok0 ok1) s (fun t =>
       Answered s t r stOk r.a ∧ tblFind (handleSlot r.a) t.keys.objs = none ∧ OtherKeys s t (handleSlot r.a) ∧
       t.keys.pressKeys.all (fun e => e.handle != r.a) = true ∧ t.keys.mangleKeys.all (fun e => e.handle != r.a) = true)) ∧
     (Serves s 9 r → bitN o.attrs kPersist = true → flashTakes s ok0 ok1 = false → Next (.thmDestroy ok0 ok1) s (fun t =>
       Answered s t r 0x0406 ∧ t.keys = s.keys)) ∧
     (Serves s 0xA r → bitN o.attrs kPersist = false ∨ flashTakes s ok0 ok1 = true → Next (.thmRestrict ok0 ok1) s (fun t =>
       Answered s t r stOk (keyHandle (handleSlot r.a) o) ∧ OtherKeys s t (handleSlot r.a) ∧
       ∃ o', tblFind (handleSlot r.a) t.keys.objs = some o' ∧ o'.material = o.material ∧ o'.owner = o.owner ∧
         o'.revision = o.revision + 1 ∧
         (∀ i, i < 14 → bitN o'.attrs i = (bitN o.attrs i && !bitN (r.nums.getD 1 0) i)) ∧
         o'.notAfter = if r.nums.getD 0 0 = 0 then o.notAfter else BitVec.ofNat 64 (r.nums.getD 0 0))) ∧
     (Serves s 0xB r → r.nums.getD 0 0 ≠ 0 → bitN o.attrs kPersist = false ∨ flashTakes s ok0 ok1 = true →
       Next (.thmLease ok0 ok1) s (fun t => Answered s t r stOk (keyHandle (handleSlot r.a) o) ∧ OtherKeys s t (handleSlot r.a) ∧
         tblFind (handleSlot r.a) t.keys.objs = some { o with leaseSize := r.nums.getD 0 0, revision := o.revision + 1 })) ∧
     (Serves s 0xB r → r.nums.getD 0 0 = 0 → useFind s r.a o (r.nums.getD 1 1) ≠ .needLease →
       Next (.thmLease ok0 ok1) s (fun t => Answered s t r stOk r.a ∧ t.keys = s.keys)) ∧
     (Serves s 0xB r → r.nums.getD 0 0 = 0 → useFind s r.a o (r.nums.getD 1 1) = .needLease →
       bitN o.attrs kPersist = false ∨ flashTakes s ok0 ok1 = true → Next (.thmLease ok0 ok1) s (fun t => Answered s t r stOk r.a ∧ OtherKeys s t (handleSlot r.a) ∧
         tblFind (handleSlot r.a) t.keys.objs = some { o with
           remaining := o.remaining - min o.leaseSize o.remaining, lease := o.lease + min o.leaseSize o.remaining }))) ∧
  (∀ s : State, s.thm.mode = .ready →
     Next .thmPing s (fun t => t.thm.nextTag = s.thm.nextTag + 1 ∧
       t.thm.answers = s.thm.answers ++ [{ op := 1, tag := s.thm.nextTag, status := stOk }]) ∧
     (∀ h, s.thm.reqs.any (fun x => x.a == h || x.b == h) = false → Next (.thmPurge h) s (fun t =>
       t.thm.answers = s.thm.answers ++ [{ op := 3, tag := s.thm.nextTag, status := stOk, a := h }] ∧
       t.keys.pressKeys.all (fun e => e.handle != h) = true ∧ t.keys.mangleKeys.all (fun e => e.handle != h) = true ∧
       t.keys.objs = s.keys.objs)) ∧
     (∀ h, s.thm.reqs.any (fun x => x.a == h || x.b == h) = true → Next (.thmPurge h) s (fun t => t = s))) ∧
  (∀ s : State, s.thm.mode = .ready → s.seam.key ≠ [] →
     (∀ slots owners, Next (.thmSeal slots owners) s (fun t => t.thm.bundles = s.thm.bundles + 1 ∧ t.keys = s.keys ∧
       ∃ b, t.thm.bundle = some b ∧ b.key = bundleKey s ∧ b.count = s.thm.bundles ∧
         b.objs = slots.filterMap (fun n => (tblFind n s.keys.objs).map (fun o => (n, o))) ∧
         b.osks = owners.filterMap (fun n => (tblFind n s.keys.osks).map (fun k => (n, k))))) ∧
     (∀ b : Bundle, b.key = bundleKey s → Next (.thmOpen b) s (fun t =>
       (∀ n, n ∉ b.objs.map (·.1) → tblFind n t.keys.objs = tblFind n s.keys.objs) ∧
       ((b.objs.map (·.1)).Nodup → ∀ n o, (n, o) ∈ b.objs → tblFind n t.keys.objs = some o) ∧
       ((b.osks.map (·.1)).Nodup → ∀ n k, (n, k) ∈ b.osks → tblFind n t.keys.osks = some k))) ∧
     (∀ b : Bundle, b.key ≠ bundleKey s → Next (.thmOpen b) s (fun t => t = s)))

/-- `OWNER` makes an owner's store key out of Bobbin's bytes, for which it waits, or erases every object of the owner with its store key; `HANDOVER` changes no object; both end with
`JOURNAL_FAULT` where no chip takes their records. `BIND` copies a live key into the cache of Press or Mangle, or a queue's key of its
present epoch into its key register, and binds nothing under a Scorch lock. A new epoch of a card is offered once Press has room, and not under a
lock; the steps of the life cycle and of debug certificates, as Thimble serves them. -/
def Obligations.ThimbleServesOwnersBindsAndEpochs : Prop :=
  (∀ (ok0 ok1 : Bool) (s : State) (r : ThmReq),
     (Serves s 0xC r → r.nums.getD 1 0 = 1 → bobbinFor s 3 = false → Next (.thmOwner ok0 ok1) s (fun t => t = s)) ∧
     (Serves s 0xC r → r.nums.getD 1 0 = 1 → bobbinFor s 3 = true → flashTakes s ok0 ok1 = true → Next (.thmOwner ok0 ok1) s (fun t =>
       Answered s t r stOk ∧ tblFind (r.nums.getD 0 0) t.keys.osks = some (drawn s 32) ∧ t.keys.objs = s.keys.objs)) ∧
     (Serves s 0xC r → r.nums.getD 1 0 = 1 → bobbinFor s 3 = true → flashTakes s ok0 ok1 = false → Next (.thmOwner ok0 ok1) s (fun t =>
       Answered s t r 0x0406 ∧ t.keys = s.keys)) ∧
     (Serves s 0xC r → r.nums.getD 1 0 ≠ 1 → flashTakes s ok0 ok1 = true → Next (.thmOwner ok0 ok1) s (fun t =>
       Answered s t r stOk ∧ tblFind (r.nums.getD 0 0) t.keys.osks = none)) ∧
     (Serves s 0x10 r → flashTakes s ok0 ok1 = true → Next (.thmHandover ok0 ok1) s (fun t =>
       Answered s t r stOk ∧ t.keys.objs = s.keys.objs)) ∧
     (Serves s 0x10 r → s.keys.osks ≠ [] → flashTakes s ok0 ok1 = false → Next (.thmHandover ok0 ok1) s (fun t =>
       Answered s t r 0x0406 ∧ t.keys = s.keys))) ∧
  (∀ (s : State) (r : ThmReq), Serves s 2 r →
     (s.scorch.locked = true → Next .thmBind s (fun t => Answered s t r stLocked r.a r.nums ∧ t.keys = s.keys ∧ t.links = s.links)) ∧
     (s.scorch.locked = false → keyOf s r.a = none →
       Next .thmBind s (fun t => Answered s t r stBadHandle r.a r.nums ∧ t.keys = s.keys ∧ t.links = s.links)) ∧
     (∀ o k, s.scorch.locked = false → keyOf s r.a = some o → (r.nums.getD 0 0 = 1 ∨ r.nums.getD 0 0 = 2) →
       keyBind s (r.nums.getD 0 0) r.a o = some k → Next .thmBind s (fun t => Answered s t r stOk r.a r.nums ∧ t.keys = k.keys ∧
         (if r.nums.getD 0 0 = 1 then t.keys.pressKeys else t.keys.mangleKeys).any (fun e => e.handle == r.a) = true)) ∧
     (∀ o, s.scorch.locked = false → keyOf s r.a = some o → (r.nums.getD 0 0 = 1 ∨ r.nums.getD 0 0 = 2) →
       keyBind s (r.nums.getD 0 0) r.a o = none → Next .thmBind s (fun t => Answered s t r stBusy r.a r.nums ∧ t.keys = s.keys)) ∧
     (∀ o x p, s.scorch.locked = false → keyOf s r.a = some o → r.nums.getD 0 0 ≠ 1 → r.nums.getD 0 0 ≠ 2 →
       queueGet s (r.nums.getD 1 0) = some x → keyOf s x.key = some p → Next .thmBind s (fun t =>
         Answered s t r stOk r.a r.nums ∧ queueGet t (r.nums.getD 1 0) = some { x with
           present := some { epoch := x.epoch, key := queueKey p.material x.card.toNat (r.nums.getD 1 0) x.epoch } }))) ∧
  (∀ (s : State) (r : ThmReq),
     (∀ ok0 ok1, Serves s 0xD r → s.scorch.locked = true → Next (.thmEpoch ok0 ok1) s (fun t =>
       Answered s t r stLocked 0 r.nums ∧ t.links = s.links ∧ t.keys = s.keys)) ∧
     (∀ ok0 ok1, Serves s 0xD r → s.scorch.locked = false → cardGet s (r.nums.getD 0 0) = none → Next (.thmEpoch ok0 ok1) s (fun t =>
       Answered s t r 0x0803 0 r.nums ∧ t.links = s.links ∧ t.keys = s.keys)) ∧
     (∀ ok0 ok1 x, Serves s 0xD r → s.scorch.locked = false → cardGet s (r.nums.getD 0 0) = some x → pressFree s = false →
       Next (.thmEpoch ok0 ok1) s (fun t => t = s)) ∧
     (∀ ok0 ok1 x, Serves s 0xD r → s.scorch.locked = false → pressFree s = true → cardGet s (r.nums.getD 0 0) = some x →
       flashTakes s ok0 ok1 = true →
       Next (.thmEpoch ok0 ok1) s (fun t => Answered s t r stOk 0 r.nums ∧
         (cardGet t (r.nums.getD 0 0)).map (·.offered) = some (r.nums.getD 1 0) ∧
         (cardGet t (r.nums.getD 0 0)).map (·.conf) = some x.conf)) ∧
     (∀ ok0 ok1 x, Serves s 0xD r → s.scorch.locked = false → pressFree s = true → cardGet s (r.nums.getD 0 0) = some x →
       flashTakes s ok0 ok1 = false →
       Next (.thmEpoch ok0 ok1) s (fun t => Answered s t r 0x0406 0 r.nums ∧ t.links = s.links)) ∧
     (∀ cut, Serves s 0x12 r → r.nums.headD 0 = 2 → Next (.thmLc cut) s (fun t => Answered s t r stOk 0 [2] ∧
       t.lc.cert = some (certOf r.data) ∧ t.lc.certOn = false)) ∧
     (∀ cut, Serves s 0x12 r → r.nums.headD 0 ≠ 1 → r.nums.headD 0 ≠ 2 → Next (.thmLc cut) s (fun t => Answered s t r stOk 0 [3] ∧
       t.lc.cert = none)) ∧
     (∀ x, Serves s 0x12 r → r.nums.headD 0 = 1 → s.lc.trans = some x → bitN (lcSlot s x.slot) 3 = false → x.slot < s.lc.fuses.length →
       Next (.thmLc false) s (fun t => bitN (lcSlot t x.slot) 3 = true ∧ Answered s t r stOk 0 [1])))

/-- While Thimble is up and the response ring has room, the oldest answer becomes a response, the ring's tail advances by one of its 32
entries, and what waited on the answer goes on: the commands that create, change or destroy keys, owners, queues and cards end with the
answer's status, the creating ones with their handle. With no answer, or no room, nothing changes. -/
def Obligations.ThimbleResponsesEndTheirCommands : Prop :=
  ∀ (s : State) (r : ThmRsp) (more : List ThmRsp), s.thm.answers = r :: more →
    (thmUp s = false ∨ rspRoom s = false → Next .thimbleResponse s (fun t => t = s)) ∧
    (thmUp s = true → rspRoom s = true →
      (r.op ≠ 0xD → r.cmd = none → Next .thimbleResponse s (fun t => t.thm = { s.thm with answers := more } ∧
        regField t (aThm 0x14) 4 0 = (regField s (aThm 0x14) 4 0 + 1) % 32 ∧ t.tortin = s.tortin ∧ t.keys = s.keys ∧ t.links = s.links)) ∧
      (∀ tag c op, r.op ≠ 0xD → r.cmd = some tag → Started s tag op c →
        (op = 0x0401 ∨ op = 0x0402 ∨ op = 0x0403 ∨ op = 0x0404 → Next .thimbleResponse s (fun t => t.thm.answers = more ∧
          if r.status = stOk then Ended s t tag c stOk 0 (BitVec.ofNat 64 r.a) else Ended s t tag c r.status)) ∧
        (op = 0x0405 ∨ op = 0x0407 ∨ op = 0x0409 → Next .thimbleResponse s (fun t =>
          t.thm.answers = more ∧ Ended s t tag c r.status)) ∧
        (op = 0x0803 → r.status = stOk → Next .thimbleResponse s (fun t =>
          Ended s t tag c stOk 0 (BitVec.ofNat 64 (r.nums.getD 1 0)) ∧ t.links = s.links)) ∧
        (op = 0x0803 → r.status ≠ stOk → Next .thimbleResponse s (fun t =>
          Ended s t tag c r.status ∧ queueGet t (r.nums.getD 1 0) = none)) ∧
        (op = 0x0301 → r.status = stOk → Next .thimbleResponse s (fun t =>
          Ended s t tag c stOk 0 (BitVec.ofNat 64 (descOwner (heldInput c))) ∧
          tblFind (descOwner (heldInput c)) t.keys.owners = some (descRec s (heldInput c)))) ∧
        (op = 0x0302 → r.status = stOk → Next .thimbleResponse s (fun t =>
          Ended s t tag c stOk ∧ tblFind (par c 52 2) t.keys.owners = none ∧ OtherOwners s t (par c 52 2))) ∧
        (op = 0x080A → r.status = stOk → Next .thimbleResponse s (fun t =>
          Ended s t tag c stOk ∧ cardGet t (par c 52 8) = none)) ∧
        (op = 0x0C03 → r.status ≠ stOk → Next .thimbleResponse s (fun t => Ended s t tag c r.status)) ∧
        (op = 0x0C03 → r.status = stOk → Next .thimbleResponse s (fun t => t.tortin.resetTag = some tag ∧ ∃ x, Ended s t tag c stOk 0 x)) ∧
        (op = 0x0D02 → r.status = stOk → r.nums.headD 0 = 2 → Next .thimbleResponse s (fun t =>
          ∃ x, Ended s t tag c stOk 0 x ∧ t.lc.cert = s.lc.cert))))

/-- A restart zeroes the mailbox and its requests, and Thimble answers again only once it is READY; the third hang within 10 minutes makes it
FAILED, which no restart leaves; when it is READY, the CP gives `RECOVER`, which ends each command that waited on a request that Thimble
had taken with `SECURE_SERVICES_DOWN` (log entry 49). -/
def Obligations.ThimbleRestartsAndRecovers : Prop :=
  ∀ s : State,
    (s.thm.mode ≠ .failed → s.thm.mode ≠ .boot → procRuns s = true → Next .thimbleRestart s (fun t => t.thm.mode = .restarting ∧
      t.thm.restartAt = s.time.clk ∧ t.thm.reqs = [] ∧ t.keys.objs = s.keys.objs)) ∧
    (s.thm.mode = .failed ∨ s.thm.mode = .boot ∨ procRuns s = false → Next .thimbleRestart s (fun t => t = s)) ∧
    (s.thm.mode = .restarting → procRuns s = true → s.time.clk ≤ s.thm.restartAt + 200 * cycMs → Next (.thimbleReady true) s (fun t =>
      t.thm.mode = .ready ∧ t.thm.restarts = (s.thm.restarts + 1) % 256 ∧ t.keys.objs = s.keys.objs)) ∧
    (s.thm.mode = .restarting → procRuns s = true → s.time.clk ≤ s.thm.restartAt + 200 * cycMs → Next (.thimbleReady false) s (fun t =>
      t.thm.mode = .failed ∧ t.thm.reqs = [] ∧ t.thm.answers = [] ∧ t.dev.thmFailed = true)) ∧
    (s.thm.mode = .ready → s.tortin.ready = true → procRuns s = true →
      (s.thm.hangs.filter (fun x => decide (s.time.clk < x + 600 * cycS))).length < 2 → Next (.thimbleHang true) s (fun t =>
        t.thm.mode = .restarting ∧ t.thm.reqs = [] ∧ t.thm.restartAt = s.time.clk)) ∧
    (s.thm.mode = .ready → s.tortin.ready = true → procRuns s = true →
      2 ≤ (s.thm.hangs.filter (fun x => decide (s.time.clk < x + 600 * cycS))).length → Next (.thimbleHang true) s (fun t =>
        t.thm.mode = .failed ∧ t.thm.reqs = [])) ∧
    (thmLate s = false → Next (.thimbleHang false) s (fun t => t = s)) ∧
    (s.thm.mode = .restarting → procRuns s = true → s.thm.restartAt + 200 * cycMs ≤ s.time.clk →
      (s.thm.hangs.filter (fun x => decide (s.time.clk < x + 600 * cycS))).length < 2 → Next .thimbleRestartTimeout s (fun t =>
        t.thm.mode = .restarting ∧ t.thm.restartAt = s.time.clk)) ∧
    (∀ r, Serves s 0x11 r → Next .thmRecover s (fun t => t.thm.lost = [] ∧ t.thm.mode = .ready ∧ t.keys.objs = s.keys.objs)) ∧
    (∀ r q tag c, Serves s 0x11 r → s.thm.lost = [(q, false)] → q.cmd = some tag → Started s tag (cOp c) c →
      Next .thmRecover s (fun t => ∃ d, cmdAt t tag = some d ∧ d.stage = .ended ∧ d.freeTok = true ∧ d.comp.status = stSecDown)) ∧
    (∀ v, (fieldOf v 4 0 + 32 - regField s (aThm 0x18) 4 0) % 32 ≤
        (regField s (aThm 0x14) 4 0 + 32 - regField s (aThm 0x18) 4 0) % 32 →
      Next (.thmRspHeadWrite v) s (fun t => regField t (aThm 0x18) 4 0 = fieldOf v 4 0 ∧ t.thm = s.thm)) ∧
    (∀ v, (regField s (aThm 0x14) 4 0 + 32 - regField s (aThm 0x18) 4 0) % 32 <
        (fieldOf v 4 0 + 32 - regField s (aThm 0x18) 4 0) % 32 →
      Next (.thmRspHeadWrite v) s (fun t => regField t (aThm 0x18) 4 0 = regField s (aThm 0x18) 4 0))

/-! ### Engines -/

/-- The input of a Press command arrives and makes its job ready; a failed read ends the command with `HOST_FAULT`. A `SYM.CTX_CLOSE` ends its
context once no other command of the context has started, and ends those that wait with `ABORTED`; where the context has ended meanwhile, it
completes. A pipeline of Press that may run issues
the oldest ready job of the lowest priority group, where that group is not shared among slices; the last output of a command's job ends
the command with what the operation gives, and the job leaves the list (log entry 26). -/
def Obligations.PressTakesIssuesAndEndsJobs : Prop :=
  (∀ (tag : Nat) (io : HostIO),
     PressInput (.symEncrypt tag io) tag 0x0501 io ∧ PressInput (.symDecrypt tag io) tag 0x0502 io ∧
     PressInput (.symMac tag io) tag 0x0503 io ∧ PressInput (.symMacVerify tag io) tag 0x0504 io ∧
     PressInput (.symHash tag io) tag 0x0505 io ∧ PressInput (.symCtxOpen tag io) tag 0x0506 io ∧
     PressInput (.symCtxUpdate tag io) tag 0x0507 io ∧ PressInput (.symCtxFinish tag io) tag 0x0508 io ∧
     (∀ s c i x, Started s tag 0x0509 c → i = par c 52 4 / 2 ^ 20 → tblFind i s.press.ctxs = some x → ctxId i x = par c 52 4 →
       (s.tortin.tracker.all (fun e => e.1 == tag || !namesCtx e.2 (par c 52 4) || cSlice e.2 != cSlice c) = true →
         Next (.symCtxClose tag) s (fun t => Ended s t tag c stOk ∧ tblFind i t.press.ctxs = none ∧
           ∀ j, j ≠ i → tblFind j t.press.ctxs = tblFind j s.press.ctxs)) ∧
       (∀ n d, n ≠ tag → Started s n (cOp d) d → (cOp d = 0x0507 ∨ cOp d = 0x0508) → par d 52 4 = par c 52 4 → cSlice d = cSlice c →
         Next (.symCtxClose tag) s (fun t => tblFind i t.press.ctxs = some { x with closing := true } ∧
           ∃ e, cmdAt t tag = some e ∧ e.stage = .started))) ∧
     (∀ s c, Started s tag 0x0509 c → tblFind (par c 52 4 / 2 ^ 20) s.press.ctxs = none →
       Next (.symCtxClose tag) s (fun t => Ended s t tag c stOk ∧ t.press = s.press))) ∧
  ((∀ (pipe g : Nat) (s : State) (j : PressJob), pwrMode s = 0 → s.pwr.vault = false → 1 ≤ g → g ≤ 4 →
     (pressWaiting s pipe).find? (fun x => x.group == g) = some j → (∀ x, x ∈ pressWaiting s pipe → g ≤ x.group) →
     Next (.pressJobIssue pipe) s (fun t => ∀ p,
       pipeJobs t p = (pipeJobs s p).map (fun x => if x.order = j.order then { x with running := true } else x))) ∧
   (∀ (pipe : Nat) (s : State), pwrMode s ≠ 0 ∨ s.pwr.vault = true ∨ pressWaiting s pipe = [] →
     Next (.pressJobIssue pipe) s (fun t => t = s)) ∧
   (∀ (pipe job tag op : Nat) (s : State) (c : Cmd), PressEnds s pipe job tag op c →
     (op = 0x0501 ∨ op = 0x0502 ∨ op = 0x0503 ∨ op = 0x0504 ∨ op = 0x0505 → Next (.pressJobDone pipe job) s (fun t =>
       Ended s t tag c (symAnswer s c).2 (symAnswer s c).1.length ∧ t.out = (putOutput s c (symAnswer s c).1).out ∧
       t.press.ctxs = s.press.ctxs ∧ (s.press.waits = [] → ∀ p x, x ∈ pipeJobs t p → x.order ≠ job))) ∧
     (∀ i, op = 0x0506 → tblFree s.press.ctxs 0 4096 = some i → Next (.pressJobDone pipe job) s (fun t =>
       ∃ x e, tblFind i t.press.ctxs = some x ∧ x.gen = ctxGen s i ∧ x.handle = cKeyA c ∧ x.par = symPar c ∧ x.text = [] ∧
         e = ctxId i x ∧ (cmdAt t tag).map (fun d => (d.stage, d.comp.status, d.comp.extra)) = some (.ended, stOk, extra2 e 0))) ∧
     (∀ i x, op = 0x0508 → ctxFind s c = some (i, x) → Next (.pressJobDone pipe job) s (fun t =>
       tblFind i t.press.ctxs = none ∧ ∃ d, cmdAt t tag = some d ∧ d.stage = .ended)) ∧
     (∀ i x, op = 0x0507 → ctxFind s c = some (i, x) → Next (.pressJobDone pipe job) s (fun t =>
       (∃ y, tblFind i t.press.ctxs = some y ∧ y.gen = x.gen ∧ y.handle = x.handle ∧
         if x.par.mode = mGmac then y.aad = x.aad ++ c.work.bytes else y.text = x.text ++ c.work.bytes) ∧
       ∃ d, cmdAt t tag = some d ∧ d.stage = .ended ∧ d.comp.status = stOk))))

/-- The input of a Mangle command arrives and its operations can run; a free slot takes the oldest waiting operation of the lowest group,
where that group is not shared among slices; a hybrid operation goes to two units, and while there is one only, it waits and nothing passes it (log
entry 29); a public key that needs no operation is written at once. The last operation of a Mangle
command ends it, with the private key that the unit's bank holds: a signature after 1,000 attempts at most, the verdict of a verification, a
public key, or a secret or a key pair that leaves through Thimble. -/
def Obligations.MangleTakesRunsAndEndsOperations : Prop :=
  ((∀ (tag : Nat) (io : HostIO),
     MangleInput (.pkSign tag io) tag 0x0601 io ∧ MangleInput (.pkVerify tag io) tag 0x0602 io ∧
     MangleInput (.pkAgree tag io) tag 0x0603 io ∧ MangleInput (.pkEncapsulate tag io) tag 0x0604 io ∧
     MangleInput (.pkDecapsulate tag io) tag 0x0605 io ∧ MangleInput (.pkVerifyBatch tag io) tag 0x0607 io ∧
     (∀ o, Reports (.pkGetPublic tag io) tag 0x0606 io (fun s c => mangleHas s tag = false ∧ keyOf s (cKeyA c) = some o)
       (fun _ _ => pubOf o))) ∧
   (∀ (unit g : Nat) (s : State) (w : MangleWait), pwrMode s = 0 → s.pwr.vault = false → unitFor s none = some unit → 1 ≤ g → g ≤ 3 →
     (s.mangle.waiting.filter (waitMay s)).find? (fun x => x.op.group == g) = some w →
     (∀ x, x ∈ s.mangle.waiting → waitMay s x = true → g ≤ x.op.group) →
     (∀ tag h c, w.op.src = .cmd tag h → cmdAt s tag = some c → c.queued = false) →
     (w.mate = none → Next (.mangleSlotFill unit) s (fun t =>
       (unitOps t unit).map (·.order) = (unitOps s unit).map (·.order) ++ [w.op.order] ∧
       t.mangle.waiting = s.mangle.waiting.filter (fun x => x.op.order != w.op.order))) ∧
     (∀ b v, w.mate = some b → unitFor s (some unit) = some v → Next (.mangleSlotFill unit) s (fun t =>
       (unitOps t unit).map (·.order) = (unitOps s unit).map (·.order) ++ [w.op.order] ∧
       (unitOps t v).map (·.order) = (unitOps s v).map (·.order) ++ [b.order] ∧
       t.mangle.waiting = s.mangle.waiting.filter (fun x => x.op.order != w.op.order))) ∧
     (∀ b, w.mate = some b → unitFor s (some unit) = none → Next (.mangleSlotFill unit) s (fun t => t = s))) ∧
   (∀ (unit : Nat) (s : State), pwrMode s ≠ 0 ∨ s.pwr.vault = true ∨ unitFor s none ≠ some unit →
     Next (.mangleSlotFill unit) s (fun t => t = s))) ∧
  (∀ (unit tag half op : Nat) (s : State) (c : Cmd) (o : MangleOp), MangleEnds s unit tag half op c o →
     (∀ x, op = 0x0601 → pkSignature s unit half o c = x → x.2.1 ≤ 1000 → Next (.mangleOpDone unit false) s (fun t =>
       Ended s t tag c stOk x.1.length (BitVec.ofNat 64 (x.2.1 % 65536 + 65536 * (x.2.2 % 256))) ∧
       t.out = (putOutput s c x.1).out)) ∧
     (op = 0x0601 → 1000 < (pkSignature s unit half o c).2.1 → Next (.mangleOpDone unit false) s (fun t =>
       Ended s t tag c 0x0602 ∧ t.out = s.out)) ∧
     (op = 0x0601 → half = 0 → (sideType s (cKeyA c) 0 0).1 = 0x20 → Next (.mangleOpDone unit true) s (fun t =>
       Ended s t tag c stInternal ∧ t.out = s.out)) ∧
     (op = 0x0602 → Next (.mangleOpDone unit false) s (fun t =>
       Ended s t tag c (if 4 ≤ pkVerdict s c then stBadPoint else if pkVerdict s c ≠ 0 then 0x0601 else stOk) 0
         (BitVec.ofNat 64 (pkVerdict s c)) ∧ t.out = s.out)) ∧
     (op = 0x0605 → Next (.mangleOpDone unit false) s (fun t =>
       Gives s t tag c (bytesAt (Config.decaps (typeOf s (cKeyA c)) (bankGet s unit (cKeyA c)) c.work.bytes) 0 32))) ∧
     (∀ k x, op = 0x0401 → bobbinFor s 3 = true → pairMaterial s (kcType c) (kcSize c) = (some k, x) →
       Next (.mangleOpDone unit false) s (fun t => Gives s t tag c k 5)) ∧
     (∀ x, op = 0x0401 → bobbinFor s 3 = true → pairMaterial s (kcType c) (kcSize c) = (none, x) →
       Next (.mangleOpDone unit false) s (fun t => t = x)) ∧
     (op = 0x0401 → bobbinFor s 3 = false → Next (.mangleOpDone unit false) s (fun t => t = s)) ∧
     (∀ z, op = 0x0603 → par c 52 1 = 0 →
       z = bytesAt (Config.agree (typeOf s (cKeyA c)) (bankGet s unit (cKeyA c)) (((keyOf s (cKeyB c)).map pubOf).getD [])) 0
         (secretLen (typeOf s (cKeyA c))) → agreeZero (typeOf s (cKeyA c)) z = false →
       Next (.mangleOpDone unit false) s (fun t => Gives s t tag c z)) ∧
     (∀ z, op = 0x0603 → par c 52 1 = 0 →
       z = bytesAt (Config.agree (typeOf s (cKeyA c)) (bankGet s unit (cKeyA c)) (((keyOf s (cKeyB c)).map pubOf).getD [])) 0
         (secretLen (typeOf s (cKeyA c))) → agreeZero (typeOf s (cKeyA c)) z = true →
       Next (.mangleOpDone unit false) s (fun t => Ended s t tag c stBadPoint ∧ t.thm = s.thm)) ∧
     (∀ x, op = 0x0606 → keyOf s (cKeyA c) = some x → Next (.mangleOpDone unit false) s (fun t =>
       Ended s t tag c stOk (pubOf x).length ∧ t.out = (putOutput s c (pubOf x)).out)))

/-- A source's start-up test passes over 1,024 raw bits, or fails at a bit and begins again; then each window of 1,024 raw bits is tested: a
failed one adds one to `RNG_SRC_FAILn`, sets `RNG_EVT.SRC_FAIL`, gives the pool nothing and raises no Scorch event; a passed one enters
the pool whole and is counted, where it fits; of windows that end together that of the lower source comes first. Bobbin is instantiated from 512 pooled bits once its known-answer test has passed, and reseeded from 384;
`RNG.RESEED` does so at once and may set `RNG_CFG` and the personalisation string; 2^24 calls without a reseed stop it (log entry 28). -/
def Obligations.LintTestsAndBobbinReseeds : Prop :=
  (∀ (n : Nat) (raw : List Byte) (s : State), n < 8 → raw.length = 128 → rngRuns s = true → rngTest s = false → lintOn s n = true →
     (∀ i, (lintGet s n).ok = false → (healthScan ((rawBits raw).headD false) (rawBits raw) 0 false 0 0).1 = some i →
       (lintGet s n).since + (i + 1) * 25 / 4 ≤ s.time.clk → Next (.lintStartupTestEnd n raw) s (fun t =>
         (lintGet t n).ok = false ∧ (lintGet t n).since = (lintGet s n).since + (i + 1) * 25 / 4 ∧ t.rng.pool = s.rng.pool ∧
         regGet t (aRngSrcFail + 4 * n) = satAdd32 (regGet s (aRngSrcFail + 4 * n)) 1)) ∧
     ((lintGet s n).ok = false → (healthScan ((rawBits raw).headD false) (rawBits raw) 0 false 0 0).1 = none →
       (lintGet s n).since + 6400 ≤ s.time.clk → Next (.lintStartupTestEnd n raw) s (fun t =>
         (lintGet t n).ok = true ∧ t.rng.pool = s.rng.pool ∧ t.regs = s.regs)) ∧
     ((lintGet s n).ok = true → windowTurn s n = false → Next (.lintWindowEnd n raw) s (fun t => t = s)) ∧
     ((lintGet s n).ok = true → (lintGet s n).since + 6400 ≤ s.time.clk → windowTurn s n = true →
       (windowFails s n raw ≠ none → Next (.lintWindowEnd n raw) s (fun t => t.rng.pool = s.rng.pool ∧ t.scorch = s.scorch ∧
         (lintGet t n).ok = true ∧ regGet t (aRngSrcFail + 4 * n) = satAdd32 (regGet s (aRngSrcFail + 4 * n)) 1 ∧
         regGet t (aRngSrcWin + 4 * n) = satAdd32 (regGet s (aRngSrcWin + 4 * n)) 1 ∧ bitOf (regGet t aRngEvt) 5 = true)) ∧
       (windowFails s n raw = none → Next (.lintWindowEnd n raw) s (fun t =>
         t.rng.pool = (if s.rng.pool.length + (condition (lintVn s n) (rawBits raw)).length ≤ 8192
           then s.rng.pool ++ condition (lintVn s n) (rawBits raw) else s.rng.pool) ∧
         regGet t (aRngSrcFail + 4 * n) = regGet s (aRngSrcFail + 4 * n) ∧
         regGet t (aRngSrcWin + 4 * n) = (if s.rng.pool.length + (condition (lintVn s n) (rawBits raw)).length ≤ 8192
           then satAdd32 (regGet s (aRngSrcWin + 4 * n)) 1 else regGet s (aRngSrcWin + 4 * n)))))) ∧
  (∀ s : State, rngRuns s = true →
     (s.rng.inst = false → s.rng.katOk = true → 512 ≤ s.rng.pool.length → Next .bobbinInstantiate s (fun t =>
       t.rng.inst = true ∧ t.rng.limit = false ∧ t.rng.reseeds = 0 ∧ CallsAnew s t ∧ t.rng.pool = s.rng.pool.drop 512 ∧
       bitOf (regGet t aRngEvt) 0 = true)) ∧
     (s.rng.inst = true → s.rng.late = none → 384 ≤ s.rng.pool.length → (reseedDue s || s.rng.woken) = true →
       Next .bobbinAutoReseed s (fun t => Reseeded s t)) ∧
     (s.rng.inst = true → s.rng.late = none → s.rng.pool.length < 384 → reseedDue s = true → Next .bobbinAutoReseed s (fun t =>
       t.rng = { s.rng with late := some s.time.clk } ∧ bitOf (regGet t aRngEvt) 2 = true)) ∧
     (∀ x, s.rng.inst = true → s.rng.late = some x → x + 10 * cycUs ≤ s.time.clk →
       (384 ≤ s.rng.pool.length → Next .bobbinReseedRetry s (fun t => Reseeded s t)) ∧
       (s.rng.pool.length < 384 → Next .bobbinReseedRetry s (fun t => t = { s with rng := { s.rng with late := some s.time.clk } }))) ∧
     (s.rng.inst = true → s.rng.limit = false → 2 ^ 24 ≤ s.rng.calls → Next .bobbinLimitReached s (fun t =>
       t.rng = { s.rng with limit := true } ∧ bitOf (regGet t aRngEvt) 3 = true)) ∧
     (s.rng.katOk = false → s.rng.katFail = none → Next (.bobbinKat true) s (fun t => t.rng.katOk = true) ∧
       Next (.bobbinKat false) s (fun t => t.rng = { s.rng with katFail := some s.time.clk } ∧ bitOf (regGet t aRngEvt) 4 = true)) ∧
     (∀ x, s.rng.katFail = some x → x + cycS ≤ s.time.clk →
       Next (.bobbinKatRetry true) s (fun t => t.rng.katOk = true ∧ t.rng.katFail = none) ∧
       Next (.bobbinKatRetry false) s (fun t => t.rng.katFail = some s.time.clk)) ∧
     (∀ tag io c bs, s.rng.inst = true → 384 ≤ s.rng.pool.length → NextIn (.rngReseed tag io) s tag 0x0702 c io bs (fun t =>
       Ended s t tag c stOk ∧ Reseeded s t ∧
       t.rng.pers = (if bitN (par c 52 1) 1 then bs else s.rng.pers) ∧
       regGet t aRngCfg = (if bitN (par c 52 1) 0 then putField (putField (regGet s aRngCfg) 7 0 (par c 54 1)) 23 16 (par c 55 1)
         else regGet s aRngCfg))))

/-- `RNG.GET` and the FIFOs of the requester classes wait for Bobbin's calls of at most 4,096 B, behind the groups 1 to 5 of R219: the last call of an `RNG.GET` writes its
bytes and ends it; a read of `RNG_DATA` takes the next word of the requester's FIFO, and of an empty FIFO reads 0 with the error of the
read noted; a 2-DW read returns the word with its status, and one with partial byte enables returns zero and takes no word. A read of the CP
that a Hem controller denies returns zero, takes no word, and is a data-access exception (R408). -/
def Obligations.RandomBytesReachTheirConsumers : Prop :=
  ∀ s : State,
    (∀ tag io c, Started s tag 0x0701 c → c.work.step = 0 → Next (.rngGet tag io) s (fun t => Waits t tag c ∧
      t.rng.reqs = s.rng.reqs ++ [{ what := .cmd tag, group := 6, alarm := cAlarm c, left := par c 52 4 }])) ∧
    (∀ k, (rngTest s && bitOf (regGet s aRngTestCtrl) 1) = false → s.rng.inst = true → s.rng.limit = false → k ≤ 2 →
      (tblGet [] s.rng.fifos k).length ≤ 32 → s.rng.reqs.any (fun r => r.what == .fifo k) = false →
      Next (.rngFifoRefill k) s (fun t => t.rng.reqs = s.rng.reqs ++ [{ what := .fifo k, group := 7, left := 128 }])) ∧
    (rngBehind s 6 = true → Next .bobbinCallDone s (fun t => t = s)) ∧
    (∀ r, rngRuns s = true → s.rng.inst = true → s.rng.limit = false → rngNext s = some r →
      (∀ k, r.what = .fifo k → (rngTest s && bitOf (regGet s aRngTestCtrl) 1) = false → Next .bobbinCallDone s (fun t => t.rng.reqs = s.rng.reqs.filter (fun x => x.what != .fifo k) ∧
        tblGet [] t.rng.fifos k = (tblGet [] s.rng.fifos k ++ wordsOf (draw s (min 4096 r.left)).1).take 64)) ∧
      (∀ tag c, r.what = .cmd tag → Started s tag 0x0701 c → r.left ≤ 4096 → c.work.nums = [1] → Delivers s c {} →
        Next .bobbinCallDone s (fun t => t.rng.reqs = s.rng.reqs.filter (fun x => x.what != .cmd tag) ∧
          Ended s t tag c stOk (c.work.bytes ++ (draw s r.left).1).length ∧
          t.out = (putOutput s c (c.work.bytes ++ (draw s r.left).1)).out)) ∧
      (∀ tag c, r.what = .cmd tag → Started s tag 0x0701 c → 4096 < r.left → Next .bobbinCallDone s (fun t =>
        (∃ d, cmdAt t tag = some d ∧ d.stage = .started ∧ d.work.bytes = c.work.bytes ++ (draw s 4096).1) ∧
        t.rng.reqs = s.rng.reqs.map (fun x => if x.what = .cmd tag then { x with left := x.left - 4096 } else x)))) ∧
    (fastPowered s = false → ∀ r form, r.isHost = false → Next (.rngDataRead ⟨r, form⟩) s (fun t => t = s)) ∧
    (∀ p form, s.pwr.vault = false → portThere s p = true → 2 ≤ pwrMode s → Next (.rngDataRead ⟨.fn p, form⟩) s (fun t =>
      HeldIn s t (.rngRead p form) ∧ t.rng = s.rng)) ∧
    (s.pwr.vault = false → pwrMode s ≤ 1 → (cpCheck s .cp aRngData .read).1 = false → ∀ form, Next (.rngDataRead ⟨.cp, form⟩) s (fun t =>
      t.out.head? = some (.reply .cp aRngData 0) ∧ t.rng.fifos = s.rng.fifos ∧ t.dev.cpExc = s.dev.cpExc + 1)) ∧
    (∀ r : Requester, s.pwr.vault = false → pwrMode s ≤ 1 → (∀ p, r = .fn p → portThere s p = true) →
      (cpCheck s r aRngData .read).1 = true →
      (∀ w f, tblGet [] s.rng.fifos r.cls = w :: f →
        Next (.rngDataRead ⟨r, .one⟩) s (fun t => t.out = .reply r aRngData w :: s.out ∧
          tblGet [] t.rng.fifos r.cls = f ∧ tblGet 0 t.rng.outcome r.cls = BitVec.ofNat 32 (f.length * 256)) ∧
        Next (.rngDataRead ⟨r, .two⟩) s (fun t => tblGet [] t.rng.fifos r.cls = f ∧
          t.out = .reply r aRngDataStat (BitVec.ofNat 32 (f.length * 256)) :: .reply r aRngData w :: s.out)) ∧
      (tblGet [] s.rng.fifos r.cls = [] →
        Next (.rngDataRead ⟨r, .one⟩) s (fun t => t.out = .reply r aRngData 0 :: s.out ∧
          tblGet 0 t.rng.outcome r.cls = 1 ∧ bitOf (regGet t aRngEvt) 6 = true) ∧
        Next (.rngDataRead ⟨r, .two⟩) s (fun t => t.out = .reply r aRngDataStat 1 :: .reply r aRngData 0 :: s.out)) ∧
      Next (.rngDataRead ⟨r, .partial_⟩) s (fun t => t.out = .reply r aRngData 0 :: s.out ∧ t.rng = { s.rng with srcs := t.rng.srcs }))

/-! ### Links and groups -/

/-- The commands of ports, queues, rules and enrolment. A `LINK.SEND` puts one sealed frame into each of its queues, under the queue's next
counter, and ends at once, or, where it waits for acknowledgements, once each queue has given an answer; without room in every queue it
waits. -/
def Obligations.LinkCommandsAndSends : Prop :=
  (∀ (tag : Nat) (io : HostIO) (s : State) (c : Cmd) (bs : List Byte),
     (par c 52 2 < 256 → NextIn (.portConfig tag io) s tag 0x0801 c io bs (fun t => Ended s t tag c stOk ∧
       t.links.queues = s.links.queues ∧ regGet t (aLnk (par c 52 2) 0x14) = BitVec.ofNat 32 (par c 62 2) ∧
       regGet t (aLnk (par c 52 2) 0x10) = (if par c 56 2 = 0 then regGet s (aLnk (par c 52 2) 0x10) else BitVec.ofNat 32 (par c 56 2)) ∧
       regGet t (aLnk (par c 52 2) 0x1C) = (if par c 58 2 = 0 then regGet s (aLnk (par c 52 2) 0x1C) else BitVec.ofNat 32 (par c 58 2)) ∧
       bitOf (regGet t (aLnk (par c 52 2) 4)) 31 = bitN (par c 60 1) 0 ∧
       (bitN (par c 60 1) 0 = false → (portGet t (par c 52 2)).mode = .disabled))) ∧
     (∀ x, queueGet s (par c 52 2) = some x → x.rxList = [] ∨ (if bitN (par c 54 2) 5 then byteAt bs 18 else x.dest) ≠ 2 →
       NextIn (.queueModify tag io) s tag 0x0804 c io bs (fun t => Ended s t tag c stOk ∧
       OtherQueues s t (par c 52 2) ∧ ∃ y, queueGet t (par c 52 2) = some y ∧ y.mode = x.mode ∧ y.key = x.key ∧ y.card = x.card ∧
         y.txList = x.txList ∧ y.rxList = x.rxList ∧ y.present = x.present ∧
         y.deadline = (if bitN (par c 54 2) 0 then leAt bs 24 4 else x.deadline) ∧
         y.weight = (if bitN (par c 54 2) 1 then leAt bs 14 2 else x.weight) ∧
         y.rate = (if bitN (par c 54 2) 2 then leAt bs 16 2 else x.rate) ∧
         y.hbPeriod = (if bitN (par c 54 2) 3 then byteAt bs 11 else x.hbPeriod) ∧
         y.dest = (if bitN (par c 54 2) 5 then byteAt bs 18 else x.dest) ∧
         y.peers = (if bitN (par c 54 2) 6 then peersAt bs 64 else x.peers))) ∧
     (∀ x, queueGet s (par c 52 2) = some x → x.mode ≠ .draining → Started s tag 0x0805 c → Next (.queueDestroy tag) s (fun t =>
       (∃ d, cmdAt t tag = some d ∧ d.stage = .started) ∧ OtherQueues s t (par c 52 2) ∧
       ∃ y, queueGet t (par c 52 2) = some y ∧ y.mode = .draining ∧ y.txList = [] ∧ y.rxList = [] ∧ y.present = none ∧ y.gaps = [])) ∧
     (∀ q x, queueGet s q = some x → x.mode = .draining → queueHeld s q = 0 →
       Next (.queueDrained q) s (fun t => queueGet t q = none ∧ OtherQueues s t q) ∧
       (s.tortin.tracker.find? (fun e => e.2.stage == .started && cOp e.2 == 0x0805 && par e.2 52 2 == q) = some (tag, c) →
         cmdAt s tag = some c → Next (.queueDrained q) s (fun t => Ended s t tag c stOk))) ∧
     (∀ q x, queueGet s q = some x → x.mode ≠ .draining ∨ queueHeld s q ≠ 0 → Next (.queueDrained q) s (fun t => t = s)) ∧
     NextIn (.linkClassify tag io) s tag 0x0808 c io bs (fun t => Ended s t tag c stOk ∧
       (∀ n, n ≠ par c 52 2 → tblFind n t.links.rules = tblFind n s.links.rules) ∧
       tblFind (par c 52 2) t.links.rules = if par c 54 1 = 1 then some {
         port := leAt bs 0 2, kind := byteAt bs 2, bits := byteAt bs 3
         header := leAt bs 4 2, target := leAt bs 6 2, addr := bytesAt bs 8 16 } else none) ∧
     (c.work.step = 0 → mangleHas s tag = false → publicValid 0x93 0 (bytesAt bs 120 32) = true →
       publicValid 0xB1 0 (bytesAt bs 152 1568) = true → bobbinFor s 3 = true → offerFree s c = true →
       agreeZero 0x13 (bytesAt (Config.agree 0x13 (drawn s 32) (bytesAt bs 120 32)) 0 32) = false →
       NextIn (.cardEnrol tag io) s tag 0x0809 c io bs (fun t => t.links = s.links ∧ mangleHas t tag = true ∧
         ∃ d, cmdAt t tag = some d ∧ d.stage = .started ∧ d.body = c.body ∧ d.work.step = 2)) ∧
     (c.work.step = 0 → mangleHas s tag = false →
       publicValid 0x93 0 (bytesAt bs 120 32) = false ∨ publicValid 0xB1 0 (bytesAt bs 152 1568) = false ∨
         (bobbinFor s 3 = true ∧ offerFree s c = true ∧
          agreeZero 0x13 (bytesAt (Config.agree 0x13 (drawn s 32) (bytesAt bs 120 32)) 0 32) = true) →
       NextIn (.cardEnrol tag io) s tag 0x0809 c io bs (fun t => Ended s t tag c stBadPoint ∧ t.links = s.links)) ∧
     (c.work.step = 0 → mangleHas s tag = false → publicValid 0x93 0 (bytesAt bs 120 32) = true →
       publicValid 0xB1 0 (bytesAt bs 152 1568) = true → bobbinFor s 3 = false ∨ offerFree s c = false →
       NextIn (.cardEnrol tag io) s tag 0x0809 c io bs (fun t => t.links = s.links ∧ ∃ d, cmdAt t tag = some d ∧ d.stage = .started)) ∧
     (c.work.step = 2 → mangleHas s tag = false → 1000 < c.work.nums.getD 2 0 →
       NextIn (.cardEnrol tag io) s tag 0x0809 c io bs (fun t => Ended s t tag c 0x0602 ∧ t.links = s.links)) ∧
     (c.work.step = 2 → mangleHas s tag = false → c.work.nums.getD 2 0 ≤ 1000 → s.thm.mode = .ready → s.scorch.locked = false →
       PressKeyRoom s → NextIn (.cardEnrol tag io) s tag 0x0809 c io bs (fun t => Waits t tag c ∧
         (cacheEnt t 1 (enrolHandle tag)).isSome = true ∧
         ∃ e, t.links.enrols = s.links.enrols ++ [e] ∧ e.tag = tag ∧ e.card = BitVec.ofNat 64 (leAt bs 0 8) ∧
           e.port = leAt bs 12 2 ∧ e.total = leAt bs 8 4 ∧ e.owner = cOwner s c ∧ e.begun = s.time.clk ∧ e.report = none)) ∧
     (c.work.step = 2 → mangleHas s tag = false → c.work.nums.getD 2 0 ≤ 1000 → s.thm.mode ≠ .ready ∨ s.scorch.locked = true →
       NextIn (.cardEnrol tag io) s tag 0x0809 c io bs (fun t => t.links = s.links ∧ ∃ d, cmdAt t tag = some d ∧ d.stage = .started)) ∧
     (c.work.step ≠ 1 → mangleHas s tag = true → NextIn (.cardEnrol tag io) s tag 0x0809 c io bs (fun t => t.links = s.links ∧
       (∃ d, cmdAt t tag = some d ∧ d.stage = .started ∧ d.work = c.work) ∧
       ∀ o h, o ∈ mangleAll t → o.src = .cmd tag h → o.ready = true))) ∧
  (∀ (tag : Nat) (io : HostIO) (s : State) (c : Cmd) (bs : List Byte), c.mirror = false →
     (c.work.step = 0 → sendChains s bs (sendQueues c) = none → NextIn (.linkSend tag io) s tag 0x0806 c io bs (fun t =>
       t.links = s.links ∧ t.hamper = s.hamper ∧ (isPrimary s = false → t.out = s.out) ∧ ∃ d, cmdAt t tag = some d ∧ d.stage = .started)) ∧
     (c.work.step = 0 → (sendChains s bs (sendQueues c)).isSome = true → NextIn (.linkSend tag io) s tag 0x0806 c io bs (fun t =>
       (∀ q x k, q ∈ sendQueues c → queueGet s q = some x → x.present = some k → ∃ y f, queueGet t q = some y ∧
         y.txCtr = x.txCtr + 1 ∧ y.txList = x.txList ++ [f] ∧ f.ctr = x.txCtr ∧ f.sent = 0 ∧ f.enqAt = s.time.clk ∧
         f.cmd = (if par c 58 1 = 1 then some tag else none) ∧
         f.bytes = ffpSeal k.key ffData (b2n (ackReq x)) q x.epoch x.txCtr (nowStamp s) (par c 56 2) bs) ∧
       (∀ q, q ∉ sendQueues c → queueGet t q = queueGet s q) ∧
       (par c 58 1 ≠ 1 → Ended s t tag c stOk 0 (extra2 (par c 54 2) 0)) ∧
       (par c 58 1 = 1 → ∃ d, cmdAt t tag = some d ∧ d.stage = .started ∧ d.work.step = 1 ∧ d.work.nums = sendQueues c))) ∧
     (c.work.step ≠ 0 → c.work.nums.all (fun n => decide (2 ^ 16 ≤ n)) = true → Delivers s c io →
       NextIn (.linkSend tag io) s tag 0x0806 c io bs (fun t => Ended s t tag c
         (if (c.work.nums.filter (fun n => n / 2 ^ 16 == 1)).length = c.work.nums.length then stOk else 0x080B)
         ((c.work.nums.length + 7) / 8)
         (extra2 c.work.nums.length (c.work.nums.filter (fun n => n / 2 ^ 16 == 1)).length))))

/-- A port's link comes up from training, goes down, and is forced to idle for 1 ms; an alarm frame leaves as often as its queue says; a
received payload reaches the next free slot of its receive ring; the oldest held frame leaves its hold ring (log entry 35). A frame that
passes every check of R276, and for which Press has a place (R157), marks its counter in the receive window and does what its type says; one whose counter is not new, or that does
not authenticate, changes nothing of its queue but a count. -/
def Obligations.FramesAreTransmittedAndAccepted : Prop :=
  (∀ (p : Nat) (s : State), p < 256 →
     ((portGet s p).mode ≠ .disabled → s.pwr.vault = false → Next (.portReset p) s (fun t => (portGet t p).mode = .idleForced ∧
       (portGet t p).idleAt = s.time.clk ∧ ∀ r, r ≠ p → portGet t r = portGet s r)) ∧
     ((portGet s p).mode = .disabled ∨ s.pwr.vault = true → Next (.portReset p) s (fun t => t = s)) ∧
     (∀ rem, (portGet s p).mode = .training ∨ (portGet s p).mode = .down → bitOf (regGet s (aLnk p 4)) 31 = true → pwrMode s ≠ 3 →
       s.pwr.vault = false → Next (.portLinkUp p rem) s (fun t => (portGet t p).mode = .up ∧ (portGet t p).remote = rem ∧
         bitOf (regGet t (aLnk p 8)) 0 = true)) ∧
     (∀ loc rem, (portGet s p).mode = .up → Next (.portLinkDown p loc rem) s (fun t => (portGet t p).mode = .down ∧
       (portGet t p).localF = loc ∧ (portGet t p).remote = rem ∧ bitOf (regGet t (aLnk p 8)) 1 = true)) ∧
     ((portGet s p).mode = .idleForced → (portGet s p).idleAt + cycMs ≤ s.time.clk →
       Next (.portIdleForcedEnd p) s (fun t => (portGet t p).mode = .training)) ∧
     (∀ q x f, portUp s p = true →
       (rotate (portGet s p).lastA (tblKeys (fun y => txQueueReady s p y && y.cls == 0) s.links.queues)).head? = some q →
       queueGet s q = some x → x.cls = 0 → txNext s x = some f → Next (.frameTransmitted p) s (fun t =>
         (portGet t p).lastA = q ∧ t.out.length = s.out.length + x.repeats ∧ OtherQueues s t q ∧
         ∃ y, queueGet t q = some y ∧ y.sent = x.sent + (if f.sent = 0 then 1 else 0))) ∧
     (tblKeys (fun y => txQueueReady s p y) s.links.queues = [] → Next (.frameTransmitted p) s (fun t => t = s)) ∧
     (∀ q x f more, queueGet s q = some x → x.rxList = f :: more → x.dest = 0 → hostSilent s = false → seamReleased s f.jseq = true →
       (sliceGet s x.slice).mode = .active → f.payload.length ≤ 2 ^ x.rxSize → cqRoom s x.slice x.rxCq = true →
       x.rxOut.length < 2 ^ x.rxSlots → fnLive s (sliceGet s x.slice).port = true → retryOf s (.cqWrite x.slice x.rxCq) = none →
       Next (.receiveDelivery q true) s (fun t => OtherQueues s t q ∧ ∃ y, queueGet t q = some y ∧ y.rxList = more ∧
         y.rxNext = (x.rxNext + 1) % 2 ^ x.rxSlots ∧ y.rxOut.length = x.rxOut.length + 1)) ∧
     (∀ f, pwrMode s < 2 → s.pwr.vault = false → holdNext s = some (p, f) → Next .holdRingRelease s (fun t =>
       (portGet t p).ring = (portGet s p).ring.drop 1)) ∧
     (∀ kind f, kind ∈ receiveKinds → portUp s p = true → (portGet s p).hold = false → s.links.waits = [] → Next (receiveRow kind p f false) s (fun t =>
       t.links = s.links ∧ t.keys = s.keys ∧ regGet t (aLnk p 0x120) = satAdd32 (regGet s (aLnk p 0x120)) 1))) ∧
  (∀ (p q kind : Nat) (f : List Byte) (x : Queue) (h : FfpHdr) (s : State), p < 256 → kind ∈ receiveKinds → FrameFor s p f kind q x h →
     (ffHbClass kind = false → (rxChain s p q f (nowStamp s)).isSome = true) →
     (∀ a k, x.held = false → queueTakes x kind = true → keyReg x h.epoch = some (a, k) →
       replayNew k.win (ffHbClass kind) (ffSeq h) = true → rxOnAir x kind = false → pressFree s = false → Next (receiveRow kind p f true) s (fun t =>
         queueGet t q = some x ∧ ∃ w, t.links.waits = [w] ∧ w.port = p ∧ w.queue = q ∧ w.frame = h)) ∧
     (∀ k, pressFree s = true → x.held = false → queueTakes x kind = true → keyReg x h.epoch = some (false, k) →
       (replayNew k.win (ffHbClass kind) (ffSeq h) = false → Next (receiveRow kind p f true) s (fun t =>
         queueGet t q = some { x with replays := x.replays + 1 } ∧ OtherQueues s t q ∧ t.links.cards = s.links.cards)) ∧
       (replayNew k.win (ffHbClass kind) (ffSeq h) = true → gcmOpen k.key (ffpNonce h.queue h.epoch h.ctr) h.raw h.body h.tag = none →
         Next (receiveRow kind p f true) s (fun t =>
           queueGet t q = some { x with authFail := x.authFail + 1 } ∧ OtherQueues s t q ∧ t.links.cards = s.links.cards))) ∧
     (∀ k pl, pressFree s = true → FrameOpens x h k pl →
       (kind = 1 → s.seam.role ≠ .follower → x.dest ≠ 2 → Next (.ffpDataReceived p f true) s (fun t => ∃ y, queueGet t q = some y ∧
         y.present = some (regMarked k h) ∧ y.accepted = x.accepted + 1 ∧ y.lastRx = nowStamp s ∧
         y.ackDue = x.ackDue ++ (if h.epoch = x.epoch ∧ bitN h.flags 0 = true then [ffSeq h] else []) ∧
         ((y.drops = satAdd32 x.drops 1 ∧ y.rxList = x.rxList) ∨
           ∃ g, y.rxList = x.rxList ++ [g] ∧ g.payload = pl ∧ g.ctr = h.ctr ∧ g.app = h.app))) ∧
       (kind = 2 → Next (.ffpAckReceived p f true) s (fun t => ∃ y, queueGet t q = some y ∧ y.present = some (regMarked k h) ∧
         y.txList = x.txList.filter (fun g => !(decide (g.sent ≠ 0 ∧ txEpoch g = h.epoch) && ackNames pl g.ctr)))) ∧
       (kind = 6 → x.cls = 2 → Next (.ffpRetransmitReqReceived p f true) s (fun t => ∃ y, queueGet t q = some y ∧
         y.present = some (regMarked k h) ∧ y.txList = x.txList.map (fun g =>
           if g.sent ≠ 0 && txEpoch g == h.epoch && ackNames pl g.ctr && decide (s.time.clk < g.firstAt.getD 0 + deadlinePart x 4) then { g with again := true }
           else g))) ∧
       (kind = 3 → Next (.ffpHeartbeatReceived p f true) s (fun t => ∃ y, queueGet t q = some y ∧ y.present = some (regMarked k h) ∧
         y.hbLast = some s.time.clk ∧ y.hbLost = false ∧ y.heard = byteAt pl 0 % 8)) ∧
       (∀ r, kind = 5 → beAt pl 0 8 = x.card.toNat → cardGet s x.card.toNat = some r → s.seam.role ≠ .follower →
         Next (.ffpCardReportReceived p f true) s (fun t => ∃ r', cardGet t x.card.toNat = some r' ∧ r'.report = capStamp s ∧
           r'.left = (if reportChanges r (beAt pl 12 4) (beAt pl 18 2) then min r.left (beAt pl 12 4) else r.left) ∧
           r'.key = r.key ∧ r'.conf = r.conf)) ∧
       (kind = 5 → beAt pl 0 8 ≠ x.card.toNat → Next (.ffpCardReportReceived p f true) s (fun t => t.links.cards = s.links.cards))))

/-- The timers of queues: acknowledgements owed leave in one ACK; an open gap asks for retransmission; a `CONTROL` frame is sent again, then
given up; stale frames are freed and counted; a lost heartbeat is declared. An ACK waits, with nothing done, until the lease entry that covers its
counter is acknowledged, and a REKEY frame until that of its epoch is (R313). The timers of cards and enrolments, and what a card's first
report and Thimble's acceptance of its secret do. -/
def Obligations.QueueAndCardTimers : Prop :=
  (∀ (q : Nat) (x : Queue) (s : State), queueGet s q = some x →
     (∀ k, x.ackDue ≠ [] → x.ackAt + 100 * cycUs ≤ s.time.clk → x.mode = .active → x.held = false → linkDecides s = true →
       portUp s x.port = true → pressFree s = true → x.present = some k → ctrCovered (leaseCtr s q x).2 (leaseCtr s q x).1 x.txCtr = true →
       Next (.ackSendTimer q) s (fun t => (∃ b, t.out.head? = some (.frame x.port b)) ∧ OtherQueues s t q ∧
         ∃ y, queueGet t q = some y ∧ y.txCtr = x.txCtr + 1 ∧ y.sent = x.sent + 1 ∧
           y.ackDue = x.ackDue.filter (fun n => decide (x.ackDue.foldl min (x.ackDue.headD 0) + 64 ≤ n)))) ∧
     (s.seam.role = .follower ∨ x.held = true → Next (.ackSendTimer q) s (fun t => t = s) ∧ Next (.gapRetransmitReq q) s (fun t => t = s)) ∧
     (∀ k base more, (x.gaps.filter (fun e => decide (e.2 + deadlinePart x 1 ≤ s.time.clk))).map (·.1) = base :: more → x.present = some k →
       linkDecides s = true → portUp s x.port = true → pressFree s = true → x.mode = .active → x.held = false →
       ctrCovered (leaseCtr s q x).2 (leaseCtr s q x).1 x.txCtr = true →
       Next (.gapRetransmitReq q) s (fun t => (∃ b, t.out.head? = some (.frame x.port b)) ∧
         ∃ y, queueGet t q = some y ∧ y.txCtr = x.txCtr + 1 ∧ y.txList = x.txList ∧
           y.gaps = x.gaps.filter (fun e => !(base :: more.filter (fun c => decide (c < base + 64))).contains e.1))) ∧
     ((x.gaps.filter (fun e => decide (e.2 + deadlinePart x 1 ≤ s.time.clk))) = [] → Next (.gapRetransmitReq q) s (fun t => t = s)) ∧
     (∀ k, x.present = some k → ctrCovered (leaseCtr s q x).2 (leaseCtr s q x).1 x.txCtr = false →
       Next (.ackSendTimer q) s (fun t => ∃ y, queueGet t q = some y ∧ y.txCtr = x.txCtr ∧ y.ackDue = x.ackDue)) ∧
     (x.cls = 2 → Next (.controlRetransmitTimer q) s (fun t => OtherQueues s t q ∧ ∃ y, queueGet t q = some y ∧
       y.txList = x.txList.map (fun f => match f.firstAt with
         | some a => if f.fired < 3 ∧ a + (f.fired + 1) * retransInterval x ≤ s.time.clk ∧ s.time.clk < a + deadlinePart x 4 then
             { f with fired := f.fired + 1, again := true } else f
         | none => f))) ∧
     (x.cls ≠ 2 → Next (.controlRetransmitTimer q) s (fun t => queueGet t q = some x)) ∧
     (Next (.controlGiveUp q) s (fun t => OtherQueues s t q ∧ ∃ y, queueGet t q = some y ∧
       y.txList = x.txList.filter (fun f => !(f.firstAt.any (fun a => decide (a + deadlinePart x 4 ≤ s.time.clk)))) ∧
       y.givenUp = x.givenUp + (x.txList.length - y.txList.length))) ∧
     (s.seam.role = .follower → x.dup = false → Next (.staleFrameFree q) s (fun t => t = s)) ∧
     (s.seam.role ≠ .follower ∨ x.dup = true → Next (.staleFrameFree q) s (fun t => OtherQueues s t q ∧ ∃ y, queueGet t q = some y ∧
       y.txList = x.txList.filter (fun f => !txStale s x f) ∧ y.stale = x.stale + (x.txList.length - y.txList.length))) ∧
     (x.hbLast.isSome = true → x.air = true → x.hbLost = false →
       x.hbStamp.toNat + 2 ^ 32 * 3 * x.hbPeriod / 1000 < (nowStamp s).toNat →
       Next (.heartbeatLoss q) s (fun t => queueGet t q = some { x with hbLost := true, hbLosses := x.hbLosses + 1 })) ∧
     (x.air = false ∨ x.hbLost = true → Next (.heartbeatLoss q) s (fun t => t = s))) ∧
  (∀ (id : Nat) (s : State),
     (∀ x ch, cardGet s id = some x → x.change = some ch →
       (linkServes s = true → ch.due = false → ch.lastTx + 100 * cycMs ≤ s.time.clk → Next (.rekeyResend id) s (fun t =>
         cardGet t id = some { x with change := some { ch with lastTx := s.time.clk } } ∧
         ∀ y, queueGet s ch.queue = some y → y.held = false → s.seam.role ≠ .follower ∨ y.dup = true → portUp s y.port = true →
           ∃ b, t.out = .frame y.port b :: s.out)) ∧
       (linkServes s = true → ch.due = true → seamReleased s ch.jseq = true → pressFree s = true → Next (.rekeyResend id) s (fun t =>
         cardGet t id = some { x with change := some { ch with lastTx := s.time.clk, begun := s.time.clk, due := false } } ∧
         ∀ y, queueGet s ch.queue = some y → y.held = false → s.seam.role ≠ .follower ∨ y.dup = true → portUp s y.port = true →
           ∃ b, t.out = .frame y.port b :: s.out)) ∧
       (ch.due = true → seamReleased s ch.jseq = false → Next (.rekeyResend id) s (fun t => t = s)) ∧
       (linkServes s = false → Next (.rekeyResend id) s (fun t => t = s))) ∧
     (∀ x ch, cardGet s id = some x → x.change = some ch → s.seam.role ≠ .follower → ch.due = false → ch.begun + cycS ≤ s.time.clk →
       Next (.rekeyTimeout id) s (fun t =>
       cardGet t id = some { x with change := none } ∧
       (∀ q y, queueGet t q = some y → y.card.toNat = id → y.adjacent = none) ∧
       ∀ tag c, ch.cmd = some tag → cmdAt s tag = some c → Ended s t tag c 0x0807)) ∧
     (∀ x a, cardGet s id = some x → x.confAt = some a → a + cycS ≤ s.time.clk → x.change = none → s.seam.role ≠ .follower →
       Next (.adjacentEpochClear id) s (fun t => cardGet t id = some { x with confAt := none } ∧
         ∀ q y, queueGet t q = some y → y.card.toNat = id → y.adjacent = none)) ∧
     (∀ x, s.tortin.ready = true → s.seam.role ≠ .follower → s.seam.role ≠ .fenced → s.seam.role ≠ .forming → s.scorch.locked = false →
       s.links.cards = [(id, x)] →
       cardQueues s id ≠ [] → (cardQueues s id).all (fun y => y.2.present.isNone) = true → rekeyRefusal s id x = stOk → x.conf ≠ 0 →
       thmRoom s = true → Next .postResetRekey s (fun t => t.thm.reqs = s.thm.reqs ++ [{
         op := 0xD, tag := s.thm.nextTag, nums := [id, x.offered + 1], taken := s.time.clk }])) ∧
     (∀ e, enrolOf s id = some e → e.report = none →
       (e.lastTx + cycS ≤ s.time.clk → Next (.enrolOfferResend id) s (fun t =>
         enrolOf t id = some { e with lastTx := s.time.clk } ∧
         (linkServes s = true → portUp s e.port = true → ∃ b, t.out = .frame e.port b :: s.out))) ∧
       (∀ c, e.begun + 5 * cycS ≤ s.time.clk → cmdAt s e.tag = some c →
         (∀ d, d ∈ s.links.enrols → d.card.toNat = id → d.tag = e.tag) → Next (.enrolTimeout id) s (fun t =>
         enrolOf t id = none ∧ Ended s t e.tag c 0x0806))) ∧
     (∀ p f h e c k pl, p < 256 → portUp s p = true → (portGet s p).hold = false → rxWhole s p f true = none →
       (∃ src body, rxEncap s p f = .ffp src body ∧ h = ffpRead src body (f.length + 4)) → ffpHdrOk s p h = true → h.queue = 0xFFFF →
       s.links.enrols = [e] → e.port = p → peerAddr s p (e.peers.getD s.seam.index {}) = h.src →
       cacheEnt s 1 (enrolHandle e.tag) = some k → pressFree s = true → s.scorch.locked = false ∨ e.cont = true →
       gcmOpen k.material (ffpNonce 0xFFFF h.epoch h.ctr) h.raw h.body h.tag = some pl → h.kind = ffReport → beAt pl 0 8 = e.card.toNat →
       e.report = none → e.asked = false → thmRoom s = true → cmdAt s e.tag = some c → Next (.enrolmentReportReceived p f true) s (fun t =>
         (enrolOf t e.card.toNat).map (·.report) = some (some (beAt pl 12 4, beAt pl 18 2, beAt pl 20 4, nowStamp s)) ∧
         ∃ r, t.thm.reqs = s.thm.reqs ++ [r] ∧ r.op = 8 ∧ r.secret = e.master ∧ r.cmd = some e.tag)) ∧
     (∀ ok0 ok1 r, Serves s 8 r →
       (r.nums.drop 8 = [] → Next (.thmAccept ok0 ok1) s (fun t => Stored s t r ok0 ok1 (r.nums.getD 1 0) (fillObj s r r.secret))) ∧
       (∀ n more e, r.nums.drop 8 = n :: more → enrolOf s n = some e → Next (.thmAccept ok0 ok1) s (fun t =>
         if flashTakes s ok0 ok1 then tblFind (r.nums.getD 1 0) t.keys.objs = some (fillObj s r r.secret) ∧
           Answered s t r stOk (keyHandle (r.nums.getD 1 0) (fillObj s r r.secret))
         else t.keys.objs = s.keys.objs ∧ Answered s t r 0x0406)) ∧
       (∀ n more, r.nums.drop 8 = n :: more → enrolOf s n = none → Next (.thmAccept ok0 ok1) s (fun t =>
         Answered s t r stAborted ∧ t.keys = s.keys))))

/-- The commands of the group. A `SEAM.FORM` whose input does not fit the member ends with 0x0906, and one that has not formed a group within
60 s with 0x0901. A trained link greets its neighbour; a member of the group opens a session on the right cable, and one on another cable
does not. What draws from Bobbin waits until Bobbin serves (R214). The formation exchange gives every member the group key; a packet that does not pass changes nothing but `SEAM_AUTH_FAIL`. -/
def Obligations.SeamCommandsAndSessions : Prop :=
  (∀ (tag : Nat) (io : HostIO) (s : State) (c : Cmd) (bs : List Byte),
     (s.seam.forming = none → formInputOk s bs = true →
       (∀ m, m < byteAt bs 0 → m ≠ byteAt bs 1 → publicValid 0xB1 0 (formKeyK bs m) = true) →
       NextIn (.seamForm tag io) s tag 0x0901 c io bs (fun t =>
         t.seam.role = .forming ∧ t.seam.forming = some tag ∧ t.seam.formAt = s.time.clk ∧ t.seam.size = byteAt bs 0 ∧
         t.seam.index = byteAt bs 1 ∧ ∃ d, cmdAt t tag = some d ∧ d.stage = .started)) ∧
     (∀ m, s.seam.forming = none → formInputOk s bs = true → m < byteAt bs 0 → m ≠ byteAt bs 1 → publicValid 0xB1 0 (formKeyK bs m) = false →
       NextIn (.seamForm tag io) s tag 0x0901 c io bs (fun t => Ended s t tag c stBadPoint ∧ t.seam.role = s.seam.role ∧
         t.seam.forming = none ∧ t.seam.peers = s.seam.peers)) ∧
     (s.seam.forming = none → formInputOk s bs = false → NextIn (.seamForm tag io) s tag 0x0901 c io bs (fun t =>
       Ended s t tag c 0x0906 ∧ t.seam.role = s.seam.role ∧ t.seam.forming = none ∧ t.seam.peers = s.seam.peers)) ∧
     (s.seam.forming = some tag → s.seam.role = .forming → s.seam.formAt + 60 * cycS ≤ s.time.clk → cmdAt s tag = some c →
       ((seamOthers s).all (partnerFound s) = false → Next .seamFormTimeout s (fun t => Ended s t tag c 0x0901 ∧ t.seam.role = .alone ∧
         t.seam.forming = none ∧ t.seam.size = 0)) ∧
       ((seamOthers s).all (partnerFound s) = true → (seamOthers s).all (fun m => (seamLinkTo s m).isSome) = false →
         Next .seamFormTimeout s (fun t => Ended s t tag c 0x0906 ∧ t.seam.role = .alone ∧ t.seam.forming = none ∧ t.seam.size = 0)) ∧
       ((seamOthers s).all (partnerFound s) = true → (seamOthers s).all (fun m => (seamLinkTo s m).isSome) = true →
         Next .seamFormTimeout s (fun t => t = s))) ∧
     (s.seam.role ≠ .forming → Next .seamFormTimeout s (fun t => t = s)) ∧
     (Started s tag 0x0902 c → c.mirror = false → par c 52 1 = 0xFF ∨ par c 52 1 = s.seam.index → isPrimary s = false ∨ releaseSet s = [] →
       bobbinServes s = false → Next (.seamLeave tag) s (fun t => t = s)) ∧
     (Started s tag 0x0902 c → c.mirror = false → par c 52 1 = 0xFF ∨ par c 52 1 = s.seam.index → isPrimary s = false ∨ releaseSet s = [] →
       bobbinServes s = true → Next (.seamLeave tag) s (fun t => Ended s t tag c stOk ∧ t.seam.role = .alone ∧ t.seam.key = [] ∧ t.seam.size = 0 ∧
         t.links.queues = [] ∧ t.keys.objs.length = 0)) ∧
     (Started s tag 0x0902 c → c.mirror = false → par c 52 1 ≠ 0xFF → par c 52 1 ≠ s.seam.index → Next (.seamLeave tag) s (fun t =>
       Ended s t tag c stOk ∧ (seamPeer t (par c 52 1)).serial = 0 ∧ t.keys.objs = s.keys.objs)) ∧
     (Started s tag 0x0904 c → c.mirror = false → s.seam.switch = none → isPrimary s = true → seamSettled s = false →
       Next (.seamSwitchover tag) s (fun t => t.seam.switch = some (par c 52 1, s.time.clk) ∧ t.seam.role = .primary)) ∧
     (Started s tag 0x0904 c → c.mirror = false → s.seam.switch = none → isPrimary s = true → seamSettled s = true →
       s.seam.unsent = [] → budgetFits s (0, entrySize (.role 1 (par c 52 1))) = true →
       s.scorch.locked = false → s.thm.mode = .ready → par c 52 1 < s.seam.peers.length → Next (.seamSwitchover tag) s (fun t =>
         t.seam.switch = none ∧ t.seam.role = .follower ∧ (seamPeer t (par c 52 1)).role = 1)) ∧
     (Started s tag 0x0905 c → Next (.seamResync tag) s (fun t => Ended s t tag c stOk ∧ t.keys = s.keys ∧ t.links = s.links)) ∧
     (Started s tag 0x0906 c → Next (.seamSetWitness tag) s (fun t => Ended s t tag c stOk ∧
       t.seam = { s.seam with quorum := par c 52 2, solo := par c 56 4 }))) ∧
  (∀ (l : Nat) (s : State), l < s.seam.links.length →
     (∀ lat, (seamLink s l).mode = .down ∨ (seamLink s l).mode = .training ∨ (seamLink s l).mode = .fault ∨
         (seamLink s l).mode = .aligned ∨ ((seamLink s l).mode = .hello ∧ (seamLink s l).fresh = false) → s.pwr.vault = false →
       (bobbinFor s 4 = true → Next (.seamLinkTrained l lat) s (fun t => (seamLink t l).mode = .hello ∧ (seamLink t l).tx = lat / 2 ^ 16 ∧
         (seamLink t l).rx = lat % 2 ^ 16 ∧ (seamLink t l).nonce = drawn s 32 ∧ (seamLink t l).fresh = true ∧
         ∃ p, t.out = .seam (seamHeader p) p (seamTag p) :: s.out ∧ p.load.code = 1)) ∧
       (bobbinFor s 4 = false → Next (.seamLinkTrained l lat) s (fun t => (seamLink t l).mode = .aligned ∧
         (seamLink t l).tx = lat / 2 ^ 16 ∧ (seamLink t l).rx = lat % 2 ^ 16 ∧ t.out = s.out))) ∧
     (∀ lat, s.pwr.vault = true → Next (.seamLinkTrained l lat) s (fun t => t = s)) ∧
     ((seamLink s l).mode = .up → (seamLink s l).fresh = false → (seamLink s l).farNew = false → bobbinFor s 4 = true →
       Next (.seamSessionRenew l) s (fun t => (seamLink t l).nonce = drawn s 32 ∧ (seamLink t l).fresh = true ∧
         (seamLink t l).mode = .up ∧ ∃ p, t.out = .seam (seamHeader p) p (seamTag p) :: s.out ∧ p.load.code = 1)) ∧
     ((seamLink s l).mode = .up → (seamLink s l).fresh = false → bobbinFor s 4 = false → Next (.seamSessionRenew l) s (fun t => t = s)) ∧
     ((seamLink s l).mode ≠ .up → (seamLink s l).mode ≠ .hello → Next (.seamSessionRenew l) s (fun t => t = s)) ∧
     (∀ p serial index v tx rx n, p.load = .hello serial index v tx rx n → (seamLink s l).mode = .hello ∨ (seamLink s l).mode = .up →
       (s.seam.size = 0 → Next (.seamHelloReceived l p) s (fun t => (seamLink t l).theirs = n ∧ (seamLink t l).farTx = tx ∧
         (seamLink t l).farRx = rx ∧ t.out = s.out)) ∧
       (s.seam.size ≠ 0 → index ≠ cablePeer s.seam.size s.seam.index l ∨ serial ≠ (seamPeer s (cablePeer s.seam.size s.seam.index l)).serial →
         Next (.seamHelloReceived l p) s (fun t => (seamLink t l).peer = 0xFE ∧ t.out = s.out)) ∧
       (s.seam.size ≠ 0 → index = cablePeer s.seam.size s.seam.index l → serial = (seamPeer s index).serial → index < 3 →
         index < s.seam.peers.length → s.seam.key ≠ [] → (seamLink s l).theirs ≠ n ∨ (seamLink s l).farNew = true →
         (seamLink s l).fresh = true ∨ (bobbinFor s 4 = true ∧ ((seamLink s l).peer ≠ index ∨ (seamLink s l).theirs ≠ n)) →
         Next (.seamHelloReceived l p) s (fun t =>
           (seamLink t l).mode = .up ∧ (seamLink t l).peer = index ∧ (seamLink t l).theirs = n ∧ (seamLink t l).rxSeq = 0 ∧
           (seamLink t l).farTx = tx ∧ (seamLink t l).farRx = rx ∧ (seamLink t l).fresh = false ∧ (seamLink t l).farNew = false ∧
           (seamPeer t index).lost = false ∧ (seamPeer t index).version = v))) ∧
     (∀ m p, (seamLink s l).peer = m → m < 3 → m < s.seam.peers.length → s.seam.role = .forming → s.seam.forming.isSome = true →
       s.seam.index ≠ 0 →
       (∀ ct, p.load = .formCt ct → Next (.seamFormReceived l p) s (fun t => (seamPeer t m).ctTheirs = ct ∧ t.seam.role = .forming)) ∧
       (∀ pair id k, p.load = .formKey pair id k → s.seam.key = [] → m = 0 →
         (pairZero s m = false → pair = pairSecret s m →
           Next (.seamFormReceived l p) s (fun t => t.seam.key = k ∧ t.seam.group = id)) ∧
         (pairZero s m = false → pair ≠ pairSecret s m →
           Next (.seamFormReceived l p) s (fun t => t.seam.role = .alone ∧ t.seam.key = [] ∧
             ∀ tag c, s.seam.forming = some tag → cmdAt s tag = some c → Ended s t tag c 0x0906)) ∧
         (pairZero s m = true → Next (.seamFormReceived l p) s (fun t => t.seam.role = .alone ∧ t.seam.key = [] ∧
           ∀ tag c, s.seam.forming = some tag → cmdAt s tag = some c → Ended s t tag c stBadPoint)))) ∧
     (∀ i p, PacketRow i l p → (seamLink s l).mode = .up → seamPass s l p = false →
       (p.key ≠ (seamLink s l).key → Next i s (fun t =>
         t.seam = s.seam ∧ regGet t aSeamAuthFail = satAdd32 (regGet s aSeamAuthFail) 1)) ∧
       (p.key = (seamLink s l).key → Next i s (fun t => t = s))) ∧
     (∀ i p, PacketRow i l p → (seamLink s l).mode ≠ .up → Next i s (fun t => t = s)))

/-- What the packets of a session do: heartbeats, journal entries in order, acknowledgements, uplinks, resynchronisation and farewell (log
entries 7 and 38). The timers of links and group: heartbeats every 50 µs, of which four misses lose a link; acknowledgements coalesced for
20 µs; checkpoints every 10 ms; the witness probe decides after 100 µs; a follower whose time diverges for 10 s is fenced; a rejoining
member that is best placed, or alone past its solo-start time, becomes primary. -/
def Obligations.SeamPacketsAndTimers : Prop :=
  (∀ (l m : Nat) (p : SeamPacket) (s : State), From s l m p →
     (∀ r tm ap g t2 t3 arr asym, p.load = .heartbeat r tm ap g t2 t3 →
       (s.seam.role ≠ .follower ∨ ∀ k, (seamPeer s k).lost = false) → Next (.seamHeartbeatReceived l p arr asym) s (fun t =>
         (seamLink t l).heard = s.time.clk ∧ (seamLink t l).missed = 0 ∧ (seamLink t l).t1 = p.stamp ∧ (seamLink t l).t2 = arr ∧
         (seamPeer t m).role = r ∧ (seamPeer t m).term = tm ∧ (seamPeer t m).applied = ap ∧ (seamPeer t m).reach = g)) ∧
     (∀ tm ap g t2 t3 arr asym pr, p.load = .heartbeat 2 tm ap g t2 t3 → s.seam.role = .follower → s.seam.inSync = true → s.seam.size = 3 →
       s.seam.index < m → m < 3 → seamPrimary s = some pr → pr ≠ m → (seamPeer s pr).lost = true → (seamPeer s m).lost = false →
       bitN g pr = false → Next (.seamHeartbeatReceived l p arr asym) s (fun t =>
         t.seam.role = .primary ∧ t.seam.term = s.seam.term + 1)) ∧
     (∀ e n x, p.load = .journal [e] → e.body = .owner n x → s.seam.role = .follower → s.seam.waiting = [] → s.seam.term ≤ e.term →
       tagsOf s (fun c => c.mirror && c.closed && c.stage == .ended) = [] →
       (e.seq = s.seam.applied + 1 → Next (.seamJournalReceived l p) s (fun t => t.seam.applied = e.seq ∧ t.seam.term = e.term ∧
         t.seam.waiting = [] ∧ tblFind n t.keys.owners = x ∧ OtherOwners s t n)) ∧
       (s.seam.applied + 1 < e.seq → Next (.seamJournalReceived l p) s (fun t => t.seam.applied = s.seam.applied ∧
         t.seam.waiting = [e] ∧ t.keys = s.keys ∧ regGet t aSeamNakCnt = satAdd32 (regGet s aSeamNakCnt) 1)) ∧
       (e.seq ≤ s.seam.applied → Next (.seamJournalReceived l p) s (fun t => t.seam.applied = s.seam.applied ∧ t.keys = s.keys))) ∧
     (∀ tm seq, p.load = .ack tm seq → s.seam.role = .primary → tm ≤ s.seam.term → Next (.seamAckReceived l p) s (fun t =>
       (seamPeer t m).acked = max (seamPeer s m).acked (min seq s.seam.applied))) ∧
     (∀ tm a b, p.load = .nak tm a b → s.seam.role = .primary → Next (.seamNakReceived l p) s (fun t =>
       regGet t aSeamNakCnt = satAdd32 (regGet s aSeamNakCnt) 1 ∧ t.seam.buffer = s.seam.buffer)) ∧
     (∀ q x e, p.load = .upLease q e → s.seam.role = .primary → queueGet s q = some x → Next (.seamUplinkReceived l p) s (fun t =>
       queueGet t q = some (hbEndPut m e x) ∧ t.seam.applied = s.seam.nextSeq ∧ t.seam.nextSeq = s.seam.nextSeq + 1)) ∧
     (∀ k n x, p.load = .snapshot k n x → s.seam.role = .follower ∨ s.seam.role = .fenced → s.seam.forming = none → s.scorch.locked = false →
       k = 0 ∨ k = s.seam.snapGot →
       (k + 1 < n → Next (.seamResyncReceived l p) s (fun t => t.seam.snapGot = k + 1 ∧ t.keys = s.keys ∧ t.links = s.links)) ∧
       (n ≤ k + 1 → Next (.seamResyncReceived l p) s (fun t => t.seam.applied = x.seq ∧ t.seam.term = x.term ∧
         t.tortin.saveCnt = x.saves ∧ t.keys.objs = x.objs ∧ t.keys.owners = x.owners ∧ t.needle.progs = x.progs ∧
         (tagsOf s (·.mirror) = [] → t.slices = slicesMirror s x.slices) ∧
         ((t.seam.role = .follower ∧ t.seam.inSync = true) ∨
          (t.seam.role = s.seam.role ∧ t.seam.inSync = s.seam.inSync ∧ chipUp t.boot.chip0 = false ∧ chipUp t.boot.chip1 = false))))) ∧
     (∀ seq, p.load = .inSync seq → s.seam.role = .primary → Next (.seamResyncReceived l p) s (fun t =>
       (seamPeer t m).inSync = true ∧ (seamPeer t m).lost = false ∧ (seamPeer t m).acked = min seq s.seam.applied ∧ (seamPeer t m).role = 2)) ∧
     (∀ cause, p.load = .farewell cause → Next (.seamFarewellReceived l p) s (fun t => (seamPeer t m).lost = true ∧
       (seamLink t l).mode = .hello ∧ (seamLink t l).key = []))) ∧
  (∀ (l : Nat) (s : State),
     (l < s.seam.links.length → (seamLink s l).mode = .up → s.pwr.vault = false → cpHalted s = false → (seamLink s l).sentAt + 50 * cycUs ≤ s.time.clk →
       s.seam.unsent = [] → s.seam.switch = none → (seamLink s l).txSeq < 2 ^ 48 →
       Next (.seamHeartbeatSend l) s (fun t => (seamLink t l).sentAt = s.time.clk ∧ (seamLink t l).t3 = nowStamp s ∧
         ∃ p, t.out = .seam (seamHeader p) p (seamTag p) :: s.out ∧ p.load.code = 3 ∧ p.stamp = nowStamp s)) ∧
     (l < s.seam.links.length → (seamLink s l).mode = .up → (seamLink s l).heard + ((seamLink s l).missed + 1) * 50 * cycUs ≤ s.time.clk →
       ((seamLink s l).missed + 1 < 4 → Next (.seamHeartbeatMiss l) s (fun t => (seamLink t l).missed = (seamLink s l).missed + 1 ∧
         (seamLink t l).mode = .up ∧ regGet t aSeamHbMiss = satAdd32 (regGet s aSeamHbMiss) 1)) ∧
       (4 ≤ (seamLink s l).missed + 1 → Next (.seamHeartbeatMiss l) s (fun t => (seamLink t l).mode = .hello ∧ (seamLink t l).key = []))) ∧
     (l < s.seam.links.length → Next (.seamLinkLoss l) s (fun t => (seamLink t l).mode = .down)) ∧
     (s.seam.role = .follower → s.seam.ackOwed = true → s.seam.ackAt + 20 * cycUs ≤ s.time.clk → (seamPrimary s).isSome = true →
       Next .seamAckCoalesce s (fun t => t.seam.ackOwed = false ∧ t.seam.applied = s.seam.applied)) ∧
     (isPrimary s = true → s.seam.checkAt + 10 * cycMs ≤ s.time.clk → Next .checkpointTimer s (fun t => t.seam.checkAt = s.time.clk ∧
       t.seam.applied = s.seam.nextSeq ∧ t.seam.nextSeq = s.seam.nextSeq + 1)) ∧
     (∀ a, s.seam.driftAt = some a → s.seam.role = .follower → a + 10 * cycS ≤ s.time.clk → Next .timeDivergenceFence s (fun t =>
       t.seam.role = .fenced ∧ regField t aSeamCause 7 0 = 2)) ∧
     (∀ a, s.seam.probeAt = some a → a + 100 * cycUs ≤ s.time.clk →
       (isPrimary s = true → Next .witnessProbeTimeout s (fun t => t.seam.probeAt = none ∧
         t.seam.role = if witnessQuorum s ≤ (witnessAnswers s a s.seam.index).1 then .primary else .fenced)) ∧
       (s.seam.role = .follower → Next .witnessProbeTimeout s (fun t => t.seam.probeAt = none ∧
         if witnessQuorum s ≤ (witnessAnswers s a ((seamPrimary s).getD 0)).2 ∧
             (witnessAnswers s a ((seamPrimary s).getD 0)).1 < (witnessAnswers s a ((seamPrimary s).getD 0)).2
         then t.seam.role = .primary ∧ t.seam.term = s.seam.term + 1 else t.seam.role = .follower))) ∧
     (s.seam.role = .follower → s.seam.isolated = true → s.seam.size = 2 → s.seam.inSync = true → s.seam.probeAt = none →
       s.seam.probed + 10 * cycMs ≤ s.time.clk → Next .witnessReprobe s (fun t => t.seam.probeAt = some s.time.clk)) ∧
     (s.seam.role = .fenced → s.scorch.locked = false → s.scorch.pfw = false → s.thm.mode = .ready →
       ∀ m, seamPrimary s = some m → s.seam.asks.length < 4 → (seamLinkTo s m).isSome = true → Next .resyncRequestRetry s (fun t =>
         t.seam.asks = s.seam.asks.filter (fun a => decide (s.time.clk < a + askWindow)) ++ [s.time.clk])) ∧
     (s.seam.role = .forming → s.seam.forming = none → s.seam.key ≠ [] → s.seam.formAt + 5 * cycS ≤ s.time.clk →
       ((seamOthers s).filter (fun m => (seamPeer s m).checked && !(seamPeer s m).lost)) ≠ [] →
       (∀ m, m ∈ seamOthers s → (seamPeer s m).committed < s.keys.nextSeq - 1) →
       Next .rejoinWaitTimeout s (fun t => t.seam.role = .primary ∧ t.seam.term = s.seam.term + 1)) ∧
     (s.seam.role = .forming → s.seam.forming = none → s.seam.size = 2 → s.seam.solo ≠ 0 → s.seam.formAt + s.seam.solo * cycS ≤ s.time.clk →
       (seamOthers s).all (fun m => (seamPeer s m).lost) = true →
       Next .soloStartTimeout s (fun t => t.seam.role = .primary ∧ t.seam.term = s.seam.term + 1)))

/-! ### Tally, time and power -/

/-- The controller takes the earliest append (log entry 50): a repeat folds into the newest record; another takes a free slot, or the oldest
record of a severity no higher, under the next sequence; with neither it is dropped and counted. A slot whose mark stays away is
abandoned, and a flush begins on its triggers. `TALLY.WRITE` appends a host's record and gives its sequence; `TALLY.CLEAR` first lets what
it removes be flushed, then frees the slots and counts them; `TALLY.FLUSH` ends once what was there is flushed; both end with 0x0A01 where
the flush fails. -/
def Obligations.TallyStoresClearsAndFlushes : Prop :=
  (∀ (s : State),
     (∀ p a, tallyAwake s = true → tallyHead s = some (p, a) → a.sev ≠ 0 ∨ tallyDebugOn s = true →
       (∀ n x, tallyNewest s = some (n, x) → foldsInto s x a → Next (.tallyAppend false) s (fun t =>
         t.tally.nextSeq = s.tally.nextSeq ∧ tblFind n t.tally.slots = some { x with
           flushed := false, rcd := { x.rcd with rep := min (x.rcd.rep + 1) 0xFFFFFFFF, last := a.stamp } })) ∧
       ((∀ n x, tallyNewest s = some (n, x) → ¬ foldsInto s x a) →
         (∀ n cut, tblFree s.tally.slots 0 4096 = some n → Next (.tallyAppend cut) s (fun t =>
           t.tally.nextSeq = s.tally.nextSeq + 1 ∧ ∃ x, tblFind n t.tally.slots = some x ∧ x.valid = !cut ∧ x.rcd.app = a ∧
             x.rcd.seq = s.tally.nextSeq ∧ x.rcd.rep = 0 ∧ x.rcd.ct = ctAt s a.stamp)) ∧
         (∀ n x, tblFree s.tally.slots 0 4096 = none → tallyVictim s a.sev = some (n, x) → Next (.tallyAppend false) s (fun t =>
           t.tally.nextSeq = s.tally.nextSeq + 1 ∧
           t.tally.overwritten = (if x.flushed then s.tally.overwritten else satAdd32 s.tally.overwritten 1) ∧
           ∃ y, tblFind n t.tally.slots = some y ∧ y.rcd.app = a ∧ y.rcd.seq = s.tally.nextSeq)) ∧
         (tblFree s.tally.slots 0 4096 = none → tallyVictim s a.sev = none → Next (.tallyAppend false) s (fun t =>
           t.tally.slots = s.tally.slots ∧ t.tally.nextSeq = s.tally.nextSeq ∧ t.tally.dropped = true ∧
           regGet t aTlyDropped = satAdd32 (regGet s aTlyDropped) 1)))) ∧
     (∀ n x, tblFind n s.tally.slots = some x →
       (x.valid = false → tallyAwake s = true → x.taken + 10 * cycUs ≤ s.time.clk → Next (.tallySlotAbandon n) s (fun t =>
         tblFind n t.tally.slots = none ∧ t.tally.abandoned = satAdd32 s.tally.abandoned 1)) ∧
       (x.valid = true → Next (.tallySlotAbandon n) s (fun t => t = s))) ∧
     (s.tally.flush = none → tallyAwake s = true → flushOrder s ≠ [] →
       (flushDue s = true → s.tally.flashFail = false → Next .tallyFlushBegin s (fun t =>
         t.tally.flush = some { todo := flushOrder s } ∧ t.tally.slots = s.tally.slots)) ∧
       (s.tally.flashFail = true → s.tally.failAt + cycS ≤ s.time.clk → Next .tallyFlushRetry s (fun t =>
         t.tally.flush = some { todo := flushOrder s } ∧ t.tally.slots = s.tally.slots)))) ∧
  (∀ (tag : Nat) (io : HostIO) (s : State) (c : Cmd),
     (∀ bs, NextIn (.tallyWrite tag io) s tag 0x0A03 c io bs (fun t => ∃ sq, Ended s t tag c stOk 0 (BitVec.ofNat 64 sq) ∧
       (sq = 0 ∨ ∃ e, e ∈ t.tally.slots ∧ e.2.valid = true ∧ e.2.rcd.seq = sq ∧
         e.2.rcd.app.body = .host ((cSlice c).getD 0xFFFF) (cOwner s c) (par c 54 2) bs))) ∧
     (∀ qs, qs = clearSet s (par c 52 1) (if par c 56 8 = 0 then s.tally.nextSeq - 1 else par c 56 8) → Started s tag 0x0A02 c →
       c.work.step = 0 →
       (anyUnflushed s qs = false → Next (.tallyClear tag) s (fun t => ∃ sq, Ended s t tag c stOk 0
           (extra2 (s.tally.slots.filter (fun e => e.2.valid && qs.contains e.2.rcd.seq)).length sq) ∧
         bitOf (regGet t aTlyEvt) 3 = true ∧
         ∀ e, e ∈ t.tally.slots → e.2.valid = true → e.2.rcd.seq ∈ qs → s.tally.nextSeq ≤ e.2.rcd.seq)) ∧
       (anyUnflushed s qs = true → Next (.tallyClear tag) s (fun t => t.tally.slots = s.tally.slots ∧ t.tally.want = true ∧
         ∃ d, cmdAt t tag = some d ∧ d.stage = .started ∧ d.work.step = 1 ∧ d.work.nums = qs))) ∧
     (Started s tag 0x0A02 c → c.work.step ≠ 0 → anyUnflushed s c.work.nums = true → leNat c.work.bytes < s.tally.flushFails.toNat →
       Next (.tallyClear tag) s (fun t => Ended s t tag c 0x0A01 ∧ t.tally.slots = s.tally.slots)) ∧
     (Started s tag 0x0A05 c → c.work.step = 0 →
       (tallyUnflushed s = [] → Next (.tallyFlush tag) s (fun t => Ended s t tag c stOk)) ∧
       (tallyUnflushed s ≠ [] → Next (.tallyFlush tag) s (fun t => t.tally.want = true ∧
         ∃ d, cmdAt t tag = some d ∧ d.stage = .started ∧ d.work.nums = (tallyUnflushed s).map (·.seq)))) ∧
     (Started s tag 0x0A05 c → c.work.step ≠ 0 →
       (anyUnflushed s c.work.nums = false → Next (.tallyFlush tag) s (fun t => Ended s t tag c stOk 0 (extra2 c.work.nums.length 0))) ∧
       (anyUnflushed s c.work.nums = true → leNat c.work.bytes < s.tally.flushFails.toNat →
         Next (.tallyFlush tag) s (fun t => Ended s t tag c 0x0A01))))

/-- The commands of time and power policy, and the reads that latch a clock. What disciplines the Stamp: measurements from a second's edge or
PTP, the servo's correction once a second, a commanded step, and what a lost source, reference or crystal leaves. -/
def Obligations.TimeCommandsReadsAndEvents : Prop :=
  (∀ (tag : Nat) (s : State) (c : Cmd),
     (Started s tag 0x0B02 c → Next (.timeSetCt tag) s (fun t =>
       Ended s t tag c stOk ∧ t.time.acc = s.time.acc ∧ t.time.ctBack = false ∧ bitOf (regGet t aTimeSrcStat) 7 = false ∧
       regGet64 t aTimeCtBaseLo aTimeCtBaseHi + (c.started >>> 8) = BitVec.ofNat 64 (par c 52 8))) ∧
     (∀ here, Started s tag 0x0B03 c → here = true ∨ par c 52 1 = 0 → Next (.timeSetSource tag here) s (fun t =>
       Ended s t tag c stOk ∧ t.time.groupSrc = par c 52 1 ∧ t.time.ptpPort = par c 54 2 ∧ t.time.ptpDomain = par c 56 1 ∧
       t.time.srcAt = s.time.clk ∧ t.time.meas = [] ∧ t.time.ptpSet = false ∧ t.time.lastPps = s.time.lastPps ∧
       regField t aTimeCtrl 2 0 = (if ownSource s then par c 52 1 % 8 else regField s aTimeCtrl 2 0) ∧
       regField t aTimeSrcStat 2 0 = (if s.time.ctBack then 0 else timeSrc t) ∧
       bitOf (regGet t aTimeSrcStat) 4 = (s.time.ctBack && bitOf (regGet s aTimeSrcStat) 4))) ∧
     (Started s tag 0x0B03 c → par c 52 1 ≠ 0 → Next (.timeSetSource tag false) s (fun t => Ended s t tag c 0x0B01 ∧ t.time = s.time)) ∧
     (Started s tag 0x0B04 c → Next (.timeSetPpsOut tag) s (fun t => Ended s t tag c stOk ∧ t.time.ppsWidth = par c 53 1 ∧
       regField t aTimeCtrl 7 6 = par c 52 1 % 4)) ∧
     (Started s tag 0x0B05 c → Next (.timeSleepPolicy tag) s (fun t => Ended s t tag c stOk ∧
       regField t aPwrCtrl 1 0 = par c 52 1 % 4 ∧ regGet t aPwrAirIdle = BitVec.ofNat 32 (par c 56 4) ∧
       regGet t aPwrWarmIdle = BitVec.ofNat 32 (par c 60 2))) ∧
     (Started s tag 0x0B06 c → Next (.timeStandby tag) s (fun t =>
       Ended s t tag c stOk ∧ t.pwr.standby = some tag ∧ t.time.wakeSeen = false ∧
       regGet64 t aTimeWakeLo aTimeWakeHi = BitVec.ofNat 64 (par c 52 8))) ∧
     (specTime s c).map (·.late) = (if cOp c = 0x0B02 then some (if timeSrc s = 2 ∧ s.time.ctBack = false then 0x0B02 else stOk)
       else if cOp c = 0x0B06 then some (if s.seam.role ≠ .alone ∨ s.scorch.locked = true then 0x0B02 else stOk)
       else (specTime s c).map (fun _ => stOk)) ∧
     (∀ r, s.pwr.vault = false → pwrMode s ≤ 1 → (r.isHost = false → procRuns s = true) → (∀ p, r = .fn p → portThere s p = true) →
       (cpCheck s r aTimeNowLo .read).1 = true → (cpCheck s r aTimeCtLo .read).1 = true →
       Next (.timeNowLoRead r) s (fun t => t.out = .reply r aTimeNowLo ((nowStamp s).extractLsb' 0 32) :: s.out ∧ t.time = s.time ∧
         latchGet t r aTimeNowHi = (nowStamp s).extractLsb' 32 32) ∧
       Next (.timeCtLoRead r) s (fun t => t.out = .reply r aTimeCtLo ((nowCt s).extractLsb' 0 32) :: s.out ∧ t.time = s.time)) ∧
     (∀ p, s.pwr.vault = false → portThere s p = true → 2 ≤ pwrMode s →
       Next (.timeNowLoRead (.fn p)) s (fun t => HeldIn s t (.loRead p aTimeNowLo)) ∧
       Next (.timeCtLoRead (.fn p)) s (fun t => HeldIn s t (.loRead p aTimeCtLo))) ∧
     (∀ r, s.pwr.vault = true → Next (.timeNowLoRead r) s (fun t => t = s) ∧ Next (.timeCtLoRead r) s (fun t => t = s))) ∧
  (∀ s : State,
     (s.time.stepAsked = true → s.pwr.vault = false → ∀ adj, adj = toSigned 64 (regGet64 s aTimeAdjLo aTimeAdjHi).toNat →
       (0 ≤ adj → Next .timeStep s (fun t => t.time.acc = s.time.acc + BitVec.ofNat 96 (adj.toNat * 2 ^ 32) ∧
         t.time.stepAsked = false)) ∧
       (adj < 0 → Next .timeStep s (fun t => t.time.acc = s.time.acc ∧ t.time.corr = .backward ∧
         t.time.corrLeft = adj.natAbs * 2 ^ 32 ∧ t.time.corrEnd = 0 ∧ t.time.stepAsked = false))) ∧
     (servoReady s = true → bitOf (regGet s aTimeCtrl) 9 = false →
       (meanOf (servoTake s) < -1000000 → Next .servoUpdate s (fun t => t.time.meas = [] ∧ t.time.servoAt = s.time.clk ∧
         t.time.corr = .none ∧ t.time.acc = s.time.acc + BitVec.ofNat 96 (nsToAcc (meanOf (servoTake s)).natAbs))) ∧
       (1000000 < meanOf (servoTake s) → Next .servoUpdate s (fun t => t.time.meas = [] ∧ t.time.servoAt = s.time.clk ∧
         t.time.acc = s.time.acc ∧ t.time.corr = .backward ∧ t.time.corrLeft = corrSpan (meanOf (servoTake s))))) ∧
     (servoReady s = false → Next .servoUpdate s (fun t => t = s)) ∧
     (s.pwr.vault = false → (∀ a, s.time.lastPps = some a → 225000000 ≤ s.time.clk - a) → Next .ppsInEdge s (fun t =>
       t.time.lastPps = some s.time.clk ∧ regGet64 t aTimePpsLo aTimePpsHi = capStamp s ∧
       t.time.meas = (if timeSrc s = 1 ∧ s.time.ctBack = false then s.time.meas ++ [ctFraction s] else s.time.meas))) ∧
     (∀ a, s.pwr.vault = false → s.time.lastPps = some a → s.time.clk - a < 225000000 → Next .ppsInEdge s (fun t =>
       t.time = s.time ∧ bitOf (regGet t aTimeStat) 7 = true)) ∧
     (timeSrc s = 1 → sourceSilent s s.time.lastPps 2 = true →
       Next .ppsSourceTimeout s (fun t => bitOf (regGet t aTimeSrcStat) 4 = true)) ∧
     (timeSrc s = 2 → sourceSilent s s.time.lastSync 3 = true →
       Next .ptpSyncTimeout s (fun t => bitOf (regGet t aTimeSrcStat) 4 = true)) ∧
     (s.pwr.vault = false → s.time.ppsDue = true → Next .ppsOutSecond s (fun t =>
       t = { s with time := { s.time with ppsDue := false, ppsOut := true, ppsRise := s.time.clk } })) ∧
     (s.pwr.vault = true ∨ s.time.ppsDue = false → Next .ppsOutSecond s (fun t => t = s)) ∧
     (s.time.ppsOut = true → s.time.ppsRise + s.time.ppsWidth * cycMs ≤ s.time.clk → Next .ppsOutPulseEnd s (fun t =>
       t.time.ppsOut = false)) ∧
     (s.pwr.vault = false → s.time.rtcDue = true → Next .rtcCopy s (fun t =>
       t.time.rtc = BitVec.ofNat 64 ((nowCt s).toNat / 2 ^ 24 * 2 ^ 24) ∧ t.time.rtcPart = 0 ∧ t.time.rtcDue = false)) ∧
     (s.pwr.vault = true ∨ s.time.rtcDue = false → Next .rtcCopy s (fun t => t = s)) ∧
     Next .rtcCrystalStop s (fun t => bitOf (regGet t aTimeSrcStat) 7 = true ∧ bitOf (regGet t aTimeStat) 10 = true) ∧
     (s.pwr.vault = false → ∀ alive,
       (∀ r, nextRef s alive = some r → Next (.airingRefLoss alive) s (fun t => regField t aTimeSrcStat 15 12 = r)) ∧
       (nextRef s alive = none → Next (.airingRefLoss alive) s (fun t => bitOf (regGet t aTimeSrcStat) 6 = true))) ∧
     (∀ p f m d, p < 256 → portUp s p = true → (portGet s p).hold = false → rxWhole s p f true = none → rxEncap s p f = .ptp m →
       s.tortin.ready = true →
       (byteAt m 0 % 16 = 1 → byteAt m 4 = s.time.ptpDomain → pwrMode s < 2 → ptpMaster s p = true → (portGet s p).ptp.length < 64 → Next (.ptpMessageReceived p f true d) s (fun t =>
         ∃ bs, t.out = .ptp p 9 bs :: s.out)) ∧
       (byteAt m 0 % 16 = 0 → ptpSlave s p (byteAt m 4) = true → (portGet s p).ptp.length < 64 →
         Next (.ptpMessageReceived p f true d) s (fun t => ∃ e, (portGet t p).ptp = (portGet s p).ptp ++ [e] ∧ e.seq = beAt m 30 2 ∧
           e.stamp = nowStamp s - BitVec.ofNat 64 (nsToStamp (regField s (aLnk p 0x44) 15 0))))) ∧
     (∀ p, p < 256 → ptpMaster s p = true →
       ((portGet s p).syncAt + cycS ≤ s.time.clk → (portGet s p).ptp.length < 64 → Next (.ptpMasterSync p) s (fun t =>
         (∃ a b, t.out = .ptp p 8 b :: .ptp p 0 a :: s.out) ∧ t.time.syncSeq = s.time.syncSeq + 1 ∧ (portGet t p).syncAt = s.time.clk)) ∧
       ((portGet s p).annAt + cycS ≤ s.time.clk → Next (.ptpAnnounce p) s (fun t =>
         (∃ b, t.out = .ptp p 0xB b :: s.out) ∧ t.time.annSeq = s.time.annSeq + 1 ∧ (portGet t p).annAt = s.time.clk))))

/-- The power states: WARM after its idle time; an entry into AIRING after its own begins with every port on its hold ring and `ENTERING` set, is
reversed by a wake source, and ends with the pool lost; a cause that the mask allows begins a wake, with `EXITING` set, and the device is ACTIVE
20 µs later (R42, R43, R45, Table 2-6). -/
def Obligations.PowerStates : Prop :=
  ∀ s : State,
    (pwrMode s = 0 → bitOf (regGet s aPwrCtrl) 0 = true → s.pwr.fastLast + regField s aPwrWarmIdle 15 0 * 5 / 2 ≤ s.time.clk →
      s.pwr.vault = false → pwrHeld s = false → Next .warmEntry s (fun t => pwrMode t = 1 ∧ t.rng.pool = s.rng.pool)) ∧
    (pwrMode s = 1 → Next .warmExit s (fun t => pwrMode t = 0 ∧ t.pwr.fastLast = s.time.clk)) ∧
    (pwrMode s < 2 → bitOf (regGet s aPwrCtrl) 1 = true → airingIdle s = true → s.scorch.locked = false → s.pwr.vault = false →
      pwrHeld s = false → s.pwr.idleLast + regField s aPwrAirIdle 23 0 * cycUs ≤ s.time.clk → Next .airingEntry s (fun t =>
        (s.pwr.entering = 0 → pwrMode t = pwrMode s ∧ bitOf (regGet t aPwrState) 3 = true ∧ t.pwr.entering = 1 ∧
          (∀ p, p < 256 → (portGet t p).hold = true) ∧ t.keys = s.keys))) ∧
    (s.pending = [] → s.pwr.vault = false → pwrMode s < 2 → s.pwr.leaving = none → s.pwr.standby = none → 2 ≤ s.pwr.entering → ∃ t, step s = .next t ∧
      pwrMode t = 2 ∧ t.pwr.entering = 0 ∧ bitOf (regGet t aPwrState) 3 = false ∧ t.rng.pool = [] ∧ t.rng.fifos = []) ∧
    (∀ cause, cause < 12 → s.pwr.vault = false → bitOf (regGet s aPwrWakeMask) cause = true → s.pwr.leaving = none → pwrMode s < 2 →
      s.pwr.entering ≠ 0 → Next (.airingWake cause) s (fun t => pwrMode t = 0 ∧ t.pwr.entering = 0 ∧ regField t aPwrState 4 3 = 0 ∧
        regField t aPwrState 15 8 = cause)) ∧
    (∀ t0, s.pending = [] → s.pwr.vault = false → pwrMode s = 2 → s.pwr.entering = 0 → s.pwr.held = [] → s.pwr.standby = none → s.pwr.leaving = some t0 →
      (t0 + wakeDone ≤ s.time.clk + 1 → ∃ t, step s = .next t ∧ pwrMode t = 0 ∧ t.pwr.leaving = none ∧ bitOf (regGet t aPwrState) 4 = false) ∧
      (s.time.clk + 1 < t0 + wakeDone → ∃ t, step s = .next t ∧ pwrMode t = 2 ∧ t.pwr.leaving = some t0)) ∧
    (airingIdle s = false ∨ s.scorch.locked = true → Next .airingEntry s (fun t => t = s)) ∧
    (∀ cause, cause < 12 → s.pwr.vault = false → bitOf (regGet s aPwrWakeMask) cause = true → s.pwr.leaving = none →
      (pwrMode s = 2 → Next (.airingWake cause) s (fun t => WokeFor s t cause)) ∧
      (pwrMode s = 3 → cause ≠ 2 → cause ≠ 3 → Next (.standbyWake cause) s (fun t => WokeFor s t cause))) ∧
    (∀ cause, bitOf (regGet s aPwrWakeMask) cause = false → Next (.airingWake cause) s (fun t => t = s) ∧
      Next (.standbyWake cause) s (fun t => t = s)) ∧
    (regGet64 s aTimeWakeLo aTimeWakeHi ≠ 0 → s.time.wakeSeen = false →
      (regGet64 s aTimeWakeLo aTimeWakeHi).toNat ≤ (nowStamp s).toNat → s.pwr.vault = false → bitOf (regGet s aPwrWakeMask) 4 = true →
      2 ≤ pwrMode s → pwrMode s ≤ 3 → s.pwr.leaving = none →
      Next .wakeTimerExpiry s (fun t => t.time.wakeSeen = true ∧ WokeFor s t 4)) ∧
    (s.pwr.vault = false → ∀ pin rising, (bitOf (regGet s (aGpio (if rising then 0xC else 0x10))) pin = false →
      pin < 32 → Next (.gpioEdge pin rising) s (fun t => bitOf (regGet t (aGpio 0)) pin = rising ∧ t.pwr = s.pwr)) ∧
      (bitOf (regGet s (aGpio (if rising then 0xC else 0x10))) pin = true → bitOf (regGet s (aGpio 0x14)) pin = true → pin < 32 →
        evtOn s 0 0x800 = [] → pwrMode s = 2 → s.pwr.leaving = none → bitOf (regGet s aPwrWakeMask) 5 = true →
        Next (.gpioEdge pin rising) s (fun t => bitOf (regGet t (aGpio 0)) pin = rising ∧ WokeFor s t 5)))

/-! ### Hamper, DMA and events -/

/-- The operations of the Hamper's port: an allocated chain reads as zeros and belongs to the owner tag; a chain that is freed leaves every
one of its buffers free, and a double free, or one by another owner, frees nothing; a requester without a port is ignored and counted; and while
the fast domain has no power no requester reaches the port. -/
def Obligations.HamperOperations : Prop :=
  ∀ (r : Requester) (as_ : Nat) (s : State),
    (fastPowered s = false → ∀ n b q, Next (.hmpAlloc r as_ n) s (fun t => t = s) ∧ Next (.hmpFree r as_ b) s (fun t => t = s) ∧
      Next (.hmpEnq r as_ b q) s (fun t => t = s) ∧ Next (.hmpDeq r as_ q) s (fun t => t = s) ∧
      Next (.hmpSetlen r as_ b n) s (fun t => t = s)) ∧
    (∀ p tag, fastPowered s = true → opPort r as_ = some (p, tag) →
      (∀ n b u, 1 ≤ n → n ≤ 36 → hmpAlloc s tag n = some (b, u) → Next (.hmpAlloc r as_ n) s (fun t => ∃ a, OpGave t p 0 a ∧
        isChain t a = true ∧ (bufGet t a).owner = tag ∧ (bufGet t a).count = n ∧ (∀ i, i < 256 → bufByte t a i = 0))) ∧
      (∀ n, 1 ≤ n → n ≤ 36 → hmpAlloc s tag n = none → Next (.hmpAlloc r as_ n) s (fun t => OpGave t p 4 0 ∧ SameBufs s t)) ∧
      (∀ n, n = 0 ∨ 36 < n → Next (.hmpAlloc r as_ n) s (fun t => OpGave t p 7 0 ∧ SameBufs s t)) ∧
      (∀ b, isChain s b = true → (bufGet s b).owner = tag → Next (.hmpFree r as_ b) s (fun t => OpGave t p 0 b ∧
        (∀ x, x ∈ chainOf s b → (bufGet t x).held = false) ∧ ∀ x, x ∉ chainOf s b → bufGet t x = bufGet s x)) ∧
      (∀ b, isChain s b = true → (bufGet s b).owner ≠ tag → Next (.hmpFree r as_ b) s (fun t => OpGave t p 2 b ∧ SameBufs s t ∧
        regGet t aHmpFfree = satAdd32 (regGet s aHmpFfree) 1)) ∧
      (∀ b, (bufGet s b).held = false → Next (.hmpFree r as_ b) s (fun t => OpGave t p 1 b ∧ SameBufs s t ∧
        regGet t aHmpDfree = satAdd32 (regGet s aHmpDfree) 1)) ∧
      (∀ b n, isChain s b = true → (bufGet s b).owner = tag → n ≤ 9216 → n ≤ 256 * (bufGet s b).count →
        Next (.hmpSetlen r as_ b n) s (fun t => OpGave t p 0 b ∧ bufGet t b = { bufGet s b with length := n } ∧
          ∀ x, x ≠ b → bufGet t x = bufGet s x)) ∧
      (∀ b n, isChain s b = true → (bufGet s b).owner ≠ tag → Next (.hmpSetlen r as_ b n) s (fun t => OpGave t p 2 b ∧ SameBufs s t)) ∧
      (∀ b q x k, isChain s b = true → (bufGet s b).owner = tag → q ≤ 8191 → tag / 8192 ≠ 4 → enqCode s q (tagOwner s tag) b = 0 →
        queueGet s q = some x → x.present = some k → Next (.hmpEnq r as_ b q) s (fun t => OpGave t p 0 b ∧ OtherQueues s t q ∧
          ∃ y f, queueGet t q = some y ∧ y.txCtr = x.txCtr + 1 ∧ y.txList = x.txList ++ [f] ∧ f.chain = some b ∧ f.ctr = x.txCtr)) ∧
      (∀ b q, isChain s b = true → (bufGet s b).owner ≠ tag → q ≤ 8191 → Next (.hmpEnq r as_ b q) s (fun t => OpGave t p 2 b ∧
        t.links = s.links ∧ SameBufs s t)) ∧
      (∀ q x f more u, queueGet s q = some x → x.dest = 1 → r = .core x.core → x.rxList = f :: more → seamReleased s f.jseq = true →
        hmpTransfer s f.chain tag = some u → Next (.hmpDeq r as_ q) s (fun t => OpGave t p 0 f.chain ∧
          queueGet t q = some { x with rxList := more } ∧ OtherQueues s t q ∧ ∀ b, b ∈ chainOf s f.chain → (bufGet t b).owner = tag)) ∧
      (∀ q x, queueGet s q = some x → x.dest ≠ 1 ∨ r ≠ .core x.core → Next (.hmpDeq r as_ q) s (fun t => OpGave t p 2 0 ∧
        t.links = s.links ∧ SameBufs s t))) ∧
    (fastPowered s = true → opPort r as_ = none → ∀ n b q, Next (.hmpAlloc r as_ n) s (fun t => t.hamper = s.hamper ∧
        regGet t aDevIgnWr = satAdd32 (regGet s aDevIgnWr) 1) ∧
      Next (.hmpFree r as_ b) s (fun t => t.hamper = s.hamper) ∧ Next (.hmpEnq r as_ b q) s (fun t => t.hamper = s.hamper ∧
        t.links = s.links) ∧ Next (.hmpDeq r as_ q) s (fun t => t.hamper = s.hamper ∧ t.links = s.links) ∧
      Next (.hmpSetlen r as_ b n) s (fun t => t.hamper = s.hamper))

/-- A channel's driver starts, pauses, continues, aborts and resumes it, and no one else does; a running channel pauses or is aborted only
after its outstanding reads; a descriptor that is read is begun, or halts the channel with error 5 where it is malformed; data that a channel
reads from the host reaches work memory. `DMA.GRANT` gives channels to a slice and a core, `DMA.REVOKE` aborts and takes them; `EVT.ROUTE` connects a source, a line and a sink; `EVT_FIRE` pulses only a line of
the CP's source, and an enabled event timer fires once a period. -/
def Obligations.DmaChannelsGrantsAndEvents : Prop :=
  (∀ (r : Requester) (c : Nat) (s : State), c < 256 →
     (dmaDrives s r c = false ∨ fastPowered s = false → Next (.dmaStart r c) s (fun t => t = s) ∧ Next (.dmaPause r c) s (fun t => t = s) ∧
       Next (.dmaCont r c) s (fun t => t = s) ∧ Next (.dmaAbort r c) s (fun t => t = s) ∧
       ∀ hi, Next (.dmaResume r c hi) s (fun t => t = s)) ∧
     (dmaDrives s r c = true → fastPowered s = true → dmaFrozen s c = false →
       ((chanGet s c).mode = .idle ∨ (chanGet s c).mode = .stopped ∨ (chanGet s c).mode = .halted → Next (.dmaStart r c) s (fun t =>
         (chanGet t c).mode = .running ∧ (chanGet t c).err = 0 ∧ (chanGet t c).done = 0 ∧
         (chanGet t c).want = .fetch (regGet64 s (aDma c 0x14) (aDma c 0x18)).toNat ∧ ∀ d, d ≠ c → chanGet t d = chanGet s d)) ∧
       ((chanGet s c).mode = .running ∧ dmaReads s c = 0 ∨ (chanGet s c).mode = .waitTrig → Next (.dmaPause r c) s (fun t =>
         chanGet t c = { chanGet s c with mode := .paused, resume := (chanGet s c).mode, stop := none })) ∧
       ((chanGet s c).mode = .running → dmaReads s c ≠ 0 → (chanGet s c).stop = none → Next (.dmaPause r c) s (fun t =>
         chanGet t c = { chanGet s c with stop := some (dmaReads s c, false) })) ∧
       ((chanGet s c).mode = .paused → Next (.dmaCont r c) s (fun t =>
         chanGet t c = { chanGet s c with mode := (chanGet s c).resume })) ∧
       ((chanGet s c).mode ≠ .idle → (chanGet s c).mode ≠ .running ∨ dmaReads s c = 0 → Next (.dmaAbort r c) s (fun t =>
         (chanGet t c).mode = .idle ∧ (chanGet t c).err = 6 ∧ (chanGet t c).desc = none ∧ ∀ d, d ≠ c → chanGet t d = chanGet s d)) ∧
       ((chanGet s c).mode = .running → dmaReads s c ≠ 0 → Next (.dmaAbort r c) s (fun t =>
         chanGet t c = { chanGet s c with stop := some (dmaReads s c, true) } ∧ ∀ d, d ≠ c → chanGet t d = chanGet s d)) ∧
       (∀ hi, (chanGet s c).mode = .stopped → (hi ++ regGet s (aDma c 0x28) : BitVec 64) = regGet64 s (aDma c 0x1C) (aDma c 0x20) →
         Next (.dmaResume r c hi) s (fun t => (chanGet t c).miss = false ∧
           (chanGet t c).want = .relink (regGet64 s (aDma c 0x1C) (aDma c 0x20)).toNat)) ∧
       (∀ hi, (chanGet s c).mode ≠ .stopped → Next (.dmaResume r c hi) s (fun t =>
         chanGet t c = { chanGet s c with miss := true }))) ∧
     (∀ a data tr, fastPowered s = true → (chanGet s c).want = .fetch a → (chanGet s c).mode = .running → (chanGet s c).desc = none →
       retryOf s (.dmaDesc c) = none → dmaMay s c a 32 .read = (0, s) →
       (∀ bs d, dmaFetch s c a 32 data = some bs → descOf a bs = some d → Next (.dmaDescriptorRead c data tr) s (fun t =>
         (chanGet t c).desc = some d ∧ (chanGet t c).done = 0 ∧ (chanGet t c).src = d.src ∧ (chanGet t c).dst = d.dst ∧
         (chanGet t c).mode = (if dTrig d then .waitTrig else .running) ∧
         regGet64 t (aDma c 0x1C) (aDma c 0x20) = BitVec.ofNat 64 d.at_)) ∧
       (∀ bs, dmaFetch s c a 32 data = some bs → descOf a bs = none → Next (.dmaDescriptorRead c data tr) s (fun t =>
         (chanGet t c).mode = .halted ∧ (chanGet t c).err = 5))) ∧
     (fastPowered s = true → (chanGet s c).mode = .waitTrig → Next (.dmaTriggerPulse c) s (fun t => chanGet t c = { chanGet s c with mode := .running })) ∧
     (fastPowered s = true → (chanGet s c).mode ≠ .waitTrig → Next (.dmaTriggerPulse c) s (fun t => t.dma = s.dma ∧
       regGet t (aDma c 0x3C) = satAdd32 (regGet s (aDma c 0x3C)) 1)) ∧
     (∀ d iova m off n bs tr, fastPowered s = true → (chanGet s c).mode = .running → (chanGet s c).desc = some d → dSrcChain d = false → dDstChain d = false →
       dmaPlace (chanGet s c).src = .host iova → dmaPlace (chanGet s c).dst = .work m off →
       n = min (min 512 (d.len - (chanGet s c).done)) (min (sideRun (dSwrap d) (chanGet s c).src) (sideRun (dDwrap d) (chanGet s c).dst)) →
       (chanGet s c).done + n < d.len → dmaMay s c (chanGet s c).dst n .write = (0, s) → retryOf s (.dmaData c) = none →
       fnLive s (dmaFn s c) = true → hostSilent s = false → Next (.dmaReadCompletion c (.data bs) tr) s (fun t =>
         memRead (coreGet t m).work off n = bytesAt bs 0 n ∧ (chanGet t c).done = (chanGet s c).done + n ∧
         (chanGet t c).src = wrapNext (dSwrap d) (chanGet s c).src n ∧ (chanGet t c).dst = wrapNext (dDwrap d) (chanGet s c).dst n ∧
         ((chanGet s c).stop = some (1, true) → (chanGet t c).mode = .idle ∧ (chanGet t c).err = 6)))) ∧
  (∀ (tag : Nat) (s : State) (c : Cmd),
     (Started s tag 0x0E06 c → chansForm c = true → par c 55 1 < 16 → sliceField c (par c 56 2) < 1024 → par c 59 1 < 8 → par c 60 1 < 32 →
       Next (.dmaGrant tag) s (fun t => Ended s t tag c stOk ∧ t.dma = s.dma ∧
         (∀ ch, ch ∈ grantChans c → dmaGranted t ch = true ∧ dmaSlice t ch = sliceField c (par c 56 2) ∧ dmaCore t ch = par c 55 1 ∧
           dmaSec t ch = bitN (par c 58 1) 3) ∧
         ∀ ch, ch ∉ grantChans c → ch < 256 → dmaCfg t ch = dmaCfg s ch)) ∧
     (Started s tag 0x0E07 c → chansForm c = true → (∀ ch, ch ∈ grantChans c → (chanGet s ch).mode ≠ .running ∨ dmaReads s ch = 0) →
       Next (.dmaRevoke tag) s (fun t => Ended s t tag c stOk ∧
       (∀ ch, ch ∈ grantChans c → dmaGranted t ch = false ∧ (chanGet t ch).mode = .idle) ∧
       ∀ ch, ch ∉ grantChans c → ch < 256 → dmaCfg t ch = dmaCfg s ch ∧ chanGet t ch = chanGet s ch)) ∧
     (Started s tag 0x0E08 c → par c 52 2 < 512 → par c 56 1 ≤ 2 ∨ par c 56 1 = 0xFF → Next (.evtRoute tag) s (fun t =>
       Ended s t tag c stOk ∧ regGet t (aEvt (4 * par c 52 2)) = BitVec.ofNat 32 (2 ^ 31 + par c 54 2) ∧
       (1 ≤ par c 56 1 → par c 56 1 ≤ 2 → par c 57 2 < 256 →
         regGet t (sinkReg (par c 56 1) (par c 57 2)) = BitVec.ofNat 32 (2 ^ 31 + par c 52 2)) ∧
       (par c 56 1 = 0xFF → ∀ k, k ∈ lineSinks s (par c 52 2) → k.2 < 256 → regGet t (sinkReg k.1 k.2) = 0))) ∧
     (∀ n ch w, fastPowered s = true → n < 512 → bitOf (regGet s (aEvt (4 * n))) 31 = true → fieldOf (regGet s (aEvt (4 * n))) 15 0 = srcCp →
       (evtOn s 0x800 0xC00).filter (fun e => fieldOf e.2 8 0 == n) = [] →
       (evtOn s 0xC00 0x1000).filter (fun e => fieldOf e.2 8 0 == n) = [(ch, w)] → (chanGet s ch).mode = .waitTrig →
       Next (.evtFire n) s (fun t => chanGet t ch = { chanGet s ch with mode := .running } ∧ t.needle = s.needle)) ∧
     (∀ n, bitOf (regGet s (aEvt (4 * n))) 31 = false ∨ fieldOf (regGet s (aEvt (4 * n))) 15 0 ≠ srcCp →
       Next (.evtFire n) s (fun t => t = s)) ∧
     (∀ n, fastPowered s = true → n < 16 → bitOf (regGet s (aEvt (0x1000 + 4 * n))) 31 = true → fieldOf (regGet s (aEvt (0x1000 + 4 * n))) 23 0 ≠ 0 →
       tblGet 0 s.dma.timers n + fieldOf (regGet s (aEvt (0x1000 + 4 * n))) 23 0 * cycUs ≤ s.time.clk → Next (.eventTimer n) s (fun t =>
         tblGet 0 t.dma.timers n = tblGet 0 s.dma.timers n + fieldOf (regGet s (aEvt (0x1000 + 4 * n))) 23 0 * cycUs)))

/-! ### Needle cores -/

/-- The results of groups 2, 3 and 5 at the sizes of 8, 16, 32 and 64 bits, as arithmetic on bit vectors (Table 13-9, R375). -/
def Obligations.GulosResultsAreBitVectorArithmetic : Prop :=
  ∀ (b : Nat), b = 8 ∨ b = 16 ∨ b = 32 ∨ b = 64 → ∀ (f : Word) (o x y : BitVec b) (free : Nat),
    let res (g : GOp) : Nat := (aluOp g b f o.toNat x.toNat y.toNat free).1
    res .add = (x + y).toNat ∧ res .sub = (x - y).toNat ∧ res .neg = (-x).toNat ∧ res .mul = (x * y).toNat ∧
    res .mac = (o + x * y).toNat ∧
    res .mulhs = ((x.signExtend (2 * b) * y.signExtend (2 * b)).extractLsb' b b).toNat ∧
    res .mulhu = ((x.setWidth (2 * b) * y.setWidth (2 * b)).extractLsb' b b).toNat ∧
    res .min = (if x.sle y then x else y).toNat ∧ res .max = (if x.sle y then y else x).toNat ∧
    res .minu = (if x.ule y then x else y).toNat ∧ res .maxu = (if x.ule y then y else x).toNat ∧
    res .and = (x &&& y).toNat ∧ res .or = (x ||| y).toNat ∧ res .xor = (x ^^^ y).toNat ∧ res .not = (~~~x).toNat ∧
    res .shl = (x <<< (y.toNat % b)).toNat ∧ res .shr = (x >>> (y.toNat % b)).toNat ∧
    res .sar = (x.sshiftRight (y.toNat % b)).toNat ∧ res .rol = (x.rotateLeft (y.toNat % b)).toNat ∧
    (∀ j, j < b → (res .brev).testBit j = x.getMsbD j) ∧ res .popc = ((List.range b).filter (fun j => x.getLsbD j)).length ∧
    res .clz ≤ b ∧ (∀ j, j < res .clz → x.getMsbD j = false) ∧ (res .clz < b → x.getMsbD (res .clz) = true) ∧
    (x ≠ BitVec.intMin b → res .abs = (if x.msb then -x else x).toNat) ∧
    (BitVec.ofNat b (res .adds)).toInt = clampTo b (x.toInt + y.toInt) ∧
    (BitVec.ofNat b (res .subs)).toInt = clampTo b (x.toInt - y.toInt) ∧
    (BitVec.ofNat b (res .mulq)).toInt = clampTo b ((x.toInt * y.toInt + (2 ^ (b - 2) : Nat)) / (2 ^ (b - 1) : Nat)) ∧
    (BitVec.ofNat b (res .macq)).toInt = clampTo b (o.toInt + (x.toInt * y.toInt + (2 ^ (b - 2) : Nat)) / (2 ^ (b - 1) : Nat)) ∧
    res .mov = x.toNat

/-- `ADD`, `SUB` and `NEG` set `Z`, `N`, `C` and `V`, every other operation of groups 2 and 3 sets `Z` and `N` only, an operation that clips
sets the sticky flag `SAT` (Table 13-3, R374, R375; the carry of `NEG` and `SUB` is log entry 32). The compares and the predicate
operations: the truth value they write, to predicate `d`; every other predicate stays, and `P0` reads 1 whatever is written to it (Table
13-3, R374). -/
def Obligations.GulosFlagsAndPredicates : Prop :=
  (∀ (b : Nat), b = 8 ∨ b = 16 ∨ b = 32 ∨ b = 64 → ∀ (f : Word) (o x y : BitVec b) (free : Nat),
     let res (g : GOp) : BitVec b := BitVec.ofNat b (aluOp g b f o.toNat x.toNat y.toNat free).1
     let flag (g : GOp) (k : Nat) : Bool := (aluOp g b f o.toNat x.toNat y.toNat free).2.getLsbD k
     (∀ g, g ∈ [GOp.add, .sub, .adds, .subs, .neg, .abs, .mul, .mulhs, .mulhu, .mac, .min, .max, .minu, .maxu, .and, .or, .xor, .not,
         .shl, .shr, .sar, .rol, .brev, .clz, .popc] →
       flag g 0 = (res g == 0#b) ∧ flag g 1 = (res g).msb ∧ (∀ k, k < 32 → k ∉ [0, 1, 2, 3, 8] → flag g k = f.getLsbD k) ∧
       (g ∉ [GOp.add, .sub, .neg] → flag g 2 = f.getLsbD 2 ∧ flag g 3 = f.getLsbD 3) ∧
       (g ∉ [GOp.adds, .subs] → flag g 8 = f.getLsbD 8)) ∧
     flag .add 2 = decide (2 ^ b ≤ x.toNat + y.toNat) ∧ flag .add 3 = (x.msb == y.msb && (res .add).msb != x.msb) ∧
     flag .sub 2 = decide (y.toNat ≤ x.toNat) ∧ flag .sub 3 = (x.msb != y.msb && (res .sub).msb != x.msb) ∧
     flag .neg 2 = (x == 0#b) ∧ flag .neg 3 = (x == BitVec.intMin b) ∧
     flag .adds 8 = (f.getLsbD 8 || decide (clampTo b (x.toInt + y.toInt) ≠ x.toInt + y.toInt)) ∧
     flag .subs 8 = (f.getLsbD 8 || decide (clampTo b (x.toInt - y.toInt) ≠ x.toInt - y.toInt)) ∧
     (∀ k, k < 32 → k ≠ 8 → flag .mulq k = f.getLsbD k ∧ flag .macq k = f.getLsbD k) ∧
     flag .mulq 8 = (f.getLsbD 8 || decide (clampTo b ((x.toInt * y.toInt + (2 ^ (b - 2) : Nat)) / (2 ^ (b - 1) : Nat)) ≠
       (x.toInt * y.toInt + (2 ^ (b - 2) : Nat)) / (2 ^ (b - 1) : Nat)))) ∧
  ((∀ (b : Nat), 0 < b → ∀ (x y : BitVec b),
     cmpOp .cmpeq b x.toNat y.toNat = (x == y) ∧ cmpOp .cmpne b x.toNat y.toNat = (x != y) ∧
     cmpOp .cmplt b x.toNat y.toNat = x.slt y ∧ cmpOp .cmple b x.toNat y.toNat = x.sle y ∧
     cmpOp .cmpltu b x.toNat y.toNat = x.ult y ∧ cmpOp .cmpleu b x.toNat y.toNat = x.ule y ∧
     cmpOp .tstz b x.toNat y.toNat = (x &&& y == 0#b) ∧ cmpOp .tstnz b x.toNat y.toNat = (x &&& y != 0#b)) ∧
   (∀ (p d e : Nat) (u : Bool), getPred (setPred p d u) e = if e = 0 then true else if e = d then u else getPred p e) ∧
   (∀ (p d a c : Nat), 0 < d → d < 8 → a < 8 → c < 8 →
     let w := 256 * d + 16 * a + c
     getPred (predOp .pand p w) d = (getPred p a && getPred p c) ∧ getPred (predOp .por p w) d = (getPred p a || getPred p c) ∧
     getPred (predOp .pxor p w) d = (getPred p a ^^ getPred p c) ∧ getPred (predOp .pnot p (256 * d + 16 * a)) d = (!getPred p a) ∧
     getPred (predOp .pset p (256 * d + c % 2)) d = (c % 2 == 1) ∧
     ∀ e, e ≠ d → ∀ g, g ∈ predOps → getPred (predOp g p w) e = getPred p e))

/-- The moves, the arithmetic, the logic and the shifts write their result to the operand of field 1 with their flags, the compares and the
predicate operations write their predicate, and execution goes on after them. Where every operand of a data instruction is an immediate or
lies in the core's own memories, the instruction changes nothing but its core, and of its core only the address registers, the work memory
inside the destination, the flags and predicates that its operation sets, and the position of execution; a free value may be drawn. -/
def Obligations.GulosDataInstructionsCompleteAndFrame : Prop :=
  (∀ (n : Nat) (r : Instr) (g : GOp) (s : State) (i : GInstr) (os : List Opnd) (vs : List Nat) (v : State),
     GulosRow n r g → Executes s n g i → Operates s n i os vs v →
     let b := 8 * i.size
     let x := vs.getD 0 0
     let y := vs.getD 1 0
     let alu (old x y : Nat) := aluOp g b (coreGet v n).flags old x y 0
     (g ∈ aluOps → ¬ (g = .abs ∧ x = 2 ^ (b - 1)) →
       Completes r s n i (opndWrite (withFlags v n (alu 0 x y).2) n os (alu 0 x y).1)) ∧
     (g = .mac ∨ g = .macq →
       Completes r s n i (opndWrite (withFlags v n (alu x y (vs.getD 2 0)).2) n os (alu x y (vs.getD 2 0)).1)) ∧
     (g = .abs → x = 2 ^ (b - 1) → ∃ free,
       Completes r s n i (opndWrite (withFlags (freeWord v).2 n (aluOp g b (coreGet v n).flags 0 x y free).2) n os
         (aluOp g b (coreGet v n).flags 0 x y free).1)) ∧
     (g = .movsx → Completes r s n i (opndWrite v n os ((BitVec.ofNat b x).signExtend 64).toNat)) ∧
     (g = .movzx → Completes r s n i (opndWrite v n os x)) ∧
     (g = .lea → ∀ a, (os[1]?).map (·.ea) = some (.addr a) → Completes r s n i (opndWrite v n os a)) ∧
     (g = .satq → Completes r s n i (opndWrite (withFlags v n (if clampTo b ((BitVec.ofNat 64 x).toInt) = (BitVec.ofNat 64 x).toInt then
         (coreGet v n).flags else putBit (coreGet v n).flags 8 true)) n os (BitVec.ofInt b (clampTo b (BitVec.ofNat 64 x).toInt)).toNat)) ∧
     (g ∈ cmpOps → ∀ d, i.specs.getLast? = some d → Completes r s n i (corePut v n { coreGet v n with
       preds := setPred (coreGet v n).preds (d.raw % 8)
         (if d.raw.testBit 3 then getPred (coreGet v n).preds (d.raw % 8) && cmpOp g b x y else cmpOp g b x y) })) ∧
     (g ∈ predOps → Completes r s n i (corePut s n { coreGet s n with preds := predOp g (coreGet s n).preds i.word0 }))) ∧
  (∀ (n : Nat) (r : Instr) (g : GOp) (s : State) (i : GInstr) (os : List Opnd) (vs : List Nat) (v : State),
     GulosRow n r g → g ∈ aluOps ++ cmpOps ++ predOps ++ [.mac, .macq, .movsx, .movzx, .lea, .satq] →
     Executes s n g i → Operates s n i os vs v → (∀ o, o ∈ os → ownMemory s n o) →
     Next r s (fun t =>
       t = { s with
         draws := t.draws
         needle := { s.needle with cores := t.needle.cores } } ∧
       (∀ m, m ≠ n → coreGet t m = coreGet s m) ∧
       (let k := coreGet t n
        k = { coreGet s n with
         a := k.a, preds := k.preds, flags := k.flags, work := k.work, pc := k.pc, slots := k.slots, target := k.target
         commits := (coreGet s n).commits + 1, jtagStep := k.jtagStep }) ∧
       (g ∉ cmpOps ++ predOps → (coreGet t n).preds = (coreGet s n).preds) ∧
       (g ∈ cmpOps ++ predOps → (coreGet t n).flags = (coreGet s n).flags ∧ (coreGet t n).work = (coreGet s n).work) ∧
       (∀ k, k < 32 → k ∉ [0, 1, 2, 3, 8] → (coreGet t n).flags.getLsbD k = (coreGet s n).flags.getLsbD k) ∧
       (∀ o x, o ∈ os → (o.role = .dst ∨ o.role = .both) → (∃ a, o.ea = .addr a ∧ corePlace s n a o.size .read = .work x) →
         ∀ j, j < x ∨ x + o.size ≤ j → memByte (coreGet t n).work j = memByte (coreGet s n).work j)))

/-- The instructions that direct execution (R370 to R372, R379, Table 13-9): `BR`, `CALL` and `RET` are followed by two slots and then by
their target, `RFI` restores what the entry saved, `WAIT` holds its place until an enabled source is pending, `TRAP` raises its exception. -/
def Obligations.GulosControlInstructions : Prop :=
  ∀ (n : Nat) (s : State) (i : GInstr) (os : List Opnd) (vs : List Nat) (v : State),
    let k := coreGet s n
    let sp := (rA (coreGet v n) 15 + (2 ^ 40 - 8)) % 2 ^ 40
    (Executes s n .nop i → Completes (.nop n) s n i s) ∧ (Executes s n .fence i → Completes (.fence n) s n i s) ∧
    (Executes s n .signal i → Completes (.signal n) s n i (evPulse s (srcSignal n))) ∧
    (Executes s n .br i → Operates s n i os vs v → targetOk v n (firstEa os) = true → Next (.br n) s (fun t => OnlyCore s t n ∧
      StandsAt t n (k.pc + i.len) 2 (some (firstEa os)) ∧ (coreGet t n).commits = k.commits + 1)) ∧
    (Executes s n .br i → Operates s n i os vs v → targetOk v n (firstEa os) = false →
      Raises (.br n) s n 4 (some (firstEa os)) s) ∧
    (Executes s n .call i → Operates s n i os vs v → targetOk v n (firstEa os) = true → (accCheck v n sp 8 .write).1 = none →
      ∀ x a, corePlace v n sp 8 .write = .work x → afterInstrs (coreGet v n) (k.pc + i.len) 2 = some a → Next (.call n) s (fun t =>
        OnlyCore s t n ∧ StandsAt t n (k.pc + i.len) 2 (some (firstEa os)) ∧ (coreGet t n).a = (coreGet v n).a.set 15 sp ∧
        memRead (coreGet t n).work x 8 = leBytes 8 a ∧
        ∀ j, j < x ∨ x + 8 ≤ j → memByte (coreGet t n).work j = memByte k.work j)) ∧
    (Executes s n .ret i → (accCheck s n (rA k 15) 8 .read).1 = none → ∀ x, corePlace s n (rA k 15) 8 .read = .work x →
      (targetOk s n (leNat (memRead k.work x 8)) = true → Next (.ret n) s (fun t => OnlyCore s t n ∧
        StandsAt t n (k.pc + i.len) 2 (some (leNat (memRead k.work x 8))) ∧
        (coreGet t n).a = k.a.set 15 ((rA k 15 + 8) % 2 ^ 40) ∧ (coreGet t n).work = k.work)) ∧
      (targetOk s n (leNat (memRead k.work x 8)) = false →
        Raises (.ret n) s n 4 (some (leNat (memRead k.work x 8) % 2 ^ 40)) s)) ∧
    (Executes s n .rfi i → Next (.rfi n) s (fun t => OnlyCore s t n ∧
      (coreGet t n).flags = k.eflags &&& 0x0003010F#32 ∧ (∀ e, 0 < e → e < 8 → bitN (coreGet t n).preds e = bitN k.epred e) ∧
      (coreGet t n).commits = k.commits + 1 ∧
      (fieldOf k.ecause 9 8 = 1 ∨ fieldOf k.ecause 9 8 = 2 → StandsAt t n k.epc (fieldOf k.ecause 9 8) (some k.etgt)) ∧
      (¬ (fieldOf k.ecause 9 8 = 1 ∨ fieldOf k.ecause 9 8 = 2) → StandsAt t n k.epc 0 none))) ∧
    (Executes s n .halt i → k.stop = none → Next (.halt n) s (fun t => CoreNoted s t n ∧
      (coreGet t n).mode = .halted ∧ (coreGet t n).reason = 1 ∧ (coreGet t n).changed = nowStamp s ∧ (coreGet t n).pred = [] ∧
      StandsAt t n (k.pc + i.len) 0 k.target ∧ (coreGet t n).work = k.work ∧ (coreGet t n).a = k.a)) ∧
    (Executes s n .wait i → corePending k ≠ 0 → Completes (.wait n) s n i s) ∧
    (Executes s n .wait i → corePending k = 0 → Next (.wait n) s (fun t => t = s)) ∧
    (Executes s n .trap i → Operates s n i os vs v → Raises (.trap n) s n 6 (some (firstEa os)) s)

/-- What keeps an instruction from its effect (R365 to R368, R371, R380): a false guard only moves execution on; words that are not legal, a
forbidden instruction in a slot and an operand that a check refuses raise their exception with no effect. The row `TRAP` takes words that
no operation reads, and a failed fetch (log entries 31 and 32). An exception enters the handler at `IVEC` with its cause; one that is
raised while `EXC` is set, or while `IVEC` is 0, halts the core in `FAULTED`, and keeps the cause and the place (R379, R380).
`TAKE_INTERRUPT` enters at `IVEC` + 0x40 for the lowest source that is pending and enabled; the timer's source becomes pending when the
cycles reach `TCMP`. -/
def Obligations.GulosGuardsExceptionsAndHandlers : Prop :=
  (∀ (n : Nat) (r : Instr) (g : GOp) (s : State), GulosRow n r g → coreRuns s n = true → intReady s n = false →
     (∀ i, ComesTo s n g i → guardHolds (coreGet s n).preds i = false →
       (isBranch g = false ∨ (coreGet s n).slots ≠ 0 → Completes r s n i s) ∧
       (isBranch g = true → (coreGet s n).slots = 0 → Next r s (fun t => OnlyCore s t n ∧
         StandsAt t n ((coreGet s n).pc + i.len) 2 none ∧ (coreGet t n).commits = (coreGet s n).commits + 1))) ∧
     (∀ i, ComesTo s n g i → guardHolds (coreGet s n).preds i = true → i.legal = false → Raises r s n 1 none s) ∧
     (∀ i, ComesTo s n g i → guardHolds (coreGet s n).preds i = true → i.legal = true → slotBad i = true → (coreGet s n).slots ≠ 0 →
       Raises r s n 2 none s) ∧
     (∀ i, Executes s n g i → g ∈ aluOps ++ cmpOps ++ [.mac, .macq, .movsx, .movzx, .lea, .satq, .str, .addr, .evtake, .br, .call] →
       (let os := (eaOperands (coreGet s n) (coreGet s n).pc i ((rolesOf i.op).zip i.specs)).1
        (os.any (fun o => o.ea == .modulo) = true → Raises r s n 5 none s) ∧
        (∀ c a s1, os.any (fun o => o.ea == .modulo) = false → opndsFail s n os = some (c, a, s1) → Raises r s n c (some a) s1))) ∧
     (g = .trap → coreFetch s n = .reserved → Raises r s n 1 none s) ∧
     (∀ s1 c, g = .trap → coreFetch s n = .fail s1 c → Raises r s n c (some (coreGet s n).pc) s1) ∧
     (∀ i, coreFetch s n = .instr i → i.op ≠ g → Next r s (fun t => t = s))) ∧
  (∀ (s : State) (n : Nat),
     let k := coreGet s n
     (∀ (c a : Nat), k.flags.getLsbD 17 = false → k.ivec ≠ 0 →
       let t := coreExc s n c (some a)
       Entered s t n (256 * k.slots + c) 0 ∧ (coreGet t n).eaddr = a ∧ (coreGet t n).cause = c ∧
       (∀ m, m ≠ n → coreGet t m = coreGet s m)) ∧
     (∀ (c a : Nat), k.flags.getLsbD 17 = true ∨ k.ivec = 0 → k.stop = none →
       let t := coreExc s n c (some a)
       (coreGet t n).mode = .faulted ∧ (coreGet t n).cause = c ∧ (coreGet t n).epc = k.pc ∧ (coreGet t n).eaddr = a ∧
       (coreGet t n).reason = 3 ∧ (coreGet t n).changed = nowStamp s ∧ (∀ m, m ≠ n → coreGet t m = coreGet s m)) ∧
     (∀ i, coreRuns s n = true → intReady s n = true → i < 21 → bitN (corePending k) i = true →
       (∀ j, j < i → bitN (corePending k) j = false) → Next (.takeInterrupt n) s (fun t =>
         Entered s t n (2 ^ 24 * i + 2 ^ 16) 0x40 ∧ (coreGet t n).eaddr = k.eaddr ∧ (∀ m, m ≠ n → coreGet t m = coreGet s m))) ∧
     (coreRuns s n = false ∨ intReady s n = false → Next (.takeInterrupt n) s (fun t => t = s)) ∧
     (k.mode = .running → bitN k.pend 21 = true → k.tcmp.toNat ≤ coreCycles s k → Next (.coreTimerMatch n) s (fun t => OnlyCore s t n ∧
       bitN (coreGet t n).pend 19 = true ∧ bitN (coreGet t n).pend 21 = false ∧ bitN (coreGet t n).pend 20 = bitN k.pend 20)) ∧
     (k.mode ≠ .running ∨ bitN k.pend 21 = false ∨ coreCycles s k < k.tcmp.toNat → Next (.coreTimerMatch n) s (fun t => t = s)))

/-- `LDR`, `STR` and `ADDR` move registers by their selector, and `EVTAKE` gives an event input's state and clears it (R364, R374, R376). A
row of a block instruction executes one element: it reads its sources, writes its result and takes one from `CNT`, and the instruction is
complete when `CNT` is 0; one that starts with `CNT` = 0 runs none, and one that an operand stops writes nothing (R377, R378). -/
def Obligations.GulosRegisterAndBlockInstructions : Prop :=
  (∀ (n : Nat) (s : State) (i : GInstr) (os : List Opnd) (vs : List Nat) (v : State), Operates s n i os vs v →
     let sel := selOf i
     let k := coreGet v n
     (Executes s n .ldr i → ¬ (bitsN sel 7 4 = 5 ∧ crReadOnly (bitsN sel 3 0) = true) →
       Completes (.ldr n) s n i (selWrite v n sel (vs.getD 0 0))) ∧
     (Executes s n .ldr i → bitsN sel 7 4 = 5 → crReadOnly (bitsN sel 3 0) = true → Raises (.ldr n) s n 1 none s) ∧
     (Executes s n .str i → sel ≠ 0x59 → Completes (.str n) s n i (opndWrite v n os (selRead s n sel).1)) ∧
     (Executes s n .str i → sel = 0x59 → Completes (.str n) s n i
       (opndWrite (corePut v n { k with cycHi := BitVec.ofNat 32 (coreCycles v k / 2 ^ 32) }) n os (coreCycles s (coreGet s n)))) ∧
     (Executes s n .addr i → Completes (.addr n) s n i (selWrite v n sel ((selRead v n sel).1 + vs.getD 0 0))) ∧
     (Executes s n .evtake i → firstEa os < 16 → Completes (.evtake n) s n i
       (opndWrite (corePut v n { k with inputs := tblSet {} (firstEa os) {} k.inputs }) n os
         ((tblGet {} k.inputs (firstEa os)).count + 256 * b2n (tblGet {} k.inputs (firstEa os)).ovf +
           512 * b2n (tblGet {} k.inputs (firstEa os)).pending))) ∧
     (∀ x c j, bitsN sel 7 4 = c → bitsN sel 3 0 = j → OnlyCore v (selWrite v n sel x) n ∧
       (c = 0 → j < k.a.length → (coreGet (selWrite v n sel x) n).a = k.a.set j (x % 2 ^ 40)) ∧
       (c = 1 → j < k.m.length → (selRead (selWrite v n sel x) n sel).1 = x % 2 ^ 32) ∧
       (c = 2 → j < k.l.length → (selRead (selWrite v n sel x) n sel).1 = x % 2 ^ 32) ∧
       (c = 3 → j < k.b.length → (selRead (selWrite v n sel x) n sel).1 = x % 2 ^ 40) ∧
       (c = 4 → j = 0 → (coreGet (selWrite v n sel x) n).cnt = x % 65536) ∧
       (c = 4 → j = 1 → ∀ b, b < 32 → (coreGet (selWrite v n sel x) n).flags.getLsbD b =
         if b ∈ [0, 1, 2, 3, 8, 16] then x.testBit b else k.flags.getLsbD b) ∧
       (c = 4 → j = 2 → ∀ e, getPred (coreGet (selWrite v n sel x) n).preds e = (e == 0 || (decide (e < 8) && x.testBit e))) ∧
       (c = 5 → j = 0 → (coreGet (selWrite v n sel x) n).epc = x) ∧
       (c = 5 → j = 6 → (coreGet (selWrite v n sel x) n).ivec = x / 64 * 64) ∧
       (c = 5 → j = 7 → (coreGet (selWrite v n sel x) n).imask = BitVec.ofNat 32 x))) ∧
  (∀ (n : Nat) (r : Instr) (g : GOp) (s : State) (i : GInstr) (os : List Opnd) (vs : List Nat) (v : State),
     GulosRow n r g → isBlock g = true → Executes s n g i →
     let b := 8 * i.size
     let alu (old x y : Nat) := aluOp g b (coreGet v n).flags old x y 0
     let element (w : State) : Prop :=
       let k := coreGet w n
       (k.cnt = 1 → Completes r s n i (corePut w n { k with cnt := 0 })) ∧
       (k.cnt ≠ 1 → Next r s (fun t => t = stepDone s (corePut w n { k with cnt := k.cnt - 1 }) n))
     ((coreGet s n).cnt = 0 → Completes r s n i s) ∧
     ((coreGet s n).cnt ≠ 0 → Operates s n i os vs v →
       (g ∈ plainBlockOps →
         element (opndWrite (withFlags v n (alu 0 (vs.getD 0 0) (vs.getD 1 0)).2) n os (alu 0 (vs.getD 0 0) (vs.getD 1 0)).1)) ∧
       (g = .bmacq → element (opndWrite (withFlags v n (alu (vs.getD 0 0) (vs.getD 1 0) (vs.getD 2 0)).2) n os
         (alu (vs.getD 0 0) (vs.getD 1 0) (vs.getD 2 0)).1)) ∧
       (g = .bdot → element (opndWrite (withFlags v n (coreGet v n).flags) n os (BitVec.ofInt 64 ((BitVec.ofNat 64 (vs.getD 0 0)).toInt +
         (BitVec.ofNat b (vs.getD 1 0)).toInt * (BitVec.ofNat b (vs.getD 2 0)).toInt)).toNat)) ∧
       (g = .bpeak → vs.getD 1 0 ≠ 2 ^ (b - 1) → element (opndWrite (withFlags v n (coreGet v n).flags) n os
         (BitVec.ofInt b (max (BitVec.ofNat b (vs.getD 0 0)).toInt
         ((BitVec.ofNat b (vs.getD 1 0)).toInt.natAbs : Int))).toNat))) ∧
     ((coreGet s n).cnt ≠ 0 → ∀ c a s1,
       (eaOperands (coreGet s n) (coreGet s n).pc i ((rolesOf i.op).zip i.specs)).1.any (fun o => o.ea == .modulo) = false →
       opndsFail s n (eaOperands (coreGet s n) (coreGet s n).pc i ((rolesOf i.op).zip i.specs)).1 = some (c, a, s1) →
       Raises r s n c (some a) s1))

/-- The port instructions (R381, R384): an `ISSUE` whose regions are the core's own puts a job at its port, done at once where the port
refuses it, and waits without effect at a full port or while a use of its keys cannot be reserved, or is done with EXHAUSTED where neither chip takes the
lease that it needs (log entry 63); a `WAIT`, `COLLECT` or `POLL` takes the
status word of the oldest job, 0xFF with none; while the job runs a `POLL` writes 0xFE and the others wait, a `COLLECT` as one that has begun
(R196). -/
def Obligations.GulosPortInstructions : Prop :=
  ∀ (n : Nat) (s : State) (i : GInstr) (os : List Opnd) (vs : List Nat) (v : State), Operates s n i os vs v →
    let a := firstEa os
    let k := coreGet v n
    let d := memRead k.work ((workOff n a).getD 0) 32
    let takes (r : Instr) (poll : Bool) (jobs : Core → List PortJob) (put : Core → List PortJob → Core) (held : State) : Prop :=
      (jobs k = [] → Completes r s n i (opndWrite v n os 0xFF)) ∧
      (∀ j js w, jobs k = j :: js → j.done = some w → Completes r s n i (opndWrite (corePut v n (put k js)) n os w.toNat)) ∧
      (∀ j js, jobs k = j :: js → j.done = none → if poll then Completes r s n i (opndWrite v n os 0xFE) else Next r s (fun t => t = held))
    let prs (hs : List Nat) : Option Bool := (portTake (touchFast (corePut v n { k with
      press := k.press ++ [{ id := k.commits, desc := d, keys := hs, mats := hs.map (keyBits v) }] })) hs).map (·.2)
    let mgl (hs : List Nat) : Option Bool := (portTake (touchFast (corePut v n { k with
      mangle := k.mangle ++ [{ id := k.commits, desc := d, keys := hs }] })) hs).map (·.2)
    (Executes s n .prsWait i → takes (.prsWait n) false (·.press) (fun k js => { k with press := js }) s) ∧
    (Executes s n .prsPoll i → takes (.prsPoll n) true (·.press) (fun k js => { k with press := js }) s) ∧
    (Executes s n .mglCollect i → bitN k.pend 22 = false → takes (.mglCollect n) false (·.mangle) (fun k js => { k with mangle := js, collect := false })
      (corePut s n { coreGet s n with collect := true })) ∧
    (Executes s n .mglPoll i → bitN k.pend 22 = false → takes (.mglPoll n) true (·.mangle) (fun k js => { k with mangle := js, collect := false }) s) ∧
    (Executes s n .prsIssue i → regionOk v n a 32 false = true →
      (2 ≤ k.press.length → Next (.prsIssue n) s (fun t => t = s)) ∧
      (k.press.length < 2 → jobRegion v n (leAt d 8 4) (leAt d 12 4) (bitN (byteAt d 5) 0) = true →
        jobRegion v n (leAt d 20 4) (descOut d) (bitN (byteAt d 5) 1) = true →
        (∀ st, pressPortCheck v n d = st → st ≠ 0 → Next (.prsIssue n) s (fun t =>
          (coreGet t n).press = k.press ++ [{ id := k.commits, desc := d, done := some (statusWord st 0 0) }] ∧
          (coreGet t n).commits = k.commits + 1 ∧ (coreGet t n).pressN = k.pressN + 1 ∧ t.press = v.press)) ∧
        (∀ p, pressPortCheck v n d = 0 → pipeFor v = some p → prs (pressHandles v n d) = some true → Next (.prsIssue n) s (fun t =>
          (coreGet t n).press = k.press ++
            [{ id := k.commits, desc := d, keys := pressHandles v n d, mats := (pressHandles v n d).map (keyBits v) }] ∧ (coreGet t n).commits = k.commits + 1 ∧
          (∃ j, pipeJobs t p = pipeJobs v p ++ [j] ∧ j.src = .port n k.commits ∧ j.size = leAt d 12 4 ∧ j.ready = true) ∧
          ∀ q, q ≠ p → pipeJobs t q = pipeJobs v q)) ∧
        (∀ p, pressPortCheck v n d = 0 → pipeFor v = some p → prs (pressHandles v n d) = some false → Next (.prsIssue n) s (fun t =>
          (coreGet t n).press = k.press ++ [{ id := k.commits, desc := d, done := some (statusWord 6 0 0) }] ∧ t.press = v.press)) ∧
        (pressPortCheck v n d = 0 → pipeFor v = none ∨ prs (pressHandles v n d) = none → Next (.prsIssue n) s (fun t => t = s)))) ∧
    (Executes s n .mglIssue i → regionOk v n a 32 false = true →
      (k.mangle ≠ [] → Next (.mglIssue n) s (fun t => t = s)) ∧
      (k.mangle = [] → jobRegion v n (leAt d 16 4) (leAt d 20 4) false = true → jobRegion v n (leAt d 24 4) (mangleOut v n d) false = true →
        (∀ st, manglePortCheck v n d = st → st ≠ 0 → Next (.mglIssue n) s (fun t =>
          (coreGet t n).mangle = [{ id := k.commits, desc := d, done := some (statusWord st 0 0) }] ∧
          (coreGet t n).commits = k.commits + 1 ∧ (coreGet t n).mangleN = k.mangleN + 1 ∧ t.mangle = v.mangle)) ∧
        (∀ x, manglePortCheck v n d = 0 → portTimes v n d = [x] → mangleRoom v 1 = true → mgl (mangleHandles v n d) = some true →
          Next (.mglIssue n) s (fun t =>
            (coreGet t n).mangle = [{ id := k.commits, desc := d, keys := mangleHandles v n d }] ∧ (coreGet t n).commits = k.commits + 1 ∧
            ∃ o, o ∈ mangleAll t ∧ o.src = .port n k.commits ∧ o.time = x ∧ o.keys = mangleHandles v n d)) ∧
        (∀ x, manglePortCheck v n d = 0 → portTimes v n d = [x] → (mangleRoom v 1 = false ∧ mgl (mangleHandles v n d) ≠ some false) ∨
          mgl (mangleHandles v n d) = none → Next (.mglIssue n) s (fun t => t = s)) ∧
        (manglePortCheck v n d = 0 → mgl (mangleHandles v n d) = some false → Next (.mglIssue n) s (fun t =>
          (coreGet t n).mangle = [{ id := k.commits, desc := d, done := some (statusWord 6 0 0) }] ∧ t.mangle = v.mangle)))) ∧
    (Executes s n .prsIssue i → regionOk v n a 32 false = false → Raises (.prsIssue n) s n 4 (some a) s) ∧
    (Executes s n .mglIssue i → regionOk v n a 32 false = false → Raises (.mglIssue n) s n 4 (some a) s)

/-! ### Programs, firmware, life cycle and debug -/

/-- `PROG.LOAD` verifies the signature and the image and stores the program on both chips; `PROG.START` reserves a core or starts it at the
image's entry point; `PROG.STOP` halts it or waits for it; `PROG.UNLOAD` frees the store (R387 to R389). -/
def Obligations.ProgramCommandsTakeEffect : Prop :=
  ∀ (tag n : Nat) (io : HostIO) (s : State) (c : Cmd),
    MangleFirst (.progLoad tag io) s tag 0x0E01 c io ∧
    (∀ bs, c.work.step = 0 → mangleHas s tag = false →
      (progVerdict s c bs = stOk → NextIn (.progLoad tag io) s tag 0x0E01 c io bs (fun t =>
        ∃ d, cmdAt t tag = some d ∧ d.stage = .started ∧ d.body = c.body ∧ d.work.step = 1 ∧ d.work.bytes = bs)) ∧
      (progVerdict s c bs ≠ stOk → NextIn (.progLoad tag io) s tag 0x0E01 c io bs (fun t =>
        Ended s t tag c (progVerdict s c bs) ∧ t.needle = s.needle))) ∧
    (∀ ok0 ok1 k, Writing s tag 0x0E01 c → s.pwr.vault = false → flashTakes s ok0 ok1 = true → tblFree s.needle.progs 0 64 = some k →
      Next (.flashOperationDone .program ok0 ok1) s (fun t => Ended s t tag c stOk 0 (BitVec.ofNat 64 k) ∧
        ∃ p, progGet t k = some p ∧ p.owner = cOwner s c ∧ p.digest = Config.sha384 c.work.bytes ∧
          (ok0 = true → chipUp s.boot.chip0 = true → p.img0 = c.work.bytes) ∧
          (ok1 = true → chipUp s.boot.chip1 = true → p.img1 = c.work.bytes) ∧ ∀ j, j ≠ k → progGet t j = progGet s j)) ∧
    (∀ ok0 ok1, Writing s tag 0x0E01 c → s.pwr.vault = false → flashTakes s ok0 ok1 = false →
      Next (.flashOperationDone .program ok0 ok1) s (fun t => Ended s t tag c stInternal ∧ t.needle = s.needle)) ∧
    (Started s tag 0x0E02 c → progCore s c = some n → par c 55 1 = 1 → Next (.progStart tag) s (fun t =>
      Ended s t tag c stOk 0 (BitVec.ofNat 64 n) ∧ OtherCores s t n ∧ (coreGet t n).mode = .reserved ∧
      (coreGet t n).owner = cOwner s c ∧ (coreGet t n).changed = nowStamp s)) ∧
    (∀ p b, Started s tag 0x0E02 c → progCore s c = some n → par c 55 1 ≠ 1 → progGet s (par c 52 2) = some p →
      progCopy s p = some b → Next (.progStart tag) s (fun t =>
        Ended s t tag c stOk 0 (BitVec.ofNat 64 n) ∧ OtherCores s t n ∧
        (let k := coreGet t n
         k.mode = .running ∧ k.owner = cOwner s c ∧ k.program = par c 52 2 ∧ k.keys = progHandles c (imgKeys b) ∧
         StandsAt t n (0x30000000 + imgEntry b) 0 none ∧ rA k 15 = 0x00300BFFE0 ∧ k.preds = 1 ∧ k.flags = 0 ∧ k.cnt = 0 ∧
         k.ivec = 0 ∧ k.imask = 0 ∧ k.commits = 0 ∧ k.startAt = s.time.clk ∧ k.press = [] ∧ k.mangle = [] ∧
         memRead k.instr 0 (imgCode b) = bytesAt b (64 + 4 * imgKeys b) (imgCode b) ∧
         memRead k.work 0x3FFE0 32 = bytesAt (bytesAt ((heldInput c).drop (4 * imgKeys b)) 0 32) 0 32))) ∧
    (Started s tag 0x0E03 c → par c 52 1 = n → (coreGet s n).stop = none → par c 53 1 = 0 ∨ (coreGet s n).mode ≠ .running →
      ((coreGet s n).mode = .running → collecting s n = false) → Next (.progStop tag) s (fun t =>
        if par c 54 1 = 1 then Ended s t tag c stOk 0 0 ∧ (coreGet t n).mode = .free
        else ∃ m : CoreMode, Ended s t tag c stOk 0 (BitVec.ofNat 64 m.code) ∧ (coreGet t n).mode = m ∧
          ((coreGet s n).mode = .running ∨ (coreGet s n).mode = .faulted → m = .halted) ∧
          (¬ ((coreGet s n).mode = .running ∨ (coreGet s n).mode = .faulted) → m = (coreGet s n).mode))) ∧
    (Started s tag 0x0E03 c → par c 52 1 = n → (coreGet s n).stop = none → par c 53 1 ≠ 0 → (coreGet s n).mode = .running →
      Next (.progStop tag) s (fun t => OnlyCore s t n ∧ (coreGet t n).mode = .running ∧ bitN (coreGet t n).pend 20 = true ∧
        (coreGet t n).stop = some { cmd := tag, until_ := s.time.clk + par c 56 4 * cycUs, release := par c 54 1 == 1 })) ∧
    (∀ w, (coreGet s n).stop = some w → (coreGet s n).mode = .running → collecting s n = false → w.until_ ≤ s.time.clk →
      w.cmd = tag → Started s tag 0x0E03 c → Next (.progStopTimeout n) s (fun t =>
        (coreGet t n).mode = (if w.release then CoreMode.free else CoreMode.halted) ∧
        Ended s t tag c stOk 0 (BitVec.ofNat 64 (if w.release then 0 else 3)))) ∧
    (Started s tag 0x0E04 c → Next (.progUnload tag) s (fun t => Ended s t tag c stOk ∧ progGet t (par c 52 2) = none ∧
      ∀ j, j ≠ par c 52 2 → progGet t j = progGet s j))

/-- `FW.STAGE` checks a package's form and writes it to the slot that does not run; `FW.VERIFY` checks a slot on each chip and marks it;
`FW.CONFIRM` ends a trial for good, `FW.FALLBACK` returns to the predecessor, and the device resets (R444 to R446, R451, R459, R460). A
page of a Tally flush goes to both chips, and its records count as flushed once a chip took it; a chip that fails an operation is left
out, and 60 s later probed, copied whole from the other and taken back (log entry 44); the key journal's oldest block goes once its live
records are written again (R102, R107, R451, R532, R533). -/
def Obligations.FirmwareCommandsAndFlashMirror : Prop :=
  (∀ (tag : Nat) (io : HostIO) (s : State) (c : Cmd),
     (∀ bs, c.work.step = 0 →
       (fpForm bs = true → NextIn (.fwStage tag io) s tag 0x0C01 c io bs (fun t =>
         (∃ d, cmdAt t tag = some d ∧ d.stage = .started ∧ d.body = c.body ∧ d.work.step = 1 ∧ d.work.bytes = bs) ∧ t.boot = s.boot)) ∧
       (fpForm bs = false → NextIn (.fwStage tag io) s tag 0x0C01 c io bs (fun t => Ended s t tag c 0x0C02 ∧ t.boot = s.boot))) ∧
     (∀ ok0 ok1, Writing s tag 0x0C01 c → s.pwr.vault = false →
       Next (.flashOperationDone .stage ok0 ok1) s (fun t =>
         (if flashTakes s ok0 ok1 = true then Ended s t tag c stOk 0 (BitVec.ofNat 64 (fwOther s)) ∧ (fwSlot t (fwOther s)).mode = .staged ∧
           (ok0 = true → chipUp s.boot.chip0 = true → (fwSlot t (fwOther s)).pkg0 = c.work.bytes) ∧
           (ok1 = true → chipUp s.boot.chip1 = true → (fwSlot t (fwOther s)).pkg1 = c.work.bytes)
         else Ended s t tag c 0x0C08 ∧ (fwSlot t (fwOther s)).mode = .invalid) ∧
         (fwRunning s < 2 → fwSlot t (fwRunning s) = fwSlot s (fwRunning s)))) ∧
     (mangleHas s tag = true → Started s tag 0x0C02 c → Next (.fwVerify tag io) s (fun t => LetsMangle t tag c)) ∧
     (∀ k, par c 52 1 = k → k < 2 → Started s tag 0x0C02 c → mangleHas s tag = false →
       let free := (fwSlot s k).mode ∈ [SlotMode.staged, .verified, .invalid, .empty]
       (packageVerifies s k = true → Delivers s c io → Next (.fwVerify tag io) s (fun t => ∃ bs, Ended s t tag c stOk bs.length ∧
         bs = slotRecord t k ∧ t.out = (putOutput s c bs).out ∧ (fwSlot t k).mode = (if free then .verified else (fwSlot s k).mode) ∧
         fwSlot t (1 - k) = fwSlot s (1 - k))) ∧
       (packageVerifies s k = false → Next (.fwVerify tag io) s (fun t =>
         (∃ d, cmdAt t tag = some d ∧ d.stage = .ended ∧ d.comp.status ≠ stOk) ∧ t.out = s.out ∧
         (fwSlot t k).mode = (if free then .invalid else (fwSlot s k).mode) ∧ fwSlot t (1 - k) = fwSlot s (1 - k)))) ∧
     (∀ b, Started s tag 0x0C04 c → s.boot.ctl = some b → b.slot < 2 → Next (.fwConfirm tag) s (fun t =>
       t.boot.secMin = max s.boot.secMin (fpSec (fwPkg s b.slot)) ∧ Ended s t tag c stOk 0 (BitVec.ofNat 64 t.boot.secMin) ∧
       trialOn t = false ∧ fwRunning t = b.slot ∧ (fwSlot t b.slot).mode = .running ∧ (fwSlot t (1 - b.slot)).mode = .previous ∧
       t.boot.confirmCt = nowCt s ∧
       (∀ g, g ∈ b.gens → g.mode = .trial → { g with mode := .running } ∈ (t.boot.ctl.map (·.gens)).getD []) ∧
       (∀ g, g ∈ b.gens → g.mode = .running → { g with mode := .retired } ∈ (t.boot.ctl.map (·.gens)).getD []))) ∧
     (∀ b, Started s tag 0x0C05 c → s.boot.ctl = some b → b.slot < 2 → Next (.fwFallback tag) s (fun t => Ended s t tag c stOk ∧
       t.tortin.resetTag = some tag ∧ t.boot.revert = true ∧ trialOn t = false ∧ fwRunning t = 1 - b.slot ∧
       (fwSlot t (1 - b.slot)).mode = .running ∧ (fwSlot t b.slot).mode = .staged ∧ t.boot.secMin = s.boot.secMin ∧
       (∀ g, g ∈ b.gens → g.mode = .trial → { g with mode := .abandoned } ∈ (t.boot.ctl.map (·.gens)).getD [])))) ∧
  (∀ (s : State), s.pwr.vault = false →
     (∀ f page rest, s.tally.flush = some f → pageFill s f.todo 4096 [] = (page, rest) → s.boot.chip0 = .good → s.boot.chip1 = .good →
       s.tally.skip0 = false → s.tally.skip1 = false →
       (s.tally.flash0.length < areaPages s.boot.flashMib → s.tally.flash1.length < areaPages s.boot.flashMib →
         Next (.flashOperationDone .tally true true) s (fun t => t.boot = s.boot ∧
           t.tally.flash0 = s.tally.flash0 ++ [page] ∧ t.tally.flash1 = s.tally.flash1 ++ [page] ∧
           t.tally.flush = (if rest = [] then none else some { f with todo := rest, written := f.written + page.length }) ∧
           regGet t aTlyFlushed = satAdd32 (regGet s aTlyFlushed) page.length ∧
           ∀ n x, tblFind n s.tally.slots = some x → tblFind n t.tally.slots =
             some (if page.any (fun r => r.seq == x.rcd.seq && r.rep == x.rcd.rep) then { x with flushed := true } else x))) ∧
       Next (.flashOperationDone .tally false false) s (fun t => t.tally.flush = none ∧ t.tally.flashFail = true ∧
         t.tally.failAt = s.time.clk ∧ t.tally.slots = s.tally.slots ∧ t.tally.flash0 = s.tally.flash0 ∧ t.tally.flash1 = s.tally.flash1) ∧
       Next (.flashOperationDone .tally false true) s (fun t => t.boot.chip0 = .faulty ∧ t.boot.chip1 = .good ∧
         t.tally.flash0 = s.tally.flash0)) ∧
     (∀ ok0 ok1, s.boot.chip0 = .good → s.boot.chip1 = .good → Next (.flashOperationDone .settings ok0 ok1) s (fun t =>
       t.boot.chip0 = (if ok0 then .good else .faulty) ∧ t.boot.chip1 = (if ok1 then .good else .faulty))) ∧
     (s.boot.chip0 = .faulty → s.boot.chip1 = .good →
       (s.boot.probeAt + 60 * cycS ≤ s.time.clk →
         Next (.flashChipProbe 0 true) s (fun t => t.boot.chip0 = .copying ∧ t.keys.jrn0 = s.keys.jrn1 ∧ t.tally.flash0 = s.tally.flash1 ∧
           t.boot.slotA.pkg0 = s.boot.slotA.pkg1 ∧ t.boot.slotB.pkg0 = s.boot.slotB.pkg1 ∧
           (∀ n p, progGet s n = some p → progGet t n = some { p with img0 := p.img1 })) ∧
         Next (.flashChipProbe 0 false) s (fun t => t.boot.chip0 = .faulty ∧ t.boot.probeAt = s.time.clk ∧ t.keys = s.keys)) ∧
       (∀ ok, s.time.clk < s.boot.probeAt + 60 * cycS → Next (.flashChipProbe 0 ok) s (fun t => t = s))) ∧
     (s.boot.chip0 = .copying →
       Next (.flashChipProbe 0 true) s (fun t => t.boot.chip0 = .good ∧ t.tally.degraded = false ∧ t.keys = s.keys) ∧
       Next (.flashChipProbe 0 false) s (fun t => t.boot.chip0 = .faulty)) ∧
     (∀ b r, 4 * jrnFree s < jrnArea s → thmUp s = true → s.keys.jrn1 = s.keys.jrn0 →
       s.boot.chip0 = .good → s.boot.chip1 = .good → oldestBlock s.keys.jrn0 = (b, r) →
       Next (.journalCompaction true true) s (fun t => t.keys.jrn1 = t.keys.jrn0 ∧ t.keys.objs = s.keys.objs ∧
         ∃ new, t.keys.jrn0 = r ++ new ∧ (∀ y, y ∈ new → jrnWhole s y = true) ∧
           ∀ x, x ∈ b → x ∈ jrnEffective s → jrnLive s x = true →
             ∃ y, y ∈ new ∧ y.owner = x.owner ∧ y.kind = x.kind ∧ y.key = jrnRekey s x)) ∧
     (jrnArea s ≤ 4 * jrnFree s ∨ thmUp s = false → ∀ ok0 ok1, Next (.journalCompaction ok0 ok1) s (fun t => t = s)))

/-- A write of `LCS_REQ` starts a transition where every check of Table 17-4 passes, and otherwise leaves its status; the end of a transition
burns `DONE` over erased stores and resets the device; a certificate whose time has passed is withdrawn; the factory memory test erases
keys first (R467, R469, R472 to R478, R482). The debug port acts only under a right of the part or of an installed certificate: it halts,
steps and resumes a core, and reads and writes its registers and memories (R479, Table 17-5). The encoding of the port's requests is the
model's (log entry 17). -/
def Obligations.LifeCycleAndDebugPort : Prop :=
  (∀ (s : State), s.pwr.vault = false →
     (∀ v, 2 ≤ pwrMode s → procRuns s = false → Next (.lcsReqWrite v) s (fun t => HeldIn s t (.lcsReq v))) ∧
     (∀ (v : Word) (s0 : State), pwrMode s ≤ 1 → s0 = wakeUp s 0 → s.lc.trans = none →
       (lcCheck s0 (fieldOf v 2 0) (fieldOf v 31 16) = stOk → thmRoom s = true → Next (.lcsReqWrite v) s (fun t =>
         t.lc = { s.lc with trans := some { target := fieldOf v 2 0, slot := (lcFree s0 (fieldOf v 2 0)).getD 0 } } ∧
         tblFind (fieldOf v 31 16) t.keys.pend = none ∧ t.scorch.logSeq = s.scorch.logSeq + 1 ∧
         t.thm.reqs = s.thm.reqs ++ [{ op := 0x12, tag := s.thm.nextTag, nums := [1], taken := s.time.clk }])) ∧
       (∀ st, lcCheck s0 (fieldOf v 2 0) (fieldOf v 31 16) = st → st ≠ stOk → Next (.lcsReqWrite v) s (fun t =>
         t.lc = s.lc ∧ t.keys = s.keys ∧ t.thm = s.thm ∧ regGet t aLcsResult = BitVec.ofNat 32 st))) ∧
     (∀ v, pwrMode s ≤ 1 → s.lc.trans.isSome = true → Next (.lcsReqWrite v) s (fun t => t.lc = s.lc ∧ t.keys = s.keys ∧ t.thm = s.thm ∧
       (s.tortin.ready = true → s.tortin.server = 3 → s.boot.mend = false → regGet t aLcsResult = 0x0D03#32))) ∧
     (∀ x, s.lc.trans = some x → resetHeld s = false → bitN (lcSlot s x.slot) 3 = true → x.slot < s.lc.fuses.length →
       Next .lcEraseDone s (fun t => bitN (lcSlot t x.slot) 4 = true ∧ bitN (lcSlot t x.slot) 5 = true ∧ t.lc.trans = none ∧
         t.lc.from_ = some (lcState s) ∧ t.keys.jrn0 = [] ∧ t.keys.jrn1 = [] ∧ t.keys.objs = [] ∧ t.keys.owners = [] ∧
         t.needle = {} ∧ t.boot.area0 = {} ∧ t.boot.area1 = {} ∧ t.boot.step = .fuses ∧ t.tortin.ready = false ∧
         t.scorch = s.scorch)) ∧
     (∀ k, s.lc.cert = some k → bitOf (regGet s aTimeSrcStat) 7 = false →
       (k.notAfter.toNat < (nowCt s).toNat → Next .debugCertExpiry s (fun t => t.lc.cert = none ∧ t.lc.certOn = false ∧
         bitOf (regGet t aLcsEvt) 5 = true)) ∧
       ((nowCt s).toNat ≤ k.notAfter.toNat → Next .debugCertExpiry s (fun t => t = s))) ∧
     (s.lc.memTest = false → bitN (debugRights s) 9 = true → ∀ fails : List Nat, Next (.memTestStart fails) s (fun t =>
       t.keys.objs = [] ∧ t.keys.osks = [] ∧ t.keys.pressKeys = [] ∧ t.keys.mangleKeys = [] ∧ t.lc.memTest = true ∧ t.tortin.ready = false ∧
       t.out = (fails.reverse.map (fun a => Output.jtag (BitVec.ofNat 64 a))) ++ [.jtag (BitVec.ofNat 64 (b2n fails.isEmpty))] ++ s.out)) ∧
     (bitN (debugRights s) 9 = false → ∀ fails : List Nat, Next (.memTestStart fails) s (fun t => t = s))) ∧
  (∀ (s : State), s.pwr.vault = false →
     (∀ q, bitN (debugRights s) (jtagRight q) = false → Next (.jtagDebugRequest q) s (fun t => t = s)) ∧
     (bitN (debugRights s) 0 = true →
       Next (.jtagDebugRequest .cpHalt) s (fun t => t = { s with lc := { s.lc with cpHalt := true } }) ∧
       Next (.jtagDebugRequest .cpResume) s (fun t => t = { s with lc := { s.lc with cpHalt := false } })) ∧
     (bitN (debugRights s) 2 = true → ∀ n : Nat,
       Next (.jtagDebugRequest (.coreHalt n)) s (fun t => OnlyCore s t n ∧ coreGet t n = { coreGet s n with jtag := true }) ∧
       Next (.jtagDebugRequest (.coreStep n)) s (fun t => OnlyCore s t n ∧ coreGet t n = { coreGet s n with jtagStep := true }) ∧
       Next (.jtagDebugRequest (.coreResume n)) s (fun t => OnlyCore s t n ∧
         coreGet t n = { coreGet s n with jtag := false, jtagStep := false }) ∧
       (∀ i, i < 16 → Next (.jtagDebugRequest (.regRead n i)) s (fun t =>
         t = { s with out := .jtag (BitVec.ofNat 64 (rA (coreGet s n) i)) :: s.out })) ∧
       (∀ i v, i < 16 → i < (coreGet s n).a.length → Next (.jtagDebugRequest (.regWrite n i v)) s (fun t => OnlyCore s t n ∧
         rA (coreGet t n) i = v % 2 ^ 40)) ∧
       (∀ off, off % 4 = 0 → off < 0x40000 → Next (.jtagDebugRequest (.memRead n off true)) s (fun t =>
         t = { s with out := .jtag (BitVec.ofNat 64 (leNat (memRead (coreGet s n).work off 4))) :: s.out })) ∧
       (∀ off (v : Word), off % 4 = 0 → off < 0x40000 → Next (.jtagDebugRequest (.memWrite n off true v)) s (fun t => OnlyCore s t n ∧
         memRead (coreGet t n).work off 4 = leBytes 4 v.toNat ∧
         ∀ j, j < off ∨ off + 4 ≤ j → memByte (coreGet t n).work j = memByte (coreGet s n).work j))) ∧
     (bitN (debugRights s) 7 = true → ∀ on : Bool, (on = false ∨ pwrMode s = 0) → Next (.jtagDebugRequest (.powerHold on)) s (fun t =>
       t = { s with lc := { s.lc with pwrHold := on } })))

/-! ### Scorch and supply -/

/-- The sources fire on their conditions and on no other: both detectors of a rail, the temperature sensors, the reference frequency, the
shield mesh, the enclosure loops, the battery and the root vault's integrity code. Each firing locks the device; an intrusion Rinses it
(R488 to R496, R498). The source's condition is absent: it may fire again (R488, R506). `SCORCH.UNLOCK` ends the lock where no event came
since its start, and releases the held queues; with lost roots it asks for a reset that makes new ones. `SCORCH.DISABLE` burns a source's
fuse on the member that it names (R506 to R509). -/
def Obligations.SourcesFireUnlockAndDisable : Prop :=
  (∀ (s : State),
     (∀ rail low ns mv, s.pwr.vault = false → rail < 7 →
       (2 ≤ ns → FiresOrNot (.supplyDetectorAFire rail true low ns mv) s (2 * rail + 1)) ∧
       (ns < 2 → Next (.supplyDetectorAFire rail true low ns mv) s (fun t => t = s)) ∧
       (10000 < ns → (low = false ∨ (rail ≠ 0 ∧ rail ≠ 3)) → FiresOrNot (.supplyDetectorAFire rail false low ns mv) s (2 * rail + 1)) ∧
       (ns ≤ 10000 ∨ (low = true ∧ (rail = 0 ∨ rail = 3)) → Next (.supplyDetectorAFire rail false low ns mv) s (fun t => t = s)) ∧
       FiresOrNot (.supplyDetectorDFire rail low mv) s (2 * rail + 2)) ∧
     (∀ (t0 t1 : BitVec 16) ms, s.pwr.vault = false → mayFire s 0x10 → mayFire s 0x11 →
       (1 ≤ ms → 1000 < t0.toInt ∨ t0.toInt < -440 → -440 ≤ t1.toInt → t1.toInt ≤ 1000 → ms < 10 →
         Next (.temperatureFire t0 t1 ms) s (fun t => Fired s t 0x10 ∧ bitN t.scorch.present 0x11 = false)) ∧
       (10 ≤ ms → 160 < t0.toInt - t1.toInt ∨ 160 < t1.toInt - t0.toInt → Next (.temperatureFire t0 t1 ms) s (fun t =>
         t.scorch.locked = true ∧ bitN t.scorch.present 0x10 = true ∧ bitN t.scorch.present 0x11 = true)) ∧
       (ms = 0 → Next (.temperatureFire t0 t1 ms) s (fun t => t.scorch = s.scorch ∧ regGet t aScrTemp = t1 ++ t0))) ∧
     (∀ khz ps, s.pwr.vault = false →
       (20 * khz < 19 * 156250 ∨ 21 * 156250 < 20 * khz ∨ ps < 5000 → FiresOrNot (.referenceFrequencyFire khz ps) s 0x12) ∧
       (19 * 156250 ≤ 20 * khz → 20 * khz ≤ 21 * 156250 → 5000 ≤ ps → Next (.referenceFrequencyFire khz ps) s (fun t => t = s))) ∧
     FiresOrNot .meshFire s 0x18 ∧ (∀ loop sample, loop < 8 → FiresOrNot (.loopFire loop sample) s (0x20 + loop)) ∧
     (∀ mv, (3900 < mv → FiresOrNot (.vbatFire 0 mv) s 0x28) ∧ (mv ≤ 3900 → Next (.vbatFire 0 mv) s (fun t => t = s)) ∧
       FiresOrNot (.vbatFire 1 mv) s 0x28 ∧
       (s.pwr.vault = true → mv < 2200 → FiresOrNot (.vbatFire 2 mv) s 0x28) ∧
       (s.pwr.vault = false ∨ 2200 ≤ mv → Next (.vbatFire 2 mv) s (fun t => t = s)) ∧
       (s.pwr.vault = true → mv < 1800 → Next (.vbatFire 3 mv) s (fun t => t.keys.roots = [] ∧ t.scorch.fresh = true ∧
         t.scorch.stVbat = true ∧ t.scorch.locked = false ∧ t.time.rtc = 0 ∧ t.boot.ctl = none ∧ t.keys.jrn0 = s.keys.jrn0 ∧
         t.scorch.disabled = s.scorch.disabled))) ∧
     FiresOrNot (.vaultIntegrityCheck true) s 0x30 ∧ Next (.vaultIntegrityCheck false) s (fun t => t = s)) ∧
  (∀ (s : State) (n : Nat), bitN s.scorch.present n = true → Next (.sourceConditionAbsent n) s (fun t =>
     bitN t.scorch.present n = false ∧ t.scorch.locked = s.scorch.locked ∧ ∀ m, m ≠ n → bitN t.scorch.present m = bitN s.scorch.present m)) ∧
  (∀ (tag : Nat) (io : HostIO) (s : State) (c : Cmd) (bs : List Byte),
     ((regGet s aScrEvtCnt).toNat = c.work.nums.headD (regGet s aScrEvtCnt).toNat →
       NextIn (.scorchUnlock tag io) s tag 0x0D05 c io bs (fun t => t.scorch.locked = false ∧ t.scorch.lockSrc = 0 ∧
         t.scorch.lockCount = 0 ∧ t.scorch.rootsLost = false ∧ t.scorch.logSeq = s.scorch.logSeq + 1 ∧
         t.scorch.disabled = s.scorch.disabled ∧ (∀ q x, queueGet t q = some x → x.held = false) ∧
         (s.scorch.rootsLost = false → Ended s t tag c stOk 0 0) ∧
         (s.scorch.rootsLost = true → Ended s t tag c stOk 0 1 ∧ t.tortin.resetTag = some tag ∧
           t.scorch.approve = some (bytesAt bs 0 48, bytesAt bs 48 48)))) ∧
     ((regGet s aScrEvtCnt).toNat ≠ c.work.nums.headD (regGet s aScrEvtCnt).toNat →
       NextIn (.scorchUnlock tag io) s tag 0x0D05 c io bs (fun t => Ended s t tag c 0x0D09 ∧ t.scorch = s.scorch)) ∧
     (Started s tag 0x0D07 c →
       (inGroup s = false ∨ par c 53 1 = 0xFF ∨ par c 53 1 = s.seam.index → bitN s.scorch.disabled (par c 52 1) = false →
         Next (.scorchDisable tag) s (fun t => Ended s t tag c stOk ∧ bitN t.scorch.disabled (par c 52 1) = true ∧
           (∀ n, n ≠ par c 52 1 → bitN t.scorch.disabled n = bitN s.scorch.disabled n) ∧ t.scorch.logSeq = s.scorch.logSeq + 1 ∧
           t.scorch.locked = s.scorch.locked)) ∧
       (inGroup s = true → par c 53 1 ≠ 0xFF → par c 53 1 ≠ s.seam.index → Next (.scorchDisable tag) s (fun t =>
         Ended s t tag c stOk ∧ t.scorch = s.scorch))))

/-- The warnings and the loss of the supply (R491, R495, R512, R514 to R516): each flag, with its record; a rail below its reset threshold
puts the device into VAULT, where every volatile memory is lost, and withdraws a lock that only a provisional firing of the same rail began within
2 µs; the log is mirrored, and a full mirror loses its oldest block. Each of the nine rows answers a next state for every state and operands; in
`VAULT`, where nothing runs, it changes nothing. `SUPPLY_WARN` stands while a rail is low or the power-fail input is active. -/
def Obligations.SupplyWarningsAndVault : Prop :=
  (∀ (s : State) (c : Instr),
    ((∃ t0 t1 ms, c = .tempWarn t0 t1 ms) ∨ (∃ t0 t1 ms, c = .tempWarnClear t0 t1 ms) ∨ (∃ mv, c = .vbatLow mv) ∨
      (∃ x y, c = .supplyWarning x y) ∨ (∃ x y, c = .supplyWarningEnd x y) ∨ c = .powerFail ∨ c = .powerFailEnd ∨
      (∃ rail mv, c = .vaultEntry rail mv) ∨ c = .scorchLogMirror) →
    Next c s (fun t => s.pwr.vault = true → t = s)) ∧
  ∀ (s : State), s.pwr.vault = false →
    (∀ (t0 t1 : BitVec 16) ms, (840 < t0.toInt ∨ 840 < t1.toInt → 1 ≤ ms → s.scorch.tempWarn = false →
        Next (.tempWarn t0 t1 ms) s (fun t => t.scorch = { s.scorch with tempWarn := true } ∧ regGet t aScrTemp = t1 ++ t0 ∧
          bitOf (regGet t aScrEvt) 6 = true)) ∧
      (t0.toInt ≤ 840 ∧ t1.toInt ≤ 840 ∨ ms = 0 ∨ s.scorch.tempWarn = true → Next (.tempWarn t0 t1 ms) s (fun t =>
        t.scorch = s.scorch ∧ regGet t aScrTemp = t1 ++ t0)) ∧
      (t0.toInt ≤ 800 → t1.toInt ≤ 800 → 1 ≤ ms → Next (.tempWarnClear t0 t1 ms) s (fun t =>
        t.scorch = { s.scorch with tempWarn := false } ∧ regGet t aScrTemp = t1 ++ t0)) ∧
      (800 < t0.toInt ∨ 800 < t1.toInt ∨ ms = 0 → Next (.tempWarnClear t0 t1 ms) s (fun t => t.scorch = s.scorch))) ∧
    (∀ mv, (mv < 2300 → s.scorch.vbatLow = false → Next (.vbatLow mv) s (fun t => t.scorch = { s.scorch with vbatLow := true } ∧
        bitOf (regGet t aScrEvt) 7 = true)) ∧
      (2300 ≤ mv → Next (.vbatLow mv) s (fun t => t = { s with scorch := { s.scorch with vbatLow := false } })) ∧
      (mv < 2300 → s.scorch.vbatLow = true → Next (.vbatLow mv) s (fun t => t = s))) ∧
    (∀ core_ io_, s.scorch.railLow = false →
      (core_ < vcoreWarn s ∨ io_ < 1710 → Next (.supplyWarning core_ io_) s (fun t =>
        t.scorch = { s.scorch with supplyWarn := true, railLow := true } ∧ t.tally.want = true ∧ bitOf (regGet t aScrEvt) 4 = true)) ∧
      (vcoreWarn s ≤ core_ → 1710 ≤ io_ → Next (.supplyWarning core_ io_) s (fun t => t = s))) ∧
    (s.scorch.railLow = true → ∀ core_ io_, Next (.supplyWarning core_ io_) s (fun t => t = s)) ∧
    (∀ core_ io_, s.scorch.railLow = false ∨ core_ < vcoreWarn s + 10 ∨ io_ < 1720 →
      Next (.supplyWarningEnd core_ io_) s (fun t => t = s)) ∧
    (∀ core_ io_, s.scorch.railLow = true → vcoreWarn s + 10 ≤ core_ → 1720 ≤ io_ →
      Next (.supplyWarningEnd core_ io_) s (fun t => t = { s with scorch := { s.scorch with railLow := false, supplyWarn := s.scorch.pfw } })) ∧
    (s.scorch.pfw = false → Next .powerFail s (fun t => t.scorch = { s.scorch with pfw := true, supplyWarn := true })) ∧
    (s.scorch.pfw = true → Next .powerFail s (fun t => t = s)) ∧ (s.scorch.pfw = false → Next .powerFailEnd s (fun t => t = s)) ∧
    (s.scorch.pfw = true → Next .powerFailEnd s (fun t => t.scorch = { s.scorch with pfw := false, supplyWarn := s.scorch.railLow })) ∧
    (∀ rail mv, ((rail = 0 ∧ mv < vcoreRst s) ∨ (rail = 3 ∧ mv < 1650) → Next (.vaultEntry rail mv) s (fun t =>
        t.pwr.vault = true ∧ t.tortin.ready = false ∧ t.time.ppsOut = false ∧ t.time.acc = s.time.acc ∧ t.time.rtc = s.time.rtc ∧
        t.keys = { s.keys with objs := [], gens := [], osks := [], pend := [], pressKeys := [], mangleKeys := [] } ∧
        t.hamper = {} ∧ t.needle = {} ∧ t.slices = [] ∧
        (s.scorch.locked = true → s.scorch.others = false → (∃ p, p ∈ s.scorch.prov ∧ p.rail = rail ∧ s.time.clk ≤ p.at_ + 2 * cycUs) →
          t.scorch.locked = false ∧ ∀ q x, queueGet t q = some x → x.held = false) ∧
        (s.scorch.others = true ∨ (∀ p, p ∈ s.scorch.prov → p.rail ≠ rail ∨ p.at_ + 2 * cycUs < s.time.clk) →
          t.scorch.locked = s.scorch.locked ∧ t.scorch.log = s.scorch.log))) ∧
      (¬ ((rail = 0 ∧ mv < vcoreRst s) ∨ (rail = 3 ∧ mv < 1650)) → Next (.vaultEntry rail mv) s (fun t => t = s))) ∧
    (s.scorch.mirrored = s.scorch.logSeq → Next .scorchLogMirror s (fun t => t = s)) ∧
    (s.scorch.mirrored ≠ s.scorch.logSeq →
      (s.scorch.log.length ≤ 4096 → Next .scorchLogMirror s (fun t => t.scorch.mirrored = s.scorch.logSeq ∧
        t.scorch.log.map (·.seq) = s.scorch.log.map (·.seq) ∧ t.scorch.logSeq = s.scorch.logSeq)) ∧
      (4096 < s.scorch.log.length → Next .scorchLogMirror s (fun t => t.scorch.mirrored = s.scorch.logSeq ∧
        t.scorch.log.map (·.seq) = (s.scorch.log.drop 1024).map (·.seq) ++ [s.scorch.logSeq + 1] ∧
        bitOf (regGet t aScrEvt) 8 = true)))

/-! ### Resets and the start sequence -/

/-- What a device reset loses and keeps (R541, R542, R544 to R547, Table 20-2), from its own row, the `RESET_N` pin, and a CP restart whose
image is bad; the stuck pin and its return. A CP firmware restart keeps the device and ends the commands that had not started with
`ABORTED`; one whose effect cannot be undone records it; those that had ended stand (R72, R94, R542; log entry 42). A watchdog's expiry is
such a restart, the first in 10 s. A power-on reset begins a new epoch with the Stamp at zero, keeps what the VBAT domain and the flash
keep, and samples the straps (R24, R38, R499, R543). -/
def Obligations.DeviceCpAndPowerOnResets : Prop :=
  (let after (s t : State) : Prop :=
     t.tortin.tracker = [] ∧ t.tortin.ready = false ∧ t.tortin.server = 0 ∧ t.slices = [] ∧ t.keys.objs = [] ∧ t.keys.pend = [] ∧
     t.keys.jrn0 = s.keys.jrn0 ∧ t.keys.owners = s.keys.owners ∧ t.keys.roots = s.keys.roots ∧ t.needle = {} ∧ t.press = {} ∧
     t.mangle = {} ∧ t.dma = { s.dma with chans := tblMap (fun x => { x with frozen := false }) s.dma.chans } ∧ t.scorch = s.scorch ∧ t.time = s.time ∧ t.fn0.linkUp = false ∧ t.fn1.linkUp = false ∧
     t.boot.step = .fuses ∧ t.boot.ctl = s.boot.ctl ∧ t.lc.fuses = s.lc.fuses ∧
     (s.tally.staging = [] → t.tally.slots = s.tally.slots.filter (fun e => e.2.valid)) ∧ t.tally.staging = [] ∧
     t.tally.ports = [] ∧ regField t aDevResetCnt 15 0 = min 0xFFFF (regField s aDevResetCnt 15 0 + 1) ∧
     bitOf (regGet t aDevEvt) 5 = true ∧
     (∀ q x, queueGet s q = some x → ∃ y, queueGet t q = some y ∧ y.mode = .paused ∧ y.present = none ∧ y.key = x.key ∧ y.epoch = x.epoch)
   ∀ s : State, s.pwr.vault = false →
     (resetHeld s = false → Next .deviceReset s (after s)) ∧ (resetHeld s = true → Next .deviceReset s (fun t => t = s)) ∧
     (s.dev.resetLow = none → s.dev.stuck = false → Next (.resetNAssert true) s (fun t => after s t ∧ t.dev.resetLow = some s.time.clk)) ∧
     (s.dev.resetLow = none → s.dev.stuck = true → Next (.resetNAssert true) s (fun t =>
       t = { s with dev := { s.dev with resetLow := some s.time.clk } })) ∧
     (s.dev.resetLow.isSome = true → Next (.resetNAssert true) s (fun t => t = s)) ∧
     (s.dev.resetLow.isSome = true → Next (.resetNAssert false) s (fun t =>
       t = { s with dev := { s.dev with resetLow := none, resetHigh := s.time.clk } })) ∧
     (∀ x, s.dev.resetLow = some x → s.dev.stuck = false → x + 8 * cycS ≤ s.time.clk → Next .resetNStuck s (fun t => t.dev.stuck = true ∧
       resetHeld t = false ∧ bitOf (regGet t aScrEvt) 9 = true ∧ t.scorch.logSeq = s.scorch.logSeq + 1)) ∧
     (∀ x, s.dev.resetLow = some x → s.time.clk < x + 8 * cycS → Next .resetNStuck s (fun t => t = s)) ∧
     (s.dev.stuck = true → s.dev.resetLow = none → s.dev.resetHigh + 100 * cycMs ≤ s.time.clk → Next .resetNRearm s (fun t =>
       t.dev.stuck = false)) ∧
     (s.tortin.server = 3 → resetHeld s = false → Next (.cpFirmwareRestart false) s (after s)) ∧
     (s.tortin.server = 3 → resetHeld s = false → cpHalted s = false →
       (∀ x, s.dev.dogAt = some x → s.time.clk < x + 10 * cycS → Next (.watchdogExpiry true) s (fun t => after s t ∧
         t.dev.dogAt = some s.time.clk)) ∧
       Next (.watchdogExpiry false) s (fun t => after s t ∧ t.dev.dogAt = some s.time.clk))) ∧
  (let after (s t : State) : Prop :=
     t.tortin.retries = [] ∧ t.tortin.visit = none ∧ t.press.ctxs = [] ∧ t.time = s.time ∧ t.scorch = s.scorch ∧ t.dma = s.dma ∧
     t.dev.restartAt = nowStamp s ∧ regField t aDevResetCnt 31 16 = min 0xFFFF (regField s aDevResetCnt 31 16 + 1) ∧
     bitOf (regGet t aDevEvt) 6 = true ∧ (∀ e, e ∈ t.keys.objs → e.2.lease = 0 ∧ bitN e.2.attrs kExpire = false)
   ∀ s : State, s.pwr.vault = false → s.tortin.server = 3 → resetHeld s = false → s.seam.forming = none → s.thm.answers = [] →
     Next (.cpFirmwareRestart true) s (fun t => after s t ∧
       (∀ tag c, cmdAt s tag = some c → c.mirror = false → c.stage ≠ .started → c.stage ≠ .ended → EndedBefore t tag stAborted) ∧
       (∀ tag c, cmdAt s tag = some c → c.mirror = false → c.stage = .started → c.effect = true → Ended s t tag c stAborted) ∧
       (∀ tag c, cmdAt s tag = some c → c.stage = .ended → cmdAt t tag = some c)) ∧
     (cpHalted s = false → (∀ x, s.dev.dogAt = some x → x + 10 * cycS ≤ s.time.clk) → s.seam.role = .alone →
       Next (.watchdogExpiry true) s (fun t => after s t ∧ t.dev.dogAt = some s.time.clk))) ∧
  (∀ (s : State) (strap : Nat) (bifur : Bool), strap < 4 → Next (.powerOnReset strap bifur) s (fun t =>
     t.time.acc = 0 ∧ t.time.epoch = s.time.epoch + 1 ∧ t.time.rtc = s.time.rtc ∧ t.pwr.vault = false ∧ t.tortin.tracker = [] ∧
     t.tortin.ready = false ∧ t.slices = [] ∧ t.keys.objs = [] ∧ t.needle = {} ∧ t.scorch.locked = s.scorch.locked ∧
     t.scorch.lockSrc = s.scorch.lockSrc ∧ t.scorch.disabled = s.scorch.disabled ∧ t.scorch.logSeq = s.scorch.logSeq + 1 ∧
     t.keys.roots = s.keys.roots ∧ t.keys.jrn0 = s.keys.jrn0 ∧ t.keys.owners = s.keys.owners ∧ t.boot.strap = strap ∧
     t.boot.step = .fuses ∧ t.boot.mend = (strap == 1) ∧ t.dev.bifur = bifur ∧ t.dev.stuck = false ∧
     bitOf (regGet t aTimeSrcStat) 7 = (bitOf (regGet s aTimeSrcStat) 7 || s.scorch.fresh) ∧
     regField t aPwrState 2 0 = 0 ∧ t.lc.fuses = s.lc.fuses))

/-- The start sequence, step by step (R441, R444 to R448, R453, R458, R462): the slot, the measured copies, the check of the package, the key
store, and Tortin, which waits for Bobbin where a store key is still to be drawn, and for a chip that takes its record (R100, R214). -/
def Obligations.StartSequence : Prop :=
  ∀ (s : State), s.pwr.vault = false → s.lc.memTest = false → (s.dev.resetLow = none ∨ s.dev.stuck = true) →
    (∀ b, s.boot.step = .fuses → s.boot.ctl = some b → b.confirm = false → s.scorch.fresh = false → lcResume s = none → b.slot < 2 →
      (s.boot.mend = true → Next .startSequence s (fun t => t.boot.mend = true ∧ t.boot.step = .done ∧ t.tortin.server = 2)) ∧
      (s.boot.mend = false → b.trial = false → s.boot.early < 3 → Next .startSequence s (fun t =>
        t.boot.step = .copyThm b.slot (bootChip s) ∧ t.tortin.server = 1)) ∧
      (s.boot.mend = false → b.trial = false → 3 ≤ s.boot.early → Next .startSequence s (fun t => t.boot.mend = true ∧
        t.boot.lastStart = 6 ∧ t.tortin.server = 2)) ∧
      (s.boot.mend = false → b.trial = true → b.count < 3 → Next .startSequence s (fun t =>
        t.boot.step = .copyThm b.slot (bootChip s) ∧ t.boot.ctl.map (·.count) = some (b.count + 1))) ∧
      (s.boot.mend = false → b.trial = true → 3 ≤ b.count → Next .startSequence s (fun t => t.boot.lastStart = 2 ∧
        fwRunning t = 1 - b.slot ∧ trialOn t = false ∧ t.boot.step = .fuses))) ∧
    (∀ k chip, (s.boot.step = .copyThm k chip → Next .measuredCopyDone s (fun t => t = { s with boot := { s.boot with
        staged0 := imgDigest (fpThm (fwCopy s k chip)), step := .copyTor k chip } })) ∧
      (s.boot.step = .copyTor k chip → Next .measuredCopyDone s (fun t => t = { s with boot := { s.boot with
        staged1 := imgDigest (fpTor (fwCopy s k chip)), step := .check k chip } })) ∧
      (s.boot.step = .check k chip → fpCheck s (fwCopy s k chip) s.boot.staged0 s.boot.staged1 = stOk →
        Next .startSequence s (fun t => t.boot.bm0 = s.boot.staged0 ∧ t.boot.bm1 = s.boot.staged1 ∧ t.boot.step = .open_ k)) ∧
      (s.boot.step = .check k chip → fpCheck s (fwCopy s k chip) s.boot.staged0 s.boot.staged1 ≠ stOk →
        (chip = 0 → chipUp s.boot.chip1 = true → Next .startSequence s (fun t => t.boot.step = .copyThm k 1 ∧ t.boot.bm0 = s.boot.bm0)) ∧
        (chip ≠ 0 ∨ chipUp s.boot.chip1 = false → trialOn s = false → Next .startSequence s (fun t => t.boot.mend = true ∧
          t.boot.lastStart = 5 ∧ t.tortin.server = 2 ∧ t.boot.bm0 = [])) ∧
        (∀ b, s.boot.ctl = some b → b.slot < 2 → chip ≠ 0 ∨ chipUp s.boot.chip1 = false → trialOn s = true →
          Next .startSequence s (fun t => t.boot.lastStart = 3 ∧ fwRunning t = 1 - b.slot)))) ∧
    (∀ k, s.boot.step = .open_ k → s.scorch.vaultBad = false → lcState s ≠ 4 → (rootNow s).isSome = true →
      (∀ b g, s.boot.ctl = some b → b.gens.find? (fun g => g.bm0 == s.boot.bm0 && g.bm1 == s.boot.bm1 &&
          (g.mode == .running || g.mode == .trial)) = some g →
        (jrnTampered s = false → Next .startSequence s (fun t => t.thm.mode = .ready ∧ t.boot.step = .tortin k ∧ t.boot.ksCause = 0 ∧
          t.boot.ksGen = g.gen ∧ ∀ e, e ∈ t.keys.objs → bitN e.2.attrs kExpire = false)) ∧
        (jrnTampered s = true → Next .startSequence s (fun t => t.thm.mode = .ready ∧ t.boot.step = .tortin k ∧ t.boot.ksCause = 2 ∧
          t.keys.objs = s.keys.objs ∧ t.scorch.logSeq = s.scorch.logSeq + 1)))) ∧
    (∀ k, s.boot.step = .tortin k → firstStart s = false → storeOpen s = true → osksWait s = true → bobbinServes s = false →
      Next .tortinReady s (fun t => t = s)) ∧
    (∀ k, s.boot.step = .tortin k → firstStart s = false → storeOpen s = true → osksWait s = false ∨ bobbinServes s = true →
      tblFind 0xFFFF (oskMake s 0xFFFF).keys.osks = none → Next .tortinReady s (fun t => t = oskMake s 0xFFFF)) ∧
    (∀ k, s.boot.step = .tortin k → firstStart s = false → storeOpen s = false ∨ osksWait s = false ∨ bobbinServes s = true →
      (storeOpen s = true → (tblFind 0xFFFF (oskMake s 0xFFFF).keys.osks).isSome = true) →
      Next .tortinReady s (fun t => t.tortin.ready = true ∧ t.tortin.server = 3 ∧
      t.boot.step = .done ∧ t.boot.early = 0 ∧ t.lc.from_ = none ∧ (∀ b, t.boot.ctl = some b → b.count = 0)))

/-- A reset of a PCIe function returns its configuration space to its defaults, drops its captures, and counts; a link that trains, the
configuration writes, and the poll of the supply's monitor (R547 to R549, R564). -/
def Obligations.FunctionResetsAndLinks : Prop :=
  ∀ (s : State) (p : Nat), s.pwr.vault = false → (p = 0 ∨ (p = 1 ∧ s.dev.bifur = true)) →
    (let reset (flr : Bool) (t : State) : Prop :=
        (∃ up, fnGet t p = { linkUp := up } ∧ (flr = false → up = false)) ∧ bitOf (regGet t (aPci p 4)) (if flr then 0 else 1) = true ∧
        tblFind p t.rng.fifos = none ∧ (∀ e, e ∈ t.regs.wide → e.1 / 2 ≠ p) ∧ (∀ e, e ∈ t.regs.latch → e.1 / 2 ^ 40 ≠ p) ∧
        (t.tortin.mbx.busy = true → t.tortin.mbx.fn = p → t.tortin.mbx.mute = true)
     Next (.functionLevelReset p) s (reset true) ∧ Next (.hotReset p) s (reset false) ∧ Next (.dlDown p) s (reset false) ∧
     Next (.pciePerst p) s (reset false)) ∧
    (∀ w sp fl, (fnGet s p).linkUp = false → p < s.dev.width.length → p < s.dev.speed.length → Next (.pcieLinkUp p w sp fl) s (fun t =>
      fnGet t p = { fnGet s p with linkUp := true } ∧ t.dev.width[p]? = some w ∧ t.dev.speed[p]? = some sp)) ∧
    (∀ item, (fnGet s p).linkUp = true → Next (.configurationWrite p item) s (fun t =>
      (fnGet t p).busMaster = (cfgItem (fnGet s p) item).busMaster ∧ (fnGet t p).pasidEn = (cfgItem (fnGet s p) item).pasidEn ∧
      (fnGet t p).msixEn = (cfgItem (fnGet s p) item).msixEn ∧ (fnGet t p).fnMask = (cfgItem (fnGet s p) item).fnMask ∧
      (fnGet t p).linkUp = true ∧ t.slices = s.slices ∧ t.tortin = s.tortin)) ∧
    Next .pmicStatusPoll s (fun t => t = s)

/-! ### Rings, the tracker, the mailbox and the registers -/

/-- A fetched entry becomes a command of the tracker and the ring's head passes it with its continuation entries; a fetch that fails is tried
again as often as the slice allows, and then halts the ring (R55, R58, R61, R252; log entry 23). Input that check 9 needs arrives, and the
command goes on or ends with `HOST_FAULT`; a request of the initialisation of owner 0 is read whole first (R561). A command that passed its checks and waits for nothing starts, or ends with `DEADLINE` or the
status of its turn, or asks Thimble for its key slot; a hybrid that finds no two units takes its place in Mangle's queue; one that may not
start yet stays, and at most its turn at the random arbiter changes (R64, R65, R74, R80, R181, R219). -/
def Obligations.EntriesAreFetchedAndCommandsStart : Prop :=
  (∀ (s : State) (n k : Nat) (r : SqRing), ringsServed s = true → fetchTurn s = some (n, k) → sqGet (sliceGet s n) k = r →
     (∀ bs more kept tag, fnLive s (sliceGet s n).port = true → contEntries (bytesAt bs 0 64) = more →
       (1 + more ≤ sqPending r → placeKind s n (bitOf r.cfg 30) = some kept → tblFree s.tortin.tracker 0 16384 = some tag →
         Next (.commandFetch n k (.data bs)) s (fun t => (sqGet (sliceGet t n) k).head = (r.head + 1 + more) % ringSize r.cfg ∧
           ∃ d, cmdAt t tag = some d ∧ d.body = bytesAt bs 0 64 ∧ d.origin = .ring n k r.head ∧ d.order = s.tortin.order ∧
             d.accepted = nowStamp s)) ∧
       (sqPending r < 1 + more → Next (.commandFetch n k (.data bs)) s (fun t => t.tortin = s.tortin ∧
         sqGet (sliceGet t n) k = { r with stall := some r.tail }))) ∧
     (∀ data, fnLive s (sliceGet s n).port = false ∨ data = .fault →
       (retryFails s (.sqFetch n k) + 1 ≤ (sliceGet s n).retry → Next (.commandFetch n k data) s (fun t => t.slices = s.slices ∧
         (retryOf t (.sqFetch n k)).map (·.fails) = some (retryFails s (.sqFetch n k) + 1))) ∧
       ((sliceGet s n).retry < retryFails s (.sqFetch n k) + 1 → Next (.commandFetch n k data) s (fun t =>
         ringHalted (sqGet (sliceGet t n) k).cfg = true ∧ ringOn (sqGet (sliceGet t n) k).cfg = false ∧
         (sqGet (sliceGet t n) k).head = r.head ∧ retryOf t (.sqFetch n k) = none)))) ∧
  (∀ (s : State) (tag : Nat) (c : Cmd), cmdAt s tag = some c → tortinRuns s = true → c.mirror = false →
     (∀ io, c.stage = .preread →
       ((liveIO s c { input := io }).input = .fault → Next (.inputPrereadDone tag io) s (fun t => EndedBefore t tag stHostFault)) ∧
       (∀ bs, (liveIO s c { input := io }).input = .data bs → Next (.inputPrereadDone tag io) s (fun t =>
         ∃ d, cmdAt t tag = some d ∧ d.body = c.body ∧ (d.stage ≠ .preread ∨ (initRequest s d = true ∧ d.copy.isSome = true))))) ∧
     (∀ x, c.stage = .waiting → c.passed = true → specAll s c = some x → startReady s c x = true → alarmAhead s tag c = false →
       (isPair s c = true → pairNow s = false → Next (.commandStart tag) s (fun t =>
         ∃ d, cmdAt t tag = some d ∧ d.stage = .waiting ∧ d.queued = true)) ∧
       ((isPair s c = true → pairNow s = true) →
       (x.late ≠ stOk → c.joined = false → Next (.commandStart tag) s (fun t => EndedBefore t tag x.late)) ∧
       (x.late = stOk ∨ c.joined = true → x.binds.all (fun b => cacheAllows s b.1 b.2 x.usage) = true → s.scorch.locked = false ∨ lockPermits s c = true →
         (x.place = none ∨ c.placed.isSome = true →
           (cDeadline c ≠ 0 → cDeadline c < (nowStamp s).toNat → Next (.commandStart tag) s (fun t => EndedBefore t tag stDeadline)) ∧
           (cDeadline c = 0 ∨ (nowStamp s).toNat ≤ cDeadline c → Next (.commandStart tag) s (fun t =>
             ∃ d, cmdAt t tag = some d ∧ d.stage = .started ∧ d.body = c.body ∧ d.started = nowStamp s ∧ d.approval = none ∧
               d.uses = []))) ∧
         (∀ m, x.place = some m → c.placed = none → thmWaits s tag = false → placeStatus s c m = stOk → thmRoom s = true →
           Next (.commandStart tag) s (fun t => cmdAt t tag = some c ∧ t.thm.reqs = s.thm.reqs ++
             [{ op := 4, tag := s.thm.nextTag, nums := [m], alarm := cAlarm c, cmd := some tag, taken := s.time.clk }]))))) ∧
     (∀ x, c.stage = .waiting → c.passed = true → specAll s c = some x → startReady s c x = false →
       Next (.commandStart tag) s (fun t => t = { s with rng := { s.rng with reqs := t.rng.reqs } })))

/-- An ended command's completion is written to its ring in three writes, bytes 12 to 31, 0 to 7 and 8 to 11, the tail advances, the phase
turns at a wrap, and the command leaves the tracker; with no room it waits; a write that fails is tried again, and then halts the ring
(R56 to R58, R66 to R68). A host access that failed is tried again 1 µs later, not earlier; a read that no completion answers counts and
fails like one that an error answers (R58, R252). -/
def Obligations.CompletionsAreWrittenAndAccessesRetried : Prop :=
  (∀ (s : State) (tag n k i q : Nat) (c : Cmd) (r : CqRing), cmdAt s tag = some c → tortinRuns s = true → c.mirror = false →
     c.stage = .ended → isPrimary s = false →
     (c.origin = .ring n k i → cmdCq s c = q → cqGet (sliceGet s n) q = r → retryOf s (.cqWrite n q) = none →
       (cqRoom s n q = true → fnLive s (sliceGet s n).port = true → (sliceGet s n).mode = .active → s.tortin.resetTag ≠ some tag →
         s.pwr.standby ≠ some tag → Next (.completionWrite tag true) s (fun t =>
           (let bs := compBytes (cToken c) r.phase (cmdIndex c) c.comp
            let a := ringBase r.baseLo r.baseHi + 32 * r.tail
            let w (o : Nat) (b : List Byte) : Output := .hostWrite (sliceGet s n).port (some (sliceGet s n).pasid) (a + o) b
            ∃ l, t.out = l ++ [w 8 (bytesAt bs 8 4), w 0 (bs.take 8), w 12 (bs.drop 12)] ++ (putOutput s c c.out).out) ∧
           (cqGet (sliceGet t n) q).tail = (r.tail + 1) % ringSize r.cfg ∧
           (cqGet (sliceGet t n) q).phase = (if (r.tail + 1) % ringSize r.cfg = 0 then !r.phase else r.phase) ∧
           cmdAt t tag = none)) ∧
       (∀ ok, cqRoom s n q = false → Next (.completionWrite tag ok) s (fun t => t = s)) ∧
       (cqRoom s n q = true → 1 ≤ (sliceGet s n).retry → Next (.completionWrite tag false) s (fun t => t.slices = s.slices ∧
         cmdAt t tag = some c ∧ (retryOf t (.cqWrite n q)).map (·.fails) = some 1)) ∧
       (cqRoom s n q = true → (sliceGet s n).retry = 0 → Next (.completionWrite tag false) s (fun t =>
         ringHalted (cqGet (sliceGet t n) q).cfg = true ∧ ringOn (cqGet (sliceGet t n) q).cfg = false ∧
         (cqGet (sliceGet t n) q).tail = r.tail ∧ cmdAt t tag = some c))) ∧
     (∀ p ok, c.origin = .mailbox p → s.tortin.resetTag ≠ some tag → s.pwr.standby ≠ some tag → Next (.completionWrite tag ok) s (fun t =>
       t.tortin.mbx.busy = false ∧ t.tortin.mbx.done = true ∧ cmdAt t tag = none))) ∧
  (∀ (s : State) (n k : Nat), (sliceGet s n).mode = .active → ringOn (sqGet (sliceGet s n) k).cfg = true → ringsServed s = true →
     (∀ w data tr, retryDue s w = false → Next (.hostAccessRetry w data tr) s (fun t => t = s)) ∧
     (∀ x, retryOf s (.sqFetch n k) = some x → x.at_ + cycUs ≤ s.time.clk → (placeKind s n (alarmRing s n k)).isSome = true →
       (x.fails + 1 ≤ (sliceGet s n).retry → (sliceGet s n).port < 2 → Next (.hostAccessRetry (.sqFetch n k) .fault false) s (fun t =>
         (retryOf t (.sqFetch n k)).map (·.fails) = some (x.fails + 1) ∧ t.slices = s.slices ∧
         regGet t (aPci (sliceGet s n).port 0x24) = satAdd32 (regGet s (aPci (sliceGet s n).port 0x24)) 1)) ∧
       ((sliceGet s n).retry < x.fails + 1 → (sliceGet s n).port < 2 → Next (.hostAccessRetry (.sqFetch n k) .fault false) s (fun t =>
         ringHalted (sqGet (sliceGet t n) k).cfg = true ∧ ringOn (sqGet (sliceGet t n) k).cfg = false))) ∧
     (readOut s (.sqFetch n k) = true → fnLive s (sliceGet s n).port = true → (sliceGet s n).port < 2 →
       retryFails s (.sqFetch n k) + 1 ≤ (sliceGet s n).retry → Next (.completionTimeout (.sqFetch n k)) s (fun t =>
         (retryOf t (.sqFetch n k)).map (·.fails) = some (retryFails s (.sqFetch n k) + 1) ∧ t.slices = s.slices ∧
         regGet t (aPci (sliceGet s n).port 0x14) = satAdd32 (regGet s (aPci (sliceGet s n).port 0x14)) 1 ∧
         bitOf (regGet t (aPci (sliceGet s n).port 4)) 4 = true)) ∧
     (∀ w, readOut s w = false → Next (.completionTimeout w) s (fun t => t = s)))

/-- A doorbell is taken, with the Stamp of its arrival, only where it announces at least what is already announced, and otherwise marks the ring and
is counted (R45, R53). -/
def Obligations.DoorbellsAreChecked : Prop :=
  ∀ (s : State) (n fn k : Nat) (pasid : Option Nat) (v : Word), PageTakes s n fn pasid → k < 16 →
    (∀ r, sqGet (sliceGet s n) k = r →
      let size := ringSize r.cfg
      let x := v.toNat % 4096
      (x < size ∧ (r.tail + size - r.head) % size ≤ (x + size - r.head) % size → Next (.sqTailWrite fn n k pasid v) s (fun t =>
        sqGet (sliceGet t n) k = { r with tail := x, bell := bellAt (wakeUp s 0) } ∧ (sliceGet t n).sqErr = (sliceGet s n).sqErr ∧
        (sliceGet t n).ignWr = (sliceGet s n).ignWr)) ∧
      (¬ (x < size ∧ (r.tail + size - r.head) % size ≤ (x + size - r.head) % size) → Next (.sqTailWrite fn n k pasid v) s (fun t =>
        (sliceGet t n).sq = (sliceGet s n).sq ∧ bitOf (sliceGet t n).sqErr k = true ∧
        (sliceGet t n).ignWr = satAdd32 (sliceGet s n).ignWr 1)))

/-- `GO` starts the mailbox's request, or is refused and counted while one is in progress (R78, R79). A ring is configured while its `EN` is
0, begins at index 0 when it is enabled, and resumes where it halted; the vector of a completion ring lies in the slice's allocation, and its
head is taken up to its tail and no further (R57; how R53 is read for it is the model's choice, log entry 57). The
coalescing time and an unmasked vector raise what waits; a page that takes no write counts it, and a function that is not there does nothing
(R17, R51, R52, R77, R336). -/
def Obligations.MailboxAndRingConfiguration : Prop :=
  (∀ (s : State) (p : Nat) (v : Word), s.pwr.vault = false → portThere s p = true → 2 ≤ pwrMode s → procRuns s = false →
     Next (.mbxGo p v) s (fun t => HeldIn s t (.write p none (.reg aMbxCtrl) v))) ∧
  (∀ (s : State) (p : Nat) (v : Word), s.pwr.vault = false → pwrMode s ≤ 1 → portThere s p = true →
     (s.lc.trans = none → bitOf v 0 = true → s.tortin.server ≠ 0 → cpHalted s = false →
       (s.tortin.mbx.busy = false → Next (.mbxGo p v) s (fun t => t.tortin.mbx.busy = true ∧ t.tortin.mbx.done = false ∧
         t.tortin.mbx.fn = p ∧ ∃ d, cmdAt t mbxTag = some d ∧ d.origin = .mailbox p ∧ d.order = s.tortin.order)) ∧
       (s.tortin.mbx.busy = true → Next (.mbxGo p v) s (fun t =>
         t.tortin = { s.tortin with mbx := { s.tortin.mbx with refused := true } } ∧
         regGet t aMbxRefused = satAdd32 (regGet s aMbxRefused) 1))) ∧
     (s.lc.trans = none → s.tortin.server = 0 ∨ cpHalted s = true → Next (.mbxGo p v) s (fun t => t.tortin = s.tortin)) ∧
     (s.lc.trans = none → bitOf v 0 = false → Next (.mbxGo p v) s (fun t => t.tortin = s.tortin ∧ regGet t aMbxCtrl = v &&& 2#32)) ∧
     (s.lc.trans.isSome = true → Next (.mbxGo p v) s (fun t => t.tortin = s.tortin))) ∧
  (∀ (s : State) (p : Nat) (v : Word), s.pwr.vault = true ∨ portThere s p = false → Next (.mbxGo p v) s (fun t => t = s)) ∧
  (∀ (s : State) (n fn k : Nat) (pasid : Option Nat) (v : Word),
     (∀ r, PageTakes s n fn pasid → sqGet (sliceGet s n) k = r →
       (4 ≤ fieldOf v 3 0 → fieldOf v 3 0 ≤ 12 → ringOn r.cfg = false → ringHalted r.cfg = false ∨ ringOn v = false →
         Next (.sqCfgWrite fn n k pasid v) s (fun t =>
           let w := (v &&& ~~~ keepOf s sqKeep) ||| (r.cfg &&& keepOf s sqKeep)
           sqGet (sliceGet t n) k = (let y := { r with cfg := if (sliceGet s n).alarmOk then w else putBit w 30 false }
             if ringOn v then { y with head := 0, tail := 0, stall := none } else y))) ∧
       (4 ≤ fieldOf v 3 0 → fieldOf v 3 0 ≤ 12 → ringOn r.cfg = false → ringHalted r.cfg = true → ringOn v = true →
         Next (.sqCfgWrite fn n k pasid v) s (fun t => ringHalted (sqGet (sliceGet t n) k).cfg = false ∧
           (sqGet (sliceGet t n) k).head = r.head)) ∧
       (4 ≤ fieldOf v 3 0 → fieldOf v 3 0 ≤ 12 → ringOn r.cfg = true → ringOn v = false →
         Next (.sqCfgWrite fn n k pasid v) s (fun t => sqGet (sliceGet t n) k = { r with
           cfg := if (sliceGet s n).alarmOk then putBit r.cfg 31 false else putBit (putBit r.cfg 31 false) 30 false })) ∧
       (fieldOf v 3 0 < 4 ∨ 12 < fieldOf v 3 0 ∨ (ringOn r.cfg = true ∧ ringOn v = true) → Next (.sqCfgWrite fn n k pasid v) s (fun t =>
         (sliceGet t n).sq = (sliceGet s n).sq ∧ (sliceGet t n).ignWr = satAdd32 (sliceGet s n).ignWr 1))) ∧
     (∀ r, PageTakes s n fn pasid → k < 16 → cqGet (sliceGet s n) k = r →
        let size := ringSize r.cfg
        let x := v.toNat % 4096
        (x < size ∧ (x + size - r.head) % size ≤ (r.tail + size - r.head) % size → Next (.cqHeadWrite fn n k pasid v) s (fun t =>
          cqGet (sliceGet t n) k = { r with head := x, bell := bellAt (wakeUp s 0) } ∧ (sliceGet t n).cqErr = (sliceGet s n).cqErr)) ∧
        (¬ (x < size ∧ (x + size - r.head) % size ≤ (r.tail + size - r.head) % size) → Next (.cqHeadWrite fn n k pasid v) s (fun t =>
          (sliceGet t n).cq = (sliceGet s n).cq ∧ bitOf (sliceGet t n).cqErr k = true ∧
          (sliceGet t n).ignWr = satAdd32 (sliceGet s n).ignWr 1))) ∧
     (∀ r, PageTakes s n fn pasid → cqGet (sliceGet s n) k = r →
       (4 ≤ fieldOf v 3 0 → fieldOf v 3 0 ≤ 12 → ringOn r.cfg = false → ringHalted r.cfg = false → ringOn v = true →
         fieldOf v 20 16 < (sliceGet s n).vecCount → Next (.cqCfgWrite fn n k pasid v) s (fun t =>
           let y := cqGet (sliceGet t n) k
           y.cfg = (v &&& ~~~ keepOf s cqKeep) ||| (r.cfg &&& keepOf s cqKeep) ∧ y.head = 0 ∧ y.tail = 0 ∧ y.phase = true)) ∧
       (4 ≤ fieldOf v 3 0 → fieldOf v 3 0 ≤ 12 → ringOn r.cfg = false → ringHalted r.cfg = true → ringOn v = true →
         fieldOf v 20 16 < (sliceGet s n).vecCount → Next (.cqCfgWrite fn n k pasid v) s (fun t =>
           ringHalted (cqGet (sliceGet t n) k).cfg = false ∧ (cqGet (sliceGet t n) k).tail = r.tail)) ∧
       (4 ≤ fieldOf v 3 0 → fieldOf v 3 0 ≤ 12 → ringOn r.cfg = false → ringOn v = false → fieldOf v 20 16 < (sliceGet s n).vecCount →
         Next (.cqCfgWrite fn n k pasid v) s (fun t =>
           cqGet (sliceGet t n) k = { r with cfg := (v &&& ~~~ keepOf s cqKeep) ||| (r.cfg &&& keepOf s cqKeep) })) ∧
       ((sliceGet s n).vecCount ≤ fieldOf v 20 16 ∨ fieldOf v 3 0 < 4 ∨ 12 < fieldOf v 3 0 ∨ (ringOn r.cfg = true ∧ ringOn v = true) →
         Next (.cqCfgWrite fn n k pasid v) s (fun t =>
           (sliceGet t n).cq = (sliceGet s n).cq ∧ (sliceGet t n).ignWr = satAdd32 (sliceGet s n).ignWr 1)) ∧
       (4 ≤ fieldOf v 3 0 → fieldOf v 3 0 ≤ 12 → ringOn r.cfg = true → ringOn v = false → fieldOf v 20 16 < (sliceGet s n).vecCount →
         Next (.cqCfgWrite fn n k pasid v) s (fun t => cqGet (sliceGet t n) k = { r with cfg := putBit r.cfg 31 false }))) ∧
     (s.pwr.vault = false → portThere s fn = true → 2 ≤ pwrMode s → procRuns s = false → k < 16 →
       Next (.sqTailWrite fn n k pasid v) s (fun t => HeldIn s t (pageReq fn n (0x10C + 0x20 * k) pasid v)) ∧
       Next (.cqHeadWrite fn n k pasid v) s (fun t => HeldIn s t (pageReq fn n (0x30C + 0x20 * k) pasid v)) ∧
       Next (.sqCfgWrite fn n k pasid v) s (fun t => HeldIn s t (pageReq fn n (0x108 + 0x20 * k) pasid v)) ∧
       Next (.cqCfgWrite fn n k pasid v) s (fun t => HeldIn s t (pageReq fn n (0x308 + 0x20 * k) pasid v))) ∧
     (s.pwr.vault = false → pwrMode s ≤ 1 → portThere s fn = true → (sliceGet s n).port = fn → (sliceGet s n).mode ≠ .unbound → ((sliceGet s n).mode ≠ .active ∨
       s.lc.trans.isSome = true ∨ ∃ p, pasid = some p ∧ p ≠ (sliceGet s n).pasid) →
       (∀ i, i = .sqTailWrite fn n k pasid v ∨ i = .cqHeadWrite fn n k pasid v ∨ i = .sqCfgWrite fn n k pasid v ∨
         i = .cqCfgWrite fn n k pasid v → Next i s (fun t => (sliceGet t n).sq = (sliceGet s n).sq ∧
           (sliceGet t n).cq = (sliceGet s n).cq ∧ (sliceGet t n).ignWr = satAdd32 (sliceGet s n).ignWr 1))) ∧
     (∀ r, cqGet (sliceGet s n) k = r → r.since ≠ 0 → fieldOf r.cfg 25 24 = 2 →
       (r.firstAt + fieldOf r.coal 31 16 * cycUs ≤ s.time.clk → Next (.cqCoalTimeout n k) s (fun t =>
         (cqGet (sliceGet t n) k).since = 0 ∧
         ((sliceGet s n).parking = false → canRaise s (sliceGet s n).port ((sliceGet s n).vecBase + fieldOf r.cfg 20 16) →
           t.out = .msix (sliceGet s n).port ((sliceGet s n).vecBase + fieldOf r.cfg 20 16) :: s.out))) ∧
       (s.time.clk < r.firstAt + fieldOf r.coal 31 16 * cycUs → Next (.cqCoalTimeout n k) s (fun t => t = s))) ∧
     ((cqGet (sliceGet s n) k).since = 0 ∨ fieldOf (cqGet (sliceGet s n) k).cfg 25 24 ≠ 2 → Next (.cqCoalTimeout n k) s (fun t => t = s)) ∧
     (∀ vec, s.pwr.vault = true ∨ portThere s fn = false ∨ msixEntries s ≤ vec → Next (.msixVectorUnmask fn vec) s (fun t => t = s)) ∧
     (∀ vec, s.pwr.vault = false → portThere s fn = true → vec < msixEntries s → Next (.msixVectorUnmask fn vec) s (fun t => tblGet false (fnGet t fn).unmasked vec = true ∧
       (tblGet false (fnGet s fn).pba vec = true → hostSilent s = false → fnLive s fn = true → (fnGet s fn).msixEn = true →
         (fnGet s fn).fnMask = false → t.out = .msix fn vec :: s.out ∧ tblGet false (fnGet t fn).pba vec = false) ∧
       (tblGet false (fnGet s fn).pba vec = false → t.out = s.out))))

/-- Complement pairs (R432, R433): the value write changes nothing yet and begins a pair; the complement in time at the guard port makes the
register take the value with its effects; any other guard write, and 10 µs without one, leave the register and report the case. A write to
a clear register clears the masked bits only where it carries the present `SEQ`; another clears nothing and is counted (R434). -/
def Obligations.PairsAndSequenceClears : Prop :=
  (∀ (s s0 : State) (p a : Nat) (b : Blk) (d : RegDesc) (v : Word), mayWrite (.fn p) b d = true → blkReach (.fn p) b = true →
     (resolve (.fn p) a = .reg b a d → d.acc = .cpw → HostWrites s s0 p a → Next (.cpwValueWrite (.fn p) a v) s (fun t =>
       pairOf t b = some { req := (Requester.fn p).cls, addr := a, value := v, at_ := s.time.clk } ∧
       (pairOf s0 b = none → t.regs.file = s0.regs.file))) ∧
     (∀ g q, resolve (.fn p) g = .guard b a d → HostWrites s s0 p g → pairOf s0 b = some q → q.addr = a →
       s.time.clk - q.at_ ≤ pairCycles →
       (v = q.value ^^^ 0xFFFFFFFF#32 → Next (.cpwGuardWrite (.fn p) g v) s (fun t =>
         t = cpwTake (setPair (noteHostCpw s0 (.fn p) b) b none) b a d q.value ∧
         (b ∉ [.time, .scr, .rng, .hem, .thm] → (∀ i, b ≠ .lnk i) → regGet t a = mergeWrite s0 (regGet s0 a) q.value d))) ∧
       (v ≠ q.value ^^^ 0xFFFFFFFF#32 → a ∉ [aDevGuardFail, aDevEvt, aDevGuardInfo] → Next (.cpwGuardWrite (.fn p) g v) s (fun t =>
         pairOf t b = none ∧ regGet t a = regGet s0 a ∧ regGet t aDevGuardFail = satAdd32 (regGet s0 aDevGuardFail) 1 ∧
         fieldOf (regGet t aDevGuardInfo) 31 28 = 1 ∧ bitOf (regGet t aDevEvt) 0 = true))) ∧
     (∀ q, blkOf a = some b → pairOf s b = some q → q.req < 4 → pairCycles < s.time.clk - q.at_ → Next (.cpwPairTimeout a) s (fun t =>
       pairOf t b = none ∧ fieldOf (regGet t aDevGuardInfo) 31 28 = 2 ∧ regGet t aDevGuardFail = satAdd32 (regGet s aDevGuardFail) 1))) ∧
  (∀ (s s0 : State) (p a : Nat) (b : Blk) (d : RegDesc) (v : Word), resolve (.fn p) a = .reg b a d → d.acc = .clr → b ≠ .dma →
     mayWrite (.fn p) b d = true → blkReach (.fn p) b = true → HostWrites s s0 p a → pairOf s0 b = none →
     (fieldOf v 31 24 = fieldOf (regGet s0 (a - 4)) 31 24 → Next (.sqcClearWrite (.fn p) a v) s (fun t =>
       regGet t (a - 4) = regGet s0 (a - 4) &&& ~~~ (v &&& 0xFFFFFF#32) ∧ ∀ x, x ≠ a - 4 → regGet t x = regGet s0 x)) ∧
     (fieldOf v 31 24 ≠ fieldOf (regGet s0 (a - 4)) 31 24 → Next (.sqcClearWrite (.fn p) a v) s (fun t =>
       regGet t aDevSqcMiss = satAdd32 (regGet s0 aDevSqcMiss) 1 ∧ bitOf (regGet t aDevEvt) 4 = true ∧
       ∀ x, x ≠ aDevSqcMiss → x ≠ aDevEvt → regGet t x = regGet s0 x)))

/-- Host accesses to registers: a plain register takes the write in its writable bits, a read-only one ignores and counts it; narrow writes,
long requests and atomic requests have no effect but their counts and answers; a `_LO` half is read with its other half; the wide windows
show what they captured; while a life-cycle transition runs every write but one of `LCS_REQ` is ignored and counted (R425, R428, R430, R431,
R435, R475). -/
def Obligations.RegisterAccesses : Prop :=
  ∀ (s s0 : State) (p a : Nat) (b : Blk) (d : RegDesc) (v : Word), hostArrives s (.fn p) a true = some s0 → resolve (.fn p) a = .reg b a d →
    (s0.lc.trans.isSome = true → a ≠ aLcsReq → Next (.registerWrite (.fn p) none (.reg a) v) s (fun t => t = ignWrite s0)) ∧
    (s0.lc.trans = none → pairOf s0 b = none →
      (d.acc = .ro ∨ mayWrite (.fn p) b d = false → Next (.registerWrite (.fn p) none (.reg a) v) s (fun t => t = ignWrite s0)) ∧
      (d.acc = .rw → mayWrite (.fn p) b d = true → (b ∈ [.scr, .tly, .seam, .pci] ∨ (b = .mbx ∧ a ≠ aMbxCtrl)) → blkReach (.fn p) b = true →
        Next (.registerWrite (.fn p) none (.reg a) v) s (fun t =>
          (let m := if lcState s0 = 0 then d.wmask ||| d.rwp else d.wmask
           regGet t a = (regGet s0 a &&& ~~~ m) ||| (v &&& m)) ∧ ∀ x, x ≠ a → regGet t x = regGet s0 x)) ∧
      Next (.narrowWrite (.fn p) none (.reg a)) s (fun t => t = narrowWrite s0 ∧
        regGet t aDevNarrowWr = satAdd32 (regGet s0 aDevNarrowWr) 1 ∧ bitOf (regGet t aDevEvt) 1 = true)) ∧
    (∀ s1, hostArrives s (.fn p) 0 true = some s1 → p < 2 → Next (.longTlp p true) s (fun t => t.out = .completerAbort p :: s.out ∧
        regGet t aDevLongTlp = satAdd32 (regGet s1 aDevLongTlp) 1 ∧ regGet t (aPci p 0x18) = satAdd32 (regGet s1 (aPci p 0x18)) 1) ∧
      Next (.atomicOpRequest p) s (fun t => t.out = .unsupported p :: s.out ∧
        regGet t (aPci p 0x1C) = satAdd32 (regGet s1 (aPci p 0x1C)) 1)) ∧
    (∀ s1 w, hostArrives s (.fn p) a false = some s1 → pairValue s1 b (a - blkBase b) = some w → blkReach (.fn p) b = true →
      Next (.loHalfRead (.fn p) a) s (fun t => t.out = .reply (.fn p) a (w.extractLsb' 0 32) :: s.out ∧
        latchGet t (.fn p) (a + 4) = w.extractLsb' 32 32)) ∧
    (∀ queue s1, HostWrites s s1 p (aWide queue true) → Next (.wideSelWrite (.fn p) queue v) s (fun t =>
      (wideGet t (.fn p) (b2n queue)).valid = false ∧ (wideGet t (.fn p) (b2n queue)).data = [] ∧
      (wideGet t (.fn p) (b2n queue)).sel = v &&& (if queue then 0x3FFF#32 else 0xC003FFFF#32))) ∧
    (∀ queue s1 x, HostWrites s s1 p (aWide queue false) → bitOf v 0 = true → x = (if queue then Blk.que else Blk.hmp) →
      Next (.wideCapture (.fn p) queue v) s (fun t => wideGet t (.fn p) (b2n queue) = { wideGet s1 (.fn p) (b2n queue) with
        valid := true
        data := if queue then queSelected (arrive s1 x) (wideGet s1 (.fn p) (b2n queue)).sel
          else hmpSelected (arrive s1 x) (wideGet s1 (.fn p) (b2n queue)).sel }))

/-! ### Encodings and the spec's examples -/

/-- Every well-formed Gulos instruction is read back from its words, whatever follows them, and every legal instruction that is read from
given bytes is well-formed and has just those bytes as its words (R365 to R367). -/
def Obligations.GulosEncodingRoundTrip : Prop :=
  (∀ (i : GInstr) (rest : List Byte), gWf i = true → gDecode (gEncode i ++ rest) = some i) ∧
  (∀ (bs : List Byte) (i : GInstr), gDecode bs = some i → i.legal = true → i.len ≤ bs.length →
    gWf i = true ∧ gEncode i = bs.take i.len)

/-- A modulo operand and a bit-reversed operand access the address register's place and step it as R368 and R369 say; an operand that they
exclude has no address, and its instruction raises `MODULO` (cause 5, Table 13-12) with no effect. A block instruction with elements to go
raises it; a write to a read-only control register is `ILLEGAL` before any operand (log entry 32). -/
def Obligations.ModuloAndBitReversedSteps : Prop :=
  (∀ (s : State) (n : Nat) (r : Instr) (g : GOp) (i : GInstr), GulosRow n r g → Executes s n g i →
    (isBlock g = true → (coreGet s n).cnt ≠ 0) → (g = .ldr → ¬ (bitsN (selOf i) 7 4 = 5 ∧ crReadOnly (bitsN (selOf i) 3 0) = true)) →
    (eaOperands (coreGet s n) (coreGet s n).pc i ((rolesOf i.op).zip i.specs)).1.any (fun o => o.ea == .modulo) = true →
    Raises r s n 5 none s) ∧
  ∀ (k : Core) (pc s : Nat) (p : Spec), 0 < s →
    let a := rA k p.an
    let b := rB k p.an
    let l := rL k p.an
    let m := toSigned 32 (rM k p.mn)
    (p.mode = 6 →
      (l ≠ 0 ∧ s ∣ l ∧ b ≤ a ∧ a < b + l ∧ m.natAbs ≤ l →
        effAddr k pc s p = (.addr a, { k with a := k.a.set p.an (((b : Int) + ((a : Int) - b + m) % l) % 2 ^ 40).toNat })) ∧
      (¬ (l ≠ 0 ∧ s ∣ l ∧ b ≤ a ∧ a < b + l ∧ m.natAbs ≤ l) → effAddr k pc s p = (.modulo, k))) ∧
    (p.mode = 7 →
      (∀ w, 1 ≤ w → w ≤ 16 → l = s * 2 ^ w → (s : Int) ∣ m → b ≤ a → s ∣ a - b → a - b < l →
        effAddr k pc s p = (.addr a, { k with
          a := k.a.set p.an ((b + s * revBits w ((revBits w ((a - b) / s) + revBits w ((m / s) % 2 ^ w).toNat) % 2 ^ w)) % 2 ^ 40) })) ∧
      ((¬ ∃ w, 1 ≤ w ∧ w ≤ 16 ∧ l = s * 2 ^ w) ∨ ¬ (s : Int) ∣ m ∨ a < b ∨ ¬ s ∣ a - b ∨ l ≤ a - b →
        effAddr k pc s p = (.modulo, k)))

/-- What the spec's worked examples give: the words of the third `BMACQ` of chapter 13, read back as it says, in three words; the ring of R368
at its second access, at its end and backwards; the first and the last step of the walk of Table 13-7; and the calendar time of R37. -/
def Obligations.TheSpecsExamplesHold : Prop :=
  (∃ i, gDecode ([0x07112500, 0x63305600, 0x00000004].flatMap (leBytes 4)) = some i ∧ i.op = .bmacq ∧ i.sense = false ∧ i.pred = 0 ∧
    i.size = 2 ∧ i.len = 12 ∧ i.legal = true ∧ i.specs.map (fun p => (p.mode, p.an, p.mn, p.ext)) = [(2, 5, 0, 0), (6, 3, 3, 0), (5, 6, 0, 4)]) ∧
  (∀ (k : Core) (p : Spec), p.mode = 6 → p.an = 2 → p.mn = 2 → rB k 2 = 0x30081000 → rL k 2 = 0x60 → 2 < k.a.length →
    (rM k 2 = 2 → rA k 2 = 0x3008105C → (effAddr k 0 2 p).1 = .addr 0x3008105C ∧ rA (effAddr k 0 2 p).2 2 = 0x3008105E) ∧
    (rM k 2 = 2 → rA k 2 = 0x3008105E → (effAddr k 0 2 p).1 = .addr 0x3008105E ∧ rA (effAddr k 0 2 p).2 2 = 0x30081000) ∧
    (rM k 2 = 0xFFFFFFFE → rA k 2 = 0x30081000 → rA (effAddr k 0 2 p).2 2 = 0x3008105E)) ∧
  (∀ (k : Core) (p : Spec), p.mode = 7 → p.an = 3 → p.mn = 3 → rB k 3 = 0x30084000 → rL k 3 = 32 → rM k 3 = 16 → 3 < k.a.length →
    (rA k 3 = 0x30084000 → rA (effAddr k 0 4 p).2 3 = 0x30084010) ∧ (rA k 3 = 0x30084010 → rA (effAddr k 0 4 p).2 3 = 0x30084008) ∧
    (rA k 3 = 0x3008401C → rA (effAddr k 0 4 p).2 3 = 0x30084000)) ∧
  (∀ (s : State), bitOf (regGet s aTimeSrcStat) 7 = false → regGet64 s aTimeCtBaseLo aTimeCtBaseHi = 0x0070DBD880800000#64 →
    ctAt s 0x00000E1040000000#64 = 0x0070DBE690C00000#64)
end

