-- ==== Sys2Proof/Laws/Table.lean ====
section
/-! SUPPORT. Tables: what a key reads as after an entry is put, deleted or set, and that every operation keeps the canonical
form; the same for byte memories. -/

namespace Sys2Proof.Machine

variable {α : Type}

theorem tblFind_put_same (k : Nat) (v : α) (t : Tbl α) : tblFind k (tblPut k v t) = some v := by
  induction t with
  | nil => simp [tblPut, tblFind]
  | cons e t ih =>
    obtain ⟨j, w⟩ := e
    simp only [tblPut]
    split
    · simp [tblFind]
    · split
      · simp [tblFind]
      · rename_i _ h
        simp only [tblFind]
        rw [if_neg (fun e => h e.symm)]
        exact ih

theorem tblFind_put_other {k i : Nat} (v : α) (t : Tbl α) (h : i ≠ k) : tblFind i (tblPut k v t) = tblFind i t := by
  induction t with
  | nil => simp [tblPut, tblFind, h.symm]
  | cons e t ih =>
    obtain ⟨j, w⟩ := e
    simp only [tblPut]
    split
    · simp [tblFind, h.symm]
    · split
      · rename_i _ hk
        subst hk
        simp [tblFind, h.symm]
      · simp only [tblFind, ih]

theorem tblFind_del_other {k i : Nat} (t : Tbl α) (h : i ≠ k) : tblFind i (tblDel k t) = tblFind i t := by
  induction t with
  | nil => rfl
  | cons e t ih =>
    obtain ⟨j, w⟩ := e
    simp only [tblDel]
    split
    · rename_i hj
      subst hj
      simp [tblFind, h.symm, ih]
    · simp only [tblFind, ih]

theorem tblFrom_mono {lo hi : Nat} {t : Tbl α} (h : lo ≤ hi) (ht : tblFrom hi t = true) : tblFrom lo t = true := by
  cases t with
  | nil => rfl
  | cons e t =>
    simp only [tblFrom, Bool.and_eq_true, decide_eq_true_eq] at ht ⊢
    exact ⟨Nat.le_trans h ht.1, ht.2⟩

theorem tblFind_del_same (k : Nat) (t : Tbl α) : tblFind k (tblDel k t) = none := by
  induction t with
  | nil => rfl
  | cons e t ih =>
    obtain ⟨j, w⟩ := e
    simp only [tblDel]
    split
    · exact ih
    · rename_i h
      simp only [tblFind]
      rw [if_neg h]
      exact ih

theorem tblFrom_put {lo k : Nat} {v : α} {t : Tbl α} (hk : lo ≤ k) (ht : tblFrom lo t = true) :
    tblFrom lo (tblPut k v t) = true := by
  induction t generalizing lo with
  | nil => simp [tblPut, tblFrom, hk]
  | cons e t ih =>
    obtain ⟨j, w⟩ := e
    simp only [tblFrom, Bool.and_eq_true, decide_eq_true_eq] at ht
    simp only [tblPut]
    split
    · simp only [tblFrom, Bool.and_eq_true, decide_eq_true_eq]
      exact ⟨hk, by omega, ht.2⟩
    · split
      · rename_i h
        subst h
        simp only [tblFrom, Bool.and_eq_true, decide_eq_true_eq]
        exact ⟨hk, ht.2⟩
      · simp only [tblFrom, Bool.and_eq_true, decide_eq_true_eq]
        exact ⟨ht.1, ih (by omega) ht.2⟩

theorem tblFrom_del {lo k : Nat} {t : Tbl α} (ht : tblFrom lo t = true) : tblFrom lo (tblDel k t) = true := by
  induction t generalizing lo with
  | nil => rfl
  | cons e t ih =>
    obtain ⟨j, w⟩ := e
    simp only [tblFrom, Bool.and_eq_true, decide_eq_true_eq] at ht
    simp only [tblDel]
    split
    · exact ih (tblFrom_mono (by omega) ht.2)
    · simp only [tblFrom, Bool.and_eq_true, decide_eq_true_eq]
      exact ⟨ht.1, ih ht.2⟩

theorem mem_tblPut {k : Nat} {v : α} {t : Tbl α} {e : Nat × α} (h : e ∈ tblPut k v t) : e = (k, v) ∨ e ∈ t := by
  induction t with
  | nil => simp only [tblPut, List.mem_singleton] at h; exact .inl h
  | cons x t ih =>
    obtain ⟨j, w⟩ := x
    simp only [tblPut] at h
    split at h
    · rcases List.mem_cons.1 h with h | h
      · exact .inl h
      · exact .inr h
    · split at h
      · rcases List.mem_cons.1 h with h | h
        · exact .inl h
        · exact .inr (List.mem_cons_of_mem _ h)
      · rcases List.mem_cons.1 h with h | h
        · exact .inr (h ▸ List.mem_cons_self)
        · rcases ih h with h | h
          · exact .inl h
          · exact .inr (List.mem_cons_of_mem _ h)

theorem mem_tblDel {k : Nat} {t : Tbl α} {e : Nat × α} (h : e ∈ tblDel k t) : e ∈ t := by
  induction t with
  | nil => exact h
  | cons x t ih =>
    obtain ⟨j, w⟩ := x
    simp only [tblDel] at h
    split at h
    · exact List.mem_cons_of_mem _ (ih h)
    · rcases List.mem_cons.1 h with h | h
      · exact h ▸ List.mem_cons_self
      · exact List.mem_cons_of_mem _ (ih h)

theorem tblFrom_keep {p : Nat → α → Bool} {lo : Nat} {t : Tbl α} (h : tblFrom lo t = true) : tblFrom lo (tblKeep p t) = true := by
  induction t generalizing lo with
  | nil => rfl
  | cons e t ih =>
    simp only [tblFrom, Bool.and_eq_true, decide_eq_true_eq] at h
    unfold tblKeep at ih ⊢
    rw [List.filter_cons]
    split
    · simp only [tblFrom, Bool.and_eq_true, decide_eq_true_eq]
      exact ⟨h.1, ih h.2⟩
    · exact ih (tblFrom_mono (by omega) h.2)

theorem tblSorted_keep {p : Nat → α → Bool} {t : Tbl α} (h : tblSorted t = true) : tblSorted (tblKeep p t) = true := tblFrom_keep h

theorem tblFrom_map {β : Type} {f : α → β} {lo : Nat} {t : Tbl α} (h : tblFrom lo t = true) : tblFrom lo (tblMap f t) = true := by
  induction t generalizing lo with
  | nil => rfl
  | cons e t ih =>
    simp only [tblFrom, Bool.and_eq_true, decide_eq_true_eq] at h
    unfold tblMap at ih ⊢
    simp only [List.map_cons, tblFrom, Bool.and_eq_true, decide_eq_true_eq]
    exact ⟨h.1, ih h.2⟩

theorem tblSorted_map {β : Type} {f : α → β} {t : Tbl α} (h : tblSorted t = true) : tblSorted (tblMap f t) = true := tblFrom_map h

variable [DecidableEq α]

/-- Setting a key keeps the canonical form. -/
theorem tblWf_set {d v : α} {k : Nat} {t : Tbl α} (h : tblWf d t = true) : tblWf d (tblSet d k v t) = true := by
  simp only [tblWf, tblSorted, Bool.and_eq_true, List.all_eq_true, decide_eq_true_eq] at h ⊢
  unfold tblSet
  split
  · exact ⟨tblFrom_del h.1, fun e he => h.2 e (mem_tblDel he)⟩
  · rename_i hv
    refine ⟨tblFrom_put (Nat.zero_le _) h.1, fun e he => ?_⟩
    rcases mem_tblPut he with rfl | he
    · exact hv
    · exact h.2 e he

theorem tblSorted_set {d v : α} {k : Nat} {t : Tbl α} (h : tblSorted t = true) : tblSorted (tblSet d k v t) = true := by
  unfold tblSet
  split
  · exact tblFrom_del h
  · exact tblFrom_put (Nat.zero_le _) h

/-- A key that has been set reads as the value set. -/
theorem tblGet_set_same {d v : α} {k : Nat} {t : Tbl α} : tblGet d (tblSet d k v t) k = v := by
  unfold tblGet tblSet
  split
  · rename_i hv
    rw [tblFind_del_same, hv]; rfl
  · rw [tblFind_put_same]; rfl

/-- Every other key reads as before. -/
theorem tblGet_set_other {d v : α} {k i : Nat} {t : Tbl α} (h : i ≠ k) : tblGet d (tblSet d k v t) i = tblGet d t i := by
  unfold tblGet tblSet
  split
  · rw [tblFind_del_other t h]
  · rw [tblFind_put_other v t h]

/-- Writing bytes keeps the canonical form of a memory. -/
theorem memWf_write {m : ByteMem} {a : Nat} {bs : List Byte} (h : memWf m = true) : memWf (memWrite m a bs) = true := by
  induction bs generalizing m a with
  | nil => exact h
  | cons b bs ih => exact ih (tblWf_set h)

/-- A byte outside the bytes written reads as before. -/
theorem memByte_write_other {m : ByteMem} {a i : Nat} {bs : List Byte} (h : i < a ∨ a + bs.length ≤ i) :
    memByte (memWrite m a bs) i = memByte m i := by
  induction bs generalizing m a with
  | nil => rfl
  | cons b bs ih =>
    simp only [List.length_cons] at h
    have e := ih (m := tblSet 0 a b m) (a := a + 1) (by omega)
    rw [memWrite, e]
    exact tblGet_set_other (by omega)

/-- The bytes just written are read back. -/
theorem memRead_write {m : ByteMem} {a : Nat} {bs : List Byte} :
    memRead (memWrite m a bs) a bs.length = bs := by
  induction bs generalizing m a with
  | nil => rfl
  | cons b bs ih =>
    simp only [memWrite, List.length_cons, memRead]
    rw [ih, memByte_write_other (by omega)]
    congr 1
    exact tblGet_set_same

end Sys2Proof.Machine
end

