-- ==== Sys2Proof/Laws/Frame.lean ====
section
/-! SUPPORT. `Only` composes: it is reflexive and transitive, grows with its mask, and follows a record update, a fold and a
conditional. The files Laws/Frame….lean prove for every operation `f` a lemma `f_only`, which says what `f` changes, and, where
needed, `f_keep`, which adds `f` to a chain. Bit `i` of a mask is the part whose `Part.bit` is `i`. -/

namespace Sys2Proof.Machine

def sub (m n : Nat) : Bool := m ||| n == n
theorem sub_bit {m n i : Nat} (h : sub m n = true) (hb : m.testBit i = true) : n.testBit i = true := by
  have : m ||| n = n := by simpa [sub] using h
  rw [← this, Nat.testBit_or, hb]; rfl
theorem sub_trans {l m n : Nat} (h : sub l m = true) (k : sub m n = true) : sub l n = true := by
  have h1 : l ||| m = m := by simpa [sub] using h
  have h2 : m ||| n = n := by simpa [sub] using k
  have : l ||| n = n := by rw [← h2, ← Nat.or_assoc, h1]
  simp [sub, this]
theorem Only.refl {m : Nat} {a : State} : Only m a a where
  pending := rfl
  clk := rfl
  drawn := Nat.le_refl _
  bufs := fun h => h
  file := fun h => h
  cores := fun h => h
  out := .inr rfl
  draws := .inr rfl
  time := .inr rfl
  pwr := .inr rfl
  regs := .inr rfl
  dev := .inr rfl
  agentSeq := .inr rfl
  fn0 := .inr rfl
  fn1 := .inr rfl
  slices := .inr rfl
  tortin := .inr rfl
  tally := .inr rfl
  scorch := .inr rfl
  keys := .inr rfl
  seam := .inr rfl
  hamper := .inr rfl
  needle := .inr rfl
  links := .inr rfl
  press := .inr rfl
  mangle := .inr rfl
  rng := .inr rfl
  dma := .inr rfl
  thm := .inr rfl
  boot := .inr rfl
  lc := .inr rfl
  locked := .inr id
  fuses := .inr fun _ => id
  secMin := .inr (Nat.le_refl _)
  lcFuses := .inr fun _ _ => id
theorem Only.trans {m : Nat} {a b c : State} (h : Only m a b) (k : Only m b c) : Only m a c where
  pending := k.pending.trans h.pending
  clk := k.clk.trans h.clk
  drawn := Nat.le_trans h.drawn k.drawn
  bufs := fun x => k.bufs (h.bufs x)
  file := fun x => k.file (h.file x)
  cores := fun x => k.cores (h.cores x)
  out := h.out.elim .inl fun x => k.out.elim .inl fun y => .inr (y.trans x)
  draws := h.draws.elim .inl fun x => k.draws.elim .inl fun y => .inr (y.trans x)
  time := h.time.elim .inl fun x => k.time.elim .inl fun y => .inr (y.trans x)
  pwr := h.pwr.elim .inl fun x => k.pwr.elim .inl fun y => .inr (y.trans x)
  regs := h.regs.elim .inl fun x => k.regs.elim .inl fun y => .inr (y.trans x)
  dev := h.dev.elim .inl fun x => k.dev.elim .inl fun y => .inr (y.trans x)
  agentSeq := h.agentSeq.elim .inl fun x => k.agentSeq.elim .inl fun y => .inr (y.trans x)
  fn0 := h.fn0.elim .inl fun x => k.fn0.elim .inl fun y => .inr (y.trans x)
  fn1 := h.fn1.elim .inl fun x => k.fn1.elim .inl fun y => .inr (y.trans x)
  slices := h.slices.elim .inl fun x => k.slices.elim .inl fun y => .inr (y.trans x)
  tortin := h.tortin.elim .inl fun x => k.tortin.elim .inl fun y => .inr (y.trans x)
  tally := h.tally.elim .inl fun x => k.tally.elim .inl fun y => .inr (y.trans x)
  scorch := h.scorch.elim .inl fun x => k.scorch.elim .inl fun y => .inr (y.trans x)
  keys := h.keys.elim .inl fun x => k.keys.elim .inl fun y => .inr (y.trans x)
  seam := h.seam.elim .inl fun x => k.seam.elim .inl fun y => .inr (y.trans x)
  hamper := h.hamper.elim .inl fun x => k.hamper.elim .inl fun y => .inr (y.trans x)
  needle := h.needle.elim .inl fun x => k.needle.elim .inl fun y => .inr (y.trans x)
  links := h.links.elim .inl fun x => k.links.elim .inl fun y => .inr (y.trans x)
  press := h.press.elim .inl fun x => k.press.elim .inl fun y => .inr (y.trans x)
  mangle := h.mangle.elim .inl fun x => k.mangle.elim .inl fun y => .inr (y.trans x)
  rng := h.rng.elim .inl fun x => k.rng.elim .inl fun y => .inr (y.trans x)
  dma := h.dma.elim .inl fun x => k.dma.elim .inl fun y => .inr (y.trans x)
  thm := h.thm.elim .inl fun x => k.thm.elim .inl fun y => .inr (y.trans x)
  boot := h.boot.elim .inl fun x => k.boot.elim .inl fun y => .inr (y.trans x)
  lc := h.lc.elim .inl fun x => k.lc.elim .inl fun y => .inr (y.trans x)
  locked := h.locked.elim .inl fun x => k.locked.elim .inl fun y => .inr fun z => y (x z)
  fuses := h.fuses.elim .inl fun x => k.fuses.elim .inl fun y => .inr fun i z => y i (x i z)
  secMin := h.secMin.elim .inl fun x => k.secMin.elim .inl fun y => .inr (Nat.le_trans x y)
  lcFuses := h.lcFuses.elim .inl fun x => k.lcFuses.elim .inl fun y => .inr fun i j z => y i j (x i j z)
theorem Only.mono {m n : Nat} {a b : State} (hs : sub m n = true) (h : Only m a b) : Only n a b where
  pending := h.pending
  clk := h.clk
  drawn := h.drawn
  bufs := h.bufs
  file := h.file
  cores := h.cores
  out := h.out.imp (sub_bit hs) id
  draws := h.draws.imp (sub_bit hs) id
  time := h.time.imp (sub_bit hs) id
  pwr := h.pwr.imp (sub_bit hs) id
  regs := h.regs.imp (sub_bit hs) id
  dev := h.dev.imp (sub_bit hs) id
  agentSeq := h.agentSeq.imp (sub_bit hs) id
  fn0 := h.fn0.imp (sub_bit hs) id
  fn1 := h.fn1.imp (sub_bit hs) id
  slices := h.slices.imp (sub_bit hs) id
  tortin := h.tortin.imp (sub_bit hs) id
  tally := h.tally.imp (sub_bit hs) id
  scorch := h.scorch.imp (sub_bit hs) id
  keys := h.keys.imp (sub_bit hs) id
  seam := h.seam.imp (sub_bit hs) id
  hamper := h.hamper.imp (sub_bit hs) id
  needle := h.needle.imp (sub_bit hs) id
  links := h.links.imp (sub_bit hs) id
  press := h.press.imp (sub_bit hs) id
  mangle := h.mangle.imp (sub_bit hs) id
  rng := h.rng.imp (sub_bit hs) id
  dma := h.dma.imp (sub_bit hs) id
  thm := h.thm.imp (sub_bit hs) id
  boot := h.boot.imp (sub_bit hs) id
  lc := h.lc.imp (sub_bit hs) id
  locked := h.locked.imp (sub_bit hs) id
  fuses := h.fuses.imp (sub_bit hs) id
  secMin := h.secMin.imp (sub_bit hs) id
  lcFuses := h.lcFuses.imp (sub_bit hs) id
theorem Only.step {m n : Nat} {a b c : State} (k : Only m b c) (hs : sub m n = true) (h : Only n a b) : Only n a c :=
  h.trans (k.mono hs)
theorem memWf_nil : memWf [] = true := rfl
theorem Only.upd {m : Nat} {a b : State} {p : List Instr} {x0 : List Output} {x1 : Nat} {x2 : TimeState} {x3 : PwrState} {x4 : RegState} {x5 : DevState} {x6 : Tbl (BitVec 16)} {x7 : FnState} {x8 : FnState} {x9 : Tbl Slice} {x10 : TortinState} {x11 : TallyState} {x12 : ScorchState} {x13 : KeyState} {x14 : SeamState} {x15 : HamperState} {x16 : NeedleState} {x17 : LinkState} {x18 : PressState} {x19 : MangleState} {x20 : RngState} {x21 : DmaState} {x22 : ThmState} {x23 : BootState} {x24 : LcState}
    (pending_ : p = b.pending) (h : Only m a b) (clk_ : x2.clk = b.time.clk := by rfl)
    (drawn_ : b.draws ≤ x1 := by first | exact Nat.le_refl _ | exact Nat.le_succ _)
    (bufs_ : memWf b.hamper.data = true → memWf x15.data = true := by first | exact fun h => h | exact fun _ => memWf_nil | exact fun _ => by decide)
    (file_ : tblSorted b.regs.file = true → tblSorted x4.file = true := by first | exact fun h => h | exact tblSorted_keep | exact fun _ => by decide)
    (cores_ : tblSorted b.needle.cores = true → tblSorted x16.cores = true := by first | exact fun h => h | exact tblSorted_map | exact fun _ => by decide)
    (out_ : m.testBit 0 = true ∨ x0 = b.out := by first | exact Or.inl rfl | exact Or.inr rfl)
    (draws_ : m.testBit 1 = true ∨ x1 = b.draws := by first | exact Or.inl rfl | exact Or.inr rfl)
    (time_ : m.testBit 2 = true ∨ x2 = b.time := by first | exact Or.inl rfl | exact Or.inr rfl)
    (pwr_ : m.testBit 3 = true ∨ x3 = b.pwr := by first | exact Or.inl rfl | exact Or.inr rfl)
    (regs_ : m.testBit 4 = true ∨ x4 = b.regs := by first | exact Or.inl rfl | exact Or.inr rfl)
    (dev_ : m.testBit 5 = true ∨ x5 = b.dev := by first | exact Or.inl rfl | exact Or.inr rfl)
    (agentSeq_ : m.testBit 6 = true ∨ x6 = b.agentSeq := by first | exact Or.inl rfl | exact Or.inr rfl)
    (fn0_ : m.testBit 7 = true ∨ x7 = b.fn0 := by first | exact Or.inl rfl | exact Or.inr rfl)
    (fn1_ : m.testBit 8 = true ∨ x8 = b.fn1 := by first | exact Or.inl rfl | exact Or.inr rfl)
    (slices_ : m.testBit 9 = true ∨ x9 = b.slices := by first | exact Or.inl rfl | exact Or.inr rfl)
    (tortin_ : m.testBit 10 = true ∨ x10 = b.tortin := by first | exact Or.inl rfl | exact Or.inr rfl)
    (tally_ : m.testBit 11 = true ∨ x11 = b.tally := by first | exact Or.inl rfl | exact Or.inr rfl)
    (scorch_ : m.testBit 12 = true ∨ x12 = b.scorch := by first | exact Or.inl rfl | exact Or.inr rfl)
    (keys_ : m.testBit 13 = true ∨ x13 = b.keys := by first | exact Or.inl rfl | exact Or.inr rfl)
    (seam_ : m.testBit 14 = true ∨ x14 = b.seam := by first | exact Or.inl rfl | exact Or.inr rfl)
    (hamper_ : m.testBit 15 = true ∨ x15 = b.hamper := by first | exact Or.inl rfl | exact Or.inr rfl)
    (needle_ : m.testBit 16 = true ∨ x16 = b.needle := by first | exact Or.inl rfl | exact Or.inr rfl)
    (links_ : m.testBit 17 = true ∨ x17 = b.links := by first | exact Or.inl rfl | exact Or.inr rfl)
    (press_ : m.testBit 18 = true ∨ x18 = b.press := by first | exact Or.inl rfl | exact Or.inr rfl)
    (mangle_ : m.testBit 19 = true ∨ x19 = b.mangle := by first | exact Or.inl rfl | exact Or.inr rfl)
    (rng_ : m.testBit 20 = true ∨ x20 = b.rng := by first | exact Or.inl rfl | exact Or.inr rfl)
    (dma_ : m.testBit 21 = true ∨ x21 = b.dma := by first | exact Or.inl rfl | exact Or.inr rfl)
    (thm_ : m.testBit 22 = true ∨ x22 = b.thm := by first | exact Or.inl rfl | exact Or.inr rfl)
    (boot_ : m.testBit 23 = true ∨ x23 = b.boot := by first | exact Or.inl rfl | exact Or.inr rfl)
    (lc_ : m.testBit 24 = true ∨ x24 = b.lc := by first | exact Or.inl rfl | exact Or.inr rfl)
    (locked_ : m.testBit 25 = true ∨ (b.scorch.locked = true → x12.locked = true) := by first | exact Or.inr fun h => h | exact Or.inr fun _ => rfl | exact Or.inl rfl)
    (fuses_ : m.testBit 26 = true ∨ ∀ i, bitN b.scorch.disabled i = true → bitN x12.disabled i = true := by first | exact Or.inr fun _ h => h | exact Or.inl rfl)
    (secMin_ : m.testBit 27 = true ∨ b.boot.secMin ≤ x23.secMin := by first | exact Or.inr (Nat.le_refl _) | exact Or.inl rfl)
    (lcFuses_ : m.testBit 28 = true ∨ ∀ k i, bitN (b.lc.fuses.getD k 0) i = true → bitN (x24.fuses.getD k 0) i = true := by first | exact Or.inr fun _ _ h => h | exact Or.inl rfl) :
    Only m a ⟨p, x0, x1, x2, x3, x4, x5, x6, x7, x8, x9, x10, x11, x12, x13, x14, x15, x16, x17, x18, x19, x20, x21, x22, x23, x24⟩ :=
  h.trans ⟨pending_, clk_, drawn_, bufs_, file_, cores_, out_, draws_, time_, pwr_, regs_, dev_, agentSeq_, fn0_, fn1_, slices_, tortin_, tally_, scorch_, keys_, seam_, hamper_, needle_, links_, press_, mangle_, rng_, dma_, thm_, boot_, lc_, locked_, fuses_, secMin_, lcFuses_⟩
theorem Only.foldl {α : Type} {m : Nat} {a : State} {g : State → α → State} {l : List α} {s : State}
    (hg : ∀ s x, Only m s (g s x)) (h : Only m a s) : Only m a (l.foldl g s) := by
  induction l generalizing s with
  | nil => exact h
  | cons x t ih => exact ih (h.trans (hg s x))
theorem Only.foldl2 {α β : Type} {m : Nat} {a : State} {g : β × State → α → β × State} {l : List α} {s : β × State}
    (hg : ∀ s x, Only m s.2 (g s x).2) (h : Only m a s.2) : Only m a (l.foldl g s).2 := by
  induction l generalizing s with
  | nil => exact h
  | cons x t ih => exact ih (h.trans (hg s x))
theorem Only.ite {m : Nat} {a x y : State} {p : Prop} [Decidable p] (hx : p → Only m a x) (hy : ¬ p → Only m a y) :
    Only m a (if p then x else y) := by
  by_cases h : p
  · rw [if_pos h]; exact hx h
  · rw [if_neg h]; exact hy h
theorem bitN_testBit (n i : Nat) : bitN n i = n.testBit i := by
  rw [bitN, Nat.testBit_eq_decide_div_mod_eq]; by_cases h : n / 2 ^ i % 2 = 1 <;> simp [h]
theorem bitN_or {a m i : Nat} (h : bitN a i = true) : bitN (Nat.lor a m) i = true := by
  rw [bitN_testBit] at *
  exact (Nat.testBit_or a m i).trans (by rw [h]; rfl)
theorem bitN_add {d n i : Nat} (hn : bitN d n = false) (h : bitN d i = true) : bitN (d + 2 ^ n) i = true := by
  rw [bitN_testBit] at *
  rcases Nat.lt_trichotomy n i with hlt | rfl | hgt
  · obtain ⟨k, rfl⟩ := Nat.exists_eq_add_of_lt hlt
    have hq : (d + 2 ^ n) / 2 ^ (n + 1) = d / 2 ^ (n + 1) := by
      rw [Nat.pow_succ, ← Nat.div_div_eq_div_mul, ← Nat.div_div_eq_div_mul, Nat.add_div_right _ (Nat.two_pow_pos n)]
      rw [Nat.testBit_eq_decide_div_mod_eq] at hn
      have : d / 2 ^ n % 2 ≠ 1 := by simpa using hn
      omega
    have e : n + k + 1 = k + (n + 1) := by omega
    rw [e, ← Nat.testBit_div_two_pow] at h ⊢
    rw [hq]; exact h
  · simp [hn] at h
  · rw [Nat.add_comm, Nat.testBit_two_pow_add_gt hgt]; exact h
theorem fuse_setAt {l : List Nat} {k m j i : Nat} (h : bitN (l.getD j 0) i = true) :
    bitN ((setAt l k (Nat.lor (l.getD k 0) m)).getD j 0) i = true := by
  unfold setAt
  rw [List.getD_eq_getElem?_getD, List.getElem?_set]
  split
  · rename_i e
    subst e
    split
    · exact bitN_or (by rw [List.getD_eq_getElem?_getD] at *; exact h)
    · rename_i hk
      rw [List.getD_eq_getElem?_getD, List.getElem?_eq_none (by omega)] at h
      exact h
  · rw [← List.getD_eq_getElem?_getD]; exact h
def GOnly (m : Nat) (a : State) : GRes → Prop
  | .done t | .branch t _ | .stay t | .jump t | .halt t _ | .exc t _ _ => Only m a t
  | .wait => True
theorem GOnly.mono {m n : Nat} {a : State} {r : GRes} (hs : sub m n = true) (h : GOnly m a r) : GOnly n a r := by
  cases r <;> first | exact True.intro | exact Only.mono hs h
theorem GOnly.trans {m : Nat} {a b : State} {r : GRes} (h : Only m a b) (k : GOnly m b r) : GOnly m a r := by
  cases r <;> first | exact True.intro | exact Only.trans h k
theorem Only.ite2 {α : Type} {m : Nat} {a : State} {x y : α × State} {p : Prop} [Decidable p] (hx : p → Only m a x.2) (hy : ¬ p → Only m a y.2) :
    Only m a (if p then x else y).2 := by
  by_cases h : p
  · rw [if_pos h]; exact hx h
  · rw [if_neg h]; exact hy h
theorem GOnly.done {m : Nat} {a t : State} (h : Only m a t) : GOnly m a (.done t) := h
theorem GOnly.branch {m : Nat} {a t : State} {x : Nat} (h : Only m a t) : GOnly m a (.branch t x) := h
theorem GOnly.stay {m : Nat} {a t : State} (h : Only m a t) : GOnly m a (.stay t) := h
theorem GOnly.jump {m : Nat} {a t : State} (h : Only m a t) : GOnly m a (.jump t) := h
theorem GOnly.halt {m : Nat} {a t : State} {r : Nat} (h : Only m a t) : GOnly m a (.halt t r) := h
theorem GOnly.exc {m : Nat} {a t : State} {c : Nat} {x : Option Nat} (h : Only m a t) : GOnly m a (.exc t c x) := h
theorem GOnly.wait {m : Nat} {a : State} : GOnly m a .wait := True.intro
theorem GOnly.ite {m : Nat} {a : State} {x y : GRes} {p : Prop} [Decidable p] (hx : p → GOnly m a x) (hy : ¬ p → GOnly m a y) :
    GOnly m a (if p then x else y) := by
  by_cases h : p
  · rw [if_pos h]; exact hx h
  · rw [if_neg h]; exact hy h
structure OOnly (m : Nat) (a : State) (o : Host.Outcome State Fault Refusal) : Prop where
  out : ∀ t, o = .next t → Only m a t
theorem OOnly.fault {m : Nat} {a : State} {f : Fault} : OOnly m a (.fault f) := ⟨fun _ h => by cases h⟩
theorem OOnly.next {m : Nat} {a t : State} (h : Only m a t) : OOnly m a (.next t) := by
  exact ⟨fun u hu => by cases hu; exact h⟩
theorem OOnly.mono {m n : Nat} {a : State} {r : Host.Outcome State Fault Refusal} (hs : sub m n = true) (h : OOnly m a r) : OOnly n a r :=
  ⟨fun t ht => (h.out t ht).mono hs⟩
theorem OOnly.of {n : Nat} {a t : State} {o : Host.Outcome State Fault Refusal} (he : o = .next t) (h : OOnly n a o) : Only n a t := h.out t he
theorem OOnly.ite {m : Nat} {a : State} {x y : Host.Outcome State Fault Refusal} {p : Prop} [Decidable p] (hx : p → OOnly m a x) (hy : ¬ p → OOnly m a y) :
    OOnly m a (if p then x else y) := by
  by_cases h : p
  · rw [if_pos h]; exact hx h
  · rw [if_neg h]; exact hy h

end Sys2Proof.Machine
end

