-- ==== Sys2Proof/Laws/FrameBase.lean ====
section
/-! SUPPORT. What each operation of these files of Machine/ changes (see Laws/Frame.lean): Ops, Journal, Operands, Registers, SeamBase,
Hamper, Tally, Random, Power. -/

namespace Sys2Proof.Machine

set_option linter.all false
set_option Elab.async false

variable {n_ : Nat} {a_ : State}

theorem regPut_only {s : State} {a : Nat} {v : Word} : Only 16 s (regPut s a v) := by
  unfold regPut
  exact Only.upd rfl .refl (file_ := tblSorted_set)
theorem regPut_keep {s : State} {a : Nat} {v : Word} (hs : sub 16 n_ = true) (hk_ : Only n_ a_ s) : Only n_ a_ (regPut s a v) := regPut_only.step hs hk_

theorem regAdd_only {s : State} {a : Nat} {n : Nat} : Only 16 s (regAdd s a n) := by
  unfold regAdd
  try dsimp only
  all_goals (repeat' (first
    | with_reducible apply Only.refl
    | with_reducible apply regPut_keep rfl
    | dsimp only
    | intro _))
theorem regAdd_keep {s : State} {a : Nat} {n : Nat} (hs : sub 16 n_ = true) (hk_ : Only n_ a_ s) : Only n_ a_ (regAdd s a n) := regAdd_only.step hs hk_

theorem regSetField_only {s : State} {a : Nat} {hi : Nat} {lo : Nat} {v : Nat} : Only 16 s (regSetField s a hi lo v) := by
  unfold regSetField
  try dsimp only
  all_goals (repeat' (first
    | with_reducible apply Only.refl
    | with_reducible apply regPut_keep rfl
    | dsimp only
    | intro _))
theorem regSetField_keep {s : State} {a : Nat} {hi : Nat} {lo : Nat} {v : Nat} (hs : sub 16 n_ = true) (hk_ : Only n_ a_ s) : Only n_ a_ (regSetField s a hi lo v) := regSetField_only.step hs hk_

theorem regSetBit_only {s : State} {a : Nat} {i : Nat} {b : Bool} : Only 16 s (regSetBit s a i b) := by
  unfold regSetBit
  try dsimp only
  all_goals (repeat' (first
    | with_reducible apply Only.refl
    | with_reducible apply regPut_keep rfl
    | dsimp only
    | intro _))
theorem regSetBit_keep {s : State} {a : Nat} {i : Nat} {b : Bool} (hs : sub 16 n_ = true) (hk_ : Only n_ a_ s) : Only n_ a_ (regSetBit s a i b) := regSetBit_only.step hs hk_

theorem sqcSet_only {s : State} {a : Nat} {bit : Nat} : Only 16 s (sqcSet s a bit) := by
  unfold sqcSet
  try dsimp only
  all_goals (repeat' (first
    | with_reducible apply Only.refl
    | with_reducible apply regPut_keep rfl
    | dsimp only
    | intro _))
theorem sqcSet_keep {s : State} {a : Nat} {bit : Nat} (hs : sub 16 n_ = true) (hk_ : Only n_ a_ s) : Only n_ a_ (sqcSet s a bit) := sqcSet_only.step hs hk_

theorem regPut64_only {s : State} {lo : Nat} {hi : Nat} {v : BitVec 64} : Only 16 s (regPut64 s lo hi v) := by
  unfold regPut64
  try dsimp only
  all_goals (repeat' (first
    | with_reducible apply Only.refl
    | with_reducible apply regPut_keep rfl
    | dsimp only
    | intro _))
theorem regPut64_keep {s : State} {lo : Nat} {hi : Nat} {v : BitVec 64} (hs : sub 16 n_ = true) (hk_ : Only n_ a_ s) : Only n_ a_ (regPut64 s lo hi v) := regPut64_only.step hs hk_

theorem freeWord_only {s : State} : Only 2 s (freeWord s).2 := by
  unfold freeWord
  try dsimp only
  all_goals (repeat' (first
    | with_reducible apply Only.refl
    | fail_if_no_progress (with_reducible apply Only.upd rfl)
    | dsimp only
    | intro _))
theorem freeWord_keep {s : State} (hs : sub 2 n_ = true) (hk_ : Only n_ a_ s) : Only n_ a_ (freeWord s).2 := freeWord_only.step hs hk_
theorem freeWord_keepE {s : State} {y0_ : BitVec 64} {t_ : State} (hs : sub 2 n_ = true) (he : freeWord s = (y0_, t_)) (hk_ : Only n_ a_ s) : Only n_ a_ t_ := by
  have := freeWord_keep hs hk_ (s := s)
  rw [he] at this; exact this

theorem freeBytes_only {s : State} {n : Nat} : Only 2 s (freeBytes s n).2 := by
  unfold freeBytes
  try dsimp only
  all_goals (repeat' (first
    | with_reducible apply Only.refl
    | fail_if_no_progress (with_reducible apply Only.upd rfl)
    | dsimp only
    | intro _))
theorem freeBytes_keep {s : State} {n : Nat} (hs : sub 2 n_ = true) (hk_ : Only n_ a_ s) : Only n_ a_ (freeBytes s n).2 := freeBytes_only.step hs hk_
theorem freeBytes_keepE {s : State} {n : Nat} {y0_ : List Byte} {t_ : State} (hs : sub 2 n_ = true) (he : freeBytes s n = (y0_, t_)) (hk_ : Only n_ a_ s) : Only n_ a_ t_ := by
  have := freeBytes_keep hs hk_ (s := s) (n := n)
  rw [he] at this; exact this

theorem emit_only {s : State} {o : Output} : Only 1 s (emit s o) := by
  unfold emit
  try dsimp only
  all_goals (repeat' (first
    | with_reducible apply Only.refl
    | fail_if_no_progress (with_reducible apply Only.upd rfl)
    | dsimp only
    | intro _))
theorem emit_keep {s : State} {o : Output} (hs : sub 1 n_ = true) (hk_ : Only n_ a_ s) : Only n_ a_ (emit s o) := emit_only.step hs hk_

theorem fnPut_only {s : State} {p : Nat} {f : FnState} : Only 384 s (fnPut s p f) := by
  unfold fnPut
  try dsimp only
  all_goals (repeat' (first
    | with_reducible apply Only.refl
    | with_reducible apply Only.ite
    | fail_if_no_progress (with_reducible apply Only.upd rfl)
    | split
    | dsimp only
    | intro _))
theorem fnPut_keep {s : State} {p : Nat} {f : FnState} (hs : sub 384 n_ = true) (hk_ : Only n_ a_ s) : Only n_ a_ (fnPut s p f) := fnPut_only.step hs hk_

theorem raiseMsix_only {s : State} {p : Nat} {vec : Nat} : Only 385 s (raiseMsix s p vec) := by
  unfold raiseMsix
  try dsimp only
  all_goals (repeat' (first
    | with_reducible apply Only.refl
    | with_reducible apply emit_keep rfl
    | with_reducible apply fnPut_keep rfl
    | with_reducible apply Only.ite
    | split
    | dsimp only
    | intro _))
theorem raiseMsix_keep {s : State} {p : Nat} {vec : Nat} (hs : sub 385 n_ = true) (hk_ : Only n_ a_ s) : Only n_ a_ (raiseMsix s p vec) := raiseMsix_only.step hs hk_

theorem agentNext_only {s : State} {agent : Nat} : Only 64 s (agentNext s agent).2 := by
  unfold agentNext
  try dsimp only
  all_goals (repeat' (first
    | with_reducible apply Only.refl
    | fail_if_no_progress (with_reducible apply Only.upd rfl)
    | dsimp only
    | intro _))
theorem agentNext_keep {s : State} {agent : Nat} (hs : sub 64 n_ = true) (hk_ : Only n_ a_ s) : Only n_ a_ (agentNext s agent).2 := agentNext_only.step hs hk_
theorem agentNext_keepE {s : State} {agent : Nat} {y0_ : BitVec 16} {t_ : State} (hs : sub 64 n_ = true) (he : agentNext s agent = (y0_, t_)) (hk_ : Only n_ a_ s) : Only n_ a_ t_ := by
  have := agentNext_keep hs hk_ (s := s) (agent := agent)
  rw [he] at this; exact this

theorem tallyDrop_only {s : State} : Only 2064 s (tallyDrop s) := by
  unfold tallyDrop
  try dsimp only
  all_goals (repeat' (first
    | with_reducible apply Only.refl
    | with_reducible apply sqcSet_keep rfl
    | with_reducible apply regAdd_keep rfl
    | fail_if_no_progress (with_reducible apply Only.upd rfl)
    | dsimp only
    | intro _))
theorem tallyDrop_keep {s : State} (hs : sub 2064 n_ = true) (hk_ : Only n_ a_ s) : Only n_ a_ (tallyDrop s) := tallyDrop_only.step hs hk_

theorem tallyAppend_only {s : State} {a : TallyApp} : Only 2064 s (tallyAppend s a) := by
  unfold tallyAppend
  try dsimp only
  all_goals (repeat' (first
    | with_reducible apply Only.refl
    | with_reducible apply tallyDrop_keep rfl
    | with_reducible apply Only.ite
    | fail_if_no_progress (with_reducible apply Only.upd rfl)
    | split
    | dsimp only
    | intro _))
theorem tallyAppend_keep {s : State} {a : TallyApp} (hs : sub 2064 n_ = true) (hk_ : Only n_ a_ s) : Only n_ a_ (tallyAppend s a) := tallyAppend_only.step hs hk_

theorem tallyPut_only {s : State} {agent : Nat} {code : Nat} {items : List (Nat × Nat)} : Only 2128 s (tallyPut s agent code items) := by
  unfold tallyPut
  try dsimp only
  all_goals (repeat' (first
    | with_reducible apply Only.refl
    | with_reducible apply agentNext_keep rfl
    | with_reducible apply agentNext_keepE rfl (by assumption)
    | with_reducible apply tallyAppend_keep rfl
    | split
    | dsimp only
    | intro _))
theorem tallyPut_keep {s : State} {agent : Nat} {code : Nat} {items : List (Nat × Nat)} (hs : sub 2128 n_ = true) (hk_ : Only n_ a_ s) : Only n_ a_ (tallyPut s agent code items) := tallyPut_only.step hs hk_

theorem ignWrite_only {s : State} : Only 16 s (ignWrite s) := by
  unfold ignWrite
  try dsimp only
  all_goals (repeat' (first
    | with_reducible apply Only.refl
    | with_reducible apply sqcSet_keep rfl
    | with_reducible apply regAdd_keep rfl
    | dsimp only
    | intro _))
theorem ignWrite_keep {s : State} (hs : sub 16 n_ = true) (hk_ : Only n_ a_ s) : Only n_ a_ (ignWrite s) := ignWrite_only.step hs hk_

theorem narrowWrite_only {s : State} : Only 16 s (narrowWrite s) := by
  unfold narrowWrite
  try dsimp only
  all_goals (repeat' (first
    | with_reducible apply Only.refl
    | with_reducible apply sqcSet_keep rfl
    | with_reducible apply regAdd_keep rfl
    | dsimp only
    | intro _))
theorem narrowWrite_keep {s : State} (hs : sub 16 n_ = true) (hk_ : Only n_ a_ s) : Only n_ a_ (narrowWrite s) := narrowWrite_only.step hs hk_

theorem sqcMiss_only {s : State} : Only 16 s (sqcMiss s) := by
  unfold sqcMiss
  try dsimp only
  all_goals (repeat' (first
    | with_reducible apply Only.refl
    | with_reducible apply sqcSet_keep rfl
    | with_reducible apply regAdd_keep rfl
    | dsimp only
    | intro _))
theorem sqcMiss_keep {s : State} (hs : sub 16 n_ = true) (hk_ : Only n_ a_ s) : Only n_ a_ (sqcMiss s) := sqcMiss_only.step hs hk_

theorem faultPin_only {s : State} : Only 48 s (faultPin s) := by
  unfold faultPin
  try dsimp only
  all_goals (repeat' (first
    | with_reducible apply Only.refl
    | with_reducible apply sqcSet_keep rfl
    | with_reducible apply Only.ite
    | fail_if_no_progress (with_reducible apply Only.upd rfl)
    | split
    | dsimp only
    | intro _))
theorem faultPin_keep {s : State} (hs : sub 48 n_ = true) (hk_ : Only n_ a_ s) : Only n_ a_ (faultPin s) := faultPin_only.step hs hk_

theorem slicePut_only {s : State} {n : Nat} {x : Slice} : Only 512 s (slicePut s n x) := by
  unfold slicePut
  try dsimp only
  all_goals (repeat' (first
    | with_reducible apply Only.refl
    | fail_if_no_progress (with_reducible apply Only.upd rfl)
    | dsimp only
    | intro _))
theorem slicePut_keep {s : State} {n : Nat} {x : Slice} (hs : sub 512 n_ = true) (hk_ : Only n_ a_ s) : Only n_ a_ (slicePut s n x) := slicePut_only.step hs hk_

theorem hostWrite_only {s : State} {slice : Nat} {addr : Nat} {data : List Byte} : Only 513 s (hostWrite s slice addr data) := by
  unfold hostWrite
  try dsimp only
  all_goals (repeat' (first
    | with_reducible apply Only.refl
    | with_reducible apply emit_keep rfl
    | with_reducible apply slicePut_keep rfl
    | with_reducible apply Only.ite
    | split
    | dsimp only
    | intro _))
theorem hostWrite_keep {s : State} {slice : Nat} {addr : Nat} {data : List Byte} (hs : sub 513 n_ = true) (hk_ : Only n_ a_ s) : Only n_ a_ (hostWrite s slice addr data) := hostWrite_only.step hs hk_

theorem raiseVector_only {s : State} {slice : Nat} {vec : Nat} : Only 897 s (raiseVector s slice vec) := by
  unfold raiseVector
  try dsimp only
  all_goals (repeat' (first
    | with_reducible apply Only.refl
    | with_reducible apply slicePut_keep rfl
    | with_reducible apply raiseMsix_keep rfl
    | with_reducible apply Only.ite
    | split
    | dsimp only
    | intro _))
theorem raiseVector_keep {s : State} {slice : Nat} {vec : Nat} (hs : sub 897 n_ = true) (hk_ : Only n_ a_ s) : Only n_ a_ (raiseVector s slice vec) := raiseVector_only.step hs hk_

theorem slcIgn_only {s : State} {n : Nat} : Only 512 s (slcIgn s n) := by
  unfold slcIgn
  try dsimp only
  all_goals (repeat' (first
    | with_reducible apply Only.refl
    | with_reducible apply slicePut_keep rfl
    | dsimp only
    | intro _))
theorem slcIgn_keep {s : State} {n : Nat} (hs : sub 512 n_ = true) (hk_ : Only n_ a_ s) : Only n_ a_ (slcIgn s n) := slcIgn_only.step hs hk_

theorem seamLinkPut_only {s : State} {l : Nat} {x : SeamLink} : Only 16384 s (seamLinkPut s l x) := by
  unfold seamLinkPut
  try dsimp only
  all_goals (repeat' (first
    | with_reducible apply Only.refl
    | fail_if_no_progress (with_reducible apply Only.upd rfl)
    | dsimp only
    | intro _))
theorem seamLinkPut_keep {s : State} {l : Nat} {x : SeamLink} (hs : sub 16384 n_ = true) (hk_ : Only n_ a_ s) : Only n_ a_ (seamLinkPut s l x) := seamLinkPut_only.step hs hk_

theorem seamPeerPut_only {s : State} {m : Nat} {x : SeamPeer} : Only 16384 s (seamPeerPut s m x) := by
  unfold seamPeerPut
  try dsimp only
  all_goals (repeat' (first
    | with_reducible apply Only.refl
    | fail_if_no_progress (with_reducible apply Only.upd rfl)
    | dsimp only
    | intro _))
theorem seamPeerPut_keep {s : State} {m : Nat} {x : SeamPeer} (hs : sub 16384 n_ = true) (hk_ : Only n_ a_ s) : Only n_ a_ (seamPeerPut s m x) := seamPeerPut_only.step hs hk_

theorem seamSend_only {s : State} {l : Nat} {load : SeamLoad} : Only 16385 s (seamSend s l load) := by
  unfold seamSend
  try dsimp only
  all_goals (repeat' (first
    | with_reducible apply Only.refl
    | with_reducible apply emit_keep rfl
    | with_reducible apply seamLinkPut_keep rfl
    | with_reducible apply Only.ite
    | split
    | dsimp only
    | intro _))
theorem seamSend_keep {s : State} {l : Nat} {load : SeamLoad} (hs : sub 16385 n_ = true) (hk_ : Only n_ a_ s) : Only n_ a_ (seamSend s l load) := seamSend_only.step hs hk_

theorem seamTo_only {s : State} {m : Nat} {load : SeamLoad} : Only 16385 s (seamTo s m load) := by
  unfold seamTo
  try dsimp only
  all_goals (repeat' (first
    | with_reducible apply Only.refl
    | with_reducible apply seamSend_keep rfl
    | split
    | dsimp only
    | intro _))
theorem seamTo_keep {s : State} {m : Nat} {load : SeamLoad} (hs : sub 16385 n_ = true) (hk_ : Only n_ a_ s) : Only n_ a_ (seamTo s m load) := seamTo_only.step hs hk_

theorem meterEntry_only {s : State} {b : JBody} : Only 16384 s (meterEntry s b) := by
  unfold meterEntry
  try dsimp only
  all_goals (repeat' (first
    | with_reducible apply Only.refl
    | fail_if_no_progress (with_reducible apply Only.upd rfl)
    | dsimp only
    | intro _))
theorem meterEntry_keep {s : State} {b : JBody} (hs : sub 16384 n_ = true) (hk_ : Only n_ a_ s) : Only n_ a_ (meterEntry s b) := meterEntry_only.step hs hk_

theorem serveEntry_only {s : State} {e : JEntry} : Only 16385 s (serveEntry s e) := by
  unfold serveEntry
  try dsimp only
  all_goals (repeat' (first
    | with_reducible apply Only.refl
    | with_reducible apply seamTo_keep rfl
    | with_reducible apply meterEntry_keep rfl
    | with_reducible apply Only.foldl
    | with_reducible apply Only.foldl2
    | dsimp only
    | intro _))
theorem serveEntry_keep {s : State} {e : JEntry} (hs : sub 16385 n_ = true) (hk_ : Only n_ a_ s) : Only n_ a_ (serveEntry s e) := serveEntry_only.step hs hk_

theorem seamServe_only {n : Nat} {s : State} : Only 16385 s (seamServe n s) := by
  induction n generalizing s with
  | zero => exact .refl
  | succ n ih =>
    unfold seamServe
    split
    · exact .refl
    · split
      · exact (serveEntry_keep rfl (Only.upd rfl .refl)).trans ih
      · exact .refl
theorem seamServe_keep {z0 : Nat} {z1 : State} (hs : sub 16385 n_ = true) (hk_ : Only n_ a_ z1) : Only n_ a_ (seamServe z0 z1) := seamServe_only.step hs hk_

theorem jot_only {s : State} {slice : Nat} {release : Bool} {body : JBody} : Only 16385 s (jot s slice release body) := by
  unfold jot
  try dsimp only
  all_goals (repeat' (first
    | with_reducible apply Only.refl
    | with_reducible apply seamServe_keep rfl
    | with_reducible apply Only.ite
    | fail_if_no_progress (with_reducible apply Only.upd rfl)
    | split
    | dsimp only
    | intro _))
theorem jot_keep {s : State} {slice : Nat} {release : Bool} {body : JBody} (hs : sub 16385 n_ = true) (hk_ : Only n_ a_ s) : Only n_ a_ (jot s slice release body) := jot_only.step hs hk_

theorem jotInput_only {s : State} {slice : Nat} {token : BitVec 64} {off : Nat} {bs : List Byte} : Only 16385 s (jotInput s slice token off bs) := by
  unfold jotInput
  try dsimp only
  all_goals (repeat' (first
    | with_reducible apply Only.refl
    | with_reducible apply jot_keep rfl
    | with_reducible apply Only.foldl
    | with_reducible apply Only.foldl2
    | dsimp only
    | intro _))
theorem jotInput_keep {s : State} {slice : Nat} {token : BitVec 64} {off : Nat} {bs : List Byte} (hs : sub 16385 n_ = true) (hk_ : Only n_ a_ s) : Only n_ a_ (jotInput s slice token off bs) := jotInput_only.step hs hk_

theorem jotStream_only {s : State} {slice : Nat} {q : Nat} {ctr : Nat} {app : Nat} {bs : List Byte} : Only 16385 s (jotStream s slice q ctr app bs) := by
  unfold jotStream
  try dsimp only
  all_goals (repeat' (first
    | with_reducible apply Only.refl
    | with_reducible apply jot_keep rfl
    | with_reducible apply Only.foldl
    | with_reducible apply Only.foldl2
    | dsimp only
    | intro _))
theorem jotStream_keep {s : State} {slice : Nat} {q : Nat} {ctr : Nat} {app : Nat} {bs : List Byte} (hs : sub 16385 n_ = true) (hk_ : Only n_ a_ s) : Only n_ a_ (jotStream s slice q ctr app bs) := jotStream_only.step hs hk_

theorem jotResult_only {s : State} {slice : Nat} {token : BitVec 64} {status : Nat} {len : Nat} {extra : BitVec 64} {out : List Byte} : Only 16385 s (jotResult s slice token status len extra out) := by
  unfold jotResult
  try dsimp only
  all_goals (repeat' (first
    | with_reducible apply Only.refl
    | with_reducible apply jot_keep rfl
    | with_reducible apply jotInput_keep rfl
    | with_reducible apply Only.ite
    | split
    | dsimp only
    | intro _))
theorem jotResult_keep {s : State} {slice : Nat} {token : BitVec 64} {status : Nat} {len : Nat} {extra : BitVec 64} {out : List Byte} (hs : sub 16385 n_ = true) (hk_ : Only n_ a_ s) : Only n_ a_ (jotResult s slice token status len extra out) := jotResult_only.step hs hk_

theorem pendPut_only {s : State} {n : Nat} {x : Option PendEntry} : Only 24577 s (pendPut s n x) := by
  unfold pendPut
  try dsimp only
  all_goals (repeat' (first
    | with_reducible apply Only.refl
    | with_reducible apply jot_keep rfl
    | fail_if_no_progress (with_reducible apply Only.upd rfl)
    | split
    | dsimp only
    | intro _))
theorem pendPut_keep {s : State} {n : Nat} {x : Option PendEntry} (hs : sub 24577 n_ = true) (hk_ : Only n_ a_ s) : Only n_ a_ (pendPut s n x) := pendPut_only.step hs hk_

theorem cmdPut_only {s : State} {tag : Nat} {c : Cmd} : Only 1024 s (cmdPut s tag c) := by
  unfold cmdPut
  try dsimp only
  all_goals (repeat' (first
    | with_reducible apply Only.refl
    | fail_if_no_progress (with_reducible apply Only.upd rfl)
    | dsimp only
    | intro _))
theorem cmdPut_keep {s : State} {tag : Nat} {c : Cmd} (hs : sub 1024 n_ = true) (hk_ : Only n_ a_ s) : Only n_ a_ (cmdPut s tag c) := cmdPut_only.step hs hk_

theorem queueDrop_only {s : State} {tag : Nat} : Only 524288 s (queueDrop s tag) := by
  unfold queueDrop
  try dsimp only
  all_goals (repeat' (first
    | with_reducible apply Only.refl
    | with_reducible apply Only.ite
    | fail_if_no_progress (with_reducible apply Only.upd rfl)
    | split
    | dsimp only
    | intro _))
theorem queueDrop_keep {s : State} {tag : Nat} (hs : sub 524288 n_ = true) (hk_ : Only n_ a_ s) : Only n_ a_ (queueDrop s tag) := queueDrop_only.step hs hk_

theorem cmdDel_only {s0 : State} {tag : Nat} : Only 525312 s0 (cmdDel s0 tag) := by
  unfold cmdDel
  try dsimp only
  all_goals (repeat' (first
    | with_reducible apply Only.refl
    | with_reducible apply queueDrop_keep rfl
    | fail_if_no_progress (with_reducible apply Only.upd rfl)
    | dsimp only
    | intro _))
theorem cmdDel_keep {s0 : State} {tag : Nat} (hs : sub 525312 n_ = true) (hk_ : Only n_ a_ s0) : Only n_ a_ (cmdDel s0 tag) := cmdDel_only.step hs hk_

theorem endCmd_only {s00 : State} {tag : Nat} {status : Nat} {before : Bool} {len : optParam Nat 0} {extra : optParam (BitVec 64) 0} : Only 552017 s00 (endCmd s00 tag status before len extra) := by
  unfold endCmd
  try dsimp only
  all_goals (repeat' (first
    | with_reducible apply Only.refl
    | with_reducible apply queueDrop_keep rfl
    | with_reducible apply pendPut_keep rfl
    | with_reducible apply cmdPut_keep rfl
    | with_reducible apply tallyPut_keep rfl
    | with_reducible apply Only.ite
    | split
    | dsimp only
    | intro _))
theorem endCmd_keep {s00 : State} {tag : Nat} {status : Nat} {before : Bool} {len : optParam Nat 0} {extra : optParam (BitVec 64) 0} (hs : sub 552017 n_ = true) (hk_ : Only n_ a_ s00) : Only n_ a_ (endCmd s00 tag status before len extra) := endCmd_only.step hs hk_

theorem endBefore_only {s : State} {tag : Nat} {status : Nat} {len : optParam Nat 0} : Only 552017 s (endBefore s tag status len) := by
  unfold endBefore
  try dsimp only
  all_goals (repeat' (first
    | with_reducible apply Only.refl
    | with_reducible apply endCmd_keep rfl
    | dsimp only
    | intro _))
theorem endBefore_keep {s : State} {tag : Nat} {status : Nat} {len : optParam Nat 0} (hs : sub 552017 n_ = true) (hk_ : Only n_ a_ s) : Only n_ a_ (endBefore s tag status len) := endBefore_only.step hs hk_

theorem endAfter_only {s : State} {tag : Nat} {status : Nat} {len : optParam Nat 0} {extra : optParam (BitVec 64) 0} : Only 552017 s (endAfter s tag status len extra) := by
  unfold endAfter
  try dsimp only
  all_goals (repeat' (first
    | with_reducible apply Only.refl
    | with_reducible apply endCmd_keep rfl
    | dsimp only
    | intro _))
theorem endAfter_keep {s : State} {tag : Nat} {status : Nat} {len : optParam Nat 0} {extra : optParam (BitVec 64) 0} (hs : sub 552017 n_ = true) (hk_ : Only n_ a_ s) : Only n_ a_ (endAfter s tag status len extra) := endAfter_only.step hs hk_

theorem endOk_only {s : State} {tag : Nat} {len : optParam Nat 0} {extra : optParam (BitVec 64) 0} : Only 552017 s (endOk s tag len extra) := by
  unfold endOk
  try dsimp only
  all_goals (repeat' (first
    | with_reducible apply Only.refl
    | with_reducible apply endAfter_keep rfl
    | dsimp only
    | intro _))
theorem endOk_keep {s : State} {tag : Nat} {len : optParam Nat 0} {extra : optParam (BitVec 64) 0} (hs : sub 552017 n_ = true) (hk_ : Only n_ a_ s) : Only n_ a_ (endOk s tag len extra) := endOk_only.step hs hk_

theorem endFault_only {s : State} {tag : Nat} : Only 552017 s (endFault s tag) := by
  unfold endFault
  try dsimp only
  all_goals (repeat' (first
    | with_reducible apply Only.refl
    | with_reducible apply tallyPut_keep rfl
    | with_reducible apply endAfter_keep rfl
    | dsimp only
    | intro _))
theorem endFault_keep {s : State} {tag : Nat} (hs : sub 552017 n_ = true) (hk_ : Only n_ a_ s) : Only n_ a_ (endFault s tag) := endFault_only.step hs hk_

theorem putShort_only {s : State} {bs : List Byte} : Only 16 s (putShort s bs) := by
  unfold putShort
  try dsimp only
  all_goals (repeat' (first
    | with_reducible apply Only.refl
    | with_reducible apply regPut_keep rfl
    | with_reducible apply Only.foldl
    | with_reducible apply Only.foldl2
    | dsimp only
    | intro _))
theorem putShort_keep {s : State} {bs : List Byte} (hs : sub 16 n_ = true) (hk_ : Only n_ a_ s) : Only n_ a_ (putShort s bs) := putShort_only.step hs hk_

theorem putOutput_only {s : State} {c : Cmd} {bs : List Byte} : Only 529 s (putOutput s c bs) := by
  unfold putOutput
  try dsimp only
  all_goals (repeat' (first
    | with_reducible apply Only.refl
    | with_reducible apply hostWrite_keep rfl
    | with_reducible apply putShort_keep rfl
    | with_reducible apply emit_keep rfl
    | with_reducible apply Only.ite
    | split
    | dsimp only
    | intro _))
theorem putOutput_keep {s : State} {c : Cmd} {bs : List Byte} (hs : sub 529 n_ = true) (hk_ : Only n_ a_ s) : Only n_ a_ (putOutput s c bs) := putOutput_only.step hs hk_

theorem endOut_only {s : State} {tag : Nat} {io : HostIO} {bs : List Byte} {status : optParam Nat stOk} {extra : optParam (BitVec 64) 0} : Only 552529 s (endOut s tag io bs status extra) := by
  unfold endOut
  try dsimp only
  all_goals (repeat' (first
    | with_reducible apply Only.refl
    | with_reducible apply endAfter_keep rfl
    | with_reducible apply cmdPut_keep rfl
    | with_reducible apply putOutput_keep rfl
    | with_reducible apply Only.ite
    | split
    | dsimp only
    | intro _))
theorem endOut_keep {s : State} {tag : Nat} {io : HostIO} {bs : List Byte} {status : optParam Nat stOk} {extra : optParam (BitVec 64) 0} (hs : sub 552529 n_ = true) (hk_ : Only n_ a_ s) : Only n_ a_ (endOut s tag io bs status extra) := endOut_only.step hs hk_

theorem inputMismatch_only {s : State} {tag : Nat} {c : Cmd} : Only 552017 s (inputMismatch s tag c) := by
  unfold inputMismatch
  try dsimp only
  all_goals (repeat' (first
    | with_reducible apply Only.refl
    | with_reducible apply tallyPut_keep rfl
    | with_reducible apply endAfter_keep rfl
    | dsimp only
    | intro _))
theorem inputMismatch_keep {s : State} {tag : Nat} {c : Cmd} (hs : sub 552017 n_ = true) (hk_ : Only n_ a_ s) : Only n_ a_ (inputMismatch s tag c) := inputMismatch_only.step hs hk_

theorem runCmd_only {s : State} {tag : Nat} {op : Nat} {f : Cmd → State → State} {m : Nat} (hm : sub 552017 m = true) (hf : ∀ x0 x1, Only m x1 (f x0 x1)) : OOnly m s (runCmd s tag op f) := by
  unfold runCmd
  try dsimp only
  all_goals (repeat' (first
    | with_reducible apply Only.refl
    | with_reducible assumption
    | with_reducible apply hf
    | with_reducible refine Only.trans ?_ (hf _ _)
    | with_reducible apply inputMismatch_keep (sub_trans rfl hm)
    | with_reducible apply Only.ite
    | with_reducible apply OOnly.ite
    | with_reducible apply OOnly.next
    | split
    | dsimp only
    | intro _))

theorem setWork_only {s : State} {tag : Nat} {w : Work} : Only 1024 s (setWork s tag w) := by
  unfold setWork
  try dsimp only
  all_goals (repeat' (first
    | with_reducible apply Only.refl
    | with_reducible apply cmdPut_keep rfl
    | split
    | dsimp only
    | intro _))
theorem setWork_keep {s : State} {tag : Nat} {w : Work} (hs : sub 1024 n_ = true) (hk_ : Only n_ a_ s) : Only n_ a_ (setWork s tag w) := setWork_only.step hs hk_

theorem busErr_only {s : State} {r : Requester} : Only 32 s (busErr s r) := by
  unfold busErr
  try dsimp only
  all_goals (repeat' (first
    | with_reducible apply Only.refl
    | with_reducible apply Only.ite
    | fail_if_no_progress (with_reducible apply Only.upd rfl)
    | split
    | dsimp only
    | intro _))
theorem busErr_keep {s : State} {r : Requester} (hs : sub 32 n_ = true) (hk_ : Only n_ a_ s) : Only n_ a_ (busErr s r) := busErr_only.step hs hk_

theorem setPair_only {s : State} {b : Blk} {p : Option Pair} : Only 16 s (setPair s b p) := by
  unfold setPair
  try dsimp only
  all_goals (repeat' (first
    | with_reducible apply Only.refl
    | fail_if_no_progress (with_reducible apply Only.upd rfl)
    | dsimp only
    | intro _))
theorem setPair_keep {s : State} {b : Blk} {p : Option Pair} (hs : sub 16 n_ = true) (hk_ : Only n_ a_ s) : Only n_ a_ (setPair s b p) := setPair_only.step hs hk_

theorem guardFail_only {s : State} {req : Nat} {b : Blk} {addr : Nat} {cause : Nat} : Only 16 s (guardFail s req b addr cause) := by
  unfold guardFail
  try dsimp only
  all_goals (repeat' (first
    | with_reducible apply Only.refl
    | with_reducible apply sqcSet_keep rfl
    | with_reducible apply regAdd_keep rfl
    | with_reducible apply regPut_keep rfl
    | dsimp only
    | intro _))
theorem guardFail_keep {s : State} {req : Nat} {b : Blk} {addr : Nat} {cause : Nat} (hs : sub 16 n_ = true) (hk_ : Only n_ a_ s) : Only n_ a_ (guardFail s req b addr cause) := guardFail_only.step hs hk_

theorem noteHostCpw_only {s : State} {r : Requester} {b : Blk} : Only 16 s (noteHostCpw s r b) := by
  unfold noteHostCpw
  try dsimp only
  all_goals (repeat' (first
    | with_reducible apply Only.refl
    | with_reducible apply Only.ite
    | fail_if_no_progress (with_reducible apply Only.upd rfl)
    | split
    | dsimp only
    | intro _))
theorem noteHostCpw_keep {s : State} {r : Requester} {b : Blk} (hs : sub 16 n_ = true) (hk_ : Only n_ a_ s) : Only n_ a_ (noteHostCpw s r b) := noteHostCpw_only.step hs hk_

theorem expirePair_only {s : State} {b : Blk} : Only 16 s (expirePair s b) := by
  unfold expirePair
  try dsimp only
  all_goals (repeat' (first
    | with_reducible apply Only.refl
    | with_reducible apply guardFail_keep rfl
    | with_reducible apply setPair_keep rfl
    | with_reducible apply Only.ite
    | split
    | dsimp only
    | intro _))
theorem expirePair_keep {s : State} {b : Blk} (hs : sub 16 n_ = true) (hk_ : Only n_ a_ s) : Only n_ a_ (expirePair s b) := expirePair_only.step hs hk_

theorem arrive_only {s : State} {b : Blk} : Only 16 s (arrive s b) := by
  unfold arrive
  try dsimp only
  all_goals (repeat' (first
    | with_reducible apply Only.refl
    | with_reducible apply expirePair_keep rfl
    | with_reducible apply guardFail_keep rfl
    | with_reducible apply setPair_keep rfl
    | split
    | dsimp only
    | intro _))
theorem arrive_keep {s : State} {b : Blk} (hs : sub 16 n_ = true) (hk_ : Only n_ a_ s) : Only n_ a_ (arrive s b) := arrive_only.step hs hk_

theorem beginPair_only {s : State} {r : Requester} {b : Blk} {addr : Nat} {v : Word} : Only 16 s (beginPair s r b addr v) := by
  unfold beginPair
  try dsimp only
  all_goals (repeat' (first
    | with_reducible apply Only.refl
    | with_reducible apply setPair_keep rfl
    | with_reducible apply arrive_keep rfl
    | dsimp only
    | intro _))
theorem beginPair_keep {s : State} {r : Requester} {b : Blk} {addr : Nat} {v : Word} (hs : sub 16 n_ = true) (hk_ : Only n_ a_ s) : Only n_ a_ (beginPair s r b addr v) := beginPair_only.step hs hk_

theorem guardWrite_only {s : State} {r : Requester} {b : Blk} {addr : Nat} {v : Word} : Only 16 s (guardWrite s r b addr v).2 := by
  unfold guardWrite
  try dsimp only
  all_goals (repeat' (first
    | with_reducible apply Only.refl
    | with_reducible apply expirePair_keep rfl
    | with_reducible apply setPair_keep rfl
    | with_reducible apply guardFail_keep rfl
    | with_reducible apply arrive_keep rfl
    | with_reducible apply Only.ite
    | with_reducible apply Only.ite2
    | split
    | dsimp only
    | intro _))
theorem guardWrite_keep {s : State} {r : Requester} {b : Blk} {addr : Nat} {v : Word} (hs : sub 16 n_ = true) (hk_ : Only n_ a_ s) : Only n_ a_ (guardWrite s r b addr v).2 := guardWrite_only.step hs hk_
theorem guardWrite_keepE {s : State} {r : Requester} {b : Blk} {addr : Nat} {v : Word} {y0_ : Option Word} {t_ : State} (hs : sub 16 n_ = true) (he : guardWrite s r b addr v = (y0_, t_)) (hk_ : Only n_ a_ s) : Only n_ a_ t_ := by
  have := guardWrite_keep hs hk_ (s := s) (r := r) (b := b) (addr := addr) (v := v)
  rw [he] at this; exact this

theorem sqcClearAt_only {s : State} {a : Nat} {v : Word} : Only 16 s (sqcClearAt s a v) := by
  unfold sqcClearAt
  try dsimp only
  all_goals (repeat' (first
    | with_reducible apply Only.refl
    | with_reducible apply regPut_keep rfl
    | with_reducible apply sqcMiss_keep rfl
    | split
    | dsimp only
    | intro _))
theorem sqcClearAt_keep {s : State} {a : Nat} {v : Word} (hs : sub 16 n_ = true) (hk_ : Only n_ a_ s) : Only n_ a_ (sqcClearAt s a v) := sqcClearAt_only.step hs hk_

theorem latchPut_only {s : State} {r : Requester} {hi : Nat} {v : Word} : Only 16 s (latchPut s r hi v) := by
  unfold latchPut
  try dsimp only
  all_goals (repeat' (first
    | with_reducible apply Only.refl
    | fail_if_no_progress (with_reducible apply Only.upd rfl)
    | dsimp only
    | intro _))
theorem latchPut_keep {s : State} {r : Requester} {hi : Nat} {v : Word} (hs : sub 16 n_ = true) (hk_ : Only n_ a_ s) : Only n_ a_ (latchPut s r hi v) := latchPut_only.step hs hk_

theorem widePut_only {s : State} {r : Requester} {k : Nat} {w : WideWin} : Only 16 s (widePut s r k w) := by
  unfold widePut
  try dsimp only
  all_goals (repeat' (first
    | with_reducible apply Only.refl
    | fail_if_no_progress (with_reducible apply Only.upd rfl)
    | dsimp only
    | intro _))
theorem widePut_keep {s : State} {r : Requester} {k : Nat} {w : WideWin} (hs : sub 16 n_ = true) (hk_ : Only n_ a_ s) : Only n_ a_ (widePut s r k w) := widePut_only.step hs hk_

theorem keepInput_only {s : State} {tag : Nat} {c : Cmd} {bs : List Byte} : Only 17409 s (keepInput s tag c bs) := by
  unfold keepInput
  try dsimp only
  all_goals (repeat' (first
    | with_reducible apply Only.refl
    | with_reducible apply jotInput_keep rfl
    | with_reducible apply cmdPut_keep rfl
    | with_reducible apply Only.ite
    | split
    | dsimp only
    | intro _))
theorem keepInput_keep {s : State} {tag : Nat} {c : Cmd} {bs : List Byte} (hs : sub 17409 n_ = true) (hk_ : Only n_ a_ s) : Only n_ a_ (keepInput s tag c bs) := keepInput_only.step hs hk_

theorem runIn_only {s : State} {tag : Nat} {op : Nat} {io : HostIO} {f : Cmd → List Byte → State → State} {m : Nat} (hm : sub 552017 m = true) (hf : ∀ x0 x1 x2, Only m x2 (f x0 x1 x2)) : OOnly m s (runIn s tag op io f) := by
  unfold runIn
  try dsimp only
  all_goals (repeat' (first
    | with_reducible apply Only.refl
    | with_reducible assumption
    | with_reducible apply hf
    | with_reducible refine Only.trans ?_ (hf _ _ _)
    | with_reducible apply runCmd_only (sub_trans rfl hm)
    | with_reducible apply endAfter_keep (sub_trans rfl hm)
    | with_reducible apply keepInput_keep (sub_trans rfl hm)
    | with_reducible apply cmdPut_keep (sub_trans rfl hm)
    | with_reducible apply inputMismatch_keep (sub_trans rfl hm)
    | with_reducible apply Only.ite
    | with_reducible apply OOnly.ite
    | with_reducible apply OOnly.next
    | split
    | dsimp only
    | intro _))

theorem corePut_only {s : State} {n : Nat} {c : Core} : Only 65536 s (corePut s n c) := by
  unfold corePut
  exact Only.upd rfl .refl (cores_ := tblSorted_set)
theorem corePut_keep {s : State} {n : Nat} {c : Core} (hs : sub 65536 n_ = true) (hk_ : Only n_ a_ s) : Only n_ a_ (corePut s n c) := corePut_only.step hs hk_

theorem queuePut_only {s : State} {q : Nat} {x : Queue} : Only 131072 s (queuePut s q x) := by
  unfold queuePut
  try dsimp only
  all_goals (repeat' (first
    | with_reducible apply Only.refl
    | fail_if_no_progress (with_reducible apply Only.upd rfl)
    | dsimp only
    | intro _))
theorem queuePut_keep {s : State} {q : Nat} {x : Queue} (hs : sub 131072 n_ = true) (hk_ : Only n_ a_ s) : Only n_ a_ (queuePut s q x) := queuePut_only.step hs hk_

theorem bufPut_only {s : State} {b : Nat} {m : BufMeta} : Only 32768 s (bufPut s b m) := by
  unfold bufPut
  try dsimp only
  all_goals (repeat' (first
    | with_reducible apply Only.refl
    | fail_if_no_progress (with_reducible apply Only.upd rfl)
    | dsimp only
    | intro _))
theorem bufPut_keep {s : State} {b : Nat} {m : BufMeta} (hs : sub 32768 n_ = true) (hk_ : Only n_ a_ s) : Only n_ a_ (bufPut s b m) := bufPut_only.step hs hk_

theorem nextFree_only {s : State} {x : Nat} {t : State} (h : nextFree s = some (x, t)) : Only 32770 s t := by
  unfold nextFree at h
  split at h
  · cases h
  · dsimp only at h
    rw [Option.map_eq_some_iff] at h
    obtain ⟨i, _, hi⟩ := h
    cases hi
    exact Only.upd rfl (Only.step freeWord_only rfl .refl)
theorem nextFree_keep {s : State} {y0_ : Nat} {t_ : State} (hs : sub 32770 n_ = true) (he : nextFree s = some (y0_, t_)) (hk_ : Only n_ a_ s) : Only n_ a_ t_ := (nextFree_only he).step hs hk_

theorem poolNote_only {before : State} {s : State} : Only 16 s (poolNote before s) := by
  unfold poolNote
  try dsimp only
  all_goals (repeat' (first
    | with_reducible apply Only.refl
    | with_reducible apply sqcSet_keep rfl
    | with_reducible apply Only.ite
    | split
    | dsimp only
    | intro _))
theorem poolNote_keep {before : State} {s : State} (hs : sub 16 n_ = true) (hk_ : Only n_ a_ s) : Only n_ a_ (poolNote before s) := poolNote_only.step hs hk_

theorem chargeNote_only {before : State} {a : Nat} {s : State} : Only 32784 s (chargeNote before a s) := by
  unfold chargeNote
  try dsimp only
  all_goals (repeat' (first
    | with_reducible apply Only.refl
    | with_reducible apply poolNote_keep rfl
    | with_reducible apply Only.ite
    | fail_if_no_progress (with_reducible apply Only.upd rfl)
    | split
    | dsimp only
    | intro _))
theorem chargeNote_keep {before : State} {a : Nat} {s : State} (hs : sub 32784 n_ = true) (hk_ : Only n_ a_ s) : Only n_ a_ (chargeNote before a s) := chargeNote_only.step hs hk_

theorem reserveNote_only {before : State} {n : Nat} {s : State} : Only 32784 s (reserveNote before n s) := by
  unfold reserveNote
  try dsimp only
  all_goals (repeat' (first
    | with_reducible apply Only.refl
    | with_reducible apply poolNote_keep rfl
    | with_reducible apply Only.ite
    | fail_if_no_progress (with_reducible apply Only.upd rfl)
    | split
    | dsimp only
    | intro _))
theorem reserveNote_keep {before : State} {n : Nat} {s : State} (hs : sub 32784 n_ = true) (hk_ : Only n_ a_ s) : Only n_ a_ (reserveNote before n s) := reserveNote_only.step hs hk_

theorem takeBufs_only {n : Nat} {s : State} {l : List Nat} {x : List Nat} {t : State} (h : takeBufs n s l = some (x, t)) : Only 32770 s t := by
  induction n generalizing s l with
  | zero => cases h; exact .refl
  | succ n ih =>
    unfold takeBufs at h
    split at h
    · cases h
    · rename_i he
      exact ((nextFree_only he).trans (bufPut_only.mono rfl)).trans (ih h)
theorem takeBufs_keep {z0 : Nat} {z1 : State} {z2 : List Nat} {y0_ : List Nat} {t_ : State} (hs : sub 32770 n_ = true) (he : takeBufs z0 z1 z2 = some (y0_, t_)) (hk_ : Only n_ a_ z1) : Only n_ a_ t_ := (takeBufs_only he).step hs hk_

theorem linkChain_only {s : State} {tag : Nat} {bs : List Nat} : Only 32768 s (linkChain s tag bs) := by
  unfold linkChain
  try dsimp only
  all_goals (repeat' (first
    | with_reducible apply Only.refl
    | with_reducible apply bufPut_keep rfl
    | with_reducible apply Only.foldl
    | with_reducible apply Only.foldl2
    | with_reducible apply Only.ite
    | split
    | dsimp only
    | intro _))
theorem linkChain_keep {s : State} {tag : Nat} {bs : List Nat} (hs : sub 32768 n_ = true) (hk_ : Only n_ a_ s) : Only n_ a_ (linkChain s tag bs) := linkChain_only.step hs hk_

theorem hmpAlloc_only {s : State} {tag : Nat} {n : Nat} {y0 : Nat} {t : State} (hq_ : hmpAlloc s tag n = some (y0, t)) : Only 32786 s t := by
  unfold hmpAlloc at hq_
  (try dsimp only at hq_)
  (repeat' (split at hq_))
  all_goals (try cases hq_)
  all_goals (repeat' (first
    | with_reducible apply Only.refl
    | with_reducible apply takeBufs_keep rfl (by assumption)
    | with_reducible apply chargeNote_keep rfl
    | with_reducible apply linkChain_keep rfl
    | with_reducible apply Only.ite
    | with_reducible apply Only.ite2
    | split
    | dsimp only
    | intro _))
theorem hmpAlloc_keep {s : State} {tag : Nat} {n : Nat} {y0_ : Nat} {t_ : State} (hs : sub 32786 n_ = true) (he : hmpAlloc s tag n = some (y0_, t_)) (hk_ : Only n_ a_ s) : Only n_ a_ t_ := (hmpAlloc_only he).step hs hk_

theorem hmpRelease_only {s : State} {b : Nat} : Only 32768 s (hmpRelease s b) := by
  unfold hmpRelease
  try dsimp only
  all_goals (repeat' (first
    | with_reducible apply Only.refl
    | with_reducible apply bufPut_keep rfl
    | with_reducible apply Only.foldl
    | with_reducible apply Only.foldl2
    | dsimp only
    | intro _))
theorem hmpRelease_keep {s : State} {b : Nat} (hs : sub 32768 n_ = true) (hk_ : Only n_ a_ s) : Only n_ a_ (hmpRelease s b) := hmpRelease_only.step hs hk_

theorem hmpTransfer_only {s : State} {b : Nat} {tag : Nat} {t : State} (hq_ : hmpTransfer s b tag = some t) : Only 32784 s t := by
  unfold hmpTransfer at hq_
  (try dsimp only at hq_)
  (repeat' (split at hq_))
  all_goals (try cases hq_)
  all_goals (repeat' (first
    | with_reducible apply Only.refl
    | with_reducible apply hmpRelease_keep rfl
    | with_reducible apply chargeNote_keep rfl
    | with_reducible apply bufPut_keep rfl
    | with_reducible apply Only.foldl
    | with_reducible apply Only.foldl2
    | with_reducible apply Only.ite
    | split
    | dsimp only
    | intro _))
theorem hmpTransfer_keep {s : State} {b : Nat} {tag : Nat} {t_ : State} (hs : sub 32784 n_ = true) (he : hmpTransfer s b tag = some t_) (hk_ : Only n_ a_ s) : Only n_ a_ t_ := (hmpTransfer_only he).step hs hk_

theorem chainTaint_only {s : State} {b : Nat} {n : Nat} : Only 32768 s (chainTaint s b n) := by
  unfold chainTaint
  try dsimp only
  all_goals (repeat' (first
    | with_reducible apply Only.refl
    | with_reducible apply bufPut_keep rfl
    | with_reducible apply Only.foldl
    | with_reducible apply Only.foldl2
    | dsimp only
    | intro _))
theorem chainTaint_keep {s : State} {b : Nat} {n : Nat} (hs : sub 32768 n_ = true) (hk_ : Only n_ a_ s) : Only n_ a_ (chainTaint s b n) := chainTaint_only.step hs hk_

theorem hmpReleaseAll_only {s : State} {tag : Nat} : Only 32768 s (hmpReleaseAll s tag) := by
  unfold hmpReleaseAll
  try dsimp only
  all_goals (repeat' (first
    | with_reducible apply Only.refl
    | with_reducible apply hmpRelease_keep rfl
    | with_reducible apply Only.foldl
    | with_reducible apply Only.foldl2
    | dsimp only
    | intro _))
theorem hmpReleaseAll_keep {s : State} {tag : Nat} (hs : sub 32768 n_ = true) (hk_ : Only n_ a_ s) : Only n_ a_ (hmpReleaseAll s tag) := hmpReleaseAll_only.step hs hk_

theorem bufWriteByte_only {s : State} {b off : Nat} {v : Byte} : Only 32768 s (bufWriteByte s b off v) := by
  unfold bufWriteByte
  refine bufPut_keep rfl (Only.upd rfl .refl (bufs_ := fun h => tblWf_set ?_))
  split
  · exact h
  · exact memWf_write h
theorem bufWriteByte_keep {s : State} {b : Nat} {off : Nat} {v : Byte} (hs : sub 32768 n_ = true) (hk_ : Only n_ a_ s) : Only n_ a_ (bufWriteByte s b off v) := bufWriteByte_only.step hs hk_

theorem bufWrite_only {s : State} {b : Nat} {off : Nat} {l : List Byte} : Only 32768 s (bufWrite s b off l) := by
  induction l generalizing s off with
  | nil => exact .refl
  | cons v vs ih => exact (bufWriteByte_only.mono rfl).trans ih
theorem bufWrite_keep {s : State} {b : Nat} {off : Nat} {z3 : List Byte} (hs : sub 32768 n_ = true) (hk_ : Only n_ a_ s) : Only n_ a_ (bufWrite s b off z3) := bufWrite_only.step hs hk_

theorem chainWrite_only {s : State} {b : Nat} {off : Nat} {vs : List Byte} : Only 32768 s (chainWrite s b off vs) := by
  unfold chainWrite
  try dsimp only
  all_goals (repeat' (first
    | with_reducible apply Only.refl
    | with_reducible apply bufWriteByte_keep rfl
    | with_reducible apply Only.foldl
    | with_reducible apply Only.foldl2
    | split
    | dsimp only
    | intro _))
theorem chainWrite_keep {s : State} {b : Nat} {off : Nat} {vs : List Byte} (hs : sub 32768 n_ = true) (hk_ : Only n_ a_ s) : Only n_ a_ (chainWrite s b off vs) := chainWrite_only.step hs hk_

theorem chainSetLen_only {s : State} {b : Nat} {n : Nat} : Only 32768 s (chainSetLen s b n) := by
  unfold chainSetLen
  try dsimp only
  all_goals (repeat' (first
    | with_reducible apply Only.refl
    | with_reducible apply bufPut_keep rfl
    | dsimp only
    | intro _))
theorem chainSetLen_keep {s : State} {b : Nat} {n : Nat} (hs : sub 32768 n_ = true) (hk_ : Only n_ a_ s) : Only n_ a_ (chainSetLen s b n) := chainSetLen_only.step hs hk_

theorem hmpFill_only {s : State} {tag : Nat} {vs : List Byte} {y0 : Nat} {t : State} (hq_ : hmpFill s tag vs = some (y0, t)) : Only 32786 s t := by
  unfold hmpFill at hq_
  (try dsimp only at hq_)
  (repeat' (split at hq_))
  all_goals (try cases hq_)
  all_goals (repeat' (first
    | with_reducible apply Only.refl
    | with_reducible apply hmpAlloc_keep rfl (by assumption)
    | with_reducible apply chainSetLen_keep rfl
    | with_reducible apply chainWrite_keep rfl
    | split
    | dsimp only
    | intro _))
theorem hmpFill_keep {s : State} {tag : Nat} {vs : List Byte} {y0_ : Nat} {t_ : State} (hs : sub 32786 n_ = true) (he : hmpFill s tag vs = some (y0_, t_)) (hk_ : Only n_ a_ s) : Only n_ a_ t_ := (hmpFill_only he).step hs hk_

theorem hmpDrop_only {s : State} : Only 16 s (hmpDrop s) := by
  unfold hmpDrop
  try dsimp only
  all_goals (repeat' (first
    | with_reducible apply Only.refl
    | with_reducible apply sqcSet_keep rfl
    | with_reducible apply regAdd_keep rfl
    | dsimp only
    | intro _))
theorem hmpDrop_keep {s : State} (hs : sub 16 n_ = true) (hk_ : Only n_ a_ s) : Only n_ a_ (hmpDrop s) := hmpDrop_only.step hs hk_

theorem opResult_only {s : State} {p : Nat} {status : Nat} {b : Nat} : Only 32768 s (opResult s p status b) := by
  unfold opResult
  try dsimp only
  all_goals (repeat' (first
    | with_reducible apply Only.refl
    | fail_if_no_progress (with_reducible apply Only.upd rfl)
    | dsimp only
    | intro _))
theorem opResult_keep {s : State} {p : Nat} {status : Nat} {b : Nat} (hs : sub 32768 n_ = true) (hk_ : Only n_ a_ s) : Only n_ a_ (opResult s p status b) := opResult_only.step hs hk_

theorem opAlloc_only {s : State} {p : Nat} {tag : Nat} {n : Nat} : Only 32786 s (opAlloc s p tag n) := by
  unfold opAlloc
  try dsimp only
  all_goals (repeat' (first
    | with_reducible apply Only.refl
    | with_reducible apply opResult_keep rfl
    | with_reducible apply hmpAlloc_keep rfl (by assumption)
    | with_reducible apply Only.ite
    | with_reducible apply Only.ite2
    | split
    | dsimp only
    | intro _))
theorem opAlloc_keep {s : State} {p : Nat} {tag : Nat} {n : Nat} (hs : sub 32786 n_ = true) (hk_ : Only n_ a_ s) : Only n_ a_ (opAlloc s p tag n) := opAlloc_only.step hs hk_

theorem opFree_only {s : State} {p : Nat} {tag : Nat} {b : Nat} : Only 34896 s (opFree s p tag b) := by
  unfold opFree
  try dsimp only
  all_goals (repeat' (first
    | with_reducible apply Only.refl
    | with_reducible apply sqcSet_keep rfl
    | with_reducible apply regAdd_keep rfl
    | with_reducible apply opResult_keep rfl
    | with_reducible apply tallyPut_keep rfl
    | with_reducible apply hmpRelease_keep rfl
    | with_reducible apply Only.ite
    | split
    | dsimp only
    | intro _))
theorem opFree_keep {s : State} {p : Nat} {tag : Nat} {b : Nat} (hs : sub 34896 n_ = true) (hk_ : Only n_ a_ s) : Only n_ a_ (opFree s p tag b) := opFree_only.step hs hk_

theorem opSetlen_only {s : State} {p : Nat} {tag : Nat} {b : Nat} {n : Nat} : Only 32768 s (opSetlen s p tag b n) := by
  unfold opSetlen
  try dsimp only
  all_goals (repeat' (first
    | with_reducible apply Only.refl
    | with_reducible apply opResult_keep rfl
    | with_reducible apply chainSetLen_keep rfl
    | with_reducible apply Only.ite
    | split
    | dsimp only
    | intro _))
theorem opSetlen_keep {s : State} {p : Nat} {tag : Nat} {b : Nat} {n : Nat} (hs : sub 32768 n_ = true) (hk_ : Only n_ a_ s) : Only n_ a_ (opSetlen s p tag b n) := opSetlen_only.step hs hk_

theorem tallyStore_only {s : State} {place : Nat} {a : TallyApp} {cut : Bool} : Only 2064 s (tallyStore s place a cut) := by
  unfold tallyStore
  try dsimp only
  all_goals (repeat' (first
    | with_reducible apply Only.refl
    | with_reducible apply sqcSet_keep rfl
    | with_reducible apply Only.ite
    | fail_if_no_progress (with_reducible apply Only.upd rfl)
    | split
    | dsimp only
    | intro _))
theorem tallyStore_keep {s : State} {place : Nat} {a : TallyApp} {cut : Bool} (hs : sub 2064 n_ = true) (hk_ : Only n_ a_ s) : Only n_ a_ (tallyStore s place a cut) := tallyStore_only.step hs hk_

theorem tallyRecord_only {s : State} {a : TallyApp} {cut : Bool} : Only 2064 s (tallyRecord s a cut) := by
  unfold tallyRecord
  try dsimp only
  all_goals (repeat' (first
    | with_reducible apply Only.refl
    | with_reducible apply tallyStore_keep rfl
    | with_reducible apply tallyDrop_keep rfl
    | with_reducible apply sqcSet_keep rfl
    | with_reducible apply Only.ite
    | fail_if_no_progress (with_reducible apply Only.upd rfl)
    | split
    | dsimp only
    | intro _))
theorem tallyRecord_keep {s : State} {a : TallyApp} {cut : Bool} (hs : sub 2064 n_ = true) (hk_ : Only n_ a_ s) : Only n_ a_ (tallyRecord s a cut) := tallyRecord_only.step hs hk_

theorem tallyTake_only {s : State} {cut : Bool} : Only 2064 s (tallyTake s cut) := by
  unfold tallyTake
  try dsimp only
  all_goals (repeat' (first
    | with_reducible apply Only.refl
    | with_reducible apply tallyRecord_keep rfl
    | with_reducible apply Only.ite
    | fail_if_no_progress (with_reducible apply Only.upd rfl)
    | split
    | dsimp only
    | intro _))
theorem tallyTake_keep {s : State} {cut : Bool} (hs : sub 2064 n_ = true) (hk_ : Only n_ a_ s) : Only n_ a_ (tallyTake s cut) := tallyTake_only.step hs hk_

theorem tallyDrain_only {s : State} : Only 2064 s (tallyDrain s) := by
  unfold tallyDrain
  try dsimp only
  all_goals (repeat' (first
    | with_reducible apply Only.refl
    | with_reducible apply tallyTake_keep rfl
    | with_reducible apply Only.foldl
    | with_reducible apply Only.foldl2
    | dsimp only
    | intro _))
theorem tallyDrain_keep {s : State} (hs : sub 2064 n_ = true) (hk_ : Only n_ a_ s) : Only n_ a_ (tallyDrain s) := tallyDrain_only.step hs hk_

theorem tallyUnstage_only {s : State} : Only 2064 s (tallyUnstage s) := by
  unfold tallyUnstage
  try dsimp only
  all_goals (repeat' (first
    | with_reducible apply Only.refl
    | with_reducible apply tallyRecord_keep rfl
    | with_reducible apply Only.foldl
    | with_reducible apply Only.foldl2
    | fail_if_no_progress (with_reducible apply Only.upd rfl)
    | dsimp only
    | intro _))
theorem tallyUnstage_keep {s : State} (hs : sub 2064 n_ = true) (hk_ : Only n_ a_ s) : Only n_ a_ (tallyUnstage s) := tallyUnstage_only.step hs hk_

theorem execTallyAppend_only {cut : Bool} {s : State} : OOnly 2064 s (execTallyAppend cut s) := by
  unfold execTallyAppend
  try dsimp only
  all_goals (repeat' (first
    | with_reducible apply Only.refl
    | with_reducible apply tallyTake_keep rfl
    | with_reducible apply Only.ite
    | with_reducible apply OOnly.ite
    | with_reducible apply OOnly.next
    | split
    | dsimp only
    | intro _))

theorem execTallySlotAbandon_only {place : Nat} {s : State} : OOnly 2048 s (execTallySlotAbandon place s) := by
  unfold execTallySlotAbandon
  try dsimp only
  all_goals (repeat' (first
    | with_reducible apply Only.refl
    | with_reducible apply Only.ite
    | with_reducible apply OOnly.ite
    | with_reducible apply OOnly.next
    | fail_if_no_progress (with_reducible apply Only.upd rfl)
    | split
    | dsimp only
    | intro _))

theorem flushBegin_only {s : State} : Only 2048 s (flushBegin s) := by
  unfold flushBegin
  try dsimp only
  all_goals (repeat' (first
    | with_reducible apply Only.refl
    | with_reducible apply Only.ite
    | fail_if_no_progress (with_reducible apply Only.upd rfl)
    | split
    | dsimp only
    | intro _))
theorem flushBegin_keep {s : State} (hs : sub 2048 n_ = true) (hk_ : Only n_ a_ s) : Only n_ a_ (flushBegin s) := flushBegin_only.step hs hk_

theorem execTallyFlushBegin_only {s : State} : OOnly 2048 s (execTallyFlushBegin s) := by
  unfold execTallyFlushBegin
  try dsimp only
  all_goals (repeat' (first
    | with_reducible apply Only.refl
    | with_reducible apply flushBegin_keep rfl
    | with_reducible apply Only.ite
    | with_reducible apply OOnly.ite
    | with_reducible apply OOnly.next
    | split
    | dsimp only
    | intro _))

theorem execTallyFlushRetry_only {s : State} : OOnly 2048 s (execTallyFlushRetry s) := by
  unfold execTallyFlushRetry
  try dsimp only
  all_goals (repeat' (first
    | with_reducible apply Only.refl
    | with_reducible apply flushBegin_keep rfl
    | with_reducible apply Only.ite
    | with_reducible apply OOnly.ite
    | with_reducible apply OOnly.next
    | split
    | dsimp only
    | intro _))

theorem flushPage_only {s : State} {ok0 : Bool} {ok1 : Bool} : Only 2064 s (flushPage s ok0 ok1) := by
  unfold flushPage
  try dsimp only
  all_goals (repeat' (first
    | with_reducible apply Only.refl
    | with_reducible apply sqcSet_keep rfl
    | with_reducible apply regAdd_keep rfl
    | with_reducible apply Only.ite
    | fail_if_no_progress (with_reducible apply Only.upd rfl)
    | split
    | dsimp only
    | intro _))
theorem flushPage_keep {s : State} {ok0 : Bool} {ok1 : Bool} (hs : sub 2064 n_ = true) (hk_ : Only n_ a_ s) : Only n_ a_ (flushPage s ok0 ok1) := flushPage_only.step hs hk_

theorem tallyReload_only {s : State} : Only 2048 s (tallyReload s) := by
  unfold tallyReload
  try dsimp only
  all_goals (repeat' (first
    | with_reducible apply Only.refl
    | with_reducible apply Only.foldl
    | with_reducible apply Only.foldl2
    | fail_if_no_progress (with_reducible apply Only.upd rfl)
    | dsimp only
    | intro _))
theorem tallyReload_keep {s : State} (hs : sub 2048 n_ = true) (hk_ : Only n_ a_ s) : Only n_ a_ (tallyReload s) := tallyReload_only.step hs hk_

theorem execTallyRead_only {tag : Nat} {io : HostIO} {s : State} : OOnly 552529 s (execTallyRead tag io s) := by
  unfold execTallyRead
  try dsimp only
  all_goals (repeat' (first
    | with_reducible apply Only.refl
    | with_reducible apply runCmd_only rfl
    | with_reducible apply endOut_keep rfl
    | with_reducible apply Only.ite
    | with_reducible apply OOnly.ite
    | with_reducible apply OOnly.next
    | split
    | dsimp only
    | intro _))

theorem tallyNow_only {s : State} {a : TallyApp} : Only 2064 s (tallyNow s a).2 := by
  unfold tallyNow
  try dsimp only
  all_goals (repeat' (first
    | with_reducible apply Only.refl
    | with_reducible apply tallyDrain_keep rfl
    | with_reducible apply tallyRecord_keep rfl
    | with_reducible apply Only.ite
    | with_reducible apply Only.ite2
    | split
    | dsimp only
    | intro _))
theorem tallyNow_keep {s : State} {a : TallyApp} (hs : sub 2064 n_ = true) (hk_ : Only n_ a_ s) : Only n_ a_ (tallyNow s a).2 := tallyNow_only.step hs hk_
theorem tallyNow_keepE {s : State} {a : TallyApp} {y0_ : Nat} {t_ : State} (hs : sub 2064 n_ = true) (he : tallyNow s a = (y0_, t_)) (hk_ : Only n_ a_ s) : Only n_ a_ t_ := by
  have := tallyNow_keep hs hk_ (s := s) (a := a)
  rw [he] at this; exact this

theorem execTallyClear_only {tag : Nat} {s : State} : OOnly 552017 s (execTallyClear tag s) := by
  unfold execTallyClear
  try dsimp only
  all_goals (repeat' (first
    | with_reducible apply Only.refl
    | with_reducible apply runCmd_only rfl
    | with_reducible apply agentNext_keep rfl
    | with_reducible apply agentNext_keepE rfl (by assumption)
    | with_reducible apply sqcSet_keep rfl
    | with_reducible apply tallyNow_keep rfl
    | with_reducible apply tallyNow_keepE rfl (by assumption)
    | with_reducible apply endOk_keep rfl
    | with_reducible apply setWork_keep rfl
    | with_reducible apply endAfter_keep rfl
    | with_reducible apply Only.ite
    | with_reducible apply Only.ite2
    | with_reducible apply OOnly.ite
    | with_reducible apply OOnly.next
    | fail_if_no_progress (with_reducible apply Only.upd rfl)
    | split
    | dsimp only
    | intro _))

theorem execTallyWrite_only {tag : Nat} {io : HostIO} {s : State} : OOnly 552017 s (execTallyWrite tag io s) := by
  unfold execTallyWrite
  try dsimp only
  all_goals (repeat' (first
    | with_reducible apply Only.refl
    | with_reducible apply runIn_only rfl
    | with_reducible apply agentNext_keep rfl
    | with_reducible apply agentNext_keepE rfl (by assumption)
    | with_reducible apply tallyNow_keep rfl
    | with_reducible apply tallyNow_keepE rfl (by assumption)
    | with_reducible apply endOk_keep rfl
    | with_reducible apply OOnly.ite
    | with_reducible apply OOnly.next
    | split
    | dsimp only
    | intro _))

theorem execTallyStatus_only {tag : Nat} {io : HostIO} {s : State} : OOnly 552529 s (execTallyStatus tag io s) := by
  unfold execTallyStatus
  try dsimp only
  all_goals (repeat' (first
    | with_reducible apply Only.refl
    | with_reducible apply runCmd_only rfl
    | with_reducible apply endOut_keep rfl
    | with_reducible apply OOnly.ite
    | with_reducible apply OOnly.next
    | dsimp only
    | intro _))

theorem execTallyFlush_only {tag : Nat} {s : State} : OOnly 552017 s (execTallyFlush tag s) := by
  unfold execTallyFlush
  try dsimp only
  all_goals (repeat' (first
    | with_reducible apply Only.refl
    | with_reducible apply runCmd_only rfl
    | with_reducible apply endOk_keep rfl
    | with_reducible apply setWork_keep rfl
    | with_reducible apply endAfter_keep rfl
    | with_reducible apply Only.ite
    | with_reducible apply OOnly.ite
    | with_reducible apply OOnly.next
    | fail_if_no_progress (with_reducible apply Only.upd rfl)
    | split
    | dsimp only
    | intro _))

theorem lintPut_only {s : State} {n : Nat} {x : LintSrc} : Only 1048576 s (lintPut s n x) := by
  unfold lintPut
  try dsimp only
  all_goals (repeat' (first
    | with_reducible apply Only.refl
    | fail_if_no_progress (with_reducible apply Only.upd rfl)
    | dsimp only
    | intro _))
theorem lintPut_keep {s : State} {n : Nat} {x : LintSrc} (hs : sub 1048576 n_ = true) (hk_ : Only n_ a_ s) : Only n_ a_ (lintPut s n x) := lintPut_only.step hs hk_

theorem lintBegin_only {s : State} {p : Nat → Bool} : Only 1048576 s (lintBegin s p) := by
  unfold lintBegin
  try dsimp only
  all_goals (repeat' (first
    | with_reducible apply Only.refl
    | with_reducible apply lintPut_keep rfl
    | with_reducible apply Only.foldl
    | with_reducible apply Only.foldl2
    | dsimp only
    | intro _))
theorem lintBegin_keep {s : State} {p : Nat → Bool} (hs : sub 1048576 n_ = true) (hk_ : Only n_ a_ s) : Only n_ a_ (lintBegin s p) := lintBegin_only.step hs hk_

theorem lintDiscard_only {s : State} : Only 1048576 s (lintDiscard s) := by
  unfold lintDiscard
  try dsimp only
  all_goals (repeat' (first
    | with_reducible apply Only.refl
    | with_reducible apply lintPut_keep rfl
    | with_reducible apply Only.foldl
    | with_reducible apply Only.foldl2
    | dsimp only
    | intro _))
theorem lintDiscard_keep {s : State} (hs : sub 1048576 n_ = true) (hk_ : Only n_ a_ s) : Only n_ a_ (lintDiscard s) := lintDiscard_only.step hs hk_

theorem setPwrMode_only {s : State} {m : Nat} : Only 16 s (setPwrMode s m) := by
  unfold setPwrMode
  try dsimp only
  all_goals (repeat' (first
    | with_reducible apply Only.refl
    | with_reducible apply regSetField_keep rfl
    | dsimp only
    | intro _))
theorem setPwrMode_keep {s : State} {m : Nat} (hs : sub 16 n_ = true) (hk_ : Only n_ a_ s) : Only n_ a_ (setPwrMode s m) := setPwrMode_only.step hs hk_

theorem touchFast_only {s : State} : Only 1048600 s (touchFast s) := by
  unfold touchFast
  try dsimp only
  all_goals (repeat' (first
    | with_reducible apply Only.refl
    | with_reducible apply lintDiscard_keep rfl
    | with_reducible apply setPwrMode_keep rfl
    | with_reducible apply Only.ite
    | fail_if_no_progress (with_reducible apply Only.upd rfl)
    | split
    | dsimp only
    | intro _))
theorem touchFast_keep {s : State} (hs : sub 1048600 n_ = true) (hk_ : Only n_ a_ s) : Only n_ a_ (touchFast s) := touchFast_only.step hs hk_

theorem startGone_only {s : State} {order : Nat} : Only 1048576 s (startGone s order) := by
  unfold startGone
  try dsimp only
  all_goals (repeat' (first
    | with_reducible apply Only.refl
    | fail_if_no_progress (with_reducible apply Only.upd rfl)
    | split
    | dsimp only
    | intro _))
theorem startGone_keep {s : State} {order : Nat} (hs : sub 1048576 n_ = true) (hk_ : Only n_ a_ s) : Only n_ a_ (startGone s order) := startGone_only.step hs hk_

theorem draw_only {s0 : State} {n : Nat} : Only 1048600 s0 (draw s0 n).2 := by
  unfold draw
  try dsimp only
  all_goals (repeat' (first
    | with_reducible apply Only.refl
    | with_reducible apply touchFast_keep rfl
    | fail_if_no_progress (with_reducible apply Only.upd rfl)
    | dsimp only
    | intro _))
theorem draw_keep {s0 : State} {n : Nat} (hs : sub 1048600 n_ = true) (hk_ : Only n_ a_ s0) : Only n_ a_ (draw s0 n).2 := draw_only.step hs hk_
theorem draw_keepE {s0 : State} {n : Nat} {y0_ : List Byte} {t_ : State} (hs : sub 1048600 n_ = true) (he : draw s0 n = (y0_, t_)) (hk_ : Only n_ a_ s0) : Only n_ a_ t_ := by
  have := draw_keep hs hk_ (s0 := s0) (n := n)
  rw [he] at this; exact this

theorem drawBlinding_only {s : State} : Only 1048602 s (drawBlinding s) := by
  unfold drawBlinding
  try dsimp only
  all_goals (repeat' (first
    | with_reducible apply Only.refl
    | with_reducible apply freeWord_keep rfl
    | with_reducible apply freeWord_keepE rfl (by assumption)
    | with_reducible apply touchFast_keep rfl
    | fail_if_no_progress (with_reducible apply Only.upd rfl)
    | split
    | dsimp only
    | intro _))
theorem drawBlinding_keep {s : State} (hs : sub 1048602 n_ = true) (hk_ : Only n_ a_ s) : Only n_ a_ (drawBlinding s) := drawBlinding_only.step hs hk_

theorem formationNeed_only {s : State} : Only 1064984 s (formationNeed s) := by
  unfold formationNeed
  try dsimp only
  all_goals (repeat' (first
    | with_reducible apply Only.refl
    | with_reducible apply draw_keep rfl
    | with_reducible apply draw_keepE rfl (by assumption)
    | with_reducible apply Only.ite
    | with_reducible apply Only.ite2
    | fail_if_no_progress (with_reducible apply Only.upd rfl)
    | split
    | dsimp only
    | intro _))
theorem formationNeed_keep {s : State} (hs : sub 1064984 n_ = true) (hk_ : Only n_ a_ s) : Only n_ a_ (formationNeed s) := formationNeed_only.step hs hk_

theorem rngSleep_only {s : State} : Only 1048576 s (rngSleep s) := by
  unfold rngSleep
  try dsimp only
  all_goals (repeat' (first
    | with_reducible apply Only.refl
    | with_reducible apply lintPut_keep rfl
    | with_reducible apply Only.foldl
    | with_reducible apply Only.foldl2
    | fail_if_no_progress (with_reducible apply Only.upd rfl)
    | dsimp only
    | intro _))
theorem rngSleep_keep {s : State} (hs : sub 1048576 n_ = true) (hk_ : Only n_ a_ s) : Only n_ a_ (rngSleep s) := rngSleep_only.step hs hk_

theorem rngWake_only {s : State} : Only 1048576 s (rngWake s) := by
  unfold rngWake
  try dsimp only
  all_goals (repeat' (first
    | with_reducible apply Only.refl
    | with_reducible apply lintBegin_keep rfl
    | fail_if_no_progress (with_reducible apply Only.upd rfl)
    | dsimp only
    | intro _))
theorem rngWake_keep {s : State} (hs : sub 1048576 n_ = true) (hk_ : Only n_ a_ s) : Only n_ a_ (rngWake s) := rngWake_only.step hs hk_

theorem rngClear_only {s : State} : Only 1048576 s (rngClear s) := by
  unfold rngClear
  try dsimp only
  all_goals (repeat' (first
    | with_reducible apply Only.refl
    | fail_if_no_progress (with_reducible apply Only.upd rfl)
    | dsimp only
    | intro _))
theorem rngClear_keep {s : State} (hs : sub 1048576 n_ = true) (hk_ : Only n_ a_ s) : Only n_ a_ (rngClear s) := rngClear_only.step hs hk_

theorem rngRinse_only {s : State} : Only 1048576 s (rngRinse s) := by
  unfold rngRinse
  try dsimp only
  all_goals (repeat' (first
    | with_reducible apply Only.refl
    | with_reducible apply lintDiscard_keep rfl
    | with_reducible apply rngClear_keep rfl
    | dsimp only
    | intro _))
theorem rngRinse_keep {s : State} (hs : sub 1048576 n_ = true) (hk_ : Only n_ a_ s) : Only n_ a_ (rngRinse s) := rngRinse_only.step hs hk_

theorem rngConfig_only {s : State} {v : Word} : Only 1048592 s (rngConfig s v) := by
  unfold rngConfig
  try dsimp only
  all_goals (repeat' (first
    | with_reducible apply Only.refl
    | with_reducible apply regPut_keep rfl
    | with_reducible apply lintPut_keep rfl
    | with_reducible apply Only.foldl
    | with_reducible apply Only.foldl2
    | with_reducible apply Only.ite
    | split
    | dsimp only
    | intro _))
theorem rngConfig_keep {s : State} {v : Word} (hs : sub 1048592 n_ = true) (hk_ : Only n_ a_ s) : Only n_ a_ (rngConfig s v) := rngConfig_only.step hs hk_

theorem rngTestWrite_only {s : State} {v : Word} : Only 1048592 s (rngTestWrite s v) := by
  unfold rngTestWrite
  try dsimp only
  all_goals (repeat' (first
    | with_reducible apply Only.refl
    | with_reducible apply regPut_keep rfl
    | with_reducible apply lintPut_keep rfl
    | with_reducible apply lintDiscard_keep rfl
    | with_reducible apply rngClear_keep rfl
    | with_reducible apply Only.foldl
    | with_reducible apply Only.foldl2
    | with_reducible apply Only.ite
    | split
    | dsimp only
    | intro _))
theorem rngTestWrite_keep {s : State} {v : Word} (hs : sub 1048592 n_ = true) (hk_ : Only n_ a_ s) : Only n_ a_ (rngTestWrite s v) := rngTestWrite_only.step hs hk_

theorem portPut_only {s : State} {p : Nat} {x : PortState} : Only 131072 s (portPut s p x) := by
  unfold portPut
  try dsimp only
  all_goals (repeat' (first
    | with_reducible apply Only.refl
    | fail_if_no_progress (with_reducible apply Only.upd rfl)
    | dsimp only
    | intro _))
theorem portPut_keep {s : State} {p : Nat} {x : PortState} (hs : sub 131072 n_ = true) (hk_ : Only n_ a_ s) : Only n_ a_ (portPut s p x) := portPut_only.step hs hk_

theorem portsMap_only {s : State} {f : PortState → PortState} : Only 131072 s (portsMap s f) := by
  unfold portsMap
  try dsimp only
  all_goals (repeat' (first
    | with_reducible apply Only.refl
    | with_reducible apply portPut_keep rfl
    | with_reducible apply Only.foldl
    | with_reducible apply Only.foldl2
    | dsimp only
    | intro _))
theorem portsMap_keep {s : State} {f : PortState → PortState} (hs : sub 131072 n_ = true) (hk_ : Only n_ a_ s) : Only n_ a_ (portsMap s f) := portsMap_only.step hs hk_

theorem linkL1_only {s : State} {on : Bool} : Only 384 s (linkL1 s on) := by
  unfold linkL1
  try dsimp only
  all_goals (repeat' (first
    | with_reducible apply Only.refl
    | fail_if_no_progress (with_reducible apply Only.upd rfl)
    | dsimp only
    | intro _))
theorem linkL1_keep {s : State} {on : Bool} (hs : sub 384 n_ = true) (hk_ : Only n_ a_ s) : Only n_ a_ (linkL1 s on) := linkL1_only.step hs hk_

theorem portRefill_only {s : State} {p : Nat} : Only 32786 s (portRefill s p) := by
  unfold portRefill
  try dsimp only
  all_goals (repeat' (first
    | with_reducible apply Only.refl
    | with_reducible apply hmpAlloc_keep rfl (by assumption)
    | with_reducible apply Only.foldl
    | with_reducible apply Only.foldl2
    | with_reducible apply Only.ite
    | with_reducible apply Only.ite2
    | split
    | dsimp only
    | intro _))
theorem portRefill_keep {s : State} {p : Nat} (hs : sub 32786 n_ = true) (hk_ : Only n_ a_ s) : Only n_ a_ (portRefill s p) := portRefill_only.step hs hk_

theorem portReady_only {s : State} {p : Nat} : Only 32786 s (portReady s p) := by
  unfold portReady
  try dsimp only
  all_goals (repeat' (first
    | with_reducible apply Only.refl
    | with_reducible apply portRefill_keep rfl
    | with_reducible apply Only.ite
    | split
    | dsimp only
    | intro _))
theorem portReady_keep {s : State} {p : Nat} (hs : sub 32786 n_ = true) (hk_ : Only n_ a_ s) : Only n_ a_ (portReady s p) := portReady_only.step hs hk_

theorem portRetrain_only {s : State} {p : Nat} : Only 131072 s (portRetrain s p) := by
  unfold portRetrain
  try dsimp only
  all_goals (repeat' (first
    | with_reducible apply Only.refl
    | with_reducible apply portPut_keep rfl
    | with_reducible apply Only.ite
    | split
    | dsimp only
    | intro _))
theorem portRetrain_keep {s : State} {p : Nat} (hs : sub 131072 n_ = true) (hk_ : Only n_ a_ s) : Only n_ a_ (portRetrain s p) := portRetrain_only.step hs hk_

theorem pwrSteps_only {s : State} {entering : Bool} {exiting : Bool} : Only 16 s (pwrSteps s entering exiting) := by
  unfold pwrSteps
  try dsimp only
  all_goals (repeat' (first
    | with_reducible apply Only.refl
    | with_reducible apply regSetBit_keep rfl
    | dsimp only
    | intro _))
theorem pwrSteps_keep {s : State} {entering : Bool} {exiting : Bool} (hs : sub 16 n_ = true) (hk_ : Only n_ a_ s) : Only n_ a_ (pwrSteps s entering exiting) := pwrSteps_only.step hs hk_

theorem coresGoOn_only {s : State} : Only 65536 s (coresGoOn s) := by
  unfold coresGoOn
  try dsimp only
  all_goals (repeat' (first
    | with_reducible apply Only.refl
    | with_reducible apply Only.ite
    | fail_if_no_progress (with_reducible apply Only.upd rfl)
    | split
    | dsimp only
    | intro _))
theorem coresGoOn_keep {s : State} (hs : sub 65536 n_ = true) (hk_ : Only n_ a_ s) : Only n_ a_ (coresGoOn s) := coresGoOn_only.step hs hk_

theorem comeActive_only {s : State} : Only 1280410 s (comeActive s) := by
  unfold comeActive
  try dsimp only
  all_goals (repeat' (first
    | with_reducible apply Only.refl
    | with_reducible apply linkL1_keep rfl
    | with_reducible apply rngWake_keep rfl
    | with_reducible apply portsMap_keep rfl
    | with_reducible apply regSetBit_keep rfl
    | with_reducible apply pwrSteps_keep rfl
    | with_reducible apply setPwrMode_keep rfl
    | with_reducible apply tallyUnstage_keep rfl
    | with_reducible apply portReady_keep rfl
    | with_reducible apply coresGoOn_keep rfl
    | with_reducible apply portRetrain_keep rfl
    | with_reducible apply Only.foldl
    | with_reducible apply Only.foldl2
    | with_reducible apply Only.ite
    | fail_if_no_progress (with_reducible apply Only.upd rfl)
    | split
    | dsimp only
    | intro _))
theorem comeActive_keep {s : State} (hs : sub 1280410 n_ = true) (hk_ : Only n_ a_ s) : Only n_ a_ (comeActive s) := comeActive_only.step hs hk_

theorem wakeNote_only {s : State} {cause : Nat} : Only 88 s (wakeNote s cause) := by
  unfold wakeNote
  try dsimp only
  all_goals (repeat' (first
    | with_reducible apply Only.refl
    | with_reducible apply sqcSet_keep rfl
    | with_reducible apply regSetField_keep rfl
    | with_reducible apply agentNext_keep rfl
    | with_reducible apply agentNext_keepE rfl (by assumption)
    | fail_if_no_progress (with_reducible apply Only.upd rfl)
    | split
    | dsimp only
    | intro _))
theorem wakeNote_keep {s : State} {cause : Nat} (hs : sub 88 n_ = true) (hk_ : Only n_ a_ s) : Only n_ a_ (wakeNote s cause) := wakeNote_only.step hs hk_

theorem wakeUp_only {s : State} {cause : Nat} : Only 1280474 s (wakeUp s cause) := by
  unfold wakeUp
  try dsimp only
  all_goals (repeat' (first
    | with_reducible apply Only.refl
    | with_reducible apply wakeNote_keep rfl
    | with_reducible apply comeActive_keep rfl
    | with_reducible apply pwrSteps_keep rfl
    | with_reducible apply Only.ite
    | fail_if_no_progress (with_reducible apply Only.upd rfl)
    | split
    | dsimp only
    | intro _))
theorem wakeUp_keep {s : State} {cause : Nat} (hs : sub 1280474 n_ = true) (hk_ : Only n_ a_ s) : Only n_ a_ (wakeUp s cause) := wakeUp_only.step hs hk_

theorem hostHold_only {s : State} {q : HostReq} : Only 8 s (hostHold s q) := by
  unfold hostHold
  try dsimp only
  all_goals (repeat' (first
    | with_reducible apply Only.refl
    | fail_if_no_progress (with_reducible apply Only.upd rfl)
    | dsimp only
    | intro _))
theorem hostHold_keep {s : State} {q : HostReq} (hs : sub 8 n_ = true) (hk_ : Only n_ a_ s) : Only n_ a_ (hostHold s q) := hostHold_only.step hs hk_

theorem hostMeets_only {s : State} {cause : Nat} {q : HostReq} {f : State → State} {m : Nat} (hm : sub 1280474 m = true) (hf : ∀ x0, Only m x0 (f x0)) : Only m s (hostMeets s cause q f) := by
  unfold hostMeets
  try dsimp only
  all_goals (repeat' (first
    | with_reducible apply Only.refl
    | with_reducible assumption
    | with_reducible apply hf
    | with_reducible refine Only.trans ?_ (hf _)
    | with_reducible apply wakeUp_keep (sub_trans rfl hm)
    | with_reducible apply hostHold_keep (sub_trans rfl hm)
    | with_reducible apply Only.ite
    | split
    | dsimp only
    | intro _))
theorem hostMeets_keep {s : State} {cause : Nat} {q : HostReq} {f : State → State} (hs : sub 1280474 n_ = true) (hf : ∀ x0, Only n_ x0 (f x0)) (hk_ : Only n_ a_ s) : Only n_ a_ (hostMeets s cause q f) := hk_.trans (hostMeets_only hs hf)

theorem standbyLose_only {s : State} : Only 180224 s (standbyLose s) := by
  unfold standbyLose
  try dsimp only
  all_goals (repeat' (first
    | with_reducible apply Only.refl
    | fail_if_no_progress (with_reducible apply Only.upd rfl)
    | dsimp only
    | intro _))
theorem standbyLose_keep {s : State} (hs : sub 180224 n_ = true) (hk_ : Only n_ a_ s) : Only n_ a_ (standbyLose s) := standbyLose_only.step hs hk_

theorem portsDrop_only {s : State} : Only 16 s (portsDrop s) := by
  unfold portsDrop
  try dsimp only
  all_goals (repeat' (first
    | with_reducible apply Only.refl
    | with_reducible apply sqcSet_keep rfl
    | with_reducible apply regAdd_keep rfl
    | with_reducible apply Only.foldl
    | with_reducible apply Only.foldl2
    | with_reducible apply Only.ite
    | split
    | dsimp only
    | intro _))
theorem portsDrop_keep {s : State} (hs : sub 16 n_ = true) (hk_ : Only n_ a_ s) : Only n_ a_ (portsDrop s) := portsDrop_only.step hs hk_

theorem enterStandby_only {s : State} : Only 1229208 s (enterStandby s) := by
  unfold enterStandby
  try dsimp only
  all_goals (repeat' (first
    | with_reducible apply Only.refl
    | with_reducible apply portsMap_keep rfl
    | with_reducible apply portsDrop_keep rfl
    | with_reducible apply standbyLose_keep rfl
    | with_reducible apply linkL1_keep rfl
    | with_reducible apply regSetBit_keep rfl
    | with_reducible apply setPwrMode_keep rfl
    | with_reducible apply rngSleep_keep rfl
    | with_reducible apply Only.ite
    | fail_if_no_progress (with_reducible apply Only.upd rfl)
    | split
    | dsimp only
    | intro _))
theorem enterStandby_keep {s : State} (hs : sub 1229208 n_ = true) (hk_ : Only n_ a_ s) : Only n_ a_ (enterStandby s) := enterStandby_only.step hs hk_

theorem execWarmEntry_only {s : State} : OOnly 1048592 s (execWarmEntry s) := by
  unfold execWarmEntry
  try dsimp only
  all_goals (repeat' (first
    | with_reducible apply Only.refl
    | with_reducible apply setPwrMode_keep rfl
    | with_reducible apply lintDiscard_keep rfl
    | with_reducible apply Only.ite
    | with_reducible apply OOnly.ite
    | with_reducible apply OOnly.next
    | split
    | dsimp only
    | intro _))

theorem execWarmExit_only {s : State} : OOnly 1048600 s (execWarmExit s) := by
  unfold execWarmExit
  try dsimp only
  all_goals (repeat' (first
    | with_reducible apply Only.refl
    | with_reducible apply touchFast_keep rfl
    | with_reducible apply Only.ite
    | with_reducible apply OOnly.ite
    | with_reducible apply OOnly.next
    | split
    | dsimp only
    | intro _))

theorem enterBegin_only {s : State} : Only 163864 s (enterBegin s) := by
  unfold enterBegin
  try dsimp only
  all_goals (repeat' (first
    | with_reducible apply Only.refl
    | with_reducible apply pwrSteps_keep rfl
    | with_reducible apply portsMap_keep rfl
    | fail_if_no_progress (with_reducible apply Only.upd rfl)
    | dsimp only
    | intro _))
theorem enterBegin_keep {s : State} (hs : sub 163864 n_ = true) (hk_ : Only n_ a_ s) : Only n_ a_ (enterBegin s) := enterBegin_only.step hs hk_

theorem enterAiring_only {s : State} : Only 1048984 s (enterAiring s) := by
  unfold enterAiring
  try dsimp only
  all_goals (repeat' (first
    | with_reducible apply Only.refl
    | with_reducible apply linkL1_keep rfl
    | with_reducible apply regSetBit_keep rfl
    | with_reducible apply pwrSteps_keep rfl
    | with_reducible apply setPwrMode_keep rfl
    | with_reducible apply rngSleep_keep rfl
    | fail_if_no_progress (with_reducible apply Only.upd rfl)
    | dsimp only
    | intro _))
theorem enterAiring_keep {s : State} (hs : sub 1048984 n_ = true) (hk_ : Only n_ a_ s) : Only n_ a_ (enterAiring s) := enterAiring_only.step hs hk_

theorem enterStep_only {s : State} : Only 1048984 s (enterStep s) := by
  unfold enterStep
  try dsimp only
  all_goals (repeat' (first
    | with_reducible apply Only.refl
    | with_reducible apply enterAiring_keep rfl
    | fail_if_no_progress (with_reducible apply Only.upd rfl)
    | split
    | dsimp only
    | intro _))

theorem execAiringEntry_only {s : State} : OOnly 163864 s (execAiringEntry s) := by
  unfold execAiringEntry
  try dsimp only
  all_goals (repeat' (first
    | with_reducible apply Only.refl
    | with_reducible apply enterBegin_keep rfl
    | with_reducible apply Only.ite
    | with_reducible apply OOnly.ite
    | with_reducible apply OOnly.next
    | split
    | dsimp only
    | intro _))

theorem execAiringWake_only {cause : Nat} {s : State} : OOnly 1280474 s (execAiringWake cause s) := by
  unfold execAiringWake
  try dsimp only
  all_goals (repeat' (first
    | with_reducible apply Only.refl
    | with_reducible apply wakeUp_keep rfl
    | with_reducible apply Only.ite
    | with_reducible apply OOnly.ite
    | with_reducible apply OOnly.next
    | split
    | dsimp only
    | intro _))

theorem execStandbyWake_only {cause : Nat} {s : State} : OOnly 1280474 s (execStandbyWake cause s) := by
  unfold execStandbyWake
  try dsimp only
  all_goals (repeat' (first
    | with_reducible apply Only.refl
    | with_reducible apply wakeUp_keep rfl
    | with_reducible apply Only.ite
    | with_reducible apply OOnly.ite
    | with_reducible apply OOnly.next
    | split
    | dsimp only
    | intro _))

theorem execWakeTimerExpiry_only {s : State} : OOnly 1280478 s (execWakeTimerExpiry s) := by
  unfold execWakeTimerExpiry
  try dsimp only
  all_goals (repeat' (first
    | with_reducible apply Only.refl
    | with_reducible apply wakeUp_keep rfl
    | with_reducible apply Only.ite
    | with_reducible apply OOnly.ite
    | with_reducible apply OOnly.next
    | fail_if_no_progress (with_reducible apply Only.upd rfl)
    | split
    | dsimp only
    | intro _))

end Sys2Proof.Machine
end

