-- ==== Sys2Proof/Laws/FrameHost.lean ====
section
/-! SUPPORT. What each operation of these files of Machine/ changes (see Laws/Frame.lean): Rings, Tracker, Keys, KeyLog, Units, KeyCmds,
Owners, Events, LinkOps. -/

namespace Sys2Proof.Machine

set_option linter.all false
set_option Elab.async false

variable {n_ : Nat} {a_ : State}

theorem sqPut_only {s : State} {n : Nat} {k : Nat} {r : SqRing} : Only 512 s (sqPut s n k r) := by
  unfold sqPut
  try dsimp only
  all_goals (repeat' (first
    | with_reducible apply Only.refl
    | with_reducible apply slicePut_keep rfl
    | dsimp only
    | intro _))
theorem sqPut_keep {s : State} {n : Nat} {k : Nat} {r : SqRing} (hs : sub 512 n_ = true) (hk_ : Only n_ a_ s) : Only n_ a_ (sqPut s n k r) := sqPut_only.step hs hk_

theorem cqPut_only {s : State} {n : Nat} {k : Nat} {r : CqRing} : Only 512 s (cqPut s n k r) := by
  unfold cqPut
  try dsimp only
  all_goals (repeat' (first
    | with_reducible apply Only.refl
    | with_reducible apply slicePut_keep rfl
    | dsimp only
    | intro _))
theorem cqPut_keep {s : State} {n : Nat} {k : Nat} {r : CqRing} (hs : sub 512 n_ = true) (hk_ : Only n_ a_ s) : Only n_ a_ (cqPut s n k r) := cqPut_only.step hs hk_

theorem sqErrBit_only {s : State} {n : Nat} {k : Nat} : Only 512 s (sqErrBit s n k) := by
  unfold sqErrBit
  try dsimp only
  all_goals (repeat' (first
    | with_reducible apply Only.refl
    | with_reducible apply slicePut_keep rfl
    | dsimp only
    | intro _))
theorem sqErrBit_keep {s : State} {n : Nat} {k : Nat} (hs : sub 512 n_ = true) (hk_ : Only n_ a_ s) : Only n_ a_ (sqErrBit s n k) := sqErrBit_only.step hs hk_

theorem cqErrBit_only {s : State} {n : Nat} {k : Nat} : Only 512 s (cqErrBit s n k) := by
  unfold cqErrBit
  try dsimp only
  all_goals (repeat' (first
    | with_reducible apply Only.refl
    | with_reducible apply slicePut_keep rfl
    | dsimp only
    | intro _))
theorem cqErrBit_keep {s : State} {n : Nat} {k : Nat} (hs : sub 512 n_ = true) (hk_ : Only n_ a_ s) : Only n_ a_ (cqErrBit s n k) := cqErrBit_only.step hs hk_

theorem pageServed_only {s : State} {n : Nat} {fn : Nat} {pasid : Option Nat} {f : State → State} {m : Nat} (hm : sub 512 m = true) (hf : ∀ x0, Only m x0 (f x0)) : Only m s (pageServed s n fn pasid f) := by
  unfold pageServed
  try dsimp only
  all_goals (repeat' (first
    | with_reducible apply Only.refl
    | with_reducible assumption
    | with_reducible apply hf
    | with_reducible refine Only.trans ?_ (hf _)
    | with_reducible apply slcIgn_keep (sub_trans rfl hm)
    | with_reducible apply Only.ite
    | split
    | dsimp only
    | intro _))
theorem pageServed_keep {s : State} {n : Nat} {fn : Nat} {pasid : Option Nat} {f : State → State} (hs : sub 512 n_ = true) (hf : ∀ x0, Only n_ x0 (f x0)) (hk_ : Only n_ a_ s) : Only n_ a_ (pageServed s n fn pasid f) := hk_.trans (pageServed_only hs hf)

theorem pageWrite_only {s : State} {n : Nat} {fn : Nat} {pasid : Option Nat} {q : HostReq} {f : State → State} {m : Nat} (hm : sub 1280986 m = true) (hf : ∀ x0, Only m x0 (f x0)) : Only m s (pageWrite s n fn pasid q f) := by
  unfold pageWrite
  try dsimp only
  all_goals (repeat' (first
    | with_reducible apply Only.refl
    | with_reducible assumption
    | with_reducible apply hf
    | with_reducible refine Only.trans ?_ (hf _)
    | with_reducible apply hostMeets_keep (sub_trans rfl hm)
    | with_reducible apply pageServed_keep (sub_trans rfl hm)
    | with_reducible apply Only.ite
    | split
    | dsimp only
    | intro _))
theorem pageWrite_keep {s : State} {n : Nat} {fn : Nat} {pasid : Option Nat} {q : HostReq} {f : State → State} (hs : sub 1280986 n_ = true) (hf : ∀ x0, Only n_ x0 (f x0)) (hk_ : Only n_ a_ s) : Only n_ a_ (pageWrite s n fn pasid q f) := hk_.trans (pageWrite_only hs hf)

theorem bellStamp_only {s : State} {n : Nat} : Only 64 s (bellStamp s n) := by
  unfold bellStamp
  try dsimp only
  all_goals (repeat' (first
    | with_reducible apply Only.refl
    | with_reducible apply agentNext_keep rfl
    | with_reducible apply agentNext_keepE rfl (by assumption)
    | split
    | dsimp only
    | intro _))
theorem bellStamp_keep {s : State} {n : Nat} (hs : sub 64 n_ = true) (hk_ : Only n_ a_ s) : Only n_ a_ (bellStamp s n) := bellStamp_only.step hs hk_

theorem sqBell_only {s : State} {n : Nat} {k : Nat} {v : Nat} {at_ : Stamp} : Only 576 s (sqBell s n k v at_) := by
  unfold sqBell
  try dsimp only
  all_goals (repeat' (first
    | with_reducible apply Only.refl
    | with_reducible apply bellStamp_keep rfl
    | with_reducible apply sqPut_keep rfl
    | with_reducible apply sqErrBit_keep rfl
    | with_reducible apply slcIgn_keep rfl
    | with_reducible apply Only.ite
    | split
    | dsimp only
    | intro _))
theorem sqBell_keep {s : State} {n : Nat} {k : Nat} {v : Nat} {at_ : Stamp} (hs : sub 576 n_ = true) (hk_ : Only n_ a_ s) : Only n_ a_ (sqBell s n k v at_) := sqBell_only.step hs hk_

theorem rxReturn_only {s : State} {n : Nat} {k : Nat} {size : Nat} {lo : Nat} {hi : Nat} : Only 131072 s (rxReturn s n k size lo hi) := by
  unfold rxReturn
  try dsimp only
  all_goals (repeat' (first
    | with_reducible apply Only.refl
    | with_reducible apply Only.foldl
    | with_reducible apply Only.foldl2
    | fail_if_no_progress (with_reducible apply Only.upd rfl)
    | dsimp only
    | intro _))
theorem rxReturn_keep {s : State} {n : Nat} {k : Nat} {size : Nat} {lo : Nat} {hi : Nat} (hs : sub 131072 n_ = true) (hk_ : Only n_ a_ s) : Only n_ a_ (rxReturn s n k size lo hi) := rxReturn_only.step hs hk_

theorem cqBell_only {s0 : State} {n : Nat} {k : Nat} {v : Nat} {at_ : Stamp} : Only 131648 s0 (cqBell s0 n k v at_) := by
  unfold cqBell
  try dsimp only
  all_goals (repeat' (first
    | with_reducible apply Only.refl
    | with_reducible apply bellStamp_keep rfl
    | with_reducible apply rxReturn_keep rfl
    | with_reducible apply cqPut_keep rfl
    | with_reducible apply cqErrBit_keep rfl
    | with_reducible apply slcIgn_keep rfl
    | with_reducible apply Only.ite
    | split
    | dsimp only
    | intro _))
theorem cqBell_keep {s0 : State} {n : Nat} {k : Nat} {v : Nat} {at_ : Stamp} (hs : sub 131648 n_ = true) (hk_ : Only n_ a_ s0) : Only n_ a_ (cqBell s0 n k v at_) := cqBell_only.step hs hk_

theorem sqCfg_only {s : State} {n : Nat} {k : Nat} {v : Word} : Only 512 s (sqCfg s n k v) := by
  unfold sqCfg
  try dsimp only
  all_goals (repeat' (first
    | with_reducible apply Only.refl
    | with_reducible apply slcIgn_keep rfl
    | with_reducible apply sqPut_keep rfl
    | with_reducible apply Only.ite
    | split
    | dsimp only
    | intro _))
theorem sqCfg_keep {s : State} {n : Nat} {k : Nat} {v : Word} (hs : sub 512 n_ = true) (hk_ : Only n_ a_ s) : Only n_ a_ (sqCfg s n k v) := sqCfg_only.step hs hk_

theorem cqCfg_only {s : State} {n : Nat} {k : Nat} {v : Word} : Only 512 s (cqCfg s n k v) := by
  unfold cqCfg
  try dsimp only
  all_goals (repeat' (first
    | with_reducible apply Only.refl
    | with_reducible apply slcIgn_keep rfl
    | with_reducible apply cqPut_keep rfl
    | with_reducible apply Only.ite
    | split
    | dsimp only
    | intro _))
theorem cqCfg_keep {s : State} {n : Nat} {k : Nat} {v : Word} (hs : sub 512 n_ = true) (hk_ : Only n_ a_ s) : Only n_ a_ (cqCfg s n k v) := cqCfg_only.step hs hk_

theorem sqBaseWrite_only {s : State} {n : Nat} {k : Nat} {hi : Bool} {v : Word} : Only 512 s (sqBaseWrite s n k hi v) := by
  unfold sqBaseWrite
  try dsimp only
  all_goals (repeat' (first
    | with_reducible apply Only.refl
    | with_reducible apply slcIgn_keep rfl
    | with_reducible apply sqPut_keep rfl
    | with_reducible apply Only.ite
    | split
    | dsimp only
    | intro _))
theorem sqBaseWrite_keep {s : State} {n : Nat} {k : Nat} {hi : Bool} {v : Word} (hs : sub 512 n_ = true) (hk_ : Only n_ a_ s) : Only n_ a_ (sqBaseWrite s n k hi v) := sqBaseWrite_only.step hs hk_

theorem cqBaseWrite_only {s : State} {n : Nat} {k : Nat} {hi : Bool} {v : Word} : Only 512 s (cqBaseWrite s n k hi v) := by
  unfold cqBaseWrite
  try dsimp only
  all_goals (repeat' (first
    | with_reducible apply Only.refl
    | with_reducible apply slcIgn_keep rfl
    | with_reducible apply cqPut_keep rfl
    | with_reducible apply Only.ite
    | split
    | dsimp only
    | intro _))
theorem cqBaseWrite_keep {s : State} {n : Nat} {k : Nat} {hi : Bool} {v : Word} (hs : sub 512 n_ = true) (hk_ : Only n_ a_ s) : Only n_ a_ (cqBaseWrite s n k hi v) := cqBaseWrite_only.step hs hk_

theorem cqCoalWrite_only {s : State} {n : Nat} {k : Nat} {v : Word} : Only 512 s (cqCoalWrite s n k v) := by
  unfold cqCoalWrite
  try dsimp only
  all_goals (repeat' (first
    | with_reducible apply Only.refl
    | with_reducible apply slcIgn_keep rfl
    | with_reducible apply cqPut_keep rfl
    | with_reducible apply Only.ite
    | split
    | dsimp only
    | intro _))
theorem cqCoalWrite_keep {s : State} {n : Nat} {k : Nat} {v : Word} (hs : sub 512 n_ = true) (hk_ : Only n_ a_ s) : Only n_ a_ (cqCoalWrite s n k v) := cqCoalWrite_only.step hs hk_

theorem cqRaise_only {s : State} {n : Nat} {k : Nat} : Only 897 s (cqRaise s n k) := by
  unfold cqRaise
  try dsimp only
  all_goals (repeat' (first
    | with_reducible apply Only.refl
    | with_reducible apply raiseVector_keep rfl
    | with_reducible apply cqPut_keep rfl
    | dsimp only
    | intro _))
theorem cqRaise_keep {s : State} {n : Nat} {k : Nat} (hs : sub 897 n_ = true) (hk_ : Only n_ a_ s) : Only n_ a_ (cqRaise s n k) := cqRaise_only.step hs hk_

theorem cqSignal_only {s : State} {n : Nat} {k : Nat} {urgent : Bool} : Only 897 s (cqSignal s n k urgent) := by
  unfold cqSignal
  try dsimp only
  all_goals (repeat' (first
    | with_reducible apply Only.refl
    | with_reducible apply cqRaise_keep rfl
    | with_reducible apply cqPut_keep rfl
    | with_reducible apply Only.ite
    | split
    | dsimp only
    | intro _))
theorem cqSignal_keep {s : State} {n : Nat} {k : Nat} {urgent : Bool} (hs : sub 897 n_ = true) (hk_ : Only n_ a_ s) : Only n_ a_ (cqSignal s n k urgent) := cqSignal_only.step hs hk_

theorem cqWrite_only {s : State} {n : Nat} {k : Nat} {token : BitVec 64} {index : Nat} {c : Comp} {urgent : Bool} : Only 897 s (cqWrite s n k token index c urgent) := by
  unfold cqWrite
  try dsimp only
  all_goals (repeat' (first
    | with_reducible apply Only.refl
    | with_reducible apply hostWrite_keep rfl
    | with_reducible apply cqSignal_keep rfl
    | with_reducible apply cqPut_keep rfl
    | with_reducible apply Only.ite
    | split
    | dsimp only
    | intro _))
theorem cqWrite_keep {s : State} {n : Nat} {k : Nat} {token : BitVec 64} {index : Nat} {c : Comp} {urgent : Bool} (hs : sub 897 n_ = true) (hk_ : Only n_ a_ s) : Only n_ a_ (cqWrite s n k token index c urgent) := cqWrite_only.step hs hk_

theorem sqHalt_only {s : State} {n : Nat} {k : Nat} : Only 3025 s (sqHalt s n k) := by
  unfold sqHalt
  try dsimp only
  all_goals (repeat' (first
    | with_reducible apply Only.refl
    | with_reducible apply sqErrBit_keep rfl
    | with_reducible apply sqPut_keep rfl
    | with_reducible apply tallyPut_keep rfl
    | with_reducible apply cqRaise_keep rfl
    | dsimp only
    | intro _))
theorem sqHalt_keep {s : State} {n : Nat} {k : Nat} (hs : sub 3025 n_ = true) (hk_ : Only n_ a_ s) : Only n_ a_ (sqHalt s n k) := sqHalt_only.step hs hk_

theorem cqHalt_only {s : State} {n : Nat} {k : Nat} : Only 3025 s (cqHalt s n k) := by
  unfold cqHalt
  try dsimp only
  all_goals (repeat' (first
    | with_reducible apply Only.refl
    | with_reducible apply cqErrBit_keep rfl
    | with_reducible apply cqPut_keep rfl
    | with_reducible apply cqRaise_keep rfl
    | with_reducible apply tallyPut_keep rfl
    | dsimp only
    | intro _))
theorem cqHalt_keep {s : State} {n : Nat} {k : Nat} (hs : sub 3025 n_ = true) (hk_ : Only n_ a_ s) : Only n_ a_ (cqHalt s n k) := cqHalt_only.step hs hk_

theorem retryDel_only {s : State} {w : HostAccess} : Only 1024 s (retryDel s w) := by
  unfold retryDel
  try dsimp only
  all_goals (repeat' (first
    | with_reducible apply Only.refl
    | fail_if_no_progress (with_reducible apply Only.upd rfl)
    | dsimp only
    | intro _))
theorem retryDel_keep {s : State} {w : HostAccess} (hs : sub 1024 n_ = true) (hk_ : Only n_ a_ s) : Only n_ a_ (retryDel s w) := retryDel_only.step hs hk_

theorem retryPut_only {s : State} {w : HostAccess} {fails : Nat} : Only 1024 s (retryPut s w fails) := by
  unfold retryPut
  try dsimp only
  all_goals (repeat' (first
    | with_reducible apply Only.refl
    | with_reducible apply retryDel_keep rfl
    | fail_if_no_progress (with_reducible apply Only.upd rfl)
    | dsimp only
    | intro _))
theorem retryPut_keep {s : State} {w : HostAccess} {fails : Nat} (hs : sub 1024 n_ = true) (hk_ : Only n_ a_ s) : Only n_ a_ (retryPut s w fails) := retryPut_only.step hs hk_

theorem ringFail_only {s : State} {w : HostAccess} {n : Nat} {halt : State → State} {m : Nat} (hm : sub 1024 m = true) (hhalt : ∀ x0, Only m x0 (halt x0)) : Only m s (ringFail s w n halt) := by
  unfold ringFail
  try dsimp only
  all_goals (repeat' (first
    | with_reducible apply Only.refl
    | with_reducible assumption
    | with_reducible apply hhalt
    | with_reducible refine Only.trans ?_ (hhalt _)
    | with_reducible apply retryDel_keep (sub_trans rfl hm)
    | with_reducible apply retryPut_keep (sub_trans rfl hm)
    | with_reducible apply Only.ite
    | split
    | dsimp only
    | intro _))
theorem ringFail_keep {s : State} {w : HostAccess} {n : Nat} {halt : State → State} (hs : sub 1024 n_ = true) (hhalt : ∀ x0, Only n_ x0 (halt x0)) (hk_ : Only n_ a_ s) : Only n_ a_ (ringFail s w n halt) := hk_.trans (ringFail_only hs hhalt)

theorem execSqTailWrite_only {fn : Nat} {slice : Nat} {ring : Nat} {pasid : Option Nat} {value : Word} {s : State} : OOnly 1280986 s (execSqTailWrite fn slice ring pasid value s) := by
  unfold execSqTailWrite
  try dsimp only
  all_goals (repeat' (first
    | with_reducible apply Only.refl
    | with_reducible apply pageWrite_keep rfl
    | with_reducible apply sqBell_keep rfl
    | with_reducible apply OOnly.ite
    | with_reducible apply OOnly.next
    | dsimp only
    | intro _))

theorem execCqHeadWrite_only {fn : Nat} {slice : Nat} {ring : Nat} {pasid : Option Nat} {value : Word} {s : State} : OOnly 1280986 s (execCqHeadWrite fn slice ring pasid value s) := by
  unfold execCqHeadWrite
  try dsimp only
  all_goals (repeat' (first
    | with_reducible apply Only.refl
    | with_reducible apply pageWrite_keep rfl
    | with_reducible apply cqBell_keep rfl
    | with_reducible apply OOnly.ite
    | with_reducible apply OOnly.next
    | dsimp only
    | intro _))

theorem execSqCfgWrite_only {fn : Nat} {slice : Nat} {ring : Nat} {pasid : Option Nat} {value : Word} {s : State} : OOnly 1280986 s (execSqCfgWrite fn slice ring pasid value s) := by
  unfold execSqCfgWrite
  try dsimp only
  all_goals (repeat' (first
    | with_reducible apply Only.refl
    | with_reducible apply pageWrite_keep rfl
    | with_reducible apply sqCfg_keep rfl
    | with_reducible apply OOnly.ite
    | with_reducible apply OOnly.next
    | dsimp only
    | intro _))

theorem execCqCfgWrite_only {fn : Nat} {slice : Nat} {ring : Nat} {pasid : Option Nat} {value : Word} {s : State} : OOnly 1280986 s (execCqCfgWrite fn slice ring pasid value s) := by
  unfold execCqCfgWrite
  try dsimp only
  all_goals (repeat' (first
    | with_reducible apply Only.refl
    | with_reducible apply pageWrite_keep rfl
    | with_reducible apply cqCfg_keep rfl
    | with_reducible apply OOnly.ite
    | with_reducible apply OOnly.next
    | dsimp only
    | intro _))

theorem execCqCoalTimeout_only {slice : Nat} {ring : Nat} {s : State} : OOnly 897 s (execCqCoalTimeout slice ring s) := by
  unfold execCqCoalTimeout
  try dsimp only
  all_goals (repeat' (first
    | with_reducible apply Only.refl
    | with_reducible apply cqRaise_keep rfl
    | with_reducible apply Only.ite
    | with_reducible apply OOnly.ite
    | with_reducible apply OOnly.next
    | split
    | dsimp only
    | intro _))

theorem execMsixVectorUnmask_only {fn : Nat} {vec : Nat} {s : State} : OOnly 385 s (execMsixVectorUnmask fn vec s) := by
  unfold execMsixVectorUnmask
  try dsimp only
  all_goals (repeat' (first
    | with_reducible apply Only.refl
    | with_reducible apply raiseMsix_keep rfl
    | with_reducible apply fnPut_keep rfl
    | with_reducible apply Only.ite
    | with_reducible apply OOnly.ite
    | with_reducible apply OOnly.next
    | split
    | dsimp only
    | intro _))

theorem dupSet_only {s : State} {c : Cmd} {d : List DupEntry} : Only 1536 s (dupSet s c d) := by
  unfold dupSet
  try dsimp only
  all_goals (repeat' (first
    | with_reducible apply Only.refl
    | with_reducible apply slicePut_keep rfl
    | fail_if_no_progress (with_reducible apply Only.upd rfl)
    | split
    | dsimp only
    | intro _))
theorem dupSet_keep {s : State} {c : Cmd} {d : List DupEntry} (hs : sub 1536 n_ = true) (hk_ : Only n_ a_ s) : Only n_ a_ (dupSet s c d) := dupSet_only.step hs hk_

theorem dupEnter_only {s : State} {c : Cmd} : Only 1536 s (dupEnter s c) := by
  unfold dupEnter
  try dsimp only
  all_goals (repeat' (first
    | with_reducible apply Only.refl
    | with_reducible apply dupSet_keep rfl
    | with_reducible apply Only.ite
    | split
    | dsimp only
    | intro _))
theorem dupEnter_keep {s : State} {c : Cmd} (hs : sub 1536 n_ = true) (hk_ : Only n_ a_ s) : Only n_ a_ (dupEnter s c) := dupEnter_only.step hs hk_

theorem destroyDrop_only {s : State} {tag : Nat} : Only 8192 s (destroyDrop s tag) := by
  unfold destroyDrop
  try dsimp only
  all_goals (repeat' (first
    | with_reducible apply Only.refl
    | with_reducible apply Only.ite
    | fail_if_no_progress (with_reducible apply Only.upd rfl)
    | split
    | dsimp only
    | intro _))
theorem destroyDrop_keep {s : State} {tag : Nat} (hs : sub 8192 n_ = true) (hk_ : Only n_ a_ s) : Only n_ a_ (destroyDrop s tag) := destroyDrop_only.step hs hk_

theorem stageTake_only {s : State} {c : Cmd} {n : Nat} : Only 32786 s (stageTake s c n).2 := by
  unfold stageTake
  try dsimp only
  all_goals (repeat' (first
    | with_reducible apply Only.refl
    | with_reducible apply hmpAlloc_keep rfl (by assumption)
    | with_reducible apply Only.ite
    | with_reducible apply Only.ite2
    | split
    | dsimp only
    | intro _))
theorem stageTake_keep {s : State} {c : Cmd} {n : Nat} (hs : sub 32786 n_ = true) (hk_ : Only n_ a_ s) : Only n_ a_ (stageTake s c n).2 := stageTake_only.step hs hk_
theorem stageTake_keepE {s : State} {c : Cmd} {n : Nat} {y0_ : Option Nat} {t_ : State} (hs : sub 32786 n_ = true) (he : stageTake s c n = (y0_, t_)) (hk_ : Only n_ a_ s) : Only n_ a_ t_ := by
  have := stageTake_keep hs hk_ (s := s) (c := c) (n := n)
  rw [he] at this; exact this

theorem stageFree_only {s : State} {c : Cmd} {b : Option Nat} : Only 32768 s (stageFree s c b) := by
  unfold stageFree
  try dsimp only
  all_goals (repeat' (first
    | with_reducible apply Only.refl
    | with_reducible apply hmpRelease_keep rfl
    | with_reducible apply Only.ite
    | split
    | dsimp only
    | intro _))
theorem stageFree_keep {s : State} {c : Cmd} {b : Option Nat} (hs : sub 32768 n_ = true) (hk_ : Only n_ a_ s) : Only n_ a_ (stageFree s c b) := stageFree_only.step hs hk_

theorem stageDrop_only {s : State} {c : Cmd} : Only 32768 s (stageDrop s c) := by
  unfold stageDrop
  try dsimp only
  all_goals (repeat' (first
    | with_reducible apply Only.refl
    | with_reducible apply stageFree_keep rfl
    | dsimp only
    | intro _))
theorem stageDrop_keep {s : State} {c : Cmd} (hs : sub 32768 n_ = true) (hk_ : Only n_ a_ s) : Only n_ a_ (stageDrop s c) := stageDrop_only.step hs hk_

theorem cmdRelease_only {s : State} {tag : Nat} : Only 566784 s (cmdRelease s tag) := by
  unfold cmdRelease
  try dsimp only
  all_goals (repeat' (first
    | with_reducible apply Only.refl
    | with_reducible apply cmdDel_keep rfl
    | with_reducible apply stageDrop_keep rfl
    | with_reducible apply destroyDrop_keep rfl
    | with_reducible apply dupSet_keep rfl
    | with_reducible apply Only.ite
    | split
    | dsimp only
    | intro _))
theorem cmdRelease_keep {s : State} {tag : Nat} (hs : sub 566784 n_ = true) (hk_ : Only n_ a_ s) : Only n_ a_ (cmdRelease s tag) := cmdRelease_only.step hs hk_

theorem endRepeat_only {s : State} {tag : Nat} {k : Comp} : Only 1024 s (endRepeat s tag k) := by
  unfold endRepeat
  try dsimp only
  all_goals (repeat' (first
    | with_reducible apply Only.refl
    | with_reducible apply cmdPut_keep rfl
    | split
    | dsimp only
    | intro _))
theorem endRepeat_keep {s : State} {tag : Nat} {k : Comp} (hs : sub 1024 n_ = true) (hk_ : Only n_ a_ s) : Only n_ a_ (endRepeat s tag k) := endRepeat_only.step hs hk_

theorem writeComp_only {s : State} {n : Nat} {c : Cmd} : Only 913 s (writeComp s n c) := by
  unfold writeComp
  try dsimp only
  all_goals (repeat' (first
    | with_reducible apply Only.refl
    | with_reducible apply cqWrite_keep rfl
    | with_reducible apply putOutput_keep rfl
    | dsimp only
    | intro _))
theorem writeComp_keep {s : State} {n : Nat} {c : Cmd} (hs : sub 913 n_ = true) (hk_ : Only n_ a_ s) : Only n_ a_ (writeComp s n c) := writeComp_only.step hs hk_

theorem keyPut_only {s : State} {slot : Nat} {o : KeyObj} : Only 24577 s (keyPut s slot o) := by
  unfold keyPut
  try dsimp only
  all_goals (repeat' (first
    | with_reducible apply Only.refl
    | with_reducible apply jot_keep rfl
    | fail_if_no_progress (with_reducible apply Only.upd rfl)
    | dsimp only
    | intro _))
theorem keyPut_keep {s : State} {slot : Nat} {o : KeyObj} (hs : sub 24577 n_ = true) (hk_ : Only n_ a_ s) : Only n_ a_ (keyPut s slot o) := keyPut_only.step hs hk_

theorem cachePurge_only {s : State} {h : Nat} : Only 8192 s (cachePurge s h) := by
  unfold cachePurge
  try dsimp only
  all_goals (repeat' (first
    | with_reducible apply Only.refl
    | fail_if_no_progress (with_reducible apply Only.upd rfl)
    | dsimp only
    | intro _))
theorem cachePurge_keep {s : State} {h : Nat} (hs : sub 8192 n_ = true) (hk_ : Only n_ a_ s) : Only n_ a_ (cachePurge s h) := cachePurge_only.step hs hk_

theorem cacheFlags_only {s : State} {h : Nat} {flags : Nat} : Only 139264 s (cacheFlags s h flags) := by
  unfold cacheFlags
  try dsimp only
  all_goals (repeat' (first
    | with_reducible apply Only.refl
    | with_reducible apply Only.ite
    | fail_if_no_progress (with_reducible apply Only.upd rfl)
    | split
    | dsimp only
    | intro _))
theorem cacheFlags_keep {s : State} {h : Nat} {flags : Nat} (hs : sub 139264 n_ = true) (hk_ : Only n_ a_ s) : Only n_ a_ (cacheFlags s h flags) := cacheFlags_only.step hs hk_

theorem cacheUse_only {s : State} {h : Nat} : Only 8192 s (cacheUse s h) := by
  unfold cacheUse
  try dsimp only
  all_goals (repeat' (first
    | with_reducible apply Only.refl
    | fail_if_no_progress (with_reducible apply Only.upd rfl)
    | dsimp only
    | intro _))
theorem cacheUse_keep {s : State} {h : Nat} (hs : sub 8192 n_ = true) (hk_ : Only n_ a_ s) : Only n_ a_ (cacheUse s h) := cacheUse_only.step hs hk_

theorem keyErase_only {s : State} {slot : Nat} : Only 24577 s (keyErase s slot) := by
  unfold keyErase
  try dsimp only
  all_goals (repeat' (first
    | with_reducible apply Only.refl
    | with_reducible apply cachePurge_keep rfl
    | with_reducible apply jot_keep rfl
    | fail_if_no_progress (with_reducible apply Only.upd rfl)
    | split
    | dsimp only
    | intro _))
theorem keyErase_keep {s : State} {slot : Nat} (hs : sub 24577 n_ = true) (hk_ : Only n_ a_ s) : Only n_ a_ (keyErase s slot) := keyErase_only.step hs hk_

theorem useTake_only {s : State} {h : Nat} : Only 8192 s (useTake s h) := by
  unfold useTake
  try dsimp only
  all_goals (repeat' (first
    | with_reducible apply Only.refl
    | with_reducible apply Only.ite
    | fail_if_no_progress (with_reducible apply Only.upd rfl)
    | split
    | dsimp only
    | intro _))
theorem useTake_keep {s : State} {h : Nat} (hs : sub 8192 n_ = true) (hk_ : Only n_ a_ s) : Only n_ a_ (useTake s h) := useTake_only.step hs hk_

theorem chipFail_only {s : State} {k : Nat} : Only 8390736 s (chipFail s k) := by
  unfold chipFail
  try dsimp only
  all_goals (repeat' (first
    | with_reducible apply Only.refl
    | with_reducible apply tallyPut_keep rfl
    | with_reducible apply Only.ite
    | fail_if_no_progress (with_reducible apply Only.upd rfl)
    | split
    | dsimp only
    | intro _))
theorem chipFail_keep {s : State} {k : Nat} (hs : sub 8390736 n_ = true) (hk_ : Only n_ a_ s) : Only n_ a_ (chipFail s k) := chipFail_only.step hs hk_

theorem jrnWrite_only {s : State} {ok0 : Bool} {ok1 : Bool} {owner : Nat} {key : List Byte} {rs : List (Nat × List Byte × JKind)} {t : State} (hq_ : jrnWrite s ok0 ok1 owner key rs = some t) : Only 8398928 s t := by
  unfold jrnWrite at hq_
  (try dsimp only at hq_)
  (repeat' (split at hq_))
  all_goals (try cases hq_)
  all_goals (repeat' (first
    | with_reducible apply Only.refl
    | with_reducible apply chipFail_keep rfl
    | with_reducible apply Only.foldl
    | with_reducible apply Only.foldl2
    | with_reducible apply Only.ite
    | fail_if_no_progress (with_reducible apply Only.upd rfl)
    | split
    | dsimp only
    | intro _))
theorem jrnWrite_keep {s : State} {ok0 : Bool} {ok1 : Bool} {owner : Nat} {key : List Byte} {rs : List (Nat × List Byte × JKind)} {t_ : State} (hs : sub 8398928 n_ = true) (he : jrnWrite s ok0 ok1 owner key rs = some t_) (hk_ : Only n_ a_ s) : Only n_ a_ t_ := (jrnWrite_only he).step hs hk_

theorem jrnFailed_only {s : State} {ok0 : Bool} {ok1 : Bool} : Only 8390736 s (jrnFailed s ok0 ok1) := by
  unfold jrnFailed
  try dsimp only
  all_goals (repeat' (first
    | with_reducible apply Only.refl
    | with_reducible apply chipFail_keep rfl
    | with_reducible apply Only.ite
    | split
    | dsimp only
    | intro _))
theorem jrnFailed_keep {s : State} {ok0 : Bool} {ok1 : Bool} (hs : sub 8390736 n_ = true) (hk_ : Only n_ a_ s) : Only n_ a_ (jrnFailed s ok0 ok1) := jrnFailed_only.step hs hk_

theorem jrnOne_only {s : State} {ok0 : Bool} {ok1 : Bool} {owner : Nat} {k : JKind} {t : State} (hq_ : jrnOne s ok0 ok1 owner k = some t) : Only 8398928 s t := by
  unfold jrnOne at hq_
  (try dsimp only at hq_)
  (repeat' (split at hq_))
  all_goals (try cases hq_)
  all_goals (repeat' (first
    | with_reducible apply Only.refl
    | with_reducible apply jrnWrite_keep rfl (by assumption)
    | dsimp only
    | intro _))
theorem jrnOne_keep {s : State} {ok0 : Bool} {ok1 : Bool} {owner : Nat} {k : JKind} {t_ : State} (hs : sub 8398928 n_ = true) (he : jrnOne s ok0 ok1 owner k = some t_) (hk_ : Only n_ a_ s) : Only n_ a_ t_ := (jrnOne_only he).step hs hk_

theorem jrnMany_only {s : State} {ok0 : Bool} {ok1 : Bool} {owner : Nat} {key : List Byte} {rs : List (Nat × List Byte × JKind)} {f : Nat} {t : State} (hq_ : jrnMany s ok0 ok1 owner key rs f = some t) : Only 8398928 s t := by
  induction f generalizing s rs with
  | zero => cases hq_; exact .refl
  | succ f ih =>
    unfold jrnMany at hq_
    split at hq_
    · cases hq_; exact .refl
    · split at hq_
      · cases hq_
      · rename_i he
        exact (jrnWrite_only he).trans (ih hq_)
theorem jrnMany_keep {s : State} {ok0 : Bool} {ok1 : Bool} {owner : Nat} {key : List Byte} {rs : List (Nat × List Byte × JKind)} {z6 : Nat} {t_ : State} (hs : sub 8398928 n_ = true) (he : jrnMany s ok0 ok1 owner key rs z6 = some t_) (hk_ : Only n_ a_ s) : Only n_ a_ t_ := (jrnMany_only he).step hs hk_
theorem jrnMany_keepD {s : State} {ok0 : Bool} {ok1 : Bool} {owner : Nat} {key : List Byte} {rs : List (Nat × List Byte × JKind)} {z6 : Nat} {d_ : State} (hs : sub 8398928 n_ = true) (hd_ : Only n_ a_ d_) (hk_ : Only n_ a_ s) : Only n_ a_ ((jrnMany s ok0 ok1 owner key rs z6).getD d_) := by
  cases he : jrnMany s ok0 ok1 owner key rs z6 with
  | none => exact hd_
  | some t => exact jrnMany_keep hs he hk_

theorem jrnGroup_only {s : State} {ok0 : Bool} {ok1 : Bool} {k : JKind} {t : State} (hq_ : jrnGroup s ok0 ok1 k = some t) : Only 8398928 s t := by
  unfold jrnGroup at hq_
  (try dsimp only at hq_)
  (repeat' (split at hq_))
  all_goals (try cases hq_)
  all_goals (repeat' (first
    | with_reducible apply Only.refl
    | with_reducible apply jrnWrite_keep rfl (by assumption)
    | dsimp only
    | intro _))
theorem jrnGroup_keep {s : State} {ok0 : Bool} {ok1 : Bool} {k : JKind} {t_ : State} (hs : sub 8398928 n_ = true) (he : jrnGroup s ok0 ok1 k = some t_) (hk_ : Only n_ a_ s) : Only n_ a_ t_ := (jrnGroup_only he).step hs hk_

theorem jrnCounter_only {s : State} {ok0 : Bool} {ok1 : Bool} {owner : Nat} {k : JKind} {t : State} (hq_ : jrnCounter s ok0 ok1 owner k = some t) : Only 8398928 s t := by
  unfold jrnCounter at hq_
  (try dsimp only at hq_)
  (repeat' (split at hq_))
  all_goals (try cases hq_)
  all_goals (repeat' (first
    | with_reducible apply Only.refl
    | with_reducible apply jrnWrite_keep rfl (by assumption)
    | dsimp only
    | intro _))
theorem jrnCounter_keep {s : State} {ok0 : Bool} {ok1 : Bool} {owner : Nat} {k : JKind} {t_ : State} (hs : sub 8398928 n_ = true) (he : jrnCounter s ok0 ok1 owner k = some t_) (hk_ : Only n_ a_ s) : Only n_ a_ t_ := (jrnCounter_only he).step hs hk_

theorem jrnOsk_only {s : State} {ok0 : Bool} {ok1 : Bool} {owner : Nat} {key : List Byte} {k : List Byte} {t : State} (hq_ : jrnOsk s ok0 ok1 owner key k = some t) : Only 8398928 s t := by
  unfold jrnOsk at hq_
  (try dsimp only at hq_)
  (repeat' (split at hq_))
  all_goals (try cases hq_)
  all_goals (repeat' (first
    | with_reducible apply Only.refl
    | with_reducible apply jrnWrite_keep rfl (by assumption)
    | dsimp only
    | intro _))
theorem jrnOsk_keep {s : State} {ok0 : Bool} {ok1 : Bool} {owner : Nat} {key : List Byte} {k : List Byte} {t_ : State} (hs : sub 8398928 n_ = true) (he : jrnOsk s ok0 ok1 owner key k = some t_) (hk_ : Only n_ a_ s) : Only n_ a_ t_ := (jrnOsk_only he).step hs hk_

theorem chipsFree_only {s : State} : Only 2 s (chipsFree s).2 := by
  unfold chipsFree
  try dsimp only
  all_goals (repeat' (first
    | with_reducible apply Only.refl
    | with_reducible apply freeWord_keep rfl
    | with_reducible apply freeWord_keepE rfl (by assumption)
    | split
    | dsimp only
    | intro _))
theorem chipsFree_keep {s : State} (hs : sub 2 n_ = true) (hk_ : Only n_ a_ s) : Only n_ a_ (chipsFree s).2 := chipsFree_only.step hs hk_
theorem chipsFree_keepE {s : State} {y0_ : Bool × Bool} {t_ : State} (hs : sub 2 n_ = true) (he : chipsFree s = (y0_, t_)) (hk_ : Only n_ a_ s) : Only n_ a_ t_ := by
  have := chipsFree_keep hs hk_ (s := s)
  rw [he] at this; exact this

theorem jrnTry_only {s : State} {w : State → Bool → Bool → Option State} {m : Nat} (hm : sub 8390738 m = true) (hw : ∀ x0 x1 x2 t, w x0 x1 x2 = some t → Only m x0 t) : Only m s (jrnTry s w).1 := by
  have hc : Only m s (chipsFree s).2 := (chipsFree_only).mono (sub_trans rfl hm)
  unfold jrnTry
  dsimp only
  split
  · next h => exact hc.trans (hw _ _ _ _ h)
  · exact hc.trans (jrnFailed_only.mono (sub_trans rfl hm))
theorem jrnTry_keep {s : State} {w : State → Bool → Bool → Option State} (hs : sub 8390738 n_ = true) (hw : ∀ x0 x1 x2 t, w x0 x1 x2 = some t → Only n_ x0 t) (hk_ : Only n_ a_ s) : Only n_ a_ (jrnTry s w).1 := hk_.trans (jrnTry_only hs hw)
theorem jrnTry_keepE {s : State} {w : State → Bool → Bool → Option State} {y0_ : Bool} {t_ : State} (hs : sub 8390738 n_ = true) (he : jrnTry s w = (t_, y0_)) (hw : ∀ x0 x1 x2 t, w x0 x1 x2 = some t → Only n_ x0 t) (hk_ : Only n_ a_ s) : Only n_ a_ t_ := by
  have := jrnTry_keep hs hw hk_
  rw [he] at this; exact this

theorem jrnMove_only {s : State} {ok0 : Bool} {ok1 : Bool} {gone : List JRec} {rest0 : List JRec} {rest1 : List JRec} : Only 8398928 s (jrnMove s ok0 ok1 gone rest0 rest1) := by
  unfold jrnMove
  try dsimp only
  all_goals (repeat' (first
    | with_reducible apply Only.refl
    | with_reducible apply jrnMany_keep rfl (by assumption)
    | with_reducible apply jrnFailed_keep rfl
    | with_reducible apply Only.ite
    | fail_if_no_progress (with_reducible apply Only.upd rfl)
    | split
    | dsimp only
    | intro _))
theorem jrnMove_keep {s : State} {ok0 : Bool} {ok1 : Bool} {gone : List JRec} {rest0 : List JRec} {rest1 : List JRec} (hs : sub 8398928 n_ = true) (hk_ : Only n_ a_ s) : Only n_ a_ (jrnMove s ok0 ok1 gone rest0 rest1) := jrnMove_only.step hs hk_

theorem thmPost_only {s : State} {r : ThmReq} : Only 4194304 s (thmPost s r) := by
  unfold thmPost
  try dsimp only
  all_goals (repeat' (first
    | with_reducible apply Only.refl
    | with_reducible apply Only.ite
    | fail_if_no_progress (with_reducible apply Only.upd rfl)
    | split
    | dsimp only
    | intro _))
theorem thmPost_keep {s : State} {r : ThmReq} (hs : sub 4194304 n_ = true) (hk_ : Only n_ a_ s) : Only n_ a_ (thmPost s r) := thmPost_only.step hs hk_

theorem thmAsk_only {s : State} {tag : Nat} {c : Cmd} {r : ThmReq} : Only 4195328 s (thmAsk s tag c r) := by
  unfold thmAsk
  try dsimp only
  all_goals (repeat' (first
    | with_reducible apply Only.refl
    | with_reducible apply thmPost_keep rfl
    | with_reducible apply cmdPut_keep rfl
    | with_reducible apply Only.ite
    | split
    | dsimp only
    | intro _))
theorem thmAsk_keep {s : State} {tag : Nat} {c : Cmd} {r : ThmReq} (hs : sub 4195328 n_ = true) (hk_ : Only n_ a_ s) : Only n_ a_ (thmAsk s tag c r) := thmAsk_only.step hs hk_

theorem thmAnswer_only {s : State} {r : ThmReq} {status : Nat} {a : optParam Nat 0} {nums : optParam (List Nat) []} {data : optParam (List Byte) []} : Only 4194304 s (thmAnswer s r status a nums data) := by
  unfold thmAnswer
  try dsimp only
  all_goals (repeat' (first
    | with_reducible apply Only.refl
    | fail_if_no_progress (with_reducible apply Only.upd rfl)
    | dsimp only
    | intro _))
theorem thmAnswer_keep {s : State} {r : ThmReq} {status : Nat} {a : optParam Nat 0} {nums : optParam (List Nat) []} {data : optParam (List Byte) []} (hs : sub 4194304 n_ = true) (hk_ : Only n_ a_ s) : Only n_ a_ (thmAnswer s r status a nums data) := thmAnswer_only.step hs hk_

theorem thmServe_only {s : State} {op : Nat} {f : ThmReq → State → State} {m : Nat} (hm : sub 0 m = true) (hf : ∀ x0 x1, Only m x1 (f x0 x1)) : OOnly m s (thmServe s op f) := by
  unfold thmServe
  try dsimp only
  all_goals (repeat' (first
    | with_reducible apply Only.refl
    | with_reducible assumption
    | with_reducible apply hf
    | with_reducible refine Only.trans ?_ (hf _ _)
    | with_reducible apply Only.ite
    | with_reducible apply OOnly.ite
    | with_reducible apply OOnly.next
    | split
    | dsimp only
    | intro _))

theorem pipesMap_only {s : State} {f : PressJob → PressJob} : Only 262144 s (pipesMap s f) := by
  unfold pipesMap
  try dsimp only
  all_goals (repeat' (first
    | with_reducible apply Only.refl
    | fail_if_no_progress (with_reducible apply Only.upd rfl)
    | dsimp only
    | intro _))
theorem pipesMap_keep {s : State} {f : PressJob → PressJob} (hs : sub 262144 n_ = true) (hk_ : Only n_ a_ s) : Only n_ a_ (pipesMap s f) := pipesMap_only.step hs hk_

theorem pipePut_only {s : State} {p : Nat} {j : PressJob} : Only 262144 s (pipePut s p j) := by
  unfold pipePut
  try dsimp only
  all_goals (repeat' (first
    | with_reducible apply Only.refl
    | fail_if_no_progress (with_reducible apply Only.upd rfl)
    | dsimp only
    | intro _))
theorem pipePut_keep {s : State} {p : Nat} {j : PressJob} (hs : sub 262144 n_ = true) (hk_ : Only n_ a_ s) : Only n_ a_ (pipePut s p j) := pipePut_only.step hs hk_

theorem pressEnter_only {s : State} {j : PressJob} : Only 262144 s (pressEnter s j) := by
  unfold pressEnter
  try dsimp only
  all_goals (repeat' (first
    | with_reducible apply Only.refl
    | with_reducible apply pipePut_keep rfl
    | fail_if_no_progress (with_reducible apply Only.upd rfl)
    | split
    | dsimp only
    | intro _))
theorem pressEnter_keep {s : State} {j : PressJob} (hs : sub 262144 n_ = true) (hk_ : Only n_ a_ s) : Only n_ a_ (pressEnter s j) := pressEnter_only.step hs hk_

theorem pressRefill_only {s : State} : Only 262144 s (pressRefill s) := by
  unfold pressRefill
  try dsimp only
  all_goals (repeat' (first
    | with_reducible apply Only.refl
    | with_reducible apply pipePut_keep rfl
    | with_reducible apply Only.foldl
    | with_reducible apply Only.foldl2
    | fail_if_no_progress (with_reducible apply Only.upd rfl)
    | split
    | dsimp only
    | intro _))
theorem pressRefill_keep {s : State} (hs : sub 262144 n_ = true) (hk_ : Only n_ a_ s) : Only n_ a_ (pressRefill s) := pressRefill_only.step hs hk_

theorem pressOut_only {s : State} {order : Nat} : Only 262144 s (pressOut s order) := by
  unfold pressOut
  try dsimp only
  all_goals (repeat' (first
    | with_reducible apply Only.refl
    | with_reducible apply pressRefill_keep rfl
    | fail_if_no_progress (with_reducible apply Only.upd rfl)
    | dsimp only
    | intro _))
theorem pressOut_keep {s : State} {order : Nat} (hs : sub 262144 n_ = true) (hk_ : Only n_ a_ s) : Only n_ a_ (pressOut s order) := pressOut_only.step hs hk_

theorem pressDrop_only {s : State} {p : JobSrc → Bool} : Only 262144 s (pressDrop s p) := by
  unfold pressDrop
  try dsimp only
  all_goals (repeat' (first
    | with_reducible apply Only.refl
    | with_reducible apply pressRefill_keep rfl
    | with_reducible apply Only.ite
    | fail_if_no_progress (with_reducible apply Only.upd rfl)
    | split
    | dsimp only
    | intro _))
theorem pressDrop_keep {s : State} {p : JobSrc → Bool} (hs : sub 262144 n_ = true) (hk_ : Only n_ a_ s) : Only n_ a_ (pressDrop s p) := pressDrop_only.step hs hk_

theorem pressLeave_only {s : State} {src : JobSrc} : Only 262144 s (pressLeave s src) := by
  unfold pressLeave
  try dsimp only
  all_goals (repeat' (first
    | with_reducible apply Only.refl
    | with_reducible apply pressDrop_keep rfl
    | dsimp only
    | intro _))
theorem pressLeave_keep {s : State} {src : JobSrc} (hs : sub 262144 n_ = true) (hk_ : Only n_ a_ s) : Only n_ a_ (pressLeave s src) := pressLeave_only.step hs hk_

theorem unitPut_only {s : State} {u : Nat} {os : List MangleOp} : Only 524288 s (unitPut s u os) := by
  unfold unitPut
  try dsimp only
  all_goals (repeat' (first
    | with_reducible apply Only.refl
    | fail_if_no_progress (with_reducible apply Only.upd rfl)
    | dsimp only
    | intro _))
theorem unitPut_keep {s : State} {u : Nat} {os : List MangleOp} (hs : sub 524288 n_ = true) (hk_ : Only n_ a_ s) : Only n_ a_ (unitPut s u os) := unitPut_only.step hs hk_

theorem bankPut_only {s : State} {u : Nat} {b : List (Nat × List Byte)} : Only 524288 s (bankPut s u b) := by
  unfold bankPut
  try dsimp only
  all_goals (repeat' (first
    | with_reducible apply Only.refl
    | fail_if_no_progress (with_reducible apply Only.upd rfl)
    | dsimp only
    | intro _))
theorem bankPut_keep {s : State} {u : Nat} {b : List (Nat × List Byte)} (hs : sub 524288 n_ = true) (hk_ : Only n_ a_ s) : Only n_ a_ (bankPut s u b) := bankPut_only.step hs hk_

theorem unitStep_only {s : State} {u : Nat} : Only 524288 s (unitStep s u) := by
  unfold unitStep
  try dsimp only
  all_goals (repeat' (first
    | with_reducible apply Only.refl
    | with_reducible apply bankPut_keep rfl
    | with_reducible apply unitPut_keep rfl
    | with_reducible apply Only.ite
    | split
    | dsimp only
    | intro _))
theorem unitStep_keep {s : State} {u : Nat} (hs : sub 524288 n_ = true) (hk_ : Only n_ a_ s) : Only n_ a_ (unitStep s u) := unitStep_only.step hs hk_

theorem unitsStep_only {s : State} : Only 524288 s (unitsStep s) := by
  unfold unitsStep
  try dsimp only
  all_goals (repeat' (first
    | with_reducible apply Only.refl
    | with_reducible apply unitStep_keep rfl
    | with_reducible apply Only.foldl
    | with_reducible apply Only.foldl2
    | dsimp only
    | intro _))
theorem unitsStep_keep {s : State} (hs : sub 524288 n_ = true) (hk_ : Only n_ a_ s) : Only n_ a_ (unitsStep s) := unitsStep_only.step hs hk_

theorem unitEnter_only {s : State} {u : Nat} {o : MangleOp} : Only 524288 s (unitEnter s u o) := by
  unfold unitEnter
  try dsimp only
  all_goals (repeat' (first
    | with_reducible apply Only.refl
    | with_reducible apply unitStep_keep rfl
    | with_reducible apply unitPut_keep rfl
    | dsimp only
    | intro _))
theorem unitEnter_keep {s : State} {u : Nat} {o : MangleOp} (hs : sub 524288 n_ = true) (hk_ : Only n_ a_ s) : Only n_ a_ (unitEnter s u o) := unitEnter_only.step hs hk_

theorem waitAdd_only {s : State} {w : MangleWait} : Only 524288 s (waitAdd s w) := by
  unfold waitAdd
  try dsimp only
  all_goals (repeat' (first
    | with_reducible apply Only.refl
    | fail_if_no_progress (with_reducible apply Only.upd rfl)
    | dsimp only
    | intro _))
theorem waitAdd_keep {s : State} {w : MangleWait} (hs : sub 524288 n_ = true) (hk_ : Only n_ a_ s) : Only n_ a_ (waitAdd s w) := waitAdd_only.step hs hk_

theorem mangleEnter_only {s : State} {o : MangleOp} : Only 524288 s (mangleEnter s o) := by
  unfold mangleEnter
  try dsimp only
  all_goals (repeat' (first
    | with_reducible apply Only.refl
    | with_reducible apply unitEnter_keep rfl
    | with_reducible apply waitAdd_keep rfl
    | with_reducible apply Only.ite
    | fail_if_no_progress (with_reducible apply Only.upd rfl)
    | split
    | dsimp only
    | intro _))
theorem mangleEnter_keep {s : State} {o : MangleOp} (hs : sub 524288 n_ = true) (hk_ : Only n_ a_ s) : Only n_ a_ (mangleEnter s o) := mangleEnter_only.step hs hk_

theorem pairEnter_only {s : State} {u : Nat} {v : Nat} {a : MangleOp} {b : MangleOp} : Only 524288 s (pairEnter s u v a b) := by
  unfold pairEnter
  try dsimp only
  all_goals (repeat' (first
    | with_reducible apply Only.refl
    | with_reducible apply unitEnter_keep rfl
    | dsimp only
    | intro _))
theorem pairEnter_keep {s : State} {u : Nat} {v : Nat} {a : MangleOp} {b : MangleOp} (hs : sub 524288 n_ = true) (hk_ : Only n_ a_ s) : Only n_ a_ (pairEnter s u v a b) := pairEnter_only.step hs hk_

theorem mangleEnter2_only {s : State} {a : MangleOp} {b : MangleOp} : Only 524288 s (mangleEnter2 s a b) := by
  unfold mangleEnter2
  try dsimp only
  all_goals (repeat' (first
    | with_reducible apply Only.refl
    | with_reducible apply pairEnter_keep rfl
    | with_reducible apply waitAdd_keep rfl
    | with_reducible apply Only.ite
    | fail_if_no_progress (with_reducible apply Only.upd rfl)
    | split
    | dsimp only
    | intro _))
theorem mangleEnter2_keep {s : State} {a : MangleOp} {b : MangleOp} (hs : sub 524288 n_ = true) (hk_ : Only n_ a_ s) : Only n_ a_ (mangleEnter2 s a b) := mangleEnter2_only.step hs hk_

theorem mangleMap_only {s : State} {f : MangleOp → MangleOp} : Only 524288 s (mangleMap s f) := by
  unfold mangleMap
  try dsimp only
  all_goals (repeat' (first
    | with_reducible apply Only.refl
    | fail_if_no_progress (with_reducible apply Only.upd rfl)
    | dsimp only
    | intro _))
theorem mangleMap_keep {s : State} {f : MangleOp → MangleOp} (hs : sub 524288 n_ = true) (hk_ : Only n_ a_ s) : Only n_ a_ (mangleMap s f) := mangleMap_only.step hs hk_

theorem hashEnter_only {s : State} {o : MangleOp} : Only 262144 s (hashEnter s o) := by
  unfold hashEnter
  try dsimp only
  all_goals (repeat' (first
    | with_reducible apply Only.refl
    | with_reducible apply pressEnter_keep rfl
    | with_reducible apply Only.ite
    | split
    | dsimp only
    | intro _))
theorem hashEnter_keep {s : State} {o : MangleOp} (hs : sub 262144 n_ = true) (hk_ : Only n_ a_ s) : Only n_ a_ (hashEnter s o) := hashEnter_only.step hs hk_

theorem mangleSet_only {s : State} {tag : Nat} : Only 786432 s (mangleSet s tag) := by
  unfold mangleSet
  try dsimp only
  all_goals (repeat' (first
    | with_reducible apply Only.refl
    | with_reducible apply mangleMap_keep rfl
    | with_reducible apply unitsStep_keep rfl
    | with_reducible apply hashEnter_keep rfl
    | with_reducible apply Only.foldl
    | with_reducible apply Only.foldl2
    | with_reducible apply Only.ite
    | split
    | dsimp only
    | intro _))
theorem mangleSet_keep {s : State} {tag : Nat} (hs : sub 786432 n_ = true) (hk_ : Only n_ a_ s) : Only n_ a_ (mangleSet s tag) := mangleSet_only.step hs hk_

theorem hashDone_only {s : State} {order : Nat} : Only 786432 s (hashDone s order) := by
  unfold hashDone
  try dsimp only
  all_goals (repeat' (first
    | with_reducible apply Only.refl
    | with_reducible apply mangleMap_keep rfl
    | with_reducible apply unitsStep_keep rfl
    | with_reducible apply hashEnter_keep rfl
    | with_reducible apply Only.ite
    | split
    | dsimp only
    | intro _))
theorem hashDone_keep {s : State} {order : Nat} (hs : sub 786432 n_ = true) (hk_ : Only n_ a_ s) : Only n_ a_ (hashDone s order) := hashDone_only.step hs hk_

theorem mangleDrop_only {s : State} {p : JobSrc → Bool} : Only 524288 s (mangleDrop s p) := by
  unfold mangleDrop
  try dsimp only
  all_goals (repeat' (first
    | with_reducible apply Only.refl
    | with_reducible apply Only.ite
    | fail_if_no_progress (with_reducible apply Only.upd rfl)
    | split
    | dsimp only
    | intro _))
theorem mangleDrop_keep {s : State} {p : JobSrc → Bool} (hs : sub 524288 n_ = true) (hk_ : Only n_ a_ s) : Only n_ a_ (mangleDrop s p) := mangleDrop_only.step hs hk_

theorem mangleLeave_only {s : State} {tag : Nat} : Only 524288 s (mangleLeave s tag) := by
  unfold mangleLeave
  try dsimp only
  all_goals (repeat' (first
    | with_reducible apply Only.refl
    | with_reducible apply mangleDrop_keep rfl
    | dsimp only
    | intro _))
theorem mangleLeave_keep {s : State} {tag : Nat} (hs : sub 524288 n_ = true) (hk_ : Only n_ a_ s) : Only n_ a_ (mangleLeave s tag) := mangleLeave_only.step hs hk_

theorem waitOut_only {s : State} {w : MangleWait} : Only 524288 s (waitOut s w) := by
  unfold waitOut
  try dsimp only
  all_goals (repeat' (first
    | with_reducible apply Only.refl
    | fail_if_no_progress (with_reducible apply Only.upd rfl)
    | dsimp only
    | intro _))
theorem waitOut_keep {s : State} {w : MangleWait} (hs : sub 524288 n_ = true) (hk_ : Only n_ a_ s) : Only n_ a_ (waitOut s w) := waitOut_only.step hs hk_

theorem mangleTake_only {s : State} {w : MangleWait} : Only 524288 s (mangleTake s w) := by
  unfold mangleTake
  try dsimp only
  all_goals (repeat' (first
    | with_reducible apply Only.refl
    | with_reducible apply unitEnter_keep rfl
    | with_reducible apply waitOut_keep rfl
    | with_reducible apply pairEnter_keep rfl
    | split
    | dsimp only
    | intro _))
theorem mangleTake_keep {s : State} {w : MangleWait} (hs : sub 524288 n_ = true) (hk_ : Only n_ a_ s) : Only n_ a_ (mangleTake s w) := mangleTake_only.step hs hk_

theorem mangleCharge_only {s : State} {w : MangleWait} {ds : List (Nat × Nat)} : Only 524800 s (mangleCharge s w ds) := by
  unfold mangleCharge
  try dsimp only
  all_goals (repeat' (first
    | with_reducible apply Only.refl
    | with_reducible apply slicePut_keep rfl
    | with_reducible apply Only.foldl
    | with_reducible apply Only.foldl2
    | with_reducible apply Only.ite
    | fail_if_no_progress (with_reducible apply Only.upd rfl)
    | split
    | dsimp only
    | intro _))
theorem mangleCharge_keep {s : State} {w : MangleWait} {ds : List (Nat × Nat)} (hs : sub 524800 n_ = true) (hk_ : Only n_ a_ s) : Only n_ a_ (mangleCharge s w ds) := mangleCharge_only.step hs hk_

theorem storeObj_only {s : State} {r : ThmReq} {ok0 : Bool} {ok1 : Bool} {o : KeyObj} : Only 12609617 s (storeObj s r ok0 ok1 o) := by
  unfold storeObj
  try dsimp only
  all_goals (repeat' (first
    | with_reducible apply Only.refl
    | with_reducible apply thmAnswer_keep rfl
    | with_reducible apply jrnOne_keep rfl (by assumption)
    | with_reducible apply jrnFailed_keep rfl
    | with_reducible apply keyPut_keep rfl
    | with_reducible apply Only.ite
    | split
    | dsimp only
    | intro _))
theorem storeObj_keep {s : State} {r : ThmReq} {ok0 : Bool} {ok1 : Bool} {o : KeyObj} (hs : sub 12609617 n_ = true) (hk_ : Only n_ a_ s) : Only n_ a_ (storeObj s r ok0 ok1 o) := storeObj_only.step hs hk_

theorem changeObj_only {s : State} {r : ThmReq} {ok0 : Bool} {ok1 : Bool} {slot : Nat} {o : KeyObj} : Only 12740689 s (changeObj s r ok0 ok1 slot o) := by
  unfold changeObj
  try dsimp only
  all_goals (repeat' (first
    | with_reducible apply Only.refl
    | with_reducible apply jrnOne_keep rfl (by assumption)
    | with_reducible apply thmAnswer_keep rfl
    | with_reducible apply jrnFailed_keep rfl
    | with_reducible apply cacheFlags_keep rfl
    | with_reducible apply keyPut_keep rfl
    | with_reducible apply Only.ite
    | split
    | dsimp only
    | intro _))
theorem changeObj_keep {s : State} {r : ThmReq} {ok0 : Bool} {ok1 : Bool} {slot : Nat} {o : KeyObj} (hs : sub 12740689 n_ = true) (hk_ : Only n_ a_ s) : Only n_ a_ (changeObj s r ok0 ok1 slot o) := changeObj_only.step hs hk_

theorem pairPrivate_only {s : State} {t : Nat} {size : Nat} : Only 1048600 s (pairPrivate s t size).2 := by
  unfold pairPrivate
  try dsimp only
  all_goals (repeat' (first
    | with_reducible apply Only.refl
    | with_reducible apply draw_keep rfl
    | with_reducible apply draw_keepE rfl (by assumption)
    | with_reducible apply Only.ite
    | with_reducible apply Only.ite2
    | split
    | dsimp only
    | intro _))
theorem pairPrivate_keep {s : State} {t : Nat} {size : Nat} (hs : sub 1048600 n_ = true) (hk_ : Only n_ a_ s) : Only n_ a_ (pairPrivate s t size).2 := pairPrivate_only.step hs hk_
theorem pairPrivate_keepE {s : State} {t : Nat} {size : Nat} {y0_ : Option (List Byte)} {t_ : State} (hs : sub 1048600 n_ = true) (he : pairPrivate s t size = (y0_, t_)) (hk_ : Only n_ a_ s) : Only n_ a_ t_ := by
  have := pairPrivate_keep hs hk_ (s := s) (t := t) (size := size)
  rw [he] at this; exact this

theorem pairMaterial_only {s : State} {t : Nat} {size : Nat} : Only 1048600 s (pairMaterial s t size).2 := by
  unfold pairMaterial
  try dsimp only
  all_goals (repeat' (first
    | with_reducible apply Only.refl
    | with_reducible apply pairPrivate_keep rfl
    | with_reducible apply pairPrivate_keepE rfl (by assumption)
    | with_reducible apply Only.ite
    | with_reducible apply Only.ite2
    | split
    | dsimp only
    | intro _))
theorem pairMaterial_keep {s : State} {t : Nat} {size : Nat} (hs : sub 1048600 n_ = true) (hk_ : Only n_ a_ s) : Only n_ a_ (pairMaterial s t size).2 := pairMaterial_only.step hs hk_
theorem pairMaterial_keepE {s : State} {t : Nat} {size : Nat} {y0_ : Option (List Byte)} {t_ : State} (hs : sub 1048600 n_ = true) (he : pairMaterial s t size = (y0_, t_)) (hk_ : Only n_ a_ s) : Only n_ a_ t_ := by
  have := pairMaterial_keep hs hk_ (s := s) (t := t) (size := size)
  rw [he] at this; exact this

theorem execThmPlace_only {s : State} : OOnly 4195328 s (execThmPlace s) := by
  unfold execThmPlace
  try dsimp only
  all_goals (repeat' (first
    | with_reducible apply Only.refl
    | with_reducible apply thmServe_only rfl
    | with_reducible apply thmAnswer_keep rfl
    | with_reducible apply cmdPut_keep rfl
    | with_reducible apply Only.ite
    | with_reducible apply OOnly.ite
    | with_reducible apply OOnly.next
    | split
    | dsimp only
    | intro _))

theorem execThmCreate_only {ok0 : Bool} {ok1 : Bool} {s : State} : OOnly 13658201 s (execThmCreate ok0 ok1 s) := by
  unfold execThmCreate
  try dsimp only
  all_goals (repeat' (first
    | with_reducible apply Only.refl
    | with_reducible apply thmServe_only rfl
    | with_reducible apply storeObj_keep rfl
    | with_reducible apply draw_keep rfl
    | with_reducible apply draw_keepE rfl (by assumption)
    | with_reducible apply Only.ite
    | with_reducible apply Only.ite2
    | with_reducible apply OOnly.ite
    | with_reducible apply OOnly.next
    | split
    | dsimp only
    | intro _))

theorem execThmImport_only {ok0 : Bool} {ok1 : Bool} {s : State} : OOnly 12609617 s (execThmImport ok0 ok1 s) := by
  unfold execThmImport
  try dsimp only
  all_goals (repeat' (first
    | with_reducible apply Only.refl
    | with_reducible apply thmServe_only rfl
    | with_reducible apply storeObj_keep rfl
    | with_reducible apply thmAnswer_keep rfl
    | with_reducible apply Only.ite
    | with_reducible apply OOnly.ite
    | with_reducible apply OOnly.next
    | split
    | dsimp only
    | intro _))

theorem execThmDerive_only {ok0 : Bool} {ok1 : Bool} {s : State} : OOnly 12609617 s (execThmDerive ok0 ok1 s) := by
  unfold execThmDerive
  try dsimp only
  all_goals (repeat' (first
    | with_reducible apply Only.refl
    | with_reducible apply thmServe_only rfl
    | with_reducible apply thmAnswer_keep rfl
    | with_reducible apply storeObj_keep rfl
    | with_reducible apply Only.ite
    | with_reducible apply OOnly.ite
    | with_reducible apply OOnly.next
    | split
    | dsimp only
    | intro _))

theorem execThmDestroy_only {ok0 : Bool} {ok1 : Bool} {s : State} : OOnly 12609617 s (execThmDestroy ok0 ok1 s) := by
  unfold execThmDestroy
  try dsimp only
  all_goals (repeat' (first
    | with_reducible apply Only.refl
    | with_reducible apply thmServe_only rfl
    | with_reducible apply thmAnswer_keep rfl
    | with_reducible apply jrnOne_keep rfl (by assumption)
    | with_reducible apply jrnFailed_keep rfl
    | with_reducible apply keyErase_keep rfl
    | with_reducible apply Only.ite
    | with_reducible apply OOnly.ite
    | with_reducible apply OOnly.next
    | split
    | dsimp only
    | intro _))

theorem execThmRestrict_only {ok0 : Bool} {ok1 : Bool} {s : State} : OOnly 12740689 s (execThmRestrict ok0 ok1 s) := by
  unfold execThmRestrict
  try dsimp only
  all_goals (repeat' (first
    | with_reducible apply Only.refl
    | with_reducible apply thmServe_only rfl
    | with_reducible apply thmAnswer_keep rfl
    | with_reducible apply changeObj_keep rfl
    | with_reducible apply Only.foldl
    | with_reducible apply Only.foldl2
    | with_reducible apply Only.ite
    | with_reducible apply OOnly.ite
    | with_reducible apply OOnly.next
    | split
    | dsimp only
    | intro _))

theorem leaseTake_only {s : State} {ok0 : Bool} {ok1 : Bool} {h : Nat} {o : KeyObj} {t : State} (hq_ : leaseTake s ok0 ok1 h o = some t) : Only 8415313 s t := by
  unfold leaseTake at hq_
  (try dsimp only at hq_)
  (repeat' (split at hq_))
  all_goals (try cases hq_)
  all_goals (try (rw [Option.map_eq_some_iff] at hq_; obtain ⟨_, _, rfl⟩ := hq_))
  all_goals (repeat' (first
    | with_reducible apply Only.refl
    | with_reducible apply jot_keep rfl
    | with_reducible apply jrnOne_keep rfl (by assumption)
    | with_reducible apply Only.ite
    | fail_if_no_progress (with_reducible apply Only.upd rfl)
    | split
    | dsimp only
    | intro _))
theorem leaseTake_keep {s : State} {ok0 : Bool} {ok1 : Bool} {h : Nat} {o : KeyObj} {t_ : State} (hs : sub 8415313 n_ = true) (he : leaseTake s ok0 ok1 h o = some t_) (hk_ : Only n_ a_ s) : Only n_ a_ t_ := (leaseTake_only he).step hs hk_

theorem portLease_only {s : State} {h : Nat} {t : State} {y0 : Bool} (hq_ : portLease s h = some (t, y0)) : Only 8415315 s t := by
  unfold portLease at hq_
  (repeat' (split at hq_))
  all_goals (try cases hq_)
  all_goals (try exact .refl)
  all_goals (rw [Option.some.injEq] at hq_; exact jrnTry_keepE rfl hq_ (fun _ _ _ _ e => leaseTake_keep rfl e .refl) .refl)
theorem portLease_keep {s : State} {h : Nat} {t_ : State} {y0_ : Bool} (hs : sub 8415315 n_ = true) (he : portLease s h = some (t_, y0_)) (hk_ : Only n_ a_ s) : Only n_ a_ t_ := (portLease_only he).step hs hk_

theorem execThmLease_only {ok0 : Bool} {ok1 : Bool} {s : State} : OOnly 12740689 s (execThmLease ok0 ok1 s) := by
  unfold execThmLease
  try dsimp only
  all_goals (repeat' (first
    | with_reducible apply Only.refl
    | with_reducible apply thmServe_only rfl
    | with_reducible apply thmAnswer_keep rfl
    | with_reducible apply changeObj_keep rfl
    | with_reducible apply leaseTake_keep rfl (by assumption)
    | with_reducible apply jrnFailed_keep rfl
    | with_reducible apply Only.ite
    | with_reducible apply OOnly.ite
    | with_reducible apply OOnly.next
    | split
    | dsimp only
    | intro _))

theorem oskPut_only {s : State} {owner : Nat} {k : List Byte} : Only 24577 s (oskPut s owner k) := by
  unfold oskPut
  try dsimp only
  all_goals (repeat' (first
    | with_reducible apply Only.refl
    | with_reducible apply jot_keep rfl
    | fail_if_no_progress (with_reducible apply Only.upd rfl)
    | dsimp only
    | intro _))
theorem oskPut_keep {s : State} {owner : Nat} {k : List Byte} (hs : sub 24577 n_ = true) (hk_ : Only n_ a_ s) : Only n_ a_ (oskPut s owner k) := oskPut_only.step hs hk_

theorem execThmOwner_only {ok0 : Bool} {ok1 : Bool} {s : State} : OOnly 13658201 s (execThmOwner ok0 ok1 s) := by
  unfold execThmOwner
  try dsimp only
  all_goals (repeat' (first
    | with_reducible apply Only.refl
    | with_reducible apply thmServe_only rfl
    | with_reducible apply draw_keep rfl
    | with_reducible apply draw_keepE rfl (by assumption)
    | with_reducible apply jrnOsk_keep rfl (by assumption)
    | with_reducible apply thmAnswer_keep rfl
    | with_reducible apply jrnFailed_keep rfl
    | with_reducible apply oskPut_keep rfl
    | with_reducible apply jrnMany_keep rfl (by assumption)
    | with_reducible apply keyErase_keep rfl
    | with_reducible apply jot_keep rfl
    | with_reducible apply Only.foldl
    | with_reducible apply Only.foldl2
    | with_reducible apply Only.ite
    | with_reducible apply Only.ite2
    | with_reducible apply OOnly.ite
    | with_reducible apply OOnly.next
    | fail_if_no_progress (with_reducible apply Only.upd rfl)
    | split
    | dsimp only
    | intro _))

theorem execThmHandover_only {ok0 : Bool} {ok1 : Bool} {s : State} : OOnly 12593232 s (execThmHandover ok0 ok1 s) := by
  unfold execThmHandover
  try dsimp only
  all_goals (repeat' (first
    | with_reducible apply Only.refl
    | with_reducible apply thmServe_only rfl
    | with_reducible apply jrnMany_keep rfl (by assumption)
    | with_reducible apply jrnMany_keepD rfl
    | with_reducible apply thmAnswer_keep rfl
    | with_reducible apply jrnFailed_keep rfl
    | with_reducible apply Only.ite
    | with_reducible apply OOnly.ite
    | with_reducible apply OOnly.next
    | split
    | dsimp only
    | intro _))

theorem execThmPing_only {s : State} : OOnly 4194304 s (execThmPing s) := by
  unfold execThmPing
  try dsimp only
  all_goals (repeat' (first
    | with_reducible apply Only.refl
    | with_reducible apply Only.ite
    | with_reducible apply OOnly.ite
    | with_reducible apply OOnly.next
    | fail_if_no_progress (with_reducible apply Only.upd rfl)
    | split
    | dsimp only
    | intro _))

theorem execThmPurge_only {h : Nat} {s : State} : OOnly 4202496 s (execThmPurge h s) := by
  unfold execThmPurge
  try dsimp only
  all_goals (repeat' (first
    | with_reducible apply Only.refl
    | with_reducible apply cachePurge_keep rfl
    | with_reducible apply Only.ite
    | with_reducible apply OOnly.ite
    | with_reducible apply OOnly.next
    | fail_if_no_progress (with_reducible apply Only.upd rfl)
    | split
    | dsimp only
    | intro _))

theorem execThmSeal_only {slots : List Nat} {owners : List Nat} {s : State} : OOnly 4194304 s (execThmSeal slots owners s) := by
  unfold execThmSeal
  try dsimp only
  all_goals (repeat' (first
    | with_reducible apply Only.refl
    | with_reducible apply Only.ite
    | with_reducible apply OOnly.ite
    | with_reducible apply OOnly.next
    | fail_if_no_progress (with_reducible apply Only.upd rfl)
    | split
    | dsimp only
    | intro _))

theorem execThmOpen_only {b : Bundle} {s : State} : OOnly 8192 s (execThmOpen b s) := by
  unfold execThmOpen
  try dsimp only
  all_goals (repeat' (first
    | with_reducible apply Only.refl
    | with_reducible apply Only.foldl
    | with_reducible apply Only.foldl2
    | with_reducible apply Only.ite
    | with_reducible apply OOnly.ite
    | with_reducible apply OOnly.next
    | fail_if_no_progress (with_reducible apply Only.upd rfl)
    | split
    | dsimp only
    | intro _))

theorem askFill_only {s : State} {tag : Nat} {c : Cmd} {op : Nat} {a : Nat} {b : Nat} {origin : Nat} {more : List Nat} {data : List Byte} {secret : optParam (List Byte) []} : Only 4195328 s (askFill s tag c op a b origin more data secret) := by
  unfold askFill
  try dsimp only
  all_goals (repeat' (first
    | with_reducible apply Only.refl
    | with_reducible apply thmAsk_keep rfl
    | dsimp only
    | intro _))
theorem askFill_keep {s : State} {tag : Nat} {c : Cmd} {op : Nat} {a : Nat} {b : Nat} {origin : Nat} {more : List Nat} {data : List Byte} {secret : optParam (List Byte) []} (hs : sub 4195328 n_ = true) (hk_ : Only n_ a_ s) : Only n_ a_ (askFill s tag c op a b origin more data secret) := askFill_only.step hs hk_

theorem execKeyCreate_only {tag : Nat} {s : State} : OOnly 5008465 s (execKeyCreate tag s) := by
  unfold execKeyCreate
  try dsimp only
  all_goals (repeat' (first
    | with_reducible apply Only.refl
    | with_reducible apply runCmd_only rfl
    | with_reducible apply mangleSet_keep rfl
    | with_reducible apply askFill_keep rfl
    | with_reducible apply Only.ite
    | with_reducible apply OOnly.ite
    | with_reducible apply OOnly.next
    | split
    | dsimp only
    | intro _))

theorem execKeyImport_only {tag : Nat} {io : HostIO} {s : State} : OOnly 5008465 s (execKeyImport tag io s) := by
  unfold execKeyImport
  try dsimp only
  all_goals (repeat' (first
    | with_reducible apply Only.refl
    | with_reducible apply runIn_only rfl
    | with_reducible apply mangleSet_keep rfl
    | with_reducible apply askFill_keep rfl
    | with_reducible apply Only.ite
    | with_reducible apply OOnly.ite
    | with_reducible apply OOnly.next
    | split
    | dsimp only
    | intro _))

theorem execKeyImportPublic_only {tag : Nat} {io : HostIO} {s : State} : OOnly 5008465 s (execKeyImportPublic tag io s) := by
  unfold execKeyImportPublic
  try dsimp only
  all_goals (repeat' (first
    | with_reducible apply Only.refl
    | with_reducible apply runIn_only rfl
    | with_reducible apply mangleSet_keep rfl
    | with_reducible apply askFill_keep rfl
    | with_reducible apply endAfter_keep rfl
    | with_reducible apply Only.ite
    | with_reducible apply OOnly.ite
    | with_reducible apply OOnly.next
    | split
    | dsimp only
    | intro _))

theorem execKeyDerive_only {tag : Nat} {io : HostIO} {s : State} : OOnly 5008465 s (execKeyDerive tag io s) := by
  unfold execKeyDerive
  try dsimp only
  all_goals (repeat' (first
    | with_reducible apply Only.refl
    | with_reducible apply runIn_only rfl
    | with_reducible apply mangleSet_keep rfl
    | with_reducible apply askFill_keep rfl
    | with_reducible apply Only.ite
    | with_reducible apply OOnly.ite
    | with_reducible apply OOnly.next
    | split
    | dsimp only
    | intro _))

theorem ctxsOfKeyEnd_only {s : State} {h : Nat} : Only 262144 s (ctxsOfKeyEnd s h) := by
  unfold ctxsOfKeyEnd
  try dsimp only
  all_goals (repeat' (first
    | with_reducible apply Only.refl
    | fail_if_no_progress (with_reducible apply Only.upd rfl)
    | dsimp only
    | intro _))
theorem ctxsOfKeyEnd_keep {s : State} {h : Nat} (hs : sub 262144 n_ = true) (hk_ : Only n_ a_ s) : Only n_ a_ (ctxsOfKeyEnd s h) := ctxsOfKeyEnd_only.step hs hk_

theorem execKeyDestroy_only {tag : Nat} {s : State} : OOnly 5008465 s (execKeyDestroy tag s) := by
  unfold execKeyDestroy
  try dsimp only
  all_goals (repeat' (first
    | with_reducible apply Only.refl
    | with_reducible apply runCmd_only rfl
    | with_reducible apply thmAsk_keep rfl
    | with_reducible apply ctxsOfKeyEnd_keep rfl
    | with_reducible apply Only.ite
    | with_reducible apply OOnly.ite
    | with_reducible apply OOnly.next
    | split
    | dsimp only
    | intro _))

theorem execKeyDestroyProceed_only {tag : Nat} {s : State} : OOnly 5008465 s (execKeyDestroyProceed tag s) := by
  unfold execKeyDestroyProceed
  try dsimp only
  all_goals (repeat' (first
    | with_reducible apply Only.refl
    | with_reducible apply OOnly.mono rfl execKeyDestroy_only
    | with_reducible apply OOnly.ite
    | with_reducible apply OOnly.next
    | dsimp only
    | intro _))

theorem execKeyInfo_only {tag : Nat} {io : HostIO} {s : State} : OOnly 552529 s (execKeyInfo tag io s) := by
  unfold execKeyInfo
  try dsimp only
  all_goals (repeat' (first
    | with_reducible apply Only.refl
    | with_reducible apply runCmd_only rfl
    | with_reducible apply endFault_keep rfl
    | with_reducible apply endOut_keep rfl
    | with_reducible apply OOnly.ite
    | with_reducible apply OOnly.next
    | split
    | dsimp only
    | intro _))

theorem execKeyRestrict_only {tag : Nat} {s : State} : OOnly 4746321 s (execKeyRestrict tag s) := by
  unfold execKeyRestrict
  try dsimp only
  all_goals (repeat' (first
    | with_reducible apply Only.refl
    | with_reducible apply runCmd_only rfl
    | with_reducible apply thmAsk_keep rfl
    | with_reducible apply OOnly.ite
    | with_reducible apply OOnly.next
    | dsimp only
    | intro _))

theorem execKeyList_only {tag : Nat} {io : HostIO} {s : State} : OOnly 552529 s (execKeyList tag io s) := by
  unfold execKeyList
  try dsimp only
  all_goals (repeat' (first
    | with_reducible apply Only.refl
    | with_reducible apply runCmd_only rfl
    | with_reducible apply endOut_keep rfl
    | with_reducible apply OOnly.ite
    | with_reducible apply OOnly.next
    | dsimp only
    | intro _))

theorem execKeySetLease_only {tag : Nat} {s : State} : OOnly 4746321 s (execKeySetLease tag s) := by
  unfold execKeySetLease
  try dsimp only
  all_goals (repeat' (first
    | with_reducible apply Only.refl
    | with_reducible apply runCmd_only rfl
    | with_reducible apply thmAsk_keep rfl
    | with_reducible apply OOnly.ite
    | with_reducible apply OOnly.next
    | dsimp only
    | intro _))

theorem execJournalCompaction_only {ok0 : Bool} {ok1 : Bool} {s : State} : OOnly 8398928 s (execJournalCompaction ok0 ok1 s) := by
  unfold execJournalCompaction
  try dsimp only
  all_goals (repeat' (first
    | with_reducible apply Only.refl
    | with_reducible apply jrnMove_keep rfl
    | with_reducible apply Only.ite
    | with_reducible apply OOnly.ite
    | with_reducible apply OOnly.next
    | split
    | dsimp only
    | intro _))

theorem ownerPut_only {s : State} {n : Nat} {x : Option OwnerRec} : Only 24577 s (ownerPut s n x) := by
  unfold ownerPut
  try dsimp only
  all_goals (repeat' (first
    | with_reducible apply Only.refl
    | with_reducible apply jot_keep rfl
    | fail_if_no_progress (with_reducible apply Only.upd rfl)
    | split
    | dsimp only
    | intro _))
theorem ownerPut_keep {s : State} {n : Nat} {x : Option OwnerRec} (hs : sub 24577 n_ = true) (hk_ : Only n_ a_ s) : Only n_ a_ (ownerPut s n x) := ownerPut_only.step hs hk_

theorem owner0Note_only {s : State} {n : Nat} : Only 8388608 s (owner0Note s n) := by
  unfold owner0Note
  try dsimp only
  all_goals (repeat' (first
    | with_reducible apply Only.refl
    | with_reducible apply Only.ite
    | fail_if_no_progress (with_reducible apply Only.upd rfl)
    | split
    | dsimp only
    | intro _))
theorem owner0Note_keep {s : State} {n : Nat} (hs : sub 8388608 n_ = true) (hk_ : Only n_ a_ s) : Only n_ a_ (owner0Note s n) := owner0Note_only.step hs hk_

theorem pendExpire_only {s : State} {n : Nat} {e : PendEntry} : Only 26705 s (pendExpire s n e) := by
  unfold pendExpire
  try dsimp only
  all_goals (repeat' (first
    | with_reducible apply Only.refl
    | with_reducible apply tallyPut_keep rfl
    | with_reducible apply pendPut_keep rfl
    | dsimp only
    | intro _))
theorem pendExpire_keep {s : State} {n : Nat} {e : PendEntry} (hs : sub 26705 n_ = true) (hk_ : Only n_ a_ s) : Only n_ a_ (pendExpire s n e) := pendExpire_only.step hs hk_

theorem pendPurge_only {s : State} {owner : Nat} : Only 26705 s (pendPurge s owner) := by
  unfold pendPurge
  try dsimp only
  all_goals (repeat' (first
    | with_reducible apply Only.refl
    | with_reducible apply pendExpire_keep rfl
    | with_reducible apply Only.foldl
    | with_reducible apply Only.foldl2
    | with_reducible apply Only.ite
    | split
    | dsimp only
    | intro _))
theorem pendPurge_keep {s : State} {owner : Nat} (hs : sub 26705 n_ = true) (hk_ : Only n_ a_ s) : Only n_ a_ (pendPurge s owner) := pendPurge_only.step hs hk_

theorem execOwnerCreate_only {tag : Nat} {io : HostIO} {s : State} : OOnly 5008465 s (execOwnerCreate tag io s) := by
  unfold execOwnerCreate
  try dsimp only
  all_goals (repeat' (first
    | with_reducible apply Only.refl
    | with_reducible apply runIn_only rfl
    | with_reducible apply mangleSet_keep rfl
    | with_reducible apply endAfter_keep rfl
    | with_reducible apply thmAsk_keep rfl
    | with_reducible apply Only.ite
    | with_reducible apply OOnly.ite
    | with_reducible apply OOnly.next
    | split
    | dsimp only
    | intro _))

theorem execOwnerRetire_only {tag : Nat} {s : State} : OOnly 4746321 s (execOwnerRetire tag s) := by
  unfold execOwnerRetire
  try dsimp only
  all_goals (repeat' (first
    | with_reducible apply Only.refl
    | with_reducible apply runCmd_only rfl
    | with_reducible apply thmAsk_keep rfl
    | with_reducible apply OOnly.ite
    | with_reducible apply OOnly.next
    | dsimp only
    | intro _))

theorem ownerDone_only {s : State} {tag : Nat} {c : Cmd} {r : ThmRsp} : Only 8940625 s (ownerDone s tag c r) := by
  unfold ownerDone
  try dsimp only
  all_goals (repeat' (first
    | with_reducible apply Only.refl
    | with_reducible apply endAfter_keep rfl
    | with_reducible apply endOk_keep rfl
    | with_reducible apply owner0Note_keep rfl
    | with_reducible apply ownerPut_keep rfl
    | with_reducible apply pendPut_keep rfl
    | with_reducible apply Only.foldl
    | with_reducible apply Only.foldl2
    | with_reducible apply Only.ite
    | split
    | dsimp only
    | intro _))
theorem ownerDone_keep {s : State} {tag : Nat} {c : Cmd} {r : ThmRsp} (hs : sub 8940625 n_ = true) (hk_ : Only n_ a_ s) : Only n_ a_ (ownerDone s tag c r) := ownerDone_only.step hs hk_

theorem execOwnerInfo_only {tag : Nat} {io : HostIO} {s : State} : OOnly 552529 s (execOwnerInfo tag io s) := by
  unfold execOwnerInfo
  try dsimp only
  all_goals (repeat' (first
    | with_reducible apply Only.refl
    | with_reducible apply runCmd_only rfl
    | with_reducible apply endOut_keep rfl
    | with_reducible apply OOnly.ite
    | with_reducible apply OOnly.next
    | dsimp only
    | intro _))

theorem execOfficerAdd_only {tag : Nat} {io : HostIO} {s : State} : OOnly 9202769 s (execOfficerAdd tag io s) := by
  unfold execOfficerAdd
  try dsimp only
  all_goals (repeat' (first
    | with_reducible apply Only.refl
    | with_reducible apply runIn_only rfl
    | with_reducible apply mangleSet_keep rfl
    | with_reducible apply endFault_keep rfl
    | with_reducible apply endAfter_keep rfl
    | with_reducible apply endOk_keep rfl
    | with_reducible apply owner0Note_keep rfl
    | with_reducible apply ownerPut_keep rfl
    | with_reducible apply Only.ite
    | with_reducible apply OOnly.ite
    | with_reducible apply OOnly.next
    | split
    | dsimp only
    | intro _))

theorem execOfficerRemove_only {tag : Nat} {s : State} : OOnly 8940625 s (execOfficerRemove tag s) := by
  unfold execOfficerRemove
  try dsimp only
  all_goals (repeat' (first
    | with_reducible apply Only.refl
    | with_reducible apply runCmd_only rfl
    | with_reducible apply endFault_keep rfl
    | with_reducible apply pendPut_keep rfl
    | with_reducible apply endOk_keep rfl
    | with_reducible apply owner0Note_keep rfl
    | with_reducible apply ownerPut_keep rfl
    | with_reducible apply Only.foldl
    | with_reducible apply Only.foldl2
    | with_reducible apply OOnly.ite
    | with_reducible apply OOnly.next
    | split
    | dsimp only
    | intro _))

theorem execOwnerSetQuorum_only {tag : Nat} {s : State} : OOnly 8940625 s (execOwnerSetQuorum tag s) := by
  unfold execOwnerSetQuorum
  try dsimp only
  all_goals (repeat' (first
    | with_reducible apply Only.refl
    | with_reducible apply runCmd_only rfl
    | with_reducible apply endFault_keep rfl
    | with_reducible apply endOk_keep rfl
    | with_reducible apply owner0Note_keep rfl
    | with_reducible apply ownerPut_keep rfl
    | with_reducible apply Only.ite
    | with_reducible apply OOnly.ite
    | with_reducible apply OOnly.next
    | split
    | dsimp only
    | intro _))

theorem execApprovalRequest_only {tag : Nat} {io : HostIO} {s : State} : OOnly 1863257 s (execApprovalRequest tag io s) := by
  unfold execApprovalRequest
  try dsimp only
  all_goals (repeat' (first
    | with_reducible apply Only.refl
    | with_reducible apply runIn_only rfl
    | with_reducible apply endOut_keep rfl
    | with_reducible apply mangleSet_keep rfl
    | with_reducible apply endAfter_keep rfl
    | with_reducible apply draw_keep rfl
    | with_reducible apply draw_keepE rfl (by assumption)
    | with_reducible apply pendPut_keep rfl
    | with_reducible apply Only.ite
    | with_reducible apply Only.ite2
    | with_reducible apply OOnly.ite
    | with_reducible apply OOnly.next
    | split
    | dsimp only
    | intro _))

theorem execApprovalSubmit_only {tag : Nat} {io : HostIO} {s : State} : OOnly 814161 s (execApprovalSubmit tag io s) := by
  unfold execApprovalSubmit
  try dsimp only
  all_goals (repeat' (first
    | with_reducible apply Only.refl
    | with_reducible apply runIn_only rfl
    | with_reducible apply mangleSet_keep rfl
    | with_reducible apply endBefore_keep rfl
    | with_reducible apply tallyPut_keep rfl
    | with_reducible apply pendPut_keep rfl
    | with_reducible apply ownerPut_keep rfl
    | with_reducible apply endOk_keep rfl
    | with_reducible apply endAfter_keep rfl
    | with_reducible apply Only.ite
    | with_reducible apply OOnly.ite
    | with_reducible apply OOnly.next
    | split
    | dsimp only
    | intro _))

theorem execApprovalList_only {tag : Nat} {io : HostIO} {s : State} : OOnly 552529 s (execApprovalList tag io s) := by
  unfold execApprovalList
  try dsimp only
  all_goals (repeat' (first
    | with_reducible apply Only.refl
    | with_reducible apply runCmd_only rfl
    | with_reducible apply endOut_keep rfl
    | with_reducible apply OOnly.ite
    | with_reducible apply OOnly.next
    | dsimp only
    | intro _))

theorem execApprovalCancel_only {tag : Nat} {s : State} : OOnly 552017 s (execApprovalCancel tag s) := by
  unfold execApprovalCancel
  try dsimp only
  all_goals (repeat' (first
    | with_reducible apply Only.refl
    | with_reducible apply runCmd_only rfl
    | with_reducible apply endOk_keep rfl
    | with_reducible apply pendPut_keep rfl
    | with_reducible apply OOnly.ite
    | with_reducible apply OOnly.next
    | dsimp only
    | intro _))

theorem execApprovalExpiry_only {entry : Nat} {s : State} : OOnly 26705 s (execApprovalExpiry entry s) := by
  unfold execApprovalExpiry
  try dsimp only
  all_goals (repeat' (first
    | with_reducible apply Only.refl
    | with_reducible apply pendExpire_keep rfl
    | with_reducible apply Only.ite
    | with_reducible apply OOnly.ite
    | with_reducible apply OOnly.next
    | split
    | dsimp only
    | intro _))

theorem pendDomain_only {s : State} : Only 8192 s (pendDomain s) := by
  unfold pendDomain
  try dsimp only
  all_goals (repeat' (first
    | with_reducible apply Only.refl
    | fail_if_no_progress (with_reducible apply Only.upd rfl)
    | dsimp only
    | intro _))
theorem pendDomain_keep {s : State} (hs : sub 8192 n_ = true) (hk_ : Only n_ a_ s) : Only n_ a_ (pendDomain s) := pendDomain_only.step hs hk_

theorem chanPut_only {s : State} {c : Nat} {x : DmaChan} : Only 2097152 s (chanPut s c x) := by
  unfold chanPut
  try dsimp only
  all_goals (repeat' (first
    | with_reducible apply Only.refl
    | fail_if_no_progress (with_reducible apply Only.upd rfl)
    | dsimp only
    | intro _))
theorem chanPut_keep {s : State} {c : Nat} {x : DmaChan} (hs : sub 2097152 n_ = true) (hk_ : Only n_ a_ s) : Only n_ a_ (chanPut s c x) := chanPut_only.step hs hk_

theorem trigPulse_only {s : State} {c : Nat} : Only 2097168 s (trigPulse s c) := by
  unfold trigPulse
  try dsimp only
  all_goals (repeat' (first
    | with_reducible apply Only.refl
    | with_reducible apply chanPut_keep rfl
    | with_reducible apply regAdd_keep rfl
    | with_reducible apply Only.ite
    | split
    | dsimp only
    | intro _))
theorem trigPulse_keep {s : State} {c : Nat} (hs : sub 2097168 n_ = true) (hk_ : Only n_ a_ s) : Only n_ a_ (trigPulse s c) := trigPulse_only.step hs hk_

theorem inputPulse_only {s : State} {k : Nat} {i : Nat} : Only 65536 s (inputPulse s k i) := by
  unfold inputPulse
  try dsimp only
  all_goals (repeat' (first
    | with_reducible apply Only.refl
    | with_reducible apply corePut_keep rfl
    | dsimp only
    | intro _))
theorem inputPulse_keep {s : State} {k : Nat} {i : Nat} (hs : sub 65536 n_ = true) (hk_ : Only n_ a_ s) : Only n_ a_ (inputPulse s k i) := inputPulse_only.step hs hk_

theorem linePulse_only {s : State} {n : Nat} : Only 2162704 s (linePulse s n) := by
  unfold linePulse
  try dsimp only
  all_goals (repeat' (first
    | with_reducible apply Only.refl
    | with_reducible apply inputPulse_keep rfl
    | with_reducible apply trigPulse_keep rfl
    | with_reducible apply Only.foldl
    | with_reducible apply Only.foldl2
    | dsimp only
    | intro _))
theorem linePulse_keep {s : State} {n : Nat} (hs : sub 2162704 n_ = true) (hk_ : Only n_ a_ s) : Only n_ a_ (linePulse s n) := linePulse_only.step hs hk_

theorem evPulse_only {s : State} {src : Nat} : Only 2162704 s (evPulse s src) := by
  unfold evPulse
  try dsimp only
  all_goals (repeat' (first
    | with_reducible apply Only.refl
    | with_reducible apply linePulse_keep rfl
    | with_reducible apply Only.foldl
    | with_reducible apply Only.foldl2
    | dsimp only
    | intro _))
theorem evPulse_keep {s : State} {src : Nat} (hs : sub 2162704 n_ = true) (hk_ : Only n_ a_ s) : Only n_ a_ (evPulse s src) := evPulse_only.step hs hk_

theorem lnkCount_only {s : State} {p : Nat} {off : Nat} : Only 16 s (lnkCount s p off) := by
  unfold lnkCount
  try dsimp only
  all_goals (repeat' (first
    | with_reducible apply Only.refl
    | with_reducible apply regAdd_keep rfl
    | dsimp only
    | intro _))
theorem lnkCount_keep {s : State} {p : Nat} {off : Nat} (hs : sub 16 n_ = true) (hk_ : Only n_ a_ s) : Only n_ a_ (lnkCount s p off) := lnkCount_only.step hs hk_

theorem lnkEvent_only {s : State} {p : Nat} {bit : Nat} : Only 16 s (lnkEvent s p bit) := by
  unfold lnkEvent
  try dsimp only
  all_goals (repeat' (first
    | with_reducible apply Only.refl
    | with_reducible apply sqcSet_keep rfl
    | dsimp only
    | intro _))
theorem lnkEvent_keep {s : State} {p : Nat} {bit : Nat} (hs : sub 16 n_ = true) (hk_ : Only n_ a_ s) : Only n_ a_ (lnkEvent s p bit) := lnkEvent_only.step hs hk_

theorem lnkAdd64_only {s : State} {p : Nat} {off : Nat} {n : Nat} : Only 16 s (lnkAdd64 s p off n) := by
  unfold lnkAdd64
  try dsimp only
  all_goals (repeat' (first
    | with_reducible apply Only.refl
    | with_reducible apply regPut64_keep rfl
    | dsimp only
    | intro _))
theorem lnkAdd64_keep {s : State} {p : Nat} {off : Nat} {n : Nat} (hs : sub 16 n_ = true) (hk_ : Only n_ a_ s) : Only n_ a_ (lnkAdd64 s p off n) := lnkAdd64_only.step hs hk_

theorem leaseCtr_only {s : State} {q : Nat} {x : Queue} : Only 16385 s (leaseCtr s q x).2 := by
  unfold leaseCtr
  try dsimp only
  all_goals (repeat' (first
    | with_reducible apply Only.refl
    | with_reducible apply jot_keep rfl
    | with_reducible apply Only.ite
    | with_reducible apply Only.ite2
    | split
    | dsimp only
    | intro _))
theorem leaseCtr_keep {s : State} {q : Nat} {x : Queue} (hs : sub 16385 n_ = true) (hk_ : Only n_ a_ s) : Only n_ a_ (leaseCtr s q x).2 := leaseCtr_only.step hs hk_
theorem leaseCtr_keepE {s : State} {q : Nat} {x : Queue} {y0_ : Queue} {t_ : State} (hs : sub 16385 n_ = true) (he : leaseCtr s q x = (y0_, t_)) (hk_ : Only n_ a_ s) : Only n_ a_ t_ := by
  have := leaseCtr_keep hs hk_ (s := s) (q := q) (x := x)
  rw [he] at this; exact this

theorem takeCtr_only {s : State} {q : Nat} {x : Queue} : Only 16385 s (takeCtr s q x).2.2 := by
  unfold takeCtr
  try dsimp only
  all_goals (repeat' (first
    | with_reducible apply Only.refl
    | with_reducible apply leaseCtr_keep rfl
    | with_reducible apply leaseCtr_keepE rfl (by assumption)
    | split
    | dsimp only
    | intro _))
theorem takeCtr_keep {s : State} {q : Nat} {x : Queue} (hs : sub 16385 n_ = true) (hk_ : Only n_ a_ s) : Only n_ a_ (takeCtr s q x).2.2 := takeCtr_only.step hs hk_
theorem takeCtr_keepE {s : State} {q : Nat} {x : Queue} {y0_ : Nat} {y1_ : Queue} {t_ : State} (hs : sub 16385 n_ = true) (he : takeCtr s q x = (y0_, y1_, t_)) (hk_ : Only n_ a_ s) : Only n_ a_ t_ := by
  have := takeCtr_keep hs hk_ (s := s) (q := q) (x := x)
  rw [he] at this; exact this

theorem leaseHb_only {s : State} {q : Nat} {x : Queue} : Only 16385 s (leaseHb s q x).2 := by
  unfold leaseHb
  try dsimp only
  all_goals (repeat' (first
    | with_reducible apply Only.refl
    | with_reducible apply seamTo_keep rfl
    | with_reducible apply jot_keep rfl
    | with_reducible apply Only.ite
    | with_reducible apply Only.ite2
    | split
    | dsimp only
    | intro _))
theorem leaseHb_keep {s : State} {q : Nat} {x : Queue} (hs : sub 16385 n_ = true) (hk_ : Only n_ a_ s) : Only n_ a_ (leaseHb s q x).2 := leaseHb_only.step hs hk_
theorem leaseHb_keepE {s : State} {q : Nat} {x : Queue} {y0_ : Queue} {t_ : State} (hs : sub 16385 n_ = true) (he : leaseHb s q x = (y0_, t_)) (hk_ : Only n_ a_ s) : Only n_ a_ t_ := by
  have := leaseHb_keep hs hk_ (s := s) (q := q) (x := x)
  rw [he] at this; exact this

theorem takeHb_only {s : State} {q : Nat} {x : Queue} : Only 16385 s (takeHb s q x).2.2 := by
  unfold takeHb
  try dsimp only
  all_goals (repeat' (first
    | with_reducible apply Only.refl
    | with_reducible apply leaseHb_keep rfl
    | with_reducible apply leaseHb_keepE rfl (by assumption)
    | with_reducible apply Only.ite
    | with_reducible apply Only.ite2
    | split
    | dsimp only
    | intro _))
theorem takeHb_keep {s : State} {q : Nat} {x : Queue} (hs : sub 16385 n_ = true) (hk_ : Only n_ a_ s) : Only n_ a_ (takeHb s q x).2.2 := takeHb_only.step hs hk_
theorem takeHb_keepE {s : State} {q : Nat} {x : Queue} {y0_ : Option Nat} {y1_ : Queue} {t_ : State} (hs : sub 16385 n_ = true) (he : takeHb s q x = (y0_, y1_, t_)) (hk_ : Only n_ a_ s) : Only n_ a_ t_ := by
  have := takeHb_keep hs hk_ (s := s) (q := q) (x := x)
  rw [he] at this; exact this

theorem sendFrame_only {s : State} {p : Nat} {cls : Nat} {peer : Peer} {body : List Byte} : Only 17 s (sendFrame s p cls peer body) := by
  unfold sendFrame
  try dsimp only
  all_goals (repeat' (first
    | with_reducible apply Only.refl
    | with_reducible apply emit_keep rfl
    | with_reducible apply lnkAdd64_keep rfl
    | with_reducible apply Only.ite
    | split
    | dsimp only
    | intro _))
theorem sendFrame_keep {s : State} {p : Nat} {cls : Nat} {peer : Peer} {body : List Byte} (hs : sub 17 n_ = true) (hk_ : Only n_ a_ s) : Only n_ a_ (sendFrame s p cls peer body) := sendFrame_only.step hs hk_

theorem queueMod_only {s : State} {q : Nat} {f : Queue → Queue} : Only 131072 s (queueMod s q f) := by
  unfold queueMod
  try dsimp only
  all_goals (repeat' (first
    | with_reducible apply Only.refl
    | with_reducible apply queuePut_keep rfl
    | split
    | dsimp only
    | intro _))
theorem queueMod_keep {s : State} {q : Nat} {f : Queue → Queue} (hs : sub 131072 n_ = true) (hk_ : Only n_ a_ s) : Only n_ a_ (queueMod s q f) := queueMod_only.step hs hk_

theorem queueSend_only {s : State} {q : Nat} {frame : List Byte} : Only 131089 s (queueSend s q frame) := by
  unfold queueSend
  try dsimp only
  all_goals (repeat' (first
    | with_reducible apply Only.refl
    | with_reducible apply queueMod_keep rfl
    | with_reducible apply sendFrame_keep rfl
    | with_reducible apply Only.ite
    | split
    | dsimp only
    | intro _))
theorem queueSend_keep {s : State} {q : Nat} {frame : List Byte} (hs : sub 131089 n_ = true) (hk_ : Only n_ a_ s) : Only n_ a_ (queueSend s q frame) := queueSend_only.step hs hk_

theorem txData_only {s : State} {q : Nat} {x : Queue} {ctr : Nat} {app : Nat} {stamp : Stamp} {chain : Option Nat} {cmd : Option Nat} {jseq : Nat} {plain : List Byte} : Only 131072 s (txData s q x ctr app stamp chain cmd jseq plain) := by
  unfold txData
  try dsimp only
  all_goals (repeat' (first
    | with_reducible apply Only.refl
    | with_reducible apply queuePut_keep rfl
    | split
    | dsimp only
    | intro _))
theorem txData_keep {s : State} {q : Nat} {x : Queue} {ctr : Nat} {app : Nat} {stamp : Stamp} {chain : Option Nat} {cmd : Option Nat} {jseq : Nat} {plain : List Byte} (hs : sub 131072 n_ = true) (hk_ : Only n_ a_ s) : Only n_ a_ (txData s q x ctr app stamp chain cmd jseq plain) := txData_only.step hs hk_

theorem seamEvent_only {s : State} {bit : Nat} {member : Nat} : Only 2128 s (seamEvent s bit member) := by
  unfold seamEvent
  try dsimp only
  all_goals (repeat' (first
    | with_reducible apply Only.refl
    | with_reducible apply tallyPut_keep rfl
    | with_reducible apply sqcSet_keep rfl
    | dsimp only
    | intro _))
theorem seamEvent_keep {s : State} {bit : Nat} {member : Nat} (hs : sub 2128 n_ = true) (hk_ : Only n_ a_ s) : Only n_ a_ (seamEvent s bit member) := seamEvent_only.step hs hk_

theorem enqChain_only {s : State} {q : Nat} {b : Nat} {app : Nat} : Only 182353 s (enqChain s q b app) := by
  unfold enqChain
  try dsimp only
  all_goals (repeat' (first
    | with_reducible apply Only.refl
    | with_reducible apply hmpTransfer_keep rfl (by assumption)
    | with_reducible apply takeCtr_keep rfl
    | with_reducible apply takeCtr_keepE rfl (by assumption)
    | with_reducible apply txData_keep rfl
    | with_reducible apply seamEvent_keep rfl
    | with_reducible apply regAdd_keep rfl
    | with_reducible apply jotStream_keep rfl
    | with_reducible apply Only.ite
    | with_reducible apply Only.ite2
    | split
    | dsimp only
    | intro _))
theorem enqChain_keep {s : State} {q : Nat} {b : Nat} {app : Nat} (hs : sub 182353 n_ = true) (hk_ : Only n_ a_ s) : Only n_ a_ (enqChain s q b app) := enqChain_only.step hs hk_

theorem txControl_only {s : State} {q : Nat} {kind : Nat} {plain : List Byte} {done : Queue} : Only 147473 s (txControl s q kind plain done) := by
  unfold txControl
  try dsimp only
  all_goals (repeat' (first
    | with_reducible apply Only.refl
    | with_reducible apply leaseCtr_keep rfl
    | with_reducible apply leaseCtr_keepE rfl (by assumption)
    | with_reducible apply queuePut_keep rfl
    | with_reducible apply queueSend_keep rfl
    | with_reducible apply queueMod_keep rfl
    | with_reducible apply Only.ite
    | with_reducible apply Only.ite2
    | split
    | dsimp only
    | intro _))
theorem txControl_keep {s : State} {q : Nat} {kind : Nat} {plain : List Byte} {done : Queue} (hs : sub 147473 n_ = true) (hk_ : Only n_ a_ s) : Only n_ a_ (txControl s q kind plain done) := txControl_only.step hs hk_

theorem sendNote_only {s : State} {tag : Nat} {q : Nat} {code : Nat} : Only 1024 s (sendNote s tag q code) := by
  unfold sendNote
  try dsimp only
  all_goals (repeat' (first
    | with_reducible apply Only.refl
    | with_reducible apply setWork_keep rfl
    | with_reducible apply Only.ite
    | split
    | dsimp only
    | intro _))
theorem sendNote_keep {s : State} {tag : Nat} {q : Nat} {code : Nat} (hs : sub 1024 n_ = true) (hk_ : Only n_ a_ s) : Only n_ a_ (sendNote s tag q code) := sendNote_only.step hs hk_

theorem txFree_only {s : State} {f : TxFrame} : Only 32768 s (txFree s f) := by
  unfold txFree
  try dsimp only
  all_goals (repeat' (first
    | with_reducible apply Only.refl
    | with_reducible apply hmpRelease_keep rfl
    | split
    | dsimp only
    | intro _))
theorem txFree_keep {s : State} {f : TxFrame} (hs : sub 32768 n_ = true) (hk_ : Only n_ a_ s) : Only n_ a_ (txFree s f) := txFree_only.step hs hk_

theorem alarmNote_only {s : State} {q : Nat} {x : Queue} : Only 2128 s (alarmNote s q x) := by
  unfold alarmNote
  try dsimp only
  all_goals (repeat' (first
    | with_reducible apply Only.refl
    | with_reducible apply tallyPut_keep rfl
    | with_reducible apply Only.ite
    | split
    | dsimp only
    | intro _))
theorem alarmNote_keep {s : State} {q : Nat} {x : Queue} (hs : sub 2128 n_ = true) (hk_ : Only n_ a_ s) : Only n_ a_ (alarmNote s q x) := alarmNote_only.step hs hk_

end Sys2Proof.Machine
end

