-- ==== Sys2Proof/Laws/FrameEngines.lean ====
section
/-! SUPPORT. What each operation of these files of Machine/ changes (see Laws/Frame.lean): Press, Isolation, Dma, Slices, Mangle. -/

namespace Sys2Proof.Machine

set_option linter.all false
set_option Elab.async false

variable {n_ : Nat} {a_ : State}

theorem pressCharge_only {s : State} {ds : List (Nat × Nat)} : Only 512 s (pressCharge s ds) := by
  unfold pressCharge
  try dsimp only
  all_goals (repeat' (first
    | with_reducible apply Only.refl
    | with_reducible apply slicePut_keep rfl
    | with_reducible apply Only.foldl
    | with_reducible apply Only.foldl2
    | with_reducible apply Only.ite
    | split
    | dsimp only
    | intro _))
theorem pressCharge_keep {s : State} {ds : List (Nat × Nat)} (hs : sub 512 n_ = true) (hk_ : Only n_ a_ s) : Only n_ a_ (pressCharge s ds) := pressCharge_only.step hs hk_

theorem execPressJobIssue_only {pipe : Nat} {s : State} : OOnly 262656 s (execPressJobIssue pipe s) := by
  unfold execPressJobIssue
  try dsimp only
  all_goals (repeat' (first
    | with_reducible apply Only.refl
    | with_reducible apply pipesMap_keep rfl
    | with_reducible apply pressCharge_keep rfl
    | with_reducible apply Only.ite
    | with_reducible apply OOnly.ite
    | with_reducible apply OOnly.next
    | fail_if_no_progress (with_reducible apply Only.upd rfl)
    | split
    | dsimp only
    | intro _))

theorem ctxPut_only {s : State} {i : Nat} {x : SymCtx} : Only 262144 s (ctxPut s i x) := by
  unfold ctxPut
  try dsimp only
  all_goals (repeat' (first
    | with_reducible apply Only.refl
    | fail_if_no_progress (with_reducible apply Only.upd rfl)
    | dsimp only
    | intro _))
theorem ctxPut_keep {s : State} {i : Nat} {x : SymCtx} (hs : sub 262144 n_ = true) (hk_ : Only n_ a_ s) : Only n_ a_ (ctxPut s i x) := ctxPut_only.step hs hk_

theorem ctxEnd_only {s : State} {i : Nat} : Only 262144 s (ctxEnd s i) := by
  unfold ctxEnd
  try dsimp only
  all_goals (repeat' (first
    | with_reducible apply Only.refl
    | fail_if_no_progress (with_reducible apply Only.upd rfl)
    | dsimp only
    | intro _))
theorem ctxEnd_keep {s : State} {i : Nat} (hs : sub 262144 n_ = true) (hk_ : Only n_ a_ s) : Only n_ a_ (ctxEnd s i) := ctxEnd_only.step hs hk_

theorem ctxEndAll_only {s : State} {p : SymCtx → Bool} : Only 262144 s (ctxEndAll s p) := by
  unfold ctxEndAll
  try dsimp only
  all_goals (repeat' (first
    | with_reducible apply Only.refl
    | fail_if_no_progress (with_reducible apply Only.upd rfl)
    | dsimp only
    | intro _))
theorem ctxEndAll_keep {s : State} {p : SymCtx → Bool} (hs : sub 262144 n_ = true) (hk_ : Only n_ a_ s) : Only n_ a_ (ctxEndAll s p) := ctxEndAll_only.step hs hk_

theorem pressStart_only {s0 : State} {tag : Nat} {c : Cmd} : Only 1319960 s0 (pressStart s0 tag c) := by
  unfold pressStart
  try dsimp only
  all_goals (repeat' (first
    | with_reducible apply Only.refl
    | with_reducible apply touchFast_keep rfl
    | with_reducible apply draw_keep rfl
    | with_reducible apply draw_keepE rfl (by assumption)
    | with_reducible apply cacheUse_keep rfl
    | with_reducible apply pressEnter_keep rfl
    | with_reducible apply setWork_keep rfl
    | with_reducible apply Only.ite
    | with_reducible apply Only.ite2
    | split
    | dsimp only
    | intro _))
theorem pressStart_keep {s0 : State} {tag : Nat} {c : Cmd} (hs : sub 1319960 n_ = true) (hk_ : Only n_ a_ s0) : Only n_ a_ (pressStart s0 tag c) := pressStart_only.step hs hk_

theorem symInput_only {s : State} {tag : Nat} {op : Nat} {io : HostIO} : OOnly 814161 s (symInput s tag op io) := by
  unfold symInput
  try dsimp only
  all_goals (repeat' (first
    | with_reducible apply Only.refl
    | with_reducible apply runIn_only rfl
    | with_reducible apply pipesMap_keep rfl
    | with_reducible apply setWork_keep rfl
    | with_reducible apply pressLeave_keep rfl
    | with_reducible apply ctxEnd_keep rfl
    | with_reducible apply Only.ite
    | with_reducible apply OOnly.ite
    | with_reducible apply OOnly.next
    | with_reducible apply OOnly.of (by assumption)
    | split
    | dsimp only
    | intro _))

theorem ctxOpen_only {s : State} {tag : Nat} {c : Cmd} {p : SymPar} {io : HostIO} {data : List Byte} : Only 814673 s (ctxOpen s tag c p io data) := by
  unfold ctxOpen
  try dsimp only
  all_goals (repeat' (first
    | with_reducible apply Only.refl
    | with_reducible apply endFault_keep rfl
    | with_reducible apply ctxPut_keep rfl
    | with_reducible apply endOut_keep rfl
    | with_reducible apply Only.ite
    | fail_if_no_progress (with_reducible apply Only.upd rfl)
    | split
    | dsimp only
    | intro _))
theorem ctxOpen_keep {s : State} {tag : Nat} {c : Cmd} {p : SymPar} {io : HostIO} {data : List Byte} (hs : sub 814673 n_ = true) (hk_ : Only n_ a_ s) : Only n_ a_ (ctxOpen s tag c p io data) := ctxOpen_only.step hs hk_

theorem ctxAdopt_only {s : State} {c : Cmd} {id : Nat} {iv : List Byte} : Only 262144 s (ctxAdopt s c id iv) := by
  unfold ctxAdopt
  try dsimp only
  all_goals (repeat' (first
    | with_reducible apply Only.refl
    | with_reducible apply ctxPut_keep rfl
    | fail_if_no_progress (with_reducible apply Only.upd rfl)
    | dsimp only
    | intro _))
theorem ctxAdopt_keep {s : State} {c : Cmd} {id : Nat} {iv : List Byte} (hs : sub 262144 n_ = true) (hk_ : Only n_ a_ s) : Only n_ a_ (ctxAdopt s c id iv) := ctxAdopt_only.step hs hk_

theorem symEnd_only {s : State} {tag : Nat} {c : Cmd} {io : HostIO} {out : List Byte} {st : Nat} : Only 585297 s (symEnd s tag c io out st) := by
  unfold symEnd
  try dsimp only
  all_goals (repeat' (first
    | with_reducible apply Only.refl
    | with_reducible apply chainTaint_keep rfl
    | with_reducible apply endOut_keep rfl
    | with_reducible apply Only.ite
    | split
    | dsimp only
    | intro _))
theorem symEnd_keep {s : State} {tag : Nat} {c : Cmd} {io : HostIO} {out : List Byte} {st : Nat} (hs : sub 585297 n_ = true) (hk_ : Only n_ a_ s) : Only n_ a_ (symEnd s tag c io out st) := symEnd_only.step hs hk_

theorem ctxFeed_only {s : State} {tag : Nat} {i : Nat} {x : SymCtx} {fin : Bool} {io : HostIO} {data : List Byte} : Only 847441 s (ctxFeed s tag i x fin io data) := by
  unfold ctxFeed
  try dsimp only
  all_goals (repeat' (first
    | with_reducible apply Only.refl
    | with_reducible apply symEnd_keep rfl
    | with_reducible apply ctxEnd_keep rfl
    | with_reducible apply endOut_keep rfl
    | with_reducible apply ctxPut_keep rfl
    | with_reducible apply Only.ite
    | split
    | dsimp only
    | intro _))
theorem ctxFeed_keep {s : State} {tag : Nat} {i : Nat} {x : SymCtx} {fin : Bool} {io : HostIO} {data : List Byte} (hs : sub 847441 n_ = true) (hk_ : Only n_ a_ s) : Only n_ a_ (ctxFeed s tag i x fin io data) := ctxFeed_only.step hs hk_

theorem symDone_only {s : State} {tag : Nat} : Only 847441 s (symDone s tag) := by
  unfold symDone
  try dsimp only
  all_goals (repeat' (first
    | with_reducible apply Only.refl
    | with_reducible apply ctxOpen_keep rfl
    | with_reducible apply endFault_keep rfl
    | with_reducible apply ctxFeed_keep rfl
    | with_reducible apply symEnd_keep rfl
    | with_reducible apply Only.ite
    | split
    | dsimp only
    | intro _))
theorem symDone_keep {s : State} {tag : Nat} (hs : sub 847441 n_ = true) (hk_ : Only n_ a_ s) : Only n_ a_ (symDone s tag) := symDone_only.step hs hk_

theorem execSymEncrypt_only {tag : Nat} {io : HostIO} {s : State} : OOnly 814161 s (execSymEncrypt tag io s) := by
  unfold execSymEncrypt
  try dsimp only
  all_goals (repeat' (first
    | with_reducible apply Only.refl
    | with_reducible apply OOnly.mono rfl symInput_only
    | with_reducible apply OOnly.ite
    | with_reducible apply OOnly.next
    | dsimp only
    | intro _))

theorem execSymDecrypt_only {tag : Nat} {io : HostIO} {s : State} : OOnly 814161 s (execSymDecrypt tag io s) := by
  unfold execSymDecrypt
  try dsimp only
  all_goals (repeat' (first
    | with_reducible apply Only.refl
    | with_reducible apply OOnly.mono rfl symInput_only
    | with_reducible apply OOnly.ite
    | with_reducible apply OOnly.next
    | dsimp only
    | intro _))

theorem execSymMac_only {tag : Nat} {io : HostIO} {s : State} : OOnly 814161 s (execSymMac tag io s) := by
  unfold execSymMac
  try dsimp only
  all_goals (repeat' (first
    | with_reducible apply Only.refl
    | with_reducible apply OOnly.mono rfl symInput_only
    | with_reducible apply OOnly.ite
    | with_reducible apply OOnly.next
    | dsimp only
    | intro _))

theorem execSymMacVerify_only {tag : Nat} {io : HostIO} {s : State} : OOnly 814161 s (execSymMacVerify tag io s) := by
  unfold execSymMacVerify
  try dsimp only
  all_goals (repeat' (first
    | with_reducible apply Only.refl
    | with_reducible apply OOnly.mono rfl symInput_only
    | with_reducible apply OOnly.ite
    | with_reducible apply OOnly.next
    | dsimp only
    | intro _))

theorem execSymHash_only {tag : Nat} {io : HostIO} {s : State} : OOnly 814161 s (execSymHash tag io s) := by
  unfold execSymHash
  try dsimp only
  all_goals (repeat' (first
    | with_reducible apply Only.refl
    | with_reducible apply OOnly.mono rfl symInput_only
    | with_reducible apply OOnly.ite
    | with_reducible apply OOnly.next
    | dsimp only
    | intro _))

theorem execSymCtxOpen_only {tag : Nat} {io : HostIO} {s : State} : OOnly 814161 s (execSymCtxOpen tag io s) := by
  unfold execSymCtxOpen
  try dsimp only
  all_goals (repeat' (first
    | with_reducible apply Only.refl
    | with_reducible apply OOnly.mono rfl symInput_only
    | with_reducible apply OOnly.ite
    | with_reducible apply OOnly.next
    | dsimp only
    | intro _))

theorem execSymCtxUpdate_only {tag : Nat} {io : HostIO} {s : State} : OOnly 814161 s (execSymCtxUpdate tag io s) := by
  unfold execSymCtxUpdate
  try dsimp only
  all_goals (repeat' (first
    | with_reducible apply Only.refl
    | with_reducible apply OOnly.mono rfl symInput_only
    | with_reducible apply OOnly.ite
    | with_reducible apply OOnly.next
    | dsimp only
    | intro _))

theorem execSymCtxFinish_only {tag : Nat} {io : HostIO} {s : State} : OOnly 814161 s (execSymCtxFinish tag io s) := by
  unfold execSymCtxFinish
  try dsimp only
  all_goals (repeat' (first
    | with_reducible apply Only.refl
    | with_reducible apply OOnly.mono rfl symInput_only
    | with_reducible apply OOnly.ite
    | with_reducible apply OOnly.next
    | dsimp only
    | intro _))

theorem execSymCtxClose_only {tag : Nat} {s : State} : OOnly 814161 s (execSymCtxClose tag s) := by
  unfold execSymCtxClose
  try dsimp only
  all_goals (repeat' (first
    | with_reducible apply Only.refl
    | with_reducible apply runCmd_only rfl
    | with_reducible apply endOk_keep rfl
    | with_reducible apply endBefore_keep rfl
    | with_reducible apply ctxPut_keep rfl
    | with_reducible apply ctxEnd_keep rfl
    | with_reducible apply Only.foldl
    | with_reducible apply Only.foldl2
    | with_reducible apply Only.ite
    | with_reducible apply OOnly.ite
    | with_reducible apply OOnly.next
    | split
    | dsimp only
    | intro _))

theorem regionWrite_only {s : State} {n : Nat} {a : Nat} {chain : Bool} {bs : List Byte} : Only 98304 s (regionWrite s n a chain bs) := by
  unfold regionWrite
  try dsimp only
  all_goals (repeat' (first
    | with_reducible apply Only.refl
    | with_reducible apply chainWrite_keep rfl
    | with_reducible apply corePut_keep rfl
    | with_reducible apply Only.ite
    | split
    | dsimp only
    | intro _))
theorem regionWrite_keep {s : State} {n : Nat} {a : Nat} {chain : Bool} {bs : List Byte} (hs : sub 98304 n_ = true) (hk_ : Only n_ a_ s) : Only n_ a_ (regionWrite s n a chain bs) := regionWrite_only.step hs hk_

theorem pressPortSet_only {s : State} {n : Nat} {job : Nat} {w : BitVec 64} : Only 65536 s (pressPortSet s n job w) := by
  unfold pressPortSet
  try dsimp only
  all_goals (repeat' (first
    | with_reducible apply Only.refl
    | with_reducible apply corePut_keep rfl
    | with_reducible apply Only.ite
    | split
    | dsimp only
    | intro _))
theorem pressPortSet_keep {s : State} {n : Nat} {job : Nat} {w : BitVec 64} (hs : sub 65536 n_ = true) (hk_ : Only n_ a_ s) : Only n_ a_ (pressPortSet s n job w) := pressPortSet_only.step hs hk_

theorem pressPortDone_only {s : State} {n : Nat} {job : Nat} : Only 106496 s (pressPortDone s n job) := by
  unfold pressPortDone
  try dsimp only
  all_goals (repeat' (first
    | with_reducible apply Only.refl
    | with_reducible apply regionWrite_keep rfl
    | with_reducible apply chainTaint_keep rfl
    | with_reducible apply pressPortSet_keep rfl
    | with_reducible apply useTake_keep rfl
    | with_reducible apply Only.foldl
    | with_reducible apply Only.foldl2
    | with_reducible apply Only.ite
    | split
    | dsimp only
    | intro _))
theorem pressPortDone_keep {s : State} {n : Nat} {job : Nat} (hs : sub 106496 n_ = true) (hk_ : Only n_ a_ s) : Only n_ a_ (pressPortDone s n job) := pressPortDone_only.step hs hk_

theorem pressJobDone_only {s : State} {pipe : Nat} {job : Nat} : Only 912977 s (pressJobDone s pipe job) := by
  unfold pressJobDone
  try dsimp only
  all_goals (repeat' (first
    | with_reducible apply Only.refl
    | with_reducible apply pressOut_keep rfl
    | with_reducible apply symDone_keep rfl
    | with_reducible apply pressPortDone_keep rfl
    | with_reducible apply hashDone_keep rfl
    | split
    | dsimp only
    | intro _))
theorem pressJobDone_keep {s : State} {pipe : Nat} {job : Nat} (hs : sub 912977 n_ = true) (hk_ : Only n_ a_ s) : Only n_ a_ (pressJobDone s pipe job) := pressJobDone_only.step hs hk_

theorem pressRinse_only {s : State} : Only 879697 s (pressRinse s) := by
  unfold pressRinse
  try dsimp only
  all_goals (repeat' (first
    | with_reducible apply Only.refl
    | with_reducible apply endAfter_keep rfl
    | with_reducible apply pressPortSet_keep rfl
    | with_reducible apply Only.foldl
    | with_reducible apply Only.foldl2
    | fail_if_no_progress (with_reducible apply Only.upd rfl)
    | split
    | dsimp only
    | intro _))
theorem pressRinse_keep {s : State} (hs : sub 879697 n_ = true) (hk_ : Only n_ a_ s) : Only n_ a_ (pressRinse s) := pressRinse_only.step hs hk_

theorem hemDeny_only {s : State} {c : Nat} {a : Nat} {w : Accessor} {k : AccKind} : Only 2128 s (hemDeny s c a w k) := by
  unfold hemDeny
  try dsimp only
  all_goals (repeat' (first
    | with_reducible apply Only.refl
    | with_reducible apply regAdd_keep rfl
    | with_reducible apply sqcSet_keep rfl
    | with_reducible apply regPut_keep rfl
    | with_reducible apply regPut64_keep rfl
    | with_reducible apply tallyPut_keep rfl
    | with_reducible apply Only.ite
    | split
    | dsimp only
    | intro _))
theorem hemDeny_keep {s : State} {c : Nat} {a : Nat} {w : Accessor} {k : AccKind} (hs : sub 2128 n_ = true) (hk_ : Only n_ a_ s) : Only n_ a_ (hemDeny s c a w k) := hemDeny_only.step hs hk_

theorem hemCheck_only {s : State} {w : Accessor} {a : Nat} {n : Nat} {k : AccKind} : Only 2128 s (hemCheck s w a n k).2 := by
  unfold hemCheck
  try dsimp only
  all_goals (repeat' (first
    | with_reducible apply Only.refl
    | with_reducible apply hemDeny_keep rfl
    | with_reducible apply Only.ite
    | with_reducible apply Only.ite2
    | split
    | dsimp only
    | intro _))
theorem hemCheck_keep {s : State} {w : Accessor} {a : Nat} {n : Nat} {k : AccKind} (hs : sub 2128 n_ = true) (hk_ : Only n_ a_ s) : Only n_ a_ (hemCheck s w a n k).2 := hemCheck_only.step hs hk_
theorem hemCheck_keepE {s : State} {w : Accessor} {a : Nat} {n : Nat} {k : AccKind} {y0_ : Bool} {t_ : State} (hs : sub 2128 n_ = true) (he : hemCheck s w a n k = (y0_, t_)) (hk_ : Only n_ a_ s) : Only n_ a_ t_ := by
  have := hemCheck_keep hs hk_ (s := s) (w := w) (a := a) (n := n) (k := k)
  rw [he] at this; exact this

theorem cpDenied_only {s : State} {a : Nat} : Only 2160 s (cpDenied s a) := by
  unfold cpDenied
  try dsimp only
  all_goals (repeat' (first
    | with_reducible apply Only.refl
    | with_reducible apply tallyPut_keep rfl
    | fail_if_no_progress (with_reducible apply Only.upd rfl)
    | dsimp only
    | intro _))
theorem cpDenied_keep {s : State} {a : Nat} (hs : sub 2160 n_ = true) (hk_ : Only n_ a_ s) : Only n_ a_ (cpDenied s a) := cpDenied_only.step hs hk_

theorem cpCheck_only {s : State} {r : Requester} {a : Nat} {k : AccKind} : Only 2160 s (cpCheck s r a k).2 := by
  unfold cpCheck
  try dsimp only
  all_goals (repeat' (first
    | with_reducible apply Only.refl
    | with_reducible apply hemCheck_keep rfl
    | with_reducible apply hemCheck_keepE rfl (by assumption)
    | with_reducible apply cpDenied_keep rfl
    | with_reducible apply Only.ite
    | with_reducible apply Only.ite2
    | split
    | dsimp only
    | intro _))
theorem cpCheck_keep {s : State} {r : Requester} {a : Nat} {k : AccKind} (hs : sub 2160 n_ = true) (hk_ : Only n_ a_ s) : Only n_ a_ (cpCheck s r a k).2 := cpCheck_only.step hs hk_
theorem cpCheck_keepE {s : State} {r : Requester} {a : Nat} {k : AccKind} {y0_ : Bool} {t_ : State} (hs : sub 2160 n_ = true) (he : cpCheck s r a k = (y0_, t_)) (hk_ : Only n_ a_ s) : Only n_ a_ t_ := by
  have := cpCheck_keep hs hk_ (s := s) (r := r) (a := a) (k := k)
  rw [he] at this; exact this

theorem hemOverlap_only {s : State} {c : Nat} {n : Nat} : Only 16 s (hemOverlap s c n) := by
  unfold hemOverlap
  try dsimp only
  all_goals (repeat' (first
    | with_reducible apply Only.refl
    | with_reducible apply sqcSet_keep rfl
    | with_reducible apply Only.ite
    | split
    | dsimp only
    | intro _))
theorem hemOverlap_keep {s : State} {c : Nat} {n : Nat} (hs : sub 16 n_ = true) (hk_ : Only n_ a_ s) : Only n_ a_ (hemOverlap s c n) := hemOverlap_only.step hs hk_

theorem aruCheck_only {s : State} {u : Nat} {set_ : Nat} {a : Nat} {k : AccKind} : Only 16 s (aruCheck s u set_ a k).2 := by
  unfold aruCheck
  try dsimp only
  all_goals (repeat' (first
    | with_reducible apply Only.refl
    | with_reducible apply regPut64_keep rfl
    | with_reducible apply regPut_keep rfl
    | with_reducible apply Only.ite
    | with_reducible apply Only.ite2
    | split
    | dsimp only
    | intro _))
theorem aruCheck_keep {s : State} {u : Nat} {set_ : Nat} {a : Nat} {k : AccKind} (hs : sub 16 n_ = true) (hk_ : Only n_ a_ s) : Only n_ a_ (aruCheck s u set_ a k).2 := aruCheck_only.step hs hk_
theorem aruCheck_keepE {s : State} {u : Nat} {set_ : Nat} {a : Nat} {k : AccKind} {y0_ : Bool} {t_ : State} (hs : sub 16 n_ = true) (he : aruCheck s u set_ a k = (y0_, t_)) (hk_ : Only n_ a_ s) : Only n_ a_ t_ := by
  have := aruCheck_keep hs hk_ (s := s) (u := u) (set_ := set_) (a := a) (k := k)
  rw [he] at this; exact this

theorem opRun_only {s : State} {r : Requester} {as_ : Nat} {arg : Nat} {f : Nat → Nat → State → State} {m : Nat} (hm : sub 1081368 m = true) (hf : ∀ x0 x1 x2, Only m x2 (f x0 x1 x2)) : Only m s (opRun s r as_ arg f) := by
  unfold opRun
  apply Only.ite <;> intro _
  · exact .refl
  · have h : Only m s (touchFast s) := touchFast_keep (sub_trans rfl hm) .refl
    dsimp only
    split
    · exact ignWrite_keep (sub_trans rfl hm) h
    · refine Only.trans h (Only.trans ?_ (hf _ _ _))
      exact Only.mono (sub_trans rfl hm) (Only.upd (m := 32768) rfl .refl)
theorem opRun_keep {s0 : State} {r : Requester} {as_ : Nat} {arg : Nat} {f : Nat → Nat → State → State} (hs : sub 1081368 n_ = true) (hf : ∀ x0 x1 x2, Only n_ x2 (f x0 x1 x2)) (hk_ : Only n_ a_ s0) : Only n_ a_ (opRun s0 r as_ arg f) := hk_.trans (opRun_only hs hf)

theorem opEnq_only {s : State} {p : Nat} {tag : Nat} {b : Nat} {q : Nat} : Only 182353 s (opEnq s p tag b q) := by
  unfold opEnq
  try dsimp only
  all_goals (repeat' (first
    | with_reducible apply Only.refl
    | with_reducible apply opResult_keep rfl
    | with_reducible apply enqChain_keep rfl
    | with_reducible apply sqcSet_keep rfl
    | with_reducible apply regAdd_keep rfl
    | with_reducible apply Only.ite
    | split
    | dsimp only
    | intro _))
theorem opEnq_keep {s : State} {p : Nat} {tag : Nat} {b : Nat} {q : Nat} (hs : sub 182353 n_ = true) (hk_ : Only n_ a_ s) : Only n_ a_ (opEnq s p tag b q) := opEnq_only.step hs hk_

theorem opDeq_only {s : State} {r : Requester} {p : Nat} {tag : Nat} {q : Nat} : Only 163856 s (opDeq s r p tag q) := by
  unfold opDeq
  try dsimp only
  all_goals (repeat' (first
    | with_reducible apply Only.refl
    | with_reducible apply opResult_keep rfl
    | with_reducible apply hmpTransfer_keep rfl (by assumption)
    | with_reducible apply queuePut_keep rfl
    | with_reducible apply Only.ite
    | split
    | dsimp only
    | intro _))
theorem opDeq_keep {s : State} {r : Requester} {p : Nat} {tag : Nat} {q : Nat} (hs : sub 163856 n_ = true) (hk_ : Only n_ a_ s) : Only n_ a_ (opDeq s r p tag q) := opDeq_only.step hs hk_

theorem opWrite_only {s : State} {r : Requester} {v : Word} : Only 182355 s (opWrite s r v) := by
  unfold opWrite
  try dsimp only
  all_goals (repeat' (first
    | with_reducible apply Only.refl
    | with_reducible apply ignWrite_keep rfl
    | with_reducible apply opAlloc_keep rfl
    | with_reducible apply opFree_keep rfl
    | with_reducible apply opEnq_keep rfl
    | with_reducible apply opDeq_keep rfl
    | with_reducible apply opSetlen_keep rfl
    | with_reducible apply opResult_keep rfl
    | split
    | dsimp only
    | intro _))
theorem opWrite_keep {s : State} {r : Requester} {v : Word} (hs : sub 182355 n_ = true) (hk_ : Only n_ a_ s) : Only n_ a_ (opWrite s r v) := opWrite_only.step hs hk_

theorem execHmpAlloc_only {r : Requester} {as_ : Nat} {n : Nat} {s : State} : OOnly 1081370 s (execHmpAlloc r as_ n s) := by
  unfold execHmpAlloc
  try dsimp only
  all_goals (repeat' (first
    | with_reducible apply Only.refl
    | with_reducible apply opRun_keep rfl
    | with_reducible apply opAlloc_keep rfl
    | with_reducible apply OOnly.ite
    | with_reducible apply OOnly.next
    | dsimp only
    | intro _))

theorem execHmpFree_only {r : Requester} {as_ : Nat} {buf : Nat} {s : State} : OOnly 1083480 s (execHmpFree r as_ buf s) := by
  unfold execHmpFree
  try dsimp only
  all_goals (repeat' (first
    | with_reducible apply Only.refl
    | with_reducible apply opRun_keep rfl
    | with_reducible apply opFree_keep rfl
    | with_reducible apply OOnly.ite
    | with_reducible apply OOnly.next
    | dsimp only
    | intro _))

theorem execHmpEnq_only {r : Requester} {as_ : Nat} {buf : Nat} {queue : Nat} {s : State} : OOnly 1230937 s (execHmpEnq r as_ buf queue s) := by
  unfold execHmpEnq
  try dsimp only
  all_goals (repeat' (first
    | with_reducible apply Only.refl
    | with_reducible apply opRun_keep rfl
    | with_reducible apply opEnq_keep rfl
    | with_reducible apply OOnly.ite
    | with_reducible apply OOnly.next
    | dsimp only
    | intro _))

theorem execHmpDeq_only {r : Requester} {as_ : Nat} {queue : Nat} {s : State} : OOnly 1212440 s (execHmpDeq r as_ queue s) := by
  unfold execHmpDeq
  try dsimp only
  all_goals (repeat' (first
    | with_reducible apply Only.refl
    | with_reducible apply opRun_keep rfl
    | with_reducible apply opDeq_keep rfl
    | with_reducible apply OOnly.ite
    | with_reducible apply OOnly.next
    | dsimp only
    | intro _))

theorem execHmpSetlen_only {r : Requester} {as_ : Nat} {buf : Nat} {length : Nat} {s : State} : OOnly 1081368 s (execHmpSetlen r as_ buf length s) := by
  unfold execHmpSetlen
  try dsimp only
  all_goals (repeat' (first
    | with_reducible apply Only.refl
    | with_reducible apply opRun_keep rfl
    | with_reducible apply opSetlen_keep rfl
    | with_reducible apply OOnly.ite
    | with_reducible apply OOnly.next
    | dsimp only
    | intro _))

theorem dmaEvent_only {s : State} {c : Nat} {bit : Nat} : Only 2163601 s (dmaEvent s c bit) := by
  unfold dmaEvent
  try dsimp only
  all_goals (repeat' (first
    | with_reducible apply Only.refl
    | with_reducible apply evPulse_keep rfl
    | with_reducible apply sqcSet_keep rfl
    | with_reducible apply corePut_keep rfl
    | with_reducible apply raiseVector_keep rfl
    | with_reducible apply Only.ite
    | split
    | dsimp only
    | intro _))
theorem dmaEvent_keep {s : State} {c : Nat} {bit : Nat} (hs : sub 2163601 n_ = true) (hk_ : Only n_ a_ s) : Only n_ a_ (dmaEvent s c bit) := dmaEvent_only.step hs hk_

theorem dmaHalt_only {s : State} {c : Nat} {err : Nat} {addr : Nat} : Only 2164625 s (dmaHalt s c err addr) := by
  unfold dmaHalt
  try dsimp only
  all_goals (repeat' (first
    | with_reducible apply Only.refl
    | with_reducible apply chanPut_keep rfl
    | with_reducible apply regPut64_keep rfl
    | with_reducible apply dmaEvent_keep rfl
    | with_reducible apply retryDel_keep rfl
    | with_reducible apply Only.ite
    | split
    | dsimp only
    | intro _))
theorem dmaHalt_keep {s : State} {c : Nat} {err : Nat} {addr : Nat} (hs : sub 2164625 n_ = true) (hk_ : Only n_ a_ s) : Only n_ a_ (dmaHalt s c err addr) := dmaHalt_only.step hs hk_

theorem dmaAbort_only {s : State} {c : Nat} : Only 2098176 s (dmaAbort s c) := by
  unfold dmaAbort
  try dsimp only
  all_goals (repeat' (first
    | with_reducible apply Only.refl
    | with_reducible apply retryDel_keep rfl
    | with_reducible apply chanPut_keep rfl
    | with_reducible apply Only.ite
    | split
    | dsimp only
    | intro _))
theorem dmaAbort_keep {s : State} {c : Nat} (hs : sub 2098176 n_ = true) (hk_ : Only n_ a_ s) : Only n_ a_ (dmaAbort s c) := dmaAbort_only.step hs hk_

theorem dmaPause_only {s : State} {c : Nat} : Only 2097152 s (dmaPause s c) := by
  unfold dmaPause
  try dsimp only
  all_goals (repeat' (first
    | with_reducible apply Only.refl
    | with_reducible apply chanPut_keep rfl
    | with_reducible apply Only.ite
    | split
    | dsimp only
    | intro _))
theorem dmaPause_keep {s : State} {c : Nat} (hs : sub 2097152 n_ = true) (hk_ : Only n_ a_ s) : Only n_ a_ (dmaPause s c) := dmaPause_only.step hs hk_

theorem dmaCont_only {s : State} {c : Nat} : Only 2097152 s (dmaCont s c) := by
  unfold dmaCont
  try dsimp only
  all_goals (repeat' (first
    | with_reducible apply Only.refl
    | with_reducible apply chanPut_keep rfl
    | with_reducible apply Only.ite
    | split
    | dsimp only
    | intro _))
theorem dmaCont_keep {s : State} {c : Nat} (hs : sub 2097152 n_ = true) (hk_ : Only n_ a_ s) : Only n_ a_ (dmaCont s c) := dmaCont_only.step hs hk_

theorem dmaBegin_only {s : State} {c : Nat} {d : DmaDesc} : Only 2097168 s (dmaBegin s c d) := by
  unfold dmaBegin
  try dsimp only
  all_goals (repeat' (first
    | with_reducible apply Only.refl
    | with_reducible apply chanPut_keep rfl
    | with_reducible apply regPut_keep rfl
    | with_reducible apply regPut64_keep rfl
    | with_reducible apply Only.ite
    | split
    | dsimp only
    | intro _))
theorem dmaBegin_keep {s : State} {c : Nat} {d : DmaDesc} (hs : sub 2097168 n_ = true) (hk_ : Only n_ a_ s) : Only n_ a_ (dmaBegin s c d) := dmaBegin_only.step hs hk_

theorem dmaMay_only {s : State} {c : Nat} {a : Nat} {n : Nat} {k : AccKind} : Only 2128 s (dmaMay s c a n k).2 := by
  unfold dmaMay
  try dsimp only
  all_goals (repeat' (first
    | with_reducible apply Only.refl
    | with_reducible apply hemCheck_keep rfl
    | with_reducible apply hemCheck_keepE rfl (by assumption)
    | with_reducible apply Only.ite
    | with_reducible apply Only.ite2
    | split
    | dsimp only
    | intro _))
theorem dmaMay_keep {s : State} {c : Nat} {a : Nat} {n : Nat} {k : AccKind} (hs : sub 2128 n_ = true) (hk_ : Only n_ a_ s) : Only n_ a_ (dmaMay s c a n k).2 := dmaMay_only.step hs hk_
theorem dmaMay_keepE {s : State} {c : Nat} {a : Nat} {n : Nat} {k : AccKind} {y0_ : Nat} {t_ : State} (hs : sub 2128 n_ = true) (he : dmaMay s c a n k = (y0_, t_)) (hk_ : Only n_ a_ s) : Only n_ a_ t_ := by
  have := dmaMay_keep hs hk_ (s := s) (c := c) (a := a) (n := n) (k := k)
  rw [he] at this; exact this

theorem dmaStore_only {s : State} {c : Nat} {a : Nat} {bs : List Byte} {tainted : Bool} : Only 2196017 s (dmaStore s c a bs tainted) := by
  unfold dmaStore
  try dsimp only
  all_goals (repeat' (first
    | with_reducible apply Only.refl
    | with_reducible apply chanPut_keep rfl
    | with_reducible apply sqcSet_keep rfl
    | with_reducible apply bufWrite_keep rfl
    | with_reducible apply bufPut_keep rfl
    | with_reducible apply corePut_keep rfl
    | with_reducible apply hostWrite_keep rfl
    | with_reducible apply Only.ite
    | fail_if_no_progress (with_reducible apply Only.upd rfl)
    | split
    | dsimp only
    | intro _))
theorem dmaStore_keep {s : State} {c : Nat} {a : Nat} {bs : List Byte} {tainted : Bool} (hs : sub 2196017 n_ = true) (hk_ : Only n_ a_ s) : Only n_ a_ (dmaStore s c a bs tainted) := dmaStore_only.step hs hk_

theorem dmaFail_only {s : State} {c : Nat} {w : HostAccess} {translation : Bool} {addr : Nat} : Only 2164625 s (dmaFail s c w translation addr) := by
  unfold dmaFail
  try dsimp only
  all_goals (repeat' (first
    | with_reducible apply Only.refl
    | with_reducible apply dmaHalt_keep rfl
    | with_reducible apply retryPut_keep rfl
    | with_reducible apply Only.ite
    | split
    | dsimp only
    | intro _))
theorem dmaFail_keep {s : State} {c : Nat} {w : HostAccess} {translation : Bool} {addr : Nat} (hs : sub 2164625 n_ = true) (hk_ : Only n_ a_ s) : Only n_ a_ (dmaFail s c w translation addr) := dmaFail_only.step hs hk_

theorem dmaDescRead_only {s : State} {c : Nat} {data : HostRead} {translation : Bool} : Only 2166737 s (dmaDescRead s c data translation) := by
  unfold dmaDescRead
  try dsimp only
  all_goals (repeat' (first
    | with_reducible apply Only.refl
    | with_reducible apply dmaMay_keep rfl
    | with_reducible apply dmaMay_keepE rfl (by assumption)
    | with_reducible apply dmaFail_keep rfl
    | with_reducible apply retryDel_keep rfl
    | with_reducible apply dmaHalt_keep rfl
    | with_reducible apply dmaBegin_keep rfl
    | with_reducible apply chanPut_keep rfl
    | with_reducible apply Only.ite
    | with_reducible apply Only.ite2
    | split
    | dsimp only
    | intro _))
theorem dmaDescRead_keep {s : State} {c : Nat} {data : HostRead} {translation : Bool} (hs : sub 2166737 n_ = true) (hk_ : Only n_ a_ s) : Only n_ a_ (dmaDescRead s c data translation) := dmaDescRead_only.step hs hk_

theorem dmaEnd_only {s : State} {c : Nat} {d : DmaDesc} : Only 2163601 s (dmaEnd s c d) := by
  unfold dmaEnd
  try dsimp only
  all_goals (repeat' (first
    | with_reducible apply Only.refl
    | with_reducible apply regPut_keep rfl
    | with_reducible apply dmaEvent_keep rfl
    | with_reducible apply chanPut_keep rfl
    | with_reducible apply dmaBegin_keep rfl
    | with_reducible apply Only.ite
    | split
    | dsimp only
    | intro _))
theorem dmaEnd_keep {s : State} {c : Nat} {d : DmaDesc} (hs : sub 2163601 n_ = true) (hk_ : Only n_ a_ s) : Only n_ a_ (dmaEnd s c d) := dmaEnd_only.step hs hk_

theorem dmaPauseSoon_only {s : State} {c : Nat} : Only 2097152 s (dmaPauseSoon s c) := by
  unfold dmaPauseSoon
  try dsimp only
  all_goals (repeat' (first
    | with_reducible apply Only.refl
    | with_reducible apply chanPut_keep rfl
    | with_reducible apply dmaPause_keep rfl
    | with_reducible apply Only.ite
    | split
    | dsimp only
    | intro _))
theorem dmaPauseSoon_keep {s : State} {c : Nat} (hs : sub 2097152 n_ = true) (hk_ : Only n_ a_ s) : Only n_ a_ (dmaPauseSoon s c) := dmaPauseSoon_only.step hs hk_

theorem dmaAbortSoon_only {s : State} {c : Nat} : Only 2098176 s (dmaAbortSoon s c) := by
  unfold dmaAbortSoon
  try dsimp only
  all_goals (repeat' (first
    | with_reducible apply Only.refl
    | with_reducible apply chanPut_keep rfl
    | with_reducible apply dmaAbort_keep rfl
    | with_reducible apply Only.ite
    | split
    | dsimp only
    | intro _))
theorem dmaAbortSoon_keep {s : State} {c : Nat} (hs : sub 2098176 n_ = true) (hk_ : Only n_ a_ s) : Only n_ a_ (dmaAbortSoon s c) := dmaAbortSoon_only.step hs hk_

theorem dmaSettle_only {s : State} {c : Nat} : Only 2098176 s (dmaSettle s c) := by
  unfold dmaSettle
  try dsimp only
  all_goals (repeat' (first
    | with_reducible apply Only.refl
    | with_reducible apply chanPut_keep rfl
    | with_reducible apply dmaAbort_keep rfl
    | with_reducible apply dmaPause_keep rfl
    | with_reducible apply Only.ite
    | split
    | dsimp only
    | intro _))
theorem dmaSettle_keep {s : State} {c : Nat} (hs : sub 2098176 n_ = true) (hk_ : Only n_ a_ s) : Only n_ a_ (dmaSettle s c) := dmaSettle_only.step hs hk_

theorem dmaTake_only {path : RegPath} {m : Nat} {s : State} {c sa n : Nat} {data : HostRead} (hr : ∀ s a, Only m s (path.read s a).2) : Only m s (dmaTake path s c sa n data).2 := by
  unfold dmaTake
  split
  · exact hr _ _
  · exact .refl

theorem dmaMove_only {path : RegPath} {m : Nat} {s : State} {c : Nat} {d : DmaDesc} {sa da n : Nat} {bs : List Byte} (hm : sub 3246009 m = true) (hw : ∀ s a w, Only m s (path.write s a w)) : Only m s (dmaMove path s c d sa da n bs) := by
  unfold dmaMove
  dsimp only
  all_goals (repeat' (first
    | with_reducible apply Only.refl
    | with_reducible refine Only.trans ?_ (hw _ _ _)
    | with_reducible apply dmaSettle_keep (sub_trans rfl hm)
    | with_reducible apply dmaEnd_keep (sub_trans rfl hm)
    | with_reducible apply dmaEvent_keep (sub_trans rfl hm)
    | with_reducible apply regPut_keep (sub_trans rfl hm)
    | with_reducible apply chanPut_keep (sub_trans rfl hm)
    | with_reducible apply dmaStore_keep (sub_trans rfl hm)
    | with_reducible apply retryDel_keep (sub_trans rfl hm)
    | with_reducible apply touchFast_keep (sub_trans rfl hm)
    | with_reducible apply Only.ite
    | intro _))

theorem dmaGo_only {path : RegPath} {m : Nat} {s : State} {c : Nat} {d : DmaDesc} {sa da n : Nat} {data : HostRead} {translation : Bool} (hm : sub 3246009 m = true) (hr : ∀ s a, Only m s (path.read s a).2) (hw : ∀ s a w, Only m s (path.write s a w)) : Only m s (dmaGo path s c d sa da n data translation) := by
  unfold dmaGo
  dsimp only
  apply Only.ite <;> intro _
  · exact dmaFail_keep (sub_trans rfl hm) .refl
  · have h := dmaTake_only (s := s) (c := c) (sa := sa) (n := n) (data := data) hr
    split
    · rename_i he; rw [he] at h; exact dmaFail_keep (sub_trans rfl hm) h
    · rename_i he; rw [he] at h; exact h.trans (dmaMove_only (sub_trans rfl hm) hw)

theorem dmaDataRead_only {path : RegPath} {m : Nat} {s : State} {c : Nat} {data : HostRead} {translation : Bool} (hm : sub 3248121 m = true) (hr : ∀ s a, Only m s (path.read s a).2) (hw : ∀ s a w, Only m s (path.write s a w)) : Only m s (dmaDataRead path s c data translation) := by
  unfold dmaDataRead
  dsimp only
  split
  · apply Only.ite <;> intro _
    · exact dmaHalt_keep (sub_trans rfl hm) .refl
    · split
      · split
        · rename_i he
          have h := dmaMay_keepE (sub_trans rfl hm) he (.refl (m := m))
          split
          · rename_i he2; exact (dmaMay_keepE (sub_trans rfl hm) he2 h).trans (dmaGo_only (sub_trans rfl hm) hr hw)
          · rename_i he2; exact dmaHalt_keep (sub_trans rfl hm) (dmaMay_keepE (sub_trans rfl hm) he2 h)
        · rename_i he; exact dmaHalt_keep (sub_trans rfl hm) (dmaMay_keepE (sub_trans rfl hm) he (.refl (m := m)))
      · exact dmaHalt_keep (sub_trans rfl hm) .refl
      · exact dmaHalt_keep (sub_trans rfl hm) .refl
  · exact .refl

theorem dmaBy_only {s : State} {r : Requester} {c : Nat} {f : State → State} {m : Nat} (hm : sub 0 m = true) (hf : ∀ x0, Only m x0 (f x0)) : Only m s (dmaBy s r c f) := by
  unfold dmaBy
  try dsimp only
  all_goals (repeat' (first
    | with_reducible apply Only.refl
    | with_reducible assumption
    | with_reducible apply hf
    | with_reducible refine Only.trans ?_ (hf _)
    | with_reducible apply Only.ite
    | split
    | dsimp only
    | intro _))
theorem dmaBy_keep {s : State} {r : Requester} {c : Nat} {f : State → State} (hs : sub 0 n_ = true) (hf : ∀ x0, Only n_ x0 (f x0)) (hk_ : Only n_ a_ s) : Only n_ a_ (dmaBy s r c f) := hk_.trans (dmaBy_only hs hf)

theorem dmaStart_only {s : State} {c : Nat} : Only 2097152 s (dmaStart s c) := by
  unfold dmaStart
  try dsimp only
  all_goals (repeat' (first
    | with_reducible apply Only.refl
    | with_reducible apply chanPut_keep rfl
    | with_reducible apply Only.ite
    | split
    | dsimp only
    | intro _))
theorem dmaStart_keep {s : State} {c : Nat} (hs : sub 2097152 n_ = true) (hk_ : Only n_ a_ s) : Only n_ a_ (dmaStart s c) := dmaStart_only.step hs hk_

theorem dmaResume_only {s : State} {c : Nat} {hi : Word} : Only 2097152 s (dmaResume s c hi) := by
  unfold dmaResume
  try dsimp only
  all_goals (repeat' (first
    | with_reducible apply Only.refl
    | with_reducible apply chanPut_keep rfl
    | with_reducible apply Only.ite
    | split
    | dsimp only
    | intro _))
theorem dmaResume_keep {s : State} {c : Nat} {hi : Word} (hs : sub 2097152 n_ = true) (hk_ : Only n_ a_ s) : Only n_ a_ (dmaResume s c hi) := dmaResume_only.step hs hk_

theorem execDmaStart_only {r : Requester} {chan : Nat} {s : State} : OOnly 2097152 s (execDmaStart r chan s) := by
  unfold execDmaStart
  try dsimp only
  all_goals (repeat' (first
    | with_reducible apply Only.refl
    | with_reducible apply dmaBy_keep rfl
    | with_reducible apply dmaStart_keep rfl
    | with_reducible apply OOnly.ite
    | with_reducible apply OOnly.next
    | dsimp only
    | intro _))

theorem execDmaPause_only {r : Requester} {chan : Nat} {s : State} : OOnly 2097152 s (execDmaPause r chan s) := by
  unfold execDmaPause
  try dsimp only
  all_goals (repeat' (first
    | with_reducible apply Only.refl
    | with_reducible apply dmaBy_keep rfl
    | with_reducible apply dmaPauseSoon_keep rfl
    | with_reducible apply OOnly.ite
    | with_reducible apply OOnly.next
    | dsimp only
    | intro _))

theorem execDmaCont_only {r : Requester} {chan : Nat} {s : State} : OOnly 2097152 s (execDmaCont r chan s) := by
  unfold execDmaCont
  try dsimp only
  all_goals (repeat' (first
    | with_reducible apply Only.refl
    | with_reducible apply dmaBy_keep rfl
    | with_reducible apply dmaCont_keep rfl
    | with_reducible apply Only.ite
    | with_reducible apply OOnly.ite
    | with_reducible apply OOnly.next
    | split
    | dsimp only
    | intro _))

theorem execDmaAbort_only {r : Requester} {chan : Nat} {s : State} : OOnly 2098176 s (execDmaAbort r chan s) := by
  unfold execDmaAbort
  try dsimp only
  all_goals (repeat' (first
    | with_reducible apply Only.refl
    | with_reducible apply dmaBy_keep rfl
    | with_reducible apply dmaAbortSoon_keep rfl
    | with_reducible apply OOnly.ite
    | with_reducible apply OOnly.next
    | dsimp only
    | intro _))

theorem execDmaResume_only {r : Requester} {chan : Nat} {hi : Word} {s : State} : OOnly 2097152 s (execDmaResume r chan hi s) := by
  unfold execDmaResume
  try dsimp only
  all_goals (repeat' (first
    | with_reducible apply Only.refl
    | with_reducible apply dmaBy_keep rfl
    | with_reducible apply dmaResume_keep rfl
    | with_reducible apply OOnly.ite
    | with_reducible apply OOnly.next
    | dsimp only
    | intro _))

theorem execDmaDescriptorRead_only {chan : Nat} {data : HostRead} {translation : Bool} {s : State} : OOnly 2166737 s (execDmaDescriptorRead chan data translation s) := by
  unfold execDmaDescriptorRead
  try dsimp only
  all_goals (repeat' (first
    | with_reducible apply Only.refl
    | with_reducible apply dmaDescRead_keep rfl
    | with_reducible apply Only.ite
    | with_reducible apply OOnly.ite
    | with_reducible apply OOnly.next
    | split
    | dsimp only
    | intro _))

theorem execDmaTriggerPulse_only {chan : Nat} {s : State} : OOnly 2097168 s (execDmaTriggerPulse chan s) := by
  unfold execDmaTriggerPulse
  try dsimp only
  all_goals (repeat' (first
    | with_reducible apply Only.refl
    | with_reducible apply trigPulse_keep rfl
    | with_reducible apply Only.ite
    | with_reducible apply OOnly.ite
    | with_reducible apply OOnly.next
    | split
    | dsimp only
    | intro _))

theorem evtFire_only {s : State} {line : Nat} : Only 2162704 s (evtFire s line) := by
  unfold evtFire
  try dsimp only
  all_goals (repeat' (first
    | with_reducible apply Only.refl
    | with_reducible apply linePulse_keep rfl
    | with_reducible apply Only.ite
    | split
    | dsimp only
    | intro _))
theorem evtFire_keep {s : State} {line : Nat} (hs : sub 2162704 n_ = true) (hk_ : Only n_ a_ s) : Only n_ a_ (evtFire s line) := evtFire_only.step hs hk_

theorem execEvtFire_only {line : Nat} {s : State} : OOnly 2162704 s (execEvtFire line s) := by
  unfold execEvtFire
  try dsimp only
  all_goals (repeat' (first
    | with_reducible apply Only.refl
    | with_reducible apply evtFire_keep rfl
    | with_reducible apply Only.ite
    | with_reducible apply OOnly.ite
    | with_reducible apply OOnly.next
    | split
    | dsimp only
    | intro _))

theorem execEventTimer_only {timer : Nat} {s : State} : OOnly 2162704 s (execEventTimer timer s) := by
  unfold execEventTimer
  try dsimp only
  all_goals (repeat' (first
    | with_reducible apply Only.refl
    | with_reducible apply evPulse_keep rfl
    | with_reducible apply Only.ite
    | with_reducible apply OOnly.ite
    | with_reducible apply OOnly.next
    | fail_if_no_progress (with_reducible apply Only.upd rfl)
    | split
    | dsimp only
    | intro _))

theorem timerSet_only {s : State} {t : Nat} {w : Word} : Only 2097168 s (timerSet s t w) := by
  unfold timerSet
  try dsimp only
  all_goals (repeat' (first
    | with_reducible apply Only.refl
    | with_reducible apply regPut_keep rfl
    | fail_if_no_progress (with_reducible apply Only.upd rfl)
    | dsimp only
    | intro _))
theorem timerSet_keep {s : State} {t : Nat} {w : Word} (hs : sub 2097168 n_ = true) (hk_ : Only n_ a_ s) : Only n_ a_ (timerSet s t w) := timerSet_only.step hs hk_

theorem gpioSecure_only {s : State} {v : Word} : Only 16 s (gpioSecure s v) := by
  unfold gpioSecure
  try dsimp only
  all_goals (repeat' (first
    | with_reducible apply Only.refl
    | with_reducible apply regPut_keep rfl
    | with_reducible apply Only.foldl
    | with_reducible apply Only.foldl2
    | dsimp only
    | intro _))
theorem gpioSecure_keep {s : State} {v : Word} (hs : sub 16 n_ = true) (hk_ : Only n_ a_ s) : Only n_ a_ (gpioSecure s v) := gpioSecure_only.step hs hk_

theorem execDmaGrant_only {tag : Nat} {s : State} : OOnly 552017 s (execDmaGrant tag s) := by
  unfold execDmaGrant
  try dsimp only
  all_goals (repeat' (first
    | with_reducible apply Only.refl
    | with_reducible apply runCmd_only rfl
    | with_reducible apply endOk_keep rfl
    | with_reducible apply regPut_keep rfl
    | with_reducible apply Only.foldl
    | with_reducible apply Only.foldl2
    | with_reducible apply OOnly.ite
    | with_reducible apply OOnly.next
    | dsimp only
    | intro _))

theorem execDmaRevoke_only {tag : Nat} {s : State} : OOnly 2649169 s (execDmaRevoke tag s) := by
  unfold execDmaRevoke
  try dsimp only
  all_goals (repeat' (first
    | with_reducible apply Only.refl
    | with_reducible apply runCmd_only rfl
    | with_reducible apply dmaAbortSoon_keep rfl
    | with_reducible apply endOk_keep rfl
    | with_reducible apply regSetBit_keep rfl
    | with_reducible apply Only.foldl
    | with_reducible apply Only.foldl2
    | with_reducible apply Only.ite
    | with_reducible apply OOnly.ite
    | with_reducible apply OOnly.next
    | split
    | dsimp only
    | intro _))

theorem execEvtRoute_only {tag : Nat} {s : State} : OOnly 2649169 s (execEvtRoute tag s) := by
  unfold execEvtRoute
  try dsimp only
  all_goals (repeat' (first
    | with_reducible apply Only.refl
    | with_reducible apply runCmd_only rfl
    | with_reducible apply regPut_keep rfl
    | with_reducible apply timerSet_keep rfl
    | with_reducible apply endOk_keep rfl
    | with_reducible apply Only.foldl
    | with_reducible apply Only.foldl2
    | with_reducible apply Only.ite
    | with_reducible apply OOnly.ite
    | with_reducible apply OOnly.next
    | split
    | dsimp only
    | intro _))

theorem sliceNote_only {s : State} {n : Nat} : Only 16385 s (sliceNote s n) := by
  unfold sliceNote
  try dsimp only
  all_goals (repeat' (first
    | with_reducible apply Only.refl
    | with_reducible apply jot_keep rfl
    | dsimp only
    | intro _))
theorem sliceNote_keep {s : State} {n : Nat} (hs : sub 16385 n_ = true) (hk_ : Only n_ a_ s) : Only n_ a_ (sliceNote s n) := sliceNote_only.step hs hk_

theorem clearPba_only {s : State} {n : Nat} : Only 384 s (clearPba s n) := by
  unfold clearPba
  try dsimp only
  all_goals (repeat' (first
    | with_reducible apply Only.refl
    | with_reducible apply fnPut_keep rfl
    | with_reducible apply Only.foldl
    | with_reducible apply Only.foldl2
    | dsimp only
    | intro _))
theorem clearPba_keep {s : State} {n : Nat} (hs : sub 384 n_ = true) (hk_ : Only n_ a_ s) : Only n_ a_ (clearPba s n) := clearPba_only.step hs hk_

theorem unpark_only {s : State} {n : Nat} : Only 897 s (unpark s n) := by
  unfold unpark
  try dsimp only
  all_goals (repeat' (first
    | with_reducible apply Only.refl
    | with_reducible apply raiseMsix_keep rfl
    | with_reducible apply slicePut_keep rfl
    | with_reducible apply Only.foldl
    | with_reducible apply Only.foldl2
    | dsimp only
    | intro _))
theorem unpark_keep {s : State} {n : Nat} (hs : sub 897 n_ = true) (hk_ : Only n_ a_ s) : Only n_ a_ (unpark s n) := unpark_only.step hs hk_

theorem resetBegin_only {s : State} {n : Nat} {by_ : Option Nat} : Only 552529 s (resetBegin s n by_) := by
  unfold resetBegin
  try dsimp only
  all_goals (repeat' (first
    | with_reducible apply Only.refl
    | with_reducible apply slicePut_keep rfl
    | with_reducible apply endBefore_keep rfl
    | with_reducible apply Only.foldl
    | with_reducible apply Only.foldl2
    | with_reducible apply Only.ite
    | fail_if_no_progress (with_reducible apply Only.upd rfl)
    | split
    | dsimp only
    | intro _))
theorem resetBegin_keep {s : State} {n : Nat} {by_ : Option Nat} (hs : sub 552529 n_ = true) (hk_ : Only n_ a_ s) : Only n_ a_ (resetBegin s n by_) := resetBegin_only.step hs hk_

theorem resetFree_only {s : State} {n : Nat} : Only 2524160 s (resetFree s n) := by
  unfold resetFree
  try dsimp only
  all_goals (repeat' (first
    | with_reducible apply Only.refl
    | with_reducible apply dmaAbort_keep rfl
    | with_reducible apply ctxEndAll_keep rfl
    | with_reducible apply queueMod_keep rfl
    | with_reducible apply hmpReleaseAll_keep rfl
    | with_reducible apply Only.foldl
    | with_reducible apply Only.foldl2
    | dsimp only
    | intro _))
theorem resetFree_keep {s : State} {n : Nat} (hs : sub 2524160 n_ = true) (hk_ : Only n_ a_ s) : Only n_ a_ (resetFree s n) := resetFree_only.step hs hk_

theorem resetEnd_only {s : State} {n : Nat} : Only 567168 s (resetEnd s n) := by
  unfold resetEnd
  try dsimp only
  all_goals (repeat' (first
    | with_reducible apply Only.refl
    | with_reducible apply cmdRelease_keep rfl
    | with_reducible apply clearPba_keep rfl
    | with_reducible apply slicePut_keep rfl
    | with_reducible apply Only.foldl
    | with_reducible apply Only.foldl2
    | dsimp only
    | intro _))
theorem resetEnd_keep {s : State} {n : Nat} (hs : sub 567168 n_ = true) (hk_ : Only n_ a_ s) : Only n_ a_ (resetEnd s n) := resetEnd_only.step hs hk_

theorem unbind_only {s : State} {n : Nat} : Only 8704 s (unbind s n) := by
  unfold unbind
  try dsimp only
  all_goals (repeat' (first
    | with_reducible apply Only.refl
    | with_reducible apply slicePut_keep rfl
    | with_reducible apply Only.ite
    | fail_if_no_progress (with_reducible apply Only.upd rfl)
    | split
    | dsimp only
    | intro _))
theorem unbind_keep {s : State} {n : Nat} (hs : sub 8704 n_ = true) (hk_ : Only n_ a_ s) : Only n_ a_ (unbind s n) := unbind_only.step hs hk_

theorem resetAnswer_only {s : State} {n : Nat} {tag : Nat} : Only 585681 s (resetAnswer s n tag) := by
  unfold resetAnswer
  try dsimp only
  all_goals (repeat' (first
    | with_reducible apply Only.refl
    | with_reducible apply endOk_keep rfl
    | with_reducible apply cmdRelease_keep rfl
    | with_reducible apply writeComp_keep rfl
    | with_reducible apply Only.ite
    | split
    | dsimp only
    | intro _))
theorem resetAnswer_keep {s : State} {n : Nat} {tag : Nat} (hs : sub 585681 n_ = true) (hk_ : Only n_ a_ s) : Only n_ a_ (resetAnswer s n tag) := resetAnswer_only.step hs hk_

theorem resetStep_only {s : State} {n : Nat} : Only 3076049 s (resetStep s n) := by
  unfold resetStep
  try dsimp only
  all_goals (repeat' (first
    | with_reducible apply Only.refl
    | with_reducible apply resetEnd_keep rfl
    | with_reducible apply resetFree_keep rfl
    | with_reducible apply resetAnswer_keep rfl
    | with_reducible apply sliceNote_keep rfl
    | with_reducible apply unbind_keep rfl
    | with_reducible apply endOk_keep rfl
    | with_reducible apply Only.ite
    | split
    | dsimp only
    | intro _))
theorem resetStep_keep {s : State} {n : Nat} (hs : sub 3076049 n_ = true) (hk_ : Only n_ a_ s) : Only n_ a_ (resetStep s n) := resetStep_only.step hs hk_

theorem resetSlices_only {s : State} {p : Nat} : Only 3076049 s (resetSlices s p) := by
  unfold resetSlices
  try dsimp only
  all_goals (repeat' (first
    | with_reducible apply Only.refl
    | with_reducible apply resetStep_keep rfl
    | with_reducible apply resetBegin_keep rfl
    | with_reducible apply Only.foldl
    | with_reducible apply Only.foldl2
    | dsimp only
    | intro _))
theorem resetSlices_keep {s : State} {p : Nat} (hs : sub 3076049 n_ = true) (hk_ : Only n_ a_ s) : Only n_ a_ (resetSlices s p) := resetSlices_only.step hs hk_

theorem execSliceReset_only {tag : Nat} {s : State} : OOnly 3076049 s (execSliceReset tag s) := by
  unfold execSliceReset
  try dsimp only
  all_goals (repeat' (first
    | with_reducible apply Only.refl
    | with_reducible apply runCmd_only rfl
    | with_reducible apply endOk_keep rfl
    | with_reducible apply resetStep_keep rfl
    | with_reducible apply resetBegin_keep rfl
    | with_reducible apply Only.ite
    | with_reducible apply OOnly.ite
    | with_reducible apply OOnly.next
    | split
    | dsimp only
    | intro _))

theorem execSliceDestroy_only {tag : Nat} {s : State} : OOnly 3076049 s (execSliceDestroy tag s) := by
  unfold execSliceDestroy
  try dsimp only
  all_goals (repeat' (first
    | with_reducible apply Only.refl
    | with_reducible apply runCmd_only rfl
    | with_reducible apply resetStep_keep rfl
    | with_reducible apply resetBegin_keep rfl
    | with_reducible apply endOk_keep rfl
    | with_reducible apply Only.ite
    | with_reducible apply OOnly.ite
    | with_reducible apply OOnly.next
    | split
    | dsimp only
    | intro _))

theorem execSliceCreate_only {tag : Nat} {io : HostIO} {s : State} : OOnly 585297 s (execSliceCreate tag io s) := by
  unfold execSliceCreate
  try dsimp only
  all_goals (repeat' (first
    | with_reducible apply Only.refl
    | with_reducible apply runIn_only rfl
    | with_reducible apply endOk_keep rfl
    | with_reducible apply sliceNote_keep rfl
    | with_reducible apply reserveNote_keep rfl
    | with_reducible apply slicePut_keep rfl
    | with_reducible apply Only.ite
    | with_reducible apply OOnly.ite
    | with_reducible apply OOnly.next
    | split
    | dsimp only
    | intro _))

theorem execSliceResize_only {tag : Nat} {io : HostIO} {s : State} : OOnly 585297 s (execSliceResize tag io s) := by
  unfold execSliceResize
  try dsimp only
  all_goals (repeat' (first
    | with_reducible apply Only.refl
    | with_reducible apply runIn_only rfl
    | with_reducible apply endOk_keep rfl
    | with_reducible apply sliceNote_keep rfl
    | with_reducible apply reserveNote_keep rfl
    | with_reducible apply slicePut_keep rfl
    | with_reducible apply OOnly.ite
    | with_reducible apply OOnly.next
    | dsimp only
    | intro _))

theorem execSliceSetQos_only {tag : Nat} {s : State} : OOnly 552529 s (execSliceSetQos tag s) := by
  unfold execSliceSetQos
  try dsimp only
  all_goals (repeat' (first
    | with_reducible apply Only.refl
    | with_reducible apply runCmd_only rfl
    | with_reducible apply endOk_keep rfl
    | with_reducible apply sliceNote_keep rfl
    | with_reducible apply slicePut_keep rfl
    | with_reducible apply Only.ite
    | with_reducible apply OOnly.ite
    | with_reducible apply OOnly.next
    | split
    | dsimp only
    | intro _))

theorem execSliceSetVectors_only {tag : Nat} {s : State} : OOnly 552913 s (execSliceSetVectors tag s) := by
  unfold execSliceSetVectors
  try dsimp only
  all_goals (repeat' (first
    | with_reducible apply Only.refl
    | with_reducible apply runCmd_only rfl
    | with_reducible apply clearPba_keep rfl
    | with_reducible apply slicePut_keep rfl
    | with_reducible apply unpark_keep rfl
    | with_reducible apply endOk_keep rfl
    | with_reducible apply sliceNote_keep rfl
    | with_reducible apply Only.ite
    | with_reducible apply OOnly.ite
    | with_reducible apply OOnly.next
    | split
    | dsimp only
    | intro _))

theorem execSliceInfo_only {tag : Nat} {io : HostIO} {s : State} : OOnly 552529 s (execSliceInfo tag io s) := by
  unfold execSliceInfo
  try dsimp only
  all_goals (repeat' (first
    | with_reducible apply Only.refl
    | with_reducible apply runCmd_only rfl
    | with_reducible apply endOut_keep rfl
    | with_reducible apply OOnly.ite
    | with_reducible apply OOnly.next
    | dsimp only
    | intro _))

theorem execSliceSaveLogStart_only {tag : Nat} {s : State} : OOnly 552529 s (execSliceSaveLogStart tag s) := by
  unfold execSliceSaveLogStart
  try dsimp only
  all_goals (repeat' (first
    | with_reducible apply Only.refl
    | with_reducible apply runCmd_only rfl
    | with_reducible apply endOk_keep rfl
    | with_reducible apply sliceNote_keep rfl
    | with_reducible apply slicePut_keep rfl
    | with_reducible apply Only.ite
    | with_reducible apply OOnly.ite
    | with_reducible apply OOnly.next
    | split
    | dsimp only
    | intro _))

theorem execSliceSaveLogEnd_only {tag : Nat} {s : State} : OOnly 552529 s (execSliceSaveLogEnd tag s) := by
  unfold execSliceSaveLogEnd
  try dsimp only
  all_goals (repeat' (first
    | with_reducible apply Only.refl
    | with_reducible apply runCmd_only rfl
    | with_reducible apply endOk_keep rfl
    | with_reducible apply sliceNote_keep rfl
    | with_reducible apply slicePut_keep rfl
    | with_reducible apply Only.ite
    | with_reducible apply OOnly.ite
    | with_reducible apply OOnly.next
    | split
    | dsimp only
    | intro _))

theorem freezeChans_only {s : State} {n : Nat} : Only 2097152 s (freezeChans s n) := by
  unfold freezeChans
  try dsimp only
  all_goals (repeat' (first
    | with_reducible apply Only.refl
    | with_reducible apply dmaPause_keep rfl
    | with_reducible apply chanPut_keep rfl
    | with_reducible apply Only.foldl
    | with_reducible apply Only.foldl2
    | with_reducible apply Only.ite
    | split
    | dsimp only
    | intro _))
theorem freezeChans_keep {s : State} {n : Nat} (hs : sub 2097152 n_ = true) (hk_ : Only n_ a_ s) : Only n_ a_ (freezeChans s n) := freezeChans_only.step hs hk_

theorem thawChans_only {s : State} {n : Nat} : Only 2097152 s (thawChans s n) := by
  unfold thawChans
  try dsimp only
  all_goals (repeat' (first
    | with_reducible apply Only.refl
    | with_reducible apply dmaCont_keep rfl
    | with_reducible apply chanPut_keep rfl
    | with_reducible apply Only.foldl
    | with_reducible apply Only.foldl2
    | with_reducible apply Only.ite
    | split
    | dsimp only
    | intro _))
theorem thawChans_keep {s : State} {n : Nat} (hs : sub 2097152 n_ = true) (hk_ : Only n_ a_ s) : Only n_ a_ (thawChans s n) := thawChans_only.step hs hk_

theorem saveFreeze_only {s : State} {n : Nat} {tag : Nat} {io : HostIO} : Only 2649681 s (saveFreeze s n tag io) := by
  unfold saveFreeze
  try dsimp only
  all_goals (repeat' (first
    | with_reducible apply Only.refl
    | with_reducible apply freezeChans_keep rfl
    | with_reducible apply slicePut_keep rfl
    | with_reducible apply endOut_keep rfl
    | with_reducible apply sliceNote_keep rfl
    | fail_if_no_progress (with_reducible apply Only.upd rfl)
    | dsimp only
    | intro _))
theorem saveFreeze_keep {s : State} {n : Nat} {tag : Nat} {io : HostIO} (hs : sub 2649681 n_ = true) (hk_ : Only n_ a_ s) : Only n_ a_ (saveFreeze s n tag io) := saveFreeze_only.step hs hk_

theorem execSliceSaveStop_only {tag : Nat} {io : HostIO} {s : State} : OOnly 2649681 s (execSliceSaveStop tag io s) := by
  unfold execSliceSaveStop
  try dsimp only
  all_goals (repeat' (first
    | with_reducible apply Only.refl
    | with_reducible apply runCmd_only rfl
    | with_reducible apply slicePut_keep rfl
    | with_reducible apply saveFreeze_keep rfl
    | with_reducible apply Only.ite
    | with_reducible apply OOnly.ite
    | with_reducible apply OOnly.next
    | split
    | dsimp only
    | intro _))

theorem execSliceRestore_only {tag : Nat} {io : HostIO} {s : State} : OOnly 2650065 s (execSliceRestore tag io s) := by
  unfold execSliceRestore
  try dsimp only
  all_goals (repeat' (first
    | with_reducible apply Only.refl
    | with_reducible apply runIn_only rfl
    | with_reducible apply endFault_keep rfl
    | with_reducible apply slicePut_keep rfl
    | with_reducible apply endOk_keep rfl
    | with_reducible apply sliceNote_keep rfl
    | with_reducible apply unpark_keep rfl
    | with_reducible apply thawChans_keep rfl
    | with_reducible apply Only.foldl
    | with_reducible apply Only.foldl2
    | with_reducible apply OOnly.ite
    | with_reducible apply OOnly.next
    | split
    | dsimp only
    | intro _))

theorem execSliceHarvest_only {tag : Nat} {io : HostIO} {s : State} : OOnly 552529 s (execSliceHarvest tag io s) := by
  unfold execSliceHarvest
  try dsimp only
  all_goals (repeat' (first
    | with_reducible apply Only.refl
    | with_reducible apply runCmd_only rfl
    | with_reducible apply endFault_keep rfl
    | with_reducible apply endOut_keep rfl
    | with_reducible apply slicePut_keep rfl
    | with_reducible apply Only.foldl
    | with_reducible apply Only.foldl2
    | with_reducible apply OOnly.ite
    | with_reducible apply OOnly.next
    | split
    | dsimp only
    | intro _))

theorem halfRandom_only {s : State} {p : PkPar} {half : Nat} : Only 1048600 s (halfRandom s p half).2 := by
  unfold halfRandom
  try dsimp only
  all_goals (repeat' (first
    | with_reducible apply Only.refl
    | with_reducible apply draw_keep rfl
    | with_reducible apply draw_keepE rfl (by assumption)
    | with_reducible apply Only.ite
    | with_reducible apply Only.ite2
    | split
    | dsimp only
    | intro _))
theorem halfRandom_keep {s : State} {p : PkPar} {half : Nat} (hs : sub 1048600 n_ = true) (hk_ : Only n_ a_ s) : Only n_ a_ (halfRandom s p half).2 := halfRandom_only.step hs hk_
theorem halfRandom_keepE {s : State} {p : PkPar} {half : Nat} {y0_ : List Byte} {t_ : State} (hs : sub 1048600 n_ = true) (he : halfRandom s p half = (y0_, t_)) (hk_ : Only n_ a_ s) : Only n_ a_ t_ := by
  have := halfRandom_keep hs hk_ (s := s) (p := p) (half := half)
  rw [he] at this; exact this

theorem opRandom_only {s : State} {c : Cmd} {i : Nat} : Only 1048600 s (opRandom s c i).2 := by
  unfold opRandom
  try dsimp only
  all_goals (repeat' (first
    | with_reducible apply Only.refl
    | with_reducible apply halfRandom_keep rfl
    | with_reducible apply halfRandom_keepE rfl (by assumption)
    | with_reducible apply draw_keep rfl
    | with_reducible apply draw_keepE rfl (by assumption)
    | split
    | dsimp only
    | intro _))
theorem opRandom_keep {s : State} {c : Cmd} {i : Nat} (hs : sub 1048600 n_ = true) (hk_ : Only n_ a_ s) : Only n_ a_ (opRandom s c i).2 := opRandom_only.step hs hk_
theorem opRandom_keepE {s : State} {c : Cmd} {i : Nat} {y0_ : List Byte} {t_ : State} (hs : sub 1048600 n_ = true) (he : opRandom s c i = (y0_, t_)) (hk_ : Only n_ a_ s) : Only n_ a_ t_ := by
  have := opRandom_keep hs hk_ (s := s) (c := c) (i := i)
  rw [he] at this; exact this

theorem pairQueue_only {s : State} {tag : Nat} {c : Cmd} : Only 525312 s (pairQueue s tag c) := by
  unfold pairQueue
  try dsimp only
  all_goals (repeat' (first
    | with_reducible apply Only.refl
    | with_reducible apply waitAdd_keep rfl
    | with_reducible apply cmdPut_keep rfl
    | fail_if_no_progress (with_reducible apply Only.upd rfl)
    | dsimp only
    | intro _))
theorem pairQueue_keep {s : State} {tag : Nat} {c : Cmd} (hs : sub 525312 n_ = true) (hk_ : Only n_ a_ s) : Only n_ a_ (pairQueue s tag c) := pairQueue_only.step hs hk_

theorem pairLeave_only {s : State} {tag : Nat} {c : Cmd} {ra : List Byte} {rb : List Byte} : Only 525312 s (pairLeave s tag c ra rb) := by
  unfold pairLeave
  try dsimp only
  all_goals (repeat' (first
    | with_reducible apply Only.refl
    | with_reducible apply mangleTake_keep rfl
    | with_reducible apply cmdPut_keep rfl
    | with_reducible apply mangleEnter2_keep rfl
    | with_reducible apply Only.ite
    | fail_if_no_progress (with_reducible apply Only.upd rfl)
    | split
    | dsimp only
    | intro _))
theorem pairLeave_keep {s : State} {tag : Nat} {c : Cmd} {ra : List Byte} {rb : List Byte} (hs : sub 525312 n_ = true) (hk_ : Only n_ a_ s) : Only n_ a_ (pairLeave s tag c ra rb) := pairLeave_only.step hs hk_

theorem opEnter_only {s : State} {tag : Nat} {c : Cmd} {i : Nat} : Only 1572888 s (opEnter s tag c i) := by
  unfold opEnter
  try dsimp only
  all_goals (repeat' (first
    | with_reducible apply Only.refl
    | with_reducible apply opRandom_keep rfl
    | with_reducible apply opRandom_keepE rfl (by assumption)
    | with_reducible apply mangleEnter_keep rfl
    | split
    | dsimp only
    | intro _))
theorem opEnter_keep {s : State} {tag : Nat} {c : Cmd} {i : Nat} (hs : sub 1572888 n_ = true) (hk_ : Only n_ a_ s) : Only n_ a_ (opEnter s tag c i) := opEnter_only.step hs hk_

theorem mangleStart_only {s0 : State} {tag : Nat} {c : Cmd} : Only 1573914 s0 (mangleStart s0 tag c) := by
  unfold mangleStart
  try dsimp only
  all_goals (repeat' (first
    | with_reducible apply Only.refl
    | with_reducible apply touchFast_keep rfl
    | with_reducible apply drawBlinding_keep rfl
    | with_reducible apply opRandom_keep rfl
    | with_reducible apply opRandom_keepE rfl (by assumption)
    | with_reducible apply pairLeave_keep rfl
    | with_reducible apply opEnter_keep rfl
    | with_reducible apply Only.foldl
    | with_reducible apply Only.foldl2
    | with_reducible apply Only.ite
    | with_reducible apply Only.ite2
    | split
    | dsimp only
    | intro _))
theorem mangleStart_keep {s0 : State} {tag : Nat} {c : Cmd} (hs : sub 1573914 n_ = true) (hk_ : Only n_ a_ s0) : Only n_ a_ (mangleStart s0 tag c) := mangleStart_only.step hs hk_

theorem pkInput_only {s : State} {tag : Nat} {op : Nat} {io : HostIO} : OOnly 814161 s (pkInput s tag op io) := by
  unfold pkInput
  try dsimp only
  all_goals (repeat' (first
    | with_reducible apply Only.refl
    | with_reducible apply runIn_only rfl
    | with_reducible apply mangleSet_keep rfl
    | with_reducible apply setWork_keep rfl
    | with_reducible apply mangleLeave_keep rfl
    | with_reducible apply Only.ite
    | with_reducible apply OOnly.ite
    | with_reducible apply OOnly.next
    | with_reducible apply OOnly.of (by assumption)
    | split
    | dsimp only
    | intro _))

theorem execPkSign_only {tag : Nat} {io : HostIO} {s : State} : OOnly 814161 s (execPkSign tag io s) := by
  unfold execPkSign
  try dsimp only
  all_goals (repeat' (first
    | with_reducible apply Only.refl
    | with_reducible apply OOnly.mono rfl pkInput_only
    | with_reducible apply OOnly.ite
    | with_reducible apply OOnly.next
    | dsimp only
    | intro _))

theorem execPkVerify_only {tag : Nat} {io : HostIO} {s : State} : OOnly 814161 s (execPkVerify tag io s) := by
  unfold execPkVerify
  try dsimp only
  all_goals (repeat' (first
    | with_reducible apply Only.refl
    | with_reducible apply OOnly.mono rfl pkInput_only
    | with_reducible apply OOnly.ite
    | with_reducible apply OOnly.next
    | dsimp only
    | intro _))

theorem execPkAgree_only {tag : Nat} {io : HostIO} {s : State} : OOnly 814161 s (execPkAgree tag io s) := by
  unfold execPkAgree
  try dsimp only
  all_goals (repeat' (first
    | with_reducible apply Only.refl
    | with_reducible apply OOnly.mono rfl pkInput_only
    | with_reducible apply OOnly.ite
    | with_reducible apply OOnly.next
    | dsimp only
    | intro _))

theorem execPkEncapsulate_only {tag : Nat} {io : HostIO} {s : State} : OOnly 814161 s (execPkEncapsulate tag io s) := by
  unfold execPkEncapsulate
  try dsimp only
  all_goals (repeat' (first
    | with_reducible apply Only.refl
    | with_reducible apply OOnly.mono rfl pkInput_only
    | with_reducible apply OOnly.ite
    | with_reducible apply OOnly.next
    | dsimp only
    | intro _))

theorem execPkDecapsulate_only {tag : Nat} {io : HostIO} {s : State} : OOnly 814161 s (execPkDecapsulate tag io s) := by
  unfold execPkDecapsulate
  try dsimp only
  all_goals (repeat' (first
    | with_reducible apply Only.refl
    | with_reducible apply OOnly.mono rfl pkInput_only
    | with_reducible apply OOnly.ite
    | with_reducible apply OOnly.next
    | dsimp only
    | intro _))

theorem execPkVerifyBatch_only {tag : Nat} {io : HostIO} {s : State} : OOnly 814161 s (execPkVerifyBatch tag io s) := by
  unfold execPkVerifyBatch
  try dsimp only
  all_goals (repeat' (first
    | with_reducible apply Only.refl
    | with_reducible apply OOnly.mono rfl pkInput_only
    | with_reducible apply OOnly.ite
    | with_reducible apply OOnly.next
    | dsimp only
    | intro _))

theorem pkPublic_only {s : State} {tag : Nat} {c : Cmd} {io : HostIO} : Only 552529 s (pkPublic s tag c io) := by
  unfold pkPublic
  try dsimp only
  all_goals (repeat' (first
    | with_reducible apply Only.refl
    | with_reducible apply endAfter_keep rfl
    | with_reducible apply endOut_keep rfl
    | split
    | dsimp only
    | intro _))
theorem pkPublic_keep {s : State} {tag : Nat} {c : Cmd} {io : HostIO} (hs : sub 552529 n_ = true) (hk_ : Only n_ a_ s) : Only n_ a_ (pkPublic s tag c io) := pkPublic_only.step hs hk_

theorem execPkGetPublic_only {tag : Nat} {io : HostIO} {s : State} : OOnly 814673 s (execPkGetPublic tag io s) := by
  unfold execPkGetPublic
  try dsimp only
  all_goals (repeat' (first
    | with_reducible apply Only.refl
    | with_reducible apply OOnly.mono rfl pkInput_only
    | with_reducible apply runCmd_only rfl
    | with_reducible apply pkPublic_keep rfl
    | with_reducible apply Only.ite
    | with_reducible apply OOnly.ite
    | with_reducible apply OOnly.next
    | split
    | dsimp only
    | intro _))

theorem rsaWrong_only {s : State} {owner : Nat} {h : Nat} : Only 2128 s (rsaWrong s owner h) := by
  unfold rsaWrong
  try dsimp only
  all_goals (repeat' (first
    | with_reducible apply Only.refl
    | with_reducible apply tallyPut_keep rfl
    | dsimp only
    | intro _))
theorem rsaWrong_keep {s : State} {owner : Nat} {h : Nat} (hs : sub 2128 n_ = true) (hk_ : Only n_ a_ s) : Only n_ a_ (rsaWrong s owner h) := rsaWrong_only.step hs hk_

theorem signHalfDone_only {s : State} {tag : Nat} {c : Cmd} {half : Nat} {priv : List Byte} {r : List Byte} {wrong : Bool} : Only 1024 s (signHalfDone s tag c half priv r wrong) := by
  unfold signHalfDone
  try dsimp only
  all_goals (repeat' (first
    | with_reducible apply Only.refl
    | with_reducible apply setWork_keep rfl
    | with_reducible apply Only.ite
    | split
    | dsimp only
    | intro _))
theorem signHalfDone_keep {s : State} {tag : Nat} {c : Cmd} {half : Nat} {priv : List Byte} {r : List Byte} {wrong : Bool} (hs : sub 1024 n_ = true) (hk_ : Only n_ a_ s) : Only n_ a_ (signHalfDone s tag c half priv r wrong) := signHalfDone_only.step hs hk_

theorem signDone_only {s : State} {tag : Nat} {c : Cmd} {io : HostIO} : Only 552529 s (signDone s tag c io) := by
  unfold signDone
  try dsimp only
  all_goals (repeat' (first
    | with_reducible apply Only.refl
    | with_reducible apply rsaWrong_keep rfl
    | with_reducible apply endAfter_keep rfl
    | with_reducible apply endOut_keep rfl
    | with_reducible apply Only.ite
    | split
    | dsimp only
    | intro _))
theorem signDone_keep {s : State} {tag : Nat} {c : Cmd} {io : HostIO} (hs : sub 552529 n_ = true) (hk_ : Only n_ a_ s) : Only n_ a_ (signDone s tag c io) := signDone_only.step hs hk_

theorem verifyDone_only {s : State} {tag : Nat} {c : Cmd} : Only 552017 s (verifyDone s tag c) := by
  unfold verifyDone
  try dsimp only
  all_goals (repeat' (first
    | with_reducible apply Only.refl
    | with_reducible apply endAfter_keep rfl
    | dsimp only
    | intro _))
theorem verifyDone_keep {s : State} {tag : Nat} {c : Cmd} (hs : sub 552017 n_ = true) (hk_ : Only n_ a_ s) : Only n_ a_ (verifyDone s tag c) := verifyDone_only.step hs hk_

theorem batchDone_only {s : State} {tag : Nat} {c : Cmd} {io : HostIO} : Only 552529 s (batchDone s tag c io) := by
  unfold batchDone
  try dsimp only
  all_goals (repeat' (first
    | with_reducible apply Only.refl
    | with_reducible apply endOut_keep rfl
    | with_reducible apply Only.foldl
    | with_reducible apply Only.foldl2
    | with_reducible apply Only.ite
    | split
    | dsimp only
    | intro _))
theorem batchDone_keep {s : State} {tag : Nat} {c : Cmd} {io : HostIO} (hs : sub 552529 n_ = true) (hk_ : Only n_ a_ s) : Only n_ a_ (batchDone s tag c io) := batchDone_only.step hs hk_

theorem giveSecret_only {s : State} {tag : Nat} {c : Cmd} {t : Nat} {secret : List Byte} {more : List Byte} : Only 4195328 s (giveSecret s tag c t secret more) := by
  unfold giveSecret
  try dsimp only
  all_goals (repeat' (first
    | with_reducible apply Only.refl
    | with_reducible apply setWork_keep rfl
    | with_reducible apply thmAsk_keep rfl
    | split
    | dsimp only
    | intro _))
theorem giveSecret_keep {s : State} {tag : Nat} {c : Cmd} {t : Nat} {secret : List Byte} {more : List Byte} (hs : sub 4195328 n_ = true) (hk_ : Only n_ a_ s) : Only n_ a_ (giveSecret s tag c t secret more) := giveSecret_only.step hs hk_

theorem agreeDone_only {s : State} {tag : Nat} {c : Cmd} {priv : List Byte} : Only 4746321 s (agreeDone s tag c priv) := by
  unfold agreeDone
  try dsimp only
  all_goals (repeat' (first
    | with_reducible apply Only.refl
    | with_reducible apply endAfter_keep rfl
    | with_reducible apply giveSecret_keep rfl
    | with_reducible apply Only.ite
    | split
    | dsimp only
    | intro _))
theorem agreeDone_keep {s : State} {tag : Nat} {c : Cmd} {priv : List Byte} (hs : sub 4746321 n_ = true) (hk_ : Only n_ a_ s) : Only n_ a_ (agreeDone s tag c priv) := agreeDone_only.step hs hk_

theorem encapsDone_only {s : State} {tag : Nat} {c : Cmd} {m : List Byte} : Only 4746321 s (encapsDone s tag c m) := by
  unfold encapsDone
  try dsimp only
  all_goals (repeat' (first
    | with_reducible apply Only.refl
    | with_reducible apply endAfter_keep rfl
    | with_reducible apply giveSecret_keep rfl
    | with_reducible apply Only.ite
    | split
    | dsimp only
    | intro _))
theorem encapsDone_keep {s : State} {tag : Nat} {c : Cmd} {m : List Byte} (hs : sub 4746321 n_ = true) (hk_ : Only n_ a_ s) : Only n_ a_ (encapsDone s tag c m) := encapsDone_only.step hs hk_

theorem decapsDone_only {s : State} {tag : Nat} {c : Cmd} {priv : List Byte} : Only 4195328 s (decapsDone s tag c priv) := by
  unfold decapsDone
  try dsimp only
  all_goals (repeat' (first
    | with_reducible apply Only.refl
    | with_reducible apply giveSecret_keep rfl
    | dsimp only
    | intro _))
theorem decapsDone_keep {s : State} {tag : Nat} {c : Cmd} {priv : List Byte} (hs : sub 4195328 n_ = true) (hk_ : Only n_ a_ s) : Only n_ a_ (decapsDone s tag c priv) := decapsDone_only.step hs hk_

theorem pkDone_only {s : State} {tag : Nat} {priv : Nat → List Byte} {r : List Byte} : Only 4746833 s (pkDone s tag priv r) := by
  unfold pkDone
  try dsimp only
  all_goals (repeat' (first
    | with_reducible apply Only.refl
    | with_reducible apply signDone_keep rfl
    | with_reducible apply verifyDone_keep rfl
    | with_reducible apply agreeDone_keep rfl
    | with_reducible apply encapsDone_keep rfl
    | with_reducible apply decapsDone_keep rfl
    | with_reducible apply pkPublic_keep rfl
    | with_reducible apply batchDone_keep rfl
    | split
    | dsimp only
    | intro _))
theorem pkDone_keep {s : State} {tag : Nat} {priv : Nat → List Byte} {r : List Byte} (hs : sub 4746833 n_ = true) (hk_ : Only n_ a_ s) : Only n_ a_ (pkDone s tag priv r) := pkDone_only.step hs hk_

theorem pkCreated_only {s : State} {tag : Nat} {c : Cmd} {r : ThmRsp} : Only 552529 s (pkCreated s tag c r) := by
  unfold pkCreated
  try dsimp only
  all_goals (repeat' (first
    | with_reducible apply Only.refl
    | with_reducible apply endAfter_keep rfl
    | with_reducible apply endOut_keep rfl
    | with_reducible apply endOk_keep rfl
    | with_reducible apply Only.ite
    | split
    | dsimp only
    | intro _))
theorem pkCreated_keep {s : State} {tag : Nat} {c : Cmd} {r : ThmRsp} (hs : sub 552529 n_ = true) (hk_ : Only n_ a_ s) : Only n_ a_ (pkCreated s tag c r) := pkCreated_only.step hs hk_

theorem manglePortSet_only {s : State} {n : Nat} {job : Nat} {w : BitVec 64} : Only 65536 s (manglePortSet s n job w) := by
  unfold manglePortSet
  try dsimp only
  all_goals (repeat' (first
    | with_reducible apply Only.refl
    | with_reducible apply corePut_keep rfl
    | with_reducible apply Only.ite
    | split
    | dsimp only
    | intro _))
theorem manglePortSet_keep {s : State} {n : Nat} {job : Nat} {w : BitVec 64} (hs : sub 65536 n_ = true) (hk_ : Only n_ a_ s) : Only n_ a_ (manglePortSet s n job w) := manglePortSet_only.step hs hk_

theorem portHalfDone_only {s : State} {n : Nat} {j : PortJob} {half : Nat} {priv : List Byte} {input : List Byte} {wrong : Bool} : Only 1114138 s (portHalfDone s n j half priv input wrong) := by
  unfold portHalfDone
  try dsimp only
  all_goals (repeat' (first
    | with_reducible apply Only.refl
    | with_reducible apply halfRandom_keep rfl
    | with_reducible apply halfRandom_keepE rfl (by assumption)
    | with_reducible apply drawBlinding_keep rfl
    | with_reducible apply corePut_keep rfl
    | with_reducible apply Only.ite
    | with_reducible apply Only.ite2
    | split
    | dsimp only
    | intro _))
theorem portHalfDone_keep {s : State} {n : Nat} {j : PortJob} {half : Nat} {priv : List Byte} {input : List Byte} {wrong : Bool} (hs : sub 1114138 n_ = true) (hk_ : Only n_ a_ s) : Only n_ a_ (portHalfDone s n j half priv input wrong) := portHalfDone_only.step hs hk_

theorem portSignDone_only {s : State} {n : Nat} {j : PortJob} : Only 108626 s (portSignDone s n j) := by
  unfold portSignDone
  try dsimp only
  all_goals (repeat' (first
    | with_reducible apply Only.refl
    | with_reducible apply useTake_keep rfl
    | with_reducible apply freeWord_keep rfl
    | with_reducible apply freeWord_keepE rfl (by assumption)
    | with_reducible apply manglePortSet_keep rfl
    | with_reducible apply rsaWrong_keep rfl
    | with_reducible apply regionWrite_keep rfl
    | with_reducible apply Only.foldl
    | with_reducible apply Only.foldl2
    | with_reducible apply Only.ite
    | with_reducible apply Only.ite2
    | split
    | dsimp only
    | intro _))
theorem portSignDone_keep {s : State} {n : Nat} {j : PortJob} (hs : sub 108626 n_ = true) (hk_ : Only n_ a_ s) : Only n_ a_ (portSignDone s n j) := portSignDone_only.step hs hk_

theorem portModDone_only {s : State} {n : Nat} {job : Nat} {d : List Byte} {input : List Byte} : Only 98306 s (portModDone s n job d input) := by
  unfold portModDone
  try dsimp only
  all_goals (repeat' (first
    | with_reducible apply Only.refl
    | with_reducible apply freeBytes_keep rfl
    | with_reducible apply freeBytes_keepE rfl (by assumption)
    | with_reducible apply manglePortSet_keep rfl
    | with_reducible apply regionWrite_keep rfl
    | with_reducible apply Only.ite
    | with_reducible apply Only.ite2
    | split
    | dsimp only
    | intro _))
theorem portModDone_keep {s : State} {n : Nat} {job : Nat} {d : List Byte} {input : List Byte} (hs : sub 98306 n_ = true) (hk_ : Only n_ a_ s) : Only n_ a_ (portModDone s n job d input) := portModDone_only.step hs hk_

theorem portVerifyDone_only {s : State} {n : Nat} {j : PortJob} {input : List Byte} : Only 73728 s (portVerifyDone s n j input) := by
  unfold portVerifyDone
  try dsimp only
  all_goals (repeat' (first
    | with_reducible apply Only.refl
    | with_reducible apply manglePortSet_keep rfl
    | with_reducible apply useTake_keep rfl
    | with_reducible apply Only.foldl
    | with_reducible apply Only.foldl2
    | with_reducible apply Only.ite
    | split
    | dsimp only
    | intro _))
theorem portVerifyDone_keep {s : State} {n : Nat} {j : PortJob} {input : List Byte} (hs : sub 73728 n_ = true) (hk_ : Only n_ a_ s) : Only n_ a_ (portVerifyDone s n j input) := portVerifyDone_only.step hs hk_

theorem manglePortDone_only {s : State} {n : Nat} {j : PortJob} {input : List Byte} : Only 108626 s (manglePortDone s n j input) := by
  unfold manglePortDone
  try dsimp only
  all_goals (repeat' (first
    | with_reducible apply Only.refl
    | with_reducible apply portModDone_keep rfl
    | with_reducible apply portVerifyDone_keep rfl
    | with_reducible apply portSignDone_keep rfl
    | with_reducible apply Only.ite
    | split
    | dsimp only
    | intro _))
theorem manglePortDone_keep {s : State} {n : Nat} {j : PortJob} {input : List Byte} (hs : sub 108626 n_ = true) (hk_ : Only n_ a_ s) : Only n_ a_ (manglePortDone s n j input) := manglePortDone_only.step hs hk_

theorem opEnd_only {s : State} {u : Nat} {o : MangleOp} : Only 524288 s (opEnd s u o) := by
  unfold opEnd
  try dsimp only
  all_goals (repeat' (first
    | with_reducible apply Only.refl
    | with_reducible apply bankPut_keep rfl
    | with_reducible apply unitPut_keep rfl
    | dsimp only
    | intro _))
theorem opEnd_keep {s : State} {u : Nat} {o : MangleOp} (hs : sub 524288 n_ = true) (hk_ : Only n_ a_ s) : Only n_ a_ (opEnd s u o) := opEnd_only.step hs hk_

theorem unitNext_only {s : State} {u : Nat} : Only 524288 s (unitNext s u) := by
  unfold unitNext
  try dsimp only
  all_goals (repeat' (first
    | with_reducible apply Only.refl
    | with_reducible apply unitStep_keep rfl
    | dsimp only
    | intro _))
theorem unitNext_keep {s : State} {u : Nat} (hs : sub 524288 n_ = true) (hk_ : Only n_ a_ s) : Only n_ a_ (unitNext s u) := unitNext_only.step hs hk_

theorem pairDone_only {s : State} {u : Nat} {o : MangleOp} {tag : Nat} {c : Cmd} : Only 5768216 s (pairDone s u o tag c) := by
  unfold pairDone
  try dsimp only
  all_goals (repeat' (first
    | with_reducible apply Only.refl
    | with_reducible apply pairMaterial_keep rfl
    | with_reducible apply pairMaterial_keepE rfl (by assumption)
    | with_reducible apply unitNext_keep rfl
    | with_reducible apply askFill_keep rfl
    | with_reducible apply opEnd_keep rfl
    | with_reducible apply Only.ite
    | with_reducible apply Only.ite2
    | split
    | dsimp only
    | intro _))
theorem pairDone_keep {s : State} {u : Nat} {o : MangleOp} {tag : Nat} {c : Cmd} (hs : sub 5768216 n_ = true) (hk_ : Only n_ a_ s) : Only n_ a_ (pairDone s u o tag c) := pairDone_only.step hs hk_

theorem opDoneCmd_only {s : State} {u : Nat} {o : MangleOp} {tag : Nat} {half : Nat} {wrong : Bool} : Only 5795417 s (opDoneCmd s u o tag half wrong) := by
  unfold opDoneCmd
  try dsimp only
  all_goals (repeat' (first
    | with_reducible apply Only.refl
    | with_reducible apply unitNext_keep rfl
    | with_reducible apply opEnd_keep rfl
    | with_reducible apply pairDone_keep rfl
    | with_reducible apply signHalfDone_keep rfl
    | with_reducible apply pkDone_keep rfl
    | with_reducible apply Only.ite
    | split
    | dsimp only
    | intro _))
theorem opDoneCmd_keep {s : State} {u : Nat} {o : MangleOp} {tag : Nat} {half : Nat} {wrong : Bool} (hs : sub 5795417 n_ = true) (hk_ : Only n_ a_ s) : Only n_ a_ (opDoneCmd s u o tag half wrong) := opDoneCmd_only.step hs hk_

theorem opDonePort_only {s : State} {u : Nat} {o : MangleOp} {n : Nat} {job : Nat} {wrong : Bool} : Only 1681498 s (opDonePort s u o n job wrong) := by
  unfold opDonePort
  try dsimp only
  all_goals (repeat' (first
    | with_reducible apply Only.refl
    | with_reducible apply unitNext_keep rfl
    | with_reducible apply opEnd_keep rfl
    | with_reducible apply portHalfDone_keep rfl
    | with_reducible apply manglePortDone_keep rfl
    | with_reducible apply Only.ite
    | split
    | dsimp only
    | intro _))
theorem opDonePort_keep {s : State} {u : Nat} {o : MangleOp} {n : Nat} {job : Nat} {wrong : Bool} (hs : sub 1681498 n_ = true) (hk_ : Only n_ a_ s) : Only n_ a_ (opDonePort s u o n job wrong) := opDonePort_only.step hs hk_

theorem execMangleOpDone_only {unit : Nat} {wrong : Bool} {s : State} : OOnly 5893723 s (execMangleOpDone unit wrong s) := by
  unfold execMangleOpDone
  try dsimp only
  all_goals (repeat' (first
    | with_reducible apply Only.refl
    | with_reducible apply unitStep_keep rfl
    | with_reducible apply opDoneCmd_keep rfl
    | with_reducible apply opDonePort_keep rfl
    | with_reducible apply unitNext_keep rfl
    | with_reducible apply opEnd_keep rfl
    | with_reducible apply OOnly.ite
    | with_reducible apply OOnly.next
    | split
    | dsimp only
    | intro _))

theorem mangleRinse_only {s : State} : Only 617553 s (mangleRinse s) := by
  unfold mangleRinse
  try dsimp only
  all_goals (repeat' (first
    | with_reducible apply Only.refl
    | with_reducible apply endAfter_keep rfl
    | with_reducible apply cmdPut_keep rfl
    | with_reducible apply manglePortSet_keep rfl
    | with_reducible apply Only.foldl
    | with_reducible apply Only.foldl2
    | with_reducible apply Only.ite
    | fail_if_no_progress (with_reducible apply Only.upd rfl)
    | split
    | dsimp only
    | intro _))
theorem mangleRinse_keep {s : State} (hs : sub 617553 n_ = true) (hk_ : Only n_ a_ s) : Only n_ a_ (mangleRinse s) := mangleRinse_only.step hs hk_

end Sys2Proof.Machine
end

