-- ==== Sys2Proof/Laws/FrameLinks.lean ====
section
/-! SUPPORT. What each operation of these files of Machine/ changes (see Laws/Frame.lean): Caches, Cards, Links, LinkCmds, Time, Ptp. -/

namespace Sys2Proof.Machine

set_option linter.all false
set_option Elab.async false

variable {n_ : Nat} {a_ : State}

theorem keyBind_only {s : State} {e h : Nat} {o : KeyObj} {t : State} (hq_ : keyBind s e h o = some t) : Only 8192 s t := by
  unfold keyBind at hq_
  dsimp only at hq_
  split at hq_ <;>
  · rw [Option.map_eq_some_iff] at hq_
    obtain ⟨x, _, hx⟩ := hq_
    cases hx
    exact Only.upd rfl .refl
theorem keyBind_keep {s : State} {engine : Nat} {h : Nat} {o : KeyObj} {t_ : State} (hs : sub 8192 n_ = true) (he : keyBind s engine h o = some t_) (hk_ : Only n_ a_ s) : Only n_ a_ t_ := (keyBind_only he).step hs hk_
theorem keyBind_keepD {s : State} {engine : Nat} {h : Nat} {o : KeyObj} {d_ : State} (hs : sub 8192 n_ = true) (hd_ : Only n_ a_ d_) (hk_ : Only n_ a_ s) : Only n_ a_ ((keyBind s engine h o).getD d_) := by
  cases he : keyBind s engine h o with
  | none => exact hd_
  | some t => exact keyBind_keep hs he hk_

theorem cardPut_only {s : State} {id : Nat} {x : CardRec} : Only 147457 s (cardPut s id x) := by
  unfold cardPut
  try dsimp only
  all_goals (repeat' (first
    | with_reducible apply Only.refl
    | with_reducible apply jot_keep rfl
    | fail_if_no_progress (with_reducible apply Only.upd rfl)
    | dsimp only
    | intro _))
theorem cardPut_keep {s : State} {id : Nat} {x : CardRec} (hs : sub 147457 n_ = true) (hk_ : Only n_ a_ s) : Only n_ a_ (cardPut s id x) := cardPut_only.step hs hk_

theorem cardQueuesMap_only {s : State} {id : Nat} {f : Nat → Queue → Queue} : Only 131072 s (cardQueuesMap s id f) := by
  unfold cardQueuesMap
  try dsimp only
  all_goals (repeat' (first
    | with_reducible apply Only.refl
    | with_reducible apply queuePut_keep rfl
    | with_reducible apply Only.foldl
    | with_reducible apply Only.foldl2
    | dsimp only
    | intro _))
theorem cardQueuesMap_keep {s : State} {id : Nat} {f : Nat → Queue → Queue} (hs : sub 131072 n_ = true) (hk_ : Only n_ a_ s) : Only n_ a_ (cardQueuesMap s id f) := cardQueuesMap_only.step hs hk_

theorem setLeft_only {s : State} {id : Nat} {x : CardRec} {left : Nat} : Only 2128 s (setLeft s id x left).2 := by
  unfold setLeft
  try dsimp only
  all_goals (repeat' (first
    | with_reducible apply Only.refl
    | with_reducible apply lnkEvent_keep rfl
    | with_reducible apply tallyPut_keep rfl
    | with_reducible apply Only.ite
    | with_reducible apply Only.ite2
    | split
    | dsimp only
    | intro _))
theorem setLeft_keep {s : State} {id : Nat} {x : CardRec} {left : Nat} (hs : sub 2128 n_ = true) (hk_ : Only n_ a_ s) : Only n_ a_ (setLeft s id x left).2 := setLeft_only.step hs hk_
theorem setLeft_keepE {s : State} {id : Nat} {x : CardRec} {left : Nat} {y0_ : CardRec} {t_ : State} (hs : sub 2128 n_ = true) (he : setLeft s id x left = (y0_, t_)) (hk_ : Only n_ a_ s) : Only n_ a_ t_ := by
  have := setLeft_keep hs hk_ (s := s) (id := id) (x := x) (left := left)
  rw [he] at this; exact this

theorem rekeyAsk_only {s : State} {id : Nat} {x : CardRec} {cmd : Option Nat} : Only 4194304 s (rekeyAsk s id x cmd) := by
  unfold rekeyAsk
  try dsimp only
  all_goals (repeat' (first
    | with_reducible apply Only.refl
    | with_reducible apply thmPost_keep rfl
    | dsimp only
    | intro _))
theorem rekeyAsk_keep {s : State} {id : Nat} {x : CardRec} {cmd : Option Nat} (hs : sub 4194304 n_ = true) (hk_ : Only n_ a_ s) : Only n_ a_ (rekeyAsk s id x cmd) := rekeyAsk_only.step hs hk_

theorem epochBind_only {s : State} {id : Nat} {e : Nat} : Only 131072 s (epochBind s id e) := by
  unfold epochBind
  try dsimp only
  all_goals (repeat' (first
    | with_reducible apply Only.refl
    | with_reducible apply cardQueuesMap_keep rfl
    | dsimp only
    | intro _))
theorem epochBind_keep {s : State} {id : Nat} {e : Nat} (hs : sub 131072 n_ = true) (hk_ : Only n_ a_ s) : Only n_ a_ (epochBind s id e) := epochBind_only.step hs hk_

theorem adjacentClear_only {s : State} {id : Nat} : Only 131072 s (adjacentClear s id) := by
  unfold adjacentClear
  try dsimp only
  all_goals (repeat' (first
    | with_reducible apply Only.refl
    | with_reducible apply cardQueuesMap_keep rfl
    | dsimp only
    | intro _))
theorem adjacentClear_keep {s : State} {id : Nat} (hs : sub 131072 n_ = true) (hk_ : Only n_ a_ s) : Only n_ a_ (adjacentClear s id) := adjacentClear_only.step hs hk_

theorem execThmEpoch_only {ok0 : Bool} {ok1 : Bool} {s : State} : OOnly 12740689 s (execThmEpoch ok0 ok1 s) := by
  unfold execThmEpoch
  try dsimp only
  all_goals (repeat' (first
    | with_reducible apply Only.refl
    | with_reducible apply thmServe_only rfl
    | with_reducible apply thmAnswer_keep rfl
    | with_reducible apply jrnCounter_keep rfl (by assumption)
    | with_reducible apply jrnFailed_keep rfl
    | with_reducible apply jot_keep rfl
    | with_reducible apply cardPut_keep rfl
    | with_reducible apply epochBind_keep rfl
    | with_reducible apply Only.ite
    | with_reducible apply OOnly.ite
    | with_reducible apply OOnly.next
    | split
    | dsimp only
    | intro _))

theorem rekeySend_only {s : State} {q : Nat} {frame : List Byte} {first : Bool} : Only 131089 s (rekeySend s q frame first) := by
  unfold rekeySend
  try dsimp only
  all_goals (repeat' (first
    | with_reducible apply Only.refl
    | with_reducible apply queueSend_keep rfl
    | with_reducible apply sendFrame_keep rfl
    | with_reducible apply Only.ite
    | split
    | dsimp only
    | intro _))
theorem rekeySend_keep {s : State} {q : Nat} {frame : List Byte} {first : Bool} (hs : sub 131089 n_ = true) (hk_ : Only n_ a_ s) : Only n_ a_ (rekeySend s q frame first) := rekeySend_only.step hs hk_

theorem rekeyEnd_only {s : State} {cmd : Option Nat} {status : Nat} {extra : Nat} : Only 552017 s (rekeyEnd s cmd status extra) := by
  unfold rekeyEnd
  try dsimp only
  all_goals (repeat' (first
    | with_reducible apply Only.refl
    | with_reducible apply endAfter_keep rfl
    | split
    | dsimp only
    | intro _))
theorem rekeyEnd_keep {s : State} {cmd : Option Nat} {status : Nat} {extra : Nat} (hs : sub 552017 n_ = true) (hk_ : Only n_ a_ s) : Only n_ a_ (rekeyEnd s cmd status extra) := rekeyEnd_only.step hs hk_

theorem rekeyBegin_only {s : State} {id : Nat} {e : Nat} {cmd : Option Nat} : Only 683089 s (rekeyBegin s id e cmd) := by
  unfold rekeyBegin
  try dsimp only
  all_goals (repeat' (first
    | with_reducible apply Only.refl
    | with_reducible apply rekeyEnd_keep rfl
    | with_reducible apply adjacentClear_keep rfl
    | with_reducible apply cardPut_keep rfl
    | with_reducible apply rekeySend_keep rfl
    | with_reducible apply Only.ite
    | split
    | dsimp only
    | intro _))
theorem rekeyBegin_keep {s : State} {id : Nat} {e : Nat} {cmd : Option Nat} (hs : sub 683089 n_ = true) (hk_ : Only n_ a_ s) : Only n_ a_ (rekeyBegin s id e cmd) := rekeyBegin_only.step hs hk_

theorem epochRotate_only {s : State} {id : Nat} {ch : EpochChange} : Only 131072 s (epochRotate s id ch) := by
  unfold epochRotate
  try dsimp only
  all_goals (repeat' (first
    | with_reducible apply Only.refl
    | with_reducible apply cardQueuesMap_keep rfl
    | with_reducible apply Only.ite
    | split
    | dsimp only
    | intro _))
theorem epochRotate_keep {s : State} {id : Nat} {ch : EpochChange} (hs : sub 131072 n_ = true) (hk_ : Only n_ a_ s) : Only n_ a_ (epochRotate s id ch) := epochRotate_only.step hs hk_

theorem rekeyConfirm_only {s : State} {id : Nat} : Only 683089 s (rekeyConfirm s id) := by
  unfold rekeyConfirm
  try dsimp only
  all_goals (repeat' (first
    | with_reducible apply Only.refl
    | with_reducible apply setLeft_keep rfl
    | with_reducible apply setLeft_keepE rfl (by assumption)
    | with_reducible apply epochRotate_keep rfl
    | with_reducible apply cardPut_keep rfl
    | with_reducible apply lnkEvent_keep rfl
    | with_reducible apply rekeyEnd_keep rfl
    | split
    | dsimp only
    | intro _))
theorem rekeyConfirm_keep {s : State} {id : Nat} (hs : sub 683089 n_ = true) (hk_ : Only n_ a_ s) : Only n_ a_ (rekeyConfirm s id) := rekeyConfirm_only.step hs hk_

theorem cardReport_only {s : State} {id : Nat} {left : Nat} {flags : Nat} {fw : Nat} {stamp : Stamp} : Only 149585 s (cardReport s id left flags fw stamp) := by
  unfold cardReport
  try dsimp only
  all_goals (repeat' (first
    | with_reducible apply Only.refl
    | with_reducible apply setLeft_keep rfl
    | with_reducible apply setLeft_keepE rfl (by assumption)
    | with_reducible apply tallyPut_keep rfl
    | with_reducible apply cardPut_keep rfl
    | with_reducible apply Only.ite
    | with_reducible apply Only.ite2
    | fail_if_no_progress (with_reducible apply Only.upd rfl)
    | split
    | dsimp only
    | intro _))
theorem cardReport_keep {s : State} {id : Nat} {left : Nat} {flags : Nat} {fw : Nat} {stamp : Stamp} (hs : sub 149585 n_ = true) (hk_ : Only n_ a_ s) : Only n_ a_ (cardReport s id left flags fw stamp) := cardReport_only.step hs hk_

theorem execRekeyResend_only {card : Nat} {s : State} : OOnly 131089 s (execRekeyResend card s) := by
  unfold execRekeyResend
  try dsimp only
  all_goals (repeat' (first
    | with_reducible apply Only.refl
    | with_reducible apply rekeySend_keep rfl
    | with_reducible apply Only.ite
    | with_reducible apply OOnly.ite
    | with_reducible apply OOnly.next
    | fail_if_no_progress (with_reducible apply Only.upd rfl)
    | split
    | dsimp only
    | intro _))

theorem rekeyFail_only {s : State} {id : Nat} : Only 683089 s (rekeyFail s id) := by
  unfold rekeyFail
  try dsimp only
  all_goals (repeat' (first
    | with_reducible apply Only.refl
    | with_reducible apply cardPut_keep rfl
    | with_reducible apply adjacentClear_keep rfl
    | with_reducible apply rekeyEnd_keep rfl
    | with_reducible apply lnkEvent_keep rfl
    | split
    | dsimp only
    | intro _))
theorem rekeyFail_keep {s : State} {id : Nat} (hs : sub 683089 n_ = true) (hk_ : Only n_ a_ s) : Only n_ a_ (rekeyFail s id) := rekeyFail_only.step hs hk_

theorem execRekeyTimeout_only {card : Nat} {s : State} : OOnly 683089 s (execRekeyTimeout card s) := by
  unfold execRekeyTimeout
  try dsimp only
  all_goals (repeat' (first
    | with_reducible apply Only.refl
    | with_reducible apply rekeyFail_keep rfl
    | with_reducible apply Only.ite
    | with_reducible apply OOnly.ite
    | with_reducible apply OOnly.next
    | split
    | dsimp only
    | intro _))

theorem rekeyMirrorEnd_only {s : State} {id : Nat} {status : Nat} {extra : Nat} : Only 552017 s (rekeyMirrorEnd s id status extra) := by
  unfold rekeyMirrorEnd
  try dsimp only
  all_goals (repeat' (first
    | with_reducible apply Only.refl
    | with_reducible apply endAfter_keep rfl
    | split
    | dsimp only
    | intro _))
theorem rekeyMirrorEnd_keep {s : State} {id : Nat} {status : Nat} {extra : Nat} (hs : sub 552017 n_ = true) (hk_ : Only n_ a_ s) : Only n_ a_ (rekeyMirrorEnd s id status extra) := rekeyMirrorEnd_only.step hs hk_

theorem cardTake_only {s : State} {id : Nat} {y : CardRec} : Only 683089 s (cardTake s id y) := by
  unfold cardTake
  try dsimp only
  all_goals (repeat' (first
    | with_reducible apply Only.refl
    | with_reducible apply rekeySend_keep rfl
    | with_reducible apply epochBind_keep rfl
    | with_reducible apply rekeyMirrorEnd_keep rfl
    | with_reducible apply epochRotate_keep rfl
    | with_reducible apply adjacentClear_keep rfl
    | with_reducible apply Only.ite
    | fail_if_no_progress (with_reducible apply Only.upd rfl)
    | split
    | dsimp only
    | intro _))
theorem cardTake_keep {s : State} {id : Nat} {y : CardRec} (hs : sub 683089 n_ = true) (hk_ : Only n_ a_ s) : Only n_ a_ (cardTake s id y) := cardTake_only.step hs hk_

theorem execAdjacentEpochClear_only {card : Nat} {s : State} : OOnly 147457 s (execAdjacentEpochClear card s) := by
  unfold execAdjacentEpochClear
  try dsimp only
  all_goals (repeat' (first
    | with_reducible apply Only.refl
    | with_reducible apply cardPut_keep rfl
    | with_reducible apply adjacentClear_keep rfl
    | with_reducible apply Only.ite
    | with_reducible apply OOnly.ite
    | with_reducible apply OOnly.next
    | split
    | dsimp only
    | intro _))

theorem execPostResetRekey_only {s : State} : OOnly 4194304 s (execPostResetRekey s) := by
  unfold execPostResetRekey
  try dsimp only
  all_goals (repeat' (first
    | with_reducible apply Only.refl
    | with_reducible apply rekeyAsk_keep rfl
    | with_reducible apply Only.foldl
    | with_reducible apply Only.foldl2
    | with_reducible apply Only.ite
    | with_reducible apply OOnly.ite
    | with_reducible apply OOnly.next
    | split
    | dsimp only
    | intro _))

theorem rxNoBuf_only {s : State} {q : Nat} : Only 131088 s (rxNoBuf s q) := by
  unfold rxNoBuf
  try dsimp only
  all_goals (repeat' (first
    | with_reducible apply Only.refl
    | with_reducible apply queueMod_keep rfl
    | with_reducible apply hmpDrop_keep rfl
    | with_reducible apply sqcSet_keep rfl
    | dsimp only
    | intro _))
theorem rxNoBuf_keep {s : State} {q : Nat} (hs : sub 131088 n_ = true) (hk_ : Only n_ a_ s) : Only n_ a_ (rxNoBuf s q) := rxNoBuf_only.step hs hk_

theorem rxOverLimit_only {s : State} {q : Nat} {b : Nat} : Only 163856 s (rxOverLimit s q b) := by
  unfold rxOverLimit
  try dsimp only
  all_goals (repeat' (first
    | with_reducible apply Only.refl
    | with_reducible apply queueMod_keep rfl
    | with_reducible apply hmpRelease_keep rfl
    | with_reducible apply sqcSet_keep rfl
    | dsimp only
    | intro _))
theorem rxOverLimit_keep {s : State} {q : Nat} {b : Nat} (hs : sub 163856 n_ = true) (hk_ : Only n_ a_ s) : Only n_ a_ (rxOverLimit s q b) := rxOverLimit_only.step hs hk_

theorem rxChain_only {s : State} {p : Nat} {q : Nat} {f : List Byte} {stamp : Stamp} {y0 : Nat} {t : State} (hq_ : rxChain s p q f stamp = some (y0, t)) : Only 32786 s t := by
  unfold rxChain at hq_
  (try dsimp only at hq_)
  (repeat' (split at hq_))
  all_goals (try cases hq_)
  all_goals (repeat' (first
    | with_reducible apply Only.refl
    | with_reducible apply bufPut_keep rfl
    | with_reducible apply takeBufs_keep rfl (by assumption)
    | with_reducible apply chainWrite_keep rfl
    | with_reducible apply chargeNote_keep rfl
    | with_reducible apply linkChain_keep rfl
    | with_reducible apply Only.foldl
    | with_reducible apply Only.foldl2
    | with_reducible apply Only.ite
    | with_reducible apply Only.ite2
    | split
    | dsimp only
    | intro _))
theorem rxChain_keep {s : State} {p : Nat} {q : Nat} {f : List Byte} {stamp : Stamp} {y0_ : Nat} {t_ : State} (hs : sub 32786 n_ = true) (he : rxChain s p q f stamp = some (y0_, t_)) (hk_ : Only n_ a_ s) : Only n_ a_ t_ := (rxChain_only he).step hs hk_

theorem rxForward_only {s : State} {q : Nat} : Only 182353 s (rxForward s q) := by
  unfold rxForward
  try dsimp only
  all_goals (repeat' (first
    | with_reducible apply Only.refl
    | with_reducible apply chainSetLen_keep rfl
    | with_reducible apply chainWrite_keep rfl
    | with_reducible apply queuePut_keep rfl
    | with_reducible apply enqChain_keep rfl
    | with_reducible apply sqcSet_keep rfl
    | with_reducible apply regAdd_keep rfl
    | with_reducible apply queueMod_keep rfl
    | with_reducible apply hmpRelease_keep rfl
    | with_reducible apply Only.ite
    | split
    | dsimp only
    | intro _))
theorem rxForward_keep {s : State} {q : Nat} (hs : sub 182353 n_ = true) (hk_ : Only n_ a_ s) : Only n_ a_ (rxForward s q) := rxForward_only.step hs hk_

theorem rxDrain_only {s : State} {q : Nat} : Only 182353 s (rxDrain s q) := by
  unfold rxDrain
  try dsimp only
  all_goals (repeat' (first
    | with_reducible apply Only.refl
    | with_reducible apply rxForward_keep rfl
    | with_reducible apply Only.foldl
    | with_reducible apply Only.foldl2
    | dsimp only
    | intro _))
theorem rxDrain_keep {s : State} {q : Nat} (hs : sub 182353 n_ = true) (hk_ : Only n_ a_ s) : Only n_ a_ (rxDrain s q) := rxDrain_only.step hs hk_

theorem rxDeliver_only {s : State} {q : Nat} {x : Queue} {h : FfpHdr} {b : Nat} {stamp : Stamp} {pl : List Byte} : Only 2345041 s (rxDeliver s q x h b stamp pl) := by
  unfold rxDeliver
  try dsimp only
  all_goals (repeat' (first
    | with_reducible apply Only.refl
    | with_reducible apply hmpRelease_keep rfl
    | with_reducible apply seamTo_keep rfl
    | with_reducible apply rxOverLimit_keep rfl
    | with_reducible apply chainWrite_keep rfl
    | with_reducible apply jot_keep rfl
    | with_reducible apply rxDrain_keep rfl
    | with_reducible apply evPulse_keep rfl
    | with_reducible apply queueMod_keep rfl
    | with_reducible apply Only.ite
    | split
    | dsimp only
    | intro _))
theorem rxDeliver_keep {s : State} {q : Nat} {x : Queue} {h : FfpHdr} {b : Nat} {stamp : Stamp} {pl : List Byte} (hs : sub 2345041 n_ = true) (hk_ : Only n_ a_ s) : Only n_ a_ (rxDeliver s q x h b stamp pl) := rxDeliver_only.step hs hk_

theorem rxData_only {s : State} {q : Nat} {h : FfpHdr} {b : Nat} {old : Replay} {stamp : Stamp} {pl : List Byte} : Only 2345041 s (rxData s q h b old stamp pl) := by
  unfold rxData
  try dsimp only
  all_goals (repeat' (first
    | with_reducible apply Only.refl
    | with_reducible apply queueMod_keep rfl
    | with_reducible apply rxDeliver_keep rfl
    | with_reducible apply Only.ite
    | split
    | dsimp only
    | intro _))
theorem rxData_keep {s : State} {q : Nat} {h : FfpHdr} {b : Nat} {old : Replay} {stamp : Stamp} {pl : List Byte} (hs : sub 2345041 n_ = true) (hk_ : Only n_ a_ s) : Only n_ a_ (rxData s q h b old stamp pl) := rxData_only.step hs hk_

theorem rxAck_only {s : State} {q : Nat} {epoch : Nat} {pl : List Byte} : Only 181249 s (rxAck s q epoch pl) := by
  unfold rxAck
  try dsimp only
  all_goals (repeat' (first
    | with_reducible apply Only.refl
    | with_reducible apply queuePut_keep rfl
    | with_reducible apply sendNote_keep rfl
    | with_reducible apply txFree_keep rfl
    | with_reducible apply jot_keep rfl
    | with_reducible apply Only.foldl
    | with_reducible apply Only.foldl2
    | with_reducible apply Only.ite
    | split
    | dsimp only
    | intro _))
theorem rxAck_keep {s : State} {q : Nat} {epoch : Nat} {pl : List Byte} (hs : sub 181249 n_ = true) (hk_ : Only n_ a_ s) : Only n_ a_ (rxAck s q epoch pl) := rxAck_only.step hs hk_

theorem rxRetransmit_only {s : State} {q : Nat} {epoch : Nat} {pl : List Byte} : Only 131072 s (rxRetransmit s q epoch pl) := by
  unfold rxRetransmit
  try dsimp only
  all_goals (repeat' (first
    | with_reducible apply Only.refl
    | with_reducible apply queueMod_keep rfl
    | with_reducible apply Only.ite
    | split
    | dsimp only
    | intro _))
theorem rxRetransmit_keep {s : State} {q : Nat} {epoch : Nat} {pl : List Byte} (hs : sub 131072 n_ = true) (hk_ : Only n_ a_ s) : Only n_ a_ (rxRetransmit s q epoch pl) := rxRetransmit_only.step hs hk_

theorem hbSend_only {s : State} {q : Nat} {x : Queue} {ctr : Nat} : Only 147473 s (hbSend s q x ctr) := by
  unfold hbSend
  try dsimp only
  all_goals (repeat' (first
    | with_reducible apply Only.refl
    | with_reducible apply takeHb_keep rfl
    | with_reducible apply takeHb_keepE rfl (by assumption)
    | with_reducible apply queuePut_keep rfl
    | with_reducible apply queueSend_keep rfl
    | split
    | dsimp only
    | intro _))
theorem hbSend_keep {s : State} {q : Nat} {x : Queue} {ctr : Nat} (hs : sub 147473 n_ = true) (hk_ : Only n_ a_ s) : Only n_ a_ (hbSend s q x ctr) := hbSend_only.step hs hk_

theorem rxHeartbeat_only {s : State} {q : Nat} {h : FfpHdr} {pl : List Byte} {stamp : Stamp} : Only 149585 s (rxHeartbeat s q h pl stamp) := by
  unfold rxHeartbeat
  try dsimp only
  all_goals (repeat' (first
    | with_reducible apply Only.refl
    | with_reducible apply tallyPut_keep rfl
    | with_reducible apply hbSend_keep rfl
    | with_reducible apply Only.ite
    | split
    | dsimp only
    | intro _))
theorem rxHeartbeat_keep {s : State} {q : Nat} {h : FfpHdr} {pl : List Byte} {stamp : Stamp} (hs : sub 149585 n_ = true) (hk_ : Only n_ a_ s) : Only n_ a_ (rxHeartbeat s q h pl stamp) := rxHeartbeat_only.step hs hk_

theorem rxReport_only {s : State} {q : Nat} {pl : List Byte} {stamp : Stamp} : Only 1296859 s (rxReport s q pl stamp) := by
  unfold rxReport
  try dsimp only
  all_goals (repeat' (first
    | with_reducible apply Only.refl
    | with_reducible apply tallyPut_keep rfl
    | with_reducible apply lnkCount_keep rfl
    | with_reducible apply seamTo_keep rfl
    | with_reducible apply wakeUp_keep rfl
    | with_reducible apply cardReport_keep rfl
    | with_reducible apply Only.ite
    | fail_if_no_progress (with_reducible apply Only.upd rfl)
    | split
    | dsimp only
    | intro _))
theorem rxReport_keep {s : State} {q : Nat} {pl : List Byte} {stamp : Stamp} (hs : sub 1296859 n_ = true) (hk_ : Only n_ a_ s) : Only n_ a_ (rxReport s q pl stamp) := rxReport_only.step hs hk_

theorem rxConfirm_only {s : State} {card : Nat} {epoch : Nat} : Only 683089 s (rxConfirm s card epoch) := by
  unfold rxConfirm
  try dsimp only
  all_goals (repeat' (first
    | with_reducible apply Only.refl
    | with_reducible apply seamTo_keep rfl
    | with_reducible apply rekeyConfirm_keep rfl
    | with_reducible apply Only.ite
    | split
    | dsimp only
    | intro _))
theorem rxConfirm_keep {s : State} {card : Nat} {epoch : Nat} (hs : sub 683089 n_ = true) (hk_ : Only n_ a_ s) : Only n_ a_ (rxConfirm s card epoch) := rxConfirm_only.step hs hk_

theorem rxDrop_only {s : State} {p : Nat} {chain : Option Nat} {off : Nat} : Only 32784 s (rxDrop s p chain off) := by
  unfold rxDrop
  try dsimp only
  all_goals (repeat' (first
    | with_reducible apply Only.refl
    | with_reducible apply hmpRelease_keep rfl
    | with_reducible apply lnkCount_keep rfl
    | split
    | dsimp only
    | intro _))
theorem rxDrop_keep {s : State} {p : Nat} {chain : Option Nat} {off : Nat} (hs : sub 32784 n_ = true) (hk_ : Only n_ a_ s) : Only n_ a_ (rxDrop s p chain off) := rxDrop_only.step hs hk_

theorem rxQueue_only {s : State} {p : Nat} {q : Nat} {x : Queue} {h : FfpHdr} {chain : Option Nat} {stamp : Stamp} : Only 3927515 s (rxQueue s p q x h chain stamp).2 := by
  unfold rxQueue
  try dsimp only
  all_goals (repeat' (first
    | with_reducible apply Only.refl
    | with_reducible apply rxDrop_keep rfl
    | with_reducible apply queueMod_keep rfl
    | with_reducible apply chainTaint_keep rfl
    | with_reducible apply lnkEvent_keep rfl
    | with_reducible apply queuePut_keep rfl
    | with_reducible apply rxConfirm_keep rfl
    | with_reducible apply hmpRelease_keep rfl
    | with_reducible apply rxData_keep rfl
    | with_reducible apply rxAck_keep rfl
    | with_reducible apply rxRetransmit_keep rfl
    | with_reducible apply rxHeartbeat_keep rfl
    | with_reducible apply rxReport_keep rfl
    | with_reducible apply Only.ite
    | with_reducible apply Only.ite2
    | fail_if_no_progress (with_reducible apply Only.upd rfl)
    | split
    | dsimp only
    | intro _))
theorem rxQueue_keep {s : State} {p : Nat} {q : Nat} {x : Queue} {h : FfpHdr} {chain : Option Nat} {stamp : Stamp} (hs : sub 3927515 n_ = true) (hk_ : Only n_ a_ s) : Only n_ a_ (rxQueue s p q x h chain stamp).2 := rxQueue_only.step hs hk_
theorem rxQueue_keepE {s : State} {p : Nat} {q : Nat} {x : Queue} {h : FfpHdr} {chain : Option Nat} {stamp : Stamp} {y0_ : Bool} {t_ : State} (hs : sub 3927515 n_ = true) (he : rxQueue s p q x h chain stamp = (y0_, t_)) (hk_ : Only n_ a_ s) : Only n_ a_ t_ := by
  have := rxQueue_keep hs hk_ (s := s) (p := p) (q := q) (x := x) (h := h) (chain := chain) (stamp := stamp)
  rw [he] at this; exact this

theorem rxClassify_only {s : State} {p : Nat} {f : List Byte} {h : FfpHdr} {stamp : Stamp} : Only 3927515 s (rxClassify s p f h stamp).2 := by
  unfold rxClassify
  try dsimp only
  all_goals (repeat' (first
    | with_reducible apply Only.refl
    | with_reducible apply lnkCount_keep rfl
    | with_reducible apply lnkEvent_keep rfl
    | with_reducible apply rxQueue_keep rfl
    | with_reducible apply rxQueue_keepE rfl (by assumption)
    | with_reducible apply rxChain_keep rfl (by assumption)
    | with_reducible apply rxNoBuf_keep rfl
    | with_reducible apply portReady_keep rfl
    | with_reducible apply Only.ite
    | with_reducible apply Only.ite2
    | split
    | dsimp only
    | intro _))
theorem rxClassify_keep {s : State} {p : Nat} {f : List Byte} {h : FfpHdr} {stamp : Stamp} (hs : sub 3927515 n_ = true) (hk_ : Only n_ a_ s) : Only n_ a_ (rxClassify s p f h stamp).2 := rxClassify_only.step hs hk_
theorem rxClassify_keepE {s : State} {p : Nat} {f : List Byte} {h : FfpHdr} {stamp : Stamp} {y0_ : Bool} {t_ : State} (hs : sub 3927515 n_ = true) (he : rxClassify s p f h stamp = (y0_, t_)) (hk_ : Only n_ a_ s) : Only n_ a_ t_ := by
  have := rxClassify_keep hs hk_ (s := s) (p := p) (f := f) (h := h) (stamp := stamp)
  rw [he] at this; exact this

theorem rxCount_only {s : State} {p : Nat} {f : List Byte} : Only 16 s (rxCount s p f) := by
  unfold rxCount
  try dsimp only
  all_goals (repeat' (first
    | with_reducible apply Only.refl
    | with_reducible apply lnkAdd64_keep rfl
    | dsimp only
    | intro _))
theorem rxCount_keep {s : State} {p : Nat} {f : List Byte} (hs : sub 16 n_ = true) (hk_ : Only n_ a_ s) : Only n_ a_ (rxCount s p f) := rxCount_only.step hs hk_

theorem rxWhole_only {s : State} {p : Nat} {f : List Byte} {fcsOk : Bool} {t : State} (hq_ : rxWhole s p f fcsOk = some t) : Only 16 s t := by
  unfold rxWhole at hq_
  (try dsimp only at hq_)
  (repeat' (split at hq_))
  all_goals (try cases hq_)
  all_goals (repeat' (first
    | with_reducible apply Only.refl
    | with_reducible apply lnkCount_keep rfl
    | with_reducible apply Only.ite
    | split
    | dsimp only
    | intro _))
theorem rxWhole_keep {s : State} {p : Nat} {f : List Byte} {fcsOk : Bool} {t_ : State} (hs : sub 16 n_ = true) (he : rxWhole s p f fcsOk = some t_) (hk_ : Only n_ a_ s) : Only n_ a_ t_ := (rxWhole_only he).step hs hk_

theorem rxNormal_only {s : State} {p : Nat} {f : List Byte} {fcsOk : Bool} {stamp : Stamp} {kinds : List Nat} : Only 3927515 s (rxNormal s p f fcsOk stamp kinds).2 := by
  unfold rxNormal
  try dsimp only
  all_goals (repeat' (first
    | with_reducible apply Only.refl
    | with_reducible apply rxCount_keep rfl
    | with_reducible apply rxWhole_keep rfl (by assumption)
    | with_reducible apply lnkEvent_keep rfl
    | with_reducible apply lnkCount_keep rfl
    | with_reducible apply rxClassify_keep rfl
    | with_reducible apply rxClassify_keepE rfl (by assumption)
    | with_reducible apply Only.ite
    | with_reducible apply Only.ite2
    | split
    | dsimp only
    | intro _))
theorem rxNormal_keep {s : State} {p : Nat} {f : List Byte} {fcsOk : Bool} {stamp : Stamp} {kinds : List Nat} (hs : sub 3927515 n_ = true) (hk_ : Only n_ a_ s) : Only n_ a_ (rxNormal s p f fcsOk stamp kinds).2 := rxNormal_only.step hs hk_
theorem rxNormal_keepE {s : State} {p : Nat} {f : List Byte} {fcsOk : Bool} {stamp : Stamp} {kinds : List Nat} {y0_ : Bool} {t_ : State} (hs : sub 3927515 n_ = true) (he : rxNormal s p f fcsOk stamp kinds = (y0_, t_)) (hk_ : Only n_ a_ s) : Only n_ a_ t_ := by
  have := rxNormal_keep hs hk_ (s := s) (p := p) (f := f) (fcsOk := fcsOk) (stamp := stamp) (kinds := kinds)
  rw [he] at this; exact this

theorem waitStep_only {s : State} : Only 3927515 s (waitStep s) := by
  unfold waitStep
  try dsimp only
  all_goals (repeat' (first
    | with_reducible apply Only.refl
    | with_reducible apply rxQueue_keep rfl
    | with_reducible apply rxQueue_keepE rfl (by assumption)
    | with_reducible apply Only.ite
    | with_reducible apply Only.ite2
    | fail_if_no_progress (with_reducible apply Only.upd rfl)
    | split
    | dsimp only
    | intro _))
theorem waitStep_keep {s : State} (hs : sub 3927515 n_ = true) (hk_ : Only n_ a_ s) : Only n_ a_ (waitStep s) := waitStep_only.step hs hk_

theorem waitsDrain_only {s : State} : Only 3927515 s (waitsDrain s) := by
  unfold waitsDrain
  try dsimp only
  all_goals (repeat' (first
    | with_reducible apply Only.refl
    | with_reducible apply waitStep_keep rfl
    | with_reducible apply Only.foldl
    | with_reducible apply Only.foldl2
    | dsimp only
    | intro _))
theorem waitsDrain_keep {s : State} (hs : sub 3927515 n_ = true) (hk_ : Only n_ a_ s) : Only n_ a_ (waitsDrain s) := waitsDrain_only.step hs hk_

theorem holdWrite_only {s : State} {p : Nat} {f : List Byte} {fcsOk : Bool} {hbFail : Bool} : Only 1280474 s (holdWrite s p f fcsOk hbFail) := by
  unfold holdWrite
  try dsimp only
  all_goals (repeat' (first
    | with_reducible apply Only.refl
    | with_reducible apply lnkCount_keep rfl
    | with_reducible apply portPut_keep rfl
    | with_reducible apply wakeUp_keep rfl
    | with_reducible apply Only.foldl
    | with_reducible apply Only.foldl2
    | with_reducible apply Only.ite
    | split
    | dsimp only
    | intro _))
theorem holdWrite_keep {s : State} {p : Nat} {f : List Byte} {fcsOk : Bool} {hbFail : Bool} (hs : sub 1280474 n_ = true) (hk_ : Only n_ a_ s) : Only n_ a_ (holdWrite s p f fcsOk hbFail) := holdWrite_only.step hs hk_

theorem rxArrive_only {s : State} {p : Nat} {f : List Byte} {fcsOk : Bool} {kind : Nat} : Only 3927515 s (rxArrive s p f fcsOk kind) := by
  unfold rxArrive
  try dsimp only
  all_goals (repeat' (first
    | with_reducible apply Only.refl
    | with_reducible apply rxNormal_keep rfl
    | with_reducible apply rxNormal_keepE rfl (by assumption)
    | with_reducible apply holdWrite_keep rfl
    | with_reducible apply lnkCount_keep rfl
    | with_reducible apply waitsDrain_keep rfl
    | with_reducible apply touchFast_keep rfl
    | with_reducible apply Only.ite
    | with_reducible apply Only.ite2
    | split
    | dsimp only
    | intro _))
theorem rxArrive_keep {s : State} {p : Nat} {f : List Byte} {fcsOk : Bool} {kind : Nat} (hs : sub 3927515 n_ = true) (hk_ : Only n_ a_ s) : Only n_ a_ (rxArrive s p f fcsOk kind) := rxArrive_only.step hs hk_

theorem execFfpDataReceived_only {port : Nat} {frame : List Byte} {fcsOk : Bool} {s : State} : OOnly 3927515 s (execFfpDataReceived port frame fcsOk s) := by
  unfold execFfpDataReceived
  try dsimp only
  all_goals (repeat' (first
    | with_reducible apply Only.refl
    | with_reducible apply rxArrive_keep rfl
    | with_reducible apply OOnly.ite
    | with_reducible apply OOnly.next
    | dsimp only
    | intro _))

theorem execFfpAckReceived_only {port : Nat} {frame : List Byte} {fcsOk : Bool} {s : State} : OOnly 3927515 s (execFfpAckReceived port frame fcsOk s) := by
  unfold execFfpAckReceived
  try dsimp only
  all_goals (repeat' (first
    | with_reducible apply Only.refl
    | with_reducible apply rxArrive_keep rfl
    | with_reducible apply OOnly.ite
    | with_reducible apply OOnly.next
    | dsimp only
    | intro _))

theorem execFfpHeartbeatReceived_only {port : Nat} {frame : List Byte} {fcsOk : Bool} {s : State} : OOnly 3927515 s (execFfpHeartbeatReceived port frame fcsOk s) := by
  unfold execFfpHeartbeatReceived
  try dsimp only
  all_goals (repeat' (first
    | with_reducible apply Only.refl
    | with_reducible apply rxArrive_keep rfl
    | with_reducible apply OOnly.ite
    | with_reducible apply OOnly.next
    | dsimp only
    | intro _))

theorem execFfpCardReportReceived_only {port : Nat} {frame : List Byte} {fcsOk : Bool} {s : State} : OOnly 3927515 s (execFfpCardReportReceived port frame fcsOk s) := by
  unfold execFfpCardReportReceived
  try dsimp only
  all_goals (repeat' (first
    | with_reducible apply Only.refl
    | with_reducible apply rxArrive_keep rfl
    | with_reducible apply OOnly.ite
    | with_reducible apply OOnly.next
    | dsimp only
    | intro _))

theorem execFfpRetransmitReqReceived_only {port : Nat} {frame : List Byte} {fcsOk : Bool} {s : State} : OOnly 3927515 s (execFfpRetransmitReqReceived port frame fcsOk s) := by
  unfold execFfpRetransmitReqReceived
  try dsimp only
  all_goals (repeat' (first
    | with_reducible apply Only.refl
    | with_reducible apply rxArrive_keep rfl
    | with_reducible apply OOnly.ite
    | with_reducible apply OOnly.next
    | dsimp only
    | intro _))

theorem execAckSendTimer_only {queue : Nat} {s : State} : OOnly 147473 s (execAckSendTimer queue s) := by
  unfold execAckSendTimer
  try dsimp only
  all_goals (repeat' (first
    | with_reducible apply Only.refl
    | with_reducible apply txControl_keep rfl
    | with_reducible apply Only.foldl
    | with_reducible apply Only.foldl2
    | with_reducible apply Only.ite
    | with_reducible apply OOnly.ite
    | with_reducible apply OOnly.next
    | split
    | dsimp only
    | intro _))

theorem execGapRetransmitReq_only {queue : Nat} {s : State} : OOnly 147473 s (execGapRetransmitReq queue s) := by
  unfold execGapRetransmitReq
  try dsimp only
  all_goals (repeat' (first
    | with_reducible apply Only.refl
    | with_reducible apply txControl_keep rfl
    | with_reducible apply Only.foldl
    | with_reducible apply Only.foldl2
    | with_reducible apply Only.ite
    | with_reducible apply OOnly.ite
    | with_reducible apply OOnly.next
    | split
    | dsimp only
    | intro _))

theorem execControlRetransmitTimer_only {queue : Nat} {s : State} : OOnly 131072 s (execControlRetransmitTimer queue s) := by
  unfold execControlRetransmitTimer
  try dsimp only
  all_goals (repeat' (first
    | with_reducible apply Only.refl
    | with_reducible apply queueMod_keep rfl
    | with_reducible apply Only.ite
    | with_reducible apply OOnly.ite
    | with_reducible apply OOnly.next
    | split
    | dsimp only
    | intro _))

theorem giveUpFrame_only {q : Nat} {x : Queue} {s : State} {f : TxFrame} : Only 35920 s (giveUpFrame q x s f) := by
  unfold giveUpFrame
  try dsimp only
  all_goals (repeat' (first
    | with_reducible apply Only.refl
    | with_reducible apply alarmNote_keep rfl
    | with_reducible apply lnkCount_keep rfl
    | with_reducible apply txFree_keep rfl
    | with_reducible apply sendNote_keep rfl
    | split
    | dsimp only
    | intro _))
theorem giveUpFrame_keep {q : Nat} {x : Queue} {s : State} {f : TxFrame} (hs : sub 35920 n_ = true) (hk_ : Only n_ a_ s) : Only n_ a_ (giveUpFrame q x s f) := giveUpFrame_only.step hs hk_

theorem execControlGiveUp_only {queue : Nat} {s : State} : OOnly 183377 s (execControlGiveUp queue s) := by
  unfold execControlGiveUp
  try dsimp only
  all_goals (repeat' (first
    | with_reducible apply Only.refl
    | with_reducible apply queuePut_keep rfl
    | with_reducible apply jot_keep rfl
    | with_reducible apply giveUpFrame_keep rfl
    | with_reducible apply Only.foldl
    | with_reducible apply Only.foldl2
    | with_reducible apply Only.ite
    | with_reducible apply OOnly.ite
    | with_reducible apply OOnly.next
    | split
    | dsimp only
    | intro _))

theorem execStaleFrameFree_only {queue : Nat} {s : State} : OOnly 183377 s (execStaleFrameFree queue s) := by
  unfold execStaleFrameFree
  try dsimp only
  all_goals (repeat' (first
    | with_reducible apply Only.refl
    | with_reducible apply queuePut_keep rfl
    | with_reducible apply alarmNote_keep rfl
    | with_reducible apply lnkCount_keep rfl
    | with_reducible apply txFree_keep rfl
    | with_reducible apply sendNote_keep rfl
    | with_reducible apply jot_keep rfl
    | with_reducible apply Only.foldl
    | with_reducible apply Only.foldl2
    | with_reducible apply Only.ite
    | with_reducible apply OOnly.ite
    | with_reducible apply OOnly.next
    | split
    | dsimp only
    | intro _))

theorem execHeartbeatLoss_only {queue : Nat} {s : State} : OOnly 1280474 s (execHeartbeatLoss queue s) := by
  unfold execHeartbeatLoss
  try dsimp only
  all_goals (repeat' (first
    | with_reducible apply Only.refl
    | with_reducible apply queuePut_keep rfl
    | with_reducible apply tallyPut_keep rfl
    | with_reducible apply lnkEvent_keep rfl
    | with_reducible apply lnkCount_keep rfl
    | with_reducible apply wakeUp_keep rfl
    | with_reducible apply Only.ite
    | with_reducible apply OOnly.ite
    | with_reducible apply OOnly.next
    | split
    | dsimp only
    | intro _))

theorem portIdle_only {s : State} {p : Nat} : Only 131088 s (portIdle s p) := by
  unfold portIdle
  try dsimp only
  all_goals (repeat' (first
    | with_reducible apply Only.refl
    | with_reducible apply lnkEvent_keep rfl
    | with_reducible apply lnkCount_keep rfl
    | with_reducible apply portPut_keep rfl
    | with_reducible apply Only.ite
    | split
    | dsimp only
    | intro _))
theorem portIdle_keep {s : State} {p : Nat} (hs : sub 131088 n_ = true) (hk_ : Only n_ a_ s) : Only n_ a_ (portIdle s p) := portIdle_only.step hs hk_

theorem portSetCfg_only {s : State} {p : Nat} {v : Word} : Only 131088 s (portSetCfg s p v) := by
  unfold portSetCfg
  try dsimp only
  all_goals (repeat' (first
    | with_reducible apply Only.refl
    | with_reducible apply regPut_keep rfl
    | with_reducible apply lnkEvent_keep rfl
    | with_reducible apply lnkCount_keep rfl
    | with_reducible apply portPut_keep rfl
    | with_reducible apply portIdle_keep rfl
    | with_reducible apply Only.foldl
    | with_reducible apply Only.foldl2
    | with_reducible apply Only.ite
    | split
    | dsimp only
    | intro _))
theorem portSetCfg_keep {s : State} {p : Nat} {v : Word} (hs : sub 131088 n_ = true) (hk_ : Only n_ a_ s) : Only n_ a_ (portSetCfg s p v) := portSetCfg_only.step hs hk_

theorem execPortReset_only {port : Nat} {s : State} : OOnly 131088 s (execPortReset port s) := by
  unfold execPortReset
  try dsimp only
  all_goals (repeat' (first
    | with_reducible apply Only.refl
    | with_reducible apply portIdle_keep rfl
    | with_reducible apply Only.ite
    | with_reducible apply OOnly.ite
    | with_reducible apply OOnly.next
    | split
    | dsimp only
    | intro _))

theorem execPortLinkUp_only {port : Nat} {remote : Bool} {s : State} : OOnly 163858 s (execPortLinkUp port remote s) := by
  unfold execPortLinkUp
  try dsimp only
  all_goals (repeat' (first
    | with_reducible apply Only.refl
    | with_reducible apply portReady_keep rfl
    | with_reducible apply lnkEvent_keep rfl
    | with_reducible apply portPut_keep rfl
    | with_reducible apply Only.ite
    | with_reducible apply OOnly.ite
    | with_reducible apply OOnly.next
    | split
    | dsimp only
    | intro _))

theorem execPortLinkDown_only {port : Nat} {localF : Bool} {remote : Bool} {s : State} : OOnly 131088 s (execPortLinkDown port localF remote s) := by
  unfold execPortLinkDown
  try dsimp only
  all_goals (repeat' (first
    | with_reducible apply Only.refl
    | with_reducible apply lnkEvent_keep rfl
    | with_reducible apply lnkCount_keep rfl
    | with_reducible apply portPut_keep rfl
    | with_reducible apply Only.ite
    | with_reducible apply OOnly.ite
    | with_reducible apply OOnly.next
    | split
    | dsimp only
    | intro _))

theorem execPortIdleForcedEnd_only {port : Nat} {s : State} : OOnly 131072 s (execPortIdleForcedEnd port s) := by
  unfold execPortIdleForcedEnd
  try dsimp only
  all_goals (repeat' (first
    | with_reducible apply Only.refl
    | with_reducible apply portPut_keep rfl
    | with_reducible apply Only.ite
    | with_reducible apply OOnly.ite
    | with_reducible apply OOnly.next
    | split
    | dsimp only
    | intro _))

theorem drrCharge_only {s : State} {last : Nat} {q : Nat} {n : Nat} {qs : List Nat} : Only 131072 s (drrCharge s last q n qs) := by
  unfold drrCharge
  try dsimp only
  all_goals (repeat' (first
    | with_reducible apply Only.refl
    | with_reducible apply queueMod_keep rfl
    | with_reducible apply Only.foldl
    | with_reducible apply Only.foldl2
    | with_reducible apply Only.ite
    | split
    | dsimp only
    | intro _))
theorem drrCharge_keep {s : State} {last : Nat} {q : Nat} {n : Nat} {qs : List Nat} (hs : sub 131072 n_ = true) (hk_ : Only n_ a_ s) : Only n_ a_ (drrCharge s last q n qs) := drrCharge_only.step hs hk_

theorem txSent_only {s : State} {q : Nat} {f : TxFrame} {times : Nat} : Only 163856 s (txSent s q f times) := by
  unfold txSent
  try dsimp only
  all_goals (repeat' (first
    | with_reducible apply Only.refl
    | with_reducible apply txFree_keep rfl
    | with_reducible apply lnkCount_keep rfl
    | with_reducible apply queuePut_keep rfl
    | with_reducible apply Only.ite
    | split
    | dsimp only
    | intro _))
theorem txSent_keep {s : State} {q : Nat} {f : TxFrame} {times : Nat} (hs : sub 163856 n_ = true) (hk_ : Only n_ a_ s) : Only n_ a_ (txSent s q f times) := txSent_only.step hs hk_

theorem txServe_only {s : State} {p : Nat} {q : Nat} {times : Nat} : Only 163857 s (txServe s p q times) := by
  unfold txServe
  try dsimp only
  all_goals (repeat' (first
    | with_reducible apply Only.refl
    | with_reducible apply sendFrame_keep rfl
    | with_reducible apply txSent_keep rfl
    | with_reducible apply Only.foldl
    | with_reducible apply Only.foldl2
    | split
    | dsimp only
    | intro _))
theorem txServe_keep {s : State} {p : Nat} {q : Nat} {times : Nat} (hs : sub 163857 n_ = true) (hk_ : Only n_ a_ s) : Only n_ a_ (txServe s p q times) := txServe_only.step hs hk_

theorem execFrameTransmitted_only {port : Nat} {s : State} : OOnly 163857 s (execFrameTransmitted port s) := by
  unfold execFrameTransmitted
  try dsimp only
  all_goals (repeat' (first
    | with_reducible apply Only.refl
    | with_reducible apply txServe_keep rfl
    | with_reducible apply portPut_keep rfl
    | with_reducible apply queueMod_keep rfl
    | with_reducible apply drrCharge_keep rfl
    | with_reducible apply Only.ite
    | with_reducible apply OOnly.ite
    | with_reducible apply OOnly.next
    | split
    | dsimp only
    | intro _))

theorem deliverTry_only {s : State} {queue : Nat} {ok : Bool} : Only 184273 s (deliverTry s queue ok) := by
  unfold deliverTry
  try dsimp only
  all_goals (repeat' (first
    | with_reducible apply Only.refl
    | with_reducible apply rxForward_keep rfl
    | with_reducible apply queuePut_keep rfl
    | with_reducible apply hmpRelease_keep rfl
    | with_reducible apply ringFail_keep rfl
    | with_reducible apply cqHalt_keep rfl
    | with_reducible apply hostWrite_keep rfl
    | with_reducible apply retryDel_keep rfl
    | with_reducible apply cqWrite_keep rfl
    | with_reducible apply Only.ite
    | split
    | dsimp only
    | intro _))
theorem deliverTry_keep {s : State} {queue : Nat} {ok : Bool} (hs : sub 184273 n_ = true) (hk_ : Only n_ a_ s) : Only n_ a_ (deliverTry s queue ok) := deliverTry_only.step hs hk_

theorem execReceiveDelivery_only {queue : Nat} {ok : Bool} {s : State} : OOnly 184273 s (execReceiveDelivery queue ok s) := by
  unfold execReceiveDelivery
  try dsimp only
  all_goals (repeat' (first
    | with_reducible apply Only.refl
    | with_reducible apply deliverTry_keep rfl
    | with_reducible apply Only.ite
    | with_reducible apply OOnly.ite
    | with_reducible apply OOnly.next
    | split
    | dsimp only
    | intro _))

theorem sendChains_only {s : State} {p : List Byte} {qs : List Nat} {l : List Nat} {t : State}
    (hq_ : sendChains s p qs = some (l, t)) : Only 32786 s t := by
  induction qs generalizing s l with
  | nil => cases hq_; exact .refl
  | cons q qs ih =>
    unfold sendChains at hq_
    split at hq_
    · cases hq_
    · dsimp only at hq_
      split at hq_
      · cases hq_
      · split at hq_
        · cases hq_
        · rename_i he
          rw [Option.map_eq_some_iff] at hq_
          obtain ⟨r, hr, hi⟩ := hq_
          cases hi
          exact ((hmpFill_only he).mono rfl).trans (ih (l := r.1) hr)
theorem sendChains_keep {s : State} {payload : List Byte} {z2 : List Nat} {y0_ : List Nat} {t_ : State} (hs : sub 32786 n_ = true) (he : sendChains s payload z2 = some (y0_, t_)) (hk_ : Only n_ a_ s) : Only n_ a_ t_ := (sendChains_only he).step hs hk_

theorem putIp_only {s : State} {p : Nat} {ip : List Byte} : Only 16 s (putIp s p ip) := by
  unfold putIp
  try dsimp only
  all_goals (repeat' (first
    | with_reducible apply Only.refl
    | with_reducible apply regPut_keep rfl
    | with_reducible apply Only.foldl
    | with_reducible apply Only.foldl2
    | dsimp only
    | intro _))
theorem putIp_keep {s : State} {p : Nat} {ip : List Byte} (hs : sub 16 n_ = true) (hk_ : Only n_ a_ s) : Only n_ a_ (putIp s p ip) := putIp_only.step hs hk_

theorem execPortConfig_only {tag : Nat} {io : HostIO} {s : State} : OOnly 683089 s (execPortConfig tag io s) := by
  unfold execPortConfig
  try dsimp only
  all_goals (repeat' (first
    | with_reducible apply Only.refl
    | with_reducible apply runIn_only rfl
    | with_reducible apply putIp_keep rfl
    | with_reducible apply portPut_keep rfl
    | with_reducible apply regPut_keep rfl
    | with_reducible apply portSetCfg_keep rfl
    | with_reducible apply endOk_keep rfl
    | with_reducible apply Only.ite
    | with_reducible apply OOnly.ite
    | with_reducible apply OOnly.next
    | split
    | dsimp only
    | intro _))

theorem execPortStatus_only {tag : Nat} {io : HostIO} {s : State} : OOnly 552529 s (execPortStatus tag io s) := by
  unfold execPortStatus
  try dsimp only
  all_goals (repeat' (first
    | with_reducible apply Only.refl
    | with_reducible apply runCmd_only rfl
    | with_reducible apply endOut_keep rfl
    | with_reducible apply OOnly.ite
    | with_reducible apply OOnly.next
    | dsimp only
    | intro _))

theorem queueNote_only {s : State} {q : Nat} : Only 16385 s (queueNote s q) := by
  unfold queueNote
  try dsimp only
  all_goals (repeat' (first
    | with_reducible apply Only.refl
    | with_reducible apply jot_keep rfl
    | dsimp only
    | intro _))
theorem queueNote_keep {s : State} {q : Nat} (hs : sub 16385 n_ = true) (hk_ : Only n_ a_ s) : Only n_ a_ (queueNote s q) := queueNote_only.step hs hk_

theorem execQueueCreate_only {tag : Nat} {io : HostIO} {s : State} : OOnly 4877393 s (execQueueCreate tag io s) := by
  unfold execQueueCreate
  try dsimp only
  all_goals (repeat' (first
    | with_reducible apply Only.refl
    | with_reducible apply runIn_only rfl
    | with_reducible apply endFault_keep rfl
    | with_reducible apply queueNote_keep rfl
    | with_reducible apply queuePut_keep rfl
    | with_reducible apply thmAsk_keep rfl
    | with_reducible apply Only.ite
    | with_reducible apply OOnly.ite
    | with_reducible apply OOnly.next
    | split
    | dsimp only
    | intro _))

theorem execQueueModify_only {tag : Nat} {io : HostIO} {s : State} : OOnly 715857 s (execQueueModify tag io s) := by
  unfold execQueueModify
  try dsimp only
  all_goals (repeat' (first
    | with_reducible apply Only.refl
    | with_reducible apply runIn_only rfl
    | with_reducible apply endOk_keep rfl
    | with_reducible apply queueNote_keep rfl
    | with_reducible apply rxDrain_keep rfl
    | with_reducible apply queueMod_keep rfl
    | with_reducible apply OOnly.ite
    | with_reducible apply OOnly.next
    | dsimp only
    | intro _))

theorem queueDrain_only {s : State} {q : Nat} : Only 164864 s (queueDrain s q) := by
  unfold queueDrain
  try dsimp only
  all_goals (repeat' (first
    | with_reducible apply Only.refl
    | with_reducible apply sendNote_keep rfl
    | with_reducible apply hmpReleaseAll_keep rfl
    | with_reducible apply queuePut_keep rfl
    | with_reducible apply Only.foldl
    | with_reducible apply Only.foldl2
    | fail_if_no_progress (with_reducible apply Only.upd rfl)
    | split
    | dsimp only
    | intro _))
theorem queueDrain_keep {s : State} {q : Nat} (hs : sub 164864 n_ = true) (hk_ : Only n_ a_ s) : Only n_ a_ (queueDrain s q) := queueDrain_only.step hs hk_

theorem execQueueDestroy_only {tag : Nat} {s : State} : OOnly 715857 s (execQueueDestroy tag s) := by
  unfold execQueueDestroy
  try dsimp only
  all_goals (repeat' (first
    | with_reducible apply Only.refl
    | with_reducible apply runCmd_only rfl
    | with_reducible apply queueNote_keep rfl
    | with_reducible apply queueDrain_keep rfl
    | with_reducible apply Only.ite
    | with_reducible apply OOnly.ite
    | with_reducible apply OOnly.next
    | split
    | dsimp only
    | intro _))

theorem execQueueDrained_only {queue : Nat} {s : State} : OOnly 683089 s (execQueueDrained queue s) := by
  unfold execQueueDrained
  try dsimp only
  all_goals (repeat' (first
    | with_reducible apply Only.refl
    | with_reducible apply queueNote_keep rfl
    | with_reducible apply endOk_keep rfl
    | with_reducible apply Only.ite
    | with_reducible apply OOnly.ite
    | with_reducible apply OOnly.next
    | fail_if_no_progress (with_reducible apply Only.upd rfl)
    | split
    | dsimp only
    | intro _))

theorem takeCtrs_only {s : State} {qs : List Nat} : Only 147457 s (takeCtrs s qs).2 := by
  unfold takeCtrs
  try dsimp only
  all_goals (repeat' (first
    | with_reducible apply Only.refl
    | with_reducible apply takeCtr_keep rfl
    | with_reducible apply takeCtr_keepE rfl (by assumption)
    | with_reducible apply queuePut_keep rfl
    | with_reducible apply Only.foldl
    | with_reducible apply Only.foldl2
    | split
    | dsimp only
    | intro _))
theorem takeCtrs_keep {s : State} {qs : List Nat} (hs : sub 147457 n_ = true) (hk_ : Only n_ a_ s) : Only n_ a_ (takeCtrs s qs).2 := takeCtrs_only.step hs hk_
theorem takeCtrs_keepE {s : State} {qs : List Nat} {y0_ : List Nat} {t_ : State} (hs : sub 147457 n_ = true) (he : takeCtrs s qs = (y0_, t_)) (hk_ : Only n_ a_ s) : Only n_ a_ t_ := by
  have := takeCtrs_keep hs hk_ (s := s) (qs := qs)
  rw [he] at this; exact this

theorem sendFrames_only {s : State} {tag : Nat} {c : Cmd} {d : List Byte} {qs : List Nat} {chains : List Nat} {at_ : Stamp} : Only 683089 s (sendFrames s tag c d qs chains at_) := by
  unfold sendFrames
  try dsimp only
  all_goals (repeat' (first
    | with_reducible apply Only.refl
    | with_reducible apply takeCtrs_keep rfl
    | with_reducible apply takeCtrs_keepE rfl (by assumption)
    | with_reducible apply jot_keep rfl
    | with_reducible apply txData_keep rfl
    | with_reducible apply cmdPut_keep rfl
    | with_reducible apply endOk_keep rfl
    | with_reducible apply Only.foldl
    | with_reducible apply Only.foldl2
    | with_reducible apply Only.ite
    | with_reducible apply Only.ite2
    | split
    | dsimp only
    | intro _))
theorem sendFrames_keep {s : State} {tag : Nat} {c : Cmd} {d : List Byte} {qs : List Nat} {chains : List Nat} {at_ : Stamp} (hs : sub 683089 n_ = true) (hk_ : Only n_ a_ s) : Only n_ a_ (sendFrames s tag c d qs chains at_) := sendFrames_only.step hs hk_

theorem execLinkSend_only {tag : Nat} {io : HostIO} {s : State} : OOnly 716371 s (execLinkSend tag io s) := by
  unfold execLinkSend
  try dsimp only
  all_goals (repeat' (first
    | with_reducible apply Only.refl
    | with_reducible apply runIn_only rfl
    | with_reducible apply sendChains_keep rfl (by assumption)
    | with_reducible apply sendFrames_keep rfl
    | with_reducible apply endOut_keep rfl
    | with_reducible apply Only.foldl
    | with_reducible apply Only.foldl2
    | with_reducible apply Only.ite
    | with_reducible apply Only.ite2
    | with_reducible apply OOnly.ite
    | with_reducible apply OOnly.next
    | split
    | dsimp only
    | intro _))

theorem execLinkRekey_only {tag : Nat} {s : State} : OOnly 4877393 s (execLinkRekey tag s) := by
  unfold execLinkRekey
  try dsimp only
  all_goals (repeat' (first
    | with_reducible apply Only.refl
    | with_reducible apply runCmd_only rfl
    | with_reducible apply endFault_keep rfl
    | with_reducible apply thmAsk_keep rfl
    | with_reducible apply Only.ite
    | with_reducible apply OOnly.ite
    | with_reducible apply OOnly.next
    | fail_if_no_progress (with_reducible apply Only.upd rfl)
    | split
    | dsimp only
    | intro _))

theorem execLinkClassify_only {tag : Nat} {io : HostIO} {s : State} : OOnly 683089 s (execLinkClassify tag io s) := by
  unfold execLinkClassify
  try dsimp only
  all_goals (repeat' (first
    | with_reducible apply Only.refl
    | with_reducible apply runIn_only rfl
    | with_reducible apply endOk_keep rfl
    | with_reducible apply Only.ite
    | with_reducible apply OOnly.ite
    | with_reducible apply OOnly.next
    | fail_if_no_progress (with_reducible apply Only.upd rfl)
    | split
    | dsimp only
    | intro _))

theorem execCardRetire_only {tag : Nat} {ok0 : Bool} {ok1 : Bool} {s : State} : OOnly 13134929 s (execCardRetire tag ok0 ok1 s) := by
  unfold execCardRetire
  try dsimp only
  all_goals (repeat' (first
    | with_reducible apply Only.refl
    | with_reducible apply runCmd_only rfl
    | with_reducible apply endFault_keep rfl
    | with_reducible apply jrnCounter_keep rfl (by assumption)
    | with_reducible apply endAfter_keep rfl
    | with_reducible apply jrnFailed_keep rfl
    | with_reducible apply thmAsk_keep rfl
    | with_reducible apply Only.ite
    | with_reducible apply OOnly.ite
    | with_reducible apply OOnly.next
    | split
    | dsimp only
    | intro _))

theorem cardDrop_only {s : State} {id : Nat} : Only 147457 s (cardDrop s id) := by
  unfold cardDrop
  try dsimp only
  all_goals (repeat' (first
    | with_reducible apply Only.refl
    | with_reducible apply jot_keep rfl
    | fail_if_no_progress (with_reducible apply Only.upd rfl)
    | dsimp only
    | intro _))
theorem cardDrop_keep {s : State} {id : Nat} (hs : sub 147457 n_ = true) (hk_ : Only n_ a_ s) : Only n_ a_ (cardDrop s id) := cardDrop_only.step hs hk_

theorem execCardStatus_only {tag : Nat} {io : HostIO} {s : State} : OOnly 552529 s (execCardStatus tag io s) := by
  unfold execCardStatus
  try dsimp only
  all_goals (repeat' (first
    | with_reducible apply Only.refl
    | with_reducible apply runCmd_only rfl
    | with_reducible apply endOut_keep rfl
    | with_reducible apply endFault_keep rfl
    | with_reducible apply OOnly.ite
    | with_reducible apply OOnly.next
    | split
    | dsimp only
    | intro _))

theorem execLinkStats_only {tag : Nat} {io : HostIO} {s : State} : OOnly 683601 s (execLinkStats tag io s) := by
  unfold execLinkStats
  try dsimp only
  all_goals (repeat' (first
    | with_reducible apply Only.refl
    | with_reducible apply runCmd_only rfl
    | with_reducible apply endFault_keep rfl
    | with_reducible apply endOut_keep rfl
    | with_reducible apply queueMod_keep rfl
    | with_reducible apply Only.ite
    | with_reducible apply OOnly.ite
    | with_reducible apply OOnly.next
    | split
    | dsimp only
    | intro _))

theorem incPut_only {s : State} {n : Nat} : Only 16 s (incPut s n) := by
  unfold incPut
  try dsimp only
  all_goals (repeat' (first
    | with_reducible apply Only.refl
    | with_reducible apply regPut_keep rfl
    | with_reducible apply regSetField_keep rfl
    | dsimp only
    | intro _))
theorem incPut_keep {s : State} {n : Nat} (hs : sub 16 n_ = true) (hk_ : Only n_ a_ s) : Only n_ a_ (incPut s n) := incPut_only.step hs hk_

theorem corrBegin_only {s : State} {c : Correction} {left : Nat} {stop : Int} : Only 20 s (corrBegin s c left stop) := by
  unfold corrBegin
  try dsimp only
  all_goals (repeat' (first
    | with_reducible apply Only.refl
    | with_reducible apply incPut_keep rfl
    | with_reducible apply Only.ite
    | fail_if_no_progress (with_reducible apply Only.upd rfl)
    | split
    | dsimp only
    | intro _))
theorem corrBegin_keep {s : State} {c : Correction} {left : Nat} {stop : Int} (hs : sub 20 n_ = true) (hk_ : Only n_ a_ s) : Only n_ a_ (corrBegin s c left stop) := corrBegin_only.step hs hk_

theorem corrHold_only {s : State} {was : Bool} : Only 16 s (corrHold s was) := by
  unfold corrHold
  try dsimp only
  all_goals (repeat' (first
    | with_reducible apply Only.refl
    | with_reducible apply incPut_keep rfl
    | with_reducible apply Only.ite
    | split
    | dsimp only
    | intro _))
theorem corrHold_keep {s : State} {was : Bool} (hs : sub 16 n_ = true) (hk_ : Only n_ a_ s) : Only n_ a_ (corrHold s was) := corrHold_only.step hs hk_

theorem rtcCycle_only {s : State} : Only 4 s (rtcCycle s) := by
  unfold rtcCycle
  try dsimp only
  all_goals (repeat' (first
    | with_reducible apply Only.refl
    | with_reducible apply Only.ite
    | fail_if_no_progress (with_reducible apply Only.upd rfl)
    | split
    | dsimp only
    | intro _))

theorem endCorrection_only {s : State} {o : Int} : Only 2132 s (endCorrection s o) := by
  unfold endCorrection
  try dsimp only
  all_goals (repeat' (first
    | with_reducible apply Only.refl
    | with_reducible apply incPut_keep rfl
    | with_reducible apply tallyPut_keep rfl
    | with_reducible apply sqcSet_keep rfl
    | with_reducible apply regSetBit_keep rfl
    | fail_if_no_progress (with_reducible apply Only.upd rfl)
    | split
    | dsimp only
    | intro _))
theorem endCorrection_keep {s : State} {o : Int} (hs : sub 2132 n_ = true) (hk_ : Only n_ a_ s) : Only n_ a_ (endCorrection s o) := endCorrection_only.step hs hk_

theorem corrCycle_only {s : State} : Only 2132 s (corrCycle s) := by
  unfold corrCycle
  try dsimp only
  all_goals (repeat' (first
    | with_reducible apply Only.refl
    | with_reducible apply endCorrection_keep rfl
    | with_reducible apply Only.ite
    | fail_if_no_progress (with_reducible apply Only.upd rfl)
    | split
    | dsimp only
    | intro _))

theorem secondsMark_only {s : State} {t : State} : Only 4 t (secondsMark s t) := by
  unfold secondsMark
  try dsimp only
  all_goals (repeat' (first
    | with_reducible apply Only.refl
    | fail_if_no_progress (with_reducible apply Only.upd rfl)
    | dsimp only
    | intro _))
theorem secondsMark_keep {s : State} {t : State} (hs : sub 4 n_ = true) (hk_ : Only n_ a_ t) : Only n_ a_ (secondsMark s t) := secondsMark_only.step hs hk_

theorem stepForward_only {s : State} {amount : Nat} : Only 2132 s (stepForward s amount) := by
  unfold stepForward
  try dsimp only
  all_goals (repeat' (first
    | with_reducible apply Only.refl
    | with_reducible apply secondsMark_keep rfl
    | with_reducible apply tallyPut_keep rfl
    | with_reducible apply sqcSet_keep rfl
    | fail_if_no_progress (with_reducible apply Only.upd rfl)
    | dsimp only
    | intro _))
theorem stepForward_keep {s : State} {amount : Nat} (hs : sub 2132 n_ = true) (hk_ : Only n_ a_ s) : Only n_ a_ (stepForward s amount) := stepForward_only.step hs hk_

theorem stepBackward_only {s : State} {o : Int} {left : Nat} {stop : Int} : Only 2132 s (stepBackward s o left stop) := by
  unfold stepBackward
  try dsimp only
  all_goals (repeat' (first
    | with_reducible apply Only.refl
    | with_reducible apply tallyPut_keep rfl
    | with_reducible apply sqcSet_keep rfl
    | with_reducible apply regSetBit_keep rfl
    | with_reducible apply corrBegin_keep rfl
    | dsimp only
    | intro _))
theorem stepBackward_keep {s : State} {o : Int} {left : Nat} {stop : Int} (hs : sub 2132 n_ = true) (hk_ : Only n_ a_ s) : Only n_ a_ (stepBackward s o left stop) := stepBackward_only.step hs hk_

theorem slewBegin_only {s : State} {o : Int} : Only 2132 s (slewBegin s o) := by
  unfold slewBegin
  try dsimp only
  all_goals (repeat' (first
    | with_reducible apply Only.refl
    | with_reducible apply tallyPut_keep rfl
    | with_reducible apply sqcSet_keep rfl
    | with_reducible apply regSetBit_keep rfl
    | with_reducible apply corrBegin_keep rfl
    | dsimp only
    | intro _))
theorem slewBegin_keep {s : State} {o : Int} (hs : sub 2132 n_ = true) (hk_ : Only n_ a_ s) : Only n_ a_ (slewBegin s o) := slewBegin_only.step hs hk_

theorem corrMore_only {s : State} {o : Int} : Only 4 s (corrMore s o) := by
  unfold corrMore
  try dsimp only
  all_goals (repeat' (first
    | with_reducible apply Only.refl
    | fail_if_no_progress (with_reducible apply Only.upd rfl)
    | dsimp only
    | intro _))
theorem corrMore_keep {s : State} {o : Int} (hs : sub 4 n_ = true) (hk_ : Only n_ a_ s) : Only n_ a_ (corrMore s o) := corrMore_only.step hs hk_

theorem servoAdjust_only {s : State} : Only 18 s (servoAdjust s) := by
  unfold servoAdjust
  try dsimp only
  all_goals (repeat' (first
    | with_reducible apply Only.refl
    | with_reducible apply freeWord_keep rfl
    | with_reducible apply freeWord_keepE rfl (by assumption)
    | with_reducible apply incPut_keep rfl
    | split
    | dsimp only
    | intro _))
theorem servoAdjust_keep {s : State} (hs : sub 18 n_ = true) (hk_ : Only n_ a_ s) : Only n_ a_ (servoAdjust s) := servoAdjust_only.step hs hk_

theorem correct_only {s : State} {o : Int} : Only 2134 s (correct s o) := by
  unfold correct
  try dsimp only
  all_goals (repeat' (first
    | with_reducible apply Only.refl
    | with_reducible apply servoAdjust_keep rfl
    | with_reducible apply endCorrection_keep rfl
    | with_reducible apply stepForward_keep rfl
    | with_reducible apply corrMore_keep rfl
    | with_reducible apply stepBackward_keep rfl
    | with_reducible apply slewBegin_keep rfl
    | with_reducible apply Only.ite
    | split
    | dsimp only
    | intro _))
theorem correct_keep {s : State} {o : Int} (hs : sub 2134 n_ = true) (hk_ : Only n_ a_ s) : Only n_ a_ (correct s o) := correct_only.step hs hk_

theorem putOffset_only {s : State} {a : Nat} {o : Int} : Only 16 s (putOffset s a o) := by
  unfold putOffset
  try dsimp only
  all_goals (repeat' (first
    | with_reducible apply Only.refl
    | with_reducible apply regPut_keep rfl
    | dsimp only
    | intro _))
theorem putOffset_keep {s : State} {a : Nat} {o : Int} (hs : sub 16 n_ = true) (hk_ : Only n_ a_ s) : Only n_ a_ (putOffset s a o) := putOffset_only.step hs hk_

theorem measure_only {s : State} {o : Int} : Only 20 s (measure s o) := by
  unfold measure
  try dsimp only
  all_goals (repeat' (first
    | with_reducible apply Only.refl
    | with_reducible apply regSetField_keep rfl
    | with_reducible apply regSetBit_keep rfl
    | with_reducible apply putOffset_keep rfl
    | with_reducible apply sqcSet_keep rfl
    | with_reducible apply Only.ite
    | fail_if_no_progress (with_reducible apply Only.upd rfl)
    | split
    | dsimp only
    | intro _))
theorem measure_keep {s : State} {o : Int} (hs : sub 20 n_ = true) (hk_ : Only n_ a_ s) : Only n_ a_ (measure s o) := measure_only.step hs hk_

theorem execServoUpdate_only {s : State} : OOnly 2134 s (execServoUpdate s) := by
  unfold execServoUpdate
  try dsimp only
  all_goals (repeat' (first
    | with_reducible apply Only.refl
    | with_reducible apply correct_keep rfl
    | with_reducible apply Only.ite
    | with_reducible apply OOnly.ite
    | with_reducible apply OOnly.next
    | fail_if_no_progress (with_reducible apply Only.upd rfl)
    | split
    | dsimp only
    | intro _))

theorem execTimeStep_only {s : State} : OOnly 2132 s (execTimeStep s) := by
  unfold execTimeStep
  try dsimp only
  all_goals (repeat' (first
    | with_reducible apply Only.refl
    | with_reducible apply stepForward_keep rfl
    | with_reducible apply stepBackward_keep rfl
    | with_reducible apply Only.ite
    | with_reducible apply OOnly.ite
    | with_reducible apply OOnly.next
    | fail_if_no_progress (with_reducible apply Only.upd rfl)
    | split
    | dsimp only
    | intro _))

theorem sourceLost_only {s : State} : Only 1280478 s (sourceLost s) := by
  unfold sourceLost
  try dsimp only
  all_goals (repeat' (first
    | with_reducible apply Only.refl
    | with_reducible apply regSetBit_keep rfl
    | with_reducible apply endCorrection_keep rfl
    | with_reducible apply wakeUp_keep rfl
    | with_reducible apply sqcSet_keep rfl
    | with_reducible apply regSetField_keep rfl
    | with_reducible apply Only.ite
    | fail_if_no_progress (with_reducible apply Only.upd rfl)
    | split
    | dsimp only
    | intro _))
theorem sourceLost_keep {s : State} (hs : sub 1280478 n_ = true) (hk_ : Only n_ a_ s) : Only n_ a_ (sourceLost s) := sourceLost_only.step hs hk_

theorem execPpsInEdge_only {s : State} : OOnly 2162772 s (execPpsInEdge s) := by
  unfold execPpsInEdge
  try dsimp only
  all_goals (repeat' (first
    | with_reducible apply Only.refl
    | with_reducible apply sqcSet_keep rfl
    | with_reducible apply agentNext_keep rfl
    | with_reducible apply agentNext_keepE rfl (by assumption)
    | with_reducible apply evPulse_keep rfl
    | with_reducible apply regPut64_keep rfl
    | with_reducible apply measure_keep rfl
    | with_reducible apply Only.ite
    | with_reducible apply Only.ite2
    | with_reducible apply OOnly.ite
    | with_reducible apply OOnly.next
    | fail_if_no_progress (with_reducible apply Only.upd rfl)
    | split
    | dsimp only
    | intro _))

theorem execPpsSourceTimeout_only {s : State} : OOnly 1280478 s (execPpsSourceTimeout s) := by
  unfold execPpsSourceTimeout
  try dsimp only
  all_goals (repeat' (first
    | with_reducible apply Only.refl
    | with_reducible apply sourceLost_keep rfl
    | with_reducible apply Only.ite
    | with_reducible apply OOnly.ite
    | with_reducible apply OOnly.next
    | split
    | dsimp only
    | intro _))

theorem execPtpSyncTimeout_only {s : State} : OOnly 1280478 s (execPtpSyncTimeout s) := by
  unfold execPtpSyncTimeout
  try dsimp only
  all_goals (repeat' (first
    | with_reducible apply Only.refl
    | with_reducible apply sourceLost_keep rfl
    | with_reducible apply Only.ite
    | with_reducible apply OOnly.ite
    | with_reducible apply OOnly.next
    | split
    | dsimp only
    | intro _))

theorem execPpsOutSecond_only {s : State} : OOnly 4 s (execPpsOutSecond s) := by
  unfold execPpsOutSecond
  try dsimp only
  all_goals (repeat' (first
    | with_reducible apply Only.refl
    | with_reducible apply Only.ite
    | with_reducible apply OOnly.ite
    | with_reducible apply OOnly.next
    | fail_if_no_progress (with_reducible apply Only.upd rfl)
    | split
    | dsimp only
    | intro _))

theorem execPpsOutPulseEnd_only {s : State} : OOnly 4 s (execPpsOutPulseEnd s) := by
  unfold execPpsOutPulseEnd
  try dsimp only
  all_goals (repeat' (first
    | with_reducible apply Only.refl
    | with_reducible apply Only.ite
    | with_reducible apply OOnly.ite
    | with_reducible apply OOnly.next
    | fail_if_no_progress (with_reducible apply Only.upd rfl)
    | split
    | dsimp only
    | intro _))

theorem execRtcCopy_only {s : State} : OOnly 4 s (execRtcCopy s) := by
  unfold execRtcCopy
  try dsimp only
  all_goals (repeat' (first
    | with_reducible apply Only.refl
    | with_reducible apply Only.ite
    | with_reducible apply OOnly.ite
    | with_reducible apply OOnly.next
    | fail_if_no_progress (with_reducible apply Only.upd rfl)
    | split
    | dsimp only
    | intro _))

theorem execRtcCrystalStop_only {s : State} : OOnly 16 s (execRtcCrystalStop s) := by
  unfold execRtcCrystalStop
  try dsimp only
  all_goals (repeat' (first
    | with_reducible apply Only.refl
    | with_reducible apply sqcSet_keep rfl
    | with_reducible apply regSetBit_keep rfl
    | with_reducible apply OOnly.ite
    | with_reducible apply OOnly.next
    | dsimp only
    | intro _))

theorem execAiringRefLoss_only {alive : Nat} {s : State} : OOnly 2128 s (execAiringRefLoss alive s) := by
  unfold execAiringRefLoss
  try dsimp only
  all_goals (repeat' (first
    | with_reducible apply Only.refl
    | with_reducible apply tallyPut_keep rfl
    | with_reducible apply sqcSet_keep rfl
    | with_reducible apply regSetField_keep rfl
    | with_reducible apply regSetBit_keep rfl
    | with_reducible apply Only.ite
    | with_reducible apply OOnly.ite
    | with_reducible apply OOnly.next
    | split
    | dsimp only
    | intro _))

theorem execTimeGet_only {tag : Nat} {io : HostIO} {s : State} : OOnly 552529 s (execTimeGet tag io s) := by
  unfold execTimeGet
  try dsimp only
  all_goals (repeat' (first
    | with_reducible apply Only.refl
    | with_reducible apply runCmd_only rfl
    | with_reducible apply endOut_keep rfl
    | with_reducible apply OOnly.ite
    | with_reducible apply OOnly.next
    | dsimp only
    | intro _))

theorem setCt_only {s : State} {ct : CalTime} {at_ : Stamp} : Only 20 s (setCt s ct at_) := by
  unfold setCt
  try dsimp only
  all_goals (repeat' (first
    | with_reducible apply Only.refl
    | with_reducible apply regPut64_keep rfl
    | with_reducible apply regSetBit_keep rfl
    | fail_if_no_progress (with_reducible apply Only.upd rfl)
    | dsimp only
    | intro _))
theorem setCt_keep {s : State} {ct : CalTime} {at_ : Stamp} (hs : sub 20 n_ = true) (hk_ : Only n_ a_ s) : Only n_ a_ (setCt s ct at_) := setCt_only.step hs hk_

theorem execTimeSetCt_only {tag : Nat} {s : State} : OOnly 552021 s (execTimeSetCt tag s) := by
  unfold execTimeSetCt
  try dsimp only
  all_goals (repeat' (first
    | with_reducible apply Only.refl
    | with_reducible apply runCmd_only rfl
    | with_reducible apply endOk_keep rfl
    | with_reducible apply setCt_keep rfl
    | with_reducible apply OOnly.ite
    | with_reducible apply OOnly.next
    | dsimp only
    | intro _))

theorem sourceSelect_only {s : State} {src : Nat} {port : Nat} {domain : Nat} : Only 20 s (sourceSelect s src port domain) := by
  unfold sourceSelect
  try dsimp only
  all_goals (repeat' (first
    | with_reducible apply Only.refl
    | with_reducible apply regSetField_keep rfl
    | with_reducible apply regSetBit_keep rfl
    | with_reducible apply Only.ite
    | fail_if_no_progress (with_reducible apply Only.upd rfl)
    | split
    | dsimp only
    | intro _))
theorem sourceSelect_keep {s : State} {src : Nat} {port : Nat} {domain : Nat} (hs : sub 20 n_ = true) (hk_ : Only n_ a_ s) : Only n_ a_ (sourceSelect s src port domain) := sourceSelect_only.step hs hk_

theorem execTimeSetSource_only {tag : Nat} {present : Bool} {s : State} : OOnly 552021 s (execTimeSetSource tag present s) := by
  unfold execTimeSetSource
  try dsimp only
  all_goals (repeat' (first
    | with_reducible apply Only.refl
    | with_reducible apply runCmd_only rfl
    | with_reducible apply endAfter_keep rfl
    | with_reducible apply endOk_keep rfl
    | with_reducible apply sourceSelect_keep rfl
    | with_reducible apply Only.ite
    | with_reducible apply OOnly.ite
    | with_reducible apply OOnly.next
    | split
    | dsimp only
    | intro _))

theorem execTimeSetPpsOut_only {tag : Nat} {s : State} : OOnly 552021 s (execTimeSetPpsOut tag s) := by
  unfold execTimeSetPpsOut
  try dsimp only
  all_goals (repeat' (first
    | with_reducible apply Only.refl
    | with_reducible apply runCmd_only rfl
    | with_reducible apply regSetField_keep rfl
    | with_reducible apply endOk_keep rfl
    | with_reducible apply OOnly.ite
    | with_reducible apply OOnly.next
    | fail_if_no_progress (with_reducible apply Only.upd rfl)
    | dsimp only
    | intro _))

theorem execTimeSleepPolicy_only {tag : Nat} {s : State} : OOnly 552017 s (execTimeSleepPolicy tag s) := by
  unfold execTimeSleepPolicy
  try dsimp only
  all_goals (repeat' (first
    | with_reducible apply Only.refl
    | with_reducible apply runCmd_only rfl
    | with_reducible apply endOk_keep rfl
    | with_reducible apply regPut_keep rfl
    | with_reducible apply regSetField_keep rfl
    | with_reducible apply OOnly.ite
    | with_reducible apply OOnly.next
    | dsimp only
    | intro _))

theorem execTimeStandby_only {tag : Nat} {s : State} : OOnly 552029 s (execTimeStandby tag s) := by
  unfold execTimeStandby
  try dsimp only
  all_goals (repeat' (first
    | with_reducible apply Only.refl
    | with_reducible apply runCmd_only rfl
    | with_reducible apply regPut64_keep rfl
    | with_reducible apply endOk_keep rfl
    | with_reducible apply OOnly.ite
    | with_reducible apply OOnly.next
    | fail_if_no_progress (with_reducible apply Only.upd rfl)
    | dsimp only
    | intro _))

theorem ptpPush_only {s : State} {p : Nat} {e : PtpEntry} : Only 131088 s (ptpPush s p e) := by
  unfold ptpPush
  try dsimp only
  all_goals (repeat' (first
    | with_reducible apply Only.refl
    | with_reducible apply lnkEvent_keep rfl
    | with_reducible apply lnkCount_keep rfl
    | with_reducible apply portPut_keep rfl
    | with_reducible apply Only.ite
    | split
    | dsimp only
    | intro _))
theorem ptpPush_keep {s : State} {p : Nat} {e : PtpEntry} (hs : sub 131088 n_ = true) (hk_ : Only n_ a_ s) : Only n_ a_ (ptpPush s p e) := ptpPush_only.step hs hk_

theorem ptpDrop_only {s : State} {p : Nat} {e : PtpEntry} : Only 131072 s (ptpDrop s p e) := by
  unfold ptpDrop
  try dsimp only
  all_goals (repeat' (first
    | with_reducible apply Only.refl
    | with_reducible apply portPut_keep rfl
    | dsimp only
    | intro _))
theorem ptpDrop_keep {s : State} {p : Nat} {e : PtpEntry} (hs : sub 131072 n_ = true) (hk_ : Only n_ a_ s) : Only n_ a_ (ptpDrop s p e) := ptpDrop_only.step hs hk_

theorem ptpRefuse_only {s : State} {d : Int} : Only 1280478 s (ptpRefuse s d) := by
  unfold ptpRefuse
  try dsimp only
  all_goals (repeat' (first
    | with_reducible apply Only.refl
    | with_reducible apply sqcSet_keep rfl
    | with_reducible apply sourceLost_keep rfl
    | with_reducible apply tallyPut_keep rfl
    | fail_if_no_progress (with_reducible apply Only.upd rfl)
    | dsimp only
    | intro _))
theorem ptpRefuse_keep {s : State} {d : Int} (hs : sub 1280478 n_ = true) (hk_ : Only n_ a_ s) : Only n_ a_ (ptpRefuse s d) := ptpRefuse_only.step hs hk_

theorem ptpSeconds_only {s : State} {whole : Int} : Only 1280478 s (ptpSeconds s whole) := by
  unfold ptpSeconds
  try dsimp only
  all_goals (repeat' (first
    | with_reducible apply Only.refl
    | with_reducible apply ptpRefuse_keep rfl
    | with_reducible apply regPut64_keep rfl
    | with_reducible apply regSetBit_keep rfl
    | with_reducible apply Only.ite
    | fail_if_no_progress (with_reducible apply Only.upd rfl)
    | split
    | dsimp only
    | intro _))
theorem ptpSeconds_keep {s : State} {whole : Int} (hs : sub 1280478 n_ = true) (hk_ : Only n_ a_ s) : Only n_ a_ (ptpSeconds s whole) := ptpSeconds_only.step hs hk_

theorem ptpMeasure_only {s : State} {t2 : Stamp} {sec : Nat} {ns : Nat} : Only 1280478 s (ptpMeasure s t2 sec ns) := by
  unfold ptpMeasure
  try dsimp only
  all_goals (repeat' (first
    | with_reducible apply Only.refl
    | with_reducible apply ptpRefuse_keep rfl
    | with_reducible apply measure_keep rfl
    | with_reducible apply ptpSeconds_keep rfl
    | with_reducible apply Only.ite
    | fail_if_no_progress (with_reducible apply Only.upd rfl)
    | split
    | dsimp only
    | intro _))
theorem ptpMeasure_keep {s : State} {t2 : Stamp} {sec : Nat} {ns : Nat} (hs : sub 1280478 n_ = true) (hk_ : Only n_ a_ s) : Only n_ a_ (ptpMeasure s t2 sec ns) := ptpMeasure_only.step hs hk_

theorem ptpSend_only {s : State} {p : Nat} {kind : Nat} {m : List Byte} : Only 17 s (ptpSend s p kind m) := by
  unfold ptpSend
  try dsimp only
  all_goals (repeat' (first
    | with_reducible apply Only.refl
    | with_reducible apply emit_keep rfl
    | with_reducible apply lnkAdd64_keep rfl
    | dsimp only
    | intro _))
theorem ptpSend_keep {s : State} {p : Nat} {kind : Nat} {m : List Byte} (hs : sub 17 n_ = true) (hk_ : Only n_ a_ s) : Only n_ a_ (ptpSend s p kind m) := ptpSend_only.step hs hk_

theorem ptpDelayReq_only {s : State} {p : Nat} : Only 131093 s (ptpDelayReq s p) := by
  unfold ptpDelayReq
  try dsimp only
  all_goals (repeat' (first
    | with_reducible apply Only.refl
    | with_reducible apply portPut_keep rfl
    | with_reducible apply ptpSend_keep rfl
    | with_reducible apply ptpPush_keep rfl
    | with_reducible apply Only.ite
    | fail_if_no_progress (with_reducible apply Only.upd rfl)
    | split
    | dsimp only
    | intro _))
theorem ptpDelayReq_keep {s : State} {p : Nat} (hs : sub 131093 n_ = true) (hk_ : Only n_ a_ s) : Only n_ a_ (ptpDelayReq s p) := ptpDelayReq_only.step hs hk_

theorem ptpReceive_only {s : State} {p : Nat} {stamp : Stamp} {m : List Byte} : Only 1280479 s (ptpReceive s p stamp m) := by
  unfold ptpReceive
  try dsimp only
  all_goals (repeat' (first
    | with_reducible apply Only.refl
    | with_reducible apply ptpPush_keep rfl
    | with_reducible apply ptpDrop_keep rfl
    | with_reducible apply ptpSend_keep rfl
    | with_reducible apply ptpDelayReq_keep rfl
    | with_reducible apply ptpMeasure_keep rfl
    | with_reducible apply Only.ite
    | fail_if_no_progress (with_reducible apply Only.upd rfl)
    | split
    | dsimp only
    | intro _))
theorem ptpReceive_keep {s : State} {p : Nat} {stamp : Stamp} {m : List Byte} (hs : sub 1280479 n_ = true) (hk_ : Only n_ a_ s) : Only n_ a_ (ptpReceive s p stamp m) := ptpReceive_only.step hs hk_

theorem ptpArrive_only {s : State} {p : Nat} {f : List Byte} {fcsOk : Bool} {stamp : Stamp} : Only 1280479 s (ptpArrive s p f fcsOk stamp) := by
  unfold ptpArrive
  try dsimp only
  all_goals (repeat' (first
    | with_reducible apply Only.refl
    | with_reducible apply rxCount_keep rfl
    | with_reducible apply rxWhole_keep rfl (by assumption)
    | with_reducible apply ptpReceive_keep rfl
    | with_reducible apply lnkEvent_keep rfl
    | with_reducible apply lnkCount_keep rfl
    | split
    | dsimp only
    | intro _))
theorem ptpArrive_keep {s : State} {p : Nat} {f : List Byte} {fcsOk : Bool} {stamp : Stamp} (hs : sub 1280479 n_ = true) (hk_ : Only n_ a_ s) : Only n_ a_ (ptpArrive s p f fcsOk stamp) := ptpArrive_only.step hs hk_

theorem execPtpMessageReceived_only {port : Nat} {frame : List Byte} {fcsOk : Bool} {delay : Nat} {s : State} : OOnly 1280479 s (execPtpMessageReceived port frame fcsOk delay s) := by
  unfold execPtpMessageReceived
  try dsimp only
  all_goals (repeat' (first
    | with_reducible apply Only.refl
    | with_reducible apply holdWrite_keep rfl
    | with_reducible apply ptpArrive_keep rfl
    | with_reducible apply touchFast_keep rfl
    | with_reducible apply Only.ite
    | with_reducible apply OOnly.ite
    | with_reducible apply OOnly.next
    | fail_if_no_progress (with_reducible apply Only.upd rfl)
    | split
    | dsimp only
    | intro _))

theorem ptpWake_only {s : State} : Only 1280474 s (ptpWake s) := by
  unfold ptpWake
  try dsimp only
  all_goals (repeat' (first
    | with_reducible apply Only.refl
    | with_reducible apply wakeUp_keep rfl
    | with_reducible apply Only.ite
    | split
    | dsimp only
    | intro _))
theorem ptpWake_keep {s : State} (hs : sub 1280474 n_ = true) (hk_ : Only n_ a_ s) : Only n_ a_ (ptpWake s) := ptpWake_only.step hs hk_

theorem execPtpMasterSync_only {port : Nat} {s : State} : OOnly 1280479 s (execPtpMasterSync port s) := by
  unfold execPtpMasterSync
  try dsimp only
  all_goals (repeat' (first
    | with_reducible apply Only.refl
    | with_reducible apply ptpWake_keep rfl
    | with_reducible apply portPut_keep rfl
    | with_reducible apply ptpSend_keep rfl
    | with_reducible apply ptpPush_keep rfl
    | with_reducible apply ptpDrop_keep rfl
    | with_reducible apply Only.ite
    | with_reducible apply OOnly.ite
    | with_reducible apply OOnly.next
    | fail_if_no_progress (with_reducible apply Only.upd rfl)
    | split
    | dsimp only
    | intro _))

theorem execPtpAnnounce_only {port : Nat} {s : State} : OOnly 1280479 s (execPtpAnnounce port s) := by
  unfold execPtpAnnounce
  try dsimp only
  all_goals (repeat' (first
    | with_reducible apply Only.refl
    | with_reducible apply ptpWake_keep rfl
    | with_reducible apply portPut_keep rfl
    | with_reducible apply ptpSend_keep rfl
    | with_reducible apply Only.ite
    | with_reducible apply OOnly.ite
    | with_reducible apply OOnly.next
    | fail_if_no_progress (with_reducible apply Only.upd rfl)
    | split
    | dsimp only
    | intro _))

end Sys2Proof.Machine
end

