-- ==== Sys2Proof/Laws/FrameSeam.lean ====
section
/-! SUPPORT. What each operation of these files of Machine/ changes (see Laws/Frame.lean): Enrol, NeedleBase, Prog, Settings, ScorchLog,
SeamGroup, SeamCmds, SeamRows. -/

namespace Sys2Proof.Machine

set_option linter.all false
set_option Elab.async false

variable {n_ : Nat} {a_ : State}

theorem offerSend_only {s : State} {e : Enrolment} : Only 17 s (offerSend s e) := by
  unfold offerSend
  try dsimp only
  all_goals (repeat' (first
    | with_reducible apply Only.refl
    | with_reducible apply sendFrame_keep rfl
    | with_reducible apply Only.ite
    | split
    | dsimp only
    | intro _))
theorem offerSend_keep {s : State} {e : Enrolment} (hs : sub 17 n_ = true) (hk_ : Only n_ a_ s) : Only n_ a_ (offerSend s e) := offerSend_only.step hs hk_

theorem offerSign_only {s : State} {tag : Nat} {c : Cmd} {rnd : List Byte} : Only 786432 s (offerSign s tag c rnd) := by
  unfold offerSign
  try dsimp only
  all_goals (repeat' (first
    | with_reducible apply Only.refl
    | with_reducible apply mangleSet_keep rfl
    | with_reducible apply mangleEnter_keep rfl
    | with_reducible apply mangleEnter2_keep rfl
    | with_reducible apply Only.ite
    | split
    | dsimp only
    | intro _))
theorem offerSign_keep {s : State} {tag : Nat} {c : Cmd} {rnd : List Byte} (hs : sub 786432 n_ = true) (hk_ : Only n_ a_ s) : Only n_ a_ (offerSign s tag c rnd) := offerSign_only.step hs hk_

theorem offerBegin_only {s : State} {tag : Nat} {c : Cmd} {d : List Byte} : Only 1862747 s (offerBegin s tag c d) := by
  unfold offerBegin
  try dsimp only
  all_goals (repeat' (first
    | with_reducible apply Only.refl
    | with_reducible apply endAfter_keep rfl
    | with_reducible apply draw_keep rfl
    | with_reducible apply draw_keepE rfl (by assumption)
    | with_reducible apply drawBlinding_keep rfl
    | with_reducible apply setWork_keep rfl
    | with_reducible apply offerSign_keep rfl
    | with_reducible apply Only.ite
    | with_reducible apply Only.ite2
    | split
    | dsimp only
    | intro _))
theorem offerBegin_keep {s : State} {tag : Nat} {c : Cmd} {d : List Byte} (hs : sub 1862747 n_ = true) (hk_ : Only n_ a_ s) : Only n_ a_ (offerBegin s tag c d) := offerBegin_only.step hs hk_

theorem offerMake_only {s : State} {tag : Nat} {c : Cmd} {d : List Byte} : Only 683089 s (offerMake s tag c d) := by
  unfold offerMake
  try dsimp only
  all_goals (repeat' (first
    | with_reducible apply Only.refl
    | with_reducible apply endAfter_keep rfl
    | with_reducible apply keyBind_keep rfl (by assumption)
    | with_reducible apply setWork_keep rfl
    | with_reducible apply offerSend_keep rfl
    | with_reducible apply Only.ite
    | fail_if_no_progress (with_reducible apply Only.upd rfl)
    | split
    | dsimp only
    | intro _))
theorem offerMake_keep {s : State} {tag : Nat} {c : Cmd} {d : List Byte} (hs : sub 683089 n_ = true) (hk_ : Only n_ a_ s) : Only n_ a_ (offerMake s tag c d) := offerMake_only.step hs hk_

theorem enrolAsk_only {s : State} {tag : Nat} {c : Cmd} : Only 4325376 s (enrolAsk s tag c) := by
  unfold enrolAsk
  try dsimp only
  all_goals (repeat' (first
    | with_reducible apply Only.refl
    | with_reducible apply thmPost_keep rfl
    | with_reducible apply Only.ite
    | fail_if_no_progress (with_reducible apply Only.upd rfl)
    | split
    | dsimp only
    | intro _))
theorem enrolAsk_keep {s : State} {tag : Nat} {c : Cmd} (hs : sub 4325376 n_ = true) (hk_ : Only n_ a_ s) : Only n_ a_ (enrolAsk s tag c) := enrolAsk_only.step hs hk_

theorem execCardEnrol_only {tag : Nat} {io : HostIO} {s : State} : OOnly 6188123 s (execCardEnrol tag io s) := by
  unfold execCardEnrol
  try dsimp only
  all_goals (repeat' (first
    | with_reducible apply Only.refl
    | with_reducible apply runIn_only rfl
    | with_reducible apply enrolAsk_keep rfl
    | with_reducible apply mangleSet_keep rfl
    | with_reducible apply offerBegin_keep rfl
    | with_reducible apply offerMake_keep rfl
    | with_reducible apply Only.ite
    | with_reducible apply OOnly.ite
    | with_reducible apply OOnly.next
    | split
    | dsimp only
    | intro _))

theorem enrolPut_only {s : State} {id : Nat} {x : Enrolment} : Only 131072 s (enrolPut s id x) := by
  unfold enrolPut
  try dsimp only
  all_goals (repeat' (first
    | with_reducible apply Only.refl
    | with_reducible apply Only.ite
    | fail_if_no_progress (with_reducible apply Only.upd rfl)
    | split
    | dsimp only
    | intro _))
theorem enrolPut_keep {s : State} {id : Nat} {x : Enrolment} (hs : sub 131072 n_ = true) (hk_ : Only n_ a_ s) : Only n_ a_ (enrolPut s id x) := enrolPut_only.step hs hk_

theorem enrolDrop_only {s : State} {tag : Nat} : Only 139264 s (enrolDrop s tag) := by
  unfold enrolDrop
  try dsimp only
  all_goals (repeat' (first
    | with_reducible apply Only.refl
    | with_reducible apply cachePurge_keep rfl
    | fail_if_no_progress (with_reducible apply Only.upd rfl)
    | dsimp only
    | intro _))
theorem enrolDrop_keep {s : State} {tag : Nat} (hs : sub 139264 n_ = true) (hk_ : Only n_ a_ s) : Only n_ a_ (enrolDrop s tag) := enrolDrop_only.step hs hk_

theorem enrolsDrop_only {s : State} : Only 139264 s (enrolsDrop s) := by
  unfold enrolsDrop
  try dsimp only
  all_goals (repeat' (first
    | with_reducible apply Only.refl
    | with_reducible apply enrolDrop_keep rfl
    | with_reducible apply Only.foldl
    | with_reducible apply Only.foldl2
    | dsimp only
    | intro _))
theorem enrolsDrop_keep {s : State} (hs : sub 139264 n_ = true) (hk_ : Only n_ a_ s) : Only n_ a_ (enrolsDrop s) := enrolsDrop_only.step hs hk_

theorem execEnrolOfferResend_only {card : Nat} {s : State} : OOnly 131089 s (execEnrolOfferResend card s) := by
  unfold execEnrolOfferResend
  try dsimp only
  all_goals (repeat' (first
    | with_reducible apply Only.refl
    | with_reducible apply offerSend_keep rfl
    | with_reducible apply enrolPut_keep rfl
    | with_reducible apply Only.ite
    | with_reducible apply OOnly.ite
    | with_reducible apply OOnly.next
    | split
    | dsimp only
    | intro _))

theorem execEnrolTimeout_only {card : Nat} {s : State} : OOnly 683089 s (execEnrolTimeout card s) := by
  unfold execEnrolTimeout
  try dsimp only
  all_goals (repeat' (first
    | with_reducible apply Only.refl
    | with_reducible apply endAfter_keep rfl
    | with_reducible apply enrolDrop_keep rfl
    | with_reducible apply Only.ite
    | with_reducible apply OOnly.ite
    | with_reducible apply OOnly.next
    | split
    | dsimp only
    | intro _))

theorem enrolFrame_only {s : State} {p : Nat} {h : FfpHdr} {stamp : Stamp} : Only 4325392 s (enrolFrame s p h stamp) := by
  unfold enrolFrame
  try dsimp only
  all_goals (repeat' (first
    | with_reducible apply Only.refl
    | with_reducible apply lnkCount_keep rfl
    | with_reducible apply lnkEvent_keep rfl
    | with_reducible apply enrolAsk_keep rfl
    | with_reducible apply enrolPut_keep rfl
    | with_reducible apply Only.ite
    | fail_if_no_progress (with_reducible apply Only.upd rfl)
    | split
    | dsimp only
    | intro _))
theorem enrolFrame_keep {s : State} {p : Nat} {h : FfpHdr} {stamp : Stamp} (hs : sub 4325392 n_ = true) (hk_ : Only n_ a_ s) : Only n_ a_ (enrolFrame s p h stamp) := enrolFrame_only.step hs hk_

theorem execPressJobDone_only {pipe : Nat} {job : Nat} {s : State} : OOnly 8384475 s (execPressJobDone pipe job s) := by
  unfold execPressJobDone
  try dsimp only
  all_goals (repeat' (first
    | with_reducible apply Only.refl
    | with_reducible apply waitsDrain_keep rfl
    | with_reducible apply pressJobDone_keep rfl
    | with_reducible apply enrolFrame_keep rfl
    | with_reducible apply Only.foldl
    | with_reducible apply Only.foldl2
    | with_reducible apply Only.ite
    | with_reducible apply OOnly.ite
    | with_reducible apply OOnly.next
    | fail_if_no_progress (with_reducible apply Only.upd rfl)
    | split
    | dsimp only
    | intro _))

theorem enrolReceive_only {s : State} {p : Nat} {f : List Byte} {fcsOk : Bool} {stamp : Stamp} : Only 4325392 s (enrolReceive s p f fcsOk stamp) := by
  unfold enrolReceive
  try dsimp only
  all_goals (repeat' (first
    | with_reducible apply Only.refl
    | with_reducible apply rxCount_keep rfl
    | with_reducible apply rxWhole_keep rfl (by assumption)
    | with_reducible apply lnkEvent_keep rfl
    | with_reducible apply lnkCount_keep rfl
    | with_reducible apply enrolFrame_keep rfl
    | with_reducible apply Only.ite
    | split
    | dsimp only
    | intro _))
theorem enrolReceive_keep {s : State} {p : Nat} {f : List Byte} {fcsOk : Bool} {stamp : Stamp} (hs : sub 4325392 n_ = true) (hk_ : Only n_ a_ s) : Only n_ a_ (enrolReceive s p f fcsOk stamp) := enrolReceive_only.step hs hk_

theorem execEnrolmentReportReceived_only {port : Nat} {frame : List Byte} {fcsOk : Bool} {s : State} : OOnly 5474778 s (execEnrolmentReportReceived port frame fcsOk s) := by
  unfold execEnrolmentReportReceived
  try dsimp only
  all_goals (repeat' (first
    | with_reducible apply Only.refl
    | with_reducible apply holdWrite_keep rfl
    | with_reducible apply enrolReceive_keep rfl
    | with_reducible apply touchFast_keep rfl
    | with_reducible apply Only.ite
    | with_reducible apply OOnly.ite
    | with_reducible apply OOnly.next
    | split
    | dsimp only
    | intro _))

theorem storeCard_only {s : State} {r : ThmReq} {ok0 : Bool} {ok1 : Bool} {e : Enrolment} : Only 12609617 s (storeCard s r ok0 ok1 e) := by
  unfold storeCard
  try dsimp only
  all_goals (repeat' (first
    | with_reducible apply Only.refl
    | with_reducible apply jrnWrite_keep rfl (by assumption)
    | with_reducible apply thmAnswer_keep rfl
    | with_reducible apply jrnFailed_keep rfl
    | with_reducible apply keyPut_keep rfl
    | split
    | dsimp only
    | intro _))
theorem storeCard_keep {s : State} {r : ThmReq} {ok0 : Bool} {ok1 : Bool} {e : Enrolment} (hs : sub 12609617 n_ = true) (hk_ : Only n_ a_ s) : Only n_ a_ (storeCard s r ok0 ok1 e) := storeCard_only.step hs hk_

theorem execThmAccept_only {ok0 : Bool} {ok1 : Bool} {s : State} : OOnly 12609617 s (execThmAccept ok0 ok1 s) := by
  unfold execThmAccept
  try dsimp only
  all_goals (repeat' (first
    | with_reducible apply Only.refl
    | with_reducible apply thmServe_only rfl
    | with_reducible apply storeObj_keep rfl
    | with_reducible apply storeCard_keep rfl
    | with_reducible apply thmAnswer_keep rfl
    | with_reducible apply OOnly.ite
    | with_reducible apply OOnly.next
    | split
    | dsimp only
    | intro _))

theorem enrolDone_only {s : State} {tag : Nat} {r : ThmRsp} : Only 683089 s (enrolDone s tag r) := by
  unfold enrolDone
  try dsimp only
  all_goals (repeat' (first
    | with_reducible apply Only.refl
    | with_reducible apply endAfter_keep rfl
    | with_reducible apply enrolDrop_keep rfl
    | with_reducible apply cardPut_keep rfl
    | with_reducible apply cardReport_keep rfl
    | with_reducible apply endOk_keep rfl
    | with_reducible apply Only.ite
    | split
    | dsimp only
    | intro _))
theorem enrolDone_keep {s : State} {tag : Nat} {r : ThmRsp} (hs : sub 683089 n_ = true) (hk_ : Only n_ a_ s) : Only n_ a_ (enrolDone s tag r) := enrolDone_only.step hs hk_

theorem holdEnter_only {s : State} {p : Nat} {f : HoldFrame} : Only 8121823 s (holdEnter s p f) := by
  unfold holdEnter
  try dsimp only
  all_goals (repeat' (first
    | with_reducible apply Only.refl
    | with_reducible apply ptpArrive_keep rfl
    | with_reducible apply enrolReceive_keep rfl
    | with_reducible apply rxNormal_keep rfl
    | with_reducible apply rxNormal_keepE rfl (by assumption)
    | with_reducible apply Only.ite
    | with_reducible apply Only.ite2
    | split
    | dsimp only
    | intro _))
theorem holdEnter_keep {s : State} {p : Nat} {f : HoldFrame} (hs : sub 8121823 n_ = true) (hk_ : Only n_ a_ s) : Only n_ a_ (holdEnter s p f) := holdEnter_only.step hs hk_

theorem execHoldRingRelease_only {s : State} : OOnly 8121823 s (execHoldRingRelease s) := by
  unfold execHoldRingRelease
  try dsimp only
  all_goals (repeat' (first
    | with_reducible apply Only.refl
    | with_reducible apply holdEnter_keep rfl
    | with_reducible apply portPut_keep rfl
    | with_reducible apply portReady_keep rfl
    | with_reducible apply Only.ite
    | with_reducible apply OOnly.ite
    | with_reducible apply OOnly.next
    | fail_if_no_progress (with_reducible apply Only.upd rfl)
    | split
    | dsimp only
    | intro _))

theorem dmaStatRead_only {s : State} {c : Nat} : Only 0 s (dmaStatRead s c).2 := by
  unfold dmaStatRead
  try dsimp only
  all_goals (repeat' (first
    | with_reducible apply Only.refl
    | dsimp only
    | intro _))
theorem dmaStatRead_keep {s : State} {c : Nat} (hs : sub 0 n_ = true) (hk_ : Only n_ a_ s) : Only n_ a_ (dmaStatRead s c).2 := dmaStatRead_only.step hs hk_
theorem dmaStatRead_keepE {s : State} {c : Nat} {y0_ : Word} {t_ : State} (hs : sub 0 n_ = true) (he : dmaStatRead s c = (y0_, t_)) (hk_ : Only n_ a_ s) : Only n_ a_ t_ := by
  have := dmaStatRead_keep hs hk_ (s := s) (c := c)
  rw [he] at this; exact this

theorem dmaRegRead_only {s : State} {r : Requester} {c : Nat} {off : Nat} : Only 16 s (dmaRegRead s r c off).2 := by
  unfold dmaRegRead
  try dsimp only
  all_goals (repeat' (first
    | with_reducible apply Only.refl
    | with_reducible apply dmaStatRead_keep rfl
    | with_reducible apply dmaStatRead_keepE rfl (by assumption)
    | with_reducible apply latchPut_keep rfl
    | with_reducible apply Only.ite
    | with_reducible apply Only.ite2
    | split
    | dsimp only
    | intro _))
theorem dmaRegRead_keep {s : State} {r : Requester} {c : Nat} {off : Nat} (hs : sub 16 n_ = true) (hk_ : Only n_ a_ s) : Only n_ a_ (dmaRegRead s r c off).2 := dmaRegRead_only.step hs hk_
theorem dmaRegRead_keepE {s : State} {r : Requester} {c : Nat} {off : Nat} {y0_ : Word} {t_ : State} (hs : sub 16 n_ = true) (he : dmaRegRead s r c off = (y0_, t_)) (hk_ : Only n_ a_ s) : Only n_ a_ t_ := by
  have := dmaRegRead_keep hs hk_ (s := s) (r := r) (c := c) (off := off)
  rw [he] at this; exact this

theorem dmaCtrl_only {s : State} {c : Nat} {v : Word} : Only 2098176 s (dmaCtrl s c v) := by
  unfold dmaCtrl
  try dsimp only
  all_goals (repeat' (first
    | with_reducible apply Only.refl
    | with_reducible apply dmaAbortSoon_keep rfl
    | with_reducible apply dmaPauseSoon_keep rfl
    | with_reducible apply dmaCont_keep rfl
    | with_reducible apply dmaStart_keep rfl
    | with_reducible apply Only.ite
    | split
    | dsimp only
    | intro _))
theorem dmaCtrl_keep {s : State} {c : Nat} {v : Word} (hs : sub 2098176 n_ = true) (hk_ : Only n_ a_ s) : Only n_ a_ (dmaCtrl s c v) := dmaCtrl_only.step hs hk_

theorem dmaEvtClear_only {s : State} {c : Nat} {v : Word} : Only 65552 s (dmaEvtClear s c v) := by
  unfold dmaEvtClear
  try dsimp only
  all_goals (repeat' (first
    | with_reducible apply Only.refl
    | with_reducible apply sqcClearAt_keep rfl
    | with_reducible apply corePut_keep rfl
    | dsimp only
    | intro _))
theorem dmaEvtClear_keep {s : State} {c : Nat} {v : Word} (hs : sub 65552 n_ = true) (hk_ : Only n_ a_ s) : Only n_ a_ (dmaEvtClear s c v) := dmaEvtClear_only.step hs hk_

theorem dmaRegWrite_only {s : State} {r : Requester} {c : Nat} {off : Nat} {v : Word} : Only 2163728 s (dmaRegWrite s r c off v) := by
  unfold dmaRegWrite
  try dsimp only
  all_goals (repeat' (first
    | with_reducible apply Only.refl
    | with_reducible apply regPut_keep rfl
    | with_reducible apply ignWrite_keep rfl
    | with_reducible apply dmaCtrl_keep rfl
    | with_reducible apply dmaEvtClear_keep rfl
    | with_reducible apply dmaResume_keep rfl
    | with_reducible apply Only.ite
    | split
    | dsimp only
    | intro _))
theorem dmaRegWrite_keep {s : State} {r : Requester} {c : Nat} {off : Nat} {v : Word} (hs : sub 2163728 n_ = true) (hk_ : Only n_ a_ s) : Only n_ a_ (dmaRegWrite s r c off v) := dmaRegWrite_only.step hs hk_

theorem portsDrain_only {s : State} {n : Nat} : Only 860160 s (portsDrain s n) := by
  unfold portsDrain
  try dsimp only
  all_goals (repeat' (first
    | with_reducible apply Only.refl
    | with_reducible apply useTake_keep rfl
    | with_reducible apply pressLeave_keep rfl
    | with_reducible apply mangleDrop_keep rfl
    | with_reducible apply corePut_keep rfl
    | with_reducible apply Only.foldl
    | with_reducible apply Only.foldl2
    | dsimp only
    | intro _))
theorem portsDrain_keep {s : State} {n : Nat} (hs : sub 860160 n_ = true) (hk_ : Only n_ a_ s) : Only n_ a_ (portsDrain s n) := portsDrain_only.step hs hk_

theorem coreNote_only {s : State} {n : Nat} : Only 16385 s (coreNote s n) := by
  unfold coreNote
  try dsimp only
  all_goals (repeat' (first
    | with_reducible apply Only.refl
    | with_reducible apply jot_keep rfl
    | dsimp only
    | intro _))
theorem coreNote_keep {s : State} {n : Nat} (hs : sub 16385 n_ = true) (hk_ : Only n_ a_ s) : Only n_ a_ (coreNote s n) := coreNote_only.step hs hk_

theorem coreStopped_only {s : State} {n : Nat} {m : CoreMode} {reason : Nat} : Only 81921 s (coreStopped s n m reason) := by
  unfold coreStopped
  try dsimp only
  all_goals (repeat' (first
    | with_reducible apply Only.refl
    | with_reducible apply coreNote_keep rfl
    | with_reducible apply corePut_keep rfl
    | dsimp only
    | intro _))
theorem coreStopped_keep {s : State} {n : Nat} {m : CoreMode} {reason : Nat} (hs : sub 81921 n_ = true) (hk_ : Only n_ a_ s) : Only n_ a_ (coreStopped s n m reason) := coreStopped_only.step hs hk_

theorem coreCleanup_only {s : State} {n : Nat} : Only 2991104 s (coreCleanup s n) := by
  unfold coreCleanup
  try dsimp only
  all_goals (repeat' (first
    | with_reducible apply Only.refl
    | with_reducible apply dmaAbort_keep rfl
    | with_reducible apply portsDrain_keep rfl
    | with_reducible apply hmpReleaseAll_keep rfl
    | with_reducible apply Only.foldl
    | with_reducible apply Only.foldl2
    | dsimp only
    | intro _))
theorem coreCleanup_keep {s : State} {n : Nat} (hs : sub 2991104 n_ = true) (hk_ : Only n_ a_ s) : Only n_ a_ (coreCleanup s n) := coreCleanup_only.step hs hk_

theorem hemWindow_only {s : State} {n : Nat} {owner : Option Nat} : Only 16 s (hemWindow s n owner) := by
  unfold hemWindow
  try dsimp only
  all_goals (repeat' (first
    | with_reducible apply Only.refl
    | with_reducible apply regPut_keep rfl
    | with_reducible apply Only.ite
    | split
    | dsimp only
    | intro _))
theorem hemWindow_keep {s : State} {n : Nat} {owner : Option Nat} (hs : sub 16 n_ = true) (hk_ : Only n_ a_ s) : Only n_ a_ (hemWindow s n owner) := hemWindow_only.step hs hk_

theorem coreRelease_only {s : State} {n : Nat} : Only 2180113 s (coreRelease s n) := by
  unfold coreRelease
  try dsimp only
  all_goals (repeat' (first
    | with_reducible apply Only.refl
    | with_reducible apply regSetBit_keep rfl
    | with_reducible apply dmaAbort_keep rfl
    | with_reducible apply regPut_keep rfl
    | with_reducible apply coreNote_keep rfl
    | with_reducible apply corePut_keep rfl
    | with_reducible apply hemWindow_keep rfl
    | with_reducible apply Only.foldl
    | with_reducible apply Only.foldl2
    | dsimp only
    | intro _))
theorem coreRelease_keep {s : State} {n : Nat} (hs : sub 2180113 n_ = true) (hk_ : Only n_ a_ s) : Only n_ a_ (coreRelease s n) := coreRelease_only.step hs hk_

theorem coreClear_only {s : State} {n : Nat} {reason : Nat} : Only 2212881 s (coreClear s n reason) := by
  unfold coreClear
  try dsimp only
  all_goals (repeat' (first
    | with_reducible apply Only.refl
    | with_reducible apply hmpReleaseAll_keep rfl
    | with_reducible apply dmaAbort_keep rfl
    | with_reducible apply coreRelease_keep rfl
    | with_reducible apply corePut_keep rfl
    | with_reducible apply Only.foldl
    | with_reducible apply Only.foldl2
    | dsimp only
    | intro _))
theorem coreClear_keep {s : State} {n : Nat} {reason : Nat} (hs : sub 2212881 n_ = true) (hk_ : Only n_ a_ s) : Only n_ a_ (coreClear s n reason) := coreClear_only.step hs hk_

theorem needleRinse_only {s : State} : Only 2212881 s (needleRinse s) := by
  unfold needleRinse
  try dsimp only
  all_goals (repeat' (first
    | with_reducible apply Only.refl
    | with_reducible apply coreClear_keep rfl
    | with_reducible apply Only.foldl
    | with_reducible apply Only.foldl2
    | fail_if_no_progress (with_reducible apply Only.upd rfl)
    | dsimp only
    | intro _))
theorem needleRinse_keep {s : State} (hs : sub 2212881 n_ = true) (hk_ : Only n_ a_ s) : Only n_ a_ (needleRinse s) := needleRinse_only.step hs hk_

theorem progsSet_only {s : State} {t : Tbl Program} : Only 65536 s (progsSet s t) := by
  unfold progsSet
  try dsimp only
  all_goals (repeat' (first
    | with_reducible apply Only.refl
    | fail_if_no_progress (with_reducible apply Only.upd rfl)
    | dsimp only
    | intro _))
theorem progsSet_keep {s : State} {t : Tbl Program} (hs : sub 65536 n_ = true) (hk_ : Only n_ a_ s) : Only n_ a_ (progsSet s t) := progsSet_only.step hs hk_

theorem progPut_only {s : State} {n : Nat} {x : Option Program} : Only 81921 s (progPut s n x) := by
  unfold progPut
  try dsimp only
  all_goals (repeat' (first
    | with_reducible apply Only.refl
    | with_reducible apply jot_keep rfl
    | with_reducible apply progsSet_keep rfl
    | split
    | dsimp only
    | intro _))
theorem progPut_keep {s : State} {n : Nat} {x : Option Program} (hs : sub 81921 n_ = true) (hk_ : Only n_ a_ s) : Only n_ a_ (progPut s n x) := progPut_only.step hs hk_

theorem execProgLoad_only {tag : Nat} {io : HostIO} {s : State} : OOnly 814161 s (execProgLoad tag io s) := by
  unfold execProgLoad
  try dsimp only
  all_goals (repeat' (first
    | with_reducible apply Only.refl
    | with_reducible apply runIn_only rfl
    | with_reducible apply mangleSet_keep rfl
    | with_reducible apply endAfter_keep rfl
    | with_reducible apply setWork_keep rfl
    | with_reducible apply Only.foldl
    | with_reducible apply Only.foldl2
    | with_reducible apply Only.ite
    | with_reducible apply OOnly.ite
    | with_reducible apply OOnly.next
    | split
    | dsimp only
    | intro _))

theorem progStored_only {s : State} {tag : Nat} {c : Cmd} {w0 : Bool} {w1 : Bool} : Only 617553 s (progStored s tag c w0 w1) := by
  unfold progStored
  try dsimp only
  all_goals (repeat' (first
    | with_reducible apply Only.refl
    | with_reducible apply tallyPut_keep rfl
    | with_reducible apply endAfter_keep rfl
    | with_reducible apply endOk_keep rfl
    | with_reducible apply progPut_keep rfl
    | with_reducible apply Only.ite
    | split
    | dsimp only
    | intro _))
theorem progStored_keep {s : State} {tag : Nat} {c : Cmd} {w0 : Bool} {w1 : Bool} (hs : sub 617553 n_ = true) (hk_ : Only n_ a_ s) : Only n_ a_ (progStored s tag c w0 w1) := progStored_only.step hs hk_

theorem aruLoad_only {s : State} {n : Nat} {d : Nat} : Only 16 s (aruLoad s n d) := by
  unfold aruLoad
  try dsimp only
  all_goals (repeat' (first
    | with_reducible apply Only.refl
    | with_reducible apply regPut_keep rfl
    | with_reducible apply Only.foldl
    | with_reducible apply Only.foldl2
    | split
    | dsimp only
    | intro _))
theorem aruLoad_keep {s : State} {n : Nat} {d : Nat} (hs : sub 16 n_ = true) (hk_ : Only n_ a_ s) : Only n_ a_ (aruLoad s n d) := aruLoad_only.step hs hk_

theorem coreBegin_only {s : State} {n : Nat} {owner : Nat} {slice : Nat} {prog : Nat} {keys : List Nat} {args : List Byte} {b : List Byte} : Only 876561 s (coreBegin s n owner slice prog keys args b) := by
  unfold coreBegin
  try dsimp only
  all_goals (repeat' (first
    | with_reducible apply Only.refl
    | with_reducible apply aruLoad_keep rfl
    | with_reducible apply hemWindow_keep rfl
    | with_reducible apply portsDrain_keep rfl
    | with_reducible apply coreNote_keep rfl
    | with_reducible apply corePut_keep rfl
    | dsimp only
    | intro _))
theorem coreBegin_keep {s : State} {n : Nat} {owner : Nat} {slice : Nat} {prog : Nat} {keys : List Nat} {args : List Byte} {b : List Byte} (hs : sub 876561 n_ = true) (hk_ : Only n_ a_ s) : Only n_ a_ (coreBegin s n owner slice prog keys args b) := coreBegin_only.step hs hk_

theorem execProgStart_only {tag : Nat} {s : State} : OOnly 879699 s (execProgStart tag s) := by
  unfold execProgStart
  try dsimp only
  all_goals (repeat' (first
    | with_reducible apply Only.refl
    | with_reducible apply runCmd_only rfl
    | with_reducible apply endAfter_keep rfl
    | with_reducible apply endOk_keep rfl
    | with_reducible apply coreNote_keep rfl
    | with_reducible apply corePut_keep rfl
    | with_reducible apply hemWindow_keep rfl
    | with_reducible apply coreBegin_keep rfl
    | with_reducible apply freeWord_keep rfl
    | with_reducible apply freeWord_keepE rfl (by assumption)
    | with_reducible apply progPut_keep rfl
    | with_reducible apply agentNext_keep rfl
    | with_reducible apply agentNext_keepE rfl (by assumption)
    | with_reducible apply tallyAppend_keep rfl
    | with_reducible apply Only.ite
    | with_reducible apply Only.ite2
    | with_reducible apply OOnly.ite
    | with_reducible apply OOnly.next
    | split
    | dsimp only
    | intro _))

theorem stopEnd_only {s : State} {n : Nat} {tag : Nat} {release : Bool} : Only 3009617 s (stopEnd s n tag release) := by
  unfold stopEnd
  try dsimp only
  all_goals (repeat' (first
    | with_reducible apply Only.refl
    | with_reducible apply coreCleanup_keep rfl
    | with_reducible apply coreRelease_keep rfl
    | with_reducible apply endOk_keep rfl
    | with_reducible apply Only.ite
    | split
    | dsimp only
    | intro _))
theorem stopEnd_keep {s : State} {n : Nat} {tag : Nat} {release : Bool} (hs : sub 3009617 n_ = true) (hk_ : Only n_ a_ s) : Only n_ a_ (stopEnd s n tag release) := stopEnd_only.step hs hk_

theorem stopCheck_only {s : State} {n : Nat} {w : Option StopWait} : Only 3009617 s (stopCheck s n w) := by
  unfold stopCheck
  try dsimp only
  all_goals (repeat' (first
    | with_reducible apply Only.refl
    | with_reducible apply stopEnd_keep rfl
    | split
    | dsimp only
    | intro _))
theorem stopCheck_keep {s : State} {n : Nat} {w : Option StopWait} (hs : sub 3009617 n_ = true) (hk_ : Only n_ a_ s) : Only n_ a_ (stopCheck s n w) := stopCheck_only.step hs hk_

theorem coreHalt_only {s : State} {n : Nat} {reason : Nat} : Only 3009617 s (coreHalt s n reason) := by
  unfold coreHalt
  try dsimp only
  all_goals (repeat' (first
    | with_reducible apply Only.refl
    | with_reducible apply stopCheck_keep rfl
    | with_reducible apply coreStopped_keep rfl
    | dsimp only
    | intro _))
theorem coreHalt_keep {s : State} {n : Nat} {reason : Nat} (hs : sub 3009617 n_ = true) (hk_ : Only n_ a_ s) : Only n_ a_ (coreHalt s n reason) := coreHalt_only.step hs hk_

theorem execProgStop_only {tag : Nat} {s : State} : OOnly 3009617 s (execProgStop tag s) := by
  unfold execProgStop
  try dsimp only
  all_goals (repeat' (first
    | with_reducible apply Only.refl
    | with_reducible apply runCmd_only rfl
    | with_reducible apply stopEnd_keep rfl
    | with_reducible apply coreHalt_keep rfl
    | with_reducible apply corePut_keep rfl
    | with_reducible apply coreNote_keep rfl
    | with_reducible apply Only.ite
    | with_reducible apply OOnly.ite
    | with_reducible apply OOnly.next
    | split
    | dsimp only
    | intro _))

theorem execProgStopTimeout_only {core : Nat} {s : State} : OOnly 3009617 s (execProgStopTimeout core s) := by
  unfold execProgStopTimeout
  try dsimp only
  all_goals (repeat' (first
    | with_reducible apply Only.refl
    | with_reducible apply coreHalt_keep rfl
    | with_reducible apply Only.ite
    | with_reducible apply OOnly.ite
    | with_reducible apply OOnly.next
    | split
    | dsimp only
    | intro _))

theorem execProgUnload_only {tag : Nat} {s : State} : OOnly 617553 s (execProgUnload tag s) := by
  unfold execProgUnload
  try dsimp only
  all_goals (repeat' (first
    | with_reducible apply Only.refl
    | with_reducible apply runCmd_only rfl
    | with_reducible apply endOk_keep rfl
    | with_reducible apply progPut_keep rfl
    | with_reducible apply OOnly.ite
    | with_reducible apply OOnly.next
    | dsimp only
    | intro _))

theorem execProgStatus_only {tag : Nat} {io : HostIO} {s : State} : OOnly 552529 s (execProgStatus tag io s) := by
  unfold execProgStatus
  try dsimp only
  all_goals (repeat' (first
    | with_reducible apply Only.refl
    | with_reducible apply runCmd_only rfl
    | with_reducible apply endOut_keep rfl
    | with_reducible apply Only.ite
    | with_reducible apply OOnly.ite
    | with_reducible apply OOnly.next
    | split
    | dsimp only
    | intro _))

theorem execCoreTimerMatch_only {core : Nat} {s : State} : OOnly 65536 s (execCoreTimerMatch core s) := by
  unfold execCoreTimerMatch
  try dsimp only
  all_goals (repeat' (first
    | with_reducible apply Only.refl
    | with_reducible apply corePut_keep rfl
    | with_reducible apply Only.ite
    | with_reducible apply OOnly.ite
    | with_reducible apply OOnly.next
    | split
    | dsimp only
    | intro _))

theorem settingsPut_only {s : State} {x : Settings} : Only 1196052 s (settingsPut s x) := by
  unfold settingsPut
  try dsimp only
  all_goals (repeat' (first
    | with_reducible apply Only.refl
    | with_reducible apply regPut_keep rfl
    | with_reducible apply Only.foldl
    | with_reducible apply Only.foldl2
    | fail_if_no_progress (with_reducible apply Only.upd rfl)
    | dsimp only
    | intro _))
theorem settingsPut_keep {s : State} {x : Settings} (hs : sub 1196052 n_ = true) (hk_ : Only n_ a_ s) : Only n_ a_ (settingsPut s x) := settingsPut_only.step hs hk_

theorem settingsSave_only {s : State} : Only 8388608 s (settingsSave s) := by
  unfold settingsSave
  try dsimp only
  all_goals (repeat' (first
    | with_reducible apply Only.refl
    | fail_if_no_progress (with_reducible apply Only.upd rfl)
    | dsimp only
    | intro _))
theorem settingsSave_keep {s : State} (hs : sub 8388608 n_ = true) (hk_ : Only n_ a_ s) : Only n_ a_ (settingsSave s) := settingsSave_only.step hs hk_

theorem chainUp_only {s : State} : Only 4096 s (chainUp s) := by
  unfold chainUp
  try dsimp only
  all_goals (repeat' (first
    | with_reducible apply Only.refl
    | fail_if_no_progress (with_reducible apply Only.upd rfl)
    | dsimp only
    | intro _))
theorem chainUp_keep {s : State} (hs : sub 4096 n_ = true) (hk_ : Only n_ a_ s) : Only n_ a_ (chainUp s) := chainUp_only.step hs hk_

theorem scorchLog_only {s : State} {kind : Nat} {src : Nat} {sev : Nat} {flags : Nat} {dur : Nat} {detail : Nat} : Only 4096 s (scorchLog s kind src sev flags dur detail) := by
  unfold scorchLog
  try dsimp only
  all_goals (repeat' (first
    | with_reducible apply Only.refl
    | with_reducible apply chainUp_keep rfl
    | with_reducible apply Only.ite
    | fail_if_no_progress (with_reducible apply Only.upd rfl)
    | split
    | dsimp only
    | intro _))
theorem scorchLog_keep {s : State} {kind : Nat} {src : Nat} {sev : Nat} {flags : Nat} {dur : Nat} {detail : Nat} (hs : sub 4096 n_ = true) (hk_ : Only n_ a_ s) : Only n_ a_ (scorchLog s kind src sev flags dur detail) := scorchLog_only.step hs hk_

theorem freeSev_only {s : State} : Only 2 s (freeSev s).2 := by
  unfold freeSev
  try dsimp only
  all_goals (repeat' (first
    | with_reducible apply Only.refl
    | with_reducible apply freeWord_keep rfl
    | with_reducible apply freeWord_keepE rfl (by assumption)
    | split
    | dsimp only
    | intro _))
theorem freeSev_keep {s : State} (hs : sub 2 n_ = true) (hk_ : Only n_ a_ s) : Only n_ a_ (freeSev s).2 := freeSev_only.step hs hk_
theorem freeSev_keepE {s : State} {y0_ : Nat} {t_ : State} (hs : sub 2 n_ = true) (he : freeSev s = (y0_, t_)) (hk_ : Only n_ a_ s) : Only n_ a_ t_ := by
  have := freeSev_keep hs hk_ (s := s)
  rw [he] at this; exact this

theorem epochNote_only {s : State} {old : Nat} {new : Nat} : Only 6224 s (epochNote s old new) := by
  unfold epochNote
  try dsimp only
  all_goals (repeat' (first
    | with_reducible apply Only.refl
    | with_reducible apply scorchLog_keep rfl
    | with_reducible apply tallyPut_keep rfl
    | dsimp only
    | intro _))
theorem epochNote_keep {s : State} {old : Nat} {new : Nat} (hs : sub 6224 n_ = true) (hk_ : Only n_ a_ s) : Only n_ a_ (epochNote s old new) := epochNote_only.step hs hk_

theorem loadNote_only {s : State} {old : Nat} {new : Nat} {was : Stamp} {now : Stamp} : Only 6224 s (loadNote s old new was now) := by
  unfold loadNote
  try dsimp only
  all_goals (repeat' (first
    | with_reducible apply Only.refl
    | with_reducible apply epochNote_keep rfl
    | with_reducible apply tallyPut_keep rfl
    | dsimp only
    | intro _))
theorem loadNote_keep {s : State} {old : Nat} {new : Nat} {was : Stamp} {now : Stamp} (hs : sub 6224 n_ = true) (hk_ : Only n_ a_ s) : Only n_ a_ (loadNote s old new was now) := loadNote_only.step hs hk_

theorem execScorchLogMirror_only {s : State} : OOnly 4114 s (execScorchLogMirror s) := by
  unfold execScorchLogMirror
  try dsimp only
  all_goals (repeat' (first
    | with_reducible apply Only.refl
    | with_reducible apply chainUp_keep rfl
    | with_reducible apply freeSev_keep rfl
    | with_reducible apply freeSev_keepE rfl (by assumption)
    | with_reducible apply sqcSet_keep rfl
    | with_reducible apply scorchLog_keep rfl
    | with_reducible apply Only.ite
    | with_reducible apply Only.ite2
    | with_reducible apply OOnly.ite
    | with_reducible apply OOnly.next
    | fail_if_no_progress (with_reducible apply Only.upd rfl)
    | split
    | dsimp only
    | intro _))

theorem seamFarewell_only {s : State} {cause : FarewellCause} : Only 16385 s (seamFarewell s cause) := by
  unfold seamFarewell
  try dsimp only
  all_goals (repeat' (first
    | with_reducible apply Only.refl
    | with_reducible apply seamSend_keep rfl
    | with_reducible apply Only.foldl
    | with_reducible apply Only.foldl2
    | dsimp only
    | intro _))
theorem seamFarewell_keep {s : State} {cause : FarewellCause} (hs : sub 16385 n_ = true) (hk_ : Only n_ a_ s) : Only n_ a_ (seamFarewell s cause) := seamFarewell_only.step hs hk_

theorem seamDiscard_only {s : State} : Only 959488 s (seamDiscard s) := by
  unfold seamDiscard
  try dsimp only
  all_goals (repeat' (first
    | with_reducible apply Only.refl
    | with_reducible apply stageDrop_keep rfl
    | with_reducible apply cmdDel_keep rfl
    | with_reducible apply mangleLeave_keep rfl
    | with_reducible apply pressDrop_keep rfl
    | with_reducible apply enrolsDrop_keep rfl
    | with_reducible apply Only.foldl
    | with_reducible apply Only.foldl2
    | fail_if_no_progress (with_reducible apply Only.upd rfl)
    | split
    | dsimp only
    | intro _))
theorem seamDiscard_keep {s : State} (hs : sub 959488 n_ = true) (hk_ : Only n_ a_ s) : Only n_ a_ (seamDiscard s) := seamDiscard_only.step hs hk_

theorem seamAsk_only {s : State} : Only 16385 s (seamAsk s) := by
  unfold seamAsk
  try dsimp only
  all_goals (repeat' (first
    | with_reducible apply Only.refl
    | with_reducible apply seamTo_keep rfl
    | with_reducible apply Only.ite
    | fail_if_no_progress (with_reducible apply Only.upd rfl)
    | split
    | dsimp only
    | intro _))
theorem seamAsk_keep {s : State} (hs : sub 16385 n_ = true) (hk_ : Only n_ a_ s) : Only n_ a_ (seamAsk s) := seamAsk_only.step hs hk_

theorem seamFence_only {s : State} {cause : Nat} : Only 978001 s (seamFence s cause) := by
  unfold seamFence
  try dsimp only
  all_goals (repeat' (first
    | with_reducible apply Only.refl
    | with_reducible apply seamDiscard_keep rfl
    | with_reducible apply regPut_keep rfl
    | with_reducible apply regAdd_keep rfl
    | with_reducible apply seamEvent_keep rfl
    | with_reducible apply seamAsk_keep rfl
    | with_reducible apply Only.ite
    | fail_if_no_progress (with_reducible apply Only.upd rfl)
    | split
    | dsimp only
    | intro _))
theorem seamFence_keep {s : State} {cause : Nat} (hs : sub 978001 n_ = true) (hk_ : Only n_ a_ s) : Only n_ a_ (seamFence s cause) := seamFence_only.step hs hk_

theorem tracksMap_only {s : State} {f : Cmd → Cmd} : Only 1024 s (tracksMap s f) := by
  unfold tracksMap
  try dsimp only
  all_goals (repeat' (first
    | with_reducible apply Only.refl
    | fail_if_no_progress (with_reducible apply Only.upd rfl)
    | dsimp only
    | intro _))
theorem tracksMap_keep {s : State} {f : Cmd → Cmd} (hs : sub 1024 n_ = true) (hk_ : Only n_ a_ s) : Only n_ a_ (tracksMap s f) := tracksMap_only.step hs hk_

theorem switchStep_only {s : State} : Only 978001 s (switchStep s) := by
  unfold switchStep
  try dsimp only
  all_goals (repeat' (first
    | with_reducible apply Only.refl
    | with_reducible apply jot_keep rfl
    | with_reducible apply seamPeerPut_keep rfl
    | with_reducible apply tracksMap_keep rfl
    | with_reducible apply seamFence_keep rfl
    | with_reducible apply Only.ite
    | fail_if_no_progress (with_reducible apply Only.upd rfl)
    | split
    | dsimp only
    | intro _))
theorem switchStep_keep {s : State} (hs : sub 978001 n_ = true) (hk_ : Only n_ a_ s) : Only n_ a_ (switchStep s) := switchStep_only.step hs hk_

theorem handOver_only {s : State} {m : Nat} : Only 978001 s (handOver s m) := by
  unfold handOver
  try dsimp only
  all_goals (repeat' (first
    | with_reducible apply Only.refl
    | with_reducible apply switchStep_keep rfl
    | with_reducible apply Only.ite
    | fail_if_no_progress (with_reducible apply Only.upd rfl)
    | split
    | dsimp only
    | intro _))
theorem handOver_keep {s : State} {m : Nat} (hs : sub 978001 n_ = true) (hk_ : Only n_ a_ s) : Only n_ a_ (handOver s m) := handOver_only.step hs hk_

theorem seamYield_only {s : State} {cause : Nat} : Only 978001 s (seamYield s cause) := by
  unfold seamYield
  try dsimp only
  all_goals (repeat' (first
    | with_reducible apply Only.refl
    | with_reducible apply handOver_keep rfl
    | with_reducible apply seamFence_keep rfl
    | split
    | dsimp only
    | intro _))
theorem seamYield_keep {s : State} {cause : Nat} (hs : sub 978001 n_ = true) (hk_ : Only n_ a_ s) : Only n_ a_ (seamYield s cause) := seamYield_only.step hs hk_

theorem seamLock_only {s : State} : Only 978001 s (seamLock s) := by
  unfold seamLock
  try dsimp only
  all_goals (repeat' (first
    | with_reducible apply Only.refl
    | with_reducible apply seamYield_keep rfl
    | dsimp only
    | intro _))
theorem seamLock_keep {s : State} (hs : sub 978001 n_ = true) (hk_ : Only n_ a_ s) : Only n_ a_ (seamLock s) := seamLock_only.step hs hk_

theorem formationDraw_only {s : State} : Only 1064984 s (formationDraw s) := by
  unfold formationDraw
  try dsimp only
  all_goals (repeat' (first
    | with_reducible apply Only.refl
    | with_reducible apply formationNeed_keep rfl
    | fail_if_no_progress (with_reducible apply Only.upd rfl)
    | dsimp only
    | intro _))
theorem formationDraw_keep {s : State} (hs : sub 1064984 n_ = true) (hk_ : Only n_ a_ s) : Only n_ a_ (formationDraw s) := formationDraw_only.step hs hk_

theorem queuesSolo_only {s : State} : Only 131072 s (queuesSolo s) := by
  unfold queuesSolo
  try dsimp only
  all_goals (repeat' (first
    | with_reducible apply Only.refl
    | fail_if_no_progress (with_reducible apply Only.upd rfl)
    | dsimp only
    | intro _))
theorem queuesSolo_keep {s : State} (hs : sub 131072 n_ = true) (hk_ : Only n_ a_ s) : Only n_ a_ (queuesSolo s) := queuesSolo_only.step hs hk_

theorem seamAlone_only {s : State} : Only 155648 s (seamAlone s) := by
  unfold seamAlone
  try dsimp only
  all_goals (repeat' (first
    | with_reducible apply Only.refl
    | with_reducible apply queuesSolo_keep rfl
    | with_reducible apply pendDomain_keep rfl
    | with_reducible apply Only.ite
    | fail_if_no_progress (with_reducible apply Only.upd rfl)
    | split
    | dsimp only
    | intro _))
theorem seamAlone_keep {s : State} (hs : sub 155648 n_ = true) (hk_ : Only n_ a_ s) : Only n_ a_ (seamAlone s) := seamAlone_only.step hs hk_

theorem seamStrip_only {s : State} : Only 11791451 s (seamStrip s) := by
  unfold seamStrip
  try dsimp only
  all_goals (repeat' (first
    | with_reducible apply Only.refl
    | with_reducible apply keyErase_keep rfl
    | with_reducible apply enrolsDrop_keep rfl
    | with_reducible apply coreClear_keep rfl
    | with_reducible apply draw_keep rfl
    | with_reducible apply draw_keepE rfl (by assumption)
    | with_reducible apply jrnTry_keep rfl
    | with_reducible apply jrnTry_keepE rfl (by assumption)
    | with_reducible apply jrnOsk_keep rfl (by assumption)
    | with_reducible apply Only.foldl
    | with_reducible apply Only.foldl2
    | with_reducible apply Only.ite
    | with_reducible apply Only.ite2
    | fail_if_no_progress (with_reducible apply Only.upd rfl)
    | split
    | dsimp only
    | intro _))
theorem seamStrip_keep {s : State} (hs : sub 11791451 n_ = true) (hk_ : Only n_ a_ s) : Only n_ a_ (seamStrip s) := seamStrip_only.step hs hk_

theorem seamLeaveSelf_only {s : State} : Only 11791451 s (seamLeaveSelf s) := by
  unfold seamLeaveSelf
  try dsimp only
  all_goals (repeat' (first
    | with_reducible apply Only.refl
    | with_reducible apply formationDraw_keep rfl
    | with_reducible apply seamStrip_keep rfl
    | with_reducible apply seamAlone_keep rfl
    | with_reducible apply seamFarewell_keep rfl
    | dsimp only
    | intro _))
theorem seamLeaveSelf_keep {s : State} (hs : sub 11791451 n_ = true) (hk_ : Only n_ a_ s) : Only n_ a_ (seamLeaveSelf s) := seamLeaveSelf_only.step hs hk_

theorem sessionOpen_only {s : State} {l : Nat} : Only 18513 s (sessionOpen s l) := by
  unfold sessionOpen
  try dsimp only
  all_goals (repeat' (first
    | with_reducible apply Only.refl
    | with_reducible apply seamLinkPut_keep rfl
    | with_reducible apply seamPeerPut_keep rfl
    | with_reducible apply seamEvent_keep rfl
    | with_reducible apply seamSend_keep rfl
    | with_reducible apply Only.ite
    | split
    | dsimp only
    | intro _))
theorem sessionOpen_keep {s : State} {l : Nat} (hs : sub 18513 n_ = true) (hk_ : Only n_ a_ s) : Only n_ a_ (sessionOpen s l) := sessionOpen_only.step hs hk_

theorem sendHello_only {s : State} {l : Nat} : Only 16385 s (sendHello s l) := by
  unfold sendHello
  try dsimp only
  all_goals (repeat' (first
    | with_reducible apply Only.refl
    | with_reducible apply seamSend_keep rfl
    | with_reducible apply Only.ite
    | split
    | dsimp only
    | intro _))
theorem sendHello_keep {s : State} {l : Nat} (hs : sub 16385 n_ = true) (hk_ : Only n_ a_ s) : Only n_ a_ (sendHello s l) := sendHello_only.step hs hk_

theorem linkNonce_only {s : State} {l : Nat} : Only 1064984 s (linkNonce s l) := by
  unfold linkNonce
  try dsimp only
  all_goals (repeat' (first
    | with_reducible apply Only.refl
    | with_reducible apply draw_keep rfl
    | with_reducible apply draw_keepE rfl (by assumption)
    | with_reducible apply seamLinkPut_keep rfl
    | with_reducible apply Only.ite
    | with_reducible apply Only.ite2
    | split
    | dsimp only
    | intro _))
theorem linkNonce_keep {s : State} {l : Nat} (hs : sub 1064984 n_ = true) (hk_ : Only n_ a_ s) : Only n_ a_ (linkNonce s l) := linkNonce_only.step hs hk_

theorem helloOn_only {s : State} {l : Nat} : Only 1064985 s (helloOn s l) := by
  unfold helloOn
  try dsimp only
  all_goals (repeat' (first
    | with_reducible apply Only.refl
    | with_reducible apply linkNonce_keep rfl
    | with_reducible apply sendHello_keep rfl
    | with_reducible apply Only.ite
    | split
    | dsimp only
    | intro _))
theorem helloOn_keep {s : State} {l : Nat} (hs : sub 1064985 n_ = true) (hk_ : Only n_ a_ s) : Only n_ a_ (helloOn s l) := helloOn_only.step hs hk_

theorem snapSend_only {s : State} {m : Nat} : Only 16385 s (snapSend s m) := by
  unfold snapSend
  try dsimp only
  all_goals (repeat' (first
    | with_reducible apply Only.refl
    | with_reducible apply seamPeerPut_keep rfl
    | with_reducible apply seamLinkPut_keep rfl
    | with_reducible apply Only.ite
    | fail_if_no_progress (with_reducible apply Only.upd rfl)
    | split
    | dsimp only
    | intro _))
theorem snapSend_keep {s : State} {m : Nat} (hs : sub 16385 n_ = true) (hk_ : Only n_ a_ s) : Only n_ a_ (snapSend s m) := snapSend_only.step hs hk_

theorem sliceTake_only {s : State} {n : Nat} {x : Slice} : Only 2532880 s (sliceTake s n x) := by
  unfold sliceTake
  try dsimp only
  all_goals (repeat' (first
    | with_reducible apply Only.refl
    | with_reducible apply unbind_keep rfl
    | with_reducible apply resetFree_keep rfl
    | with_reducible apply reserveNote_keep rfl
    | with_reducible apply slicePut_keep rfl
    | with_reducible apply Only.ite
    | fail_if_no_progress (with_reducible apply Only.upd rfl)
    | split
    | dsimp only
    | intro _))
theorem sliceTake_keep {s : State} {n : Nat} {x : Slice} (hs : sub 2532880 n_ = true) (hk_ : Only n_ a_ s) : Only n_ a_ (sliceTake s n x) := sliceTake_only.step hs hk_

theorem coreTake_only {s : State} {n : Nat} {x : CoreRow} : Only 2180113 s (coreTake s n x) := by
  unfold coreTake
  try dsimp only
  all_goals (repeat' (first
    | with_reducible apply Only.refl
    | with_reducible apply coreRelease_keep rfl
    | with_reducible apply corePut_keep rfl
    | with_reducible apply hemWindow_keep rfl
    | with_reducible apply Only.ite
    | split
    | dsimp only
    | intro _))
theorem coreTake_keep {s : State} {n : Nat} {x : CoreRow} (hs : sub 2180113 n_ = true) (hk_ : Only n_ a_ s) : Only n_ a_ (coreTake s n x) := coreTake_only.step hs hk_

theorem coresTake_only {s : State} {t : Tbl CoreRow} : Only 2212881 s (coresTake s t) := by
  unfold coresTake
  try dsimp only
  all_goals (repeat' (first
    | with_reducible apply Only.refl
    | with_reducible apply coreTake_keep rfl
    | with_reducible apply coreClear_keep rfl
    | with_reducible apply Only.foldl
    | with_reducible apply Only.foldl2
    | dsimp only
    | intro _))
theorem coresTake_keep {s : State} {t : Tbl CoreRow} (hs : sub 2212881 n_ = true) (hk_ : Only n_ a_ s) : Only n_ a_ (coresTake s t) := coresTake_only.step hs hk_

theorem settingsShared_only {s : State} {x : Settings} : Only 1196052 s (settingsShared s x) := by
  unfold settingsShared
  try dsimp only
  all_goals (repeat' (first
    | with_reducible apply Only.refl
    | with_reducible apply settingsPut_keep rfl
    | fail_if_no_progress (with_reducible apply Only.upd rfl)
    | dsimp only
    | intro _))
theorem settingsShared_keep {s : State} {x : Settings} (hs : sub 1196052 n_ = true) (hk_ : Only n_ a_ s) : Only n_ a_ (settingsShared s x) := settingsShared_only.step hs hk_

theorem snapApply_only {s : State} {x : SeamSnap} : Only 11791959 s (snapApply s x).1 := by
  unfold snapApply
  try dsimp only
  all_goals (repeat' (first
    | with_reducible apply Only.refl
    | with_reducible apply coresTake_keep rfl
    | with_reducible apply settingsShared_keep rfl
    | with_reducible apply jrnTry_keep rfl
    | with_reducible apply jrnTry_keepE rfl (by assumption)
    | with_reducible apply jrnMany_keep rfl (by assumption)
    | fail_if_no_progress (with_reducible apply Only.upd rfl)
    | dsimp only
    | intro _))
theorem snapApply_keep {s : State} {x : SeamSnap} (hs : sub 11791959 n_ = true) (hk_ : Only n_ a_ s) : Only n_ a_ (snapApply s x).1 := snapApply_only.step hs hk_
theorem snapApply_keepE {s : State} {x : SeamSnap} {y0_ : Bool} {t_ : State} (hs : sub 11791959 n_ = true) (he : snapApply s x = (t_, y0_)) (hk_ : Only n_ a_ s) : Only n_ a_ t_ := by
  have := snapApply_keep hs hk_ (s := s) (x := x)
  rw [he] at this; exact this

theorem seamInSync_only {s : State} : Only 18513 s (seamInSync s) := by
  unfold seamInSync
  try dsimp only
  all_goals (repeat' (first
    | with_reducible apply Only.refl
    | with_reducible apply seamEvent_keep rfl
    | with_reducible apply seamTo_keep rfl
    | fail_if_no_progress (with_reducible apply Only.upd rfl)
    | split
    | dsimp only
    | intro _))
theorem seamInSync_keep {s : State} (hs : sub 18513 n_ = true) (hk_ : Only n_ a_ s) : Only n_ a_ (seamInSync s) := seamInSync_only.step hs hk_

theorem epochLoad_only {s : State} {x : SeamSnap} : Only 14420 s (epochLoad s x) := by
  unfold epochLoad
  try dsimp only
  all_goals (repeat' (first
    | with_reducible apply Only.refl
    | with_reducible apply scorchLog_keep rfl
    | with_reducible apply regPut64_keep rfl
    | with_reducible apply regPut_keep rfl
    | with_reducible apply loadNote_keep rfl
    | with_reducible apply sqcSet_keep rfl
    | fail_if_no_progress (with_reducible apply Only.upd rfl)
    | dsimp only
    | intro _))
theorem epochLoad_keep {s : State} {x : SeamSnap} (hs : sub 14420 n_ = true) (hk_ : Only n_ a_ s) : Only n_ a_ (epochLoad s x) := epochLoad_only.step hs hk_

theorem seamBye_only {s : State} {cause : FarewellCause} : Only 978001 s (seamBye s cause) := by
  unfold seamBye
  try dsimp only
  all_goals (repeat' (first
    | with_reducible apply Only.refl
    | with_reducible apply seamFarewell_keep rfl
    | with_reducible apply seamDiscard_keep rfl
    | with_reducible apply seamEvent_keep rfl
    | with_reducible apply regPut_keep rfl
    | with_reducible apply regAdd_keep rfl
    | with_reducible apply Only.ite
    | fail_if_no_progress (with_reducible apply Only.upd rfl)
    | split
    | dsimp only
    | intro _))
theorem seamBye_keep {s : State} {cause : FarewellCause} (hs : sub 978001 n_ = true) (hk_ : Only n_ a_ s) : Only n_ a_ (seamBye s cause) := seamBye_only.step hs hk_

theorem lockQueues_only {s : State} : Only 131072 s (lockQueues s) := by
  unfold lockQueues
  try dsimp only
  all_goals (repeat' (first
    | with_reducible apply Only.refl
    | with_reducible apply Only.ite
    | fail_if_no_progress (with_reducible apply Only.upd rfl)
    | split
    | dsimp only
    | intro _))
theorem lockQueues_keep {s : State} (hs : sub 131072 n_ = true) (hk_ : Only n_ a_ s) : Only n_ a_ (lockQueues s) := lockQueues_only.step hs hk_

theorem unlockQueues_only {s : State} : Only 131072 s (unlockQueues s) := by
  unfold unlockQueues
  try dsimp only
  all_goals (repeat' (first
    | with_reducible apply Only.refl
    | fail_if_no_progress (with_reducible apply Only.upd rfl)
    | dsimp only
    | intro _))
theorem unlockQueues_keep {s : State} (hs : sub 131072 n_ = true) (hk_ : Only n_ a_ s) : Only n_ a_ (unlockQueues s) := unlockQueues_only.step hs hk_

theorem queuesDestroy_only {s : State} : Only 163840 s (queuesDestroy s) := by
  unfold queuesDestroy
  try dsimp only
  all_goals (repeat' (first
    | with_reducible apply Only.refl
    | with_reducible apply hmpReleaseAll_keep rfl
    | with_reducible apply Only.foldl
    | with_reducible apply Only.foldl2
    | fail_if_no_progress (with_reducible apply Only.upd rfl)
    | dsimp only
    | intro _))
theorem queuesDestroy_keep {s : State} (hs : sub 163840 n_ = true) (hk_ : Only n_ a_ s) : Only n_ a_ (queuesDestroy s) := queuesDestroy_only.step hs hk_

theorem formEnd_only {s : State} {status : Nat} {failed : Nat} : Only 683089 s (formEnd s status failed) := by
  unfold formEnd
  try dsimp only
  all_goals (repeat' (first
    | with_reducible apply Only.refl
    | with_reducible apply seamAlone_keep rfl
    | with_reducible apply endAfter_keep rfl
    | fail_if_no_progress (with_reducible apply Only.upd rfl)
    | split
    | dsimp only
    | intro _))
theorem formEnd_keep {s : State} {status : Nat} {failed : Nat} (hs : sub 683089 n_ = true) (hk_ : Only n_ a_ s) : Only n_ a_ (formEnd s status failed) := formEnd_only.step hs hk_

theorem execSeamForm_only {tag : Nat} {io : HostIO} {s : State} : OOnly 1600601 s (execSeamForm tag io s) := by
  unfold execSeamForm
  try dsimp only
  all_goals (repeat' (first
    | with_reducible apply Only.refl
    | with_reducible apply runIn_only rfl
    | with_reducible apply endAfter_keep rfl
    | with_reducible apply helloOn_keep rfl
    | with_reducible apply Only.foldl
    | with_reducible apply Only.foldl2
    | with_reducible apply Only.ite
    | with_reducible apply OOnly.ite
    | with_reducible apply OOnly.next
    | fail_if_no_progress (with_reducible apply Only.upd rfl)
    | split
    | dsimp only
    | intro _))

theorem formFail_only {s : State} {status : Nat} {failed : Nat} : Only 683089 s (formFail s status failed) := by
  unfold formFail
  try dsimp only
  all_goals (repeat' (first
    | with_reducible apply Only.refl
    | with_reducible apply formEnd_keep rfl
    | with_reducible apply seamTo_keep rfl
    | with_reducible apply Only.foldl
    | with_reducible apply Only.foldl2
    | dsimp only
    | intro _))
theorem formFail_keep {s : State} {status : Nat} {failed : Nat} (hs : sub 683089 n_ = true) (hk_ : Only n_ a_ s) : Only n_ a_ (formFail s status failed) := formFail_only.step hs hk_

theorem execSeamFormTimeout_only {s : State} : OOnly 683089 s (execSeamFormTimeout s) := by
  unfold execSeamFormTimeout
  try dsimp only
  all_goals (repeat' (first
    | with_reducible apply Only.refl
    | with_reducible apply formEnd_keep rfl
    | with_reducible apply Only.ite
    | with_reducible apply OOnly.ite
    | with_reducible apply OOnly.next
    | split
    | dsimp only
    | intro _))

theorem promoteCmd_only {s : State} {tag : Nat} {c : Cmd} : Only 585299 s (promoteCmd s tag c) := by
  unfold promoteCmd
  try dsimp only
  all_goals (repeat' (first
    | with_reducible apply Only.refl
    | with_reducible apply cmdRelease_keep rfl
    | with_reducible apply cmdPut_keep rfl
    | with_reducible apply freeWord_keep rfl
    | with_reducible apply freeWord_keepE rfl (by assumption)
    | with_reducible apply endOk_keep rfl
    | with_reducible apply Only.ite
    | with_reducible apply Only.ite2
    | split
    | dsimp only
    | intro _))
theorem promoteCmd_keep {s : State} {tag : Nat} {c : Cmd} (hs : sub 585299 n_ = true) (hk_ : Only n_ a_ s) : Only n_ a_ (promoteCmd s tag c) := promoteCmd_only.step hs hk_

theorem bindOwn_only {s : State} {b : Nat × Nat} : Only 8192 s (bindOwn s b) := by
  unfold bindOwn
  cases keyOf s b.2 with
  | none => exact .refl
  | some o =>
    rw [Option.bind_some]
    cases he : keyBind s b.1 b.2 o with
    | none => exact .refl
    | some t => exact keyBind_keep rfl he .refl
theorem bindOwn_keep {s : State} {b : Nat × Nat} (hs : sub 8192 n_ = true) (hk_ : Only n_ a_ s) : Only n_ a_ (bindOwn s b) := bindOwn_only.step hs hk_

theorem promoteCore_only {s : State} {n : Nat} {k : Core} : Only 3007505 s (promoteCore s n k) := by
  unfold promoteCore
  try dsimp only
  all_goals (repeat' (first
    | with_reducible apply Only.refl
    | with_reducible apply bindOwn_keep rfl
    | with_reducible apply coreBegin_keep rfl
    | with_reducible apply coreClear_keep rfl
    | with_reducible apply Only.foldl
    | with_reducible apply Only.foldl2
    | with_reducible apply Only.ite
    | split
    | dsimp only
    | intro _))
theorem promoteCore_keep {s : State} {n : Nat} {k : Core} (hs : sub 3007505 n_ = true) (hk_ : Only n_ a_ s) : Only n_ a_ (promoteCore s n k) := promoteCore_only.step hs hk_

theorem forfeit_only {s : State} : Only 139264 s (forfeit s) := by
  unfold forfeit
  try dsimp only
  all_goals (repeat' (first
    | with_reducible apply Only.refl
    | fail_if_no_progress (with_reducible apply Only.upd rfl)
    | dsimp only
    | intro _))
theorem forfeit_keep {s : State} (hs : sub 139264 n_ = true) (hk_ : Only n_ a_ s) : Only n_ a_ (forfeit s) := forfeit_only.step hs hk_

theorem logsFull_only {s : State} : Only 512 s (logsFull s) := by
  unfold logsFull
  try dsimp only
  all_goals (repeat' (first
    | with_reducible apply Only.refl
    | fail_if_no_progress (with_reducible apply Only.upd rfl)
    | dsimp only
    | intro _))
theorem logsFull_keep {s : State} (hs : sub 512 n_ = true) (hk_ : Only n_ a_ s) : Only n_ a_ (logsFull s) := logsFull_only.step hs hk_

theorem takeLeases_only {s : State} : Only 147457 s (takeLeases s) := by
  unfold takeLeases
  try dsimp only
  all_goals (repeat' (first
    | with_reducible apply Only.refl
    | with_reducible apply leaseCtr_keep rfl
    | with_reducible apply leaseCtr_keepE rfl (by assumption)
    | with_reducible apply queuePut_keep rfl
    | with_reducible apply Only.foldl
    | with_reducible apply Only.foldl2
    | split
    | dsimp only
    | intro _))
theorem takeLeases_keep {s : State} (hs : sub 147457 n_ = true) (hk_ : Only n_ a_ s) : Only n_ a_ (takeLeases s) := takeLeases_only.step hs hk_

theorem promote_only {s0 : State} : Only 3141203 s0 (promote s0) := by
  unfold promote
  try dsimp only
  all_goals (repeat' (first
    | with_reducible apply Only.refl
    | with_reducible apply logsFull_keep rfl
    | with_reducible apply forfeit_keep rfl
    | with_reducible apply seamPeerPut_keep rfl
    | with_reducible apply takeLeases_keep rfl
    | with_reducible apply promoteCmd_keep rfl
    | with_reducible apply jot_keep rfl
    | with_reducible apply promoteCore_keep rfl
    | with_reducible apply regSetField_keep rfl
    | with_reducible apply seamEvent_keep rfl
    | with_reducible apply Only.foldl
    | with_reducible apply Only.foldl2
    | with_reducible apply Only.ite
    | fail_if_no_progress (with_reducible apply Only.upd rfl)
    | split
    | dsimp only
    | intro _))
theorem promote_keep {s0 : State} (hs : sub 3141203 n_ = true) (hk_ : Only n_ a_ s0) : Only n_ a_ (promote s0) := promote_only.step hs hk_

theorem probeSend_only {s : State} : Only 147473 s (probeSend s) := by
  unfold probeSend
  try dsimp only
  all_goals (repeat' (first
    | with_reducible apply Only.refl
    | with_reducible apply hbSend_keep rfl
    | with_reducible apply Only.foldl
    | with_reducible apply Only.foldl2
    | fail_if_no_progress (with_reducible apply Only.upd rfl)
    | split
    | dsimp only
    | intro _))
theorem probeSend_keep {s : State} (hs : sub 147473 n_ = true) (hk_ : Only n_ a_ s) : Only n_ a_ (probeSend s) := probeSend_only.step hs hk_

theorem electStep_only {s : State} {sure : Bool} : Only 3141203 s (electStep s sure) := by
  unfold electStep
  try dsimp only
  all_goals (repeat' (first
    | with_reducible apply Only.refl
    | with_reducible apply promote_keep rfl
    | with_reducible apply Only.ite
    | split
    | dsimp only
    | intro _))
theorem electStep_keep {s : State} {sure : Bool} (hs : sub 3141203 n_ = true) (hk_ : Only n_ a_ s) : Only n_ a_ (electStep s sure) := electStep_only.step hs hk_

theorem memberLost_only {s : State} {m : Nat} {bye : Bool} : Only 3141203 s (memberLost s m bye) := by
  unfold memberLost
  try dsimp only
  all_goals (repeat' (first
    | with_reducible apply Only.refl
    | with_reducible apply seamEvent_keep rfl
    | with_reducible apply seamPeerPut_keep rfl
    | with_reducible apply seamFence_keep rfl
    | with_reducible apply probeSend_keep rfl
    | with_reducible apply electStep_keep rfl
    | with_reducible apply promote_keep rfl
    | with_reducible apply Only.ite
    | fail_if_no_progress (with_reducible apply Only.upd rfl)
    | split
    | dsimp only
    | intro _))
theorem memberLost_keep {s : State} {m : Nat} {bye : Bool} (hs : sub 3141203 n_ = true) (hk_ : Only n_ a_ s) : Only n_ a_ (memberLost s m bye) := memberLost_only.step hs hk_

theorem entriesAgain_only {s : State} {l : Nat} {es : List JEntry} : Only 16385 s (entriesAgain s l es) := by
  unfold entriesAgain
  try dsimp only
  all_goals (repeat' (first
    | with_reducible apply Only.refl
    | with_reducible apply seamSend_keep rfl
    | with_reducible apply meterEntry_keep rfl
    | with_reducible apply Only.foldl
    | with_reducible apply Only.foldl2
    | dsimp only
    | intro _))
theorem entriesAgain_keep {s : State} {l : Nat} {es : List JEntry} (hs : sub 16385 n_ = true) (hk_ : Only n_ a_ s) : Only n_ a_ (entriesAgain s l es) := entriesAgain_only.step hs hk_

theorem linkLost_only {s : State} {l : Nat} {mode : SeamLinkMode} : Only 3141203 s (linkLost s l mode) := by
  unfold linkLost
  try dsimp only
  all_goals (repeat' (first
    | with_reducible apply Only.refl
    | with_reducible apply seamLinkPut_keep rfl
    | with_reducible apply seamEvent_keep rfl
    | with_reducible apply entriesAgain_keep rfl
    | with_reducible apply memberLost_keep rfl
    | with_reducible apply Only.ite
    | split
    | dsimp only
    | intro _))
theorem linkLost_keep {s : State} {l : Nat} {mode : SeamLinkMode} (hs : sub 3141203 n_ = true) (hk_ : Only n_ a_ s) : Only n_ a_ (linkLost s l mode) := linkLost_only.step hs hk_

theorem execSeamLeave_only {tag : Nat} {s : State} : OOnly 12577883 s (execSeamLeave tag s) := by
  unfold execSeamLeave
  try dsimp only
  all_goals (repeat' (first
    | with_reducible apply Only.refl
    | with_reducible apply runCmd_only rfl
    | with_reducible apply handOver_keep rfl
    | with_reducible apply setWork_keep rfl
    | with_reducible apply endOk_keep rfl
    | with_reducible apply seamLeaveSelf_keep rfl
    | with_reducible apply jot_keep rfl
    | with_reducible apply seamLinkPut_keep rfl
    | with_reducible apply seamPeerPut_keep rfl
    | with_reducible apply formationDraw_keep rfl
    | with_reducible apply seamAlone_keep rfl
    | with_reducible apply Only.foldl
    | with_reducible apply Only.foldl2
    | with_reducible apply Only.ite
    | with_reducible apply OOnly.ite
    | with_reducible apply OOnly.next
    | split
    | dsimp only
    | intro _))

theorem execSeamStatus_only {tag : Nat} {io : HostIO} {s : State} : OOnly 552529 s (execSeamStatus tag io s) := by
  unfold execSeamStatus
  try dsimp only
  all_goals (repeat' (first
    | with_reducible apply Only.refl
    | with_reducible apply runCmd_only rfl
    | with_reducible apply endOut_keep rfl
    | with_reducible apply Only.foldl
    | with_reducible apply Only.foldl2
    | with_reducible apply Only.ite
    | with_reducible apply OOnly.ite
    | with_reducible apply OOnly.next
    | split
    | dsimp only
    | intro _))

theorem execSeamSwitchover_only {tag : Nat} {s : State} : OOnly 978001 s (execSeamSwitchover tag s) := by
  unfold execSeamSwitchover
  try dsimp only
  all_goals (repeat' (first
    | with_reducible apply Only.refl
    | with_reducible apply runCmd_only rfl
    | with_reducible apply handOver_keep rfl
    | with_reducible apply Only.ite
    | with_reducible apply OOnly.ite
    | with_reducible apply OOnly.next
    | split
    | dsimp only
    | intro _))

theorem execSeamResync_only {tag : Nat} {s : State} : OOnly 552017 s (execSeamResync tag s) := by
  unfold execSeamResync
  try dsimp only
  all_goals (repeat' (first
    | with_reducible apply Only.refl
    | with_reducible apply runCmd_only rfl
    | with_reducible apply endOk_keep rfl
    | with_reducible apply snapSend_keep rfl
    | with_reducible apply Only.ite
    | with_reducible apply OOnly.ite
    | with_reducible apply OOnly.next
    | split
    | dsimp only
    | intro _))

theorem execSeamSetWitness_only {tag : Nat} {s : State} : OOnly 552017 s (execSeamSetWitness tag s) := by
  unfold execSeamSetWitness
  try dsimp only
  all_goals (repeat' (first
    | with_reducible apply Only.refl
    | with_reducible apply runCmd_only rfl
    | with_reducible apply endOk_keep rfl
    | with_reducible apply OOnly.ite
    | with_reducible apply OOnly.next
    | fail_if_no_progress (with_reducible apply Only.upd rfl)
    | dsimp only
    | intro _))

theorem seamTake_only {s : State} {l : Nat} {p : SeamPacket} {f : Nat → State → State} {m : Nat} (hm : sub 16400 m = true) (hf : ∀ x0 x1, Only m x1 (f x0 x1)) : Only m s (seamTake s l p f) := by
  unfold seamTake
  try dsimp only
  all_goals (repeat' (first
    | with_reducible apply Only.refl
    | with_reducible assumption
    | with_reducible apply hf
    | with_reducible refine Only.trans ?_ (hf _ _)
    | with_reducible apply seamLinkPut_keep (sub_trans rfl hm)
    | with_reducible apply regAdd_keep (sub_trans rfl hm)
    | with_reducible apply Only.ite
    | split
    | dsimp only
    | intro _))
theorem seamTake_keep {s : State} {l : Nat} {p : SeamPacket} {f : Nat → State → State} (hs : sub 16400 n_ = true) (hf : ∀ x0 x1, Only n_ x1 (f x0 x1)) (hk_ : Only n_ a_ s) : Only n_ a_ (seamTake s l p f) := hk_.trans (seamTake_only hs hf)

theorem execSeamLinkTrained_only {link : Nat} {latency : Nat} {s : State} : OOnly 1064985 s (execSeamLinkTrained link latency s) := by
  unfold execSeamLinkTrained
  try dsimp only
  all_goals (repeat' (first
    | with_reducible apply Only.refl
    | with_reducible apply seamLinkPut_keep rfl
    | with_reducible apply helloOn_keep rfl
    | with_reducible apply Only.ite
    | with_reducible apply OOnly.ite
    | with_reducible apply OOnly.next
    | split
    | dsimp only
    | intro _))

theorem formStart_only {s : State} {l : Nat} {m : Nat} : Only 1064987 s (formStart s l m) := by
  unfold formStart
  try dsimp only
  all_goals (repeat' (first
    | with_reducible apply Only.refl
    | with_reducible apply draw_keep rfl
    | with_reducible apply draw_keepE rfl (by assumption)
    | with_reducible apply drawBlinding_keep rfl
    | with_reducible apply seamSend_keep rfl
    | with_reducible apply seamPeerPut_keep rfl
    | with_reducible apply Only.ite
    | with_reducible apply Only.ite2
    | split
    | dsimp only
    | intro _))
theorem formStart_keep {s : State} {l : Nat} {m : Nat} (hs : sub 1064987 n_ = true) (hk_ : Only n_ a_ s) : Only n_ a_ (formStart s l m) := formStart_only.step hs hk_

theorem openAll_only {s : State} : Only 18513 s (openAll s) := by
  unfold openAll
  try dsimp only
  all_goals (repeat' (first
    | with_reducible apply Only.refl
    | with_reducible apply sessionOpen_keep rfl
    | with_reducible apply Only.foldl
    | with_reducible apply Only.foldl2
    | dsimp only
    | intro _))
theorem openAll_keep {s : State} (hs : sub 18513 n_ = true) (hk_ : Only n_ a_ s) : Only n_ a_ (openAll s) := openAll_only.step hs hk_

theorem formShare_only {s : State} : Only 1731673 s (formShare s) := by
  unfold formShare
  try dsimp only
  all_goals (repeat' (first
    | with_reducible apply Only.refl
    | with_reducible apply formEnd_keep rfl
    | with_reducible apply draw_keep rfl
    | with_reducible apply draw_keepE rfl (by assumption)
    | with_reducible apply seamSend_keep rfl
    | with_reducible apply openAll_keep rfl
    | with_reducible apply Only.foldl
    | with_reducible apply Only.foldl2
    | with_reducible apply Only.ite
    | with_reducible apply Only.ite2
    | fail_if_no_progress (with_reducible apply Only.upd rfl)
    | split
    | dsimp only
    | intro _))
theorem formShare_keep {s : State} (hs : sub 1731673 n_ = true) (hk_ : Only n_ a_ s) : Only n_ a_ (formShare s) := formShare_only.step hs hk_

theorem execSeamHelloReceived_only {link : Nat} {p : SeamPacket} {s : State} : OOnly 1731675 s (execSeamHelloReceived link p s) := by
  unfold execSeamHelloReceived
  try dsimp only
  all_goals (repeat' (first
    | with_reducible apply Only.refl
    | with_reducible apply seamLinkPut_keep rfl
    | with_reducible apply seamPeerPut_keep rfl
    | with_reducible apply helloOn_keep rfl
    | with_reducible apply formShare_keep rfl
    | with_reducible apply formStart_keep rfl
    | with_reducible apply sessionOpen_keep rfl
    | with_reducible apply Only.ite
    | with_reducible apply OOnly.ite
    | with_reducible apply OOnly.next
    | split
    | dsimp only
    | intro _))

theorem execSeamSessionRenew_only {link : Nat} {s : State} : OOnly 1067097 s (execSeamSessionRenew link s) := by
  unfold execSeamSessionRenew
  try dsimp only
  all_goals (repeat' (first
    | with_reducible apply Only.refl
    | with_reducible apply sessionOpen_keep rfl
    | with_reducible apply helloOn_keep rfl
    | with_reducible apply Only.ite
    | with_reducible apply OOnly.ite
    | with_reducible apply OOnly.next
    | split
    | dsimp only
    | intro _))

theorem execSeamFormReceived_only {link : Nat} {p : SeamPacket} {s : State} : OOnly 1731675 s (execSeamFormReceived link p s) := by
  unfold execSeamFormReceived
  try dsimp only
  all_goals (repeat' (first
    | with_reducible apply Only.refl
    | with_reducible apply formShare_keep rfl
    | with_reducible apply seamPeerPut_keep rfl
    | with_reducible apply formStart_keep rfl
    | with_reducible apply formEnd_keep rfl
    | with_reducible apply openAll_keep rfl
    | with_reducible apply Only.ite
    | with_reducible apply OOnly.ite
    | with_reducible apply OOnly.next
    | fail_if_no_progress (with_reducible apply Only.upd rfl)
    | split
    | dsimp only
    | intro _))

theorem groupRecord_only {s : State} : Only 8398930 s (groupRecord s).1 := by
  unfold groupRecord
  try dsimp only
  all_goals (repeat' (first
    | with_reducible apply Only.refl
    | with_reducible apply jrnTry_keep rfl
    | with_reducible apply jrnTry_keepE rfl (by assumption)
    | with_reducible apply jrnGroup_keep rfl (by assumption)
    | dsimp only
    | intro _))
theorem groupRecord_keep {s : State} (hs : sub 8398930 n_ = true) (hk_ : Only n_ a_ s) : Only n_ a_ (groupRecord s).1 := groupRecord_only.step hs hk_
theorem groupRecord_keepE {s : State} {y0_ : Bool} {t_ : State} (hs : sub 8398930 n_ = true) (he : groupRecord s = (t_, y0_)) (hk_ : Only n_ a_ s) : Only n_ a_ t_ := by
  have := groupRecord_keep hs hk_ (s := s)
  rw [he] at this; exact this

theorem groupStart_only {s0 : State} : Only 9071699 s0 (groupStart s0) := by
  unfold groupStart
  try dsimp only
  all_goals (repeat' (first
    | with_reducible apply Only.refl
    | with_reducible apply groupRecord_keep rfl
    | with_reducible apply formFail_keep rfl
    | with_reducible apply pendDomain_keep rfl
    | with_reducible apply seamEvent_keep rfl
    | with_reducible apply snapSend_keep rfl
    | with_reducible apply seamPeerPut_keep rfl
    | with_reducible apply endOk_keep rfl
    | with_reducible apply Only.foldl
    | with_reducible apply Only.foldl2
    | with_reducible apply Only.ite
    | fail_if_no_progress (with_reducible apply Only.upd rfl)
    | split
    | dsimp only
    | intro _))
theorem groupStart_keep {s0 : State} (hs : sub 9071699 n_ = true) (hk_ : Only n_ a_ s0) : Only n_ a_ (groupStart s0) := groupStart_only.step hs hk_

theorem checksTake_only {s : State} {m : Nat} {c : SeamChecks} : Only 9071699 s (checksTake s m c) := by
  unfold checksTake
  try dsimp only
  all_goals (repeat' (first
    | with_reducible apply Only.refl
    | with_reducible apply seamPeerPut_keep rfl
    | with_reducible apply seamTo_keep rfl
    | with_reducible apply snapSend_keep rfl
    | with_reducible apply formFail_keep rfl
    | with_reducible apply seamEvent_keep rfl
    | with_reducible apply formEnd_keep rfl
    | with_reducible apply groupStart_keep rfl
    | with_reducible apply Only.foldl
    | with_reducible apply Only.foldl2
    | with_reducible apply Only.ite
    | fail_if_no_progress (with_reducible apply Only.upd rfl)
    | split
    | dsimp only
    | intro _))
theorem checksTake_keep {s : State} {m : Nat} {c : SeamChecks} (hs : sub 9071699 n_ = true) (hk_ : Only n_ a_ s) : Only n_ a_ (checksTake s m c) := checksTake_only.step hs hk_

theorem snapTake_only {s : State} {m : Nat} {x : SeamSnap} : Only 12320343 s (snapTake s m x) := by
  unfold snapTake
  try dsimp only
  all_goals (repeat' (first
    | with_reducible apply Only.refl
    | with_reducible apply snapApply_keep rfl
    | with_reducible apply seamPeerPut_keep rfl
    | with_reducible apply cmdRelease_keep rfl
    | with_reducible apply formEnd_keep rfl
    | with_reducible apply epochLoad_keep rfl
    | with_reducible apply pendDomain_keep rfl
    | with_reducible apply seamInSync_keep rfl
    | with_reducible apply endOk_keep rfl
    | with_reducible apply seamEvent_keep rfl
    | with_reducible apply Only.foldl
    | with_reducible apply Only.foldl2
    | with_reducible apply Only.ite
    | fail_if_no_progress (with_reducible apply Only.upd rfl)
    | split
    | dsimp only
    | intro _))
theorem snapTake_keep {s : State} {m : Nat} {x : SeamSnap} (hs : sub 12320343 n_ = true) (hk_ : Only n_ a_ s) : Only n_ a_ (snapTake s m x) := snapTake_only.step hs hk_

theorem doubtJudge_only {s : State} {k : Nat} : Only 3141203 s (doubtJudge s k) := by
  unfold doubtJudge
  try dsimp only
  all_goals (repeat' (first
    | with_reducible apply Only.refl
    | with_reducible apply seamTo_keep rfl
    | with_reducible apply seamFence_keep rfl
    | with_reducible apply seamPeerPut_keep rfl
    | with_reducible apply promote_keep rfl
    | with_reducible apply Only.ite
    | fail_if_no_progress (with_reducible apply Only.upd rfl)
    | split
    | dsimp only
    | intro _))
theorem doubtJudge_keep {s : State} {k : Nat} (hs : sub 3141203 n_ = true) (hk_ : Only n_ a_ s) : Only n_ a_ (doubtJudge s k) := doubtJudge_only.step hs hk_

theorem checkpointTake_only {s : State} {n : Nat} {d : List Byte} : Only 3141203 s (checkpointTake s n d) := by
  unfold checkpointTake
  try dsimp only
  all_goals (repeat' (first
    | with_reducible apply Only.refl
    | with_reducible apply doubtJudge_keep rfl
    | with_reducible apply seamEvent_keep rfl
    | with_reducible apply seamFence_keep rfl
    | with_reducible apply seamTo_keep rfl
    | with_reducible apply Only.foldl
    | with_reducible apply Only.foldl2
    | with_reducible apply Only.ite
    | fail_if_no_progress (with_reducible apply Only.upd rfl)
    | split
    | dsimp only
    | intro _))
theorem checkpointTake_keep {s : State} {n : Nat} {d : List Byte} (hs : sub 3141203 n_ = true) (hk_ : Only n_ a_ s) : Only n_ a_ (checkpointTake s n d) := checkpointTake_only.step hs hk_

theorem doubtTake_only {s : State} {m : Nat} {n : Nat} {d : List Byte} : Only 3141203 s (doubtTake s m n d) := by
  unfold doubtTake
  try dsimp only
  all_goals (repeat' (first
    | with_reducible apply Only.refl
    | with_reducible apply seamPeerPut_keep rfl
    | with_reducible apply seamFence_keep rfl
    | with_reducible apply seamEvent_keep rfl
    | with_reducible apply doubtJudge_keep rfl
    | with_reducible apply Only.ite
    | split
    | dsimp only
    | intro _))
theorem doubtTake_keep {s : State} {m : Nat} {n : Nat} {d : List Byte} (hs : sub 3141203 n_ = true) (hk_ : Only n_ a_ s) : Only n_ a_ (doubtTake s m n d) := doubtTake_only.step hs hk_

theorem execSeamResyncReceived_only {link : Nat} {p : SeamPacket} {s : State} : OOnly 12582487 s (execSeamResyncReceived link p s) := by
  unfold execSeamResyncReceived
  try dsimp only
  all_goals (repeat' (first
    | with_reducible apply Only.refl
    | with_reducible apply seamTake_keep rfl
    | with_reducible apply checksTake_keep rfl
    | with_reducible apply formEnd_keep rfl
    | with_reducible apply snapSend_keep rfl
    | with_reducible apply snapTake_keep rfl
    | with_reducible apply seamPeerPut_keep rfl
    | with_reducible apply doubtTake_keep rfl
    | with_reducible apply Only.ite
    | with_reducible apply OOnly.ite
    | with_reducible apply OOnly.next
    | fail_if_no_progress (with_reducible apply Only.upd rfl)
    | split
    | dsimp only
    | intro _))

theorem execResyncRequestRetry_only {s : State} : OOnly 16385 s (execResyncRequestRetry s) := by
  unfold execResyncRequestRetry
  try dsimp only
  all_goals (repeat' (first
    | with_reducible apply Only.refl
    | with_reducible apply seamAsk_keep rfl
    | with_reducible apply Only.ite
    | with_reducible apply OOnly.ite
    | with_reducible apply OOnly.next
    | split
    | dsimp only
    | intro _))

theorem execRejoinWaitTimeout_only {s : State} : OOnly 9071699 s (execRejoinWaitTimeout s) := by
  unfold execRejoinWaitTimeout
  try dsimp only
  all_goals (repeat' (first
    | with_reducible apply Only.refl
    | with_reducible apply groupStart_keep rfl
    | with_reducible apply Only.ite
    | with_reducible apply OOnly.ite
    | with_reducible apply OOnly.next
    | split
    | dsimp only
    | intro _))

theorem execSoloStartTimeout_only {s : State} : OOnly 9071699 s (execSoloStartTimeout s) := by
  unfold execSoloStartTimeout
  try dsimp only
  all_goals (repeat' (first
    | with_reducible apply Only.refl
    | with_reducible apply groupStart_keep rfl
    | with_reducible apply Only.ite
    | with_reducible apply OOnly.ite
    | with_reducible apply OOnly.next
    | split
    | dsimp only
    | intro _))

theorem closedSweep_only {s : State} : Only 566784 s (closedSweep s) := by
  unfold closedSweep
  try dsimp only
  all_goals (repeat' (first
    | with_reducible apply Only.refl
    | with_reducible apply cmdRelease_keep rfl
    | with_reducible apply Only.foldl
    | with_reducible apply Only.foldl2
    | dsimp only
    | intro _))
theorem closedSweep_keep {s : State} (hs : sub 566784 n_ = true) (hk_ : Only n_ a_ s) : Only n_ a_ (closedSweep s) := closedSweep_only.step hs hk_

theorem seamKeep_only {s : State} : Only 978513 s (seamKeep s) := by
  unfold seamKeep
  try dsimp only
  all_goals (repeat' (first
    | with_reducible apply Only.refl
    | with_reducible apply closedSweep_keep rfl
    | with_reducible apply seamServe_keep rfl
    | with_reducible apply seamEvent_keep rfl
    | with_reducible apply switchStep_keep rfl
    | with_reducible apply Only.ite
    | fail_if_no_progress (with_reducible apply Only.upd rfl)
    | split
    | dsimp only
    | intro _))
theorem seamKeep_keep {s : State} (hs : sub 978513 n_ = true) (hk_ : Only n_ a_ s) : Only n_ a_ (seamKeep s) := seamKeep_only.step hs hk_

theorem execSeamHeartbeatSend_only {link : Nat} {s : State} : OOnly 978513 s (execSeamHeartbeatSend link s) := by
  unfold execSeamHeartbeatSend
  try dsimp only
  all_goals (repeat' (first
    | with_reducible apply Only.refl
    | with_reducible apply seamKeep_keep rfl
    | with_reducible apply seamSend_keep rfl
    | with_reducible apply seamLinkPut_keep rfl
    | with_reducible apply Only.ite
    | with_reducible apply OOnly.ite
    | with_reducible apply OOnly.next
    | split
    | dsimp only
    | intro _))

theorem driftNote_only {s : State} {o : Int} : Only 978005 s (driftNote s o) := by
  unfold driftNote
  try dsimp only
  all_goals (repeat' (first
    | with_reducible apply Only.refl
    | with_reducible apply putOffset_keep rfl
    | with_reducible apply measure_keep rfl
    | with_reducible apply seamFence_keep rfl
    | with_reducible apply seamEvent_keep rfl
    | with_reducible apply Only.ite
    | fail_if_no_progress (with_reducible apply Only.upd rfl)
    | split
    | dsimp only
    | intro _))
theorem driftNote_keep {s : State} {o : Int} (hs : sub 978005 n_ = true) (hk_ : Only n_ a_ s) : Only n_ a_ (driftNote s o) := driftNote_only.step hs hk_

theorem execSeamHeartbeatReceived_only {link : Nat} {p : SeamPacket} {arrived : Stamp} {asym : Int} {s : State} : OOnly 3141207 s (execSeamHeartbeatReceived link p arrived asym s) := by
  unfold execSeamHeartbeatReceived
  try dsimp only
  all_goals (repeat' (first
    | with_reducible apply Only.refl
    | with_reducible apply seamTake_keep rfl
    | with_reducible apply seamLinkPut_keep rfl
    | with_reducible apply seamPeerPut_keep rfl
    | with_reducible apply driftNote_keep rfl
    | with_reducible apply electStep_keep rfl
    | with_reducible apply Only.ite
    | with_reducible apply OOnly.ite
    | with_reducible apply OOnly.next
    | split
    | dsimp only
    | intro _))

theorem execTimeDivergenceFence_only {s : State} : OOnly 978001 s (execTimeDivergenceFence s) := by
  unfold execTimeDivergenceFence
  try dsimp only
  all_goals (repeat' (first
    | with_reducible apply Only.refl
    | with_reducible apply seamFence_keep rfl
    | with_reducible apply seamEvent_keep rfl
    | with_reducible apply Only.ite
    | with_reducible apply OOnly.ite
    | with_reducible apply OOnly.next
    | split
    | dsimp only
    | intro _))

theorem execSeamLinkLoss_only {link : Nat} {s : State} : OOnly 3141203 s (execSeamLinkLoss link s) := by
  unfold execSeamLinkLoss
  try dsimp only
  all_goals (repeat' (first
    | with_reducible apply Only.refl
    | with_reducible apply linkLost_keep rfl
    | with_reducible apply Only.ite
    | with_reducible apply OOnly.ite
    | with_reducible apply OOnly.next
    | split
    | dsimp only
    | intro _))

theorem execSeamHeartbeatMiss_only {link : Nat} {s : State} : OOnly 3141203 s (execSeamHeartbeatMiss link s) := by
  unfold execSeamHeartbeatMiss
  try dsimp only
  all_goals (repeat' (first
    | with_reducible apply Only.refl
    | with_reducible apply regAdd_keep rfl
    | with_reducible apply seamLinkPut_keep rfl
    | with_reducible apply linkLost_keep rfl
    | with_reducible apply Only.ite
    | with_reducible apply OOnly.ite
    | with_reducible apply OOnly.next
    | split
    | dsimp only
    | intro _))

theorem execSeamFarewellReceived_only {link : Nat} {p : SeamPacket} {s : State} : OOnly 3141203 s (execSeamFarewellReceived link p s) := by
  unfold execSeamFarewellReceived
  try dsimp only
  all_goals (repeat' (first
    | with_reducible apply Only.refl
    | with_reducible apply seamTake_keep rfl
    | with_reducible apply seamLinkPut_keep rfl
    | with_reducible apply memberLost_keep rfl
    | with_reducible apply Only.foldl
    | with_reducible apply Only.foldl2
    | with_reducible apply Only.ite
    | with_reducible apply OOnly.ite
    | with_reducible apply OOnly.next
    | split
    | dsimp only
    | intro _))

theorem onToken_only {s : State} {slice : Nat} {t : BitVec 64} {f : Nat → Cmd → State → State} {m : Nat} (hm : sub 0 m = true) (hf : ∀ x0 x1 x2, Only m x2 (f x0 x1 x2)) : Only m s (onToken s slice t f) := by
  unfold onToken
  try dsimp only
  all_goals (repeat' (first
    | with_reducible apply Only.refl
    | with_reducible assumption
    | with_reducible apply hf
    | with_reducible refine Only.trans ?_ (hf _ _ _)
    | split
    | dsimp only
    | intro _))
theorem onToken_keep {s : State} {slice : Nat} {t : BitVec 64} {f : Nat → Cmd → State → State} (hs : sub 0 n_ = true) (hf : ∀ x0 x1 x2, Only n_ x2 (f x0 x1 x2)) (hk_ : Only n_ a_ s) : Only n_ a_ (onToken s slice t f) := hk_.trans (onToken_only hs hf)

theorem applyAccept_only {s : State} {e : JEntry} {origin : Origin} {body : List Byte} {inlined : List Byte} : Only 1536 s (applyAccept s e origin body inlined) := by
  unfold applyAccept
  try dsimp only
  all_goals (repeat' (first
    | with_reducible apply Only.refl
    | with_reducible apply cmdPut_keep rfl
    | with_reducible apply dupEnter_keep rfl
    | with_reducible apply Only.ite
    | fail_if_no_progress (with_reducible apply Only.upd rfl)
    | split
    | dsimp only
    | intro _))
theorem applyAccept_keep {s : State} {e : JEntry} {origin : Origin} {body : List Byte} {inlined : List Byte} (hs : sub 1536 n_ = true) (hk_ : Only n_ a_ s) : Only n_ a_ (applyAccept s e origin body inlined) := applyAccept_only.step hs hk_

theorem applyOutcome_only {s : State} {tag : Nat} {c : Cmd} {status : Option Nat} {start : Stamp} {slots : List Nat} {entry : Option Nat} : Only 584787 s (applyOutcome s tag c status start slots entry) := by
  unfold applyOutcome
  try dsimp only
  all_goals (repeat' (first
    | with_reducible apply Only.refl
    | with_reducible apply endBefore_keep rfl
    | with_reducible apply stageTake_keep rfl
    | with_reducible apply stageTake_keepE rfl (by assumption)
    | with_reducible apply cmdPut_keep rfl
    | with_reducible apply Only.ite
    | with_reducible apply Only.ite2
    | fail_if_no_progress (with_reducible apply Only.upd rfl)
    | split
    | dsimp only
    | intro _))
theorem applyOutcome_keep {s : State} {tag : Nat} {c : Cmd} {status : Option Nat} {start : Stamp} {slots : List Nat} {entry : Option Nat} (hs : sub 584787 n_ = true) (hk_ : Only n_ a_ s) : Only n_ a_ (applyOutcome s tag c status start slots entry) := applyOutcome_only.step hs hk_

theorem mirrorFrame_only {s : State} {q : Nat} {ctr : Nat} {app : Nat} {stamp : Stamp} {data : List Byte} {cmd : optParam (Option Nat) none} : Only 163858 s (mirrorFrame s q ctr app stamp data cmd) := by
  unfold mirrorFrame
  try dsimp only
  all_goals (repeat' (first
    | with_reducible apply Only.refl
    | with_reducible apply queuePut_keep rfl
    | with_reducible apply hmpFill_keep rfl (by assumption)
    | with_reducible apply txData_keep rfl
    | with_reducible apply Only.ite
    | with_reducible apply Only.ite2
    | split
    | dsimp only
    | intro _))
theorem mirrorFrame_keep {s : State} {q : Nat} {ctr : Nat} {app : Nat} {stamp : Stamp} {data : List Byte} {cmd : optParam (Option Nat) none} (hs : sub 163858 n_ = true) (hk_ : Only n_ a_ s) : Only n_ a_ (mirrorFrame s q ctr app stamp data cmd) := mirrorFrame_only.step hs hk_

theorem markEnded_only {s : State} {q : Nat} {ctr : Nat} {code : Nat} : Only 164864 s (markEnded s q ctr code) := by
  unfold markEnded
  try dsimp only
  all_goals (repeat' (first
    | with_reducible apply Only.refl
    | with_reducible apply sendNote_keep rfl
    | with_reducible apply txFree_keep rfl
    | with_reducible apply queuePut_keep rfl
    | with_reducible apply Only.foldl
    | with_reducible apply Only.foldl2
    | split
    | dsimp only
    | intro _))
theorem markEnded_keep {s : State} {q : Nat} {ctr : Nat} {code : Nat} (hs : sub 164864 n_ = true) (hk_ : Only n_ a_ s) : Only n_ a_ (markEnded s q ctr code) := markEnded_only.step hs hk_

theorem applySend_only {s : State} {tag : Option (Nat × Cmd)} {data : List Byte} {stamp : Stamp} {ctrs : List (Nat × Nat)} : Only 715859 s (applySend s tag data stamp ctrs) := by
  unfold applySend
  try dsimp only
  all_goals (repeat' (first
    | with_reducible apply Only.refl
    | with_reducible apply mirrorFrame_keep rfl
    | with_reducible apply setWork_keep rfl
    | with_reducible apply endOk_keep rfl
    | with_reducible apply Only.foldl
    | with_reducible apply Only.foldl2
    | with_reducible apply Only.ite
    | split
    | dsimp only
    | intro _))
theorem applySend_keep {s : State} {tag : Option (Nat × Cmd)} {data : List Byte} {stamp : Stamp} {ctrs : List (Nat × Nat)} (hs : sub 715859 n_ = true) (hk_ : Only n_ a_ s) : Only n_ a_ (applySend s tag data stamp ctrs) := applySend_only.step hs hk_

theorem markFrame_only {s : State} {q : Nat} {epoch : Nat} {ctr : Nat} : Only 131072 s (markFrame s q epoch ctr) := by
  unfold markFrame
  try dsimp only
  all_goals (repeat' (first
    | with_reducible apply Only.refl
    | with_reducible apply queueMod_keep rfl
    | with_reducible apply Only.ite
    | split
    | dsimp only
    | intro _))
theorem markFrame_keep {s : State} {q : Nat} {epoch : Nat} {ctr : Nat} (hs : sub 131072 n_ = true) (hk_ : Only n_ a_ s) : Only n_ a_ (markFrame s q epoch ctr) := markFrame_only.step hs hk_

theorem entryFlash_only {s : State} {b : JBody} : Only 8398930 s (entryFlash s b).1 := by
  unfold entryFlash
  try dsimp only
  all_goals (repeat' (first
    | with_reducible apply Only.refl
    | with_reducible apply jrnTry_keep rfl
    | with_reducible apply jrnTry_keepE rfl (by assumption)
    | with_reducible apply jrnOne_keep rfl (by assumption)
    | with_reducible apply jrnOsk_keep rfl (by assumption)
    | with_reducible apply jrnCounter_keep rfl (by assumption)
    | with_reducible apply Only.ite
    | split
    | dsimp only
    | intro _))
theorem entryFlash_keep {s : State} {b : JBody} (hs : sub 8398930 n_ = true) (hk_ : Only n_ a_ s) : Only n_ a_ (entryFlash s b).1 := entryFlash_only.step hs hk_
theorem entryFlash_keepE {s : State} {b : JBody} {y0_ : Bool} {t_ : State} (hs : sub 8398930 n_ = true) (he : entryFlash s b = (t_, y0_)) (hk_ : Only n_ a_ s) : Only n_ a_ t_ := by
  have := entryFlash_keep hs hk_ (s := s) (b := b)
  rw [he] at this; exact this

theorem applyKey_only {s : State} {slot : Nat} {o : Option KeyObj} : Only 24577 s (applyKey s slot o) := by
  unfold applyKey
  try dsimp only
  all_goals (repeat' (first
    | with_reducible apply Only.refl
    | with_reducible apply keyPut_keep rfl
    | with_reducible apply keyErase_keep rfl
    | with_reducible apply Only.ite
    | split
    | dsimp only
    | intro _))
theorem applyKey_keep {s : State} {slot : Nat} {o : Option KeyObj} (hs : sub 24577 n_ = true) (hk_ : Only n_ a_ s) : Only n_ a_ (applyKey s slot o) := applyKey_only.step hs hk_

theorem applyOsk_only {s : State} {n : Nat} {k : Option (List Byte)} : Only 8192 s (applyOsk s n k) := by
  unfold applyOsk
  try dsimp only
  all_goals (repeat' (first
    | with_reducible apply Only.refl
    | fail_if_no_progress (with_reducible apply Only.upd rfl)
    | split
    | dsimp only
    | intro _))
theorem applyOsk_keep {s : State} {n : Nat} {k : Option (List Byte)} (hs : sub 8192 n_ = true) (hk_ : Only n_ a_ s) : Only n_ a_ (applyOsk s n k) := applyOsk_only.step hs hk_

theorem applyEpoch_only {s : State} {id : Nat} {stop : Nat} : Only 131072 s (applyEpoch s id stop) := by
  unfold applyEpoch
  try dsimp only
  all_goals (repeat' (first
    | with_reducible apply Only.refl
    | fail_if_no_progress (with_reducible apply Only.upd rfl)
    | split
    | dsimp only
    | intro _))
theorem applyEpoch_keep {s : State} {id : Nat} {stop : Nat} (hs : sub 131072 n_ = true) (hk_ : Only n_ a_ s) : Only n_ a_ (applyEpoch s id stop) := applyEpoch_only.step hs hk_

theorem applyUses_only {s : State} {h : Nat} {left : Nat} : Only 8192 s (applyUses s h left) := by
  unfold applyUses
  try dsimp only
  all_goals (repeat' (first
    | with_reducible apply Only.refl
    | fail_if_no_progress (with_reducible apply Only.upd rfl)
    | split
    | dsimp only
    | intro _))
theorem applyUses_keep {s : State} {h : Nat} {left : Nat} (hs : sub 8192 n_ = true) (hk_ : Only n_ a_ s) : Only n_ a_ (applyUses s h left) := applyUses_only.step hs hk_

theorem applyLease_only {s : State} {kind : Nat} {obj : Nat} {stop : Nat} : Only 139264 s (applyLease s kind obj stop) := by
  unfold applyLease
  try dsimp only
  all_goals (repeat' (first
    | with_reducible apply Only.refl
    | with_reducible apply queueMod_keep rfl
    | with_reducible apply applyEpoch_keep rfl
    | with_reducible apply applyUses_keep rfl
    | split
    | dsimp only
    | intro _))
theorem applyLease_keep {s : State} {kind : Nat} {obj : Nat} {stop : Nat} (hs : sub 139264 n_ = true) (hk_ : Only n_ a_ s) : Only n_ a_ (applyLease s kind obj stop) := applyLease_only.step hs hk_

theorem mirrorDrain_only {s : State} {q : Nat} : Only 164864 s (mirrorDrain s q) := by
  unfold mirrorDrain
  try dsimp only
  all_goals (repeat' (first
    | with_reducible apply Only.refl
    | with_reducible apply markEnded_keep rfl
    | with_reducible apply Only.foldl
    | with_reducible apply Only.foldl2
    | split
    | dsimp only
    | intro _))
theorem mirrorDrain_keep {s : State} {q : Nat} (hs : sub 164864 n_ = true) (hk_ : Only n_ a_ s) : Only n_ a_ (mirrorDrain s q) := mirrorDrain_only.step hs hk_

theorem applyBody_only {s : State} {e : JEntry} : Only 3141207 s (applyBody s e) := by
  unfold applyBody
  try dsimp only
  all_goals (repeat' (first
    | with_reducible apply Only.refl
    | with_reducible apply applyAccept_keep rfl
    | with_reducible apply onToken_keep rfl
    | with_reducible apply cmdPut_keep rfl
    | with_reducible apply applyOutcome_keep rfl
    | with_reducible apply ctxAdopt_keep rfl
    | with_reducible apply cmdRelease_keep rfl
    | with_reducible apply applyKey_keep rfl
    | with_reducible apply applyOsk_keep rfl
    | with_reducible apply applyLease_keep rfl
    | with_reducible apply applySend_keep rfl
    | with_reducible apply mirrorFrame_keep rfl
    | with_reducible apply markFrame_keep rfl
    | with_reducible apply markEnded_keep rfl
    | with_reducible apply sliceTake_keep rfl
    | with_reducible apply progPut_keep rfl
    | with_reducible apply coreTake_keep rfl
    | with_reducible apply queuePut_keep rfl
    | with_reducible apply mirrorDrain_keep rfl
    | with_reducible apply cardTake_keep rfl
    | with_reducible apply promote_keep rfl
    | with_reducible apply seamPeerPut_keep rfl
    | with_reducible apply seamFence_keep rfl
    | with_reducible apply Only.foldl
    | with_reducible apply Only.foldl2
    | with_reducible apply Only.ite
    | fail_if_no_progress (with_reducible apply Only.upd rfl)
    | split
    | dsimp only
    | intro _))
theorem applyBody_keep {s : State} {e : JEntry} (hs : sub 3141207 n_ = true) (hk_ : Only n_ a_ s) : Only n_ a_ (applyBody s e) := applyBody_only.step hs hk_

theorem applyEntry_only {s0 : State} {e : JEntry} : Only 3141207 s0 (applyEntry s0 e) := by
  unfold applyEntry
  try dsimp only
  all_goals (repeat' (first
    | with_reducible apply Only.refl
    | with_reducible apply checkpointTake_keep rfl
    | with_reducible apply applyBody_keep rfl
    | with_reducible apply Only.ite
    | fail_if_no_progress (with_reducible apply Only.upd rfl)
    | split
    | dsimp only
    | intro _))
theorem applyEntry_keep {s0 : State} {e : JEntry} (hs : sub 3141207 n_ = true) (hk_ : Only n_ a_ s0) : Only n_ a_ (applyEntry s0 e) := applyEntry_only.step hs hk_

theorem applyLocked_only {s : State} {e : JEntry} : Only 3141207 s (applyLocked s e) := by
  unfold applyLocked
  try dsimp only
  all_goals (repeat' (first
    | with_reducible apply Only.refl
    | with_reducible apply cmdPut_keep rfl
    | with_reducible apply onToken_keep rfl
    | with_reducible apply applyBody_keep rfl
    | with_reducible apply cmdRelease_keep rfl
    | with_reducible apply Only.foldl
    | with_reducible apply Only.foldl2
    | with_reducible apply Only.ite
    | split
    | dsimp only
    | intro _))
theorem applyLocked_keep {s : State} {e : JEntry} (hs : sub 3141207 n_ = true) (hk_ : Only n_ a_ s) : Only n_ a_ (applyLocked s e) := applyLocked_only.step hs hk_

theorem queueEntries_only {s : State} {es : List JEntry} : Only 16384 s (queueEntries s es) := by
  unfold queueEntries
  try dsimp only
  all_goals (repeat' (first
    | with_reducible apply Only.refl
    | fail_if_no_progress (with_reducible apply Only.upd rfl)
    | dsimp only
    | intro _))
theorem queueEntries_keep {s : State} {es : List JEntry} (hs : sub 16384 n_ = true) (hk_ : Only n_ a_ s) : Only n_ a_ (queueEntries s es) := queueEntries_only.step hs hk_

theorem applyHeld_only {n : Nat} {s : State} : Only 11529815 s (applyHeld n s) := by
  induction n generalizing s with
  | zero => exact .refl
  | succ n ih =>
    unfold applyHeld
    split
    · exact .refl
    · dsimp only
      split
      · exact (Only.upd rfl .refl).trans ih
      · split
        · split
          · next h => exact (applyEntry_keep rfl (Only.upd rfl (entryFlash_keepE rfl h .refl))).trans ih
          · next h => exact entryFlash_keepE rfl h .refl
        · exact .refl
theorem applyHeld_keep {z0 : Nat} {z1 : State} (hs : sub 11529815 n_ = true) (hk_ : Only n_ a_ z1) : Only n_ a_ (applyHeld z0 z1) := applyHeld_only.step hs hk_

theorem sendAck_only {s : State} : Only 16385 s (sendAck s) := by
  unfold sendAck
  try dsimp only
  all_goals (repeat' (first
    | with_reducible apply Only.refl
    | with_reducible apply seamTo_keep rfl
    | fail_if_no_progress (with_reducible apply Only.upd rfl)
    | split
    | dsimp only
    | intro _))
theorem sendAck_keep {s : State} (hs : sub 16385 n_ = true) (hk_ : Only n_ a_ s) : Only n_ a_ (sendAck s) := sendAck_only.step hs hk_

theorem execSeamJournalReceived_only {link : Nat} {p : SeamPacket} {s : State} : OOnly 11529815 s (execSeamJournalReceived link p s) := by
  unfold execSeamJournalReceived
  try dsimp only
  all_goals (repeat' (first
    | with_reducible apply Only.refl
    | with_reducible apply seamTake_keep rfl
    | with_reducible apply applyLocked_keep rfl
    | with_reducible apply queueEntries_keep rfl
    | with_reducible apply closedSweep_keep rfl
    | with_reducible apply applyHeld_keep rfl
    | with_reducible apply seamTo_keep rfl
    | with_reducible apply regAdd_keep rfl
    | with_reducible apply sendAck_keep rfl
    | with_reducible apply Only.foldl
    | with_reducible apply Only.foldl2
    | with_reducible apply Only.ite
    | with_reducible apply OOnly.ite
    | with_reducible apply OOnly.next
    | split
    | dsimp only
    | intro _))

theorem execSeamAckCoalesce_only {s : State} : OOnly 16385 s (execSeamAckCoalesce s) := by
  unfold execSeamAckCoalesce
  try dsimp only
  all_goals (repeat' (first
    | with_reducible apply Only.refl
    | with_reducible apply sendAck_keep rfl
    | with_reducible apply Only.ite
    | with_reducible apply OOnly.ite
    | with_reducible apply OOnly.next
    | split
    | dsimp only
    | intro _))

theorem execSeamAckReceived_only {link : Nat} {p : SeamPacket} {s : State} : OOnly 978001 s (execSeamAckReceived link p s) := by
  unfold execSeamAckReceived
  try dsimp only
  all_goals (repeat' (first
    | with_reducible apply Only.refl
    | with_reducible apply seamTake_keep rfl
    | with_reducible apply seamPeerPut_keep rfl
    | with_reducible apply switchStep_keep rfl
    | with_reducible apply Only.ite
    | with_reducible apply OOnly.ite
    | with_reducible apply OOnly.next
    | fail_if_no_progress (with_reducible apply Only.upd rfl)
    | split
    | dsimp only
    | intro _))

theorem execSeamNakReceived_only {link : Nat} {p : SeamPacket} {s : State} : OOnly 16401 s (execSeamNakReceived link p s) := by
  unfold execSeamNakReceived
  try dsimp only
  all_goals (repeat' (first
    | with_reducible apply Only.refl
    | with_reducible apply seamTake_keep rfl
    | with_reducible apply regAdd_keep rfl
    | with_reducible apply snapSend_keep rfl
    | with_reducible apply seamPeerPut_keep rfl
    | with_reducible apply entriesAgain_keep rfl
    | with_reducible apply Only.ite
    | with_reducible apply OOnly.ite
    | with_reducible apply OOnly.next
    | split
    | dsimp only
    | intro _))

theorem upFrame_only {s : State} {q : Nat} {epoch : Nat} {ctr : Nat} {flags : Nat} {app : Nat} {stamp : Stamp} {pl : List Byte} : Only 2878547 s (upFrame s q epoch ctr flags app stamp pl) := by
  unfold upFrame
  try dsimp only
  all_goals (repeat' (first
    | with_reducible apply Only.refl
    | with_reducible apply hmpFill_keep rfl (by assumption)
    | with_reducible apply hmpDrop_keep rfl
    | with_reducible apply queuePut_keep rfl
    | with_reducible apply rxData_keep rfl
    | with_reducible apply rxConfirm_keep rfl
    | with_reducible apply Only.ite
    | with_reducible apply Only.ite2
    | split
    | dsimp only
    | intro _))
theorem upFrame_keep {s : State} {q : Nat} {epoch : Nat} {ctr : Nat} {flags : Nat} {app : Nat} {stamp : Stamp} {pl : List Byte} (hs : sub 2878547 n_ = true) (hk_ : Only n_ a_ s) : Only n_ a_ (upFrame s q epoch ctr flags app stamp pl) := upFrame_only.step hs hk_

theorem execSeamUplinkReceived_only {link : Nat} {p : SeamPacket} {s : State} : OOnly 2878547 s (execSeamUplinkReceived link p s) := by
  unfold execSeamUplinkReceived
  try dsimp only
  all_goals (repeat' (first
    | with_reducible apply Only.refl
    | with_reducible apply seamTake_keep rfl
    | with_reducible apply upFrame_keep rfl
    | with_reducible apply rxConfirm_keep rfl
    | with_reducible apply cardReport_keep rfl
    | with_reducible apply jot_keep rfl
    | with_reducible apply queuePut_keep rfl
    | with_reducible apply Only.ite
    | with_reducible apply OOnly.ite
    | with_reducible apply OOnly.next
    | split
    | dsimp only
    | intro _))

theorem execCheckpointTimer_only {s : State} : OOnly 16385 s (execCheckpointTimer s) := by
  unfold execCheckpointTimer
  try dsimp only
  all_goals (repeat' (first
    | with_reducible apply Only.refl
    | with_reducible apply jot_keep rfl
    | with_reducible apply Only.ite
    | with_reducible apply OOnly.ite
    | with_reducible apply OOnly.next
    | fail_if_no_progress (with_reducible apply Only.upd rfl)
    | split
    | dsimp only
    | intro _))

theorem execWitnessProbeTimeout_only {s : State} : OOnly 3141203 s (execWitnessProbeTimeout s) := by
  unfold execWitnessProbeTimeout
  try dsimp only
  all_goals (repeat' (first
    | with_reducible apply Only.refl
    | with_reducible apply regPut_keep rfl
    | with_reducible apply seamFence_keep rfl
    | with_reducible apply seamEvent_keep rfl
    | with_reducible apply promote_keep rfl
    | with_reducible apply Only.ite
    | with_reducible apply OOnly.ite
    | with_reducible apply OOnly.next
    | fail_if_no_progress (with_reducible apply Only.upd rfl)
    | split
    | dsimp only
    | intro _))

theorem execWitnessReprobe_only {s : State} : OOnly 147473 s (execWitnessReprobe s) := by
  unfold execWitnessReprobe
  try dsimp only
  all_goals (repeat' (first
    | with_reducible apply Only.refl
    | with_reducible apply probeSend_keep rfl
    | with_reducible apply Only.ite
    | with_reducible apply OOnly.ite
    | with_reducible apply OOnly.next
    | split
    | dsimp only
    | intro _))

end Sys2Proof.Machine
end

