-- ==== Sys2Proof/Laws/FrameBoot.lean ====
section
/-! SUPPORT. What each operation of these files of Machine/ changes (see Laws/Frame.lean): Scorch, Thimble, LifeCycle, Firmware, Boot. -/

namespace Sys2Proof.Machine

set_option linter.all false
set_option Elab.async false

variable {n_ : Nat} {a_ : State}

theorem certDrop_only {s : State} {cause : Nat} : Only 16779344 s (certDrop s cause) := by
  unfold certDrop
  try dsimp only
  all_goals (repeat' (first
    | with_reducible apply Only.refl
    | with_reducible apply tallyPut_keep rfl
    | with_reducible apply sqcSet_keep rfl
    | with_reducible apply Only.ite
    | fail_if_no_progress (with_reducible apply Only.upd rfl)
    | split
    | dsimp only
    | intro _))
theorem certDrop_keep {s : State} {cause : Nat} (hs : sub 16779344 n_ = true) (hk_ : Only n_ a_ s) : Only n_ a_ (certDrop s cause) := certDrop_only.step hs hk_

theorem certWithdraw_only {s : State} : Only 16779346 s (certWithdraw s) := by
  unfold certWithdraw
  try dsimp only
  all_goals (repeat' (first
    | with_reducible apply Only.refl
    | with_reducible apply freeWord_keep rfl
    | with_reducible apply freeWord_keepE rfl (by assumption)
    | with_reducible apply certDrop_keep rfl
    | with_reducible apply Only.ite
    | with_reducible apply Only.ite2
    | split
    | dsimp only
    | intro _))
theorem certWithdraw_keep {s : State} (hs : sub 16779346 n_ = true) (hk_ : Only n_ a_ s) : Only n_ a_ (certWithdraw s) := certWithdraw_only.step hs hk_

theorem storeClose_only {s0 : State} {cause : Nat} : Only 8388608 s0 (storeClose s0 cause) := by
  unfold storeClose
  try dsimp only
  all_goals (repeat' (first
    | with_reducible apply Only.refl
    | with_reducible apply settingsSave_keep rfl
    | fail_if_no_progress (with_reducible apply Only.upd rfl)
    | dsimp only
    | intro _))
theorem storeClose_keep {s0 : State} {cause : Nat} (hs : sub 8388608 n_ = true) (hk_ : Only n_ a_ s0) : Only n_ a_ (storeClose s0 cause) := storeClose_only.step hs hk_

theorem keysErase_only {s : State} : Only 139264 s (keysErase s) := by
  unfold keysErase
  try dsimp only
  all_goals (repeat' (first
    | with_reducible apply Only.refl
    | fail_if_no_progress (with_reducible apply Only.upd rfl)
    | dsimp only
    | intro _))
theorem keysErase_keep {s : State} (hs : sub 139264 n_ = true) (hk_ : Only n_ a_ s) : Only n_ a_ (keysErase s) := keysErase_only.step hs hk_

theorem rootsErase_only {s0 : State} : Only 8400896 s0 (rootsErase s0) := by
  unfold rootsErase
  try dsimp only
  all_goals (repeat' (first
    | with_reducible apply Only.refl
    | with_reducible apply settingsSave_keep rfl
    | fail_if_no_progress (with_reducible apply Only.upd rfl)
    | dsimp only
    | intro _))
theorem rootsErase_keep {s0 : State} (hs : sub 8400896 n_ = true) (hk_ : Only n_ a_ s0) : Only n_ a_ (rootsErase s0) := rootsErase_only.step hs hk_

theorem rinse_only {s : State} : Only 29359187 s (rinse s) := by
  unfold rinse
  try dsimp only
  all_goals (repeat' (first
    | with_reducible apply Only.refl
    | with_reducible apply rootsErase_keep rfl
    | with_reducible apply mangleRinse_keep rfl
    | with_reducible apply pressRinse_keep rfl
    | with_reducible apply seamFarewell_keep rfl
    | with_reducible apply storeClose_keep rfl
    | with_reducible apply keysErase_keep rfl
    | with_reducible apply rngRinse_keep rfl
    | with_reducible apply seamAlone_keep rfl
    | with_reducible apply certWithdraw_keep rfl
    | with_reducible apply needleRinse_keep rfl
    | with_reducible apply queuesDestroy_keep rfl
    | with_reducible apply sqcSet_keep rfl
    | with_reducible apply Only.ite
    | fail_if_no_progress (with_reducible apply Only.upd rfl)
    | split
    | dsimp only
    | intro _))
theorem rinse_keep {s : State} (hs : sub 29359187 n_ = true) (hk_ : Only n_ a_ s) : Only n_ a_ (rinse s) := rinse_only.step hs hk_

theorem lockNote_only {s : State} {src : Nat} : Only 4096 s (lockNote s src) := by
  unfold lockNote
  try dsimp only
  all_goals (repeat' (first
    | with_reducible apply Only.refl
    | with_reducible apply Only.ite
    | fail_if_no_progress (with_reducible apply Only.upd rfl)
    | split
    | dsimp only
    | intro _))
theorem lockNote_keep {s : State} {src : Nat} (hs : sub 4096 n_ = true) (hk_ : Only n_ a_ s) : Only n_ a_ (lockNote s src) := lockNote_only.step hs hk_

theorem stickySet_only {s : State} {src : Nat} : Only 4096 s (stickySet s src) := by
  unfold stickySet
  try dsimp only
  all_goals (repeat' (first
    | with_reducible apply Only.refl
    | with_reducible apply Only.ite
    | fail_if_no_progress (with_reducible apply Only.upd rfl)
    | split
    | dsimp only
    | intro _))
theorem stickySet_keep {s : State} {src : Nat} (hs : sub 4096 n_ = true) (hk_ : Only n_ a_ s) : Only n_ a_ (stickySet s src) := stickySet_only.step hs hk_

theorem lockBegin_only {s : State} {src : Nat} : Only 978033 s (lockBegin s src) := by
  unfold lockBegin
  try dsimp only
  all_goals (repeat' (first
    | with_reducible apply Only.refl
    | with_reducible apply seamLock_keep rfl
    | with_reducible apply lockQueues_keep rfl
    | with_reducible apply faultPin_keep rfl
    | with_reducible apply sqcSet_keep rfl
    | with_reducible apply tallyPut_keep rfl
    | with_reducible apply Only.ite
    | split
    | dsimp only
    | intro _))
theorem lockBegin_keep {s : State} {src : Nat} (hs : sub 978033 n_ = true) (hk_ : Only n_ a_ s) : Only n_ a_ (lockBegin s src) := lockBegin_only.step hs hk_

theorem fireMark_only {s : State} {src : Nat} {i : FireInfo} : Only 4176 s (fireMark s src i) := by
  unfold fireMark
  try dsimp only
  all_goals (repeat' (first
    | with_reducible apply Only.refl
    | with_reducible apply agentNext_keep rfl
    | with_reducible apply agentNext_keepE rfl (by assumption)
    | with_reducible apply sqcSet_keep rfl
    | with_reducible apply regAdd_keep rfl
    | with_reducible apply stickySet_keep rfl
    | with_reducible apply lockNote_keep rfl
    | with_reducible apply Only.ite
    | with_reducible apply Only.ite2
    | fail_if_no_progress (with_reducible apply Only.upd rfl)
    | split
    | dsimp only
    | intro _))
theorem fireMark_keep {s : State} {src : Nat} {i : FireInfo} (hs : sub 4176 n_ = true) (hk_ : Only n_ a_ s) : Only n_ a_ (fireMark s src i) := fireMark_only.step hs hk_

theorem fireErase_only {s : State} {src : Nat} {vault : Bool} : Only 29359187 s (fireErase s src vault) := by
  unfold fireErase
  try dsimp only
  all_goals (repeat' (first
    | with_reducible apply Only.refl
    | with_reducible apply rinse_keep rfl
    | with_reducible apply rootsErase_keep rfl
    | with_reducible apply storeClose_keep rfl
    | with_reducible apply Only.ite
    | fail_if_no_progress (with_reducible apply Only.upd rfl)
    | split
    | dsimp only
    | intro _))
theorem fireErase_keep {s : State} {src : Nat} {vault : Bool} (hs : sub 29359187 n_ = true) (hk_ : Only n_ a_ s) : Only n_ a_ (fireErase s src vault) := fireErase_only.step hs hk_

theorem fire_only {s : State} {src : Nat} {i : FireInfo} : Only 29359611 s (fire s src i) := by
  unfold fire
  try dsimp only
  all_goals (repeat' (first
    | with_reducible apply Only.refl
    | with_reducible apply fireErase_keep rfl
    | with_reducible apply fireMark_keep rfl
    | with_reducible apply scorchLog_keep rfl
    | with_reducible apply lockBegin_keep rfl
    | with_reducible apply wakeUp_keep rfl
    | with_reducible apply tallyPut_keep rfl
    | with_reducible apply Only.ite
    | split
    | dsimp only
    | intro _))
theorem fire_keep {s : State} {src : Nat} {i : FireInfo} (hs : sub 29359611 n_ = true) (hk_ : Only n_ a_ s) : Only n_ a_ (fire s src i) := fire_only.step hs hk_

theorem fireFree_only {s : State} {src : Nat} : Only 29359611 s (fireFree s src) := by
  unfold fireFree
  try dsimp only
  all_goals (repeat' (first
    | with_reducible apply Only.refl
    | with_reducible apply freeWord_keep rfl
    | with_reducible apply freeWord_keepE rfl (by assumption)
    | with_reducible apply fire_keep rfl
    | split
    | dsimp only
    | intro _))
theorem fireFree_keep {s : State} {src : Nat} (hs : sub 29359611 n_ = true) (hk_ : Only n_ a_ s) : Only n_ a_ (fireFree s src) := fireFree_only.step hs hk_

theorem execSupplyDetectorAFire_only {rail : Nat} {glitch : Bool} {low : Bool} {ns : Nat} {mv : Nat} {s : State} : OOnly 29359611 s (execSupplyDetectorAFire rail glitch low ns mv s) := by
  unfold execSupplyDetectorAFire
  try dsimp only
  all_goals (repeat' (first
    | with_reducible apply Only.refl
    | with_reducible apply fire_keep rfl
    | with_reducible apply Only.ite
    | with_reducible apply OOnly.ite
    | with_reducible apply OOnly.next
    | split
    | dsimp only
    | intro _))

theorem execSupplyDetectorDFire_only {rail : Nat} {low : Bool} {mv : Nat} {s : State} : OOnly 29359611 s (execSupplyDetectorDFire rail low mv s) := by
  unfold execSupplyDetectorDFire
  try dsimp only
  all_goals (repeat' (first
    | with_reducible apply Only.refl
    | with_reducible apply fire_keep rfl
    | with_reducible apply Only.ite
    | with_reducible apply OOnly.ite
    | with_reducible apply OOnly.next
    | split
    | dsimp only
    | intro _))

theorem tempRead_only {s : State} {t0 : BitVec 16} {t1 : BitVec 16} : Only 16 s (tempRead s t0 t1) := by
  unfold tempRead
  try dsimp only
  all_goals (repeat' (first
    | with_reducible apply Only.refl
    | with_reducible apply regPut_keep rfl
    | dsimp only
    | intro _))
theorem tempRead_keep {s : State} {t0 : BitVec 16} {t1 : BitVec 16} (hs : sub 16 n_ = true) (hk_ : Only n_ a_ s) : Only n_ a_ (tempRead s t0 t1) := tempRead_only.step hs hk_

theorem execTemperatureFire_only {t0 : BitVec 16} {t1 : BitVec 16} {ms : Nat} {s : State} : OOnly 29359611 s (execTemperatureFire t0 t1 ms s) := by
  unfold execTemperatureFire
  try dsimp only
  all_goals (repeat' (first
    | with_reducible apply Only.refl
    | with_reducible apply tempRead_keep rfl
    | with_reducible apply fire_keep rfl
    | with_reducible apply Only.ite
    | with_reducible apply OOnly.ite
    | with_reducible apply OOnly.next
    | split
    | dsimp only
    | intro _))

theorem execTempWarn_only {t0 : BitVec 16} {t1 : BitVec 16} {ms : Nat} {s : State} : OOnly 6224 s (execTempWarn t0 t1 ms s) := by
  unfold execTempWarn
  try dsimp only
  all_goals (repeat' (first
    | with_reducible apply Only.refl
    | with_reducible apply tempRead_keep rfl
    | with_reducible apply tallyPut_keep rfl
    | with_reducible apply sqcSet_keep rfl
    | with_reducible apply Only.ite
    | with_reducible apply OOnly.ite
    | with_reducible apply OOnly.next
    | fail_if_no_progress (with_reducible apply Only.upd rfl)
    | split
    | dsimp only
    | intro _))

theorem execTempWarnClear_only {t0 : BitVec 16} {t1 : BitVec 16} {ms : Nat} {s : State} : OOnly 4112 s (execTempWarnClear t0 t1 ms s) := by
  unfold execTempWarnClear
  try dsimp only
  all_goals (repeat' (first
    | with_reducible apply Only.refl
    | with_reducible apply tempRead_keep rfl
    | with_reducible apply Only.ite
    | with_reducible apply OOnly.ite
    | with_reducible apply OOnly.next
    | fail_if_no_progress (with_reducible apply Only.upd rfl)
    | split
    | dsimp only
    | intro _))

theorem execReferenceFrequencyFire_only {khz : Nat} {ps : Nat} {s : State} : OOnly 29359611 s (execReferenceFrequencyFire khz ps s) := by
  unfold execReferenceFrequencyFire
  try dsimp only
  all_goals (repeat' (first
    | with_reducible apply Only.refl
    | with_reducible apply fireFree_keep rfl
    | with_reducible apply Only.ite
    | with_reducible apply OOnly.ite
    | with_reducible apply OOnly.next
    | split
    | dsimp only
    | intro _))

theorem execMeshFire_only {s : State} : OOnly 29359611 s (execMeshFire s) := by
  unfold execMeshFire
  try dsimp only
  all_goals (repeat' (first
    | with_reducible apply Only.refl
    | with_reducible apply fireFree_keep rfl
    | with_reducible apply OOnly.ite
    | with_reducible apply OOnly.next
    | dsimp only
    | intro _))

theorem execLoopFire_only {loop : Nat} {sample : Word} {s : State} : OOnly 29359611 s (execLoopFire loop sample s) := by
  unfold execLoopFire
  try dsimp only
  all_goals (repeat' (first
    | with_reducible apply Only.refl
    | with_reducible apply fire_keep rfl
    | with_reducible apply OOnly.ite
    | with_reducible apply OOnly.next
    | dsimp only
    | intro _))

theorem vbatLost_only {s : State} : Only 62943236 s (vbatLost s) := by
  unfold vbatLost
  try dsimp only
  all_goals (repeat' (first
    | with_reducible apply Only.refl
    | fail_if_no_progress (with_reducible apply Only.upd rfl)
    | dsimp only
    | intro _))
theorem vbatLost_keep {s : State} (hs : sub 62943236 n_ = true) (hk_ : Only n_ a_ s) : Only n_ a_ (vbatLost s) := vbatLost_only.step hs hk_

theorem execVbatFire_only {kind : Nat} {mv : Nat} {s : State} : OOnly 67108351 s (execVbatFire kind mv s) := by
  unfold execVbatFire
  try dsimp only
  all_goals (repeat' (first
    | with_reducible apply Only.refl
    | with_reducible apply fire_keep rfl
    | with_reducible apply vbatLost_keep rfl
    | with_reducible apply Only.ite
    | with_reducible apply OOnly.ite
    | with_reducible apply OOnly.next
    | split
    | dsimp only
    | intro _))

theorem execVbatLow_only {mv : Nat} {s : State} : OOnly 6224 s (execVbatLow mv s) := by
  unfold execVbatLow
  try dsimp only
  all_goals (repeat' (first
    | with_reducible apply Only.refl
    | with_reducible apply tallyPut_keep rfl
    | with_reducible apply sqcSet_keep rfl
    | with_reducible apply Only.ite
    | with_reducible apply OOnly.ite
    | with_reducible apply OOnly.next
    | fail_if_no_progress (with_reducible apply Only.upd rfl)
    | split
    | dsimp only
    | intro _))

theorem execVaultIntegrityCheck_only {bad : Bool} {s : State} : OOnly 29359611 s (execVaultIntegrityCheck bad s) := by
  unfold execVaultIntegrityCheck
  try dsimp only
  all_goals (repeat' (first
    | with_reducible apply Only.refl
    | with_reducible apply fireFree_keep rfl
    | with_reducible apply Only.ite
    | with_reducible apply OOnly.ite
    | with_reducible apply OOnly.next
    | split
    | dsimp only
    | intro _))

theorem execSourceConditionAbsent_only {source : Nat} {s : State} : OOnly 4096 s (execSourceConditionAbsent source s) := by
  unfold execSourceConditionAbsent
  try dsimp only
  all_goals (repeat' (first
    | with_reducible apply Only.refl
    | with_reducible apply Only.ite
    | with_reducible apply OOnly.ite
    | with_reducible apply OOnly.next
    | fail_if_no_progress (with_reducible apply Only.upd rfl)
    | split
    | dsimp only
    | intro _))

theorem supplyWarn_only {s : State} {reading : Nat} : Only 6224 s (supplyWarn s reading) := by
  unfold supplyWarn
  try dsimp only
  all_goals (repeat' (first
    | with_reducible apply Only.refl
    | with_reducible apply sqcSet_keep rfl
    | with_reducible apply tallyPut_keep rfl
    | fail_if_no_progress (with_reducible apply Only.upd rfl)
    | dsimp only
    | intro _))
theorem supplyWarn_keep {s : State} {reading : Nat} (hs : sub 6224 n_ = true) (hk_ : Only n_ a_ s) : Only n_ a_ (supplyWarn s reading) := supplyWarn_only.step hs hk_

theorem railFalls_only {s : State} {mv : Nat} : Only 6224 s (railFalls s mv) := by
  unfold railFalls
  try dsimp only
  all_goals (repeat' (first
    | with_reducible apply Only.refl
    | with_reducible apply supplyWarn_keep rfl
    | fail_if_no_progress (with_reducible apply Only.upd rfl)
    | dsimp only
    | intro _))
theorem railFalls_keep {s : State} {mv : Nat} (hs : sub 6224 n_ = true) (hk_ : Only n_ a_ s) : Only n_ a_ (railFalls s mv) := railFalls_only.step hs hk_

theorem execSupplyWarning_only {core_ : Nat} {io_ : Nat} {s : State} : OOnly 6224 s (execSupplyWarning core_ io_ s) := by
  unfold execSupplyWarning
  try dsimp only
  all_goals (repeat' (first
    | with_reducible apply Only.refl
    | with_reducible apply railFalls_keep rfl
    | with_reducible apply Only.ite
    | with_reducible apply OOnly.ite
    | with_reducible apply OOnly.next
    | split
    | dsimp only
    | intro _))

theorem execSupplyWarningEnd_only {core_ : Nat} {io_ : Nat} {s : State} : OOnly 4096 s (execSupplyWarningEnd core_ io_ s) := by
  unfold execSupplyWarningEnd
  try dsimp only
  all_goals (repeat' (first
    | with_reducible apply Only.refl
    | with_reducible apply Only.ite
    | with_reducible apply OOnly.ite
    | with_reducible apply OOnly.next
    | fail_if_no_progress (with_reducible apply Only.upd rfl)
    | split
    | dsimp only
    | intro _))

theorem execPowerFail_only {s : State} : OOnly 2096603 s (execPowerFail s) := by
  unfold execPowerFail
  try dsimp only
  all_goals (repeat' (first
    | with_reducible apply Only.refl
    | with_reducible apply freeWord_keep rfl
    | with_reducible apply freeWord_keepE rfl (by assumption)
    | with_reducible apply supplyWarn_keep rfl
    | with_reducible apply sqcSet_keep rfl
    | with_reducible apply wakeUp_keep rfl
    | with_reducible apply seamBye_keep rfl
    | with_reducible apply Only.ite
    | with_reducible apply Only.ite2
    | with_reducible apply OOnly.ite
    | with_reducible apply OOnly.next
    | fail_if_no_progress (with_reducible apply Only.upd rfl)
    | split
    | dsimp only
    | intro _))

theorem execPowerFailEnd_only {s : State} : OOnly 22609 s (execPowerFailEnd s) := by
  unfold execPowerFailEnd
  try dsimp only
  all_goals (repeat' (first
    | with_reducible apply Only.refl
    | with_reducible apply tallyPut_keep rfl
    | with_reducible apply seamAsk_keep rfl
    | with_reducible apply Only.ite
    | with_reducible apply OOnly.ite
    | with_reducible apply OOnly.next
    | fail_if_no_progress (with_reducible apply Only.upd rfl)
    | split
    | dsimp only
    | intro _))

theorem lockWithdraw_only {s : State} : Only 33689600 s (lockWithdraw s) := by
  unfold lockWithdraw
  try dsimp only
  all_goals (repeat' (first
    | with_reducible apply Only.refl
    | with_reducible apply unlockQueues_keep rfl
    | with_reducible apply Only.ite
    | fail_if_no_progress (with_reducible apply Only.upd rfl)
    | split
    | dsimp only
    | intro _))
theorem lockWithdraw_keep {s : State} (hs : sub 33689600 n_ = true) (hk_ : Only n_ a_ s) : Only n_ a_ (lockWithdraw s) := lockWithdraw_only.step hs hk_

theorem volatileLost_only {s : State} : Only 8386492 s (volatileLost s) := by
  unfold volatileLost
  try dsimp only
  all_goals (repeat' (first
    | with_reducible apply Only.refl
    | fail_if_no_progress (with_reducible apply Only.upd rfl)
    | dsimp only
    | intro _))
theorem volatileLost_keep {s : State} (hs : sub 8386492 n_ = true) (hk_ : Only n_ a_ s) : Only n_ a_ (volatileLost s) := volatileLost_only.step hs hk_

theorem enterVault_only {s : State} : Only 16775100 s (enterVault s) := by
  unfold enterVault
  try dsimp only
  all_goals (repeat' (first
    | with_reducible apply Only.refl
    | with_reducible apply volatileLost_keep rfl
    | with_reducible apply settingsSave_keep rfl
    | dsimp only
    | intro _))
theorem enterVault_keep {s : State} (hs : sub 16775100 n_ = true) (hk_ : Only n_ a_ s) : Only n_ a_ (enterVault s) := enterVault_only.step hs hk_

theorem execVaultEntry_only {rail : Nat} {mv : Nat} {s : State} : OOnly 50329532 s (execVaultEntry rail mv s) := by
  unfold execVaultEntry
  try dsimp only
  all_goals (repeat' (first
    | with_reducible apply Only.refl
    | with_reducible apply enterVault_keep rfl
    | with_reducible apply lockWithdraw_keep rfl
    | with_reducible apply Only.ite
    | with_reducible apply OOnly.ite
    | with_reducible apply OOnly.next
    | split
    | dsimp only
    | intro _))

theorem execScorchStatus_only {tag : Nat} {io : HostIO} {s : State} : OOnly 552529 s (execScorchStatus tag io s) := by
  unfold execScorchStatus
  try dsimp only
  all_goals (repeat' (first
    | with_reducible apply Only.refl
    | with_reducible apply runCmd_only rfl
    | with_reducible apply endOut_keep rfl
    | with_reducible apply OOnly.ite
    | with_reducible apply OOnly.next
    | dsimp only
    | intro _))

theorem unlockStart_only {s : State} {tag : Nat} {mask : Nat} : Only 1024 s (unlockStart s tag mask) := by
  unfold unlockStart
  try dsimp only
  all_goals (repeat' (first
    | with_reducible apply Only.refl
    | with_reducible apply setWork_keep rfl
    | dsimp only
    | intro _))
theorem unlockStart_keep {s : State} {tag : Nat} {mask : Nat} (hs : sub 1024 n_ = true) (hk_ : Only n_ a_ s) : Only n_ a_ (unlockStart s tag mask) := unlockStart_only.step hs hk_

theorem unlock_only {s : State} {clear : Nat} {officers : Nat} : Only 33708145 s (unlock s clear officers) := by
  unfold unlock
  try dsimp only
  all_goals (repeat' (first
    | with_reducible apply Only.refl
    | with_reducible apply unlockQueues_keep rfl
    | with_reducible apply faultPin_keep rfl
    | with_reducible apply sqcSet_keep rfl
    | with_reducible apply tallyPut_keep rfl
    | with_reducible apply scorchLog_keep rfl
    | with_reducible apply seamAsk_keep rfl
    | with_reducible apply Only.foldl
    | with_reducible apply Only.foldl2
    | with_reducible apply Only.ite
    | fail_if_no_progress (with_reducible apply Only.upd rfl)
    | split
    | dsimp only
    | intro _))
theorem unlock_keep {s : State} {clear : Nat} {officers : Nat} (hs : sub 33708145 n_ = true) (hk_ : Only n_ a_ s) : Only n_ a_ (unlock s clear officers) := unlock_only.step hs hk_

theorem execScorchUnlock_only {tag : Nat} {io : HostIO} {s : State} : OOnly 34241649 s (execScorchUnlock tag io s) := by
  unfold execScorchUnlock
  try dsimp only
  all_goals (repeat' (first
    | with_reducible apply Only.refl
    | with_reducible apply runIn_only rfl
    | with_reducible apply endAfter_keep rfl
    | with_reducible apply unlock_keep rfl
    | with_reducible apply endOk_keep rfl
    | with_reducible apply Only.ite
    | with_reducible apply OOnly.ite
    | with_reducible apply OOnly.next
    | fail_if_no_progress (with_reducible apply Only.upd rfl)
    | split
    | dsimp only
    | intro _))

theorem execScorchLogRead_only {tag : Nat} {io : HostIO} {s : State} : OOnly 552529 s (execScorchLogRead tag io s) := by
  unfold execScorchLogRead
  try dsimp only
  all_goals (repeat' (first
    | with_reducible apply Only.refl
    | with_reducible apply runCmd_only rfl
    | with_reducible apply endOut_keep rfl
    | with_reducible apply OOnly.ite
    | with_reducible apply OOnly.next
    | dsimp only
    | intro _))

theorem execScorchDisable_only {tag : Nat} {s : State} : OOnly 556115 s (execScorchDisable tag s) := by
  unfold execScorchDisable
  refine runCmd_only rfl fun c s => ?_
  dsimp only
  apply Only.ite <;> intro _
  · exact endOk_keep rfl .refl
  · apply Only.ite <;> intro hb
    · exact endOk_keep rfl .refl
    · refine endOk_keep rfl (scorchLog_keep rfl (freeSev_keep rfl ?_))
      exact Only.upd rfl .refl (fuses_ := Or.inr fun i h => bitN_add (by simpa using hb) h)

theorem queueBind_only {s : State} {q : Nat} : Only 131072 s (queueBind s q) := by
  unfold queueBind
  try dsimp only
  all_goals (repeat' (first
    | with_reducible apply Only.refl
    | with_reducible apply queuePut_keep rfl
    | split
    | dsimp only
    | intro _))
theorem queueBind_keep {s : State} {q : Nat} (hs : sub 131072 n_ = true) (hk_ : Only n_ a_ s) : Only n_ a_ (queueBind s q) := queueBind_only.step hs hk_

theorem execThmBind_only {s : State} : OOnly 4333568 s (execThmBind s) := by
  unfold execThmBind
  try dsimp only
  all_goals (repeat' (first
    | with_reducible apply Only.refl
    | with_reducible apply thmServe_only rfl
    | with_reducible apply thmAnswer_keep rfl
    | with_reducible apply keyBind_keep rfl (by assumption)
    | with_reducible apply queueBind_keep rfl
    | with_reducible apply Only.ite
    | with_reducible apply OOnly.ite
    | with_reducible apply OOnly.next
    | split
    | dsimp only
    | intro _))

theorem thmRspHead_only {s : State} {v : Word} : Only 16 s (thmRspHead s v) := by
  unfold thmRspHead
  try dsimp only
  all_goals (repeat' (first
    | with_reducible apply Only.refl
    | with_reducible apply regPut_keep rfl
    | with_reducible apply ignWrite_keep rfl
    | with_reducible apply Only.ite
    | split
    | dsimp only
    | intro _))
theorem thmRspHead_keep {s : State} {v : Word} (hs : sub 16 n_ = true) (hk_ : Only n_ a_ s) : Only n_ a_ (thmRspHead s v) := thmRspHead_only.step hs hk_

theorem execThmRspHeadWrite_only {value : Word} {s : State} : OOnly 16 s (execThmRspHeadWrite value s) := by
  unfold execThmRspHeadWrite
  try dsimp only
  all_goals (repeat' (first
    | with_reducible apply Only.refl
    | with_reducible apply thmRspHead_keep rfl
    | with_reducible apply OOnly.ite
    | with_reducible apply OOnly.next
    | dsimp only
    | intro _))

theorem thmMode_only {s : State} {m : ThmMode} : Only 4194304 s (thmMode s m) := by
  unfold thmMode
  try dsimp only
  all_goals (repeat' (first
    | with_reducible apply Only.refl
    | fail_if_no_progress (with_reducible apply Only.upd rfl)
    | dsimp only
    | intro _))
theorem thmMode_keep {s : State} {m : ThmMode} (hs : sub 4194304 n_ = true) (hk_ : Only n_ a_ s) : Only n_ a_ (thmMode s m) := thmMode_only.step hs hk_

theorem thmEvent_only {s : State} {bit : Nat} : Only 16 s (thmEvent s bit) := by
  unfold thmEvent
  try dsimp only
  all_goals (repeat' (first
    | with_reducible apply Only.refl
    | with_reducible apply sqcSet_keep rfl
    | dsimp only
    | intro _))
theorem thmEvent_keep {s : State} {bit : Nat} (hs : sub 16 n_ = true) (hk_ : Only n_ a_ s) : Only n_ a_ (thmEvent s bit) := thmEvent_only.step hs hk_

theorem thmGiveUp_only {s : State} {cmd : Option Nat} : Only 552017 s (thmGiveUp s cmd) := by
  unfold thmGiveUp
  try dsimp only
  all_goals (repeat' (first
    | with_reducible apply Only.refl
    | with_reducible apply endBefore_keep rfl
    | with_reducible apply Only.ite
    | split
    | dsimp only
    | intro _))
theorem thmGiveUp_keep {s : State} {cmd : Option Nat} (hs : sub 552017 n_ = true) (hk_ : Only n_ a_ s) : Only n_ a_ (thmGiveUp s cmd) := thmGiveUp_only.step hs hk_

theorem mailboxZero_only {s : State} : Only 4194320 s (mailboxZero s) := by
  unfold mailboxZero
  try dsimp only
  all_goals (repeat' (first
    | with_reducible apply Only.refl
    | fail_if_no_progress (with_reducible apply Only.upd rfl)
    | dsimp only
    | intro _))
theorem mailboxZero_keep {s : State} (hs : sub 4194320 n_ = true) (hk_ : Only n_ a_ s) : Only n_ a_ (mailboxZero s) := mailboxZero_only.step hs hk_

theorem thmRestart_only {s : State} : Only 5172305 s (thmRestart s) := by
  unfold thmRestart
  try dsimp only
  all_goals (repeat' (first
    | with_reducible apply Only.refl
    | with_reducible apply mailboxZero_keep rfl
    | with_reducible apply rekeyFail_keep rfl
    | with_reducible apply seamYield_keep rfl
    | with_reducible apply Only.foldl
    | with_reducible apply Only.foldl2
    | with_reducible apply Only.ite
    | fail_if_no_progress (with_reducible apply Only.upd rfl)
    | split
    | dsimp only
    | intro _))
theorem thmRestart_keep {s : State} (hs : sub 5172305 n_ = true) (hk_ : Only n_ a_ s) : Only n_ a_ (thmRestart s) := thmRestart_only.step hs hk_

theorem execThimbleRestart_only {s : State} : OOnly 5172305 s (execThimbleRestart s) := by
  unfold execThimbleRestart
  try dsimp only
  all_goals (repeat' (first
    | with_reducible apply Only.refl
    | with_reducible apply thmRestart_keep rfl
    | with_reducible apply Only.ite
    | with_reducible apply OOnly.ite
    | with_reducible apply OOnly.next
    | split
    | dsimp only
    | intro _))

theorem thmLost_only {s : State} : Only 4746321 s (thmLost s) := by
  unfold thmLost
  try dsimp only
  all_goals (repeat' (first
    | with_reducible apply Only.refl
    | with_reducible apply thmGiveUp_keep rfl
    | with_reducible apply Only.foldl
    | with_reducible apply Only.foldl2
    | fail_if_no_progress (with_reducible apply Only.upd rfl)
    | dsimp only
    | intro _))
theorem thmLost_keep {s : State} (hs : sub 4746321 n_ = true) (hk_ : Only n_ a_ s) : Only n_ a_ (thmLost s) := thmLost_only.step hs hk_

theorem thmFail_only {s : State} : Only 5176433 s (thmFail s) := by
  unfold thmFail
  try dsimp only
  all_goals (repeat' (first
    | with_reducible apply Only.refl
    | with_reducible apply thmEvent_keep rfl
    | with_reducible apply thmMode_keep rfl
    | with_reducible apply mailboxZero_keep rfl
    | with_reducible apply scorchLog_keep rfl
    | with_reducible apply tallyPut_keep rfl
    | with_reducible apply faultPin_keep rfl
    | with_reducible apply thmGiveUp_keep rfl
    | with_reducible apply rekeyFail_keep rfl
    | with_reducible apply thmLost_keep rfl
    | with_reducible apply seamYield_keep rfl
    | with_reducible apply Only.foldl
    | with_reducible apply Only.foldl2
    | with_reducible apply Only.ite
    | fail_if_no_progress (with_reducible apply Only.upd rfl)
    | split
    | dsimp only
    | intro _))
theorem thmFail_keep {s : State} (hs : sub 5176433 n_ = true) (hk_ : Only n_ a_ s) : Only n_ a_ (thmFail s) := thmFail_only.step hs hk_

theorem thmHang_only {s : State} : Only 5176433 s (thmHang s) := by
  unfold thmHang
  try dsimp only
  all_goals (repeat' (first
    | with_reducible apply Only.refl
    | with_reducible apply tallyPut_keep rfl
    | with_reducible apply thmFail_keep rfl
    | with_reducible apply thmRestart_keep rfl
    | with_reducible apply thmEvent_keep rfl
    | with_reducible apply thmMode_keep rfl
    | with_reducible apply seamYield_keep rfl
    | with_reducible apply Only.ite
    | fail_if_no_progress (with_reducible apply Only.upd rfl)
    | split
    | dsimp only
    | intro _))
theorem thmHang_keep {s : State} (hs : sub 5176433 n_ = true) (hk_ : Only n_ a_ s) : Only n_ a_ (thmHang s) := thmHang_only.step hs hk_

theorem execThimbleHang_only {silent : Bool} {s : State} : OOnly 5176433 s (execThimbleHang silent s) := by
  unfold execThimbleHang
  try dsimp only
  all_goals (repeat' (first
    | with_reducible apply Only.refl
    | with_reducible apply thmHang_keep rfl
    | with_reducible apply Only.ite
    | with_reducible apply OOnly.ite
    | with_reducible apply OOnly.next
    | split
    | dsimp only
    | intro _))

theorem execThimbleRestartTimeout_only {s : State} : OOnly 5176433 s (execThimbleRestartTimeout s) := by
  unfold execThimbleRestartTimeout
  try dsimp only
  all_goals (repeat' (first
    | with_reducible apply Only.refl
    | with_reducible apply thmHang_keep rfl
    | with_reducible apply Only.ite
    | with_reducible apply OOnly.ite
    | with_reducible apply OOnly.next
    | split
    | dsimp only
    | intro _))

theorem cachesReconcile_only {s : State} : Only 139264 s (cachesReconcile s) := by
  unfold cachesReconcile
  try dsimp only
  all_goals (repeat' (first
    | with_reducible apply Only.refl
    | with_reducible apply Only.ite
    | fail_if_no_progress (with_reducible apply Only.upd rfl)
    | split
    | dsimp only
    | intro _))
theorem cachesReconcile_keep {s : State} (hs : sub 139264 n_ = true) (hk_ : Only n_ a_ s) : Only n_ a_ (cachesReconcile s) := cachesReconcile_only.step hs hk_

theorem execThimbleReady_only {imageOk : Bool} {s : State} : OOnly 5176433 s (execThimbleReady imageOk s) := by
  unfold execThimbleReady
  try dsimp only
  all_goals (repeat' (first
    | with_reducible apply Only.refl
    | with_reducible apply thmFail_keep rfl
    | with_reducible apply cachesReconcile_keep rfl
    | with_reducible apply thmEvent_keep rfl
    | with_reducible apply sqcSet_keep rfl
    | with_reducible apply thmPost_keep rfl
    | with_reducible apply Only.ite
    | with_reducible apply OOnly.ite
    | with_reducible apply OOnly.next
    | fail_if_no_progress (with_reducible apply Only.upd rfl)
    | split
    | dsimp only
    | intro _))

theorem execThmRecover_only {s : State} : OOnly 4746321 s (execThmRecover s) := by
  unfold execThmRecover
  try dsimp only
  all_goals (repeat' (first
    | with_reducible apply Only.refl
    | with_reducible apply thmServe_only rfl
    | with_reducible apply thmLost_keep rfl
    | with_reducible apply thmAnswer_keep rfl
    | with_reducible apply thmPost_keep rfl
    | with_reducible apply Only.ite
    | with_reducible apply OOnly.ite
    | with_reducible apply OOnly.next
    | split
    | dsimp only
    | intro _))

theorem execGpioEdge_only {pin : Nat} {rising : Bool} {s : State} : OOnly 3377626 s (execGpioEdge pin rising s) := by
  unfold execGpioEdge
  try dsimp only
  all_goals (repeat' (first
    | with_reducible apply Only.refl
    | with_reducible apply regSetBit_keep rfl
    | with_reducible apply evPulse_keep rfl
    | with_reducible apply wakeUp_keep rfl
    | with_reducible apply Only.ite
    | with_reducible apply OOnly.ite
    | with_reducible apply OOnly.next
    | split
    | dsimp only
    | intro _))

theorem lcBurn_only {s : State} {k m : Nat} : Only 16777216 s (lcBurn s k m) := by
  unfold lcBurn
  exact Only.upd rfl .refl (lcFuses_ := Or.inr fun _ _ h => fuse_setAt h)
theorem lcBurn_keep {s : State} {k : Nat} {m : Nat} (hs : sub 16777216 n_ = true) (hk_ : Only n_ a_ s) : Only n_ a_ (lcBurn s k m) := lcBurn_only.step hs hk_

theorem portsOff_only {s : State} : Only 131088 s (portsOff s) := by
  unfold portsOff
  try dsimp only
  all_goals (repeat' (first
    | with_reducible apply Only.refl
    | with_reducible apply portSetCfg_keep rfl
    | with_reducible apply Only.foldl
    | with_reducible apply Only.foldl2
    | with_reducible apply Only.ite
    | split
    | dsimp only
    | intro _))
theorem portsOff_keep {s : State} (hs : sub 131088 n_ = true) (hk_ : Only n_ a_ s) : Only n_ a_ (portsOff s) := portsOff_only.step hs hk_

theorem lcsReq_only {s : State} {v : Word} : Only 21133393 s (lcsReq s v) := by
  unfold lcsReq
  try dsimp only
  all_goals (repeat' (first
    | with_reducible apply Only.refl
    | with_reducible apply sqcSet_keep rfl
    | with_reducible apply regPut_keep rfl
    | with_reducible apply tallyPut_keep rfl
    | with_reducible apply pendPut_keep rfl
    | with_reducible apply scorchLog_keep rfl
    | with_reducible apply thmPost_keep rfl
    | with_reducible apply portsOff_keep rfl
    | with_reducible apply Only.ite
    | fail_if_no_progress (with_reducible apply Only.upd rfl)
    | split
    | dsimp only
    | intro _))
theorem lcsReq_keep {s : State} {v : Word} (hs : sub 21133393 n_ = true) (hk_ : Only n_ a_ s) : Only n_ a_ (lcsReq s v) := lcsReq_only.step hs hk_

theorem execLcsReqWrite_only {value : Word} {s : State} : OOnly 22280667 s (execLcsReqWrite value s) := by
  unfold execLcsReqWrite
  try dsimp only
  all_goals (repeat' (first
    | with_reducible apply Only.refl
    | with_reducible apply hostMeets_keep rfl
    | with_reducible apply lcsReq_keep rfl
    | with_reducible apply Only.ite
    | with_reducible apply OOnly.ite
    | with_reducible apply OOnly.next
    | split
    | dsimp only
    | intro _))

theorem certStart_only {s : State} : Only 16777232 s (certStart s) := by
  unfold certStart
  try dsimp only
  all_goals (repeat' (first
    | with_reducible apply Only.refl
    | with_reducible apply sqcSet_keep rfl
    | with_reducible apply Only.ite
    | fail_if_no_progress (with_reducible apply Only.upd rfl)
    | split
    | dsimp only
    | intro _))
theorem certStart_keep {s : State} (hs : sub 16777232 n_ = true) (hk_ : Only n_ a_ s) : Only n_ a_ (certStart s) := certStart_only.step hs hk_

theorem certRecheck_only {s : State} : Only 16779346 s (certRecheck s) := by
  unfold certRecheck
  try dsimp only
  all_goals (repeat' (first
    | with_reducible apply Only.refl
    | with_reducible apply certWithdraw_keep rfl
    | with_reducible apply certStart_keep rfl
    | with_reducible apply Only.ite
    | fail_if_no_progress (with_reducible apply Only.upd rfl)
    | split
    | dsimp only
    | intro _))
theorem certRecheck_keep {s : State} (hs : sub 16779346 n_ = true) (hk_ : Only n_ a_ s) : Only n_ a_ (certRecheck s) := certRecheck_only.step hs hk_

theorem execDebugCertExpiry_only {s : State} : OOnly 16779346 s (execDebugCertExpiry s) := by
  unfold execDebugCertExpiry
  try dsimp only
  all_goals (repeat' (first
    | with_reducible apply Only.refl
    | with_reducible apply certWithdraw_keep rfl
    | with_reducible apply Only.ite
    | with_reducible apply OOnly.ite
    | with_reducible apply OOnly.next
    | split
    | dsimp only
    | intro _))

theorem lcBegin_only {s : State} {t : Transition} : Only 16803922 s (lcBegin s t) := by
  unfold lcBegin
  try dsimp only
  all_goals (repeat' (first
    | with_reducible apply Only.refl
    | with_reducible apply lcBurn_keep rfl
    | with_reducible apply certWithdraw_keep rfl
    | fail_if_no_progress (with_reducible apply Only.upd rfl)
    | dsimp only
    | intro _))
theorem lcBegin_keep {s : State} {t : Transition} (hs : sub 16803922 n_ = true) (hk_ : Only n_ a_ s) : Only n_ a_ (lcBegin s t) := lcBegin_only.step hs hk_

theorem lcCut_only {s : State} {t : Transition} : Only 33552316 s (lcCut s t) := by
  unfold lcCut
  try dsimp only
  all_goals (repeat' (first
    | with_reducible apply Only.refl
    | with_reducible apply lcBurn_keep rfl
    | with_reducible apply enterVault_keep rfl
    | fail_if_no_progress (with_reducible apply Only.upd rfl)
    | dsimp only
    | intro _))
theorem lcCut_keep {s : State} {t : Transition} (hs : sub 33552316 n_ = true) (hk_ : Only n_ a_ s) : Only n_ a_ (lcCut s t) := lcCut_only.step hs hk_

theorem execThmLc_only {cut : Bool} {s : State} : OOnly 33554430 s (execThmLc cut s) := by
  unfold execThmLc
  try dsimp only
  all_goals (repeat' (first
    | with_reducible apply Only.refl
    | with_reducible apply thmServe_only rfl
    | with_reducible apply thmAnswer_keep rfl
    | with_reducible apply lcCut_keep rfl
    | with_reducible apply lcBegin_keep rfl
    | with_reducible apply certWithdraw_keep rfl
    | with_reducible apply Only.ite
    | with_reducible apply OOnly.ite
    | with_reducible apply OOnly.next
    | fail_if_no_progress (with_reducible apply Only.upd rfl)
    | split
    | dsimp only
    | intro _))

theorem lcDone_only {s : State} {tag : Nat} {r : ThmRsp} : Only 17329233 s (lcDone s tag r) := by
  unfold lcDone
  try dsimp only
  all_goals (repeat' (first
    | with_reducible apply Only.refl
    | with_reducible apply endAfter_keep rfl
    | with_reducible apply certStart_keep rfl
    | with_reducible apply endOk_keep rfl
    | with_reducible apply Only.ite
    | split
    | dsimp only
    | intro _))
theorem lcDone_keep {s : State} {tag : Nat} {r : ThmRsp} (hs : sub 17329233 n_ = true) (hk_ : Only n_ a_ s) : Only n_ a_ (lcDone s tag r) := lcDone_only.step hs hk_

theorem execLcStatus_only {tag : Nat} {io : HostIO} {s : State} : OOnly 552529 s (execLcStatus tag io s) := by
  unfold execLcStatus
  try dsimp only
  all_goals (repeat' (first
    | with_reducible apply Only.refl
    | with_reducible apply runCmd_only rfl
    | with_reducible apply endOut_keep rfl
    | with_reducible apply OOnly.ite
    | with_reducible apply OOnly.next
    | dsimp only
    | intro _))

theorem execDebugInstall_only {tag : Nat} {io : HostIO} {s : State} : OOnly 5008465 s (execDebugInstall tag io s) := by
  unfold execDebugInstall
  try dsimp only
  all_goals (repeat' (first
    | with_reducible apply Only.refl
    | with_reducible apply runIn_only rfl
    | with_reducible apply mangleSet_keep rfl
    | with_reducible apply endAfter_keep rfl
    | with_reducible apply endOk_keep rfl
    | with_reducible apply thmAsk_keep rfl
    | with_reducible apply Only.ite
    | with_reducible apply OOnly.ite
    | with_reducible apply OOnly.next
    | split
    | dsimp only
    | intro _))

theorem execDebugRevoke_only {tag : Nat} {s : State} : OOnly 4746321 s (execDebugRevoke tag s) := by
  unfold execDebugRevoke
  try dsimp only
  all_goals (repeat' (first
    | with_reducible apply Only.refl
    | with_reducible apply runCmd_only rfl
    | with_reducible apply endOk_keep rfl
    | with_reducible apply thmAsk_keep rfl
    | with_reducible apply Only.ite
    | with_reducible apply OOnly.ite
    | with_reducible apply OOnly.next
    | split
    | dsimp only
    | intro _))

theorem execMemTestStart_only {fails : List Nat} {s : State} : OOnly 21111809 s (execMemTestStart fails s) := by
  unfold execMemTestStart
  try dsimp only
  all_goals (repeat' (first
    | with_reducible apply Only.refl
    | with_reducible apply keysErase_keep rfl
    | with_reducible apply emit_keep rfl
    | with_reducible apply Only.foldl
    | with_reducible apply Only.foldl2
    | with_reducible apply Only.ite
    | with_reducible apply OOnly.ite
    | with_reducible apply OOnly.next
    | fail_if_no_progress (with_reducible apply Only.upd rfl)
    | split
    | dsimp only
    | intro _))

theorem fwPut_only {s : State} {k : Nat} {x : FwSlot} : Only 8388608 s (fwPut s k x) := by
  unfold fwPut
  try dsimp only
  all_goals (repeat' (first
    | with_reducible apply Only.refl
    | with_reducible apply Only.ite
    | fail_if_no_progress (with_reducible apply Only.upd rfl)
    | split
    | dsimp only
    | intro _))
theorem fwPut_keep {s : State} {k : Nat} {x : FwSlot} (hs : sub 8388608 n_ = true) (hk_ : Only n_ a_ s) : Only n_ a_ (fwPut s k x) := fwPut_only.step hs hk_

theorem fwMark_only {s : State} {k : Nat} {m : SlotMode} : Only 8388608 s (fwMark s k m) := by
  unfold fwMark
  try dsimp only
  all_goals (repeat' (first
    | with_reducible apply Only.refl
    | with_reducible apply fwPut_keep rfl
    | dsimp only
    | intro _))
theorem fwMark_keep {s : State} {k : Nat} {m : SlotMode} (hs : sub 8388608 n_ = true) (hk_ : Only n_ a_ s) : Only n_ a_ (fwMark s k m) := fwMark_only.step hs hk_

theorem ctlMap_only {s : State} {f : BootCtl → BootCtl} : Only 8388608 s (ctlMap s f) := by
  unfold ctlMap
  try dsimp only
  all_goals (repeat' (first
    | with_reducible apply Only.refl
    | fail_if_no_progress (with_reducible apply Only.upd rfl)
    | dsimp only
    | intro _))
theorem ctlMap_keep {s : State} {f : BootCtl → BootCtl} (hs : sub 8388608 n_ = true) (hk_ : Only n_ a_ s) : Only n_ a_ (ctlMap s f) := ctlMap_only.step hs hk_

theorem gensTidy_only {s : State} : Only 8398930 s (gensTidy s) := by
  unfold gensTidy
  try dsimp only
  all_goals (repeat' (first
    | with_reducible apply Only.refl
    | with_reducible apply chipsFree_keep rfl
    | with_reducible apply chipsFree_keepE rfl (by assumption)
    | with_reducible apply jrnMove_keep rfl
    | with_reducible apply ctlMap_keep rfl
    | with_reducible apply Only.ite
    | with_reducible apply Only.ite2
    | split
    | dsimp only
    | intro _))
theorem gensTidy_keep {s : State} (hs : sub 8398930 n_ = true) (hk_ : Only n_ a_ s) : Only n_ a_ (gensTidy s) := gensTidy_only.step hs hk_

theorem handPending_only {s : State} {k : Nat} : Only 8398930 s (handPending s k) := by
  unfold handPending
  try dsimp only
  all_goals (repeat' (first
    | with_reducible apply Only.refl
    | with_reducible apply gensTidy_keep rfl
    | with_reducible apply ctlMap_keep rfl
    | with_reducible apply Only.ite
    | split
    | dsimp only
    | intro _))
theorem handPending_keep {s : State} {k : Nat} (hs : sub 8398930 n_ = true) (hk_ : Only n_ a_ s) : Only n_ a_ (handPending s k) := handPending_only.step hs hk_

theorem handTrial_only {s : State} {k : Nat} : Only 8388608 s (handTrial s k) := by
  unfold handTrial
  try dsimp only
  all_goals (repeat' (first
    | with_reducible apply Only.refl
    | with_reducible apply ctlMap_keep rfl
    | with_reducible apply fwMark_keep rfl
    | fail_if_no_progress (with_reducible apply Only.upd rfl)
    | dsimp only
    | intro _))
theorem handTrial_keep {s : State} {k : Nat} (hs : sub 8388608 n_ = true) (hk_ : Only n_ a_ s) : Only n_ a_ (handTrial s k) := handTrial_only.step hs hk_

theorem handDone_only {s : State} {tag : Nat} {c : Cmd} {r : ThmRsp} : Only 8940625 s (handDone s tag c r) := by
  unfold handDone
  try dsimp only
  all_goals (repeat' (first
    | with_reducible apply Only.refl
    | with_reducible apply endAfter_keep rfl
    | with_reducible apply ctlMap_keep rfl
    | with_reducible apply handTrial_keep rfl
    | with_reducible apply endOk_keep rfl
    | with_reducible apply Only.ite
    | fail_if_no_progress (with_reducible apply Only.upd rfl)
    | split
    | dsimp only
    | intro _))
theorem handDone_keep {s : State} {tag : Nat} {c : Cmd} {r : ThmRsp} (hs : sub 8940625 n_ = true) (hk_ : Only n_ a_ s) : Only n_ a_ (handDone s tag c r) := handDone_only.step hs hk_

theorem fallback_only {s : State} : Only 8388608 s (fallback s) := by
  unfold fallback
  try dsimp only
  all_goals (repeat' (first
    | with_reducible apply Only.refl
    | with_reducible apply ctlMap_keep rfl
    | with_reducible apply fwMark_keep rfl
    | with_reducible apply Only.ite
    | fail_if_no_progress (with_reducible apply Only.upd rfl)
    | split
    | dsimp only
    | intro _))
theorem fallback_keep {s : State} (hs : sub 8388608 n_ = true) (hk_ : Only n_ a_ s) : Only n_ a_ (fallback s) := fallback_only.step hs hk_

theorem confirm_only {s : State} : Only 8388608 s (confirm s) := by
  unfold confirm
  dsimp only
  refine Only.upd rfl (fwMark_keep rfl (fwMark_keep rfl (ctlMap_keep rfl ?_)))
  exact Only.upd rfl .refl (secMin_ := Or.inr (Nat.le_max_left _ _))
theorem confirm_keep {s : State} (hs : sub 8388608 n_ = true) (hk_ : Only n_ a_ s) : Only n_ a_ (confirm s) := confirm_only.step hs hk_

theorem execFwStage_only {tag : Nat} {io : HostIO} {s : State} : OOnly 552017 s (execFwStage tag io s) := by
  unfold execFwStage
  try dsimp only
  all_goals (repeat' (first
    | with_reducible apply Only.refl
    | with_reducible apply runIn_only rfl
    | with_reducible apply endAfter_keep rfl
    | with_reducible apply setWork_keep rfl
    | with_reducible apply Only.ite
    | with_reducible apply OOnly.ite
    | with_reducible apply OOnly.next
    | split
    | dsimp only
    | intro _))

theorem stageDone_only {s : State} {tag : Nat} {c : Cmd} {w0 : Bool} {w1 : Bool} : Only 8940625 s (stageDone s tag c w0 w1) := by
  unfold stageDone
  try dsimp only
  all_goals (repeat' (first
    | with_reducible apply Only.refl
    | with_reducible apply endAfter_keep rfl
    | with_reducible apply fwPut_keep rfl
    | with_reducible apply endOk_keep rfl
    | with_reducible apply Only.ite
    | split
    | dsimp only
    | intro _))
theorem stageDone_keep {s : State} {tag : Nat} {c : Cmd} {w0 : Bool} {w1 : Bool} (hs : sub 8940625 n_ = true) (hk_ : Only n_ a_ s) : Only n_ a_ (stageDone s tag c w0 w1) := stageDone_only.step hs hk_

theorem execFwVerify_only {tag : Nat} {io : HostIO} {s : State} : OOnly 9203281 s (execFwVerify tag io s) := by
  unfold execFwVerify
  try dsimp only
  all_goals (repeat' (first
    | with_reducible apply Only.refl
    | with_reducible apply runCmd_only rfl
    | with_reducible apply mangleSet_keep rfl
    | with_reducible apply fwMark_keep rfl
    | with_reducible apply endOut_keep rfl
    | with_reducible apply endAfter_keep rfl
    | with_reducible apply Only.ite
    | with_reducible apply OOnly.ite
    | with_reducible apply OOnly.next
    | split
    | dsimp only
    | intro _))

theorem execFwActivate_only {tag : Nat} {s : State} : OOnly 13134931 s (execFwActivate tag s) := by
  unfold execFwActivate
  try dsimp only
  all_goals (repeat' (first
    | with_reducible apply Only.refl
    | with_reducible apply runCmd_only rfl
    | with_reducible apply freeWord_keep rfl
    | with_reducible apply freeWord_keepE rfl (by assumption)
    | with_reducible apply fwMark_keep rfl
    | with_reducible apply ctlMap_keep rfl
    | with_reducible apply endOk_keep rfl
    | with_reducible apply handPending_keep rfl
    | with_reducible apply thmAsk_keep rfl
    | with_reducible apply Only.ite
    | with_reducible apply Only.ite2
    | with_reducible apply OOnly.ite
    | with_reducible apply OOnly.next
    | fail_if_no_progress (with_reducible apply Only.upd rfl)
    | split
    | dsimp only
    | intro _))

theorem execFwConfirm_only {tag : Nat} {s : State} : OOnly 8940625 s (execFwConfirm tag s) := by
  unfold execFwConfirm
  try dsimp only
  all_goals (repeat' (first
    | with_reducible apply Only.refl
    | with_reducible apply runCmd_only rfl
    | with_reducible apply confirm_keep rfl
    | with_reducible apply ctlMap_keep rfl
    | with_reducible apply endOk_keep rfl
    | with_reducible apply OOnly.ite
    | with_reducible apply OOnly.next
    | dsimp only
    | intro _))

theorem execFwFallback_only {tag : Nat} {s : State} : OOnly 8940625 s (execFwFallback tag s) := by
  unfold execFwFallback
  try dsimp only
  all_goals (repeat' (first
    | with_reducible apply Only.refl
    | with_reducible apply runCmd_only rfl
    | with_reducible apply fallback_keep rfl
    | with_reducible apply endOk_keep rfl
    | with_reducible apply OOnly.ite
    | with_reducible apply OOnly.next
    | fail_if_no_progress (with_reducible apply Only.upd rfl)
    | dsimp only
    | intro _))

theorem execFwStatus_only {tag : Nat} {io : HostIO} {s : State} : OOnly 552529 s (execFwStatus tag io s) := by
  unfold execFwStatus
  try dsimp only
  all_goals (repeat' (first
    | with_reducible apply Only.refl
    | with_reducible apply runCmd_only rfl
    | with_reducible apply endOut_keep rfl
    | with_reducible apply OOnly.ite
    | with_reducible apply OOnly.next
    | dsimp only
    | intro _))

theorem chipsNote_only {s : State} {ok0 : Bool} {ok1 : Bool} : Only 8390736 s (chipsNote s ok0 ok1) := by
  unfold chipsNote
  try dsimp only
  all_goals (repeat' (first
    | with_reducible apply Only.refl
    | with_reducible apply jrnFailed_keep rfl
    | dsimp only
    | intro _))
theorem chipsNote_keep {s : State} {ok0 : Bool} {ok1 : Bool} (hs : sub 8390736 n_ = true) (hk_ : Only n_ a_ s) : Only n_ a_ (chipsNote s ok0 ok1) := chipsNote_only.step hs hk_

theorem execFlashOperationDone_only {job : FlashJob} {ok0 : Bool} {ok1 : Bool} {s : State} : OOnly 9006161 s (execFlashOperationDone job ok0 ok1 s) := by
  unfold execFlashOperationDone
  try dsimp only
  all_goals (repeat' (first
    | with_reducible apply Only.refl
    | with_reducible apply chipsNote_keep rfl
    | with_reducible apply flushPage_keep rfl
    | with_reducible apply stageDone_keep rfl
    | with_reducible apply progStored_keep rfl
    | with_reducible apply Only.ite
    | with_reducible apply OOnly.ite
    | with_reducible apply OOnly.next
    | split
    | dsimp only
    | intro _))

theorem chipCopy_only {s : State} {chip : Nat} : Only 8464384 s (chipCopy s chip) := by
  unfold chipCopy
  try dsimp only
  all_goals (repeat' (first
    | with_reducible apply Only.refl
    | with_reducible apply Only.ite
    | fail_if_no_progress (with_reducible apply Only.upd rfl)
    | split
    | dsimp only
    | intro _))
theorem chipCopy_keep {s : State} {chip : Nat} (hs : sub 8464384 n_ = true) (hk_ : Only n_ a_ s) : Only n_ a_ (chipCopy s chip) := chipCopy_only.step hs hk_

theorem chipSet_only {s : State} {chip : Nat} {m : ChipMode} : Only 8388608 s (chipSet s chip m) := by
  unfold chipSet
  try dsimp only
  all_goals (repeat' (first
    | with_reducible apply Only.refl
    | with_reducible apply Only.ite
    | fail_if_no_progress (with_reducible apply Only.upd rfl)
    | split
    | dsimp only
    | intro _))
theorem chipSet_keep {s : State} {chip : Nat} {m : ChipMode} (hs : sub 8388608 n_ = true) (hk_ : Only n_ a_ s) : Only n_ a_ (chipSet s chip m) := chipSet_only.step hs hk_

theorem execFlashChipProbe_only {chip : Nat} {ok : Bool} {s : State} : OOnly 8464464 s (execFlashChipProbe chip ok s) := by
  unfold execFlashChipProbe
  try dsimp only
  all_goals (repeat' (first
    | with_reducible apply Only.refl
    | with_reducible apply chipCopy_keep rfl
    | with_reducible apply chipSet_keep rfl
    | with_reducible apply chipFail_keep rfl
    | with_reducible apply Only.ite
    | with_reducible apply OOnly.ite
    | with_reducible apply OOnly.next
    | fail_if_no_progress (with_reducible apply Only.upd rfl)
    | split
    | dsimp only
    | intro _))

theorem portsStop_only {s : State} : Only 16 s (portsStop s) := by
  unfold portsStop
  try dsimp only
  all_goals (repeat' (first
    | with_reducible apply Only.refl
    | with_reducible apply regSetBit_keep rfl
    | with_reducible apply Only.foldl
    | with_reducible apply Only.foldl2
    | dsimp only
    | intro _))
theorem portsStop_keep {s : State} (hs : sub 16 n_ = true) (hk_ : Only n_ a_ s) : Only n_ a_ (portsStop s) := portsStop_only.step hs hk_

theorem tallyAfter_only {s : State} : Only 2064 s (tallyAfter s) := by
  unfold tallyAfter
  try dsimp only
  all_goals (repeat' (first
    | with_reducible apply Only.refl
    | with_reducible apply tallyUnstage_keep rfl
    | with_reducible apply regAdd_keep rfl
    | with_reducible apply Only.ite
    | fail_if_no_progress (with_reducible apply Only.upd rfl)
    | split
    | dsimp only
    | intro _))
theorem tallyAfter_keep {s : State} (hs : sub 2064 n_ = true) (hk_ : Only n_ a_ s) : Only n_ a_ (tallyAfter s) := tallyAfter_only.step hs hk_

theorem resetBase_only {s : State} {power : Bool} : Only 33548280 s (resetBase s power) := by
  unfold resetBase
  exact Only.upd rfl .refl (file_ := by intro h; dsimp only; exact tblSorted_keep h) (bufs_ := fun _ => by cases power <;> exact memWf_nil)
theorem resetBase_keep {s : State} {power : Bool} (hs : sub 33548280 n_ = true) (hk_ : Only n_ a_ s) : Only n_ a_ (resetBase s power) := resetBase_only.step hs hk_

theorem deviceReset_only {s0 : State} : Only 33550329 s0 (deviceReset s0) := by
  unfold deviceReset
  try dsimp only
  all_goals (repeat' (first
    | with_reducible apply Only.refl
    | with_reducible apply seamFarewell_keep rfl
    | with_reducible apply tallyAfter_keep rfl
    | with_reducible apply portsStop_keep rfl
    | with_reducible apply resetBase_keep rfl
    | with_reducible apply regSetField_keep rfl
    | with_reducible apply faultPin_keep rfl
    | with_reducible apply sqcSet_keep rfl
    | with_reducible apply regSetBit_keep rfl
    | with_reducible apply Only.ite
    | fail_if_no_progress (with_reducible apply Only.upd rfl)
    | split
    | dsimp only
    | intro _))
theorem deviceReset_keep {s0 : State} (hs : sub 33550329 n_ = true) (hk_ : Only n_ a_ s0) : Only n_ a_ (deviceReset s0) := deviceReset_only.step hs hk_

theorem powerOnReset_only {s : State} {strap : Nat} {bifur : Bool} : Only 33554428 s (powerOnReset s strap bifur) := by
  unfold powerOnReset
  try dsimp only
  all_goals (repeat' (first
    | with_reducible apply Only.refl
    | with_reducible apply resetBase_keep rfl
    | with_reducible apply tallyReload_keep rfl
    | with_reducible apply regSetBit_keep rfl
    | with_reducible apply regPut_keep rfl
    | with_reducible apply regPut64_keep rfl
    | with_reducible apply formationDraw_keep rfl
    | with_reducible apply epochNote_keep rfl
    | with_reducible apply faultPin_keep rfl
    | with_reducible apply tallyPut_keep rfl
    | with_reducible apply Only.ite
    | fail_if_no_progress (with_reducible apply Only.upd rfl)
    | split
    | dsimp only
    | intro _))
theorem powerOnReset_keep {s : State} {strap : Nat} {bifur : Bool} (hs : sub 33554428 n_ = true) (hk_ : Only n_ a_ s) : Only n_ a_ (powerOnReset s strap bifur) := powerOnReset_only.step hs hk_

theorem enterMend_only {s : State} {cause : Nat} : Only 8389632 s (enterMend s cause) := by
  unfold enterMend
  try dsimp only
  all_goals (repeat' (first
    | with_reducible apply Only.refl
    | fail_if_no_progress (with_reducible apply Only.upd rfl)
    | dsimp only
    | intro _))
theorem enterMend_keep {s : State} {cause : Nat} (hs : sub 8389632 n_ = true) (hk_ : Only n_ a_ s) : Only n_ a_ (enterMend s cause) := enterMend_only.step hs hk_

theorem autoFallback_only {s : State} {cause : Nat} : Only 33550329 s (autoFallback s cause) := by
  unfold autoFallback
  try dsimp only
  all_goals (repeat' (first
    | with_reducible apply Only.refl
    | with_reducible apply tallyDrain_keep rfl
    | with_reducible apply tallyPut_keep rfl
    | with_reducible apply fallback_keep rfl
    | with_reducible apply deviceReset_keep rfl
    | fail_if_no_progress (with_reducible apply Only.upd rfl)
    | dsimp only
    | intro _))
theorem autoFallback_keep {s : State} {cause : Nat} (hs : sub 33550329 n_ = true) (hk_ : Only n_ a_ s) : Only n_ a_ (autoFallback s cause) := autoFallback_only.step hs hk_

theorem startChoose_only {s : State} : Only 33550329 s (startChoose s) := by
  unfold startChoose
  try dsimp only
  all_goals (repeat' (first
    | with_reducible apply Only.refl
    | with_reducible apply enterMend_keep rfl
    | with_reducible apply ctlMap_keep rfl
    | with_reducible apply autoFallback_keep rfl
    | with_reducible apply Only.ite
    | fail_if_no_progress (with_reducible apply Only.upd rfl)
    | split
    | dsimp only
    | intro _))
theorem startChoose_keep {s : State} (hs : sub 33550329 n_ = true) (hk_ : Only n_ a_ s) : Only n_ a_ (startChoose s) := startChoose_only.step hs hk_

theorem vaultFresh_only {s : State} : Only 29359611 s (vaultFresh s) := by
  unfold vaultFresh
  try dsimp only
  all_goals (repeat' (first
    | with_reducible apply Only.refl
    | with_reducible apply freeSev_keep rfl
    | with_reducible apply freeSev_keepE rfl (by assumption)
    | with_reducible apply certWithdraw_keep rfl
    | with_reducible apply fireFree_keep rfl
    | with_reducible apply scorchLog_keep rfl
    | with_reducible apply Only.ite
    | with_reducible apply Only.ite2
    | fail_if_no_progress (with_reducible apply Only.upd rfl)
    | split
    | dsimp only
    | intro _))
theorem vaultFresh_keep {s : State} (hs : sub 29359611 n_ = true) (hk_ : Only n_ a_ s) : Only n_ a_ (vaultFresh s) := vaultFresh_only.step hs hk_

theorem startFuses_only {s : State} : Only 33554427 s (startFuses s) := by
  unfold startFuses
  try dsimp only
  all_goals (repeat' (first
    | with_reducible apply Only.refl
    | with_reducible apply vaultFresh_keep rfl
    | with_reducible apply chainUp_keep rfl
    | with_reducible apply ctlMap_keep rfl
    | with_reducible apply confirm_keep rfl
    | with_reducible apply lintBegin_keep rfl
    | with_reducible apply startChoose_keep rfl
    | with_reducible apply sqcSet_keep rfl
    | with_reducible apply lcBegin_keep rfl
    | with_reducible apply Only.ite
    | fail_if_no_progress (with_reducible apply Only.upd rfl)
    | split
    | dsimp only
    | intro _))
theorem startFuses_keep {s : State} (hs : sub 33554427 n_ = true) (hk_ : Only n_ a_ s) : Only n_ a_ (startFuses s) := startFuses_only.step hs hk_

theorem execMeasuredCopyDone_only {s : State} : OOnly 8388608 s (execMeasuredCopyDone s) := by
  unfold execMeasuredCopyDone
  try dsimp only
  all_goals (repeat' (first
    | with_reducible apply Only.refl
    | with_reducible apply Only.ite
    | with_reducible apply OOnly.ite
    | with_reducible apply OOnly.next
    | fail_if_no_progress (with_reducible apply Only.upd rfl)
    | split
    | dsimp only
    | intro _))

theorem startCheck_only {s : State} {k : Nat} {chip : Nat} : Only 33550329 s (startCheck s k chip) := by
  unfold startCheck
  try dsimp only
  all_goals (repeat' (first
    | with_reducible apply Only.refl
    | with_reducible apply autoFallback_keep rfl
    | with_reducible apply enterMend_keep rfl
    | with_reducible apply Only.ite
    | fail_if_no_progress (with_reducible apply Only.upd rfl)
    | split
    | dsimp only
    | intro _))
theorem startCheck_keep {s : State} {k : Nat} {chip : Nat} (hs : sub 33550329 n_ = true) (hk_ : Only n_ a_ s) : Only n_ a_ (startCheck s k chip) := startCheck_only.step hs hk_

theorem storeLoad_only {s : State} {g : GenEntry} : Only 8396800 s (storeLoad s g) := by
  unfold storeLoad
  try dsimp only
  all_goals (repeat' (first
    | with_reducible apply Only.refl
    | with_reducible apply Only.foldl
    | with_reducible apply Only.foldl2
    | with_reducible apply Only.ite
    | fail_if_no_progress (with_reducible apply Only.upd rfl)
    | split
    | dsimp only
    | intro _))
theorem storeLoad_keep {s : State} {g : GenEntry} (hs : sub 8396800 n_ = true) (hk_ : Only n_ a_ s) : Only n_ a_ (storeLoad s g) := storeLoad_only.step hs hk_

theorem rootMake_only {s : State} : Only 9449496 s (rootMake s) := by
  unfold rootMake
  try dsimp only
  all_goals (repeat' (first
    | with_reducible apply Only.refl
    | with_reducible apply draw_keep rfl
    | with_reducible apply draw_keepE rfl (by assumption)
    | with_reducible apply ctlMap_keep rfl
    | with_reducible apply Only.ite
    | with_reducible apply Only.ite2
    | fail_if_no_progress (with_reducible apply Only.upd rfl)
    | split
    | dsimp only
    | intro _))
theorem rootMake_keep {s : State} (hs : sub 9449496 n_ = true) (hk_ : Only n_ a_ s) : Only n_ a_ (rootMake s) := rootMake_only.step hs hk_

theorem oskMake_only {s : State} {owner : Nat} : Only 9447514 s (oskMake s owner) := by
  unfold oskMake
  try dsimp only
  all_goals (repeat' (first
    | with_reducible apply Only.refl
    | with_reducible apply draw_keep rfl
    | with_reducible apply draw_keepE rfl (by assumption)
    | with_reducible apply jrnTry_keep rfl
    | with_reducible apply jrnTry_keepE rfl (by assumption)
    | with_reducible apply jrnOsk_keep rfl (by assumption)
    | with_reducible apply Only.ite
    | with_reducible apply Only.ite2
    | fail_if_no_progress (with_reducible apply Only.upd rfl)
    | split
    | dsimp only
    | intro _))
theorem oskMake_keep {s : State} {owner : Nat} (hs : sub 9447514 n_ = true) (hk_ : Only n_ a_ s) : Only n_ a_ (oskMake s owner) := oskMake_only.step hs hk_

theorem startOpen_only {s0 : State} {k : Nat} : Only 30423130 s0 (startOpen s0 k) := by
  unfold startOpen
  try dsimp only
  all_goals (repeat' (first
    | with_reducible apply Only.refl
    | with_reducible apply rootsErase_keep rfl
    | with_reducible apply certRecheck_keep rfl
    | with_reducible apply thmMode_keep rfl
    | with_reducible apply storeClose_keep rfl
    | with_reducible apply rootMake_keep rfl
    | with_reducible apply scorchLog_keep rfl
    | with_reducible apply tallyPut_keep rfl
    | with_reducible apply storeLoad_keep rfl
    | with_reducible apply Only.ite
    | fail_if_no_progress (with_reducible apply Only.upd rfl)
    | split
    | dsimp only
    | intro _))
theorem startOpen_keep {s0 : State} {k : Nat} (hs : sub 30423130 n_ = true) (hk_ : Only n_ a_ s0) : Only n_ a_ (startOpen s0 k) := startOpen_only.step hs hk_

theorem execStartSequence_only {s : State} : OOnly 33554427 s (execStartSequence s) := by
  unfold execStartSequence
  try dsimp only
  all_goals (repeat' (first
    | with_reducible apply Only.refl
    | with_reducible apply startFuses_keep rfl
    | with_reducible apply startCheck_keep rfl
    | with_reducible apply startOpen_keep rfl
    | with_reducible apply Only.ite
    | with_reducible apply OOnly.ite
    | with_reducible apply OOnly.next
    | split
    | dsimp only
    | intro _))

theorem hemSet_only {s : State} {c : Nat} {n : Nat} {lo : Nat} {hi : Nat} {attr : Nat} : Only 16 s (hemSet s c n lo hi attr) := by
  unfold hemSet
  try dsimp only
  all_goals (repeat' (first
    | with_reducible apply Only.refl
    | with_reducible apply regPut_keep rfl
    | dsimp only
    | intro _))
theorem hemSet_keep {s : State} {c : Nat} {n : Nat} {lo : Nat} {hi : Nat} {attr : Nat} (hs : sub 16 n_ = true) (hk_ : Only n_ a_ s) : Only n_ a_ (hemSet s c n lo hi attr) := hemSet_only.step hs hk_

theorem hemProgram_only {s : State} {k : Nat} : Only 16 s (hemProgram s k) := by
  unfold hemProgram
  try dsimp only
  all_goals (repeat' (first
    | with_reducible apply Only.refl
    | with_reducible apply hemSet_keep rfl
    | with_reducible apply hemWindow_keep rfl
    | with_reducible apply regSetBit_keep rfl
    | with_reducible apply Only.foldl
    | with_reducible apply Only.foldl2
    | dsimp only
    | intro _))
theorem hemProgram_keep {s : State} {k : Nat} (hs : sub 16 n_ = true) (hk_ : Only n_ a_ s) : Only n_ a_ (hemProgram s k) := hemProgram_only.step hs hk_

theorem admitOwners_only {s : State} : Only 9451610 s (admitOwners s) := by
  unfold admitOwners
  try dsimp only
  all_goals (repeat' (first
    | with_reducible apply Only.refl
    | with_reducible apply oskMake_keep rfl
    | with_reducible apply Only.foldl
    | with_reducible apply Only.foldl2
    | with_reducible apply Only.ite
    | fail_if_no_progress (with_reducible apply Only.upd rfl)
    | split
    | dsimp only
    | intro _))
theorem admitOwners_keep {s : State} (hs : sub 9451610 n_ = true) (hk_ : Only n_ a_ s) : Only n_ a_ (admitOwners s) := admitOwners_only.step hs hk_

theorem areaPut_only {s : State} {k : Nat} {a : SettingsArea} : Only 8388608 s (areaPut s k a) := by
  unfold areaPut
  try dsimp only
  all_goals (repeat' (first
    | with_reducible apply Only.refl
    | with_reducible apply Only.ite
    | fail_if_no_progress (with_reducible apply Only.upd rfl)
    | split
    | dsimp only
    | intro _))
theorem areaPut_keep {s : State} {k : Nat} {a : SettingsArea} (hs : sub 8388608 n_ = true) (hk_ : Only n_ a_ s) : Only n_ a_ (areaPut s k a) := areaPut_only.step hs hk_

theorem settingsRead_only {s : State} {k : Nat} : Only 8388608 s (settingsRead s k) := by
  unfold settingsRead
  try dsimp only
  all_goals (repeat' (first
    | with_reducible apply Only.refl
    | with_reducible apply areaPut_keep rfl
    | with_reducible apply Only.ite
    | fail_if_no_progress (with_reducible apply Only.upd rfl)
    | split
    | dsimp only
    | intro _))
theorem settingsRead_keep {s : State} {k : Nat} (hs : sub 8388608 n_ = true) (hk_ : Only n_ a_ s) : Only n_ a_ (settingsRead s k) := settingsRead_only.step hs hk_

theorem settingsStart_only {s : State} : Only 1196052 s (settingsStart s) := by
  unfold settingsStart
  try dsimp only
  all_goals (repeat' (first
    | with_reducible apply Only.refl
    | with_reducible apply settingsPut_keep rfl
    | with_reducible apply rngConfig_keep rfl
    | with_reducible apply regSetField_keep rfl
    | with_reducible apply portRetrain_keep rfl
    | with_reducible apply Only.foldl
    | with_reducible apply Only.foldl2
    | with_reducible apply Only.ite
    | split
    | dsimp only
    | intro _))
theorem settingsStart_keep {s : State} (hs : sub 1196052 n_ = true) (hk_ : Only n_ a_ s) : Only n_ a_ (settingsStart s) := settingsStart_only.step hs hk_

theorem rekeyAll_only {s : State} : Only 4194304 s (rekeyAll s) := by
  unfold rekeyAll
  try dsimp only
  all_goals (repeat' (first
    | with_reducible apply Only.refl
    | with_reducible apply rekeyAsk_keep rfl
    | with_reducible apply Only.foldl
    | with_reducible apply Only.foldl2
    | with_reducible apply Only.ite
    | split
    | dsimp only
    | intro _))
theorem rekeyAll_keep {s : State} (hs : sub 4194304 n_ = true) (hk_ : Only n_ a_ s) : Only n_ a_ (rekeyAll s) := rekeyAll_only.step hs hk_

theorem tortinServe_only {s : State} : Only 25168976 s (tortinServe s) := by
  unfold tortinServe
  try dsimp only
  all_goals (repeat' (first
    | with_reducible apply Only.refl
    | with_reducible apply ctlMap_keep rfl
    | with_reducible apply tallyPut_keep rfl
    | with_reducible apply sqcSet_keep rfl
    | fail_if_no_progress (with_reducible apply Only.upd rfl)
    | split
    | dsimp only
    | intro _))
theorem tortinServe_keep {s : State} (hs : sub 25168976 n_ = true) (hk_ : Only n_ a_ s) : Only n_ a_ (tortinServe s) := tortinServe_only.step hs hk_

theorem execTortinReady_only {s : State} : OOnly 33554431 s (execTortinReady s) := by
  unfold execTortinReady
  try dsimp only
  all_goals (repeat' (first
    | with_reducible apply Only.refl
    | with_reducible apply autoFallback_keep rfl
    | with_reducible apply tallyPut_keep rfl
    | with_reducible apply oskMake_keep rfl
    | with_reducible apply admitOwners_keep rfl
    | with_reducible apply rekeyAll_keep rfl
    | with_reducible apply tortinServe_keep rfl
    | with_reducible apply settingsStart_keep rfl
    | with_reducible apply hemProgram_keep rfl
    | with_reducible apply settingsRead_keep rfl
    | with_reducible apply Only.ite
    | with_reducible apply OOnly.ite
    | with_reducible apply OOnly.next
    | split
    | dsimp only
    | intro _))

end Sys2Proof.Machine
end

