-- ==== Sys2Proof/Laws/FrameRows.lean ====
section
/-! SUPPORT. What each operation of these files of Machine/ changes (see Laws/Frame.lean): Resets, Device, Rng, Tortin, ThmAnswers,
CpRestart, RegRead, NeedleMem, RegRows. -/

namespace Sys2Proof.Machine

set_option linter.all false
set_option Elab.async false

variable {n_ : Nat} {a_ : State}

theorem execPowerOnReset_only {strap : Nat} {bifur : Bool} {s : State} : OOnly 33554429 s (execPowerOnReset strap bifur s) := by
  unfold execPowerOnReset
  try dsimp only
  all_goals (repeat' (first
    | with_reducible apply Only.refl
    | with_reducible apply powerOnReset_keep rfl
    | with_reducible apply seamFarewell_keep rfl
    | with_reducible apply Only.ite
    | with_reducible apply OOnly.ite
    | with_reducible apply OOnly.next
    | split
    | dsimp only
    | intro _))

theorem execDeviceReset_only {s : State} : OOnly 33550329 s (execDeviceReset s) := by
  unfold execDeviceReset
  try dsimp only
  all_goals (repeat' (first
    | with_reducible apply Only.refl
    | with_reducible apply deviceReset_keep rfl
    | with_reducible apply Only.ite
    | with_reducible apply OOnly.ite
    | with_reducible apply OOnly.next
    | split
    | dsimp only
    | intro _))

theorem execResetNAssert_only {low : Bool} {s : State} : OOnly 33550329 s (execResetNAssert low s) := by
  unfold execResetNAssert
  try dsimp only
  all_goals (repeat' (first
    | with_reducible apply Only.refl
    | with_reducible apply deviceReset_keep rfl
    | with_reducible apply Only.ite
    | with_reducible apply OOnly.ite
    | with_reducible apply OOnly.next
    | fail_if_no_progress (with_reducible apply Only.upd rfl)
    | split
    | dsimp only
    | intro _))

theorem execResetNStuck_only {s : State} : OOnly 6258 s (execResetNStuck s) := by
  unfold execResetNStuck
  try dsimp only
  all_goals (repeat' (first
    | with_reducible apply Only.refl
    | with_reducible apply faultPin_keep rfl
    | with_reducible apply freeSev_keep rfl
    | with_reducible apply freeSev_keepE rfl (by assumption)
    | with_reducible apply sqcSet_keep rfl
    | with_reducible apply scorchLog_keep rfl
    | with_reducible apply tallyPut_keep rfl
    | with_reducible apply Only.ite
    | with_reducible apply Only.ite2
    | with_reducible apply OOnly.ite
    | with_reducible apply OOnly.next
    | fail_if_no_progress (with_reducible apply Only.upd rfl)
    | split
    | dsimp only
    | intro _))

theorem execResetNRearm_only {s : State} : OOnly 48 s (execResetNRearm s) := by
  unfold execResetNRearm
  try dsimp only
  all_goals (repeat' (first
    | with_reducible apply Only.refl
    | with_reducible apply faultPin_keep rfl
    | with_reducible apply Only.ite
    | with_reducible apply OOnly.ite
    | with_reducible apply OOnly.next
    | fail_if_no_progress (with_reducible apply Only.upd rfl)
    | split
    | dsimp only
    | intro _))

theorem fnForget_only {s : State} {p : Nat} : Only 1048592 s (fnForget s p) := by
  unfold fnForget
  try dsimp only
  all_goals (repeat' (first
    | with_reducible apply Only.refl
    | fail_if_no_progress (with_reducible apply Only.upd rfl)
    | dsimp only
    | intro _))
theorem fnForget_keep {s : State} {p : Nat} (hs : sub 1048592 n_ = true) (hk_ : Only n_ a_ s) : Only n_ a_ (fnForget s p) := fnForget_only.step hs hk_

theorem fnReset_only {s : State} {p : Nat} {flr : Bool} : Only 4124625 s (fnReset s p flr) := by
  unfold fnReset
  try dsimp only
  all_goals (repeat' (first
    | with_reducible apply Only.refl
    | with_reducible apply resetSlices_keep rfl
    | with_reducible apply fnForget_keep rfl
    | with_reducible apply fnPut_keep rfl
    | with_reducible apply regAdd_keep rfl
    | with_reducible apply sqcSet_keep rfl
    | with_reducible apply Only.ite
    | fail_if_no_progress (with_reducible apply Only.upd rfl)
    | split
    | dsimp only
    | intro _))
theorem fnReset_keep {s : State} {p : Nat} {flr : Bool} (hs : sub 4124625 n_ = true) (hk_ : Only n_ a_ s) : Only n_ a_ (fnReset s p flr) := fnReset_only.step hs hk_

theorem execFunctionLevelReset_only {fn : Nat} {s : State} : OOnly 4124625 s (execFunctionLevelReset fn s) := by
  unfold execFunctionLevelReset
  try dsimp only
  all_goals (repeat' (first
    | with_reducible apply Only.refl
    | with_reducible apply fnReset_keep rfl
    | with_reducible apply OOnly.ite
    | with_reducible apply OOnly.next
    | dsimp only
    | intro _))

theorem execHotReset_only {fn : Nat} {s : State} : OOnly 4124625 s (execHotReset fn s) := by
  unfold execHotReset
  try dsimp only
  all_goals (repeat' (first
    | with_reducible apply Only.refl
    | with_reducible apply fnReset_keep rfl
    | with_reducible apply OOnly.ite
    | with_reducible apply OOnly.next
    | dsimp only
    | intro _))

theorem execDlDown_only {fn : Nat} {s : State} : OOnly 4124625 s (execDlDown fn s) := by
  unfold execDlDown
  try dsimp only
  all_goals (repeat' (first
    | with_reducible apply Only.refl
    | with_reducible apply fnReset_keep rfl
    | with_reducible apply OOnly.ite
    | with_reducible apply OOnly.next
    | dsimp only
    | intro _))

theorem execPciePerst_only {fn : Nat} {s : State} : OOnly 4124625 s (execPciePerst fn s) := by
  unfold execPciePerst
  try dsimp only
  all_goals (repeat' (first
    | with_reducible apply Only.refl
    | with_reducible apply fnReset_keep rfl
    | with_reducible apply OOnly.ite
    | with_reducible apply OOnly.next
    | dsimp only
    | intro _))

theorem execPcieLinkUp_only {fn : Nat} {width : Nat} {speed : Nat} {flit : Bool} {s : State} : OOnly 416 s (execPcieLinkUp fn width speed flit s) := by
  unfold execPcieLinkUp
  try dsimp only
  all_goals (repeat' (first
    | with_reducible apply Only.refl
    | with_reducible apply fnPut_keep rfl
    | with_reducible apply Only.ite
    | with_reducible apply OOnly.ite
    | with_reducible apply OOnly.next
    | fail_if_no_progress (with_reducible apply Only.upd rfl)
    | split
    | dsimp only
    | intro _))

theorem pbaRaise_only {s : State} {p : Nat} : Only 385 s (pbaRaise s p) := by
  unfold pbaRaise
  try dsimp only
  all_goals (repeat' (first
    | with_reducible apply Only.refl
    | with_reducible apply raiseMsix_keep rfl
    | with_reducible apply fnPut_keep rfl
    | with_reducible apply Only.foldl
    | with_reducible apply Only.foldl2
    | with_reducible apply Only.ite
    | split
    | dsimp only
    | intro _))
theorem pbaRaise_keep {s : State} {p : Nat} (hs : sub 385 n_ = true) (hk_ : Only n_ a_ s) : Only n_ a_ (pbaRaise s p) := pbaRaise_only.step hs hk_

theorem execConfigurationWrite_only {fn : Nat} {item : CfgItem} {s : State} : OOnly 385 s (execConfigurationWrite fn item s) := by
  unfold execConfigurationWrite
  try dsimp only
  all_goals (repeat' (first
    | with_reducible apply Only.refl
    | with_reducible apply pbaRaise_keep rfl
    | with_reducible apply fnPut_keep rfl
    | with_reducible apply Only.ite
    | with_reducible apply OOnly.ite
    | with_reducible apply OOnly.next
    | split
    | dsimp only
    | intro _))

theorem execPmicStatusPoll_only {s : State} : OOnly 0 s (execPmicStatusPoll s) := by
  unfold execPmicStatusPoll
  try dsimp only
  all_goals (repeat' (first
    | with_reducible apply Only.refl
    | with_reducible apply OOnly.ite
    | with_reducible apply OOnly.next
    | dsimp only
    | intro _))

theorem lcErase_only {s : State} {t : Transition} : Only 25239552 s (lcErase s t) := by
  unfold lcErase
  try dsimp only
  all_goals (repeat' (first
    | with_reducible apply Only.refl
    | with_reducible apply lcBurn_keep rfl
    | with_reducible apply ctlMap_keep rfl
    | with_reducible apply Only.ite
    | fail_if_no_progress (with_reducible apply Only.upd rfl)
    | split
    | dsimp only
    | intro _))
theorem lcErase_keep {s : State} {t : Transition} (hs : sub 25239552 n_ = true) (hk_ : Only n_ a_ s) : Only n_ a_ (lcErase s t) := lcErase_only.step hs hk_

theorem execLcEraseDone_only {s : State} : OOnly 33550329 s (execLcEraseDone s) := by
  unfold execLcEraseDone
  try dsimp only
  all_goals (repeat' (first
    | with_reducible apply Only.refl
    | with_reducible apply lcBurn_keep rfl
    | with_reducible apply lcErase_keep rfl
    | with_reducible apply deviceReset_keep rfl
    | with_reducible apply Only.ite
    | with_reducible apply OOnly.ite
    | with_reducible apply OOnly.next
    | fail_if_no_progress (with_reducible apply Only.upd rfl)
    | split
    | dsimp only
    | intro _))

theorem execDevInfo_only {tag : Nat} {io : HostIO} {s : State} : OOnly 552529 s (execDevInfo tag io s) := by
  unfold execDevInfo
  try dsimp only
  all_goals (repeat' (first
    | with_reducible apply Only.refl
    | with_reducible apply runCmd_only rfl
    | with_reducible apply endOut_keep rfl
    | with_reducible apply OOnly.ite
    | with_reducible apply OOnly.next
    | dsimp only
    | intro _))

theorem execDevStatus_only {tag : Nat} {io : HostIO} {s : State} : OOnly 552529 s (execDevStatus tag io s) := by
  unfold execDevStatus
  try dsimp only
  all_goals (repeat' (first
    | with_reducible apply Only.refl
    | with_reducible apply runCmd_only rfl
    | with_reducible apply endOut_keep rfl
    | with_reducible apply OOnly.ite
    | with_reducible apply OOnly.next
    | dsimp only
    | intro _))

theorem execDevNop_only {tag : Nat} {s : State} : OOnly 552017 s (execDevNop tag s) := by
  unfold execDevNop
  try dsimp only
  all_goals (repeat' (first
    | with_reducible apply Only.refl
    | with_reducible apply runCmd_only rfl
    | with_reducible apply endOk_keep rfl
    | with_reducible apply OOnly.ite
    | with_reducible apply OOnly.next
    | dsimp only
    | intro _))

theorem execDevLimits_only {tag : Nat} {io : HostIO} {s : State} : OOnly 552529 s (execDevLimits tag io s) := by
  unfold execDevLimits
  try dsimp only
  all_goals (repeat' (first
    | with_reducible apply Only.refl
    | with_reducible apply runCmd_only rfl
    | with_reducible apply endOut_keep rfl
    | with_reducible apply OOnly.ite
    | with_reducible apply OOnly.next
    | dsimp only
    | intro _))

theorem execDevCounters_only {tag : Nat} {io : HostIO} {s : State} : OOnly 552529 s (execDevCounters tag io s) := by
  unfold execDevCounters
  try dsimp only
  all_goals (repeat' (first
    | with_reducible apply Only.refl
    | with_reducible apply runCmd_only rfl
    | with_reducible apply endOut_keep rfl
    | with_reducible apply regPut_keep rfl
    | with_reducible apply Only.foldl
    | with_reducible apply Only.foldl2
    | with_reducible apply Only.ite
    | with_reducible apply OOnly.ite
    | with_reducible apply OOnly.next
    | split
    | dsimp only
    | intro _))

theorem patternAt_only {s : State} {source : Nat} {n : Nat} {w : Word} : Only 1048576 s (patternAt s source n w) := by
  unfold patternAt
  try dsimp only
  all_goals (repeat' (first
    | with_reducible apply Only.refl
    | with_reducible apply lintPut_keep rfl
    | with_reducible apply Only.ite
    | split
    | dsimp only
    | intro _))
theorem patternAt_keep {s : State} {source : Nat} {n : Nat} {w : Word} (hs : sub 1048576 n_ = true) (hk_ : Only n_ a_ s) : Only n_ a_ (patternAt s source n w) := patternAt_only.step hs hk_

theorem sourceBits_only {s : State} {n : Nat} {raw : List Bool} : Only 1048576 s (sourceBits s n raw).2 := by
  unfold sourceBits
  try dsimp only
  all_goals (repeat' (first
    | with_reducible apply Only.refl
    | with_reducible apply lintPut_keep rfl
    | with_reducible apply Only.ite
    | with_reducible apply Only.ite2
    | split
    | dsimp only
    | intro _))
theorem sourceBits_keep {s : State} {n : Nat} {raw : List Bool} (hs : sub 1048576 n_ = true) (hk_ : Only n_ a_ s) : Only n_ a_ (sourceBits s n raw).2 := sourceBits_only.step hs hk_
theorem sourceBits_keepE {s : State} {n : Nat} {raw : List Bool} {y0_ : List Bool} {t_ : State} (hs : sub 1048576 n_ = true) (he : sourceBits s n raw = (y0_, t_)) (hk_ : Only n_ a_ s) : Only n_ a_ t_ := by
  have := sourceBits_keep hs hk_ (s := s) (n := n) (raw := raw)
  rw [he] at this; exact this

theorem rawFill_only {s : State} {n : Nat} {bits : List Bool} : Only 1048576 s (rawFill s n bits) := by
  unfold rawFill
  try dsimp only
  all_goals (repeat' (first
    | with_reducible apply Only.refl
    | with_reducible apply Only.foldl
    | with_reducible apply Only.foldl2
    | with_reducible apply Only.ite
    | fail_if_no_progress (with_reducible apply Only.upd rfl)
    | split
    | dsimp only
    | intro _))
theorem rawFill_keep {s : State} {n : Nat} {bits : List Bool} (hs : sub 1048576 n_ = true) (hk_ : Only n_ a_ s) : Only n_ a_ (rawFill s n bits) := rawFill_only.step hs hk_

theorem lintCount_only {s : State} {n : Nat} : Only 16 s (lintCount s n) := by
  unfold lintCount
  try dsimp only
  all_goals (repeat' (first
    | with_reducible apply Only.refl
    | with_reducible apply regAdd_keep rfl
    | dsimp only
    | intro _))
theorem lintCount_keep {s : State} {n : Nat} (hs : sub 16 n_ = true) (hk_ : Only n_ a_ s) : Only n_ a_ (lintCount s n) := lintCount_only.step hs hk_

theorem lintFail_only {s : State} {n : Nat} : Only 16 s (lintFail s n) := by
  unfold lintFail
  try dsimp only
  all_goals (repeat' (first
    | with_reducible apply Only.refl
    | with_reducible apply sqcSet_keep rfl
    | with_reducible apply lintCount_keep rfl
    | dsimp only
    | intro _))
theorem lintFail_keep {s : State} {n : Nat} (hs : sub 16 n_ = true) (hk_ : Only n_ a_ s) : Only n_ a_ (lintFail s n) := lintFail_only.step hs hk_

theorem execLintStartupTestEnd_only {source : Nat} {raw : List Byte} {s : State} : OOnly 1048592 s (execLintStartupTestEnd source raw s) := by
  unfold execLintStartupTestEnd
  try dsimp only
  all_goals (repeat' (first
    | with_reducible apply Only.refl
    | with_reducible apply sourceBits_keep rfl
    | with_reducible apply sourceBits_keepE rfl (by assumption)
    | with_reducible apply patternAt_keep rfl
    | with_reducible apply lintPut_keep rfl
    | with_reducible apply lintCount_keep rfl
    | with_reducible apply rawFill_keep rfl
    | with_reducible apply Only.ite
    | with_reducible apply Only.ite2
    | with_reducible apply OOnly.ite
    | with_reducible apply OOnly.next
    | split
    | dsimp only
    | intro _))

theorem execLintWindowEnd_only {source : Nat} {raw : List Byte} {s : State} : OOnly 1048592 s (execLintWindowEnd source raw s) := by
  unfold execLintWindowEnd
  try dsimp only
  all_goals (repeat' (first
    | with_reducible apply Only.refl
    | with_reducible apply sourceBits_keep rfl
    | with_reducible apply sourceBits_keepE rfl (by assumption)
    | with_reducible apply lintPut_keep rfl
    | with_reducible apply rawFill_keep rfl
    | with_reducible apply regAdd_keep rfl
    | with_reducible apply lintFail_keep rfl
    | with_reducible apply Only.ite
    | with_reducible apply Only.ite2
    | with_reducible apply OOnly.ite
    | with_reducible apply OOnly.next
    | fail_if_no_progress (with_reducible apply Only.upd rfl)
    | split
    | dsimp only
    | intro _))

theorem poolTake_only {s : State} {n : Nat} : Only 1048576 s (poolTake s n).2 := by
  unfold poolTake
  try dsimp only
  all_goals (repeat' (first
    | with_reducible apply Only.refl
    | fail_if_no_progress (with_reducible apply Only.upd rfl)
    | dsimp only
    | intro _))
theorem poolTake_keep {s : State} {n : Nat} (hs : sub 1048576 n_ = true) (hk_ : Only n_ a_ s) : Only n_ a_ (poolTake s n).2 := poolTake_only.step hs hk_
theorem poolTake_keepE {s : State} {n : Nat} {y0_ : List Byte} {t_ : State} (hs : sub 1048576 n_ = true) (he : poolTake s n = (y0_, t_)) (hk_ : Only n_ a_ s) : Only n_ a_ t_ := by
  have := poolTake_keep hs hk_ (s := s) (n := n)
  rw [he] at this; exact this

theorem execBobbinInstantiate_only {s : State} : OOnly 1067096 s (execBobbinInstantiate s) := by
  unfold execBobbinInstantiate
  try dsimp only
  all_goals (repeat' (first
    | with_reducible apply Only.refl
    | with_reducible apply poolTake_keep rfl
    | with_reducible apply poolTake_keepE rfl (by assumption)
    | with_reducible apply formationNeed_keep rfl
    | with_reducible apply tallyPut_keep rfl
    | with_reducible apply sqcSet_keep rfl
    | with_reducible apply Only.ite
    | with_reducible apply Only.ite2
    | with_reducible apply OOnly.ite
    | with_reducible apply OOnly.next
    | fail_if_no_progress (with_reducible apply Only.upd rfl)
    | split
    | dsimp only
    | intro _))

theorem rngReseed_only {s : State} {add : List Byte} : Only 1064984 s (rngReseed s add) := by
  unfold rngReseed
  try dsimp only
  all_goals (repeat' (first
    | with_reducible apply Only.refl
    | with_reducible apply poolTake_keep rfl
    | with_reducible apply poolTake_keepE rfl (by assumption)
    | with_reducible apply formationNeed_keep rfl
    | with_reducible apply sqcSet_keep rfl
    | fail_if_no_progress (with_reducible apply Only.upd rfl)
    | split
    | dsimp only
    | intro _))
theorem rngReseed_keep {s : State} {add : List Byte} (hs : sub 1064984 n_ = true) (hk_ : Only n_ a_ s) : Only n_ a_ (rngReseed s add) := rngReseed_only.step hs hk_

theorem execBobbinAutoReseed_only {s : State} : OOnly 1064984 s (execBobbinAutoReseed s) := by
  unfold execBobbinAutoReseed
  try dsimp only
  all_goals (repeat' (first
    | with_reducible apply Only.refl
    | with_reducible apply rngReseed_keep rfl
    | with_reducible apply sqcSet_keep rfl
    | with_reducible apply Only.ite
    | with_reducible apply OOnly.ite
    | with_reducible apply OOnly.next
    | fail_if_no_progress (with_reducible apply Only.upd rfl)
    | split
    | dsimp only
    | intro _))

theorem execBobbinReseedRetry_only {s : State} : OOnly 1064984 s (execBobbinReseedRetry s) := by
  unfold execBobbinReseedRetry
  try dsimp only
  all_goals (repeat' (first
    | with_reducible apply Only.refl
    | with_reducible apply rngReseed_keep rfl
    | with_reducible apply Only.ite
    | with_reducible apply OOnly.ite
    | with_reducible apply OOnly.next
    | fail_if_no_progress (with_reducible apply Only.upd rfl)
    | split
    | dsimp only
    | intro _))

theorem execBobbinLimitReached_only {s : State} : OOnly 1050704 s (execBobbinLimitReached s) := by
  unfold execBobbinLimitReached
  try dsimp only
  all_goals (repeat' (first
    | with_reducible apply Only.refl
    | with_reducible apply tallyPut_keep rfl
    | with_reducible apply sqcSet_keep rfl
    | with_reducible apply Only.ite
    | with_reducible apply OOnly.ite
    | with_reducible apply OOnly.next
    | fail_if_no_progress (with_reducible apply Only.upd rfl)
    | split
    | dsimp only
    | intro _))

theorem katEnd_only {s : State} {ok : Bool} : Only 1050704 s (katEnd s ok) := by
  unfold katEnd
  try dsimp only
  all_goals (repeat' (first
    | with_reducible apply Only.refl
    | with_reducible apply tallyPut_keep rfl
    | with_reducible apply sqcSet_keep rfl
    | with_reducible apply Only.ite
    | fail_if_no_progress (with_reducible apply Only.upd rfl)
    | split
    | dsimp only
    | intro _))
theorem katEnd_keep {s : State} {ok : Bool} (hs : sub 1050704 n_ = true) (hk_ : Only n_ a_ s) : Only n_ a_ (katEnd s ok) := katEnd_only.step hs hk_

theorem execBobbinKat_only {ok : Bool} {s : State} : OOnly 1050704 s (execBobbinKat ok s) := by
  unfold execBobbinKat
  try dsimp only
  all_goals (repeat' (first
    | with_reducible apply Only.refl
    | with_reducible apply katEnd_keep rfl
    | with_reducible apply Only.ite
    | with_reducible apply OOnly.ite
    | with_reducible apply OOnly.next
    | split
    | dsimp only
    | intro _))

theorem execBobbinKatRetry_only {ok : Bool} {s : State} : OOnly 1050704 s (execBobbinKatRetry ok s) := by
  unfold execBobbinKatRetry
  try dsimp only
  all_goals (repeat' (first
    | with_reducible apply Only.refl
    | with_reducible apply katEnd_keep rfl
    | with_reducible apply Only.ite
    | with_reducible apply OOnly.ite
    | with_reducible apply OOnly.next
    | split
    | dsimp only
    | intro _))

theorem rngAsk_only {s : State} {r : RngReq} : Only 1048576 s (rngAsk s r) := by
  unfold rngAsk
  try dsimp only
  all_goals (repeat' (first
    | with_reducible apply Only.refl
    | fail_if_no_progress (with_reducible apply Only.upd rfl)
    | dsimp only
    | intro _))
theorem rngAsk_keep {s : State} {r : RngReq} (hs : sub 1048576 n_ = true) (hk_ : Only n_ a_ s) : Only n_ a_ (rngAsk s r) := rngAsk_only.step hs hk_

theorem execRngFifoRefill_only {cls : Nat} {s : State} : OOnly 1048576 s (execRngFifoRefill cls s) := by
  unfold execRngFifoRefill
  try dsimp only
  all_goals (repeat' (first
    | with_reducible apply Only.refl
    | with_reducible apply rngAsk_keep rfl
    | with_reducible apply Only.ite
    | with_reducible apply OOnly.ite
    | with_reducible apply OOnly.next
    | split
    | dsimp only
    | intro _))

theorem execBobbinCallDone_only {s : State} : OOnly 1601113 s (execBobbinCallDone s) := by
  unfold execBobbinCallDone
  try dsimp only
  all_goals (repeat' (first
    | with_reducible apply Only.refl
    | with_reducible apply draw_keep rfl
    | with_reducible apply draw_keepE rfl (by assumption)
    | with_reducible apply endOut_keep rfl
    | with_reducible apply setWork_keep rfl
    | with_reducible apply Only.ite
    | with_reducible apply Only.ite2
    | with_reducible apply OOnly.ite
    | with_reducible apply OOnly.next
    | fail_if_no_progress (with_reducible apply Only.upd rfl)
    | split
    | dsimp only
    | intro _))

theorem rngRead_only {s : State} {r : Requester} : Only 1048592 s (rngRead s r).2 := by
  unfold rngRead
  try dsimp only
  all_goals (repeat' (first
    | with_reducible apply Only.refl
    | with_reducible apply sqcSet_keep rfl
    | fail_if_no_progress (with_reducible apply Only.upd rfl)
    | split
    | dsimp only
    | intro _))
theorem rngRead_keep {s : State} {r : Requester} (hs : sub 1048592 n_ = true) (hk_ : Only n_ a_ s) : Only n_ a_ (rngRead s r).2 := rngRead_only.step hs hk_
theorem rngRead_keepE {s : State} {r : Requester} {y0_ : Word} {t_ : State} (hs : sub 1048592 n_ = true) (he : rngRead s r = (y0_, t_)) (hk_ : Only n_ a_ s) : Only n_ a_ t_ := by
  have := rngRead_keep hs hk_ (s := s) (r := r)
  rw [he] at this; exact this

theorem rngServed_only {s : State} {rd : DataRead} : Only 1050745 s (rngServed s rd) := by
  unfold rngServed
  try dsimp only
  all_goals (repeat' (first
    | with_reducible apply Only.refl
    | with_reducible apply cpCheck_keep rfl
    | with_reducible apply cpCheck_keepE rfl (by assumption)
    | with_reducible apply touchFast_keep rfl
    | with_reducible apply emit_keep rfl
    | with_reducible apply rngRead_keep rfl
    | with_reducible apply rngRead_keepE rfl (by assumption)
    | split
    | dsimp only
    | intro _))
theorem rngServed_keep {s : State} {rd : DataRead} (hs : sub 1050745 n_ = true) (hk_ : Only n_ a_ s) : Only n_ a_ (rngServed s rd) := rngServed_only.step hs hk_

theorem execRngDataRead_only {rd : DataRead} {s : State} : OOnly 1280507 s (execRngDataRead rd s) := by
  unfold execRngDataRead
  try dsimp only
  all_goals (repeat' (first
    | with_reducible apply Only.refl
    | with_reducible apply hostMeets_keep rfl
    | with_reducible apply rngServed_keep rfl
    | with_reducible apply Only.ite
    | with_reducible apply OOnly.ite
    | with_reducible apply OOnly.next
    | split
    | dsimp only
    | intro _))

theorem execRngGet_only {tag : Nat} {io : HostIO} {s : State} : OOnly 1600593 s (execRngGet tag io s) := by
  unfold execRngGet
  try dsimp only
  all_goals (repeat' (first
    | with_reducible apply Only.refl
    | with_reducible apply runCmd_only rfl
    | with_reducible apply rngAsk_keep rfl
    | with_reducible apply setWork_keep rfl
    | with_reducible apply Only.ite
    | with_reducible apply OOnly.ite
    | with_reducible apply OOnly.next
    | split
    | dsimp only
    | intro _))

theorem execRngReseed_only {tag : Nat} {io : HostIO} {s : State} : OOnly 1600601 s (execRngReseed tag io s) := by
  unfold execRngReseed
  try dsimp only
  all_goals (repeat' (first
    | with_reducible apply Only.refl
    | with_reducible apply runIn_only rfl
    | with_reducible apply rngConfig_keep rfl
    | with_reducible apply endOk_keep rfl
    | with_reducible apply rngReseed_keep rfl
    | with_reducible apply Only.ite
    | with_reducible apply OOnly.ite
    | with_reducible apply OOnly.next
    | fail_if_no_progress (with_reducible apply Only.upd rfl)
    | split
    | dsimp only
    | intro _))

theorem execRngStatus_only {tag : Nat} {io : HostIO} {s : State} : OOnly 552529 s (execRngStatus tag io s) := by
  unfold execRngStatus
  try dsimp only
  all_goals (repeat' (first
    | with_reducible apply Only.refl
    | with_reducible apply runCmd_only rfl
    | with_reducible apply endOut_keep rfl
    | with_reducible apply OOnly.ite
    | with_reducible apply OOnly.next
    | dsimp only
    | intro _))

theorem expiryTell_only {s : State} {c : Cmd} {st : Nat} : Only 10320 s (expiryTell s c st) := by
  unfold expiryTell
  try dsimp only
  all_goals (repeat' (first
    | with_reducible apply Only.refl
    | with_reducible apply tallyPut_keep rfl
    | with_reducible apply Only.ite
    | fail_if_no_progress (with_reducible apply Only.upd rfl)
    | split
    | dsimp only
    | intro _))
theorem expiryTell_keep {s : State} {c : Cmd} {st : Nat} (hs : sub 10320 n_ = true) (hk_ : Only n_ a_ s) : Only n_ a_ (expiryTell s c st) := expiryTell_only.step hs hk_

theorem pendReserve_only {s : State} {n : Nat} {tag : Nat} : Only 24577 s (pendReserve s n tag) := by
  unfold pendReserve
  try dsimp only
  all_goals (repeat' (first
    | with_reducible apply Only.refl
    | with_reducible apply pendPut_keep rfl
    | split
    | dsimp only
    | intro _))
theorem pendReserve_keep {s : State} {n : Nat} {tag : Nat} (hs : sub 24577 n_ = true) (hk_ : Only n_ a_ s) : Only n_ a_ (pendReserve s n tag) := pendReserve_only.step hs hk_

theorem pendPlace_only {s : State} {c : Cmd} : Only 26705 s (pendPlace s c).1 := by
  unfold pendPlace
  try dsimp only
  all_goals (repeat' (first
    | with_reducible apply Only.refl
    | with_reducible apply pendPurge_keep rfl
    | with_reducible apply Only.ite
    | split
    | dsimp only
    | intro _))
theorem pendPlace_keep {s : State} {c : Cmd} (hs : sub 26705 n_ = true) (hk_ : Only n_ a_ s) : Only n_ a_ (pendPlace s c).1 := pendPlace_only.step hs hk_
theorem pendPlace_keepE {s : State} {c : Cmd} {y0_ : Bool} {t_ : State} (hs : sub 26705 n_ = true) (he : pendPlace s c = (t_, y0_)) (hk_ : Only n_ a_ s) : Only n_ a_ t_ := by
  have := pendPlace_keep hs hk_ (s := s) (c := c)
  rw [he] at this; exact this

theorem advanceLate_only {s : State} {tag : Nat} {c : Cmd} {x : CmdSpec} : Only 4746321 s (advanceLate s tag c x) := by
  unfold advanceLate
  try dsimp only
  all_goals (repeat' (first
    | with_reducible apply Only.refl
    | with_reducible apply endBefore_keep rfl
    | with_reducible apply thmPost_keep rfl
    | with_reducible apply pendPlace_keep rfl
    | with_reducible apply pendReserve_keep rfl
    | with_reducible apply cmdPut_keep rfl
    | with_reducible apply Only.foldl
    | with_reducible apply Only.foldl2
    | with_reducible apply Only.ite
    | split
    | dsimp only
    | intro _))
theorem advanceLate_keep {s : State} {tag : Nat} {c : Cmd} {x : CmdSpec} (hs : sub 4746321 n_ = true) (hk_ : Only n_ a_ s) : Only n_ a_ (advanceLate s tag c x) := advanceLate_only.step hs hk_

theorem advance_only {s : State} {tag : Nat} : Only 4746321 s (advance s tag) := by
  unfold advance
  try dsimp only
  all_goals (repeat' (first
    | with_reducible apply Only.refl
    | with_reducible apply advanceLate_keep rfl
    | with_reducible apply cmdPut_keep rfl
    | with_reducible apply endBefore_keep rfl
    | with_reducible apply expiryTell_keep rfl
    | with_reducible apply thmPost_keep rfl
    | with_reducible apply Only.ite
    | fail_if_no_progress (with_reducible apply Only.upd rfl)
    | split
    | dsimp only
    | intro _))
theorem advance_keep {s : State} {tag : Nat} (hs : sub 4746321 n_ = true) (hk_ : Only n_ a_ s) : Only n_ a_ (advance s tag) := advance_only.step hs hk_

theorem enterCmd_only {s : State} {tag : Nat} : Only 4746833 s (enterCmd s tag) := by
  unfold enterCmd
  try dsimp only
  all_goals (repeat' (first
    | with_reducible apply Only.refl
    | with_reducible apply cmdPut_keep rfl
    | with_reducible apply endBefore_keep rfl
    | with_reducible apply endRepeat_keep rfl
    | with_reducible apply dupEnter_keep rfl
    | with_reducible apply jot_keep rfl
    | with_reducible apply advance_keep rfl
    | with_reducible apply Only.ite
    | split
    | dsimp only
    | intro _))
theorem enterCmd_keep {s : State} {tag : Nat} (hs : sub 4746833 n_ = true) (hk_ : Only n_ a_ s) : Only n_ a_ (enterCmd s tag) := enterCmd_only.step hs hk_

theorem execInputPrereadDone_only {tag : Nat} {io : HostRead} {s : State} : OOnly 4746321 s (execInputPrereadDone tag io s) := by
  unfold execInputPrereadDone
  try dsimp only
  all_goals (repeat' (first
    | with_reducible apply Only.refl
    | with_reducible apply endAfter_keep rfl
    | with_reducible apply cmdPut_keep rfl
    | with_reducible apply endBefore_keep rfl
    | with_reducible apply advance_keep rfl
    | with_reducible apply keepInput_keep rfl
    | with_reducible apply Only.ite
    | with_reducible apply OOnly.ite
    | with_reducible apply OOnly.next
    | split
    | dsimp only
    | intro _))

theorem visitNote_only {s : State} {n : Nat} {k : Nat} : Only 1536 s (visitNote s n k) := by
  unfold visitNote
  try dsimp only
  all_goals (repeat' (first
    | with_reducible apply Only.refl
    | with_reducible apply slicePut_keep rfl
    | with_reducible apply Only.ite
    | fail_if_no_progress (with_reducible apply Only.upd rfl)
    | split
    | dsimp only
    | intro _))
theorem visitNote_keep {s : State} {n : Nat} {k : Nat} (hs : sub 1536 n_ = true) (hk_ : Only n_ a_ s) : Only n_ a_ (visitNote s n k) := visitNote_only.step hs hk_

theorem fetchEntry_only {s : State} {n : Nat} {k : Nat} {bs : List Byte} : Only 4746833 s (fetchEntry s n k bs) := by
  unfold fetchEntry
  try dsimp only
  all_goals (repeat' (first
    | with_reducible apply Only.refl
    | with_reducible apply sqPut_keep rfl
    | with_reducible apply retryDel_keep rfl
    | with_reducible apply visitNote_keep rfl
    | with_reducible apply agentNext_keep rfl
    | with_reducible apply agentNext_keepE rfl (by assumption)
    | with_reducible apply cmdPut_keep rfl
    | with_reducible apply enterCmd_keep rfl
    | with_reducible apply Only.ite
    | with_reducible apply Only.ite2
    | fail_if_no_progress (with_reducible apply Only.upd rfl)
    | split
    | dsimp only
    | intro _))
theorem fetchEntry_keep {s : State} {n : Nat} {k : Nat} {bs : List Byte} (hs : sub 4746833 n_ = true) (hk_ : Only n_ a_ s) : Only n_ a_ (fetchEntry s n k bs) := fetchEntry_only.step hs hk_

theorem execCommandFetch_only {slice : Nat} {ring : Nat} {entry : HostRead} {s : State} : OOnly 4747217 s (execCommandFetch slice ring entry s) := by
  unfold execCommandFetch
  try dsimp only
  all_goals (repeat' (first
    | with_reducible apply Only.refl
    | with_reducible apply ringFail_keep rfl
    | with_reducible apply sqHalt_keep rfl
    | with_reducible apply fetchEntry_keep rfl
    | with_reducible apply Only.ite
    | with_reducible apply OOnly.ite
    | with_reducible apply OOnly.next
    | split
    | dsimp only
    | intro _))

theorem stopBegin_only {s : State} {c : Cmd} : Only 512 s (stopBegin s c) := by
  unfold stopBegin
  try dsimp only
  all_goals (repeat' (first
    | with_reducible apply Only.refl
    | with_reducible apply slicePut_keep rfl
    | with_reducible apply Only.ite
    | split
    | dsimp only
    | intro _))
theorem stopBegin_keep {s : State} {c : Cmd} (hs : sub 512 n_ = true) (hk_ : Only n_ a_ s) : Only n_ a_ (stopBegin s c) := stopBegin_only.step hs hk_

theorem startHook_only {s : State} {tag : Nat} {c : Cmd} {mask : Nat} : Only 1844762 s (startHook s tag c mask) := by
  unfold startHook
  try dsimp only
  all_goals (repeat' (first
    | with_reducible apply Only.refl
    | with_reducible apply pressStart_keep rfl
    | with_reducible apply unlockStart_keep rfl
    | with_reducible apply stopBegin_keep rfl
    | with_reducible apply mangleStart_keep rfl
    | with_reducible apply Only.ite
    | split
    | dsimp only
    | intro _))
theorem startHook_keep {s : State} {tag : Nat} {c : Cmd} {mask : Nat} (hs : sub 1844762 n_ = true) (hk_ : Only n_ a_ s) : Only n_ a_ (startHook s tag c mask) := startHook_only.step hs hk_

theorem startCmd_only {s0 : State} {tag : Nat} {c : Cmd} {out : Nat} : Only 1893915 s0 (startCmd s0 tag c out) := by
  unfold startCmd
  try dsimp only
  all_goals (repeat' (first
    | with_reducible apply Only.refl
    | with_reducible apply stageTake_keep rfl
    | with_reducible apply stageTake_keepE rfl (by assumption)
    | with_reducible apply cacheUse_keep rfl
    | with_reducible apply startGone_keep rfl
    | with_reducible apply cmdPut_keep rfl
    | with_reducible apply useTake_keep rfl
    | with_reducible apply jot_keep rfl
    | with_reducible apply pendPut_keep rfl
    | with_reducible apply startHook_keep rfl
    | with_reducible apply Only.foldl
    | with_reducible apply Only.foldl2
    | with_reducible apply Only.ite
    | with_reducible apply Only.ite2
    | split
    | dsimp only
    | intro _))
theorem startCmd_keep {s0 : State} {tag : Nat} {c : Cmd} {out : Nat} (hs : sub 1893915 n_ = true) (hk_ : Only n_ a_ s0) : Only n_ a_ (startCmd s0 tag c out) := startCmd_only.step hs hk_

theorem startOrLate_only {s : State} {tag : Nat} {c : Cmd} {out : Nat} : Only 1896027 s (startOrLate s tag c out) := by
  unfold startOrLate
  try dsimp only
  all_goals (repeat' (first
    | with_reducible apply Only.refl
    | with_reducible apply endBefore_keep rfl
    | with_reducible apply startCmd_keep rfl
    | with_reducible apply Only.ite
    | split
    | dsimp only
    | intro _))
theorem startOrLate_keep {s : State} {tag : Nat} {c : Cmd} {out : Nat} (hs : sub 1896027 n_ = true) (hk_ : Only n_ a_ s) : Only n_ a_ (startOrLate s tag c out) := startOrLate_only.step hs hk_

theorem startStep_only {s : State} {tag : Nat} {c : Cmd} {x : CmdSpec} : Only 6090331 s (startStep s tag c x) := by
  unfold startStep
  try dsimp only
  all_goals (repeat' (first
    | with_reducible apply Only.refl
    | with_reducible apply endBefore_keep rfl
    | with_reducible apply thmPost_keep rfl
    | with_reducible apply startOrLate_keep rfl
    | with_reducible apply Only.ite
    | split
    | dsimp only
    | intro _))
theorem startStep_keep {s : State} {tag : Nat} {c : Cmd} {x : CmdSpec} (hs : sub 6090331 n_ = true) (hk_ : Only n_ a_ s) : Only n_ a_ (startStep s tag c x) := startStep_only.step hs hk_

theorem startAsk_only {s : State} {c : Cmd} {g : Nat} : Only 1048576 s (startAsk s c g) := by
  unfold startAsk
  try dsimp only
  all_goals (repeat' (first
    | with_reducible apply Only.refl
    | with_reducible apply rngAsk_keep rfl
    | with_reducible apply startGone_keep rfl
    | dsimp only
    | intro _))
theorem startAsk_keep {s : State} {c : Cmd} {g : Nat} (hs : sub 1048576 n_ = true) (hk_ : Only n_ a_ s) : Only n_ a_ (startAsk s c g) := startAsk_only.step hs hk_

theorem startTry_only {s : State} {tag : Nat} {c : Cmd} {x : CmdSpec} : Only 6090331 s (startTry s tag c x) := by
  unfold startTry
  try dsimp only
  all_goals (repeat' (first
    | with_reducible apply Only.refl
    | with_reducible apply startGone_keep rfl
    | with_reducible apply startAsk_keep rfl
    | with_reducible apply pairQueue_keep rfl
    | with_reducible apply startStep_keep rfl
    | with_reducible apply Only.ite
    | split
    | dsimp only
    | intro _))
theorem startTry_keep {s : State} {tag : Nat} {c : Cmd} {x : CmdSpec} (hs : sub 6090331 n_ = true) (hk_ : Only n_ a_ s) : Only n_ a_ (startTry s tag c x) := startTry_only.step hs hk_

theorem dueStart_only {s : State} {tag : Nat} {c : Cmd} : Only 1844250 s (dueStart s tag c) := by
  unfold dueStart
  try dsimp only
  all_goals (repeat' (first
    | with_reducible apply Only.refl
    | with_reducible apply cmdPut_keep rfl
    | with_reducible apply bindOwn_keep rfl
    | with_reducible apply cacheUse_keep rfl
    | with_reducible apply pressStart_keep rfl
    | with_reducible apply mangleStart_keep rfl
    | with_reducible apply Only.foldl
    | with_reducible apply Only.foldl2
    | with_reducible apply Only.ite
    | split
    | dsimp only
    | intro _))
theorem dueStart_keep {s : State} {tag : Nat} {c : Cmd} (hs : sub 1844250 n_ = true) (hk_ : Only n_ a_ s) : Only n_ a_ (dueStart s tag c) := dueStart_only.step hs hk_

theorem execCommandStart_only {tag : Nat} {s : State} : OOnly 6090331 s (execCommandStart tag s) := by
  unfold execCommandStart
  try dsimp only
  all_goals (repeat' (first
    | with_reducible apply Only.refl
    | with_reducible apply dueStart_keep rfl
    | with_reducible apply advance_keep rfl
    | with_reducible apply startTry_keep rfl
    | with_reducible apply Only.ite
    | with_reducible apply OOnly.ite
    | with_reducible apply OOnly.next
    | split
    | dsimp only
    | intro _))

theorem pairTurn_only {s : State} {tag : Nat} {c : Cmd} {w : MangleWait} {ds : List (Nat × Nat)} : Only 6090331 s (pairTurn s tag c w ds) := by
  unfold pairTurn
  try dsimp only
  all_goals (repeat' (first
    | with_reducible apply Only.refl
    | with_reducible apply cmdPut_keep rfl
    | with_reducible apply waitOut_keep rfl
    | with_reducible apply startStep_keep rfl
    | with_reducible apply mangleCharge_keep rfl
    | with_reducible apply Only.ite
    | split
    | dsimp only
    | intro _))
theorem pairTurn_keep {s : State} {tag : Nat} {c : Cmd} {w : MangleWait} {ds : List (Nat × Nat)} (hs : sub 6090331 n_ = true) (hk_ : Only n_ a_ s) : Only n_ a_ (pairTurn s tag c w ds) := pairTurn_only.step hs hk_

theorem execMangleSlotFill_only {unit : Nat} {s : State} : OOnly 6090331 s (execMangleSlotFill unit s) := by
  unfold execMangleSlotFill
  try dsimp only
  all_goals (repeat' (first
    | with_reducible apply Only.refl
    | with_reducible apply pairTurn_keep rfl
    | with_reducible apply mangleTake_keep rfl
    | with_reducible apply mangleCharge_keep rfl
    | with_reducible apply Only.ite
    | with_reducible apply OOnly.ite
    | with_reducible apply OOnly.next
    | split
    | dsimp only
    | intro _))

theorem endNote_only {s : State} {tag : Nat} {c : Cmd} : Only 17409 s (endNote s tag c) := by
  unfold endNote
  try dsimp only
  all_goals (repeat' (first
    | with_reducible apply Only.refl
    | with_reducible apply jot_keep rfl
    | with_reducible apply jotResult_keep rfl
    | with_reducible apply cmdPut_keep rfl
    | with_reducible apply Only.ite
    | split
    | dsimp only
    | intro _))
theorem endNote_keep {s : State} {tag : Nat} {c : Cmd} (hs : sub 17409 n_ = true) (hk_ : Only n_ a_ s) : Only n_ a_ (endNote s tag c) := endNote_only.step hs hk_

theorem heldRelease_only {s : State} {c : Cmd} : Only 4746833 s (heldRelease s c) := by
  unfold heldRelease
  try dsimp only
  all_goals (repeat' (first
    | with_reducible apply Only.refl
    | with_reducible apply endRepeat_keep rfl
    | with_reducible apply enterCmd_keep rfl
    | with_reducible apply cmdPut_keep rfl
    | with_reducible apply Only.foldl
    | with_reducible apply Only.foldl2
    | with_reducible apply Only.ite
    | split
    | dsimp only
    | intro _))
theorem heldRelease_keep {s : State} {c : Cmd} (hs : sub 4746833 n_ = true) (hk_ : Only n_ a_ s) : Only n_ a_ (heldRelease s c) := heldRelease_only.step hs hk_

theorem mbxWrite_only {s : State} {p : Nat} {c : Cmd} : Only 1937 s (mbxWrite s p c) := by
  unfold mbxWrite
  try dsimp only
  all_goals (repeat' (first
    | with_reducible apply Only.refl
    | with_reducible apply regPut_keep rfl
    | with_reducible apply putOutput_keep rfl
    | with_reducible apply raiseMsix_keep rfl
    | with_reducible apply Only.foldl
    | with_reducible apply Only.foldl2
    | with_reducible apply Only.ite
    | fail_if_no_progress (with_reducible apply Only.upd rfl)
    | split
    | dsimp only
    | intro _))
theorem mbxWrite_keep {s : State} {p : Nat} {c : Cmd} (hs : sub 1937 n_ = true) (hk_ : Only n_ a_ s) : Only n_ a_ (mbxWrite s p c) := mbxWrite_only.step hs hk_

theorem afterComp_only {s : State} {tag : Nat} {c : Cmd} : Only 33550329 s (afterComp s tag c) := by
  unfold afterComp
  try dsimp only
  all_goals (repeat' (first
    | with_reducible apply Only.refl
    | with_reducible apply cmdRelease_keep rfl
    | with_reducible apply jot_keep rfl
    | with_reducible apply heldRelease_keep rfl
    | with_reducible apply resetStep_keep rfl
    | with_reducible apply deviceReset_keep rfl
    | with_reducible apply enterStandby_keep rfl
    | with_reducible apply Only.ite
    | fail_if_no_progress (with_reducible apply Only.upd rfl)
    | split
    | dsimp only
    | intro _))
theorem afterComp_keep {s : State} {tag : Nat} {c : Cmd} (hs : sub 33550329 n_ = true) (hk_ : Only n_ a_ s) : Only n_ a_ (afterComp s tag c) := afterComp_only.step hs hk_

theorem compTry_only {s0 : State} {tag : Nat} {ok : Bool} : Only 33550329 s0 (compTry s0 tag ok) := by
  unfold compTry
  try dsimp only
  all_goals (repeat' (first
    | with_reducible apply Only.refl
    | with_reducible apply endNote_keep rfl
    | with_reducible apply afterComp_keep rfl
    | with_reducible apply mbxWrite_keep rfl
    | with_reducible apply writeComp_keep rfl
    | with_reducible apply retryDel_keep rfl
    | with_reducible apply ringFail_keep rfl
    | with_reducible apply cqHalt_keep rfl
    | with_reducible apply Only.ite
    | split
    | dsimp only
    | intro _))
theorem compTry_keep {s0 : State} {tag : Nat} {ok : Bool} (hs : sub 33550329 n_ = true) (hk_ : Only n_ a_ s0) : Only n_ a_ (compTry s0 tag ok) := compTry_only.step hs hk_

theorem execCompletionWrite_only {tag : Nat} {ok : Bool} {s : State} : OOnly 33550329 s (execCompletionWrite tag ok s) := by
  unfold execCompletionWrite
  try dsimp only
  all_goals (repeat' (first
    | with_reducible apply Only.refl
    | with_reducible apply compTry_keep rfl
    | with_reducible apply Only.ite
    | with_reducible apply OOnly.ite
    | with_reducible apply OOnly.next
    | split
    | dsimp only
    | intro _))

theorem mbxGo_only {s : State} {fn : Nat} : Only 4746833 s (mbxGo s fn) := by
  unfold mbxGo
  try dsimp only
  all_goals (repeat' (first
    | with_reducible apply Only.refl
    | with_reducible apply regAdd_keep rfl
    | with_reducible apply enterCmd_keep rfl
    | with_reducible apply cmdPut_keep rfl
    | with_reducible apply agentNext_keep rfl
    | with_reducible apply agentNext_keepE rfl (by assumption)
    | with_reducible apply Only.ite
    | with_reducible apply Only.ite2
    | fail_if_no_progress (with_reducible apply Only.upd rfl)
    | split
    | dsimp only
    | intro _))
theorem mbxGo_keep {s : State} {fn : Nat} (hs : sub 4746833 n_ = true) (hk_ : Only n_ a_ s) : Only n_ a_ (mbxGo s fn) := mbxGo_only.step hs hk_

theorem mbxCtrl_only {s : State} {fn : Nat} {value : Word} : Only 4746833 s (mbxCtrl s fn value) := by
  unfold mbxCtrl
  try dsimp only
  all_goals (repeat' (first
    | with_reducible apply Only.refl
    | with_reducible apply ignWrite_keep rfl
    | with_reducible apply regPut_keep rfl
    | with_reducible apply mbxGo_keep rfl
    | with_reducible apply Only.ite
    | split
    | dsimp only
    | intro _))
theorem mbxCtrl_keep {s : State} {fn : Nat} {value : Word} (hs : sub 4746833 n_ = true) (hk_ : Only n_ a_ s) : Only n_ a_ (mbxCtrl s fn value) := mbxCtrl_only.step hs hk_

theorem execMbxGo_only {fn : Nat} {value : Word} {s : State} : OOnly 6025179 s (execMbxGo fn value s) := by
  unfold execMbxGo
  try dsimp only
  all_goals (repeat' (first
    | with_reducible apply Only.refl
    | with_reducible apply hostMeets_keep rfl
    | with_reducible apply mbxCtrl_keep rfl
    | with_reducible apply Only.ite
    | with_reducible apply OOnly.ite
    | with_reducible apply OOnly.next
    | split
    | dsimp only
    | intro _))

theorem rspWrite_only {s : State} {r : ThmRsp} : Only 18 s (rspWrite s r) := by
  unfold rspWrite
  try dsimp only
  all_goals (repeat' (first
    | with_reducible apply Only.refl
    | with_reducible apply freeBytes_keep rfl
    | with_reducible apply freeBytes_keepE rfl (by assumption)
    | with_reducible apply regPut_keep rfl
    | with_reducible apply thmEvent_keep rfl
    | with_reducible apply Only.foldl
    | with_reducible apply Only.foldl2
    | split
    | dsimp only
    | intro _))
theorem rspWrite_keep {s : State} {r : ThmRsp} (hs : sub 18 n_ = true) (hk_ : Only n_ a_ s) : Only n_ a_ (rspWrite s r) := rspWrite_only.step hs hk_

theorem answerWaiting_only {s : State} {tag : Nat} {r : ThmRsp} : Only 4746321 s (answerWaiting s tag r) := by
  unfold answerWaiting
  try dsimp only
  all_goals (repeat' (first
    | with_reducible apply Only.refl
    | with_reducible apply advance_keep rfl
    | with_reducible apply endBefore_keep rfl
    | with_reducible apply Only.ite
    | split
    | dsimp only
    | intro _))
theorem answerWaiting_keep {s : State} {tag : Nat} {r : ThmRsp} (hs : sub 4746321 n_ = true) (hk_ : Only n_ a_ s) : Only n_ a_ (answerWaiting s tag r) := answerWaiting_only.step hs hk_

theorem queueUndo_only {s : State} {tag : Nat} {r : ThmRsp} : Only 683089 s (queueUndo s tag r) := by
  unfold queueUndo
  try dsimp only
  all_goals (repeat' (first
    | with_reducible apply Only.refl
    | with_reducible apply endAfter_keep rfl
    | with_reducible apply queueNote_keep rfl
    | fail_if_no_progress (with_reducible apply Only.upd rfl)
    | dsimp only
    | intro _))
theorem queueUndo_keep {s : State} {tag : Nat} {r : ThmRsp} (hs : sub 683089 n_ = true) (hk_ : Only n_ a_ s) : Only n_ a_ (queueUndo s tag r) := queueUndo_only.step hs hk_

theorem answerStarted_only {s : State} {tag : Nat} {c : Cmd} {r : ThmRsp} : Only 25849425 s (answerStarted s tag c r) := by
  unfold answerStarted
  try dsimp only
  all_goals (repeat' (first
    | with_reducible apply Only.refl
    | with_reducible apply endOk_keep rfl
    | with_reducible apply endAfter_keep rfl
    | with_reducible apply destroyDrop_keep rfl
    | with_reducible apply pkCreated_keep rfl
    | with_reducible apply enrolDone_keep rfl
    | with_reducible apply ownerDone_keep rfl
    | with_reducible apply queueUndo_keep rfl
    | with_reducible apply cardDrop_keep rfl
    | with_reducible apply handDone_keep rfl
    | with_reducible apply lcDone_keep rfl
    | with_reducible apply Only.ite
    | split
    | dsimp only
    | intro _))
theorem answerStarted_keep {s : State} {tag : Nat} {c : Cmd} {r : ThmRsp} (hs : sub 25849425 n_ = true) (hk_ : Only n_ a_ s) : Only n_ a_ (answerStarted s tag c r) := answerStarted_only.step hs hk_

theorem answerEpoch_only {s : State} {r : ThmRsp} : Only 683089 s (answerEpoch s r) := by
  unfold answerEpoch
  try dsimp only
  all_goals (repeat' (first
    | with_reducible apply Only.refl
    | with_reducible apply rekeyBegin_keep rfl
    | with_reducible apply endAfter_keep rfl
    | with_reducible apply Only.ite
    | split
    | dsimp only
    | intro _))
theorem answerEpoch_keep {s : State} {r : ThmRsp} (hs : sub 683089 n_ = true) (hk_ : Only n_ a_ s) : Only n_ a_ (answerEpoch s r) := answerEpoch_only.step hs hk_

theorem answerTake_only {s : State} {r : ThmRsp} : Only 30043729 s (answerTake s r) := by
  unfold answerTake
  try dsimp only
  all_goals (repeat' (first
    | with_reducible apply Only.refl
    | with_reducible apply answerEpoch_keep rfl
    | with_reducible apply answerWaiting_keep rfl
    | with_reducible apply answerStarted_keep rfl
    | with_reducible apply Only.ite
    | split
    | dsimp only
    | intro _))
theorem answerTake_keep {s : State} {r : ThmRsp} (hs : sub 30043729 n_ = true) (hk_ : Only n_ a_ s) : Only n_ a_ (answerTake s r) := answerTake_only.step hs hk_

theorem execThimbleResponse_only {s : State} : OOnly 30043731 s (execThimbleResponse s) := by
  unfold execThimbleResponse
  try dsimp only
  all_goals (repeat' (first
    | with_reducible apply Only.refl
    | with_reducible apply answerTake_keep rfl
    | with_reducible apply rspWrite_keep rfl
    | with_reducible apply Only.ite
    | with_reducible apply OOnly.ite
    | with_reducible apply OOnly.next
    | fail_if_no_progress (with_reducible apply Only.upd rfl)
    | split
    | dsimp only
    | intro _))

theorem finishAnswers_only {s : State} : Only 30043729 s (finishAnswers s) := by
  unfold finishAnswers
  try dsimp only
  all_goals (repeat' (first
    | with_reducible apply Only.refl
    | with_reducible apply answerTake_keep rfl
    | with_reducible apply Only.foldl
    | with_reducible apply Only.foldl2
    | fail_if_no_progress (with_reducible apply Only.upd rfl)
    | dsimp only
    | intro _))
theorem finishAnswers_keep {s : State} (hs : sub 30043729 n_ = true) (hk_ : Only n_ a_ s) : Only n_ a_ (finishAnswers s) := finishAnswers_only.step hs hk_

theorem sendDrop_only {s : State} {tag : Nat} : Only 163840 s (sendDrop s tag) := by
  unfold sendDrop
  try dsimp only
  all_goals (repeat' (first
    | with_reducible apply Only.refl
    | with_reducible apply txFree_keep rfl
    | with_reducible apply queueMod_keep rfl
    | with_reducible apply Only.foldl
    | with_reducible apply Only.foldl2
    | with_reducible apply Only.ite
    | split
    | dsimp only
    | intro _))
theorem sendDrop_keep {s : State} {tag : Nat} (hs : sub 163840 n_ = true) (hk_ : Only n_ a_ s) : Only n_ a_ (sendDrop s tag) := sendDrop_only.step hs hk_

theorem startUndo_only {s : State} {c : Cmd} : Only 8536065 s (startUndo s c) := by
  unfold startUndo
  try dsimp only
  all_goals (repeat' (first
    | with_reducible apply Only.refl
    | with_reducible apply queueNote_keep rfl
    | with_reducible apply ctlMap_keep rfl
    | with_reducible apply Only.ite
    | fail_if_no_progress (with_reducible apply Only.upd rfl)
    | split
    | dsimp only
    | intro _))
theorem startUndo_keep {s : State} {c : Cmd} (hs : sub 8536065 n_ = true) (hk_ : Only n_ a_ s) : Only n_ a_ (startUndo s c) := startUndo_only.step hs hk_

theorem cmdLeave_only {s : State} {tag : Nat} : Only 2073088 s (cmdLeave s tag) := by
  unfold cmdLeave
  try dsimp only
  all_goals (repeat' (first
    | with_reducible apply Only.refl
    | with_reducible apply enrolDrop_keep rfl
    | with_reducible apply mangleLeave_keep rfl
    | with_reducible apply pressLeave_keep rfl
    | with_reducible apply sendDrop_keep rfl
    | with_reducible apply Only.ite
    | fail_if_no_progress (with_reducible apply Only.upd rfl)
    | split
    | dsimp only
    | intro _))
theorem cmdLeave_keep {s : State} {tag : Nat} (hs : sub 2073088 n_ = true) (hk_ : Only n_ a_ s) : Only n_ a_ (cmdLeave s tag) := cmdLeave_only.step hs hk_

theorem cmdAbort_only {s : State} {tag : Nat} : Only 10481233 s (cmdAbort s tag) := by
  unfold cmdAbort
  try dsimp only
  all_goals (repeat' (first
    | with_reducible apply Only.refl
    | with_reducible apply endBefore_keep rfl
    | with_reducible apply cmdLeave_keep rfl
    | with_reducible apply endAfter_keep rfl
    | with_reducible apply startUndo_keep rfl
    | with_reducible apply Only.ite
    | split
    | dsimp only
    | intro _))
theorem cmdAbort_keep {s : State} {tag : Nat} (hs : sub 10481233 n_ = true) (hk_ : Only n_ a_ s) : Only n_ a_ (cmdAbort s tag) := cmdAbort_only.step hs hk_

theorem restartKeys_only {s : State} : Only 24577 s (restartKeys s) := by
  unfold restartKeys
  try dsimp only
  all_goals (repeat' (first
    | with_reducible apply Only.refl
    | with_reducible apply keyErase_keep rfl
    | with_reducible apply Only.foldl
    | with_reducible apply Only.foldl2
    | fail_if_no_progress (with_reducible apply Only.upd rfl)
    | dsimp only
    | intro _))
theorem restartKeys_keep {s : State} (hs : sub 24577 n_ = true) (hk_ : Only n_ a_ s) : Only n_ a_ (restartKeys s) := restartKeys_only.step hs hk_

theorem cpRestart_only {s : State} : Only 31452793 s (cpRestart s) := by
  unfold cpRestart
  try dsimp only
  all_goals (repeat' (first
    | with_reducible apply Only.refl
    | with_reducible apply formEnd_keep rfl
    | with_reducible apply finishAnswers_keep rfl
    | with_reducible apply restartKeys_keep rfl
    | with_reducible apply cmdAbort_keep rfl
    | with_reducible apply sqcSet_keep rfl
    | with_reducible apply regSetField_keep rfl
    | with_reducible apply Only.foldl
    | with_reducible apply Only.foldl2
    | with_reducible apply Only.ite
    | fail_if_no_progress (with_reducible apply Only.upd rfl)
    | split
    | dsimp only
    | intro _))
theorem cpRestart_keep {s : State} (hs : sub 31452793 n_ = true) (hk_ : Only n_ a_ s) : Only n_ a_ (cpRestart s) := cpRestart_only.step hs hk_

theorem execCpFirmwareRestart_only {imageOk : Bool} {s : State} : OOnly 33550329 s (execCpFirmwareRestart imageOk s) := by
  unfold execCpFirmwareRestart
  try dsimp only
  all_goals (repeat' (first
    | with_reducible apply Only.refl
    | with_reducible apply cpRestart_keep rfl
    | with_reducible apply deviceReset_keep rfl
    | with_reducible apply Only.ite
    | with_reducible apply OOnly.ite
    | with_reducible apply OOnly.next
    | split
    | dsimp only
    | intro _))

theorem execWatchdogExpiry_only {imageOk : Bool} {s : State} : OOnly 33550329 s (execWatchdogExpiry imageOk s) := by
  unfold execWatchdogExpiry
  try dsimp only
  all_goals (repeat' (first
    | with_reducible apply Only.refl
    | with_reducible apply deviceReset_keep rfl
    | with_reducible apply cpRestart_keep rfl
    | with_reducible apply seamBye_keep rfl
    | with_reducible apply seamAsk_keep rfl
    | with_reducible apply Only.ite
    | with_reducible apply OOnly.ite
    | with_reducible apply OOnly.next
    | fail_if_no_progress (with_reducible apply Only.upd rfl)
    | split
    | dsimp only
    | intro _))

theorem seamReg_only {s : State} {off : Nat} : Only 2 s (seamReg s off).2 := by
  unfold seamReg
  try dsimp only
  all_goals (repeat' (first
    | with_reducible apply Only.refl
    | with_reducible apply freeWord_keep rfl
    | with_reducible apply freeWord_keepE rfl (by assumption)
    | split
    | dsimp only
    | intro _))
theorem seamReg_keep {s : State} {off : Nat} (hs : sub 2 n_ = true) (hk_ : Only n_ a_ s) : Only n_ a_ (seamReg s off).2 := seamReg_only.step hs hk_
theorem seamReg_keepE {s : State} {off : Nat} {y0_ : Word} {t_ : State} (hs : sub 2 n_ = true) (he : seamReg s off = (y0_, t_)) (hk_ : Only n_ a_ s) : Only n_ a_ t_ := by
  have := seamReg_keep hs hk_ (s := s) (off := off)
  rw [he] at this; exact this

theorem blockReg_only {s : State} {r : Requester} {b : Blk} {off : Nat} : Only 1048602 s (blockReg s r b off).2 := by
  unfold blockReg
  try dsimp only
  all_goals (repeat' (first
    | with_reducible apply Only.refl
    | with_reducible apply rngRead_keep rfl
    | with_reducible apply rngRead_keepE rfl (by assumption)
    | with_reducible apply touchFast_keep rfl
    | with_reducible apply seamReg_keep rfl
    | with_reducible apply seamReg_keepE rfl (by assumption)
    | with_reducible apply dmaRegRead_keep rfl
    | with_reducible apply dmaRegRead_keepE rfl (by assumption)
    | with_reducible apply Only.ite
    | with_reducible apply Only.ite2
    | split
    | dsimp only
    | intro _))
theorem blockReg_keep {s : State} {r : Requester} {b : Blk} {off : Nat} (hs : sub 1048602 n_ = true) (hk_ : Only n_ a_ s) : Only n_ a_ (blockReg s r b off).2 := blockReg_only.step hs hk_
theorem blockReg_keepE {s : State} {r : Requester} {b : Blk} {off : Nat} {y0_ : Word} {t_ : State} (hs : sub 1048602 n_ = true) (he : blockReg s r b off = (y0_, t_)) (hk_ : Only n_ a_ s) : Only n_ a_ t_ := by
  have := blockReg_keep hs hk_ (s := s) (r := r) (b := b) (off := off)
  rw [he] at this; exact this

theorem listedRead_only {s : State} {r : Requester} {b : Blk} {addr : Nat} {d : RegDesc} : Only 1048602 s (listedRead s r b addr d).2 := by
  unfold listedRead
  try dsimp only
  all_goals (repeat' (first
    | with_reducible apply Only.refl
    | with_reducible apply latchPut_keep rfl
    | with_reducible apply blockReg_keep rfl
    | with_reducible apply blockReg_keepE rfl (by assumption)
    | with_reducible apply Only.ite
    | with_reducible apply Only.ite2
    | split
    | dsimp only
    | intro _))
theorem listedRead_keep {s : State} {r : Requester} {b : Blk} {addr : Nat} {d : RegDesc} (hs : sub 1048602 n_ = true) (hk_ : Only n_ a_ s) : Only n_ a_ (listedRead s r b addr d).2 := listedRead_only.step hs hk_
theorem listedRead_keepE {s : State} {r : Requester} {b : Blk} {addr : Nat} {d : RegDesc} {y0_ : Word} {t_ : State} (hs : sub 1048602 n_ = true) (he : listedRead s r b addr d = (y0_, t_)) (hk_ : Only n_ a_ s) : Only n_ a_ t_ := by
  have := listedRead_keep hs hk_ (s := s) (r := r) (b := b) (addr := addr) (d := d)
  rw [he] at this; exact this

theorem noReg_only {s : State} {r : Requester} {a : Nat} : Only 32 s (noReg s r a) := by
  unfold noReg
  try dsimp only
  all_goals (repeat' (first
    | with_reducible apply Only.refl
    | with_reducible apply busErr_keep rfl
    | with_reducible apply Only.ite
    | split
    | dsimp only
    | intro _))
theorem noReg_keep {s : State} {r : Requester} {a : Nat} (hs : sub 32 n_ = true) (hk_ : Only n_ a_ s) : Only n_ a_ (noReg s r a) := noReg_only.step hs hk_

theorem regRead_only {s : State} {r : Requester} {a : Nat} : Only 1048634 s (regRead s r a).2 := by
  unfold regRead
  try dsimp only
  all_goals (repeat' (first
    | with_reducible apply Only.refl
    | with_reducible apply listedRead_keep rfl
    | with_reducible apply listedRead_keepE rfl (by assumption)
    | with_reducible apply noReg_keep rfl
    | with_reducible apply Only.ite
    | with_reducible apply Only.ite2
    | split
    | dsimp only
    | intro _))
theorem regRead_keep {s : State} {r : Requester} {a : Nat} (hs : sub 1048634 n_ = true) (hk_ : Only n_ a_ s) : Only n_ a_ (regRead s r a).2 := regRead_only.step hs hk_
theorem regRead_keepE {s : State} {r : Requester} {a : Nat} {y0_ : Word} {t_ : State} (hs : sub 1048634 n_ = true) (he : regRead s r a = (y0_, t_)) (hk_ : Only n_ a_ s) : Only n_ a_ t_ := by
  have := regRead_keep hs hk_ (s := s) (r := r) (a := a)
  rw [he] at this; exact this

theorem accCheck_only {s : State} {n : Nat} {a : Nat} {size : Nat} {k : AccKind} : Only 2128 s (accCheck s n a size k).2 := by
  unfold accCheck
  try dsimp only
  all_goals (repeat' (first
    | with_reducible apply Only.refl
    | with_reducible apply aruCheck_keep rfl
    | with_reducible apply aruCheck_keepE rfl (by assumption)
    | with_reducible apply hemCheck_keep rfl
    | with_reducible apply hemCheck_keepE rfl (by assumption)
    | with_reducible apply Only.ite
    | with_reducible apply Only.ite2
    | split
    | dsimp only
    | intro _))
theorem accCheck_keep {s : State} {n : Nat} {a : Nat} {size : Nat} {k : AccKind} (hs : sub 2128 n_ = true) (hk_ : Only n_ a_ s) : Only n_ a_ (accCheck s n a size k).2 := accCheck_only.step hs hk_
theorem accCheck_keepE {s : State} {n : Nat} {a : Nat} {size : Nat} {k : AccKind} {y0_ : Option Nat} {t_ : State} (hs : sub 2128 n_ = true) (he : accCheck s n a size k = (y0_, t_)) (hk_ : Only n_ a_ s) : Only n_ a_ t_ := by
  have := accCheck_keep hs hk_ (s := s) (n := n) (a := a) (size := size) (k := k)
  rw [he] at this; exact this

theorem coreRegRead_only {s : State} {n : Nat} {a : Nat} : Only 1048600 s (coreRegRead s n a).2 := by
  unfold coreRegRead
  try dsimp only
  all_goals (repeat' (first
    | with_reducible apply Only.refl
    | with_reducible apply rngRead_keep rfl
    | with_reducible apply rngRead_keepE rfl (by assumption)
    | with_reducible apply touchFast_keep rfl
    | with_reducible apply dmaRegRead_keep rfl
    | with_reducible apply dmaRegRead_keepE rfl (by assumption)
    | with_reducible apply Only.ite
    | with_reducible apply Only.ite2
    | split
    | dsimp only
    | intro _))
theorem coreRegRead_keep {s : State} {n : Nat} {a : Nat} (hs : sub 1048600 n_ = true) (hk_ : Only n_ a_ s) : Only n_ a_ (coreRegRead s n a).2 := coreRegRead_only.step hs hk_
theorem coreRegRead_keepE {s : State} {n : Nat} {a : Nat} {y0_ : Word} {t_ : State} (hs : sub 1048600 n_ = true) (he : coreRegRead s n a = (y0_, t_)) (hk_ : Only n_ a_ s) : Only n_ a_ t_ := by
  have := coreRegRead_keep hs hk_ (s := s) (n := n) (a := a)
  rw [he] at this; exact this

theorem coreRegBytes_only {s : State} {n : Nat} {a : Nat} {size : Nat} : Only 1048600 s (coreRegBytes s n a size).2 := by
  unfold coreRegBytes
  try dsimp only
  all_goals (repeat' (first
    | with_reducible apply Only.refl
    | with_reducible apply coreRegRead_keep rfl
    | with_reducible apply coreRegRead_keepE rfl (by assumption)
    | with_reducible apply Only.ite
    | with_reducible apply Only.ite2
    | split
    | dsimp only
    | intro _))
theorem coreRegBytes_keep {s : State} {n : Nat} {a : Nat} {size : Nat} (hs : sub 1048600 n_ = true) (hk_ : Only n_ a_ s) : Only n_ a_ (coreRegBytes s n a size).2 := coreRegBytes_only.step hs hk_
theorem coreRegBytes_keepE {s : State} {n : Nat} {a : Nat} {size : Nat} {y0_ : List Byte} {t_ : State} (hs : sub 1048600 n_ = true) (he : coreRegBytes s n a size = (y0_, t_)) (hk_ : Only n_ a_ s) : Only n_ a_ t_ := by
  have := coreRegBytes_keep hs hk_ (s := s) (n := n) (a := a) (size := size)
  rw [he] at this; exact this

theorem coreRead_only {s : State} {n : Nat} {a : Nat} {size : Nat} : Only 1048600 s (coreRead s n a size).2 := by
  unfold coreRead
  dsimp only
  generalize corePlace s n a size .read = p
  cases p with
  | instr o => exact .refl
  | work o => exact .refl
  | buf o => exact .refl
  | clock lo => exact latchPut_keep rfl .refl
  | reg x => exact coreRegBytes_keep rfl .refl
  | outside => exact .refl
theorem coreRead_keep {s : State} {n : Nat} {a : Nat} {size : Nat} (hs : sub 1048600 n_ = true) (hk_ : Only n_ a_ s) : Only n_ a_ (coreRead s n a size).2 := coreRead_only.step hs hk_
theorem coreRead_keepE {s : State} {n : Nat} {a : Nat} {size : Nat} {y0_ : List Byte} {t_ : State} (hs : sub 1048600 n_ = true) (he : coreRead s n a size = (y0_, t_)) (hk_ : Only n_ a_ s) : Only n_ a_ t_ := by
  have := coreRead_keep hs hk_ (s := s) (n := n) (a := a) (size := size)
  rw [he] at this; exact this

theorem coreRegWrite_only {s : State} {n : Nat} {a : Nat} {v : Word} : Only 2346067 s (coreRegWrite s n a v) := by
  unfold coreRegWrite
  try dsimp only
  all_goals (repeat' (first
    | with_reducible apply Only.refl
    | with_reducible apply opWrite_keep rfl
    | with_reducible apply dmaRegWrite_keep rfl
    | with_reducible apply ignWrite_keep rfl
    | with_reducible apply Only.ite
    | fail_if_no_progress (with_reducible apply Only.upd rfl)
    | split
    | dsimp only
    | intro _))
theorem coreRegWrite_keep {s : State} {n : Nat} {a : Nat} {v : Word} (hs : sub 2346067 n_ = true) (hk_ : Only n_ a_ s) : Only n_ a_ (coreRegWrite s n a v) := coreRegWrite_only.step hs hk_

theorem coreWrite_only {s : State} {n : Nat} {a : Nat} {bs : List Byte} : Only 2346067 s (coreWrite s n a bs) := by
  unfold coreWrite
  generalize corePlace s n a bs.length .write = p
  cases p with
  | instr o => exact .refl
  | work o => exact corePut_keep rfl .refl
  | buf o => exact bufWrite_keep rfl .refl
  | clock lo => exact .refl
  | reg x =>
    dsimp only
    apply Only.ite <;> intro _
    · exact narrowWrite_keep rfl .refl
    · apply Only.ite <;> intro _
      · exact coreRegWrite_keep rfl (coreRegWrite_keep rfl .refl)
      · exact coreRegWrite_keep rfl .refl
  | outside => exact .refl
theorem coreWrite_keep {s : State} {n : Nat} {a : Nat} {bs : List Byte} (hs : sub 2346067 n_ = true) (hk_ : Only n_ a_ s) : Only n_ a_ (coreWrite s n a bs) := coreWrite_only.step hs hk_

theorem freeAddr_only {s : State} : Only 2 s (freeAddr s).2 := by
  unfold freeAddr
  try dsimp only
  all_goals (repeat' (first
    | with_reducible apply Only.refl
    | with_reducible apply freeWord_keep rfl
    | with_reducible apply freeWord_keepE rfl (by assumption)
    | split
    | dsimp only
    | intro _))
theorem freeAddr_keep {s : State} (hs : sub 2 n_ = true) (hk_ : Only n_ a_ s) : Only n_ a_ (freeAddr s).2 := freeAddr_only.step hs hk_
theorem freeAddr_keepE {s : State} {y0_ : Nat} {t_ : State} (hs : sub 2 n_ = true) (he : freeAddr s = (y0_, t_)) (hk_ : Only n_ a_ s) : Only n_ a_ t_ := by
  have := freeAddr_keep hs hk_ (s := s)
  rw [he] at this; exact this

theorem entryTarget_only {s : State} {k : Core} : Only 2 s (entryTarget s k).2 := by
  unfold entryTarget
  try dsimp only
  all_goals (repeat' (first
    | with_reducible apply Only.refl
    | with_reducible apply freeAddr_keep rfl
    | with_reducible apply freeAddr_keepE rfl (by assumption)
    | with_reducible apply Only.ite
    | with_reducible apply Only.ite2
    | split
    | dsimp only
    | intro _))
theorem entryTarget_keep {s : State} {k : Core} (hs : sub 2 n_ = true) (hk_ : Only n_ a_ s) : Only n_ a_ (entryTarget s k).2 := entryTarget_only.step hs hk_
theorem entryTarget_keepE {s : State} {k : Core} {y0_ : Nat} {t_ : State} (hs : sub 2 n_ = true) (he : entryTarget s k = (y0_, t_)) (hk_ : Only n_ a_ s) : Only n_ a_ t_ := by
  have := entryTarget_keep hs hk_ (s := s) (k := k)
  rw [he] at this; exact this

theorem coreEnter_only {s : State} {n : Nat} {ecause : Nat} {eaddr : Option Nat} {off : Nat} : Only 65538 s (coreEnter s n ecause eaddr off) := by
  unfold coreEnter
  try dsimp only
  all_goals (repeat' (first
    | with_reducible apply Only.refl
    | with_reducible apply entryTarget_keep rfl
    | with_reducible apply entryTarget_keepE rfl (by assumption)
    | with_reducible apply corePut_keep rfl
    | split
    | dsimp only
    | intro _))
theorem coreEnter_keep {s : State} {n : Nat} {ecause : Nat} {eaddr : Option Nat} {off : Nat} (hs : sub 65538 n_ = true) (hk_ : Only n_ a_ s) : Only n_ a_ (coreEnter s n ecause eaddr off) := coreEnter_only.step hs hk_

theorem coreExc_only {s : State} {n : Nat} {cause : Nat} {addr : Option Nat} : Only 3009619 s (coreExc s n cause addr) := by
  unfold coreExc
  try dsimp only
  all_goals (repeat' (first
    | with_reducible apply Only.refl
    | with_reducible apply freeAddr_keep rfl
    | with_reducible apply freeAddr_keepE rfl (by assumption)
    | with_reducible apply coreStopped_keep rfl
    | with_reducible apply corePut_keep rfl
    | with_reducible apply stopCheck_keep rfl
    | with_reducible apply tallyPut_keep rfl
    | with_reducible apply coreEnter_keep rfl
    | with_reducible apply Only.ite
    | with_reducible apply Only.ite2
    | split
    | dsimp only
    | intro _))
theorem coreExc_keep {s : State} {n : Nat} {cause : Nat} {addr : Option Nat} (hs : sub 3009619 n_ = true) (hk_ : Only n_ a_ s) : Only n_ a_ (coreExc s n cause addr) := coreExc_only.step hs hk_

theorem execTakeInterrupt_only {core : Nat} {s : State} : OOnly 65538 s (execTakeInterrupt core s) := by
  unfold execTakeInterrupt
  try dsimp only
  all_goals (repeat' (first
    | with_reducible apply Only.refl
    | with_reducible apply coreEnter_keep rfl
    | with_reducible apply Only.ite
    | with_reducible apply OOnly.ite
    | with_reducible apply OOnly.next
    | split
    | dsimp only
    | intro _))

theorem opndsFail_only {s : State} {n : Nat} {l : List Opnd} {c a : Nat} {t : State} (h : opndsFail s n l = some (c, a, t)) : Only 2128 s t := by
  induction l with
  | nil => cases h
  | cons o l ih =>
    unfold opndsFail at h
    generalize o.ea = e at h
    cases e with
    | addr b =>
      dsimp only at h
      split at h
      · rename_i x hx
        cases h
        obtain ⟨k, _, hk⟩ := List.exists_of_findSome?_eq_some hx
        split at hk
        · rename_i he
          cases hk
          exact accCheck_keepE rfl he .refl
        · cases hk
      · exact ih h
    | value v => exact ih h
    | modulo => exact ih h
theorem opndsFail_keep {s : State} {n : Nat} {z2 : List Opnd} {y0_ : Nat} {y1_ : Nat} {t_ : State} (hs : sub 2128 n_ = true) (he : opndsFail s n z2 = some (y0_, y1_, t_)) (hk_ : Only n_ a_ s) : Only n_ a_ t_ := (opndsFail_only he).step hs hk_

theorem withOpnds_only {s : State} {n : Nat} {i : GInstr} {f : State → List Opnd → GRes} {m : Nat} (hm : sub 67664 m = true) (hf : ∀ t os, Only m s t → GOnly m s (f t os)) : GOnly m s (withOpnds s n i f) := by
  unfold withOpnds
  dsimp only
  apply GOnly.ite <;> intro _
  · exact Only.refl
  · split
    · rename_i he; exact opndsFail_keep (sub_trans rfl hm) he .refl
    · exact hf _ _ (corePut_keep (sub_trans rfl hm) .refl)

theorem opndRead_only {s : State} {n : Nat} {o : Opnd} : Only 1048600 s (opndRead s n o).2 := by
  unfold opndRead
  generalize o.ea = e
  cases e with
  | addr a => exact coreRead_keep rfl .refl
  | value v => exact .refl
  | modulo => exact .refl
theorem opndRead_keep {s : State} {n : Nat} {o : Opnd} (hs : sub 1048600 n_ = true) (hk_ : Only n_ a_ s) : Only n_ a_ (opndRead s n o).2 := opndRead_only.step hs hk_
theorem opndRead_keepE {s : State} {n : Nat} {o : Opnd} {y0_ : Nat} {t_ : State} (hs : sub 1048600 n_ = true) (he : opndRead s n o = (y0_, t_)) (hk_ : Only n_ a_ s) : Only n_ a_ t_ := by
  have := opndRead_keep hs hk_ (s := s) (n := n) (o := o)
  rw [he] at this; exact this

theorem opndsRead_only {s : State} {n : Nat} {l : List Opnd} : Only 1048600 s (opndsRead s n l).2 := by
  induction l generalizing s with
  | nil => exact .refl
  | cons o t ih =>
    unfold opndsRead
    apply Only.ite2 <;> intro _
    · exact (opndRead_keep rfl .refl).trans ih
    · exact ih
theorem opndsRead_keep {s : State} {n : Nat} {z2 : List Opnd} (hs : sub 1048600 n_ = true) (hk_ : Only n_ a_ s) : Only n_ a_ (opndsRead s n z2).2 := opndsRead_only.step hs hk_
theorem opndsRead_keepE {s : State} {n : Nat} {z2 : List Opnd} {y0_ : List Nat} {t_ : State} (hs : sub 1048600 n_ = true) (he : opndsRead s n z2 = (y0_, t_)) (hk_ : Only n_ a_ s) : Only n_ a_ t_ := by
  have := opndsRead_keep hs hk_ (s := s) (n := n) (z2 := z2)
  rw [he] at this; exact this

theorem opndWrite_only {s : State} {n : Nat} {os : List Opnd} {v : Nat} : Only 2346067 s (opndWrite s n os v) := by
  unfold opndWrite
  try dsimp only
  all_goals (repeat' (first
    | with_reducible apply Only.refl
    | with_reducible apply coreWrite_keep rfl
    | split
    | dsimp only
    | intro _))
theorem opndWrite_keep {s : State} {n : Nat} {os : List Opnd} {v : Nat} (hs : sub 2346067 n_ = true) (hk_ : Only n_ a_ s) : Only n_ a_ (opndWrite s n os v) := opndWrite_only.step hs hk_

theorem coreAdvance_only {s : State} {n : Nat} {len : Nat} : Only 65536 s (coreAdvance s n len) := by
  unfold coreAdvance
  try dsimp only
  all_goals (repeat' (first
    | with_reducible apply Only.refl
    | with_reducible apply corePut_keep rfl
    | with_reducible apply Only.ite
    | split
    | dsimp only
    | intro _))
theorem coreAdvance_keep {s : State} {n : Nat} {len : Nat} (hs : sub 65536 n_ = true) (hk_ : Only n_ a_ s) : Only n_ a_ (coreAdvance s n len) := coreAdvance_only.step hs hk_

theorem coreBranch_only {s : State} {n : Nat} {i : GInstr} {target : Option Nat} : Only 65536 s (coreBranch s n i target) := by
  unfold coreBranch
  try dsimp only
  all_goals (repeat' (first
    | with_reducible apply Only.refl
    | with_reducible apply corePut_keep rfl
    | dsimp only
    | intro _))
theorem coreBranch_keep {s : State} {n : Nat} {i : GInstr} {target : Option Nat} (hs : sub 65536 n_ = true) (hk_ : Only n_ a_ s) : Only n_ a_ (coreBranch s n i target) := coreBranch_only.step hs hk_

theorem coreFetch_keepF {s : State} {n : Nat} {t : State} {c : Nat} (hs : sub 2128 n_ = true) (he : coreFetch s n = .fail t c) (h : Only n_ a_ s) : Only n_ a_ t := by
  unfold coreFetch at he
  dsimp only at he
  split at he
  · rename_i hx; cases he; exact accCheck_keepE hs hx h
  · split at he
    · cases he
    · split at he
      · rename_i hx; cases he; exact accCheck_keepE hs hx h
      · cases he

theorem coreFinish_keep {s : State} {n : Nat} {i : GInstr} {r : GRes} (hs : sub 3009619 n_ = true) (h0 : Only n_ a_ s) (h : GOnly n_ s r) : Only n_ a_ (coreFinish s n i r) := by
  have g := GOnly.trans h0 h
  cases r with
  | done t => exact coreAdvance_keep (sub_trans rfl hs) g
  | branch t a => exact coreBranch_keep (sub_trans rfl hs) g
  | stay t => exact g
  | jump t => exact corePut_keep (sub_trans rfl hs) g
  | halt t => exact coreHalt_keep (sub_trans rfl hs) (coreAdvance_keep (sub_trans rfl hs) g)
  | exc t c a => exact coreExc_keep (sub_trans rfl hs) g
  | wait => exact h0

theorem gulosRun_only {s : State} {n : Nat} {g : GOp} {f : State → Nat → GInstr → GRes} {m : Nat} (hm : sub 3009619 m = true) (hf : ∀ x0 x1 x2, GOnly m x0 (f x0 x1 x2)) : Only m s (gulosRun s n g f) := by
  unfold gulosRun
  apply Only.ite <;> intro _
  · exact .refl
  · split
    · apply Only.ite <;> intro _
      · exact .refl
      · apply Only.ite <;> intro _
        · apply Only.ite <;> intro _
          · exact coreBranch_keep (sub_trans rfl hm) .refl
          · exact coreAdvance_keep (sub_trans rfl hm) .refl
        · apply Only.ite <;> intro _
          · exact coreExc_keep (sub_trans rfl hm) .refl
          · apply Only.ite <;> intro _
            · exact coreExc_keep (sub_trans rfl hm) .refl
            · exact coreFinish_keep (sub_trans rfl hm) .refl (hf _ _ _)
    · rename_i he
      apply Only.ite <;> intro _
      · exact coreExc_keep (sub_trans rfl hm) (coreFetch_keepF (sub_trans rfl hm) he .refl)
      · exact .refl
    · apply Only.ite <;> intro _
      · exact coreExc_keep (sub_trans rfl hm) .refl
      · exact .refl
theorem gulosRun_keep {s : State} {n : Nat} {g : GOp} {f : State → Nat → GInstr → GRes} (hs : sub 3009619 n_ = true) (hf : ∀ x0 x1 x2, GOnly n_ x0 (f x0 x1 x2)) (hk_ : Only n_ a_ s) : Only n_ a_ (gulosRun s n g f) := hk_.trans (gulosRun_only hs hf)

theorem stepDone_only {s : State} {t : State} {n : Nat} : Only 65536 t (stepDone s t n) := by
  unfold stepDone
  try dsimp only
  all_goals (repeat' (first
    | with_reducible apply Only.refl
    | with_reducible apply corePut_keep rfl
    | with_reducible apply Only.ite
    | split
    | dsimp only
    | intro _))
theorem stepDone_keep {s : State} {t : State} {n : Nat} (hs : sub 65536 n_ = true) (hk_ : Only n_ a_ t) : Only n_ a_ (stepDone s t n) := stepDone_only.step hs hk_

theorem gulos_only {s : State} {n : Nat} {g : GOp} {f : State → Nat → GInstr → GRes} {m : Nat} (hm : sub 3009619 m = true) (hf : ∀ x0 x1 x2, GOnly m x0 (f x0 x1 x2)) : Only m s (gulos s n g f) := by
  unfold gulos
  try dsimp only
  all_goals (repeat' (first
    | with_reducible apply Only.refl
    | with_reducible assumption
    | with_reducible apply hf
    | with_reducible apply stepDone_keep (sub_trans rfl hm)
    | with_reducible apply gulosRun_keep (sub_trans rfl hm)
    | dsimp only
    | intro _))
theorem gulos_keep {s : State} {n : Nat} {g : GOp} {f : State → Nat → GInstr → GRes} (hs : sub 3009619 n_ = true) (hf : ∀ x0 x1 x2, GOnly n_ x0 (f x0 x1 x2)) (hk_ : Only n_ a_ s) : Only n_ a_ (gulos s n g f) := hk_.trans (gulos_only hs hf)

theorem wideSel_only {s : State} {r : Requester} {queue : Bool} {v : Word} : Only 16 s (wideSel s r queue v) := by
  unfold wideSel
  try dsimp only
  all_goals (repeat' (first
    | with_reducible apply Only.refl
    | with_reducible apply widePut_keep rfl
    | with_reducible apply Only.ite
    | split
    | dsimp only
    | intro _))
theorem wideSel_keep {s : State} {r : Requester} {queue : Bool} {v : Word} (hs : sub 16 n_ = true) (hk_ : Only n_ a_ s) : Only n_ a_ (wideSel s r queue v) := wideSel_only.step hs hk_

theorem wideCapture_only {s : State} {r : Requester} {queue : Bool} {v : Word} : Only 16 s (wideCapture s r queue v) := by
  unfold wideCapture
  try dsimp only
  all_goals (repeat' (first
    | with_reducible apply Only.refl
    | with_reducible apply widePut_keep rfl
    | with_reducible apply Only.ite
    | split
    | dsimp only
    | intro _))
theorem wideCapture_keep {s : State} {r : Requester} {queue : Bool} {v : Word} (hs : sub 16 n_ = true) (hk_ : Only n_ a_ s) : Only n_ a_ (wideCapture s r queue v) := wideCapture_only.step hs hk_

theorem hemIgn_only {s : State} {c : Nat} : Only 16 s (hemIgn s c) := by
  unfold hemIgn
  try dsimp only
  all_goals (repeat' (first
    | with_reducible apply Only.refl
    | with_reducible apply regAdd_keep rfl
    | dsimp only
    | intro _))
theorem hemIgn_keep {s : State} {c : Nat} (hs : sub 16 n_ = true) (hk_ : Only n_ a_ s) : Only n_ a_ (hemIgn s c) := hemIgn_only.step hs hk_

theorem cpwTake_only {s : State} {b : Blk} {addr : Nat} {d : RegDesc} {v : Word} : Only 6220885 s (cpwTake s b addr d v) := by
  unfold cpwTake
  try dsimp only
  all_goals (repeat' (first
    | with_reducible apply Only.refl
    | with_reducible apply corrHold_keep rfl
    | with_reducible apply regPut_keep rfl
    | with_reducible apply rngConfig_keep rfl
    | with_reducible apply rngTestWrite_keep rfl
    | with_reducible apply portSetCfg_keep rfl
    | with_reducible apply gpioSecure_keep rfl
    | with_reducible apply hemIgn_keep rfl
    | with_reducible apply hemOverlap_keep rfl
    | with_reducible apply thmRestart_keep rfl
    | with_reducible apply Only.ite
    | fail_if_no_progress (with_reducible apply Only.upd rfl)
    | split
    | dsimp only
    | intro _))
theorem cpwTake_keep {s : State} {b : Blk} {addr : Nat} {d : RegDesc} {v : Word} (hs : sub 6220885 n_ = true) (hk_ : Only n_ a_ s) : Only n_ a_ (cpwTake s b addr d v) := cpwTake_only.step hs hk_

theorem ndlCtrl_only {s : State} {n : Nat} {v : Word} : Only 3009617 s (ndlCtrl s n v) := by
  unfold ndlCtrl
  try dsimp only
  all_goals (repeat' (first
    | with_reducible apply Only.refl
    | with_reducible apply corePut_keep rfl
    | with_reducible apply coreHalt_keep rfl
    | with_reducible apply coreNote_keep rfl
    | with_reducible apply Only.ite
    | split
    | dsimp only
    | intro _))
theorem ndlCtrl_keep {s : State} {n : Nat} {v : Word} (hs : sub 3009617 n_ = true) (hk_ : Only n_ a_ s) : Only n_ a_ (ndlCtrl s n v) := ndlCtrl_only.step hs hk_

theorem aruWrite_only {s : State} {addr : Nat} {w : Word} : Only 16 s (aruWrite s addr w) := by
  unfold aruWrite
  try dsimp only
  all_goals (repeat' (first
    | with_reducible apply Only.refl
    | with_reducible apply regAdd_keep rfl
    | with_reducible apply regPut_keep rfl
    | with_reducible apply Only.ite
    | split
    | dsimp only
    | intro _))
theorem aruWrite_keep {s : State} {addr : Nat} {w : Word} (hs : sub 16 n_ = true) (hk_ : Only n_ a_ s) : Only n_ a_ (aruWrite s addr w) := aruWrite_only.step hs hk_

theorem plainTake_only {s : State} {r : Requester} {b : Blk} {addr : Nat} {d : RegDesc} {v : Word} : Only 24116823 s (plainTake s r b addr d v) := by
  unfold plainTake
  try dsimp only
  all_goals (repeat' (first
    | with_reducible apply Only.refl
    | with_reducible apply regPut_keep rfl
    | with_reducible apply mbxGo_keep rfl
    | with_reducible apply lcsReq_keep rfl
    | with_reducible apply ignWrite_keep rfl
    | with_reducible apply wideSel_keep rfl
    | with_reducible apply wideCapture_keep rfl
    | with_reducible apply opWrite_keep rfl
    | with_reducible apply portPut_keep rfl
    | with_reducible apply dmaRegWrite_keep rfl
    | with_reducible apply evtFire_keep rfl
    | with_reducible apply timerSet_keep rfl
    | with_reducible apply aruWrite_keep rfl
    | with_reducible apply hemIgn_keep rfl
    | with_reducible apply ndlCtrl_keep rfl
    | with_reducible apply thmRspHead_keep rfl
    | with_reducible apply Only.ite
    | fail_if_no_progress (with_reducible apply Only.upd rfl)
    | split
    | dsimp only
    | intro _))
theorem plainTake_keep {s : State} {r : Requester} {b : Blk} {addr : Nat} {d : RegDesc} {v : Word} (hs : sub 24116823 n_ = true) (hk_ : Only n_ a_ s) : Only n_ a_ (plainTake s r b addr d v) := plainTake_only.step hs hk_

theorem clearTake_only {s : State} {b : Blk} {addr : Nat} {v : Word} : Only 65552 s (clearTake s b addr v) := by
  unfold clearTake
  try dsimp only
  all_goals (repeat' (first
    | with_reducible apply Only.refl
    | with_reducible apply dmaEvtClear_keep rfl
    | with_reducible apply sqcClearAt_keep rfl
    | with_reducible apply Only.ite
    | split
    | dsimp only
    | intro _))
theorem clearTake_keep {s : State} {b : Blk} {addr : Nat} {v : Word} (hs : sub 65552 n_ = true) (hk_ : Only n_ a_ s) : Only n_ a_ (clearTake s b addr v) := clearTake_only.step hs hk_

theorem memPut_only {s : State} {a : Nat} {v : Word} : Only 98337 s (memPut s a v) := by
  unfold memPut
  try dsimp only
  all_goals (repeat' (first
    | with_reducible apply Only.refl
    | with_reducible apply bufWrite_keep rfl
    | with_reducible apply corePut_keep rfl
    | with_reducible apply emit_keep rfl
    | with_reducible apply Only.ite
    | fail_if_no_progress (with_reducible apply Only.upd rfl)
    | split
    | dsimp only
    | intro _))
theorem memPut_keep {s : State} {a : Nat} {v : Word} (hs : sub 98337 n_ = true) (hk_ : Only n_ a_ s) : Only n_ a_ (memPut s a v) := memPut_only.step hs hk_

theorem noRegPut_only {s : State} {r : Requester} {a : Nat} {v : Word} : Only 98353 s (noRegPut s r a v) := by
  unfold noRegPut
  try dsimp only
  all_goals (repeat' (first
    | with_reducible apply Only.refl
    | with_reducible apply ignWrite_keep rfl
    | with_reducible apply noReg_keep rfl
    | with_reducible apply memPut_keep rfl
    | with_reducible apply Only.ite
    | split
    | dsimp only
    | intro _))
theorem noRegPut_keep {s : State} {r : Requester} {a : Nat} {v : Word} (hs : sub 98353 n_ = true) (hk_ : Only n_ a_ s) : Only n_ a_ (noRegPut s r a v) := noRegPut_only.step hs hk_

theorem siteWrite_only {s : State} {r : Requester} {a : Nat} {site : Site} {v : Word} : Only 25165431 s (siteWrite s r a site v) := by
  unfold siteWrite
  try dsimp only
  all_goals (repeat' (first
    | with_reducible apply Only.refl
    | with_reducible apply noRegPut_keep rfl
    | with_reducible apply ignWrite_keep rfl
    | with_reducible apply arrive_keep rfl
    | with_reducible apply guardWrite_keep rfl
    | with_reducible apply guardWrite_keepE rfl (by assumption)
    | with_reducible apply noteHostCpw_keep rfl
    | with_reducible apply cpwTake_keep rfl
    | with_reducible apply busErr_keep rfl
    | with_reducible apply beginPair_keep rfl
    | with_reducible apply clearTake_keep rfl
    | with_reducible apply plainTake_keep rfl
    | with_reducible apply Only.ite
    | with_reducible apply Only.ite2
    | split
    | dsimp only
    | intro _))
theorem siteWrite_keep {s : State} {r : Requester} {a : Nat} {site : Site} {v : Word} (hs : sub 25165431 n_ = true) (hk_ : Only n_ a_ s) : Only n_ a_ (siteWrite s r a site v) := siteWrite_only.step hs hk_

theorem regWriteS_only {s : State} {r : Requester} {a : Nat} {v : Word} : Only 25165431 s (regWriteS s r a v) := by
  unfold regWriteS
  try dsimp only
  all_goals (repeat' (first
    | with_reducible apply Only.refl
    | with_reducible apply coreRegWrite_keep rfl
    | with_reducible apply siteWrite_keep rfl
    | with_reducible apply Only.ite
    | split
    | dsimp only
    | intro _))
theorem regWriteS_keep {s : State} {r : Requester} {a : Nat} {v : Word} (hs : sub 25165431 n_ = true) (hk_ : Only n_ a_ s) : Only n_ a_ (regWriteS s r a v) := regWriteS_only.step hs hk_

theorem hostArrives_only {s : State} {r : Requester} {a : Nat} {write : Bool} {t : State} (hq_ : hostArrives s r a write = some t) : Only 1280474 s t := by
  unfold hostArrives at hq_
  (try dsimp only at hq_)
  (repeat' (split at hq_))
  all_goals (try cases hq_)
  all_goals (repeat' (first
    | with_reducible apply Only.refl
    | with_reducible apply wakeUp_keep rfl
    | with_reducible apply touchFast_keep rfl
    | with_reducible apply Only.ite
    | split
    | dsimp only
    | intro _))
theorem hostArrives_keep {s : State} {r : Requester} {a : Nat} {write : Bool} {t_ : State} (hs : sub 1280474 n_ = true) (he : hostArrives s r a write = some t_) (hk_ : Only n_ a_ s) : Only n_ a_ t_ := (hostArrives_only he).step hs hk_

theorem hostKept_only {s : State} {r : Requester} {a : Nat} {write : Bool} {q : HostReq} : Only 1280474 s (hostKept s r a write q) := by
  unfold hostKept
  try dsimp only
  all_goals (repeat' (first
    | with_reducible apply Only.refl
    | with_reducible apply hostHold_keep rfl
    | with_reducible apply wakeUp_keep rfl
    | with_reducible apply Only.ite
    | split
    | dsimp only
    | intro _))
theorem hostKept_keep {s : State} {r : Requester} {a : Nat} {write : Bool} {q : HostReq} (hs : sub 1280474 n_ = true) (hk_ : Only n_ a_ s) : Only n_ a_ (hostKept s r a write q) := hostKept_only.step hs hk_

theorem regWrite_only {s : State} {r : Requester} {a : Nat} {v : Word} : Only 25165823 s (regWrite s r a v) := by
  unfold regWrite
  try dsimp only
  all_goals (repeat' (first
    | with_reducible apply Only.refl
    | with_reducible apply hostArrives_keep rfl (by assumption)
    | with_reducible apply hostKept_keep rfl
    | with_reducible apply ignWrite_keep rfl
    | with_reducible apply regWriteS_keep rfl
    | with_reducible apply cpCheck_keep rfl
    | with_reducible apply cpCheck_keepE rfl (by assumption)
    | with_reducible apply siteWrite_keep rfl
    | with_reducible apply Only.ite
    | with_reducible apply Only.ite2
    | split
    | dsimp only
    | intro _))
theorem regWrite_keep {s : State} {r : Requester} {a : Nat} {v : Word} (hs : sub 25165823 n_ = true) (hk_ : Only n_ a_ s) : Only n_ a_ (regWrite s r a v) := regWrite_only.step hs hk_

theorem pageTake_only {s : State} {n : Nat} {off : Nat} {v : Word} {at_ : Stamp} : Only 131664 s (pageTake s n off v at_) := by
  unfold pageTake
  try dsimp only
  all_goals (repeat' (first
    | with_reducible apply Only.refl
    | with_reducible apply slicePut_keep rfl
    | with_reducible apply sqcMiss_keep rfl
    | with_reducible apply sqBaseWrite_keep rfl
    | with_reducible apply sqCfg_keep rfl
    | with_reducible apply sqBell_keep rfl
    | with_reducible apply slcIgn_keep rfl
    | with_reducible apply cqBaseWrite_keep rfl
    | with_reducible apply cqCfg_keep rfl
    | with_reducible apply cqBell_keep rfl
    | with_reducible apply cqCoalWrite_keep rfl
    | with_reducible apply Only.ite
    | split
    | dsimp only
    | intro _))
theorem pageTake_keep {s : State} {n : Nat} {off : Nat} {v : Word} {at_ : Stamp} (hs : sub 131664 n_ = true) (hk_ : Only n_ a_ s) : Only n_ a_ (pageTake s n off v at_) := pageTake_only.step hs hk_

theorem pageWriteAny_only {s : State} {r : Requester} {pas : Option Nat} {n : Nat} {off : Nat} {v : Word} : Only 1280986 s (pageWriteAny s r pas n off v) := by
  unfold pageWriteAny
  try dsimp only
  all_goals (repeat' (first
    | with_reducible apply Only.refl
    | with_reducible apply pageWrite_keep rfl
    | with_reducible apply pageTake_keep rfl
    | split
    | dsimp only
    | intro _))
theorem pageWriteAny_keep {s : State} {r : Requester} {pas : Option Nat} {n : Nat} {off : Nat} {v : Word} (hs : sub 1280986 n_ = true) (hk_ : Only n_ a_ s) : Only n_ a_ (pageWriteAny s r pas n off v) := pageWriteAny_only.step hs hk_

theorem execRegisterWrite_only {r : Requester} {pas : Option Nat} {place : RegPlace} {value : Word} {s : State} : OOnly 25165823 s (execRegisterWrite r pas place value s) := by
  unfold execRegisterWrite
  try dsimp only
  all_goals (repeat' (first
    | with_reducible apply Only.refl
    | with_reducible apply regWrite_keep rfl
    | with_reducible apply pageWriteAny_keep rfl
    | with_reducible apply OOnly.ite
    | with_reducible apply OOnly.next
    | split
    | dsimp only
    | intro _))

theorem narrowArrived_only {s : State} {r : Requester} {a : Nat} : Only 48 s (narrowArrived s r a) := by
  unfold narrowArrived
  try dsimp only
  all_goals (repeat' (first
    | with_reducible apply Only.refl
    | with_reducible apply noReg_keep rfl
    | with_reducible apply narrowWrite_keep rfl
    | with_reducible apply arrive_keep rfl
    | with_reducible apply Only.ite
    | split
    | dsimp only
    | intro _))
theorem narrowArrived_keep {s : State} {r : Requester} {a : Nat} (hs : sub 48 n_ = true) (hk_ : Only n_ a_ s) : Only n_ a_ (narrowArrived s r a) := narrowArrived_only.step hs hk_

theorem narrowReg_only {s : State} {r : Requester} {a : Nat} : Only 1280506 s (narrowReg s r a) := by
  unfold narrowReg
  try dsimp only
  all_goals (repeat' (first
    | with_reducible apply Only.refl
    | with_reducible apply hostArrives_keep rfl (by assumption)
    | with_reducible apply hostKept_keep rfl
    | with_reducible apply cpCheck_keep rfl
    | with_reducible apply cpCheck_keepE rfl (by assumption)
    | with_reducible apply narrowArrived_keep rfl
    | with_reducible apply Only.ite
    | with_reducible apply Only.ite2
    | split
    | dsimp only
    | intro _))
theorem narrowReg_keep {s : State} {r : Requester} {a : Nat} (hs : sub 1280506 n_ = true) (hk_ : Only n_ a_ s) : Only n_ a_ (narrowReg s r a) := narrowReg_only.step hs hk_

theorem narrowPage_only {s : State} {r : Requester} {pas : Option Nat} {n : Nat} {off : Nat} : Only 1280986 s (narrowPage s r pas n off) := by
  unfold narrowPage
  try dsimp only
  all_goals (repeat' (first
    | with_reducible apply Only.refl
    | with_reducible apply pageWrite_keep rfl
    | with_reducible apply narrowWrite_keep rfl
    | split
    | dsimp only
    | intro _))
theorem narrowPage_keep {s : State} {r : Requester} {pas : Option Nat} {n : Nat} {off : Nat} (hs : sub 1280986 n_ = true) (hk_ : Only n_ a_ s) : Only n_ a_ (narrowPage s r pas n off) := narrowPage_only.step hs hk_

theorem execNarrowWrite_only {r : Requester} {pas : Option Nat} {place : RegPlace} {s : State} : OOnly 1281018 s (execNarrowWrite r pas place s) := by
  unfold execNarrowWrite
  try dsimp only
  all_goals (repeat' (first
    | with_reducible apply Only.refl
    | with_reducible apply narrowReg_keep rfl
    | with_reducible apply narrowPage_keep rfl
    | with_reducible apply OOnly.ite
    | with_reducible apply OOnly.next
    | split
    | dsimp only
    | intro _))

theorem execSqcClearWrite_only {r : Requester} {addr : Nat} {value : Word} {s : State} : OOnly 25165823 s (execSqcClearWrite r addr value s) := by
  unfold execSqcClearWrite
  try dsimp only
  all_goals (repeat' (first
    | with_reducible apply Only.refl
    | with_reducible apply regWrite_keep rfl
    | with_reducible apply Only.ite
    | with_reducible apply OOnly.ite
    | with_reducible apply OOnly.next
    | split
    | dsimp only
    | intro _))

theorem execCpwValueWrite_only {r : Requester} {addr : Nat} {value : Word} {s : State} : OOnly 25165823 s (execCpwValueWrite r addr value s) := by
  unfold execCpwValueWrite
  try dsimp only
  all_goals (repeat' (first
    | with_reducible apply Only.refl
    | with_reducible apply regWrite_keep rfl
    | with_reducible apply Only.ite
    | with_reducible apply OOnly.ite
    | with_reducible apply OOnly.next
    | split
    | dsimp only
    | intro _))

theorem execCpwGuardWrite_only {r : Requester} {addr : Nat} {value : Word} {s : State} : OOnly 25165823 s (execCpwGuardWrite r addr value s) := by
  unfold execCpwGuardWrite
  try dsimp only
  all_goals (repeat' (first
    | with_reducible apply Only.refl
    | with_reducible apply regWrite_keep rfl
    | with_reducible apply OOnly.ite
    | with_reducible apply OOnly.next
    | split
    | dsimp only
    | intro _))

theorem execCpwPairTimeout_only {block : Nat} {s : State} : OOnly 16 s (execCpwPairTimeout block s) := by
  unfold execCpwPairTimeout
  try dsimp only
  all_goals (repeat' (first
    | with_reducible apply Only.refl
    | with_reducible apply expirePair_keep rfl
    | with_reducible apply OOnly.ite
    | with_reducible apply OOnly.next
    | split
    | dsimp only
    | intro _))

theorem execWideSelWrite_only {r : Requester} {queue : Bool} {value : Word} {s : State} : OOnly 25165823 s (execWideSelWrite r queue value s) := by
  unfold execWideSelWrite
  try dsimp only
  all_goals (repeat' (first
    | with_reducible apply Only.refl
    | with_reducible apply regWrite_keep rfl
    | with_reducible apply OOnly.ite
    | with_reducible apply OOnly.next
    | dsimp only
    | intro _))

theorem execWideCapture_only {r : Requester} {queue : Bool} {value : Word} {s : State} : OOnly 25165823 s (execWideCapture r queue value s) := by
  unfold execWideCapture
  try dsimp only
  all_goals (repeat' (first
    | with_reducible apply Only.refl
    | with_reducible apply regWrite_keep rfl
    | with_reducible apply OOnly.ite
    | with_reducible apply OOnly.next
    | dsimp only
    | intro _))

theorem loHalfRead_only {s : State} {r : Requester} {addr : Nat} : Only 1280507 s (loHalfRead s r addr) := by
  unfold loHalfRead
  try dsimp only
  all_goals (repeat' (first
    | with_reducible apply Only.refl
    | with_reducible apply hostArrives_keep rfl (by assumption)
    | with_reducible apply hostKept_keep rfl
    | with_reducible apply cpCheck_keep rfl
    | with_reducible apply cpCheck_keepE rfl (by assumption)
    | with_reducible apply emit_keep rfl
    | with_reducible apply listedRead_keep rfl
    | with_reducible apply listedRead_keepE rfl (by assumption)
    | with_reducible apply noReg_keep rfl
    | with_reducible apply Only.ite
    | with_reducible apply Only.ite2
    | split
    | dsimp only
    | intro _))
theorem loHalfRead_keep {s : State} {r : Requester} {addr : Nat} (hs : sub 1280507 n_ = true) (hk_ : Only n_ a_ s) : Only n_ a_ (loHalfRead s r addr) := loHalfRead_only.step hs hk_

theorem execLoHalfRead_only {r : Requester} {addr : Nat} {s : State} : OOnly 1280507 s (execLoHalfRead r addr s) := by
  unfold execLoHalfRead
  try dsimp only
  all_goals (repeat' (first
    | with_reducible apply Only.refl
    | with_reducible apply loHalfRead_keep rfl
    | with_reducible apply OOnly.ite
    | with_reducible apply OOnly.next
    | dsimp only
    | intro _))

theorem execTimeNowLoRead_only {r : Requester} {s : State} : OOnly 1280507 s (execTimeNowLoRead r s) := by
  unfold execTimeNowLoRead
  try dsimp only
  all_goals (repeat' (first
    | with_reducible apply Only.refl
    | with_reducible apply loHalfRead_keep rfl
    | with_reducible apply OOnly.ite
    | with_reducible apply OOnly.next
    | dsimp only
    | intro _))

theorem execTimeCtLoRead_only {r : Requester} {s : State} : OOnly 1280507 s (execTimeCtLoRead r s) := by
  unfold execTimeCtLoRead
  try dsimp only
  all_goals (repeat' (first
    | with_reducible apply Only.refl
    | with_reducible apply loHalfRead_keep rfl
    | with_reducible apply OOnly.ite
    | with_reducible apply OOnly.next
    | dsimp only
    | intro _))

theorem longTlp_only {s : State} {fn : Nat} {isWrite : Bool} : Only 1280475 s (longTlp s fn isWrite) := by
  unfold longTlp
  try dsimp only
  all_goals (repeat' (first
    | with_reducible apply Only.refl
    | with_reducible apply hostArrives_keep rfl (by assumption)
    | with_reducible apply hostKept_keep rfl
    | with_reducible apply sqcSet_keep rfl
    | with_reducible apply regAdd_keep rfl
    | with_reducible apply emit_keep rfl
    | with_reducible apply Only.ite
    | split
    | dsimp only
    | intro _))
theorem longTlp_keep {s : State} {fn : Nat} {isWrite : Bool} (hs : sub 1280475 n_ = true) (hk_ : Only n_ a_ s) : Only n_ a_ (longTlp s fn isWrite) := longTlp_only.step hs hk_

theorem atomicOp_only {s : State} {fn : Nat} : Only 1280475 s (atomicOp s fn) := by
  unfold atomicOp
  try dsimp only
  all_goals (repeat' (first
    | with_reducible apply Only.refl
    | with_reducible apply hostArrives_keep rfl (by assumption)
    | with_reducible apply hostKept_keep rfl
    | with_reducible apply emit_keep rfl
    | with_reducible apply sqcSet_keep rfl
    | with_reducible apply regAdd_keep rfl
    | split
    | dsimp only
    | intro _))
theorem atomicOp_keep {s : State} {fn : Nat} (hs : sub 1280475 n_ = true) (hk_ : Only n_ a_ s) : Only n_ a_ (atomicOp s fn) := atomicOp_only.step hs hk_

theorem execLongTlp_only {fn : Nat} {isWrite : Bool} {s : State} : OOnly 1280475 s (execLongTlp fn isWrite s) := by
  unfold execLongTlp
  try dsimp only
  all_goals (repeat' (first
    | with_reducible apply Only.refl
    | with_reducible apply longTlp_keep rfl
    | with_reducible apply OOnly.ite
    | with_reducible apply OOnly.next
    | dsimp only
    | intro _))

theorem execAtomicOpRequest_only {fn : Nat} {s : State} : OOnly 1280475 s (execAtomicOpRequest fn s) := by
  unfold execAtomicOpRequest
  try dsimp only
  all_goals (repeat' (first
    | with_reducible apply Only.refl
    | with_reducible apply atomicOp_keep rfl
    | with_reducible apply OOnly.ite
    | with_reducible apply OOnly.next
    | dsimp only
    | intro _))

theorem heldMake_only {s : State} {q : HostReq} : Only 25165823 s (heldMake s q) := by
  unfold heldMake
  try dsimp only
  all_goals (repeat' (first
    | with_reducible apply Only.refl
    | with_reducible apply regWrite_keep rfl
    | with_reducible apply pageWriteAny_keep rfl
    | with_reducible apply narrowReg_keep rfl
    | with_reducible apply narrowPage_keep rfl
    | with_reducible apply lcsReq_keep rfl
    | with_reducible apply longTlp_keep rfl
    | with_reducible apply atomicOp_keep rfl
    | with_reducible apply loHalfRead_keep rfl
    | with_reducible apply rngServed_keep rfl
    | split
    | dsimp only
    | intro _))
theorem heldMake_keep {s : State} {q : HostReq} (hs : sub 25165823 n_ = true) (hk_ : Only n_ a_ s) : Only n_ a_ (heldMake s q) := heldMake_only.step hs hk_

theorem heldOne_only {s : State} {h : HeldReq} : Only 25165823 s (heldOne s h) := by
  unfold heldOne
  try dsimp only
  all_goals (repeat' (first
    | with_reducible apply Only.refl
    | with_reducible apply heldMake_keep rfl
    | fail_if_no_progress (with_reducible apply Only.upd rfl)
    | dsimp only
    | intro _))
theorem heldOne_keep {s : State} {h : HeldReq} (hs : sub 25165823 n_ = true) (hk_ : Only n_ a_ s) : Only n_ a_ (heldOne s h) := heldOne_only.step hs hk_

theorem heldServe_only {s : State} {all : Bool} : Only 25165823 s (heldServe s all) := by
  unfold heldServe
  try dsimp only
  all_goals (repeat' (first
    | with_reducible apply Only.refl
    | with_reducible apply heldOne_keep rfl
    | with_reducible apply Only.foldl
    | with_reducible apply Only.foldl2
    | fail_if_no_progress (with_reducible apply Only.upd rfl)
    | dsimp only
    | intro _))
theorem heldServe_keep {s : State} {all : Bool} (hs : sub 25165823 n_ = true) (hk_ : Only n_ a_ s) : Only n_ a_ (heldServe s all) := heldServe_only.step hs hk_

theorem exitStep_only {s : State} : Only 25165823 s (exitStep s) := by
  unfold exitStep
  try dsimp only
  all_goals (repeat' (first
    | with_reducible apply Only.refl
    | with_reducible apply regSetBit_keep rfl
    | with_reducible apply heldServe_keep rfl
    | with_reducible apply comeActive_keep rfl
    | with_reducible apply Only.ite
    | split
    | dsimp only
    | intro _))

theorem busWord_only {s : State} {a : Nat} : Only 1048634 s (busWord s a).2 := by
  unfold busWord
  try dsimp only
  all_goals (repeat' (first
    | with_reducible apply Only.refl
    | with_reducible apply regRead_keep rfl
    | with_reducible apply regRead_keepE rfl (by assumption)
    | with_reducible apply freeWord_keep rfl
    | with_reducible apply freeWord_keepE rfl (by assumption)
    | split
    | dsimp only
    | intro _))
theorem busWord_keep {s : State} {a : Nat} (hs : sub 1048634 n_ = true) (hk_ : Only n_ a_ s) : Only n_ a_ (busWord s a).2 := busWord_only.step hs hk_
theorem busWord_keepE {s : State} {a : Nat} {y0_ : Word} {t_ : State} (hs : sub 1048634 n_ = true) (he : busWord s a = (y0_, t_)) (hk_ : Only n_ a_ s) : Only n_ a_ t_ := by
  have := busWord_keep hs hk_ (s := s) (a := a)
  rw [he] at this; exact this

theorem busPut_only {s : State} {a : Nat} {v : Word} : Only 25165431 s (busPut s a v) := by
  unfold busPut
  try dsimp only
  all_goals (repeat' (first
    | with_reducible apply Only.refl
    | with_reducible apply regWriteS_keep rfl
    | with_reducible apply memPut_keep rfl
    | with_reducible apply Only.ite
    | split
    | dsimp only
    | intro _))
theorem busPut_keep {s : State} {a : Nat} {v : Word} (hs : sub 25165431 n_ = true) (hk_ : Only n_ a_ s) : Only n_ a_ (busPut s a v) := busPut_only.step hs hk_

theorem jtagSay_only {s : State} {v : Nat} : Only 1 s (jtagSay s v) := by
  unfold jtagSay
  try dsimp only
  all_goals (repeat' (first
    | with_reducible apply Only.refl
    | with_reducible apply emit_keep rfl
    | dsimp only
    | intro _))
theorem jtagSay_keep {s : State} {v : Nat} (hs : sub 1 n_ = true) (hk_ : Only n_ a_ s) : Only n_ a_ (jtagSay s v) := jtagSay_only.step hs hk_

theorem jtagDo_only {s : State} {q : DebugReq} : Only 25165823 s (jtagDo s q) := by
  unfold jtagDo
  try dsimp only
  all_goals (repeat' (first
    | with_reducible apply Only.refl
    | with_reducible apply corePut_keep rfl
    | with_reducible apply jtagSay_keep rfl
    | with_reducible apply hemCheck_keep rfl
    | with_reducible apply hemCheck_keepE rfl (by assumption)
    | with_reducible apply busWord_keep rfl
    | with_reducible apply busWord_keepE rfl (by assumption)
    | with_reducible apply busPut_keep rfl
    | with_reducible apply comeActive_keep rfl
    | with_reducible apply Only.ite
    | with_reducible apply Only.ite2
    | fail_if_no_progress (with_reducible apply Only.upd rfl)
    | split
    | dsimp only
    | intro _))
theorem jtagDo_keep {s : State} {q : DebugReq} (hs : sub 25165823 n_ = true) (hk_ : Only n_ a_ s) : Only n_ a_ (jtagDo s q) := jtagDo_only.step hs hk_

theorem execJtagDebugRequest_only {req : DebugReq} {s : State} : OOnly 25165823 s (execJtagDebugRequest req s) := by
  unfold execJtagDebugRequest
  try dsimp only
  all_goals (repeat' (first
    | with_reducible apply Only.refl
    | with_reducible apply jtagDo_keep rfl
    | with_reducible apply Only.ite
    | with_reducible apply OOnly.ite
    | with_reducible apply OOnly.next
    | split
    | dsimp only
    | intro _))

end Sys2Proof.Machine
end

