-- ==== Sys2Proof/Laws/FrameNeedle.lean ====
section
/-! SUPPORT. What each operation of these files of Machine/ changes (see Laws/Frame.lean): HostRetry, Needle, Tick. -/

namespace Sys2Proof.Machine

set_option linter.all false
set_option Elab.async false

variable {n_ : Nat} {a_ : State}

theorem dmaPath_only {s : State} {c : Nat} {data : HostRead} {translation : Bool} : Only 25165823 s (dmaDataRead (dmaPath c) s c data translation) :=
  dmaDataRead_only (m := 25165823) rfl (fun s a => by exact regRead_keep (s := s) (r := .dma c) (a := a) rfl .refl) (fun s a w => by exact regWriteS_keep (s := s) (r := .dma c) (a := a) (v := w) rfl .refl)

theorem execDmaReadCompletion_only {chan : Nat} {data : HostRead} {translation : Bool} {s : State} : OOnly 25165823 s (execDmaReadCompletion chan data translation s) := by
  unfold execDmaReadCompletion
  apply OOnly.next
  apply Only.ite <;> intro _
  · exact .refl
  · exact dmaPath_only

theorem fetchAgain_only {s : State} {n : Nat} {k : Nat} {data : HostRead} : Only 4747217 s (fetchAgain s n k data) := by
  unfold fetchAgain
  try dsimp only
  all_goals (repeat' (first
    | with_reducible apply Only.refl
    | with_reducible apply retryDel_keep rfl
    | with_reducible apply ringFail_keep rfl
    | with_reducible apply sqHalt_keep rfl
    | with_reducible apply fetchEntry_keep rfl
    | with_reducible apply Only.ite
    | split
    | dsimp only
    | intro _))
theorem fetchAgain_keep {s : State} {n : Nat} {k : Nat} {data : HostRead} (hs : sub 4747217 n_ = true) (hk_ : Only n_ a_ s) : Only n_ a_ (fetchAgain s n k data) := fetchAgain_only.step hs hk_

theorem writeAgain_only {s : State} {n : Nat} {k : Nat} {ok : Bool} : Only 33550329 s (writeAgain s n k ok) := by
  unfold writeAgain
  try dsimp only
  all_goals (repeat' (first
    | with_reducible apply Only.refl
    | with_reducible apply compTry_keep rfl
    | with_reducible apply deliverTry_keep rfl
    | with_reducible apply retryDel_keep rfl
    | split
    | dsimp only
    | intro _))
theorem writeAgain_keep {s : State} {n : Nat} {k : Nat} {ok : Bool} (hs : sub 33550329 n_ = true) (hk_ : Only n_ a_ s) : Only n_ a_ (writeAgain s n k ok) := writeAgain_only.step hs hk_

theorem accessMeets_only {s : State} {w : HostAccess} {data : HostRead} {translation : Bool} : Only 33554431 s (accessMeets s w data translation) := by
  unfold accessMeets
  try dsimp only
  all_goals (repeat' (first
    | with_reducible apply Only.refl
    | with_reducible apply Only.step dmaPath_only rfl
    | with_reducible apply fetchAgain_keep rfl
    | with_reducible apply writeAgain_keep rfl
    | with_reducible apply dmaDescRead_keep rfl
    | with_reducible apply dmaDataRead_keep rfl
    | split
    | dsimp only
    | intro _))
theorem accessMeets_keep {s : State} {w : HostAccess} {data : HostRead} {translation : Bool} (hs : sub 33554431 n_ = true) (hk_ : Only n_ a_ s) : Only n_ a_ (accessMeets s w data translation) := accessMeets_only.step hs hk_

theorem execHostAccessRetry_only {what : HostAccess} {data : HostRead} {translation : Bool} {s : State} : OOnly 33554431 s (execHostAccessRetry what data translation s) := by
  unfold execHostAccessRetry
  try dsimp only
  all_goals (repeat' (first
    | with_reducible apply Only.refl
    | with_reducible apply accessMeets_keep rfl
    | with_reducible apply regAdd_keep rfl
    | with_reducible apply Only.ite
    | with_reducible apply OOnly.ite
    | with_reducible apply OOnly.next
    | split
    | dsimp only
    | intro _))

theorem fetchFails_only {s : State} {n : Nat} {k : Nat} : Only 4049 s (fetchFails s n k) := by
  unfold fetchFails
  try dsimp only
  all_goals (repeat' (first
    | with_reducible apply Only.refl
    | with_reducible apply ringFail_keep rfl
    | with_reducible apply sqHalt_keep rfl
    | dsimp only
    | intro _))
theorem fetchFails_keep {s : State} {n : Nat} {k : Nat} (hs : sub 4049 n_ = true) (hk_ : Only n_ a_ s) : Only n_ a_ (fetchFails s n k) := fetchFails_only.step hs hk_

theorem execCompletionTimeout_only {what : HostAccess} {s : State} : OOnly 33554431 s (execCompletionTimeout what s) := by
  unfold execCompletionTimeout
  try dsimp only
  all_goals (repeat' (first
    | with_reducible apply Only.refl
    | with_reducible apply sqcSet_keep rfl
    | with_reducible apply regAdd_keep rfl
    | with_reducible apply fetchFails_keep rfl
    | with_reducible apply accessMeets_keep rfl
    | with_reducible apply Only.ite
    | with_reducible apply OOnly.ite
    | with_reducible apply OOnly.next
    | split
    | dsimp only
    | intro _))

theorem runAlu_only {s : State} {n : Nat} {i : GInstr} : GOnly 3394651 s (runAlu s n i) := by
  unfold runAlu
  try dsimp only
  all_goals (repeat' (first
    | with_reducible apply Only.refl
    | with_reducible assumption
    | with_reducible apply withOpnds_only rfl
    | with_reducible apply opndsRead_keep rfl
    | with_reducible apply opndsRead_keepE rfl (by assumption)
    | with_reducible apply freeWord_keep rfl
    | with_reducible apply freeWord_keepE rfl (by assumption)
    | with_reducible apply opndWrite_keep rfl
    | with_reducible apply corePut_keep rfl
    | with_reducible apply Only.ite
    | with_reducible apply Only.ite2
    | with_reducible apply GOnly.ite
    | with_reducible apply GOnly.wait
    | with_reducible apply GOnly.done
    | split
    | dsimp only
    | intro _))

theorem runExtend_only {s : State} {n : Nat} {i : GInstr} : GOnly 3394651 s (runExtend s n i) := by
  unfold runExtend
  try dsimp only
  all_goals (repeat' (first
    | with_reducible apply Only.refl
    | with_reducible assumption
    | with_reducible apply withOpnds_only rfl
    | with_reducible apply opndsRead_keep rfl
    | with_reducible apply opndsRead_keepE rfl (by assumption)
    | with_reducible apply opndWrite_keep rfl
    | with_reducible apply Only.ite
    | with_reducible apply Only.ite2
    | with_reducible apply GOnly.ite
    | with_reducible apply GOnly.wait
    | with_reducible apply GOnly.done
    | split
    | dsimp only
    | intro _))

theorem runLea_only {s : State} {n : Nat} {i : GInstr} : GOnly 2346067 s (runLea s n i) := by
  unfold runLea
  try dsimp only
  all_goals (repeat' (first
    | with_reducible apply Only.refl
    | with_reducible assumption
    | with_reducible apply withOpnds_only rfl
    | with_reducible apply opndWrite_keep rfl
    | with_reducible apply GOnly.ite
    | with_reducible apply GOnly.wait
    | with_reducible apply GOnly.done
    | dsimp only
    | intro _))

theorem runSatq_only {s : State} {n : Nat} {i : GInstr} : GOnly 3394651 s (runSatq s n i) := by
  unfold runSatq
  try dsimp only
  all_goals (repeat' (first
    | with_reducible apply Only.refl
    | with_reducible assumption
    | with_reducible apply withOpnds_only rfl
    | with_reducible apply opndsRead_keep rfl
    | with_reducible apply opndsRead_keepE rfl (by assumption)
    | with_reducible apply opndWrite_keep rfl
    | with_reducible apply corePut_keep rfl
    | with_reducible apply GOnly.ite
    | with_reducible apply GOnly.wait
    | with_reducible apply GOnly.done
    | split
    | dsimp only
    | intro _))

theorem runCmp_only {s : State} {n : Nat} {i : GInstr} : GOnly 1116248 s (runCmp s n i) := by
  unfold runCmp
  try dsimp only
  all_goals (repeat' (first
    | with_reducible apply Only.refl
    | with_reducible assumption
    | with_reducible apply withOpnds_only rfl
    | with_reducible apply opndsRead_keep rfl
    | with_reducible apply opndsRead_keepE rfl (by assumption)
    | with_reducible apply corePut_keep rfl
    | with_reducible apply Only.ite
    | with_reducible apply Only.ite2
    | with_reducible apply GOnly.ite
    | with_reducible apply GOnly.wait
    | with_reducible apply GOnly.done
    | split
    | dsimp only
    | intro _))

theorem runPred_only {s : State} {n : Nat} {i : GInstr} : GOnly 65536 s (runPred s n i) := by
  unfold runPred
  try dsimp only
  all_goals (repeat' (first
    | with_reducible apply Only.refl
    | with_reducible apply corePut_keep rfl
    | with_reducible apply GOnly.ite
    | with_reducible apply GOnly.wait
    | with_reducible apply GOnly.done
    | dsimp only
    | intro _))

theorem runNop_only {s : State} {z1 : Nat} {z2 : GInstr} : GOnly 0 s (runNop s z1 z2) := by
  unfold runNop
  try dsimp only
  all_goals (repeat' (first
    | with_reducible apply Only.refl
    | with_reducible apply GOnly.ite
    | with_reducible apply GOnly.wait
    | with_reducible apply GOnly.done
    | dsimp only
    | intro _))

theorem runBr_only {s : State} {n : Nat} {i : GInstr} : GOnly 67664 s (runBr s n i) := by
  unfold runBr
  try dsimp only
  all_goals (repeat' (first
    | with_reducible apply Only.refl
    | with_reducible assumption
    | with_reducible apply withOpnds_only rfl
    | with_reducible apply Only.ite
    | with_reducible apply GOnly.ite
    | with_reducible apply GOnly.wait
    | with_reducible apply GOnly.branch
    | with_reducible apply GOnly.exc
    | split
    | dsimp only
    | intro _))

theorem runCall_only {s : State} {n : Nat} {i : GInstr} : GOnly 2346067 s (runCall s n i) := by
  unfold runCall
  try dsimp only
  all_goals (repeat' (first
    | with_reducible apply Only.refl
    | with_reducible assumption
    | with_reducible apply withOpnds_only rfl
    | with_reducible apply accCheck_keep rfl
    | with_reducible apply accCheck_keepE rfl (by assumption)
    | with_reducible apply freeAddr_keep rfl
    | with_reducible apply freeAddr_keepE rfl (by assumption)
    | with_reducible apply coreWrite_keep rfl
    | with_reducible apply corePut_keep rfl
    | with_reducible apply Only.ite
    | with_reducible apply Only.ite2
    | with_reducible apply GOnly.ite
    | with_reducible apply GOnly.wait
    | with_reducible apply GOnly.branch
    | with_reducible apply GOnly.exc
    | split
    | dsimp only
    | intro _))

theorem runRet_only {s : State} {n : Nat} {z2 : GInstr} : GOnly 1116248 s (runRet s n z2) := by
  unfold runRet
  try dsimp only
  all_goals (repeat' (first
    | with_reducible apply Only.refl
    | with_reducible apply accCheck_keep rfl
    | with_reducible apply accCheck_keepE rfl (by assumption)
    | with_reducible apply coreRead_keep rfl
    | with_reducible apply coreRead_keepE rfl (by assumption)
    | with_reducible apply corePut_keep rfl
    | with_reducible apply Only.ite
    | with_reducible apply Only.ite2
    | with_reducible apply GOnly.ite
    | with_reducible apply GOnly.wait
    | with_reducible apply GOnly.branch
    | with_reducible apply GOnly.exc
    | split
    | dsimp only
    | intro _))

theorem runRfi_only {s : State} {n : Nat} {z2 : GInstr} : GOnly 65536 s (runRfi s n z2) := by
  unfold runRfi
  try dsimp only
  all_goals (repeat' (first
    | with_reducible apply Only.refl
    | with_reducible apply corePut_keep rfl
    | with_reducible apply Only.ite
    | with_reducible apply GOnly.ite
    | with_reducible apply GOnly.wait
    | with_reducible apply GOnly.jump
    | split
    | dsimp only
    | intro _))

theorem runHalt_only {s : State} {z1 : Nat} {z2 : GInstr} : GOnly 0 s (runHalt s z1 z2) := by
  unfold runHalt
  try dsimp only
  all_goals (repeat' (first
    | with_reducible apply Only.refl
    | with_reducible apply GOnly.ite
    | with_reducible apply GOnly.wait
    | with_reducible apply GOnly.halt
    | dsimp only
    | intro _))

theorem runWait_only {s : State} {n : Nat} {z2 : GInstr} : GOnly 0 s (runWait s n z2) := by
  unfold runWait
  try dsimp only
  all_goals (repeat' (first
    | with_reducible apply Only.refl
    | with_reducible apply Only.ite
    | with_reducible apply GOnly.ite
    | with_reducible apply GOnly.wait
    | with_reducible apply GOnly.done
    | split
    | dsimp only
    | intro _))

theorem runTrap_only {s : State} {n : Nat} {i : GInstr} : GOnly 67664 s (runTrap s n i) := by
  unfold runTrap
  try dsimp only
  all_goals (repeat' (first
    | with_reducible apply Only.refl
    | with_reducible assumption
    | with_reducible apply withOpnds_only rfl
    | with_reducible apply GOnly.ite
    | with_reducible apply GOnly.wait
    | with_reducible apply GOnly.exc
    | dsimp only
    | intro _))

theorem runSignal_only {s : State} {n : Nat} {z2 : GInstr} : GOnly 2162704 s (runSignal s n z2) := by
  unfold runSignal
  try dsimp only
  all_goals (repeat' (first
    | with_reducible apply Only.refl
    | with_reducible apply evPulse_keep rfl
    | with_reducible apply GOnly.ite
    | with_reducible apply GOnly.wait
    | with_reducible apply GOnly.done
    | dsimp only
    | intro _))

theorem crRead_only {s : State} {n : Nat} {i : Nat} : Only 65536 s (crRead s n i).2 := by
  unfold crRead
  try dsimp only
  all_goals (repeat' (first
    | with_reducible apply Only.refl
    | with_reducible apply corePut_keep rfl
    | split
    | dsimp only
    | intro _))
theorem crRead_keep {s : State} {n : Nat} {i : Nat} (hs : sub 65536 n_ = true) (hk_ : Only n_ a_ s) : Only n_ a_ (crRead s n i).2 := crRead_only.step hs hk_
theorem crRead_keepE {s : State} {n : Nat} {i : Nat} {y0_ : Nat} {t_ : State} (hs : sub 65536 n_ = true) (he : crRead s n i = (y0_, t_)) (hk_ : Only n_ a_ s) : Only n_ a_ t_ := by
  have := crRead_keep hs hk_ (s := s) (n := n) (i := i)
  rw [he] at this; exact this

theorem crWrite_only {s : State} {n : Nat} {i : Nat} {v : Nat} : Only 65536 s (crWrite s n i v) := by
  unfold crWrite
  try dsimp only
  all_goals (repeat' (first
    | with_reducible apply Only.refl
    | with_reducible apply corePut_keep rfl
    | split
    | dsimp only
    | intro _))
theorem crWrite_keep {s : State} {n : Nat} {i : Nat} {v : Nat} (hs : sub 65536 n_ = true) (hk_ : Only n_ a_ s) : Only n_ a_ (crWrite s n i v) := crWrite_only.step hs hk_

theorem selRead_only {s : State} {n : Nat} {raw : Nat} : Only 65536 s (selRead s n raw).2 := by
  unfold selRead
  try dsimp only
  all_goals (repeat' (first
    | with_reducible apply Only.refl
    | with_reducible apply crRead_keep rfl
    | with_reducible apply crRead_keepE rfl (by assumption)
    | split
    | dsimp only
    | intro _))
theorem selRead_keep {s : State} {n : Nat} {raw : Nat} (hs : sub 65536 n_ = true) (hk_ : Only n_ a_ s) : Only n_ a_ (selRead s n raw).2 := selRead_only.step hs hk_
theorem selRead_keepE {s : State} {n : Nat} {raw : Nat} {y0_ : Nat} {t_ : State} (hs : sub 65536 n_ = true) (he : selRead s n raw = (y0_, t_)) (hk_ : Only n_ a_ s) : Only n_ a_ t_ := by
  have := selRead_keep hs hk_ (s := s) (n := n) (raw := raw)
  rw [he] at this; exact this

theorem selWrite_only {s : State} {n : Nat} {raw : Nat} {v : Nat} : Only 65536 s (selWrite s n raw v) := by
  unfold selWrite
  try dsimp only
  all_goals (repeat' (first
    | with_reducible apply Only.refl
    | with_reducible apply corePut_keep rfl
    | with_reducible apply crWrite_keep rfl
    | with_reducible apply Only.ite
    | split
    | dsimp only
    | intro _))
theorem selWrite_keep {s : State} {n : Nat} {raw : Nat} {v : Nat} (hs : sub 65536 n_ = true) (hk_ : Only n_ a_ s) : Only n_ a_ (selWrite s n raw v) := selWrite_only.step hs hk_

theorem runLdr_only {s : State} {n : Nat} {i : GInstr} : GOnly 1116248 s (runLdr s n i) := by
  unfold runLdr
  try dsimp only
  all_goals (repeat' (first
    | with_reducible apply Only.refl
    | with_reducible assumption
    | with_reducible apply withOpnds_only rfl
    | with_reducible apply opndsRead_keep rfl
    | with_reducible apply opndsRead_keepE rfl (by assumption)
    | with_reducible apply selWrite_keep rfl
    | with_reducible apply Only.ite
    | with_reducible apply Only.ite2
    | with_reducible apply GOnly.ite
    | with_reducible apply GOnly.wait
    | with_reducible apply GOnly.done
    | with_reducible apply GOnly.exc
    | split
    | dsimp only
    | intro _))

theorem runStr_only {s : State} {n : Nat} {i : GInstr} : GOnly 2346067 s (runStr s n i) := by
  unfold runStr
  try dsimp only
  all_goals (repeat' (first
    | with_reducible apply Only.refl
    | with_reducible assumption
    | with_reducible apply withOpnds_only rfl
    | with_reducible apply selRead_keep rfl
    | with_reducible apply selRead_keepE rfl (by assumption)
    | with_reducible apply corePut_keep rfl
    | with_reducible apply opndWrite_keep rfl
    | with_reducible apply Only.ite
    | with_reducible apply Only.ite2
    | with_reducible apply GOnly.ite
    | with_reducible apply GOnly.wait
    | with_reducible apply GOnly.done
    | split
    | dsimp only
    | intro _))

theorem runAddr_only {s : State} {n : Nat} {i : GInstr} : GOnly 1116248 s (runAddr s n i) := by
  unfold runAddr
  try dsimp only
  all_goals (repeat' (first
    | with_reducible apply Only.refl
    | with_reducible assumption
    | with_reducible apply withOpnds_only rfl
    | with_reducible apply opndsRead_keep rfl
    | with_reducible apply opndsRead_keepE rfl (by assumption)
    | with_reducible apply selRead_keep rfl
    | with_reducible apply selRead_keepE rfl (by assumption)
    | with_reducible apply selWrite_keep rfl
    | with_reducible apply GOnly.ite
    | with_reducible apply GOnly.wait
    | with_reducible apply GOnly.done
    | split
    | dsimp only
    | intro _))

theorem runEvtake_only {s : State} {n : Nat} {i : GInstr} : GOnly 2346067 s (runEvtake s n i) := by
  unfold runEvtake
  try dsimp only
  all_goals (repeat' (first
    | with_reducible apply Only.refl
    | with_reducible assumption
    | with_reducible apply withOpnds_only rfl
    | with_reducible apply opndWrite_keep rfl
    | with_reducible apply corePut_keep rfl
    | with_reducible apply Only.ite
    | with_reducible apply GOnly.ite
    | with_reducible apply GOnly.wait
    | with_reducible apply GOnly.done
    | with_reducible apply GOnly.exc
    | split
    | dsimp only
    | intro _))

theorem runBlock_only {s : State} {n : Nat} {i : GInstr} : GOnly 3394651 s (runBlock s n i) := by
  unfold runBlock
  apply GOnly.ite <;> intro _
  · exact GOnly.done .refl
  · have h := runAlu_only (s := s) (n := n) (i := i)
    split
    · rename_i he
      rw [he] at h
      dsimp only
      apply GOnly.ite <;> intro _
      · exact GOnly.done (corePut_keep rfl h)
      · exact GOnly.stay (corePut_keep rfl h)
    · exact h

theorem portTake_only {s : State} {hs : List Nat} {t : State} {y0 : Bool} (hq_ : portTake s hs = some (t, y0)) : Only 8415315 s t := by
  unfold portTake at hq_
  have hn : ∀ l : List Nat, l.foldl (fun (b : Option (State × Bool)) h => b.bind (fun x =>
      if !x.2 then some x else (portLease x.1 h).map (fun y => if y.2 then (cacheUse y.1 h, true) else y))) none = none := by
    intro l
    induction l with
    | nil => rfl
    | cons x l ih => exact ih
  suffices h : ∀ (l : List Nat) (a : State) (b : Bool), l.foldl (fun (b : Option (State × Bool)) h => b.bind (fun x =>
      if !x.2 then some x else (portLease x.1 h).map (fun y => if y.2 then (cacheUse y.1 h, true) else y))) (some (a, b)) = some (t, y0) →
      Only 8415315 a t from h _ _ _ hq_
  intro l
  induction l with
  | nil => intro a b e; cases e; exact .refl
  | cons x l ih =>
    intro a b e
    rw [List.foldl_cons, Option.bind_some] at e
    split at e
    · exact ih _ _ e
    · cases he : portLease a x with
      | none => rw [he] at e; rw [Option.map_none, hn] at e; cases e
      | some u =>
        rw [he, Option.map_some] at e
        have hu : Only 8415315 a u.1 := portLease_keep rfl he .refl
        split at e
        · exact (cacheUse_keep rfl hu).trans (ih _ _ e)
        · exact hu.trans (ih _ _ e)
theorem portTake_keep {s : State} {hsx : List Nat} {t_ : State} {y0_ : Bool} (hs : sub 8415315 n_ = true) (he : portTake s hsx = some (t_, y0_)) (hk_ : Only n_ a_ s) : Only n_ a_ t_ := (portTake_only he).step hs hk_

theorem pressIssue_only {s : State} {n : Nat} {st : Nat} {d : List Byte} : GOnly 9791579 s (pressIssue s n st d) := by
  unfold pressIssue
  try dsimp only
  all_goals (repeat' (first
    | with_reducible apply Only.refl
    | with_reducible apply touchFast_keep rfl
    | with_reducible apply corePut_keep rfl
    | with_reducible apply portTake_keep rfl (by assumption)
    | with_reducible apply pressEnter_keep rfl
    | with_reducible apply Only.ite
    | with_reducible apply GOnly.ite
    | with_reducible apply GOnly.wait
    | with_reducible apply GOnly.done
    | split
    | dsimp only
    | intro _))

theorem runPrsIssue_only {s : State} {n : Nat} {i : GInstr} : GOnly 9791579 s (runPrsIssue s n i) := by
  unfold runPrsIssue
  apply withOpnds_only rfl
  intro t os h
  dsimp only
  with_reducible apply GOnly.ite <;> intro _
  · exact GOnly.exc .refl
  with_reducible apply GOnly.ite <;> intro _
  · exact GOnly.wait
  with_reducible apply GOnly.ite <;> intro _
  · exact GOnly.exc .refl
  with_reducible apply GOnly.ite <;> intro _
  · exact GOnly.exc .refl
  · with_reducible refine GOnly.trans h (GOnly.mono rfl pressIssue_only)

theorem portEnter_only {s : State} {a : MangleOp} : Only 786432 s (portEnter s a) := by
  unfold portEnter
  try dsimp only
  all_goals (repeat' (first
    | with_reducible apply Only.refl
    | with_reducible apply hashEnter_keep rfl
    | with_reducible apply mangleEnter_keep rfl
    | dsimp only
    | intro _))
theorem portEnter_keep {s : State} {a : MangleOp} (hs : sub 786432 n_ = true) (hk_ : Only n_ a_ s) : Only n_ a_ (portEnter s a) := portEnter_only.step hs hk_

theorem portEnter2_only {s : State} {a : MangleOp} {b : MangleOp} : Only 786432 s (portEnter2 s a b) := by
  unfold portEnter2
  try dsimp only
  all_goals (repeat' (first
    | with_reducible apply Only.refl
    | with_reducible apply hashEnter_keep rfl
    | with_reducible apply mangleEnter2_keep rfl
    | dsimp only
    | intro _))
theorem portEnter2_keep {s : State} {a : MangleOp} {b : MangleOp} (hs : sub 786432 n_ = true) (hk_ : Only n_ a_ s) : Only n_ a_ (portEnter2 s a b) := portEnter2_only.step hs hk_

theorem mangleIssue_only {s : State} {n : Nat} {st : Nat} {d : List Byte} : GOnly 10315867 s (mangleIssue s n st d) := by
  unfold mangleIssue
  try dsimp only
  all_goals (repeat' (first
    | with_reducible apply Only.refl
    | with_reducible apply touchFast_keep rfl
    | with_reducible apply corePut_keep rfl
    | with_reducible apply portTake_keep rfl (by assumption)
    | with_reducible apply portEnter2_keep rfl
    | with_reducible apply portEnter_keep rfl
    | with_reducible apply Only.ite
    | with_reducible apply GOnly.ite
    | with_reducible apply GOnly.wait
    | with_reducible apply GOnly.done
    | split
    | dsimp only
    | intro _))

theorem runMglIssue_only {s : State} {n : Nat} {i : GInstr} : GOnly 10315867 s (runMglIssue s n i) := by
  unfold runMglIssue
  apply withOpnds_only rfl
  intro t os h
  dsimp only
  with_reducible apply GOnly.ite <;> intro _
  · exact GOnly.exc .refl
  with_reducible apply GOnly.ite <;> intro _
  · exact GOnly.wait
  with_reducible apply GOnly.ite <;> intro _
  · exact GOnly.exc .refl
  with_reducible apply GOnly.ite <;> intro _
  · exact GOnly.exc .refl
  · with_reducible refine GOnly.trans h (GOnly.mono rfl mangleIssue_only)

theorem takeStatus_only {s : State} {n : Nat} {i : GInstr} {poll : Bool} {jobs : Core → List PortJob} {put : Core → List PortJob → Core} {held : GRes} {fin : State → GRes} (hg : GOnly 2346067 s held) (hf : ∀ t, Only 2346067 s t → GOnly 2346067 s (fin t)) : GOnly 2346067 s (takeStatus s n i poll jobs put held fin) := by
  unfold takeStatus
  try dsimp only
  all_goals (repeat' (first
    | with_reducible assumption
    | with_reducible apply opndWrite_keep rfl
    | with_reducible apply corePut_keep rfl
    | with_reducible apply withOpnds_only rfl
    | with_reducible apply hf
    | split
    | intro _))

theorem runPrsTake_only {poll : Bool} {s : State} {n : Nat} {i : GInstr} : GOnly 2346067 s (runPrsTake poll s n i) := takeStatus_only .wait (fun _ h => h)

theorem haltKept_only {n : Nat} {t : State} : GOnly 65536 t (haltKept n t) := by
  unfold haltKept
  try dsimp only
  all_goals (repeat' (first
    | with_reducible apply Only.refl
    | with_reducible apply corePut_keep rfl
    | with_reducible apply Only.ite
    | with_reducible apply GOnly.ite
    | with_reducible apply GOnly.wait
    | with_reducible apply GOnly.done
    | with_reducible apply GOnly.halt
    | split
    | dsimp only
    | intro _))

theorem runMglTake_only {poll : Bool} {s : State} {n : Nat} {i : GInstr} : GOnly 2346067 s (runMglTake poll s n i) :=
  takeStatus_only (GOnly.stay (corePut_keep rfl .refl)) (fun _ h => GOnly.trans h (GOnly.mono rfl haltKept_only))

theorem execNop_only {core : Nat} {s : State} : OOnly 3009619 s (execNop core s) := by
  unfold execNop
  try dsimp only
  all_goals (repeat' (first
    | with_reducible apply Only.refl
    | with_reducible apply gulos_keep rfl
    | with_reducible refine GOnly.trans ?_ (GOnly.mono rfl runNop_only)
    | with_reducible apply OOnly.ite
    | with_reducible apply OOnly.next
    | dsimp only
    | intro _))

theorem execBr_only {core : Nat} {s : State} : OOnly 3009619 s (execBr core s) := by
  unfold execBr
  try dsimp only
  all_goals (repeat' (first
    | with_reducible apply Only.refl
    | with_reducible apply gulos_keep rfl
    | with_reducible refine GOnly.trans ?_ (GOnly.mono rfl runBr_only)
    | with_reducible apply OOnly.ite
    | with_reducible apply OOnly.next
    | dsimp only
    | intro _))

theorem execCall_only {core : Nat} {s : State} : OOnly 3140691 s (execCall core s) := by
  unfold execCall
  try dsimp only
  all_goals (repeat' (first
    | with_reducible apply Only.refl
    | with_reducible apply gulos_keep rfl
    | with_reducible refine GOnly.trans ?_ (GOnly.mono rfl runCall_only)
    | with_reducible apply OOnly.ite
    | with_reducible apply OOnly.next
    | dsimp only
    | intro _))

theorem execRet_only {core : Nat} {s : State} : OOnly 4058203 s (execRet core s) := by
  unfold execRet
  try dsimp only
  all_goals (repeat' (first
    | with_reducible apply Only.refl
    | with_reducible apply gulos_keep rfl
    | with_reducible refine GOnly.trans ?_ (GOnly.mono rfl runRet_only)
    | with_reducible apply OOnly.ite
    | with_reducible apply OOnly.next
    | dsimp only
    | intro _))

theorem execRfi_only {core : Nat} {s : State} : OOnly 3009619 s (execRfi core s) := by
  unfold execRfi
  try dsimp only
  all_goals (repeat' (first
    | with_reducible apply Only.refl
    | with_reducible apply gulos_keep rfl
    | with_reducible refine GOnly.trans ?_ (GOnly.mono rfl runRfi_only)
    | with_reducible apply OOnly.ite
    | with_reducible apply OOnly.next
    | dsimp only
    | intro _))

theorem execHalt_only {core : Nat} {s : State} : OOnly 3009619 s (execHalt core s) := by
  unfold execHalt
  try dsimp only
  all_goals (repeat' (first
    | with_reducible apply Only.refl
    | with_reducible apply gulos_keep rfl
    | with_reducible refine GOnly.trans ?_ (GOnly.mono rfl runHalt_only)
    | with_reducible apply OOnly.ite
    | with_reducible apply OOnly.next
    | dsimp only
    | intro _))

theorem execWait_only {core : Nat} {s : State} : OOnly 3009619 s (execWait core s) := by
  unfold execWait
  try dsimp only
  all_goals (repeat' (first
    | with_reducible apply Only.refl
    | with_reducible apply gulos_keep rfl
    | with_reducible refine GOnly.trans ?_ (GOnly.mono rfl runWait_only)
    | with_reducible apply OOnly.ite
    | with_reducible apply OOnly.next
    | dsimp only
    | intro _))

theorem execTrap_only {core : Nat} {s : State} : OOnly 3009619 s (execTrap core s) := by
  unfold execTrap
  try dsimp only
  all_goals (repeat' (first
    | with_reducible apply Only.refl
    | with_reducible apply gulos_keep rfl
    | with_reducible refine GOnly.trans ?_ (GOnly.mono rfl runTrap_only)
    | with_reducible apply OOnly.ite
    | with_reducible apply OOnly.next
    | dsimp only
    | intro _))

theorem execFence_only {core : Nat} {s : State} : OOnly 3009619 s (execFence core s) := by
  unfold execFence
  try dsimp only
  all_goals (repeat' (first
    | with_reducible apply Only.refl
    | with_reducible apply gulos_keep rfl
    | with_reducible refine GOnly.trans ?_ (GOnly.mono rfl runNop_only)
    | with_reducible apply OOnly.ite
    | with_reducible apply OOnly.next
    | dsimp only
    | intro _))

theorem execSignal_only {core : Nat} {s : State} : OOnly 3009619 s (execSignal core s) := by
  unfold execSignal
  try dsimp only
  all_goals (repeat' (first
    | with_reducible apply Only.refl
    | with_reducible apply gulos_keep rfl
    | with_reducible refine GOnly.trans ?_ (GOnly.mono rfl runSignal_only)
    | with_reducible apply OOnly.ite
    | with_reducible apply OOnly.next
    | dsimp only
    | intro _))

theorem execMovsx_only {core : Nat} {s : State} : OOnly 4189275 s (execMovsx core s) := by
  unfold execMovsx
  try dsimp only
  all_goals (repeat' (first
    | with_reducible apply Only.refl
    | with_reducible apply gulos_keep rfl
    | with_reducible refine GOnly.trans ?_ (GOnly.mono rfl runExtend_only)
    | with_reducible apply OOnly.ite
    | with_reducible apply OOnly.next
    | dsimp only
    | intro _))

theorem execMovzx_only {core : Nat} {s : State} : OOnly 4189275 s (execMovzx core s) := by
  unfold execMovzx
  try dsimp only
  all_goals (repeat' (first
    | with_reducible apply Only.refl
    | with_reducible apply gulos_keep rfl
    | with_reducible refine GOnly.trans ?_ (GOnly.mono rfl runExtend_only)
    | with_reducible apply OOnly.ite
    | with_reducible apply OOnly.next
    | dsimp only
    | intro _))

theorem execLea_only {core : Nat} {s : State} : OOnly 3140691 s (execLea core s) := by
  unfold execLea
  try dsimp only
  all_goals (repeat' (first
    | with_reducible apply Only.refl
    | with_reducible apply gulos_keep rfl
    | with_reducible refine GOnly.trans ?_ (GOnly.mono rfl runLea_only)
    | with_reducible apply OOnly.ite
    | with_reducible apply OOnly.next
    | dsimp only
    | intro _))

theorem execMov_only {core : Nat} {s : State} : OOnly 4189275 s (execMov core s) := by
  unfold execMov
  try dsimp only
  all_goals (repeat' (first
    | with_reducible apply Only.refl
    | with_reducible apply gulos_keep rfl
    | with_reducible refine GOnly.trans ?_ (GOnly.mono rfl runAlu_only)
    | with_reducible apply OOnly.ite
    | with_reducible apply OOnly.next
    | dsimp only
    | intro _))

theorem execAdd_only {core : Nat} {s : State} : OOnly 4189275 s (execAdd core s) := by
  unfold execAdd
  try dsimp only
  all_goals (repeat' (first
    | with_reducible apply Only.refl
    | with_reducible apply gulos_keep rfl
    | with_reducible refine GOnly.trans ?_ (GOnly.mono rfl runAlu_only)
    | with_reducible apply OOnly.ite
    | with_reducible apply OOnly.next
    | dsimp only
    | intro _))

theorem execSub_only {core : Nat} {s : State} : OOnly 4189275 s (execSub core s) := by
  unfold execSub
  try dsimp only
  all_goals (repeat' (first
    | with_reducible apply Only.refl
    | with_reducible apply gulos_keep rfl
    | with_reducible refine GOnly.trans ?_ (GOnly.mono rfl runAlu_only)
    | with_reducible apply OOnly.ite
    | with_reducible apply OOnly.next
    | dsimp only
    | intro _))

theorem execAdds_only {core : Nat} {s : State} : OOnly 4189275 s (execAdds core s) := by
  unfold execAdds
  try dsimp only
  all_goals (repeat' (first
    | with_reducible apply Only.refl
    | with_reducible apply gulos_keep rfl
    | with_reducible refine GOnly.trans ?_ (GOnly.mono rfl runAlu_only)
    | with_reducible apply OOnly.ite
    | with_reducible apply OOnly.next
    | dsimp only
    | intro _))

theorem execSubs_only {core : Nat} {s : State} : OOnly 4189275 s (execSubs core s) := by
  unfold execSubs
  try dsimp only
  all_goals (repeat' (first
    | with_reducible apply Only.refl
    | with_reducible apply gulos_keep rfl
    | with_reducible refine GOnly.trans ?_ (GOnly.mono rfl runAlu_only)
    | with_reducible apply OOnly.ite
    | with_reducible apply OOnly.next
    | dsimp only
    | intro _))

theorem execNeg_only {core : Nat} {s : State} : OOnly 4189275 s (execNeg core s) := by
  unfold execNeg
  try dsimp only
  all_goals (repeat' (first
    | with_reducible apply Only.refl
    | with_reducible apply gulos_keep rfl
    | with_reducible refine GOnly.trans ?_ (GOnly.mono rfl runAlu_only)
    | with_reducible apply OOnly.ite
    | with_reducible apply OOnly.next
    | dsimp only
    | intro _))

theorem execAbs_only {core : Nat} {s : State} : OOnly 4189275 s (execAbs core s) := by
  unfold execAbs
  try dsimp only
  all_goals (repeat' (first
    | with_reducible apply Only.refl
    | with_reducible apply gulos_keep rfl
    | with_reducible refine GOnly.trans ?_ (GOnly.mono rfl runAlu_only)
    | with_reducible apply OOnly.ite
    | with_reducible apply OOnly.next
    | dsimp only
    | intro _))

theorem execMul_only {core : Nat} {s : State} : OOnly 4189275 s (execMul core s) := by
  unfold execMul
  try dsimp only
  all_goals (repeat' (first
    | with_reducible apply Only.refl
    | with_reducible apply gulos_keep rfl
    | with_reducible refine GOnly.trans ?_ (GOnly.mono rfl runAlu_only)
    | with_reducible apply OOnly.ite
    | with_reducible apply OOnly.next
    | dsimp only
    | intro _))

theorem execMulhs_only {core : Nat} {s : State} : OOnly 4189275 s (execMulhs core s) := by
  unfold execMulhs
  try dsimp only
  all_goals (repeat' (first
    | with_reducible apply Only.refl
    | with_reducible apply gulos_keep rfl
    | with_reducible refine GOnly.trans ?_ (GOnly.mono rfl runAlu_only)
    | with_reducible apply OOnly.ite
    | with_reducible apply OOnly.next
    | dsimp only
    | intro _))

theorem execMulhu_only {core : Nat} {s : State} : OOnly 4189275 s (execMulhu core s) := by
  unfold execMulhu
  try dsimp only
  all_goals (repeat' (first
    | with_reducible apply Only.refl
    | with_reducible apply gulos_keep rfl
    | with_reducible refine GOnly.trans ?_ (GOnly.mono rfl runAlu_only)
    | with_reducible apply OOnly.ite
    | with_reducible apply OOnly.next
    | dsimp only
    | intro _))

theorem execMac_only {core : Nat} {s : State} : OOnly 4189275 s (execMac core s) := by
  unfold execMac
  try dsimp only
  all_goals (repeat' (first
    | with_reducible apply Only.refl
    | with_reducible apply gulos_keep rfl
    | with_reducible refine GOnly.trans ?_ (GOnly.mono rfl runAlu_only)
    | with_reducible apply OOnly.ite
    | with_reducible apply OOnly.next
    | dsimp only
    | intro _))

theorem execMin_only {core : Nat} {s : State} : OOnly 4189275 s (execMin core s) := by
  unfold execMin
  try dsimp only
  all_goals (repeat' (first
    | with_reducible apply Only.refl
    | with_reducible apply gulos_keep rfl
    | with_reducible refine GOnly.trans ?_ (GOnly.mono rfl runAlu_only)
    | with_reducible apply OOnly.ite
    | with_reducible apply OOnly.next
    | dsimp only
    | intro _))

theorem execMax_only {core : Nat} {s : State} : OOnly 4189275 s (execMax core s) := by
  unfold execMax
  try dsimp only
  all_goals (repeat' (first
    | with_reducible apply Only.refl
    | with_reducible apply gulos_keep rfl
    | with_reducible refine GOnly.trans ?_ (GOnly.mono rfl runAlu_only)
    | with_reducible apply OOnly.ite
    | with_reducible apply OOnly.next
    | dsimp only
    | intro _))

theorem execMinu_only {core : Nat} {s : State} : OOnly 4189275 s (execMinu core s) := by
  unfold execMinu
  try dsimp only
  all_goals (repeat' (first
    | with_reducible apply Only.refl
    | with_reducible apply gulos_keep rfl
    | with_reducible refine GOnly.trans ?_ (GOnly.mono rfl runAlu_only)
    | with_reducible apply OOnly.ite
    | with_reducible apply OOnly.next
    | dsimp only
    | intro _))

theorem execMaxu_only {core : Nat} {s : State} : OOnly 4189275 s (execMaxu core s) := by
  unfold execMaxu
  try dsimp only
  all_goals (repeat' (first
    | with_reducible apply Only.refl
    | with_reducible apply gulos_keep rfl
    | with_reducible refine GOnly.trans ?_ (GOnly.mono rfl runAlu_only)
    | with_reducible apply OOnly.ite
    | with_reducible apply OOnly.next
    | dsimp only
    | intro _))

theorem execAnd_only {core : Nat} {s : State} : OOnly 4189275 s (execAnd core s) := by
  unfold execAnd
  try dsimp only
  all_goals (repeat' (first
    | with_reducible apply Only.refl
    | with_reducible apply gulos_keep rfl
    | with_reducible refine GOnly.trans ?_ (GOnly.mono rfl runAlu_only)
    | with_reducible apply OOnly.ite
    | with_reducible apply OOnly.next
    | dsimp only
    | intro _))

theorem execOr_only {core : Nat} {s : State} : OOnly 4189275 s (execOr core s) := by
  unfold execOr
  try dsimp only
  all_goals (repeat' (first
    | with_reducible apply Only.refl
    | with_reducible apply gulos_keep rfl
    | with_reducible refine GOnly.trans ?_ (GOnly.mono rfl runAlu_only)
    | with_reducible apply OOnly.ite
    | with_reducible apply OOnly.next
    | dsimp only
    | intro _))

theorem execXor_only {core : Nat} {s : State} : OOnly 4189275 s (execXor core s) := by
  unfold execXor
  try dsimp only
  all_goals (repeat' (first
    | with_reducible apply Only.refl
    | with_reducible apply gulos_keep rfl
    | with_reducible refine GOnly.trans ?_ (GOnly.mono rfl runAlu_only)
    | with_reducible apply OOnly.ite
    | with_reducible apply OOnly.next
    | dsimp only
    | intro _))

theorem execNot_only {core : Nat} {s : State} : OOnly 4189275 s (execNot core s) := by
  unfold execNot
  try dsimp only
  all_goals (repeat' (first
    | with_reducible apply Only.refl
    | with_reducible apply gulos_keep rfl
    | with_reducible refine GOnly.trans ?_ (GOnly.mono rfl runAlu_only)
    | with_reducible apply OOnly.ite
    | with_reducible apply OOnly.next
    | dsimp only
    | intro _))

theorem execShl_only {core : Nat} {s : State} : OOnly 4189275 s (execShl core s) := by
  unfold execShl
  try dsimp only
  all_goals (repeat' (first
    | with_reducible apply Only.refl
    | with_reducible apply gulos_keep rfl
    | with_reducible refine GOnly.trans ?_ (GOnly.mono rfl runAlu_only)
    | with_reducible apply OOnly.ite
    | with_reducible apply OOnly.next
    | dsimp only
    | intro _))

theorem execShr_only {core : Nat} {s : State} : OOnly 4189275 s (execShr core s) := by
  unfold execShr
  try dsimp only
  all_goals (repeat' (first
    | with_reducible apply Only.refl
    | with_reducible apply gulos_keep rfl
    | with_reducible refine GOnly.trans ?_ (GOnly.mono rfl runAlu_only)
    | with_reducible apply OOnly.ite
    | with_reducible apply OOnly.next
    | dsimp only
    | intro _))

theorem execSar_only {core : Nat} {s : State} : OOnly 4189275 s (execSar core s) := by
  unfold execSar
  try dsimp only
  all_goals (repeat' (first
    | with_reducible apply Only.refl
    | with_reducible apply gulos_keep rfl
    | with_reducible refine GOnly.trans ?_ (GOnly.mono rfl runAlu_only)
    | with_reducible apply OOnly.ite
    | with_reducible apply OOnly.next
    | dsimp only
    | intro _))

theorem execRol_only {core : Nat} {s : State} : OOnly 4189275 s (execRol core s) := by
  unfold execRol
  try dsimp only
  all_goals (repeat' (first
    | with_reducible apply Only.refl
    | with_reducible apply gulos_keep rfl
    | with_reducible refine GOnly.trans ?_ (GOnly.mono rfl runAlu_only)
    | with_reducible apply OOnly.ite
    | with_reducible apply OOnly.next
    | dsimp only
    | intro _))

theorem execBrev_only {core : Nat} {s : State} : OOnly 4189275 s (execBrev core s) := by
  unfold execBrev
  try dsimp only
  all_goals (repeat' (first
    | with_reducible apply Only.refl
    | with_reducible apply gulos_keep rfl
    | with_reducible refine GOnly.trans ?_ (GOnly.mono rfl runAlu_only)
    | with_reducible apply OOnly.ite
    | with_reducible apply OOnly.next
    | dsimp only
    | intro _))

theorem execClz_only {core : Nat} {s : State} : OOnly 4189275 s (execClz core s) := by
  unfold execClz
  try dsimp only
  all_goals (repeat' (first
    | with_reducible apply Only.refl
    | with_reducible apply gulos_keep rfl
    | with_reducible refine GOnly.trans ?_ (GOnly.mono rfl runAlu_only)
    | with_reducible apply OOnly.ite
    | with_reducible apply OOnly.next
    | dsimp only
    | intro _))

theorem execPopc_only {core : Nat} {s : State} : OOnly 4189275 s (execPopc core s) := by
  unfold execPopc
  try dsimp only
  all_goals (repeat' (first
    | with_reducible apply Only.refl
    | with_reducible apply gulos_keep rfl
    | with_reducible refine GOnly.trans ?_ (GOnly.mono rfl runAlu_only)
    | with_reducible apply OOnly.ite
    | with_reducible apply OOnly.next
    | dsimp only
    | intro _))

theorem execMulq_only {core : Nat} {s : State} : OOnly 4189275 s (execMulq core s) := by
  unfold execMulq
  try dsimp only
  all_goals (repeat' (first
    | with_reducible apply Only.refl
    | with_reducible apply gulos_keep rfl
    | with_reducible refine GOnly.trans ?_ (GOnly.mono rfl runAlu_only)
    | with_reducible apply OOnly.ite
    | with_reducible apply OOnly.next
    | dsimp only
    | intro _))

theorem execMacq_only {core : Nat} {s : State} : OOnly 4189275 s (execMacq core s) := by
  unfold execMacq
  try dsimp only
  all_goals (repeat' (first
    | with_reducible apply Only.refl
    | with_reducible apply gulos_keep rfl
    | with_reducible refine GOnly.trans ?_ (GOnly.mono rfl runAlu_only)
    | with_reducible apply OOnly.ite
    | with_reducible apply OOnly.next
    | dsimp only
    | intro _))

theorem execCmpeq_only {core : Nat} {s : State} : OOnly 4058203 s (execCmpeq core s) := by
  unfold execCmpeq
  try dsimp only
  all_goals (repeat' (first
    | with_reducible apply Only.refl
    | with_reducible apply gulos_keep rfl
    | with_reducible refine GOnly.trans ?_ (GOnly.mono rfl runCmp_only)
    | with_reducible apply OOnly.ite
    | with_reducible apply OOnly.next
    | dsimp only
    | intro _))

theorem execCmpne_only {core : Nat} {s : State} : OOnly 4058203 s (execCmpne core s) := by
  unfold execCmpne
  try dsimp only
  all_goals (repeat' (first
    | with_reducible apply Only.refl
    | with_reducible apply gulos_keep rfl
    | with_reducible refine GOnly.trans ?_ (GOnly.mono rfl runCmp_only)
    | with_reducible apply OOnly.ite
    | with_reducible apply OOnly.next
    | dsimp only
    | intro _))

theorem execCmplt_only {core : Nat} {s : State} : OOnly 4058203 s (execCmplt core s) := by
  unfold execCmplt
  try dsimp only
  all_goals (repeat' (first
    | with_reducible apply Only.refl
    | with_reducible apply gulos_keep rfl
    | with_reducible refine GOnly.trans ?_ (GOnly.mono rfl runCmp_only)
    | with_reducible apply OOnly.ite
    | with_reducible apply OOnly.next
    | dsimp only
    | intro _))

theorem execCmple_only {core : Nat} {s : State} : OOnly 4058203 s (execCmple core s) := by
  unfold execCmple
  try dsimp only
  all_goals (repeat' (first
    | with_reducible apply Only.refl
    | with_reducible apply gulos_keep rfl
    | with_reducible refine GOnly.trans ?_ (GOnly.mono rfl runCmp_only)
    | with_reducible apply OOnly.ite
    | with_reducible apply OOnly.next
    | dsimp only
    | intro _))

theorem execCmpltu_only {core : Nat} {s : State} : OOnly 4058203 s (execCmpltu core s) := by
  unfold execCmpltu
  try dsimp only
  all_goals (repeat' (first
    | with_reducible apply Only.refl
    | with_reducible apply gulos_keep rfl
    | with_reducible refine GOnly.trans ?_ (GOnly.mono rfl runCmp_only)
    | with_reducible apply OOnly.ite
    | with_reducible apply OOnly.next
    | dsimp only
    | intro _))

theorem execCmpleu_only {core : Nat} {s : State} : OOnly 4058203 s (execCmpleu core s) := by
  unfold execCmpleu
  try dsimp only
  all_goals (repeat' (first
    | with_reducible apply Only.refl
    | with_reducible apply gulos_keep rfl
    | with_reducible refine GOnly.trans ?_ (GOnly.mono rfl runCmp_only)
    | with_reducible apply OOnly.ite
    | with_reducible apply OOnly.next
    | dsimp only
    | intro _))

theorem execTstz_only {core : Nat} {s : State} : OOnly 4058203 s (execTstz core s) := by
  unfold execTstz
  try dsimp only
  all_goals (repeat' (first
    | with_reducible apply Only.refl
    | with_reducible apply gulos_keep rfl
    | with_reducible refine GOnly.trans ?_ (GOnly.mono rfl runCmp_only)
    | with_reducible apply OOnly.ite
    | with_reducible apply OOnly.next
    | dsimp only
    | intro _))

theorem execTstnz_only {core : Nat} {s : State} : OOnly 4058203 s (execTstnz core s) := by
  unfold execTstnz
  try dsimp only
  all_goals (repeat' (first
    | with_reducible apply Only.refl
    | with_reducible apply gulos_keep rfl
    | with_reducible refine GOnly.trans ?_ (GOnly.mono rfl runCmp_only)
    | with_reducible apply OOnly.ite
    | with_reducible apply OOnly.next
    | dsimp only
    | intro _))

theorem execPand_only {core : Nat} {s : State} : OOnly 3009619 s (execPand core s) := by
  unfold execPand
  try dsimp only
  all_goals (repeat' (first
    | with_reducible apply Only.refl
    | with_reducible apply gulos_keep rfl
    | with_reducible refine GOnly.trans ?_ (GOnly.mono rfl runPred_only)
    | with_reducible apply OOnly.ite
    | with_reducible apply OOnly.next
    | dsimp only
    | intro _))

theorem execPor_only {core : Nat} {s : State} : OOnly 3009619 s (execPor core s) := by
  unfold execPor
  try dsimp only
  all_goals (repeat' (first
    | with_reducible apply Only.refl
    | with_reducible apply gulos_keep rfl
    | with_reducible refine GOnly.trans ?_ (GOnly.mono rfl runPred_only)
    | with_reducible apply OOnly.ite
    | with_reducible apply OOnly.next
    | dsimp only
    | intro _))

theorem execPxor_only {core : Nat} {s : State} : OOnly 3009619 s (execPxor core s) := by
  unfold execPxor
  try dsimp only
  all_goals (repeat' (first
    | with_reducible apply Only.refl
    | with_reducible apply gulos_keep rfl
    | with_reducible refine GOnly.trans ?_ (GOnly.mono rfl runPred_only)
    | with_reducible apply OOnly.ite
    | with_reducible apply OOnly.next
    | dsimp only
    | intro _))

theorem execPnot_only {core : Nat} {s : State} : OOnly 3009619 s (execPnot core s) := by
  unfold execPnot
  try dsimp only
  all_goals (repeat' (first
    | with_reducible apply Only.refl
    | with_reducible apply gulos_keep rfl
    | with_reducible refine GOnly.trans ?_ (GOnly.mono rfl runPred_only)
    | with_reducible apply OOnly.ite
    | with_reducible apply OOnly.next
    | dsimp only
    | intro _))

theorem execPset_only {core : Nat} {s : State} : OOnly 3009619 s (execPset core s) := by
  unfold execPset
  try dsimp only
  all_goals (repeat' (first
    | with_reducible apply Only.refl
    | with_reducible apply gulos_keep rfl
    | with_reducible refine GOnly.trans ?_ (GOnly.mono rfl runPred_only)
    | with_reducible apply OOnly.ite
    | with_reducible apply OOnly.next
    | dsimp only
    | intro _))

theorem execSatq_only {core : Nat} {s : State} : OOnly 4189275 s (execSatq core s) := by
  unfold execSatq
  try dsimp only
  all_goals (repeat' (first
    | with_reducible apply Only.refl
    | with_reducible apply gulos_keep rfl
    | with_reducible refine GOnly.trans ?_ (GOnly.mono rfl runSatq_only)
    | with_reducible apply OOnly.ite
    | with_reducible apply OOnly.next
    | dsimp only
    | intro _))

theorem execLdr_only {core : Nat} {s : State} : OOnly 4058203 s (execLdr core s) := by
  unfold execLdr
  try dsimp only
  all_goals (repeat' (first
    | with_reducible apply Only.refl
    | with_reducible apply gulos_keep rfl
    | with_reducible refine GOnly.trans ?_ (GOnly.mono rfl runLdr_only)
    | with_reducible apply OOnly.ite
    | with_reducible apply OOnly.next
    | dsimp only
    | intro _))

theorem execStr_only {core : Nat} {s : State} : OOnly 3140691 s (execStr core s) := by
  unfold execStr
  try dsimp only
  all_goals (repeat' (first
    | with_reducible apply Only.refl
    | with_reducible apply gulos_keep rfl
    | with_reducible refine GOnly.trans ?_ (GOnly.mono rfl runStr_only)
    | with_reducible apply OOnly.ite
    | with_reducible apply OOnly.next
    | dsimp only
    | intro _))

theorem execAddr_only {core : Nat} {s : State} : OOnly 4058203 s (execAddr core s) := by
  unfold execAddr
  try dsimp only
  all_goals (repeat' (first
    | with_reducible apply Only.refl
    | with_reducible apply gulos_keep rfl
    | with_reducible refine GOnly.trans ?_ (GOnly.mono rfl runAddr_only)
    | with_reducible apply OOnly.ite
    | with_reducible apply OOnly.next
    | dsimp only
    | intro _))

theorem execEvtake_only {core : Nat} {s : State} : OOnly 3140691 s (execEvtake core s) := by
  unfold execEvtake
  try dsimp only
  all_goals (repeat' (first
    | with_reducible apply Only.refl
    | with_reducible apply gulos_keep rfl
    | with_reducible refine GOnly.trans ?_ (GOnly.mono rfl runEvtake_only)
    | with_reducible apply OOnly.ite
    | with_reducible apply OOnly.next
    | dsimp only
    | intro _))

theorem execBmov_only {core : Nat} {s : State} : OOnly 4189275 s (execBmov core s) := by
  unfold execBmov
  try dsimp only
  all_goals (repeat' (first
    | with_reducible apply Only.refl
    | with_reducible apply gulos_keep rfl
    | with_reducible refine GOnly.trans ?_ (GOnly.mono rfl runBlock_only)
    | with_reducible apply OOnly.ite
    | with_reducible apply OOnly.next
    | dsimp only
    | intro _))

theorem execBfill_only {core : Nat} {s : State} : OOnly 4189275 s (execBfill core s) := by
  unfold execBfill
  try dsimp only
  all_goals (repeat' (first
    | with_reducible apply Only.refl
    | with_reducible apply gulos_keep rfl
    | with_reducible refine GOnly.trans ?_ (GOnly.mono rfl runBlock_only)
    | with_reducible apply OOnly.ite
    | with_reducible apply OOnly.next
    | dsimp only
    | intro _))

theorem execBadds_only {core : Nat} {s : State} : OOnly 4189275 s (execBadds core s) := by
  unfold execBadds
  try dsimp only
  all_goals (repeat' (first
    | with_reducible apply Only.refl
    | with_reducible apply gulos_keep rfl
    | with_reducible refine GOnly.trans ?_ (GOnly.mono rfl runBlock_only)
    | with_reducible apply OOnly.ite
    | with_reducible apply OOnly.next
    | dsimp only
    | intro _))

theorem execBmulq_only {core : Nat} {s : State} : OOnly 4189275 s (execBmulq core s) := by
  unfold execBmulq
  try dsimp only
  all_goals (repeat' (first
    | with_reducible apply Only.refl
    | with_reducible apply gulos_keep rfl
    | with_reducible refine GOnly.trans ?_ (GOnly.mono rfl runBlock_only)
    | with_reducible apply OOnly.ite
    | with_reducible apply OOnly.next
    | dsimp only
    | intro _))

theorem execBmacq_only {core : Nat} {s : State} : OOnly 4189275 s (execBmacq core s) := by
  unfold execBmacq
  try dsimp only
  all_goals (repeat' (first
    | with_reducible apply Only.refl
    | with_reducible apply gulos_keep rfl
    | with_reducible refine GOnly.trans ?_ (GOnly.mono rfl runBlock_only)
    | with_reducible apply OOnly.ite
    | with_reducible apply OOnly.next
    | dsimp only
    | intro _))

theorem execBdot_only {core : Nat} {s : State} : OOnly 4189275 s (execBdot core s) := by
  unfold execBdot
  try dsimp only
  all_goals (repeat' (first
    | with_reducible apply Only.refl
    | with_reducible apply gulos_keep rfl
    | with_reducible refine GOnly.trans ?_ (GOnly.mono rfl runBlock_only)
    | with_reducible apply OOnly.ite
    | with_reducible apply OOnly.next
    | dsimp only
    | intro _))

theorem execBpeak_only {core : Nat} {s : State} : OOnly 4189275 s (execBpeak core s) := by
  unfold execBpeak
  try dsimp only
  all_goals (repeat' (first
    | with_reducible apply Only.refl
    | with_reducible apply gulos_keep rfl
    | with_reducible refine GOnly.trans ?_ (GOnly.mono rfl runBlock_only)
    | with_reducible apply OOnly.ite
    | with_reducible apply OOnly.next
    | dsimp only
    | intro _))

theorem execPrsIssue_only {core : Nat} {s : State} : OOnly 12446811 s (execPrsIssue core s) := by
  unfold execPrsIssue
  try dsimp only
  all_goals (repeat' (first
    | with_reducible apply Only.refl
    | with_reducible apply gulos_keep rfl
    | with_reducible refine GOnly.trans ?_ (GOnly.mono rfl runPrsIssue_only)
    | with_reducible apply OOnly.ite
    | with_reducible apply OOnly.next
    | dsimp only
    | intro _))

theorem execPrsWait_only {core : Nat} {s : State} : OOnly 3140691 s (execPrsWait core s) := by
  unfold execPrsWait
  try dsimp only
  all_goals (repeat' (first
    | with_reducible apply Only.refl
    | with_reducible apply gulos_keep rfl
    | with_reducible refine GOnly.trans ?_ (GOnly.mono rfl runPrsTake_only)
    | with_reducible apply OOnly.ite
    | with_reducible apply OOnly.next
    | dsimp only
    | intro _))

theorem execPrsPoll_only {core : Nat} {s : State} : OOnly 3140691 s (execPrsPoll core s) := by
  unfold execPrsPoll
  try dsimp only
  all_goals (repeat' (first
    | with_reducible apply Only.refl
    | with_reducible apply gulos_keep rfl
    | with_reducible refine GOnly.trans ?_ (GOnly.mono rfl runPrsTake_only)
    | with_reducible apply OOnly.ite
    | with_reducible apply OOnly.next
    | dsimp only
    | intro _))

theorem execMglIssue_only {core : Nat} {s : State} : OOnly 12446811 s (execMglIssue core s) := by
  unfold execMglIssue
  try dsimp only
  all_goals (repeat' (first
    | with_reducible apply Only.refl
    | with_reducible apply gulos_keep rfl
    | with_reducible refine GOnly.trans ?_ (GOnly.mono rfl runMglIssue_only)
    | with_reducible apply OOnly.ite
    | with_reducible apply OOnly.next
    | dsimp only
    | intro _))

theorem execMglCollect_only {core : Nat} {s : State} : OOnly 3140691 s (execMglCollect core s) := by
  unfold execMglCollect
  try dsimp only
  all_goals (repeat' (first
    | with_reducible apply Only.refl
    | with_reducible apply gulos_keep rfl
    | with_reducible refine GOnly.trans ?_ (GOnly.mono rfl runMglTake_only)
    | with_reducible apply OOnly.ite
    | with_reducible apply OOnly.next
    | dsimp only
    | intro _))

theorem execMglPoll_only {core : Nat} {s : State} : OOnly 3140691 s (execMglPoll core s) := by
  unfold execMglPoll
  try dsimp only
  all_goals (repeat' (first
    | with_reducible apply Only.refl
    | with_reducible apply gulos_keep rfl
    | with_reducible refine GOnly.trans ?_ (GOnly.mono rfl runMglTake_only)
    | with_reducible apply OOnly.ite
    | with_reducible apply OOnly.next
    | dsimp only
    | intro _))

theorem thmBeat_only {s : State} : Only 4194304 s (thmBeat s) := by
  unfold thmBeat
  try dsimp only
  all_goals (repeat' (first
    | with_reducible apply Only.refl
    | with_reducible apply Only.ite
    | fail_if_no_progress (with_reducible apply Only.upd rfl)
    | split
    | dsimp only
    | intro _))

theorem standbyStep_only {s : State} : Only 1229208 s (standbyStep s) := by
  unfold standbyStep
  try dsimp only
  all_goals (repeat' (first
    | with_reducible apply Only.refl
    | with_reducible apply enterStandby_keep rfl
    | with_reducible apply Only.ite
    | split
    | dsimp only
    | intro _))

theorem eccCount_only {s : State} {bad : Bool} : Only 16 s (eccCount s bad) := by
  unfold eccCount
  try dsimp only
  all_goals (repeat' (first
    | with_reducible apply Only.refl
    | with_reducible apply regSetField_keep rfl
    | with_reducible apply Only.ite
    | split
    | dsimp only
    | intro _))
theorem eccCount_keep {s : State} {bad : Bool} (hs : sub 16 n_ = true) (hk_ : Only n_ a_ s) : Only n_ a_ (eccCount s bad) := eccCount_only.step hs hk_

theorem eccStep_only {s : State} : Only 34896 s (eccStep s) := by
  unfold eccStep
  try dsimp only
  all_goals (repeat' (first
    | with_reducible apply Only.refl
    | with_reducible apply eccCount_keep rfl
    | with_reducible apply tallyPut_keep rfl
    | with_reducible apply sqcSet_keep rfl
    | with_reducible apply bufPut_keep rfl
    | with_reducible apply Only.ite
    | split
    | dsimp only
    | intro _))

end Sys2Proof.Machine
end

