-- ==== Sys2Proof/Laws/State.lean ====
section
/-! SUPPORT. The parts of the state that each primitive update leaves alone, one lemma for each field and update. -/

namespace Sys2Proof.Machine

@[simp] theorem corePut_pending (s : State) (n : Nat) (c : Core) : (corePut s n c).pending = s.pending := rfl
@[simp] theorem corePut_out (s : State) (n : Nat) (c : Core) : (corePut s n c).out = s.out := rfl
@[simp] theorem corePut_draws (s : State) (n : Nat) (c : Core) : (corePut s n c).draws = s.draws := rfl
@[simp] theorem corePut_time (s : State) (n : Nat) (c : Core) : (corePut s n c).time = s.time := rfl
@[simp] theorem corePut_pwr (s : State) (n : Nat) (c : Core) : (corePut s n c).pwr = s.pwr := rfl
@[simp] theorem corePut_regs (s : State) (n : Nat) (c : Core) : (corePut s n c).regs = s.regs := rfl
@[simp] theorem corePut_dev (s : State) (n : Nat) (c : Core) : (corePut s n c).dev = s.dev := rfl
@[simp] theorem corePut_agentSeq (s : State) (n : Nat) (c : Core) : (corePut s n c).agentSeq = s.agentSeq := rfl
@[simp] theorem corePut_fn0 (s : State) (n : Nat) (c : Core) : (corePut s n c).fn0 = s.fn0 := rfl
@[simp] theorem corePut_fn1 (s : State) (n : Nat) (c : Core) : (corePut s n c).fn1 = s.fn1 := rfl
@[simp] theorem corePut_slices (s : State) (n : Nat) (c : Core) : (corePut s n c).slices = s.slices := rfl
@[simp] theorem corePut_tortin (s : State) (n : Nat) (c : Core) : (corePut s n c).tortin = s.tortin := rfl
@[simp] theorem corePut_tally (s : State) (n : Nat) (c : Core) : (corePut s n c).tally = s.tally := rfl
@[simp] theorem corePut_scorch (s : State) (n : Nat) (c : Core) : (corePut s n c).scorch = s.scorch := rfl
@[simp] theorem corePut_keys (s : State) (n : Nat) (c : Core) : (corePut s n c).keys = s.keys := rfl
@[simp] theorem corePut_seam (s : State) (n : Nat) (c : Core) : (corePut s n c).seam = s.seam := rfl
@[simp] theorem corePut_hamper (s : State) (n : Nat) (c : Core) : (corePut s n c).hamper = s.hamper := rfl
@[simp] theorem corePut_links (s : State) (n : Nat) (c : Core) : (corePut s n c).links = s.links := rfl
@[simp] theorem corePut_press (s : State) (n : Nat) (c : Core) : (corePut s n c).press = s.press := rfl
@[simp] theorem corePut_mangle (s : State) (n : Nat) (c : Core) : (corePut s n c).mangle = s.mangle := rfl
@[simp] theorem corePut_rng (s : State) (n : Nat) (c : Core) : (corePut s n c).rng = s.rng := rfl
@[simp] theorem corePut_dma (s : State) (n : Nat) (c : Core) : (corePut s n c).dma = s.dma := rfl
@[simp] theorem corePut_thm (s : State) (n : Nat) (c : Core) : (corePut s n c).thm = s.thm := rfl
@[simp] theorem corePut_boot (s : State) (n : Nat) (c : Core) : (corePut s n c).boot = s.boot := rfl
@[simp] theorem corePut_lc (s : State) (n : Nat) (c : Core) : (corePut s n c).lc = s.lc := rfl

@[simp] theorem queuePut_pending (s : State) (q : Nat) (x : Queue) : (queuePut s q x).pending = s.pending := rfl
@[simp] theorem queuePut_out (s : State) (q : Nat) (x : Queue) : (queuePut s q x).out = s.out := rfl
@[simp] theorem queuePut_draws (s : State) (q : Nat) (x : Queue) : (queuePut s q x).draws = s.draws := rfl
@[simp] theorem queuePut_time (s : State) (q : Nat) (x : Queue) : (queuePut s q x).time = s.time := rfl
@[simp] theorem queuePut_pwr (s : State) (q : Nat) (x : Queue) : (queuePut s q x).pwr = s.pwr := rfl
@[simp] theorem queuePut_regs (s : State) (q : Nat) (x : Queue) : (queuePut s q x).regs = s.regs := rfl
@[simp] theorem queuePut_dev (s : State) (q : Nat) (x : Queue) : (queuePut s q x).dev = s.dev := rfl
@[simp] theorem queuePut_agentSeq (s : State) (q : Nat) (x : Queue) : (queuePut s q x).agentSeq = s.agentSeq := rfl
@[simp] theorem queuePut_fn0 (s : State) (q : Nat) (x : Queue) : (queuePut s q x).fn0 = s.fn0 := rfl
@[simp] theorem queuePut_fn1 (s : State) (q : Nat) (x : Queue) : (queuePut s q x).fn1 = s.fn1 := rfl
@[simp] theorem queuePut_slices (s : State) (q : Nat) (x : Queue) : (queuePut s q x).slices = s.slices := rfl
@[simp] theorem queuePut_tortin (s : State) (q : Nat) (x : Queue) : (queuePut s q x).tortin = s.tortin := rfl
@[simp] theorem queuePut_tally (s : State) (q : Nat) (x : Queue) : (queuePut s q x).tally = s.tally := rfl
@[simp] theorem queuePut_scorch (s : State) (q : Nat) (x : Queue) : (queuePut s q x).scorch = s.scorch := rfl
@[simp] theorem queuePut_keys (s : State) (q : Nat) (x : Queue) : (queuePut s q x).keys = s.keys := rfl
@[simp] theorem queuePut_seam (s : State) (q : Nat) (x : Queue) : (queuePut s q x).seam = s.seam := rfl
@[simp] theorem queuePut_hamper (s : State) (q : Nat) (x : Queue) : (queuePut s q x).hamper = s.hamper := rfl
@[simp] theorem queuePut_needle (s : State) (q : Nat) (x : Queue) : (queuePut s q x).needle = s.needle := rfl
@[simp] theorem queuePut_press (s : State) (q : Nat) (x : Queue) : (queuePut s q x).press = s.press := rfl
@[simp] theorem queuePut_mangle (s : State) (q : Nat) (x : Queue) : (queuePut s q x).mangle = s.mangle := rfl
@[simp] theorem queuePut_rng (s : State) (q : Nat) (x : Queue) : (queuePut s q x).rng = s.rng := rfl
@[simp] theorem queuePut_dma (s : State) (q : Nat) (x : Queue) : (queuePut s q x).dma = s.dma := rfl
@[simp] theorem queuePut_thm (s : State) (q : Nat) (x : Queue) : (queuePut s q x).thm = s.thm := rfl
@[simp] theorem queuePut_boot (s : State) (q : Nat) (x : Queue) : (queuePut s q x).boot = s.boot := rfl
@[simp] theorem queuePut_lc (s : State) (q : Nat) (x : Queue) : (queuePut s q x).lc = s.lc := rfl

@[simp] theorem bufPut_pending (s : State) (b : Nat) (m : BufMeta) : (bufPut s b m).pending = s.pending := rfl
@[simp] theorem bufPut_out (s : State) (b : Nat) (m : BufMeta) : (bufPut s b m).out = s.out := rfl
@[simp] theorem bufPut_draws (s : State) (b : Nat) (m : BufMeta) : (bufPut s b m).draws = s.draws := rfl
@[simp] theorem bufPut_time (s : State) (b : Nat) (m : BufMeta) : (bufPut s b m).time = s.time := rfl
@[simp] theorem bufPut_pwr (s : State) (b : Nat) (m : BufMeta) : (bufPut s b m).pwr = s.pwr := rfl
@[simp] theorem bufPut_regs (s : State) (b : Nat) (m : BufMeta) : (bufPut s b m).regs = s.regs := rfl
@[simp] theorem bufPut_dev (s : State) (b : Nat) (m : BufMeta) : (bufPut s b m).dev = s.dev := rfl
@[simp] theorem bufPut_agentSeq (s : State) (b : Nat) (m : BufMeta) : (bufPut s b m).agentSeq = s.agentSeq := rfl
@[simp] theorem bufPut_fn0 (s : State) (b : Nat) (m : BufMeta) : (bufPut s b m).fn0 = s.fn0 := rfl
@[simp] theorem bufPut_fn1 (s : State) (b : Nat) (m : BufMeta) : (bufPut s b m).fn1 = s.fn1 := rfl
@[simp] theorem bufPut_slices (s : State) (b : Nat) (m : BufMeta) : (bufPut s b m).slices = s.slices := rfl
@[simp] theorem bufPut_tortin (s : State) (b : Nat) (m : BufMeta) : (bufPut s b m).tortin = s.tortin := rfl
@[simp] theorem bufPut_tally (s : State) (b : Nat) (m : BufMeta) : (bufPut s b m).tally = s.tally := rfl
@[simp] theorem bufPut_scorch (s : State) (b : Nat) (m : BufMeta) : (bufPut s b m).scorch = s.scorch := rfl
@[simp] theorem bufPut_keys (s : State) (b : Nat) (m : BufMeta) : (bufPut s b m).keys = s.keys := rfl
@[simp] theorem bufPut_seam (s : State) (b : Nat) (m : BufMeta) : (bufPut s b m).seam = s.seam := rfl
@[simp] theorem bufPut_needle (s : State) (b : Nat) (m : BufMeta) : (bufPut s b m).needle = s.needle := rfl
@[simp] theorem bufPut_links (s : State) (b : Nat) (m : BufMeta) : (bufPut s b m).links = s.links := rfl
@[simp] theorem bufPut_press (s : State) (b : Nat) (m : BufMeta) : (bufPut s b m).press = s.press := rfl
@[simp] theorem bufPut_mangle (s : State) (b : Nat) (m : BufMeta) : (bufPut s b m).mangle = s.mangle := rfl
@[simp] theorem bufPut_rng (s : State) (b : Nat) (m : BufMeta) : (bufPut s b m).rng = s.rng := rfl
@[simp] theorem bufPut_dma (s : State) (b : Nat) (m : BufMeta) : (bufPut s b m).dma = s.dma := rfl
@[simp] theorem bufPut_thm (s : State) (b : Nat) (m : BufMeta) : (bufPut s b m).thm = s.thm := rfl
@[simp] theorem bufPut_boot (s : State) (b : Nat) (m : BufMeta) : (bufPut s b m).boot = s.boot := rfl
@[simp] theorem bufPut_lc (s : State) (b : Nat) (m : BufMeta) : (bufPut s b m).lc = s.lc := rfl

@[simp] theorem chanPut_pending (s : State) (c : Nat) (x : DmaChan) : (chanPut s c x).pending = s.pending := rfl
@[simp] theorem chanPut_out (s : State) (c : Nat) (x : DmaChan) : (chanPut s c x).out = s.out := rfl
@[simp] theorem chanPut_draws (s : State) (c : Nat) (x : DmaChan) : (chanPut s c x).draws = s.draws := rfl
@[simp] theorem chanPut_time (s : State) (c : Nat) (x : DmaChan) : (chanPut s c x).time = s.time := rfl
@[simp] theorem chanPut_pwr (s : State) (c : Nat) (x : DmaChan) : (chanPut s c x).pwr = s.pwr := rfl
@[simp] theorem chanPut_regs (s : State) (c : Nat) (x : DmaChan) : (chanPut s c x).regs = s.regs := rfl
@[simp] theorem chanPut_dev (s : State) (c : Nat) (x : DmaChan) : (chanPut s c x).dev = s.dev := rfl
@[simp] theorem chanPut_agentSeq (s : State) (c : Nat) (x : DmaChan) : (chanPut s c x).agentSeq = s.agentSeq := rfl
@[simp] theorem chanPut_fn0 (s : State) (c : Nat) (x : DmaChan) : (chanPut s c x).fn0 = s.fn0 := rfl
@[simp] theorem chanPut_fn1 (s : State) (c : Nat) (x : DmaChan) : (chanPut s c x).fn1 = s.fn1 := rfl
@[simp] theorem chanPut_slices (s : State) (c : Nat) (x : DmaChan) : (chanPut s c x).slices = s.slices := rfl
@[simp] theorem chanPut_tortin (s : State) (c : Nat) (x : DmaChan) : (chanPut s c x).tortin = s.tortin := rfl
@[simp] theorem chanPut_tally (s : State) (c : Nat) (x : DmaChan) : (chanPut s c x).tally = s.tally := rfl
@[simp] theorem chanPut_scorch (s : State) (c : Nat) (x : DmaChan) : (chanPut s c x).scorch = s.scorch := rfl
@[simp] theorem chanPut_keys (s : State) (c : Nat) (x : DmaChan) : (chanPut s c x).keys = s.keys := rfl
@[simp] theorem chanPut_seam (s : State) (c : Nat) (x : DmaChan) : (chanPut s c x).seam = s.seam := rfl
@[simp] theorem chanPut_hamper (s : State) (c : Nat) (x : DmaChan) : (chanPut s c x).hamper = s.hamper := rfl
@[simp] theorem chanPut_needle (s : State) (c : Nat) (x : DmaChan) : (chanPut s c x).needle = s.needle := rfl
@[simp] theorem chanPut_links (s : State) (c : Nat) (x : DmaChan) : (chanPut s c x).links = s.links := rfl
@[simp] theorem chanPut_press (s : State) (c : Nat) (x : DmaChan) : (chanPut s c x).press = s.press := rfl
@[simp] theorem chanPut_mangle (s : State) (c : Nat) (x : DmaChan) : (chanPut s c x).mangle = s.mangle := rfl
@[simp] theorem chanPut_rng (s : State) (c : Nat) (x : DmaChan) : (chanPut s c x).rng = s.rng := rfl
@[simp] theorem chanPut_thm (s : State) (c : Nat) (x : DmaChan) : (chanPut s c x).thm = s.thm := rfl
@[simp] theorem chanPut_boot (s : State) (c : Nat) (x : DmaChan) : (chanPut s c x).boot = s.boot := rfl
@[simp] theorem chanPut_lc (s : State) (c : Nat) (x : DmaChan) : (chanPut s c x).lc = s.lc := rfl

@[simp] theorem cmdPut_pending (s : State) (tag : Nat) (c : Cmd) : (cmdPut s tag c).pending = s.pending := rfl
@[simp] theorem cmdPut_out (s : State) (tag : Nat) (c : Cmd) : (cmdPut s tag c).out = s.out := rfl
@[simp] theorem cmdPut_draws (s : State) (tag : Nat) (c : Cmd) : (cmdPut s tag c).draws = s.draws := rfl
@[simp] theorem cmdPut_time (s : State) (tag : Nat) (c : Cmd) : (cmdPut s tag c).time = s.time := rfl
@[simp] theorem cmdPut_pwr (s : State) (tag : Nat) (c : Cmd) : (cmdPut s tag c).pwr = s.pwr := rfl
@[simp] theorem cmdPut_regs (s : State) (tag : Nat) (c : Cmd) : (cmdPut s tag c).regs = s.regs := rfl
@[simp] theorem cmdPut_dev (s : State) (tag : Nat) (c : Cmd) : (cmdPut s tag c).dev = s.dev := rfl
@[simp] theorem cmdPut_agentSeq (s : State) (tag : Nat) (c : Cmd) : (cmdPut s tag c).agentSeq = s.agentSeq := rfl
@[simp] theorem cmdPut_fn0 (s : State) (tag : Nat) (c : Cmd) : (cmdPut s tag c).fn0 = s.fn0 := rfl
@[simp] theorem cmdPut_fn1 (s : State) (tag : Nat) (c : Cmd) : (cmdPut s tag c).fn1 = s.fn1 := rfl
@[simp] theorem cmdPut_slices (s : State) (tag : Nat) (c : Cmd) : (cmdPut s tag c).slices = s.slices := rfl
@[simp] theorem cmdPut_tally (s : State) (tag : Nat) (c : Cmd) : (cmdPut s tag c).tally = s.tally := rfl
@[simp] theorem cmdPut_scorch (s : State) (tag : Nat) (c : Cmd) : (cmdPut s tag c).scorch = s.scorch := rfl
@[simp] theorem cmdPut_keys (s : State) (tag : Nat) (c : Cmd) : (cmdPut s tag c).keys = s.keys := rfl
@[simp] theorem cmdPut_seam (s : State) (tag : Nat) (c : Cmd) : (cmdPut s tag c).seam = s.seam := rfl
@[simp] theorem cmdPut_hamper (s : State) (tag : Nat) (c : Cmd) : (cmdPut s tag c).hamper = s.hamper := rfl
@[simp] theorem cmdPut_needle (s : State) (tag : Nat) (c : Cmd) : (cmdPut s tag c).needle = s.needle := rfl
@[simp] theorem cmdPut_links (s : State) (tag : Nat) (c : Cmd) : (cmdPut s tag c).links = s.links := rfl
@[simp] theorem cmdPut_press (s : State) (tag : Nat) (c : Cmd) : (cmdPut s tag c).press = s.press := rfl
@[simp] theorem cmdPut_mangle (s : State) (tag : Nat) (c : Cmd) : (cmdPut s tag c).mangle = s.mangle := rfl
@[simp] theorem cmdPut_rng (s : State) (tag : Nat) (c : Cmd) : (cmdPut s tag c).rng = s.rng := rfl
@[simp] theorem cmdPut_dma (s : State) (tag : Nat) (c : Cmd) : (cmdPut s tag c).dma = s.dma := rfl
@[simp] theorem cmdPut_thm (s : State) (tag : Nat) (c : Cmd) : (cmdPut s tag c).thm = s.thm := rfl
@[simp] theorem cmdPut_boot (s : State) (tag : Nat) (c : Cmd) : (cmdPut s tag c).boot = s.boot := rfl
@[simp] theorem cmdPut_lc (s : State) (tag : Nat) (c : Cmd) : (cmdPut s tag c).lc = s.lc := rfl

@[simp] theorem cmdDel_pending (s : State) (tag : Nat) : (cmdDel s tag).pending = s.pending := by unfold cmdDel queueDrop; split <;> rfl
@[simp] theorem cmdDel_out (s : State) (tag : Nat) : (cmdDel s tag).out = s.out := by unfold cmdDel queueDrop; split <;> rfl
@[simp] theorem cmdDel_draws (s : State) (tag : Nat) : (cmdDel s tag).draws = s.draws := by unfold cmdDel queueDrop; split <;> rfl
@[simp] theorem cmdDel_time (s : State) (tag : Nat) : (cmdDel s tag).time = s.time := by unfold cmdDel queueDrop; split <;> rfl
@[simp] theorem cmdDel_pwr (s : State) (tag : Nat) : (cmdDel s tag).pwr = s.pwr := by unfold cmdDel queueDrop; split <;> rfl
@[simp] theorem cmdDel_regs (s : State) (tag : Nat) : (cmdDel s tag).regs = s.regs := by unfold cmdDel queueDrop; split <;> rfl
@[simp] theorem cmdDel_dev (s : State) (tag : Nat) : (cmdDel s tag).dev = s.dev := by unfold cmdDel queueDrop; split <;> rfl
@[simp] theorem cmdDel_agentSeq (s : State) (tag : Nat) : (cmdDel s tag).agentSeq = s.agentSeq := by unfold cmdDel queueDrop; split <;> rfl
@[simp] theorem cmdDel_fn0 (s : State) (tag : Nat) : (cmdDel s tag).fn0 = s.fn0 := by unfold cmdDel queueDrop; split <;> rfl
@[simp] theorem cmdDel_fn1 (s : State) (tag : Nat) : (cmdDel s tag).fn1 = s.fn1 := by unfold cmdDel queueDrop; split <;> rfl
@[simp] theorem cmdDel_slices (s : State) (tag : Nat) : (cmdDel s tag).slices = s.slices := by unfold cmdDel queueDrop; split <;> rfl
@[simp] theorem cmdDel_tally (s : State) (tag : Nat) : (cmdDel s tag).tally = s.tally := by unfold cmdDel queueDrop; split <;> rfl
@[simp] theorem cmdDel_scorch (s : State) (tag : Nat) : (cmdDel s tag).scorch = s.scorch := by unfold cmdDel queueDrop; split <;> rfl
@[simp] theorem cmdDel_keys (s : State) (tag : Nat) : (cmdDel s tag).keys = s.keys := by unfold cmdDel queueDrop; split <;> rfl
@[simp] theorem cmdDel_seam (s : State) (tag : Nat) : (cmdDel s tag).seam = s.seam := by unfold cmdDel queueDrop; split <;> rfl
@[simp] theorem cmdDel_hamper (s : State) (tag : Nat) : (cmdDel s tag).hamper = s.hamper := by unfold cmdDel queueDrop; split <;> rfl
@[simp] theorem cmdDel_needle (s : State) (tag : Nat) : (cmdDel s tag).needle = s.needle := by unfold cmdDel queueDrop; split <;> rfl
@[simp] theorem cmdDel_links (s : State) (tag : Nat) : (cmdDel s tag).links = s.links := by unfold cmdDel queueDrop; split <;> rfl
@[simp] theorem cmdDel_press (s : State) (tag : Nat) : (cmdDel s tag).press = s.press := by unfold cmdDel queueDrop; split <;> rfl
@[simp] theorem cmdDel_mangle (s : State) (tag : Nat) : (cmdDel s tag).mangle = (queueDrop s tag).mangle := rfl
@[simp] theorem cmdDel_rng (s : State) (tag : Nat) : (cmdDel s tag).rng = s.rng := by unfold cmdDel queueDrop; split <;> rfl
@[simp] theorem cmdDel_dma (s : State) (tag : Nat) : (cmdDel s tag).dma = s.dma := by unfold cmdDel queueDrop; split <;> rfl
@[simp] theorem cmdDel_thm (s : State) (tag : Nat) : (cmdDel s tag).thm = s.thm := by unfold cmdDel queueDrop; split <;> rfl
@[simp] theorem cmdDel_boot (s : State) (tag : Nat) : (cmdDel s tag).boot = s.boot := by unfold cmdDel queueDrop; split <;> rfl
@[simp] theorem cmdDel_lc (s : State) (tag : Nat) : (cmdDel s tag).lc = s.lc := by unfold cmdDel queueDrop; split <;> rfl

@[simp] theorem regPut_pending (s : State) (a : Nat) (v : Word) : (regPut s a v).pending = s.pending := rfl
@[simp] theorem regPut_out (s : State) (a : Nat) (v : Word) : (regPut s a v).out = s.out := rfl
@[simp] theorem regPut_draws (s : State) (a : Nat) (v : Word) : (regPut s a v).draws = s.draws := rfl
@[simp] theorem regPut_time (s : State) (a : Nat) (v : Word) : (regPut s a v).time = s.time := rfl
@[simp] theorem regPut_pwr (s : State) (a : Nat) (v : Word) : (regPut s a v).pwr = s.pwr := rfl
@[simp] theorem regPut_dev (s : State) (a : Nat) (v : Word) : (regPut s a v).dev = s.dev := rfl
@[simp] theorem regPut_agentSeq (s : State) (a : Nat) (v : Word) : (regPut s a v).agentSeq = s.agentSeq := rfl
@[simp] theorem regPut_fn0 (s : State) (a : Nat) (v : Word) : (regPut s a v).fn0 = s.fn0 := rfl
@[simp] theorem regPut_fn1 (s : State) (a : Nat) (v : Word) : (regPut s a v).fn1 = s.fn1 := rfl
@[simp] theorem regPut_slices (s : State) (a : Nat) (v : Word) : (regPut s a v).slices = s.slices := rfl
@[simp] theorem regPut_tortin (s : State) (a : Nat) (v : Word) : (regPut s a v).tortin = s.tortin := rfl
@[simp] theorem regPut_tally (s : State) (a : Nat) (v : Word) : (regPut s a v).tally = s.tally := rfl
@[simp] theorem regPut_scorch (s : State) (a : Nat) (v : Word) : (regPut s a v).scorch = s.scorch := rfl
@[simp] theorem regPut_keys (s : State) (a : Nat) (v : Word) : (regPut s a v).keys = s.keys := rfl
@[simp] theorem regPut_seam (s : State) (a : Nat) (v : Word) : (regPut s a v).seam = s.seam := rfl
@[simp] theorem regPut_hamper (s : State) (a : Nat) (v : Word) : (regPut s a v).hamper = s.hamper := rfl
@[simp] theorem regPut_needle (s : State) (a : Nat) (v : Word) : (regPut s a v).needle = s.needle := rfl
@[simp] theorem regPut_links (s : State) (a : Nat) (v : Word) : (regPut s a v).links = s.links := rfl
@[simp] theorem regPut_press (s : State) (a : Nat) (v : Word) : (regPut s a v).press = s.press := rfl
@[simp] theorem regPut_mangle (s : State) (a : Nat) (v : Word) : (regPut s a v).mangle = s.mangle := rfl
@[simp] theorem regPut_rng (s : State) (a : Nat) (v : Word) : (regPut s a v).rng = s.rng := rfl
@[simp] theorem regPut_dma (s : State) (a : Nat) (v : Word) : (regPut s a v).dma = s.dma := rfl
@[simp] theorem regPut_thm (s : State) (a : Nat) (v : Word) : (regPut s a v).thm = s.thm := rfl
@[simp] theorem regPut_boot (s : State) (a : Nat) (v : Word) : (regPut s a v).boot = s.boot := rfl
@[simp] theorem regPut_lc (s : State) (a : Nat) (v : Word) : (regPut s a v).lc = s.lc := rfl

@[simp] theorem emit_pending (s : State) (o : Output) : (emit s o).pending = s.pending := rfl
@[simp] theorem emit_draws (s : State) (o : Output) : (emit s o).draws = s.draws := rfl
@[simp] theorem emit_time (s : State) (o : Output) : (emit s o).time = s.time := rfl
@[simp] theorem emit_pwr (s : State) (o : Output) : (emit s o).pwr = s.pwr := rfl
@[simp] theorem emit_regs (s : State) (o : Output) : (emit s o).regs = s.regs := rfl
@[simp] theorem emit_dev (s : State) (o : Output) : (emit s o).dev = s.dev := rfl
@[simp] theorem emit_agentSeq (s : State) (o : Output) : (emit s o).agentSeq = s.agentSeq := rfl
@[simp] theorem emit_fn0 (s : State) (o : Output) : (emit s o).fn0 = s.fn0 := rfl
@[simp] theorem emit_fn1 (s : State) (o : Output) : (emit s o).fn1 = s.fn1 := rfl
@[simp] theorem emit_slices (s : State) (o : Output) : (emit s o).slices = s.slices := rfl
@[simp] theorem emit_tortin (s : State) (o : Output) : (emit s o).tortin = s.tortin := rfl
@[simp] theorem emit_tally (s : State) (o : Output) : (emit s o).tally = s.tally := rfl
@[simp] theorem emit_scorch (s : State) (o : Output) : (emit s o).scorch = s.scorch := rfl
@[simp] theorem emit_keys (s : State) (o : Output) : (emit s o).keys = s.keys := rfl
@[simp] theorem emit_seam (s : State) (o : Output) : (emit s o).seam = s.seam := rfl
@[simp] theorem emit_hamper (s : State) (o : Output) : (emit s o).hamper = s.hamper := rfl
@[simp] theorem emit_needle (s : State) (o : Output) : (emit s o).needle = s.needle := rfl
@[simp] theorem emit_links (s : State) (o : Output) : (emit s o).links = s.links := rfl
@[simp] theorem emit_press (s : State) (o : Output) : (emit s o).press = s.press := rfl
@[simp] theorem emit_mangle (s : State) (o : Output) : (emit s o).mangle = s.mangle := rfl
@[simp] theorem emit_rng (s : State) (o : Output) : (emit s o).rng = s.rng := rfl
@[simp] theorem emit_dma (s : State) (o : Output) : (emit s o).dma = s.dma := rfl
@[simp] theorem emit_thm (s : State) (o : Output) : (emit s o).thm = s.thm := rfl
@[simp] theorem emit_boot (s : State) (o : Output) : (emit s o).boot = s.boot := rfl
@[simp] theorem emit_lc (s : State) (o : Output) : (emit s o).lc = s.lc := rfl

@[simp] theorem slicePut_pending (s : State) (n : Nat) (x : Slice) : (slicePut s n x).pending = s.pending := rfl
@[simp] theorem slicePut_out (s : State) (n : Nat) (x : Slice) : (slicePut s n x).out = s.out := rfl
@[simp] theorem slicePut_draws (s : State) (n : Nat) (x : Slice) : (slicePut s n x).draws = s.draws := rfl
@[simp] theorem slicePut_time (s : State) (n : Nat) (x : Slice) : (slicePut s n x).time = s.time := rfl
@[simp] theorem slicePut_pwr (s : State) (n : Nat) (x : Slice) : (slicePut s n x).pwr = s.pwr := rfl
@[simp] theorem slicePut_regs (s : State) (n : Nat) (x : Slice) : (slicePut s n x).regs = s.regs := rfl
@[simp] theorem slicePut_dev (s : State) (n : Nat) (x : Slice) : (slicePut s n x).dev = s.dev := rfl
@[simp] theorem slicePut_agentSeq (s : State) (n : Nat) (x : Slice) : (slicePut s n x).agentSeq = s.agentSeq := rfl
@[simp] theorem slicePut_fn0 (s : State) (n : Nat) (x : Slice) : (slicePut s n x).fn0 = s.fn0 := rfl
@[simp] theorem slicePut_fn1 (s : State) (n : Nat) (x : Slice) : (slicePut s n x).fn1 = s.fn1 := rfl
@[simp] theorem slicePut_tortin (s : State) (n : Nat) (x : Slice) : (slicePut s n x).tortin = s.tortin := rfl
@[simp] theorem slicePut_tally (s : State) (n : Nat) (x : Slice) : (slicePut s n x).tally = s.tally := rfl
@[simp] theorem slicePut_scorch (s : State) (n : Nat) (x : Slice) : (slicePut s n x).scorch = s.scorch := rfl
@[simp] theorem slicePut_keys (s : State) (n : Nat) (x : Slice) : (slicePut s n x).keys = s.keys := rfl
@[simp] theorem slicePut_seam (s : State) (n : Nat) (x : Slice) : (slicePut s n x).seam = s.seam := rfl
@[simp] theorem slicePut_hamper (s : State) (n : Nat) (x : Slice) : (slicePut s n x).hamper = s.hamper := rfl
@[simp] theorem slicePut_needle (s : State) (n : Nat) (x : Slice) : (slicePut s n x).needle = s.needle := rfl
@[simp] theorem slicePut_links (s : State) (n : Nat) (x : Slice) : (slicePut s n x).links = s.links := rfl
@[simp] theorem slicePut_press (s : State) (n : Nat) (x : Slice) : (slicePut s n x).press = s.press := rfl
@[simp] theorem slicePut_mangle (s : State) (n : Nat) (x : Slice) : (slicePut s n x).mangle = s.mangle := rfl
@[simp] theorem slicePut_rng (s : State) (n : Nat) (x : Slice) : (slicePut s n x).rng = s.rng := rfl
@[simp] theorem slicePut_dma (s : State) (n : Nat) (x : Slice) : (slicePut s n x).dma = s.dma := rfl
@[simp] theorem slicePut_thm (s : State) (n : Nat) (x : Slice) : (slicePut s n x).thm = s.thm := rfl
@[simp] theorem slicePut_boot (s : State) (n : Nat) (x : Slice) : (slicePut s n x).boot = s.boot := rfl
@[simp] theorem slicePut_lc (s : State) (n : Nat) (x : Slice) : (slicePut s n x).lc = s.lc := rfl

@[simp] theorem portPut_pending (s : State) (p : Nat) (x : PortState) : (portPut s p x).pending = s.pending := rfl
@[simp] theorem portPut_out (s : State) (p : Nat) (x : PortState) : (portPut s p x).out = s.out := rfl
@[simp] theorem portPut_draws (s : State) (p : Nat) (x : PortState) : (portPut s p x).draws = s.draws := rfl
@[simp] theorem portPut_time (s : State) (p : Nat) (x : PortState) : (portPut s p x).time = s.time := rfl
@[simp] theorem portPut_pwr (s : State) (p : Nat) (x : PortState) : (portPut s p x).pwr = s.pwr := rfl
@[simp] theorem portPut_regs (s : State) (p : Nat) (x : PortState) : (portPut s p x).regs = s.regs := rfl
@[simp] theorem portPut_dev (s : State) (p : Nat) (x : PortState) : (portPut s p x).dev = s.dev := rfl
@[simp] theorem portPut_agentSeq (s : State) (p : Nat) (x : PortState) : (portPut s p x).agentSeq = s.agentSeq := rfl
@[simp] theorem portPut_fn0 (s : State) (p : Nat) (x : PortState) : (portPut s p x).fn0 = s.fn0 := rfl
@[simp] theorem portPut_fn1 (s : State) (p : Nat) (x : PortState) : (portPut s p x).fn1 = s.fn1 := rfl
@[simp] theorem portPut_slices (s : State) (p : Nat) (x : PortState) : (portPut s p x).slices = s.slices := rfl
@[simp] theorem portPut_tortin (s : State) (p : Nat) (x : PortState) : (portPut s p x).tortin = s.tortin := rfl
@[simp] theorem portPut_tally (s : State) (p : Nat) (x : PortState) : (portPut s p x).tally = s.tally := rfl
@[simp] theorem portPut_scorch (s : State) (p : Nat) (x : PortState) : (portPut s p x).scorch = s.scorch := rfl
@[simp] theorem portPut_keys (s : State) (p : Nat) (x : PortState) : (portPut s p x).keys = s.keys := rfl
@[simp] theorem portPut_seam (s : State) (p : Nat) (x : PortState) : (portPut s p x).seam = s.seam := rfl
@[simp] theorem portPut_hamper (s : State) (p : Nat) (x : PortState) : (portPut s p x).hamper = s.hamper := rfl
@[simp] theorem portPut_needle (s : State) (p : Nat) (x : PortState) : (portPut s p x).needle = s.needle := rfl
@[simp] theorem portPut_press (s : State) (p : Nat) (x : PortState) : (portPut s p x).press = s.press := rfl
@[simp] theorem portPut_mangle (s : State) (p : Nat) (x : PortState) : (portPut s p x).mangle = s.mangle := rfl
@[simp] theorem portPut_rng (s : State) (p : Nat) (x : PortState) : (portPut s p x).rng = s.rng := rfl
@[simp] theorem portPut_dma (s : State) (p : Nat) (x : PortState) : (portPut s p x).dma = s.dma := rfl
@[simp] theorem portPut_thm (s : State) (p : Nat) (x : PortState) : (portPut s p x).thm = s.thm := rfl
@[simp] theorem portPut_boot (s : State) (p : Nat) (x : PortState) : (portPut s p x).boot = s.boot := rfl
@[simp] theorem portPut_lc (s : State) (p : Nat) (x : PortState) : (portPut s p x).lc = s.lc := rfl

@[simp] theorem pipesMap_pending (s : State) (f : PressJob → PressJob) : (pipesMap s f).pending = s.pending := rfl
@[simp] theorem pipesMap_out (s : State) (f : PressJob → PressJob) : (pipesMap s f).out = s.out := rfl
@[simp] theorem pipesMap_draws (s : State) (f : PressJob → PressJob) : (pipesMap s f).draws = s.draws := rfl
@[simp] theorem pipesMap_time (s : State) (f : PressJob → PressJob) : (pipesMap s f).time = s.time := rfl
@[simp] theorem pipesMap_pwr (s : State) (f : PressJob → PressJob) : (pipesMap s f).pwr = s.pwr := rfl
@[simp] theorem pipesMap_regs (s : State) (f : PressJob → PressJob) : (pipesMap s f).regs = s.regs := rfl
@[simp] theorem pipesMap_dev (s : State) (f : PressJob → PressJob) : (pipesMap s f).dev = s.dev := rfl
@[simp] theorem pipesMap_agentSeq (s : State) (f : PressJob → PressJob) : (pipesMap s f).agentSeq = s.agentSeq := rfl
@[simp] theorem pipesMap_fn0 (s : State) (f : PressJob → PressJob) : (pipesMap s f).fn0 = s.fn0 := rfl
@[simp] theorem pipesMap_fn1 (s : State) (f : PressJob → PressJob) : (pipesMap s f).fn1 = s.fn1 := rfl
@[simp] theorem pipesMap_slices (s : State) (f : PressJob → PressJob) : (pipesMap s f).slices = s.slices := rfl
@[simp] theorem pipesMap_tortin (s : State) (f : PressJob → PressJob) : (pipesMap s f).tortin = s.tortin := rfl
@[simp] theorem pipesMap_tally (s : State) (f : PressJob → PressJob) : (pipesMap s f).tally = s.tally := rfl
@[simp] theorem pipesMap_scorch (s : State) (f : PressJob → PressJob) : (pipesMap s f).scorch = s.scorch := rfl
@[simp] theorem pipesMap_keys (s : State) (f : PressJob → PressJob) : (pipesMap s f).keys = s.keys := rfl
@[simp] theorem pipesMap_seam (s : State) (f : PressJob → PressJob) : (pipesMap s f).seam = s.seam := rfl
@[simp] theorem pipesMap_hamper (s : State) (f : PressJob → PressJob) : (pipesMap s f).hamper = s.hamper := rfl
@[simp] theorem pipesMap_needle (s : State) (f : PressJob → PressJob) : (pipesMap s f).needle = s.needle := rfl
@[simp] theorem pipesMap_links (s : State) (f : PressJob → PressJob) : (pipesMap s f).links = s.links := rfl
@[simp] theorem pipesMap_mangle (s : State) (f : PressJob → PressJob) : (pipesMap s f).mangle = s.mangle := rfl
@[simp] theorem pipesMap_rng (s : State) (f : PressJob → PressJob) : (pipesMap s f).rng = s.rng := rfl
@[simp] theorem pipesMap_dma (s : State) (f : PressJob → PressJob) : (pipesMap s f).dma = s.dma := rfl
@[simp] theorem pipesMap_thm (s : State) (f : PressJob → PressJob) : (pipesMap s f).thm = s.thm := rfl
@[simp] theorem pipesMap_boot (s : State) (f : PressJob → PressJob) : (pipesMap s f).boot = s.boot := rfl
@[simp] theorem pipesMap_lc (s : State) (f : PressJob → PressJob) : (pipesMap s f).lc = s.lc := rfl

@[simp] theorem ctxPut_pending (s : State) (i : Nat) (x : SymCtx) : (ctxPut s i x).pending = s.pending := rfl
@[simp] theorem ctxPut_out (s : State) (i : Nat) (x : SymCtx) : (ctxPut s i x).out = s.out := rfl
@[simp] theorem ctxPut_draws (s : State) (i : Nat) (x : SymCtx) : (ctxPut s i x).draws = s.draws := rfl
@[simp] theorem ctxPut_time (s : State) (i : Nat) (x : SymCtx) : (ctxPut s i x).time = s.time := rfl
@[simp] theorem ctxPut_pwr (s : State) (i : Nat) (x : SymCtx) : (ctxPut s i x).pwr = s.pwr := rfl
@[simp] theorem ctxPut_regs (s : State) (i : Nat) (x : SymCtx) : (ctxPut s i x).regs = s.regs := rfl
@[simp] theorem ctxPut_dev (s : State) (i : Nat) (x : SymCtx) : (ctxPut s i x).dev = s.dev := rfl
@[simp] theorem ctxPut_agentSeq (s : State) (i : Nat) (x : SymCtx) : (ctxPut s i x).agentSeq = s.agentSeq := rfl
@[simp] theorem ctxPut_fn0 (s : State) (i : Nat) (x : SymCtx) : (ctxPut s i x).fn0 = s.fn0 := rfl
@[simp] theorem ctxPut_fn1 (s : State) (i : Nat) (x : SymCtx) : (ctxPut s i x).fn1 = s.fn1 := rfl
@[simp] theorem ctxPut_slices (s : State) (i : Nat) (x : SymCtx) : (ctxPut s i x).slices = s.slices := rfl
@[simp] theorem ctxPut_tortin (s : State) (i : Nat) (x : SymCtx) : (ctxPut s i x).tortin = s.tortin := rfl
@[simp] theorem ctxPut_tally (s : State) (i : Nat) (x : SymCtx) : (ctxPut s i x).tally = s.tally := rfl
@[simp] theorem ctxPut_scorch (s : State) (i : Nat) (x : SymCtx) : (ctxPut s i x).scorch = s.scorch := rfl
@[simp] theorem ctxPut_keys (s : State) (i : Nat) (x : SymCtx) : (ctxPut s i x).keys = s.keys := rfl
@[simp] theorem ctxPut_seam (s : State) (i : Nat) (x : SymCtx) : (ctxPut s i x).seam = s.seam := rfl
@[simp] theorem ctxPut_hamper (s : State) (i : Nat) (x : SymCtx) : (ctxPut s i x).hamper = s.hamper := rfl
@[simp] theorem ctxPut_needle (s : State) (i : Nat) (x : SymCtx) : (ctxPut s i x).needle = s.needle := rfl
@[simp] theorem ctxPut_links (s : State) (i : Nat) (x : SymCtx) : (ctxPut s i x).links = s.links := rfl
@[simp] theorem ctxPut_mangle (s : State) (i : Nat) (x : SymCtx) : (ctxPut s i x).mangle = s.mangle := rfl
@[simp] theorem ctxPut_rng (s : State) (i : Nat) (x : SymCtx) : (ctxPut s i x).rng = s.rng := rfl
@[simp] theorem ctxPut_dma (s : State) (i : Nat) (x : SymCtx) : (ctxPut s i x).dma = s.dma := rfl
@[simp] theorem ctxPut_thm (s : State) (i : Nat) (x : SymCtx) : (ctxPut s i x).thm = s.thm := rfl
@[simp] theorem ctxPut_boot (s : State) (i : Nat) (x : SymCtx) : (ctxPut s i x).boot = s.boot := rfl
@[simp] theorem ctxPut_lc (s : State) (i : Nat) (x : SymCtx) : (ctxPut s i x).lc = s.lc := rfl

@[simp] theorem progsSet_pending (s : State) (t : Tbl Program) : (progsSet s t).pending = s.pending := rfl
@[simp] theorem progsSet_out (s : State) (t : Tbl Program) : (progsSet s t).out = s.out := rfl
@[simp] theorem progsSet_draws (s : State) (t : Tbl Program) : (progsSet s t).draws = s.draws := rfl
@[simp] theorem progsSet_time (s : State) (t : Tbl Program) : (progsSet s t).time = s.time := rfl
@[simp] theorem progsSet_pwr (s : State) (t : Tbl Program) : (progsSet s t).pwr = s.pwr := rfl
@[simp] theorem progsSet_regs (s : State) (t : Tbl Program) : (progsSet s t).regs = s.regs := rfl
@[simp] theorem progsSet_dev (s : State) (t : Tbl Program) : (progsSet s t).dev = s.dev := rfl
@[simp] theorem progsSet_agentSeq (s : State) (t : Tbl Program) : (progsSet s t).agentSeq = s.agentSeq := rfl
@[simp] theorem progsSet_fn0 (s : State) (t : Tbl Program) : (progsSet s t).fn0 = s.fn0 := rfl
@[simp] theorem progsSet_fn1 (s : State) (t : Tbl Program) : (progsSet s t).fn1 = s.fn1 := rfl
@[simp] theorem progsSet_slices (s : State) (t : Tbl Program) : (progsSet s t).slices = s.slices := rfl
@[simp] theorem progsSet_tortin (s : State) (t : Tbl Program) : (progsSet s t).tortin = s.tortin := rfl
@[simp] theorem progsSet_tally (s : State) (t : Tbl Program) : (progsSet s t).tally = s.tally := rfl
@[simp] theorem progsSet_scorch (s : State) (t : Tbl Program) : (progsSet s t).scorch = s.scorch := rfl
@[simp] theorem progsSet_keys (s : State) (t : Tbl Program) : (progsSet s t).keys = s.keys := rfl
@[simp] theorem progsSet_seam (s : State) (t : Tbl Program) : (progsSet s t).seam = s.seam := rfl
@[simp] theorem progsSet_hamper (s : State) (t : Tbl Program) : (progsSet s t).hamper = s.hamper := rfl
@[simp] theorem progsSet_links (s : State) (t : Tbl Program) : (progsSet s t).links = s.links := rfl
@[simp] theorem progsSet_press (s : State) (t : Tbl Program) : (progsSet s t).press = s.press := rfl
@[simp] theorem progsSet_mangle (s : State) (t : Tbl Program) : (progsSet s t).mangle = s.mangle := rfl
@[simp] theorem progsSet_rng (s : State) (t : Tbl Program) : (progsSet s t).rng = s.rng := rfl
@[simp] theorem progsSet_dma (s : State) (t : Tbl Program) : (progsSet s t).dma = s.dma := rfl
@[simp] theorem progsSet_thm (s : State) (t : Tbl Program) : (progsSet s t).thm = s.thm := rfl
@[simp] theorem progsSet_boot (s : State) (t : Tbl Program) : (progsSet s t).boot = s.boot := rfl
@[simp] theorem progsSet_lc (s : State) (t : Tbl Program) : (progsSet s t).lc = s.lc := rfl

@[simp] theorem lintPut_pending (s : State) (n : Nat) (x : LintSrc) : (lintPut s n x).pending = s.pending := rfl
@[simp] theorem lintPut_out (s : State) (n : Nat) (x : LintSrc) : (lintPut s n x).out = s.out := rfl
@[simp] theorem lintPut_draws (s : State) (n : Nat) (x : LintSrc) : (lintPut s n x).draws = s.draws := rfl
@[simp] theorem lintPut_time (s : State) (n : Nat) (x : LintSrc) : (lintPut s n x).time = s.time := rfl
@[simp] theorem lintPut_pwr (s : State) (n : Nat) (x : LintSrc) : (lintPut s n x).pwr = s.pwr := rfl
@[simp] theorem lintPut_regs (s : State) (n : Nat) (x : LintSrc) : (lintPut s n x).regs = s.regs := rfl
@[simp] theorem lintPut_dev (s : State) (n : Nat) (x : LintSrc) : (lintPut s n x).dev = s.dev := rfl
@[simp] theorem lintPut_agentSeq (s : State) (n : Nat) (x : LintSrc) : (lintPut s n x).agentSeq = s.agentSeq := rfl
@[simp] theorem lintPut_fn0 (s : State) (n : Nat) (x : LintSrc) : (lintPut s n x).fn0 = s.fn0 := rfl
@[simp] theorem lintPut_fn1 (s : State) (n : Nat) (x : LintSrc) : (lintPut s n x).fn1 = s.fn1 := rfl
@[simp] theorem lintPut_slices (s : State) (n : Nat) (x : LintSrc) : (lintPut s n x).slices = s.slices := rfl
@[simp] theorem lintPut_tortin (s : State) (n : Nat) (x : LintSrc) : (lintPut s n x).tortin = s.tortin := rfl
@[simp] theorem lintPut_tally (s : State) (n : Nat) (x : LintSrc) : (lintPut s n x).tally = s.tally := rfl
@[simp] theorem lintPut_scorch (s : State) (n : Nat) (x : LintSrc) : (lintPut s n x).scorch = s.scorch := rfl
@[simp] theorem lintPut_keys (s : State) (n : Nat) (x : LintSrc) : (lintPut s n x).keys = s.keys := rfl
@[simp] theorem lintPut_seam (s : State) (n : Nat) (x : LintSrc) : (lintPut s n x).seam = s.seam := rfl
@[simp] theorem lintPut_hamper (s : State) (n : Nat) (x : LintSrc) : (lintPut s n x).hamper = s.hamper := rfl
@[simp] theorem lintPut_needle (s : State) (n : Nat) (x : LintSrc) : (lintPut s n x).needle = s.needle := rfl
@[simp] theorem lintPut_links (s : State) (n : Nat) (x : LintSrc) : (lintPut s n x).links = s.links := rfl
@[simp] theorem lintPut_press (s : State) (n : Nat) (x : LintSrc) : (lintPut s n x).press = s.press := rfl
@[simp] theorem lintPut_mangle (s : State) (n : Nat) (x : LintSrc) : (lintPut s n x).mangle = s.mangle := rfl
@[simp] theorem lintPut_dma (s : State) (n : Nat) (x : LintSrc) : (lintPut s n x).dma = s.dma := rfl
@[simp] theorem lintPut_thm (s : State) (n : Nat) (x : LintSrc) : (lintPut s n x).thm = s.thm := rfl
@[simp] theorem lintPut_boot (s : State) (n : Nat) (x : LintSrc) : (lintPut s n x).boot = s.boot := rfl
@[simp] theorem lintPut_lc (s : State) (n : Nat) (x : LintSrc) : (lintPut s n x).lc = s.lc := rfl

@[simp] theorem unitPut_pending (s : State) (u : Nat) (os : List MangleOp) : (unitPut s u os).pending = s.pending := rfl
@[simp] theorem unitPut_out (s : State) (u : Nat) (os : List MangleOp) : (unitPut s u os).out = s.out := rfl
@[simp] theorem unitPut_draws (s : State) (u : Nat) (os : List MangleOp) : (unitPut s u os).draws = s.draws := rfl
@[simp] theorem unitPut_time (s : State) (u : Nat) (os : List MangleOp) : (unitPut s u os).time = s.time := rfl
@[simp] theorem unitPut_pwr (s : State) (u : Nat) (os : List MangleOp) : (unitPut s u os).pwr = s.pwr := rfl
@[simp] theorem unitPut_regs (s : State) (u : Nat) (os : List MangleOp) : (unitPut s u os).regs = s.regs := rfl
@[simp] theorem unitPut_dev (s : State) (u : Nat) (os : List MangleOp) : (unitPut s u os).dev = s.dev := rfl
@[simp] theorem unitPut_agentSeq (s : State) (u : Nat) (os : List MangleOp) : (unitPut s u os).agentSeq = s.agentSeq := rfl
@[simp] theorem unitPut_fn0 (s : State) (u : Nat) (os : List MangleOp) : (unitPut s u os).fn0 = s.fn0 := rfl
@[simp] theorem unitPut_fn1 (s : State) (u : Nat) (os : List MangleOp) : (unitPut s u os).fn1 = s.fn1 := rfl
@[simp] theorem unitPut_slices (s : State) (u : Nat) (os : List MangleOp) : (unitPut s u os).slices = s.slices := rfl
@[simp] theorem unitPut_tortin (s : State) (u : Nat) (os : List MangleOp) : (unitPut s u os).tortin = s.tortin := rfl
@[simp] theorem unitPut_tally (s : State) (u : Nat) (os : List MangleOp) : (unitPut s u os).tally = s.tally := rfl
@[simp] theorem unitPut_scorch (s : State) (u : Nat) (os : List MangleOp) : (unitPut s u os).scorch = s.scorch := rfl
@[simp] theorem unitPut_keys (s : State) (u : Nat) (os : List MangleOp) : (unitPut s u os).keys = s.keys := rfl
@[simp] theorem unitPut_seam (s : State) (u : Nat) (os : List MangleOp) : (unitPut s u os).seam = s.seam := rfl
@[simp] theorem unitPut_hamper (s : State) (u : Nat) (os : List MangleOp) : (unitPut s u os).hamper = s.hamper := rfl
@[simp] theorem unitPut_needle (s : State) (u : Nat) (os : List MangleOp) : (unitPut s u os).needle = s.needle := rfl
@[simp] theorem unitPut_links (s : State) (u : Nat) (os : List MangleOp) : (unitPut s u os).links = s.links := rfl
@[simp] theorem unitPut_press (s : State) (u : Nat) (os : List MangleOp) : (unitPut s u os).press = s.press := rfl
@[simp] theorem unitPut_rng (s : State) (u : Nat) (os : List MangleOp) : (unitPut s u os).rng = s.rng := rfl
@[simp] theorem unitPut_dma (s : State) (u : Nat) (os : List MangleOp) : (unitPut s u os).dma = s.dma := rfl
@[simp] theorem unitPut_thm (s : State) (u : Nat) (os : List MangleOp) : (unitPut s u os).thm = s.thm := rfl
@[simp] theorem unitPut_boot (s : State) (u : Nat) (os : List MangleOp) : (unitPut s u os).boot = s.boot := rfl
@[simp] theorem unitPut_lc (s : State) (u : Nat) (os : List MangleOp) : (unitPut s u os).lc = s.lc := rfl

@[simp] theorem mangleMap_pending (s : State) (f : MangleOp → MangleOp) : (mangleMap s f).pending = s.pending := rfl
@[simp] theorem mangleMap_out (s : State) (f : MangleOp → MangleOp) : (mangleMap s f).out = s.out := rfl
@[simp] theorem mangleMap_draws (s : State) (f : MangleOp → MangleOp) : (mangleMap s f).draws = s.draws := rfl
@[simp] theorem mangleMap_time (s : State) (f : MangleOp → MangleOp) : (mangleMap s f).time = s.time := rfl
@[simp] theorem mangleMap_pwr (s : State) (f : MangleOp → MangleOp) : (mangleMap s f).pwr = s.pwr := rfl
@[simp] theorem mangleMap_regs (s : State) (f : MangleOp → MangleOp) : (mangleMap s f).regs = s.regs := rfl
@[simp] theorem mangleMap_dev (s : State) (f : MangleOp → MangleOp) : (mangleMap s f).dev = s.dev := rfl
@[simp] theorem mangleMap_agentSeq (s : State) (f : MangleOp → MangleOp) : (mangleMap s f).agentSeq = s.agentSeq := rfl
@[simp] theorem mangleMap_fn0 (s : State) (f : MangleOp → MangleOp) : (mangleMap s f).fn0 = s.fn0 := rfl
@[simp] theorem mangleMap_fn1 (s : State) (f : MangleOp → MangleOp) : (mangleMap s f).fn1 = s.fn1 := rfl
@[simp] theorem mangleMap_slices (s : State) (f : MangleOp → MangleOp) : (mangleMap s f).slices = s.slices := rfl
@[simp] theorem mangleMap_tortin (s : State) (f : MangleOp → MangleOp) : (mangleMap s f).tortin = s.tortin := rfl
@[simp] theorem mangleMap_tally (s : State) (f : MangleOp → MangleOp) : (mangleMap s f).tally = s.tally := rfl
@[simp] theorem mangleMap_scorch (s : State) (f : MangleOp → MangleOp) : (mangleMap s f).scorch = s.scorch := rfl
@[simp] theorem mangleMap_keys (s : State) (f : MangleOp → MangleOp) : (mangleMap s f).keys = s.keys := rfl
@[simp] theorem mangleMap_seam (s : State) (f : MangleOp → MangleOp) : (mangleMap s f).seam = s.seam := rfl
@[simp] theorem mangleMap_hamper (s : State) (f : MangleOp → MangleOp) : (mangleMap s f).hamper = s.hamper := rfl
@[simp] theorem mangleMap_needle (s : State) (f : MangleOp → MangleOp) : (mangleMap s f).needle = s.needle := rfl
@[simp] theorem mangleMap_links (s : State) (f : MangleOp → MangleOp) : (mangleMap s f).links = s.links := rfl
@[simp] theorem mangleMap_press (s : State) (f : MangleOp → MangleOp) : (mangleMap s f).press = s.press := rfl
@[simp] theorem mangleMap_rng (s : State) (f : MangleOp → MangleOp) : (mangleMap s f).rng = s.rng := rfl
@[simp] theorem mangleMap_dma (s : State) (f : MangleOp → MangleOp) : (mangleMap s f).dma = s.dma := rfl
@[simp] theorem mangleMap_thm (s : State) (f : MangleOp → MangleOp) : (mangleMap s f).thm = s.thm := rfl
@[simp] theorem mangleMap_boot (s : State) (f : MangleOp → MangleOp) : (mangleMap s f).boot = s.boot := rfl
@[simp] theorem mangleMap_lc (s : State) (f : MangleOp → MangleOp) : (mangleMap s f).lc = s.lc := rfl

@[simp] theorem retryDel_pending (s : State) (w : HostAccess) : (retryDel s w).pending = s.pending := rfl
@[simp] theorem retryDel_out (s : State) (w : HostAccess) : (retryDel s w).out = s.out := rfl
@[simp] theorem retryDel_draws (s : State) (w : HostAccess) : (retryDel s w).draws = s.draws := rfl
@[simp] theorem retryDel_time (s : State) (w : HostAccess) : (retryDel s w).time = s.time := rfl
@[simp] theorem retryDel_pwr (s : State) (w : HostAccess) : (retryDel s w).pwr = s.pwr := rfl
@[simp] theorem retryDel_regs (s : State) (w : HostAccess) : (retryDel s w).regs = s.regs := rfl
@[simp] theorem retryDel_dev (s : State) (w : HostAccess) : (retryDel s w).dev = s.dev := rfl
@[simp] theorem retryDel_agentSeq (s : State) (w : HostAccess) : (retryDel s w).agentSeq = s.agentSeq := rfl
@[simp] theorem retryDel_fn0 (s : State) (w : HostAccess) : (retryDel s w).fn0 = s.fn0 := rfl
@[simp] theorem retryDel_fn1 (s : State) (w : HostAccess) : (retryDel s w).fn1 = s.fn1 := rfl
@[simp] theorem retryDel_slices (s : State) (w : HostAccess) : (retryDel s w).slices = s.slices := rfl
@[simp] theorem retryDel_tally (s : State) (w : HostAccess) : (retryDel s w).tally = s.tally := rfl
@[simp] theorem retryDel_scorch (s : State) (w : HostAccess) : (retryDel s w).scorch = s.scorch := rfl
@[simp] theorem retryDel_keys (s : State) (w : HostAccess) : (retryDel s w).keys = s.keys := rfl
@[simp] theorem retryDel_seam (s : State) (w : HostAccess) : (retryDel s w).seam = s.seam := rfl
@[simp] theorem retryDel_hamper (s : State) (w : HostAccess) : (retryDel s w).hamper = s.hamper := rfl
@[simp] theorem retryDel_needle (s : State) (w : HostAccess) : (retryDel s w).needle = s.needle := rfl
@[simp] theorem retryDel_links (s : State) (w : HostAccess) : (retryDel s w).links = s.links := rfl
@[simp] theorem retryDel_press (s : State) (w : HostAccess) : (retryDel s w).press = s.press := rfl
@[simp] theorem retryDel_mangle (s : State) (w : HostAccess) : (retryDel s w).mangle = s.mangle := rfl
@[simp] theorem retryDel_rng (s : State) (w : HostAccess) : (retryDel s w).rng = s.rng := rfl
@[simp] theorem retryDel_dma (s : State) (w : HostAccess) : (retryDel s w).dma = s.dma := rfl
@[simp] theorem retryDel_thm (s : State) (w : HostAccess) : (retryDel s w).thm = s.thm := rfl
@[simp] theorem retryDel_boot (s : State) (w : HostAccess) : (retryDel s w).boot = s.boot := rfl
@[simp] theorem retryDel_lc (s : State) (w : HostAccess) : (retryDel s w).lc = s.lc := rfl

@[simp] theorem thmAnswer_pending (s : State) (r : ThmReq) (status : Nat) (a : Nat) (nums : List Nat) (data : List Byte) : (thmAnswer s r status a nums data).pending = s.pending := rfl
@[simp] theorem thmAnswer_out (s : State) (r : ThmReq) (status : Nat) (a : Nat) (nums : List Nat) (data : List Byte) : (thmAnswer s r status a nums data).out = s.out := rfl
@[simp] theorem thmAnswer_draws (s : State) (r : ThmReq) (status : Nat) (a : Nat) (nums : List Nat) (data : List Byte) : (thmAnswer s r status a nums data).draws = s.draws := rfl
@[simp] theorem thmAnswer_time (s : State) (r : ThmReq) (status : Nat) (a : Nat) (nums : List Nat) (data : List Byte) : (thmAnswer s r status a nums data).time = s.time := rfl
@[simp] theorem thmAnswer_pwr (s : State) (r : ThmReq) (status : Nat) (a : Nat) (nums : List Nat) (data : List Byte) : (thmAnswer s r status a nums data).pwr = s.pwr := rfl
@[simp] theorem thmAnswer_regs (s : State) (r : ThmReq) (status : Nat) (a : Nat) (nums : List Nat) (data : List Byte) : (thmAnswer s r status a nums data).regs = s.regs := rfl
@[simp] theorem thmAnswer_dev (s : State) (r : ThmReq) (status : Nat) (a : Nat) (nums : List Nat) (data : List Byte) : (thmAnswer s r status a nums data).dev = s.dev := rfl
@[simp] theorem thmAnswer_agentSeq (s : State) (r : ThmReq) (status : Nat) (a : Nat) (nums : List Nat) (data : List Byte) : (thmAnswer s r status a nums data).agentSeq = s.agentSeq := rfl
@[simp] theorem thmAnswer_fn0 (s : State) (r : ThmReq) (status : Nat) (a : Nat) (nums : List Nat) (data : List Byte) : (thmAnswer s r status a nums data).fn0 = s.fn0 := rfl
@[simp] theorem thmAnswer_fn1 (s : State) (r : ThmReq) (status : Nat) (a : Nat) (nums : List Nat) (data : List Byte) : (thmAnswer s r status a nums data).fn1 = s.fn1 := rfl
@[simp] theorem thmAnswer_slices (s : State) (r : ThmReq) (status : Nat) (a : Nat) (nums : List Nat) (data : List Byte) : (thmAnswer s r status a nums data).slices = s.slices := rfl
@[simp] theorem thmAnswer_tortin (s : State) (r : ThmReq) (status : Nat) (a : Nat) (nums : List Nat) (data : List Byte) : (thmAnswer s r status a nums data).tortin = s.tortin := rfl
@[simp] theorem thmAnswer_tally (s : State) (r : ThmReq) (status : Nat) (a : Nat) (nums : List Nat) (data : List Byte) : (thmAnswer s r status a nums data).tally = s.tally := rfl
@[simp] theorem thmAnswer_scorch (s : State) (r : ThmReq) (status : Nat) (a : Nat) (nums : List Nat) (data : List Byte) : (thmAnswer s r status a nums data).scorch = s.scorch := rfl
@[simp] theorem thmAnswer_keys (s : State) (r : ThmReq) (status : Nat) (a : Nat) (nums : List Nat) (data : List Byte) : (thmAnswer s r status a nums data).keys = s.keys := rfl
@[simp] theorem thmAnswer_seam (s : State) (r : ThmReq) (status : Nat) (a : Nat) (nums : List Nat) (data : List Byte) : (thmAnswer s r status a nums data).seam = s.seam := rfl
@[simp] theorem thmAnswer_hamper (s : State) (r : ThmReq) (status : Nat) (a : Nat) (nums : List Nat) (data : List Byte) : (thmAnswer s r status a nums data).hamper = s.hamper := rfl
@[simp] theorem thmAnswer_needle (s : State) (r : ThmReq) (status : Nat) (a : Nat) (nums : List Nat) (data : List Byte) : (thmAnswer s r status a nums data).needle = s.needle := rfl
@[simp] theorem thmAnswer_links (s : State) (r : ThmReq) (status : Nat) (a : Nat) (nums : List Nat) (data : List Byte) : (thmAnswer s r status a nums data).links = s.links := rfl
@[simp] theorem thmAnswer_press (s : State) (r : ThmReq) (status : Nat) (a : Nat) (nums : List Nat) (data : List Byte) : (thmAnswer s r status a nums data).press = s.press := rfl
@[simp] theorem thmAnswer_mangle (s : State) (r : ThmReq) (status : Nat) (a : Nat) (nums : List Nat) (data : List Byte) : (thmAnswer s r status a nums data).mangle = s.mangle := rfl
@[simp] theorem thmAnswer_rng (s : State) (r : ThmReq) (status : Nat) (a : Nat) (nums : List Nat) (data : List Byte) : (thmAnswer s r status a nums data).rng = s.rng := rfl
@[simp] theorem thmAnswer_dma (s : State) (r : ThmReq) (status : Nat) (a : Nat) (nums : List Nat) (data : List Byte) : (thmAnswer s r status a nums data).dma = s.dma := rfl
@[simp] theorem thmAnswer_boot (s : State) (r : ThmReq) (status : Nat) (a : Nat) (nums : List Nat) (data : List Byte) : (thmAnswer s r status a nums data).boot = s.boot := rfl
@[simp] theorem thmAnswer_lc (s : State) (r : ThmReq) (status : Nat) (a : Nat) (nums : List Nat) (data : List Byte) : (thmAnswer s r status a nums data).lc = s.lc := rfl

@[simp] theorem latchPut_pending (s : State) (r : Requester) (hi : Nat) (v : Word) : (latchPut s r hi v).pending = s.pending := rfl
@[simp] theorem latchPut_out (s : State) (r : Requester) (hi : Nat) (v : Word) : (latchPut s r hi v).out = s.out := rfl
@[simp] theorem latchPut_draws (s : State) (r : Requester) (hi : Nat) (v : Word) : (latchPut s r hi v).draws = s.draws := rfl
@[simp] theorem latchPut_time (s : State) (r : Requester) (hi : Nat) (v : Word) : (latchPut s r hi v).time = s.time := rfl
@[simp] theorem latchPut_pwr (s : State) (r : Requester) (hi : Nat) (v : Word) : (latchPut s r hi v).pwr = s.pwr := rfl
@[simp] theorem latchPut_dev (s : State) (r : Requester) (hi : Nat) (v : Word) : (latchPut s r hi v).dev = s.dev := rfl
@[simp] theorem latchPut_agentSeq (s : State) (r : Requester) (hi : Nat) (v : Word) : (latchPut s r hi v).agentSeq = s.agentSeq := rfl
@[simp] theorem latchPut_fn0 (s : State) (r : Requester) (hi : Nat) (v : Word) : (latchPut s r hi v).fn0 = s.fn0 := rfl
@[simp] theorem latchPut_fn1 (s : State) (r : Requester) (hi : Nat) (v : Word) : (latchPut s r hi v).fn1 = s.fn1 := rfl
@[simp] theorem latchPut_slices (s : State) (r : Requester) (hi : Nat) (v : Word) : (latchPut s r hi v).slices = s.slices := rfl
@[simp] theorem latchPut_tortin (s : State) (r : Requester) (hi : Nat) (v : Word) : (latchPut s r hi v).tortin = s.tortin := rfl
@[simp] theorem latchPut_tally (s : State) (r : Requester) (hi : Nat) (v : Word) : (latchPut s r hi v).tally = s.tally := rfl
@[simp] theorem latchPut_scorch (s : State) (r : Requester) (hi : Nat) (v : Word) : (latchPut s r hi v).scorch = s.scorch := rfl
@[simp] theorem latchPut_keys (s : State) (r : Requester) (hi : Nat) (v : Word) : (latchPut s r hi v).keys = s.keys := rfl
@[simp] theorem latchPut_seam (s : State) (r : Requester) (hi : Nat) (v : Word) : (latchPut s r hi v).seam = s.seam := rfl
@[simp] theorem latchPut_hamper (s : State) (r : Requester) (hi : Nat) (v : Word) : (latchPut s r hi v).hamper = s.hamper := rfl
@[simp] theorem latchPut_needle (s : State) (r : Requester) (hi : Nat) (v : Word) : (latchPut s r hi v).needle = s.needle := rfl
@[simp] theorem latchPut_links (s : State) (r : Requester) (hi : Nat) (v : Word) : (latchPut s r hi v).links = s.links := rfl
@[simp] theorem latchPut_press (s : State) (r : Requester) (hi : Nat) (v : Word) : (latchPut s r hi v).press = s.press := rfl
@[simp] theorem latchPut_mangle (s : State) (r : Requester) (hi : Nat) (v : Word) : (latchPut s r hi v).mangle = s.mangle := rfl
@[simp] theorem latchPut_rng (s : State) (r : Requester) (hi : Nat) (v : Word) : (latchPut s r hi v).rng = s.rng := rfl
@[simp] theorem latchPut_dma (s : State) (r : Requester) (hi : Nat) (v : Word) : (latchPut s r hi v).dma = s.dma := rfl
@[simp] theorem latchPut_thm (s : State) (r : Requester) (hi : Nat) (v : Word) : (latchPut s r hi v).thm = s.thm := rfl
@[simp] theorem latchPut_boot (s : State) (r : Requester) (hi : Nat) (v : Word) : (latchPut s r hi v).boot = s.boot := rfl
@[simp] theorem latchPut_lc (s : State) (r : Requester) (hi : Nat) (v : Word) : (latchPut s r hi v).lc = s.lc := rfl

@[simp] theorem widePut_pending (s : State) (r : Requester) (k : Nat) (w : WideWin) : (widePut s r k w).pending = s.pending := rfl
@[simp] theorem widePut_out (s : State) (r : Requester) (k : Nat) (w : WideWin) : (widePut s r k w).out = s.out := rfl
@[simp] theorem widePut_draws (s : State) (r : Requester) (k : Nat) (w : WideWin) : (widePut s r k w).draws = s.draws := rfl
@[simp] theorem widePut_time (s : State) (r : Requester) (k : Nat) (w : WideWin) : (widePut s r k w).time = s.time := rfl
@[simp] theorem widePut_pwr (s : State) (r : Requester) (k : Nat) (w : WideWin) : (widePut s r k w).pwr = s.pwr := rfl
@[simp] theorem widePut_dev (s : State) (r : Requester) (k : Nat) (w : WideWin) : (widePut s r k w).dev = s.dev := rfl
@[simp] theorem widePut_agentSeq (s : State) (r : Requester) (k : Nat) (w : WideWin) : (widePut s r k w).agentSeq = s.agentSeq := rfl
@[simp] theorem widePut_fn0 (s : State) (r : Requester) (k : Nat) (w : WideWin) : (widePut s r k w).fn0 = s.fn0 := rfl
@[simp] theorem widePut_fn1 (s : State) (r : Requester) (k : Nat) (w : WideWin) : (widePut s r k w).fn1 = s.fn1 := rfl
@[simp] theorem widePut_slices (s : State) (r : Requester) (k : Nat) (w : WideWin) : (widePut s r k w).slices = s.slices := rfl
@[simp] theorem widePut_tortin (s : State) (r : Requester) (k : Nat) (w : WideWin) : (widePut s r k w).tortin = s.tortin := rfl
@[simp] theorem widePut_tally (s : State) (r : Requester) (k : Nat) (w : WideWin) : (widePut s r k w).tally = s.tally := rfl
@[simp] theorem widePut_scorch (s : State) (r : Requester) (k : Nat) (w : WideWin) : (widePut s r k w).scorch = s.scorch := rfl
@[simp] theorem widePut_keys (s : State) (r : Requester) (k : Nat) (w : WideWin) : (widePut s r k w).keys = s.keys := rfl
@[simp] theorem widePut_seam (s : State) (r : Requester) (k : Nat) (w : WideWin) : (widePut s r k w).seam = s.seam := rfl
@[simp] theorem widePut_hamper (s : State) (r : Requester) (k : Nat) (w : WideWin) : (widePut s r k w).hamper = s.hamper := rfl
@[simp] theorem widePut_needle (s : State) (r : Requester) (k : Nat) (w : WideWin) : (widePut s r k w).needle = s.needle := rfl
@[simp] theorem widePut_links (s : State) (r : Requester) (k : Nat) (w : WideWin) : (widePut s r k w).links = s.links := rfl
@[simp] theorem widePut_press (s : State) (r : Requester) (k : Nat) (w : WideWin) : (widePut s r k w).press = s.press := rfl
@[simp] theorem widePut_mangle (s : State) (r : Requester) (k : Nat) (w : WideWin) : (widePut s r k w).mangle = s.mangle := rfl
@[simp] theorem widePut_rng (s : State) (r : Requester) (k : Nat) (w : WideWin) : (widePut s r k w).rng = s.rng := rfl
@[simp] theorem widePut_dma (s : State) (r : Requester) (k : Nat) (w : WideWin) : (widePut s r k w).dma = s.dma := rfl
@[simp] theorem widePut_thm (s : State) (r : Requester) (k : Nat) (w : WideWin) : (widePut s r k w).thm = s.thm := rfl
@[simp] theorem widePut_boot (s : State) (r : Requester) (k : Nat) (w : WideWin) : (widePut s r k w).boot = s.boot := rfl
@[simp] theorem widePut_lc (s : State) (r : Requester) (k : Nat) (w : WideWin) : (widePut s r k w).lc = s.lc := rfl

@[simp] theorem setPair_pending (s : State) (b : Blk) (p : Option Pair) : (setPair s b p).pending = s.pending := rfl
@[simp] theorem setPair_out (s : State) (b : Blk) (p : Option Pair) : (setPair s b p).out = s.out := rfl
@[simp] theorem setPair_draws (s : State) (b : Blk) (p : Option Pair) : (setPair s b p).draws = s.draws := rfl
@[simp] theorem setPair_time (s : State) (b : Blk) (p : Option Pair) : (setPair s b p).time = s.time := rfl
@[simp] theorem setPair_pwr (s : State) (b : Blk) (p : Option Pair) : (setPair s b p).pwr = s.pwr := rfl
@[simp] theorem setPair_dev (s : State) (b : Blk) (p : Option Pair) : (setPair s b p).dev = s.dev := rfl
@[simp] theorem setPair_agentSeq (s : State) (b : Blk) (p : Option Pair) : (setPair s b p).agentSeq = s.agentSeq := rfl
@[simp] theorem setPair_fn0 (s : State) (b : Blk) (p : Option Pair) : (setPair s b p).fn0 = s.fn0 := rfl
@[simp] theorem setPair_fn1 (s : State) (b : Blk) (p : Option Pair) : (setPair s b p).fn1 = s.fn1 := rfl
@[simp] theorem setPair_slices (s : State) (b : Blk) (p : Option Pair) : (setPair s b p).slices = s.slices := rfl
@[simp] theorem setPair_tortin (s : State) (b : Blk) (p : Option Pair) : (setPair s b p).tortin = s.tortin := rfl
@[simp] theorem setPair_tally (s : State) (b : Blk) (p : Option Pair) : (setPair s b p).tally = s.tally := rfl
@[simp] theorem setPair_scorch (s : State) (b : Blk) (p : Option Pair) : (setPair s b p).scorch = s.scorch := rfl
@[simp] theorem setPair_keys (s : State) (b : Blk) (p : Option Pair) : (setPair s b p).keys = s.keys := rfl
@[simp] theorem setPair_seam (s : State) (b : Blk) (p : Option Pair) : (setPair s b p).seam = s.seam := rfl
@[simp] theorem setPair_hamper (s : State) (b : Blk) (p : Option Pair) : (setPair s b p).hamper = s.hamper := rfl
@[simp] theorem setPair_needle (s : State) (b : Blk) (p : Option Pair) : (setPair s b p).needle = s.needle := rfl
@[simp] theorem setPair_links (s : State) (b : Blk) (p : Option Pair) : (setPair s b p).links = s.links := rfl
@[simp] theorem setPair_press (s : State) (b : Blk) (p : Option Pair) : (setPair s b p).press = s.press := rfl
@[simp] theorem setPair_mangle (s : State) (b : Blk) (p : Option Pair) : (setPair s b p).mangle = s.mangle := rfl
@[simp] theorem setPair_rng (s : State) (b : Blk) (p : Option Pair) : (setPair s b p).rng = s.rng := rfl
@[simp] theorem setPair_dma (s : State) (b : Blk) (p : Option Pair) : (setPair s b p).dma = s.dma := rfl
@[simp] theorem setPair_thm (s : State) (b : Blk) (p : Option Pair) : (setPair s b p).thm = s.thm := rfl
@[simp] theorem setPair_boot (s : State) (b : Blk) (p : Option Pair) : (setPair s b p).boot = s.boot := rfl
@[simp] theorem setPair_lc (s : State) (b : Blk) (p : Option Pair) : (setPair s b p).lc = s.lc := rfl

@[simp] theorem seamPeerPut_pending (s : State) (m : Nat) (x : SeamPeer) : (seamPeerPut s m x).pending = s.pending := rfl
@[simp] theorem seamPeerPut_out (s : State) (m : Nat) (x : SeamPeer) : (seamPeerPut s m x).out = s.out := rfl
@[simp] theorem seamPeerPut_draws (s : State) (m : Nat) (x : SeamPeer) : (seamPeerPut s m x).draws = s.draws := rfl
@[simp] theorem seamPeerPut_time (s : State) (m : Nat) (x : SeamPeer) : (seamPeerPut s m x).time = s.time := rfl
@[simp] theorem seamPeerPut_pwr (s : State) (m : Nat) (x : SeamPeer) : (seamPeerPut s m x).pwr = s.pwr := rfl
@[simp] theorem seamPeerPut_regs (s : State) (m : Nat) (x : SeamPeer) : (seamPeerPut s m x).regs = s.regs := rfl
@[simp] theorem seamPeerPut_dev (s : State) (m : Nat) (x : SeamPeer) : (seamPeerPut s m x).dev = s.dev := rfl
@[simp] theorem seamPeerPut_agentSeq (s : State) (m : Nat) (x : SeamPeer) : (seamPeerPut s m x).agentSeq = s.agentSeq := rfl
@[simp] theorem seamPeerPut_fn0 (s : State) (m : Nat) (x : SeamPeer) : (seamPeerPut s m x).fn0 = s.fn0 := rfl
@[simp] theorem seamPeerPut_fn1 (s : State) (m : Nat) (x : SeamPeer) : (seamPeerPut s m x).fn1 = s.fn1 := rfl
@[simp] theorem seamPeerPut_slices (s : State) (m : Nat) (x : SeamPeer) : (seamPeerPut s m x).slices = s.slices := rfl
@[simp] theorem seamPeerPut_tortin (s : State) (m : Nat) (x : SeamPeer) : (seamPeerPut s m x).tortin = s.tortin := rfl
@[simp] theorem seamPeerPut_tally (s : State) (m : Nat) (x : SeamPeer) : (seamPeerPut s m x).tally = s.tally := rfl
@[simp] theorem seamPeerPut_scorch (s : State) (m : Nat) (x : SeamPeer) : (seamPeerPut s m x).scorch = s.scorch := rfl
@[simp] theorem seamPeerPut_keys (s : State) (m : Nat) (x : SeamPeer) : (seamPeerPut s m x).keys = s.keys := rfl
@[simp] theorem seamPeerPut_hamper (s : State) (m : Nat) (x : SeamPeer) : (seamPeerPut s m x).hamper = s.hamper := rfl
@[simp] theorem seamPeerPut_needle (s : State) (m : Nat) (x : SeamPeer) : (seamPeerPut s m x).needle = s.needle := rfl
@[simp] theorem seamPeerPut_links (s : State) (m : Nat) (x : SeamPeer) : (seamPeerPut s m x).links = s.links := rfl
@[simp] theorem seamPeerPut_press (s : State) (m : Nat) (x : SeamPeer) : (seamPeerPut s m x).press = s.press := rfl
@[simp] theorem seamPeerPut_mangle (s : State) (m : Nat) (x : SeamPeer) : (seamPeerPut s m x).mangle = s.mangle := rfl
@[simp] theorem seamPeerPut_rng (s : State) (m : Nat) (x : SeamPeer) : (seamPeerPut s m x).rng = s.rng := rfl
@[simp] theorem seamPeerPut_dma (s : State) (m : Nat) (x : SeamPeer) : (seamPeerPut s m x).dma = s.dma := rfl
@[simp] theorem seamPeerPut_thm (s : State) (m : Nat) (x : SeamPeer) : (seamPeerPut s m x).thm = s.thm := rfl
@[simp] theorem seamPeerPut_boot (s : State) (m : Nat) (x : SeamPeer) : (seamPeerPut s m x).boot = s.boot := rfl
@[simp] theorem seamPeerPut_lc (s : State) (m : Nat) (x : SeamPeer) : (seamPeerPut s m x).lc = s.lc := rfl

@[simp] theorem seamLinkPut_pending (s : State) (l : Nat) (x : SeamLink) : (seamLinkPut s l x).pending = s.pending := rfl
@[simp] theorem seamLinkPut_out (s : State) (l : Nat) (x : SeamLink) : (seamLinkPut s l x).out = s.out := rfl
@[simp] theorem seamLinkPut_draws (s : State) (l : Nat) (x : SeamLink) : (seamLinkPut s l x).draws = s.draws := rfl
@[simp] theorem seamLinkPut_time (s : State) (l : Nat) (x : SeamLink) : (seamLinkPut s l x).time = s.time := rfl
@[simp] theorem seamLinkPut_pwr (s : State) (l : Nat) (x : SeamLink) : (seamLinkPut s l x).pwr = s.pwr := rfl
@[simp] theorem seamLinkPut_regs (s : State) (l : Nat) (x : SeamLink) : (seamLinkPut s l x).regs = s.regs := rfl
@[simp] theorem seamLinkPut_dev (s : State) (l : Nat) (x : SeamLink) : (seamLinkPut s l x).dev = s.dev := rfl
@[simp] theorem seamLinkPut_agentSeq (s : State) (l : Nat) (x : SeamLink) : (seamLinkPut s l x).agentSeq = s.agentSeq := rfl
@[simp] theorem seamLinkPut_fn0 (s : State) (l : Nat) (x : SeamLink) : (seamLinkPut s l x).fn0 = s.fn0 := rfl
@[simp] theorem seamLinkPut_fn1 (s : State) (l : Nat) (x : SeamLink) : (seamLinkPut s l x).fn1 = s.fn1 := rfl
@[simp] theorem seamLinkPut_slices (s : State) (l : Nat) (x : SeamLink) : (seamLinkPut s l x).slices = s.slices := rfl
@[simp] theorem seamLinkPut_tortin (s : State) (l : Nat) (x : SeamLink) : (seamLinkPut s l x).tortin = s.tortin := rfl
@[simp] theorem seamLinkPut_tally (s : State) (l : Nat) (x : SeamLink) : (seamLinkPut s l x).tally = s.tally := rfl
@[simp] theorem seamLinkPut_scorch (s : State) (l : Nat) (x : SeamLink) : (seamLinkPut s l x).scorch = s.scorch := rfl
@[simp] theorem seamLinkPut_keys (s : State) (l : Nat) (x : SeamLink) : (seamLinkPut s l x).keys = s.keys := rfl
@[simp] theorem seamLinkPut_hamper (s : State) (l : Nat) (x : SeamLink) : (seamLinkPut s l x).hamper = s.hamper := rfl
@[simp] theorem seamLinkPut_needle (s : State) (l : Nat) (x : SeamLink) : (seamLinkPut s l x).needle = s.needle := rfl
@[simp] theorem seamLinkPut_links (s : State) (l : Nat) (x : SeamLink) : (seamLinkPut s l x).links = s.links := rfl
@[simp] theorem seamLinkPut_press (s : State) (l : Nat) (x : SeamLink) : (seamLinkPut s l x).press = s.press := rfl
@[simp] theorem seamLinkPut_mangle (s : State) (l : Nat) (x : SeamLink) : (seamLinkPut s l x).mangle = s.mangle := rfl
@[simp] theorem seamLinkPut_rng (s : State) (l : Nat) (x : SeamLink) : (seamLinkPut s l x).rng = s.rng := rfl
@[simp] theorem seamLinkPut_dma (s : State) (l : Nat) (x : SeamLink) : (seamLinkPut s l x).dma = s.dma := rfl
@[simp] theorem seamLinkPut_thm (s : State) (l : Nat) (x : SeamLink) : (seamLinkPut s l x).thm = s.thm := rfl
@[simp] theorem seamLinkPut_boot (s : State) (l : Nat) (x : SeamLink) : (seamLinkPut s l x).boot = s.boot := rfl
@[simp] theorem seamLinkPut_lc (s : State) (l : Nat) (x : SeamLink) : (seamLinkPut s l x).lc = s.lc := rfl

@[simp] theorem settingsSave_pending (s : State) : (settingsSave s).pending = s.pending := rfl
@[simp] theorem settingsSave_out (s : State) : (settingsSave s).out = s.out := rfl
@[simp] theorem settingsSave_draws (s : State) : (settingsSave s).draws = s.draws := rfl
@[simp] theorem settingsSave_time (s : State) : (settingsSave s).time = s.time := rfl
@[simp] theorem settingsSave_pwr (s : State) : (settingsSave s).pwr = s.pwr := rfl
@[simp] theorem settingsSave_regs (s : State) : (settingsSave s).regs = s.regs := rfl
@[simp] theorem settingsSave_dev (s : State) : (settingsSave s).dev = s.dev := rfl
@[simp] theorem settingsSave_agentSeq (s : State) : (settingsSave s).agentSeq = s.agentSeq := rfl
@[simp] theorem settingsSave_fn0 (s : State) : (settingsSave s).fn0 = s.fn0 := rfl
@[simp] theorem settingsSave_fn1 (s : State) : (settingsSave s).fn1 = s.fn1 := rfl
@[simp] theorem settingsSave_slices (s : State) : (settingsSave s).slices = s.slices := rfl
@[simp] theorem settingsSave_tortin (s : State) : (settingsSave s).tortin = s.tortin := rfl
@[simp] theorem settingsSave_tally (s : State) : (settingsSave s).tally = s.tally := rfl
@[simp] theorem settingsSave_scorch (s : State) : (settingsSave s).scorch = s.scorch := rfl
@[simp] theorem settingsSave_keys (s : State) : (settingsSave s).keys = s.keys := rfl
@[simp] theorem settingsSave_seam (s : State) : (settingsSave s).seam = s.seam := rfl
@[simp] theorem settingsSave_hamper (s : State) : (settingsSave s).hamper = s.hamper := rfl
@[simp] theorem settingsSave_needle (s : State) : (settingsSave s).needle = s.needle := rfl
@[simp] theorem settingsSave_links (s : State) : (settingsSave s).links = s.links := rfl
@[simp] theorem settingsSave_press (s : State) : (settingsSave s).press = s.press := rfl
@[simp] theorem settingsSave_mangle (s : State) : (settingsSave s).mangle = s.mangle := rfl
@[simp] theorem settingsSave_rng (s : State) : (settingsSave s).rng = s.rng := rfl
@[simp] theorem settingsSave_dma (s : State) : (settingsSave s).dma = s.dma := rfl
@[simp] theorem settingsSave_thm (s : State) : (settingsSave s).thm = s.thm := rfl
@[simp] theorem settingsSave_lc (s : State) : (settingsSave s).lc = s.lc := rfl

@[simp] theorem thmMode_pending (s : State) (m : ThmMode) : (thmMode s m).pending = s.pending := rfl
@[simp] theorem thmMode_out (s : State) (m : ThmMode) : (thmMode s m).out = s.out := rfl
@[simp] theorem thmMode_draws (s : State) (m : ThmMode) : (thmMode s m).draws = s.draws := rfl
@[simp] theorem thmMode_time (s : State) (m : ThmMode) : (thmMode s m).time = s.time := rfl
@[simp] theorem thmMode_pwr (s : State) (m : ThmMode) : (thmMode s m).pwr = s.pwr := rfl
@[simp] theorem thmMode_regs (s : State) (m : ThmMode) : (thmMode s m).regs = s.regs := rfl
@[simp] theorem thmMode_dev (s : State) (m : ThmMode) : (thmMode s m).dev = s.dev := rfl
@[simp] theorem thmMode_agentSeq (s : State) (m : ThmMode) : (thmMode s m).agentSeq = s.agentSeq := rfl
@[simp] theorem thmMode_fn0 (s : State) (m : ThmMode) : (thmMode s m).fn0 = s.fn0 := rfl
@[simp] theorem thmMode_fn1 (s : State) (m : ThmMode) : (thmMode s m).fn1 = s.fn1 := rfl
@[simp] theorem thmMode_slices (s : State) (m : ThmMode) : (thmMode s m).slices = s.slices := rfl
@[simp] theorem thmMode_tortin (s : State) (m : ThmMode) : (thmMode s m).tortin = s.tortin := rfl
@[simp] theorem thmMode_tally (s : State) (m : ThmMode) : (thmMode s m).tally = s.tally := rfl
@[simp] theorem thmMode_scorch (s : State) (m : ThmMode) : (thmMode s m).scorch = s.scorch := rfl
@[simp] theorem thmMode_keys (s : State) (m : ThmMode) : (thmMode s m).keys = s.keys := rfl
@[simp] theorem thmMode_seam (s : State) (m : ThmMode) : (thmMode s m).seam = s.seam := rfl
@[simp] theorem thmMode_hamper (s : State) (m : ThmMode) : (thmMode s m).hamper = s.hamper := rfl
@[simp] theorem thmMode_needle (s : State) (m : ThmMode) : (thmMode s m).needle = s.needle := rfl
@[simp] theorem thmMode_links (s : State) (m : ThmMode) : (thmMode s m).links = s.links := rfl
@[simp] theorem thmMode_press (s : State) (m : ThmMode) : (thmMode s m).press = s.press := rfl
@[simp] theorem thmMode_mangle (s : State) (m : ThmMode) : (thmMode s m).mangle = s.mangle := rfl
@[simp] theorem thmMode_rng (s : State) (m : ThmMode) : (thmMode s m).rng = s.rng := rfl
@[simp] theorem thmMode_dma (s : State) (m : ThmMode) : (thmMode s m).dma = s.dma := rfl
@[simp] theorem thmMode_boot (s : State) (m : ThmMode) : (thmMode s m).boot = s.boot := rfl
@[simp] theorem thmMode_lc (s : State) (m : ThmMode) : (thmMode s m).lc = s.lc := rfl

@[simp] theorem opResult_pending (s : State) (p status b : Nat) : (opResult s p status b).pending = s.pending := rfl
@[simp] theorem opResult_out (s : State) (p status b : Nat) : (opResult s p status b).out = s.out := rfl
@[simp] theorem opResult_draws (s : State) (p status b : Nat) : (opResult s p status b).draws = s.draws := rfl
@[simp] theorem opResult_time (s : State) (p status b : Nat) : (opResult s p status b).time = s.time := rfl
@[simp] theorem opResult_pwr (s : State) (p status b : Nat) : (opResult s p status b).pwr = s.pwr := rfl
@[simp] theorem opResult_regs (s : State) (p status b : Nat) : (opResult s p status b).regs = s.regs := rfl
@[simp] theorem opResult_dev (s : State) (p status b : Nat) : (opResult s p status b).dev = s.dev := rfl
@[simp] theorem opResult_agentSeq (s : State) (p status b : Nat) : (opResult s p status b).agentSeq = s.agentSeq := rfl
@[simp] theorem opResult_fn0 (s : State) (p status b : Nat) : (opResult s p status b).fn0 = s.fn0 := rfl
@[simp] theorem opResult_fn1 (s : State) (p status b : Nat) : (opResult s p status b).fn1 = s.fn1 := rfl
@[simp] theorem opResult_slices (s : State) (p status b : Nat) : (opResult s p status b).slices = s.slices := rfl
@[simp] theorem opResult_tortin (s : State) (p status b : Nat) : (opResult s p status b).tortin = s.tortin := rfl
@[simp] theorem opResult_tally (s : State) (p status b : Nat) : (opResult s p status b).tally = s.tally := rfl
@[simp] theorem opResult_scorch (s : State) (p status b : Nat) : (opResult s p status b).scorch = s.scorch := rfl
@[simp] theorem opResult_keys (s : State) (p status b : Nat) : (opResult s p status b).keys = s.keys := rfl
@[simp] theorem opResult_seam (s : State) (p status b : Nat) : (opResult s p status b).seam = s.seam := rfl
@[simp] theorem opResult_needle (s : State) (p status b : Nat) : (opResult s p status b).needle = s.needle := rfl
@[simp] theorem opResult_links (s : State) (p status b : Nat) : (opResult s p status b).links = s.links := rfl
@[simp] theorem opResult_press (s : State) (p status b : Nat) : (opResult s p status b).press = s.press := rfl
@[simp] theorem opResult_mangle (s : State) (p status b : Nat) : (opResult s p status b).mangle = s.mangle := rfl
@[simp] theorem opResult_rng (s : State) (p status b : Nat) : (opResult s p status b).rng = s.rng := rfl
@[simp] theorem opResult_dma (s : State) (p status b : Nat) : (opResult s p status b).dma = s.dma := rfl
@[simp] theorem opResult_thm (s : State) (p status b : Nat) : (opResult s p status b).thm = s.thm := rfl
@[simp] theorem opResult_boot (s : State) (p status b : Nat) : (opResult s p status b).boot = s.boot := rfl
@[simp] theorem opResult_lc (s : State) (p status b : Nat) : (opResult s p status b).lc = s.lc := rfl

@[simp] theorem ctlMap_pending (s : State) (f : BootCtl → BootCtl) : (ctlMap s f).pending = s.pending := rfl
@[simp] theorem ctlMap_out (s : State) (f : BootCtl → BootCtl) : (ctlMap s f).out = s.out := rfl
@[simp] theorem ctlMap_draws (s : State) (f : BootCtl → BootCtl) : (ctlMap s f).draws = s.draws := rfl
@[simp] theorem ctlMap_time (s : State) (f : BootCtl → BootCtl) : (ctlMap s f).time = s.time := rfl
@[simp] theorem ctlMap_pwr (s : State) (f : BootCtl → BootCtl) : (ctlMap s f).pwr = s.pwr := rfl
@[simp] theorem ctlMap_regs (s : State) (f : BootCtl → BootCtl) : (ctlMap s f).regs = s.regs := rfl
@[simp] theorem ctlMap_dev (s : State) (f : BootCtl → BootCtl) : (ctlMap s f).dev = s.dev := rfl
@[simp] theorem ctlMap_agentSeq (s : State) (f : BootCtl → BootCtl) : (ctlMap s f).agentSeq = s.agentSeq := rfl
@[simp] theorem ctlMap_fn0 (s : State) (f : BootCtl → BootCtl) : (ctlMap s f).fn0 = s.fn0 := rfl
@[simp] theorem ctlMap_fn1 (s : State) (f : BootCtl → BootCtl) : (ctlMap s f).fn1 = s.fn1 := rfl
@[simp] theorem ctlMap_slices (s : State) (f : BootCtl → BootCtl) : (ctlMap s f).slices = s.slices := rfl
@[simp] theorem ctlMap_tortin (s : State) (f : BootCtl → BootCtl) : (ctlMap s f).tortin = s.tortin := rfl
@[simp] theorem ctlMap_tally (s : State) (f : BootCtl → BootCtl) : (ctlMap s f).tally = s.tally := rfl
@[simp] theorem ctlMap_scorch (s : State) (f : BootCtl → BootCtl) : (ctlMap s f).scorch = s.scorch := rfl
@[simp] theorem ctlMap_keys (s : State) (f : BootCtl → BootCtl) : (ctlMap s f).keys = s.keys := rfl
@[simp] theorem ctlMap_seam (s : State) (f : BootCtl → BootCtl) : (ctlMap s f).seam = s.seam := rfl
@[simp] theorem ctlMap_hamper (s : State) (f : BootCtl → BootCtl) : (ctlMap s f).hamper = s.hamper := rfl
@[simp] theorem ctlMap_needle (s : State) (f : BootCtl → BootCtl) : (ctlMap s f).needle = s.needle := rfl
@[simp] theorem ctlMap_links (s : State) (f : BootCtl → BootCtl) : (ctlMap s f).links = s.links := rfl
@[simp] theorem ctlMap_press (s : State) (f : BootCtl → BootCtl) : (ctlMap s f).press = s.press := rfl
@[simp] theorem ctlMap_mangle (s : State) (f : BootCtl → BootCtl) : (ctlMap s f).mangle = s.mangle := rfl
@[simp] theorem ctlMap_rng (s : State) (f : BootCtl → BootCtl) : (ctlMap s f).rng = s.rng := rfl
@[simp] theorem ctlMap_dma (s : State) (f : BootCtl → BootCtl) : (ctlMap s f).dma = s.dma := rfl
@[simp] theorem ctlMap_thm (s : State) (f : BootCtl → BootCtl) : (ctlMap s f).thm = s.thm := rfl
@[simp] theorem ctlMap_lc (s : State) (f : BootCtl → BootCtl) : (ctlMap s f).lc = s.lc := rfl

@[simp] theorem enrolPut_pending (s : State) (id : Nat) (x : Enrolment) : (enrolPut s id x).pending = s.pending := rfl
@[simp] theorem enrolPut_out (s : State) (id : Nat) (x : Enrolment) : (enrolPut s id x).out = s.out := rfl
@[simp] theorem enrolPut_draws (s : State) (id : Nat) (x : Enrolment) : (enrolPut s id x).draws = s.draws := rfl
@[simp] theorem enrolPut_time (s : State) (id : Nat) (x : Enrolment) : (enrolPut s id x).time = s.time := rfl
@[simp] theorem enrolPut_pwr (s : State) (id : Nat) (x : Enrolment) : (enrolPut s id x).pwr = s.pwr := rfl
@[simp] theorem enrolPut_regs (s : State) (id : Nat) (x : Enrolment) : (enrolPut s id x).regs = s.regs := rfl
@[simp] theorem enrolPut_dev (s : State) (id : Nat) (x : Enrolment) : (enrolPut s id x).dev = s.dev := rfl
@[simp] theorem enrolPut_agentSeq (s : State) (id : Nat) (x : Enrolment) : (enrolPut s id x).agentSeq = s.agentSeq := rfl
@[simp] theorem enrolPut_fn0 (s : State) (id : Nat) (x : Enrolment) : (enrolPut s id x).fn0 = s.fn0 := rfl
@[simp] theorem enrolPut_fn1 (s : State) (id : Nat) (x : Enrolment) : (enrolPut s id x).fn1 = s.fn1 := rfl
@[simp] theorem enrolPut_slices (s : State) (id : Nat) (x : Enrolment) : (enrolPut s id x).slices = s.slices := rfl
@[simp] theorem enrolPut_tortin (s : State) (id : Nat) (x : Enrolment) : (enrolPut s id x).tortin = s.tortin := rfl
@[simp] theorem enrolPut_tally (s : State) (id : Nat) (x : Enrolment) : (enrolPut s id x).tally = s.tally := rfl
@[simp] theorem enrolPut_scorch (s : State) (id : Nat) (x : Enrolment) : (enrolPut s id x).scorch = s.scorch := rfl
@[simp] theorem enrolPut_keys (s : State) (id : Nat) (x : Enrolment) : (enrolPut s id x).keys = s.keys := rfl
@[simp] theorem enrolPut_seam (s : State) (id : Nat) (x : Enrolment) : (enrolPut s id x).seam = s.seam := rfl
@[simp] theorem enrolPut_hamper (s : State) (id : Nat) (x : Enrolment) : (enrolPut s id x).hamper = s.hamper := rfl
@[simp] theorem enrolPut_needle (s : State) (id : Nat) (x : Enrolment) : (enrolPut s id x).needle = s.needle := rfl
@[simp] theorem enrolPut_press (s : State) (id : Nat) (x : Enrolment) : (enrolPut s id x).press = s.press := rfl
@[simp] theorem enrolPut_mangle (s : State) (id : Nat) (x : Enrolment) : (enrolPut s id x).mangle = s.mangle := rfl
@[simp] theorem enrolPut_rng (s : State) (id : Nat) (x : Enrolment) : (enrolPut s id x).rng = s.rng := rfl
@[simp] theorem enrolPut_dma (s : State) (id : Nat) (x : Enrolment) : (enrolPut s id x).dma = s.dma := rfl
@[simp] theorem enrolPut_thm (s : State) (id : Nat) (x : Enrolment) : (enrolPut s id x).thm = s.thm := rfl
@[simp] theorem enrolPut_boot (s : State) (id : Nat) (x : Enrolment) : (enrolPut s id x).boot = s.boot := rfl
@[simp] theorem enrolPut_lc (s : State) (id : Nat) (x : Enrolment) : (enrolPut s id x).lc = s.lc := rfl

@[simp] theorem rngAsk_pending (s : State) (r : RngReq) : (rngAsk s r).pending = s.pending := rfl
@[simp] theorem rngAsk_out (s : State) (r : RngReq) : (rngAsk s r).out = s.out := rfl
@[simp] theorem rngAsk_draws (s : State) (r : RngReq) : (rngAsk s r).draws = s.draws := rfl
@[simp] theorem rngAsk_time (s : State) (r : RngReq) : (rngAsk s r).time = s.time := rfl
@[simp] theorem rngAsk_pwr (s : State) (r : RngReq) : (rngAsk s r).pwr = s.pwr := rfl
@[simp] theorem rngAsk_regs (s : State) (r : RngReq) : (rngAsk s r).regs = s.regs := rfl
@[simp] theorem rngAsk_dev (s : State) (r : RngReq) : (rngAsk s r).dev = s.dev := rfl
@[simp] theorem rngAsk_agentSeq (s : State) (r : RngReq) : (rngAsk s r).agentSeq = s.agentSeq := rfl
@[simp] theorem rngAsk_fn0 (s : State) (r : RngReq) : (rngAsk s r).fn0 = s.fn0 := rfl
@[simp] theorem rngAsk_fn1 (s : State) (r : RngReq) : (rngAsk s r).fn1 = s.fn1 := rfl
@[simp] theorem rngAsk_slices (s : State) (r : RngReq) : (rngAsk s r).slices = s.slices := rfl
@[simp] theorem rngAsk_tortin (s : State) (r : RngReq) : (rngAsk s r).tortin = s.tortin := rfl
@[simp] theorem rngAsk_tally (s : State) (r : RngReq) : (rngAsk s r).tally = s.tally := rfl
@[simp] theorem rngAsk_scorch (s : State) (r : RngReq) : (rngAsk s r).scorch = s.scorch := rfl
@[simp] theorem rngAsk_keys (s : State) (r : RngReq) : (rngAsk s r).keys = s.keys := rfl
@[simp] theorem rngAsk_seam (s : State) (r : RngReq) : (rngAsk s r).seam = s.seam := rfl
@[simp] theorem rngAsk_hamper (s : State) (r : RngReq) : (rngAsk s r).hamper = s.hamper := rfl
@[simp] theorem rngAsk_needle (s : State) (r : RngReq) : (rngAsk s r).needle = s.needle := rfl
@[simp] theorem rngAsk_links (s : State) (r : RngReq) : (rngAsk s r).links = s.links := rfl
@[simp] theorem rngAsk_press (s : State) (r : RngReq) : (rngAsk s r).press = s.press := rfl
@[simp] theorem rngAsk_mangle (s : State) (r : RngReq) : (rngAsk s r).mangle = s.mangle := rfl
@[simp] theorem rngAsk_dma (s : State) (r : RngReq) : (rngAsk s r).dma = s.dma := rfl
@[simp] theorem rngAsk_thm (s : State) (r : RngReq) : (rngAsk s r).thm = s.thm := rfl
@[simp] theorem rngAsk_boot (s : State) (r : RngReq) : (rngAsk s r).boot = s.boot := rfl
@[simp] theorem rngAsk_lc (s : State) (r : RngReq) : (rngAsk s r).lc = s.lc := rfl

@[simp] theorem ctxEnd_pending (s : State) (i : Nat) : (ctxEnd s i).pending = s.pending := rfl
@[simp] theorem ctxEnd_out (s : State) (i : Nat) : (ctxEnd s i).out = s.out := rfl
@[simp] theorem ctxEnd_draws (s : State) (i : Nat) : (ctxEnd s i).draws = s.draws := rfl
@[simp] theorem ctxEnd_time (s : State) (i : Nat) : (ctxEnd s i).time = s.time := rfl
@[simp] theorem ctxEnd_pwr (s : State) (i : Nat) : (ctxEnd s i).pwr = s.pwr := rfl
@[simp] theorem ctxEnd_regs (s : State) (i : Nat) : (ctxEnd s i).regs = s.regs := rfl
@[simp] theorem ctxEnd_dev (s : State) (i : Nat) : (ctxEnd s i).dev = s.dev := rfl
@[simp] theorem ctxEnd_agentSeq (s : State) (i : Nat) : (ctxEnd s i).agentSeq = s.agentSeq := rfl
@[simp] theorem ctxEnd_fn0 (s : State) (i : Nat) : (ctxEnd s i).fn0 = s.fn0 := rfl
@[simp] theorem ctxEnd_fn1 (s : State) (i : Nat) : (ctxEnd s i).fn1 = s.fn1 := rfl
@[simp] theorem ctxEnd_slices (s : State) (i : Nat) : (ctxEnd s i).slices = s.slices := rfl
@[simp] theorem ctxEnd_tortin (s : State) (i : Nat) : (ctxEnd s i).tortin = s.tortin := rfl
@[simp] theorem ctxEnd_tally (s : State) (i : Nat) : (ctxEnd s i).tally = s.tally := rfl
@[simp] theorem ctxEnd_scorch (s : State) (i : Nat) : (ctxEnd s i).scorch = s.scorch := rfl
@[simp] theorem ctxEnd_keys (s : State) (i : Nat) : (ctxEnd s i).keys = s.keys := rfl
@[simp] theorem ctxEnd_seam (s : State) (i : Nat) : (ctxEnd s i).seam = s.seam := rfl
@[simp] theorem ctxEnd_hamper (s : State) (i : Nat) : (ctxEnd s i).hamper = s.hamper := rfl
@[simp] theorem ctxEnd_needle (s : State) (i : Nat) : (ctxEnd s i).needle = s.needle := rfl
@[simp] theorem ctxEnd_links (s : State) (i : Nat) : (ctxEnd s i).links = s.links := rfl
@[simp] theorem ctxEnd_mangle (s : State) (i : Nat) : (ctxEnd s i).mangle = s.mangle := rfl
@[simp] theorem ctxEnd_rng (s : State) (i : Nat) : (ctxEnd s i).rng = s.rng := rfl
@[simp] theorem ctxEnd_dma (s : State) (i : Nat) : (ctxEnd s i).dma = s.dma := rfl
@[simp] theorem ctxEnd_thm (s : State) (i : Nat) : (ctxEnd s i).thm = s.thm := rfl
@[simp] theorem ctxEnd_boot (s : State) (i : Nat) : (ctxEnd s i).boot = s.boot := rfl
@[simp] theorem ctxEnd_lc (s : State) (i : Nat) : (ctxEnd s i).lc = s.lc := rfl

@[simp] theorem pendDomain_pending (s : State) : (pendDomain s).pending = s.pending := rfl
@[simp] theorem pendDomain_out (s : State) : (pendDomain s).out = s.out := rfl
@[simp] theorem pendDomain_draws (s : State) : (pendDomain s).draws = s.draws := rfl
@[simp] theorem pendDomain_time (s : State) : (pendDomain s).time = s.time := rfl
@[simp] theorem pendDomain_pwr (s : State) : (pendDomain s).pwr = s.pwr := rfl
@[simp] theorem pendDomain_regs (s : State) : (pendDomain s).regs = s.regs := rfl
@[simp] theorem pendDomain_dev (s : State) : (pendDomain s).dev = s.dev := rfl
@[simp] theorem pendDomain_agentSeq (s : State) : (pendDomain s).agentSeq = s.agentSeq := rfl
@[simp] theorem pendDomain_fn0 (s : State) : (pendDomain s).fn0 = s.fn0 := rfl
@[simp] theorem pendDomain_fn1 (s : State) : (pendDomain s).fn1 = s.fn1 := rfl
@[simp] theorem pendDomain_slices (s : State) : (pendDomain s).slices = s.slices := rfl
@[simp] theorem pendDomain_tortin (s : State) : (pendDomain s).tortin = s.tortin := rfl
@[simp] theorem pendDomain_tally (s : State) : (pendDomain s).tally = s.tally := rfl
@[simp] theorem pendDomain_scorch (s : State) : (pendDomain s).scorch = s.scorch := rfl
@[simp] theorem pendDomain_seam (s : State) : (pendDomain s).seam = s.seam := rfl
@[simp] theorem pendDomain_hamper (s : State) : (pendDomain s).hamper = s.hamper := rfl
@[simp] theorem pendDomain_needle (s : State) : (pendDomain s).needle = s.needle := rfl
@[simp] theorem pendDomain_links (s : State) : (pendDomain s).links = s.links := rfl
@[simp] theorem pendDomain_press (s : State) : (pendDomain s).press = s.press := rfl
@[simp] theorem pendDomain_mangle (s : State) : (pendDomain s).mangle = s.mangle := rfl
@[simp] theorem pendDomain_rng (s : State) : (pendDomain s).rng = s.rng := rfl
@[simp] theorem pendDomain_dma (s : State) : (pendDomain s).dma = s.dma := rfl
@[simp] theorem pendDomain_thm (s : State) : (pendDomain s).thm = s.thm := rfl
@[simp] theorem pendDomain_boot (s : State) : (pendDomain s).boot = s.boot := rfl
@[simp] theorem pendDomain_lc (s : State) : (pendDomain s).lc = s.lc := rfl

@[simp] theorem cachePurge_pending (s : State) (h : Nat) : (cachePurge s h).pending = s.pending := rfl
@[simp] theorem cachePurge_out (s : State) (h : Nat) : (cachePurge s h).out = s.out := rfl
@[simp] theorem cachePurge_draws (s : State) (h : Nat) : (cachePurge s h).draws = s.draws := rfl
@[simp] theorem cachePurge_time (s : State) (h : Nat) : (cachePurge s h).time = s.time := rfl
@[simp] theorem cachePurge_pwr (s : State) (h : Nat) : (cachePurge s h).pwr = s.pwr := rfl
@[simp] theorem cachePurge_regs (s : State) (h : Nat) : (cachePurge s h).regs = s.regs := rfl
@[simp] theorem cachePurge_dev (s : State) (h : Nat) : (cachePurge s h).dev = s.dev := rfl
@[simp] theorem cachePurge_agentSeq (s : State) (h : Nat) : (cachePurge s h).agentSeq = s.agentSeq := rfl
@[simp] theorem cachePurge_fn0 (s : State) (h : Nat) : (cachePurge s h).fn0 = s.fn0 := rfl
@[simp] theorem cachePurge_fn1 (s : State) (h : Nat) : (cachePurge s h).fn1 = s.fn1 := rfl
@[simp] theorem cachePurge_slices (s : State) (h : Nat) : (cachePurge s h).slices = s.slices := rfl
@[simp] theorem cachePurge_tortin (s : State) (h : Nat) : (cachePurge s h).tortin = s.tortin := rfl
@[simp] theorem cachePurge_tally (s : State) (h : Nat) : (cachePurge s h).tally = s.tally := rfl
@[simp] theorem cachePurge_scorch (s : State) (h : Nat) : (cachePurge s h).scorch = s.scorch := rfl
@[simp] theorem cachePurge_seam (s : State) (h : Nat) : (cachePurge s h).seam = s.seam := rfl
@[simp] theorem cachePurge_hamper (s : State) (h : Nat) : (cachePurge s h).hamper = s.hamper := rfl
@[simp] theorem cachePurge_needle (s : State) (h : Nat) : (cachePurge s h).needle = s.needle := rfl
@[simp] theorem cachePurge_links (s : State) (h : Nat) : (cachePurge s h).links = s.links := rfl
@[simp] theorem cachePurge_press (s : State) (h : Nat) : (cachePurge s h).press = s.press := rfl
@[simp] theorem cachePurge_mangle (s : State) (h : Nat) : (cachePurge s h).mangle = s.mangle := rfl
@[simp] theorem cachePurge_rng (s : State) (h : Nat) : (cachePurge s h).rng = s.rng := rfl
@[simp] theorem cachePurge_dma (s : State) (h : Nat) : (cachePurge s h).dma = s.dma := rfl
@[simp] theorem cachePurge_thm (s : State) (h : Nat) : (cachePurge s h).thm = s.thm := rfl
@[simp] theorem cachePurge_boot (s : State) (h : Nat) : (cachePurge s h).boot = s.boot := rfl
@[simp] theorem cachePurge_lc (s : State) (h : Nat) : (cachePurge s h).lc = s.lc := rfl

end Sys2Proof.Machine
end

