-- ==== Sys2Proof/Laws/Commands.lean ====
section
/-! SUPPORT. How a command ends, how it reads its input and asks Thimble, said once for the rows that do so. -/

namespace Sys2Proof.Machine

@[simp] theorem cmdAt_cmdPut_same {s : State} {tag : Nat} {c : Cmd} : cmdAt (cmdPut s tag c) tag = some c :=
  tblFind_put_same _ _ _

theorem cmdAt_cmdPut_other {s : State} {tag i : Nat} {c : Cmd} (h : i ≠ tag) : cmdAt (cmdPut s tag c) i = cmdAt s i :=
  tblFind_put_other _ _ h

/-- A part whose bit a mask lacks is the same. -/
theorem Only.cmdAt {m : Nat} {a b : State} (h : Only m a b) (hm : m.testBit 10 = false) (tag : Nat) :
    Machine.cmdAt b tag = Machine.cmdAt a tag := by
  have e : b.tortin = a.tortin := h.tortin.resolve_left (by rw [hm]; exact Bool.false_ne_true)
  unfold Machine.cmdAt; rw [e]

theorem Only.now {m : Nat} {a b : State} (h : Only m a b) (hm : m.testBit 2 = false) : nowStamp b = nowStamp a := by
  have e : b.time = a.time := h.time.resolve_left (by rw [hm]; exact Bool.false_ne_true)
  unfold nowStamp; rw [e]

/-- A command that ends with `OK` after its start: its place holds the completion, and nothing else changes. -/
theorem endOk_eq {s : State} {tag : Nat} {c : Cmd} (h : cmdAt s tag = some c) (len : Nat) (extra : BitVec 64) :
    endOk s tag len extra = cmdPut s tag { c with
      stage := .ended, freeTok := false, placed := none, queued := false
      comp := { status := stOk, dup := false, len := len, stamp := nowStamp s, extra := extra } } := by
  unfold endOk endAfter endCmd
  simp only [Bool.false_eq_true, if_false]
  rw [h]
  simp

/-- A command that ends after its start holds its completion. -/
theorem endAfter_ended {s t : State} {tag : Nat} {c d : Cmd} (h : cmdAt t tag = some d) (hb : d.body = c.body)
    (hn : nowStamp t = nowStamp s) (status len : Nat) (extra : BitVec 64) :
    Ended s (endAfter t tag status len extra) tag c status len extra := by
  unfold endAfter endCmd
  simp only [Bool.false_eq_true, if_false]
  rw [h]
  dsimp only
  split
  · refine ⟨_, (tallyPut_only.cmdAt rfl _).trans cmdAt_cmdPut_same, ?_⟩
    exact ⟨rfl, hb, rfl, by rw [hn]⟩
  · refine ⟨_, cmdAt_cmdPut_same, ?_⟩
    exact ⟨rfl, hb, rfl, by rw [hn]⟩

theorem endOk_ended {s t : State} {tag : Nat} {c d : Cmd} (h : cmdAt t tag = some d) (hb : d.body = c.body)
    (hn : nowStamp t = nowStamp s) (len : Nat) (extra : BitVec 64) :
    Ended s (endOk t tag len extra) tag c stOk len extra := endAfter_ended h hb hn _ _ _

/-- A row of a started command without input. -/
theorem next_runCmd {i : Instr} {s : State} {tag op : Nat} {c : Cmd} {f : Cmd → State → State} {P : State → Prop}
    (h : Started s tag op c) (hx : exec i s = runCmd s tag op f) (hp : P (f c s)) : Next i s P := by
  obtain ⟨hr, hc, hs, hd, ho, hi⟩ := h
  refine ⟨_, ?_, hp⟩
  rw [hx]
  unfold runCmd
  rw [hc]
  have hk : ¬ (decide (cInLen c = 0) && !inputApproved c []) = true := by simpa using hi
  exact (if_pos ⟨hs, ho, hd, hr⟩).trans (by rw [if_neg hk])

/-- A row of a started command that reads its input. -/
theorem next_runIn {i : Instr} {s : State} {tag op : Nat} {io : HostIO} {c : Cmd} {bs : List Byte}
    {f : Cmd → List Byte → State → State} {P : State → Prop} (h : Started s tag op c) (hr : Reads s c io bs)
    (hx : exec i s = runIn s tag op io f)
    (hp : P (f { c with expect := none } bs
      (keepInput (cmdPut s tag { c with expect := none }) tag { c with expect := none } bs))) : Next i s P := by
  refine next_runCmd h hx ?_
  dsimp only
  rw [hr.1]
  dsimp only
  rw [if_pos hr.2]
  exact hp

/-- The command whose input is kept stays as it is but for the copy and what a first read took of it. -/
theorem keepInput_at {s : State} {tag : Nat} {c : Cmd} {bs : List Byte} (h : cmdAt s tag = some c) :
    ∃ x y, cmdAt (keepInput s tag c bs) tag = some { c with copy := x, heads := y } := by
  unfold keepInput
  split
  · split
    · exact ⟨c.copy, c.heads, h⟩
    · refine ⟨some bs, [], ?_⟩
      rw [jotInput_only.cmdAt rfl]; exact cmdAt_cmdPut_same
  · split
    · exact ⟨c.copy, c.heads, h⟩
    · refine ⟨some bs, c.heads, ?_⟩
      rw [jotInput_only.cmdAt rfl]; exact cmdAt_cmdPut_same

/-- A command that has not asked Thimble yet posts its request and waits. -/
theorem thmAsk_eq {s : State} {tag : Nat} {c : Cmd} {r : ThmReq} (h : c.work.step = 0) (hr : thmRoom s = true) :
    thmAsk s tag c r = { cmdPut s tag { c with work := { c.work with step := 1 } } with thm := { s.thm with
      reqs := s.thm.reqs ++ [{ r with alarm := cAlarm c, cmd := some tag, tag := s.thm.nextTag, taken := s.time.clk }]
      nextTag := s.thm.nextTag + 1 } } := by
  have h2 : thmRoom (cmdPut s tag { c with work := { c.work with step := 1 } }) = true := hr
  unfold thmAsk thmPost
  rw [if_neg (by simp [h, hr]), if_neg (by simp [h2])]
  rfl

/-! ### One entry set: what it reads as, and that the others stand -/

@[simp] theorem regGet_regPut_same {s : State} {a : Nat} {v : Word} : regGet (regPut s a v) a = v := tblGet_set_same
theorem regGet_regPut_other {s : State} {a b : Nat} {v : Word} (h : b ≠ a) : regGet (regPut s a v) b = regGet s b := by
  unfold regGet regPut tblGet tblSet
  dsimp only
  split
  · rw [tblFind_del_other _ h]
  · rw [tblFind_put_other _ _ h]
@[simp] theorem sliceGet_slicePut_same {s : State} {n : Nat} {x : Slice} : sliceGet (slicePut s n x) n = x := tblGet_set_same
theorem sliceGet_slicePut_other {s : State} {n m : Nat} {x : Slice} (h : m ≠ n) : sliceGet (slicePut s n x) m = sliceGet s m :=
  tblGet_set_other h
@[simp] theorem coreGet_corePut_same {s : State} {n : Nat} {k : Core} : coreGet (corePut s n k) n = k := tblGet_set_same
theorem coreGet_corePut_other {s : State} {n m : Nat} {k : Core} (h : m ≠ n) : coreGet (corePut s n k) m = coreGet s m :=
  tblGet_set_other h
@[simp] theorem chanGet_chanPut_same {s : State} {n : Nat} {x : DmaChan} : chanGet (chanPut s n x) n = x := tblGet_set_same
theorem chanGet_chanPut_other {s : State} {n m : Nat} {x : DmaChan} (h : m ≠ n) : chanGet (chanPut s n x) m = chanGet s m :=
  tblGet_set_other h
@[simp] theorem bufGet_bufPut_same {s : State} {n : Nat} {x : BufMeta} : bufGet (bufPut s n x) n = x := tblGet_set_same
theorem bufGet_bufPut_other {s : State} {n m : Nat} {x : BufMeta} (h : m ≠ n) : bufGet (bufPut s n x) m = bufGet s m :=
  tblGet_set_other h
@[simp] theorem portGet_portPut_same {s : State} {n : Nat} {x : PortState} : portGet (portPut s n x) n = x := tblGet_set_same
theorem portGet_portPut_other {s : State} {n m : Nat} {x : PortState} (h : m ≠ n) : portGet (portPut s n x) m = portGet s m :=
  tblGet_set_other h
@[simp] theorem lintGet_lintPut_same {s : State} {n : Nat} {x : LintSrc} : lintGet (lintPut s n x) n = x := tblGet_set_same
theorem lintGet_lintPut_other {s : State} {n m : Nat} {x : LintSrc} (h : m ≠ n) : lintGet (lintPut s n x) m = lintGet s m :=
  tblGet_set_other h
@[simp] theorem queueGet_queuePut_same {s : State} {q : Nat} {x : Queue} : queueGet (queuePut s q x) q = some x :=
  tblFind_put_same _ _ _
theorem queueGet_queuePut_other {s : State} {q r : Nat} {x : Queue} (h : r ≠ q) : queueGet (queuePut s q x) r = queueGet s r :=
  tblFind_put_other _ _ h

end Sys2Proof.Machine
end

