-- ==== Sys2Proof/WellFormed.lean ====
section
/-! DEFINITION. The ranges of command operands: places of the tracker (R75), Needle cores (R359), field ports (R264),
Seam links (R303), PCIe functions (R17), DMA channels (R247), slices (R335) and vectors (R77). -/

namespace Sys2Proof

/-- A place of the command tracker, or the mailbox's place (R75). -/
def tagOk (tag : Nat) : Bool := decide (tag ≤ 16384)

/-- One of the Needle cores. -/
def coreOk (core : Nat) : Bool := decide (core < 16)

/-- A field port. -/
def portOk (port : Nat) : Bool := decide (port < 256)

/-- A Seam link. -/
def linkOk (link : Nat) : Bool := decide (link < 4)

/-- A PCIe function. -/
def fnOk (fn : Nat) : Bool := decide (fn < 2)

/-- A DMA channel. -/
def chanOk (chan : Nat) : Bool := decide (chan < 256)

/-- A slice. -/
def sliceOk (slice : Nat) : Bool := decide (slice < 1024)

/-- A ring of a slice. -/
def ringOk (ring : Nat) : Bool := decide (ring < 16)

/-- A vector of a function's MSI-X table. -/
def vecOk (vec : Nat) : Bool := decide (vec < 2048)

/-- A 16 B instruction of a Needle core is fetched from its program memory; a word operand is 32 bits. -/
def wordOk (word : Nat) : Bool := decide (word < 2 ^ 32)

/-- A supply rail of Table 18-2, a Scorch source ID, an enclosure loop, and a GPIO pin. -/
def railOk (rail : Nat) : Bool := decide (rail < 7)
def sourceOk (source : Nat) : Bool := decide (source ≤ 0x30)
def loopOk (loop : Nat) : Bool := decide (loop < 8)
def pinOk (pin : Nat) : Bool := decide (pin < 32)


/-- Every operand of a command is in the range its rule gives it. -/
def Instr.wf : Instr → Bool
  | .devInfo tag _ => tagOk tag
  | .devStatus tag _ => tagOk tag
  | .devNop tag => tagOk tag
  | .devLimits tag _ => tagOk tag
  | .devCounters tag _ => tagOk tag
  | .sliceCreate tag _ => tagOk tag
  | .sliceDestroy tag => tagOk tag
  | .sliceResize tag _ => tagOk tag
  | .sliceSetQos tag => tagOk tag
  | .sliceSetVectors tag => tagOk tag
  | .sliceReset tag => tagOk tag
  | .sliceSaveLogStart tag => tagOk tag
  | .sliceSaveStop tag _ => tagOk tag
  | .sliceSaveLogEnd tag => tagOk tag
  | .sliceRestore tag _ => tagOk tag
  | .sliceHarvest tag _ => tagOk tag
  | .sliceInfo tag _ => tagOk tag
  | .ownerCreate tag _ => tagOk tag
  | .ownerRetire tag => tagOk tag
  | .ownerInfo tag _ => tagOk tag
  | .officerAdd tag _ => tagOk tag
  | .officerRemove tag => tagOk tag
  | .ownerSetQuorum tag => tagOk tag
  | .approvalRequest tag _ => tagOk tag
  | .approvalSubmit tag _ => tagOk tag
  | .approvalList tag _ => tagOk tag
  | .approvalCancel tag => tagOk tag
  | .keyCreate tag => tagOk tag
  | .keyImport tag _ => tagOk tag
  | .keyImportPublic tag _ => tagOk tag
  | .keyDerive tag _ => tagOk tag
  | .keyDestroy tag => tagOk tag
  | .keyInfo tag _ => tagOk tag
  | .keyRestrict tag => tagOk tag
  | .keyList tag _ => tagOk tag
  | .keySetLease tag => tagOk tag
  | .symEncrypt tag _ => tagOk tag
  | .symDecrypt tag _ => tagOk tag
  | .symMac tag _ => tagOk tag
  | .symMacVerify tag _ => tagOk tag
  | .symHash tag _ => tagOk tag
  | .symCtxOpen tag _ => tagOk tag
  | .symCtxUpdate tag _ => tagOk tag
  | .symCtxFinish tag _ => tagOk tag
  | .symCtxClose tag => tagOk tag
  | .pkSign tag _ => tagOk tag
  | .pkVerify tag _ => tagOk tag
  | .pkAgree tag _ => tagOk tag
  | .pkEncapsulate tag _ => tagOk tag
  | .pkDecapsulate tag _ => tagOk tag
  | .pkGetPublic tag _ => tagOk tag
  | .pkVerifyBatch tag _ => tagOk tag
  | .rngGet tag _ => tagOk tag
  | .rngReseed tag _ => tagOk tag
  | .rngStatus tag _ => tagOk tag
  | .portConfig tag _ => tagOk tag
  | .portStatus tag _ => tagOk tag
  | .queueCreate tag _ => tagOk tag
  | .queueModify tag _ => tagOk tag
  | .queueDestroy tag => tagOk tag
  | .linkSend tag _ => tagOk tag
  | .linkRekey tag => tagOk tag
  | .linkClassify tag _ => tagOk tag
  | .cardEnrol tag _ => tagOk tag
  | .cardRetire tag _ _ => tagOk tag
  | .cardStatus tag _ => tagOk tag
  | .linkStats tag _ => tagOk tag
  | .seamForm tag _ => tagOk tag
  | .seamLeave tag => tagOk tag
  | .seamStatus tag _ => tagOk tag
  | .seamSwitchover tag => tagOk tag
  | .seamResync tag => tagOk tag
  | .seamSetWitness tag => tagOk tag
  | .tallyRead tag _ => tagOk tag
  | .tallyClear tag => tagOk tag
  | .tallyWrite tag _ => tagOk tag
  | .tallyStatus tag _ => tagOk tag
  | .tallyFlush tag => tagOk tag
  | .timeGet tag _ => tagOk tag
  | .timeSetCt tag => tagOk tag
  | .timeSetSource tag _ => tagOk tag
  | .timeSetPpsOut tag => tagOk tag
  | .timeSleepPolicy tag => tagOk tag
  | .timeStandby tag => tagOk tag
  | .fwStage tag _ => tagOk tag
  | .fwVerify tag _ => tagOk tag
  | .fwActivate tag => tagOk tag
  | .fwConfirm tag => tagOk tag
  | .fwFallback tag => tagOk tag
  | .fwStatus tag _ => tagOk tag
  | .lcStatus tag _ => tagOk tag
  | .debugInstall tag _ => tagOk tag
  | .debugRevoke tag => tagOk tag
  | .scorchStatus tag _ => tagOk tag
  | .scorchUnlock tag _ => tagOk tag
  | .scorchLogRead tag _ => tagOk tag
  | .scorchDisable tag => tagOk tag
  | .progLoad tag _ => tagOk tag
  | .progStart tag => tagOk tag
  | .progStop tag => tagOk tag
  | .progUnload tag => tagOk tag
  | .progStatus tag _ => tagOk tag
  | .dmaGrant tag => tagOk tag
  | .dmaRevoke tag => tagOk tag
  | .evtRoute tag => tagOk tag
  | .commandFetch slice ring _ => sliceOk slice && ringOk ring
  | .inputPrereadDone tag _ => tagOk tag
  | .commandStart tag => tagOk tag
  | .completionWrite tag _ => tagOk tag
  | .cqCoalTimeout slice ring => sliceOk slice && ringOk ring
  | .msixVectorUnmask fn vec => fnOk fn && vecOk vec
  | .hostAccessRetry _ _ _ => true
  | .cpFirmwareRestart _ => true
  | .keyDestroyProceed tag => tagOk tag
  | .journalCompaction _ _ => true
  | .approvalExpiry _ => true
  | .queueDrained _ => true
  | .timeNowLoRead _ => true
  | .timeCtLoRead _ => true
  | .loHalfRead _ _ => true
  | .sqTailWrite fn slice ring _ _ => fnOk fn && sliceOk slice && ringOk ring
  | .cqHeadWrite fn slice ring _ _ => fnOk fn && sliceOk slice && ringOk ring
  | .sqCfgWrite fn slice ring _ _ => fnOk fn && sliceOk slice && ringOk ring
  | .cqCfgWrite fn slice ring _ _ => fnOk fn && sliceOk slice && ringOk ring
  | .mbxGo fn _ => fnOk fn
  | .rngDataRead _ => true
  | .sqcClearWrite _ _ _ => true
  | .cpwValueWrite _ _ _ => true
  | .cpwGuardWrite _ _ _ => true
  | .cpwPairTimeout _ => true
  | .wideSelWrite _ _ _ => true
  | .wideCapture _ _ _ => true
  | .narrowWrite _ _ _ => true
  | .longTlp fn _ => fnOk fn
  | .atomicOpRequest fn => fnOk fn
  | .registerWrite _ _ _ _ => true
  | .lcsReqWrite _ => true
  | .lcEraseDone => true
  | .hmpAlloc _ _ _ => true
  | .hmpFree _ _ _ => true
  | .hmpEnq _ _ _ _ => true
  | .hmpDeq _ _ _ => true
  | .hmpSetlen _ _ _ _ => true
  | .dmaStart _ chan => chanOk chan
  | .dmaPause _ chan => chanOk chan
  | .dmaCont _ chan => chanOk chan
  | .dmaAbort _ chan => chanOk chan
  | .dmaResume _ chan _ => chanOk chan
  | .dmaDescriptorRead chan _ _ => chanOk chan
  | .dmaReadCompletion chan _ _ => chanOk chan
  | .dmaTriggerPulse chan => chanOk chan
  | .evtFire _ => true
  | .eventTimer _ => true
  | .gpioEdge pin _ => pinOk pin
  | .thmRspHeadWrite _ => true
  | .thmPing => true
  | .thmBind => true
  | .thmPurge _ => true
  | .thmPlace => true
  | .thmCreate _ _ => true
  | .thmImport _ _ => true
  | .thmDerive _ _ => true
  | .thmAccept _ _ => true
  | .thmDestroy _ _ => true
  | .thmRestrict _ _ => true
  | .thmLease _ _ => true
  | .thmOwner _ _ => true
  | .thmEpoch _ _ => true
  | .thmSeal _ _ => true
  | .thmOpen _ => true
  | .thmHandover _ _ => true
  | .thmRecover => true
  | .thmLc _ => true
  | .thimbleResponse => true
  | .thimbleRestart => true
  | .thimbleReady _ => true
  | .thimbleHang _ => true
  | .thimbleRestartTimeout => true
  | .timeStep => true
  | .portReset port => portOk port
  | .servoUpdate => true
  | .ppsInEdge => true
  | .ppsSourceTimeout => true
  | .ptpSyncTimeout => true
  | .ptpMessageReceived port _ _ _ => portOk port
  | .ptpMasterSync port => portOk port
  | .ptpAnnounce port => portOk port
  | .ppsOutSecond => true
  | .ppsOutPulseEnd => true
  | .rtcCopy => true
  | .rtcCrystalStop => true
  | .airingRefLoss _ => true
  | .warmEntry => true
  | .warmExit => true
  | .airingEntry => true
  | .airingWake _ => true
  | .wakeTimerExpiry => true
  | .holdRingRelease => true
  | .standbyWake _ => true
  | .pressJobIssue _ => true
  | .pressJobDone _ _ => true
  | .mangleSlotFill _ => true
  | .mangleOpDone _ _ => true
  | .lintStartupTestEnd source _ => sourceOk source
  | .lintWindowEnd source _ => sourceOk source
  | .bobbinInstantiate => true
  | .bobbinAutoReseed => true
  | .bobbinReseedRetry => true
  | .bobbinLimitReached => true
  | .bobbinKat _ => true
  | .bobbinKatRetry _ => true
  | .bobbinCallDone => true
  | .rngFifoRefill _ => true
  | .ffpDataReceived port _ _ => portOk port
  | .ffpAckReceived port _ _ => portOk port
  | .ffpHeartbeatReceived port _ _ => portOk port
  | .ffpCardReportReceived port _ _ => portOk port
  | .ffpRetransmitReqReceived port _ _ => portOk port
  | .enrolmentReportReceived port _ _ => portOk port
  | .frameTransmitted port => portOk port
  | .receiveDelivery _ _ => true
  | .ackSendTimer _ => true
  | .controlRetransmitTimer _ => true
  | .controlGiveUp _ => true
  | .gapRetransmitReq _ => true
  | .staleFrameFree _ => true
  | .rekeyResend _ => true
  | .rekeyTimeout _ => true
  | .adjacentEpochClear _ => true
  | .enrolOfferResend _ => true
  | .enrolTimeout _ => true
  | .heartbeatLoss _ => true
  | .postResetRekey => true
  | .portLinkUp port _ => portOk port
  | .portLinkDown port _ _ => portOk port
  | .portIdleForcedEnd port => portOk port
  | .seamLinkTrained link _ => linkOk link
  | .seamHelloReceived link _ => linkOk link
  | .seamFormReceived link _ => linkOk link
  | .seamHeartbeatSend link => linkOk link
  | .seamHeartbeatReceived link _ _ _ => linkOk link
  | .seamJournalReceived link _ => linkOk link
  | .seamAckReceived link _ => linkOk link
  | .seamNakReceived link _ => linkOk link
  | .seamUplinkReceived link _ => linkOk link
  | .seamResyncReceived link _ => linkOk link
  | .seamFarewellReceived link _ => linkOk link
  | .seamLinkLoss link => linkOk link
  | .seamHeartbeatMiss link => linkOk link
  | .witnessProbeTimeout => true
  | .witnessReprobe => true
  | .checkpointTimer => true
  | .seamAckCoalesce => true
  | .timeDivergenceFence => true
  | .resyncRequestRetry => true
  | .seamSessionRenew link => linkOk link
  | .seamFormTimeout => true
  | .rejoinWaitTimeout => true
  | .soloStartTimeout => true
  | .takeInterrupt core => coreOk core
  | .coreTimerMatch core => coreOk core
  | .progStopTimeout core => coreOk core
  | .nop core => coreOk core
  | .br core => coreOk core
  | .call core => coreOk core
  | .ret core => coreOk core
  | .rfi core => coreOk core
  | .halt core => coreOk core
  | .wait core => coreOk core
  | .trap core => coreOk core
  | .fence core => coreOk core
  | .signal core => coreOk core
  | .mov core => coreOk core
  | .movsx core => coreOk core
  | .movzx core => coreOk core
  | .lea core => coreOk core
  | .add core => coreOk core
  | .sub core => coreOk core
  | .adds core => coreOk core
  | .subs core => coreOk core
  | .neg core => coreOk core
  | .abs core => coreOk core
  | .mul core => coreOk core
  | .mulhs core => coreOk core
  | .mulhu core => coreOk core
  | .mac core => coreOk core
  | .min core => coreOk core
  | .max core => coreOk core
  | .minu core => coreOk core
  | .maxu core => coreOk core
  | .and core => coreOk core
  | .or core => coreOk core
  | .xor core => coreOk core
  | .not core => coreOk core
  | .shl core => coreOk core
  | .shr core => coreOk core
  | .sar core => coreOk core
  | .rol core => coreOk core
  | .brev core => coreOk core
  | .clz core => coreOk core
  | .popc core => coreOk core
  | .cmpeq core => coreOk core
  | .cmpne core => coreOk core
  | .cmplt core => coreOk core
  | .cmple core => coreOk core
  | .cmpltu core => coreOk core
  | .cmpleu core => coreOk core
  | .tstz core => coreOk core
  | .tstnz core => coreOk core
  | .pand core => coreOk core
  | .por core => coreOk core
  | .pxor core => coreOk core
  | .pnot core => coreOk core
  | .pset core => coreOk core
  | .mulq core => coreOk core
  | .macq core => coreOk core
  | .satq core => coreOk core
  | .ldr core => coreOk core
  | .str core => coreOk core
  | .addr core => coreOk core
  | .evtake core => coreOk core
  | .bmov core => coreOk core
  | .bfill core => coreOk core
  | .badds core => coreOk core
  | .bmulq core => coreOk core
  | .bmacq core => coreOk core
  | .bdot core => coreOk core
  | .bpeak core => coreOk core
  | .prsIssue core => coreOk core
  | .prsWait core => coreOk core
  | .prsPoll core => coreOk core
  | .mglIssue core => coreOk core
  | .mglCollect core => coreOk core
  | .mglPoll core => coreOk core
  | .powerOnReset _ _ => true
  | .deviceReset => true
  | .startSequence => true
  | .measuredCopyDone => true
  | .tortinReady => true
  | .resetNAssert _ => true
  | .resetNStuck => true
  | .resetNRearm => true
  | .watchdogExpiry _ => true
  | .functionLevelReset fn => fnOk fn
  | .hotReset fn => fnOk fn
  | .dlDown fn => fnOk fn
  | .pciePerst fn => fnOk fn
  | .flashChipProbe _ _ => true
  | .pmicStatusPoll => true
  | .memTestStart _ => true
  | .debugCertExpiry => true
  | .supplyDetectorAFire rail _ _ _ _ => railOk rail
  | .supplyDetectorDFire rail _ _ => railOk rail
  | .temperatureFire _ _ _ => true
  | .tempWarn _ _ _ => true
  | .tempWarnClear _ _ _ => true
  | .referenceFrequencyFire _ _ => true
  | .meshFire => true
  | .loopFire loop _ => loopOk loop
  | .vbatFire _ _ => true
  | .vbatLow _ => true
  | .vaultIntegrityCheck _ => true
  | .supplyWarning _ _ => true
  | .supplyWarningEnd _ _ => true
  | .powerFail => true
  | .powerFailEnd => true
  | .vaultEntry rail _ => railOk rail
  | .scorchLogMirror => true
  | .tallyAppend _ => true
  | .tallySlotAbandon _ => true
  | .tallyFlushBegin => true
  | .tallyFlushRetry => true
  | .completionTimeout _ => true
  | .configurationWrite fn _ => fnOk fn
  | .pcieLinkUp fn _ _ _ => fnOk fn
  | .flashOperationDone _ _ _ => true
  | .jtagDebugRequest _ => true
  | .sourceConditionAbsent source => sourceOk source

end Sys2Proof
end

