-- ==== Sys2Proof/Tests/Slice0.lean ====
section
/-! SUPPORT. The package's own tests: an ill-formed command for each check of `WellFormed.lean`, values that the spec states, and, for the
statements of `Certificates/Slice0/Obligations.lean`, states and operands that meet their hypotheses together. -/

namespace Sys2Proof.Tests

set_option linter.all false
set_option Elab.async false
set_option maxRecDepth 20000

open Sys2Proof.Machine

/-! ### Ill-formed commands are refused, and boundary values are taken -/

theorem test_wf_tag : (Instr.devNop 16385).wf = false ∧ (Instr.devNop 16384).wf = true := by decide
theorem test_wf_core : (Instr.nop 16).wf = false ∧ (Instr.nop 15).wf = true := by decide
theorem test_wf_port : (Instr.portReset 256).wf = false ∧ (Instr.portReset 255).wf = true := by decide
theorem test_wf_link : (Instr.seamLinkLoss 4).wf = false ∧ (Instr.seamLinkLoss 3).wf = true := by decide
theorem test_wf_function : (Instr.hotReset 2).wf = false ∧ (Instr.hotReset 1).wf = true := by decide
theorem test_wf_channel : (Instr.dmaTriggerPulse 256).wf = false ∧ (Instr.dmaTriggerPulse 255).wf = true := by decide
theorem test_wf_slice : (Instr.cqCoalTimeout 1024 0).wf = false ∧ (Instr.cqCoalTimeout 1023 0).wf = true := by decide
theorem test_wf_ring : (Instr.cqCoalTimeout 0 16).wf = false ∧ (Instr.cqCoalTimeout 0 15).wf = true := by decide
theorem test_wf_vector : (Instr.msixVectorUnmask 0 2048).wf = false ∧ (Instr.msixVectorUnmask 0 2047).wf = true := by decide
theorem test_wf_rail : (Instr.vaultEntry 7 0).wf = false ∧ (Instr.vaultEntry 6 0).wf = true := by decide
theorem test_wf_source : (Instr.sourceConditionAbsent 0x31).wf = false ∧ (Instr.sourceConditionAbsent 0x30).wf = true := by decide
theorem test_wf_loop : (Instr.loopFire 8 0).wf = false ∧ (Instr.loopFire 7 0).wf = true := by decide
theorem test_wf_pin : (Instr.gpioEdge 32 true).wf = false ∧ (Instr.gpioEdge 31 true).wf = true := by decide

/-! ### The states of the tests -/

/-- The 64 B of a command with an opcode and some bytes (Table 3-1). -/
def body (op : Nat) (ps : List (Nat × Nat) := []) : List Byte :=
  (List.range 64).map (fun i => BitVec.ofNat 8 (if i = 0 then op % 256 else if i = 1 then op / 256 else (ps.lookup i).getD 0))

/-- A started command of the front mailbox. -/
def cmd (op : Nat) (ps : List (Nat × Nat) := []) : Cmd := { origin := .mailbox 0, body := body op ps, stage := .started }

/-- A started command of ring 0 of slice 1. -/
def ringCmd (op : Nat) (ps : List (Nat × Nat) := []) : Cmd := { origin := .ring 1 0 0, body := body op ps, stage := .started }

/-- A function that the host has enabled. -/
def live : FnState := { busMaster := true, pasidEn := true, msixEn := true }

/-- A state whose tracker holds the command at place 0. -/
def run (c : Cmd) (s : State := {}) : State :=
  { s with fn0 := live, tortin := { s.tortin with tracker := [(0, c)] }, thm := { s.thm with mode := .ready } }

/-- What a command of `n` bytes of input reads. -/
def io (n : Nat) : HostIO := { input := .data (zeros n) }

/-- The tracker's command of a state. -/
def first (s : State) : Cmd := (cmdAt s 0).getD (cmd 0)

/-- Place 0 holds a started command of the opcode, whose host takes outputs. -/
def stands (s : State) (op : Nat) : Prop := Started s 0 op (first s) ∧ Delivers s (first s) (io 0)

/-- The command at place 0 reads `n` zero bytes. -/
def takes (s : State) (op n : Nat) : Prop := Started s 0 op (first s) ∧ Reads s (first s) (io n) (zeros n) ∧ Delivers s (first s) (io n)

/-! ### The step and the whole state (O1 to O8) -/

theorem test_queue_in_front : ({ pending := [.devNop 0] } : State).pending = .devNop 0 :: [] := by decide
theorem test_queue_empty : ({} : State).pending = [] := by decide
theorem test_reset_canonical : Canonical State.reset := by unfold Canonical; decide +kernel
theorem test_idle_step_counts : ∃ t, step { pwr := { vault := true } } = .next t ∧ t.time.clk = 1 := ⟨_, rfl, by decide +kernel⟩
theorem test_front_command_runs : ∃ t, step { pending := [.devNop 0] } = .next t ∧ t.pending = [] := ⟨_, rfl, by decide +kernel⟩
theorem test_lock_in_force : ({ scorch := { locked := true } } : State).scorch.locked = true := by decide
theorem test_disabled_source : bitN ({ scorch := { disabled := 1 } } : State).scorch.disabled 0 = true := by decide

/-! ### Reports (O9 to O11) -/

theorem test_report_commands : ∀ op ∈ [0x0101, 0x0102, 0x0103, 0x0104, 0x0105, 0x020A, 0x0303, 0x0309, 0x0408, 0x0703, 0x0A04, 0x0B01,
    0x0C06, 0x0D01, 0x0D04, 0x0D06, 0x0E05, 0x0802, 0x0903, 0x0A01], stands (run (cmd op)) op := by
  simp only [stands, Started, Delivers]; decide +kernel

theorem test_report_of_a_primary : (run (cmd 0x0101) { seam := { role := .primary } }).seam.role = .primary ∧
    (first (run (cmd 0x0101))).mirror = false ∧ fnLive (run (cmd 0x0101) { seam := { role := .primary } }) 0 = true := by decide +kernel

theorem test_report_to_a_dead_host : let c := cmd 0x0101 [(48, 64), (40, 1)]
    c.mirror = false ∧ shortOut c = false ∧ hostSilent (run c) = false ∧ (io 0).outOk = true ∧
      fnLive { tortin := { tracker := [(0, c)] } } (cFn {} c) = false := by decide +kernel

theorem test_counters_cleared : par (cmd 0x0105 [(52, 1)]) 52 1 = 1 ∧ Canonical (run (cmd 0x0105 [(52, 1)])) ∧
    Started (run (cmd 0x0105 [(52, 1)])) 0 0x0105 (cmd 0x0105 [(52, 1)]) := by unfold Canonical Started; decide +kernel

/-- A key object of owner 0 in the first slot of the owners. -/
def obj : KeyObj := { owner := 0, gen := 1, ktype := 1, size := 32, slots := 1, attrs := 0, limit := 0, remaining := 100, slice := 0xFFFF
                      origin := 1, material := zeros 32 }

/-- Its handle. -/
def hd : Nat := keyHandle 0x500 obj

/-- A key store that holds it. -/
def keyed : State := { keys := { objs := [(0x500, obj)] } }

/-- The bytes of key handle A of a command that names it. -/
def hdA : List (Nat × Nat) := [(4, hd % 256), (5, hd / 256 % 256), (6, hd / 65536)]

theorem test_key_info : stands (run (cmd 0x0406 hdA) keyed) 0x0406 ∧ keyOf (run (cmd 0x0406 hdA) keyed) (cKeyA (cmd 0x0406 hdA)) = some obj ∧
    keyOf (run (cmd 0x0406)) (cKeyA (cmd 0x0406)) = none := by
  simp only [stands, Started, Delivers]; decide +kernel

/-- A card with the identifier 0, and a queue with number 0 of that card. -/
def card : CardRec := { owner := 0, port := 0, key := hd, total := 10, left := 5 }
def queue : Queue := { mode := .active, cls := 1, port := 0, owner := 0, slice := 0, card := 0, key := hd, deadline := 0, tx := true, rx := true }
def linked : State := { keyed with links := { cards := [(0, card)], queues := [(0, queue)] } }

theorem test_card_status : stands (run (cmd 0x080B) linked) 0x080B ∧
    cardGet (run (cmd 0x080B) linked) (par (cmd 0x080B) 52 8) = some card := by
  simp only [stands, Started, Delivers]; decide +kernel

theorem test_link_stats : stands (run (cmd 0x080C) linked) 0x080C ∧ queueGet (run (cmd 0x080C) linked) (par (cmd 0x080C) 52 2) = some queue ∧
    par (cmd 0x080C) 54 1 ≠ 1 ∧ stands (run (cmd 0x080C [(54, 1)]) linked) 0x080C ∧ par (cmd 0x080C [(54, 1)]) 54 1 = 1 := by
  simp only [stands, Started, Delivers]; decide +kernel

theorem test_tally_read_of_flash : stands (run (cmd 0x0A01 [(52, 1)])) 0x0A01 ∧ par (cmd 0x0A01 [(52, 1)]) 52 1 ≠ 0 ∧
    par (cmd 0x0A01) 52 1 = 0 := by
  simp only [stands, Started, Delivers]; decide +kernel

/-! ### Slices, owners and approvals (O12 to O15) -/

/-- An active slice 1, bound to function 0, and a command of the mailbox that names it. -/
def sliced (m : SliceMode := .active) : State := { slices := [(1, { mode := m, vecCount := 4 })] }
def nm1 : List (Nat × Nat) := [(52, 1)]

theorem test_slice_create : takes (run (cmd 0x0201 nm1)) 0x0201 0 ∧ takes (run (cmd 0x0203 nm1) (sliced)) 0x0203 0 ∧
    takes (run (cmd 0x0201 (nm1 ++ [(32, 16)]))) 0x0201 16 := by
  simp only [takes, Started, Reads, Delivers]; decide +kernel

theorem test_slice_commands : stands (run (cmd 0x0204 nm1) sliced) 0x0204 ∧ stands (run (cmd 0x0205 nm1) sliced) 0x0205 := by
  simp only [stands, Started, Delivers]; decide +kernel

/-- The hypotheses of a slice reset and of a destruction, with no command of the slice in the tracker, and with one that runs. -/
theorem test_slice_reset : ∀ op ∈ [0x0206, 0x0202],
    let s := run (cmd op nm1) sliced
    let c := cmd op nm1
    Started s 0 op c ∧ c.joined = false ∧ (sliceGet s (slTarget c)).mode = .active ∧ (sliceGet s (slTarget c)).resetBy = none ∧
    cSlice c ≠ some (slTarget c) ∧ s.tortin.tracker.all (fun e => cSlice e.2 != some (slTarget c)) = true := by
  simp only [Started]; decide +kernel

/-- A state with a second command, of slice 1, at place 1. -/
def with1 (s : State) (d : Cmd) : State := { s with tortin := { s.tortin with tracker := s.tortin.tracker ++ [(1, d)] } }

theorem test_slice_reset_waits :
    let c := cmd 0x0206 nm1
    let s := with1 (run c sliced) (ringCmd 0x0103)
    Started s 0 0x0206 c ∧ s.tortin.tracker.any (fun e => cSlice e.2 == some (slTarget c)) = true ∧
    s.tortin.tracker.all (fun e => cSlice e.2 != some (slTarget c) || e.2.stage == .started) = true := by
  simp only [Started]; decide +kernel

theorem test_slice_reset_joined : let c := { cmd 0x0206 nm1 with joined := true }
    Started (run c sliced) 0 0x0206 c ∧ c.joined = true := by simp only [Started]; decide +kernel

theorem test_slice_save : ∀ k ∈ [1, 2, 3], stands (run (cmd 0x0207 (nm1 ++ [(54, k)])) sliced) 0x0207 ∧
    par (cmd 0x0207 (nm1 ++ [(54, k)])) 54 1 = k := by
  simp only [stands, Started, Delivers]; decide +kernel

theorem test_slice_save_stop : let c := cmd 0x0207 (nm1 ++ [(54, 2)])
    (sliceGet (run c sliced) (slTarget c)).mode = .active ∧ saveDrained (run c sliced) (slTarget c) 0 = true ∧
    saveDrained (with1 (run c sliced) (ringCmd 0x0103)) (slTarget c) 0 = false ∧ (sliceGet (run c sliced) (slTarget c)).frozen = none := by
  decide +kernel

theorem test_slice_harvest : let c := cmd 0x0209 nm1
    let s := run c { slices := [(1, { mode := .migrating, log := some { base := 0, len := 1 } })] }
    stands s 0x0209 ∧ (sliceGet s (slTarget c)).log = some { base := 0, len := 1 } := by
  simp only [stands, Started, Delivers]; decide +kernel

/-- Owner 0 with one officer, in an open settings store. -/
def ownRec : OwnerRec := { label := zeros 32, validity := 900, quorum := [(1, 1), (1, 1), (1, 1), (1, 1)]
                           officers := [(0, { kind := 1, label := zeros 32, pub := zeros 97 })], created := 0 }
def owned : State := { keys := { owners := [(0, ownRec)] }, boot := { ksCause := 0, step := .done }, rng := { inst := true } }

theorem test_owner_commands : ownerGet (run (cmd 0x0305) owned) (cOwner (run (cmd 0x0305) owned) (cmd 0x0305)) = some ownRec ∧
    takes (run (cmd 0x0304 [(32, 133)]) owned) 0x0304 133 ∧ stands (run (cmd 0x0305) owned) 0x0305 ∧
    stands (run (cmd 0x0306) owned) 0x0306 := by
  simp only [takes, stands, Started, Reads, Delivers]; decide +kernel

/-- Officers' credentials that are valid, and one that is not (R128, Table 7-3). -/
theorem test_credentials : credValid ((credAt [2] 0).kind, (credAt [2] 0).pub) = true ∧
    credValid ((credAt [1] 0).kind, (credAt [1] 0).pub) = false := by decide +kernel

theorem test_approval_new : let c := cmd 0x0307 [(52, 1), (32, 64)]
    takes (run c owned) 0x0307 64 ∧ pendSame (run c owned) (cOwner (run c owned) c) (par c 52 1) qCustodian (zeros 64) = none ∧
    isInit (run c owned) c (zeros 64) [] = false ∧ tblFree (run c owned).keys.pend 0 1024 = some 0 ∧
    ownerGet (run c owned) (cOwner (run c owned) c) = some ownRec ∧ bobbinServes (run c owned) = true ∧ bobbinServes (run c) = false := by
  simp only [takes, Started, Reads, Delivers]; decide +kernel

/-- A request for the initialisation of a device without owners, whose descriptor names owner 0 and no officer, and one whose officer's
credential is none. -/
def initBody : List Byte := body 0x0301
def badDesc : List Byte := [0, 0, 1] ++ zeros 221
theorem test_initialisation : let c := cmd 0x0307 [(52, 1), (32, 224)]
    isInit (run c) c initBody (zeros 64) = true ∧ (descCreds (zeros 64)).all (fun k => credValid (k.kind, k.pub)) = true ∧
    isInit (run c) c initBody badDesc = true ∧ (descCreds badDesc).all (fun k => credValid (k.kind, k.pub)) = false := by decide +kernel

/-- A pending approval of owner 0 for a body of zeros. -/
def pendEnt : PendEntry := { owner := 0, cls := qCustodian, kind := 1, body := zeros 64, digest := bodyDigest (zeros 64), inDigest := zeros 48
                             msg := zeros 160, stamp := 0, expiry := 100, epoch := 0, domain := 0 }
def pended (e : PendEntry := pendEnt) : State := { owned with keys := { owned.keys with pend := [(0, e)] } }

theorem test_approval_again : let c := cmd 0x0307 [(52, 1), (32, 64)]
    pendSame (run c pended) (cOwner (run c pended) c) (par c 52 1) qCustodian (zeros 64) = some (0, pendEnt) := by
  have h : pendInTime (run (cmd 0x0307 [(52, 1), (32, 64)]) pended) pendEnt (nowStamp (run (cmd 0x0307 [(52, 1), (32, 64)]) pended)) = true := by
    decide +kernel
  have a : cOwner (run (cmd 0x0307 [(52, 1), (32, 64)]) pended) (cmd 0x0307 [(52, 1), (32, 64)]) = 0 := by decide +kernel
  have b : par (cmd 0x0307 [(52, 1), (32, 64)]) 52 1 = 1 := by decide +kernel
  show List.find? _ [(0, pendEnt)] = _
  have e : pendEnt.digest = bodyDigest (zeros 64) := rfl
  have f : pendEnt.owner = 0 ∧ pendEnt.kind = 1 ∧ pendEnt.cls = qCustodian := ⟨rfl, rfl, rfl⟩
  simp [List.find?, h, a, b, e, f]

theorem test_approval_submit : mangleHas (run (cmd 0x0308 [(32, 96)]) pended) 0 = false ∧ tblFind (par (cmd 0x0308 [(32, 96)]) 52 2) (run (cmd 0x0308 [(32, 96)]) pended).keys.pend = some pendEnt ∧
    pendOfficer (run (cmd 0x0308 [(32, 96)]) pended) pendEnt (par (cmd 0x0308 [(32, 96)]) 54 1) = some (1, zeros 97) ∧
    takes (run (cmd 0x0308 [(32, 96)]) pended) 0x0308 96 := by
  refine ⟨by decide +kernel, rfl, by decide +kernel, ?_⟩
  simp only [takes, Started, Reads, Delivers]; decide +kernel

theorem test_approval_cancel : stands (run (cmd 0x030A) pended) 0x030A := by simp only [stands, Started, Delivers]; decide +kernel

theorem test_approval_expiry : pendInTime pended pendEnt (nowStamp pended) = true ∧
    pendInTime { pended with time := { acc := 101 <<< 32 } } pendEnt (nowStamp { pended with time := { acc := 101 <<< 32 } }) = false ∧
    pendEnt.reserved = none ∧ ({ pendEnt with reserved := some 0 } : PendEntry).reserved.isSome = true := by
  decide +kernel

/-! ### Thimble (O16 to O22) -/

theorem test_owner_and_key_requests : (∀ x ∈ [(0x0301, 160), (0x0402, 32), (0x0403, 97), (0x0404, 16)],
      takes (run (cmd x.1 [(32, x.2)])) x.1 x.2) ∧
    (∀ op ∈ [0x0302, 0x0401, 0x0407, 0x0409, 0x0405], stands (run (cmd op)) op) ∧ (cmd 0x0301).work.step = 0 ∧
    thmRoom (run (cmd 0x0401)) = true ∧ mangleHas (run (cmd 0x0401)) 0 = false ∧
    (descCreds (zeros 160)).all (fun k => credValid (k.kind, k.pub)) = true ∧
    (descCreds badDesc).all (fun k => credValid (k.kind, k.pub)) = false ∧ publicValid 0x90 0 (zeros 65) = false ∧
    publicValid 0x93 0 (zeros 32) = true := by
  simp only [takes, stands, Started, Reads, Delivers]; decide +kernel

/-- `KEY.DESTROY` with the handle free, held by another command, and in use by a context that runs. -/
theorem test_key_destroy : let c := cmd 0x0405 hdA
    handleBusy (run c keyed) 0 (cKeyA c) = false ∧ ctxRuns (run c keyed) (cKeyA c) = false ∧
    handleBusy (with1 (run c keyed) (ringCmd 0x0501 hdA)) 0 (cKeyA c) = true ∧
    ctxRuns (with1 (run c { keyed with press := { ctxs := [(0, { gen := 1, slice := 1, handle := hd, par := { mode := 1 }, prefix_ := [], aad := [] })] } })
      (ringCmd 0x0507)) (cKeyA c) = true := by decide +kernel

theorem test_rekey_and_queue_requests : stands (run (cmd 0x0807) linked) 0x0807 ∧
    cardGet (run (cmd 0x0807) linked) (par (cmd 0x0807) 52 8) = some card ∧
    takes (run (cmd 0x0803 [(32, 128), (52, 255), (53, 255)]) linked) 0x0803 128 ∧
    queueNumber (run (cmd 0x0803) linked) (cmd 0x0803 [(52, 255), (53, 255)]) = some 1 ∧ stands (run (cmd 0x080A) linked) 0x080A ∧
    flashTakes (run (cmd 0x080A)) true false = true ∧ flashTakes (run (cmd 0x080A)) false false = false := by
  simp only [takes, stands, Started, Reads, Delivers]; decide +kernel

theorem test_debug_requests : takes (run (cmd 0x0D02 [(32, 1)])) 0x0D02 1 ∧ stands (run (cmd 0x0D03)) 0x0D03 ∧
    inGroup (run (cmd 0x0D03)) = false ∧ inGroup { seam := { role := .primary } } = true ∧ par (cmd 0x0D03 [(52, 1)]) 52 1 ≠ 0xFF ∧
    par (cmd 0x0D03 [(52, 1)]) 52 1 ≠ ({ seam := { role := .primary } } : State).seam.index := by
  simp only [takes, stands, Started, Reads, Delivers]; decide +kernel

theorem test_activate : stands (run (cmd 0x0C03)) 0x0C03 ∧ (run (cmd 0x0C03)).boot.mend = false ∧
    (run (cmd 0x0C03) { boot := { mend := true } }).boot.mend = true := by
  simp only [stands, Started, Delivers]; decide +kernel

/-- Thimble, READY, with one request; and a certificate's check that does not pass, for its layout. -/
def asked (r : ThmReq) (s : State := {}) : State := { s with thm := { s.thm with mode := .ready, reqs := [r] } }

theorem test_certificate_refused : certCheck {} (zeros 1) = 0x0D06 := by decide +kernel

theorem test_requests_served : ∀ op ∈ [1, 2, 3, 4, 5, 6, 7, 8, 9, 0xA, 0xB, 0xC, 0xD, 0x10, 0x11, 0x12],
    Serves (asked { op := op, tag := 1 }) op { op := op, tag := 1 } := by simp only [Serves]; decide +kernel

theorem test_place : let r : ThmReq := { op := 4, tag := 1, nums := [1], cmd := some 0 }
    Serves (asked r (run (cmd 0x0401))) 4 r ∧ cmdAt (asked r (run (cmd 0x0401))) 0 = some (cmd 0x0401) ∧
    placeSlots (asked r (run (cmd 0x0401))) (r.nums.getD 0 0) = some 0x500 ∧
    placeSlots (asked r { keys := { objs := [(0x500, { obj with slots := 0xFB00 })] } }) (r.nums.getD 0 0) = none := by
  simp only [Serves]; decide +kernel

theorem test_import_forms : (({ op := 6, tag := 1, nums := [0, 0, 0, 0, 0, 0, 0, 0, 1] } : ThmReq).nums.getD 8 0 ≠ 0) ∧
    keyOf (asked { op := 7, tag := 1, a := hd } keyed) hd = some obj ∧ keyOf (asked { op := 7, tag := 1 }) 0 = none := by decide +kernel

/-- An object that is persistent, and one that is not; with a chip that takes records and without. -/
theorem test_object_changes : let p : KeyObj := { obj with attrs := 2 ^ kPersist }
    keyOf (asked { op := 9, tag := 1, a := hd } keyed) hd = some obj ∧ bitN obj.attrs kPersist = false ∧
    keyOf (asked { op := 9, tag := 1, a := hd } { keys := { objs := [(0x500, p)] } }) hd = some p ∧ bitN p.attrs kPersist = true ∧
    flashTakes keyed true true = true ∧ flashTakes keyed false false = false ∧
    ({ op := 0xB, tag := 1, nums := [1] } : ThmReq).nums.getD 0 0 ≠ 0 := by decide +kernel

/-- A request that the journal area has no room for, one whose slots the slice's quota does not allow, and what waits for Bobbin. -/
theorem test_requests_wait : let r : ThmReq := { op := 5, tag := 1, nums := [1, 0x500, 1, 32, 2 ^ kPersist] }
    let s := asked r { boot := { flashMib := 64 }
                       keys := { jrn0 := [{ owner := 0, seq := 1, key := [], kind := .pad (2 ^ 24), sum := 0, trailer := [] }] } }
    thmNext s = some r ∧ reqRoom s r = false ∧ Serves (asked r) 5 r ∧ r.secret = [] ∧ bobbinServes (asked r) = false ∧
    bobbinServes (asked r { rng := { inst := true } }) = true ∧ placeStatus (run (cmd 0x0401)) (cmd 0x0401) 1 = stOk ∧
    placeStatus (run (ringCmd 0x0401) sliced) (ringCmd 0x0401) 65536 = 0x0402 ∧ cmdAt {} 0 = none ∧
    ({} : State).pwr.vault = false := by
  simp only [Serves]; decide +kernel

/-- Plaintext of the right length for a key that is imported, and one that no key of its type has (R121). -/
theorem test_import_plaintext : (zeros 32).length = importLen 2 0 ∧ importMaterial 2 0 (zeros 32) = some (zeros 32) ∧
    importMaterial 0x10 0 (zeros 32) = none := by decide +kernel

theorem test_purge : (asked { op := 2, tag := 1, a := hd }).thm.reqs.any (fun x => x.a == hd || x.b == hd) = true ∧
    (asked { op := 1, tag := 1 }).thm.reqs.any (fun x => x.a == hd || x.b == hd) = false ∧ (asked { op := 1, tag := 1 }).thm.mode = .ready := by
  decide +kernel

/-- A member of a group that holds the group's key, and a bundle under the group's bundle key. -/
theorem test_bundles : ({ thm := { mode := .ready }, seam := { key := [1] } } : State).seam.key ≠ [] ∧
    (∀ s : State, ({ key := bundleKey s, instance_ := 0, count := 0, objs := [(0x500, obj)], osks := [] } : Bundle).key = bundleKey s) ∧
    (∀ s : State, ({ key := 0 :: bundleKey s, instance_ := 0, count := 0, objs := [], osks := [] } : Bundle).key ≠ bundleKey s) :=
  ⟨by decide, fun _ => rfl, fun s h => absurd (congrArg List.length h) (by simp)⟩

theorem test_owner_keys : ({ op := 0xC, tag := 1, nums := [0, 1] } : ThmReq).nums.getD 1 0 = 1 ∧
    ({ op := 0xC, tag := 1, nums := [0, 0] } : ThmReq).nums.getD 1 0 ≠ 1 ∧
    (asked { op := 0x10, tag := 1 } { keys := { osks := [(0, [1])] } }).keys.osks ≠ [] := by decide +kernel

/-- `BIND` for an engine with room and without, for a queue, and under a lock. -/
theorem test_bind : let s := asked { op := 2, tag := 1, a := hd, nums := [3, 0] } linked
    keyOf s hd = some obj ∧ queueGet s 0 = some queue ∧ keyOf s queue.key = some obj ∧ s.scorch.locked = false ∧
    (keyBind s 1 hd obj).isSome = true ∧ (asked { op := 2, tag := 1 } { scorch := { locked := true } }).scorch.locked = true := by
  decide +kernel

theorem test_epochs_and_life_cycle : let s := asked { op := 0xD, tag := 1, nums := [0, 2] } linked
    cardGet s 0 = some card ∧ (∀ n ∈ [1, 2, 3], ({ op := 0x12, tag := 1, nums := [n] } : ThmReq).nums.headD 0 = n) ∧
    (let t : State := { lc := { trans := some { target := 2, slot := 1 } } }
     t.lc.trans = some { target := 2, slot := 1 } ∧ bitN (lcSlot t 1) 3 = false ∧ 1 < t.lc.fuses.length) := by decide +kernel

/-- Answers that a command waits for, and the response ring with room and without. -/
theorem test_responses : (∀ op ∈ [0x0401, 0x0402, 0x0403, 0x0404, 0x0405, 0x0407, 0x0409, 0x0803, 0x0301, 0x0302, 0x080A, 0x0C03, 0x0D02],
      Started (run (cmd op)) 0 op (cmd op)) ∧ thmUp (run (cmd 0x0401)) = true ∧ rspRoom (run (cmd 0x0401)) = true ∧ thmUp {} = false ∧
    rspRoom { regs := { file := [(aThm 0x14, 31)] } } = false ∧
    (let r : ThmRsp := { op := 5, tag := 1, status := stOk, cmd := some 0 }
     ({ run (cmd 0x0401) with thm := { mode := .ready, answers := [r] } }).thm.answers = r :: [] ∧ r.op ≠ 0xD) := by
  simp only [Started]; decide +kernel

theorem test_restarts : (∀ m ∈ [ThmMode.ready, .down, .restarting], m ≠ .failed ∧ m ≠ .boot) ∧
    (let s : State := { thm := { mode := .restarting } }
     s.time.clk ≤ s.thm.restartAt + 200 * cycMs ∧
     (s.thm.hangs.filter (fun x => decide (s.time.clk < x + 600 * cycS))).length < 2) ∧
    (let s : State := { thm := { mode := .ready, hangs := [0, 0] }, tortin := { ready := true } }
     2 ≤ (s.thm.hangs.filter (fun x => decide (s.time.clk < x + 600 * cycS))).length) ∧
    (let s : State := { thm := { mode := .restarting }, time := { clk := 10 ^ 9 } }
     s.thm.restartAt + 200 * cycMs ≤ s.time.clk) ∧ thmLate {} = false := by decide +kernel

theorem test_recover : let r : ThmReq := { op := 0x11, tag := 2 }
    let q : ThmReq := { op := 5, tag := 1, cmd := some 0 }
    let s := asked r { run (cmd 0x0401) with thm := { lost := [(q, false)] } }
    Serves s 0x11 r ∧ s.thm.lost = [(q, false)] ∧ Started s 0 (cOp (cmd 0x0401)) (cmd 0x0401) := by
  simp only [Serves, Started]; decide +kernel

/-- A head that the response ring allows, the tail itself among them, and one beyond the tail. -/
def rspAt5 : State := { regs := { file := [(aThm 0x14, 5)] } }

theorem test_response_head : regField rspAt5 (aThm 0x14) 4 0 = 5 ∧ regField rspAt5 (aThm 0x18) 4 0 = 0 ∧ fieldOf 5#32 4 0 = 5 ∧
    fieldOf 6#32 4 0 = 6 ∧ (5 + 32 - 0) % 32 ≤ (5 + 32 - 0) % 32 ∧ (5 + 32 - 0) % 32 < (6 + 32 - 0) % 32 := by decide +kernel

/-! ### Engines (O23 to O26) -/

theorem test_press_input : (∀ op ∈ [0x0501, 0x0502, 0x0503, 0x0504, 0x0505, 0x0506, 0x0507, 0x0508],
      takes (run (cmd op [(32, 16)])) op 16) ∧ (cmd 0x0501).work.step = 0 ∧
    inputOf (cmd 0x0501 [(32, 16)]) (liveIO (run (cmd 0x0501 [(32, 16)])) (cmd 0x0501 [(32, 16)]) { input := .fault }) = none := by
  simp only [takes, Started, Reads, Delivers]; decide +kernel

/-- A streaming context of slice 1 at index 0. -/
def ctx : SymCtx := { gen := 1, slice := 1, handle := hd, par := { mode := 1 }, prefix_ := [], aad := [] }
def idOf : List (Nat × Nat) := [(52, ctxId 0 ctx % 256), (53, ctxId 0 ctx / 256 % 256)]
def withCtx : State := { keyed with press := { ctxs := [(0, ctx)] }, slices := [(1, { mode := .active })] }

theorem test_context_close : let c := ringCmd 0x0509 idOf
    let s := run c withCtx
    Started s 0 0x0509 c ∧ par c 52 4 / 2 ^ 20 = 0 ∧ tblFind 0 s.press.ctxs = some ctx ∧ ctxId 0 ctx = par c 52 4 ∧
    s.tortin.tracker.all (fun e => e.1 == 0 || !namesCtx e.2 (par c 52 4) || cSlice e.2 != cSlice c) = true ∧
    (let d := ringCmd 0x0507 idOf
     Started (with1 s d) 1 (cOp d) d ∧ cOp d = 0x0507 ∧ par d 52 4 = par c 52 4 ∧ cSlice d = cSlice c) ∧
    tblFind (par c 52 4 / 2 ^ 20) (run c).press.ctxs = none := by simp only [Started]; decide +kernel

/-- A job of a mailbox command in pipeline 0, waiting and running. -/
def job (b : Bool) : PressJob := { src := .cmd 0 0, order := 0, group := 2, ready := true, running := b }

theorem test_press_issue : let s : State := { press := { pipes := [(0, [job false])] } }
    pwrMode s = 0 ∧ s.pwr.vault = false ∧ (pressWaiting s 0).find? (fun x => x.group == 2) = some (job false) ∧
    (∀ x ∈ pressWaiting s 0, 2 ≤ x.group) ∧ pressWaiting {} 0 = [] := by decide +kernel

/-- A state in which the job of that command runs. -/
def pressing (c : Cmd) : State := { run c keyed with press := { pipes := [(0, [job true])] } }

theorem test_press_done : ∀ op ∈ [0x0501, 0x0502, 0x0503, 0x0504, 0x0505, 0x0506],
    let c : Cmd := { cmd op with work := { nums := [1] } }
    Started (pressing c) 0 op c ∧ c.work.nums = [1] ∧ Delivers (pressing c) c {} ∧
    (pipeJobs (pressing c) 0).find? (fun j => j.order == 0 && j.running) = some (job true) ∧ (job true).src = .cmd 0 0 := by
  simp only [Started, Delivers]; decide +kernel

theorem test_context_free : tblFree (pressing (cmd 0x0506)).press.ctxs 0 4096 = some 0 := by rfl

theorem test_press_context_jobs : ∀ op ∈ [0x0507, 0x0508], let c : Cmd := { ringCmd op idOf with work := { nums := [1] } }
    ctxFind (run c withCtx) c = some (0, ctx) := by decide +kernel

theorem test_mangle_input : (∀ op ∈ [0x0601, 0x0602, 0x0603, 0x0604, 0x0605, 0x0607], takes (run (cmd op [(32, 16)])) op 16) ∧
    (cmd 0x0601).work.nums = [] ∧ mangleHas (run (cmd 0x0606 hdA) keyed) 0 = false ∧
    keyOf (run (cmd 0x0606 hdA) keyed) (cKeyA (cmd 0x0606 hdA)) = some obj := by
  simp only [takes, Started, Reads, Delivers]; decide +kernel

/-- A Mangle operation of a mailbox command. -/
def mop : MangleOp := { src := .cmd 0 0, order := 0, group := 2, ready := true, running := true }

theorem test_mangle_fill : ∀ w ∈ [{ op := mop }, { op := mop, mate := some { mop with order := 1 } }], let s : State := { mangle := { waiting := [w] } }
    pwrMode s = 0 ∧ s.pwr.vault = false ∧ unitFor s none = some 0 ∧ unitFor s (some 0) = some 1 ∧
    (s.mangle.waiting.filter (waitMay s)).find? (fun x => x.op.group == 2) = some w ∧
    (∀ x ∈ s.mangle.waiting, waitMay s x = true → 2 ≤ x.op.group) ∧ unitFor s none ≠ some 1 ∧ cmdAt s 0 = none := by decide +kernel

/-- Seven units that are full leave a hybrid one unit only. -/
theorem test_one_unit : let s : State := { mangle := { units := (List.range 7).map (fun u => (u + 1, List.replicate 4 mop)) } }
    unitFor s none = some 0 ∧ unitFor s (some 0) = none := by decide +kernel

def mangling (c : Cmd) : State := { run c keyed with mangle := { units := [(0, [mop])] } }

theorem test_mangle_done : ∀ op ∈ [0x0601, 0x0602, 0x0603, 0x0605, 0x0606],
    let c : Cmd := { cmd op hdA with work := { nums := [1, 0] } }
    let s := mangling c
    Started s 0 op c ∧ c.work.nums = [1, 0] ∧ c.work.step = 0 ∧ Delivers s c {} ∧ thmRoom s = true ∧ unitRuns s 0 = some mop ∧
    mop.src = .cmd 0 0 ∧ mangleHas (unitPut s 0 ((unitOps s 0).filter (fun x => x.order != mop.order))) 0 = false := by
  simp only [Started, Delivers]; decide +kernel

/-- A command that makes an X25519 pair: its material is Bobbin's bytes with their public part (Tables 4-2, 7-3). -/
theorem test_pair_made : let c : Cmd := { cmd 0x0401 [(52, 0x13)] with work := { nums := [1, 0] } }
    let s := { mangling c with rng := { inst := true } }
    kcType c = 0x13 ∧ kcSize c = 0 ∧ bobbinServes s = true := by decide +kernel

theorem test_pair_material (s : State) : (pairMaterial s 0x13 0).1.isSome = true := by
  have h : (draw s 32).1.length = 32 := by simp [draw, bytesAt, zeros] <;> omega
  have p : pairPrivate s 0x13 0 = (some (draw s 32).1, (draw s 32).2) := rfl
  have k : privLen 0x13 = 32 := rfl
  have b : (keyBytes 0x13 0).getD 0 = 64 := rfl
  unfold pairMaterial
  rw [p]
  simp [pairOk, h, k, b, Option.filter]

/-- The bytes of 1,024 raw bits that pass the health tests, and of ones that fail. -/
def noise : List Byte := List.replicate 128 0xAA
def stuck : List Byte := List.replicate 128 0xFF
def lintState (ok : Bool) : State := { time := { clk := 6400 }, boot := { step := .done }, rng := { srcs := [(0, { ok := ok })] } }

theorem test_lint : ∀ ok ∈ [false, true], (lintState ok).pwr.vault = false ∧ rngRuns (lintState ok) = true ∧ rngTest (lintState ok) = false ∧
    lintOn (lintState ok) 0 = true ∧ (lintGet (lintState ok) 0).ok = ok ∧ (lintGet (lintState ok) 0).since + 6400 ≤ (lintState ok).time.clk ∧
    (healthScan ((rawBits stuck).headD false) (rawBits stuck) 0 false 0 0).1 = some 40 ∧
    (lintGet (lintState ok) 0).since + (40 + 1) * 25 / 4 ≤ (lintState ok).time.clk ∧
    (healthScan ((rawBits noise).headD false) (rawBits noise) 0 false 0 0).1 = none ∧
    windowFails (lintState ok) 0 stuck ≠ none ∧ windowFails (lintState ok) 0 noise = none := by decide +kernel

/-- Bobbin before and after its instantiation, with bits in the pool and without, at its limits, and after a failed test. -/
theorem test_bobbin : let late : State := { time := { clk := 10 ^ 9, acc := 1 <<< 64 }, boot := { step := .done }, rng := { inst := true } }
    (512 ≤ ({ rng := { katOk := true, pool := List.replicate 512 true } } : State).rng.pool.length) ∧
    rngRuns late = true ∧ reseedDue late = true ∧ late.rng.pool.length < 384 ∧
    (384 ≤ ({ rng := { inst := true, pool := List.replicate 384 true } } : State).rng.pool.length) ∧
    (0 + 10 * cycUs ≤ late.time.clk) ∧ (0 + cycS ≤ late.time.clk) ∧
    2 ^ 24 ≤ ({ rng := { inst := true, calls := 2 ^ 24 } } : State).rng.calls ∧
    takes (run (cmd 0x0702 [(32, 8)])) 0x0702 8 := by
  simp only [takes, Started, Reads, Delivers]; decide +kernel

theorem test_random_consumers : let c : Cmd := { cmd 0x0701 [(52, 16)] with work := { nums := [1] } }
    let s : State := { run c with rng := { inst := true, reqs := [{ what := .cmd 0, group := 6, left := 16 }] } }
    Started s 0 0x0701 c ∧ Delivers s c {} ∧ rngNext s = some { what := .cmd 0, group := 6, left := 16 } ∧ rngBehind s 6 = false ∧ (cmd 0x0701).work.step = 0 ∧
    (rngTest s && bitOf (regGet s aRngTestCtrl) 1) = false ∧ s.rng.limit = false ∧ (tblGet [] s.rng.fifos 0).length ≤ 32 ∧
    s.rng.reqs.any (fun r => r.what == .fifo 0) = false ∧
    rngNext { rng := { reqs := [{ what := .fifo 2, group := 7, left := 128 }] } } = some { what := .fifo 2, group := 7, left := 128 } ∧
    (4096 < ({ what := .cmd 0, group := 6, left := 4097 } : RngReq).left) ∧
    tblGet [] ({ rng := { fifos := [(0, [7])] } } : State).rng.fifos (Requester.fn 0).cls = [7] ∧
    tblGet [] s.rng.fifos (Requester.fn 0).cls = [] ∧
    s.pwr.vault = false ∧ pwrMode s ≤ 1 ∧ portThere s 0 = true := by simp only [Started, Delivers]; decide +kernel

/-- A private-key operation that waits for Bobbin in group 1 stands before `RNG.GET`. -/
theorem test_random_behind : rngBehind { run { cmd 0x0603 with stage := .waiting } with
    rng := { inst := true, reqs := [{ what := .start 0, group := 1, left := 0 }] } } 6 = true := by decide +kernel

/-- A search that may begin finds something where it begins at a hit. -/
theorem test_first_hit {p : Nat → Bool} {i n : Nat} (n0 : 0 < n) (h : p i = true) : (firstNat p i n).isSome = true := by
  cases n with
  | zero => cases n0
  | succ n => simp [firstNat, h]

/-- In an empty pool the Hamper has a buffer for whoever may take one, whichever it is. -/
theorem test_pool_has_a_buffer (s : State) (tag : Nat) (h : acctTakes s (acctOf s tag) 1 = true) (m : s.hamper.metas = [])
    (r : s.hamper.rings = false) (b : s.hamper.bank = 63) : (hmpAlloc s tag 1).isSome = true := by
  have f (x : Nat) : bufFree s (4096 * 0 + x % 4096) = true := by
    have : x % 4096 < hmpBuffers := Nat.lt_trans (Nat.mod_lt x (by decide)) (by decide)
    simp [bufFree, bufGet, tblGet, tblFind, m, r, this]
  have k : ((List.range 64).map (fun i => (s.hamper.bank + 1 + i) % 64)).find? (bankFree s) = some 0 := by
    have e : bankFree s 0 = true := by simp [bankFree, m, r]
    rw [b]
    show List.find? _ (0 :: _) = _
    simp [List.find?, e]
  have n : (nextFree s).isSome = true := by
    unfold nextFree
    rw [k]
    show (Option.map _ _).isSome = true
    rw [Option.isSome_map]
    exact test_first_hit (by decide) (f _)
  obtain ⟨⟨x, t⟩, e⟩ := Option.isSome_iff_exists.mp n
  have g : takeBufs 1 s [] = takeBufs 0 (bufPut t x { held := true }) [x] := by
    show (match nextFree s with
      | none => none
      | some (b, s1) => takeBufs 0 (bufPut s1 b { held := true }) [b]) = _
    rw [e]
  have w : hmpAlloc s tag 1 = (if !acctTakes s (acctOf s tag) 1 then none else match takeBufs 1 s [] with
      | none => none
      | some (bs, s1) => some (bs.headD 0, chargeNote s (acctOf s tag) (linkChain s1 tag bs))) := rfl
  rw [w, h, g]
  rfl

/-! ### Links and groups (O27 to O31) -/

/-- A state with one register set. -/
def reg (a : Nat) (v : Word) (s : State := {}) : State := { s with regs := { s.regs with file := [(a, v)] } }

/-- A state at a clock far from 0. -/
def old (s : State) : State := { s with time := { s.time with clk := 10 ^ 14 } }

theorem test_link_commands : takes (run (cmd 0x0801 [(32, 64)])) 0x0801 64 ∧ par (cmd 0x0801) 52 2 < 256 ∧
    takes (run (cmd 0x0808 [(32, 24)])) 0x0808 24 := by
  simp only [takes, Started, Reads, Delivers]; decide +kernel

theorem test_queue_commands : takes (run (cmd 0x0804 [(32, 192)]) linked) 0x0804 192 ∧ stands (run (cmd 0x0805) linked) 0x0805 ∧
    queue.mode ≠ .draining ∧ queue.rxList = [] := by
  simp only [takes, stands, Started, Reads, Delivers]; decide +kernel

/-- A draining queue whose last buffer is free, with the command that waits for it. -/
theorem test_queue_drained : let c := cmd 0x0805
    let s := run c { links := { queues := [(0, { queue with mode := .draining })] } }
    queueGet s 0 = some { queue with mode := .draining } ∧ queueHeld s 0 = 0 ∧
    s.tortin.tracker.find? (fun e => e.2.stage == .started && cOp e.2 == 0x0805 && par e.2 52 2 == 0) = some (0, c) := by decide +kernel

/-- An encapsulation key of zeros has every coefficient in range (Table 7-3). -/
theorem test_zero_encapsulation_key (n : Nat) : publicValid 0xB1 0 (bytesAt (zeros n) 152 1568) = true := by
  have h (n o m : Nat) : bytesAt (zeros n) o m = zeros m := by
    simp only [bytesAt, zeros, List.drop_replicate, List.take_replicate, List.length_replicate, List.replicate_append_replicate]
    congr 1
    omega
  have z : leNat (zeros 3) = 0 := by decide
  simp [publicValid, kemKeyOk, h, z]

/-- A `LINK.SEND` to a queue with room, to one without, and one that has its answers. -/
theorem test_send : let c := cmd 0x0806 [(54, 1), (32, 4)]
    takes (run c linked) 0x0806 4 ∧ c.mirror = false ∧ c.work.step = 0 ∧ acctTakes (run c linked) (acctOf (run c linked) (tagQueue 0)) 1 = true ∧
    sendChains (run c) (zeros 4) (sendQueues c) = none ∧
    publicValid 0x93 0 (bytesAt (zeros 1720) 120 32) = true ∧ publicValid 0xB1 0 (bytesAt (List.replicate 1720 255) 152 1568) = false ∧ mangleHas (run c linked) 0 = false ∧
    ({ c with work := { step := 1, nums := [2 ^ 16] } } : Cmd).work.nums.all (fun n => decide (2 ^ 16 ≤ n)) = true := by
  simp only [takes, Started, Reads, Delivers]; decide +kernel

theorem test_port_states : (∀ m ∈ [PortMode.training, .down], (portGet ({ links := { ports := [(0, { mode := m })] } } : State) 0).mode = m) ∧
    bitOf (regGet (reg (aLnk 0 4) (1#32 <<< 31)) (aLnk 0 4)) 31 = true ∧ pwrMode {} ≠ 3 ∧
    (portGet ({ links := { ports := [(0, { mode := .idleForced })] } } : State) 0).idleAt + cycMs ≤ (old {}).time.clk := by decide +kernel

/-- A frame of a type with no payload but what its type fixes, and a queue that it is for (R276, Table 10-2). -/
def ffp (kind len : Nat) (hb : Bool) : List Byte :=
  zeros 12 ++ [0x88, 0xB5, BitVec.ofNat 8 (0x10 + kind), 2, 0, 0, 0, 1, if hb then 0xC0 else 0x80] ++ zeros 6 ++ [1] ++ zeros 8 ++
  [0, BitVec.ofNat 8 len] ++ zeros 8 ++ zeros len ++ zeros 16
def rxQueue : Queue := { queue with air := true, epoch := 1, present := some { epoch := 1, key := [] }, peers := [{ mac := zeros 6 }] }
def rxState : State := { links := { ports := [(0, { mode := .up })], queues := [(0, rxQueue)], cards := [(0, card)] } }
def hdr (f : List Byte) : FfpHdr := ffpRead (zeros 6) (f.drop 14) (f.length + 4)

theorem test_frames : ∀ x ∈ [(1, 0, false), (2, 16, false), (3, 16, true), (5, 32, true), (6, 16, false)],
    let f := ffp x.1 x.2.1 x.2.2
    portUp rxState 0 = true ∧ (portGet rxState 0).hold = false ∧ rxWhole rxState 0 f true = none ∧
    rxEncap rxState 0 f = .ffp (zeros 6) (f.drop 14) ∧ ffpHdrOk rxState 0 (hdr f) = true ∧ (hdr f).queue ≠ 0xFFFF ∧ (hdr f).kind = x.1 ∧
    classify rxState 0 (hdr f) = [0] ∧ queueGet rxState 0 = some rxQueue ∧ rxQueue.held = false ∧ queueTakes rxQueue x.1 = true ∧
    keyReg rxQueue (hdr f).epoch = some (false, { epoch := 1, key := [] }) ∧
    replayNew {} (ffHbClass x.1) (ffSeq (hdr f)) = true ∧ replayNew { high := 2000, hb := 1 } (ffHbClass x.1) (ffSeq (hdr f)) = false ∧
    rxState.links.waits = [] ∧ pressFree rxState = true := by decide +kernel

/-- A DATA frame meets a Press whose lists are full. -/
theorem test_press_full : rxOnAir rxQueue 1 = false ∧
    pressFree { press := { pipes := (List.range 16).map (fun p => (p, List.replicate 48 (job false))) } } = false := by decide +kernel

/-- A frame finds its chain in the buffers that its port has fetched. -/
theorem test_frame_has_a_chain : let s : State := { rxState with
      hamper := { metas := [(7, { held := true, first := true, last := true, owner := tagPort 0, count := 1 })] }
      links := { rxState.links with ports := [(0, { mode := .up })] } }
    (rxChain s 0 0 (ffp 1 0 false) 5).isSome = true := by decide +kernel

/-- An alarm frame that may leave, a payload that can be delivered, and a frame of the hold ring. -/
def txF : TxFrame := { ctr := 1, kind := 1, bytes := [0x11, 2, 0, 0, 0, 1], enqAt := 0 }
def txQueue : Queue := { rxQueue with cls := 0, txList := [txF] }

theorem test_frame_leaves : let s : State := { tortin := { ready := true }, links := { ports := [(0, { mode := .up })], queues := [(0, txQueue)] } }
    portUp s 0 = true ∧ (rotate (portGet s 0).lastA (tblKeys (fun y => txQueueReady s 0 y && y.cls == 0) s.links.queues)).head? = some 0 ∧
    txNext s txQueue = some txF ∧ tblKeys (fun y => txQueueReady {} 0 y) ({} : State).links.queues = [] := by decide +kernel

theorem test_delivery : let r : RxFrame := { ctr := 1, app := 0, chain := 0, payload := [], stamp := 0 }
    let x : Queue := { queue with rxList := [r], slice := 1 }
    let s : State := { fn0 := live, links := { queues := [(0, x)] }
                       slices := [(1, { mode := .active, cq := [(0, { cfg := 0x80000004 })] })] }
    queueGet s 0 = some x ∧ x.dest = 0 ∧ hostSilent s = false ∧ seamReleased s r.jseq = true ∧ (sliceGet s x.slice).mode = .active ∧
    r.payload.length ≤ 2 ^ x.rxSize ∧ cqRoom s x.slice x.rxCq = true ∧ x.rxOut.length < 2 ^ x.rxSlots ∧
    fnLive s (sliceGet s x.slice).port = true ∧ retryOf s (.cqWrite x.slice x.rxCq) = none := by decide +kernel

theorem test_hold_ring : let f : HoldFrame := { stamp := 0, flags := 0, bytes := [], fcsOk := true }
    holdNext ({ links := { ports := [(3, { hold := true, ring := [f] })] } } : State) = some (3, f) := by decide +kernel

/-- A queue whose timers are due. -/
def dueQueue : Queue := { rxQueue with cls := 2, ctrSafe := 9, hbStamp := 0, ackDue := [1], gaps := [(4, 0)], hbLast := some 0, hbPeriod := 1,
                                        present := some { epoch := 1, key := [], win := { high := 3, bits := 5 } } }

theorem test_queue_timers : let s := old { rxState with tortin := { ready := true }, links := { rxState.links with queues := [(0, dueQueue)] } }
    queueGet s 0 = some dueQueue ∧ dueQueue.ackDue ≠ [] ∧ dueQueue.ackAt + 100 * cycUs ≤ s.time.clk ∧ linkServes s = true ∧ portUp s 0 = true ∧
    (dueQueue.gaps.filter (fun e => decide (e.2 + deadlinePart dueQueue 1 ≤ s.time.clk))).map (·.1) = [4] ∧ linkDecides s = true ∧ pressFree s = true ∧
    dueQueue.held = false ∧ dueQueue.cls = 2 ∧
    ctrCovered (leaseCtr s 0 dueQueue).2 (leaseCtr s 0 dueQueue).1 dueQueue.txCtr = true ∧ dueQueue.mode = .active ∧
    dueQueue.present.isSome = true ∧ dueQueue.air = true ∧ dueQueue.hbLast.isSome = true ∧ dueQueue.hbLost = false ∧
    dueQueue.hbStamp.toNat + 2 ^ 32 * 3 * dueQueue.hbPeriod / 1000 < (nowStamp { time := { acc := 1 <<< 64 } }).toNat := by decide +kernel

/-- A primary whose follower has not acknowledged a lease entry: what waits for it. -/
def unacked : State := { seam := { role := .primary, size := 2, applied := 1, nextSeq := 2
                                   peers := [{}, { serial := 7, role := 1, lost := false, inSync := true }, {}] } }

theorem test_uncovered : let x : Queue := { dueQueue with ctrSafe := 0, ctrSeq := 1 }
    seamReleased unacked 1 = false ∧ seamReleased {} 1 = true ∧
    ctrCovered (leaseCtr unacked 0 x).2 (leaseCtr unacked 0 x).1 x.txCtr = false := by decide +kernel

/-- A card whose epoch change is due, and one whose confirmation is old. -/
def chg : EpochChange := { epoch := 2, queue := 0, frame := [], begun := 0, lastTx := 0, listed := [], cmd := some 0, due := false, jseq := 1 }

theorem test_card_timers : let s := old (run (cmd 0x0807) { rxState with links := { rxState.links with
      cards := [(0, { card with change := some chg })] } })
    cardGet s 0 = some { card with change := some chg } ∧ chg.lastTx + 100 * cycMs ≤ s.time.clk ∧ chg.begun + cycS ≤ s.time.clk ∧
    chg.due = false ∧ ({ chg with due := true } : EpochChange).due = true ∧ seamReleased s chg.jseq = true ∧ seamReleased unacked chg.jseq = false ∧
    cmdAt s 0 = some (cmd 0x0807) ∧ ({ card with confAt := some 0 } : CardRec).change = none := by decide +kernel

theorem test_rekey_after_reset : let s : State := { tortin := { ready := true }, links := { cards := [(0, card)], queues := [(0, queue)] } }
    s.links.cards = [(0, card)] ∧ cardQueues s 0 ≠ [] ∧ (cardQueues s 0).all (fun y => y.2.present.isNone) = true ∧
    rekeyRefusal s 0 card = stOk ∧ card.conf ≠ 0 ∧ thmRoom s = true := by decide +kernel

/-- An enrolment whose offer and whose time are due. -/
def enrol : Enrolment := { tag := 0, card := 0, port := 0, peers := [{ mac := zeros 6 }], owner := 0, total := 10, cont := false
                           master := [], key := [], offer := [], begun := 0, lastTx := 0 }

theorem test_enrolment : let s := old (run (cmd 0x0809) { rxState with links := { rxState.links with enrols := [enrol] } })
    enrolOf s 0 = some enrol ∧ enrol.report = none ∧ enrol.begun + 5 * cycS ≤ s.time.clk ∧ cmdAt s enrol.tag = some (cmd 0x0809) ∧
    peerAddr s 0 (enrol.peers.getD s.seam.index {}) = zeros 6 ∧
    ({ op := 8, tag := 1, nums := [0, 0, 0, 0, 0, 0, 0, 0, 0] } : ThmReq).nums.drop 8 = 0 :: [] := by decide +kernel

/-- A member that can form a group with this input, and one that cannot. -/
def formIn : List Byte := [2, 0] ++ zeros 6 ++ zeros 4824
theorem test_form : formInputOk { seam := { formX := zeros 32, formK := zeros 1568 } } formIn = true ∧ formInputOk {} (zeros 4832) = false := by
  decide +kernel

def grouped (r : SeamRole) : State := { seam := { role := r, size := 2, index := 0, key := [1], peers := [{}, { serial := 7, role := 1 }, {}] } }

theorem test_seam_commands : (∀ op ∈ [0x0902, 0x0904, 0x0905, 0x0906], Started (run (cmd op) (grouped .primary)) 0 op (cmd op)) ∧
    takes (run (cmd 0x0901 [(32, 8)])) 0x0901 8 ∧ isPrimary (grouped .primary) = true ∧ isPrimary {} = false ∧
    seamSettled (grouped .primary) = true ∧ par (cmd 0x0902 [(52, 1)]) 52 1 ≠ 0xFF ∧ par (cmd 0x0902 [(52, 1)]) 52 1 ≠ (grouped .primary).seam.index ∧
    par (cmd 0x0904 [(52, 1)]) 52 1 < (grouped .primary).seam.peers.length ∧ (cmd 0x0902).mirror = false ∧
    par (cmd 0x0902 [(52, 0xFF)]) 52 1 = 0xFF ∧ releaseSet (grouped .primary) = [] ∧ bobbinServes (grouped .primary) = false ∧
    bobbinServes { grouped .primary with rng := { inst := true } } = true ∧ (grouped .primary).seam.switch = none := by
  simp only [takes, Started, Reads, Delivers]; decide +kernel

theorem test_switchover_waits : seamSettled { seam := { role := .primary, size := 2, applied := 1, peers := [{}, { lost := false, inSync := true }, {}] } } = false := by
  decide +kernel

theorem test_form_timeout : let s := old (run (cmd 0x0901) { seam := { role := .forming, forming := some 0 } })
    s.seam.forming = some 0 ∧ s.seam.role = .forming ∧ s.seam.formAt + 60 * cycS ≤ s.time.clk ∧ cmdAt s 0 = some (cmd 0x0901) := by decide +kernel

/-- A group member whose link 0 is up with a session key. -/
def linkedUp (r : SeamRole) (m : SeamLinkMode := .up) : State :=
  { seam := { (grouped r).seam with links := [{ mode := m, peer := 1, key := [9], nonce := [1] }, {}, {}, {}] } }
def pkt (x : SeamLoad) (k : List Byte := [9]) : SeamPacket := { source := 1, dest := 0, link := 0, seq := 1, stamp := 0, key := k, load := x }

theorem test_hello : let s := linkedUp .primary .hello
    0 < s.seam.links.length ∧ (seamLink s 0).mode = .hello ∧ s.seam.size ≠ 0 ∧ cablePeer s.seam.size s.seam.index 0 = 1 ∧
    (seamPeer s 1).serial = 7 ∧ s.seam.key ≠ [] ∧ (seamLink s 0).nonce ≠ [] ∧ (seamLink s 0).theirs ≠ [2] := by decide +kernel

theorem test_packets : (∀ x ∈ [SeamLoad.heartbeat 1 0 0 0 0 0, .journal [], .ack 0 0, .nak 0 1 2, .upLease 0 9, .inSync 0, .farewell .reset],
      From (linkedUp .primary) 0 1 (pkt x)) ∧ seamPass (linkedUp .primary) 0 (pkt (.inSync 0) [8]) = false ∧
    (seamLink (linkedUp .primary .hello) 0).mode ≠ .up := by unfold From; decide +kernel

/-- A follower's request for a lease of a queue's heartbeat sequences, and links that are trained or renewed with Bobbin and without. -/
theorem test_link_sessions : let s : State := { linkedUp .primary with links := { queues := [(0, dueQueue)] } }
    (pkt (.upLease 0 9)).load = .upLease 0 9 ∧ s.seam.role = .primary ∧ queueGet s 0 = some dueQueue ∧
    (∀ m ∈ [SeamLinkMode.down, .training, .fault, .aligned, .up], (seamLink (linkedUp .primary m) 0).mode = m) ∧
    bobbinServes (linkedUp .primary) = false ∧ bobbinServes { linkedUp .primary with rng := { inst := true } } = true := by decide +kernel

theorem test_forming_member :
    let s : State := { seam := { role := .forming, size := 2, index := 1, forming := some 0, links := [{ mode := .hello, peer := 0 }, {}, {}, {}] } }
    (seamLink s 0).peer = 0 ∧ s.seam.role = .forming ∧ s.seam.forming.isSome = true ∧ s.seam.index ≠ 0 ∧ s.seam.key = [] := by decide +kernel

/-- Entries of a follower in order, ahead and behind. -/
theorem test_journal_entries : let e (n : Nat) : JEntry := { term := 1, seq := n, release := false, slice := 0, stamp := 0, body := .owner 3 none }
    let s : State := { seam := { (linkedUp .follower).seam with applied := 4, term := 1 } }
    s.seam.role = .follower ∧ s.seam.waiting = [] ∧ s.seam.term ≤ (e 5).term ∧ (e 5).seq = s.seam.applied + 1 ∧
    s.seam.applied + 1 < (e 6).seq ∧ (e 4).seq ≤ s.seam.applied := by decide +kernel

theorem test_seam_timers : let s := old (linkedUp .follower)
    cpHalted s = false ∧ (seamLink s 0).sentAt + 50 * cycUs ≤ s.time.clk ∧
    (seamLink s 0).heard + ((seamLink s 0).missed + 1) * 50 * cycUs ≤ s.time.clk ∧ (seamLink s 0).missed + 1 < 4 ∧
    (seamPrimary s).isSome = true ∧ 0 + 20 * cycUs ≤ s.time.clk ∧ 0 + 10 * cycS ≤ s.time.clk ∧ 0 + 100 * cycUs ≤ s.time.clk ∧
    s.seam.checkAt + 10 * cycMs ≤ s.time.clk ∧ s.seam.probed + 10 * cycMs ≤ s.time.clk ∧
    (s.seam.asks.filter (fun a => decide (s.time.clk < a + askWindow))).length < 3 := by decide +kernel

theorem test_rejoin : let s := old { seam := { (grouped .forming).seam with solo := 1, peers := [{}, { checked := true, lost := false }, {}] }
                                     keys := { nextSeq := 2 } }
    s.seam.forming = none ∧ s.seam.key ≠ [] ∧ s.seam.formAt + 5 * cycS ≤ s.time.clk ∧
    ((seamOthers s).filter (fun m => (seamPeer s m).checked && !(seamPeer s m).lost)) ≠ [] ∧
    (∀ m ∈ seamOthers s, (seamPeer s m).committed < s.keys.nextSeq - 1) ∧ s.seam.solo ≠ 0 ∧
    s.seam.formAt + s.seam.solo * cycS ≤ s.time.clk ∧ (seamOthers (grouped .forming)).all (fun m => (seamPeer (grouped .forming) m).lost) = true := by
  decide +kernel

/-! ### Tally, time and power (O32 to O34) -/

def app (sev : Nat) (stamp : Stamp := 5) : TallyApp := { code := 1, sev := sev, agent := 0, stamp := stamp, agentSeq := 0, body := .items [] }
def slot (sev : Nat) (valid flushed : Bool) : TallySlot :=
  { rcd := { app := app sev 1, drops := false, unset := false, member := 0, group := false, seq := 1, ct := 0, epoch := 0, rep := 0, last := 1 }
    valid := valid, taken := 0, flushed := flushed }
def tallied (sev : Nat) (x : TallySlot) : State := { tally := { ports := [(0, [app sev])], slots := [(0, x)], nextSeq := 2 } }

theorem test_tally_append : let s := tallied 4 (slot 4 true false)
    tallyAwake s = true ∧ tallyHead s = some (0, app 4) ∧ (app 4).sev ≠ 0 ∧ tallyNewest s = some (0, slot 4 true false) ∧
    foldsInto s (slot 4 true false) (app 4) ∧ tallyNewest { tally := { ports := [(0, [app 4])] } } = none ∧
    tblFree s.tally.slots 0 4096 = some 1 ∧ tallyVictim s 4 = some (0, slot 4 true false) ∧ tallyVictim s 3 = none := by
  unfold foldsInto; decide +kernel

theorem test_tally_timers : let s := old { tallied 4 (slot 4 true false) with tally := { (tallied 4 (slot 4 true false)).tally with want := true } }
    (slot 4 false false).valid = false ∧ (slot 4 false false).taken + 10 * cycUs ≤ s.time.clk ∧ s.tally.flush = none ∧ flushOrder s ≠ [] ∧
    flushDue s = true ∧ s.tally.flashFail = false ∧ s.tally.failAt + cycS ≤ s.time.clk := by decide +kernel

theorem test_tally_commands : takes (run (cmd 0x0A03 [(32, 16)])) 0x0A03 16 ∧
    (∀ op ∈ [0x0A02, 0x0A05], Started (run (cmd op) (tallied 4 (slot 4 true false))) 0 op (cmd op)) ∧
    anyUnflushed (tallied 4 (slot 4 true false)) [1] = true ∧ anyUnflushed (tallied 4 (slot 4 true true)) [1] = false ∧
    tallyUnflushed (tallied 4 (slot 4 true true)) = [] ∧ tallyUnflushed (tallied 4 (slot 4 true false)) ≠ [] ∧
    leNat ([] : List Byte) < (1 : Word).toNat := by
  simp only [takes, Started, Reads, Delivers]; decide +kernel

theorem test_time_commands : (∀ op ∈ [0x0B02, 0x0B03, 0x0B04, 0x0B05, 0x0B06], Started (run (cmd op)) 0 op (cmd op)) ∧
    par (cmd 0x0B03 [(52, 1)]) 52 1 ≠ 0 ∧ ({} : State).pwr.vault = false ∧ ({ pwr := { vault := true } } : State).pwr.vault = true ∧
    portThere {} 0 = true ∧ portThere {} 1 = false := by simp only [Started]; decide +kernel

theorem test_time_steps : ({ time := { stepAsked := true } } : State).time.stepAsked = true ∧ bitOf (regGet {} aTimeCtrl) 9 = false ∧
    0 ≤ toSigned 64 (regGet64 {} aTimeAdjLo aTimeAdjHi).toNat ∧
    toSigned 64 (regGet64 (reg aTimeAdjHi 0x80000000) aTimeAdjLo aTimeAdjHi).toNat < 0 ∧
    (∀ m ∈ [-1000001, 1000001], let s := old { time := { meas := [m] } }
      servoReady s = true ∧ meanOf (servoTake s) = m ∧ bitOf (regGet s aTimeCtrl) 9 = false) ∧ servoReady {} = false := by decide +kernel

theorem test_time_sources : 225000000 ≤ (old {}).time.clk - 0 ∧ (1 : Nat) - 0 < 225000000 ∧ ownSource {} = true ∧
    timeSrc (reg aTimeCtrl 1) = 1 ∧ timeSrc (reg aTimeCtrl 2) = 2 ∧ sourceSilent (old (reg aTimeCtrl 1)) none 2 = true ∧
    sourceSilent (old (reg aTimeCtrl 2)) none 3 = true ∧ ({ time := { ppsDue := true, rtcDue := true, ppsOut := true } } : State).time.ppsDue = true ∧
    ({} : State).time.ppsDue = false ∧ ({} : State).time.rtcDue = false ∧ ({} : State).time.ctBack = false ∧ ({} : State).time.ppsRise + ({} : State).time.ppsWidth * cycMs ≤ (old {}).time.clk := by decide +kernel

theorem test_airing_references : nextRef (reg aPwrAirRef 0x00030000) 2 = some 1 ∧ nextRef {} 2 = none := by decide +kernel

/-- A PTP message that a master answers, and one that a slave stamps. -/
def ptpFrame (kind : Byte) : List Byte := zeros 12 ++ [0x88, 0xF7, kind, 2] ++ zeros 42

theorem test_ptp : let s (k : Word) : State := { reg (aLnk 0 4) (k <<< 23) with links := { ports := [(0, { mode := .up })] }, tortin := { ready := true } }
    rxWhole (s 0) 0 (ptpFrame 1) true = none ∧ rxEncap (s 0) 0 (ptpFrame 1) = .ptp ((ptpFrame 1).drop 14) ∧
    byteAt ((ptpFrame 1).drop 14) 0 % 16 = 1 ∧ byteAt ((ptpFrame 0).drop 14) 0 % 16 = 0 ∧ (portGet (s 0) 0).ptp.length < 64 := by decide +kernel

theorem test_power_states : pwrMode {} = 0 ∧ pwrMode (reg aPwrState 1) = 1 ∧ pwrMode (reg aPwrState 2) = 2 ∧ pwrMode (reg aPwrState 3) = 3 ∧
    bitOf (regGet (reg aPwrCtrl 3) aPwrCtrl) 0 = true ∧ bitOf (regGet (reg aPwrCtrl 3) aPwrCtrl) 1 = true ∧
    ({} : State).pwr.fastLast + regField {} aPwrWarmIdle 15 0 * 5 / 2 ≤ (old {}).time.clk ∧ pwrHeld {} = false ∧ airingIdle {} = true ∧
    ({} : State).pwr.idleLast + regField {} aPwrAirIdle 23 0 * cycUs ≤ (old {}).time.clk ∧ airingIdle (run (cmd 0x0103)) = false ∧
    (∀ k < 12, bitOf (regGet {} aPwrWakeMask) k = true) ∧ bitOf (regGet {} aPwrWakeMask) 12 = false := by decide +kernel

theorem test_wake_timer : regGet64 (reg aTimeWakeLo 1) aTimeWakeLo aTimeWakeHi ≠ 0 ∧
    (regGet64 (reg aTimeWakeLo 1) aTimeWakeLo aTimeWakeHi).toNat ≤ (nowStamp { time := { acc := 1 <<< 64 } }).toNat := by decide +kernel

theorem test_gpio : bitOf (regGet {} (aGpio 0xC)) 3 = false ∧
    (let s : State := { regs := { file := [(aPwrState, 2), (aGpio 0xC, 8), (aGpio 0x14, 8)] } }
     bitOf (regGet s (aGpio 0xC)) 3 = true ∧ bitOf (regGet s (aGpio 0x14)) 3 = true ∧ evtOn s 0 0x800 = [] ∧ pwrMode s = 2) := by decide +kernel

/-! ### Hamper, DMA and events (O35, O36) -/

/-- A chain of one buffer of core 0. -/
def buffered (tag : Nat) : State := { hamper := { metas := [(7, { held := true, first := true, last := true, owner := tag, count := 1 })] } }

theorem test_fast_power : fastPowered {} = true ∧ fastPowered { pwr := { vault := true } } = false ∧ fastPowered (reg aPwrState 2) = false := by
  decide +kernel

theorem test_hamper : opPort (.core 0) 0 = some (0, tagCore 0) ∧ opPort (.fn 0) 0 = none ∧ acctTakes {} (acctOf {} (tagCore 0)) 1 = true ∧
    isChain (buffered (tagCore 0)) 7 = true ∧ (bufGet (buffered (tagCore 0)) 7).owner = tagCore 0 ∧
    (bufGet (buffered (tagCore 1)) 7).owner ≠ tagCore 0 ∧ (bufGet {} 7).held = false ∧ 256 ≤ 256 * (bufGet (buffered (tagCore 0)) 7).count ∧
    tagCore 0 / 8192 ≠ 4 := by decide +kernel

theorem test_enqueue : let s : State := { buffered (tagCore 0) with links := { queues := [(0, { rxQueue with dest := 1 })] } }
    enqCode s 0 (tagOwner s (tagCore 0)) 7 = 0 ∧ queueGet s 0 = some { rxQueue with dest := 1 } ∧
    (hmpTransfer s 7 (tagCore 0)).isSome = true ∧ seamReleased s 0 = true ∧ queue.dest ≠ 1 := by decide +kernel

theorem test_dma_drivers : dmaDrives {} (.fn 0) 0 = false ∧ dmaDrives {} .cp 0 = true ∧ dmaFrozen {} 0 = false ∧ (chanGet {} 0).mode = .idle ∧
    (∀ m ∈ [DmaMode.idle, .running, .paused, .stopped, .halted, .waitTrig],
      (chanGet ({ dma := { chans := [(0, { mode := m })] } } : State) 0).mode = m) ∧
    (0#32 ++ regGet {} (aDma 0 0x28) : BitVec 64) = regGet64 {} (aDma 0 0x1C) (aDma 0 0x20) := by decide +kernel

/-- A descriptor that moves 64 bytes from host memory to the work memory of core 0. -/
def desc : List Byte := leBytes 8 (2 ^ 32) ++ leBytes 8 0x20080000 ++ leBytes 4 64 ++ zeros 4 ++ leBytes 8 0

theorem test_dma_descriptor : let s : State := { fn0 := live, dma := { chans := [(0, { mode := .running, want := .fetch (2 ^ 32 + 64) })] } }
    (chanGet s 0).want = .fetch (2 ^ 32 + 64) ∧ (chanGet s 0).desc = none ∧ retryOf s (.dmaDesc 0) = none ∧
    dmaMay s 0 (2 ^ 32 + 64) 32 .read = (0, s) ∧ dmaFetch s 0 (2 ^ 32 + 64) 32 (.data desc) = some desc ∧
    (descOf (2 ^ 32 + 64) desc).isSome = true ∧ descOf (2 ^ 32 + 64) (zeros 32) = none := by decide +kernel

theorem test_dma_data : let d : DmaDesc := { at_ := 0, src := 2 ^ 32, dst := 0x20080000, len := 64, ctl := 0, link := 0 }
    dSrcChain d = false ∧ dDstChain d = false ∧ dmaPlace d.src = .host 0 ∧ dmaPlace d.dst = .work 0 0 ∧
    min (min 512 (1024 - 0)) (min (sideRun (dSwrap d) d.src) (sideRun (dDwrap d) d.dst)) = 256 := by decide +kernel

theorem test_dma_commands : let c := cmd 0x0E06 [(52, 32), (54, 2), (55, 1), (56, 1)]
    Started (run c) 0 0x0E06 c ∧ chansForm c = true ∧ par c 55 1 < 16 ∧ sliceField c (par c 56 2) < 1024 ∧ par c 59 1 < 8 ∧ par c 60 1 < 32 ∧
    32 ∈ grantChans c ∧ 34 ∉ grantChans c ∧ (∀ op ∈ [0x0E07, 0x0E08], Started (run (cmd op)) 0 op (cmd op)) ∧
    (∀ k ∈ [0, 1, 2, 0xFF], par (cmd 0x0E08 [(56, k)]) 56 1 ≤ 2 ∨ par (cmd 0x0E08 [(56, k)]) 56 1 = 0xFF) := by
  simp only [Started]; decide +kernel

theorem test_events : let s : State := { regs := { file := [(aEvt 0, 0x8000FFFF), (aEvt 0xC00, 0x80000000), (aEvt 0x1000, 0x80000001)] }
                                         dma := { chans := [(0, { mode := .waitTrig })] } }
    bitOf (regGet s (aEvt 0)) 31 = true ∧ fieldOf (regGet s (aEvt 0)) 15 0 = srcCp ∧
    (evtOn s 0x800 0xC00).filter (fun e => fieldOf e.2 8 0 == 0) = [] ∧
    (evtOn s 0xC00 0x1000).filter (fun e => fieldOf e.2 8 0 == 0) = [(0, 0x80000000)] ∧ (chanGet s 0).mode = .waitTrig ∧
    bitOf (regGet s (aEvt 4)) 31 = false ∧ fieldOf (regGet s (aEvt 0x1000)) 23 0 ≠ 0 ∧
    tblGet 0 s.dma.timers 0 + fieldOf (regGet s (aEvt 0x1000)) 23 0 * cycUs ≤ (old s).time.clk := by decide +kernel

/-! ### Needle cores (O37 to O43) -/

/-- Core 0 runs at the start of its instruction memory, which holds these words; the Hem controller of its memories lets it in, `A1` points
into its work memory and `A2` into its instruction memory (Table 1-2, R360, R407). -/
def core (ws : List Nat) (k : Core := {}) : State :=
  { regs := { file := [(aHem 4 0x100, 0x200000), (aHem 4 0x104, 0x2FFFFF), (aHem 4 0x108, 0xC0000070)] }
    needle := { cores := [(0, { k with
      mode := .running, pc := 0x30000000, instr := memWrite [] 0 (ws.flatMap (leBytes 4))
      a := [0, 0x30080000, 0x30000100, 0, 0, 0, 0, 0, 0, 0, 0, 0, 0, 0, 0, 0x30080800] })] } }

/-- The hypotheses `Executes` and `Operates`, as one test. -/
def ready (s : State) (g : GOp) : Bool :=
  match coreFetch s 0 with
  | .instr i =>
    let os := (eaOperands (coreGet s 0) (coreGet s 0).pc i ((rolesOf i.op).zip i.specs)).1
    coreRuns s 0 && !intReady s 0 && decide (i.op = g) && guardHolds (coreGet s 0).preds i && i.legal &&
      decide (slotBad i = true → (coreGet s 0).slots = 0) && !os.any (fun o => o.ea == .modulo) && (opndsFail s 0 os).isNone
  | _ => false

theorem ready_executes (s : State) (g : GOp) (h : ready s g = true) : ∃ i os vs v, Executes s 0 g i ∧ Operates s 0 i os vs v := by
  unfold ready at h
  split at h
  · next i hf =>
    simp only [Bool.and_eq_true, Bool.not_eq_true', decide_eq_true_eq, Option.isNone_iff_eq_none] at h
    obtain ⟨⟨⟨⟨⟨⟨⟨h1, h2⟩, h3⟩, h4⟩, h5⟩, h6⟩, h7⟩, h8⟩ := h
    exact ⟨i, _, _, _, ⟨⟨h1, h2, hf, h3⟩, h4, h5, h6⟩, rfl, h7, h8, rfl⟩
  · exact absurd h (by decide)

/-- Words of an instruction whose result stands at `(A1)` and whose sources are the immediate 1 (Tables 13-5, 13-6 and 13-9). -/
def word (group op : Nat) (size low : Nat := 0) : Nat := 2 ^ 24 * group + 2 ^ 18 * op + 2 ^ 16 * size + low

/-- Operations of groups 2, 3 and 5 that have two sources, with what writes its result first. -/
theorem test_three_fields_execute : ∀ e ∈ [(GOp.add, 2, 0, 0), (.sub, 2, 1, 0), (.adds, 2, 2, 0), (.subs, 2, 3, 0), (.mul, 2, 6, 0),
      (.mulhs, 2, 7, 0), (.mulhu, 2, 8, 0), (.mac, 2, 9, 0), (.min, 2, 10, 0), (.max, 2, 11, 0), (.minu, 2, 12, 0), (.maxu, 2, 13, 0),
      (.and, 3, 0, 0), (.or, 3, 1, 0), (.xor, 3, 2, 0), (.shl, 3, 4, 0), (.shr, 3, 5, 0), (.sar, 3, 6, 0), (.rol, 3, 7, 0),
      (.mulq, 5, 0, 1), (.macq, 5, 1, 1), (.badds, 7, 2, 0), (.bmulq, 7, 3, 1), (.bmacq, 7, 4, 1), (.bdot, 7, 5, 0)],
    ready (core [word e.2.1 e.2.2.1 e.2.2.2 0x1100, 0x80188018]) e.1 = true := by decide +kernel

theorem test_two_fields_execute : ∀ e ∈ [(GOp.mov, 1, 0, 0), (.movsx, 1, 1, 0), (.movzx, 1, 2, 0), (.neg, 2, 4, 0), (.abs, 2, 5, 0),
      (.not, 3, 3, 0), (.brev, 3, 8, 0), (.clz, 3, 9, 0), (.popc, 3, 10, 0), (.satq, 5, 2, 0), (.bmov, 7, 0, 0), (.bfill, 7, 1, 0),
      (.bpeak, 7, 6, 0)],
    ready (core [word e.2.1 e.2.2.1 e.2.2.2 0x1100, 0x80180000]) e.1 = true := by decide +kernel

theorem test_compares_execute : ∀ e ∈ [(GOp.cmpeq, 0), (.cmpne, 1), (.cmplt, 2), (.cmple, 3), (.cmpltu, 4), (.cmpleu, 5), (.tstz, 6), (.tstnz, 7)],
    ready (core [word 4 e.2 0 0x8018, 0x80180001]) e.1 = true := by decide +kernel

theorem test_other_operations_execute : ∀ e ∈ [(GOp.pand, [word 4 16 0 0x123]), (.por, [word 4 17 0 0x123]), (.pxor, [word 4 18 0 0x123]),
      (.pnot, [word 4 19 0 0x120]), (.pset, [word 4 20 0 0x101]), (.lea, [word 1 3 0 0x1100, 0x12000000]), (.ldr, [word 6 0 0 3, 0x80180000]),
      (.str, [word 6 1 0 3, 0x11000000]), (.addr, [word 6 2 0 3, 0x80180000]), (.evtake, [word 6 3 1 0x8018, 0x11000000]),
      (.prsIssue, [word 8 0 0 0x1100]), (.prsWait, [word 8 1 0 0x1100]), (.prsPoll, [word 8 2 0 0x1100]), (.mglIssue, [word 8 4 0 0x1100]),
      (.mglCollect, [word 8 5 0 0x1100]), (.mglPoll, [word 8 6 0 0x1100]), (.nop, [word 0 0]), (.br, [word 0 1 0 0x1200]),
      (.call, [word 0 2 0 0x1200]), (.ret, [word 0 3]), (.rfi, [word 0 4]), (.halt, [word 0 5]), (.wait, [word 0 6]),
      (.trap, [word 0 7 0 0x8018]), (.fence, [word 0 8]), (.signal, [word 0 9])],
    ready (core e.2) e.1 = true := by decide +kernel

/-- Targets in and outside instruction memory, and the stack's slots of `CALL` and `RET`. -/
theorem test_branch_targets : targetOk (core []) 0 0x30000100 = true ∧ targetOk (core []) 0 0x30080000 = false ∧
    (accCheck (core []) 0 ((rA (coreGet (core []) 0) 15 + (2 ^ 40 - 8)) % 2 ^ 40) 8 .write).1 = none ∧
    corePlace (core []) 0 0x300807F8 8 .write = .work 0x7F8 ∧ (afterInstrs (coreGet (core []) 0) 0x30000004 2).isSome = true ∧
    (accCheck (core []) 0 0x30080800 8 .read).1 = none ∧ corePlace (core []) 0 0x30080800 8 .read = .work 0x800 ∧
    targetOk (core []) 0 (leNat (memRead (memWrite [] 0x800 (leBytes 8 0x30000040)) 0x800 8)) = true ∧
    targetOk (core []) 0 (leNat (memRead [] 0x800 8)) = false := by decide +kernel

/-- A core's memory is its own: the operand at `(A1)` lies in its work memory. -/
theorem test_own_memory : corePlace (core []) 0 0x30080000 1 .read = .work 0 ∧ corePlace (core []) 0 0x30000100 1 .read = .instr 0x100 := by
  decide +kernel

/-- Guards, reserved words, a delay slot that holds a branch, a fetch that no region allows, and another operation in the place. -/
theorem test_guards :
    guardHolds 1 { sense := false, pred := 1, op := .nop, size := 1, specs := [], word0 := 0, len := 4, legal := true } = false ∧
    coreFetch (core [word 15 0]) 0 = .reserved ∧
    (∃ i, coreFetch (core [word 0 0 0 1]) 0 = .instr i ∧ i.legal = false) ∧
    (∃ i, coreFetch (core [word 0 3] { slots := 1 }) 0 = .instr i ∧ slotBad i = true ∧ i.op ≠ .nop) := by
  refine ⟨by decide +kernel, by rfl, ⟨_, rfl, by decide +kernel⟩, ⟨_, rfl, by decide +kernel, by decide +kernel⟩⟩

theorem test_failed_fetch : (match coreFetch { core [] with regs := {} } 0 with
    | .fail _ c => c == 4
    | _ => false) = true := by decide +kernel

/-- Operands that raise: a modulo operand without a ring, and a misaligned word. -/
theorem test_operands_raise : (∀ w ∈ [0x6100, 0x7100], (effAddr (coreGet (core []) 0) 0 1 (specOf w)).1 = .modulo) ∧
    (accCheck (core []) 0 0x30080001 2 .read).1 = some 3 ∧ (accCheck (core []) 0 0x30080000 1 .fetch).1 = some 4 := by decide +kernel

/-- A core with an enabled source pending takes it; one in its handler does not raise again but stops; the timer's compare is due. -/
theorem test_interrupts : let k : Core := { flags := 0x10000, ivec := 0x30000040, imask := 0x80000, pend := 0x280000 }
    coreRuns (core [] k) 0 = true ∧ intReady (core [] k) 0 = true ∧ bitN (corePending (coreGet (core [] k) 0)) 19 = true ∧
    (∀ j < 19, bitN (corePending (coreGet (core [] k) 0)) j = false) ∧ (coreGet (core [] k) 0).flags.getLsbD 17 = false ∧
    (coreGet (core [] k) 0).mode = .running ∧ bitN (coreGet (core [] k) 0).pend 21 = true ∧
    (coreGet (core [] k) 0).tcmp.toNat ≤ coreCycles (core [] k) (coreGet (core [] k) 0) ∧ coreRuns {} 0 = false := by decide +kernel

/-- What `RFI` restores: one of two slots, two of them, and none. -/
theorem test_saved_slots : fieldOf 0x100 9 8 = 1 ∧ fieldOf 0x200 9 8 = 2 ∧ fieldOf 0 9 8 = 0 ∧ crReadOnly 9 = true ∧ crReadOnly 7 = false := by
  decide +kernel

/-- A hash job of 64 B and a modular addition of 192 bits, from and to the work memory (Tables 13-14 and 13-15). -/
def pressDesc : List Byte :=
  [0x20, 0xFF] ++ zeros 6 ++ leBytes 4 0x30080100 ++ leBytes 4 64 ++ zeros 4 ++ leBytes 4 0x30080200 ++ zeros 8
def mangleDesc : List Byte :=
  [3] ++ zeros 7 ++ leBytes 2 192 ++ zeros 6 ++ leBytes 4 0x30080100 ++ leBytes 4 72 ++ leBytes 4 0x30080200 ++ zeros 4

theorem test_ports : let s := core [] { work := memWrite [] 0 pressDesc }
    regionOk s 0 0x30080000 32 false = true ∧ regionOk s 0 0x300BFFF0 32 false = false ∧
    memRead (coreGet s 0).work ((workOff 0 0x30080000).getD 0) 32 = pressDesc ∧
    jobRegion s 0 (leAt pressDesc 8 4) (leAt pressDesc 12 4) (bitN (byteAt pressDesc 5) 0) = true ∧
    jobRegion s 0 (leAt pressDesc 20 4) (descOut pressDesc) (bitN (byteAt pressDesc 5) 1) = true ∧ pressPortCheck s 0 pressDesc = 0 ∧
    pipeFor s = some 0 ∧ jobRegion s 0 (leAt mangleDesc 16 4) (leAt mangleDesc 20 4) false = true ∧
    jobRegion s 0 (leAt mangleDesc 24 4) (mangleOut s 0 mangleDesc) false = true ∧ manglePortCheck s 0 mangleDesc = 0 ∧
    portTimes s 0 mangleDesc = [0] ∧ mangleRoom s 1 = true ∧ pressHandles s 0 pressDesc = [] ∧ mangleHandles s 0 mangleDesc = [] ∧
    (portTake s []).isSome = true ∧ (portTake { keys := { objs := [(0x500, { obj with attrs := 2 ^ kCounted + 2 ^ kPersist, leaseSize := 1 })] } } [hd]).isSome = false ∧ (coreGet s 0).mangle = [] ∧ (coreGet s 0).press = [] ∧ manglePortCheck s 0 (zeros 32) ≠ 0 ∧ pressPortCheck s 0 (zeros 32) ≠ 0 := by
  decide +kernel

/-! ### Programs, firmware, life cycle and debug (O44 to O46) -/

/-- A program of the store whose first chip holds its image. -/
def prog : Program := { owner := 0, digest := Config.sha384 (zeros 4), img0 := zeros 4, img1 := [] }

theorem test_program_commands : takes (run (cmd 0x0E01 [(32, 64)])) 0x0E01 64 ∧
    (∀ op ∈ [0x0E02, 0x0E03, 0x0E04], Started (run (cmd op)) 0 op (cmd op)) ∧ par (cmd 0x0E02 [(55, 1)]) 55 1 = 1 ∧
    par (cmd 0x0E02) 55 1 ≠ 1 ∧ mangleHas (run (cmd 0x0E01)) 0 = false ∧
    mangleHas { run (cmd 0x0E01) with mangle := { waiting := [{ op := mop }] } } 0 = true ∧ progCore (run (cmd 0x0E02)) (cmd 0x0E02) = some 0 ∧ par (cmd 0x0E03) 53 1 = 0 ∧
    (coreGet (run (cmd 0x0E03)) 0).stop = none ∧ collecting (core []) 0 = false ∧ (coreGet (core []) 0).mode = .running := by
  simp only [takes, Started, Reads, Delivers]; decide +kernel

theorem test_program_copy : progCopy { needle := { progs := [(0, prog)] } } prog = some (zeros 4) := by
  simp [progCopy, prog, chipMode, chipUp]

/-- An image without its header is none (Table 13-16). -/
theorem test_program_refused : imgOk (zeros 64) 0 = false := by decide +kernel

theorem test_stop_waits : let k : Core := { stop := some { cmd := 0, until_ := 5, release := false } }
    (coreGet (old (core [] k)) 0).stop = some { cmd := 0, until_ := 5, release := false } ∧ (5 : Nat) ≤ (old (core [] k)).time.clk ∧
    collecting (core [] k) 0 = false := by decide +kernel

/-- A command that has read its input, and the flash that takes it. -/
def staged (op : Nat) : Cmd := { cmd op with work := { step := 1, bytes := zeros 4 } }

theorem test_flash_writes : (∀ op ∈ [0x0E01, 0x0C01], Writing (run (staged op)) 0 op (staged op)) ∧
    flashTakes (run (staged 0x0E01)) true true = true ∧ flashTakes (run (staged 0x0E01)) false false = false ∧
    tblFree (run (staged 0x0E01)).needle.progs 0 64 = some 0 := by simp only [Writing, Started]; decide +kernel

/-- A boot control record with a running slot and a trial. -/
def ctl (t : Bool := false) (n : Nat := 0) : BootCtl := { slot := 1, trial := t, count := n }
def booted (st : StartStep) (b : BootCtl := ctl) : State :=
  { boot := { step := st, ctl := some b, flashMib := 64 }, keys := { roots := [(1, zeros 32)] } }

theorem test_firmware_commands : takes (run (cmd 0x0C01 [(32, 64)])) 0x0C01 64 ∧ fpForm (zeros 64) = false ∧
    (∀ op ∈ [0x0C02, 0x0C04, 0x0C05], Started (run (cmd op) (booted .done)) 0 op (cmd op)) ∧
    fwRunning (booted .done) = 1 ∧ packageVerifies (booted .done) 0 = false ∧ fwOther (booted .done) = 0 := by
  simp only [takes, Started, Reads, Delivers]; decide +kernel

theorem test_tally_page : let s : State := { tallied 4 (slot 4 true false) with tally := { (tallied 4 (slot 4 true false)).tally with
      flush := some { todo := [1] } } }
    (pageFill s [1] 4096 []).2 = [] ∧ (pageFill s [1] 4096 []).1.length = 1 ∧ s.boot.chip0 = .good ∧ s.tally.skip0 = false ∧
    s.tally.flash0.length < areaPages s.boot.flashMib := by decide +kernel

theorem test_chip_probe : let s := old { boot := { chip0 := .faulty } }
    s.boot.chip1 = .good ∧ s.boot.probeAt + 60 * cycS ≤ s.time.clk ∧ jrnArea s ≤ 4 * jrnFree s := by decide +kernel

/-- A journal area that is nearly full, on two chips. -/
theorem test_compaction_due : let r : JRec := { owner := 0, seq := 1, key := [], kind := .pad (2 ^ 24), sum := 0, trailer := [] }
    let s : State := { boot := { flashMib := 64 }, thm := { mode := .ready }, keys := { jrn0 := [r], jrn1 := [r] } }
    4 * jrnFree s < jrnArea s ∧ thmUp s = true ∧ s.boot.chip0 = .good ∧ s.boot.chip1 = .good := by decide +kernel

/-- A transition that every check admits, up to the quorum's entry; one whose target is not permitted; and one in its erasure. -/
theorem test_transition : let s : State := wakeUp { tortin := { ready := true, server := 3 } } 0
    lcPermits (lcState s) 2 = true ∧ lcFree s 2 = some 1 ∧ lcCheck s 3 0 = 0x0D01 ∧ lcCheck {} 2 0 = 0x0D05 ∧ lcCheck s 2 0 = 0x0301 ∧
    thmRoom s = true ∧ resetHeld s = false ∧
    (let x : State := { lc := { fuses := [0x3A, 0x0B], trans := some { target := 2, slot := 1 } } }
     bitN (lcSlot x 1) 3 = true ∧ (1 : Nat) < x.lc.fuses.length ∧ x.lc.trans.isSome = true) := by decide +kernel

def cert : DebugCert := { rights := 0x3FF, serial := 1, notBefore := 0, notAfter := 5, bootLimit := 0, states := 0xFF, ident := 0, digest := [] }

theorem test_debug_rights : let s : State := reg aTimeSrcStat 0 { lc := { cert := some cert, certOn := true } }
    bitOf (regGet s aTimeSrcStat) 7 = false ∧ bitN (debugRights s) 0 = true ∧ bitN (debugRights s) 2 = true ∧ bitN (debugRights s) 7 = true ∧
    bitN (debugRights s) 9 = true ∧ bitN (debugRights {}) 9 = false ∧ bitN (debugRights {}) (jtagRight .cpHalt) = false ∧
    (nowCt { s with time := { acc := 1 <<< 80 } }).toNat > cert.notAfter.toNat ∧ (nowCt { s with regs := { file := [(aTimeSrcStat, 0)] } }).toNat ≤ 5 := by
  decide +kernel

/-! ### Scorch and supply (O47, O48) -/

theorem test_sources : (∀ n ∈ [1, 2, 0x10, 0x11, 0x12, 0x18, 0x20, 0x28, 0x30], mayFire {} n ∧ ¬ mayFire { scorch := { present := 2 ^ n } } n) ∧
    bitN ({ scorch := { present := 2 } } : State).scorch.present 1 = true ∧ (1001#16).toInt = 1001 ∧ (0xFE47#16).toInt = -441 := by
  simp only [mayFire]; decide +kernel

theorem test_unlock : takes (run (cmd 0x0D05 [(32, 96)])) 0x0D05 96 ∧ Started (run (cmd 0x0D07)) 0 0x0D07 (cmd 0x0D07) ∧
    (regGet {} aScrEvtCnt).toNat = (cmd 0x0D05).work.nums.headD (regGet {} aScrEvtCnt).toNat ∧
    (regGet (reg aScrEvtCnt 5) aScrEvtCnt).toNat ≠ ({ cmd 0x0D05 with work := { nums := [4] } } : Cmd).work.nums.headD 5 ∧
    inGroup (grouped .primary) = true ∧ par (cmd 0x0D07 [(53, 1)]) 53 1 ≠ 0xFF := by
  simp only [takes, Started, Reads, Delivers]; decide +kernel

theorem test_supply : vcoreWarn {} = 715 ∧ vcoreRst {} = 690 ∧ (841#16).toInt = 841 ∧ (0#16).toInt ≤ 800 ∧
    ({ scorch := { locked := true, prov := [{ rail := 0, at_ := 0 }] } } : State).scorch.others = false ∧
    ({ scorch := { logSeq := 1 } } : State).scorch.mirrored ≠ 1 ∧ ({ scorch := { others := true } } : State).scorch.others = true ∧
    ¬ ((0 : Nat) = 0 ∧ 1000 < vcoreRst {}) ∧ ({} : State).scorch.pfw = false ∧ ({} : State).scorch.tempWarn = false := by decide +kernel

/-! ### Resets and starts (O49 to O51) -/

theorem test_reset_states : let s := old { tortin := { server := 3 }, dev := { resetLow := some 0 } }
    s.pwr.vault = false ∧ resetHeld s = true ∧ resetHeld {} = false ∧ (0 : Nat) + 8 * cycS ≤ s.time.clk ∧
    s.dev.resetHigh + 100 * cycMs ≤ s.time.clk ∧ s.tortin.server = 3 ∧ cpHalted s = false ∧ s.seam.forming = none ∧ s.thm.answers = [] ∧
    cmdAt (run (cmd 0x0103)) 0 = some (cmd 0x0103) ∧ ({ dev := { dogAt := some 0 } } : State).time.clk < 0 + 10 * cycS := by decide +kernel

theorem test_start_steps : let s := booted .fuses
    s.boot.ctl = some ctl ∧ ctl.confirm = false ∧ s.scorch.fresh = false ∧ lcResume s = none ∧ ctl.slot < 2 ∧ s.boot.mend = false ∧
    s.boot.early < 3 ∧ (ctl true 2).count < 3 ∧ 3 ≤ (ctl true 3).count ∧ lcResume { lc := { fuses := [0x0A] } } ≠ none := by decide +kernel

theorem test_start_checks : (booted (.check 1 0)).boot.step = .check 1 0 ∧ chipUp (booted .done).boot.chip1 = true ∧
    fpCheck (booted (.check 1 0)) (fwCopy (booted (.check 1 0)) 1 0) [] [] ≠ stOk ∧ trialOn (booted .done) = false ∧
    trialOn (booted .done (ctl true 1)) = true ∧ (rootNow (booted (.open_ 1))).isSome = true ∧ lcState (booted (.open_ 1)) ≠ 4 ∧
    jrnTampered (booted (.open_ 1)) = false ∧
    osksWait (booted (.tortin 1)) = true ∧ storeOpen { booted (.tortin 1) with boot := { ksCause := 0, step := .tortin 1 } } = true ∧
    storeOpen (booted (.tortin 1)) = false ∧ bobbinServes (booted (.tortin 1)) = false ∧
    osksWait { keys := { osks := [(0xFFFF, [1])] } } = false ∧ (booted (.open_ 1)).scorch.vaultBad = false ∧ firstStart (booted (.tortin 1)) = false ∧
    (let g : GenEntry := { gen := 1, bm0 := [], bm1 := [], mode := .running }
     ({ ctl with gens := [g] } : BootCtl).gens.find? (fun g => g.bm0 == [] && g.bm1 == [] && (g.mode == .running || g.mode == .trial)) =
      some g) := by decide +kernel

theorem test_functions : ({ dev := { bifur := true } } : State).dev.bifur = true ∧ ({} : State).dev.width.length = 2 ∧
    (fnGet ({ fn0 := { linkUp := false } } : State) 0).linkUp = false ∧ (fnGet ({ fn0 := live } : State) 0).linkUp = true := by decide +kernel

/-! ### Rings, the tracker, the mailbox and the registers (O52 to O57) -/

/-- Slice 1 with ring 0 enabled and two entries announced. -/
def ringed (r : SqRing := { cfg := 0x80000004, tail := 2 }) (q : CqRing := { cfg := 0x82010004 }) : State :=
  { fn0 := live, tortin := { ready := true, server := 3 }
    slices := [(1, { mode := .active, vecCount := 4, alarmOk := true, sq := [(0, r)], cq := [(0, q)] })] }

theorem test_fetch : ringsServed (ringed) = true ∧ fetchTurn (ringed) = some (1, 0) ∧ fnLive (ringed) (sliceGet (ringed) 1).port = true ∧
    contEntries (bytesAt (body 0x0103) 0 64) = 0 ∧ 1 + 0 ≤ sqPending (sqGet (sliceGet (ringed) 1) 0) ∧
    placeKind (ringed) 1 (bitOf (0x80000004#32) 30) = some false ∧ tblFree (ringed).tortin.tracker 0 16384 = some 0 ∧
    retryFails (ringed) (.sqFetch 1 0) + 1 ≤ (sliceGet (ringed) 1).retry ∧ readOut (ringed) (.sqFetch 1 0) = true ∧
    readOut {} (.sqFetch 1 0) = false := by decide +kernel

theorem test_start_of_command : let c : Cmd := { cmd 0x0103 with stage := .waiting, passed := true }
    cmdAt (run c) 0 = some c ∧ tortinRuns (run c) = true ∧ c.mirror = false ∧ (specAll (run c) c).any (startReady (run c) c) = true ∧
    alarmAhead (run c) 0 c = false ∧ cDeadline c = 0 ∧ (specAll (run c) c).all (fun x => x.place.isNone && x.late == stOk && x.binds.isEmpty) = true ∧
    (run c).scorch.locked = false ∧
    ({ c with stage := .preread } : Cmd).stage = .preread := by decide +kernel

theorem test_completion : let c : Cmd := { ringCmd 0x0103 with stage := .ended }
    let s := run c (ringed)
    cmdAt s 0 = some c ∧ tortinRuns s = true ∧ c.stage = .ended ∧ isPrimary s = false ∧ cmdCq s c = 0 ∧ retryOf s (.cqWrite 1 0) = none ∧
    cqRoom s 1 0 = true ∧ (sliceGet s 1).mode = .active ∧ s.tortin.resetTag ≠ some 0 ∧ s.pwr.standby ≠ some 0 ∧
    1 ≤ (sliceGet s 1).retry ∧ cqRoom (ringed {} { cfg := 0x80000004, tail := 15 }) 1 0 = false := by decide +kernel

theorem test_access_retry : let s := old { ringed with tortin := { ringed.tortin with retries := [{ what := .sqFetch 1 0, fails := 0, at_ := 0 }] } }
    (retryOf s (.sqFetch 1 0)).map (·.at_) = some 0 ∧ 0 + cycUs ≤ s.time.clk ∧ (placeKind s 1 (alarmRing s 1 0)).isSome = true ∧
    retryDue s (.sqFetch 1 0) = true ∧ retryDue s (.sqFetch 1 1) = false ∧ (sliceGet s 1).port < 2 := by decide +kernel

/-- Doorbells forward, backward and past the ring's end, and the page that takes them. -/
theorem test_doorbells : PageTakes (ringed) 1 0 none ∧ (let r := sqGet (sliceGet (ringed) 1) 0
    ringSize r.cfg = 16 ∧ (r.tail + 16 - r.head) % 16 ≤ (2 + 16 - r.head) % 16 ∧ ¬ (r.tail + 16 - r.head) % 16 ≤ (1 + 16 - r.head) % 16 ∧
    (15 : Nat) < 16) := by simp only [PageTakes]; decide +kernel

theorem test_configurations : 4 ≤ fieldOf (0x80000004#32) 3 0 ∧ fieldOf (0x8000000C#32) 3 0 ≤ 12 ∧ fieldOf (0x80000003#32) 3 0 < 4 ∧
    12 < fieldOf (0x8000000D#32) 3 0 ∧ ringOn 4 = false ∧ ringHalted 0x20000004 = true ∧ fieldOf (0x80030004#32) 20 16 < 4 ∧
    4 ≤ fieldOf (0x80040004#32) 20 16 ∧ cpHalted (ringed) = false ∧ (ringed).tortin.server ≠ 0 ∧
    portThere (ringed) 0 = true ∧ portThere (ringed) 1 = false ∧ ({} : State).tortin.server = 0 ∧ (ringed).pwr.vault = false ∧
    ringOn 0x80000004 = true ∧ ringHalted 0x80000004 = false ∧ (sliceGet (ringed) 1).vecCount = 4 ∧ bitOf (1#32) 0 = true ∧
    (let q : CqRing := { cfg := 0x82010004, since := 1 }
     (cqGet (sliceGet (ringed {} q) 1) 0).since ≠ 0 ∧ fieldOf q.cfg 25 24 = 2 ∧ q.firstAt + fieldOf q.coal 31 16 * cycUs ≤ (old (ringed {} q)).time.clk) ∧
    msixEntries {} = 2048 := by decide +kernel

/-- A guarded register of the device block, a pair pending on it and one that is late. -/
theorem test_pairs : let q : Pair := { req := 0, addr := 0x80000040, value := 5, at_ := 0 }
    let s : State := { regs := { pairs := [(0x80000000, some q)] } }
    (match resolve (.fn 0) 0x80000040 with
     | .reg b a d => b == .dev && a == 0x80000040 && d.acc == .cpw && mayWrite (.fn 0) b d && blkReach (.fn 0) b
     | _ => false) = true ∧
    (match resolve (.fn 0) 0x80008040 with
     | .guard b a _ => b == .dev && a == 0x80000040
     | _ => false) = true ∧
    (hostArrives s (.fn 0) 0x80000040 true).isSome = true ∧
    (hostArrives s (.fn 0) 0x80000040 true).all (fun s0 => s0.lc.trans.isNone && pairOf s0 .dev == some q) = true ∧
    (hostArrives {} (.fn 0) 0x80000040 true).all (fun s0 => (pairOf s0 .dev).isNone) = true ∧ pairOf s .dev = some q ∧ s.time.clk - q.at_ ≤ pairCycles ∧ lcState s ≠ 0 ∧
    blkOf 0x80000040 = some .dev ∧ q.req < 4 ∧ pairCycles < (old s).time.clk - q.at_ := by decide +kernel

/-- A sequence clear that the host may write, and a plain register. -/
theorem test_registers : (match resolve (.fn 0) 0x80000020 with
     | .reg b a d => b == .dev && a == 0x80000020 && d.acc == .clr && mayWrite (.fn 0) b d
     | _ => false) = true ∧
    (match resolve (.fn 0) 0x80020000 with
     | .reg b a d => b == .mbx && a != aMbxCtrl && d.acc == .rw && mayWrite (.fn 0) b d && blkReach (.fn 0) b
     | _ => false) = true ∧
    fieldOf (0x00000001#32) 31 24 = fieldOf (regGet {} 0x8000001C) 31 24 ∧ fieldOf (0x01000001#32) 31 24 ≠ fieldOf (regGet {} 0x8000001C) 31 24 ∧
    (pairValue {} .time 0).isSome = true ∧ blkReach (.fn 0) .time = true ∧ (hostArrives {} (.fn 0) 0 true).isSome = true ∧
    (hostArrives {} (.fn 0) (aWide true true) true).isSome = true ∧ bitOf (1#32) 0 = true := by decide +kernel

/-- A CP access that its Hem controller admits after reset, one that it denies with its region off, and a core's, which it does not check here. -/
theorem test_cp_accesses : (cpCheck {} .cp aRngData .read).1 = true ∧
    (cpCheck { regs := { file := [(aHem 3 0x108, 0)] } } .cp aRngData .read).1 = false ∧
    (cpCheck {} (.core 0) aRngData .read).1 = true := by decide +kernel

/-! ### Encodings (O58 to O60) -/

/-- The third `BMACQ` of chapter 13, from its words: its own three words again, and well-formed. -/
theorem test_gulos_words : (gDecode ([0x07112500, 0x63305600, 0x00000004].flatMap (leBytes 4))).map (fun i => (gWf i, gWords i)) =
    some (true, [0x07112500, 0x63305600, 0x00000004]) := by decide +kernel

/-! ### States at the edges: full units, full lists, first starts -/

/-- A hybrid that finds every unit full takes a place in Mangle's queue instead. -/
theorem test_hybrid_waits : let c : Cmd := { cmd 0x0C02 with stage := .waiting, passed := true }
    let s : State := { run c (booted .done) with mangle := { units := (List.range 8).map (fun u => (u, List.replicate 4 mop)) } }
    cmdAt s 0 = some c ∧ isPair s c = true ∧ pairNow s = false ∧ pairNow (run c (booted .done)) = true ∧
    startReady { s with mangle := {} } { c with queued := true } { } = false := by decide +kernel

/-- The first part of a request that initialises owner 0 asks for the rest. -/
theorem test_first_request : let c : Cmd := { cmd 0x0307 [(32, 64)] with stage := .preread, copy := some (body 0x0301) }
    initRequest (run c) c = true ∧ c.copy.isSome = true ∧ c.stage = .preread := by decide +kernel

/-- A start finds the device's store key, or makes none where no chip takes its record. -/
theorem test_store_key : (tblFind 0xFFFF (oskMake { keys := { osks := [(0xFFFF, [1])] } } 0xFFFF).keys.osks).isSome = true ∧
    tblFind 0xFFFF (oskMake { boot := { chip0 := .faulty, chip1 := .faulty } } 0xFFFF).keys.osks = none := by
  constructor <;> rfl

/-- The steps of `CARD.ENROL` after its signatures: room for its key, or Thimble away or locked. -/
theorem test_enrolment_steps : let c : Cmd := { cmd 0x0809 [(32, 0xB8), (33, 6)] with work := { step := 2, nums := [0, 0, 1000] } }
    let s := run c
    PressKeyRoom s ∧ mangleHas s 0 = false ∧ c.work.nums.getD 2 0 ≤ 1000 ∧ 1000 < [0, 0, 1001].getD 2 0 ∧ s.thm.mode = .ready ∧
    s.scorch.locked = false ∧ bobbinFor s 3 = false ∧ bobbinFor { s with rng := { inst := true } } 3 = true ∧ offerFree s c = true ∧
    mangleHas (mangling c) 0 = true ∧ takes (run (cmd 0x0809 [(32, 0xB8), (33, 6)])) 0x0809 1720 ∧
    (cacheEnt { keys := { pressKeys := [{ handle := enrolHandle 0, ktype := 1, flags := 0, material := [] }] } } 1 (enrolHandle 0)).isSome = true := by
  simp only [PressKeyRoom, takes, Started, Reads, Delivers]; decide +kernel

/-- What a primary's switchover, a link's session and a formation find. -/
theorem test_group_conditions : let s := grouped .primary
    s.seam.unsent = [] ∧ budgetFits s (0, entrySize (.role 1 1)) = true ∧ s.scorch.locked = false ∧
    (seamLink (linkedUp .primary) 0).fresh = false ∧ (seamLink (linkedUp .primary) 0).farNew = false ∧ (seamLink (linkedUp .primary) 0).txSeq < 2 ^ 48 ∧
    bobbinFor s 4 = false ∧ bobbinFor { s with rng := { inst := true } } 4 = true ∧ (linkedUp .primary).seam.switch = none ∧
    (seamOthers (grouped .forming)).all (partnerFound (grouped .forming)) = false ∧
    (seamOthers (linkedUp .forming)).all (partnerFound (linkedUp .forming)) = true ∧
    (seamOthers (linkedUp .forming .hello)).all (fun m => (seamLinkTo (linkedUp .forming .hello) m).isSome) = false ∧
    (linkedUp .follower).seam.snapGot = 0 ∧ (linkedUp .follower).seam.forming = none := by decide +kernel

/-- A rail that is low, with the power-fail input active; steps of AIRING that no standby disturbs; a core that nothing asks to stop. -/
theorem test_power_edges : ({ scorch := { railLow := true, pfw := true } } : State).scorch.railLow = true ∧
    vcoreWarn {} + 10 ≤ 725 ∧ ({ pwr := { entering := 2 } } : State).pwr.standby = none ∧
    (let s : State := { reg aPwrState 2 with pwr := { leaving := some 0 } }
     pwrMode s = 2 ∧ s.pwr.held = [] ∧ s.time.clk + 1 < 0 + wakeDone ∧ 0 + wakeDone ≤ (old s).time.clk + 1) ∧
    bitN (coreGet (core []) 0).pend 22 = false ∧ ptpMaster {} 0 = false ∧
    ptpMaster { regs := { file := [(aLnk 0 4, 0x800000), (aTimeSrcStat, 0)] }, tortin := { ready := true }
                links := { ports := [(0, { mode := .up })] } } 0 = true := by decide +kernel

end Sys2Proof.Tests
end

section
/-! What the machine holds right after power-on reset (R6): the register file lists nothing, so every register reads the Reset
value of its field map. -/

namespace Sys2Proof.Machine

/-- R6: right after power-on reset a register reads its reset value, for the register file lists no other. -/
@[simp] theorem regGet_reset (a : Nat) : regGet State.reset a = regReset a := rfl

/-- The reset value of a register is the one in its row of its block's register table. -/
theorem regReset_of_regDesc {a : Nat} {b : Blk} {d : RegDesc} (hb : blkOf a = some b)
    (hd : regDesc b (a - blkBase b) = some d) : regReset a = d.reset := by
  simp only [regReset, hb, hd]

/-! ### Reset values of registers of `TIME` (Table 2-9) and `PWR` (Table 2-10) -/

theorem regReset_timeIncInt : regReset aTimeIncInt = 0x11 :=
  regReset_of_regDesc (b := .time) (d := rRw 0x014 0x11 0xFF) (by decide) (by decide)

theorem regReset_timeIncFrac : regReset aTimeIncFrac = 0x2E0BE827 :=
  regReset_of_regDesc (b := .time) (d := rCpw 0x010 0x2E0BE827 0xFFFFFFFF) (by decide) (by decide)

/-- `TIME_UNSET`, bit 7, is the only bit of the register that is set (R39). -/
theorem regReset_timeSrcStat : regReset aTimeSrcStat = 0x80 :=
  regReset_of_regDesc (b := .time) (d := rRo 0x064 0x80) (by decide) (by decide)

/-- The power state reads ACTIVE, which is 0. -/
theorem regReset_pwrState : regReset aPwrState = 0 :=
  regReset_of_regDesc (b := .pwr) (d := rRo 0x000) (by decide) (by decide)

/-- R23: the integer and the fraction register together reset to the nominal increment. -/
theorem timeInc_reset : timeInc State.reset = nominalInc := by
  simp only [timeInc, regField, regGet_reset, regReset_timeIncInt, regReset_timeIncFrac]
  decide

/-- Settles O3: the registers by their reset values, every other part by the value that its field starts with. -/
theorem resetGivesTheSpecsValues : Obligations.ResetGivesTheSpecsValues := by
  have hsrc : regGet State.reset aTimeSrcStat = 0x80 := (regGet_reset _).trans regReset_timeSrcStat
  have hpwr : regGet State.reset aPwrState = 0 := (regGet_reset _).trans regReset_pwrState
  exact ⟨rfl, rfl, timeInc_reset, hsrc, hpwr, rfl, rfl, rfl, rfl, rfl, rfl, rfl, rfl, rfl⟩

end Sys2Proof.Machine
end

section
set_option Elab.async false

/-! SUPPORT. A part whose bit a mask lacks is the same: one lemma for each part. -/

namespace Sys2Proof.Machine

theorem Only.out_eq {m : Nat} {a b : State} (h : Only m a b) (hm : m.testBit 0 = false := by rfl) : b.out = a.out :=
  h.out.resolve_left (by simp [hm])
theorem Only.draws_eq {m : Nat} {a b : State} (h : Only m a b) (hm : m.testBit 1 = false := by rfl) : b.draws = a.draws :=
  h.draws.resolve_left (by simp [hm])
theorem Only.time_eq {m : Nat} {a b : State} (h : Only m a b) (hm : m.testBit 2 = false := by rfl) : b.time = a.time :=
  h.time.resolve_left (by simp [hm])
theorem Only.pwr_eq {m : Nat} {a b : State} (h : Only m a b) (hm : m.testBit 3 = false := by rfl) : b.pwr = a.pwr :=
  h.pwr.resolve_left (by simp [hm])
theorem Only.regs_eq {m : Nat} {a b : State} (h : Only m a b) (hm : m.testBit 4 = false := by rfl) : b.regs = a.regs :=
  h.regs.resolve_left (by simp [hm])
theorem Only.dev_eq {m : Nat} {a b : State} (h : Only m a b) (hm : m.testBit 5 = false := by rfl) : b.dev = a.dev :=
  h.dev.resolve_left (by simp [hm])
theorem Only.agentSeq_eq {m : Nat} {a b : State} (h : Only m a b) (hm : m.testBit 6 = false := by rfl) : b.agentSeq = a.agentSeq :=
  h.agentSeq.resolve_left (by simp [hm])
theorem Only.fn0_eq {m : Nat} {a b : State} (h : Only m a b) (hm : m.testBit 7 = false := by rfl) : b.fn0 = a.fn0 :=
  h.fn0.resolve_left (by simp [hm])
theorem Only.fn1_eq {m : Nat} {a b : State} (h : Only m a b) (hm : m.testBit 8 = false := by rfl) : b.fn1 = a.fn1 :=
  h.fn1.resolve_left (by simp [hm])
theorem Only.slices_eq {m : Nat} {a b : State} (h : Only m a b) (hm : m.testBit 9 = false := by rfl) : b.slices = a.slices :=
  h.slices.resolve_left (by simp [hm])
theorem Only.tortin_eq {m : Nat} {a b : State} (h : Only m a b) (hm : m.testBit 10 = false := by rfl) : b.tortin = a.tortin :=
  h.tortin.resolve_left (by simp [hm])
theorem Only.tally_eq {m : Nat} {a b : State} (h : Only m a b) (hm : m.testBit 11 = false := by rfl) : b.tally = a.tally :=
  h.tally.resolve_left (by simp [hm])
theorem Only.scorch_eq {m : Nat} {a b : State} (h : Only m a b) (hm : m.testBit 12 = false := by rfl) : b.scorch = a.scorch :=
  h.scorch.resolve_left (by simp [hm])
theorem Only.keys_eq {m : Nat} {a b : State} (h : Only m a b) (hm : m.testBit 13 = false := by rfl) : b.keys = a.keys :=
  h.keys.resolve_left (by simp [hm])
theorem Only.seam_eq {m : Nat} {a b : State} (h : Only m a b) (hm : m.testBit 14 = false := by rfl) : b.seam = a.seam :=
  h.seam.resolve_left (by simp [hm])
theorem Only.hamper_eq {m : Nat} {a b : State} (h : Only m a b) (hm : m.testBit 15 = false := by rfl) : b.hamper = a.hamper :=
  h.hamper.resolve_left (by simp [hm])
theorem Only.needle_eq {m : Nat} {a b : State} (h : Only m a b) (hm : m.testBit 16 = false := by rfl) : b.needle = a.needle :=
  h.needle.resolve_left (by simp [hm])
theorem Only.links_eq {m : Nat} {a b : State} (h : Only m a b) (hm : m.testBit 17 = false := by rfl) : b.links = a.links :=
  h.links.resolve_left (by simp [hm])
theorem Only.press_eq {m : Nat} {a b : State} (h : Only m a b) (hm : m.testBit 18 = false := by rfl) : b.press = a.press :=
  h.press.resolve_left (by simp [hm])
theorem Only.mangle_eq {m : Nat} {a b : State} (h : Only m a b) (hm : m.testBit 19 = false := by rfl) : b.mangle = a.mangle :=
  h.mangle.resolve_left (by simp [hm])
theorem Only.rng_eq {m : Nat} {a b : State} (h : Only m a b) (hm : m.testBit 20 = false := by rfl) : b.rng = a.rng :=
  h.rng.resolve_left (by simp [hm])
theorem Only.dma_eq {m : Nat} {a b : State} (h : Only m a b) (hm : m.testBit 21 = false := by rfl) : b.dma = a.dma :=
  h.dma.resolve_left (by simp [hm])
theorem Only.thm_eq {m : Nat} {a b : State} (h : Only m a b) (hm : m.testBit 22 = false := by rfl) : b.thm = a.thm :=
  h.thm.resolve_left (by simp [hm])
theorem Only.boot_eq {m : Nat} {a b : State} (h : Only m a b) (hm : m.testBit 23 = false := by rfl) : b.boot = a.boot :=
  h.boot.resolve_left (by simp [hm])
theorem Only.lc_eq {m : Nat} {a b : State} (h : Only m a b) (hm : m.testBit 24 = false := by rfl) : b.lc = a.lc :=
  h.lc.resolve_left (by simp [hm])

end Sys2Proof.Machine
end

section
/-! SUPPORT. One Airing cycle on an empty queue (log entries 1 and 2; R23, R228): what the clocks take, and what else may change. -/

namespace Sys2Proof.Machine

/-! ### The clocks -/

theorem rtcCycle_acc (s : State) : (rtcCycle s).time.acc = s.time.acc := by
  unfold rtcCycle; dsimp only; split <;> rfl

theorem rtcCycle_eq (s : State) : rtcCycle s = { s with time := (rtcCycle s).time } := by
  unfold rtcCycle; dsimp only; split <;> rfl

theorem endCorrection_acc (s : State) (o : Int) : (endCorrection s o).time.acc = s.time.acc := by
  unfold endCorrection
  split
  · rfl
  · dsimp only
    rw [tallyPut_only.time_eq]; rfl

theorem corrCycle_acc (s : State) : (corrCycle s).time.acc = s.time.acc := by
  unfold corrCycle
  split
  · rfl
  · split
    · exact endCorrection_acc s _
    · rfl

/-- `s` with its clocks one cycle further: the accumulator takes the increment register, 0 in VAULT. -/
def clockNext (s : State) : State :=
  { s with time := { s.time with
    acc := s.time.acc + (if s.pwr.vault then 0 else BitVec.ofNat 96 (timeInc s)), clk := s.time.clk + 1 } }

/-- Two values of the clocks that stand at the same Airing cycle. -/
theorem Only.ofTime {s : State} {x y : TimeState} (h : y.clk = x.clk) : Only 4 { s with time := x } { s with time := y } :=
  Only.upd (b := { s with time := x }) rfl .refl h

/-- The clocks advance by one cycle, and beside them a correction that ends leaves its record and its registers (R23, R29). -/
theorem timeCycle_only (s : State) : Only 2132 (clockNext s) (timeCycle s) := by
  unfold timeCycle clockNext
  split
  · rw [rtcCycle_eq]
    exact Only.mono (m := 4) rfl (Only.ofTime (s := s) (by rfl))
  · exact secondsMark_keep rfl (rtcCycle_only.step rfl corrCycle_only)

theorem secondsMark_acc (s t : State) : (secondsMark s t).time.acc = t.time.acc := by
  unfold secondsMark
  rfl

theorem timeCycle_acc (s : State) : (timeCycle s).time.acc = (clockNext s).time.acc := by
  unfold timeCycle clockNext
  split
  · rw [rtcCycle_eq]
    exact (rtcCycle_acc s).trans (by simp)
  · dsimp only
    rw [secondsMark_acc, rtcCycle_acc, corrCycle_acc]

/-! ### Buffer memory, Thimble and the steps of a power state -/

/-- A buffer's record is part of the Hamper. -/
theorem bufGet_congr {s t : State} (h : t.hamper = s.hamper) (b : Nat) : bufGet t b = bufGet s b := by
  unfold bufGet; rw [h]

/-- Thimble's beat changes its alive counter alone. -/
theorem thmBeat_eq (s : State) : ∃ n, thmBeat s = { s with thm := { s.thm with alive := n } } := by
  unfold thmBeat
  split
  · exact ⟨_, rfl⟩
  · exact ⟨s.thm.alive, rfl⟩

/-- The SECDED code taints a held buffer, and changes nothing else of the Hamper (R228). -/
theorem eccStep_hamper (s : State) : (eccStep s).hamper = s.hamper ∨ ∃ b, (bufGet s b).held = true ∧
    (eccStep s).hamper = (bufPut s b { bufGet s b with taint := true }).hamper := by
  unfold eccStep
  dsimp only
  split
  · exact .inl rfl
  · split
    · exact .inl eccCount_only.hamper_eq
    · split
      · rename_i h
        exact .inr ⟨_, h.2, tallyPut_only.hamper_eq.trans (sqcSet_only.hamper_eq.trans eccCount_only.hamper_eq)⟩
      · exact .inl rfl

/-- Where no entry into AIRING runs, no wake and no STANDBY, the steps of the power states do nothing. -/
theorem powerSteps_idle {s : State} (he : s.pwr.entering = 0) (hl : s.pwr.leaving = none) (hs : s.pwr.standby = none) :
    standbyStep (exitStep (enterStep s)) = s := by
  have e1 : enterStep s = s := by unfold enterStep; rw [he]; rfl
  have e2 : exitStep s = s := by unfold exitStep; rw [hl]
  have e3 : standbyStep s = s := by unfold standbyStep; rw [hs]
  rw [e1, e2, e3]

/-! ### The cycle -/

/-- What a cycle in which no power state changes does before the whole second's event. -/
def quietCycle (s : State) : State := eccStep (thmBeat (timeCycle s))

theorem quietCycle_only (s : State) : Only 4229204 (clockNext s) (quietCycle s) :=
  eccStep_only.step rfl (thmBeat_only.step rfl ((timeCycle_only s).mono rfl))

theorem quietCycle_acc (s : State) : (quietCycle s).time.acc = (clockNext s).time.acc := by
  have h : Only 4229200 (timeCycle s) (quietCycle s) := eccStep_only.step rfl (thmBeat_only.mono rfl)
  rw [h.time_eq, timeCycle_acc]

theorem quietCycle_thm (s : State) : ∃ n, (quietCycle s).thm = { s.thm with alive := n } := by
  obtain ⟨n, hn⟩ := thmBeat_eq (timeCycle s)
  refine ⟨n, ?_⟩
  rw [quietCycle, eccStep_only.thm_eq, hn]
  dsimp only
  rw [(timeCycle_only s).thm_eq]; rfl

theorem quietCycle_hamper (s : State) : (quietCycle s).hamper = s.hamper ∨
    ∃ b, (bufGet s b).held = true ∧ (quietCycle s).hamper = (bufPut s b { bufGet s b with taint := true }).hamper := by
  have h : (thmBeat (timeCycle s)).hamper = s.hamper := thmBeat_only.hamper_eq.trans (timeCycle_only s).hamper_eq
  have hb := bufGet_congr h
  rcases eccStep_hamper (thmBeat (timeCycle s)) with e | ⟨b, hh, e⟩
  · exact .inl (e.trans h)
  · refine .inr ⟨b, by rwa [hb] at hh, e.trans ?_⟩
    unfold bufPut
    rw [hb, h]

/-- The event of a whole second, at the end of the cycle that begins in `s` (Table 9-12). -/
def secondEvent (s u : State) : State :=
  if (nowStamp u).toNat / 2 ^ 32 = (nowStamp s).toNat / 2 ^ 32 ∨ !fastPowered s then u else evPulse u srcSecond

/-- The end of the cycle that begins in `s`: entries leave, and the idle time may start again. -/
def cycleEnd (s u : State) : State :=
  let v := seamServe u.seam.unsent.length u
  if airingIdle s then v else { v with pwr := { v.pwr with idleLast := v.time.clk } }

theorem airingTick_parts (s : State) :
    airingTick s = cycleEnd s (secondEvent s (standbyStep (exitStep (enterStep (quietCycle s))))) := rfl

theorem secondEvent_only (s u : State) : Only 2162704 u (secondEvent s u) :=
  Only.ite (fun _ => .refl) (fun _ => evPulse_only)

theorem cycleEnd_only (s u : State) : Only 16393 u (cycleEnd s u) := by
  have h : Only 16393 u (seamServe u.seam.unsent.length u) := seamServe_keep rfl .refl
  exact Only.ite (fun _ => h) (fun _ => Only.upd rfl h)

theorem cycleEnd_eq {s u : State} (hu : u.seam.unsent = []) :
    ∃ n, cycleEnd s u = { u with pwr := { u.pwr with idleLast := n } } := by
  have hn : seamServe u.seam.unsent.length u = u := by rw [hu]; rfl
  unfold cycleEnd
  rw [hn]
  dsimp only
  split
  · exact ⟨u.pwr.idleLast, rfl⟩
  · exact ⟨u.time.clk, rfl⟩

/-- A cycle in which no power state changes and no entry leaves. -/
theorem airingTick_quiet {s : State} (he : s.pwr.entering = 0) (hl : s.pwr.leaving = none) (hs : s.pwr.standby = none)
    (hu : s.seam.unsent = []) :
    ∃ n, airingTick s = { secondEvent s (quietCycle s) with pwr := { s.pwr with idleLast := n } } := by
  have hp : (quietCycle s).pwr = s.pwr := (quietCycle_only s).pwr_eq
  have hp' : (secondEvent s (quietCycle s)).pwr = s.pwr := (secondEvent_only s _).pwr_eq.trans hp
  have hq : (secondEvent s (quietCycle s)).seam = s.seam := (secondEvent_only s _).seam_eq.trans (quietCycle_only s).seam_eq
  obtain ⟨n, hn⟩ := cycleEnd_eq (s := s) (u := secondEvent s (quietCycle s)) (by rw [hq, hu])
  rw [airingTick_parts, powerSteps_idle (by rw [hp, he]) (by rw [hp, hl]) (by rw [hp, hs]), hn, hp']
  exact ⟨n, rfl⟩

/-- No cycle puts a command into the queue. -/
theorem airingTick_pending (s : State) : (airingTick s).pending = s.pending := by
  rw [airingTick_parts]
  calc _ = _ := (cycleEnd_only s _).pending
    _ = _ := (secondEvent_only s _).pending
    _ = _ := standbyStep_only.pending
    _ = _ := exitStep_only.pending
    _ = _ := enterStep_only.pending
    _ = s.pending := (quietCycle_only s).pending

/-- Settles O2: the cycle is taken apart into its clocks, the SECDED code of buffer memory, Thimble's beat and the event of a whole second. -/
theorem emptyQueueIsOneAiringCycle : Obligations.EmptyQueueIsOneAiringCycle := by
  intro s hp
  refine ⟨airingTick s, by unfold step; rw [hp], (airingTick_pending s).trans hp, fun he hl hs hu => ?_⟩
  obtain ⟨n, ht⟩ := airingTick_quiet he hl hs hu
  have he2 := secondEvent_only s (quietCycle s)
  have ho : Only 6391892 (clockNext s) (secondEvent s (quietCycle s)) := he2.step rfl ((quietCycle_only s).mono rfl)
  have hham := he2.hamper_eq
  have hthm := he2.thm_eq
  obtain ⟨k, hk⟩ := quietCycle_thm s
  rw [ht]
  refine ⟨ho.clk, ?_, ho.out_eq, ho.draws_eq, ho.dev_eq, ho.fn0_eq, ho.fn1_eq, ho.slices_eq, ho.tortin_eq, ho.scorch_eq, ho.keys_eq,
    ho.seam_eq, ho.links_eq, ?_, ?_, ho.press_eq, ho.mangle_eq, ho.rng_eq, ho.boot_eq, ho.lc_eq, rfl, ?_, ?_, ?_⟩
  · exact (congrArg TimeState.acc he2.time_eq).trans (quietCycle_acc s)
  · rcases quietCycle_hamper s with e | ⟨b, -, e⟩
    · exact ⟨s.hamper.metas, hham.trans e⟩
    · exact ⟨_, hham.trans e⟩
  · intro x
    rcases quietCycle_hamper s with e | ⟨b, hb, e⟩
    · exact .inl (bufGet_congr (hham.trans e) x)
    · have hx := bufGet_congr (t := { secondEvent s (quietCycle s) with pwr := { s.pwr with idleLast := n } }) (hham.trans e) x
      by_cases hxb : x = b
      · subst hxb
        exact .inr ⟨hb, hx.trans bufGet_bufPut_same⟩
      · exact .inl (hx.trans (bufGet_bufPut_other hxb))
  · exact (congrArg ThmState.mode (hthm.trans hk)).trans rfl
  · exact (congrArg ThmState.reqs (hthm.trans hk)).trans rfl
  · exact (congrArg ThmState.answers (hthm.trans hk)).trans rfl

end Sys2Proof.Machine
end

section
set_option Elab.async false

/-! SUPPORT. Bits and fields of a register word, and what a register reads as after a bit, a field or an event of it, or of another
register, was set (R3, R434). -/

namespace Sys2Proof.Machine

/-! ### Words -/

theorem bitOf_maskOf {hi lo i : Nat} (h : lo ≤ hi) (hh : hi < 32) : bitOf (maskOf hi lo) i = decide (lo ≤ i ∧ i ≤ hi) := by
  unfold bitOf maskOf
  rw [BitVec.getLsbD_ofNat, Nat.testBit_mul_two_pow, Nat.testBit_two_pow_sub_one]
  rw [Bool.eq_iff_iff]
  simp only [Bool.and_eq_true, decide_eq_true_eq]
  omega

theorem bitOf_putField {w : Word} {hi lo v i : Nat} (h : lo ≤ hi) (hh : hi < 32) :
    bitOf (putField w hi lo v) i = if lo ≤ i ∧ i ≤ hi then v.testBit (i - lo) else bitOf w i := by
  have hm := bitOf_maskOf (i := i) h hh
  unfold bitOf at hm
  unfold bitOf putField
  rw [BitVec.getLsbD_or, BitVec.getLsbD_and, BitVec.getLsbD_and, BitVec.getLsbD_not, hm, BitVec.getLsbD_ofNat, Nat.testBit_mul_two_pow]
  by_cases hi' : i < 32
  · by_cases hc : lo ≤ i ∧ i ≤ hi
    · simp [hc, hi']
    · simp [hc, hi']
  · have : ¬ (lo ≤ i ∧ i ≤ hi) := by omega
    simp [this, hi', BitVec.getLsbD_of_ge _ _ (Nat.le_of_not_lt hi')]

theorem bitOf_putBit {w : Word} {i j : Nat} {b : Bool} (h : i < 32) : bitOf (putBit w i b) j = if j = i then b else bitOf w j := by
  unfold putBit
  rw [bitOf_putField (Nat.le_refl i) h]
  by_cases hj : j = i
  · subst hj; cases b <;> simp
  · rw [if_neg (by omega), if_neg hj]

theorem bitOf_sqcWord {w : Word} {b i : Nat} (hb : b < 24) (hi : i < 24) : bitOf (sqcWord w b) i = (i == b || bitOf w i) := by
  unfold sqcWord
  rw [bitOf_putField (by omega) (by omega), if_neg (by omega), bitOf_putBit (by omega)]
  by_cases h : i = b <;> simp [h]

theorem testBit_fieldOf {w : Word} {hi lo i : Nat} : (fieldOf w hi lo).testBit i = (decide (i ≤ hi - lo) && bitOf w (i + lo)) := by
  unfold fieldOf bitsN bitOf
  rw [Nat.testBit_mod_two_pow, Nat.testBit_div_two_pow, BitVec.testBit_toNat]
  simp only [Nat.lt_succ_iff]

/-- A field of two words that agree in its bits. -/
theorem fieldOf_congr {w v : Word} {hi lo : Nat} (h : lo ≤ hi) (hb : ∀ i, lo ≤ i → i ≤ hi → bitOf w i = bitOf v i) :
    fieldOf w hi lo = fieldOf v hi lo := by
  refine Nat.eq_of_testBit_eq fun i => ?_
  rw [testBit_fieldOf, testBit_fieldOf]
  by_cases hi' : i ≤ hi - lo
  · rw [hb (i + lo) (by omega) (by omega)]
  · simp [hi']

theorem fieldOf_putField_same {w : Word} {hi lo v : Nat} (h : lo ≤ hi) (hh : hi < 32) :
    fieldOf (putField w hi lo v) hi lo = v % 2 ^ (hi - lo + 1) := by
  refine Nat.eq_of_testBit_eq fun i => ?_
  rw [testBit_fieldOf, bitOf_putField h hh, Nat.testBit_mod_two_pow]
  by_cases hi' : i ≤ hi - lo
  · rw [if_pos (by omega), Nat.add_sub_cancel]
    simp [hi', Nat.lt_succ_of_le hi']
  · simp [hi', show ¬ i < hi - lo + 1 by omega]

/-- A field outside the bits that were set. -/
theorem fieldOf_putField_other {w : Word} {hi lo v a b : Nat} (h : lo ≤ hi) (hh : hi < 32) (hab : b ≤ a) (hd : a < lo ∨ hi < b) :
    fieldOf (putField w hi lo v) a b = fieldOf w a b :=
  fieldOf_congr hab fun i h1 h2 => by rw [bitOf_putField h hh, if_neg (by omega)]

theorem fieldOf_putBit_other {w : Word} {i a b : Nat} {v : Bool} (h : i < 32) (hab : b ≤ a) (hd : a < i ∨ i < b) :
    fieldOf (putBit w i v) a b = fieldOf w a b := fieldOf_putField_other (Nat.le_refl i) h hab hd

/-! ### Registers -/

section
variable {s t : State} {a b i : Nat} {v : Bool}

@[simp] theorem regGet_regSetBit_same : regGet (regSetBit s a i v) a = putBit (regGet s a) i v := regGet_regPut_same
theorem regGet_regSetBit_other (h : b ≠ a) : regGet (regSetBit s a i v) b = regGet s b := regGet_regPut_other h
@[simp] theorem regGet_regSetField_same {hi lo n : Nat} : regGet (regSetField s a hi lo n) a = putField (regGet s a) hi lo n :=
  regGet_regPut_same
theorem regGet_regSetField_other {hi lo n : Nat} (h : b ≠ a) : regGet (regSetField s a hi lo n) b = regGet s b := regGet_regPut_other h
@[simp] theorem regGet_sqcSet_same : regGet (sqcSet s a i) a = sqcWord (regGet s a) i := regGet_regPut_same
theorem regGet_sqcSet_other (h : b ≠ a) : regGet (sqcSet s a i) b = regGet s b := regGet_regPut_other h

/-- A register is read from the register file alone. -/
theorem regGet_congr (h : t.regs = s.regs) (a : Nat) : regGet t a = regGet s a := by unfold regGet; rw [h]

theorem regGet64_congr {lo hi : Nat} (hl : regGet t lo = regGet s lo) (hh : regGet t hi = regGet s hi) :
    regGet64 t lo hi = regGet64 s lo hi := by unfold regGet64; rw [hl, hh]

theorem regGet_regPut64_other {lo hi : Nat} {x : BitVec 64} (hl : b ≠ lo) (hh : b ≠ hi) : regGet (regPut64 s lo hi x) b = regGet s b :=
  (regGet_regPut_other hh).trans (regGet_regPut_other hl)

theorem regGet64_regPut64_same {lo hi : Nat} {x : BitVec 64} (h : lo ≠ hi) : regGet64 (regPut64 s lo hi x) lo hi = x := by
  unfold regGet64 regPut64
  rw [regGet_regPut_same, regGet_regPut_other h, regGet_regPut_same]
  ext i hi
  simp only [BitVec.getElem_append, BitVec.getElem_extractLsb']
  split
  · simp [BitVec.getLsbD_eq_getElem, hi]
  · rename_i hlt
    simp only [show 32 + (i - 32) = i by omega]
    exact BitVec.getLsbD_eq_getElem hi

end

/-- From `s` to `t` no register below the Tally's block has changed: those of `DEV`, `TIME`, `MBX`, `PWR` and `SCR`. -/
def LowRegs (s t : State) : Prop := ∀ a, a < 0x80050000 → regGet t a = regGet s a

namespace LowRegs

theorem refl (s : State) : LowRegs s s := fun _ _ => rfl

theorem trans {a b c : State} (h : LowRegs a b) (k : LowRegs b c) : LowRegs a c := fun x hx => (k x hx).trans (h x hx)

theorem of_regs {s t : State} (h : t.regs = s.regs) : LowRegs s t := fun a _ => regGet_congr h a

/-- A change without the registers. -/
theorem of_only {m : Nat} {s t : State} (h : Only m s t) (hm : m.testBit 4 = false := by rfl) : LowRegs s t := of_regs (h.regs_eq hm)

theorem put {s : State} {a : Nat} {v : Word} (h : 0x80050000 ≤ a) : LowRegs s (regPut s a v) :=
  fun _ hb => regGet_regPut_other (by omega)

theorem foldl {α : Type} {g : State → α → State} {l : List α} {s : State} (hg : ∀ s x, x ∈ l → LowRegs s (g s x)) :
    LowRegs s (l.foldl g s) := by
  induction l generalizing s with
  | nil => exact refl s
  | cons x t ih => exact (hg s x List.mem_cons_self).trans (ih fun s y hy => hg s y (List.mem_cons_of_mem _ hy))

end LowRegs

end Sys2Proof.Machine
end

section
set_option Elab.async false

/-! SUPPORT. The commands that set the clocks and the power policy (Table 2-7, R37, R39, R49): what each leaves before it ends. -/

namespace Sys2Proof.Machine

/-- A command that ends with `OK` in the state `u`: registers, clocks, power states and group stand as in `u`. -/
theorem endOk_after {s : State} (u : State) {tag : Nat} {c : Cmd} (hc : cmdAt u tag = some c) (hn : nowStamp u = nowStamp s) :
    Ended s (endOk u tag) tag c stOk ∧ (endOk u tag).regs = u.regs ∧ (endOk u tag).time = u.time ∧
      (endOk u tag).pwr = u.pwr ∧ (endOk u tag).seam = u.seam := by
  refine ⟨endOk_ended hc rfl hn _ _, ?_⟩
  rw [endOk_eq hc]
  exact ⟨rfl, rfl, rfl, rfl⟩

/-- A row that does `g` and ends its command with `OK`. -/
theorem next_endOk {i : Instr} {s : State} {tag op : Nat} {c : Cmd} {P : State → Prop} (g : Cmd → State → State)
    (h : Started s tag op c) (hx : exec i s = runCmd s tag op (fun c s => endOk (g c s) tag))
    (hc : cmdAt (g c s) tag = cmdAt s tag) (hn : nowStamp (g c s) = nowStamp s)
    (hp : ∀ t : State, Ended s t tag c stOk → t.regs = (g c s).regs → t.time = (g c s).time → t.pwr = (g c s).pwr → P t) : Next i s P := by
  obtain ⟨he, hr, ht, hw, -⟩ := endOk_after (g c s) (hc.trans h.2.1) hn
  exact next_runCmd h hx (hp _ he hr ht hw)

/-- `TIME.SET_CT` (R37). -/
theorem next_timeSetCt {s : State} {tag : Nat} {c : Cmd} (h : Started s tag 0x0B02 c) : Next (.timeSetCt tag) s (fun t =>
    Ended s t tag c stOk ∧ t.time.acc = s.time.acc ∧ t.time.ctBack = false ∧ bitOf (regGet t aTimeSrcStat) 7 = false ∧
    regGet64 t aTimeCtBaseLo aTimeCtBaseHi + (c.started >>> 8) = BitVec.ofNat 64 (par c 52 8)) := by
  refine next_endOk (fun c s => setCt s (BitVec.ofNat 64 (par c 52 8)) c.started) h rfl rfl rfl fun t he hr ht _ => ?_
  generalize BitVec.ofNat 64 (par c 52 8) = ct at hr ht ⊢
  have hb : regGet64 (setCt s ct c.started) aTimeCtBaseLo aTimeCtBaseHi = ct - (c.started >>> 8) :=
    (regGet64_congr (regGet_regSetBit_other (by decide)) (regGet_regSetBit_other (by decide))).trans
      (regGet64_regPut64_same (s := s) (by decide))
  refine ⟨he, ?_, ?_, ?_, ?_⟩
  · rw [ht]; rfl
  · rw [ht]; rfl
  · rw [regGet_congr hr]
    exact (congrArg (bitOf · 7) regGet_regSetBit_same).trans (bitOf_putBit (by decide))
  · rw [regGet64_congr (regGet_congr hr _) (regGet_congr hr _), hb]
    exact BitVec.sub_add_cancel _ _

/-! ### `TIME.SET_SOURCE` (R33, R34) -/

/-- The registers before `SRC_ACTIVE` is written. -/
def selectCtrl (s : State) (src : Nat) : State := if ownSource s then regSetField s aTimeCtrl 2 0 src else s

theorem selectCtrl_only (s : State) (src : Nat) : Only 16 s (selectCtrl s src) :=
  Only.ite (fun _ => regSetField_only) (fun _ => .refl)

theorem selectCtrl_ctrl (s : State) (src : Nat) :
    regField (selectCtrl s src) aTimeCtrl 2 0 = if ownSource s then src % 8 else regField s aTimeCtrl 2 0 := by
  unfold selectCtrl
  split
  · unfold regField
    rw [regGet_regSetField_same]
    exact fieldOf_putField_same (by decide) (by decide)
  · rfl

theorem selectCtrl_other {s : State} {src a : Nat} (h : a ≠ aTimeCtrl) : regGet (selectCtrl s src) a = regGet s a := by
  unfold selectCtrl
  split
  · exact regGet_regSetField_other h
  · rfl

theorem fieldOf_lt (w : Word) (hi lo : Nat) : fieldOf w hi lo < 2 ^ (hi - lo + 1) := Nat.mod_lt _ (Nat.two_pow_pos _)

theorem timeSrc_lt (s : State) : timeSrc s < 8 := by
  unfold timeSrc
  split
  · decide
  · exact fieldOf_lt _ 2 0

/-- The source that is in force is read from the group's role and from `TIME_CTRL`. -/
theorem timeSrc_congr {s t : State} (hs : t.seam = s.seam) (hr : regGet t aTimeCtrl = regGet s aTimeCtrl) : timeSrc t = timeSrc s := by
  unfold timeSrc regField; rw [hs, hr]

/-- What a selection leaves in the clocks. -/
def selectTime (s : State) (src port domain : Nat) : State :=
  { s with time := { s.time with
    groupSrc := src, ptpPort := port, ptpDomain := domain, meas := [], lockRun := 0, ptpSet := false, srcAt := s.time.clk } }

theorem sourceSelect_eq (s : State) (src port domain : Nat) :
    sourceSelect s src port domain =
      regSetField (regSetBit (if s.time.ctBack then selectCtrl (selectTime s src port domain) src
        else regSetBit (selectCtrl (selectTime s src port domain) src) aTimeSrcStat 4 false) aTimeSrcStat 3 false) aTimeSrcStat 2 0
        (if s.time.ctBack then 0 else timeSrc (selectCtrl (selectTime s src port domain) src)) := rfl

theorem sourceSelect_time (s : State) (src port domain : Nat) :
    (sourceSelect s src port domain).time = (selectTime s src port domain).time := by
  have h := (selectCtrl_only (selectTime s src port domain) src).time_eq
  rw [sourceSelect_eq, regSetField, regPut_time, regSetBit, regPut_time]
  split
  · exact h
  · rw [regSetBit, regPut_time]; exact h

theorem sourceSelect_ctrl (s : State) (src port domain : Nat) : regField (sourceSelect s src port domain) aTimeCtrl 2 0 =
    if ownSource s then src % 8 else regField s aTimeCtrl 2 0 := by
  refine Eq.trans ?_ (selectCtrl_ctrl (selectTime s src port domain) src)
  unfold regField
  rw [sourceSelect_eq, regGet_regSetField_other (by decide), regGet_regSetBit_other (by decide)]
  split
  · rfl
  · rw [regGet_regSetBit_other (by decide)]

theorem sourceSelect_active (s : State) (src port domain : Nat) : regField (sourceSelect s src port domain) aTimeSrcStat 2 0 =
    if s.time.ctBack then 0 else timeSrc (sourceSelect s src port domain) := by
  have hs : timeSrc (sourceSelect s src port domain) = timeSrc (selectCtrl (selectTime s src port domain) src) := by
    refine timeSrc_congr (sourceSelect_only.seam_eq.trans (selectCtrl_only (selectTime s src port domain) src).seam_eq.symm) ?_
    rw [sourceSelect_eq, regGet_regSetField_other (by decide), regGet_regSetBit_other (by decide)]
    split
    · rfl
    · rw [regGet_regSetBit_other (by decide)]
  rw [hs]
  unfold regField
  rw [sourceSelect_eq, regGet_regSetField_same, fieldOf_putField_same (by decide) (by decide)]
  split
  · rfl
  · exact Nat.mod_eq_of_lt (timeSrc_lt _)

/-- A selection ends the holdover, but not while a refusal of R35 stands. -/
theorem sourceSelect_holdover (s : State) (src port domain : Nat) : bitOf (regGet (sourceSelect s src port domain) aTimeSrcStat) 4 =
    (s.time.ctBack && bitOf (regGet s aTimeSrcStat) 4) := by
  have ho : regGet (selectCtrl (selectTime s src port domain) src) aTimeSrcStat = regGet s aTimeSrcStat := selectCtrl_other (by decide)
  rw [sourceSelect_eq, regGet_regSetField_same, bitOf_putField (by decide) (by decide), if_neg (by decide), regGet_regSetBit_same,
    bitOf_putBit (by decide), if_neg (by decide)]
  split
  · rename_i h
    rw [h, ho]; rfl
  · rename_i h
    rw [regGet_regSetBit_same, bitOf_putBit (by decide), if_pos rfl]
    simp [h]

theorem next_timeSetSource {s : State} {tag : Nat} {c : Cmd} {here : Bool} (h : Started s tag 0x0B03 c)
    (hp : here = true ∨ par c 52 1 = 0) : Next (.timeSetSource tag here) s (fun t =>
      Ended s t tag c stOk ∧ t.time.groupSrc = par c 52 1 ∧ t.time.ptpPort = par c 54 2 ∧ t.time.ptpDomain = par c 56 1 ∧
      t.time.srcAt = s.time.clk ∧ t.time.meas = [] ∧ t.time.ptpSet = false ∧ t.time.lastPps = s.time.lastPps ∧
      regField t aTimeCtrl 2 0 = (if ownSource s then par c 52 1 % 8 else regField s aTimeCtrl 2 0) ∧
      regField t aTimeSrcStat 2 0 = (if s.time.ctBack then 0 else timeSrc t) ∧
      bitOf (regGet t aTimeSrcStat) 4 = (s.time.ctBack && bitOf (regGet s aTimeSrcStat) 4)) := by
  have hq : ¬ (!here && par c 52 1 != 0) = true := by rcases hp with hp | hp <;> simp [hp]
  have hx : exec (.timeSetSource tag here) s = runCmd s tag 0x0B03 (fun c s => if !here && par c 52 1 != 0 then endAfter s tag 0x0B01
    else endOk (sourceSelect s (par c 52 1) (par c 54 2) (par c 56 1)) tag) := rfl
  refine next_runCmd h hx ?_
  rw [if_neg hq]
  generalize par c 52 1 = src; generalize par c 54 2 = port; generalize par c 56 1 = domain
  have hc : cmdAt (sourceSelect s src port domain) tag = some c := (sourceSelect_only.cmdAt rfl _).trans h.2.1
  have ht := sourceSelect_time s src port domain
  obtain ⟨he, er, et, -, es⟩ := endOk_after (s := s) (sourceSelect s src port domain) hc (by unfold nowStamp; rw [ht]; rfl)
  have hg := regGet_congr er
  refine ⟨he, ?_, ?_, ?_, ?_, ?_, ?_, ?_, ?_, ?_, ?_⟩
  iterate 7 rw [et, ht]; rfl
  · unfold regField
    rw [hg]; exact sourceSelect_ctrl ..
  · rw [timeSrc_congr es (hg _)]
    unfold regField
    rw [hg]; exact sourceSelect_active ..
  · rw [hg]; exact sourceSelect_holdover ..

theorem next_timeSetSource_absent {s : State} {tag : Nat} {c : Cmd} (h : Started s tag 0x0B03 c) (hp : par c 52 1 ≠ 0) :
    Next (.timeSetSource tag false) s (fun t => Ended s t tag c 0x0B01 ∧ t.time = s.time) := by
  refine next_runCmd (f := fun c s => if !false && par c 52 1 != 0 then endAfter s tag 0x0B01
    else endOk (sourceSelect s (par c 52 1) (par c 54 2) (par c 56 1)) tag) h rfl ?_
  rw [if_pos (by simpa using hp)]
  exact ⟨endAfter_ended h.2.1 rfl rfl _ _ _, endAfter_only.time_eq⟩

/-! ### `TIME.SET_PPS_OUT`, `TIME.SLEEP_POLICY`, `TIME.STANDBY` -/

theorem next_timeSetPpsOut {s : State} {tag : Nat} {c : Cmd} (h : Started s tag 0x0B04 c) : Next (.timeSetPpsOut tag) s (fun t =>
    Ended s t tag c stOk ∧ t.time.ppsWidth = par c 53 1 ∧ regField t aTimeCtrl 7 6 = par c 52 1 % 4) := by
  refine next_endOk (fun c s => { regSetField s aTimeCtrl 7 6 (par c 52 1) with time := { s.time with ppsWidth := par c 53 1 } })
    h rfl rfl rfl fun t he hr ht _ => ⟨he, by rw [ht], ?_⟩
  unfold regField
  rw [regGet_congr hr]
  exact (congrArg (fieldOf · 7 6) regGet_regSetField_same).trans (fieldOf_putField_same (by decide) (by decide))

theorem next_timeSleepPolicy {s : State} {tag : Nat} {c : Cmd} (h : Started s tag 0x0B05 c) : Next (.timeSleepPolicy tag) s (fun t =>
    Ended s t tag c stOk ∧ regField t aPwrCtrl 1 0 = par c 52 1 % 4 ∧ regGet t aPwrAirIdle = BitVec.ofNat 32 (par c 56 4) ∧
    regGet t aPwrWarmIdle = BitVec.ofNat 32 (par c 60 2)) := by
  refine next_endOk (fun c s => regPut (regPut (regSetField s aPwrCtrl 1 0 (par c 52 1)) aPwrAirIdle (BitVec.ofNat 32 (par c 56 4)))
    aPwrWarmIdle (BitVec.ofNat 32 (par c 60 2))) h rfl rfl rfl fun t he hr _ _ => ⟨he, ?_, ?_, ?_⟩
  · unfold regField
    rw [regGet_congr hr, regGet_regPut_other (by decide), regGet_regPut_other (by decide), regGet_regSetField_same]
    exact fieldOf_putField_same (by decide) (by decide)
  · rw [regGet_congr hr, regGet_regPut_other (by decide), regGet_regPut_same]
  · rw [regGet_congr hr, regGet_regPut_same]

theorem next_timeStandby {s : State} {tag : Nat} {c : Cmd} (h : Started s tag 0x0B06 c) : Next (.timeStandby tag) s (fun t =>
    Ended s t tag c stOk ∧ t.pwr.standby = some tag ∧ t.time.wakeSeen = false ∧
    regGet64 t aTimeWakeLo aTimeWakeHi = BitVec.ofNat 64 (par c 52 8)) := by
  refine next_endOk (fun c s => { regPut64 s aTimeWakeLo aTimeWakeHi (BitVec.ofNat 64 (par c 52 8)) with
    pwr := { s.pwr with standby := some tag }, time := { s.time with wakeSeen := false } })
    h rfl rfl rfl fun t he hr ht hw => ⟨he, by rw [hw], by rw [ht], ?_⟩
  rw [regGet64_congr (regGet_congr hr _) (regGet_congr hr _)]
  exact regGet64_regPut64_same (s := s) (by decide)

/-! ### The statuses that a command of time gets at its start (Table 2-7) -/

theorem specTime_late (s : State) (c : Cmd) : (specTime s c).map (·.late) =
    (if cOp c = 0x0B02 then some (if timeSrc s = 2 ∧ s.time.ctBack = false then 0x0B02 else stOk)
      else if cOp c = 0x0B06 then some (if s.seam.role ≠ .alone ∨ s.scorch.locked = true then 0x0B02 else stOk)
      else (specTime s c).map (fun _ => stOk)) := by
  unfold specTime
  dsimp only
  split <;> rename_i hop
  · rw [hop]; rfl
  · simp [hop]
  · rw [hop]; rfl
  · rw [hop]; rfl
  · rw [hop]; rfl
  · simp [hop, standbyBarred]
  · simp_all

end Sys2Proof.Machine
end

section
set_option Elab.async false

/-! SUPPORT. What a wake, the Tally's appends and the pulses of the event matrix leave of the registers below the Tally's block (R42, R43,
R521), and what a wake leaves of `PWR_STATE` and `TIME_SRC_STAT`. -/

namespace Sys2Proof.Machine

/-! ### The Tally -/

theorem sqcSet_low {s : State} {a i : Nat} (h : 0x80050000 ≤ a) : LowRegs s (sqcSet s a i) := .put h
theorem regAdd_low {s : State} {a n : Nat} (h : 0x80050000 ≤ a) : LowRegs s (regAdd s a n) := .put h

theorem tallyDrop_low (s : State) : LowRegs s (tallyDrop s) :=
  (regAdd_low (by decide)).trans (.trans (sqcSet_low (by decide)) (.of_regs rfl))

theorem tallyAppend_low (s : State) (a : TallyApp) : LowRegs s (tallyAppend s a) := by
  unfold tallyAppend
  dsimp only
  split
  · split
    · exact .of_regs rfl
    · exact tallyDrop_low s
  · split
    · exact .of_regs rfl
    · exact tallyDrop_low s

theorem tallyPut_low (s : State) (agent code : Nat) (items : List (Nat × Nat)) : LowRegs s (tallyPut s agent code items) :=
  .trans (.of_regs rfl) (tallyAppend_low _ _)

theorem tallyStore_low (s : State) (p : Nat) (a : TallyApp) (cut : Bool) : LowRegs s (tallyStore s p a cut) := by
  unfold tallyStore
  dsimp only
  split
  · exact .trans (.of_regs rfl) (sqcSet_low (by decide))
  · exact .of_regs rfl

theorem tallyRecord_low (s : State) (a : TallyApp) (cut : Bool) : LowRegs s (tallyRecord s a cut) := by
  unfold tallyRecord
  dsimp only
  split
  · exact .of_regs rfl
  · split
    · exact tallyStore_low _ _ _ _
    · split
      · exact tallyDrop_low s
      · split
        · exact tallyStore_low _ _ _ _
        · exact .trans (.trans (.of_regs rfl) (sqcSet_low (by decide))) (tallyStore_low _ _ _ _)

theorem tallyUnstage_low (s : State) : LowRegs s (tallyUnstage s) :=
  .trans (.of_regs rfl) (.foldl fun s a _ => tallyRecord_low s a false)

/-! ### Buffers for the ports -/

theorem poolNote_low (a b : State) : LowRegs b (poolNote a b) := by
  have h1 (s : State) (n i : Nat) (p : Prop) [Decidable p] (h : 0x80050000 ≤ n) : LowRegs s (if p then sqcSet s n i else s) := by
    split
    · exact sqcSet_low h
    · exact .refl s
  exact (h1 b aHmpEvt 0 _ (by decide)).trans (h1 _ aHmpEvt 1 _ (by decide))

theorem hmpAlloc_low {s t : State} {tag n b : Nat} (h : hmpAlloc s tag n = some (b, t)) : LowRegs s t := by
  unfold hmpAlloc at h
  dsimp only at h
  split at h
  · cases h
  · split at h
    · cases h
    · rename_i hb
      cases h
      exact .trans (.of_only (takeBufs_only hb)) (.trans (.of_only linkChain_only) (.trans (.of_regs rfl) (poolNote_low _ _)))

theorem portRefill_low (s : State) (p : Nat) : LowRegs s (portRefill s p) := by
  refine .foldl fun s _ _ => ?_
  split
  · exact .refl s
  · split
    · rename_i h
      exact hmpAlloc_low h
    · exact .refl s

theorem portReady_low (s : State) (p : Nat) : LowRegs s (portReady s p) := by
  unfold portReady
  split
  · exact portRefill_low s p
  · exact .refl s

/-! ### A wake -/

/-- The registers as a wake that is over leaves them: ACTIVE, neither `ENTERING` nor `EXITING`, and not `COARSE`. -/
def activeRegs (s : State) : State := regSetBit (pwrSteps (setPwrMode s 0) false false) aTimeSrcStat 8 false

theorem activeRegs_congr {s t : State} (h : t.regs = s.regs) : (activeRegs t).regs = (activeRegs s).regs := by
  unfold activeRegs pwrSteps setPwrMode regSetBit regSetField regPut regGet
  dsimp only
  rw [h]

theorem comeActive_low (s : State) : LowRegs (activeRegs s) (comeActive s) := by
  unfold comeActive
  dsimp only
  have h0 : (linkL1 (if 2 ≤ pwrMode s then rngWake s else s) false).regs = s.regs := by
    rw [linkL1_only.regs_eq]
    split
    · exact rngWake_only.regs_eq
    · rfl
  generalize linkL1 (if 2 ≤ pwrMode s then rngWake s else s) false = s0 at h0 ⊢
  generalize hs : portsMap (regSetBit (pwrSteps (setPwrMode s0 0) false false) aTimeSrcStat 8 false) holdOff = s1
  have h1 : LowRegs (activeRegs s) s1 := by
    rw [← hs]
    exact .of_regs (portsMap_only.regs_eq.trans (activeRegs_congr h0))
  have h2 (u : State) : LowRegs u ((u.links.ports.map (·.1)).foldl portReady u) := .foldl fun u p _ => portReady_low u p
  generalize hu : tallyUnstage _ = u
  have h3 : LowRegs s1 u := by
    rw [← hu]
    refine LowRegs.trans ?_ (tallyUnstage_low _)
    exact .of_regs rfl
  have h4 := h1.trans (h3.trans (h2 u))
  split
  · exact h4.trans (LowRegs.trans (LowRegs.foldl fun u p _ => LowRegs.of_only portRetrain_only) (LowRegs.of_only coresGoOn_only))
  · exact h4

/-- The steps of the power states are bits 3 and 4 of `PWR_STATE`. -/
theorem pwrSteps_other {s : State} {x y : Bool} {a : Nat} (h : a ≠ aPwrState) : regGet (pwrSteps s x y) a = regGet s a :=
  (regGet_regSetBit_other h).trans (regGet_regSetBit_other h)

theorem pwrMode_pwrSteps (s : State) (x y : Bool) : pwrMode (pwrSteps s x y) = pwrMode s := by
  unfold pwrMode regField pwrSteps
  rw [regGet_regSetBit_same, regGet_regSetBit_same, fieldOf_putBit_other (by decide) (by decide) (by decide),
    fieldOf_putBit_other (by decide) (by decide) (by decide)]

theorem pwrMode_setPwrMode (s : State) (m : Nat) : pwrMode (setPwrMode s m) = m % 8 := by
  unfold pwrMode regField setPwrMode
  rw [regGet_regSetField_same]
  exact fieldOf_putField_same (by decide) (by decide)

theorem pwrMode_congr {s t : State} (h : regGet t aPwrState = regGet s aPwrState) : pwrMode t = pwrMode s := by
  unfold pwrMode regField; rw [h]

/-- The power controller's own state is no register. -/
theorem regGet_withPwr (s : State) (p : PwrState) (a : Nat) : regGet { s with pwr := p } a = regGet s a := rfl

theorem pwrMode_comeActive (s : State) : pwrMode (comeActive s) = 0 := by
  rw [pwrMode_congr (comeActive_low s _ (by decide))]
  exact (pwrMode_congr (regGet_regSetBit_other (by decide))).trans ((pwrMode_pwrSteps _ _ _).trans (pwrMode_setPwrMode s 0))

theorem comeActive_reg {s : State} {a : Nat} (h : a < 0x80050000) (hp : a ≠ aPwrState) (ht : a ≠ aTimeSrcStat) :
    regGet (comeActive s) a = regGet s a := by
  rw [comeActive_low s a h]
  exact (regGet_regSetBit_other ht).trans ((pwrSteps_other hp).trans (regGet_regSetField_other hp))

theorem comeActive_srcStat (s : State) : regGet (comeActive s) aTimeSrcStat = putBit (regGet s aTimeSrcStat) 8 false := by
  rw [comeActive_low s _ (by decide)]
  refine regGet_regSetBit_same.trans (congrArg (putBit · 8 false) ?_)
  exact (pwrSteps_other (by decide)).trans (regGet_regSetField_other (by decide))

/-- The note of a wake is a field of `PWR_STATE` and an event. -/
theorem wakeNote_reg {s : State} {c a : Nat} (hp : a ≠ aPwrState) (hw : a ≠ aPwrWakeSrc) : regGet (wakeNote s c) a = regGet s a :=
  (regGet_sqcSet_other hw).trans (regGet_regSetField_other hp)

theorem pwrMode_wakeNote (s : State) (c : Nat) : pwrMode (wakeNote s c) = pwrMode s := by
  refine (pwrMode_congr (regGet_sqcSet_other (by decide))).trans ?_
  unfold pwrMode regField
  rw [regGet_regSetField_same]
  exact fieldOf_putField_other (by decide) (by decide) (by decide) (by decide)

/-- A wake: none begins, or the device is ACTIVE at once, or a wake from a sleep begins (R42, R43). -/
theorem wakeUp_cases (s : State) (c : Nat) : wakeUp s c = s ∨ (pwrMode s < 2 ∧ wakeUp s c = comeActive (wakeNote s c)) ∨
    (2 ≤ pwrMode s ∧ wakeUp s c = pwrSteps { wakeNote s c with pwr := { (wakeNote s c).pwr with leaving := some s.time.clk } } false true) := by
  unfold wakeUp
  dsimp only
  split
  · exact .inl rfl
  · split
    · rename_i h; exact .inr (.inl ⟨h, rfl⟩)
    · rename_i h; exact .inr (.inr ⟨by omega, rfl⟩)

theorem pwrMode_wakeUp (s : State) (c : Nat) : (pwrMode s < 2 → pwrMode (wakeUp s c) < 2) ∧ (2 ≤ pwrMode s → pwrMode (wakeUp s c) = pwrMode s) := by
  rcases wakeUp_cases s c with e | ⟨h, e⟩ | ⟨h, e⟩ <;> rw [e]
  · exact ⟨id, fun _ => rfl⟩
  · rw [pwrMode_comeActive]
    exact ⟨fun _ => by decide, fun h' => absurd h (by omega)⟩
  · rw [pwrMode_pwrSteps]
    refine ⟨fun h' => absurd h (by omega), fun _ => ?_⟩
    rw [pwrMode_congr (regGet_withPwr _ _ _), pwrMode_wakeNote]

theorem wakeUp_reg {s : State} {c a : Nat} (h : a < 0x80050000) (hp : a ≠ aPwrState) (ht : a ≠ aTimeSrcStat) (hw : a ≠ aPwrWakeSrc) :
    regGet (wakeUp s c) a = regGet s a := by
  rcases wakeUp_cases s c with e | ⟨-, e⟩ | ⟨-, e⟩ <;> rw [e]
  · exact (comeActive_reg h hp ht).trans (wakeNote_reg hp hw)
  · rw [pwrSteps_other hp, regGet_withPwr, wakeNote_reg hp hw]

theorem wakeUp_srcStat {s : State} {c i : Nat} (hi : i ≠ 8) :
    bitOf (regGet (wakeUp s c) aTimeSrcStat) i = bitOf (regGet s aTimeSrcStat) i := by
  rcases wakeUp_cases s c with e | ⟨-, e⟩ | ⟨-, e⟩ <;> rw [e]
  · rw [comeActive_srcStat, bitOf_putBit (by decide), if_neg hi, wakeNote_reg (by decide) (by decide)]
  · rw [pwrSteps_other (by decide), regGet_withPwr, wakeNote_reg (by decide) (by decide)]

/-- A wake moves neither the Stamp nor calendar time. -/
theorem nowStamp_wakeUp (s : State) (c : Nat) : nowStamp (wakeUp s c) = nowStamp s := wakeUp_only.now rfl

theorem nowCt_wakeUp (s : State) (c : Nat) : nowCt (wakeUp s c) = nowCt s := by
  unfold nowCt ctAt
  rw [nowStamp_wakeUp, wakeUp_srcStat (by decide), regGet64_congr (wakeUp_reg (by decide) (by decide) (by decide) (by decide))
    (wakeUp_reg (by decide) (by decide) (by decide) (by decide))]

end Sys2Proof.Machine
end

section
set_option Elab.async false

/-! SUPPORT. The reads that latch a clock (R28, R45, R425). -/

namespace Sys2Proof.Machine

/-- A check that an access passes changes nothing (R394). -/
theorem hemCheck_pass {s : State} {w : Accessor} {a n : Nat} {k : AccKind} (h : (hemCheck s w a n k).1 = true) :
    hemCheck s w a n k = (true, s) := by
  unfold hemCheck at h ⊢
  split at h
  · rfl
  · split at h
    · rename_i hc; exact if_pos hc
    · cases h

theorem cpCheck_pass {s : State} {r : Requester} {a : Nat} {k : AccKind} (h : (cpCheck s r a k).1 = true) : cpCheck s r a k = (true, s) := by
  unfold cpCheck at h ⊢
  split at h
  · rename_i hr
    rw [if_pos hr]
    split at h
    · rename_i u hu
      exact hu.symm.trans (hemCheck_pass (by rw [hu]))
    · cases h
  · rename_i hr
    exact if_neg hr

/-- A read of a block outside the fast domain reaches its block while the device is awake: the state is that of the access, or of the wake that
a host's read began. -/
theorem hostArrives_awake {s : State} {r : Requester} {a : Nat} (hf : fastBlk a = false) (hv : s.pwr.vault = false) (hm : pwrMode s ≤ 1)
    (hi : r.isHost = false → procRuns s = true) (hp : ∀ p, r = .fn p → portThere s p = true) :
    ∃ u, hostArrives s r a false = some u ∧ (u = s ∨ r.isHost = true ∧ u = wakeUp s 1) := by
  have internal (h : procRuns s = true) : (if !procRuns s then none else some (if fastBlk a then touchFast s else s)) = some s := by
    simp [h, hf]
  cases r with
  | fn p =>
    refine ⟨wakeUp s 1, ?_, .inr ⟨rfl, rfl⟩⟩
    have hs : hostServed (wakeUp s 1) true = true := by
      simp [hostServed, (pwrMode_wakeUp s 1).1 (by omega)]
    simp [hostArrives, hv, hp p rfl, hostCause, hs, hf]
  | cp | thm | core n | dma n => exact ⟨s, internal (hi rfl), .inl rfl⟩

/-- A host's read while the device sleeps does not reach its block. -/
theorem hostArrives_asleep {s : State} {p a : Nat} (hm : 2 ≤ pwrMode s) : hostArrives s (.fn p) a false = none := by
  have hs : hostServed (wakeUp s 1) true = false := by
    have := (pwrMode_wakeUp s 1).2 hm
    simp [hostServed]; omega
  simp [hostArrives, hostCause, hs]

/-- In VAULT no access reaches a block. -/
theorem hostArrives_vault {s : State} {r : Requester} {a : Nat} {w : Bool} (hv : s.pwr.vault = true) : hostArrives s r a w = none := by
  have hp : procRuns s = false := by simp [procRuns, hv]
  cases r <;> simp [hostArrives, hv, hp]

theorem hostKept_vault {s : State} {r : Requester} {a : Nat} {w : Bool} {q : HostReq} (hv : s.pwr.vault = true) : hostKept s r a w q = s := by
  cases r <;> simp [hostKept, hv]

/-- A latching pair is read by its low half. -/
theorem listedRead_pair {s : State} {r : Requester} {b : Blk} {a : Nat} {d : RegDesc} {v : BitVec 64}
    (hv : pairValue s b (a - blkBase b) = some v) :
    listedRead s r b a d = (v.extractLsb' 0 32, latchPut s r (a + 4) (v.extractLsb' 32 32)) := by
  unfold listedRead
  dsimp only
  rw [hv]

/-- A read of the low half of a pair of `TIME`: the answer, and the high half latched for the requester's class (R28). -/
theorem loHalfRead_time {s u : State} {r : Requester} {a : Nat} {d : RegDesc} {v : BitVec 64} (ha : hostArrives s r a false = some u)
    (hc : cpCheck u r a .read = (true, u)) (hr : resolve r a = .reg .time a d) (hv : pairValue u .time (a - blkBase .time) = some v) :
    loHalfRead s r a = emit (latchPut u r (a + 4) (v.extractLsb' 32 32)) (.reply r a (v.extractLsb' 0 32)) := by
  have hb : ((pairValue u .time (a - blkBase .time)).isSome && blkReach r .time) = true := by rw [hv]; rfl
  unfold loHalfRead
  rw [ha]
  simp only [hc]
  split
  · rename_i b a' d' hs
    cases hr.symm.trans hs
    rw [if_pos hb, listedRead_pair hv]
  · rename_i hs
    cases hr.symm.trans hs
  · rename_i hs _
    exact (hs _ _ _ hr).elim

theorem resolve_timeNowLo (r : Requester) : ∃ d, resolve r aTimeNowLo = .reg .time aTimeNowLo d := by
  cases r <;> exact ⟨_, rfl⟩

theorem resolve_timeCtLo (r : Requester) : ∃ d, resolve r aTimeCtLo = .reg .time aTimeCtLo d := by
  cases r <;> exact ⟨_, rfl⟩

/-- A read that is served: the state in which the clock is read has the outputs, the clocks and the calendar time of `s`. -/
theorem loHalfRead_served {s : State} {r : Requester} {a : Nat} {v : BitVec 64} (hf : fastBlk a = false) (hv : s.pwr.vault = false)
    (hm : pwrMode s ≤ 1) (hi : r.isHost = false → procRuns s = true) (hp : ∀ p, r = .fn p → portThere s p = true)
    (hc : (cpCheck s r a .read).1 = true) (hr : ∃ d, resolve r a = .reg .time a d)
    (hval : ∀ u, nowStamp u = nowStamp s → nowCt u = nowCt s → pairValue u .time (a - blkBase .time) = some v) :
    ∃ t, loHalfRead s r a = t ∧ t.out = .reply r a (v.extractLsb' 0 32) :: s.out ∧ t.time = s.time ∧
      latchGet t r (a + 4) = v.extractLsb' 32 32 := by
  obtain ⟨u, hu, hcase⟩ := hostArrives_awake hf hv hm hi hp
  obtain ⟨d, hd⟩ := hr
  have hu' : u.out = s.out ∧ u.time = s.time ∧ nowStamp u = nowStamp s ∧ nowCt u = nowCt s ∧ cpCheck u r a .read = (true, u) := by
    rcases hcase with rfl | ⟨hh, rfl⟩
    · exact ⟨rfl, rfl, rfl, rfl, cpCheck_pass hc⟩
    · refine ⟨wakeUp_only.out_eq, wakeUp_only.time_eq, nowStamp_wakeUp s 1, nowCt_wakeUp s 1, ?_⟩
      have : r ≠ .cp := by rintro rfl; cases hh
      exact if_neg this
  obtain ⟨ho, ht, hn, hct, hk⟩ := hu'
  refine ⟨_, loHalfRead_time hu hk hd (hval u hn hct), ?_, ?_, ?_⟩
  · exact congrArg _ ho
  · exact ht
  · exact tblGet_set_same

/-- A host's read of a sleeping device is held by the endpoint until it has woken (R45). -/
theorem loHalfRead_held {s : State} {p a : Nat} (hv : s.pwr.vault = false) (hp : portThere s p = true) (hm : 2 ≤ pwrMode s) :
    HeldIn s (loHalfRead s (.fn p) a) (.loRead p a) := by
  have e : loHalfRead s (.fn p) a = hostHold (wakeUp s 1) (.loRead p a) := by
    unfold loHalfRead
    rw [hostArrives_asleep hm]
    simp [hostKept, hv, hp, hostCause, reqFn]
  have hh : (wakeUp s 1).pwr.held = s.pwr.held := by
    rcases wakeUp_cases s 1 with e | ⟨h, -⟩ | ⟨-, e⟩
    · rw [e]
    · omega
    · rw [e, pwrSteps_only.pwr_eq]; rfl
  rw [e]
  refine ⟨⟨capStamp (wakeUp s 1), ?_⟩, ?_, ?_, ?_, ?_⟩
  · exact congrArg (· ++ _) hh
  · exact wakeUp_only.out_eq
  · exact wakeUp_only.slices_eq
  · exact wakeUp_only.tortin_eq
  · exact wakeUp_only.lc_eq

theorem loHalfRead_vault {s : State} {r : Requester} {a : Nat} (hv : s.pwr.vault = true) : loHalfRead s r a = s := by
  unfold loHalfRead
  rw [hostArrives_vault hv]
  exact hostKept_vault hv

end Sys2Proof.Machine
end

section
set_option Elab.async false

/-! SUPPORT. Correction of the Stamp, its sources, and the events of calendar time (R29, R31, R33, R34, R36 to R40, Table 2-4). -/

namespace Sys2Proof.Machine

/-! ### Corrections (Table 2-4) -/

theorem corrBegin_time (s : State) (c : Correction) (left : Nat) (stop : Int) : (corrBegin s c left stop).time = { s.time with
    corr := c, corrLeft := left, corrEnd := stop, incHeld := if s.time.corr = .none then timeInc s else s.time.incHeld } := by
  unfold corrBegin
  dsimp only
  split <;> rfl

/-- A forward step adds its amount in one cycle (R29). -/
theorem stepForward_time (s : State) (n : Nat) : ∃ x y, (stepForward s n).time =
    { s.time with acc := s.time.acc + BitVec.ofNat 96 n, ppsDue := x, rtcDue := y } :=
  ⟨_, _, tallyPut_only.time_eq.trans sqcSet_only.time_eq⟩

/-- A backward step begins a correction, and leaves the Stamp (R29). -/
theorem stepBackward_time (s : State) (o : Int) (left : Nat) (stop : Int) :
    (stepBackward s o left stop).time = (corrBegin s .backward left stop).time :=
  tallyPut_only.time_eq.trans (sqcSet_only.time_eq.trans regSetBit_only.time_eq)

theorem endCorrection_time (s : State) (o : Int) :
    (endCorrection s o).time = (if s.time.corr = .none then s.time else { s.time with corr := .none, corrLeft := 0 }) := by
  unfold endCorrection
  split
  · rename_i h; rw [if_pos h]
  · rename_i h
    rw [if_neg h]
    exact tallyPut_only.time_eq

theorem endCorrection_corr (s : State) (o : Int) : (endCorrection s o).time.corr = .none := by
  rw [endCorrection_time]
  split
  · assumption
  · rfl

theorem endCorrection_meas (s : State) (o : Int) :
    (endCorrection s o).time.meas = s.time.meas ∧ (endCorrection s o).time.servoAt = s.time.servoAt := by
  rw [endCorrection_time]
  split <;> exact ⟨rfl, rfl⟩

/-- A step of a row, given by what the row answers. -/
theorem next_of {i : Instr} {s t : State} {P : State → Prop} (h : exec i s = .next t) (hp : P t) : Next i s P := ⟨t, h, hp⟩

/-- The step that was asked for is under way. -/
def stepTaken (s : State) : State := { s with time := { s.time with stepAsked := false } }

theorem next_timeStep_forward {s : State} {adj : Int} (ha : s.time.stepAsked = true) (hv : s.pwr.vault = false)
    (he : adj = toSigned 64 (regGet64 s aTimeAdjLo aTimeAdjHi).toNat) (h : 0 ≤ adj) :
    Next .timeStep s (fun t => t.time.acc = s.time.acc + BitVec.ofNat 96 (adj.toNat * 2 ^ 32) ∧ t.time.stepAsked = false) := by
  have hx : exec .timeStep s = .next (stepForward (stepTaken s) (adj.toNat * 2 ^ 32)) := by
    subst he
    exact congrArg Host.Outcome.next ((if_neg (by simp [ha, hv])).trans (if_pos h))
  obtain ⟨x, y, ht⟩ := stepForward_time (stepTaken s) (adj.toNat * 2 ^ 32)
  exact next_of hx ⟨by rw [ht]; rfl, by rw [ht]; rfl⟩

theorem next_timeStep_backward {s : State} {adj : Int} (ha : s.time.stepAsked = true) (hv : s.pwr.vault = false)
    (he : adj = toSigned 64 (regGet64 s aTimeAdjLo aTimeAdjHi).toNat) (h : adj < 0) :
    Next .timeStep s (fun t => t.time.acc = s.time.acc ∧ t.time.corr = .backward ∧ t.time.corrLeft = adj.natAbs * 2 ^ 32 ∧
      t.time.corrEnd = 0 ∧ t.time.stepAsked = false) := by
  have hx : exec .timeStep s = .next (stepBackward (stepTaken s) ((adj.natAbs : Int) * 1000000000 / 2 ^ 32) (adj.natAbs * 2 ^ 32) 0) := by
    subst he
    exact congrArg Host.Outcome.next ((if_neg (by simp [ha, hv])).trans (if_neg (by omega)))
  refine next_of hx ?_
  rw [stepBackward_time, corrBegin_time]
  exact ⟨rfl, rfl, rfl, rfl, rfl⟩

/-! ### The servo (R31) -/

/-- The servo's measurements are taken. -/
def servoTaken (s : State) : State := { s with time := { s.time with meas := [], servoAt := s.time.clk } }

theorem exec_servoUpdate {s : State} (h : servoReady s = true) :
    exec .servoUpdate s = .next (correct (servoTaken s) (meanOf (servoTake s))) :=
  congrArg Host.Outcome.next (if_pos h)

theorem next_servoUpdate_idle {s : State} (h : servoReady s = false) : Next .servoUpdate s (fun t => t = s) :=
  next_of (congrArg Host.Outcome.next (if_neg (by simp [h]))) rfl

/-- An offset more than 1 ms behind is stepped forward. -/
theorem correct_forward {s : State} {o : Int} (hh : timeHeld s = false) (ho : o < -1000000) :
    correct s o = stepForward (endCorrection s o) (nsToAcc o.natAbs) := by
  unfold correct
  rw [if_neg (by simp [hh]), if_neg (by omega), if_pos ho]

/-- An offset more than 1 ms ahead is taken back at half the rate: a step begins, or the one that runs gets its new span. -/
theorem correct_backward {s : State} {o : Int} (hh : timeHeld s = false) (ho : 1000000 < o) :
    correct s o = (if s.time.corr = .backward then corrMore s o else stepBackward (endCorrection s o) o (corrSpan o) (corrStop o)) := by
  unfold correct
  rw [if_neg (by simp [hh]), if_neg (by omega), if_neg (by omega)]
  by_cases hc : s.time.corr = .backward
  · rw [if_pos ⟨hc, by omega⟩, if_pos hc]
  · rw [if_neg (fun h => hc h.1), if_pos ho, if_neg hc]

theorem next_servoUpdate_forward {s : State} (h : servoReady s = true) (hh : bitOf (regGet s aTimeCtrl) 9 = false)
    (ho : meanOf (servoTake s) < -1000000) : Next .servoUpdate s (fun t => t.time.meas = [] ∧ t.time.servoAt = s.time.clk ∧
      t.time.corr = .none ∧ t.time.acc = s.time.acc + BitVec.ofNat 96 (nsToAcc (meanOf (servoTake s)).natAbs)) := by
  refine next_of (exec_servoUpdate h) ?_
  generalize meanOf (servoTake s) = o at ho ⊢
  rw [correct_forward (s := servoTaken s) hh ho]
  obtain ⟨x, y, hx⟩ := stepForward_time (endCorrection (servoTaken s) o) (nsToAcc o.natAbs)
  obtain ⟨hm, hs⟩ := endCorrection_meas (servoTaken s) o
  rw [hx]
  exact ⟨hm, hs, endCorrection_corr _ _, congrArg (· + _) (endCorrection_acc _ _)⟩

theorem next_servoUpdate_backward {s : State} (h : servoReady s = true) (hh : bitOf (regGet s aTimeCtrl) 9 = false)
    (ho : 1000000 < meanOf (servoTake s)) : Next .servoUpdate s (fun t => t.time.meas = [] ∧ t.time.servoAt = s.time.clk ∧
      t.time.acc = s.time.acc ∧ t.time.corr = .backward ∧ t.time.corrLeft = corrSpan (meanOf (servoTake s))) := by
  refine next_of (exec_servoUpdate h) ?_
  generalize meanOf (servoTake s) = o at ho ⊢
  rw [correct_backward (s := servoTaken s) hh ho]
  obtain ⟨hm, hs⟩ := endCorrection_meas (servoTaken s) o
  split
  · rename_i hc
    exact ⟨rfl, rfl, rfl, hc, rfl⟩
  · rw [stepBackward_time, corrBegin_time]
    exact ⟨hm, hs, endCorrection_acc _ _, rfl, rfl⟩

/-! ### Pulses of the event matrix -/

/-- A pulse reaches only the inputs of cores and the registers of DMA channels. -/
theorem evPulse_low (s : State) (src : Nat) : LowRegs s (evPulse s src) := by
  refine .foldl fun s e _ => ?_
  unfold linePulse
  dsimp only
  refine .trans (.foldl fun s e _ => .of_only inputPulse_only) (.foldl fun s e _ => ?_)
  unfold trigPulse
  dsimp only
  split
  · exact .of_regs rfl
  · exact regAdd_low (by unfold aDma; omega)

/-! ### Measurements and edges of `PPS_IN` (R33) -/

theorem measure_meas (s : State) (o : Int) : (measure s o).time.meas = s.time.meas ++ [o] ∧ (measure s o).time.lastPps = s.time.lastPps := by
  unfold measure
  dsimp only
  generalize (if o.natAbs ≤ 100 then s.time.lockRun + 1 else 0) = run
  split
  · exact ⟨rfl, rfl⟩
  · split <;> exact ⟨rfl, rfl⟩

/-- A measurement writes `TIME_OFFSET`, `TIME_SRC_STAT` and `TIME_STAT`. -/
theorem measure_reg {s : State} {o : Int} {a : Nat} (h1 : a ≠ aTimeOffset) (h2 : a ≠ aTimeSrcStat) (h3 : a ≠ aTimeStat) :
    regGet (measure s o) a = regGet s a := by
  have h0 (u : State) : regGet (regSetField (regSetBit (putOffset u aTimeOffset o) aTimeSrcStat 4 false) aTimeSrcStat 2 0 (timeSrc s)) a =
      regGet u a := by
    rw [regGet_regSetField_other h2, regGet_regSetBit_other h2]
    exact regGet_regPut_other h1
  unfold measure
  dsimp only
  generalize (if o.natAbs ≤ 100 then s.time.lockRun + 1 else 0) = run
  split
  · rw [regGet_regSetBit_other h2]; exact h0 _
  · split
    · rw [regGet_sqcSet_other h3, regGet_regSetBit_other h2]; exact h0 _
    · exact h0 _

/-- An edge of `PPS_IN` is accepted: the pin's time is captured. -/
def ppsTaken (s : State) : State :=
  evPulse (regPut64 { (agentNext s agAiring).2 with time := { (agentNext s agAiring).2.time with lastPps := some s.time.clk } }
    aTimePpsLo aTimePpsHi (capStamp s)) srcPpsIn

theorem exec_ppsInEdge {s : State} (hv : s.pwr.vault = false) (hn : ∀ a, s.time.lastPps = some a → 225000000 ≤ s.time.clk - a) :
    exec .ppsInEdge s = .next (if timeSrc s = 1 ∧ !s.time.ctBack then measure (ppsTaken s) (ctFraction s) else ppsTaken s) := by
  have near : (match s.time.lastPps with | some t => decide (s.time.clk - t < 225000000) | none => false) ≠ true := by
    cases h : s.time.lastPps with
    | none => simp
    | some a => simpa using hn a h
  exact congrArg Host.Outcome.next ((if_neg (by simp [hv])).trans (if_neg near))

theorem next_ppsInEdge {s : State} (hv : s.pwr.vault = false) (hn : ∀ a, s.time.lastPps = some a → 225000000 ≤ s.time.clk - a) :
    Next .ppsInEdge s (fun t => t.time.lastPps = some s.time.clk ∧ regGet64 t aTimePpsLo aTimePpsHi = capStamp s ∧
      t.time.meas = (if timeSrc s = 1 ∧ s.time.ctBack = false then s.time.meas ++ [ctFraction s] else s.time.meas)) := by
  have ht : (ppsTaken s).time = { s.time with lastPps := some s.time.clk } := evPulse_only.time_eq
  have hr : regGet64 (ppsTaken s) aTimePpsLo aTimePpsHi = capStamp s :=
    (regGet64_congr (evPulse_low _ _ _ (by decide)) (evPulse_low _ _ _ (by decide))).trans (regGet64_regPut64_same (by decide))
  refine next_of (exec_ppsInEdge hv hn) ?_
  by_cases h : timeSrc s = 1 ∧ s.time.ctBack = false
  · obtain ⟨hm, hl⟩ := measure_meas (ppsTaken s) (ctFraction s)
    rw [if_pos ⟨h.1, by simp [h.2]⟩, if_pos h, hm, hl, ht]
    refine ⟨rfl, ?_, rfl⟩
    rw [regGet64_congr (measure_reg (by decide) (by decide) (by decide)) (measure_reg (by decide) (by decide) (by decide)), hr]
  · rw [if_neg (by simpa using h), if_neg h, ht]
    exact ⟨rfl, hr, rfl⟩

/-- An edge less than 0.9 s after the last is not accepted: an event. -/
theorem next_ppsInEdge_early {s : State} {a : Nat} (hv : s.pwr.vault = false) (ha : s.time.lastPps = some a)
    (hn : s.time.clk - a < 225000000) : Next .ppsInEdge s (fun t => t.time = s.time ∧ bitOf (regGet t aTimeStat) 7 = true) := by
  have near : (match s.time.lastPps with | some t => decide (s.time.clk - t < 225000000) | none => false) = true := by
    rw [ha]; exact decide_eq_true hn
  refine next_of (t := sqcSet s aTimeStat 7) (congrArg Host.Outcome.next ((if_neg (by simp [hv])).trans (if_pos near))) ⟨rfl, ?_⟩
  rw [regGet_sqcSet_same, bitOf_sqcWord (by decide) (by decide)]
  rfl

/-! ### A lost source, reference or crystal (R33, R34, R39, R40) -/

/-- A lost source leaves holdover. -/
theorem sourceLost_holdover (s : State) : bitOf (regGet (sourceLost s) aTimeSrcStat) 4 = true := by
  unfold sourceLost
  split
  · assumption
  · dsimp only
    rw [wakeUp_srcStat (by decide), regGet_sqcSet_other (by decide), regGet_regSetField_same, bitOf_putField (by decide) (by decide),
      if_neg (by decide)]
    refine (congrArg (bitOf · 4) regGet_regSetBit_same).trans ?_
    rw [bitOf_putBit (by decide), if_neg (by decide), regGet_regSetBit_same, bitOf_putBit (by decide), if_pos rfl]

theorem next_ppsSourceTimeout {s : State} (h : timeSrc s = 1) (hs : sourceSilent s s.time.lastPps 2 = true) :
    Next .ppsSourceTimeout s (fun t => bitOf (regGet t aTimeSrcStat) 4 = true) :=
  next_of (congrArg Host.Outcome.next (if_pos ⟨h, hs⟩)) (sourceLost_holdover s)

theorem next_ptpSyncTimeout {s : State} (h : timeSrc s = 2) (hs : sourceSilent s s.time.lastSync 3 = true) :
    Next .ptpSyncTimeout s (fun t => bitOf (regGet t aTimeSrcStat) 4 = true) :=
  next_of (congrArg Host.Outcome.next (if_pos ⟨h, hs⟩)) (sourceLost_holdover s)

theorem next_rtcCrystalStop (s : State) :
    Next .rtcCrystalStop s (fun t => bitOf (regGet t aTimeSrcStat) 7 = true ∧ bitOf (regGet t aTimeStat) 10 = true) := by
  refine next_of (t := sqcSet (regSetBit s aTimeSrcStat 7 true) aTimeStat 10) rfl ⟨?_, ?_⟩
  · rw [regGet_sqcSet_other (by decide), regGet_regSetBit_same, bitOf_putBit (by decide), if_pos rfl]
  · rw [regGet_sqcSet_same, bitOf_sqcWord (by decide) (by decide)]
    rfl

/-- The next reference is one of sixteen. -/
theorem nextRef_lt {s : State} {alive r : Nat} (h : nextRef s alive = some r) : r < 16 := by
  unfold nextRef at h
  obtain ⟨i, -, rfl⟩ := List.mem_map.1 (List.mem_of_find?_eq_some h)
  exact Nat.mod_lt _ (by decide)

theorem next_airingRefLoss {s : State} {alive r : Nat} (hv : s.pwr.vault = false) (h : nextRef s alive = some r) :
    Next (.airingRefLoss alive) s (fun t => regField t aTimeSrcStat 15 12 = r) := by
  refine next_of (congrArg Host.Outcome.next ((if_neg (by simp [hv])).trans (by rw [h]))) ?_
  unfold regField
  rw [tallyPut_low _ _ _ _ _ (by decide), regGet_sqcSet_other (by decide), regGet_regSetField_same,
    fieldOf_putField_same (by decide) (by decide)]
  exact Nat.mod_eq_of_lt (nextRef_lt h)

theorem next_airingRefLoss_none {s : State} {alive : Nat} (hv : s.pwr.vault = false) (h : nextRef s alive = none) :
    Next (.airingRefLoss alive) s (fun t => bitOf (regGet t aTimeSrcStat) 6 = true) := by
  refine next_of (congrArg Host.Outcome.next ((if_neg (by simp [hv])).trans (by rw [h]))) ?_
  rw [regGet_sqcSet_other (by decide), regGet_regSetBit_same, bitOf_putBit (by decide), if_pos rfl]

/-! ### Whole seconds (R36, R38) -/

theorem next_ppsOutSecond {s : State} (hv : s.pwr.vault = false) (hd : s.time.ppsDue = true) : Next .ppsOutSecond s (fun t =>
    t = { s with time := { s.time with ppsDue := false, ppsOut := true, ppsRise := s.time.clk } }) :=
  next_of (congrArg Host.Outcome.next (if_neg (by simp [hv, hd]))) rfl

theorem next_ppsOutSecond_none {s : State} (h : s.pwr.vault = true ∨ s.time.ppsDue = false) : Next .ppsOutSecond s (fun t => t = s) :=
  next_of (congrArg Host.Outcome.next (if_pos (by simpa using h))) rfl

theorem next_ppsOutPulseEnd {s : State} (ho : s.time.ppsOut = true) (hd : s.time.ppsRise + s.time.ppsWidth * cycMs ≤ s.time.clk) :
    Next .ppsOutPulseEnd s (fun t => t.time.ppsOut = false) :=
  next_of (congrArg Host.Outcome.next (if_pos (by simp [ho, hd]))) rfl

theorem next_rtcCopy {s : State} (hv : s.pwr.vault = false) (hd : s.time.rtcDue = true) : Next .rtcCopy s (fun t =>
    t.time.rtc = BitVec.ofNat 64 ((nowCt s).toNat / 2 ^ 24 * 2 ^ 24) ∧ t.time.rtcPart = 0 ∧ t.time.rtcDue = false) :=
  next_of (congrArg Host.Outcome.next (if_neg (by simp [hv, hd]))) ⟨congrArg (BitVec.ofNat 64) (Nat.mul_comm _ _), rfl, rfl⟩

theorem next_rtcCopy_none {s : State} (h : s.pwr.vault = true ∨ s.time.rtcDue = false) : Next .rtcCopy s (fun t => t = s) :=
  next_of (congrArg Host.Outcome.next (if_pos (by simpa using h))) rfl

end Sys2Proof.Machine
end

section
set_option Elab.async false

/-! SUPPORT. Precision time on a port: what a message meets that arrives, and what a master sends (R298, R299). -/

namespace Sys2Proof.Machine

/-! ### The fast domain's clock (Table 2-5) -/

theorem touchFast_reg {s : State} {a : Nat} (h : a ≠ aPwrState) : regGet (touchFast s) a = regGet s a := by
  unfold touchFast
  dsimp only
  split
  · rw [regGet_congr lintDiscard_only.regs_eq]
    exact (regGet_regSetField_other h).trans (regGet_withPwr s _ a)
  · exact regGet_withPwr s _ a

theorem pwrMode_touchFast (s : State) : pwrMode (touchFast s) = if pwrMode s = 1 then 0 else pwrMode s := by
  unfold touchFast
  dsimp only
  split
  · rw [pwrMode_congr (regGet_congr lintDiscard_only.regs_eq _)]
    exact pwrMode_setPwrMode _ 0
  · exact pwrMode_congr (regGet_withPwr s _ _)

/-! ### The registers of a port -/

theorem lnkAdd64_reg {s : State} {p off n a : Nat} (h1 : a ≠ aLnk p off) (h2 : a ≠ aLnk p (off + 4)) :
    regGet (lnkAdd64 s p off n) a = regGet s a := regGet_regPut64_other h1 h2

/-- The counts of received frames are no part of a port's configuration. -/
theorem rxCount_reg {s : State} {p a : Nat} {f : List Byte} (h : a < aLnk p 0x100) : regGet (rxCount s p f) a = regGet s a := by
  unfold aLnk at h
  unfold rxCount
  rw [lnkAdd64_reg (by unfold aLnk; omega) (by unfold aLnk; omega), lnkAdd64_reg (by unfold aLnk; omega) (by unfold aLnk; omega)]

/-- What a port does with a frame is read from its configuration registers. -/
theorem rxEncap_congr {s t : State} {p : Nat} (h : ∀ k, k < 0x100 → regGet t (aLnk p k) = regGet s (aLnk p k)) (f : List Byte) :
    rxEncap t p f = rxEncap s p f := by
  have hip (n : Nat) : portIp t p n = portIp s p n := by
    unfold portIp
    refine congrArg (List.take n) (List.flatMap_congr fun i hi => ?_)
    rw [h _ (by have := List.mem_range.1 hi; omega)]
  have hud : udpRead t p = udpRead s p := by unfold udpRead regField; rw [h 0x40 (by decide)]
  have hen : encapRead t p = encapRead s p := by
    unfold encapRead portEncap regField
    rw [h 4 (by decide), h 0x10 (by decide), hip, hip, hud]
  have hf : ethFits t p f = ethFits s p f := by
    unfold ethFits portVlan regField; rw [h 4 (by decide), h 0x14 (by decide)]
  unfold rxEncap
  rw [hen, hf]

theorem rxWhole_congr {s t : State} {p : Nat} (h : regGet t (aLnk p 0x1C) = regGet s (aLnk p 0x1C)) {f : List Byte}
    (hw : rxWhole s p f true = none) : rxWhole t p f true = none := by
  unfold rxWhole portMax regField at hw ⊢
  rw [h]
  split at hw
  · cases hw
  · split at hw
    · cases hw
    · rename_i h1 h2
      rw [if_neg h1, if_neg h2]

/-! ### A message arrives -/

/-- The state in which a message that arrived on port `p` in frame `f` is read; `d` is the mean path delay that the slave clock has found. -/
def ptpRead (s : State) (p : Nat) (f : List Byte) (d : Nat) : State :=
  rxCount (touchFast { s with time := { s.time with ptpDelay := d } }) p f

theorem ptpRead_only (s : State) (p : Nat) (f : List Byte) (d : Nat) : Only 1048604 s (ptpRead s p f d) :=
  rxCount_only.step rfl (touchFast_only.step rfl (Only.upd rfl .refl))

theorem ptpRead_reg {s : State} {p d a : Nat} {f : List Byte} (h : a < aLnk p 0x100) (hp : a ≠ aPwrState) :
    regGet (ptpRead s p f d) a = regGet s a := by
  unfold ptpRead
  rw [rxCount_reg h, touchFast_reg hp]
  rfl

theorem ptpRead_time (s : State) (p : Nat) (f : List Byte) (d : Nat) : (ptpRead s p f d).time = { s.time with ptpDelay := d } :=
  rxCount_only.time_eq.trans touchFast_only.time_eq

theorem touchFast_vault (s : State) : (touchFast s).pwr.vault = s.pwr.vault := by
  unfold touchFast
  dsimp only
  split
  · rw [lintDiscard_only.pwr_eq]; rfl
  · rfl

theorem ptpRead_vault (s : State) (p : Nat) (f : List Byte) (d : Nat) : (ptpRead s p f d).pwr.vault = s.pwr.vault := by
  unfold ptpRead
  rw [rxCount_only.pwr_eq]
  exact touchFast_vault _

theorem pwrMode_ptpRead (s : State) (p : Nat) (f : List Byte) (d : Nat) : pwrMode (ptpRead s p f d) = if pwrMode s = 1 then 0 else pwrMode s := by
  unfold ptpRead
  rw [pwrMode_congr (rxCount_reg (by unfold aLnk aPwrState; omega)), pwrMode_touchFast]
  rfl

theorem portUp_ptpRead {s : State} {p d : Nat} {f : List Byte} (h : portUp s p = true) : portUp (ptpRead s p f d) p = true := by
  have hl : portGet (ptpRead s p f d) p = portGet s p := by unfold portGet; rw [(ptpRead_only s p f d).links_eq]
  unfold portUp at h ⊢
  rw [hl, ptpRead_vault, pwrMode_ptpRead]
  simp only [Bool.and_eq_true, decide_eq_true_eq] at h ⊢
  exact ⟨h.1, by split <;> omega⟩

theorem ptpMaster_ptpRead {s : State} {p d : Nat} {f : List Byte} (h : ptpMaster s p = true) : ptpMaster (ptpRead s p f d) p = true := by
  have ho := ptpRead_only s p f d
  have hr : portPtp (ptpRead s p f d) p = portPtp s p := by
    unfold portPtp regField
    rw [ptpRead_reg (by unfold aLnk; omega) (by unfold aLnk aPwrState; omega)]
  unfold ptpMaster linkReady at h ⊢
  simp only [Bool.and_eq_true] at h ⊢
  rw [hr, ho.tortin_eq, ho.seam_eq, ptpRead_reg (by unfold aLnk aTimeSrcStat; omega) (by decide)]
  exact ⟨⟨⟨h.1.1.1, portUp_ptpRead h.1.1.2⟩, h.1.2⟩, h.2⟩

theorem ptpSlave_ptpRead {s : State} {p d n : Nat} {f : List Byte} : ptpSlave (ptpRead s p f d) p n = ptpSlave s p n := by
  have ho := ptpRead_only s p f d
  have hr : portPtp (ptpRead s p f d) p = portPtp s p := by
    unfold portPtp regField
    rw [ptpRead_reg (by unfold aLnk; omega) (by unfold aLnk aPwrState; omega)]
  unfold ptpSlave
  rw [hr, ptpRead_time, timeSrc_congr ho.seam_eq (ptpRead_reg (by unfold aLnk aTimeCtrl; omega) (by decide))]

/-- A message that arrives on a port that is up is read (R298). -/
theorem exec_ptpMessageReceived {s : State} {p d : Nat} {f m : List Byte} (hu : portUp s p = true) (hh : (portGet s p).hold = false)
    (hw : rxWhole s p f true = none) (he : rxEncap s p f = .ptp m) :
    exec (.ptpMessageReceived p f true d) s = .next (ptpReceive (ptpRead s p f d) p (nowStamp s) m) := by
  have hreg (k : Nat) (hk : k < 0x100) : regGet (ptpRead s p f d) (aLnk p k) = regGet s (aLnk p k) :=
    ptpRead_reg (by unfold aLnk; omega) (by unfold aLnk aPwrState; omega)
  have ha : ptpArrive (touchFast { s with time := { s.time with ptpDelay := d } }) p f true (nowStamp s) =
      ptpReceive (ptpRead s p f d) p (nowStamp s) m := by
    show (match rxWhole (ptpRead s p f d) p f true with
      | some s2 => s2
      | none => match rxEncap (ptpRead s p f d) p f with
        | .ptp m => ptpReceive (ptpRead s p f d) p (nowStamp s) m
        | .macControl => lnkEvent (lnkCount (ptpRead s p f d) p 0x160) p 10
        | .bad => lnkCount (ptpRead s p f d) p 0x128
        | .ffp _ _ => touchFast { s with time := { s.time with ptpDelay := d } }) = _
    rw [rxWhole_congr (hreg 0x1C (by decide)) hw, rxEncap_congr hreg, he]
  exact congrArg Host.Outcome.next ((if_neg (by simp [hu])).trans ((if_neg (by simp [hh])).trans ha))

theorem portGet_congr {s t : State} (h : t.links = s.links) (p : Nat) : portGet t p = portGet s p := by unfold portGet; rw [h]

/-- A FIFO with a place left takes an entry. -/
theorem ptpPush_eq {s : State} {p : Nat} {e : PtpEntry} (h : (portGet s p).ptp.length < 64) :
    ptpPush s p e = portPut s p { portGet s p with ptp := (portGet s p).ptp ++ [e] } := if_neg (by omega)

theorem ptpSend_out (s : State) (p k : Nat) (m : List Byte) : ∃ bs, (ptpSend s p k m).out = .ptp p k bs :: s.out :=
  ⟨ptpFrame s p k m, congrArg _ ((lnkAdd64_only (off := 0x118)).out_eq.trans lnkAdd64_only.out_eq)⟩

/-- The entry that a message which arrives on port `p` makes in the port's FIFO (R297). -/
def ptpArrival (s : State) (p : Nat) (stamp : Stamp) (m : List Byte) : PtpEntry :=
  { stamp := stamp - BitVec.ofNat 64 (nsToStamp (regField s (aLnk p 0x44) 15 0)), seq := beAt m 30 2, kind := byteAt m 0 % 16, domain := byteAt m 4,
    sent := false }

theorem ptpFull_false {s : State} {p : Nat} (h : (portGet s p).ptp.length < 64) : ptpFull s p = false := decide_eq_false (by omega)

/-- A master answers a Delay_Req of its domain (R299). -/
theorem ptpReceive_delayReq {s : State} {p : Nat} {stamp : Stamp} {m : List Byte} (hk : byteAt m 0 % 16 = 1) (hr : s.tortin.ready = true)
    (hf : (portGet s p).ptp.length < 64) (hm : ptpMaster s p = true) (hd : byteAt m 4 = s.time.ptpDomain) (hs : linkServes s = true) :
    ∃ bs, (ptpReceive s p stamp m).out = .ptp p 9 bs :: s.out := by
  have he : ∃ b, ptpReceive s p stamp m = ptpSend (ptpDrop (ptpPush s p (ptpArrival s p stamp m)) p (ptpArrival s p stamp m)) p 9 b := by
    unfold ptpReceive ptpArrival
    simp [hk, hr, ptpFull_false hf, hm, hd, hs]
  obtain ⟨b, he⟩ := he
  obtain ⟨bs, hb⟩ := ptpSend_out (ptpDrop (ptpPush s p (ptpArrival s p stamp m)) p (ptpArrival s p stamp m)) p 9 b
  exact ⟨bs, by rw [he, hb, ptpDrop_only.out_eq, ptpPush_only.out_eq]⟩

/-- A slave keeps a Sync until its Follow_Up (R298). -/
theorem ptpReceive_sync {s : State} {p : Nat} {stamp : Stamp} {m : List Byte} (hk : byteAt m 0 % 16 = 0) (hr : s.tortin.ready = true)
    (hf : (portGet s p).ptp.length < 64) (hm : ptpSlave s p (byteAt m 4) = true) :
    ptpReceive s p stamp m = ptpPush s p (ptpArrival s p stamp m) := by
  unfold ptpReceive ptpArrival
  simp [hk, hr, ptpFull_false hf, hm]

end Sys2Proof.Machine
end

section
set_option Elab.async false

/-! SUPPORT: what a PTP port does with the messages that arrive and what a master sends (O33). -/

namespace Sys2Proof.Machine

open Host Sys2Proof

/-- A port that is up answers a Delay_Req of its domain (R299). -/
theorem next_ptpDelayReq {s : State} {p d : Nat} {f m : List Byte} (hu : portUp s p = true) (hh : (portGet s p).hold = false)
    (hw : rxWhole s p f true = none) (he : rxEncap s p f = .ptp m) (hr : s.tortin.ready = true) (hk : byteAt m 0 % 16 = 1)
    (hd : byteAt m 4 = s.time.ptpDomain) (hp : pwrMode s < 2) (hm : ptpMaster s p = true) (hf : (portGet s p).ptp.length < 64) :
    Next (.ptpMessageReceived p f true d) s (fun t => ∃ bs, t.out = .ptp p 9 bs :: s.out) := by
  have ho := ptpRead_only s p f d
  have hl := portGet_congr ho.links_eq p
  have hs : linkServes (ptpRead s p f d) = true := by
    have h1 : linkReady s = true := by unfold ptpMaster at hm; simp only [Bool.and_eq_true] at hm; exact hm.1.2
    unfold linkServes linkReady at *
    rw [ho.tortin_eq, ho.seam_eq, h1, pwrMode_ptpRead, Bool.true_and]
    exact decide_eq_true (by split <;> omega)
  refine next_of (exec_ptpMessageReceived hu hh hw he) ?_
  obtain ⟨bs, hb⟩ := ptpReceive_delayReq (s := ptpRead s p f d) (stamp := nowStamp s) hk (by rw [ho.tortin_eq]; exact hr) (by rw [hl]; exact hf)
    (ptpMaster_ptpRead hm) (by rw [ptpRead_time]; exact hd) hs
  exact ⟨bs, by rw [hb, ho.out_eq]⟩

/-- A slave keeps a Sync with the Stamp of its arrival (R298). -/
theorem next_ptpSync {s : State} {p d : Nat} {f m : List Byte} (hu : portUp s p = true) (hh : (portGet s p).hold = false)
    (hw : rxWhole s p f true = none) (he : rxEncap s p f = .ptp m) (hr : s.tortin.ready = true) (hk : byteAt m 0 % 16 = 0)
    (hm : ptpSlave s p (byteAt m 4) = true) (hf : (portGet s p).ptp.length < 64) :
    Next (.ptpMessageReceived p f true d) s (fun t => ∃ e, (portGet t p).ptp = (portGet s p).ptp ++ [e] ∧ e.seq = beAt m 30 2 ∧
      e.stamp = nowStamp s - BitVec.ofNat 64 (nsToStamp (regField s (aLnk p 0x44) 15 0))) := by
  have ho := ptpRead_only s p f d
  have hl := portGet_congr ho.links_eq p
  have hq : (portGet (ptpRead s p f d) p).ptp.length < 64 := by rw [hl]; exact hf
  have hreg : regGet (ptpRead s p f d) (aLnk p 0x44) = regGet s (aLnk p 0x44) :=
    ptpRead_reg (by unfold aLnk; omega) (by unfold aLnk aPwrState; omega)
  refine next_of (exec_ptpMessageReceived hu hh hw he) ⟨ptpArrival (ptpRead s p f d) p (nowStamp s) m, ?_, rfl, ?_⟩
  · rw [ptpReceive_sync hk (by rw [ho.tortin_eq]; exact hr) hq (by rw [ptpSlave_ptpRead]; exact hm), ptpPush_eq hq, portGet_portPut_same, hl]
  · unfold ptpArrival regField
    rw [hreg]

/-! ### What a master sends -/

/-- A master that sends from AIRING wakes the device; its ports stand as they stood. -/
theorem ptpWake_links (s : State) : (ptpWake s).links = s.links := by
  unfold ptpWake
  split
  · rcases wakeUp_cases s 4 with e | ⟨h, -⟩ | ⟨-, e⟩
    · rw [e]
    · omega
    · rw [e, pwrSteps_only.links_eq]; exact (wakeNote_only (s := s) (cause := 4)).links_eq
  · rfl

theorem ptpWake_out (s : State) : (ptpWake s).out = s.out := by
  unfold ptpWake
  split
  · exact wakeUp_only.out_eq
  · rfl

theorem ptpSend_portGet (s : State) (p k q : Nat) (m : List Byte) : portGet (ptpSend s p k m) q = portGet s q := portGet_congr ptpSend_only.links_eq q

/-- The state in which a master that sends a Sync at a second has counted it. -/
def syncBegun (s : State) (p : Nat) : State :=
  portPut { ptpWake s with time := { (ptpWake s).time with syncSeq := s.time.syncSeq + 1 } } p
    { portGet (ptpWake s) p with syncAt := s.time.clk }

/-- A master whose FIFO has a place sends a Sync and the Follow_Up with the Stamp of its departure (R299). -/
theorem exec_ptpMasterSync {s : State} {p : Nat} (hm : ptpMaster s p = true) (hc : (portGet s p).syncAt + cycS ≤ s.time.clk)
    (hf : (portGet s p).ptp.length < 64) :
    ∃ e a b, exec (.ptpMasterSync p) s = .next (ptpSend (ptpDrop (ptpSend (ptpPush (syncBegun s p) p e) p 0 a) p e) p 8 b) := by
  have hg : ¬ ((!ptpMaster s p) = true ∨ s.time.clk < (portGet s p).syncAt + cycS) := by simp [hm]; omega
  have hq : ¬ ptpFull (ptpWake s) p = true := by
    rw [ptpFull_false (by rw [portGet_congr (ptpWake_links s)]; exact hf)]; decide
  exact ⟨_, _, _, congrArg Host.Outcome.next ((if_neg hg).trans (if_neg hq))⟩

theorem syncBegun_port {s : State} {p : Nat} : (portGet (syncBegun s p) p).ptp = (portGet s p).ptp ∧
    (portGet (syncBegun s p) p).syncAt = s.time.clk := by
  unfold syncBegun
  rw [portGet_portPut_same, portGet_congr (ptpWake_links s)]
  exact ⟨rfl, rfl⟩

theorem ptpDrop_syncAt (s : State) (p : Nat) (e : PtpEntry) : (portGet (ptpDrop s p e) p).syncAt = (portGet s p).syncAt := by
  unfold ptpDrop
  rw [portGet_portPut_same]

/-- A master sends a Sync and its Follow_Up once a second (R299). -/
theorem next_ptpMasterSync {s : State} {p : Nat} (hm : ptpMaster s p = true) (hc : (portGet s p).syncAt + cycS ≤ s.time.clk)
    (hf : (portGet s p).ptp.length < 64) :
    Next (.ptpMasterSync p) s (fun t => (∃ a b, t.out = .ptp p 8 b :: .ptp p 0 a :: s.out) ∧ t.time.syncSeq = s.time.syncSeq + 1 ∧
      (portGet t p).syncAt = s.time.clk) := by
  obtain ⟨e, a, b, he⟩ := exec_ptpMasterSync hm hc hf
  obtain ⟨hfifo, hat⟩ := syncBegun_port (s := s) (p := p)
  obtain ⟨f, hsync⟩ := ptpSend_out (ptpPush (syncBegun s p) p e) p 0 a
  obtain ⟨g, hfollow⟩ := ptpSend_out (ptpDrop (ptpSend (ptpPush (syncBegun s p) p e) p 0 a) p e) p 8 b
  refine next_of he ⟨⟨f, g, ?_⟩, ?_, ?_⟩
  · rw [hfollow, ptpDrop_only.out_eq, hsync, ptpPush_only.out_eq]
    exact congrArg (fun o => _ :: _ :: o) (ptpWake_out s)
  · rw [ptpSend_only.time_eq, ptpDrop_only.time_eq, ptpSend_only.time_eq, ptpPush_only.time_eq]
    rfl
  · rw [ptpSend_portGet, ptpDrop_syncAt, ptpSend_portGet, ptpPush_eq (by rw [hfifo]; exact hf), portGet_portPut_same]
    exact hat

/-- A master announces itself once a second (R299). -/
theorem next_ptpAnnounce {s : State} {p : Nat} (hm : ptpMaster s p = true) (hc : (portGet s p).annAt + cycS ≤ s.time.clk) :
    Next (.ptpAnnounce p) s (fun t => (∃ b, t.out = .ptp p 0xB b :: s.out) ∧ t.time.annSeq = s.time.annSeq + 1 ∧
      (portGet t p).annAt = s.time.clk) := by
  have hg : ¬ ((!ptpMaster s p) = true ∨ s.time.clk < (portGet s p).annAt + cycS) := by simp [hm]; omega
  refine next_of (congrArg Host.Outcome.next (if_neg hg)) ⟨?_, ?_, ?_⟩
  · obtain ⟨bs, hb⟩ := ptpSend_out _ p 0xB _
    exact ⟨bs, hb.trans (congrArg _ (ptpWake_out s))⟩
  · rw [ptpSend_only.time_eq]
    rfl
  · rw [ptpSend_portGet, portGet_portPut_same]

end Sys2Proof.Machine
end

section
set_option Elab.async false

/-! SUPPORT: the settled statement O33. -/

namespace Sys2Proof.Machine

open Host Sys2Proof

/-- A read of the low half of the Stamp answers with it and keeps the high half (R34). -/
theorem next_timeNowLoRead {s : State} {r : Requester} (hv : s.pwr.vault = false) (hm : pwrMode s ≤ 1) (hi : r.isHost = false → procRuns s = true)
    (hp : ∀ p, r = .fn p → portThere s p = true) (hc : (cpCheck s r aTimeNowLo .read).1 = true) :
    Next (.timeNowLoRead r) s (fun t => t.out = .reply r aTimeNowLo ((nowStamp s).extractLsb' 0 32) :: s.out ∧ t.time = s.time ∧
      latchGet t r aTimeNowHi = (nowStamp s).extractLsb' 32 32) := by
  obtain ⟨t, he, hout, htime, hlatch⟩ := loHalfRead_served (v := nowStamp s) (by decide) hv hm hi hp hc (resolve_timeNowLo r) fun u hn _ => by
    exact congrArg some hn
  exact next_of (congrArg Host.Outcome.next he) ⟨hout, htime, hlatch⟩

/-- A read of the low half of calendar time answers with it (R34, R37). -/
theorem next_timeCtLoRead {s : State} {r : Requester} (hv : s.pwr.vault = false) (hm : pwrMode s ≤ 1) (hi : r.isHost = false → procRuns s = true)
    (hp : ∀ p, r = .fn p → portThere s p = true) (hc : (cpCheck s r aTimeCtLo .read).1 = true) :
    Next (.timeCtLoRead r) s (fun t => t.out = .reply r aTimeCtLo ((nowCt s).extractLsb' 0 32) :: s.out ∧ t.time = s.time) := by
  obtain ⟨t, he, hout, htime, -⟩ := loHalfRead_served (v := nowCt s) (by decide) hv hm hi hp hc (resolve_timeCtLo r) fun u _ hn => by
    exact congrArg some hn
  exact next_of (congrArg Host.Outcome.next he) ⟨hout, htime⟩

/-- Settles O33, from one lemma for each command, read and event. -/
theorem timeCommandsReadsAndEvents : Obligations.TimeCommandsReadsAndEvents := by
  unfold Obligations.TimeCommandsReadsAndEvents
  refine ⟨fun tag s c => ⟨next_timeSetCt, fun here => next_timeSetSource, next_timeSetSource_absent, next_timeSetPpsOut, next_timeSleepPolicy,
      next_timeStandby, specTime_late s c, fun r hv hm hi hp hn hct => ⟨next_timeNowLoRead hv hm hi hp hn, next_timeCtLoRead hv hm hi hp hct⟩,
      fun p hv hp hm => ⟨next_of rfl (loHalfRead_held hv hp hm), next_of rfl (loHalfRead_held hv hp hm)⟩,
      fun r hv => ⟨next_of rfl (loHalfRead_vault hv), next_of rfl (loHalfRead_vault hv)⟩⟩, fun s => ?_⟩
  refine ⟨fun ha hv adj he => ⟨next_timeStep_forward ha hv he, next_timeStep_backward ha hv he⟩,
    fun h hh => ⟨next_servoUpdate_forward h hh, next_servoUpdate_backward h hh⟩, next_servoUpdate_idle, next_ppsInEdge,
    fun a => next_ppsInEdge_early, next_ppsSourceTimeout, next_ptpSyncTimeout, next_ppsOutSecond, next_ppsOutSecond_none, next_ppsOutPulseEnd,
    next_rtcCopy, next_rtcCopy_none, next_rtcCrystalStop s, fun hv alive => ⟨fun r => next_airingRefLoss hv, next_airingRefLoss_none hv⟩, ?_, ?_⟩
  · exact fun p f m d _ hu hh hw he hr => ⟨fun hk hd hp hm hf => next_ptpDelayReq hu hh hw he hr hk hd hp hm hf,
      fun hk hm hf => next_ptpSync hu hh hw he hr hk hm hf⟩
  · exact fun p _ hm => ⟨next_ptpMasterSync hm, next_ptpAnnounce hm⟩

end Sys2Proof.Machine
end

section
set_option Elab.async false

/-! SUPPORT: what a device reset keeps and what it loses (O49, Table 20-2). -/

namespace Sys2Proof.Machine

open Host Sys2Proof

theorem tblFind_map {α β : Type} (f : α → β) (k : Nat) (t : Tbl α) : tblFind k (tblMap f t) = (tblFind k t).map f := by
  induction t with
  | nil => rfl
  | cons e t ih =>
    show (if e.1 = k then some (f e.2) else tblFind k (tblMap f t)) = (if e.1 = k then some e.2 else tblFind k t).map f
    rw [ih]
    split <;> rfl

/-- An entry whose key is kept reads as before. -/
theorem tblFind_keep {α : Type} {p : Nat → Bool} {k : Nat} {t : Tbl α} (h : p k = true) : tblFind k (tblKeep (fun a _ => p a) t) = tblFind k t := by
  induction t with
  | nil => rfl
  | cons e t ih =>
    unfold tblKeep at ih ⊢
    rw [List.filter_cons]
    by_cases hk : e.1 = k
    · rw [if_pos (by rw [hk]; exact h)]
      show (if e.1 = k then _ else _) = if e.1 = k then _ else _
      rw [if_pos hk, if_pos hk]
    · have : tblFind k (e :: t) = tblFind k t := if_neg hk
      rw [this, ← ih]
      split
      · exact if_neg hk
      · rfl

/-- An entry whose key is dropped is absent. -/
theorem tblFind_drop {α : Type} {p : Nat → Bool} {k : Nat} {t : Tbl α} (h : p k = false) : tblFind k (tblKeep (fun a _ => p a) t) = none := by
  induction t with
  | nil => rfl
  | cons e t ih =>
    unfold tblKeep at ih ⊢
    rw [List.filter_cons]
    split
    · rename_i hp
      exact (if_neg fun hk => Bool.false_ne_true ((hk ▸ h).symm.trans hp)).trans ih
    · exact ih

/-! ### The registers -/

/-- A register that stays over a reset reads as before; every other returns to its reset value. -/
theorem regGet_resetBase (s : State) (power : Bool) (a : Nat) :
    regGet (resetBase s power) a = if regStays power a then regGet s a else regReset a := by
  unfold regGet tblGet
  show (tblFind a (tblKeep (fun a _ => regStays power a) s.regs.file)).getD _ = _
  split
  · rename_i h; rw [tblFind_keep h]
  · rename_i h; rw [tblFind_drop (by simpa using h)]; rfl

theorem portsStop_low (s : State) : LowRegs s (portsStop s) := by
  refine .foldl fun s e he => .put ?_
  obtain ⟨h, -⟩ := of_decide_eq_true (List.mem_filter.1 he).2
  exact Nat.le_trans (by decide) h

theorem tallyAfter_low (s : State) : LowRegs s (tallyAfter s) := by
  unfold tallyAfter
  dsimp only
  refine .trans ?_ (tallyUnstage_low _)
  split
  · exact .of_regs rfl
  · exact .trans (.of_regs rfl) (regAdd_low (by decide))

theorem faultPin_reg {s : State} {a : Nat} (h : a ≠ aDevEvt) : regGet (faultPin s) a = regGet s a := by
  unfold faultPin
  dsimp only
  split
  · exact regGet_sqcSet_other h
  · rfl

/-- An event of the device stays when the fault pin rises. -/
theorem faultPin_evt {s : State} {i : Nat} (hi : i < 24) (h : bitOf (regGet s aDevEvt) i = true) :
    bitOf (regGet (faultPin s) aDevEvt) i = true := by
  unfold faultPin
  dsimp only
  split
  · rw [regGet_sqcSet_same, bitOf_sqcWord (by decide) hi]
    exact Bool.or_eq_true_iff.2 (.inr h)
  · exact h

/-! ### The Tally -/

/-- The appends of the Tally that wait for their record. -/
def SameWaiting (s t : State) : Prop := t.tally.ports = s.tally.ports ∧ t.tally.staging = s.tally.staging

theorem tallyRecord_waiting (s : State) (a : TallyApp) (cut : Bool) : SameWaiting s (tallyRecord s a cut) := by
  have store (u : State) (p : Nat) : SameWaiting u (tallyStore u p a cut) := by
    unfold tallyStore
    dsimp only
    split <;> exact ⟨rfl, rfl⟩
  unfold tallyRecord
  dsimp only
  split
  · exact ⟨rfl, rfl⟩
  · split
    · exact store _ _
    · split
      · exact ⟨rfl, rfl⟩
      · split
        · exact store _ _
        · exact ⟨(store _ _).1.trans rfl, (store _ _).2.trans rfl⟩

theorem tallyUnstage_waiting (s : State) : (tallyUnstage s).tally.ports = s.tally.ports ∧ (tallyUnstage s).tally.staging = [] := by
  have fold (l : List TallyApp) (u : State) : SameWaiting u (l.foldl (fun s a => tallyRecord s a false) u) := by
    induction l generalizing u with
    | nil => exact ⟨rfl, rfl⟩
    | cons a l ih =>
      obtain ⟨hp, hs⟩ := tallyRecord_waiting u a false
      obtain ⟨hp', hs'⟩ := ih (tallyRecord u a false)
      exact ⟨hp'.trans hp, hs'.trans hs⟩
  exact fold _ _

/-- The Tally at a reset, without the appends that waited at its ports. -/
def tallyStopped (s : State) : TallyState :=
  { s.tally with
    ports := [], flush := none, dropped := s.tally.dropped || decide (tallyWaiting s ≠ 0)
    abandoned := satAdd32 s.tally.abandoned (tblCount (fun (x : TallySlot) => !x.valid) s.tally.slots)
    slots := s.tally.slots.filter (fun e => e.2.valid) }

/-- A reset ends what waits at the ports and records what is staged. -/
theorem tallyAfter_eq (s : State) : ∃ u, u.tally = tallyStopped s ∧ tallyAfter s = tallyUnstage u := by
  unfold tallyAfter
  dsimp only
  split
  · exact ⟨_, rfl, rfl⟩
  · exact ⟨_, rfl, rfl⟩

theorem tallyAfter_waiting (s : State) : (tallyAfter s).tally.ports = [] ∧ (tallyAfter s).tally.staging = [] := by
  obtain ⟨u, hu, he⟩ := tallyAfter_eq s
  obtain ⟨hp, hs⟩ := tallyUnstage_waiting u
  rw [he]
  exact ⟨hp.trans (by rw [hu]; rfl), hs⟩

/-- A reset without staged appends keeps the whole records alone (R541). -/
theorem tallyAfter_slots {s : State} (h : s.tally.staging = []) : (tallyAfter s).tally.slots = s.tally.slots.filter (fun e => e.2.valid) := by
  obtain ⟨u, hu, he⟩ := tallyAfter_eq s
  have hs : u.tally.staging = [] := by rw [hu]; exact h
  rw [he]
  unfold tallyUnstage
  rw [hs, hu]
  rfl

/-! ### The device reset -/

/-- The state in which a device reset has stopped the blocks, before it counts itself. -/
def resetStopped (s : State) : State := tallyAfter (portsStop (resetBase (seamFarewell s .reset) false))

theorem resetStopped_only (s : State) : Only 2064 (resetBase (seamFarewell s .reset) false) (resetStopped s) :=
  tallyAfter_only.step rfl (portsStop_only.mono rfl)

theorem resetStopped_kept (s : State) :
    (resetStopped s).dev.dogAt = s.dev.dogAt ∧ (resetStopped s).boot.step = .fuses ∧ (resetStopped s).boot.ctl = s.boot.ctl := by
  have hs := resetStopped_only s
  have hf := seamFarewell_only (s := s) (cause := .reset)
  rw [hs.dev_eq, hs.boot_eq, ← hf.dev_eq, ← hf.boot_eq]
  exact ⟨rfl, rfl, rfl⟩

theorem resetStopped_waiting (s : State) : (resetStopped s).tally.ports = [] ∧ (resetStopped s).tally.staging = [] := by
  unfold resetStopped
  exact tallyAfter_waiting _

theorem resetStopped_slots {s : State} (h : s.tally.staging = []) :
    (resetStopped s).tally.slots = s.tally.slots.filter (fun e => e.2.valid) := by
  have hb : (portsStop (resetBase (seamFarewell s .reset) false)).tally = s.tally := portsStop_only.tally_eq.trans seamFarewell_only.tally_eq
  rw [resetStopped, tallyAfter_slots (by rw [hb]; exact h), hb]

/-- A device reset's own marks in a state whose blocks have stopped: its count, the cleared power state, the lost reference and the event. -/
def resetMarked (u : State) (d : DevState) (b : BootState) : State :=
  let s2 := { u with dev := d, boot := b }
  let s3 := regSetField (regSetField s2 aDevResetCnt 15 0 (min 0xFFFF (regField s2 aDevResetCnt 15 0 + 1))) aPwrState 4 0 0
  sqcSet (regSetBit s3 aTimeSrcStat 8 false) aDevEvt 5

/-- A device reset stops the blocks, marks itself, and sets the fault pin. -/
theorem deviceReset_steps (s : State) : ∃ d b, d.dogAt = s.dev.dogAt ∧ b.step = .fuses ∧ b.ctl = s.boot.ctl ∧
    deviceReset s = faultPin (resetMarked (resetStopped s) d b) := by
  obtain ⟨hdog, hstep, hctl⟩ := resetStopped_kept s
  unfold resetStopped at *
  unfold deviceReset resetMarked
  dsimp only
  generalize tallyAfter (portsStop (resetBase (seamFarewell s .reset) false)) = u at *
  refine ⟨_, _, ?_, ?_, ?_, rfl⟩
  exacts [hdog, hstep, hctl]

theorem resetMarked_only {u : State} {d : DevState} {b : BootState} : Only 142606384 u (resetMarked u d b) := by
  unfold resetMarked
  exact sqcSet_keep rfl (regSetBit_keep rfl (regSetField_keep rfl (regSetField_keep rfl (Only.upd rfl .refl))))

/-- A device reset counts itself (R544). -/
theorem resetMarked_count (u : State) (d : DevState) (b : BootState) :
    regField (resetMarked u d b) aDevResetCnt 15 0 = min 0xFFFF (regField u aDevResetCnt 15 0 + 1) := by
  unfold resetMarked regField
  dsimp only
  rw [regGet_sqcSet_other (by decide), regGet_regSetBit_other (by decide), regGet_regSetField_other (by decide), regGet_regSetField_same,
    fieldOf_putField_same (by decide) (by decide)]
  exact Nat.mod_eq_of_lt (by omega)

theorem resetMarked_evt (u : State) (d : DevState) (b : BootState) : bitOf (regGet (resetMarked u d b) aDevEvt) 5 = true := by
  unfold resetMarked
  dsimp only
  rw [regGet_sqcSet_same, bitOf_sqcWord (by decide) (by decide)]
  rfl

/-- The blocks that a device reset leaves: those of `resetBase` but for the counts, the registers and the Tally. -/
theorem deviceReset_rest (s : State) : Only 142608432 (resetBase (seamFarewell s .reset) false) (deviceReset s) := by
  obtain ⟨d, b, -, -, -, he⟩ := deviceReset_steps s
  rw [he]
  exact faultPin_keep rfl (resetMarked_only.step rfl ((resetStopped_only s).mono rfl))

/-- A register that stays over a reset and counts nothing reads, once the blocks have stopped, as before. -/
theorem resetStopped_reg (s : State) {a : Nat} (hr : regStays false a = true) (ha : a < 0x80050000) :
    regGet (resetStopped s) a = regGet s a := by
  rw [resetStopped, tallyAfter_low _ _ ha, portsStop_low _ _ ha, regGet_resetBase, if_pos hr]
  exact regGet_congr seamFarewell_only.regs_eq a

theorem queueGet_deviceReset {s : State} {q : Nat} {x : Queue} (h : queueGet s q = some x) : queueGet (deviceReset s) q = some (queueAfter x) := by
  have hl : (deviceReset s).links = linksAfter s.links :=
    (deviceReset_rest s).links_eq.trans (congrArg linksAfter seamFarewell_only.links_eq)
  unfold queueGet at *
  rw [hl]
  exact (tblFind_map queueAfter q s.links.queues).trans (congrArg _ h)

/-- What a device reset leaves of the state `s` (Table 20-2). -/
def ResetDone (s t : State) : Prop :=
  t.tortin.tracker = [] ∧ t.tortin.ready = false ∧ t.tortin.server = 0 ∧ t.slices = [] ∧ t.keys.objs = [] ∧ t.keys.pend = [] ∧
  t.keys.jrn0 = s.keys.jrn0 ∧ t.keys.owners = s.keys.owners ∧ t.keys.roots = s.keys.roots ∧ t.needle = {} ∧ t.press = {} ∧
  t.mangle = {} ∧ t.dma = { s.dma with chans := tblMap (fun x => { x with frozen := false }) s.dma.chans } ∧ t.scorch = s.scorch ∧
  t.time = s.time ∧ t.fn0.linkUp = false ∧ t.fn1.linkUp = false ∧
  t.boot.step = .fuses ∧ t.boot.ctl = s.boot.ctl ∧ t.lc.fuses = s.lc.fuses ∧
  (s.tally.staging = [] → t.tally.slots = s.tally.slots.filter (fun e => e.2.valid)) ∧ t.tally.staging = [] ∧
  t.tally.ports = [] ∧ regField t aDevResetCnt 15 0 = min 0xFFFF (regField s aDevResetCnt 15 0 + 1) ∧
  bitOf (regGet t aDevEvt) 5 = true ∧
  (∀ q x, queueGet s q = some x → ∃ y, queueGet t q = some y ∧ y.mode = .paused ∧ y.present = none ∧ y.key = x.key ∧ y.epoch = x.epoch)

theorem deviceReset_done (s : State) : ResetDone s (deviceReset s) := by
  have ho := deviceReset_rest s
  have hf := seamFarewell_only (s := s) (cause := .reset)
  obtain ⟨d, b, -, hstep, hctl, he⟩ := deviceReset_steps s
  have hm := resetMarked_only (u := resetStopped s) (d := d) (b := b)
  have hb : (deviceReset s).boot = b := (congrArg State.boot he).trans faultPin_only.boot_eq
  have hty : (deviceReset s).tally = (resetStopped s).tally := ((congrArg State.tally he).trans faultPin_only.tally_eq).trans hm.tally_eq
  obtain ⟨hports, hstage⟩ := resetStopped_waiting s
  unfold ResetDone
  rw [ho.tortin_eq, ho.slices_eq, ho.keys_eq, ho.needle_eq, ho.press_eq, ho.mangle_eq, ho.dma_eq, ho.scorch_eq, ho.time_eq, ho.fn0_eq, ho.fn1_eq,
    ho.lc_eq, hb, hty, ← hf.keys_eq, ← hf.dma_eq, ← hf.scorch_eq, ← hf.time_eq, ← hf.lc_eq]
  refine ⟨rfl, rfl, rfl, rfl, rfl, rfl, rfl, rfl, rfl, rfl, rfl, rfl, rfl, rfl, rfl, rfl, rfl, hstep, hctl, rfl, fun h => ?_, hstage, hports, ?_, ?_,
    fun q x hq => ⟨queueAfter x, queueGet_deviceReset hq, rfl, rfl, rfl, rfl⟩⟩
  · exact resetStopped_slots h
  · rw [he]
    unfold regField
    rw [faultPin_reg (by decide)]
    exact (resetMarked_count _ _ _).trans (by unfold regField; rw [resetStopped_reg s (by decide) (by decide)])
  · rw [he]
    exact faultPin_evt (by decide) (resetMarked_evt _ _ _)

end Sys2Proof.Machine
end

section
set_option Elab.async false

/-! SUPPORT: what a restart of the CP's firmware ends and what it keeps (O49, R72, R94, R542). -/

namespace Sys2Proof.Machine

open Host Sys2Proof

/-! ### A command is aborted -/

theorem endBefore_ended {s : State} {tag : Nat} {c : Cmd} (h : cmdAt s tag = some c) (status len : Nat) :
    EndedBefore (endBefore s tag status len) tag status := by
  have hq : cmdAt (queueDrop s tag) tag = some c := (queueDrop_only.cmdAt rfl _).trans h
  unfold endBefore endCmd
  simp only [if_true]
  rw [hq]
  dsimp only
  split
  · exact ⟨_, (tallyPut_only.cmdAt rfl _).trans cmdAt_cmdPut_same, rfl, rfl, rfl⟩
  · exact ⟨_, cmdAt_cmdPut_same, rfl, rfl, rfl⟩

/-- The end of a command leaves every other command. -/
theorem endCmd_other {s : State} {tag status len i : Nat} {before : Bool} {extra : BitVec 64} (h : i ≠ tag) :
    cmdAt (endCmd s tag status before len extra) i = cmdAt s i := by
  have alarm (b : Bool) (w : State) (items : List (Nat × Nat)) :
      cmdAt (if b = true then tallyPut w agCp 0x0186 items else w) i = cmdAt w i := by
    split
    · exact tallyPut_only.cmdAt rfl _
    · rfl
  have hq : cmdAt (if before = true then queueDrop s tag else s) i = cmdAt s i := by
    split
    · exact queueDrop_only.cmdAt rfl _
    · rfl
  unfold endCmd
  dsimp only
  generalize (if before = true then queueDrop s tag else s) = u at *
  split
  · exact hq
  · rw [alarm, cmdAt_cmdPut_other h]
    split
    · split
      · exact hq
      · split
        · exact hq
        · exact (pendPut_only.cmdAt rfl _).trans hq
    · exact hq

theorem endCmd_low (s : State) (tag status : Nat) (before : Bool) (len : Nat) (extra : BitVec 64) : LowRegs s (endCmd s tag status before len extra) := by
  have alarm (b : Bool) (w : State) (items : List (Nat × Nat)) : LowRegs w (if b = true then tallyPut w agCp 0x0186 items else w) := by
    split
    · exact tallyPut_low _ _ _ _
    · exact .refl _
  have hq : LowRegs s (if before = true then queueDrop s tag else s) := by
    split
    · exact .of_only queueDrop_only
    · exact .refl _
  unfold endCmd
  dsimp only
  generalize (if before = true then queueDrop s tag else s) = u at *
  split
  · exact hq
  · refine .trans (.trans hq ?_) (alarm _ _ _)
    refine .trans ?_ (.of_only cmdPut_only)
    split
    · split
      · exact .refl _
      · split
        · exact .refl _
        · exact .of_only pendPut_only
    · exact .refl _

/-- A command that has ended, or is another's mirror, stays as it is; one that waits ends before its start; one that has started leaves its units
and ends after its start where its effect stands (R94). -/
theorem cmdAbort_waiting {s : State} {tag : Nat} {c : Cmd} (h : cmdAt s tag = some c) (hm : c.mirror = false) (hs : c.stage ≠ .started)
    (he : c.stage ≠ .ended) : EndedBefore (cmdAbort s tag) tag stAborted := by
  have e : cmdAbort s tag = endBefore s tag stAborted := by
    unfold cmdAbort
    rw [h]
    dsimp only
    rw [if_neg (by simp [hm, he]), if_pos hs]
  rw [e]
  exact endBefore_ended h _ _

theorem cmdAbort_effect {s : State} {tag : Nat} {c : Cmd} (h : cmdAt s tag = some c) (hm : c.mirror = false) (hs : c.stage = .started)
    (he : c.effect = true) : Ended s (cmdAbort s tag) tag c stAborted := by
  have e : cmdAbort s tag = endAfter (cmdLeave s tag) tag stAborted := by
    unfold cmdAbort
    rw [h]
    dsimp only
    rw [if_neg (by simp [hm, hs]), if_neg (by simp [hs]), if_pos (by simp [partDone, he])]
  rw [e]
  exact endAfter_ended ((cmdLeave_only.cmdAt rfl _).trans h) rfl (cmdLeave_only.now rfl) _ _ _

theorem cmdAbort_other {s : State} {tag i : Nat} (h : i ≠ tag) : cmdAt (cmdAbort s tag) i = cmdAt s i := by
  unfold cmdAbort
  split
  · rfl
  · split
    · rfl
    · split
      · exact endCmd_other h
      · dsimp only
        split
        · exact (endCmd_other h).trans (cmdLeave_only.cmdAt rfl _)
        · exact (endCmd_other h).trans ((startUndo_only.cmdAt rfl _).trans (cmdLeave_only.cmdAt rfl _))

theorem cmdAbort_ended {s : State} {tag i : Nat} {c : Cmd} (h : cmdAt s i = some c) (he : c.stage = .ended) : cmdAt (cmdAbort s tag) i = some c := by
  by_cases hi : i = tag
  · subst hi
    have e : cmdAbort s i = s := by
      unfold cmdAbort
      rw [h]
      exact if_pos (by simp [he])
    rw [e, h]
  · rw [cmdAbort_other hi, h]

theorem cmdAbort_low (s : State) (tag : Nat) : LowRegs s (cmdAbort s tag) := by
  unfold cmdAbort
  split
  · exact .refl s
  · split
    · exact .refl s
    · split
      · exact endCmd_low _ _ _ _ _ _
      · dsimp only
        split
        · exact .trans (.of_only cmdLeave_only) (endCmd_low _ _ _ _ _ _)
        · exact .trans (.of_only cmdLeave_only) (.trans (.of_only startUndo_only) (endCmd_low _ _ _ _ _ _))

/-! ### All commands are aborted -/

/-- Every command of the tracker that is its own is aborted. -/
def allAborted (s : State) : State := (tagsOf s (fun c => !c.mirror)).foldl cmdAbort s

theorem foldAbort_ended {l : List Nat} {s : State} {i : Nat} {c : Cmd} (h : cmdAt s i = some c) (he : c.stage = .ended) :
    cmdAt (l.foldl cmdAbort s) i = some c := by
  induction l generalizing s with
  | nil => exact h
  | cons x l ih => exact ih (cmdAbort_ended h he)

/-- A command whose turn comes is aborted as it stood, and its end stands from then on. -/
theorem foldAbort_mem {l : List Nat} {s : State} {i : Nat} {c : Cmd} (hi : i ∈ l) (h : cmdAt s i = some c) :
    ∃ u, nowStamp u = nowStamp s ∧ cmdAt u i = some c ∧
      ∀ d, cmdAt (cmdAbort u i) i = some d → d.stage = .ended → cmdAt (l.foldl cmdAbort s) i = some d := by
  induction l generalizing s with
  | nil => cases hi
  | cons x l ih =>
    by_cases hx : x = i
    · subst hx
      exact ⟨s, rfl, h, fun d hd he => show cmdAt (l.foldl cmdAbort (cmdAbort s x)) x = some d from foldAbort_ended hd he⟩
    · obtain ⟨u, hn, hu, hd⟩ := ih ((List.mem_cons.1 hi).resolve_left (Ne.symm hx)) ((cmdAbort_other (Ne.symm hx)).trans h)
      exact ⟨u, hn.trans (cmdAbort_only.now rfl), hu, hd⟩

theorem tblFind_mem {α : Type} {k : Nat} {v : α} {t : Tbl α} (h : tblFind k t = some v) : (k, v) ∈ t := by
  induction t with
  | nil => cases h
  | cons e t ih =>
    obtain ⟨j, x⟩ := e
    unfold tblFind at h
    split at h
    · rename_i hj
      cases h; subst hj
      exact List.mem_cons_self
    · exact List.mem_cons_of_mem _ (ih h)

theorem mem_tagsOf {s : State} {tag : Nat} {c : Cmd} {p : Cmd → Bool} (h : cmdAt s tag = some c) (hp : p c = true) : tag ∈ tagsOf s p :=
  List.mem_map.2 ⟨(tag, c), List.mem_filter.2 ⟨tblFind_mem h, hp⟩, rfl⟩

theorem allAborted_waiting {s : State} {tag : Nat} {c : Cmd} (h : cmdAt s tag = some c) (hm : c.mirror = false) (hs : c.stage ≠ .started)
    (he : c.stage ≠ .ended) : EndedBefore (allAborted s) tag stAborted := by
  obtain ⟨u, -, hu, hd⟩ := foldAbort_mem (mem_tagsOf (p := fun c => !c.mirror) h (by simp [hm])) h
  obtain ⟨d, hc, hst, hfree, hcomp⟩ := cmdAbort_waiting hu hm hs he
  exact ⟨d, hd d hc hst, hst, hfree, hcomp⟩

theorem allAborted_effect {s : State} {tag : Nat} {c : Cmd} (h : cmdAt s tag = some c) (hm : c.mirror = false) (hs : c.stage = .started)
    (he : c.effect = true) : Ended s (allAborted s) tag c stAborted := by
  obtain ⟨u, hn, hu, hd⟩ := foldAbort_mem (mem_tagsOf (p := fun c => !c.mirror) h (by simp [hm])) h
  obtain ⟨d, hc, hst, hbody, hfree, hcomp⟩ := cmdAbort_effect hu hm hs he
  exact ⟨d, hd d hc hst, hst, hbody, hfree, by rw [hcomp, hn]⟩

theorem allAborted_only (s : State) : Only 10481233 s (allAborted s) := by
  have fold (l : List Nat) (u : State) : Only 10481233 u (l.foldl cmdAbort u) := by
    induction l generalizing u with
    | nil => exact .refl
    | cons x l ih => exact cmdAbort_only.trans (ih _)
  exact fold _ s

theorem allAborted_low (s : State) : LowRegs s (allAborted s) := .foldl fun s tag _ => cmdAbort_low s tag

/-! ### The keys -/

theorem ne_of_mem_tblDel {α : Type} {k : Nat} {t : Tbl α} {e : Nat × α} (h : e ∈ tblDel k t) : e.1 ≠ k := by
  induction t with
  | nil => cases h
  | cons x t ih =>
    unfold tblDel at h
    split at h
    · exact ih h
    · rename_i hx
      rcases List.mem_cons.1 h with rfl | h
      · exact hx
      · exact ih h

theorem ne_of_tblFind_none {α : Type} {k : Nat} {t : Tbl α} {e : Nat × α} (h : tblFind k t = none) (he : e ∈ t) : e.1 ≠ k := by
  induction t with
  | nil => cases he
  | cons x t ih =>
    unfold tblFind at h
    split at h
    · cases h
    · rename_i hx
      rcases List.mem_cons.1 he with rfl | he
      · exact hx
      · exact ih h he

/-- A key that is erased leaves the key store, and no other enters it. -/
theorem mem_keyErase {s : State} {slot : Nat} {e : Nat × KeyObj} (h : e ∈ (keyErase s slot).keys.objs) : e ∈ s.keys.objs ∧ e.1 ≠ slot := by
  unfold keyErase at h
  split at h
  · rename_i hn
    exact ⟨h, ne_of_tblFind_none hn h⟩
  · rw [jot_only.keys_eq] at h
    exact ⟨mem_tblDel h, ne_of_mem_tblDel h⟩

theorem mem_foldErase {l : List Nat} {s : State} {e : Nat × KeyObj} (h : e ∈ (l.foldl keyErase s).keys.objs) : e ∈ s.keys.objs ∧ e.1 ∉ l := by
  induction l generalizing s with
  | nil => exact ⟨h, List.not_mem_nil⟩
  | cons x l ih =>
    obtain ⟨hm, hl⟩ := ih h
    obtain ⟨he, hx⟩ := mem_keyErase hm
    exact ⟨he, fun hc => (List.mem_cons.1 hc).elim hx hl⟩

/-- A restart leaves no lease and no key that ends with its session (R542). -/
theorem restartKeys_objs {s : State} {e : Nat × KeyObj} (h : e ∈ (restartKeys s).keys.objs) : e.2.lease = 0 ∧ bitN e.2.attrs kExpire = false := by
  obtain ⟨he, hk⟩ := mem_foldErase h
  refine ⟨?_, ?_⟩
  · obtain ⟨x, -, rfl⟩ := List.mem_map.1 he
    rfl
  · refine Bool.eq_false_iff.2 fun hb => hk ?_
    exact List.mem_map.2 ⟨e, List.mem_filter.2 ⟨he, hb⟩, rfl⟩

/-! ### The restart -/

/-- A restart's own marks in a state whose commands and keys have been dealt with. -/
def restartMarked (u : State) (tags : List Nat) (now : Stamp) : State :=
  let standby := u.pwr.standby.filter (fun t => (cmdAt u t).any (fun c => c.stage == .ended))
  let s3 := { u with
    press := { u.press with ctxs := [] }
    pwr := { u.pwr with standby := standby }
    tortin := { u.tortin with retries := [], visit := none, drain := tags.filter (· != mbxTag) }
    dev := { u.dev with restartAt := now, cpExc := 0, restartDue := false } }
  sqcSet (regSetField s3 aDevResetCnt 31 16 (min 0xFFFF (regField s3 aDevResetCnt 31 16 + 1))) aDevEvt 6

theorem restartMarked_only {u : State} {tags : List Nat} {now : Stamp} : Only 263224 u (restartMarked u tags now) := by
  unfold restartMarked
  exact sqcSet_keep rfl (regSetField_keep rfl (Only.upd rfl .refl))

theorem restartMarked_cmdAt (u : State) (tags : List Nat) (now : Stamp) (tag : Nat) : cmdAt (restartMarked u tags now) tag = cmdAt u tag := rfl

theorem restartMarked_count (u : State) (tags : List Nat) (now : Stamp) :
    regField (restartMarked u tags now) aDevResetCnt 31 16 = min 0xFFFF (regField u aDevResetCnt 31 16 + 1) := by
  unfold restartMarked regField
  dsimp only
  rw [regGet_sqcSet_other (by decide), regGet_regSetField_same, fieldOf_putField_same (by decide) (by decide)]
  exact Nat.mod_eq_of_lt (by omega)

theorem restartMarked_evt (u : State) (tags : List Nat) (now : Stamp) : bitOf (regGet (restartMarked u tags now) aDevEvt) 6 = true := by
  unfold restartMarked
  dsimp only
  rw [regGet_sqcSet_same, bitOf_sqcWord (by decide) (by decide)]
  rfl

/-- The state in which a restart without answers of Thimble aborts the commands. -/
def answersTaken (s : State) : State :=
  { s with thm := { s.thm with
    answers := s.thm.answers.map (fun r => { r with cmd := none }), reqs := s.thm.reqs.filter (fun r => r.cmd.isNone) } }

/-- The state in which a restart has dealt with the commands and the keys. -/
def restartCleared (s : State) : State := restartKeys (allAborted (answersTaken s))

theorem cpRestart_eq {s : State} (hf : s.seam.forming = none) (ha : s.thm.answers = []) :
    cpRestart s = restartMarked (restartCleared s) (tagsOf (answersTaken s) (fun c => !c.mirror)) (nowStamp s) := by
  have he : finishAnswers s = answersTaken s := by
    unfold finishAnswers
    rw [ha]
    rfl
  unfold cpRestart
  simp only [hf, Option.isSome_none, Bool.false_eq_true, if_false, he]
  unfold restartMarked restartCleared allAborted
  generalize restartKeys ((tagsOf (answersTaken s) (fun c => !c.mirror)).foldl cmdAbort (answersTaken s)) = u
  rfl

/-- What a restart of the CP's firmware leaves of the state `s` (R542). -/
def RestartDone (s t : State) : Prop :=
  t.tortin.retries = [] ∧ t.tortin.visit = none ∧ t.press.ctxs = [] ∧ t.time = s.time ∧ t.scorch = s.scorch ∧ t.dma = s.dma ∧
  t.dev.restartAt = nowStamp s ∧ regField t aDevResetCnt 31 16 = min 0xFFFF (regField s aDevResetCnt 31 16 + 1) ∧
  bitOf (regGet t aDevEvt) 6 = true ∧ (∀ e, e ∈ t.keys.objs → e.2.lease = 0 ∧ bitN e.2.attrs kExpire = false)

theorem restartCleared_only (s : State) : Only 14675537 s (restartCleared s) :=
  restartKeys_only.step rfl ((allAborted_only _).step rfl (Only.upd rfl .refl))

theorem restartCleared_low (s : State) : LowRegs s (restartCleared s) :=
  .trans (.of_regs (t := answersTaken s) rfl) (.trans (allAborted_low _) (.of_only restartKeys_only))

theorem cpRestart_done {s : State} (hf : s.seam.forming = none) (ha : s.thm.answers = []) : RestartDone s (cpRestart s) := by
  have ho := restartCleared_only s
  have hm := restartMarked_only (u := restartCleared s) (tags := tagsOf (answersTaken s) (fun c => !c.mirror)) (now := nowStamp s)
  rw [cpRestart_eq hf ha]
  refine ⟨rfl, rfl, rfl, hm.time_eq.trans ho.time_eq, hm.scorch_eq.trans ho.scorch_eq, hm.dma_eq.trans ho.dma_eq, rfl, ?_, restartMarked_evt _ _ _, ?_⟩
  · rw [restartMarked_count]
    unfold regField
    rw [restartCleared_low s _ (by decide)]
  · intro e he
    rw [hm.keys_eq] at he
    exact restartKeys_objs he

/-- The tracker that a restart leaves is the one in which all commands were aborted. -/
theorem cpRestart_cmdAt {s : State} (hf : s.seam.forming = none) (ha : s.thm.answers = []) (tag : Nat) :
    cmdAt (cpRestart s) tag = cmdAt (allAborted (answersTaken s)) tag := by
  rw [cpRestart_eq hf ha, restartMarked_cmdAt, restartCleared]
  exact restartKeys_only.cmdAt rfl tag

/-- A restart of the same clocks, registers, Scorch and channels is the same restart. -/
theorem RestartDone.of_same {s s' t : State} (h : RestartDone s' t) (htime : s'.time = s.time) (hscorch : s'.scorch = s.scorch)
    (hdma : s'.dma = s.dma) (hregs : s'.regs = s.regs) : RestartDone s t := by
  have hn : nowStamp s' = nowStamp s := by unfold nowStamp; rw [htime]
  have hc : regField s' aDevResetCnt 31 16 = regField s aDevResetCnt 31 16 := by unfold regField; rw [regGet_congr hregs]
  unfold RestartDone at *
  rwa [htime, hscorch, hdma, hn, hc] at h

/-- What the group sends after a restart changes nothing that it left. -/
theorem RestartDone.seam {s t u : State} (h : RestartDone s t) (ho : Only 16385 t u) : RestartDone s u := by
  unfold RestartDone at *
  rwa [ho.tortin_eq, ho.press_eq, ho.time_eq, ho.scorch_eq, ho.dma_eq, ho.dev_eq, ho.keys_eq, regField, regGet_congr ho.regs_eq, regGet_congr ho.regs_eq]

end Sys2Proof.Machine
end

section
set_option Elab.async false

/-! SUPPORT: the reset pin, and what a power-on reset begins (O49, R24, R38, R499, R543). -/

namespace Sys2Proof.Machine

open Host Sys2Proof

/-! ### The log of Scorch -/

/-- A record of Scorch's log moves its sequence by one and leaves the locks. -/
theorem scorchLog_scorch (s : State) (kind src sev flags dur detail : Nat) :
    ∃ log, (scorchLog s kind src sev flags dur detail).scorch = { s.scorch with log := log, logSeq := s.scorch.logSeq + 1 } := by
  unfold scorchLog
  dsimp only
  split
  · exact ⟨_, rfl⟩
  · exact ⟨_, rfl⟩

theorem epochNote_scorch (s : State) (old new : Nat) : ∃ log, (epochNote s old new).scorch = { s.scorch with log := log, logSeq := s.scorch.logSeq + 1 } := by
  obtain ⟨log, h⟩ := scorchLog_scorch (tallyPut s agCp 0x0A81 [(0x0E, old), (0x0F, new)]) logEpoch 0 2 0 0 new
  rw [tallyPut_only.scorch_eq] at h
  exact ⟨log, h⟩

theorem epochNote_low (s : State) (old new : Nat) : LowRegs s (epochNote s old new) :=
  .trans (tallyPut_low _ _ _ _) (.of_only scorchLog_only)

theorem faultPin_dev (s : State) : ∃ f, (faultPin s).dev = { s.dev with faultN := f } := by
  unfold faultPin
  dsimp only
  split
  · exact ⟨_, rfl⟩
  · exact ⟨_, rfl⟩

/-! ### The reset pin -/

/-- A pin that is stuck: the device no longer follows it (R547). -/
def pinStuck (s : State) : State := sqcSet (faultPin { s with dev := { s.dev with stuck := true } }) aScrEvt 9

/-- A pin held low for 8 s is stuck; Scorch records it (R547). -/
theorem next_resetNStuck {s : State} {x : Nat} (hv : s.pwr.vault = false) (hx : s.dev.resetLow = some x) (hs : s.dev.stuck = false)
    (hc : x + 8 * cycS ≤ s.time.clk) : Next .resetNStuck s (fun t => t.dev.stuck = true ∧ resetHeld t = false ∧
      bitOf (regGet t aScrEvt) 9 = true ∧ t.scorch.logSeq = s.scorch.logSeq + 1) := by
  have he : exec .resetNStuck s =
      .next (scorchLog (tallyPut (freeSev (pinStuck s)).2 agAiring 0x0182 []) logStuck 0 (freeSev (pinStuck s)).1 0 0 0) := by
    refine congrArg Host.Outcome.next ?_
    rw [hx]
    exact if_neg (by simp [hv, hs]; omega)
  have ho : Only 6226 (pinStuck s) (scorchLog (tallyPut (freeSev (pinStuck s)).2 agAiring 0x0182 []) logStuck 0 (freeSev (pinStuck s)).1 0 0 0) :=
    scorchLog_only.step rfl (tallyPut_only.step rfl (freeSev_only.mono rfl))
  obtain ⟨f, hf⟩ := faultPin_dev { s with dev := { s.dev with stuck := true } }
  obtain ⟨log, hlog⟩ := scorchLog_scorch (tallyPut (freeSev (pinStuck s)).2 agAiring 0x0182 []) logStuck 0 (freeSev (pinStuck s)).1 0 0 0
  have hd : (pinStuck s).dev.stuck = true := (congrArg DevState.stuck hf).trans rfl
  have hscorch : (pinStuck s).scorch = s.scorch := (faultPin_only (s := { s with dev := { s.dev with stuck := true } })).scorch_eq
  refine next_of he ⟨?_, ?_, ?_, ?_⟩
  · rw [ho.dev_eq]; exact hd
  · unfold resetHeld; rw [ho.dev_eq, hd]; simp
  · rw [regGet_congr scorchLog_only.regs_eq, tallyPut_low _ _ _ _ _ (by decide), regGet_congr freeSev_only.regs_eq, pinStuck, regGet_sqcSet_same,
      bitOf_sqcWord (by decide) (by decide)]
    rfl
  · rw [hlog, tallyPut_only.scorch_eq, freeSev_only.scorch_eq, hscorch]

theorem next_resetNStuck_early {s : State} {x : Nat} (hx : s.dev.resetLow = some x) (hc : s.time.clk < x + 8 * cycS) :
    Next .resetNStuck s (fun t => t = s) := by
  refine next_of (t := s) (congrArg Host.Outcome.next ?_) rfl
  rw [hx]
  exact if_pos (by simp [hc])

/-- The pin is followed again 100 ms after it has come back (R547). -/
theorem next_resetNRearm {s : State} (hv : s.pwr.vault = false) (hs : s.dev.stuck = true) (hl : s.dev.resetLow = none)
    (hc : s.dev.resetHigh + 100 * cycMs ≤ s.time.clk) : Next .resetNRearm s (fun t => t.dev.stuck = false) := by
  obtain ⟨f, hf⟩ := faultPin_dev { s with dev := { s.dev with stuck := false } }
  exact next_of (congrArg Host.Outcome.next (if_pos (by simp [hv, hs, hl, hc]))) ((congrArg DevState.stuck hf).trans rfl)

/-! ### A draw while the device is ACTIVE -/

/-- A change of the power state that a use of the fast domain makes: an ACTIVE device stays ACTIVE, and no other register changes. -/
structure StaysActive (s t : State) : Prop where
  vault : t.pwr.vault = s.pwr.vault
  reg : ∀ a, a ≠ aPwrState → regGet t a = regGet s a
  mode : pwrMode s = 0 → pwrMode t = 0

theorem StaysActive.refl (s : State) : StaysActive s s := ⟨rfl, fun _ _ => rfl, id⟩

theorem StaysActive.trans {a b c : State} (h : StaysActive a b) (k : StaysActive b c) : StaysActive a c :=
  ⟨k.vault.trans h.vault, fun x hx => (k.reg x hx).trans (h.reg x hx), fun hm => k.mode (h.mode hm)⟩

theorem draw_active (s : State) (n : Nat) : StaysActive s (draw s n).2 where
  vault := touchFast_vault s
  reg a ha := (regGet_congr (s := touchFast s) rfl a).trans (touchFast_reg ha)
  mode hm := by
    have h : pwrMode (touchFast s) = 0 := by rw [pwrMode_touchFast, hm]; rfl
    exact h

theorem formationNeed_active (s : State) : StaysActive s (formationNeed s) := by
  unfold formationNeed
  split
  · exact .refl s
  · exact (draw_active s 32).trans (.trans (draw_active _ 64) ⟨rfl, fun _ _ => rfl, id⟩)

theorem formationDraw_active (s : State) : StaysActive s (formationDraw s) := by
  unfold formationDraw
  refine .trans ?_ (formationNeed_active _)
  exact ⟨rfl, fun _ _ => rfl, id⟩

/-! ### The power-on reset -/

/-- The state that a power-on reset has begun, before the group's draw and the records of the new epoch. -/
def powerBegun (s : State) (strap : Nat) (bifur : Bool) : State :=
  let unset := bitOf (regGet s aTimeSrcStat) 7 || s.scorch.fresh
  let e : BitVec 16 := s.time.epoch + 1
  let s1 := resetBase s true
  let s2 := { s1 with
    time := { clk := s1.time.clk, epoch := e, rtc := s.time.rtc, rtcPart := s.time.rtcPart
              ptpPort := s.time.ptpPort, ptpDomain := s.time.ptpDomain, ppsWidth := s.time.ppsWidth, groupSrc := s.time.groupSrc }
    dev := { s1.dev with bifur := bifur, stuck := false, resetLow := none, resetHigh := 0, dogAt := none, resetAt := 0, restartAt := 0 }
    scorch := { s1.scorch with supplyWarn := false, railLow := false, pfw := false, tempWarn := false }
    boot := { s1.boot with strap := strap, mend := strap == 1, early := 0, lastStart := if strap = 1 then 4 else 0 } }
  let s3 := tallyReload (regSetBit (regPut s2 aTimeEpoch (BitVec.ofNat 32 e.toNat)) aTimeSrcStat 7 unset)
  regPut64 s3 aTimeCtBaseLo aTimeCtBaseHi s.time.rtc

/-- The group's draw at a power-on. -/
def powerDrawn (u : State) : State := if u.seam.key.isEmpty then formationDraw u else u

/-- The record of a strap that enters a debug mode. -/
def strapNoted (u : State) (strap : Nat) : State := if strap = 2 ∨ strap = 3 then tallyPut u agThm 0x0183 [(0x0F, strap)] else u

theorem powerDrawn_active (u : State) : StaysActive u (powerDrawn u) := by
  unfold powerDrawn
  split
  · exact formationDraw_active u
  · exact .refl u

theorem powerDrawn_only (u : State) : Only 1064984 u (powerDrawn u) := by
  unfold powerDrawn
  split
  · exact formationDraw_only
  · exact .refl

theorem strapNoted_only (u : State) (strap : Nat) : Only 2128 u (strapNoted u strap) := by
  unfold strapNoted
  split
  · exact tallyPut_only
  · exact .refl

theorem strapNoted_low (u : State) (strap : Nat) : LowRegs u (strapNoted u strap) := by
  unfold strapNoted
  split
  · exact tallyPut_low _ _ _ _
  · exact .refl u

/-- The state of a power-on reset that has noted its epoch and its strap. -/
def powerNoted (s : State) (strap : Nat) (bifur : Bool) : State :=
  strapNoted (epochNote (powerDrawn (powerBegun s strap bifur)) s.time.epoch.toNat (s.time.epoch + 1).toNat) strap

theorem powerOnReset_eq (s : State) (strap : Nat) (bifur : Bool) : powerOnReset s strap bifur = faultPin (powerNoted s strap bifur) := rfl

theorem powerNoted_only (s : State) (strap : Nat) (bifur : Bool) : Only 1071192 (powerBegun s strap bifur) (powerNoted s strap bifur) :=
  (strapNoted_only _ strap).step rfl (epochNote_keep rfl ((powerDrawn_only _).mono rfl))

theorem powerNoted_low (s : State) (strap : Nat) (bifur : Bool) : LowRegs (powerDrawn (powerBegun s strap bifur)) (powerNoted s strap bifur) :=
  .trans (epochNote_low _ _ _) (strapNoted_low _ strap)

theorem powerNoted_scorch (s : State) (strap : Nat) (bifur : Bool) : ∃ log, (powerNoted s strap bifur).scorch =
    { (powerBegun s strap bifur).scorch with log := log, logSeq := s.scorch.logSeq + 1 } := by
  obtain ⟨log, h⟩ := epochNote_scorch (powerDrawn (powerBegun s strap bifur)) s.time.epoch.toNat (s.time.epoch + 1).toNat
  rw [(powerDrawn_only _).scorch_eq] at h
  exact ⟨log, (strapNoted_only _ strap).scorch_eq.trans h⟩

theorem powerNoted_vault (s : State) (strap : Nat) (bifur : Bool) : (powerNoted s strap bifur).pwr.vault = false := by
  rw [powerNoted, (strapNoted_only _ strap).pwr_eq, epochNote_only.pwr_eq, (powerDrawn_active _).vault]
  rfl

theorem regGet_powerBegun {s : State} {strap a : Nat} {bifur : Bool} (hlo : a ≠ aTimeCtBaseLo) (hhi : a ≠ aTimeCtBaseHi) (hs : a ≠ aTimeSrcStat)
    (he : a ≠ aTimeEpoch) : regGet (powerBegun s strap bifur) a = regGet (resetBase s true) a := by
  unfold powerBegun
  dsimp only
  rw [regGet_regPut64_other hlo hhi, regGet_congr tallyReload_only.regs_eq, regGet_regSetBit_other hs, regGet_regPut_other he]
  rfl

/-- A power-on reset begins in ACTIVE. -/
theorem pwrMode_powerBegun (s : State) (strap : Nat) (bifur : Bool) : pwrMode (powerBegun s strap bifur) = 0 := by
  unfold pwrMode regField
  rw [regGet_powerBegun (by decide) (by decide) (by decide) (by decide), regGet_resetBase, if_neg (by decide), regReset_pwrState]
  rfl

/-- Calendar time is unset after a power-on reset where it was, or where the VBAT domain is fresh (R38). -/
theorem powerBegun_unset (s : State) (strap : Nat) (bifur : Bool) :
    bitOf (regGet (powerBegun s strap bifur) aTimeSrcStat) 7 = (bitOf (regGet s aTimeSrcStat) 7 || s.scorch.fresh) := by
  unfold powerBegun
  dsimp only
  rw [regGet_regPut64_other (by decide) (by decide), regGet_congr tallyReload_only.regs_eq, regGet_regSetBit_same, bitOf_putBit (by decide), if_pos rfl]

/-- What a power-on reset leaves of the state `s`. -/
def PowerOnDone (s : State) (strap : Nat) (bifur : Bool) (t : State) : Prop :=
  t.time.acc = 0 ∧ t.time.epoch = s.time.epoch + 1 ∧ t.time.rtc = s.time.rtc ∧ t.pwr.vault = false ∧ t.tortin.tracker = [] ∧
  t.tortin.ready = false ∧ t.slices = [] ∧ t.keys.objs = [] ∧ t.needle = {} ∧ t.scorch.locked = s.scorch.locked ∧
  t.scorch.lockSrc = s.scorch.lockSrc ∧ t.scorch.disabled = s.scorch.disabled ∧ t.scorch.logSeq = s.scorch.logSeq + 1 ∧
  t.keys.roots = s.keys.roots ∧ t.keys.jrn0 = s.keys.jrn0 ∧ t.keys.owners = s.keys.owners ∧ t.boot.strap = strap ∧
  t.boot.step = .fuses ∧ t.boot.mend = (strap == 1) ∧ t.dev.bifur = bifur ∧ t.dev.stuck = false ∧
  bitOf (regGet t aTimeSrcStat) 7 = (bitOf (regGet s aTimeSrcStat) 7 || s.scorch.fresh) ∧
  regField t aPwrState 2 0 = 0 ∧ t.lc.fuses = s.lc.fuses

theorem powerOnReset_done (s : State) (strap : Nat) (bifur : Bool) : PowerOnDone s strap bifur (powerOnReset s strap bifur) := by
  have ho := powerNoted_only s strap bifur
  have hlow := powerNoted_low s strap bifur
  have ha := powerDrawn_active (powerBegun s strap bifur)
  have hp := faultPin_only (s := powerNoted s strap bifur)
  obtain ⟨log, hlog⟩ := powerNoted_scorch s strap bifur
  obtain ⟨f, hf⟩ := faultPin_dev (powerNoted s strap bifur)
  have hmode : regField (powerDrawn (powerBegun s strap bifur)) aPwrState 2 0 = 0 := ha.mode (pwrMode_powerBegun s strap bifur)
  unfold PowerOnDone
  rw [powerOnReset_eq, hp.time_eq, hp.pwr_eq, hp.tortin_eq, hp.slices_eq, hp.keys_eq, hp.needle_eq, hp.scorch_eq, hp.boot_eq, hf, hp.lc_eq,
    regField, faultPin_reg (by decide), faultPin_reg (by decide), hlow _ (by decide), hlow _ (by decide), ha.reg _ (by decide),
    powerBegun_unset, powerNoted_vault, hlog, ho.time_eq, ho.tortin_eq, ho.slices_eq, ho.keys_eq, ho.needle_eq, ho.boot_eq, ho.dev_eq, ho.lc_eq]
  exact ⟨rfl, rfl, rfl, rfl, rfl, rfl, rfl, rfl, rfl, rfl, rfl, rfl, rfl, rfl, rfl, rfl, rfl, rfl, rfl, rfl, rfl, rfl, hmode, rfl⟩

/-- The farewell to the group before a power-on reset changes nothing that the reset keeps. -/
theorem PowerOnDone.of_seam {s s' t : State} {strap : Nat} {bifur : Bool} (ho : Only 16385 s s') (h : PowerOnDone s' strap bifur t) :
    PowerOnDone s strap bifur t := by
  unfold PowerOnDone at *
  rwa [ho.time_eq, ho.scorch_eq, ho.keys_eq, ho.lc_eq, regGet_congr ho.regs_eq] at h

/-- The farewell of a power-on reset: none in VAULT. -/
theorem powerFarewell_only (s : State) : Only 16385 s (if s.pwr.vault then s else seamFarewell s .reset) := by
  split
  · exact .refl
  · exact seamFarewell_only

theorem next_powerOnReset {s : State} {strap : Nat} {bifur : Bool} (h : strap < 4) : Next (.powerOnReset strap bifur) s (PowerOnDone s strap bifur) := by
  have hs : strap % 4 = strap := Nat.mod_eq_of_lt h
  refine next_of (t := powerOnReset (if s.pwr.vault then s else seamFarewell s .reset) strap bifur) ?_
    (.of_seam (powerFarewell_only s) (powerOnReset_done _ strap bifur))
  show Host.Outcome.next (powerOnReset _ (strap % 4) bifur) = _
  rw [hs]

end Sys2Proof.Machine
end

section
set_option Elab.async false

/-! SUPPORT: the rows that reset or restart, and the settled statement O49. -/

namespace Sys2Proof.Machine

open Host Sys2Proof

/-! ### Device resets -/

theorem restartable_of {s : State} (hv : s.pwr.vault = false) (hs : s.tortin.server = 3) (hr : resetHeld s = false) : restartable s = true := by
  unfold restartable
  simp [hv, hs, hr]

/-- What a reset leaves is said of every part but the device-wide state. -/
theorem ResetDone.with_dev {s t : State} (h : ResetDone s t) (d : DevState) : ResetDone s { t with dev := d } := h

theorem ResetDone.of_dev {s t : State} {d : DevState} (h : ResetDone { s with dev := d } t) : ResetDone s t := h

theorem next_resetNAssert {s : State} (hv : s.pwr.vault = false) (hl : s.dev.resetLow = none) (hs : s.dev.stuck = false) :
    Next (.resetNAssert true) s (fun t => ResetDone s t ∧ t.dev.resetLow = some s.time.clk) := by
  refine next_of (t := { deviceReset s with dev := { (deviceReset s).dev with resetLow := some s.time.clk } }) (congrArg Host.Outcome.next ?_)
    ⟨(deviceReset_done s).with_dev _, rfl⟩
  simp [hv, hl, hs]

/-- The row of a watchdog notes when it expired. -/
def dogNoted (s : State) : State := { s with dev := { s.dev with dogAt := some s.time.clk } }

/-- A second expiry in 10 s, or one whose image is bad, is a device reset (R57). -/
theorem next_watchdogExpiry_reset {s : State} {ok : Bool} (hv : s.pwr.vault = false) (hs : s.tortin.server = 3) (hr : resetHeld s = false)
    (hh : cpHalted s = false) (ha : s.dev.dogAt.any (fun t => decide (s.time.clk < t + 10 * cycS)) = true ∨ ok = false) :
    Next (.watchdogExpiry ok) s (fun t => ResetDone s t ∧ t.dev.dogAt = some s.time.clk) := by
  refine next_of (t := deviceReset (dogNoted s)) (congrArg Host.Outcome.next ((if_neg ?_).trans (if_pos ?_)))
    ⟨(deviceReset_done (dogNoted s)).of_dev, ?_⟩
  · simp [restartable_of hv hs hr, hh]
  · simpa using ha
  · obtain ⟨d, b, hd, -, -, he⟩ := deviceReset_steps (dogNoted s)
    obtain ⟨f, hf⟩ := faultPin_dev (resetMarked (resetStopped (dogNoted s)) d b)
    rw [he, hf]
    exact hd

theorem next_cpFirmwareRestart_bad {s : State} (hv : s.pwr.vault = false) (hs : s.tortin.server = 3) (hr : resetHeld s = false) :
    Next (.cpFirmwareRestart false) s (ResetDone s) :=
  next_of (t := deviceReset s) (congrArg Host.Outcome.next ((if_neg (by simp [restartable_of hv hs hr])).trans (if_neg (by decide)))) (deviceReset_done s)

/-! ### Restarts of the CP's firmware -/

/-- The commands of `s` as a restart leaves them (R72, R94). -/
def CommandsRestarted (s t : State) : Prop :=
  (∀ tag c, cmdAt s tag = some c → c.mirror = false → c.stage ≠ .started → c.stage ≠ .ended → EndedBefore t tag stAborted) ∧
  (∀ tag c, cmdAt s tag = some c → c.mirror = false → c.stage = .started → c.effect = true → Ended s t tag c stAborted) ∧
  (∀ tag c, cmdAt s tag = some c → c.stage = .ended → cmdAt t tag = some c)

theorem cpRestart_commands {s : State} (hf : s.seam.forming = none) (ha : s.thm.answers = []) : CommandsRestarted s (cpRestart s) := by
  have ht := cpRestart_cmdAt hf ha
  refine ⟨fun tag c hc hm hs he => ?_, fun tag c hc hm hs he => ?_, fun tag c hc he => ?_⟩
  · obtain ⟨d, hd, h⟩ := allAborted_waiting (s := answersTaken s) hc hm hs he
    exact ⟨d, (ht tag).trans hd, h⟩
  · obtain ⟨d, hd, h⟩ := allAborted_effect (s := answersTaken s) hc hm hs he
    exact ⟨d, (ht tag).trans hd, h⟩
  · exact (ht tag).trans (foldAbort_ended hc he)

theorem next_cpFirmwareRestart {s : State} (hv : s.pwr.vault = false) (hs : s.tortin.server = 3) (hr : resetHeld s = false)
    (hf : s.seam.forming = none) (ha : s.thm.answers = []) :
    Next (.cpFirmwareRestart true) s (fun t => RestartDone s t ∧ CommandsRestarted s t) :=
  next_of (t := cpRestart s) (congrArg Host.Outcome.next ((if_neg (by simp [restartable_of hv hs hr])).trans (if_pos rfl)))
    ⟨cpRestart_done hf ha, cpRestart_commands hf ha⟩

/-- A message to a member leaves the formation as it is. -/
theorem seamFarewell_forming (s : State) (cause : FarewellCause) : (seamFarewell s cause).seam.forming = s.seam.forming := by
  have send (u : State) (l : Nat) (load : SeamLoad) : (seamSend u l load).seam.forming = u.seam.forming := by
    unfold seamSend
    dsimp only
    split
    · rfl
    · rfl
  have fold (ls : List Nat) (u : State) : (ls.foldl (fun s l => seamSend s l (.farewell cause)) u).seam.forming = u.seam.forming := by
    induction ls generalizing u with
    | nil => rfl
    | cons l ls ih => exact (ih _).trans (send _ _ _)
  exact fold _ s

/-- After a restart a fenced member asks for its copy. -/
def askIfFenced (u : State) : State := if u.seam.role = .fenced then seamAsk u else u

theorem askIfFenced_only (u : State) : Only 16385 u (askIfFenced u) := by
  unfold askIfFenced
  split
  · exact seamAsk_only
  · exact .refl

theorem restartMarked_dogAt (u : State) (tags : List Nat) (now : Stamp) : (restartMarked u tags now).dev.dogAt = u.dev.dogAt := rfl

theorem cpRestart_dogAt {s : State} (hf : s.seam.forming = none) (ha : s.thm.answers = []) : (cpRestart s).dev.dogAt = s.dev.dogAt := by
  rw [cpRestart_eq hf ha, restartMarked_dogAt, (restartCleared_only s).dev_eq]

/-- The first expiry in 10 s. -/
theorem dog_first {s : State} (hx : ∀ x, s.dev.dogAt = some x → x + 10 * cycS ≤ s.time.clk) :
    s.dev.dogAt.any (fun t => decide (s.time.clk < t + 10 * cycS)) = false := by
  cases hd : s.dev.dogAt with
  | none => rw [Option.any_none]
  | some x =>
    rw [Option.any_some]
    exact decide_eq_false (Nat.not_lt.2 (hx x hd))

theorem exec_watchdogExpiry_restart {s : State} (hr : restartable s = true) (hh : cpHalted s = false)
    (ha : s.dev.dogAt.any (fun t => decide (s.time.clk < t + 10 * cycS)) = false) :
    exec (.watchdogExpiry true) s = .next (askIfFenced (cpRestart (seamBye (dogNoted s) .watchdog))) := by
  show execWatchdogExpiry true s = _
  unfold execWatchdogExpiry askIfFenced dogNoted
  dsimp only
  generalize cpRestart (seamBye { s with dev := { s.dev with dogAt := some s.time.clk } } .watchdog) = u
  rw [if_neg (by simp [hr, hh]), if_neg (by simp [ha])]

/-- A first expiry in 10 s with a good image is a restart (R57). -/
theorem next_watchdogExpiry_restart {s : State} (hv : s.pwr.vault = false) (hs : s.tortin.server = 3) (hr : resetHeld s = false)
    (hf : s.seam.forming = none) (ha : s.thm.answers = []) (hh : cpHalted s = false)
    (hx : ∀ x, s.dev.dogAt = some x → x + 10 * cycS ≤ s.time.clk) (hrole : s.seam.role = .alone) :
    Next (.watchdogExpiry true) s (fun t => RestartDone s t ∧ t.dev.dogAt = some s.time.clk) := by
  have hbye : seamBye (dogNoted s) .watchdog = seamFarewell (dogNoted s) .watchdog := if_pos (by simp [dogNoted, hrole])
  have ho := seamFarewell_only (s := dogNoted s) (cause := .watchdog)
  have hforming : (seamFarewell (dogNoted s) .watchdog).seam.forming = none := (seamFarewell_forming _ _).trans hf
  have hanswers : (seamFarewell (dogNoted s) .watchdog).thm.answers = [] := by rw [ho.thm_eq]; exact ha
  have he := exec_watchdogExpiry_restart (restartable_of hv hs hr) hh (dog_first hx)
  rw [hbye] at he
  refine next_of he ⟨((cpRestart_done hforming hanswers).of_same ho.time_eq ho.scorch_eq ho.dma_eq ho.regs_eq).seam (askIfFenced_only _), ?_⟩
  rw [(askIfFenced_only _).dev_eq, cpRestart_dogAt hforming hanswers, ho.dev_eq]
  rfl

/-- Settles O49, from what a device reset, a restart of the CP and a power-on reset leave. -/
theorem deviceCpAndPowerOnResets : Obligations.DeviceCpAndPowerOnResets := by
  unfold Obligations.DeviceCpAndPowerOnResets
  refine ⟨fun s hv => ⟨fun hr => ?_, fun hr => ?_, next_resetNAssert hv, fun hl hs => ?_, fun hl => ?_, fun hl => ?_, fun x hl hs hc =>
      next_resetNStuck hv hl hs hc, fun x hl hc => next_resetNStuck_early hl hc, fun hs hl hc => next_resetNRearm hv hs hl hc,
      fun hs hr => next_cpFirmwareRestart_bad hv hs hr, fun hs hr hh => ⟨fun x hd hx => ?_, ?_⟩⟩, fun s hv hs hr hf ha => ⟨?_, ?_⟩, fun s strap bifur h => ?_⟩
  · exact next_of (congrArg Host.Outcome.next (if_neg (by simp [hv, hr]))) (deviceReset_done s)
  · exact next_of (congrArg Host.Outcome.next (if_pos (by simp [hr]))) rfl
  · exact next_of (congrArg Host.Outcome.next (by simp [hv, hl, hs])) rfl
  · exact next_of (congrArg Host.Outcome.next (by simp [hl])) rfl
  · have hn : s.dev.resetLow.isNone = false := by rw [← Option.not_isSome, hl]; rfl
    exact next_of (congrArg Host.Outcome.next (by simp [hv, hn])) rfl
  · refine next_watchdogExpiry_reset hv hs hr hh (.inl ?_)
    rw [hd, Option.any_some]
    exact decide_eq_true hx
  · exact next_watchdogExpiry_reset hv hs hr hh (.inr rfl)
  · exact next_cpFirmwareRestart hv hs hr hf ha
  · exact fun hh hx hrole => next_watchdogExpiry_restart hv hs hr hf ha hh hx hrole
  · exact next_powerOnReset h

end Sys2Proof.Machine
end

section
set_option Elab.async false

/-! SUPPORT. The tables of slices and commands: what an entry reads as, and what acceptance and the checks before a start keep of every command,
of the mailbox and of every slice (R64, R67). -/

namespace Sys2Proof.Machine

open Host Sys2Proof

theorem Next.mono {i : Instr} {s : State} {P Q : State → Prop} (h : Next i s P) (hq : ∀ t, P t → Q t) : Next i s Q :=
  h.imp fun t ht => ⟨ht.1, hq t ht.2⟩

/-! ### One slice or ring set -/

theorem sliceGet_congr {s t : State} (h : t.slices = s.slices) (n : Nat) : sliceGet t n = sliceGet s n := by unfold sliceGet; rw [h]

theorem cmdAt_congr {s t : State} (h : t.tortin = s.tortin) (tag : Nat) : cmdAt t tag = cmdAt s tag := by unfold cmdAt; rw [h]

theorem sliceGet_sqPut (s : State) (n k : Nat) (r : SqRing) :
    sliceGet (sqPut s n k r) n = { sliceGet s n with sq := tblSet {} k r (sliceGet s n).sq } := sliceGet_slicePut_same

theorem sliceGet_cqPut (s : State) (n k : Nat) (r : CqRing) :
    sliceGet (cqPut s n k r) n = { sliceGet s n with cq := tblSet {} k r (sliceGet s n).cq } := sliceGet_slicePut_same

theorem sliceGet_slcIgn (s : State) (n : Nat) :
    sliceGet (slcIgn s n) n = { sliceGet s n with ignWr := satAdd32 (sliceGet s n).ignWr 1 } := sliceGet_slicePut_same

theorem sliceGet_sqErrBit (s : State) (n k : Nat) :
    sliceGet (sqErrBit s n k) n = { sliceGet s n with sqErr := sqcWord (sliceGet s n).sqErr k } := sliceGet_slicePut_same

theorem sliceGet_cqErrBit (s : State) (n k : Nat) :
    sliceGet (cqErrBit s n k) n = { sliceGet s n with cqErr := sqcWord (sliceGet s n).cqErr k } := sliceGet_slicePut_same

@[simp] theorem sqGet_sqPut_same {s : State} {n k : Nat} {r : SqRing} : sqGet (sliceGet (sqPut s n k r) n) k = r := by
  rw [sliceGet_sqPut]; exact tblGet_set_same

@[simp] theorem cqGet_cqPut_same {s : State} {n k : Nat} {r : CqRing} : cqGet (sliceGet (cqPut s n k r) n) k = r := by
  rw [sliceGet_cqPut]; exact tblGet_set_same

theorem isPrimary_congr {s t : State} (h : t.seam = s.seam) : isPrimary t = isPrimary s := by unfold isPrimary; rw [h]

/-! ### What stays of the commands -/

/-- What names a command from its acceptance on. -/
def cmdIdent (c : Cmd) : Origin × List Byte × Nat × Stamp := (c.origin, c.body, c.order, c.accepted)

/-- `d` is the command `c` at whatever stage; where `strict` holds, it has not begun to read its input again (R561). -/
def SameCmd (strict : Bool) (c d : Cmd) : Prop := cmdIdent d = cmdIdent c ∧ (strict = true → d.stage = .preread → c.stage = .preread)

/-- From `s` to `t` no place of the tracker that was free is taken; the mailbox and the slices change at most in their duplicate tables; a device
that is no primary sends nothing. -/
structure Releases (s t : State) : Prop where
  free : ∀ tag, cmdAt s tag = none → cmdAt t tag = none
  mbx : ∃ d, t.tortin.mbx = { s.tortin.mbx with dup := d }
  slices : ∀ n, ∃ d, sliceGet t n = { sliceGet s n with dup := d }
  quiet : isPrimary s = false → t.out = s.out ∧ isPrimary t = false

namespace Releases

theorem of_parts {s t : State} (h : t.tortin = s.tortin) (k : t.slices = s.slices)
    (hq : isPrimary s = false → t.out = s.out ∧ isPrimary t = false) : Releases s t where
  free tag hn := (cmdAt_congr h tag).trans hn
  mbx := ⟨s.tortin.mbx.dup, by rw [h]⟩
  slices n := ⟨(sliceGet s n).dup, by rw [sliceGet_congr k]⟩
  quiet := hq

theorem refl (s : State) : Releases s s := of_parts rfl rfl fun h => ⟨rfl, h⟩

theorem trans {a b c : State} (h : Releases a b) (k : Releases b c) : Releases a c where
  free tag hn := k.free tag (h.free tag hn)
  mbx := by
    obtain ⟨d, hd⟩ := h.mbx
    obtain ⟨e, he⟩ := k.mbx
    exact ⟨e, by rw [he, hd]⟩
  slices n := by
    obtain ⟨d, hd⟩ := h.slices n
    obtain ⟨e, he⟩ := k.slices n
    exact ⟨e, by rw [he, hd]⟩
  quiet hp := by
    obtain ⟨ho, hb⟩ := h.quiet hp
    obtain ⟨hc, hk⟩ := k.quiet hb
    exact ⟨hc.trans ho, hk⟩

variable {s t : State}

/-- A command set at a place that holds one. -/
theorem then_put (h : Releases s t) {tag : Nat} {c : Cmd} (hc : cmdAt s tag = some c) (d : Cmd) : Releases s (cmdPut t tag d) where
  free i hn := by
    have hi : i ≠ tag := fun he => by rw [he, hc] at hn; exact absurd hn (Option.some_ne_none c)
    rw [cmdAt_cmdPut_other hi, h.free i hn]
  mbx := h.mbx
  slices := h.slices
  quiet := h.quiet

theorem mode_eq (h : Releases s t) (n : Nat) : (sliceGet t n).mode = (sliceGet s n).mode := by
  obtain ⟨d, hd⟩ := h.slices n; rw [hd]

theorem sqGet_eq (h : Releases s t) (n k : Nat) : sqGet (sliceGet t n) k = sqGet (sliceGet s n) k := by
  obtain ⟨d, hd⟩ := h.slices n; unfold sqGet; rw [hd]

theorem cqGet_eq (h : Releases s t) (n k : Nat) : cqGet (sliceGet t n) k = cqGet (sliceGet s n) k := by
  obtain ⟨d, hd⟩ := h.slices n; unfold cqGet; rw [hd]

end Releases

/-- From `s` to `t` moreover every place that held a command holds the same one. -/
structure KeepsCommands (strict : Bool) (s t : State) : Prop extends Releases s t where
  same : ∀ tag c, cmdAt s tag = some c → ∃ d, cmdAt t tag = some d ∧ SameCmd strict c d

theorem SameCmd.refl (strict : Bool) (c : Cmd) : SameCmd strict c c := ⟨rfl, fun _ h => h⟩

theorem SameCmd.trans {strict : Bool} {c d e : Cmd} (h : SameCmd strict c d) (k : SameCmd strict d e) : SameCmd strict c e :=
  ⟨k.1.trans h.1, fun hs he => h.2 hs (k.2 hs he)⟩

/-- A command that has ended has its name. -/
theorem SameCmd.of_ended {strict : Bool} {c d : Cmd} (h : cmdIdent d = cmdIdent c) (he : d.stage = .ended) : SameCmd strict c d :=
  ⟨h, fun _ hp => absurd (he.symm.trans hp) (by decide)⟩

namespace KeepsCommands

variable {strict : Bool}

theorem of_parts {s t : State} (h : t.tortin = s.tortin) (k : t.slices = s.slices)
    (hq : isPrimary s = false → t.out = s.out ∧ isPrimary t = false) : KeepsCommands strict s t where
  toReleases := .of_parts h k hq
  same tag c hc := ⟨c, (cmdAt_congr h tag).trans hc, .refl _ c⟩

theorem refl (s : State) : KeepsCommands strict s s := of_parts rfl rfl fun h => ⟨rfl, h⟩

theorem of_only {m : Nat} {s t : State} (h : Only m s t) (ht : m.testBit 10 = false := by rfl) (hs : m.testBit 9 = false := by rfl)
    (ho : m.testBit 0 = false := by rfl) (hr : m.testBit 14 = false := by rfl) : KeepsCommands strict s t :=
  of_parts (h.tortin_eq ht) (h.slices_eq hs) fun hp => ⟨h.out_eq ho, (isPrimary_congr (h.seam_eq hr)).trans hp⟩

theorem trans {a b c : State} (h : KeepsCommands strict a b) (k : KeepsCommands strict b c) : KeepsCommands strict a c where
  toReleases := h.toReleases.trans k.toReleases
  same tag x hx := by
    obtain ⟨y, hy, hxy⟩ := h.same tag x hx
    obtain ⟨z, hz, hyz⟩ := k.same tag y hy
    exact ⟨z, hz, hxy.trans hyz⟩

theorem foldl {α : Type} {g : State → α → State} {l : List α} {s : State} (hg : ∀ s x, KeepsCommands strict s (g s x)) :
    KeepsCommands strict s (l.foldl g s) := by
  induction l generalizing s with
  | nil => exact refl s
  | cons x l ih => exact (hg s x).trans ih

variable {s t : State}

/-- A command set back at its place by a step that saw it earlier. -/
theorem then_put (h : KeepsCommands strict s t) {tag : Nat} {c d : Cmd} (hc : cmdAt s tag = some c) (hd : SameCmd strict c d) :
    KeepsCommands strict s (cmdPut t tag d) where
  toReleases := h.toReleases.then_put hc d
  same i x hx := by
    by_cases hi : i = tag
    · subst hi
      rw [hc] at hx
      cases hx
      exact ⟨d, cmdAt_cmdPut_same, hd⟩
    · rw [cmdAt_cmdPut_other hi]; exact h.same i x hx

theorem put {tag : Nat} {c d : Cmd} (h : cmdAt s tag = some c) (hd : SameCmd strict c d) : KeepsCommands strict s (cmdPut s tag d) :=
  (refl s).then_put h hd

/-- A command that stays is found with its name. -/
theorem find (h : KeepsCommands strict s t) {tag : Nat} {c : Cmd} (hc : cmdAt s tag = some c) :
    ∃ d, cmdAt t tag = some d ∧ d.origin = c.origin ∧ d.body = c.body ∧ d.order = c.order ∧ d.accepted = c.accepted := by
  obtain ⟨d, hd, hi, -⟩ := h.same tag c hc
  obtain ⟨ho, hb, hn, ha⟩ := by simpa only [cmdIdent, Prod.mk.injEq] using hi
  exact ⟨d, hd, ho, hb, hn, ha⟩

end KeepsCommands

/-! ### Ends, checks and acceptance -/

section
variable {strict : Bool}

theorem jot_alone {s : State} {slice : Nat} {release : Bool} {body : JBody} (h : isPrimary s = false) : jot s slice release body = s :=
  if_pos (by rw [h]; rfl)

theorem jot_keeps (s : State) (slice : Nat) (release : Bool) (body : JBody) : KeepsCommands strict s (jot s slice release body) :=
  .of_parts jot_only.tortin_eq jot_only.slices_eq fun h => by rw [jot_alone h]; exact ⟨rfl, h⟩

theorem pendPut_keeps (s : State) (n : Nat) (x : Option PendEntry) : KeepsCommands strict s (pendPut s n x) := by
  unfold pendPut
  refine KeepsCommands.trans ?_ (jot_keeps _ _ _ _)
  exact .of_parts rfl rfl fun h => ⟨rfl, h⟩

theorem pendReserve_keeps (s : State) (n tag : Nat) : KeepsCommands strict s (pendReserve s n tag) := by
  unfold pendReserve
  split
  · exact .refl s
  · exact pendPut_keeps _ _ _

theorem pendPurge_keeps (s : State) (owner : Nat) : KeepsCommands strict s (pendPurge s owner) := by
  unfold pendPurge
  split
  · exact .refl s
  · exact .foldl fun s e => (pendPut_keeps _ _ _).trans (.of_only tallyPut_only)

theorem pendPlace_keeps (s : State) (c : Cmd) : KeepsCommands strict s (pendPlace s c).1 := by
  unfold pendPlace
  split
  · exact .refl s
  · exact pendPurge_keeps _ _

theorem endCmd_keeps (s : State) (tag status : Nat) (before : Bool) (len : Nat) (extra : BitVec 64) :
    KeepsCommands strict s (endCmd s tag status before len extra) := by
  have hq : KeepsCommands strict s (if before then queueDrop s tag else s) := by
    split
    · exact .of_only queueDrop_only
    · exact .refl s
  unfold endCmd
  dsimp only
  generalize (if before then queueDrop s tag else s) = u at hq ⊢
  split
  · exact hq
  · rename_i c hc
    refine hq.trans ?_
    have hp : KeepsCommands strict u (if before then
        match c.approval with
        | none => u
        | some n => match tblFind n u.keys.pend with
          | none => u
          | some e => pendPut u n (some { e with reserved := none })
      else u) := by
      split
      · split
        · exact .refl u
        · split
          · exact .refl u
          · exact pendPut_keeps _ _ _
      · exact .refl u
    have he := fun d hd hs => hp.then_put (d := d) hc (.of_ended hd hs)
    split
    · refine KeepsCommands.trans ?_ (.of_only tallyPut_only)
      exact he _ rfl rfl
    · exact he _ rfl rfl

theorem endBefore_keeps (s : State) (tag status len : Nat) : KeepsCommands strict s (endBefore s tag status len) := endCmd_keeps _ _ _ _ _ _

theorem endRepeat_keeps (s : State) (tag : Nat) (k : Comp) : KeepsCommands strict s (endRepeat s tag k) := by
  unfold endRepeat
  split
  · exact .refl s
  · rename_i c hc; exact .put hc (.of_ended rfl rfl)

theorem dupSet_keeps (s : State) (c : Cmd) (d : List DupEntry) : KeepsCommands strict s (dupSet s c d) := by
  unfold dupSet
  split
  · rename_i n _ _ _
    refine ⟨⟨fun _ h => h, ⟨s.tortin.mbx.dup, rfl⟩, fun m => ?_, fun h => ⟨rfl, h⟩⟩, fun _ c hc => ⟨c, hc, .refl _ c⟩⟩
    by_cases hm : m = n
    · subst hm; exact ⟨d, sliceGet_slicePut_same⟩
    · exact ⟨(sliceGet s m).dup, sliceGet_slicePut_other hm⟩
  · exact ⟨⟨fun _ h => h, ⟨d, rfl⟩, fun m => ⟨(sliceGet s m).dup, rfl⟩, fun h => ⟨rfl, h⟩⟩, fun _ c hc => ⟨c, hc, .refl _ c⟩⟩

theorem advanceLate_keeps {s : State} {tag : Nat} {c : Cmd} {x : CmdSpec} (h : cmdAt s tag = some c) : KeepsCommands strict s (advanceLate s tag c x) := by
  unfold advanceLate
  dsimp only
  have hp : KeepsCommands strict s (pendPlace s c).1 := pendPlace_keeps s c
  split
  · exact endBefore_keeps _ _ _ _
  · split
    · exact .foldl fun s b => .of_only thmPost_only
    · split
      · exact endBefore_keeps _ _ _ _
      · split
        · exact hp.trans (endBefore_keeps _ _ _ _)
        · split
          · exact hp.trans (endBefore_keeps _ _ _ _)
          · refine KeepsCommands.then_put (hp.trans ?_) h ⟨rfl, fun _ h => h⟩
            split
            · exact pendReserve_keeps _ _ _
            · exact .refl _

theorem advance_keeps (s : State) (tag : Nat) : KeepsCommands strict s (advance s tag) := by
  unfold advance
  split
  · exact .refl s
  · rename_i c hc
    split
    · exact .refl s
    · split
      · split
        · exact .refl s
        · exact advanceLate_keeps hc
      · dsimp only
        have h1 : KeepsCommands strict s (cmdPut s tag { c with uses := [] }) := .put hc ⟨rfl, fun _ h => h⟩
        refine h1.trans ?_
        generalize hu : cmdPut s tag { c with uses := [] } = u
        have hcu : cmdAt u tag = some { c with uses := [] } := by rw [← hu]; exact cmdAt_cmdPut_same
        split
        · exact endBefore_keeps _ _ _ _
        · split
          · exact .refl u
          · split
            · exact KeepsCommands.trans (.of_only expiryTell_only) (endBefore_keeps _ _ _ _)
            · split
              · split
                · exact endBefore_keeps _ _ _ _
                · split
                  · exact .refl u
                  · exact .of_only thmPost_only
              · refine KeepsCommands.trans ?_ (advanceLate_keeps cmdAt_cmdPut_same)
                refine KeepsCommands.then_put ?_ hcu ⟨rfl, fun _ h => h⟩
                split
                · split
                  · exact .of_parts rfl rfl fun h => ⟨rfl, h⟩
                  · exact .refl u
                · exact .refl u

end

theorem enterCmd_keeps (s : State) (tag : Nat) : KeepsCommands false s (enterCmd s tag) := by
  unfold enterCmd
  split
  · exact .refl s
  · rename_i c hc
    have hown : KeepsCommands false s (cmdPut s tag { c with own := false }) := .put hc ⟨rfl, fun _ h => h⟩
    dsimp only
    split
    · exact hown.trans (endBefore_keeps _ _ _ _)
    · split
      · split
        · exact hown.trans (endBefore_keeps _ _ _ _)
        · split
          · exact endRepeat_keeps _ _ _
          · exact .put hc ⟨rfl, fun h => absurd h (by decide)⟩
      · have hd : KeepsCommands false s (dupEnter s c) := dupSet_keeps _ _ _
        have hj : KeepsCommands false s (if journalled c then
            jot (dupEnter s c) (jslice c) false (.accept (cToken c) c.origin c.body c.inlined) else dupEnter s c) := by
          refine hd.trans ?_
          split
          · exact jot_keeps _ _ _ _
          · exact .refl _
        split
        · exact hj.then_put hc ⟨rfl, fun h => absurd h (by decide)⟩
        · refine KeepsCommands.trans ?_ (advance_keeps _ _)
          exact hj.then_put hc ⟨rfl, fun h => absurd h (by decide)⟩

end Sys2Proof.Machine
end

section
set_option Elab.async false

/-! SUPPORT. Accesses of the host to slice pages and doorbells, and the settled statement O54 (R17, R45, R53, R57, R336). -/

namespace Sys2Proof.Machine

open Host Sys2Proof

/-! ### An access of the host: served, or held -/

theorem hostMeets_awake {s : State} {cause : Nat} {q : HostReq} {f : State → State} (hm : pwrMode s ≤ 1) :
    hostMeets s cause q f = f (wakeUp s cause) := by
  have hw : pwrMode (wakeUp s cause) < 2 := (pwrMode_wakeUp s cause).1 (by omega)
  exact if_pos (by simp [hostServed, hw])

/-- A wake that begins does not start the processors at once (Table 2-6). -/
theorem procRuns_wakeUp {s : State} {cause : Nat} (hm : 2 ≤ pwrMode s) (hp : procRuns s = false) :
    procRuns (wakeUp s cause) = false := by
  rcases wakeUp_cases s cause with e | ⟨h, -⟩ | ⟨-, e⟩
  · rw [e, hp]
  · omega
  · have hmode : pwrMode (wakeUp s cause) = pwrMode s := (pwrMode_wakeUp s cause).2 hm
    have hleave : (wakeUp s cause).pwr.leaving = some s.time.clk := by rw [e]; rfl
    have hclk : (wakeUp s cause).time.clk = s.time.clk := by rw [wakeUp_only.time_eq]
    have hpast : wakePast (wakeUp s cause) wakeProc = false := by
      unfold wakePast
      rw [hleave, hclk, Option.any_some]
      exact decide_eq_false (by unfold wakeProc cycUs; omega)
    unfold procRuns
    rw [hpast, hmode, if_neg (by omega), Bool.and_false, Bool.and_false]

theorem wakeUp_held {s : State} {cause : Nat} (hm : 2 ≤ pwrMode s) : (wakeUp s cause).pwr.held = s.pwr.held := by
  rcases wakeUp_cases s cause with e | ⟨h, -⟩ | ⟨-, e⟩
  · rw [e]
  · omega
  · rw [e]; rfl

/-- A write that meets a sleeping device is kept at the endpoint (R45). -/
theorem hostMeets_asleep {s : State} {cause : Nat} {q : HostReq} {f : State → State} (hm : 2 ≤ pwrMode s)
    (hp : procRuns s = false) (hq : q.isRead = false) : HeldIn s (hostMeets s cause q f) q := by
  have hmode : pwrMode (wakeUp s cause) = pwrMode s := (pwrMode_wakeUp s cause).2 hm
  have hserved : hostServed (wakeUp s cause) q.isRead = false := by
    simp only [hostServed, procRuns_wakeUp hm hp, hmode, hq, decide_eq_false (Nat.not_lt.2 hm), Bool.and_false, Bool.or_false]
  have he : hostMeets s cause q f = hostHold (wakeUp s cause) q := if_neg (by simp [hserved])
  rw [he]
  refine ⟨⟨capStamp (wakeUp s cause), ?_⟩, wakeUp_only.out_eq, wakeUp_only.slices_eq, wakeUp_only.tortin_eq, wakeUp_only.lc_eq⟩
  exact congrArg (· ++ _) (wakeUp_held hm)

/-! ### Writes to a slice page -/

/-- A row that writes a word to a slice page. -/
def PageRow (i : Instr) (n fn off : Nat) (pasid : Option Nat) (v : Word) (f : State → State) : Prop :=
  ∀ s, exec i s = .next (pageWrite s n fn pasid (pageReq fn n off pasid v) f)

section
variable {i : Instr} {n fn off : Nat} {pasid : Option Nat} {v : Word} {f : State → State} {s : State}

theorem sqTailRow (n fn k : Nat) (pasid : Option Nat) (v : Word) :
    PageRow (.sqTailWrite fn n k pasid v) n fn (0x10C + 0x20 * k) pasid v (fun t => sqBell t n k (fieldOf v 11 0) (bellAt t)) := fun _ => rfl

theorem cqHeadRow (n fn k : Nat) (pasid : Option Nat) (v : Word) :
    PageRow (.cqHeadWrite fn n k pasid v) n fn (0x30C + 0x20 * k) pasid v (fun t => cqBell t n k (fieldOf v 11 0) (bellAt t)) := fun _ => rfl

theorem sqCfgRow (n fn k : Nat) (pasid : Option Nat) (v : Word) :
    PageRow (.sqCfgWrite fn n k pasid v) n fn (0x108 + 0x20 * k) pasid v (fun t => sqCfg t n k v) := fun _ => rfl

theorem cqCfgRow (n fn k : Nat) (pasid : Option Nat) (v : Word) :
    PageRow (.cqCfgWrite fn n k pasid v) n fn (0x308 + 0x20 * k) pasid v (fun t => cqCfg t n k v) := fun _ => rfl

/-- The page takes the write, made after the wake that the access brings. -/
theorem PageRow.next {P : State → Prop} (hr : PageRow i n fn off pasid v f) (h : PageTakes s n fn pasid) (hp : P (f (wakeUp s 0))) :
    Next i s P := by
  obtain ⟨hv, hm, hthere, hact, hport, hlc, hpas⟩ := h
  have hsl : sliceGet (wakeUp s 0) n = sliceGet s n := sliceGet_congr wakeUp_only.slices_eq n
  have hseen : pageSeen (wakeUp s 0) n fn = true := by simp [pageSeen, hsl, hact, hport]
  have hlc' : (wakeUp s 0).lc.trans = none := by rw [wakeUp_only.lc_eq, hlc]
  refine ⟨_, (hr s).trans (congrArg Host.Outcome.next ?_), hp⟩
  unfold pageWrite pageServed
  rw [if_neg (by simp [hv, hthere]), hostMeets_awake hm, if_neg (by simp [hseen]), if_neg (by simp [hsl, hact, hlc'])]
  rcases hpas with rfl | rfl
  · rfl
  · exact if_pos (by rw [hsl])

/-- The page is there and bound, but does not take the write, which is counted. -/
theorem PageRow.next_ignored (hr : PageRow i n fn off pasid v f) (hv : s.pwr.vault = false) (hm : pwrMode s ≤ 1) (ht : portThere s fn = true)
    (hport : (sliceGet s n).port = fn) (hb : (sliceGet s n).mode ≠ .unbound)
    (h : (sliceGet s n).mode ≠ .active ∨ s.lc.trans.isSome = true ∨ ∃ p, pasid = some p ∧ p ≠ (sliceGet s n).pasid) :
    Next i s (fun t => (sliceGet t n).sq = (sliceGet s n).sq ∧ (sliceGet t n).cq = (sliceGet s n).cq ∧
      (sliceGet t n).ignWr = satAdd32 (sliceGet s n).ignWr 1) := by
  have hsl : sliceGet (wakeUp s 0) n = sliceGet s n := sliceGet_congr wakeUp_only.slices_eq n
  have hlc : (wakeUp s 0).lc = s.lc := wakeUp_only.lc_eq
  have hseen : pageSeen (wakeUp s 0) n fn = true := by simp [pageSeen, hsl, hb, hport]
  have hign : pageServed (wakeUp s 0) n fn pasid f = slcIgn (wakeUp s 0) n := by
    unfold pageServed
    rw [if_neg (by simp [hseen]), hsl, hlc]
    by_cases hact : (sliceGet s n).mode ≠ .active ∨ s.lc.trans.isSome = true
    · exact if_pos (by simpa using hact)
    · rw [if_neg (by simpa using hact)]
      obtain ⟨p, rfl, hne⟩ := (or_assoc.2 h).resolve_left hact
      exact if_neg hne
  have hw : pageWrite s n fn pasid (pageReq fn n off pasid v) f = slcIgn (wakeUp s 0) n := by
    unfold pageWrite
    rw [if_neg (by simp [hv, ht]), hostMeets_awake hm, hign]
  refine ⟨_, (hr s).trans (congrArg Host.Outcome.next hw), ?_⟩
  dsimp only
  rw [sliceGet_slcIgn, hsl]
  exact ⟨rfl, rfl, rfl⟩

theorem PageRow.next_held (hr : PageRow i n fn off pasid v f) (hv : s.pwr.vault = false) (ht : portThere s fn = true) (hm : 2 ≤ pwrMode s)
    (hp : procRuns s = false) : Next i s (fun t => HeldIn s t (pageReq fn n off pasid v)) := by
  refine ⟨_, hr s, ?_⟩
  unfold pageWrite
  rw [if_neg (by simp [hv, ht])]
  exact hostMeets_asleep hm hp rfl

end

/-! ### Doorbells -/

theorem fieldOf_low12 (v : Word) : fieldOf v 11 0 = v.toNat % 4096 := by simp [fieldOf, bitsN]

theorem sliceGet_bellStamp (s : State) (n m : Nat) : sliceGet (bellStamp s n) m = sliceGet s m := sliceGet_congr bellStamp_only.slices_eq m

theorem bellOk_iff (size from_ now v : Nat) :
    bellOk size from_ now v = true ↔ v < size ∧ (now + size - from_) % size ≤ (v + size - from_) % size := by
  simp [bellOk]

theorem sqBell_taken {s : State} {n k v : Nat} {at_ : Stamp} {r : SqRing} (hr : sqGet (sliceGet s n) k = r)
    (h : v < ringSize r.cfg ∧ (r.tail + ringSize r.cfg - r.head) % ringSize r.cfg ≤ (v + ringSize r.cfg - r.head) % ringSize r.cfg) :
    sliceGet (sqBell s n k v at_) n = { sliceGet s n with sq := tblSet {} k { r with tail := v, bell := at_ } (sliceGet s n).sq } := by
  have he : sqBell s n k v at_ = sqPut (bellStamp s n) n k { r with tail := v, bell := at_ } := by
    unfold sqBell
    rw [hr]
    exact if_pos ((bellOk_iff _ _ _ _).2 h)
  rw [he, sliceGet_sqPut, sliceGet_bellStamp]

theorem sqBell_refused {s : State} {n k v : Nat} {at_ : Stamp} {r : SqRing} (hr : sqGet (sliceGet s n) k = r)
    (h : ¬ (v < ringSize r.cfg ∧ (r.tail + ringSize r.cfg - r.head) % ringSize r.cfg ≤ (v + ringSize r.cfg - r.head) % ringSize r.cfg)) :
    sliceGet (sqBell s n k v at_) n = { sliceGet s n with
      ignWr := satAdd32 (sliceGet s n).ignWr 1, sqErr := sqcWord (sliceGet s n).sqErr k } := by
  have he : sqBell s n k v at_ = sqErrBit (slcIgn (bellStamp s n) n) n k := by
    unfold sqBell
    rw [hr]
    exact if_neg (mt (bellOk_iff _ _ _ _).1 h)
  rw [he, sliceGet_sqErrBit, sliceGet_slcIgn, sliceGet_bellStamp]

theorem bitOf_sqcWord_same {w : Word} {k : Nat} (h : k < 16) : bitOf (sqcWord w k) k = true := by
  rw [bitOf_sqcWord (by omega) (by omega), beq_self_eq_true, Bool.true_or]

/-- Settles O54, by the two cases of a doorbell that reaches its page. -/
theorem doorbellsAreChecked : Obligations.DoorbellsAreChecked := by
  unfold Obligations.DoorbellsAreChecked
  intro s n fn k pasid v hpage hk r hr
  have hsl : sliceGet (wakeUp s 0) n = sliceGet s n := sliceGet_congr wakeUp_only.slices_eq n
  have hr' : sqGet (sliceGet (wakeUp s 0) n) k = r := by rw [hsl, hr]
  refine ⟨fun h => (sqTailRow n fn k pasid v).next hpage ?_, fun h => (sqTailRow n fn k pasid v).next hpage ?_⟩
  · rw [fieldOf_low12, sqBell_taken hr' h, hsl]
    exact ⟨tblGet_set_same, rfl, rfl⟩
  · rw [fieldOf_low12, sqBell_refused hr' h, hsl]
    exact ⟨rfl, bitOf_sqcWord_same hk, rfl⟩

end Sys2Proof.Machine
end

section
set_option Elab.async false

/-! SUPPORT. The configuration of rings, completion heads, coalescing and vectors (R17, R51, R52, R57, R77). -/

namespace Sys2Proof.Machine

open Host Sys2Proof

/-! ### The word that a configuration write stores -/

/-- A size that R51 allows. -/
def sizeOk (v : Word) : Prop := 4 ≤ fieldOf v 3 0 ∧ fieldOf v 3 0 ≤ 12

theorem keepOf_bit31 (s : State) : bitOf (keepOf s sqKeep) 31 = false ∧ bitOf (keepOf s cqKeep) 31 = false := by
  unfold keepOf
  split <;> decide

theorem keepOf_congr {s t : State} (h : t.lc = s.lc) (keep : Word) : keepOf t keep = keepOf s keep := by
  unfold keepOf lcState topSlot; rw [h]

/-- The word that a ring which is off takes. -/
def cfgMerged (old v keep : Word) : Word := (v &&& ~~~ keep) ||| (old &&& keep)

theorem ringOn_cfgMerged {old v keep : Word} (h : bitOf keep 31 = false) : ringOn (cfgMerged old v keep) = ringOn v := by
  unfold bitOf at h
  unfold ringOn cfgMerged bitOf
  rw [BitVec.getLsbD_or, BitVec.getLsbD_and, BitVec.getLsbD_and, BitVec.getLsbD_not, h]
  simp

theorem ringOn_putBit {w : Word} {i : Nat} {b : Bool} (h : i < 31) : ringOn (putBit w i b) = ringOn w := by
  unfold ringOn
  rw [bitOf_putBit (by omega), if_neg (by omega)]

theorem ringOn_putBit31 (w : Word) : ringOn (putBit w 31 false) = false := by
  unfold ringOn
  rw [bitOf_putBit (by decide), if_pos rfl]

theorem ringHalted_putBit29 (w : Word) : ringHalted (putBit w 29 false) = false := by
  unfold ringHalted
  rw [bitOf_putBit (by decide), if_pos rfl]

theorem cfgWrite_off {old v keep : Word} (hs : sizeOk v) (h : ringOn old = false) : cfgWrite old v keep = some (cfgMerged old v keep) := by
  unfold cfgWrite cfgMerged
  rw [if_neg (by have := hs.1; have := hs.2; omega), if_neg (by simp [h])]

theorem cfgWrite_stop {old v keep : Word} (hs : sizeOk v) (h : ringOn old = true) (hv : ringOn v = false) :
    cfgWrite old v keep = some (putBit old 31 false) := by
  unfold cfgWrite
  rw [if_neg (by have := hs.1; have := hs.2; omega), if_pos h, if_neg (by simp [hv])]

theorem cfgWrite_none {old v keep : Word} (h : fieldOf v 3 0 < 4 ∨ 12 < fieldOf v 3 0 ∨ (ringOn old = true ∧ ringOn v = true)) :
    cfgWrite old v keep = none := by
  unfold cfgWrite
  rcases h with h | h | ⟨ho, hv⟩
  · exact if_pos (.inl h)
  · exact if_pos (.inr h)
  · rw [if_pos ho, if_pos hv, ite_self]

/-! ### Submission rings -/

section
variable {s : State} {n k : Nat} {v w : Word}

/-- The word of a submission ring: only a slice that may have alarm rings marks one (R74). -/
def sqWord (x : Slice) (w : Word) : Word := if x.alarmOk then w else putBit w 30 false

theorem ringOn_sqWord (x : Slice) (w : Word) : ringOn (sqWord x w) = ringOn w := by
  unfold sqWord
  split
  · rfl
  · exact ringOn_putBit (by decide)

/-- What a submission ring is after its configuration took `w`: begun anew, resumed, or as before. -/
def sqConfigured (r : SqRing) (w : Word) : SqRing :=
  if ringOn w && !ringOn r.cfg then
    if ringHalted r.cfg then { r with cfg := putBit w 29 false } else { r with cfg := w, head := 0, tail := 0, stall := none }
  else { r with cfg := w }

theorem sqCfg_ignored (h : cfgWrite (sqGet (sliceGet s n) k).cfg v (keepOf s sqKeep) = none) : sqCfg s n k v = slcIgn s n := by
  unfold sqCfg
  dsimp only
  rw [h]

theorem sqGet_sqCfg (h : cfgWrite (sqGet (sliceGet s n) k).cfg v (keepOf s sqKeep) = some w) :
    sqGet (sliceGet (sqCfg s n k v) n) k = sqConfigured (sqGet (sliceGet s n) k) (sqWord (sliceGet s n) w) := by
  have hw : (if (sliceGet s n).alarmOk = true then w else putBit w 30 false) = sqWord (sliceGet s n) w := rfl
  unfold sqCfg sqConfigured
  dsimp only
  rw [h]
  dsimp only
  rw [hw]
  split
  · split <;> exact sqGet_sqPut_same
  · exact sqGet_sqPut_same

end

/-! ### Completion rings -/

section
variable {s : State} {n k : Nat} {v w : Word}

/-- What a completion ring is after its configuration took `w`. -/
def cqConfigured (r : CqRing) (w : Word) : CqRing :=
  if ringOn w && !ringOn r.cfg then
    if ringHalted r.cfg then { r with cfg := putBit w 29 false } else { r with cfg := w, head := 0, tail := 0, phase := true, since := 0 }
  else { r with cfg := w }

theorem cqCfg_ignored (h : cfgWrite (cqGet (sliceGet s n) k).cfg v (keepOf s cqKeep) = none ∨ (sliceGet s n).vecCount ≤ fieldOf v 20 16) :
    cqCfg s n k v = slcIgn s n := by
  unfold cqCfg
  dsimp only
  split
  · rfl
  · rename_i w hw
    exact if_pos (h.resolve_left (by rw [hw]; exact Option.some_ne_none w))

theorem cqGet_cqCfg (h : cfgWrite (cqGet (sliceGet s n) k).cfg v (keepOf s cqKeep) = some w) (hv : fieldOf v 20 16 < (sliceGet s n).vecCount) :
    cqGet (sliceGet (cqCfg s n k v) n) k = cqConfigured (cqGet (sliceGet s n) k) w := by
  unfold cqCfg cqConfigured
  dsimp only
  rw [h]
  dsimp only
  rw [if_neg (by omega)]
  split
  · split <;> exact cqGet_cqPut_same
  · exact cqGet_cqPut_same

theorem rxReturn_slices (s : State) (n k size lo hi : Nat) : (rxReturn s n k size lo hi).slices = s.slices := rxReturn_only.slices_eq

theorem cqBell_taken {x : Nat} {at_ : Stamp} {r : CqRing} (hr : cqGet (sliceGet s n) k = r)
    (h : x < ringSize r.cfg ∧ (x + ringSize r.cfg - r.head) % ringSize r.cfg ≤ (r.tail + ringSize r.cfg - r.head) % ringSize r.cfg) :
    sliceGet (cqBell s n k x at_) n = { sliceGet s n with cq := tblSet {} k { r with head := x, bell := at_ } (sliceGet s n).cq } := by
  have hb : sliceGet (bellStamp s n) n = sliceGet s n := sliceGet_bellStamp s n n
  have he : cqBell s n k x at_ = rxReturn (cqPut (bellStamp s n) n k { r with head := x, bell := at_ }) n k (ringSize r.cfg) r.head x := by
    unfold cqBell
    dsimp only
    rw [hb, hr]
    exact if_pos (by simp [h])
  rw [he, sliceGet_congr (rxReturn_slices _ _ _ _ _ _), sliceGet_cqPut, hb]

theorem cqBell_refused {x : Nat} {at_ : Stamp} {r : CqRing} (hr : cqGet (sliceGet s n) k = r)
    (h : ¬ (x < ringSize r.cfg ∧ (x + ringSize r.cfg - r.head) % ringSize r.cfg ≤ (r.tail + ringSize r.cfg - r.head) % ringSize r.cfg)) :
    sliceGet (cqBell s n k x at_) n = { sliceGet s n with
      ignWr := satAdd32 (sliceGet s n).ignWr 1, cqErr := sqcWord (sliceGet s n).cqErr k } := by
  have hb : sliceGet (bellStamp s n) n = sliceGet s n := sliceGet_bellStamp s n n
  have he : cqBell s n k x at_ = cqErrBit (slcIgn (bellStamp s n) n) n k := by
    unfold cqBell
    dsimp only
    rw [hb, hr]
    exact if_neg (by simpa using h)
  rw [he, sliceGet_cqErrBit, sliceGet_slcIgn, hb]

end

/-! ### Vectors -/

theorem fnGet_fnPut_same {s : State} {p : Nat} {f : FnState} : fnGet (fnPut s p f) p = f := by
  unfold fnGet fnPut
  split <;> rfl

theorem raiseMsix_now {s : State} {p vec : Nat} (h : canRaise s p vec) : raiseMsix s p vec = emit s (.msix p vec) := by
  obtain ⟨hs, hl, he, hf, hu⟩ := h
  unfold raiseMsix
  dsimp only
  rw [if_neg (by simp [hs]), if_pos (by simp [hl, he, hf, hu])]

theorem raiseMsix_unmasked (s : State) (p vec : Nat) : (fnGet (raiseMsix s p vec) p).unmasked = (fnGet s p).unmasked := by
  unfold raiseMsix
  dsimp only
  split
  · rfl
  · split
    · rfl
    · rw [fnGet_fnPut_same]

/-- A vector that is raised changes of the slice at most what it has parked. -/
theorem raiseVector_slice (s : State) (n vec : Nat) : ∃ p, sliceGet (raiseVector s n vec) n = { sliceGet s n with parked := p } := by
  unfold raiseVector
  dsimp only
  split
  · exact ⟨_, sliceGet_slicePut_same⟩
  · exact ⟨(sliceGet s n).parked, sliceGet_congr raiseMsix_only.slices_eq n⟩

theorem cqRaise_slice (s : State) (n k : Nat) : ∃ p, sliceGet (cqRaise s n k) n =
    { sliceGet s n with cq := tblSet {} k { cqGet (sliceGet s n) k with since := 0 } (sliceGet s n).cq, parked := p } := by
  obtain ⟨p, hp⟩ := raiseVector_slice (cqPut s n k { cqGet (sliceGet s n) k with since := 0 }) n (fieldOf (cqGet (sliceGet s n) k).cfg 20 16)
  exact ⟨p, hp.trans (by rw [sliceGet_cqPut])⟩

theorem cqRaise_out {s : State} {n k : Nat} (hp : (sliceGet s n).parking = false)
    (h : canRaise s (sliceGet s n).port ((sliceGet s n).vecBase + fieldOf (cqGet (sliceGet s n) k).cfg 20 16)) :
    (cqRaise s n k).out = .msix (sliceGet s n).port ((sliceGet s n).vecBase + fieldOf (cqGet (sliceGet s n) k).cfg 20 16) :: s.out := by
  have hu : canRaise (cqPut s n k { cqGet (sliceGet s n) k with since := 0 }) (sliceGet s n).port
    ((sliceGet s n).vecBase + fieldOf (cqGet (sliceGet s n) k).cfg 20 16) := h
  unfold cqRaise raiseVector
  dsimp only
  rw [sliceGet_cqPut, if_neg (by simp [hp])]
  dsimp only
  rw [raiseMsix_now hu]
  rfl

/-- The coalescing time passes (R77 mode 2). -/
theorem next_cqCoalTimeout {s : State} {n k : Nat} {r : CqRing} (hr : cqGet (sliceGet s n) k = r) (hs : r.since ≠ 0) (hm : fieldOf r.cfg 25 24 = 2)
    (hc : r.firstAt + fieldOf r.coal 31 16 * cycUs ≤ s.time.clk) : Next (.cqCoalTimeout n k) s (fun t =>
      (cqGet (sliceGet t n) k).since = 0 ∧
      ((sliceGet s n).parking = false → canRaise s (sliceGet s n).port ((sliceGet s n).vecBase + fieldOf r.cfg 20 16) →
        t.out = .msix (sliceGet s n).port ((sliceGet s n).vecBase + fieldOf r.cfg 20 16) :: s.out)) := by
  subst hr
  refine next_of (t := cqRaise s n k) (congrArg Host.Outcome.next (if_pos ⟨hs, hm, hc⟩)) ⟨?_, cqRaise_out⟩
  obtain ⟨p, hp⟩ := cqRaise_slice s n k
  rw [hp]
  exact congrArg CqRing.since tblGet_set_same

theorem next_cqCoalTimeout_not {s : State} {n k : Nat} (h : ¬ ((cqGet (sliceGet s n) k).since ≠ 0 ∧ fieldOf (cqGet (sliceGet s n) k).cfg 25 24 = 2 ∧
    (cqGet (sliceGet s n) k).firstAt + fieldOf (cqGet (sliceGet s n) k).coal 31 16 * cycUs ≤ s.time.clk)) :
    Next (.cqCoalTimeout n k) s (fun t => t = s) :=
  next_of (congrArg Host.Outcome.next (if_neg h)) rfl

/-- The function with the entry `vec` of its table unmasked. -/
def unmaskFn (f : FnState) (vec : Nat) : FnState := { f with unmasked := tblSet false vec true f.unmasked }

theorem unmaskFn_same (f : FnState) (vec : Nat) : tblGet false (unmaskFn f vec).unmasked vec = true := by
  unfold unmaskFn
  dsimp only
  exact tblGet_set_same (α := Bool)

theorem exec_msixVectorUnmask {s : State} {fn vec : Nat} (hv : s.pwr.vault = false) (ht : portThere s fn = true) (hn : vec < msixEntries s) :
    exec (.msixVectorUnmask fn vec) s = .next (if tblGet false (fnGet s fn).pba vec && !hostSilent s then
      raiseMsix (fnPut s fn { unmaskFn (fnGet s fn) vec with pba := tblSet false vec false (fnGet s fn).pba }) fn vec
    else fnPut s fn (unmaskFn (fnGet s fn) vec)) :=
  congrArg Host.Outcome.next (if_neg (by simp [hv, ht, hn]))

theorem next_msixVectorUnmask {s : State} {fn vec : Nat} (hv : s.pwr.vault = false) (ht : portThere s fn = true) (hn : vec < msixEntries s) :
    Next (.msixVectorUnmask fn vec) s (fun t => tblGet false (fnGet t fn).unmasked vec = true ∧
      (tblGet false (fnGet s fn).pba vec = true → hostSilent s = false → fnLive s fn = true → (fnGet s fn).msixEn = true →
        (fnGet s fn).fnMask = false → t.out = .msix fn vec :: s.out ∧ tblGet false (fnGet t fn).pba vec = false) ∧
      (tblGet false (fnGet s fn).pba vec = false → t.out = s.out)) := by
  refine next_of (exec_msixVectorUnmask hv ht hn) ?_
  by_cases hp : tblGet false (fnGet s fn).pba vec = true ∧ hostSilent s = false
  · rw [if_pos (by simp [hp])]
    generalize hu : fnPut s fn { unmaskFn (fnGet s fn) vec with pba := tblSet false vec false (fnGet s fn).pba } = u
    have hf : fnGet u fn = { unmaskFn (fnGet s fn) vec with pba := tblSet false vec false (fnGet s fn).pba } := by
      rw [← hu]; exact fnGet_fnPut_same
    have ho : u.out = s.out := by rw [← hu, fnPut_only.out_eq]
    have hsil : hostSilent u = hostSilent s := by unfold hostSilent; rw [← hu, fnPut_only.seam_eq]
    refine ⟨?_, fun _ hs hl he hm => ?_, fun h => absurd hp.1 (by simp [h])⟩
    · rw [raiseMsix_unmasked, hf]; exact unmaskFn_same _ _
    · have hlive : fnLive u fn = true := by unfold fnLive at hl ⊢; rw [hf]; exact hl
      have hc : canRaise u fn vec := ⟨hsil.trans hs, hlive, by rw [hf]; exact he, by rw [hf]; exact hm, by rw [hf]; exact unmaskFn_same _ _⟩
      rw [raiseMsix_now hc]
      have hg : fnGet (emit u (.msix fn vec)) fn = fnGet u fn := rfl
      refine ⟨congrArg _ ho, ?_⟩
      rw [hg, hf]
      dsimp only
      exact tblGet_set_same (α := Bool)
  · rw [if_neg (by simpa using hp)]
    refine ⟨?_, fun h hs => absurd ⟨h, hs⟩ hp, fun _ => fnPut_only.out_eq⟩
    rw [fnGet_fnPut_same]
    exact unmaskFn_same _ _

theorem next_msixVectorUnmask_not {s : State} {fn vec : Nat} (h : s.pwr.vault = true ∨ portThere s fn = false ∨ msixEntries s ≤ vec) :
    Next (.msixVectorUnmask fn vec) s (fun t => t = s) := by
  refine next_of (congrArg Host.Outcome.next (if_pos ?_)) rfl
  rcases h with h | h | h
  · exact .inr (.inl h)
  · exact .inr (.inr (by simp [h]))
  · exact .inl h

end Sys2Proof.Machine
end

section
set_option Elab.async false

/-! SUPPORT. The front mailbox, and the settled statement O55 (R78, R79). -/

namespace Sys2Proof.Machine

open Host Sys2Proof

/-! ### The front mailbox -/

theorem debugRights_wakeUp (s : State) (cause : Nat) : debugRights (wakeUp s cause) = debugRights s := by
  have hlc : (wakeUp s cause).lc = s.lc := wakeUp_only.lc_eq
  have hstate : lcState (wakeUp s cause) = lcState s := by unfold lcState topSlot; rw [hlc]
  unfold debugRights lcOpen
  rw [hstate, hlc, wakeUp_only.scorch_eq, wakeUp_srcStat (by decide)]

theorem cpHalted_wakeUp (s : State) (cause : Nat) : cpHalted (wakeUp s cause) = cpHalted s := by
  unfold cpHalted
  rw [debugRights_wakeUp, wakeUp_only.lc_eq]

/-- A write of `MBX_CTRL` to an awake device is made once the device has noted the access. -/
theorem next_mbxGo {s : State} {p : Nat} {v : Word} {P : State → Prop} (hv : s.pwr.vault = false) (hm : pwrMode s ≤ 1) (ht : portThere s p = true)
    (h : P (mbxCtrl (wakeUp s 11) p v)) : Next (.mbxGo p v) s P := by
  refine next_of (congrArg Host.Outcome.next ?_) h
  rw [if_neg (by simp [hv, ht]), hostMeets_awake hm]

/-- A write that is served sets `IRQ_EN`, and its `GO` starts a request where code serves the mailbox. -/
theorem mbxCtrl_eq {s : State} (h : s.lc.trans = none) (p : Nat) (v : Word) : mbxCtrl s p v =
    if bitOf v 0 = true ∧ s.tortin.server ≠ 0 ∧ cpHalted s = false then mbxGo (regPut s aMbxCtrl (v &&& 2#32)) p
    else regPut s aMbxCtrl (v &&& 2#32) := by
  unfold mbxCtrl
  rw [if_neg (by simp [h])]
  simp [and_assoc]

/-- The device with the mailbox's request begun. -/
theorem mbxGo_begins {s : State} (p : Nat) (h : s.tortin.mbx.busy = false) :
    (mbxGo s p).tortin.mbx.busy = true ∧ (mbxGo s p).tortin.mbx.done = false ∧ (mbxGo s p).tortin.mbx.fn = p ∧
    ∃ d, cmdAt (mbxGo s p) mbxTag = some d ∧ d.origin = .mailbox p ∧ d.order = s.tortin.order := by
  unfold mbxGo
  dsimp only
  rw [if_neg (by simp [h])]
  generalize hu : cmdPut _ mbxTag _ = u
  have hk := enterCmd_keeps u mbxTag
  have hc : cmdAt u mbxTag = some { origin := .mailbox p, body := mbxBody s, order := s.tortin.order, accepted := nowStamp s } := by
    rw [← hu]; exact cmdAt_cmdPut_same
  obtain ⟨d, hd⟩ := hk.mbx
  obtain ⟨e, he, horigin, -, horder, -⟩ := hk.find hc
  rw [hd, ← hu]
  exact ⟨rfl, rfl, rfl, e, hu ▸ he, horigin, horder⟩

theorem mbxGo_refused {s : State} (p : Nat) (h : s.tortin.mbx.busy = true) :
    (mbxGo s p).tortin = { s.tortin with mbx := { s.tortin.mbx with refused := true } } ∧
    regGet (mbxGo s p) aMbxRefused = satAdd32 (regGet s aMbxRefused) 1 := by
  have he : mbxGo s p = regAdd { s with tortin := { s.tortin with mbx := { s.tortin.mbx with refused := true } } } aMbxRefused 1 := if_pos h
  rw [he]
  exact ⟨rfl, regGet_regPut_same⟩

theorem next_mbxGo_started {s : State} {p : Nat} {v : Word} (hv : s.pwr.vault = false) (hm : pwrMode s ≤ 1) (ht : portThere s p = true)
    (hlc : s.lc.trans = none) (hgo : bitOf v 0 = true) (hs : s.tortin.server ≠ 0) (hh : cpHalted s = false) :
    (s.tortin.mbx.busy = false → Next (.mbxGo p v) s (fun t => t.tortin.mbx.busy = true ∧ t.tortin.mbx.done = false ∧
      t.tortin.mbx.fn = p ∧ ∃ d, cmdAt t mbxTag = some d ∧ d.origin = .mailbox p ∧ d.order = s.tortin.order)) ∧
    (s.tortin.mbx.busy = true → Next (.mbxGo p v) s (fun t =>
      t.tortin = { s.tortin with mbx := { s.tortin.mbx with refused := true } } ∧
      regGet t aMbxRefused = satAdd32 (regGet s aMbxRefused) 1)) := by
  have htor : (wakeUp s 11).tortin = s.tortin := wakeUp_only.tortin_eq
  have he : mbxCtrl (wakeUp s 11) p v = mbxGo (regPut (wakeUp s 11) aMbxCtrl (v &&& 2#32)) p := by
    rw [mbxCtrl_eq (by rw [wakeUp_only.lc_eq, hlc]), if_pos ⟨hgo, by rw [htor]; exact hs, by rw [cpHalted_wakeUp, hh]⟩]
  have hpt : (regPut (wakeUp s 11) aMbxCtrl (v &&& 2#32)).tortin = s.tortin := htor
  refine ⟨fun hb => next_mbxGo hv hm ht ?_, fun hb => next_mbxGo hv hm ht ?_⟩ <;> rw [he]
  · have hbegun := mbxGo_begins p (s := regPut (wakeUp s 11) aMbxCtrl (v &&& 2#32)) (by rw [hpt, hb])
    rwa [hpt] at hbegun
  · obtain ⟨hrefused, hreg⟩ := mbxGo_refused p (s := regPut (wakeUp s 11) aMbxCtrl (v &&& 2#32)) (by rw [hpt, hb])
    refine ⟨by rw [hrefused, hpt], ?_⟩
    rw [hreg, regGet_regPut_other (by decide), wakeUp_reg (by decide) (by decide) (by decide) (by decide)]

theorem mbxCtrl_idle {s : State} (h : s.lc.trans = none) (p : Nat) {v : Word} (hn : ¬ (bitOf v 0 = true ∧ s.tortin.server ≠ 0 ∧ cpHalted s = false)) :
    mbxCtrl s p v = regPut s aMbxCtrl (v &&& 2#32) := by
  rw [mbxCtrl_eq h, if_neg hn]

/-- A write of `MBX_CTRL` that starts nothing. -/
theorem next_mbxGo_idle {s : State} {p : Nat} {v : Word} (hv : s.pwr.vault = false) (hm : pwrMode s ≤ 1) (ht : portThere s p = true)
    (hlc : s.lc.trans = none) (hn : bitOf v 0 = false ∨ s.tortin.server = 0 ∨ cpHalted s = true) :
    Next (.mbxGo p v) s (fun t => t.tortin = s.tortin ∧ regGet t aMbxCtrl = v &&& 2#32) := by
  have htor : (wakeUp s 11).tortin = s.tortin := wakeUp_only.tortin_eq
  refine next_mbxGo hv hm ht ?_
  rw [mbxCtrl_idle (by rw [wakeUp_only.lc_eq, hlc])]
  · exact ⟨htor, regGet_regPut_same⟩
  · rw [htor, cpHalted_wakeUp]
    rintro ⟨hgo, hs, hh⟩
    rcases hn with hn | hn | hn
    · simp [hn] at hgo
    · exact hs hn
    · simp [hn] at hh

theorem next_mbxGo_transition {s : State} {p : Nat} {v : Word} (hv : s.pwr.vault = false) (hm : pwrMode s ≤ 1) (ht : portThere s p = true)
    (hlc : s.lc.trans.isSome = true) : Next (.mbxGo p v) s (fun t => t.tortin = s.tortin) := by
  refine next_mbxGo hv hm ht ?_
  have he : mbxCtrl (wakeUp s 11) p v = ignWrite (wakeUp s 11) := if_pos (by rw [wakeUp_only.lc_eq, hlc])
  rw [he]
  exact ignWrite_only.tortin_eq.trans wakeUp_only.tortin_eq

theorem next_mbxGo_held {s : State} {p : Nat} {v : Word} (hv : s.pwr.vault = false) (ht : portThere s p = true) (hm : 2 ≤ pwrMode s)
    (hp : procRuns s = false) : Next (.mbxGo p v) s (fun t => HeldIn s t (.write p none (.reg aMbxCtrl) v)) :=
  next_of (congrArg Host.Outcome.next (if_neg (by simp [hv, ht]))) (hostMeets_asleep hm hp rfl)

theorem next_mbxGo_absent {s : State} {p : Nat} {v : Word} (h : s.pwr.vault = true ∨ portThere s p = false) :
    Next (.mbxGo p v) s (fun t => t = s) :=
  next_of (congrArg Host.Outcome.next (if_pos (by simpa using h))) rfl

/-! ### The rows of a page, by what they find -/

section
variable {s : State} {n fn k : Nat} {pasid : Option Nat} {v : Word}

/-- A submission ring whose configuration takes the write. -/
theorem next_sqCfg {r : SqRing} {w : Word} (hpage : PageTakes s n fn pasid) (hr : sqGet (sliceGet s n) k = r)
    (h : cfgWrite r.cfg v (keepOf s sqKeep) = some w) :
    Next (.sqCfgWrite fn n k pasid v) s (fun t => sqGet (sliceGet t n) k = sqConfigured r (sqWord (sliceGet s n) w)) := by
  have hsl : sliceGet (wakeUp s 0) n = sliceGet s n := sliceGet_congr wakeUp_only.slices_eq n
  refine (sqCfgRow n fn k pasid v).next hpage ?_
  rw [sqGet_sqCfg (w := w) (by rw [hsl, hr, keepOf_congr wakeUp_only.lc_eq, h]), hsl, hr]

theorem next_sqCfg_ignored {r : SqRing} (hpage : PageTakes s n fn pasid) (hr : sqGet (sliceGet s n) k = r)
    (h : cfgWrite r.cfg v (keepOf s sqKeep) = none) : Next (.sqCfgWrite fn n k pasid v) s (fun t =>
      (sliceGet t n).sq = (sliceGet s n).sq ∧ (sliceGet t n).ignWr = satAdd32 (sliceGet s n).ignWr 1) := by
  have hsl : sliceGet (wakeUp s 0) n = sliceGet s n := sliceGet_congr wakeUp_only.slices_eq n
  refine (sqCfgRow n fn k pasid v).next hpage ?_
  rw [sqCfg_ignored (by rw [hsl, hr, keepOf_congr wakeUp_only.lc_eq, h]), sliceGet_slcIgn, hsl]
  exact ⟨rfl, rfl⟩

/-- A completion ring whose configuration takes the write. -/
theorem next_cqCfg {r : CqRing} {w : Word} (hpage : PageTakes s n fn pasid) (hr : cqGet (sliceGet s n) k = r)
    (h : cfgWrite r.cfg v (keepOf s cqKeep) = some w) (hv : fieldOf v 20 16 < (sliceGet s n).vecCount) :
    Next (.cqCfgWrite fn n k pasid v) s (fun t => cqGet (sliceGet t n) k = cqConfigured r w) := by
  have hsl : sliceGet (wakeUp s 0) n = sliceGet s n := sliceGet_congr wakeUp_only.slices_eq n
  refine (cqCfgRow n fn k pasid v).next hpage ?_
  rw [cqGet_cqCfg (w := w) (by rw [hsl, hr, keepOf_congr wakeUp_only.lc_eq, h]) (by rw [hsl]; exact hv), hsl, hr]

theorem next_cqCfg_ignored {r : CqRing} (hpage : PageTakes s n fn pasid) (hr : cqGet (sliceGet s n) k = r)
    (h : cfgWrite r.cfg v (keepOf s cqKeep) = none ∨ (sliceGet s n).vecCount ≤ fieldOf v 20 16) : Next (.cqCfgWrite fn n k pasid v) s (fun t =>
      (sliceGet t n).cq = (sliceGet s n).cq ∧ (sliceGet t n).ignWr = satAdd32 (sliceGet s n).ignWr 1) := by
  have hsl : sliceGet (wakeUp s 0) n = sliceGet s n := sliceGet_congr wakeUp_only.slices_eq n
  refine (cqCfgRow n fn k pasid v).next hpage ?_
  rw [cqCfg_ignored (by rw [hsl, hr, keepOf_congr wakeUp_only.lc_eq]; exact h), sliceGet_slcIgn, hsl]
  exact ⟨rfl, rfl⟩

theorem next_cqHead {r : CqRing} (hpage : PageTakes s n fn pasid) (hk : k < 16) (hr : cqGet (sliceGet s n) k = r) :
    let size := ringSize r.cfg
    let x := v.toNat % 4096
    (x < size ∧ (x + size - r.head) % size ≤ (r.tail + size - r.head) % size → Next (.cqHeadWrite fn n k pasid v) s (fun t =>
      cqGet (sliceGet t n) k = { r with head := x, bell := bellAt (wakeUp s 0) } ∧ (sliceGet t n).cqErr = (sliceGet s n).cqErr)) ∧
    (¬ (x < size ∧ (x + size - r.head) % size ≤ (r.tail + size - r.head) % size) → Next (.cqHeadWrite fn n k pasid v) s (fun t =>
      (sliceGet t n).cq = (sliceGet s n).cq ∧ bitOf (sliceGet t n).cqErr k = true ∧
      (sliceGet t n).ignWr = satAdd32 (sliceGet s n).ignWr 1)) := by
  have hsl : sliceGet (wakeUp s 0) n = sliceGet s n := sliceGet_congr wakeUp_only.slices_eq n
  have hr' : cqGet (sliceGet (wakeUp s 0) n) k = r := by rw [hsl, hr]
  refine ⟨fun h => (cqHeadRow n fn k pasid v).next hpage ?_, fun h => (cqHeadRow n fn k pasid v).next hpage ?_⟩
  · rw [fieldOf_low12, cqBell_taken hr' h, hsl]
    exact ⟨tblGet_set_same, rfl⟩
  · rw [fieldOf_low12, cqBell_refused hr' h, hsl]
    exact ⟨rfl, bitOf_sqcWord_same hk, rfl⟩

end

/-! ### A configured ring, by its state before -/

theorem sqConfigured_off {r : SqRing} {w : Word} (h : ringOn w = false) : sqConfigured r w = { r with cfg := w } := if_neg (by simp [h])

theorem sqConfigured_begun {r : SqRing} {w : Word} (h : ringOn w = true) (hr : ringOn r.cfg = false) (hh : ringHalted r.cfg = false) :
    sqConfigured r w = { r with cfg := w, head := 0, tail := 0, stall := none } := by
  unfold sqConfigured
  rw [if_pos (by simp [h, hr]), if_neg (by simp [hh])]

theorem sqConfigured_resumed {r : SqRing} {w : Word} (h : ringOn w = true) (hr : ringOn r.cfg = false) (hh : ringHalted r.cfg = true) :
    sqConfigured r w = { r with cfg := putBit w 29 false } := by
  unfold sqConfigured
  rw [if_pos (by simp [h, hr]), if_pos hh]

theorem cqConfigured_off {r : CqRing} {w : Word} (h : ringOn w = false) : cqConfigured r w = { r with cfg := w } := if_neg (by simp [h])

theorem cqConfigured_begun {r : CqRing} {w : Word} (h : ringOn w = true) (hr : ringOn r.cfg = false) (hh : ringHalted r.cfg = false) :
    cqConfigured r w = { r with cfg := w, head := 0, tail := 0, phase := true, since := 0 } := by
  unfold cqConfigured
  rw [if_pos (by simp [h, hr]), if_neg (by simp [hh])]

theorem cqConfigured_resumed {r : CqRing} {w : Word} (h : ringOn w = true) (hr : ringOn r.cfg = false) (hh : ringHalted r.cfg = true) :
    cqConfigured r w = { r with cfg := putBit w 29 false } := by
  unfold cqConfigured
  rw [if_pos (by simp [h, hr]), if_pos hh]

/-! ### The rows of a ring's configuration, by the ring's state -/

section
variable {s : State} {n fn k : Nat} {pasid : Option Nat} {v : Word} (hpage : PageTakes s n fn pasid)
  (hlen : 4 ≤ fieldOf v 3 0 ∧ fieldOf v 3 0 ≤ 12)
include hpage hlen

section
variable {r : SqRing} (hr : sqGet (sliceGet s n) k = r)
include hr

/-- The configuration of a ring that does not run, which begins at index 0 where it is enabled. -/
theorem next_sqCfg_set (hoff : ringOn r.cfg = false) (hhalt : ringHalted r.cfg = false ∨ ringOn v = false) :
    Next (.sqCfgWrite fn n k pasid v) s (fun t => sqGet (sliceGet t n) k =
      (let y := { r with cfg := sqWord (sliceGet s n) (cfgMerged r.cfg v (keepOf s sqKeep)) }
       if ringOn v then { y with head := 0, tail := 0, stall := none } else y)) := by
  have hw := (ringOn_sqWord (sliceGet s n) (cfgMerged r.cfg v (keepOf s sqKeep))).trans (ringOn_cfgMerged (keepOf_bit31 s).1)
  refine (next_sqCfg hpage hr (cfgWrite_off hlen hoff)).mono fun t ht => ht.trans ?_
  by_cases hon : ringOn v = true
  · rw [sqConfigured_begun (hw.trans hon) hoff (hhalt.resolve_right (by simp [hon])), if_pos hon]
  · rw [sqConfigured_off (hw.trans (by simpa using hon)), if_neg hon]

theorem next_sqCfg_resumed (hoff : ringOn r.cfg = false) (hhalt : ringHalted r.cfg = true) (hon : ringOn v = true) :
    Next (.sqCfgWrite fn n k pasid v) s (fun t => ringHalted (sqGet (sliceGet t n) k).cfg = false ∧ (sqGet (sliceGet t n) k).head = r.head) := by
  have hw := (ringOn_sqWord (sliceGet s n) (cfgMerged r.cfg v (keepOf s sqKeep))).trans (ringOn_cfgMerged (keepOf_bit31 s).1)
  refine (next_sqCfg hpage hr (cfgWrite_off hlen hoff)).mono fun t ht => ?_
  rw [ht, sqConfigured_resumed (hw.trans hon) hoff hhalt]
  exact ⟨ringHalted_putBit29 _, rfl⟩

theorem next_sqCfg_stopped (hon : ringOn r.cfg = true) (hoff : ringOn v = false) :
    Next (.sqCfgWrite fn n k pasid v) s (fun t => sqGet (sliceGet t n) k = { r with cfg := sqWord (sliceGet s n) (putBit r.cfg 31 false) }) := by
  refine (next_sqCfg hpage hr (cfgWrite_stop hlen hon hoff)).mono fun t ht => ht.trans ?_
  rw [sqConfigured_off ((ringOn_sqWord _ _).trans (ringOn_putBit31 _))]

end

section
variable {r : CqRing} (hr : cqGet (sliceGet s n) k = r) (hvec : fieldOf v 20 16 < (sliceGet s n).vecCount)
include hr hvec

theorem next_cqCfg_begun (hoff : ringOn r.cfg = false) (hhalt : ringHalted r.cfg = false) (hon : ringOn v = true) :
    Next (.cqCfgWrite fn n k pasid v) s (fun t => (cqGet (sliceGet t n) k).cfg = cfgMerged r.cfg v (keepOf s cqKeep) ∧
      (cqGet (sliceGet t n) k).head = 0 ∧ (cqGet (sliceGet t n) k).tail = 0 ∧ (cqGet (sliceGet t n) k).phase = true) := by
  refine (next_cqCfg hpage hr (cfgWrite_off hlen hoff) hvec).mono fun t ht => ?_
  rw [ht, cqConfigured_begun ((ringOn_cfgMerged (keepOf_bit31 s).2).trans hon) hoff hhalt]
  exact ⟨rfl, rfl, rfl, rfl⟩

theorem next_cqCfg_resumed (hoff : ringOn r.cfg = false) (hhalt : ringHalted r.cfg = true) (hon : ringOn v = true) :
    Next (.cqCfgWrite fn n k pasid v) s (fun t => ringHalted (cqGet (sliceGet t n) k).cfg = false ∧ (cqGet (sliceGet t n) k).tail = r.tail) := by
  refine (next_cqCfg hpage hr (cfgWrite_off hlen hoff) hvec).mono fun t ht => ?_
  rw [ht, cqConfigured_resumed ((ringOn_cfgMerged (keepOf_bit31 s).2).trans hon) hoff hhalt]
  exact ⟨ringHalted_putBit29 _, rfl⟩

theorem next_cqCfg_set (hoff : ringOn r.cfg = false) (hoff' : ringOn v = false) :
    Next (.cqCfgWrite fn n k pasid v) s (fun t => cqGet (sliceGet t n) k = { r with cfg := cfgMerged r.cfg v (keepOf s cqKeep) }) := by
  refine (next_cqCfg hpage hr (cfgWrite_off hlen hoff) hvec).mono fun t ht => ht.trans ?_
  rw [cqConfigured_off ((ringOn_cfgMerged (keepOf_bit31 s).2).trans hoff')]

theorem next_cqCfg_stopped (hon : ringOn r.cfg = true) (hoff : ringOn v = false) :
    Next (.cqCfgWrite fn n k pasid v) s (fun t => cqGet (sliceGet t n) k = { r with cfg := putBit r.cfg 31 false }) := by
  refine (next_cqCfg hpage hr (cfgWrite_stop hlen hon hoff) hvec).mono fun t ht => ht.trans ?_
  rw [cqConfigured_off (ringOn_putBit31 _)]

end
end

/-- Settles O55, by what each row finds: a device that sleeps, a page that takes no write, and the state of the ring or the mailbox. -/
theorem mailboxAndRingConfiguration : Obligations.MailboxAndRingConfiguration := by
  unfold Obligations.MailboxAndRingConfiguration
  refine ⟨fun s p v hv ht hm hp => next_mbxGo_held hv ht hm hp,
    fun s p v hv hm ht => ⟨fun hlc hgo hs hh => next_mbxGo_started hv hm ht hlc hgo hs hh,
      fun hlc hn => (next_mbxGo_idle hv hm ht hlc (.inr hn)).mono fun _ h => h.1, fun hlc hgo => next_mbxGo_idle hv hm ht hlc (.inl hgo),
      fun hlc => next_mbxGo_transition hv hm ht hlc⟩,
    fun s p v h => next_mbxGo_absent h,
    fun s n fn k pasid v => ⟨fun r hpage hr => ?sq, fun r hpage hk hr => next_cqHead hpage hk hr, fun r hpage hr => ?cq,
      fun hv ht hm hp _ => ?held, fun hv hm ht hport hb h i hi => ?ignored, fun r hr hs hm => ?coal,
      fun h => next_cqCoalTimeout_not fun ⟨hs, hm, _⟩ => h.elim hs fun hn => hn hm,
      fun vec h => next_msixVectorUnmask_not h, fun vec hv ht hn => next_msixVectorUnmask hv ht hn⟩⟩
  case sq =>
    exact ⟨fun h4 h12 hoff hhalt => next_sqCfg_set hpage ⟨h4, h12⟩ hr hoff hhalt,
      fun h4 h12 hoff hhalt hon => next_sqCfg_resumed hpage ⟨h4, h12⟩ hr hoff hhalt hon,
      fun h4 h12 hon hoff => next_sqCfg_stopped hpage ⟨h4, h12⟩ hr hon hoff, fun h => next_sqCfg_ignored hpage hr (cfgWrite_none h)⟩
  case cq =>
    exact ⟨fun h4 h12 hoff hhalt hon hvec => next_cqCfg_begun hpage ⟨h4, h12⟩ hr hvec hoff hhalt hon,
      fun h4 h12 hoff hhalt hon hvec => next_cqCfg_resumed hpage ⟨h4, h12⟩ hr hvec hoff hhalt hon,
      fun h4 h12 hoff hoff' hvec => next_cqCfg_set hpage ⟨h4, h12⟩ hr hvec hoff hoff',
      fun h => next_cqCfg_ignored hpage hr (h.symm.imp_left cfgWrite_none),
      fun h4 h12 hon hoff hvec => next_cqCfg_stopped hpage ⟨h4, h12⟩ hr hvec hon hoff⟩
  case held =>
    exact ⟨(sqTailRow n fn k pasid v).next_held hv ht hm hp, (cqHeadRow n fn k pasid v).next_held hv ht hm hp,
      (sqCfgRow n fn k pasid v).next_held hv ht hm hp, (cqCfgRow n fn k pasid v).next_held hv ht hm hp⟩
  case ignored =>
    rcases hi with rfl | rfl | rfl | rfl
    · exact (sqTailRow n fn k pasid v).next_ignored hv hm ht hport hb h
    · exact (cqHeadRow n fn k pasid v).next_ignored hv hm ht hport hb h
    · exact (sqCfgRow n fn k pasid v).next_ignored hv hm ht hport hb h
    · exact (cqCfgRow n fn k pasid v).next_ignored hv hm ht hport hb h
  case coal =>
    refine ⟨fun hc => next_cqCoalTimeout hr hs hm hc, fun hc => next_cqCoalTimeout_not ?_⟩
    rw [hr]
    exact fun h => absurd h.2.2 (by omega)

end Sys2Proof.Machine
end

section
set_option Elab.async false

/-! SUPPORT. Accesses of host memory that fail: retries, and the ring that halts (R58, R252). -/

namespace Sys2Proof.Machine

open Host Sys2Proof

/-! ### Retries -/

theorem retryOf_retryPut {s : State} {w : HostAccess} {n : Nat} : (retryOf (retryPut s w n) w).map (·.fails) = some n := by
  have hnone : (s.tortin.retries.filter (fun r => r.what != w)).find? (fun r => r.what == w) = none := by
    simp [List.find?_eq_none]
  unfold retryOf retryPut retryDel
  dsimp only
  rw [List.find?_append, hnone, Option.none_or]
  simp

theorem retryOf_retryDel {s : State} {w : HostAccess} : retryOf (retryDel s w) w = none := by
  unfold retryOf retryDel
  simp [List.find?_eq_none]

/-- An access that never failed leaves nothing to forget. -/
theorem retryDel_none {s : State} {w : HostAccess} (h : retryOf s w = none) : retryDel s w = s := by
  have hf : s.tortin.retries.filter (fun r => r.what != w) = s.tortin.retries := by
    refine List.filter_eq_self.2 fun r hr => ?_
    simpa [bne] using List.find?_eq_none.1 h r hr
  unfold retryDel
  rw [hf]

theorem retryFails_of {s : State} {w : HostAccess} {x : Retry} (h : retryOf s w = some x) : retryFails s w = x.fails := by
  unfold retryFails; rw [h]; rfl

theorem retryFails_none {s : State} {w : HostAccess} (h : retryOf s w = none) : retryFails s w = 0 := by
  unfold retryFails; rw [h]; rfl

theorem ringFail_retried {s : State} {w : HostAccess} {n : Nat} {halt : State → State} (h : retryFails s w + 1 ≤ (sliceGet s n).retry) :
    ringFail s w n halt = retryPut s w (retryFails s w + 1) := if_neg (by omega)

theorem ringFail_halts {s : State} {w : HostAccess} {n : Nat} {halt : State → State} (h : (sliceGet s n).retry < retryFails s w + 1) :
    ringFail s w n halt = halt (retryDel s w) := if_pos h

/-! ### Halts -/

/-- The word of a ring that has halted (R58). -/
def haltedCfg (w : Word) : Word := putBit (putBit w 29 true) 31 false

theorem ringHalted_haltedCfg (w : Word) : ringHalted (haltedCfg w) = true := by
  unfold ringHalted haltedCfg
  rw [bitOf_putBit (by decide), if_neg (by decide), bitOf_putBit (by decide), if_pos rfl]

theorem ringOn_haltedCfg (w : Word) : ringOn (haltedCfg w) = false := ringOn_putBit31 _

/-- A halt of a submission ring: its word and its error bit, and what the interrupt of its completion ring changes. -/
theorem sqHalt_ring (s : State) (n k : Nat) : sqGet (sliceGet (sqHalt s n k) n) k =
    { sqGet (sliceGet s n) k with cfg := haltedCfg (sqGet (sliceGet s n) k).cfg } := by
  unfold sqHalt
  dsimp only
  obtain ⟨p, hp⟩ := cqRaise_slice (tallyPut (sqErrBit (sqPut s n k { sqGet (sliceGet s n) k with cfg := haltedCfg (sqGet (sliceGet s n) k).cfg }) n k)
    agCp 0x0180 [(2, n), (0x0A, stHostFault), (7, ringBase (sqGet (sliceGet s n) k).baseLo (sqGet (sliceGet s n) k).baseHi + 64 * (sqGet (sliceGet s n) k).head)])
    n (fieldOf (sqGet (sliceGet s n) k).cfg 19 16)
  refine (congrArg (sqGet · k) hp).trans ?_
  rw [sliceGet_congr tallyPut_only.slices_eq, sliceGet_sqErrBit, sliceGet_sqPut]
  exact tblGet_set_same

/-- A halt of a completion ring. -/
theorem cqHalt_ring (s : State) (n k : Nat) : cqGet (sliceGet (cqHalt s n k) n) k =
    { cqGet (sliceGet s n) k with cfg := haltedCfg (cqGet (sliceGet s n) k).cfg, since := 0 } := by
  unfold cqHalt
  dsimp only
  obtain ⟨p, hp⟩ := cqRaise_slice (tallyPut (cqErrBit (cqPut s n k { cqGet (sliceGet s n) k with cfg := haltedCfg (cqGet (sliceGet s n) k).cfg }) n k)
    agCp 0x0180 [(2, n), (0x0A, stHostFault), (7, ringBase (cqGet (sliceGet s n) k).baseLo (cqGet (sliceGet s n) k).baseHi + 32 * (cqGet (sliceGet s n) k).tail)])
    n k
  have hg : cqGet (sliceGet (tallyPut (cqErrBit (cqPut s n k { cqGet (sliceGet s n) k with cfg := haltedCfg (cqGet (sliceGet s n) k).cfg }) n k)
      agCp 0x0180 [(2, n), (0x0A, stHostFault), (7, ringBase (cqGet (sliceGet s n) k).baseLo (cqGet (sliceGet s n) k).baseHi + 32 * (cqGet (sliceGet s n) k).tail)]) n) k =
      { cqGet (sliceGet s n) k with cfg := haltedCfg (cqGet (sliceGet s n) k).cfg } := by
    rw [sliceGet_congr tallyPut_only.slices_eq, sliceGet_cqErrBit, sliceGet_cqPut]
    exact tblGet_set_same
  refine (congrArg (cqGet · k) hp).trans ?_
  rw [hg]
  exact tblGet_set_same

/-! ### A fetch that fails -/

/-- A fetch of ring `k` of slice `n` has failed again, and is set up for its retry. -/
def FetchRetries (s t : State) (n k : Nat) : Prop :=
  t.slices = s.slices ∧ (retryOf t (.sqFetch n k)).map (·.fails) = some (retryFails s (.sqFetch n k) + 1)

/-- Ring `k` of slice `n` has halted where it stood. -/
def FetchHalts (s t : State) (n k : Nat) : Prop :=
  ringHalted (sqGet (sliceGet t n) k).cfg = true ∧ ringOn (sqGet (sliceGet t n) k).cfg = false ∧
  (sqGet (sliceGet t n) k).head = (sqGet (sliceGet s n) k).head ∧ retryOf t (.sqFetch n k) = none

theorem fetchFails_retries {s : State} {n k : Nat} (h : retryFails s (.sqFetch n k) + 1 ≤ (sliceGet s n).retry) :
    FetchRetries s (fetchFails s n k) n k := by
  have he : fetchFails s n k = retryPut s (.sqFetch n k) (retryFails s (.sqFetch n k) + 1) := ringFail_retried h
  rw [he]
  exact ⟨rfl, retryOf_retryPut⟩

theorem fetchFails_halts {s : State} {n k : Nat} (h : (sliceGet s n).retry < retryFails s (.sqFetch n k) + 1) :
    FetchHalts s (fetchFails s n k) n k := by
  have he : fetchFails s n k = sqHalt (retryDel s (.sqFetch n k)) n k := ringFail_halts h
  have hr : retryOf (sqHalt (retryDel s (.sqFetch n k)) n k) (.sqFetch n k) = none := by
    unfold retryOf
    rw [sqHalt_only.tortin_eq]
    exact retryOf_retryDel
  rw [he]
  refine ⟨?_, ?_, ?_, hr⟩ <;> rw [sqHalt_ring]
  · exact ringHalted_haltedCfg _
  · exact ringOn_haltedCfg _
  · rfl

/-! ### What a counter of a port leaves -/

theorem procRuns_congr {s t : State} (hp : t.pwr = s.pwr) (ht : t.time = s.time) (hr : regGet t aPwrState = regGet s aPwrState) :
    procRuns t = procRuns s := by
  unfold procRuns wakePast
  rw [hp, ht, pwrMode_congr hr]

theorem cpHalted_congr {s t : State} (hl : t.lc = s.lc) (hs : t.scorch = s.scorch) (hr : regGet t aTimeSrcStat = regGet s aTimeSrcStat) :
    cpHalted t = cpHalted s := by
  have hstate : lcState t = lcState s := by unfold lcState topSlot; rw [hl]
  unfold cpHalted debugRights lcOpen
  rw [hstate, hl, hs, hr]

/-- Registers of the PCIe functions are neither `PWR_STATE` nor `TIME_SRC_STAT`. -/
theorem aPci_ne {p off a : Nat} (h : a < 0x80200000) : a ≠ aPci p off := by unfold aPci; omega

/-- A change of the registers of a PCIe function alone. -/
structure PciOnly (s t : State) : Prop where
  only : Only 16 s t
  low : ∀ a, a < 0x80200000 → regGet t a = regGet s a

namespace PciOnly

theorem refl (s : State) : PciOnly s s := ⟨.refl, fun _ _ => rfl⟩

theorem trans {a b c : State} (h : PciOnly a b) (k : PciOnly b c) : PciOnly a c :=
  ⟨h.only.trans k.only, fun x hx => (k.low x hx).trans (h.low x hx)⟩

theorem add (s : State) (p off n : Nat) : PciOnly s (regAdd s (aPci p off) n) :=
  ⟨regAdd_only, fun _ h => regGet_regPut_other (aPci_ne h)⟩

theorem event (s : State) (p off i : Nat) : PciOnly s (sqcSet s (aPci p off) i) :=
  ⟨sqcSet_only, fun _ h => regGet_sqcSet_other (aPci_ne h)⟩

variable {s t : State}

theorem procRuns_eq (h : PciOnly s t) : procRuns t = procRuns s := procRuns_congr h.only.pwr_eq h.only.time_eq (h.low _ (by decide))

theorem ringsServed_eq (h : PciOnly s t) : ringsServed t = ringsServed s := by
  unfold ringsServed tortinRuns
  rw [h.procRuns_eq, cpHalted_congr h.only.lc_eq h.only.scorch_eq (h.low _ (by decide)), h.only.lc_eq, h.only.dev_eq, h.only.tortin_eq, h.only.seam_eq]

theorem retryOf_eq (h : PciOnly s t) (w : HostAccess) : retryOf t w = retryOf s w := by unfold retryOf; rw [h.only.tortin_eq]

theorem slice_eq (h : PciOnly s t) (n : Nat) : sliceGet t n = sliceGet s n := sliceGet_congr h.only.slices_eq n

theorem placeKind_eq (h : PciOnly s t) (n : Nat) (a : Bool) : placeKind t n a = placeKind s n a := by
  unfold placeKind normalUsed inFlight
  rw [h.slice_eq, h.only.tortin_eq]

theorem retryFails_eq (h : PciOnly s t) (w : HostAccess) : retryFails t w = retryFails s w := by unfold retryFails; rw [h.retryOf_eq]

end PciOnly

end Sys2Proof.Machine
end

section
set_option Elab.async false

/-! SUPPORT. Completions: what their three writes change, and what follows them (R56, R66 to R68, R78); the settled statement O53. -/

namespace Sys2Proof.Machine

open Host Sys2Proof

/-! ### A write to host memory -/

theorem hostWrite_slice (s : State) (n a : Nat) (d : List Byte) : ∃ l, sliceGet (hostWrite s n a d) n = { sliceGet s n with log := l } := by
  unfold hostWrite
  dsimp only
  split
  · exact ⟨(sliceGet s n).log, rfl⟩
  · split
    · exact ⟨(sliceGet s n).log, rfl⟩
    · exact ⟨_, sliceGet_slicePut_same⟩

/-- The host takes writes of slice `n`. -/
def Writable (s : State) (n : Nat) : Prop := hostSilent s = false ∧ fnLive s (sliceGet s n).port = true

theorem hostWrite_out {s : State} {n a : Nat} {d : List Byte} (h : Writable s n) :
    (hostWrite s n a d).out = .hostWrite (sliceGet s n).port (some (sliceGet s n).pasid) a d :: s.out := by
  unfold hostWrite
  dsimp only
  rw [if_neg (by simp [h.1, h.2])]
  split <;> rfl

/-- From `s` to `t` the function, the PASID, the mode and the rings of slice `n` are the same. -/
structure SliceStays (s t : State) (n : Nat) : Prop where
  port : (sliceGet t n).port = (sliceGet s n).port
  pasid : (sliceGet t n).pasid = (sliceGet s n).pasid
  mode : (sliceGet t n).mode = (sliceGet s n).mode
  sq : (sliceGet t n).sq = (sliceGet s n).sq
  cq : (sliceGet t n).cq = (sliceGet s n).cq
  seam : t.seam = s.seam
  fns : t.fn0 = s.fn0 ∧ t.fn1 = s.fn1

namespace SliceStays

variable {s t : State} {n : Nat}

theorem refl (s : State) (n : Nat) : SliceStays s s n := ⟨rfl, rfl, rfl, rfl, rfl, rfl, rfl, rfl⟩

theorem trans {a b c : State} (h : SliceStays a b n) (k : SliceStays b c n) : SliceStays a c n :=
  ⟨k.port.trans h.port, k.pasid.trans h.pasid, k.mode.trans h.mode, k.sq.trans h.sq, k.cq.trans h.cq, k.seam.trans h.seam,
    k.fns.1.trans h.fns.1, k.fns.2.trans h.fns.2⟩

theorem write (s : State) (n a : Nat) (d : List Byte) : SliceStays s (hostWrite s n a d) n := by
  obtain ⟨l, hl⟩ := hostWrite_slice s n a d
  exact ⟨by rw [hl], by rw [hl], by rw [hl], by rw [hl], by rw [hl], hostWrite_only.seam_eq, hostWrite_only.fn0_eq, hostWrite_only.fn1_eq⟩

theorem writable (h : SliceStays s t n) (hw : Writable s n) : Writable t n := by
  obtain ⟨hs, hl⟩ := hw
  refine ⟨by unfold hostSilent at hs ⊢; rw [h.seam]; exact hs, ?_⟩
  unfold fnLive fnGet at hl ⊢
  rw [h.port, h.fns.1, h.fns.2]
  exact hl

theorem cqGet_eq (h : SliceStays s t n) (k : Nat) : cqGet (sliceGet t n) k = cqGet (sliceGet s n) k := by unfold cqGet; rw [h.cq]

end SliceStays

/-- Output of a ring's command changes of its slice at most the log of dirty pages. -/
theorem putOutput_slice {s : State} {c : Cmd} {n k i : Nat} (h : c.origin = .ring n k i) (bs : List Byte) : SliceStays s (putOutput s c bs) n := by
  unfold putOutput
  rw [h]
  split
  · exact .refl s n
  · dsimp only
    split
    · exact .refl s n
    · exact .write s n _ _

/-! ### The interrupt of a completion -/

/-- From `s` to `t` the mode of slice `n` and what the device has written to its completion ring `k` are the same, and more may have been
sent. -/
structure RingStays (s t : State) (n k : Nat) : Prop where
  mode : (sliceGet t n).mode = (sliceGet s n).mode
  tail : (cqGet (sliceGet t n) k).tail = (cqGet (sliceGet s n) k).tail
  phase : (cqGet (sliceGet t n) k).phase = (cqGet (sliceGet s n) k).phase
  out : ∃ l, t.out = l ++ s.out

theorem RingStays.refl (s : State) (n k : Nat) : RingStays s s n k := ⟨rfl, rfl, rfl, [], rfl⟩

theorem RingStays.trans {a b c : State} {n k : Nat} (h : RingStays a b n k) (j : RingStays b c n k) : RingStays a c n k := by
  obtain ⟨l, hl⟩ := h.out
  obtain ⟨m, hm⟩ := j.out
  exact ⟨j.mode.trans h.mode, j.tail.trans h.tail, j.phase.trans h.phase, m ++ l, by rw [hm, hl, List.append_assoc]⟩

theorem raiseMsix_out (s : State) (p vec : Nat) : ∃ l, (raiseMsix s p vec).out = l ++ s.out := by
  unfold raiseMsix
  dsimp only
  split
  · exact ⟨[], rfl⟩
  · split
    · exact ⟨[.msix p vec], rfl⟩
    · exact ⟨[], fnPut_only.out_eq⟩

theorem raiseVector_out (s : State) (n vec : Nat) : ∃ l, (raiseVector s n vec).out = l ++ s.out := by
  unfold raiseVector
  dsimp only
  split
  · exact ⟨[], rfl⟩
  · exact raiseMsix_out _ _ _

theorem cqRaise_ring (s : State) (n k : Nat) : RingStays s (cqRaise s n k) n k := by
  obtain ⟨p, hp⟩ := cqRaise_slice s n k
  have hc : cqGet (sliceGet (cqRaise s n k) n) k = { cqGet (sliceGet s n) k with since := 0 } := by rw [hp]; exact tblGet_set_same
  exact ⟨by rw [hp], by rw [hc], by rw [hc], raiseVector_out (cqPut s n k { cqGet (sliceGet s n) k with since := 0 }) _ _⟩

theorem cqPut_ring {s : State} {n k : Nat} {r : CqRing} (ht : r.tail = (cqGet (sliceGet s n) k).tail) (hp : r.phase = (cqGet (sliceGet s n) k).phase) :
    RingStays s (cqPut s n k r) n k :=
  ⟨by rw [sliceGet_cqPut], by rw [cqGet_cqPut_same, ht], by rw [cqGet_cqPut_same, hp], [], rfl⟩

theorem cqSignal_ring (s : State) (n k : Nat) (urgent : Bool) : RingStays s (cqSignal s n k urgent) n k := by
  unfold cqSignal
  dsimp only
  split
  · exact cqRaise_ring _ _ _
  · split
    · exact cqRaise_ring _ _ _
    · exact cqPut_ring rfl rfl
  · split
    · exact cqRaise_ring _ _ _
    · exact .refl _ _ _
  · exact .refl _ _ _

/-! ### The three writes (R56) -/

/-- The three writes of a completion at `a`, the last first. -/
def compWrites (x : Slice) (a : Nat) (bs : List Byte) : List Output :=
  [.hostWrite x.port (some x.pasid) (a + 8) (bytesAt bs 8 4), .hostWrite x.port (some x.pasid) a (bs.take 8),
    .hostWrite x.port (some x.pasid) (a + 12) (bs.drop 12)]

/-- The host's memory with the 32 bytes of a completion written at `a`. -/
def threeWrites (s : State) (n a : Nat) (bs : List Byte) : State :=
  hostWrite (hostWrite (hostWrite s n (a + 12) (bs.drop 12)) n a (bs.take 8)) n (a + 8) (bytesAt bs 8 4)

theorem threeWrites_slice (s : State) (n a : Nat) (bs : List Byte) : SliceStays s (threeWrites s n a bs) n :=
  ((SliceStays.write s n _ _).trans (.write _ n _ _)).trans (.write _ n _ _)

theorem threeWrites_out {s : State} {n a : Nat} (h : Writable s n) (bs : List Byte) :
    (threeWrites s n a bs).out = compWrites (sliceGet s n) a bs ++ s.out := by
  have h1 : SliceStays s (hostWrite s n (a + 12) (bs.drop 12)) n := .write s n _ _
  have h2 : SliceStays s (hostWrite (hostWrite s n (a + 12) (bs.drop 12)) n a (bs.take 8)) n := h1.trans (.write _ n _ _)
  unfold threeWrites
  rw [hostWrite_out (h2.writable h), hostWrite_out (h1.writable h), hostWrite_out h, h1.port, h1.pasid, h2.port, h2.pasid]
  rfl

/-- A completion ring with one more entry written. -/
def cqAdvanced (r : CqRing) : CqRing :=
  { r with
    tail := (r.tail + 1) % ringSize r.cfg
    phase := if (r.tail + 1) % ringSize r.cfg = 0 then !r.phase else r.phase }

theorem cqWrite_eq {s : State} {n k : Nat} {r : CqRing} (hr : cqGet (sliceGet s n) k = r) (token : BitVec 64) (index : Nat) (c : Comp)
    (urgent : Bool) : cqWrite s n k token index c urgent = cqSignal (cqPut
      (threeWrites s n (ringBase r.baseLo r.baseHi + 32 * r.tail) (compBytes token r.phase index c)) n k (cqAdvanced r)) n k urgent := by
  subst hr; rfl

/-- Ring `k` of slice `n`, which was `r`, has taken the completion `bs` behind the outputs `before`, and an interrupt may have followed. -/
structure CompletionWritten (s t : State) (before : List Output) (n k : Nat) (r : CqRing) (bs : List Byte) : Prop where
  mode : (sliceGet t n).mode = (sliceGet s n).mode
  tail : (cqGet (sliceGet t n) k).tail = (r.tail + 1) % ringSize r.cfg
  phase : (cqGet (sliceGet t n) k).phase = if (r.tail + 1) % ringSize r.cfg = 0 then !r.phase else r.phase
  out : ∃ l, t.out = l ++ compWrites (sliceGet s n) (ringBase r.baseLo r.baseHi + 32 * r.tail) bs ++ before

theorem cqWrite_written {s : State} {n k : Nat} {r : CqRing} (h : Writable s n) (hr : cqGet (sliceGet s n) k = r) (token : BitVec 64)
    (index : Nat) (c : Comp) (urgent : Bool) :
    CompletionWritten s (cqWrite s n k token index c urgent) s.out n k r (compBytes token r.phase index c) := by
  rw [cqWrite_eq hr]
  generalize compBytes token r.phase index c = bs
  have hs := threeWrites_slice s n (ringBase r.baseLo r.baseHi + 32 * r.tail) bs
  have ho := threeWrites_out (a := ringBase r.baseLo r.baseHi + 32 * r.tail) h bs
  generalize threeWrites s n (ringBase r.baseLo r.baseHi + 32 * r.tail) bs = u at hs ho ⊢
  have hsig := cqSignal_ring (cqPut u n k (cqAdvanced r)) n k urgent
  have hm : (sliceGet (cqPut u n k (cqAdvanced r)) n).mode = (sliceGet s n).mode := by rw [sliceGet_cqPut]; exact hs.mode
  have hout : (cqPut u n k (cqAdvanced r)).out = u.out := rfl
  obtain ⟨l, hl⟩ := hsig.out
  refine ⟨hsig.mode.trans hm, hsig.tail.trans (by rw [cqGet_cqPut_same]; rfl), hsig.phase.trans (by rw [cqGet_cqPut_same]; rfl), l, ?_⟩
  rw [hl, hout, ho, List.append_assoc]

/-- The completion of a ring's command, after the output that was held back. -/
theorem writeComp_written {s : State} {n k i : Nat} {c : Cmd} {r : CqRing} (hc : c.origin = .ring n k i) (h : Writable s n)
    (hr : cqGet (sliceGet s n) (cmdCq s c) = r) : CompletionWritten s (writeComp s n c) (putOutput s c c.out).out n (cmdCq s c) r
      (compBytes (cToken c) r.phase (cmdIndex c) c.comp) := by
  have hs : SliceStays s (putOutput s c c.out) n := putOutput_slice hc c.out
  obtain ⟨hm, ht, hp, l, hl⟩ := cqWrite_written (hs.writable h) ((hs.cqGet_eq _).trans hr) (cToken c) (cmdIndex c) c.comp (cIrq c || cAlarm c)
  refine ⟨hm.trans hs.mode, ht, hp, l, hl.trans ?_⟩
  unfold compWrites
  rw [hs.port, hs.pasid]

/-! ### What follows a completion -/

theorem cmdAt_cmdDel (s : State) (tag i : Nat) : cmdAt (cmdDel s tag) i = if i = tag then none else cmdAt s i := by
  have hq : (queueDrop s tag).tortin = s.tortin := queueDrop_only.tortin_eq
  unfold cmdDel cmdAt
  dsimp only
  rw [hq]
  split
  · rename_i h; rw [h]; exact tblFind_del_same _ _
  · rename_i h; exact tblFind_del_other _ h

theorem cmdDel_releases (s : State) (tag : Nat) : Releases s (cmdDel s tag) where
  free i h := by rw [cmdAt_cmdDel]; split <;> simp [h]
  mbx := ⟨s.tortin.mbx.dup, show (queueDrop s tag).tortin.mbx = s.tortin.mbx by rw [queueDrop_only.tortin_eq]⟩
  slices n := ⟨(sliceGet s n).dup, sliceGet_congr cmdDel_only.slices_eq n⟩
  quiet h := ⟨cmdDel_only.out_eq, (isPrimary_congr cmdDel_only.seam_eq).trans h⟩

theorem cmdRelease_releases (s : State) (tag : Nat) : Releases s (cmdRelease s tag) ∧ cmdAt (cmdRelease s tag) tag = none := by
  unfold cmdRelease
  split
  · rename_i h; exact ⟨.refl s, h⟩
  · rename_i c hc
    dsimp only
    have hd : KeepsCommands true s (stageDrop (if c.freeTok && cOp c == 0x0405 then destroyDrop s tag else s) c) := by
      refine KeepsCommands.trans ?_ (.of_only stageDrop_only)
      split
      · exact .of_only destroyDrop_only
      · exact .refl s
    generalize stageDrop _ c = u at hd
    have hr : Releases s (cmdDel u tag) := hd.toReleases.trans (cmdDel_releases u tag)
    have hn : cmdAt (cmdDel u tag) tag = none := by rw [cmdAt_cmdDel, if_pos rfl]
    have hset := fun d => (dupSet_keeps (strict := true) (cmdDel u tag) c d).toReleases
    split
    · exact ⟨hr, hn⟩
    · split
      · exact ⟨hr.trans (hset _), (hset _).free tag hn⟩
      · exact ⟨hr.trans (hset _), (hset _).free tag hn⟩

theorem heldRelease_releases (s : State) (c : Cmd) : Releases s (heldRelease s c) := by
  unfold heldRelease
  dsimp only
  split
  · exact .refl s
  · split
    · exact (KeepsCommands.foldl (strict := true) fun s t => endRepeat_keeps s t c.comp).toReleases
    · split
      · exact .refl s
      · split
        · exact .refl s
        · rename_i t _ _ h hh
          exact ((Releases.refl s).then_put hh _).trans (enterCmd_keeps _ _).toReleases

/-- The state after a completion, before a reset of the slice may go on. -/
def compLeft (s : State) (tag : Nat) (c : Cmd) : State :=
  let s1 := cmdRelease s tag
  heldRelease (if c.own && journalled c then jot s1 (jslice c) false (.complete [cToken c]) else s1) c

theorem compLeft_releases (s : State) (tag : Nat) (c : Cmd) : Releases s (compLeft s tag c) ∧ cmdAt (compLeft s tag c) tag = none := by
  obtain ⟨hr, hn⟩ := cmdRelease_releases s tag
  have hj : Releases (cmdRelease s tag)
      (if c.own && journalled c then jot (cmdRelease s tag) (jslice c) false (.complete [cToken c]) else cmdRelease s tag) := by
    split
    · exact (jot_keeps (strict := true) _ _ _ _).toReleases
    · exact .refl _
  have hh := hj.trans (heldRelease_releases _ c)
  exact ⟨hr.trans hh, hh.free tag hn⟩

/-- A completion that neither a reset nor STANDBY waited for: the slice's own reset is not in progress. -/
theorem afterComp_eq {s : State} {tag : Nat} {c : Cmd} (hr : s.tortin.resetTag ≠ some tag) (hs : s.pwr.standby ≠ some tag)
    (hm : ∀ n, cSlice c = some n → (sliceGet s n).mode ≠ .resetting) : afterComp s tag c = compLeft s tag c := by
  have hstep : (match cSlice c with
      | some n => resetStep (compLeft s tag c) n
      | none => compLeft s tag c) = compLeft s tag c := by
    split
    · rename_i n hn
      exact if_pos (.inl (by rw [(compLeft_releases s tag c).1.mode_eq n]; exact hm n hn))
    · rfl
  exact (if_neg hr).trans ((if_neg hs).trans hstep)

end Sys2Proof.Machine
end

section
set_option Elab.async false

/-! SUPPORT. The rows that write completions and repeat accesses, and the settled statement O53 (R56 to R58, R78, R252). -/

namespace Sys2Proof.Machine

open Host Sys2Proof

/-! ### An ended command is tried -/

section
variable {s : State} {tag : Nat} {c : Cmd} {ok : Bool}

/-- The retry that holds the completions of a ring back. -/
def compHeld (s : State) (c : Cmd) : Bool :=
  match cSlice c with
  | some n => (retryOf s (.cqWrite n (cmdCq s c))).isSome
  | none => false

theorem exec_completionWrite (hc : cmdAt s tag = some c) (ht : tortinRuns s = true) (hm : c.mirror = false) (he : c.stage = .ended)
    (hh : compHeld s c = false) : exec (.completionWrite tag ok) s = .next (compTry s tag ok) := by
  show execCompletionWrite tag ok s = _
  unfold execCompletionWrite
  rw [hc]
  change Host.Outcome.next (if (!tortinRuns s || c.mirror || decide (c.stage ≠ .ended) || compHeld s c) = true then s else compTry s tag ok) = _
  rw [if_neg (by simp [ht, hm, he, hh])]

theorem endNote_alone (hp : isPrimary s = false) : endNote s tag c = s := if_pos (by simp [hp])

/-- Where the device is no primary, nothing of the group holds a completion back. -/
theorem compTry_ring {n k i : Nat} (hc : cmdAt s tag = some c) (hp : isPrimary s = false) (ho : c.origin = .ring n k i) :
    compTry s tag ok = if !cqRoom s n (cmdCq s c) then s
      else if ok && fnLive s (sliceGet s n).port then afterComp (writeComp (retryDel s (.cqWrite n (cmdCq s c))) n c) tag c
      else ringFail s (.cqWrite n (cmdCq s c)) n (fun u => cqHalt u n (cmdCq s c)) := by
  have hrel : seamReleased s c.jseq = true := by unfold seamReleased; rw [hp]; rfl
  unfold compTry
  rw [hc]
  dsimp only
  rw [endNote_alone hp, hc]
  dsimp only
  rw [hrel, ho]
  rfl

theorem compTry_mailbox {p : Nat} (hc : cmdAt s tag = some c) (hp : isPrimary s = false) (ho : c.origin = .mailbox p) :
    compTry s tag ok = afterComp (mbxWrite s p c) tag c := by
  have hrel : seamReleased s c.jseq = true := by unfold seamReleased; rw [hp]; rfl
  unfold compTry
  simp only [hc, endNote_alone hp, hrel, ho, Bool.not_true, Bool.false_eq_true, if_false]

/-- The mailbox shows its completion (R78). -/
theorem mbxWrite_done (s : State) (p : Nat) (c : Cmd) :
    (mbxWrite s p c).tortin = { s.tortin with mbx := { s.tortin.mbx with busy := false, done := true } } ∧ (mbxWrite s p c).pwr = s.pwr := by
  have hregs : Only 529 s ((List.range 8).foldl (fun u i => regPut u (aMbxRsp + 4 * i)
      (BitVec.ofNat 32 (leAt (compBytes (cToken c) false 0 c.comp) (4 * i) 4))) (putOutput s c c.out)) :=
    Only.foldl (fun _ _ => regPut_only.mono rfl) putOutput_only
  unfold mbxWrite
  dsimp only
  generalize (List.range 8).foldl _ _ = u at hregs ⊢
  have ht : u.tortin = s.tortin := hregs.tortin_eq
  have hp : u.pwr = s.pwr := hregs.pwr_eq
  split
  · exact ⟨(raiseMsix_only.tortin_eq).trans (by rw [ht]), raiseMsix_only.pwr_eq.trans hp⟩
  · exact ⟨by rw [ht], hp⟩

theorem next_completionWrite_mailbox {p : Nat} (hc : cmdAt s tag = some c) (ht : tortinRuns s = true) (hm : c.mirror = false)
    (he : c.stage = .ended) (hp : isPrimary s = false) (ho : c.origin = .mailbox p) (hr : s.tortin.resetTag ≠ some tag)
    (hs : s.pwr.standby ≠ some tag) : Next (.completionWrite tag ok) s (fun t =>
      t.tortin.mbx.busy = false ∧ t.tortin.mbx.done = true ∧ cmdAt t tag = none) := by
  have hsl : cSlice c = none := by unfold cSlice; rw [ho]
  obtain ⟨htor, hpwr⟩ := mbxWrite_done s p c
  refine next_of (exec_completionWrite hc ht hm he (by unfold compHeld; rw [hsl])) ?_
  rw [compTry_mailbox hc hp ho, afterComp_eq (by rw [htor]; exact hr) (by rw [hpwr]; exact hs) (fun n hn => by rw [hsl] at hn; cases hn)]
  obtain ⟨hrel, hnone⟩ := compLeft_releases (mbxWrite s p c) tag c
  obtain ⟨d, hd⟩ := hrel.mbx
  rw [hd, htor]
  exact ⟨rfl, rfl, hnone⟩

/-! ### A ring's command -/

section
variable {n k i q : Nat} {r : CqRing} (hc : cmdAt s tag = some c) (ht : tortinRuns s = true) (hm : c.mirror = false) (he : c.stage = .ended)
  (hp : isPrimary s = false) (ho : c.origin = .ring n k i) (hq : cmdCq s c = q) (hn : retryOf s (.cqWrite n q) = none)
include hc ht hm he hp ho hq hn

/-- The row tries the completion, for no retry holds the ring. -/
theorem exec_completionWrite_ring (ok : Bool) : exec (.completionWrite tag ok) s = .next (if !cqRoom s n q then s
    else if ok && fnLive s (sliceGet s n).port then afterComp (writeComp s n c) tag c
    else ringFail s (.cqWrite n q) n (fun u => cqHalt u n q)) := by
  subst hq
  have hh : compHeld s c = false := by unfold compHeld cSlice; rw [ho]; simp [hn]
  rw [exec_completionWrite hc ht hm he hh, compTry_ring hc hp ho, retryDel_none hn]

theorem next_completionWrite_full (ok : Bool) (hroom : cqRoom s n q = false) : Next (.completionWrite tag ok) s (fun t => t = s) :=
  next_of (exec_completionWrite_ring hc ht hm he hp ho hq hn ok) (if_pos (by simp [hroom]))

theorem next_completionWrite_retried (hroom : cqRoom s n q = true) (hretry : 1 ≤ (sliceGet s n).retry) :
    Next (.completionWrite tag false) s (fun t => t.slices = s.slices ∧ cmdAt t tag = some c ∧
      (retryOf t (.cqWrite n q)).map (·.fails) = some 1) := by
  refine next_of (exec_completionWrite_ring hc ht hm he hp ho hq hn false) ?_
  rw [if_neg (by simp [hroom]), if_neg (by simp), ringFail_retried (by rw [retryFails_none hn]; exact hretry), retryFails_none hn]
  exact ⟨rfl, hc, retryOf_retryPut⟩

theorem next_completionWrite_halts (hr : cqGet (sliceGet s n) q = r) (hroom : cqRoom s n q = true) (hretry : (sliceGet s n).retry = 0) :
    Next (.completionWrite tag false) s (fun t => ringHalted (cqGet (sliceGet t n) q).cfg = true ∧ ringOn (cqGet (sliceGet t n) q).cfg = false ∧
      (cqGet (sliceGet t n) q).tail = r.tail ∧ cmdAt t tag = some c) := by
  refine next_of (exec_completionWrite_ring hc ht hm he hp ho hq hn false) ?_
  rw [if_neg (by simp [hroom]), if_neg (by simp), ringFail_halts (by rw [retryFails_none hn, hretry]; decide), retryDel_none hn]
  refine ⟨?_, ?_, ?_, (cmdAt_congr cqHalt_only.tortin_eq tag).trans hc⟩ <;> rw [cqHalt_ring]
  · exact ringHalted_haltedCfg _
  · exact ringOn_haltedCfg _
  · rw [hr]

theorem next_completionWrite_written (hr : cqGet (sliceGet s n) q = r) (hroom : cqRoom s n q = true) (hl : fnLive s (sliceGet s n).port = true)
    (hact : (sliceGet s n).mode = .active) (hreset : s.tortin.resetTag ≠ some tag) (hstandby : s.pwr.standby ≠ some tag) :
    Next (.completionWrite tag true) s (fun t =>
      (∃ l, t.out = l ++ compWrites (sliceGet s n) (ringBase r.baseLo r.baseHi + 32 * r.tail) (compBytes (cToken c) r.phase (cmdIndex c) c.comp) ++
        (putOutput s c c.out).out) ∧
      (cqGet (sliceGet t n) q).tail = (r.tail + 1) % ringSize r.cfg ∧
      (cqGet (sliceGet t n) q).phase = (if (r.tail + 1) % ringSize r.cfg = 0 then !r.phase else r.phase) ∧ cmdAt t tag = none) := by
  have hsil : hostSilent s = false := by
    unfold cqRoom at hroom
    simpa using (Bool.and_eq_true_iff.1 hroom).2
  have hw := writeComp_written ho ⟨hsil, hl⟩ (r := r) (by rw [hq]; exact hr)
  rw [hq] at hw
  have hsl : cSlice c = some n := by unfold cSlice; rw [ho]
  have hafter : afterComp (writeComp s n c) tag c = compLeft (writeComp s n c) tag c :=
    afterComp_eq (by rw [writeComp_only.tortin_eq]; exact hreset) (by rw [writeComp_only.pwr_eq]; exact hstandby) fun m hm' => by
      rw [hsl] at hm'
      cases hm'
      rw [hw.mode, hact]
      decide
  refine next_of (exec_completionWrite_ring hc ht hm he hp ho hq hn true) ?_
  rw [if_neg (by simp [hroom]), if_pos (by simp [hl]), hafter]
  obtain ⟨hrel, hnone⟩ := compLeft_releases (writeComp s n c) tag c
  have hout : (compLeft (writeComp s n c) tag c).out = (writeComp s n c).out :=
    (hrel.quiet ((isPrimary_congr writeComp_only.seam_eq).trans hp)).1
  rw [hout, hrel.cqGet_eq]
  exact ⟨hw.out, hw.tail, hw.phase, hnone⟩

end
end

/-! ### Accesses that are repeated -/

section
variable {s : State} {n k : Nat}

theorem next_hostAccessRetry_early {w : HostAccess} {data : HostRead} {tr : Bool} (h : retryDue s w = false) :
    Next (.hostAccessRetry w data tr) s (fun t => t = s) :=
  next_of (congrArg Host.Outcome.next (if_neg (by simp [h]))) rfl

theorem fetchAgain_fails (hon : ringOn (sqGet (sliceGet s n) k).cfg = true) (hact : (sliceGet s n).mode = .active) (hs : ringsServed s = true)
    (hp : (placeKind s n (alarmRing s n k)).isSome = true) : fetchAgain s n k .fault = fetchFails s n k := by
  unfold fetchAgain
  dsimp only
  rw [if_neg (by simp [hon, hact]), if_neg (by rw [hs, ← Option.not_isSome, hp]; decide), ite_self]
  rfl

/-- The retry of a fetch that is due and fails again, counted on its port. -/
theorem exec_hostAccessRetry {x : Retry} (hact : (sliceGet s n).mode = .active) (hon : ringOn (sqGet (sliceGet s n) k).cfg = true)
    (hs : ringsServed s = true) (hx : retryOf s (.sqFetch n k) = some x) (hdue : x.at_ + cycUs ≤ s.time.clk)
    (hp : (placeKind s n (alarmRing s n k)).isSome = true) : exec (.hostAccessRetry (.sqFetch n k) .fault false) s =
      .next (fetchFails (regAdd s (aPci (sliceGet s n).port 0x24) 1) n k) := by
  have hk := PciOnly.add s (sliceGet s n).port 0x24 1
  have hd : retryDue s (.sqFetch n k) = true := by unfold retryDue; rw [hx]; exact decide_eq_true hdue
  have hruns : procRuns s = true := by
    unfold ringsServed tortinRuns at hs
    simp only [Bool.and_eq_true] at hs
    exact hs.1.1.1.1.1.1.1
  have hf : fetchAgain (regAdd s (aPci (sliceGet s n).port 0x24) 1) n k .fault = fetchFails (regAdd s (aPci (sliceGet s n).port 0x24) 1) n k :=
    fetchAgain_fails (by rw [hk.slice_eq, hon]) (by rw [hk.slice_eq, hact]) (by rw [hk.ringsServed_eq, hs])
      (by unfold alarmRing; rw [hk.slice_eq, hk.placeKind_eq]; exact hp)
  exact congrArg Host.Outcome.next ((if_pos (by simp [hd, hruns])).trans hf)

/-- A fetch that fails touches no register but those of its ring's interrupt and record. -/
theorem fetchFails_retried_regs (h : retryFails s (.sqFetch n k) + 1 ≤ (sliceGet s n).retry) : (fetchFails s n k).regs = s.regs := by
  have he : fetchFails s n k = retryPut s (.sqFetch n k) (retryFails s (.sqFetch n k) + 1) := ringFail_retried h
  rw [he]; rfl

/-- What a change of the port's registers before a failing fetch leaves of the fetch. -/
theorem fetchFails_after {u : State} (h : PciOnly s u) (hr : retryFails s (.sqFetch n k) + 1 ≤ (sliceGet s n).retry) :
    FetchRetries s (fetchFails u n k) n k ∧ (fetchFails u n k).regs = u.regs := by
  have hr' : retryFails u (.sqFetch n k) + 1 ≤ (sliceGet u n).retry := by rw [h.retryFails_eq, h.slice_eq]; exact hr
  obtain ⟨hsl, hf⟩ := fetchFails_retries hr'
  exact ⟨⟨hsl.trans h.only.slices_eq, by rw [hf, h.retryFails_eq]⟩, fetchFails_retried_regs hr'⟩

end

/-- The counters of Completion Timeouts and their event, and the retry's own count (R252). -/
def timeoutCounted (s : State) (p : Nat) (again : Bool) : State :=
  let s1 := sqcSet (regAdd s (aPci p 0x14) 1) (aPci p 4) 4
  if again then regAdd s1 (aPci p 0x24) 1 else s1

theorem timeoutCounted_pci (s : State) (p : Nat) (again : Bool) : PciOnly s (timeoutCounted s p again) := by
  unfold timeoutCounted
  dsimp only
  have h := (PciOnly.add s p 0x14 1).trans (.event _ p 4 4)
  split
  · exact h.trans (.add _ p 0x24 1)
  · exact h

theorem timeoutCounted_regs (s : State) (p : Nat) (again : Bool) :
    regGet (timeoutCounted s p again) (aPci p 0x14) = satAdd32 (regGet s (aPci p 0x14)) 1 ∧
    bitOf (regGet (timeoutCounted s p again) (aPci p 4)) 4 = true := by
  have hne (a b : Nat) (h : a ≠ b) : aPci p a ≠ aPci p b := by unfold aPci; omega
  have h1 : regGet (sqcSet (regAdd s (aPci p 0x14) 1) (aPci p 4) 4) (aPci p 0x14) = satAdd32 (regGet s (aPci p 0x14)) 1 :=
    (regGet_sqcSet_other (hne _ _ (by decide))).trans regGet_regPut_same
  have h2 : bitOf (regGet (sqcSet (regAdd s (aPci p 0x14) 1) (aPci p 4) 4) (aPci p 4)) 4 = true := by
    rw [regGet_sqcSet_same]; exact bitOf_sqcWord_same (by decide)
  unfold timeoutCounted
  dsimp only
  split
  · unfold regAdd at h1 h2 ⊢
    rw [regGet_regPut_other (hne _ _ (by decide)), regGet_regPut_other (hne _ _ (by decide))]
    exact ⟨h1, h2⟩
  · exact ⟨h1, h2⟩

theorem next_completionTimeout_not {s : State} {w : HostAccess} (h : readOut s w = false) : Next (.completionTimeout w) s (fun t => t = s) :=
  next_of (congrArg Host.Outcome.next (if_pos (by simp [h]))) rfl

theorem next_completionTimeout {s : State} {n k : Nat} (ho : readOut s (.sqFetch n k) = true) (hl : fnLive s (sliceGet s n).port = true)
    (hr : retryFails s (.sqFetch n k) + 1 ≤ (sliceGet s n).retry) : Next (.completionTimeout (.sqFetch n k)) s (fun t =>
      (retryOf t (.sqFetch n k)).map (·.fails) = some (retryFails s (.sqFetch n k) + 1) ∧ t.slices = s.slices ∧
      regGet t (aPci (sliceGet s n).port 0x14) = satAdd32 (regGet s (aPci (sliceGet s n).port 0x14)) 1 ∧
      bitOf (regGet t (aPci (sliceGet s n).port 4)) 4 = true) := by
  refine next_of (t := fetchFails (timeoutCounted s (sliceGet s n).port (retryOf s (.sqFetch n k)).isSome) n k)
    (congrArg Host.Outcome.next (if_neg (by simp [ho, accessPort, hl]))) ?_
  obtain ⟨⟨hsl, hf⟩, hregs⟩ := fetchFails_after (timeoutCounted_pci s (sliceGet s n).port (retryOf s (.sqFetch n k)).isSome) hr
  rw [regGet_congr hregs, regGet_congr hregs]
  exact ⟨hf, hsl, timeoutCounted_regs _ _ _⟩

/-- Settles O53, by what an ended command finds at its ring or the mailbox, and what a failed fetch finds of its retries. -/
theorem completionsAreWrittenAndAccessesRetried : Obligations.CompletionsAreWrittenAndAccessesRetried := by
  unfold Obligations.CompletionsAreWrittenAndAccessesRetried
  refine ⟨fun s tag n k i q c r hc ht hm he hp => ⟨fun ho hq hr hn => ⟨fun hroom hl hact hreset hstandby => ?_, fun ok hroom => ?_,
      fun hroom hretry => ?_, fun hroom hretry => ?_⟩, fun p ok ho hreset hstandby => ?_⟩, fun s n k hact hon hs => ⟨fun w data tr h => ?_,
      fun x hx hdue hp => ⟨fun hretry _ => ?_, fun hretry _ => ?_⟩, fun ho hl _ hretry => ?_, fun w h => ?_⟩⟩
  · refine (next_completionWrite_written hc ht hm he hp ho hq hn hr hroom hl hact hreset hstandby).mono fun t ⟨⟨l, hl⟩, hrest⟩ => ⟨⟨l, ?_⟩, hrest⟩
    simp only [hl, compWrites, Nat.add_zero]
  · exact next_completionWrite_full hc ht hm he hp ho hq hn ok hroom
  · exact next_completionWrite_retried hc ht hm he hp ho hq hn hroom hretry
  · exact next_completionWrite_halts hc ht hm he hp ho hq hn hr hroom hretry
  · exact next_completionWrite_mailbox hc ht hm he hp ho hreset hstandby
  · exact next_hostAccessRetry_early h
  · have hf : retryFails s (.sqFetch n k) = x.fails := retryFails_of hx
    obtain ⟨⟨hsl, hr⟩, hregs⟩ := fetchFails_after (PciOnly.add s (sliceGet s n).port 0x24 1) (by rw [hf]; exact hretry)
    refine next_of (exec_hostAccessRetry hact hon hs hx hdue hp) ⟨by rw [hr, hf], hsl, ?_⟩
    rw [regGet_congr hregs]
    unfold regAdd
    rw [regGet_regPut_same]
  · have hk := PciOnly.add s (sliceGet s n).port 0x24 1
    obtain ⟨hh, hoff, -, -⟩ := fetchFails_halts (s := regAdd s (aPci (sliceGet s n).port 0x24) 1) (n := n) (k := k)
      (by rw [hk.retryFails_eq, hk.slice_eq, retryFails_of hx]; exact hretry)
    exact next_of (exec_hostAccessRetry hact hon hs hx hdue hp) ⟨hh, hoff⟩
  · exact next_completionTimeout ho hl hretry
  · exact next_completionTimeout_not h

end Sys2Proof.Machine
end

section
set_option Elab.async false

/-! SUPPORT. Entries that are fetched, input that arrives before the checks, and starts; the settled statement O52 (R55, R58, R61, R64, R65,
R74, R80, R181, R219, R252, R561). -/

namespace Sys2Proof.Machine

open Host Sys2Proof

/-! ### The ring whose turn it is -/

theorem ringNext_ready {s : State} {n k : Nat} (h : ringNext s n = some k) : ringReady s n k = true := by
  unfold ringNext at h
  dsimp only at h
  have hmem : k ∈ (List.range 16).filter (ringReady s n) := by
    rcases Option.or_eq_some_iff.1 h with ha | ⟨-, hb⟩
    · exact List.mem_of_find?_eq_some ha
    · refine List.mem_of_mem_filter (p := fun k => !alarmRing s n k) ?_
      rcases Option.or_eq_some_iff.1 hb with hs | ⟨-, ho⟩
      · split at hs
        · split at hs
          · rename_i hc
            cases hs
            exact List.contains_iff_mem.1 hc.2.2
          · cases hs
        · cases hs
      · rcases Option.or_eq_some_iff.1 ho with hf | ⟨-, hd⟩
        · exact List.mem_of_find?_eq_some hf
        · exact List.mem_of_mem_head? hd
  exact List.of_mem_filter hmem

theorem fetchTurn_ready {s : State} {n k : Nat} (h : fetchTurn s = some (n, k)) : ringReady s n k = true := by
  obtain ⟨m, -, hm⟩ := Option.bind_eq_some_iff.1 h
  obtain ⟨j, hj, he⟩ := Option.map_eq_some_iff.1 hm
  cases he
  exact ringNext_ready hj

/-- A ring whose turn it is has no fetch that waits for its retry. -/
theorem fetchTurn_fresh {s : State} {n k : Nat} (h : fetchTurn s = some (n, k)) : retryOf s (.sqFetch n k) = none := by
  have hr := fetchTurn_ready h
  simp only [ringReady, Bool.and_eq_true, Option.isNone_iff_eq_none] at hr
  exact hr.1.1.2

/-! ### Fetches -/

section
variable {s : State} {n k : Nat} (hs : ringsServed s = true) (ht : fetchTurn s = some (n, k))
include hs ht

theorem exec_commandFetch_fails {data : HostRead} (h : fnLive s (sliceGet s n).port = false ∨ data = .fault) :
    exec (.commandFetch n k data) s = .next (fetchFails s n k) := by
  refine congrArg Host.Outcome.next ?_
  rw [if_neg (by simp [hs, ht])]
  rcases h with h | rfl
  · exact if_pos (by simp [h])
  · split <;> rfl

theorem exec_commandFetch_entry {bs : List Byte} (h : fnLive s (sliceGet s n).port = true) :
    exec (.commandFetch n k (.data bs)) s = .next (fetchEntry s n k bs) := by
  refine congrArg Host.Outcome.next ?_
  rw [if_neg (by simp [hs, ht]), if_neg (by simp [h])]

end

/-- An entry whose continuation has not been announced holds its ring until the next doorbell (R61). -/
theorem fetchEntry_short {s : State} {n k : Nat} {bs : List Byte} (hr : retryOf s (.sqFetch n k) = none)
    (h : sqPending (sqGet (sliceGet s n) k) < 1 + contEntries (bytesAt bs 0 64)) :
    fetchEntry s n k bs = sqPut s n k { sqGet (sliceGet s n) k with stall := some (sqGet (sliceGet s n) k).tail } := by
  unfold fetchEntry
  dsimp only
  rw [if_pos h, retryDel_none hr]

/-- The number of the next acceptance is `o`. -/
def withOrder (s : State) (o : Nat) : State := { s with tortin := { s.tortin with order := o } }

/-- The command of an entry, as the tracker takes it. -/
def fetchedCmd (s : State) (n k : Nat) (bs : List Byte) (kept : Bool) : Cmd :=
  let body := bytesAt bs 0 64
  let len := if contEntries body = 0 then 0 else min (bodyInLen body) 1024
  { origin := .ring n k (sqGet (sliceGet s n) k).head, body := body, inlined := bytesAt bs 64 len
    restZero := bytesAt bs (64 + len) (roundUp len 64 - len) == zeros (roundUp len 64 - len)
    order := s.tortin.order, accepted := nowStamp s, kept := kept }

section
variable {s : State} {n k tag : Nat} {kept : Bool} {bs : List Byte} {r : SqRing} (hr : sqGet (sliceGet s n) k = r)
  (h : 1 + contEntries (bytesAt bs 0 64) ≤ sqPending r) (hk : placeKind s n (bitOf r.cfg 30) = some kept)
  (hf : tblFree s.tortin.tracker 0 16384 = some tag)
include hr h hk hf

theorem fetchEntry_eq : fetchEntry s n k bs =
    enterCmd (withOrder (cmdPut (sqPut (agentNext (visitNote (retryDel s (.sqFetch n k)) n k) agCp).2 n k
      { r with head := (r.head + 1 + contEntries (bytesAt bs 0 64)) % ringSize r.cfg, stall := none }) tag (fetchedCmd s n k bs kept))
      (s.tortin.order + 1)) tag := by
  subst hr
  unfold fetchEntry
  dsimp only
  rw [if_neg (Nat.not_lt.2 h), hk, hf]
  rfl

/-- The ring passes an entry that is taken, which becomes a command of its name (R55). -/
theorem fetchEntry_taken : (sqGet (sliceGet (fetchEntry s n k bs) n) k).head = (r.head + 1 + contEntries (bytesAt bs 0 64)) % ringSize r.cfg ∧
    ∃ d, cmdAt (fetchEntry s n k bs) tag = some d ∧ d.body = bytesAt bs 0 64 ∧ d.origin = .ring n k r.head ∧ d.order = s.tortin.order ∧
      d.accepted = nowStamp s := by
  rw [fetchEntry_eq hr h hk hf]
  generalize hu : sqPut _ n k _ = u
  have hkeep := enterCmd_keeps (withOrder (cmdPut u tag (fetchedCmd s n k bs kept)) (s.tortin.order + 1)) tag
  constructor
  · rw [hkeep.sqGet_eq, ← hu]
    exact congrArg SqRing.head sqGet_sqPut_same
  · obtain ⟨d, hd, ho, hb, hn, ha⟩ := hkeep.find (cmdAt_cmdPut_same (s := u))
    exact ⟨d, hd, hb, ho.trans (by rw [← hr]; rfl), hn, ha⟩

end

/-! ### Input that check 9 needs -/

/-- What a command holds of its input once `bs` has been read. -/
def prereadPart (s : State) (c : Cmd) (bs : List Byte) : List Byte :=
  heldInput c ++ bytesAt (bs.drop (heldInput c).length) 0 (prereadLen s c - (heldInput c).length)

/-- The command reads the rest of its request before it goes on (R561). -/
def readsMore (s : State) (c : Cmd) (part : List Byte) : Bool :=
  initRequest s { c with copy := some part } && decide (part.length < cInLen c)

/-- The command waits with what it has read. -/
def prereadKept (s : State) (tag : Nat) (c : Cmd) (part : List Byte) : State :=
  let hs := batchHeads s { c with copy := some part }
  keepInput (cmdPut s tag { c with stage := .waiting }) tag { c with stage := .waiting, heads := hs } (headBytes hs part)

/-- The answer of the host to a read that comes before the checks. -/
def afterPreread (s : State) (tag : Nat) (c : Cmd) : HostRead → State
  | .fault => endBefore (cmdPut s tag { c with stage := .waiting }) tag stHostFault
  | .data bs => if readsMore s c (prereadPart s c bs) then cmdPut s tag { c with copy := some (prereadPart s c bs) }
      else advance (prereadKept s tag c (prereadPart s c bs)) tag

/-- A command that has what it reads waits, with its body. -/
theorem prereadKept_at (s : State) (tag : Nat) (c : Cmd) (part : List Byte) :
    ∃ d, cmdAt (prereadKept s tag c part) tag = some d ∧ d.body = c.body ∧ d.stage = .waiting := by
  unfold prereadKept keepInput
  dsimp only
  split
  · split
    · exact ⟨_, cmdAt_cmdPut_same, rfl, rfl⟩
    · exact ⟨_, (jotInput_only.cmdAt rfl tag).trans cmdAt_cmdPut_same, rfl, rfl⟩
  · split
    · exact ⟨_, cmdAt_cmdPut_same, rfl, rfl⟩
    · exact ⟨_, (jotInput_only.cmdAt rfl tag).trans cmdAt_cmdPut_same, rfl, rfl⟩

section
variable {s : State} {tag : Nat} {c : Cmd} {io : HostRead} (hc : cmdAt s tag = some c) (ht : tortinRuns s = true) (hp : c.stage = .preread)
include hc ht hp

theorem exec_inputPrereadDone : exec (.inputPrereadDone tag io) s = .next (afterPreread s tag c (liveIO s c { input := io }).input) := by
  refine congrArg Host.Outcome.next ?_
  rw [hc]
  dsimp only
  rw [if_neg (by simp [dueInput, hp]), if_neg (by simp [ht, hp])]
  cases (liveIO s c { input := io }).input <;> rfl

theorem next_inputPrereadDone_fault (hf : (liveIO s c { input := io }).input = .fault) :
    Next (.inputPrereadDone tag io) s (fun t => EndedBefore t tag stHostFault) := by
  refine next_of (exec_inputPrereadDone hc ht hp) ?_
  rw [hf]
  exact endBefore_ended cmdAt_cmdPut_same stHostFault 0

/-- The command goes on, or reads the rest of a request of the initialisation (R561). -/
theorem next_inputPrereadDone_data {bs : List Byte} (hf : (liveIO s c { input := io }).input = .data bs) :
    Next (.inputPrereadDone tag io) s (fun t => ∃ d, cmdAt t tag = some d ∧ d.body = c.body ∧
      (d.stage ≠ .preread ∨ (initRequest s d = true ∧ d.copy.isSome = true))) := by
  refine next_of (exec_inputPrereadDone hc ht hp) ?_
  rw [hf]
  unfold afterPreread
  dsimp only
  split
  next hmore => exact ⟨_, cmdAt_cmdPut_same, rfl, .inr ⟨(Bool.and_eq_true_iff.1 hmore).1, rfl⟩⟩
  next =>
    obtain ⟨w, hw, hb, hwait⟩ := prereadKept_at s tag c (prereadPart s c bs)
    obtain ⟨d, hd, hi, hs⟩ := (advance_keeps (strict := true) (prereadKept s tag c (prereadPart s c bs)) tag).same tag w hw
    have hbody : d.body = w.body := congrArg (fun x => x.2.1) hi
    exact ⟨d, hd, hbody.trans hb, .inl fun he => absurd (hwait.symm.trans (hs rfl he)) (by decide)⟩

end

/-! ### Starts -/

/-- In `t` the command at `tag` is `c`, but for what the units that it entered keep of it. -/
def RunsAs (t : State) (tag : Nat) (c : Cmd) : Prop := ∃ w q, cmdAt t tag = some { c with work := w, queued := q }

theorem RunsAs.of_eq {t : State} {tag : Nat} {c : Cmd} (h : cmdAt t tag = some c) : RunsAs t tag c := ⟨c.work, c.queued, h⟩

theorem setWork_runs {s : State} {tag : Nat} {c : Cmd} {w : Work} (h : cmdAt s tag = some c) : RunsAs (setWork s tag w) tag c := by
  unfold setWork; rw [h]; exact ⟨w, c.queued, cmdAt_cmdPut_same⟩

theorem RunsAs.only {s t : State} {m tag : Nat} {c : Cmd} (h : RunsAs s tag c) (k : Only m s t) (hm : m.testBit 10 = false) : RunsAs t tag c := by
  obtain ⟨w, q, hw⟩ := h
  exact ⟨w, q, (k.cmdAt hm tag).trans hw⟩

theorem pressStart_runs {s : State} {tag : Nat} {c : Cmd} (h : cmdAt s tag = some c) : RunsAs (pressStart s tag c) tag c := by
  have hdraw : ∀ (b : Bool) n, Only 1048600 s (if b then draw (touchFast s) n else ([], touchFast s)).2 := by
    intro b n
    cases b
    · exact touchFast_only
    · exact touchFast_only.trans draw_only
  unfold pressStart
  dsimp only
  refine RunsAs.only (setWork_runs ?_) pressEnter_only rfl
  have hd := (hdraw ((cOp c == 0x0501 || cOp c == 0x0506) && pGenIv (symPar c)) (symPar c).plen).cmdAt rfl tag
  split
  · split
    · exact (cacheUse_only.cmdAt rfl tag).trans (hd.trans h)
    · exact hd.trans h
  · exact hd.trans h

theorem pairLeave_runs {s : State} {tag : Nat} {c : Cmd} {ra rb : List Byte} (h : cmdAt s tag = some c) : RunsAs (pairLeave s tag c ra rb) tag c := by
  unfold pairLeave
  split
  next d _ hd =>
    have he : d = c := Option.some.inj (hd.symm.trans h)
    subst he
    exact RunsAs.only ⟨d.work, false, cmdAt_cmdPut_same⟩ mangleTake_only rfl
  next => exact (RunsAs.of_eq h).only mangleEnter2_only rfl

theorem mangleStart_runs {s : State} {tag : Nat} {c : Cmd} (h : cmdAt s tag = some c) : RunsAs (mangleStart s tag c) tag c := by
  have hblind : Only 1048602 s (if needsBlind c then drawBlinding (touchFast s) else touchFast s) := by
    split
    · exact (touchFast_only.mono rfl).trans drawBlinding_only
    · exact touchFast_only.mono rfl
  unfold mangleStart
  dsimp only
  split
  · exact .of_eq h
  · generalize (if needsBlind c then drawBlinding (touchFast s) else touchFast s) = u at hblind ⊢
    have hu : cmdAt u tag = some c := (hblind.cmdAt rfl tag).trans h
    split
    · exact pairLeave_runs ((opRandom_only.cmdAt rfl tag).trans ((opRandom_only.cmdAt rfl tag).trans hu))
    · exact (RunsAs.of_eq hu).only (Only.foldl (fun _ _ => opEnter_only) .refl) rfl

theorem startHook_runs {s : State} {tag : Nat} {c : Cmd} {mask : Nat} (h : cmdAt s tag = some c) : RunsAs (startHook s tag c mask) tag c := by
  unfold startHook
  split
  · exact pressStart_runs h
  · split
    · exact setWork_runs h
    · split
      · exact .of_eq ((stopBegin_only.cmdAt rfl tag).trans h)
      · exact mangleStart_runs h

/-- A start: the command keeps its body, notes the Stamp, and spends its uses and its approval (R65). -/
theorem startCmd_started (s : State) (tag : Nat) (c : Cmd) (out : Nat) : ∃ d, cmdAt (startCmd s tag c out) tag = some d ∧
    d.stage = .started ∧ d.body = c.body ∧ d.started = nowStamp s ∧ d.approval = none ∧ d.uses = [] := by
  have hstaged : Only 32786 s (stageTake (stageTake s c (cInLen c)).2 c out).2 := stageTake_only.trans stageTake_only
  have hgone : Only 1089554 s (c.pinned.foldl cacheUse (startGone (stageTake (stageTake s c (cInLen c)).2 c out).2 c.order)) :=
    Only.foldl (fun _ _ => cacheUse_only.mono rfl) ((hstaged.mono rfl).trans (startGone_only.mono rfl))
  unfold startCmd
  dsimp only
  generalize List.foldl cacheUse _ c.pinned = u at hgone ⊢
  generalize hd : ({ c with stage := _, started := _, uses := _, approval := _, work := _, stageIn := _, stageOut := _, effect := _ } : Cmd) = d
  have hjot : ∀ b body, cmdAt (if journalled c then jot (cmdPut (c.uses.foldl useTake u) tag d) (jslice c) b body
      else cmdPut (c.uses.foldl useTake u) tag d) tag = some d := by
    intro b body
    split
    · exact (jot_only.cmdAt rfl tag).trans cmdAt_cmdPut_same
    · exact cmdAt_cmdPut_same
  have hhook : ∀ v mask, cmdAt v tag = some d → ∃ e, cmdAt (startHook v tag d mask) tag = some e ∧
      e.stage = .started ∧ e.body = c.body ∧ e.started = nowStamp s ∧ e.approval = none ∧ e.uses = [] := by
    intro v mask hv
    obtain ⟨w, q, hw⟩ := startHook_runs hv (mask := mask)
    subst hd
    exact ⟨_, hw, rfl, rfl, hgone.now rfl, rfl, rfl⟩
  refine hhook _ _ ?_
  split
  · exact (pendPut_only.cmdAt rfl tag).trans (hjot _ _)
  · exact hjot _ _

/-! ### The turn of a command that may start -/

section
variable {s : State} {tag : Nat} {c : Cmd} {x : CmdSpec} (hl : x.late = stOk ∨ c.joined = true)
  (hb : x.binds.all (fun b => cacheAllows s b.1 b.2 x.usage) = true) (hk : s.scorch.locked = false ∨ lockPermits s c = true)
include hl hb hk

/-- Nothing ends the command before its start. -/
theorem startStep_permits : ¬(x.late ≠ stOk ∧ (!c.joined) = true) ∧ ¬(x.binds.any (fun b => !cacheAllows s b.1 b.2 x.usage)) = true ∧
    ¬(s.scorch.locked && !lockPermits s c) = true := by
  refine ⟨?_, by simpa using hb, ?_⟩
  · rcases hl with h | h <;> simp [h]
  · rcases hk with h | h <;> simp [h]

theorem startStep_startOrLate (hpl : x.place = none ∨ c.placed.isSome = true) : startStep s tag c x = startOrLate s tag c x.outMax := by
  obtain ⟨hlate, hbinds, hlock⟩ := startStep_permits hl hb hk
  unfold startStep
  rw [if_neg hlate, if_neg hbinds, if_neg hlock]
  split
  next n hsome hnone => rcases hpl with h | h <;> simp [hsome, hnone] at h
  next => rfl

theorem startStep_place {m : Nat} (hpl : x.place = some m) (hnone : c.placed = none) : startStep s tag c x =
    if thmWaits s tag then s
    else if placeStatus s c m ≠ stOk then endBefore s tag (placeStatus s c m)
    else thmPost s { op := 4, alarm := cAlarm c, tag := 0, nums := [m], cmd := some tag } := by
  obtain ⟨hlate, hbinds, hlock⟩ := startStep_permits hl hb hk
  unfold startStep
  simp only [if_neg hlate, if_neg hbinds, if_neg hlock, hpl, hnone]

end

/-- A command that may not start changes at most its turn at the random arbiter (R181, R219). -/
theorem startTry_unready {s : State} {tag : Nat} {c : Cmd} {x : CmdSpec} (h : startReady s c x = false) :
    ∃ l, startTry s tag c x = { s with rng := { s.rng with reqs := l } } := by
  unfold startTry
  split
  · exact ⟨_, rfl⟩
  next hrest =>
    have hbob : bobbinReady s c x = false := by
      simp only [Bool.or_eq_true, Bool.not_eq_true', not_or, Bool.not_eq_false] at hrest
      simpa [startReady, hrest.1, hrest.2] using h
    rw [if_pos (by simp [hbob])]
    split
    · exact ⟨_, rfl⟩
    · exact ⟨s.rng.reqs, rfl⟩

section
variable {s : State} {tag : Nat} {c : Cmd} {x : CmdSpec} (hc : cmdAt s tag = some c) (ht : tortinRuns s = true) (hm : c.mirror = false)
  (hw : c.stage = .waiting) (hp : c.passed = true) (hx : specAll s c = some x)
include hc ht hm hw hp hx

theorem exec_commandStart : exec (.commandStart tag) s = .next (startTry s tag c x) := by
  refine congrArg Host.Outcome.next ?_
  rw [hc]
  dsimp only
  rw [if_neg (by simp [hw]), if_neg (by simp [ht, hm, hw]), if_neg (by simp [hp]), hx]

theorem next_commandStart_unready (h : startReady s c x = false) :
    Next (.commandStart tag) s (fun t => t = { s with rng := { s.rng with reqs := t.rng.reqs } }) := by
  obtain ⟨l, hl⟩ := startTry_unready (tag := tag) h
  exact next_of ((exec_commandStart hc ht hm hw hp hx).trans (congrArg _ hl)) rfl

variable (hr : startReady s c x = true) (ha : alarmAhead s tag c = false)
include hr ha

theorem exec_commandStart_ready : exec (.commandStart tag) s = .next (if isPair s c && !pairNow s then pairQueue s tag c else startStep s tag c x) := by
  obtain ⟨⟨hrest, hmangle⟩, hbob⟩ : (startRest s c x = true ∧ mangleFree s c = true) ∧ bobbinReady s c x = true := by
    simpa only [startReady, Bool.and_eq_true] using hr
  rw [exec_commandStart hc ht hm hw hp hx]
  unfold startTry
  rw [if_neg (by simp [hrest, hmangle]), if_neg (by simp [hbob]), if_neg (by simp [ha])]

/-- A hybrid that finds no two units waits in Mangle's queue (log entry 29). -/
theorem next_commandStart_queued (hpair : isPair s c = true) (hnow : pairNow s = false) :
    Next (.commandStart tag) s (fun t => ∃ d, cmdAt t tag = some d ∧ d.stage = .waiting ∧ d.queued = true) := by
  refine next_of (exec_commandStart_ready hc ht hm hw hp hx hr ha) ?_
  rw [if_pos (by simp [hpair, hnow])]
  exact ⟨_, cmdAt_cmdPut_same, hw, rfl⟩

variable (hn : isPair s c = true → pairNow s = true)
include hn

theorem exec_commandStart_step : exec (.commandStart tag) s = .next (startStep s tag c x) := by
  rw [exec_commandStart_ready hc ht hm hw hp hx hr ha, if_neg ?_]
  cases hpair : isPair s c
  · simp
  · simp [hn hpair]

theorem next_commandStart_late (hl : x.late ≠ stOk) (hj : c.joined = false) :
    Next (.commandStart tag) s (fun t => EndedBefore t tag x.late) := by
  refine next_of (exec_commandStart_step hc ht hm hw hp hx hr ha hn) ?_
  unfold startStep
  rw [if_pos ⟨hl, by simp [hj]⟩]
  exact endBefore_ended hc _ _

variable (hl : x.late = stOk ∨ c.joined = true) (hb : x.binds.all (fun b => cacheAllows s b.1 b.2 x.usage) = true)
  (hk : s.scorch.locked = false ∨ lockPermits s c = true)
include hl hb hk

theorem exec_commandStart_startOrLate (hpl : x.place = none ∨ c.placed.isSome = true) :
    exec (.commandStart tag) s = .next (startOrLate s tag c x.outMax) := by
  rw [exec_commandStart_step hc ht hm hw hp hx hr ha hn, startStep_startOrLate hl hb hk hpl]

theorem next_commandStart_deadline (hpl : x.place = none ∨ c.placed.isSome = true) (hd : cDeadline c ≠ 0)
    (hlate : cDeadline c < (nowStamp s).toNat) : Next (.commandStart tag) s (fun t => EndedBefore t tag stDeadline) := by
  refine next_of (exec_commandStart_startOrLate hc ht hm hw hp hx hr ha hn hl hb hk hpl) ?_
  unfold startOrLate
  rw [if_pos ⟨hd, hlate⟩]
  exact endBefore_ended hc _ _

theorem next_commandStart_started (hpl : x.place = none ∨ c.placed.isSome = true) (hd : cDeadline c = 0 ∨ (nowStamp s).toNat ≤ cDeadline c) :
    Next (.commandStart tag) s (fun t => ∃ d, cmdAt t tag = some d ∧ d.stage = .started ∧ d.body = c.body ∧ d.started = nowStamp s ∧
      d.approval = none ∧ d.uses = []) := by
  refine next_of (exec_commandStart_startOrLate hc ht hm hw hp hx hr ha hn hl hb hk hpl) ?_
  unfold startOrLate
  rw [if_neg (by omega)]
  exact startCmd_started _ _ _ _

/-- A command that needs a key slot asks Thimble for it (R80). -/
theorem next_commandStart_place {m : Nat} (hpl : x.place = some m) (hnone : c.placed = none) (hwait : thmWaits s tag = false)
    (hok : placeStatus s c m = stOk) (hroom : thmRoom s = true) :
    Next (.commandStart tag) s (fun t => cmdAt t tag = some c ∧ t.thm.reqs = s.thm.reqs ++
      [{ op := 4, tag := s.thm.nextTag, nums := [m], alarm := cAlarm c, cmd := some tag, taken := s.time.clk }]) := by
  refine next_of (exec_commandStart_step hc ht hm hw hp hx hr ha hn) ?_
  rw [startStep_place hl hb hk hpl hnone, if_neg (by simp [hwait]), if_neg (by simp [hok])]
  unfold thmPost
  rw [if_neg (by simp [hroom])]
  exact ⟨hc, rfl⟩

end

/-! ### The settled statement -/

/-- Settles O52: a fetch by the ring whose turn it is, input before the checks by `advance_keeps`, and a start by the turns that
`startStep` takes in order. -/
theorem entriesAreFetchedAndCommandsStart : Obligations.EntriesAreFetchedAndCommandsStart := by
  refine ⟨fun s n k r hs ht hr => ⟨fun bs more kept tag hl hmore => ?entry, fun data hf => ?fails⟩, fun s tag c hc ht hm =>
    ⟨fun io hp => ⟨next_inputPrereadDone_fault hc ht hp, fun bs => next_inputPrereadDone_data hc ht hp⟩, fun x hw hp hx hready ha => ?start,
      fun x hw hp hx => next_commandStart_unready hc ht hm hw hp hx⟩⟩
  case entry =>
    subst hmore
    refine ⟨fun hpend hk hfree => next_of (exec_commandFetch_entry hs ht hl) (fetchEntry_taken hr hpend hk hfree), fun hshort => ?_⟩
    subst hr
    refine next_of (exec_commandFetch_entry hs ht hl) ?_
    rw [fetchEntry_short (fetchTurn_fresh ht) hshort]
    exact ⟨rfl, sqGet_sqPut_same⟩
  case fails =>
    subst hr
    exact ⟨fun h => next_of (exec_commandFetch_fails hs ht hf) (fetchFails_retries h),
      fun h => next_of (exec_commandFetch_fails hs ht hf) (fetchFails_halts h)⟩
  case start =>
    refine ⟨next_commandStart_queued hc ht hm hw hp hx hready ha, fun hn => ⟨next_commandStart_late hc ht hm hw hp hx hready ha hn,
      fun hl hb hk => ⟨fun hpl => ⟨?_, ?_⟩, fun m => ?_⟩⟩⟩
    · exact next_commandStart_deadline hc ht hm hw hp hx hready ha hn hl hb hk hpl
    · exact next_commandStart_started hc ht hm hw hp hx hready ha hn hl hb hk hpl
    · exact next_commandStart_place hc ht hm hw hp hx hready ha hn hl hb hk

end Sys2Proof.Machine
end

section
set_option Elab.async false

/-! SUPPORT. Commands that write an output and end, and the settled statement O9 (R80, R313). -/

namespace Sys2Proof.Machine

open Host Sys2Proof

/-! ### The end of a command -/

/-- The end of a started command changes its place, and where it fails also the Tally. -/
theorem endAfter_parts (s : State) (tag status len : Nat) (extra : BitVec 64) : Only 3152 s (endAfter s tag status len extra) := by
  unfold endAfter endCmd
  simp only [Bool.false_eq_true, if_false]
  split
  · exact .refl
  · split
    · exact (cmdPut_only.mono rfl).trans (tallyPut_only.mono rfl)
    · exact cmdPut_only.mono rfl

theorem endAfter_low (s : State) (tag status len : Nat) (extra : BitVec 64) : LowRegs s (endAfter s tag status len extra) := by
  unfold endAfter endCmd
  simp only [Bool.false_eq_true, if_false]
  split
  · exact .refl s
  · split
    · exact .trans (.of_regs rfl) (tallyPut_low _ _ _ _)
    · exact .of_regs rfl

/-- Where the command is not of alarm class, the end changes no register. -/
theorem endAfter_regs {s : State} {tag : Nat} {c : Cmd} (h : cmdAt s tag = some c) (ha : cAlarm c = false) (status len : Nat) (extra : BitVec 64) :
    (endAfter s tag status len extra).regs = s.regs := by
  unfold endAfter endCmd
  simp only [Bool.false_eq_true, if_false]
  rw [h]
  dsimp only
  rw [if_neg (by simp [ha])]
  rfl

/-- A command that a fault of the device ends (Table 18-4). -/
theorem endFault_ended {s : State} {tag : Nat} {c : Cmd} (h : cmdAt s tag = some c) : Ended s (endFault s tag) tag c stInternal ∧ (endFault s tag).out = s.out := by
  obtain ⟨d, hd, hend⟩ := endAfter_ended h rfl rfl stInternal 0 0
  exact ⟨⟨d, (tallyPut_only.cmdAt rfl tag).trans hd, hend⟩, tallyPut_only.out_eq.trans (endAfter_parts _ _ _ _ _).out_eq⟩

/-! ### Outputs -/

/-- What the output `bs` of a command writes to a host that takes it: an output of the mailbox that fits in its words writes none (Table 3-6). -/
def outWrites (s : State) (c : Cmd) (bs : List Byte) : List Output :=
  if c.mirror || bs.isEmpty then [] else
  match c.origin with
  | .ring n _ _ => [.hostWrite (sliceGet s n).port (some (sliceGet s n).pasid) (cOutAddr c) bs]
  | .mailbox p => if cOutAddr c = 0 ∧ 1 ≤ cOutCap c ∧ cOutCap c ≤ 32 then [] else [.hostWrite p none (cOutAddr c) bs]

theorem putOutput_out {s : State} {c : Cmd} (hs : hostSilent s = false) (hl : fnLive s (cFn s c) = true) (bs : List Byte) :
    (putOutput s c bs).out = outWrites s c bs ++ s.out := by
  unfold putOutput outWrites
  cases hm : c.mirror
  · cases ho : c.origin with
    | ring n k i =>
      have hw : Writable s n := ⟨hs, by simpa only [cFn, ho] using hl⟩
      cases he : bs.isEmpty
      · simp only [Bool.false_eq_true, if_false, Bool.or_self]
        exact hostWrite_out hw
      · rfl
    | mailbox p =>
      have hp : fnLive s p = true := by simpa only [cFn, ho] using hl
      cases he : bs.isEmpty
      · simp only [Bool.false_eq_true, if_false, Bool.or_self, hs, hp, Bool.not_true]
        split
        · exact putShort_only.out_eq
        · rfl
      · rfl
  · rfl

/-! ### Reports -/

section
variable {s u : State} {tag : Nat} {c : Cmd} {io : HostIO} {bs : List Byte} {status : Nat} {extra : BitVec 64}

/-- The host takes the output at once. -/
theorem endOut_delivered (hc : cmdAt s tag = some c) (hd : Delivers s c io) :
    endOut s tag io bs status extra = endAfter (putOutput s c bs) tag status bs.length extra := by
  obtain ⟨hs, hr, hm, hl, hok⟩ := hd
  have ht : outTaken s c io bs = true := by simp [outTaken, hl, hok]
  unfold endOut
  rw [hc]
  dsimp only
  rw [if_neg (by simp [hr, hm]), if_pos ht]

/-- A primary holds the output back (R313). -/
theorem endOut_held (hc : cmdAt s tag = some c) (hr : s.seam.role = .primary) (hl : fnLive s (cFn s c) = true) (hok : io.outOk = true) :
    endOut s tag io bs status extra = endAfter (cmdPut s tag { c with out := bs }) tag status bs.length extra := by
  have ht : outTaken s c io bs = true := by simp [outTaken, hl, hok]
  unfold endOut
  rw [hc]
  dsimp only
  rw [if_pos (by simp [hr, ht])]

theorem endOut_fault (hc : cmdAt s tag = some c) (hb : bs ≠ []) (hm : c.mirror = false) (hso : shortOut c = false) (hs : hostSilent s = false)
    (hf : fnLive s (cFn s c) = false ∨ io.outOk = false) : endOut s tag io bs status extra = endAfter s tag stHostFault := by
  have ht : outTaken s c io bs = false := by rcases hf with h | h <;> simp [outTaken, hb, hm, hso, hs, h]
  unfold endOut
  rw [hc]
  dsimp only
  rw [if_neg (by simp [ht]), if_neg (by simp [ht])]

end

theorem cFn_congr {s t : State} {c d : Cmd} (hs : t.slices = s.slices) (ho : d.origin = c.origin) : cFn t d = cFn s c := by
  unfold cFn
  rw [ho]
  split
  · rw [sliceGet_congr hs]
  · rfl

/-- The host, the slices and the clocks meet the device in `t` as in `s`. -/
structure HostSame (s t : State) : Prop where
  time : t.time = s.time
  out : t.out = s.out
  seam : t.seam = s.seam
  fn0 : t.fn0 = s.fn0
  fn1 : t.fn1 = s.fn1
  slices : t.slices = s.slices

/-- The host takes outputs of a command that is the same to it. -/
theorem Delivers.congr {s t : State} {c d : Cmd} {io io' : HostIO} (h : Delivers s c io) (hst : HostSame s t) (ho : d.origin = c.origin)
    (hm : d.mirror = c.mirror) (hio : io'.outOk = true) : Delivers t d io' := by
  obtain ⟨hsil, hrole, hmir, hlive, -⟩ := h
  refine ⟨?_, by rw [hst.seam]; exact hrole, hm.trans hmir, ?_, hio⟩
  · unfold hostSilent at hsil ⊢
    rw [hst.seam]
    exact hsil
  · unfold fnLive fnGet at hlive ⊢
    rw [cFn_congr hst.slices ho, hst.fn0, hst.fn1]
    exact hlive

theorem outWrites_congr {s t : State} {c d : Cmd} (hs : t.slices = s.slices) (ho : d.origin = c.origin) (hm : d.mirror = c.mirror)
    (hb : d.body = c.body) (bs : List Byte) : outWrites t d bs = outWrites s c bs := by
  have haddr : cOutAddr d = cOutAddr c := congrArg (leAt · 40 8) hb
  have hcap : cOutCap d = cOutCap c := congrArg (leAt · 48 4) hb
  unfold outWrites
  rw [hm, ho, haddr, hcap]
  simp only [sliceGet_congr hs]

/-- An output that the host takes at once ends the command `c` of `s`, whose row had left it as `d` in `u`. -/
theorem endOut_ended {s u : State} {tag : Nat} {c d : Cmd} {io io' : HostIO} {bs : List Byte} {status : Nat} {extra : BitVec 64}
    (hdel : Delivers s c io) (hu : HostSame s u) (hd : cmdAt u tag = some d) (hb : d.body = c.body) (ho : d.origin = c.origin)
    (hm : d.mirror = c.mirror) (hio : io'.outOk = true) :
    Ended s (endOut u tag io' bs status extra) tag c status bs.length extra ∧
    (endOut u tag io' bs status extra).out = (putOutput s c bs).out := by
  have hdel' : Delivers u d io' := hdel.congr hu ho hm hio
  have hnow : nowStamp (putOutput u d bs) = nowStamp s := (putOutput_only.now rfl).trans (by unfold nowStamp; rw [hu.time])
  rw [endOut_delivered hd hdel']
  refine ⟨endAfter_ended ((putOutput_only.cmdAt rfl tag).trans hd) hb hnow _ _ _, (endAfter_parts _ _ _ _ _).out_eq.trans ?_⟩
  rw [putOutput_out hdel.1 hdel.2.2.2.1, putOutput_out hdel'.1 hdel'.2.2.2.1, outWrites_congr hu.slices ho hm hb, hu.out]

/-- A row whose work on a started command changes at most registers before it writes its output reports (R80). -/
theorem reports_of_endOut {i : Instr} {tag op : Nat} {io : HostIO} {ok : State → Cmd → Prop} {bs : State → Cmd → List Byte}
    {extra : State → Cmd → BitVec 64} {f : Cmd → State → State} (hx : ∀ s c, ok s c → exec i s = runCmd s tag op f)
    (hf : ∀ s c, ok s c → ∃ r, f c s = endOut { s with regs := r } tag io (bs s c) stOk (extra s c)) :
    Reports i tag op io ok bs extra := by
  intro s c hst hok
  obtain ⟨r, hr⟩ := hf s c hok
  have hc : cmdAt { s with regs := r } tag = some c := hst.2.1
  have hx := hx s c hok
  refine ⟨fun hd => next_runCmd hst hx ?_, fun hp hm hl ho => next_runCmd hst hx ?_, fun hb hm hso hs hfault => next_runCmd hst hx ?_⟩
  · rw [hr]
    exact endOut_ended hd ⟨rfl, rfl, rfl, rfl, rfl, rfl⟩ hc rfl rfl rfl hd.2.2.2.2
  · rw [hr, endOut_held hc hp hl ho]
    have he := endOk_eq (cmdAt_cmdPut_same (s := { s with regs := r }) (tag := tag) (c := { c with out := bs s c })) (bs s c).length (extra s c)
    refine ⟨endAfter_ended cmdAt_cmdPut_same rfl rfl _ _ _, ?_, (endAfter_parts _ _ _ _ _).out_eq⟩
    refine (congrArg (fun t => (cmdAt t tag).map (·.out)) he).trans ?_
    rw [cmdAt_cmdPut_same]
    rfl
  · rw [hr, endOut_fault hc hb hm hso hs hfault]
    exact ⟨endAfter_ended hc rfl rfl _ _ _, (endAfter_parts _ _ _ _ _).out_eq⟩

/-- A row that writes its output and ends. -/
theorem reports_of_output {i : Instr} {tag op : Nat} {io : HostIO} {bs : State → Cmd → List Byte} {extra : State → Cmd → BitVec 64}
    (hx : ∀ s, exec i s = runCmd s tag op (fun c s => endOut s tag io (bs s c) stOk (extra s c))) :
    Reports i tag op io (fun _ _ => True) bs extra :=
  reports_of_endOut (fun s _ _ => hx s) fun s _ _ => ⟨s.regs, rfl⟩

/-! ### `DEV.COUNTERS` -/

/-- The registers of `l` read 0, and no other register has changed. -/
theorem regGet_foldl_zero (l : List Nat) (s : State) (a : Nat) :
    regGet (l.foldl (fun s a => regPut s a 0) s) a = if a ∈ l then 0 else regGet s a := by
  induction l generalizing s with
  | nil => rfl
  | cons b l ih =>
    rw [List.foldl_cons, ih]
    by_cases hb : a = b
    · subst hb; simp
    · simp [hb, regGet_regPut_other hb]

/-- `DEV.COUNTERS` before its output. -/
def countersCleared (s : State) (c : Cmd) : State :=
  if bitN (par c 52 1) 0 then devCounterRegs.foldl (fun s a => regPut s a 0) s else s

theorem foldl_regPut_regs (l : List Nat) (s : State) : ∃ r, l.foldl (fun s a => regPut s a 0) s = { s with regs := r } := by
  induction l generalizing s with
  | nil => exact ⟨s.regs, rfl⟩
  | cons a l ih =>
    obtain ⟨r, hr⟩ := ih (regPut s a 0)
    exact ⟨r, hr⟩

theorem countersCleared_regs (s : State) (c : Cmd) : ∃ r, countersCleared s c = { s with regs := r } := by
  unfold countersCleared
  split
  · exact foldl_regPut_regs _ s
  · exact ⟨s.regs, rfl⟩

theorem regGet_countersCleared (s : State) (c : Cmd) (a : Nat) :
    regGet (countersCleared s c) a = if a ∈ devCounterRegs then (if bitN (par c 52 1) 0 then 0 else regGet s a) else regGet s a := by
  unfold countersCleared
  split
  · exact regGet_foldl_zero devCounterRegs s a
  · simp

/-- An output changes no register but the words of the mailbox's output (Table 3-6). -/
theorem regGet_putOutput {s : State} {c : Cmd} {bs : List Byte} {a : Nat} (h : a < aMbxRsp ∨ aMbxRsp + 0x40 ≤ a) :
    regGet (putOutput s c bs) a = regGet s a := by
  have hshort : regGet (putShort s bs) a = regGet s a :=
    List.foldlRecOn (motive := fun t => regGet t a = regGet s a) _ _ rfl fun t ht i hi =>
      (regGet_regPut_other (by have := List.mem_range.1 hi; omega)).trans ht
  unfold putOutput
  split
  · rfl
  · split
    · split
      · rfl
      · exact regGet_congr (hostWrite_only.regs_eq) a
    · split
      · rfl
      · split
        · exact hshort
        · split
          · rfl
          · exact regGet_congr emit_only.regs_eq a

theorem exec_devCounters (tag : Nat) (io : HostIO) (s : State) : exec (.devCounters tag io) s =
    runCmd s tag 0x0105 (fun c s => endOut (countersCleared s c) tag io (devCounters s)) := rfl

theorem reports_devCounters (tag : Nat) (io : HostIO) :
    Reports (.devCounters tag io) tag 0x0105 io (fun _ _ => True) (fun s _ => devCounters s) :=
  reports_of_endOut (fun s _ _ => exec_devCounters tag io s) fun s c _ => by
    obtain ⟨r, hr⟩ := countersCleared_regs s c
    exact ⟨r, by rw [hr]⟩

/-- Whatever becomes of the output, the counters stand as `DEV.COUNTERS` left them. -/
theorem regGet_devCounters {s u : State} {tag : Nat} {c : Cmd} {io : HostIO} {bs : List Byte} {a : Nat} (hc : cmdAt u tag = some c)
    (hu : regGet u a = regGet s a) (ha : a < aMbxRsp ∨ aMbxRsp + 0x40 ≤ a) (hl : a < 0x80050000 ∨ cAlarm c = false) :
    regGet (endOut u tag io bs) a = regGet s a := by
  have hend : ∀ v d, cmdAt v tag = some d → cAlarm d = cAlarm c → regGet v a = regGet s a → ∀ st len,
      regGet (endAfter v tag st len 0) a = regGet s a := by
    intro v d hv hd hr st len
    rcases hl with h | h
    · exact (endAfter_low v tag st len 0 a h).trans hr
    · exact (regGet_congr (endAfter_regs hv (hd.trans h) st len 0) a).trans hr
  unfold endOut
  rw [hc]
  dsimp only
  split
  · exact hend _ { c with out := bs } cmdAt_cmdPut_same rfl hu _ _
  · split
    · exact hend _ c ((putOutput_only.cmdAt rfl tag).trans hc) rfl ((regGet_putOutput ha).trans hu) _ _
    · exact hend _ c hc rfl hu _ _

theorem devCounterRegs_bounds {a : Nat} (h : a ∈ devCounterRegs) : a < aMbxRsp := by
  revert a; decide

/-- `DEV.COUNTERS` with flag [0] clears what it reports, and nothing else. -/
theorem next_devCounters {s : State} {tag : Nat} {c : Cmd} (io : HostIO) (h : Started s tag 0x0105 c) : Next (.devCounters tag io) s (fun t =>
    (∀ a, a ∈ devCounterRegs → regGet t a = if bitN (par c 52 1) 0 then 0 else regGet s a) ∧
    (∀ a, a ∉ devCounterRegs → (a < aMbxRsp ∨ aMbxRsp + 0x40 ≤ a) → cAlarm c = false → regGet t a = regGet s a)) := by
  have hc : cmdAt (countersCleared s c) tag = some c := by
    obtain ⟨r, hr⟩ := countersCleared_regs s c
    rw [hr]
    exact h.2.1
  refine next_runCmd h (exec_devCounters tag io s) ⟨fun a ha => ?_, fun a ha hm hal => ?_⟩
  · have hlt := devCounterRegs_bounds ha
    rw [regGet_devCounters hc rfl (.inl hlt) (.inl (hlt.trans (by decide))), regGet_countersCleared, if_pos ha]
  · rw [regGet_devCounters hc rfl hm (.inr hal), regGet_countersCleared, if_neg ha]

/-! ### `KEY.INFO` and the settled statement -/

theorem reports_keyInfo (tag : Nat) (io : HostIO) (o : KeyObj) :
    Reports (.keyInfo tag io) tag 0x0406 io (fun s c => keyOf s (cKeyA c) = some o) (fun s c => keyInfo s (cKeyA c) o) :=
  reports_of_endOut (fun _ _ _ => rfl) fun s c hok => ⟨s.regs, by rw [hok]⟩

/-- A `KEY.INFO` whose key has gone ends as a fault of the device, which is the model's reading. -/
theorem next_keyInfo_gone {s : State} {tag : Nat} {c : Cmd} (io : HostIO) (h : Started s tag 0x0406 c) (hk : keyOf s (cKeyA c) = none) :
    Next (.keyInfo tag io) s (fun t => ∃ d, cmdAt t tag = some d ∧ d.stage = .ended ∧ d.comp.status = stInternal ∧ t.out = s.out) := by
  refine next_runCmd h (by rfl) ?_
  rw [hk]
  obtain ⟨⟨d, hd, hst, -, -, hcomp⟩, hout⟩ := endFault_ended h.2.1
  exact ⟨d, hd, hst, by rw [hcomp], hout⟩

theorem next_devNop {s : State} {tag : Nat} {c : Cmd} (h : Started s tag 0x0103 c) :
    Next (.devNop tag) s (fun t => Ended s t tag c stOk ∧ t.out = s.out) :=
  next_runCmd h (f := fun _ s => endOk s tag) rfl ⟨endOk_ended h.2.1 rfl rfl _ _, (endAfter_parts _ _ _ _ _).out_eq⟩

/-- Settles O9: each row is one output and its end, `DEV.COUNTERS` after it has cleared its registers. -/
theorem deviceOwnerAndKeyReports : Obligations.DeviceOwnerAndKeyReports := by
  refine ⟨fun tag io => ⟨reports_of_output fun _ => rfl, reports_of_output fun _ => rfl, reports_of_output fun _ => rfl,
    reports_devCounters tag io, reports_of_output fun _ => rfl, reports_of_output fun _ => rfl, reports_of_output fun _ => rfl,
    reports_of_output fun _ => rfl, reports_keyInfo tag io, fun s c => next_devNop, fun s c => next_keyInfo_gone io⟩,
    fun tag io s c _ h => next_devCounters io h⟩

end Sys2Proof.Machine
end

section
set_option Elab.async false

/-! SUPPORT. Mangle's units, its waiting queue and the places that an entry goes to (R178 to R183; log entry 29). -/

namespace Sys2Proof.Machine

open Host Sys2Proof

/-! ### Operations of a unit -/

theorem mem_tblSet {α : Type} [DecidableEq α] {d v : α} {k : Nat} {t : Tbl α} {e : Nat × α} (h : e ∈ tblSet d k v t) : e = (k, v) ∨ e ∈ t := by
  unfold tblSet at h
  split at h
  · exact .inr (mem_tblDel h)
  · exact mem_tblPut h

@[simp] theorem unitOps_unitPut_same (s : State) (u : Nat) (os : List MangleOp) : unitOps (unitPut s u os) u = os := tblGet_set_same

theorem unitOps_unitPut_other {s : State} {u v : Nat} {os : List MangleOp} (h : v ≠ u) : unitOps (unitPut s u os) v = unitOps s v :=
  tblGet_set_other h

@[simp] theorem unitOps_bankPut (s : State) (u v : Nat) (b : List (Nat × List Byte)) : unitOps (bankPut s u b) v = unitOps s v := rfl

/-- An operation of a unit is one of Mangle's. -/
theorem mem_mangleAll_of_unit {s : State} {u : Nat} {o : MangleOp} (h : o ∈ unitOps s u) : o ∈ mangleAll s := by
  unfold unitOps tblGet at h
  cases hf : tblFind u s.mangle.units with
  | none => rw [hf] at h; cases h
  | some os =>
    rw [hf] at h
    exact List.mem_append_left _ (List.mem_flatMap.2 ⟨_, tblFind_mem hf, h⟩)

/-- Once a unit's operations are set, Mangle's operations are these, or were there. -/
theorem mem_mangleAll_unitPut {s : State} {u : Nat} {os : List MangleOp} {o : MangleOp} (h : o ∈ mangleAll (unitPut s u os)) :
    o ∈ os ∨ o ∈ mangleAll s := by
  rcases List.mem_append.1 h with hu | hw
  · obtain ⟨e, he, ho⟩ := List.mem_flatMap.1 hu
    rcases mem_tblSet he with rfl | he
    · exact .inl ho
    · exact .inr (List.mem_append_left _ (List.mem_flatMap.2 ⟨e, he, ho⟩))
  · exact .inr (List.mem_append_right _ hw)

/-! ### A unit that begins with an operation -/

/-- The operation numbered `n` executes. -/
def markRunning (n : Nat) (x : MangleOp) : MangleOp := if x.order = n then { x with running := true } else x

theorem markRunning_same (n : Nat) (x : MangleOp) :
    (markRunning n x).order = x.order ∧ (markRunning n x).src = x.src ∧ (markRunning n x).ready = x.ready := by
  unfold markRunning
  split
  · exact ⟨rfl, rfl, rfl⟩
  · exact ⟨rfl, rfl, rfl⟩

/-- A unit either does nothing, or one of its operations executes and its bank is filled. -/
theorem unitStep_cases (s : State) (u : Nat) :
    unitStep s u = s ∨ ∃ n b, unitStep s u = bankPut (unitPut s u ((unitOps s u).map (markRunning n))) u b := by
  unfold unitStep
  dsimp only
  split
  · exact .inl rfl
  · split
    · exact .inl rfl
    · exact .inr ⟨_, _, rfl⟩

/-- A unit that executes an operation goes on with it. -/
theorem unitStep_of_runs {s : State} {u : Nat} {o : MangleOp} (h : unitRuns s u = some o) : unitStep s u = s := by
  unfold unitRuns at h
  unfold unitStep
  exact if_pos (List.any_eq_true.2 ⟨o, List.mem_of_find?_eq_some h, (List.find?_some h)⟩)

theorem unitStep_waiting (s : State) (u : Nat) : (unitStep s u).mangle.waiting = s.mangle.waiting := by
  rcases unitStep_cases s u with h | ⟨n, b, h⟩
  · rw [h]
  · rw [h]; rfl

/-- The places of the units are kept as a unit begins. -/
theorem unitStep_orders (s : State) (u v : Nat) : (unitOps (unitStep s u) v).map (·.order) = (unitOps s v).map (·.order) := by
  rcases unitStep_cases s u with h | ⟨n, b, h⟩
  · rw [h]
  · rw [h, unitOps_bankPut]
    by_cases hv : v = u
    · subst hv
      rw [unitOps_unitPut_same, List.map_map]
      exact List.map_congr_left fun x _ => (markRunning_same n x).1
    · rw [unitOps_unitPut_other hv]

/-- Every operation of Mangle of which `p` sees only source and readiness has `p` after a unit's step. -/
theorem unitStep_all {p : JobSrc → Bool → Prop} {s : State} (u : Nat) (h : ∀ o, o ∈ mangleAll s → p o.src o.ready) :
    ∀ o, o ∈ mangleAll (unitStep s u) → p o.src o.ready := by
  intro o ho
  rcases unitStep_cases s u with he | ⟨n, b, he⟩
  · rw [he] at ho; exact h o ho
  · rw [he] at ho
    rcases mem_mangleAll_unitPut ho with hm | hm
    · obtain ⟨x, hx, rfl⟩ := List.mem_map.1 hm
      obtain ⟨-, hs, hr⟩ := markRunning_same n x
      rw [hs, hr]
      exact h x (mem_mangleAll_of_unit hx)
    · exact h o hm

theorem unitEnter_orders_same (s : State) (u : Nat) (o : MangleOp) :
    (unitOps (unitEnter s u o) u).map (·.order) = (unitOps s u).map (·.order) ++ [o.order] := by
  unfold unitEnter
  rw [unitStep_orders, unitOps_unitPut_same, List.map_append]
  rfl

theorem unitEnter_orders_other {s : State} {u v : Nat} (h : v ≠ u) (o : MangleOp) :
    (unitOps (unitEnter s u o) v).map (·.order) = (unitOps s v).map (·.order) := by
  unfold unitEnter
  rw [unitStep_orders, unitOps_unitPut_other h]

theorem unitEnter_waiting (s : State) (u : Nat) (o : MangleOp) : (unitEnter s u o).mangle.waiting = s.mangle.waiting := unitStep_waiting _ _

/-! ### The entry that goes next -/

/-- The least-loaded unit but one is another. -/
theorem unitFor_ne {s : State} {u v : Nat} (h : unitFor s (some u) = some v) : v ≠ u := by
  have hfold : ∀ (t : List Nat) b, t.foldl (fun b v => if (unitOps s v).length < (unitOps s b).length then v else b) b ∈ b :: t := by
    intro t
    induction t with
    | nil => exact fun b => List.mem_cons_self
    | cons x t ih =>
      intro b
      rw [List.foldl_cons]
      split
      · exact List.mem_cons_of_mem _ (ih x)
      · rcases List.mem_cons.1 (ih b) with hb | ht
        · exact List.mem_cons.2 (.inl hb)
        · exact List.mem_cons_of_mem _ (List.mem_cons_of_mem _ ht)
  unfold unitFor at h
  dsimp only at h
  split at h
  · cases h
  next a t hus =>
    split at h
    · have hmem : v ∈ (List.range 8).filter (fun w => some u != some w) := by
        rw [hus, ← Option.some.inj h]
        exact hfold t a
      have hne : (some u != some v) = true := (List.mem_filter.1 hmem).2
      rintro rfl
      simp at hne
    · cases h

/-- The oldest entry of the lowest group that is not shared goes next (R180). -/
theorem mangleNext_of_group {s : State} {w : MangleWait} {g : Nat} (h1 : 1 ≤ g) (h3 : g ≤ 3)
    (hw : (s.mangle.waiting.filter (waitMay s)).find? (fun x => x.op.group == g) = some w)
    (hlow : ∀ x, x ∈ s.mangle.waiting → waitMay s x = true → g ≤ x.op.group) : mangleNext s = some (w, []) := by
  have hnone : ∀ k, k < g → (s.mangle.waiting.filter (waitMay s)).find? (fun x => x.op.group == k) = none := by
    intro k hk
    refine List.find?_eq_none.2 fun x hx hg => ?_
    obtain ⟨hmem, hmay⟩ := List.mem_filter.1 hx
    have hge := hlow x hmem hmay
    have heq : x.op.group = k := by simpa using hg
    omega
  have hfirst : [1, 2, 3].findSome? (fun k => (s.mangle.waiting.filter (waitMay s)).find? (fun x => x.op.group == k)) = some w := by
    obtain rfl | rfl | rfl : g = 1 ∨ g = 2 ∨ g = 3 := by omega
    · rw [List.findSome?_cons, hw]
    · rw [List.findSome?_cons, hnone 1 (by decide), List.findSome?_cons, hw]
    · rw [List.findSome?_cons, hnone 1 (by decide), List.findSome?_cons, hnone 2 (by decide), List.findSome?_cons, hw]
  unfold mangleNext
  dsimp only
  rw [hfirst]

/-! ### A slot that is filled -/

section
variable {s : State} {unit : Nat} {w : MangleWait}

/-- An entry of a group that is not shared, whose command does not start with it, goes to its units as soon as they have room. -/
theorem exec_mangleSlotFill (hm : pwrMode s = 0) (hv : s.pwr.vault = false) (hu : unitFor s none = some unit) (hn : mangleNext s = some (w, []))
    (hg : w.op.group ≠ 4) (hq : ∀ tag h c, w.op.src = .cmd tag h → cmdAt s tag = some c → c.queued = false) :
    exec (.mangleSlotFill unit) s = .next (if waitFits s w then mangleTake s w else s) := by
  have hcharge : mangleCharge s w [] = s := if_neg hg
  refine congrArg Host.Outcome.next ?_
  rw [if_neg (by simp [hm, hv, hu]), hn]
  dsimp only
  rw [hcharge]
  cases hf : waitFits s w
  · rfl
  · rw [if_neg (by simp), if_pos rfl]
    split
    next tag h hs =>
      split
      next c hc => exact if_neg (by simp [hq tag h c hs hc])
      next => rfl
    next => rfl

theorem next_mangleSlotFill_off (h : pwrMode s ≠ 0 ∨ s.pwr.vault = true ∨ unitFor s none ≠ some unit) :
    Next (.mangleSlotFill unit) s (fun t => t = s) :=
  next_of (congrArg Host.Outcome.next (if_pos h)) rfl

theorem twoUnits_of {v : Nat} (hu : unitFor s none = some unit) (hv : unitFor s (some unit) = some v) : twoUnits s = some (unit, v) := by
  unfold twoUnits; rw [hu, Option.bind_some, hv]; rfl

theorem twoUnits_none (hu : unitFor s none = some unit) (hv : unitFor s (some unit) = none) : twoUnits s = none := by
  unfold twoUnits; rw [hu, Option.bind_some, hv]; rfl

theorem mangleTake_single (hw : w.mate = none) (hu : unitFor s none = some unit) : mangleTake s w = unitEnter (waitOut s w) unit w.op := by
  unfold mangleTake; rw [hw, hu]

theorem mangleTake_pair {b : MangleOp} {v : Nat} (hw : w.mate = some b) (h2 : twoUnits s = some (unit, v)) :
    mangleTake s w = pairEnter (waitOut s w) unit v w.op b := by
  unfold mangleTake; rw [hw, h2]

/-- Both halves stand in their units, and the entry has left the queue (R181). -/
theorem pairEnter_orders {v : Nat} (hv : v ≠ unit) (a b : MangleOp) :
    (unitOps (pairEnter (waitOut s w) unit v a b) unit).map (·.order) = (unitOps s unit).map (·.order) ++ [a.order] ∧
    (unitOps (pairEnter (waitOut s w) unit v a b) v).map (·.order) = (unitOps s v).map (·.order) ++ [b.order] ∧
    (pairEnter (waitOut s w) unit v a b).mangle.waiting = s.mangle.waiting.filter (fun x => x.op.order != w.op.order) := by
  unfold pairEnter
  refine ⟨?_, ?_, ?_⟩
  · rw [unitEnter_orders_other hv.symm, unitEnter_orders_same]; rfl
  · rw [unitEnter_orders_same, unitEnter_orders_other hv]; rfl
  · rw [unitEnter_waiting, unitEnter_waiting]; rfl

variable (hx : exec (.mangleSlotFill unit) s = .next (if waitFits s w then mangleTake s w else s)) (hu : unitFor s none = some unit)
include hx hu

theorem next_mangleSlotFill_single (hw : w.mate = none) : Next (.mangleSlotFill unit) s (fun t =>
    (unitOps t unit).map (·.order) = (unitOps s unit).map (·.order) ++ [w.op.order] ∧
    t.mangle.waiting = s.mangle.waiting.filter (fun x => x.op.order != w.op.order)) := by
  refine next_of hx ?_
  rw [if_pos (by simp [waitFits, hw, hu]), mangleTake_single hw hu]
  exact ⟨unitEnter_orders_same _ _ _, unitEnter_waiting _ _ _⟩

theorem next_mangleSlotFill_pair {b : MangleOp} {v : Nat} (hw : w.mate = some b) (hv : unitFor s (some unit) = some v) :
    Next (.mangleSlotFill unit) s (fun t => (unitOps t unit).map (·.order) = (unitOps s unit).map (·.order) ++ [w.op.order] ∧
      (unitOps t v).map (·.order) = (unitOps s v).map (·.order) ++ [b.order] ∧
      t.mangle.waiting = s.mangle.waiting.filter (fun x => x.op.order != w.op.order)) := by
  have h2 := twoUnits_of hu hv
  refine next_of hx ?_
  rw [if_pos (by simp [waitFits, hw, h2]), mangleTake_pair hw h2]
  exact pairEnter_orders (unitFor_ne hv) _ _

/-- A hybrid entry waits for its second unit (log entry 29). -/
theorem next_mangleSlotFill_waits {b : MangleOp} (hw : w.mate = some b) (hv : unitFor s (some unit) = none) :
    Next (.mangleSlotFill unit) s (fun t => t = s) :=
  next_of hx (if_neg (by simp [waitFits, hw, twoUnits_none hu hv]))

end

end Sys2Proof.Machine
end

section
set_option Elab.async false

/-! SUPPORT. The input of a Mangle command, and the end of its last operation (R80, R178 to R205). -/

namespace Sys2Proof.Machine

open Host Sys2Proof

/-! ### The input of a command -/

section
variable {s : State} {tag op : Nat} {c : Cmd} {io : HostIO}

theorem runCmd_started (h : Started s tag op c) (f : Cmd → State → State) : runCmd s tag op f = .next (f c s) := by
  obtain ⟨hr, hc, hs, hd, ho, hi⟩ := h
  have hk : ¬ (decide (cInLen c = 0) && !inputApproved c []) = true := by simpa using hi
  unfold runCmd
  rw [hc]
  exact (if_pos ⟨hs, ho, hd, hr⟩).trans (by rw [if_neg hk])

theorem runIn_reads {bs : List Byte} (h : Started s tag op c) (hr : Reads s c io bs) (f : Cmd → List Byte → State → State) :
    runIn s tag op io f = .next (f { c with expect := none } bs
      (keepInput (cmdPut s tag { c with expect := none }) tag { c with expect := none } bs)) := by
  refine (runCmd_started h _).trans ?_
  dsimp only
  rw [hr.1]
  dsimp only
  rw [if_pos hr.2]

theorem runIn_fails (h : Started s tag op c) (hf : inputOf c (liveIO s c io) = none) (f : Cmd → List Byte → State → State) :
    runIn s tag op io f = .next (endAfter s tag stHostFault) := by
  refine (runCmd_started h _).trans ?_
  dsimp only
  rw [hf]

/-! ### Operations that can run -/

/-- Every operation of the command at `tag` can run. -/
def OpsReady (s : State) (tag : Nat) : Prop := ∀ o, o ∈ mangleAll s → o.src.ofCmd tag = true → o.ready = true

theorem OpsReady.of_mangle {s t : State} (h : OpsReady s tag) (hm : t.mangle = s.mangle) : OpsReady t tag := by
  intro o ho
  unfold mangleAll at ho
  rw [hm] at ho
  exact h o ho

theorem unitsStep_ready {s : State} (h : OpsReady s tag) : OpsReady (unitsStep s) tag :=
  List.foldlRecOn (motive := fun t => OpsReady t tag) _ _ h fun _ ht u _ =>
    unitStep_all (p := fun src ready => src.ofCmd tag = true → ready = true) u ht

theorem mangleAll_mangleMap (s : State) (f : MangleOp → MangleOp) : mangleAll (mangleMap s f) = (mangleAll s).map f := by
  have hwait : ∀ w : MangleWait, waitOps { op := f w.op, mate := w.mate.map f } = (waitOps w).map f := by
    intro w
    cases hm : w.mate <;> simp [waitOps, hm]
  simp only [mangleAll, mangleMap, tblMap, List.map_append, List.flatMap_map, List.map_flatMap, hwait]

/-- The operands of a command's operations are there. -/
theorem mangleSet_ready (s : State) (tag : Nat) : OpsReady (mangleSet s tag) tag := by
  have hmap : OpsReady (mangleMap s (fun o => if o.src.ofCmd tag then { o with ready := true } else o)) tag := by
    intro o ho hsrc
    rw [mangleAll_mangleMap] at ho
    obtain ⟨x, -, rfl⟩ := List.mem_map.1 ho
    split at hsrc
    next hx => rw [if_pos hx]
    next hx => exact absurd hsrc hx
  unfold mangleSet
  dsimp only
  refine unitsStep_ready (hmap.of_mangle ?_)
  exact (Only.foldl (fun _ _ => hashEnter_only) .refl : Only 262144 _ _).mangle_eq

/-- A command whose operations are given up has none. -/
theorem mangleHas_mangleLeave (s : State) (tag : Nat) : mangleHas (mangleLeave s tag) tag = false := by
  refine List.any_eq_false.2 fun o ho => ?_
  rcases List.mem_append.1 ho with hu | hw
  · obtain ⟨e, he, hoe⟩ := List.mem_flatMap.1 hu
    obtain ⟨x, -, rfl⟩ := List.mem_map.1 (List.mem_of_mem_filter he)
    obtain ⟨y, -, hy⟩ := List.mem_filterMap.1 hoe
    split at hy
    next hsrc => cases hy; simpa using hsrc
    next =>
      split at hy
      · cases hy; exact Bool.false_ne_true
      · cases hy
  · obtain ⟨w, hw, how⟩ := List.mem_flatMap.1 hw
    have hany : (waitOps w).any (fun o => o.src.ofCmd tag) = false := by simpa using (List.mem_filter.1 hw).2
    exact List.any_eq_false.1 hany o how

theorem pkInput_reads {bs : List Byte} (h : Started s tag op c) (hn : c.work.nums = []) (hr : Reads s c io bs) :
    ∃ t, pkInput s tag op io = .next t ∧
      (∃ d, cmdAt t tag = some d ∧ d.stage = .started ∧ d.body = c.body ∧ d.work.bytes = c.work.bytes ++ bs) ∧ OpsReady t tag := by
  obtain ⟨x, y, hk⟩ := keepInput_at (bs := bs) (cmdAt_cmdPut_same (s := s) (tag := tag) (c := { c with expect := none }))
  have hat : cmdAt (mangleSet (setWork (keepInput (cmdPut s tag { c with expect := none }) tag { c with expect := none } bs) tag
      { nums := [b2n io.outOk, 0], bytes := c.work.bytes ++ bs }) tag) tag =
      some { c with expect := none, copy := x, heads := y, work := { nums := [b2n io.outOk, 0], bytes := c.work.bytes ++ bs } } := by
    rw [mangleSet_only.cmdAt rfl]
    unfold setWork
    rw [hk]
    exact cmdAt_cmdPut_same
  refine ⟨_, ?_, ⟨_, hat, h.2.2.1, rfl, rfl⟩, mangleSet_ready _ _⟩
  unfold pkInput
  rw [runIn_reads h hr]
  simp only [hn, List.isEmpty_nil, Bool.not_true, Bool.false_eq_true, if_false]
  rw [h.2.1, hat]
  exact if_neg fun hend => absurd (h.2.2.1.symm.trans hend.2.2) (by decide)

theorem pkInput_fails (h : Started s tag op c) (hf : inputOf c (liveIO s c io) = none) :
    ∃ t, pkInput s tag op io = .next t ∧ Ended s t tag c stHostFault ∧ mangleHas t tag = false := by
  obtain ⟨d, hd, hend, hrest⟩ := endAfter_ended h.2.1 rfl rfl stHostFault 0 0
  refine ⟨mangleLeave (endAfter s tag stHostFault) tag, ?_, ⟨d, (mangleLeave_only.cmdAt rfl tag).trans hd, hend, hrest⟩, mangleHas_mangleLeave _ _⟩
  unfold pkInput
  rw [runIn_fails h hf]
  dsimp only
  rw [h.2.1, hd]
  exact if_pos ⟨h.2.2.1, h.2.2.2.2.1, hend⟩

end

/-- The row of an input that goes to Mangle. -/
theorem mangleInput_of {i : Instr} {tag op : Nat} {io : HostIO} (hx : ∀ s, exec i s = pkInput s tag op io) : MangleInput i tag op io := by
  intro s c h
  refine ⟨fun bs hn hr => ?_, fun hf => ?_⟩
  · obtain ⟨t, ht, ⟨d, hd, hst, hb, hw⟩, hready⟩ := pkInput_reads h hn hr
    exact next_of ((hx s).trans ht) ⟨d, hd, hst, hb, hw, fun o k ho hsrc => hready o ho (by rw [hsrc]; exact beq_self_eq_true tag)⟩
  · obtain ⟨t, ht, hp⟩ := pkInput_fails h hf
    exact next_of ((hx s).trans ht) hp

/-- A public key that is held is written at once (R205). -/
theorem reports_pkGetPublic (tag : Nat) (io : HostIO) (o : KeyObj) :
    Reports (.pkGetPublic tag io) tag 0x0606 io (fun s c => mangleHas s tag = false ∧ keyOf s (cKeyA c) = some o) (fun _ _ => pubOf o) :=
  reports_of_endOut (fun s _ hok => if_neg (by rw [hok.1]; exact Bool.false_ne_true)) fun s c hok => ⟨s.regs, by unfold pkPublic; rw [hok.2]⟩

/-! ### The end of an operation -/

/-- In `t` the command `c` of `s` has ended with `status` and writes nothing. -/
def EndsQuietly (s t : State) (tag : Nat) (c : Cmd) (status : Nat) (extra : BitVec 64 := 0) : Prop :=
  Ended s t tag c status 0 extra ∧ t.out = s.out

/-- In `t` the command `c` of `s` has ended with `OK` and the output `bs`. -/
def EndsWith (s t : State) (tag : Nat) (c : Cmd) (bs : List Byte) (extra : BitVec 64 := 0) : Prop :=
  Ended s t tag c stOk bs.length extra ∧ t.out = (putOutput s c bs).out

section
variable {s t : State} {tag : Nat} {c : Cmd} (u : Nat)

/-- The unit turns to its next operation, which concerns no command. -/
theorem cmdAt_unitNext : cmdAt (unitNext t u) tag = cmdAt t tag := unitStep_only.cmdAt rfl tag

theorem Ended.unitNext {status len : Nat} {extra : BitVec 64} (h : Ended s t tag c status len extra) : Ended s (unitNext t u) tag c status len extra := by
  obtain ⟨d, hd, hrest⟩ := h
  exact ⟨d, (cmdAt_unitNext u).trans hd, hrest⟩

theorem EndsQuietly.unitNext {status : Nat} {extra : BitVec 64} (h : EndsQuietly s t tag c status extra) :
    EndsQuietly s (unitNext t u) tag c status extra :=
  ⟨h.1.unitNext u, unitStep_only.out_eq.trans h.2⟩

theorem EndsWith.unitNext {bs : List Byte} {extra : BitVec 64} (h : EndsWith s t tag c bs extra) : EndsWith s (unitNext t u) tag c bs extra :=
  ⟨h.1.unitNext u, unitStep_only.out_eq.trans h.2⟩

theorem Gives.unitNext {secret : List Byte} {op : Nat} (h : Gives s t tag c secret op) : Gives s (unitNext t u) tag c secret op := by
  obtain ⟨⟨d, hd, hrest⟩, r, hr, hreq⟩ := h
  exact ⟨⟨d, (cmdAt_unitNext u).trans hd, hrest⟩, r, (congrArg ThmState.reqs unitStep_only.thm_eq).trans hr, hreq⟩

theorem endAfter_quietly {d : Cmd} (hd : cmdAt t tag = some d) (hb : d.body = c.body) (hn : nowStamp t = nowStamp s) (ho : t.out = s.out)
    (status : Nat) (extra : BitVec 64) : EndsQuietly s (endAfter t tag status 0 extra) tag c status extra :=
  ⟨endAfter_ended hd hb hn status 0 extra, (endAfter_parts _ _ _ _ _).out_eq.trans ho⟩

end

/-- A request that carries a secret goes to Thimble (R184). -/
theorem gives_of_thmAsk {s t : State} {tag : Nat} {c d : Cmd} {r : ThmReq} (hs : d.stage = .started) (hb : d.body = c.body) (hw : d.work.step = 0)
    (hroom : thmRoom s = true) (ht : t.thm = s.thm) : Gives s (thmAsk t tag d r) tag c r.secret r.op := by
  have hr : thmRoom t = true := by unfold thmRoom; rw [ht]; exact hroom
  rw [thmAsk_eq hw hr, ht]
  exact ⟨⟨_, cmdAt_cmdPut_same, hs, hb, rfl⟩, _, rfl, rfl, rfl, rfl⟩

theorem mangleHas_congr {s t : State} (h : t.mangle = s.mangle) (tag : Nat) : mangleHas t tag = mangleHas s tag := by
  unfold mangleHas mangleAll; rw [h]

theorem setWork_eq {s : State} {tag : Nat} {c : Cmd} (h : cmdAt s tag = some c) (w : Work) : setWork s tag w = cmdPut s tag { c with work := w } := by
  unfold setWork; rw [h]

section
variable {s : State} {unit tag half op : Nat} {c : Cmd} {o : MangleOp} (h : MangleEnds s unit tag half op c o)
include h

/-- The row ends the operation of its command. -/
theorem exec_mangleOpDone (wrong : Bool) : exec (.mangleOpDone unit wrong) s = .next (opDoneCmd s unit o tag half wrong) := by
  obtain ⟨-, -, -, -, -, -, hruns, hsrc, -⟩ := h
  refine congrArg Host.Outcome.next ?_
  dsimp only
  rw [unitStep_of_runs hruns, hruns]
  dsimp only
  rw [hsrc]

theorem mangleEnds_ready : secretWaits s c = false := by
  obtain ⟨-, -, -, -, -, hroom, -⟩ := h
  simp [secretWaits, hroom]

theorem mangleEnds_cmd : cmdAt s tag = some c ∧ cOp c = op ∧ c.stage = .started := by
  obtain ⟨⟨-, hc, hst, -, hop, -⟩, -⟩ := h
  exact ⟨hc, hop, hst⟩

/-- The last operation of a command that makes neither a key pair nor a signature. -/
theorem opDoneCmd_plain (hpair : op ≠ 0x0401) (hsign : op ≠ 0x0601) (hoffer : op ≠ 0x0809) (wrong : Bool) :
    opDoneCmd s unit o tag half wrong = unitNext (pkDone (opEnd s unit o) tag (bankGet s unit) o.rnd) unit := by
  obtain ⟨hc, hop, -⟩ := mangleEnds_cmd h
  have hlast : mangleHas (opEnd s unit o) tag = false := h.2.2.2.2.2.2.2.2
  have hne : ¬(cOp c = 0x0601 ∨ (cOp c = 0x0809 ∧ c.work.step = 2)) := by omega
  unfold opDoneCmd
  rw [hc]
  dsimp only
  rw [if_neg (by simp [mangleEnds_ready h]), if_neg (by omega), if_neg hne, if_neg (by simp [hlast])]

/-- The last operation of a signature. -/
theorem opDoneCmd_sign (hsign : op = 0x0601) (wrong : Bool) : opDoneCmd s unit o tag half wrong =
    unitNext (pkDone (signHalfDone (opEnd s unit o) tag c half (bankGet s unit (o.keys.headD 0)) o.rnd wrong) tag (bankGet s unit) o.rnd) unit := by
  obtain ⟨hc, hop, -⟩ := mangleEnds_cmd h
  have hlast : mangleHas (signHalfDone (opEnd s unit o) tag c half (bankGet s unit (o.keys.headD 0)) o.rnd wrong) tag = false :=
    (mangleHas_congr setWork_only.mangle_eq tag).trans h.2.2.2.2.2.2.2.2
  have hsig : cOp c = 0x0601 ∨ (cOp c = 0x0809 ∧ c.work.step = 2) := .inl (hop.trans hsign)
  unfold opDoneCmd
  rw [hc]
  dsimp only
  rw [if_neg (by simp [mangleEnds_ready h]), if_neg (by omega), if_pos hsig, if_neg (by rw [hlast]; exact Bool.false_ne_true)]

/-- The unit of a key pair. -/
theorem opDoneCmd_pair (hpair : op = 0x0401) (wrong : Bool) : opDoneCmd s unit o tag half wrong = pairDone s unit o tag c := by
  obtain ⟨hc, hop, -⟩ := mangleEnds_cmd h
  unfold opDoneCmd
  rw [hc]
  dsimp only
  rw [if_neg (by simp [mangleEnds_ready h]), if_pos (by omega)]

end

end Sys2Proof.Machine
end

section
set_option Elab.async false

/-! SUPPORT. What the last operation of each Mangle command gives, and the settled statement O24 (R181 to R205; log entry 29). -/

namespace Sys2Proof.Machine

open Host Sys2Proof

/-- What the last operation of each command goes on with; a command's input was read where its first number is 1. -/
theorem pkDone_eq {t : State} {tag : Nat} {d : Cmd} (hd : cmdAt t tag = some d) (priv : Nat → List Byte) (r : List Byte) :
    (cOp d = 0x0601 → pkDone t tag priv r = signDone t tag d { outOk := d.work.nums.headD 1 == 1 }) ∧
    (cOp d = 0x0602 → pkDone t tag priv r = verifyDone t tag d) ∧
    (cOp d = 0x0603 → pkDone t tag priv r = agreeDone t tag d (priv (cKeyA d))) ∧
    (cOp d = 0x0605 → pkDone t tag priv r = decapsDone t tag d (priv (cKeyA d))) ∧
    (cOp d = 0x0606 → pkDone t tag priv r = pkPublic t tag d { outOk := d.work.nums.headD 1 == 1 }) := by
  unfold pkDone
  rw [hd]
  dsimp only
  refine ⟨fun hop => ?_, fun hop => ?_, fun hop => ?_, fun hop => ?_, fun hop => ?_⟩
  all_goals simp only [hop]

/-- A number that stands first is read with any default. -/
theorem headD_of_ne {l : List Nat} {a b x : Nat} (h : l.headD a = x) (hx : x ≠ a) : l.headD b = x := by
  cases l with
  | nil => exact absurd h.symm hx
  | cons y l => exact h

section
variable {s : State} {unit tag half op : Nat} {c : Cmd} {o : MangleOp} (h : MangleEnds s unit tag half op c o)
include h

/-- The command stands as it was once the operation has left its unit. -/
theorem cmdAt_opEnd : cmdAt (opEnd s unit o) tag = some c := (mangleEnds_cmd h).1

/-- A row of the last operation of a command that makes neither a key pair nor a signature. -/
theorem next_mangleOpDone_plain {P : State → Prop} (hpair : op ≠ 0x0401) (hsign : op ≠ 0x0601) (hoffer : op ≠ 0x0809)
    (hp : P (unitNext (pkDone (opEnd s unit o) tag (bankGet s unit) o.rnd) unit)) : Next (.mangleOpDone unit false) s P :=
  next_of ((exec_mangleOpDone h false).trans (congrArg _ (opDoneCmd_plain h hpair hsign hoffer false))) hp

/-! ### Verification, decapsulation, agreement and public keys -/

theorem next_verifyDone (hop : op = 0x0602) : Next (.mangleOpDone unit false) s (fun t => EndsQuietly s t tag c
    (if 4 ≤ pkVerdict s c then stBadPoint else if pkVerdict s c ≠ 0 then 0x0601 else stOk) (BitVec.ofNat 64 (pkVerdict s c))) := by
  subst hop
  refine next_mangleOpDone_plain h (by decide) (by decide) (by decide) (EndsQuietly.unitNext unit ?_)
  rw [(pkDone_eq (cmdAt_opEnd h) _ _).2.1 (mangleEnds_cmd h).2.1]
  exact endAfter_quietly (s := s) (t := opEnd s unit o) (cmdAt_opEnd h) rfl rfl rfl _ _

/-- A secret that an operation gives goes to Thimble, with whatever is kept for the output. -/
theorem giveSecret_gives (t : Nat) (secret more : List Byte) : Gives s (giveSecret (opEnd s unit o) tag c t secret more) tag c secret := by
  obtain ⟨hst, -, -, hstep, -, hroom, -⟩ := h
  obtain ⟨-, hc, hstarted, -⟩ := hst
  unfold giveSecret
  dsimp only
  rw [setWork_eq (s := opEnd s unit o) hc, cmdAt_cmdPut_same]
  exact gives_of_thmAsk hstarted rfl hstep hroom rfl

theorem next_decapsDone (hop : op = 0x0605) : Next (.mangleOpDone unit false) s (fun t =>
    Gives s t tag c (bytesAt (Config.decaps (typeOf s (cKeyA c)) (bankGet s unit (cKeyA c)) c.work.bytes) 0 32)) := by
  subst hop
  refine next_mangleOpDone_plain h (by decide) (by decide) (by decide) (Gives.unitNext unit ?_)
  rw [(pkDone_eq (cmdAt_opEnd h) _ _).2.2.2.1 (mangleEnds_cmd h).2.1]
  exact giveSecret_gives h _ _ _

/-- What `PK.AGREE` with a stored peer key agrees on. -/
def agreed (s : State) (unit : Nat) (c : Cmd) : List Byte :=
  bytesAt (Config.agree (typeOf s (cKeyA c)) (bankGet s unit (cKeyA c)) (((keyOf s (cKeyB c)).map pubOf).getD [])) 0 (secretLen (typeOf s (cKeyA c)))

omit h in
theorem agreeDone_stored (hia : par c 52 1 = 0) : agreeDone (opEnd s unit o) tag c (bankGet s unit (cKeyA c)) =
    if agreeZero (typeOf s (cKeyA c)) (agreed s unit c) then endAfter (opEnd s unit o) tag stBadPoint
    else giveSecret (opEnd s unit o) tag c (typeOf s (cKeyA c)) (agreed s unit c) [] := by
  unfold agreeDone verifyKey
  rw [if_neg (by simp [hia])]
  rfl

theorem next_agreeDone_gives (hop : op = 0x0603) (hia : par c 52 1 = 0) (hz : agreeZero (typeOf s (cKeyA c)) (agreed s unit c) = false) :
    Next (.mangleOpDone unit false) s (fun t => Gives s t tag c (agreed s unit c)) := by
  subst hop
  refine next_mangleOpDone_plain h (by decide) (by decide) (by decide) (Gives.unitNext unit ?_)
  rw [(pkDone_eq (cmdAt_opEnd h) _ _).2.2.1 (mangleEnds_cmd h).2.1, agreeDone_stored hia, if_neg (by simp [hz])]
  exact giveSecret_gives h _ _ _

/-- An agreement of zeros is refused (Table 7-3). -/
theorem next_agreeDone_zero (hop : op = 0x0603) (hia : par c 52 1 = 0) (hz : agreeZero (typeOf s (cKeyA c)) (agreed s unit c) = true) :
    Next (.mangleOpDone unit false) s (fun t => Ended s t tag c stBadPoint ∧ t.thm = s.thm) := by
  subst hop
  refine next_mangleOpDone_plain h (by decide) (by decide) (by decide) ?_
  rw [(pkDone_eq (cmdAt_opEnd h) _ _).2.2.1 (mangleEnds_cmd h).2.1, agreeDone_stored hia, if_pos hz]
  exact ⟨Ended.unitNext unit (endAfter_ended (cmdAt_opEnd h) rfl rfl _ _ _), unitStep_only.thm_eq.trans (endAfter_parts _ _ _ _ _).thm_eq⟩

theorem next_publicDone {x : KeyObj} (hop : op = 0x0606) (hx : keyOf s (cKeyA c) = some x) :
    Next (.mangleOpDone unit false) s (fun t => EndsWith s t tag c (pubOf x)) := by
  subst hop
  refine next_mangleOpDone_plain h (by decide) (by decide) (by decide) (EndsWith.unitNext unit ?_)
  rw [(pkDone_eq (cmdAt_opEnd h) _ _).2.2.2.2 (mangleEnds_cmd h).2.1]
  unfold pkPublic
  rw [show keyOf (opEnd s unit o) (cKeyA c) = some x from hx]
  obtain ⟨hst, hnum, -, -, hdel, -⟩ := h
  have hone : (c.work.nums.headD 1 == 1) = true := beq_iff_eq.2 (headD_of_ne hnum (by decide))
  exact endOut_ended hdel (u := opEnd s unit o) ⟨rfl, rfl, rfl, rfl, rfl, rfl⟩ hst.2.1 rfl rfl rfl hone

/-! ### Key pairs -/

theorem next_pairDone {P : State → Prop} (hop : op = 0x0401) (hp : P (pairDone s unit o tag c)) : Next (.mangleOpDone unit false) s P :=
  next_of ((exec_mangleOpDone h false).trans (congrArg _ (opDoneCmd_pair h hop false))) hp

theorem next_pairDone_waits (hop : op = 0x0401) (hb : bobbinFor s 3 = false) : Next (.mangleOpDone unit false) s (fun t => t = s) :=
  next_pairDone h hop (if_pos (by simp [hb]))

theorem next_pairDone_rejected {x : State} (hop : op = 0x0401) (hb : bobbinFor s 3 = true) (hm : pairMaterial s (kcType c) (kcSize c) = (none, x)) :
    Next (.mangleOpDone unit false) s (fun t => t = x) := by
  refine next_pairDone h hop ?_
  unfold pairDone
  rw [if_neg (by simp [hb]), hm]

theorem next_pairDone_gives {k : List Byte} {x : State} (hop : op = 0x0401) (hb : bobbinFor s 3 = true)
    (hm : pairMaterial s (kcType c) (kcSize c) = (some k, x)) : Next (.mangleOpDone unit false) s (fun t => Gives s t tag c k 5) := by
  refine next_pairDone h hop ?_
  unfold pairDone
  rw [if_neg (by simp [hb]), hm]
  obtain ⟨hst, -, -, hstep, -, hroom, -⟩ := h
  have hthm : x.thm = s.thm := by
    have hx : x = (pairMaterial s (kcType c) (kcSize c)).2 := by rw [hm]
    rw [hx]
    exact pairMaterial_only.thm_eq
  exact Gives.unitNext unit (gives_of_thmAsk (t := opEnd x unit o) hst.2.2.1 rfl hstep hroom hthm)

/-! ### Signatures -/

omit h in
/-- A started `PK.SIGN` once the half `half` has run: its result, whether it was found wrong, and what both halves took. -/
def signedCmd (s : State) (unit half : Nat) (o : MangleOp) (c : Cmd) (wrong : Bool) : Cmd :=
  let t := sideType s (if half = 0 then cKeyA c else cKeyB c) 0 0
  let a := signHalf (pkPar c) half t (bankGet s unit (o.keys.headD 0)) o.rnd (bytesAt c.work.bytes 0 (pkPar c).ctx) (c.work.bytes.drop (pkPar c).ctx)
  { c with work := { c.work with
    parts := tblPut half a.1 c.work.parts
    nums := [c.work.nums.getD 0 0, max (c.work.nums.getD 1 0) (b2n (wrong && t.1 == 0x20)), (pkSignature s unit half o c).2.1,
      (pkSignature s unit half o c).2.2] } }

omit h in
theorem signHalfDone_eq (hop : cOp c = 0x0601) (hc : cmdAt s tag = some c) (wrong : Bool) :
    signHalfDone (opEnd s unit o) tag c half (bankGet s unit (o.keys.headD 0)) o.rnd wrong =
    cmdPut (opEnd s unit o) tag (signedCmd s unit half o c wrong) := by
  have hp : signPar c = pkPar c := if_neg (by omega)
  refine Eq.trans ?_ (setWork_eq (s := opEnd s unit o) hc _)
  unfold signHalfDone
  rw [hp]
  rfl

omit h in
/-- What the signature's end reads of the command. -/
theorem signedCmd_nums (wrong : Bool) : (signedCmd s unit half o c wrong).work.nums.headD 1 = c.work.nums.getD 0 0 ∧
    (signedCmd s unit half o c wrong).work.nums.getD 1 0 =
      max (c.work.nums.getD 1 0) (b2n (wrong && (sideType s (if half = 0 then cKeyA c else cKeyB c) 0 0).1 == 0x20)) ∧
    (signedCmd s unit half o c wrong).work.nums.getD 2 0 = (pkSignature s unit half o c).2.1 ∧
    (signedCmd s unit half o c wrong).work.nums.getD 3 0 = (pkSignature s unit half o c).2.2 ∧
    (signedCmd s unit half o c wrong).work.parts.flatMap (·.2) = (pkSignature s unit half o c).1 := ⟨rfl, rfl, rfl, rfl, rfl⟩

/-- The command's end, when the last half of its signature has run. -/
theorem next_signDone {P : State → Prop} (hop : op = 0x0601) (wrong : Bool)
    (hp : P (unitNext (signDone (cmdPut (opEnd s unit o) tag (signedCmd s unit half o c wrong)) tag (signedCmd s unit half o c wrong) {}) unit)) :
    Next (.mangleOpDone unit wrong) s P := by
  have hcop : cOp c = 0x0601 := (mangleEnds_cmd h).2.1.trans hop
  have hone : ((signedCmd s unit half o c wrong).work.nums.headD 1 == 1) = true := by
    obtain ⟨-, hnum, -⟩ := h
    have hzero : c.work.nums.getD 0 0 = 1 := by
      cases hn : c.work.nums with
      | nil => rw [hn] at hnum; exact hnum
      | cons x l => rw [hn] at hnum; exact hnum
    rw [(signedCmd_nums wrong).1, hzero]
    rfl
  refine next_of ((exec_mangleOpDone h wrong).trans (congrArg _ (opDoneCmd_sign h hop wrong))) ?_
  rw [signHalfDone_eq hcop (mangleEnds_cmd h).1 wrong,
    (pkDone_eq (d := signedCmd s unit half o c wrong) cmdAt_cmdPut_same _ _).1 hcop, hone]
  exact hp

/-- No RSA result was found wrong (R188). -/
theorem signedCmd_right : (signedCmd s unit half o c false).work.nums.getD 1 0 ≠ 1 := by
  obtain ⟨-, -, hno, -⟩ := h
  rw [(signedCmd_nums false).2.1, hno, Bool.false_and]
  decide

theorem next_signDone_ok (hop : op = 0x0601) (htries : (pkSignature s unit half o c).2.1 ≤ 1000) :
    Next (.mangleOpDone unit false) s (fun t => EndsWith s t tag c (pkSignature s unit half o c).1
      (BitVec.ofNat 64 ((pkSignature s unit half o c).2.1 % 65536 + 65536 * ((pkSignature s unit half o c).2.2 % 256)))) := by
  refine next_signDone h hop false (EndsWith.unitNext unit ?_)
  have hright := signedCmd_right h
  obtain ⟨-, -, htwo, hthree, hparts⟩ := signedCmd_nums (s := s) (unit := unit) (half := half) (o := o) (c := c) false
  unfold signDone
  dsimp only
  rw [if_neg hright, if_neg (by omega), htwo, hthree, hparts]
  obtain ⟨-, -, -, -, hdel, -⟩ := h
  exact endOut_ended hdel ⟨rfl, rfl, rfl, rfl, rfl, rfl⟩ cmdAt_cmdPut_same rfl rfl rfl rfl

theorem next_signDone_tired (hop : op = 0x0601) (htries : 1000 < (pkSignature s unit half o c).2.1) :
    Next (.mangleOpDone unit false) s (fun t => EndsQuietly s t tag c 0x0602) := by
  refine next_signDone h hop false (EndsQuietly.unitNext unit ?_)
  have hright := signedCmd_right h
  obtain ⟨-, -, htwo, -⟩ := signedCmd_nums (s := s) (unit := unit) (half := half) (o := o) (c := c) false
  unfold signDone
  dsimp only
  rw [if_neg hright, if_pos (by omega)]
  exact endAfter_quietly cmdAt_cmdPut_same rfl rfl rfl _ _

/-- A wrong RSA result ends the command without output (R188). -/
theorem next_signDone_wrong (hop : op = 0x0601) (hhalf : half = 0) (hrsa : (sideType s (cKeyA c) 0 0).1 = 0x20) :
    Next (.mangleOpDone unit true) s (fun t => EndsQuietly s t tag c stInternal) := by
  refine next_signDone h hop true (EndsQuietly.unitNext unit ?_)
  obtain ⟨-, -, hno, -⟩ := h
  have hwrong : (signedCmd s unit half o c true).work.nums.getD 1 0 = 1 := by
    rw [(signedCmd_nums true).2.1, hno, if_pos hhalf, hrsa]
    rfl
  unfold signDone
  dsimp only
  rw [if_pos hwrong]
  obtain ⟨⟨d, hd, hend⟩, hout⟩ := endAfter_quietly (s := s) (c := c) (t := cmdPut (opEnd s unit o) tag (signedCmd s unit half o c true))
    cmdAt_cmdPut_same rfl rfl rfl stInternal 0
  exact ⟨⟨d, (rsaWrong_only.cmdAt rfl tag).trans hd, hend⟩, rsaWrong_only.out_eq.trans hout⟩

end

/-! ### The settled statement -/

/-- Settles O24: inputs by `pkInput`, slots by the entry that goes next, and ends by what `pkDone` goes on with for each opcode. -/
theorem mangleTakesRunsAndEndsOperations : Obligations.MangleTakesRunsAndEndsOperations := by
  refine ⟨⟨fun tag io => ⟨mangleInput_of fun _ => rfl, mangleInput_of fun _ => rfl, mangleInput_of fun _ => rfl, mangleInput_of fun _ => rfl,
    mangleInput_of fun _ => rfl, mangleInput_of fun _ => rfl, reports_pkGetPublic tag io⟩, ?slots, fun unit s => next_mangleSlotFill_off⟩,
    fun unit tag half op s c o h => ⟨?_, next_signDone_tired h, next_signDone_wrong h, next_verifyDone h, next_decapsDone h,
      fun k x => next_pairDone_gives h, fun x => next_pairDone_rejected h, next_pairDone_waits h, ?_, ?_, fun x => next_publicDone h⟩⟩
  case slots =>
    intro unit g s w hm hv hu h1 h3 hw hlow hq
    have hgroup : w.op.group = g := by simpa using List.find?_some hw
    have hx := exec_mangleSlotFill hm hv hu (mangleNext_of_group h1 h3 hw hlow) (by omega) hq
    exact ⟨next_mangleSlotFill_single hx hu, fun b v => next_mangleSlotFill_pair hx hu, fun b => next_mangleSlotFill_waits hx hu⟩
  · rintro x hop rfl htries
    exact next_signDone_ok h hop htries
  · rintro z hop hia rfl hz
    exact next_agreeDone_gives h hop hia hz
  · rintro z hop hia rfl hz
    exact next_agreeDone_zero h hop hia hz

end Sys2Proof.Machine
end

section
set_option Elab.async false

/-! SUPPORT. The slots of the firmware and the commands on them (R444 to R446, R451, R459, R460). -/

namespace Sys2Proof.Machine

open Host Sys2Proof

/-! ### Slots and the boot control record -/

section
variable {s t : State} {b : BootCtl} {k j : Nat}

theorem fwSlot_congr (h : t.boot = s.boot) (k : Nat) : fwSlot t k = fwSlot s k := by unfold fwSlot; rw [h]
theorem fwRunning_congr (h : t.boot = s.boot) : fwRunning t = fwRunning s := by unfold fwRunning; rw [h]
theorem trialOn_congr (h : t.boot = s.boot) : trialOn t = trialOn s := by unfold trialOn; rw [h]

theorem fwRunning_of_ctl (h : s.boot.ctl = some b) : fwRunning s = b.slot := by unfold fwRunning; rw [h]; rfl
theorem trialOn_of_ctl (h : s.boot.ctl = some b) : trialOn s = b.trial := by unfold trialOn; rw [h]; rfl

@[simp] theorem fwSlot_fwPut_same {x : FwSlot} : fwSlot (fwPut s k x) k = x := by
  unfold fwPut fwSlot
  split <;> rfl

/-- Of the two slots one is set, the other stands. -/
theorem fwSlot_fwPut_other {x : FwSlot} (h : j = 0 ↔ k ≠ 0) : fwSlot (fwPut s k x) j = fwSlot s j := by
  unfold fwPut fwSlot
  by_cases hk : k = 0
  · simp [hk, show j ≠ 0 by omega]
  · simp [hk, show j = 0 by omega]

@[simp] theorem fwSlot_fwMark_same {m : SlotMode} : fwSlot (fwMark s k m) k = { fwSlot s k with mode := m } := fwSlot_fwPut_same

theorem fwSlot_fwMark_other {m : SlotMode} (h : j = 0 ↔ k ≠ 0) : fwSlot (fwMark s k m) j = fwSlot s j := fwSlot_fwPut_other h

/-- The mark of a slot's state changes the directory alone. -/
theorem fwMark_boot (s : State) (k : Nat) (m : SlotMode) :
    ∃ x y, (fwMark s k m).boot = { s.boot with slotA := x, slotB := y } := by
  unfold fwMark fwPut
  split
  · exact ⟨_, _, rfl⟩
  · exact ⟨_, _, rfl⟩

@[simp] theorem fwMark_ctl {m : SlotMode} : (fwMark s k m).boot.ctl = s.boot.ctl := by
  obtain ⟨x, y, h⟩ := fwMark_boot s k m
  rw [h]

@[simp] theorem fwMark_secMin {m : SlotMode} : (fwMark s k m).boot.secMin = s.boot.secMin := by
  obtain ⟨x, y, h⟩ := fwMark_boot s k m
  rw [h]

/-- Both slots marked: the slot `k`, and before it the other one. -/
theorem fwSlot_marks {m n : SlotMode} (hk : k < 2) : (fwSlot (fwMark (fwMark s (1 - k) m) k n) k).mode = n ∧
    (fwSlot (fwMark (fwMark s (1 - k) m) k n) (1 - k)).mode = m := by
  refine ⟨by rw [fwSlot_fwMark_same], ?_⟩
  rw [fwSlot_fwMark_other (by omega), fwSlot_fwMark_same]

theorem ctlMap_ctl {f : BootCtl → BootCtl} (h : s.boot.ctl = some b) : (ctlMap s f).boot.ctl = some (f b) := by
  show s.boot.ctl.map f = some (f b)
  rw [h]
  rfl

/-! ### The generation table -/

theorem mem_genMode_of_eq {x y : GenMode} {gs : List GenEntry} {g : GenEntry} (hg : g ∈ gs) (hm : g.mode = x) :
    { g with mode := y } ∈ genMode x y gs := List.mem_map.2 ⟨g, hg, if_pos hm⟩

theorem mem_genMode_of_ne {x y : GenMode} {gs : List GenEntry} {g : GenEntry} (hg : g ∈ gs) (hm : g.mode ≠ x) :
    g ∈ genMode x y gs := List.mem_map.2 ⟨g, hg, if_neg hm⟩

/-! ### The confirmation and the fallback -/

/-- The record that a confirmation leaves: the trial is over, and its generation runs (R459). -/
def ctlConfirmed (b : BootCtl) : BootCtl :=
  { b with gens := genMode .trial .running (genMode .running .retired b.gens), trial := false, confirm := false }

theorem confirm_ctl (h : s.boot.ctl = some b) : (confirm s).boot.ctl = some (ctlConfirmed b) := by
  unfold confirm
  dsimp only
  rw [fwMark_ctl, fwMark_ctl]
  exact ctlMap_ctl h

theorem confirm_secMin : (confirm s).boot.secMin = max s.boot.secMin (fpSec (fwPkg s (fwRunning s))) := by
  unfold confirm
  dsimp only
  rw [fwMark_secMin, fwMark_secMin]
  rfl

theorem confirm_slots (h : fwRunning s < 2) : (fwSlot (confirm s) (fwRunning s)).mode = .running ∧
    (fwSlot (confirm s) (1 - fwRunning s)).mode = .previous := fwSlot_marks h

/-- The record that a fallback from the slot `k` leaves: the predecessor runs, and the trial's generation is given up (R460). -/
def ctlFallback (k : Nat) (b : BootCtl) : BootCtl :=
  { b with gens := genMode .trial .abandoned b.gens, slot := 1 - k, trial := false, count := 0 }

theorem fallback_ctl (h : s.boot.ctl = some b) : (fallback s).boot.ctl = some (ctlFallback b.slot b) := by
  unfold fallback
  dsimp only
  rw [fwMark_ctl, fwMark_ctl, fwRunning_of_ctl h]
  exact ctlMap_ctl h

theorem fallback_secMin : (fallback s).boot.secMin = s.boot.secMin := by
  unfold fallback
  dsimp only
  rw [fwMark_secMin, fwMark_secMin]
  rfl

theorem fallback_slots (h : fwRunning s < 2) : (fwSlot (fallback s) (1 - fwRunning s)).mode = .running ∧
    (fwSlot (fallback s) (fwRunning s)).mode = .staged := by
  have hm := fwSlot_marks (s := ctlMap s (ctlFallback (fwRunning s))) (k := 1 - fwRunning s) (m := .staged) (n := .running) (by omega)
  rw [show 1 - (1 - fwRunning s) = fwRunning s by omega] at hm
  exact hm

end

/-! ### `FW.CONFIRM` and `FW.FALLBACK` -/

section
variable {s : State} {tag : Nat} {c : Cmd} {b : BootCtl}

theorem endOk_boot (u : State) (tag len : Nat) (extra : BitVec 64) : (endOk u tag len extra).boot = u.boot := (endAfter_parts _ _ _ _ _).boot_eq

/-- The confirmation is noted before it is carried out, so that a start repeats it (R459). -/
def confirmNoted (s : State) : State := ctlMap s (fun b => { b with confirm := true })

theorem exec_fwConfirm (tag : Nat) (s : State) : exec (.fwConfirm tag) s = runCmd s tag 0x0C04 (fun _ s =>
    endOk (confirm (confirmNoted s)) tag 0 (BitVec.ofNat 64 (confirm (confirmNoted s)).boot.secMin)) := rfl

theorem next_fwConfirm (h : Started s tag 0x0C04 c) (hb : s.boot.ctl = some b) (hk : b.slot < 2) : Next (.fwConfirm tag) s (fun t =>
    t.boot.secMin = max s.boot.secMin (fpSec (fwPkg s b.slot)) ∧ Ended s t tag c stOk 0 (BitVec.ofNat 64 t.boot.secMin) ∧
    trialOn t = false ∧ fwRunning t = b.slot ∧ (fwSlot t b.slot).mode = .running ∧ (fwSlot t (1 - b.slot)).mode = .previous ∧
    t.boot.confirmCt = nowCt s ∧
    (∀ g, g ∈ b.gens → g.mode = .trial → { g with mode := .running } ∈ (t.boot.ctl.map (·.gens)).getD []) ∧
    (∀ g, g ∈ b.gens → g.mode = .running → { g with mode := .retired } ∈ (t.boot.ctl.map (·.gens)).getD [])) := by
  have hm : (confirmNoted s).boot.ctl = some { b with confirm := true } := ctlMap_ctl hb
  have hrun : fwRunning (confirmNoted s) = b.slot := (fwRunning_of_ctl hm).trans rfl
  have hctl := confirm_ctl hm
  obtain ⟨hslot, hother⟩ := confirm_slots (s := confirmNoted s) (by omega)
  have hsec : (confirm (confirmNoted s)).boot.secMin = max s.boot.secMin (fpSec (fwPkg s b.slot)) := by rw [confirm_secMin, hrun]; rfl
  have hc : cmdAt (confirm (confirmNoted s)) tag = some c := confirm_only.cmdAt rfl tag |>.trans h.2.1
  have hn : nowStamp (confirm (confirmNoted s)) = nowStamp s := confirm_only.now rfl
  have hboot := endOk_boot (confirm (confirmNoted s)) tag 0 (BitVec.ofNat 64 (confirm (confirmNoted s)).boot.secMin)
  rw [hrun] at hslot hother
  refine next_runCmd h (exec_fwConfirm tag s) ⟨by rw [hboot]; exact hsec, ?_, ?_, ?_, ?_, ?_, ?_, ?_, ?_⟩
  · rw [hboot]; exact endOk_ended hc rfl hn _ _
  · rw [trialOn_congr hboot, trialOn_of_ctl hctl]; rfl
  · rw [fwRunning_congr hboot, fwRunning_of_ctl hctl]; rfl
  · rw [fwSlot_congr hboot]; exact hslot
  · rw [fwSlot_congr hboot]; exact hother
  · rw [hboot]; rfl
  · intro g hg hmode
    rw [hboot, hctl]
    exact mem_genMode_of_eq (mem_genMode_of_ne hg (by rw [hmode]; decide)) hmode
  · intro g hg hmode
    rw [hboot, hctl]
    exact mem_genMode_of_ne (mem_genMode_of_eq hg hmode) (by simp)

/-- The fallback, after whose completion the device resets (R460). -/
def fallbackReset (s : State) (tag : Nat) : State := { fallback s with tortin := { (fallback s).tortin with resetTag := some tag } }

theorem exec_fwFallback (tag : Nat) (s : State) :
    exec (.fwFallback tag) s = runCmd s tag 0x0C05 (fun _ s => endOk (fallbackReset s tag) tag) := rfl

theorem next_fwFallback (h : Started s tag 0x0C05 c) (hb : s.boot.ctl = some b) (hk : b.slot < 2) : Next (.fwFallback tag) s (fun t =>
    Ended s t tag c stOk ∧ t.tortin.resetTag = some tag ∧ t.boot.revert = true ∧ trialOn t = false ∧ fwRunning t = 1 - b.slot ∧
    (fwSlot t (1 - b.slot)).mode = .running ∧ (fwSlot t b.slot).mode = .staged ∧ t.boot.secMin = s.boot.secMin ∧
    (∀ g, g ∈ b.gens → g.mode = .trial → { g with mode := .abandoned } ∈ (t.boot.ctl.map (·.gens)).getD [])) := by
  have hrun : fwRunning s = b.slot := fwRunning_of_ctl hb
  have hctl : (fallbackReset s tag).boot.ctl = some (ctlFallback b.slot b) := fallback_ctl hb
  obtain ⟨hother, hslot⟩ := fallback_slots (s := s) (by omega)
  rw [hrun] at hslot hother
  have hc : cmdAt (fallbackReset s tag) tag = some c := fallback_only.cmdAt rfl tag |>.trans h.2.1
  have hn : nowStamp (fallbackReset s tag) = nowStamp s := fallback_only.now rfl
  have hboot : (endOk (fallbackReset s tag) tag).boot = (fallbackReset s tag).boot := endOk_boot _ tag 0 0
  refine next_runCmd h (exec_fwFallback tag s) ⟨endOk_ended hc rfl hn _ _, ?_, ?_, ?_, ?_, ?_, ?_, ?_, ?_⟩
  · exact congrArg (·.tortin.resetTag) (endOk_eq hc 0 0)
  · rw [hboot]; rfl
  · rw [trialOn_congr hboot, trialOn_of_ctl hctl]; rfl
  · rw [fwRunning_congr hboot, fwRunning_of_ctl hctl]; rfl
  · rw [fwSlot_congr hboot]; exact hother
  · rw [fwSlot_congr hboot]; exact hslot
  · rw [hboot]; exact fallback_secMin
  · intro g hg hmode
    rw [hboot, hctl]
    exact mem_genMode_of_eq hg hmode

end

/-! ### `FW.STAGE` reads a package -/

section
variable {s : State} {tag : Nat} {c : Cmd} {io : HostIO} {bs : List Byte}

theorem exec_fwStage (tag : Nat) (io : HostIO) (s : State) : exec (.fwStage tag io) s = runIn s tag 0x0C01 io (fun c b s =>
    if c.work.step ≠ 0 then s else if !fpForm b then endAfter s tag 0x0C02 else setWork s tag { step := 1, bytes := b }) := rfl

/-- The row with its input read, in a state `u` that differs from `s` by the copy of the input. -/
theorem next_fwStage {P : State → Prop} (hst : Started s tag 0x0C01 c) (hr : Reads s c io bs) (hstep : c.work.step = 0)
    (hp : ∀ u x y, cmdAt u tag = some { c with expect := none, copy := x, heads := y } → nowStamp u = nowStamp s → u.boot = s.boot →
      P (if !fpForm bs then endAfter u tag 0x0C02 else setWork u tag { step := 1, bytes := bs })) : Next (.fwStage tag io) s P := by
  refine next_runIn hst hr (exec_fwStage tag io s) ?_
  obtain ⟨x, y, hk⟩ := keepInput_at (bs := bs) (cmdAt_cmdPut_same (s := s) (tag := tag) (c := { c with expect := none }))
  rw [if_neg (by simp [hstep])]
  exact hp _ x y hk (keepInput_only.now rfl) keepInput_only.boot_eq

theorem next_fwStage_formed (hstep : c.work.step = 0) (hf : fpForm bs = true) : NextIn (.fwStage tag io) s tag 0x0C01 c io bs (fun t =>
    (∃ d, cmdAt t tag = some d ∧ d.stage = .started ∧ d.body = c.body ∧ d.work.step = 1 ∧ d.work.bytes = bs) ∧ t.boot = s.boot) := by
  refine fun hst hr => next_fwStage hst hr hstep fun u x y hu _ hboot => ?_
  rw [if_neg (by simp [hf]), setWork_eq hu]
  exact ⟨⟨_, cmdAt_cmdPut_same, hst.2.2.1, rfl, rfl, rfl⟩, hboot⟩

theorem next_fwStage_malformed (hstep : c.work.step = 0) (hf : fpForm bs = false) : NextIn (.fwStage tag io) s tag 0x0C01 c io bs (fun t =>
    Ended s t tag c 0x0C02 ∧ t.boot = s.boot) := by
  refine fun hst hr => next_fwStage hst hr hstep fun u x y hu hn hboot => ?_
  rw [if_pos (by simp [hf])]
  exact ⟨endAfter_ended hu rfl hn _ _ _, (endAfter_parts _ _ _ _ _).boot_eq.trans hboot⟩

end

/-! ### `FW.VERIFY` -/

/-- The status of the checks of a slot: that of chip 0 before that of chip 1, and `FW_IMAGE_INVALID` where no chip serves (R444 to R446). -/
def slotStatus (s : State) (k : Nat) : Nat :=
  if !chipUp s.boot.chip0 && !chipUp s.boot.chip1 then 0x0C02
  else if copyCheck s k 0 ≠ stOk then copyCheck s k 0 else copyCheck s k 1

theorem slotStatus_eq_ok {s : State} {k : Nat} : slotStatus s k = stOk ↔ packageVerifies s k = true := by
  unfold slotStatus packageVerifies
  rw [← Bool.not_or]
  cases chipUp s.boot.chip0 || chipUp s.boot.chip1
  · rw [if_pos (by rfl)]
    simp [stOk]
  · rw [if_neg (by simp)]
    by_cases h0 : copyCheck s k 0 = stOk
    · rw [if_neg (not_not.2 h0)]
      simp [h0]
    · rw [if_pos h0]
      simp [h0]

/-- A slot that is no part of a running or tried pair takes the mark of its check. -/
def verifyMark (s : State) (k : Nat) (m : SlotMode) : State :=
  if !((fwSlot s k).mode == .staged || (fwSlot s k).mode == .verified || (fwSlot s k).mode == .invalid || (fwSlot s k).mode == .empty) then s
  else fwMark s k m

section
variable {s : State} {k : Nat} {m : SlotMode}

theorem verifyMark_mode : (fwSlot (verifyMark s k m) k).mode =
    if (fwSlot s k).mode ∈ [SlotMode.staged, .verified, .invalid, .empty] then m else (fwSlot s k).mode := by
  unfold verifyMark
  cases h : (fwSlot s k).mode <;> simp [h]

theorem verifyMark_other (hk : k < 2) : fwSlot (verifyMark s k m) (1 - k) = fwSlot s (1 - k) := by
  unfold verifyMark
  split
  · rfl
  · exact fwSlot_fwMark_other (by omega)

theorem verifyMark_only : Only 8388608 s (verifyMark s k m) := by
  unfold verifyMark
  split
  · exact .refl
  · exact fwMark_only

end

/-- `FW.VERIFY` once Mangle has run: the mark, then the slot's record or the status. -/
def verifyEnd (s : State) (tag : Nat) (io : HostIO) (k : Nat) : State :=
  let u := verifyMark s k (if slotStatus s k = stOk then .verified else .invalid)
  if slotStatus s k = stOk then endOut u tag io (slotRecord u k) else endAfter u tag (slotStatus s k)

theorem exec_fwVerify (tag : Nat) (io : HostIO) (s : State) : exec (.fwVerify tag io) s =
    runCmd s tag 0x0C02 (fun c s => if mangleHas s tag then mangleSet s tag else verifyEnd s tag io (par c 52 1)) := rfl

theorem slotRecord_congr {s t : State} (h : t.boot = s.boot) (k : Nat) : slotRecord t k = slotRecord s k := by
  unfold slotRecord fwPkg fwCopy
  simp only [fwSlot_congr h, h]

section
variable {s : State} {tag : Nat} {c : Cmd} {io : HostIO} {k : Nat}

theorem next_fwVerify_mangle (hm : mangleHas s tag = true) (h : Started s tag 0x0C02 c) :
    Next (.fwVerify tag io) s (fun t => LetsMangle t tag c) := by
  refine next_runCmd h (exec_fwVerify tag io s) ?_
  rw [if_pos hm]
  refine ⟨⟨c, (mangleSet_only.cmdAt rfl tag).trans h.2.1, h.2.2.1, rfl⟩, fun o half ho hsrc => mangleSet_ready s tag o ho ?_⟩
  rw [hsrc]
  exact beq_self_eq_true tag

theorem next_fwVerify_passes (hp : par c 52 1 = k) (hk : k < 2) (h : Started s tag 0x0C02 c) (hm : mangleHas s tag = false)
    (hv : packageVerifies s k = true) (hd : Delivers s c io) : Next (.fwVerify tag io) s (fun t => ∃ bs, Ended s t tag c stOk bs.length ∧
      bs = slotRecord t k ∧ t.out = (putOutput s c bs).out ∧
      (fwSlot t k).mode = (if (fwSlot s k).mode ∈ [SlotMode.staged, .verified, .invalid, .empty] then .verified else (fwSlot s k).mode) ∧
      fwSlot t (1 - k) = fwSlot s (1 - k)) := by
  refine next_runCmd h (exec_fwVerify tag io s) ?_
  have hst := slotStatus_eq_ok.2 hv
  have hu : Only 8388608 s (verifyMark s k .verified) := verifyMark_only
  have hboot : (endOut (verifyMark s k .verified) tag io (slotRecord (verifyMark s k .verified) k)).boot = (verifyMark s k .verified).boot :=
    endOut_only.boot_eq
  obtain ⟨hend, hout⟩ := endOut_ended (bs := slotRecord (verifyMark s k .verified) k) (status := stOk) (extra := 0) hd
    ⟨hu.time_eq, hu.out_eq, hu.seam_eq, hu.fn0_eq, hu.fn1_eq, hu.slices_eq⟩ ((hu.cmdAt rfl tag).trans h.2.1) rfl rfl rfl hd.2.2.2.2
  rw [if_neg (by simp [hm]), hp, verifyEnd, hst, if_pos rfl, if_pos rfl]
  exact ⟨_, hend, (slotRecord_congr hboot k).symm, hout, by rw [fwSlot_congr hboot]; exact verifyMark_mode,
    by rw [fwSlot_congr hboot]; exact verifyMark_other hk⟩

theorem next_fwVerify_fails (hp : par c 52 1 = k) (hk : k < 2) (h : Started s tag 0x0C02 c) (hm : mangleHas s tag = false)
    (hv : packageVerifies s k = false) : Next (.fwVerify tag io) s (fun t =>
      (∃ d, cmdAt t tag = some d ∧ d.stage = .ended ∧ d.comp.status ≠ stOk) ∧ t.out = s.out ∧
      (fwSlot t k).mode = (if (fwSlot s k).mode ∈ [SlotMode.staged, .verified, .invalid, .empty] then .invalid else (fwSlot s k).mode) ∧
      fwSlot t (1 - k) = fwSlot s (1 - k)) := by
  refine next_runCmd h (exec_fwVerify tag io s) ?_
  have hst : slotStatus s k ≠ stOk := fun he => by simp [slotStatus_eq_ok.1 he] at hv
  have hu : Only 8388608 s (verifyMark s k .invalid) := verifyMark_only
  have hboot : (endAfter (verifyMark s k .invalid) tag (slotStatus s k)).boot = (verifyMark s k .invalid).boot :=
    (endAfter_parts _ _ _ _ _).boot_eq
  obtain ⟨⟨d, hd, hend, -, -, hcomp⟩, hout⟩ := endAfter_quietly (s := s) (t := verifyMark s k .invalid)
    ((hu.cmdAt rfl tag).trans h.2.1) rfl (hu.now rfl) hu.out_eq (slotStatus s k) 0
  rw [if_neg (by simp [hm]), hp, verifyEnd, if_neg hst, if_neg hst]
  exact ⟨⟨d, hd, hend, by rw [hcomp]; exact hst⟩, hout, by rw [fwSlot_congr hboot]; exact verifyMark_mode,
    by rw [fwSlot_congr hboot]; exact verifyMark_other hk⟩

end

end Sys2Proof.Machine
end

section
set_option Elab.async false

/-! SUPPORT. The flash chips: operations that end on them, pages of the Tally, and a failed chip that is probed and copied (R107, R451, R532,
R533; log entry 44). -/

namespace Sys2Proof.Machine

open Host Sys2Proof

/-! ### A chip fails -/

section
variable {s : State} {k : Nat} {ok0 ok1 : Bool}

theorem chipFail_boot (s : State) (k : Nat) : (chipFail s k).boot =
    if k = 0 then { s.boot with chip0 := .faulty, probeAt := s.time.clk } else { s.boot with chip1 := .faulty, probeAt := s.time.clk } := by
  have hboot : (tallyPut s agThm 0x0480 [(0x0F, k)]).boot = s.boot := tallyPut_only.boot_eq
  unfold chipFail
  split <;> rw [← hboot]

/-- A chip that fails an operation is faulty from then on; nothing else of the firmware's state but the time of the next probe changes (R107). -/
theorem chipsNote_boot (s : State) (ok0 ok1 : Bool) : ∃ p, (chipsNote s ok0 ok1).boot = { s.boot with
    chip0 := if chipUp s.boot.chip0 && !ok0 then .faulty else s.boot.chip0
    chip1 := if chipUp s.boot.chip1 && !ok1 then .faulty else s.boot.chip1, probeAt := p } := by
  unfold chipsNote jrnFailed
  by_cases h0 : (chipUp s.boot.chip0 && !ok0) = true
  · by_cases h1 : (chipUp s.boot.chip1 && !ok1) = true
    · exact ⟨s.time.clk, by simp [h0, h1, chipFail_boot, chipFail_only.clk]⟩
    · exact ⟨s.time.clk, by simp [h0, h1, chipFail_boot]⟩
  · by_cases h1 : (chipUp s.boot.chip1 && !ok1) = true
    · exact ⟨s.time.clk, by simp [h0, h1, chipFail_boot]⟩
    · exact ⟨s.boot.probeAt, by simp [h0, h1]⟩

theorem chipsNote_chip0 : (chipsNote s ok0 ok1).boot.chip0 = if chipUp s.boot.chip0 && !ok0 then .faulty else s.boot.chip0 := by
  obtain ⟨p, h⟩ := chipsNote_boot s ok0 ok1
  rw [h]

theorem chipsNote_chip1 : (chipsNote s ok0 ok1).boot.chip1 = if chipUp s.boot.chip1 && !ok1 then .faulty else s.boot.chip1 := by
  obtain ⟨p, h⟩ := chipsNote_boot s ok0 ok1
  rw [h]

theorem fwSlot_chipsNote : fwSlot (chipsNote s ok0 ok1) k = fwSlot s k := by
  obtain ⟨p, h⟩ := chipsNote_boot s ok0 ok1
  unfold fwSlot
  rw [h]

theorem fwRunning_chipsNote : fwRunning (chipsNote s ok0 ok1) = fwRunning s := by
  obtain ⟨p, h⟩ := chipsNote_boot s ok0 ok1
  unfold fwRunning
  rw [h]

theorem tallyAppend_flash0 (s : State) (a : TallyApp) : (tallyAppend s a).tally.flash0 = s.tally.flash0 := by
  unfold tallyAppend
  dsimp only
  split
  · split <;> rfl
  · split <;> rfl

theorem tallyPut_flash0 (s : State) (agent code : Nat) (items : List (Nat × Nat)) : (tallyPut s agent code items).tally.flash0 = s.tally.flash0 :=
  tallyAppend_flash0 _ _

theorem chipFail_flash0 (s : State) (k : Nat) : (chipFail s k).tally.flash0 = s.tally.flash0 := by
  unfold chipFail
  split <;> exact tallyPut_flash0 _ _ _ _

theorem chipsNote_flash0 : (chipsNote s ok0 ok1).tally.flash0 = s.tally.flash0 := by
  unfold chipsNote jrnFailed
  dsimp only
  split <;> split <;> simp only [chipFail_flash0]

end

/-! ### A staged package -/

section
variable {s : State} {tag : Nat} {c : Cmd} {ok0 ok1 : Bool}

theorem exec_stageOperation (hv : s.pwr.vault = false) (hw : Writing s tag 0x0C01 c) : exec (.flashOperationDone .stage ok0 ok1) s =
    .next (stageDone (chipsNote s ok0 ok1) tag c (ok0 && chipUp s.boot.chip0) (ok1 && chipUp s.boot.chip1)) := by
  refine congrArg Outcome.next ?_
  rw [if_neg (by simp [hv])]
  dsimp only
  rw [hw.1]

theorem flashTakes_eq : flashTakes s ok0 ok1 = (ok0 && chipUp s.boot.chip0 || ok1 && chipUp s.boot.chip1) := by
  unfold flashTakes
  rw [Bool.and_comm, Bool.and_comm (chipUp s.boot.chip1)]

theorem fwOther_chipsNote : fwOther (chipsNote s ok0 ok1) = fwOther s := by unfold fwOther; rw [fwRunning_chipsNote]

/-- The slots once the one that does not run is written, in a state with that firmware state. -/
theorem slots_written {t : State} {x : FwSlot} (h : t.boot = (fwPut (chipsNote s ok0 ok1) (fwOther s) x).boot) :
    fwSlot t (fwOther s) = x ∧ (fwRunning s < 2 → fwSlot t (fwRunning s) = fwSlot s (fwRunning s)) := by
  rw [fwSlot_congr h, fwSlot_congr h, fwSlot_fwPut_same]
  exact ⟨rfl, fun hr => (fwSlot_fwPut_other (by unfold fwOther; omega)).trans fwSlot_chipsNote⟩

theorem next_stageOperation (hv : s.pwr.vault = false) (hw : Writing s tag 0x0C01 c) : Next (.flashOperationDone .stage ok0 ok1) s (fun t =>
    (if flashTakes s ok0 ok1 = true then Ended s t tag c stOk 0 (BitVec.ofNat 64 (fwOther s)) ∧ (fwSlot t (fwOther s)).mode = .staged ∧
      (ok0 = true → chipUp s.boot.chip0 = true → (fwSlot t (fwOther s)).pkg0 = c.work.bytes) ∧
      (ok1 = true → chipUp s.boot.chip1 = true → (fwSlot t (fwOther s)).pkg1 = c.work.bytes)
    else Ended s t tag c 0x0C08 ∧ (fwSlot t (fwOther s)).mode = .invalid) ∧
    (fwRunning s < 2 → fwSlot t (fwRunning s) = fwSlot s (fwRunning s))) := by
  refine next_of (exec_stageOperation hv hw) ?_
  have hu : ∀ x, Only 8390736 s (fwPut (chipsNote s ok0 ok1) (fwOther s) x) := fun x => chipsNote_only.trans (fwPut_only.mono rfl)
  have hend : ∀ x status extra,
      Ended s (endAfter (fwPut (chipsNote s ok0 ok1) (fwOther s) x) tag status 0 extra) tag c status 0 extra := fun x status extra =>
    endAfter_ended (((hu x).cmdAt rfl tag).trans hw.2.1.2.1) rfl ((hu x).now rfl) status 0 extra
  unfold stageDone
  dsimp only
  rw [fwOther_chipsNote, ← Bool.not_or, ← flashTakes_eq]
  cases hf : flashTakes s ok0 ok1
  · obtain ⟨hslot, hrun⟩ := slots_written (s := s) (ok0 := ok0) (ok1 := ok1) (endAfter_parts _ tag 0x0C08 0 0).boot_eq
    rw [if_neg Bool.false_ne_true, if_pos (by rfl)]
    exact ⟨⟨hend _ _ _, congrArg (·.mode) hslot⟩, hrun⟩
  · obtain ⟨hslot, hrun⟩ := slots_written (s := s) (ok0 := ok0) (ok1 := ok1) (endOk_boot _ tag 0 (BitVec.ofNat 64 (fwOther s)))
    rw [if_pos rfl, if_neg (by simp)]
    exact ⟨⟨hend _ _ _, congrArg (·.mode) hslot, fun h0 hup => (congrArg (·.pkg0) hslot).trans (if_pos (by simp [h0, hup])),
      fun h1 hup => (congrArg (·.pkg1) hslot).trans (if_pos (by simp [h1, hup]))⟩, hrun⟩

end

/-! ### A page of a Tally flush -/

section
variable {s : State} {f : FlushRun} {page : List TallyRec} {rest : List Nat}

/-- A stored record after a page has reached the flash: it counts as flushed if the page holds it as it stands. -/
def slotFlushed (page : List TallyRec) (x : TallySlot) : TallySlot :=
  if page.any (fun r => r.seq == x.rcd.seq && r.rep == x.rcd.rep) then { x with flushed := true } else x

/-- The Tally after both chips have taken a page. -/
def pageTaken (s : State) (f : FlushRun) (page : List TallyRec) (rest : List Nat) : TallyState := { s.tally with
  flash0 := s.tally.flash0 ++ [page], flash1 := s.tally.flash1 ++ [page], slots := tblMap (slotFlushed page) s.tally.slots
  skip0 := false, skip1 := false
  flush := if rest.isEmpty then none else some { f with todo := rest, written := f.written + page.length }
  flashFail := if rest.isEmpty then false else s.tally.flashFail }

theorem areaAdd_room {cap : Nat} {area : List (List TallyRec)} (h : area.length < cap) (page : List TallyRec) :
    areaAdd cap area page = (area ++ [page], false) := if_pos h

theorem flushPage_both (hf : s.tally.flush = some f) (hp : pageFill s f.todo 4096 [] = (page, rest)) (h0 : s.boot.chip0 = .good)
    (h1 : s.boot.chip1 = .good) (k0 : s.tally.skip0 = false) (k1 : s.tally.skip1 = false)
    (a0 : s.tally.flash0.length < areaPages s.boot.flashMib) (a1 : s.tally.flash1.length < areaPages s.boot.flashMib) :
    flushPage s true true = if rest.isEmpty then sqcSet (regAdd { s with tally := pageTaken s f page rest } aTlyFlushed page.length) aTlyEvt 4
      else regAdd { s with tally := pageTaken s f page rest } aTlyFlushed page.length := by
  unfold flushPage
  rw [hf]
  dsimp only
  rw [hp]
  simp only [h0, h1, k0, k1, areaAdd_room a0, areaAdd_room a1, beq_self_eq_true, Bool.true_or, Bool.not_false, Bool.not_true, Bool.and_self,
    Bool.or_false, Bool.false_eq_true, if_true, if_false]
  rfl

theorem next_tallyPage (hv : s.pwr.vault = false) (hf : s.tally.flush = some f) (hp : pageFill s f.todo 4096 [] = (page, rest))
    (h0 : s.boot.chip0 = .good) (h1 : s.boot.chip1 = .good) (k0 : s.tally.skip0 = false) (k1 : s.tally.skip1 = false)
    (a0 : s.tally.flash0.length < areaPages s.boot.flashMib) (a1 : s.tally.flash1.length < areaPages s.boot.flashMib) :
    Next (.flashOperationDone .tally true true) s (fun t => t.boot = s.boot ∧
      t.tally.flash0 = s.tally.flash0 ++ [page] ∧ t.tally.flash1 = s.tally.flash1 ++ [page] ∧
      t.tally.flush = (if rest = [] then none else some { f with todo := rest, written := f.written + page.length }) ∧
      regGet t aTlyFlushed = satAdd32 (regGet s aTlyFlushed) page.length ∧
      ∀ n x, tblFind n s.tally.slots = some x → tblFind n t.tally.slots =
        some (if page.any (fun r => r.seq == x.rcd.seq && r.rep == x.rcd.rep) then { x with flushed := true } else x)) := by
  have hx : exec (.flashOperationDone .tally true true) s = .next (flushPage s true true) := by
    refine congrArg Outcome.next ?_
    simp [hv, hf, h0, h1, chipUp]
  have htally : (flushPage s true true).tally = pageTaken s f page rest := by
    rw [flushPage_both hf hp h0 h1 k0 k1 a0 a1]
    split <;> rfl
  have hreg : regGet (flushPage s true true) aTlyFlushed = satAdd32 (regGet s aTlyFlushed) page.length := by
    rw [flushPage_both hf hp h0 h1 k0 k1 a0 a1]
    split
    · rw [regGet_sqcSet_other (by decide)]
      exact regGet_regPut_same
    · exact regGet_regPut_same
  refine next_of hx ⟨flushPage_only.boot_eq, ?_⟩
  rw [htally]
  refine ⟨rfl, rfl, ?_, hreg, fun n x hn => ?_⟩
  · simp [pageTaken]
  · show tblFind n (tblMap (slotFlushed page) s.tally.slots) = _
    rw [tblFind_map, hn]
    rfl

/-- A page that both chips fail ends the flush, which is retried; its records stay in the store (R533). -/
theorem next_tallyPage_lost (hv : s.pwr.vault = false) (hf : s.tally.flush = some f) : Next (.flashOperationDone .tally false false) s (fun t =>
    t.tally.flush = none ∧ t.tally.flashFail = true ∧ t.tally.failAt = s.time.clk ∧ t.tally.slots = s.tally.slots ∧
    t.tally.flash0 = s.tally.flash0 ∧ t.tally.flash1 = s.tally.flash1) := by
  have hx : exec (.flashOperationDone .tally false false) s = .next (flushPage s false false) := by
    refine congrArg Outcome.next ?_
    simp [hv, hf]
  refine next_of hx ?_
  unfold flushPage
  rw [hf]
  exact ⟨rfl, rfl, rfl, rfl, rfl, rfl⟩

/-- A page that chip 0 fails leaves its area. -/
theorem flushPage_flash0_failed (s : State) (ok1 : Bool) : (flushPage s false ok1).tally.flash0 = s.tally.flash0 := by
  have hsq : ∀ (u : State) (b : Bool) (n : Nat), (if b then sqcSet u aTlyEvt n else u).tally = u.tally := fun u b n => by cases b <;> rfl
  unfold flushPage
  split
  · rfl
  · dsimp only
    split
    · rfl
    · rw [hsq, hsq]
      rfl

theorem next_tallyPage_chip0 (hv : s.pwr.vault = false) (hf : s.tally.flush = some f) (h0 : s.boot.chip0 = .good) (h1 : s.boot.chip1 = .good) :
    Next (.flashOperationDone .tally false true) s (fun t => t.boot.chip0 = .faulty ∧ t.boot.chip1 = .good ∧ t.tally.flash0 = s.tally.flash0) := by
  have hx : exec (.flashOperationDone .tally false true) s = .next (chipsNote (flushPage s false true) false true) := by
    refine congrArg Outcome.next ?_
    simp [hv, hf, h1, chipUp]
  have hboot : (flushPage s false true).boot = s.boot := flushPage_only.boot_eq
  refine next_of hx ⟨?_, ?_, chipsNote_flash0.trans (flushPage_flash0_failed s true)⟩
  · rw [chipsNote_chip0, hboot, h0]; rfl
  · rw [chipsNote_chip1, hboot, h1]; rfl

end

/-! ### Settings, and a chip that is probed -/

section
variable {s : State} {ok0 ok1 ok : Bool}

theorem next_settingsOperation (hv : s.pwr.vault = false) (h0 : s.boot.chip0 = .good) (h1 : s.boot.chip1 = .good) :
    Next (.flashOperationDone .settings ok0 ok1) s (fun t =>
      t.boot.chip0 = (if ok0 then .good else .faulty) ∧ t.boot.chip1 = (if ok1 then .good else .faulty)) := by
  refine next_of (t := chipsNote s ok0 ok1) (congrArg Outcome.next (if_neg (by simp [hv]))) ⟨?_, ?_⟩
  · rw [chipsNote_chip0, h0]; cases ok0 <;> rfl
  · rw [chipsNote_chip1, h1]; cases ok1 <;> rfl

/-- Chip 0 is faulty and chip 1 good: the probe is due after 60 s. -/
theorem exec_probe_faulty (hv : s.pwr.vault = false) (h0 : s.boot.chip0 = .faulty) (h1 : s.boot.chip1 = .good) :
    exec (.flashChipProbe 0 ok) s = .next (if s.time.clk < s.boot.probeAt + 60 * cycS then s
      else if ok then chipCopy (chipSet s 0 .copying) 0 else chipSet s 0 .faulty) := by
  refine congrArg Outcome.next ?_
  simp [hv, h0, h1, chipMode]

theorem next_probe_early (hv : s.pwr.vault = false) (h0 : s.boot.chip0 = .faulty) (h1 : s.boot.chip1 = .good)
    (ht : s.time.clk < s.boot.probeAt + 60 * cycS) : Next (.flashChipProbe 0 ok) s (fun t => t = s) :=
  next_of (exec_probe_faulty hv h0 h1) (if_pos ht)

theorem next_probe_passed (hv : s.pwr.vault = false) (h0 : s.boot.chip0 = .faulty) (h1 : s.boot.chip1 = .good)
    (ht : s.boot.probeAt + 60 * cycS ≤ s.time.clk) : Next (.flashChipProbe 0 true) s (fun t =>
      t.boot.chip0 = .copying ∧ t.keys.jrn0 = s.keys.jrn1 ∧ t.tally.flash0 = s.tally.flash1 ∧
      t.boot.slotA.pkg0 = s.boot.slotA.pkg1 ∧ t.boot.slotB.pkg0 = s.boot.slotB.pkg1 ∧
      (∀ n p, progGet s n = some p → progGet t n = some { p with img0 := p.img1 })) := by
  refine next_of (exec_probe_faulty hv h0 h1) ?_
  rw [if_neg (by omega), if_pos rfl]
  refine ⟨rfl, rfl, rfl, rfl, rfl, fun n p hp => ?_⟩
  show tblFind n (tblMap (fun p => { p with img0 := p.img1 }) s.needle.progs) = _
  rw [tblFind_map, show tblFind n s.needle.progs = some p from hp]
  rfl

theorem next_probe_failed (hv : s.pwr.vault = false) (h0 : s.boot.chip0 = .faulty) (h1 : s.boot.chip1 = .good)
    (ht : s.boot.probeAt + 60 * cycS ≤ s.time.clk) : Next (.flashChipProbe 0 false) s (fun t =>
      t.boot.chip0 = .faulty ∧ t.boot.probeAt = s.time.clk ∧ t.keys = s.keys) := by
  refine next_of (exec_probe_faulty hv h0 h1) ?_
  rw [if_neg (by omega), if_neg Bool.false_ne_true]
  exact ⟨rfl, rfl, rfl⟩

theorem next_copy_done (hv : s.pwr.vault = false) (h0 : s.boot.chip0 = .copying) : Next (.flashChipProbe 0 true) s (fun t =>
    t.boot.chip0 = .good ∧ t.tally.degraded = false ∧ t.keys = s.keys) := by
  have hx : exec (.flashChipProbe 0 true) s =
      .next { chipSet s 0 .good with tally := { (chipSet s 0 .good).tally with degraded := false } } := by
    refine congrArg Outcome.next ?_
    simp [hv, h0, chipMode]
  exact next_of hx ⟨rfl, rfl, rfl⟩

theorem next_copy_failed (hv : s.pwr.vault = false) (h0 : s.boot.chip0 = .copying) : Next (.flashChipProbe 0 false) s (fun t =>
    t.boot.chip0 = .faulty) := by
  have hx : exec (.flashChipProbe 0 false) s = .next (chipFail s 0) := by
    refine congrArg Outcome.next ?_
    simp [hv, h0, chipMode]
  exact next_of hx (congrArg (·.chip0) (chipFail_boot s 0))

end

end Sys2Proof.Machine
end

section
set_option Elab.async false

/-! SUPPORT. Compaction of the key journal (R102, R107, R110), and the settled statement O45. -/

namespace Sys2Proof.Machine

open Host Sys2Proof

/-! ### Records -/

theorem jrnWhole_congr {s t : State} (h : t.keys.instance_ = s.keys.instance_) (y : JRec) : jrnWhole t y = jrnWhole s y := by
  unfold jrnWhole jrnSumOk
  rw [h]

/-- A record that is programmed and closed is complete: its checksum does not reach into the trailer (Table 4-9). -/
theorem jrnWhole_program (s : State) (owner seq : Nat) (key : List Byte) (k : JKind) :
    jrnWhole s (jrnClose (jrnProgram s owner seq key k)) = true := by
  have hsum : jrnSum s.keys.instance_ (jrnClose (jrnProgram s owner seq key k)) = (jrnClose (jrnProgram s owner seq key k)).sum := rfl
  unfold jrnWhole jrnSumOk
  rw [hsum, beq_self_eq_true, Bool.and_true]
  exact beq_self_eq_true (jrnTrailer seq)

/-! ### What a log gains -/

/-- From `a` to `b` a log has gained complete records, and among them each of `rs`: its owner, key and kind. -/
def LogGains (s : State) (a b : List JRec) (rs : List (Nat × List Byte × JKind)) : Prop :=
  ∃ new, b = a ++ new ∧ (∀ y, y ∈ new → jrnWhole s y = true) ∧
    ∀ r, r ∈ rs → ∃ y, y ∈ new ∧ y.owner = r.1 ∧ y.key = r.2.1 ∧ y.kind = r.2.2

section
variable {s t : State} {a b d : List JRec} {rs qs : List (Nat × List Byte × JKind)}

theorem LogGains.refl : LogGains s a a [] := ⟨[], by simp⟩

theorem LogGains.trans (h : LogGains s a b rs) (k : LogGains s b d qs) : LogGains s a d (rs ++ qs) := by
  obtain ⟨new, rfl, hw, hr⟩ := h
  obtain ⟨more, rfl, kw, kr⟩ := k
  refine ⟨new ++ more, List.append_assoc .., fun y hy => ?_, fun r hm => ?_⟩
  · exact (List.mem_append.1 hy).elim (hw y) (kw y)
  · rcases List.mem_append.1 hm with hm | hm
    · obtain ⟨y, hy, hrest⟩ := hr r hm
      exact ⟨y, List.mem_append_left _ hy, hrest⟩
    · obtain ⟨y, hy, hrest⟩ := kr r hm
      exact ⟨y, List.mem_append_right _ hy, hrest⟩

theorem LogGains.weaken (h : LogGains s a b rs) (hq : ∀ r, r ∈ qs → r ∈ rs) : LogGains s a b qs := by
  obtain ⟨new, hb, hw, hr⟩ := h
  exact ⟨new, hb, hw, fun r hm => hr r (hq r hm)⟩

theorem LogGains.congr (h : LogGains s a b rs) (hi : t.keys.instance_ = s.keys.instance_) : LogGains t a b rs := by
  obtain ⟨new, hb, hw, hr⟩ := h
  exact ⟨new, hb, fun y hy => (jrnWhole_congr hi y).trans (hw y hy), hr⟩

end

/-! ### Records that both chips take -/

section
variable {s : State} {owner : Nat} {key : List Byte}

/-- Behind a padding record, if the erase block needs one, a record enters the log. -/
theorem jrnPlace_gains (p : JrnPos) (k : JKind) :
    LogGains s p.log0 (jrnPlace s true true p owner key k).log0 [(owner, key, k)] := by
  unfold jrnPlace
  dsimp only
  rw [if_pos rfl, if_pos rfl]
  by_cases hg : 48 ≤ jrnGap p.log0 (jrnKindSize k)
  · rw [if_pos hg]
    refine ⟨[_, _], List.append_assoc .., fun y hy => ?_, fun r hr => ?_⟩
    · rcases List.mem_pair.1 hy with rfl | rfl <;> exact jrnWhole_program _ _ _ _ _
    · rw [List.mem_singleton.1 hr]
      exact ⟨_, List.mem_pair.2 (.inr rfl), rfl, rfl, rfl⟩
  · rw [if_neg hg]
    refine ⟨[_], rfl, fun y hy => ?_, fun r hr => ?_⟩
    · rw [List.mem_singleton.1 hy]
      exact jrnWhole_program _ _ _ _ _
    · rw [List.mem_singleton.1 hr]
      exact ⟨_, List.mem_singleton_self _, rfl, rfl, rfl⟩

/-- Two logs that agree gain the same. -/
theorem jrnPlace_mirror {p : JrnPos} (h : p.log1 = p.log0) (k : JKind) :
    (jrnPlace s true true p owner key k).log1 = (jrnPlace s true true p owner key k).log0 := by
  unfold jrnPlace
  dsimp only
  rw [h]

/-- The records of a change enter the logs, one after the other. -/
theorem foldl_jrnPlace (rs : List (Nat × List Byte × JKind)) (p : JrnPos) (h : p.log1 = p.log0) :
    let q := rs.foldl (fun p r => jrnPlace s true true p r.1 r.2.1 r.2.2) p
    LogGains s p.log0 q.log0 rs ∧ q.log1 = q.log0 := by
  induction rs generalizing p with
  | nil => exact ⟨.refl, h⟩
  | cons r rs ih =>
    obtain ⟨hgain, hmirror⟩ := ih (jrnPlace s true true p r.1 r.2.1 r.2.2) (jrnPlace_mirror h _)
    exact ⟨(jrnPlace_gains p r.2.2).trans hgain, hmirror⟩

/-- From `s` to `t` both logs, which agree, have gained the records `rs`; the keys that stand and the chips are as before. -/
structure BothGain (s t : State) (rs : List (Nat × List Byte × JKind)) : Prop where
  boot : t.boot = s.boot
  objs : t.keys.objs = s.keys.objs
  inst : t.keys.instance_ = s.keys.instance_
  mirror : t.keys.jrn1 = t.keys.jrn0
  gains : LogGains s s.keys.jrn0 t.keys.jrn0 rs

theorem BothGain.trans {s t u : State} {rs qs : List (Nat × List Byte × JKind)} (h : BothGain s t rs) (k : BothGain t u qs) :
    BothGain s u (rs ++ qs) :=
  ⟨k.boot.trans h.boot, k.objs.trans h.objs, k.inst.trans h.inst, k.mirror, h.gains.trans (k.gains.congr h.inst.symm)⟩

/-- A change that both chips take (R107). -/
theorem jrnWrite_both (h0 : s.boot.chip0 = .good) (h1 : s.boot.chip1 = .good) (hm : s.keys.jrn1 = s.keys.jrn0)
    (rs : List (Nat × List Byte × JKind)) : ∃ t, jrnWrite s true true owner key rs = some t ∧ BothGain s t rs := by
  obtain ⟨hgain, hmirror⟩ := foldl_jrnPlace (s := s) rs { seq := s.keys.nextSeq, log0 := s.keys.jrn0, log1 := s.keys.jrn1 } hm
  have hu0 : chipUp s.boot.chip0 = true := by rw [h0]; rfl
  have hu1 : chipUp s.boot.chip1 = true := by rw [h1]; rfl
  unfold jrnWrite
  simp only [hu0, hu1, Bool.and_true, Bool.not_true, Bool.and_false, Bool.false_eq_true, if_false]
  exact ⟨_, rfl, rfl, rfl, rfl, jrnPlace_mirror hmirror _, (hgain.trans (jrnPlace_gains _ _)).weaken fun r hr => List.mem_append_left _ hr⟩

/-- Any number of records in changes of 8. -/
theorem jrnMany_both (f : Nat) (rs : List (Nat × List Byte × JKind)) (hf : rs.length ≤ f) (h0 : s.boot.chip0 = .good)
    (h1 : s.boot.chip1 = .good) (hm : s.keys.jrn1 = s.keys.jrn0) :
    ∃ t, jrnMany s true true owner key rs f = some t ∧ BothGain s t rs := by
  induction f generalizing s rs with
  | zero =>
    obtain rfl := List.eq_nil_of_length_eq_zero (Nat.le_zero.1 hf)
    exact ⟨s, rfl, rfl, rfl, rfl, hm, .refl⟩
  | succ f ih =>
    unfold jrnMany
    cases rs with
    | nil => exact ⟨s, rfl, rfl, rfl, rfl, hm, .refl⟩
    | cons r rs =>
      obtain ⟨u, hu, hgain⟩ := jrnWrite_both (owner := owner) (key := key) h0 h1 hm ((r :: rs).take 8)
      obtain ⟨t, ht, hmore⟩ := ih (s := u) ((r :: rs).drop 8) (by simp at hf ⊢; omega) (by rw [hgain.boot, h0]) (by rw [hgain.boot, h1])
        hgain.mirror
      refine ⟨t, ?_, ?_⟩
      · rw [hu]
        exact ht
      · have hall := hgain.trans hmore
        rwa [List.take_append_drop] at hall

end

/-! ### Compaction -/

section
variable {s : State} {b r : List JRec}

/-- A live record that leaves is among those to be copied. -/
theorem mem_jrnCopies {gone : List JRec} {x : JRec} (hg : x ∈ gone) (he : x ∈ jrnEffective s) (hl : jrnLive s x = true) :
    x ∈ jrnCopies s gone := by
  have hseq : (jrnLeaving s gone).contains x.seq = true :=
    List.contains_iff_mem.2 (List.mem_append_left _ (List.mem_map.2 ⟨x, hg, rfl⟩))
  unfold jrnCopies
  refine List.mem_flatMap.2 ⟨x, List.mem_filter.2 ⟨he, by rw [hseq, hl]; rfl⟩, ?_⟩
  split
  case h_1 => exact List.mem_cons_self
  case h_2 => rw [if_pos hseq]; exact List.mem_singleton_self x
  case h_3 => exact List.mem_singleton_self x

/-- Where both chips take the copies, the logs lose their oldest block and gain the live records under the keys of the running generation. -/
theorem jrnMove_both {gone rest : List JRec} (h0 : s.boot.chip0 = .good) (h1 : s.boot.chip1 = .good) (hm : s.keys.jrn1 = s.keys.jrn0) :
    let t := jrnMove s true true gone rest rest
    t.keys.jrn1 = t.keys.jrn0 ∧ t.keys.objs = s.keys.objs ∧
      LogGains s rest t.keys.jrn0 ((jrnCopies s gone).map (fun r => (r.owner, jrnRekey s r, r.kind))) := by
  obtain ⟨u, hu, hgain⟩ := jrnMany_both (s := s) (owner := 0xFFFF) (key := seamStoreKey s) ((jrnCopies s gone).length + 1)
    ((jrnCopies s gone).map (fun r => (r.owner, jrnRekey s r, r.kind))) (by simp) h0 h1 hm
  obtain ⟨new, hnew, hwhole, hrs⟩ := hgain.gains
  have hu0 : chipUp u.boot.chip0 = true := by rw [hgain.boot, h0]; rfl
  have hu1 : chipUp u.boot.chip1 = true := by rw [hgain.boot, h1]; rfl
  have hdrop : u.keys.jrn0.drop s.keys.jrn0.length = new := by rw [hnew, List.drop_left]
  unfold jrnMove
  dsimp only
  rw [hu]
  dsimp only
  rw [if_pos hu0, if_pos hu1, hgain.mirror, hm]
  exact ⟨rfl, hgain.objs, new, by rw [hdrop], hwhole, hrs⟩

theorem next_compaction (ha : 4 * jrnFree s < jrnArea s) (ht : thmUp s = true) (hm : s.keys.jrn1 = s.keys.jrn0) (h0 : s.boot.chip0 = .good)
    (h1 : s.boot.chip1 = .good) (hb : oldestBlock s.keys.jrn0 = (b, r)) : Next (.journalCompaction true true) s (fun t =>
      t.keys.jrn1 = t.keys.jrn0 ∧ t.keys.objs = s.keys.objs ∧ ∃ new, t.keys.jrn0 = r ++ new ∧ (∀ y, y ∈ new → jrnWhole s y = true) ∧
        ∀ x, x ∈ b → x ∈ jrnEffective s → jrnLive s x = true →
          ∃ y, y ∈ new ∧ y.owner = x.owner ∧ y.kind = x.kind ∧ y.key = jrnRekey s x) := by
  have hx : exec (.journalCompaction true true) s = .next (jrnMove s true true (b ++ b) r r) := by
    refine congrArg Outcome.next ?_
    rw [if_pos ⟨ha, ht⟩, hm, hb]
  obtain ⟨hmirror, hobjs, new, hnew, hwhole, hcopies⟩ := jrnMove_both (gone := b ++ b) (rest := r) h0 h1 hm
  refine next_of hx ⟨hmirror, hobjs, new, hnew, hwhole, fun x hxb he hl => ?_⟩
  obtain ⟨y, hy, howner, hkey, hkind⟩ := hcopies _ (List.mem_map_of_mem (mem_jrnCopies (List.mem_append_left b hxb) he hl))
  exact ⟨y, hy, howner, hkind, hkey⟩

theorem next_compaction_off (h : jrnArea s ≤ 4 * jrnFree s ∨ thmUp s = false) (ok0 ok1 : Bool) :
    Next (.journalCompaction ok0 ok1) s (fun t => t = s) := by
  refine next_of (congrArg Outcome.next (if_neg ?_)) rfl
  rintro ⟨ha, ht⟩
  rcases h with h | h
  · omega
  · simp [ht] at h

end

/-! ### The settled statement -/

/-- Settles O45: the commands by the slots and the record that each leaves, the flash operations by what each chip takes, and compaction by the
records that both logs gain. -/
theorem firmwareCommandsAndFlashMirror : Obligations.FirmwareCommandsAndFlashMirror := by
  refine ⟨fun tag io s c => ⟨fun bs hstep => ⟨next_fwStage_formed hstep, next_fwStage_malformed hstep⟩, fun ok0 ok1 hw hv =>
    next_stageOperation hv hw, next_fwVerify_mangle, fun k hp hk h hm => ⟨next_fwVerify_passes hp hk h hm, next_fwVerify_fails hp hk h hm⟩,
    fun b => next_fwConfirm, fun b => next_fwFallback⟩, fun s hv => ⟨?tally, fun ok0 ok1 => next_settingsOperation hv, ?faulty, ?copying,
    fun b r ha ht hm h0 h1 hb => next_compaction ha ht hm h0 h1 hb, fun h ok0 ok1 => next_compaction_off h ok0 ok1⟩⟩
  case tally =>
    intro f page rest hf hp h0 h1 k0 k1
    exact ⟨next_tallyPage hv hf hp h0 h1 k0 k1, next_tallyPage_lost hv hf, next_tallyPage_chip0 hv hf h0 h1⟩
  case faulty =>
    exact fun h0 h1 => ⟨fun ht => ⟨next_probe_passed hv h0 h1 ht, next_probe_failed hv h0 h1 ht⟩, fun ok => next_probe_early hv h0 h1⟩
  case copying => exact fun h0 => ⟨next_copy_done hv h0, next_copy_failed hv h0⟩

end Sys2Proof.Machine
end

section
set_option Elab.async false

/-! SUPPORT. What a started command's reading of its input leaves of the state, and entries of the pending table that are set (R62, R133,
R134, R142). -/

namespace Sys2Proof.Machine

open Host Sys2Proof

/-! ### A started command reads its input -/

/-- Setting an entry that fails a test to a value that fails it leaves the entries that pass. -/
theorem filter_tblPut {α : Type} {p : Nat × α → Bool} {k : Nat} {v w : α} {t : Tbl α} (hf : tblFind k t = some v) (hv : p (k, v) = false)
    (hw : p (k, w) = false) : (tblPut k w t).filter p = t.filter p := by
  induction t with
  | nil => cases hf
  | cons e t ih =>
    obtain ⟨j, x⟩ := e
    unfold tblPut
    split
    · exact List.filter_cons_of_neg (by simp [hw])
    · split
      next hk =>
        subst hk
        have hx : x = v := by simpa [tblFind] using hf
        rw [List.filter_cons_of_neg (by simp [hw]), List.filter_cons_of_neg (by simp [hx, hv])]
      next hk => rw [List.filter_cons, List.filter_cons, ih (by simpa [tblFind, Ne.symm hk] using hf)]

/-- Two lists with the same entries that pass a test both have one or both have none. -/
theorem any_of_filter_eq {α : Type} {p : α → Bool} {l m : List α} (h : l.filter p = m.filter p) : l.any p = m.any p := by
  rw [Bool.eq_iff_iff, List.any_eq_true, List.any_eq_true]
  simp only [← List.mem_filter, h]

/-- From `s` to `u` the started command `c` has its input: it may keep a copy, which a primary journals (R62, R140, R311). -/
structure InputTaken (s u : State) (tag : Nat) (c : Cmd) : Prop where
  only : Only 17409 s u
  place : ∃ x y, cmdAt u tag = some { c with expect := none, copy := x, heads := y }
  tracker : ∀ p : Nat × Cmd → Bool, (∀ e x y, p (tag, { c with expect := e, copy := x, heads := y }) = false) →
    u.tortin.tracker.filter p = s.tortin.tracker.filter p
  alone : isPrimary s = false → u.out = s.out ∧ u.seam = s.seam

theorem jotInput_alone {s : State} {slice : Nat} {token : BitVec 64} {off : Nat} {bs : List Byte} (h : isPrimary s = false) :
    jotInput s slice token off bs = s :=
  List.foldl_fixed' (fun _ => jot_alone h) _

theorem keepInput_cases (s : State) (tag : Nat) (c : Cmd) (bs : List Byte) : keepInput s tag c bs = s ∨
    ∃ y, keepInput s tag c bs = jotInput (cmdPut s tag { c with copy := some bs, heads := y }) (jslice c) (cToken c) 0 bs := by
  unfold keepInput
  split
  · split
    · exact .inl rfl
    · exact .inr ⟨[], rfl⟩
  · split
    · exact .inl rfl
    · exact .inr ⟨c.heads, rfl⟩

theorem keepInput_alone {s : State} {tag : Nat} {c : Cmd} {bs : List Byte} (h : isPrimary s = false) :
    (keepInput s tag c bs).out = s.out ∧ (keepInput s tag c bs).seam = s.seam := by
  rcases keepInput_cases s tag c bs with hk | ⟨y, hk⟩
  · rw [hk]; exact ⟨rfl, rfl⟩
  · rw [hk.trans (jotInput_alone h)]; exact ⟨rfl, rfl⟩

theorem inputTaken_keepInput {s : State} {tag : Nat} {c : Cmd} (h : cmdAt s tag = some c) (bs : List Byte) :
    InputTaken s (keepInput (cmdPut s tag { c with expect := none }) tag { c with expect := none } bs) tag c where
  only := (cmdPut_only.mono rfl).trans keepInput_only
  place := keepInput_at cmdAt_cmdPut_same
  tracker p hp := by
    have hfirst := filter_tblPut (p := p) (w := { c with expect := none }) h (hp c.expect c.copy c.heads) (hp none c.copy c.heads)
    rcases keepInput_cases (cmdPut s tag { c with expect := none }) tag { c with expect := none } bs with hk | ⟨y, hk⟩
    · rw [hk]; exact hfirst
    · rw [hk, jotInput_only.tortin_eq]
      exact (filter_tblPut (p := p) cmdAt_cmdPut_same (hp none c.copy c.heads) (hp none (some bs) y)).trans hfirst
  alone ha := keepInput_alone ha

/-- The row of a started command that reads its input. -/
theorem next_inputTaken {i : Instr} {s : State} {tag op : Nat} {io : HostIO} {c : Cmd} {bs : List Byte} {f : Cmd → List Byte → State → State}
    {P : State → Prop} (hst : Started s tag op c) (hr : Reads s c io bs) (hx : exec i s = runIn s tag op io f)
    (hp : ∀ u, InputTaken s u tag c → P (f { c with expect := none } bs u)) : Next i s P := by
  obtain ⟨-, hc, -⟩ := id hst
  exact next_runIn hst hr hx (hp _ (inputTaken_keepInput hc bs))

namespace InputTaken

variable {s u : State} {tag : Nat} {c : Cmd} (h : InputTaken s u tag c)
include h

/-- Only what the host sees, the group and the command processor may differ. -/
theorem eq_with : u = { s with out := u.out, seam := u.seam, tortin := u.tortin } := by
  have ho := h.only
  exact (State.mk.injEq ..).mpr ⟨ho.pending, rfl, ho.draws_eq, ho.time_eq, ho.pwr_eq, ho.regs_eq, ho.dev_eq, ho.agentSeq_eq, ho.fn0_eq, ho.fn1_eq,
    ho.slices_eq, rfl, ho.tally_eq, ho.scorch_eq, ho.keys_eq, rfl, ho.hamper_eq, ho.needle_eq, ho.links_eq, ho.press_eq, ho.mangle_eq, ho.rng_eq,
    ho.dma_eq, ho.thm_eq, ho.boot_eq, ho.lc_eq⟩

/-- What reads nothing else of the state than the other parts is as before. -/
theorem congr {β : Type} (f : State → β) (hf : ∀ o m t, f { s with out := o, seam := m, tortin := t } = f s) : f u = f s :=
  (congrArg f h.eq_with).trans (hf _ _ _)

theorem now : nowStamp u = nowStamp s := h.only.now rfl

theorem startLive_eq (hst : c.stage = .started) (o : Nat) : startLive u o = startLive s o :=
  any_of_filter_eq (h.tracker _ fun _ _ _ => by simp [hst])

/-- The arbiter serves an internal consumer as before. -/
theorem bobbinFor_eq (hst : c.stage = .started) (g : Nat) : bobbinFor u g = bobbinFor s g := by
  have hserves : bobbinServes u = bobbinServes s := h.congr bobbinServes fun _ _ _ => rfl
  have hblind : blindServes u = blindServes s := h.congr blindServes fun _ _ _ => rfl
  have hstands : startStands u = startStands s := by
    funext r
    unfold startStands
    simp only [h.startLive_eq hst, hserves, hblind]
  unfold bobbinFor rngBehind
  rw [hserves, hstands, h.only.rng_eq]

/-- A command that is no submission or withdrawal leaves the place for a new entry as it was. -/
theorem pendSpot_eq (hop : cOp c = 0x0307) : pendSpot u = pendSpot s := by
  have hother : ∀ e x y, cOp { c with expect := e, copy := x, heads := y } = 0x0307 := fun _ _ _ => hop
  unfold pendSpot
  rw [h.tracker _ fun e x y => by simp [hother], h.only.keys_eq]

end InputTaken

/-- While Mangle holds an operation of the command, its row lets that go on (R180). -/
theorem mangleFirst_of {i : Instr} {s : State} {tag op : Nat} {c : Cmd} {io : HostIO} {f : Cmd → List Byte → State → State}
    (hx : exec i s = runIn s tag op io f) (hf : ∀ d bs u, mangleHas u tag = true → f d bs u = mangleSet u tag) : MangleFirst i s tag op c io := by
  refine fun hm bs hst hr => next_inputTaken hst hr hx fun u hu => ?_
  obtain ⟨-, -, hstarted, -⟩ := hst
  obtain ⟨x, y, hat⟩ := hu.place
  rw [hf _ _ _ ((mangleHas_congr hu.only.mangle_eq tag).trans hm)]
  exact ⟨⟨_, (mangleSet_only.cmdAt rfl tag).trans hat, hstarted, rfl⟩,
    fun o k ho hsrc => mangleSet_ready u tag o ho (by rw [hsrc]; exact beq_self_eq_true tag)⟩

/-! ### The host, met as before -/

theorem HostSame.trans {a b c : State} (h : HostSame a b) (k : HostSame b c) : HostSame a c where
  time := k.time.trans h.time
  out := k.out.trans h.out
  seam := k.seam.trans h.seam
  fn0 := k.fn0.trans h.fn0
  fn1 := k.fn1.trans h.fn1
  slices := k.slices.trans h.slices

theorem InputTaken.hostSame {s u : State} {tag : Nat} {c : Cmd} (h : InputTaken s u tag c) (ha : isPrimary s = false) : HostSame s u where
  time := h.only.time_eq
  out := (h.alone ha).1
  seam := (h.alone ha).2
  fn0 := h.only.fn0_eq
  fn1 := h.only.fn1_eq
  slices := h.only.slices_eq

theorem hostSame_draw (s : State) (n : Nat) : HostSame s (draw s n).2 where
  time := draw_only.time_eq
  out := draw_only.out_eq
  seam := draw_only.seam_eq
  fn0 := draw_only.fn0_eq
  fn1 := draw_only.fn1_eq
  slices := draw_only.slices_eq

theorem hostSame_pendPut {s : State} (ha : isPrimary s = false) (n : Nat) (x : Option PendEntry) : HostSame s (pendPut s n x) := by
  unfold pendPut
  dsimp only
  rw [jot_alone (by exact ha)]
  exact ⟨rfl, rfl, rfl, rfl, rfl, rfl⟩

theorem Delivers.alone {s : State} {c : Cmd} {io : HostIO} (h : Delivers s c io) : isPrimary s = false := by
  obtain ⟨-, hrole, -⟩ := h
  exact beq_false_of_ne hrole

/-- An output and the end of its command leave keys, owners and approvals. -/
theorem endOut_keys (s : State) (tag : Nat) (io : HostIO) (bs : List Byte) (status : Nat) (extra : BitVec 64) :
    (endOut s tag io bs status extra).keys = s.keys := by
  unfold endOut
  split
  · rfl
  · split
    · exact (endAfter_parts _ _ _ _ _).keys_eq
    · split
      · exact (endAfter_parts _ _ _ _ _).keys_eq.trans putOutput_only.keys_eq
      · exact (endAfter_parts _ _ _ _ _).keys_eq

/-! ### Entries of the pending table -/

theorem pendPut_some_pend (s : State) (n : Nat) (e : PendEntry) : (pendPut s n (some e)).keys.pend = tblPut n e s.keys.pend :=
  congrArg KeyState.pend jot_only.keys_eq

theorem pendPut_none_pend (s : State) (n : Nat) : (pendPut s n none).keys.pend = tblDel n s.keys.pend :=
  congrArg KeyState.pend jot_only.keys_eq

/-- An entry set or removed reads as set, and the others stand. -/
theorem pend_set {s t u : State} {n : Nat} {x : Option PendEntry} (ht : t.keys = s.keys) (hu : u.keys.pend = (pendPut t n x).keys.pend) :
    tblFind n u.keys.pend = x ∧ OtherPending s u n := by
  unfold OtherPending
  cases x with
  | none =>
    rw [hu, pendPut_none_pend, ht]
    exact ⟨tblFind_del_same _ _, fun m hm => tblFind_del_other _ hm⟩
  | some e =>
    rw [hu, pendPut_some_pend, ht]
    exact ⟨tblFind_put_same _ _ _, fun m hm => tblFind_put_other _ _ hm⟩

theorem ownerPut_pend (s : State) (n : Nat) (x : Option OwnerRec) : (ownerPut s n x).keys.pend = s.keys.pend := by
  unfold ownerPut
  rw [jot_only.keys_eq]

theorem ownerGet_congr {s t : State} (hk : t.keys = s.keys) (hb : t.boot = s.boot) (n : Nat) : ownerGet t n = ownerGet s n := by
  unfold ownerGet settingsShut owner0Digest
  rw [hk, hb]

theorem pendOfficer_congr {s t : State} (hk : t.keys = s.keys) (hb : t.boot = s.boot) (e : PendEntry) (i : Nat) :
    pendOfficer t e i = pendOfficer s e i := by
  unfold pendOfficer
  simp only [ownerGet_congr hk hb]

theorem pendQuorum_congr {s t : State} (hk : t.keys = s.keys) (hb : t.boot = s.boot) (e : PendEntry) : pendQuorum t e = pendQuorum s e := by
  unfold pendQuorum quorumOf
  simp only [ownerGet_congr hk hb]

theorem pendCount_congr {s t : State} (hk : t.keys = s.keys) (hb : t.boot = s.boot) (e : PendEntry) : pendCount t e = pendCount s e := by
  unfold pendCount
  rw [pendQuorum_congr hk hb]

theorem pendEnough_congr {s t : State} (hk : t.keys = s.keys) (hb : t.boot = s.boot) (e : PendEntry) : pendEnough t e = pendEnough s e := by
  unfold pendEnough
  rw [pendQuorum_congr hk hb, pendCount_congr hk hb]

end Sys2Proof.Machine
end

section
set_option Elab.async false

/-! SUPPORT. Approvals that are requested, counted, withdrawn and expired, and the settled statement O15 (R133 to R139, R141, R144). -/

namespace Sys2Proof.Machine

open Host Sys2Proof

/-! ### `APPROVAL.REQUEST` -/

/-- The class that the target of a request with the input `d` needs (R132). -/
def requestClass (s : State) (c : Cmd) (d : List Byte) : Nat :=
  if par c 52 1 = 1 then qCustodian else (targetClass s c (bytesAt d 0 64)).getD 0

/-- The entry that a request finds already there (R134). -/
def requestFinds (s : State) (c : Cmd) (d : List Byte) : Option (Nat × PendEntry) :=
  pendSame s (cOwner s c) (par c 52 1) (requestClass s c d) (bytesAt d 0 64)

/-- The request initialises owner 0 (R144). -/
def requestInits (s : State) (c : Cmd) (d : List Byte) : Bool := isInit s c (bytesAt d 0 64) (d.drop 64)

/-- Every public key of the description that a request carries is accepted (R128). -/
def requestCredsValid (d : List Byte) : Bool := (descCreds (d.drop 64)).all (fun k => credValid (k.kind, k.pub))

/-- The validity of a request's entry in seconds (R136, R144). -/
def requestSecs (s : State) (c : Cmd) (d : List Byte) : Nat :=
  if par c 56 4 ≠ 0 then par c 56 4
  else if requestInits s c d then descValidity (d.drop 64) else ((ownerGet s (cOwner s c)).map (·.validity)).getD 900

/-- The entry that a request makes with the challenge `ch` (R133, R144). -/
def requestEntry (s : State) (c : Cmd) (d ch : List Byte) : PendEntry :=
  let b := bytesAt d 0 64
  let expiry := c.accepted.toNat + 2 ^ 32 * requestSecs s c d
  let ind := bytesAt (Config.sha384 (d.drop 64)) 0 48
  { owner := cOwner s c, cls := requestClass s c d, kind := par c 52 1, body := b, digest := bodyDigest b, inDigest := ind
    msg := approvalMsg s (requestClass s c d) (cOwner s c) (bodyOp b) (bytesAt b 8 8) c.accepted expiry ch (bodyDigest b) ind
    stamp := c.accepted, expiry := expiry, epoch := epochId s, domain := approvalDomain s
    copy := if requestInits s c d then some (d.drop 64) else none }

/-- The request answers with the message of the entry `e` at place `n`. -/
def requestReply (s : State) (tag : Nat) (io : HostIO) (cls n : Nat) (e : PendEntry) : State :=
  endOut s tag io e.msg stOk (BitVec.ofNat 64 (n + cls * 2 ^ 16 + (pendQuorum s e).1 * 2 ^ 24))

/-- A request makes its entry at place `n` and answers. -/
def requestMakes (s : State) (tag : Nat) (io : HostIO) (c : Cmd) (d : List Byte) (n : Nat) : State :=
  let e := requestEntry s c d (draw s 16).1
  requestReply (pendPut (draw s 16).2 n (some e)) tag io (requestClass s c d) n e

/-- What a request with the input `d` does once Mangle holds none of its operations. -/
def requestGoes (s : State) (tag : Nat) (io : HostIO) (c : Cmd) (d : List Byte) : State :=
  match requestFinds s c d with
  | some (n, e) => requestReply s tag io (requestClass s c d) n e
  | none =>
    if requestInits s c d && !requestCredsValid d then endAfter s tag stBadPoint
    else match pendSpot s with
      | none => s
      | some n => if !bobbinFor s 5 || !pressFree s then s else requestMakes s tag io c d n

theorem exec_approvalRequest (tag : Nat) (io : HostIO) (s : State) : exec (.approvalRequest tag io) s = runIn s tag 0x0307 io (fun c d s =>
    if mangleHas s tag then mangleSet s tag else requestGoes s tag io c d) := rfl

section
variable {s : State} {tag : Nat} {io : HostIO} {c : Cmd} {d : List Byte}

theorem requestGoes_found {n : Nat} {e : PendEntry} (h : requestFinds s c d = some (n, e)) :
    requestGoes s tag io c d = requestReply s tag io (requestClass s c d) n e := by
  unfold requestGoes; rw [h]

theorem requestGoes_rejected (h : requestFinds s c d = none) (hi : requestInits s c d = true) (hv : requestCredsValid d = false) :
    requestGoes s tag io c d = endAfter s tag stBadPoint := by
  unfold requestGoes; rw [h]; exact if_pos (by simp [hi, hv])

theorem requestGoes_made {n : Nat} (h : requestFinds s c d = none) (hv : requestInits s c d = true → requestCredsValid d = true)
    (hb : bobbinFor s 5 = true) (hp : pressFree s = true) (hn : pendSpot s = some n) :
    requestGoes s tag io c d = requestMakes s tag io c d n := by
  unfold requestGoes
  rw [h]
  dsimp only
  rw [if_neg (by simpa using hv), hn]
  exact if_neg (by simp [hb, hp])

theorem requestGoes_waits (h : requestFinds s c d = none) (hi : requestInits s c d = false) (hb : bobbinFor s 5 = false ∨ pressFree s = false) :
    requestGoes s tag io c d = s := by
  unfold requestGoes
  rw [h]
  dsimp only
  rw [if_neg (by simp [hi])]
  split
  · rfl
  · exact if_pos (by simpa using hb)

/-- The answer leaves the pending table, and the host takes it at once. -/
theorem requestReply_ends {v : State} {x : Cmd} (hdel : Delivers s c io) (hv : HostSame s v) (hx : cmdAt v tag = some x) (hb : x.body = c.body)
    (ho : x.origin = c.origin) (hm : x.mirror = c.mirror) (cls n : Nat) (e : PendEntry) :
    (requestReply v tag io cls n e).keys = v.keys ∧ ∃ y, Ended s (requestReply v tag io cls n e) tag c stOk e.msg.length y := by
  obtain ⟨-, -, -, -, hok⟩ := id hdel
  exact ⟨endOut_keys _ _ _ _ _ _, _, (endOut_ended hdel hv hx hb ho hm hok).1⟩

/-- The row with its input read, once Mangle holds none of its operations. -/
theorem next_approvalRequest {P : State → Prop} (hst : Started s tag 0x0307 c) (hr : Reads s c io d) (hm : mangleHas s tag = false)
    (hp : ∀ u, InputTaken s u tag c → P (requestGoes u tag io { c with expect := none } d)) : Next (.approvalRequest tag io) s P := by
  refine next_inputTaken hst hr (exec_approvalRequest tag io s) fun u hu => ?_
  rw [if_neg (by simp [mangleHas_congr hu.only.mangle_eq, hm])]
  exact hp u hu

end

namespace InputTaken

variable {s u : State} {tag : Nat} {c : Cmd} (h : InputTaken s u tag c) (d : List Byte)
include h

theorem requestFinds_eq : requestFinds u { c with expect := none } d = requestFinds s c d :=
  h.congr (requestFinds · { c with expect := none } d) fun _ _ _ => rfl

theorem requestInits_eq : requestInits u { c with expect := none } d = requestInits s c d :=
  h.congr (requestInits · { c with expect := none } d) fun _ _ _ => rfl

/-- A device that is no primary makes the same entry. -/
theorem requestEntry_eq (ha : isPrimary s = false) (ch : List Byte) : requestEntry u { c with expect := none } d ch = requestEntry s c d ch := by
  have hu := h.eq_with
  rw [(h.alone ha).2] at hu
  exact (congrArg (requestEntry · { c with expect := none } d ch) hu).trans rfl

theorem pressFree_eq : pressFree u = pressFree s := h.congr pressFree fun _ _ _ => rfl

end InputTaken

section
variable {s : State} {tag : Nat} {io : HostIO} {c : Cmd} {d : List Byte} (hm : mangleHas s tag = false)
include hm

theorem next_approvalRequest_found {n : Nat} {e : PendEntry} (hdel : Delivers s c io) (hf : requestFinds s c d = some (n, e)) :
    NextIn (.approvalRequest tag io) s tag 0x0307 c io d (fun t => t.keys.pend = s.keys.pend ∧ ∃ x, Ended s t tag c stOk e.msg.length x) := by
  refine fun hst hr => next_approvalRequest hst hr hm fun u hu => ?_
  obtain ⟨x, y, hat⟩ := hu.place
  rw [requestGoes_found ((hu.requestFinds_eq d).trans hf)]
  obtain ⟨hkeys, hend⟩ := requestReply_ends hdel (hu.hostSame hdel.alone) hat rfl rfl rfl _ n e
  exact ⟨congrArg KeyState.pend (hkeys.trans hu.only.keys_eq), hend⟩

theorem next_approvalRequest_made {n : Nat} (hdel : Delivers s c io) (hf : requestFinds s c d = none)
    (hv : requestInits s c d = true → requestCredsValid d = true) (hb : bobbinFor s 5 = true) (hp : pressFree s = true) (hn : pendSpot s = some n) :
    NextIn (.approvalRequest tag io) s tag 0x0307 c io d (fun t => ∃ ch, tblFind n t.keys.pend = some (requestEntry s c d ch) ∧
      OtherPending s t n ∧ ∃ x, Ended s t tag c stOk (requestEntry s c d ch).msg.length x) := by
  refine fun hst hr => next_approvalRequest hst hr hm fun u hu => ?_
  obtain ⟨-, -, hstarted, -, hop, -⟩ := id hst
  obtain ⟨x, y, hat⟩ := hu.place
  rw [requestGoes_made ((hu.requestFinds_eq d).trans hf) (by rwa [hu.requestInits_eq]) ((hu.bobbinFor_eq hstarted 5).trans hb)
    (hu.pressFree_eq.trans hp) ((hu.pendSpot_eq hop).trans hn)]
  unfold requestMakes
  rw [hu.requestEntry_eq d hdel.alone]
  have hdrawn : HostSame s (draw u 16).2 := (hu.hostSame hdel.alone).trans (hostSame_draw u 16)
  have halone : isPrimary (draw u 16).2 = false := (isPrimary_congr hdrawn.seam).trans hdel.alone
  have hplace : cmdAt (pendPut (draw u 16).2 n (some (requestEntry s c d (draw u 16).1))) tag = _ :=
    (pendPut_only.cmdAt rfl tag).trans ((draw_only.cmdAt rfl tag).trans hat)
  obtain ⟨hkeys, hend⟩ := requestReply_ends hdel (hdrawn.trans (hostSame_pendPut halone n _)) hplace rfl rfl rfl _ n _
  obtain ⟨hset, hother⟩ := pend_set (draw_only.keys_eq.trans hu.only.keys_eq) (congrArg KeyState.pend hkeys)
  exact ⟨_, hset, hother, hend⟩

theorem next_approvalRequest_rejected (hf : requestFinds s c d = none) (hi : requestInits s c d = true) (hv : requestCredsValid d = false) :
    NextIn (.approvalRequest tag io) s tag 0x0307 c io d (fun t => Ended s t tag c stBadPoint ∧ t.keys.pend = s.keys.pend) := by
  refine fun hst hr => next_approvalRequest hst hr hm fun u hu => ?_
  obtain ⟨x, y, hat⟩ := hu.place
  rw [requestGoes_rejected ((hu.requestFinds_eq d).trans hf) ((hu.requestInits_eq d).trans hi) hv]
  exact ⟨endAfter_ended hat rfl hu.now _ _ _, congrArg KeyState.pend ((endAfter_parts _ _ _ _ _).keys_eq.trans hu.only.keys_eq)⟩

theorem next_approvalRequest_waits (hf : requestFinds s c d = none) (hi : requestInits s c d = false)
    (hb : bobbinFor s 5 = false ∨ pressFree s = false) :
    NextIn (.approvalRequest tag io) s tag 0x0307 c io d (fun t => t.keys.pend = s.keys.pend ∧
      ∃ x, cmdAt t tag = some x ∧ x.stage = .started ∧ x.body = c.body) := by
  refine fun hst hr => next_approvalRequest hst hr hm fun u hu => ?_
  obtain ⟨-, -, hstarted, -⟩ := id hst
  obtain ⟨x, y, hat⟩ := hu.place
  rw [requestGoes_waits ((hu.requestFinds_eq d).trans hf) ((hu.requestInits_eq d).trans hi)
    (by rwa [hu.bobbinFor_eq hstarted, hu.pressFree_eq])]
  exact ⟨congrArg KeyState.pend hu.only.keys_eq, _, hat, hstarted, rfl⟩

end

/-! ### `APPROVAL.SUBMIT` -/

/-- The entry with the approval of the officer `i`, which counts once (R138). -/
def approvedBy (e : PendEntry) (i : Nat) : PendEntry := { e with mask := if bitN e.mask i then e.mask else e.mask + 2 ^ i }

/-- The approval is counted for the officer `i` in its owner's record (Table 5-8). -/
def givenCounted (s : State) (e : PendEntry) (i : Nat) : State :=
  match ownerGet s e.owner with
  | none => s
  | some r => match tblFind i r.officers with
    | none => s
    | some o => ownerPut s e.owner (some { r with
        officers := tblPut i { o with given := if bitN e.mask i then o.given else o.given + 1 } r.officers })

/-- A submission whose signature verifies has marked the entry and recorded it. -/
def submitMarks (s : State) (n i : Nat) (e : PendEntry) : State :=
  givenCounted (tallyPut (pendPut s n (some (approvedBy e i))) agCp 0x0380 [(1, e.owner), (0x0C, n), (0x0B, i)]) e i

/-- What a submission answers: the place, the count, M and the state of its entry (Table 5-6). -/
def submitExtra (s : State) (n : Nat) (e : PendEntry) : BitVec 64 :=
  BitVec.ofNat 64 (n + pendCount s e * 2 ^ 16 + (pendQuorum s e).1 * 2 ^ 24 + (if pendEnough s e then 2 else 1) * 2 ^ 32)

/-- What a submission of the signature `sig` does once Mangle holds none of its operations. -/
def submitGoes (s : State) (tag n i : Nat) (sig : List Byte) : State :=
  match tblFind n s.keys.pend with
  | none => endBefore s tag 0x0301
  | some e =>
    match pendOfficer s e i with
    | none => endBefore s tag stDenied
    | some k =>
      if officerSigned k e.msg sig then endOk (submitMarks s n i e) tag 0 (submitExtra (submitMarks s n i e) n (approvedBy e i))
      else tallyPut (endAfter s tag 0x0302) agCp 0x0302 [(1, e.owner), (0x0C, n), (0x0B, i)]

theorem exec_approvalSubmit (tag : Nat) (io : HostIO) (s : State) : exec (.approvalSubmit tag io) s = runIn s tag 0x0308 io (fun c sig s =>
    if mangleHas s tag then mangleSet s tag else submitGoes s tag (par c 52 2) (par c 54 1) sig) := rfl

theorem givenCounted_only {s : State} {e : PendEntry} {i : Nat} : Only 24577 s (givenCounted s e i) := by
  unfold givenCounted
  split
  · exact .refl
  · split
    · exact .refl
    · exact ownerPut_only

theorem givenCounted_pend (s : State) (e : PendEntry) (i : Nat) : (givenCounted s e i).keys.pend = s.keys.pend := by
  unfold givenCounted
  split
  · rfl
  · split
    · rfl
    · exact ownerPut_pend _ _ _

theorem submitMarks_only {s : State} {n i : Nat} {e : PendEntry} : Only 26705 s (submitMarks s n i e) :=
  ((pendPut_only.mono rfl).trans (tallyPut_only.mono rfl)).trans (givenCounted_only.mono rfl)

theorem submitMarks_pend (s : State) (n i : Nat) (e : PendEntry) :
    (submitMarks s n i e).keys.pend = (pendPut s n (some (approvedBy e i))).keys.pend :=
  (givenCounted_pend _ _ _).trans (congrArg KeyState.pend tallyPut_only.keys_eq)

theorem submitExtra_congr {s t : State} (hk : t.keys = s.keys) (hb : t.boot = s.boot) (n : Nat) (e : PendEntry) :
    submitExtra t n e = submitExtra s n e := by
  unfold submitExtra
  rw [pendCount_congr hk hb, pendQuorum_congr hk hb, pendEnough_congr hk hb]

/-- The row with its input read, once Mangle holds none of its operations. -/
theorem next_approvalSubmit {s : State} {tag : Nat} {io : HostIO} {c : Cmd} {sig : List Byte} {P : State → Prop} (hst : Started s tag 0x0308 c)
    (hr : Reads s c io sig) (hm : mangleHas s tag = false)
    (hp : ∀ u, InputTaken s u tag c → P (submitGoes u tag (par c 52 2) (par c 54 1) sig)) : Next (.approvalSubmit tag io) s P := by
  refine next_inputTaken hst hr (exec_approvalSubmit tag io s) fun u hu => ?_
  rw [if_neg (by simp [mangleHas_congr hu.only.mangle_eq, hm])]
  exact hp u hu

/-- The signature of an officer who is there decides. -/
theorem submitGoes_eq {s u : State} {n i : Nat} {sig : List Byte} {e : PendEntry} {k : Nat × List Byte} (he : tblFind n s.keys.pend = some e)
    (hk : pendOfficer s e i = some k) (hkeys : u.keys = s.keys) (hboot : u.boot = s.boot) (tag : Nat) : submitGoes u tag n i sig =
      if officerSigned k e.msg sig then endOk (submitMarks u n i e) tag 0 (submitExtra (submitMarks u n i e) n (approvedBy e i))
      else tallyPut (endAfter u tag 0x0302) agCp 0x0302 [(1, e.owner), (0x0C, n), (0x0B, i)] := by
  unfold submitGoes
  rw [hkeys, he]
  dsimp only
  rw [pendOfficer_congr hkeys hboot, hk]

section
variable {s : State} {tag : Nat} {io : HostIO} {c : Cmd} {sig : List Byte} {e : PendEntry} {k : Nat × List Byte}
  (hm : mangleHas s tag = false) (he : tblFind (par c 52 2) s.keys.pend = some e) (hk : pendOfficer s e (par c 54 1) = some k)
include hm he hk

theorem next_approvalSubmit_verified (hv : officerSigned k e.msg sig = true) : NextIn (.approvalSubmit tag io) s tag 0x0308 c io sig (fun t =>
    OtherPending s t (par c 52 2) ∧ ∃ e', tblFind (par c 52 2) t.keys.pend = some e' ∧ e' = approvedBy e (par c 54 1) ∧
      Ended s t tag c stOk 0 (submitExtra t (par c 52 2) e')) := by
  refine fun hst hr => next_approvalSubmit hst hr hm fun u hu => ?_
  rw [submitGoes_eq he hk hu.only.keys_eq hu.only.boot_eq, if_pos hv]
  obtain ⟨x, y, hat⟩ := hu.place
  have hkeys : ∀ z, (endOk (submitMarks u (par c 52 2) (par c 54 1) e) tag 0 z).keys = (submitMarks u (par c 52 2) (par c 54 1) e).keys :=
    fun z => (endAfter_parts _ _ _ _ _).keys_eq
  obtain ⟨hset, hother⟩ := pend_set hu.only.keys_eq ((congrArg KeyState.pend (hkeys _)).trans (submitMarks_pend u _ _ e))
  refine ⟨hother, _, hset, rfl, ?_⟩
  rw [submitExtra_congr (hkeys _) (endAfter_parts _ _ _ _ _).boot_eq]
  exact endOk_ended ((submitMarks_only.cmdAt rfl tag).trans hat) rfl ((submitMarks_only.now rfl).trans hu.now) _ _

theorem next_approvalSubmit_refused (hv : officerSigned k e.msg sig = false) : NextIn (.approvalSubmit tag io) s tag 0x0308 c io sig (fun t =>
    Ended s t tag c 0x0302 ∧ t.keys.pend = s.keys.pend ∧ t.keys.owners = s.keys.owners) := by
  refine fun hst hr => next_approvalSubmit hst hr hm fun u hu => ?_
  rw [submitGoes_eq he hk hu.only.keys_eq hu.only.boot_eq, if_neg (by simp [hv])]
  obtain ⟨x, y, hat⟩ := hu.place
  obtain ⟨z, hz, hend⟩ := endAfter_ended hat rfl hu.now 0x0302 0 0
  have hkeys : (tallyPut (endAfter u tag 0x0302) agCp 0x0302 [(1, e.owner), (0x0C, par c 52 2), (0x0B, par c 54 1)]).keys = s.keys :=
    (tallyPut_only.keys_eq.trans (endAfter_parts _ _ _ _ _).keys_eq).trans hu.only.keys_eq
  exact ⟨⟨z, (tallyPut_only.cmdAt rfl tag).trans hz, hend⟩, congrArg KeyState.pend hkeys, congrArg KeyState.owners hkeys⟩

end

/-! ### Withdrawal and expiry -/

theorem next_approvalCancel {s : State} {tag : Nat} {c : Cmd} (h : Started s tag 0x030A c) : Next (.approvalCancel tag) s (fun t =>
    Ended s t tag c stOk ∧ tblFind (par c 52 2) t.keys.pend = none ∧ OtherPending s t (par c 52 2)) := by
  obtain ⟨-, hc, -⟩ := id h
  exact next_runCmd h (f := fun c s => endOk (pendPut s (par c 52 2) none) tag) rfl
    ⟨endOk_ended ((pendPut_only.cmdAt rfl tag).trans hc) rfl (pendPut_only.now rfl) _ _,
      pend_set rfl (congrArg KeyState.pend (endAfter_parts _ _ _ _ _).keys_eq)⟩

section
variable {s : State} {n : Nat} {e : PendEntry} (he : tblFind n s.keys.pend = some e)
include he

theorem exec_approvalExpiry : exec (.approvalExpiry n) s =
    .next (if pendInTime s e (nowStamp s) || e.reserved.isSome then s else pendExpire s n e) := by
  refine congrArg Outcome.next ?_
  rw [he]

theorem next_approvalExpiry_late (hl : pendInTime s e (nowStamp s) = false) (hr : e.reserved = none) :
    Next (.approvalExpiry n) s (fun t => tblFind n t.keys.pend = none ∧ OtherPending s t n) := by
  refine next_of ((exec_approvalExpiry he).trans (congrArg Outcome.next (if_neg (by simp [hl, hr])))) ?_
  exact pend_set rfl (congrArg KeyState.pend tallyPut_only.keys_eq)

theorem next_approvalExpiry_stands (h : pendInTime s e (nowStamp s) = true ∨ e.reserved.isSome = true) :
    Next (.approvalExpiry n) s (fun t => t = s) :=
  next_of ((exec_approvalExpiry he).trans (congrArg Outcome.next (if_pos (by simpa using h)))) rfl

end

/-! ### The settled statement -/

/-- Settles O15: a request by what the table and the units hold, a submission by its signature, and the ends of an entry by its removal. -/
theorem approvalsAreMadeCountedAndEnded : Obligations.ApprovalsAreMadeCountedAndEnded := by
  refine ⟨?mangle, fun tag io s c d hdel hm => ⟨fun n e => next_approvalRequest_found hm hdel, ?made, fun hf =>
    ⟨next_approvalRequest_rejected hm hf, next_approvalRequest_waits hm hf⟩⟩, ?submit, ?ends⟩
  case mangle =>
    exact fun tag io s c => ⟨mangleFirst_of (exec_approvalRequest tag io s) fun _ _ _ h => if_pos h,
      mangleFirst_of (exec_approvalSubmit tag io s) fun _ _ _ h => if_pos h⟩
  case made =>
    rintro n r hf hv hb hp hn rfl hst hr
    refine (next_approvalRequest_made hm hdel hf hv hb hp hn hst hr).mono ?_
    rintro t ⟨ch, hset, hother, hend⟩
    exact ⟨_, hset, rfl, rfl, rfl, rfl, rfl, rfl, rfl, rfl, congrArg (c.accepted.toNat + ·) (Nat.mul_comm _ _), rfl, rfl, hother, hend⟩
  case submit =>
    exact fun tag io s c sig e k hm he hk => ⟨next_approvalSubmit_verified hm he hk, next_approvalSubmit_refused hm he hk⟩
  case ends =>
    exact fun s => ⟨fun tag c => next_approvalCancel, fun n e => next_approvalExpiry_late, fun n e => next_approvalExpiry_stands⟩

end Sys2Proof.Machine
end

section
set_option Elab.async false

/-! SUPPORT. Commands of owners and keys that ask Thimble, and the settled statement O16 (R96, R123, R169, R184, R397). -/

namespace Sys2Proof.Machine

open Host Sys2Proof

/-! ### A request of a started command -/

/-- The started command `c` of `s` stands as `d` in `t` and can post its request there: it has posted none, the ring has a place, and
Thimble and the clock are as in `s` (R397). -/
structure MayAsk (s t : State) (c d : Cmd) : Prop where
  stage : d.stage = .started
  body : d.body = c.body
  step : d.work.step = 0
  room : thmRoom s = true
  thm : t.thm = s.thm
  time : t.time = s.time

/-- The request is posted, and the command waits. -/
theorem MayAsk.asks {s t : State} {c d : Cmd} (h : MayAsk s t c d) (tag op : Nat) (nums : List Nat) (a b : Nat) (data : List Byte) :
    Asks s (thmAsk t tag d { op := op, tag := 0, a := a, b := b, nums := nums, data := data }) tag c op nums a b data := by
  have hroom : thmRoom t = true := by unfold thmRoom; rw [h.thm]; exact h.room
  have halarm : cAlarm d = cAlarm c := by unfold cAlarm cFlags; rw [h.body]
  rw [thmAsk_eq h.step hroom, h.thm, h.time, halarm]
  exact ⟨⟨_, cmdAt_cmdPut_same, h.stage, h.body, rfl⟩, rfl, rfl⟩

/-- A request to fill placed slots carries the numbers of the object (Table 14-4). -/
theorem MayAsk.asks_fill {s t : State} {c d : Cmd} (h : MayAsk s t c d) {tag op a b origin : Nat} {more nums : List Nat} {data : List Byte}
    (hn : fillNums t d (kcType d) (kcSize d) (kcAttrs d) (kcLimit d) origin ++ more = nums) :
    Asks s (askFill t tag d op a b origin more data) tag c op nums a b data := by
  unfold askFill
  rw [hn]
  exact h.asks tag op nums a b data

section
variable {s : State} {tag op : Nat} {c : Cmd} (hstep : c.work.step = 0) (hroom : thmRoom s = true)
include hstep hroom

theorem Started.mayAsk (h : Started s tag op c) : MayAsk s s c c := by
  obtain ⟨-, -, hstarted, -⟩ := h
  exact ⟨hstarted, rfl, hstep, hroom, rfl, rfl⟩

theorem InputTaken.mayAsk {u : State} (h : InputTaken s u tag c) (hs : c.stage = .started) : MayAsk s u c { c with expect := none } :=
  ⟨hs, rfl, hstep, hroom, h.only.thm_eq, h.only.time_eq⟩

/-- A started command that asks at once. -/
theorem next_asks {i : Instr} {rop : Nat} {nums : Cmd → List Nat} {key : Cmd → Nat}
    (hx : exec i s = runCmd s tag op (fun c s => thmAsk s tag c { op := rop, tag := 0, a := key c, nums := nums c })) (h : Started s tag op c) :
    Next i s (fun t => Asks s t tag c rop (nums c) (key c)) :=
  next_runCmd h hx ((h.mayAsk hstep hroom).asks tag rop (nums c) (key c) 0 [])

end

/-- The numbers of the object that a command creates are those it had before it read its input. -/
theorem InputTaken.fillNums_eq {s u : State} {tag : Nat} {c : Cmd} (h : InputTaken s u tag c) (t size attrs limit origin : Nat) :
    fillNums u { c with expect := none } t size attrs limit origin = fillNums s c t size attrs limit origin :=
  h.congr (fillNums · { c with expect := none } t size attrs limit origin) fun _ _ _ => rfl

/-- A row that reads its input, once Mangle holds none of the command's operations. -/
theorem next_mangleDone {i : Instr} {s : State} {tag op : Nat} {io : HostIO} {c : Cmd} {bs : List Byte}
    {f : Cmd → List Byte → State → State} {P : State → Prop}
    (hx : exec i s = runIn s tag op io (fun c bs s => if mangleHas s tag then mangleSet s tag else f c bs s)) (hm : mangleHas s tag = false)
    (hp : ∀ u, InputTaken s u tag c → c.stage = .started → P (f { c with expect := none } bs u)) : NextIn i s tag op c io bs P := by
  refine fun hst hr => next_inputTaken hst hr hx fun u hu => ?_
  obtain ⟨-, -, hstarted, -⟩ := hst
  rw [if_neg (by simp [mangleHas_congr hu.only.mangle_eq, hm])]
  exact hp u hu hstarted

/-- Keys that Mangle's validation rejects end the command, and Thimble is not asked (R191). -/
theorem InputTaken.badPoint {s u : State} {tag : Nat} {c : Cmd} (h : InputTaken s u tag c) :
    Ended s (endAfter u tag stBadPoint) tag c stBadPoint ∧ (endAfter u tag stBadPoint).thm = s.thm := by
  obtain ⟨x, y, hat⟩ := h.place
  exact ⟨endAfter_ended hat rfl h.now _ _ _, (endAfter_parts _ _ _ _ _).thm_eq.trans h.only.thm_eq⟩

/-! ### What each row runs -/

theorem exec_ownerCreate (tag : Nat) (io : HostIO) (s : State) : exec (.ownerCreate tag io) s = runIn s tag 0x0301 io (fun c d s =>
    if mangleHas s tag then mangleSet s tag
    else if !(descCreds d).all (fun k => credValid (k.kind, k.pub)) then endAfter s tag stBadPoint
    else thmAsk s tag c { op := 0xC, tag := 0, nums := [descOwner d, 1] }) := rfl

theorem exec_keyCreate (tag : Nat) (s : State) : exec (.keyCreate tag) s = runCmd s tag 0x0401 (fun c s =>
    if mangleHas s tag then mangleSet s tag else askFill s tag c 5 0 0 1 [] []) := rfl

theorem exec_keyImport (tag : Nat) (io : HostIO) (s : State) : exec (.keyImport tag io) s = runIn s tag 0x0402 io (fun c bs s =>
    if mangleHas s tag then mangleSet s tag else askFill s tag c 6 0 (cKeyA c) 2 [par c 53 1] bs) := rfl

theorem exec_keyImportPublic (tag : Nat) (io : HostIO) (s : State) : exec (.keyImportPublic tag io) s = runIn s tag 0x0403 io (fun c bs s =>
    if mangleHas s tag then mangleSet s tag
    else if publicValid (kcType c) (kcSize c) bs then askFill s tag c 6 0 0 4 [0] bs
    else endAfter s tag stBadPoint) := rfl

theorem exec_keyDerive (tag : Nat) (io : HostIO) (s : State) : exec (.keyDerive tag io) s = runIn s tag 0x0404 io (fun c bs s =>
    if mangleHas s tag then mangleSet s tag else askFill s tag c 7 (cKeyA c) 0 3 [] bs) := rfl

theorem exec_keyDestroy (tag : Nat) (s : State) : exec (.keyDestroy tag) s = runCmd s tag 0x0405 (fun c s =>
    if handleBusy s tag (cKeyA c) || ctxRuns s (cKeyA c) then s
    else thmAsk (ctxsOfKeyEnd s (cKeyA c)) tag c { op := 9, tag := 0, a := cKeyA c }) := rfl

/-- Both rows of a `KEY.DESTROY` do the same. -/
theorem exec_keyDestroyProceed (tag : Nat) (s : State) : exec (.keyDestroyProceed tag) s = exec (.keyDestroy tag) s := rfl

theorem next_keyDestroyProceed {tag : Nat} {s : State} {P : State → Prop} (h : Next (.keyDestroy tag) s P) : Next (.keyDestroyProceed tag) s P := by
  obtain ⟨t, ht, hp⟩ := h
  exact next_of ((exec_keyDestroyProceed tag s).trans ht) hp

/-! ### `OWNER.CREATE` -/

section
variable {s : State} {tag : Nat} {io : HostIO} {c : Cmd} {bs : List Byte} (hm : mangleHas s tag = false)
include hm

theorem next_ownerCreate_asks (hstep : c.work.step = 0) (hroom : thmRoom s = true)
    (hv : (descCreds bs).all (fun k => credValid (k.kind, k.pub)) = true) :
    NextIn (.ownerCreate tag io) s tag 0x0301 c io bs (fun t => Asks s t tag c 0xC [descOwner bs, 1]) := by
  refine next_mangleDone (exec_ownerCreate tag io s) hm fun u hu hs => ?_
  rw [if_neg (by simp [hv])]
  exact (hu.mayAsk hstep hroom hs).asks tag 0xC [descOwner bs, 1] 0 0 []

theorem next_ownerCreate_rejected (hv : (descCreds bs).all (fun k => credValid (k.kind, k.pub)) = false) :
    NextIn (.ownerCreate tag io) s tag 0x0301 c io bs (fun t => Ended s t tag c stBadPoint ∧ t.thm = s.thm) := by
  refine next_mangleDone (exec_ownerCreate tag io s) hm fun u hu _ => ?_
  rw [if_pos (by simp only [hv, Bool.not_false])]
  exact hu.badPoint

/-! ### The commands that create a key object -/

theorem next_keyCreate_asks (hstep : c.work.step = 0) (hroom : thmRoom s = true) (h : Started s tag 0x0401 c) : Next (.keyCreate tag) s (fun t =>
    Asks s t tag c 5 (fillNums s c (kcType c) (kcSize c) (kcAttrs c) (kcLimit c) 1)) := by
  refine next_runCmd h (exec_keyCreate tag s) ?_
  rw [if_neg (by simp [hm])]
  exact (h.mayAsk hstep hroom).asks_fill (List.append_nil _)

theorem next_keyImport_asks (hstep : c.work.step = 0) (hroom : thmRoom s = true) : NextIn (.keyImport tag io) s tag 0x0402 c io bs (fun t =>
    Asks s t tag c 6 (fillNums s c (kcType c) (kcSize c) (kcAttrs c) (kcLimit c) 2 ++ [par c 53 1]) 0 (cKeyA c) bs) :=
  next_mangleDone (exec_keyImport tag io s) hm fun _ hu hs =>
    (hu.mayAsk hstep hroom hs).asks_fill (congrArg (· ++ [par c 53 1]) (hu.fillNums_eq _ _ _ _ _))

theorem next_keyImportPublic_asks (hstep : c.work.step = 0) (hroom : thmRoom s = true) (hv : publicValid (kcType c) (kcSize c) bs = true) :
    NextIn (.keyImportPublic tag io) s tag 0x0403 c io bs (fun t =>
      Asks s t tag c 6 (fillNums s c (kcType c) (kcSize c) (kcAttrs c) (kcLimit c) 4 ++ [0]) 0 0 bs) := by
  refine next_mangleDone (exec_keyImportPublic tag io s) hm fun u hu hs => ?_
  have hread : publicValid (kcType { c with expect := none }) (kcSize { c with expect := none }) bs = true := hv
  rw [if_pos hread]
  exact (hu.mayAsk hstep hroom hs).asks_fill (congrArg (· ++ [0]) (hu.fillNums_eq _ _ _ _ _))

theorem next_keyImportPublic_rejected (hv : publicValid (kcType c) (kcSize c) bs = false) :
    NextIn (.keyImportPublic tag io) s tag 0x0403 c io bs (fun t => Ended s t tag c stBadPoint ∧ t.thm = s.thm) := by
  refine next_mangleDone (exec_keyImportPublic tag io s) hm fun u hu _ => ?_
  have hread : publicValid (kcType { c with expect := none }) (kcSize { c with expect := none }) bs = false := hv
  rw [if_neg (by simp [hread])]
  exact hu.badPoint

theorem next_keyDerive_asks (hstep : c.work.step = 0) (hroom : thmRoom s = true) : NextIn (.keyDerive tag io) s tag 0x0404 c io bs (fun t =>
    Asks s t tag c 7 (fillNums s c (kcType c) (kcSize c) (kcAttrs c) (kcLimit c) 3) (cKeyA c) 0 bs) :=
  next_mangleDone (exec_keyDerive tag io s) hm fun _ hu hs =>
    (hu.mayAsk hstep hroom hs).asks_fill ((List.append_nil _).trans (hu.fillNums_eq _ _ _ _ _))

end

/-- While Mangle makes the pair, the row lets its operations go on (R184). -/
theorem next_keyCreate_mangle {s : State} {tag : Nat} {c : Cmd} (hm : mangleHas s tag = true) (h : Started s tag 0x0401 c) :
    Next (.keyCreate tag) s (fun t => LetsMangle t tag c) := by
  refine next_runCmd h (exec_keyCreate tag s) ?_
  obtain ⟨-, hc, hstarted, -⟩ := h
  rw [if_pos hm]
  exact ⟨⟨c, (mangleSet_only.cmdAt rfl tag).trans hc, hstarted, rfl⟩,
    fun o k ho hsrc => mangleSet_ready s tag o ho (by rw [hsrc]; exact beq_self_eq_true tag)⟩

/-! ### `KEY.DESTROY` -/

section
variable {s : State} {tag : Nat} {c : Cmd} (h : Started s tag 0x0405 c)
include h

theorem next_keyDestroy_waits (hb : handleBusy s tag (cKeyA c) = true ∨ ctxRuns s (cKeyA c) = true) :
    Next (.keyDestroy tag) s (fun t => t = s) := by
  refine next_runCmd h (exec_keyDestroy tag s) ?_
  rw [if_pos (by simpa using hb)]

theorem next_keyDestroy_asks (hb : handleBusy s tag (cKeyA c) = false) (hr : ctxRuns s (cKeyA c) = false) (hstep : c.work.step = 0)
    (hroom : thmRoom s = true) : Next (.keyDestroy tag) s (fun t => Asks s t tag c 9 [] (cKeyA c) ∧
      t.press.ctxs = s.press.ctxs.filter (fun e => e.2.handle != cKeyA c)) := by
  refine next_runCmd h (exec_keyDestroy tag s) ?_
  rw [if_neg (by simp [hb, hr])]
  have hmay : MayAsk s (ctxsOfKeyEnd s (cKeyA c)) c c := { h.mayAsk hstep hroom with thm := rfl, time := rfl }
  exact ⟨hmay.asks tag 9 [] (cKeyA c) 0 [], congrArg PressState.ctxs thmAsk_only.press_eq⟩

end

/-! ### The settled statement -/

/-- Settles O16: while Mangle holds an operation of the command the row lets it go on; else the request is posted, or the command ends
where Mangle's validation fails; a `KEY.DESTROY` by the two cases of the handle's use. -/
theorem ownerAndKeyCommandsAskThimble : Obligations.OwnerAndKeyCommandsAskThimble := by
  refine ⟨?mangle, ?asks, ?destroy⟩
  case mangle =>
    exact fun tag io s c => ⟨mangleFirst_of (exec_ownerCreate tag io s) fun _ _ _ h => if_pos h, next_keyCreate_mangle,
      mangleFirst_of (exec_keyImport tag io s) fun _ _ _ h => if_pos h,
      mangleFirst_of (exec_keyImportPublic tag io s) fun _ _ _ h => if_pos h,
      mangleFirst_of (exec_keyDerive tag io s) fun _ _ _ h => if_pos h⟩
  case asks =>
    exact fun tag io s c bs hstep hroom => ⟨fun hm => next_ownerCreate_asks hm hstep hroom, next_ownerCreate_rejected,
      next_asks (nums := fun c => [par c 52 2, 0]) (key := fun _ => 0) hstep hroom rfl,
      fun h hm => next_keyCreate_asks hm hstep hroom h, fun hm => next_keyImport_asks hm hstep hroom,
      fun hm => next_keyImportPublic_asks hm hstep hroom, next_keyImportPublic_rejected, fun hm => next_keyDerive_asks hm hstep hroom,
      next_asks (nums := fun c => [par c 52 8, par c 60 4]) (key := cKeyA) hstep hroom rfl,
      next_asks (nums := fun c => [par c 52 2]) (key := cKeyA) hstep hroom rfl⟩
  case destroy =>
    exact fun tag s c h => ⟨fun hb => ⟨next_keyDestroy_waits h hb, next_keyDestroyProceed (next_keyDestroy_waits h hb)⟩,
      fun hb hr hstep hroom => ⟨next_keyDestroy_asks h hb hr hstep hroom, next_keyDestroyProceed (next_keyDestroy_asks h hb hr hstep hroom)⟩⟩

end Sys2Proof.Machine
end

section
set_option Elab.async false

/-! SUPPORT. Buffers and chains of the Hamper: what an allocation, a release and a transfer leave of each buffer's metadata (R230, R231, R234). -/

namespace Sys2Proof.Machine

open Host Sys2Proof

/-! ### The metadata of buffers -/

theorem bufGet_metas {s t : State} (h : t.hamper.metas = s.hamper.metas) (b : Nat) : bufGet t b = bufGet s b := by
  unfold bufGet; rw [h]

theorem chainFrom_congr {s t : State} (h : SameBufs s t) (n b : Nat) : chainFrom t n b = chainFrom s n b := by
  induction n generalizing b with
  | zero => rfl
  | succ n ih => simp only [chainFrom, h b, ih]

/-- The buffers of a chain are found by the metadata alone. -/
theorem chainOf_congr {s t : State} (h : SameBufs s t) (b : Nat) : chainOf t b = chainOf s b := chainFrom_congr h 36 b

theorem isChain_iff {s : State} {b : Nat} : isChain s b = true ↔ (bufGet s b).held = true ∧ (bufGet s b).first = true := by
  simp [isChain]

/-- Each buffer of `l` has its metadata changed by `g`, and no other buffer has: a second change by `g` would change nothing. -/
theorem bufGet_foldl_change {g : BufMeta → BufMeta} (hg : ∀ m, g (g m) = g m) (l : List Nat) (s : State) (x : Nat) :
    bufGet (l.foldl (fun s y => bufPut s y (g (bufGet s y))) s) x = if x ∈ l then g (bufGet s x) else bufGet s x := by
  induction l generalizing s with
  | nil => rfl
  | cons y l ih =>
    rw [List.foldl_cons, ih]
    by_cases h : x = y
    · subst h; simp [hg]
    · simp [h, bufGet_bufPut_other h]

theorem bufGet_foldl_other {k : Nat → Nat} {m : State → Nat → BufMeta} {l : List Nat} {x : Nat} (h : ∀ i ∈ l, x ≠ k i) (s : State) :
    bufGet (l.foldl (fun s i => bufPut s (k i) (m s i)) s) x = bufGet s x := by
  induction l generalizing s with
  | nil => rfl
  | cons i l ih =>
    rw [List.foldl_cons, ih fun j hj => h j (List.mem_cons_of_mem _ hj)]
    exact bufGet_bufPut_other (h i List.mem_cons_self)

@[simp] theorem bufGet_chargeNote (before : State) (a : Nat) (s : State) (b : Nat) : bufGet (chargeNote before a s) b = bufGet s b :=
  bufGet_metas (congrArg HamperState.metas poolNote_only.hamper_eq) b

/-- A word not written since the allocation reads as zeros (R231). -/
theorem bufByte_unwritten {s : State} {b : Nat} (h : (bufGet s b).wv = 0) (i : Nat) : bufByte s b i = 0 := by
  simp [bufByte, h, bitN]

/-! ### Release and transfer -/

theorem bufGet_hmpRelease (s : State) (b x : Nat) :
    bufGet (hmpRelease s b) x = if x ∈ chainOf s b then { bufGet s x with held := false } else bufGet s x :=
  bufGet_foldl_change (g := fun m => { m with held := false }) (fun _ => rfl) (chainOf s b) s x

/-- A transfer succeeds within one account, and where the new account takes the charge (R234). -/
theorem hmpTransfer_isSome (s : State) (b tag : Nat) : (hmpTransfer s b tag).isSome =
    (decide (acctOf s tag = acctOf s (bufGet s b).owner) || acctTakes (hmpRelease s b) (acctOf s tag) (chainOf s b).length) := by
  unfold hmpTransfer
  dsimp only
  split <;> simp_all

/-- A chain that passes to another owner carries its tag in every buffer (R229). -/
theorem hmpTransfer_owner {s t : State} {b tag x : Nat} (h : hmpTransfer s b tag = some t) (hx : x ∈ chainOf s b) :
    (bufGet t x).owner = tag := by
  unfold hmpTransfer at h
  dsimp only at h
  split at h
  · cases h
    rw [bufGet_chargeNote, bufGet_foldl_change (g := fun m => { m with owner := tag }) (fun _ => rfl), if_pos hx]
  · cases h

/-! ### Allocation -/

theorem firstNat_holds {p : Nat → Bool} {i n k : Nat} (h : firstNat p i n = some k) : p k = true := by
  induction n generalizing i with
  | zero => cases h
  | succ n ih =>
    unfold firstNat at h
    split at h
    · rename_i hp; cases h; exact hp
    · exact ih h

/-- The buffer that serves next was free, and taking its bank's turn changes no metadata (R230). -/
theorem nextFree_free {s t : State} {b : Nat} (h : nextFree s = some (b, t)) : (bufGet s b).held = false ∧ SameBufs s t := by
  unfold nextFree at h
  split at h
  · cases h
  · obtain ⟨i, hi, he⟩ := Option.map_eq_some_iff.1 h
    cases he
    have hfree := firstNat_holds hi
    simp only [bufFree, Bool.and_eq_true, Bool.not_eq_true'] at hfree
    obtain ⟨⟨hnot, -⟩, -⟩ := hfree
    exact ⟨hnot, fun _ => rfl⟩

/-- Buffers taken out of the free set one by one are as many as were asked for, and no two are the same: one that is taken is held. -/
theorem takeBufs_nodup {n : Nat} {s t : State} {acc bs : List Nat} (h : takeBufs n s acc = some (bs, t)) (hacc : acc.Nodup)
    (hheld : ∀ x ∈ acc, (bufGet s x).held = true) : bs.Nodup ∧ bs.length = acc.length + n := by
  induction n generalizing s acc with
  | zero =>
    cases h
    exact ⟨List.nodup_reverse.2 hacc, List.length_reverse⟩
  | succ n ih =>
    unfold takeBufs at h
    split at h
    · cases h
    · rename_i b u hn
      obtain ⟨hfree, hsame⟩ := nextFree_free hn
      have hnew : b ∉ acc := fun hb => by simp [hheld b hb] at hfree
      have hput : ∀ x ∈ b :: acc, (bufGet (bufPut u b { held := true }) x).held = true := by
        intro x hx
        by_cases hxb : x = b
        · simp [hxb]
        · rw [bufGet_bufPut_other hxb, hsame x]
          exact hheld x ((List.mem_cons.1 hx).resolve_left hxb)
      obtain ⟨hd, hl⟩ := ih h (List.nodup_cons.2 ⟨hnew, hacc⟩) hput
      exact ⟨hd, by simp only [hl, List.length_cons]; omega⟩

/-- Buffer `b` heads a held chain of `n` buffers that belongs to the owner tag, and none of its words is written (R230, R231). -/
def HeadsChain (s : State) (tag n b : Nat) : Prop :=
  isChain s b = true ∧ (bufGet s b).owner = tag ∧ (bufGet s b).count = n ∧ (bufGet s b).wv = 0

theorem headsChain_congr {s t : State} (h : SameBufs s t) (tag n b : Nat) : HeadsChain t tag n b ↔ HeadsChain s tag n b := by
  unfold HeadsChain isChain; rw [h b]

/-- The first of the linked buffers heads the chain, for no later link is written to it. -/
theorem linkChain_head {s : State} {tag b : Nat} {bs : List Nat} (h : (b :: bs).Nodup) :
    HeadsChain (linkChain s tag (b :: bs)) tag (bs.length + 1) b := by
  have hother : ∀ i ∈ (List.range bs.length).map Nat.succ, b ≠ (b :: bs).getD i 0 := by
    intro i hi he
    obtain ⟨j, hj, rfl⟩ := List.mem_map.1 hi
    have hlt : j < bs.length := List.mem_range.1 hj
    refine (List.nodup_cons.1 h).1 ?_
    rw [he, List.getD_cons_succ, List.getD_eq_getElem _ _ hlt]
    exact List.getElem_mem hlt
  unfold HeadsChain isChain linkChain
  dsimp only
  rw [List.length_cons, List.range_succ_eq_map, List.foldl_cons, bufGet_foldl_other hother]
  simp

/-- What an allocation answers heads a chain of as many buffers as were asked for. -/
theorem hmpAlloc_chain {s t : State} {tag n b : Nat} (h : hmpAlloc s tag n = some (b, t)) (hn : 1 ≤ n) : HeadsChain t tag n b := by
  unfold hmpAlloc at h
  dsimp only at h
  split at h
  · cases h
  · split at h
    · cases h
    · rename_i bs u hb
      cases h
      obtain ⟨hd, hl⟩ := takeBufs_nodup hb List.nodup_nil (by simp)
      rw [headsChain_congr (bufGet_chargeNote s _ _)]
      cases bs with
      | nil => rw [List.length_nil] at hl; omega
      | cons b bs =>
        have hn' : n = bs.length + 1 := by rw [List.length_cons, List.length_nil] at hl; omega
        exact hn' ▸ linkChain_head hd

end Sys2Proof.Machine
end

section
set_option Elab.async false

/-! SUPPORT. A use of the operation port (R238): what its arrival changes before the operation is performed, which no operation reads. -/

namespace Sys2Proof.Machine

open Host Sys2Proof

/-! ### The arrival of an operation -/

/-- What a use of the port has changed before the operation is performed: WARM ends, its idle time restarts, and the argument is kept
(Table 2-5, R238). -/
structure Arrival where
  pwr : PwrState
  regs : RegState
  rng : RngState
  opArg : Tbl Word

/-- A state once the use of the port has arrived. -/
def Arrival.on (a : Arrival) (s : State) : State :=
  { s with pwr := a.pwr, regs := a.regs, rng := a.rng, hamper := { s.hamper with opArg := a.opArg } }

/-- No register reads differently but the power state, which leaves WARM. -/
def Arrival.KeepsRegs (a : Arrival) (s : State) : Prop := ∀ x, x ≠ aPwrState → regGet (a.on s) x = regGet s x

theorem lintDiscard_eq (s : State) : ∃ r, lintDiscard s = { s with rng := r } := by
  have fold (l : List Nat) (u : State) :
      ∃ r, l.foldl (fun s n => lintPut s n { lintGet s n with since := s.time.clk, runLen := 0 }) u = { u with rng := r } := by
    induction l generalizing u with
    | nil => exact ⟨u.rng, rfl⟩
    | cons n l ih =>
      obtain ⟨r, hr⟩ := ih (lintPut u n { lintGet u n with since := u.time.clk, runLen := 0 })
      exact ⟨r, hr⟩
  exact fold _ s

theorem touchFast_eq (s : State) : ∃ p g r, touchFast s = { s with pwr := p, regs := g, rng := r } := by
  unfold touchFast
  dsimp only
  split
  · obtain ⟨r, hr⟩ := lintDiscard_eq (setPwrMode { s with pwr := { s.pwr with fastLast := s.time.clk } } 0)
    exact ⟨_, _, r, hr⟩
  · exact ⟨_, s.regs, s.rng, rfl⟩

/-- A requester with a port has its operation performed where its arrival leaves the device. -/
theorem opRun_port {s : State} {r : Requester} {as_ p tag : Nat} (hf : fastPowered s = true) (hp : opPort r as_ = some (p, tag))
    (arg : Nat) (f : Nat → Nat → State → State) : ∃ a : Arrival, a.KeepsRegs s ∧ opRun s r as_ arg f = f p tag (a.on s) := by
  obtain ⟨w, g, r', ht⟩ := touchFast_eq s
  refine ⟨⟨w, g, r', tblSet 0 p (BitVec.ofNat 32 arg &&& 0xF003FFFF#32) s.hamper.opArg⟩, fun x hx => ?_, ?_⟩
  · rw [← touchFast_reg (s := s) hx, ht]; rfl
  · unfold opRun
    dsimp only
    rw [if_neg (by simp [hf]), hp, ht]
    rfl

section
variable {i : Instr} {s : State} {r : Requester} {as_ arg : Nat} {f : Nat → Nat → State → State}
  (hx : exec i s = .next (opRun s r as_ arg f))
include hx

theorem next_opRun {p tag : Nat} {P : State → Prop} (hf : fastPowered s = true) (hp : opPort r as_ = some (p, tag))
    (h : ∀ a : Arrival, a.KeepsRegs s → P (f p tag (a.on s))) : Next i s P := by
  obtain ⟨a, ha, he⟩ := opRun_port hf hp arg f
  exact ⟨_, hx, he ▸ h a ha⟩

/-- While the fast domain has no power no requester reaches the port (Table 1-8). -/
theorem next_opRun_unpowered (hf : fastPowered s = false) : Next i s (fun t => t = s) :=
  ⟨_, hx, if_pos (by simp [hf])⟩

/-- A requester without a port has its write ignored and counted (R261). -/
theorem next_opRun_noPort (hf : fastPowered s = true) (hp : opPort r as_ = none) : Next i s (fun t =>
    t.hamper = s.hamper ∧ t.links = s.links ∧ regGet t aDevIgnWr = satAdd32 (regGet s aDevIgnWr) 1) := by
  have he : opRun s r as_ arg f = ignWrite (touchFast s) := by
    unfold opRun
    dsimp only
    rw [if_neg (by simp [hf]), hp]
  refine ⟨_, hx, ?_⟩
  rw [he]
  refine ⟨ignWrite_only.hamper_eq.trans touchFast_only.hamper_eq, ignWrite_only.links_eq.trans touchFast_only.links_eq, ?_⟩
  unfold ignWrite
  rw [regGet_sqcSet_other (by decide), ← touchFast_reg (s := s) (a := aDevIgnWr) (by decide)]
  exact regGet_regPut_same

end

/-! ### The Hamper reads nothing of the arrival -/

section
variable (a : Arrival) (s : State)

theorem Arrival.sameBufs : SameBufs s (a.on s) := fun _ => rfl

theorem Arrival.chainOf_on (b : Nat) : chainOf (a.on s) b = chainOf s b := chainOf_congr (a.sameBufs s) b

theorem Arrival.nextFree_on : nextFree (a.on s) = (nextFree s).map (Prod.map id a.on) := by
  have hbank : bankFree (a.on s) = bankFree s := rfl
  have hfree : bufFree (a.on s) = bufFree s := rfl
  have hturn : (a.on s).hamper.bank = s.hamper.bank := rfl
  unfold nextFree freeWord
  rw [hbank, hfree, hturn]
  cases ((List.range 64).map fun i => (s.hamper.bank + 1 + i) % 64).find? (bankFree s) with
  | none => rfl
  | some k => dsimp only; rw [Option.map_map]; rfl

theorem Arrival.takeBufs_on (n : Nat) (acc : List Nat) : takeBufs n (a.on s) acc = (takeBufs n s acc).map (Prod.map id a.on) := by
  induction n generalizing s acc with
  | zero => rfl
  | succ n ih =>
    unfold takeBufs
    rw [a.nextFree_on]
    cases nextFree s with
    | none => rfl
    | some e => exact ih (bufPut e.2 e.1 { held := true }) (e.1 :: acc)

theorem Arrival.acctTakes_on (c n : Nat) : acctTakes (a.on s) c n = acctTakes s c n := by
  have hshared : sharedFree (a.on s) = sharedFree s := by
    have hlive : acctLive (a.on s) = acctLive s := rfl
    have hborrowed : acctBorrowed (a.on s) = acctBorrowed s := rfl
    have hslices : sliceResSum (a.on s) = sliceResSum s := rfl
    have hrings : (a.on s).hamper.rings = s.hamper.rings := rfl
    unfold sharedFree
    rw [hlive, hborrowed, hslices, hrings]
  have hexcess : (a.on s).hamper.excess = s.hamper.excess := rfl
  have hreserve : acctReserve (a.on s) c = acctReserve s c := rfl
  have hheld : acctHeld (a.on s) c = acctHeld s c := rfl
  unfold acctTakes
  rw [hexcess, hreserve, hheld, hshared]

theorem Arrival.hmpAlloc_isSome (tag n : Nat) : (hmpAlloc (a.on s) tag n).isSome = (hmpAlloc s tag n).isSome := by
  have hacct : acctOf (a.on s) tag = acctOf s tag := rfl
  unfold hmpAlloc
  dsimp only
  rw [hacct, a.acctTakes_on, a.takeBufs_on]
  split
  · rfl
  · cases takeBufs n s [] with
    | none => rfl
    | some e => simp only [Option.map_some, Prod.map, Option.isSome_some]

theorem Arrival.hmpRelease_on (b : Nat) : hmpRelease (a.on s) b = a.on (hmpRelease s b) := by
  unfold hmpRelease
  rw [a.chainOf_on]
  generalize chainOf s b = l
  induction l generalizing s with
  | nil => rfl
  | cons x l ih => exact ih (bufPut s x { bufGet s x with held := false })

theorem Arrival.hmpTransfer_isSome (b tag : Nat) : (hmpTransfer (a.on s) b tag).isSome = (hmpTransfer s b tag).isSome := by
  rw [Machine.hmpTransfer_isSome, Machine.hmpTransfer_isSome, a.hmpRelease_on, a.chainOf_on, a.acctTakes_on]
  rfl

/-- A transmit queue takes or refuses a chain alike (R246). -/
theorem Arrival.enqCode_on (q owner b : Nat) : enqCode (a.on s) q owner b = enqCode s q owner b := by
  have htaint : chainTainted (a.on s) b = chainTainted s b := congrArg (List.any · fun x => (bufGet s x).taint) (a.chainOf_on s b)
  have hfits : (hmpTransfer (a.on s) b (tagQueue q)).isNone = (hmpTransfer s b (tagQueue q)).isNone := by
    rw [← Option.not_isSome, ← Option.not_isSome, a.hmpTransfer_isSome]
  have hqueue : queueGet (a.on s) q = queueGet s q := rfl
  have hheld : queueHeld (a.on s) q = queueHeld s q := rfl
  unfold enqCode
  rw [hqueue, htaint, hfits, hheld, a.chainOf_on]

end

end Sys2Proof.Machine
end

section
set_option Elab.async false

/-! SUPPORT. The operations of the Hamper's port, and the settled statement O35 (R231, R233, R234, R238 to R246). -/

namespace Sys2Proof.Machine

open Host Sys2Proof

/-! ### The result of an operation -/

theorem opGave_opResult (s : State) (p status b : Nat) : OpGave (opResult s p status b) p status b := tblGet_set_same

@[simp] theorem bufGet_opResult (s : State) (p status b x : Nat) : bufGet (opResult s p status b) x = bufGet s x := rfl

@[simp] theorem regGet_opResult (s : State) (p status b x : Nat) : regGet (opResult s p status b) x = regGet s x := rfl

/-- An operation that only gives its result changes no buffer. -/
theorem opResult_refused (s : State) (p status b : Nat) : OpGave (opResult s p status b) p status b ∧ SameBufs s (opResult s p status b) :=
  ⟨opGave_opResult s p status b, fun _ => rfl⟩

theorem SameBufs.trans {s t u : State} (h : SameBufs s t) (k : SameBufs t u) : SameBufs s u := fun x => (k x).trans (h x)

/-! ### `ALLOC` -/

section
variable {s : State} {p tag n : Nat}

theorem opAlloc_bad (h : n = 0 ∨ 36 < n) : opAlloc s p tag n = opResult s p 7 0 := if_pos h

theorem opAlloc_noBuf (h1 : 1 ≤ n) (h2 : n ≤ 36) (h : hmpAlloc s tag n = none) : opAlloc s p tag n = opResult s p 4 0 := by
  unfold opAlloc
  rw [if_neg (by omega), h]

theorem opAlloc_ok (h1 : 1 ≤ n) (h2 : n ≤ 36) {b : Nat} {t : State} (h : hmpAlloc s tag n = some (b, t)) :
    opAlloc s p tag n = opResult t p 0 b := by
  unfold opAlloc
  rw [if_neg (by omega), h]

end

section
variable {s : State} {r : Requester} {as_ p tag n : Nat} (hf : fastPowered s = true) (hp : opPort r as_ = some (p, tag))
include hf hp

theorem next_hmpAlloc (h1 : 1 ≤ n) (h2 : n ≤ 36) (h : (hmpAlloc s tag n).isSome = true) : Next (.hmpAlloc r as_ n) s (fun t =>
    ∃ a, OpGave t p 0 a ∧ isChain t a = true ∧ (bufGet t a).owner = tag ∧ (bufGet t a).count = n ∧ ∀ i, i < 256 → bufByte t a i = 0) := by
  refine next_opRun rfl hf hp fun a _ => ?_
  obtain ⟨⟨b, t⟩, ht⟩ := Option.isSome_iff_exists.1 ((a.hmpAlloc_isSome s tag n).trans h)
  obtain ⟨hchain, howner, hcount, hwv⟩ := hmpAlloc_chain ht h1
  rw [opAlloc_ok h1 h2 ht]
  exact ⟨b, opGave_opResult t p 0 b, hchain, howner, hcount, fun i _ => bufByte_unwritten (s := opResult t p 0 b) hwv i⟩

theorem next_hmpAlloc_noBuf (h1 : 1 ≤ n) (h2 : n ≤ 36) (h : hmpAlloc s tag n = none) :
    Next (.hmpAlloc r as_ n) s (fun t => OpGave t p 4 0 ∧ SameBufs s t) := by
  refine next_opRun rfl hf hp fun a _ => ?_
  have hnone : hmpAlloc (a.on s) tag n = none := by
    rw [← Option.isNone_iff_eq_none, ← Option.not_isSome, a.hmpAlloc_isSome, h]; rfl
  rw [opAlloc_noBuf h1 h2 hnone]
  exact opResult_refused (a.on s) p 4 0

theorem next_hmpAlloc_bad (h : n = 0 ∨ 36 < n) : Next (.hmpAlloc r as_ n) s (fun t => OpGave t p 7 0 ∧ SameBufs s t) := by
  refine next_opRun rfl hf hp fun a _ => ?_
  rw [opAlloc_bad h]
  exact opResult_refused (a.on s) p 7 0

end

/-! ### `FREE` -/

/-- An append writes no register but the counter and the event of a dropped record (R528). -/
theorem tallyPut_reg {s : State} {agent code : Nat} {items : List (Nat × Nat)} {a : Nat} (hd : a ≠ aTlyDropped) (he : a ≠ aTlyEvt) :
    regGet (tallyPut s agent code items) a = regGet s a := by
  have hdrop (u : State) : regGet (tallyDrop u) a = regGet u a :=
    (regGet_congr (s := sqcSet (regAdd u aTlyDropped 1) aTlyEvt 1) rfl a).trans ((regGet_sqcSet_other he).trans (regGet_regPut_other hd))
  have happend (u : State) (x : TallyApp) : regGet (tallyAppend u x) a = regGet u a := by
    unfold tallyAppend
    dsimp only
    split
    · split
      · rfl
      · exact hdrop u
    · split
      · rfl
      · exact hdrop u
  exact happend (agentNext s agent).2 _

/-- A refused `FREE` counts in the register `cnt`, raises an event and writes a record; no buffer changes (R239). -/
def freeRefused (s : State) (cnt bit code : Nat) (items : List (Nat × Nat)) : State :=
  tallyPut (sqcSet (regAdd s cnt 1) aHmpEvt bit) agHamper code items

theorem freeRefused_sameBufs (s : State) (cnt bit code : Nat) (items : List (Nat × Nat)) : SameBufs s (freeRefused s cnt bit code items) :=
  bufGet_congr (tallyPut_only.hamper_eq.trans rfl)

theorem regGet_freeRefused {s : State} {cnt bit code : Nat} {items : List (Nat × Nat)} (hd : cnt ≠ aTlyDropped) (ht : cnt ≠ aTlyEvt)
    (hh : cnt ≠ aHmpEvt) : regGet (freeRefused s cnt bit code items) cnt = satAdd32 (regGet s cnt) 1 :=
  (tallyPut_reg hd ht).trans ((regGet_sqcSet_other hh).trans regGet_regPut_same)

section
variable {s : State} {p tag b : Nat}

theorem opFree_double (h : (bufGet s b).held = false) : opFree s p tag b =
    opResult (freeRefused s aHmpDfree 2 0x0E80 [(8, tag), (9, b), (2, tagSliceOf s tag)]) p 1 b :=
  if_pos (by simp [h])

theorem opFree_foreign (hc : isChain s b = true) (ho : (bufGet s b).owner ≠ tag) : opFree s p tag b =
    opResult (freeRefused s aHmpFfree 3 0x0E81 [(8, tag), (9, b), (0x0E, (bufGet s b).owner)]) p 2 b := by
  obtain ⟨hheld, hfirst⟩ := isChain_iff.1 hc
  exact (if_neg (by simp [hheld])).trans ((if_neg (by simp [hfirst])).trans (if_pos ho))

theorem opFree_ok (hc : isChain s b = true) (ho : (bufGet s b).owner = tag) : opFree s p tag b = opResult (hmpRelease s b) p 0 b := by
  obtain ⟨hheld, hfirst⟩ := isChain_iff.1 hc
  exact (if_neg (by simp [hheld])).trans ((if_neg (by simp [hfirst])).trans (if_neg (by simp [ho])))

end

section
variable {s : State} {r : Requester} {as_ p tag b : Nat} (hf : fastPowered s = true) (hp : opPort r as_ = some (p, tag))
include hf hp

theorem next_hmpFree (hc : isChain s b = true) (ho : (bufGet s b).owner = tag) : Next (.hmpFree r as_ b) s (fun t => OpGave t p 0 b ∧
    (∀ x, x ∈ chainOf s b → (bufGet t x).held = false) ∧ ∀ x, x ∉ chainOf s b → bufGet t x = bufGet s x) := by
  refine next_opRun rfl hf hp fun a _ => ?_
  rw [opFree_ok (s := a.on s) hc ho]
  have hbufs (x : Nat) := bufGet_hmpRelease (a.on s) b x
  simp only [a.chainOf_on] at hbufs
  exact ⟨opGave_opResult _ p 0 b, fun x hx => by rw [bufGet_opResult, hbufs, if_pos hx],
    fun x hx => by rw [bufGet_opResult, hbufs, if_neg hx]; rfl⟩

/-- What a refused `FREE` leaves, by its counter. -/
theorem next_hmpFree_refused {status cnt bit code : Nat} {items : Arrival → List (Nat × Nat)} (hd : cnt ≠ aTlyDropped)
    (ht : cnt ≠ aTlyEvt) (hh : cnt ≠ aHmpEvt) (hm : cnt ≠ aPwrState)
    (h : ∀ a : Arrival, opFree (a.on s) p tag b = opResult (freeRefused (a.on s) cnt bit code (items a)) p status b) :
    Next (.hmpFree r as_ b) s (fun t => OpGave t p status b ∧ SameBufs s t ∧ regGet t cnt = satAdd32 (regGet s cnt) 1) := by
  refine next_opRun rfl hf hp fun a hregs => ?_
  rw [h a, regGet_opResult, regGet_freeRefused hd ht hh, hregs cnt hm]
  exact ⟨opGave_opResult _ p status b, (a.sameBufs s).trans (freeRefused_sameBufs (a.on s) cnt bit code (items a)), rfl⟩

theorem next_hmpFree_foreign (hc : isChain s b = true) (ho : (bufGet s b).owner ≠ tag) : Next (.hmpFree r as_ b) s (fun t =>
    OpGave t p 2 b ∧ SameBufs s t ∧ regGet t aHmpFfree = satAdd32 (regGet s aHmpFfree) 1) :=
  next_hmpFree_refused hf hp (by decide) (by decide) (by decide) (by decide) fun a => opFree_foreign (s := a.on s) hc ho

theorem next_hmpFree_double (h : (bufGet s b).held = false) : Next (.hmpFree r as_ b) s (fun t =>
    OpGave t p 1 b ∧ SameBufs s t ∧ regGet t aHmpDfree = satAdd32 (regGet s aHmpDfree) 1) :=
  next_hmpFree_refused hf hp (by decide) (by decide) (by decide) (by decide) fun a => opFree_double (s := a.on s) h

end

/-! ### `SETLEN` -/

section
variable {s : State} {p tag b n : Nat} (hc : isChain s b = true)
include hc

theorem opSetlen_foreign (ho : (bufGet s b).owner ≠ tag) : opSetlen s p tag b n = opResult s p 2 b :=
  (if_neg (by simp [hc])).trans (if_pos ho)

theorem opSetlen_ok (ho : (bufGet s b).owner = tag) (h1 : n ≤ 9216) (h2 : n ≤ 256 * (bufGet s b).count) :
    opSetlen s p tag b n = opResult (chainSetLen s b n) p 0 b :=
  (if_neg (by simp [hc])).trans ((if_neg (by simp [ho])).trans (if_neg (by omega)))

end

section
variable {s : State} {r : Requester} {as_ p tag b n : Nat} (hf : fastPowered s = true) (hp : opPort r as_ = some (p, tag))
  (hc : isChain s b = true)
include hf hp hc

theorem next_hmpSetlen (ho : (bufGet s b).owner = tag) (h1 : n ≤ 9216) (h2 : n ≤ 256 * (bufGet s b).count) :
    Next (.hmpSetlen r as_ b n) s (fun t => OpGave t p 0 b ∧ bufGet t b = { bufGet s b with length := n } ∧
      ∀ x, x ≠ b → bufGet t x = bufGet s x) := by
  refine next_opRun rfl hf hp fun a _ => ?_
  rw [opSetlen_ok (s := a.on s) hc ho h1 h2]
  exact ⟨opGave_opResult _ p 0 b, bufGet_bufPut_same, fun x hx => bufGet_bufPut_other hx⟩

theorem next_hmpSetlen_foreign (ho : (bufGet s b).owner ≠ tag) :
    Next (.hmpSetlen r as_ b n) s (fun t => OpGave t p 2 b ∧ SameBufs s t) := by
  refine next_opRun rfl hf hp fun a _ => ?_
  rw [opSetlen_foreign (s := a.on s) hc ho]
  exact opResult_refused (a.on s) p 2 b

end

/-! ### `ENQ` -/

theorem queueGet_congr {s t : State} (h : t.links = s.links) (q : Nat) : queueGet t q = queueGet s q := by
  unfold queueGet; rw [h]

/-- The counter that a frame takes is the queue's, which advances by one; the lists and the keys of the queue stand (R274). -/
theorem takeCtr_queue (s : State) (q : Nat) (x : Queue) : (takeCtr s q x).1 = x.txCtr ∧ (takeCtr s q x).2.1.txCtr = x.txCtr + 1 ∧
    (takeCtr s q x).2.1.txList = x.txList ∧ (takeCtr s q x).2.1.present = x.present := by
  unfold takeCtr leaseCtr
  dsimp only
  split <;> exact ⟨rfl, rfl, rfl, rfl⟩

/-- A chain that a queue takes moves its charge there, and its frame enters the transmit list with the queue's counter; only that record of the
links changes (R246, R274). -/
theorem enqChain_frame {s s1 : State} {q b app : Nat} {x : Queue} {k : KeyReg} (ht : hmpTransfer s b (tagQueue q) = some s1)
    (hq : queueGet s q = some x) (hk : x.present = some k) : ∃ v y f, v.links = s.links ∧ enqChain s q b app = queuePut v q y ∧
      y.txCtr = x.txCtr + 1 ∧ y.txList = x.txList ++ [f] ∧ f.chain = some b ∧ f.ctr = x.txCtr := by
  have h1 : s1.links = s.links := (hmpTransfer_only ht).links_eq
  have h2 : (takeCtr s1 q x).2.2.links = s.links := takeCtr_only.links_eq.trans h1
  obtain ⟨hn, hctr, hlist, hkey⟩ := takeCtr_queue s1 q x
  have data (v : State) (app : Nat) (stamp : Stamp) (cmd : Option Nat) (jseq : Nat) (plain : List Byte) (hv : v.links = s.links) :
      ∃ v' y f, v'.links = s.links ∧ txData v q (takeCtr s1 q x).2.1 (takeCtr s1 q x).1 app stamp (some b) cmd jseq plain = queuePut v' q y ∧
        y.txCtr = x.txCtr + 1 ∧ y.txList = x.txList ++ [f] ∧ f.chain = some b ∧ f.ctr = x.txCtr := by
    unfold txData
    rw [hkey, hk]
    exact ⟨v, _, _, hv, rfl, hctr, congrArg (· ++ _) hlist, rfl, hn⟩
  unfold enqChain
  rw [ht]
  dsimp only
  rw [queueGet_congr h1, hq]
  dsimp only
  split
  · split
    · exact data _ _ _ _ _ _ (seamEvent_only.links_eq.trans (regAdd_only.links_eq.trans h2))
    · exact data _ _ _ _ _ _ (jotStream_only.links_eq.trans h2)
  · exact data _ _ _ _ _ _ h2

/-- A queue that takes a chain can take its charge (R246). -/
theorem hmpTransfer_of_enqCode {s : State} {q owner b : Nat} (h : enqCode s q owner b = 0) :
    ∃ t, hmpTransfer s b (tagQueue q) = some t := by
  cases ht : hmpTransfer s b (tagQueue q) with
  | some t => exact ⟨t, rfl⟩
  | none =>
    simp only [enqCode, ht, Option.isNone_none, if_true] at h
    split at h
    · cases h
    · split_ifs at h

section
variable {s : State} {p tag b q : Nat} (hc : isChain s b = true) (hq : q ≤ 8191)
include hc hq

theorem opEnq_foreign (ho : (bufGet s b).owner ≠ tag) : opEnq s p tag b q = opResult s p 2 b :=
  (if_neg (by simp [hc, hq])).trans (if_pos ho)

theorem opEnq_ok (ho : (bufGet s b).owner = tag) (hk : tag / 8192 ≠ 4) (h : enqCode s q (tagOwner s tag) b = 0) :
    opEnq s p tag b q = opResult (enqChain s q b 0) p 0 b := by
  refine (if_neg (by simp [hc, hq])).trans ((if_neg (by simp [ho])).trans ?_)
  rw [if_neg hk, h]
  rfl

end

section
variable {s : State} {r : Requester} {as_ p tag b q : Nat} (hf : fastPowered s = true) (hp : opPort r as_ = some (p, tag))
  (hc : isChain s b = true) (hq : q ≤ 8191)
include hf hp hc hq

theorem next_hmpEnq {x : Queue} {k : KeyReg} (ho : (bufGet s b).owner = tag) (ht : tag / 8192 ≠ 4)
    (h : enqCode s q (tagOwner s tag) b = 0) (hx : queueGet s q = some x) (hk : x.present = some k) :
    Next (.hmpEnq r as_ b q) s (fun t => OpGave t p 0 b ∧ OtherQueues s t q ∧ ∃ y f, queueGet t q = some y ∧
      y.txCtr = x.txCtr + 1 ∧ y.txList = x.txList ++ [f] ∧ f.chain = some b ∧ f.ctr = x.txCtr) := by
  refine next_opRun rfl hf hp fun a _ => ?_
  have h' : enqCode (a.on s) q (tagOwner (a.on s) tag) b = 0 := (a.enqCode_on s q _ b).trans h
  obtain ⟨s1, hs1⟩ := hmpTransfer_of_enqCode h'
  obtain ⟨v, y, f, hv, he, hframe⟩ := enqChain_frame (app := 0) hs1 (s := a.on s) hx hk
  rw [opEnq_ok (s := a.on s) hc hq ho ht h', he]
  exact ⟨opGave_opResult _ p 0 b, fun w hw => (queueGet_queuePut_other hw).trans (queueGet_congr hv w), y, f, queueGet_queuePut_same, hframe⟩

theorem next_hmpEnq_foreign (ho : (bufGet s b).owner ≠ tag) :
    Next (.hmpEnq r as_ b q) s (fun t => OpGave t p 2 b ∧ t.links = s.links ∧ SameBufs s t) := by
  refine next_opRun rfl hf hp fun a _ => ?_
  rw [opEnq_foreign (s := a.on s) hc hq ho]
  exact ⟨opGave_opResult _ p 2 b, rfl, fun _ => rfl⟩

end

/-! ### `DEQ` -/

section
variable {s : State} {r : Requester} {p tag q : Nat} {x : Queue} (hx : queueGet s q = some x)
include hx

theorem opDeq_notMine (h : x.dest ≠ 1 ∨ r ≠ .core x.core) : opDeq s r p tag q = opResult s p 2 0 := by
  unfold opDeq
  rw [hx]
  exact if_pos h

theorem opDeq_ok {f : RxFrame} {more : List RxFrame} {u : State} (hd : x.dest = 1) (hr : r = .core x.core) (hl : x.rxList = f :: more)
    (hrel : seamReleased s f.jseq = true) (hu : hmpTransfer s f.chain tag = some u) :
    opDeq s r p tag q = opResult (queuePut u q { x with rxList := more }) p 0 f.chain := by
  unfold opDeq
  rw [hx]
  dsimp only
  rw [if_neg (by simp [hd, hr]), hl]
  dsimp only
  rw [if_neg (by simp [hrel]), hu]

end

section
variable {s : State} {r : Requester} {as_ p tag q : Nat} {x : Queue} (hf : fastPowered s = true) (hp : opPort r as_ = some (p, tag))
  (hx : queueGet s q = some x)
include hf hp hx

theorem next_hmpDeq {f : RxFrame} {more : List RxFrame} (hd : x.dest = 1) (hr : r = .core x.core) (hl : x.rxList = f :: more)
    (hrel : seamReleased s f.jseq = true) (hu : (hmpTransfer s f.chain tag).isSome = true) :
    Next (.hmpDeq r as_ q) s (fun t => OpGave t p 0 f.chain ∧ queueGet t q = some { x with rxList := more } ∧ OtherQueues s t q ∧
      ∀ b, b ∈ chainOf s f.chain → (bufGet t b).owner = tag) := by
  refine next_opRun rfl hf hp fun a _ => ?_
  obtain ⟨u, hu'⟩ := Option.isSome_iff_exists.1 ((a.hmpTransfer_isSome s f.chain tag).trans hu)
  have hlinks : u.links = s.links := (hmpTransfer_only hu').links_eq
  rw [opDeq_ok (s := a.on s) hx hd hr hl hrel hu']
  exact ⟨opGave_opResult _ p 0 f.chain, queueGet_queuePut_same, fun w hw => (queueGet_queuePut_other hw).trans (queueGet_congr hlinks w),
    fun b hb => show (bufGet u b).owner = tag from hmpTransfer_owner hu' (by rwa [a.chainOf_on])⟩

theorem next_hmpDeq_notMine (h : x.dest ≠ 1 ∨ r ≠ .core x.core) :
    Next (.hmpDeq r as_ q) s (fun t => OpGave t p 2 0 ∧ t.links = s.links ∧ SameBufs s t) := by
  refine next_opRun rfl hf hp fun a _ => ?_
  rw [opDeq_notMine (s := a.on s) hx h]
  exact ⟨opGave_opResult _ p 2 0, rfl, fun _ => rfl⟩

end

/-! ### The settled statement -/

/-- Settles O35, by who reaches the port: no one without power, else each operation by what it finds of the chain, its owner and the queue;
a requester without a port has its write ignored. -/
theorem hamperOperations : Obligations.HamperOperations := by
  intro r as_ s
  refine ⟨fun hf n b q => ?unpowered, fun p tag hf hp => ?port, fun hf hp n b q => ?noPort⟩
  case unpowered =>
    exact ⟨next_opRun_unpowered rfl hf, next_opRun_unpowered rfl hf, next_opRun_unpowered rfl hf, next_opRun_unpowered rfl hf,
      next_opRun_unpowered rfl hf⟩
  case port =>
    exact ⟨fun n b u h1 h2 h => next_hmpAlloc hf hp h1 h2 (by rw [h]; rfl), fun n h1 h2 h => next_hmpAlloc_noBuf hf hp h1 h2 h,
      fun n h => next_hmpAlloc_bad hf hp h, fun b hc ho => next_hmpFree hf hp hc ho, fun b hc ho => next_hmpFree_foreign hf hp hc ho,
      fun b h => next_hmpFree_double hf hp h, fun b n hc ho h1 h2 => next_hmpSetlen hf hp hc ho h1 h2,
      fun b n hc ho => next_hmpSetlen_foreign hf hp hc ho, fun b q x k hc ho hq ht h hx hk => next_hmpEnq hf hp hc hq ho ht h hx hk,
      fun b q hc ho hq => next_hmpEnq_foreign hf hp hc hq ho,
      fun q x f more u hx hd hr hl hrel hu => next_hmpDeq hf hp hx hd hr hl hrel (by rw [hu]; rfl),
      fun q x hx h => next_hmpDeq_notMine hf hp hx h⟩
  case noPort =>
    exact ⟨(next_opRun_noPort rfl hf hp).mono fun _ ⟨hh, _, hc⟩ => ⟨hh, hc⟩, (next_opRun_noPort rfl hf hp).mono fun _ ⟨hh, _⟩ => hh,
      (next_opRun_noPort rfl hf hp).mono fun _ ⟨hh, hl, _⟩ => ⟨hh, hl⟩, (next_opRun_noPort rfl hf hp).mono fun _ ⟨hh, hl, _⟩ => ⟨hh, hl⟩,
      (next_opRun_noPort rfl hf hp).mono fun _ ⟨hh, _⟩ => hh⟩

end Sys2Proof.Machine
end

section
set_option Elab.async false

/-! SUPPORT. The states of a field port's link: its reset, its training and its faults (R235, R264, R265, R267, R302). -/

namespace Sys2Proof.Machine

open Host Sys2Proof

/-- What every step of a fold leaves, the fold leaves. -/
theorem foldl_keeps {α β : Type} {g : State → α → State} {r : State → β} (h : ∀ u x, r (g u x) = r u) (l : List α) (s : State) :
    r (l.foldl g s) = r s := by
  induction l generalizing s with
  | nil => rfl
  | cons x l ih => exact (ih (g s x)).trans (h s x)

/-! ### Buffers that a port draws -/

theorem portGet_portReady (s : State) (p r : Nat) : portGet (portReady s p) r = portGet s r := portGet_congr portReady_only.links_eq r

theorem poolNote_reg (a b : State) {x : Nat} (h : x ≠ aHmpEvt) : regGet (poolNote a b) x = regGet b x := by
  have event (u : State) (i : Nat) (c : Prop) [Decidable c] : regGet (if c then sqcSet u aHmpEvt i else u) x = regGet u x := by
    split
    · exact regGet_sqcSet_other h
    · rfl
  exact (event _ 1 _).trans (event b 0 _)

theorem hmpAlloc_reg {s t : State} {tag n b x : Nat} (ha : hmpAlloc s tag n = some (b, t)) (h : x ≠ aHmpEvt) : regGet t x = regGet s x := by
  unfold hmpAlloc at ha
  dsimp only at ha
  split at ha
  · cases ha
  · split at ha
    · cases ha
    · rename_i hb
      cases ha
      exact (poolNote_reg _ _ h).trans ((regGet_congr linkChain_only.regs_eq x).trans (regGet_congr (takeBufs_only hb).regs_eq x))

theorem portRefill_reg (s : State) (p : Nat) {x : Nat} (h : x ≠ aHmpEvt) : regGet (portRefill s p) x = regGet s x := by
  refine foldl_keeps (r := (regGet · x)) (fun u _ => ?_) _ s
  split
  · rfl
  · split
    · rename_i ha
      exact hmpAlloc_reg ha h
    · rfl

/-- The prefetch of a port writes no register but the events of the pool (R235, R261). -/
theorem portReady_reg (s : State) (p : Nat) {x : Nat} (h : x ≠ aHmpEvt) : regGet (portReady s p) x = regGet s x := by
  unfold portReady
  split
  · exact portRefill_reg s p h
  · rfl

/-! ### Events of a port -/

theorem bitOf_lnkEvent (s : State) (p : Nat) {i : Nat} (h : i < 24) : bitOf (regGet (lnkEvent s p i) (aLnk p 8)) i = true := by
  unfold lnkEvent
  rw [regGet_sqcSet_same, bitOf_sqcWord h h]
  simp

theorem portGet_lnkEvent (s : State) (p i r : Nat) : portGet (lnkEvent s p i) r = portGet s r := rfl

theorem portGet_lnkCount (s : State) (p i r : Nat) : portGet (lnkCount s p i) r = portGet s r := rfl

/-! ### The rows -/

section
variable {s : State} {p : Nat}

/-- A port that is forced idle; no other port is touched (R267). -/
theorem portIdle_forced (h : (portGet s p).mode ≠ .disabled) : (portGet (portIdle s p) p).mode = .idleForced ∧
    (portGet (portIdle s p) p).idleAt = s.time.clk ∧ ∀ r, r ≠ p → portGet (portIdle s p) r = portGet s r := by
  unfold portIdle
  dsimp only
  rw [if_neg h, portGet_portPut_same]
  refine ⟨rfl, rfl, fun r hr => (portGet_portPut_other hr).trans ?_⟩
  split <;> rfl

theorem portIdle_disabled (h : (portGet s p).mode = .disabled) : portIdle s p = s := if_pos h

theorem next_portReset (h : (portGet s p).mode ≠ .disabled) (hv : s.pwr.vault = false) :
    Next (.portReset p) s (fun t => (portGet t p).mode = .idleForced ∧ (portGet t p).idleAt = s.time.clk ∧
      ∀ r, r ≠ p → portGet t r = portGet s r) :=
  next_of (congrArg Host.Outcome.next (if_neg (by simp [hv]))) (portIdle_forced h)

theorem next_portReset_refused (h : (portGet s p).mode = .disabled ∨ s.pwr.vault = true) : Next (.portReset p) s (fun t => t = s) := by
  refine ⟨_, rfl, ?_⟩
  split
  · rfl
  · rename_i hv
    exact portIdle_disabled (h.resolve_right hv)

theorem next_portLinkUp {rem : Bool} (hp : p < 256) (hm : (portGet s p).mode = .training ∨ (portGet s p).mode = .down)
    (he : bitOf (regGet s (aLnk p 4)) 31 = true) (h3 : pwrMode s ≠ 3) (hv : s.pwr.vault = false) :
    Next (.portLinkUp p rem) s (fun t => (portGet t p).mode = .up ∧ (portGet t p).remote = rem ∧ bitOf (regGet t (aLnk p 8)) 0 = true) := by
  refine next_of (congrArg Host.Outcome.next (if_pos ⟨hm, he, h3, by simp [hv]⟩)) ?_
  rw [portGet_portReady, portGet_lnkEvent, portGet_portPut_same, portReady_reg _ _ (by unfold aLnk aHmpEvt; omega)]
  exact ⟨rfl, rfl, bitOf_lnkEvent _ p (by decide)⟩

theorem next_portLinkDown {loc rem : Bool} (hm : (portGet s p).mode = .up) :
    Next (.portLinkDown p loc rem) s (fun t => (portGet t p).mode = .down ∧ (portGet t p).localF = loc ∧ (portGet t p).remote = rem ∧
      bitOf (regGet t (aLnk p 8)) 1 = true) := by
  refine next_of (congrArg Host.Outcome.next (if_pos hm)) ?_
  rw [portGet_lnkEvent, portGet_lnkCount, portGet_portPut_same]
  exact ⟨rfl, rfl, rfl, bitOf_lnkEvent _ p (by decide)⟩

theorem next_portIdleForcedEnd (hm : (portGet s p).mode = .idleForced) (ht : (portGet s p).idleAt + cycMs ≤ s.time.clk) :
    Next (.portIdleForcedEnd p) s (fun t => (portGet t p).mode = .training) :=
  next_of (congrArg Host.Outcome.next (if_pos ⟨hm, ht⟩)) (by rw [portGet_portPut_same])

end

end Sys2Proof.Machine
end

section
set_option Elab.async false

/-! SUPPORT. An alarm frame that a port sends, and a payload that reaches its receive ring (R244, R275, R287). -/

namespace Sys2Proof.Machine

open Host Sys2Proof

/-! ### Frames that leave -/

/-- Whether a port is up is read from the links, the power state and VAULT. -/
theorem portUp_congr {s t : State} (hl : t.links = s.links) (hv : t.pwr.vault = s.pwr.vault)
    (hm : pwrMode t = 3 ↔ pwrMode s = 3) (p : Nat) : portUp t p = portUp s p := by
  unfold portUp
  rw [portGet_congr hl, hv]
  simp [hm]

section
variable {p : Nat} (hp : p < 256)
include hp

theorem pwrMode_sendFrame (s : State) (cls : Nat) (peer : Peer) (body : List Byte) : pwrMode (sendFrame s p cls peer body) = pwrMode s := by
  have hne (k : Nat) : aPwrState ≠ aLnk p k := by unfold aLnk aPwrState; omega
  refine pwrMode_congr ?_
  unfold sendFrame
  split
  · refine (regGet_congr (emit_regs _ _) _).trans ?_
    rw [lnkAdd64_reg (hne _) (hne _), lnkAdd64_reg (hne _) (hne _)]
  · rfl

theorem portUp_sendFrame (s : State) (cls : Nat) (peer : Peer) (body : List Byte) : portUp (sendFrame s p cls peer body) p = portUp s p :=
  portUp_congr sendFrame_only.links_eq (congrArg PwrState.vault sendFrame_only.pwr_eq) (by rw [pwrMode_sendFrame hp]) p

omit hp in
theorem sendFrame_out {s : State} (hu : portUp s p = true) (cls : Nat) (peer : Peer) (body : List Byte) :
    (sendFrame s p cls peer body).out.length = s.out.length + 1 := by
  unfold sendFrame
  rw [if_pos hu]
  exact congrArg (·.length + 1) ((lnkAdd64_only (off := 0x118)).out_eq.trans lnkAdd64_only.out_eq)

/-- Every repetition of a frame leaves on a port that is up (R275). -/
theorem sendFrames_out {s : State} (hu : portUp s p = true) (l : List Nat) (cls : Nat) (peer : State → Peer) (body : List Byte) :
    (l.foldl (fun s _ => sendFrame s p cls (peer s) body) s).out.length = s.out.length + l.length := by
  induction l generalizing s with
  | nil => rfl
  | cons n l ih =>
    rw [List.foldl_cons, ih ((portUp_sendFrame hp s cls (peer s) body).trans hu), sendFrame_out hu, List.length_cons]
    omega

end

/-- What a sent frame leaves behind: its queue counts it where it is the first transmission; nothing leaves, and no other record of the links
changes. -/
theorem txSent_queue {s : State} {q times : Nat} {x : Queue} (f : TxFrame) (hx : queueGet s q = some x) :
    ∃ v y, v.links = s.links ∧ v.out = s.out ∧ txSent s q f times = queuePut v q y ∧ y.sent = x.sent + (if f.sent = 0 then 1 else 0) := by
  have freed : ∀ c : Prop, [Decidable c] → (if c then s else txFree s f).links = s.links ∧ (if c then s else txFree s f).out = s.out := by
    intro c _
    split
    · exact ⟨rfl, rfl⟩
    · exact ⟨txFree_only.links_eq, txFree_only.out_eq⟩
  have counted : ∀ (c : Prop) [Decidable c] (u : State),
      (if c then u else lnkCount u x.port 0x154).links = u.links ∧ (if c then u else lnkCount u x.port 0x154).out = u.out := by
    intro c _ u
    split <;> exact ⟨rfl, rfl⟩
  unfold txSent
  rw [hx]
  refine ⟨_, _, (counted _ _).1.trans (freed _).1, (counted _ _).2.trans (freed _).2, rfl, ?_⟩
  by_cases h : f.sent = 0 <;> simp [h, b2n]

/-- A queue sends its next frame, `times` in a row, and no other record of the links changes. -/
theorem txServe_queue {s : State} {p q times : Nat} {x : Queue} {f : TxFrame} (hp : p < 256) (hu : portUp s p = true)
    (hx : queueGet s q = some x) (hf : txNext s x = some f) :
    ∃ v y, v.links = s.links ∧ v.out.length = s.out.length + times ∧ txServe s p q times = queuePut v q y ∧
      y.sent = x.sent + (if f.sent = 0 then 1 else 0) := by
  have hl : ((List.range times).foldl (fun s _ => sendFrame s p x.cls (queuePeer s x) f.bytes) s).links = s.links :=
    foldl_keeps (r := State.links) (fun _ _ => sendFrame_only.links_eq) _ s
  have hx' := (queueGet_congr hl q).trans hx
  obtain ⟨v, y, hv, ho, he, hy⟩ := txSent_queue (times := times) f hx'
  refine ⟨v, y, hv.trans hl, ?_, ?_, hy⟩
  · rw [ho, sendFrames_out hp hu (List.range times) x.cls (queuePeer · x) f.bytes, List.length_range]
  · unfold txServe
    rw [hx]
    dsimp only
    rw [hf]
    exact he

section
variable {s : State} {p : Nat}

/-- The queue that the scheduler serves first: an `ALARM` queue in its rotation (R244). -/
theorem next_frameTransmitted_alarm {q : Nat} {x : Queue} {f : TxFrame} (hp : p < 256) (hu : portUp s p = true)
    (hq : (rotate (portGet s p).lastA (tblKeys (fun y => txQueueReady s p y && y.cls == 0) s.links.queues)).head? = some q)
    (hx : queueGet s q = some x) (hf : txNext s x = some f) : Next (.frameTransmitted p) s (fun t =>
      (portGet t p).lastA = q ∧ t.out.length = s.out.length + x.repeats ∧ OtherQueues s t q ∧
      ∃ y, queueGet t q = some y ∧ y.sent = x.sent + (if f.sent = 0 then 1 else 0)) := by
  have hup : portUp (portPut s p { portGet s p with lastA := q }) p = true := by
    unfold portUp at hu ⊢
    rw [portGet_portPut_same]
    exact hu
  obtain ⟨v, y, hv, ho, he, hy⟩ := txServe_queue (times := x.repeats) (q := q) (x := x) (f := f) hp hup hx hf
  refine next_of (t := queuePut v q y) ?_ ⟨?_, ho, ?_, y, queueGet_queuePut_same, hy⟩
  · rw [← he]
    refine congrArg Host.Outcome.next ((if_neg (by simp [hu])).trans ?_)
    dsimp only
    rw [hq]
    exact congrArg (txServe _ p q) (by rw [hx]; rfl)
  · show (portGet v p).lastA = q
    rw [portGet_congr hv, portGet_portPut_same]
  · exact fun r hr => (queueGet_queuePut_other hr).trans (queueGet_congr (s := portPut s p _) hv r)

/-- Where no queue of the port is ready, none of a class is, and nothing leaves. -/
theorem next_frameTransmitted_idle (h : tblKeys (fun y => txQueueReady s p y) s.links.queues = []) :
    Next (.frameTransmitted p) s (fun t => t = s) := by
  have hnone (c : Queue → Bool) : tblKeys (fun y => txQueueReady s p y && c y) s.links.queues = [] := by
    simp only [tblKeys, List.map_eq_nil_iff, List.filter_eq_nil_iff] at h ⊢
    exact fun e he hc => h e he (Bool.and_eq_true_iff.1 hc).1
  refine next_of (t := s) (congrArg Host.Outcome.next ?_) rfl
  split
  · rfl
  · dsimp only
    rw [hnone, hnone, hnone]
    rfl

end

/-! ### A payload that is delivered -/

/-- The oldest frame of a queue is written to the next free slot of its receive ring, with its completion (R287). -/
theorem deliverTry_queue {s : State} {q : Nat} {x : Queue} {f : RxFrame} {more : List RxFrame} (hx : queueGet s q = some x)
    (hl : x.rxList = f :: more) (hd : x.dest = 0) (hh : hostSilent s = false) (hr : seamReleased s f.jseq = true)
    (hm : (sliceGet s x.slice).mode = .active) (hf : f.payload.length ≤ 2 ^ x.rxSize) (hc : cqRoom s x.slice x.rxCq = true)
    (ho : x.rxOut.length < 2 ^ x.rxSlots) (hn : fnLive s (sliceGet s x.slice).port = true) :
    ∃ v e, v.links = s.links ∧ (deliverTry s q true).links = (queuePut v q { x with
      rxList := more, rxNext := (x.rxNext + 1) % 2 ^ x.rxSlots, rxOut := x.rxOut ++ [e] }).links := by
  unfold deliverTry
  rw [hx]
  dsimp only
  rw [hl]
  dsimp only
  rw [if_neg (by simp [hd]), if_neg (by simp [hd, hh, hr, hm]), if_neg (by omega), if_neg (by simp [hc, ho]), if_neg (by simp [hn])]
  exact ⟨_, _, hostWrite_only.links_eq.trans (hmpRelease_only.links_eq.trans retryDel_only.links_eq), cqWrite_only.links_eq⟩

theorem next_receiveDelivery {s : State} {q : Nat} {x : Queue} {f : RxFrame} {more : List RxFrame} (hx : queueGet s q = some x)
    (hl : x.rxList = f :: more) (hd : x.dest = 0) (hh : hostSilent s = false) (hr : seamReleased s f.jseq = true)
    (hm : (sliceGet s x.slice).mode = .active) (hf : f.payload.length ≤ 2 ^ x.rxSize) (hc : cqRoom s x.slice x.rxCq = true)
    (ho : x.rxOut.length < 2 ^ x.rxSlots) (hn : fnLive s (sliceGet s x.slice).port = true)
    (hw : retryOf s (.cqWrite x.slice x.rxCq) = none) :
    Next (.receiveDelivery q true) s (fun t => OtherQueues s t q ∧ ∃ y, queueGet t q = some y ∧ y.rxList = more ∧
      y.rxNext = (x.rxNext + 1) % 2 ^ x.rxSlots ∧ y.rxOut.length = x.rxOut.length + 1) := by
  obtain ⟨v, e, hv, he⟩ := deliverTry_queue hx hl hd hh hr hm hf hc ho hn
  refine next_of (congrArg Host.Outcome.next (if_neg (by simp [hx, hw]))) ⟨fun r hne => ?_, _,
    (queueGet_congr he q).trans queueGet_queuePut_same, rfl, rfl, List.length_append⟩
  rw [queueGet_congr he, queueGet_queuePut_other hne, queueGet_congr hv]

end Sys2Proof.Machine
end

section
set_option Elab.async false

/-! SUPPORT. A frame that arrives on a port off its hold ring: the state in which it is checked, and what the checks 5 to 9 of R276 do with it
(R157, R235, R276). -/

namespace Sys2Proof.Machine

open Host Sys2Proof

/-! ### The state in which a frame is checked -/

/-- The state in which a frame that arrived on port `p` is checked: WARM has ended, and the frame is counted (Table 2-5, R302). -/
def frameRead (s : State) (p : Nat) (f : List Byte) : State := rxCount (touchFast s) p f

theorem frameRead_only (s : State) (p : Nat) (f : List Byte) : Only 1048600 s (frameRead s p f) := rxCount_only.step rfl touchFast_only

/-- The configuration of the port reads as before. -/
theorem frameRead_reg (s : State) {p k : Nat} (f : List Byte) (h : k < 0x100) : regGet (frameRead s p f) (aLnk p k) = regGet s (aLnk p k) :=
  (rxCount_reg (by unfold aLnk; omega)).trans (touchFast_reg (by unfold aLnk aPwrState; omega))

/-- A failing frame's counters start from what they held. -/
theorem frameRead_fcs (s : State) (p : Nat) (f : List Byte) : regGet (frameRead s p f) (aLnk p 0x120) = regGet s (aLnk p 0x120) := by
  have hne {k : Nat} (h : k ≠ 0x120) : aLnk p 0x120 ≠ aLnk p k := by unfold aLnk; omega
  unfold frameRead rxCount
  rw [lnkAdd64_reg (hne (by decide)) (hne (by decide)), lnkAdd64_reg (hne (by decide)) (hne (by decide)),
    touchFast_reg (by unfold aLnk aPwrState; omega)]

/-- To the Hamper the frame's arrival is like that of an operation: it reads nothing of what has changed. -/
theorem frameRead_on (s : State) (p : Nat) (f : List Byte) : ∃ a : Arrival, frameRead s p f = a.on s := by
  obtain ⟨w, g, r, ht⟩ := touchFast_eq s
  unfold frameRead
  rw [ht]
  exact ⟨⟨w, _, r, s.hamper.opArg⟩, rfl⟩

/-! ### The checks 3 and 4, and the chain of a frame -/

section
variable {s t : State} {p : Nat} (hr : regGet t (aLnk p 4) = regGet s (aLnk p 4))
include hr

theorem portEncap_congr : portEncap t p = portEncap s p := by unfold portEncap regField; rw [hr]

theorem ffpHdrOk_congr (h : FfpHdr) : ffpHdrOk t p h = ffpHdrOk s p h := by
  have hover : portOverhead t p = portOverhead s p := by
    unfold portOverhead portVlan
    rw [portEncap_congr hr, hr]
  unfold ffpHdrOk
  rw [hover]

theorem classify_congr (hl : t.links = s.links) (hs : t.seam = s.seam) (h : FfpHdr) : classify t p h = classify s p h := by
  have haddr : peerAddr t p = peerAddr s p := by unfold peerAddr; rw [portEncap_congr hr]
  have hpeer : queuePeer t = queuePeer s := by unfold queuePeer; rw [hs]
  have hrule : ruleMatches t p h = ruleMatches s p h := by unfold ruleMatches; rw [portEncap_congr hr]
  unfold classify
  rw [queueGet_congr hl, haddr, hpeer, hrule, hl]

end

theorem Arrival.unhold_on (a : Arrival) (s : State) (l : List Nat) :
    l.foldl (fun s b => bufPut s b { bufGet s b with held := false }) (a.on s) =
      a.on (l.foldl (fun s b => bufPut s b { bufGet s b with held := false }) s) := by
  induction l generalizing s with
  | nil => rfl
  | cons b l ih => exact ih (bufPut s b { bufGet s b with held := false })

/-- A frame finds its buffers alike (R235). -/
theorem Arrival.rxChain_isSome (a : Arrival) (s : State) (p q : Nat) (f : List Byte) (stamp : Stamp) :
    (rxChain (a.on s) p q f stamp).isSome = (rxChain s p q f stamp).isSome := by
  have hpre (tag : Nat) : chainsOf (a.on s) tag = chainsOf s tag := rfl
  have hacct (tag : Nat) : acctOf (a.on s) tag = acctOf s tag := rfl
  unfold rxChain portPre
  dsimp only
  rw [hpre, hacct, a.unhold_on, a.acctTakes_on, a.takeBufs_on]
  split
  · rfl
  · cases takeBufs (min 36 ((f.length + 255) / 256) - ((chainsOf s (tagPort p)).take (min 36 ((f.length + 255) / 256))).length) s [] with
    | none => rfl
    | some e => simp only [Option.map_some, Prod.map, Option.isSome_some]

/-! ### A frame arrives -/

section
variable {s : State} {p kind : Nat} {f : List Byte} {ok : Bool} (hu : portUp s p = true) (hh : (portGet s p).hold = false)
  (hw : s.links.waits = [])
include hu hh hw

/-- While no other frame waits for Press, one takes the normal receive path at once. -/
theorem rxArrive_read : rxArrive s p f ok kind = (rxNormal (touchFast s) p f ok (if ffHbClass kind then capStamp s else nowStamp s) [kind]).2 := by
  have hdrain : waitsDrain (touchFast s) = touchFast s := by
    unfold waitsDrain
    rw [touchFast_only.links_eq, hw]
    rfl
  unfold rxArrive
  rw [if_neg (by simp [hu]), if_neg (by simp [hh]), hdrain]

theorem rxArrive_damaged : rxArrive s p f false kind = lnkCount (frameRead s p f) p 0x120 := rxArrive_read hu hh hw

end

theorem exec_receiveRow {kind : Nat} (hk : kind ∈ receiveKinds) (s : State) (p : Nat) (f : List Byte) (ok : Bool) :
    exec (receiveRow kind p f ok) s = .next (rxArrive s p f ok kind) := by
  simp only [receiveKinds, List.mem_cons, List.not_mem_nil, or_false] at hk
  rcases hk with rfl | rfl | rfl | rfl | rfl <;> rfl

/-- A damaged frame only counts (R276, check 1). -/
theorem next_receive_damaged {s : State} {p kind : Nat} {f : List Byte} (hk : kind ∈ receiveKinds) (hu : portUp s p = true)
    (hh : (portGet s p).hold = false) (hw : s.links.waits = []) : Next (receiveRow kind p f false) s (fun t =>
      t.links = s.links ∧ t.keys = s.keys ∧ regGet t (aLnk p 0x120) = satAdd32 (regGet s (aLnk p 0x120)) 1) := by
  have ho := frameRead_only s p f
  refine next_of (exec_receiveRow hk s p f false) ?_
  rw [rxArrive_damaged hu hh hw]
  refine ⟨lnkCount_only.links_eq.trans ho.links_eq, lnkCount_only.keys_eq.trans ho.keys_eq, ?_⟩
  unfold lnkCount regAdd
  rw [regGet_regPut_same, frameRead_fcs]

/-- The state in which the checks 5 to 9 meet a frame has the links, Press, the group and the clocks of `s`. -/
structure AtChecks (s u : State) : Prop where
  links : u.links = s.links
  press : u.press = s.press
  seam : u.seam = s.seam
  time : u.time = s.time

namespace AtChecks

variable {s u : State} (h : AtChecks s u)
include h

theorem pressFree_eq : pressFree u = pressFree s := by unfold pressFree pipeFor pipeJobs; rw [h.press]

theorem queueGet_eq (q : Nat) : queueGet u q = queueGet s q := queueGet_congr h.links q

end AtChecks

theorem AtChecks.of_only {m : Nat} {s u v : State} (ho : Only m u v) (h : AtChecks s u) (hl : m.testBit 17 = false := by rfl)
    (hp : m.testBit 18 = false := by rfl) (hs : m.testBit 14 = false := by rfl) (ht : m.testBit 2 = false := by rfl) : AtChecks s v :=
  ⟨(ho.links_eq hl).trans h.links, (ho.press_eq hp).trans h.press, (ho.seam_eq hs).trans h.seam, (ho.time_eq ht).trans h.time⟩

theorem atChecks_frameRead (s : State) (p : Nat) (f : List Byte) : AtChecks s (frameRead s p f) :=
  .of_only (frameRead_only s p f) ⟨rfl, rfl, rfl, rfl⟩

section
variable {s : State} {p q kind : Nat} {f : List Byte} {x : Queue} {h : FfpHdr}

/-- A frame classified to one queue meets its checks: one of the heartbeat class without a chain, another with the chain that it fills. -/
theorem rxClassify_checks {u : State} {stamp : Stamp} (hcl : classify u p h = [q]) (hx : queueGet u q = some x)
    (hc : ffHbClass h.kind = false → (rxChain u p q f stamp).isSome = true) (ha : AtChecks s u) :
    ∃ v chain, AtChecks s v ∧ chain.isSome = !ffHbClass h.kind ∧ rxClassify u p f h stamp = rxQueue v p q x h chain stamp := by
  unfold rxClassify
  rw [hcl]
  dsimp only
  rw [if_pos List.isEmpty_nil, hx]
  dsimp only
  cases hb : ffHbClass h.kind with
  | true => exact ⟨u, none, ha, rfl, rfl⟩
  | false =>
    obtain ⟨⟨b, v⟩, hv⟩ := Option.isSome_iff_exists.1 (hc hb)
    rw [hv]
    exact ⟨_, some b, .of_only portReady_only (.of_only (rxChain_only hv) ha), rfl, rfl⟩

/-- A frame that passes the checks 1 to 4 meets the checks of its queue. -/
theorem rxArrive_checks (hf : FrameFor s p f kind q x h) (hc : ffHbClass kind = false → (rxChain s p q f (nowStamp s)).isSome = true) :
    ∃ u chain, AtChecks s u ∧ chain.isSome = !ffHbClass kind ∧
      rxArrive s p f true kind = (rxQueue u p q x h chain (if ffHbClass kind then capStamp s else nowStamp s)).2 := by
  obtain ⟨hu, hh, hw, hwhole, ⟨src, body, henc, hhdr⟩, hok, hnq, hkind, hcl, hx⟩ := hf
  have ha := atChecks_frameRead s p f
  have hreg {k : Nat} (hk : k < 0x100) : regGet (frameRead s p f) (aLnk p k) = regGet s (aLnk p k) := frameRead_reg s f hk
  obtain ⟨a, hon⟩ := frameRead_on s p f
  have hnormal (stamp : Stamp) : rxNormal (touchFast s) p f true stamp [kind] = rxClassify (frameRead s p f) p f h stamp := by
    have hread : rxCount (touchFast s) p f = frameRead s p f := rfl
    unfold rxNormal
    dsimp only
    rw [hread, rxWhole_congr (hreg (by decide)) hwhole, rxEncap_congr fun k hk => hreg hk, henc]
    dsimp only
    rw [← hhdr, if_neg (by simp [ffpHdrOk_congr (hreg (k := 4) (by decide)), hok]), if_neg (by simp [hnq, hkind])]
  obtain ⟨v, chain, hv, hchain, he⟩ := rxClassify_checks (f := f) (stamp := if ffHbClass kind then capStamp s else nowStamp s)
    ((classify_congr (hreg (by decide)) ha.links ha.seam h).trans hcl) ((ha.queueGet_eq q).trans hx)
    (fun hb => by rw [hon, a.rxChain_isSome, if_neg (by simp [← hkind, hb])]; exact hc (hkind ▸ hb)) ha
  exact ⟨v, chain, hv, hkind ▸ hchain, by rw [rxArrive_read hu hh hw, hnormal, he]⟩

end

end Sys2Proof.Machine
end

section
set_option Elab.async false

/-! SUPPORT. The checks 5 to 9 of a frame (R276), and what an accepted frame of each type does (R247, R277, R283, R284, R288). -/

namespace Sys2Proof.Machine

open Host Sys2Proof

/-! ### A queue's record -/

section
variable {s : State} {q : Nat} {x : Queue}

theorem queueMod_eq (g : Queue → Queue) (hx : queueGet s q = some x) : queueMod s q g = queuePut s q (g x) := by
  unfold queueMod; rw [hx]

theorem queueGet_queueMod_same (g : Queue → Queue) (hx : queueGet s q = some x) : queueGet (queueMod s q g) q = some (g x) := by
  rw [queueMod_eq g hx, queueGet_queuePut_same]

theorem queueGet_queueMod_other (g : Queue → Queue) {r : Nat} (h : r ≠ q) : queueGet (queueMod s q g) r = queueGet s r := by
  unfold queueMod
  split
  · rfl
  · exact queueGet_queuePut_other h

theorem queueMod_cards (g : Queue → Queue) : (queueMod s q g).links.cards = s.links.cards := by
  unfold queueMod
  split <;> rfl

end

/-- The queue's record after an accepted frame of the present epoch: its key register has marked the counter, and the frame is counted
(Table 10-12). -/
def rxTaken (x : Queue) (h : FfpHdr) (k : KeyReg) (stamp : Stamp) : Queue := rxCounted { x with present := some (regMarked k h) } h stamp

/-- What an accepted frame does, by its type (R276). -/
def frameEffect (s : State) (q : Nat) (h : FfpHdr) (chain : Option Nat) (old : Replay) (stamp : Stamp) (pl : List Byte) : State :=
  let free (s : State) : State := chain.elim s (hmpRelease s)
  if h.kind = ffData then chain.elim s (fun b => rxData s q h b old stamp pl)
  else if h.kind = ffAck then free (rxAck s q h.epoch pl)
  else if h.kind = ffRetransmit then free (rxRetransmit s q h.epoch pl)
  else if h.kind = ffHeartbeat then rxHeartbeat s q h pl stamp
  else free (rxReport s q pl stamp)

/-! ### The checks 5 to 9 -/

section
variable {s : State} {p q : Nat} {x : Queue} {h : FfpHdr} {chain : Option Nat} {stamp : Stamp}

theorem rxQueue_held (hh : x.held = true) : (rxQueue s p q x h chain stamp).2 = rxDrop s p chain 0x138 := by
  unfold rxQueue
  dsimp only
  rw [if_pos (by simp [hh])]

theorem rxQueue_refused (hh : x.held = false) (ht : queueTakes x h.kind = false) :
    (rxQueue s p q x h chain stamp).2 = rxDrop s p chain 0x130 := by
  unfold rxQueue
  dsimp only
  rw [if_neg (by simp [hh]), if_pos (by simp [ht])]

theorem rxQueue_keyless (hh : x.held = false) (ht : queueTakes x h.kind = true) (hk : keyReg x h.epoch = none) :
    (rxQueue s p q x h chain stamp).2 = queueMod (rxDrop s p chain 0x13C) q (fun x => { x with epochDr := x.epochDr + 1 }) := by
  unfold rxQueue
  dsimp only
  rw [if_neg (by simp [hh]), if_neg (by simp [ht]), hk]

variable {a : Bool} {k : KeyReg} (hh : x.held = false) (ht : queueTakes x h.kind = true) (hk : keyReg x h.epoch = some (a, k))
include hh ht hk

/-- A frame whose counter is not new only counts (R277). -/
theorem rxQueue_replayed (hn : replayNew k.win (ffHbClass h.kind) (ffSeq h) = false) : (rxQueue s p q x h chain stamp).2 =
    queueMod (rxDrop s p chain 0x140) q (fun x => { x with replays := x.replays + 1 }) := by
  unfold rxQueue
  dsimp only
  rw [if_neg (by simp [hh]), if_neg (by simp [ht]), hk]
  dsimp only
  rw [if_pos (by simp [hn])]

variable (hn : replayNew k.win (ffHbClass h.kind) (ffSeq h) = true)
include hn

/-- A frame for which Press has no place waits in its buffers (R157). -/
theorem rxQueue_waits (hp : (rxOnAir x h.kind || pressFree s) = false) : (rxQueue s p q x h chain stamp).2 =
    { s with links := { s.links with waits := s.links.waits ++ [{ port := p, queue := q, frame := h, chain := chain, stamp := stamp }] } } := by
  unfold rxQueue
  dsimp only
  rw [if_neg (by simp [hh]), if_neg (by simp [ht]), hk]
  dsimp only
  rw [if_neg (by simp [hn]), if_pos (by simpa using hp)]

variable (hp : (rxOnAir x h.kind || pressFree s) = true)
include hp

/-- A frame that does not authenticate only counts; its buffers are tainted before they are freed (R153, R241). -/
theorem rxQueue_forged (ho : gcmOpen k.key (ffpNonce h.queue h.epoch h.ctr) h.raw h.body h.tag = none) :
    (rxQueue s p q x h chain stamp).2 =
      queueMod (lnkEvent (rxDrop (chain.elim s (chainTaint s · 36)) p chain 0x144) p 3) q (fun x => { x with authFail := x.authFail + 1 }) := by
  unfold rxQueue
  dsimp only
  rw [if_neg (by simp [hh]), if_neg (by simp [ht]), hk]
  dsimp only
  rw [if_neg (by simp [hn]), if_neg (by simpa [or_iff_not_imp_left] using hp), ho]
  cases chain <;> rfl

/-- A frame that passes every check takes its effect on the queue that has marked its counter; under the adjacent epoch it may first confirm
the card's change (R279). -/
theorem rxQueue_accepts {pl : List Byte} (ho : gcmOpen k.key (ffpNonce h.queue h.epoch h.ctr) h.raw h.body h.tag = some pl) :
    (rxQueue s p q x h chain stamp).2 =
      frameEffect (if a then rxConfirm (queuePut s q (rxCounted (keyRegPut x a (regMarked k h)) h stamp)) x.card.toNat h.epoch
        else queuePut s q (rxCounted (keyRegPut x a (regMarked k h)) h stamp)) q h chain k.win stamp pl := by
  unfold rxQueue
  dsimp only
  rw [if_neg (by simp [hh]), if_neg (by simp [ht]), hk]
  dsimp only
  rw [if_neg (by simp [hn]), if_neg (by simpa [or_iff_not_imp_left] using hp), ho]
  cases chain <;> rfl

end

theorem rxQueue_opens {s : State} {p q : Nat} {x : Queue} {h : FfpHdr} {chain : Option Nat} {stamp : Stamp} {k : KeyReg} {pl : List Byte}
    (hf : FrameOpens x h k pl) (hp : pressFree s = true) :
    (rxQueue s p q x h chain stamp).2 = frameEffect (queuePut s q (rxTaken x h k stamp)) q h chain k.win stamp pl := by
  obtain ⟨hh, ht, hk, hn, ho⟩ := hf
  exact rxQueue_accepts hh ht hk hn (by simp [hp]) ho

/-! ### An accepted DATA frame -/

section
variable {s : State} {q : Nat} {x : Queue} (hx : queueGet s q = some x)
include hx

/-- A queue that does not deliver to another queue forwards nothing (R246). -/
theorem rxDrain_stays (hd : x.dest ≠ 2) : rxDrain s q = s := by
  have hone : rxForward s q = s := by
    unfold rxForward
    rw [hx]
    dsimp only
    split
    · rfl
    · exact if_pos (.inl hd)
  unfold rxDrain
  generalize ((queueGet s q).map (·.rxList)).getD [] = l
  induction l with
  | nil => rfl
  | cons f l ih => rw [List.foldl_cons, hone]; exact ih

/-- The payload of an accepted frame enters the receive list, or is dropped over the buffer limit (R247). -/
theorem rxDeliver_queue (h : FfpHdr) (b : Nat) (stamp : Stamp) (pl : List Byte) (hr : s.seam.role ≠ .follower) (hd : x.dest ≠ 2) :
    queueGet (rxDeliver s q x h b stamp pl) q = some { x with drops := satAdd32 x.drops 1 } ∨
    ∃ g, queueGet (rxDeliver s q x h b stamp pl) q = some { x with rxList := x.rxList ++ [g] } ∧
      g.payload = pl ∧ g.ctr = h.ctr ∧ g.app = h.app := by
  unfold rxDeliver
  rw [if_neg hr]
  split
  · refine .inl (queueGet_queueMod_same _ ((queueGet_congr ?_ q).trans hx))
    exact hmpRelease_only.links_eq.trans sqcSet_only.links_eq
  · have hin (g : RxFrame) := queueGet_queueMod_same
      (s := jot (chainWrite s b (h.whole - 20 - pl.length) pl) 0xFFFF true (.mark [(q, h.epoch, h.ctr)] []))
      (fun x => { x with rxList := x.rxList ++ [g] }) ((queueGet_congr (jot_only.links_eq.trans chainWrite_only.links_eq) q).trans hx)
    have hout (g : RxFrame) := (queueGet_congr (evPulse_only (src := srcQueue q)).links_eq q).trans (hin g)
    refine .inr ⟨_, (congrArg (queueGet · q) (rxDrain_stays (hout _) hd)).trans (hout _), ?_, ?_, ?_⟩
    exacts [rfl, rfl, rfl]

end

/-- The record of a queue to which an acknowledgement is owed, where the frame asks for it (R283). -/
def ackNoted (s : State) (h : FfpHdr) (x : Queue) : Queue :=
  if bitN h.flags 0 then { x with ackDue := x.ackDue ++ [ffSeq h], ackAt := if x.ackDue.isEmpty then s.time.clk else x.ackAt } else x

/-- The record of a queue that has noted an accepted DATA frame of its present epoch, and the gaps that it opens or closes (R283, R284). -/
def dataNoted (s : State) (h : FfpHdr) (old : Replay) (x : Queue) : Queue :=
  if h.epoch = x.epoch then
    (if (ackNoted s h x).cls ≠ 2 then ackNoted s h x else { ackNoted s h x with gaps := gapsAfter (ackNoted s h x) old (ffSeq h) s.time.clk })
  else x

theorem ackNoted_fields (s : State) (h : FfpHdr) (x : Queue) : ∃ ats, ackNoted s h x =
    { x with ackDue := x.ackDue ++ (if bitN h.flags 0 = true then [ffSeq h] else []), ackAt := ats } := by
  unfold ackNoted
  split
  · exact ⟨_, rfl⟩
  · exact ⟨x.ackAt, by rw [List.append_nil]⟩

theorem dataNoted_fields (s : State) (h : FfpHdr) (old : Replay) (x : Queue) : ∃ ats gs, dataNoted s h old x =
    { x with ackDue := x.ackDue ++ (if h.epoch = x.epoch ∧ bitN h.flags 0 = true then [ffSeq h] else []), ackAt := ats, gaps := gs } := by
  obtain ⟨ats, ha⟩ := ackNoted_fields s h x
  unfold dataNoted
  by_cases he : h.epoch = x.epoch
  · rw [if_pos he, ha]
    simp only [he, true_and]
    split
    · exact ⟨ats, x.gaps, rfl⟩
    · exact ⟨ats, _, rfl⟩
  · exact ⟨x.ackAt, x.gaps, by simp [he]⟩

section
variable {s : State} {q : Nat} {x : Queue} (hx : queueGet s q = some x)
include hx

theorem rxData_eq (h : FfpHdr) (b : Nat) (old : Replay) (stamp : Stamp) (pl : List Byte) (hr : s.seam.role ≠ .follower) :
    rxData s q h b old stamp pl = rxDeliver (queuePut s q (dataNoted s h old x)) q (dataNoted s h old x) h b stamp pl := by
  unfold rxData
  dsimp only
  rw [if_neg hr, queueMod_eq _ hx, queueGet_queuePut_same]
  rfl

/-- An accepted DATA frame: the acknowledgement that it asks for is owed, where its epoch is the present one, and its payload is delivered
(R247, R283). -/
theorem rxData_queue (h : FfpHdr) (b : Nat) (old : Replay) (stamp : Stamp) (pl : List Byte) (hr : s.seam.role ≠ .follower) (hd : x.dest ≠ 2) :
    ∃ y, queueGet (rxData s q h b old stamp pl) q = some y ∧ y.present = x.present ∧ y.accepted = x.accepted ∧ y.lastRx = x.lastRx ∧
      y.ackDue = x.ackDue ++ (if h.epoch = x.epoch ∧ bitN h.flags 0 = true then [ffSeq h] else []) ∧
      ((y.drops = satAdd32 x.drops 1 ∧ y.rxList = x.rxList) ∨
        ∃ g, y.rxList = x.rxList ++ [g] ∧ g.payload = pl ∧ g.ctr = h.ctr ∧ g.app = h.app) := by
  obtain ⟨ats, gs, hnoted⟩ := dataNoted_fields s h old x
  rw [rxData_eq hx h b old stamp pl hr]
  generalize dataNoted s h old x = z at hnoted
  have hdest : z.dest ≠ 2 := by rw [hnoted]; exact hd
  rcases rxDeliver_queue (s := queuePut s q z) queueGet_queuePut_same h b stamp pl hr hdest with hy | ⟨g, hy, hg⟩ <;> subst hnoted
  · exact ⟨_, hy, rfl, rfl, rfl, rfl, .inl ⟨rfl, rfl⟩⟩
  · exact ⟨_, hy, rfl, rfl, rfl, rfl, .inr ⟨g, rfl, hg⟩⟩

/-! ### The other types -/

omit hx in
/-- What becomes of the frames that an ACK names is no part of the links. -/
theorem ackedNotes_links (l : List TxFrame) (u : State) : (l.foldl (fun s f => match f.cmd with
    | some tag => sendNote (txFree s f) tag q 1
    | none => txFree s f) u).links = u.links := by
  refine foldl_keeps (r := State.links) (fun s f => ?_) l u
  split
  · exact sendNote_only.links_eq.trans txFree_only.links_eq
  · exact txFree_only.links_eq

/-- An ACK releases the frames of its epoch that it names (R283, R284). -/
theorem rxAck_queue (epoch : Nat) (pl : List Byte) : ∃ y, queueGet (rxAck s q epoch pl) q = some y ∧ y.present = x.present ∧
    y.txList = x.txList.filter (fun g => !(decide (g.sent ≠ 0 ∧ txEpoch g = epoch) && ackNames pl g.ctr)) := by
  have released {y : Queue} {t : State} (ht : t.links = (queuePut s q y).links) : queueGet t q = some y :=
    (queueGet_congr ht q).trans queueGet_queuePut_same
  unfold rxAck
  rw [hx]
  dsimp only
  split
  · exact ⟨_, released (ackedNotes_links _ _), rfl, rfl⟩
  · exact ⟨_, released (jot_only.links_eq.trans (ackedNotes_links _ _)), rfl, rfl⟩

/-- A RETRANSMIT_REQ has the frames of its epoch that it names sent again, before a quarter of the deadline is over (R284). -/
theorem rxRetransmit_queue (epoch : Nat) (pl : List Byte) (hc : x.cls = 2) : queueGet (rxRetransmit s q epoch pl) q = some { x with
    txList := x.txList.map (fun g =>
      if g.sent ≠ 0 && txEpoch g == epoch && ackNames pl g.ctr && decide (s.time.clk < g.firstAt.getD 0 + deadlinePart x 4) then
        { g with again := true } else g) } :=
  (queueGet_queueMod_same _ hx).trans (congrArg some (if_neg (by simp [hc])))

theorem queueSend_queue (frame : List Byte) : ∃ n, queueGet (queueSend s q frame) q = some { x with sent := n } := by
  unfold queueSend
  rw [hx]
  dsimp only
  split
  · exact ⟨_, queueGet_queueMod_same _ ((queueGet_congr sendFrame_only.links_eq q).trans hx)⟩
  · exact ⟨x.sent, hx⟩

end

/-- Taking a heartbeat sequence changes only the sequences and their leases (R288, R317). -/
theorem takeHb_queue (s : State) (q : Nat) (x : Queue) : ∃ n es c j, (takeHb s q x).2.1 =
    { x with hbSeq := n, hbEnds := es, hbSafe := c, hbJseq := j } := by
  have hlease : ∃ es c j, (leaseHb s q x).1 = { x with hbEnds := es, hbSafe := c, hbJseq := j } := by
    unfold leaseHb
    dsimp only
    split
    · split
      · exact ⟨x.hbEnds, x.hbSafe, x.hbJseq, rfl⟩
      · exact ⟨_, _, _, rfl⟩
    · exact ⟨x.hbEnds, x.hbSafe, x.hbJseq, rfl⟩
  obtain ⟨es, c, j, he⟩ := hlease
  unfold takeHb
  dsimp only
  split
  · exact ⟨_, es, c, j, by rw [he]⟩
  · exact ⟨x.hbSeq, es, c, j, he⟩

/-- The record of a queue on which a HEARTBEAT of the device has left, or waits for a sequence (R288, R313). -/
theorem hbSend_queue (s : State) (q : Nat) (x : Queue) (ctr : Nat) : ∃ y, queueGet (hbSend s q x ctr) q = some y ∧ y.present = x.present ∧
    y.hbLast = x.hbLast ∧ y.hbLost = x.hbLost ∧ y.heard = x.heard := by
  obtain ⟨n, es, c, j, he⟩ := takeHb_queue s q x
  unfold hbSend
  dsimp only
  rw [he]
  split
  · obtain ⟨m, hm⟩ := queueSend_queue (s := queuePut _ q _) queueGet_queuePut_same _
    exact ⟨_, hm, rfl, rfl, rfl, rfl⟩
  · exact ⟨_, queueGet_queuePut_same, rfl, rfl, rfl, rfl⟩

/-- An accepted node HEARTBEAT ends a loss, and the queue notes what the node has heard (R289, R290). -/
theorem rxHeartbeat_queue {s : State} {q : Nat} {x : Queue} (hx : queueGet s q = some x) (h : FfpHdr) (pl : List Byte) (stamp : Stamp) :
    ∃ y, queueGet (rxHeartbeat s q h pl stamp) q = some y ∧ y.present = x.present ∧ y.hbLast = some s.time.clk ∧ y.hbLost = false ∧
      y.heard = byteAt pl 0 % 8 := by
  unfold rxHeartbeat
  rw [hx]
  exact hbSend_queue _ q _ h.ctr

end Sys2Proof.Machine
end

section
set_option Elab.async false

/-! SUPPORT. A wake as the links meet it, and an accepted CARD_REPORT (R43, R47, R291, R297). -/

namespace Sys2Proof.Machine

open Host Sys2Proof

/-! ### A wake changes the links only in the records of ports -/

/-- From `s` to `t` the links change at most in the records of ports, whose hold rings stand. -/
structure PortsOnly (s t : State) : Prop where
  links : t.links = { s.links with ports := t.links.ports }
  ring : ∀ r, (portGet t r).ring = (portGet s r).ring

namespace PortsOnly

theorem of_links {s t : State} (h : t.links = s.links) : PortsOnly s t := ⟨by rw [h], fun r => by rw [portGet_congr h]⟩

theorem refl (s : State) : PortsOnly s s := of_links rfl

theorem trans {a b c : State} (h : PortsOnly a b) (k : PortsOnly b c) : PortsOnly a c :=
  ⟨k.links.trans (by rw [h.links]), fun r => (k.ring r).trans (h.ring r)⟩

/-- A change without the links. -/
theorem of_only {m : Nat} {s t : State} (h : Only m s t) (hm : m.testBit 17 = false := by rfl) : PortsOnly s t := of_links (h.links_eq hm)

theorem foldl {α : Type} {g : State → α → State} (hg : ∀ s x, PortsOnly s (g s x)) (l : List α) (s : State) : PortsOnly s (l.foldl g s) := by
  induction l generalizing s with
  | nil => exact refl s
  | cons x l ih => exact (hg s x).trans (ih (g s x))

/-- A port's record that keeps its hold ring. -/
theorem portPut {s : State} {p : Nat} {x : PortState} (h : x.ring = (portGet s p).ring) : PortsOnly s (portPut s p x) where
  links := rfl
  ring r := by
    by_cases hr : r = p
    · rw [hr, portGet_portPut_same, h]
    · rw [portGet_portPut_other hr]

theorem portsMap {g : PortState → PortState} (hg : ∀ x, (g x).ring = x.ring) (s : State) : PortsOnly s (portsMap s g) :=
  foldl (fun _ _ => portPut (hg _)) _ s

theorem portRetrain (s : State) (p : Nat) : PortsOnly s (portRetrain s p) := by
  unfold Machine.portRetrain
  dsimp only
  split
  · exact portPut rfl
  · exact refl s

theorem portReady (s : State) (p : Nat) : PortsOnly s (portReady s p) := of_only portReady_only

theorem comeActive (s : State) : PortsOnly s (comeActive s) := by
  have hoff (x : PortState) : (holdOff x).ring = x.ring := by
    unfold holdOff
    split <;> rfl
  have hrng : PortsOnly s (if 2 ≤ pwrMode s then rngWake s else s) := by
    split
    · exact of_only rngWake_only
    · exact refl s
  have hregs (u : State) : PortsOnly u (regSetBit (pwrSteps (setPwrMode (linkL1 u false) 0) false false) aTimeSrcStat 8 false) :=
    ((of_only linkL1_only).trans (of_only setPwrMode_only)).trans ((of_only pwrSteps_only).trans (of_only regSetBit_only))
  unfold Machine.comeActive
  dsimp only
  generalize hs : Machine.portsMap _ holdOff = s1
  have h1 : PortsOnly s s1 := hs ▸ hrng.trans ((hregs _).trans (portsMap hoff _))
  generalize hu : tallyUnstage _ = u
  have h2 : PortsOnly s1 u := by
    rw [← hu]
    exact of_links tallyUnstage_only.links_eq
  have h3 : PortsOnly s ((u.links.ports.map (·.1)).foldl Machine.portReady u) := h1.trans (h2.trans (foldl portReady _ u))
  split
  · exact h3.trans ((foldl portRetrain _ _).trans (of_only coresGoOn_only))
  · exact h3

theorem wakeUp (s : State) (c : Nat) : PortsOnly s (wakeUp s c) := by
  rcases wakeUp_cases s c with e | ⟨-, e⟩ | ⟨-, e⟩ <;> rw [e]
  · exact refl s
  · exact (of_only wakeNote_only).trans (comeActive _)
  · refine PortsOnly.trans ?_ (of_only pwrSteps_only)
    exact of_links (wakeNote_only (s := s) (cause := c)).links_eq

theorem cardGet_eq {s t : State} (h : PortsOnly s t) (id : Nat) : cardGet t id = cardGet s id := by unfold cardGet; rw [h.links]

end PortsOnly

/-! ### An accepted CARD_REPORT -/

theorem setLeft_card (s : State) (id : Nat) (x : CardRec) (left : Nat) : ∃ b, (setLeft s id x left).1 = { x with left := left, low := b } :=
  ⟨_, rfl⟩

theorem cardGet_cardPut_same (s : State) (id : Nat) (x : CardRec) : cardGet (cardPut s id x) id = some x := by
  unfold cardGet cardPut
  rw [jot_only.links_eq]
  exact tblFind_put_same id x s.links.cards

/-- A report reaches the record of its card: its Stamp, and no more epochs left than the card says (R291, R297). -/
theorem cardReport_card {s : State} {id : Nat} {r : CardRec} (hr : cardGet s id = some r) (left flags fw : Nat) (stamp : Stamp) :
    ∃ r', cardGet (cardReport s id left flags fw stamp) id = some r' ∧ r'.report = stamp ∧ r'.left = min r.left left ∧ r'.key = r.key ∧
      r'.conf = r.conf := by
  obtain ⟨b, hb⟩ := setLeft_card s id r (min r.left left)
  unfold cardReport
  rw [hr]
  dsimp only
  rw [hb]
  split
  · exact ⟨_, cardGet_cardPut_same _ id _, rfl, rfl, rfl, rfl⟩
  · exact ⟨_, tblFind_put_same _ _ _, rfl, rfl, rfl, rfl⟩

section
variable {s : State} {q : Nat} {x : Queue} {pl : List Byte} (hx : queueGet s q = some x)
include hx

/-- An accepted report of the queue's own card is noted in the card's record, on this member or the primary (R291). -/
theorem rxReport_card {r : CardRec} (stamp : Stamp) (hid : beAt pl 0 8 = x.card.toNat) (hr : cardGet s x.card.toNat = some r)
    (hrole : s.seam.role ≠ .follower) : ∃ r', cardGet (rxReport s q pl stamp) x.card.toNat = some r' ∧ r'.report = stamp ∧
      r'.left = (if reportChanges r (beAt pl 12 4) (beAt pl 18 2) then min r.left (beAt pl 12 4) else r.left) ∧
      r'.key = r.key ∧ r'.conf = r.conf := by
  have hwake : cardGet (if sleepy s then wakeUp s 9 else s) x.card.toNat = some r := by
    split
    · exact ((PortsOnly.wakeUp s 9).cardGet_eq _).trans hr
    · exact hr
  have hmin : reportChanges r (beAt pl 12 4) (beAt pl 18 2) = false → min r.left (beAt pl 12 4) = r.left := by
    intro h
    simp only [reportChanges, Bool.or_eq_false_iff, decide_eq_false_iff_not] at h
    omega
  unfold rxReport
  rw [hx]
  dsimp only
  rw [if_neg (by simp [hid]), hid, hr]
  dsimp only
  split
  · rename_i hsame
    simp only [Bool.and_eq_true, Bool.not_eq_true'] at hsame
    exact ⟨_, tblFind_put_same _ _ _, rfl, by simp [hsame.1], rfl, rfl⟩
  · obtain ⟨r', hget, hstamp, hleft, hrest⟩ := cardReport_card hwake (beAt pl 12 4) (beAt pl 18 2) (beAt pl 20 4) stamp
    refine ⟨r', hget, hstamp, ?_, hrest⟩
    rw [hleft]
    split
    · rfl
    · rename_i h
      exact hmin (by simpa using h)

/-- A report with a foreign card's number is dropped (R291). -/
theorem rxReport_foreign (stamp : Stamp) (hid : beAt pl 0 8 ≠ x.card.toNat) : (rxReport s q pl stamp).links.cards = s.links.cards := by
  unfold rxReport
  rw [hx]
  dsimp only
  rw [if_pos hid]
  exact congrArg (·.cards) (tallyPut_only.links_eq.trans lnkCount_only.links_eq)

end

end Sys2Proof.Machine
end

section
set_option Elab.async false

/-! SUPPORT. The hold rings of the ports stand while a frame takes the receive path (R46, R276, R291, R296, R298). -/

namespace Sys2Proof.Machine

open Host Sys2Proof

/-- From `s` to `t` the hold ring of every port stands. -/
structure RingsStand (s t : State) : Prop where
  ring : ∀ r, (portGet t r).ring = (portGet s r).ring

namespace RingsStand

theorem refl (s : State) : RingsStand s s := ⟨fun _ => rfl⟩

theorem trans {a b c : State} (h : RingsStand a b) (k : RingsStand b c) : RingsStand a c := ⟨fun r => (k.ring r).trans (h.ring r)⟩

theorem ports {s t u : State} (h : RingsStand s t) (hu : u.links.ports = t.links.ports) : RingsStand s u := by
  refine ⟨fun r => ?_⟩
  rw [← h.ring r]
  unfold portGet
  rw [hu]

theorem only {m : Nat} {s t u : State} (h : RingsStand s t) (hu : Only m t u) (hm : m.testBit 17 = false := by rfl) : RingsStand s u :=
  h.ports (by rw [hu.links_eq hm])

theorem after {s t u : State} (h : RingsStand s t) (hu : PortsOnly t u) : RingsStand s u := h.trans ⟨hu.ring⟩

theorem foldl {α : Type} {g : State → α → State} (hg : ∀ s x, RingsStand s (g s x)) (l : List α) {s t : State} (h : RingsStand s t) :
    RingsStand s (l.foldl g t) := by
  induction l generalizing t with
  | nil => exact h
  | cons x l ih => exact ih (h.trans (hg t x))

theorem ite {s t u : State} {c : Prop} [Decidable c] (ht : RingsStand s t) (hu : RingsStand s u) : RingsStand s (if c then t else u) := by
  split
  · exact ht
  · exact hu

section
variable {s t : State} (h : RingsStand s t)
include h

/-! ### Queues and their frames -/

theorem put (q : Nat) (x : Queue) : RingsStand s (queuePut t q x) := h.ports rfl

theorem queueMod (q : Nat) (g : Queue → Queue) : RingsStand s (queueMod t q g) := by
  unfold Machine.queueMod
  split
  · exact h
  · exact h.ports rfl

theorem txData (q : Nat) (x : Queue) (ctr app : Nat) (stamp : Stamp) (chain cmd : Option Nat) (jseq : Nat) (plain : List Byte) :
    RingsStand s (txData t q x ctr app stamp chain cmd jseq plain) := by
  unfold Machine.txData
  split
  · exact h
  · exact h.ports rfl

theorem enqChain (q b app : Nat) : RingsStand s (enqChain t q b app) := by
  unfold Machine.enqChain
  split
  · exact h
  · rename_i t1 ht
    have h1 := h.only (hmpTransfer_only ht)
    split
    · exact h1
    · rename_i x _
      have h2 := h1.only (takeCtr_only (q := q) (x := x))
      dsimp only
      split
      · split
        · exact ((h2.only regAdd_only).only seamEvent_only).txData ..
        · exact (h2.only jotStream_only).txData ..
      · exact h2.txData ..

theorem rxForward (q : Nat) : RingsStand s (rxForward t q) := by
  unfold Machine.rxForward
  split
  · exact h
  · split
    · exact h
    · refine h.ite ?_
      dsimp only
      have hset (x : Queue) (b : Nat) (bs : List Byte) : RingsStand s (chainSetLen (chainWrite (queuePut t q x) b 0 bs) b bs.length) :=
        ((h.ports (u := queuePut t q x) rfl).only chainWrite_only).only chainSetLen_only
      refine ite ((hset ..).enqChain ..) (queueMod (RingsStand.only ?_ hmpRelease_only) q _)
      exact ite (((hset ..).only regAdd_only).only sqcSet_only) (hset ..)

theorem rxDrain (q : Nat) : RingsStand s (rxDrain t q) := foldl (fun u _ => (refl u).rxForward q) _ h

theorem queueSend (q : Nat) (frame : List Byte) : RingsStand s (queueSend t q frame) := by
  unfold Machine.queueSend
  split
  · exact h
  · exact ite ((h.only sendFrame_only).queueMod q _) h

/-! ### What an accepted frame does -/

theorem rxDeliver (q : Nat) (x : Queue) (hd : FfpHdr) (b : Nat) (stamp : Stamp) (pl : List Byte) :
    RingsStand s (rxDeliver t q x hd b stamp pl) := by
  have hrelease := h.only (hmpRelease_only (b := b))
  unfold Machine.rxDeliver
  refine ite (ite hrelease (hrelease.only seamTo_only)) (ite ?_ (rxDrain ?_ q))
  · exact ((h.only sqcSet_only).only hmpRelease_only).queueMod q _
  · exact (((h.only chainWrite_only).only jot_only).queueMod q _).only evPulse_only

theorem rxData (q : Nat) (hd : FfpHdr) (b : Nat) (old : Replay) (stamp : Stamp) (pl : List Byte) :
    RingsStand s (rxData t q hd b old stamp pl) := by
  unfold Machine.rxData
  dsimp only
  generalize hu : (if t.seam.role = .follower then t else _) = u
  have h1 : RingsStand s u := hu ▸ ite h (h.queueMod q _)
  split
  · exact h1
  · exact h1.rxDeliver ..

theorem rxAck (q epoch : Nat) (pl : List Byte) : RingsStand s (rxAck t q epoch pl) := by
  have hput (x : Queue) (l : List TxFrame) := (h.ports (u := queuePut t q x) rfl).ports (congrArg (·.ports) (ackedNotes_links (q := q) l _))
  unfold Machine.rxAck
  split
  · exact h
  · exact ite (hput ..) ((hput ..).only jot_only)

theorem hbSend (q : Nat) (x : Queue) (ctr : Nat) : RingsStand s (hbSend t q x ctr) := by
  have hput (y : Queue) : RingsStand s (queuePut (takeHb t q x).2.2 q y) := (h.only takeHb_only).ports rfl
  unfold Machine.hbSend
  dsimp only
  split
  · exact (hput _).queueSend ..
  · exact hput _

theorem rxHeartbeat (q : Nat) (hd : FfpHdr) (pl : List Byte) (stamp : Stamp) : RingsStand s (rxHeartbeat t q hd pl stamp) := by
  unfold Machine.rxHeartbeat
  split
  · exact h
  · exact (ite (h.only tallyPut_only) h).hbSend ..

theorem cardPut (id : Nat) (x : CardRec) : RingsStand s (cardPut t id x) :=
  RingsStand.only (h.ports (u := { t with links := { t.links with cards := tblPut id x t.links.cards } }) rfl) jot_only

theorem cardReport (id left flags fw : Nat) (stamp : Stamp) : RingsStand s (cardReport t id left flags fw stamp) := by
  unfold Machine.cardReport
  split
  · exact h
  · rename_i x _
    have h1 := h.only (setLeft_only (id := id) (x := x) (left := min x.left left))
    have h2 {u : State} (hu : RingsStand s u) (n code : Nat) (items : List (Nat × Nat)) :
        RingsStand s (if bitN flags n then tallyPut u agCp code items else u) := ite (hu.only tallyPut_only) hu
    have h3 := h2 (h2 h1 0 0x0884 [(1, x.owner), (5, id)]) 1 0x0885 [(1, x.owner), (5, id)]
    exact ite (h3.cardPut ..) (h3.ports rfl)

theorem rxReport (q : Nat) (pl : List Byte) (stamp : Stamp) : RingsStand s (rxReport t q pl stamp) := by
  have hwake : RingsStand s (if sleepy t then wakeUp t 9 else t) := ite (h.after (.wakeUp t 9)) h
  unfold Machine.rxReport
  split
  · exact h
  · refine ite ((h.only lnkCount_only).only tallyPut_only) ?_
    split
    · exact h
    · exact ite (h.ports rfl) (ite (hwake.only seamTo_only) (hwake.cardReport ..))

theorem epochRotate (id : Nat) (ch : EpochChange) : RingsStand s (epochRotate t id ch) := by
  unfold Machine.epochRotate cardQueuesMap
  exact foldl (fun u _ => (refl u).put _ _) _ h

theorem rekeyConfirm (id : Nat) : RingsStand s (rekeyConfirm t id) := by
  unfold Machine.rekeyConfirm
  split
  · exact h
  · split
    · exact h
    · refine RingsStand.only ?_ rekeyEnd_only
      have hput (x : CardRec) (left : Nat) (y : CardRec) := ((h.epochRotate id ‹_›).only (setLeft_only (id := id) (x := x) (left := left))).cardPut id y
      split
      · exact (hput ..).only lnkEvent_only
      · exact (hput ..).only lnkEvent_only

theorem rxConfirm (card epoch : Nat) : RingsStand s (rxConfirm t card epoch) := by
  unfold Machine.rxConfirm
  split
  · exact h
  · exact ite h (ite (h.only seamTo_only) (h.rekeyConfirm card))

/-! ### The checks -/

theorem frameEffect (q : Nat) (hd : FfpHdr) (chain : Option Nat) (old : Replay) (stamp : Stamp) (pl : List Byte) :
    RingsStand s (frameEffect t q hd chain old stamp pl) := by
  have hfree {u : State} (hu : RingsStand s u) : RingsStand s (chain.elim u (hmpRelease u)) := by
    cases chain with
    | none => exact hu
    | some b => exact hu.only hmpRelease_only
  have hdata : RingsStand s (chain.elim t (fun b => Machine.rxData t q hd b old stamp pl)) := by
    cases chain with
    | none => exact h
    | some b => exact h.rxData ..
  unfold Machine.frameEffect
  exact ite hdata (ite (hfree (h.rxAck ..)) (ite (hfree (h.queueMod q _)) (ite (h.rxHeartbeat ..) (hfree (h.rxReport ..)))))

theorem rxQueue (p q : Nat) (x : Queue) (hd : FfpHdr) (chain : Option Nat) (stamp : Stamp) :
    RingsStand s (rxQueue t p q x hd chain stamp).2 := by
  have hdrop {u : State} (hu : RingsStand s u) (off : Nat) : RingsStand s (rxDrop u p chain off) := hu.only rxDrop_only
  by_cases hh : x.held = true
  · exact rxQueue_held hh ▸ hdrop h _
  replace hh : x.held = false := by simpa using hh
  cases ht : queueTakes x hd.kind with
  | false => exact rxQueue_refused hh ht ▸ hdrop h _
  | true =>
    cases hk : keyReg x hd.epoch with
    | none => exact rxQueue_keyless hh ht hk ▸ (hdrop h _).queueMod q _
    | some e =>
      obtain ⟨a, k⟩ := e
      cases hn : replayNew k.win (ffHbClass hd.kind) (ffSeq hd) with
      | false => exact rxQueue_replayed hh ht hk hn ▸ (hdrop h _).queueMod q _
      | true =>
        cases hp : rxOnAir x hd.kind || pressFree t with
        | false => exact rxQueue_waits hh ht hk hn hp ▸ h.ports rfl
        | true =>
          cases ho : gcmOpen k.key (ffpNonce hd.queue hd.epoch hd.ctr) hd.raw hd.body hd.tag with
          | none =>
            have htaint : RingsStand s (chain.elim t (chainTaint t · 36)) := by
              cases chain with
              | none => exact h
              | some b => exact h.only chainTaint_only
            exact rxQueue_forged hh ht hk hn hp ho ▸ ((hdrop htaint _).only lnkEvent_only).queueMod q _
          | some pl =>
            have hput (y : Queue) : RingsStand s (queuePut t q y) := h.put q y
            exact rxQueue_accepts hh ht hk hn hp ho ▸ frameEffect (ite ((hput _).rxConfirm ..) (hput _)) ..

theorem rxNoBuf (q : Nat) : RingsStand s (rxNoBuf t q) := ((h.only sqcSet_only).only hmpDrop_only).queueMod q _

theorem rxClassify (p : Nat) (f : List Byte) (hd : FfpHdr) (stamp : Stamp) : RingsStand s (rxClassify t p f hd stamp).2 := by
  unfold Machine.rxClassify
  split
  · exact h.only lnkCount_only
  · rename_i q more _
    dsimp only
    generalize hu : (if more.isEmpty then t else _) = u
    have h1 : RingsStand s u := hu ▸ ite h ((h.only lnkCount_only).only lnkEvent_only)
    split
    · exact h1.only lnkCount_only
    · split
      · exact h1.rxQueue ..
      · split
        · exact h1.rxNoBuf q
        · rename_i hc
          exact ((h1.only (rxChain_only hc)).only portReady_only).rxQueue ..

theorem rxNormal (p : Nat) (f : List Byte) (ok : Bool) (stamp : Stamp) (kinds : List Nat) :
    RingsStand s (rxNormal t p f ok stamp kinds).2 := by
  have hcount : RingsStand s (rxCount t p f) := h.only rxCount_only
  unfold Machine.rxNormal
  dsimp only
  split
  · rename_i hw
    exact hcount.only (rxWhole_only hw)
  · split
    · exact (hcount.only lnkCount_only).only lnkEvent_only
    · exact hcount.only lnkCount_only
    · exact h
    · split
      · exact hcount.only lnkCount_only
      · split
        · exact h
        · exact hcount.rxClassify ..

/-! ### Enrolments -/

theorem enrolAsk (tag : Nat) (c : Cmd) : RingsStand s (enrolAsk t tag c) := by
  unfold Machine.enrolAsk
  split
  · exact h
  · dsimp only
    exact ite h (h.ports (by rw [thmPost_only.links_eq]))

theorem enrolFrame (p : Nat) (hd : FfpHdr) (stamp : Stamp) : RingsStand s (enrolFrame t p hd stamp) := by
  unfold Machine.enrolFrame
  split
  · exact h.only lnkCount_only
  · refine ite (h.ports rfl) ?_
    dsimp only
    refine ite (h.only lnkCount_only) ?_
    split
    · exact (h.only lnkCount_only).only lnkEvent_only
    · split
      · exact h
      · exact ite h (enrolAsk (h.ports (u := enrolPut t _ _) rfl) ..)

theorem enrolReceive (p : Nat) (f : List Byte) (ok : Bool) (stamp : Stamp) : RingsStand s (enrolReceive t p f ok stamp) := by
  have hcount : RingsStand s (rxCount t p f) := h.only rxCount_only
  unfold Machine.enrolReceive
  dsimp only
  split
  · rename_i hw
    exact hcount.only (rxWhole_only hw)
  · split
    · exact (hcount.only lnkCount_only).only lnkEvent_only
    · exact hcount.only lnkCount_only
    · exact h
    · exact ite (hcount.only lnkCount_only) (ite (hcount.enrolFrame ..) h)

/-! ### Messages of precision time -/

theorem ptpPush (p : Nat) (e : PtpEntry) : RingsStand s (ptpPush t p e) :=
  ite ((h.only lnkCount_only).only lnkEvent_only) (h.after (.portPut rfl))

theorem ptpDrop (p : Nat) (e : PtpEntry) : RingsStand s (ptpDrop t p e) := h.after (.portPut rfl)

theorem sourceLost : RingsStand s (sourceLost t) := by
  unfold Machine.sourceLost
  refine ite h (after ?_ (.wakeUp _ 10))
  have h1 : RingsStand s (regSetBit (regSetBit (endCorrection t t.time.corrEnd) aTimeSrcStat 4 true) aTimeSrcStat 3 false) :=
    ((h.only endCorrection_only).only regSetBit_only).only regSetBit_only
  refine RingsStand.only (RingsStand.only ?_ regSetField_only) sqcSet_only
  exact h1.ports rfl

theorem ptpRefuse (d : Int) : RingsStand s (ptpRefuse t d) :=
  ((sourceLost (h.ports (u := { t with time := { t.time with ctBack := true } }) rfl)).only sqcSet_only).only tallyPut_only

theorem ptpSeconds (whole : Int) : RingsStand s (ptpSeconds t whole) := by
  have hbase (v : BitVec 64) := h.only (regPut64_only (s := t) (lo := aTimeCtBaseLo) (hi := aTimeCtBaseHi) (v := v))
  unfold Machine.ptpSeconds
  refine ite (h.ptpRefuse whole) ?_
  dsimp only
  generalize BitVec.ofInt 64 _ = v
  refine RingsStand.only ?_ regSetBit_only
  exact (hbase v).ports rfl

theorem ptpMeasure (t2 : Stamp) (sec ns : Nat) : RingsStand s (ptpMeasure t t2 sec ns) := by
  have hsync : RingsStand s { t with time := { t.time with lastSync := some t.time.clk } } := h.ports rfl
  unfold Machine.ptpMeasure
  refine ite h (ite (ite (hsync.ptpRefuse _) (hsync.only measure_only)) ?_)
  have hm (o : Int) := hsync.only (measure_only (o := o))
  exact ite ((hm _).ptpSeconds _) (hm _)

theorem ptpDelayReq (p : Nat) : RingsStand s (ptpDelayReq t p) := by
  have h1 : RingsStand s (portPut t p { portGet t p with ptp := (portGet t p).ptp.filter (fun e => !(e.sent && e.kind == 1)) }) :=
    h.after (.portPut rfl)
  unfold Machine.ptpDelayReq
  dsimp only
  refine ite h1 (RingsStand.only (ptpPush ?_ p _) ptpSend_only)
  exact h1.ports rfl

theorem ptpReceive (p : Nat) (stamp : Stamp) (m : List Byte) : RingsStand s (ptpReceive t p stamp m) := by
  unfold Machine.ptpReceive
  dsimp only
  generalize hu : (if byteAt m 0 % 16 ≤ 1 then Machine.ptpPush t p _ else t) = u
  have h1 : RingsStand s u := hu ▸ ite (h.ptpPush p _) h
  refine ite h1 (ite (ite h1 (h1.ptpDrop p _)) (ite (ite ((h1.ptpDrop p _).only ptpSend_only) (h1.ptpDrop p _)) (ite (ite h1 ?_) (ite (ite h1 ?_)
    (ite (h1.ports rfl) h1)))))
  · split
    · exact ((h1.ptpDrop p _).ptpMeasure ..).ptpDelayReq p
    · exact h1
  · split
    · exact h1.ptpDrop p _
    · exact h1

theorem ptpArrive (p : Nat) (f : List Byte) (ok : Bool) (stamp : Stamp) : RingsStand s (ptpArrive t p f ok stamp) := by
  have hcount : RingsStand s (rxCount t p f) := h.only rxCount_only
  unfold Machine.ptpArrive
  dsimp only
  split
  · rename_i hw
    exact hcount.only (rxWhole_only hw)
  · split
    · exact hcount.ptpReceive ..
    · exact (hcount.only lnkCount_only).only lnkEvent_only
    · exact hcount.only lnkCount_only
    · exact h

/-- A held frame enters the receive path, and no hold ring changes. -/
theorem holdEnter (p : Nat) (f : HoldFrame) : RingsStand s (holdEnter t p f) := by
  unfold Machine.holdEnter
  split
  · exact h.ptpArrive ..
  · exact ite (h.enrolReceive ..) (h.rxNormal ..)
  · exact h.rxNormal ..

end

end RingsStand

/-- The port whose oldest frame is to enter the receive path, without that frame. -/
def holdTake (s : State) (p : Nat) : State := portPut s p { portGet s p with ring := (portGet s p).ring.drop 1 }

/-- The port after the release of one frame: with an empty ring it has switched to the normal path, and it has drawn its buffers (R47). -/
def holdLeave (s : State) (p : Nat) : State := portReady (portPut s p (holdOff (portGet s p))) p

theorem holdTake_ring (s : State) (p : Nat) : (portGet (holdTake s p) p).ring = (portGet s p).ring.drop 1 := by
  unfold holdTake
  rw [portGet_portPut_same]

theorem holdLeave_ring (s : State) (p : Nat) : (portGet (holdLeave s p) p).ring = (portGet s p).ring := by
  unfold holdLeave holdOff
  rw [portGet_portReady, portGet_portPut_same]
  split <;> rfl

theorem exec_holdRingRelease {s : State} {p : Nat} {f : HoldFrame} (hm : pwrMode s < 2) (hv : s.pwr.vault = false)
    (hn : holdNext s = some (p, f)) :
    ∃ t, exec .holdRingRelease s = .next t ∧ t.links = (holdLeave (holdEnter (holdTake s p) p f) p).links := by
  have hx : exec .holdRingRelease s = execHoldRingRelease s := rfl
  unfold execHoldRingRelease at hx
  rw [if_neg (by simp [hv]; omega), hn] at hx
  exact ⟨_, hx, rfl⟩

/-- The oldest held frame leaves its ring (R47). -/
theorem next_holdRingRelease {s : State} {p : Nat} {f : HoldFrame} (hm : pwrMode s < 2) (hv : s.pwr.vault = false) (hn : holdNext s = some (p, f)) :
    Next .holdRingRelease s (fun t => (portGet t p).ring = (portGet s p).ring.drop 1) := by
  obtain ⟨t, he, hl⟩ := exec_holdRingRelease hm hv hn
  have henter := ((RingsStand.refl (holdTake s p)).holdEnter p f).ring p
  refine next_of he ?_
  rw [portGet_congr hl, holdLeave_ring, henter, holdTake_ring]

end Sys2Proof.Machine
end

section
set_option Elab.async false

/-! Ports and frames (R235, R244, R264, R267, R276, R287): what becomes of a frame that meets the checks of its queue, and the obligation. -/

namespace Sys2Proof.Machine

open Host Sys2Proof

/-! ### A frame that passes every check, by its type -/

section
variable {s : State} {q : Nat} {h : FfpHdr} {old : Replay} {stamp : Stamp} {pl : List Byte}

theorem frameEffect_data (hk : h.kind = ffData) (b : Nat) : frameEffect s q h (some b) old stamp pl = rxData s q h b old stamp pl := if_pos hk

theorem frameEffect_ack (hk : h.kind = ffAck) (b : Nat) : frameEffect s q h (some b) old stamp pl = hmpRelease (rxAck s q h.epoch pl) b := by
  unfold frameEffect
  rw [hk]
  rfl

theorem frameEffect_retransmit (hk : h.kind = ffRetransmit) (b : Nat) :
    frameEffect s q h (some b) old stamp pl = hmpRelease (rxRetransmit s q h.epoch pl) b := by
  unfold frameEffect
  rw [hk]
  rfl

theorem frameEffect_heartbeat (hk : h.kind = ffHeartbeat) (chain : Option Nat) :
    frameEffect s q h chain old stamp pl = rxHeartbeat s q h pl stamp := by
  unfold frameEffect
  rw [hk]
  rfl

theorem frameEffect_report (hk : h.kind = ffReport) : frameEffect s q h none old stamp pl = rxReport s q pl stamp := by
  unfold frameEffect
  rw [hk]
  rfl

end

theorem cardGet_queuePut {s u : State} (hl : u.links = s.links) (q : Nat) (x : Queue) (id : Nat) : cardGet (queuePut u q x) id = cardGet s id := by
  show tblFind id u.links.cards = tblFind id s.links.cards
  rw [hl]

/-! ### A frame that fails the check 7 or 9, or waits for Press -/

/-- What a queue's change leaves, where the links were those of `s` before it. -/
theorem queueMod_leaves {s u : State} {q : Nat} {x : Queue} (hx : queueGet s q = some x) (hl : u.links = s.links) (g : Queue → Queue) :
    queueGet (queueMod u q g) q = some (g x) ∧ OtherQueues s (queueMod u q g) q ∧ (queueMod u q g).links.cards = s.links.cards :=
  ⟨queueGet_queueMod_same g ((queueGet_congr hl q).trans hx), fun r hr => (queueGet_queueMod_other g hr).trans (queueGet_congr hl r),
    (queueMod_cards g).trans (congrArg (·.cards) hl)⟩

section
variable {s : State} {p q kind : Nat} {f : List Byte} {x : Queue} {h : FfpHdr} (hrow : kind ∈ receiveKinds) (hf : FrameFor s p f kind q x h)
  (hc : ffHbClass kind = false → (rxChain s p q f (nowStamp s)).isSome = true)
include hf hrow hc

/-- A row that receives a frame of its type takes the frame to the checks of its queue. -/
theorem exec_receiveRow_checks : ∃ u chain, AtChecks s u ∧ chain.isSome = !ffHbClass kind ∧ exec (receiveRow kind p f true) s =
    .next (rxQueue u p q x h chain (if ffHbClass kind then capStamp s else nowStamp s)).2 := by
  obtain ⟨u, chain, ha, hchain, he⟩ := rxArrive_checks hf hc
  exact ⟨u, chain, ha, hchain, (exec_receiveRow hrow s p f true).trans (congrArg Host.Outcome.next he)⟩

variable {a : Bool} {k : KeyReg} (hh : x.held = false) (ht : queueTakes x kind = true) (hk : keyReg x h.epoch = some (a, k))
include hh ht hk

theorem next_receive_waits (hn : replayNew k.win (ffHbClass kind) (ffSeq h) = true) (ha : rxOnAir x kind = false) (hp : pressFree s = false) :
    Next (receiveRow kind p f true) s (fun t => queueGet t q = some x ∧ ∃ w, t.links.waits = [w] ∧ w.port = p ∧ w.queue = q ∧ w.frame = h) := by
  obtain ⟨u, chain, hu, -, he⟩ := exec_receiveRow_checks hrow hf hc
  obtain ⟨-, -, hw, -, -, -, -, rfl, -, hx⟩ := hf
  rw [rxQueue_waits hh ht hk hn (by rw [hu.pressFree_eq, ha, hp]; rfl)] at he
  have hone (w : RxWait) : u.links.waits ++ [w] = [w] := by
    rw [hu.links, hw]
    rfl
  exact next_of he ⟨(hu.queueGet_eq q).trans hx, _, hone _, rfl, rfl, rfl⟩

theorem next_receive_replayed (hn : replayNew k.win (ffHbClass kind) (ffSeq h) = false) : Next (receiveRow kind p f true) s (fun t =>
    queueGet t q = some { x with replays := x.replays + 1 } ∧ OtherQueues s t q ∧ t.links.cards = s.links.cards) := by
  obtain ⟨u, chain, hu, -, he⟩ := exec_receiveRow_checks hrow hf hc
  obtain ⟨-, -, -, -, -, -, -, rfl, -, hx⟩ := hf
  rw [rxQueue_replayed hh ht hk hn] at he
  exact next_of he (queueMod_leaves hx (rxDrop_only.links_eq.trans hu.links) _)

theorem next_receive_forged (hn : replayNew k.win (ffHbClass kind) (ffSeq h) = true) (hp : pressFree s = true)
    (ho : gcmOpen k.key (ffpNonce h.queue h.epoch h.ctr) h.raw h.body h.tag = none) : Next (receiveRow kind p f true) s (fun t =>
    queueGet t q = some { x with authFail := x.authFail + 1 } ∧ OtherQueues s t q ∧ t.links.cards = s.links.cards) := by
  obtain ⟨u, chain, hu, -, he⟩ := exec_receiveRow_checks hrow hf hc
  obtain ⟨-, -, -, -, -, -, -, rfl, -, hx⟩ := hf
  have htaint : (chain.elim u (chainTaint u · 36)).links = u.links := by
    cases chain with
    | none => rfl
    | some b => exact chainTaint_only.links_eq
  rw [rxQueue_forged hh ht hk hn (by simp [hu.pressFree_eq, hp]) ho] at he
  exact next_of he (queueMod_leaves hx (lnkEvent_only.links_eq.trans (rxDrop_only.links_eq.trans (htaint.trans hu.links))) _)

end

/-! ### A frame that passes every check -/

section
variable {s : State} {p q kind : Nat} {f : List Byte} {x : Queue} {h : FfpHdr} {k : KeyReg} {pl : List Byte}

/-- A row that receives a frame that passes every check marks the frame's counter, and does what its type says. -/
theorem exec_receiveRow_opens (hrow : kind ∈ receiveKinds) (hf : FrameFor s p f kind q x h)
    (hc : ffHbClass kind = false → (rxChain s p q f (nowStamp s)).isSome = true) (hp : pressFree s = true) (ho : FrameOpens x h k pl) :
    h.kind = kind ∧ ∃ u chain, AtChecks s u ∧ chain.isSome = !ffHbClass kind ∧ exec (receiveRow kind p f true) s =
      .next (frameEffect (queuePut u q (rxTaken x h k (if ffHbClass kind then capStamp s else nowStamp s))) q h chain k.win
        (if ffHbClass kind then capStamp s else nowStamp s) pl) := by
  obtain ⟨u, chain, hu, hchain, he⟩ := exec_receiveRow_checks hrow hf hc
  obtain ⟨-, -, -, -, -, -, -, hkind, -⟩ := hf
  rw [rxQueue_opens ho (hu.pressFree_eq.trans hp)] at he
  exact ⟨hkind, u, chain, hu, hchain, he⟩

variable (hp : pressFree s = true) (ho : FrameOpens x h k pl)
include hp ho

section
variable (hc : (rxChain s p q f (nowStamp s)).isSome = true)
include hc

theorem next_ffpDataReceived (hf : FrameFor s p f ffData q x h) (hr : s.seam.role ≠ .follower) (hd : x.dest ≠ 2) :
    Next (.ffpDataReceived p f true) s (fun t => ∃ y, queueGet t q = some y ∧
      y.present = some (regMarked k h) ∧ y.accepted = x.accepted + 1 ∧ y.lastRx = nowStamp s ∧
      y.ackDue = x.ackDue ++ (if h.epoch = x.epoch ∧ bitN h.flags 0 = true then [ffSeq h] else []) ∧
      ((y.drops = satAdd32 x.drops 1 ∧ y.rxList = x.rxList) ∨
        ∃ g, y.rxList = x.rxList ++ [g] ∧ g.payload = pl ∧ g.ctr = h.ctr ∧ g.app = h.app)) := by
  obtain ⟨hkind, u, chain, hu, hchain, he⟩ := exec_receiveRow_opens (by decide) hf (fun _ => hc) hp ho
  obtain ⟨b, rfl⟩ := Option.isSome_iff_exists.1 hchain
  rw [frameEffect_data hkind] at he
  have hrole : (queuePut u q (rxTaken x h k (nowStamp s))).seam.role ≠ .follower := by
    show u.seam.role ≠ _
    rwa [hu.seam]
  exact next_of he (rxData_queue queueGet_queuePut_same h b k.win (nowStamp s) pl hrole hd)

theorem next_ffpAckReceived (hf : FrameFor s p f ffAck q x h) : Next (.ffpAckReceived p f true) s (fun t => ∃ y, queueGet t q = some y ∧
    y.present = some (regMarked k h) ∧
    y.txList = x.txList.filter (fun g => !(decide (g.sent ≠ 0 ∧ txEpoch g = h.epoch) && ackNames pl g.ctr))) := by
  obtain ⟨hkind, u, chain, hu, hchain, he⟩ := exec_receiveRow_opens (by decide) hf (fun _ => hc) hp ho
  obtain ⟨b, rfl⟩ := Option.isSome_iff_exists.1 hchain
  rw [frameEffect_ack hkind] at he
  obtain ⟨y, hy, hrest⟩ := rxAck_queue (queueGet_queuePut_same (s := u) (q := q) (x := rxTaken x h k (nowStamp s))) h.epoch pl
  exact next_of he ⟨y, (queueGet_congr hmpRelease_only.links_eq q).trans hy, hrest⟩

theorem next_ffpRetransmitReqReceived (hf : FrameFor s p f ffRetransmit q x h) (hcls : x.cls = 2) :
    Next (.ffpRetransmitReqReceived p f true) s (fun t => ∃ y, queueGet t q = some y ∧ y.present = some (regMarked k h) ∧
      y.txList = x.txList.map (fun g =>
        if g.sent ≠ 0 && txEpoch g == h.epoch && ackNames pl g.ctr && decide (s.time.clk < g.firstAt.getD 0 + deadlinePart x 4) then
          { g with again := true } else g)) := by
  obtain ⟨hkind, u, chain, hu, hchain, he⟩ := exec_receiveRow_opens (by decide) hf (fun _ => hc) hp ho
  obtain ⟨b, rfl⟩ := Option.isSome_iff_exists.1 hchain
  rw [frameEffect_retransmit hkind] at he
  have hy := rxRetransmit_queue (queueGet_queuePut_same (s := u) (q := q) (x := rxTaken x h k (nowStamp s))) h.epoch pl hcls
  refine next_of he ⟨_, (queueGet_congr hmpRelease_only.links_eq q).trans hy, rfl, ?_⟩
  rw [← hu.time]
  rfl

end

theorem next_ffpHeartbeatReceived (hf : FrameFor s p f ffHeartbeat q x h) : Next (.ffpHeartbeatReceived p f true) s (fun t =>
    ∃ y, queueGet t q = some y ∧ y.present = some (regMarked k h) ∧ y.hbLast = some s.time.clk ∧ y.hbLost = false ∧
      y.heard = byteAt pl 0 % 8) := by
  obtain ⟨hkind, u, chain, hu, -, he⟩ := exec_receiveRow_opens (by decide) hf nofun hp ho
  rw [frameEffect_heartbeat hkind] at he
  rw [← hu.time]
  exact next_of he (rxHeartbeat_queue queueGet_queuePut_same h pl _)

/-- An accepted report goes to the queue's card, with the frame's Stamp; the queue has marked the frame's counter. -/
theorem exec_ffpCardReportReceived (hf : FrameFor s p f ffReport q x h) : ∃ u, AtChecks s u ∧ exec (.ffpCardReportReceived p f true) s =
    .next (rxReport (queuePut u q (rxTaken x h k (capStamp s))) q pl (capStamp s)) := by
  obtain ⟨hkind, u, chain, hu, hchain, he⟩ := exec_receiveRow_opens (by decide) hf nofun hp ho
  obtain rfl : chain = none := Option.isNone_iff_eq_none.1 (Option.isSome_eq_false_iff.1 hchain)
  rw [frameEffect_report hkind, if_pos (show ffHbClass ffReport = true from rfl)] at he
  exact ⟨u, hu, he⟩

theorem next_ffpCardReportReceived {r : CardRec} (hf : FrameFor s p f ffReport q x h) (hid : beAt pl 0 8 = x.card.toNat)
    (hr : cardGet s x.card.toNat = some r) (hrole : s.seam.role ≠ .follower) : Next (.ffpCardReportReceived p f true) s (fun t =>
      ∃ r', cardGet t x.card.toNat = some r' ∧ r'.report = capStamp s ∧
        r'.left = (if reportChanges r (beAt pl 12 4) (beAt pl 18 2) then min r.left (beAt pl 12 4) else r.left) ∧
        r'.key = r.key ∧ r'.conf = r.conf) := by
  obtain ⟨u, hu, he⟩ := exec_ffpCardReportReceived hp ho hf
  have hrole' : (queuePut u q (rxTaken x h k (capStamp s))).seam.role ≠ .follower := by
    show u.seam.role ≠ _
    rwa [hu.seam]
  exact next_of he (rxReport_card queueGet_queuePut_same (capStamp s) hid ((cardGet_queuePut hu.links q _ _).trans hr) hrole')

theorem next_ffpCardReportReceived_foreign (hf : FrameFor s p f ffReport q x h) (hid : beAt pl 0 8 ≠ x.card.toNat) :
    Next (.ffpCardReportReceived p f true) s (fun t => t.links.cards = s.links.cards) := by
  obtain ⟨u, hu, he⟩ := exec_ffpCardReportReceived hp ho hf
  exact next_of he ((rxReport_foreign (x := rxTaken x h k (capStamp s)) queueGet_queuePut_same (capStamp s) hid).trans (congrArg (·.cards) hu.links))

end

/-- Settles O28: a row of a port by what the port's record holds; a frame by the check that it fails, or by its type. -/
theorem framesAreTransmittedAndAccepted : Obligations.FramesAreTransmittedAndAccepted := by
  unfold Obligations.FramesAreTransmittedAndAccepted
  refine ⟨fun p s hp => ⟨next_portReset, next_portReset_refused, fun _ => next_portLinkUp hp, fun _ _ => next_portLinkDown,
    next_portIdleForcedEnd, fun q x f hu hq hx _ hn => next_frameTransmitted_alarm hp hu hq hx hn, next_frameTransmitted_idle,
    fun q x f more hx hl hd hh hr hm hf hc ho hn hw => next_receiveDelivery hx hl hd hh hr hm hf hc ho hn hw,
    fun f hm hv hn => next_holdRingRelease hm hv hn, fun kind f hk hu hh hw => next_receive_damaged hk hu hh hw⟩,
    fun p q kind f x h s _ hrow hf hc => ⟨?waits, ?fails, ?opens⟩⟩
  case waits =>
    exact fun a k hh ht hk hn ha hp => next_receive_waits hrow hf hc hh ht hk hn ha hp
  case fails =>
    exact fun k hp hh ht hk => ⟨next_receive_replayed hrow hf hc hh ht hk,
      fun hn => next_receive_forged hrow hf hc hh ht hk hn hp⟩
  case opens =>
    refine fun k pl hp ho => ⟨?_, ?_, ?_, ?_, ?_, ?_⟩
    · rintro rfl hr hd
      exact next_ffpDataReceived hp ho (hc rfl) hf hr hd
    · rintro rfl
      exact next_ffpAckReceived hp ho (hc rfl) hf
    · rintro rfl hcls
      exact next_ffpRetransmitReqReceived hp ho (hc rfl) hf hcls
    · rintro rfl
      exact next_ffpHeartbeatReceived hp ho hf
    · rintro r rfl hid hr hrole
      exact next_ffpCardReportReceived hp ho hf hid hr hrole
    · rintro rfl hid
      exact next_ffpCardReportReceived_foreign hp ho hf hid

end Sys2Proof.Machine
end

section
set_option Elab.async false

/-! SUPPORT. Byte strings as little-endian words, and the words of a Gulos instruction (R4, R365 to R367). -/

namespace Sys2Proof.Machine

/-! ### Little-endian words -/

@[simp] theorem leBytes_length (n v : Nat) : (leBytes n v).length = n := by
  induction n generalizing v with
  | zero => rfl
  | succ n ih => simp [leBytes, ih]

theorem leNat_leBytes (n v : Nat) : leNat (leBytes n v) = v % 256 ^ n := by
  induction n generalizing v with
  | zero => simp [leBytes, leNat, Nat.mod_one]
  | succ n ih => rw [leBytes, leNat, ih, Nat.pow_succ, Nat.mul_comm (256 ^ n), Nat.mod_mul, BitVec.toNat_ofNat]

theorem leNat_lt (bs : List Byte) : leNat bs < 256 ^ bs.length := by
  induction bs with
  | nil => simp [leNat]
  | cons b bs ih =>
    have hb := b.isLt
    rw [leNat, List.length_cons, Nat.pow_succ]
    omega

theorem leBytes_leNat (bs : List Byte) : leBytes bs.length (leNat bs) = bs := by
  induction bs with
  | nil => rfl
  | cons b bs ih =>
    have hb := b.isLt
    rw [List.length_cons, leBytes, leNat, show (b.toNat + 256 * leNat bs) / 256 = leNat bs by omega, ih]
    congr 1
    exact BitVec.eq_of_toNat_eq (by rw [BitVec.toNat_ofNat]; omega)

/-- Bytes inside a string need no filling. -/
theorem bytesAt_of_le {bs : List Byte} {off n : Nat} (h : off + n ≤ bs.length) : bytesAt bs off n = (bs.drop off).take n := by
  have hl : ((bs.drop off).take n).length = n := by rw [List.length_take, List.length_drop]; omega
  simp [bytesAt, hl, zeros]

theorem bytesAt_length (bs : List Byte) (off n : Nat) : (bytesAt bs off n).length = n := by
  simp [bytesAt, zeros]

theorem leAt_lt (bs : List Byte) (off n : Nat) : leAt bs off n < 256 ^ n := by
  have h := leNat_lt (bytesAt bs off n)
  rwa [bytesAt_length] at h

/-- The `m` words that stand in a byte string from an offset. -/
def wordsFrom (bs : List Byte) (off : Nat) : Nat → List Nat
  | 0 => []
  | m + 1 => leAt bs off 4 :: wordsFrom bs (off + 4) m

@[simp] theorem wordsFrom_length (bs : List Byte) (off m : Nat) : (wordsFrom bs off m).length = m := by
  induction m generalizing off with
  | zero => rfl
  | succ m ih => simp [wordsFrom, ih]

theorem flatMap_wordsFrom {bs : List Byte} {off m : Nat} (h : off + 4 * m ≤ bs.length) :
    (wordsFrom bs off m).flatMap (leBytes 4) = (bs.drop off).take (4 * m) := by
  induction m generalizing off with
  | zero => simp [wordsFrom]
  | succ m ih =>
    have hw : leBytes 4 (leAt bs off 4) = (bs.drop off).take 4 := by
      rw [← bytesAt_of_le (by omega), leAt]
      exact (congrArg (leBytes · _) (bytesAt_length bs off 4)).symm.trans (leBytes_leNat _)
    rw [wordsFrom, List.flatMap_cons, ih (by omega), hw, Nat.mul_succ, Nat.add_comm (4 * m) 4, List.take_add,
      List.drop_drop]

/-- Words laid out as bytes are read back from the place where they stand. -/
theorem wordsFrom_append (pre rest : List Byte) {ws : List Nat} (h : ∀ w ∈ ws, w < 2 ^ 32) :
    wordsFrom (pre ++ (ws.flatMap (leBytes 4) ++ rest)) pre.length ws.length = ws := by
  induction ws generalizing pre with
  | nil => rfl
  | cons w ws ih =>
    have hw : leAt (pre ++ ((w :: ws).flatMap (leBytes 4) ++ rest)) pre.length 4 = w := by
      rw [leAt, bytesAt_of_le (by simp), List.drop_left, List.flatMap_cons, List.append_assoc,
        List.take_left' (leBytes_length 4 w), leNat_leBytes]
      exact Nat.mod_eq_of_lt (h w List.mem_cons_self)
    have e := ih (pre ++ leBytes 4 w) (fun x hx => h x (List.mem_cons_of_mem _ hx))
    rw [List.length_append, leBytes_length] at e
    rw [List.length_cons, wordsFrom, hw]
    congr 1
    simpa using e

/-! ### Operation codes -/

theorem gopOf_gopCode (g : GOp) : gopOf (gopCode g).1 (gopCode g).2 = some g := by cases g <;> rfl

theorem gopCode_lt (g : GOp) : (gopCode g).1 < 16 ∧ (gopCode g).2 < 64 := by cases g <;> decide

theorem rolesOf_length_le (g : GOp) : (rolesOf g).length ≤ 3 := by cases g <;> decide

/-- No two codes name one operation (Table 13-9): the codes of a group's list, and the reserved ones. -/
theorem gopCode_of_gopOf {c o : Nat} {g : GOp} (hc : c < 16) (ho : o < 64) (h : gopOf c o = some g) : gopCode g = (c, o) := by
  have all : ∀ c < 16, ∀ o < 64, ∀ g ∈ gopOf c o, gopCode g = (c, o) := by decide
  exact all c hc o ho g h


/-! ### Extension words -/

/-- A specifier without its extension word. -/
def bare (rp : Role × Spec) : Role × Spec := (rp.1, { rp.2 with ext := 0 })

/-- The extension words of fields, in field order. -/
def extsOf (l : List (Role × Spec)) : List Nat := (l.filter (fun rp => needsExt rp.1 rp.2)).map (fun rp => rp.2.ext)

theorem needsExt_bare (rp : Role × Spec) : needsExt rp.1 (bare rp).2 = needsExt rp.1 rp.2 := rfl

/-- Fields whose extension words stand in the bytes get them back. -/
theorem takeExts_bare {bs : List Byte} {l : List (Role × Spec)} {off : Nat}
    (hw : wordsFrom bs off (extsOf l).length = extsOf l) (hz : ∀ rp ∈ l, (needsExt rp.1 rp.2 || rp.2.ext == 0) = true) :
    takeExts bs (l.map bare) off = (l.map (·.2), off + 4 * (extsOf l).length) := by
  induction l generalizing off with
  | nil => rfl
  | cons rp l ih =>
    obtain ⟨r, p⟩ := rp
    have hp := hz _ List.mem_cons_self
    replace hz := fun x hx => hz x (List.mem_cons_of_mem _ hx)
    rw [List.map_cons, show bare (r, p) = (r, { p with ext := 0 }) from rfl, takeExts,
      show needsExt r { p with ext := 0 } = needsExt r p from rfl]
    by_cases hn : needsExt r p = true
    · have he : extsOf ((r, p) :: l) = p.ext :: extsOf l := by simp [extsOf, hn]
      rw [he, List.length_cons, wordsFrom, List.cons.injEq] at hw
      rw [if_pos hn, ih hw.2 hz, he, hw.1]
      simp only [List.map_cons, List.length_cons, Prod.mk.injEq]
      exact ⟨trivial, by omega⟩
    · have he : extsOf ((r, p) :: l) = extsOf l := by simp [extsOf, hn]
      have hx : p.ext = 0 := by simpa [hn] using hp
      rw [he] at hw
      rw [if_neg hn, ih hw hz, he, ← hx]
      rfl

/-- What `takeExts` gives: the fields with the words that stand in the bytes, one after the other. -/
theorem takeExts_spec (bs : List Byte) {l : List (Role × Spec)} (off : Nat) (hb : l.map bare = l) :
    ∃ l', takeExts bs l off = (l'.map (·.2), off + 4 * (extsOf l').length) ∧ l'.map bare = l ∧
      wordsFrom bs off (extsOf l').length = extsOf l' ∧
      ∀ rp ∈ l', rp.2.ext < 2 ^ 32 ∧ (needsExt rp.1 rp.2 || rp.2.ext == 0) = true := by
  induction l generalizing off with
  | nil => exact ⟨[], rfl, rfl, rfl, by simp⟩
  | cons rp l ih =>
    obtain ⟨r, p⟩ := rp
    rw [List.map_cons, List.cons.injEq] at hb
    obtain ⟨hp, hb⟩ := hb
    have hx : p.ext = 0 := (congrArg (fun x => x.2.ext) hp).symm
    by_cases hn : needsExt r p = true
    · obtain ⟨l', ht, hl, hw, ha⟩ := ih (off + 4) hb
      have he : extsOf ((r, { p with ext := leAt bs off 4 }) :: l') = leAt bs off 4 :: extsOf l' := by
        rw [extsOf, List.filter_cons_of_pos (by exact hn)]; rfl
      refine ⟨(r, { p with ext := leAt bs off 4 }) :: l', ?_, ?_, ?_, ?_⟩
      · rw [takeExts, if_pos hn, ht, he]
        simp only [List.map_cons, List.length_cons, Prod.mk.injEq]
        exact ⟨trivial, by omega⟩
      · rw [List.map_cons, hl, bare, ← hx]
      · rw [he, List.length_cons, wordsFrom, hw]
      · rintro x (_ | ⟨_, hm⟩)
        · exact ⟨leAt_lt bs off 4, by rw [show needsExt r { p with ext := leAt bs off 4 } = needsExt r p from rfl, hn]; rfl⟩
        · exact ha x hm
    · obtain ⟨l', ht, hl, hw, ha⟩ := ih off hb
      have he : extsOf ((r, p) :: l') = extsOf l' := by rw [extsOf, List.filter_cons_of_neg (by exact hn)]; rfl
      refine ⟨(r, p) :: l', ?_, ?_, ?_, ?_⟩
      · rw [takeExts, if_neg hn, ht, he]; rfl
      · rw [List.map_cons, hl, hp]
      · rw [he, hw]
      · rintro x (_ | ⟨_, hm⟩)
        · exact ⟨by rw [hx]; decide, by simp [hx]⟩
        · exact ha x hm

/-! ### The parts of a decoded instruction -/

/-- The fields of the words 0 and 1, without extension words. -/
def gPairs (g : GOp) (w0 w1 : Nat) : List (Role × Spec) :=
  ((rolesOf g).zip [bitsN w0 15 0, bitsN w1 31 16, bitsN w1 15 0]).map (fun rp => (rp.1, specOf rp.2))

/-- The bits that an operation leaves unused are zero (R365). -/
def gUnused (g : GOp) (w0 w1 : Nat) : Bool :=
  match (rolesOf g).length with
  | 0 => [GOp.pand, .por, .pxor, .pnot, .pset].contains g || bitsN w0 15 0 == 0
  | 2 => bitsN w1 15 0 == 0
  | _ => true

/-- The low half of word 0 of a predicate operation names predicates only (R374). -/
def gPredsOk (g : GOp) (w0 : Nat) : Bool :=
  match g with
  | .pand | .por | .pxor => bitsN w0 15 0 == bitsN w0 10 8 * 256 + bitsN w0 6 4 * 16 + bitsN w0 2 0
  | .pnot => bitsN w0 15 0 == bitsN w0 10 8 * 256 + bitsN w0 6 4 * 16
  | .pset => bitsN w0 15 0 == bitsN w0 10 8 * 256 + bitsN w0 0 0
  | _ => true

/-- The words of an operation keep every rule of R365, R374, R375 and R377. -/
def gRules (g : GOp) (w0 w1 : Nat) (ps : List Spec) : Bool :=
  gUnused g w0 w1 && gPredsOk g w0 && sizeLegal g (bitsN w0 17 16) && blockLegal g ps &&
    ((rolesOf g).zip ps).all (fun rp => specLegal g rp.1 rp.2)

/-- The instruction of operation `g` with the words 0 and 1 `w0` and `w1`, whose fields and length `e` gives. -/
def gMake (g : GOp) (w0 w1 : Nat) (e : List Spec × Nat) : GInstr :=
  { sense := bitN w0 31, pred := bitsN w0 30 28, op := g, size := 2 ^ bitsN w0 17 16, specs := e.1, word0 := w0
    len := e.2, legal := gRules g w0 w1 e.1 }

/-- Word 1, of an operation with two fields or three. -/
def gSecond (bs : List Byte) (g : GOp) : Nat := if 2 ≤ (rolesOf g).length then leAt bs 4 4 else 0

/-- Where the extension words begin. -/
def gHead (g : GOp) : Nat := if 2 ≤ (rolesOf g).length then 8 else 4

theorem gDecode_eq {bs : List Byte} {g : GOp} (h : gopOf (bitsN (leAt bs 0 4) 27 24) (bitsN (leAt bs 0 4) 23 18) = some g) :
    gDecode bs = some (gMake g (leAt bs 0 4) (gSecond bs g) (takeExts bs (gPairs g (leAt bs 0 4) (gSecond bs g)) (gHead g))) := by
  unfold gDecode gSecond gHead
  simp only [h, decide_eq_true_eq]
  rfl

theorem gDecode_inv {bs : List Byte} {i : GInstr} (h : gDecode bs = some i) :
    gopCode i.op = (bitsN (leAt bs 0 4) 27 24, bitsN (leAt bs 0 4) 23 18) ∧
    i = gMake i.op (leAt bs 0 4) (gSecond bs i.op) (takeExts bs (gPairs i.op (leAt bs 0 4) (gSecond bs i.op)) (gHead i.op)) := by
  rcases hg : gopOf (bitsN (leAt bs 0 4) 27 24) (bitsN (leAt bs 0 4) 23 18) with _ | g
  · simp [gDecode, hg] at h
  · rw [gDecode_eq hg, Option.some.injEq] at h
    have ho : i.op = g := by rw [← h]; rfl
    rw [ho]
    exact ⟨gopCode_of_gopOf (Nat.mod_lt _ (by decide)) (Nat.mod_lt _ (by decide)) hg, h.symm⟩

/-! ### Fields -/

theorem specOf_specRaw {p : Spec} (hm : p.mode < 16) (ha : p.an < 16) (hn : p.mn < 16) (ho : p.opts < 16) (hr : p.raw = specRaw p) :
    specOf p.raw = { p with ext := 0 } := by
  obtain ⟨mode, an, mn, opts, raw, ext⟩ := p
  simp only [specRaw] at hm ha hn ho hr
  subst hr
  simp only [specOf, bitsN, Spec.mk.injEq]
  norm_num
  omega

theorem specRaw_lt {p : Spec} (hm : p.mode < 16) (ha : p.an < 16) (hn : p.mn < 16) (ho : p.opts < 16) : specRaw p < 65536 := by
  unfold specRaw
  omega

theorem specOf_wf {x : Nat} (hx : x < 65536) : (specOf x).mode < 16 ∧ (specOf x).an < 16 ∧ (specOf x).mn < 16 ∧
    (specOf x).opts < 16 ∧ (specOf x).raw = specRaw (specOf x) := by
  simp only [specOf, specRaw, bitsN]
  norm_num
  omega

theorem specWf_iff {r : Role} {p : Spec} : specWf r p = true ↔ (p.mode < 16 ∧ p.an < 16 ∧ p.mn < 16 ∧ p.opts < 16 ∧ p.raw = specRaw p ∧
    p.ext < 2 ^ 32) ∧ (needsExt r p || p.ext == 0) = true := by
  simp only [specWf, Bool.and_eq_true, decide_eq_true_eq]

/-- The low half of an operation without fields: what `gWf` asks is what the decoder checks. -/
theorem gLowLegal_eq {i : GInstr} (h : rolesOf i.op = []) (w1 : Nat) :
    gLowLegal i = (gUnused i.op i.word0 w1 && gPredsOk i.op i.word0) := by
  obtain ⟨sense, pred, op, size, specs, w0, len, legal⟩ := i
  have hd : bitsN (w0 % 65536) 10 8 = bitsN w0 10 8 := by simp only [bitsN]; norm_num; omega
  have ha : bitsN (w0 % 65536) 6 4 = bitsN w0 6 4 := by simp only [bitsN]; norm_num; omega
  have hl : bitsN w0 15 0 = w0 % 65536 := by simp [bitsN]
  have hc : bitsN w0 2 0 = w0 % 65536 % 8 := by simp only [bitsN]; norm_num
  have he : bitsN w0 0 0 = w0 % 65536 % 2 := by simp only [bitsN]; norm_num
  simp only [gLowLegal, hd, ha]
  cases op <;> simp [rolesOf] at h <;> simp [gUnused, gPredsOk, rolesOf, hl, hc, he, Nat.mul_comm]

theorem gPredsOk_of_roles {g : GOp} (h : rolesOf g ≠ []) (w0 : Nat) : gPredsOk g w0 = true := by
  cases g <;> simp [rolesOf] at h <;> rfl

/-! ### The words of an instruction -/

/-- The code of a size in bytes (Table 13-5). -/
def sizeCode (n : Nat) : Nat := if n = 1 then 0 else if n = 2 then 1 else if n = 4 then 2 else 3

theorem sizeCode_lt (n : Nat) : sizeCode n < 4 := by
  unfold sizeCode
  split_ifs <;> decide

theorem two_pow_sizeCode {n : Nat} (h : n ∈ [1, 2, 4, 8]) : 2 ^ sizeCode n = n := by
  fin_cases h <;> rfl

theorem sizeCode_two_pow {k : Nat} (h : k < 4) : sizeCode (2 ^ k) = k := by
  interval_cases k <;> rfl

theorem two_pow_size_mem {k : Nat} (h : k < 4) : 2 ^ k ∈ [1, 2, 4, 8] := by
  interval_cases k <;> decide

theorem sizeField_lt (w : Nat) : bitsN w 17 16 < 4 := Nat.mod_lt _ (by decide)

theorem gWord0_eq (i : GInstr) : gWord0 i = 2147483648 * b2n i.sense + 268435456 * i.pred + 16777216 * (gopCode i.op).1 +
    262144 * (gopCode i.op).2 + 65536 * sizeCode i.size + gLow i := rfl

theorem gWord0_lt {i : GInstr} (hp : i.pred < 8) (hl : gLow i < 65536) : gWord0 i < 2 ^ 32 := by
  have hc := gopCode_lt i.op
  have hs := sizeCode_lt i.size
  rw [gWord0_eq]
  cases i.sense <;> simp only [b2n] <;> norm_num <;> omega

theorem gWord0_fields {i : GInstr} (hp : i.pred < 8) (hl : gLow i < 65536) :
    bitN (gWord0 i) 31 = i.sense ∧ bitsN (gWord0 i) 30 28 = i.pred ∧ bitsN (gWord0 i) 27 24 = (gopCode i.op).1 ∧
    bitsN (gWord0 i) 23 18 = (gopCode i.op).2 ∧ bitsN (gWord0 i) 17 16 = sizeCode i.size ∧ bitsN (gWord0 i) 15 0 = gLow i := by
  have hc := gopCode_lt i.op
  have hs := sizeCode_lt i.size
  rw [gWord0_eq]
  cases i.sense <;> simp only [b2n, bitN, bitsN] <;> norm_num <;> omega

/-- A word is the sum of its fields. -/
theorem word_of_fields {w : Nat} (h : w < 2 ^ 32) : w = 2147483648 * b2n (bitN w 31) + 268435456 * bitsN w 30 28 +
    16777216 * bitsN w 27 24 + 262144 * bitsN w 23 18 + 65536 * bitsN w 17 16 + bitsN w 15 0 := by
  have hb : b2n (bitN w 31) = w / 2147483648 := by
    have : w / 2147483648 = 0 ∨ w / 2147483648 = 1 := by omega
    rcases this with e | e <;> simp [b2n, bitN, e]
  rw [hb]
  simp only [bitsN]
  norm_num
  omega

/-- Word 1 as a number; 0 of an operation without it. -/
def gOne (i : GInstr) : Nat := match i.specs with
  | [_, q] => 65536 * q.raw
  | [_, q, r] => 65536 * q.raw + r.raw
  | _ => 0

theorem gOne_of_short {i : GInstr} (h : i.specs.length < 2) : gOne i = 0 := by
  unfold gOne
  rcases hs : i.specs with _ | ⟨p, _ | ⟨q, l⟩⟩
  · rfl
  · rfl
  · simp [hs] at h

theorem gWf_iff {i : GInstr} : gWf i = true ↔ i.pred < 8 ∧ i.size ∈ [1, 2, 4, 8] ∧ i.specs.length = (rolesOf i.op).length ∧
    (∀ rp ∈ (rolesOf i.op).zip i.specs, specWf rp.1 rp.2 = true ∧ specLegal i.op rp.1 rp.2 = true) ∧
    (i.specs = [] → gLowLegal i = true) ∧ sizeLegal i.op (bitsN (gWord0 i) 17 16) = true ∧ blockLegal i.op i.specs = true ∧
    i.word0 = gWord0 i ∧ i.len = 4 * (gWords i).length ∧ i.legal = true := by
  simp only [gWf, Bool.and_eq_true, Bool.or_eq_true, decide_eq_true_eq, List.all_eq_true, List.contains_iff_mem, Bool.not_eq_true',
    and_assoc]
  have e : (i.specs.isEmpty = false ∨ gLowLegal i = true) ↔ (i.specs = [] → gLowLegal i = true) := by
    cases i.specs <;> simp
  rw [e]

section
variable {i : GInstr} (hlen : i.specs.length = (rolesOf i.op).length)
include hlen

theorem gWord1_eq : gWord1 i = if 2 ≤ (rolesOf i.op).length then [gOne i] else [] := by
  have h3 := rolesOf_length_le i.op
  rw [← hlen] at h3 ⊢
  unfold gWord1 gOne
  rcases hs : i.specs with _ | ⟨p, _ | ⟨q, _ | ⟨r, _ | ⟨x, l⟩⟩⟩⟩ <;> simp [hs] at h3 ⊢
  omega

variable (hf : ∀ rp ∈ (rolesOf i.op).zip i.specs, specWf rp.1 rp.2 = true)
include hf

theorem raw_lt_of_mem {p : Spec} (hp : p ∈ i.specs) : p.raw < 65536 ∧ specOf p.raw = { p with ext := 0 } := by
  rw [← List.map_snd_zip (l₁ := rolesOf i.op) (l₂ := i.specs) (by omega), List.mem_map] at hp
  obtain ⟨rp, hm, rfl⟩ := hp
  obtain ⟨⟨h1, h2, h3, h4, h5, -⟩, -⟩ := specWf_iff.1 (hf rp hm)
  exact ⟨h5 ▸ specRaw_lt h1 h2 h3 h4, specOf_specRaw h1 h2 h3 h4 h5⟩

theorem gLow_lt : gLow i < 65536 := by
  have h := fun p => raw_lt_of_mem hlen hf (p := p)
  unfold gLow
  split
  · exact Nat.mod_lt _ (by decide)
  · rename_i p _ hp
    exact (h p (by rw [hp]; exact List.mem_cons_self)).1

theorem gOne_lt : gOne i < 2 ^ 32 := by
  have h := fun p => raw_lt_of_mem hlen hf (p := p)
  unfold gOne
  split
  · rename_i p q hp
    have := (h q (by rw [hp]; simp)).1
    omega
  · rename_i p q r hp
    have := (h q (by rw [hp]; simp)).1
    have := (h r (by rw [hp]; simp)).1
    omega
  · decide

/-- The fields of an instruction's words are its fields. -/
theorem gPairs_words (hp : i.pred < 8) : gPairs i.op (gWord0 i) (gOne i) = ((rolesOf i.op).zip i.specs).map bare := by
  have h := fun p => raw_lt_of_mem hlen hf (p := p)
  have hlow := (gWord0_fields hp (gLow_lt hlen hf)).2.2.2.2.2
  have h3 := rolesOf_length_le i.op
  unfold gPairs
  rw [hlow]
  clear hf hlow
  revert hlen h3
  generalize rolesOf i.op = rs
  intro hlen h3
  unfold gLow gOne
  rcases hs : i.specs with _ | ⟨p, _ | ⟨q, _ | ⟨r, _ | ⟨x, l⟩⟩⟩⟩ <;> simp only [hs, List.length_cons, List.length_nil] at hlen
  · obtain rfl := List.length_eq_zero_iff.1 hlen.symm
    rfl
  · obtain ⟨r1, rfl⟩ := List.length_eq_one_iff.1 hlen.symm
    simp [bare, h, hs]
  · obtain ⟨r1, r2, rfl⟩ := List.length_eq_two.1 hlen.symm
    have e : bitsN (65536 * q.raw) 31 16 = q.raw := by
      have := (h q (by simp [hs])).1
      simp only [bitsN]; norm_num; omega
    simp [bare, h, hs, e]
  · obtain ⟨r1, r2, r3, rfl⟩ := List.length_eq_three.1 hlen.symm
    have hr := (h r (by simp [hs])).1
    have hq := (h q (by simp [hs])).1
    have e1 : bitsN (65536 * q.raw + r.raw) 31 16 = q.raw := by simp only [bitsN]; norm_num; omega
    have e2 : bitsN (65536 * q.raw + r.raw) 15 0 = r.raw := by simp only [bitsN]; norm_num; omega
    simp [bare, h, hs, e1, e2]
  · omega

end

/-- What the rules of the words say of a well-formed instruction. -/
theorem gRules_of_wf {i : GInstr} (h : gWf i = true) : gRules i.op (gWord0 i) (gOne i) i.specs = true := by
  obtain ⟨hp, -, hlen, hf, hlow, hsz, hb, hw, -, -⟩ := gWf_iff.1 h
  have hspec : ((rolesOf i.op).zip i.specs).all (fun rp => specLegal i.op rp.1 rp.2) = true :=
    List.all_eq_true.2 fun rp hm => (hf rp hm).2
  have hlowOk : (gUnused i.op (gWord0 i) (gOne i) && gPredsOk i.op (gWord0 i)) = true := by
    by_cases hr : rolesOf i.op = []
    · rw [← hw, ← gLowLegal_eq hr]
      exact hlow (List.length_eq_zero_iff.1 (by rw [hlen, hr]; rfl))
    · rw [gPredsOk_of_roles hr, Bool.and_true]
      unfold gUnused
      split
      · rename_i e
        exact absurd (List.length_eq_zero_iff.1 e) hr
      · rename_i e
        obtain ⟨p, q, hs⟩ := List.length_eq_two.1 (hlen.trans e)
        simp [gOne, hs, bitsN]
      · rfl
  rw [gRules, hlowOk, hsz, hb, hspec]
  rfl

/-- R365 to R367: the bytes of a well-formed instruction decode to it, whatever follows them. -/
theorem gDecode_gEncode {i : GInstr} (h : gWf i = true) (rest : List Byte) : gDecode (gEncode i ++ rest) = some i := by
  obtain ⟨hp, hsz, hlen, hf, -, -, -, hw, hl, hleg⟩ := gWf_iff.1 h
  have hfw := fun rp hm => (hf rp hm).1
  have hlow := gLow_lt hlen hfw
  obtain ⟨f1, f2, f3, f4, f5, -⟩ := gWord0_fields hp hlow
  have hext : ∀ rp ∈ (rolesOf i.op).zip i.specs, rp.2.ext < 2 ^ 32 ∧ (needsExt rp.1 rp.2 || rp.2.ext == 0) = true := fun rp hm => by
    obtain ⟨⟨-, -, -, -, -, hx⟩, hz⟩ := specWf_iff.1 (hfw rp hm)
    exact ⟨hx, hz⟩
  have hlt : ∀ w ∈ gWords i, w < 2 ^ 32 := by
    intro w hm
    rw [gWords, gWord1_eq hlen] at hm
    rcases List.mem_cons.1 hm with rfl | hm
    · exact gWord0_lt hp hlow
    rcases List.mem_append.1 hm with hm | hm
    · split at hm
      · rw [List.mem_singleton.1 hm]; exact gOne_lt hlen hfw
      · exact absurd hm (List.not_mem_nil)
    · obtain ⟨rp, hx, rfl⟩ := List.mem_map.1 hm
      exact (hext rp (List.mem_filter.1 hx).1).1
  have hwords : wordsFrom (gEncode i ++ rest) 0 (gWords i).length = gWords i := wordsFrom_append [] rest hlt
  rw [gWords, List.length_cons, wordsFrom, List.cons.injEq] at hwords
  obtain ⟨h0, hrest⟩ := hwords
  have hparts : gSecond (gEncode i ++ rest) i.op = gOne i ∧
      wordsFrom (gEncode i ++ rest) (gHead i.op) (gExts i).length = gExts i ∧
      i.len = gHead i.op + 4 * (gExts i).length := by
    rw [hl, gWords]
    rw [gWord1_eq hlen] at hrest ⊢
    unfold gSecond gHead
    by_cases h2 : 2 ≤ (rolesOf i.op).length
    · rw [if_pos h2] at hrest ⊢
      rw [List.singleton_append, List.length_cons, wordsFrom, List.cons.injEq] at hrest
      rw [if_pos h2, if_pos h2]
      exact ⟨hrest.1, hrest.2, by simp; omega⟩
    · rw [if_neg h2] at hrest ⊢
      rw [if_neg h2, if_neg h2]
      exact ⟨(gOne_of_short (by omega)).symm, hrest, by simp; omega⟩
  obtain ⟨hsec, hexts, hlen4⟩ := hparts
  have hop : gopOf (bitsN (leAt (gEncode i ++ rest) 0 4) 27 24) (bitsN (leAt (gEncode i ++ rest) 0 4) 23 18) = some i.op := by
    rw [h0, f3, f4, gopOf_gopCode]
  rw [gDecode_eq hop, h0, hsec, gPairs_words hlen hfw hp, takeExts_bare hexts (fun rp hm => (hext rp hm).2),
    List.map_snd_zip (by omega), show gHead i.op + 4 * (extsOf ((rolesOf i.op).zip i.specs)).length = i.len from hlen4.symm,
    gMake, gRules_of_wf h, f1, f2, f5, two_pow_sizeCode hsz, ← hw, ← hleg]

/-- The two words that the decoder read are those of the instruction that it gives. -/
theorem words_of_gPairs {i : GInstr} {w1 : Nat} (hlen : i.specs.length = (rolesOf i.op).length)
    (h : gPairs i.op i.word0 w1 = ((rolesOf i.op).zip i.specs).map bare) (h1 : w1 < 2 ^ 32)
    (hu : gUnused i.op i.word0 w1 = true) (hs : (rolesOf i.op).length < 2 → w1 = 0) :
    gLow i = bitsN i.word0 15 0 ∧ gOne i = w1 := by
  unfold gPairs at h
  unfold gUnused at hu
  revert hlen h hu hs
  generalize rolesOf i.op = rs
  intro hlen h hu hs
  unfold gLow gOne
  have hhi : bitsN w1 31 16 = w1 / 65536 := by simp only [bitsN]; norm_num; omega
  have hlo : bitsN w1 15 0 = w1 % 65536 := by simp [bitsN]
  rcases hp : i.specs with _ | ⟨p, _ | ⟨q, _ | ⟨r, _ | ⟨x, l⟩⟩⟩⟩ <;> simp only [hp, List.length_cons, List.length_nil] at hlen
  · exact ⟨by simp [bitsN], (hs (by omega)).symm⟩
  · obtain ⟨r1, rfl⟩ := List.length_eq_one_iff.1 hlen.symm
    simp [bare, hp, specOf] at h
    exact ⟨h.2.2.2.2.symm, (hs (by simp)).symm⟩
  · obtain ⟨r1, r2, rfl⟩ := List.length_eq_two.1 hlen.symm
    simp [bare, hp, specOf] at h hu
    refine ⟨h.1.2.2.2.2.symm, ?_⟩
    have := h.2.2.2.2.2
    show 65536 * q.raw = w1
    omega
  · obtain ⟨r1, r2, r3, rfl⟩ := List.length_eq_three.1 hlen.symm
    simp [bare, hp, specOf] at h
    refine ⟨h.1.2.2.2.2.symm, ?_⟩
    have := h.2.1.2.2.2.2
    have := h.2.2.2.2.2.2
    show 65536 * q.raw + r.raw = w1
    omega
  · have := congrArg List.length h
    simp [hp] at this
    omega

theorem gSecond_lt (bs : List Byte) (g : GOp) : gSecond bs g < 2 ^ 32 := by
  unfold gSecond
  split
  · exact leAt_lt bs 4 4
  · decide

theorem specWf_of_bare {l : List (Role × Spec)} {g : GOp} {w0 w1 : Nat} (hbare : l.map bare = gPairs g w0 w1)
    (hext : ∀ rp ∈ l, rp.2.ext < 2 ^ 32 ∧ (needsExt rp.1 rp.2 || rp.2.ext == 0) = true) : ∀ rp ∈ l, specWf rp.1 rp.2 = true := by
  intro rp hm
  obtain ⟨x, hx, he⟩ := List.mem_map.1 (hbare ▸ List.mem_map_of_mem hm : bare rp ∈ gPairs g w0 w1)
  have hraw : x.2 < 65536 := by
    have := (List.of_mem_zip hx).2
    simp only [List.mem_cons, List.not_mem_nil, or_false] at this
    rcases this with e | e | e <;> rw [e] <;> exact Nat.mod_lt _ (by decide)
  obtain ⟨h1, h2, h3, h4, h5⟩ := specOf_wf hraw
  rw [show specOf x.2 = { rp.2 with ext := 0 } from congrArg (·.2) he] at h1 h2 h3 h4 h5
  exact specWf_iff.2 ⟨⟨h1, h2, h3, h4, h5, (hext rp hm).1⟩, (hext rp hm).2⟩

/-- The words that were read are the words of the instruction, one after the other from the first byte. -/
theorem gWords_of_read {bs : List Byte} {i : GInstr} (hn : i.specs.length = (rolesOf i.op).length) (h0 : gWord0 i = leAt bs 0 4)
    (h1 : gOne i = gSecond bs i.op) (hx : wordsFrom bs (gHead i.op) (gExts i).length = gExts i)
    (hlen : i.len = gHead i.op + 4 * (gExts i).length) : gWords i = wordsFrom bs 0 (i.len / 4) ∧ i.len = 4 * (i.len / 4) := by
  rw [gWords, gWord1_eq hn, h1, h0, hlen]
  unfold gSecond gHead
  unfold gHead at hx
  by_cases h2 : 2 ≤ (rolesOf i.op).length
  · rw [if_pos h2] at hx
    rw [if_pos h2, if_pos h2, if_pos h2, show (8 + 4 * (gExts i).length) / 4 = (gExts i).length + 1 + 1 by omega]
    exact ⟨by rw [wordsFrom, wordsFrom, hx]; rfl, by omega⟩
  · rw [if_neg h2] at hx
    rw [if_neg h2, if_neg h2, show (4 + 4 * (gExts i).length) / 4 = (gExts i).length + 1 by omega]
    exact ⟨by rw [wordsFrom, hx]; rfl, by omega⟩

/-- R365 to R367: a legal instruction that is read is well-formed, and the bytes that it was read from are its words. -/
theorem gWf_gEncode_of_gDecode {bs : List Byte} {i : GInstr} (h : gDecode bs = some i) (hleg : i.legal = true) (hl : i.len ≤ bs.length) :
    gWf i = true ∧ gEncode i = bs.take i.len := by
  obtain ⟨hcode, hi⟩ := gDecode_inv h
  have hb : (gPairs i.op (leAt bs 0 4) (gSecond bs i.op)).map bare = gPairs i.op (leAt bs 0 4) (gSecond bs i.op) := by
    rw [gPairs, List.map_map]; rfl
  obtain ⟨l, ht, hbare, hwords, hext⟩ := takeExts_spec bs (gHead i.op) hb
  rw [ht] at hi
  -- the parts of the instruction, by the two words and the fields
  have hsense : i.sense = bitN (leAt bs 0 4) 31 := congrArg (·.sense) hi
  have hpred : i.pred = bitsN (leAt bs 0 4) 30 28 := congrArg (·.pred) hi
  have hsize : i.size = 2 ^ bitsN (leAt bs 0 4) 17 16 := congrArg (·.size) hi
  have hspecs : i.specs = l.map (·.2) := congrArg (·.specs) hi
  have hword0 : i.word0 = leAt bs 0 4 := congrArg (·.word0) hi
  have hlen : i.len = gHead i.op + 4 * (extsOf l).length := congrArg (·.len) hi
  have hrules : gRules i.op i.word0 (gSecond bs i.op) i.specs = true := by
    rw [hword0, hspecs, ← hleg]
    exact (congrArg (·.legal) hi).symm
  clear hi
  have hroles : l.map (·.1) = rolesOf i.op := by
    have e := congrArg (List.map (·.1)) hbare
    rw [gPairs, List.map_map, List.map_map] at e
    exact e.trans (List.map_fst_zip (rolesOf_length_le i.op))
  have hzip : (rolesOf i.op).zip i.specs = l := (List.zip_of_prod hroles hspecs.symm).symm
  have hn : i.specs.length = (rolesOf i.op).length := by rw [hspecs, ← hroles, List.length_map, List.length_map]
  obtain ⟨⟨⟨⟨hunused, hpreds⟩, hszl⟩, hblock⟩, hlegal⟩ := by
    simpa only [gRules, Bool.and_eq_true] using hrules
  rw [hzip] at hlegal
  have hpairs : gPairs i.op i.word0 (gSecond bs i.op) = ((rolesOf i.op).zip i.specs).map bare := by rw [hzip, hbare, hword0]
  obtain ⟨hlow, hone⟩ := words_of_gPairs hn hpairs (gSecond_lt bs i.op) hunused (fun h2 => if_neg (by omega))
  have hfields := specWf_of_bare hbare hext
  have hw : i.word0 = gWord0 i := by
    have e := word_of_fields (leAt_lt bs 0 4)
    have hs : sizeCode i.size = bitsN (leAt bs 0 4) 17 16 := by rw [hsize, sizeCode_two_pow (sizeField_lt _)]
    rw [gWord0_eq, hsense, hpred, hcode, hs, hlow, hword0]
    exact e
  have hx : gExts i = extsOf l := congrArg extsOf hzip
  have hgw := gWords_of_read hn (by rw [← hw, hword0]) hone (by rw [hx, hwords]) (by rw [hx, hlen])
  refine ⟨gWf_iff.2 ⟨?_, ?_, hn, ?_, ?_, ?_, hblock, hw, ?_, hleg⟩, ?_⟩
  · rw [hpred]; exact Nat.mod_lt _ (by decide)
  · rw [hsize]; exact two_pow_size_mem (sizeField_lt _)
  · rw [hzip]
    exact fun rp hm => ⟨hfields rp hm, List.all_eq_true.1 hlegal rp hm⟩
  · intro hs
    have hr : rolesOf i.op = [] := List.length_eq_zero_iff.1 (by rw [← hn, hs]; rfl)
    rw [gLowLegal_eq hr (gSecond bs i.op), hunused, hpreds]
    rfl
  · rw [← hw]; exact hszl
  · rw [hgw.1, wordsFrom_length]; exact hgw.2
  · rw [gEncode, hgw.1, flatMap_wordsFrom (by omega), List.drop_zero, ← hgw.2]

/-- Settles O58: each direction is one lemma, by the words 0 and 1 and the extension words behind them. -/
theorem gulosEncodingRoundTrip : Obligations.GulosEncodingRoundTrip :=
  ⟨fun _ rest h => gDecode_gEncode h rest, fun _ _ h hleg hl => gWf_gEncode_of_gDecode h hleg hl⟩

end Sys2Proof.Machine
end

section
set_option Elab.async false

/-! SUPPORT. The arithmetic of the Gulos data operations on bit vectors (Table 13-9, R373 to R375): two's complement, saturation, the
reversal of bits, and the results of `aluOp`. -/

namespace Sys2Proof.Machine

/-! ### Two's complement and saturation -/

theorem toSigned_eq {b n : Nat} (hb : 0 < b) (hn : n < 2 ^ b) : toSigned b n = (BitVec.ofNat b n).toInt := by
  have h2 : 2 ^ b = 2 * 2 ^ (b - 1) := by rw [← Nat.pow_succ', Nat.succ_eq_add_one, Nat.sub_add_cancel hb]
  rw [toSigned, BitVec.toInt_eq_toNat_cond, BitVec.toNat_ofNat, Nat.mod_eq_of_lt hn]
  by_cases h : n < 2 ^ (b - 1)
  · rw [if_pos h, if_pos (by omega)]
  · rw [if_neg h, if_neg (by omega)]

theorem toSigned_toNat {b : Nat} (hb : 0 < b) (x : BitVec b) : toSigned b x.toNat = x.toInt := by
  rw [toSigned_eq hb x.isLt, BitVec.ofNat_toNat, BitVec.setWidth_eq]

theorem ofSigned_eq (b : Nat) (v : Int) : ofSigned b v = (BitVec.ofInt b v).toNat := by
  rw [ofSigned, BitVec.toNat_ofInt]

theorem ofSigned_lt (b : Nat) (v : Int) : ofSigned b v < 2 ^ b := by
  rw [ofSigned_eq]
  exact (BitVec.ofInt b v).isLt

theorem ofNat_ofSigned (b : Nat) (v : Int) : BitVec.ofNat b (ofSigned b v) = BitVec.ofInt b v := by
  rw [ofSigned_eq, BitVec.ofNat_toNat, BitVec.setWidth_eq]

theorem satTo_eq (b : Nat) (v : Int) : satTo b v = (clampTo b v, decide (clampTo b v ≠ v)) := by
  have : 0 < 2 ^ (b - 1) := Nat.two_pow_pos _
  unfold satTo clampTo
  by_cases h1 : v < -((2 ^ (b - 1) : Nat) : Int)
  · rw [if_pos h1]
    simp only [Prod.mk.injEq]
    exact ⟨by omega, (decide_eq_true (by omega)).symm⟩
  · rw [if_neg h1]
    by_cases h2 : ((2 ^ (b - 1) : Nat) : Int) - 1 < v
    · rw [if_pos h2]
      simp only [Prod.mk.injEq]
      exact ⟨by omega, (decide_eq_true (by omega)).symm⟩
    · rw [if_neg h2]
      simp only [Prod.mk.injEq]
      exact ⟨by omega, (decide_eq_false (by omega)).symm⟩

theorem clampTo_bounds (b : Nat) (v : Int) : -((2 ^ (b - 1) : Nat) : Int) ≤ clampTo b v ∧ clampTo b v < (2 ^ (b - 1) : Nat) := by
  have : 0 < 2 ^ (b - 1) := Nat.two_pow_pos _
  unfold clampTo
  omega

theorem toInt_ofInt_of_bounds {b : Nat} (hb : 0 < b) {v : Int} (h1 : -((2 ^ (b - 1) : Nat) : Int) ≤ v) (h2 : v < (2 ^ (b - 1) : Nat)) :
    (BitVec.ofInt b v).toInt = v := by
  have h : 2 ^ b = 2 * 2 ^ (b - 1) := by rw [← Nat.pow_succ', Nat.succ_eq_add_one, Nat.sub_add_cancel hb]
  rw [BitVec.toInt_ofInt]
  exact Int.bmod_eq_of_le (by omega) (by omega)

theorem toInt_ofInt_clampTo {b : Nat} (hb : 0 < b) (v : Int) : (BitVec.ofInt b (clampTo b v)).toInt = clampTo b v :=
  toInt_ofInt_of_bounds hb (clampTo_bounds b v).1 (clampTo_bounds b v).2

/-! ### The reversal of bits -/

theorem revBits_succ (w n : Nat) : revBits (w + 1) n = 2 * revBits w n + b2n (bitN n w) := by
  have double : ∀ (f : Nat → Nat) (l : List Nat) (a : Nat),
      (l.map (fun i => 2 * f i)).foldl (· + ·) (2 * a) = 2 * (l.map f).foldl (· + ·) a := by
    intro f l
    induction l with
    | nil => intro a; rfl
    | cons x l ih => intro a; rw [List.map_cons, List.map_cons, List.foldl_cons, List.foldl_cons, ← Nat.mul_add, ih]
  unfold revBits
  rw [List.range_succ, List.map_append, List.foldl_append, ← double _ _ 0]
  have e : (List.range w).map (fun i => if bitN n i then 2 ^ (w + 1 - 1 - i) else 0) =
      (List.range w).map (fun i => 2 * if bitN n i then 2 ^ (w - 1 - i) else 0) := by
    refine List.map_congr_left fun i hi => ?_
    have hi := List.mem_range.1 hi
    split
    · rw [← Nat.pow_succ', show (w - 1 - i).succ = w + 1 - 1 - i by omega]
    · rfl
  rw [e]
  cases h : bitN n w <;> simp [b2n, h]

theorem revBits_lt (w n : Nat) : revBits w n < 2 ^ w := by
  induction w with
  | zero => exact Nat.one_pos
  | succ w ih =>
    have : b2n (bitN n w) ≤ 1 := by cases bitN n w <;> decide
    rw [revBits_succ, Nat.pow_succ]
    omega

theorem testBit_revBits {w n j : Nat} (hj : j < w) : (revBits w n).testBit j = n.testBit (w - 1 - j) := by
  induction w generalizing j with
  | zero => exact absurd hj (Nat.not_lt_zero j)
  | succ w ih =>
    rw [revBits_succ]
    have hb : b2n (bitN n w) < 2 := by cases bitN n w <;> decide
    cases j with
    | zero =>
      rw [Nat.testBit_zero, Nat.mul_add_mod, Nat.mod_eq_of_lt hb, bitN_testBit]
      cases h : n.testBit w <;> simp [b2n, h]
    | succ j =>
      rw [Nat.testBit_succ, Nat.mul_add_div (by decide), Nat.div_eq_of_lt hb, Nat.add_zero, ih (by omega)]
      congr 1
      omega

/-! ### Halves of a product, rotation, counts -/

section
variable {b : Nat}

theorem toNat_eq_emod (x : BitVec b) : (x.toNat : Int) = x.toInt % (2 ^ b : Nat) := by
  rw [BitVec.toInt_eq_toNat_bmod, Int.bmod_emod]
  exact (Int.emod_eq_of_lt (Int.natCast_nonneg _) (by exact_mod_cast x.isLt)).symm

theorem emod_mul_self_ediv {z m : Int} (hm : 0 < m) : z % (m * m) / m % m = z / m % m := by
  rw [Int.emod_def z, Int.mul_assoc, Int.sub_eq_add_neg, ← Int.mul_neg, Int.add_mul_ediv_left _ _ (by omega), ← Int.mul_neg,
    Int.add_mul_emod_self_left]

/-- The high half of the exact product of two signed numbers. -/
theorem mulhs_eq (hb : 0 < b) (x y : BitVec b) : ofSigned b (x.toInt * y.toInt / (2 ^ b : Nat)) =
    ((x.signExtend (2 * b) * y.signExtend (2 * b)).extractLsb' b b).toNat := by
  have hp : (2 ^ (2 * b) : Nat) = 2 ^ b * 2 ^ b := by rw [Nat.two_mul, Nat.pow_add]
  have hi : (((x.signExtend (2 * b) * y.signExtend (2 * b)).toNat : Int)) = x.toInt * y.toInt % (2 ^ (2 * b) : Nat) := by
    rw [toNat_eq_emod, BitVec.toInt_mul, Int.bmod_emod, BitVec.toInt_signExtend_of_le (by omega), BitVec.toInt_signExtend_of_le (by omega)]
  rw [BitVec.extractLsb'_toNat, Nat.shiftRight_eq_div_pow, ofSigned]
  have hz : (0 : Int) < (2 ^ b : Nat) := by exact_mod_cast Nat.two_pow_pos b
  apply Int.ofNat.inj
  rw [Int.ofNat_eq_natCast, Int.ofNat_eq_natCast, Int.toNat_of_nonneg (Int.emod_nonneg _ (by omega)), Int.natCast_mod, Int.natCast_div, hi, hp,
    Nat.cast_mul, emod_mul_self_ediv hz]

end

section
variable {b : Nat} {f : Word} {o x y : BitVec b} {free : Nat}

theorem alu_add : (aluOp .add b f o.toNat x.toNat y.toNat free).1 = (x + y).toNat := by
  simp [aluOp, BitVec.toNat_add]

theorem alu_sub (hb : 0 < b) : (aluOp .sub b f o.toNat x.toNat y.toNat free).1 = (x - y).toNat := by
  simp only [aluOp, toSigned_toNat hb, ofSigned_eq]
  rw [Int.sub_eq_add_neg, BitVec.ofInt_add, BitVec.ofInt_neg, BitVec.ofInt_toInt, BitVec.ofInt_toInt, BitVec.sub_eq_add_neg]

theorem alu_neg (hb : 0 < b) : (aluOp .neg b f o.toNat x.toNat y.toNat free).1 = (-x).toNat := by
  simp only [aluOp, toSigned_toNat hb, ofSigned_eq]
  rw [BitVec.ofInt_neg, BitVec.ofInt_toInt]

theorem alu_mul : (aluOp .mul b f o.toNat x.toNat y.toNat free).1 = (x * y).toNat := by
  simp [aluOp, BitVec.toNat_mul]

theorem alu_mac : (aluOp .mac b f o.toNat x.toNat y.toNat free).1 = (o + x * y).toNat := by
  simp [aluOp, BitVec.toNat_add, BitVec.toNat_mul]

theorem alu_mulhs (hb : 0 < b) : (aluOp .mulhs b f o.toNat x.toNat y.toNat free).1 =
    ((x.signExtend (2 * b) * y.signExtend (2 * b)).extractLsb' b b).toNat := by
  simp only [aluOp, toSigned_toNat hb]
  rw [Nat.mod_eq_of_lt (ofSigned_lt _ _), mulhs_eq hb]

theorem alu_mulhu : (aluOp .mulhu b f o.toNat x.toNat y.toNat free).1 =
    ((x.setWidth (2 * b) * y.setWidth (2 * b)).extractLsb' b b).toNat := by
  have hx := x.isLt
  have hy := y.isLt
  have hp : (2 ^ (2 * b) : Nat) = 2 ^ b * 2 ^ b := by rw [Nat.two_mul, Nat.pow_add]
  have hxy : x.toNat * y.toNat < 2 ^ (2 * b) := hp ▸ Nat.mul_lt_mul'' hx hy
  have hle : 2 ^ b ≤ 2 ^ (2 * b) := Nat.pow_le_pow_right (by decide) (by omega)
  rw [BitVec.extractLsb'_toNat, Nat.shiftRight_eq_div_pow, BitVec.toNat_mul, BitVec.toNat_setWidth, BitVec.toNat_setWidth,
    Nat.mod_eq_of_lt (Nat.lt_of_lt_of_le hx hle), Nat.mod_eq_of_lt (Nat.lt_of_lt_of_le hy hle), Nat.mod_eq_of_lt hxy]
  rfl

theorem alu_min (hb : 0 < b) : (aluOp .min b f o.toNat x.toNat y.toNat free).1 = (if x.sle y then x else y).toNat := by
  simp only [aluOp, toSigned_toNat hb, BitVec.sle, decide_eq_true_eq]
  split <;> exact Nat.mod_eq_of_lt (BitVec.isLt _)

theorem alu_max (hb : 0 < b) : (aluOp .max b f o.toNat x.toNat y.toNat free).1 = (if x.sle y then y else x).toNat := by
  simp only [aluOp, toSigned_toNat hb, BitVec.sle, decide_eq_true_eq]
  split <;> exact Nat.mod_eq_of_lt (BitVec.isLt _)

theorem alu_minu : (aluOp .minu b f o.toNat x.toNat y.toNat free).1 = (if x.ule y then x else y).toNat := by
  simp only [aluOp, BitVec.ule, decide_eq_true_eq, Nat.min_def]
  split <;> exact Nat.mod_eq_of_lt (BitVec.isLt _)

theorem alu_maxu : (aluOp .maxu b f o.toNat x.toNat y.toNat free).1 = (if x.ule y then y else x).toNat := by
  simp only [aluOp, BitVec.ule, decide_eq_true_eq, Nat.max_def]
  split <;> exact Nat.mod_eq_of_lt (BitVec.isLt _)

theorem alu_and : (aluOp .and b f o.toNat x.toNat y.toNat free).1 = (x &&& y).toNat :=
  Nat.mod_eq_of_lt (x &&& y).isLt

theorem alu_or : (aluOp .or b f o.toNat x.toNat y.toNat free).1 = (x ||| y).toNat :=
  Nat.mod_eq_of_lt (x ||| y).isLt

theorem alu_xor : (aluOp .xor b f o.toNat x.toNat y.toNat free).1 = (x ^^^ y).toNat :=
  Nat.mod_eq_of_lt (x ^^^ y).isLt

theorem alu_not : (aluOp .not b f o.toNat x.toNat y.toNat free).1 = (~~~x).toNat := by
  rw [BitVec.toNat_not]
  exact Nat.mod_eq_of_lt (by have := x.isLt; omega)

theorem alu_shl : (aluOp .shl b f o.toNat x.toNat y.toNat free).1 = (x <<< (y.toNat % b)).toNat := by
  rw [BitVec.toNat_shiftLeft, Nat.shiftLeft_eq]
  rfl

theorem alu_shr : (aluOp .shr b f o.toNat x.toNat y.toNat free).1 = (x >>> (y.toNat % b)).toNat := by
  rw [BitVec.toNat_ushiftRight, Nat.shiftRight_eq_div_pow]
  exact Nat.mod_eq_of_lt (Nat.lt_of_le_of_lt (Nat.div_le_self _ _) x.isLt)

theorem alu_sar (hb : 0 < b) : (aluOp .sar b f o.toNat x.toNat y.toNat free).1 = (x.sshiftRight (y.toNat % b)).toNat := by
  simp only [aluOp, toSigned_toNat hb]
  rw [Nat.mod_eq_of_lt (ofSigned_lt _ _), ofSigned_eq, BitVec.sshiftRight, Int.shiftRight_eq_div_pow]

theorem alu_rol (hb : 0 < b) : (aluOp .rol b f o.toNat x.toNat y.toNat free).1 = (x.rotateLeft (y.toNat % b)).toNat := by
  have hk := Nat.mod_lt y.toNat hb
  have hlow : x.toNat / 2 ^ (b - y.toNat % b) < 2 ^ (y.toNat % b) := by
    rw [Nat.div_lt_iff_lt_mul (Nat.two_pow_pos _), ← Nat.pow_add, Nat.add_sub_cancel' hk.le]
    exact x.isLt
  have hhigh : x.toNat * 2 ^ (y.toNat % b) % 2 ^ b = 2 ^ (y.toNat % b) * (x.toNat % 2 ^ (b - y.toNat % b)) := by
    rw [← Nat.mul_mod_mul_left, ← Nat.pow_add, Nat.add_sub_cancel' hk.le, Nat.mul_comm]
  have e : x.toNat * 2 ^ (y.toNat % b) % 2 ^ b + x.toNat / 2 ^ (b - y.toNat % b) = (x.rotateLeft (y.toNat % b)).toNat := by
    rw [BitVec.toNat_rotateLeft, Nat.mod_mod, Nat.shiftLeft_eq, Nat.shiftRight_eq_div_pow, hhigh, Nat.two_pow_add_eq_or_of_lt hlow]
  simp only [aluOp, e]
  exact Nat.mod_eq_of_lt (BitVec.isLt _)

theorem alu_brev {j : Nat} (hj : j < b) : (aluOp .brev b f o.toNat x.toNat y.toNat free).1.testBit j = x.getMsbD j := by
  simp only [aluOp]
  rw [Nat.mod_eq_of_lt (revBits_lt b _), testBit_revBits hj, BitVec.getMsbD]
  simp [hj, BitVec.getLsbD]

theorem alu_popc : (aluOp .popc b f o.toNat x.toNat y.toNat free).1 = ((List.range b).filter (fun j => x.getLsbD j)).length := by
  have hl : ((List.range b).filter (fun j => x.getLsbD j)).length ≤ b := by
    simpa using List.length_filter_le (fun j => x.getLsbD j) (List.range b)
  have e : popCount x.toNat b = ((List.range b).filter (fun j => x.getLsbD j)).length := by
    simp only [popCount, maskBits, bitN_testBit]
    rfl
  simp only [aluOp, e]
  exact Nat.mod_eq_of_lt (Nat.lt_of_le_of_lt hl Nat.lt_two_pow_self)

/-- The count of leading zeros, the place of the highest set bit from the top, or the size. -/
theorem alu_clz : (aluOp .clz b f o.toNat x.toNat y.toNat free).1 =
    ((List.range b).find? (fun i => bitN x.toNat (b - 1 - i))).getD b := by
  have e : (match (List.range b).find? (fun i => bitN x.toNat (b - 1 - i)) with | some i => i | none => b) =
      ((List.range b).find? (fun i => bitN x.toNat (b - 1 - i))).getD b := by
    split <;> rename_i h <;> rw [h] <;> rfl
  have hle : ((List.range b).find? (fun i => bitN x.toNat (b - 1 - i))).getD b ≤ b := by
    rcases h : (List.range b).find? (fun i => bitN x.toNat (b - 1 - i)) with _ | i
    · exact Nat.le_refl b
    · exact (List.mem_range.1 (List.mem_of_find?_eq_some h)).le
  rw [← e] at hle ⊢
  exact Nat.mod_eq_of_lt (Nat.lt_of_le_of_lt hle Nat.lt_two_pow_self)

theorem clz_spec (x : BitVec b) :
    let c := ((List.range b).find? (fun i => bitN x.toNat (b - 1 - i))).getD b
    c ≤ b ∧ (∀ j, j < c → x.getMsbD j = false) ∧ (c < b → x.getMsbD c = true) := by
  have hbit : ∀ i, i < b → bitN x.toNat (b - 1 - i) = x.getMsbD i := fun i hi => by
    rw [bitN_testBit, BitVec.getMsbD]
    simp [hi, BitVec.getLsbD]
  rcases h : (List.range b).find? (fun i => bitN x.toNat (b - 1 - i)) with _ | i
  · refine ⟨Nat.le_refl b, fun j hj => ?_, fun hb => absurd hb (Nat.lt_irrefl b)⟩
    rw [← hbit j hj]
    simpa using List.find?_eq_none.1 h j (List.mem_range.2 hj)
  · obtain ⟨hp, hi, hlt⟩ := List.find?_range_eq_some.1 h
    have hi := List.mem_range.1 hi
    refine ⟨hi.le, fun j hj => ?_, fun _ => ?_⟩
    · rw [← hbit j (Nat.lt_trans hj hi)]
      simpa using hlt j hj
    · exact (hbit i hi).symm.trans hp

theorem alu_clz_spec :
    let c := (aluOp .clz b f o.toNat x.toNat y.toNat free).1
    c ≤ b ∧ (∀ j, j < c → x.getMsbD j = false) ∧ (c < b → x.getMsbD c = true) := by
  rw [alu_clz]
  exact clz_spec x

theorem alu_abs (hb : 0 < b) (hx : x ≠ BitVec.intMin b) :
    (aluOp .abs b f o.toNat x.toNat y.toNat free).1 = (if x.msb then -x else x).toNat := by
  have h2 : 2 ^ b = 2 * 2 ^ (b - 1) := by rw [← Nat.pow_succ', Nat.succ_eq_add_one, Nat.sub_add_cancel hb]
  have hlt := x.isLt
  have hne : x.toNat ≠ 2 ^ b / 2 := fun e => hx (BitVec.eq_of_toNat_eq (by
    rw [BitVec.toNat_intMin, Nat.mod_eq_of_lt (by omega)]; omega))
  simp only [aluOp, if_neg hne, toSigned_toNat hb]
  rw [BitVec.toInt_eq_msb_cond]
  cases hm : x.msb
  · exact Nat.mod_eq_of_lt hlt
  · simp only [if_true, BitVec.toNat_neg]
    congr 1
    omega

theorem alu_mov : (aluOp .mov b f o.toNat x.toNat y.toNat free).1 = x.toNat := rfl

theorem alu_adds (hb : 0 < b) : (BitVec.ofNat b (aluOp .adds b f o.toNat x.toNat y.toNat free).1).toInt = clampTo b (x.toInt + y.toInt) := by
  simp only [aluOp, toSigned_toNat hb, satTo_eq, ofNat_ofSigned, toInt_ofInt_clampTo hb]

theorem alu_subs (hb : 0 < b) : (BitVec.ofNat b (aluOp .subs b f o.toNat x.toNat y.toNat free).1).toInt = clampTo b (x.toInt - y.toInt) := by
  simp only [aluOp, toSigned_toNat hb, satTo_eq, ofNat_ofSigned, toInt_ofInt_clampTo hb]

theorem alu_mulq (hb : 0 < b) : (BitVec.ofNat b (aluOp .mulq b f o.toNat x.toNat y.toNat free).1).toInt =
    clampTo b ((x.toInt * y.toInt + (2 ^ (b - 2) : Nat)) / (2 ^ (b - 1) : Nat)) := by
  simp only [aluOp, toSigned_toNat hb, satTo_eq, ofNat_ofSigned, toInt_ofInt_clampTo hb, rndQ]

theorem alu_macq (hb : 0 < b) : (BitVec.ofNat b (aluOp .macq b f o.toNat x.toNat y.toNat free).1).toInt =
    clampTo b (o.toInt + (x.toInt * y.toInt + (2 ^ (b - 2) : Nat)) / (2 ^ (b - 1) : Nat)) := by
  simp only [aluOp, toSigned_toNat hb, satTo_eq, ofNat_ofSigned, toInt_ofInt_clampTo hb, rndQ]

end

/-- Settles O37: one lemma for each result. -/
theorem gulosResultsAreBitVectorArithmetic : Obligations.GulosResultsAreBitVectorArithmetic := by
  unfold Obligations.GulosResultsAreBitVectorArithmetic
  intro b hsize f o x y free
  have hb : 0 < b := by omega
  obtain ⟨hle, hbelow, hat⟩ := alu_clz_spec (f := f) (o := o) (x := x) (y := y) (free := free)
  refine ⟨alu_add, alu_sub hb, alu_neg hb, alu_mul, alu_mac, alu_mulhs hb, alu_mulhu, alu_min hb, alu_max hb, alu_minu, alu_maxu,
    alu_and, alu_or, alu_xor, alu_not, alu_shl, alu_shr, alu_sar hb, alu_rol hb, fun _ hj => alu_brev hj, alu_popc, hle, hbelow, hat,
    alu_abs hb, alu_adds hb, alu_subs hb, alu_mulq hb, alu_macq hb, alu_mov⟩

end Sys2Proof.Machine
end

section
set_option Elab.async false

/-! SUPPORT. The flags that the Gulos data operations set, the compares, and the predicates (Table 13-3, R374, R375). -/

namespace Sys2Proof.Machine

/-! ### Bits of a number -/

theorem bitN_add_two_pow {p d e : Nat} (hd : bitN p d = false) : bitN (p + 2 ^ d) e = (e == d || bitN p e) := by
  have hmod : p / 2 ^ d % 2 ≠ 1 := by simpa [bitN] using hd
  rw [bitN_testBit, bitN_testBit]
  rcases Nat.lt_trichotomy e d with h | rfl | h
  · rw [Nat.add_comm, Nat.testBit_two_pow_add_gt h]
    simp [h.ne]
  · rw [Nat.add_comm, Nat.testBit_two_pow_add_eq, ← bitN_testBit, hd]
    simp
  · obtain ⟨k, rfl⟩ := Nat.exists_eq_add_of_lt h
    have hq : (p + 2 ^ d) / 2 ^ (d + 1) = p / 2 ^ (d + 1) := by
      rw [Nat.pow_succ, ← Nat.div_div_eq_div_mul, ← Nat.div_div_eq_div_mul, Nat.add_div_right _ (Nat.two_pow_pos d)]
      omega
    have he : (k + (d + 1) == d) = false := beq_false_of_ne (by omega)
    rw [show d + k + 1 = k + (d + 1) by omega, he, Bool.false_or, ← Nat.testBit_div_two_pow, ← Nat.testBit_div_two_pow, hq]

theorem bitN_sub_two_pow {p d e : Nat} (hd : bitN p d = true) : bitN (p - 2 ^ d) e = (!(e == d) && bitN p e) := by
  have hmod : p / 2 ^ d % 2 = 1 := by simpa [bitN] using hd
  have hle : 2 ^ d ≤ p := (Nat.div_pos_iff.1 (Nat.pos_of_ne_zero fun e => by rw [e] at hmod; omega)).2
  have hdiv : p / 2 ^ d = (p - 2 ^ d) / 2 ^ d + 1 := Nat.div_eq_sub_div (Nat.two_pow_pos d) hle
  have hc : bitN (p - 2 ^ d) d = false := by
    have : (p - 2 ^ d) / 2 ^ d % 2 ≠ 1 := by omega
    exact beq_false_of_ne this
  have h := bitN_add_two_pow (e := e) hc
  rw [Nat.sub_add_cancel hle] at h
  by_cases he : e = d
  · rw [he, hc, beq_self_eq_true]; rfl
  · rw [h, beq_false_of_ne he]; rfl

/-! ### Predicates -/

theorem getPred_setPred (p d e : Nat) (u : Bool) :
    getPred (setPred p d u) e = if e = 0 then true else if e = d then u else getPred p e := by
  by_cases he : e = 0
  · subst he; rfl
  have hne : (e == 0) = false := by simpa using he
  rw [if_neg he]
  unfold setPred getPred
  rw [hne, Bool.false_or, Bool.false_or]
  by_cases hd : d = 0
  · rw [if_pos hd, if_neg (by omega)]
  rw [if_neg hd]
  by_cases hb : bitN p d = u
  · rw [if_pos hb]
    split
    · rename_i h; rw [h, hb]
    · rfl
  rw [if_neg hb]
  cases u
  · rw [if_neg Bool.false_ne_true, bitN_sub_two_pow (by simpa using hb)]
    by_cases h : e = d <;> simp [h]
  · rw [if_pos rfl, bitN_add_two_pow (by simpa using hb)]
    by_cases h : e = d <;> simp [h]

section
variable {p d a c : Nat} (ha : a < 8) (hc : c < 8)
include ha hc

theorem predFields (hd : d < 8) : bitsN (256 * d + 16 * a + c) 10 8 = d ∧ bitsN (256 * d + 16 * a + c) 6 4 = a ∧
    bitsN (256 * d + 16 * a + c) 2 0 = c ∧ bitN (256 * d + 16 * a + c) 0 = (c % 2 == 1) := by
  simp only [bitsN, bitN]
  norm_num
  omega

end

/-- Every predicate operation writes one predicate, the one that its words name. -/
theorem predOp_eq {g : GOp} (hg : g ∈ predOps) (p w : Nat) : ∃ u, predOp g p w = setPred p (bitsN w 10 8) u := by
  simp only [predOps, List.mem_cons, List.not_mem_nil, or_false] at hg
  rcases hg with rfl | rfl | rfl | rfl | rfl <;> exact ⟨_, rfl⟩

/-! ### Flags -/

theorem bitOf_flagsZN {f : Word} {b r k : Nat} :
    bitOf (flagsZN f b r) k = if k = 1 then bitN r (b - 1) else if k = 0 then (r == 0) else bitOf f k := by
  rw [flagsZN, bitOf_putBit (by decide), bitOf_putBit (by decide)]

theorem bitOf_flagsAll {f : Word} {b r k : Nat} {c v : Bool} :
    bitOf (flagsAll f b r c v) k = if k = 3 then v else if k = 2 then c else bitOf (flagsZN f b r) k := by
  rw [flagsAll, bitOf_putBit (by decide), bitOf_putBit (by decide)]

theorem bitOf_flagsSat {f : Word} {k : Nat} {c : Bool} : bitOf (flagsSat f c) k = if k = 8 then (bitOf f 8 || c) else bitOf f k := by
  unfold flagsSat
  cases c
  · by_cases h : k = 8 <;> simp [h]
  · rw [if_pos rfl, bitOf_putBit (by decide)]
    by_cases h : k = 8 <;> simp [h]

/-- The flags `F` of an operation whose result is `r`: `Z` and `N` follow the result; `C` and `V` only `ADD`, `SUB` and `NEG` set, `SAT` only
`ADDS` and `SUBS`; every other flag stays. -/
def FlagsFollow (g : GOp) (b : Nat) (f : Word) (r : Nat) (F : Word) : Prop :=
  bitOf F 0 = (r == 0) ∧ bitOf F 1 = bitN r (b - 1) ∧ (∀ k, k ∉ [0, 1, 2, 3, 8] → bitOf F k = bitOf f k) ∧
  (g ∉ [GOp.add, .sub, .neg] → bitOf F 2 = bitOf f 2 ∧ bitOf F 3 = bitOf f 3) ∧ (g ∉ [GOp.adds, .subs] → bitOf F 8 = bitOf f 8)

theorem flagsFollow_zn {g : GOp} {b : Nat} {f : Word} {r : Nat} : FlagsFollow g b f r (flagsZN f b r) := by
  refine ⟨?_, ?_, fun k hk => ?_, fun _ => ⟨?_, ?_⟩, fun _ => ?_⟩ <;> rw [bitOf_flagsZN]
  · rfl
  · rfl
  · simp only [List.mem_cons, not_or] at hk
    rw [if_neg hk.2.1, if_neg hk.1]
  · rfl
  · rfl
  · rfl

theorem flagsFollow_all {g : GOp} (hg : g ∈ [GOp.add, .sub, .neg]) {b : Nat} {f : Word} {r : Nat} {c v : Bool} :
    FlagsFollow g b f r (flagsAll f b r c v) := by
  refine ⟨?_, ?_, fun k hk => ?_, fun h => absurd hg h, fun _ => ?_⟩ <;> rw [bitOf_flagsAll, bitOf_flagsZN]
  · rfl
  · rfl
  · simp only [List.mem_cons, not_or] at hk
    rw [if_neg hk.2.2.2.1, if_neg hk.2.2.1, if_neg hk.2.1, if_neg hk.1]
  · rfl

theorem flagsFollow_sat {g : GOp} (hg : g ∈ [GOp.adds, .subs]) {b : Nat} {f : Word} {r : Nat} {c : Bool} :
    FlagsFollow g b f r (flagsZN (flagsSat f c) b r) := by
  refine ⟨?_, ?_, fun k hk => ?_, fun _ => ⟨?_, ?_⟩, fun h => absurd hg h⟩ <;> rw [bitOf_flagsZN]
  · rfl
  · rfl
  · simp only [List.mem_cons, List.not_mem_nil, or_false, not_or] at hk
    rw [if_neg hk.2.1, if_neg hk.1, bitOf_flagsSat, if_neg hk.2.2.2.2]
  · exact bitOf_flagsSat
  · exact bitOf_flagsSat

/-- The operations of groups 2 and 3 that set `Z` and `N` only, and never clip. -/
def znOps : List GOp :=
  [.abs, .mul, .mulhs, .mulhu, .mac, .min, .max, .minu, .maxu, .and, .or, .xor, .not, .shl, .shr, .sar, .rol, .brev, .clz, .popc]

section
variable {g : GOp} {b : Nat} {f : Word} {o x y free : Nat}

theorem aluOp_zn (hg : g ∈ znOps) : ∃ r, aluOp g b f o x y free = (r % 2 ^ b, flagsZN f b (r % 2 ^ b)) := by
  have habs : ∃ r, aluOp .abs b f o x y free = (r % 2 ^ b, flagsZN f b (r % 2 ^ b)) := by
    simp only [aluOp]
    split <;> exact ⟨_, rfl⟩
  simp only [znOps, List.mem_cons, List.not_mem_nil, or_false] at hg
  rcases hg with rfl | hg
  · exact habs
  · rcases hg with rfl | rfl | rfl | rfl | rfl | rfl | rfl | rfl | rfl | rfl | rfl | rfl | rfl | rfl | rfl | rfl | rfl | rfl | rfl <;>
      exact ⟨_, rfl⟩

/-- The operations of groups 2 and 3, whose flags follow their result. -/
def flagOps : List GOp := [.add, .sub, .neg] ++ [.adds, .subs] ++ znOps

theorem aluOp_flagsFollow (hg : g ∈ flagOps) :
    (aluOp g b f o x y free).1 < 2 ^ b ∧ FlagsFollow g b f (aluOp g b f o x y free).1 (aluOp g b f o x y free).2 := by
  rcases List.mem_append.1 hg with hg | hg
  rcases List.mem_append.1 hg with hg | hg
  · have hf := fun r c v => flagsFollow_all hg (b := b) (f := f) (r := r) (c := c) (v := v)
    simp only [List.mem_cons, List.not_mem_nil, or_false] at hg
    rcases hg with rfl | rfl | rfl
    · exact ⟨Nat.mod_lt _ (Nat.two_pow_pos b), hf _ _ _⟩
    · exact ⟨ofSigned_lt b _, hf _ _ _⟩
    · exact ⟨ofSigned_lt b _, hf _ _ _⟩
  · have hf := fun r c => flagsFollow_sat hg (b := b) (f := f) (r := r) (c := c)
    simp only [List.mem_cons, List.not_mem_nil, or_false] at hg
    rcases hg with rfl | rfl <;> exact ⟨ofSigned_lt b _, hf _ _⟩
  · obtain ⟨r, hr⟩ := aluOp_zn hg (b := b) (f := f) (o := o) (x := x) (y := y) (free := free)
    rw [hr]
    exact ⟨Nat.mod_lt _ (Nat.two_pow_pos b), flagsFollow_zn⟩

/-- The fixed-point operations, which may clip and set no other flag than `SAT`. -/
def satOps : List GOp := [.mulq, .macq, .badds, .bmulq, .bmacq]

theorem aluOp_sat (hg : g ∈ satOps) : ∃ c, (aluOp g b f o x y free).2 = flagsSat f c := by
  simp only [satOps, List.mem_cons, List.not_mem_nil, or_false] at hg
  rcases hg with rfl | rfl | rfl | rfl | rfl <;> exact ⟨_, rfl⟩

theorem aluOp_noFlags (hg : g ∉ flagOps) (hs : g ∉ satOps) : (aluOp g b f o x y free).2 = f := by
  cases g <;> simp [flagOps, znOps, satOps] at hg hs <;> rfl

/-- No operation changes a flag but `Z`, `N`, `C`, `V` and `SAT`. -/
theorem aluOp_flags_other {k : Nat} (hk : k ∉ [0, 1, 2, 3, 8]) : bitOf (aluOp g b f o x y free).2 k = bitOf f k := by
  by_cases hg : g ∈ flagOps
  · exact (aluOp_flagsFollow hg).2.2.2.1 k hk
  by_cases hs : g ∈ satOps
  · obtain ⟨c, hc⟩ := aluOp_sat hs (b := b) (f := f) (o := o) (x := x) (y := y) (free := free)
    simp only [List.mem_cons, not_or] at hk
    rw [hc, bitOf_flagsSat, if_neg hk.2.2.2.2.1]
  · rw [aluOp_noFlags hg hs]

end

/-! ### Carries, overflow and clipping -/

section
variable {b : Nat} {f : Word} {o x y : BitVec b} {free : Nat}

/-- A value lies outside the signed range where it reaches a bound. -/
theorem not_inRange (b : Nat) (v : Int) : (!inRange b v) = (decide ((2 ^ (b - 1) : Nat) ≤ v) || decide (v < -((2 ^ (b - 1) : Nat) : Int))) := by
  have : 0 < 2 ^ (b - 1) := Nat.two_pow_pos _
  rw [inRange, satTo_eq, Bool.eq_iff_iff]
  simp only [Bool.not_eq_true', beq_eq_false_iff_ne, ne_eq, Bool.not_eq_false, decide_eq_true_eq, Bool.or_eq_true]
  unfold clampTo
  omega

theorem add_overflow : (!inRange b (x.toInt + y.toInt)) = (x.msb == y.msb && (x + y).msb != x.msb) := by
  rw [not_inRange]
  exact (by simp [BitVec.saddOverflow] : _ = x.saddOverflow y).trans (BitVec.saddOverflow_eq x y)

theorem sub_overflow : (!inRange b (x.toInt - y.toInt)) = (x.msb != y.msb && (x - y).msb != x.msb) := by
  rw [not_inRange]
  exact (by simp [BitVec.ssubOverflow] : _ = x.ssubOverflow y).trans ((BitVec.ssubOverflow_eq x y).trans (by
    cases x.msb <;> cases y.msb <;> cases (x - y).msb <;> rfl))

theorem neg_overflow (hb : 0 < b) : (!inRange b (-x.toInt)) = (x == BitVec.intMin b) := by
  have hlo := BitVec.le_toInt x
  have hhi := BitVec.toInt_lt (x := x)
  have hmin : (BitVec.intMin b).toInt = -((2 ^ (b - 1) : Nat) : Int) := by
    rw [BitVec.toInt_intMin_of_pos hb]
    norm_num
  have hcast : ((2 ^ (b - 1) : Nat) : Int) = 2 ^ (b - 1) := by norm_num
  rw [not_inRange, Bool.eq_iff_iff, beq_iff_eq, ← BitVec.toInt_inj, hmin]
  simp only [Bool.or_eq_true, decide_eq_true_eq]
  omega

/-- The flags that the statement reads, of an operation whose flags follow its result. -/
theorem flags_of_follow {g : GOp} (hg : g ∈ flagOps) (hb : 0 < b) {n x y : Nat} :
    let r := BitVec.ofNat b (aluOp g b f n x y free).1
    let F := (aluOp g b f n x y free).2
    F.getLsbD 0 = (r == 0#b) ∧ F.getLsbD 1 = r.msb ∧ (∀ k, k < 32 → k ∉ [0, 1, 2, 3, 8] → F.getLsbD k = f.getLsbD k) ∧
      (g ∉ [GOp.add, .sub, .neg] → F.getLsbD 2 = f.getLsbD 2 ∧ F.getLsbD 3 = f.getLsbD 3) ∧
      (g ∉ [GOp.adds, .subs] → F.getLsbD 8 = f.getLsbD 8) := by
  obtain ⟨hlt, hz, hn, ho, hcv, hs⟩ := aluOp_flagsFollow hg (b := b) (f := f) (o := n) (x := x) (y := y) (free := free)
  refine ⟨?_, ?_, fun k _ hk => ho k hk, hcv, hs⟩
  · refine hz.trans ?_
    rw [Bool.eq_iff_iff, beq_iff_eq, beq_iff_eq, ← BitVec.toNat_inj, BitVec.toNat_ofNat, Nat.mod_eq_of_lt hlt]
    rfl
  · refine hn.trans ?_
    rw [bitN_testBit, BitVec.msb_eq_getLsbD_last, BitVec.getLsbD_ofNat]
    simp [hb]

theorem clipped (b : Nat) (f : Word) (v : Int) : bitOf (flagsSat f (satTo b v).2) 8 = (bitOf f 8 || decide (clampTo b v ≠ v)) := by
  rw [bitOf_flagsSat, if_pos rfl, satTo_eq]

end

/-! ### Compares -/

theorem cmpOp_eq {b : Nat} (hb : 0 < b) (x y : BitVec b) :
    cmpOp .cmpeq b x.toNat y.toNat = (x == y) ∧ cmpOp .cmpne b x.toNat y.toNat = (x != y) ∧
    cmpOp .cmplt b x.toNat y.toNat = x.slt y ∧ cmpOp .cmple b x.toNat y.toNat = x.sle y ∧
    cmpOp .cmpltu b x.toNat y.toNat = x.ult y ∧ cmpOp .cmpleu b x.toNat y.toNat = x.ule y ∧
    cmpOp .tstz b x.toNat y.toNat = (x &&& y == 0#b) ∧ cmpOp .tstnz b x.toNat y.toNat = (x &&& y != 0#b) := by
  have heq : (x.toNat == y.toNat) = (x == y) := by
    rw [Bool.eq_iff_iff, beq_iff_eq, beq_iff_eq, BitVec.toNat_inj]
  have hz : (Nat.land x.toNat y.toNat == 0) = (x &&& y == 0#b) := by
    rw [Bool.eq_iff_iff, beq_iff_eq, beq_iff_eq, ← BitVec.toNat_inj, BitVec.toNat_and]
    rfl
  simp only [cmpOp, toSigned_toNat hb]
  exact ⟨heq, congrArg (!·) heq, rfl, rfl, rfl, rfl, hz, congrArg (!·) hz⟩

/-! ### The settled statement -/

/-- What the operations of groups 2, 3 and 5 leave of the flags. -/
theorem flags_carry_overflow_clip {b : Nat} (hb : 0 < b) (f : Word) (o x y : BitVec b) (free : Nat) :
    let res (g : GOp) : BitVec b := BitVec.ofNat b (aluOp g b f o.toNat x.toNat y.toNat free).1
    let flag (g : GOp) (k : Nat) : Bool := (aluOp g b f o.toNat x.toNat y.toNat free).2.getLsbD k
    flag .add 2 = decide (2 ^ b ≤ x.toNat + y.toNat) ∧ flag .add 3 = (x.msb == y.msb && (res .add).msb != x.msb) ∧
    flag .sub 2 = decide (y.toNat ≤ x.toNat) ∧ flag .sub 3 = (x.msb != y.msb && (res .sub).msb != x.msb) ∧
    flag .neg 2 = (x == 0#b) ∧ flag .neg 3 = (x == BitVec.intMin b) ∧
    flag .adds 8 = (f.getLsbD 8 || decide (clampTo b (x.toInt + y.toInt) ≠ x.toInt + y.toInt)) ∧
    flag .subs 8 = (f.getLsbD 8 || decide (clampTo b (x.toInt - y.toInt) ≠ x.toInt - y.toInt)) := by
  have ofNat_toNat : ∀ z : BitVec b, BitVec.ofNat b z.toNat = z := fun z => by rw [BitVec.ofNat_toNat, BitVec.setWidth_eq]
  intro res flag
  have hadd : res .add = x + y := (congrArg (BitVec.ofNat b) alu_add).trans (ofNat_toNat _)
  have hsub : res .sub = x - y := (congrArg (BitVec.ofNat b) (alu_sub hb)).trans (ofNat_toNat _)
  have hsx := toSigned_toNat hb x
  have hsy := toSigned_toNat hb y
  refine ⟨?_, ?_, ?_, ?_, ?_, ?_, ?_, ?_⟩
  · exact bitOf_flagsAll
  · rw [hadd, ← add_overflow, ← hsx, ← hsy]
    exact bitOf_flagsAll
  · exact bitOf_flagsAll
  · rw [hsub, ← sub_overflow, ← hsx, ← hsy]
    exact bitOf_flagsAll
  · have hz : (x.toNat == 0) = (x == 0#b) := by
      rw [Bool.eq_iff_iff, beq_iff_eq, beq_iff_eq, ← BitVec.toNat_inj]
      rfl
    rw [← hz]
    exact bitOf_flagsAll
  · rw [← neg_overflow hb, ← hsx]
    exact bitOf_flagsAll
  · rw [← hsx, ← hsy]
    exact bitOf_flagsZN.trans (clipped b f _)
  · rw [← hsx, ← hsy]
    exact bitOf_flagsZN.trans (clipped b f _)

theorem flags_fixedPoint {b : Nat} (hb : 0 < b) (f : Word) (o x y : BitVec b) (free : Nat) :
    let flag (g : GOp) (k : Nat) : Bool := (aluOp g b f o.toNat x.toNat y.toNat free).2.getLsbD k
    (∀ k, k < 32 → k ≠ 8 → flag .mulq k = f.getLsbD k ∧ flag .macq k = f.getLsbD k) ∧
    flag .mulq 8 = (f.getLsbD 8 || decide (clampTo b ((x.toInt * y.toInt + (2 ^ (b - 2) : Nat)) / (2 ^ (b - 1) : Nat)) ≠
      (x.toInt * y.toInt + (2 ^ (b - 2) : Nat)) / (2 ^ (b - 1) : Nat))) := by
  refine ⟨fun k _ hk => ⟨bitOf_flagsSat.trans (if_neg hk), bitOf_flagsSat.trans (if_neg hk)⟩, ?_⟩
  rw [← toSigned_toNat hb x, ← toSigned_toNat hb y]
  exact clipped b f _

theorem getPred_predOp (p d a c : Nat) (hd0 : 0 < d) (hd : d < 8) (ha : a < 8) (hc : c < 8) :
    let w := 256 * d + 16 * a + c
    getPred (predOp .pand p w) d = (getPred p a && getPred p c) ∧ getPred (predOp .por p w) d = (getPred p a || getPred p c) ∧
    getPred (predOp .pxor p w) d = (getPred p a ^^ getPred p c) ∧ getPred (predOp .pnot p (256 * d + 16 * a)) d = (!getPred p a) ∧
    getPred (predOp .pset p (256 * d + c % 2)) d = (c % 2 == 1) ∧
    ∀ e, e ≠ d → ∀ g, g ∈ predOps → getPred (predOp g p w) e = getPred p e := by
  have hset : ∀ u, getPred (setPred p d u) d = u := fun u => by rw [getPred_setPred, if_neg (by omega), if_pos rfl]
  obtain ⟨fd, fa, fc, -⟩ := predFields ha hc hd
  obtain ⟨nd, na, -, -⟩ := predFields ha (c := 0) (by decide) hd
  obtain ⟨sd, -, -, s0⟩ := predFields (a := 0) (c := c % 2) (by decide) (by omega) hd
  refine ⟨?_, ?_, ?_, ?_, ?_, fun e he g hg => ?_⟩
  · simp only [predOp, fd, fa, fc, hset]
  · simp only [predOp, fd, fa, fc, hset]
  · simp only [predOp, fd, fa, fc, hset]
  · rw [← Nat.add_zero (256 * d + 16 * a)]
    simp only [predOp, nd, na, hset]
  · rw [← Nat.add_zero (256 * d), ← Nat.mul_zero 16]
    simp only [predOp, sd, s0, hset, Nat.mod_mod]
  · obtain ⟨u, hu⟩ := predOp_eq hg p (256 * d + 16 * a + c)
    rw [hu, fd, getPred_setPred, if_neg he]
    split
    · rename_i h0; rw [h0]; rfl
    · rfl

/-- Settles O38: the flags by the shape in which each operation sets them, the compares by the order of bit vectors, and the predicates by
the one that is written. -/
theorem gulosFlagsAndPredicates : Obligations.GulosFlagsAndPredicates := by
  unfold Obligations.GulosFlagsAndPredicates
  refine ⟨fun b hsize f o x y free => ?_, fun b hb x y => cmpOp_eq hb x y, getPred_setPred, getPred_predOp⟩
  have hb : 0 < b := by omega
  obtain ⟨a2, a3, s2, s3, n2, n3, a8, s8⟩ := flags_carry_overflow_clip hb f o x y free
  obtain ⟨hq, hq8⟩ := flags_fixedPoint hb f o x y free
  exact ⟨fun g hg => flags_of_follow (by revert g; decide) hb, a2, a3, s2, s3, n2, n3, a8, s8, hq, hq8⟩

end Sys2Proof.Machine
end

section
set_option Elab.async false

/-! SUPPORT. The rows of the Needle cores: what each executes, how an instruction that executes ends, and its operands (R359, R365 to R372). -/

namespace Sys2Proof.Machine

/-! ### What each row executes -/

/-- What an operation does where its instruction executes (Table 13-9). -/
def gRun : GOp → State → Nat → GInstr → GRes
  | .nop | .fence => runNop
  | .br => runBr
  | .call => runCall
  | .ret => runRet
  | .rfi => runRfi
  | .halt => runHalt
  | .wait => runWait
  | .trap => runTrap
  | .signal => runSignal
  | .movsx | .movzx => runExtend
  | .lea => runLea
  | .satq => runSatq
  | .cmpeq | .cmpne | .cmplt | .cmple | .cmpltu | .cmpleu | .tstz | .tstnz => runCmp
  | .pand | .por | .pxor | .pnot | .pset => runPred
  | .ldr => runLdr
  | .str => runStr
  | .addr => runAddr
  | .evtake => runEvtake
  | .bmov | .bfill | .badds | .bmulq | .bmacq | .bdot | .bpeak => runBlock
  | .prsIssue => runPrsIssue
  | .prsWait => runPrsTake false
  | .prsPoll => runPrsTake true
  | .mglIssue => runMglIssue
  | .mglCollect => runMglTake false
  | .mglPoll => runMglTake true
  | _ => runAlu

section
variable {n : Nat} {r : Instr} {g : GOp} {s t : State} {i : GInstr} {P : State → Prop}

theorem exec_gulosRow (hr : GulosRow n r g) (s : State) : exec r s = .next (gulos s n g (gRun g)) := by
  cases hr <;> rfl

theorem Executes.op (h : Executes s n g i) : i.op = g := h.1.2.2.2
theorem Executes.legal (h : Executes s n g i) : i.legal = true := h.2.2.1
theorem Executes.fetched (h : Executes s n g i) : coreFetch s n = .instr i := h.1.2.2.1

/-- A row whose core comes to its instruction: a guard, the words and the slots decide whether it executes (R365, R366, R371). -/
theorem gulosRun_comes (h : ComesTo s n g i) (f : State → Nat → GInstr → GRes) : gulosRun s n g f =
    if !guardHolds (coreGet s n).preds i then
      if isBranch g && (coreGet s n).slots == 0 then coreBranch s n i none else coreAdvance s n i.len
    else if !i.legal then coreExc s n 1 none
    else if slotBad i && (coreGet s n).slots != 0 then coreExc s n 2 none
    else coreFinish s n i (f s n i) := by
  obtain ⟨hrun, hint, hf, hop⟩ := h
  unfold gulosRun
  rw [hrun, hint, hf]
  simp only [hop, Bool.not_true, Bool.or_false, Bool.false_eq_true, if_false, ne_eq, not_true_eq_false]

theorem gulosRun_executes (h : Executes s n g i) (f : State → Nat → GInstr → GRes) : gulosRun s n g f = coreFinish s n i (f s n i) := by
  obtain ⟨hc, hg, hl, hs⟩ := h
  have hslot : (slotBad i && (coreGet s n).slots != 0) = false := by
    cases hb : slotBad i
    · rfl
    · rw [hs hb]; rfl
  rw [gulosRun_comes hc, hg, hl, hslot]
  rfl

/-- A row whose core executes its instruction ends as the operation does. -/
theorem next_executes (hr : GulosRow n r g) (h : Executes s n g i) {res : GRes} (he : gRun g s n i = res)
    (hp : P (stepDone s (coreFinish s n i res) n)) : Next r s P :=
  ⟨_, exec_gulosRow hr s, by rw [gulos, gulosRun_executes h, he]; exact hp⟩

theorem completes_of_run (hr : GulosRow n r g) (h : Executes s n g i) (he : gRun g s n i = .done t) : Completes r s n i t :=
  next_executes hr h he rfl

theorem raises_of_run (hr : GulosRow n r g) (h : Executes s n g i) {c : Nat} {a : Option Nat} (he : gRun g s n i = .exc t c a) :
    Raises r s n c a t := next_executes hr h he rfl

theorem stepDone_self (s : State) (n : Nat) : stepDone s s n = s := by
  unfold stepDone
  simp

theorem waits_of_run (hr : GulosRow n r g) (h : Executes s n g i) (he : gRun g s n i = .wait) : Next r s (fun t => t = s) :=
  next_executes hr h he (stepDone_self s n)

end

/-! ### Operands -/

/-- The operands of the instruction at the program counter, in field order. -/
def operandsOf (s : State) (n : Nat) (i : GInstr) : List Opnd :=
  (eaOperands (coreGet s n) (coreGet s n).pc i ((rolesOf i.op).zip i.specs)).1

/-- The state whose core has its address registers updated by the operands of an instruction (R367). -/
def addressed (s : State) (n : Nat) (i : GInstr) : State :=
  corePut s n (eaOperands (coreGet s n) (coreGet s n).pc i ((rolesOf i.op).zip i.specs)).2

section
variable {n : Nat} {s v : State} {i : GInstr} {os : List Opnd} {vs : List Nat}

theorem withOpnds_eq (s : State) (n : Nat) (i : GInstr) (f : State → List Opnd → GRes) : withOpnds s n i f =
    if (operandsOf s n i).any (fun o => o.ea == .modulo) then .exc s 5 none
    else match opndsFail s n (operandsOf s n i) with
      | some (c, a, s1) => .exc s1 c (some a)
      | none => f (addressed s n i) (operandsOf s n i) := rfl

theorem withOpnds_operates (h : Operates s n i os vs v) (f : State → List Opnd → GRes) :
    withOpnds s n i f = f (addressed s n i) os := by
  obtain ⟨ho, hm, hf, -⟩ := h
  have ho : operandsOf s n i = os := ho
  rw [withOpnds_eq, ho, hm, hf]
  rfl

theorem withOpnds_modulo (h : (operandsOf s n i).any (fun o => o.ea == .modulo) = true) (f : State → List Opnd → GRes) :
    withOpnds s n i f = .exc s 5 none := by
  rw [withOpnds_eq, h]
  rfl

theorem withOpnds_fail {c a : Nat} {s1 : State} (hm : (operandsOf s n i).any (fun o => o.ea == .modulo) = false)
    (hf : opndsFail s n (operandsOf s n i) = some (c, a, s1)) (f : State → List Opnd → GRes) :
    withOpnds s n i f = .exc s1 c (some a) := by
  rw [withOpnds_eq, hm, hf]
  rfl

theorem Operates.operands (h : Operates s n i os vs v) : operandsOf s n i = os := h.1

theorem Operates.reads (h : Operates s n i os vs v) : opndsRead (addressed s n i) n os = (vs, v) := h.2.2.2

/-- The operands are those of the fields that have an addressing mode, in order, each of its field's size. -/
theorem eaOperands_spec (c : Core) (pc : Nat) (i : GInstr) (l : List (Role × Spec)) :
    (eaOperands c pc i l).1.map (·.role) = (l.map (·.1)).filter hasMode ∧
    ∀ o ∈ (eaOperands c pc i l).1, o.size = fieldSize i o.role := by
  induction l generalizing c with
  | nil => exact ⟨rfl, by simp [eaOperands]⟩
  | cons rp l ih =>
    obtain ⟨r, p⟩ := rp
    rw [eaOperands]
    by_cases hm : hasMode r = true
    · rw [if_pos hm]
      obtain ⟨h1, h2⟩ := ih (effAddr c pc (fieldSize i r) p).2
      refine ⟨by simp [hm, h1], ?_⟩
      rintro o (_ | ⟨_, ho⟩)
      · rfl
      · exact h2 o ho
    · rw [if_neg hm]
      obtain ⟨h1, h2⟩ := ih c
      exact ⟨by simp [hm, h1], h2⟩

/-! ### Decoded instructions -/

theorem gDecode_specs {bs : List Byte} (h : gDecode bs = some i) : i.specs.length = (rolesOf i.op).length ∧ i.size ∈ [1, 2, 4, 8] := by
  obtain ⟨-, hi⟩ := gDecode_inv h
  have hb : (gPairs i.op (leAt bs 0 4) (gSecond bs i.op)).map bare = gPairs i.op (leAt bs 0 4) (gSecond bs i.op) := by
    rw [gPairs, List.map_map]; rfl
  obtain ⟨l, ht, hbare, -⟩ := takeExts_spec bs (gHead i.op) hb
  rw [ht] at hi
  have hsize : i.size = 2 ^ bitsN (leAt bs 0 4) 17 16 := congrArg (·.size) hi
  have hspecs : i.specs = l.map (·.2) := congrArg (·.specs) hi
  have h3 := rolesOf_length_le i.op
  have hl : l.length = (gPairs i.op (leAt bs 0 4) (gSecond bs i.op)).length := by rw [← hbare, List.length_map]
  refine ⟨?_, hsize ▸ two_pow_size_mem (sizeField_lt _)⟩
  rw [hspecs, List.length_map, hl]
  simp [gPairs, h3]

theorem gDecode_legal {bs : List Byte} (h : gDecode bs = some i) (hl : i.legal = true) :
    ∀ rp ∈ (rolesOf i.op).zip i.specs, specLegal i.op rp.1 rp.2 = true := by
  obtain ⟨-, hi⟩ := gDecode_inv h
  have hr : gRules i.op (leAt bs 0 4) (gSecond bs i.op) i.specs = true := by
    rw [congrArg (·.specs) hi, ← hl]
    exact (congrArg (·.legal) hi).symm
  simp only [gRules, Bool.and_eq_true, List.all_eq_true] at hr
  exact hr.2

theorem coreFetch_decodes (h : coreFetch s n = .instr i) : gDecode (memRead (coreGet s n).instr ((coreGet s n).pc % 0x100000) 20) = some i := by
  unfold coreFetch at h
  dsimp only at h
  repeat' split at h
  all_goals simp_all

/-! ### Values that are read -/

theorem memRead_length (m : ByteMem) (a k : Nat) : (memRead m a k).length = k := by
  induction k generalizing a with
  | zero => rfl
  | succ k ih => rw [memRead, List.length_cons, ih]

/-- The Stamp and the calendar time are read whole only (Table 13-2). -/
theorem size_of_clock {a k lo : Nat} (h : corePlace s n a k .read = .clock lo) : k = 8 := by
  unfold corePlace at h
  dsimp only at h
  repeat' split at h
  all_goals simp_all

theorem coreRegBytes_length {a k : Nat} (hk : k ∈ [1, 2, 4, 8]) : (coreRegBytes s n a k).1.length = k := by
  unfold coreRegBytes
  dsimp only
  fin_cases hk <;> simp [bytesAt_length]

theorem coreRead_length {a k : Nat} (hk : k ∈ [1, 2, 4, 8]) : (coreRead s n a k).1.length = k := by
  unfold coreRead
  dsimp only
  split
  · exact memRead_length _ _ _
  · exact memRead_length _ _ _
  · simp [bufRead]
  · rename_i h
    rw [size_of_clock h]
    exact leBytes_length _ _
  · exact coreRegBytes_length hk
  · simp [zeros]

theorem opndRead_lt {o : Opnd} (hk : o.size ∈ [1, 2, 4, 8]) : (opndRead s n o).1 < 2 ^ (8 * o.size) := by
  unfold opndRead
  split
  · have h := leNat_lt (coreRead s n (by assumption) o.size).1
    rw [coreRead_length hk] at h
    rwa [Nat.pow_mul]
  · exact ofSigned_lt _ _
  · exact Nat.two_pow_pos _

/-- An operand that is read. -/
def isRead (o : Opnd) : Bool := o.role == .src || o.role == .both

theorem opndsRead_cons (s : State) (n : Nat) (o : Opnd) (t : List Opnd) : opndsRead s n (o :: t) =
    if isRead o then ((opndRead s n o).1 :: (opndsRead (opndRead s n o).2 n t).1, (opndsRead (opndRead s n o).2 n t).2) else opndsRead s n t := by
  rw [opndsRead, isRead]
  by_cases h : o.role = .src ∨ o.role = .both
  · rw [if_pos h, if_pos (by simpa using h)]
  · rw [if_neg h, if_neg (by simpa using h)]

theorem opndsRead_none (h : ∀ o ∈ os, isRead o = false) : opndsRead s n os = ([], s) := by
  induction os with
  | nil => rfl
  | cons o os ih =>
    rw [opndsRead_cons, h o List.mem_cons_self, if_neg Bool.false_ne_true]
    exact ih fun x hx => h x (List.mem_cons_of_mem _ hx)

/-- Each value that is read is one of its operand's bytes. -/
theorem opndsRead_lt (hk : ∀ o ∈ os, o.size ∈ [1, 2, 4, 8]) :
    List.Forall₂ (fun o x => x < 2 ^ (8 * o.size)) (os.filter isRead) (opndsRead s n os).1 := by
  induction os generalizing s with
  | nil => exact .nil
  | cons o os ih =>
    replace ih := fun s => ih (s := s) fun x hx => hk x (List.mem_cons_of_mem _ hx)
    rw [opndsRead_cons]
    by_cases h : isRead o = true
    · rw [if_pos h, List.filter_cons_of_pos h]
      exact .cons (opndRead_lt (hk o List.mem_cons_self)) (ih _)
    · rw [if_neg h, List.filter_cons_of_neg h]
      exact ih s

theorem selSize_mem (x : Nat) : selSize x ∈ [1, 2, 4, 8] := by
  unfold selSize
  repeat' split
  all_goals decide

theorem fieldSize_mem (hi : i.size ∈ [1, 2, 4, 8]) (r : Role) : fieldSize i r ∈ [1, 2, 4, 8] := by
  have h8 : 8 ∈ [1, 2, 4, 8] := by decide
  have h2 : 2 ∈ [1, 2, 4, 8] := by decide
  have hsel := selSize_mem (((i.specs.head?).map (·.raw)).getD 0)
  unfold fieldSize
  dsimp only
  repeat' split
  all_goals assumption

/-! ### The operands of an instruction that executes -/

section
variable {g : GOp} (hx : Executes s n g i)
include hx

theorem Executes.specs : i.specs.length = (rolesOf g).length ∧ i.size ∈ [1, 2, 4, 8] := by
  rw [← hx.op]
  exact gDecode_specs (coreFetch_decodes hx.fetched)

theorem Executes.specLegal : ∀ rp ∈ (rolesOf g).zip i.specs, specLegal g rp.1 rp.2 = true := by
  have h := gDecode_legal (coreFetch_decodes hx.fetched) hx.legal
  rwa [hx.op] at h

theorem Executes.operands_roles : (operandsOf s n i).map (·.role) = (rolesOf g).filter hasMode := by
  rw [operandsOf, (eaOperands_spec _ _ _ _).1, List.map_fst_zip (by rw [hx.specs.1, hx.op]), hx.op]

theorem Executes.operands_sizes : ∀ o ∈ operandsOf s n i, o.size = fieldSize i o.role ∧ o.size ∈ [1, 2, 4, 8] := fun o ho => by
  have h := (eaOperands_spec _ _ _ _).2 o ho
  exact ⟨h, h ▸ fieldSize_mem hx.specs.2 _⟩

variable (h : Operates s n i os vs v)
include h

theorem Executes.roles : os.map (·.role) = (rolesOf g).filter hasMode := h.1 ▸ hx.operands_roles

theorem Executes.sizes : ∀ o ∈ os, o.size = fieldSize i o.role := fun o ho => (hx.operands_sizes o (by rw [h.operands]; exact ho)).1

theorem Executes.values : List.Forall₂ (fun o x => x < 2 ^ (8 * o.size)) (os.filter isRead) vs := by
  have e := opndsRead_lt (s := addressed s n i) (n := n) fun o ho => (hx.operands_sizes o (by rw [h.operands]; exact ho)).2
  rwa [h.reads] at e

/-- An operation that reads no operand leaves them all to its end. -/
theorem Executes.reads_none (hr : ((rolesOf g).filter hasMode).all (fun r => !(r == .src || r == .both)) = true) :
    vs = [] ∧ v = addressed s n i := by
  have e : ∀ o ∈ os, isRead o = false := fun o ho => by
    have := List.all_eq_true.1 hr o.role (hx.roles h ▸ List.mem_map_of_mem ho)
    simpa [isRead] using this
  have := h.reads
  rw [opndsRead_none e, Prod.mk.injEq] at this
  exact ⟨this.1.symm, this.2.symm⟩

end

/-- An operation with operands ends as they do where they raise an exception: a block instruction that has elements to go, and `LDR` of a
register that may be written. -/
theorem gRun_exc_of_operands {g : GOp} {t : State} {c : Nat} {a : Option Nat} (hr : rolesOf g ≠ [])
    (hb : isBlock g = true → (coreGet s n).cnt ≠ 0)
    (hl : g = .ldr → ¬ (bitsN (selOf i) 7 4 = 5 ∧ crReadOnly (bitsN (selOf i) 3 0) = true))
    (h : ∀ f, withOpnds s n i f = .exc t c a) : gRun g s n i = .exc t c a := by
  have block : (coreGet s n).cnt ≠ 0 → runBlock s n i = .exc t c a := fun hc => by
    have e : runAlu s n i = .exc t c a := by simp only [runAlu, h]
    rw [runBlock, if_neg hc, e]
  cases g
  case nop | ret | rfi | halt | wait | fence | signal | pand | por | pxor | pnot | pset => exact absurd rfl hr
  case bmov | bfill | badds | bmulq | bmacq | bdot | bpeak => exact block (hb rfl)
  case ldr => simp only [gRun, runLdr, if_neg (hl rfl), h]
  all_goals simp only [gRun, runBr, runCall, runTrap, runExtend, runLea, runSatq, runCmp, runStr, runAddr, runEvtake, runPrsIssue,
    runMglIssue, runPrsTake, runMglTake, takeStatus, runAlu, h]

end

end Sys2Proof.Machine
end

section
set_option Elab.async false

/-! SUPPORT. Modulo and bit-reversed addressing (R368, R369), and the settled statement O59. -/

namespace Sys2Proof.Machine

/-! ### The steps of an address register -/

theorem log2Of_two_pow {w : Nat} (h1 : 1 ≤ w) (h2 : w ≤ 16) : log2Of (2 ^ w) = some w := by
  interval_cases w <;> decide

theorem log2Of_some {x w : Nat} (h : log2Of x = some w) : 1 ≤ w ∧ w ≤ 16 := by
  have hm := List.mem_of_find?_eq_some h
  simp only [List.mem_map, List.mem_range] at hm
  omega

theorem ofSigned_natCast (w x : Nat) : ofSigned w (x : Int) = x % 2 ^ w := by
  rw [ofSigned, ← Int.natCast_mod, Int.toNat_natCast]

section
variable {k : Core} {pc s : Nat} {p : Spec}

/-- R368: a modulo operand accesses the register's place and steps it inside the ring. -/
theorem effAddr_modulo (hm : p.mode = 6) (h : rL k p.an ≠ 0 ∧ s ∣ rL k p.an ∧ rB k p.an ≤ rA k p.an ∧ rA k p.an < rB k p.an + rL k p.an ∧
      (toSigned 32 (rM k p.mn)).natAbs ≤ rL k p.an) :
    effAddr k pc s p = (.addr (rA k p.an), { k with
      a := k.a.set p.an (((rB k p.an : Int) + ((rA k p.an : Int) - rB k p.an + toSigned 32 (rM k p.mn)) % rL k p.an) % 2 ^ 40).toNat }) := by
  obtain ⟨h1, h2, h3, h4, h5⟩ := h
  have h2 : rL k p.an % s = 0 := Nat.mod_eq_zero_of_dvd h2
  simp only [effAddr, hm]
  rw [if_neg (by omega)]
  rfl

theorem effAddr_modulo_excluded (hm : p.mode = 6) (h : ¬ (rL k p.an ≠ 0 ∧ s ∣ rL k p.an ∧ rB k p.an ≤ rA k p.an ∧
      rA k p.an < rB k p.an + rL k p.an ∧ (toSigned 32 (rM k p.mn)).natAbs ≤ rL k p.an)) : effAddr k pc s p = (.modulo, k) := by
  rw [Nat.dvd_iff_mod_eq_zero] at h
  simp only [effAddr, hm]
  rw [if_pos (by omega)]

/-- R369: a bit-reversed operand accesses the register's place and steps it by a carry that runs from the top. -/
theorem effAddr_bitReversed (hs : 0 < s) (hm : p.mode = 7) {w : Nat} (h1 : 1 ≤ w) (h2 : w ≤ 16) (hl : rL k p.an = s * 2 ^ w)
    (hd : (s : Int) ∣ toSigned 32 (rM k p.mn)) (hb : rB k p.an ≤ rA k p.an) (ha : s ∣ rA k p.an - rB k p.an)
    (hlt : rA k p.an - rB k p.an < rL k p.an) :
    effAddr k pc s p = (.addr (rA k p.an), { k with a := k.a.set p.an ((rB k p.an + s * revBits w
      ((revBits w ((rA k p.an - rB k p.an) / s) + revBits w ((toSigned 32 (rM k p.mn) / s) % 2 ^ w).toNat) % 2 ^ w)) % 2 ^ 40) }) := by
  have hw : log2Of (rL k p.an / s) = some w := by rw [hl, Nat.mul_div_cancel_left _ hs, log2Of_two_pow h1 h2]
  have hd := Int.emod_eq_zero_of_dvd hd
  have ha := Nat.mod_eq_zero_of_dvd ha
  simp only [effAddr, hm, hw]
  rw [if_neg (by omega)]
  simp only [setA, ← Int.natCast_mul, ← Int.natCast_add, ofSigned_natCast]
  simp [ofSigned]

theorem effAddr_bitReversed_excluded (hm : p.mode = 7) (h : (¬ ∃ w, 1 ≤ w ∧ w ≤ 16 ∧ rL k p.an = s * 2 ^ w) ∨
      ¬ (s : Int) ∣ toSigned 32 (rM k p.mn) ∨ rA k p.an < rB k p.an ∨ ¬ s ∣ rA k p.an - rB k p.an ∨ rL k p.an ≤ rA k p.an - rB k p.an) :
    effAddr k pc s p = (.modulo, k) := by
  rw [Nat.dvd_iff_mod_eq_zero, Int.dvd_iff_emod_eq_zero] at h
  simp only [effAddr, hm]
  rcases hw : log2Of (rL k p.an / s) with _ | w
  · rfl
  · have hlog := log2Of_some hw
    have hne : (¬ ∃ w, 1 ≤ w ∧ w ≤ 16 ∧ rL k p.an = s * 2 ^ w) → rL k p.an ≠ s * 2 ^ w := fun hn e => hn ⟨w, hlog.1, hlog.2, e⟩
    dsimp only
    rw [if_pos]
    rcases h with h | h | h | h | h
    · exact .inl (hne h)
    · exact .inr (.inl h)
    · exact .inr (.inr (.inl h))
    · exact .inr (.inr (.inr (.inl h)))
    · omega

end

/-- Settles O59: an operation with operands raises MODULO before it does anything else, and each mode steps its register or has no address. -/
theorem moduloAndBitReversedSteps : Obligations.ModuloAndBitReversedSteps := by
  unfold Obligations.ModuloAndBitReversedSteps
  refine ⟨fun s n r g i hr hx hb hl hm => ?_, fun k pc s p hs => ⟨fun hp => ⟨?_, ?_⟩, fun hp => ⟨fun w h1 h2 => ?_, ?_⟩⟩⟩
  · have hroles : rolesOf g ≠ [] := fun e => by
      have h := hx.operands_roles
      rw [e, List.filter_nil, List.map_eq_nil_iff] at h
      rw [show (eaOperands _ _ _ _).1 = [] from h] at hm
      exact absurd hm Bool.false_ne_true
    exact raises_of_run hr hx (gRun_exc_of_operands hroles hb hl (withOpnds_modulo hm))
  · exact effAddr_modulo hp
  · exact effAddr_modulo_excluded hp
  · exact effAddr_bitReversed hs hp h1 h2
  · exact effAddr_bitReversed_excluded hp

end Sys2Proof.Machine
end

section
set_option Elab.async false

/-! SUPPORT. What a core's rows change: one core, its position of execution, and the entry of its handlers (R370, R379, R380); and the settled
statement O41. -/

namespace Sys2Proof.Machine

/-! ### One core changes -/

section
variable {s t u w : State} {n m : Nat} {k : Core}

theorem coreGet_congr (h : t.needle = s.needle) (m : Nat) : coreGet t m = coreGet s m := by
  rw [coreGet, h, coreGet]

theorem OnlyCore.refl (s : State) (n : Nat) : OnlyCore s s n := ⟨rfl, fun _ _ => rfl⟩

theorem OnlyCore.put (h : OnlyCore s t n) (k : Core) : OnlyCore s (corePut t n k) n := by
  obtain ⟨ht, ho⟩ := h
  refine ⟨?_, fun m hm => (coreGet_corePut_other hm).trans (ho m hm)⟩
  rw [ht]
  rfl

theorem onlyCore_corePut (s : State) (n : Nat) (k : Core) : OnlyCore s (corePut s n k) n := (OnlyCore.refl s n).put k

/-- What the JTAG port's single step leaves of a row that changes one core (R479). -/
theorem OnlyCore.stepDone (h : OnlyCore s t n) (u : State) : OnlyCore s (stepDone u t n) n := by
  unfold Machine.stepDone
  dsimp only
  split
  · exact h.put _
  · exact h

theorem coreGet_stepDone (s t : State) (n : Nat) : ∃ j, coreGet (stepDone s t n) n = { coreGet t n with jtagStep := j } := by
  unfold stepDone
  dsimp only
  split
  · exact ⟨false, coreGet_corePut_same⟩
  · exact ⟨(coreGet t n).jtagStep, rfl⟩

/-- A row of a core's operation meets what holds of every state that has changed that core only, as its operation did. -/
theorem next_gulosRow {r : Instr} {g : GOp} {P : State → Prop} (hr : GulosRow n r g) (hw : gulosRun s n g (gRun g) = w) (h : OnlyCore s w n)
    (hp : ∀ t j, OnlyCore s t n → coreGet t n = { coreGet w n with jtagStep := j } → P t) : Next r s P := by
  obtain ⟨j, hj⟩ := coreGet_stepDone s w n
  exact ⟨_, exec_gulosRow hr s, by rw [gulos, hw]; exact hp _ j (h.stepDone s) hj⟩

theorem next_executes_core {r : Instr} {g : GOp} {i : GInstr} {res : GRes} {P : State → Prop} (hr : GulosRow n r g) (hx : Executes s n g i)
    (he : gRun g s n i = res) (hw : coreFinish s n i res = w) (h : OnlyCore s w n)
    (hp : ∀ t j, OnlyCore s t n → coreGet t n = { coreGet w n with jtagStep := j } → P t) : Next r s P :=
  next_gulosRow hr (by rw [gulosRun_executes hx, he, hw]) h hp

theorem next_gulosRow_idle {r : Instr} {g : GOp} (hr : GulosRow n r g) (hw : gulosRun s n g (gRun g) = s) : Next r s (fun t => t = s) :=
  ⟨_, exec_gulosRow hr s, by rw [gulos, hw, stepDone_self]⟩

/-! ### Bits of the pending word -/

theorem bitN_pendBit (m i j : Nat) (b : Bool) : bitN (pendBit m i b) j = if j = i then b else bitN m j := by
  unfold pendBit
  rcases hm : bitN m i <;> cases b
  case false.true => simp only [Bool.false_eq_true, if_false, if_true, bitN_add_two_pow hm]; by_cases h : j = i <;> simp [h]
  case true.false => simp only [Bool.true_eq_false, Bool.false_eq_true, if_false, bitN_sub_two_pow hm]; by_cases h : j = i <;> simp [h]
  all_goals
    rw [if_pos rfl]
    by_cases h : j = i
    · rw [if_pos h, h, hm]
    · rw [if_neg h]

/-! ### Handlers (R379, R380) -/

theorem entryTarget_needle (s : State) (k : Core) : (entryTarget s k).2.needle = s.needle := entryTarget_only.needle_eq rfl

/-- The core in its handler at an offset of `IVEC`. -/
def inHandler (k : Core) (ecause : Nat) (eaddr : Option Nat) (off t : Nat) : Core :=
  { k with
    epc := k.pc, etgt := t, ecause := BitVec.ofNat 32 ecause, eflags := k.flags, epred := k.preds
    eaddr := eaddr.getD k.eaddr, flags := putBit (putBit k.flags 16 false) 17 true
    pc := k.ivec + off, slots := 0, target := none }

theorem coreGet_coreEnter (s : State) (n c : Nat) (a : Option Nat) (off : Nat) :
    coreGet (coreEnter s n c a off) n = inHandler (coreGet s n) c a off (entryTarget s (coreGet s n)).1 := by
  rw [coreEnter]
  dsimp only
  rw [coreGet_corePut_same, coreGet_congr (entryTarget_needle _ _), inHandler]

theorem coreGet_coreEnter_other {c off : Nat} {a : Option Nat} (h : m ≠ n) : coreGet (coreEnter s n c a off) m = coreGet s m := by
  rw [coreEnter]
  exact (coreGet_corePut_other h).trans (coreGet_congr (entryTarget_needle _ _) m)

theorem entryTarget_taken {a : Nat} (hs : k.slots ≠ 0) (ht : k.target = some a) : (entryTarget s k).1 = a := by
  rw [entryTarget, if_neg hs, ht]

theorem coreEnter_entered (s : State) (n c : Nat) (a : Option Nat) (off : Nat) : Entered s (coreEnter s n c a off) n c off := by
  unfold Entered StandsAt
  rw [coreGet_coreEnter]
  have h16 : (putBit (putBit (coreGet s n).flags 16 false) 17 true).getLsbD 16 = false := by
    rw [← bitOf, bitOf_putBit (by decide), bitOf_putBit (by decide)]; rfl
  have h17 : (putBit (putBit (coreGet s n).flags 16 false) 17 true).getLsbD 17 = true := by
    rw [← bitOf, bitOf_putBit (by decide)]; rfl
  exact ⟨⟨rfl, rfl, rfl⟩, rfl, rfl, rfl, rfl, h16, h17, fun _ hs ht => entryTarget_taken hs ht, rfl, rfl, rfl, rfl, rfl⟩

/-- The cause of an exception is kept beside what the entry saves. -/
theorem Entered.of_cause {c e off : Nat} (h : Entered (corePut s n { coreGet s n with cause := c }) t n e off) : Entered s t n e off := by
  unfold Entered at h
  rw [coreGet_corePut_same] at h
  exact h

theorem coreExc_some (s : State) (n c a : Nat) : coreExc s n c (some a) =
    if bitOf (coreGet s n).flags 17 ∨ (coreGet s n).ivec = 0 then
      stopCheck (tallyPut (coreStopped (corePut s n { coreGet s n with epc := (coreGet s n).pc, eaddr := a, cause := c }) n .faulted 3)
        (agCore n) 0x0E83 [(0x10, n), (1, (coreGet s n).owner), (7, a)]) n (coreGet s n).stop
    else coreEnter (corePut s n { coreGet s n with cause := c }) n ((coreGet s n).slots * 256 + c) (some a) 0 := rfl

theorem coreNote_needle (s : State) (n : Nat) : (coreNote s n).needle = s.needle := coreNote_only.needle_eq rfl

theorem coreGet_coreStopped (s : State) (n : Nat) (m : CoreMode) (reason : Nat) : coreGet (coreStopped s n m reason) n =
    { coreGet s n with
      mode := m, ran := coreCycles s (coreGet s n), changed := nowStamp s, reason := reason, stop := none, pred := [], collect := false } := by
  rw [coreStopped, coreGet_congr (coreNote_needle _ _), coreGet_corePut_same]

theorem coreGet_coreStopped_other {x : CoreMode} {reason : Nat} (h : m ≠ n) : coreGet (coreStopped s n x reason) m = coreGet s m := by
  rw [coreStopped, coreGet_congr (coreNote_needle _ _), coreGet_corePut_other h]

theorem coreExc_entered {c a : Nat} (hf : (coreGet s n).flags.getLsbD 17 = false) (hi : (coreGet s n).ivec ≠ 0) :
    Entered s (coreExc s n c (some a)) n (256 * (coreGet s n).slots + c) 0 ∧ (coreGet (coreExc s n c (some a)) n).eaddr = a ∧
    (coreGet (coreExc s n c (some a)) n).cause = c ∧ ∀ m, m ≠ n → coreGet (coreExc s n c (some a)) m = coreGet s m := by
  rw [coreExc_some, if_neg (by rw [bitOf, hf]; simp [hi]), Nat.mul_comm]
  refine ⟨(coreEnter_entered _ n _ _ _).of_cause, ?_, ?_, fun m hm => ?_⟩
  · rw [coreGet_coreEnter]; rfl
  · rw [coreGet_coreEnter, coreGet_corePut_same]; rfl
  · rw [coreGet_coreEnter_other hm, coreGet_corePut_other hm]

theorem coreExc_faulted {c a : Nat} (h : (coreGet s n).flags.getLsbD 17 = true ∨ (coreGet s n).ivec = 0) (hs : (coreGet s n).stop = none) :
    (coreGet (coreExc s n c (some a)) n).mode = .faulted ∧ (coreGet (coreExc s n c (some a)) n).cause = c ∧
    (coreGet (coreExc s n c (some a)) n).epc = (coreGet s n).pc ∧ (coreGet (coreExc s n c (some a)) n).eaddr = a ∧
    (coreGet (coreExc s n c (some a)) n).reason = 3 ∧ (coreGet (coreExc s n c (some a)) n).changed = nowStamp s ∧
    ∀ m, m ≠ n → coreGet (coreExc s n c (some a)) m = coreGet s m := by
  rw [← bitOf] at h
  rw [coreExc_some, if_pos h, hs, stopCheck]
  have htally : ∀ u m, coreGet (tallyPut u (agCore n) 0x0E83 [(0x10, n), (1, (coreGet s n).owner), (7, a)]) m = coreGet u m :=
    fun u => coreGet_congr (tallyPut_only.needle_eq rfl)
  simp only [htally, coreGet_coreStopped, coreGet_corePut_same]
  exact ⟨trivial, trivial, trivial, trivial, trivial, rfl, fun m hm => by rw [coreGet_coreStopped_other hm, coreGet_corePut_other hm]⟩

/-! ### What keeps an instruction from its effect -/

variable {r : Instr} {g : GOp} {i : GInstr}

theorem completes_of_row (hr : GulosRow n r g) (hw : gulosRun s n g (gRun g) = coreAdvance t n i.len) : Completes r s n i t :=
  ⟨_, exec_gulosRow hr s, by rw [gulos, hw]⟩

theorem raises_of_row {c : Nat} {a : Option Nat} (hr : GulosRow n r g) (hw : gulosRun s n g (gRun g) = coreExc t n c a) :
    Raises r s n c a t := ⟨_, exec_gulosRow hr s, by rw [gulos, hw]⟩

theorem guard_false_completes (hr : GulosRow n r g) (hc : ComesTo s n g i) (hg : guardHolds (coreGet s n).preds i = false)
    (hb : isBranch g = false ∨ (coreGet s n).slots ≠ 0) : Completes r s n i s := by
  refine completes_of_row hr ?_
  have : (isBranch g && (coreGet s n).slots == 0) = false := by rcases hb with h | h <;> simp [h]
  rw [gulosRun_comes hc, hg, this]
  rfl

/-- A branch whose guard is false is complete, with no target behind its slots. -/
theorem guard_false_branch (hr : GulosRow n r g) (hc : ComesTo s n g i) (hg : guardHolds (coreGet s n).preds i = false)
    (hb : isBranch g = true) (hs : (coreGet s n).slots = 0) : Next r s (fun t => OnlyCore s t n ∧
      StandsAt t n ((coreGet s n).pc + i.len) 2 none ∧ (coreGet t n).commits = (coreGet s n).commits + 1) := by
  refine next_gulosRow hr (w := coreBranch s n i none) (by rw [gulosRun_comes hc, hg, hb, hs]; rfl) (onlyCore_corePut _ _ _) fun t j ho ht => ⟨ho, ?_⟩
  rw [coreBranch, coreGet_corePut_same] at ht
  rw [StandsAt, ht]
  exact ⟨⟨rfl, rfl, rfl⟩, rfl⟩

theorem illegal_raises (hr : GulosRow n r g) (hc : ComesTo s n g i) (hg : guardHolds (coreGet s n).preds i = true) (hl : i.legal = false) :
    Raises r s n 1 none s := raises_of_row hr (by rw [gulosRun_comes hc, hg, hl]; rfl)

theorem slot_raises (hr : GulosRow n r g) (hc : ComesTo s n g i) (hg : guardHolds (coreGet s n).preds i = true) (hl : i.legal = true)
    (hb : slotBad i = true) (hs : (coreGet s n).slots ≠ 0) : Raises r s n 2 none s := by
  have : ((coreGet s n).slots != 0) = true := by simpa using hs
  exact raises_of_row hr (by rw [gulosRun_comes hc, hg, hl, hb, this]; rfl)

theorem reserved_raises (hr : GulosRow n r .trap) (h1 : coreRuns s n = true) (h2 : intReady s n = false) (hf : coreFetch s n = .reserved) :
    Raises r s n 1 none s := raises_of_row hr (by rw [gulosRun, h1, h2, hf]; rfl)

theorem fetch_raises {s1 : State} {c : Nat} (hr : GulosRow n r .trap) (h1 : coreRuns s n = true) (h2 : intReady s n = false)
    (hf : coreFetch s n = .fail s1 c) : Raises r s n c (some (coreGet s n).pc) s1 := raises_of_row hr (by rw [gulosRun, h1, h2, hf]; rfl)

theorem other_op_idle (hr : GulosRow n r g) (h1 : coreRuns s n = true) (h2 : intReady s n = false) (hf : coreFetch s n = .instr i)
    (hg : i.op ≠ g) : Next r s (fun t => t = s) := by
  refine next_gulosRow_idle hr ?_
  rw [gulosRun, h1, h2, hf]
  exact if_pos hg

/-! ### Interrupts -/

theorem takeInterrupt_enters {i : Nat} (h1 : coreRuns s n = true) (h2 : intReady s n = true) (hi : i < 21)
    (hp : bitN (corePending (coreGet s n)) i = true) (hl : ∀ j, j < i → bitN (corePending (coreGet s n)) j = false) :
    Next (.takeInterrupt n) s (fun t => Entered s t n (2 ^ 24 * i + 2 ^ 16) 0x40 ∧ (coreGet t n).eaddr = (coreGet s n).eaddr ∧
      ∀ m, m ≠ n → coreGet t m = coreGet s m) := by
  have hfind : (List.range 21).find? (fun i => bitN (corePending (coreGet s n)) i) = some i :=
    List.find?_range_eq_some.2 ⟨hp, List.mem_range.2 hi, fun j hj => by simp [hl j hj]⟩
  refine ⟨coreEnter s n (2 ^ 24 * i + 2 ^ 16) none 0x40, ?_, coreEnter_entered s n _ none _, ?_, fun m hm => coreGet_coreEnter_other hm⟩
  · show execTakeInterrupt n s = _
    rw [execTakeInterrupt, h1, h2, hfind, Nat.mul_comm]
    rfl
  · rw [coreGet_coreEnter]; rfl

theorem takeInterrupt_idle (h : coreRuns s n = false ∨ intReady s n = false) : Next (.takeInterrupt n) s (fun t => t = s) := by
  refine ⟨s, ?_, rfl⟩
  show execTakeInterrupt n s = _
  rcases h with h | h <;> simp [execTakeInterrupt, h]

theorem coreTimerMatch_pends (h1 : (coreGet s n).mode = .running) (h2 : bitN (coreGet s n).pend 21 = true)
    (h3 : (coreGet s n).tcmp.toNat ≤ coreCycles s (coreGet s n)) : Next (.coreTimerMatch n) s (fun t => OnlyCore s t n ∧
      bitN (coreGet t n).pend 19 = true ∧ bitN (coreGet t n).pend 21 = false ∧
      bitN (coreGet t n).pend 20 = bitN (coreGet s n).pend 20) := by
  refine ⟨_, congrArg Host.Outcome.next (if_pos ⟨h1, h2, h3⟩), onlyCore_corePut _ _ _, ?_⟩
  rw [coreGet_corePut_same]
  simp [bitN_pendBit]

theorem coreTimerMatch_idle (h : (coreGet s n).mode ≠ .running ∨ bitN (coreGet s n).pend 21 = false ∨
    coreCycles s (coreGet s n) < (coreGet s n).tcmp.toNat) : Next (.coreTimerMatch n) s (fun t => t = s) := by
  refine ⟨_, congrArg Host.Outcome.next (if_neg ?_), rfl⟩
  rintro ⟨h1, h2, h3⟩
  rcases h with h | h | h
  · exact h h1
  · rw [h] at h2; exact absurd h2 Bool.false_ne_true
  · omega

end

/-- Settles O41: each way an instruction is kept from its effect, and each entry of a handler, in the order of the statement. -/
theorem gulosGuardsExceptionsAndHandlers : Obligations.GulosGuardsExceptionsAndHandlers := by
  unfold Obligations.GulosGuardsExceptionsAndHandlers
  refine ⟨fun n r g s hr h1 h2 => ⟨fun i hc hg => ⟨guard_false_completes hr hc hg, guard_false_branch hr hc hg⟩, fun i => illegal_raises hr,
      fun i => slot_raises hr, fun i hx hg => ?_, ?_, ?_, fun i => other_op_idle hr h1 h2⟩,
    fun s n => ⟨fun c a => coreExc_entered, fun c a => coreExc_faulted, fun i => takeInterrupt_enters, takeInterrupt_idle,
      coreTimerMatch_pends, coreTimerMatch_idle⟩⟩
  · have operand : rolesOf g ≠ [] ∧ isBlock g = false ∧ g ≠ .ldr :=
      (show ∀ g ∈ aluOps ++ cmpOps ++ [.mac, .macq, .movsx, .movzx, .lea, .satq, .str, .addr, .evtake, .br, .call],
        rolesOf g ≠ [] ∧ isBlock g = false ∧ g ≠ .ldr by decide) g hg
    obtain ⟨hroles, hblock, hldr⟩ := operand
    have raise : ∀ {t c a}, (∀ f, withOpnds s n i f = .exc t c a) → Raises r s n c a t := fun h =>
      raises_of_run hr hx (gRun_exc_of_operands hroles (by simp [hblock]) (absurd · hldr) h)
    exact ⟨fun hm => raise (withOpnds_modulo hm), fun c a s1 hm hf => raise (withOpnds_fail hm hf)⟩
  · rintro rfl; exact reserved_raises hr h1 h2
  · rintro s1 c rfl; exact fetch_raises hr h1 h2

end Sys2Proof.Machine
end

section
set_option Elab.async false

/-! SUPPORT. What a core's operands leave of its state, the journal beside its cores, and the settled statement O40. -/

namespace Sys2Proof.Machine

/-! ### Operands change only the address registers (R367) -/

section
variable {s t u v w : State} {n m : Nat} {k : Core} {i : GInstr} {os : List Opnd} {vs : List Nat}

theorem effAddr_core (c : Core) (pc sz : Nat) (p : Spec) : ∃ a, (effAddr c pc sz p).2 = { c with a := a } := by
  unfold effAddr
  dsimp only
  repeat' split
  all_goals exact ⟨_, rfl⟩

theorem eaOperands_core (c : Core) (pc : Nat) (i : GInstr) (l : List (Role × Spec)) : ∃ a, (eaOperands c pc i l).2 = { c with a := a } := by
  induction l generalizing c with
  | nil => exact ⟨c.a, rfl⟩
  | cons rp l ih =>
    obtain ⟨r, p⟩ := rp
    rw [eaOperands]
    by_cases hm : hasMode r = true
    · rw [if_pos hm]
      obtain ⟨a, ha⟩ := effAddr_core c pc (fieldSize i r) p
      obtain ⟨b, hb⟩ := ih (effAddr c pc (fieldSize i r) p).2
      exact ⟨b, by rw [hb, ha]⟩
    · rw [if_neg hm]
      exact ih c

theorem coreGet_addressed (s : State) (n : Nat) (i : GInstr) : ∃ a, coreGet (addressed s n i) n = { coreGet s n with a := a } := by
  rw [addressed, coreGet_corePut_same]
  exact eaOperands_core _ _ _ _

theorem onlyCore_addressed (s : State) (n : Nat) (i : GInstr) : OnlyCore s (addressed s n i) n := onlyCore_corePut _ _ _

/-! ### Accesses (Table 13-2) -/

theorem corePlace_corePut {x size : Nat} {a : AccKind} : corePlace (corePut s n k) m x size a = corePlace s m x size a := rfl

theorem targetOk_corePut {a : Nat} : targetOk (corePut s n k) m a = targetOk s m a := rfl

/-- An access is checked by the core's owner and rule set, with the registers and the buffers. -/
theorem accCheck_corePut {x size : Nat} {a : AccKind} (ho : k.owner = (coreGet s n).owner) (hc : k.ctx = (coreGet s n).ctx) :
    (accCheck (corePut s n k) n x size a).1 = (accCheck s n x size a).1 := by
  have hset : coreSet k = coreSet (coreGet s n) := by rw [coreSet, hc, coreSet]
  have hwho : coreWho (corePut s n k) n = coreWho s n := by rw [coreWho, coreGet_corePut_same, ho, coreWho]
  have haru : ∀ q, (aruCheck (corePut s n k) n q x a).1 = (aruCheck s n q x a).1 := fun q => by
    simp only [aruCheck, show aruRule (corePut s n k) n q (x / 256) = aruRule s n q (x / 256) from rfl]
    split
    · rfl
    · simp only [show ∀ j, aruReg (corePut s n k) n q j 8 = aruReg s n q j 8 from fun _ => rfl, apply_ite Prod.fst]
  have hhem : ∀ q, (hemCheck (corePut s n k) q (globalAddr n x) size a).1 = (hemCheck s q (globalAddr n x) size a).1 := fun q => by
    simp only [hemCheck, show ∀ c b, hemAllows (corePut s n k) c b q a = hemAllows s c b q a from fun _ _ => rfl]
    split <;> simp only [apply_ite Prod.fst]
  have haru := haru (coreSet (coreGet s n))
  have hhem := hhem (coreWho s n)
  unfold accCheck
  rw [coreGet_corePut_same, hset, hwho, corePlace_corePut]
  rcases ha : aruCheck s n (coreSet (coreGet s n)) x a with ⟨b, s1⟩
  rcases ha' : aruCheck (corePut s n k) n (coreSet (coreGet s n)) x a with ⟨b', s1'⟩
  rcases hh : hemCheck s (coreWho s n) (globalAddr n x) size a with ⟨d, s2⟩
  rcases hh' : hemCheck (corePut s n k) (coreWho s n) (globalAddr n x) size a with ⟨d', s2'⟩
  rw [ha, ha'] at haru
  rw [hh, hh'] at hhem
  obtain rfl : b' = b := haru
  obtain rfl : d' = d := hhem
  cases b' <;> cases d' <;> simp only [apply_ite Prod.fst]

theorem accCheck_addressed {x size : Nat} {a : AccKind} : (accCheck (addressed s n i) n x size a).1 = (accCheck s n x size a).1 := by
  obtain ⟨b, hb⟩ := eaOperands_core (coreGet s n) (coreGet s n).pc i ((rolesOf i.op).zip i.specs)
  exact accCheck_corePut (by rw [hb]) (by rw [hb])

/-- A write to the core's own work memory changes only it. -/
theorem coreWrite_work {a x : Nat} {bs : List Byte} (h : corePlace s n a bs.length .write = .work x) :
    coreWrite s n a bs = corePut s n { coreGet s n with work := memWrite (coreGet s n).work x bs } := by
  simp only [coreWrite, h]

theorem coreRead_work {a x size : Nat} (h : corePlace s n a size .read = .work x) :
    coreRead s n a size = (memRead (coreGet s n).work x size, s) := by
  simp only [coreRead, h]

/-! ### The journal beside the cores -/

/-- A state with other cores and programs. -/
def onNeedle (x : NeedleState) (s : State) : State := { s with needle := x }

theorem seamTo_onNeedle (x : NeedleState) (s : State) (m : Nat) (l : SeamLoad) : seamTo (onNeedle x s) m l = onNeedle x (seamTo s m l) := by
  unfold seamTo
  rw [show seamLinkTo (onNeedle x s) m = seamLinkTo s m from rfl]
  split
  · rfl
  · unfold seamSend
    simp only [apply_ite (onNeedle x)]
    rfl

theorem serveEntry_onNeedle (x : NeedleState) (s : State) (e : JEntry) : serveEntry (onNeedle x s) e = onNeedle x (serveEntry s e) := by
  unfold serveEntry
  show List.foldl _ (onNeedle x (meterEntry s e.body)) (seamOthers s) = _
  exact List.foldl_hom (onNeedle x) (g₁ := fun s m => seamTo s m (.journal [e])) (g₂ := fun s m => seamTo s m (.journal [e])) (fun s m => seamTo_onNeedle x s m _)

theorem seamServe_onNeedle (x : NeedleState) (j : Nat) (s : State) : seamServe j (onNeedle x s) = onNeedle x (seamServe j s) := by
  induction j generalizing s with
  | zero => rfl
  | succ j ih =>
    unfold seamServe
    rw [show (onNeedle x s).seam.unsent = s.seam.unsent from rfl]
    rcases s.seam.unsent with _ | ⟨e, rest⟩
    · rfl
    · dsimp only
      rw [show budgetFits (onNeedle x s) (entryLoad (onNeedle x s) e.body) = budgetFits s (entryLoad s e.body) from rfl, apply_ite (onNeedle x),
        ← ih, ← serveEntry_onNeedle]
      rfl

theorem jot_onNeedle (x : NeedleState) (s : State) (slice : Nat) (release : Bool) (b : JBody) :
    jot (onNeedle x s) slice release b = onNeedle x (jot s slice release b) := by
  unfold jot
  rw [apply_ite (onNeedle x), ← seamServe_onNeedle]
  rfl

/-- A core's journal entry does not read whether the JTAG port steps it. -/
theorem coreNote_stepped (s : State) (n : Nat) (j : Bool) : coreNote (corePut s n { coreGet s n with jtagStep := j }) n =
    corePut (coreNote s n) n { coreGet (coreNote s n) n with jtagStep := j } := by
  rw [coreGet_congr (coreNote_needle s n), coreNote, coreGet_corePut_same]
  show jot (onNeedle _ s) _ _ _ = _
  rw [jot_onNeedle, corePut, coreNote_needle]
  rfl

theorem CoreNoted.stepDone (h : CoreNoted s t n) (u : State) : CoreNoted s (stepDone u t n) n := by
  obtain ⟨w, hw, rfl⟩ := h
  unfold Machine.stepDone
  dsimp only
  split
  · exact ⟨_, hw.put _, (coreNote_stepped w n false).symm⟩
  · exact ⟨w, hw, rfl⟩

/-! ### Branches, calls and returns (R370, R372) -/

theorem operates_none {g : GOp} (hx : Executes s n g i) (h : Operates s n i os vs v)
    (hr : ((rolesOf g).filter hasMode).all (fun r => !(r == .src || r == .both)) = true) : addressed s n i = v := (hx.reads_none h hr).2.symm

theorem br_branches (hx : Executes s n .br i) (h : Operates s n i os vs v) (ht : targetOk v n (firstEa os) = true) :
    Next (.br n) s (fun t => OnlyCore s t n ∧ StandsAt t n ((coreGet s n).pc + i.len) 2 (some (firstEa os)) ∧
      (coreGet t n).commits = (coreGet s n).commits + 1) := by
  obtain rfl := operates_none hx h rfl
  obtain ⟨a, ha⟩ := coreGet_addressed s n i
  refine next_executes_core .br hx (res := .branch (addressed s n i) (firstEa os)) ?_ rfl ((onlyCore_addressed s n i).put _) fun t j ho hk => ⟨ho, ?_⟩
  · simp only [gRun, runBr, withOpnds_operates h, if_pos ht]
  · rw [coreFinish, coreBranch, coreGet_corePut_same, ha] at hk
    rw [StandsAt, hk]
    exact ⟨⟨rfl, rfl, rfl⟩, rfl⟩

theorem br_raises (hx : Executes s n .br i) (h : Operates s n i os vs v) (ht : targetOk v n (firstEa os) = false) :
    Raises (.br n) s n 4 (some (firstEa os)) s := by
  obtain rfl := operates_none hx h rfl
  refine raises_of_run .br hx ?_
  simp only [gRun, runBr, withOpnds_operates h, ht, if_neg Bool.false_ne_true]

/-- The stack pointer of a call. -/
theorem ofSigned_sub_eight (x : Nat) : ofSigned 40 ((x : Int) - 8) = (x + (2 ^ 40 - 8)) % 2 ^ 40 := by
  unfold ofSigned
  omega

/-- A call whose return address is known pushes it, and branches (R372). -/
theorem runCall_branch (h : Operates s n i os vs (addressed s n i)) (ht : targetOk (addressed s n i) n (firstEa os) = true) {sp a : Nat}
    (hsp : sp = (rA (coreGet (addressed s n i) n) 15 + (2 ^ 40 - 8)) % 2 ^ 40) (hacc : (accCheck s n sp 8 .write).1 = none)
    (haf : afterInstrs (coreGet (addressed s n i) n) ((coreGet (addressed s n i) n).pc + i.len) 2 = some a) : runCall s n i =
      .branch (coreWrite (corePut (addressed s n i) n (setA (coreGet (addressed s n i) n) 15 sp)) n sp (leBytes 8 a)) (firstEa os) := by
  rcases hc : accCheck s n sp 8 .write with ⟨_ | c, s1⟩
  · simp only [runCall, withOpnds_operates h, ofSigned_sub_eight, ← hsp, ht, hc, haf, Bool.not_true, if_neg Bool.false_ne_true]
  · rw [hc] at hacc
    exact absurd hacc (by simp)

theorem call_branches (hx : Executes s n .call i) (h : Operates s n i os vs v) (ht : targetOk v n (firstEa os) = true) {sp x a : Nat}
    (hsp : sp = (rA (coreGet v n) 15 + (2 ^ 40 - 8)) % 2 ^ 40) (hacc : (accCheck v n sp 8 .write).1 = none)
    (hpl : corePlace v n sp 8 .write = .work x) (haf : afterInstrs (coreGet v n) ((coreGet s n).pc + i.len) 2 = some a) :
    Next (.call n) s (fun t => OnlyCore s t n ∧ StandsAt t n ((coreGet s n).pc + i.len) 2 (some (firstEa os)) ∧
      (coreGet t n).a = (coreGet v n).a.set 15 sp ∧ memRead (coreGet t n).work x 8 = leBytes 8 a ∧
      ∀ j, j < x ∨ x + 8 ≤ j → memByte (coreGet t n).work j = memByte (coreGet s n).work j) := by
  obtain rfl := operates_none hx h rfl
  obtain ⟨as, ha⟩ := coreGet_addressed s n i
  have hpc : (coreGet (addressed s n i) n).pc = (coreGet s n).pc := by rw [ha]
  have hwork : (coreGet (addressed s n i) n).work = (coreGet s n).work := by rw [ha]
  have hlen : (leBytes 8 a).length = 8 := leBytes_length _ _
  have hsp40 : sp % 2 ^ 40 = sp := by omega
  have hset : (setA (coreGet (addressed s n i) n) 15 sp).a = (coreGet (addressed s n i) n).a.set 15 sp := by
    rw [setA, ofSigned_natCast, hsp40]
  have hwrite := coreWrite_work (s := corePut (addressed s n i) n (setA (coreGet (addressed s n i) n) 15 sp)) (n := n) (a := sp) (x := x)
    (bs := leBytes 8 a) (by rw [hlen]; exact hpl)
  refine next_executes_core .call hx (runCall_branch h ht hsp (accCheck_addressed ▸ hacc) (by rw [hpc]; exact haf)) (by rw [hwrite]; rfl)
    ((((onlyCore_addressed s n i).put _).put _).put _) fun t j ho hk => ⟨ho, ?_⟩
  rw [coreGet_corePut_same, coreGet_corePut_same, coreGet_corePut_same] at hk
  rw [StandsAt, hk]
  refine ⟨⟨congrArg (· + i.len) hpc, rfl, rfl⟩, hset, ?_, fun j hj => ?_⟩
  · exact hlen ▸ memRead_write
  · exact (memByte_write_other (by rw [hlen]; exact hj)).trans (by rw [← hwork]; rfl)

/-- A return pops its target (R372). -/
theorem runRet_eq (i : GInstr) (hacc : (accCheck s n (rA (coreGet s n) 15) 8 .read).1 = none) {x : Nat}
    (hpl : corePlace s n (rA (coreGet s n) 15) 8 .read = .work x) {a : Nat} (ha : a = leNat (memRead (coreGet s n).work x 8)) :
    runRet s n i = if targetOk s n a then .branch (corePut s n (setA (coreGet s n) 15 (rA (coreGet s n) 15 + 8))) a
      else .exc s 4 (some (a % 2 ^ 40)) := by
  rcases hc : accCheck s n (rA (coreGet s n) 15) 8 .read with ⟨_ | c, s1⟩
  · simp only [runRet, hc, coreRead_work hpl, ha]
  · rw [hc] at hacc
    exact absurd hacc (by simp)

theorem ret_branches (hx : Executes s n .ret i) (hacc : (accCheck s n (rA (coreGet s n) 15) 8 .read).1 = none) {x : Nat}
    (hpl : corePlace s n (rA (coreGet s n) 15) 8 .read = .work x) (ht : targetOk s n (leNat (memRead (coreGet s n).work x 8)) = true) :
    Next (.ret n) s (fun t => OnlyCore s t n ∧
      StandsAt t n ((coreGet s n).pc + i.len) 2 (some (leNat (memRead (coreGet s n).work x 8))) ∧
      (coreGet t n).a = (coreGet s n).a.set 15 ((rA (coreGet s n) 15 + 8) % 2 ^ 40) ∧ (coreGet t n).work = (coreGet s n).work) := by
  refine next_executes_core .ret hx ((runRet_eq i hacc hpl rfl).trans (if_pos ht)) rfl
    ((onlyCore_corePut _ _ _).put _) fun t j ho hk => ⟨ho, ?_⟩
  rw [coreFinish, coreBranch, coreGet_corePut_same, coreGet_corePut_same] at hk
  rw [StandsAt, hk]
  exact ⟨⟨rfl, rfl, rfl⟩, congrArg ((coreGet s n).a.set 15) (ofSigned_natCast 40 (rA (coreGet s n) 15 + 8)), rfl⟩

theorem ret_raises (hx : Executes s n .ret i) (hacc : (accCheck s n (rA (coreGet s n) 15) 8 .read).1 = none) {x : Nat}
    (hpl : corePlace s n (rA (coreGet s n) 15) 8 .read = .work x) (ht : targetOk s n (leNat (memRead (coreGet s n).work x 8)) = false) :
    Raises (.ret n) s n 4 (some (leNat (memRead (coreGet s n).work x 8) % 2 ^ 40)) s :=
  raises_of_run .ret hx ((runRet_eq i hacc hpl rfl).trans (by rw [ht]; rfl))

/-! ### Return from a handler, halt and wait (R379, Table 13-9) -/

theorem bitN_restored {p e : Nat} (h0 : 0 < e) (h8 : e < 8) : bitN (p % 256 / 2 * 2 + 1) e = bitN p e := by
  unfold bitN
  congr 1
  interval_cases e <;> omega

theorem rfi_returns (hx : Executes s n .rfi i) : Next (.rfi n) s (fun t => OnlyCore s t n ∧
    (coreGet t n).flags = (coreGet s n).eflags &&& 0x0003010F#32 ∧
    (∀ e, 0 < e → e < 8 → bitN (coreGet t n).preds e = bitN (coreGet s n).epred e) ∧
    (coreGet t n).commits = (coreGet s n).commits + 1 ∧
    (fieldOf (coreGet s n).ecause 9 8 = 1 ∨ fieldOf (coreGet s n).ecause 9 8 = 2 →
      StandsAt t n (coreGet s n).epc (fieldOf (coreGet s n).ecause 9 8) (some (coreGet s n).etgt)) ∧
    (¬ (fieldOf (coreGet s n).ecause 9 8 = 1 ∨ fieldOf (coreGet s n).ecause 9 8 = 2) → StandsAt t n (coreGet s n).epc 0 none)) := by
  refine next_executes_core .rfi hx rfl rfl ((onlyCore_corePut _ _ _).put _) fun t j ho hk => ⟨ho, ?_⟩
  rw [gRun, runRfi, coreFinish, coreGet_corePut_same, coreGet_corePut_same] at hk
  simp only [StandsAt, hk]
  refine ⟨rfl, fun e => bitN_restored, trivial, fun h => ?_, fun h => ?_⟩
  · have : fieldOf (coreGet s n).ecause 9 8 ≠ 0 := by omega
    simp [h, this]
  · simp [h]

/-- `HALT` stands in no delay slot (R371). -/
theorem halt_slots (hx : Executes s n .halt i) : (coreGet s n).slots = 0 := by
  obtain ⟨hc, -, -, hs⟩ := hx
  exact hs (by rw [slotBad, hc.2.2.2]; rfl)

theorem halt_halts (hx : Executes s n .halt i) (hstop : (coreGet s n).stop = none) : Next (.halt n) s (fun t => CoreNoted s t n ∧
    (coreGet t n).mode = .halted ∧ (coreGet t n).reason = 1 ∧ (coreGet t n).changed = nowStamp s ∧ (coreGet t n).pred = [] ∧
    StandsAt t n ((coreGet s n).pc + i.len) 0 (coreGet s n).target ∧ (coreGet t n).work = (coreGet s n).work ∧
    (coreGet t n).a = (coreGet s n).a) := by
  have hslots := halt_slots hx
  have hadv : coreGet (coreAdvance s n i.len) n = { coreGet s n with commits := (coreGet s n).commits + 1, pc := (coreGet s n).pc + i.len } := by
    rw [coreAdvance, coreGet_corePut_same]
    simp [hslots]
  have hfin : coreFinish s n i (.halt s 1) = coreStopped (coreAdvance s n i.len) n .halted 1 := by
    simp only [coreFinish, coreHalt, hadv, hstop, stopCheck]
  obtain ⟨j, hj⟩ := coreGet_stepDone s (coreStopped (coreAdvance s n i.len) n .halted 1) n
  refine next_executes .halt hx (res := .halt s 1) rfl ?_
  rw [hfin, StandsAt, hj, coreGet_coreStopped, hadv]
  exact ⟨CoreNoted.stepDone ⟨_, ((onlyCore_corePut s n _).put _), rfl⟩ s, rfl, rfl, rfl, rfl, ⟨rfl, hslots, rfl⟩, rfl, rfl⟩

theorem wait_completes (hx : Executes s n .wait i) (hp : corePending (coreGet s n) ≠ 0) : Completes (.wait n) s n i s :=
  completes_of_run .wait hx (if_neg hp)

theorem wait_waits (hx : Executes s n .wait i) (hp : corePending (coreGet s n) = 0) : Next (.wait n) s (fun t => t = s) :=
  waits_of_run .wait hx (if_pos hp)

theorem trap_raises (hx : Executes s n .trap i) (h : Operates s n i os vs v) : Raises (.trap n) s n 6 (some (firstEa os)) s :=
  raises_of_run .trap hx (withOpnds_operates h fun _ os => .exc s 6 (some (firstEa os)))

end

/-- Settles O40: one lemma for each instruction that directs execution. -/
theorem gulosControlInstructions : Obligations.GulosControlInstructions := by
  unfold Obligations.GulosControlInstructions
  intro n s i os vs v
  exact ⟨fun hx => completes_of_run .nop hx rfl, fun hx => completes_of_run .fence hx rfl, fun hx => completes_of_run .signal hx rfl,
    br_branches, br_raises, fun hx h ht hacc x a hpl haf => call_branches hx h ht rfl hacc hpl haf,
    fun hx hacc x hpl => ⟨ret_branches hx hacc hpl, ret_raises hx hacc hpl⟩, rfi_returns, halt_halts, wait_completes, wait_waits, trap_raises⟩

end Sys2Proof.Machine
end

section
set_option Elab.async false

/-! SUPPORT. The results that a core's operations write, the registers by their selectors, and the settled statement O42. -/

namespace Sys2Proof.Machine

/-! ### The values of the operands that are read -/

/-- The roles of the operands that an operation reads, in field order. -/
def readRoles (g : GOp) : List Role := ((rolesOf g).filter hasMode).filter (fun r => r == .src || r == .both)

section
variable {s v w : State} {n : Nat} {g : GOp} {r : Instr} {i : GInstr} {os : List Opnd} {vs : List Nat}

theorem Executes.values_roles (hx : Executes s n g i) (h : Operates s n i os vs v) :
    List.Forall₂ (fun r x => x < 2 ^ (8 * fieldSize i r)) (readRoles g) vs := by
  have hroles : (os.filter isRead).map (·.role) = readRoles g := by
    rw [readRoles, ← hx.roles h, List.filter_map]
    rfl
  rw [← hroles, List.forall₂_map_left_iff]
  obtain ⟨hlen, hval⟩ := List.forall₂_iff_zip.1 (hx.values h)
  refine List.forall₂_iff_zip.2 ⟨hlen, fun {o x} hm => ?_⟩
  rw [← hx.sizes h o (List.mem_of_mem_filter (List.of_mem_zip hm).1)]
  exact hval hm

/-! ### The results of data operations (R374, R375) -/

theorem Executes.any_both (hx : Executes s n g i) (h : Operates s n i os vs v) :
    os.any (fun o => o.role == .both) = (rolesOf g).any (· == .both) := by
  have e : os.any (fun o => o.role == .both) = (os.map (·.role)).any (· == .both) := by rw [List.any_map]; rfl
  rw [e, hx.roles h, List.any_filter]
  congr 1
  funext r
  cases r <;> rfl

/-- An operation with no accumulator writes its result, with its flags. -/
theorem runAlu_fresh (hx : Executes s n g i) (h : Operates s n i os vs v) (hb : (rolesOf g).any (· == .both) = false)
    (ho : ¬ (g = .abs ∧ vs.getD 0 0 = 2 ^ (8 * i.size - 1))) (hp : g ≠ .bpeak) : runAlu s n i =
      .done (opndWrite (withFlags v n (aluOp g (8 * i.size) (coreGet v n).flags 0 (vs.getD 0 0) (vs.getD 1 0) 0).2) n os
        (aluOp g (8 * i.size) (coreGet v n).flags 0 (vs.getD 0 0) (vs.getD 1 0) 0).1) := by
  have hopen : ((g == .abs || g == .bpeak) && vs.getD 0 0 == 2 ^ (8 * i.size - 1)) = false := by
    simp only [Bool.and_eq_false_iff, Bool.or_eq_false_iff, beq_eq_false_iff_ne]
    by_cases hg : g = .abs
    · exact .inr fun hv => ho ⟨hg, hv⟩
    · exact .inl ⟨hg, hp⟩
  unfold runAlu
  rw [withOpnds_operates h]
  simp only [h.reads, hx.any_both h, hb, hx.op, b2n, Bool.false_eq_true, if_false, Nat.zero_add, hopen]
  rfl

/-- An operation with an accumulator reads it first. -/
theorem runAlu_both (hx : Executes s n g i) (h : Operates s n i os vs v) (hb : (rolesOf g).any (· == .both) = true) (ha : g ≠ .abs)
    (hp : ¬ (g = .bpeak ∧ vs.getD 1 0 = 2 ^ (8 * i.size - 1))) : runAlu s n i =
      .done (opndWrite (withFlags v n (aluOp g (8 * i.size) (coreGet v n).flags (vs.getD 0 0) (vs.getD 1 0) (vs.getD 2 0) 0).2) n os
        (aluOp g (8 * i.size) (coreGet v n).flags (vs.getD 0 0) (vs.getD 1 0) (vs.getD 2 0) 0).1) := by
  have hopen : ((g == .abs || g == .bpeak) && vs.getD 1 0 == 2 ^ (8 * i.size - 1)) = false := by
    simp only [Bool.and_eq_false_iff, Bool.or_eq_false_iff, beq_eq_false_iff_ne]
    by_cases hg : g = .bpeak
    · exact .inr fun hv => hp ⟨hg, hv⟩
    · exact .inl ⟨ha, hg⟩
  unfold runAlu
  rw [withOpnds_operates h]
  simp only [h.reads, hx.any_both h, hb, hx.op, b2n, if_true, hopen, Bool.false_eq_true, if_false]
  rfl

/-! ### Registers by their selectors (R364, R374) -/

theorem Executes.sel_lt (hx : Executes s n g i) {t : List Role} (hr : rolesOf g = .sel :: t) : selOf i < 256 := by
  have hlen := hx.specs.1
  have hl := hx.specLegal
  rw [hr] at hlen hl
  unfold selOf
  rcases hs : i.specs with _ | ⟨p, ps⟩
  · rw [hs] at hlen; exact absurd hlen (by simp)
  · have := hl (.sel, p) (by simp [hs])
    simp only [Machine.specLegal, Bool.and_eq_true, decide_eq_true_eq] at this
    exact this.1.1.1

/-- `LDR` writes its register. -/
theorem ldr_completes (hx : Executes s n .ldr i) (h : Operates s n i os vs v)
    (hro : ¬ (bitsN (selOf i) 7 4 = 5 ∧ crReadOnly (bitsN (selOf i) 3 0) = true)) :
    Completes (.ldr n) s n i (selWrite v n (selOf i) (vs.getD 0 0)) := by
  refine completes_of_run .ldr hx ?_
  rw [gRun, runLdr]
  simp only [if_neg hro, withOpnds_operates h, h.reads]

theorem ldr_raises (hx : Executes s n .ldr i) (h5 : bitsN (selOf i) 7 4 = 5) (hro : crReadOnly (bitsN (selOf i) 3 0) = true) :
    Raises (.ldr n) s n 1 none s := raises_of_run .ldr hx (if_pos ⟨h5, hro⟩)

theorem str_completes (hx : Executes s n .str i) (h : Operates s n i os vs v) (hs : selOf i ≠ 0x59) :
    Completes (.str n) s n i (opndWrite v n os (selRead s n (selOf i)).1) := by
  obtain rfl := operates_none hx h rfl
  have hne : bitsN (selOf i) 7 0 ≠ 0x59 := by
    have := hx.sel_lt rfl
    unfold bitsN
    omega
  refine completes_of_run .str hx ?_
  simp only [gRun, runStr, withOpnds_operates h, if_neg hne]

/-- `STR` of `CYCLE_LO` latches `CYCLE_HI` (Table 13-4). -/
theorem str_cycle_completes (hx : Executes s n .str i) (h : Operates s n i os vs v) (hs : selOf i = 0x59) :
    Completes (.str n) s n i (opndWrite (corePut v n { coreGet v n with cycHi := BitVec.ofNat 32 (coreCycles v (coreGet v n) / 2 ^ 32) })
      n os (coreCycles s (coreGet s n))) := by
  obtain rfl := operates_none hx h rfl
  refine completes_of_run .str hx ?_
  rw [gRun, runStr, withOpnds_operates h, hs]
  rfl

theorem addr_completes (hx : Executes s n .addr i) (h : Operates s n i os vs v) :
    Completes (.addr n) s n i (selWrite v n (selOf i) ((selRead v n (selOf i)).1 + vs.getD 0 0)) := by
  refine completes_of_run .addr hx ?_
  simp only [gRun, runAddr, withOpnds_operates h, h.reads]

/-- `EVTAKE` gives the input's state, and clears it (R376). -/
theorem evtake_completes (hx : Executes s n .evtake i) (h : Operates s n i os vs v) (hj : firstEa os < 16) :
    Completes (.evtake n) s n i
      (opndWrite (corePut v n { coreGet v n with inputs := tblSet {} (firstEa os) {} (coreGet v n).inputs }) n os
        ((tblGet {} (coreGet v n).inputs (firstEa os)).count + 256 * b2n (tblGet {} (coreGet v n).inputs (firstEa os)).ovf +
          512 * b2n (tblGet {} (coreGet v n).inputs (firstEa os)).pending)) := by
  obtain rfl := operates_none hx h rfl
  refine completes_of_run .evtake hx ?_
  rw [gRun, runEvtake, withOpnds_operates h]
  simp only [if_neg (Nat.not_le.2 hj), Nat.mul_comm]

theorem crWrite_onlyCore {j x : Nat} : OnlyCore v (crWrite v n j x) n := by
  unfold crWrite
  dsimp only
  split
  case h_11 => exact OnlyCore.refl v n
  all_goals exact onlyCore_corePut _ _ _

theorem selWrite_onlyCore {sel x : Nat} : OnlyCore v (selWrite v n sel x) n := by
  unfold selWrite
  dsimp only
  split
  case h_5 => split <;> exact onlyCore_corePut _ _ _
  case h_6 => exact crWrite_onlyCore
  all_goals exact onlyCore_corePut _ _ _

section
variable {sel x j : Nat} (hj : bitsN sel 3 0 = j)
include hj

theorem selWrite_a (hc : bitsN sel 7 4 = 0) : (coreGet (selWrite v n sel x) n).a = (coreGet v n).a.set j (x % 2 ^ 40) := by
  simp only [selWrite, hc, hj, coreGet_corePut_same]
  exact congrArg ((coreGet v n).a.set j) (ofSigned_natCast 40 x)

theorem selWrite_m (hc : bitsN sel 7 4 = 1) (hl : j < (coreGet v n).m.length) :
    (selRead (selWrite v n sel x) n sel).1 = x % 2 ^ 32 := by
  simp [selWrite, selRead, hc, hj, rM, setAt, hl]

theorem selWrite_l (hc : bitsN sel 7 4 = 2) (hl : j < (coreGet v n).l.length) :
    (selRead (selWrite v n sel x) n sel).1 = x % 2 ^ 32 := by
  simp [selWrite, selRead, hc, hj, rL, setAt, hl]

theorem selWrite_b (hc : bitsN sel 7 4 = 3) (hl : j < (coreGet v n).b.length) :
    (selRead (selWrite v n sel x) n sel).1 = x % 2 ^ 40 := by
  simp [selWrite, selRead, hc, hj, rB, setAt, hl]

end

theorem selWrite_cnt {sel x : Nat} (hc : bitsN sel 7 4 = 4) (hj : bitsN sel 3 0 = 0) :
    (coreGet (selWrite v n sel x) n).cnt = x % 65536 := by
  simp only [selWrite, hc, hj, coreGet_corePut_same]

theorem flagsMask_bit : ∀ b < 32, flagsMask.getLsbD b = decide (b ∈ [0, 1, 2, 3, 8, 16]) := by decide

theorem selWrite_flags {sel x : Nat} (hc : bitsN sel 7 4 = 4) (hj : bitsN sel 3 0 = 1) {b : Nat} (hb : b < 32) :
    (coreGet (selWrite v n sel x) n).flags.getLsbD b = if b ∈ [0, 1, 2, 3, 8, 16] then x.testBit b else (coreGet v n).flags.getLsbD b := by
  simp only [selWrite, hc, hj, coreGet_corePut_same, BitVec.getLsbD_or, BitVec.getLsbD_and, BitVec.getLsbD_not, BitVec.getLsbD_ofNat,
    flagsMask_bit b hb, hb, decide_true, Bool.true_and]
  split <;> rename_i hm <;> simp only [hm, decide_true, decide_false] <;> simp

theorem selWrite_preds {sel x : Nat} (hc : bitsN sel 7 4 = 4) (hj : bitsN sel 3 0 = 2) (e : Nat) :
    getPred (coreGet (selWrite v n sel x) n).preds e = (e == 0 || (decide (e < 8) && x.testBit e)) := by
  simp only [selWrite, hc, hj, coreGet_corePut_same, getPred]
  rcases Nat.eq_zero_or_pos e with rfl | h0
  · rfl
  · congr 1
    by_cases h8 : e < 8
    · rw [bitN_restored h0 h8, bitN_testBit, decide_eq_true h8, Bool.true_and]
    · have h : x % 256 / 2 * 2 + 1 < 2 ^ e := calc
        _ < 2 ^ 8 := by omega
        _ ≤ 2 ^ e := Nat.pow_le_pow_right (by decide) (by omega)
      rw [bitN_testBit, Nat.testBit_lt_two_pow h, decide_eq_false h8, Bool.false_and]

/-! ### Block instructions (R377, R378) -/

theorem gRun_block (hg : isBlock g = true) : gRun g = runBlock := by
  cases g
  case bmov | bfill | badds | bmulq | bmacq | bdot | bpeak => rfl
  all_goals exact absurd hg Bool.false_ne_true

theorem block_operands (hg : isBlock g = true) : rolesOf g ≠ [] ∧ g ≠ .ldr := by
  cases g
  case bmov | bfill | badds | bmulq | bmacq | bdot | bpeak => decide
  all_goals exact absurd hg Bool.false_ne_true

/-- One element of a block instruction: it counts one, and the instruction is complete at the last. -/
theorem block_element (hr : GulosRow n r g) (hg : isBlock g = true) (hx : Executes s n g i) (hc : (coreGet s n).cnt ≠ 0)
    (ha : runAlu s n i = .done w) :
    ((coreGet w n).cnt = 1 → Completes r s n i (corePut w n { coreGet w n with cnt := 0 })) ∧
    ((coreGet w n).cnt ≠ 1 → Next r s (fun t => t = stepDone s (corePut w n { coreGet w n with cnt := (coreGet w n).cnt - 1 }) n)) := by
  have hrun : gRun g s n i = if (coreGet w n).cnt = 1 then .done (corePut w n { coreGet w n with cnt := (coreGet w n).cnt - 1 })
      else .stay (corePut w n { coreGet w n with cnt := (coreGet w n).cnt - 1 }) := by
    rw [gRun_block hg, runBlock, if_neg hc, ha]
  refine ⟨fun h1 => completes_of_run hr hx ?_, fun h1 => next_executes hr hx (hrun.trans (if_neg h1)) rfl⟩
  rw [hrun, if_pos h1, h1]

theorem block_none (hr : GulosRow n r g) (hg : isBlock g = true) (hx : Executes s n g i) (hc : (coreGet s n).cnt = 0) :
    Completes r s n i s := by
  refine completes_of_run hr hx ?_
  rw [gRun_block hg, runBlock, if_pos hc]

theorem Executes.size_pos (hx : Executes s n g i) : 0 < 8 * i.size := by
  have := hx.specs.2
  simp only [List.mem_cons, List.not_mem_nil, or_false] at this
  omega

/-- The dot product of signed elements in 64 bits (Table 13-9). -/
theorem bdot_result (hx : Executes s n .bdot i) (h : Operates s n i os vs v) (f : Word) :
    aluOp .bdot (8 * i.size) f (vs.getD 0 0) (vs.getD 1 0) (vs.getD 2 0) 0 =
      ((BitVec.ofInt 64 ((BitVec.ofNat 64 (vs.getD 0 0)).toInt +
        (BitVec.ofNat (8 * i.size) (vs.getD 1 0)).toInt * (BitVec.ofNat (8 * i.size) (vs.getD 2 0)).toInt)).toNat, f) := by
  have hsrc : fieldSize i .src = i.size := by rw [fieldSize, hx.op]; rfl
  have hboth : fieldSize i .both = 8 := by rw [fieldSize, hx.op]; rfl
  have hv : List.Forall₂ (fun r x => x < 2 ^ (8 * fieldSize i r)) [.both, .src, .src] vs := hx.values_roles h
  match vs, hv with
  | [o, x, y], .cons ho (.cons hx1 (.cons hy .nil)) =>
    rw [hboth] at ho
    rw [hsrc] at hx1 hy
    simp only [aluOp, ← ofSigned_eq, ← toSigned_eq hx.size_pos hx1, ← toSigned_eq hx.size_pos hy, ← toSigned_eq (by decide : 0 < 64) ho,
      List.getD_cons_zero, List.getD_cons_succ]

/-- The larger of the accumulator and the size of an element (Table 13-9). -/
theorem bpeak_result (hx : Executes s n .bpeak i) (h : Operates s n i os vs v) (hn : vs.getD 1 0 ≠ 2 ^ (8 * i.size - 1)) (f : Word) (y : Nat) :
    aluOp .bpeak (8 * i.size) f (vs.getD 0 0) (vs.getD 1 0) y 0 =
      ((BitVec.ofInt (8 * i.size) (max (BitVec.ofNat (8 * i.size) (vs.getD 0 0)).toInt
        ((BitVec.ofNat (8 * i.size) (vs.getD 1 0)).toInt.natAbs : Int))).toNat, f) := by
  have hsize : ∀ r, fieldSize i r = i.size := fun r => by rw [fieldSize, hx.op]
  have hpos := hx.size_pos
  have hv : List.Forall₂ (fun r x => x < 2 ^ (8 * fieldSize i r)) [.both, .src] vs := hx.values_roles h
  match vs, hv with
  | [o, x], .cons ho (.cons hx1 .nil) =>
    rw [hsize] at ho hx1
    have hhalf : x ≠ 2 ^ (8 * i.size) / 2 := by
      rw [show 2 ^ (8 * i.size) / 2 = 2 ^ (8 * i.size - 1) from Nat.pow_div hpos (by decide)]
      exact hn
    simp only [aluOp, if_neg hhalf, ofSigned_eq, toSigned_eq hpos hx1, toSigned_eq hpos ho, List.getD_cons_zero, List.getD_cons_succ]
    split
    · rename_i hle
      rw [max_eq_right hle]
    · rename_i hle
      rw [max_eq_left (le_of_not_ge hle), BitVec.ofInt_toInt, BitVec.toNat_ofNat, Nat.mod_eq_of_lt ho]

end

/-- Settles O42: a lemma for each instruction and each register that a selector names, then one for each kind of block element. -/
theorem gulosRegisterAndBlockInstructions : Obligations.GulosRegisterAndBlockInstructions := by
  unfold Obligations.GulosRegisterAndBlockInstructions
  refine ⟨fun n s i os vs v h => ⟨fun hx => ldr_completes hx h, ldr_raises, fun hx => str_completes hx h, fun hx => str_cycle_completes hx h,
    fun hx => addr_completes hx h, fun hx => evtake_completes hx h, fun x c j hc hj => ⟨selWrite_onlyCore, ?_⟩⟩,
    fun n r g s i os vs v hr hg hx => ⟨block_none hr hg hx, fun hcnt h => ⟨fun hp => ?_, ?_, ?_, ?_⟩, fun hcnt c a s1 hm hf => ?_⟩⟩
  · refine ⟨?_, ?_, ?_, ?_, ?_, ?_, ?_, ?_, ?_, ?_⟩ <;> rintro rfl
    · exact fun _ => selWrite_a hj hc
    · exact selWrite_m hj hc
    · exact selWrite_l hj hc
    · exact selWrite_b hj hc
    · rintro rfl; exact selWrite_cnt hc hj
    · rintro rfl b hb; exact selWrite_flags hc hj hb
    · rintro rfl; exact selWrite_preds hc hj
    all_goals rintro rfl; simp only [selWrite, hc, hj, crWrite, coreGet_corePut_same]
  · obtain ⟨hb, ha, hpk⟩ := (show ∀ g ∈ plainBlockOps, (rolesOf g).any (· == .both) = false ∧ g ≠ .abs ∧ g ≠ .bpeak by decide) g hp
    exact block_element hr hg hx hcnt (runAlu_fresh hx h hb (fun e => ha e.1) hpk)
  · rintro rfl
    exact block_element hr hg hx hcnt (runAlu_both hx h rfl (by decide) (by simp))
  · rintro rfl
    have ha := runAlu_both hx h rfl (by decide) (by simp)
    rw [bdot_result hx h] at ha
    exact block_element hr hg hx hcnt ha
  · rintro rfl hn
    have ha := runAlu_both hx h rfl (by decide) (by simp only [hn, and_false, not_false_eq_true])
    rw [bpeak_result hx h hn] at ha
    exact block_element hr hg hx hcnt ha
  · obtain ⟨hroles, hldr⟩ := block_operands hg
    exact raises_of_run hr hx (gRun_exc_of_operands hroles (fun _ => hcnt) (absurd · hldr) (withOpnds_fail hm hf))

end Sys2Proof.Machine
end

section
set_option Elab.async false

/-! SUPPORT. The data instructions: what each writes, what it leaves unchanged, and the settled statement O39. -/

namespace Sys2Proof.Machine

section
variable {s u v w : State} {n : Nat} {g : GOp} {r : Instr} {i : GInstr} {os : List Opnd} {vs : List Nat}

/-! ### Results (R374, R375, Table 13-9) -/

theorem gRun_alu : ∀ g ∈ aluOps ++ [.mac, .macq], gRun g = runAlu := by simp [aluOps, gRun]

theorem gRun_cmp : ∀ g ∈ cmpOps, gRun g = runCmp := by simp [cmpOps, gRun]

theorem gRun_pred : ∀ g ∈ predOps, gRun g = runPred := by simp [predOps, gRun]

theorem alu_completes (hr : GulosRow n r g) (hx : Executes s n g i) (h : Operates s n i os vs v) (hg : g ∈ aluOps)
    (ho : ¬ (g = .abs ∧ vs.getD 0 0 = 2 ^ (8 * i.size - 1))) : Completes r s n i
      (opndWrite (withFlags v n (aluOp g (8 * i.size) (coreGet v n).flags 0 (vs.getD 0 0) (vs.getD 1 0) 0).2) n os
        (aluOp g (8 * i.size) (coreGet v n).flags 0 (vs.getD 0 0) (vs.getD 1 0) 0).1) := by
  obtain ⟨hb, hp⟩ := (show ∀ g ∈ aluOps, (rolesOf g).any (· == .both) = false ∧ g ≠ .bpeak by decide) g hg
  exact completes_of_run hr hx (by rw [gRun_alu g (List.mem_append_left _ hg), runAlu_fresh hx h hb ho hp])

theorem accumulate_completes (hr : GulosRow n r g) (hx : Executes s n g i) (h : Operates s n i os vs v) (hg : g = .mac ∨ g = .macq) :
    Completes r s n i
      (opndWrite (withFlags v n (aluOp g (8 * i.size) (coreGet v n).flags (vs.getD 0 0) (vs.getD 1 0) (vs.getD 2 0) 0).2) n os
        (aluOp g (8 * i.size) (coreGet v n).flags (vs.getD 0 0) (vs.getD 1 0) (vs.getD 2 0) 0).1) := by
  have hg' : g ∈ [GOp.mac, .macq] := by simpa using hg
  obtain ⟨hb, ha, hp⟩ := (show ∀ g ∈ [GOp.mac, .macq], (rolesOf g).any (· == .both) = true ∧ g ≠ .abs ∧ g ≠ .bpeak by decide) g hg'
  exact completes_of_run hr hx (by rw [gRun_alu g (List.mem_append_right _ hg'), runAlu_both hx h hb ha fun e => hp e.1])

/-- The absolute value of the most negative number is a free value (assumption 3). -/
theorem abs_completes (hr : GulosRow n r .abs) (hx : Executes s n .abs i) (h : Operates s n i os vs v)
    (hm : vs.getD 0 0 = 2 ^ (8 * i.size - 1)) : ∃ free, Completes r s n i
      (opndWrite (withFlags (freeWord v).2 n (aluOp .abs (8 * i.size) (coreGet v n).flags 0 (vs.getD 0 0) (vs.getD 1 0) free).2) n os
        (aluOp .abs (8 * i.size) (coreGet v n).flags 0 (vs.getD 0 0) (vs.getD 1 0) free).1) := by
  refine ⟨(freeWord v).1.toNat % 2 ^ (8 * i.size), completes_of_run hr hx ?_⟩
  have hb : (rolesOf GOp.abs).any (· == .both) = false := rfl
  rw [gRun_alu _ (by decide), runAlu, withOpnds_operates h]
  simp only [h.reads, hx.any_both h, hb, hx.op, b2n, Bool.false_eq_true, if_false, Nat.zero_add, hm, beq_self_eq_true, Bool.true_or, Bool.and_self,
    if_true]
  rfl

theorem extend_completes (hr : GulosRow n r .movsx) (hx : Executes s n .movsx i) (h : Operates s n i os vs v) :
    Completes r s n i (opndWrite v n os ((BitVec.ofNat (8 * i.size) (vs.getD 0 0)).signExtend 64).toNat) := by
  have hsrc : fieldSize i .src = i.size := by rw [fieldSize, hx.op]; rfl
  have hv : List.Forall₂ (fun r x => x < 2 ^ (8 * fieldSize i r)) [.src] vs := hx.values_roles h
  have hlt : vs.getD 0 0 < 2 ^ (8 * i.size) := by
    match vs, hv with
    | [x], .cons hx1 .nil => exact hsrc ▸ hx1
  refine completes_of_run hr hx ?_
  simp only [gRun, runExtend, withOpnds_operates h, h.reads, hx.op, if_true, toSigned_eq hx.size_pos hlt, ofSigned_eq, BitVec.signExtend]

theorem zeroExtend_completes (hr : GulosRow n r .movzx) (hx : Executes s n .movzx i) (h : Operates s n i os vs v) :
    Completes r s n i (opndWrite v n os (vs.getD 0 0)) := by
  refine completes_of_run hr hx ?_
  simp only [gRun, runExtend, withOpnds_operates h, h.reads, hx.op, reduceCtorEq, if_false]

theorem lea_completes_first (hr : GulosRow n r .lea) (hx : Executes s n .lea i) (h : Operates s n i os vs v) :
    Completes r s n i (opndWrite v n os (firstEa (os.drop 1))) := by
  obtain rfl := operates_none hx h rfl
  refine completes_of_run hr hx ?_
  simp only [gRun, runLea, withOpnds_operates h]

theorem lea_completes (hr : GulosRow n r .lea) (hx : Executes s n .lea i) (h : Operates s n i os vs v) {a : Nat}
    (ha : (os[1]?).map (·.ea) = some (.addr a)) : Completes r s n i (opndWrite v n os a) := by
  have hfirst : firstEa (os.drop 1) = a := by
    match os, ha with
    | _ :: o :: _, ha =>
      have ha : o.ea = .addr a := by simpa using ha
      simp only [List.drop_succ_cons, List.drop_zero, firstEa, ha]
  exact hfirst ▸ lea_completes_first hr hx h

theorem saturate_completes (hr : GulosRow n r .satq) (hx : Executes s n .satq i) (h : Operates s n i os vs v) : Completes r s n i
    (opndWrite (withFlags v n (if clampTo (8 * i.size) ((BitVec.ofNat 64 (vs.getD 0 0)).toInt) = (BitVec.ofNat 64 (vs.getD 0 0)).toInt then
      (coreGet v n).flags else putBit (coreGet v n).flags 8 true)) n os
        (BitVec.ofInt (8 * i.size) (clampTo (8 * i.size) (BitVec.ofNat 64 (vs.getD 0 0)).toInt)).toNat) := by
  have hsrc : fieldSize i .src = 8 := by rw [fieldSize, hx.op]; rfl
  have hv : List.Forall₂ (fun r x => x < 2 ^ (8 * fieldSize i r)) [.src] vs := hx.values_roles h
  have hlt : vs.getD 0 0 < 2 ^ 64 := by
    match vs, hv with
    | [x], .cons hx1 .nil => rw [hsrc] at hx1; exact hx1
  refine completes_of_run hr hx ?_
  simp only [gRun, runSatq, withOpnds_operates h, h.reads, toSigned_eq (by decide : 0 < 64) hlt, satTo_eq, ofSigned_eq, flagsSat, withFlags,
    decide_not, Bool.not_eq_true', decide_eq_false_iff_not, ite_not]

theorem compare_completes (hr : GulosRow n r g) (hx : Executes s n g i) (h : Operates s n i os vs v) (hg : g ∈ cmpOps) {d : Spec}
    (hd : i.specs.getLast? = some d) : Completes r s n i (corePut v n { coreGet v n with
      preds := setPred (coreGet v n).preds (d.raw % 8) (if d.raw.testBit 3 then
        getPred (coreGet v n).preds (d.raw % 8) && cmpOp g (8 * i.size) (vs.getD 0 0) (vs.getD 1 0)
        else cmpOp g (8 * i.size) (vs.getD 0 0) (vs.getD 1 0)) }) := by
  have hb : bitsN d.raw 2 0 = d.raw % 8 := by unfold bitsN; omega
  refine completes_of_run hr hx ?_
  simp only [gRun_cmp g hg, runCmp, withOpnds_operates h, h.reads, hx.op, hd, Option.map_some, Option.getD_some, hb, bitN_testBit]

theorem predicate_completes (hr : GulosRow n r g) (hx : Executes s n g i) (hg : g ∈ predOps) :
    Completes r s n i (corePut s n { coreGet s n with preds := predOp g (coreGet s n).preds i.word0 }) :=
  completes_of_run hr hx (by simp only [gRun_pred g hg, runPred, hx.op])


/-! ### What a data instruction leaves unchanged -/

/-- From `s` to `w` an operation has acted on its core only: on the address registers, the predicates, the flags that operations set, and the
work memory inside its destination; free values may be drawn. -/
def DataEffect (s : State) (n : Nat) (g : GOp) (os : List Opnd) (w : State) : Prop :=
  w = { s with draws := w.draws, needle := { s.needle with cores := w.needle.cores } } ∧
  (∀ m, m ≠ n → coreGet w m = coreGet s m) ∧
  (let k := coreGet w n
   k = { coreGet s n with a := k.a, preds := k.preds, flags := k.flags, work := k.work }) ∧
  (g ∉ cmpOps ++ predOps → (coreGet w n).preds = (coreGet s n).preds) ∧
  (g ∈ cmpOps ++ predOps → (coreGet w n).flags = (coreGet s n).flags ∧ (coreGet w n).work = (coreGet s n).work) ∧
  (∀ k, k < 32 → k ∉ [0, 1, 2, 3, 8] → (coreGet w n).flags.getLsbD k = (coreGet s n).flags.getLsbD k) ∧
  (∀ o x, o ∈ os → (o.role = .dst ∨ o.role = .both) → (∃ a, o.ea = .addr a ∧ corePlace s n a o.size .read = .work x) →
    ∀ j, j < x ∨ x + o.size ≤ j → memByte (coreGet w n).work j = memByte (coreGet s n).work j)

theorem DataEffect.addressed (s : State) (n : Nat) (g : GOp) (os : List Opnd) (i : GInstr) : DataEffect s n g os (addressed s n i) := by
  obtain ⟨a, ha⟩ := coreGet_addressed s n i
  refine ⟨rfl, fun m hm => coreGet_corePut_other hm, ?_⟩
  rw [ha]
  exact ⟨rfl, fun _ => rfl, fun _ => ⟨rfl, rfl⟩, fun _ _ _ => rfl, fun _ _ _ _ _ _ _ => rfl⟩

theorem DataEffect.self (s : State) (n : Nat) (g : GOp) (os : List Opnd) : DataEffect s n g os s :=
  ⟨rfl, fun _ _ => rfl, rfl, fun _ => rfl, fun _ => ⟨rfl, rfl⟩, fun _ _ _ => rfl, fun _ _ _ _ _ _ _ => rfl⟩

theorem DataEffect.freeWord (h : DataEffect s n g os u) : DataEffect s n g os (freeWord u).2 := by
  obtain ⟨hu, hcores⟩ := h
  exact ⟨by rw [hu]; rfl, hcores⟩

theorem DataEffect.flags (h : DataEffect s n g os u) (hg : g ∉ cmpOps ++ predOps) {f : Word}
    (hf : ∀ k, k ∉ [0, 1, 2, 3, 8] → bitOf f k = bitOf (coreGet u n).flags k) : DataEffect s n g os (withFlags u n f) := by
  obtain ⟨hu, hother, hcore, hpreds, -, hflags, hmem⟩ := h
  refine ⟨by rw [hu]; rfl, fun m hm => (coreGet_corePut_other hm).trans (hother m hm), ?_⟩
  rw [withFlags, coreGet_corePut_same]
  exact ⟨by rw [hcore], hpreds, (absurd · hg), fun k hk hn => (hf k hn).trans (hflags k hk hn), hmem⟩

theorem DataEffect.preds (h : DataEffect s n g os u) (hg : g ∈ cmpOps ++ predOps) (p : Nat) :
    DataEffect s n g os (corePut u n { coreGet u n with preds := p }) := by
  obtain ⟨hu, hother, hcore, -, hkeep, hflags, hmem⟩ := h
  refine ⟨by rw [hu]; rfl, fun m hm => (coreGet_corePut_other hm).trans (hother m hm), ?_⟩
  rw [coreGet_corePut_same]
  exact ⟨by rw [hcore], (absurd hg ·), hkeep, hflags, hmem⟩

theorem DataEffect.place (h : DataEffect s n g os u) {a size : Nat} {k : AccKind} : corePlace u n a size k = corePlace s n a size k := by
  rw [h.1]
  rfl

/-- The core's work memory is where reads and writes of it go. -/
theorem corePlace_work {a size size' x : Nat} (h : corePlace s n a size .read = .work x) : corePlace s n a size' .write = .work x := by
  unfold corePlace at h ⊢
  dsimp only at h ⊢
  split at h
  · simp at h
  · rename_i hi
    rw [if_neg hi]
    split at h
    · rename_i hw
      rw [if_pos hw]
      simpa using h
    · exfalso
      repeat' split at h
      all_goals simp at h

/-- The operations that write their result to the operand of their first field. -/
def resultOps : List GOp := aluOps ++ [.mac, .macq, .movsx, .movzx, .lea, .satq]

/-- The first of these operands alone takes a result. -/
def firstTakes : List Role → Bool
  | [] => false
  | r :: rs => (r == .dst || r == .both) && rs.all (fun q => !(q == .dst || q == .both))

theorem result_roles : ∀ g ∈ resultOps, g ∉ cmpOps ++ predOps ∧ firstTakes ((rolesOf g).filter hasMode) = true := by decide

/-- The operand that takes the result of an operation is its first. -/
theorem Executes.result_operand (hx : Executes s n g i) (ho : Operates s n i os vs v) (hg : g ∈ resultOps) :
    ∃ o rest, os = o :: rest ∧ (o.role = .dst ∨ o.role = .both) ∧ ∀ p ∈ rest, ¬ (p.role = .dst ∨ p.role = .both) := by
  have hf := (result_roles g hg).2
  rw [← hx.roles ho] at hf
  rcases os with _ | ⟨o, rest⟩
  · exact absurd hf Bool.false_ne_true
  · rw [List.map_cons, firstTakes, Bool.and_eq_true, List.all_map, List.all_eq_true] at hf
    exact ⟨o, rest, rfl, by simpa using hf.1, fun p hp => by simpa using hf.2 p hp⟩

/-- A result that is written to an operand in the core's own memories goes to its work memory. -/
theorem opndWrite_own {o : Opnd} {rest : List Opnd} (hr : o.role = .dst ∨ o.role = .both) (x : Nat) (hown : ownMemory s n o)
    (hu : ∀ a size k, corePlace u n a size k = corePlace s n a size k) : opndWrite u n (o :: rest) x = u ∨
      ∃ a y, o.ea = .addr a ∧ corePlace s n a o.size .read = .work y ∧ opndWrite u n (o :: rest) x =
        corePut u n { coreGet u n with work := memWrite (coreGet u n).work y (leBytes o.size x) } := by
  have hfind : (o :: rest).find? (fun o => o.role == .dst || o.role == .both) = some o :=
    List.find?_cons_of_pos (by simpa using hr)
  simp only [opndWrite, hfind]
  rcases he : o.ea with a | _ | _
  · rw [ownMemory, he] at hown
    obtain ⟨y, hp⟩ : ∃ y, corePlace s n a o.size .read = .work y := by
      rcases hown with h | hp | ⟨h, -⟩
      · rw [h] at hr; exact absurd hr (by decide)
      · exact hp
      · rw [h] at hr; exact absurd hr (by decide)
    exact .inr ⟨a, y, rfl, hp, coreWrite_work (by rw [hu]; exact corePlace_work hp)⟩
  · exact .inl rfl
  · exact .inl rfl

theorem DataEffect.write (h : DataEffect s n g os u) (hx : Executes s n g i) (ho : Operates s n i os vs v) (hg : g ∈ resultOps)
    (hown : ∀ o, o ∈ os → ownMemory s n o) (x : Nat) : DataEffect s n g os (opndWrite u n os x) := by
  obtain ⟨o, rest, rfl, hr, hrest⟩ := hx.result_operand ho hg
  rcases opndWrite_own (rest := rest) hr x (hown o List.mem_cons_self) (fun a size k => h.place) with he | ⟨a, y, hea, hp, he⟩
  · rw [he]; exact h
  · obtain ⟨hu, hother, hcore, hpreds, -, hflags, hmem⟩ := h
    rw [he]
    refine ⟨by rw [hu]; rfl, fun m hm => (coreGet_corePut_other hm).trans (hother m hm), ?_⟩
    rw [coreGet_corePut_same]
    refine ⟨by rw [hcore], hpreds, (absurd · (result_roles g hg).1), hflags, fun p z hp' hpr ⟨a', ha', hz⟩ j hj => ?_⟩
    obtain rfl : p = o := (List.mem_cons.1 hp').resolve_right fun hm => hrest p hm hpr
    obtain rfl : a' = a := by rw [hea] at ha'; exact (EaRes.addr.inj ha').symm
    obtain rfl : z = y := by rw [hp] at hz; exact (CorePlace.work.inj hz).symm
    exact (memByte_write_other (by rwa [leBytes_length])).trans (hmem p z hp' hpr ⟨a', ha', hz⟩ j hj)

/-- Reading a core's own memories leaves the state. -/
theorem opndsRead_own (hu : ∀ a size k, corePlace u n a size k = corePlace s n a size k) (hown : ∀ o, o ∈ os → ownMemory s n o) :
    (opndsRead u n os).2 = u := by
  induction os with
  | nil => rfl
  | cons o os ih =>
    have ih := ih fun p hp => hown p (List.mem_cons_of_mem _ hp)
    rw [opndsRead_cons]
    by_cases hr : isRead o = true
    · have hread : (opndRead u n o).2 = u := by
        have ho := hown o List.mem_cons_self
        unfold opndRead
        unfold ownMemory at ho
        split
        · rename_i a ha
          rw [ha] at ho
          rcases ho with he | ⟨x, hp⟩ | ⟨-, x, hp⟩
          · rw [isRead, he] at hr; exact absurd hr (by decide)
          · simp only [coreRead, hu, hp]
          · simp only [coreRead, hu, hp]
        · rfl
        · rfl
      rw [if_pos hr, hread]
      exact ih
    · rw [if_neg hr]
      exact ih

theorem operates_own (h : Operates s n i os vs v) (hown : ∀ o, o ∈ os → ownMemory s n o) : v = addressed s n i := by
  have := h.reads
  have e := opndsRead_own (u := addressed s n i) (s := s) (fun _ _ _ => rfl) hown
  rwa [this] at e

/-- A data instruction that completes leaves what its effect does, and moves execution on. -/
theorem DataEffect.completes (h : DataEffect s n g os w) (hc : Completes r s n i w) : Next r s (fun t =>
    t = { s with
      draws := t.draws
      needle := { s.needle with cores := t.needle.cores } } ∧
    (∀ m, m ≠ n → coreGet t m = coreGet s m) ∧
    (let k := coreGet t n
     k = { coreGet s n with
      a := k.a, preds := k.preds, flags := k.flags, work := k.work, pc := k.pc, slots := k.slots, target := k.target
      commits := (coreGet s n).commits + 1, jtagStep := k.jtagStep }) ∧
    (g ∉ cmpOps ++ predOps → (coreGet t n).preds = (coreGet s n).preds) ∧
    (g ∈ cmpOps ++ predOps → (coreGet t n).flags = (coreGet s n).flags ∧ (coreGet t n).work = (coreGet s n).work) ∧
    (∀ k, k < 32 → k ∉ [0, 1, 2, 3, 8] → (coreGet t n).flags.getLsbD k = (coreGet s n).flags.getLsbD k) ∧
    (∀ o x, o ∈ os → (o.role = .dst ∨ o.role = .both) → (∃ a, o.ea = .addr a ∧ corePlace s n a o.size .read = .work x) →
      ∀ j, j < x ∨ x + o.size ≤ j → memByte (coreGet t n).work j = memByte (coreGet s n).work j)) := by
  obtain ⟨t, he, rfl⟩ := hc
  obtain ⟨hw, hother, hcore, hpreds, hkeep, hflags, hmem⟩ := h
  have hadv : OnlyCore w (coreAdvance w n i.len) n := onlyCore_corePut _ _ _
  obtain ⟨hst, hso⟩ := hadv.stepDone s
  obtain ⟨j, hj⟩ := coreGet_stepDone s (coreAdvance w n i.len) n
  refine ⟨_, he, ?_, fun m hm => (hso m hm).trans (hother m hm), ?_⟩
  · rw [hst, hw]
  · rw [hj, coreAdvance, coreGet_corePut_same]
    exact ⟨by rw [hcore], hpreds, hkeep, hflags, hmem⟩

/-- What a data instruction completes with acts on its core only. -/
theorem data_effect (hr : GulosRow n r g) (hx : Executes s n g i) (h : Operates s n i os vs v) (hown : ∀ o, o ∈ os → ownMemory s n o)
    (hg : g ∈ aluOps ++ cmpOps ++ predOps ++ [.mac, .macq, .movsx, .movzx, .lea, .satq]) :
    ∃ w, DataEffect s n g os w ∧ Completes r s n i w := by
  obtain rfl := operates_own h hown
  have start := DataEffect.addressed s n g os i
  have written (hg : g ∈ resultOps) {f : Word} {u : State} (hu : DataEffect s n g os u) (x : Nat)
      (hf : ∀ k, k ∉ [0, 1, 2, 3, 8] → bitOf f k = bitOf (coreGet u n).flags k) :
      DataEffect s n g os (opndWrite (withFlags u n f) n os x) := (hu.flags (result_roles g hg).1 hf).write hx h hg hown x
  have fresh : ∀ k, bitOf (coreGet (freeWord (addressed s n i)).2 n).flags k = bitOf (coreGet (addressed s n i) n).flags k := fun k => by
    rw [coreGet_congr (freeWord_only.needle_eq rfl)]
  simp only [List.mem_append, List.mem_cons, List.not_mem_nil, or_false, or_assoc] at hg
  rcases hg with hg | hg | hg | hg | hg | rfl | rfl | rfl | rfl
  · by_cases ho : g = .abs ∧ vs.getD 0 0 = 2 ^ (8 * i.size - 1)
    · obtain ⟨rfl, hm⟩ := ho
      obtain ⟨free, hc⟩ := abs_completes hr hx h hm
      exact ⟨_, written (by decide) start.freeWord _ fun k hk => (aluOp_flags_other hk).trans (fresh k).symm, hc⟩
    · exact ⟨_, written (List.mem_append_left _ hg) start _ fun k hk => aluOp_flags_other hk, alu_completes hr hx h hg ho⟩
  · have hlen : i.specs.length = 3 := hx.specs.1.trans ((show ∀ g ∈ cmpOps, (rolesOf g).length = 3 by decide) g hg)
    have hne : i.specs ≠ [] := List.ne_nil_of_length_pos (by omega)
    exact ⟨_, start.preds (List.mem_append_left _ hg) _, compare_completes hr hx h hg (List.getLast?_eq_some_getLast hne)⟩
  · exact ⟨_, (DataEffect.self s n g os).preds (List.mem_append_right _ hg) _, predicate_completes hr hx hg⟩
  · exact ⟨_, written (hg ▸ by decide) start _ fun k hk => aluOp_flags_other hk, accumulate_completes hr hx h (.inl hg)⟩
  · exact ⟨_, written (hg ▸ by decide) start _ fun k hk => aluOp_flags_other hk, accumulate_completes hr hx h (.inr hg)⟩
  · exact ⟨_, start.write hx h (by decide) hown _, extend_completes hr hx h⟩
  · exact ⟨_, start.write hx h (by decide) hown _, zeroExtend_completes hr hx h⟩
  · exact ⟨_, start.write hx h (by decide) hown _, lea_completes_first hr hx h⟩
  · refine ⟨_, written (by decide) start _ fun k hk => ?_, saturate_completes hr hx h⟩
    split
    · rfl
    · rw [bitOf_putBit (by decide), if_neg fun e => hk (by simp [e])]

end

/-- Settles O39: the lemma of each group of operations gives what it writes, and the frame follows from their effects. -/
theorem gulosDataInstructionsCompleteAndFrame : Obligations.GulosDataInstructionsCompleteAndFrame := by
  unfold Obligations.GulosDataInstructionsCompleteAndFrame
  refine ⟨fun n r g s i os vs v hr hx h => ⟨alu_completes hr hx h, accumulate_completes hr hx h, ?_, ?_, ?_, ?_, ?_,
    fun hg d hd => compare_completes hr hx h hg hd, predicate_completes hr hx⟩, fun n r g s i os vs v hr hg hx h hown => ?_⟩
  · rintro rfl; exact abs_completes hr hx h
  · rintro rfl; exact extend_completes hr hx h
  · rintro rfl; exact zeroExtend_completes hr hx h
  · rintro rfl a ha; exact lea_completes hr hx h ha
  · rintro rfl; exact saturate_completes hr hx h
  · obtain ⟨w, hw, hc⟩ := data_effect hr hx h hown hg
    exact hw.completes hc

end Sys2Proof.Machine
end

section
set_option Elab.async false

/-! SUPPORT. The coprocessor ports of a core (R381, R384): status words, the jobs of Press and Mangle, and the settled statement O43. -/

namespace Sys2Proof.Machine

section
variable {s t u v w : State} {n m : Nat} {g : GOp} {r : Instr} {i : GInstr} {os : List Opnd} {vs : List Nat}

/-! ### A write of a core leaves what its cores pend of -/

theorem corePut_pend {k : Core} (hk : k.pend = (coreGet u n).pend) (m : Nat) : (coreGet (corePut u n k) m).pend = (coreGet u m).pend := by
  by_cases h : m = n
  · rw [h, coreGet_corePut_same, hk]
  · rw [coreGet_corePut_other h]

theorem dmaRegWrite_pend (u : State) (q : Requester) (c off : Nat) (x : Word) (m : Nat) :
    (coreGet (dmaRegWrite u q c off x) m).pend = (coreGet u m).pend := by
  have hput : ∀ a y, (coreGet (regPut u a y) m).pend = (coreGet u m).pend := fun _ _ => by rw [coreGet_congr (regPut_only.needle_eq rfl)]
  have hign : (coreGet (ignWrite u) m).pend = (coreGet u m).pend := by rw [coreGet_congr (ignWrite_only.needle_eq rfl)]
  unfold dmaRegWrite
  split
  · split
    · exact hput _ _
    · exact hign
  · rw [coreGet_congr (dmaCtrl_only.needle_eq rfl)]
  · rw [dmaEvtClear, coreGet_congr (sqcClearAt_only.needle_eq rfl)]
    exact corePut_pend (by rfl) m
  · exact hput _ _
  · exact hput _ _
  · exact hput _ _
  · rw [coreGet_congr (dmaResume_only.needle_eq rfl)]
  · exact hign

theorem coreRegWrite_pend (u : State) (n a : Nat) (x : Word) (m : Nat) : (coreGet (coreRegWrite u n a x) m).pend = (coreGet u m).pend := by
  unfold coreRegWrite
  split
  · rfl
  · split
    · rw [coreGet_congr (opWrite_only.needle_eq rfl)]
    · split
      · exact dmaRegWrite_pend _ _ _ _ _ _
      · rw [coreGet_congr (ignWrite_only.needle_eq rfl)]

theorem coreWrite_pend (u : State) (n a : Nat) (bs : List Byte) (m : Nat) : (coreGet (coreWrite u n a bs) m).pend = (coreGet u m).pend := by
  unfold coreWrite
  split
  · exact corePut_pend (by rfl) m
  · rw [coreGet_congr (bufWrite_only.needle_eq rfl)]
  · split
    · rw [coreGet_congr (narrowWrite_only.needle_eq rfl)]
    · dsimp only
      split
      · rw [coreRegWrite_pend, coreRegWrite_pend]
      · rw [coreRegWrite_pend]
  · rfl

theorem opndWrite_pend (u : State) (n : Nat) (os : List Opnd) (x m : Nat) : (coreGet (opndWrite u n os x) m).pend = (coreGet u m).pend := by
  unfold opndWrite
  split
  · split
    · exact coreWrite_pend _ _ _ _ _
    · rfl
  · rfl

/-! ### Status words (R381) -/

/-- A `WAIT`, `COLLECT` or `POLL` takes the status word of the oldest job; `res` is how it ends while the job runs. -/
theorem takeStatus_takes (hr : GulosRow n r g) (hx : Executes s n g i) (h : Operates s n i os vs v) {poll : Bool} {jobs : Core → List PortJob}
    {put : Core → List PortJob → Core} {res : GRes} {fin : State → GRes} {held : State}
    (he : gRun g s n i = takeStatus s n i poll jobs put res fin) (hv : addressed s n i = v)
    (hput : ∀ k js, (put k js).pend = k.pend) (hfin : ∀ t, (coreGet t n).pend = (coreGet v n).pend → fin t = .done t)
    (hheld : poll = false → stepDone s (coreFinish s n i res) n = held) :
    (jobs (coreGet v n) = [] → Completes r s n i (opndWrite v n os 0xFF)) ∧
    (∀ j js w, jobs (coreGet v n) = j :: js → j.done = some w →
      Completes r s n i (opndWrite (corePut v n (put (coreGet v n) js)) n os w.toNat)) ∧
    (∀ j js, jobs (coreGet v n) = j :: js → j.done = none →
      if poll then Completes r s n i (opndWrite v n os 0xFE) else Next r s (fun t => t = held)) := by
  subst hv
  have hrun := he
  rw [takeStatus, withOpnds_operates h] at hrun
  refine ⟨fun hj => ?_, fun j js w hj hd => ?_, fun j js hj hd => ?_⟩
  · refine completes_of_run hr hx ?_
    simp only [hrun, hj]
    exact hfin _ (opndWrite_pend _ _ _ _ _)
  · refine completes_of_run hr hx ?_
    simp only [hrun, hj, hd]
    exact hfin _ ((opndWrite_pend _ _ _ _ _).trans (corePut_pend (hput _ _) n))
  · simp only [hj, hd] at hrun
    cases poll
    · exact next_executes hr hx (hrun.trans (if_neg Bool.false_ne_true)) (hheld rfl)
    · exact completes_of_run hr hx ((hrun.trans (if_pos rfl)).trans (hfin _ (opndWrite_pend _ _ _ _ _)))

theorem haltKept_done (h : bitN (coreGet t n).pend 22 = false) : haltKept n t = .done t := by
  rw [haltKept, h]
  rfl

/-- A `MGL.COLLECT` that waits has begun, and is no instruction that the JTAG port steps has executed (R196, R479). -/
theorem stepDone_collect (s : State) (n : Nat) : stepDone s (corePut s n { coreGet s n with collect := true }) n =
    corePut s n { coreGet s n with collect := true } := by
  unfold stepDone
  rw [coreGet_corePut_same]
  simp

/-! ### Jobs of the Press port (R384) -/

/-- How an instruction that is done ends: its effect, with one more instruction counted and execution moved on. -/
theorem next_of_done (hr : GulosRow n r g) (hx : Executes s n g i) (he : gRun g s n i = .done w) {P : State → Prop}
    (hp : ∀ t, OnlyCore w t n → (coreGet t n).commits = (coreGet w n).commits + 1 → (coreGet t n).press = (coreGet w n).press →
      (coreGet t n).mangle = (coreGet w n).mangle → (coreGet t n).pressN = (coreGet w n).pressN →
      (coreGet t n).mangleN = (coreGet w n).mangleN → P t) : Next r s P := by
  obtain ⟨j, hj⟩ := coreGet_stepDone s (coreAdvance w n i.len) n
  rw [coreAdvance, coreGet_corePut_same, ← coreAdvance] at hj
  refine next_executes hr hx he (hp _ ((onlyCore_corePut w n _).stepDone s) ?_ ?_ ?_ ?_ ?_) <;> rw [coreFinish, hj]

/-- The state in which a Press job with the keys `hs` stands at its port, before its keys' uses are reserved. -/
def pressAsked (v : State) (n : Nat) (d : List Byte) (hs : List Nat) : State :=
  touchFast (corePut v n { coreGet v n with
    press := (coreGet v n).press ++ [{ id := (coreGet v n).commits, desc := d, keys := hs, mats := hs.map (keyBits v) }] })

theorem touchFast_coreGet (u : State) (m : Nat) : coreGet (touchFast u) m = coreGet u m := coreGet_congr (touchFast_only.needle_eq rfl) m

theorem portTake_coreGet {hs : List Nat} {b : Bool} (h : portTake u hs = some (w, b)) (m : Nat) : coreGet w m = coreGet u m :=
  coreGet_congr ((portTake_only h).needle_eq rfl) m

/-- A `PRS.ISSUE` whose regions are the core's own, at a port with room. -/
theorem runPrsIssue_allowed (h : Operates s n i os vs v) (hv : addressed s n i = v) {d : List Byte}
    (hd : d = memRead (coreGet v n).work ((workOff n (firstEa os)).getD 0) 32) (hreg : regionOk v n (firstEa os) 32 false = true)
    (hlen : (coreGet v n).press.length < 2) (h1 : jobRegion v n (leAt d 8 4) (leAt d 12 4) (bitN (byteAt d 5) 0) = true)
    (h2 : jobRegion v n (leAt d 20 4) (descOut d) (bitN (byteAt d 5) 1) = true) :
    runPrsIssue s n i = pressIssue v n (pressPortCheck v n d) d := by
  subst hv hd
  simp only [runPrsIssue, withOpnds_operates h, jobDesc, hreg, h1, h2, if_neg (Nat.not_le.2 hlen), Bool.not_true, Bool.false_eq_true, if_false]

/-- A job that the port refuses is done at once. -/
theorem pressIssue_refused {st : Nat} (hst : st ≠ 0) (d : List Byte) : pressIssue v n st d =
    .done (touchFast (corePut v n { coreGet v n with
      press := (coreGet v n).press ++ [{ id := (coreGet v n).commits, desc := d, done := some (statusWord st 0 0) }]
      pressN := (coreGet v n).pressN + 1 })) := by
  have hb : (st != 0) = true := by simpa using hst
  simp only [pressIssue, portJob, ne_eq, hst, not_false_eq_true, if_true, if_false, hb, b2n, List.map_nil]

theorem pressIssue_accepted (v : State) (n : Nat) (d : List Byte) : pressIssue v n 0 d =
    match portTake (pressAsked v n d (pressHandles v n d)) (pressHandles v n d) with
    | none => .wait
    | some (t1, ok) =>
      if (pipeFor v).isNone then .wait
      else if !ok then .done (corePut t1 n { coreGet t1 n with press := leaseless (coreGet t1 n).press, pressN := (coreGet t1 n).pressN + 1 })
      else .done (pressEnter t1 {
        src := .port n (coreGet v n).commits, order := 0, group := 3, slice := (coreGet v n).slice, size := leAt d 12 4, ready := true }) := by
  rfl

theorem leaseless_append (js : List PortJob) (j : PortJob) :
    leaseless (js ++ [j]) = js ++ [{ j with keys := [], mats := [], done := some (statusWord 6 0 0) }] := by
  simp [leaseless]

theorem pipeFor_congr (h : w.press = v.press) : pipeFor w = pipeFor v := by
  have hj : ∀ p, pipeJobs w p = pipeJobs v p := fun p => by rw [pipeJobs, h, pipeJobs]
  simp only [pipeFor, hj]

theorem tblGet_put_same {α : Type} {d v : α} {k : Nat} {t : Tbl α} : tblGet d (tblPut k v t) k = v := by
  rw [tblGet, tblFind_put_same]
  rfl

theorem tblGet_put_other {α : Type} {d v : α} {k j : Nat} {t : Tbl α} (h : j ≠ k) : tblGet d (tblPut k v t) j = tblGet d t j := by
  rw [tblGet, tblFind_put_other v t h, tblGet]

/-- A job enters the pipeline that has room for it (R157). -/
theorem pressEnter_pipe {p : Nat} (h : pipeFor u = some p) (j : PressJob) :
    pipeJobs (pressEnter u j) p = pipeJobs u p ++ [{ j with order := u.press.order }] ∧
    ∀ q, q ≠ p → pipeJobs (pressEnter u j) q = pipeJobs u q := by
  rw [pressEnter, h]
  exact ⟨tblGet_put_same, fun q hq => tblGet_put_other hq⟩

theorem prsIssue_outside (hx : Executes s n .prsIssue i) (h : Operates s n i os vs v)
    (hreg : regionOk v n (firstEa os) 32 false = false) : Raises (.prsIssue n) s n 4 (some (firstEa os)) s := by
  obtain rfl := operates_none hx h rfl
  refine raises_of_run .prsIssue hx ?_
  simp only [gRun, runPrsIssue, withOpnds_operates h, hreg, Bool.not_false, if_true]

theorem prsIssue_full (hx : Executes s n .prsIssue i) (h : Operates s n i os vs v)
    (hreg : regionOk v n (firstEa os) 32 false = true) (hlen : 2 ≤ (coreGet v n).press.length) :
    Next (.prsIssue n) s (fun t => t = s) := by
  obtain rfl := operates_none hx h rfl
  refine waits_of_run .prsIssue hx ?_
  simp only [gRun, runPrsIssue, withOpnds_operates h, hreg, Bool.not_true, Bool.false_eq_true, if_false, if_pos hlen]

section
variable (hx : Executes s n .prsIssue i) {d : List Byte} (hrun : runPrsIssue s n i = pressIssue v n (pressPortCheck v n d) d)
include hx hrun

theorem prsIssue_refused {st : Nat} (hst : pressPortCheck v n d = st) (h0 : st ≠ 0) : Next (.prsIssue n) s (fun t =>
    (coreGet t n).press = (coreGet v n).press ++ [{ id := (coreGet v n).commits, desc := d, done := some (statusWord st 0 0) }] ∧
    (coreGet t n).commits = (coreGet v n).commits + 1 ∧ (coreGet t n).pressN = (coreGet v n).pressN + 1 ∧ t.press = v.press) := by
  rw [hst, pressIssue_refused h0] at hrun
  refine next_of_done .prsIssue hx hrun fun t ho hc hp _ hpn _ => ?_
  rw [touchFast_coreGet, coreGet_corePut_same] at hc hp hpn
  exact ⟨hp, hc, hpn, by rw [ho.1]; exact touchFast_only.press_eq rfl⟩

variable (h0 : pressPortCheck v n d = 0)
include h0

theorem prsIssue_waits (hw : pipeFor v = none ∨
    (portTake (pressAsked v n d (pressHandles v n d)) (pressHandles v n d)).map (·.2) = none) : Next (.prsIssue n) s (fun t => t = s) := by
  rw [h0, pressIssue_accepted] at hrun
  refine waits_of_run .prsIssue hx (hrun.trans ?_)
  rcases hw with hw | hw
  · rw [hw]
    rcases portTake (pressAsked v n d (pressHandles v n d)) (pressHandles v n d) with _ | ⟨t, ok⟩ <;> rfl
  · rw [Option.map_eq_none_iff.1 hw]

variable {p : Nat} (hp : pipeFor v = some p)
include hp

theorem prsIssue_leaseless
    (hk : (portTake (pressAsked v n d (pressHandles v n d)) (pressHandles v n d)).map (·.2) = some false) :
    Next (.prsIssue n) s (fun t =>
      (coreGet t n).press = (coreGet v n).press ++ [{ id := (coreGet v n).commits, desc := d, done := some (statusWord 6 0 0) }] ∧
      t.press = v.press) := by
  obtain ⟨⟨t1, ok⟩, ht, rfl⟩ := Option.map_eq_some_iff.1 hk
  rw [h0, pressIssue_accepted, ht, hp] at hrun
  refine next_of_done .prsIssue hx hrun fun t ho _ hpr _ _ _ => ?_
  rw [coreGet_corePut_same, portTake_coreGet ht, pressAsked, touchFast_coreGet, coreGet_corePut_same, leaseless_append] at hpr
  refine ⟨hpr, ?_⟩
  rw [ho.1]
  exact ((portTake_only ht).press_eq rfl).trans (touchFast_only.press_eq rfl)

theorem prsIssue_enters
    (hk : (portTake (pressAsked v n d (pressHandles v n d)) (pressHandles v n d)).map (·.2) = some true) :
    Next (.prsIssue n) s (fun t =>
      (coreGet t n).press = (coreGet v n).press ++
        [{ id := (coreGet v n).commits, desc := d, keys := pressHandles v n d, mats := (pressHandles v n d).map (keyBits v) }] ∧
      (coreGet t n).commits = (coreGet v n).commits + 1 ∧
      (∃ j, pipeJobs t p = pipeJobs v p ++ [j] ∧ j.src = .port n (coreGet v n).commits ∧ j.size = leAt d 12 4 ∧ j.ready = true) ∧
      ∀ q, q ≠ p → pipeJobs t q = pipeJobs v q) := by
  obtain ⟨⟨t1, ok⟩, ht, rfl⟩ := Option.map_eq_some_iff.1 hk
  rw [h0, pressIssue_accepted, ht, hp] at hrun
  have hpress : t1.press = v.press := ((portTake_only ht).press_eq rfl).trans (touchFast_only.press_eq rfl)
  have hjobs : ∀ q, pipeJobs t1 q = pipeJobs v q := fun q => by rw [pipeJobs, hpress, pipeJobs]
  refine next_of_done .prsIssue hx hrun fun t ho hc hpr _ _ _ => ?_
  rw [coreGet_congr (pressEnter_only.needle_eq rfl), portTake_coreGet ht, pressAsked, touchFast_coreGet, coreGet_corePut_same] at hc hpr
  obtain ⟨hsame, hother⟩ := pressEnter_pipe ((pipeFor_congr hpress).trans hp) { src := .port n (coreGet v n).commits, order := 0, group := 3
                                                                                slice := (coreGet v n).slice, size := leAt d 12 4, ready := true }
  have hpipes : ∀ q, pipeJobs t q = pipeJobs (pressEnter t1 _) q := fun q => by rw [ho.1]; rfl
  refine ⟨hpr, hc, ⟨_, (hpipes p).trans (hsame.trans (by rw [hjobs])), rfl, rfl, rfl⟩, fun q hq => ?_⟩
  rw [hpipes, hother q hq, hjobs]

end

/-! ### Jobs of the Mangle port (R384) -/

/-- The state in which a Mangle job with the keys `hs` stands at its port, before its keys' uses are reserved. -/
def mangleAsked (v : State) (n : Nat) (d : List Byte) (hs : List Nat) : State :=
  touchFast (corePut v n { coreGet v n with
    mangle := (coreGet v n).mangle ++ [{ id := (coreGet v n).commits, desc := d, keys := hs }] })

/-- A `MGL.ISSUE` whose regions are the core's own, at a free port. -/
theorem runMglIssue_allowed (h : Operates s n i os vs v) (hv : addressed s n i = v) {d : List Byte}
    (hd : d = memRead (coreGet v n).work ((workOff n (firstEa os)).getD 0) 32) (hreg : regionOk v n (firstEa os) 32 false = true)
    (hfree : (coreGet v n).mangle = []) (h1 : jobRegion v n (leAt d 16 4) (leAt d 20 4) false = true)
    (h2 : jobRegion v n (leAt d 24 4) (mangleOut v n d) false = true) :
    runMglIssue s n i = mangleIssue v n (manglePortCheck v n d) d := by
  subst hv hd
  have hlen : ¬ 1 ≤ (coreGet (addressed s n i) n).mangle.length := by rw [hfree]; decide
  simp only [runMglIssue, withOpnds_operates h, jobDesc, hreg, h1, h2, if_neg hlen, Bool.not_true, Bool.false_eq_true, if_false]

theorem mangleIssue_refused {st : Nat} (hst : st ≠ 0) (d : List Byte) : mangleIssue v n st d =
    .done (touchFast (corePut v n { coreGet v n with
      mangle := (coreGet v n).mangle ++ [{ id := (coreGet v n).commits, desc := d, done := some (statusWord st 0 0) }]
      mangleN := (coreGet v n).mangleN + 1 })) := by
  have hb : (st != 0) = true := by simpa using hst
  simp only [mangleIssue, portJob, ne_eq, hst, not_false_eq_true, if_true, if_false, hb, b2n]

/-- What a port does with an operation of one unit that it does not refuse. -/
theorem mangleIssue_accepted (v : State) (n : Nat) (d : List Byte) {x : Nat} (hx : portTimes v n d = [x]) : ∃ passes, mangleIssue v n 0 d =
    match portTake (mangleAsked v n d (mangleHandles v n d)) (mangleHandles v n d) with
    | none => .wait
    | some (t1, false) =>
      .done (corePut t1 n { coreGet t1 n with mangle := leaseless (coreGet t1 n).mangle, mangleN := (coreGet t1 n).mangleN + 1 })
    | some (t1, true) =>
      if mangleRoom v 1 then .done (portEnter t1 (portOp v n x (mangleHandles v n d) passes)) else .wait := by
  refine ⟨if 3 ≤ byteAt d 0 then 0 else hashPasses (descPk d) 0 (byteAt d 0 == 1), ?_⟩
  unfold mangleIssue
  rw [hx]
  show (match portTake (mangleAsked v n d (mangleHandles v n d)) (mangleHandles v n d), [x] with
    | none, _ => _
    | some (t1, false), _ => _
    | some (t1, true), [x, y] => _
    | some (t1, true), ts => _) = _
  rcases portTake (mangleAsked v n d (mangleHandles v n d)) (mangleHandles v n d) with _ | ⟨t1, _ | _⟩ <;> rfl

/-- A job whose lease neither chip took is done at once, whatever its operation. -/
theorem mangleIssue_leaseless {d : List Byte}
    (ht : portTake (mangleAsked v n d (mangleHandles v n d)) (mangleHandles v n d) = some (w, false)) : mangleIssue v n 0 d =
      .done (corePut w n { coreGet w n with mangle := leaseless (coreGet w n).mangle, mangleN := (coreGet w n).mangleN + 1 }) := by
  unfold mangleIssue
  show (match portTake (mangleAsked v n d (mangleHandles v n d)) (mangleHandles v n d), portTimes v n d with
    | none, _ => _
    | some (t1, false), _ => _
    | some (t1, true), [x, y] => _
    | some (t1, true), ts => _) = _
  rw [ht]

/-- An operation with the source, the time and the keys of `o` is in Mangle. -/
def Holds (u : State) (o : MangleOp) : Prop := ∃ p, p ∈ mangleAll u ∧ p.src = o.src ∧ p.time = o.time ∧ p.keys = o.keys

theorem unitEnter_holds (u : State) (k : Nat) (o : MangleOp) : Holds (unitEnter u k o) o := by
  unfold unitEnter
  have hm : o ∈ unitOps (unitPut u k (unitOps u k ++ [o])) k := by simp
  rcases unitStep_cases (unitPut u k (unitOps u k ++ [o])) k with he | ⟨j, b, he⟩
  · rw [he]
    exact ⟨o, mem_mangleAll_of_unit hm, rfl, rfl, rfl⟩
  · rw [he]
    refine ⟨markRunning j o, mem_mangleAll_of_unit (u := k) ?_, ?_⟩
    · rw [unitOps_bankPut, unitOps_unitPut_same]
      exact List.mem_map_of_mem hm
    · unfold markRunning
      split <;> exact ⟨rfl, rfl, rfl⟩

theorem waitAdd_holds (u : State) (o : MangleOp) : Holds (waitAdd u { op := o }) o :=
  ⟨o, List.mem_append_right _ (by simp [waitAdd, waitOps]), rfl, rfl, rfl⟩

/-- A port's operation enters a slot of a unit, or else the waiting queue (R179). -/
theorem portEnter_holds (u : State) (o : MangleOp) : Holds (portEnter u o) o := by
  have hsame : (portEnter u o).mangle = (mangleEnter u o).mangle := hashEnter_only.mangle_eq rfl
  have henter : Holds (mangleEnter u o) o := by
    unfold mangleEnter
    dsimp only
    split
    · split
      · exact unitEnter_holds _ _ { o with order := u.mangle.order }
      · exact waitAdd_holds _ { o with order := u.mangle.order }
    · exact waitAdd_holds _ { o with order := u.mangle.order }
  obtain ⟨p, hp, hrest⟩ := henter
  exact ⟨p, by rw [mangleAll, hsame]; exact hp, hrest⟩

theorem portEnter_needle (u : State) (o : MangleOp) : (portEnter u o).needle = u.needle :=
  (hashEnter_only.needle_eq rfl).trans (mangleEnter_only.needle_eq rfl)

theorem mglIssue_outside (hx : Executes s n .mglIssue i) (h : Operates s n i os vs v)
    (hreg : regionOk v n (firstEa os) 32 false = false) : Raises (.mglIssue n) s n 4 (some (firstEa os)) s := by
  obtain rfl := operates_none hx h rfl
  refine raises_of_run .mglIssue hx ?_
  simp only [gRun, runMglIssue, withOpnds_operates h, hreg, Bool.not_false, if_true]

theorem mglIssue_full (hx : Executes s n .mglIssue i) (h : Operates s n i os vs v)
    (hreg : regionOk v n (firstEa os) 32 false = true) (hne : (coreGet v n).mangle ≠ []) :
    Next (.mglIssue n) s (fun t => t = s) := by
  obtain rfl := operates_none hx h rfl
  have hlen : 1 ≤ (coreGet (addressed s n i) n).mangle.length := List.length_pos_of_ne_nil hne
  refine waits_of_run .mglIssue hx ?_
  simp only [gRun, runMglIssue, withOpnds_operates h, hreg, Bool.not_true, Bool.false_eq_true, if_false, if_pos hlen]

section
variable (hx : Executes s n .mglIssue i) {d : List Byte} (hrun : runMglIssue s n i = mangleIssue v n (manglePortCheck v n d) d)
include hx hrun

theorem mglIssue_refused (hfree : (coreGet v n).mangle = []) {st : Nat} (hst : manglePortCheck v n d = st) (h0 : st ≠ 0) :
    Next (.mglIssue n) s (fun t =>
      (coreGet t n).mangle = [{ id := (coreGet v n).commits, desc := d, done := some (statusWord st 0 0) }] ∧
      (coreGet t n).commits = (coreGet v n).commits + 1 ∧ (coreGet t n).mangleN = (coreGet v n).mangleN + 1 ∧ t.mangle = v.mangle) := by
  rw [hst, mangleIssue_refused h0, hfree] at hrun
  refine next_of_done .mglIssue hx hrun fun t ho hc _ hm _ hmn => ?_
  rw [touchFast_coreGet, coreGet_corePut_same] at hc hm hmn
  exact ⟨hm, hc, hmn, by rw [ho.1]; exact touchFast_only.mangle_eq rfl⟩

variable (h0 : manglePortCheck v n d = 0)
include h0

theorem mglIssue_leaseless (hfree : (coreGet v n).mangle = [])
    (hk : (portTake (mangleAsked v n d (mangleHandles v n d)) (mangleHandles v n d)).map (·.2) = some false) :
    Next (.mglIssue n) s (fun t =>
      (coreGet t n).mangle = [{ id := (coreGet v n).commits, desc := d, done := some (statusWord 6 0 0) }] ∧ t.mangle = v.mangle) := by
  obtain ⟨⟨t1, ok⟩, ht, rfl⟩ := Option.map_eq_some_iff.1 hk
  rw [h0, mangleIssue_leaseless ht] at hrun
  refine next_of_done .mglIssue hx hrun fun t ho _ _ hm _ _ => ?_
  rw [coreGet_corePut_same, portTake_coreGet ht, mangleAsked, touchFast_coreGet, coreGet_corePut_same, leaseless_append, hfree] at hm
  refine ⟨hm, ?_⟩
  rw [ho.1]
  exact ((portTake_only ht).mangle_eq rfl).trans (touchFast_only.mangle_eq rfl)

variable {x : Nat} (htime : portTimes v n d = [x])
include htime

theorem mglIssue_waits (hw : (mangleRoom v 1 = false ∧
      (portTake (mangleAsked v n d (mangleHandles v n d)) (mangleHandles v n d)).map (·.2) ≠ some false) ∨
    (portTake (mangleAsked v n d (mangleHandles v n d)) (mangleHandles v n d)).map (·.2) = none) : Next (.mglIssue n) s (fun t => t = s) := by
  obtain ⟨passes, hacc⟩ := mangleIssue_accepted v n d htime
  rw [h0, hacc] at hrun
  refine waits_of_run .mglIssue hx (hrun.trans ?_)
  rcases hw with ⟨hroom, hw⟩ | hw
  · rcases ht : portTake (mangleAsked v n d (mangleHandles v n d)) (mangleHandles v n d) with _ | ⟨t, _ | _⟩
    · rfl
    · rw [ht] at hw; exact absurd rfl hw
    · rw [hroom]; rfl
  · rw [Option.map_eq_none_iff.1 hw]

theorem mglIssue_enters (hfree : (coreGet v n).mangle = []) (hroom : mangleRoom v 1 = true)
    (hk : (portTake (mangleAsked v n d (mangleHandles v n d)) (mangleHandles v n d)).map (·.2) = some true) :
    Next (.mglIssue n) s (fun t =>
      (coreGet t n).mangle = [{ id := (coreGet v n).commits, desc := d, keys := mangleHandles v n d }] ∧
      (coreGet t n).commits = (coreGet v n).commits + 1 ∧
      ∃ o, o ∈ mangleAll t ∧ o.src = .port n (coreGet v n).commits ∧ o.time = x ∧ o.keys = mangleHandles v n d) := by
  obtain ⟨passes, hacc⟩ := mangleIssue_accepted v n d htime
  obtain ⟨⟨t1, ok⟩, ht, rfl⟩ := Option.map_eq_some_iff.1 hk
  rw [h0, hacc, ht, hroom] at hrun
  refine next_of_done .mglIssue hx hrun fun t ho hc _ hm _ _ => ?_
  rw [coreGet_congr (portEnter_needle _ _), portTake_coreGet ht, mangleAsked, touchFast_coreGet, coreGet_corePut_same] at hc hm
  obtain ⟨o, hmem, hrest⟩ := portEnter_holds t1 (portOp v n x (mangleHandles v n d) passes)
  refine ⟨hm.trans (by rw [hfree]; rfl), hc, o, ?_, hrest⟩
  rw [ho.1]
  exact hmem

end

end

/-- Settles O43: the status words by one lemma for the six rows that take them, and a lemma for each way an `ISSUE` ends. -/
theorem gulosPortInstructions : Obligations.GulosPortInstructions := by
  unfold Obligations.GulosPortInstructions
  intro n s i os vs v h
  refine ⟨fun hx => ?_, fun hx => ?_, fun hx hp => ?_, fun hx hp => ?_, fun hx hreg => ⟨prsIssue_full hx h hreg, fun hlen h1 h2 => ?_⟩,
    fun hx hreg => ⟨mglIssue_full hx h hreg, fun hfree h1 h2 => ?_⟩, fun hx => prsIssue_outside hx h, fun hx => mglIssue_outside hx h⟩
  · exact takeStatus_takes (poll := false) (jobs := (·.press)) (put := fun k js => { k with press := js }) .prsWait hx h rfl
      (operates_none hx h rfl) (fun _ _ => rfl) (fun _ _ => rfl) (fun _ => stepDone_self s n)
  · exact takeStatus_takes (poll := true) (jobs := (·.press)) (put := fun k js => { k with press := js }) .prsPoll hx h rfl
      (operates_none hx h rfl) (fun _ _ => rfl) (fun _ _ => rfl) (fun e => nomatch e)
  · exact takeStatus_takes (poll := false) (jobs := (·.mangle)) (put := fun k js => { k with mangle := js, collect := false }) .mglCollect hx h rfl
      (operates_none hx h rfl) (fun _ _ => rfl) (fun _ he => haltKept_done (he ▸ hp)) (fun _ => stepDone_collect s n)
  · exact takeStatus_takes (poll := true) (jobs := (·.mangle)) (put := fun k js => { k with mangle := js, collect := false }) .mglPoll hx h rfl
      (operates_none hx h rfl) (fun _ _ => rfl) (fun _ he => haltKept_done (he ▸ hp)) (fun e => nomatch e)
  · have hrun := runPrsIssue_allowed h (operates_none hx h rfl) rfl hreg hlen h1 h2
    exact ⟨fun st => prsIssue_refused hx hrun, fun p h0 hp => prsIssue_enters hx hrun h0 hp, fun p h0 hp => prsIssue_leaseless hx hrun h0 hp,
      prsIssue_waits hx hrun⟩
  · have hrun := runMglIssue_allowed h (operates_none hx h rfl) rfl hreg hfree h1 h2
    exact ⟨fun st => mglIssue_refused hx hrun hfree, fun x h0 ht => mglIssue_enters hx hrun h0 ht hfree,
      fun x h0 ht => mglIssue_waits hx hrun h0 ht, fun h0 => mglIssue_leaseless hx hrun h0 hfree⟩

end Sys2Proof.Machine
end

section
set_option Elab.async false

/-! SUPPORT. Service programs: their store, and the commands that load, start, stop and unload them (R387 to R389); and the settled
statement O44. -/

namespace Sys2Proof.Machine

section
variable {s t u : State} {tag n m : Nat} {c : Cmd} {io : HostIO} {bs : List Byte}

/-! ### The program store (R387) -/

theorem progPut_progs (s : State) (k : Nat) (x : Option Program) : (progPut s k x).needle.progs = match x with
    | some p => tblPut k p s.needle.progs
    | none => tblDel k s.needle.progs := by
  unfold progPut
  rw [jot_only.needle_eq rfl]
  rfl

theorem progGet_progPut_same (s : State) (k : Nat) (x : Option Program) : progGet (progPut s k x) k = x := by
  rw [progGet, progPut_progs]
  cases x
  · exact tblFind_del_same _ _
  · exact tblFind_put_same _ _ _

theorem progGet_progPut_other {k j : Nat} (x : Option Program) (h : j ≠ k) : progGet (progPut s k x) j = progGet s j := by
  rw [progGet, progPut_progs]
  cases x
  · exact tblFind_del_other _ h
  · exact tblFind_put_other _ _ h

theorem progGet_congr (h : t.needle = s.needle) (k : Nat) : progGet t k = progGet s k := by
  rw [progGet, h, progGet]

theorem endOk_needle (u : State) (tag len : Nat) (extra : BitVec 64) : (endOk u tag len extra).needle = u.needle := endOk_only.needle_eq rfl

theorem endAfter_needle (u : State) (tag status : Nat) (len : Nat) (extra : BitVec 64) : (endAfter u tag status len extra).needle = u.needle :=
  endAfter_only.needle_eq rfl

/-! ### `PROG.LOAD` -/

theorem verifyStatus_ok {r : Nat} : verifyStatus r = stOk ↔ r = 0 := by
  unfold verifyStatus
  by_cases h4 : 4 ≤ r
  · rw [if_pos h4]
    exact ⟨fun h => absurd h (by decide), fun h => by omega⟩
  · rw [if_neg h4]
    by_cases h0 : r = 0
    · simp [h0]
    · rw [if_pos h0]
      exact ⟨fun h => absurd h (by decide), fun h => absurd h h0⟩

/-- The row of a `PROG.LOAD` that reads its image: its checks, and then the write to the store begins. -/
theorem exec_progLoad (tag : Nat) (io : HostIO) (s : State) : exec (.progLoad tag io) s = runIn s tag 0x0E01 io (fun c b u =>
    if mangleHas u tag then mangleSet u tag
    else if progVerdict u c b ≠ stOk then endAfter u tag (progVerdict u c b)
    else if c.work.step ≠ 0 then u else setWork u tag { step := 1, bytes := b }) := by
  show execProgLoad tag io s = _
  unfold execProgLoad
  congr 1
  funext c b u
  refine if_congr Iff.rfl rfl ?_
  unfold progVerdict
  dsimp only
  split
  · rfl
  · split
    · rename_i hr
      rw [if_pos (mt verifyStatus_ok.1 hr)]
    · cases imgOk b (List.foldl (· + ·) 0 (progSigLens u c)) <;> rfl

theorem progVerdict_taken (h : InputTaken s u tag c) (b : List Byte) : progVerdict u { c with expect := none } b = progVerdict s c b :=
  h.congr (fun x => progVerdict x c b) fun _ _ _ => rfl

theorem mangleHas_taken (h : InputTaken s u tag c) (hm : mangleHas s tag = false) : mangleHas u tag = false :=
  (mangleHas_congr h.only.mangle_eq tag).trans hm

theorem progLoad_writes (hstep : c.work.step = 0) (hm : mangleHas s tag = false) (hv : progVerdict s c bs = stOk) :
    NextIn (.progLoad tag io) s tag 0x0E01 c io bs (fun t =>
      ∃ d, cmdAt t tag = some d ∧ d.stage = .started ∧ d.body = c.body ∧ d.work.step = 1 ∧ d.work.bytes = bs) := by
  refine fun hst hr => next_inputTaken hst hr (exec_progLoad tag io s) fun u hu => ?_
  obtain ⟨-, -, hstarted, -⟩ := hst
  obtain ⟨x, y, hat⟩ := hu.place
  rw [mangleHas_taken hu hm, progVerdict_taken hu, hv, setWork_eq hat, if_neg Bool.false_ne_true, if_neg (not_not.2 rfl), if_neg (not_not.2 hstep)]
  exact ⟨_, cmdAt_cmdPut_same, hstarted, rfl, rfl, rfl⟩

theorem progLoad_ends (hm : mangleHas s tag = false) (hv : progVerdict s c bs ≠ stOk) :
    NextIn (.progLoad tag io) s tag 0x0E01 c io bs (fun t => Ended s t tag c (progVerdict s c bs) ∧ t.needle = s.needle) := by
  refine fun hst hr => next_inputTaken hst hr (exec_progLoad tag io s) fun u hu => ?_
  obtain ⟨x, y, hat⟩ := hu.place
  rw [mangleHas_taken hu hm, progVerdict_taken hu, if_neg Bool.false_ne_true, if_pos hv]
  exact ⟨endAfter_ended hat rfl hu.now _ _ _, (endAfter_needle _ _ _ _ _).trans hu.only.needle_eq⟩

/-- The flash operation of an image that is written ends. -/
theorem next_programDone {ok0 ok1 : Bool} {P : State → Prop} (hw : Writing s tag 0x0E01 c) (hv : s.pwr.vault = false)
    (hp : P (progStored (chipsNote s ok0 ok1) tag c (ok0 && chipUp s.boot.chip0) (ok1 && chipUp s.boot.chip1))) :
    Next (.flashOperationDone .program ok0 ok1) s P := by
  obtain ⟨hf, -⟩ := hw
  refine ⟨_, ?_, hp⟩
  show execFlashOperationDone .program ok0 ok1 s = _
  simp only [execFlashOperationDone, hv, hf, Bool.false_eq_true, if_false]

theorem chipsNote_at {ok0 ok1 : Bool} (tag : Nat) : cmdAt (chipsNote s ok0 ok1) tag = cmdAt s tag := chipsNote_only.cmdAt rfl tag

theorem programDone_stored {ok0 ok1 : Bool} {k : Nat} (hw : Writing s tag 0x0E01 c) (hv : s.pwr.vault = false)
    (ht : flashTakes s ok0 ok1 = true) (hk : tblFree s.needle.progs 0 64 = some k) :
    Next (.flashOperationDone .program ok0 ok1) s (fun t => Ended s t tag c stOk 0 (BitVec.ofNat 64 k) ∧
      ∃ p, progGet t k = some p ∧ p.owner = cOwner s c ∧ p.digest = Config.sha384 c.work.bytes ∧
        (ok0 = true → chipUp s.boot.chip0 = true → p.img0 = c.work.bytes) ∧
        (ok1 = true → chipUp s.boot.chip1 = true → p.img1 = c.work.bytes) ∧ ∀ j, j ≠ k → progGet t j = progGet s j) := by
  refine next_programDone hw hv ?_
  obtain ⟨-, ⟨-, hc, -⟩, -⟩ := hw
  have hneedle : (chipsNote s ok0 ok1).needle = s.needle := chipsNote_only.needle_eq rfl
  have hown : cOwner (chipsNote s ok0 ok1) c = cOwner s c := by
    simp only [cOwner, sliceGet, (chipsNote_only (s := s) (ok0 := ok0) (ok1 := ok1)).slices_eq]
  have hsome : (!(ok0 && chipUp s.boot.chip0) && !(ok1 && chipUp s.boot.chip1)) = false := by
    rw [← Bool.not_or, Bool.not_eq_false', ← ht, flashTakes, Bool.and_comm ok0, Bool.and_comm ok1]
  unfold progStored
  dsimp only
  rw [hsome, hneedle, hk, if_neg Bool.false_ne_true]
  dsimp only
  refine ⟨endOk_ended ((progPut_only.cmdAt rfl tag).trans ((chipsNote_at tag).trans hc)) rfl ((progPut_only.now rfl).trans (chipsNote_only.now rfl)) _ _,
    _, (progGet_congr (endOk_needle _ _ _ _) k).trans (progGet_progPut_same _ _ _), hown, rfl, fun h0 h1 => ?_, fun h0 h1 => ?_, fun j hj => ?_⟩
  · simp [h0, h1]
  · simp [h0, h1]
  · rw [progGet_congr (endOk_needle _ _ _ _), progGet_progPut_other _ hj, progGet_congr hneedle]

theorem programDone_failed {ok0 ok1 : Bool} (hw : Writing s tag 0x0E01 c) (hv : s.pwr.vault = false) (ht : flashTakes s ok0 ok1 = false) :
    Next (.flashOperationDone .program ok0 ok1) s (fun t => Ended s t tag c stInternal ∧ t.needle = s.needle) := by
  refine next_programDone hw hv ?_
  obtain ⟨-, ⟨-, hc, -⟩, -⟩ := hw
  have hnone : (!(ok0 && chipUp s.boot.chip0) && !(ok1 && chipUp s.boot.chip1)) = true := by
    rw [← Bool.not_or, Bool.not_eq_true', ← ht, flashTakes, Bool.and_comm ok0, Bool.and_comm ok1]
  unfold progStored
  dsimp only
  rw [hnone, if_pos rfl]
  obtain ⟨d, hd, hrest⟩ := endAfter_ended (s := s) ((chipsNote_at (ok0 := ok0) (ok1 := ok1) tag).trans hc) rfl (chipsNote_only.now rfl) stInternal 0 0
  exact ⟨⟨d, (tallyPut_only.cmdAt rfl tag).trans hd, hrest⟩,
    (tallyPut_only.needle_eq rfl).trans ((endAfter_needle _ _ _ _ _).trans (chipsNote_only.needle_eq rfl))⟩

/-! ### `PROG.UNLOAD` -/

theorem progUnload_frees (h : Started s tag 0x0E04 c) : Next (.progUnload tag) s (fun t => Ended s t tag c stOk ∧
    progGet t (par c 52 2) = none ∧ ∀ j, j ≠ par c 52 2 → progGet t j = progGet s j) := by
  obtain ⟨-, hc, -⟩ := id h
  refine next_runCmd (f := fun c s => endOk (progPut s (par c 52 2) none) tag) h rfl ⟨?_, ?_, fun j hj => ?_⟩
  · exact endOk_ended ((progPut_only.cmdAt rfl tag).trans hc) rfl (progPut_only.now rfl) _ _
  · exact (progGet_congr (endOk_needle _ _ _ _) _).trans (progGet_progPut_same _ _ _)
  · exact (progGet_congr (endOk_needle _ _ _ _) j).trans (progGet_progPut_other _ hj)

/-! ### What stops a core's work (R389) -/

theorem dmaAbort_cmdAt (s : State) (c tag : Nat) : cmdAt (dmaAbort s c) tag = cmdAt s tag := by
  unfold dmaAbort
  dsimp only
  split <;> rfl

/-- The jobs of a port are taken to their end beside the cores. -/
theorem drained_needle {g : State → PortJob → State} (hg : ∀ u j, (g u j).needle = u.needle) (js : List PortJob) (s : State) :
    (js.foldl (fun s j => j.keys.foldl useTake (g s j)) s).needle = s.needle :=
  foldl_keeps (r := (·.needle)) (fun u j =>
    (foldl_keeps (r := (·.needle)) (fun _ _ => useTake_only.needle_eq rfl) j.keys (g u j)).trans (hg u j)) js s

theorem portsDrain_cores (s : State) (n : Nat) :
    (coreGet (portsDrain s n) n).mode = (coreGet s n).mode ∧ OtherCores s (portsDrain s n) n := by
  have hneedle (js ks : List PortJob) := (drained_needle (g := fun s j => mangleDrop s (fun x => x == .port n j.id))
    (fun u j => mangleDrop_only.needle_eq rfl) ks _).trans
      (drained_needle (g := fun s j => pressLeave s (.port n j.id)) (fun u j => pressLeave_only.needle_eq rfl) js s)
  unfold portsDrain
  dsimp only
  refine ⟨?_, fun m hm => (coreGet_corePut_other hm).trans (coreGet_congr (hneedle _ _) m)⟩
  rw [coreGet_corePut_same]
  show (coreGet _ n).mode = _
  rw [coreGet_congr (hneedle _ _)]

theorem coreCleanup_mode (s : State) (n : Nat) : (coreGet (coreCleanup s n) n).mode = (coreGet s n).mode := by
  have habort : ((coreChans s n).foldl dmaAbort (portsDrain s n)).needle = (portsDrain s n).needle :=
    foldl_keeps (fun u c => dmaAbort_only.needle_eq rfl) _ _
  rw [coreCleanup, coreGet_congr (hmpReleaseAll_only.needle_eq rfl), coreGet_congr habort, (portsDrain_cores s n).1]

theorem coreCleanup_cmdAt (s : State) (n tag : Nat) : cmdAt (coreCleanup s n) tag = cmdAt s tag := by
  have habort : cmdAt ((coreChans s n).foldl dmaAbort (portsDrain s n)) tag = cmdAt (portsDrain s n) tag :=
    foldl_keeps (r := fun u => cmdAt u tag) (fun u c => dmaAbort_cmdAt u c tag) _ _
  exact (hmpReleaseAll_only.cmdAt rfl tag).trans (habort.trans (portsDrain_only.cmdAt rfl tag))

theorem coreRelease_mode (s : State) (n : Nat) : (coreGet (coreRelease s n) n).mode = .free := by
  unfold coreRelease
  rw [coreGet_congr (coreNote_needle _ _), coreGet_corePut_same]

theorem coreRelease_cmdAt (s : State) (n tag : Nat) : cmdAt (coreRelease s n) tag = cmdAt s tag := by
  unfold coreRelease
  dsimp only
  rw [coreNote_only.cmdAt rfl, corePut_only.cmdAt rfl, hemWindow_only.cmdAt rfl]
  exact (foldl_keeps (r := fun u => cmdAt u tag) (fun u e => regPut_only.cmdAt rfl tag) _ _).trans
    ((foldl_keeps (r := fun u => cmdAt u tag) (fun u i => regPut_only.cmdAt rfl tag) _ _).trans
      (foldl_keeps (r := fun u => cmdAt u tag) (fun u c => (regSetBit_only.cmdAt rfl tag).trans (dmaAbort_cmdAt u c tag)) _ _))

/-- A core that has halted under a `PROG.STOP`: its work ends, it is released where asked, and the command ends with its state. -/
theorem stopEnd_ends {release : Bool} (hc : cmdAt u tag = some c) (hn : nowStamp u = nowStamp s) :
    (coreGet (stopEnd u n tag release) n).mode = (if release then .free else (coreGet u n).mode) ∧
    Ended s (stopEnd u n tag release) tag c stOk 0 (BitVec.ofNat 64 (if release then CoreMode.free else (coreGet u n).mode).code) := by
  unfold stopEnd
  dsimp only
  rw [coreGet_congr (endOk_needle _ _ _ _)]
  cases release
  · rw [if_neg Bool.false_ne_true, if_neg Bool.false_ne_true, coreCleanup_mode]
    exact ⟨rfl, endOk_ended ((coreCleanup_cmdAt u n tag).trans hc) rfl ((coreCleanup_only.now rfl).trans hn) _ _⟩
  · rw [if_pos rfl, if_pos rfl, coreRelease_mode]
    exact ⟨rfl, endOk_ended ((coreRelease_cmdAt _ n tag).trans ((coreCleanup_cmdAt u n tag).trans hc)) rfl
      ((coreRelease_only.now rfl).trans ((coreCleanup_only.now rfl).trans hn)) _ _⟩

/-! ### `PROG.STOP` -/

theorem coreHalt_now (h : (coreGet s n).stop = none) (reason : Nat) : coreHalt s n reason = coreStopped s n .halted reason := by
  simp only [coreHalt, h, stopCheck]

theorem coreStopped_cmdAt (s : State) (n : Nat) (x : CoreMode) (reason tag : Nat) : cmdAt (coreStopped s n x reason) tag = cmdAt s tag :=
  coreStopped_only.cmdAt rfl tag

theorem coreStopped_now (s : State) (n : Nat) (x : CoreMode) (reason : Nat) : nowStamp (coreStopped s n x reason) = nowStamp s :=
  coreStopped_only.now rfl

/-- The core that a stop that does not wait leaves to be cleaned up: one that runs halts, a FAULTED one is HALTED, another stands as it is. -/
theorem progStop_stopEnd (h : Started s tag 0x0E03 c) (hp : par c 52 1 = n) (hs : (coreGet s n).stop = none)
    (hw : par c 53 1 = 0 ∨ (coreGet s n).mode ≠ .running) (hcol : (coreGet s n).mode = .running → collecting s n = false) {P : State → Prop}
    (hP : ∀ u, cmdAt u tag = cmdAt s tag → nowStamp u = nowStamp s →
      ((coreGet s n).mode = .running ∨ (coreGet s n).mode = .faulted → (coreGet u n).mode = .halted) →
      (¬ ((coreGet s n).mode = .running ∨ (coreGet s n).mode = .faulted) → (coreGet u n).mode = (coreGet s n).mode) →
      P (stopEnd u n tag (par c 54 1 == 1))) : Next (.progStop tag) s P := by
  refine next_runCmd h (by rw [show exec (.progStop tag) s = execProgStop tag s from rfl, execProgStop]) ?_
  dsimp only
  rw [hp]
  by_cases hrun : (coreGet s n).mode = .running
  · have h0 : par c 53 1 = 0 := hw.resolve_right (not_not.2 hrun)
    rw [if_pos hrun, if_pos h0, hcol hrun, if_neg Bool.false_ne_true, coreHalt_now hs]
    refine hP _ (coreStopped_cmdAt _ _ _ _ _) (coreStopped_now _ _ _ _) (fun _ => by rw [coreGet_coreStopped]) fun hn => absurd (.inl hrun) hn
  · rw [if_neg hrun]
    by_cases hf : (coreGet s n).mode = .faulted
    · rw [if_pos hf]
      refine hP _ ((coreNote_only.cmdAt rfl _).trans (corePut_only.cmdAt rfl _)) ((coreNote_only.now rfl).trans (corePut_only.now rfl))
        (fun _ => by rw [coreGet_congr (coreNote_needle _ _), coreGet_corePut_same]) fun hn => absurd (.inr hf) hn
    · rw [if_neg hf]
      exact hP s rfl rfl (fun ho => absurd ho (not_or.2 ⟨hrun, hf⟩)) fun _ => rfl

theorem progStop_ends (h : Started s tag 0x0E03 c) (hp : par c 52 1 = n) (hs : (coreGet s n).stop = none)
    (hw : par c 53 1 = 0 ∨ (coreGet s n).mode ≠ .running) (hcol : (coreGet s n).mode = .running → collecting s n = false) :
    Next (.progStop tag) s (fun t =>
      if par c 54 1 = 1 then Ended s t tag c stOk 0 0 ∧ (coreGet t n).mode = .free
      else ∃ m : CoreMode, Ended s t tag c stOk 0 (BitVec.ofNat 64 m.code) ∧ (coreGet t n).mode = m ∧
        ((coreGet s n).mode = .running ∨ (coreGet s n).mode = .faulted → m = .halted) ∧
        (¬ ((coreGet s n).mode = .running ∨ (coreGet s n).mode = .faulted) → m = (coreGet s n).mode)) := by
  obtain ⟨-, hc, -⟩ := id h
  refine progStop_stopEnd h hp hs hw hcol fun u hu hn hstop hkeep => ?_
  obtain ⟨hmode, hend⟩ := stopEnd_ends (n := n) (release := par c 54 1 == 1) (hu.trans hc) hn
  by_cases hr : par c 54 1 = 1
  · rw [beq_iff_eq.2 hr] at hmode hend
    rw [if_pos hr, beq_iff_eq.2 hr]
    exact ⟨hend, hmode⟩
  · rw [beq_eq_false_iff_ne.2 hr] at hmode hend
    rw [if_neg hr, beq_eq_false_iff_ne.2 hr]
    exact ⟨_, hend, hmode, hstop, hkeep⟩

/-- A stop that waits raises source 20, and the core runs on (R389). -/
theorem progStop_waits (h : Started s tag 0x0E03 c) (hp : par c 52 1 = n) (hs : (coreGet s n).stop = none) (hw : par c 53 1 ≠ 0)
    (hrun : (coreGet s n).mode = .running) : Next (.progStop tag) s (fun t => OnlyCore s t n ∧ (coreGet t n).mode = .running ∧
      bitN (coreGet t n).pend 20 = true ∧
      (coreGet t n).stop = some { cmd := tag, until_ := s.time.clk + par c 56 4 * cycUs, release := par c 54 1 == 1 }) := by
  refine next_runCmd h (by rw [show exec (.progStop tag) s = execProgStop tag s from rfl, execProgStop]) ?_
  dsimp only
  rw [hp, if_pos hrun, if_neg hw, hs, if_neg (by decide)]
  refine ⟨onlyCore_corePut _ _ _, ?_⟩
  rw [coreGet_corePut_same]
  exact ⟨hrun, by simp [bitN_pendBit], rfl⟩

/-- A stop whose time has passed halts the core (R389). -/
theorem progStopTimeout_ends {w : StopWait} (hs : (coreGet s n).stop = some w) (hrun : (coreGet s n).mode = .running)
    (hcol : collecting s n = false) (hu : w.until_ ≤ s.time.clk) (hw : w.cmd = tag) (h : Started s tag 0x0E03 c) :
    Next (.progStopTimeout n) s (fun t => (coreGet t n).mode = (if w.release then CoreMode.free else CoreMode.halted) ∧
      Ended s t tag c stOk 0 (BitVec.ofNat 64 (if w.release then 0 else 3))) := by
  obtain ⟨-, hc, -⟩ := h
  refine ⟨stopEnd (coreStopped s n .halted 2) n w.cmd w.release, ?_, ?_⟩
  · show execProgStopTimeout n s = _
    have hcond : (coreGet s n).mode = .running ∧ w.until_ ≤ s.time.clk ∧ (!collecting s n) = true := ⟨hrun, hu, by rw [hcol]; rfl⟩
    rw [execProgStopTimeout, hs]
    dsimp only
    rw [if_pos hcond, coreHalt, hs, stopCheck]
  · obtain ⟨hmode, hend⟩ := stopEnd_ends (s := s) (n := n) (release := w.release) ((coreStopped_cmdAt s n .halted 2 tag).trans hc)
      (coreStopped_now s n .halted 2)
    rw [coreGet_coreStopped] at hmode hend
    have hcode : (if w.release then CoreMode.free else CoreMode.halted).code = if w.release then 0 else 3 := by cases w.release <;> rfl
    rw [hw, ← hcode]
    exact ⟨hmode, hend⟩

/-! ### `PROG.START` (R388) -/

/-- A core that is reserved for an owner. -/
theorem progStart_reserves (h : Started s tag 0x0E02 c) (hn : progCore s c = some n) (hres : par c 55 1 = 1) :
    Next (.progStart tag) s (fun t => Ended s t tag c stOk 0 (BitVec.ofNat 64 n) ∧ OtherCores s t n ∧ (coreGet t n).mode = .reserved ∧
      (coreGet t n).owner = cOwner s c ∧ (coreGet t n).changed = nowStamp s) := by
  obtain ⟨-, hc, -⟩ := id h
  refine next_runCmd h (by rw [show exec (.progStart tag) s = execProgStart tag s from rfl, execProgStart]) ?_
  dsimp only
  rw [hn]
  dsimp only
  rw [if_pos hres]
  have hneedle (x : Option Nat) : (hemWindow s n x).needle = s.needle := hemWindow_only.needle_eq rfl
  refine ⟨endOk_ended ((coreNote_only.cmdAt rfl tag).trans ((corePut_only.cmdAt rfl tag).trans ((hemWindow_only.cmdAt rfl tag).trans hc))) rfl
      ((coreNote_only.now rfl).trans ((corePut_only.now rfl).trans (hemWindow_only.now rfl))) _ _, fun m hm => ?_, ?_⟩
  · rw [coreGet_congr (endOk_needle _ _ _ _), coreGet_congr (coreNote_needle _ _), coreGet_corePut_other hm, coreGet_congr (hneedle _)]
  · rw [coreGet_congr (endOk_needle _ _ _ _), coreGet_congr (coreNote_needle _ _), coreGet_corePut_same]
    exact ⟨rfl, rfl, rfl⟩

/-- The core of a program that begins (R362, R388). -/
theorem coreBegin_core (s : State) (n owner slice prog : Nat) (keys : List Nat) (args b : List Byte) :
    coreGet (coreBegin s n owner slice prog keys args b) n = {
      mode := .running, owner := owner, slice := slice, program := prog, keys := keys, args := args
      pc := 0x30000000 + imgEntry b, a := setAt (List.replicate 16 0) 15 0x00300BFFE0, startAt := s.time.clk
      changed := nowStamp s, instr := memWrite [] 0 (bytesAt b (64 + 4 * imgKeys b) (imgCode b))
      work := memWrite (memWrite [] 0 (bytesAt b (64 + 4 * imgKeys b + imgCode b) (imgData b))) 0x3FFE0 (bytesAt args 0 32) } := by
  rw [coreBegin, coreGet_congr (coreNote_needle _ _), coreGet_corePut_same]

theorem coreBegin_others (s : State) (n owner slice prog : Nat) (keys : List Nat) (args b : List Byte) :
    OtherCores s (coreBegin s n owner slice prog keys args b) n := fun m hm => by
  rw [coreBegin, coreGet_congr (coreNote_needle _ _), coreGet_corePut_other hm, coreGet_congr (aruLoad_only.needle_eq rfl),
    coreGet_congr (hemWindow_only.needle_eq rfl), (portsDrain_cores s n).2 m hm]

theorem memRead_written {w : ByteMem} {a k : Nat} {l : List Byte} (hl : l.length = k) : memRead (memWrite w a l) a k = l := hl ▸ memRead_write

/-- A program that is started on a core (R388). -/
theorem progStart_starts {p : Program} {b : List Byte} (h : Started s tag 0x0E02 c) (hn : progCore s c = some n) (hres : par c 55 1 ≠ 1)
    (hp : progGet s (par c 52 2) = some p) (hb : progCopy s p = some b) : Next (.progStart tag) s (fun t =>
      Ended s t tag c stOk 0 (BitVec.ofNat 64 n) ∧ OtherCores s t n ∧
      (let k := coreGet t n
       k.mode = .running ∧ k.owner = cOwner s c ∧ k.program = par c 52 2 ∧ k.keys = progHandles c (imgKeys b) ∧
       StandsAt t n (0x30000000 + imgEntry b) 0 none ∧ rA k 15 = 0x00300BFFE0 ∧ k.preds = 1 ∧ k.flags = 0 ∧ k.cnt = 0 ∧
       k.ivec = 0 ∧ k.imask = 0 ∧ k.commits = 0 ∧ k.startAt = s.time.clk ∧ k.press = [] ∧ k.mangle = [] ∧
       memRead k.instr 0 (imgCode b) = bytesAt b (64 + 4 * imgKeys b) (imgCode b) ∧
       memRead k.work 0x3FFE0 32 = bytesAt (bytesAt ((heldInput c).drop (4 * imgKeys b)) 0 32) 0 32)) := by
  obtain ⟨-, hc, -⟩ := id h
  refine next_runCmd h (by rw [show exec (.progStart tag) s = execProgStart tag s from rfl, execProgStart]) ?_
  dsimp only
  rw [hn]
  dsimp only
  rw [if_neg hres, hp]
  dsimp only
  rw [hb]
  dsimp only
  refine ⟨endOk_ended ((coreBegin_only.cmdAt rfl tag).trans hc) rfl (coreBegin_only.now rfl) _ _, fun m hm => ?_, ?_⟩
  · rw [coreGet_congr (endOk_needle _ _ _ _), coreBegin_others _ _ _ _ _ _ _ _ m hm]
  · rw [StandsAt, coreGet_congr (endOk_needle _ _ _ _), coreBegin_core]
    exact ⟨rfl, rfl, rfl, rfl, ⟨rfl, rfl, rfl⟩, rfl, rfl, rfl, rfl, rfl, rfl, rfl, rfl, rfl, rfl, memRead_written (bytesAt_length _ _ _),
      memRead_written (bytesAt_length _ _ _)⟩

end

/-- Settles O44: a lemma for each way a program command and a flash operation end. -/
theorem programCommandsTakeEffect : Obligations.ProgramCommandsTakeEffect := by
  unfold Obligations.ProgramCommandsTakeEffect
  intro tag n io s c
  exact ⟨mangleFirst_of (exec_progLoad tag io s) fun d bs u hm => if_pos hm,
    fun bs hstep hm => ⟨progLoad_writes hstep hm, progLoad_ends hm⟩, fun ok0 ok1 k => programDone_stored, fun ok0 ok1 => programDone_failed,
    progStart_reserves, fun p b => progStart_starts, progStop_ends, progStop_waits, fun w => progStopTimeout_ends, progUnload_frees⟩

end Sys2Proof.Machine
end


section
set_option Elab.async false

/-! SUPPORT. Thimble's restarts, its failure and its recovery, and the settled statement O22 (R397, R400 to R405; log entry 49). -/

namespace Sys2Proof.Machine

open Host Sys2Proof

/-! ### The key objects stand -/

theorem pendPut_objs (s : State) (n : Nat) (x : Option PendEntry) : (pendPut s n x).keys.objs = s.keys.objs := by
  unfold pendPut
  rw [jot_only.keys_eq]

theorem endBefore_objs (s : State) (tag status len : Nat) : (endBefore s tag status len).keys.objs = s.keys.objs := by
  have hq : (queueDrop s tag).keys = s.keys := queueDrop_only.keys_eq
  unfold endBefore endCmd
  simp only [if_true]
  generalize queueDrop s tag = u at hq ⊢
  rw [← hq]
  split
  · rfl
  · next c hc =>
    have hp : (match c.approval with
        | none => u
        | some n => match tblFind n u.keys.pend with
          | none => u
          | some e => pendPut u n (some { e with reserved := none })).keys.objs = u.keys.objs := by
      split
      · rfl
      · split
        · rfl
        · exact pendPut_objs _ _ _
    split
    · exact (congrArg KeyState.objs tallyPut_only.keys_eq).trans hp
    · exact hp

theorem thmGiveUp_objs (s : State) (cmd : Option Nat) : (thmGiveUp s cmd).keys.objs = s.keys.objs := by
  unfold thmGiveUp
  split
  · rfl
  · split
    · rfl
    · split
      · rfl
      · exact endBefore_objs _ _ _ _

/-- An epoch change that fails touches no key (R280). -/
theorem rekeyFail_keys (s : State) (id : Nat) : (rekeyFail s id).keys = s.keys := by
  have hend (u : State) (cmd : Option Nat) : (rekeyEnd u cmd 0x0807 0).keys = u.keys := by
    unfold rekeyEnd
    split
    · rfl
    · exact (endAfter_parts _ _ _ _ _).keys_eq
  unfold rekeyFail
  split
  · rfl
  · split
    · rfl
    · exact (hend _ _).trans (lnkEvent_only.keys_eq.trans (cardPut_only.keys_eq.trans adjacentClear_only.keys_eq))

/-- A member that stops serving drops commands and enrolments, and no key object (R327). -/
theorem seamDiscard_objs (s : State) : (seamDiscard s).keys.objs = s.keys.objs := by
  have hdrop (u : State) (t : Nat) : (cmdDel (mangleLeave (pressDrop u (fun j => j.ofCmd t)) t) t).keys = u.keys :=
    cmdDel_only.keys_eq.trans (mangleLeave_only.keys_eq.trans pressDrop_only.keys_eq)
  have henrols : (enrolsDrop s).keys.objs = s.keys.objs := foldl_keeps (g := enrolDrop) (r := fun u => u.keys.objs) (fun _ _ => rfl) _ s
  unfold seamDiscard
  refine (foldl_keeps (r := fun u => u.keys.objs) (fun u t => ?_) _ _).trans henrols
  refine congrArg KeyState.objs ((hdrop _ t).trans ?_)
  split
  · exact stageDrop_only.keys_eq
  · rfl

theorem seamFence_objs (s : State) (cause : Nat) : (seamFence s cause).keys.objs = s.keys.objs := by
  have hnote (u : State) (m : Nat) : (seamEvent (regPut (regAdd u aSeamFenceCnt 1) aSeamCause (BitVec.ofNat 32 cause)) 3 m).keys = u.keys :=
    seamEvent_only.keys_eq
  unfold seamFence
  dsimp only
  split
  · rfl
  · split
    · exact (congrArg KeyState.objs (hnote _ _)).trans (seamDiscard_objs _)
    · exact (congrArg KeyState.objs (seamAsk_only.keys_eq.trans (hnote _ _))).trans (seamDiscard_objs _)

/-- A member that hands over, or is fenced, keeps its key objects (R327, R328, R405). -/
theorem seamYield_objs (s : State) (cause : Nat) : (seamYield s cause).keys.objs = s.keys.objs := by
  have hstep (u : State) : (switchStep u).keys.objs = u.keys.objs := by
    unfold switchStep
    dsimp only
    split
    · rfl
    · have hjot (b : JBody) : (jot u 0xFFFF true b).keys.objs = u.keys.objs := congrArg KeyState.objs jot_only.keys_eq
      split
      · rfl
      · split
        · exact (seamFence_objs _ _).trans (hjot _)
        · split
          · exact (seamFence_objs _ _).trans (hjot _)
          · exact hjot _
  unfold seamYield
  split
  · split
    · unfold handOver
      split
      · rfl
      · exact hstep _
    · rfl
  · exact seamFence_objs s cause
  · rfl

/-! ### What the parts of a restart leave of Thimble -/

theorem thmPost_thm (s : State) (r : ThmReq) : ∃ rs n, (thmPost s r).thm = { s.thm with reqs := rs, nextTag := n } := by
  unfold thmPost
  split
  · exact ⟨_, _, rfl⟩
  · exact ⟨_, _, rfl⟩

theorem thmLost_thm (s : State) : (thmLost s).thm = { s.thm with lost := [] } :=
  foldl_keeps (r := State.thm) (fun _ _ => thmGiveUp_only.thm_eq) _ _

theorem cardsFail_only (l : List Nat) (s : State) : Only 683089 s (l.foldl rekeyFail s) := .foldl (fun _ _ => rekeyFail_only) .refl

theorem yieldIf_only (p : Prop) [Decidable p] (s : State) (cause : Nat) : Only 978001 s (if p then seamYield s cause else s) :=
  .ite (fun _ => seamYield_only) fun _ => .refl

/-! ### A restart (R402) -/

/-- A restart begins: the mailbox holds no request, and the objects stand. -/
theorem thmRestart_begun {s : State} (hf : s.thm.mode ≠ .failed) (hb : s.thm.mode ≠ .boot) :
    (thmRestart s).thm.mode = .restarting ∧ (thmRestart s).thm.restartAt = s.time.clk ∧ (thmRestart s).thm.reqs = [] ∧
    (thmRestart s).keys.objs = s.keys.objs := by
  unfold thmRestart
  rw [if_neg (not_or.mpr ⟨hf, hb⟩)]
  dsimp only
  rw [(yieldIf_only _ _ _).thm_eq, (cardsFail_only _ _).thm_eq]
  refine ⟨rfl, rfl, rfl, ?_⟩
  have hcards (l : List Nat) (u : State) : (l.foldl rekeyFail u).keys.objs = u.keys.objs :=
    foldl_keeps (r := fun u => u.keys.objs) (fun u n => congrArg KeyState.objs (rekeyFail_keys u n)) l u
  split
  · exact (seamYield_objs _ _).trans (hcards _ _)
  · exact hcards _ _

theorem thmRestart_idle {s : State} (h : s.thm.mode = .failed ∨ s.thm.mode = .boot) : thmRestart s = s := if_pos h

/-! ### Failure (R404) -/

theorem faultPin_thmFailed (s : State) : (faultPin s).dev.thmFailed = s.dev.thmFailed := by
  unfold faultPin
  dsimp only
  split
  · rfl
  · rfl

/-- Thimble has failed: it holds no request and no answer, and `DEV_FAULT` says so. -/
theorem thmFail_failed (s : State) : (thmFail s).thm.mode = .failed ∧ (thmFail s).thm.reqs = [] ∧ (thmFail s).thm.answers = [] ∧
    (thmFail s).dev.thmFailed = true := by
  have hgive (l : List (Option Nat)) (u : State) : Only 552017 u (l.foldl thmGiveUp u) := .foldl (fun _ _ => thmGiveUp_only) .refl
  unfold thmFail
  dsimp only
  rw [(yieldIf_only _ _ _).thm_eq, (yieldIf_only _ _ _).dev_eq, (cardsFail_only _ _).thm_eq, (cardsFail_only _ _).dev_eq, thmLost_thm,
    thmLost_only.dev_eq, (hgive _ _).thm_eq, (hgive _ _).dev_eq]
  dsimp only
  rw [scorchLog_only.thm_eq, scorchLog_only.dev_eq, tallyPut_only.thm_eq, tallyPut_only.dev_eq, faultPin_only.thm_eq, faultPin_thmFailed]
  exact ⟨rfl, rfl, rfl, rfl⟩

/-! ### Hangs (R400, R404) -/

/-- The hangs of the last 10 minutes (R404). -/
def hangsLately (s : State) : List Nat := s.thm.hangs.filter (fun x => decide (s.time.clk < x + 600 * cycS))

/-- A hang is declared: it counts, and is recorded. -/
def hangNoted (s : State) : State :=
  tallyPut { s with thm := { s.thm with hangs := hangsLately s ++ [s.time.clk] } } agCp 0x0483 []

theorem thmHang_eq (s : State) : thmHang s = if 3 ≤ (hangsLately s ++ [s.time.clk]).length then thmFail (hangNoted s)
    else if s.thm.mode = .ready then seamYield (thmRestart (thmEvent (thmMode (hangNoted s) .down) 1)) 9
    else thmRestart (thmEvent (thmMode (hangNoted s) .down) 1) := rfl

/-- A hang that is not the third in 10 minutes restarts Thimble. -/
theorem thmHang_restarts {s : State} (h : (hangsLately s).length < 2) :
    (thmHang s).thm.mode = .restarting ∧ (thmHang s).thm.restartAt = s.time.clk ∧ (thmHang s).thm.reqs = [] := by
  have hfew : ¬ 3 ≤ (hangsLately s ++ [s.time.clk]).length := by simp only [List.length_append, List.length_singleton]; omega
  have hdown : (thmEvent (thmMode (hangNoted s) .down) 1).thm.mode = .down := congrArg ThmState.mode thmEvent_only.thm_eq
  obtain ⟨hmode, hat, hreqs, -⟩ := thmRestart_begun (s := thmEvent (thmMode (hangNoted s) .down) 1) (by simp [hdown]) (by simp [hdown])
  rw [thmHang_eq, if_neg hfew, (yieldIf_only _ _ _).thm_eq]
  exact ⟨hmode, hat.trans (congrArg TimeState.clk tallyPut_only.time_eq), hreqs⟩

theorem thmHang_fails {s : State} (h : 2 ≤ (hangsLately s).length) : (thmHang s).thm.mode = .failed ∧ (thmHang s).thm.reqs = [] := by
  have hthird : 3 ≤ (hangsLately s ++ [s.time.clk]).length := by simp only [List.length_append, List.length_singleton]; omega
  obtain ⟨hmode, hreqs, -⟩ := thmFail_failed (hangNoted s)
  rw [thmHang_eq, if_pos hthird]
  exact ⟨hmode, hreqs⟩

/-! ### Recovery (R403, log entry 49) -/

/-- The row of an operation that Thimble serves. -/
theorem next_thmServe {i : Instr} {s : State} {op : Nat} {r : ThmReq} {f : ThmReq → State → State} {P : State → Prop} (h : Serves s op r)
    (hx : exec i s = thmServe s op f) (hp : P (f r s)) : Next i s P := by
  obtain ⟨hnext, hop, hroom⟩ := h
  refine next_of (hx.trans ?_) hp
  unfold thmServe
  rw [hnext]
  exact if_pos ⟨hop, hroom⟩

theorem Serves.ready {s : State} {op : Nat} {r : ThmReq} (h : Serves s op r) : s.thm.mode = .ready := by
  obtain ⟨hnext, -⟩ := h
  by_contra hm
  have hnone : thmNext s = none := if_pos (by simp [thmUp, hm])
  simp [hnone] at hnext

theorem exec_thmRecover (s : State) : exec .thmRecover s = thmServe s 0x11 (fun r s =>
    if (thmLost (thmAnswer s r stOk)).lc.trans.isSome then thmPost (thmLost (thmAnswer s r stOk)) { op := 0x12, tag := 0, nums := [1] }
    else thmLost (thmAnswer s r stOk)) := rfl

section
variable {s : State} {r : ThmReq}

/-- What `RECOVER` leaves, with a transition that goes on or without. -/
theorem next_thmRecover {P : State → Prop} (h : Serves s 0x11 r) (hp : ∀ t, t.keys = (thmLost (thmAnswer s r stOk)).keys →
    t.tortin = (thmLost (thmAnswer s r stOk)).tortin → t.thm.lost = [] → t.thm.mode = s.thm.mode → P t) : Next .thmRecover s P := by
  have hthm := thmLost_thm (thmAnswer s r stOk)
  obtain ⟨rs, n, hpost⟩ := thmPost_thm (thmLost (thmAnswer s r stOk)) { op := 0x12, tag := 0, nums := [1] }
  rw [hthm] at hpost
  refine next_thmServe h (exec_thmRecover s) ?_
  split
  · exact hp _ thmPost_only.keys_eq thmPost_only.tortin_eq (congrArg ThmState.lost hpost) (congrArg ThmState.mode hpost :)
  · exact hp _ rfl rfl (congrArg ThmState.lost hthm) (congrArg ThmState.mode hthm :)

/-- Nothing that Thimble had taken waits any longer. -/
theorem thmRecover_clears (h : Serves s 0x11 r) :
    Next .thmRecover s (fun t => t.thm.lost = [] ∧ t.thm.mode = .ready ∧ t.keys.objs = s.keys.objs) := by
  refine next_thmRecover h fun t hkeys _ hlost hmode => ⟨hlost, hmode.trans h.ready, (congrArg KeyState.objs hkeys).trans ?_⟩
  exact foldl_keeps (r := fun u => u.keys.objs) (fun u x => thmGiveUp_objs u x) _ _

/-- The command whose request Thimble had taken ends without effect. -/
theorem thmRecover_ends {q : ThmReq} {tag : Nat} {c : Cmd} (h : Serves s 0x11 r) (hl : s.thm.lost = [(q, false)]) (hq : q.cmd = some tag)
    (hst : Started s tag (cOp c) c) : Next .thmRecover s (fun t => EndedBefore t tag stSecDown) := by
  obtain ⟨-, hc, hstarted, -⟩ := hst
  refine next_thmRecover h fun t _ htortin _ _ => ?_
  have hat : cmdAt t tag = cmdAt (thmLost (thmAnswer s r stOk)) tag := by unfold cmdAt; rw [htortin]
  have hgive (u : State) (hu : cmdAt u tag = some c) : thmGiveUp u (some tag) = endBefore u tag stSecDown := by
    unfold thmGiveUp
    dsimp only
    rw [hu]
    exact if_neg (by rw [hstarted]; exact nofun)
  have hlost : thmLost (thmAnswer s r stOk) =
      endBefore { thmAnswer s r stOk with thm := { (thmAnswer s r stOk).thm with lost := [] } } tag stSecDown := by
    have hone : (thmAnswer s r stOk).thm.lost = [(q, false)] := hl
    unfold thmLost
    dsimp only
    rw [hone, List.map_singleton, List.foldl_cons, List.foldl_nil, hq]
    exact hgive _ hc
  unfold EndedBefore
  rw [hat, hlost]
  exact endBefore_ended (c := c) (by exact hc) _ _

end

/-! ### The response ring's head (R397) -/

theorem fieldOf_ofNat_of_lt {n : Nat} (h : n < 32) : fieldOf (BitVec.ofNat 32 n) 4 0 = n := by
  unfold fieldOf bitsN
  rw [BitVec.toNat_ofNat]
  omega

theorem ignWrite_reg {s : State} {a : Nat} (hc : a ≠ aDevIgnWr) (he : a ≠ aDevEvt) : regGet (ignWrite s) a = regGet s a :=
  (regGet_sqcSet_other he).trans (regGet_regPut_other hc)

section
variable {s : State} {v : Word}

theorem next_thmRspHead_moves (h : (fieldOf v 4 0 + 32 - regField s (aThm 0x18) 4 0) % 32 ≤
    (regField s (aThm 0x14) 4 0 + 32 - regField s (aThm 0x18) 4 0) % 32) :
    Next (.thmRspHeadWrite v) s (fun t => regField t (aThm 0x18) 4 0 = fieldOf v 4 0 ∧ t.thm = s.thm) := by
  refine next_of (congrArg Host.Outcome.next (if_pos h)) ⟨?_, rfl⟩
  unfold regField
  rw [regGet_regPut_same]
  exact fieldOf_ofNat_of_lt (Nat.mod_lt _ (by decide))

theorem next_thmRspHead_refused (h : (regField s (aThm 0x14) 4 0 + 32 - regField s (aThm 0x18) 4 0) % 32 <
    (fieldOf v 4 0 + 32 - regField s (aThm 0x18) 4 0) % 32) :
    Next (.thmRspHeadWrite v) s (fun t => regField t (aThm 0x18) 4 0 = regField s (aThm 0x18) 4 0) := by
  refine next_of (congrArg Host.Outcome.next (if_neg (Nat.not_le.mpr h))) ?_
  unfold regField
  rw [ignWrite_reg (by decide) (by decide)]

end

/-! ### The rows, and the settled statement -/

section
variable {s : State}

/-- Thimble is READY again: the caches follow the objects, and it is counted (R402). -/
def readyAgain (s : State) : State :=
  let s1 := cachesReconcile s
  thmEvent (sqcSet { s1 with thm := { s1.thm with mode := .ready, restarts := (s1.thm.restarts + 1) % 256 } } aDevEvt 7) 2

/-- The row of a restart that reaches its end within 200 ms. -/
theorem next_thimbleReady {ok : Bool} {P : State → Prop} (hm : s.thm.mode = .restarting) (hr : procRuns s = true)
    (ht : s.time.clk ≤ s.thm.restartAt + 200 * cycMs) (hp : P (if !ok then thmFail s else thmPost (readyAgain s) { op := 0x11, tag := 0 })) :
    Next (.thimbleReady ok) s P :=
  next_of (congrArg Host.Outcome.next (if_neg (by simp [hm, hr, ht]))) hp

theorem thimbleReady_serves (hm : s.thm.mode = .restarting) (hr : procRuns s = true) (ht : s.time.clk ≤ s.thm.restartAt + 200 * cycMs) :
    Next (.thimbleReady true) s (fun t =>
      t.thm.mode = .ready ∧ t.thm.restarts = (s.thm.restarts + 1) % 256 ∧ t.keys.objs = s.keys.objs) := by
  obtain ⟨rs, n, hthm⟩ := thmPost_thm (readyAgain s) { op := 0x11, tag := 0 }
  have hobjs : (readyAgain s).keys.objs = s.keys.objs := rfl
  refine next_thimbleReady hm hr ht ?_
  rw [if_neg (by decide), hthm, thmPost_only.keys_eq]
  exact ⟨rfl, rfl, hobjs⟩

theorem next_thimbleHang {P : State → Prop} (hm : s.thm.mode = .ready) (ht : s.tortin.ready = true) (hr : procRuns s = true)
    (hp : P (thmHang s)) : Next (.thimbleHang true) s P :=
  next_of (congrArg Host.Outcome.next (if_pos ⟨hm, ht, hr, rfl⟩)) hp

end

/-- Settles O22: each row by the case of Thimble's state and of the hangs that it has had, `RECOVER` by the end of what had been taken. -/
theorem thimbleRestartsAndRecovers : Obligations.ThimbleRestartsAndRecovers := by
  intro s
  refine ⟨?restart, ?idle, thimbleReady_serves, ?image, ?hang, ?third, ?inTime, ?timeout, fun r => thmRecover_clears,
    fun r q tag c h hl hq hst => thmRecover_ends h hl hq hst, fun v => next_thmRspHead_moves, fun v => next_thmRspHead_refused⟩
  case restart => exact fun hf hb hr => next_of (congrArg Host.Outcome.next (if_pos hr)) (thmRestart_begun hf hb)
  case idle =>
    refine fun h => next_of rfl ?_
    split
    · next hr => exact thmRestart_idle (by simpa [hr] using h)
    · rfl
  case image => exact fun hm hr ht => next_thimbleReady hm hr ht (thmFail_failed s)
  case hang =>
    intro hm ht hr h
    obtain ⟨hmode, hat, hreqs⟩ := thmHang_restarts h
    exact next_thimbleHang hm ht hr ⟨hmode, hreqs, hat⟩
  case third => exact fun hm ht hr h => next_thimbleHang hm ht hr (thmHang_fails h)
  case inTime => exact fun h => next_of (congrArg Host.Outcome.next (if_neg (by simp [h]))) rfl
  case timeout =>
    intro hm hr ht h
    obtain ⟨hmode, hat, -⟩ := thmHang_restarts h
    exact next_of (congrArg Host.Outcome.next (if_pos ⟨hm, hr, ht⟩)) ⟨hmode, hat⟩

end Sys2Proof.Machine
end

section
set_option Elab.async false

/-! SUPPORT. Thimble's answers: the response that an answer becomes, what each started command makes of it, and the settled statement O21
(R121, R397, R398). -/

namespace Sys2Proof.Machine

open Host Sys2Proof

/-! ### The oldest answer becomes a response (R397) -/

/-- The oldest answer has become a response, and `more` are the answers that follow it. -/
def responded (s : State) (r : ThmRsp) (more : List ThmRsp) : State := rspWrite { s with thm := { s.thm with answers := more } } r

theorem responded_only {s : State} {r : ThmRsp} {more : List ThmRsp} : Only 4194322 s (responded s r more) :=
  rspWrite_keep rfl (Only.upd rfl .refl)

theorem responded_thm (s : State) (r : ThmRsp) (more : List ThmRsp) : (responded s r more).thm = { s.thm with answers := more } :=
  rspWrite_only.thm_eq

/-- A response entry lies in the mailbox SRAM, which no other block's registers share. -/
theorem rspWrite_low (s : State) (r : ThmRsp) : LowRegs s (rspWrite s r) := by
  have hentry (l : List Nat) (u : State) (t : Nat) (bs : List Byte) : LowRegs u (l.foldl (fun s i =>
      regPut s (aThm (0x2000 + 64 * t + 4 * i)) (BitVec.ofNat 32 (leAt bs (4 * i) 4))) u) :=
    .foldl fun _ _ _ => .put (by unfold aThm; omega)
  unfold rspWrite
  dsimp only
  refine LowRegs.trans ?_ (sqcSet_low (by decide))
  refine LowRegs.trans ?_ (.put (by decide))
  exact .trans (.of_only freeBytes_only) (hentry _ _ _ _)

theorem responded_low (s : State) (r : ThmRsp) (more : List ThmRsp) : LowRegs s (responded s r more) := by
  have hthm : LowRegs s { s with thm := { s.thm with answers := more } } := .of_regs rfl
  exact hthm.trans (rspWrite_low _ r)

/-- The ring's tail moves on by one of its 32 entries. -/
theorem rspWrite_tail (s : State) (r : ThmRsp) : regField (rspWrite s r) (aThm 0x14) 4 0 = (regField s (aThm 0x14) 4 0 + 1) % 32 := by
  unfold rspWrite thmEvent
  dsimp only
  unfold regField
  rw [regGet_sqcSet_other (by decide), regGet_regPut_same]
  exact fieldOf_ofNat_of_lt (Nat.mod_lt _ (by decide))

section
variable {s : State} {r : ThmRsp} {more : List ThmRsp} (ha : s.thm.answers = r :: more)
include ha

theorem next_thimbleResponse_waits (h : thmUp s = false ∨ rspRoom s = false) : Next .thimbleResponse s (fun t => t = s) := by
  refine next_of (show execThimbleResponse s = .next s from ?_) rfl
  unfold execThimbleResponse
  rw [ha]
  exact congrArg _ (if_pos (by simpa using h))

variable (hup : thmUp s = true) (hroom : rspRoom s = true)
include hup hroom

theorem next_thimbleResponse {P : State → Prop} (hp : P (answerTake (responded s r more) r)) : Next .thimbleResponse s P := by
  refine next_of (show execThimbleResponse s = _ from ?_) hp
  unfold execThimbleResponse
  rw [ha]
  exact congrArg _ (if_neg (by simp [hup, hroom]))

/-- An answer for which no command waits. -/
theorem next_thimbleResponse_alone (hop : r.op ≠ 0xD) (hcmd : r.cmd = none) : Next .thimbleResponse s (fun t =>
    t.thm = { s.thm with answers := more } ∧ regField t (aThm 0x14) 4 0 = (regField s (aThm 0x14) 4 0 + 1) % 32 ∧
    t.tortin = s.tortin ∧ t.keys = s.keys ∧ t.links = s.links) := by
  refine next_thimbleResponse ha hup hroom ?_
  unfold answerTake
  rw [if_neg hop, hcmd]
  exact ⟨responded_thm s r more, rspWrite_tail _ r, responded_only.tortin_eq, responded_only.keys_eq, responded_only.links_eq⟩

/-- An answer for which a started command waits. -/
theorem next_thimbleResponse_started {tag op : Nat} {c : Cmd} {P : State → Prop} (hop : r.op ≠ 0xD) (hcmd : r.cmd = some tag)
    (hst : Started s tag op c) (hp : P (answerStarted (responded s r more) tag c r)) : Next .thimbleResponse s P := by
  obtain ⟨-, hc, hstarted, -⟩ := hst
  refine next_thimbleResponse ha hup hroom ?_
  unfold answerTake
  rw [if_neg hop, hcmd]
  dsimp only
  rw [(responded_only.cmdAt rfl tag).trans hc]
  dsimp only
  rw [hstarted]
  exact hp

end

/-! ### What a started command makes of its answer, by its opcode -/

section
variable (u : State) (tag : Nat) (c : Cmd) (r : ThmRsp)

theorem answerStarted_creates (h : cOp c = 0x0401 ∨ cOp c = 0x0402 ∨ cOp c = 0x0403 ∨ cOp c = 0x0404) : answerStarted u tag c r =
    if r.status = stOk then endOk u tag 0 (BitVec.ofNat 64 r.a) else endAfter u tag r.status := by
  unfold answerStarted
  rcases h with h | h | h | h <;> simp [h]

theorem answerStarted_destroys (h : cOp c = 0x0405) : answerStarted u tag c r =
    if r.status = stOk then endOk u tag else endAfter (destroyDrop u tag) tag r.status := by
  unfold answerStarted
  simp [h]

theorem answerStarted_changes (h : cOp c = 0x0407 ∨ cOp c = 0x0409) : answerStarted u tag c r =
    if r.status = stOk then endOk u tag else endAfter u tag r.status := by
  unfold answerStarted
  rcases h with h | h <;> simp [h]

theorem answerStarted_owner (h : cOp c = 0x0301 ∨ cOp c = 0x0302) : answerStarted u tag c r = ownerDone u tag c r := by
  unfold answerStarted
  rcases h with h | h <;> simp [h]

theorem answerStarted_queue (h : cOp c = 0x0803) : answerStarted u tag c r =
    if r.status = stOk then endOk u tag 0 (BitVec.ofNat 64 (r.nums.getD 1 0)) else queueUndo u tag r := by
  unfold answerStarted
  simp [h]

theorem answerStarted_retires (h : cOp c = 0x080A) : answerStarted u tag c r =
    if r.status = stOk then endOk (cardDrop u (par c 52 8)) tag else endAfter u tag r.status := by
  unfold answerStarted
  simp [h]

theorem answerStarted_hands (h : cOp c = 0x0C03) : answerStarted u tag c r = handDone u tag c r := by
  unfold answerStarted
  simp [h]

theorem answerStarted_certificate (h : cOp c = 0x0D02) : answerStarted u tag c r = lcDone u tag r := by
  unfold answerStarted
  simp [h]

end

/-! ### Owners -/

theorem ownerPut_some_owners (s : State) (n : Nat) (x : OwnerRec) : (ownerPut s n (some x)).keys.owners = tblPut n x s.keys.owners := by
  unfold ownerPut
  rw [jot_only.keys_eq]

theorem ownerPut_none_owners (s : State) (n : Nat) : (ownerPut s n none).keys.owners = tblDel n s.keys.owners := by
  unfold ownerPut
  rw [jot_only.keys_eq]

theorem pendPut_owners (s : State) (n : Nat) (x : Option PendEntry) : (pendPut s n x).keys.owners = s.keys.owners := by
  unfold pendPut
  rw [jot_only.keys_eq]

/-- Calendar time is read from the Stamp and the registers of `TIME`. -/
theorem nowCt_of_low {s u : State} (h : LowRegs s u) (hn : nowStamp u = nowStamp s) : nowCt u = nowCt s := by
  unfold nowCt ctAt
  rw [hn, h aTimeSrcStat (by decide), regGet64_congr (h aTimeCtBaseLo (by decide)) (h aTimeCtBaseHi (by decide))]

theorem descRec_of_low {s u : State} (h : LowRegs s u) (hn : nowStamp u = nowStamp s) (d : List Byte) : descRec u d = descRec s d := by
  unfold descRec
  rw [nowCt_of_low h hn]

/-! ### The ends of the commands -/

section
variable {s u : State} {tag : Nat} {c : Cmd} {r : ThmRsp}

/-- From `s` to `u` the place `tag` still holds the command `c`, and no time passes. -/
structure StillHolds (s u : State) (tag : Nat) (c : Cmd) : Prop where
  place : cmdAt u tag = some c
  now : nowStamp u = nowStamp s

theorem StillHolds.after {v : State} {m : Nat} (h : StillHolds s u tag c) (hv : Only m u v) (ht : m.testBit 10 = false := by rfl)
    (hn : m.testBit 2 = false := by rfl) : StillHolds s v tag c :=
  ⟨(hv.cmdAt ht tag).trans h.place, (hv.now hn).trans h.now⟩

theorem StillHolds.ended (h : StillHolds s u tag c) (status len : Nat) (extra : BitVec 64) :
    Ended s (endAfter u tag status len extra) tag c status len extra := endAfter_ended h.place rfl h.now status len extra

variable (h : StillHolds s u tag c)
include h

/-- A change of a key ends its command with the answer's status; one that failed leaves the key as it was, in `v`. -/
theorem changed_ended {v : State} (hv : StillHolds s v tag c) (hthm : v.thm = u.thm) :
    Ended s (if r.status = stOk then endOk u tag else endAfter v tag r.status) tag c r.status ∧
    (if r.status = stOk then endOk u tag else endAfter v tag r.status).thm = u.thm := by
  split
  · next hok => rw [hok]; exact ⟨h.ended _ _ _, (endAfter_parts _ _ _ _ _).thm_eq⟩
  · exact ⟨hv.ended _ _ _, (endAfter_parts _ _ _ _ _).thm_eq.trans hthm⟩

theorem answerStarted_change_ended (hop : cOp c = 0x0405 ∨ cOp c = 0x0407 ∨ cOp c = 0x0409) :
    Ended s (answerStarted u tag c r) tag c r.status ∧ (answerStarted u tag c r).thm = u.thm := by
  rcases hop with hop | hop
  · rw [answerStarted_destroys _ _ _ _ hop]
    exact changed_ended h (h.after destroyDrop_only) destroyDrop_only.thm_eq
  · rw [answerStarted_changes _ _ _ _ hop]
    exact changed_ended h h rfl

theorem ownerDone_creates (hop : cOp c = 0x0301) (hok : r.status = stOk) : Ended s (ownerDone u tag c r) tag c stOk 0
      (BitVec.ofNat 64 (descOwner (heldInput c))) ∧
    tblFind (descOwner (heldInput c)) (ownerDone u tag c r).keys.owners = some (descRec u (heldInput c)) := by
  unfold ownerDone
  rw [if_neg (not_not.mpr hok), if_pos hop]
  dsimp only
  refine ⟨((h.after ownerPut_only).after owner0Note_only).ended _ _ _, ?_⟩
  unfold endOk
  rw [(endAfter_parts _ _ _ _ _).keys_eq, owner0Note_only.keys_eq, ownerPut_some_owners]
  exact tblFind_put_same _ _ _

/-- A retired owner's record goes, with its pending approvals. -/
theorem ownerDone_retires (hop : cOp c = 0x0302) (hok : r.status = stOk) : Ended s (ownerDone u tag c r) tag c stOk ∧
    (ownerDone u tag c r).keys.owners = tblDel (par c 52 2) u.keys.owners := by
  have hpend (l : Tbl PendEntry) : Only 24577 u (l.foldl (fun s e => pendPut s e.1 none) u) := .foldl (fun _ _ => pendPut_only) .refl
  have howners (l : Tbl PendEntry) : (l.foldl (fun s e => pendPut s e.1 none) u).keys.owners = u.keys.owners :=
    foldl_keeps (r := fun s => s.keys.owners) (fun s e => pendPut_owners s e.1 none) l u
  unfold ownerDone
  rw [if_neg (not_not.mpr hok), if_neg (by rw [hop]; decide)]
  dsimp only
  refine ⟨((h.after (hpend _)).after ownerPut_only).ended _ _ _, ?_⟩
  unfold endOk
  rw [(endAfter_parts _ _ _ _ _).keys_eq, ownerPut_none_owners, howners]

/-- A queue whose key Thimble could not bind is gone again. -/
theorem queueUndo_ended : Ended s (queueUndo u tag r) tag c r.status ∧ queueGet (queueUndo u tag r) (r.nums.getD 1 0) = none := by
  have hgone (q : Nat) : Only 131072 u { u with links := { u.links with queues := tblDel q u.links.queues } } := .upd rfl .refl
  unfold queueUndo
  refine ⟨((h.after (hgone _)).after queueNote_only).ended _ _ _, ?_⟩
  unfold queueGet
  rw [(endAfter_parts _ _ _ _ _).links_eq, queueNote_only.links_eq]
  exact tblFind_del_same _ _

theorem cardDrop_ended (id : Nat) : Ended s (endOk (cardDrop u id) tag) tag c stOk ∧ cardGet (endOk (cardDrop u id) tag) id = none := by
  refine ⟨(h.after cardDrop_only).ended _ _ _, ?_⟩
  unfold cardGet endOk cardDrop
  rw [(endAfter_parts _ _ _ _ _).links_eq, jot_only.links_eq]
  exact tblFind_del_same _ _

/-- The hand-over that Thimble refused leaves its generation abandoned. -/
theorem handDone_refused (hne : r.status ≠ stOk) : Ended s (handDone u tag c r) tag c r.status := by
  unfold handDone
  rw [if_pos hne]
  exact (h.after ctlMap_only).ended _ _ _

/-- The device resets once the completion of `FW.ACTIVATE` is written (R455). -/
theorem handDone_resets (hok : r.status = stOk) : (handDone u tag c r).tortin.resetTag = some tag ∧
    ∃ x, Ended s (handDone u tag c r) tag c stOk 0 x := by
  have hplace := (h.after (handTrial_only (k := par c 52 1))).place
  have hnow := (h.after (handTrial_only (k := par c 52 1))).now
  unfold handDone
  rw [if_neg (not_not.mpr hok)]
  dsimp only
  generalize handTrial u (par c 52 1) = v at hplace hnow ⊢
  have hput : cmdAt { v with tortin := { v.tortin with resetTag := some tag } } tag = some c := hplace
  exact ⟨congrArg (·.tortin.resetTag) (endOk_eq hput _ _), _, endOk_ended hput rfl hnow _ _⟩

/-- The rights of a certificate that Thimble has installed come into force (R481). -/
theorem lcDone_installs (hok : r.status = stOk) (hkind : r.nums.headD 0 = 2) :
    ∃ x, Ended s (lcDone u tag r) tag c stOk 0 x ∧ (lcDone u tag r).lc.cert = u.lc.cert := by
  have hcert : (certStart u).lc.cert = u.lc.cert := by
    unfold certStart
    split
    · rfl
    · rfl
  unfold lcDone
  rw [if_neg (not_not.mpr hok), if_pos hkind]
  exact ⟨_, (h.after certStart_only).ended _ _ _, (congrArg LcState.cert (endAfter_parts _ _ _ _ _).lc_eq).trans hcert⟩

end

/-! ### The settled statement -/

/-- Settles O21: the row by the ring's room, and an answer by the opcode of the command that waits for it. -/
theorem thimbleResponsesEndTheirCommands : Obligations.ThimbleResponsesEndTheirCommands := by
  intro s r more ha
  refine ⟨next_thimbleResponse_waits ha, fun hup hroom => ⟨next_thimbleResponse_alone ha hup hroom, fun tag c op hop hcmd hst => ?_⟩⟩
  have row {P : State → Prop} (hp : P (answerStarted (responded s r more) tag c r)) : Next .thimbleResponse s P :=
    next_thimbleResponse_started ha hup hroom hop hcmd hst hp
  obtain ⟨-, hc, -, -, hcop, -⟩ := hst
  subst hcop
  have h : StillHolds s (responded s r more) tag c := StillHolds.after ⟨hc, rfl⟩ responded_only
  have hkeys : (responded s r more).keys = s.keys := responded_only.keys_eq
  have hanswers (status len : Nat) (extra : BitVec 64) : (endAfter (responded s r more) tag status len extra).thm.answers = more := by
    rw [(endAfter_parts _ _ _ _ _).thm_eq, responded_thm]
  refine ⟨?creates, ?changes, ?queue, ?queueRefused, ?owner, ?retires, ?card, ?handRefused, ?hand, ?certificate⟩
  case creates =>
    intro hcop
    refine row ?_
    rw [answerStarted_creates _ _ _ _ hcop]
    split
    · exact ⟨hanswers _ _ _, h.ended _ _ _⟩
    · exact ⟨hanswers _ _ _, h.ended _ _ _⟩
  case changes =>
    intro hcop
    obtain ⟨hend, hthm⟩ := answerStarted_change_ended (r := r) h hcop
    exact row ⟨by rw [hthm, responded_thm], hend⟩
  case queue =>
    intro hcop hok
    refine row ?_
    rw [answerStarted_queue _ _ _ _ hcop, if_pos hok]
    exact ⟨h.ended _ _ _, (endAfter_parts _ _ _ _ _).links_eq.trans responded_only.links_eq⟩
  case queueRefused =>
    intro hcop hne
    refine row ?_
    rw [answerStarted_queue _ _ _ _ hcop, if_neg hne]
    exact queueUndo_ended h
  case owner =>
    intro hcop hok
    refine row ?_
    rw [answerStarted_owner _ _ _ _ (.inl hcop), ← descRec_of_low (responded_low s r more) h.now]
    exact ownerDone_creates h hcop hok
  case retires =>
    intro hcop hok
    refine row ?_
    obtain ⟨hend, howners⟩ := ownerDone_retires h hcop hok
    unfold OtherOwners
    rw [answerStarted_owner _ _ _ _ (.inr hcop), howners, hkeys]
    exact ⟨hend, tblFind_del_same _ _, fun m hm => tblFind_del_other _ hm⟩
  case card =>
    intro hcop hok
    refine row ?_
    rw [answerStarted_retires _ _ _ _ hcop, if_pos hok]
    exact cardDrop_ended h _
  case handRefused => exact fun hcop hne => row (by rw [answerStarted_hands _ _ _ _ hcop]; exact handDone_refused h hne)
  case hand => exact fun hcop hok => row (by rw [answerStarted_hands _ _ _ _ hcop]; exact handDone_resets h hok)
  case certificate =>
    intro hcop hok hkind
    refine row ?_
    rw [answerStarted_certificate _ _ _ _ hcop, ← (responded_only (s := s) (r := r) (more := more)).lc_eq]
    exact lcDone_installs h hok hkind

end Sys2Proof.Machine
end

section
set_option Elab.async false

/-! SUPPORT. Commands of queues, cards, firmware and debug that ask Thimble, and the settled statement O17 (R279, R282, R397, R455, R481, R484;
log entries 22 and 25). -/

namespace Sys2Proof.Machine

open Host Sys2Proof

/-! ### The group, as a command finds it that has read its input -/

/-- This member's role and place in its group, and the other members as it knows them. -/
def membersOf (s : State) : SeamRole × Nat × Nat × List SeamPeer := (s.seam.role, s.seam.index, s.seam.size, s.seam.peers)

theorem seamTo_members (s : State) (m : Nat) (load : SeamLoad) : membersOf (seamTo s m load) = membersOf s := by
  unfold seamTo
  split
  · rfl
  · unfold seamSend
    dsimp only
    split
    · rfl
    · rfl

theorem serveEntry_members (s : State) (e : JEntry) : membersOf (serveEntry s e) = membersOf s :=
  foldl_keeps (r := membersOf) (fun _ _ => seamTo_members _ _ _) _ _

theorem seamServe_members (n : Nat) (s : State) : membersOf (seamServe n s) = membersOf s := by
  induction n generalizing s with
  | zero => rfl
  | succ n ih =>
    unfold seamServe
    split
    · rfl
    · split
      · exact (ih _).trans (serveEntry_members _ _)
      · rfl

/-- A primary that journals keeps its group. -/
theorem jot_members (s : State) (slice : Nat) (release : Bool) (body : JBody) : membersOf (jot s slice release body) = membersOf s := by
  unfold jot
  split
  · rfl
  · exact seamServe_members _ _

theorem keepInput_members (s : State) (tag : Nat) (c : Cmd) (bs : List Byte) : membersOf (keepInput s tag c bs) = membersOf s := by
  have hjot (u : State) (slice : Nat) (token : BitVec 64) : membersOf (jotInput u slice token 0 bs) = membersOf u :=
    foldl_keeps (r := membersOf) (fun _ _ => jot_members _ _ _ _) _ _
  rcases keepInput_cases s tag c bs with hk | ⟨y, hk⟩
  · rw [hk]
  · exact (congrArg membersOf hk).trans (hjot _ _ _)

/-- The started command `c` of `s` has its input in `u`, and the group is what it was. -/
structure InputRead (s u : State) (tag : Nat) (c : Cmd) : Prop extends InputTaken s u tag c where
  members : membersOf u = membersOf s

/-- The row of a started command that reads its input. -/
theorem next_inputRead {i : Instr} {s : State} {tag op : Nat} {io : HostIO} {c : Cmd} {bs : List Byte} {f : Cmd → List Byte → State → State}
    {P : State → Prop} (hx : exec i s = runIn s tag op io f)
    (hp : ∀ u, InputRead s u tag c → c.stage = .started → P (f { c with expect := none } bs u)) : NextIn i s tag op c io bs P := by
  intro hst hr
  obtain ⟨-, hc, hstarted, -⟩ := id hst
  exact next_runIn hst hr hx (hp _ ⟨inputTaken_keepInput hc bs, keepInput_members _ _ _ _⟩ hstarted)

namespace InputRead

variable {s u : State} {tag : Nat} {c : Cmd} (h : InputRead s u tag c)
include h

theorem inGroup_eq : inGroup u = inGroup s := by
  have hrole : u.seam.role = s.seam.role := congrArg (·.1) h.members
  unfold inGroup
  rw [hrole]

/-- A queue's record of a description is the same. -/
theorem queueOfDesc_eq (d : List Byte) : queueOfDesc u { c with expect := none } d = queueOfDesc s c d := by
  have hhas : keyHas u (cKeyA c) = keyHas s (cKeyA c) := h.congr (keyHas · (cKeyA c)) fun _ _ _ => rfl
  have hkey : keyOf u (cKeyA c) = keyOf s (cKeyA c) := h.congr (keyOf · (cKeyA c)) fun _ _ _ => rfl
  have howner : cOwner u c = cOwner s c := h.congr (cOwner · c) fun _ _ _ => rfl
  have hcard (id : Nat) : cardGet u id = cardGet s id := h.congr (cardGet · id) fun _ _ _ => rfl
  have hread : queueOfDesc u { c with expect := none } d = queueOfDesc u c d := rfl
  rw [hread]
  unfold queueOfDesc
  dsimp only
  rw [h.inGroup_eq, hhas, hkey, howner, hcard, h.only.scorch_eq]

/-- The checks of a certificate find the same. -/
theorem certCheck_eq (bs : List Byte) : certCheck u bs = certCheck s bs := by
  have hsigned : certSigned u bs = certSigned s bs := h.congr (certSigned · bs) fun _ _ _ => rfl
  have htime (k : DebugCert) : certInTime u k = certInTime s k := h.congr (certInTime · k) fun _ _ _ => rfl
  have hstate : lcState u = lcState s := h.congr lcState fun _ _ _ => rfl
  have hindex : u.seam.index = s.seam.index := congrArg (·.2.1) h.members
  have hsize : u.seam.size = s.seam.size := congrArg (·.2.2.1) h.members
  have hpeers : u.seam.peers = s.seam.peers := congrArg (·.2.2.2) h.members
  unfold certCheck certNamed seamOthers seamPeer
  rw [hsigned, hstate, h.inGroup_eq, hindex, hsize, hpeers, h.only.dev_eq]
  simp only [htime]

end InputRead

/-! ### The request that stands last -/

section
variable {s t : State} {tag op : Nat} {c : Cmd} {nums : List Nat} {a b : Nat} {data : List Byte} (h : Asks s t tag c op nums a b data)
include h

theorem Asks.waits : Waits t tag c := by
  obtain ⟨hwaits, -⟩ := h
  exact hwaits

theorem Asks.last : t.thm.reqs.getLast? = some {
    op := op, tag := s.thm.nextTag, a := a, b := b, nums := nums, data := data, alarm := cAlarm c
    cmd := some tag, taken := s.time.clk } := by
  obtain ⟨-, -, hreqs⟩ := h
  rw [hreqs]
  exact List.getLast?_concat

end

/-! ### What each row runs -/

theorem exec_linkRekey (tag : Nat) (s : State) : exec (.linkRekey tag) s = execLinkRekey tag s := rfl

theorem exec_queueCreate (tag : Nat) (io : HostIO) (s : State) : exec (.queueCreate tag io) s = execQueueCreate tag io s := rfl

theorem exec_debugInstall (tag : Nat) (io : HostIO) (s : State) : exec (.debugInstall tag io) s = execDebugInstall tag io s := rfl

theorem exec_debugRevoke (tag : Nat) (s : State) : exec (.debugRevoke tag) s = execDebugRevoke tag s := rfl

theorem exec_fwActivate (tag : Nat) (s : State) : exec (.fwActivate tag) s = execFwActivate tag s := rfl

theorem exec_cardRetire (tag : Nat) (ok0 ok1 : Bool) (s : State) : exec (.cardRetire tag ok0 ok1) s = execCardRetire tag ok0 ok1 s := rfl

/-! ### `LINK.REKEY` (R279) -/

section
variable {s : State} {tag : Nat} {c : Cmd} {x : CardRec} (hx : cardGet s (par c 52 8) = some x) (h : Started s tag 0x0807 c)
include hx h

theorem next_linkRekey_asks (hstep : c.work.step = 0) (hroom : thmRoom s = true) (hmir : c.mirror = false) (hch : x.change = none) :
    Next (.linkRekey tag) s (fun t => Asks s t tag c 0xD [par c 52 8, x.offered + 1]) := by
  refine next_runCmd h (exec_linkRekey tag s) ?_
  dsimp only
  rw [hx]
  dsimp only
  rw [if_neg (by simp [hmir]), hch]
  exact (h.mayAsk hstep hroom).asks tag 0xD _ 0 0 []

/-- A promoted primary takes the change that runs for the command's own (R324). -/
theorem next_linkRekey_takes {ch : EpochChange} (hmir : c.mirror = false) (hch : x.change = some ch) (hcmd : ch.cmd = none) :
    Next (.linkRekey tag) s (fun t =>
      cardGet t (par c 52 8) = some { x with change := some { ch with cmd := some tag } } ∧ t.thm = s.thm) := by
  refine next_runCmd h (exec_linkRekey tag s) ?_
  dsimp only
  rw [hx]
  dsimp only
  rw [if_neg (by simp [hmir]), hch]
  dsimp only
  rw [if_neg (by simp [hcmd])]
  exact ⟨tblFind_put_same _ _ _, rfl⟩

theorem next_linkRekey_mirror (hmir : c.mirror = true) : Next (.linkRekey tag) s (fun t => t = s) := by
  refine next_runCmd h (exec_linkRekey tag s) ?_
  dsimp only
  rw [hx]
  exact if_pos hmir

end

/-! ### `QUEUE.CREATE` -/

section
variable {s : State} {tag : Nat} {io : HostIO} {c : Cmd} {bs : List Byte} (hstep : c.work.step = 0)
include hstep

/-- The queue stands, and Thimble is asked to bind its key to engine 3, a queue's link entry. -/
theorem next_queueCreate (hroom : thmRoom s = true) {q : Nat} (hq : queueNumber s c = some q) :
    NextIn (.queueCreate tag io) s tag 0x0803 c io bs (fun t =>
      queueGet t q = some (queueOfDesc s c bs) ∧ (∀ r, r ≠ q → queueGet t r = queueGet s r) ∧ Asks s t tag c 2 [3, q] (cKeyA c)) := by
  refine next_inputRead (exec_queueCreate tag io s) fun u hu hstarted => ?_
  obtain ⟨x, y, hat⟩ := hu.place
  have hnum : queueNumber u { c with expect := none } = some q :=
    (hu.congr (queueNumber · { c with expect := none }) fun _ _ _ => rfl).trans hq
  have hfree : thmRoom u = true := (hu.congr thmRoom fun _ _ _ => rfl).trans hroom
  rw [if_neg (by simp [hstep, hfree]), hnum]
  dsimp only
  rw [hu.queueOfDesc_eq]
  have honly : Only 147457 u (queueNote (queuePut u q (queueOfDesc s c bs)) q) := queueNote_keep rfl (queuePut_keep rfl .refl)
  have hlinks : (queueNote (queuePut u q (queueOfDesc s c bs)) q).links = (queuePut u q (queueOfDesc s c bs)).links := queueNote_only.links_eq
  generalize queueNote (queuePut u q (queueOfDesc s c bs)) q = v at honly hlinks ⊢
  rw [(honly.cmdAt rfl tag).trans hat]
  have hmay : MayAsk s v c { c with expect := none, copy := x, heads := y } :=
    ⟨hstarted, rfl, hstep, hroom, honly.thm_eq.trans hu.only.thm_eq, honly.time_eq.trans hu.only.time_eq⟩
  have hqueue (t : State) (ht : t.links = v.links) (r : Nat) : queueGet t r = queueGet (queuePut u q (queueOfDesc s c bs)) r := by
    unfold queueGet
    rw [ht, hlinks]
  refine ⟨(hqueue _ thmAsk_only.links_eq q).trans queueGet_queuePut_same, fun r hr => ?_, hmay.asks tag 2 [3, q] (cKeyA c) 0 []⟩
  rw [hqueue _ thmAsk_only.links_eq, queueGet_queuePut_other hr]
  exact hu.congr (queueGet · r) fun _ _ _ => rfl

/-! ### `DEBUG.INSTALL` (R481, R484) -/

/-- While Mangle checks the certificate's signatures, the row lets that go on. -/
theorem debugInstall_mangleFirst : MangleFirst (.debugInstall tag io) s tag 0x0D02 c io := by
  refine fun hm bs => next_inputRead (exec_debugInstall tag io s) fun u hu hstarted => ?_
  obtain ⟨x, y, hat⟩ := hu.place
  rw [if_neg (not_not.mpr hstep), if_pos ((mangleHas_congr hu.only.mangle_eq tag).trans hm)]
  exact ⟨⟨_, (mangleSet_only.cmdAt rfl tag).trans hat, hstarted, rfl⟩,
    fun o k ho hsrc => mangleSet_ready u tag o ho (by rw [hsrc]; exact beq_self_eq_true tag)⟩

/-- The row once Mangle holds none of the command's operations. -/
theorem next_debugInstall {P : State → Prop} (hm : mangleHas s tag = false)
    (hp : ∀ u, InputRead s u tag c → c.stage = .started → P (if certCheck s bs ≠ stOk then endAfter u tag (certCheck s bs)
      else if (certOf bs).serial ≠ s.dev.serial then endOk u tag 0 (BitVec.ofNat 64 (debugRights u))
      else thmAsk u tag { c with expect := none } { op := 0x12, tag := 0, nums := [2], data := bs })) :
    NextIn (.debugInstall tag io) s tag 0x0D02 c io bs P := by
  refine next_inputRead (exec_debugInstall tag io s) fun u hu hstarted => ?_
  have hread := hp u hu hstarted
  rw [if_neg (not_not.mpr hstep), if_neg (by simp [mangleHas_congr hu.only.mangle_eq, hm]), hu.certCheck_eq, hu.only.dev_eq]
  exact hread

/-- A certificate that names this device and passes its checks is given to Thimble. -/
theorem next_debugInstall_asks (hroom : thmRoom s = true) (hm : mangleHas s tag = false) (hok : certCheck s bs = stOk)
    (hserial : (certOf bs).serial = s.dev.serial) : NextIn (.debugInstall tag io) s tag 0x0D02 c io bs (fun t => Asks s t tag c 0x12 [2] 0 0 bs) := by
  refine next_debugInstall hstep hm fun u hu hstarted => ?_
  rw [if_neg (not_not.mpr hok), if_neg (not_not.mpr hserial)]
  exact (hu.mayAsk hstep hroom hstarted).asks tag 0x12 [2] 0 0 bs

/-- A certificate that fails a check ends the command, and Thimble is not asked. -/
theorem next_debugInstall_refused (hm : mangleHas s tag = false) (hbad : certCheck s bs ≠ stOk) :
    NextIn (.debugInstall tag io) s tag 0x0D02 c io bs (fun t => Ended s t tag c (certCheck s bs) ∧ t.lc = s.lc ∧ t.thm = s.thm) := by
  refine next_debugInstall hstep hm fun u hu _ => ?_
  obtain ⟨x, y, hat⟩ := hu.place
  rw [if_pos hbad]
  exact ⟨endAfter_ended hat rfl hu.now _ _ _, (endAfter_parts _ _ _ _ _).lc_eq.trans hu.only.lc_eq,
    (endAfter_parts _ _ _ _ _).thm_eq.trans hu.only.thm_eq⟩

/-! ### `DEBUG.REVOKE` (R485, log entry 22) -/

theorem next_debugRevoke_asks (hroom : thmRoom s = true) (h : Started s tag 0x0D03 c)
    (hhere : inGroup s = false ∨ par c 52 1 = 0xFF ∨ par c 52 1 = s.seam.index) :
    Next (.debugRevoke tag) s (fun t => Asks s t tag c 0x12 [3]) := by
  refine next_runCmd h (exec_debugRevoke tag s) ?_
  rw [if_neg (not_not.mpr hstep), if_neg (by rcases hhere with hg | hp | hp <;> simp [*])]
  exact (h.mayAsk hstep hroom).asks tag 0x12 [3] 0 0 []

/-- What another member is to revoke changes nothing here. -/
theorem next_debugRevoke_elsewhere (h : Started s tag 0x0D03 c) (hg : inGroup s = true) (hall : par c 52 1 ≠ 0xFF)
    (hother : par c 52 1 ≠ s.seam.index) : Next (.debugRevoke tag) s (fun t => Ended s t tag c stOk ∧ t.lc = s.lc ∧ t.thm = s.thm) := by
  obtain ⟨-, hc, -⟩ := id h
  refine next_runCmd h (exec_debugRevoke tag s) ?_
  rw [if_neg (not_not.mpr hstep), if_pos (by simp [hg, hall, hother])]
  exact ⟨endOk_ended hc rfl rfl _ _, (endAfter_parts _ _ _ _ _).lc_eq, (endAfter_parts _ _ _ _ _).thm_eq⟩

/-! ### `FW.ACTIVATE` (R455, R463, log entry 25) -/

theorem next_fwActivate_asks (hroom : thmRoom s = true) (h : Started s tag 0x0C03 c) (hm : s.boot.mend = false) :
    Next (.fwActivate tag) s (fun t => ∃ g, Asks s t tag c 0x10 [g] 0 0 (fpBm0 (fwPkg s (par c 52 1)) ++ fpBm1 (fwPkg s (par c 52 1)))) := by
  refine next_runCmd h (exec_fwActivate tag s) ?_
  dsimp only
  rw [if_neg (not_not.mpr hstep), if_neg (by simp [hm]), if_neg (by simp [hroom])]
  have hmay : MayAsk s (handPending s (par c 52 1)) c c :=
    { h.mayAsk hstep hroom with thm := handPending_only.thm_eq, time := handPending_only.time_eq }
  exact ⟨_, hmay.asks tag 0x10 [_] 0 0 _⟩

/-- Under Mend the slot is named alone, and the device resets after the completion. -/
theorem next_fwActivate_mend (h : Started s tag 0x0C03 c) (hm : s.boot.mend = true) : Next (.fwActivate tag) s (fun t =>
    t.tortin.resetTag = some tag ∧ t.boot.leave = true ∧ ∃ x, Ended s t tag c stOk 0 x) := by
  obtain ⟨-, hc, -⟩ := id h
  refine next_runCmd h (exec_fwActivate tag s) ?_
  dsimp only
  rw [if_neg (not_not.mpr hstep), if_pos hm]
  have hnamed : Only 8388610 s (freeWord (fwMark (fwMark (ctlMap s (fun b => { b with slot := par c 52 1 })) (1 - par c 52 1) .previous)
      (par c 52 1) .running)).2 := freeWord_keep rfl (fwMark_keep rfl (fwMark_keep rfl (ctlMap_keep rfl .refl)))
  generalize freeWord _ = w at hnamed ⊢
  obtain ⟨v, u⟩ := w
  have hat : cmdAt u tag = some c := (hnamed.cmdAt rfl tag).trans hc
  have hput : cmdAt { u with tortin := { u.tortin with resetTag := some tag }, boot := { u.boot with leave := true } } tag = some c := hat
  exact ⟨congrArg (·.tortin.resetTag) (endOk_eq hput _ _), congrArg BootState.leave (endOk_boot _ _ _ _),
    _, endOk_ended hput rfl (hnamed.now rfl) _ _⟩

end

/-! ### `CARD.RETIRE` (R107, R282) -/

theorem flashRefuses (s : State) (ok0 ok1 : Bool) :
    (!(chipUp s.boot.chip0 && ok0) && !(chipUp s.boot.chip1 && ok1)) = !flashTakes s ok0 ok1 := (Bool.not_or _ _).symm

section
variable {s : State} {tag : Nat} {c : Cmd} {x : CardRec} {ok0 ok1 : Bool}

/-- A counter record is written where a chip takes it. -/
theorem jrnCounter_some (hf : flashTakes s ok0 ok1 = true) (owner : Nat) (k : JKind) : ∃ t, jrnCounter s ok0 ok1 owner k = some t :=
  ⟨_, if_neg (by rw [flashRefuses, hf]; decide)⟩

theorem jrnCounter_none (hf : flashTakes s ok0 ok1 = false) (owner : Nat) (k : JKind) : jrnCounter s ok0 ok1 owner k = none :=
  if_pos (by rw [flashRefuses, hf]; rfl)

variable (hstep : c.work.step = 0) (hroom : thmRoom s = true) (hx : cardGet s (par c 52 8) = some x) (h : Started s tag 0x080A c)
include hstep hroom hx h

theorem next_cardRetire_asks (hf : flashTakes s ok0 ok1 = true) : Next (.cardRetire tag ok0 ok1) s (fun t => Asks s t tag c 9 [] x.key) := by
  obtain ⟨u, hu⟩ := jrnCounter_some hf x.owner (counterRec s x.owner (par c 52 8) none)
  have honly := jrnCounter_only hu
  have hmay : MayAsk s u c c := { h.mayAsk hstep hroom with thm := honly.thm_eq, time := honly.time_eq }
  refine next_runCmd h (exec_cardRetire tag ok0 ok1 s) ?_
  dsimp only
  rw [hx]
  dsimp only
  rw [if_neg (by simp [hstep, hroom]), hu]
  exact hmay.asks tag 9 [] x.key 0 []

theorem next_cardRetire_failed (hf : flashTakes s ok0 ok1 = false) : Next (.cardRetire tag ok0 ok1) s (fun t => Ended s t tag c 0x0406) := by
  obtain ⟨-, hc, -⟩ := id h
  refine next_runCmd h (exec_cardRetire tag ok0 ok1 s) ?_
  dsimp only
  rw [hx]
  dsimp only
  rw [if_neg (by simp [hstep, hroom]), jrnCounter_none hf]
  exact endAfter_ended ((jrnFailed_only.cmdAt rfl tag).trans hc) rfl (jrnFailed_only.now rfl) _ _ _

end

/-! ### The settled statement -/

theorem Next.imp {i : Instr} {s : State} {P Q : State → Prop} (h : Next i s P) (hpq : ∀ t, P t → Q t) : Next i s Q := by
  obtain ⟨t, ht, hp⟩ := h
  exact ⟨t, ht, hpq t hp⟩

/-- Settles O17: each row by what it finds of the card, the queue, the certificate, the group, Mend or the flash; where it asks, the request is
the last in the ring. -/
theorem otherCommandsAskThimble : Obligations.OtherCommandsAskThimble := by
  intro tag io s c hstep hroom
  refine ⟨?rekey, ?queue, debugInstall_mangleFirst hstep, fun bs => next_debugInstall_asks hstep hroom, fun bs => next_debugInstall_refused hstep,
    next_debugRevoke_asks hstep hroom, next_debugRevoke_elsewhere hstep, ?activate, next_fwActivate_mend hstep, ?retire⟩
  case rekey =>
    exact fun x hx h => ⟨next_linkRekey_asks hx h hstep hroom, fun ch => next_linkRekey_takes hx h, next_linkRekey_mirror hx h⟩
  case queue =>
    refine fun bs q hq hst hr => (next_queueCreate hstep hroom hq hst hr).imp fun t ⟨hqueue, hothers, hasks⟩ => ⟨hqueue, hothers, ?_⟩
    obtain ⟨d, hat, -, -, hd⟩ := hasks.waits
    exact ⟨d, hat, hd, hasks.last⟩
  case activate =>
    exact fun h hm => (next_fwActivate_asks hstep hroom h hm).imp fun t ⟨g, hasks⟩ => ⟨hasks.waits, g, hasks.last⟩
  case retire =>
    exact fun x hx h => ⟨fun ok0 ok1 hf => (next_cardRetire_asks hstep hroom hx h hf).imp fun t hasks => ⟨hasks.waits, hasks.last⟩,
      fun ok0 ok1 => next_cardRetire_failed hstep hroom hx h⟩

end Sys2Proof.Machine
end
